-- ==== Sys2Proof/Word.lean ====
section
/-! DEFINITION. Words: the widths the manual names, and the cutting of a number into bit fields. -/

namespace Sys2Proof

/-- A register's 32 bits (R27). -/
abbrev Word := BitVec 32
/-- 16 bits: a vector lane, a drive code, a beam value (R6, R7). -/
abbrev Half := BitVec 16
abbrev Byte := BitVec 8

/-- Bits [lo + w - 1 : lo] of a number. -/
def bitsOf (v lo w : Nat) : Nat := v / 2 ^ lo % 2 ^ w

/-- A number with its bits [lo + w - 1 : lo] replaced by `n` modulo 2^w. -/
def putBits (v lo w n : Nat) : Nat :=
  v % 2 ^ lo + n % 2 ^ w * 2 ^ lo + v / 2 ^ (lo + w) * 2 ^ (lo + w)

/-- Signed reading of the low `w` bits. -/
def signOf (w v : Nat) : Int :=
  if 2 * (v % 2 ^ w) < 2 ^ w then (v % 2 ^ w : Nat) else ((v % 2 ^ w : Nat) : Int) - ((2 ^ w : Nat) : Int)

/-- The low `w` bits of an integer, two's complement. -/
def unsignOf (w : Nat) (i : Int) : Nat := (i % ((2 ^ w : Nat) : Int)).toNat

/-- Saturation at `m`. -/
def satAt (m n : Nat) : Nat := min n m

end Sys2Proof
end

