-- ==== Sys2Proof/Machine/EventCodes.lean ====
section
/-! DEFINITION. The event codes: class, code and priority of every event the spec's event tables list (R56, R74, R97,
R125, R159, R188, R209, R241, R270, R296, R323, R352, R382, R398, R428), and the source codes of R339. -/

namespace Sys2Proof.Machine

/-- The kind of an event: its class code (R340), its event code and its priority. -/
structure EvKind where
  cls : Nat
  code : Nat
  prio : Nat
deriving DecidableEq, Repr

/-- CONFIG `LOAD_FAIL`; data: [23:16] ERROR.SECTION, [7:0] ERROR.CODE -/
def evCONFIG_LOAD_FAIL : EvKind := ⟨13, 0x0001, 1⟩
/-- CONFIG `UPD_REFUSED`; data: [7:0] UPDATE_STATUS.ERR_CODE -/
def evCONFIG_UPD_REFUSED : EvKind := ⟨13, 0x0002, 2⟩
/-- CONFIG `UPD_DONE`; data: UPDATE_FRAME -/
def evCONFIG_UPD_DONE : EvKind := ⟨13, 0x0003, 3⟩
/-- CONFIG `UPD_CANCELLED`; data: 0 by CANCEL; 1 by a power-state entry -/
def evCONFIG_UPD_CANCELLED : EvKind := ⟨13, 0x0004, 2⟩
/-- CONFIG `LOCK_VIOL`; data: [23:0] register offset written -/
def evCONFIG_LOCK_VIOL : EvKind := ⟨13, 0x0005, 2⟩
/-- CONFIG `TILE_MISMATCH`; data: [31:30] port; [7:0] offset in the capability record of the first field differing from the first type declared for the port (R49), 0xFF for authenticity -/
def evCONFIG_TILE_MISMATCH : EvKind := ⟨13, 0x0006, 1⟩
/-- CONFIG `DRAM_EXTRA`; data: [31:16] populated size found, MiB; [0] channel -/
def evCONFIG_DRAM_EXTRA : EvKind := ⟨13, 0x0007, 3⟩
/-- CONFIG `OTP_REFUSED`; data: [15:8] reason: 1 temperature, 2 condition not met, 3 BUSY; [7:0] command -/
def evCONFIG_OTP_REFUSED : EvKind := ⟨13, 0x0008, 2⟩
/-- BOOT `IMAGE_A_FAIL`; data: [23:16] failing section, [7:0] load error code (R55) -/
def evBOOT_IMAGE_A_FAIL : EvKind := ⟨14, 0x0001, 1⟩
/-- BOOT `IMAGE_B_FAIL`; data: as IMAGE_A_FAIL -/
def evBOOT_IMAGE_B_FAIL : EvKind := ⟨14, 0x0002, 1⟩
/-- BOOT `DEGRADED_CLK`; data: [15:0] REFCLK edges counted in 20 µs -/
def evBOOT_DEGRADED_CLK : EvKind := ⟨14, 0x0003, 1⟩
/-- BOOT `REFCLK_RECOVERED`; data: 0 -/
def evBOOT_REFCLK_RECOVERED : EvKind := ⟨14, 0x0004, 2⟩
/-- BOOT `RAIL_FAIL`; data: [3:0] step index of the BOARD rail sequence -/
def evBOOT_RAIL_FAIL : EvKind := ⟨14, 0x0005, 1⟩
/-- BOOT `DRAM_TRAIN_FAIL`; data: [1:0] channels that failed, one bit each -/
def evBOOT_DRAM_TRAIN_FAIL : EvKind := ⟨14, 0x0006, 1⟩
/-- BOOT `FB_LATE`; data: time to the first FB_EN_n, 0.1 ms -/
def evBOOT_FB_LATE : EvKind := ⟨14, 0x0007, 2⟩
/-- BOOT `FULL_BEAM_LATE`; data: first tile still in fallback -/
def evBOOT_FULL_BEAM_LATE : EvKind := ⟨14, 0x0008, 2⟩
/-- BOOT `START_DONE`; data: TOP.START_TIMES -/
def evBOOT_START_DONE : EvKind := ⟨14, 0x0009, 3⟩
/-- BE `ENGINE_FAULT`; data: [31:24] engine, [23:16] exception code, [12:0] PC -/
def evBE_ENGINE_FAULT : EvKind := ⟨12, 0x0001, 1⟩
/-- BE `ENGINE_RESTART`; data: engine -/
def evBE_ENGINE_RESTART : EvKind := ⟨12, 0x0002, 2⟩
/-- BE `SPARE_TAKEOVER`; data: [15:8] spare engine, [7:0] faulted engine -/
def evBE_SPARE_TAKEOVER : EvKind := ⟨12, 0x0003, 1⟩
/-- BE `PROGRAM_LOST`; data: [15:8] program, [7:0] faulted engine -/
def evBE_PROGRAM_LOST : EvKind := ⟨12, 0x0004, 1⟩
/-- BE `TRIG_OVERRUN`; data: engine; at most one per engine per 10 ms -/
def evBE_TRIG_OVERRUN : EvKind := ⟨12, 0x0005, 2⟩
/-- BE `PROG_ACTIVE`; data: [15:8] program, [7:0] engine; new image running after a runtime update -/
def evBE_PROG_ACTIVE : EvKind := ⟨12, 0x0006, 3⟩
/-- BE `MASK_LATE`; data: frame counter of the frame missed -/
def evBE_MASK_LATE : EvKind := ⟨12, 0x8001, 1⟩
/-- BE `OBJ_STALE`; data: LIST_ID held -/
def evBE_OBJ_STALE : EvKind := ⟨12, 0x8002, 1⟩
/-- BE `OBJ_FRESH`; data: LIST_ID -/
def evBE_OBJ_FRESH : EvKind := ⟨12, 0x8003, 3⟩
/-- BE `POSE_STALE`; data: pose age, µs, saturating -/
def evBE_POSE_STALE : EvKind := ⟨12, 0x8004, 2⟩
/-- BE `OBJ_LIST_BAD`; data: LIST_ID -/
def evBE_OBJ_LIST_BAD : EvKind := ⟨12, 0x8005, 2⟩
/-- BE `OBJ_FIXED`; data: [31:16] LIST_ID low bits, [15:0] OBJ_ID -/
def evBE_OBJ_FIXED : EvKind := ⟨12, 0x8006, 3⟩
/-- BE `INPUT_OLD`; data: records discarded in the last second -/
def evBE_INPUT_OLD : EvKind := ⟨12, 0x8007, 3⟩
/-- BE `MASK_PARAM_BAD`; data: offset of the first field out of bounds -/
def evBE_MASK_PARAM_BAD : EvKind := ⟨12, 0x8008, 2⟩
/-- BE `SYMBOL_BAD`; data: slot -/
def evBE_SYMBOL_BAD : EvKind := ⟨12, 0x8010, 2⟩
/-- BE `SYMBOL_EXPIRED`; data: slot -/
def evBE_SYMBOL_EXPIRED : EvKind := ⟨12, 0x8011, 3⟩
/-- BE `SYMBOL_BUDGET`; data: first slot left out -/
def evBE_SYMBOL_BUDGET : EvKind := ⟨12, 0x8012, 2⟩
/-- BE `PATTERN_CLAMPED`; data: slot -/
def evBE_PATTERN_CLAMPED : EvKind := ⟨12, 0x8020, 2⟩
/-- BE `PATTERN_BAD`; data: slot -/
def evBE_PATTERN_BAD : EvKind := ⟨12, 0x8021, 2⟩
/-- BE `AGING_PAUSED`; data: seconds paused -/
def evBE_AGING_PAUSED : EvKind := ⟨12, 0x8030, 2⟩
/-- BE `HEALTH_CANDIDATES`; data: candidates added in the last sweep -/
def evBE_HEALTH_CANDIDATES : EvKind := ⟨12, 0x8040, 3⟩
/-- BE `POWER_SUM_LATE`; data: housekeeping rounds missed -/
def evBE_POWER_SUM_LATE : EvKind := ⟨12, 0x8050, 2⟩
/-- COMPOSE `ROW_CARRY`; data: [31:30] tile, [29:0] frame counter low bits -/
def evCOMPOSE_ROW_CARRY : EvKind := ⟨6, 0x0001, 2⟩
/-- COMPOSE `FLIP_DEFERRED`; data: [31:30] group, [29:0] frame counter low bits -/
def evCOMPOSE_FLIP_DEFERRED : EvKind := ⟨6, 0x0002, 2⟩
/-- COMPOSE `FLIP_REFUSED`; data: [31:30] group, [7:0] reason -/
def evCOMPOSE_FLIP_REFUSED : EvKind := ⟨6, 0x0003, 2⟩
/-- COMPOSE `LAYER_STALE`; data: [31:29] layer, [28:27] policy, [7:0] age -/
def evCOMPOSE_LAYER_STALE : EvKind := ⟨6, 0x0004, 1⟩
/-- COMPOSE `LAYER_FRESH`; data: [31:29] layer -/
def evCOMPOSE_LAYER_FRESH : EvKind := ⟨6, 0x0005, 3⟩
/-- COMPOSE `TAPS_REDUCED`; data: [31:30] tile, [29:27] layer, [3:0] taps used -/
def evCOMPOSE_TAPS_REDUCED : EvKind := ⟨6, 0x0006, 3⟩
/-- COMPOSE `LINEBUF_SHORT`; data: [31:30] tile, [29:27] layer, [15:0] W_src -/
def evCOMPOSE_LINEBUF_SHORT : EvKind := ⟨6, 0x0007, 2⟩
/-- COMPOSE `SBC_ERROR`; data: [31:30] tile, [29:27] layer, [23:0] block index -/
def evCOMPOSE_SBC_ERROR : EvKind := ⟨6, 0x0008, 1⟩
/-- COMPOSE `RAW_TEAR`; data: [31:29] layer -/
def evCOMPOSE_RAW_TEAR : EvKind := ⟨6, 0x0009, 3⟩
/-- COMPOSE `RAW_REFUSED`; data: [31:29] layer -/
def evCOMPOSE_RAW_REFUSED : EvKind := ⟨6, 0x000A, 2⟩
/-- COMPOSE `CAPTURE_DROP`; data: [31:29] writer, [15:0] frame count low bits -/
def evCOMPOSE_CAPTURE_DROP : EvKind := ⟨6, 0x000B, 2⟩
/-- COMPOSE `CAPTURE_BAD`; data: [31:29] writer, [7:0] reason -/
def evCOMPOSE_CAPTURE_BAD : EvKind := ⟨6, 0x000C, 2⟩
/-- PRESS `SAT`; data: [31:30] tile, [17:0] SAT_PIXELS -/
def evPRESS_SAT : EvKind := ⟨7, 0x0001, 3⟩
/-- PRESS `CORR_UE`; data: [31:30] tile, [17:0] pixel index -/
def evPRESS_CORR_UE : EvKind := ⟨7, 0x0002, 1⟩
/-- PRESS `SEL_MISMATCH`; data: [31:30] tile, [17:0] pixel index -/
def evPRESS_SEL_MISMATCH : EvKind := ⟨7, 0x0003, 1⟩
/-- PRESS `ROI_MISMATCH`; data: [31:30] tile, [15:0] region mask -/
def evPRESS_ROI_MISMATCH : EvKind := ⟨7, 0x0004, 1⟩
/-- PRESS `UPD_DONE`; data: [31:30] tile, [29:0] UPD_FRAME low bits -/
def evPRESS_UPD_DONE : EvKind := ⟨7, 0x0005, 3⟩
/-- PRESS `UPD_ERROR`; data: [31:30] tile, [3:0] ERR -/
def evPRESS_UPD_ERROR : EvKind := ⟨7, 0x0006, 2⟩
/-- PRESS `TILE_CAPPED`; data: [31:30] tile, [15:0] k_tile -/
def evPRESS_TILE_CAPPED : EvKind := ⟨7, 0x0007, 2⟩
/-- PRESS `SNAP_INCOMPLETE`; data: [31:30] tile, [29:0] SEQ low bits -/
def evPRESS_SNAP_INCOMPLETE : EvKind := ⟨7, 0x0008, 3⟩
/-- PRESS `REC_SKIP`; data: [31:30] tile, [29:0] SEQ low bits -/
def evPRESS_REC_SKIP : EvKind := ⟨7, 0x0009, 3⟩
/-- PRESS `REC_FROZEN`; data: [3:0] trigger source -/
def evPRESS_REC_FROZEN : EvKind := ⟨7, 0x000A, 1⟩
/-- PRESS `REC_REARMED`; data: 0 -/
def evPRESS_REC_REARMED : EvKind := ⟨7, 0x000B, 3⟩
/-- TG `TORN`; data: [31:30] tile, [29:0] frame number low bits -/
def evTG_TORN : EvKind := ⟨8, 0x0001, 2⟩
/-- TG `SLOT_SKIP`; data: [31:30] tile, [19:16] slot mask, [3:0] reason: 1 not ready, 2 map late, 3 overlaps guard, 4 fallback, 5 half rate -/
def evTG_SLOT_SKIP : EvKind := ⟨8, 0x0002, 3⟩
/-- TG `SENSE_SKIP`; data: [31:30] tile, [4:0] chunk -/
def evTG_SENSE_SKIP : EvKind := ⟨8, 0x0003, 3⟩
/-- TG `TIMING_APPLIED`; data: TIMING_FRAME -/
def evTG_TIMING_APPLIED : EvKind := ⟨8, 0x0004, 3⟩
/-- TG `TIMING_REFUSED`; data: [8] 1 direct write, 0 commit; [7:0] reason -/
def evTG_TIMING_REFUSED : EvKind := ⟨8, 0x0005, 2⟩
/-- TG `REPHASE_START`; data: δ, signed ns, saturating -/
def evTG_REPHASE_START : EvKind := ⟨8, 0x0006, 2⟩
/-- TG `REPHASE_DONE`; data: frames used -/
def evTG_REPHASE_DONE : EvKind := ⟨8, 0x0007, 3⟩
/-- TG `TG_STARTED`; data: [31:30] tile, [29:0] first frame number low bits -/
def evTG_TG_STARTED : EvKind := ⟨8, 0x0008, 3⟩
/-- TG `TG_STOPPED`; data: [31:30] tile -/
def evTG_TG_STOPPED : EvKind := ⟨8, 0x0009, 2⟩
/-- TG `HALF_RATE`; data: [31:30] tile, [0] 1 entry, 0 exit -/
def evTG_HALF_RATE : EvKind := ⟨8, 0x000A, 1⟩
/-- TG `START_REFUSED`; data: [31:30] tile, [3:0] reason -/
def evTG_START_REFUSED : EvKind := ⟨8, 0x000B, 2⟩
/-- ZTL `PORT_UP`; data: [31:30] port, [2:0] usable data lanes, a mask of the device's lanes: bit k for Dk -/
def evZTL_PORT_UP : EvKind := ⟨4, 0x0001, 3⟩
/-- ZTL `PORT_DOWN`; data: [31:30] port, [3:0] cause (R238) -/
def evZTL_PORT_DOWN : EvKind := ⟨4, 0x0002, 1⟩
/-- ZTL `ATTEMPT_FAIL`; data: [31:30] port, [11:8] state, [7:0] attempt -/
def evZTL_ATTEMPT_FAIL : EvKind := ⟨4, 0x0003, 2⟩
/-- ZTL `TILE_ABSENT`; data: [31:30] port -/
def evZTL_TILE_ABSENT : EvKind := ⟨4, 0x0004, 1⟩
/-- ZTL `LANE_FAIL`; data: [31:30] port, [7:4] failed lane, [3:0] lane now carrying its stripe, 3 none -/
def evZTL_LANE_FAIL : EvKind := ⟨4, 0x0005, 1⟩
/-- ZTL `LANE_RETURN`; data: [31:30] port, [3:0] lane returned as spare or stripe -/
def evZTL_LANE_RETURN : EvKind := ⟨4, 0x0006, 3⟩
/-- ZTL `RETRAIN`; data: [31:30] port, [3:0] lane, 3 for BK; [4] 1 passed -/
def evZTL_RETRAIN : EvKind := ⟨4, 0x0007, 3⟩
/-- ZTL `CAL_REJECT`; data: [31:30] port, [3:0] lane, [15:8] centre difference, steps -/
def evZTL_CAL_REJECT : EvKind := ⟨4, 0x0008, 2⟩
/-- ZTL `BACK_FAIL`; data: [31:30] port -/
def evZTL_BACK_FAIL : EvKind := ⟨4, 0x0009, 1⟩
/-- ZTL `BACK_RESTORED`; data: [31:30] port -/
def evZTL_BACK_RESTORED : EvKind := ⟨4, 0x000A, 3⟩
/-- ZTL `ROW_DAMAGED`; data: [31:30] port, [8:0] last row -/
def evZTL_ROW_DAMAGED : EvKind := ⟨4, 0x000B, 2⟩
/-- ZTL `SPARE_FAIL`; data: [31:30] port, [3:0] spare lane, 3 none -/
def evZTL_SPARE_FAIL : EvKind := ⟨4, 0x000C, 2⟩
/-- ZTL `RECAL_DONE`; data: [31:30] port, [3:0] lane, [14:8] eye width -/
def evZTL_RECAL_DONE : EvKind := ⟨4, 0x000D, 3⟩
/-- ZTL `FRAME_HELD`; data: [31:30] port, [19:16] reasons, [15:0] frame bits [15:0] -/
def evZTL_FRAME_HELD : EvKind := ⟨4, 0x000E, 2⟩
/-- ZTL `SWAP_ACK_MISSING`; data: [31:30] port, [15:0] frame bits [15:0] -/
def evZTL_SWAP_ACK_MISSING : EvKind := ⟨4, 0x000F, 2⟩
/-- ZTL `FB_ACK_LATE`; data: [31:30] port -/
def evZTL_FB_ACK_LATE : EvKind := ⟨4, 0x0010, 1⟩
/-- ZTL `BLOCK_BAD`; data: [31:30] port, [3:0] block kind -/
def evZTL_BLOCK_BAD : EvKind := ⟨4, 0x0011, 2⟩
/-- ZTL `TILE_FAULT`; data: [31:30] port, [7:0] fault code -/
def evZTL_TILE_FAULT : EvKind := ⟨4, 0x0012, 1⟩
/-- ZTL `NV_DEFERRED`; data: [31:30] port, [15:0] hottest block estimate, signed, 1/16 K -/
def evZTL_NV_DEFERRED : EvKind := ⟨4, 0x0013, 3⟩
/-- ZTL `NV_DONE`; data: [31:30] port, [15:0] LIFE_SEQ -/
def evZTL_NV_DONE : EvKind := ⟨4, 0x0014, 3⟩
/-- ZTL `NV_FAIL`; data: [31:30] port, [7:0] result -/
def evZTL_NV_FAIL : EvKind := ⟨4, 0x0015, 1⟩
/-- ZTL `SEL_RESENT`; data: [31:30] port, [10:0] spans -/
def evZTL_SEL_RESENT : EvKind := ⟨4, 0x0016, 3⟩
/-- HEALTH `CAL_MAP_FAIL`; data: [31:30] tile -/
def evHEALTH_CAL_MAP_FAIL : EvKind := ⟨5, 0x0001, 1⟩
/-- HEALTH `SENSE_STALE`; data: [31:30] tile, [3:0] chunk -/
def evHEALTH_SENSE_STALE : EvKind := ⟨5, 0x0002, 2⟩
/-- HEALTH `EMITTER_FAILED`; data: [31:30] tile, [29] kind, [17:0] pixel index; at most one per tile per light frame -/
def evHEALTH_EMITTER_FAILED : EvKind := ⟨5, 0x0003, 2⟩
/-- HEALTH `DARN_SUBST`; data: [31:30] tile, [17:0] pixel index -/
def evHEALTH_DARN_SUBST : EvKind := ⟨5, 0x0004, 2⟩
/-- HEALTH `DARN_DEAD`; data: [31:30] tile, [17:0] pixel index -/
def evHEALTH_DARN_DEAD : EvKind := ⟨5, 0x0005, 2⟩
/-- HEALTH `SPARE_LOST`; data: [31:30] tile, [17:0] pixel index -/
def evHEALTH_SPARE_LOST : EvKind := ⟨5, 0x0006, 3⟩
/-- HEALTH `MASS_FAIL`; data: [31:30] tile, [17:0] emitters confirmed in the sweep -/
def evHEALTH_MASS_FAIL : EvKind := ⟨5, 0x0007, 1⟩
/-- HEALTH `CAL_REJECT`; data: [31] baseline run; [30:29] tile; [28] kind; [8:0] blocks rejected -/
def evHEALTH_CAL_REJECT : EvKind := ⟨5, 0x0008, 2⟩
/-- HEALTH `BASELINE_DONE`; data: [31:30] tile -/
def evHEALTH_BASELINE_DONE : EvKind := ⟨5, 0x0009, 3⟩
/-- HEALTH `EOL_WARN`; data: [31:30] tile, [3:0] indicator -/
def evHEALTH_EOL_WARN : EvKind := ⟨5, 0x000A, 2⟩
/-- HEALTH `EOL_END`; data: [31:30] tile, [3:0] indicator -/
def evHEALTH_EOL_END : EvKind := ⟨5, 0x000B, 1⟩
/-- HEALTH `TILE_REPLACED`; data: [31:30] tile, [29:16] new ID bits [13:0], [15:0] old ID bits [15:0] -/
def evHEALTH_TILE_REPLACED : EvKind := ⟨5, 0x000C, 2⟩
/-- HEALTH `CKPT_DONE`; data: [31:30] tile, [15:0] sequence low bits -/
def evHEALTH_CKPT_DONE : EvKind := ⟨5, 0x000D, 3⟩
/-- HEALTH `CKPT_FAIL`; data: [31:30] tile -/
def evHEALTH_CKPT_FAIL : EvKind := ⟨5, 0x000E, 2⟩
/-- HEALTH `ACC_RESTORED`; data: [3:0] tiles restored -/
def evHEALTH_ACC_RESTORED : EvKind := ⟨5, 0x000F, 3⟩
/-- HEALTH `LR_INVALID`; data: [31:30] tile -/
def evHEALTH_LR_INVALID : EvKind := ⟨5, 0x0010, 2⟩
/-- TIME `TIME_STEP`; data: step, signed ns, saturating -/
def evTIME_TIME_STEP : EvKind := ⟨3, 0x0001, 2⟩
/-- TIME `DOMAIN_SWITCH`; data: [1] automatic; [0] new domain -/
def evTIME_DOMAIN_SWITCH : EvKind := ⟨3, 0x0002, 2⟩
/-- TIME `HOLDOVER`; data: 1 entry, 0 exit -/
def evTIME_HOLDOVER : EvKind := ⟨3, 0x0003, 1⟩
/-- TIME `INCR_REFUSED`; data: [0] domain; [1] servo mode -/
def evTIME_INCR_REFUSED : EvKind := ⟨3, 0x0004, 2⟩
/-- TIME `LATE`; data: [31:26] entry; [25:0] lateness, µs, saturating -/
def evTIME_LATE : EvKind := ⟨3, 0x0005, 2⟩
/-- TIME `MISSED`; data: [31:26] entry; [15:0] executions skipped, saturating -/
def evTIME_MISSED : EvKind := ⟨3, 0x0006, 2⟩
/-- TIME `SCHED_REJECTED`; data: [31:26] entry; [2:0] RESULT -/
def evTIME_SCHED_REJECTED : EvKind := ⟨3, 0x0007, 2⟩
/-- TIME `CAP_OVERFLOW`; data: [0] pin -/
def evTIME_CAP_OVERFLOW : EvKind := ⟨3, 0x0008, 2⟩
/-- TIME `CAP_EDGE`; data: [31] pin; [30] edge; [29:0] stamp bits [29:0] -/
def evTIME_CAP_EDGE : EvKind := ⟨3, 0x0009, 3⟩
/-- TIME `SERVO_CLAMP`; data: [0] domain -/
def evTIME_SERVO_CLAMP : EvKind := ⟨3, 0x000A, 2⟩
/-- TIME `GPTP_LOST`; data: [15:8] domainNumber; [1] port; [0] lamp-time domain -/
def evTIME_GPTP_LOST : EvKind := ⟨3, 0x000B, 1⟩
/-- TIME `GPTP_LOCKED`; data: as GPTP_LOST -/
def evTIME_GPTP_LOCKED : EvKind := ⟨3, 0x000C, 3⟩
/-- HOST `MC_SHED`; data: new SHED_LEVEL -/
def evHOST_MC_SHED : EvKind := ⟨9, 0x0001, 2⟩
/-- HOST `SEQ_GAP`; data: [31:30] channel, [15:0] expected SEQ -/
def evHOST_SEQ_GAP : EvKind := ⟨9, 0x0002, 2⟩
/-- HOST `SEQ_RESYNC`; data: [31:30] channel, [15:0] new SEQ -/
def evHOST_SEQ_RESYNC : EvKind := ⟨9, 0x0003, 3⟩
/-- HOST `ETH_LINK`; data: [1] port; [0] 1 up, 0 down -/
def evHOST_ETH_LINK : EvKind := ⟨9, 0x0004, 2⟩
/-- HOST `MACSEC_PN_LOW`; data: [1] port; [0] association -/
def evHOST_MACSEC_PN_LOW : EvKind := ⟨9, 0x0005, 2⟩
/-- HOST `CSI_ERROR`; data: [31] receiver; [15:0] errors in the last second -/
def evHOST_CSI_ERROR : EvKind := ⟨9, 0x0006, 2⟩
/-- HOST `CAN_LOST`; data: [0] controller -/
def evHOST_CAN_LOST : EvKind := ⟨9, 0x0007, 1⟩
/-- HOST `CAN_BUS_OFF`; data: [0] controller -/
def evHOST_CAN_BUS_OFF : EvKind := ⟨9, 0x0008, 2⟩
/-- HOST `CAN_REQ`; data: [0] 1 latched, 0 released -/
def evHOST_CAN_REQ : EvKind := ⟨9, 0x0009, 1⟩
/-- HOST `EVT_DROPPED`; data: bytes 0 to 3: losses of priorities 0 to 3 -/
def evHOST_EVT_DROPPED : EvKind := ⟨9, 0x000A, 1⟩
/-- HOST `EVT_TAKEOVER`; data: 0 -/
def evHOST_EVT_TAKEOVER : EvKind := ⟨9, 0x000B, 1⟩
/-- HOST `SP_FROZEN`; data: [3:0] trigger source -/
def evHOST_SP_FROZEN : EvKind := ⟨9, 0x000C, 1⟩
/-- HOST `SP_MARK_LOST`; data: SP_SEQ of the lost mark -/
def evHOST_SP_MARK_LOST : EvKind := ⟨9, 0x000D, 2⟩
/-- HOST `SP_REARMED`; data: 0 -/
def evHOST_SP_REARMED : EvKind := ⟨9, 0x000E, 3⟩
/-- SAFETY `SS_ENTER`; data: [31:28] tiles, [25:24] state, [15:0] event code of the cause -/
def evSAFETY_SS_ENTER : EvKind := ⟨0, 0x0001, 0⟩
/-- SAFETY `SS_EXIT`; data: as SS_ENTER -/
def evSAFETY_SS_EXIT : EvKind := ⟨0, 0x0002, 0⟩
/-- SAFETY `ROW_ENERGY`; data: CEIL_LAST -/
def evSAFETY_ROW_ENERGY : EvKind := ⟨0, 0x0003, 0⟩
/-- SAFETY `CEILING_DYN`; data: CEIL_LAST -/
def evSAFETY_CEILING_DYN : EvKind := ⟨0, 0x0004, 0⟩
/-- SAFETY `MASK_AGE`; data: [15:8] limit, [7:0] age -/
def evSAFETY_MASK_AGE : EvKind := ⟨0, 0x0005, 0⟩
/-- SAFETY `STATS_MISSING`; data: [31:30] tile -/
def evSAFETY_STATS_MISSING : EvKind := ⟨0, 0x0006, 0⟩
/-- SAFETY `ROI_SAFE_FAIL`; data: [31:30] tile, [15:0] regions -/
def evSAFETY_ROI_SAFE_FAIL : EvKind := ⟨0, 0x0007, 0⟩
/-- SAFETY `TIMING_LIMIT`; data: [31] 1 slot, 0 D; [23:0] value, 4 ns -/
def evSAFETY_TIMING_LIMIT : EvKind := ⟨0, 0x0008, 0⟩
/-- SAFETY `SIN_DISCREPANCY`; data: [1:0] input -/
def evSAFETY_SIN_DISCREPANCY : EvKind := ⟨0, 0x0009, 0⟩
/-- SAFETY `INTERLOCK_OPEN`; data: 0 -/
def evSAFETY_INTERLOCK_OPEN : EvKind := ⟨0, 0x000A, 0⟩
/-- SAFETY `SWITCH_FAIL`; data: [31:30] tile; [1] 1 low side; [0] 1 stuck closed -/
def evSAFETY_SWITCH_FAIL : EvKind := ⟨0, 0x000B, 0⟩
/-- SAFETY `TEST_SKIPPED`; data: [31:30] tile; [1] 1 low side -/
def evSAFETY_TEST_SKIPPED : EvKind := ⟨0, 0x000C, 3⟩
/-- SAFETY `ACT_LIMIT`; data: [0] actuator; [3:1] 1 window, 2 speed, 3 direction, 4 homing -/
def evSAFETY_ACT_LIMIT : EvKind := ⟨0, 0x000D, 0⟩
/-- SAFETY `ACT_MISMATCH`; data: [31:16] counts differ, steps; [0] actuator -/
def evSAFETY_ACT_MISMATCH : EvKind := ⟨0, 0x000E, 0⟩
/-- SAFETY `CHANNEL_LOST`; data: 0; source names the reporting channel -/
def evSAFETY_CHANNEL_LOST : EvKind := ⟨0, 0x000F, 0⟩
/-- SAFETY `MC_HEARTBEAT_LOST`; data: 0 (R17) -/
def evSAFETY_MC_HEARTBEAT_LOST : EvKind := ⟨0, 0x0010, 1⟩
/-- SAFETY `SELFTEST_FAIL`; data: 1 SC, 2 Tether (R66) -/
def evSAFETY_SELFTEST_FAIL : EvKind := ⟨0, 0x0011, 0⟩
/-- SAFETY `HANDOVER_HELD`; data: [31:30] tile (R71) -/
def evSAFETY_HANDOVER_HELD : EvKind := ⟨0, 0x0012, 1⟩
/-- SAFETY `FAULT_ACK`; data: bits cleared -/
def evSAFETY_FAULT_ACK : EvKind := ⟨0, 0x0013, 2⟩
/-- SAFETY `ACK_REFUSED`; data: mask written -/
def evSAFETY_ACK_REFUSED : EvKind := ⟨0, 0x0014, 1⟩
/-- SAFETY `PITCH_STALE`; data: pose age, ms, saturating -/
def evSAFETY_PITCH_STALE : EvKind := ⟨0, 0x0015, 1⟩
/-- SAFETY `TILE_POLICY`; data: [31:30] tile, [1:0] policy -/
def evSAFETY_TILE_POLICY : EvKind := ⟨0, 0x0016, 0⟩
/-- MEM `BUS_ERR`; data: address bits [31:0] (R26) -/
def evMEM_BUS_ERR : EvKind := ⟨10, 0x0001, 2⟩
/-- MEM `CE`; data: [31:28] region, [22:16] syndrome, [15:0] corrected errors in the region since the last CE of that region -/
def evMEM_CE : EvKind := ⟨10, 0x0002, 3⟩
/-- MEM `UE`; data: [31:28] region, [27:0] address bits [29:2] -/
def evMEM_UE : EvKind := ⟨10, 0x0003, 1⟩
/-- MEM `CE_REPEAT`; data: [31:28] region, [27:0] address bits [29:2] -/
def evMEM_CE_REPEAT : EvKind := ⟨10, 0x0004, 2⟩
/-- MEM `SCRUB_DONE`; data: PASSES -/
def evMEM_SCRUB_DONE : EvKind := ⟨10, 0x0005, 3⟩
/-- CRC `CRC_DONE`; data: [31:30] unit, [13:12] OUTCOME, [4:2] error bits -/
def evCRC_CRC_DONE : EvKind := ⟨11, 0x0001, 3⟩
/-- CRC `DATA_MISMATCH`; data: [31:30] unit, [11] REF_UNRESOLVED -/
def evCRC_DATA_MISMATCH : EvKind := ⟨11, 0x0002, 1⟩
/-- CRC `REF_CORRUPT`; data: [31:30] unit, [0] 1 REF_A repaired, 0 REF_B repaired -/
def evCRC_REF_CORRUPT : EvKind := ⟨11, 0x0003, 2⟩
/-- POWER `PWR_VETO`; data: [3:0] target -/
def evPOWER_PWR_VETO : EvKind := ⟨1, 0x0001, 2⟩
/-- POWER `PWR_DONE`; data: [7:4] old state, [3:0] new state -/
def evPOWER_PWR_DONE : EvKind := ⟨1, 0x0002, 3⟩
/-- POWER `PWR_REFUSED`; data: [7:4] REASON, [3:0] target -/
def evPOWER_PWR_REFUSED : EvKind := ⟨1, 0x0003, 2⟩
/-- POWER `WAKE_ABORT`; data: [11:8] step, [3:0] state -/
def evPOWER_WAKE_ABORT : EvKind := ⟨1, 0x0004, 2⟩
/-- POWER `WAKE`; data: WAKE_SRC -/
def evPOWER_WAKE : EvKind := ⟨1, 0x0005, 3⟩
/-- POWER `RET_LOST`; data: first bad entry; 0xFFFF CRC -/
def evPOWER_RET_LOST : EvKind := ⟨1, 0x0006, 1⟩
/-- POWER `WAKE_FAIL`; data: WAKE_FAIL_CAUSE -/
def evPOWER_WAKE_FAIL : EvKind := ⟨1, 0x0007, 1⟩
/-- POWER `PLL_FAIL`; data: [3:0] 0 SYS, 1 PIX, 2 BE, 3 TIME, 4 ZTL, 5 DDR -/
def evPOWER_PLL_FAIL : EvKind := ⟨1, 0x0008, 1⟩
/-- POWER `SUPPLY_WINDOW`; data: [31:16] mV, [7:0] rail -/
def evPOWER_SUPPLY_WINDOW : EvKind := ⟨1, 0x0009, 1⟩
/-- POWER `AUTO_CHOSEN`; data: [31:4] T, ms, saturating; [3:0] state -/
def evPOWER_AUTO_CHOSEN : EvKind := ⟨1, 0x000A, 3⟩
/-- THERMAL `HLV_STALE`; data: HLV_STATUS [2:0] -/
def evTHERMAL_HLV_STALE : EvKind := ⟨2, 0x0001, 1⟩
/-- THERMAL `DERATE_ON`; data: [31:30] tile, [7:0] block -/
def evTHERMAL_DERATE_ON : EvKind := ⟨2, 0x0002, 2⟩
/-- THERMAL `DERATE_OFF`; data: [31:30] tile -/
def evTHERMAL_DERATE_OFF : EvKind := ⟨2, 0x0003, 3⟩
/-- THERMAL `TILE_CUT`; data: [31:30] tile, [15:0] hottest Test -/
def evTHERMAL_TILE_CUT : EvKind := ⟨2, 0x0004, 1⟩
/-- THERMAL `TILE_CUT_END`; data: [31:30] tile -/
def evTHERMAL_TILE_CUT_END : EvKind := ⟨2, 0x0005, 2⟩
/-- THERMAL `SENSOR_IGNORED`; data: [9:8] reason, [7:0] sensor: 0x00 to 0x07 tile, 0x10 to 0x17 die -/
def evTHERMAL_SENSOR_IGNORED : EvKind := ⟨2, 0x0006, 2⟩
/-- THERMAL `PSUM_STALE`; data: rounds without a table -/
def evTHERMAL_PSUM_STALE : EvKind := ⟨2, 0x0007, 2⟩
/-- THERMAL `ROUND_LATE`; data: 0 -/
def evTHERMAL_ROUND_LATE : EvKind := ⟨2, 0x0008, 2⟩
/-- THERMAL `DIE_HOT`; data: DIE_TEMP_MAX -/
def evTHERMAL_DIE_HOT : EvKind := ⟨2, 0x0009, 1⟩
/-- THERMAL `DIE_CRIT`; data: DIE_TEMP_MAX -/
def evTHERMAL_DIE_CRIT : EvKind := ⟨2, 0x000A, 0⟩

/-! Source codes (R339): bits [23:16] of the posting unit's register base, and the codes 0x40 to 0x49. -/

def srcTOP : Nat := 0x00
def srcBSTREAM : Nat := 0x01
def srcPWR : Nat := 0x02
def srcHK : Nat := 0x03
def srcTIME : Nat := 0x04
def srcHOSTIF : Nat := 0x08
def srcMSG : Nat := 0x0C
def srcCP (n : Nat) : Nat := 0x10 + n
def srcPRESS (n : Nat) : Nat := 0x14 + n
def srcTG (n : Nat) : Nat := 0x18 + n
def srcZTL (n : Nat) : Nat := 0x1C + n
def srcHEALTH : Nat := 0x20
def srcCRC : Nat := 0x2C
def srcMEM : Nat := 0x30
def srcMC0 : Nat := 0x40
def srcMC1 : Nat := 0x41
def srcROM : Nat := 0x42
def srcSC : Nat := 0x48
def srcTT : Nat := 0x49

end Sys2Proof.Machine
end

