-- ==== Sys2Proof/Syntax.lean ====
section
/-! DEFINITION. The commands: one constructor of `Instr` per row of spec/opcode_table.json, with the row's operands, and the
types of the operands. The content of a configuration section has no byte layout in the spec, so it is given as typed
data beside the section's bytes (log 9). -/

namespace Sys2Proof

/-! ### What the sections of a bit-stream declare (R38) -/

/-- Lamp arrangements (R4). -/
inductive Arrangement where
  | a4x1 | a2x2 | a2x1 | a1x1
deriving DecidableEq, Repr

/-- STRUCTURE: tiles, arrangement, staging buffer, and the register values it declares (layers, flip groups, routing,
light-frame timing, table bases). -/
structure StructureC where
  tiles : Nat := 1
  arr : Arrangement := .a1x1
  stagingBase : Nat := 0
  stagingMiB : Nat := 16
  regs : List (Nat × Word) := []
deriving DecidableEq, Repr

/-- One step of the BOARD rail sequence (R65): the rail (its number in R433's order), settle time and limit in µs. -/
structure RailStep where
  rail : Nat
  settleUs : Nat
  limitUs : Nat
deriving DecidableEq, Repr

/-- An accepted tile type of a port (R49, R263, R268). -/
structure TileType where
  vendor : Nat
  typ : Nat
  /-- columns × 65536 + rows -/
  geometry : Nat := 0x02000200
  spares : Bool := true
  authKey : Option (List Byte) := none
deriving DecidableEq, Repr

/-- BOARD. Sizes in MiB, flight times in 1/16 ns per port, supply windows in mV per rail; per CSI receiver the pins of its lanes in order,
and whether a lane's polarity is reversed (R328). -/
structure BoardC where
  pmicId : Nat := 0
  rails : List RailStep := []
  dramMiB : Nat := 512
  wpMiB : Nat := 256
  wuMiB : Nat := 0
  tileTypes : List (List TileType) := []
  flight : List Nat := []
  windows : List (Nat × Nat) := []
  accountOff : Nat := 0
  accountLen : Nat := 33554432
  csiLanes : List (List (Nat × Bool)) := []
  regs : List (Nat × Word) := []
deriving DecidableEq, Repr

/-- The bounds SAFETY declares for the values of SAFETY_RT (R53). -/
structure RtBounds where
  staleMax : Nat × Nat := (1, 255)
  maskAgeMax : Nat × Nat := (1, 32)
  sStale : Int × Int := (-32768, 32767)
  ceilStep : Nat × Nat := (1, 16)
deriving DecidableEq, Repr

/-- The limits of one actuator (R365): steps, steps/s, 0.01 m/s, DIR level, steps. -/
structure ActC where
  posMin : Int := -32768
  posMax : Int := 32767
  vMax : Nat := 20000
  vDir : Nat := 65535
  downDir : Bool := false
  homeSteps : Nat := 32767
deriving DecidableEq, Repr

/-- SAFETY (R353 to R381): ceiling tables of (CEIL_ROW, E_MAX), times in ns, actuator limits. -/
structure SafetyC where
  ceilLow : List (Nat × Nat) := []
  ceilHigh : List (Nat × Nat) := []
  dMax : Option Nat := none
  slotMax : Option Nat := none
  rowsPerDeg : Nat := 0
  levelGain : Nat := 0
  pitchAgeMaxMs : Nat := 100
  staleMax : Nat := 255
  bounds : RtBounds := {}
  act : List ActC := []
  regs : List (Nat × Word) := []
deriving DecidableEq, Repr

/-- POWER (R409, R416): the retention list and the thermal model's parameters: time constants in ms, resistances in mK/W,
temperatures in m°C, K_LAT in 1/10000; SENSOR_BLOCK_s of tile n at place 2n + s. -/
structure PowerC where
  retention : List Nat := []
  tauB : Nat := 0
  rB : Nat := 0
  kLat : Nat := 0
  tauS : Nat := 0
  rS : Nat := 0
  tSink : Int := 0
  capT0 : Int := 0
  capT1 : Int := 0
  sensorBlock : List Nat := []
  regs : List (Nat × Word) := []
deriving DecidableEq, Repr

/-- One gPTP instance of TIME (R307): its domain number, port, lamp-time domain and grandmaster. -/
structure GptpC where
  domainNumber : Nat
  port : Nat
  dom : Nat
  gm : Nat
deriving DecidableEq, Repr

/-- TIME (R298 to R309): gPTP instances; per Ethernet port and direction the latency of the PHY and of the SerDes, FRC ticks. -/
structure TimeC where
  gptp : List GptpC := []
  rxLat : List Nat := []
  txLat : List Nat := []
  rxSer : List Nat := []
  txSer : List Nat := []
  regs : List (Nat × Word) := []
deriving DecidableEq, Repr

/-- A MACsec association key and its packet-number width, with the SSCI and the salt of an XPN association (R326). -/
structure SakC where
  port : Nat
  tx : Bool
  assoc : Nat
  key : List Byte
  xpn : Bool
  ssci : Nat := 0
  salt : List Byte := []
deriving DecidableEq, Repr

/-- The NTSCF stream that a port sends (R325): its stream ID, the host's address, its priority and VLAN where it is tagged. -/
structure TxStreamC where
  stream : Nat := 0
  dst : Nat := 0
  vlan : Option (Nat × Nat) := none
deriving DecidableEq, Repr

/-- A CAN identifier (R329): of 29 bits or of 11. -/
structure CanId where
  ext : Bool := false
  id : Nat := 0
deriving DecidableEq, Repr

/-- HOST (R325 to R345): addresses, streams, MACsec with the own and the peer's SCI of each port, CAN, event-stream buckets of (rate, burst)
per class, Spool. -/
structure HostC where
  mac : List Nat := []
  multicast : List Nat := []
  ip : Nat := 0
  bench : Bool := false
  udpPort : Nat := 0
  streamIds : List Nat := []
  gpcMsgId : Nat := 0
  txStreams : List TxStreamC := []
  macsec : List Bool := []
  sci : List (Nat × Nat) := []
  replayWindow : Nat := 0
  saks : List SakC := []
  canReqId : List CanId := []
  canAlarmId : List CanId := []
  canRxTimeoutMs : Nat := 200
  hostChannels : List Nat := []
  buckets : List (Nat × Nat) := []
  diagnostics : Bool := false
  regs : List (Nat × Word) := []
deriving DecidableEq, Repr

/-- PROJECTION: the projection table with one node per lamp block corner, row by row (azimuth and elevation in 1/65,536 °),
the lamp mounting height (mm) and I_FS per lamp block (cd; one value per block is log 124). -/
structure ProjectionC where
  cols : Nat := 0
  rows : Nat := 0
  nodes : List (Int × Int) := []
  heightMm : Nat := 0
  iFs : List Nat := []
deriving DecidableEq, Repr

/-- SAFETY_RT (R361, R362, R155): dynamic sets of (B_c, E_DYN_c) and the limits that may change at run time. -/
structure SafetyRtC where
  dynLow : List (Int × Nat) := []
  dynHigh : List (Int × Nat) := []
  sStale : Int := 0
  ceilStep : Nat := 2
  maskLayer : Nat := 7
  maskAgeMax : Nat := 3
  roiSafe : Nat := 0
  staleMax : Option (List Nat) := none
deriving DecidableEq, Repr

/-- One schedule template (R312). -/
structure SchedEntry where
  entry : Nat
  cfg : Word
  arg : Word
  period : Word
  target : Nat
deriving DecidableEq, Repr

/-- The six supplied programs of chapter 5, or a program of the integrator's. -/
inductive ProgKind where
  | mask | projection | pattern | aging | health | powerSum | user
deriving DecidableEq, Repr

/-- An opcode a program owns: its target engines and its shared mark (R95). -/
structure OpcodeC where
  opcode : Nat
  targets : Nat
  shared : Bool := false
deriving DecidableEq, Repr

/-- BEPROG: one program (R105), its instruction words of 64 bits and its initial local data; `params` holds the
addresses and limits a supplied program's image carries (log 30). Engines, trigger, opcodes, fences and the spare mark that a supplied
program does not give are those of R108 and R109. -/
structure BeprogC where
  number : Nat
  kind : ProgKind := .user
  engines : List Nat := []
  spareEligible : Option Bool := none
  isSpare : Bool := false
  image : List (BitVec 64) := []
  data : List Byte := []
  entry : Nat := 0
  trig : Option Word := none
  opcodes : List OpcodeC := []
  fences : List Nat := []
  params : List Nat := []
deriving DecidableEq, Repr

/-- An image of LIBRARY (R116, R119): its index, its size and its pixels row by row. -/
structure SymImage where
  index : Nat
  width : Nat
  height : Nat
  pix : List Nat := []
deriving DecidableEq, Repr

/-- LIBRARY (R142, R154, R169, R285): curves of 33 knots, fallback descriptors, filter sets, tables of the programs, symbols (MASK8)
and structured-light patterns (BV16). -/
structure LibraryC where
  curves : List (Nat × List Word) := []
  fallback : List (Nat × List Word) := []
  filters : List (Nat × List (List (List Int))) := []
  agingCurves : List (List Nat) := []
  stress : List Nat := []
  symbols : List SymImage := []
  images : List SymImage := []
deriving DecidableEq, Repr

/-- The reading of one section's payload (log 9). -/
inductive Content where
  | structure_ (c : StructureC)
  | board (c : BoardC)
  | safety (c : SafetyC)
  | power (c : PowerC)
  | time (c : TimeC)
  | host (c : HostC)
  | projection (c : ProjectionC)
  | lockmap (ranges : List (Nat × Nat))
  | keywrap
  | safetyRt (c : SafetyRtC)
  | schedule (c : List SchedEntry)
  | beprog (c : BeprogC)
  | library (c : LibraryC)
  | note
deriving DecidableEq, Repr

/-- The fields of a Keav instruction word beside its opcode (R80). -/
structure KvF where
  pg : BitVec 3 := 0
  pn : Bool := false
  d : BitVec 5 := 0
  a : BitVec 5 := 0
  b : BitVec 5 := 0
  c : BitVec 5 := 0
  imm : Word := 0
deriving DecidableEq, Repr

/-- A back-lane block as received (R260): its header's payload P[55:8], its data words, the CRC of its BLOCK_END. -/
structure BlockIn where
  hdr : BitVec 48
  words : List (BitVec 64)
  crc : Word
deriving DecidableEq, Repr

/-- What the back lane brought since the last of these commands: its line bits in order, the blocks' words among them, through the
last bit of the word that the command names (log 123). -/
structure BkBits where
  bits : List Bool
deriving DecidableEq, Repr

/-- A Holvo record as it reaches the router (R333): its CRC is right, or it is not. -/
structure RecIn where
  seq : BitVec 16
  flags : Byte
  ref : BitVec 16
  payload : List Byte
  crcOk : Bool := true
deriving DecidableEq, Repr

/-- An Ethernet frame as received (R325): its bytes from the destination address to the end of the payload, and whether its FCS is
right. -/
structure EthIn where
  frame : List Byte
  fcsOk : Bool
deriving DecidableEq, Repr

/-- A link-delay exchange (R307, R309): the port's own request falls due, a request arrives with its sender and its number, or the answer
to the port's own arrives with the peer's receive and transmit stamps in ns. -/
inductive PdelayIn where
  | due
  | req (who : BitVec 80) (seq : BitVec 16)
  | resp (seq : BitVec 16) (t2 t3 : Nat)
deriving DecidableEq, Repr

/-- A Sync exchange (R307, R309), with the ticks since the message crossed the SerDes interface and the grandmaster time of its origin in
ns, corrections included: a one-step Sync, a two-step Sync, and the follow-up that completes it. -/
inductive SyncIn where
  | oneStep (ago : Nat) (origin : Nat)
  | twoStep (ago : Nat)
  | followUp (origin : Nat)
deriving DecidableEq, Repr

/-- What a CAN controller receives (R329, R330): a frame, or one that the protocol's own checks reject, with the error that adds 8 to the
receive error counter or one that adds 1. -/
inductive CanRx where
  | frame (id : CanId) (b : List Byte)
  | error (eight : Bool)
deriving DecidableEq, Repr

/-- The on-chip word that hardware checks (R389): by its address in the system map, or one of a region that the map does not show. -/
inductive SramAt where
  | word (a : BitVec 40)
  | hidden (r : Fin 11)
deriving DecidableEq, Repr

/-- How an SPI frame ends (R331). -/
inductive SpiEnd where
  | ok | headerCrc | dataCrc | early
deriving DecidableEq, Repr

/-- The readings of a conversion (R415): die sensors in 1/16 K, supply monitors in mV, in BOARD order. -/
structure SensorIn where
  die : List Int
  supply : List Nat
deriving DecidableEq, Repr

/-- A JTAG instruction (R444). -/
inductive JtagI where
  | bypass | idcode | samplePreload
  | other (code : Byte)
deriving DecidableEq, Repr

/-! ### Commands -/

/-- The commands of the block: one constructor per row of the operation table. -/
inductive Instr where
  -- chapter 1: architecture
  | registerWrite (off : BitVec 24) (v : Word)
  | hlvStale (which : Fin 3)
  | mcLoadWindow (load0 load1 : Fin 101)
  | mcHeartbeat
  | mcHeartbeatLost
  | urgentEntry (n : Fin 4) (lead : Fin 4)
  | urgentExit (n : Fin 4) (lead : Byte)
  -- chapter 2: configuration
  | stageData (v : Word)
  | stageTimeout
  | hostPushLoad (contents : List Content)
  | pmicIdentityRead (id : Nat)
  | loadPhase2
  | keyProgram (slot : Fin 4)
  | revoke (slot : Fin 4)
  | advance
  | wrap
  | wrapLock
  | otpDone
  | updateVerify
  | updateVerified (contents : List Content)
  | updateCommit
  | updateCopyDone
  | updateCancel
  -- chapter 3: start-up
  | wakeN
  | porstNRise
  | porstNLow
  | pgTimeout
  | fioCheck (ok : Bool)
  | refclkCheck (edges : BitVec 16)
  | refclkRecheck (edges : BitVec 16)
  | pllLock (p : Fin 6)
  | pllLockTimeout (p : Fin 6)
  | railPowerGood
  | railFail
  | selftestDone (tt pass : Bool)
  | startupSwitchTest (n : Fin 4) (a b : Bool)
  | fbEnAssert (n : Fin 4)
  | fbLate
  | fullBeamLate
  | dramTrained (fail : BitVec 2) (mib : Nat × Nat)
  | calMapRead (n : Fin 4)
  | handoverStart (n : Fin 4)
  | deepSleepWake
  -- chapter 4: beam engines
  | beStart (e : Fin 16)
  | beStop (e : Fin 16)
  | beReset (e : Fin 16)
  | engineRestart (e : Fin 16)
  | jobTrigger (e : Fin 16) (srcs : BitVec 5)
  | nop (e : Fin 16) (f : KvF)
  | halt (e : Fin 16) (f : KvF)
  | br (e : Fin 16) (f : KvF)
  | brz (e : Fin 16) (f : KvF)
  | brnz (e : Fin 16) (f : KvF)
  | brlt (e : Fin 16) (f : KvF)
  | brany (e : Fin 16) (f : KvF)
  | brnone (e : Fin 16) (f : KvF)
  | call (e : Fin 16) (f : KvF)
  | ret (e : Fin 16) (f : KvF)
  | loop (e : Fin 16) (f : KvF)
  | add (e : Fin 16) (f : KvF)
  | sub (e : Fin 16) (f : KvF)
  | mul (e : Fin 16) (f : KvF)
  | mulh (e : Fin 16) (f : KvF)
  | and (e : Fin 16) (f : KvF)
  | or (e : Fin 16) (f : KvF)
  | xor (e : Fin 16) (f : KvF)
  | shl (e : Fin 16) (f : KvF)
  | shr (e : Fin 16) (f : KvF)
  | sra (e : Fin 16) (f : KvF)
  | slt (e : Fin 16) (f : KvF)
  | sltu (e : Fin 16) (f : KvF)
  | min (e : Fin 16) (f : KvF)
  | max (e : Fin 16) (f : KvF)
  | div (e : Fin 16) (f : KvF)
  | addi (e : Fin 16) (f : KvF)
  | subi (e : Fin 16) (f : KvF)
  | muli (e : Fin 16) (f : KvF)
  | mulhi (e : Fin 16) (f : KvF)
  | andi (e : Fin 16) (f : KvF)
  | ori (e : Fin 16) (f : KvF)
  | xori (e : Fin 16) (f : KvF)
  | shli (e : Fin 16) (f : KvF)
  | shri (e : Fin 16) (f : KvF)
  | srai (e : Fin 16) (f : KvF)
  | slti (e : Fin 16) (f : KvF)
  | sltui (e : Fin 16) (f : KvF)
  | mini (e : Fin 16) (f : KvF)
  | maxi (e : Fin 16) (f : KvF)
  | divi (e : Fin 16) (f : KvF)
  | li (e : Fin 16) (f : KvF)
  | movspr (e : Fin 16) (f : KvF)
  | movtspr (e : Fin 16) (f : KvF)
  | pmov (e : Fin 16) (f : KvF)
  | pld (e : Fin 16) (f : KvF)
  | pcnt (e : Fin 16) (f : KvF)
  | ldw (e : Fin 16) (f : KvF)
  | stw (e : Fin 16) (f : KvF)
  | ldh (e : Fin 16) (f : KvF)
  | sth (e : Fin 16) (f : KvF)
  | vld (e : Fin 16) (f : KvF)
  | vst (e : Fin 16) (f : KvF)
  | vgather (e : Fin 16) (f : KvF)
  | vscatter (e : Fin 16) (f : KvF)
  | vadd (e : Fin 16) (f : KvF)
  | vadds (e : Fin 16) (f : KvF)
  | vsub (e : Fin 16) (f : KvF)
  | vsubs (e : Fin 16) (f : KvF)
  | vmulh (e : Fin 16) (f : KvF)
  | vmull (e : Fin 16) (f : KvF)
  | vmac (e : Fin 16) (f : KvF)
  | vmin (e : Fin 16) (f : KvF)
  | vmax (e : Fin 16) (f : KvF)
  | vand (e : Fin 16) (f : KvF)
  | vor (e : Fin 16) (f : KvF)
  | vxor (e : Fin 16) (f : KvF)
  | vshl (e : Fin 16) (f : KvF)
  | vshr (e : Fin 16) (f : KvF)
  | vsra (e : Fin 16) (f : KvF)
  | vabsd (e : Fin 16) (f : KvF)
  | vsel (e : Fin 16) (f : KvF)
  | vlut (e : Fin 16) (f : KvF)
  | vsplat (e : Fin 16) (f : KvF)
  | vlane (e : Fin 16) (f : KvF)
  | vext (e : Fin 16) (f : KvF)
  | vins (e : Fin 16) (f : KvF)
  | vsum (e : Fin 16) (f : KvF)
  | vmov (e : Fin 16) (f : KvF)
  | vcmpeq (e : Fin 16) (f : KvF)
  | vcmplt (e : Fin 16) (f : KvF)
  | vcmplts (e : Fin 16) (f : KvF)
  | vcmple (e : Fin 16) (f : KvF)
  | pand (e : Fin 16) (f : KvF)
  | por (e : Fin 16) (f : KvF)
  | pandn (e : Fin 16) (f : KvF)
  | pnot (e : Fin 16) (f : KvF)
  | pset (e : Fin 16) (f : KvF)
  | redge (e : Fin 16) (f : KvF)
  | rcov (e : Fin 16) (f : KvF)
  | rsetxy (e : Fin 16) (f : KvF)
  | samp (e : Fin 16) (f : KvF)
  | sampn (e : Fin 16) (f : KvF)
  | dmaq (e : Fin 16) (f : KvF)
  | dmawait (e : Fin 16) (f : KvF)
  | dmastat (e : Fin 16) (f : KvF)
  | fsig (e : Fin 16) (f : KvF)
  | fwait (e : Fin 16) (f : KvF)
  | frd (e : Fin 16) (f : KvF)
  | mbrecv (e : Fin 16) (f : KvF)
  | mbfree (e : Fin 16) (f : KvF)
  | mbcount (e : Fin 16) (f : KvF)
  | evpost (e : Fin 16) (f : KvF)
  | haltComplete (e : Fin 16)
  | dmaQueueRoom (e : Fin 16)
  | dmaDescComplete (e : Fin 16) (ch : Fin 2)
  | dmaErr (e : Fin 16) (ch : Fin 2)
  | fsigWritesVisible (e : Fin 16)
  | fwaitSatisfied (e : Fin 16)
  | fwaitTimeout (e : Fin 16)
  | mbrecvDelivered (e : Fin 16)
  | watchdog (e : Fin 16)
  -- chapter 5: supplied programs
  | agingConversion
  -- chapter 6: composition
  | flip (c : Fin 3) (r : RecIn)
  | flipCommit (g : Fin 4) (mask : Word)
  | latchPoint
  | rawAddrWrite (l : Fin 8) (lo : Word)
  | rowCompose (n : Fin 4)
  | csiLongPacket (rx : Fin 2) (vc : Fin 4) (dt : BitVec 6) (hdr : Fin 3) (payload : List Byte) (crcOk : Bool)
  | csiFrameStart (rx : Fin 2) (vc : Fin 4) (hdr : Fin 3)
  | csiFrameEnd (rx : Fin 2) (vc : Fin 4) (hdr : Fin 3)
  -- chapter 7: Press
  | updateWindow (n : Fin 4) (rows : Fin 17)
  | updCommit (n : Fin 4)
  | updFill (n : Fin 4)
  | updCancel (n : Fin 4)
  | fillDone (n : Fin 4)
  | transferEnd (n : Fin 4) (snapOk recOk : Bool) (late : BitVec 4)
  | recFreeze
  | recRearm
  | recFrozen
  -- chapter 8: timing generators
  | tgStart (n : Fin 4)
  | tgStop (n : Fin 4)
  | swap (n : Fin 4)
  | slot (n k : Fin 4)
  | sense (n : Fin 4)
  | frameStart (n : Fin 4)
  | rowSlot (n : Fin 4)
  | timingCommit (v : Word)
  | directTimingWrite (off : BitVec 24) (v : Word)
  -- chapter 9: lanes
  | ztlEnable (n : Fin 4)
  | ztlDisable (n : Fin 4)
  | ztlRecal (n : Fin 4)
  | ztlRetry (n : Fin 4)
  | bringupAttempt (n : Fin 4)
  | detectDone (n : Fin 4) (lanes : BitVec 3)
  | trainDone (n : Fin 4)
  | lockDone (n : Fin 4) (lanes : BitVec 3)
  | attemptTimeout (n : Fin 4)
  | capsBlock (n : Fin 4) (b : BlockIn)
  | authBlock (n : Fin 4) (b : BlockIn)
  | authTimeout (n : Fin 4)
  | trainReport (n : Fin 4) (b : BkBits)
  | linkStatus (n : Fin 4) (b : BkBits)
  | spareMarginCheck (n : Fin 4) (centre off : Word)
  | recalStep (n : Fin 4)
  | laneRetrain (n : Fin 4) (lane : Fin 3)
  | backFail (n : Fin 4)
  | backRestored (n : Fin 4)
  | bkLossOfSignal (n : Fin 4)
  -- chapter 10: tile protocol
  | selMapLoad (n : Fin 4)
  | ack (n : Fin 4) (b : BkBits)
  | swapAck (n : Fin 4) (b : BkBits)
  | swapAckMissing (n : Fin 4)
  | fbAckLate (n : Fin 4)
  | tileStatus (n : Fin 4) (b : BkBits)
  | regData (n : Fin 4) (b : BkBits)
  | senseBlock (n : Fin 4) (b : BlockIn)
  | nvBlock (n : Fin 4) (b : BlockIn)
  | tregRead (n : Fin 4)
  | tregWrite (n : Fin 4)
  | tregTimeout (n : Fin 4)
  | lifeRecordWrite (n : Fin 4)
  -- chapter 11: health
  | baseline (n : Fin 4)
  | checkpoint
  | clearState (n : Fin 4) (spare : Bool) (pixel : BitVec 18)
  | baselineAutoStart (n : Fin 4)
  | fullCheckpointDue (n : Fin 4)
  | deltaCheckpointDue
  | ckptDone (n : Fin 4) (ok : Bool)
  | accRestored
  -- chapter 12: lamp time and schedules
  | incrWrite (d : Fin 2) (v : Word)
  | offsetWrite (d : Fin 2) (v : Word)
  | adjWrite (d : Fin 2) (v : Word)
  | offsetMeasWrite (d : Fin 2) (v : Word)
  | snapCmd (v : Word)
  | ltLoRead
  | domainSwitch (v : Word)
  | timeStep
  | slewEnd
  | domainStale
  | gptpSync (i : Fin 2) (m : SyncIn)
  | gptpAnnounce (i : Fin 2) (gm : Nat)
  | gptpPdelay (p : Fin 2) (m : PdelayIn)
  | gptpSignalling (i : Fin 2) (interval : Int)
  | gptpLost (i : Fin 2) (asCapable : Bool)
  | schedArm (e : Fin 64) (v : Word)
  | schedDisarm (e : Fin 64)
  | schedTargetWrite (e : Fin 64) (v : Word)
  | eventPost (e : Fin 64)
  | trgPulse (e : Fin 64)
  | trgPulseEnd (p : Fin 2)
  | slotFire (e : Fin 64)
  | sweepStart (e : Fin 64)
  | hkConvert (e : Fin 64) (r : SensorIn)
  | framePhase (e : Fin 64)
  | beWake (e : Fin 64)
  | pwrWake (e : Fin 64)
  | capEdge (p : Fin 2) (rising : Bool)
  | capTsHiRead (p : Fin 2)
  -- chapter 13: host links and messages
  | ethFrameRx (p : Fin 2) (f : EthIn)
  | ethLink (p : Fin 2) (up : Bool)
  | fenceSignal (c : Fin 3) (r : RecIn)
  | fenceSignalWrite (v : Word)
  | schedWrite (c : Fin 3) (r : RecIn)
  | pose (c : Fin 3) (r : RecIn)
  | objectList (c : Fin 3) (r : RecIn)
  | maskParam (c : Fin 3) (r : RecIn)
  | symbolSet (c : Fin 3) (r : RecIn)
  | symbolClear (c : Fin 3) (r : RecIn)
  | patternSet (c : Fin 3) (r : RecIn)
  | agingCtrl (c : Fin 3) (r : RecIn)
  | healthCfg (c : Fin 3) (r : RecIn)
  | ping (c : Fin 3) (r : RecIn)
  | stateReq (c : Fin 3) (r : RecIn)
  | regRead (c : Fin 3) (r : RecIn)
  | regWrite (c : Fin 3) (r : RecIn)
  | holvoStageData (c : Fin 3) (r : RecIn)
  | holvoUpdateCmd (c : Fin 3) (r : RecIn)
  | evtStream (c : Fin 3) (r : RecIn)
  | spoolCmd (c : Fin 3) (r : RecIn)
  | spoolRead (c : Fin 3) (r : RecIn)
  | sakInstall (c : Fin 3) (r : RecIn)
  | pwrRequest (c : Fin 3) (r : RecIn)
  | healthCmd (c : Fin 3) (r : RecIn)
  | diagnostics (c : Fin 3) (op : Fin 32) (r : RecIn)
  | unknownOpcode (c : Fin 3) (op : Byte) (r : RecIn)
  | spiWrite (off : BitVec 24) (ws : List Word) (fin : SpiEnd)
  | spiWriteFixed (off : BitVec 24) (ws : List Word) (fin : SpiEnd)
  | spiRead (off : BitVec 24) (n : Fin 512) (fin : SpiEnd)
  | spiReadFixed (off : BitVec 24) (n : Fin 512) (fin : SpiEnd)
  | mboxWrite (ws : List Word) (fin : SpiEnd)
  | mboxRead (n : Fin 512) (fin : SpiEnd)
  | lampReq (c : Fin 2) (x : CanRx)
  | canLost (c : Fin 2)
  | canBusOff (c : Fin 2)
  | lampAlarm (f0 f1 : Nat)
  | hamperAccept
  | evtPop (spi : Bool)
  | evtSkip
  | evtOwnerWrite (v : Word)
  | eventsSend
  | spoolWrite
  | spNext
  | spOldest
  | spSetMark
  | spRewind
  | spFreeze
  | spRearm
  | spFrozen
  -- chapter 14: functional safety
  | channelLost (tt : Bool)
  | lockstepMismatch
  | ackSc (mask : Word)
  | ackTt (v : Word)
  | ackWindowExpiry
  | statsRecord (n : Fin 4) (ok : Bool)
  | ss1HoldExpiry
  | actStep (n : Fin 2)
  | encoderEdge (n : Fin 2) (sc tt up : Bool)
  | actSpeedWindow (n : Fin 2)
  | actMismatch (n : Fin 2)
  | actHoming (n : Fin 2)
  | sinSample (tt : Bool) (levels : BitVec 8)
  | contactAccepted (tt : Bool) (i : Fin 4) (b : Bool)
  | sinDiscrepancy (tt : Bool) (i : Fin 4)
  | switchReadbackTimeout (n : Fin 4) (hs ls : Bool)
  | testPulse (n : Fin 4) (low : Bool)
  | testPulseEnd (n : Fin 4) (mid fin : Bool)
  | fallbackAckTimeout (n : Fin 4)
  -- chapter 15: memory integrity and check units
  | scrubRead
  | sramCheck (w : SramAt)
  | eccInject (v : Word)
  | crcScan (n : Fin 4)
  | crcRead (n : Fin 4)
  | crcWrite (n : Fin 4)
  | crcAbort (n : Fin 4)
  | crcDone (n : Fin 4)
  -- chapter 16: power and thermal
  | pwrReqRun (tiles : BitVec 4) (keep : Bool)
  | pwrReqIdle (tiles : BitVec 4) (keep : Bool)
  | pwrReqSleep (tiles : BitVec 4) (keep : Bool)
  | pwrReqDeepSleep (tiles : BitVec 4) (keep : Bool)
  | pwrReqOff (tiles : BitVec 4) (keep : Bool)
  | pwrReqAuto (tiles : BitVec 4) (keep : Bool)
  | scConsent
  | consentTimeout
  | entryStepDone
  | idleEnter
  | sleepExit
  | aonWakeTimer
  | wakeFailClear
  | slowPeriodMeasure (ticks cycles : Nat)
  | hkRound (r : SensorIn)
  | roundLate (r : SensorIn)
  -- chapter 17: supplies, debug, clocks
  | vaonRise (wakeLow : Bool)
  | vaonLoss
  | jtagInstruction (i : JtagI)
  | debugAuth (sig : List Byte)
  | pllLoss (p : Fin 6)
  | busOffRecovery (c : Fin 2)
  | programCommand (c : Fin 3) (op : Fin 64) (r : RecIn)
  | spiUnknownCommand (cmd : Byte)
deriving DecidableEq, Repr

end Sys2Proof
end

