-- ==== Sys2Proof/Decode.lean ====
section
/-! DEFINITION. Commands from words of the operation table. No row of the table gives its command any bits, so no word spells one. -/

namespace Sys2Proof

/-- The command that a table word of `nbits` bits spells: none, since the table gives no row bits. -/
def decodeTableWord (_nbits _w : Nat) : Option Instr := none

end Sys2Proof
end

