-- ==== Sys2Proof/Machine/RegMap.lean ====
section
/-! DEFINITION. The register map: every register the spec's register tables list, with its offset in the
register space (R8, R26), the bits software may write, the RWL bits (R28, R29), the W1C bits, the reset
value and whether it is write-only. Reset values are the spec's; a register for which the spec gives none
resets to zero (assumption log 2, DESIGN CHOICE). Names: r<UNIT>_<REGISTER> is an offset, f<UNIT>_<REGISTER>_<FIELD>
a bit field; n is the unit's instance, k the register's index within the unit, j the word. -/

namespace Sys2Proof.Machine

/-- A bit field of a register: the register's offset, its lowest bit and its width. -/
structure Fld where
  off : Nat
  lo : Nat
  w : Nat
deriving DecidableEq, Repr

/-- One row of the register map: `uc` unit instances `us` apart, `cnt` registers `st` apart in each,
`words` words in each. -/
structure RegRow where
  base : Nat
  us : Nat
  uc : Nat
  st : Nat
  cnt : Nat
  words : Nat
  wr : BitVec 32
  lock : BitVec 32
  w1c : BitVec 32
  rst : BitVec 32
  wo : Bool
deriving DecidableEq, Repr

/-- Does the row hold the register at `off`? -/
def rowHas (r : RegRow) (off : Nat) : Bool :=
  let d := off - r.base
  let u := if r.us = 0 then 0 else d / r.us
  let e := d - u * r.us
  let i := if r.st = 0 then 0 else e / r.st
  let j := e - i * r.st
  r.base ≤ off && u < r.uc && i < r.cnt && j % 4 = 0 && j / 4 < r.words

/-- The first row that holds `off`. -/
def findRow : List RegRow → Nat → Option RegRow
  | [], _ => none
  | r :: t, off => if rowHas r off then some r else findRow t off

/-- TOP.DEVICE_ID (R30). -/
abbrev rTOP_DEVICE_ID : Nat := 0x0
/-- TOP.MC_LOAD (R30). -/
abbrev rTOP_MC_LOAD : Nat := 0x4
/-- TOP.BUS_ERR_STATUS (R30). -/
abbrev rTOP_BUS_ERR_STATUS : Nat := 0x8
/-- TOP.BUS_ERR_ADDR (R30). -/
abbrev rTOP_BUS_ERR_ADDR : Nat := 0xC
/-- TOP.LOCK_VIOL_COUNT (R30). -/
abbrev rTOP_LOCK_VIOL_COUNT : Nat := 0x10
/-- TOP.UNMAPPED_COUNT (R30). -/
abbrev rTOP_UNMAPPED_COUNT : Nat := 0x14
/-- TOP.SYS_MAP_COUNT (R30). -/
abbrev rTOP_SYS_MAP_COUNT : Nat := 0x18
/-- BSTREAM.STATUS (R54). -/
abbrev rBSTREAM_STATUS : Nat := 0x10000
/-- BSTREAM.ERROR (R54). -/
abbrev rBSTREAM_ERROR : Nat := 0x10004
/-- BSTREAM.SEC_VERSION (R54). -/
abbrev rBSTREAM_SEC_VERSION : Nat := 0x10008
/-- BSTREAM.OTP_STATUS (R54). -/
abbrev rBSTREAM_OTP_STATUS : Nat := 0x1000C
/-- BSTREAM.BUILD_ID_LO (R54). -/
abbrev rBSTREAM_BUILD_ID_LO : Nat := 0x10010
/-- BSTREAM.BUILD_ID_HI (R54). -/
abbrev rBSTREAM_BUILD_ID_HI : Nat := 0x10014
/-- BSTREAM.LAMP_ID (R54). -/
abbrev rBSTREAM_LAMP_ID : Nat := 0x10018
/-- BSTREAM.STRUCT_HASH (R54). -/
abbrev rBSTREAM_STRUCT_HASH (j : Nat) : Nat := 0x10020 + 0x4 * j
/-- BSTREAM.STAGE_ADDR (R54). -/
abbrev rBSTREAM_STAGE_ADDR : Nat := 0x10040
/-- BSTREAM.STAGE_DATA (R54). -/
abbrev rBSTREAM_STAGE_DATA : Nat := 0x10044
/-- BSTREAM.UPDATE_CMD (R54). -/
abbrev rBSTREAM_UPDATE_CMD : Nat := 0x10048
/-- BSTREAM.UPDATE_STATUS (R54). -/
abbrev rBSTREAM_UPDATE_STATUS : Nat := 0x1004C
/-- BSTREAM.UPDATE_FRAME (R54). -/
abbrev rBSTREAM_UPDATE_FRAME : Nat := 0x10050
/-- BSTREAM.OTP_CMD (R54). -/
abbrev rBSTREAM_OTP_CMD : Nat := 0x10054
/-- BSTREAM.OTP_DATA (R54). -/
abbrev rBSTREAM_OTP_DATA (j : Nat) : Nat := 0x10060 + 0x4 * j
/-- BSTREAM.WRAP_OUT (R54). -/
abbrev rBSTREAM_WRAP_OUT (j : Nat) : Nat := 0x10080 + 0x4 * j
/-- TOP.RESET_CAUSE (R73). -/
abbrev rTOP_RESET_CAUSE : Nat := 0x100
/-- TOP.START_STATUS (R73). -/
abbrev rTOP_START_STATUS : Nat := 0x104
/-- TOP.START_TIMES (R73). -/
abbrev rTOP_START_TIMES : Nat := 0x108
/-- BE.CMD (R107). -/
abbrev rBE_CMD (n : Nat) : Nat := 0x240000 + 0x1000 * n
/-- BE.STATUS (R107). -/
abbrev rBE_STATUS (n : Nat) : Nat := 0x240004 + 0x1000 * n
/-- BE.FLAGS (R107). -/
abbrev rBE_FLAGS (n : Nat) : Nat := 0x240008 + 0x1000 * n
/-- BE.FAULT_COUNT (R107). -/
abbrev rBE_FAULT_COUNT (n : Nat) : Nat := 0x24000C + 0x1000 * n
/-- BE.TRIG_OVERRUN_COUNT (R107). -/
abbrev rBE_TRIG_OVERRUN_COUNT (n : Nat) : Nat := 0x240010 + 0x1000 * n
/-- BE.JOB_TRIG (R107). -/
abbrev rBE_JOB_TRIG (n : Nat) : Nat := 0x240014 + 0x1000 * n
/-- BE.ENTRY_PC (R107). -/
abbrev rBE_ENTRY_PC (n : Nat) : Nat := 0x240018 + 0x1000 * n
/-- BE.JOB_TIME_LIMIT (R107). -/
abbrev rBE_JOB_TIME_LIMIT (n : Nat) : Nat := 0x24001C + 0x1000 * n
/-- BE.FWAIT_LIMIT (R107). -/
abbrev rBE_FWAIT_LIMIT (n : Nat) : Nat := 0x240020 + 0x1000 * n
/-- BE.JOB_COUNT (R107). -/
abbrev rBE_JOB_COUNT (n : Nat) : Nat := 0x240024 + 0x1000 * n
/-- BE.LAST_JOB_TIME (R107). -/
abbrev rBE_LAST_JOB_TIME (n : Nat) : Nat := 0x240028 + 0x1000 * n
/-- BE.ECC_CE_COUNT (R107). -/
abbrev rBE_ECC_CE_COUNT (n : Nat) : Nat := 0x24002C + 0x1000 * n
/-- BE.MBOX_STATUS (R107). -/
abbrev rBE_MBOX_STATUS (n : Nat) : Nat := 0x240030 + 0x1000 * n
/-- BE.DMA_STATUS (R107). -/
abbrev rBE_DMA_STATUS (n : Nat) : Nat := 0x240034 + 0x1000 * n
/-- MSG.COMPOSE_ORDER (R158). -/
abbrev rMSG_COMPOSE_ORDER : Nat := 0xC1000
/-- MSG.FLIP_MASTER (R158). -/
abbrev rMSG_FLIP_MASTER : Nat := 0xC1004
/-- MSG.FLIP_ORDER_g (R158). -/
abbrev rMSG_FLIP_ORDER (k : Nat) : Nat := 0xC1100 + 0x10 * k
/-- MSG.FLIP_FENCE_g (R158). -/
abbrev rMSG_FLIP_FENCE (k : Nat) : Nat := 0xC1104 + 0x10 * k
/-- MSG.FLIP_TARGET_g (R158). -/
abbrev rMSG_FLIP_TARGET (k : Nat) : Nat := 0xC1108 + 0x10 * k
/-- MSG.FLIP_COMMIT_g (R158). -/
abbrev rMSG_FLIP_COMMIT (k : Nat) : Nat := 0xC110C + 0x10 * k
/-- MSG.FLIP_STATUS_g (R158). -/
abbrev rMSG_FLIP_STATUS (k : Nat) : Nat := 0xC1200 + 0x20 * k
/-- MSG.FLIP_FLAGS_g (R158). -/
abbrev rMSG_FLIP_FLAGS (k : Nat) : Nat := 0xC1204 + 0x20 * k
/-- MSG.FLIP_LATCHED_FRAME_g (R158). -/
abbrev rMSG_FLIP_LATCHED_FRAME (k : Nat) : Nat := 0xC1208 + 0x20 * k
/-- MSG.DEFERRED_COUNT_g (R158). -/
abbrev rMSG_DEFERRED_COUNT (k : Nat) : Nat := 0xC120C + 0x20 * k
/-- MSG.SUPERSEDED_COUNT_g (R158). -/
abbrev rMSG_SUPERSEDED_COUNT (k : Nat) : Nat := 0xC1210 + 0x20 * k
/-- MSG.REFUSED_COUNT_g (R158). -/
abbrev rMSG_REFUSED_COUNT (k : Nat) : Nat := 0xC1214 + 0x20 * k
/-- MSG.FLIP_STAGE_l (R158). -/
abbrev rMSG_FLIP_STAGE (k j : Nat) : Nat := 0xC1400 + 0x20 * k + 0x4 * j
/-- MSG.LAYER_CFG_l (R158). -/
abbrev rMSG_LAYER_CFG (k : Nat) : Nat := 0xC1600 + 0x40 * k
/-- MSG.LAYER_STALE_l (R158). -/
abbrev rMSG_LAYER_STALE (k : Nat) : Nat := 0xC1604 + 0x40 * k
/-- MSG.LAYER_STATUS_l (R158). -/
abbrev rMSG_LAYER_STATUS (k : Nat) : Nat := 0xC1608 + 0x40 * k
/-- MSG.LAYER_DEFER_COUNT_l (R158). -/
abbrev rMSG_LAYER_DEFER_COUNT (k : Nat) : Nat := 0xC160C + 0x40 * k
/-- MSG.LAYER_RAW_ADDR_LO_l (R158). -/
abbrev rMSG_LAYER_RAW_ADDR_LO (k : Nat) : Nat := 0xC1610 + 0x40 * k
/-- MSG.LAYER_RAW_ADDR_HI_l (R158). -/
abbrev rMSG_LAYER_RAW_ADDR_HI (k : Nat) : Nat := 0xC1614 + 0x40 * k
/-- MSG.LAYER_ACTIVE_l (R158). -/
abbrev rMSG_LAYER_ACTIVE (k j : Nat) : Nat := 0xC1800 + 0x40 * k + 0x4 * j
/-- MSG.LAYER_FB_l (R158). -/
abbrev rMSG_LAYER_FB (k j : Nat) : Nat := 0xC1820 + 0x40 * k + 0x4 * j
/-- CP.STATUS (R158). -/
abbrev rCP_STATUS (n : Nat) : Nat := 0x100000 + 0x10000 * n
/-- CP.DEFER_COUNT (R158). -/
abbrev rCP_DEFER_COUNT (n : Nat) : Nat := 0x100004 + 0x10000 * n
/-- CP.URGENT_COUNT (R158). -/
abbrev rCP_URGENT_COUNT (n : Nat) : Nat := 0x100008 + 0x10000 * n
/-- CP.ROW_CARRY_COUNT (R158). -/
abbrev rCP_ROW_CARRY_COUNT (n : Nat) : Nat := 0x10000C + 0x10000 * n
/-- CP.DECODE_ERR_COUNT (R158). -/
abbrev rCP_DECODE_ERR_COUNT (n : Nat) : Nat := 0x100010 + 0x10000 * n
/-- CP.TAPS_REDUCED_COUNT (R158). -/
abbrev rCP_TAPS_REDUCED_COUNT (n : Nat) : Nat := 0x100014 + 0x10000 * n
/-- CP.LINEBUF_SHORT_COUNT (R158). -/
abbrev rCP_LINEBUF_SHORT_COUNT (n : Nat) : Nat := 0x100018 + 0x10000 * n
/-- CP.RAW_TEAR_COUNT (R158). -/
abbrev rCP_RAW_TEAR_COUNT (n : Nat) : Nat := 0x10001C + 0x10000 * n
/-- CP.WINDOW (R158). -/
abbrev rCP_WINDOW (n : Nat) : Nat := 0x100020 + 0x10000 * n
/-- CP.PREFETCH (R158). -/
abbrev rCP_PREFETCH (n : Nat) : Nat := 0x100024 + 0x10000 * n
/-- CP.VTAPS (R158). -/
abbrev rCP_VTAPS (n : Nat) : Nat := 0x100028 + 0x10000 * n
/-- CP.LAYER_SHOWN (R158). -/
abbrev rCP_LAYER_SHOWN (n : Nat) : Nat := 0x10002C + 0x10000 * n
/-- CP.DECODE_ERR_INFO (R158). -/
abbrev rCP_DECODE_ERR_INFO (n : Nat) : Nat := 0x100030 + 0x10000 * n
/-- HOSTIF.CAPW_w_CFG (R158). -/
abbrev rHOSTIF_CAPW_CFG (k : Nat) : Nat := 0x84000 + 0x40 * k
/-- HOSTIF.CAPW_w_GEOM (R158). -/
abbrev rHOSTIF_CAPW_GEOM (k : Nat) : Nat := 0x84004 + 0x40 * k
/-- HOSTIF.CAPW_BUF (R158). -/
abbrev rHOSTIF_CAPW_BUF (k j : Nat) : Nat := 0x84008 + 0x40 * k + 0x4 * j
/-- HOSTIF.CAPW_w_BUF_HI (R158). -/
abbrev rHOSTIF_CAPW_BUF_HI (k : Nat) : Nat := 0x84018 + 0x40 * k
/-- HOSTIF.CAPW_w_SIZE (R158). -/
abbrev rHOSTIF_CAPW_SIZE (k : Nat) : Nat := 0x8401C + 0x40 * k
/-- HOSTIF.CAPW_w_STATUS (R158). -/
abbrev rHOSTIF_CAPW_STATUS (k : Nat) : Nat := 0x84020 + 0x40 * k
/-- HOSTIF.CAPW_w_FRAME_COUNT (R158). -/
abbrev rHOSTIF_CAPW_FRAME_COUNT (k : Nat) : Nat := 0x84024 + 0x40 * k
/-- HOSTIF.CAPW_w_DROP_COUNT (R158). -/
abbrev rHOSTIF_CAPW_DROP_COUNT (k : Nat) : Nat := 0x84028 + 0x40 * k
/-- HOSTIF.CAPW_w_BAD_COUNT (R158). -/
abbrev rHOSTIF_CAPW_BAD_COUNT (k : Nat) : Nat := 0x8402C + 0x40 * k
/-- PRESS.CFG (R188). -/
abbrev rPRESS_CFG (n : Nat) : Nat := 0x140000 + 0x10000 * n
/-- PRESS.STATUS (R188). -/
abbrev rPRESS_STATUS (n : Nat) : Nat := 0x140004 + 0x10000 * n
/-- PRESS.TREF (R188). -/
abbrev rPRESS_TREF (n : Nat) : Nat := 0x140008 + 0x10000 * n
/-- PRESS.TILE_MAX (R188). -/
abbrev rPRESS_TILE_MAX (n : Nat) : Nat := 0x14000C + 0x10000 * n
/-- PRESS.TILE_FACTOR (R188). -/
abbrev rPRESS_TILE_FACTOR (n : Nat) : Nat := 0x140010 + 0x10000 * n
/-- PRESS.TILE_LOAD (R188). -/
abbrev rPRESS_TILE_LOAD (n : Nat) : Nat := 0x140014 + 0x10000 * n
/-- PRESS.SAT_PIXELS (R188). -/
abbrev rPRESS_SAT_PIXELS (n : Nat) : Nat := 0x140018 + 0x10000 * n
/-- PRESS.AGE_LIMITED (R188). -/
abbrev rPRESS_AGE_LIMITED (n : Nat) : Nat := 0x14001C + 0x10000 * n
/-- PRESS.SAT_COUNT (R188). -/
abbrev rPRESS_SAT_COUNT (n : Nat) : Nat := 0x140020 + 0x10000 * n
/-- PRESS.CORR_UE_COUNT (R188). -/
abbrev rPRESS_CORR_UE_COUNT (n : Nat) : Nat := 0x140024 + 0x10000 * n
/-- PRESS.SEL_MISMATCH_COUNT (R188). -/
abbrev rPRESS_SEL_MISMATCH_COUNT (n : Nat) : Nat := 0x140028 + 0x10000 * n
/-- PRESS.ROI_MISMATCH_COUNT (R188). -/
abbrev rPRESS_ROI_MISMATCH_COUNT (n : Nat) : Nat := 0x14002C + 0x10000 * n
/-- PRESS.REC_BASE_P_LO (R188). -/
abbrev rPRESS_REC_BASE_P_LO (n : Nat) : Nat := 0x140040 + 0x10000 * n
/-- PRESS.REC_BASE_P_HI (R188). -/
abbrev rPRESS_REC_BASE_P_HI (n : Nat) : Nat := 0x140044 + 0x10000 * n
/-- PRESS.REC_BASE_S_LO (R188). -/
abbrev rPRESS_REC_BASE_S_LO (n : Nat) : Nat := 0x140048 + 0x10000 * n
/-- PRESS.REC_BASE_S_HI (R188). -/
abbrev rPRESS_REC_BASE_S_HI (n : Nat) : Nat := 0x14004C + 0x10000 * n
/-- PRESS.SWEEP (R188). -/
abbrev rPRESS_SWEEP (n : Nat) : Nat := 0x140050 + 0x10000 * n
/-- PRESS.SWEEP_STATUS (R188). -/
abbrev rPRESS_SWEEP_STATUS (n : Nat) : Nat := 0x140054 + 0x10000 * n
/-- PRESS.UPD_LIST_LO (R188). -/
abbrev rPRESS_UPD_LIST_LO (n : Nat) : Nat := 0x140060 + 0x10000 * n
/-- PRESS.UPD_LIST_HI (R188). -/
abbrev rPRESS_UPD_LIST_HI (n : Nat) : Nat := 0x140064 + 0x10000 * n
/-- PRESS.UPD_LEN (R188). -/
abbrev rPRESS_UPD_LEN (n : Nat) : Nat := 0x140068 + 0x10000 * n
/-- PRESS.UPD_CMD (R188). -/
abbrev rPRESS_UPD_CMD (n : Nat) : Nat := 0x14006C + 0x10000 * n
/-- PRESS.UPD_STATUS (R188). -/
abbrev rPRESS_UPD_STATUS (n : Nat) : Nat := 0x140070 + 0x10000 * n
/-- PRESS.UPD_FRAME (R188). -/
abbrev rPRESS_UPD_FRAME (n : Nat) : Nat := 0x140074 + 0x10000 * n
/-- PRESS.ROI_POS_k (R188). -/
abbrev rPRESS_ROI_POS (n k : Nat) : Nat := 0x140400 + 0x10000 * n + 0x10 * k
/-- PRESS.ROI_END_k (R188). -/
abbrev rPRESS_ROI_END (n k : Nat) : Nat := 0x140404 + 0x10000 * n + 0x10 * k
/-- PRESS.ROI_CRC_k (R188). -/
abbrev rPRESS_ROI_CRC (n k : Nat) : Nat := 0x140408 + 0x10000 * n + 0x10 * k
/-- PRESS.ROI_EXP_k (R188). -/
abbrev rPRESS_ROI_EXP (n k : Nat) : Nat := 0x14040C + 0x10000 * n + 0x10 * k
/-- PRESS.ROI_STATUS (R188). -/
abbrev rPRESS_ROI_STATUS (n : Nat) : Nat := 0x140500 + 0x10000 * n
/-- PRESS.ROI_FRAME (R188). -/
abbrev rPRESS_ROI_FRAME (n : Nat) : Nat := 0x140504 + 0x10000 * n
/-- PRESS.SNAP_BASE_LO (R188). -/
abbrev rPRESS_SNAP_BASE_LO (n : Nat) : Nat := 0x140600 + 0x10000 * n
/-- PRESS.SNAP_BASE_HI (R188). -/
abbrev rPRESS_SNAP_BASE_HI (n : Nat) : Nat := 0x140604 + 0x10000 * n
/-- PRESS.SNAP_CFG (R188). -/
abbrev rPRESS_SNAP_CFG (n : Nat) : Nat := 0x140608 + 0x10000 * n
/-- PRESS.SNAP_COUNT (R188). -/
abbrev rPRESS_SNAP_COUNT (n : Nat) : Nat := 0x14060C + 0x10000 * n
/-- PRESS.SNAP_INCOMPLETE_COUNT (R188). -/
abbrev rPRESS_SNAP_INCOMPLETE_COUNT (n : Nat) : Nat := 0x140610 + 0x10000 * n
/-- PRESS.REC_RING_LO (R188). -/
abbrev rREC_RING_LO : Nat := 0x140800
/-- PRESS.REC_RING_HI (R188). -/
abbrev rREC_RING_HI : Nat := 0x140804
/-- PRESS.REC_SIZE (R188). -/
abbrev rREC_SIZE : Nat := 0x140808
/-- PRESS.REC_CFG (R188). -/
abbrev rREC_CFG : Nat := 0x14080C
/-- PRESS.REC_CTRL (R188). -/
abbrev rREC_CTRL : Nat := 0x140810
/-- PRESS.REC_STATUS (R188). -/
abbrev rREC_STATUS : Nat := 0x140814
/-- PRESS.REC_WR_PTR (R188). -/
abbrev rREC_WR_PTR : Nat := 0x140818
/-- PRESS.REC_OLDEST_PTR (R188). -/
abbrev rREC_OLDEST_PTR : Nat := 0x14081C
/-- PRESS.REC_TRIG_PTR (R188). -/
abbrev rREC_TRIG_PTR : Nat := 0x140820
/-- PRESS.REC_TRIG_SEQ (R188). -/
abbrev rREC_TRIG_SEQ : Nat := 0x140824
/-- PRESS.REC_TRIG_TIME_LO (R188). -/
abbrev rREC_TRIG_TIME_LO : Nat := 0x140828
/-- PRESS.REC_TRIG_TIME_HI (R188). -/
abbrev rREC_TRIG_TIME_HI : Nat := 0x14082C
/-- PRESS.REC_SPAN (R188). -/
abbrev rREC_SPAN : Nat := 0x140830
/-- PRESS.REC_SKIP_COUNT (R188). -/
abbrev rREC_SKIP_COUNT : Nat := 0x140834
/-- PRESS.REC_TRIG_IGNORED_COUNT (R188). -/
abbrev rREC_TRIG_IGNORED_COUNT : Nat := 0x140838
/-- TG.CMD (R208). -/
abbrev rTG_CMD (n : Nat) : Nat := 0x180000 + 0x10000 * n
/-- TG.STATUS (R208). -/
abbrev rTG_STATUS (n : Nat) : Nat := 0x180004 + 0x10000 * n
/-- TG.FRAME_COUNT (R208). -/
abbrev rTG_FRAME_COUNT (n : Nat) : Nat := 0x180008 + 0x10000 * n
/-- TG.LAST_SWAP_TIME_LO (R208). -/
abbrev rTG_LAST_SWAP_TIME_LO (n : Nat) : Nat := 0x18000C + 0x10000 * n
/-- TG.LAST_SWAP_TIME_HI (R208). -/
abbrev rTG_LAST_SWAP_TIME_HI (n : Nat) : Nat := 0x180010 + 0x10000 * n
/-- TG.LAST_FLIP_TIME_LO (R208). -/
abbrev rTG_LAST_FLIP_TIME_LO (n : Nat) : Nat := 0x180014 + 0x10000 * n
/-- TG.LAST_FLIP_TIME_HI (R208). -/
abbrev rTG_LAST_FLIP_TIME_HI (n : Nat) : Nat := 0x180018 + 0x10000 * n
/-- TG.LAST_FLIP_FRAME (R208). -/
abbrev rTG_LAST_FLIP_FRAME (n : Nat) : Nat := 0x18001C + 0x10000 * n
/-- TG.LINK_LAT (R208). -/
abbrev rTG_LINK_LAT (n : Nat) : Nat := 0x180020 + 0x10000 * n
/-- TG.SENSE_CFG (R208). -/
abbrev rTG_SENSE_CFG (n : Nat) : Nat := 0x180024 + 0x10000 * n
/-- TG.TORN_COUNT (R208). -/
abbrev rTG_TORN_COUNT (n : Nat) : Nat := 0x180028 + 0x10000 * n
/-- TG.SLOT_SKIP_COUNT (R208). -/
abbrev rTG_SLOT_SKIP_COUNT (n : Nat) : Nat := 0x18002C + 0x10000 * n
/-- TG.SENSE_SKIP_COUNT (R208). -/
abbrev rTG_SENSE_SKIP_COUNT (n : Nat) : Nat := 0x180030 + 0x10000 * n
/-- TG.START_REFUSED_COUNT (R208). -/
abbrev rTG_START_REFUSED_COUNT (n : Nat) : Nat := 0x180034 + 0x10000 * n
/-- TG.PERIOD_INT (R208). -/
abbrev rTG_PERIOD_INT (n : Nat) : Nat := 0x180100 + 0x10000 * n
/-- TG.PERIOD_FRAC (R208). -/
abbrev rTG_PERIOD_FRAC (n : Nat) : Nat := 0x180104 + 0x10000 * n
/-- TG.ANCHOR_LO (R208). -/
abbrev rTG_ANCHOR_LO (n : Nat) : Nat := 0x180108 + 0x10000 * n
/-- TG.ANCHOR_HI (R208). -/
abbrev rTG_ANCHOR_HI (n : Nat) : Nat := 0x18010C + 0x10000 * n
/-- TG.DRIVE (R208). -/
abbrev rTG_DRIVE (n : Nat) : Nat := 0x180110 + 0x10000 * n
/-- TG.GUARD (R208). -/
abbrev rTG_GUARD (n : Nat) : Nat := 0x180114 + 0x10000 * n
/-- TG.LEAD (R208). -/
abbrev rTG_LEAD (n : Nat) : Nat := 0x180118 + 0x10000 * n
/-- TG.SLOT_k_POS (R208). -/
abbrev rTG_SLOT_POS (n k : Nat) : Nat := 0x180120 + 0x10000 * n + 0x10 * k
/-- TG.SLOT_k_LEN (R208). -/
abbrev rTG_SLOT_LEN (n k : Nat) : Nat := 0x180124 + 0x10000 * n + 0x10 * k
/-- TG.SLOT_k_CFG (R208). -/
abbrev rTG_SLOT_CFG (n k : Nat) : Nat := 0x180128 + 0x10000 * n + 0x10 * k
/-- TG.SLOT_k_BASE_LO (R208). -/
abbrev rTG_SLOT_BASE_LO (n k : Nat) : Nat := 0x18012C + 0x10000 * n + 0x10 * k
/-- TG.SLOT_k_BASE_HI (R208). -/
abbrev rTG_SLOT_BASE_HI (n k : Nat) : Nat := 0x180160 + 0x10000 * n + 0x8 * k
/-- TG.SLOT_k_BUFSIZE (R208). -/
abbrev rTG_SLOT_BUFSIZE (n k : Nat) : Nat := 0x180164 + 0x10000 * n + 0x8 * k
/-- TG.STAGE_PERIOD_INT (R208). -/
abbrev rTG_STAGE_PERIOD_INT (n : Nat) : Nat := 0x180200 + 0x10000 * n
/-- TG.STAGE_PERIOD_FRAC (R208). -/
abbrev rTG_STAGE_PERIOD_FRAC (n : Nat) : Nat := 0x180204 + 0x10000 * n
/-- TG.STAGE_ANCHOR_LO (R208). -/
abbrev rTG_STAGE_ANCHOR_LO (n : Nat) : Nat := 0x180208 + 0x10000 * n
/-- TG.STAGE_ANCHOR_HI (R208). -/
abbrev rTG_STAGE_ANCHOR_HI (n : Nat) : Nat := 0x18020C + 0x10000 * n
/-- TG.STAGE_DRIVE (R208). -/
abbrev rTG_STAGE_DRIVE (n : Nat) : Nat := 0x180210 + 0x10000 * n
/-- TG.STAGE_GUARD (R208). -/
abbrev rTG_STAGE_GUARD (n : Nat) : Nat := 0x180214 + 0x10000 * n
/-- TG.STAGE_SLOT_k_POS (R208). -/
abbrev rTG_STAGE_SLOT_POS (n k : Nat) : Nat := 0x180220 + 0x10000 * n + 0x8 * k
/-- TG.STAGE_SLOT_k_LEN (R208). -/
abbrev rTG_STAGE_SLOT_LEN (n k : Nat) : Nat := 0x180224 + 0x10000 * n + 0x8 * k
/-- TG.TIMING_COMMIT (R208). -/
abbrev rTG_TIMING_COMMIT (n : Nat) : Nat := 0x180240 + 0x10000 * n
/-- TG.TIMING_STATUS (R208). -/
abbrev rTG_TIMING_STATUS (n : Nat) : Nat := 0x180244 + 0x10000 * n
/-- TG.TIMING_FRAME (R208). -/
abbrev rTG_TIMING_FRAME (n : Nat) : Nat := 0x180248 + 0x10000 * n
/-- ZTL.CMD (R240). -/
abbrev rZTL_CMD (n : Nat) : Nat := 0x1C0000 + 0x10000 * n
/-- ZTL.STATUS (R240). -/
abbrev rZTL_STATUS (n : Nat) : Nat := 0x1C0004 + 0x10000 * n
/-- ZTL.LANE_MAP (R240). -/
abbrev rZTL_LANE_MAP (n : Nat) : Nat := 0x1C0008 + 0x10000 * n
/-- ZTL.LANE_CFG (R240). -/
abbrev rZTL_LANE_CFG (n : Nat) : Nat := 0x1C000C + 0x10000 * n
/-- ZTL.TX_CFG (R240). -/
abbrev rZTL_TX_CFG (n : Nat) : Nat := 0x1C0010 + 0x10000 * n
/-- ZTL.EQ_CFG (R240). -/
abbrev rZTL_EQ_CFG (n : Nat) : Nat := 0x1C0014 + 0x10000 * n
/-- ZTL.EQ_STATUS (R240). -/
abbrev rZTL_EQ_STATUS (n : Nat) : Nat := 0x1C0018 + 0x10000 * n
/-- ZTL.PHASE (R240). -/
abbrev rZTL_PHASE (n : Nat) : Nat := 0x1C001C + 0x10000 * n
/-- ZTL.EYE_WIDTH (R240). -/
abbrev rZTL_EYE_WIDTH (n : Nat) : Nat := 0x1C0020 + 0x10000 * n
/-- ZTL.RECAL_CFG (R240). -/
abbrev rZTL_RECAL_CFG (n : Nat) : Nat := 0x1C0024 + 0x10000 * n
/-- ZTL.MARGIN_CFG (R240). -/
abbrev rZTL_MARGIN_CFG (n : Nat) : Nat := 0x1C0028 + 0x10000 * n
/-- ZTL.SPARE_MARGIN (R240). -/
abbrev rZTL_SPARE_MARGIN (n : Nat) : Nat := 0x1C002C + 0x10000 * n
/-- ZTL.PRBS_CFG (R240). -/
abbrev rZTL_PRBS_CFG (n : Nat) : Nat := 0x1C0030 + 0x10000 * n
/-- ZTL.PRBS_ERR (R240). -/
abbrev rZTL_PRBS_ERR (n : Nat) : Nat := 0x1C0034 + 0x10000 * n
/-- ZTL.BK_HDR_ERR (R240). -/
abbrev rZTL_BK_HDR_ERR (n : Nat) : Nat := 0x1C0038 + 0x10000 * n
/-- ZTL.ATTEMPT (R240). -/
abbrev rZTL_ATTEMPT (n : Nat) : Nat := 0x1C003C + 0x10000 * n
/-- ZTL.LANE_FAIL_COUNT (R240). -/
abbrev rZTL_LANE_FAIL_COUNT (n : Nat) : Nat := 0x1C0040 + 0x10000 * n
/-- ZTL.RETRAIN_COUNT (R240). -/
abbrev rZTL_RETRAIN_COUNT (n : Nat) : Nat := 0x1C0044 + 0x10000 * n
/-- ZTL.CAL_REJECT_COUNT (R240). -/
abbrev rZTL_CAL_REJECT_COUNT (n : Nat) : Nat := 0x1C0048 + 0x10000 * n
/-- ZTL.BACK_FAIL_COUNT (R240). -/
abbrev rZTL_BACK_FAIL_COUNT (n : Nat) : Nat := 0x1C004C + 0x10000 * n
/-- ZTL.PORT_DOWN_COUNT (R240). -/
abbrev rZTL_PORT_DOWN_COUNT (n : Nat) : Nat := 0x1C0050 + 0x10000 * n
/-- ZTL.ROW_DAMAGED_COUNT (R240). -/
abbrev rZTL_ROW_DAMAGED_COUNT (n : Nat) : Nat := 0x1C0054 + 0x10000 * n
/-- ZTL.SPARE_FAIL_COUNT (R240). -/
abbrev rZTL_SPARE_FAIL_COUNT (n : Nat) : Nat := 0x1C0058 + 0x10000 * n
/-- ZTL.LOCK_LOSS (R240). -/
abbrev rZTL_LOCK_LOSS (n : Nat) : Nat := 0x1C005C + 0x10000 * n
/-- ZTL.LAST_DAMAGED_ROW (R240). -/
abbrev rZTL_LAST_DAMAGED_ROW (n : Nat) : Nat := 0x1C0060 + 0x10000 * n
/-- ZTL.TILE_ID_LO (R269). -/
abbrev rZTL_TILE_ID_LO (n : Nat) : Nat := 0x1C0100 + 0x10000 * n
/-- ZTL.TILE_ID_HI (R269). -/
abbrev rZTL_TILE_ID_HI (n : Nat) : Nat := 0x1C0104 + 0x10000 * n
/-- ZTL.TILE_TYPE (R269). -/
abbrev rZTL_TILE_TYPE (n : Nat) : Nat := 0x1C0108 + 0x10000 * n
/-- ZTL.SWAP_STATUS (R269). -/
abbrev rZTL_SWAP_STATUS (n : Nat) : Nat := 0x1C010C + 0x10000 * n
/-- ZTL.SEL_STATUS (R269). -/
abbrev rZTL_SEL_STATUS (n : Nat) : Nat := 0x1C0110 + 0x10000 * n
/-- ZTL.TILE_STATE (R269). -/
abbrev rZTL_TILE_STATE (n : Nat) : Nat := 0x1C0114 + 0x10000 * n
/-- ZTL.TILE_TEMP (R269). -/
abbrev rZTL_TILE_TEMP (n : Nat) : Nat := 0x1C0118 + 0x10000 * n
/-- ZTL.TREG_ADDR (R269). -/
abbrev rZTL_TREG_ADDR (n : Nat) : Nat := 0x1C011C + 0x10000 * n
/-- ZTL.TREG_DATA (R269). -/
abbrev rZTL_TREG_DATA (n : Nat) : Nat := 0x1C0120 + 0x10000 * n
/-- ZTL.TREG_CMD (R269). -/
abbrev rZTL_TREG_CMD (n : Nat) : Nat := 0x1C0124 + 0x10000 * n
/-- ZTL.TREG_STATUS (R269). -/
abbrev rZTL_TREG_STATUS (n : Nat) : Nat := 0x1C0128 + 0x10000 * n
/-- ZTL.NV_STATUS (R269). -/
abbrev rZTL_NV_STATUS (n : Nat) : Nat := 0x1C012C + 0x10000 * n
/-- ZTL.NV_DEFER_MAX (R269). -/
abbrev rZTL_NV_DEFER_MAX (n : Nat) : Nat := 0x1C0130 + 0x10000 * n
/-- ZTL.AUTH_STATUS (R269). -/
abbrev rZTL_AUTH_STATUS (n : Nat) : Nat := 0x1C0134 + 0x10000 * n
/-- ZTL.PROTO_FLAGS (R269). -/
abbrev rZTL_PROTO_FLAGS (n : Nat) : Nat := 0x1C0138 + 0x10000 * n
/-- ZTL.FRAME_HELD_COUNT (R269). -/
abbrev rZTL_FRAME_HELD_COUNT (n : Nat) : Nat := 0x1C013C + 0x10000 * n
/-- ZTL.SWAP_ACK_MISSING_COUNT (R269). -/
abbrev rZTL_SWAP_ACK_MISSING_COUNT (n : Nat) : Nat := 0x1C0140 + 0x10000 * n
/-- ZTL.FB_ACK_LATE_COUNT (R269). -/
abbrev rZTL_FB_ACK_LATE_COUNT (n : Nat) : Nat := 0x1C0144 + 0x10000 * n
/-- ZTL.BLOCK_BAD_COUNT (R269). -/
abbrev rZTL_BLOCK_BAD_COUNT (n : Nat) : Nat := 0x1C0148 + 0x10000 * n
/-- ZTL.TILE_FAULT_COUNT (R269). -/
abbrev rZTL_TILE_FAULT_COUNT (n : Nat) : Nat := 0x1C014C + 0x10000 * n
/-- ZTL.NV_FAIL_COUNT (R269). -/
abbrev rZTL_NV_FAIL_COUNT (n : Nat) : Nat := 0x1C0150 + 0x10000 * n
/-- HEALTH.CMD (R295). -/
abbrev rHEALTH_CMD : Nat := 0x200000
/-- HEALTH.STATUS (R295). -/
abbrev rHEALTH_STATUS : Nat := 0x200004
/-- HEALTH.SWEEP_CFG (R295). -/
abbrev rHEALTH_SWEEP_CFG : Nat := 0x200008
/-- HEALTH.DARN_CFG (R295). -/
abbrev rHEALTH_DARN_CFG : Nat := 0x20000C
/-- HEALTH.AGING_CFG (R295). -/
abbrev rHEALTH_AGING_CFG : Nat := 0x200010
/-- HEALTH.EOL_CFG_0 (R295). -/
abbrev rHEALTH_EOL_CFG_0 : Nat := 0x200014
/-- HEALTH.EOL_CFG_1 (R295). -/
abbrev rHEALTH_EOL_CFG_1 : Nat := 0x200018
/-- HEALTH.CKPT_CFG (R295). -/
abbrev rHEALTH_CKPT_CFG : Nat := 0x20001C
/-- HEALTH.WORK_BASE_LO (R295). -/
abbrev rHEALTH_WORK_BASE_LO : Nat := 0x200020
/-- HEALTH.WORK_BASE_HI (R295). -/
abbrev rHEALTH_WORK_BASE_HI : Nat := 0x200024
/-- HEALTH.SENSE_STALE_COUNT (R295). -/
abbrev rHEALTH_SENSE_STALE_COUNT : Nat := 0x200028
/-- HEALTH.CAL_REJECT_COUNT (R295). -/
abbrev rHEALTH_CAL_REJECT_COUNT : Nat := 0x20002C
/-- HEALTH.MASS_FAIL_COUNT (R295). -/
abbrev rHEALTH_MASS_FAIL_COUNT : Nat := 0x200030
/-- HEALTH.CKPT_FAIL_COUNT (R295). -/
abbrev rHEALTH_CKPT_FAIL_COUNT : Nat := 0x200034
/-- HEALTH.SWEEP_STATUS_n (R295). -/
abbrev rHEALTH_SWEEP_STATUS (k : Nat) : Nat := 0x200100 + 0x40 * k
/-- HEALTH.SUSPECT_n (R295). -/
abbrev rHEALTH_SUSPECT (k : Nat) : Nat := 0x200104 + 0x40 * k
/-- HEALTH.FAILED_P_n (R295). -/
abbrev rHEALTH_FAILED_P (k : Nat) : Nat := 0x200108 + 0x40 * k
/-- HEALTH.FAILED_S_n (R295). -/
abbrev rHEALTH_FAILED_S (k : Nat) : Nat := 0x20010C + 0x40 * k
/-- HEALTH.SUBST_n (R295). -/
abbrev rHEALTH_SUBST (k : Nat) : Nat := 0x200110 + 0x40 * k
/-- HEALTH.DEAD_n (R295). -/
abbrev rHEALTH_DEAD (k : Nat) : Nat := 0x200114 + 0x40 * k
/-- HEALTH.SHORTFALL_n (R295). -/
abbrev rHEALTH_SHORTFALL (k : Nat) : Nat := 0x200118 + 0x40 * k
/-- HEALTH.LIFE_USED_n (R295). -/
abbrev rHEALTH_LIFE_USED (k : Nat) : Nat := 0x20011C + 0x40 * k
/-- HEALTH.EOL_n (R295). -/
abbrev rHEALTH_EOL (k : Nat) : Nat := 0x200120 + 0x40 * k
/-- HEALTH.LIT_S_n (R295). -/
abbrev rHEALTH_LIT_S (k : Nat) : Nat := 0x200124 + 0x40 * k
/-- TIME.CTRL (R322). -/
abbrev rTIME_CTRL : Nat := 0x40000
/-- TIME.STATUS (R322). -/
abbrev rTIME_STATUS : Nat := 0x40004
/-- TIME.SNAP_CMD (R322). -/
abbrev rTIME_SNAP_CMD : Nat := 0x40008
/-- TIME.SNAP_FRC_LO (R322). -/
abbrev rTIME_SNAP_FRC_LO : Nat := 0x4000C
/-- TIME.SNAP_FRC_HI (R322). -/
abbrev rTIME_SNAP_FRC_HI : Nat := 0x40010
/-- TIME.SNAP_LT_FRAC (R322). -/
abbrev rTIME_SNAP_LT_FRAC : Nat := 0x40014
/-- TIME.SNAP_LT_LO (R322). -/
abbrev rTIME_SNAP_LT_LO : Nat := 0x40018
/-- TIME.SNAP_LT_HI (R322). -/
abbrev rTIME_SNAP_LT_HI : Nat := 0x4001C
/-- TIME.SNAP_D0_LO (R322). -/
abbrev rTIME_SNAP_D0_LO : Nat := 0x40020
/-- TIME.SNAP_D0_HI (R322). -/
abbrev rTIME_SNAP_D0_HI : Nat := 0x40024
/-- TIME.SNAP_D1_LO (R322). -/
abbrev rTIME_SNAP_D1_LO : Nat := 0x40028
/-- TIME.SNAP_D1_HI (R322). -/
abbrev rTIME_SNAP_D1_HI : Nat := 0x4002C
/-- TIME.LT_LO (R322). -/
abbrev rTIME_LT_LO : Nat := 0x40030
/-- TIME.LT_HI (R322). -/
abbrev rTIME_LT_HI : Nat := 0x40034
/-- TIME.RESIDUAL (R322). -/
abbrev rTIME_RESIDUAL : Nat := 0x40038
/-- TIME.HOLD_CFG (R322). -/
abbrev rTIME_HOLD_CFG : Nat := 0x4003C
/-- TIME.SLOT_GATE (R322). -/
abbrev rTIME_SLOT_GATE : Nat := 0x40040
/-- TIME.TIME_STEP_COUNT (R322). -/
abbrev rTIME_TIME_STEP_COUNT : Nat := 0x40044
/-- TIME.LATE_COUNT (R322). -/
abbrev rTIME_LATE_COUNT : Nat := 0x40048
/-- TIME.MISSED_COUNT (R322). -/
abbrev rTIME_MISSED_COUNT : Nat := 0x4004C
/-- TIME.SCHED_REJECTED_COUNT (R322). -/
abbrev rTIME_SCHED_REJECTED_COUNT : Nat := 0x40050
/-- TIME.CAP_OVF_COUNT (R322). -/
abbrev rTIME_CAP_OVF_COUNT : Nat := 0x40054
/-- TIME.INCR_REFUSED_COUNT (R322). -/
abbrev rTIME_INCR_REFUSED_COUNT : Nat := 0x40058
/-- TIME.DOM_d_CFG (R322). -/
abbrev rTIME_DOM_CFG (k : Nat) : Nat := 0x40100 + 0x40 * k
/-- TIME.OFFSET_d_FRAC (R322). -/
abbrev rTIME_OFFSET_FRAC (k : Nat) : Nat := 0x40104 + 0x40 * k
/-- TIME.OFFSET_d_LO (R322). -/
abbrev rTIME_OFFSET_LO (k : Nat) : Nat := 0x40108 + 0x40 * k
/-- TIME.OFFSET_d_HI (R322). -/
abbrev rTIME_OFFSET_HI (k : Nat) : Nat := 0x4010C + 0x40 * k
/-- TIME.INCR_d_INT (R322). -/
abbrev rTIME_INCR_INT (k : Nat) : Nat := 0x40110 + 0x40 * k
/-- TIME.INCR_d_FRAC (R322). -/
abbrev rTIME_INCR_FRAC (k : Nat) : Nat := 0x40114 + 0x40 * k
/-- TIME.BASE_d_LO (R322). -/
abbrev rTIME_BASE_LO (k : Nat) : Nat := 0x40118 + 0x40 * k
/-- TIME.BASE_d_HI (R322). -/
abbrev rTIME_BASE_HI (k : Nat) : Nat := 0x4011C + 0x40 * k
/-- TIME.ADJ_d (R322). -/
abbrev rTIME_ADJ (k : Nat) : Nat := 0x40120 + 0x40 * k
/-- TIME.OFFSET_MEAS_d (R322). -/
abbrev rTIME_OFFSET_MEAS (k : Nat) : Nat := 0x40124 + 0x40 * k
/-- TIME.SERVO_I_d (R322). -/
abbrev rTIME_SERVO_I (k : Nat) : Nat := 0x40128 + 0x40 * k
/-- TIME.DOM_d_STATUS (R322). -/
abbrev rTIME_DOM_STATUS (k : Nat) : Nat := 0x4012C + 0x40 * k
/-- TIME.TRG_n_CFG (R322). -/
abbrev rTIME_TRG_CFG (k : Nat) : Nat := 0x40400 + 0x10 * k
/-- TIME.CAP_n_CFG (R322). -/
abbrev rTIME_CAP_CFG (k : Nat) : Nat := 0x40500 + 0x10 * k
/-- TIME.CAP_n_TS_HI (R322). -/
abbrev rTIME_CAP_TS_HI (k : Nat) : Nat := 0x40504 + 0x10 * k
/-- TIME.CAP_n_TS_LO (R322). -/
abbrev rTIME_CAP_TS_LO (k : Nat) : Nat := 0x40508 + 0x10 * k
/-- TIME.CAP_n_DEPTH (R322). -/
abbrev rTIME_CAP_DEPTH (k : Nat) : Nat := 0x4050C + 0x10 * k
/-- TIME.SCHED_e_CFG (R322). -/
abbrev rTIME_SCHED_CFG (k : Nat) : Nat := 0x41000 + 0x20 * k
/-- TIME.SCHED_e_ARG (R322). -/
abbrev rTIME_SCHED_ARG (k : Nat) : Nat := 0x41004 + 0x20 * k
/-- TIME.SCHED_e_TARGET_LO (R322). -/
abbrev rTIME_SCHED_TARGET_LO (k : Nat) : Nat := 0x41008 + 0x20 * k
/-- TIME.SCHED_e_TARGET_HI (R322). -/
abbrev rTIME_SCHED_TARGET_HI (k : Nat) : Nat := 0x4100C + 0x20 * k
/-- TIME.SCHED_e_PERIOD (R322). -/
abbrev rTIME_SCHED_PERIOD (k : Nat) : Nat := 0x41010 + 0x20 * k
/-- TIME.SCHED_e_STATUS (R322). -/
abbrev rTIME_SCHED_STATUS (k : Nat) : Nat := 0x41014 + 0x20 * k
/-- TIME.SCHED_e_LAST (R322). -/
abbrev rTIME_SCHED_LAST (k : Nat) : Nat := 0x41018 + 0x20 * k
/-- MSG.LAST_ACCEPTED_SEQ_c (R350). -/
abbrev rMSG_LAST_ACCEPTED_SEQ (k : Nat) : Nat := 0xC0000 + 0x4 * k
/-- MSG.TX_SEQ_c (R350). -/
abbrev rMSG_TX_SEQ (k : Nat) : Nat := 0xC0010 + 0x4 * k
/-- MSG.ROUTER_FLAGS (R350). -/
abbrev rMSG_ROUTER_FLAGS : Nat := 0xC0020
/-- MSG.SEQ_GAP_COUNT (R350). -/
abbrev rMSG_SEQ_GAP_COUNT : Nat := 0xC0024
/-- MSG.RX_CRC_COUNT (R350). -/
abbrev rMSG_RX_CRC_COUNT : Nat := 0xC0028
/-- MSG.NAK_COUNT (R350). -/
abbrev rMSG_NAK_COUNT : Nat := 0xC002C
/-- MSG.RX_FORMAT_COUNT (R350). -/
abbrev rMSG_RX_FORMAT_COUNT : Nat := 0xC0030
/-- MSG.FW_QUEUE (R350). -/
abbrev rMSG_FW_QUEUE : Nat := 0xC0034
/-- MSG.FENCE_k (R350). -/
abbrev rMSG_FENCE (k : Nat) : Nat := 0xC0100 + 0x4 * k
/-- MSG.FENCE_SIGNAL (R350). -/
abbrev rMSG_FENCE_SIGNAL : Nat := 0xC0140
/-- MSG.EVT_POP (R350). -/
abbrev rMSG_EVT_POP : Nat := 0xC0200
/-- MSG.EVT_SKIP (R350). -/
abbrev rMSG_EVT_SKIP : Nat := 0xC0204
/-- MSG.EVT_STATUS (R350). -/
abbrev rMSG_EVT_STATUS : Nat := 0xC0208
/-- MSG.EVT_CFG (R350). -/
abbrev rMSG_EVT_CFG : Nat := 0xC020C
/-- MSG.EVT_SEQ_NEXT (R350). -/
abbrev rMSG_EVT_SEQ_NEXT : Nat := 0xC0210
/-- MSG.EVT_SEQ_OLDEST (R350). -/
abbrev rMSG_EVT_SEQ_OLDEST : Nat := 0xC0214
/-- MSG.EVT_DROP_p (R350). -/
abbrev rMSG_EVT_DROP (k : Nat) : Nat := 0xC0218 + 0x4 * k
/-- MSG.EVT_EVICT_q (R350). -/
abbrev rMSG_EVT_EVICT (k : Nat) : Nat := 0xC0228 + 0x4 * k
/-- MSG.EVT_FLAGS (R350). -/
abbrev rMSG_EVT_FLAGS : Nat := 0xC0238
/-- MSG.EVT_DROP_COUNT (R350). -/
abbrev rMSG_EVT_DROP_COUNT : Nat := 0xC023C
/-- MSG.TAKEOVER_COUNT (R350). -/
abbrev rMSG_TAKEOVER_COUNT : Nat := 0xC0240
/-- MSG.SP_BASE_LO (R350). -/
abbrev rMSG_SP_BASE_LO : Nat := 0xC0300
/-- MSG.SP_BASE_HI (R350). -/
abbrev rMSG_SP_BASE_HI : Nat := 0xC0304
/-- MSG.SP_SIZE (R350). -/
abbrev rMSG_SP_SIZE : Nat := 0xC0308
/-- MSG.SP_CFG (R350). -/
abbrev rMSG_SP_CFG : Nat := 0xC030C
/-- MSG.SP_CMD (R350). -/
abbrev rMSG_SP_CMD : Nat := 0xC0310
/-- MSG.SP_STATUS (R350). -/
abbrev rMSG_SP_STATUS : Nat := 0xC0314
/-- MSG.SP_WR_PTR (R350). -/
abbrev rMSG_SP_WR_PTR : Nat := 0xC0318
/-- MSG.SP_RD_PTR (R350). -/
abbrev rMSG_SP_RD_PTR : Nat := 0xC031C
/-- MSG.SP_MARK_PTR (R350). -/
abbrev rMSG_SP_MARK_PTR : Nat := 0xC0320
/-- MSG.SP_SEQ_NEWEST (R350). -/
abbrev rMSG_SP_SEQ_NEWEST : Nat := 0xC0324
/-- MSG.SP_SEQ_OLDEST (R350). -/
abbrev rMSG_SP_SEQ_OLDEST : Nat := 0xC0328
/-- MSG.SP_TRIG_PTR (R350). -/
abbrev rMSG_SP_TRIG_PTR : Nat := 0xC032C
/-- MSG.SP_TRIG_SEQ (R350). -/
abbrev rMSG_SP_TRIG_SEQ : Nat := 0xC0330
/-- MSG.MARK_LOST_COUNT (R350). -/
abbrev rMSG_MARK_LOST_COUNT : Nat := 0xC0334
/-- MSG.RD_OVERTAKEN_COUNT (R350). -/
abbrev rMSG_RD_OVERTAKEN_COUNT : Nat := 0xC0338
/-- MSG.REWIND_FAIL_COUNT (R350). -/
abbrev rMSG_REWIND_FAIL_COUNT : Nat := 0xC033C
/-- MSG.SP_LOSS_COUNT (R350). -/
abbrev rMSG_SP_LOSS_COUNT : Nat := 0xC0340
/-- MSG.SP_FROZEN_DROP_COUNT (R350). -/
abbrev rMSG_SP_FROZEN_DROP_COUNT : Nat := 0xC0344
/-- MSG.SP_WIN (R350). -/
abbrev rMSG_SP_WIN (j : Nat) : Nat := 0xC0380 + 0x4 * j
/-- HOSTIF.ETH_p_CFG (R351). -/
abbrev rHOSTIF_ETH_CFG (k : Nat) : Nat := 0x80000 + 0x400 * k
/-- HOSTIF.ETH_p_STATUS (R351). -/
abbrev rHOSTIF_ETH_STATUS (k : Nat) : Nat := 0x80004 + 0x400 * k
/-- HOSTIF.ETH_p_RX_ERR (R351). -/
abbrev rHOSTIF_ETH_RX_ERR (k : Nat) : Nat := 0x80008 + 0x400 * k
/-- HOSTIF.ETH_p_MACSEC_ERR (R351). -/
abbrev rHOSTIF_ETH_MACSEC_ERR (k : Nat) : Nat := 0x8000C + 0x400 * k
/-- HOSTIF.CSI_r_CFG (R351). -/
abbrev rHOSTIF_CSI_CFG (k : Nat) : Nat := 0x81000 + 0x200 * k
/-- HOSTIF.CSI_r_ERR (R351). -/
abbrev rHOSTIF_CSI_ERR (k : Nat) : Nat := 0x81004 + 0x200 * k
/-- HOSTIF.CSI_r_ECC_CORR (R351). -/
abbrev rHOSTIF_CSI_ECC_CORR (k : Nat) : Nat := 0x81008 + 0x200 * k
/-- HOSTIF.CAN_c_STATUS (R351). -/
abbrev rHOSTIF_CAN_STATUS (k : Nat) : Nat := 0x82000 + 0x100 * k
/-- HOSTIF.CAN_c_BAD_COUNT (R351). -/
abbrev rHOSTIF_CAN_BAD_COUNT (k : Nat) : Nat := 0x82004 + 0x100 * k
/-- HOSTIF.SPI_STATUS (R351). -/
abbrev rHOSTIF_SPI_STATUS : Nat := 0x83000
/-- HOSTIF.SPI_CRC_COUNT (R351). -/
abbrev rHOSTIF_SPI_CRC_COUNT : Nat := 0x83004
/-- HOSTIF.SPI_REPLY_LOST (R351). -/
abbrev rHOSTIF_SPI_REPLY_LOST : Nat := 0x83008
/-- SAFETY.STATUS (R381). -/
abbrev rSAFETY_STATUS : Nat := 0x280000
/-- SAFETY.SS_STATE (R381). -/
abbrev rSAFETY_SS_STATE : Nat := 0x280004
/-- SAFETY.FLAGS (R381). -/
abbrev rSAFETY_FLAGS : Nat := 0x280008
/-- SAFETY.FAULT_SC (R381). -/
abbrev rSAFETY_FAULT_SC : Nat := 0x28000C
/-- SAFETY.FAULT_TT (R381). -/
abbrev rSAFETY_FAULT_TT : Nat := 0x280010
/-- SAFETY.ACK_SC (R381). -/
abbrev rSAFETY_ACK_SC : Nat := 0x280014
/-- SAFETY.ACK_TT (R381). -/
abbrev rSAFETY_ACK_TT : Nat := 0x280018
/-- SAFETY.SIN_STATUS (R381). -/
abbrev rSAFETY_SIN_STATUS : Nat := 0x28001C
/-- SAFETY.SW_STATUS (R381). -/
abbrev rSAFETY_SW_STATUS : Nat := 0x280020
/-- SAFETY.CEIL_LAST (R381). -/
abbrev rSAFETY_CEIL_LAST : Nat := 0x280024
/-- SAFETY.DYN_SHIFT (R381). -/
abbrev rSAFETY_DYN_SHIFT : Nat := 0x280028
/-- SAFETY.MASK_AGE (R381). -/
abbrev rSAFETY_MASK_AGE : Nat := 0x28002C
/-- SAFETY.ROW_ENERGY_COUNT (R381). -/
abbrev rSAFETY_ROW_ENERGY_COUNT : Nat := 0x280030
/-- SAFETY.CEILING_COUNT (R381). -/
abbrev rSAFETY_CEILING_COUNT : Nat := 0x280034
/-- SAFETY.STATS_MISSING_COUNT (R381). -/
abbrev rSAFETY_STATS_MISSING_COUNT : Nat := 0x280038
/-- SAFETY.DISCREPANCY_COUNT (R381). -/
abbrev rSAFETY_DISCREPANCY_COUNT : Nat := 0x28003C
/-- SAFETY.SWITCH_FAIL_COUNT (R381). -/
abbrev rSAFETY_SWITCH_FAIL_COUNT : Nat := 0x280040
/-- SAFETY.TEST_SKIP_COUNT (R381). -/
abbrev rSAFETY_TEST_SKIP_COUNT : Nat := 0x280044
/-- SAFETY.ACT_FAULT_COUNT (R381). -/
abbrev rSAFETY_ACT_FAULT_COUNT : Nat := 0x280048
/-- SAFETY.ACK_REFUSED_COUNT (R381). -/
abbrev rSAFETY_ACK_REFUSED_COUNT : Nat := 0x28004C
/-- SAFETY.SIN_i_CFG (R381). -/
abbrev rSAFETY_SIN_CFG (k : Nat) : Nat := 0x280100 + 0x10 * k
/-- SAFETY.ACT_n_CFG (R381). -/
abbrev rSAFETY_ACT_CFG (k : Nat) : Nat := 0x280200 + 0x20 * k
/-- SAFETY.ACT_n_TARGET (R381). -/
abbrev rSAFETY_ACT_TARGET (k : Nat) : Nat := 0x280204 + 0x20 * k
/-- SAFETY.ACT_n_POS_SC (R381). -/
abbrev rSAFETY_ACT_POS_SC (k : Nat) : Nat := 0x280208 + 0x20 * k
/-- SAFETY.ACT_n_POS_TT (R381). -/
abbrev rSAFETY_ACT_POS_TT (k : Nat) : Nat := 0x28020C + 0x20 * k
/-- SAFETY.ACT_n_STATUS (R381). -/
abbrev rSAFETY_ACT_STATUS (k : Nat) : Nat := 0x280210 + 0x20 * k
/-- SAFETY.POLICY (R381). -/
abbrev rSAFETY_POLICY : Nat := 0x280300
/-- SAFETY.TEST_CFG (R381). -/
abbrev rSAFETY_TEST_CFG : Nat := 0x280304
/-- MEM.ECC_STATUS (R397). -/
abbrev rMEM_ECC_STATUS : Nat := 0x300100
/-- MEM.CE_COUNT (R397). -/
abbrev rMEM_CE_COUNT : Nat := 0x300104
/-- MEM.UE_COUNT (R397). -/
abbrev rMEM_UE_COUNT : Nat := 0x300108
/-- MEM.CE_REPEAT_COUNT (R397). -/
abbrev rMEM_CE_REPEAT_COUNT : Nat := 0x30010C
/-- MEM.LAST_CE_ADDR_LO (R397). -/
abbrev rMEM_LAST_CE_ADDR_LO : Nat := 0x300110
/-- MEM.LAST_CE_ADDR_HI (R397). -/
abbrev rMEM_LAST_CE_ADDR_HI : Nat := 0x300114
/-- MEM.LAST_CE_INFO (R397). -/
abbrev rMEM_LAST_CE_INFO : Nat := 0x300118
/-- MEM.LAST_UE_ADDR_LO (R397). -/
abbrev rMEM_LAST_UE_ADDR_LO : Nat := 0x30011C
/-- MEM.LAST_UE_ADDR_HI (R397). -/
abbrev rMEM_LAST_UE_ADDR_HI : Nat := 0x300120
/-- MEM.LAST_UE_INFO (R397). -/
abbrev rMEM_LAST_UE_INFO : Nat := 0x300124
/-- MEM.SCRUB_CFG (R397). -/
abbrev rMEM_SCRUB_CFG : Nat := 0x300130
/-- MEM.SCRUB_STATUS (R397). -/
abbrev rMEM_SCRUB_STATUS : Nat := 0x300134
/-- MEM.ECC_INJECT (R397). -/
abbrev rMEM_ECC_INJECT : Nat := 0x300138
/-- MEM.ECC_REGION_r (R397). -/
abbrev rMEM_ECC_REGION (k : Nat) : Nat := 0x300140 + 0x4 * k
/-- CRC.CTRL (R397). -/
abbrev rCRC_CTRL (n : Nat) : Nat := 0x2C0000 + 0x100 * n
/-- CRC.CMD (R397). -/
abbrev rCRC_CMD (n : Nat) : Nat := 0x2C0004 + 0x100 * n
/-- CRC.STATUS (R397). -/
abbrev rCRC_STATUS (n : Nat) : Nat := 0x2C0008 + 0x100 * n
/-- CRC.POLY (R397). -/
abbrev rCRC_POLY (n : Nat) : Nat := 0x2C000C + 0x100 * n
/-- CRC.INIT (R397). -/
abbrev rCRC_INIT (n : Nat) : Nat := 0x2C0010 + 0x100 * n
/-- CRC.ADDR_LO (R397). -/
abbrev rCRC_ADDR_LO (n : Nat) : Nat := 0x2C0014 + 0x100 * n
/-- CRC.ADDR_HI (R397). -/
abbrev rCRC_ADDR_HI (n : Nat) : Nat := 0x2C0018 + 0x100 * n
/-- CRC.LEN (R397). -/
abbrev rCRC_LEN (n : Nat) : Nat := 0x2C001C + 0x100 * n
/-- CRC.REF_A (R397). -/
abbrev rCRC_REF_A (n : Nat) : Nat := 0x2C0020 + 0x100 * n
/-- CRC.REF_B (R397). -/
abbrev rCRC_REF_B (n : Nat) : Nat := 0x2C0024 + 0x100 * n
/-- CRC.RESULT (R397). -/
abbrev rCRC_RESULT (n : Nat) : Nat := 0x2C0028 + 0x100 * n
/-- CRC.PROGRESS (R397). -/
abbrev rCRC_PROGRESS (n : Nat) : Nat := 0x2C002C + 0x100 * n
/-- CRC.ERR_BUSY_COUNT (R397). -/
abbrev rCRC_ERR_BUSY_COUNT (n : Nat) : Nat := 0x2C0030 + 0x100 * n
/-- CRC.DATA_MISMATCH_COUNT (R397). -/
abbrev rCRC_DATA_MISMATCH_COUNT (n : Nat) : Nat := 0x2C0034 + 0x100 * n
/-- CRC.REF_CORRUPT_COUNT (R397). -/
abbrev rCRC_REF_CORRUPT_COUNT (n : Nat) : Nat := 0x2C0038 + 0x100 * n
/-- CRC.DATA (R397). -/
abbrev rCRC_DATA (n j : Nat) : Nat := 0x2C0040 + 0x100 * n + 0x4 * j
/-- PWR.PWR_REQ (R426). -/
abbrev rPWR_PWR_REQ : Nat := 0x20000
/-- PWR.PWR_STATUS (R426). -/
abbrev rPWR_PWR_STATUS : Nat := 0x20004
/-- PWR.PWR_CFG (R426). -/
abbrev rPWR_PWR_CFG : Nat := 0x20008
/-- PWR.PWR_GUARD (R426). -/
abbrev rPWR_PWR_GUARD : Nat := 0x2000C
/-- PWR.DEADLINE_LO (R426). -/
abbrev rPWR_DEADLINE_LO : Nat := 0x20010
/-- PWR.DEADLINE_HI (R426). -/
abbrev rPWR_DEADLINE_HI : Nat := 0x20014
/-- PWR.NEXT_EVENT (R426). -/
abbrev rPWR_NEXT_EVENT : Nat := 0x20018
/-- PWR.AUTO_CHOICE (R426). -/
abbrev rPWR_AUTO_CHOICE : Nat := 0x2001C
/-- PWR.WAKE_FAIL_CAUSE (R426). -/
abbrev rPWR_WAKE_FAIL_CAUSE : Nat := 0x20020
/-- PWR.WAKE_SRC (R426). -/
abbrev rPWR_WAKE_SRC : Nat := 0x20024
/-- PWR.SLOW_PERIOD (R426). -/
abbrev rPWR_SLOW_PERIOD : Nat := 0x20028
/-- PWR.RET_STATUS (R426). -/
abbrev rPWR_RET_STATUS : Nat := 0x2002C
/-- PWR.PWR_FLAGS (R426). -/
abbrev rPWR_PWR_FLAGS : Nat := 0x20030
/-- PWR.VETO_COUNT (R426). -/
abbrev rPWR_VETO_COUNT : Nat := 0x20034
/-- PWR.REFUSED_COUNT (R426). -/
abbrev rPWR_REFUSED_COUNT : Nat := 0x20038
/-- PWR.WAKE_ABORT_COUNT (R426). -/
abbrev rPWR_WAKE_ABORT_COUNT : Nat := 0x2003C
/-- PWR.RET_LOST_COUNT (R426). -/
abbrev rPWR_RET_LOST_COUNT : Nat := 0x20040
/-- HK.HK_STATUS (R427). -/
abbrev rHK_HK_STATUS : Nat := 0x30000
/-- HK.HLV_STATUS (R427). -/
abbrev rHK_HLV_STATUS : Nat := 0x30004
/-- HK.HLV_LIMIT (R427). -/
abbrev rHK_HLV_LIMIT : Nat := 0x30008
/-- HK.ROUND_CFG (R427). -/
abbrev rHK_ROUND_CFG : Nat := 0x3000C
/-- HK.ROUND_COUNT (R427). -/
abbrev rHK_ROUND_COUNT : Nat := 0x30010
/-- HK.THR_CFG (R427). -/
abbrev rHK_THR_CFG : Nat := 0x30014
/-- HK.SENSOR_STATUS (R427). -/
abbrev rHK_SENSOR_STATUS : Nat := 0x30018
/-- HK.DIE_TEMP_MAX (R427). -/
abbrev rHK_DIE_TEMP_MAX : Nat := 0x3001C
/-- HK.TILE_CAP_n (R427). -/
abbrev rHK_TILE_CAP (k : Nat) : Nat := 0x30020 + 0x4 * k
/-- HK.TILE_SUB_n (R427). -/
abbrev rHK_TILE_SUB (k : Nat) : Nat := 0x30030 + 0x4 * k
/-- HK.TILE_BIAS_n (R427). -/
abbrev rHK_TILE_BIAS (k : Nat) : Nat := 0x30040 + 0x4 * k
/-- HK.DERATED_BLOCKS (R427). -/
abbrev rHK_DERATED_BLOCKS : Nat := 0x30050
/-- HK.CUT_STATUS (R427). -/
abbrev rHK_CUT_STATUS : Nat := 0x30054
/-- HK.SENSOR_IGNORED_COUNT (R427). -/
abbrev rHK_SENSOR_IGNORED_COUNT : Nat := 0x30058
/-- HK.ROUND_LATE_COUNT (R427). -/
abbrev rHK_ROUND_LATE_COUNT : Nat := 0x3005C
/-- HK.SUPPLY_k (R427). -/
abbrev rHK_SUPPLY (k : Nat) : Nat := 0x30080 + 0x4 * k
/-- HK.DERATE (R427). -/
abbrev rHK_DERATE (k : Nat) : Nat := 0x31000 + 0x4 * k
/-- HK.BLKTEMP (R427). -/
abbrev rHK_BLKTEMP (k : Nat) : Nat := 0x32000 + 0x4 * k
/-- BE.SPARE (R107). -/
abbrev rBE_SPARE : Nat := 0x250000

-- Bit fields
abbrev fHK_HLV_STATUS_CAP_STALE : Fld := ⟨rHK_HLV_STATUS, 2, 1⟩
abbrev fHK_HLV_STATUS_TEMP_STALE : Fld := ⟨rHK_HLV_STATUS, 1, 1⟩
abbrev fHK_HLV_STATUS_DERATE_STALE : Fld := ⟨rHK_HLV_STATUS, 0, 1⟩
abbrev fTOP_MC_LOAD_QUEUE_DEPTH : Fld := ⟨rTOP_MC_LOAD, 24, 8⟩
abbrev fTOP_MC_LOAD_SHED_LEVEL : Fld := ⟨rTOP_MC_LOAD, 16, 8⟩
abbrev fTOP_MC_LOAD_LOAD_1 : Fld := ⟨rTOP_MC_LOAD, 8, 8⟩
abbrev fTOP_MC_LOAD_LOAD_0 : Fld := ⟨rTOP_MC_LOAD, 0, 8⟩
abbrev fTOP_BUS_ERR_STATUS_LOCK_VIOL : Fld := ⟨rTOP_BUS_ERR_STATUS, 2, 1⟩
abbrev fTOP_BUS_ERR_STATUS_UNMAPPED : Fld := ⟨rTOP_BUS_ERR_STATUS, 1, 1⟩
abbrev fTOP_BUS_ERR_STATUS_SYS_MAP : Fld := ⟨rTOP_BUS_ERR_STATUS, 0, 1⟩
abbrev fBSTREAM_STATUS_SECTIONS_LOADED : Fld := ⟨rBSTREAM_STATUS, 16, 8⟩
abbrev fBSTREAM_STATUS_UPDATE_PENDING : Fld := ⟨rBSTREAM_STATUS, 11, 1⟩
abbrev fBSTREAM_STATUS_LOCKED : Fld := ⟨rBSTREAM_STATUS, 10, 1⟩
abbrev fBSTREAM_STATUS_ENCRYPTED : Fld := ⟨rBSTREAM_STATUS, 9, 1⟩
abbrev fBSTREAM_STATUS_SOURCE : Fld := ⟨rBSTREAM_STATUS, 8, 1⟩
abbrev fBSTREAM_STATUS_IMAGE : Fld := ⟨rBSTREAM_STATUS, 6, 2⟩
abbrev fBSTREAM_STATUS_KEY_SLOT : Fld := ⟨rBSTREAM_STATUS, 4, 2⟩
abbrev fBSTREAM_STATUS_STATE : Fld := ⟨rBSTREAM_STATUS, 0, 4⟩
abbrev fBSTREAM_ERROR_SECTION : Fld := ⟨rBSTREAM_ERROR, 16, 8⟩
abbrev fBSTREAM_ERROR_CODE : Fld := ⟨rBSTREAM_ERROR, 0, 8⟩
abbrev fBSTREAM_UPDATE_STATUS_ERR_CODE : Fld := ⟨rBSTREAM_UPDATE_STATUS, 16, 8⟩
abbrev fBSTREAM_UPDATE_STATUS_STATE : Fld := ⟨rBSTREAM_UPDATE_STATUS, 0, 4⟩
abbrev fBSTREAM_OTP_STATUS_ROLLBACK : Fld := ⟨rBSTREAM_OTP_STATUS, 16, 7⟩
abbrev fBSTREAM_OTP_STATUS_REVOKED : Fld := ⟨rBSTREAM_OTP_STATUS, 8, 4⟩
abbrev fBSTREAM_OTP_STATUS_PROGRAMMED : Fld := ⟨rBSTREAM_OTP_STATUS, 4, 4⟩
abbrev fBSTREAM_OTP_STATUS_TEMP_BLOCK : Fld := ⟨rBSTREAM_OTP_STATUS, 3, 1⟩
abbrev fBSTREAM_OTP_STATUS_WRAP_DISABLE : Fld := ⟨rBSTREAM_OTP_STATUS, 2, 1⟩
abbrev fBSTREAM_OTP_STATUS_BUSY : Fld := ⟨rBSTREAM_OTP_STATUS, 1, 1⟩
abbrev fTOP_RESET_CAUSE_FIO_RETRIES : Fld := ⟨rTOP_RESET_CAUSE, 6, 2⟩
abbrev fTOP_RESET_CAUSE_PG_RETRIES : Fld := ⟨rTOP_RESET_CAUSE, 4, 2⟩
abbrev fTOP_RESET_CAUSE_CAUSE : Fld := ⟨rTOP_RESET_CAUSE, 0, 4⟩
abbrev fTOP_START_STATUS_DEGRADED_CLK : Fld := ⟨rTOP_START_STATUS, 31, 1⟩
abbrev fTOP_START_STATUS_TILES_FULL : Fld := ⟨rTOP_START_STATUS, 24, 4⟩
abbrev fTOP_START_STATUS_TILES_FB : Fld := ⟨rTOP_START_STATUS, 20, 4⟩
abbrev fTOP_START_STATUS_TILES_UP : Fld := ⟨rTOP_START_STATUS, 16, 4⟩
abbrev fTOP_START_STATUS_RUNTIME_DONE : Fld := ⟨rTOP_START_STATUS, 9, 1⟩
abbrev fTOP_START_STATUS_LOCKED : Fld := ⟨rTOP_START_STATUS, 8, 1⟩
abbrev fTOP_START_STATUS_DRAM_READY : Fld := ⟨rTOP_START_STATUS, 7, 1⟩
abbrev fTOP_START_STATUS_SELFTEST_PASS : Fld := ⟨rTOP_START_STATUS, 6, 1⟩
abbrev fTOP_START_STATUS_RAILS_DONE : Fld := ⟨rTOP_START_STATUS, 5, 1⟩
abbrev fTOP_START_STATUS_PHASE1_DONE : Fld := ⟨rTOP_START_STATUS, 4, 1⟩
abbrev fTOP_START_STATUS_REFCLK_OK : Fld := ⟨rTOP_START_STATUS, 3, 1⟩
abbrev fTOP_START_STATUS_FIO_OK : Fld := ⟨rTOP_START_STATUS, 2, 1⟩
abbrev fTOP_START_STATUS_BOOT_RAILS : Fld := ⟨rTOP_START_STATUS, 1, 1⟩
abbrev fTOP_START_TIMES_FULL_TIME : Fld := ⟨rTOP_START_TIMES, 16, 16⟩
abbrev fTOP_START_TIMES_FB_TIME : Fld := ⟨rTOP_START_TIMES, 0, 16⟩
abbrev fBE_STATUS_PC (n : Nat) : Fld := ⟨rBE_STATUS n, 16, 13⟩
abbrev fBE_STATUS_EXC (n : Nat) : Fld := ⟨rBE_STATUS n, 8, 8⟩
abbrev fBE_STATUS_TRIG_PENDING (n : Nat) : Fld := ⟨rBE_STATUS n, 7, 1⟩
abbrev fBE_STATUS_WAIT_ON (n : Nat) : Fld := ⟨rBE_STATUS n, 4, 3⟩
abbrev fBE_STATUS_STATE (n : Nat) : Fld := ⟨rBE_STATUS n, 0, 4⟩
abbrev fBE_FLAGS_TRIG_OVERRUN (n : Nat) : Fld := ⟨rBE_FLAGS n, 1, 1⟩
abbrev fBE_FLAGS_FAULT (n : Nat) : Fld := ⟨rBE_FLAGS n, 0, 1⟩
abbrev fBE_JOB_TRIG_SRC (n : Nat) : Fld := ⟨rBE_JOB_TRIG n, 28, 4⟩
abbrev fBE_JOB_TRIG_LAMP (n : Nat) : Fld := ⟨rBE_JOB_TRIG n, 24, 1⟩
abbrev fBE_JOB_TRIG_SCHED_ENTRY (n : Nat) : Fld := ⟨rBE_JOB_TRIG n, 18, 6⟩
abbrev fBE_JOB_TRIG_TG (n : Nat) : Fld := ⟨rBE_JOB_TRIG n, 16, 2⟩
abbrev fBE_JOB_TRIG_FENCE (n : Nat) : Fld := ⟨rBE_JOB_TRIG n, 12, 4⟩
abbrev fBE_MBOX_STATUS_NAK_COUNT (n : Nat) : Fld := ⟨rBE_MBOX_STATUS n, 16, 16⟩
abbrev fBE_MBOX_STATUS_DEPTH (n : Nat) : Fld := ⟨rBE_MBOX_STATUS n, 0, 4⟩
abbrev fBE_DMA_STATUS_OUTSTANDING (n : Nat) : Fld := ⟨rBE_DMA_STATUS n, 8, 5⟩
abbrev fBE_DMA_STATUS_CH1_DEPTH (n : Nat) : Fld := ⟨rBE_DMA_STATUS n, 4, 3⟩
abbrev fBE_DMA_STATUS_CH0_DEPTH (n : Nat) : Fld := ⟨rBE_DMA_STATUS n, 0, 3⟩
abbrev fBE_SPARE_IN_USE : Fld := ⟨rBE_SPARE, 16, 1⟩
abbrev fBE_SPARE_REPLACED : Fld := ⟨rBE_SPARE, 8, 4⟩
abbrev fBE_SPARE_VALID : Fld := ⟨rBE_SPARE, 4, 1⟩
abbrev fBE_SPARE_ENGINE : Fld := ⟨rBE_SPARE, 0, 4⟩
abbrev fMSG_FLIP_FLAGS_REASON (k : Nat) : Fld := ⟨rMSG_FLIP_FLAGS k, 16, 8⟩
abbrev fMSG_FLIP_FLAGS_REFUSED (k : Nat) : Fld := ⟨rMSG_FLIP_FLAGS k, 2, 1⟩
abbrev fMSG_FLIP_FLAGS_SUPERSEDED (k : Nat) : Fld := ⟨rMSG_FLIP_FLAGS k, 1, 1⟩
abbrev fMSG_FLIP_FLAGS_DEFERRED (k : Nat) : Fld := ⟨rMSG_FLIP_FLAGS k, 0, 1⟩
abbrev fMSG_LAYER_CFG_VALID (k : Nat) : Fld := ⟨rMSG_LAYER_CFG k, 31, 1⟩
abbrev fMSG_LAYER_CFG_PERIODIC (k : Nat) : Fld := ⟨rMSG_LAYER_CFG k, 30, 1⟩
abbrev fMSG_LAYER_CFG_RAW_EN (k : Nat) : Fld := ⟨rMSG_LAYER_CFG k, 29, 1⟩
abbrev fMSG_LAYER_CFG_ECC_REQ (k : Nat) : Fld := ⟨rMSG_LAYER_CFG k, 28, 1⟩
abbrev fMSG_LAYER_CFG_POLICY (k : Nat) : Fld := ⟨rMSG_LAYER_CFG k, 26, 2⟩
abbrev fMSG_LAYER_CFG_GROUP (k : Nat) : Fld := ⟨rMSG_LAYER_CFG k, 24, 2⟩
abbrev fMSG_LAYER_STATUS_AGE (k : Nat) : Fld := ⟨rMSG_LAYER_STATUS k, 16, 8⟩
abbrev fMSG_LAYER_STATUS_STATE (k : Nat) : Fld := ⟨rMSG_LAYER_STATUS k, 4, 2⟩
abbrev fMSG_LAYER_STATUS_NO_FB (k : Nat) : Fld := ⟨rMSG_LAYER_STATUS k, 3, 1⟩
abbrev fMSG_LAYER_STATUS_NEVER_FLIPPED (k : Nat) : Fld := ⟨rMSG_LAYER_STATUS k, 2, 1⟩
abbrev fMSG_LAYER_STATUS_SKIPPED (k : Nat) : Fld := ⟨rMSG_LAYER_STATUS k, 1, 1⟩
abbrev fCP_STATUS_RAW_TEAR (n : Nat) : Fld := ⟨rCP_STATUS n, 4, 1⟩
abbrev fCP_STATUS_LINEBUF_SHORT (n : Nat) : Fld := ⟨rCP_STATUS n, 3, 1⟩
abbrev fCP_STATUS_TAPS_REDUCED (n : Nat) : Fld := ⟨rCP_STATUS n, 2, 1⟩
abbrev fCP_STATUS_DECODE_ERR (n : Nat) : Fld := ⟨rCP_STATUS n, 1, 1⟩
abbrev fCP_STATUS_URGENT (n : Nat) : Fld := ⟨rCP_STATUS n, 0, 1⟩
abbrev fHOSTIF_CAPW_CFG_EN (k : Nat) : Fld := ⟨rHOSTIF_CAPW_CFG k, 31, 1⟩
abbrev fHOSTIF_CAPW_CFG_AUTO_FLIP (k : Nat) : Fld := ⟨rHOSTIF_CAPW_CFG k, 30, 1⟩
abbrev fHOSTIF_CAPW_CFG_LAYER (k : Nat) : Fld := ⟨rHOSTIF_CAPW_CFG k, 27, 3⟩
abbrev fHOSTIF_CAPW_CFG_BUFS (k : Nat) : Fld := ⟨rHOSTIF_CAPW_CFG k, 24, 2⟩
abbrev fHOSTIF_CAPW_CFG_FENCE (k : Nat) : Fld := ⟨rHOSTIF_CAPW_CFG k, 20, 4⟩
abbrev fHOSTIF_CAPW_CFG_COMPRESSED (k : Nat) : Fld := ⟨rHOSTIF_CAPW_CFG k, 19, 1⟩
abbrev fHOSTIF_CAPW_CFG_FORMAT (k : Nat) : Fld := ⟨rHOSTIF_CAPW_CFG k, 16, 3⟩
abbrev fHOSTIF_CAPW_CFG_DT (k : Nat) : Fld := ⟨rHOSTIF_CAPW_CFG k, 8, 6⟩
abbrev fHOSTIF_CAPW_CFG_VC (k : Nat) : Fld := ⟨rHOSTIF_CAPW_CFG k, 4, 2⟩
abbrev fHOSTIF_CAPW_CFG_RX (k : Nat) : Fld := ⟨rHOSTIF_CAPW_CFG k, 0, 1⟩
abbrev fPRESS_CFG_DITHER_EN (n : Nat) : Fld := ⟨rPRESS_CFG n, 31, 1⟩
abbrev fPRESS_CFG_FILL_EN (n : Nat) : Fld := ⟨rPRESS_CFG n, 30, 1⟩
abbrev fPRESS_CFG_TC_EN (n : Nat) : Fld := ⟨rPRESS_CFG n, 29, 1⟩
abbrev fPRESS_CFG_CAP_EN (n : Nat) : Fld := ⟨rPRESS_CFG n, 28, 1⟩
abbrev fPRESS_CFG_CLAMP_RANGE (n : Nat) : Fld := ⟨rPRESS_CFG n, 26, 2⟩
abbrev fPRESS_CFG_FILL_K (n : Nat) : Fld := ⟨rPRESS_CFG n, 8, 8⟩
abbrev fPRESS_STATUS_CURVE_BANK (n : Nat) : Fld := ⟨rPRESS_STATUS n, 4, 1⟩
abbrev fPRESS_STATUS_ROI_MISMATCH (n : Nat) : Fld := ⟨rPRESS_STATUS n, 3, 1⟩
abbrev fPRESS_STATUS_SEL_MISMATCH (n : Nat) : Fld := ⟨rPRESS_STATUS n, 2, 1⟩
abbrev fPRESS_STATUS_CORR_UE (n : Nat) : Fld := ⟨rPRESS_STATUS n, 1, 1⟩
abbrev fPRESS_STATUS_SAT (n : Nat) : Fld := ⟨rPRESS_STATUS n, 0, 1⟩
abbrev fPRESS_UPD_STATUS_ERR (n : Nat) : Fld := ⟨rPRESS_UPD_STATUS n, 28, 4⟩
abbrev fPRESS_UPD_STATUS_DONE_ENTRIES (n : Nat) : Fld := ⟨rPRESS_UPD_STATUS n, 4, 19⟩
abbrev fPRESS_UPD_STATUS_STATE (n : Nat) : Fld := ⟨rPRESS_UPD_STATUS n, 0, 4⟩
abbrev fTG_STATUS_SLOTS_FIRED (n : Nat) : Fld := ⟨rTG_STATUS n, 16, 4⟩
abbrev fTG_STATUS_START_REFUSED (n : Nat) : Fld := ⟨rTG_STATUS n, 11, 1⟩
abbrev fTG_STATUS_SENSE_SKIP (n : Nat) : Fld := ⟨rTG_STATUS n, 10, 1⟩
abbrev fTG_STATUS_SLOT_SKIP (n : Nat) : Fld := ⟨rTG_STATUS n, 9, 1⟩
abbrev fTG_STATUS_TORN (n : Nat) : Fld := ⟨rTG_STATUS n, 8, 1⟩
abbrev fTG_STATUS_STAGED_PENDING (n : Nat) : Fld := ⟨rTG_STATUS n, 5, 1⟩
abbrev fTG_STATUS_REPHASING (n : Nat) : Fld := ⟨rTG_STATUS n, 4, 1⟩
abbrev fTG_STATUS_STATE (n : Nat) : Fld := ⟨rTG_STATUS n, 0, 4⟩
abbrev fZTL_STATUS_SPARE_FAIL (n : Nat) : Fld := ⟨rZTL_STATUS n, 22, 1⟩
abbrev fZTL_STATUS_ROW_DAMAGED (n : Nat) : Fld := ⟨rZTL_STATUS n, 21, 1⟩
abbrev fZTL_STATUS_PORT_DOWN (n : Nat) : Fld := ⟨rZTL_STATUS n, 20, 1⟩
abbrev fZTL_STATUS_BACK_FAIL (n : Nat) : Fld := ⟨rZTL_STATUS n, 19, 1⟩
abbrev fZTL_STATUS_CAL_REJECT (n : Nat) : Fld := ⟨rZTL_STATUS n, 18, 1⟩
abbrev fZTL_STATUS_RETRAIN (n : Nat) : Fld := ⟨rZTL_STATUS n, 17, 1⟩
abbrev fZTL_STATUS_LANE_FAIL (n : Nat) : Fld := ⟨rZTL_STATUS n, 16, 1⟩
abbrev fZTL_STATUS_RECAL_ACTIVE (n : Nat) : Fld := ⟨rZTL_STATUS n, 11, 1⟩
abbrev fZTL_STATUS_ONE_LANE (n : Nat) : Fld := ⟨rZTL_STATUS n, 10, 1⟩
abbrev fZTL_STATUS_BACK_STALE (n : Nat) : Fld := ⟨rZTL_STATUS n, 9, 1⟩
abbrev fZTL_STATUS_CAPS_ACCEPTED (n : Nat) : Fld := ⟨rZTL_STATUS n, 8, 1⟩
abbrev fZTL_STATUS_TILE_ABSENT (n : Nat) : Fld := ⟨rZTL_STATUS n, 7, 1⟩
abbrev fZTL_STATUS_STATE (n : Nat) : Fld := ⟨rZTL_STATUS n, 0, 4⟩
abbrev fZTL_LANE_MAP_READY (n : Nat) : Fld := ⟨rZTL_LANE_MAP n, 12, 3⟩
abbrev fZTL_LANE_MAP_FAILED (n : Nat) : Fld := ⟨rZTL_LANE_MAP n, 8, 3⟩
abbrev fZTL_LANE_MAP_SPARE (n : Nat) : Fld := ⟨rZTL_LANE_MAP n, 4, 2⟩
abbrev fZTL_LANE_MAP_STRIPE1 (n : Nat) : Fld := ⟨rZTL_LANE_MAP n, 2, 2⟩
abbrev fZTL_LANE_MAP_STRIPE0 (n : Nat) : Fld := ⟨rZTL_LANE_MAP n, 0, 2⟩
abbrev fZTL_LANE_CFG_EQ_MODE (n : Nat) : Fld := ⟨rZTL_LANE_CFG n, 16, 1⟩
abbrev fZTL_LANE_CFG_TILE_D2 (n : Nat) : Fld := ⟨rZTL_LANE_CFG n, 12, 2⟩
abbrev fZTL_LANE_CFG_TILE_D1 (n : Nat) : Fld := ⟨rZTL_LANE_CFG n, 10, 2⟩
abbrev fZTL_LANE_CFG_TILE_D0 (n : Nat) : Fld := ⟨rZTL_LANE_CFG n, 8, 2⟩
abbrev fZTL_LANE_CFG_BK_INV (n : Nat) : Fld := ⟨rZTL_LANE_CFG n, 4, 1⟩
abbrev fZTL_LANE_CFG_CK_INV (n : Nat) : Fld := ⟨rZTL_LANE_CFG n, 3, 1⟩
abbrev fZTL_LANE_CFG_D_INV (n : Nat) : Fld := ⟨rZTL_LANE_CFG n, 0, 3⟩
abbrev fZTL_SWAP_STATUS_FRAME (n : Nat) : Fld := ⟨rZTL_SWAP_STATUS n, 16, 16⟩
abbrev fZTL_SWAP_STATUS_OUTCOME (n : Nat) : Fld := ⟨rZTL_SWAP_STATUS n, 14, 2⟩
abbrev fZTL_SWAP_STATUS_REASONS (n : Nat) : Fld := ⟨rZTL_SWAP_STATUS n, 10, 4⟩
abbrev fZTL_SWAP_STATUS_MAPS_VALID (n : Nat) : Fld := ⟨rZTL_SWAP_STATUS n, 6, 4⟩
abbrev fZTL_NV_STATUS_PENDING (n : Nat) : Fld := ⟨rZTL_NV_STATUS n, 31, 1⟩
abbrev fZTL_NV_STATUS_OUT_OF_WINDOW (n : Nat) : Fld := ⟨rZTL_NV_STATUS n, 30, 1⟩
abbrev fZTL_NV_STATUS_BUSY (n : Nat) : Fld := ⟨rZTL_NV_STATUS n, 29, 1⟩
abbrev fZTL_NV_STATUS_RESULT (n : Nat) : Fld := ⟨rZTL_NV_STATUS n, 16, 8⟩
abbrev fZTL_NV_STATUS_LIFE_SEQ (n : Nat) : Fld := ⟨rZTL_NV_STATUS n, 0, 16⟩
abbrev fZTL_PROTO_FLAGS_NV_FAIL (n : Nat) : Fld := ⟨rZTL_PROTO_FLAGS n, 5, 1⟩
abbrev fZTL_PROTO_FLAGS_TILE_FAULT (n : Nat) : Fld := ⟨rZTL_PROTO_FLAGS n, 4, 1⟩
abbrev fZTL_PROTO_FLAGS_BLOCK_BAD (n : Nat) : Fld := ⟨rZTL_PROTO_FLAGS n, 3, 1⟩
abbrev fZTL_PROTO_FLAGS_FB_ACK_LATE (n : Nat) : Fld := ⟨rZTL_PROTO_FLAGS n, 2, 1⟩
abbrev fZTL_PROTO_FLAGS_SWAP_ACK_MISSING (n : Nat) : Fld := ⟨rZTL_PROTO_FLAGS n, 1, 1⟩
abbrev fZTL_PROTO_FLAGS_FRAME_HELD (n : Nat) : Fld := ⟨rZTL_PROTO_FLAGS n, 0, 1⟩
abbrev fHEALTH_STATUS_ACC_VALID : Fld := ⟨rHEALTH_STATUS, 11, 1⟩
abbrev fHEALTH_STATUS_DARN_BUSY : Fld := ⟨rHEALTH_STATUS, 10, 1⟩
abbrev fHEALTH_STATUS_BASELINE_ACTIVE : Fld := ⟨rHEALTH_STATUS, 9, 1⟩
abbrev fHEALTH_STATUS_CKPT_FAIL : Fld := ⟨rHEALTH_STATUS, 5, 1⟩
abbrev fHEALTH_STATUS_EOL_END : Fld := ⟨rHEALTH_STATUS, 4, 1⟩
abbrev fHEALTH_STATUS_EOL_WARN : Fld := ⟨rHEALTH_STATUS, 3, 1⟩
abbrev fHEALTH_STATUS_MASS_FAIL : Fld := ⟨rHEALTH_STATUS, 2, 1⟩
abbrev fHEALTH_STATUS_CAL_REJECT : Fld := ⟨rHEALTH_STATUS, 1, 1⟩
abbrev fHEALTH_STATUS_SENSE_STALE : Fld := ⟨rHEALTH_STATUS, 0, 1⟩
abbrev fHEALTH_EOL_LR_FULL (k : Nat) : Fld := ⟨rHEALTH_EOL k, 16, 1⟩
abbrev fHEALTH_EOL_LEVEL (k : Nat) : Fld := ⟨rHEALTH_EOL k, 8, 2⟩
abbrev fHEALTH_EOL_END (k : Nat) : Fld := ⟨rHEALTH_EOL k, 4, 4⟩
abbrev fHEALTH_EOL_WARN (k : Nat) : Fld := ⟨rHEALTH_EOL k, 0, 4⟩
abbrev fTIME_CTRL_AUTO : Fld := ⟨rTIME_CTRL, 8, 1⟩
abbrev fTIME_CTRL_ACTIVE : Fld := ⟨rTIME_CTRL, 0, 1⟩
abbrev fTIME_STATUS_SLEWING : Fld := ⟨rTIME_STATUS, 9, 1⟩
abbrev fTIME_STATUS_HOLDOVER : Fld := ⟨rTIME_STATUS, 8, 1⟩
abbrev fTIME_STATUS_INCR_REFUSED : Fld := ⟨rTIME_STATUS, 5, 1⟩
abbrev fTIME_STATUS_CAP_OVF : Fld := ⟨rTIME_STATUS, 4, 1⟩
abbrev fTIME_STATUS_SCHED_REJECTED : Fld := ⟨rTIME_STATUS, 3, 1⟩
abbrev fTIME_STATUS_MISSED : Fld := ⟨rTIME_STATUS, 2, 1⟩
abbrev fTIME_STATUS_LATE : Fld := ⟨rTIME_STATUS, 1, 1⟩
abbrev fTIME_STATUS_TIME_STEP : Fld := ⟨rTIME_STATUS, 0, 1⟩
abbrev fTIME_DOM_CFG_VALID (k : Nat) : Fld := ⟨rTIME_DOM_CFG k, 31, 1⟩
abbrev fTIME_DOM_CFG_SERVO (k : Nat) : Fld := ⟨rTIME_DOM_CFG k, 30, 1⟩
abbrev fTIME_DOM_CFG_KI (k : Nat) : Fld := ⟨rTIME_DOM_CFG k, 8, 8⟩
abbrev fTIME_DOM_CFG_KP (k : Nat) : Fld := ⟨rTIME_DOM_CFG k, 0, 8⟩
abbrev fTIME_DOM_STATUS_FRESH (k : Nat) : Fld := ⟨rTIME_DOM_STATUS k, 31, 1⟩
abbrev fTIME_DOM_STATUS_SERVO_CLAMPED (k : Nat) : Fld := ⟨rTIME_DOM_STATUS k, 30, 1⟩
abbrev fTIME_DOM_STATUS_AGE (k : Nat) : Fld := ⟨rTIME_DOM_STATUS k, 0, 16⟩
abbrev fTIME_SCHED_CFG_EN (k : Nat) : Fld := ⟨rTIME_SCHED_CFG k, 31, 1⟩
abbrev fTIME_SCHED_CFG_MODE (k : Nat) : Fld := ⟨rTIME_SCHED_CFG k, 29, 2⟩
abbrev fTIME_SCHED_CFG_LATE (k : Nat) : Fld := ⟨rTIME_SCHED_CFG k, 27, 2⟩
abbrev fTIME_SCHED_CFG_ACTION (k : Nat) : Fld := ⟨rTIME_SCHED_CFG k, 20, 4⟩
abbrev fTIME_SCHED_STATUS_ARMED (k : Nat) : Fld := ⟨rTIME_SCHED_STATUS k, 31, 1⟩
abbrev fTIME_SCHED_STATUS_RESULT (k : Nat) : Fld := ⟨rTIME_SCHED_STATUS k, 28, 3⟩
abbrev fTIME_SCHED_STATUS_EXEC_COUNT (k : Nat) : Fld := ⟨rTIME_SCHED_STATUS k, 0, 16⟩
abbrev fMSG_EVT_STATUS_IN_PACKET : Fld := ⟨rMSG_EVT_STATUS, 28, 1⟩
abbrev fMSG_EVT_STATUS_SUMMARY : Fld := ⟨rMSG_EVT_STATUS, 27, 1⟩
abbrev fMSG_EVT_STATUS_DEPTH_P0 : Fld := ⟨rMSG_EVT_STATUS, 16, 11⟩
abbrev fMSG_EVT_STATUS_DEPTH : Fld := ⟨rMSG_EVT_STATUS, 0, 11⟩
abbrev fMSG_SP_STATUS_REWIND_FAIL : Fld := ⟨rMSG_SP_STATUS, 18, 1⟩
abbrev fMSG_SP_STATUS_RD_OVERTAKEN : Fld := ⟨rMSG_SP_STATUS, 17, 1⟩
abbrev fMSG_SP_STATUS_MARK_LOST : Fld := ⟨rMSG_SP_STATUS, 16, 1⟩
abbrev fMSG_SP_STATUS_TRIG_SRC : Fld := ⟨rMSG_SP_STATUS, 8, 4⟩
abbrev fMSG_SP_STATUS_WIN_BUSY : Fld := ⟨rMSG_SP_STATUS, 5, 1⟩
abbrev fMSG_SP_STATUS_MARK_VALID : Fld := ⟨rMSG_SP_STATUS, 4, 1⟩
abbrev fMSG_SP_STATUS_STATE : Fld := ⟨rMSG_SP_STATUS, 0, 2⟩
abbrev fSAFETY_STATUS_SC_ON_FIO : Fld := ⟨rSAFETY_STATUS, 7, 1⟩
abbrev fSAFETY_STATUS_PITCH_STALE : Fld := ⟨rSAFETY_STATUS, 6, 1⟩
abbrev fSAFETY_STATUS_AUTHORITY : Fld := ⟨rSAFETY_STATUS, 5, 1⟩
abbrev fSAFETY_STATUS_INTERLOCK_OPEN : Fld := ⟨rSAFETY_STATUS, 4, 1⟩
abbrev fSAFETY_STATUS_CAN_REQ : Fld := ⟨rSAFETY_STATUS, 3, 1⟩
abbrev fSAFETY_STATUS_TT_LOST : Fld := ⟨rSAFETY_STATUS, 2, 1⟩
abbrev fSAFETY_STATUS_SC_LOST : Fld := ⟨rSAFETY_STATUS, 1, 1⟩
abbrev fSAFETY_STATUS_MC_LOST : Fld := ⟨rSAFETY_STATUS, 0, 1⟩
abbrev fSAFETY_FLAGS_ACK_REFUSED : Fld := ⟨rSAFETY_FLAGS, 7, 1⟩
abbrev fSAFETY_FLAGS_ACT_FAULT : Fld := ⟨rSAFETY_FLAGS, 6, 1⟩
abbrev fSAFETY_FLAGS_TEST_SKIP : Fld := ⟨rSAFETY_FLAGS, 5, 1⟩
abbrev fSAFETY_FLAGS_SWITCH_FAIL : Fld := ⟨rSAFETY_FLAGS, 4, 1⟩
abbrev fSAFETY_FLAGS_DISCREPANCY : Fld := ⟨rSAFETY_FLAGS, 3, 1⟩
abbrev fSAFETY_FLAGS_STATS_MISSING : Fld := ⟨rSAFETY_FLAGS, 2, 1⟩
abbrev fSAFETY_FLAGS_CEILING : Fld := ⟨rSAFETY_FLAGS, 1, 1⟩
abbrev fSAFETY_FLAGS_ROW_ENERGY : Fld := ⟨rSAFETY_FLAGS, 0, 1⟩
abbrev fMEM_ECC_STATUS_CE_REPEAT : Fld := ⟨rMEM_ECC_STATUS, 2, 1⟩
abbrev fMEM_ECC_STATUS_UE : Fld := ⟨rMEM_ECC_STATUS, 1, 1⟩
abbrev fMEM_ECC_STATUS_CE : Fld := ⟨rMEM_ECC_STATUS, 0, 1⟩
abbrev fCRC_CTRL_MODE (n : Nat) : Fld := ⟨rCRC_CTRL n, 30, 2⟩
abbrev fCRC_CTRL_WIDTH (n : Nat) : Fld := ⟨rCRC_CTRL n, 16, 2⟩
abbrev fCRC_CTRL_REFIN (n : Nat) : Fld := ⟨rCRC_CTRL n, 10, 1⟩
abbrev fCRC_CTRL_REFOUT (n : Nat) : Fld := ⟨rCRC_CTRL n, 9, 1⟩
abbrev fCRC_CTRL_FINV (n : Nat) : Fld := ⟨rCRC_CTRL n, 8, 1⟩
abbrev fCRC_CTRL_CMP (n : Nat) : Fld := ⟨rCRC_CTRL n, 4, 1⟩
abbrev fCRC_CTRL_EVT (n : Nat) : Fld := ⟨rCRC_CTRL n, 0, 1⟩
abbrev fCRC_STATUS_BUSY (n : Nat) : Fld := ⟨rCRC_STATUS n, 15, 1⟩
abbrev fCRC_STATUS_DONE (n : Nat) : Fld := ⟨rCRC_STATUS n, 14, 1⟩
abbrev fCRC_STATUS_OUTCOME (n : Nat) : Fld := ⟨rCRC_STATUS n, 12, 2⟩
abbrev fCRC_STATUS_REF_UNRESOLVED (n : Nat) : Fld := ⟨rCRC_STATUS n, 11, 1⟩
abbrev fCRC_STATUS_ABORTED (n : Nat) : Fld := ⟨rCRC_STATUS n, 10, 1⟩
abbrev fCRC_STATUS_ERR_ARG (n : Nat) : Fld := ⟨rCRC_STATUS n, 4, 1⟩
abbrev fCRC_STATUS_ERR_BUS (n : Nat) : Fld := ⟨rCRC_STATUS n, 3, 1⟩
abbrev fCRC_STATUS_ERR_UE (n : Nat) : Fld := ⟨rCRC_STATUS n, 2, 1⟩
abbrev fCRC_STATUS_ERR_BUSY (n : Nat) : Fld := ⟨rCRC_STATUS n, 1, 1⟩
abbrev fPWR_PWR_STATUS_RESULT : Fld := ⟨rPWR_PWR_STATUS, 28, 4⟩
abbrev fPWR_PWR_STATUS_REASON : Fld := ⟨rPWR_PWR_STATUS, 24, 4⟩
abbrev fPWR_PWR_STATUS_PHASE : Fld := ⟨rPWR_PWR_STATUS, 16, 4⟩
abbrev fPWR_PWR_STATUS_PENDING : Fld := ⟨rPWR_PWR_STATUS, 8, 4⟩
abbrev fPWR_PWR_STATUS_TARGET : Fld := ⟨rPWR_PWR_STATUS, 4, 4⟩
abbrev fPWR_PWR_STATUS_CURRENT : Fld := ⟨rPWR_PWR_STATUS, 0, 4⟩
abbrev fPWR_WAKE_FAIL_CAUSE_VALID : Fld := ⟨rPWR_WAKE_FAIL_CAUSE, 31, 1⟩
abbrev fPWR_WAKE_FAIL_CAUSE_FROM : Fld := ⟨rPWR_WAKE_FAIL_CAUSE, 16, 4⟩
abbrev fPWR_WAKE_FAIL_CAUSE_ATTEMPTS : Fld := ⟨rPWR_WAKE_FAIL_CAUSE, 8, 4⟩
abbrev fPWR_WAKE_FAIL_CAUSE_CAUSE : Fld := ⟨rPWR_WAKE_FAIL_CAUSE, 0, 4⟩
abbrev fHK_HK_STATUS_DIE_HOT : Fld := ⟨rHK_HK_STATUS, 4, 1⟩
abbrev fHK_HK_STATUS_OPEN_LOOP : Fld := ⟨rHK_HK_STATUS, 3, 1⟩
abbrev fHK_HK_STATUS_PSUM_STALE : Fld := ⟨rHK_HK_STATUS, 2, 1⟩
abbrev fHK_HK_STATUS_SENSOR_IGNORED : Fld := ⟨rHK_HK_STATUS, 1, 1⟩
abbrev fHK_HK_STATUS_ROUND_LATE : Fld := ⟨rHK_HK_STATUS, 0, 1⟩
abbrev fTOP_DEVICE_ID_PART : Fld := ⟨rTOP_DEVICE_ID, 16, 16⟩
abbrev fTOP_DEVICE_ID_STEPPING : Fld := ⟨rTOP_DEVICE_ID, 0, 8⟩
abbrev fMSG_FLIP_FENCE_WAIT (k : Nat) : Fld := ⟨rMSG_FLIP_FENCE k, 8, 1⟩
abbrev fMSG_FLIP_FENCE_FENCE (k : Nat) : Fld := ⟨rMSG_FLIP_FENCE k, 0, 4⟩
abbrev fMSG_FLIP_STATUS_TAKEN_SEQ (k : Nat) : Fld := ⟨rMSG_FLIP_STATUS k, 16, 16⟩
abbrev fMSG_FLIP_STATUS_COMMIT_SEQ (k : Nat) : Fld := ⟨rMSG_FLIP_STATUS k, 0, 16⟩
abbrev fCP_WINDOW_ROW (n : Nat) : Fld := ⟨rCP_WINDOW n, 16, 16⟩
abbrev fCP_WINDOW_COL (n : Nat) : Fld := ⟨rCP_WINDOW n, 0, 16⟩
abbrev fCP_PREFETCH_LEAST (n : Nat) : Fld := ⟨rCP_PREFETCH n, 16, 8⟩
abbrev fCP_PREFETCH_LEAD (n : Nat) : Fld := ⟨rCP_PREFETCH n, 0, 8⟩
abbrev fCP_DECODE_ERR_INFO_LAYER (n : Nat) : Fld := ⟨rCP_DECODE_ERR_INFO n, 24, 3⟩
abbrev fCP_DECODE_ERR_INFO_BLOCK (n : Nat) : Fld := ⟨rCP_DECODE_ERR_INFO n, 0, 24⟩
abbrev fHOSTIF_CAPW_GEOM_STRIDE (k : Nat) : Fld := ⟨rHOSTIF_CAPW_GEOM k, 16, 16⟩
abbrev fHOSTIF_CAPW_GEOM_HEIGHT (k : Nat) : Fld := ⟨rHOSTIF_CAPW_GEOM k, 0, 16⟩
abbrev fHOSTIF_CAPW_STATUS_BUF (k : Nat) : Fld := ⟨rHOSTIF_CAPW_STATUS k, 14, 2⟩
abbrev fHOSTIF_CAPW_STATUS_REASON (k : Nat) : Fld := ⟨rHOSTIF_CAPW_STATUS k, 0, 8⟩
abbrev fPRESS_SWEEP_STATUS_COUNT (n : Nat) : Fld := ⟨rPRESS_SWEEP_STATUS n, 16, 16⟩
abbrev fPRESS_SWEEP_STATUS_ROW (n : Nat) : Fld := ⟨rPRESS_SWEEP_STATUS n, 0, 9⟩
abbrev fPRESS_ROI_POS_EN (n k : Nat) : Fld := ⟨rPRESS_ROI_POS n k, 31, 1⟩
abbrev fPRESS_ROI_POS_CMP (n k : Nat) : Fld := ⟨rPRESS_ROI_POS n k, 30, 1⟩
abbrev fPRESS_ROI_POS_NODITHER (n k : Nat) : Fld := ⟨rPRESS_ROI_POS n k, 29, 1⟩
abbrev fPRESS_ROI_POS_TOP (n k : Nat) : Fld := ⟨rPRESS_ROI_POS n k, 16, 9⟩
abbrev fPRESS_ROI_POS_LEFT (n k : Nat) : Fld := ⟨rPRESS_ROI_POS n k, 0, 9⟩
abbrev fPRESS_ROI_END_BOTTOM (n k : Nat) : Fld := ⟨rPRESS_ROI_END n k, 16, 9⟩
abbrev fPRESS_ROI_END_RIGHT (n k : Nat) : Fld := ⟨rPRESS_ROI_END n k, 0, 9⟩
abbrev fPRESS_ROI_STATUS_INVALID (n : Nat) : Fld := ⟨rPRESS_ROI_STATUS n, 16, 16⟩
abbrev fPRESS_ROI_STATUS_MISMATCH (n : Nat) : Fld := ⟨rPRESS_ROI_STATUS n, 0, 16⟩
abbrev fPRESS_SNAP_CFG_SLOTS (n : Nat) : Fld := ⟨rPRESS_SNAP_CFG n, 16, 5⟩
abbrev fPRESS_SNAP_CFG_DIV (n : Nat) : Fld := ⟨rPRESS_SNAP_CFG n, 0, 10⟩
abbrev fTG_SENSE_CFG_EN (n : Nat) : Fld := ⟨rTG_SENSE_CFG n, 31, 1⟩
abbrev fTG_SENSE_CFG_CHUNK (n : Nat) : Fld := ⟨rTG_SENSE_CFG n, 16, 5⟩
abbrev fTG_SENSE_CFG_T_SENSE (n : Nat) : Fld := ⟨rTG_SENSE_CFG n, 0, 8⟩
abbrev fTG_PERIOD_FRAC_NUM (n : Nat) : Fld := ⟨rTG_PERIOD_FRAC n, 16, 16⟩
abbrev fTG_PERIOD_FRAC_DEN (n : Nat) : Fld := ⟨rTG_PERIOD_FRAC n, 0, 16⟩
abbrev fTG_STAGE_PERIOD_FRAC_NUM (n : Nat) : Fld := ⟨rTG_STAGE_PERIOD_FRAC n, 16, 16⟩
abbrev fTG_STAGE_PERIOD_FRAC_DEN (n : Nat) : Fld := ⟨rTG_STAGE_PERIOD_FRAC n, 0, 16⟩
abbrev fTG_SLOT_POS_EN (n k : Nat) : Fld := ⟨rTG_SLOT_POS n k, 31, 1⟩
abbrev fTG_SLOT_POS_OFFSET (n k : Nat) : Fld := ⟨rTG_SLOT_POS n k, 0, 24⟩
abbrev fTG_STAGE_SLOT_POS_EN (n k : Nat) : Fld := ⟨rTG_STAGE_SLOT_POS n k, 31, 1⟩
abbrev fTG_STAGE_SLOT_POS_OFFSET (n k : Nat) : Fld := ⟨rTG_STAGE_SLOT_POS n k, 0, 24⟩
abbrev fTG_SLOT_CFG_CURVE (n k : Nat) : Fld := ⟨rTG_SLOT_CFG n k, 24, 8⟩
abbrev fTG_SLOT_CFG_FENCE (n k : Nat) : Fld := ⟨rTG_SLOT_CFG n k, 20, 4⟩
abbrev fTG_SLOT_CFG_WAIT (n k : Nat) : Fld := ⟨rTG_SLOT_CFG n k, 19, 1⟩
abbrev fTG_SLOT_CFG_BUFS (n k : Nat) : Fld := ⟨rTG_SLOT_CFG n k, 16, 1⟩
abbrev fTG_SLOT_CFG_STRIDE (n k : Nat) : Fld := ⟨rTG_SLOT_CFG n k, 0, 16⟩
abbrev fTG_TIMING_STATUS_REASON (n : Nat) : Fld := ⟨rTG_TIMING_STATUS n, 8, 8⟩
abbrev fTG_TIMING_STATUS_STATE (n : Nat) : Fld := ⟨rTG_TIMING_STATUS n, 0, 4⟩
abbrev fZTL_RECAL_CFG_EN (n : Nat) : Fld := ⟨rZTL_RECAL_CFG n, 31, 1⟩
abbrev fZTL_RECAL_CFG_PERIOD (n : Nat) : Fld := ⟨rZTL_RECAL_CFG n, 16, 10⟩
abbrev fZTL_RECAL_CFG_MIN_EYE (n : Nat) : Fld := ⟨rZTL_RECAL_CFG n, 0, 7⟩
abbrev fZTL_MARGIN_CFG_OFFSET (n : Nat) : Fld := ⟨rZTL_MARGIN_CFG n, 0, 6⟩
abbrev fZTL_SPARE_MARGIN_OFF (n : Nat) : Fld := ⟨rZTL_SPARE_MARGIN n, 16, 16⟩
abbrev fZTL_SPARE_MARGIN_CENTRE (n : Nat) : Fld := ⟨rZTL_SPARE_MARGIN n, 0, 16⟩
abbrev fZTL_PRBS_CFG_TX_EN (n : Nat) : Fld := ⟨rZTL_PRBS_CFG n, 31, 1⟩
abbrev fZTL_PRBS_CFG_RAW (n : Nat) : Fld := ⟨rZTL_PRBS_CFG n, 30, 1⟩
abbrev fZTL_PRBS_CFG_PATTERN (n : Nat) : Fld := ⟨rZTL_PRBS_CFG n, 28, 2⟩
abbrev fZTL_PRBS_CFG_LANES (n : Nat) : Fld := ⟨rZTL_PRBS_CFG n, 16, 3⟩
abbrev fZTL_PRBS_CFG_BK_CHK (n : Nat) : Fld := ⟨rZTL_PRBS_CFG n, 8, 1⟩
abbrev fZTL_ATTEMPT_LAST_FAIL_STATE (n : Nat) : Fld := ⟨rZTL_ATTEMPT n, 8, 4⟩
abbrev fZTL_ATTEMPT_COUNT (n : Nat) : Fld := ⟨rZTL_ATTEMPT n, 0, 8⟩
abbrev fZTL_SEL_STATUS_SENT (n : Nat) : Fld := ⟨rZTL_SEL_STATUS n, 16, 11⟩
abbrev fZTL_SEL_STATUS_PENDING (n : Nat) : Fld := ⟨rZTL_SEL_STATUS n, 0, 11⟩
abbrev fZTL_TILE_STATE_FAULT (n : Nat) : Fld := ⟨rZTL_TILE_STATE n, 8, 8⟩
abbrev fZTL_TILE_STATE_FLAGS (n : Nat) : Fld := ⟨rZTL_TILE_STATE n, 0, 8⟩
abbrev fZTL_TILE_TEMP_S1 (n : Nat) : Fld := ⟨rZTL_TILE_TEMP n, 16, 12⟩
abbrev fZTL_TILE_TEMP_S0 (n : Nat) : Fld := ⟨rZTL_TILE_TEMP n, 0, 12⟩
abbrev fZTL_TREG_STATUS_BUSY (n : Nat) : Fld := ⟨rZTL_TREG_STATUS n, 8, 1⟩
abbrev fZTL_TREG_STATUS_RESULT (n : Nat) : Fld := ⟨rZTL_TREG_STATUS n, 0, 4⟩
abbrev fZTL_TILE_TYPE_VENDOR (n : Nat) : Fld := ⟨rZTL_TILE_TYPE n, 16, 16⟩
abbrev fZTL_TILE_TYPE_TYPE (n : Nat) : Fld := ⟨rZTL_TILE_TYPE n, 0, 16⟩
abbrev fZTL_AUTH_STATUS_STATE (n : Nat) : Fld := ⟨rZTL_AUTH_STATUS n, 0, 2⟩
abbrev fHEALTH_SWEEP_CFG_S_EVERY : Fld := ⟨rHEALTH_SWEEP_CFG, 8, 5⟩
abbrev fHEALTH_SWEEP_CFG_SENSE_I : Fld := ⟨rHEALTH_SWEEP_CFG, 0, 2⟩
abbrev fHEALTH_DARN_CFG_EN : Fld := ⟨rHEALTH_DARN_CFG, 31, 1⟩
abbrev fHEALTH_DARN_CFG_FILL_ON_DEAD : Fld := ⟨rHEALTH_DARN_CFG, 30, 1⟩
abbrev fHEALTH_DARN_CFG_MAX_PER_SWEEP : Fld := ⟨rHEALTH_DARN_CFG, 16, 10⟩
abbrev fHEALTH_DARN_CFG_MASS_LIMIT : Fld := ⟨rHEALTH_DARN_CFG, 0, 12⟩
abbrev fHEALTH_AGING_CFG_STRATEGY : Fld := ⟨rHEALTH_AGING_CFG, 31, 1⟩
abbrev fHEALTH_AGING_CFG_AGE_MAX : Fld := ⟨rHEALTH_AGING_CFG, 16, 12⟩
abbrev fHEALTH_AGING_CFG_UNIFORM_EXCL : Fld := ⟨rHEALTH_AGING_CFG, 0, 12⟩
abbrev fHEALTH_EOL_CFG_0_LIFE_WARN : Fld := ⟨rHEALTH_EOL_CFG_0, 24, 8⟩
abbrev fHEALTH_EOL_CFG_0_LIFE_END : Fld := ⟨rHEALTH_EOL_CFG_0, 16, 8⟩
abbrev fHEALTH_EOL_CFG_0_SHORT_WARN : Fld := ⟨rHEALTH_EOL_CFG_0, 8, 8⟩
abbrev fHEALTH_EOL_CFG_0_SHORT_END : Fld := ⟨rHEALTH_EOL_CFG_0, 0, 8⟩
abbrev fHEALTH_EOL_CFG_1_DEAD_WARN : Fld := ⟨rHEALTH_EOL_CFG_1, 16, 10⟩
abbrev fHEALTH_EOL_CFG_1_DEAD_END : Fld := ⟨rHEALTH_EOL_CFG_1, 0, 10⟩
abbrev fHEALTH_CKPT_CFG_FULL : Fld := ⟨rHEALTH_CKPT_CFG, 16, 11⟩
abbrev fHEALTH_CKPT_CFG_DELTA : Fld := ⟨rHEALTH_CKPT_CFG, 0, 10⟩
abbrev fHEALTH_SWEEP_STATUS_COUNT (k : Nat) : Fld := ⟨rHEALTH_SWEEP_STATUS k, 16, 16⟩
abbrev fHEALTH_SWEEP_STATUS_KIND (k : Nat) : Fld := ⟨rHEALTH_SWEEP_STATUS k, 8, 1⟩
abbrev fHEALTH_SWEEP_STATUS_CHUNK (k : Nat) : Fld := ⟨rHEALTH_SWEEP_STATUS k, 0, 4⟩
abbrev fTIME_TRG_CFG_FORCE (k : Nat) : Fld := ⟨rTIME_TRG_CFG k, 1, 1⟩
abbrev fTIME_TRG_CFG_POL (k : Nat) : Fld := ⟨rTIME_TRG_CFG k, 0, 1⟩
abbrev fTIME_CAP_CFG_EN (k : Nat) : Fld := ⟨rTIME_CAP_CFG k, 31, 1⟩
abbrev fTIME_CAP_CFG_EVT (k : Nat) : Fld := ⟨rTIME_CAP_CFG k, 30, 1⟩
abbrev fTIME_CAP_CFG_EDGE (k : Nat) : Fld := ⟨rTIME_CAP_CFG k, 8, 2⟩
abbrev fTIME_CAP_CFG_FILTER (k : Nat) : Fld := ⟨rTIME_CAP_CFG k, 0, 8⟩
abbrev fMSG_EVT_CFG_AUTO_TAKEOVER : Fld := ⟨rMSG_EVT_CFG, 8, 1⟩
abbrev fMSG_EVT_CFG_OWNER : Fld := ⟨rMSG_EVT_CFG, 0, 1⟩
abbrev fMSG_EVT_FLAGS_TAKEOVER : Fld := ⟨rMSG_EVT_FLAGS, 1, 1⟩
abbrev fMSG_EVT_FLAGS_DROP : Fld := ⟨rMSG_EVT_FLAGS, 0, 1⟩
abbrev fMSG_SP_CFG_EN : Fld := ⟨rMSG_SP_CFG, 31, 1⟩
abbrev fMSG_SP_CFG_POST : Fld := ⟨rMSG_SP_CFG, 0, 13⟩
abbrev fMSG_ROUTER_FLAGS_RX_FORMAT : Fld := ⟨rMSG_ROUTER_FLAGS, 3, 1⟩
abbrev fMSG_ROUTER_FLAGS_NAK : Fld := ⟨rMSG_ROUTER_FLAGS, 2, 1⟩
abbrev fMSG_ROUTER_FLAGS_RX_CRC : Fld := ⟨rMSG_ROUTER_FLAGS, 1, 1⟩
abbrev fMSG_ROUTER_FLAGS_SEQ_GAP : Fld := ⟨rMSG_ROUTER_FLAGS, 0, 1⟩
abbrev fHOSTIF_ETH_CFG_EN (k : Nat) : Fld := ⟨rHOSTIF_ETH_CFG k, 31, 1⟩
abbrev fHOSTIF_ETH_CFG_MODE (k : Nat) : Fld := ⟨rHOSTIF_ETH_CFG k, 16, 2⟩
abbrev fHOSTIF_ETH_CFG_MAX_FRAME (k : Nat) : Fld := ⟨rHOSTIF_ETH_CFG k, 0, 12⟩
abbrev fHOSTIF_ETH_STATUS_LINK (k : Nat) : Fld := ⟨rHOSTIF_ETH_STATUS k, 0, 1⟩
abbrev fHOSTIF_ETH_STATUS_MACSEC (k : Nat) : Fld := ⟨rHOSTIF_ETH_STATUS k, 1, 1⟩
abbrev fHOSTIF_ETH_STATUS_BENCH (k : Nat) : Fld := ⟨rHOSTIF_ETH_STATUS k, 2, 1⟩
abbrev fHOSTIF_CSI_CFG_EN (k : Nat) : Fld := ⟨rHOSTIF_CSI_CFG k, 31, 1⟩
abbrev fHOSTIF_CSI_CFG_LANES (k : Nat) : Fld := ⟨rHOSTIF_CSI_CFG k, 0, 3⟩
abbrev fHOSTIF_CSI_ERR_ERR (k : Nat) : Fld := ⟨rHOSTIF_CSI_ERR k, 16, 16⟩
abbrev fHOSTIF_CSI_ERR_DISC (k : Nat) : Fld := ⟨rHOSTIF_CSI_ERR k, 0, 16⟩
abbrev fHOSTIF_CAN_STATUS_REC (k : Nat) : Fld := ⟨rHOSTIF_CAN_STATUS k, 24, 8⟩
abbrev fHOSTIF_CAN_STATUS_TEC (k : Nat) : Fld := ⟨rHOSTIF_CAN_STATUS k, 16, 8⟩
abbrev fHOSTIF_CAN_STATUS_BUS_OFF (k : Nat) : Fld := ⟨rHOSTIF_CAN_STATUS k, 2, 1⟩
abbrev fHOSTIF_CAN_STATUS_LATCHED (k : Nat) : Fld := ⟨rHOSTIF_CAN_STATUS k, 1, 1⟩
abbrev fHOSTIF_CAN_STATUS_ALIVE (k : Nat) : Fld := ⟨rHOSTIF_CAN_STATUS k, 0, 1⟩
abbrev fHOSTIF_SPI_STATUS_RESULT : Fld := ⟨rHOSTIF_SPI_STATUS, 8, 8⟩
abbrev fHOSTIF_SPI_STATUS_DEPTH : Fld := ⟨rHOSTIF_SPI_STATUS, 0, 4⟩
abbrev fSAFETY_DYN_SHIFT_TARGET : Fld := ⟨rSAFETY_DYN_SHIFT, 16, 16⟩
abbrev fSAFETY_DYN_SHIFT_EFF : Fld := ⟨rSAFETY_DYN_SHIFT, 0, 16⟩
abbrev fSAFETY_MASK_AGE_MAX : Fld := ⟨rSAFETY_MASK_AGE, 8, 8⟩
abbrev fSAFETY_MASK_AGE_AGE : Fld := ⟨rSAFETY_MASK_AGE, 0, 8⟩
abbrev fSAFETY_ACT_CFG_EN (k : Nat) : Fld := ⟨rSAFETY_ACT_CFG k, 31, 1⟩
abbrev fSAFETY_ACT_CFG_ENC_PER_STEP (k : Nat) : Fld := ⟨rSAFETY_ACT_CFG k, 0, 2⟩
abbrev fSAFETY_ACT_STATUS_HOMED (k : Nat) : Fld := ⟨rSAFETY_ACT_STATUS k, 3, 1⟩
abbrev fSAFETY_ACT_STATUS_UP_REFUSED (k : Nat) : Fld := ⟨rSAFETY_ACT_STATUS k, 2, 1⟩
abbrev fSAFETY_ACT_STATUS_SC_PERMITS (k : Nat) : Fld := ⟨rSAFETY_ACT_STATUS k, 1, 1⟩
abbrev fSAFETY_ACT_STATUS_TT_PERMITS (k : Nat) : Fld := ⟨rSAFETY_ACT_STATUS k, 0, 1⟩
abbrev fSAFETY_POLICY_SS1_HOLD : Fld := ⟨rSAFETY_POLICY, 16, 16⟩
abbrev fSAFETY_POLICY_MISSING_TILE : Fld := ⟨rSAFETY_POLICY, 0, 2⟩
abbrev fSAFETY_TEST_CFG_EN : Fld := ⟨rSAFETY_TEST_CFG, 0, 1⟩
abbrev fMEM_SCRUB_CFG_EN : Fld := ⟨rMEM_SCRUB_CFG, 31, 1⟩
abbrev fMEM_SCRUB_CFG_HOURS : Fld := ⟨rMEM_SCRUB_CFG, 0, 5⟩
abbrev fMEM_SCRUB_STATUS_PASSES : Fld := ⟨rMEM_SCRUB_STATUS, 16, 16⟩
abbrev fMEM_SCRUB_STATUS_PROGRESS : Fld := ⟨rMEM_SCRUB_STATUS, 0, 10⟩
abbrev fMEM_ECC_INJECT_ARM : Fld := ⟨rMEM_ECC_INJECT, 31, 1⟩
abbrev fMEM_ECC_INJECT_REGION : Fld := ⟨rMEM_ECC_INJECT, 24, 4⟩
abbrev fMEM_ECC_INJECT_BIT1 : Fld := ⟨rMEM_ECC_INJECT, 16, 6⟩
abbrev fMEM_ECC_INJECT_BIT2 : Fld := ⟨rMEM_ECC_INJECT, 8, 6⟩
abbrev fMEM_ECC_INJECT_TWO : Fld := ⟨rMEM_ECC_INJECT, 0, 1⟩
abbrev fPWR_PWR_CFG_IDLE_WAKE_ON_TRIG : Fld := ⟨rPWR_PWR_CFG, 31, 1⟩
abbrev fPWR_PWR_CFG_AUTO_DEEP : Fld := ⟨rPWR_PWR_CFG, 30, 1⟩
abbrev fPWR_WAKE_SRC_LEFT : Fld := ⟨rPWR_WAKE_SRC, 4, 4⟩
abbrev fPWR_WAKE_SRC_SOURCE : Fld := ⟨rPWR_WAKE_SRC, 0, 4⟩
abbrev fPWR_RET_STATUS_VALID : Fld := ⟨rPWR_RET_STATUS, 31, 1⟩
abbrev fPWR_RET_STATUS_SAVED : Fld := ⟨rPWR_RET_STATUS, 16, 11⟩
abbrev fPWR_RET_STATUS_BAD : Fld := ⟨rPWR_RET_STATUS, 0, 11⟩
abbrev fPWR_PWR_FLAGS_RET_LOST : Fld := ⟨rPWR_PWR_FLAGS, 3, 1⟩
abbrev fPWR_PWR_FLAGS_WAKE_ABORT : Fld := ⟨rPWR_PWR_FLAGS, 2, 1⟩
abbrev fPWR_PWR_FLAGS_REFUSED : Fld := ⟨rPWR_PWR_FLAGS, 1, 1⟩
abbrev fPWR_PWR_FLAGS_VETO : Fld := ⟨rPWR_PWR_FLAGS, 0, 1⟩
abbrev fHK_HLV_LIMIT_CAP : Fld := ⟨rHK_HLV_LIMIT, 16, 8⟩
abbrev fHK_HLV_LIMIT_TEMP : Fld := ⟨rHK_HLV_LIMIT, 8, 8⟩
abbrev fHK_HLV_LIMIT_DERATE : Fld := ⟨rHK_HLV_LIMIT, 0, 8⟩
abbrev fHK_ROUND_CFG_SCHED : Fld := ⟨rHK_ROUND_CFG, 31, 1⟩
abbrev fHK_THR_CFG_T_DERATE : Fld := ⟨rHK_THR_CFG, 24, 8⟩
abbrev fHK_THR_CFG_T_FULL : Fld := ⟨rHK_THR_CFG, 16, 8⟩
abbrev fHK_THR_CFG_T_CUT : Fld := ⟨rHK_THR_CFG, 8, 8⟩
abbrev fHK_SENSOR_STATUS_DIE : Fld := ⟨rHK_SENSOR_STATUS, 16, 8⟩
abbrev fHK_SENSOR_STATUS_TILE : Fld := ⟨rHK_SENSOR_STATUS, 0, 8⟩
abbrev fREC_CFG_EN : Fld := ⟨rREC_CFG, 31, 1⟩
abbrev fREC_CFG_DIV : Fld := ⟨rREC_CFG, 16, 4⟩
abbrev fREC_CFG_POST : Fld := ⟨rREC_CFG, 0, 13⟩
abbrev fREC_STATUS_TRIG_SRC : Fld := ⟨rREC_STATUS, 8, 4⟩
abbrev fREC_STATUS_STATE : Fld := ⟨rREC_STATUS, 0, 2⟩

/-- Register rows of TOP. -/
def rstTop0 : List RegRow := [
  ⟨0x0, 0x0, 1, 0x0, 1, 1, 0x0, 0x0, 0x0, 0x12400001, false⟩ -- TOP_DEVICE_ID
  ]

/-- Register rows of BSTREAM. -/
def rstBstream0 : List RegRow := [
  ⟨0x10000, 0x0, 1, 0x0, 1, 1, 0x0, 0x0, 0x0, 0xC0, false⟩ -- BSTREAM_STATUS
  ]

/-- Register rows of TOP. -/
def rstTop1 : List RegRow := [
  ⟨0x108, 0x0, 1, 0x0, 1, 1, 0x0, 0x0, 0x0, 0xFFFFFFFF, false⟩ -- TOP_START_TIMES
  ]

/-- Register rows of BE. -/
def rstBe0 : List RegRow := [
  ⟨0x24001C, 0x1000, 16, 0x0, 1, 1, 0xFFFF, 0x0, 0x0, 0x2710, false⟩, -- BE_JOB_TIME_LIMIT
  ⟨0x240020, 0x1000, 16, 0x0, 1, 1, 0xFFFF, 0x0, 0x0, 0x1388, false⟩ -- BE_FWAIT_LIMIT
  ]

/-- Register rows of MSG. -/
def rstMsg0 : List RegRow := [
  ⟨0xC1000, 0x0, 1, 0x0, 1, 1, 0xFF, 0xFF, 0x0, 0x1B, false⟩, -- MSG_COMPOSE_ORDER
  ⟨0xC1608, 0x0, 1, 0x40, 8, 1, 0x0, 0x0, 0x0, 0xFF0004, false⟩ -- MSG_LAYER_STATUS
  ]

/-- Register rows of PRESS. -/
def rstPress0 : List RegRow := [
  ⟨0x140000, 0x10000, 4, 0x0, 1, 1, 0xFC00FF00, 0x0, 0x0, 0x24004000, false⟩, -- PRESS_CFG
  ⟨0x140008, 0x10000, 4, 0x0, 1, 1, 0xFFFF, 0xFFFF, 0x0, 0x190, false⟩, -- PRESS_TREF
  ⟨0x140050, 0x10000, 4, 0x0, 1, 1, 0x1F, 0x0, 0x0, 0x8, false⟩, -- PRESS_SWEEP
  ⟨0x140010, 0x10000, 4, 0x0, 1, 1, 0x0, 0x0, 0x0, 0x8000, false⟩, -- PRESS_TILE_FACTOR
  ⟨0x14080C, 0x0, 1, 0x0, 1, 1, 0x800F1FFF, 0x800F1FFF, 0x0, 0x7D0, false⟩ -- REC_CFG
  ]

/-- Register rows of TG. -/
def rstTg0 : List RegRow := [
  ⟨0x180024, 0x10000, 4, 0x0, 1, 1, 0x80000000, 0x0, 0x0, 0x80000000, false⟩ -- TG_SENSE_CFG
  ]

/-- Register rows of ZTL. -/
def rstZtl0 : List RegRow := [
  ⟨0x1C0008, 0x10000, 4, 0x0, 1, 1, 0x0, 0x0, 0x0, 0x24, false⟩, -- ZTL_LANE_MAP
  ⟨0x1C000C, 0x10000, 4, 0x0, 1, 1, 0x13F1F, 0x13F1F, 0x0, 0x2400, false⟩, -- ZTL_LANE_CFG
  ⟨0x1C0010, 0x10000, 4, 0x0, 1, 1, 0x77707, 0x77707, 0x0, 0x4, false⟩, -- ZTL_TX_CFG
  ⟨0x1C0014, 0x10000, 4, 0x0, 1, 1, 0x7777, 0x7777, 0x0, 0x3333, false⟩, -- ZTL_EQ_CFG
  ⟨0x1C0024, 0x10000, 4, 0x0, 1, 1, 0x83FF007F, 0x0, 0x0, 0x800A0018, false⟩, -- ZTL_RECAL_CFG
  ⟨0x1C0028, 0x10000, 4, 0x0, 1, 1, 0x3F, 0x0, 0x0, 0xC, false⟩ -- ZTL_MARGIN_CFG
  ]

/-- Register rows of HEALTH. -/
def rstHealth0 : List RegRow := [
  ⟨0x200008, 0x0, 1, 0x0, 1, 1, 0x1F03, 0x0, 0x0, 0x200, false⟩, -- HEALTH_SWEEP_CFG
  ⟨0x20000C, 0x0, 1, 0x0, 1, 1, 0xC3FF0FFF, 0x0, 0x0, 0xC0400100, false⟩, -- HEALTH_DARN_CFG
  ⟨0x200010, 0x0, 1, 0x0, 1, 1, 0x8FFF0FFF, 0x0, 0x0, 0xC000100, false⟩, -- HEALTH_AGING_CFG
  ⟨0x200014, 0x0, 1, 0x0, 1, 1, 0xFFFFFFFF, 0x0, 0x0, 0x50640514, false⟩, -- HEALTH_EOL_CFG_0
  ⟨0x200018, 0x0, 1, 0x0, 1, 1, 0x3FF03FF, 0x0, 0x0, 0x83020C, false⟩, -- HEALTH_EOL_CFG_1
  ⟨0x20001C, 0x0, 1, 0x0, 1, 1, 0x7FF03FF, 0x0, 0x0, 0x3C003C, false⟩ -- HEALTH_CKPT_CFG
  ]

/-- Register rows of TIME. -/
def rstTime0 : List RegRow := [
  ⟨0x4003C, 0x0, 1, 0x0, 1, 1, 0xFFFF, 0xFFFF, 0x0, 0x3E8, false⟩, -- TIME_HOLD_CFG
  ⟨0x40100, 0x0, 1, 0x40, 2, 1, 0xC000FFFF, 0x4000FFFF, 0x0, 0x1006, false⟩, -- TIME_DOM_CFG
  ⟨0x40110, 0x0, 1, 0x40, 2, 1, 0xF, 0x0, 0x0, 0x1, false⟩, -- TIME_INCR_INT
  ⟨0x40114, 0x0, 1, 0x40, 2, 1, 0xFFFFFFFF, 0x0, 0x0, 0x40000000, false⟩, -- TIME_INCR_FRAC
  ⟨0x4012C, 0x0, 1, 0x40, 2, 1, 0x0, 0x0, 0x0, 0xFFFF, false⟩, -- TIME_DOM_STATUS
  ⟨0x40400, 0x0, 1, 0x10, 2, 1, 0x3, 0x0, 0x0, 0x1, false⟩ -- TIME_TRG_CFG
  ]

/-- Register rows of MSG. -/
def rstMsg1 : List RegRow := [
  ⟨0xC0000, 0x0, 1, 0x4, 3, 1, 0x0, 0x0, 0x0, 0xFFFF, false⟩, -- MSG_LAST_ACCEPTED_SEQ
  ⟨0xC020C, 0x0, 1, 0x0, 1, 1, 0x101, 0x0, 0x0, 0x100, false⟩, -- MSG_EVT_CFG
  ⟨0xC030C, 0x0, 1, 0x0, 1, 1, 0x80001FFF, 0x80001FFF, 0x0, 0x7D0, false⟩ -- MSG_SP_CFG
  ]

/-- Register rows of SAFETY. -/
def rstSafety0 : List RegRow := [
  ⟨0x280000, 0x0, 1, 0x0, 1, 1, 0x0, 0x0, 0x0, 0x40, false⟩, -- SAFETY_STATUS
  ⟨0x280300, 0x0, 1, 0x0, 1, 1, 0xFFFF0003, 0xFFFF0003, 0x0, 0x3E80000, false⟩, -- SAFETY_POLICY
  ⟨0x280100, 0x0, 1, 0x10, 3, 1, 0x111F03FF, 0x111F03FF, 0x0, 0x28, false⟩, -- SAFETY_SIN_CFG 0 to 2
  ⟨0x280130, 0x0, 1, 0x0, 1, 1, 0xD11F03FF, 0xD11F03FF, 0x0, 0x28, false⟩ -- SAFETY_SIN_CFG 3
  ]

/-- Register rows of MEM. -/
def rstMem0 : List RegRow := [
  ⟨0x300130, 0x0, 1, 0x0, 1, 1, 0x8000001F, 0x8000001F, 0x0, 0x80000008, false⟩ -- MEM_SCRUB_CFG
  ]

/-- Register rows of CRC. -/
def rstCrc0 : List RegRow := [
  ⟨0x2C0000, 0x100, 4, 0x0, 1, 1, 0xC0030711, 0x0, 0x0, 0x20700, false⟩, -- CRC_CTRL
  ⟨0x2C000C, 0x100, 4, 0x0, 1, 1, 0xFFFFFFFF, 0x0, 0x0, 0x1EDC6F41, false⟩, -- CRC_POLY
  ⟨0x2C0010, 0x100, 4, 0x0, 1, 1, 0xFFFFFFFF, 0x0, 0x0, 0xFFFFFFFF, false⟩ -- CRC_INIT
  ]

/-- Register rows of PWR. -/
def rstPwr0 : List RegRow := [
  ⟨0x20004, 0x0, 1, 0x0, 1, 1, 0x0, 0x0, 0x0, 0xFF0, false⟩, -- PWR_PWR_STATUS
  ⟨0x20008, 0x0, 1, 0x0, 1, 1, 0xC0000000, 0x0, 0x0, 0xC0000000, false⟩, -- PWR_PWR_CFG
  ⟨0x2000C, 0x0, 1, 0x0, 1, 1, 0xFFFFF, 0xFFFFF, 0x0, 0x3E8, false⟩ -- PWR_PWR_GUARD
  ]

/-- Register rows of HK. -/
def rstHk0 : List RegRow := [
  ⟨0x30008, 0x0, 1, 0x0, 1, 1, 0xFFFFFF, 0xFFFFFF, 0x0, 0x1E1E1E, false⟩, -- HK_HLV_LIMIT
  ⟨0x30014, 0x0, 1, 0x0, 1, 1, 0xFFFFFF00, 0xFFFFFF00, 0x0, 0x6E879100, false⟩, -- HK_THR_CFG
  ⟨0x30020, 0x0, 1, 0x4, 4, 1, 0xFFFF, 0x0, 0x0, 0x8000, false⟩, -- HK_TILE_CAP
  ⟨0x31000, 0x0, 1, 0x4, 1024, 1, 0xFFFF, 0x0, 0x0, 0x8000, false⟩ -- HK_DERATE
  ]

/-- Register rows of TOP. -/
def rowsTop0 : List RegRow := [
  ⟨0x4, 0x0, 1, 0x0, 1, 1, 0x0, 0x0, 0x0, 0x0, false⟩, -- TOP_MC_LOAD
  ⟨0x8, 0x0, 1, 0x0, 1, 1, 0x0, 0x0, 0x7, 0x0, false⟩, -- TOP_BUS_ERR_STATUS
  ⟨0xC, 0x0, 1, 0x0, 1, 1, 0x0, 0x0, 0x0, 0x0, false⟩, -- TOP_BUS_ERR_ADDR
  ⟨0x10, 0x0, 1, 0x0, 1, 1, 0xFFFF, 0x0, 0x0, 0x0, false⟩, -- TOP_LOCK_VIOL_COUNT
  ⟨0x14, 0x0, 1, 0x0, 1, 1, 0xFFFF, 0x0, 0x0, 0x0, false⟩, -- TOP_UNMAPPED_COUNT
  ⟨0x18, 0x0, 1, 0x0, 1, 1, 0xFFFF, 0x0, 0x0, 0x0, false⟩ -- TOP_SYS_MAP_COUNT
  ]

/-- Register rows of BSTREAM. -/
def rowsBstream0 : List RegRow := [
  ⟨0x10004, 0x0, 1, 0x0, 1, 1, 0x0, 0x0, 0x0, 0x0, false⟩, -- BSTREAM_ERROR
  ⟨0x10008, 0x0, 1, 0x0, 1, 1, 0x0, 0x0, 0x0, 0x0, false⟩, -- BSTREAM_SEC_VERSION
  ⟨0x1000C, 0x0, 1, 0x0, 1, 1, 0x0, 0x0, 0x0, 0x0, false⟩, -- BSTREAM_OTP_STATUS
  ⟨0x10010, 0x0, 1, 0x0, 1, 1, 0x0, 0x0, 0x0, 0x0, false⟩, -- BSTREAM_BUILD_ID_LO
  ⟨0x10014, 0x0, 1, 0x0, 1, 1, 0x0, 0x0, 0x0, 0x0, false⟩, -- BSTREAM_BUILD_ID_HI
  ⟨0x10018, 0x0, 1, 0x0, 1, 1, 0x0, 0x0, 0x0, 0x0, false⟩, -- BSTREAM_LAMP_ID
  ⟨0x10020, 0x0, 1, 0x0, 1, 8, 0x0, 0x0, 0x0, 0x0, false⟩, -- BSTREAM_STRUCT_HASH
  ⟨0x10040, 0x0, 1, 0x0, 1, 1, 0xFFFFFFFF, 0x0, 0x0, 0x0, false⟩, -- BSTREAM_STAGE_ADDR
  ⟨0x10044, 0x0, 1, 0x0, 1, 1, 0x0, 0x0, 0x0, 0x0, true⟩, -- BSTREAM_STAGE_DATA
  ⟨0x10048, 0x0, 1, 0x0, 1, 1, 0x0, 0x0, 0x0, 0x0, true⟩, -- BSTREAM_UPDATE_CMD
  ⟨0x1004C, 0x0, 1, 0x0, 1, 1, 0x0, 0x0, 0x0, 0x0, false⟩, -- BSTREAM_UPDATE_STATUS
  ⟨0x10050, 0x0, 1, 0x0, 1, 1, 0x0, 0x0, 0x0, 0x0, false⟩, -- BSTREAM_UPDATE_FRAME
  ⟨0x10054, 0x0, 1, 0x0, 1, 1, 0x0, 0x0, 0x0, 0x0, true⟩, -- BSTREAM_OTP_CMD
  ⟨0x10060, 0x0, 1, 0x0, 1, 8, 0xFFFFFFFF, 0x0, 0x0, 0x0, false⟩, -- BSTREAM_OTP_DATA
  ⟨0x10080, 0x0, 1, 0x0, 1, 15, 0x0, 0x0, 0x0, 0x0, false⟩ -- BSTREAM_WRAP_OUT
  ]

/-- Register rows of TOP. -/
def rowsTop1 : List RegRow := [
  ⟨0x100, 0x0, 1, 0x0, 1, 1, 0x0, 0x0, 0x0, 0x0, false⟩, -- TOP_RESET_CAUSE
  ⟨0x104, 0x0, 1, 0x0, 1, 1, 0x0, 0x0, 0x0, 0x0, false⟩ -- TOP_START_STATUS
  ]

/-- Register rows of BE. -/
def rowsBe0 : List RegRow := [
  ⟨0x240000, 0x1000, 16, 0x0, 1, 1, 0x0, 0x0, 0x0, 0x0, true⟩, -- BE_CMD
  ⟨0x240004, 0x1000, 16, 0x0, 1, 1, 0x0, 0x0, 0x0, 0x0, false⟩, -- BE_STATUS
  ⟨0x240008, 0x1000, 16, 0x0, 1, 1, 0x0, 0x0, 0x3, 0x0, false⟩, -- BE_FLAGS
  ⟨0x24000C, 0x1000, 16, 0x0, 1, 1, 0xFFFF, 0x0, 0x0, 0x0, false⟩, -- BE_FAULT_COUNT
  ⟨0x240010, 0x1000, 16, 0x0, 1, 1, 0xFFFF, 0x0, 0x0, 0x0, false⟩, -- BE_TRIG_OVERRUN_COUNT
  ⟨0x240014, 0x1000, 16, 0x0, 1, 1, 0xF1FFF000, 0x0, 0x0, 0x0, false⟩, -- BE_JOB_TRIG
  ⟨0x240018, 0x1000, 16, 0x0, 1, 1, 0x1FFF, 0x0, 0x0, 0x0, false⟩, -- BE_ENTRY_PC
  ⟨0x240024, 0x1000, 16, 0x0, 1, 1, 0x0, 0x0, 0x0, 0x0, false⟩, -- BE_JOB_COUNT
  ⟨0x240028, 0x1000, 16, 0x0, 1, 1, 0x0, 0x0, 0x0, 0x0, false⟩, -- BE_LAST_JOB_TIME
  ⟨0x24002C, 0x1000, 16, 0x0, 1, 1, 0xFFFF, 0x0, 0x0, 0x0, false⟩, -- BE_ECC_CE_COUNT
  ⟨0x240030, 0x1000, 16, 0x0, 1, 1, 0x0, 0x0, 0x0, 0x0, false⟩, -- BE_MBOX_STATUS
  ⟨0x240034, 0x1000, 16, 0x0, 1, 1, 0x0, 0x0, 0x0, 0x0, false⟩ -- BE_DMA_STATUS
  ]

/-- Register rows of MSG. -/
def rowsMsg0 : List RegRow := [
  ⟨0xC1004, 0x0, 1, 0x0, 1, 1, 0xFF, 0xFF, 0x0, 0x0, false⟩, -- MSG_FLIP_MASTER
  ⟨0xC1100, 0x0, 1, 0x10, 4, 1, 0xFFFFFFFF, 0x0, 0x0, 0x0, false⟩, -- MSG_FLIP_ORDER
  ⟨0xC1104, 0x0, 1, 0x10, 4, 1, 0x10F, 0x0, 0x0, 0x0, false⟩, -- MSG_FLIP_FENCE
  ⟨0xC1108, 0x0, 1, 0x10, 4, 1, 0xFFFFFFFF, 0x0, 0x0, 0x0, false⟩, -- MSG_FLIP_TARGET
  ⟨0xC110C, 0x0, 1, 0x10, 4, 1, 0x0, 0x0, 0x0, 0x0, true⟩, -- MSG_FLIP_COMMIT
  ⟨0xC1200, 0x0, 1, 0x20, 4, 1, 0x0, 0x0, 0x0, 0x0, false⟩, -- MSG_FLIP_STATUS
  ⟨0xC1204, 0x0, 1, 0x20, 4, 1, 0x0, 0x0, 0x7, 0x0, false⟩, -- MSG_FLIP_FLAGS
  ⟨0xC1208, 0x0, 1, 0x20, 4, 1, 0x0, 0x0, 0x0, 0x0, false⟩, -- MSG_FLIP_LATCHED_FRAME
  ⟨0xC120C, 0x0, 1, 0x20, 4, 1, 0xFFFF, 0x0, 0x0, 0x0, false⟩, -- MSG_DEFERRED_COUNT
  ⟨0xC1210, 0x0, 1, 0x20, 4, 1, 0xFFFF, 0x0, 0x0, 0x0, false⟩, -- MSG_SUPERSEDED_COUNT
  ⟨0xC1214, 0x0, 1, 0x20, 4, 1, 0xFFFF, 0x0, 0x0, 0x0, false⟩, -- MSG_REFUSED_COUNT
  ⟨0xC1400, 0x0, 1, 0x20, 8, 8, 0xFFFFFFFF, 0x0, 0x0, 0x0, false⟩, -- MSG_FLIP_STAGE
  ⟨0xC1600, 0x0, 1, 0x40, 8, 1, 0xFF000000, 0xFF000000, 0x0, 0x0, false⟩, -- MSG_LAYER_CFG
  ⟨0xC1604, 0x0, 1, 0x40, 8, 1, 0x0, 0x0, 0x0, 0x0, false⟩, -- MSG_LAYER_STALE
  ⟨0xC160C, 0x0, 1, 0x40, 8, 1, 0xFFFF, 0x0, 0x0, 0x0, false⟩, -- MSG_LAYER_DEFER_COUNT
  ⟨0xC1610, 0x0, 1, 0x40, 8, 1, 0x0, 0x0, 0x0, 0x0, true⟩, -- MSG_LAYER_RAW_ADDR_LO
  ⟨0xC1614, 0x0, 1, 0x40, 8, 1, 0x0, 0x0, 0x0, 0x0, true⟩, -- MSG_LAYER_RAW_ADDR_HI
  ⟨0xC1800, 0x0, 1, 0x40, 8, 8, 0x0, 0x0, 0x0, 0x0, false⟩, -- MSG_LAYER_ACTIVE
  ⟨0xC1820, 0x0, 1, 0x40, 8, 8, 0x0, 0x0, 0x0, 0x0, false⟩ -- MSG_LAYER_FB
  ]

/-- Register rows of CP. -/
def rowsCp0 : List RegRow := [
  ⟨0x100000, 0x10000, 4, 0x0, 1, 1, 0x0, 0x0, 0x1E, 0x0, false⟩, -- CP_STATUS
  ⟨0x100004, 0x10000, 4, 0x0, 1, 1, 0xFFFF, 0x0, 0x0, 0x0, false⟩, -- CP_DEFER_COUNT
  ⟨0x100008, 0x10000, 4, 0x0, 1, 1, 0xFFFF, 0x0, 0x0, 0x0, false⟩, -- CP_URGENT_COUNT
  ⟨0x10000C, 0x10000, 4, 0x0, 1, 1, 0xFFFF, 0x0, 0x0, 0x0, false⟩, -- CP_ROW_CARRY_COUNT
  ⟨0x100010, 0x10000, 4, 0x0, 1, 1, 0xFFFF, 0x0, 0x0, 0x0, false⟩, -- CP_DECODE_ERR_COUNT
  ⟨0x100014, 0x10000, 4, 0x0, 1, 1, 0xFFFF, 0x0, 0x0, 0x0, false⟩, -- CP_TAPS_REDUCED_COUNT
  ⟨0x100018, 0x10000, 4, 0x0, 1, 1, 0xFFFF, 0x0, 0x0, 0x0, false⟩, -- CP_LINEBUF_SHORT_COUNT
  ⟨0x10001C, 0x10000, 4, 0x0, 1, 1, 0xFFFF, 0x0, 0x0, 0x0, false⟩, -- CP_RAW_TEAR_COUNT
  ⟨0x100020, 0x10000, 4, 0x0, 1, 1, 0x0, 0x0, 0x0, 0x0, false⟩, -- CP_WINDOW
  ⟨0x100024, 0x10000, 4, 0x0, 1, 1, 0x0, 0x0, 0x0, 0x0, false⟩, -- CP_PREFETCH
  ⟨0x100028, 0x10000, 4, 0x0, 1, 1, 0x0, 0x0, 0x0, 0x0, false⟩, -- CP_VTAPS
  ⟨0x10002C, 0x10000, 4, 0x0, 1, 1, 0x0, 0x0, 0x0, 0x0, false⟩, -- CP_LAYER_SHOWN
  ⟨0x100030, 0x10000, 4, 0x0, 1, 1, 0x0, 0x0, 0x0, 0x0, false⟩ -- CP_DECODE_ERR_INFO
  ]

/-- Register rows of HOSTIF. -/
def rowsHostif0 : List RegRow := [
  ⟨0x84000, 0x0, 1, 0x40, 8, 1, 0xFBFF3F31, 0xFBFF3F31, 0x0, 0x0, false⟩, -- HOSTIF_CAPW_CFG
  ⟨0x84004, 0x0, 1, 0x40, 8, 1, 0xFFFFFFFF, 0xFFFFFFFF, 0x0, 0x0, false⟩, -- HOSTIF_CAPW_GEOM
  ⟨0x84008, 0x0, 1, 0x40, 8, 4, 0xFFFFFFFF, 0xFFFFFFFF, 0x0, 0x0, false⟩, -- HOSTIF_CAPW_BUF
  ⟨0x84018, 0x0, 1, 0x40, 8, 1, 0xFFFFFFFF, 0xFFFFFFFF, 0x0, 0x0, false⟩, -- HOSTIF_CAPW_BUF_HI
  ⟨0x8401C, 0x0, 1, 0x40, 8, 1, 0xFFFFFFFF, 0xFFFFFFFF, 0x0, 0x0, false⟩, -- HOSTIF_CAPW_SIZE
  ⟨0x84020, 0x0, 1, 0x40, 8, 1, 0x0, 0x0, 0x0, 0x0, false⟩, -- HOSTIF_CAPW_STATUS
  ⟨0x84024, 0x0, 1, 0x40, 8, 1, 0x0, 0x0, 0x0, 0x0, false⟩, -- HOSTIF_CAPW_FRAME_COUNT
  ⟨0x84028, 0x0, 1, 0x40, 8, 1, 0xFFFF, 0x0, 0x0, 0x0, false⟩, -- HOSTIF_CAPW_DROP_COUNT
  ⟨0x8402C, 0x0, 1, 0x40, 8, 1, 0xFFFF, 0x0, 0x0, 0x0, false⟩ -- HOSTIF_CAPW_BAD_COUNT
  ]

/-- Register rows of PRESS. -/
def rowsPress0 : List RegRow := [
  ⟨0x140004, 0x10000, 4, 0x0, 1, 1, 0x0, 0x0, 0xF, 0x0, false⟩, -- PRESS_STATUS
  ⟨0x14000C, 0x10000, 4, 0x0, 1, 1, 0xFFFFFFFF, 0xFFFFFFFF, 0x0, 0x0, false⟩, -- PRESS_TILE_MAX
  ⟨0x140014, 0x10000, 4, 0x0, 1, 1, 0x0, 0x0, 0x0, 0x0, false⟩, -- PRESS_TILE_LOAD
  ⟨0x140018, 0x10000, 4, 0x0, 1, 1, 0x0, 0x0, 0x0, 0x0, false⟩, -- PRESS_SAT_PIXELS
  ⟨0x14001C, 0x10000, 4, 0x0, 1, 1, 0x0, 0x0, 0x0, 0x0, false⟩, -- PRESS_AGE_LIMITED
  ⟨0x140020, 0x10000, 4, 0x0, 1, 1, 0xFFFF, 0x0, 0x0, 0x0, false⟩, -- PRESS_SAT_COUNT
  ⟨0x140024, 0x10000, 4, 0x0, 1, 1, 0xFFFF, 0x0, 0x0, 0x0, false⟩, -- PRESS_CORR_UE_COUNT
  ⟨0x140028, 0x10000, 4, 0x0, 1, 1, 0xFFFF, 0x0, 0x0, 0x0, false⟩, -- PRESS_SEL_MISMATCH_COUNT
  ⟨0x14002C, 0x10000, 4, 0x0, 1, 1, 0xFFFF, 0x0, 0x0, 0x0, false⟩, -- PRESS_ROI_MISMATCH_COUNT
  ⟨0x140040, 0x10000, 4, 0x0, 1, 1, 0xFFFFFFFF, 0xFFFFFFFF, 0x0, 0x0, false⟩, -- PRESS_REC_BASE_P_LO
  ⟨0x140044, 0x10000, 4, 0x0, 1, 1, 0xFF, 0xFF, 0x0, 0x0, false⟩, -- PRESS_REC_BASE_P_HI
  ⟨0x140048, 0x10000, 4, 0x0, 1, 1, 0xFFFFFFFF, 0xFFFFFFFF, 0x0, 0x0, false⟩, -- PRESS_REC_BASE_S_LO
  ⟨0x14004C, 0x10000, 4, 0x0, 1, 1, 0xFF, 0xFF, 0x0, 0x0, false⟩, -- PRESS_REC_BASE_S_HI
  ⟨0x140054, 0x10000, 4, 0x0, 1, 1, 0x0, 0x0, 0x0, 0x0, false⟩, -- PRESS_SWEEP_STATUS
  ⟨0x140060, 0x10000, 4, 0x0, 1, 1, 0xFFFFFFFF, 0x0, 0x0, 0x0, false⟩, -- PRESS_UPD_LIST_LO
  ⟨0x140064, 0x10000, 4, 0x0, 1, 1, 0xFF, 0x0, 0x0, 0x0, false⟩, -- PRESS_UPD_LIST_HI
  ⟨0x140068, 0x10000, 4, 0x0, 1, 1, 0x7FFFF, 0x0, 0x0, 0x0, false⟩, -- PRESS_UPD_LEN
  ⟨0x14006C, 0x10000, 4, 0x0, 1, 1, 0x0, 0x0, 0x0, 0x0, true⟩, -- PRESS_UPD_CMD
  ⟨0x140070, 0x10000, 4, 0x0, 1, 1, 0x0, 0x0, 0x0, 0x0, false⟩, -- PRESS_UPD_STATUS
  ⟨0x140074, 0x10000, 4, 0x0, 1, 1, 0x0, 0x0, 0x0, 0x0, false⟩, -- PRESS_UPD_FRAME
  ⟨0x140400, 0x10000, 4, 0x10, 16, 1, 0xE1FF01FF, 0x0, 0x0, 0x0, false⟩, -- PRESS_ROI_POS
  ⟨0x140404, 0x10000, 4, 0x10, 16, 1, 0x1FF01FF, 0x0, 0x0, 0x0, false⟩, -- PRESS_ROI_END
  ⟨0x140408, 0x10000, 4, 0x10, 16, 1, 0x0, 0x0, 0x0, 0x0, false⟩, -- PRESS_ROI_CRC
  ⟨0x14040C, 0x10000, 4, 0x10, 16, 1, 0xFFFFFFFF, 0x0, 0x0, 0x0, false⟩, -- PRESS_ROI_EXP
  ⟨0x140500, 0x10000, 4, 0x0, 1, 1, 0x0, 0x0, 0x0, 0x0, false⟩, -- PRESS_ROI_STATUS
  ⟨0x140504, 0x10000, 4, 0x0, 1, 1, 0x0, 0x0, 0x0, 0x0, false⟩, -- PRESS_ROI_FRAME
  ⟨0x140600, 0x10000, 4, 0x0, 1, 1, 0xFFFFFFFF, 0xFFFFFFFF, 0x0, 0x0, false⟩, -- PRESS_SNAP_BASE_LO
  ⟨0x140604, 0x10000, 4, 0x0, 1, 1, 0xFF, 0xFF, 0x0, 0x0, false⟩, -- PRESS_SNAP_BASE_HI
  ⟨0x140608, 0x10000, 4, 0x0, 1, 1, 0x1F03FF, 0x1F03FF, 0x0, 0x0, false⟩, -- PRESS_SNAP_CFG
  ⟨0x14060C, 0x10000, 4, 0x0, 1, 1, 0x0, 0x0, 0x0, 0x0, false⟩, -- PRESS_SNAP_COUNT
  ⟨0x140610, 0x10000, 4, 0x0, 1, 1, 0xFFFF, 0x0, 0x0, 0x0, false⟩, -- PRESS_SNAP_INCOMPLETE_COUNT
  ⟨0x140800, 0x0, 1, 0x0, 1, 1, 0xFFFFFFFF, 0xFFFFFFFF, 0x0, 0x0, false⟩, -- REC_RING_LO
  ⟨0x140804, 0x0, 1, 0x0, 1, 1, 0xFF, 0xFF, 0x0, 0x0, false⟩, -- REC_RING_HI
  ⟨0x140808, 0x0, 1, 0x0, 1, 1, 0xFFF, 0xFFF, 0x0, 0x0, false⟩, -- REC_SIZE
  ⟨0x140810, 0x0, 1, 0x0, 1, 1, 0x0, 0x0, 0x0, 0x0, true⟩, -- REC_CTRL
  ⟨0x140814, 0x0, 1, 0x0, 1, 1, 0x0, 0x0, 0x0, 0x0, false⟩, -- REC_STATUS
  ⟨0x140818, 0x0, 1, 0x0, 1, 1, 0x0, 0x0, 0x0, 0x0, false⟩, -- REC_WR_PTR
  ⟨0x14081C, 0x0, 1, 0x0, 1, 1, 0x0, 0x0, 0x0, 0x0, false⟩ -- REC_OLDEST_PTR
  ]

/-- Register rows of PRESS. -/
def rowsPress1 : List RegRow := [
  ⟨0x140820, 0x0, 1, 0x0, 1, 1, 0x0, 0x0, 0x0, 0x0, false⟩, -- REC_TRIG_PTR
  ⟨0x140824, 0x0, 1, 0x0, 1, 1, 0x0, 0x0, 0x0, 0x0, false⟩, -- REC_TRIG_SEQ
  ⟨0x140828, 0x0, 1, 0x0, 1, 1, 0x0, 0x0, 0x0, 0x0, false⟩, -- REC_TRIG_TIME_LO
  ⟨0x14082C, 0x0, 1, 0x0, 1, 1, 0x0, 0x0, 0x0, 0x0, false⟩, -- REC_TRIG_TIME_HI
  ⟨0x140830, 0x0, 1, 0x0, 1, 1, 0x0, 0x0, 0x0, 0x0, false⟩, -- REC_SPAN
  ⟨0x140834, 0x0, 1, 0x0, 1, 1, 0xFFFF, 0x0, 0x0, 0x0, false⟩, -- REC_SKIP_COUNT
  ⟨0x140838, 0x0, 1, 0x0, 1, 1, 0xFFFF, 0x0, 0x0, 0x0, false⟩ -- REC_TRIG_IGNORED_COUNT
  ]

/-- Register rows of TG. -/
def rowsTg0 : List RegRow := [
  ⟨0x180000, 0x10000, 4, 0x0, 1, 1, 0x0, 0x0, 0x0, 0x0, true⟩, -- TG_CMD
  ⟨0x180004, 0x10000, 4, 0x0, 1, 1, 0x0, 0x0, 0xF00, 0x0, false⟩, -- TG_STATUS
  ⟨0x180008, 0x10000, 4, 0x0, 1, 1, 0x0, 0x0, 0x0, 0x0, false⟩, -- TG_FRAME_COUNT
  ⟨0x18000C, 0x10000, 4, 0x0, 1, 1, 0x0, 0x0, 0x0, 0x0, false⟩, -- TG_LAST_SWAP_TIME_LO
  ⟨0x180010, 0x10000, 4, 0x0, 1, 1, 0x0, 0x0, 0x0, 0x0, false⟩, -- TG_LAST_SWAP_TIME_HI
  ⟨0x180014, 0x10000, 4, 0x0, 1, 1, 0x0, 0x0, 0x0, 0x0, false⟩, -- TG_LAST_FLIP_TIME_LO
  ⟨0x180018, 0x10000, 4, 0x0, 1, 1, 0x0, 0x0, 0x0, 0x0, false⟩, -- TG_LAST_FLIP_TIME_HI
  ⟨0x18001C, 0x10000, 4, 0x0, 1, 1, 0x0, 0x0, 0x0, 0x0, false⟩, -- TG_LAST_FLIP_FRAME
  ⟨0x180020, 0x10000, 4, 0x0, 1, 1, 0x0, 0x0, 0x0, 0x0, false⟩, -- TG_LINK_LAT
  ⟨0x180028, 0x10000, 4, 0x0, 1, 1, 0xFFFF, 0x0, 0x0, 0x0, false⟩, -- TG_TORN_COUNT
  ⟨0x18002C, 0x10000, 4, 0x0, 1, 1, 0xFFFF, 0x0, 0x0, 0x0, false⟩, -- TG_SLOT_SKIP_COUNT
  ⟨0x180030, 0x10000, 4, 0x0, 1, 1, 0xFFFF, 0x0, 0x0, 0x0, false⟩, -- TG_SENSE_SKIP_COUNT
  ⟨0x180034, 0x10000, 4, 0x0, 1, 1, 0xFFFF, 0x0, 0x0, 0x0, false⟩, -- TG_START_REFUSED_COUNT
  ⟨0x180100, 0x10000, 4, 0x0, 1, 1, 0xFFFFFF, 0x0, 0x0, 0x0, false⟩, -- TG_PERIOD_INT
  ⟨0x180104, 0x10000, 4, 0x0, 1, 1, 0xFFFFFFFF, 0x0, 0x0, 0x0, false⟩, -- TG_PERIOD_FRAC
  ⟨0x180108, 0x10000, 4, 0x0, 1, 1, 0xFFFFFFFF, 0x0, 0x0, 0x0, false⟩, -- TG_ANCHOR_LO
  ⟨0x18010C, 0x10000, 4, 0x0, 1, 1, 0xFFFFFFFF, 0x0, 0x0, 0x0, false⟩, -- TG_ANCHOR_HI
  ⟨0x180110, 0x10000, 4, 0x0, 1, 1, 0xFFFFFF, 0x0, 0x0, 0x0, false⟩, -- TG_DRIVE
  ⟨0x180114, 0x10000, 4, 0x0, 1, 1, 0x7FFFF, 0x0, 0x0, 0x0, false⟩, -- TG_GUARD
  ⟨0x180118, 0x10000, 4, 0x0, 1, 1, 0xFFFFFF, 0xFFFFFF, 0x0, 0x0, false⟩, -- TG_LEAD
  ⟨0x180120, 0x10000, 4, 0x10, 4, 1, 0x80FFFFFF, 0x0, 0x0, 0x0, false⟩, -- TG_SLOT_POS
  ⟨0x180124, 0x10000, 4, 0x10, 4, 1, 0x7FFFF, 0x0, 0x0, 0x0, false⟩, -- TG_SLOT_LEN
  ⟨0x180128, 0x10000, 4, 0x10, 4, 1, 0xFFF9FFFF, 0xFFF9FFFF, 0x0, 0x0, false⟩, -- TG_SLOT_CFG
  ⟨0x18012C, 0x10000, 4, 0x10, 4, 1, 0xFFFFFFFF, 0xFFFFFFFF, 0x0, 0x0, false⟩, -- TG_SLOT_BASE_LO
  ⟨0x180160, 0x10000, 4, 0x8, 4, 1, 0xFF, 0xFF, 0x0, 0x0, false⟩, -- TG_SLOT_BASE_HI
  ⟨0x180164, 0x10000, 4, 0x8, 4, 1, 0xFFFF, 0xFFFF, 0x0, 0x0, false⟩, -- TG_SLOT_BUFSIZE
  ⟨0x180200, 0x10000, 4, 0x0, 1, 1, 0xFFFFFF, 0x0, 0x0, 0x0, false⟩, -- TG_STAGE_PERIOD_INT
  ⟨0x180204, 0x10000, 4, 0x0, 1, 1, 0xFFFFFFFF, 0x0, 0x0, 0x0, false⟩, -- TG_STAGE_PERIOD_FRAC
  ⟨0x180208, 0x10000, 4, 0x0, 1, 1, 0xFFFFFFFF, 0x0, 0x0, 0x0, false⟩, -- TG_STAGE_ANCHOR_LO
  ⟨0x18020C, 0x10000, 4, 0x0, 1, 1, 0xFFFFFFFF, 0x0, 0x0, 0x0, false⟩, -- TG_STAGE_ANCHOR_HI
  ⟨0x180210, 0x10000, 4, 0x0, 1, 1, 0xFFFFFF, 0x0, 0x0, 0x0, false⟩, -- TG_STAGE_DRIVE
  ⟨0x180214, 0x10000, 4, 0x0, 1, 1, 0x7FFFF, 0x0, 0x0, 0x0, false⟩, -- TG_STAGE_GUARD
  ⟨0x180220, 0x10000, 4, 0x8, 4, 1, 0x80FFFFFF, 0x0, 0x0, 0x0, false⟩, -- TG_STAGE_SLOT_POS
  ⟨0x180224, 0x10000, 4, 0x8, 4, 1, 0x7FFFF, 0x0, 0x0, 0x0, false⟩, -- TG_STAGE_SLOT_LEN
  ⟨0x180240, 0x10000, 4, 0x0, 1, 1, 0x0, 0x0, 0x0, 0x0, true⟩, -- TG_TIMING_COMMIT
  ⟨0x180244, 0x10000, 4, 0x0, 1, 1, 0x0, 0x0, 0x0, 0x0, false⟩, -- TG_TIMING_STATUS
  ⟨0x180248, 0x10000, 4, 0x0, 1, 1, 0x0, 0x0, 0x0, 0x0, false⟩ -- TG_TIMING_FRAME
  ]

/-- Register rows of ZTL. -/
def rowsZtl0 : List RegRow := [
  ⟨0x1C0000, 0x10000, 4, 0x0, 1, 1, 0x0, 0x0, 0x0, 0x0, true⟩, -- ZTL_CMD
  ⟨0x1C0004, 0x10000, 4, 0x0, 1, 1, 0x0, 0x0, 0x7F0000, 0x0, false⟩, -- ZTL_STATUS
  ⟨0x1C0018, 0x10000, 4, 0x0, 1, 1, 0x0, 0x0, 0x0, 0x0, false⟩, -- ZTL_EQ_STATUS
  ⟨0x1C001C, 0x10000, 4, 0x0, 1, 1, 0x0, 0x0, 0x0, 0x0, false⟩, -- ZTL_PHASE
  ⟨0x1C0020, 0x10000, 4, 0x0, 1, 1, 0x0, 0x0, 0x0, 0x0, false⟩, -- ZTL_EYE_WIDTH
  ⟨0x1C002C, 0x10000, 4, 0x0, 1, 1, 0x0, 0x0, 0x0, 0x0, false⟩, -- ZTL_SPARE_MARGIN
  ⟨0x1C0030, 0x10000, 4, 0x0, 1, 1, 0xF0070100, 0x0, 0x0, 0x0, false⟩, -- ZTL_PRBS_CFG
  ⟨0x1C0034, 0x10000, 4, 0x0, 1, 1, 0x0, 0x0, 0x0, 0x0, false⟩, -- ZTL_PRBS_ERR
  ⟨0x1C0038, 0x10000, 4, 0x0, 1, 1, 0x0, 0x0, 0x0, 0x0, false⟩, -- ZTL_BK_HDR_ERR
  ⟨0x1C003C, 0x10000, 4, 0x0, 1, 1, 0x0, 0x0, 0x0, 0x0, false⟩, -- ZTL_ATTEMPT
  ⟨0x1C0040, 0x10000, 4, 0x0, 1, 1, 0xFFFF, 0x0, 0x0, 0x0, false⟩, -- ZTL_LANE_FAIL_COUNT
  ⟨0x1C0044, 0x10000, 4, 0x0, 1, 1, 0xFFFF, 0x0, 0x0, 0x0, false⟩, -- ZTL_RETRAIN_COUNT
  ⟨0x1C0048, 0x10000, 4, 0x0, 1, 1, 0xFFFF, 0x0, 0x0, 0x0, false⟩, -- ZTL_CAL_REJECT_COUNT
  ⟨0x1C004C, 0x10000, 4, 0x0, 1, 1, 0xFFFF, 0x0, 0x0, 0x0, false⟩, -- ZTL_BACK_FAIL_COUNT
  ⟨0x1C0050, 0x10000, 4, 0x0, 1, 1, 0xFFFF, 0x0, 0x0, 0x0, false⟩, -- ZTL_PORT_DOWN_COUNT
  ⟨0x1C0054, 0x10000, 4, 0x0, 1, 1, 0xFFFF, 0x0, 0x0, 0x0, false⟩, -- ZTL_ROW_DAMAGED_COUNT
  ⟨0x1C0058, 0x10000, 4, 0x0, 1, 1, 0xFFFF, 0x0, 0x0, 0x0, false⟩, -- ZTL_SPARE_FAIL_COUNT
  ⟨0x1C005C, 0x10000, 4, 0x0, 1, 1, 0x0, 0x0, 0x0, 0x0, false⟩, -- ZTL_LOCK_LOSS
  ⟨0x1C0060, 0x10000, 4, 0x0, 1, 1, 0x0, 0x0, 0x0, 0x0, false⟩, -- ZTL_LAST_DAMAGED_ROW
  ⟨0x1C0100, 0x10000, 4, 0x0, 1, 1, 0x0, 0x0, 0x0, 0x0, false⟩, -- ZTL_TILE_ID_LO
  ⟨0x1C0104, 0x10000, 4, 0x0, 1, 1, 0x0, 0x0, 0x0, 0x0, false⟩, -- ZTL_TILE_ID_HI
  ⟨0x1C0108, 0x10000, 4, 0x0, 1, 1, 0x0, 0x0, 0x0, 0x0, false⟩, -- ZTL_TILE_TYPE
  ⟨0x1C010C, 0x10000, 4, 0x0, 1, 1, 0x0, 0x0, 0x0, 0x0, false⟩, -- ZTL_SWAP_STATUS
  ⟨0x1C0110, 0x10000, 4, 0x0, 1, 1, 0x0, 0x0, 0x0, 0x0, false⟩, -- ZTL_SEL_STATUS
  ⟨0x1C0114, 0x10000, 4, 0x0, 1, 1, 0x0, 0x0, 0x0, 0x0, false⟩, -- ZTL_TILE_STATE
  ⟨0x1C0118, 0x10000, 4, 0x0, 1, 1, 0x0, 0x0, 0x0, 0x0, false⟩, -- ZTL_TILE_TEMP
  ⟨0x1C011C, 0x10000, 4, 0x0, 1, 1, 0xFFFF, 0x0, 0x0, 0x0, false⟩, -- ZTL_TREG_ADDR
  ⟨0x1C0120, 0x10000, 4, 0x0, 1, 1, 0xFFFFFFFF, 0x0, 0x0, 0x0, false⟩, -- ZTL_TREG_DATA
  ⟨0x1C0124, 0x10000, 4, 0x0, 1, 1, 0x0, 0x0, 0x0, 0x0, true⟩, -- ZTL_TREG_CMD
  ⟨0x1C0128, 0x10000, 4, 0x0, 1, 1, 0x0, 0x0, 0x0, 0x0, false⟩, -- ZTL_TREG_STATUS
  ⟨0x1C012C, 0x10000, 4, 0x0, 1, 1, 0x0, 0x0, 0x0, 0x0, false⟩, -- ZTL_NV_STATUS
  ⟨0x1C0130, 0x10000, 4, 0x0, 1, 1, 0x0, 0x0, 0x0, 0x0, false⟩, -- ZTL_NV_DEFER_MAX
  ⟨0x1C0134, 0x10000, 4, 0x0, 1, 1, 0x0, 0x0, 0x0, 0x0, false⟩, -- ZTL_AUTH_STATUS
  ⟨0x1C0138, 0x10000, 4, 0x0, 1, 1, 0x0, 0x0, 0x3F, 0x0, false⟩, -- ZTL_PROTO_FLAGS
  ⟨0x1C013C, 0x10000, 4, 0x0, 1, 1, 0xFFFF, 0x0, 0x0, 0x0, false⟩, -- ZTL_FRAME_HELD_COUNT
  ⟨0x1C0140, 0x10000, 4, 0x0, 1, 1, 0xFFFF, 0x0, 0x0, 0x0, false⟩, -- ZTL_SWAP_ACK_MISSING_COUNT
  ⟨0x1C0144, 0x10000, 4, 0x0, 1, 1, 0xFFFF, 0x0, 0x0, 0x0, false⟩, -- ZTL_FB_ACK_LATE_COUNT
  ⟨0x1C0148, 0x10000, 4, 0x0, 1, 1, 0xFFFF, 0x0, 0x0, 0x0, false⟩, -- ZTL_BLOCK_BAD_COUNT
  ⟨0x1C014C, 0x10000, 4, 0x0, 1, 1, 0xFFFF, 0x0, 0x0, 0x0, false⟩, -- ZTL_TILE_FAULT_COUNT
  ⟨0x1C0150, 0x10000, 4, 0x0, 1, 1, 0xFFFF, 0x0, 0x0, 0x0, false⟩ -- ZTL_NV_FAIL_COUNT
  ]

/-- Register rows of HEALTH. -/
def rowsHealth0 : List RegRow := [
  ⟨0x200000, 0x0, 1, 0x0, 1, 1, 0x0, 0x0, 0x0, 0x0, true⟩, -- HEALTH_CMD
  ⟨0x200004, 0x0, 1, 0x0, 1, 1, 0x0, 0x0, 0x3F, 0x0, false⟩, -- HEALTH_STATUS
  ⟨0x200020, 0x0, 1, 0x0, 1, 1, 0xFFFFFFFF, 0xFFFFFFFF, 0x0, 0x0, false⟩, -- HEALTH_WORK_BASE_LO
  ⟨0x200024, 0x0, 1, 0x0, 1, 1, 0xFF, 0xFF, 0x0, 0x0, false⟩, -- HEALTH_WORK_BASE_HI
  ⟨0x200028, 0x0, 1, 0x0, 1, 1, 0xFFFF, 0x0, 0x0, 0x0, false⟩, -- HEALTH_SENSE_STALE_COUNT
  ⟨0x20002C, 0x0, 1, 0x0, 1, 1, 0xFFFF, 0x0, 0x0, 0x0, false⟩, -- HEALTH_CAL_REJECT_COUNT
  ⟨0x200030, 0x0, 1, 0x0, 1, 1, 0xFFFF, 0x0, 0x0, 0x0, false⟩, -- HEALTH_MASS_FAIL_COUNT
  ⟨0x200034, 0x0, 1, 0x0, 1, 1, 0xFFFF, 0x0, 0x0, 0x0, false⟩, -- HEALTH_CKPT_FAIL_COUNT
  ⟨0x200100, 0x0, 1, 0x40, 4, 1, 0x0, 0x0, 0x0, 0x0, false⟩, -- HEALTH_SWEEP_STATUS
  ⟨0x200104, 0x0, 1, 0x40, 4, 1, 0x0, 0x0, 0x0, 0x0, false⟩, -- HEALTH_SUSPECT
  ⟨0x200108, 0x0, 1, 0x40, 4, 1, 0x0, 0x0, 0x0, 0x0, false⟩, -- HEALTH_FAILED_P
  ⟨0x20010C, 0x0, 1, 0x40, 4, 1, 0x0, 0x0, 0x0, 0x0, false⟩, -- HEALTH_FAILED_S
  ⟨0x200110, 0x0, 1, 0x40, 4, 1, 0x0, 0x0, 0x0, 0x0, false⟩, -- HEALTH_SUBST
  ⟨0x200114, 0x0, 1, 0x40, 4, 1, 0x0, 0x0, 0x0, 0x0, false⟩, -- HEALTH_DEAD
  ⟨0x200118, 0x0, 1, 0x40, 4, 1, 0x0, 0x0, 0x0, 0x0, false⟩, -- HEALTH_SHORTFALL
  ⟨0x20011C, 0x0, 1, 0x40, 4, 1, 0x0, 0x0, 0x0, 0x0, false⟩, -- HEALTH_LIFE_USED
  ⟨0x200120, 0x0, 1, 0x40, 4, 1, 0x0, 0x0, 0x0, 0x0, false⟩, -- HEALTH_EOL
  ⟨0x200124, 0x0, 1, 0x40, 4, 1, 0x0, 0x0, 0x0, 0x0, false⟩ -- HEALTH_LIT_S
  ]

/-- Register rows of TIME. -/
def rowsTime0 : List RegRow := [
  ⟨0x40000, 0x0, 1, 0x0, 1, 1, 0x101, 0x0, 0x0, 0x0, false⟩, -- TIME_CTRL
  ⟨0x40004, 0x0, 1, 0x0, 1, 1, 0x0, 0x0, 0x3F, 0x0, false⟩, -- TIME_STATUS
  ⟨0x40008, 0x0, 1, 0x0, 1, 1, 0x0, 0x0, 0x0, 0x0, true⟩, -- TIME_SNAP_CMD
  ⟨0x4000C, 0x0, 1, 0x0, 1, 1, 0x0, 0x0, 0x0, 0x0, false⟩, -- TIME_SNAP_FRC_LO
  ⟨0x40010, 0x0, 1, 0x0, 1, 1, 0x0, 0x0, 0x0, 0x0, false⟩, -- TIME_SNAP_FRC_HI
  ⟨0x40014, 0x0, 1, 0x0, 1, 1, 0x0, 0x0, 0x0, 0x0, false⟩, -- TIME_SNAP_LT_FRAC
  ⟨0x40018, 0x0, 1, 0x0, 1, 1, 0x0, 0x0, 0x0, 0x0, false⟩, -- TIME_SNAP_LT_LO
  ⟨0x4001C, 0x0, 1, 0x0, 1, 1, 0x0, 0x0, 0x0, 0x0, false⟩, -- TIME_SNAP_LT_HI
  ⟨0x40020, 0x0, 1, 0x0, 1, 1, 0x0, 0x0, 0x0, 0x0, false⟩, -- TIME_SNAP_D0_LO
  ⟨0x40024, 0x0, 1, 0x0, 1, 1, 0x0, 0x0, 0x0, 0x0, false⟩, -- TIME_SNAP_D0_HI
  ⟨0x40028, 0x0, 1, 0x0, 1, 1, 0x0, 0x0, 0x0, 0x0, false⟩, -- TIME_SNAP_D1_LO
  ⟨0x4002C, 0x0, 1, 0x0, 1, 1, 0x0, 0x0, 0x0, 0x0, false⟩, -- TIME_SNAP_D1_HI
  ⟨0x40030, 0x0, 1, 0x0, 1, 1, 0x0, 0x0, 0x0, 0x0, false⟩, -- TIME_LT_LO
  ⟨0x40034, 0x0, 1, 0x0, 1, 1, 0x0, 0x0, 0x0, 0x0, false⟩, -- TIME_LT_HI
  ⟨0x40038, 0x0, 1, 0x0, 1, 1, 0x0, 0x0, 0x0, 0x0, false⟩, -- TIME_RESIDUAL
  ⟨0x40040, 0x0, 1, 0x0, 1, 1, 0xF, 0x0, 0x0, 0x0, false⟩, -- TIME_SLOT_GATE
  ⟨0x40044, 0x0, 1, 0x0, 1, 1, 0xFFFF, 0x0, 0x0, 0x0, false⟩, -- TIME_TIME_STEP_COUNT
  ⟨0x40048, 0x0, 1, 0x0, 1, 1, 0xFFFF, 0x0, 0x0, 0x0, false⟩, -- TIME_LATE_COUNT
  ⟨0x4004C, 0x0, 1, 0x0, 1, 1, 0xFFFF, 0x0, 0x0, 0x0, false⟩, -- TIME_MISSED_COUNT
  ⟨0x40050, 0x0, 1, 0x0, 1, 1, 0xFFFF, 0x0, 0x0, 0x0, false⟩, -- TIME_SCHED_REJECTED_COUNT
  ⟨0x40054, 0x0, 1, 0x0, 1, 1, 0xFFFF, 0x0, 0x0, 0x0, false⟩, -- TIME_CAP_OVF_COUNT
  ⟨0x40058, 0x0, 1, 0x0, 1, 1, 0xFFFF, 0x0, 0x0, 0x0, false⟩, -- TIME_INCR_REFUSED_COUNT
  ⟨0x40104, 0x0, 1, 0x40, 2, 1, 0xFFFFFFFF, 0x0, 0x0, 0x0, false⟩, -- TIME_OFFSET_FRAC
  ⟨0x40108, 0x0, 1, 0x40, 2, 1, 0xFFFFFFFF, 0x0, 0x0, 0x0, false⟩, -- TIME_OFFSET_LO
  ⟨0x4010C, 0x0, 1, 0x40, 2, 1, 0xFFFFFFFF, 0x0, 0x0, 0x0, false⟩, -- TIME_OFFSET_HI
  ⟨0x40118, 0x0, 1, 0x40, 2, 1, 0x0, 0x0, 0x0, 0x0, false⟩, -- TIME_BASE_LO
  ⟨0x4011C, 0x0, 1, 0x40, 2, 1, 0x0, 0x0, 0x0, 0x0, false⟩, -- TIME_BASE_HI
  ⟨0x40120, 0x0, 1, 0x40, 2, 1, 0x0, 0x0, 0x0, 0x0, true⟩, -- TIME_ADJ
  ⟨0x40124, 0x0, 1, 0x40, 2, 1, 0x0, 0x0, 0x0, 0x0, true⟩, -- TIME_OFFSET_MEAS
  ⟨0x40128, 0x0, 1, 0x40, 2, 1, 0x0, 0x0, 0x0, 0x0, false⟩, -- TIME_SERVO_I
  ⟨0x40500, 0x0, 1, 0x10, 2, 1, 0xC00003FF, 0x0, 0x0, 0x0, false⟩, -- TIME_CAP_CFG
  ⟨0x40504, 0x0, 1, 0x10, 2, 1, 0x0, 0x0, 0x0, 0x0, false⟩, -- TIME_CAP_TS_HI
  ⟨0x40508, 0x0, 1, 0x10, 2, 1, 0x0, 0x0, 0x0, 0x0, false⟩, -- TIME_CAP_TS_LO
  ⟨0x4050C, 0x0, 1, 0x10, 2, 1, 0x0, 0x0, 0x0, 0x0, false⟩, -- TIME_CAP_DEPTH
  ⟨0x41000, 0x0, 1, 0x20, 64, 1, 0xF8F00000, 0x0, 0x0, 0x0, false⟩, -- TIME_SCHED_CFG
  ⟨0x41004, 0x0, 1, 0x20, 64, 1, 0xFFFFFFFF, 0x0, 0x0, 0x0, false⟩, -- TIME_SCHED_ARG
  ⟨0x41008, 0x0, 1, 0x20, 64, 1, 0xFFFFFFFF, 0x0, 0x0, 0x0, false⟩, -- TIME_SCHED_TARGET_LO
  ⟨0x4100C, 0x0, 1, 0x20, 64, 1, 0xFFFFFFFF, 0x0, 0x0, 0x0, false⟩, -- TIME_SCHED_TARGET_HI
  ⟨0x41010, 0x0, 1, 0x20, 64, 1, 0xFFFFFFFF, 0x0, 0x0, 0x0, false⟩, -- TIME_SCHED_PERIOD
  ⟨0x41014, 0x0, 1, 0x20, 64, 1, 0x0, 0x0, 0x0, 0x0, false⟩ -- TIME_SCHED_STATUS
  ]

/-- Register rows of TIME. -/
def rowsTime1 : List RegRow := [
  ⟨0x41018, 0x0, 1, 0x20, 64, 1, 0x0, 0x0, 0x0, 0x0, false⟩ -- TIME_SCHED_LAST
  ]

/-- Register rows of MSG. -/
def rowsMsg1 : List RegRow := [
  ⟨0xC0010, 0x0, 1, 0x4, 3, 1, 0x0, 0x0, 0x0, 0x0, false⟩, -- MSG_TX_SEQ
  ⟨0xC0020, 0x0, 1, 0x0, 1, 1, 0x0, 0x0, 0xF, 0x0, false⟩, -- MSG_ROUTER_FLAGS
  ⟨0xC0024, 0x0, 1, 0x0, 1, 1, 0xFFFF, 0x0, 0x0, 0x0, false⟩, -- MSG_SEQ_GAP_COUNT
  ⟨0xC0028, 0x0, 1, 0x0, 1, 1, 0xFFFF, 0x0, 0x0, 0x0, false⟩, -- MSG_RX_CRC_COUNT
  ⟨0xC002C, 0x0, 1, 0x0, 1, 1, 0xFFFF, 0x0, 0x0, 0x0, false⟩, -- MSG_NAK_COUNT
  ⟨0xC0030, 0x0, 1, 0x0, 1, 1, 0xFFFF, 0x0, 0x0, 0x0, false⟩, -- MSG_RX_FORMAT_COUNT
  ⟨0xC0034, 0x0, 1, 0x0, 1, 1, 0x0, 0x0, 0x0, 0x0, false⟩, -- MSG_FW_QUEUE
  ⟨0xC0100, 0x0, 1, 0x4, 16, 1, 0x0, 0x0, 0x0, 0x0, false⟩, -- MSG_FENCE
  ⟨0xC0140, 0x0, 1, 0x0, 1, 1, 0x0, 0x0, 0x0, 0x0, true⟩, -- MSG_FENCE_SIGNAL
  ⟨0xC0200, 0x0, 1, 0x0, 1, 1, 0x0, 0x0, 0x0, 0x0, false⟩, -- MSG_EVT_POP
  ⟨0xC0204, 0x0, 1, 0x0, 1, 1, 0x0, 0x0, 0x0, 0x0, true⟩, -- MSG_EVT_SKIP
  ⟨0xC0208, 0x0, 1, 0x0, 1, 1, 0x0, 0x0, 0x0, 0x0, false⟩, -- MSG_EVT_STATUS
  ⟨0xC0210, 0x0, 1, 0x0, 1, 1, 0x0, 0x0, 0x0, 0x0, false⟩, -- MSG_EVT_SEQ_NEXT
  ⟨0xC0214, 0x0, 1, 0x0, 1, 1, 0x0, 0x0, 0x0, 0x0, false⟩, -- MSG_EVT_SEQ_OLDEST
  ⟨0xC0218, 0x0, 1, 0x4, 4, 1, 0xFFFF, 0x0, 0x0, 0x0, false⟩, -- MSG_EVT_DROP
  ⟨0xC0228, 0x0, 1, 0x4, 4, 1, 0xFFFF, 0x0, 0x0, 0x0, false⟩, -- MSG_EVT_EVICT
  ⟨0xC0238, 0x0, 1, 0x0, 1, 1, 0x0, 0x0, 0x3, 0x0, false⟩, -- MSG_EVT_FLAGS
  ⟨0xC023C, 0x0, 1, 0x0, 1, 1, 0xFFFF, 0x0, 0x0, 0x0, false⟩, -- MSG_EVT_DROP_COUNT
  ⟨0xC0240, 0x0, 1, 0x0, 1, 1, 0xFFFF, 0x0, 0x0, 0x0, false⟩, -- MSG_TAKEOVER_COUNT
  ⟨0xC0300, 0x0, 1, 0x0, 1, 1, 0xFFFFFFFF, 0xFFFFFFFF, 0x0, 0x0, false⟩, -- MSG_SP_BASE_LO
  ⟨0xC0304, 0x0, 1, 0x0, 1, 1, 0xFF, 0xFF, 0x0, 0x0, false⟩, -- MSG_SP_BASE_HI
  ⟨0xC0308, 0x0, 1, 0x0, 1, 1, 0x1FF, 0x1FF, 0x0, 0x0, false⟩, -- MSG_SP_SIZE
  ⟨0xC0310, 0x0, 1, 0x0, 1, 1, 0x0, 0x0, 0x0, 0x0, true⟩, -- MSG_SP_CMD
  ⟨0xC0314, 0x0, 1, 0x0, 1, 1, 0x0, 0x0, 0x70000, 0x0, false⟩, -- MSG_SP_STATUS
  ⟨0xC0318, 0x0, 1, 0x0, 1, 1, 0x0, 0x0, 0x0, 0x0, false⟩, -- MSG_SP_WR_PTR
  ⟨0xC031C, 0x0, 1, 0x0, 1, 1, 0x0, 0x0, 0x0, 0x0, false⟩, -- MSG_SP_RD_PTR
  ⟨0xC0320, 0x0, 1, 0x0, 1, 1, 0x0, 0x0, 0x0, 0x0, false⟩, -- MSG_SP_MARK_PTR
  ⟨0xC0324, 0x0, 1, 0x0, 1, 1, 0x0, 0x0, 0x0, 0x0, false⟩, -- MSG_SP_SEQ_NEWEST
  ⟨0xC0328, 0x0, 1, 0x0, 1, 1, 0x0, 0x0, 0x0, 0x0, false⟩, -- MSG_SP_SEQ_OLDEST
  ⟨0xC032C, 0x0, 1, 0x0, 1, 1, 0x0, 0x0, 0x0, 0x0, false⟩, -- MSG_SP_TRIG_PTR
  ⟨0xC0330, 0x0, 1, 0x0, 1, 1, 0x0, 0x0, 0x0, 0x0, false⟩, -- MSG_SP_TRIG_SEQ
  ⟨0xC0334, 0x0, 1, 0x0, 1, 1, 0xFFFF, 0x0, 0x0, 0x0, false⟩, -- MSG_MARK_LOST_COUNT
  ⟨0xC0338, 0x0, 1, 0x0, 1, 1, 0xFFFF, 0x0, 0x0, 0x0, false⟩, -- MSG_RD_OVERTAKEN_COUNT
  ⟨0xC033C, 0x0, 1, 0x0, 1, 1, 0xFFFF, 0x0, 0x0, 0x0, false⟩, -- MSG_REWIND_FAIL_COUNT
  ⟨0xC0340, 0x0, 1, 0x0, 1, 1, 0xFFFF, 0x0, 0x0, 0x0, false⟩, -- MSG_SP_LOSS_COUNT
  ⟨0xC0344, 0x0, 1, 0x0, 1, 1, 0xFFFF, 0x0, 0x0, 0x0, false⟩, -- MSG_SP_FROZEN_DROP_COUNT
  ⟨0xC0380, 0x0, 1, 0x0, 1, 16, 0x0, 0x0, 0x0, 0x0, false⟩ -- MSG_SP_WIN
  ]

/-- Register rows of HOSTIF. -/
def rowsHostif1 : List RegRow := [
  ⟨0x80000, 0x0, 1, 0x400, 2, 1, 0x80030FFF, 0x80030FFF, 0x0, 0x0, false⟩, -- HOSTIF_ETH_CFG
  ⟨0x80004, 0x0, 1, 0x400, 2, 1, 0x0, 0x0, 0x0, 0x0, false⟩, -- HOSTIF_ETH_STATUS
  ⟨0x80008, 0x0, 1, 0x400, 2, 1, 0xFFFF, 0x0, 0x0, 0x0, false⟩, -- HOSTIF_ETH_RX_ERR
  ⟨0x8000C, 0x0, 1, 0x400, 2, 1, 0xFFFF, 0x0, 0x0, 0x0, false⟩, -- HOSTIF_ETH_MACSEC_ERR
  ⟨0x81000, 0x0, 1, 0x200, 2, 1, 0x80000007, 0x80000007, 0x0, 0x0, false⟩, -- HOSTIF_CSI_CFG
  ⟨0x81004, 0x0, 1, 0x200, 2, 1, 0xFFFFFFFF, 0x0, 0x0, 0x0, false⟩, -- HOSTIF_CSI_ERR
  ⟨0x81008, 0x0, 1, 0x200, 2, 1, 0xFFFF, 0x0, 0x0, 0x0, false⟩, -- HOSTIF_CSI_ECC_CORR
  ⟨0x82000, 0x0, 1, 0x100, 2, 1, 0x0, 0x0, 0x0, 0x0, false⟩, -- HOSTIF_CAN_STATUS
  ⟨0x82004, 0x0, 1, 0x100, 2, 1, 0xFFFF, 0x0, 0x0, 0x0, false⟩, -- HOSTIF_CAN_BAD_COUNT
  ⟨0x83000, 0x0, 1, 0x0, 1, 1, 0x0, 0x0, 0x0, 0x0, false⟩, -- HOSTIF_SPI_STATUS
  ⟨0x83004, 0x0, 1, 0x0, 1, 1, 0xFFFF, 0x0, 0x0, 0x0, false⟩, -- HOSTIF_SPI_CRC_COUNT
  ⟨0x83008, 0x0, 1, 0x0, 1, 1, 0xFFFF, 0x0, 0x0, 0x0, false⟩ -- HOSTIF_SPI_REPLY_LOST
  ]

/-- Register rows of SAFETY. -/
def rowsSafety0 : List RegRow := [
  ⟨0x280004, 0x0, 1, 0x0, 1, 1, 0x0, 0x0, 0x0, 0x0, false⟩, -- SAFETY_SS_STATE
  ⟨0x280008, 0x0, 1, 0x0, 1, 1, 0x0, 0x0, 0xFF, 0x0, false⟩, -- SAFETY_FLAGS
  ⟨0x28000C, 0x0, 1, 0x0, 1, 1, 0x0, 0x0, 0x0, 0x0, false⟩, -- SAFETY_FAULT_SC
  ⟨0x280010, 0x0, 1, 0x0, 1, 1, 0x0, 0x0, 0x0, 0x0, false⟩, -- SAFETY_FAULT_TT
  ⟨0x280014, 0x0, 1, 0x0, 1, 1, 0x0, 0x0, 0x0, 0x0, true⟩, -- SAFETY_ACK_SC
  ⟨0x280018, 0x0, 1, 0x0, 1, 1, 0x0, 0x0, 0x0, 0x0, true⟩, -- SAFETY_ACK_TT
  ⟨0x28001C, 0x0, 1, 0x0, 1, 1, 0x0, 0x0, 0x0, 0x0, false⟩, -- SAFETY_SIN_STATUS
  ⟨0x280020, 0x0, 1, 0x0, 1, 1, 0x0, 0x0, 0x0, 0x0, false⟩, -- SAFETY_SW_STATUS
  ⟨0x280024, 0x0, 1, 0x0, 1, 1, 0x0, 0x0, 0x0, 0x0, false⟩, -- SAFETY_CEIL_LAST
  ⟨0x280028, 0x0, 1, 0x0, 1, 1, 0x0, 0x0, 0x0, 0x0, false⟩, -- SAFETY_DYN_SHIFT
  ⟨0x28002C, 0x0, 1, 0x0, 1, 1, 0x0, 0x0, 0x0, 0x0, false⟩, -- SAFETY_MASK_AGE
  ⟨0x280030, 0x0, 1, 0x0, 1, 1, 0xFFFF, 0x0, 0x0, 0x0, false⟩, -- SAFETY_ROW_ENERGY_COUNT
  ⟨0x280034, 0x0, 1, 0x0, 1, 1, 0xFFFF, 0x0, 0x0, 0x0, false⟩, -- SAFETY_CEILING_COUNT
  ⟨0x280038, 0x0, 1, 0x0, 1, 1, 0xFFFF, 0x0, 0x0, 0x0, false⟩, -- SAFETY_STATS_MISSING_COUNT
  ⟨0x28003C, 0x0, 1, 0x0, 1, 1, 0xFFFF, 0x0, 0x0, 0x0, false⟩, -- SAFETY_DISCREPANCY_COUNT
  ⟨0x280040, 0x0, 1, 0x0, 1, 1, 0xFFFF, 0x0, 0x0, 0x0, false⟩, -- SAFETY_SWITCH_FAIL_COUNT
  ⟨0x280044, 0x0, 1, 0x0, 1, 1, 0xFFFF, 0x0, 0x0, 0x0, false⟩, -- SAFETY_TEST_SKIP_COUNT
  ⟨0x280048, 0x0, 1, 0x0, 1, 1, 0xFFFF, 0x0, 0x0, 0x0, false⟩, -- SAFETY_ACT_FAULT_COUNT
  ⟨0x28004C, 0x0, 1, 0x0, 1, 1, 0xFFFF, 0x0, 0x0, 0x0, false⟩, -- SAFETY_ACK_REFUSED_COUNT
  ⟨0x280200, 0x0, 1, 0x20, 2, 1, 0x80000003, 0x80000003, 0x0, 0x0, false⟩, -- SAFETY_ACT_CFG
  ⟨0x280204, 0x0, 1, 0x20, 2, 1, 0xFFFF, 0x0, 0x0, 0x0, false⟩, -- SAFETY_ACT_TARGET
  ⟨0x280208, 0x0, 1, 0x20, 2, 1, 0x0, 0x0, 0x0, 0x0, false⟩, -- SAFETY_ACT_POS_SC
  ⟨0x28020C, 0x0, 1, 0x20, 2, 1, 0x0, 0x0, 0x0, 0x0, false⟩, -- SAFETY_ACT_POS_TT
  ⟨0x280210, 0x0, 1, 0x20, 2, 1, 0x0, 0x0, 0x0, 0x0, false⟩, -- SAFETY_ACT_STATUS
  ⟨0x280304, 0x0, 1, 0x0, 1, 1, 0x1, 0x1, 0x0, 0x0, false⟩ -- SAFETY_TEST_CFG
  ]

/-- Register rows of MEM. -/
def rowsMem0 : List RegRow := [
  ⟨0x300100, 0x0, 1, 0x0, 1, 1, 0x0, 0x0, 0x7, 0x0, false⟩, -- MEM_ECC_STATUS
  ⟨0x300104, 0x0, 1, 0x0, 1, 1, 0xFFFF, 0x0, 0x0, 0x0, false⟩, -- MEM_CE_COUNT
  ⟨0x300108, 0x0, 1, 0x0, 1, 1, 0xFFFF, 0x0, 0x0, 0x0, false⟩, -- MEM_UE_COUNT
  ⟨0x30010C, 0x0, 1, 0x0, 1, 1, 0xFFFF, 0x0, 0x0, 0x0, false⟩, -- MEM_CE_REPEAT_COUNT
  ⟨0x300110, 0x0, 1, 0x0, 1, 1, 0x0, 0x0, 0x0, 0x0, false⟩, -- MEM_LAST_CE_ADDR_LO
  ⟨0x300114, 0x0, 1, 0x0, 1, 1, 0x0, 0x0, 0x0, 0x0, false⟩, -- MEM_LAST_CE_ADDR_HI
  ⟨0x300118, 0x0, 1, 0x0, 1, 1, 0x0, 0x0, 0x0, 0x0, false⟩, -- MEM_LAST_CE_INFO
  ⟨0x30011C, 0x0, 1, 0x0, 1, 1, 0x0, 0x0, 0x0, 0x0, false⟩, -- MEM_LAST_UE_ADDR_LO
  ⟨0x300120, 0x0, 1, 0x0, 1, 1, 0x0, 0x0, 0x0, 0x0, false⟩, -- MEM_LAST_UE_ADDR_HI
  ⟨0x300124, 0x0, 1, 0x0, 1, 1, 0x0, 0x0, 0x0, 0x0, false⟩, -- MEM_LAST_UE_INFO
  ⟨0x300134, 0x0, 1, 0x0, 1, 1, 0x0, 0x0, 0x0, 0x0, false⟩, -- MEM_SCRUB_STATUS
  ⟨0x300138, 0x0, 1, 0x0, 1, 1, 0x8F3F3F01, 0x0, 0x0, 0x0, false⟩, -- MEM_ECC_INJECT
  ⟨0x300140, 0x0, 1, 0x4, 11, 1, 0xFFFFFFFF, 0x0, 0x0, 0x0, false⟩ -- MEM_ECC_REGION
  ]

/-- Register rows of CRC. -/
def rowsCrc0 : List RegRow := [
  ⟨0x2C0004, 0x100, 4, 0x0, 1, 1, 0x0, 0x0, 0x0, 0x0, true⟩, -- CRC_CMD
  ⟨0x2C0008, 0x100, 4, 0x0, 1, 1, 0x0, 0x0, 0x2, 0x0, false⟩, -- CRC_STATUS
  ⟨0x2C0014, 0x100, 4, 0x0, 1, 1, 0xFFFFFFFF, 0x0, 0x0, 0x0, false⟩, -- CRC_ADDR_LO
  ⟨0x2C0018, 0x100, 4, 0x0, 1, 1, 0xFF, 0x0, 0x0, 0x0, false⟩, -- CRC_ADDR_HI
  ⟨0x2C001C, 0x100, 4, 0x0, 1, 1, 0xFFFFFFFF, 0x0, 0x0, 0x0, false⟩, -- CRC_LEN
  ⟨0x2C0020, 0x100, 4, 0x0, 1, 1, 0xFFFFFFFF, 0x0, 0x0, 0x0, false⟩, -- CRC_REF_A
  ⟨0x2C0024, 0x100, 4, 0x0, 1, 1, 0xFFFFFFFF, 0x0, 0x0, 0x0, false⟩, -- CRC_REF_B
  ⟨0x2C0028, 0x100, 4, 0x0, 1, 1, 0x0, 0x0, 0x0, 0x0, false⟩, -- CRC_RESULT
  ⟨0x2C002C, 0x100, 4, 0x0, 1, 1, 0x0, 0x0, 0x0, 0x0, false⟩, -- CRC_PROGRESS
  ⟨0x2C0030, 0x100, 4, 0x0, 1, 1, 0xFFFF, 0x0, 0x0, 0x0, false⟩, -- CRC_ERR_BUSY_COUNT
  ⟨0x2C0034, 0x100, 4, 0x0, 1, 1, 0xFFFF, 0x0, 0x0, 0x0, false⟩, -- CRC_DATA_MISMATCH_COUNT
  ⟨0x2C0038, 0x100, 4, 0x0, 1, 1, 0xFFFF, 0x0, 0x0, 0x0, false⟩, -- CRC_REF_CORRUPT_COUNT
  ⟨0x2C0040, 0x100, 4, 0x0, 1, 16, 0xFFFFFFFF, 0x0, 0x0, 0x0, false⟩ -- CRC_DATA
  ]

/-- Register rows of PWR. -/
def rowsPwr0 : List RegRow := [
  ⟨0x20000, 0x0, 1, 0x0, 1, 1, 0x0, 0x0, 0x0, 0x0, true⟩, -- PWR_PWR_REQ
  ⟨0x20010, 0x0, 1, 0x0, 1, 1, 0xFFFFFFFF, 0x0, 0x0, 0x0, false⟩, -- PWR_DEADLINE_LO
  ⟨0x20014, 0x0, 1, 0x0, 1, 1, 0xFFFFFFFF, 0x0, 0x0, 0x0, false⟩, -- PWR_DEADLINE_HI
  ⟨0x20018, 0x0, 1, 0x0, 1, 1, 0x0, 0x0, 0x0, 0x0, false⟩, -- PWR_NEXT_EVENT
  ⟨0x2001C, 0x0, 1, 0x0, 1, 1, 0x0, 0x0, 0x0, 0x0, false⟩, -- PWR_AUTO_CHOICE
  ⟨0x20020, 0x0, 1, 0x0, 1, 1, 0x0, 0x0, 0x80000000, 0x0, false⟩, -- PWR_WAKE_FAIL_CAUSE
  ⟨0x20024, 0x0, 1, 0x0, 1, 1, 0x0, 0x0, 0x0, 0x0, false⟩, -- PWR_WAKE_SRC
  ⟨0x20028, 0x0, 1, 0x0, 1, 1, 0x0, 0x0, 0x0, 0x0, false⟩, -- PWR_SLOW_PERIOD
  ⟨0x2002C, 0x0, 1, 0x0, 1, 1, 0x0, 0x0, 0x0, 0x0, false⟩, -- PWR_RET_STATUS
  ⟨0x20030, 0x0, 1, 0x0, 1, 1, 0x0, 0x0, 0xF, 0x0, false⟩, -- PWR_PWR_FLAGS
  ⟨0x20034, 0x0, 1, 0x0, 1, 1, 0xFFFF, 0x0, 0x0, 0x0, false⟩, -- PWR_VETO_COUNT
  ⟨0x20038, 0x0, 1, 0x0, 1, 1, 0xFFFF, 0x0, 0x0, 0x0, false⟩, -- PWR_REFUSED_COUNT
  ⟨0x2003C, 0x0, 1, 0x0, 1, 1, 0xFFFF, 0x0, 0x0, 0x0, false⟩, -- PWR_WAKE_ABORT_COUNT
  ⟨0x20040, 0x0, 1, 0x0, 1, 1, 0xFFFF, 0x0, 0x0, 0x0, false⟩ -- PWR_RET_LOST_COUNT
  ]

/-- Register rows of HK. -/
def rowsHk0 : List RegRow := [
  ⟨0x30000, 0x0, 1, 0x0, 1, 1, 0x0, 0x0, 0x3, 0x0, false⟩, -- HK_HK_STATUS
  ⟨0x30004, 0x0, 1, 0x0, 1, 1, 0x0, 0x0, 0x0, 0x0, false⟩, -- HK_HLV_STATUS
  ⟨0x3000C, 0x0, 1, 0x0, 1, 1, 0x80000000, 0x80000000, 0x0, 0x0, false⟩, -- HK_ROUND_CFG
  ⟨0x30010, 0x0, 1, 0x0, 1, 1, 0x0, 0x0, 0x0, 0x0, false⟩, -- HK_ROUND_COUNT
  ⟨0x30018, 0x0, 1, 0x0, 1, 1, 0x0, 0x0, 0x0, 0x0, false⟩, -- HK_SENSOR_STATUS
  ⟨0x3001C, 0x0, 1, 0x0, 1, 1, 0x0, 0x0, 0x0, 0x0, false⟩, -- HK_DIE_TEMP_MAX
  ⟨0x30030, 0x0, 1, 0x4, 4, 1, 0x0, 0x0, 0x0, 0x0, false⟩, -- HK_TILE_SUB
  ⟨0x30040, 0x0, 1, 0x4, 4, 1, 0x0, 0x0, 0x0, 0x0, false⟩, -- HK_TILE_BIAS
  ⟨0x30050, 0x0, 1, 0x0, 1, 1, 0x0, 0x0, 0x0, 0x0, false⟩, -- HK_DERATED_BLOCKS
  ⟨0x30054, 0x0, 1, 0x0, 1, 1, 0x0, 0x0, 0x0, 0x0, false⟩, -- HK_CUT_STATUS
  ⟨0x30058, 0x0, 1, 0x0, 1, 1, 0xFFFF, 0x0, 0x0, 0x0, false⟩, -- HK_SENSOR_IGNORED_COUNT
  ⟨0x3005C, 0x0, 1, 0x0, 1, 1, 0xFFFF, 0x0, 0x0, 0x0, false⟩, -- HK_ROUND_LATE_COUNT
  ⟨0x30080, 0x0, 1, 0x4, 16, 1, 0x0, 0x0, 0x0, 0x0, false⟩, -- HK_SUPPLY
  ⟨0x32000, 0x0, 1, 0x4, 1024, 1, 0xFFFF, 0x0, 0x0, 0x0, false⟩ -- HK_BLKTEMP
  ]

/-- Register rows of BE. -/
def rowsBe1 : List RegRow := [
  ⟨0x250000, 0x0, 1, 0x0, 1, 1, 0x0, 0x0, 0x0, 0x0, false⟩ -- BE_SPARE
  ]

/-- The rows with a reset value other than zero. -/
def resetRows : List RegRow :=
  rstTop0 ++
  rstBstream0 ++
  rstTop1 ++
  rstBe0 ++
  rstMsg0 ++
  rstPress0 ++
  rstTg0 ++
  rstZtl0 ++
  rstHealth0 ++
  rstTime0 ++
  rstMsg1 ++
  rstSafety0 ++
  rstMem0 ++
  rstCrc0 ++
  rstPwr0 ++
  rstHk0

/-- The whole register map. -/
def regRows : List RegRow :=
  resetRows ++ rowsTop0 ++
  rowsBstream0 ++
  rowsTop1 ++
  rowsBe0 ++
  rowsMsg0 ++
  rowsCp0 ++
  rowsHostif0 ++
  rowsPress0 ++
  rowsPress1 ++
  rowsTg0 ++
  rowsZtl0 ++
  rowsHealth0 ++
  rowsTime0 ++
  rowsTime1 ++
  rowsMsg1 ++
  rowsHostif1 ++
  rowsSafety0 ++
  rowsMem0 ++
  rowsCrc0 ++
  rowsPwr0 ++
  rowsHk0 ++
  rowsBe1

/-- The reset value of the register at `off` (R8, R30, R54, R73, R107, R158, R188, R208, R240, R269, R295, R322,
R350, R351, R381, R397, R426, R427); zero where the spec gives none (log 2). -/
def regReset (off : Nat) : BitVec 32 :=
  match findRow resetRows off with
  | some r => r.rst
  | none => 0

/-- The map's row for `off`, none at an unmapped offset (R27). -/
def regRow (off : Nat) : Option RegRow := findRow regRows off

end Sys2Proof.Machine
end

