-- ==== Sys2Proof/Machine/Tab.lean ====
section
/-! DEFINITION. Sparse tables: lists of (key, value) pairs with one default per key. The register file, the memory
and every other sparse piece of state is such a table, in ONE canonical form: keys strictly rising and no entry
equal to the key's default, so that equal tables are equal lists. -/

namespace Sys2Proof.Machine

/-- What the table holds at `k`; an unlisted key reads as its default. -/
def tabGet {β : Type} (d : Nat → β) : List (Nat × β) → Nat → β
  | [], k => d k
  | (a, v) :: t, k => if a = k then v else tabGet d t k

/-- The table without the key `k`. -/
def tabDel {β : Type} (t : List (Nat × β)) (k : Nat) : List (Nat × β) :=
  t.filter (fun c => decide (c.1 ≠ k))

/-- Insertion before the first larger key. -/
def tabIns {β : Type} (k : Nat) (v : β) : List (Nat × β) → List (Nat × β)
  | [] => [(k, v)]
  | (a, w) :: t => if k < a then (k, v) :: (a, w) :: t else (a, w) :: tabIns k v t

/-- The table with `v` at `k`, in canonical form: a default value is not listed. -/
def tabSet {β : Type} [DecidableEq β] (d : Nat → β) (t : List (Nat × β)) (k : Nat) (v : β) : List (Nat × β) :=
  if v = d k then tabDel t k else tabIns k v (tabDel t k)

/-- The canonical form. -/
abbrev tabWf {β : Type} [DecidableEq β] (d : Nat → β) (t : List (Nat × β)) : Prop :=
  (t.map Prod.fst).Pairwise (· < ·) ∧ ∀ c ∈ t, c.2 ≠ d c.1

/-- The entries with keys in [k, k + n). -/
def tabCut {β : Type} (t : List (Nat × β)) (k n : Nat) : List (Nat × β) :=
  t.filter (fun c => decide (k ≤ c.1) && decide (c.1 < k + n))

/-- `n` consecutive values from `k`. -/
def tabRange {β : Type} (d : Nat → β) (t : List (Nat × β)) (k n : Nat) : List β :=
  let u := tabCut t k n
  (List.range' k n).map (tabGet d u)

/-- Do the keys rise strictly from `lo`? -/
def tabRising {β : Type} : Nat → List (Nat × β) → Bool
  | _, [] => true
  | lo, (a, _) :: t => decide (lo ≤ a) && tabRising (a + 1) t

/-- The values from `k` of a table whose keys rise, in one walk; `acc` holds those before, last first. -/
def tabWalk {β : Type} (d : Nat → β) : List (Nat × β) → Nat → Nat → List β → List β
  | _, _, 0, acc => acc.reverse
  | [], k, n + 1, acc => tabWalk d [] (k + 1) n (d k :: acc)
  | (a, v) :: t, k, n + 1, acc =>
    if a = k then tabWalk d t (k + 1) n (v :: acc) else tabWalk d ((a, v) :: t) (k + 1) n (d k :: acc)

/-- What `tabRange` runs as. -/
def tabRangeFast {β : Type} (d : Nat → β) (t : List (Nat × β)) (k n : Nat) : List β :=
  let u := tabCut t k n
  if tabRising k u then tabWalk d u k n [] else (List.range' k n).map (tabGet d u)

theorem tabGet_rising {β : Type} (d : Nat → β) (t : List (Nat × β)) (lo k : Nat) (h : tabRising lo t) (hk : k < lo) :
    tabGet d t k = d k := by
  induction t generalizing lo with
  | nil => rfl
  | cons c t ih =>
    obtain ⟨a, v⟩ := c
    simp only [tabRising, Bool.and_eq_true, decide_eq_true_eq] at h
    have : a ≠ k := by omega
    simp only [tabGet, this, if_false]
    exact ih (a + 1) h.2 (by omega)

theorem tabWalk_eq {β : Type} (d : Nat → β) (n : Nat) : ∀ (t : List (Nat × β)) (k : Nat) (acc : List β), tabRising k t →
    tabWalk d t k n acc = acc.reverse ++ (List.range' k n).map (tabGet d t) := by
  induction n with
  | zero => intro t k acc _; simp [tabWalk]
  | succ n ih =>
    intro t k acc h
    cases t with
    | nil => simp [tabWalk, ih [] (k + 1) _ rfl, List.range'_succ, tabGet]
    | cons c t =>
      obtain ⟨a, v⟩ := c
      have h' := h
      simp only [tabRising, Bool.and_eq_true, decide_eq_true_eq] at h
      by_cases ha : a = k
      · subst ha
        simp [tabWalk, ih t (a + 1) _ h.2, List.range'_succ, tabGet]
        intro i hi _ he; omega
      · have hr : tabRising (k + 1) ((a, v) :: t) := by
          simp only [tabRising, Bool.and_eq_true, decide_eq_true_eq]; exact ⟨by omega, h.2⟩
        have hg := tabGet_rising d ((a, v) :: t) (k + 1) k hr (by omega)
        simp [tabWalk, ha, ih _ (k + 1) _ hr, List.range'_succ, hg]

@[csimp] theorem tabRange_fast : @tabRange = @tabRangeFast := by
  funext β d t k n
  unfold tabRange tabRangeFast
  dsimp only
  split
  · next h => rw [tabWalk_eq d n _ _ _ h]; simp
  · rfl
/-- The entries that a list of values from `k` upwards makes: the defaults are not listed. -/
def tabRun {β : Type} [DecidableEq β] (d : Nat → β) (k : Nat) (vs : List β) : List (Nat × β) :=
  (vs.zipIdx k).filterMap (fun q => if q.1 = d q.2 then none else some (q.2, q.1))

/-- A list of values written from `k` upwards. -/
def tabPutAll {β : Type} [DecidableEq β] (d : Nat → β) (t : List (Nat × β)) (k : Nat) (vs : List β) : List (Nat × β) :=
  t.filter (fun c => decide (c.1 < k)) ++ tabRun d k vs ++ t.filter (fun c => decide (k + vs.length ≤ c.1))

end Sys2Proof.Machine
end

