-- ==== Sys2Proof/Machine/State.lean ====
section
/-! DEFINITION. The state of the block, plain data: the register file, the memory, the queue of waiting commands, and
what the units hold beside their registers. -/

namespace Sys2Proof.Machine

/-- Faults. No command of this block raises one: every row of the table has an effect in every state
(raised by no command; safe). -/
inductive Fault where
  | unreachable
deriving DecidableEq, Repr

/-- Refusals: `notModelled` is the answer of an arm of `exec` that has no meaning yet (raised by `exec`; safe). -/
inductive Refusal where
  | notModelled (mnemonic : String)
deriving DecidableEq, Repr

/-- Family members (R1). -/
inductive Part where
  | sz1240 | sz1220
deriving DecidableEq, Repr

/-- One event record before it is numbered (R339): `lt` is lamp time in ns at which it arose. -/
structure Ev where
  kind : EvKind
  src : Nat
  data : Word
  lt : Nat
deriving DecidableEq, Repr

/-- The drop summary (R342): its number, the lamp time of the first loss, and the losses of priorities 0 to 3. -/
structure Summary where
  seq : Nat
  lt : Nat
  l0 : Nat
  l1 : Nat
  l2 : Nat
  l3 : Nat
deriving DecidableEq, Repr

/-- Hamper (R339 to R345). Event numbers and drop counts are registers of MSG. -/
structure Hamper where
  /-- records waiting in the units' outboxes, oldest first, each with its unit -/
  outbox : List (Nat × Ev) := []
  /-- numbered records held, in order of arrival -/
  held : List (Nat × Ev) := []
  summary : Option Summary := none
  /-- words left of the packet in progress -/
  packet : List Word := []
  /-- code and class of the last priority-0 or priority-1 event offered (R329) -/
  alarmCode : Nat := 0
  alarmCls : Nat := 0
  dropSinceAlarm : Bool := false
  /-- Ethernet event stream: channels enabled, records waiting, tokens per class, withheld, losses since the last EVENTS -/
  stream : List Bool := [false, false]
  waiting : List (Nat × Ev) := []
  /-- tokens of each class in units of one 800-millionth, and the model time of the last refill -/
  tokens : List Nat := []
  tokensAt : Nat := 0
  /-- model time at which the first waiting record was taken -/
  waitFrom : Option Nat := none
  withheld : Nat := 0
  losses : Nat := 0
  /-- stored records, by number, that an injected error has hit, with its syndrome (R392) -/
  hurt : List (Nat × Nat) := []
  /-- the same of records in the outboxes -/
  boxHurt : List (Ev × Nat) := []
deriving DecidableEq, Repr

/-- One Spool record in the writer's buffer (R346). -/
structure SpRec where
  seq : Nat
  kind : Nat
  flags : Nat
  src : Nat
  lt : Nat
  payload : List Byte
deriving DecidableEq, Repr

/-- The Spool writer (R346 to R348); pointers and states are registers of MSG. -/
structure Spool where
  buf : List SpRec := []
  next : Nat := 0
  /-- numbers of the valid records in the ring, oldest first -/
  ring : List Nat := []
  /-- bytes written since the freeze marker -/
  sinceTrig : Nat := 0
  /-- records of the buffer, by number, that an injected error has hit, with its syndrome (R392) -/
  hurt : List (Nat × Nat) := []
deriving DecidableEq, Repr

/-- The start-up sequencer's place (R58 to R71). -/
inductive BootPhase where
  | off | waitPg | waitFio | waitRefclk | waitHost | waitPmic | rails | started | halted
deriving DecidableEq, Repr

/-- What keeps FAULT_N asserted. -/
inductive FaultCause where
  | flash | pg | fio | degraded | env | rail | selftestSC | selftestTT | load | dram | safety | wake | pll | dieCrit
deriving DecidableEq, Repr

/-- Start-up (R58 to R75). -/
structure Boot where
  phase : BootPhase := .off
  /-- model time of t = 0 (R58) -/
  t0 : Nat := 0
  pgTries : Nat := 0
  fioTries : Nat := 0
  railStep : Nat := 0
  fwStarted : Bool := false
  /-- events held by the boot ROM (R63) -/
  held : List Ev := []
  refclk : Bool := false
  /-- PLLs locked: SYS, PIX, BE, TIME, ZTL, DDR -/
  pll : List Bool := [false, false, false, false, false, false]
  pllTries : List Nat := [0, 0, 0, 0, 0, 0]
  dramTries : Nat := 0
  /-- densities found on the two DRAM channels, MiB (R49) -/
  dramMib : Nat × Nat := (0, 0)
  /-- self-tests passed by SC, by Tether, and those that have reported -/
  scPass : Bool := false
  ttPass : Bool := false
  scRun : Bool := false
  ttRun : Bool := false
  /-- start-up switch-test steps done per tile (0 to 4), tiles that failed, and tiles whose tests have passed and whose
  switches wait to be closed -/
  swStep : List Nat := [0, 0, 0, 0]
  swFail : List Bool := [false, false, false, false]
  swDue : List Bool := [false, false, false, false]
  mapTries : List Nat := [0, 0, 0, 0]
  mapOk : List Bool := [false, false, false, false]
  mapFail : List Bool := [false, false, false, false]
  /-- handover in progress per tile: 0 none, 1 fallback command sent, 2 acknowledged, 3 full beam, 4 held by a violation -/
  handover : List Nat := [0, 0, 0, 0]
  done : Bool := false
  /-- PMIC_EN, the model time at which it rises again (R60); internal reset is released: PORST_N is high and the FIO has been found in
  its band (R59, R61); rails of the BOARD sequence that are on -/
  pmicEn : Bool := false
  pmicAt : Option Nat := none
  porst : Bool := false
  railsOn : List Nat := []
  /-- the start is a warm wake from DEEP_SLEEP (R73); without REFCLK, the STATE that returns once it is found (R64) -/
  warm : Bool := false
  /-- the data plane's part of that wake is still to come (R73) -/
  warmDue : Bool := false
  resume : Option Nat := none
  /-- the always-on domain is out of reset (R431) -/
  aon : Bool := true
deriving DecidableEq, Repr

/-- OTP (R41 to R44): per slot the key hash and the revocation fuse, the rollback counter, WRAP_DISABLE. -/
structure Otp where
  keys : List (Option (List Byte)) := [none, none, none, none]
  revoked : List Bool := [false, false, false, false]
  rollback : Nat := 0
  wrapDisable : Bool := false
  wraps : Nat := 0
deriving DecidableEq, Repr

/-- A bit-stream source in the xSPI flash: the file's bytes and the reading of its payloads. -/
structure Flash where
  bytes : List Byte := []
  contents : List Content := []
deriving DecidableEq, Repr

/-- The contents in force: what the applied and installed sections declare. -/
structure LampCfg where
  st : StructureC := {}
  bd : BoardC := {}
  sf : SafetyC := {}
  pw : PowerC := {}
  ti : TimeC := {}
  ho : HostC := {}
  pj : ProjectionC := {}
  rt : SafetyRtC := {}
  sc : List SchedEntry := []
  be : List (Nat × BeprogC) := []
  li : List (Nat × LibraryC) := []
deriving DecidableEq, Repr

/-- One section-table entry (R36). -/
structure SecEntry where
  typ : Nat
  inst : Nat
  sflags : Nat
  offset : Nat
  length : Nat
  crc : Nat
  hash : List Byte
  nonce : List Byte
  aad : List Byte
deriving DecidableEq, Repr

/-- A source under load: its bytes, header and table, and the reading of its payloads. -/
structure LoadImg where
  bytes : List Byte := []
  table : List SecEntry := []
  contents : List Content := []
  /-- flags, key slot, security version, build and lamp identifiers of the header -/
  flags : Nat := 0
  keySlot : Nat := 0
  secVersion : Nat := 0
  build : Nat := 0
  lampId : Nat := 0
deriving DecidableEq, Repr

/-- The bit-stream loader (R45 to R57). -/
structure Loader where
  flashA : Flash := {}
  flashB : Flash := {}
  /-- the source whose phase 1 is applied -/
  img : LoadImg := {}
  cfg : LampCfg := {}
  /-- phases completed: 0 none, 1, 2 or 3 -/
  phase : Nat := 0
  failed : Bool := false
  /-- type, instance and HASH of every structural section applied -/
  applied : List (Nat × Nat × List Byte) := []
  lockmap : List (Nat × Nat) := []
  /-- the running bit-stream's SECURITY_VERSION and REVOKE_PERMIT -/
  revokePermit : Bool := false
  /-- the package verified for a runtime update -/
  pkg : Option LoadImg := none
  /-- bytes staged for a host push: how far they reach, and the bytes -/
  pushed : Nat := 0
  push : List (Nat × Byte) := []
  /-- type and instance of every runtime section installed; model time at which the copy of a package completed -/
  installed : List (Nat × Nat) := []
  armedAt : Nat := 0
deriving DecidableEq, Repr

/-- One time domain (R299): offset in 2^-32 ns, increment, base, and the model time of the last update. -/
structure Dom where
  offset : Nat := 0
  incr : Nat := 0x140000000
  base : Nat := 0
  updated : Option Nat := none
  /-- the hold limit has passed since that update (R304) -/
  stale : Bool := false
deriving DecidableEq, Repr

/-- A gPTP instance as its lamp-time domain knows it (R307, R308): good Sync exchanges in a row, the link delay measured
the Sync interval asked for, the stamp of the latest Sync message, and of a two-step one that waits for its follow-up. -/
structure GptpSt where
  good : Nat := 0
  delayNs : Nat := 0
  interval : Int := -3
  last : Option Nat := none
  wait : Option Nat := none
deriving DecidableEq, Repr

/-- A schedule entry as armed (R312); `target` in ns. -/
structure SchedE where
  mode : Nat
  late : Nat
  action : Nat
  arg : Word
  period : Nat
  lo : Nat
  target : Nat
  /-- FRAME: the first transfer frame that may match, and the run of the generators that it belongs to -/
  seen : Nat × Nat := (0, 0)
deriving DecidableEq, Repr

/-- The time unit's counters (R298 to R303). -/
structure TimeU where
  /-- model time in ticks of 1.25 ns, always counting (log 4) -/
  now : Nat := 0
  frc : Nat := 0
  frcRun : Bool := false
  dom0 : Dom := {}
  dom1 : Dom := {}
  /-- the residual R in 2^-32 ns / 20000, so that a slew of 50 ppm is exact -/
  resid : Int := 0
  gptp : List GptpSt := [{}, {}]
  /-- per Ethernet port: the transmit stamp of the link-delay request that is not answered yet (R307) -/
  pdelay : List (Option Nat) := [none, none]
  /-- the number of each port's next link-delay request -/
  pdelaySeq : List Nat := [0, 0]
  /-- entries armed, by number -/
  sched : List (Nat × Option SchedE) := []
  /-- model time at which the pulse on each trigger pin ends -/
  trgEnd : List (Option Nat) := [none, none]
  /-- per capture pin: stamps queued (rising, lamp time), the stamp held, the FRC of the last accepted edge -/
  capQ : List (List (Bool × Nat)) := [[], []]
  capHold : List Nat := [0, 0]
  capLast : List (Option Nat) := [none, none]
deriving DecidableEq, Repr

/-- The staleness stamps of the hold-last-value registers (R13). -/
structure Hlv where
  /-- FRC of the last write by HK, per input: derate, temperature, cap -/
  stamp : List Nat := [0, 0, 0]
  /-- default in force from the last light-frame boundary -/
  applied : List Bool := [false, false, false]
  /-- block temperatures frozen when TEMP went stale -/
  frozen : List (Nat × Word) := []
deriving DecidableEq, Repr

/-- The management cores' load (R16): consecutive windows above 90 %, below 70 %. -/
structure McLoad where
  hi : Nat := 0
  lo : Nat := 0
  /-- model time from which SC counts the 100 ms without a heartbeat -/
  beat : Nat := 0
deriving DecidableEq, Repr

/-- Memory integrity (R384 to R392). -/
structure Ecc where
  /-- the syndrome that each stored word would show, by system-map word address; unlisted words have none -/
  synd : List (Nat × Nat) := []
  /-- the last 16 distinct corrected words, newest first, with their lamp time in ns (R390) -/
  recent : List (Nat × Nat) := []
  /-- corrected errors per region since the region's last CE event (R398) -/
  since : List Nat := [0, 0, 0, 0, 0, 0, 0, 0, 0, 0, 0]
  /-- the scrubber's next word (R388) -/
  scrubAt : Nat := 0
  /-- words with an error in the safety channels' memories: the region, 8 or 9, and the syndrome (R387, R392) -/
  hid : List (Nat × Nat) := []
deriving DecidableEq, Repr

/-- A record as a mailbox slot holds it (R96): its slot, arrival time, opcode and payload. -/
structure SlotRec where
  slot : Nat
  arrival : Nat
  opcode : Nat
  payload : List Byte
deriving DecidableEq, Repr

/-- A queued DMA descriptor (R89); `mute` once R94 holds its fence back. -/
structure Desc where
  src : Nat
  dst : Nat
  width : Nat
  height : Nat
  srcStride : Nat
  dstStride : Nat
  toSys : Bool
  sig : Bool
  fence : Nat
  mute : Bool := false
deriving DecidableEq, Repr

/-- What an engine waits on (`BE_n.STATUS.WAIT_ON`). -/
inductive KWait where
  | none
  | fwait (fence : Nat) (target : Word)
  | mbrecv (d : Nat)
  | dmawait (mask : Nat)
  | dmaq (ch : Nat) (x : Desc)
  | fsig (fence : Nat)
  | halt
deriving DecidableEq, Repr

/-- The 32 lanes of a vector register (R77). -/
abbrev Lanes := Vector Half 32

/-- A beam engine (R77 to R107) beside its registers of BE_n; its memories are part of `State.mem`. -/
structure Engine where
  /-- S1 to S31, V0 to V31, P1 to P7; unlisted registers read 0 -/
  sr : List (Nat × Word) := []
  vr : List (Nat × Lanes) := []
  pr : List (Nat × Word) := []
  pc : Nat := 0
  rx : Half := 0
  ry : Half := 0
  ltHi : Word := 0
  jobSrc : Nat := 0
  jobArg : Word := 0
  /-- source of the pending trigger, and the lamp time at which it came -/
  pendSrc : Nat := 0
  pendLt : Nat := 0
  /-- the program loaded, and the one that loads before the next job starts (R104) -/
  prog : Option BeprogC := Option.none
  next : Option BeprogC := Option.none
  /-- BE cycle of the job at which the next instruction may issue, and when each register is ready (R83) -/
  cycle : Nat := 0
  ready : List (Nat × Nat) := []
  wait : KWait := .none
  /-- model time up to which the cycles of the wait in progress are counted -/
  waitFrom : Nat := 0
  /-- model time at which the wait and the job began, later by what the BE clock has stood still since (R103) -/
  limFrom : Nat := 0
  jobFrom : Nat := 0
  ch0 : List Desc := []
  ch1 : List Desc := []
  /-- no fence is signalled (R94) -/
  mute : Bool := false
  /-- mailbox slots in arrival order; true once MBRECV has returned them (R96) -/
  slots : List (Nat × Bool) := []
  /-- the exception that takes effect once DMA in flight has completed (R100) -/
  trap : Option Nat := Option.none
  lastFault : Option Nat := Option.none
  /-- faulted again within 1 s (R102) -/
  lost : Bool := false
  /-- lamp time of the job's trigger, ns, and at which the job started, and the transfer frame last latched then -/
  trigLt : Nat := 0
  jobLt : Nat := 0
  jobFrame : Nat := 0xFFFFFFFF
  /-- records that the job of a supplied program has drained from the mailbox (R111) -/
  taken : List SlotRec := []
deriving DecidableEq, Repr

/-- A projection slot (R116): its 24-byte entry, the lamp time from which it shows and at which it began to fade out. -/
structure SymSlot where
  entry : List Byte
  since : Nat
  fade : Option Nat := Option.none
deriving DecidableEq, Repr

/-- What a supplied program of chapter 5 keeps from job to job: payloads of the pose and the list held, the mask parameters,
whether the blind mask shows and the pose is stale and since when, inputs discarded, symbol slots, pattern slots (their payloads), the
next snapshot of each tile, the lamp time at which it was paused, the flip target last used. -/
structure ProgMem where
  pose : Option (List Byte) := Option.none
  list : Option (List Byte) := Option.none
  par : Option (List Nat) := Option.none
  blind : Bool := false
  poseOld : Bool := false
  poseAt : Option Nat := Option.none
  old : Nat := 0
  syms : List (Nat × SymSlot) := []
  pats : List (Nat × List Byte) := []
  snaps : List (Nat × Nat) := []
  paused : Option Nat := Option.none
  target : Word := 0
deriving DecidableEq, Repr

/-- A committed flip (R147): layer mask, descriptors by layer, order word, fence and target if it waits, sequence. -/
structure Flip where
  mask : Nat
  descs : List (Nat × List Word)
  order : Word
  fence : Option Nat
  target : Word
  seq : Nat
deriving DecidableEq, Repr

/-- What crosses from SYS to the latch arbiter (R19, R150). -/
inductive Cross where
  | flip (g : Nat) (f : Flip)
  | inc (k : Nat) (n : Word)
deriving DecidableEq, Repr

/-- A capture writer's frame in progress (R138 to R140). -/
structure CapW where
  /-- a frame start has opened the frame; `skip` while it is dropped -/
  started : Bool := false
  skip : Bool := false
  buf : Nat := 0
  rows : Nat := 0
  lenBad : Bool := false
  bytes : Nat := 0
  err : Bool := false
  /-- the next frame's number -/
  next : Nat := 0
deriving DecidableEq, Repr

/-- Composition (R127 to R160) beside its registers. -/
structure Comp where
  /-- flips the arbiter holds, per group; the last latched order per group; the descriptor of each layer's last flip -/
  pend : List (Nat × Flip) := []
  order : List (Nat × Word) := []
  desc : List (Nat × List Word) := []
  /-- commits and fence increments on their way, oldest first, with their model time -/
  flight : List (Nat × Cross) := []
  /-- fence values as the arbiter holds them -/
  arb : List (Nat × Word) := []
  /-- per pipeline: the next row to compose, and the layers whose frame is torn -/
  row : List (Nat × Nat) := []
  /-- per pipeline: the layers it composes in the frame it sends, in order, with their descriptors -/
  snap : List (Nat × List (Nat × List Word)) := []
  tore : List (Nat × Nat) := []
  /-- (pipeline, layer), base: where the first lines of the layer in the frame in progress were fetched from (R157) -/
  bases : List ((Nat × Nat) × Nat) := []
  /-- (pipeline, layer): layers that the pipeline does not show in the frame it sends, for want of line buffer (R143) -/
  skips : List (Nat × Nat) := []
  /-- (pipeline, layer), line, base: the lines before it were fetched from that base (R157) -/
  cuts : List ((Nat × Nat) × (Nat × Nat)) := []
  capw : List (Nat × CapW) := []
deriving DecidableEq, Repr

/-- One drive-code row of Press: the codes, what each pixel's range state becomes (0 kept, else 1 + r), the pixels
limited, and the row's load (R165, R168, R170). -/
structure DriveRow where
  y : Nat
  codes : List Nat
  ranges : List Nat
  sat : Nat
  load : Nat
deriving DecidableEq, Repr

/-- Press of one tile beside its registers (R161 to R189). -/
structure PressT where
  /-- the per-frame snapshot of R164, for transfer frame `frame` -/
  frame : Nat := 0
  cfg : Word := 0
  derate : List Nat := []
  temp : List Nat := []
  cap : Nat := 0
  /-- the active curve bank as latched -/
  bank : Nat := 0
  roiPos : List Word := []
  roiEnd : List Word := []
  roiExp : List Word := []
  /-- composed rows of the frame, oldest first; drive rows made; the output buffer of R180 -/
  beam : List (List Nat) := []
  made : Nat := 0
  out : List DriveRow := []
  /-- rows sent in the frame, and rows replaced by ROW_CARRY -/
  sent : List DriveRow := []
  carried : List Nat := []
  /-- range states by pixel: 0 invalid, else 1 + r -/
  range : List (Nat × Nat) := []
  /-- pixels that wait for a reload (R179) -/
  reload : List Nat := []
  /-- the update list: base, entries, next entry -/
  updBase : Nat := 0
  updLen : Nat := 0
  updNext : Nat := 0
  /-- records limited in the sweep in progress -/
  limited : Nat := 0
  /-- drive intervals of the light frames ended since the last snapshot, ns, and how many light frames, from the one lit, the last
  snapshot has counted already -/
  span : Nat := 0
  spanSkip : Nat := 0
  /-- the snapshot in progress -/
  snapOn : Bool := false
deriving DecidableEq, Repr

/-- A record of the beam recorder's ring. -/
structure RecEnt where
  off : Nat
  len : Nat
  seq : Nat
  swap : Nat
deriving DecidableEq, Repr

/-- The beam recorder (R184 to R187). -/
structure RecSt where
  seq : Nat := 0
  ents : List RecEnt := []
  /-- tiles whose next record is marked TRIGGER, and whether REC_TRIG_PTR awaits it -/
  mark : List Nat := []
  ptr : Bool := false
deriving DecidableEq, Repr

/-- The transfer frame in progress, or sent and waiting for its swap (R195). -/
structure Xfer where
  frame : Nat
  /-- its latch point, lamp time in ns -/
  latch : Rat := 0
  opened : Bool := false
  ended : Bool := false
  next : Nat := 0
  /-- rows from this one on are carried (R206, R236) -/
  carryFrom : Nat := 512
  torn : Bool := false
  half : Bool := false
  /-- slots whose maps follow the rows; after the transfer, with their codes -/
  maps : List Nat := []
  codes : List (Nat × Nat) := []
  sel : Nat := 0
  /-- it shows a flip (R204); age, STATE, NEVER_FLIPPED and fallback of each layer as latched for it (R155) -/
  flip : Bool := false
  layers : List (Nat × Nat × Bool × Bool) := []
deriving DecidableEq, Repr

/-- A timing generator beside its registers (R190 to R210). Instants are lamp time in ns, exact. -/
structure Tg where
  /-- swap instant of the light frame now lit, and of the next one -/
  s : Rat := 0
  e : Rat := 0
  /-- drive interval of the light frame, ns -/
  d : Nat := 0
  /-- first transfer frame after START -/
  first : Nat := 0
  stop : Bool := false
  /-- START accepted and waiting for the map load (R255) -/
  startWait : Bool := false
  /-- START accepted and S_0 chosen (R201) -/
  accepted : Bool := false
  xfer : Option Xfer := none
  /-- slots that fire in the light frame, with their codes; those fired -/
  fire : List (Nat × Nat) := []
  fired : List Nat := []
  /-- a flip latched and not yet in a transfer frame (R204) -/
  flip : Bool := false
  delta : Rat := 0
  reph : Nat := 0
  torn : Bool := false
  /-- the guard interval carries a switch test pulse, the next one does; SENSE was sent or skipped in it -/
  pulse : Bool := false
  pulseNext : Bool := false
  sensed : Bool := false
deriving DecidableEq, Repr

/-- A staged timing set (R205). -/
structure Staged where
  pInt : Nat
  num : Nat
  den : Nat
  anchor : Nat
  drive : Nat
  guardT : Nat
  /-- per slot: enabled, offset, length -/
  slots : List (Bool × Nat × Nat)
  link : Nat
  useAnchor : Bool
  /-- model time of its commit (R150) -/
  at_ : Nat := 0
  /-- the light frame it applies to, once known -/
  frame : Option Nat := none
deriving DecidableEq, Repr

/-- What the timing generators share. -/
structure LampTg where
  anchor : Rat := 0
  staged : Option Staged := none
  /-- the transfer frame last latched, and its latch point, lamp time in ns -/
  frame : Nat := 0xFFFFFFFF
  latched : Bool := false
  latchAt : Rat := 0
  /-- fence values of the arbiter at the last latch point (R197) -/
  fences : List Word := []
  /-- slots armed by SLOT_FIRE (R317) -/
  armed : List Nat := []
  /-- starts of a generator while none ran, and of each generator: they tell light frames of the same number apart (R209) -/
  runs : Nat := 0
  starts : List Nat := [0, 0, 0, 0]
deriving DecidableEq, Repr

/-- What leaves on the lanes of a port: control words, and the data words of a stripe. -/
inductive Tx where
  | ctl (w : BitVec 64)
  | data (stripe : Nat) (ws : List (BitVec 64))
deriving DecidableEq, Repr

/-- A lane word before it is scrambled: control word or data word, and its payload. -/
abbrev LaneWd := Bool × BitVec 64

/-- The transmitter of a data lane (R214, R215, R230): the last 58 line bits of payloads, the PRBS generator, the 66 line bits it
last sent (none: held at common mode with zero differential), and its phase relative to CK in steps. -/
structure LaneTx where
  scr : BitVec 58 := 0
  prbs : BitVec 31 := 0x7FFFFFFF#31
  out : Option (BitVec 66) := none
  phase : Nat := 0
deriving DecidableEq, Repr

/-- A row slot, a map row, or inserted words in the idle stream (R219 to R222), as the lanes still have to send it: inserted words
that come next, the words of stripe 0 for device lane `l0` and of stripe 1 for `l1` (3 none), the slack words left. -/
structure LaneSlot where
  ins : List (BitVec 64) := []
  a : List LaneWd := []
  b : List LaneWd := []
  l0 : Nat := 3
  l1 : Nat := 3
  slack : Nat := 0
deriving DecidableEq, Repr

/-- The receiver of BK (R224): block lock, valid words in a row while it hunts, the bits of the candidate word, which of the last 64
words in lock were invalid (newest first), the 58 line bits before the candidate word. -/
structure BkRx where
  lock : Bool := false
  good : Nat := 0
  buf : List Bool := []
  bad : List Bool := []
  hist : BitVec 58 := 0
deriving DecidableEq, Repr

/-- A capability record (R262). -/
structure Caps where
  vendor : Nat
  typ : Nat
  tileId : Nat
  spares : Bool
  auth : Bool
  fbPatterns : Nat
  sensors : Nat
  iUnit : Nat
  tFixed : Nat
  tReady : Nat
  tSense : Nat
  nSenseI : Nat
  /-- VF_LSB in µV, VF_BASE in mV -/
  vfLsb : Nat
  vfBase : Nat
  ratedLife : Nat
  mapSize : Nat
  mapCrc : Nat
  nvMin : Int
  nvMax : Int
deriving DecidableEq, Repr

/-- A lane's calibration in progress (R229, R231). -/
structure Cal where
  lane : Nat
  /-- the phase under test, or the index of the coarse step -/
  phase : Nat := 0
  oks : List Bool := []
  /-- centre and width of the first scan of the pair -/
  first : Option (Nat × Nat) := none
  again : Bool := false
  /-- coarse scan: CTLE code under test, best code and width -/
  coarse : Option (Nat × Nat × Nat) := none
  ctle : Nat := 0
deriving DecidableEq, Repr

/-- A recalibration step (R233): its place in the rotation, its lane, whether its stripe moved, the new values. -/
structure Recal where
  role : Nat
  lane : Nat
  moved : Bool := false
  result : Option (Nat × Nat × Nat) := none
  /-- its calibration has ended; the values have taken effect -/
  ended : Bool := false
  applied : Bool := false
deriving DecidableEq, Repr

/-- A life-record sequence (R266, R267): 0 none, 1 begun, 2 written, 3 committed. -/
structure NvSeq where
  words : List Word
  seq : Nat
  stage : Nat := 0
deriving DecidableEq, Repr

/-- A checker of a PRBS pattern (R231, R240): the generator in step with the bits received, how many of them it has taken up, to its
length, and how many of the bits since differ from it. -/
structure BkChk where
  gen : BitVec 31 := 0
  seen : Nat := 0
  errs : Nat := 0
deriving DecidableEq, Repr

/-- A tile port beside its registers (R211 to R271). -/
structure Port where
  /-- what the port has been given to send, newest first -/
  tx : List Tx := []
  /-- the forwarded clock: stopped, or running with this polarity inverted or not (R212, R238); the transmitters of the data lanes;
  what waits for them -/
  ck : Option Bool := none
  lanes : List LaneTx := [{}, {}, {}]
  slots : List LaneSlot := []
  /-- the back-lane receiver -/
  bk : BkRx := {}
  /-- TRAIN BK_PRBS of R231: requests sent and when the next one goes; a BK recalibration: when its pause ends (R233) -/
  bkTry : Option (Nat × Nat) := none
  /-- the errors of each trial that has ended, and the code in use before the trials; the checker of BK -/
  bkErrs : List Nat := []
  bkOld : Nat := 0
  chk : BkChk := {}
  bkUntil : Option Nat := none
  /-- the spare's margin window: its start and its part: 0 centre, 1 centre + OFFSET, 2 centre − OFFSET (R232) -/
  margin : Option (Nat × Nat) := none
  /-- lanes in the order in which they became READY (R235) -/
  readyOrd : List Nat := []
  /-- failed attempts of the series; capability requests repeated -/
  tries : Nat := 0
  capsTries : Nat := 0
  /-- device data lanes, as masks: trained, locked (last LINK_STATUS) -/
  trained : Nat := 0
  locked : Nat := 0
  cals : List Cal := []
  /-- lanes that failed TRAIN or LOCK of the attempt -/
  caps : Option Caps := none
  /-- record refused: no further attempts (R228) -/
  refused : Bool := false
  rot : Nat := 0
  recal : Option Recal := none
  /-- the spare's error count at centre was non-zero in the last window -/
  spareErr : Bool := false
  /-- LINK_STATUS: discards and whether one was received since ACTIVE -/
  discards : Nat := 0
  /-- selection toggles by span (16 × row + span): unconfirmed, and those that went with a frame -/
  toggles : List (Nat × Nat) := []
  flown : List (Nat × List (Nat × Nat)) := []
  /-- toggles of a held frame go with the next one -/
  resend : Bool := false
  /-- SWAPs that wait for their SWAP_ACK: frame bits -/
  acks : List Nat := []
  /-- map load of R255: 0 none, 1 SEL_CLEAR sent, 2 SEL_LOAD_END sent, 3 loaded, 4 refused; tries -/
  selStage : Nat := 0
  selTries : Nat := 0
  /-- fallback: the pin, the command as the device knows it; tag of a command waiting for its ACK -/
  fbPin : Bool := false
  fbCmd : Bool := false
  fbTag : Nat := 0
  fbWait : Bool := false
  /-- TREG operation in progress: address, write -/
  treg : Option (Nat × Bool) := none
  nv : Option NvSeq := none
  /-- an NV read in progress: start, length, tag, tries; those that follow -/
  nvRead : Option (Nat × Nat × Nat × Nat) := none
  nvQueue : List (Nat × Nat) := []
  /-- the life-record halves as read; the calibration map has been read since the port came up -/
  lifeA : List Byte := []
  lifeB : List Byte := []
  mapRead : Bool := false
  deferFrom : Option Nat := none
  /-- challenge of the authenticity check -/
  chal : Option (List Byte) := none
deriving DecidableEq, Repr

/-- A contact of a dual-channel input as one channel sees it (R368): last level, ticks it has been stable, accepted. -/
structure Contact where
  raw : Bool := false
  stable : Nat := 0
  acc : Bool := false
  /-- the accepted level has been confirmed by debounce once -/
  settled : Bool := false
deriving DecidableEq, Repr

/-- One channel's decision of one input (R369); `timer` counts ticks since the first contact changed. -/
structure SinCh where
  a : Contact := {}
  b : Contact := {}
  normal : Bool := false
  timer : Option Nat := none
  latched : Bool := false
deriving DecidableEq, Repr

/-- One actuator (R365 to R367): encoder counts of each channel from the reference, SC's own steps, their values at the
last speed window, the model time from which the two counts have differed. -/
structure Act where
  sc : Int := 0
  tt : Int := 0
  steps : Int := 0
  scWin : Int := 0
  ttWin : Int := 0
  differ : Option Nat := none
  homing : Nat := 0
  moving : Bool := false
  step : Bool := false
  dir : Bool := false
  /-- model time of the last step -/
  stepAt : Option Nat := none
deriving DecidableEq, Repr

/-- The latest POSE as SC holds it (R362): pitch in 0.001 deg, speed in 0.01 m/s, time in ns, angles valid. -/
structure PoseC where
  pitch : Int := 0
  speed : Nat := 0
  time : Nat := 0
  valid : Bool := false
deriving DecidableEq, Repr

/-- A frame-statistics record (R361) on its way to SC. -/
structure StatRec where
  frame : Nat
  /-- D and the slot lengths, ns -/
  drive : Nat := 0
  slotLens : List Nat := []
  /-- largest energy per column and band: index 64 × column + band -/
  bands : List Nat
  carry : List Nat
  /-- per layer: age, state, never flipped, fallback shown -/
  layers : List (Nat × Nat × Bool × Bool)
  mismatch : Nat
  invalid : Nat
  /-- the CRCs of the 16 regions -/
  crcs : List Word := []
deriving DecidableEq, Repr

/-- A baseline run (R277): the sweep of the run (0 to 3), running, and per emitter (kind × 262144 + pixel) the first and the second
result + 1. -/
structure BaseRun where
  step : Nat := 0
  on : Bool := false
  first : List (Nat × Nat) := []
  second : List (Nat × Nat) := []
deriving DecidableEq, Repr

/-- One sensed chunk: light frame, chunk, kind, sweep, how many sweeps of the kind came before it, its place in a baseline run,
whether the sweep is one that the schedule started; its results, unless unmeasured; it is to be sensed again (R275). -/
structure SenseIn where
  frame : Nat
  chunk : Nat
  kind : Nat
  sweep : Nat
  kindNo : Nat := 0
  step : Option Nat := none
  one : Bool := false
  res : Option (List Nat) := none
  again : Bool := false
deriving DecidableEq, Repr

/-- A block's medians (R276): kind × 256 + block, the sweep of its kind, its median there and in the sweep of the kind before. -/
structure BlockMed where
  key : Nat
  kindNo : Nat
  med : Int
  prev : Option Int := none
deriving DecidableEq, Repr

/-- HEALTH per tile (R273 to R294) beside its registers and its tables in DRAM. Emitters are kind × 262144 + pixel. -/
structure HealthT where
  /-- the capability record last accepted on the port -/
  caps : Option Caps := none
  /-- sweeps completed, in all and of each kind -/
  sweep : Nat := 0
  kindNo : List Nat := [0, 0]
  /-- a SENSE sent and not answered; chunks for the health program -/
  await : Option SenseIn := none
  intake : List SenseIn := []
  /-- one full sweep started by the schedule runs (R316) -/
  oneSweep : Bool := false
  /-- latest code + 1 of each emitter (R124) -/
  latest : List (Nat × Nat) := []
  /-- block medians; offsets accepted (the sweep, its key, the offset) for the next sweep; blocks rejected in the sweep; the
  candidate list of the sweep -/
  med : List BlockMed := []
  nextOff : List (Nat × Nat × Int) := []
  rejects : List Nat := []
  cands : List Nat := []
  base : Option BaseRun := none
  /-- chunks in the class buffer that Darn has not seen: sweep, chunk, kind -/
  classed : Option (Nat × Nat × Nat) := none
  /-- candidate marks; failures to act on; P failures that wait for their spare; failures withheld by MASS_LIMIT; failures of the
  sweep in progress, and whether they are more than MASS_LIMIT -/
  marks : List Nat := []
  todo : List Nat := []
  wait : List Nat := []
  held : List Nat := []
  new : List Nat := []
  mass : Bool := false
  /-- the sweep that `failed` and `groups` count, the failures confirmed and the groups submitted in it -/
  inSweep : Nat := 0
  failed : Nat := 0
  groups : Nat := 0
  /-- pixels of the list committed, with their substitutions; a commit to repeat; applied and not yet shown -/
  list : List (Nat × Bool) := []
  again : Bool := false
  flying : List Nat := []
  /-- the first transfer frame that shows them, if it is known -/
  flyFrame : Option Nat := none
  /-- lit time in ns: total, since the last full checkpoint, since the last delta -/
  litNs : Nat := 0
  ckNs : Nat := 0
  deltaNs : Nat := 0
  /-- a replaced tile's baseline is due -/
  fresh : Bool := false
  /-- its per-emitter accounts are in DRAM (R289, R294) -/
  accOk : Bool := false
  /-- pixels with a state entry in the life record, at most 4,096 (R291) -/
  lrPix : List Nat := []
  /-- full checkpoint in progress; newest sequence -/
  ckpt : Bool := false
  ckSeq : Nat := 0
  /-- accounts (block means in 64 µs units, by kind × 256 + block) of that checkpoint -/
  ckMean : List (Nat × Nat) := []
  /-- life record: seconds of link in ns, model time of the port's entry to ACTIVE, commits, hottest estimate ever, cuts,
  EOL flags, what is due: 0 nothing, 1 state change, 2 checkpoint or command; model time of the last commit and of the
  last state-driven write -/
  linkNs : Nat := 0
  linkFrom : Option Nat := none
  commits : Nat := 0
  tMax : Int := -32768
  cuts : Nat := 0
  eolFlags : Nat := 0
  lifeDue : Nat := 0
  lastCommit : Option Nat := none
  lastState : Option Nat := none
deriving DecidableEq, Repr

/-- Per tile of the safety plane. -/
structure SafeTile where
  hs : Bool := false
  ls : Bool := false
  /-- the read-backs, as SC and as Tether reads them -/
  hsFb : Bool := false
  lsFb : Bool := false
  hsFbT : Bool := false
  lsFbT : Bool := false
  /-- the causes of SS2 or SS3 have ended and the tile runs the switch tests of R66 before it leaves (R376) -/
  retest : Bool := false
  /-- Tether's tables: segment energies of the frame sent and of the frame displayed, by 8 × row + segment -/
  load : List (Nat × Nat) := []
  disp : List (Nat × Nat) := []
  /-- Tether found a violation in the transfer frame; SC's checks of its record passed -/
  ttBad : Bool := false
  scOk : Bool := false
  record : Option StatRec := none
  /-- band values of the frame displayed -/
  bands : List Nat := []
  bandsNext : List Nat := []
  missed : Bool := false
  roiLast : Nat := 0
  /-- rows reported damaged; the whole frame -/
  damage : List Nat := []
  damageAll : Bool := false
  /-- a FALLBACK for a safe state waits for its acknowledgement (R457) -/
  fbTimer : Bool := false
  /-- a switch test that waits for its guard interval, and one in progress: some true the high side (R372) -/
  due : Option Bool := none
  test : Option Bool := none
  /-- mask-layer age of the last record: frame and age -/
  maskSeen : Option (Nat × Nat) := none
deriving DecidableEq, Repr

/-- The safety plane (R354 to R383, R457). -/
structure Safe where
  /-- a stream cause holds SS1 (R364): since the last violation, model time; entries of the last 60 s per cause -/
  stream : Bool := false
  streamT : Nat := 0
  entries : List (Nat × List Nat) := []
  /-- event code of the cause last given -/
  code : Nat := 0
  /-- the mask written to ACK_SC and the model time of the write -/
  ack : Option (Nat × Nat) := none
  sinSc : List SinCh := [{}, {}, {}, {}]
  sinTt : List SinCh := [{}, {}, {}, {}]
  act : List Act := [{}, {}]
  pose : Option PoseC := none
  /-- the frame for which s_eff was last moved; PITCH_STALE was posted -/
  sFrame : Option Nat := none
  staleSaid : Bool := false
  /-- consent asked of SC (R10): model time -/
  consent : Option Nat := none
  /-- a channel has lost a word of its own memory (R387, regions 8 and 9) -/
  memLost : Bool := false
  /-- SC's and Tether's own copies of the phase-1 safety tables (R354) -/
  scTab : SafetyC := {}
  ttTab : SafetyC := {}
deriving DecidableEq, Repr

/-- A threshold of R420: rounds at or above, rounds at or below its release value, crossed. -/
structure Thr where
  up : Nat := 0
  down : Nat := 0
  crossed : Bool := false
deriving DecidableEq, Repr

/-- A tile sensor as Ballast judges it (R419): last reading, rounds without change, the model value when that began, rounds
of disagreement. -/
structure SensorSt where
  last : Option Rat := none
  same : Nat := 0
  from_ : Rat := 0
  big : Nat := 0
deriving DecidableEq, Repr

/-- Ballast (R415 to R424) beside the registers of HK. Temperatures in °C, exact; blocks by 256 × tile + block. -/
structure Hk where
  /-- FRC at the previous round -/
  prev : Option Nat := none
  temp : List (Nat × Rat) := []
  sub : List Rat := [0, 0, 0, 0]
  bias : List Rat := [0, 0, 0, 0]
  sensors : List (Nat × SensorSt) := []
  derate : List (Nat × Thr) := []
  cut : List (Nat × Thr) := []
  die140 : Thr := {}
  die150 : Thr := {}
  /-- the newest power table in µW, whether it has arrived since the previous round, TILE_LOAD when it was taken -/
  power : List (Nat × Nat) := []
  haveTable : Bool := false
  newTable : Bool := false
  loads : List Nat := [0, 0, 0, 0]
  /-- rounds without a table; tiles whose generator has run -/
  psum : Nat := 0
  ran : List Bool := [false, false, false, false]
  /-- rounds outside its window, per supply rail -/
  supplyBad : List (Nat × Nat) := []
  /-- the BE clock is halved -/
  beHalf : Bool := false
  /-- the firmware's: a delta entry is due (R288) -/
  deltaDue : Bool := false
deriving DecidableEq, Repr

/-- The power-state manager (R400 to R414) beside the registers of PWR. -/
structure Pwr where
  /-- tiles brought up after the entry in progress or ended, and DRAM_KEEP -/
  tiles : Nat := 0
  keep : Bool := false
  /-- the same of the pending request -/
  pendTiles : Nat := 0
  pendKeep : Bool := false
  /-- a wake event has come during the entry: its source -/
  wake : Option Nat := none
  /-- switches as they were before step 2: high side, low side per tile -/
  switches : List (Bool × Bool) := []
  /-- ports that step 4 turned off -/
  ports : List Nat := []
  /-- DRAM is in self-refresh; powered -/
  selfRefresh : Bool := false
  dramOn : Bool := true
  /-- the always-on wake timer's load in SLOW cycles; lamp state at entry to DEEP_SLEEP: FRC, model time -/
  timer : Option Nat := none
  frcAt : Nat := 0
  nowAt : Nat := 0
  /-- SLOW_PERIOD at that entry -/
  period : Nat := 0
  /-- tiles handed over directly to the full beam (R73, R408) -/
  direct : List Bool := [false, false, false, false]
  /-- model time at which the BE clock was gated last (R103) -/
  gateAt : Nat := 0
deriving DecidableEq, Repr

/-- A Holvo record (R333). -/
structure HRec where
  seq : Nat
  opcode : Nat
  flags : Nat
  ref : Nat
  payload : List Byte
deriving DecidableEq, Repr

/-- What an Ethernet MAC sends: a Holvo record, a link-delay request with its number, the two messages that answer one with the stamp,
its sender and its number, an answer to ARP, or one to an echo request. -/
inductive EthTx where
  | holvo (r : HRec)
  | pdelayReq (seq : Nat)
  | pdelayResp (t2 who seq : Nat)
  | pdelayFollow (t3 who seq : Nat)
  | arpReply (mac ip : Nat)
  | echoReply (mac ip : Nat) (data : List Byte)
deriving DecidableEq, Repr

/-- A MACsec association (R326): its key, and the next packet number to send or expected. -/
structure SecA where
  port : Nat
  tx : Bool
  assoc : Nat
  key : List Byte
  xpn : Bool
  ssci : Nat := 0
  salt : List Byte := []
  pn : Nat := 1
deriving DecidableEq, Repr

/-- A CAN controller's reading of LAMP_REQ (R330): counter and FALLBACK of its last valid frame. -/
structure CanSt where
  last : Option Nat := none
  prev : Option Bool := none
deriving DecidableEq, Repr

/-- The host links beside their registers (R325 to R338). -/
structure HostU where
  /-- sent on each Ethernet port, oldest first -/
  eth : List (Nat × EthTx) := []
  /-- the same as the frames' bytes, from the destination address to the end of the payload -/
  wire : List (Nat × List Byte) := []
  /-- the number of the next NTSCF frame of each port; the host that the last datagram of bench mode came from: its MAC and IP address and
  its UDP port, where the last records did not come over IEEE 1722 -/
  ntscf : List Nat := [0, 0]
  peer : List (Option (Nat × Nat × Nat)) := [none, none]
  /-- SPI input and reply mailboxes, oldest first; what the device sent in the last SPI frame -/
  mbox : List (List Byte) := []
  replies : List HRec := []
  miso : List Byte := []
  /-- 0xFF follows these bytes until chip select rises -/
  misoFill : Bool := false
  /-- firmware records waiting, with their channel -/
  fwq : List (Nat × HRec) := []
  can : List CanSt := [{}, {}]
  /-- LAMP_ALARM frames sent, by controller, with their identifiers; the alive counter -/
  alarms : List (Nat × CanId × List Byte) := []
  alive : Nat := 0
  secs : List SecA := []
  /-- when the packet errors of the last second fell, by CSI receiver -/
  csiErrs : List (List Nat) := [[], []]
deriving DecidableEq, Repr

/-- A check unit's job: the configuration copied at START, the bytes done and the CRC register after them (R394). -/
structure CrcJob where
  ctrl : Word
  poly : Word
  init : Word
  addr : Nat
  len : Nat
  done : Nat := 0
  crc : Nat := 0
deriving DecidableEq, Repr

/-- The debug port (R444): the challenge given, whether it has been answered, the instruction held. -/
structure Debug where
  chal : Option (List Byte) := none
  auth : Bool := false
  ir : Nat := 0
deriving DecidableEq, Repr

/-- The state of the block. -/
structure State where
  /-- commands waiting, first in first out -/
  pending : List Instr := []
  part : Part := .sz1240
  /-- silicon stepping: 0 A0, 1 B0 -/
  stepping : Nat := 1
  /-- the register file, by offset in the register space; unlisted registers hold their reset value -/
  regs : List (Nat × Word) := []
  /-- the memory of the system address map, by 40-bit address; unlisted bytes read zero (log 5) -/
  mem : List Host.Cell := []
  /-- free values drawn so far: the model's own field (log 3) -/
  draws : Nat := 0
  time : TimeU := {}
  boot : Boot := {}
  faultN : List FaultCause := []
  otp : Otp := {}
  loader : Loader := {}
  hamper : Hamper := {}
  spool : Spool := {}
  /-- when each rate-limited event was last posted (R56, R159, R352, R382, R398, R428): key, stamp + 1 -/
  posted : List (Nat × Nat) := []
  hlv : Hlv := {}
  mc : McLoad := {}
  ecc : Ecc := {}
  /-- the sixteen engines, by number -/
  be : List (Nat × Engine) := []
  /-- the supplied programs' memory, by engine -/
  progs : List (Nat × ProgMem) := []
  comp : Comp := {}
  /-- Press, timing generators and ports, by number -/
  press : List (Nat × PressT) := []
  tg : List (Nat × Tg) := []
  port : List (Nat × Port) := []
  lampTiming : LampTg := {}
  record : RecSt := {}
  /-- the two curve banks (R169), by curve × 33 + knot -/
  bank0 : List (Nat × Word) := []
  bank1 : List (Nat × Word) := []
  health : List (Nat × HealthT) := []
  /-- the account store in the xSPI flash (R287), by byte from its start; unlisted bytes read 0xFF -/
  store : List (Nat × Byte) := []
  /-- HEALTH_CFG in force (R123): DEV_SUSPECT, DEV_FAIL, NEIGH_DEV, HCFLAGS; the aging program is paused (R122) -/
  hcfg : Nat × Nat × Nat × Nat := (40, 150, 60, 3)
  agingPaused : Bool := false
  /-- the selection map held by HEALTH, by tile × 262144 + pixel: 0 P, 1 S -/
  sel : List (Nat × Nat) := []
  safe : Safe := {}
  safeTile : List (Nat × SafeTile) := []
  hk : Hk := {}
  pwr : Pwr := {}
  host : HostU := {}
  crc : List (Nat × Option CrcJob) := []
  debugPort : Debug := {}
  /-- wake sources of R406 that have acted while the device is not in RUN, oldest first, and the manager has not -/
  wakeDue : List Nat := []
  /-- the data of the last register read that a command makes -/
  rdata : Word := 0
deriving DecidableEq, Repr

/-- The block right after reset: registers at their reset values, memory with nothing listed, no command waiting. -/
def State.reset : State := {}

end Sys2Proof.Machine
end

