-- ==== Sys2Proof/Machine/LaneWord.lean ====
section
/-! DEFINITION. Lane words on the wire (R214 to R216, R219 to R224, R230): the scrambler and the descrambler, the PRBS patterns, a
transmitter of one data lane, the row slots and map rows that wait for the lanes, and the receiver of the back lane. -/

namespace Sys2Proof.Machine

/-! ### Checks of control words (R216) -/

/-- One bit of CRC-8 with polynomial 0x2F. -/
def crc8Bit (c : Nat) (b : Bool) : Nat :=
  let t := (2 * c) % 256
  if (c.testBit 7) != b then t ^^^ 0x2F else t

/-- The check of a control word over P[63:8] as 7 bytes, P[63:56] first (R216). -/
def ctlCheck (p : Nat) : Nat := ((List.range 56).foldl (fun c k => crc8Bit c (p.testBit (63 - k))) 0xFF) ^^^ 0xFF

/-- A control word of type `t`; `body` holds P[55:8] at those places. -/
def ctlWord (t body : Nat) : BitVec 64 :=
  let p := 2 ^ 56 * (t % 256) + 256 * bitsOf body 8 48
  BitVec.ofNat 64 (p + ctlCheck p)

/-- Does the check of a control word hold? -/
def ctlGood (w : BitVec 64) : Bool := ctlCheck w.toNat == w.toNat % 256

def ctlIDLE : Nat := 0x00

/-- IDLE. -/
def idleWord : LaneWd := (true, ctlWord ctlIDLE 0)

/-! ### The scrambler (R215) -/

/-- The history of a scrambler, its newest bit in bit 57, after one more bit on the line. -/
def histBit (h : BitVec 58) (b : Bool) : BitVec 58 := h.ushiftRight 1 ||| (if b then BitVec.ofNat 58 (2 ^ 57) else 0#58)

/-- One payload bit scrambled: s = d ⊕ s₋₃₉ ⊕ s₋₅₈. -/
def scrambleBit (h : BitVec 58) (d : Bool) : Bool := (d != h.getLsbD 19) != h.getLsbD 0

/-- The first `k` bits of payload `p`, P[0] first, as they leave the scrambler, and its history after them. -/
def scrambleUpTo (h : BitVec 58) (p : BitVec 64) : Nat → Nat × BitVec 58
  | 0 => (0, h)
  | k + 1 =>
    let (w, h) := scrambleUpTo h p k
    let b := scrambleBit h (p.getLsbD k)
    (w + if b then 2 ^ k else 0, histBit h b)

/-- A payload scrambled, and the history after it. -/
def scramble (h : BitVec 58) (p : BitVec 64) : BitVec 64 × BitVec 58 :=
  let (w, h) := scrambleUpTo h p 64
  (BitVec.ofNat 64 w, h)

/-- The history after a payload: its last 58 bits as they were on the line. -/
def histWord (w : BitVec 64) : BitVec 58 := (w.ushiftRight 6).setWidth 58

/-- A payload descrambled: `h` are the 58 line bits of payloads that came before it. -/
def descramble (h : BitVec 58) (w : BitVec 64) : BitVec 64 :=
  let line : BitVec 122 := (w.setWidth 122).shiftLeft 58 ||| h.setWidth 122
  ((line.ushiftRight 58) ^^^ (line.ushiftRight 19) ^^^ line).setWidth 64

/-! ### PRBS patterns (R230) -/

/-- Length, second tap and output inversion of patterns 0 to 3: PRBS7, 15, 23 and 31 (log 136). -/
def prbsTaps : Nat → Nat × Nat × Bool
  | 0 => (7, 6, false)
  | 1 => (15, 14, true)
  | 2 => (23, 18, true)
  | _ => (31, 28, true)

/-- The next bit of pattern `k`, and the generator after it; the newest bit of the generator is bit 0. -/
def prbsBit (k : Nat) (g : BitVec 31) : Bool × BitVec 31 :=
  let (m, t, inv) := prbsTaps k
  let b := g.getLsbD (m - 1) != g.getLsbD (t - 1)
  (b != inv, g.shiftLeft 1 ||| (if b then 1#31 else 0#31))

/-- The next `j` bits of pattern `k`, the first in bit 0. -/
def prbsBits (k : Nat) (g : BitVec 31) : Nat → Nat × BitVec 31
  | 0 => (0, g)
  | j + 1 =>
    let (w, g) := prbsBits k g j
    let (b, g) := prbsBit k g
    (w + (if b then 2 ^ j else 0), g)

/-- One bit received by a checker of pattern `k`: the first ones set its generator, and each that follows is held against it, which goes
on by itself (DESIGN CHOICE, log 177). -/
def BkChk.bit (k : Nat) (c : BkChk) (b : Bool) : BkChk :=
  let (m, _, inv) := prbsTaps k
  if c.seen < m then { c with gen := c.gen.shiftLeft 1 ||| (if b != inv then 1#31 else 0#31), seen := c.seen + 1 }
  else
    let (w, g) := prbsBit k c.gen
    { c with gen := g, errs := satAt 0xFFFFFFFF (c.errs + (w != b).toNat) }

/-! ### The transmitter of a data lane (R212, R214, R215) -/

/-- Header and payload as the 66 bits of a lane word, in the order of the line from bit 0; an inverted pair shows their complement. -/
def lineWord (ctl : Bool) (p : BitVec 64) (inv : Bool) : BitVec 66 :=
  let w : BitVec 66 := (p.setWidth 66).shiftLeft 2 ||| (if ctl then 1#66 else 2#66)
  if inv then ~~~w else w

/-- A control or data word leaves scrambled. -/
def LaneTx.put (l : LaneTx) (x : LaneWd) (inv : Bool) : LaneTx :=
  let (w, h) := scramble l.scr x.2
  { l with scr := h, out := some (lineWord x.1 w inv) }

/-- A PRBS word: a data word whose unscrambled payload is the pattern's next 64 bits; they enter the scrambler as sent. -/
def LaneTx.putPrbs (l : LaneTx) (k : Nat) (inv : Bool) : LaneTx :=
  let (w, g) := prbsBits k l.prbs 64
  let p := BitVec.ofNat 64 w
  { l with scr := histWord p, prbs := g, out := some (lineWord false p inv) }

/-- 66 bits of the pattern without framing (R240). -/
def LaneTx.putRaw (l : LaneTx) (k : Nat) (inv : Bool) : LaneTx :=
  let (w, g) := prbsBits k l.prbs 66
  let p := BitVec.ofNat 66 w
  { l with prbs := g, out := some (if inv then ~~~p else p) }

/-- The pair is held at common mode with zero differential (R238). -/
def LaneTx.hold (l : LaneTx) : LaneTx := { l with out := none }

/-! ### Row slots and map rows (R219 to R222) -/

/-- What a slot sends on lane `d` at its next lane word: an inserted word on every lane that carries a stripe of the slot or, by
LANE_MAP, will carry one (`carry`); else the next word of the lane's stripe, or a slack IDLE. -/
def LaneSlot.word (x : LaneSlot) (carry : List Nat) (d : Nat) : Option LaneWd :=
  match x.ins with
  | w :: _ => if d = x.l0 ∨ d = x.l1 ∨ carry.contains d then some (true, w) else none
  | [] => if d = x.l0 then some (x.a.headD idleWord) else if d = x.l1 then some (x.b.headD idleWord) else none

/-- The slot after that word. -/
def LaneSlot.rest (x : LaneSlot) : LaneSlot :=
  match x.ins with
  | _ :: t => { x with ins := t }
  | [] => if x.a.isEmpty && x.b.isEmpty then { x with slack := x.slack - 1 } else { x with a := x.a.drop 1, b := x.b.drop 1 }

/-- Has the slot sent everything? -/
def LaneSlot.over (x : LaneSlot) : Bool := x.ins.isEmpty && x.a.isEmpty && x.b.isEmpty && x.slack == 0

/-- The slots after one lane word. -/
def slotsRest : List LaneSlot → List LaneSlot
  | [] => []
  | x :: t => if x.rest.over then t else x.rest :: t

/-- Is the word a timed command for which R222 always has a slack word: FRAME_START, SWAP, SLOT or SENSE? -/
def timedWord (w : BitVec 64) : Bool := decide (0x22 ≤ bitsOf w.toNat 56 8) && decide (bitsOf w.toNat 56 8 ≤ 0x25)

/-- Timed words go before the others. -/
def insIn (w : BitVec 64) (l : List (BitVec 64)) : List (BitVec 64) :=
  if timedWord w then l.takeWhile timedWord ++ w :: l.dropWhile timedWord else l ++ [w]

/-- Does nothing stand in the slot but inserted words: a part of the idle stream? -/
def LaneSlot.idle (x : LaneSlot) : Bool := x.a.isEmpty && x.b.isEmpty && x.slack == 0 && x.l0 == 3

/-- A control word takes a slack word of the first slot that has one left, or stands in the idle stream after the slots. A timed command
finds its place at once: before the idle stream's other words, or where another word that waits gives way to it (R222, log 191). -/
def slotsInsert (w : BitVec 64) : List LaneSlot → List LaneSlot
  | [] => [{ ins := [w] }]
  | x :: t =>
    if 0 < x.slack then { x with ins := insIn w x.ins, slack := x.slack - 1 } :: t
    else if timedWord w = false ∨ x.ins.all timedWord then x :: slotsInsert w t
    else if x.idle then { ins := [w] } :: x :: t
    else { x with ins := insIn w x.ins.dropLast } :: slotsInsert (x.ins.getLastD 0#64) t

/-- A row slot or map row joins the slots: words that still wait for a slack word take its own, in their order (R222, R242). -/
def slotsPush (x : LaneSlot) (l : List LaneSlot) : List LaneSlot :=
  let waits := (l.reverse.takeWhile LaneSlot.idle).reverse
  let ws := waits.flatMap LaneSlot.ins
  l.take (l.length - waits.length) ++ { x with ins := ws.take x.slack ++ x.ins, slack := x.slack - ws.length }
    :: (ws.drop x.slack).map (fun w => { ins := [w] })

/-- A slot of the words `a` and `b` of the two stripes on lanes `l0` and `l1`, with `slack` slack words on each; one lane that
carries both sends `a` and then `b` (R220). -/
def LaneSlot.of (l0 l1 : Nat) (a b : List LaneWd) (slack : Nat) : LaneSlot :=
  if l0 = l1 then { l0 := l0, l1 := l1, a := a ++ b, slack := 2 * slack } else { l0 := l0, l1 := l1, a := a, b := b, slack := slack }

/-! ### The back-lane receiver (R214 to R216, R224) -/

/-- What one more line bit completes: nothing, an invalid header in lock, or a word in lock. -/
inductive BkOut where
  | part
  | bad
  | word (ctl : Bool) (p : BitVec 64)
deriving DecidableEq, Repr

/-- Line bits, the first in bit 0. -/
def ofBits : List Bool → Nat
  | [] => 0
  | b :: t => b.toNat + 2 * ofBits t

/-- In lock: of any 64 consecutive words, 16 invalid ones lose it, and the hunt starts again. -/
def BkRx.locked (r : BkRx) (valid : Bool) (h : BitVec 58) : BkRx :=
  let bad := ((!valid) :: r.bad).take 64
  if 16 ≤ bad.count true then { hist := h } else { r with hist := h, buf := [], bad := bad }

/-- While hunting: an invalid header slips one bit, 64 consecutive valid ones are lock. -/
def BkRx.hunt (r : BkRx) (buf : List Bool) (valid : Bool) (h : BitVec 58) : BkRx :=
  if valid = false then { r with hist := histBit r.hist (buf.headD false), buf := buf.drop 1, good := 0 }
  else { hist := h, good := (r.good + 1) % 64, lock := decide (r.good = 63) }

/-- One line bit. `hist` holds the 58 line bits before the candidate word, which at a true boundary are payload bits. -/
def BkRx.bit (r : BkRx) (b : Bool) : BkRx × BkOut :=
  let buf := r.buf ++ [b]
  if buf.length < 66 then ({ r with buf := buf }, .part)
  else
    let raw := BitVec.ofNat 64 (ofBits (buf.drop 2))
    let p := descramble r.hist raw
    let ctl := buf.getD 0 false
    let valid := (ctl != buf.getD 1 false) && (!ctl || ctlGood p)
    if r.lock then (r.locked valid (histWord raw), if valid then .word ctl p else .bad)
    else (r.hunt buf valid (histWord raw), .part)

/-- The bits of a lane word on the line, the first one first. -/
def lineBits (w : BitVec 66) : List Bool := (List.range 66).map (fun k => w.getLsbD k)

end Sys2Proof.Machine
end

