-- ==== Sys2Proof/Config.lean ====
section
/-! DEFINITION. What an implementation fixes and the spec leaves open. Every constant here is opaque: no proof can see
its value, so what is proved holds for every value (assumption log 3). -/

namespace Sys2Proof

/-- A fresh free value for each draw of `State.draws`: what the spec leaves open although the device goes on. -/
opaque Config.freeWord : Nat → BitVec 32

/-- The device-unique key of R43. -/
opaque Config.deviceKey : BitVec 256

/-- The nonce of the k-th WRAP (R43 gives its length only). -/
opaque Config.wrapNonce : Nat → BitVec 96

end Sys2Proof
end

