-- ==== Sys2Proof/Machine/Crypto.lean ====
section
/-! DEFINITION. The check values and the ciphers the spec names: the CRC family of R37, R216 and R394, SHA-256
(FIPS 180-4), AES-GCM (SP 800-38D) and the verification of ECDSA P-256 (FIPS 186-4), as R35, R41 to R43 and R326 use them.
The spec names these standards and does not repeat them; their text is the model's source here (log 8, PRESUMED). -/

namespace Sys2Proof.Machine

/-! ### CRCs -/

/-- The low `w` bits of `v` in reverse order. -/
def revBits (v : Nat) : Nat → Nat
  | 0 => 0
  | w + 1 => v % 2 * 2 ^ w + revBits (v / 2) w

/-- `k` shift steps of a most-significant-first CRC register of `w` bits. -/
def crcShift (w poly : Nat) (c : Nat) : Nat → Nat
  | 0 => c
  | k + 1 =>
    crcShift w poly (if c / 2 ^ (w - 1) % 2 = 1 then ((c * 2) % 2 ^ w) ^^^ poly else (c * 2) % 2 ^ w) k

/-- One byte into the CRC register; `refin` feeds its least significant bit first. -/
def crcByte (w poly : Nat) (refin : Bool) (c : Nat) (b : Byte) : Nat :=
  let v := if refin then revBits b.toNat 8 else b.toNat
  crcShift w poly (c ^^^ (v * 2 ^ (w - 8))) 8

/-- A CRC over bytes from a running register value. -/
def crcRun (w poly : Nat) (refin : Bool) : Nat → List Byte → Nat
  | c, [] => c
  | c, b :: t => crcRun w poly refin (crcByte w poly refin c b) t

/-- The value delivered: reversed when `refout`, inverted when `finv`. -/
def crcOut (w : Nat) (refout finv : Bool) (c : Nat) : Nat :=
  let r := if refout then revBits c w else c
  if finv then 2 ^ w - 1 - r else r

/-- `k` shift steps of the least-significant-first register of CRC-32C. -/
def crc32cShift (c : Nat) : Nat → Nat
  | 0 => c
  | k + 1 => crc32cShift (if c % 2 = 1 then c / 2 ^^^ 0x82F63B78 else c / 2) k

/-- CRC-32C of R37: generator 0x1EDC6F41, start 0xFFFFFFFF, reflected, inverted. -/
def crc32c (bs : List Byte) : Nat :=
  0xFFFFFFFF ^^^ bs.foldl (fun c b => crc32cShift (c ^^^ b.toNat) 8) 0xFFFFFFFF

/-! ### Bytes and words -/

/-- Little-endian bytes of a number. -/
def leBytes : Nat → Nat → List Byte
  | 0, _ => []
  | n + 1, v => BitVec.ofNat 8 v :: leBytes n (v / 256)

/-- The number that little-endian bytes spell. -/
def ofLe : List Byte → Nat
  | [] => 0
  | b :: t => b.toNat + 256 * ofLe t

/-- The number that big-endian bytes spell. -/
def ofBe (bs : List Byte) : Nat := bs.foldl (fun a b => 256 * a + b.toNat) 0

/-- Big-endian bytes of a number. -/
def beBytes (n v : Nat) : List Byte := (leBytes n v).reverse

/-- Bytes in groups of four as little-endian words. -/
def leWords : List Byte → List Word
  | a :: b :: c :: d :: t => BitVec.ofNat 32 (ofLe [a, b, c, d]) :: leWords t
  | _ => []

/-- The bytes of words, each little-endian. -/
def wordBytes : List Word → List Byte
  | [] => []
  | w :: t => leBytes 4 w.toNat ++ wordBytes t

/-! ### SHA-256 -/

/-- The largest number below `2 ^ k` whose power `e` does not exceed `v`, one bit at a time from the highest. -/
def rootBits (e v : Nat) : Nat → Nat → Nat
  | 0, acc => acc
  | k + 1, acc => rootBits e v k (if (acc + 2 ^ k) ^ e ≤ v then acc + 2 ^ k else acc)

/-- The first 32 bits of the fraction of the `e`-th root of `p`. -/
def rootFrac (e p : Nat) : Nat := rootBits e (p * 2 ^ (32 * e)) 40 0 % 2 ^ 32

/-- The prime numbers below `n`. -/
def primesTo (n : Nat) : List Nat :=
  (List.range n).filter (fun p => decide (2 ≤ p) && (List.range p).all (fun d => decide (d < 2) || p % d != 0))

/-- The round constants: the cube roots of the first 64 primes. -/
def shaK : List Nat := (primesTo 312).map (rootFrac 3)

/-- The start values: the square roots of the first eight primes. -/
def shaInit : List Nat := (primesTo 20).map (rootFrac 2)

def ror32 (x n : Nat) : Nat := (x / 2 ^ n + x * 2 ^ (32 - n)) % 2 ^ 32

/-- The message padded to whole 64-byte blocks. -/
def shaPad (m : List Byte) : List Byte :=
  let z := (119 - m.length % 64) % 64
  m ++ (0x80#8 :: List.replicate z 0#8) ++ beBytes 8 (m.length * 8)

/-- Schedule words from the newest-first list of those made so far, `n` more. -/
def shaSched : List Nat → Nat → List Nat
  | ws, 0 => ws
  | ws, n + 1 =>
    let a := ws.getD 1 0
    let b := ws.getD 14 0
    let s1 := ror32 a 17 ^^^ ror32 a 19 ^^^ (a / 2 ^ 10)
    let s0 := ror32 b 7 ^^^ ror32 b 18 ^^^ (b / 2 ^ 3)
    shaSched (((s1 + ws.getD 6 0 + s0 + ws.getD 15 0) % 2 ^ 32) :: ws) n

/-- The eight working variables. -/
structure ShaSt where
  a : Nat
  b : Nat
  c : Nat
  d : Nat
  e : Nat
  f : Nat
  g : Nat
  h : Nat
deriving DecidableEq, Repr

def shaRound (s : ShaSt) (k w : Nat) : ShaSt :=
  let t1 := s.h + (ror32 s.e 6 ^^^ ror32 s.e 11 ^^^ ror32 s.e 25)
    + ((s.e &&& s.f) ^^^ ((2 ^ 32 - 1 - s.e) &&& s.g)) + k + w
  let t2 := (ror32 s.a 2 ^^^ ror32 s.a 13 ^^^ ror32 s.a 22)
    + ((s.a &&& s.b) ^^^ (s.a &&& s.c) ^^^ (s.b &&& s.c))
  ⟨(t1 + t2) % 2 ^ 32, s.a, s.b, s.c, (s.d + t1) % 2 ^ 32, s.e, s.f, s.g⟩

def shaRounds : ShaSt → List Nat → List Nat → ShaSt
  | s, k :: ks, w :: ws => shaRounds (shaRound s k w) ks ws
  | s, _, _ => s

def beWords : List Byte → List Nat
  | a :: b :: c :: d :: t => ofBe [a, b, c, d] :: beWords t
  | _ => []

def shaBlock (s : ShaSt) (blk : List Byte) : ShaSt :=
  let ws := (shaSched (beWords blk).reverse 48).reverse
  let r := shaRounds s shaK ws
  ⟨(s.a + r.a) % 2 ^ 32, (s.b + r.b) % 2 ^ 32, (s.c + r.c) % 2 ^ 32, (s.d + r.d) % 2 ^ 32,
   (s.e + r.e) % 2 ^ 32, (s.f + r.f) % 2 ^ 32, (s.g + r.g) % 2 ^ 32, (s.h + r.h) % 2 ^ 32⟩

def shaBlocks : Nat → ShaSt → List Byte → ShaSt
  | 0, s, _ => s
  | n + 1, s, m => shaBlocks n (shaBlock s (m.take 64)) (m.drop 64)

/-- SHA-256 of a message, 32 bytes. -/
def sha256 (m : List Byte) : List Byte :=
  let p := shaPad m
  let i := fun k => shaInit.getD k 0
  let s := shaBlocks (p.length / 64) ⟨i 0, i 1, i 2, i 3, i 4, i 5, i 6, i 7⟩ p
  ([s.a, s.b, s.c, s.d, s.e, s.f, s.g, s.h].map (beBytes 4)).flatten

/-! ### AES-GCM with keys of 128 and 256 bits -/

def sbox : List Nat :=
  [
  0x63, 0x7c, 0x77, 0x7b, 0xf2, 0x6b, 0x6f, 0xc5, 0x30, 0x01, 0x67, 0x2b, 0xfe, 0xd7, 0xab, 0x76,
  0xca, 0x82, 0xc9, 0x7d, 0xfa, 0x59, 0x47, 0xf0, 0xad, 0xd4, 0xa2, 0xaf, 0x9c, 0xa4, 0x72, 0xc0,
  0xb7, 0xfd, 0x93, 0x26, 0x36, 0x3f, 0xf7, 0xcc, 0x34, 0xa5, 0xe5, 0xf1, 0x71, 0xd8, 0x31, 0x15,
  0x04, 0xc7, 0x23, 0xc3, 0x18, 0x96, 0x05, 0x9a, 0x07, 0x12, 0x80, 0xe2, 0xeb, 0x27, 0xb2, 0x75] ++
  [
  0x09, 0x83, 0x2c, 0x1a, 0x1b, 0x6e, 0x5a, 0xa0, 0x52, 0x3b, 0xd6, 0xb3, 0x29, 0xe3, 0x2f, 0x84,
  0x53, 0xd1, 0x00, 0xed, 0x20, 0xfc, 0xb1, 0x5b, 0x6a, 0xcb, 0xbe, 0x39, 0x4a, 0x4c, 0x58, 0xcf,
  0xd0, 0xef, 0xaa, 0xfb, 0x43, 0x4d, 0x33, 0x85, 0x45, 0xf9, 0x02, 0x7f, 0x50, 0x3c, 0x9f, 0xa8,
  0x51, 0xa3, 0x40, 0x8f, 0x92, 0x9d, 0x38, 0xf5, 0xbc, 0xb6, 0xda, 0x21, 0x10, 0xff, 0xf3, 0xd2] ++
  [
  0xcd, 0x0c, 0x13, 0xec, 0x5f, 0x97, 0x44, 0x17, 0xc4, 0xa7, 0x7e, 0x3d, 0x64, 0x5d, 0x19, 0x73,
  0x60, 0x81, 0x4f, 0xdc, 0x22, 0x2a, 0x90, 0x88, 0x46, 0xee, 0xb8, 0x14, 0xde, 0x5e, 0x0b, 0xdb,
  0xe0, 0x32, 0x3a, 0x0a, 0x49, 0x06, 0x24, 0x5c, 0xc2, 0xd3, 0xac, 0x62, 0x91, 0x95, 0xe4, 0x79,
  0xe7, 0xc8, 0x37, 0x6d, 0x8d, 0xd5, 0x4e, 0xa9, 0x6c, 0x56, 0xf4, 0xea, 0x65, 0x7a, 0xae, 0x08] ++
  [
  0xba, 0x78, 0x25, 0x2e, 0x1c, 0xa6, 0xb4, 0xc6, 0xe8, 0xdd, 0x74, 0x1f, 0x4b, 0xbd, 0x8b, 0x8a,
  0x70, 0x3e, 0xb5, 0x66, 0x48, 0x03, 0xf6, 0x0e, 0x61, 0x35, 0x57, 0xb9, 0x86, 0xc1, 0x1d, 0x9e,
  0xe1, 0xf8, 0x98, 0x11, 0x69, 0xd9, 0x8e, 0x94, 0x9b, 0x1e, 0x87, 0xe9, 0xce, 0x55, 0x28, 0xdf,
  0x8c, 0xa1, 0x89, 0x0d, 0xbf, 0xe6, 0x42, 0x68, 0x41, 0x99, 0x2d, 0x0f, 0xb0, 0x54, 0xbb, 0x16]

def subByte (x : Nat) : Nat := sbox.getD x 0

def xtime (x : Nat) : Nat := if x / 128 % 2 = 1 then ((x * 2) % 256) ^^^ 0x1b else (x * 2) % 256

/-- Key schedule words (4 bytes each) of a key of `nk` words, newest first; `i` is the index of the next word. -/
def aesExpand (nk : Nat) : List (List Nat) → Nat → Nat → Nat → List (List Nat)
  | ws, _, _, 0 => ws
  | ws, i, rc, n + 1 =>
    let p := ws.getD 0 []
    let old := ws.getD (nk - 1) []
    let t :=
      if i % nk = 0 then
        match (p.drop 1 ++ p.take 1).map subByte with
        | x :: r => (x ^^^ rc) :: r
        | [] => []
      else if nk = 8 ∧ i % 8 = 4 then p.map subByte else p
    aesExpand nk (List.zipWith (· ^^^ ·) old t :: ws) (i + 1) (if i % nk = 0 then xtime rc else rc) n

def group4 : List Nat → List (List Nat)
  | a :: b :: c :: d :: t => [a, b, c, d] :: group4 t
  | _ => []

/-- The round keys of 16 bytes: eleven of a key of 16 bytes, fifteen of one of 32. -/
def aesKeys (key : List Nat) : List Nat :=
  let nk := key.length / 4
  (aesExpand nk (group4 key).reverse nk 1 (28 + 3 * nk)).reverse.flatten

def shiftRows (s : List Nat) : List Nat :=
  [0, 5, 10, 15, 4, 9, 14, 3, 8, 13, 2, 7, 12, 1, 6, 11].map (fun i => s.getD i 0)

def mixCol : List Nat → List Nat
  | [a, b, c, d] =>
    [xtime a ^^^ (xtime b ^^^ b) ^^^ c ^^^ d, a ^^^ xtime b ^^^ (xtime c ^^^ c) ^^^ d,
     a ^^^ b ^^^ xtime c ^^^ (xtime d ^^^ d), (xtime a ^^^ a) ^^^ b ^^^ c ^^^ xtime d]
  | l => l

/-- The rounds after the first key, with the keys left. -/
def aesRounds : Nat → List Nat → List Nat → List Nat
  | 0, s, _ => s
  | n + 1, s, ks =>
    let t := shiftRows (s.map subByte)
    let m := if n = 0 then t else ((group4 t).map mixCol).flatten
    aesRounds n (List.zipWith (· ^^^ ·) m (ks.take 16)) (ks.drop 16)

def aesBlock (keys blk : List Nat) : List Nat :=
  aesRounds (keys.length / 16 - 1) (List.zipWith (· ^^^ ·) blk (keys.take 16)) (keys.drop 16)

/-- Multiplication in GF(2^128) as GCM orders its bits: `v` runs over the multiples of the second factor. -/
def gfMul : Nat → Nat → Nat → Nat → Nat
  | 0, _, _, z => z
  | n + 1, x, v, z =>
    gfMul n x (if v % 2 = 1 then (v / 2) ^^^ (0xe1 * 2 ^ 120) else v / 2)
      (if x / 2 ^ n % 2 = 1 then z ^^^ v else z)

/-- GHASH over whole 16-byte blocks. -/
def ghash (h : Nat) : Nat → Nat → List Byte → Nat
  | 0, y, _ => y
  | n + 1, y, bs => ghash h n (gfMul 128 (y ^^^ ofBe (bs.take 16)) h 0) (bs.drop 16)

def padTo16 (bs : List Byte) : List Byte := bs ++ List.replicate ((16 - bs.length % 16) % 16) 0#8

/-- The key stream from counter `c`, `n` blocks. -/
def gctr (keys : List Nat) (nonce : List Byte) : Nat → Nat → List Byte
  | 0, _ => []
  | n + 1, c =>
    ((aesBlock keys (((nonce ++ beBytes 4 c)).map BitVec.toNat)).map (BitVec.ofNat 8)) ++ gctr keys nonce n (c + 1)

def xorBytes (a b : List Byte) : List Byte := List.zipWith (· ^^^ ·) a b

def gcmTag (keys : List Nat) (nonce aad ct : List Byte) : List Byte :=
  let h := ofBe ((aesBlock keys (List.replicate 16 0)).map (BitVec.ofNat 8))
  let m := padTo16 aad ++ padTo16 ct ++ beBytes 8 (aad.length * 8) ++ beBytes 8 (ct.length * 8)
  xorBytes (beBytes 16 (ghash h (m.length / 16) 0 m)) (gctr keys nonce 1 1)

/-- Encryption: ciphertext followed by the 16-byte tag. -/
def gcmSeal (key nonce aad pt : List Byte) : List Byte :=
  let keys := aesKeys (key.map BitVec.toNat)
  let ct := xorBytes pt (gctr keys nonce ((pt.length + 15) / 16) 2)
  ct ++ gcmTag keys nonce aad ct

/-- Decryption of ciphertext and tag; none when the tag fails. -/
def gcmOpen (key nonce aad box : List Byte) : Option (List Byte) :=
  let keys := aesKeys (key.map BitVec.toNat)
  let ct := box.take (box.length - 16)
  if 16 ≤ box.length ∧ gcmTag keys nonce aad ct = box.drop (box.length - 16) then
    some (xorBytes ct (gctr keys nonce ((ct.length + 15) / 16) 2))
  else none

/-! ### ECDSA P-256 -/

def p256p : Nat := 0xffffffff00000001000000000000000000000000ffffffffffffffffffffffff
def p256n : Nat := 0xffffffff00000000ffffffffffffffffbce6faada7179e84f3b9cac2fc632551
def p256b : Nat := 0x5ac635d8aa3a93e7b3ebbd55769886bc651d06b0cc53b0f63bce3c3e27d2604b
def p256gx : Nat := 0x6b17d1f2e12c4247f8bce6e563a440f277037d812deb33a0f4a13945d898c296
def p256gy : Nat := 0x4fe342e2fe1a7f9b8ee7eb4a7c0f9e162bce33576b315ececbb6406837bf51f5

/-- x^e modulo m over the `n` bits of e, highest first. -/
def powMod (x e m : Nat) : Nat → Nat → Nat
  | 0, r => r
  | n + 1, r => powMod x e m n (if e / 2 ^ n % 2 = 1 then r * r % m * x % m else r * r % m)

def invMod (x m : Nat) : Nat := powMod x (m - 2) m 256 1

/-- A curve point in Jacobian coordinates; z = 0 is the point at infinity. -/
structure JPoint where
  x : Nat
  y : Nat
  z : Nat
deriving DecidableEq, Repr

def subP (a b : Nat) : Nat := (a + (p256p - b % p256p)) % p256p

def jDouble (q : JPoint) : JPoint :=
  let d := q.z * q.z % p256p
  let g := q.y * q.y % p256p
  let be := q.x * g % p256p
  let al := 3 * (subP q.x d * ((q.x + d) % p256p) % p256p) % p256p
  let x := subP (al * al) (8 * be)
  let z := 2 * q.y * q.z % p256p
  ⟨x, subP (al * subP (4 * be) x) (8 * (g * g % p256p)), z⟩

def jAdd (a b : JPoint) : JPoint :=
  if a.z = 0 then b else if b.z = 0 then a else
  let z1 := a.z * a.z % p256p
  let z2 := b.z * b.z % p256p
  let u1 := a.x * z2 % p256p
  let u2 := b.x * z1 % p256p
  let s1 := a.y * (b.z * z2 % p256p) % p256p
  let s2 := b.y * (a.z * z1 % p256p) % p256p
  if u1 = u2 then (if s1 = s2 then jDouble a else ⟨1, 1, 0⟩) else
  let h := subP u2 u1
  let r := subP s2 s1
  let hh := h * h % p256p
  let hhh := h * hh % p256p
  let v := u1 * hh % p256p
  let x := subP (subP (r * r) hhh) (2 * v)
  ⟨x, subP (r * subP v x) (s1 * hhh), h * (a.z * b.z % p256p) % p256p⟩

/-- k times a point, over the `n` bits of k, highest first. -/
def jMul (q : JPoint) (k : Nat) : Nat → JPoint → JPoint
  | 0, r => r
  | n + 1, r =>
    let d := jDouble r
    jMul q k n (if k / 2 ^ n % 2 = 1 then jAdd d q else d)

def onCurve (x y : Nat) : Bool :=
  x < p256p && y < p256p && y * y % p256p == (x * x % p256p * x + (p256p - 3) * x + p256b) % p256p

/-- Does (r, s) sign the 32-byte digest under the public key (x, y)? -/
def ecdsaVerify (pub digest sig : List Byte) : Bool :=
  let x := ofBe (pub.take 32)
  let y := ofBe (pub.drop 32)
  let r := ofBe (sig.take 32)
  let s := ofBe (sig.drop 32)
  if pub.length ≠ 64 ∨ sig.length ≠ 64 ∨ onCurve x y = false ∨ r = 0 ∨ p256n ≤ r ∨ s = 0 ∨ p256n ≤ s then false else
  let w := invMod s p256n
  let u1 := ofBe digest * w % p256n
  let u2 := r * w % p256n
  let o : JPoint := ⟨1, 1, 0⟩
  let q := jAdd (jMul ⟨p256gx, p256gy, 1⟩ u1 256 o) (jMul ⟨x, y, 1⟩ u2 256 o)
  if q.z = 0 then false else
  let zi := invMod q.z p256p
  q.x * (zi * zi % p256p) % p256p % p256n == r

end Sys2Proof.Machine
end

