-- ==== Sys2Proof/Machine/Ops.lean ====
section
/-! DEFINITION. The named operations over the state: registers and their fields, counters, memory, time, events. -/

namespace Sys2Proof.Machine

/-- The answer of a command. -/
abbrev Res := Host.Outcome State Fault Refusal

/-! ### Registers -/

/-- The stored value of the register at `off`. -/
def State.reg (s : State) (off : Nat) : Word := tabGet regReset s.regs off

def State.setReg (s : State) (off : Nat) (v : Word) : State :=
  { s with regs := tabSet regReset s.regs off v }

/-- A register's value as a number. -/
def State.regN (s : State) (off : Nat) : Nat := (s.reg off).toNat

def State.setRegN (s : State) (off v : Nat) : State := s.setReg off (BitVec.ofNat 32 v)

/-- A field's value. -/
def State.getF (s : State) (f : Fld) : Nat := bitsOf (s.regN f.off) f.lo f.w

/-- A field set to `n` modulo its width; the register's other bits unchanged. -/
def State.setF (s : State) (f : Fld) (n : Nat) : State :=
  s.setRegN f.off (putBits (s.regN f.off) f.lo f.w n)

/-- Is the one-bit field set? -/
def State.isF (s : State) (f : Fld) : Bool := s.getF f == 1

def State.setB (s : State) (f : Fld) (b : Bool) : State := s.setF f (if b then 1 else 0)

/-- A 16-bit saturating counter advances by `k` (R32). -/
def State.bumpBy (s : State) (off k : Nat) : State :=
  s.setRegN off (satAt 0xFFFF (s.regN off + k))

def State.bump (s : State) (off : Nat) : State := s.bumpBy off 1

/-- A field counts up and saturates at its width. -/
def State.bumpF (s : State) (f : Fld) (k : Nat) : State :=
  s.setF f (satAt (2 ^ f.w - 1) (s.getF f + k))

/-- A W1C bit is set and its companion counter advances (R31, R32). -/
def State.raise (s : State) (f : Fld) (counter : Nat) : State := (s.setF f 1).bump counter

/-- A 64-bit value in two registers. -/
def State.setPair (s : State) (lo hi v : Nat) : State :=
  (s.setRegN lo (v % 2 ^ 32)).setRegN hi (v / 2 ^ 32 % 2 ^ 32)

def State.pair (s : State) (lo hi : Nat) : Nat := s.regN lo + 2 ^ 32 * s.regN hi

/-- `n` consecutive registers. -/
def State.regWords (s : State) (off : Nat) : Nat → List Word
  | 0 => []
  | n + 1 => s.reg off :: s.regWords (off + 4) n

def State.setRegWords (s : State) (off : Nat) : List Word → State
  | [] => s
  | v :: t => (s.setReg off v).setRegWords (off + 4) t

/-! ### Lists of fixed length -/

/-- Element `i` of a list, or the default. -/
def nth {α : Type} (d : α) (l : List α) (i : Nat) : α := l.getD i d

/-! ### Free values -/

/-- A value the spec leaves open, and the state that has drawn it. -/
def State.fresh (s : State) : Word × State := (Config.freeWord s.draws, { s with draws := s.draws + 1 })

/-! ### Memory (R26) -/

def State.byte (s : State) (a : Nat) : Byte := tabGet (fun _ => 0#8) s.mem a

def State.setByte (s : State) (a : Nat) (b : Byte) : State :=
  { s with mem := tabSet (fun _ => 0#8) s.mem a b }

/-- The `n` bytes from `a`. -/
def State.bytes (s : State) (a : Nat) (n : Nat) : List Byte := tabRange (fun _ => 0#8) s.mem a n

/-- Bytes written from `a` upwards. -/
def State.setBytes (s : State) (a : Nat) (bs : List Byte) : State :=
  { s with mem := tabPutAll (fun _ => 0#8) s.mem a bs }

/-- A little-endian number of `n` bytes at `a`. -/
def State.loadN (s : State) (a n : Nat) : Nat := ofLe (s.bytes a n)

def State.storeN (s : State) (a n v : Nat) : State := s.setBytes a (leBytes n v)

/-- Bases of the on-chip memories in the system address map (R26). -/
def corrBase : Nat := 0xE000000000
def ldBase (e : Nat) : Nat := 0xE100000000 + 0x20000 * e
def imemBase (e : Nat) : Nat := 0xE200000000 + 0x10000 * e
def retBase : Nat := 0xE300000000

/-- Declared sizes of the DRAM regions in bytes (R456). -/
def State.wp (s : State) : Nat := 2 ^ 20 * s.loader.cfg.bd.wpMiB
def State.wu (s : State) : Nat := 2 ^ 20 * s.loader.cfg.bd.wuMiB

/-- Is the DRAM byte inside its region's declared size? -/
def State.dramOk (s : State) (a : Nat) : Bool :=
  a < s.wp || (0x100000000 ≤ a && a < 0x100000000 + s.wu)

/-- May the byte at `a` be accessed in the system address map (R26, R456)? -/
def State.mapOk (s : State) (a : Nat) : Bool :=
  s.dramOk a || (corrBase ≤ a && a < corrBase + 0x800000) || (0xE100000000 ≤ a && a < 0xE100200000)
  || (0xE200000000 ≤ a && a < 0xE200100000) || (retBase ≤ a && a < retBase + 0x10000)
  || (0xF800000000 ≤ a && a < 0xF801000000)

/-- The end of the DRAM that runs on from address 0: a protected window of 4 GiB adjoins the unprotected region. -/
def State.wpEnd (s : State) : Nat := if s.wp = 0x100000000 then 0x100000000 + s.wu else s.wp

/-- Is every byte of the range of `n` bytes from `a` listed? -/
def State.rangeOk (s : State) (a n : Nat) : Bool :=
  n = 0 ||
    (a + n ≤ s.wpEnd || (0x100000000 ≤ a && a + n ≤ 0x100000000 + s.wu)
     || (corrBase ≤ a && a + n ≤ corrBase + 0x800000) || (0xE100000000 ≤ a && a + n ≤ 0xE100200000)
     || (0xE200000000 ≤ a && a + n ≤ 0xE200100000) || (retBase ≤ a && a + n ≤ retBase + 0x10000)
     || (0xF800000000 ≤ a && a + n ≤ 0xF801000000))

/-- Does the address lie in the register window of the map? -/
def inRegs (a : Nat) : Bool := decide (0xF800000000 ≤ a) && decide (a < 0xF801000000)

/-- The end of the listed addresses that run on from `a`, or `a` itself when it is not listed (log 158). -/
def State.rangeEnd (s : State) (a : Nat) : Nat :=
  if a < s.wp then s.wpEnd
  else if 0x100000000 ≤ a ∧ a < 0x100000000 + s.wu then 0x100000000 + s.wu
  else if corrBase ≤ a ∧ a < corrBase + 0x800000 then corrBase + 0x800000
  else if 0xE100000000 ≤ a ∧ a < 0xE100200000 then 0xE100200000
  else if 0xE200000000 ≤ a ∧ a < 0xE200100000 then 0xE200100000
  else if retBase ≤ a ∧ a < retBase + 0x10000 then retBase + 0x10000
  else if 0xF800000000 ≤ a ∧ a < 0xF801000000 then 0xF801000000
  else a

/-! ### Time (R298 to R303) -/

def State.dom (s : State) (d : Nat) : Dom := if d = 0 then s.time.dom0 else s.time.dom1

def State.setDom (s : State) (d : Nat) (x : Dom) : State :=
  if d = 0 then { s with time := { s.time with dom0 := x } } else { s with time := { s.time with dom1 := x } }

/-- LT_d in 2^-32 ns, modulo 2^96 (R299). -/
def State.ltDom (s : State) (d : Nat) : Nat :=
  ((s.dom d).offset + (s.dom d).incr * ((s.time.frc + 2 ^ 64 - (s.dom d).base) % 2 ^ 64)) % 2 ^ 96

/-- Ticks of R's unit in 2^-32 ns. -/
def residDiv : Int := 20000

/-- Lamp time in 2^-32 ns (R303): 0 before the FRC starts (R63). -/
def State.lampFine (s : State) : Nat :=
  (((s.ltDom (s.getF fTIME_CTRL_ACTIVE) : Int) + s.time.resid / residDiv) % ((2 ^ 96 : Nat) : Int)).toNat

/-- Lamp time in ns, 64 bits. -/
def State.lampNs (s : State) : Nat := s.lampFine / 2 ^ 32

/-- FRC ticks in `n` microseconds, milliseconds. -/
def ticksUs (n : Nat) : Nat := 800 * n
def ticksMs (n : Nat) : Nat := 800000 * n

/-! ### The lamp's light frame (R129, R203) -/

/-- The timing generator that gives the lamp latch point: the lowest-numbered one that is not OFF (R129). -/
def State.lampTg (s : State) : Option Nat :=
  [0, 1, 2, 3].find? (fun n => s.getF (fTG_STATUS_STATE n) ≠ 0)

/-- The light frame the lamp shows, as a number that limits "once per light frame"; with no generator running there is no
light frame to limit by, and every instant is one of its own. -/
def State.lampFrame (s : State) : Nat :=
  match s.lampTg with
  | some n => 2 * (2 ^ 32 * s.lampTiming.runs + s.regN (rTG_FRAME_COUNT n))
  | none => 2 * s.time.now + 1

/-! ### Wake sources (R406) -/

/-- A wake source acts while the device is in IDLE, SLEEP or on its way there: the manager takes it up at the next tick. -/
def State.wakeNote (s : State) (src : Nat) : State :=
  if s.getF fPWR_PWR_STATUS_CURRENT = 0 ∧ s.getF fPWR_PWR_STATUS_TARGET = 0xF then s
  else { s with wakeDue := if s.wakeDue.contains src then s.wakeDue else s.wakeDue ++ [src] }

/-- SC's count of the time without a heartbeat starts from 0 (R17, R407). -/
def State.heard (s : State) : State := { s with mc := { s.mc with beat := s.time.now } }

/-! ### FAULT_N -/

def State.assertFault (s : State) (c : FaultCause) : State :=
  { s with faultN := if c ∈ s.faultN then s.faultN else c :: s.faultN }

def State.releaseFault (s : State) (c : FaultCause) : State :=
  { s with faultN := s.faultN.filter (fun x => decide (x ≠ c)) }

/-- FAULT_N asserted. -/
def State.faultNAsserted (s : State) : Bool := !s.faultN.isEmpty

end Sys2Proof.Machine
end

