-- ==== Sys2Proof/Machine/EccCode.lean ====
section
/-! DEFINITION. The error-correcting code: the columns and the check word of R384, the decoder of R385, and the injection that is armed
(R392). -/

namespace Sys2Proof.Machine

/-- The columns of data bits 0 to 31 (R384). -/
def eccColumns : List Nat :=
  [0x07, 0x0B, 0x0D, 0x0E, 0x13, 0x15, 0x16, 0x19, 0x1A, 0x1C, 0x23, 0x25, 0x26, 0x29, 0x2A, 0x2C,
   0x31, 0x32, 0x34, 0x38, 0x43, 0x45, 0x46, 0x49, 0x4A, 0x4C, 0x51, 0x52, 0x54, 0x58, 0x61, 0x62]

/-- The column of stored bit k: data bits 0 to 31, check bits 32 to 38; no other bit is stored. -/
def eccColumn (k : Nat) : Nat :=
  if k < 32 then nth 0 eccColumns k else if k < 39 then 2 ^ (k - 32) else 0

/-- The check word of a data word (R384). -/
def eccCheck (d : Word) : Nat :=
  (List.range 32).foldl (fun c k => if d.toNat.testBit k then c ^^^ eccColumn k else c) 0

/-- What a syndrome means (R385). -/
inductive EccOut where
  | clean
  | corrected (bit : Option Nat)
  | uncorrectable
deriving DecidableEq, Repr

/-- The index of the data column equal to `syn`. -/
def eccBit (syn : Nat) : Option Nat := (List.range 32).find? (fun k => eccColumn k = syn)

def eccWeight (syn : Nat) : Nat := ((List.range 7).filter (fun j => syn.testBit j)).length

/-- The decoder of R385. -/
def eccClassify (syn : Nat) : EccOut :=
  if syn % 128 = 0 then .clean
  else if eccWeight syn = 1 then .corrected none
  else match eccBit (syn % 128) with
    | some k => .corrected (some k)
    | none => .uncorrectable

/-- The syndrome of the injection that is armed. -/
def State.injectSynd (s : State) : Nat :=
  eccColumn (s.getF fMEM_ECC_INJECT_BIT1) ^^^ (if s.isF fMEM_ECC_INJECT_TWO then eccColumn (s.getF fMEM_ECC_INJECT_BIT2) else 0)

def State.injectArmed (s : State) (r : Nat) : Bool := s.isF fMEM_ECC_INJECT_ARM && s.getF fMEM_ECC_INJECT_REGION == r

end Sys2Proof.Machine
end

