-- ==== Sys2Proof/Machine/Events.lean ====
section
/-! DEFINITION. Posting events: the units' outboxes and the losses there (R341, R342), the limits on how often a code is
posted, the events the boot ROM holds (R63), and what the Spool writer is handed (R346). -/

namespace Sys2Proof.Machine

/-- The unit whose outbox a record enters: the source, except that the sixteen engines are one unit, BE. -/
def evUnit (e : Ev) : Nat := if e.kind.cls = 0x0C then 0x24 else e.src

/-- Word 1 of an event packet (R339). -/
def evWord1 (seq : Nat) (e : Ev) : Word :=
  BitVec.ofNat 32 (65536 * (seq % 65536) + 16384 * (e.kind.prio % 4) + 256 * (e.kind.cls % 64) + e.src % 256)

/-- Word 2: code and lamp time bits [47:32]. -/
def evWord2 (e : Ev) : Word := BitVec.ofNat 32 (65536 * (e.kind.code % 65536) + e.lt / 2 ^ 32 % 65536)

/-- The 128-bit record: packet words 1 to 4. -/
def evWords (seq : Nat) (e : Ev) : List Word :=
  [evWord1 seq e, evWord2 e, BitVec.ofNat 32 (e.lt % 2 ^ 32), e.data]

/-- The drop summary as an event (R342). -/
def summaryEv (m : Summary) : Ev :=
  ⟨evHOST_EVT_DROPPED, srcMSG, BitVec.ofNat 32 (m.l0 + 256 * m.l1 + 65536 * m.l2 + 16777216 * m.l3), m.lt⟩

/-- A record handed to the Spool writer: it takes the next number and enters the 64-record buffer, where an armed injection hits it (R392,
region 10), or is lost and counted; while FROZEN it is counted apart, and while Spool is disabled nothing is written (R346, R348). -/
def State.spoolPut (s : State) (kind flags src : Nat) (payload : List Byte) : State :=
  if s.isF fMSG_SP_CFG_EN = false then s
  else if s.getF fMSG_SP_STATUS_STATE = 3 then s.bump rMSG_SP_FROZEN_DROP_COUNT
  else
    let n := s.spool.next
    let s := { s with spool := { s.spool with next := (n + 1) % 2 ^ 32 } }
    if 64 ≤ s.spool.buf.length then s.bump rMSG_SP_LOSS_COUNT
    else
      let s : State := { s with spool := { s.spool with buf := s.spool.buf ++ [⟨n, kind, flags, src, s.lampNs, payload⟩] } }
      if s.injectArmed 10 then
        { s with spool := { s.spool with hurt := s.spool.hurt ++ [(n, s.injectSynd)] } }.setF fMEM_ECC_INJECT_ARM 0
      else s

/-- Spool's record of an event: packet words 1 to 4 and 28 zero bytes. -/
def State.spoolEv (s : State) (flags seq : Nat) (e : Ev) : State :=
  s.spoolPut 1 flags 0 (wordBytes (evWords seq e) ++ List.replicate 28 0#8)

/-- The next event number, and the counter past it. -/
def State.takeSeq (s : State) : Nat × State :=
  let n := s.regN rMSG_EVT_SEQ_NEXT
  (n, s.setRegN rMSG_EVT_SEQ_NEXT ((n + 1) % 65536))

/-- One loss of priority `p` enters the drop summary, which is created at the first loss (R342). -/
def State.noteLoss (s : State) (p : Nat) : State :=
  let s := (s.setF fMSG_EVT_FLAGS_DROP 1).bump rMSG_EVT_DROP_COUNT
  let s := { s with hamper := { s.hamper with dropSinceAlarm := true, losses := s.hamper.losses + 1 } }
  let add := fun (m : Summary) =>
    { m with l0 := satAt 255 (m.l0 + if p = 0 then 1 else 0), l1 := satAt 255 (m.l1 + if p = 1 then 1 else 0),
             l2 := satAt 255 (m.l2 + if p = 2 then 1 else 0), l3 := satAt 255 (m.l3 + if p = 3 then 1 else 0) }
  match s.hamper.summary with
  | some m => { s with hamper := { s.hamper with summary := some (add m) } }
  | none =>
    let (n, s) := s.takeSeq
    let m := add ⟨n, s.lampNs, 0, 0, 0, 0⟩
    let s := { s with hamper := { s.hamper with summary := some m } }
    s.spoolEv 2 n (summaryEv m)

/-- A record lost in its unit's full outbox (R341). -/
def State.loseEv (s : State) (p : Nat) : State := (s.bump (rMSG_EVT_DROP p)).noteLoss p

/-- How many records of a unit wait in its outbox. -/
def State.outboxOf (s : State) (u : Nat) : Nat := (s.hamper.outbox.filter (fun c => c.1 = u)).length

/-- A record enters its unit's outbox, where an armed injection hits it (R392, region 10). -/
def State.boxPut (s : State) (e : Ev) : State :=
  let s : State := { s with hamper := { s.hamper with outbox := s.hamper.outbox ++ [(evUnit e, e)] } }
  if s.injectArmed 10 then
    { s with hamper := { s.hamper with boxHurt := s.hamper.boxHurt ++ [(e, s.injectSynd)] } }.setF fMEM_ECC_INJECT_ARM 0
  else s

/-- A record enters its unit's outbox of four entries, or is lost. -/
def State.offer (s : State) (e : Ev) : State :=
  let s := if e.kind.prio ≤ 1 then s.wakeNote 9 else s
  if s.outboxOf (evUnit e) < 4 then s.boxPut e else s.loseEv e.kind.prio

/-- An event is posted: stamped with lamp time, held by the boot ROM until the firmware starts (R63), else offered. -/
def State.post (s : State) (k : EvKind) (src data : Nat) : State :=
  let e : Ev := ⟨k, src, BitVec.ofNat 32 data, if s.time.frcRun then s.lampNs else 0⟩
  if s.boot.fwStarted then s.offer e
  else { s with boot := { s.boot with held := s.boot.held ++ [e] } }

/-- Insertion by lowest priority value, then lowest code: the order in which one cycle's records enter (R341). -/
def insEv (x : EvKind × Nat × Nat) : List (EvKind × Nat × Nat) → List (EvKind × Nat × Nat)
  | [] => [x]
  | y :: t =>
    if x.1.prio < y.1.prio ∨ (x.1.prio = y.1.prio ∧ x.1.code < y.1.code) then x :: y :: t else y :: insEv x t

/-- Several events of one cycle. -/
def State.postAll (s : State) (l : List (EvKind × Nat × Nat)) : State :=
  (l.foldr insEv []).foldl (fun s x => s.post x.1 x.2.1 x.2.2) s

/-- The key of a limited event: its class and code and whom it concerns. -/
def limKey (k : EvKind) (who : Nat) : Nat := 65536 * (65536 * k.cls + k.code) + who

def State.lastPost (s : State) (key : Nat) : Nat := tabGet (fun _ => 0) s.posted key

def State.notePost (s : State) (key v : Nat) : State :=
  { s with posted := tabSet (fun _ => 0) s.posted key v }

/-- Posted at most once per `gap` ticks for `who`. -/
def State.postGap (s : State) (k : EvKind) (who gap src data : Nat) : State :=
  let key := limKey k who
  let l := s.lastPost key
  if l = 0 ∨ gap ≤ s.time.now + 1 - l then (s.notePost key (s.time.now + 1)).post k src data else s

/-- Posted at most once per frame (round, ...) numbered `stamp` for `who`. -/
def State.postOnce (s : State) (k : EvKind) (who stamp src data : Nat) : State :=
  let key := limKey k who
  if s.lastPost key = stamp + 1 then s else (s.notePost key (stamp + 1)).post k src data

/-- A bus error in the system address map (R26, R30). -/
def State.busErr (s : State) (addr : Nat) : State :=
  ((s.raise fTOP_BUS_ERR_STATUS_SYS_MAP rTOP_SYS_MAP_COUNT).setRegN rTOP_BUS_ERR_ADDR (addr % 2 ^ 32)).post
    evMEM_BUS_ERR srcMEM (addr % 2 ^ 32)

/-- An access to an unmapped register offset (R27, R30). -/
def State.unmapped (s : State) (off : Nat) : State :=
  (s.raise fTOP_BUS_ERR_STATUS_UNMAPPED rTOP_UNMAPPED_COUNT).setRegN rTOP_BUS_ERR_ADDR ((0xF800000000 + off) % 2 ^ 32)

/-- Units that an SZ-1220 does not have: CP, PRESS, TG and ZTL 2 and 3 (R2). -/
def State.absentUnit (s : State) (off : Nat) : Bool :=
  decide (s.part = .sz1220) && decide (0x100000 ≤ off) && decide (off < 0x200000) && decide (off / 0x20000 % 2 = 1)

/-- While PORST_N is low everything outside the always-on domain is held in reset, and a command to it does nothing (R59). -/
def State.inCore (s : State) (act : State → State) : State := if s.boot.porst then act s else s

/-! ### Locks (R29) -/

def State.locked (s : State) : Bool := s.isF fBSTREAM_STATUS_LOCKED

/-- Does a LOCKMAP range hold the register? -/
def State.mapLocked (s : State) (off : Nat) : Bool :=
  s.locked && s.loader.lockmap.any (fun q => decide (q.1 ≤ off) && decide (off < q.1 + 4 * q.2))

/-- A lock violation; the event comes at most once per millisecond (R56). -/
def State.lockViol (s : State) (off : Nat) : State :=
  (s.raise fTOP_BUS_ERR_STATUS_LOCK_VIOL rTOP_LOCK_VIOL_COUNT).postGap evCONFIG_LOCK_VIOL 0 (ticksMs 1) srcTOP off

/-- The value written as the lock lets it through. -/
def lockMerge (lk old v : Word) : Word := (v &&& ~~~lk) ||| (old &&& lk)

/-- A write of `v` to register `r`, as the lock lets it through, does `act` (R29). -/
def State.lockWrite (s : State) (r : RegRow) (off : Nat) (v : Word) (act : Word → State → State) : State :=
  if s.mapLocked off then s.lockViol off
  else
    let lk := if s.locked then r.lock else 0
    let old := s.reg off
    let s := if (v ^^^ old) &&& lk ≠ 0 then s.lockViol off else s
    act (lockMerge lk old v) s

/-- A command that is a write of one code to a register: nothing in reset (R59) and in an absent unit (R2), a violation where
a LOCKMAP range holds the register (R29). -/
def State.viaReg (s : State) (off : Nat) (act : State → State) : State :=
  if s.boot.porst = false ∨ s.absentUnit off then s else if s.mapLocked off then s.lockViol off else act s

/-- A command that is a write of the value `v` to a register: its writable bits, as the lock lets them through. -/
def State.viaRegV (s : State) (off : Nat) (v : Word) (act : Word → State → State) : State :=
  if s.boot.porst = false ∨ s.absentUnit off then s
  else match regRow off with
    | none => s.unmapped off
    | some r => s.lockWrite r off v act

end Sys2Proof.Machine
end

