-- ==== Sys2Proof/Machine/Content.lean ====
section
/-! DEFINITION. The content checks of R39: the ranges that the owning chapters state for what a section declares. -/

namespace Sys2Proof.Machine

/-- Ranges of register fields: the register's row base, the field's lowest bit and width, its least and largest value
(R14, R31, R186 to R188, R192, R240, R304, R346, R364, R388, R426). -/
def fieldRanges : List (Nat × Nat × Nat × Nat × Nat) := [
  (rHK_HLV_LIMIT, 0, 8, 10, 100), (rHK_HLV_LIMIT, 8, 8, 10, 100), (rHK_HLV_LIMIT, 16, 8, 10, 100),
  (rTIME_HOLD_CFG, 0, 16, 100, 10000), (rPWR_PWR_GUARD, 0, 20, 100, 1000000),
  (rREC_SIZE, 0, 12, 64, 2048), (rREC_CFG, 16, 4, 1, 8), (rREC_CFG, 0, 13, 0, 8000),
  (rPRESS_SNAP_CFG 0, 16, 5, 2, 16), (rPRESS_SNAP_CFG 0, 0, 10, 1, 1000),
  (rTG_LEAD 0, 0, 24, 0, 9000000),
  (rZTL_TX_CFG 0, 16, 3, 0, 6), (rZTL_TX_CFG 0, 12, 3, 0, 6), (rZTL_TX_CFG 0, 8, 3, 0, 6), (rZTL_TX_CFG 0, 0, 3, 0, 6),
  (rMSG_SP_CFG, 0, 13, 0, 8000), (rSAFETY_POLICY, 16, 16, 100, 10000), (rSAFETY_POLICY, 0, 2, 0, 2),
  (rMEM_SCRUB_CFG, 0, 5, 1, 24), (rMSG_LAYER_CFG 0, 26, 2, 0, 2), (rHOSTIF_ETH_CFG 0, 0, 12, 1522, 2240),
  (rHOSTIF_ETH_CFG 0, 16, 2, 0, 1), (rMSG_FLIP_MASTER, 0, 2, 0, 2), (rMSG_FLIP_MASTER, 2, 2, 0, 2),
  (rMSG_FLIP_MASTER, 4, 2, 0, 2), (rMSG_FLIP_MASTER, 6, 2, 0, 2), (rSAFETY_ACT_CFG 0, 0, 2, 0, 2)]

/-- Does the value `v` for the register at `off` keep every field range? -/
def regRangesOk (off v : Nat) : Bool :=
  match regRow off with
  | none => false
  | some r => fieldRanges.all (fun q =>
      q.1 ≠ r.base || (q.2.2.2.1 ≤ bitsOf v q.2.1 q.2.2.1 && bitsOf v q.2.1 q.2.2.1 ≤ q.2.2.2.2))

/-- The four groups of COMPOSE_ORDER are a permutation of 0 to 3 (R158). -/
def composeOrderOk (v : Nat) : Bool :=
  [0, 1, 2, 3].all (fun g => [bitsOf v 0 2, bitsOf v 2 2, bitsOf v 4 2, bitsOf v 6 2].contains g)

/-- The three tile lanes of LANE_CFG are a permutation (R212). -/
def laneCfgOk (v : Nat) : Bool :=
  [0, 1, 2].all (fun g => [bitsOf v 8 2, bitsOf v 10 2, bitsOf v 12 2].contains g)

/-- A capture writer's data type and FORMAT agree (R138): BV8 0, BV12 1, BV16 2, BV16A8 3, MASK8 4 (R130). -/
def capwOk (v : Nat) : Bool :=
  let fmt := bitsOf v 16 3
  let comp := bitsOf v 19 1
  if bitsOf v 31 1 = 0 then true else
  match bitsOf v 8 6 with
  | 0x2A => comp = 0 && (fmt = 0 || fmt = 4)
  | 0x2C => comp = 0 && fmt = 1
  | 0x2E => comp = 0 && fmt = 2
  | 0x30 => comp = 0 && fmt = 3
  | 0x31 => comp = 1 && fmt = 2
  | 0x32 => comp = 1 && fmt = 3
  | 0x33 => comp = 1 && (fmt = 0 || fmt = 1 || fmt = 4)
  | _ => false

/-- The value a list of register values gives to `off`, or `d`. -/
def lookReg (l : List (Nat × Word)) (off d : Nat) : Nat :=
  match l.reverse.find? (fun c => c.1 = off) with
  | some c => c.2.toNat
  | none => d

/-- Registers a section declares: mapped, in range, and consistent. -/
def regsOk (l : List (Nat × Word)) : Bool :=
  l.all (fun c => regRangesOk c.1 c.2.toNat
    && (c.1 ≠ rMSG_COMPOSE_ORDER || composeOrderOk c.2.toNat)
    && ((regRow c.1).map RegRow.base ≠ some (rZTL_LANE_CFG 0) || laneCfgOk c.2.toNat)
    && ((regRow c.1).map RegRow.base ≠ some (rHOSTIF_CAPW_CFG 0) || capwOk c.2.toNat)
    && ((regRow c.1).map RegRow.base ≠ some (rHOSTIF_CSI_CFG 0) || [1, 2, 4].contains (bitsOf c.2.toNat 0 3)))

/-- A 40-bit address that a list of register values gives to a pair of registers. -/
def lookPair (l : List (Nat × Word)) (lo hi : Nat) : Nat := lookReg l lo 0 + 2 ^ 32 * (lookReg l hi 0 % 256)

/-- A table of `n` bytes at a declared base: aligned, and inside the protected window where it must be. -/
def baseOk (bd : BoardC) (l : List (Nat × Word)) (lo hi algn n : Nat) (inWindow : Bool) : Bool :=
  !(l.any (fun c => c.1 = lo || c.1 = hi))
    || (lookPair l lo hi % algn = 0 && (!inWindow || lookPair l lo hi + n ≤ 2 ^ 20 * bd.wpMiB))

/-- The bases of the record tables (R162), the snapshot and recorder rings (R188), and the work area (R273). -/
def basesOk (bd : BoardC) (l : List (Nat × Word)) : Bool :=
  (List.range 4).all (fun n => baseOk bd l (rPRESS_REC_BASE_P_LO n) (rPRESS_REC_BASE_P_HI n) 0x200000 0x200000 true
    && baseOk bd l (rPRESS_REC_BASE_S_LO n) (rPRESS_REC_BASE_S_HI n) 0x200000 0x200000 true
    && baseOk bd l (rPRESS_SNAP_BASE_LO n) (rPRESS_SNAP_BASE_HI n) 0x1000 0 false)
  && baseOk bd l rREC_RING_LO rREC_RING_HI 0x100000 0 false
  && baseOk bd l rHEALTH_WORK_BASE_LO rHEALTH_WORK_BASE_HI 0x2000000 0x2000000 true

/-- No two enabled writers share receiver, channel and data type (R138). -/
def capwDistinct (l : List (Nat × Word)) : Bool :=
  let ws := (List.range 8).map (fun w => lookReg l (rHOSTIF_CAPW_CFG w) 0)
  let key := fun v => (bitsOf v 0 1, bitsOf v 4 2, bitsOf v 8 6)
  let on := ws.filter (fun v => bitsOf v 31 1 = 1)
  (on.map key).eraseDups.length = on.length

/-- The tiles an arrangement places (R4). -/
def arrTiles : Arrangement → Nat
  | .a4x1 => 4
  | .a2x2 => 4
  | .a2x1 => 2
  | .a1x1 => 1

/-- The origin of tile n in the lamp (R4): column and row. -/
def tileOrigin (a : Arrangement) (n : Nat) : Nat × Nat :=
  match a with
  | .a2x2 => (512 * (n % 2), 512 * (n / 2))
  | _ => (512 * n, 0)

/-- R2, R4, R54: tile count, staging size, and the staging buffer inside the protected window that BOARD declares. -/
def structureOk (part : Part) (bd : BoardC) (c : StructureC) : Bool :=
  c.tiles = arrTiles c.arr && (part = .sz1240 || c.tiles ≤ 2) && 1 ≤ c.stagingMiB && c.stagingMiB ≤ 64
  && c.stagingBase + 2 ^ 20 * c.stagingMiB ≤ 2 ^ 20 * bd.wpMiB && regsOk c.regs && basesOk bd c.regs && capwDistinct c.regs

/-- R456: the DRAM region sizes. -/
def dramDeclOk (c : BoardC) : Bool :=
  256 ≤ c.wpMiB && c.wpMiB ≤ 4096 && c.wpMiB % 256 = 0 && c.wuMiB ≤ 3072 && c.wuMiB % 256 = 0
  && c.wpMiB + c.wpMiB / 4 + c.wuMiB ≤ c.dramMiB

/-- Rails VDD2H_DDR and VDDQ_DDR as RailStep numbers. -/
def railVdd2h : Nat := 10
def railVddq : Nat := 11

/-- R432: VDDQ_DDR not before VDD2H_DDR. -/
def railOrderOk : List Nat → Bool
  | [] => true
  | r :: t => if r = railVdd2h then true else if r = railVddq then false else railOrderOk t

/-- R65, R432: the rail sequence. -/
def railsOk (l : List RailStep) : Bool :=
  l.length ≤ 16 && l.all (fun r => r.limitUs ≤ 5000)
  && (l.foldl (fun a r => a + r.settleUs + r.limitUs) 0) ≤ 20000 && railOrderOk (l.map RailStep.rail)

/-- BOARD (R49, R65, R212, R231, R456). -/
def boardOk (st : StructureC) (c : BoardC) : Bool :=
  dramDeclOk c && railsOk c.rails && regsOk c.regs && basesOk c c.regs && capwDistinct (st.regs ++ c.regs)
  && (List.range st.tiles).all (fun n => nth [] c.tileTypes n ≠ [] && (nth [] c.tileTypes n).length ≤ 4)
  && (st.tiles ≤ 2 || (List.range 4).all (fun n => bitsOf (lookReg c.regs (rZTL_LANE_CFG n) 0) 16 1 = 0))
  && 33554432 ≤ c.accountLen

/-- R368, R370: the safety inputs' declarations; of a wired one, the debounce (20 ticks at most) and T_d (2 to 1,000 ticks). -/
def sinOk (regs : List (Nat × Word)) : Bool :=
  let cfg := fun i => lookReg regs (rSAFETY_SIN_CFG i) 0x28
  let used := fun i => bitsOf (cfg i) 28 1 = 1
  (used 3 || bitsOf (cfg 3) 30 2 = 0) && bitsOf (cfg 3) 30 2 ≠ 3
  && (List.range 4).all (fun i => used i = false || (bitsOf (cfg i) 16 5 ≤ 20 && 2 ≤ bitsOf (cfg i) 0 10 && bitsOf (cfg i) 0 10 ≤ 1000))
  && (used 2 || (bitsOf (lookReg regs (rSAFETY_ACT_CFG 0) 0) 31 1 = 0 && bitsOf (lookReg regs (rSAFETY_ACT_CFG 1) 0) 31 1 = 0))

/-- R365: the ranges of the actuator limits. -/
def actOk (c : ActC) : Bool :=
  -32768 ≤ c.posMin && c.posMin ≤ c.posMax && c.posMax ≤ 32767 && 1 ≤ c.vMax && c.vMax ≤ 20000 && c.vDir ≤ 65535
  && 1 ≤ c.homeSteps && c.homeSteps ≤ 32767

/-- Is a declared pair of bounds a range inside [lo, hi]? -/
def boundIn (b : Nat × Nat) (lo hi : Nat) : Bool := lo ≤ b.1 && b.1 ≤ b.2 && b.2 ≤ hi

/-- The bounds for SAFETY_RT lie inside the ranges of R154, R362 and R363. -/
def boundsOk (b : RtBounds) : Bool :=
  boundIn b.staleMax 1 255 && boundIn b.maskAgeMax 1 32 && boundIn b.ceilStep 1 16 && b.sStale.1 ≤ b.sStale.2

/-- SAFETY (R154, R358 to R370). -/
def safetyOk (c : SafetyC) : Bool :=
  (match c.dMax with | some d => 100000 ≤ d && d ≤ 10000000 | none => false)
  && (match c.slotMax with | some d => 20000 ≤ d && d ≤ 500000 | none => false)
  && 10 ≤ c.pitchAgeMaxMs && c.pitchAgeMaxMs ≤ 500 && 1 ≤ c.staleMax && c.staleMax ≤ 255
  && c.ceilLow.length = 32 && c.ceilHigh.length = 32 && (c.ceilLow ++ c.ceilHigh).all (fun e => e.1 ≤ 512 && e.2 < 2 ^ 27)
  && c.act.length ≤ 2 && c.act.all actOk && sinOk c.regs && regsOk c.regs && boundsOk c.bounds

/-- Registers a retention list may not name (R409). -/
def retainable (off : Nat) : Bool :=
  match regRow off with
  | none => true
  | some r => !r.wo && off ≠ rMSG_EVT_POP && r.base ≠ rMSG_SP_WIN 0

/-- The thermal model's parameters (R416). -/
def thermalOk (c : PowerC) : Bool :=
  let thr := lookReg c.regs rHK_THR_CFG 0x6E879100
  let (td, tf, tc) := (bitsOf thr 24 8, bitsOf thr 16 8, bitsOf thr 8 8)
  20 ≤ c.tauB && c.tauB ≤ 10000 && c.rB ≤ 200000 && c.kLat ≤ 2500 && 1000 ≤ c.tauS && c.tauS ≤ 1000000 && c.rS ≤ 50000
  && -40000 ≤ c.tSink && c.tSink ≤ 125000 && c.sensorBlock.all (fun b => b ≤ 255)
  && 60 ≤ td && td < tf && tf < tc && tc ≤ 160 && 40000 ≤ c.capT0 && c.capT0 < c.capT1 && c.capT1 ≤ 140000

/-- POWER (R14, R409, R416, R420). -/
def powerOk (c : PowerC) : Bool :=
  c.retention.length ≤ 2048 && c.retention.all retainable && regsOk c.regs && thermalOk c

def timeOk (c : TimeC) : Bool :=
  c.gptp.length ≤ 2 && c.gptp.all (fun g => g.domainNumber ≤ 127 && g.port ≤ 1 && g.dom ≤ 1) && regsOk c.regs

/-- HOST (R325, R326, R330, R345, R346). -/
def hostOk (bd : BoardC) (c : HostC) : Bool :=
  let sp := lookReg c.regs rMSG_SP_CFG 0
  let base := lookReg c.regs rMSG_SP_BASE_LO 0 + 2 ^ 32 * lookReg c.regs rMSG_SP_BASE_HI 0
  let size := lookReg c.regs rMSG_SP_SIZE 0
  regsOk c.regs && 50 ≤ c.canRxTimeoutMs && c.canRxTimeoutMs ≤ 1000 && c.replayWindow ≤ 1024 && c.multicast.length ≤ 8
  && basesOk bd c.regs && c.buckets.all (fun b => b.1 ≤ 10000 && 1 ≤ b.2 && b.2 ≤ 255)
  && (bitsOf sp 31 1 = 0
      || (1 ≤ size && size ≤ 256 && base % 2 ^ 20 = 0 && base + 2 ^ 20 * size ≤ 2 ^ 20 * bd.wpMiB))

/-- The lamp's size in pixels (R4). -/
def lampCols : Arrangement → Nat
  | .a4x1 => 2048
  | .a2x2 => 1024
  | .a2x1 => 1024
  | .a1x1 => 512

def lampRows : Arrangement → Nat
  | .a2x2 => 1024
  | _ => 512

/-- The projection table's size against the arrangement (R49): one node per lamp block corner. -/
def projectionOk (st : StructureC) (c : ProjectionC) : Bool :=
  c.cols = lampCols st.arr / 32 + 1 && c.rows = lampRows st.arr / 32 + 1

/-- Does a LOCKMAP range reach a register it must not (R51)? -/
def lockRangeOk (q : Nat × Nat) : Bool :=
  q.1 % 4 = 0 && q.1 + 4 * q.2 ≤ 0x1000000
  && (q.1 + 4 * q.2 ≤ 0x10000 || 0x20000 ≤ q.1)
  && (q.1 + 4 * q.2 ≤ rMSG_EVT_POP || rMSG_EVT_SKIP < q.1)
  && regRows.all (fun r => r.w1c = 0#32 ||
      (List.range r.uc).all (fun u => (List.range r.cnt).all (fun i =>
        let o := r.base + u * r.us + i * r.st
        o < q.1 || q.1 + 4 * q.2 ≤ o)))

def lockmapOk (l : List (Nat × Nat)) : Bool := l.length ≤ 256 && l.all lockRangeOk

/-- Every energy of a dynamic set is at most that of the static table of the same name (R362). -/
def dynOk (dyn : List (Int × Nat)) (ceil : List (Nat × Nat)) : Bool :=
  dyn.zipIdx.all (fun q => q.1.2 ≤ (nth (0, 0) ceil q.2).2)

/-- SAFETY_RT against SAFETY: its bounds (R53, R154, R361, R363), its static tables (R362). -/
def safetyRtOk (sf : SafetyC) (c : SafetyRtC) : Bool :=
  let b := sf.bounds
  dynOk c.dynLow sf.ceilLow && dynOk c.dynHigh sf.ceilHigh && c.dynLow.length ≤ 32 && c.dynHigh.length ≤ 32 && b.sStale.1 ≤ c.sStale && c.sStale ≤ b.sStale.2
  && b.ceilStep.1 ≤ c.ceilStep && c.ceilStep ≤ b.ceilStep.2 && b.maskAgeMax.1 ≤ c.maskAgeMax
  && c.maskAgeMax ≤ b.maskAgeMax.2 && c.maskLayer < 8
  && (match c.staleMax with
      | none => true
      | some l => l.length = 8 && l.all (fun v => b.staleMax.1 ≤ v && v ≤ b.staleMax.2))

/-- Is ARG inside the fields that its action has (R316)? -/
def argOk (action arg : Nat) : Bool :=
  match action with
  | 0 => arg < 2 ^ 18 && 1 ≤ arg / 65536 && 0x8000 ≤ arg % 65536
  | 1 => 1 ≤ arg / 256 && bitsOf arg 1 7 = 0
  | 2 => arg < 4
  | 3 => arg < 16
  | 4 => arg ≤ 2
  | 5 => arg = 0 || arg = 256
  | 6 | 7 => arg = 0
  | _ => false

/-- Is PERIOD inside its mode's range (R313)? -/
def periodOk (mode period : Nat) : Bool :=
  if mode = 1 then 1000 ≤ period else if mode = 2 then 1 ≤ period && period ≤ 255 else true

/-- An entry's MODE, LATE, ACTION, ARG and PERIOD (R312, R313, R316). -/
def schedEntryOk (e : SchedEntry) : Bool :=
  let c := e.cfg.toNat
  e.entry < 64 && bitsOf c 29 2 ≤ 2 && bitsOf c 27 2 ≤ 2 && argOk (bitsOf c 20 4) e.arg.toNat && periodOk (bitsOf c 29 2) e.period.toNat

def scheduleOk (l : List SchedEntry) : Bool := l.length ≤ 64 && l.all schedEntryOk

/-- The default allocation of R108 and R109: engines, JOB_TRIG, fence, spare-eligible, opcodes with their target engines. -/
def progDefault : ProgKind → List Nat × Nat × Nat × Bool × List (Nat × Nat)
  | .mask => ([0, 1, 2, 3], 2 ^ 28, 0, true, [(0x10, 0x00FF), (0x11, 0x000F), (0x80, 0x000F)])
  | .projection => ([4, 5, 6, 7], 2 ^ 28 + 2 ^ 18, 1, true, [(0x10, 0x00FF), (0x88, 0x00F0), (0x89, 0x00F0)])
  | .pattern => ([8, 9], 4 * 2 ^ 28 + 2 ^ 24, 2, false, [(0x90, 0x0300)])
  | .aging => ([10, 11], 2 ^ 28 + 2 * 2 ^ 18, 3, false, [(0x98, 0x0C00)])
  | .health => ([12, 13], 4 * 2 ^ 28 + 2 ^ 24, 4, false, [(0xA0, 0x3000)])
  | .powerSum => ([14], 2 ^ 28 + 3 * 2 ^ 18, 5, true, [])
  | .user => ([], 0, 0, false, [])

/-- A program with what it does not override filled in; POSE is owned jointly. The spare is BE_15 where its section names none. -/
def progResolve (c : BeprogC) : BeprogC :=
  if c.isSpare then { c with engines := if c.engines.isEmpty then [15] else c.engines, trig := some (c.trig.getD 0),
                             spareEligible := some (c.spareEligible.getD false) }
  else if c.kind = .user then { c with trig := some (c.trig.getD 0), spareEligible := some (c.spareEligible.getD false) }
  else
    let (es, t, f, sp, ops) := progDefault c.kind
    { c with engines := if c.engines.isEmpty then es else c.engines, trig := some (c.trig.getD (BitVec.ofNat 32 t)),
             fences := if c.fences.isEmpty then [f] else c.fences, spareEligible := some (c.spareEligible.getD sp),
             opcodes := if c.opcodes.isEmpty then ops.map (fun o => ⟨o.1, o.2, o.1 == 0x10⟩) else c.opcodes }

/-- Entries 0 to 3 of the supplied SCHEDULE template (R108), by the program that takes them: the mask cut-off, 595 µs, and the
projection cut-off, 1.0 ms, before each latch point, every 100 ms and every 10 ms. The first target of the last two is one period after
`now` (log 145). -/
def progTemplate (now : Nat) : ProgKind → Option SchedEntry
  | .mask => some ⟨0, 0xC0600000, 0, 1, 2 ^ 32 - 595000⟩
  | .projection => some ⟨1, 0xC0600000, 0, 1, 2 ^ 32 - 1000000⟩
  | .aging => some ⟨2, 0xA0600000, 0, 100000000, now + 100000000⟩
  | .powerSum => some ⟨3, 0xA0600000, 0, 10000000, now + 10000000⟩
  | _ => none

/-- One program of R105. -/
def beprogOk (c : BeprogC) : Bool :=
  c.image.length ≤ 8192 && c.data.length ≤ 114688 && c.entry < c.image.length && c.engines.all (· < 16)
  && (!c.isSpare || c.engines.length = 1)

/-- The whole BEPROG set (R105): no engine twice, one spare, opcodes shared by mark only; sections of one number count as one program
(log 135). -/
def beprogSetOk (l : List BeprogC) : Bool :=
  let es := (l.map BeprogC.engines).flatten
  es.eraseDups.length = es.length && (l.filter (·.isSpare)).length ≤ 1
  && l.all (fun a => l.all (fun b => a.number = b.number ||
      a.opcodes.all (fun x => b.opcodes.all (fun y => x.opcode ≠ y.opcode || (x.shared && y.shared)))))

def monotone : List Nat → Bool
  | a :: b :: t => a ≤ b && monotone (b :: t)
  | _ => true

/-- A curve (R169): 33 knots from 0, never decreasing, at most 0xFF_FFFF. -/
def curveOk (ks : List Word) : Bool :=
  ks.length = 33 && (nth 0#32 ks 0) = 0#32 && monotone (ks.map BitVec.toNat) && ks.all (fun k => k.toNat ≤ 0xFFFFFF)

/-- An aging curve (R285): A_STEP, then 33 knots from 0x8000, never increasing. -/
def agingCurveOk (l : List Nat) : Bool :=
  l.length = 34 && nth 0 l 1 = 0x8000 && monotone (l.drop 1).reverse

/-- A filter set (R142): the horizontal tables of 1 to 8 taps, then the vertical ones; each has 64 phases, and each
phase's coefficients, signed s1.14, sum to 16,384. -/
def filterOk (f : List (List (List Int))) : Bool :=
  f.length = 16 && (List.range 16).all (fun i =>
    let tab := f.getD i []
    tab.length = 64 && tab.all (fun ph => ph.length = i % 8 + 1 && ph.foldl (· + ·) 0 = 16384
      && ph.all (fun c => -32768 ≤ c && c ≤ 32767)))

/-- An image of LIBRARY, of at most 256 × 256 MASK8 pixels for a symbol (R116). -/
def imageOk (side top : Nat) (m : SymImage) : Bool :=
  1 ≤ m.width && m.width ≤ side && 1 ≤ m.height && m.height ≤ side && m.pix.length = m.width * m.height
  && m.pix.all (· ≤ top)

def libraryOk (c : LibraryC) : Bool :=
  c.symbols.all (imageOk 256 0xFF) && c.images.all (imageOk 2048 0xFFFF) &&
  c.curves.all (fun k => k.1 < 256 && curveOk k.2) && c.agingCurves.all agingCurveOk
  && c.filters.all (fun f => f.1 < 4 && filterOk f.2) && c.fallback.all (fun f => f.1 < 8 && f.2.length = 8)

/-- Every valid video layer L0 to L3 has a filter set in some LIBRARY section (R142). -/
def filtersPresent (st : StructureC) (li : List (Nat × LibraryC)) : Bool :=
  (List.range 4).all (fun l =>
    bitsOf (lookReg st.regs (rMSG_LAYER_CFG l) 0) 31 1 = 0 ||
    li.any (fun c => c.2.filters.any (fun f => f.1 = l)))

end Sys2Proof.Machine
end

