-- ==== Sys2Proof/Machine/Ecc.lean ====
section
/-! DEFINITION. Memory integrity: reads and writes of protected memory, injection (R392), and the counters, registers and events of R387 to R391. Memory holds the stored data bits; `Ecc.synd` holds the
syndrome a word would show, so a word's stored check word is the computed one XOR its syndrome. -/

namespace Sys2Proof.Machine

/-- The region of R387 that holds a system-map address; unprotected DRAM has none. -/
def eccRegion (a : Nat) : Option Nat :=
  if a < 0x100000000 then some 0
  else if corrBase ≤ a ∧ a < corrBase + 0x800000 then some 1
  else if 0xE200000000 ≤ a ∧ a < 0xE200100000 then some 2
  else if 0xE100000000 ≤ a ∧ a < 0xE100200000 then some 3
  else if retBase ≤ a ∧ a < retBase + 0x10000 then some 6
  else if 0xF800140000 ≤ a ∧ a < 0xF800180000 ∧ 0x4000 ≤ a % 0x10000 ∧ a % 0x10000 < 0xC400 then some 4
  else none

/-- The engine whose memory holds the word at `w`, and the exception of an uncorrectable error there (R101). -/
def beWord (w : Nat) : Option (Nat × Nat) :=
  if eccRegion w = some 2 then some ((w - 0xE200000000) / 0x10000, 5)
  else if eccRegion w = some 3 then some ((w - 0xE100000000) / 0x20000, 6)
  else none

/-- The syndrome of the word at `w`. -/
def State.syndAt (s : State) (w : Nat) : Nat := tabGet (fun _ => 0) s.ecc.synd w

def State.setSynd (s : State) (w v : Nat) : State :=
  { s with ecc := { s.ecc with synd := tabSet (fun _ => 0) s.ecc.synd w v } }

/-- One stored data bit inverted. -/
def State.flipMem (s : State) (w k : Nat) : State :=
  let a := w + k / 8
  s.setByte a (s.byte a ^^^ BitVec.ofNat 8 (2 ^ (k % 8)))

/-- LAST_CE_INFO and LAST_UE_INFO. -/
def State.eccInfo (s : State) (r syn : Nat) : Nat :=
  2 ^ 28 * (r % 16) + 2 ^ 16 * (syn % 128) + s.lampNs / 2 ^ 10 % 2 ^ 16

/-- The data word that names a word's address. -/
def eccAddrData (r w : Nat) : Nat := 2 ^ 28 * (r % 16) + w / 4 % 2 ^ 28

/-- Nanoseconds in 24 hours. -/
def dayNs : Nat := 86400000000000

/-- The list of recent corrected words, and CE_REPEAT (R390). -/
def State.eccRecent (s : State) (r w : Nat) : State :=
  let now := s.lampNs
  match s.ecc.recent.find? (fun p => p.1 = w) with
  | some p =>
    if now ≤ p.2 + dayNs then
      (s.raise fMEM_ECC_STATUS_CE_REPEAT rMEM_CE_REPEAT_COUNT).post evMEM_CE_REPEAT srcMEM (eccAddrData r w)
    else { s with ecc := { s.ecc with recent := (w, now) :: s.ecc.recent.filter (fun q => decide (q.1 ≠ w)) } }
  | none => { s with ecc := { s.ecc with recent := ((w, now) :: s.ecc.recent).take 16 } }

/-- BE_n.ECC_CE_COUNT counts a word of the engine's memories that is corrected, whoever reads it (R101). -/
def State.beCount (s : State) (w : Nat) : State :=
  match beWord w with
  | some (n, _) => s.bump (rBE_ECC_CE_COUNT n)
  | none => s

/-- A corrected error in region `r` at word `w` (R387, R390, R391). -/
def State.noteCe (s : State) (r w syn : Nat) : State :=
  let s := (s.beCount w).raise fMEM_ECC_STATUS_CE rMEM_CE_COUNT
  let s := s.bumpF ⟨rMEM_ECC_REGION r, 0, 16⟩ 1
  let s := s.setPair rMEM_LAST_CE_ADDR_LO rMEM_LAST_CE_ADDR_HI w
  let s := s.setRegN rMEM_LAST_CE_INFO (s.eccInfo r syn)
  let n := nth 0 s.ecc.since r + 1
  let s := { s with ecc := { s.ecc with since := s.ecc.since.set r n } }
  let key := limKey evMEM_CE r
  let l := s.lastPost key
  let s :=
    if l = 0 ∨ ticksMs 1000 ≤ s.time.now + 1 - l then
      let s := (s.notePost key (s.time.now + 1)).post evMEM_CE srcMEM
        (2 ^ 28 * (r % 16) + 2 ^ 16 * (syn % 128) + satAt 0xFFFF n)
      { s with ecc := { s.ecc with since := s.ecc.since.set r 0 } }
    else s
  s.eccRecent r w

/-- An uncorrectable error in region `r` at word `w` (R387, R391). -/
def State.noteUe (s : State) (r w syn : Nat) : State :=
  let s := s.raise fMEM_ECC_STATUS_UE rMEM_UE_COUNT
  let s := s.bumpF ⟨rMEM_ECC_REGION r, 16, 16⟩ 1
  let s := s.setPair rMEM_LAST_UE_ADDR_LO rMEM_LAST_UE_ADDR_HI w
  let s := s.setRegN rMEM_LAST_UE_INFO (s.eccInfo r syn)
  s.postOnce evMEM_UE r s.lampFrame srcMEM (eccAddrData r w)

/-- A word is read: a single error is corrected and written back, a double one is reported. -/
def State.checkWord (s : State) (w : Nat) : Bool × State :=
  let syn := s.syndAt w
  match eccRegion w with
  | none => (false, s)
  | some r =>
    match eccClassify syn with
    | .clean => (false, s)
    | .corrected none => (false, (s.setSynd w 0).noteCe r w syn)
    | .corrected (some k) => (false, ((if r = 4 then s else s.flipMem w k).setSynd w 0).noteCe r w syn)
    | .uncorrectable => (true, s.noteUe r w syn)

/-- The words with a syndrome that the `n` bytes from `a` touch. -/
def State.dirtyWords (s : State) (a n : Nat) : List Nat :=
  (s.ecc.synd.filter (fun p => decide (p.1 < a + n ∧ a < p.1 + 4 ∧ 0 < n))).map Prod.fst

/-- Every word the range touches is read; true when one is uncorrectable. -/
def State.checkRange (s : State) (a n : Nat) : Bool × State :=
  (s.dirtyWords a n).foldl (fun (u, s) w => let (v, s) := s.checkWord w; (u || v, s)) (false, s)

/-- A read of protected memory: the bytes, whether one of their words is uncorrectable, and the state after. -/
def State.readMem (s : State) (a n : Nat) : (List Byte × Bool) × State :=
  let (u, s) := s.checkRange a n
  ((s.bytes a n, u), s)

/-- How many corrected errors a read of the range meets (R101: each costs an engine one cycle). -/
def State.ceIn (s : State) (a n : Nat) : Nat :=
  ((s.dirtyWords a n).filter (fun w => match eccClassify (s.syndAt w) with | .corrected _ => true | _ => false)).length

/-- The engines in whose memories a read of the range meets an uncorrectable word, each with its exception (R101). -/
def State.beLost (s : State) (a n : Nat) : List (Nat × Nat) :=
  (((s.dirtyWords a n).filter (fun w => eccClassify (s.syndAt w) = .uncorrectable)).filterMap beWord).dedup

/-- The same for a write: it reads the words that it writes only in part (R386). -/
def State.beLostBy (s : State) (a n : Nat) : List (Nat × Nat) :=
  (((s.dirtyWords a n).filter (fun w => decide (w < a ∨ a + n < w + 4) && decide (eccClassify (s.syndAt w) = .uncorrectable))).filterMap
    beWord).dedup

/-- One word before a write: a full write replaces its check word, a narrow one reads it first (R386). -/
def State.prepWord (s : State) (a n w : Nat) : State :=
  if a ≤ w ∧ w + 4 ≤ a + n then s.setSynd w 0
  else
    let (u, s) := s.checkWord w
    if u then s.setSynd w 0x7F else s.setSynd w 0

/-- The injection of R392 into the word at `w`, once, when it is armed for that word's region. -/
def State.injectInto (s : State) (r w : Nat) : State :=
  if s.isF fMEM_ECC_INJECT_ARM ∧ s.getF fMEM_ECC_INJECT_REGION = r then
    let flip := fun (s : State) (k : Nat) =>
      let s := if k < 32 then s.flipMem w k else s
      s.setSynd w (s.syndAt w ^^^ eccColumn k)
    let s := flip s (s.getF fMEM_ECC_INJECT_BIT1)
    let s := if s.isF fMEM_ECC_INJECT_TWO then flip s (s.getF fMEM_ECC_INJECT_BIT2) else s
    s.setF fMEM_ECC_INJECT_ARM 0
  else s

/-- The armed injection into a word whose data bits `Ecc` does not hold apart: only its syndrome shows (region 4). -/
def State.injectWord (s : State) (r w : Nat) : State :=
  if s.injectArmed r then (s.setSynd w s.injectSynd).setF fMEM_ECC_INJECT_ARM 0 else s

/-- A word with syndrome `syn` in a memory that the system address map does not show is read by its owner: true when the word is
lost. Its address is open. -/
def State.synFound (s : State) (r syn : Nat) : Bool × State :=
  let (a, s) := s.fresh
  match eccClassify syn with
  | .clean => (false, s)
  | .corrected _ => (false, s.noteCe r (a.toNat / 4 * 4) syn)
  | .uncorrectable => (true, s.noteUe r (a.toNat / 4 * 4) syn)

/-- The armed injection into a word of such a memory that its owner writes and reads again at once. -/
def State.injectFound (s : State) (r : Nat) : Bool × State :=
  (s.setF fMEM_ECC_INJECT_ARM 0).synFound r s.injectSynd

/-- A safety channel writes its own SRAM (region 8) or its tables (region 9): an armed injection hits the word (R392, log 180). -/
def State.hidWrite (s : State) (r : Nat) : State :=
  if s.injectArmed r then
    { s with ecc := { s.ecc with hid := s.ecc.hid ++ [(r, s.injectSynd)] } }.setF fMEM_ECC_INJECT_ARM 0
  else s

/-- A write of protected memory. -/
def State.writeMem (s : State) (a : Nat) (bs : List Byte) : State :=
  let s := (s.dirtyWords a bs.length).foldl (fun s w => s.prepWord a bs.length w) s
  let s := s.setBytes a bs
  match eccRegion a, bs with
  | some r, _ :: _ => s.injectInto r (a / 4 * 4)
  | _, _ => s

/-- Does the range lie in one DRAM region, within its declared size (R131, R456)? -/
def State.inDram (s : State) (a n : Nat) : Bool :=
  a + n ≤ s.wpEnd || (0x100000000 ≤ a && a + n ≤ 0x100000000 + s.wu)

/-- A unit writes to DRAM; a range that leaves the declared DRAM is a bus error (R26). -/
def State.putDram (s : State) (a : Nat) (bs : List Byte) : State :=
  if bs.isEmpty ∨ s.inDram a bs.length then s.writeMem a bs else s.busErr (if s.dramOk a then s.rangeEnd a else a)

end Sys2Proof.Machine
end

