-- ==== Sys2Proof/Machine/Operands.lean ====
section
/-! DEFINITION. The operand forms of the Keav instructions: engine registers, guards, lanes, the legality of an
instruction's fields, issue and latency, special registers and local data (R77 to R88). -/

namespace Sys2Proof.Machine

/-! ### Engines and their registers (R77) -/

def State.eng (s : State) (n : Nat) : Engine := tabGet (fun _ => {}) s.be n

def State.setEng (s : State) (n : Nat) (e : Engine) : State :=
  { s with be := tabSet (fun _ => {}) s.be n e }

def State.updEng (s : State) (n : Nat) (f : Engine → Engine) : State := s.setEng n (f (s.eng n))

/-- Scalar register k; S0 reads 0. -/
def Engine.s (e : Engine) (k : Nat) : Word := if k = 0 then 0 else tabGet (fun _ => 0#32) e.sr k

/-- S0 ignores writes. -/
def Engine.setS (e : Engine) (k : Nat) (v : Word) : Engine :=
  if k = 0 then e else { e with sr := tabSet (fun _ => 0#32) e.sr k v }

def Engine.v (e : Engine) (k : Nat) : Lanes := tabGet (fun _ => Vector.replicate 32 0#16) e.vr k

def Engine.setV (e : Engine) (k : Nat) (x : Lanes) : Engine :=
  { e with vr := tabSet (fun _ => Vector.replicate 32 0#16) e.vr k x }

/-- Predicate register k; P0 reads all ones. -/
def Engine.p (e : Engine) (k : Nat) : Word := if k = 0 then 0xFFFFFFFF else tabGet (fun _ => 0#32) e.pr k

/-- P0 ignores writes. -/
def Engine.setP (e : Engine) (k : Nat) (v : Word) : Engine :=
  if k = 0 then e else { e with pr := tabSet (fun _ => 0#32) e.pr k v }

/-- Lane k of a vector. -/
def lane (x : Lanes) (k : Nat) : Half := x.toArray.getD k 0

/-- A predicate from its 32 lanes. -/
def predOf (f : Nat → Bool) : Word :=
  BitVec.ofNat 32 ((List.range 32).foldr (fun k acc => (f k).toNat + 2 * acc) 0)

/-- The number of 1 bits. -/
def popCount (w : Word) : Nat := ((List.range 32).filter (fun k => w.getLsbD k)).length

/-! ### Guards and legality (R80 to R82) -/

/-- Is lane k governed by the guard, after PN? -/
def Engine.guard (e : Engine) (f : KvF) (k : Nat) : Bool := (e.p f.pg.toNat).getLsbD k != f.pn

/-- What a register field holds. -/
inductive RegUse where
  | no | s | v | p
deriving DecidableEq, Repr

/-- What the immediate field holds: nothing, any value, or a branch target. -/
inductive ImmUse where
  | no | any | target
deriving DecidableEq, Repr

/-- The operand form of an instruction. -/
structure KvShape where
  guarded : Bool := false
  d : RegUse := .no
  a : RegUse := .no
  b : RegUse := .no
  c : RegUse := .no
  imm : ImmUse := .no
deriving DecidableEq, Repr

/-- An unused register field is 0; a predicate field has bits [4:3] 0. -/
def regFieldOk (u : RegUse) (r : BitVec 5) : Bool :=
  match u with
  | .no => r == 0
  | .p => r.toNat < 8
  | _ => true

/-- Is IMM legal: 0 where the instruction has none, an instruction index as a branch target; bits of IMM that an instruction does not
name are ignored (R80, log 130). -/
def immFieldOk (u : ImmUse) (i : Word) : Bool :=
  match u with
  | .no => i == 0
  | .any => true
  | .target => i.toNat < 8192

/-- R80 to R82: unused fields are 0, and only a guarded form has a guard. -/
def KvShape.ok (h : KvShape) (f : KvF) : Bool :=
  (h.guarded || (f.pg == 0 && !f.pn)) && regFieldOk h.d f.d && regFieldOk h.a f.a && regFieldOk h.b f.b
    && regFieldOk h.c f.c && immFieldOk h.imm f.imm

/-- Is the opcode one of the table "Keav instructions"? -/
def kvListed (op : Nat) : Bool :=
  [(0x00, 0x0A), (0x10, 0x1E), (0x20, 0x25), (0x30, 0x3E), (0x40, 0x43), (0x50, 0x53), (0x58, 0x73), (0x78, 0x7C), (0x80, 0x84),
   (0x90, 0x92), (0xA0, 0xA2), (0xB0, 0xB3)].any (fun r => decide (r.1 ≤ op) && decide (op ≤ r.2))

/-- The 64 bits of an instruction (R80). -/
def kvWord (op : Nat) (f : KvF) : Nat :=
  2 ^ 56 * op + 2 ^ 53 * f.pg.toNat + 2 ^ 52 * f.pn.toNat + 2 ^ 47 * f.d.toNat + 2 ^ 42 * f.a.toNat + 2 ^ 37 * f.b.toNat
    + 2 ^ 32 * f.c.toNat + f.imm.toNat

/-! ### Issue and latency (R83) -/

/-- Names of registers in the scoreboard: scalars, vectors, predicates, special registers, the divider. -/
def keyS (k : Nat) : Nat := k
def keyV (k : Nat) : Nat := 32 + k
def keyP (k : Nat) : Nat := 64 + k
def keySpr (k : Nat) : Nat := 72 + k
def keyDiv : Nat := 400

/-- The cycle at which an instruction that reads `srcs` issues. -/
def Engine.issueAt (e : Engine) (srcs : List Nat) : Nat :=
  srcs.foldl (fun t k => max t (tabGet (fun _ => 0) e.ready k)) e.cycle

/-- A result of latency `lat`, counted from the issue cycle. -/
def Engine.due (e : Engine) (key lat : Nat) : Engine :=
  { e with ready := tabSet (fun _ => 0) e.ready key (e.cycle + lat) }

/-- What an operand field makes the instruction wait for. -/
def srcOf (u : RegUse) (r : BitVec 5) : List Nat :=
  match u with
  | .no => []
  | .s => [keyS r.toNat]
  | .v => [keyV r.toNat]
  | .p => [keyP r.toNat]

/-- The registers an instruction reads: its sources, and its guard. -/
def KvShape.srcs (h : KvShape) (f : KvF) : List Nat :=
  srcOf h.a f.a ++ srcOf h.b f.b ++ srcOf h.c f.c ++ (if f.pg = 0 then [] else [keyP f.pg.toNat])

/-- BE cycles in `n` ticks of 1.25 ns: 1.2 GHz against 800 MHz. -/
def beCycles (n : Nat) : Nat := n * 3 / 2

/-! ### Results -/

/-- A scalar result (S0 ignores it). -/
def State.putS (s : State) (n : Nat) (d : BitVec 5) (v : Word) (lat : Nat) : State :=
  s.updEng n (fun e => (e.setS d.toNat v).due (keyS d.toNat) lat)

/-- A vector result, lane by lane under the guard (R81). -/
def State.putV (s : State) (n : Nat) (f : KvF) (x : Nat → Half) (lat : Nat) : State :=
  s.updEng n (fun e =>
    (e.setV f.d.toNat (Vector.ofFn (fun k : Fin 32 => if e.guard f k then x k else lane (e.v f.d.toNat) k))).due
      (keyV f.d.toNat) lat)

/-- A predicate result: a lane whose guard bit is 0 reads 0 (R81). -/
def State.putP (s : State) (n : Nat) (f : KvF) (x : Nat → Bool) (lat : Nat) : State :=
  s.updEng n (fun e =>
    (e.setP f.d.toNat (predOf (fun k => e.guard f k && x k))).due (keyP f.d.toNat) lat)

/-! ### Local data (R78, R84, R101) -/

/-- The outcome of a local access: its exception, or the value and the corrected errors met. -/
inductive LdOut (α : Type) where
  | ok (v : α) (ce : Nat)
  | bad (code : Nat)

/-- The exception of an access of `n` bytes at `a` that must be a multiple of `al`: 2 LD_ALIGN, 3 LD_RANGE (R100). -/
def ldCheck (a n al : Nat) : Option Nat :=
  if a % al ≠ 0 then some 2 else if 0x20000 < a + n then some 3 else none

/-- An engine reads a range of its memories: whether a word is uncorrectable, and how many were corrected (R101). -/
def State.beCheck (s : State) (a len : Nat) : (Bool × Nat) × State :=
  let ce := s.ceIn a len
  let (u, s) := s.checkRange a len
  ((u, ce), s)

/-- A read of local data of engine `n`. -/
def State.ldRead (s : State) (n a len al : Nat) : LdOut (List Byte) × State :=
  match ldCheck a len al with
  | some c => (.bad c, s)
  | none =>
    let ((u, ce), s) := s.beCheck (ldBase n + a) len
    if u then (.bad 6, s) else (.ok (s.bytes (ldBase n + a) len) ce, s)

/-- A write of engine n's local data that has passed its checks: whether a word that it reads first, because it writes only part
of it, is uncorrectable, and how many of those were corrected (R101). -/
def State.ldPut (s : State) (n a : Nat) (bs : List Byte) : (Bool × Nat) × State :=
  let p := ldBase n + a
  let part := (s.dirtyWords p bs.length).filter (fun w => decide (w < p ∨ p + bs.length < w + 4))
  let out := fun (w : Nat) => eccClassify (s.syndAt w)
  let ce := (part.filter (fun w => match out w with | .corrected _ => true | _ => false)).length
  ((part.any (fun w => out w == .uncorrectable), ce), s.writeMem p bs)

/-- Several such writes in order. -/
def State.ldPuts (s : State) (n : Nat) (ws : List (Nat × List Byte)) : (Bool × Nat) × State :=
  ws.foldl (fun (q, s) w =>
    let ((u, c), s) := s.ldPut n w.1 w.2
    ((q.1 || u, q.2 + c), s)) ((false, 0), s)

/-- A write of local data: an exception, or the corrected errors met. -/
def State.ldWrite (s : State) (n a al : Nat) (bs : List Byte) : LdOut Unit × State :=
  match ldCheck a bs.length al with
  | some c => (.bad c, s)
  | none =>
    let ((u, ce), s) := s.ldPut n a bs
    (if u then .bad 6 else .ok () ce, s)

/-- Sa + imm, modulo 2^32 (R85). -/
def Engine.addr (e : Engine) (f : KvF) : Nat := (e.s f.a.toNat + f.imm).toNat

/-- The lane addresses of VGATHER and VSCATTER. -/
def Engine.laneAddr (e : Engine) (f : KvF) (k : Nat) : Nat :=
  (e.s f.a.toNat + 2 * (lane (e.v f.b.toNat) k).setWidth 32).toNat

/-- Issue cycles of a gather or scatter: the largest number of distinct words addressed in one of the 16 banks, at
least 2 (R84). -/
def bankCycles (addrs : List Nat) : Nat :=
  let words := (addrs.map (· / 4)).dedup
  (List.range 16).foldl (fun m b => max m (words.filter (fun w => w % 16 = b)).length) 2

/-- The local address of mailbox slot m (R78). -/
def slotAddr (m : Nat) : Nat := 0x1C000 + 0x800 * m

/-! ### Special registers -/

/-- The value of a special register, and the state after the read: LT_LO captures LT_HI; a number that names no special
register has no stated value (log 31). -/
def State.readSpr (s : State) (n k : Nat) : Word × State :=
  let e := s.eng n
  match k with
  | 0 => (BitVec.ofNat 32 n, s)
  | 1 => (BitVec.ofNat 32 (match e.prog with | some p => p.number | none => 0), s)
  | 2 => (BitVec.ofNat 32 e.jobSrc, s)
  | 3 => (e.jobArg, s)
  | 4 => (e.rx.setWidth 32, s)
  | 5 => (e.ry.setWidth 32, s)
  | 6 =>
    let t := s.lampNs
    (BitVec.ofNat 32 t, s.updEng n (fun e => { e with ltHi := BitVec.ofNat 32 (t / 2 ^ 32) }))
  | 7 => (e.ltHi, s)
  | 8 => (s.reg (rTG_FRAME_COUNT 0), s)
  | 9 => (s.reg (rTG_FRAME_COUNT 1), s)
  | 10 => (s.reg (rTG_FRAME_COUNT 2), s)
  | 11 => (s.reg (rTG_FRAME_COUNT 3), s)
  | 12 => (BitVec.ofNat 32 (satAt 0xFFFFFFFF e.cycle), s)
  | _ => s.fresh

/-- 32 free lanes, one draw each. -/
def State.freeLane (s : State) (k : Nat) : Half := (Config.freeWord (s.draws + k)).setWidth 16

def State.drawn (s : State) (k : Nat) : State := { s with draws := s.draws + k }

/-! ### Raster, table and sample operations (R86 to R88) -/

/-- E at a point in eighths of a pixel, times 2^19 (R87): A, B and C are s15.16. -/
def edgeAt (a b c : Word) (x8 y8 : Int) : Int := a.toInt * x8 + b.toInt * y8 + c.toInt * 8

/-- REDGE at lane k: the pixel centre. -/
def redgeLane (a b c : Word) (rx ry : Half) (k : Nat) : Bool :=
  0 ≤ edgeAt a b c (8 * (rx.toNat + k : Nat) + 4) (8 * (ry.toNat : Nat) + 4)

/-- RCOV at lane k: 16 sample points, i and j from 0 to 3 at (i + 0.5) / 4. -/
def rcovLane (a b c : Word) (rx ry : Half) (k : Nat) : Half :=
  let n := ((List.range 16).filter (fun m =>
    decide (0 ≤ edgeAt a b c (8 * (rx.toNat + k : Nat) + 2 * (m % 4 : Nat) + 1)
      (8 * (ry.toNat : Nat) + 2 * (m / 4 : Nat) + 1)))).length
  BitVec.ofNat 16 (min (4096 * n) 0xFFFF)

/-- VLUT of one lane on the table of 257 halfwords (R86). -/
def vlutLane (t : List Nat) (v : Half) : Half :=
  let i := v.toNat / 256
  let f := v.toNat % 256
  let t0 : Int := (nth 0 t i : Nat)
  let t1 : Int := (nth 0 t (i + 1) : Nat)
  BitVec.ofInt 16 (t0 + ((t1 - t0) * (f : Nat) + 128) / 256)

/-- A sample descriptor (R88). -/
structure SampDesc where
  base : Nat
  width : Nat
  height : Nat
  stride : Nat
  fmt : Nat
  edge : Nat
deriving DecidableEq, Repr

/-- The descriptor in 16 bytes, or nothing when R88 raises LD_RANGE; what R88 leaves open is log 129. -/
def sampDesc (bs : List Byte) : Option SampDesc :=
  let d : SampDesc := ⟨ofLe (bs.take 4), ofLe ((bs.drop 4).take 2), ofLe ((bs.drop 6).take 2),
    ofLe ((bs.drop 8).take 2), ofLe ((bs.drop 10).take 1), ofLe ((bs.drop 11).take 1)⟩
  let bpp := if d.fmt = 0 then 2 else 1
  if d.fmt ≤ 1 ∧ d.edge ≤ 1 ∧ ofLe (bs.drop 12) % 65536 = 0
      ∧ d.base + (d.height - 1) * d.stride + d.width * bpp ≤ 0x1C000 then some d else none

/-- The local address of texel (x, y), clamped to the edge; none where it reads 0 outside. -/
def SampDesc.addr (d : SampDesc) (x y : Nat) : Option Nat :=
  if (d.width ≤ x ∨ d.height ≤ y) ∧ d.edge = 1 then none
  else
    let x := min x (d.width - 1)
    let y := min y (d.height - 1)
    some (d.base + y * d.stride + (if d.fmt = 0 then 2 * x else x))

def SampDesc.bpp (d : SampDesc) : Nat := if d.fmt = 0 then 2 else 1

/-- Texel (x, y) of the descriptor, widened to 16 bits. -/
def State.texel (s : State) (n : Nat) (d : SampDesc) (x y : Nat) : Nat :=
  match d.addr x y with
  | none => 0
  | some a => if d.fmt = 0 then s.loadN (ldBase n + a) 2 else 257 * s.loadN (ldBase n + a) 1

/-- The texels that a sample at (x, y) reads. -/
def SampDesc.reads (d : SampDesc) (four : Bool) (x y : Half) : List Nat :=
  let ix := x.toNat / 16
  let iy := y.toNat / 16
  (if four then [d.addr ix iy, d.addr (ix + 1) iy, d.addr ix (iy + 1), d.addr (ix + 1) (iy + 1)]
   else [d.addr ix iy]).filterMap id

/-- SAMP: four neighbours weighted by the 4-bit fractions, rounded half up. -/
def State.sampLane (s : State) (n : Nat) (d : SampDesc) (x y : Half) : Half :=
  let ix := x.toNat / 16
  let iy := y.toNat / 16
  let fx := x.toNat % 16
  let fy := y.toNat % 16
  let t := s.texel n d ix iy * (16 - fx) * (16 - fy) + s.texel n d (ix + 1) iy * fx * (16 - fy)
    + s.texel n d ix (iy + 1) * (16 - fx) * fy + s.texel n d (ix + 1) (iy + 1) * fx * fy
  BitVec.ofNat 16 ((t + 128) / 256)

/-- SAMPN: the pixel that contains the point. -/
def State.sampnLane (s : State) (n : Nat) (d : SampDesc) (x y : Half) : Half :=
  BitVec.ofNat 16 (s.texel n d (x.toNat / 16) (y.toNat / 16))

end Sys2Proof.Machine
end

