-- ==== Sys2Proof/Machine/LoadCheck.lean ====
section
/-! DEFINITION. Reading a bit-stream and checking it: the frame (R33 to R36), keys and signature (R41), sections (R38) and
their payloads (R37, R42, R43), in the order of R47. -/

namespace Sys2Proof.Machine

/-! Load error codes (R55). -/

def errBadMagic : Nat := 0x01
def errBadFormat : Nat := 0x02
def errKeyUnknown : Nat := 0x03
def errKeyRevoked : Nat := 0x04
def errSigFail : Nat := 0x05
def errRollback : Nat := 0x06
def errPartMismatch : Nat := 0x07
def errCrcFail : Nat := 0x08
def errHashFail : Nat := 0x09
def errDecryptFail : Nat := 0x0A
def errSectionMissing : Nat := 0x0B
def errSectionUnknown : Nat := 0x0C
def errContentInvalid : Nat := 0x0D
def errEnvMismatch : Nat := 0x0E
def errBaseMismatch : Nat := 0x0F
def errNotPermitted : Nat := 0x10
def errBounds : Nat := 0x11
def errVeto : Nat := 0x12
def errTimeout : Nat := 0x13
def errBusy : Nat := 0x14

/-- The `n`-byte little-endian field of a file at `off`. -/
def fileN (bs : List Byte) (off n : Nat) : Nat := ofLe ((bs.drop off).take n)

def fileBytes (bs : List Byte) (off n : Nat) : List Byte := (bs.drop off).take n

/-- The section-table entry that 64 bytes spell (R36). -/
def readEntry (e : List Byte) : SecEntry :=
  { typ := fileN e 0 1, inst := fileN e 1 1, sflags := fileN e 2 2, offset := fileN e 4 4, length := fileN e 8 4,
    crc := fileN e 0x0C 4, hash := fileBytes e 0x10 32, nonce := fileBytes e 0x30 12, aad := fileBytes e 0 4 }

/-- `n` entries of the table (R33). -/
def readTable (bs : List Byte) : Nat → List SecEntry
  | 0 => []
  | n + 1 => readEntry (bs.take 64) :: readTable (bs.drop 64) n

/-- Two payloads do not overlap. -/
def disjointSec (a b : SecEntry) : Bool := a.offset + a.length ≤ b.offset || b.offset + b.length ≤ a.offset

def pairwiseDisjoint : List SecEntry → Bool
  | [] => true
  | e :: t => t.all (disjointSec e) && pairwiseDisjoint t

/-- The frame (R33, R34, R46): MAGIC, then version, sizes, count, alignment, overlap and the first 8 MiB. -/
def checkFrame (bs : List Byte) : Option Nat :=
  if fileBytes bs 0 4 ≠ [0x44#8, 0x4C#8, 0x5A#8, 0x31#8] then some errBadMagic
  else
    let count := fileN bs 0x0C 1
    let total := fileN bs 0x08 4
    let tab := readTable (bs.drop 0x100) count
    if fileN bs 4 2 = 1 ∧ fileN bs 6 2 = 0x100 ∧ 1 ≤ count ∧ count ≤ 64 ∧ total ≤ 0x4000000 ∧ total ≤ bs.length
      ∧ 0x100 + 64 * count ≤ total
      ∧ tab.all (fun e => e.offset % 64 = 0 && 0x100 + 64 * count ≤ e.offset && e.offset + e.length ≤ total)
      ∧ pairwiseDisjoint tab
      ∧ tab.all (fun e => !([1, 2, 3].contains e.typ) || e.offset + e.length ≤ 0x800000) then none
    else some errBadFormat

/-- R40. -/
def checkPart (s : State) (bs : List Byte) : Option Nat :=
  let p := fileN bs 0x14 2
  if (p = 0x1220 ∨ (p = 0x1240 ∧ s.part = .sz1240)) ∧ fileN bs 0x16 1 ≤ s.stepping then none
  else some errPartMismatch

/-- The bytes the signature covers (R35). -/
def signedBytes (bs : List Byte) : List Byte :=
  bs.take 0xC0 ++ fileBytes bs 0x100 (64 * fileN bs 0x0C 1)

/-- R41: key slot, revocation, key hash, signature, rollback. -/
def checkKeys (s : State) (bs : List Byte) : Option Nat :=
  let slot := fileN bs 0x0D 1
  match nth none s.otp.keys slot with
  | none => some errKeyUnknown
  | some h =>
    if nth false s.otp.revoked slot then some errKeyRevoked
    else if sha256 (fileBytes bs 0x60 64) ≠ h then some errKeyUnknown
    else if ecdsaVerify (fileBytes bs 0x60 64) (sha256 (signedBytes bs)) (fileBytes bs 0xC0 64) = false then some errSigFail
    else if fileN bs 0x10 4 < s.otp.rollback then some errRollback
    else none

/-- Class of a section type (R38): some true STRUCTURAL, some false RUNTIME, none unknown. -/
def secClass (t : Nat) : Option Bool :=
  if 1 ≤ t ∧ t ≤ 9 then some true
  else if (0x20 ≤ t ∧ t ≤ 0x23) ∨ t = 0xF0 then some false else none

def structuralBit (e : SecEntry) : Bool := e.sflags % 2 = 1
def encryptedBit (e : SecEntry) : Bool := e.sflags / 2 % 2 = 1

/-- May several instances of the type stand in one file? -/
def multiSec (t : Nat) : Bool := t = 0x22 || t = 0x23

/-- Does the content given for an entry read as the entry's type? -/
def contentType : Content → Nat
  | .structure_ _ => 1
  | .board _ => 2
  | .safety _ => 3
  | .power _ => 4
  | .time _ => 5
  | .host _ => 6
  | .projection _ => 7
  | .lockmap _ => 8
  | .keywrap => 9
  | .safetyRt _ => 0x20
  | .schedule _ => 0x21
  | .beprog _ => 0x22
  | .library _ => 0x23
  | .note => 0xF0

/-- Unknown type, class disagreement, or a second instance. -/
def secKnown (tab : List SecEntry) : Nat → Bool
  | 0 => true
  | n + 1 =>
    (match tab[n]? with
      | none => true
      | some e =>
        secClass e.typ = some (structuralBit e)
        && (tab.take n).all (fun f => f.typ ≠ e.typ || (multiSec e.typ && f.inst ≠ e.inst)))
    && secKnown tab n

/-- R38: unknown before missing, in the order of the table of codes. -/
def checkSections (tab : List SecEntry) : Option Nat :=
  if secKnown tab tab.length = false then some errSectionUnknown
  else if [1, 2, 3, 4, 5, 6, 7, 0x22].all (fun t => tab.any (fun e => e.typ = t)) = false then some errSectionMissing
  else if tab.any encryptedBit ∧ ¬ tab.any (fun e => e.typ = 9) then some errSectionMissing
  else none

/-- Phase 0 of a whole bit-stream (R47). -/
def checkPhase0 (s : State) (bs : List Byte) : Option Nat :=
  (checkFrame bs).or ((checkPart s bs).or ((checkKeys s bs).or
    (checkSections (readTable (bs.drop 0x100) (fileN bs 0x0C 1)))))

def payload (img : LoadImg) (e : SecEntry) : List Byte := fileBytes img.bytes e.offset e.length

/-- The content key of an image's KEYWRAP (R43): none when there is none or it does not open. -/
def contentKey (img : LoadImg) : Option (List Byte) :=
  match img.table.find? (fun e => e.typ = 9) with
  | none => none
  | some e =>
    let p := payload img e
    gcmOpen (beBytes 32 Config.deviceKey.toNat) (p.take 12) [] (p.drop 12)

/-- Does the payload open under the content key (R42)? -/
def opensWith (key : Option (List Byte)) (e : SecEntry) (p : List Byte) : Bool :=
  match key with
  | none => false
  | some k => (gcmOpen k e.nonce e.aad p).isSome

/-- A payload in the clear (R42); what does not open is kept as it is. -/
def clearPayload (img : LoadImg) (e : SecEntry) : List Byte :=
  let p := payload img e
  if encryptedBit e then ((contentKey img).bind (fun k => gcmOpen k e.nonce e.aad p)).getD p else p

/-- The ranges of a LOCKMAP payload (R51): pairs of a register offset and a count, four bytes each; none where bytes are left over. -/
def lockPairs : List Byte → Option (List (Nat × Nat))
  | [] => some []
  | a :: b :: c :: d :: e :: f :: g :: h :: t => (lockPairs t).map (fun l => (ofLe [a, b, c, d], ofLe [e, f, g, h]) :: l)
  | _ => none

/-- The reading of a section's payload: LOCKMAP from its bytes, any other as given beside the file (log 9), a supplied program with
its defaults (R108). -/
def readContent (img : LoadImg) (e : SecEntry) (c : Content) : Content :=
  if e.typ = 8 then ((lockPairs (clearPayload img e)).map Content.lockmap).getD .note
  else match c with
    | .beprog p => .beprog (progResolve p)
    | c => c

/-- The image a file spells, with the reading of its payloads. -/
def readImage (bs : List Byte) (cs : List Content) : LoadImg :=
  let img : LoadImg := { bytes := bs, table := readTable (bs.drop 0x100) (fileN bs 0x0C 1), contents := cs, flags := fileN bs 0x0E 2,
                         keySlot := fileN bs 0x0D 1, secVersion := fileN bs 0x10 4, build := fileN bs 0x18 8, lampId := fileN bs 0x24 4 }
  { img with contents := img.table.zipIdx.map (fun q => readContent img q.1 (nth .note cs q.2)) }

/-- The phase that handles a section (R47). -/
def secPhase (t : Nat) : Nat :=
  if t = 1 ∨ t = 2 ∨ t = 3 ∨ t = 9 then 1 else if 4 ≤ t ∧ t ≤ 8 then 2 else 3

/-- The contents in force with one more content added; LIBRARY and BEPROG replace their own instance. -/
def cfgAdd (c : LampCfg) (inst : Nat) : Content → LampCfg
  | .structure_ x => { c with st := x }
  | .board x => { c with bd := x }
  | .safety x => { c with sf := x }
  | .power x => { c with pw := x }
  | .time x => { c with ti := x }
  | .host x => { c with ho := x }
  | .projection x => { c with pj := x }
  | .safetyRt x => { c with rt := x }
  | .schedule x => { c with sc := x }
  | .beprog x => { c with be := c.be.filter (fun p => decide (p.1 ≠ inst)) ++ [(inst, x)] }
  | .library x => { c with li := c.li.filter (fun p => decide (p.1 ≠ inst)) ++ [(inst, x)] }
  | .lockmap _ => c
  | .keywrap => c
  | .note => c

/-- All the contents of an image added to a configuration. -/
def cfgOf (c : LampCfg) : List SecEntry → List Content → LampCfg
  | e :: es, x :: xs => cfgOf (cfgAdd c e.inst x) es xs
  | _, _ => c

/-- R39: one content against its ranges, beside what the other sections declare (`cfg`). Capture writers (R138) are held apart
over all the sections up to this one in the order in which they are applied. -/
def contentOk (part : Part) (cfg : LampCfg) : Content → Bool
  | .structure_ c => structureOk part cfg.bd c
  | .board c => boardOk cfg.st c
  | .safety c => safetyOk c && basesOk cfg.bd c.regs && capwDistinct (cfg.st.regs ++ cfg.bd.regs ++ c.regs)
  | .power c => powerOk c && basesOk cfg.bd c.regs && capwDistinct (cfg.st.regs ++ cfg.bd.regs ++ cfg.sf.regs ++ c.regs)
  | .time c => timeOk c && basesOk cfg.bd c.regs && capwDistinct (cfg.st.regs ++ cfg.bd.regs ++ cfg.sf.regs ++ cfg.pw.regs ++ c.regs)
  | .host c => hostOk cfg.bd c && capwDistinct (cfg.st.regs ++ cfg.bd.regs ++ cfg.sf.regs ++ cfg.pw.regs ++ cfg.ti.regs ++ c.regs)
  | .projection c => projectionOk cfg.st c
  | .lockmap l => lockmapOk l
  | .keywrap => true
  | .safetyRt c => safetyRtOk cfg.sf c
  | .schedule l => scheduleOk l
  | .beprog c => beprogOk c && beprogSetOk (cfg.be.map Prod.snd)
  | .library c => libraryOk c
  | .note => true

/-- CRC, then HASH, then decryption, then content of one section (R47). -/
def checkSection (part : Part) (cfg : LampCfg) (img : LoadImg) (e : SecEntry) (c : Content) : Option Nat :=
  let p := payload img e
  if crc32c p ≠ e.crc then some errCrcFail
  else if sha256 p ≠ e.hash then some errHashFail
  else if e.typ = 9 ∧ (contentKey img).isNone then some errDecryptFail
  else if encryptedBit e && !opensWith (contentKey img) e p then some errDecryptFail
  else if contentType c ≠ e.typ ∨ contentOk part cfg c = false then some errContentInvalid
  else none

/-- The first failing section of a phase in table order (log 127), with its index in the table. -/
def checkList (part : Part) (cfg : LampCfg) (img : LoadImg) (ph : Nat) :
    List SecEntry → List Content → Nat → Option (Nat × Nat)
  | [], _, _ => none
  | e :: es, cs, i =>
    let c := cs.headD .note
    if secPhase e.typ = ph then
      match checkSection part cfg img e c with
      | some code => some (code, i)
      | none => checkList part cfg img ph es cs.tail (i + 1)
    else checkList part cfg img ph es cs.tail (i + 1)

/-- The index of the first section of a type, 0xFF when the file has none. -/
def secIndex (t : Nat) (tab : List SecEntry) : Nat :=
  match tab.findIdx? (fun e => e.typ = t) with
  | some i => i
  | none => 0xFF

/-- One phase of a load: the code and the section's index when it fails. In phase 3 every valid video layer must have a
filter set (R142). -/
def checkPhase (part : Part) (base : LampCfg) (img : LoadImg) (ph : Nat) : Option (Nat × Nat) :=
  let cfg := cfgOf base img.table img.contents
  match checkList part cfg img ph img.table img.contents 0 with
  | some r => some r
  | none => if ph = 3 ∧ filtersPresent cfg.st cfg.li = false then some (errContentInvalid, secIndex 0x23 img.table) else none

/-- SHA-256 of an image's STRUCTURE section as its table gives it. -/
def structHash (img : LoadImg) : List Byte :=
  match img.table.find? (fun e => e.typ = 1) with
  | some e => e.hash
  | none => List.replicate 32 0#8

/-- A runtime package (R52, R53): frame, part, keys, permitted sections, base hash, then every section. -/
def checkPackage (s : State) (img : LoadImg) : Option Nat :=
  let bs := img.bytes
  (checkFrame bs).or ((checkPart s bs).or ((checkKeys s bs).or (
    if img.flags / 2 % 2 = 0 ∨ img.table.any (fun e => secClass e.typ = some true && e.typ ≠ 9) then some errNotPermitted
    else if fileBytes bs 0x28 32 ≠ wordBytes (s.regWords (rBSTREAM_STRUCT_HASH 0) 8) then some errBaseMismatch
    else if secKnown img.table img.table.length = false then some errSectionUnknown
    else if img.table.any encryptedBit ∧ ¬ img.table.any (fun e => e.typ = 9) then some errSectionMissing
    else
      match (checkPhase s.part s.loader.cfg img 1).or (checkPhase s.part s.loader.cfg img 3) with
      | some (code, i) =>
        if code = errContentInvalid ∧ (img.table[i]?.map SecEntry.typ) = some 0x20 then some errBounds else some code
      | none => none)))

/-- Does an image carry a SAFETY_RT section? -/
def hasSafetyRt (img : LoadImg) : Bool := img.table.any (fun e => e.typ = 0x20)

end Sys2Proof.Machine
end

