-- ==== Sys2Proof/Machine/Records.lean ====
section
/-! DEFINITION. The records that the supplied programs take from their mailboxes: the forms of POSE and OBJECT_LIST, and which of several
is the latest (R109, R111, R126). -/

namespace Sys2Proof.Machine

/-- A POSE payload with a wrong length or a reserved bit that is not 0 (R109). -/
def poseBad (b : List Byte) : Bool := b.length != 32 || fileN b 0x1C 4 != 0 || decide (4 ≤ fileN b 0x1A 2)

/-- Object i of a list payload. -/
def objAt (b : List Byte) (i : Nat) : List Byte := (b.drop (0x10 + 28 * i)).take 28

/-- R126: a list with COUNT above 64, a length that disagrees, or a reserved byte that is not 0. -/
def listBad (b : List Byte) : Bool :=
  let n := fileN b 8 2
  decide (64 < n) || b.length ≠ 16 + 28 * n || fileN b 0x0A 2 ≠ 0 || (List.range n).any (fun i => 2 ≤ fileN (objAt b i) 3 1)

/-- The record with the latest time, the later arrival of equals (R111): `l` stands in arrival order. -/
def latestOf (l : List SlotRec) : Option SlotRec :=
  l.foldl (fun h r => match h with
    | some x => if fileN x.payload 0 8 ≤ fileN r.payload 0 8 then some r else h
    | none => some r) none

/-- The slots that a mask engine keeps: of the latest POSE and of the latest OBJECT_LIST. -/
def keptSlots (l : List SlotRec) : List Nat :=
  ([latestOf (l.filter (fun r => r.opcode == 0x10 && !poseBad r.payload)),
    latestOf (l.filter (fun r => r.opcode == 0x11 && !listBad r.payload))].filterMap id).map SlotRec.slot

end Sys2Proof.Machine
end

