-- ==== Sys2Proof/Machine/Flags.lean ====
section
/-! DEFINITION. The status and flags of an engine: its state, exceptions and their consequences (R94, R100, R102), the
loading of images (R77, R106), triggers and the start and end of jobs (R99, R104). -/

namespace Sys2Proof.Machine

/-! ### Status -/

/-- Engine states of BE_n.STATUS. -/
def beOFF : Nat := 0
def beLOADING : Nat := 1
def beIDLE : Nat := 2
def beRUN : Nat := 3
def beWAIT : Nat := 4
def beFAULTED : Nat := 5
def beSTOPPING : Nat := 6

def State.beState (s : State) (n : Nat) : Nat := s.getF (fBE_STATUS_STATE n)

def State.setBeState (s : State) (n st : Nat) : State := s.setF (fBE_STATUS_STATE n) st

/-- WAIT_ON's code. -/
def KWait.code : KWait → Nat
  | .none => 0
  | .fwait _ _ => 1
  | .mbrecv _ => 2
  | .dmawait _ => 3
  | .dmaq _ _ => 4
  | .fsig _ => 5
  | .halt => 6

/-- The engine begins to wait; its pc stays at the waiting instruction. -/
def State.beWait (s : State) (n : Nat) (w : KWait) : State :=
  let s := s.updEng n (fun e => { e with wait := w, waitFrom := s.time.now, limFrom := s.time.now })
  (s.setBeState n beWAIT).setF (fBE_STATUS_WAIT_ON n) w.code

/-- BE cycles of the wait in progress that are not in CYCLE yet. -/
def State.waitCycles (s : State) (n : Nat) : Nat :=
  beCycles (s.time.now - (s.eng n).waitFrom) / (if s.hk.beHalf then 2 else 1)

/-- They are counted: CYCLE runs on while an engine waits. -/
def State.waitCount (s : State) (n : Nat) : State :=
  let k := s.waitCycles n
  s.updEng n (fun e => { e with cycle := e.cycle + k, waitFrom := s.time.now })

/-- Every wait is counted up to now: the BE clock stops or changes its rate. -/
def State.beSettle (s : State) : State :=
  (List.range 16).foldl (fun s n => if s.beState n = beWAIT then s.waitCount n else s) s

/-- A wait ends: the cycles it took are added, and the engine goes on at the next instruction. -/
def State.beResume (s : State) (n : Nat) : State :=
  let s := (s.waitCount n).updEng n (fun e => { e with wait := .none, cycle := e.cycle + 1, pc := e.pc + 1 })
  (s.setBeState n beRUN).setF (fBE_STATUS_WAIT_ON n) 0

/-- The BE clock is gated in every power state but RUN (R103, R400). -/
def State.beGated (s : State) : Bool := s.getF fPWR_PWR_STATUS_CURRENT ≠ 0

/-- DMA writes to the system address map outstanding on an engine. -/
def Engine.writesPending (e : Engine) : Bool := e.ch0.any (·.toSys) || e.ch1.any (·.toSys)

/-- Those of the job that runs: a STOP, a RESET or an exception has muted what an earlier one left (R85, R94). -/
def Engine.jobWrites (e : Engine) : Bool := (e.ch0 ++ e.ch1).any (fun x => x.toSys && !x.mute)

/-- BE_n.DMA_STATUS: the queue depths; the transactions in flight are open while a descriptor is active (log 32). -/
def State.dmaStatus (s : State) (n : Nat) : Word × State :=
  let e := s.eng n
  let d := e.ch0.length % 8 + 16 * (e.ch1.length % 8)
  if e.ch0.isEmpty && e.ch1.isEmpty then (BitVec.ofNat 32 d, s)
  else
    let (v, s) := s.fresh
    (BitVec.ofNat 32 (d + 256 * (v.toNat % 17)), s)

/-- Records delivered and not yet returned by MBRECV (log 33). -/
def Engine.waiting (e : Engine) : Nat := (e.slots.filter (fun x => !x.2)).length

/-! ### Fences (R91) -/

def State.fence (s : State) (k : Nat) : Word := s.reg (rMSG_FENCE (k % 16))

/-- PIX-clock crossing of R150 in ticks of 1.25 ns: what started this long before the latch point has certainly
arrived, and what started this recently certainly has not. -/
def crossSure : Nat := 14
def crossNot : Nat := 5

/-- A crossing item reaches the arbiter: a flip supersedes the group's pending one (R149). -/
def State.arrive (s : State) : Cross → State
  | .flip g f =>
    let s := if s.comp.pend.any (fun p => p.1 = g) then
        s.raise (fMSG_FLIP_FLAGS_SUPERSEDED g) (rMSG_SUPERSEDED_COUNT g) else s
    { s with comp := { s.comp with pend := s.comp.pend.filter (fun p => decide (p.1 ≠ g)) ++ [(g, f)] } }
  | .inc k n =>
    let v := tabGet (fun _ => 0#32) s.comp.arb k + n
    { s with comp := { s.comp with arb := tabSet (fun _ => 0#32) s.comp.arb k v } }

/-- Items that have certainly arrived reach the arbiter, oldest first. -/
def State.settleCross (s : State) : State :=
  let old := s.comp.flight.takeWhile (fun c => c.1 + crossSure ≤ s.time.now)
  let s := { s with comp := { s.comp with flight := s.comp.flight.drop old.length } }
  old.foldl (fun s c => s.arrive c.2) s

def State.cross (s : State) (c : Cross) : State :=
  let s := s.settleCross
  { s with comp := { s.comp with flight := s.comp.flight ++ [(s.time.now, c)] } }

/-- Fence k advances by n, for every reader and, across R19, for the arbiter (R91, R150). -/
def State.signal (s : State) (k : Nat) (n : Word) : State :=
  (s.setReg (rMSG_FENCE (k % 16)) (s.fence k + n)).cross (.inc (k % 16) n)

/-- Has fence k reached target t: (fence - t) signed is 0 or greater. -/
def State.fenceReached (s : State) (k : Nat) (t : Word) : Bool := 0 ≤ (s.fence k - t).toInt

/-! ### Images (R77, R106) -/

/-- The architectural state of an engine after a load: every register 0. -/
def freshEngine (p : Option BeprogC) (lastFault : Option Nat) : Engine := { prog := p, lastFault := lastFault }

/-- A program's instruction image as it stands in memory. -/
def imageBytes (p : BeprogC) : List Byte :=
  wordBytes (p.image.flatMap (fun (w : BitVec 64) => [w.setWidth 32, (w >>> 32).setWidth 32]))

/-- Where the copy of engine n's images stands: the last 4 MiB of the protected window, 256 KiB an engine, the initial local data 64 KiB
after the instruction image (DESIGN CHOICE, log 162). -/
def State.copyBase (s : State) (n : Nat) : Nat := s.wp - 0x400000 + 0x40000 * n

/-- Images written into engine n (R77, R106). -/
def State.putImages (s : State) (n : Nat) (im da : List Byte) : State := (s.writeMem (imemBase n) im).writeMem (ldBase n) da

/-- Images kept for engine n in the protected window (R106). -/
def State.putCopy (s : State) (n : Nat) (im da : List Byte) : State :=
  (s.putDram (s.copyBase n) im).putDram (s.copyBase n + 0x10000) da

/-- A program's images written into engine n, and their copy. -/
def State.loadImages (s : State) (n : Nat) (p : BeprogC) : State :=
  (s.putCopy n (imageBytes p) p.data).putImages n (imageBytes p) p.data

/-- The copy of engine n's images, as long as those of program p: nothing when one of its words is lost. -/
def State.readCopy (s : State) (n : Nat) (p : BeprogC) : Option (List Byte × List Byte) × State :=
  let ((im, u), s) := s.readMem (s.copyBase n) (8 * p.image.length)
  let ((da, v), s) := s.readMem (s.copyBase n + 0x10000) p.data.length
  (if u || v then none else some (im, da), s)

/-- Engine n takes the images that engine k's copy holds: false when the copy is lost, and nothing is written. -/
def State.reloadFrom (s : State) (k n : Nat) (p : BeprogC) : Bool × State :=
  match s.readCopy k p with
  | (none, s) => (false, s)
  | (some (im, da), s) => (true, (if k = n then s else s.putCopy n im da).putImages n im da)

/-- The limits and the entry of a program set in the registers (R106); the limits are the registers' reset values (R107, log 132). -/
def State.setBeRegs (s : State) (n : Nat) (p : BeprogC) : State :=
  let s := (s.setRegN (rBE_ENTRY_PC n) (p.entry % 8192)).setReg (rBE_JOB_TRIG n) (p.trig.getD 0)
  (s.setRegN (rBE_JOB_TIME_LIMIT n) 10000).setRegN (rBE_FWAIT_LIMIT n) 5000

/-- What a supplied program held is gone. -/
def State.dropProg (s : State) (n : Nat) : State := { s with progs := tabDel s.progs n }

/-- An engine whose images are loaded holds program p and waits in IDLE. -/
def State.enterProgram (s : State) (n : Nat) (p : BeprogC) : State :=
  let s := (((s.dropProg n).setEng n (freshEngine (some p) none)).setBeRegs n p).setRegN (rBE_STATUS n) 0
  s.setBeState n beIDLE

/-- A program placed in an engine. -/
def State.placeProgram (s : State) (n : Nat) (p : BeprogC) : State := (s.loadImages n p).enterProgram n p

/-! ### Exceptions (R94, R100, R102) -/

/-- Queued descriptors that have not started are discarded; the active ones go on without a fence (R94, R100). -/
def Engine.cutDma (e : Engine) : Engine :=
  { e with ch0 := (e.ch0.take 1).map (fun x => { x with mute := true }),
           ch1 := (e.ch1.take 1).map (fun x => { x with mute := true }), mute := true }

/-- The spare k takes over engine n's program, whose images it has. -/
def State.spareTake (s : State) (k n : Nat) (p : BeprogC) : State :=
  let s := s.enterProgram k p
  let s := ((s.setReg (rBE_JOB_TRIG k) (s.reg (rBE_JOB_TRIG n))).setReg (rBE_JOB_TIME_LIMIT k)
    (s.reg (rBE_JOB_TIME_LIMIT n))).setReg (rBE_FWAIT_LIMIT k) (s.reg (rBE_FWAIT_LIMIT n))
  let s := (s.setF fBE_SPARE_IN_USE 1).setF fBE_SPARE_REPLACED n
  s.post evBE_SPARE_TAKEOVER n (256 * k + n)

/-- R102: the spare takes over a spare-eligible program with the images that engine n's copy holds, or the program is lost. -/
def State.spareTakeover (s : State) (n : Nat) : State :=
  match (s.eng n).prog with
  | none => s
  | some p =>
    let k := s.getF fBE_SPARE_ENGINE
    let free := p.spareEligible.getD false && s.isF fBE_SPARE_VALID && !s.isF fBE_SPARE_IN_USE && k != n
    let (ok, s) := if free then s.reloadFrom n k p else (false, s)
    if ok then s.spareTake k n p else s.post evBE_PROGRAM_LOST n (256 * (p.number % 256) + n)

/-- The engine enters FAULTED with exception `code` (R100); a second fault within 1 s is for good (R102). -/
def State.enterFaulted (s : State) (n code : Nat) : State :=
  let pc := (s.eng n).pc % 8192
  let again := match (s.eng n).lastFault with
    | some t => decide (s.time.now ≤ t + ticksMs 1000)
    | none => false
  let s := s.updEng n (fun e => { e with trap := none, wait := .none, lastFault := some s.time.now, lost := e.lost || again })
  let s := ((s.setF (fBE_STATUS_EXC n) code).setF (fBE_STATUS_WAIT_ON n) 0).setF (fBE_STATUS_TRIG_PENDING n) 0
  let s := (s.setBeState n beFAULTED).raise (fBE_FLAGS_FAULT n) (rBE_FAULT_COUNT n)
  let s := s.post evBE_ENGINE_FAULT n (2 ^ 24 * n + 2 ^ 16 * code + pc)
  if again then s.spareTakeover n else s

/-- An exception: the engine stops issuing, and enters FAULTED once its DMA in flight has completed (R100). -/
def State.engineTrap (s : State) (n code : Nat) : State :=
  let st := s.beState n
  if st = beOFF ∨ st = beFAULTED ∨ st = beSTOPPING ∨ st = beLOADING then s
  else
    let s := s.updEng n Engine.cutDma
    if (s.eng n).ch0.isEmpty ∧ (s.eng n).ch1.isEmpty then s.enterFaulted n code
    else
      let s := s.updEng n (fun e => { e with trap := some code, wait := .none })
      ((s.setBeState n beSTOPPING).setF (fBE_STATUS_WAIT_ON n) 0).setF (fBE_STATUS_TRIG_PENDING n) 0

/-- The exceptions of engines whose memories have lost words to an access (R101). -/
def State.trapAll (s : State) (l : List (Nat × Nat)) : State := l.foldl (fun s q => s.engineTrap q.1 q.2) s

/-- A unit that is not the engine reads a range: in an engine's memory R101 holds too. -/
def State.readAll (s : State) (a n : Nat) : (List Byte × Bool) × State :=
  let l := s.beLost a n
  let (r, s) := s.readMem a n
  (r, s.trapAll l)

/-- A unit that is not the engine's own instruction writes a range (R101). -/
def State.writeAll (s : State) (a : Nat) (bs : List Byte) : State :=
  let l := s.beLostBy a bs.length
  (s.writeMem a bs).trapAll l

/-- The DMA of an engine has changed: a pending exception takes effect when nothing is in flight. -/
def State.settleTrap (s : State) (n : Nat) : State :=
  match (s.eng n).trap with
  | some c => if (s.eng n).ch0.isEmpty ∧ (s.eng n).ch1.isEmpty then s.enterFaulted n c else s
  | none => s

/-! ### Triggers and jobs (R99, R104) -/

/-- The generator whose light-frame starts trigger engine n: none while it is OFF. -/
def State.trigTg (s : State) (n : Nat) : Option Nat :=
  let t := s.getF (fBE_JOB_TRIG_TG n)
  if s.isF (fBE_JOB_TRIG_LAMP n) then s.lampTg else if s.getF (fTG_STATUS_STATE t) = 0 then none else some t

/-- The job argument of a trigger source: schedule entry, fence value, mailbox depth, frame counter; a software start
has none stated (log 34). It is taken when the job starts (log 133). -/
def State.jobArgOf (s : State) (n src : Nat) : Word × State :=
  match src with
  | 1 => (BitVec.ofNat 32 (s.getF (fBE_JOB_TRIG_SCHED_ENTRY n)), s)
  | 2 => (BitVec.ofNat 32 (s.eng n).slots.length, s)
  | 3 => (s.fence (s.getF (fBE_JOB_TRIG_FENCE n)), s)
  | 4 =>
    (s.reg (rTG_FRAME_COUNT ((s.trigTg n).getD (s.getF (fBE_JOB_TRIG_TG n)))), s)
  | _ => s.fresh

/-- The new images of a runtime update load before the next job (R104); DMA still queued or in flight is dropped (log 134). -/
def State.takeUpdate (s : State) (n : Nat) : State :=
  match (s.eng n).next with
  | none => s
  | some p =>
    let old := s.eng n
    let slots := if old.prog.any (fun q => q.kind != .user) then old.slots.filter (fun x => !x.2) else old.slots
    let s := (s.dropProg n).setEng n { freshEngine (some p) old.lastFault with slots := slots }
    let s := (s.loadImages n p).setRegN (rBE_ENTRY_PC n) (p.entry % 8192)
    let s := s.setReg (rBE_JOB_TRIG n) (p.trig.getD 0)
    s.post evBE_PROG_ACTIVE n (256 * (p.number % 256) + n)

/-- The record of mailbox slot m. -/
def State.slotRec (s : State) (e m : Nat) : SlotRec :=
  let b := s.bytes (ldBase e + slotAddr m) 0x800
  ⟨m, fileN b 0 8, fileN b 0x12 1, (b.drop 0x18).take (fileN b 0x14 2)⟩

/-- The slots that hold records for the job of engine n: those whose record arrived `cut` ns before its trigger. -/
def State.dueSlots (s : State) (n cut : Nat) : List Nat :=
  let g := s.eng n
  ((g.slots.filter (fun x => !x.2)).map Prod.fst).filter (fun m => decide ((s.slotRec n m).arrival + cut ≤ g.trigLt))

/-- The job of a supplied program drains its mailbox (R111): the mask program takes what had arrived 5 µs before the trigger and keeps
the slots of the latest POSE and of the latest list; every other slot it has read is free. True when a slot cannot be read. -/
def State.jobTake (s : State) (n : Nat) : Bool × State :=
  match (s.eng n).prog with
  | none => (false, s)
  | some p =>
    if p.kind = .user then (false, s)
    else
      let mask := p.kind == .mask
      let due := s.dueSlots n (if mask then 5000 else 0)
      let read := ((s.eng n).slots.filter (fun x => x.2 || due.contains x.1)).map (fun x => s.slotRec n x.1)
      let kept := if mask then keptSlots read else []
      let (ue, s) := due.foldl (fun (a : Bool × State) m =>
        let ((u, _), t) := a.2.beCheck (ldBase n + slotAddr m) 0x800
        (a.1 || u, t)) (false, s)
      (ue, s.updEng n (fun g =>
        { g with taken := read.filter (fun r => due.contains r.slot),
                 slots := g.slots.filterMap (fun x =>
                   if x.2 || due.contains x.1 then (if kept.contains x.1 then some (x.1, true) else none) else some x) }))

/-- A job starts at ENTRY_PC, for a trigger of source `src` that came at lamp time `lt` (R99). -/
def State.startJob (s : State) (n src lt : Nat) : State :=
  let s := s.takeUpdate n
  let (arg, s) := s.jobArgOf n src
  let pc := s.regN (rBE_ENTRY_PC n) % 8192
  let s := s.updEng n (fun e =>
    { e with pc := pc, jobSrc := src, jobArg := arg, cycle := 0, ready := [], wait := .none, mute := false,
             jobFrom := s.time.now, trigLt := lt, jobLt := s.lampNs, jobFrame := s.lampTiming.frame })
  let (ue, s) := s.jobTake n
  let s := ((s.setBeState n beRUN).setF (fBE_STATUS_WAIT_ON n) 0).setF (fBE_STATUS_TRIG_PENDING n) 0
  if ue then s.engineTrap n 6 else s

/-- A trigger of source `src` reaches engine n (R104); while the BE clock is gated it becomes pending (R407). -/
def State.trigger (s : State) (n src : Nat) : State :=
  let st := s.beState n
  if st = beIDLE ∧ s.beGated = false then s.startJob n src s.lampNs
  else if st = beIDLE ∨ st = beRUN ∨ st = beWAIT then
    if s.isF (fBE_STATUS_TRIG_PENDING n) then
      (s.raise (fBE_FLAGS_TRIG_OVERRUN n) (rBE_TRIG_OVERRUN_COUNT n)).postGap evBE_TRIG_OVERRUN n (ticksMs 10) n n
    else
      let s := (s.updEng n (fun e => { e with pendSrc := src, pendLt := s.lampNs })).setF (fBE_STATUS_TRIG_PENDING n) 1
      if s.getF fPWR_PWR_STATUS_CURRENT = 1 ∧ s.isF fPWR_PWR_CFG_IDLE_WAKE_ON_TRIG then s.wakeNote 8 else s
  else s

/-- A job ends: its counters, then IDLE, a pending trigger's job, or a job for records still waiting (R104, R107). -/
def State.jobDone (s : State) (n : Nat) : State :=
  let e := s.eng n
  let s := s.setRegN (rBE_JOB_COUNT n) ((s.regN (rBE_JOB_COUNT n) + 1) % 2 ^ 32)
  let s := s.setRegN (rBE_LAST_JOB_TIME n) (satAt 0xFFFFFFFF e.cycle)
  let s := s.updEng n (fun e => { e with wait := .none })
  let s := (s.setBeState n beIDLE).setF (fBE_STATUS_WAIT_ON n) 0
  if s.isF (fBE_STATUS_TRIG_PENDING n) then s.startJob n (s.eng n).pendSrc (s.eng n).pendLt
  else if s.getF (fBE_JOB_TRIG_SRC n) = 2 ∧ 0 < e.waiting then s.startJob n 2 s.lampNs
  else s

/-- The BE clock runs again after `k` ticks: waits and jobs have not counted them (R103), and engines with a pending trigger start
their jobs (R407). -/
def State.beUngate (s : State) : State :=
  let k := s.time.now - s.pwr.gateAt
  (List.range 16).foldl (fun s n =>
    let s := s.updEng n (fun e => { e with waitFrom := s.time.now, limFrom := e.limFrom + k, jobFrom := e.jobFrom + k })
    if s.beState n = beIDLE ∧ s.isF (fBE_STATUS_TRIG_PENDING n) then s.startJob n (s.eng n).pendSrc (s.eng n).pendLt else s) s

end Sys2Proof.Machine
end

