-- ==== Sys2Proof/Machine/Surface.lean ====
section
/-! DEFINITION. Surfaces (R130 to R137): the descriptor, pixel formats, Suzil Block Compression, and reading one pixel. -/

namespace Sys2Proof.Machine

/-- A surface descriptor (R132), its words cut into fields. -/
structure Surf where
  addr : Nat
  stride : Nat
  compressed : Bool
  fmt : Nat
  width : Nat
  height : Nat
  dstX : Int
  dstY : Int
  srcX : Nat
  srcY : Nat
  srcW : Nat
  srcH : Nat
  dstW : Nat
  dstH : Nat
  vtaps : Nat
  htaps : Nat
  galpha : Nat
  blend : Nat
  /-- bits the table marks reserved -/
  res : Nat
  /-- rows before a line that a frame took from another base: the line and that base, oldest first (R157) -/
  cuts : List (Nat × Nat) := []
deriving DecidableEq, Repr

/-- The surface as row y of it was fetched. -/
def Surf.at_ (f : Surf) (y : Nat) : Surf :=
  match f.cuts.find? (fun c => decide (y < c.1)) with
  | some c => { f with addr := c.2 }
  | none => f

def surfOf (d : List Word) : Surf :=
  let w := fun i => (nth 0#32 d i).toNat
  { addr := w 0 + 2 ^ 32 * bitsOf (w 1) 0 8, stride := bitsOf (w 1) 16 16, compressed := bitsOf (w 1) 12 1 = 1,
    fmt := bitsOf (w 1) 8 4, width := bitsOf (w 2) 0 16, height := bitsOf (w 2) 16 16,
    dstX := signOf 16 (bitsOf (w 3) 0 16), dstY := signOf 16 (bitsOf (w 3) 16 16),
    srcX := bitsOf (w 4) 0 16, srcY := bitsOf (w 4) 16 16, srcW := bitsOf (w 5) 0 16, srcH := bitsOf (w 5) 16 16,
    dstW := bitsOf (w 6) 0 16, dstH := bitsOf (w 6) 16 16, vtaps := bitsOf (w 7) 20 4, htaps := bitsOf (w 7) 16 4,
    galpha := bitsOf (w 7) 8 8, blend := bitsOf (w 7) 0 3,
    res := bitsOf (w 1) 13 3 + bitsOf (w 7) 24 8 + bitsOf (w 7) 3 5 }

/-- Bytes of a packed row of `n` pixels (R130). -/
def packedBytes (fmt n : Nat) : Nat :=
  match fmt with
  | 0 | 4 => n
  | 1 => (n + 1) / 2 * 3
  | 2 => 2 * n
  | _ => 4 * n

/-- Block columns and rows of a compressed surface (R133). -/
def Surf.bw (f : Surf) : Nat := (f.width + 31) / 32
def Surf.bh (f : Surf) : Nat := (f.height + 31) / 32

/-- Bytes from the base to the surface's end. -/
def Surf.size (f : Surf) : Nat :=
  if f.compressed then 65536 * f.stride else (f.height - 1) * (64 * f.stride) + packedBytes f.fmt f.width

/-- A pixel: the stored sample, the sample widened to 16 bits, and its alpha (R130). -/
structure Pix where
  raw : Nat
  v : Nat
  a : Nat
deriving DecidableEq, Repr

/-- Widening (R130). -/
def widen (fmt p : Nat) : Nat :=
  match fmt with
  | 0 | 4 => 257 * p
  | 1 => 16 * p + p / 256
  | _ => p

def pixOf (fmt raw a : Nat) : Pix := ⟨raw, widen fmt raw, a⟩

/-- What an error leaves: beam value 0 with full alpha (R137). -/
def errPix : Pix := ⟨0, 0, 0xFF⟩

/-- Is a word of the range uncorrectable (R137)? -/
def State.ueIn (s : State) (a n : Nat) : Bool :=
  (s.dirtyWords a n).any (fun w => eccClassify (s.syndAt w) = .uncorrectable)

/-- The samples at `a` (pixel index `i`) of packed pixels in format `fmt`. -/
def State.packedPix (s : State) (fmt a i : Nat) : Pix :=
  match fmt with
  | 0 | 4 => pixOf fmt (s.loadN (a + i) 1) 0xFF
  | 1 =>
    let q := a + i / 2 * 3
    let lo := s.loadN (q + 2) 1
    if i % 2 = 0 then pixOf 1 (16 * s.loadN q 1 + lo % 16) 0xFF else pixOf 1 (16 * s.loadN (q + 1) 1 + lo / 16) 0xFF
  | 2 => pixOf 2 (s.loadN (a + 2 * i) 2) 0xFF
  | _ => let w := s.loadN (a + 4 * i) 4; pixOf 3 (w % 65536) (w / 65536 % 256)

/-- The bytes of pixel `i` from the row's start: offset and length. -/
def pixSpan (fmt i : Nat) : Nat × Nat :=
  match fmt with
  | 0 | 4 => (i, 1)
  | 1 => (i / 2 * 3, 3)
  | 2 => (2 * i, 2)
  | _ => (4 * i, 4)

/-! ### Suzil Block Compression -/

/-- Sample width of a format's value plane (R136). -/
def planeBits (fmt : Nat) : Nat :=
  match fmt with
  | 0 | 4 => 8
  | 1 => 12
  | _ => 16

/-- Residual width of a width code; codes 5 to 7 are reserved. -/
def resWidth (c : Nat) : Nat := if c = 0 then 0 else 2 ^ c

/-- Width codes of a width word. -/
def widthCode (w i : Nat) : Nat := bitsOf w (3 * i) 3

/-- Bits of residuals before sub-block i. -/
def subStart (w i : Nat) : Nat := ((List.range i).map (fun j => 64 * resWidth (widthCode w j))).sum

/-- Bytes of a plane: its width word and its residuals. -/
def planeBytes (w : Nat) : Nat := 8 + (subStart w 16 + 7) / 8

/-- Is the width word valid for samples of `b` bits? -/
def planeOk (w b : Nat) : Bool :=
  (List.range 16).all (fun i => widthCode w i ≤ 4) && bitsOf w 48 16 < 2 ^ b

/-- The residual of pixel (x, y) of the block; `n` holds the residual bits. -/
def residual (w n x y : Nat) : Int :=
  let i := 4 * (y / 8) + x / 8
  let wd := resWidth (widthCode w i)
  if wd = 0 then 0 else signOf wd (bitsOf n (subStart w i + (8 * (y % 8) + x % 8) * wd) wd)

/-- Sample (x, y) of a plane of `b` bits: the base, the residuals down column 0, then along row y, modulo 2^b (R136). -/
def predSample (w n b x y : Nat) : Nat :=
  let col := ((List.range (y + 1)).map (fun j => residual w n 0 j)).sum
  let row := ((List.range x).map (fun i => residual w n (i + 1) y)).sum
  unsignOf b ((bitsOf w 48 16 : Nat) + col + row)

/-- Address of the header of block (bx, by) (R133). -/
def Surf.header (f : Surf) (bx ys : Nat) : Nat := f.addr + 4 * (ys * f.bw + bx)

def Surf.finish (f : Surf) : Nat := f.addr + 65536 * f.stride

/-- Payload bytes of a RAW block (R135). -/
def rawBytes (fmt : Nat) : Nat := packedBytes fmt 1024

/-- The ranges of memory a block is decoded from: header and payload; nothing on a decode error (R137). -/
def State.blockSpan (s : State) (f : Surf) (bx ys : Nat) : Option (List (Nat × Nat)) :=
  let h := f.header bx ys
  if f.finish < h + 4 then none
  else
    let w := s.loadN h 4
    let mode := bitsOf w 30 2
    let a := f.addr + 16 * bitsOf w 0 30
    if mode = 0 then
      let used := if f.fmt = 3 then 24 else planeBits f.fmt
      if bitsOf w used (30 - used) = 0 then some [(h, 4)] else none
    else if mode = 1 then
      if a + rawBytes f.fmt ≤ f.finish then some [(h, 4), (a, rawBytes f.fmt)] else none
    else if mode = 2 then
      if f.finish < a + 8 then none
      else
        let ww := s.loadN a 8
        let n := planeBytes ww
        if planeOk ww (planeBits f.fmt) = false ∨ f.finish < a + n then none
        else if f.fmt ≠ 3 then some [(h, 4), (a, n)]
        else if f.finish < a + n + 8 then none
        else
          let wa := s.loadN (a + n) 8
          if planeOk wa 8 = false ∨ f.finish < a + n + planeBytes wa then none
          else some [(h, 4), (a, n + planeBytes wa)]
    else none

/-- Is the block unreadable: a decode error, or an uncorrectable error in its data? -/
def State.blockBad (s : State) (f : Surf) (bx ys : Nat) : Bool :=
  match s.blockSpan f bx ys with
  | none => true
  | some l => l.any (fun r => s.ueIn r.1 r.2)

/-- Pixel (x, y) of block (bx, by), which is readable. -/
def State.blockPix (s : State) (f : Surf) (bx ys x y : Nat) : Pix :=
  let w := s.loadN (f.header bx ys) 4
  let a := f.addr + 16 * bitsOf w 0 30
  match bitsOf w 30 2 with
  | 0 =>
    pixOf f.fmt (bitsOf w 0 (planeBits f.fmt)) (if f.fmt = 3 then bitsOf w 16 8 else 0xFF)
  | 1 => s.packedPix f.fmt a (32 * y + x)
  | _ =>
    let ww := s.loadN a 8
    let n := planeBytes ww
    let v := predSample ww (s.loadN (a + 8) (n - 8)) (planeBits f.fmt) x y
    if f.fmt = 3 then
      let wa := s.loadN (a + n) 8
      pixOf 3 v (predSample wa (s.loadN (a + n + 8) (planeBytes wa - 8)) 8 x y)
    else pixOf f.fmt v 0xFF

/-- Pixel (x, y) of a surface, with the replacement of R137. -/
def State.surfPix (s : State) (f : Surf) (x y : Nat) : Pix :=
  if f.compressed then
    if s.blockBad f (x / 32) (y / 32) then errPix else s.blockPix f (x / 32) (y / 32) (x % 32) (y % 32)
  else
    let a := f.addr + y * (64 * f.stride)
    let (o, n) := pixSpan f.fmt x
    let c0 := 64 * ((a + o) / 64)
    if s.ueIn c0 (64 * ((a + o + n - 1) / 64) + 64 - c0) then errPix else s.packedPix f.fmt a x

end Sys2Proof.Machine
end

