-- ==== Sys2Proof/Machine/Compose.lean ====
section
/-! DEFINITION. Layers and composition (R127 to R160): windows, scaling, blending, flips, the latch arbiter, ages and
policies, raw address writes. -/

namespace Sys2Proof.Machine

/-! ### Layers -/

def State.layValid (s : State) (l : Nat) : Bool := s.isF (fMSG_LAYER_CFG_VALID l)
def State.layGroup (s : State) (l : Nat) : Nat := s.getF (fMSG_LAYER_CFG_GROUP l)

/-- The valid layers of group g, ascending. -/
def State.groupLayers (s : State) (g : Nat) : List Nat :=
  (List.range 8).filter (fun l => s.layValid l && s.layGroup l = g)

/-- The fallback descriptor of a layer; none when word 1 is 0 (R158). -/
def State.fbDesc (s : State) (l : Nat) : Option (List Word) :=
  if s.reg (rMSG_LAYER_FB l 1) = 0 then none else some (s.regWords (rMSG_LAYER_FB l 0) 8)

/-- The descriptor of the layer's last flip. -/
def State.flipDesc (s : State) (l : Nat) : List Word := tabGet (fun _ => []) s.comp.desc l

/-- Is the layer bound to its fallback surface: never flipped, or SUBSTITUTE applies (R153, R156)? -/
def State.onFallback (s : State) (l : Nat) : Bool :=
  s.isF (fMSG_LAYER_STATUS_NEVER_FLIPPED l) || s.getF (fMSG_LAYER_STATUS_STATE l) == 3

/-- The descriptor a layer is shown with: none when it is transparent. -/
def State.shownDesc (s : State) (l : Nat) : Option (List Word) :=
  if s.onFallback l then s.fbDesc l
  else if s.getF (fMSG_LAYER_STATUS_STATE l) = 2 then none
  else some (s.flipDesc l)

/-! ### Windows (R4, R128) -/

/-- Lamp columns and rows. -/
def lampSize (a : Arrangement) : Nat × Nat :=
  match a with
  | .a4x1 => (2048, 512)
  | .a2x2 => (1024, 1024)
  | .a2x1 => (1024, 512)
  | .a1x1 => (512, 512)

def State.tiles (s : State) : Nat := arrTiles s.loader.cfg.st.arr

/-- Columns and rows a layer's destination covers. -/
def Surf.destW (f : Surf) (video : Bool) : Nat := if video then f.dstW else f.width
def Surf.destH (f : Surf) (video : Bool) : Nat := if video then f.dstH else f.height

/-- The part of [lo, lo + n) inside [w, w + 512), as first and last. -/
def clip512 (lo : Int) (n w : Nat) : Option (Nat × Nat) :=
  let a := max lo w
  let b := min (lo + n) (w + 512 : Nat)
  if a < b then some (a.toNat, (b - 1).toNat) else none

/-- The lamp columns and rows of tile n that the layer covers. -/
def State.coverage (s : State) (n l : Nat) (f : Surf) : Option ((Nat × Nat) × (Nat × Nat)) :=
  let (cx, cy) := (s.getF (fCP_WINDOW_COL n), s.getF (fCP_WINDOW_ROW n))
  match clip512 f.dstX (f.destW (l < 4)) cx, clip512 f.dstY (f.destH (l < 4)) cy with
  | some x, some y => some (x, y)
  | _, _ => none

/-! ### Scaling (R141, R142) -/

/-- The source position of destination index d, 16.16, halves rounded up (R141). -/
def srcPos (src srcN dstN : Nat) (d : Int) : Int :=
  let num : Int := 65536 * ((2 * (src : Int) - 1) * dstN + (2 * d + 1) * srcN)
  (num + dstN) / (2 * dstN)

/-- First tap and phase of a filter of `t` taps. -/
def tapStart (u : Int) (t : Nat) : Int := u / 65536 - ((t - 1) / 2 : Nat)
def tapPhase (u : Int) : Nat := (64 * (u % 65536) / 65536).toNat

/-- A tap index clamped to the source rectangle. -/
def clampTap (i : Int) (src srcN : Nat) : Nat := (max (src : Int) (min i (src + srcN - 1 : Nat))).toNat

/-- The coefficients of a phase: 8 horizontal tables, then 8 vertical ones. -/
def State.coeffs (s : State) (l : Nat) (vertical : Bool) (t phase : Nat) : List Int :=
  match (s.loader.cfg.li.flatMap (fun c => c.2.filters)).find? (fun f => f.1 = l) with
  | some f => ((f.2.getD ((if vertical then 8 else 0) + (t - 1)) []).getD phase [])
  | none => []

def clampI (lo hi x : Int) : Int := max lo (min hi x)

/-- The vertical filter on one source column. -/
def State.vFilter (s : State) (f : Surf) (l vt : Nat) (v : Int) (x : Nat) : Int :=
  let cs := s.coeffs l true vt (tapPhase v)
  let i0 := tapStart v vt
  let t := ((List.range vt).map (fun (k : Nat) =>
    let y := clampTap (i0 + k) f.srcY f.srcH
    cs.getD k 0 * ((s.surfPix (f.at_ y) x y).v : Nat))).sum
  clampI (-524288) 1048575 ((t + 512) / 1024)

/-- The scaler's output at lamp pixel (c, r) with `vt` vertical taps (R142). -/
def State.scaled (s : State) (f : Surf) (l vt : Nat) (c r : Nat) : Nat :=
  let u := srcPos f.srcX f.srcW f.dstW ((c : Int) - f.dstX)
  let v := srcPos f.srcY f.srcH f.dstH ((r : Int) - f.dstY)
  let cs := s.coeffs l false f.htaps (tapPhase u)
  let i0 := tapStart u f.htaps
  let y := ((List.range f.htaps).map (fun k =>
    cs.getD k 0 * s.vFilter f l vt v (clampTap (i0 + k) f.srcX f.srcW))).sum
  (clampI 0 0xFFFFF ((y + 8192) / 16384)).toNat

/-- W_src: source columns from the first to the last tap read for columns c0 to c1 (R143). -/
def wSrc (f : Surf) (c0 c1 : Nat) : Nat :=
  let u0 := srcPos f.srcX f.srcW f.dstW ((c0 : Int) - f.dstX)
  let u1 := srcPos f.srcX f.srcW f.dstW ((c1 : Int) - f.dstX)
  clampTap (tapStart u1 f.htaps + (f.htaps - 1 : Nat)) f.srcX f.srcW + 1 - clampTap (tapStart u0 f.htaps) f.srcX f.srcW

/-- The taps used, or none when the line buffer is too short (R143). -/
def lineTaps (f : Surf) (w : Nat) : Option Nat :=
  if f.vtaps * w ≤ 8192 then some f.vtaps
  else if 2 * w ≤ 8192 then some (8192 / w) else none

/-! ### Blending (R144, R145) -/

/-- One blend: accumulator D, sample S in u16.4, the stored sample x and its alpha. -/
def blend1 (f : Surf) (video : Bool) (d sample x alpha : Nat) : Nat :=
  match f.blend with
  | 0 => sample
  | 1 =>
    let a := if video || f.fmt ≠ 3 then 0xFF else alpha
    let e := (a * f.galpha + 127) / 255
    let al := e + e / 128
    (sample * al + d * (256 - al) + 128) / 256
  | 2 =>
    if video || f.fmt = 2 || f.fmt = 3 then
      let v := min ((sample + 8) / 16) 0xFFFF
      (d * (v + v / 32768) + 32768) / 65536
    else if f.fmt = 1 then (d * (x + x / 2048) + 2048) / 4096
    else (d * (x + x / 128) + 128) / 256
  | 3 => min (d + sample) 0xFFFFF
  | 4 => max d sample
  | _ => min d sample

/-- Layers in composition order (R146): groups by COMPOSE_ORDER, then each group's latched order. -/
def orderList (w : Word) : List Nat :=
  (((List.range 8).map (fun i => bitsOf w.toNat (4 * i) 4)).takeWhile (fun v => 8 ≤ v)).map (· - 8)

/-- The order of group g: that of its last latched flip, else its valid layers ascending (log 35). -/
def State.groupOrder (s : State) (g : Nat) : List Nat :=
  let w := tabGet (fun _ => 0#32) s.comp.order g
  if w = 0 then s.groupLayers g else orderList w

def State.composeOrder (s : State) : List Nat :=
  let w := s.regN rMSG_COMPOSE_ORDER
  ((List.range 4).map (fun i => bitsOf w (2 * i) 2)).flatMap s.groupOrder

/-- The snapshot of pipeline n: the layers it composes in the frame it sends, in order, with their descriptors. -/
def State.snapOf (s : State) (n : Nat) : List (Nat × List Word) := tabGet (fun _ => []) s.comp.snap n

/-- The lines of layer l that pipeline n took from bases before the last raw write of this frame (R157). -/
def State.cutsOf (s : State) (n l : Nat) : List (Nat × Nat) := (s.comp.cuts.filter (fun c => c.1 == (n, l))).map Prod.snd

def State.shownLayers (s : State) (n : Nat) : List (Nat × Surf) :=
  (s.snapOf n).map (fun p => (p.1, { surfOf p.2 with cuts := s.cutsOf n p.1 }))

/-- One layer's contribution at lamp pixel (c, r). -/
def State.layerBlend (s : State) (n : Nat) (c r d : Nat) (p : Nat × Surf) : Nat :=
  let (l, f) := p
  let video := decide (l < 4)
  let x := (c : Int) - f.dstX
  let y := (r : Int) - f.dstY
  if 0 ≤ x ∧ x < f.destW video ∧ 0 ≤ y ∧ y < f.destH video then
    if video then blend1 f true d (s.scaled f l (bitsOf (s.regN (rCP_VTAPS n)) (4 * l) 4) c r) 0 0xFF
    else
      let q := s.surfPix (f.at_ y.toNat) x.toNat y.toNat
      blend1 f false d (16 * q.v) q.raw q.a
  else d

/-- The state with no more memory than a surface's: what its pixels are read from. -/
def State.surfView (s : State) (f : Surf) : State := if f.cuts.isEmpty then { s with mem := tabCut s.mem f.addr f.size } else s

/-- The beam value of lamp pixel (c, r) in pipeline n from its layers, each with the view it is read in (R146). -/
def beamValue (n c r : Nat) (ls : List ((Nat × Surf) × State)) : Nat :=
  min ((ls.foldl (fun d p => p.2.layerBlend n c r d p.1) 0 + 8) / 16) 0xFFFF

/-- The beam values of row y of tile n. -/
def State.beamRow (s : State) (n y : Nat) : List Nat :=
  let cx := s.getF (fCP_WINDOW_COL n)
  let r := s.getF (fCP_WINDOW_ROW n) + y
  let ls := (s.shownLayers n).map (fun p => (p, s.surfView p.2))
  (List.range 512).map (fun i => beamValue n (cx + i) r ls)

/-! ### Fetching (R128, R137) -/

/-- Source rows a layer needs at lamp row r. -/
def Surf.srcRows (f : Surf) (l vt : Nat) (r : Nat) : List Nat :=
  if l < 4 then
    let v := srcPos f.srcY f.srcH f.dstH ((r : Int) - f.dstY)
    ((List.range vt).map (fun k => clampTap (tapStart v vt + k) f.srcY f.srcH)).eraseDups
  else [((r : Int) - f.dstY).toNat]

/-- Source columns, first and last, for lamp columns c0 to c1. -/
def Surf.srcCols (f : Surf) (l : Nat) (c0 c1 : Nat) : Nat × Nat :=
  if l < 4 then
    let u0 := srcPos f.srcX f.srcW f.dstW ((c0 : Int) - f.dstX)
    let u1 := srcPos f.srcX f.srcW f.dstW ((c1 : Int) - f.dstX)
    (clampTap (tapStart u0 f.htaps) f.srcX f.srcW, clampTap (tapStart u1 f.htaps + (f.htaps - 1 : Nat)) f.srcX f.srcW)
  else (((c0 : Int) - f.dstX).toNat, ((c1 : Int) - f.dstX).toNat)

/-- A unit that a fetch may lose: a block, or the 64 bytes from an address. -/
inductive FetchUnit where
  | block (bx ys : Nat) | piece (a : Nat)
deriving DecidableEq, Repr

/-- Its index for DECODE_ERR_INFO. -/
def FetchUnit.index (f : Surf) : FetchUnit → Nat
  | .block bx ys => ys * f.bw + bx
  | .piece a => (a - f.addr) / 64

/-- What fetching source row y, columns x0 to x1, reads: blocks, or 64-byte pieces of a row. -/
def fetchUnits (f : Surf) (y x0 x1 : Nat) : List FetchUnit :=
  if f.compressed then (List.range (x1 / 32 + 1 - x0 / 32)).map (fun i => .block (x0 / 32 + i) (y / 32))
  else
    let row := f.addr + y * (64 * f.stride)
    let a := 64 * ((row + (pixSpan f.fmt x0).1) / 64)
    let e := pixSpan f.fmt x1
    let b := 64 * ((row + e.1 + e.2 - 1) / 64)
    (List.range ((b - a) / 64 + 1)).map (fun i => .piece (a + 64 * i))

/-- A list of ranges is read, up to the first that holds an uncorrectable word. -/
def State.readSpans (s : State) : List (Nat × Nat) → Bool × State
  | [] => (false, s)
  | r :: t =>
    let q := s.checkRange r.1 r.2
    if q.1 then (true, q.2) else q.2.readSpans t

/-- The width word of the plane at `a` is read, and those of the planes after it: true when one is lost. -/
def State.readPlanes (s : State) (f : Surf) (a : Nat) : Nat → Bool × State
  | 0 => (false, s)
  | k + 1 =>
    if f.finish < a + 8 then (false, s)
    else
      let q := s.checkRange a 8
      if q.1 then (true, q.2) else q.2.readPlanes f (a + planeBytes (q.2.loadN a 8)) k

/-- The header of a block is read, and its width words where it is predicted: true when one of these is lost (R387). -/
def State.readHead (s : State) (f : Surf) (bx ys : Nat) : Bool × State :=
  let h := f.header bx ys
  if f.finish < h + 4 then (false, s)
  else
    let q := s.checkRange h 4
    let w := q.2.loadN h 4
    if q.1 ∨ bitsOf w 30 2 ≠ 2 then q else q.2.readPlanes f (f.addr + 16 * bitsOf w 0 30) (if f.fmt = 3 then 2 else 1)

/-- A block is read, header first: true when it is lost, by an uncorrectable word or a decode error. -/
def State.readBlock (s : State) (f : Surf) (bx ys : Nat) : Bool × State :=
  let q := s.readHead f bx ys
  if q.1 then q
  else match q.2.blockSpan f bx ys with
    | none => (true, q.2)
    | some l => q.2.readSpans l

/-- A unit is read: true when it is lost. -/
def State.readUnit (s : State) (f : Surf) : FetchUnit → Bool × State
  | .block bx ys => s.readBlock f bx ys
  | .piece a => s.checkRange a 64

/-- One fetch error: DECODE_ERR, its count and place, SBC_ERROR (R137, R159). -/
def State.decodeErr (s : State) (n l index : Nat) : State :=
  let s := s.raise (fCP_STATUS_DECODE_ERR n) (rCP_DECODE_ERR_COUNT n)
  let s := (s.setF (fCP_DECODE_ERR_INFO_LAYER n) l).setF (fCP_DECODE_ERR_INFO_BLOCK n) index
  s.postOnce evCOMPOSE_SBC_ERROR (n * 8 + l) s.lampFrame (srcCP n) (2 ^ 30 * n + 2 ^ 27 * l + index % 2 ^ 24)

/-- The fetch of one unit: its words are checked (R387), and an error is reported. -/
def State.fetchUnit (s : State) (n l : Nat) (f : Surf) (u : FetchUnit) : State :=
  let q := s.readUnit f u
  if q.1 then q.2.decodeErr n l (u.index f) else q.2

/-- Lines of layer l are fetched from base `a`: a frame that takes lines from two bases is torn, once (R157). -/
def State.baseUsed (s : State) (n l a : Nat) : State :=
  match s.comp.bases.find? (fun q => q.1 == (n, l)) with
  | none => { s with comp := { s.comp with bases := ((n, l), a) :: s.comp.bases } }
  | some q =>
    if q.2 = a ∨ s.comp.tore.contains (n, l) then s
    else
      let s := s.raise (fCP_STATUS_RAW_TEAR n) (rCP_RAW_TEAR_COUNT n)
      { s with comp := { s.comp with tore := (n, l) :: s.comp.tore } }

/-- Fetch of what row y of tile n newly needs of a layer. -/
def State.fetchLayer (s : State) (n y : Nat) (p : Nat × Surf) : State :=
  let (l, f) := p
  let r := s.getF (fCP_WINDOW_ROW n) + y
  match s.coverage n l f with
  | none => s
  | some ((c0, c1), (r0, r1)) =>
    if r < r0 ∨ r1 < r then s
    else
      let vt := bitsOf (s.regN (rCP_VTAPS n)) (4 * l) 4
      let have_ := if r = r0 then [] else f.srcRows l vt (r - 1)
      let key := fun (q : Nat) => if f.compressed then q / 32 else q
      let rows := (f.srcRows l vt r).filter (fun q => !(have_.map key).contains (key q))
      let rows := if f.compressed then (rows.map (32 * (· / 32))).eraseDups else rows
      let (x0, x1) := f.srcCols l c0 c1
      rows.foldl (fun s q =>
        let g := f.at_ q
        (fetchUnits g q x0 x1).foldl (fun s u => s.fetchUnit n l g u) (s.baseUsed n l g.addr)) s

/-! ### Flips (R147 to R149) -/

/-- The first reason of R148 to refuse a layer's descriptor: 4 FORMAT to 8 RESERVED, 0 none. -/
def State.descReason (s : State) (l : Nat) (d : List Word) : Nat :=
  let f := surfOf d
  let video := decide (l < 4)
  if 4 < f.fmt ∨ (video ∧ f.fmt = 3) then 4
  else if f.addr % 64 ≠ 0 then 5
  else if f.width = 0 ∨ 8192 < f.width ∨ f.height = 0 ∨ 8192 < f.height then 6
  else if video ∧ ¬ (1 ≤ f.htaps ∧ f.htaps ≤ 8 ∧ 1 ≤ f.vtaps ∧ f.vtaps ≤ 8 ∧ 1 ≤ f.srcW ∧ 1 ≤ f.srcH ∧ 1 ≤ f.dstW
      ∧ 1 ≤ f.dstH ∧ f.srcW ≤ 4 * f.dstW ∧ f.dstW ≤ 16 * f.srcW ∧ f.srcH ≤ 4 * f.dstH ∧ f.dstH ≤ 16 * f.srcH
      ∧ f.srcX + f.srcW ≤ f.width ∧ f.srcY + f.srcH ≤ f.height) then 6
  else if f.compressed ∧ f.stride = 0 then 6
  else if f.compressed ∧ f.finish < f.addr + 4 * f.bw * f.bh then 7
  else if ¬ f.compressed ∧ 64 * f.stride < packedBytes f.fmt f.width then 7
  else if s.inDram f.addr f.size = false then 7
  else if s.isF (fMSG_LAYER_CFG_ECC_REQ l) ∧ s.wp < f.addr + f.size then 7
  else if f.res ≠ 0 ∨ 5 < f.blend ∨ (¬ video ∧ (f.srcX + f.srcY + f.srcW + f.srcH + f.dstW + f.dstH + f.vtaps
      + f.htaps ≠ 0)) then 8
  else 0

/-- The masters of R158: register path, Holvo FLIP, capture writer. -/
inductive FlipMaster where
  | regs | holvo | capture
deriving DecidableEq, Repr

def FlipMaster.code : FlipMaster → Nat
  | .regs => 0
  | .holvo => 1
  | .capture => 2

/-- Does an order word list exactly the given layers, each once? -/
def orderLists (w : Word) (ls : List Nat) : Bool :=
  let o := orderList w
  let stop := nth 0 ((List.range 8).map (fun i => bitsOf w.toNat (4 * i) 4)) o.length
  o.length = ls.length && ls.all (fun l => o.contains l) && (o.length = 8 || stop = 0)

/-- The first reason of R147 and R148 to refuse a flip; 0 none. Of several that hold: MASTER, LAYER, ORDER, then the lowest code of the
first layer of the mask that has one (DESIGN CHOICE, log 176). -/
def State.flipReason (s : State) (m : FlipMaster) (g mask : Nat) (order : Word) (descs : List (Nat × List Word)) : Nat :=
  let ls := s.groupLayers g
  if bitsOf (s.regN rMSG_FLIP_MASTER) (2 * g) 2 ≠ m.code then 1
  else if ls.isEmpty ∨ (List.range 8).any (fun l => mask.testBit l && !ls.contains l) then 2
  else if orderLists order ls = false then 3
  else (descs.map (fun p => s.descReason p.1 p.2)).foldl (fun r x => if r = 0 then x else r) 0

/-- A refused flip (R148). -/
def State.refuseFlip (s : State) (g why : Nat) : State :=
  let s := (s.raise (fMSG_FLIP_FLAGS_REFUSED g) (rMSG_REFUSED_COUNT g)).setF (fMSG_FLIP_FLAGS_REASON g) why
  s.postOnce evCOMPOSE_FLIP_REFUSED g s.lampFrame srcMSG (2 ^ 30 * g + why)

/-- A commit (R147 to R149): the reason it is refused with, 0 when it is accepted. -/
def State.commitFlip (s : State) (m : FlipMaster) (g mask : Nat) (order : Word) (fence : Option Nat) (target : Word)
    (descs : List (Nat × List Word)) : Nat × State :=
  let why := s.flipReason m g mask order descs
  if why ≠ 0 then (why, s.refuseFlip g why)
  else
    let seq := (s.getF (fMSG_FLIP_STATUS_COMMIT_SEQ g) + 1) % 65536
    let s := s.setF (fMSG_FLIP_STATUS_COMMIT_SEQ g) seq
    (0, s.cross (.flip g ⟨mask, descs, order, fence, target, seq⟩))

/-- Layers named in a mask. -/
def maskLayers (mask : Nat) : List Nat := (List.range 8).filter (fun l => mask.testBit l)

/-- The register-path commit of group g: the staged values are copied (R147). -/
def State.flipCommit (s : State) (g mask : Nat) : State :=
  let fence := if s.isF (fMSG_FLIP_FENCE_WAIT g) then some (s.getF (fMSG_FLIP_FENCE_FENCE g)) else none
  (s.commitFlip .regs g mask (s.reg (rMSG_FLIP_ORDER g)) fence (s.reg (rMSG_FLIP_TARGET g))
    ((maskLayers mask).map (fun l => (l, s.regWords (rMSG_FLIP_STAGE l 0) 8)))).2

/-! ### The latch point (R151 to R156) -/

/-- What crosses is decided at the latch point: items arrive in order until one is late, which is open within the
window of R150 (free value). -/
def State.latchCross (s : State) : State :=
  let step := fun (p : Bool × List (Nat × Cross) × State) (c : Nat × Cross) =>
    let (late, keep, s) := p
    if late then (true, keep ++ [c], s)
    else if c.1 + crossSure ≤ s.time.now then (false, keep, s.arrive c.2)
    else if s.time.now ≤ c.1 + crossNot then (true, keep ++ [c], s)
    else
      let (v, s) := s.fresh
      if v.getLsbD 0 then (true, keep ++ [c], s) else (false, keep, s.arrive c.2)
  let (_, keep, s) := s.comp.flight.foldl step (false, [], s)
  { s with comp := { s.comp with flight := keep } }

/-- The fence value the arbiter holds has reached the target. -/
def State.arbReached (s : State) (k : Nat) (t : Word) : Bool :=
  0 ≤ (tabGet (fun _ => 0#32) s.comp.arb k - t).toInt

/-- A layer takes a surface: age 0, its policy ends (R152, R153). -/
def State.takeLayer (s : State) (l : Nat) (d : List Word) : State :=
  let fresh := decide (s.getF (fMSG_LAYER_STATUS_STATE l) ≠ 0)
  let s := { s with comp := { s.comp with desc := tabSet (fun _ => []) s.comp.desc l d } }
  let s := (((s.setF (fMSG_LAYER_STATUS_AGE l) 0).setF (fMSG_LAYER_STATUS_STATE l) 0).setF
    (fMSG_LAYER_STATUS_NO_FB l) 0).setF (fMSG_LAYER_STATUS_NEVER_FLIPPED l) 0
  if fresh then s.postOnce evCOMPOSE_LAYER_FRESH l s.lampFrame srcMSG (2 ^ 29 * l) else s

/-- Group g's flip is taken for frame `frame`. -/
def State.takeFlip (s : State) (g frame : Nat) (f : Flip) : State :=
  let s := f.descs.foldl (fun s p => s.takeLayer p.1 p.2) s
  let s := { s with comp := { s.comp with
    order := tabSet (fun _ => 0#32) s.comp.order g f.order, pend := s.comp.pend.filter (fun p => decide (p.1 ≠ g)) } }
  (s.setRegN (rMSG_FLIP_LATCHED_FRAME g) frame).setF (fMSG_FLIP_STATUS_TAKEN_SEQ g) f.seq

/-- Group g's flip is deferred. -/
def State.deferFlip (s : State) (g frame : Nat) : State :=
  let s := s.raise (fMSG_FLIP_FLAGS_DEFERRED g) (rMSG_DEFERRED_COUNT g)
  let s := (s.groupLayers g).foldl (fun s l => s.bump (rMSG_LAYER_DEFER_COUNT l)) s
  s.postOnce evCOMPOSE_FLIP_DEFERRED g s.lampFrame srcMSG (2 ^ 30 * g + frame % 2 ^ 30)

/-- The arbiter's decision of every group: the groups that flip, each with the layers its flip names, and whether any flip was
deferred (R151). -/
def State.decideFlips (s : State) (frame : Nat) : (List (Nat × List Nat) × Bool) × State :=
  (List.range 4).foldl (fun (p : (List (Nat × List Nat) × Bool) × State) g =>
    let ((taken, late), s) := p
    match s.comp.pend.find? (fun q => q.1 = g) with
    | none => ((taken, late), s)
    | some (_, f) =>
      let ready := match f.fence with
        | none => true
        | some k => s.arbReached k f.target
      if ready then ((taken ++ [(g, f.descs.map Prod.fst)], late), s.takeFlip g frame f) else ((taken, true), s.deferFlip g frame))
    (([], false), s)

/-- The age of a layer that took no flip, and its policy (R152, R153, R156). -/
def State.ageLayer (s : State) (named : Bool) (l : Nat) : State :=
  let never := s.isF (fMSG_LAYER_STATUS_NEVER_FLIPPED l)
  let age := if never then 255 else if named then 0 else satAt 255 (s.getF (fMSG_LAYER_STATUS_AGE l) + 1)
  let s := s.setF (fMSG_LAYER_STATUS_AGE l) age
  if s.layValid l ∧ s.isF (fMSG_LAYER_CFG_PERIODIC l) ∧ never = false ∧ s.getF (fMSG_LAYER_STATUS_STATE l) = 0
      ∧ bitsOf (s.regN (rMSG_LAYER_STALE l)) 0 8 < age then
    let pol := s.getF (fMSG_LAYER_CFG_POLICY l)
    let s := s.setF (fMSG_LAYER_STATUS_STATE l) (pol + 1)
    let s := s.setB (fMSG_LAYER_STATUS_NO_FB l) (pol = 2 && (s.fbDesc l).isNone)
    s.postOnce evCOMPOSE_LAYER_STALE l s.lampFrame srcMSG (2 ^ 29 * l + 2 ^ 27 * pol + age)
  else s

/-- Pipeline n's snapshot of one layer: shown, taps, the line-buffer rule (R143). -/
def State.snapLayer (s : State) (n l : Nat) : State :=
  let hide := fun (s : State) =>
    let s := s.setRegN (rCP_LAYER_SHOWN n) (putBits (s.regN (rCP_LAYER_SHOWN n)) l 1 0)
    if l < 4 then s.setRegN (rCP_VTAPS n) (putBits (s.regN (rCP_VTAPS n)) (4 * l) 4 0) else s
  let show_ := fun (s : State) (t : Nat) =>
    let s := s.setRegN (rCP_LAYER_SHOWN n) (putBits (s.regN (rCP_LAYER_SHOWN n)) l 1 1)
    if l < 4 then s.setRegN (rCP_VTAPS n) (putBits (s.regN (rCP_VTAPS n)) (4 * l) 4 t) else s
  if s.layValid l = false then hide s
  else match s.shownDesc l with
    | none => hide s
    | some d =>
      let f := surfOf d
      match s.coverage n l f with
      | none => hide s
      | some ((c0, c1), _) =>
        if l < 4 then
          let w := wSrc f c0 c1
          match lineTaps f w with
          | none =>
            let s := (hide s).raise (fCP_STATUS_LINEBUF_SHORT n) (rCP_LINEBUF_SHORT_COUNT n)
            let s := { s with comp := { s.comp with skips := (n, l) :: s.comp.skips } }
            s.postOnce evCOMPOSE_LINEBUF_SHORT (n * 8 + l) s.lampFrame (srcCP n) (2 ^ 30 * n + 2 ^ 27 * l + w % 65536)
          | some t =>
            let s := show_ s t
            if t < f.vtaps then
              let s := s.raise (fCP_STATUS_TAPS_REDUCED n) (rCP_TAPS_REDUCED_COUNT n)
              s.postOnce evCOMPOSE_TAPS_REDUCED (n * 8 + l) s.lampFrame (srcCP n) (2 ^ 30 * n + 2 ^ 27 * l + t)
            else s
        else show_ s 0

/-- What LAYER_ACTIVE_l shows: the descriptor used for the frame being sent. -/
def State.setActive (s : State) (l : Nat) : State :=
  s.setRegWords (rMSG_LAYER_ACTIVE l 0) ((s.shownDesc l).getD (if s.onFallback l then List.replicate 8 0 else s.flipDesc l))

/-- SKIPPED: some pipeline leaves the layer out of the frame it sends; `on` says which pipelines still count. -/
def State.showSkips (s : State) (on : Nat → Bool) : State :=
  let s := { s with comp := { s.comp with skips := s.comp.skips.filter (fun q => on q.1) } }
  (List.range 8).foldl (fun s l => s.setB (fMSG_LAYER_STATUS_SKIPPED l) (s.comp.skips.any (fun q => q.2 == l))) s

/-- Pipeline n takes its snapshot for the transfer frame it starts. -/
def State.takeSnap (s : State) (n : Nat) : State :=
  let s := ((List.range 8).foldl (fun s l => s.snapLayer n l) (s.showSkips (· ≠ n))).showSkips (fun _ => true)
  let l := (s.composeOrder.filter (fun l => (s.regN (rCP_LAYER_SHOWN n)).testBit l)).filterMap
    (fun l => (s.shownDesc l).map (fun d => (l, d)))
  { s with comp := { s.comp with snap := tabSet (fun _ => []) s.comp.snap n l, row := tabSet (fun _ => 0) s.comp.row n 0,
                                 tore := s.comp.tore.filter (fun q => decide (q.1 ≠ n)),
                                 bases := s.comp.bases.filter (fun q => decide (q.1.1 ≠ n)),
                                 cuts := s.comp.cuts.filter (fun q => decide (q.1.1 ≠ n)) } }

/-- The arbiter at the lamp latch point of transfer frame `frame`: the groups that flip, with the layers named. CP_n.DEFER_COUNT rises by
one in every pipeline when any group defers (R151). -/
def State.latchFlips (s : State) (frame : Nat) : List (Nat × List Nat) × State :=
  let ((taken, late), s) := s.latchCross.decideFlips frame
  (taken, if late then (List.range 4).foldl (fun s n => s.bump (rCP_DEFER_COUNT n)) s else s)

/-- A layer under SUBSTITUTE: whether LIBRARY has its fallback surface now (R153, R160). -/
def State.fallbackShown (s : State) (l : Nat) : State :=
  if s.getF (fMSG_LAYER_STATUS_STATE l) = 3 then s.setB (fMSG_LAYER_STATUS_NO_FB l) (s.fbDesc l).isNone else s

/-- The layers at the lamp latch point, once an update that takes effect there has: `named` are those that a flip taken names. -/
def State.latchAges (s : State) (named : List Nat) : State :=
  let s := (List.range 8).foldl (fun s l => (s.ageLayer (named.contains l) l).fallbackShown l) s
  (List.range 8).foldl (fun s l => s.setActive l) (s.showSkips (fun n => s.getF (fTG_STATUS_STATE n) ≠ 0))

/-! ### Raw address writes (R157) -/

/-- The source line after the last one that lamp row r needs. -/
def Surf.lineAfter (f : Surf) (l vt r : Nat) : Nat :=
  let q := (f.srcRows l vt r).foldl max 0
  if f.compressed then 32 * (q / 32 + 1) else q + 1

/-- The fetches of a layer for the frame in progress: the line that pipeline n fetches next, once it has fetched one. -/
def State.fetchedTo (s : State) (n l : Nat) : Option Nat :=
  let r := s.getF (fCP_WINDOW_ROW n) + tabGet (fun _ => 0) s.comp.row n
  match (s.snapOf n).find? (fun p => p.1 = l) with
  | none => none
  | some (_, d) =>
    let f := surfOf d
    match s.coverage n l f with
    | some (_, (r0, r1)) =>
      if r ≤ r0 then none else some (f.lineAfter l (bitsOf (s.regN (rCP_VTAPS n)) (4 * l) 4) (min (r - 1) r1))
    | none => none

/-- Pipeline n fetches the rest of the layer's frame from a new base: what it has fetched stays as it was. -/
def State.rebaseLayer (s : State) (l : Nat) (d : List Word) (n : Nat) : State :=
  let old := ((s.snapOf n).find? (fun p => p.1 = l)).map (fun p => (surfOf p.2).addr)
  let s := match s.fetchedTo n l, old with
    | some line, some a => { s with comp := { s.comp with cuts := s.comp.cuts ++ [((n, l), (line, a))] } }
    | _, _ => s
  let snap := (s.snapOf n).map (fun p => if p.1 = l then (l, d) else p)
  { s with comp := { s.comp with snap := tabSet (fun _ => []) s.comp.snap n snap } }

/-- A write of LAYER_RAW_ADDR_LO_l. -/
def State.rawAddr (s : State) (l : Nat) (lo : Word) : State :=
  let hi := s.regN (rMSG_LAYER_RAW_ADDR_HI l) % 256
  let d := s.flipDesc l
  let w1 := (nth 0#32 d 1).toNat
  let d' := (d.set 0 lo).set 1 (BitVec.ofNat 32 (putBits w1 0 8 hi))
  let bad := decide (s.descReason l d' = 5 ∨ s.descReason l d' = 7)
  if s.isF (fMSG_LAYER_CFG_RAW_EN l) = false ∨ s.isF (fMSG_LAYER_STATUS_NEVER_FLIPPED l) ∨ bad then
    s.postOnce evCOMPOSE_RAW_REFUSED l s.lampFrame srcMSG (2 ^ 29 * l)
  else
    let s := if s.onFallback l then s else (List.range 4).foldl (fun s n => s.rebaseLayer l d' n) s
    let s := { s with comp := { s.comp with desc := tabSet (fun _ => []) s.comp.desc l d' } }
    let s := if s.onFallback l then s else s.setRegWords (rMSG_LAYER_ACTIVE l 0) d'
    s.postOnce evCOMPOSE_RAW_TEAR l s.lampFrame srcMSG (2 ^ 29 * l)

/-! ### Capture writers (R138 to R140) -/

/-- Base of buffer b of writer w. -/
def State.capBase (s : State) (w b : Nat) : Nat :=
  s.regN (rHOSTIF_CAPW_BUF w b) + 2 ^ 32 * bitsOf (s.regN (rHOSTIF_CAPW_BUF_HI w)) (8 * b) 8

def State.capw (s : State) (w : Nat) : CapW := tabGet (fun _ => {}) s.comp.capw w

def State.setCapw (s : State) (w : Nat) (c : CapW) : State :=
  { s with comp := { s.comp with capw := tabSet (fun _ => {}) s.comp.capw w c } }

/-- The enabled writer of a receiver, virtual channel and data type. -/
def State.capOf (s : State) (rx vc dt : Nat) : Option Nat :=
  (List.range 8).find? (fun w => s.isF (fHOSTIF_CAPW_CFG_EN w) && s.getF (fHOSTIF_CAPW_CFG_RX w) == rx
    && s.getF (fHOSTIF_CAPW_CFG_VC w) == vc && s.getF (fHOSTIF_CAPW_CFG_DT w) == dt)

/-- Is the base in use by a layer's active descriptor or a committed flip not yet latched (R140)? -/
def State.baseInUse (s : State) (a : Nat) : Bool :=
  let flying := s.comp.flight.filterMap (fun c => match c.2 with | .flip _ f => some f | _ => none)
  (List.range 8).any (fun l => s.layValid l && (surfOf (s.regWords (rMSG_LAYER_ACTIVE l 0) 8)).addr == a
      && (s.reg (rMSG_LAYER_ACTIVE l 1)) != 0)
    || (s.comp.pend.map Prod.snd ++ flying).any (fun f => f.descs.any (fun p => (surfOf p.2).addr == a))

/-- A frame is dropped whole: its buffer is in use (R140). -/
def State.capDrop (s : State) (w : Nat) : State :=
  let s := (s.setCapw w { s.capw w with skip := true }).bump (rHOSTIF_CAPW_DROP_COUNT w)
  s.postOnce evCOMPOSE_CAPTURE_DROP w s.lampFrame srcHOSTIF (2 ^ 29 * w + s.regN (rHOSTIF_CAPW_FRAME_COUNT w) % 65536)

/-- A frame is to be written into buffer `b` of writer w. -/
def State.capInto (s : State) (w b : Nat) : State := if s.baseInUse (s.capBase w b) then s.capDrop w else s

/-- A frame start on one writer: the next buffer, or the whole frame is dropped (R140). -/
def State.capStart (s : State) (w : Nat) : State :=
  let c := s.capw w
  let b := c.next % (s.getF (fHOSTIF_CAPW_CFG_BUFS w) + 1)
  let s := s.setCapw w { started := true, buf := b, next := c.next + 1 }
  (s.setF (fHOSTIF_CAPW_STATUS_BUF w) b).capInto w b

/-- Bytes that a row of the writer's surface takes: the declared length is that of the layer's surface in the flip, so
the row length is held to the stride (log 36). -/
def State.capStride (s : State) (w : Nat) : Nat := 64 * s.getF (fHOSTIF_CAPW_GEOM_STRIDE w)

/-- Bytes that a compressed frame may take: SIZE × 64 KiB. -/
def State.capSize (s : State) (w : Nat) : Nat := 65536 * s.regN (rHOSTIF_CAPW_SIZE w)

/-- A payload is written, and counted. -/
def State.capPut (s : State) (w : Nat) (bs : List Byte) (err : Bool) : State :=
  let c := s.capw w
  let base := s.capBase w c.buf
  if s.isF (fHOSTIF_CAPW_CFG_COMPRESSED w) then
    let s := if c.bytes + bs.length ≤ s.capSize w then s.putDram (base + c.bytes) bs else s
    s.setCapw w { c with bytes := c.bytes + bs.length, err := c.err || err }
  else
    let bad := decide (s.capStride w < bs.length ∨ (0 < c.rows ∧ bs.length ≠ c.bytes))
    let s := if c.rows < s.getF (fHOSTIF_CAPW_GEOM_HEIGHT w) ∧ bad = false then s.putDram (base + c.rows * s.capStride w) bs else s
    s.setCapw w { c with rows := c.rows + 1, bytes := bs.length, lenBad := c.lenBad || bad, err := c.err || err }

/-- A long packet of a writer's stream: `bs` its payload, `err` a packet error the receiver reports (R138). A frame that saw no frame
start begins with its first packet, in buffer 0 (DESIGN CHOICE, log 175). -/
def State.capPacket (s : State) (w : Nat) (bs : List Byte) (err : Bool) : State :=
  let c := s.capw w
  let s := if c.started = false ∧ c.skip = false ∧ c.rows = 0 ∧ c.bytes = 0 then s.capInto w 0 else s
  if (s.capw w).skip then s else s.capPut w bs err

/-- The reason a frame is bad: 1 no frame start, 2 packet error, 3 rows or length, 4 size; 0 good (R139). -/
def State.capReason (s : State) (w : Nat) : Nat :=
  let c := s.capw w
  if c.started = false then 1
  else if c.err then 2
  else if s.isF (fHOSTIF_CAPW_CFG_COMPRESSED w) then
    (if s.capSize w < c.bytes then 4 else 0)
  else if c.lenBad ∨ c.rows ≠ s.getF (fHOSTIF_CAPW_GEOM_HEIGHT w) then 3 else 0

/-- The descriptor of an automatic flip: the layer's active one with the buffer's base, and its size if compressed. -/
def State.capDesc (s : State) (w l : Nat) : List Word :=
  let d := s.regWords (rMSG_LAYER_ACTIVE l 0) 8
  let base := s.capBase w (s.capw w).buf
  let w1 := putBits (nth 0#32 d 1).toNat 0 8 (base / 2 ^ 32)
  let w1 := if s.isF (fHOSTIF_CAPW_CFG_COMPRESSED w) then putBits w1 16 16 (s.regN (rHOSTIF_CAPW_SIZE w)) else w1
  (d.set 0 (BitVec.ofNat 32 base)).set 1 (BitVec.ofNat 32 w1)

/-- A frame end on one writer (R139); an automatic flip carries its group's order of now (DESIGN CHOICE, log 174). -/
def State.capEnd (s : State) (w : Nat) : State :=
  let c := s.capw w
  if c.skip then s.setCapw w { next := c.next }
  else
    let why := s.capReason w
    if why ≠ 0 then
      let s := (s.bump (rHOSTIF_CAPW_BAD_COUNT w)).setF (fHOSTIF_CAPW_STATUS_REASON w) why
      let s := s.postOnce evCOMPOSE_CAPTURE_BAD w s.lampFrame srcHOSTIF (2 ^ 29 * w + why)
      s.setCapw w { next := c.next }
    else
      let s := s.setRegN (rHOSTIF_CAPW_FRAME_COUNT w) ((s.regN (rHOSTIF_CAPW_FRAME_COUNT w) + 1) % 2 ^ 32)
      let k := s.getF (fHOSTIF_CAPW_CFG_FENCE w)
      let s := s.signal k 1
      let s := if s.isF (fHOSTIF_CAPW_CFG_AUTO_FLIP w) then
          let l := s.getF (fHOSTIF_CAPW_CFG_LAYER w)
          let g := s.layGroup l
          let order := (s.groupOrder g).zipIdx.foldl (fun v p => v + (8 + p.1) * 16 ^ p.2) 0
          (s.commitFlip .capture g (2 ^ l) (BitVec.ofNat 32 order) (some k) (s.fence k) [(l, s.capDesc w l)]).2
        else s
      s.setCapw w { next := c.next }

end Sys2Proof.Machine
end

