-- ==== Sys2Proof/Machine/Press.lean ====
section
/-! DEFINITION. Press (R161 to R174, R179 to R181): correction records, the arithmetic from beam value to drive code, fill,
range selection, dither, the output buffer and the region checks. -/

namespace Sys2Proof.Machine

def State.pr (s : State) (n : Nat) : PressT := tabGet (fun _ => {}) s.press n

def State.setPr (s : State) (n : Nat) (p : PressT) : State :=
  { s with press := tabSet (fun _ => {}) s.press n p }

def State.updPr (s : State) (n : Nat) (f : PressT → PressT) : State := s.setPr n (f (s.pr n))

/-! ### Correction records (R161, R162) -/

/-- A correction record. -/
structure CorrRec where
  gain : Nat
  age : Nat
  offset : Int
  curve : Nat
  tco : Int
  reserved : Bool
  fill : Bool
  exclude : Bool
  clamp : Bool
  subst : Bool
  dead : Bool
deriving DecidableEq, Repr

def recOf (w : Nat) : CorrRec :=
  { gain := bitsOf w 48 16, age := bitsOf w 36 12, offset := signOf 12 (bitsOf w 24 12), curve := bitsOf w 16 8,
    tco := signOf 8 (bitsOf w 8 8), reserved := bitsOf w 5 3 ≠ 0, fill := w.testBit 4, exclude := w.testBit 3,
    clamp := w.testBit 2, subst := w.testBit 1, dead := w.testBit 0 }

/-- The active record of pixel i of tile n. -/
def recAddr (n i : Nat) : Nat := corrBase + 0x200000 * n + 8 * i

/-- A pixel's record in its tile's P or S table (R162). -/
def State.recTable (s : State) (n sel : Nat) : Nat :=
  if sel = 0 then s.regN (rPRESS_REC_BASE_P_LO n) + 2 ^ 32 * (s.regN (rPRESS_REC_BASE_P_HI n) % 256)
  else s.regN (rPRESS_REC_BASE_S_LO n) + 2 ^ 32 * (s.regN (rPRESS_REC_BASE_S_HI n) % 256)

/-- The selection-map bit of a pixel: 0 P, 1 S. -/
def State.selBit (s : State) (n i : Nat) : Nat := tabGet (fun _ => 0) s.sel (262144 * n + i)

def State.putSel (s : State) (n i v : Nat) : State :=
  { s with sel := tabSet (fun _ => 0) s.sel (262144 * n + i) v }

/-- A bit of the selection map is written; a word that an armed injection loses is discarded (R387, R392, region 10). -/
def State.setSel (s : State) (n i v : Nat) : State :=
  if s.injectArmed 10 then
    let (lost, s) := s.injectFound 10
    if lost then s else s.putSel n i v
  else s.putSel n i v

/-- The active record as stored. -/
def State.recNow (s : State) (n i : Nat) : CorrRec := recOf (s.loadN (recAddr n i) 8)

/-- The state with no more correction memory and selection bits than rows y - 1 to y + 1 of tile n have: what the pixels of
row y are read from. -/
def State.rowView (s : State) (n y : Nat) : State :=
  { s with mem := tabCut s.mem (recAddr n (512 * (y - 1))) 12288, sel := tabCut s.sel (262144 * n + 512 * (y - 1)) 1536 }

/-- Is the pixel one that can receive fill (R167)? -/
def CorrRec.live (r : CorrRec) : Bool := !(r.dead || r.exclude || r.reserved)

/-! ### The arithmetic (R165 to R173) -/

/-- Where knot k of curve c of PRESS_n lies in the system address map (R169). -/
def knotAddr (n c k : Nat) : Nat := 0xF800000000 + rPRESS_CFG n + 0x4000 + 0x84 * c + 4 * k

/-- Knot k of curve c in the frame's bank of PRESS_n; a lost one reads 0 (R387). -/
def State.knot (s : State) (n bank c k : Nat) : Nat :=
  match eccClassify (s.syndAt (knotAddr n c k)) with
  | .uncorrectable => 0
  | _ => (tabGet (fun _ => 0#32) (if bank = 0 then s.bank0 else s.bank1) (33 * c + k)).toNat

/-- k_tile in the frame (R168). -/
def State.kTile (s : State) (n : Nat) (p : PressT) : Nat :=
  if p.cfg.getLsbD 28 then s.regN (rPRESS_TILE_FACTOR n) else 0x8000

/-- The curve at v1 (R169). -/
def State.curveAt (s : State) (n bank c v1 : Nat) : Nat :=
  let i := v1 / 2048
  let f := v1 % 2048
  let k0 := s.knot n bank c i
  let k1 := s.knot n bank c (i + 1)
  ((k0 : Int) + (((k1 : Int) - k0) * f + 1024) / 2048).toNat

/-- The combined factor cd (R168). -/
def combined (derate k : Nat) : Nat := (min derate 0x8000 * k + 0x4000) / 32768

/-- The factor ft (R165). -/
def thermal (on : Bool) (tco dT : Int) : Nat :=
  if on then (clampI 0x4000 0xFFFF (0x8000 + (tco * dT + 2) / 4)).toNat else 0x8000

/-- The drive magnitude m3. -/
def magnitude (c gain age ft : Nat) : Nat :=
  let m1 := min ((c * gain + 0x2000) / 16384) 0x3FFFFFF
  let m2 := min ((m1 * age + 0x400) / 2048) 0x3FFFFFF
  (m2 * ft + 0x4000) / 32768

/-- U_r and H_r (R170). -/
def rangeTop (r : Nat) : Nat := 16383 * 16 * 4 ^ r
def rangeDown (r : Nat) : Nat := (15401 * rangeTop (r - 1) + 8192) / 16384

/-- Up while the magnitude is above U_r. -/
def rangeUp (m3 rMax : Nat) : Nat → Nat → Nat
  | 0, r => r
  | n + 1, r => if r < rMax ∧ rangeTop r < m3 then rangeUp m3 rMax n (r + 1) else r

/-- Down while it is at or below H_r. -/
def rangeFall (m3 : Nat) : Nat → Nat
  | 0 => 0
  | r + 1 => if m3 ≤ rangeDown (r + 1) then rangeFall m3 r else r + 1

/-- The range from a stored state (0 invalid, else 1 + r) (R170). -/
def selectRange (st m3 rMax : Nat) : Nat :=
  let r0 := if st = 0 then rangeUp m3 rMax 3 0 else st - 1
  rangeFall m3 (rangeUp m3 rMax 3 (min r0 rMax))

/-- 4-bit bit reversal. -/
def rev4 (v : Nat) : Nat := 8 * (v % 2) + 4 * (v / 2 % 2) + 2 * (v / 4 % 2) + v / 8 % 2

/-- The duty before the offset (R172). -/
def formDuty (dither : Bool) (m3 r frame x y : Nat) : Nat :=
  let sh := 4 + 2 * r
  if dither then
    let q := m3 / 2 ^ sh
    let f4 := m3 / 2 ^ (sh - 4) % 16
    let th := rev4 ((frame + x + 4 * y) % 16)
    min (q + (if th < f4 then 1 else 0)) 16383
  else min ((m3 + 2 ^ (sh - 1)) / 2 ^ sh) 16383

/-- The offset (R173). -/
def addOffset (duty : Nat) (off : Int) : Nat := if duty = 0 then 0 else (clampI 1 16383 (duty + off)).toNat

/-- What Press makes of one pixel. -/
structure PixOut where
  code : Nat
  /-- the range state after the row is sent: 0 kept -/
  range : Nat
  sat : Bool
deriving DecidableEq, Repr

def pixOff : PixOut := ⟨0, 0, false⟩

/-- Does an enabled region with NODITHER hold the pixel (R172)? -/
def PressT.noDither (p : PressT) (x y : Nat) : Bool :=
  (p.roiPos.zip p.roiEnd).any (fun q =>
    let a := q.1.toNat
    let b := q.2.toNat
    a.testBit 31 && a.testBit 29 && bitsOf a 16 9 ≤ y && y ≤ bitsOf b 16 9 && bitsOf a 0 9 ≤ x && x ≤ bitsOf b 0 9)

/-- Neighbours of (x, y) within the tile. -/
def neighbours (x y : Nat) : List (Nat × Nat) :=
  (if 0 < x then [(x - 1, y)] else []) ++ (if x < 511 then [(x + 1, y)] else [])
    ++ (if 0 < y then [(x, y - 1)] else []) ++ (if y < 511 then [(x, y + 1)] else [])

/-- Composed beam value of the frame at (x, y). -/
def PressT.beamAt (p : PressT) (x y : Nat) : Nat := (p.beam.getD y []).getD x 0

/-- fill_raise (R167). -/
def State.fillRaise (s : State) (n : Nat) (p : PressT) (x y : Nat) : Nat :=
  if p.cfg.getLsbD 30 then
    let k := bitsOf p.cfg.toNat 8 8
    let shares := (neighbours x y).map (fun q =>
      let r := s.recNow n (512 * q.2 + q.1)
      if r.dead && r.fill then (p.beamAt q.1 q.2 * k + 128) / 256 else 0)
    min shares.sum (p.beamAt x y / 4)
  else 0

/-- The active curve bank. -/
def State.activeBank (s : State) : Nat := s.getF (fPRESS_STATUS_CURVE_BANK 0)

/-- One pixel through R165, its record readable. -/
def State.pressPix (s : State) (n : Nat) (p : PressT) (x y : Nat) : PixOut :=
  let i := 512 * y + x
  let r := s.recNow n i
  if r.exclude ∨ r.dead ∨ r.reserved ∨ r.subst ≠ (s.selBit n i == 1) then pixOff
  else
    let blk := 16 * (y / 32) + x / 32
    let v := min (p.beamAt x y + s.fillRaise n p x y) 0xFFFF
    let cd := combined (nth 0 p.derate blk) (s.kTile n p)
    let v1 := (v * cd + 0x4000) / 32768
    let c := s.curveAt n p.bank r.curve v1
    let dT := signOf 16 (nth 0 p.temp blk) - signOf 16 (s.regN (rPRESS_TREF n))
    let m3 := magnitude c r.gain r.age (thermal (p.cfg.getLsbD 29) r.tco dT)
    if m3 = 0 then pixOff
    else
      let rMax := if r.clamp then bitsOf p.cfg.toNat 26 2 else 3
      let rg := selectRange (tabGet (fun _ => 0) p.range i) m3 rMax
      let sat := decide (rangeTop rg < m3)
      let m3 := min m3 (rangeTop rg)
      let dith := p.cfg.getLsbD 31 && !p.noDither x y
      let duty := addOffset (formDuty dith m3 rg p.frame x y) r.offset
      ⟨if duty = 0 then 0 else 16384 * rg + duty, 1 + rg, sat⟩

/-- Uncorrectable record: pixel off, queued for reload, counted (R179). -/
def State.corrUe (s : State) (n i : Nat) : State :=
  let s := s.updPr n (fun p => { p with reload := if p.reload.contains i then p.reload else p.reload ++ [i] })
  (s.raise (fPRESS_STATUS_CORR_UE n) (rPRESS_CORR_UE_COUNT n)).postOnce evPRESS_CORR_UE n s.lampFrame (srcPRESS n)
    (2 ^ 30 * n + i)

/-- SUBST against the selection map (R166). -/
def State.selMismatch (s : State) (n i : Nat) : State :=
  (s.raise (fPRESS_STATUS_SEL_MISMATCH n) (rPRESS_SEL_MISMATCH_COUNT n)).postOnce evPRESS_SEL_MISMATCH n s.lampFrame
    (srcPRESS n) (2 ^ 30 * n + i)

/-- One pixel: its record is read and checked, then R165. -/
def State.pressRead (s : State) (n x y : Nat) : PixOut × State :=
  let i := 512 * y + x
  let (u, s) := s.checkRange (recAddr n i) 8
  if u then (pixOff, s.corrUe n i)
  else
    let r := s.recNow n i
    let bad := r.subst != (s.selBit n i == 1)
    let s := if bad then s.selMismatch n i else s
    (s.pressPix n (s.pr n) x y, s)

/-- The pixels of row y: record by record where the row's records have an error to find, else all of them as they stand. -/
def State.pressPixels (s : State) (n y : Nat) : List PixOut × State :=
  if s.dirtyWords (recAddr n (512 * y)) 4096 ≠ [] then
    let (px, s) := (List.range 512).foldl (fun (a : List PixOut × State) x =>
      let (p, s) := a.2.pressRead n x y
      (p :: a.1, s)) ([], s)
    (px.reverse, s)
  else
    let v := s.rowView n y
    let p := s.pr n
    let p := { p with range := tabCut p.range (512 * y) 512 }
    let bad := (List.range 512).filter (fun x =>
      let r := v.recNow n (512 * y + x)
      r.subst != (v.selBit n (512 * y + x) == 1))
    ((List.range 512).map (fun x => v.pressPix n p x y), bad.foldl (fun s x => s.selMismatch n (512 * y + x)) s)

/-- Drive-code row y. -/
def State.pressRow (s : State) (n y : Nat) : DriveRow × State :=
  let (px, s) := s.pressPixels n y
  let load := (px.map (fun p => p.code % 16384 * 4 ^ (p.code / 16384))).sum
  (⟨y, px.map PixOut.code, px.map PixOut.range, (px.filter PixOut.sat).length, load⟩, s)

/-- Press makes the drive-code rows its composed rows allow while the two-row buffer has room (R167, R180); a row whose
slot has passed is discarded. -/
def State.pressFill (s : State) (n : Nat) : Nat → State
  | 0 => s
  | k + 1 =>
    let p := s.pr n
    if p.made < 512 ∧ (p.made + 1 < p.beam.length ∨ p.beam.length = 512) ∧ p.made < p.beam.length ∧ p.out.length < 2 then
      let (r, s) := s.pressRow n p.made
      let late := (s.pr n).carried.contains p.made
      let s := s.updPr n (fun p => { p with made := p.made + 1, out := if late then p.out else p.out ++ [r] })
      s.pressFill n k
    else s

/-- May another composed row enter: Press holds three (R167)? -/
def PressT.room (p : PressT) : Bool := p.beam.length < 512 && p.beam.length < p.made + 2

/-! ### The tile cap (R168) -/

/-- k_tile for the next frame. -/
def capNext (k load limit : Nat) : Nat :=
  if limit < load then k * limit / load
  else if load + load / 128 ≤ limit then min (k + 0x100) 0x8000
  else k

/-- The load of the frame is reported, and the factor follows; the limit counts in 1,024 duty LSB. -/
def State.capFrame (s : State) (n : Nat) (p : PressT) : State :=
  let load := (p.sent.map DriveRow.load).sum
  let s := s.setRegN (rPRESS_TILE_LOAD n) (satAt 0xFFFFFFFF (load / 1024))
  let k := s.regN (rPRESS_TILE_FACTOR n)
  let k' := if p.cfg.getLsbD 28 then capNext k load (1024 * (s.regN (rPRESS_TILE_MAX n) * p.cap / 32768)) else 0x8000
  let s := s.setRegN (rPRESS_TILE_FACTOR n) k'
  if k = 0x8000 ∧ k' < 0x8000 then
    s.postOnce evPRESS_TILE_CAPPED n s.lampFrame (srcPRESS n) (2 ^ 30 * n + k')
  else s

/-! ### Saturation (R171) and regions (R181) -/

/-- SAT_PIXELS and SAT; a count that [17:0] cannot hold reads as its largest (DESIGN CHOICE, log 173). -/
def State.satFrame (s : State) (n : Nat) (p : PressT) : State :=
  let k := satAt 0x3FFFF (p.sent.map DriveRow.sat).sum
  let s := s.setRegN (rPRESS_SAT_PIXELS n) k
  if 0 < k then
    (s.raise (fPRESS_STATUS_SAT n) (rPRESS_SAT_COUNT n)).postGap evPRESS_SAT n (ticksMs 1000) (srcPRESS n) (2 ^ 30 * n + k)
  else s

/-- The codes sent for row y. -/
def PressT.codesOf (p : PressT) (y : Nat) : Option (List Nat) := (p.sent.find? (fun r => r.y = y)).map DriveRow.codes

/-- Region k: (CRC, invalid). -/
def PressT.region (p : PressT) (torn : Bool) (k : Nat) : Option (Word × Bool) :=
  let a := (nth 0#32 p.roiPos k).toNat
  let b := (nth 0#32 p.roiEnd k).toNat
  if a.testBit 31 = false then none
  else
    let (t, l, bo, r) := (bitsOf a 16 9, bitsOf a 0 9, bitsOf b 16 9, bitsOf b 0 9)
    let rows := (List.range (bo + 1 - t)).map (· + t)
    let bad := torn || decide (bo < t) || decide (r < l) || rows.any (fun y => (p.codesOf y).isNone)
    let bytes := rows.flatMap (fun y => ((((p.codesOf y).getD []).drop l).take (r + 1 - l)).flatMap (leBytes 2))
    some (BitVec.ofNat 32 (crc32c bytes), bad)

/-- The results of the 16 regions for the frame. -/
def State.roiFrame (s : State) (n frame : Nat) (p : PressT) (torn : Bool) : State :=
  let res := (List.range 16).map (fun k => (k, p.region torn k))
  let s := res.foldl (fun s q =>
    match q.2 with
    | some (c, _) => s.setReg (rPRESS_ROI_CRC n q.1) c
    | none => s) s
  let inv := (res.map (fun q => match q.2 with | some (_, true) => 2 ^ q.1 | _ => 0)).sum
  let mis := (res.map (fun q => match q.2 with
    | some (c, false) => if (nth 0#32 p.roiPos q.1).getLsbD 30 ∧ c ≠ nth 0#32 p.roiExp q.1 then 2 ^ q.1 else 0
    | _ => 0)).sum
  let s := (s.setRegN (rPRESS_ROI_STATUS n) (65536 * inv + mis)).setRegN (rPRESS_ROI_FRAME n) frame
  if mis ≠ 0 then
    (s.raise (fPRESS_STATUS_ROI_MISMATCH n) (rPRESS_ROI_MISMATCH_COUNT n)).postOnce evPRESS_ROI_MISMATCH n s.lampFrame
      (srcPRESS n) (2 ^ 30 * n + mis)
  else s

/-- The valid bits of a tile's range states are cleared (R170). -/
def State.dropRanges (s : State) (n : Nat) : State := s.updPr n (fun p => { p with range := [] })

/-! ### Slot maps (R198) -/

/-- May the pixel's record take part in a slot? -/
def State.slotOk (s : State) (n i : Nat) : Bool :=
  let r := s.recNow n i
  r.live && r.subst == (s.selBit n i == 1)

/-- The same for the pixels of row y. -/
def State.slotRow (s : State) (n y : Nat) : List Bool :=
  let v := s.rowView n y
  (List.range 512).map (fun x => v.slotOk n (512 * y + x))

/-- The slot code from the largest value of the window. -/
def State.slotCode (s : State) (n curve vMax : Nat) (p : PressT) : Nat :=
  let cd := combined (p.derate.foldl min 0x8000) (s.kTile n p)
  let c := s.curveAt n p.bank curve ((vMax * cd + 0x4000) / 32768)
  let m3 := magnitude c 0x4000 0x800 0x8000
  if m3 = 0 then 0
  else
    let r := rangeUp m3 3 3 0
    let duty := formDuty false (min m3 (rangeTop r)) r p.frame 0 0
    if duty = 0 then 0 else 16384 * r + duty

end Sys2Proof.Machine
end

