-- ==== Sys2Proof/Machine/PressWin.lean ====
section
/-! DEFINITION. Taking up records (R175 to R178, R254), the snapshot ring (R182, R183), the beam recorder (R184 to R187) and
the per-frame snapshot of inputs (R164). -/

namespace Sys2Proof.Machine

def State.tgOf (s : State) (n : Nat) : Tg := tabGet (fun _ => {}) s.tg n
def State.setTg (s : State) (n : Nat) (t : Tg) : State := { s with tg := tabSet (fun _ => {}) s.tg n t }
def State.updTg (s : State) (n : Nat) (f : Tg → Tg) : State := s.setTg n (f (s.tgOf n))

def State.portOf (s : State) (n : Nat) : Port := tabGet (fun _ => {}) s.port n
def State.setPort (s : State) (n : Nat) (p : Port) : State := { s with port := tabSet (fun _ => {}) s.port n p }
def State.updPort (s : State) (n : Nat) (f : Port → Port) : State := s.setPort n (f (s.portOf n))

def State.hl (s : State) (n : Nat) : HealthT := tabGet (fun _ => {}) s.health n
def State.setHl (s : State) (n : Nat) (h : HealthT) : State := { s with health := tabSet (fun _ => {}) s.health n h }
def State.updHl (s : State) (n : Nat) (f : HealthT → HealthT) : State := s.setHl n (f (s.hl n))

/-- The capability record of port n: while the port is down, that of the tile last accepted there. -/
def State.caps (s : State) (n : Nat) : Option Caps := (s.portOf n).caps.or (s.hl n).caps

/-- Does the tile on port n declare spares? -/
def State.hasSpares (s : State) (n : Nat) : Bool :=
  match s.caps n with
  | some c => c.spares
  | none => false

/-! ### The inputs of a frame (R13, R164) -/

/-- What Press reads for `n` entries of an input table: the stored values, or the defaults in force (R13). -/
def State.derateOf (s : State) (n : Nat) : List Nat :=
  (List.range 256).map (fun b => if nth false s.hlv.applied 0 then 0x2000 else s.regN (rHK_DERATE (256 * n + b)) % 65536)

def State.blktempOf (s : State) (n : Nat) : List Nat :=
  (List.range 256).map (fun b =>
    let k := 256 * n + b
    (if nth false s.hlv.applied 1 then (tabGet (fun _ => 0#32) s.hlv.frozen k).toNat else s.regN (rHK_BLKTEMP k)) % 65536)

def State.capOf_ (s : State) (n : Nat) : Nat :=
  if nth false s.hlv.applied 2 then 0x4000 else s.regN (rHK_TILE_CAP n) % 65536

/-- Pipeline n's snapshot for transfer frame `frame`; what belonged to the last frame is dropped. -/
def State.pressLatch (s : State) (n frame : Nat) : State :=
  let d := s.derateOf n
  let t := s.blktempOf n
  let c := s.capOf_ n
  s.updPr n (fun p =>
    { p with frame := frame, cfg := s.reg (rPRESS_CFG n), derate := d, temp := t, cap := c, bank := s.activeBank,
             roiPos := (List.range 16).map (fun k => s.reg (rPRESS_ROI_POS n k)),
             roiEnd := (List.range 16).map (fun k => s.reg (rPRESS_ROI_END n k)),
             roiExp := (List.range 16).map (fun k => s.reg (rPRESS_ROI_EXP n k)),
             beam := [], made := 0, out := [], sent := [], carried := [] })

/-! ### The refresh sweep (R175) -/

/-- AGE moves towards the DRAM value by a bounded step; true when it was limited. -/
def ageStep (old new : Nat) : Nat × Bool :=
  let st := max 1 (41 * old / 8192)
  if new ≤ old + st ∧ old ≤ new + st then (new, false)
  else if old < new then (old + st, true) else (old - st, true)

/-- Is one of the words of the range uncorrectable, in the sense of R387? -/
def State.rangeBad (s : State) (a n : Nat) : Bool := s.ueIn a n

/-- One pixel of the sweep; true when its AGE was limited. -/
def State.sweepPix (s : State) (n i : Nat) : Bool × State :=
  let w := s.loadN (s.recTable n (s.selBit n i) + 8 * i) 8
  let old := bitsOf (s.loadN (recAddr n i) 8) 36 12
  let (a, lim) := ageStep old (bitsOf w 36 12)
  (lim, s.writeMem (recAddr n i) (leBytes 8 (putBits w 36 12 a)))

/-- The DRAM addresses of the records of row y. -/
def State.sweepAddrs (s : State) (n y : Nat) : List Nat :=
  (List.range 512).map (fun x => s.recTable n (s.selBit n (512 * y + x)) + 8 * (512 * y + x))

/-- The DRAM words of row y are checked: true when one is uncorrectable. -/
def State.sweepCheck (s : State) (n y : Nat) : Bool × State :=
  (s.sweepAddrs n y).foldl (fun (a : Bool × State) q =>
    let (u, s) := a.2.checkRange q 8
    (a.1 || u, s)) (false, s)

/-- The pixels of row y are taken: how many AGE_MAX limited. -/
def State.sweepTake (s : State) (n y : Nat) : Nat × State :=
  (List.range 512).foldl (fun (a : Nat × State) x =>
    let (l, s) := a.2.sweepPix n (512 * y + x)
    (a.1 + l.toNat, s)) (0, s)

/-- The first record of row y's sweep that lies outside the map. -/
def State.sweepMiss (s : State) (n y : Nat) : Option Nat := (s.sweepAddrs n y).find? (fun q => !s.rangeOk q 8)

/-- A row of the sweep whose records have been read, or whose first record outside the map is given: whether it was taken. -/
def State.sweepGo (s : State) (n y : Nat) : Option Nat → Bool × State
  | some q => (false, s.busErr (s.rangeEnd q))
  | none =>
    let k := s.sweepTake n y
    let s := k.2.updPr n (fun p => { p with limited := p.limited + k.1 })
    let y' := (y + 1) % 512
    let s := s.setF (fPRESS_SWEEP_STATUS_ROW n) y'
    if y' = 0 then
      let s := s.setF (fPRESS_SWEEP_STATUS_COUNT n) (s.getF (fPRESS_SWEEP_STATUS_COUNT n) + 1)
      let s := s.setRegN (rPRESS_AGE_LIMITED n) (satAt 0x3FFFF (s.pr n).limited)
      (true, s.updPr n (fun p => { p with limited := 0 }))
    else (true, s)

/-- One row of the sweep; a row with an uncorrectable word is left as it is. -/
def State.sweepRow (s : State) (n y : Nat) : Bool × State :=
  let r := s.sweepCheck n y
  if r.1 then (false, r.2) else r.2.sweepGo n y (r.2.sweepMiss n y)

/-- `k` rows of the sweep; a row that cannot be taken ends it, and is taken again. -/
def State.sweepRows (s : State) (n : Nat) : Nat → State
  | 0 => s
  | k + 1 =>
    let r := s.sweepRow n (s.getF (fPRESS_SWEEP_STATUS_ROW n))
    if r.1 then r.2.sweepRows n k else r.2

/-- Queued pixels are reloaded from their DRAM tables (R179). -/
def State.reloadAll (s : State) (n : Nat) : State :=
  let l := (s.pr n).reload
  let s := s.updPr n (fun p => { p with reload := [] })
  l.foldl (fun s i =>
    let a := s.recTable n (s.selBit n i) + 8 * i
    let (u, s) := s.checkRange a 8
    let s := if s.rangeOk a 8 then s else s.busErr (s.rangeEnd a)
    if u ∨ s.rangeOk a 8 = false then s.updPr n (fun p => { p with reload := p.reload ++ [i] })
    else s.writeMem (recAddr n i) (s.bytes a 8)) s

/-! ### The update list (R176, R177, R254) -/

/-- An entry: word 0, word 1 and the record. -/
structure UpdEntry where
  w0 : Nat
  w1 : Nat
  record : List Byte
deriving DecidableEq, Repr

def UpdEntry.last (e : UpdEntry) : Bool := e.w0.testBit 31
def UpdEntry.isSel (e : UpdEntry) : Bool := e.w0.testBit 30
def UpdEntry.pixel (e : UpdEntry) : Nat := bitsOf e.w0 0 18
/-- The span of the pixel: 16 × row + column ÷ 32. -/
def UpdEntry.span (e : UpdEntry) : Nat := 16 * (e.pixel / 512) + e.pixel % 512 / 32

/-- Entry k of the list; none on a bus error. -/
def State.updEntry (s : State) (n k : Nat) : Option UpdEntry × State :=
  let a := (s.pr n).updBase + 16 * k
  if s.rangeOk a 16 = false then (none, s.busErr (s.rangeEnd a))
  else
    let (u, s) := s.checkRange a 16
    if u then (none, s)
    else (some ⟨s.loadN a 4, s.loadN (a + 4) 4, s.bytes (a + 8) 8⟩, s)

/-- The group that begins at entry k, at most `fuel` entries: its entries, and whether it ends there. -/
def State.updGroup (s : State) (n k : Nat) : Nat → (Option (List UpdEntry × Bool)) × State
  | 0 => (some ([], false), s)
  | fuel + 1 =>
    if (s.pr n).updLen ≤ k then (some ([], true), s)
    else
      match s.updEntry n k with
      | (none, s) => (none, s)
      | (some e, s) =>
        if e.last then (some ([e], true), s)
        else
          match s.updGroup n (k + 1) fuel with
          | (none, s) => (none, s)
          | (some (l, done), s) => (some (e :: l, done), s)

/-- R177: an entry that makes its group invalid. -/
def State.updBad (s : State) (n : Nat) (e : UpdEntry) : Bool :=
  bitsOf e.w0 18 12 ≠ 0 || e.w1 ≠ 0 || (e.isSel && !s.hasSpares n)

/-- The spans a group toggles. -/
def selSpans (g : List UpdEntry) : List Nat := ((g.filter UpdEntry.isSel).map UpdEntry.span).eraseDups

/-- Toggles waiting for a tile, with one more pixel toggled. -/
def toggleSpan (l : List (Nat × Nat)) (y x : Nat) : List (Nat × Nat) :=
  let k := 16 * y + x / 32
  tabSet (fun _ => 0) l k (tabGet (fun _ => 0) l k ^^^ 2 ^ (x % 32))

/-- SEL_STATUS shows the spans pending. -/
def State.showPending (s : State) (n : Nat) : State :=
  s.setRegN (rZTL_SEL_STATUS n) (putBits (s.regN (rZTL_SEL_STATUS n)) 0 11 (satAt 2047 (s.portOf n).toggles.length))

/-- A pixel's selection bit is toggled in HEALTH's map, and the toggle waits for the tile (R253). -/
def State.toggleSel (s : State) (n i : Nat) : State :=
  let s := s.setSel n i (1 - s.selBit n i)
  (s.updPort n (fun p => { p with toggles := toggleSpan p.toggles (i / 512) (i % 512) })).showPending n

/-- One entry of a valid group is applied. -/
def State.applyEntry (s : State) (n : Nat) (e : UpdEntry) : State :=
  let s := s.writeMem (recAddr n e.pixel) e.record
  if e.isSel then s.toggleSel n e.pixel else s

/-- States of UPD_STATUS. -/
def updPENDING : Nat := 1
def updAPPLYING : Nat := 2
def updDONE : Nat := 3
def updERROR : Nat := 4
def updCANCELLED : Nat := 5
def updFILLING : Nat := 6

/-- ERR is set and UPD_ERROR posted; `stop` ends the list. -/
def State.updError (s : State) (n code : Nat) (stop : Bool) : State :=
  let s := s.setF (fPRESS_UPD_STATUS_ERR n) code
  let s := if stop then s.setF (fPRESS_UPD_STATUS_STATE n) updERROR else s
  s.postOnce evPRESS_UPD_ERROR n s.lampFrame (srcPRESS n) (2 ^ 30 * n + code)

/-- The number of the transfer frame that the window of tile n opens. -/
def State.nextFrame (s : State) (n : Nat) : Nat :=
  let f := (s.lampTiming.frame + 1) % 2 ^ 32
  if s.getF (fTG_STATUS_STATE n) = 3 then
    let f := if f % 2 = 1 then (f + 1) % 2 ^ 32 else f
    if (s.tgOf n).xfer.any (fun x => x.frame == f) then (f + 2) % 2 ^ 32 else f
  else f

/-- Whole groups in list order, within the budget of entries left. -/
def State.updGroups (s : State) (n frame : Nat) : Nat → Nat → State
  | 0, _ => s
  | fuel + 1, budget =>
    let p := s.pr n
    if p.updLen ≤ p.updNext then
      let s := (s.setF (fPRESS_UPD_STATUS_STATE n) updDONE).setRegN (rPRESS_UPD_FRAME n) frame
      s.postOnce evPRESS_UPD_DONE n s.lampFrame (srcPRESS n) (2 ^ 30 * n + frame % 2 ^ 30)
    else
      match s.updGroup n p.updNext 8193 with
      | (none, s) => s.updError n 4 true
      | (some (g, _), s) =>
        if 8192 < g.length ∨ 1024 < (selSpans g).length then s.updError n 2 true
        else if g.any (s.updBad n) then s.updError n 3 true
        else if budget < g.length
            ∨ 1024 < (selSpans g ++ (s.portOf n).toggles.map Prod.fst).eraseDups.length then s
        else
          let s := g.foldl (fun s e => s.applyEntry n e) s
          let s := s.updPr n (fun q => { q with updNext := q.updNext + g.length })
          let s := s.setF (fPRESS_UPD_STATUS_DONE_ENTRIES n) (s.getF (fPRESS_UPD_STATUS_DONE_ENTRIES n) + g.length)
          s.updGroups n frame fuel (budget - g.length)

/-- Curve words of PRESS_n with an error are reported, and written again from the LIBRARY copy (R387). -/
def State.curveRewrite (s : State) (n : Nat) : State :=
  (s.dirtyWords (knotAddr n 0 0) 0x8400).foldl (fun s w => let (_, s) := s.checkWord w; s.setSynd w 0) s

/-- The update window of tile n, with `rows` rows of the sweep complete in time (R175). -/
def State.updateWindow (s : State) (n rows : Nat) : State :=
  let s := (s.reloadAll n).curveRewrite n
  let s := s.sweepRows n (min rows (min (s.regN (rPRESS_SWEEP n) % 32) 16))
  let st := s.getF (fPRESS_UPD_STATUS_STATE n)
  if st = updPENDING ∨ st = updAPPLYING then
    (s.setF (fPRESS_UPD_STATUS_STATE n) updAPPLYING).updGroups n (s.nextFrame n) 8193 8192
  else s

/-- Is an update or a FILL in progress? -/
def State.updBusy (s : State) (n : Nat) : Bool :=
  let st := s.getF (fPRESS_UPD_STATUS_STATE n)
  st == updPENDING || st == updAPPLYING || st == updFILLING

/-! ### FILL (R178) -/

/-- Every record of the tile from the DRAM tables, one by one; false on a bus error. -/
def State.fillEach (s : State) (n : Nat) : Bool × State :=
  (List.range 262144).foldl (fun (a : Bool × State) i =>
    let s := a.2
    let q := s.recTable n (s.selBit n i) + 8 * i
    if s.rangeOk q 8 = false then (false, s.busErr (s.rangeEnd q))
    else
      let (u, s) := s.checkRange q 8
      if u then (false, s) else (a.1, s.writeMem (recAddr n i) (s.bytes q 8))) (true, s)

/-- The same in one move where every pixel has its P record and the table is whole and without errors. -/
def State.fillAll (s : State) (n : Nat) : Bool × State :=
  let a := s.recTable n 0
  if s.rangeOk a 0x200000 = true ∧ s.dirtyWords a 0x200000 = [] ∧ tabCut s.sel (262144 * n) 262144 = [] then
    (true, s.writeMem (recAddr n 0) (s.bytes a 0x200000))
  else s.fillEach n

/-! ### Snapshots (R182, R183) -/

def State.snapBase (s : State) (n : Nat) : Nat :=
  s.regN (rPRESS_SNAP_BASE_LO n) + 2 ^ 32 * (s.regN (rPRESS_SNAP_BASE_HI n) % 256)

/-- A 512-bit map of rows as 64 bytes. -/
def rowMap (rows : List Nat) : List Byte :=
  (List.range 64).map (fun b => BitVec.ofNat 8 ((List.range 8).map (fun k => if rows.contains (8 * b + k) then 2 ^ k else 0)).sum)

/-- Is a snapshot of the frame due? -/
def State.snapDue (s : State) (n frame : Nat) : Bool :=
  let div := s.getF (fPRESS_SNAP_CFG_DIV n)
  0 < div && frame % div == 0 && 2 ≤ s.getF (fPRESS_SNAP_CFG_SLOTS n)

/-- The number of the snapshot last begun. -/
def State.snapNo (s : State) (n : Nat) : Nat := (s.regN (rPRESS_SNAP_COUNT n) + (2 ^ 32 - 1)) % 2 ^ 32

/-- A slot is left with COMPLETE at 0. -/
def State.snapFail (s : State) (n : Nat) : State :=
  (s.bump (rPRESS_SNAP_INCOMPLETE_COUNT n)).postOnce evPRESS_SNAP_INCOMPLETE n s.lampFrame (srcPRESS n)
    (2 ^ 30 * n + s.snapNo n % 2 ^ 30)

/-- A snapshot whose transfer frame is dropped is never finished. -/
def State.snapDrop (s : State) (n : Nat) : State :=
  if (s.pr n).snapOn then (s.updPr n (fun p => { p with snapOn := false })).snapFail n else s

/-- A snapshot begins: its number, and COMPLETE cleared in its slot; one still unfinished stays so. -/
def State.snapBegin (s : State) (n frame : Nat) : State :=
  let s := s.snapDrop n
  if s.snapDue n frame then
    let q := s.regN (rPRESS_SNAP_COUNT n)
    let h := s.snapBase n + 128 * (q % s.getF (fPRESS_SNAP_CFG_SLOTS n))
    let s := s.setRegN (rPRESS_SNAP_COUNT n) ((q + 1) % 2 ^ 32)
    let s := s.updPr n (fun p => { p with snapOn := true })
    s.putDram h (leBytes 4 frame ++ leBytes 4 0 ++ List.replicate 12 0 ++ leBytes 4 q)
  else s

/-- A snapshot ends with its transfer frame: whole when the LOW class let it through in time and its slot lies in DRAM. -/
def State.snapEnd (s : State) (n frame swapNs dNs : Nat) (torn ok : Bool) : State :=
  let p := s.pr n
  if p.snapOn = false then s
  else
    let q := s.snapNo n
    let slot := q % s.getF (fPRESS_SNAP_CFG_SLOTS n)
    let h := s.snapBase n + 128 * slot
    let codes := s.snapBase n + 0x1000 + 0x80000 * slot
    let s := s.updPr n (fun p => { p with snapOn := false })
    let s := if ok then p.sent.foldl (fun s r => s.putDram (codes + 1024 * r.y) (r.codes.flatMap (leBytes 2))) s else s
    if ok ∧ s.inDram codes 0x80000 then
      let fl := 1 + (if torn then 2 else 0) + (if p.carried.isEmpty then 0 else 4)
      s.putDram h (leBytes 4 frame ++ leBytes 4 fl ++ leBytes 8 swapNs ++ leBytes 4 (dNs / 1000) ++ leBytes 4 q
        ++ List.replicate 8 0 ++ rowMap p.carried ++ List.replicate 32 0)
    else s.snapFail n

/-! ### The recorder (R184 to R187) -/

def recOFF : Nat := 0
def recRECORDING : Nat := 1
def recPOST : Nat := 2
def recFROZEN : Nat := 3

/-- The recorder's state: OFF while it is disabled. -/
def State.recState (s : State) : Nat :=
  if s.isF fREC_CFG_EN = false then recOFF
  else if s.getF fREC_STATUS_STATE = 0 then recRECORDING else s.getF fREC_STATUS_STATE

def State.recBase (s : State) : Nat := s.regN rREC_RING_LO + 2 ^ 32 * (s.regN rREC_RING_HI % 256)
def State.recBytes (s : State) : Nat := 2 ^ 20 * (s.regN rREC_SIZE % 4096)

/-- A signed difference fits w bits. -/
def fitsBits (w : Nat) (d : Int) : Bool := -(2 ^ w : Nat) ≤ 2 * d && 2 * d < (2 ^ w : Nat)

/-- The residual of pixel (x, y): its difference from the prediction, modulo 2^16, read as signed. -/
def encResidual (v : List Nat) (x y : Nat) : Int :=
  let at_ := fun (i j : Nat) => (v.getD (32 * j + i) 0 : Nat)
  let pred := if 0 < x then at_ (x - 1) y else if 0 < y then at_ 0 (y - 1) else at_ 0 0
  signOf 16 (unsignOf 16 ((at_ x y : Int) - pred))

/-- The residuals of sub-block i, in raster order. -/
def subResiduals (v : List Nat) (i : Nat) : List Int :=
  (List.range 64).map (fun k => encResidual v (8 * (i % 4) + k % 8) (8 * (i / 4) + k / 8))

/-- The width code of a sub-block. -/
def subCode (rs : List Int) : Nat :=
  if rs.all (fun r => r = 0) then 0 else if rs.all (fitsBits 2) then 1 else if rs.all (fitsBits 4) then 2
  else if rs.all (fitsBits 8) then 3 else 4

/-- The PRED payload of a block of 1,024 values (R136, R185). -/
def predPayload (v : List Nat) : List Byte :=
  let subs := (List.range 16).map (subResiduals v)
  let codes := subs.map subCode
  let word := (codes.zipIdx.map (fun q => q.1 * 2 ^ (3 * q.2))).sum + 2 ^ 48 * v.headD 0
  let bits := (subs.zip codes).flatMap (fun q => if q.2 = 0 then [] else q.1.map (fun r => (resWidth q.2, unsignOf (resWidth q.2) r)))
  let (num, len) := bits.foldl (fun (a : Nat × Nat) b => (a.1 + b.2 * 2 ^ a.2, a.2 + b.1)) (0, 0)
  leBytes 8 word ++ leBytes ((len + 7) / 8) num

/-- One block: header mode, SOLID value, payload (R185). -/
def encodeBlock (v : List Nat) : Nat × Nat × List Byte :=
  if v.all (fun x => x = v.headD 0) then (0, v.headD 0, [])
  else
    let p := predPayload v
    if p.length < 2048 then (2, 0, p) else (1, 0, v.flatMap (leBytes 2))

/-- Padding to a multiple of `m` bytes. -/
def padTo (m : Nat) (l : List Byte) : List Byte := l ++ List.replicate ((m - l.length % m) % m) 0

/-- The SBC surface of a 512 × 512 frame: 256 headers, then the payloads in block order. -/
def encodeFrame (rows : List (List Nat)) : List Byte :=
  let block := fun (b : Nat) => (List.range 1024).map (fun k => (rows.getD (32 * (b / 16) + k / 32) []).getD (32 * (b % 16) + k % 32) 0)
  let (hd, pay) := (List.range 256).foldl (fun (a : List Byte × List Byte) b =>
    let (m, v, p) := encodeBlock (block b)
    let off := (1024 + a.2.length) / 16
    (a.1 ++ leBytes 4 (2 ^ 30 * m + (if m = 0 then v else off)), a.2 ++ padTo 16 p)) ([], [])
  hd ++ pay

/-- The 128-byte header with its CRC over the `len` bytes of the record (R185). -/
def recHeader (tile flags frame len swap seq : Nat) (carry : List Nat) (derateMin : Nat) (body : List Byte) : List Byte :=
  let a := [0x53#8, 0x5A#8, 0x52#8, 0x43#8] ++ leBytes 1 tile ++ leBytes 1 flags ++ leBytes 2 0 ++ leBytes 4 frame
    ++ leBytes 4 len ++ leBytes 8 swap ++ leBytes 4 seq
  let b := rowMap carry ++ leBytes 2 derateMin ++ List.replicate 30 0
  a ++ leBytes 4 (crc32c (a ++ (b ++ body).take (len - 32))) ++ b ++ body

/-- Records that the bytes [off, off + len) of the ring overwrite are dropped. -/
def State.recDrop (s : State) (off len : Nat) : State :=
  let keep := s.record.ents.filter (fun e => decide (e.off + e.len ≤ off ∨ off + len ≤ e.off))
  { s with record := { s.record with ents := keep } }

/-- The oldest record and the span shown in the registers. -/
def State.recShow (s : State) : State :=
  match s.record.ents with
  | [] => s.setRegN rREC_OLDEST_PTR (s.regN rREC_WR_PTR)
  | e :: t =>
    let newest := (t.getLast?.getD e).swap
    (s.setRegN rREC_OLDEST_PTR e.off).setRegN rREC_SPAN ((newest - e.swap) / 1000000)

/-- `bytes` written at the ring's write pointer; `seq` numbers a record of a frame. -/
def State.recAppend (s : State) (bytes : List Byte) (seq swap : Nat) (isPad : Bool) : State :=
  let off := s.regN rREC_WR_PTR
  let s := s.recDrop off bytes.length
  let s := s.putDram (s.recBase + off) bytes
  let s := if isPad then s else { s with record := { s.record with ents := s.record.ents ++ [⟨off, bytes.length, seq, swap⟩] } }
  let next := off + bytes.length
  s.setRegN rREC_WR_PTR (if s.recBytes ≤ next then 0 else next)

/-- A record that does not fit before the ring's end is preceded by a PAD header, whose CRC covers what stands in the remainder; of a
remainder of 64 bytes it takes the first 64, as its CRC does (log 149). -/
def State.recPad (s : State) (len : Nat) : State :=
  let left := s.recBytes - s.regN rREC_WR_PTR
  if left < len then
    let off := s.regN rREC_WR_PTR
    let s := s.recDrop off left
    let h := (recHeader 0 0x80 0 left 0 0 [] 0 (s.bytes (s.recBase + off + 128) (left - 128))).take (min left 128)
    let s := s.putDram (s.recBase + off) h
    s.setRegN rREC_WR_PTR 0
  else s

/-- The composed rows as recorded; pixels of rows that had not arrived are open. -/
def State.recRows (s : State) (n : Nat) : List (List Nat) × State :=
  let have_ := (s.pr n).beam
  if have_.length = 512 then (have_, s)
  else
    let k := 512 - have_.length
    let rest := (List.range k).map (fun y => (List.range 512).map (fun x => (s.freeLane (512 * y + x)).toNat))
    (have_ ++ rest, s.drawn (512 * k))

/-- One record of tile n for a transfer frame (R184 to R186); none while the tile is dark (R187). -/
def State.recFrame (s : State) (n frame swap : Nat) (torn fallback ok : Bool) : State :=
  let div := max 1 (s.getF fREC_CFG_DIV)
  if (s.recState = recRECORDING ∨ s.recState = recPOST) ∧ frame % div = 0 ∧ 0 < s.recBytes
      ∧ bitsOf (s.regN rSAFETY_SS_STATE) (2 * n) 2 < 2 then
    let p := s.pr n
    let seq := s.record.seq
    let trig := s.record.mark.contains n
    let flags := (if ok then 0 else 1) + (if torn then 2 else 0) + (if p.carried.isEmpty then 0 else 4)
      + (if fallback then 8 else 0) + (if trig then 16 else 0)
    let (rows, s) := if ok then s.recRows n else ([], s)
    let body := if ok then padTo 64 (encodeFrame rows) else []
    let bytes := recHeader n flags frame (128 + body.length) swap seq p.carried (p.derate.foldl min 0xFFFF) body
    let s := s.recPad bytes.length
    let off := s.regN rREC_WR_PTR
    let s := if trig ∧ s.record.ptr then (s.setRegN rREC_TRIG_PTR off).setRegN rREC_TRIG_SEQ seq else s
    let marks := s.record.mark.filter (fun m => decide (m ≠ n))
    let rc : RecSt := { s.record with seq := (seq + 1) % 2 ^ 32, mark := marks, ptr := s.record.ptr && !trig }
    let s := { s with record := rc }
    let s := (s.recAppend bytes seq swap false).recShow
    let s := s.setF fREC_STATUS_STATE s.recState
    if ok then s
    else (s.bump rREC_SKIP_COUNT).postOnce evPRESS_REC_SKIP n s.lampFrame (srcPRESS 0) (2 ^ 30 * n + seq % 2 ^ 30)
  else s

/-- A freeze trigger from `src` (R187). -/
def State.recTrigger (s : State) (src : Nat) : State :=
  let st := s.recState
  if st = recPOST ∨ st = recFROZEN then s.bump rREC_TRIG_IGNORED_COUNT
  else if st = recRECORDING then
    let s := (s.setRegN rREC_TRIG_PTR (s.regN rREC_WR_PTR)).setRegN rREC_TRIG_SEQ s.record.seq
    let s := s.setPair rREC_TRIG_TIME_LO rREC_TRIG_TIME_HI s.lampNs
    let s := (s.setF fREC_STATUS_TRIG_SRC src).setF fREC_STATUS_STATE recPOST
    { s with record := { s.record with mark := [0, 1, 2, 3], ptr := true } }
  else s

end Sys2Proof.Machine
end

