-- ==== Sys2Proof/Machine/Link.lean ====
section
/-! DEFINITION. The tile link: control words (R216, R217, R244), rows and slot maps on the lanes (R219 to R221), the launch of
timed commands (R193), eye scans and calibrations (R229, R231), and the moves of stripes between lanes (R232 to R236). -/

namespace Sys2Proof.Machine

/-! ### Control words -/

def ctlALIGN : Nat := 0x01
def ctlTRAIN : Nat := 0x02
def ctlLANE_MOVE : Nat := 0x03
def ctlROW_CHECK : Nat := 0x04
def ctlROW_HDR : Nat := 0x20
def ctlROW_CARRY : Nat := 0x21
def ctlFRAME_START : Nat := 0x22
def ctlSWAP : Nat := 0x23
def ctlSLOT : Nat := 0x24
def ctlSENSE : Nat := 0x25
def ctlRETIME : Nat := 0x26
def ctlFALLBACK : Nat := 0x27
def ctlSEL_XOR : Nat := 0x28
def ctlREG_WR : Nat := 0x30
def ctlREG_RD : Nat := 0x31
def ctlCAPS_REQ : Nat := 0x32
def ctlNV_READ : Nat := 0x38
def ctlNV_BEGIN : Nat := 0x39
def ctlNV_WRITE : Nat := 0x3A
def ctlNV_COMMIT : Nat := 0x3B
def ctlAUTH_CHAL : Nat := 0x40

/-- Something is given to port n's lanes. -/
def State.emit (s : State) (n : Nat) (x : Tx) : State := s.updPort n (fun p => { p with tx := x :: p.tx })

/-- A control word is inserted at the next lane-word boundary where the lanes have room for it (R222). -/
def State.send (s : State) (n t body : Nat) : State :=
  let w := ctlWord t body
  (s.emit n (.ctl w)).updPort n (fun p => { p with slots := slotsInsert w p.slots })

/-! ### Port states -/

def zOFF : Nat := 0
def zDOWN : Nat := 1
def zDETECT : Nat := 2
def zTRAIN : Nat := 3
def zLOCK : Nat := 4
def zCAPS : Nat := 5
def zACTIVE : Nat := 6

def State.zState (s : State) (n : Nat) : Nat := s.getF (fZTL_STATUS_STATE n)
def State.setZState (s : State) (n v : Nat) : State := s.setF (fZTL_STATUS_STATE n) v
def State.zActive (s : State) (n : Nat) : Bool := s.zState n == zACTIVE

/-- A ZTL event of port n. -/
def State.zEv (s : State) (k : EvKind) (n data : Nat) : State := s.post k (srcZTL n) (2 ^ 30 * n + data)

/-- A ZTL event posted at most once per light frame per port. -/
def State.zEvOnce (s : State) (k : EvKind) (n data : Nat) : State :=
  s.postOnce k n s.lampFrame (srcZTL n) (2 ^ 30 * n + data)

/-! ### Rows and maps (R219, R221) -/

/-- Data word j of a row. -/
def rowWord (codes : List Nat) (j : Nat) : BitVec 64 :=
  BitVec.ofNat 64 (((List.range 4).map (fun k => codes.getD (4 * j + k) 0 % 65536 * 2 ^ (16 * k))).sum)

/-- The 64 words of stripe `st`. -/
def stripeWords (codes : List Nat) (st : Nat) : List (BitVec 64) := (List.range 64).map (fun p => rowWord codes (2 * p + st))

/-- Positions 0 to 65 of a stripe of a row: header, data words, check (R219). -/
def stripeSlot (frame y st : Nat) (codes : List Nat) : List LaneWd :=
  let ws := stripeWords codes st
  let crc := crc32c (ws.flatMap (fun w => leBytes 8 w.toNat))
  (true, ctlWord ctlROW_HDR (2 ^ 24 * (frame % 2 ^ 32) + 2 ^ 17 * st + 2 ^ 8 * y))
    :: ws.map (fun w => (false, w)) ++ [(true, ctlWord ctlROW_CHECK (2 ^ 24 * crc + 2 ^ 8 * y))]

/-- A slot of the words `a` and `b` of the stripes joins those that wait, on the lanes that LANE_MAP gives the stripes. -/
def State.pushSlot (s : State) (n : Nat) (a b : List LaneWd) (slack : Nat) : State :=
  let x := LaneSlot.of (s.getF (fZTL_LANE_MAP_STRIPE0 n)) (s.getF (fZTL_LANE_MAP_STRIPE1 n)) a b slack
  s.updPort n (fun p => { p with slots := slotsPush x p.slots })

/-- One stripe of a row is given to the port. -/
def State.emitStripe (s : State) (n frame y st : Nat) (codes : List Nat) : State :=
  let ws := stripeWords codes st
  let crc := crc32c (ws.flatMap (fun w => leBytes 8 w.toNat))
  let s := s.emit n (.ctl (ctlWord ctlROW_HDR (2 ^ 24 * (frame % 2 ^ 32) + 2 ^ 17 * st + 2 ^ 8 * y)))
  (s.emit n (.data st ws)).emit n (.ctl (ctlWord ctlROW_CHECK (2 ^ 24 * crc + 2 ^ 8 * y)))

/-- A row: 66 positions and 2 slack words on each of two lanes, or both stripes and 4 slack words on one (R219, R220). -/
def State.sendRow (s : State) (n frame y : Nat) (codes : List Nat) : State :=
  ((s.emitStripe n frame y 0 codes).emitStripe n frame y 1 codes).pushSlot n (stripeSlot frame y 0 codes) (stripeSlot frame y 1 codes) 2

/-- ROW_CARRY and three IDLE words in place of a row; the rest of the slot is idle (R219). -/
def State.sendCarry (s : State) (n y : Nat) : State :=
  let w := ctlWord ctlROW_CARRY (2 ^ 8 * y)
  let one := decide (s.getF (fZTL_LANE_MAP_STRIPE0 n) = s.getF (fZTL_LANE_MAP_STRIPE1 n))
  let a := (true, w) :: List.replicate 3 idleWord
  (s.emit n (.ctl w)).pushSlot n a (if one then [] else a) (if one then 66 else 64)

/-- 64 map bits as a word. -/
def mapWord (bits : List Bool) (at_ : Nat) : BitVec 64 :=
  BitVec.ofNat 64 (((List.range 64).map (fun i => if bits.getD (at_ + i) false then 2 ^ i else 0)).sum)

/-- One stripe of a map row: 256 bits. -/
def mapStripe (bits : List Bool) (st : Nat) : List (BitVec 64) := (List.range 4).map (fun k => mapWord bits (256 * st + 64 * k))

/-- One map row: four words and one slack word on each stripe lane (R221). -/
def State.sendMapRow (s : State) (n : Nat) (bits : List Bool) : State :=
  let words := fun (st : Nat) => (mapStripe bits st).map (fun w => (false, w))
  ((s.emit n (.data 0 (mapStripe bits 0))).emit n (.data 1 (mapStripe bits 1))).pushSlot n (words 0) (words 1) 1

/-! ### Timed commands (R193) -/

/-- Lamp time of FRC value q, in 2^-32 ns. -/
def State.lampAt (s : State) (q : Int) : Int :=
  (s.lampFine : Int) + (s.dom (s.getF fTIME_CTRL_ACTIVE)).incr * (q - s.time.frc)

/-- The lane-word boundary (a multiple of 16 FRC ticks) at or before an instant in 2^-32 ns. -/
def State.boundary (s : State) (t : Int) : Int :=
  let inc : Int := max 1 (s.dom (s.getF fTIME_CTRL_ACTIVE)).incr
  16 * ((s.time.frc + (t - s.lampFine) / inc) / 16)

/-- The fine offset F of a command whose photon instant is X, in ns; 0 when its match is already past. -/
def State.fineOffset (s : State) (n : Nat) (x : Rat) : Nat :=
  let t : Rat := x - 40 - (s.regN (rTG_LINK_LAT n) % 65536 : Nat) / 16
  let m := s.boundary (4294967296 * t).floor
  if m < s.time.frc then 0
  else ((33 * (t - (s.lampAt m : Rat) / 4294967296) / 10 + 1 / 2).floor).toNat

/-! ### Lanes (R211, R212) -/

/-- The tile lane that device lane d reaches, and back. -/
def State.tileLane (s : State) (n d : Nat) : Nat := bitsOf (s.regN (rZTL_LANE_CFG n)) (8 + 2 * d) 2

def State.devLane (s : State) (n t : Nat) : Nat := ((List.range 3).find? (fun d => s.tileLane n d = t)).getD 3

/-- A mask of tile lanes as a mask of device lanes. -/
def State.devMask (s : State) (n m : Nat) : Nat :=
  ((List.range 3).map (fun d => if m.testBit (s.tileLane n d) then 2 ^ d else 0)).sum

def lanesOf (m : Nat) : List Nat := (List.range 3).filter (fun d => m.testBit d)

def State.stripe (s : State) (n st : Nat) : Nat :=
  if st = 0 then s.getF (fZTL_LANE_MAP_STRIPE0 n) else s.getF (fZTL_LANE_MAP_STRIPE1 n)

def State.spareLane (s : State) (n : Nat) : Nat := s.getF (fZTL_LANE_MAP_SPARE n)

/-- A lane's fields of PHASE, EYE_WIDTH and EQ_STATUS. -/
def fldPhase (n d : Nat) : Fld := ⟨rZTL_PHASE n, 8 * d, 6⟩
def fldEye (n d : Nat) : Fld := ⟨rZTL_EYE_WIDTH n, 8 * d, 7⟩
def fldCtle (n d : Nat) : Fld := ⟨rZTL_EQ_STATUS n, 4 * d, 3⟩

/-- LANE_MOVE: stripe 0, 1 or 3 for both, the lane that takes it, the lane that becomes the spare (3 none). -/
def State.sendMove (s : State) (n stripe d spare : Nat) : State :=
  s.send n ctlLANE_MOVE (2 ^ 54 * stripe + 2 ^ 52 * s.tileLane n d + 2 ^ 50 * (if spare = 3 then 3 else s.tileLane n spare))

/-- A failed lane's READY bit, and its place in the order in which lanes became ready. -/
def State.setReady (s : State) (n d : Nat) (b : Bool) : State :=
  (s.setB ⟨rZTL_LANE_MAP n, 12 + d, 1⟩ b).updPort n (fun p =>
    { p with readyOrd := p.readyOrd.filter (fun x => decide (x ≠ d)) ++ if b then [d] else [] })

def State.setFailed (s : State) (n d : Nat) (b : Bool) : State := s.setB ⟨rZTL_LANE_MAP n, 8 + d, 1⟩ b

/-! ### Eye scans and calibrations (R229 to R231) -/

/-- The longest run of passing phases, counted cyclically: its length and its first phase; the first of equal runs. -/
def longestRun (oks : List Bool) : Nat × Nat :=
  let m := oks.length
  let run := fun (a : Nat) => ((List.range m).takeWhile (fun k => oks.getD ((a + k) % m) false)).length
  (List.range m).foldl (fun (best : Nat × Nat) a => if best.1 < run a then (run a, a) else best) (0, 0)

/-- Width and centre of a scan of 64 phases. -/
def eyeOf (oks : List Bool) : Nat × Nat :=
  let (w, a) := longestRun oks
  (w, (a + (w - 1) / 2) % 64)

/-- The phase of two agreeing centres: the lower plus half their difference; none when they differ by more than 2. -/
def agreeing (a b : Nat) : Option Nat :=
  let up := (b + 64 - a) % 64
  let dn := (a + 64 - b) % 64
  if up ≤ 2 then some ((a + up / 2) % 64) else if dn ≤ 2 then some ((b + dn / 2) % 64) else none

/-- Their difference in steps. -/
def centreDiff (a b : Nat) : Nat := min ((b + 64 - a) % 64) ((a + 64 - b) % 64)

/-- What a report makes of a calibration. -/
inductive CalOut where
  | go (c : Cal)
  | done (phase width ctle : Nat)
  | disagree (diff : Nat)
  | fail
deriving DecidableEq, Repr

/-- The transmit phase a calibration tests next. -/
def Cal.testPhase (c : Cal) : Nat := if c.coarse.isSome then 4 * c.phase else c.phase

/-- One report of `errs` errors. -/
def Cal.report (c : Cal) (minEye : Nat) (boot : Bool) (errs : Nat) : CalOut :=
  let oks := c.oks ++ [errs == 0]
  match c.coarse with
  | some (code, bc, bw) =>
    if oks.length < 16 then .go { c with oks := oks, phase := c.phase + 1 }
    else
      let (w, _) := longestRun oks
      let (bc, bw) := if bw < w then (code, w) else (bc, bw)
      if code < 7 then .go { c with oks := [], phase := 0, coarse := some (code + 1, bc, bw), ctle := code + 1 }
      else .go { c with oks := [], phase := 0, coarse := none, ctle := bc }
  | none =>
    if oks.length < 64 then .go { c with oks := oks, phase := c.phase + 1 }
    else
      let (w, m) := eyeOf oks
      if w < minEye then .fail
      else
        match c.first with
        | none => .go { c with oks := [], phase := 0, first := some (m, w) }
        | some (m0, w0) =>
          match agreeing m0 m with
          | some p => .done p (min w0 w) c.ctle
          | none =>
            if boot ∧ c.again = false then .go { c with oks := [], phase := 0, first := none, again := true }
            else .disagree (centreDiff m0 m)

/-- TRAIN CHECK for the phase under test; its tag is that phase. -/
def State.sendCheck (s : State) (n : Nat) (c : Cal) : State :=
  s.send n ctlTRAIN (1 * 2 ^ 52 + 2 ^ (49 + s.tileLane n c.lane) + 3 * 2 ^ 46 + 2 ^ 43 * c.ctle + 200 * 2 ^ 24
    + 2 ^ 16 * c.testPhase)

/-- TRAIN SET_CTLE for a lane. -/
def State.sendCtle (s : State) (n d code : Nat) : State :=
  s.send n ctlTRAIN (2 * 2 ^ 52 + 2 ^ (49 + s.tileLane n d) + 2 ^ 43 * code)

/-- A calibration of lane d begins; in ADAPT with the coarse scans of R231. -/
def State.startCal (s : State) (n d : Nat) : State :=
  let adapt := s.isF (fZTL_LANE_CFG_EQ_MODE n)
  let code := if adapt then 0 else bitsOf (s.regN (rZTL_EQ_CFG n)) (4 * d) 3
  let c : Cal := { lane := d, ctle := code, coarse := if adapt then some (0, 0, 0) else none }
  let s := s.updPort n (fun p => { p with cals := p.cals.filter (fun x => decide (x.lane ≠ d)) ++ [c] })
  (s.sendCtle n d code).sendCheck n c

def State.dropCal (s : State) (n d : Nat) : State :=
  s.updPort n (fun p => { p with cals := p.cals.filter (fun x => decide (x.lane ≠ d)) })

/-- New values of a lane take effect. -/
def State.takeCal (s : State) (n d phase width ctle : Nat) : State :=
  ((s.setF (fldPhase n d) phase).setF (fldEye n d) width).setF (fldCtle n d) ctle

/-- A calibration pair disagreed, or a scan failed at bring-up. -/
def State.calReject (s : State) (n d diff : Nat) : State :=
  (s.raise (fZTL_STATUS_CAL_REJECT n) (rZTL_CAL_REJECT_COUNT n)).zEvOnce evZTL_CAL_REJECT n (2 ^ 8 * diff + d)

/-- A lane begins to retrain (bit 4 clear), or has retrained. -/
def State.retrainEv (s : State) (n d : Nat) (passed : Bool) : State :=
  (s.raise (fZTL_STATUS_RETRAIN n) (rZTL_RETRAIN_COUNT n)).zEv evZTL_RETRAIN n (d + if passed then 16 else 0)

/-- The spare fails (R232); 3 names an absent one. -/
def State.spareFail (s : State) (n d : Nat) : State :=
  let s := (s.raise (fZTL_STATUS_SPARE_FAIL n) (rZTL_SPARE_FAIL_COUNT n)).zEv evZTL_SPARE_FAIL n d
  if d = 3 then s
  else ((s.setFailed n d true).setF (fZTL_LANE_MAP_SPARE n) 3).retrainEv n d false

/-- A data lane fails: flag, count, event with the lane that now carries its stripe, retraining (R234, R235). -/
def State.laneFail (s : State) (n d now_ : Nat) : State :=
  let s := (s.setFailed n d true).setReady n d false
  let s := (s.raise (fZTL_STATUS_LANE_FAIL n) (rZTL_LANE_FAIL_COUNT n)).zEv evZTL_LANE_FAIL n (16 * d + now_)
  (s.dropCal n d).retrainEv n d false

/-! ### The back lane's PRBS (R231, R233) -/

/-- TRAIN BK_PRBS of 1,600 words. -/
def State.sendBkPrbs (s : State) (n : Nat) : State := s.send n ctlTRAIN (3 * 2 ^ 52 + 3 * 2 ^ 46 + 1600 * 2 ^ 24)

/-- 1,600 back-lane words of 40 ns, in ticks. -/
def bkPrbsTicks : Nat := 51200

/-- A BK recalibration that waits asks for its PRBS. -/
def State.bkAsk (s : State) (n : Nat) : State :=
  match (s.portOf n).recal with
  | some r =>
    if r.role = 3 ∧ (s.portOf n).bkUntil = none then
      (s.sendBkPrbs n).updPort n (fun p => { p with bkUntil := some (s.time.now + bkPrbsTicks) })
    else s
  | none => s

/-! ### Sweeps (R274, R275) -/

/-- An event of HEALTH, at most once per light frame for a tile where R275 and R296 say so. -/
def State.hlEv (s : State) (k : EvKind) (n data : Nat) : State := s.post k srcHEALTH (2 ^ 30 * n + data)
def State.hlEvOnce (s : State) (k : EvKind) (n data : Nat) : State :=
  s.postOnce k n s.lampFrame srcHEALTH (2 ^ 30 * n + data)

/-- The sweeps of a baseline run: two of each kind. -/
def State.baseSweeps (s : State) (n : Nat) : Nat := if s.hasSpares n then 4 else 2

/-- The place of the sweep in progress in a baseline run. -/
def State.baseStep (s : State) (n : Nat) : Option Nat :=
  (s.hl n).base.bind (fun b => if b.on ∧ b.step < s.baseSweeps n then some b.step else none)

/-- The kind of the sweep in progress: that of the baseline run, or by the sweep number. -/
def State.sweepKind (s : State) (n : Nat) : Nat :=
  let e := s.getF fHEALTH_SWEEP_CFG_S_EVERY
  if s.hasSpares n = false then 0
  else
    match s.baseStep n with
    | some k => k / 2
    | none => if (s.hl n).sweep % max 1 e = e - 1 then 1 else 0

/-- A chunk is handed to the health program. -/
def State.hlIntake (s : State) (n : Nat) (x : SenseIn) : State := s.updHl n (fun h => { h with intake := h.intake ++ [x] })

/-- Chunk `c` in light frame `frame`, unmeasured so far. -/
def State.senseOf (s : State) (n frame c : Nat) : SenseIn :=
  let h := s.hl n
  let k := s.sweepKind n
  { frame := frame, chunk := c, kind := k, sweep := h.sweep, kindNo := nth 0 h.kindNo k, step := s.baseStep n, one := h.oneSweep }

/-- A SENSE never answered leaves its chunk unmeasured. -/
def State.hlClose (s : State) (n : Nat) : State :=
  match (s.hl n).await with
  | some x => (s.updHl n (fun h => { h with await := none })).hlIntake n x
  | none => s

/-- A chunk is left unmeasured because the back lane is down. -/
def State.hlStale (s : State) (n : Nat) (x : SenseIn) : State :=
  ((s.raise fHEALTH_STATUS_SENSE_STALE rHEALTH_SENSE_STALE_COUNT).hlEvOnce evHEALTH_SENSE_STALE n x.chunk).hlIntake n x

/-- SWEEP_STATUS. -/
def State.hlShow (s : State) (n : Nat) : State :=
  ((s.setF (fHEALTH_SWEEP_STATUS_COUNT n) (s.hl n).sweep).setF (fHEALTH_SWEEP_STATUS_KIND n) (s.sweepKind n)).setF
    (fHEALTH_SWEEP_STATUS_CHUNK n) (s.getF (fTG_SENSE_CFG_CHUNK n))

/-- The chunk after that of `x`; at the end of a sweep the next one begins, and with it a baseline run that waits. -/
def State.hlAdvance (s : State) (n : Nat) (x : SenseIn) : State :=
  let s := s.setF (fTG_SENSE_CFG_CHUNK n) ((x.chunk + 1) % 16)
  let s := if x.chunk < 15 then s else s.updHl n (fun h =>
    { h with sweep := h.sweep + 1, kindNo := h.kindNo.set x.kind (x.kindNo + 1), oneSweep := false,
             base := h.base.map (fun b => if b.on then { b with step := b.step + 1 } else { b with on := true }) })
  s.hlShow n

/-- A SENSE of chunk `c` has been sent in light frame `frame`, or the back lane was down and it counts as unmeasured. -/
def State.hlSense (s : State) (n frame c : Nat) : State :=
  let s := s.hlClose n
  let x := s.senseOf n frame c
  let s := if s.isF (fZTL_STATUS_BACK_STALE n) then s.hlStale n x else s.updHl n (fun h => { h with await := some x })
  s.hlAdvance n x

/-- Chunk `c` is not sensed in light frame `frame`: unmeasured there, and sensed again (R200, R275). -/
def State.hlSkip (s : State) (n frame c : Nat) : State :=
  let s := s.hlClose n
  s.hlIntake n { s.senseOf n frame c with again := true }

/-- The sweep of `x` begins again: the next chunk is 0, of the same sweep and kind. -/
def State.hlRewind (s : State) (n : Nat) (x : SenseIn) : State :=
  let s := if x.chunk < 15 then s else s.updHl n (fun h =>
    { h with sweep := x.sweep, kindNo := h.kindNo.set x.kind x.kindNo, oneSweep := x.one,
             base := h.base.map (fun b => match x.step with | some st => { b with step := st } | none => { b with on := false }) })
  (s.setF (fTG_SENSE_CFG_CHUNK n) 0).hlShow n

/-- Chunk `x` is handed over unmeasured, and its sweep begins again. -/
def State.hlRestart (s : State) (n : Nat) (x : SenseIn) : State := (s.hlIntake n { x with again := true }).hlRewind n x

/-- What has arrived of light frame `frame` is discarded. -/
def State.hlDiscard (s : State) (n frame : Nat) : State :=
  s.updHl n (fun h => { h with intake := h.intake.map (fun x => if x.frame = frame then { x with res := none, again := true } else x) })

/-- The chunk of light frame `frame` that was sensed: awaited, or arrived and not yet with the health program. -/
def State.sensedOf (s : State) (n frame : Nat) : Option SenseIn :=
  ((s.hl n).await.toList ++ (s.hl n).intake).find? (fun x => x.frame = frame)

/-- The light frame `frame` is torn (R206, R275): its chunk is unmeasured, sensed already or not, and the sweep begins again. -/
def State.hlTorn (s : State) (n frame : Nat) (sensed runs : Bool) : State :=
  if sensed = false then
    if runs then s.hlRestart n (s.senseOf n frame (s.getF (fTG_SENSE_CFG_CHUNK n))) else s
  else
    match s.sensedOf n frame with
    | none => (s.setF (fTG_SENSE_CFG_CHUNK n) 0).hlShow n
    | some x =>
      if (s.hl n).await = some x then (s.updHl n (fun h => { h with await := none })).hlRestart n x
      else (s.hlDiscard n frame).hlRewind n x

/-! ### The selection map on the link (R253, R255) -/

def State.sendSel (s : State) (n span mask : Nat) : State :=
  s.send n ctlSEL_XOR (2 ^ 47 * (span / 16) + 2 ^ 43 * (span % 16) + 2 ^ 11 * mask)

/-- The toggles not yet confirmed go with transfer frame `frame`; the number of words. -/
def State.sendToggles (s : State) (n frame : Nat) : Nat × State :=
  let l := (s.portOf n).toggles
  let again := (s.portOf n).resend
  let s := l.foldl (fun s q => s.sendSel n q.1 q.2) s
  let s := s.updPort n (fun p => { p with flown := p.flown ++ [(frame % 65536, l)], resend := false })
  let s := s.setF (fZTL_SEL_STATUS_SENT n) (satAt 2047 l.length)
  (l.length, if again ∧ l ≠ [] then s.zEvOnce evZTL_SEL_RESENT n (satAt 2047 l.length) else s)

/-- The 32 selection bits of span k of tile n. -/
def State.spanBits (s : State) (n k : Nat) : Nat :=
  ((List.range 32).map (fun i => s.selBit n (512 * (k / 16) + 32 * (k % 16) + i) * 2 ^ i)).sum

/-- Step 1 of the map load: SEL_CLEAR. -/
def State.sendSelClear (s : State) (n : Nat) : State :=
  (s.send n ctlREG_WR (0x0008 * 2 ^ 40 + 1 * 2 ^ 8)).updPort n (fun p => { p with selStage := 1 })

/-- Steps 2 and 3: the 8,192 words and SEL_LOAD_END; the pending toggles are in the map. -/
def State.sendSelMap (s : State) (n : Nat) : State :=
  let s := (List.range 8192).foldl (fun s k => s.sendSel n k (s.spanBits n k)) s
  let s := s.send n ctlREG_WR (0x0008 * 2 ^ 40 + 2 * 2 ^ 8)
  (s.updPort n (fun p => { p with toggles := [], flown := [], resend := false, selStage := 2 })).showPending n

/-! ### Fallback -/

/-- FALLBACK ENTER with pattern `pat`; the tag numbers the commands. -/
def State.sendFallback (s : State) (n pat : Nat) : State :=
  let tag := ((s.portOf n).fbTag + 1) % 65536
  let s := s.updPort n (fun p => { p with fbTag := tag, fbWait := true, fbCmd := true })
  s.send n ctlFALLBACK (1 * 2 ^ 52 + 2 ^ 50 * (pat % 4) + 2 ^ 34 * tag)

/-- Is tile n present with its capabilities accepted? -/
def State.tileUp (s : State) (n : Nat) : Bool := s.zActive n && s.isF (fZTL_STATUS_CAPS_ACCEPTED n)

/-- Is tile n held in its fallback beam, by the pin or by a command? -/
def State.inFallback (s : State) (n : Nat) : Bool := (s.portOf n).fbPin || (s.portOf n).fbCmd

end Sys2Proof.Machine
end

