-- ==== Sys2Proof/Machine/TgGrid.lean ====
section
/-! DEFINITION. The light frame's timing: the lamp timing set and its relations (R191), the swap grid (R192), re-phasing
(R194), direct and staged changes (R205, R206), and how a timing generator starts and stops (R201, R202). -/

namespace Sys2Proof.Machine

def tgOFF : Nat := 0
def tgPRE : Nat := 1
def tgRUNNING : Nat := 2
def tgHALF : Nat := 3

/-- The state of generator n: one whose START has been accepted counts as PRE before STATE shows it (R201, log 151). -/
def State.tgState (s : State) (n : Nat) : Nat :=
  let st := s.getF (fTG_STATUS_STATE n)
  if st = tgOFF ∧ (tabGet (fun _ => {}) s.tg n).accepted then tgPRE else st

def State.setTgState (s : State) (n v : Nat) : State := s.setF (fTG_STATUS_STATE n) v

/-- Generators that are not OFF. -/
def State.tgsOn (s : State) : List Nat := (List.range 4).filter (fun n => s.tgState n ≠ 0)

/-- A TG event, at most once per light frame per tile (R209). -/
def State.tgEv (s : State) (k : EvKind) (n data : Nat) : State :=
  s.postOnce k n (if s.tgState n = tgOFF then 2 * s.time.now + 1
    else 2 * (2 ^ 32 * nth 0 s.lampTiming.starts n + s.regN (rTG_FRAME_COUNT n))) (srcTG n) data

/-! ### Timing sets -/

/-- A timing set: P as integer, numerator and denominator; D, G, L; per slot enable, offset, length. Times in ns. -/
structure TimingSet where
  pInt : Nat
  num : Nat
  den : Nat
  drive : Nat
  guardT : Nat
  lead : Nat
  slots : List (Bool × Nat × Nat)
deriving DecidableEq, Repr

def TimingSet.period (t : TimingSet) : Rat := (t.pInt : Rat) + (t.num : Rat) / (t.den : Rat)

/-- The drive interval of a light frame of length `len`: shortened where the dark gap is used up (R194). -/
def TimingSet.driveIn (t : TimingSet) (len : Rat) : Nat :=
  if len - t.guardT < (t.drive : Rat) then (len - t.guardT).floor.toNat else t.drive

/-- Enabled slots: number, offset, length. -/
def TimingSet.on (t : TimingSet) : List (Nat × Nat × Nat) :=
  (t.slots.zipIdx.filter (fun q => q.1.1)).map (fun q => (q.2, q.1.2.1, q.1.2.2))

/-- The set in force: the lamp timing block of TG_0. -/
def State.timing (s : State) : TimingSet :=
  { pInt := s.regN (rTG_PERIOD_INT 0) % 2 ^ 24, num := s.getF (fTG_PERIOD_FRAC_NUM 0), den := s.getF (fTG_PERIOD_FRAC_DEN 0),
    drive := s.regN (rTG_DRIVE 0) % 2 ^ 24, guardT := s.regN (rTG_GUARD 0) % 2 ^ 19, lead := s.regN (rTG_LEAD 0) % 2 ^ 24,
    slots := (List.range 4).map (fun k => (s.isF (fTG_SLOT_POS_EN 0 k), s.getF (fTG_SLOT_POS_OFFSET 0 k),
      s.regN (rTG_SLOT_LEN 0 k) % 2 ^ 19)) }

/-- T_READY: the largest that any tile declares, ns. -/
def State.tReady (s : State) : Nat :=
  (List.range 4).foldl (fun m n =>
    match (s.portOf n).caps with
    | some c => if s.isF (fZTL_STATUS_CAPS_ACCEPTED n) then max m (1000 * c.tReady) else m
    | none => m) 0

/-- Each enabled slot after the end of the one before. -/
def slotsSpaced (lo : Nat) : List (Nat × Nat × Nat) → Bool
  | [] => true
  | (_, off, len) :: t => lo ≤ off && slotsSpaced (off + len + 2000) t

/-- The end of the last enabled slot. -/
def slotsEnd (l : List (Nat × Nat × Nat)) : Nat := l.foldl (fun m q => max m (q.2.1 + q.2.2)) 0

/-- The first relation of R191 that a set breaks, by its refusal reason; 0 none. -/
def timingReason (tests : Bool) (tReady : Nat) (t : TimingSet) : Nat :=
  let p := t.period
  let on := t.on
  if t.den = 0 ∨ t.den ≤ t.num ∨ p < 1000000 ∨ 10000000 < p then 1
  else if t.guardT < 20000 ∨ 500000 < t.guardT then 2
  else if tests ∧ t.guardT < 120000 then 3
  else if t.drive < 100000 ∨ p - t.guardT < (t.drive : Rat) then 4
  else if on.any (fun q => q.2.2 < 20000 || 500000 < q.2.2) ∨ slotsSpaced (t.drive + 2000) on = false
      ∨ p - t.guardT < (slotsEnd on : Rat) then 5
  else if p < (2083333 : Rat) ∧ 2 < on.length then 6
  else if t.lead < 718080 + 51200 * on.length + tReady ∨ 9 / 10 * p < (t.lead : Rat) then 7
  else 0

/-- The reason for which the device refuses a set. -/
def State.timingBad (s : State) (t : TimingSet) : Nat := timingReason (s.regN rSAFETY_TEST_CFG % 2 == 1) s.tReady t

/-! ### The grid (R192, R194) -/

/-- Lamp time now, in ns, exact. -/
def State.lampRat (s : State) : Rat := (s.lampFine : Rat) / 4294967296

/-- The first grid instant after t. -/
def gridAfter (anchor p t : Rat) : Rat := anchor + (((t - anchor) / p).floor + 1) * p

/-- The grid instant nearest to t. -/
def gridNear (anchor p t : Rat) : Rat := anchor + ((t - anchor) / p + 1 / 2).floor * p

/-- The length of the light frame that begins at `x`, and the offset left afterwards (R194). -/
def State.nextLen (s : State) (x delta : Rat) : Rat × Rat :=
  let p := s.timing.period
  if delta = 0 then (gridAfter s.lampTiming.anchor p x - x, 0)
  else
    let m := min (if delta < 0 then -delta else delta) (p / 10)
    if delta < 0 then (p + m, delta + m) else (p - m, delta - m)

/-- The latch point of the frame that swaps at `e` (R195). -/
def State.latchOf (s : State) (e : Rat) (half : Bool) : Rat :=
  let t := s.timing
  let back : Rat := (t.lead : Rat) + (if half then t.period else 0)
  (s.lampAt (s.boundary (4294967296 * (e - back)).floor) : Rat) / 4294967296

/-- A row slot in ns. -/
def rowTime (half : Bool) : Nat := if half then 2720 else 1360

/-- A 32-bit two's-complement saturation of an amount in ns. -/
def satNs (d : Rat) : Nat := unsignOf 32 (clampI (-2147483648) 2147483647 d.floor)

/-- Every running generator takes the offset of its next swap from the grid, and the re-phase starts (R194). -/
def State.rephase (s : State) : State :=
  let p := s.timing.period
  let s := s.tgsOn.foldl (fun s n => s.updTg n (fun t =>
    { t with delta := t.e - gridNear s.lampTiming.anchor p t.e, reph := 0 })) s
  match s.tgsOn with
  | [] => s
  | n :: _ =>
    let d := (s.tgOf n).delta
    if d = 0 then s
    else
      let s := s.tgsOn.foldl (fun s k => s.setF (fTG_STATUS_REPHASING k) 1) s
      s.tgEv evTG_REPHASE_START n (satNs d)

/-- The light frame that the next swap begins. -/
def State.swapFrame (s : State) (n : Nat) : Nat :=
  if s.tgState n = tgPRE then (s.tgOf n).first else (s.regN (rTG_FRAME_COUNT n) + 1) % 2 ^ 32

/-- The generator whose swaps tell the lamp's next ones: the first that runs, else the first in PRE. -/
def State.gridTg (s : State) : Option Nat := (s.tgsOn.filter (fun n => s.tgState n != tgPRE) ++ s.tgsOn).head?

/-- The swap instant of generator n that comes `k` light frames after its next one. -/
def State.swapAt (s : State) (n : Nat) (k : Int) : Rat :=
  let g := s.tgOf n
  if k ≤ 0 then g.e + k * s.timing.period else g.e + (s.nextLen g.e g.delta).1 + (k - 1) * s.timing.period

/-- How many light frames after the next swap of generator n the one of light frame `frame` comes. -/
def State.framesTo (s : State) (n frame : Nat) : Int := signOf 32 ((frame + 2 ^ 32 - s.swapFrame n) % 2 ^ 32)

/-- The swap instant of light frame `frame`, as generator n will reach it. -/
def State.frameSwap (s : State) (n frame : Nat) : Rat := s.swapAt n (s.framesTo n frame)

/-- The lamp latch point of transfer frame `frame`, as generator n will reach it (R129, R195). -/
def State.frameLatch (s : State) (n frame : Nat) : Rat := s.latchOf (s.frameSwap n frame) false

/-- Does any generator show transfer frame `frame`: not one that starts with a later one? -/
def State.frameShown (s : State) (frame : Nat) : Bool :=
  s.tgsOn.any (fun n => s.tgState n != tgPRE || decide (signOf 32 (((s.tgOf n).first + 2 ^ 32 - frame) % 2 ^ 32) ≤ 0))

/-- A staged set bound to a light frame that no generator will begin any more waits for another one (R205, log 190). -/
def State.stagedLoose (s : State) : State :=
  match s.lampTiming.staged with
  | some x =>
    match x.frame with
    | some f => if s.frameShown f then s else { s with lampTiming := { s.lampTiming with staged := some { x with frame := none } } }
    | none => s
  | none => s

/-! ### Stopping (R202, R238) -/

/-- The generator enters OFF and TG_STOPPED is posted. -/
def State.tgOff (s : State) (n : Nat) : State :=
  if s.tgState n = tgOFF then s
  else
    let s := ((s.snapDrop n).setTgState n tgOFF).setF (fTG_STATUS_REPHASING n) 0
    let s := (s.setTg n {}).stagedLoose
    s.tgEv evTG_TG_STOPPED n (2 ^ 30 * n)

/-! ### Half rate (R207, R236) -/

/-- The tile link of tile n is down to one lane, or has two again. -/
def State.halfRate (s : State) (n : Nat) (on : Bool) : State :=
  let s := s.updTg n (fun t => { t with xfer := t.xfer.map (fun x =>
    if on ∧ x.ended = false ∧ x.half = false then { x with carryFrom := min x.carryFrom x.next } else x) })
  if on ∧ s.tgState n = tgRUNNING then (s.setTgState n tgHALF).tgEv evTG_HALF_RATE n (2 ^ 30 * n + 1)
  else if on = false ∧ s.tgState n = tgHALF then (s.setTgState n tgRUNNING).tgEv evTG_HALF_RATE n (2 ^ 30 * n)
  else s

/-! ### Torn frames (R206) -/

/-- The light frame now lit is torn. -/
def State.tearFrame (s : State) (n : Nat) : State :=
  let s := s.raise (fTG_STATUS_TORN n) (rTG_TORN_COUNT n)
  let s := s.tgEv evTG_TORN n (2 ^ 30 * n + s.regN (rTG_FRAME_COUNT n) % 2 ^ 30)
  let s := if (s.tgOf n).torn then s
    else s.hlTorn n (s.regN (rTG_FRAME_COUNT n)) (s.tgOf n).sensed (s.isF (fTG_SENSE_CFG_EN n) || (s.hl n).oneSweep)
  (s.updTg n (fun t => { t with torn := true })).dropRanges n

/-- The first row still to be sent that would end after `limit`. -/
def Xfer.lateRow (x : Xfer) (limit : Rat) : Option Nat :=
  (List.range 512).find? (fun y => x.next ≤ y && limit < x.latch + ((17 + y : Nat) : Rat) * rowTime x.half)

/-- Rows of the transfer in progress that would end too late are carried, and the transfer frame is torn. -/
def State.cutTransfer (s : State) (n : Nat) : State :=
  let t := s.tgOf n
  match t.xfer with
  | none => s
  | some x =>
    if x.ended then s
    else
      match x.lateRow (t.e - (s.tReady : Nat)) with
      | none => s
      | some y => s.updTg n (fun t => { t with xfer := some { x with carryFrom := min x.carryFrom y, torn := true } })

/-- RETIME with the new D; slots whose new start is past, or that are disabled now, do not fire. -/
def State.retime (s : State) (n : Nat) : State :=
  let t := s.timing
  let now := s.lampRat
  let s := s.send n ctlRETIME (2 ^ 34 * (t.drive / 4))
  let g := s.tgOf n
  let past := g.fire.filter (fun q => !g.fired.contains q.1 && decide (g.s + ((t.slots.getD q.1 (false, 0, 0)).2.1 : Rat) < now))
  let s := s.updTg n (fun g => { g with d := t.drive, fire := g.fire.filter (fun q => !past.contains q && (t.slots.getD q.1 (false, 0, 0)).1) })
  if past.isEmpty then s else s.raise (fTG_STATUS_SLOT_SKIP n) (rTG_SLOT_SKIP_COUNT n)

/-! ### FRAME entries of the schedule and the period (R313) -/

/-- Schedule entry e as armed. -/
def State.schedOf (s : State) (e : Nat) : Option SchedE := tabGet (fun _ => none) s.time.sched e

def State.setSched (s : State) (e : Nat) (x : Option SchedE) : State :=
  { s with time := { s.time with sched := tabSet (fun _ => none) s.time.sched e x } }

/-- The entry is disarmed: nothing waits, EN and ARMED read 0. -/
def State.schedStop (s : State) (e : Nat) : State :=
  ((s.setSched e none).setF (fTIME_SCHED_CFG_EN e) 0).setF (fTIME_SCHED_STATUS_ARMED e) 0

/-- A refusal or a removal with its RESULT: 4 REJECTED_FAR, 5 REJECTED_STEP, 6 REJECTED_ARG. -/
def State.schedReject (s : State) (e code : Nat) : State :=
  let s := (s.schedStop e).setF (fTIME_SCHED_STATUS_RESULT e) code
  (s.raise fTIME_STATUS_SCHED_REJECTED rTIME_SCHED_REJECTED_COUNT).post evTIME_SCHED_REJECTED srcTIME (2 ^ 26 * e + code)

/-- Is a FRAME offset, read as signed, below the period in magnitude? -/
def State.frameOffsetOk (s : State) (lo : Nat) : Bool := decide (((signOf 32 lo).natAbs : Rat) < s.timing.period)

/-- Armed FRAME entries whose offset the period no longer holds are disarmed. -/
def State.framesRecheck (s : State) : State :=
  (List.range 64).foldl (fun s e =>
    match s.schedOf e with
    | some x => if x.mode = 2 ∧ s.frameOffsetOk x.lo = false then s.schedReject e 6 else s
    | none => s) s

/-- What a direct write changes: the period, the anchor, the guard, or D and the slots. -/
inductive Direct where
  | period | anchor | guardT | drive
deriving DecidableEq, Repr

/-- S_0: the first grid instant whose latch point lies at least 20 µs from now (R201). -/
def State.firstSwap (s : State) (half : Bool) : Rat :=
  let p := s.timing.period
  let go := s.lampRat + 20000
  let back : Rat := (s.timing.lead : Rat) + (if half then p else 0)
  let c := gridAfter s.lampTiming.anchor p (go + back - p)
  if go ≤ s.latchOf c half then c else if go ≤ s.latchOf (c + p) half then c + p else c + 2 * p

/-- S_0 of generator n and the number of its transfer frame: 0, or where the lamp has the grid of generator `m`, the number of the first
swap there whose latch point lies at least 20 µs from now; a tile on one lane takes an even one (R201, R207). -/
def State.joinAt (s : State) (n : Nat) : Option Nat → Rat × Nat
  | none => (s.firstSwap (s.isF (fZTL_STATUS_ONE_LANE n)), 0)
  | some m =>
    let half := s.isF (fZTL_STATUS_ONE_LANE n)
    let num := fun (k : Int) => ((s.swapFrame m + k) % 2 ^ 32).toNat
    let k := (((List.range 8).map (fun i => (i : Int) - 2)).find? (fun k =>
      decide (s.lampRat + 20000 ≤ s.latchOf (s.swapAt m k) half) && !(half && num k % 2 == 1))).getD 5
    (s.swapAt m k, num k)

/-- Before the first transfer frame of a lamp that no generator drives: the arbiter's next frame is frame 0. -/
def State.frameZero (s : State) (n : Nat) : State :=
  { s with lampTiming := { s.lampTiming with frame := if s.isF (fZTL_STATUS_ONE_LANE n) then 0xFFFFFFFE else 0xFFFFFFFF, latched := false } }

/-- Generator n, in PRE, takes S_0 and its first frame anew; a transfer begun for the old S_0 is dropped. -/
def State.preAgain (s : State) (n : Nat) (others : List Nat) : State :=
  let s := (if others.isEmpty then s.frameZero n else s).snapDrop n
  let (e, first) := s.joinAt n others.head?
  s.updTg n (fun g => { g with s := e - s.timing.period, e := e, first := first, delta := 0, xfer := none })

/-- A direct write moves the grid: the light frame of running generator n ends at the first grid instant after S, or at the next row-slot
boundary when that is past. -/
def State.gridMoved (s : State) (n : Nat) : State :=
  let g := s.tgOf n
  let now := s.lampRat
  let e := gridAfter s.lampTiming.anchor s.timing.period g.s
  let (latch, half) := match g.xfer with
    | some x => (x.latch, x.half)
    | none => (s.latchOf g.e false, false)
  let e := if e ≤ now then latch + (((now - latch) / rowTime half).floor + 1) * rowTime half else e
  s.updTg n (fun g => { g with e := e, delta := 0 })

/-- A direct write of the grid for every generator: first those that run, then those in PRE. -/
def State.gridWritten (s : State) : State :=
  let run := s.tgsOn.filter (fun n => s.tgState n != tgPRE)
  let s := run.foldl State.gridMoved s
  ((s.tgsOn.filter (fun n => s.tgState n == tgPRE)).foldl (fun (a : List Nat × State) n => (a.1 ++ [n], a.2.preAgain n a.1)) (run, s)).2

/-- The anchor of the grid, and ANCHOR, which shows it. -/
def State.setAnchor (s : State) (a : Rat) : State :=
  let s := s.setPair (rTG_ANCHOR_LO 0) (rTG_ANCHOR_HI 0) (a.floor.toNat % 2 ^ 64)
  { s with lampTiming := { s.lampTiming with anchor := a } }

/-- S of the light frame now lit; in PRE alone, of light frame -1. -/
def State.litSwap (s : State) : Option Rat :=
  let run := s.tgsOn.filter (fun n => s.tgState n != tgPRE)
  (run ++ s.tgsOn).head?.map (fun n => (s.tgOf n).s)

/-- A direct write that has passed R191. -/
def State.applyDirect (s : State) (k : Direct) : State :=
  let s :=
    match k, s.litSwap with
    | .period, some x => s.setAnchor x
    | .anchor, _ => { s with lampTiming := { s.lampTiming with anchor := (s.pair (rTG_ANCHOR_LO 0) (rTG_ANCHOR_HI 0) : Nat) } }
    | _, _ => s
  let s := if k = .period ∨ k = .anchor then s.gridWritten else s
  let s := (s.tgsOn.filter (fun n => s.getF (fTG_STATUS_STATE n) ≠ tgOFF)).foldl (fun s n =>
    ((if k = .drive then s.retime n else s).tearFrame n).cutTransfer n) s
  if k = .period then s.framesRecheck else s

/-- Which of the direct registers lies at an offset (R206). -/
def directKind (off : Nat) : Option Direct :=
  if off = rTG_PERIOD_INT 0 ∨ off = rTG_PERIOD_FRAC 0 then some .period
  else if off = rTG_ANCHOR_LO 0 then some .anchor
  else if off = rTG_GUARD 0 then some .guardT
  else if off = rTG_DRIVE 0 ∨ (List.range 4).any (fun k => off = rTG_SLOT_POS 0 k || off = rTG_SLOT_LEN 0 k) then some .drive
  else none

/-- A refusal by R191. -/
def State.timingRefused (s : State) (direct : Bool) (why : Nat) : State :=
  s.tgEv evTG_TIMING_REFUSED 0 ((if direct then 256 else 0) + why)

/-- A write to a direct register: ignored when it would break R191. -/
def State.directWrite (s : State) (off : Nat) (v : Word) : State :=
  match directKind off with
  | none => s
  | some k =>
    let s' := s.setReg off v
    let why := s'.timingBad s'.timing
    if why ≠ 0 then s.timingRefused true why else s'.applyDirect k

/-! ### Staged changes (R205) -/

/-- The staged set as written. -/
def State.stagedSet (s : State) (link : Nat) (useAnchor : Bool) : Staged :=
  { pInt := s.regN (rTG_STAGE_PERIOD_INT 0) % 2 ^ 24, num := s.getF (fTG_STAGE_PERIOD_FRAC_NUM 0),
    den := s.getF (fTG_STAGE_PERIOD_FRAC_DEN 0), anchor := s.pair (rTG_STAGE_ANCHOR_LO 0) (rTG_STAGE_ANCHOR_HI 0),
    drive := s.regN (rTG_STAGE_DRIVE 0) % 2 ^ 24, guardT := s.regN (rTG_STAGE_GUARD 0) % 2 ^ 19,
    slots := (List.range 4).map (fun k => (s.isF (fTG_STAGE_SLOT_POS_EN 0 k), s.getF (fTG_STAGE_SLOT_POS_OFFSET 0 k),
      s.regN (rTG_STAGE_SLOT_LEN 0 k) % 2 ^ 19)), link := link, useAnchor := useAnchor, at_ := s.time.now }

def Staged.set (x : Staged) (lead : Nat) : TimingSet :=
  { pInt := x.pInt, num := x.num, den := x.den, drive := x.drive, guardT := x.guardT, lead := lead, slots := x.slots }

/-- A write of TIMING_COMMIT. -/
def State.timingCommit (s : State) (v : Nat) : State :=
  let link := v % 8
  if 4 ≤ link ∧ link ≤ 6 then s
  else
    let x := s.stagedSet link (v.testBit 8)
    let why := s.timingBad (x.set s.timing.lead)
    if why ≠ 0 then
      let s := (s.setF (fTG_TIMING_STATUS_STATE 0) 3).setF (fTG_TIMING_STATUS_REASON 0) why
      s.timingRefused false why
    else
      let s := { s with lampTiming := { s.lampTiming with staged := some x } }
      let s := (s.setF (fTG_TIMING_STATUS_STATE 0) 1).setF (fTG_TIMING_STATUS_REASON 0) 0
      (List.range 4).foldl (fun s n => s.setF (fTG_STATUS_STAGED_PENDING n) 1) s

/-- Has a staged commit reached the arbiter by the latch point? Within the window of R150 that is open. -/
def State.stagedHere (s : State) (x : Staged) : Bool × State :=
  if x.at_ + crossSure ≤ s.time.now then (true, s)
  else if s.time.now ≤ x.at_ + crossNot then (false, s)
  else
    let (v, s) := s.fresh
    (!v.getLsbD 0, s)

/-- At a latch point of transfer frame `frame` with the groups `taken`: a staged set may learn its frame. -/
def State.stagedLatch (s : State) (frame : Nat) (taken : List Nat) : State :=
  match s.lampTiming.staged with
  | some x =>
    if x.frame.isNone ∧ (x.link = 7 ∨ taken.contains x.link) ∧ s.frameShown frame then
      let (here, s) := s.stagedHere x
      if here then { s with lampTiming := { s.lampTiming with staged := some { x with frame := some frame } } } else s
    else s
  | none => s

/-- The staged set takes force from swap S' of light frame `frame`. -/
def State.applyStaged (s : State) (frame : Nat) (s' : Rat) : State :=
  match s.lampTiming.staged with
  | none => s
  | some x =>
    if x.frame ≠ some frame then s
    else
      let s := (s.setRegN (rTG_PERIOD_INT 0) x.pInt).setRegN (rTG_PERIOD_FRAC 0) (65536 * x.num + x.den)
      let s := (s.setRegN (rTG_DRIVE 0) x.drive).setRegN (rTG_GUARD 0) x.guardT
      let s := x.slots.zipIdx.foldl (fun s q =>
        (s.setRegN (rTG_SLOT_POS 0 q.2) ((if q.1.1 then 2 ^ 31 else 0) + q.1.2.1)).setRegN (rTG_SLOT_LEN 0 q.2) q.1.2.2) s
      let a : Rat := if x.useAnchor then (x.anchor : Rat) else s'
      let s := s.setAnchor a
      let s := { s with lampTiming := { s.lampTiming with staged := none } }
      let s := (s.setF (fTG_TIMING_STATUS_STATE 0) 2).setRegN (rTG_TIMING_FRAME 0) frame
      let s := (List.range 4).foldl (fun s n => s.setF (fTG_STATUS_STAGED_PENDING n) 0) s
      let s := (s.tgEv evTG_TIMING_APPLIED 0 frame).framesRecheck
      if x.useAnchor then s.rephase else s.tgsOn.foldl (fun s n => s.updTg n (fun g => { g with delta := 0 })) s

/-! ### Starting (R201) -/

/-- A PLL that has failed twice keeps the data plane stopped (R408, log 161). -/
def State.pllDead (s : State) : Bool := s.boot.pllTries.any (fun k => decide (2 ≤ k))

/-- The reason for which START is refused: 1 port, 2 timing, 3 not OFF; 0 accepted. -/
def State.startReason (s : State) (n : Nat) : Nat :=
  let t := s.getF fPWR_PWR_STATUS_TARGET
  if s.zActive n = false ∨ s.isF (fZTL_STATUS_CAPS_ACCEPTED n) = false ∨ (s.portOf n).selStage = 4 ∨ (2 ≤ t ∧ t ≤ 4) ∨ s.pllDead then 1
  else if s.timingBad s.timing ≠ 0 then 2
  else if s.tgState n ≠ tgOFF then 3 else 0

/-- Generator m, in PRE, takes over how far generator n has come in a re-phase (R194). -/
def State.joinPhase (s : State) (m n : Nat) : State :=
  let g := s.tgOf n
  (s.updTg m (fun h => { h with delta := g.delta, reph := g.reph })).setF (fTG_STATUS_REPHASING m) (s.getF (fTG_STATUS_REPHASING n))

/-- A generator in PRE that starts after light frame `frame` keeps the light frame of its first transfer frame in step with generator n,
whose light frame `frame` has just begun (R192). -/
def State.followGrid (s : State) (n frame : Nat) : State :=
  let g := s.tgOf n
  let p := s.timing.period
  (s.tgsOn.filter (fun m => s.tgState m == tgPRE)).foldl (fun s m =>
    let k := signOf 32 (((s.tgOf m).first + 2 ^ 32 - frame) % 2 ^ 32)
    if k ≤ 0 then s
    else
      let e := g.e + (k - 1) * p
      (s.updTg m (fun h => { h with s := e - p, e := e })).joinPhase m n) s

/-- A generator in PRE whose transfer cannot begin with its first frame starts with frame `frame` instead (R207). -/
def State.preFirst (s : State) (n frame : Nat) : State :=
  let k := signOf 32 ((frame + 2 ^ 32 - (s.tgOf n).first) % 2 ^ 32)
  s.updTg n (fun g => { g with s := g.s + k * s.timing.period, e := g.e + k * s.timing.period, first := frame })

/-- STATE shows PRE, and FRAME_COUNT light frame -1. -/
def State.preShow (s : State) (n : Nat) : State :=
  if s.getF (fTG_STATUS_STATE n) = tgOFF ∧ (s.tgOf n).accepted then (s.setTgState n tgPRE).setRegN (rTG_FRAME_COUNT n) 0xFFFFFFFF else s

/-- PRE begins with light frame -1, at S_0 - P (R201). -/
def State.preEnter (s : State) (n : Nat) : State := if (s.tgOf n).s ≤ s.lampRat then s.preShow n else s

/-- One more start of generator n (R209). -/
def State.startCount (s : State) (n : Nat) : State :=
  { s with lampTiming := { s.lampTiming with
    runs := if s.tgsOn.isEmpty then s.lampTiming.runs + 1 else s.lampTiming.runs,
    starts := s.lampTiming.starts.set n (nth 0 s.lampTiming.starts n + 1) } }

/-- An accepted START: S_0 and the first transfer frame are chosen, and PRE begins at S_0 - P (R201). -/
def State.tgBegin (s : State) (n : Nat) : State :=
  let m := s.gridTg
  let s := s.startCount n
  let s := if m.isNone then s.frameZero n else s
  let (e, first) := s.joinAt n m
  let s := s.setTg n { s := e - s.timing.period, e := e, first := first, accepted := true }
  let s := match m with | some m => s.joinPhase n m | none => s
  let s := (s.dropRanges n).updPr n (fun p => { p with span := 0, spanSkip := 0 })
  (s.setF (fTG_STATUS_SLOTS_FIRED n) 0).preEnter n

/-- CMD = START: refused, waiting for the map load of a tile with spares (R255), or begun. -/
def State.tgStart (s : State) (n : Nat) : State :=
  let why := s.startReason n
  if why ≠ 0 then
    (s.raise (fTG_STATUS_START_REFUSED n) (rTG_START_REFUSED_COUNT n)).tgEv evTG_START_REFUSED n (2 ^ 30 * n + why)
  else if s.hasSpares n ∧ (s.portOf n).selStage ≠ 3 then s.updTg n (fun t => { t with startWait := true })
  else s.tgBegin n

/-- CMD = STOP. -/
def State.tgStop (s : State) (n : Nat) : State :=
  let st := s.tgState n
  if st = tgOFF then s
  else if st = tgPRE then s.tgOff n
  else s.updTg n (fun t => { t with stop := true })

end Sys2Proof.Machine
end

