-- ==== Sys2Proof/Machine/Freeze.lean ====
section
/-! DEFINITION. The freeze triggers of the Spool writer (R348) and of the recorder (R187), which safe-state entries, Tether
violations and commands share. -/

namespace Sys2Proof.Machine

def spOFF : Nat := 0
def spRECORDING : Nat := 1
def spPOST : Nat := 2
def spFROZEN : Nat := 3

/-- Spool's state: OFF while it is disabled, RECORDING once it is enabled. -/
def State.spState (s : State) : Nat :=
  if s.isF fMSG_SP_CFG_EN = false then spOFF
  else if s.getF fMSG_SP_STATUS_STATE = 0 then spRECORDING else s.getF fMSG_SP_STATUS_STATE

/-- Bytes of the ring. -/
def State.spBytes (s : State) : Nat := 2 ^ 20 * (s.regN rMSG_SP_SIZE % 512)

/-- A trigger reaches Spool: the freeze marker, then POST. -/
def State.spoolTrigger (s : State) (src : Nat) : State :=
  if s.spState ≠ spRECORDING then s
  else
    let s := s.setRegN rMSG_SP_TRIG_PTR ((s.regN rMSG_SP_WR_PTR + 64 * s.spool.buf.length) % max 64 s.spBytes)
    let s := s.setRegN rMSG_SP_TRIG_SEQ s.spool.next
    let s := s.spoolPut 3 0 0 (leBytes 1 src ++ List.replicate 43 0#8)
    let s := { s with spool := { s.spool with sinceTrig := 0 } }
    (s.setF fMSG_SP_STATUS_TRIG_SRC src).setF fMSG_SP_STATUS_STATE spPOST

/-- A trigger that both take directly (R187, R348): 1 SS1, 2 SS2, 3 SS3, 4 Tether violation. -/
def State.freezeAll (s : State) (src : Nat) : State := (s.recTrigger src).spoolTrigger src

end Sys2Proof.Machine
end

