-- ==== Sys2Proof/Machine/SafeOps.lean ====
section
/-! DEFINITION. The safety plane's operations: enables and read-backs (R67, R371), safe states (R374 to R376), the handover of
R71, Tether's static check (R358 to R360), the safety core's dynamic checks (R362, R363), inputs (R369, R370). -/

namespace Sys2Proof.Machine

/-- BSTREAM.STATUS.STATE. -/
def bsRESET : Nat := 0
def bsLOAD_FLASH : Nat := 1
def bsWAIT_HOST : Nat := 2
def bsLOAD_HOST : Nat := 3
def bsVERIFY_ENV : Nat := 4
def bsRUNNING : Nat := 5
def bsFAILED : Nat := 6
def State.bsState (s : State) : Nat := s.getF fBSTREAM_STATUS_STATE

def State.safeT (s : State) (n : Nat) : SafeTile := tabGet (fun _ => {}) s.safeTile n
def State.setSafeT (s : State) (n : Nat) (t : SafeTile) : State :=
  { s with safeTile := tabSet (fun _ => {}) s.safeTile n t }
def State.updSafeT (s : State) (n : Nat) (f : SafeTile → SafeTile) : State := s.setSafeT n (f (s.safeT n))
def State.updSafe (s : State) (f : Safe → Safe) : State := { s with safe := f s.safe }
def State.updBoot (s : State) (f : Boot → Boot) : State := { s with boot := f s.boot }
def State.updHk (s : State) (f : Hk → Hk) : State := { s with hk := f s.hk }
def State.updPwr (s : State) (f : Pwr → Pwr) : State := { s with pwr := f s.pwr }

/-- A SAFETY event, at most once per light frame for `who` (R382). -/
def State.sfEv (s : State) (k : EvKind) (who src data : Nat) : State := s.postOnce k who s.lampFrame src data

def State.ssOf (s : State) (n : Nat) : Nat := bitsOf (s.regN rSAFETY_SS_STATE) (2 * n) 2
def State.setSs (s : State) (n v : Nat) : State := s.setF ⟨rSAFETY_SS_STATE, 2 * n, 2⟩ v

/-- The latched faults of both channels together. -/
def State.faults (s : State) : Nat := s.regN rSAFETY_FAULT_SC ||| s.regN rSAFETY_FAULT_TT

/-- A fault bit latched by SC, by Tether. -/
def State.latchSc (s : State) (b : Nat) : State := s.setF ⟨rSAFETY_FAULT_SC, b, 1⟩ 1
def State.latchTt (s : State) (b : Nat) : State := s.setF ⟨rSAFETY_FAULT_TT, b, 1⟩ 1
def State.latchBoth (s : State) (b : Nat) : State := (s.latchSc b).latchTt b

/-! ### Enables (R67, R371) -/

/-- A read-back follows its enable unless the switch is stuck. -/
def follow (cmd fb b : Bool) : Bool := if fb == cmd then b else fb

def State.setHs (s : State) (n : Nat) (b : Bool) : State :=
  s.updSafeT n (fun t => { t with hs := b, hsFb := follow t.hs t.hsFb b, hsFbT := follow t.hs t.hsFbT b })
def State.setLs (s : State) (n : Nat) (b : Bool) : State :=
  s.updSafeT n (fun t => { t with ls := b, lsFb := follow t.ls t.lsFb b, lsFbT := follow t.ls t.lsFbT b })

/-- Both channels read a read-back. -/
def SafeTile.readHs (t : SafeTile) (b : Bool) : SafeTile := { t with hsFb := b, hsFbT := b }
def SafeTile.readLs (t : SafeTile) (b : Bool) : SafeTile := { t with lsFb := b, lsFbT := b }

/-- Each channel takes its own copy of the phase-1 safety tables (R354). -/
def State.takeTables (s : State) : State :=
  ((s.updSafe (fun x => { x with scTab := s.loader.cfg.sf, ttTab := s.loader.cfg.sf })).hidWrite 8).hidWrite 9

/-- The next switch test of tile n: 0 both switches open, 1 the high side, 2 the low side, 3 the FB_EN_n ball, 4 none is left.
A channel that has failed its self-test closes nothing, and its tests are not run (R66, R67, log 141). -/
def State.swNext (s : State) (n : Nat) : Nat :=
  let b := s.boot
  (([0, 1, 2, 3].filter (fun k => decide (b.swStep.getD n 0 ≤ k)
    && (k == 0 && (b.scPass || b.ttPass) || k == 1 && b.scPass || 2 ≤ k && b.ttPass)))).headD 4

/-- Tenths of a millisecond since t = 0 (R58), as START_TIMES holds them. -/
def State.sinceStart (s : State) : Nat := min 0xFFFE ((s.time.now - s.boot.t0) / 80000)

/-- A milestone bit of a tile. -/
def State.setTileBit (s : State) (f : Fld) (n : Nat) (b : Bool) : State := s.setB ⟨f.off, f.lo + n, 1⟩ b

/-- FB_EN_n, with TILES_FB and the first time it is set. -/
def State.setFb (s : State) (n : Nat) (b : Bool) : State :=
  let s := s.updPort n (fun p => { p with fbPin := b })
  let s := s.setTileBit fTOP_START_STATUS_TILES_FB n b
  if b ∧ s.getF fTOP_START_TIMES_FB_TIME = 0xFFFF then s.setF fTOP_START_TIMES_FB_TIME s.sinceStart else s

/-- The tile shows the full beam, or no longer does. -/
def State.setFull (s : State) (n : Nat) (b : Bool) : State :=
  let s := s.setTileBit fTOP_START_STATUS_TILES_FULL n b
  if b ∧ s.getF fTOP_START_TIMES_FULL_TIME = 0xFFFF then s.setF fTOP_START_TIMES_FULL_TIME s.sinceStart else s

def State.setHandover (s : State) (n v : Nat) : State :=
  s.updBoot (fun b => { b with handover := b.handover.set n v })

/-- Both switches of tile n commanded closed; a test pulse does not count as open. -/
def State.lit (s : State) (n : Nat) : Bool :=
  let t := s.safeT n
  (t.hs || t.test == some true) && (t.ls || t.test == some false)

/-! ### Fallback and handover (R71, R374, R457) -/

/-- FALLBACK for a safe state: the 1 ms timers of R457 start. -/
def State.safeFallback (s : State) (n : Nat) : State :=
  if s.zActive n then (s.sendFallback n 0).updSafeT n (fun t => { t with fbTimer := true }) else s

/-- Is tile n due to be handed over directly to the full beam (R73, R408)? -/
def State.directTile (s : State) (n : Nat) : Bool := s.pwr.direct.getD n false

/-- It is not: it takes the fallback beam first (R70, R376). -/
def State.dropDirect (s : State) (n : Nat) : State :=
  s.updPwr (fun p => { p with direct := p.direct.set n false })

/-- Are the clocks on PLLs, as DRAM and the data plane need them (R69, log 160): all but the tile links' own? -/
def State.pllsUp (s : State) : Bool := [0, 1, 2, 3, 5].all (fun p => s.boot.pll.getD p false)

/-- Are all start-up tasks of tile n done (R69), and no handover of it under way? -/
def State.tileReady (s : State) (n : Nat) : Bool :=
  s.bsState == bsRUNNING && s.pllsUp && s.tileUp n && s.isF fTOP_START_STATUS_DRAM_READY && s.boot.mapOk.getD n false
    && !s.boot.mapFail.getD n false && !([2, 3].contains (s.getF (fZTL_AUTH_STATUS_STATE n)))
    && [0, 4].contains (s.boot.handover.getD n 0) && s.ssOf n == 0
    && !(s.safeT n).retest && !(s.getF fTOP_START_STATUS_TILES_FULL).testBit n

/-- Step 1 of the handover of a tile that shows its fallback beam: the fallback command. -/
def State.handoverStart (s : State) (n : Nat) : State :=
  if s.tileReady n ∧ s.directTile n = false then (s.sendFallback n 0).setHandover n 1 else s

/-- Steps 2 and 3, once the fallback command is acknowledged. -/
def State.handoverAck (s : State) (n : Nat) : State :=
  if s.boot.handover.getD n 0 = 1 then
    let s := (s.setFb n false).setHandover n 2
    if s.tgState n = tgOFF ∧ (s.tgOf n).startWait = false then s.tgStart n else s
  else s

/-! ### Safe states (R374 to R376) -/

/-- The value of input i in one channel (R369, R370): true is the normal value. A discrepancy latched by either channel
holds it safe in both. -/
def State.sinNormal (s : State) (tt : Bool) (i : Nat) : Bool :=
  let cfg := s.regN (rSAFETY_SIN_CFG i)
  if cfg.testBit 28 = false then i == 0
  else
    let a := nth {} s.safe.sinSc i
    let b := nth {} s.safe.sinTt i
    let c := if tt then b else a
    if a.latched || b.latched then false
    else if cfg.testBit 24 then c.a.acc && !c.b.acc else c.a.acc && c.b.acc

/-- The normal value in both channels. -/
def State.sinBoth (s : State) (i : Nat) : Bool := s.sinNormal false i && s.sinNormal true i

/-- Is a contact of the input accepted at its safe level, after debounce (R66, R369)? -/
def SinCh.atRest (c : SinCh) (anti : Bool) : Bool := (c.a.settled && !c.a.acc) || (c.b.settled && c.b.acc == anti)

/-- Does the input call for its safe state: wired, and found safe or held so by a discrepancy in either channel? -/
def State.sinOpen (s : State) (i : Nat) : Bool :=
  let cfg := s.regN (rSAFETY_SIN_CFG i)
  cfg.testBit 28 && [nth {} s.safe.sinSc i, nth {} s.safe.sinTt i].any (fun c => c.latched || c.atRest (cfg.testBit 24))

def State.absent (s : State) (n : Nat) : Bool := s.isF (fZTL_STATUS_TILE_ABSENT n)

/-- SIN_3's action while it is safe: 0 none, 1 SS1, 2 SS3. -/
def State.sin3 (s : State) : Nat :=
  let cfg := s.regN (rSAFETY_SIN_CFG 3)
  if s.sinOpen 3 then bitsOf cfg 30 2 else 0

/-- The safe state the causes demand of tile n. -/
def State.ssRaw (s : State) (n : Nat) : Nat :=
  let f := s.faults
  let pol := s.getF fSAFETY_POLICY_MISSING_TILE
  if s.sinOpen 0 ∨ f.testBit 15 ∨ s.sin3 = 2 then 3
  else if f.testBit (7 + n) ∨ f.testBit (16 + n) ∨ (s.regN rHK_CUT_STATUS).testBit n ∨ (s.absent n ∧ pol = 0) then 2
  else if s.safe.stream ∨ s.safe.memLost ∨ f.testBit 0 ∨ f.testBit 1 ∨ f.testBit 2 ∨ f.testBit 11 ∨ f.testBit 12 ∨ f.testBit 13 ∨ s.sin3 = 1
      ∨ (pol = 2 ∧ (List.range s.tiles).any s.absent) then 1
  else 0

/-- FAULT_N follows the safe states. -/
def State.ssFaultN (s : State) : State :=
  if (List.range s.tiles).any (fun n => s.ssOf n ≠ 0 || (s.safeT n).retest) then s.assertFault .safety else s.releaseFault .safety

/-- Tiles as the top four bits of a data word. -/
def tileBits (l : List Nat) : Nat := (l.map (fun n => 2 ^ (28 + n))).sum

/-- Every tile's enables low and what it had in progress ended. -/
def State.goDark (s : State) (n : Nat) : State :=
  let s := ((s.setHs n false).setLs n false).setFb n false
  let s := (s.setFull n false).setHandover n 0
  s.updSafeT n (fun t => { t with due := none, test := none, fbTimer := false, retest := false })

/-- The fallback beam of SS1: the pin, unless Tether's tests of the tile have not been passed (R66), and the command. A handover whose transfer frame 0 is on
its way is held, and shows that at its swap (R71, log 142). -/
def State.goFallback (s : State) (n : Nat) : State :=
  let s := if s.boot.ttPass ∧ s.swNext n = 4 ∧ s.boot.swFail.getD n false = false then s.setFb n true else s
  let h := s.boot.handover.getD n 0
  ((s.setFull n false).setHandover n (if h = 2 ∨ h = 4 then 4 else 0)).safeFallback n

/-- A dark tile begins the switch tests it must pass before it leaves (R376), through its fallback beam. -/
def State.startRetest (s : State) (n : Nat) : State :=
  let s := (s.updSafeT n (fun t => { t with retest := true })).dropDirect n
  s.updBoot (fun b => { b with swStep := b.swStep.set n 0, swFail := b.swFail.set n false, swDue := b.swDue.set n false })

/-- SS_ENTER or SS_EXIT of tiles l: each tile at most once per light frame (R382). -/
def State.ssPost (s : State) (k : EvKind) (v : Nat) (l : List Nat) : State :=
  let new := l.filter (fun n => s.lastPost (limKey k n) ≠ s.lampFrame + 1)
  if new.isEmpty then s
  else (new.foldl (fun s n => s.notePost (limKey k n) (s.lampFrame + 1)) s).post k srcSC (tileBits new + 2 ^ 24 * v + s.safe.code % 65536)

/-- The events of entries and exits: (tile, old state, new state). -/
def State.ssEvents (s : State) (moves : List (Nat × Nat × Nat)) : State :=
  let s := [3, 2, 1].foldl (fun s v =>
    let l := (moves.filter (fun m => m.2.2 = v ∧ m.2.1 < v)).map Prod.fst
    if l.isEmpty then s else ((s.wakeNote 10).ssPost evSAFETY_SS_ENTER v l).freezeAll v) s
  let s := [3, 2, 1].foldl (fun s v => s.ssPost evSAFETY_SS_EXIT v
    ((moves.filter (fun m => m.2.1 = v ∧ m.2.2 < v)).map Prod.fst)) s
  s.ssFaultN

/-- A tile's move from `old` to `new`: the action of the state entered, or the way back to the full beam. -/
def State.ssMove (s : State) (n old new : Nat) : State :=
  let s := s.setSs n new
  if 2 ≤ new then if old < 2 then s.goDark n else s
  else if new = 1 then if old = 0 then s.goFallback n else s
  else if old = 1 then s.handoverStart n else s

/-- The causes have changed; `code` is the event code of the one that has (0 none). A tile leaves SS2 or SS3 only through the switch
tests of R66 (R376). -/
def State.updateSS (s : State) (code : Nat) : State :=
  let s := if code = 0 then s else s.updSafe (fun x => { x with code := code })
  let want := (List.range s.tiles).map (fun n => (n, s.ssOf n, s.ssRaw n))
  let wait := want.filter (fun m => decide (m.2.2 < 2) && decide (2 ≤ m.2.1))
  let go := want.filter (fun m => decide (m.2.2 ≠ m.2.1) && !(decide (m.2.2 < 2) && decide (2 ≤ m.2.1)))
  let s := wait.foldl (fun s m => if (s.safeT m.1).retest then s else s.startRetest m.1) s
  let s := (want.filter (fun m => decide (2 ≤ m.2.2))).foldl (fun s m =>
    s.updSafeT m.1 (fun t => { t with retest := false })) s
  let s := go.foldl (fun s m => s.ssMove m.1 m.2.1 m.2.2) s
  s.ssEvents go

/-- A tile that has passed the tests of R376 leaves SS2 or SS3, its switches closed and FB_EN high. -/
def State.leaveDark (s : State) (n : Nat) : State :=
  let old := s.ssOf n
  let new := s.ssRaw n
  if (s.safeT n).retest = false ∨ 2 ≤ new then s
  else
    let s := (s.updSafeT n (fun t => { t with retest := false })).setSs n new
    let s := if new = 0 then s.handoverStart n else s.safeFallback n
    s.ssEvents [(n, old, new)]

/-- A switch test that is due begins: the enable falls, or, with an off-demand active, the test is skipped (R372, R373). -/
def State.pulseFall (s : State) (n : Nat) : State :=
  let t := s.safeT n
  match t.due with
  | none => s
  | some high =>
    let s := s.updSafeT n (fun x => { x with due := none })
    if t.hs = false ∨ t.ls = false ∨ 2 ≤ s.ssOf n then
      (s.raise fSAFETY_FLAGS_TEST_SKIP rSAFETY_TEST_SKIP_COUNT).sfEv evSAFETY_TEST_SKIPPED (2 * n + (!high).toNat)
        (if high then srcSC else srcTT) (2 ^ 30 * n + (!high).toNat * 2)
    else (if high then s.setHs n false else s.setLs n false).updSafeT n (fun x => { x with test := some high })

/-- A switch fault: `low` names the switch, `closed` how it is stuck (R371). -/
def State.switchFail (s : State) (n : Nat) (low closed : Bool) : State :=
  let s := (s.latchBoth (7 + n)).raise fSAFETY_FLAGS_SWITCH_FAIL rSAFETY_SWITCH_FAIL_COUNT
  let s := s.sfEv evSAFETY_SWITCH_FAIL n (if low then srcTT else srcSC) (2 ^ 30 * n + low.toNat * 2 + closed.toNat)
  s.updateSS evSAFETY_SWITCH_FAIL.code

/-! ### Stream causes (R364) -/

/-- Ticks of SS1_HOLD. -/
def State.holdTicks (s : State) : Nat := ticksMs (s.getF fSAFETY_POLICY_SS1_HOLD)

/-- Entries of one cause in the last 60 s. -/
def Safe.recentOf (x : Safe) (now code : Nat) : List Nat :=
  ((x.entries.find? (fun q => q.1 = code)).map Prod.snd).getD [] |>.filter (fun t => decide (now < t + ticksMs 60000))

/-- A violation of R358 to R363 that enters SS1; the third entry for a cause within 60 s latches it. -/
def State.streamViol (s : State) (static : Bool) (code : Nat) : State :=
  let s := if static then s.freezeAll 4 else s
  let s :=
    if s.safe.stream then s
    else
      let l := s.safe.recentOf s.time.now code ++ [s.time.now]
      let s := s.updSafe (fun x => { x with entries := x.entries.filter (fun q => decide (q.1 ≠ code)) ++ [(code, l)] })
      if 3 ≤ l.length then if static then s.latchTt 1 else s.latchSc 2 else s
  let s := s.updSafe (fun x => { x with stream := true, streamT := s.time.now })
  s.updateSS code

/-! ### Tether's static check (R357 to R360) -/

def energyMax : Nat := 2 ^ 27 - 1

/-- Energy of each of a row's eight segments. -/
def rowEnergy (codes : List Nat) : List Nat :=
  (List.range 8).map (fun j =>
    satAt energyMax (((codes.drop (64 * j)).take 64).map (fun c => c % 16384 * 4 ^ (c / 16384))).sum)

/-- Does an energy exceed a ceiling? A saturated one exceeds every ceiling. -/
def exceeds (e eMax : Nat) : Bool := decide (energyMax ≤ e) || decide (eMax < e)

/-- Tether's table in force. -/
def State.ttTable (s : State) : List (Nat × Nat) :=
  if s.sinNormal true 1 then s.safe.ttTab.ceilHigh else s.safe.ttTab.ceilLow

/-- CEIL_LAST. -/
def ceilWord (n row seg dyn frame : Nat) : Nat :=
  2 ^ 30 * (n % 4) + 2 ^ 21 * (row % 512) + 2 ^ 18 * (seg % 8) + 2 ^ 17 * (dyn % 2) + frame % 65536

/-- One segment above the ceiling. -/
def State.rowViol (s : State) (n y j frame : Nat) : State :=
  let v := ceilWord n y j 0 frame
  let s := (s.setRegN rSAFETY_CEIL_LAST v).raise fSAFETY_FLAGS_ROW_ENERGY rSAFETY_ROW_ENERGY_COUNT
  let s := s.sfEv evSAFETY_ROW_ENERGY n srcTT v
  (s.updSafeT n (fun t => { t with ttBad := true })).streamViol true evSAFETY_ROW_ENERGY.code

/-- A row of a table of segment energies is compared with Tether's ceilings. -/
def State.ttCheckRow (s : State) (n y frame : Nat) (tab : List (Nat × Nat)) : State :=
  let c := s.ttTable
  (List.range 8).foldl (fun s j =>
    let (row, eMax) := nth (0, 0) c (8 * n + j)
    if y < row ∧ exceeds (tabGet (fun _ => 0) tab (8 * y + j)) eMax then s.rowViol n y j frame else s) s

/-- A table with the eight energies of row y. -/
def putEnergies (tab : List (Nat × Nat)) (y : Nat) (es : List Nat) : List (Nat × Nat) :=
  tabPutAll (fun _ => 0) tab (8 * y) es

/-- A row leaves the port as drive codes. -/
def State.ttRow (s : State) (n y frame : Nat) (codes : List Nat) : State :=
  let s := s.updSafeT n (fun t => { t with load := putEnergies t.load y (rowEnergy codes) })
  s.ttCheckRow n y frame (s.safeT n).load

/-- A row leaves as ROW_CARRY: the displayed entry is copied and checked. -/
def State.ttCarry (s : State) (n y frame : Nat) : State :=
  let s := s.updSafeT n (fun t => { t with load := putEnergies t.load y (tabRange (fun _ => 0) t.disp (8 * y) 8) })
  s.ttCheckRow n y frame (s.safeT n).load

/-- W of R359. -/
def State.slotWeight (s : State) : Nat :=
  4096 * s.safe.ttTab.slotMax.getD 0 / max 1 (s.safe.ttTab.dMax.getD 1)

/-- Lit map bits of each segment of a row. -/
def litOf (bits : List Bool) : List Nat := (List.range 8).map (fun j => (((bits.drop (64 * j)).take 64).filter id).length)

/-- A row of a slot map adds the slot's energy, weighted by w. -/
def addSlot (tab : List (Nat × Nat)) (y code w : Nat) (bits : List Bool) : List (Nat × Nat) :=
  let e := (litOf bits).map (fun k => k * (code % 16384) * 4 ^ (code / 16384 % 4) * w / 4096)
  putEnergies tab y ((tabRange (fun _ => 0) tab (8 * y) 8).zipWith (fun a b => satAt energyMax (a + b)) e)

def State.ttSlotRow (s : State) (n y frame code : Nat) (bits : List Bool) : State :=
  let w := s.slotWeight
  let s := s.updSafeT n (fun t => { t with load := addSlot t.load y code w bits })
  s.ttCheckRow n y frame (s.safeT n).load

/-- The D field of a SWAP or the length field of a SLOT, in 4 ns, against D_MAX or SLOT_MAX. -/
def State.ttLimit (s : State) (n : Nat) (slot : Bool) (v : Nat) : State :=
  let lim := if slot then s.safe.ttTab.slotMax else s.safe.ttTab.dMax
  match lim with
  | none => s
  | some m =>
    if 4 * v ≤ m then s
    else
      let s := s.raise fSAFETY_FLAGS_ROW_ENERGY rSAFETY_ROW_ENERGY_COUNT
      let s := s.sfEv evSAFETY_TIMING_LIMIT n srcTT (2 ^ 31 * slot.toNat + v % 2 ^ 24)
      s.streamViol true evSAFETY_TIMING_LIMIT.code

/-- The frame sent becomes the frame displayed (R359). -/
def State.ttSwap (s : State) (n : Nat) : State :=
  s.updSafeT n (fun t => { t with disp := t.load, ttBad := false, scOk := false, bands := t.bandsNext })

/-- Tether's selection has changed from HIGH to LOW: both tables of every tile are checked again (R360). -/
def State.ttReselect (s : State) : State :=
  (List.range s.tiles).foldl (fun s n =>
    let fr := s.regN (rTG_FRAME_COUNT n)
    let s := (List.range 512).foldl (fun s y => s.ttCheckRow n y (fr + 1) (s.safeT n).load) s
    (List.range 512).foldl (fun s y => s.ttCheckRow n y fr (s.safeT n).disp) s) s

/-! ### Inputs -/

/-- SIN_STATUS of one input, as SC has accepted its contacts. -/
def State.sinShow (s : State) (i : Nat) : State :=
  let a := nth {} s.safe.sinSc i
  let b := nth {} s.safe.sinTt i
  s.setF ⟨rSAFETY_SIN_STATUS, 4 * i, 4⟩
    (a.a.acc.toNat + 2 * a.b.acc.toNat + 4 * (s.sinBoth i).toNat + 8 * (a.latched || b.latched).toNat)

/-- The inputs' values have been decided anew; `code` is the cause, if a safe state follows. -/
def State.sinDecide (s : State) (code : Nat) : State :=
  let high := (nth {} s.safe.sinTt 1).normal
  let shut := !s.isF fSAFETY_STATUS_INTERLOCK_OPEN
  let val := fun (s : State) (tt : Bool) (l : List SinCh) => l.zipIdx.map (fun q => { q.1 with normal := s.sinNormal tt q.2 })
  let s0 := s
  let s := s.updSafe (fun x => { x with sinSc := val s0 false x.sinSc, sinTt := val s0 true x.sinTt })
  let s := [0, 1, 2, 3].foldl (fun s i => s.sinShow i) s
  let s := (s.setB fSAFETY_STATUS_AUTHORITY (s.sinBoth 1)).setB fSAFETY_STATUS_INTERLOCK_OPEN (s.sinOpen 0)
  let s := if high ∧ s.sinNormal true 1 = false then s.ttReselect else s
  if shut ∧ s.sinOpen 0 then
    (s.sfEv evSAFETY_INTERLOCK_OPEN 0 srcSC 0).updateSS evSAFETY_INTERLOCK_OPEN.code
  else s.updateSS code

/-! ### The safety core's checks (R361 to R363) -/

/-- The dynamic set in force. -/
def State.dynTable (s : State) : List (Int × Nat) :=
  if s.sinNormal false 1 then s.loader.cfg.rt.dynHigh else s.loader.cfg.rt.dynLow

/-- a ÷ b rounded half away from zero. -/
def roundAway (a : Int) (b : Nat) : Int :=
  let q : Int := ((2 * a.natAbs + b) / (2 * b) : Nat)
  if a < 0 then -q else q

/-- The age of the latest POSE in ns; none without one. -/
def State.poseAge (s : State) : Option Nat := s.safe.pose.map (fun p => s.lampNs - p.time)

/-- Is the POSE missing, too old, or without valid angles, or ACT_0 not homed? -/
def State.poseStale (s : State) : Bool :=
  match s.safe.pose with
  | none => true
  | some p => !p.valid || decide (1000000 * s.safe.scTab.pitchAgeMaxMs < s.lampNs - p.time)
      || !s.isF (fSAFETY_ACT_STATUS_HOMED 0)

/-- Encoder counts per step. -/
def State.encPerStep (s : State) (n : Nat) : Nat := 2 ^ min 2 (s.getF (fSAFETY_ACT_CFG_ENC_PER_STEP n))

def State.actOf (s : State) (n : Nat) : Act := nth {} s.safe.act n
def State.setAct (s : State) (n : Nat) (a : Act) : State := s.updSafe (fun x => { x with act := x.act.set n a })

/-- s_target. -/
def State.pitchTarget (s : State) : Int :=
  if s.poseStale then s.loader.cfg.rt.sStale
  else
    let pitch := match s.safe.pose with | some p => p.pitch | none => 0
    let pos := (s.actOf 0).sc / (s.encPerStep 0 : Nat)
    let a := pos * s.safe.scTab.levelGain / 256
    clampI (-32768) 32767 (roundAway ((pitch - a) * s.safe.scTab.rowsPerDeg) 256000)

/-- The pose is evaluated at a statistics record, and s_eff follows: up at once, down by at most CEIL_STEP a frame. -/
def State.pitchShift (s : State) : State :=
  let stale := s.poseStale
  let s := s.setB fSAFETY_STATUS_PITCH_STALE stale
  let s := if stale ∧ s.safe.staleSaid = false then
      s.sfEv evSAFETY_PITCH_STALE 0 srcSC (satAt 0xFFFFFFFF ((s.poseAge.map (· / 1000000)).getD 0xFFFFFFFF)) else s
  let tgt := s.pitchTarget
  let eff := signOf 16 (s.getF fSAFETY_DYN_SHIFT_EFF)
  let fresh := s.safe.sFrame ≠ some s.lampFrame
  let eff := if eff ≤ tgt then tgt else if fresh then max tgt (eff - (s.loader.cfg.rt.ceilStep : Nat)) else eff
  let s := s.updSafe (fun x => { x with staleSaid := stale, sFrame := some s.lampFrame })
  (s.setF fSAFETY_DYN_SHIFT_TARGET (unsignOf 16 tgt)).setF fSAFETY_DYN_SHIFT_EFF (unsignOf 16 eff)

/-- R_c. -/
def State.dynRow (s : State) (c : Nat) : Int :=
  clampI 0 512 ((nth (0, 0) s.dynTable c).1 + signOf 16 (s.getF fSAFETY_DYN_SHIFT_EFF))

/-- Bands of tile n above the dynamic ceiling, among `only`: (column, band). -/
def State.dynBad (s : State) (n : Nat) (bands : List Nat) (only : List Nat) : List (Nat × Nat) :=
  (List.range 8).flatMap (fun j => only.filterMap (fun (b : Nat) =>
    if ((8 * b + 7 : Nat) : Int) < s.dynRow (8 * n + j) ∧ exceeds (bands.getD (64 * j + b) 0) (nth (0, 0) s.dynTable (8 * n + j)).2
    then some (j, b) else none))

/-- A band above the dynamic ceiling; CEIL_LAST names the band's first row. -/
def State.dynViol (s : State) (n frame : Nat) (q : Nat × Nat) : State :=
  let v := ceilWord n (8 * q.2) q.1 1 frame
  let s := (s.setRegN rSAFETY_CEIL_LAST v).raise fSAFETY_FLAGS_CEILING rSAFETY_CEILING_COUNT
  (s.sfEv evSAFETY_CEILING_DYN n srcSC v).streamViol false evSAFETY_CEILING_DYN.code

/-- MASK_LAYER's check: true when it passes (R363). -/
def State.maskCheck (s : State) (n : Nat) (r : StatRec) : Bool × State :=
  let (age, st, never, fb) := nth (255, 0, true, false) r.layers s.loader.cfg.rt.maskLayer
  let lim := s.loader.cfg.rt.maskAgeMax
  let s := (s.setF fSAFETY_MASK_AGE_MAX lim).setF fSAFETY_MASK_AGE_AGE age
  if never then (fb, s)
  else
    let s := s.updSafeT n (fun t => { t with maskSeen := some (r.frame, age) })
    let agree := (List.range s.tiles).all (fun m =>
      match (s.safeT m).maskSeen with
      | some (f, a) => decide (f ≠ r.frame) || decide (a = age)
      | none => true)
    if st ≤ 1 ∧ age ≤ lim ∧ agree then (true, s)
    else
      let s := s.raise fSAFETY_FLAGS_CEILING rSAFETY_CEILING_COUNT
      (false, (s.sfEv evSAFETY_MASK_AGE n srcSC (256 * (lim % 256) + age % 256)).streamViol false evSAFETY_MASK_AGE.code)

/-- The regions of ROI_SAFE: a mismatch in two consecutive checked frames fails (R363). -/
def State.roiCheck (s : State) (n : Nat) (r : StatRec) : Bool × State :=
  let last := (s.safeT n).roiLast
  let use := (List.range 16).filter (fun k => s.loader.cfg.rt.roiSafe.testBit k && !r.invalid.testBit k)
  let fail := ((use.filter (fun k => r.mismatch.testBit k && last.testBit k)).map (fun k => 2 ^ k)).sum
  let next := ((List.range 16).map (fun k =>
    if use.contains k then (r.mismatch.testBit k).toNat * 2 ^ k else (last.testBit k).toNat * 2 ^ k)).sum
  let s := s.updSafeT n (fun t => { t with roiLast := next })
  if fail = 0 then (true, s)
  else
    let s := s.raise fSAFETY_FLAGS_CEILING rSAFETY_CEILING_COUNT
    (false, (s.sfEv evSAFETY_ROI_SAFE_FAIL n srcSC (2 ^ 30 * n + fail)).streamViol false evSAFETY_ROI_SAFE_FAIL.code)

/-- Damaged rows of the displayed frame are checked again (R363). -/
def State.damageCheck (s : State) (n : Nat) : State :=
  let t := s.safeT n
  let only := if t.damageAll then List.range 64 else (t.damage.map (· / 8)).eraseDups
  let fr := s.regN (rTG_FRAME_COUNT n)
  let s := (s.dynBad n t.bands only).foldl (fun s q => s.dynViol n fr q) s
  s.updSafeT n (fun t => { t with damage := [], damageAll := false })

/-- A record is missing or fails its CRC (R361). -/
def State.statsMissing (s : State) (n : Nat) : State :=
  let twice := (s.safeT n).missed
  let s := s.raise fSAFETY_FLAGS_STATS_MISSING rSAFETY_STATS_MISSING_COUNT
  let s := s.sfEv evSAFETY_STATS_MISSING n srcSC (2 ^ 30 * n)
  let s := s.updSafeT n (fun t => { t with missed := true, scOk := false, record := none })
  if twice then s.streamViol false evSAFETY_STATS_MISSING.code else s

/-- SC checks a statistics record. -/
def State.statsCheck (s : State) (n : Nat) (r : StatRec) : State :=
  let s := s.updSafeT n (fun t => { t with missed := false, record := none, bandsNext := r.bands })
  let s := s.pitchShift
  let bad := s.dynBad n r.bands (List.range 64)
  let s := bad.foldl (fun s q => s.dynViol n r.frame q) s
  let (m, s) := s.maskCheck n r
  let (o, s) := s.roiCheck n r
  let s := s.damageCheck n
  s.updSafeT n (fun t => { t with scOk := bad.isEmpty && m && o })

/-- SC grants the swap of light frame 0 of tile n (R377). -/
def State.swapGrant (s : State) (n : Nat) : Bool :=
  let t := s.safeT n
  !t.ttBad && t.scOk && s.ssOf n == 0 && !t.retest && s.sinNormal false 0

/-- SC grants a power-state entry (R377). -/
def State.powerGrant (s : State) : Bool :=
  (List.range s.tiles).all (fun n =>
    let t := s.safeT n
    !t.hs && !t.ls && !t.hsFb && !t.lsFb && !(s.portOf n).fbPin) && s.safe.act.all (fun a => !a.moving)

/-- Is no safe state active (R53, R377)? -/
def State.safeClear (s : State) : Bool := (List.range s.tiles).all (fun n => s.ssOf n == 0 && !(s.safeT n).retest)

/-! ### Missing tiles (R375) and LAMP_REQ (R330) -/

/-- TILE_ABSENT of tile n changes. -/
def State.setAbsent (s : State) (n : Nat) (b : Bool) : State :=
  if s.absent n = b then s
  else
    let s := s.setB (fZTL_STATUS_TILE_ABSENT n) b
    let pol := s.getF fSAFETY_POLICY_MISSING_TILE
    let s := if b then s.sfEv evSAFETY_TILE_POLICY n srcSC (2 ^ 30 * n + pol) else s
    let s := if b ∧ pol = 1 ∧ s.lit n then s.setFb n true else s
    s.updateSS evSAFETY_TILE_POLICY.code

/-- LAMP_REQ is latched or released. -/
def State.lampReq (s : State) (on : Bool) : State :=
  let s := s.setB fSAFETY_STATUS_CAN_REQ on
  let s := s.setB ⟨rSAFETY_FAULT_SC, 0, 1⟩ on
  s.updateSS (if on then evHOST_CAN_REQ.code else 0)

/-! ### Actuators (R365, R366) -/

/-- The limits of actuator n in a channel's own tables. -/
def State.actCfg (s : State) (tt : Bool) (n : Nat) : ActC := nth {} (if tt then s.safe.ttTab else s.safe.scTab).act n

/-- An actuator fault: both permissions go, the fault is latched, the lamp enters SS1. -/
def State.actFault (s : State) (n : Nat) (k : EvKind) (data : Nat) : State :=
  let s := (s.setF (fSAFETY_ACT_STATUS_SC_PERMITS n) 0).setF (fSAFETY_ACT_STATUS_TT_PERMITS n) 0
  let s := s.setAct n { s.actOf n with moving := false, step := false, homing := 0 }
  let s := (s.latchBoth (11 + n)).raise fSAFETY_FLAGS_ACT_FAULT rSAFETY_ACT_FAULT_COUNT
  (s.sfEv k n srcSC data).updateSS k.code

/-- Positions in the registers: whole steps. -/
def State.actShow (s : State) (n : Nat) : State :=
  let a := s.actOf n
  let e : Int := (s.encPerStep n : Nat)
  (s.setRegN (rSAFETY_ACT_POS_SC n) (unsignOf 16 (a.sc / e))).setRegN (rSAFETY_ACT_POS_TT n) (unsignOf 16 (a.tt / e))

/-- Is a channel's count outside its window? -/
def State.actOutside (s : State) (tt : Bool) (n : Nat) : Bool :=
  let c := if tt then (s.actOf n).tt else (s.actOf n).sc
  let e : Int := (s.encPerStep n : Nat)
  let w := s.actCfg tt n
  decide (c < (w.posMin - 4) * e) || decide ((w.posMax + 4) * e < c)

/-- Do the encoder counts, or SC's count and its steps, differ by more than 4 steps? -/
def State.actDiffer (s : State) (n : Nat) : Bool :=
  let a := s.actOf n
  decide (4 * s.encPerStep n < (a.sc - a.tt).natAbs)
def State.actLost (s : State) (n : Nat) : Bool :=
  let a := s.actOf n
  decide (4 * s.encPerStep n < (a.sc - a.steps * (s.encPerStep n : Nat)).natAbs)

end Sys2Proof.Machine
end

