-- ==== Sys2Proof/Machine/SafetyPlane.lean ====
section
/-! DEFINITION. The commands of the safety plane (R354 to R377, R457): channels, acknowledgement, statistics records,
actuators, inputs, switches. -/

namespace Sys2Proof.Machine

/-! ### Channels and acknowledgement (R355, R356) -/

/-- CHANNEL_LOST: Tether (`tt`) or SC has seen no alive signal of the other for 5 ms. -/
def State.channelLost (s : State) (tt : Bool) : State :=
  let s := if tt then (s.latchTt 13).setF fSAFETY_STATUS_SC_LOST 1 else (s.latchSc 13).setF fSAFETY_STATUS_TT_LOST 1
  (s.sfEv evSAFETY_CHANNEL_LOST tt.toNat (if tt then srcTT else srcSC) 0).updateSS evSAFETY_CHANNEL_LOST.code

def execChannelLost (tt : Bool) (s : State) : Res := .next (s.inCore (·.channelLost tt))

/-- LOCKSTEP_MISMATCH: SC is reset; what it held of POSE, consents and acknowledgements is gone, latched faults stay. -/
def execLockstepMismatch (s : State) : Res :=
  .next (s.updSafe (fun x => { x with pose := none, consent := none, ack := none }))

/-- An acknowledgement is refused. -/
def State.ackRefuse (s : State) (mask : Nat) : State :=
  let s := s.updSafe (fun x => { x with ack := none })
  (s.raise fSAFETY_FLAGS_ACK_REFUSED rSAFETY_ACK_REFUSED_COUNT).sfEv evSAFETY_ACK_REFUSED 0 srcTT mask

/-- A write of ACK_SC: the mask is held, and the 10 ms window begins. -/
def State.ackScWrite (s : State) (mask : Nat) : State := s.updSafe (fun x => { x with ack := some (mask, s.time.now) })

/-- ACK_SC. -/
def execAckSc (mask : Word) (s : State) : Res := .next (s.viaReg (rSAFETY_ACK_SC) (fun s => s.ackScWrite mask.toNat))

/-- Does the cause of a latched fault bit persist (R356, R364)? -/
def State.persists (s : State) (b : Nat) : Bool :=
  if b = 0 then s.isF fSAFETY_STATUS_CAN_REQ
  else if b = 1 ∨ b = 2 then s.safe.stream
  else if 3 ≤ b ∧ b ≤ 6 then
    let anti := (s.regN (rSAFETY_SIN_CFG (b - 3))).testBit 24
    [nth {} s.safe.sinSc (b - 3), nth {} s.safe.sinTt (b - 3)].any (fun c => c.a.acc || c.b.acc != anti)
  else if 7 ≤ b ∧ b ≤ 10 then
    let t := s.safeT (b - 7)
    t.hsFb != t.hs || t.lsFb != t.ls || t.hsFbT != t.hs || t.lsFbT != t.ls
  else if b = 11 ∨ b = 12 then
    let n := b - 11
    s.isF (fSAFETY_ACT_STATUS_HOMED n) && (s.actOutside false n || s.actOutside true n || s.actDiffer n || s.actLost n)
  else if b = 13 then s.isF fSAFETY_STATUS_SC_LOST || s.isF fSAFETY_STATUS_TT_LOST
  else if b = 14 then true
  else if b = 15 then (List.range 4).any (fun n =>
    let t := s.safeT n
    !t.hs && !t.ls && (t.hsFb && t.lsFb || t.hsFbT && t.lsFbT))
  else false

/-- The acknowledgement is accepted: the bits are cleared in both channels. -/
def State.ackClear (s : State) (held : Nat) : State :=
  let s := (s.setRegN rSAFETY_FAULT_SC (s.regN rSAFETY_FAULT_SC &&& (0xFFFFFFFF ^^^ held))).setRegN rSAFETY_FAULT_TT
    (s.regN rSAFETY_FAULT_TT &&& (0xFFFFFFFF ^^^ held))
  let drop := fun (l : List SinCh) => l.zipIdx.map (fun q => { q.1 with latched := q.1.latched && !held.testBit (3 + q.2) })
  let s := s.updSafe (fun x => { x with ack := none, sinSc := drop x.sinSc, sinTt := drop x.sinTt })
  let s := [0, 1].foldl (fun s n =>
    if held.testBit (11 + n) then
      (s.setF (fSAFETY_ACT_STATUS_SC_PERMITS n) 1).setF (fSAFETY_ACT_STATUS_TT_PERMITS n) 1
    else s) s
  (s.sfEv evSAFETY_FAULT_ACK 0 srcTT held).sinDecide 0

/-- A write of ACK_TT. -/
def State.ackTtWrite (s : State) (v : Nat) : State :=
  match s.safe.ack with
  | none => s.ackRefuse v
  | some (m, t) =>
    if v ≠ 0xFFFFFFFF ^^^ m ∨ t + ticksMs 10 < s.time.now then s.ackRefuse m
    else
      let held := s.faults &&& m &&& 0xFFFFF
      if (List.range 20).any (fun b => held.testBit b && s.persists b) then s.ackRefuse m else s.ackClear held

/-- ACK_TT. -/
def execAckTt (v : Word) (s : State) : Res := .next (s.viaReg (rSAFETY_ACK_TT) (fun s => s.ackTtWrite v.toNat))

/-- ACK_WINDOW_EXPIRY: no ACK_TT has come within 10 ms of the latest write of ACK_SC. -/
def execAckWindowExpiry (s : State) : Res :=
  .next (match s.safe.ack with
    | none => s
    | some (m, t) => if t + ticksMs 10 < s.time.now then s.ackRefuse m else s)

/-! ### Stream checks (R361 to R364) -/

/-- STATS_RECORD: the record of the transfer frame that tile n sends, or its loss; where the tile sends none, none is expected. -/
def execStatsRecord (n : Fin 4) (ok : Bool) (s : State) : Res :=
  .next (if s.boot.porst = false then s else match (s.safeT n).record with
    | some r =>
      if s.tgState n = tgOFF then s.updSafeT n (fun t => { t with record := none })
      else if ok then s.statsCheck n r else s.statsMissing n
    | none => s)

/-- SS1_HOLD_EXPIRY: the hold has passed since the last violation. -/
def execSs1HoldExpiry (s : State) : Res :=
  .next (if s.safe.stream ∧ s.safe.streamT + s.holdTicks ≤ s.time.now then
    (s.updSafe (fun x => { x with stream := false })).updateSS 0 else s)

/-! ### Actuators (R365 to R367) -/

/-- May SC move actuator n? -/
def State.actMay (s : State) (n : Nat) : Bool :=
  s.isF (fSAFETY_ACT_CFG_EN n) && s.isF (fSAFETY_ACT_STATUS_SC_PERMITS n) && s.isF (fSAFETY_ACT_STATUS_TT_PERMITS n)

/-- Is a beam-up step of ACT_0 refused: the vehicle's speed is above V_DIR, or its report is too old (R367)? -/
def State.upRefused (s : State) : Bool :=
  match s.safe.pose with
  | none => true
  | some p => decide (1000000 * s.safe.scTab.pitchAgeMaxMs < s.lampNs - p.time) || decide ((s.actCfg false 0).vDir < p.speed)

/-- V_MAX leaves at least this many ticks between two steps (R365). -/
def stepTicks (c : ActC) : Nat := (800000000 + c.vMax - 1) / max 1 c.vMax

/-- Does V_MAX allow a step now? -/
def State.stepSpeed (s : State) (n : Nat) : Bool :=
  match (s.actOf n).stepAt with
  | none => true
  | some t => decide (t + stepTicks (s.actCfg false n) ≤ s.time.now)

/-- A position, or the counts of SC, have left what R366 allows. -/
def State.actCheck (s : State) (n : Nat) : State :=
  if s.isF (fSAFETY_ACT_STATUS_HOMED n) = false then s
  else if s.actOutside false n ∨ s.actOutside true n then s.actFault n evSAFETY_ACT_LIMIT (n + 2 * 1)
  else if s.actLost n then
    let a := s.actOf n
    s.actFault n evSAFETY_ACT_MISMATCH
      (65536 * min 0xFFFF ((a.sc - a.steps * (s.encPerStep n : Nat)).natAbs / s.encPerStep n) + n)
  else s

/-- ACT_STEP: one step towards ACT_n_TARGET, within the limits; positions grow as the beam is lowered. -/
def execActStep (n : Fin 2) (s : State) : Res :=
  let a := s.actOf n
  let target := signOf 16 (s.regN (rSAFETY_ACT_TARGET n))
  let down := decide (a.steps < target)
  let next := if down then a.steps + 1 else a.steps - 1
  let w := s.actCfg false n
  .next (if s.actMay n = false ∨ s.isF (fSAFETY_ACT_STATUS_HOMED n) = false ∨ target = a.steps
        ∨ next < w.posMin ∨ w.posMax < next then s.setAct n { a with moving := false, step := false }
    else if s.stepSpeed n = false then s.setAct n { a with step := false }
    else if n = 0 ∧ down = false ∧ s.upRefused then
      (s.setF (fSAFETY_ACT_STATUS_UP_REFUSED n) 1).setAct n { a with moving := false, step := false }
    else
      let dir := if down then w.downDir else !w.downDir
      ((s.setF (fSAFETY_ACT_STATUS_UP_REFUSED n) 0).setAct n
        { a with steps := next, moving := decide (next ≠ target), step := true, dir := dir, stepAt := some s.time.now }).actCheck n)

/-- ENCODER_EDGE: one count, as the channels that see it count it. -/
def State.encoderEdge (s : State) (n : Nat) (sc tt up : Bool) : State :=
  let a := s.actOf n
  let d : Int := if up then 1 else -1
  let s := s.setAct n { a with sc := if sc then a.sc + d else a.sc, tt := if tt then a.tt + d else a.tt }
  let since := if s.actDiffer n then some (a.differ.getD s.time.now) else none
  let s := s.setAct n { s.actOf n with differ := since }
  (s.actShow n).actCheck n

def execEncoderEdge (n : Fin 2) (sc tt up : Bool) (s : State) : Res := .next (s.inCore (·.encoderEdge n sc tt up))

/-- ACT_SPEED_WINDOW: 10 ms have passed; more than 1.1 × V_MAX in either channel is a fault. -/
def execActSpeedWindow (n : Fin 2) (s : State) : Res :=
  let a := s.actOf n
  let lim := fun (tt : Bool) => 11 * (s.actCfg tt n).vMax * s.encPerStep n
  let fast := decide (lim false < 1000 * (a.sc - a.scWin).natAbs) || decide (lim true < 1000 * (a.tt - a.ttWin).natAbs)
  let s := s.setAct n { a with scWin := a.sc, ttWin := a.tt }
  .next (if fast ∧ s.isF (fSAFETY_ACT_CFG_EN n) then s.actFault n evSAFETY_ACT_LIMIT (n + 2 * 2) else s)

/-- ACT_MISMATCH: the two encoder counts have differed for more than 10 ms. -/
def execActMismatch (n : Fin 2) (s : State) : Res :=
  let a := s.actOf n
  let long : Bool := match a.differ with
    | some t => decide (t + ticksMs 10 < s.time.now)
    | none => false
  .next (if long ∧ s.isF (fSAFETY_ACT_CFG_EN n) then
    s.actFault n evSAFETY_ACT_MISMATCH (65536 * min 0xFFFF ((a.sc - a.tt).natAbs / s.encPerStep n) + n) else s)

/-- ACT_HOMING: one step towards the reference, or, once both channels hold SIN_2 safe, both counts become 0. The way
the reference lies is open. -/
def execActHoming (n : Fin 2) (s : State) : Res :=
  let a := s.actOf n
  .next (if s.actMay n = false ∨ s.isF (fSAFETY_ACT_STATUS_HOMED n) then s
    else if s.sinNormal false 2 = false ∧ s.sinNormal true 2 = false then
      let s := s.setAct n { a with sc := 0, tt := 0, steps := 0, scWin := 0, ttWin := 0, differ := none, homing := 0,
                                   moving := false, step := false }
      (s.setF (fSAFETY_ACT_STATUS_HOMED n) 1).actShow n
    else if (s.actCfg false n).homeSteps ≤ a.homing then s.actFault n evSAFETY_ACT_LIMIT (n + 2 * 4)
    else if s.stepSpeed n = false then s.setAct n { a with step := false }
    else
      let (v, s) := s.fresh
      s.setAct n { a with homing := a.homing + 1, moving := true, step := true, dir := v.getLsbD 0, stepAt := some s.time.now })

/-! ### Inputs (R368, R369) -/

/-- A contact is sampled: how long its level has been stable, in ticks; a level that debounce confirms as accepted is settled (log 184). -/
def Contact.sample (c : Contact) (level : Bool) (deb : Nat) : Contact :=
  let c := if c.raw = level then { c with stable := min 31 (c.stable + 1) } else { c with raw := level, stable := 0 }
  if c.raw = c.acc ∧ deb ≤ c.stable then { c with settled := true } else c

/-- Do the contacts agree: both at rest, or both normal? -/
def SinCh.agree (c : SinCh) (anti : Bool) : Bool := (c.a.acc != c.b.acc) == anti

/-- A channel's record of a wired input after a sample. Contacts that are found inconsistent once both are settled start the
discrepancy timer (R66). -/
def SinCh.sample (c : SinCh) (a b : Bool) (cfg : Nat) : SinCh :=
  let deb := bitsOf cfg 16 5
  let c := { c with a := c.a.sample a deb, b := c.b.sample b deb, timer := c.timer.map (fun t => min 2047 (t + 1)) }
  if cfg.testBit 28 ∧ c.a.settled ∧ c.b.settled ∧ c.agree (cfg.testBit 24) = false ∧ c.latched = false then
    { c with timer := some (c.timer.getD 0) }
  else c

def State.sinCh (s : State) (tt : Bool) (i : Nat) : SinCh := nth {} (if tt then s.safe.sinTt else s.safe.sinSc) i

def State.setSin (s : State) (tt : Bool) (i : Nat) (c : SinCh) : State :=
  s.updSafe (fun x => if tt then { x with sinTt := x.sinTt.set i c } else { x with sinSc := x.sinSc.set i c })

/-- SIN_SAMPLE: a channel's tick, with the levels of contacts A (even bits) and B (odd bits). -/
def State.sinSample (s : State) (tt : Bool) (levels : BitVec 8) : State :=
  let s := [0, 1, 2, 3].foldl (fun s i =>
    s.setSin tt i ((s.sinCh tt i).sample (levels.getLsbD (2 * i)) (levels.getLsbD (2 * i + 1)) (s.regN (rSAFETY_SIN_CFG i)))) s
  s.sinDecide 0

def execSinSample (tt : Bool) (levels : BitVec 8) (s : State) : Res :=
  .next (s.inCore (fun s => (s.hidWrite (if tt then 9 else 8)).sinSample tt levels))

/-- A discrepancy is latched by a channel. -/
def State.sinFault (s : State) (tt : Bool) (i : Nat) : State :=
  let s := s.setSin tt i { s.sinCh tt i with latched := true, timer := none }
  let s := if tt then s.latchTt (3 + i) else s.latchSc (3 + i)
  let s := s.raise fSAFETY_FLAGS_DISCREPANCY rSAFETY_DISCREPANCY_COUNT
  (s.sfEv evSAFETY_SIN_DISCREPANCY i (if tt then srcTT else srcSC) i).sinDecide evSAFETY_SIN_DISCREPANCY.code

/-- T_d of input i has passed in a channel: more than T_d ticks since the first contact changed. -/
def State.sinOverdue (s : State) (tt : Bool) (i : Nat) : Bool :=
  match (s.sinCh tt i).timer with
  | some t => decide (bitsOf (s.regN (rSAFETY_SIN_CFG i)) 0 10 + 1 ≤ t)
  | none => false

/-- CONTACT_ACCEPTED: contact A or B (`b`) has been stable for the debounce time. -/
def execContactAccepted (tt : Bool) (i : Fin 4) (b : Bool) (s : State) : Res :=
  let cfg := s.regN (rSAFETY_SIN_CFG i)
  let k := if b then (s.sinCh tt i).b else (s.sinCh tt i).a
  .next (if k.raw = k.acc ∨ k.stable < bitsOf cfg 16 5 then s
    else
      let s := if s.sinOverdue tt i then s.sinFault tt i else s
      let c := s.sinCh tt i
      let k := { k with acc := k.raw, settled := true }
      let c := if b then { c with b := k } else { c with a := k }
      let timer :=
        if c.agree (cfg.testBit 24) ∨ c.latched ∨ cfg.testBit 28 = false then none else some (c.timer.getD 0)
      (s.setSin tt i { c with timer := timer }).sinDecide 0)

/-- SIN_DISCREPANCY: the second contact has not followed within T_d. -/
def execSinDiscrepancy (tt : Bool) (i : Fin 4) (s : State) : Res :=
  .next (if s.sinOverdue tt i then s.sinFault tt i else s)

/-! ### Switches (R371 to R373, R457) -/

/-- SWITCH_READBACK_TIMEOUT: the read-backs 50 µs after a change of an enable. -/
def execSwitchReadbackTimeout (n : Fin 4) (hs ls : Bool) (s : State) : Res :=
  let t := s.safeT n
  .next (if s.boot.porst = false ∨ t.test.isSome then s
    else
      let s := s.updSafeT n (fun x => (x.readHs hs).readLs ls)
      let s := if t.hs = false ∧ t.ls = false ∧ hs ∧ ls ∧ s.faults.testBit 15 = false then
          (s.latchBoth 15).updateSS evSAFETY_SWITCH_FAIL.code else s
      let s := if hs ≠ t.hs then s.switchFail n false hs else s
      if ls ≠ t.ls then s.switchFail n true ls else s)

/-- The guard interval that a test falling due now belongs to: the next that starts; with the generator OFF, the mark itself (R372, log 152). -/
def State.pulseMark (s : State) (n : Nat) : State :=
  let g := s.tgOf n
  if s.tgState n = tgOFF then s.pulseFall n
  else if s.lampRat < g.e - (s.timing.guardT : Nat) then s.updTg n (fun g => { g with pulse := true })
  else s.updTg n (fun g => { g with pulseNext := true })

/-- TEST_PULSE: a switch test falls due on the high or low side of tile n; it is skipped while an off-demand is active. -/
def execTestPulse (n : Fin 4) (low : Bool) (s : State) : Res :=
  let t := s.safeT n
  .next (if s.isF fSAFETY_TEST_CFG_EN = false ∨ t.test.isSome ∨ t.due.isSome then s
    else
      let s := s.updSafeT n (fun x => { x with due := some (!low) })
      if t.hs = false ∨ t.ls = false ∨ 2 ≤ s.ssOf n then s.pulseFall n else s.pulseMark n)

/-- TEST_PULSE_END: the enable rises; `mid` is the read-back from 60 µs on, `fin` 50 µs after the rise (closed = true). -/
def execTestPulseEnd (n : Fin 4) (mid fin : Bool) (s : State) : Res :=
  let s := s.pulseFall n
  .next (match (s.safeT n).test with
    | none => s
    | some high =>
      let s := s.updSafeT n (fun x => { x with test := none })
      if 2 ≤ s.ssOf n then s
      else
        let s := s.updSafeT n (fun x =>
          if high then { x with hs := true }.readHs fin else { x with ls := true }.readLs fin)
        if mid then s.switchFail n (!high) true else if fin = false then s.switchFail n (!high) false else s)

/-- FALLBACK_ACK_TIMEOUT: a FALLBACK for a safe state was not acknowledged within 1 ms. -/
def execFallbackAckTimeout (n : Fin 4) (s : State) : Res :=
  .next (if (s.safeT n).fbTimer then
    ((s.updSafeT n (fun t => { t with fbTimer := false })).latchBoth (16 + n)).updateSS evZTL_FB_ACK_LATE.code else s)

end Sys2Proof.Machine
end

