-- ==== Sys2Proof/Machine/HealthOps.lean ====
section
/-! DEFINITION. HEALTH (R273 to R294): its tables in the work area, sweeps, the health program's classification, offsets and
baselines, Darn, aging accounts and gains, checkpoints, the life record and the end-of-life indicators. -/

namespace Sys2Proof.Machine

/-! ### The work area (R273) -/

def State.workBase (s : State) : Nat := s.regN rHEALTH_WORK_BASE_LO + 2 ^ 32 * (s.regN rHEALTH_WORK_BASE_HI % 256)
def State.acctAddr (s : State) (n k i : Nat) : Nat := s.workBase + 0x400000 * n + 0x200000 * k + 8 * i
def State.baseAddr (s : State) (n k i : Nat) : Nat := s.workBase + 0x1000000 + 0x100000 * n + 0x80000 * k + 2 * i
def State.stateAddr (s : State) (n k i : Nat) : Nat := s.workBase + 0x1400000 + 0x20000 * n + 0x10000 * k + i / 4
def State.offAddr (s : State) (n k b : Nat) : Nat := s.workBase + 0x1480000 + 0x400 * n + 0x200 * k + 2 * b
def State.listAddr (s : State) (n : Nat) : Nat := s.workBase + 0x1500000 + 0x40000 * n
def State.classAddr (s : State) (n : Nat) : Nat := s.workBase + 0x1600000 + 0x8000 * n

/-- The key of an emitter of a tile. -/
def emKey (k i : Nat) : Nat := 262144 * k + i

/-- Emitter states. -/
def emOK : Nat := 0
def emSUSPECT : Nat := 1
def emFAILED : Nat := 2
def emUNKNOWN : Nat := 3

def State.emState (s : State) (n k i : Nat) : Nat := bitsOf (s.loadN (s.stateAddr n k i) 1) (2 * (i % 4)) 2

/-- The count an emitter state is shown in, if any. -/
def emCount (n k st : Nat) : Option Nat :=
  if st = emSUSPECT then some (rHEALTH_SUSPECT n)
  else if st = emFAILED then some (if k = 0 then rHEALTH_FAILED_P n else rHEALTH_FAILED_S n)
  else none

/-- A count register moves by one, within [17:0]. -/
def State.count1 (s : State) (off : Option Nat) (up : Bool) : State :=
  match off with
  | none => s
  | some o => s.setRegN o (if up then satAt 0x3FFFF (s.regN o + 1) else s.regN o - 1)

def State.setEm (s : State) (n k i st : Nat) : State :=
  let old := s.emState n k i
  let a := s.stateAddr n k i
  let s := s.putDram a (leBytes 1 (putBits (s.loadN a 1) (2 * (i % 4)) 2 st))
  if old = st then s else (s.count1 (emCount n k old) false).count1 (emCount n k st) true

/-! ### The health program (R123, R276, R277) -/

def State.vfLsb (s : State) (n : Nat) : Nat := match s.caps n with | some c => c.vfLsb | none => 0

/-- A result that is a code: neither SHORT nor OPEN. -/
def codeOf (r : Nat) : Option Nat := if r / 16384 % 4 = 0 then some (r % 4096) else none

/-- The middle element of a sorted list, the lower of two. -/
def medianI (l : List Int) : Int := (l.mergeSort (· ≤ ·)).getD ((l.length - 1) / 2) 0

/-- Result of emitter i of the chunk, i counted in the tile. -/
def SenseIn.at_ (x : SenseIn) (i : Nat) : Option Nat := x.res.map (fun l => l.getD (i - 16384 * x.chunk) 0)

/-- Emitters of block `b` of the tile. -/
def blockPixels (b : Nat) : List Nat := (List.range 1024).map (fun j => 512 * (32 * (b / 16) + j / 32) + 32 * (b % 16) + j % 32)

/-- Code minus baseline of an emitter. -/
def State.devCode (s : State) (n : Nat) (x : SenseIn) (i : Nat) : Option Int :=
  ((x.at_ i).bind codeOf).map (fun c => (c : Int) - (s.loadN (s.baseAddr n x.kind i) 2 % 4096 : Nat))

/-- The median of a block, if it has 64 usable emitters. -/
def State.blockMedian (s : State) (n : Nat) (x : SenseIn) (b : Nat) : Option Int :=
  let l := (blockPixels b).filterMap (fun i => if s.emState n x.kind i = emFAILED then none else s.devCode n x i)
  if l.length < 64 then none else some (medianI l)

/-- A CAL_REJECT of HEALTH counts and is flagged; the event follows at its own time. -/
def State.hlRejected (s : State) : State := s.raise fHEALTH_STATUS_CAL_REJECT rHEALTH_CAL_REJECT_COUNT

/-- A block's entry after its median `m` in sweep `no` of its kind: the median of the sweep of the kind before stands beside it
(log 155). -/
def medNext (l : List BlockMed) (key no : Nat) (m : Int) : BlockMed :=
  let prev := match l.find? (fun q => q.key = key) with
    | some q => if q.kindNo = no then q.prev else if q.kindNo + 1 = no then some q.med else none
    | none => none
  { key := key, kindNo := no, med := m, prev := prev }

/-- The medians `m` and `prev` of two consecutive sweeps: an offset accepted for the next one, or a rejection. -/
def State.offPair (s : State) (n sweep key : Nat) (m : Int) : Option Int → State
  | none => s
  | some l =>
    let d := (m - l).natAbs
    if d ≤ 2 then s.updHl n (fun h => { h with nextOff := h.nextOff ++ [(sweep, key, min m l + (d / 2 : Nat))] })
    else s.hlRejected.updHl n (fun h => { h with rejects := h.rejects ++ [key] })

/-- One block of a measured chunk: the pair of medians of two consecutive sweeps of the kind. -/
def State.offBlock (s : State) (n : Nat) (x : SenseIn) (b : Nat) : State :=
  let key := 256 * x.kind + b
  let s := s.updHl n (fun h => { h with nextOff := h.nextOff.filter (fun q => !(q.1 == x.sweep && q.2.1 == key)),
                                        rejects := h.rejects.filter (· ≠ key) })
  match s.blockMedian n x b with
  | none => s.updHl n (fun h => { h with med := h.med.filter (fun q => decide (q.key ≠ key)) })
  | some m =>
    let e := medNext (s.hl n).med key x.kindNo m
    let s := s.updHl n (fun h => { h with med := h.med.filter (fun q => decide (q.key ≠ key)) ++ [e] })
    s.offPair n x.sweep key m e.prev

/-- Offsets accepted in an earlier sweep of the kind take force. -/
def State.offApply (s : State) (n : Nat) (x : SenseIn) : State :=
  let due := (s.hl n).nextOff.filter (fun q => decide (q.1 ≠ x.sweep) && decide (q.2.1 / 256 = x.kind))
  let s := s.updHl n (fun h => { h with nextOff := h.nextOff.filter (fun q => !(decide (q.1 ≠ x.sweep) && decide (q.2.1 / 256 = x.kind))) })
  due.foldl (fun s q => s.putDram (s.offAddr n x.kind (q.2.1 % 256)) (leBytes 2 (unsignOf 16 q.2.2))) s

/-- An emitter's deviation in mV from its baseline, its block's offset removed; a fraction of a mV is rounded down, so that a negative
deviation counts as the next larger one (DESIGN CHOICE, log 168). -/
def State.devMv (s : State) (n : Nat) (x : SenseIn) (i : Nat) : Option Int :=
  let off := signOf 16 (s.loadN (s.offAddr n x.kind (16 * (i / 16384) + i % 512 / 32)) 2)
  (s.devCode n x i).map (fun d => (d - off) * (s.vfLsb n : Nat) / 1000)

/-- The latest code of pixel (x, y): of the chunk in hand, else of the last sweep that measured it (log 154). -/
def State.neighCode (s : State) (n : Nat) (x : SenseIn) (q : Nat × Nat) : Option Nat :=
  let i := 512 * q.2 + q.1
  if q.2 / 32 = x.chunk then (x.at_ i).bind codeOf
  else
    match tabGet (fun _ => 0) (s.hl n).latest (emKey x.kind i) with
    | 0 => none
    | c + 1 => some c

/-- The other emitters of the 3 × 3 neighbourhood of (x, y) within the tile. -/
def around (x y : Nat) : List (Nat × Nat) :=
  ((List.range 9).filter (fun k => k ≠ 4 && 1 ≤ x + k % 3 && x + k % 3 ≤ 512 && 1 ≤ y + k / 3 && y + k / 3 ≤ 512)).map
    (fun k => (x + k % 3 - 1, y + k / 3 - 1))

/-- An emitter's code against the median of the codes around it, in mV; none where no neighbour has one. -/
def State.neighMv (s : State) (n : Nat) (x : SenseIn) (i c : Nat) : Option Nat :=
  let l := (around (i % 512) (i / 512)).filterMap (s.neighCode n x)
  if l.isEmpty then none else some (((c : Int) - medianI (l.map Int.ofNat)).natAbs * s.vfLsb n / 1000)

/-- The class of an emitter. OPEN or SHORT is class 3 while HCFLAGS bit 1 is 0 (DESIGN CHOICE, log 169). -/
def State.classOf (s : State) (n : Nat) (x : SenseIn) (i : Nat) : Nat :=
  let (sus, fail, neigh, fl) := s.hcfg
  match x.at_ i with
  | none => 3
  | some r =>
    match codeOf r, s.devMv n x i with
    | some c, some d =>
      let far := fl.testBit 0 && decide (neigh ≤ (s.neighMv n x i c).getD 0) && (s.neighMv n x i c).isSome
      if fail ≤ d.natAbs then 2 else if sus ≤ d.natAbs ∨ far then 1 else 0
    | _, _ => if fl.testBit 1 then 2 else 3

/-- A baseline run's record of one emitter: the last result of either sweep. -/
def BaseRun.take (b : BaseRun) (key : Nat) (second : Bool) (c : Nat) : BaseRun :=
  if second then { b with second := tabSet (fun _ => 0) b.second key (c + 1) }
  else { b with first := tabSet (fun _ => 0) b.first key (c + 1) }

/-- The emitters of kind k with both results: their keys and the two codes. -/
def BaseRun.pairs (b : BaseRun) (k : Nat) : List (Nat × Nat × Nat) :=
  b.second.filterMap (fun q =>
    match tabGet (fun _ => 0) b.first q.1 with
    | 0 => none
    | f + 1 => if q.1 / 262144 = k then some (q.1, f, q.2 - 1) else none)

/-- How far the two codes lie apart. -/
def codeDiff (q : Nat × Nat × Nat) : Nat := max q.2.1 q.2.2 - min q.2.1 q.2.2

/-- Do more than 1 % of a kind's measured emitters disagree? -/
def BaseRun.bad (b : BaseRun) (limit k : Nat) : Bool :=
  let l := b.pairs k
  decide (l.length < 100 * (l.filter (fun q => decide (limit < codeDiff q))).length)

/-- The new baselines of the emitters whose results agree. -/
def BaseRun.codes (b : BaseRun) (limit : Nat) : List (Nat × Nat) :=
  [0, 1].flatMap (fun k => ((b.pairs k).filter (fun q => decide (codeDiff q ≤ limit))).map
    (fun q => (q.1, min q.2.1 q.2.2 + codeDiff q / 2)))

/-- Baseline runs in progress. -/
def State.baseActive (s : State) : State :=
  s.setB fHEALTH_STATUS_BASELINE_ACTIVE ((List.range 4).any (fun n => (s.hl n).base.isSome))

/-- A CAL_REJECT of HEALTH with its event. -/
def State.hlReject (s : State) (data : Nat) : State := s.hlRejected.post evHEALTH_CAL_REJECT srcHEALTH data

/-- The first checkpoint and life record of a replaced tile follow its baseline run (R294). -/
def State.freshDone (s : State) (n : Nat) : State :=
  s.updHl n (fun h => if h.fresh then { h with fresh := false, ckpt := true, lifeDue := 2 } else h)

/-- A baseline run ends. -/
def State.baseEnd (s : State) (n : Nat) (b : BaseRun) : State :=
  let lim := 8000 / max 1 (s.vfLsb n)
  let s := ((s.updHl n (fun h => { h with base := none })).freshDone n).baseActive
  match [0, 1].find? (b.bad lim) with
  | some k => s.hlReject (2 ^ 31 + 2 ^ 29 * n + 2 ^ 28 * k)
  | none =>
    let s := (b.codes lim).foldl (fun s q => s.putDram (s.baseAddr n (q.1 / 262144) (q.1 % 262144)) (leBytes 2 q.2)) s
    let s := s.putDram (s.offAddr n 0 0) (List.replicate 0x400 0)
    let s := s.updHl n (fun h => { h with med := [], nextOff := [] })
    s.hlEv evHEALTH_BASELINE_DONE n 0

/-- A chunk's part in a baseline run; the last chunk of the last sweep ends it, unless it is sensed again. -/
def State.baseChunk (s : State) (n : Nat) (x : SenseIn) : State :=
  match x.step, (s.hl n).base with
  | some st, some b =>
    let idx := (List.range 16384).map (· + 16384 * x.chunk)
    let b := idx.foldl (fun b i => match (x.at_ i).bind codeOf with
      | some c => b.take (emKey x.kind i) (st % 2 = 1) c
      | none => b) b
    let s := s.updHl n (fun h => { h with base := some b })
    if x.chunk = 15 ∧ x.again = false ∧ st + 1 = s.baseSweeps n then s.baseEnd n b else s
  | _, _ => s

/-- The end of a sweep: CAL_REJECT with the number of blocks rejected. -/
def State.sweepEnd (s : State) (n kind : Nat) : State :=
  let r := (s.hl n).rejects.length
  let s := if 0 < r then s.post evHEALTH_CAL_REJECT srcHEALTH (2 ^ 29 * n + 2 ^ 28 * kind + r % 512) else s
  s.updHl n (fun h => { h with rejects := [] })

/-- Ranges of the work area are read: true when a word of them is lost (R387). -/
def State.tabsLost (s : State) (l : List (Nat × Nat)) : Bool × State :=
  l.foldl (fun (u, s) q => let (v, s) := s.checkRange q.1 q.2; (u || v, s)) (false, s)

/-- What the health program reads of the tables for a chunk: states, baselines and offsets of its emitters. -/
def State.chunkTabs (s : State) (n : Nat) (x : SenseIn) : List (Nat × Nat) :=
  [(s.stateAddr n x.kind (16384 * x.chunk), 4096), (s.baseAddr n x.kind (16384 * x.chunk), 32768), (s.offAddr n x.kind (16 * x.chunk), 32)]

/-- The health program's work on one chunk of tile n; one whose tables have lost a word is not measured (log 181). -/
def State.classChunk (s : State) (n : Nat) (x : SenseIn) : State :=
  let (u, s) := (s.offApply n x).tabsLost ((s.offApply n x).chunkTabs n x)
  let x := if u then { x with res := none } else x
  let idx := (List.range 16384).map (· + 16384 * x.chunk)
  let cls := idx.map (s.classOf n x)
  let s := s.putDram (s.classAddr n) ((List.range 4096).map (fun b =>
    BitVec.ofNat 8 (((List.range 4).map (fun k => cls.getD (4 * b + k) 3 * 4 ^ k)).sum)))
  let s := if x.res.isSome then (List.range 16).foldl (fun s b => s.offBlock n x (16 * x.chunk + b)) s else s
  let s := s.baseChunk n x
  let cand := (idx.zip cls).filterMap (fun q => if q.2 = 2 then some (emKey x.kind q.1) else none)
  let lat := (idx.filterMap (fun i => ((x.at_ i).bind codeOf).map (fun c => (emKey x.kind i, c + 1))))
  let s := s.updHl n (fun h => { h with latest := lat.foldl (fun t q => tabSet (fun _ => 0) t q.1 q.2) h.latest,
                                        cands := h.cands ++ cand,
                                        classed := if x.step.isSome then none else some (x.sweep, x.chunk, x.kind) })
  if x.chunk = 15 ∧ x.again = false then s.sweepEnd n x.kind else s

/-! ### Darn (R278 to R284) -/

/-- A record in its tile's DRAM table. -/
def State.recAt (s : State) (n k i : Nat) : Nat := s.loadN (s.recTable n k + 8 * i) 8
def State.putRec (s : State) (n k i w : Nat) : State := s.putDram (s.recTable n k + 8 * i) (leBytes 8 w)
def State.markDead (s : State) (n k i : Nat) (fill : Bool) : State :=
  s.putRec n k i (s.recAt n k i ||| (if fill then 0x11 else 0x01))

/-- What Darn does with a failed emitter. -/
inductive DarnAct where
  | subst | dead (kind : Nat) | lost (kind : Nat) | wait
deriving DecidableEq, Repr

def State.darnAct (s : State) (n k i : Nat) : DarnAct :=
  let active := s.selBit n i
  if k ≠ active then .lost k
  else if k = 1 then .dead 1
  else if s.hasSpares n = false then .dead 0
  else
    let o := s.emState n 1 i
    if o = emOK then .subst else if o = emFAILED then .dead 0 else .wait

/-- An entry of an update list (R176). -/
def updEntryBytes (sel : Bool) (i w : Nat) : List Byte :=
  leBytes 4 (2 ^ 31 + (if sel then 2 ^ 30 else 0) + i) ++ leBytes 4 0 ++ leBytes 8 w

/-- DARN_BUSY. -/
def State.darnBusy (s : State) : State :=
  s.setB fHEALTH_STATUS_DARN_BUSY ((List.range 4).any (fun n => !(s.hl n).list.isEmpty))

/-- UPD_CMD = COMMIT of tile n (R176, R189). -/
def State.updCommitOp (s : State) (n : Nat) : State :=
  if s.updBusy n then s.updError n 1 false
  else
    let base := s.regN (rPRESS_UPD_LIST_LO n) + 2 ^ 32 * (s.regN (rPRESS_UPD_LIST_HI n) % 256)
    let len := s.regN (rPRESS_UPD_LEN n) % 2 ^ 19
    let s := s.updPr n (fun p => { p with updBase := base, updLen := len, updNext := 0 })
    (s.setRegN (rPRESS_UPD_STATUS n) 0).setF (fPRESS_UPD_STATUS_STATE n) updPENDING

/-- Groups of one entry each are committed to Press. -/
def State.darnCommit (s : State) (n : Nat) (gs : List (Nat × Bool × Nat)) : State :=
  if gs.isEmpty then s
  else
    let s := s.putDram (s.listAddr n) (gs.flatMap (fun g => updEntryBytes g.2.1 g.1 g.2.2))
    let s := s.setRegN (rPRESS_UPD_LIST_LO n) (s.listAddr n % 2 ^ 32)
    let s := s.setRegN (rPRESS_UPD_LIST_HI n) (s.listAddr n / 2 ^ 32)
    let s := (s.setRegN (rPRESS_UPD_LEN n) gs.length).updCommitOp n
    (s.updHl n (fun h => { h with list := gs.map (fun g => (g.1, g.2.1)), groups := h.groups + gs.length })).darnBusy

/-- Failures that need no group: the failed emitter is not the active one. -/
def State.darnLost (s : State) (n k i : Nat) : State :=
  let s := s.markDead n k i false
  if k = 1 then s.hlEv evHEALTH_SPARE_LOST n i else s

/-- A pixel is marked dead by its emitter k (R282); one that its spare lit is so no more. -/
def State.darnDead (s : State) (n k i : Nat) : State :=
  let s := (s.markDead n k i (s.isF fHEALTH_DARN_CFG_FILL_ON_DEAD)).hlEv evHEALTH_DARN_DEAD n i
  (if k = 1 then s.count1 (some (rHEALTH_SUBST n)) false else s).count1 (some (rHEALTH_DEAD n)) true

/-- What Darn does with a failed active emitter of pixel i, and the group of it: pixel, selection, active record. -/
def State.darnGroup (s : State) (n i : Nat) : DarnAct → (Nat × Bool × Nat) × State
  | .dead k =>
    let s := s.darnDead n k i
    ((i, false, s.recAt n k i), s)
  | _ =>
    let s := s.markDead n 0 i false
    ((i, true, s.recAt n 1 i), s)

/-- Darn acts on the failures it holds of tile n, in pixel order, within MAX_PER_SWEEP; a commit that Press cannot take is
repeated at the next update window. -/
def State.darnRun (s : State) (n : Nat) : State :=
  let h := s.hl n
  if s.isF fHEALTH_DARN_CFG_EN = false ∨ h.base.isSome then s
  else
    let acts := (h.todo ++ h.wait.filter (fun q => decide (s.darnAct n 0 (q % 262144) ≠ .wait))).map
      (fun q => (q, s.darnAct n (q / 262144) (q % 262144)))
    let waits := acts.filterMap (fun a => if a.2 = .wait then some a.1 else none)
    let lost := acts.filter (fun a => match a.2 with | .lost _ => true | _ => false)
    let need := (acts.filter (fun a => match a.2 with | .subst => true | .dead _ => true | _ => false)).mergeSort
      (fun a b => a.1 % 262144 ≤ b.1 % 262144)
    let s := lost.foldl (fun s a => s.darnLost n (a.1 / 262144) (a.1 % 262144)) s
    let stay := h.wait.filter (fun q => decide (s.darnAct n 0 (q % 262144) = .wait))
    let room := s.getF fHEALTH_DARN_CFG_MAX_PER_SWEEP - h.groups
    if need.isEmpty ∨ room = 0 then s.updHl n (fun h => { h with todo := need.map Prod.fst, wait := stay ++ waits })
    else if s.updBusy n then
      (s.updHl n (fun h => { h with todo := need.map Prod.fst, wait := stay ++ waits, again := true })).updError n 1 false
    else
      let s := s.updHl n (fun h => { h with todo := (need.drop room).map Prod.fst, wait := stay ++ waits, again := false })
      let r := (need.take room).foldl (fun (a : List (Nat × Bool × Nat) × State) q =>
        let g := a.2.darnGroup n (q.1 % 262144) q.2
        (a.1 ++ [g.1], g.2)) ([], s)
      r.2.darnCommit n r.1

/-- A failed emitter of pixel i enters the life record, or has no room there (R291, log 159). -/
def State.lrTake (s : State) (n i : Nat) : State :=
  let l := (s.hl n).lrPix
  if l.contains i then s
  else if l.length < 4096 then s.updHl n (fun h => { h with lrPix := h.lrPix ++ [i] })
  else s.setF (fHEALTH_EOL_LR_FULL n) 1

/-- A failure is confirmed. -/
def State.darnConfirm (s : State) (n k i : Nat) : State :=
  let s := ((s.setEm n k i emFAILED).hlEvOnce evHEALTH_EMITTER_FAILED n (2 ^ 29 * k + i)).lrTake n i
  s.updHl n (fun h => { h with failed := h.failed + 1, todo := h.todo ++ [emKey k i], new := h.new ++ [emKey k i],
                               marks := h.marks.filter (· ≠ emKey k i), lifeDue := max h.lifeDue 1 })

/-- One emitter of a classified chunk (R278). -/
def State.darnEmitter (s : State) (n k i cls : Nat) : State :=
  let st := s.emState n k i
  let key := emKey k i
  let mark := (s.hl n).marks.contains key
  let clear := fun (s : State) => s.updHl n (fun h => { h with marks := h.marks.filter (· ≠ key) })
  let set_ := fun (s : State) => s.updHl n (fun h => { h with marks := h.marks.filter (· ≠ key) ++ [key] })
  if cls = 3 ∨ st = emFAILED then s
  else if cls = 0 then clear (s.setEm n k i emOK)
  else if cls = 1 then clear (s.setEm n k i emSUSPECT)
  else if st = emSUSPECT ∧ mark then s.darnConfirm n k i
  else set_ (s.setEm n k i emSUSPECT)

/-- More failures in the sweep than MASS_LIMIT: those of the sweep that Darn has not acted on are withheld (log 156). -/
def State.darnMass (s : State) (n : Nat) : State :=
  let h := s.hl n
  if h.failed ≤ s.getF fHEALTH_DARN_CFG_MASS_LIMIT then s
  else
    let mine := (h.todo ++ h.wait).filter (fun q => h.new.contains q)
    let keep := fun (l : List Nat) => l.filter (fun q => !h.new.contains q)
    let s := s.updHl n (fun h => { h with held := h.held ++ mine, todo := keep h.todo, wait := keep h.wait, mass := true })
    if h.mass then s
    else (s.raise fHEALTH_STATUS_MASS_FAIL rHEALTH_MASS_FAIL_COUNT).hlEv evHEALTH_MASS_FAIL n (satAt 0x3FFFF h.failed)

/-- Darn's work on the chunk of tile n last classified; nothing where a word of the classes or states is lost (log 181). -/
def State.darnChunk (s : State) (n : Nat) : State :=
  match (s.hl n).classed with
  | none => s
  | some (sw, c, k) =>
    let s := s.updHl n (fun h =>
      if h.inSweep = sw then { h with classed := none } else
        { h with classed := none, inSweep := sw, failed := 0, groups := 0, new := [], mass := false })
    if (s.hl n).base.isSome then s
    else
      let (u, s) := s.tabsLost [(s.classAddr n, 4096), (s.stateAddr n k (16384 * c), 4096)]
      if u then s
      else
        let s := (List.range 16384).foldl (fun s j =>
          s.darnEmitter n k (16384 * c + j) (bitsOf (s.loadN (s.classAddr n + j / 4) 1) (2 * (j % 4)) 2)) s
        (s.darnMass n).darnRun n

/-- A chunk of tile n is classified, fence 4 is signalled, and Darn takes it up at that increment (R123, R278). -/
def State.healthChunk (s : State) (n : Nat) (x : SenseIn) : State := ((s.classChunk n x).signal 4 1).darnChunk n

/-- Is `x` the chunk of tile n's light frame now lit? It waits for the end of that frame, since the frame may still be torn (R123). -/
def State.ofLitFrame (s : State) (n : Nat) (x : SenseIn) : Bool :=
  decide (tgRUNNING ≤ s.tgState n) && x.frame == s.regN (rTG_FRAME_COUNT n)

/-- The end of a sweep: the candidate list is announced and emptied (DESIGN CHOICE, log 170). -/
def State.sweepCands (s : State) (e n : Nat) : State :=
  (s.updHl n (fun h => { h with cands := [] })).post evBE_HEALTH_CANDIDATES e (s.hl n).cands.length

/-- A job of the health program: the oldest chunk of each tile, where it is the engine's (`mine` tile chunk). -/
def State.healthJob (s : State) (e : Nat) (mine : Nat → Nat → Bool) : State :=
  (List.range 4).foldl (fun s n =>
    match (s.hl n).intake with
    | [] => s
    | x :: t =>
      if mine n x.chunk = false ∨ s.ofLitFrame n x then s
      else
        let s := (s.updHl n (fun h => { h with intake := t })).healthChunk n x
        if x.chunk = 15 ∧ x.again = false then s.sweepCands e n else s) s

/-- After an update window: a list that is done, or has ended, is Darn's no more; a refused commit is repeated. -/
def State.darnWindow (s : State) (n : Nat) : State :=
  let st := s.getF (fPRESS_UPD_STATUS_STATE n)
  let h := s.hl n
  let s :=
    if h.list.isEmpty ∨ st = updPENDING ∨ st = updAPPLYING then s
    else
      let subst := h.list.filterMap (fun q => if q.2 then some q.1 else none)
      let f := if st = updDONE then some (s.regN (rPRESS_UPD_FRAME n)) else none
      (s.updHl n (fun h =>
        { h with list := [], flying := if st = updDONE then h.flying ++ subst else h.flying,
                 flyFrame := if st = updDONE then f else h.flyFrame })).darnBusy
  if (s.hl n).again then s.darnRun n else s

/-- A transfer frame has been shown: substitutions in flight are done (R281). -/
def State.darnShown (s : State) (n frame16 : Nat) : State :=
  let h := s.hl n
  let reached := match h.flyFrame with
    | none => true
    | some f => decide ((frame16 + 65536 - f % 65536) % 65536 < 32768)
  if h.flying.isEmpty ∨ reached = false then s
  else
    let s := h.flying.foldl (fun s i => (s.hlEv evHEALTH_DARN_SUBST n i).count1 (some (rHEALTH_SUBST n)) true) s
    s.updHl n (fun h => { h with flying := [] })

/-- The port has gone down between commit and swap: the selection map takes the substitutions (R297); a chunk that was awaited is
unmeasured. -/
def State.darnPortDown (s : State) (n : Nat) : State :=
  let s := s.hlClose n
  let h := s.hl n
  let subst := h.list.filterMap (fun q => if q.2 then some q.1 else none)
  let next := (s.pr n).updNext
  let left := (h.list.drop next).filterMap (fun q => if q.2 then some q.1 else none)
  let s := if h.list.isEmpty then s else (left.foldl (fun s i => s.setSel n i 1) s).setF (fPRESS_UPD_STATUS_STATE n) updCANCELLED
  (s.updHl n (fun h => { h with list := [], flying := h.flying ++ subst, flyFrame := none })).darnBusy

/-- Withheld failures are released: no longer failures that MASS_LIMIT withholds; the count of the sweep stands (R283). -/
def State.darnRelease (s : State) : State :=
  (List.range 4).foldl (fun s n =>
    let s := s.updHl n (fun h =>
      { h with todo := h.held ++ h.todo, held := [], new := h.new.filter (fun q => !h.held.contains q) })
    s.darnRun n) s

/-! ### Aging accounts and gains (R285, R286, R293) -/

/-- The aging curve of a tile: that of its type, by the type's place in BOARD. -/
def State.agingCurve (s : State) (n : Nat) : List Nat :=
  let all := s.loader.cfg.li.flatMap (fun q => q.2.agingCurves)
  let types := s.loader.cfg.bd.tileTypes.flatten.map (fun t => (t.vendor, t.typ))
  let uniq := types.eraseDups
  let k := match s.caps n with
    | some c => uniq.findIdx (fun t => t == (c.vendor, c.typ))
    | none => 0
  all.getD k (all.getD 0 [])

/-- Relative efficiency at an account of `a` µs. -/
def efficiency (curve : List Nat) (a : Nat) : Nat :=
  match curve with
  | step :: ks =>
    if step = 0 then ks.getD 32 0x8000
    else
      let k := a / step
      if 32 ≤ k then ks.getD 32 0x8000
      else
        let k0 := ks.getD k 0x8000
        let k1 := ks.getD (k + 1) 0x8000
        k0 - (k0 - k1) * (a % step) / step
  | [] => 0x8000

/-- The rounded quotient, capped at AGE_MAX; true when it was capped. -/
def ageTarget (num eta ageMax : Nat) : Nat × Bool :=
  let t := (2 * num + max 1 eta) / (2 * max 1 eta)
  (min t ageMax, decide (ageMax < t))

def State.account (s : State) (n k i : Nat) : Nat := s.loadN (s.acctAddr n k i) 8

/-- AGE from an account by the OUTPUT rule. -/
def State.ageOf (s : State) (n a : Nat) : Nat :=
  (ageTarget (2048 * 32768) (efficiency (s.agingCurve n) a) (s.getF fHEALTH_AGING_CFG_AGE_MAX)).1

def State.kinds (s : State) (n : Nat) : List Nat := if s.hasSpares n then [0, 1] else [0]

/-- Efficiency of the lamp's active emitters that are not dead. -/
def State.activeEtas (s : State) : List Nat :=
  (List.range s.tiles).flatMap (fun n => (List.range 262144).filterMap (fun i =>
    let k := s.selBit n i
    if (s.recAt n k i).testBit 0 then none else some (efficiency (s.agingCurve n) (s.account n k i))))

/-- η_ref of the UNIFORM strategy. -/
def State.etaRef (s : State) : Nat := (s.activeEtas.mergeSort (· ≤ ·)).getD (s.getF fHEALTH_AGING_CFG_UNIFORM_EXCL) 0x8000

/-- The conversion of one emitter; 1 when it counts in SHORTFALL. -/
def State.convertOne (s : State) (n k i num etaRef : Nat) (uniform : Bool) : Nat × State :=
  let eta := efficiency (s.agingCurve n) (s.account n k i)
  let (t, cap) := ageTarget num eta (s.getF fHEALTH_AGING_CFG_AGE_MAX)
  let w := s.recAt n k i
  let (a, _) := ageStep (bitsOf w 36 12) t
  let short := cap && decide (k = s.selBit n i) && (!uniform || (decide (eta < etaRef) && !w.testBit 0))
  (short.toNat, s.putRec n k i (putBits w 36 12 a))

/-- One end-of-life indicator: its measure against WARN and END, each as a comparison already made. -/
def State.eolOne (s : State) (n bit : Nat) (warn fin : Bool) : State :=
  let o := rHEALTH_EOL n
  let s :=
    if (warn || fin) ∧ (s.regN o).testBit bit = false then
      let s := s.setF ⟨o, bit, 1⟩ 1
      let s := if s.getF (fHEALTH_EOL_LEVEL n) = 0 then s.setF (fHEALTH_EOL_LEVEL n) 1 else s
      (s.setF fHEALTH_STATUS_EOL_WARN 1).hlEv evHEALTH_EOL_WARN n bit
    else s
  if fin ∧ (s.regN o).testBit (4 + bit) = false then
    let s := (s.setF ⟨o, 4 + bit, 1⟩ 1).setF (fHEALTH_EOL_LEVEL n) 2
    let s := s.updHl n (fun h => { h with eolFlags := h.eolFlags ||| 2 ^ bit })
    (s.setF fHEALTH_STATUS_EOL_END 1).hlEv evHEALTH_EOL_END n bit
  else s

/-- The mean account of the tile's active emitters, µs. -/
def State.meanActive (s : State) (n : Nat) : Nat :=
  ((List.range 262144).map (fun i => s.account n (s.selBit n i) i)).sum / 262144

/-- The indicators of tile n. -/
def State.eolTile (s : State) (n : Nat) : State :=
  let rated := match s.caps n with | some c => c.ratedLife | none => 0
  let life := if rated = 0 then 0 else 1000 * s.meanActive n / (3600000000 * rated)
  let s := s.setRegN (rHEALTH_LIFE_USED n) (satAt 0xFFFF life)
  let sh := s.regN (rHEALTH_SHORTFALL n)
  let st := s.regN (rHEALTH_FAILED_P n) + s.regN (rHEALTH_FAILED_S n)
  let dd := s.regN (rHEALTH_DEAD n)
  let s := s.eolOne n 0 (10 * s.getF fHEALTH_EOL_CFG_0_LIFE_WARN ≤ life) (10 * s.getF fHEALTH_EOL_CFG_0_LIFE_END ≤ life)
  let s := s.eolOne n 1 (262144 * s.getF fHEALTH_EOL_CFG_0_SHORT_WARN ≤ 1000 * sh)
    (262144 * s.getF fHEALTH_EOL_CFG_0_SHORT_END ≤ 1000 * sh)
  let s := s.eolOne n 2 (3072 ≤ st) (4096 ≤ st)
  s.eolOne n 3 (s.getF fHEALTH_EOL_CFG_1_DEAD_WARN ≤ dd) (s.getF fHEALTH_EOL_CFG_1_DEAD_END ≤ dd)

/-- The accounts and the records of tile n. -/
def State.acctTabs (s : State) (n : Nat) : List (Nat × Nat) :=
  (s.kinds n).flatMap (fun k => [(s.acctAddr n k 0, 0x200000), (s.recTable n k, 0x200000)])

/-- A conversion of every account (R286), then the indicators (R293). -/
def State.convertAll (s : State) : State :=
  let uniform := s.isF fHEALTH_AGING_CFG_STRATEGY
  let ref := s.etaRef
  let num := if uniform then 2048 * ref else 2048 * 32768
  (List.range s.tiles).foldl (fun s n =>
    let (k, s) := ((s.kinds n).flatMap (fun k => (List.range 262144).map (fun i => (k, i)))).foldl
      (fun (a : Nat × State) q =>
        let (c, s) := a.2.convertOne n q.1 q.2 num ref uniform
        (a.1 + c, s)) (0, s)
    (s.setRegN (rHEALTH_SHORTFALL n) (satAt 0x3FFFF k)).eolTile n) s

/-- A conversion; none where a word of the accounts or records is lost (log 181). -/
def State.agingConvert (s : State) : State :=
  let (u, s) := s.tabsLost ((List.range s.tiles).flatMap s.acctTabs)
  if u then s else s.convertAll

/-! ### Lit time and checkpoints (R287 to R289) -/

/-- A light frame of drive interval `d` ns has been lit. -/
def State.litFrame (s : State) (n d : Nat) : State :=
  let s := s.updHl n (fun h => { h with litNs := h.litNs + d, ckNs := h.ckNs + d, deltaNs := h.deltaNs + d })
  s.setRegN (rHEALTH_LIT_S n) ((s.hl n).litNs / 1000000000 % 2 ^ 32)

def State.shed (s : State) : Nat := s.getF fTOP_MC_LOAD_SHED_LEVEL

/-- The account store's bytes; an unwritten byte is erased. -/
def State.storeBytes (s : State) (a n : Nat) : List Byte := tabRange (fun _ => 0xFF#8) s.store a n
def State.putStore (s : State) (a : Nat) (bs : List Byte) : State := { s with store := tabPutAll (fun _ => 0xFF#8) s.store a bs }

/-- Where copy `half` of tile n's full checkpoint and delta entry e lie. -/
def ckptAt (n half : Nat) : Nat := 0x301000 * (2 * n + half)
def deltaAt (e : Nat) : Nat := 8 * 0x301000 + 0x4000 * (e % 256)

def us64 (a : Nat) : Nat := satAt 0xFFFFFFFF (a / 64)

/-- TILE_ID of the tile last accepted on port n. -/
def State.tileId (s : State) (n : Nat) : Nat := match s.caps n with | some c => c.tileId | none => 0

/-- Mean account of a block and kind in 64 µs units. -/
def State.blockMean (s : State) (n k b : Nat) : Nat := ((blockPixels b).map (fun i => us64 (s.account n k i))).sum / 1024

/-- A full checkpoint of tile n with sequence `seq`. -/
def State.ckptBytes (s : State) (n seq : Nat) : List Byte :=
  let body := ([0, 1].flatMap (fun k => (List.range 262144).flatMap (fun i => leBytes 4 (us64 (s.account n k i)))))
    ++ [0, 1].flatMap (fun k => s.bytes (s.baseAddr n k 0) 0x80000)
  let head := leBytes 8 (s.tileId n) ++ leBytes 4 seq ++ leBytes 4 ((s.hl n).litNs / 1000000000)
  let pad := List.replicate (4096 - 20) (0 : Byte)
  head ++ leBytes 4 (crc32c (head ++ pad ++ body)) ++ pad ++ body

/-- Has no byte of the range ever been written? An erased record fails its CRC. -/
def State.storeBlank (s : State) (a n : Nat) : Bool := s.store.all (fun c => decide (c.1 < a) || decide (a + n ≤ c.1))

/-- Is copy `half` of tile n's checkpoint valid: its TILE_ID and sequence. -/
def State.ckptHead (s : State) (n half : Nat) : Option (Nat × Nat) :=
  if s.storeBlank (ckptAt n half) 0x301000 then none
  else
    let b := s.storeBytes (ckptAt n half) 0x301000
    if ofLe ((b.drop 16).take 4) = crc32c (b.take 16 ++ b.drop 20) then some (ofLe (b.take 8), ofLe ((b.drop 8).take 4)) else none

/-- The newest valid full checkpoint of tile n: its copy, TILE_ID and sequence. -/
def State.ckptNewest (s : State) (n : Nat) : Option (Nat × Nat × Nat) :=
  match s.ckptHead n 0, s.ckptHead n 1 with
  | some a, some b => if a.2 < b.2 then some (1, b) else some (0, a)
  | some a, none => some (0, a)
  | none, some b => some (1, b)
  | none, none => none

/-- The sequence number of the next full checkpoint of tile n, and the copy it is written to: the one that is not the newest. -/
def State.ckptNext (s : State) (n : Nat) : Nat × Nat :=
  match s.ckptNewest n with
  | some (half, _, seq) => (seq + 1, 1 - half)
  | none => (1, 1)

/-- What a checkpoint of tile n holds. -/
def State.ckptTabs (s : State) (n : Nat) : List (Nat × Nat) := [(s.acctAddr n 0 0, 0x400000), (s.baseAddr n 0 0, 0x100000)]

/-- A full checkpoint is written to the older copy. -/
def State.ckptPut (s : State) (n : Nat) : State :=
  let (seq, half) := s.ckptNext n
  let s := s.putStore (ckptAt n half) (s.ckptBytes n seq)
  let means := [0, 1].flatMap (fun k => (List.range 256).map (fun b => (256 * k + b, s.blockMean n k b)))
  let s := s.updHl n (fun h => { h with ckpt := false, ckSeq := seq, ckMean := means, ckNs := 0, lifeDue := 2 })
  s.hlEv evHEALTH_CKPT_DONE n (seq % 65536)

/-- A checkpoint; none is written where a word of what it holds is lost (log 181). -/
def State.ckptWrite (s : State) (n : Nat) : State :=
  let (u, s) := s.tabsLost (s.ckptTabs n)
  if u then s else s.ckptPut n

/-- Delta entry e, if its CRC holds: its number and its bytes. -/
def State.deltaEntry (s : State) (e : Nat) : Option (Nat × List Byte) :=
  if s.storeBlank (deltaAt e) 8264 then none
  else
    let b := s.storeBytes (deltaAt e) 8264
    if ofLe (b.drop 8260) = crc32c (b.take 8260) then some (ofLe ((b.drop 8256).take 4), b) else none

/-- The newest delta entry's number. -/
def State.deltaSeq (s : State) : Nat :=
  (List.range 256).foldl (fun m e => match s.deltaEntry e with | some x => max m x.1 | none => m) 0

/-- A delta entry is put into the ring (R288). -/
def State.deltaPut (s : State) : State :=
  let q := s.deltaSeq + 1
  let body := (List.range 4).flatMap (fun n =>
    let h := s.hl n
    leBytes 8 (s.tileId n) ++ leBytes 4 h.ckSeq ++ leBytes 4 (h.litNs / 1000000000)
      ++ [0, 1].flatMap (fun k => (List.range 256).flatMap (fun b =>
        leBytes 4 (s.blockMean n k b - ((h.ckMean.find? (fun m => m.1 = 256 * k + b)).map Prod.snd).getD 0))))
  let b := body ++ leBytes 4 q
  let s := s.putStore (deltaAt q) (b ++ leBytes 4 (crc32c b))
  ((List.range 4).foldl (fun s n => s.updHl n (fun h => { h with deltaNs := 0 })) s).updHk (fun h => { h with deltaDue := false })

/-- A delta entry; none is written where a word of the accounts is lost (log 181). -/
def State.deltaWrite (s : State) : State :=
  let (u, s) := s.tabsLost ((List.range 4).map (fun n => (s.acctAddr n 0 0, 0x400000)))
  if u then s else s.deltaPut

/-- Tile n's part of the newest valid delta entry that extends checkpoint `seq` of tile `id`. -/
def State.deltaFor (s : State) (n id seq : Nat) : Option (List Byte) :=
  let best := (List.range 256).foldl (fun (m : Option (Nat × List Byte)) e =>
    match s.deltaEntry e with
    | none => m
    | some (q, b) =>
      let part := (b.drop (2064 * n)).take 2064
      let newer : Bool := match m with | some x => decide (x.1 < q) | none => true
      if ofLe (part.take 8) = id ∧ ofLe ((part.drop 8).take 4) = seq ∧ newer then some (q, part) else m) none
  best.map Prod.snd

/-- A block's account increase since the checkpoint, 64 µs units. -/
def deltaOf (d : Option (List Byte)) (k b : Nat) : Nat :=
  match d with
  | some p => ofLe ((p.drop (16 + 4 * (256 * k + b))).take 4)
  | none => 0

/-- Account of emitter (k, i) in a checkpoint, 64 µs units. -/
def State.ckptAcct (s : State) (n half k i : Nat) : Nat := ofLe (s.storeBytes (ckptAt n half + 4096 + 4 * (emKey k i)) 4)

/-- A block's account in copy `half` with the increase `d`, in µs (R289). -/
def State.blockAcctIn (s : State) (n half : Nat) (d : Option (List Byte)) (k b : Nat) : Nat :=
  64 * (((blockPixels b).map (fun i => s.ckptAcct n half k i)).sum / 1024 + deltaOf d k b)

/-- Each block's account from the store in µs (R289). -/
def State.blockAcct (s : State) (n k b : Nat) : Nat :=
  match s.ckptNewest n with
  | none => 0
  | some (half, id, seq) => s.blockAcctIn n half (s.deltaFor n id seq) k b

/-- Block of a pixel. -/
def blockOf (i : Nat) : Nat := 16 * (i / 512 / 32) + i % 512 / 32

/-- Tile n goes on from its newest full checkpoint: its sequence, its block means, the lit seconds of it and of its deltas; the
per-emitter accounts are still to be loaded. -/
def State.ckptTake (s : State) (n : Nat) : State :=
  match s.ckptNewest n with
  | none => s
  | some (half, id, seq) =>
    let lit := ofLe (s.storeBytes (ckptAt n half + 12) 4)
    let lit := match s.deltaFor n id seq with | some p => max lit (ofLe ((p.drop 12).take 4)) | none => lit
    let means := [0, 1].flatMap (fun k => (List.range 256).map (fun b =>
      (256 * k + b, ((blockPixels b).map (fun i => s.ckptAcct n half k i)).sum / 1024)))
    let s := s.updHl n (fun h => { h with ckSeq := seq, ckMean := means, litNs := max h.litNs (1000000000 * lit), accOk := false })
    s.setRegN (rHEALTH_LIT_S n) ((s.hl n).litNs / 1000000000 % 2 ^ 32)

/-- The per-emitter accounts and baselines of tile n are loaded; what has been counted since start is added. -/
def State.acctRestore (s : State) (n : Nat) : State :=
  match s.ckptNewest n with
  | none => s
  | some (half, id, seq) =>
    let d := s.deltaFor n id seq
    let s := (s.kinds n).foldl (fun s k =>
      let at0 := (List.range 256).map (fun b => s.blockAcctIn n half d k b)
      (List.range 262144).foldl (fun s i =>
      let b := blockOf i
      let since := s.account n k i - nth 0 at0 b
      s.putDram (s.acctAddr n k i) (leBytes 8 (64 * (s.ckptAcct n half k i + deltaOf d k b) + since))) s) s
    let s := (s.kinds n).foldl (fun s k =>
      s.putDram (s.baseAddr n k 0) (s.storeBytes (ckptAt n half + 4096 + 0x200000 + 0x80000 * k) 0x80000)) s
    s.updHl n (fun h => { h with accOk := true })

/-! ### The life record (R290 to R292) -/

/-- Seconds of link. -/
def State.linkS (s : State) (n : Nat) : Nat :=
  let h := s.hl n
  (h.linkNs + match h.linkFrom with | some t => (s.time.now - t) * 5 / 4 | none => 0) / 1000000000

/-- Failed emitters by pixel, as state entries, ascending: of the pixels that have a place in the record. -/
def State.lifeEntries (s : State) (n : Nat) : List Nat :=
  ((s.hl n).lrPix.mergeSort (· ≤ ·)).filterMap (fun i =>
    let p := s.emState n 0 i == emFAILED
    let q := s.hasSpares n && s.emState n 1 i == emFAILED
    if p || q then some (2 ^ 31 * p.toNat + 2 ^ 30 * q.toNat + i) else none)

/-- The bytes of tile n's life record, for the commit that follows. -/
def State.lifeBytes (s : State) (n : Nat) : List Byte :=
  let h := s.hl n
  let ents := s.lifeEntries n
  let acct := fun (k b : Nat) => (blockPixels b).map (fun i => us64 (s.account n k i))
  [0x5A#8, 0x4C#8, 0x52#8, 0x31#8] ++ leBytes 2 1 ++ leBytes 2 ents.length ++ leBytes 4 (h.litNs / 1000000000)
    ++ leBytes 4 (s.linkS n) ++ leBytes 4 (h.commits + 1) ++ leBytes 4 s.loader.img.lampId ++ leBytes 2 (unsignOf 16 h.tMax)
    ++ leBytes 2 h.eolFlags ++ leBytes 4 h.cuts ++ List.replicate 32 0
    ++ (List.range 256).flatMap (fun b => [0, 1].flatMap (fun k =>
      leBytes 4 ((acct k b).sum / 1024) ++ leBytes 4 ((acct k b).foldl max 0)))
    ++ ents.flatMap (leBytes 4)

/-- A half of the store: its sequence number and its words' bytes, when its CRC passes (R265). -/
def lifeHalf (b : List Byte) : Option (Nat × List Byte) :=
  let len := ofLe ((b.drop 2).take 2)
  let words := (b.drop 8).take (4 * len)
  if 8 ≤ b.length ∧ words.length = 4 * len ∧ 0 < len ∧ ofLe ((b.drop 4).take 4) = crc32c words then some (ofLe (b.take 2), words) else none

/-- The valid record of two halves: the newer by signed 16-bit difference. -/
def lifeValid (a b : List Byte) : Option (Nat × List Byte) :=
  match lifeHalf a, lifeHalf b with
  | some x, some y => if 0 < signOf 16 (unsignOf 16 ((y.1 : Int) - x.1)) then some y else some x
  | some x, none => some x
  | none, y => y

/-- Are magic, version and length right (R292)? -/
def lifeOk (w : List Byte) : Bool :=
  w.take 4 == [0x5A#8, 0x4C#8, 0x52#8, 0x31#8] && ofLe ((w.drop 4).take 2) == 1
    && w.length == 4 * (1040 + ofLe ((w.drop 6).take 2)) && ofLe ((w.drop 6).take 2) ≤ 4096

/-- The states of a life record are applied: every emitter UNKNOWN but those it lists (R292). -/
def State.lifeApply (s : State) (n : Nat) (w : List Byte) : State :=
  let s := (s.kinds n).foldl (fun s k => s.putDram (s.stateAddr n k 0) (List.replicate 0x10000 0xFF)) s
  let s := ((s.setRegN (rHEALTH_SUSPECT n) 0).setRegN (rHEALTH_FAILED_P n) 0).setRegN (rHEALTH_FAILED_S n) 0
  let s := (s.setRegN (rHEALTH_SUBST n) 0).setRegN (rHEALTH_DEAD n) 0
  let s := { s with sel := s.sel.filter (fun q => decide (q.1 / 262144 ≠ n)) }
  let s := s.updHl n (fun h => { h with lrPix := [] })
  if w = [] then s
  else
    let k := ofLe ((w.drop 6).take 2)
    let ents := (List.range k).map (fun j => ofLe ((w.drop (0x1040 + 4 * j)).take 4))
    let s := ents.foldl (fun s e =>
      let i := e % 262144
      let p := e.testBit 31
      let q := e.testBit 30
      let s := s.lrTake n i
      let s := if p then (s.setEm n 0 i emFAILED).markDead n 0 i false else s
      let s := if q then (s.setEm n 1 i emFAILED).markDead n 1 i false else s
      if p && !q && s.hasSpares n then (s.setSel n i 1).count1 (some (rHEALTH_SUBST n)) true
      else if p then s.count1 (some (rHEALTH_DEAD n)) true else s) s
    let h := fun (x : HealthT) => { x with litNs := max x.litNs (1000000000 * ofLe ((w.drop 8).take 4)),
                                           linkNs := 1000000000 * ofLe ((w.drop 12).take 4),
                                           commits := ofLe ((w.drop 16).take 4), tMax := signOf 16 (ofLe ((w.drop 24).take 2)),
                                           eolFlags := ofLe ((w.drop 26).take 2), cuts := ofLe ((w.drop 28).take 4) }
    let s := s.updHl n h
    s.setRegN (rHEALTH_LIT_S n) ((s.hl n).litNs / 1000000000 % 2 ^ 32)

/-- A block's mean account of a kind in a life record, µs. -/
def lifeMean (w : List Byte) (k b : Nat) : Nat := 64 * ofLe ((w.drop (0x40 + 16 * b + 8 * k)).take 4)

/-- Eight-byte numbers of a list of bytes. -/
def le64s : List Byte → List Nat
  | a :: b :: c :: d :: e :: f :: g :: h :: t => ofLe [a, b, c, d, e, f, g, h] :: le64s t
  | _ => []

/-- The accounts of kind k of tile n and AGE of its records, from the account of each block; a table that does not lie in DRAM
is left out. -/
def State.ageKind (s : State) (n k : Nat) (acct : List Nat) : State :=
  let age := acct.map (s.ageOf n)
  let s := s.putDram (s.acctAddr n k 0) ((List.range 262144).flatMap (fun i => leBytes 8 (nth 0 acct (blockOf i))))
  let recs := (le64s (s.bytes (s.recTable n k) 0x200000)).zipIdx.map (fun q => putBits q.1 36 12 (nth 0 age (blockOf q.2)))
  s.putDram (s.recTable n k) (recs.flatMap (leBytes 8))

/-- AGE of every record of tile n from its block's account. -/
def State.ageSet (s : State) (n : Nat) (acct : Nat → Nat → Nat) : State :=
  (s.kinds n).foldl (fun s k => s.ageKind n k ((List.range 256).map (acct k))) s

/-! ### CLEAR_STATE and BASELINE -/

/-- CMD = CLEAR_STATE (R279, R283). -/
def State.clearStateOp (s : State) (n k i : Nat) : State :=
  let due := decide (s.emState n k i = emFAILED)
  let s := s.setEm n k i emUNKNOWN
  let rest := s.emState n 0 i == emFAILED || s.hasSpares n && s.emState n 1 i == emFAILED
  let s := if due then s.updHl n (fun h => { h with lifeDue := max h.lifeDue 1, lrPix := if rest then h.lrPix else h.lrPix.filter (· ≠ i) })
    else s
  let s := s.updHl n (fun h => { h with marks := h.marks.filter (· ≠ emKey k i), todo := h.todo.filter (· ≠ emKey k i),
                                        wait := h.wait.filter (· ≠ emKey k i), held := h.held.filter (· ≠ emKey k i) })
  s.darnRelease

/-- CMD = BASELINE: ignored while a run is active on the tile. -/
def State.baselineOp (s : State) (n : Nat) : State :=
  if (s.hl n).base.isSome then s
  else
    (s.updHl n (fun h => { h with base := some { on := decide (s.getF (fTG_SENSE_CFG_CHUNK n) = 0) } })).baseActive.hlShow n

/-- CMD = CHECKPOINT (R288, R291): a full checkpoint, which waits while analytics are shed, and a life record. -/
def State.checkpointOp (s : State) : State :=
  (List.range 4).foldl (fun s n => if s.tileUp n then s.updHl n (fun h => { h with ckpt := true, lifeDue := 2 }) else s) s

/-- A write of DARN_CFG: EN from 0 to 1 releases the failures withheld (R283). -/
def State.darnCfg (s : State) (v : Word) : State :=
  let was := s.isF fHEALTH_DARN_CFG_EN
  let s := s.setReg rHEALTH_DARN_CFG v
  if was = false ∧ s.isF fHEALTH_DARN_CFG_EN then s.darnRelease else s

/-! ### Commands (R277, R279, R286 to R289) -/

/-- BASELINE. -/
def execBaseline (n : Fin 4) (s : State) : Res := .next (s.viaReg (rHEALTH_CMD) (fun s => s.baselineOp n))

/-- CHECKPOINT. -/
def execCheckpoint (s : State) : Res := .next (s.viaReg (rHEALTH_CMD) (fun s => s.checkpointOp))

/-- CLEAR_STATE. -/
def execClearState (n : Fin 4) (spare : Bool) (pixel : BitVec 18) (s : State) : Res :=
  .next (s.viaReg (rHEALTH_CMD) (fun s => s.clearStateOp n spare.toNat pixel.toNat))

/-- BASELINE_AUTO_START: a replaced tile has been lit for 10 s. -/
def execBaselineAutoStart (n : Fin 4) (s : State) : Res := .next (if (s.hl n).fresh then s.baselineOp n else s)

/-- FULL_CHECKPOINT_DUE. -/
def execFullCheckpointDue (n : Fin 4) (s : State) : Res :=
  .next (if s.tileUp n then s.updHl n (fun h => { h with ckpt := true }) else s)

/-- DELTA_CHECKPOINT_DUE: the entry is written when nothing else waits; it waits while health analytics are shed. -/
def execDeltaCheckpointDue (s : State) : Res := .next (s.inCore (fun s => s.updHk (fun h => { h with deltaDue := true })))

/-- A delta entry that is due is written. -/
def State.deltaStep (s : State) : State := if s.hk.deltaDue ∧ s.shed = 0 then s.deltaWrite else s

/-- A checkpoint write of tile n has failed. -/
def State.ckptFail (s : State) (n : Nat) : State :=
  (s.raise fHEALTH_STATUS_CKPT_FAIL rHEALTH_CKPT_FAIL_COUNT).hlEv evHEALTH_CKPT_FAIL n 0

/-- CKPT_DONE: a full checkpoint write ends, well or not; a failure while none is in progress is that of the delta entry that is due (log 153).
Writes wait while health analytics are shed. -/
def execCkptDone (n : Fin 4) (ok : Bool) (s : State) : Res :=
  .next (if 1 ≤ s.shed then s
    else if (s.hl n).ckpt then
      (if ok then s.ckptWrite n else (s.updHl n (fun h => { h with ckpt := false })).ckptFail n)
    else if ok = false ∧ s.hk.deltaDue then (s.updHk (fun h => { h with deltaDue := false })).ckptFail n
    else s)

/-- ACC_RESTORED: the accounts are loaded once phase 3 is installed, and those of a tile that comes up later when it has. -/
def execAccRestored (s : State) : Res :=
  let ts := (List.range 4).filter (fun n => s.tileUp n && !(s.hl n).fresh && !(s.hl n).accOk && (s.ckptNewest n).isSome)
  .next (if s.loader.phase < 3 ∨ (s.isF fHEALTH_STATUS_ACC_VALID ∧ ts = []) then s
    else
      let s := ts.foldl (fun s n => s.acctRestore n) s
      (s.setF fHEALTH_STATUS_ACC_VALID 1).post evHEALTH_ACC_RESTORED srcHEALTH ((ts.map (2 ^ ·)).sum))

/-- AGING_CONVERSION: nothing is converted while the program is paused. -/
def execAgingConversion (s : State) : Res := .next (if s.agingPaused then s else s.agingConvert)

end Sys2Proof.Machine
end

