-- ==== Sys2Proof/Machine/PressCmd.lean ====
section
/-! DEFINITION. The commands of Press (R175 to R189): update windows and lists, FILL, the end of a transfer frame with its region
checks, statistics, snapshot and record, and the recorder's triggers. -/

namespace Sys2Proof.Machine

/-! ### Update lists and FILL -/

/-- UPDATE_WINDOW: the window's work, with `rows` rows of the sweep complete in time; then Darn's lists (R284). -/
def execUpdateWindow (n : Fin 4) (rows : Fin 17) (s : State) : Res := .next ((s.updateWindow n rows).darnWindow n)

/-- UPD_COMMIT. -/
def execUpdCommit (n : Fin 4) (s : State) : Res := .next (s.viaReg (rPRESS_UPD_CMD n) (fun s => s.updCommitOp n))

/-- A FILL is accepted while no update runs and TG_n is stopped (R178). -/
def State.updFillOp (s : State) (n : Nat) : State :=
  if s.updBusy n then s.updError n 1 false
  else if s.tgState n ≠ tgOFF then s.updError n 5 false
  else (s.setF (fPRESS_UPD_STATUS_ERR n) 0).setF (fPRESS_UPD_STATUS_STATE n) updFILLING

/-- UPD_FILL. -/
def execUpdFill (n : Fin 4) (s : State) : Res := .next (s.viaReg (rPRESS_UPD_CMD n) (fun s => s.updFillOp n))

/-- CANCEL stops a list after its current group. -/
def State.updCancelOp (s : State) (n : Nat) : State :=
  let st := s.getF (fPRESS_UPD_STATUS_STATE n)
  if st = updPENDING ∨ st = updAPPLYING then (s.setF (fPRESS_UPD_STATUS_STATE n) updCANCELLED).darnWindow n else s

/-- UPD_CANCEL. -/
def execUpdCancel (n : Fin 4) (s : State) : Res := .next (s.viaReg (rPRESS_UPD_CMD n) (fun s => s.updCancelOp n))

/-- Every record loaded; range states invalid, and the tile's selection map is to be loaded again (R178, R255). -/
def State.fillTile (s : State) (n : Nat) : State :=
  let r := s.fillAll n
  if r.1 then
    let s := (r.2.setF (fPRESS_UPD_STATUS_DONE_ENTRIES n) 262144).setF (fPRESS_UPD_STATUS_STATE n) updDONE
    (s.dropRanges n).updPort n (fun p => { p with selStage := 0, selTries := 0 })
  else r.2.updError n 4 true

/-- FILL_DONE. -/
def execFillDone (n : Fin 4) (s : State) : Res :=
  .next (if s.getF (fPRESS_UPD_STATUS_STATE n) = updFILLING then s.fillTile n else s)

/-! ### The slots of a transfer frame (R196 to R198) -/

/-- A slot is not fired: flag, count and event. -/
def State.slotSkip (s : State) (n : Nat) (slots : List Nat) (why : Nat) : State :=
  if slots.isEmpty then s
  else
    let s := slots.foldl (fun s _ => s.raise (fTG_STATUS_SLOT_SKIP n) (rTG_SLOT_SKIP_COUNT n)) s
    s.tgEv evTG_SLOT_SKIP n (2 ^ 30 * n + 2 ^ 16 * (slots.map (2 ^ ·)).sum + why)

/-- Slot k's surface in transfer frame `frame`: lamp-wide, BV16, uncompressed. -/
def State.slotSurf (s : State) (k frame : Nat) : Surf :=
  let b := frame % (s.getF (fTG_SLOT_CFG_BUFS 0 k) + 1)
  let base := s.regN (rTG_SLOT_BASE_LO 0 k) + 2 ^ 32 * (s.regN (rTG_SLOT_BASE_HI 0 k) % 256)
    + 65536 * (b * (s.regN (rTG_SLOT_BUFSIZE 0 k) % 65536))
  { surfOf [] with addr := base, stride := s.getF (fTG_SLOT_CFG_STRIDE 0 k), compressed := false, fmt := 2 }

/-- The window of tile n in slot k's surface: 512 rows of values. -/
def State.slotWindow (s : State) (n k frame : Nat) : List (List Nat) :=
  let f := s.slotSurf k frame
  let c := s.getF (fCP_WINDOW_COL n)
  let r := s.getF (fCP_WINDOW_ROW n)
  (List.range 512).map (fun y =>
    let v := s.surfView { f with addr := f.addr + (r + y) * (64 * f.stride), height := 1, width := c + 512 }
    (List.range 512).map (fun x => (v.surfPix f (c + x) (r + y)).v))

/-- Words of the window that are read are checked (R387). -/
def State.slotFetch (s : State) (n k frame : Nat) : State :=
  let f := s.slotSurf k frame
  let c := s.getF (fCP_WINDOW_COL n)
  let r := s.getF (fCP_WINDOW_ROW n)
  (List.range 512).foldl (fun s y => (s.checkRange (f.addr + (r + y) * (64 * f.stride) + 2 * c) 1024).2) s

/-- One slot's map and code leave the port; Tether checks its rows. -/
def State.slotSend (s : State) (n k frame : Nat) : State :=
  let s := s.slotFetch n k frame
  let w := s.slotWindow n k frame
  let vMax := (w.map (fun r => r.foldl max 0)).foldl max 0
  let code := s.slotCode n (s.getF (fTG_SLOT_CFG_CURVE 0 k)) vMax (s.pr n)
  let bits := fun (y : Nat) => (w.getD y []).zipWith (fun v (b : Bool) => decide (v ≠ 0) && b) (s.slotRow n y)
  let s := (List.range 512).foldl (fun s y =>
    let b := bits y
    (s.sendMapRow n b).ttSlotRow n y frame code b) s
  s.updTg n (fun g => { g with xfer := g.xfer.map (fun x => { x with codes := x.codes ++ [(k, code)] }) })

/-! ### The end of a transfer frame (R181 to R186, R361) -/

/-- Slot energy by row and segment with W_k of the timing in force (R361). -/
def State.slotBand (s : State) (n frame : Nat) (codes : List (Nat × Nat)) (tab : List (Nat × Nat)) : List (Nat × Nat) :=
  let d := max 1 s.timing.drive
  codes.foldl (fun tab q =>
    let w := s.slotWindow n q.1 frame
    let wk := 4096 * (s.timing.slots.getD q.1 (false, 0, 0)).2.2 / d
    (List.range 512).foldl (fun tab y =>
      let b := (w.getD y []).zipWith (fun v (b : Bool) => decide (v ≠ 0) && b) (s.slotRow n y)
      addSlot tab y q.2 wk b) tab) tab

/-- The largest segment energy of each column and band among the rows sent. -/
def State.statBands (s : State) (n frame : Nat) (p : PressT) (codes : List (Nat × Nat)) : List Nat :=
  let tab := p.sent.foldl (fun tab r => putEnergies tab r.y (rowEnergy r.codes)) []
  let tab := s.slotBand n frame codes tab
  (List.range 512).map (fun q =>
    ((List.range 8).map (fun d => tabGet (fun _ => 0) tab (8 * (8 * (q % 64) + d) + q / 64))).foldl max 0)

/-- The frame-statistics record on its way to SC. -/
def State.statFrame (s : State) (n : Nat) (x : Xfer) (p : PressT) : State :=
  let roi := s.regN (rPRESS_ROI_STATUS n)
  let r : StatRec := { frame := x.frame, drive := s.timing.drive, slotLens := s.timing.slots.map (fun q => q.2.2), bands := s.statBands n x.frame p x.codes, carry := p.carried, layers := x.layers,
                       mismatch := roi % 65536, invalid := roi / 65536,
                       crcs := (List.range 16).map (fun k => s.reg (rPRESS_ROI_CRC n k)) }
  s.updSafeT n (fun t => { t with record := some r })

/-- The drive interval of the light frame that the next swap of tile n begins. -/
def State.nextDrive (s : State) (n : Nat) : Nat :=
  let g := s.tgOf n
  s.timing.driveIn (s.nextLen g.e g.delta).1

/-- The drive intervals that a snapshot of transfer frame `frame` stands for: those since the last one, the light frame lit, and what
follows up to its own (R182, log 150). -/
def State.snapSpan (s : State) (n frame : Nat) : Nat :=
  let p := s.pr n
  let pre := s.tgState n == tgPRE
  let left := if pre then 1 else (frame + 2 ^ 32 - s.regN (rTG_FRAME_COUNT n)) % 2 ^ 32
  if pre ∨ p.spanSkip ≠ 0 then p.span + (left + (if pre then 0 else 1) - p.spanSkip) * s.nextDrive n
  else p.span + (s.tgOf n).d + left * s.nextDrive n

/-- The snapshot has counted the light frames up to its own. -/
def State.spanTaken (s : State) (n frame : Nat) : State :=
  let pre := s.tgState n == tgPRE
  let left := if pre then 1 else (frame + 2 ^ 32 - s.regN (rTG_FRAME_COUNT n)) % 2 ^ 32 + 1
  s.updPr n (fun p => { p with span := 0, spanSkip := left })

/-- The slots of a transfer frame whose maps do not follow: the tile is in its fallback beam, at half rate, or a row was late (R196,
R199). -/
def State.mapsLost (s : State) (n late : Nat) (x : Xfer) : List Nat × Nat :=
  if s.inFallback n then (x.maps, 4)
  else if s.tgState n = tgHALF then (x.maps, 5)
  else (x.maps.filter (fun k => late.testBit k), 2)

/-- At the end of a transfer a BK recalibration starts when at least 250 µs remain before the next latch point (R233). -/
def State.bkWindow (s : State) (n : Nat) (x : Xfer) : State :=
  if s.lampRat + 250000 ≤ x.latch + (if x.half then 2 else 1) * s.timing.period then s.bkAsk n else s

/-- The transfer of tile n ends: slot maps, then the frame's results. -/
def State.endTransfer (s : State) (n : Nat) (snapOk recOk : Bool) (late : Nat) : State :=
  match (s.tgOf n).xfer with
  | none => s
  | some x =>
    if x.ended ∨ x.next < 512 then s
    else
      let (lost, why) := s.mapsLost n late x
      let s := s.slotSkip n lost why
      let s := (x.maps.filter (fun k => !lost.contains k)).foldl (fun s k => s.slotSend n k x.frame) s
      let p := s.pr n
      let x := { ((s.tgOf n).xfer.getD x) with ended := true }
      let s := (s.updTg n (fun g => { g with xfer := some x })).bkWindow n x
      let s := (s.capFrame n p).satFrame n p
      let s := s.roiFrame n x.frame p x.torn
      let s := s.statFrame n x p
      let swap := (s.frameSwap n x.frame).floor.toNat
      let s := if p.snapOn then (s.snapEnd n x.frame swap (s.snapSpan n x.frame) x.torn snapOk).spanTaken n x.frame else s
      let s := s.recFrame n x.frame swap x.torn (s.inFallback n) recOk
      if x.torn then s.dropRanges n else s

/-- TRANSFER_END: `snapOk` and `recOk` say whether the LOW class let the snapshot and the record through, `late` which slot
maps had a row that was not complete. -/
def execTransferEnd (n : Fin 4) (snapOk recOk : Bool) (late : BitVec 4) (s : State) : Res :=
  .next (s.endTransfer n snapOk recOk late.toNat)

/-! ### The recorder (R187) -/

/-- REC_FREEZE. -/
def execRecFreeze (s : State) : Res := .next (s.viaReg (rREC_CTRL) (fun s => s.recTrigger 5))

def State.recRearmOp (s : State) : State :=
  if s.recState ≠ recFROZEN then s
  else
    let rc : RecSt := { s.record with ents := [], mark := [], ptr := false }
    let s := { s with record := rc }
    let s := (s.setRegN rREC_OLDEST_PTR (s.regN rREC_WR_PTR)).setRegN rREC_SPAN 0
    (s.setF fREC_STATUS_STATE recRECORDING).postOnce evPRESS_REC_REARMED 0 s.lampFrame (srcPRESS 0) 0

/-- REC_REARM. -/
def execRecRearm (s : State) : Res := .next (s.viaReg (rREC_CTRL) (fun s => s.recRearmOp))

/-- REC_FROZEN: the post-trigger time has passed. -/
def execRecFrozen (s : State) : Res :=
  .next (if s.recState = recPOST then
    (s.setF fREC_STATUS_STATE recFROZEN).postOnce evPRESS_REC_FROZEN 0 s.lampFrame (srcPRESS 0)
      (s.getF fREC_STATUS_TRIG_SRC) else s)

end Sys2Proof.Machine
end

