-- ==== Sys2Proof/Machine/Lanes.lean ====
section
/-! DEFINITION. The lanes of a tile port (R211 to R242): bring-up, training, the spare, recalibration, lane faults, and leaving
ACTIVE. -/

namespace Sys2Proof.Machine

/-- Payload bits P[hi:lo] of a back-lane control word given as P[55:8]. -/
def payF (p : BitVec 48) (hi lo : Nat) : Nat := bitsOf p.toNat (lo - 8) (hi + 1 - lo)

/-- A device lane as a mask bit of a port field. -/
def hasLane (m d : Nat) : Bool := m.testBit d

/-! ### Leaving ACTIVE (R238, R239) -/

/-- CK stops, and every outbound lane is held at common mode with zero differential; what waited for the lanes is gone. -/
def State.laneStop (s : State) (n : Nat) : State :=
  s.updPort n (fun p => { p with ck := none, lanes := p.lanes.map LaneTx.hold, slots := [] })

/-- TREG_STATUS after an operation. -/
def State.tregDone (s : State) (n result : Nat) : State :=
  (s.setRegN (rZTL_TREG_STATUS n) result).updPort n (fun p => { p with treg := none })

/-- What the port held for the tile is gone. -/
def State.portClear (s : State) (n : Nat) : State :=
  let s := (s.tgOff n).updTg n (fun t => { t with startWait := false })
  let s := (s.setF (fZTL_STATUS_BACK_STALE n) 0).setF (fZTL_STATUS_ONE_LANE n) 0
  let s := (s.setF (fZTL_STATUS_CAPS_ACCEPTED n) 0).setF (fZTL_STATUS_RECAL_ACTIVE n) 0
  let s := ((s.setRegN (rZTL_TILE_ID_LO n) 0).setRegN (rZTL_TILE_ID_HI n) 0).setRegN (rZTL_TILE_TYPE n) 0
  let s := ((s.setTileBit fTOP_START_STATUS_TILES_UP n false).setFull n false).setHandover n 0
  let s := if (s.portOf n).treg.isSome then s.tregDone n 6 else s
  let s := if (s.portOf n).nv.isSome then s.setF (fZTL_NV_STATUS_PENDING n) 1 else s
  let s := s.setF (fZTL_NV_STATUS_BUSY n) 0
  let s := if s.getF (fZTL_AUTH_STATUS_STATE n) = 3 then s.setF (fZTL_AUTH_STATUS_STATE n) 0 else s
  let s := s.updPort n (fun p =>
    { p with cals := [], recal := none, toggles := [], flown := [], resend := false, acks := [], selStage := 0, selTries := 0,
             fbCmd := false, fbWait := false, nv := none, nvRead := none, nvQueue := [], mapRead := false, caps := none,
             chal := none, spareErr := false, discards := 0, locked := 0, bkTry := none, bkUntil := none, margin := none,
             readyOrd := [] })
  let s := s.updHl n (fun h => { h with linkNs := h.linkNs + (match h.linkFrom with | some t => (s.time.now - t) * 5 / 4 | none => 0),
                                        linkFrom := none })
  ((s.laneStop n).showPending n).darnPortDown n

/-- The port leaves ACTIVE for cause 1, 2 or 3, and a new series of attempts follows. -/
def State.portDown (s : State) (n cause : Nat) : State :=
  let s := (s.portClear n).setZState n zDOWN
  let s := (s.raise (fZTL_STATUS_PORT_DOWN n) (rZTL_PORT_DOWN_COUNT n)).zEv evZTL_PORT_DOWN n cause
  (s.updPort n (fun p => { p with tries := 0, refused := false })).setAbsent n true

/-- The port enters OFF: cause 4, or the entry to SLEEP and deeper. -/
def State.portOff (s : State) (n : Nat) : State := (s.portClear n).setZState n zOFF

/-! ### Bring-up (R227, R228) -/

/-- An attempt starts: the lanes stand still, and the back lane has no lock yet. -/
def State.startAttempt (s : State) (n : Nat) : State :=
  ((s.laneStop n).setZState n zDETECT).updPort n (fun p =>
    { p with trained := 0, locked := 0, cals := [], capsTries := 0, discards := 0, bk := {}, chk := {} })

/-- Is port n one that STRUCTURE declares? -/
def State.portUsed (s : State) (n : Nat) : Bool := n < s.tiles

/-- CMD = ENABLE, and bring-up at boot. -/
def State.enableOp (s : State) (n : Nat) : State :=
  if s.zState n = zOFF ∧ s.portUsed n ∧ s.pllDead = false then
    (s.updPort n (fun p => { p with tries := 0, refused := false })).startAttempt n
  else s

/-- An attempt has failed in its present state. -/
def State.attemptFail (s : State) (n : Nat) : State :=
  let st := s.zState n
  let k := satAt 255 (s.getF (fZTL_ATTEMPT_COUNT n) + 1)
  let s := (s.setF (fZTL_ATTEMPT_LAST_FAIL_STATE n) st).setF (fZTL_ATTEMPT_COUNT n) k
  let s := ((s.zEv evZTL_ATTEMPT_FAIL n (256 * st + k)).laneStop n).setZState n zDOWN
  let s := s.updPort n (fun p => { p with cals := [], bkTry := none, tries := p.tries + 1 })
  if (s.portOf n).tries = 3 then (s.setAbsent n true).zEv evZTL_TILE_ABSENT n 0 else s

def fldBkCode (n : Nat) : Fld := ⟨rZTL_EQ_STATUS n, 12, 3⟩

/-- The trials of the back lane's CTLE codes begin (R231): each of the 8 codes twice. -/
def State.bkTrials (s : State) (n : Nat) : State :=
  if s.isF (fZTL_LANE_CFG_EQ_MODE n) then
    s.updPort n (fun p => { p with bkTry := some (0, s.time.now), bkErrs := [], bkOld := s.getF (fldBkCode n) })
  else s

/-- In FIXED the back lane's code is the declared one. -/
def State.bkFixed (s : State) (n : Nat) : State :=
  if s.isF (fZTL_LANE_CFG_EQ_MODE n) then s else s.setF (fldBkCode n) (bitsOf (s.regN (rZTL_EQ_CFG n)) 12 3)

/-- The code with the fewest errors of a pass, the lower on a tie. -/
def fewest (l : List Nat) : Nat := l.findIdx (fun x => x = l.foldl min (l.headD 0))

/-- A trial ends: its errors; one in which the checker came to no bits to hold against the pattern counts as the worst (log 177). -/
def State.bkScore (s : State) (n : Nat) : State :=
  s.updPort n (fun p => { p with bkErrs := p.bkErrs ++ [if p.chk.seen < 31 then 0xFFFFFFFF else p.chk.errs] })

/-- The trials end: the code that both passes pick, else the one in use before (R231). -/
def State.bkPick (s : State) (n : Nat) : State :=
  let p := s.portOf n
  let a := fewest (p.bkErrs.take 8)
  (s.updPort n (fun p => { p with bkTry := none })).setF (fldBkCode n) (if a = fewest (p.bkErrs.drop 8) then a else p.bkOld)

/-- Trial `k` begins: its code is set, and the tile is asked for the PRBS. -/
def State.bkTrial (s : State) (n k : Nat) : State :=
  ((s.setF (fldBkCode n) (k % 8)).sendBkPrbs n).updPort n (fun p =>
    { p with bkTry := some (k + 1, s.time.now + bkPrbsTicks), chk := {} })

/-- Entry to ACTIVE: the usable lanes take their roles in device lane order. -/
def State.portActive (s : State) (n : Nat) : State :=
  let p := s.portOf n
  let use := (lanesOf p.trained).filter (hasLane p.locked)
  let l0 := use.getD 0 3
  let l1 := use.getD 1 l0
  let sp := use.getD 2 3
  let mask := (use.map (2 ^ ·)).sum
  let s := s.setRegN (rZTL_LANE_MAP n) (256 * (7 - mask) + 16 * sp + l1 * 4 + l0)
  let s := (s.setZState n zACTIVE).setF (fZTL_ATTEMPT_COUNT n) 0
  let s := s.setRegN (rZTL_BK_HDR_ERR n) 0
  let s := s.updPort n (fun p => { p with tries := 0, spareErr := false })
  let s := s.updHl n (fun h => { h with linkFrom := some s.time.now })
  let s := (s.zEv evZTL_PORT_UP n mask).setB (fZTL_STATUS_ONE_LANE n) (use.length == 1)
  let s := if use.length = 2 then s.spareFail n 3 else s
  ((List.range 3).filter (fun d => !mask.testBit d)).foldl (fun s d => s.retrainEv n d false) s

/-! ### Recalibration (R233) -/

def fldStripe (n st : Nat) : Fld := ⟨rZTL_LANE_MAP n, 2 * st, 2⟩

/-- The step has ended. -/
def State.recalFinish (s : State) (n : Nat) : State :=
  match (s.portOf n).recal with
  | none => s
  | some r =>
    let s := (s.updPort n (fun p => { p with recal := none })).setF (fZTL_STATUS_RECAL_ACTIVE n) 0
    match r.result with
    | some (_, w, _) => s.zEv evZTL_RECAL_DONE n (256 * w + r.lane)
    | none => s

/-- The lane takes its stripe back, and the lane that carried it is the spare again. -/
def State.recalReturn (s : State) (n : Nat) (r : Recal) : State :=
  let sp := s.stripe n r.role
  let s := s.sendMove n r.role r.lane sp
  (s.setF (fldStripe n r.role) r.lane).setF (fZTL_LANE_MAP_SPARE n) sp

/-- New values take effect, if the step has them. -/
def State.recalTake (s : State) (n : Nat) (r : Recal) : State :=
  match r.result with
  | some (p, w, c) => s.takeCal n r.lane p w c
  | none => s

/-- The step's calibration has ended, with values or rejected; with TG_n OFF it is done, else its swap follows. -/
def State.recalEnded (s : State) (n : Nat) (res : Option (Nat × Nat × Nat)) : State :=
  match (s.portOf n).recal with
  | none => s
  | some r =>
    let r := { r with result := res, ended := true }
    let s := s.updPort n (fun p => { p with recal := some r })
    if s.tgState n = tgOFF then
      let s := s.recalTake n r
      (if r.moved then s.recalReturn n r else s).recalFinish n
    else s

/-- At a swap instant. -/
def State.recalSwap (s : State) (n : Nat) : State :=
  match (s.portOf n).recal with
  | some r =>
    if r.ended = false ∨ r.applied then s
    else
      let s := s.recalTake n r
      if r.moved then s.updPort n (fun p => { p with recal := some { r with applied := true } }) else s.recalFinish n
  | none => s

/-- At the first row slot of a transfer frame. -/
def State.recalRow (s : State) (n : Nat) : State :=
  match (s.portOf n).recal with
  | some r => if r.applied then (s.recalReturn n r).recalFinish n else s
  | none => s

/-- Of the ready lanes that show lock, the first that became ready (R235). -/
def State.readyLane (s : State) (n : Nat) : Option Nat :=
  (s.portOf n).readyOrd.find? (fun d => (s.regN (rZTL_LANE_MAP n)).testBit (12 + d) && hasLane (s.portOf n).locked d)

/-- A ready lane returns: its failure is over. -/
def State.laneBack (s : State) (n d : Nat) : State :=
  ((s.setReady n d false).setFailed n d false).zEv evZTL_LANE_RETURN n d

/-- A ready lane returns as the spare at the start of a recalibration step. -/
def State.spareReturn (s : State) (n : Nat) : State :=
  if s.spareLane n ≠ 3 ∨ s.isF (fZTL_STATUS_ONE_LANE n) then s
  else
    match (s.portOf n).readyOrd.find? (fun d => (s.regN (rZTL_LANE_MAP n)).testBit (12 + d)) with
    | none => s
    | some d =>
      let s := ((s.laneBack n d).setF (fZTL_LANE_MAP_SPARE n) d).sendMove n 0 (s.stripe n 0) d
      s.updPort n (fun p => { p with locked := p.locked ||| 2 ^ d, spareErr := false })

/-- A step on lane d for rotation place `role`. -/
def State.recalBegin (s : State) (n role d : Nat) (moved : Bool) : State :=
  let s := s.updPort n (fun p => { p with recal := some { role := role, lane := d, moved := moved } })
  (s.setF (fZTL_STATUS_RECAL_ACTIVE n) 1).startCal n d

/-- The BK step begins: it asks for the PRBS at once while TG_n is OFF, else at the end of a transfer. -/
def State.recalBack (s : State) (n : Nat) : State :=
  let s := (s.updPort n (fun p => { p with recal := some { role := 3, lane := 3 } })).setF (fZTL_STATUS_RECAL_ACTIVE n) 1
  if s.tgState n = tgOFF then s.bkAsk n else s

/-- The next step of the rotation, or its skip: no step starts while BK is down. -/
def State.recalNext (s : State) (n : Nat) : State :=
  if s.zActive n = false ∨ (s.portOf n).recal.isSome then s
  else
    let s := s.spareReturn n
    let rot := (s.portOf n).rot
    let s := s.updPort n (fun p => { p with rot := (rot + 1) % 4 })
    let sp := s.spareLane n
    if s.isF (fZTL_STATUS_BACK_STALE n) then s
    else if rot < 2 then
      let d := s.stripe n rot
      if s.tgState n = tgOFF then s.recalBegin n rot d false
      else if s.isF (fZTL_STATUS_ONE_LANE n) then s
      else if sp = 3 ∨ hasLane (s.portOf n).locked sp = false then s
      else
        let s := ((s.sendMove n rot sp 3).setF (fldStripe n rot) sp).setF (fZTL_LANE_MAP_SPARE n) 3
        s.recalBegin n rot d true
    else if rot = 2 then (if sp = 3 then s else s.recalBegin n 2 sp false)
    else s.recalBack n

/-- The pause of a BK recalibration is over; the eye width that its event shows is open. -/
def State.bkDone (s : State) (n : Nat) : State :=
  let (w, s) := s.fresh
  (s.updPort n (fun p => { p with bkUntil := none, recal := p.recal.map (fun r => { r with result := some (0, w.toNat % 65, 0) }) })).recalFinish n

/-- A step is abandoned: its lane takes its stripe back with its old values (R242). -/
def State.recalAbandon (s : State) (n : Nat) : State :=
  match (s.portOf n).recal with
  | none => s
  | some r =>
    let s := (s.dropCal n r.lane).sendCtle n r.lane (s.getF (fldCtle n r.lane))
    let s := if r.moved then (s.recalReturn n r).updPort n (fun p => { p with locked := p.locked ||| 2 ^ r.lane }) else s
    (s.updPort n (fun p => { p with recal := none })).setF (fZTL_STATUS_RECAL_ACTIVE n) 0

/-! ### Lane faults (R234 to R236, R242) -/

/-- Both stripes move to one lane, and the tile runs at half rate. -/
def State.bothTo (s : State) (n d : Nat) : State :=
  let s := s.sendMove n 3 d 3
  let s := (s.setF (fldStripe n 0) d).setF (fldStripe n 1) d
  let s := if s.spareLane n = d then s.setF (fZTL_LANE_MAP_SPARE n) 3 else s
  (s.setF (fZTL_STATUS_ONE_LANE n) 1).halfRate n true

/-- The stripe lanes that do not show lock. -/
def State.lostLanes (s : State) (n : Nat) : List Nat :=
  [s.stripe n 0, s.stripe n 1].eraseDups.filter (fun d => !hasLane (s.portOf n).locked d)

/-- Stripes of lost lanes move to what is left. -/
def State.moveStripes (s : State) (n : Nat) : State :=
  let lost := s.lostLanes n
  let sp := s.spareLane n
  let free := decide (sp ≠ 3) && hasLane (s.portOf n).locked sp
  let one := s.isF (fZTL_STATUS_ONE_LANE n)
  let fail := fun (s : State) (d : Nat) => lost.foldl (fun s l => s.laneFail n l d) s
  match lost with
  | [] => s
  | l :: rest =>
    if free ∧ rest = [] ∧ one = false then
      let st := if s.stripe n 0 = l then 0 else 1
      fail (((s.sendMove n st sp 3).setF (fldStripe n st) sp).setF (fZTL_LANE_MAP_SPARE n) 3) sp
    else if free then fail (s.bothTo n sp) sp
    else
      let other := if s.stripe n 0 = l then s.stripe n 1 else s.stripe n 0
      if rest = [] ∧ one = false then fail (s.bothTo n other) other
      else
        match s.readyLane n with
        | some d => fail ((s.laneBack n d).bothTo n d) d
        | none => (fail s 3).portDown n 3

/-! ### Reports of a calibration (R229 to R231, R235) -/

/-- A lane under recalibration fails its scan: it has failed; a stripe that travels on the spare stays there, one that it carries itself moves to
what is left (R236). -/
def State.recalLost (s : State) (n : Nat) (r : Recal) : State :=
  let s := (s.updPort n (fun p => { p with recal := none })).setF (fZTL_STATUS_RECAL_ACTIVE n) 0
  if r.role = 2 then s.spareFail n r.lane
  else if r.moved then s.laneFail n r.lane (s.stripe n r.role)
  else ((s.dropCal n r.lane).updPort n (fun p => { p with locked := p.locked &&& (7 - 2 ^ r.lane) })).moveStripes n

/-- A calibration of lane d disagrees: rejected, and the tile's receiver is set back to the lane's own code. -/
def State.calBack (s : State) (n : Nat) (c : Cal) (diff : Nat) : State :=
  let s := s.calReject n c.lane diff
  if s.getF (fldCtle n c.lane) = c.ctle then s else s.sendCtle n c.lane (s.getF (fldCtle n c.lane))

/-- What the outcome of a calibration of lane d means for the port. -/
def State.calOut (s : State) (n : Nat) (c : Cal) (o : CalOut) : State :=
  let d := c.lane
  let boot := s.zState n == zTRAIN
  let mine := match (s.portOf n).recal with | some r => r.lane == d | none => false
  match o with
  | .go c' =>
    let s := s.updPort n (fun p => { p with cals := p.cals.map (fun x => if x.lane = d then c' else x) })
    let s := if c'.ctle = c.ctle then s else s.sendCtle n d c'.ctle
    s.sendCheck n c'
  | .done ph w ct =>
    let s := s.dropCal n d
    if boot then (s.takeCal n d ph w ct).updPort n (fun p => { p with trained := p.trained ||| 2 ^ d })
    else if mine then s.recalEnded n (some (ph, w, ct))
    else ((s.takeCal n d ph w ct).setReady n d true).retrainEv n d true
  | .disagree diff =>
    let s := s.dropCal n d
    if boot then s.calReject n d diff
    else if mine then (s.calBack n c diff).recalEnded n none
    else s.calBack n c diff
  | .fail =>
    let s := s.dropCal n d
    if boot then s.calReject n d 0
    else
      match (s.portOf n).recal with
      | some r => if r.lane = d then s.recalLost n r else s
      | none => s

/-- Lock as the tile reports it: the spare, then the stripe lanes. -/
def State.lockReport (s : State) (n : Nat) : State :=
  let lk := (s.portOf n).locked
  let lost := s.lostLanes n
  let s :=
    match (s.portOf n).recal with
    | some r => if r.moved ∧ lost ≠ [] then s.recalAbandon n else s
    | none => s
  let sp := s.spareLane n
  let s :=
    if sp ≠ 3 ∧ hasLane lk sp = false then
      let mine := match (s.portOf n).recal with | some r => r.lane == sp | none => false
      let s := if mine then s.recalAbandon n else s
      s.spareFail n sp
    else s
  s.moveStripes n

/-- Newly reported discards (R226). -/
def State.damageReport (s : State) (n total row : Nat) : State :=
  let new := (total + 65536 - (s.portOf n).discards % 65536) % 65536
  let s := s.updPort n (fun p => { p with discards := total })
  if new = 0 then s
  else
    let fr := match (s.tgOf n).xfer with | some x => x.frame | none => s.regN (rTG_FRAME_COUNT n)
    let s := (s.setF (fZTL_STATUS_ROW_DAMAGED n) 1).bumpBy (rZTL_ROW_DAMAGED_COUNT n) new
    let s := s.setRegN (rZTL_LAST_DAMAGED_ROW n) (65536 * (fr % 65536) + row)
    let s := s.zEvOnce evZTL_ROW_DAMAGED n row
    s.updSafeT n (fun t => if new = 1 then { t with damage := t.damage ++ [row] } else { t with damageAll := true })

/-- Losses of lock, per lane. -/
def State.lockLoss (s : State) (n lost : Nat) : State :=
  (lanesOf lost).foldl (fun s d => s.bumpF ⟨rZTL_LOCK_LOSS n, 8 * d, 8⟩ 1) s

/-- One LINK_STATUS of an ACTIVE port. -/
def State.linkReport (s : State) (n : Nat) (p : BitVec 48) : State :=
  let s := s.damageReport n (payF p 47 32) (payF p 31 23)
  let s := s.lockLoss n (s.devMask n (payF p 51 49))
  if payF p 55 55 = 0 then s.portDown n 2
  else (s.updPort n (fun q => { q with locked := s.devMask n (payF p 54 52) })).lockReport n

/-- A ready lane takes stripe 1 again at an even transfer frame (R235, R236). -/
def State.rejoin (s : State) (n : Nat) : State :=
  match s.readyLane n with
  | some d =>
    let s := ((s.laneBack n d).sendMove n 1 d 3).setF (fldStripe n 1) d
    (s.setF (fZTL_STATUS_ONE_LANE n) 0).halfRate n false
  | none => s

/-! ### The back lane (R214 to R218, R224, R237; log 138) -/

/-- BK has lost lock: flag, count and event, and it retrains. -/
def State.backLost (s : State) (n : Nat) : State :=
  if s.zActive n = false ∨ s.isF (fZTL_STATUS_BACK_STALE n) then s
  else
    let s := s.setF (fZTL_STATUS_BACK_STALE n) 1
    let s := match (s.hl n).await with
      | some x => (s.updHl n (fun h => { h with await := none })).hlStale n x
      | none => s
    let s := match (s.portOf n).recal with
      | some r => if r.role = 3 then
          (s.updPort n (fun p => { p with recal := none, bkUntil := none })).setF (fZTL_STATUS_RECAL_ACTIVE n) 0 else s
      | none => s
    (((s.raise (fZTL_STATUS_BACK_FAIL n) (rZTL_BACK_FAIL_COUNT n)).zEv evZTL_BACK_FAIL n 0).retrainEv n 3 false).bkTrials n

/-- BK has lock again. -/
def State.backRelock (s : State) (n : Nat) : State :=
  if s.zActive n ∧ s.isF (fZTL_STATUS_BACK_STALE n) then (s.setF (fZTL_STATUS_BACK_STALE n) 0).zEv evZTL_BACK_RESTORED n 0 else s

/-- The pattern that the checker of BK holds the line against, and whether without framing: on the bench (R240), and in a trial (R231). -/
def State.chkMode (s : State) (n : Nat) : Option (Nat × Bool) :=
  let c := s.regN (rZTL_PRBS_CFG n)
  if s.zState n = zOFF ∧ c.testBit 8 then some (bitsOf c 28 2, c.testBit 30)
  else if (s.portOf n).bkTry.isSome then some (3, false) else none

/-- Bits of a pattern reach the checker; on the bench its count is PRBS_ERR. -/
def State.chkBits (s : State) (n k : Nat) (bs : List Bool) : State :=
  let s := s.updPort n (fun p => { p with chk := bs.foldl (BkChk.bit k) p.chk })
  if s.zState n = zOFF then s.setRegN (rZTL_PRBS_ERR n) (s.portOf n).chk.errs else s

/-- The checker takes a line bit, or with framing the unscrambled payload of the data word it completes; `old` is the receiver before it. -/
def State.bkCheck (s : State) (n : Nat) (old : BkRx) (b : Bool) (o : BkOut) : State :=
  match s.chkMode n, o with
  | some (k, true), _ => s.chkBits n k [b]
  | some (k, false), .word false _ => s.chkBits n k ((old.buf ++ [b]).drop 2)
  | _, _ => s

/-- One line bit of BK: the word that it completes, the checker, invalid words of an ACTIVE port counted, and lock lost or found; in ADAPT
the relock waits for the trials of the receiver's codes. -/
def State.bkBit (s : State) (n : Nat) (b : Bool) : Option (BitVec 64) × State :=
  let p := s.portOf n
  let b := b != s.isF (fZTL_LANE_CFG_BK_INV n)
  let (r, o) := p.bk.bit b
  let s := (s.updPort n (fun p => { p with bk := r })).bkCheck n p.bk b o
  let s := if o = .bad ∧ s.zActive n then s.setRegN (rZTL_BK_HDR_ERR n) (satAt 0xFFFFFFFF (s.regN (rZTL_BK_HDR_ERR n) + 1)) else s
  let s := if p.bk.lock ∧ r.lock = false then s.backLost n
    else if p.bk.lock = false ∧ r.lock ∧ p.bkTry.isNone then s.backRelock n
    else s
  (match o with | .word true w => some w | _ => none, s)

/-- The bits of BK: the control word that the last one completes, as type and P[55:8]. Words before it have none of the model's
commands as their effect: IDLE, SKIP and unknown types are ignored (R217). -/
def State.bkTake (s : State) (n : Nat) (bits : List Bool) : Option (Nat × BitVec 48) × State :=
  let (w, s) := bits.foldl (fun (x : Option (BitVec 64) × State) b => x.2.bkBit n b) (none, s)
  (w.map (fun w => (bitsOf w.toNat 56 8, BitVec.ofNat 48 (bitsOf w.toNat 8 48))), s)

def ctlTRAIN_REPORT : Nat := 0x02
def ctlLINK_STATUS : Nat := 0x03
def ctlACK : Nat := 0x20
def ctlSWAP_ACK : Nat := 0x21
def ctlTILE_STATUS : Nat := 0x22
def ctlREG_DATA : Nat := 0x23

/-- A back-lane word of type `t` does `act` when it arrives in lock with its check right and BK is not down. -/
def State.backIn (s : State) (n t : Nat) (b : BkBits) (act : BitVec 48 → State → State) : State :=
  s.inCore (fun s =>
    let (w, s) := s.bkTake n b.bits
    match w with
    | some (ty, p) => if ty = t ∧ s.isF (fZTL_STATUS_BACK_STALE n) = false then act p s else s
    | none => s)

/-! ### What the lanes carry (R212, R219 to R223, R232, R240; log 137, log 139) -/

def State.laneInv (s : State) (n d : Nat) : Bool := (s.regN (rZTL_LANE_CFG n)).testBit d

/-- The role that an ALIGN word names: 0 stripe 0, 1 stripe 1, 2 spare, 3 both stripes; none for a lane that has none. -/
def State.laneRole (s : State) (n d : Nat) : Option Nat :=
  if s.stripe n 0 = d then some (if s.stripe n 1 = d then 3 else 0)
  else if s.stripe n 1 = d then some 1
  else if s.spareLane n = d then some 2
  else none

/-- ALIGN number `seq` of a lane; `free` fills the role of a lane that has none. -/
def State.alignWord (s : State) (n d seq free : Nat) : LaneWd :=
  (true, ctlWord ctlALIGN (2 ^ 40 * (seq % 65536) + 2 ^ 38 * s.tileLane n d + 2 ^ 36 * (((s.laneRole n d).getD free) % 4)))

/-- Does lane d send PRBS31: under calibration, or as the spare of an ACTIVE port. -/
def State.lanePrbs (s : State) (n d : Nat) : Bool :=
  (s.portOf n).cals.any (fun c => c.lane = d) || (s.zActive n && s.spareLane n == d)

/-- The transmit phase of lane d: the one under test, the spare's in its margin window, or the calibrated one. -/
def State.lanePhase (s : State) (n d : Nat) : Nat :=
  match (s.portOf n).cals.find? (fun c => c.lane = d) with
  | some c => c.testPhase
  | none =>
    let c := s.getF (fldPhase n d)
    let off := s.regN (rZTL_MARGIN_CFG n) % 64
    if s.spareLane n = d then
      match (s.portOf n).margin with
      | some (_, 1) => (c + off) % 64
      | some (_, 2) => (c + 64 - off) % 64
      | _ => c
    else c

/-- The part of a margin window after `e` ticks: 500 µs at centre, then 250 µs on either side. -/
def marginPart (e : Nat) : Nat := if e < 400000 then 0 else if e < 600000 then 1 else 2

/-- TRAIN CHECK of a part of the margin window: 25,000 or 12,500 words. -/
def State.sendMargin (s : State) (n part : Nat) : State :=
  s.send n ctlTRAIN (1 * 2 ^ 52 + 2 ^ (49 + s.tileLane n (s.spareLane n)) + 3 * 2 ^ 46
    + 2 ^ 43 * s.getF (fldCtle n (s.spareLane n)) + (if part = 0 then 25000 else 12500) * 2 ^ 24 + 2 ^ 16 * (64 + part))

/-- The spare's margin window goes on while it carries no stripe and is not calibrated; else there is none. -/
def State.marginStep (s : State) (n : Nat) : State :=
  let sp := s.spareLane n
  let p := s.portOf n
  if s.zActive n = false ∨ sp = 3 ∨ p.cals.any (fun c => c.lane = sp) then
    if p.margin.isNone then s else s.updPort n (fun p => { p with margin := none })
  else
    match p.margin with
    | none => (s.updPort n (fun p => { p with margin := some (s.time.now, 0) })).sendMargin n 0
    | some (t, part) =>
      let k := marginPart (s.time.now - t)
      if k = part then s else (s.updPort n (fun p => { p with margin := some (t, k) })).sendMargin n k

/-- The back lane's trials and the end of its recalibration's pause. -/
def State.bkStep (s : State) (n : Nat) : State :=
  let p := s.portOf n
  let s := match p.bkTry with
    | some (k, t) =>
      if s.time.now < t then s
      else
        let s := if k = 0 then s else s.bkScore n
        if k < 16 then s.bkTrial n k
        else
          let s := s.bkPick n
          if p.bk.lock then s.backRelock n else s
    | none => s
  match p.bkUntil with
  | some t => if s.time.now < t then s else s.bkDone n
  | none => s

/-- PRBS_CFG in OFF: with TX_EN the clock runs and the selected lanes carry the pattern, framed or raw; without BK_CHK the checker is at its
start (R240). -/
def State.benchStep (s : State) (n : Nat) : State :=
  let c := s.regN (rZTL_PRBS_CFG n)
  let s := if c.testBit 8 ∨ (s.portOf n).chk = {} then s else s.updPort n (fun p => { p with chk := {} })
  if c.testBit 31 then
    let k := bitsOf c 28 2
    s.updPort n (fun p => { p with
      ck := some (s.isF (fZTL_LANE_CFG_CK_INV n)),
      lanes := p.lanes.zipIdx.map (fun (q : LaneTx × Nat) =>
        if c.testBit (16 + q.2) = false then q.1.hold
        else if c.testBit 30 then q.1.putRaw k (s.laneInv n q.2)
        else q.1.putPrbs k (s.laneInv n q.2)) })
  else if (s.portOf n).ck.isNone then s
  else s.laneStop n

/-- What lane d sends at lane word `k` of the lane-word clock: the waiting slot's word; else ALIGN at every 64th word; else PRBS31 or
IDLE. -/
def State.laneWord (s : State) (n k free : Nat) (carry : List Nat) (slot : Option LaneSlot) (q : LaneTx × Nat) : LaneTx :=
  let l := { q.1 with phase := s.lanePhase n q.2 }
  let inv := s.laneInv n q.2
  match slot.bind (fun x => x.word carry q.2) with
  | some w => l.put w inv
  | none =>
    if k % 64 = 0 then l.put (s.alignWord n q.2 (k / 64) free) inv
    else if s.lanePrbs n q.2 then l.putPrbs 3 inv
    else l.put idleWord inv

/-- One lane word of port n, at a lane-word boundary of the FRC. -/
def State.laneStep (s : State) (n : Nat) : State :=
  let z := s.zState n
  if z = zOFF then s.benchStep n
  else if z < zTRAIN then s
  else
    let s := (s.bkStep n).marginStep n
    let k := s.time.frc / 16
    let carry := if s.zActive n then [s.stripe n 0, s.stripe n 1] else [0, 1, 2]
    let (w, s) := if k % 64 = 0 ∧ (List.range 3).any (fun d => (s.laneRole n d).isNone) then s.fresh else (0, s)
    s.updPort n (fun p => { p with
      lanes := p.lanes.zipIdx.map (s.laneWord n k w.toNat carry p.slots.head?), slots := slotsRest p.slots })

/-! ### Commands -/

/-- ZTL_ENABLE. -/
def execZtlEnable (n : Fin 4) (s : State) : Res := .next (s.viaReg (rZTL_CMD n) (fun s => s.enableOp n))

/-- CMD = DISABLE: only while TG_n is OFF. -/
def State.disableOp (s : State) (n : Nat) : State :=
  if s.tgState n = tgOFF ∧ s.zState n ≠ zOFF then s.portOff n else s

/-- ZTL_DISABLE. -/
def execZtlDisable (n : Fin 4) (s : State) : Res := .next (s.viaReg (rZTL_CMD n) (fun s => s.disableOp n))

/-- ZTL_RECAL: ignored while a step runs. -/
def execZtlRecal (n : Fin 4) (s : State) : Res := .next (s.viaReg (rZTL_CMD n) (fun s => s.recalNext n))

/-- CMD = RETRY: one attempt at once, from DOWN. -/
def State.retryOp (s : State) (n : Nat) : State := if s.zState n = zDOWN then s.startAttempt n else s

/-- ZTL_RETRY. -/
def execZtlRetry (n : Fin 4) (s : State) : Res := .next (s.viaReg (rZTL_CMD n) (fun s => s.retryOp n))

/-- BRINGUP_ATTEMPT: the time of the next attempt has come. -/
def execBringupAttempt (n : Fin 4) (s : State) : Res := .next (s.retryOp n)

/-- DETECT_DONE: the data lanes on which termination was found. -/
def execDetectDone (n : Fin 4) (lanes : BitVec 3) (s : State) : Res :=
  let ls := lanesOf lanes.toNat
  .next (if s.zState n ≠ zDETECT ∨ ls.length < 2 then s
    else
      let s := (s.setZState n zTRAIN).updPort n (fun p => { p with ck := some (s.isF (fZTL_LANE_CFG_CK_INV n)) })
      ls.foldl (fun s d => s.startCal n d) (s.bkTrials n))

/-- TRAIN_DONE: CK is present and a data lane has trained; lanes still scanning have failed. -/
def execTrainDone (n : Fin 4) (s : State) : Res :=
  .next (if s.zState n ≠ zTRAIN ∨ (s.portOf n).trained = 0 then s
    else ((s.bkFixed n).setZState n zLOCK).updPort n (fun p => { p with cals := [] }))

/-- The port goes on from LOCK to CAPS with the locked lanes `lk`. -/
def State.lockedOn (s : State) (n lk : Nat) : State :=
  ((s.setZState n zCAPS).updPort n (fun p => { p with locked := lk })).send n ctlCAPS_REQ 0

/-- LOCK_DONE: the trained lanes that are locked and deskewed. -/
def execLockDone (n : Fin 4) (lanes : BitVec 3) (s : State) : Res :=
  let lk := lanes.toNat &&& (s.portOf n).trained
  .next (if s.zState n ≠ zLOCK ∨ lk = 0 then s
    else s.lockedOn n lk)

/-- ATTEMPT_TIMEOUT: in LOCK one trained lane that shows lock is enough (R227). -/
def execAttemptTimeout (n : Fin 4) (s : State) : Res :=
  let st := s.zState n
  let lk := (s.portOf n).locked &&& (s.portOf n).trained
  .next (if st = zLOCK ∧ lk ≠ 0 then s.lockedOn n lk
    else if st = zDETECT ∨ st = zTRAIN ∨ st = zLOCK ∨ st = zCAPS then s.attemptFail n else s)

/-- Errors of the phase under test. -/
def State.trainIn (s : State) (n : Nat) (p : BitVec 48) : State :=
  let d := s.devLane n (payF p 55 52)
  match (s.portOf n).cals.find? (fun c => c.lane = d) with
  | none => s
  | some c =>
    if payF p 15 8 ≠ c.testPhase then s
    else s.calOut n c (c.report (s.regN (rZTL_RECAL_CFG n) % 128) (s.zState n == zTRAIN) (payF p 47 16))

/-- TRAIN_REPORT. -/
def execTrainReport (n : Fin 4) (b : BkBits) (s : State) : Res :=
  .next (s.backIn n ctlTRAIN_REPORT b (fun p s => s.trainIn n p))

/-- A LINK_STATUS: of an ACTIVE port its report, before that the lanes that show lock. -/
def State.statusIn (s : State) (n : Nat) (p : BitVec 48) : State :=
  if s.zActive n then s.linkReport n p
  else if zTRAIN ≤ s.zState n then s.updPort n (fun q => { q with locked := s.devMask n (payF p 54 52) })
  else s

/-- LINK_STATUS. -/
def execLinkStatus (n : Fin 4) (b : BkBits) (s : State) : Res :=
  .next (s.backIn n ctlLINK_STATUS b (fun p s => s.statusIn n p))

/-- SPARE_MARGIN_CHECK: the error counts of the spare's window at its centre and off it. -/
def execSpareMarginCheck (n : Fin 4) (centre off : Word) (s : State) : Res :=
  let sp := s.spareLane n
  .next (if s.zActive n = false ∨ sp = 3 ∨ (s.portOf n).cals.any (fun c => c.lane = sp) then s
    else
      let c := satAt 0xFFFF centre.toNat
      let s := s.setRegN (rZTL_SPARE_MARGIN n) (65536 * satAt 0xFFFF off.toNat + c)
      let again := (s.portOf n).spareErr
      let s := s.updPort n (fun p => { p with spareErr := decide (0 < c), margin := none })
      if 0 < c ∧ again then (s.spareFail n sp).updPort n (fun p => { p with spareErr := false }) else s)

/-- RECAL_STEP: the period has passed. -/
def execRecalStep (n : Fin 4) (s : State) : Res := .next (if s.isF (fZTL_RECAL_CFG_EN n) then s.recalNext n else s)

/-- LANE_RETRAIN: a failed lane is calibrated again. -/
def execLaneRetrain (n : Fin 4) (lane : Fin 3) (s : State) : Res :=
  let m := s.regN (rZTL_LANE_MAP n)
  .next (if s.zActive n ∧ m.testBit (8 + lane) ∧ m.testBit (12 + lane) = false
      ∧ (s.portOf n).cals.all (fun c => decide (c.lane ≠ lane)) then s.startCal n lane else s)

/-- BACK_FAIL: the receiver loses lock and hunts. -/
def execBackFail (n : Fin 4) (s : State) : Res := .next ((s.updPort n (fun p => { p with bk := {} })).backLost n)

/-- BACK_RESTORED: the receiver has lock; in ADAPT once the trials of its codes are over. -/
def execBackRestored (n : Fin 4) (s : State) : Res :=
  .next (if s.zActive n ∧ s.isF (fZTL_STATUS_BACK_STALE n) ∧ (s.portOf n).bkTry.isNone then
    ((s.updPort n (fun p => { p with bk := { p.bk with lock := true, buf := [], bad := [] } })).bkFixed n).backRelock n
  else s)

/-- BK_LOSS_OF_SIGNAL. -/
def execBkLossOfSignal (n : Fin 4) (s : State) : Res := .next (if s.zActive n then s.portDown n 1 else s)

end Sys2Proof.Machine
end

