-- ==== Sys2Proof/Machine/Timing.lean ====
section
/-! DEFINITION. The commands of the timing generators (R190 to R210): swaps, slots, sense measurements, the opening and the rows of a
transfer frame, and the changes of the timing. -/

namespace Sys2Proof.Machine

/-- TG_START. -/
def execTgStart (n : Fin 4) (s : State) : Res := .next (s.viaReg (rTG_CMD n) (fun s => s.tgStart n))

/-- TG_STOP. -/
def execTgStop (n : Fin 4) (s : State) : Res := .next (s.viaReg (rTG_CMD n) (fun s => s.tgStop n))

/-! ### SWAP (R193, R194, R201 to R204, R251) -/

def swapSHOW : Nat := 0
def swapHOLD : Nat := 1
def swapBLANK : Nat := 2

/-- The SWAP word. -/
def State.sendSwap (s : State) (n frame mode d : Nat) (endFb : Bool) (x : Rat) : State :=
  let s := s.send n ctlSWAP (2 ^ 40 * (frame % 65536) + 2 ^ 38 * mode + 2 ^ 37 * endFb.toNat + 2 ^ 15 * (d / 4) + 2 ^ 8 * s.fineOffset n x)
  s.updPort n (fun p => { p with acks := p.acks ++ [frame % 65536] })

/-- FRAME_COUNT and LAST_SWAP_TIME. -/
def State.countSwap (s : State) (n frame : Nat) (x : Rat) : State :=
  (s.setRegN (rTG_FRAME_COUNT n) frame).setPair (rTG_LAST_SWAP_TIME_LO n) (rTG_LAST_SWAP_TIME_HI n) (x.floor.toNat % 2 ^ 64)

/-- The light frame that ends was driven; snapshots count its drive interval (R182). -/
def State.endLit (s : State) (n : Nat) : State :=
  if s.tgState n = tgPRE then s
  else
    let d := (s.tgOf n).d
    let s := s.updPr n (fun p => if p.spanSkip = 0 then { p with span := p.span + d } else { p with spanSkip := p.spanSkip - 1 })
    if s.inFallback n then s else s.litFrame n d

/-- The swap that follows STOP. -/
def State.blankSwap (s : State) (n frame : Nat) : State :=
  let x := (s.tgOf n).e
  let s := ((s.endLit n).applyStaged frame x).sendSwap n frame swapBLANK 0 false x
  let s := s.setF (fTG_STATUS_SLOTS_FIRED n) (((s.tgOf n).fired.map (2 ^ ·)).sum)
  let s := ((s.countSwap n frame x).setFull n false).setHandover n 0
  (s.recalSwap n).tgOff n

/-- A swap of generator n with `delta` still to remove: one more frame, or the end of the re-phase, which the first generator to reach it
reports. -/
def State.rephaseStep (s : State) (n : Nat) (delta : Rat) : State :=
  if delta ≠ 0 then s.updTg n (fun g => { g with reph := g.reph + 1 })
  else if s.isF (fTG_STATUS_REPHASING n) then
    let s := s.setF (fTG_STATUS_REPHASING n) 0
    if (s.tgsOn.filter (· ≠ n)).all (fun m => s.isF (fTG_STATUS_REPHASING m)) then s.tgEv evTG_REPHASE_DONE n (s.tgOf n).reph else s
  else s

/-- The handover ends with this swap when SC grants it, or is held (R71). -/
def State.handoverSwap (s : State) (n : Nat) : Bool × State :=
  let h := s.boot.handover.getD n 0
  if h = 2 ∨ h = 4 then
    if h = 2 ∧ s.swapGrant n then (true, (s.updPort n (fun p => { p with fbCmd := false })).setHandover n 3)
    else (false, s.post evSAFETY_HANDOVER_HELD srcSC (2 ^ 30 * n))
  else (false, s)

/-- A statistics record that has not been checked by its swap counts as missing (R361). -/
def State.recordDue (s : State) (n : Nat) : State := if (s.safeT n).record.isSome then s.statsMissing n else s

/-- The slots of the light frame of length `len` that its guard interval leaves room for. -/
def State.slotsFit (s : State) (n : Nat) (len : Rat) (codes : List (Nat × Nat)) : List (Nat × Nat) × State :=
  let t := s.timing
  let late := codes.filter (fun q =>
    let (_, off, ln) := t.slots.getD q.1 (false, 0, 0)
    decide (len - t.guardT < ((off + ln : Nat) : Rat)))
  (codes.filter (fun q => !late.contains q), s.slotSkip n (late.map Prod.fst) 3)

/-- The transfer frame `frame`, when it is the one that waits for its swap. -/
def Tg.xferOf (g : Tg) (frame : Nat) : Option Xfer :=
  match g.xfer with
  | some q => if q.frame = frame then some q else none
  | none => none

def xferCodes : Option Xfer → List (Nat × Nat)
  | some q => q.codes
  | none => []

def xferTorn : Option Xfer → Bool
  | some q => q.torn
  | none => false

/-- A frame that shows a flip leaves its number and the swap instant `x` (R204). -/
def State.flipSwap (s : State) (n frame : Nat) (x : Rat) : Option Xfer → State
  | some q =>
    if q.flip then
      (s.setRegN (rTG_LAST_FLIP_FRAME n) frame).setPair (rTG_LAST_FLIP_TIME_LO n) (rTG_LAST_FLIP_TIME_HI n) (x.floor.toNat % 2 ^ 64)
    else s
  | none => s

/-- Only a swap that shows ends a handover. -/
def State.showHandover (s : State) (n : Nat) (shown : Bool) : Bool × State := if shown then s.handoverSwap n else (false, s)

/-- The swap of frame `frame` at instant `x`, once the timing of the light frame it opens is known: its length, the re-phase left, and
whether it ends the fallback. -/
def State.swapOut (s : State) (n frame : Nat) (g : Tg) (pre shown : Bool) (mine : Option Xfer) (len delta : Rat) (endFb : Bool) :
    State :=
  let x := g.e
  let t := s.timing
  let d := t.driveIn len
  let s := s.countSwap n frame x
  let s := s.setF (fTG_STATUS_SLOTS_FIRED n) ((g.fired.map (2 ^ ·)).sum)
  let s := if pre then
      let half := s.isF (fZTL_STATUS_ONE_LANE n)
      let s := (s.setTgState n (if half then tgHALF else tgRUNNING)).tgEv evTG_TG_STARTED n (2 ^ 30 * n + frame % 2 ^ 30)
      if half then s.tgEv evTG_HALF_RATE n (2 ^ 30 * n + 1) else s
    else s
  let (fire, s) := s.slotsFit n len (xferCodes mine)
  let torn := xferTorn mine
  let keep := if mine.isSome then none else g.xfer
  let s := s.updTg n (fun h => { h with s := x, e := x + len, d := d, delta := delta, xfer := keep, fire := fire, fired := [],
                                        torn := torn, pulse := h.pulseNext, pulseNext := false, sensed := false })
  let s := if torn then s.hlTorn n frame false (s.isF (fTG_SENSE_CFG_EN n) || (s.hl n).oneSweep) else s
  let s := s.flipSwap n frame x mine
  let s := if shown then (s.recordDue n).ttSwap n else s
  let s := s.ttLimit n false (d / 4)
  let s := s.sendSwap n frame (if shown then swapSHOW else swapHOLD) d endFb x
  let s := if shown then s.setFull n (!s.inFallback n) else s
  s.followGrid n frame

/-- A swap that goes on: SHOW with its transfer frame, or HOLD of a tile at half rate. -/
def State.runSwap (s : State) (n frame : Nat) : State :=
  let g := s.tgOf n
  let mine := g.xferOf frame
  let shown := mine.isSome || s.tgState n != tgHALF
  let pre := decide (s.tgState n = tgPRE)
  let s := ((s.endLit n).applyStaged frame g.e).recalSwap n
  let delta := (s.tgOf n).delta
  let l := s.nextLen g.e delta
  let s := s.rephaseStep n delta
  let h := s.showHandover n shown
  h.2.swapOut n frame g pre shown mine l.1 l.2 h.1

/-- SWAP: in PRE it waits for its transfer frame; while OFF there is none. -/
def State.swapOp (s : State) (n : Nat) : State :=
  let s := if (s.tgOf n).pulse then s.pulseFall n else s
  let frame := s.swapFrame n
  if s.tgState n = tgOFF then s
  else if s.tgState n = tgPRE ∧ (match (s.tgOf n).xfer with | some q => q.frame | none => frame + 1) ≠ frame then s
  else if (s.tgOf n).stop then s.blankSwap n frame
  else s.runSwap n frame

def execSwap (n : Fin 4) (s : State) : Res := .next (s.swapOp n)

/-! ### SLOT (R193, R199) -/

/-- An enabled slot of the light frame fires, unless the tile is held in its fallback beam or runs at half rate (R199). -/
def State.slotOp (s : State) (n k : Nat) : State :=
  let g := s.tgOf n
  match g.fire.find? (fun q => q.1 = k) with
  | none => s
  | some (_, code) =>
    let drop := s.updTg n (fun h => { h with fire := h.fire.filter (fun q => q.1 ≠ k) })
    if s.tgState n < tgRUNNING ∨ g.fired.contains k then s
    else if (s.timing.slots.getD k (false, 0, 0)).1 = false then drop
    else if s.inFallback n then drop.slotSkip n [k] 4
    else if s.tgState n = tgHALF then drop.slotSkip n [k] 5
    else
      let (_, off, len) := s.timing.slots.getD k (false, 0, 0)
      let s := s.ttLimit n true (len / 4)
      let s := s.send n ctlSLOT (2 ^ 54 * (k % 4) + 2 ^ 37 * (len / 4) + 2 ^ 21 * code + 2 ^ 14 * s.fineOffset n (g.s + (off : Nat)))
      s.updTg n (fun h => { h with fired := h.fired ++ [k] })

def execSlot (n k : Fin 4) (s : State) : Res := .next (s.slotOp n k)

/-! ### SENSE (R200) -/

/-- The chunk is not sensed in this guard interval. -/
def State.senseSkip (s : State) (n : Nat) : State :=
  let s := s.updTg n (fun g => { g with sensed := true })
  let s := if (s.tgOf n).torn then s else s.hlSkip n (s.regN (rTG_FRAME_COUNT n)) (s.getF (fTG_SENSE_CFG_CHUNK n))
  (s.raise (fTG_STATUS_SENSE_SKIP n) (rTG_SENSE_SKIP_COUNT n)).tgEv evTG_SENSE_SKIP n
    (2 ^ 30 * n + s.getF (fTG_SENSE_CFG_CHUNK n))

/-- SENSE is due once in each guard interval. -/
def State.senseOp (s : State) (n : Nat) : State :=
  let g := s.tgOf n
  let ts := 1000 * s.getF (fTG_SENSE_CFG_T_SENSE n)
  let gd := s.timing.guardT
  if s.tgState n < tgRUNNING ∨ g.sensed ∨ (s.isF (fTG_SENSE_CFG_EN n) = false ∧ (s.hl n).oneSweep = false) then s
  else if gd < ts + 4000 ∨ (g.pulse ∧ gd < 120000 + ts) then s.senseSkip n
  else
    let c := s.getF (fTG_SENSE_CFG_CHUNK n)
    let f := s.fineOffset n (g.e - gd + 2000)
    let s := s.send n ctlSENSE (2 ^ 52 * (c % 16) + 2 ^ 51 * s.sweepKind n + 2 ^ 49 * s.getF fHEALTH_SWEEP_CFG_SENSE_I + 2 ^ 42 * f)
    let s := s.updTg n (fun g => { g with sensed := true })
    if g.torn then s else s.hlSense n (s.regN (rTG_FRAME_COUNT n)) c

def execSense (n : Fin 4) (s : State) : Res := .next (s.senseOp n)

/-! ### The transfer frame (R195, R206, R24) -/

/-- FRAME_START opens the transfer frame that the latch point began. -/
def State.frameStartOp (s : State) (n : Nat) : State :=
  match (s.tgOf n).xfer with
  | none => s
  | some x =>
    if x.opened then s
    else
      let maps := (x.maps.map (2 ^ ·)).sum
      let s := s.send n ctlFRAME_START (2 ^ 24 * x.frame + 2 ^ 13 * x.sel + 2 ^ 9 * maps)
      s.updTg n (fun g => { g with xfer := some { x with opened := true } })

def execFrameStart (n : Fin 4) (s : State) : Res := .next (s.frameStartOp n)

/-- Range states of the pixels of a row that has been sent (R170). -/
def takeRanges (t : List (Nat × Nat)) (r : DriveRow) : List (Nat × Nat) :=
  tabPutAll (fun _ => 0) t (512 * r.y) (r.ranges.zipWith (fun x old => if x = 0 then old else x)
    (tabRange (fun _ => 0) t (512 * r.y) r.ranges.length))

/-- The row leaves as drive codes, and Tether checks it. -/
def State.rowOut (s : State) (n frame : Nat) (r : DriveRow) : State :=
  let s := s.sendRow n frame r.y r.codes
  let s := s.updPr n (fun p => { p with out := p.out.drop 1, sent := p.sent ++ [r], range := takeRanges p.range r })
  s.ttRow n r.y frame r.codes

/-- The row's place is taken by ROW_CARRY. -/
def State.rowCarry (s : State) (n frame y : Nat) : State :=
  let s := s.sendCarry n y
  let s := s.updPr n (fun p => { p with carried := p.carried ++ [y], out := p.out.filter (fun r => decide (y < r.y)) })
  let s := (s.bump (rCP_ROW_CARRY_COUNT n)).postOnce evCOMPOSE_ROW_CARRY n s.lampFrame (srcCP n) (2 ^ 30 * n + frame % 2 ^ 30)
  s.ttCarry n y frame

/-- The next row slot of the transfer frame. -/
def State.rowSlotOp (s : State) (n : Nat) : State :=
  match (s.tgOf n).xfer with
  | none => s
  | some x =>
    if x.opened = false ∨ x.ended ∨ 512 ≤ x.next then s
    else
      let y := x.next
      let s := if y = 0 then s.recalRow n else s
      let s :=
        match (s.pr n).out with
        | r :: _ => if y < x.carryFrom ∧ r.y = y then s.rowOut n x.frame r else s.rowCarry n x.frame y
        | [] => s.rowCarry n x.frame y
      let s := s.updTg n (fun g => { g with xfer := g.xfer.map (fun q => { q with next := y + 1 }) })
      s.pressFill n 4

def execRowSlot (n : Fin 4) (s : State) : Res := .next (s.rowSlotOp n)

/-! ### Changing the timing (R205, R206) -/

/-- TIMING_COMMIT. -/
def execTimingCommit (v : Word) (s : State) : Res := .next (s.viaReg (rTG_TIMING_COMMIT 0) (fun s => s.timingCommit v.toNat))

/-- The bits of a register that software may write. -/
def wrBits (off : Nat) : Word :=
  match regRow off with
  | some r => r.wr
  | none => 0

/-- DIRECT_TIMING_WRITE of the register at `off` of TG_0; another register has no direct write. -/
def execDirectTimingWrite (off : BitVec 24) (v : Word) (s : State) : Res :=
  .next (s.viaRegV off.toNat v (fun v s => s.directWrite off.toNat (v &&& wrBits off.toNat)))

end Sys2Proof.Machine
end

