-- ==== Sys2Proof/Machine/TileProto.lean ====
section
/-! DEFINITION. The tile protocol as the port sees it (R253, R255, R260 to R271): acknowledgements, status words, blocks, the
capability record and its checks, authenticity, the tile's registers, its calibration map and its life record. -/

namespace Sys2Proof.Machine

/-! ### Blocks (R260, R261) -/

/-- Count and CRC of a received block agree with its header and end. -/
def blkGood (b : BlockIn) : Bool :=
  payF b.hdr 51 32 == b.words.length && b.crc.toNat == crc32c (b.words.flatMap (fun w => leBytes 8 w.toNat))

/-- Its data as bytes. -/
def blkBytes (b : BlockIn) : List Byte := b.words.flatMap (fun w => leBytes 8 w.toNat)

/-- A block of `kind` is discarded. -/
def State.blockDrop (s : State) (n kind : Nat) : State :=
  (s.raise (fZTL_PROTO_FLAGS_BLOCK_BAD n) (rZTL_BLOCK_BAD_COUNT n)).zEvOnce evZTL_BLOCK_BAD n kind

/-! ### Capabilities (R49, R262, R263) -/

/-- Bytes [off, off + n) of a record as a number. -/
def fieldAt (r : List Byte) (off n : Nat) : Nat := ofLe ((r.drop off).take n)

/-- Offset of the first field that R262 or R263 rules out. -/
def capsBad (r : List Byte) : Option Nat :=
  let f := fieldAt r
  let n := f 0x29 1
  let flags := f 0x1C 2
  let checks : List (Nat × Bool) :=
    [(0x00, f 0 4 != 0x5041435A), (0x04, f 4 2 / 256 != 1), (0x0C, f 0x0C 4 != 0), (0x10, f 0x10 8 == 0),
     (0x18, f 0x18 2 != 512), (0x1A, f 0x1A 2 != 512), (0x1C, decide (8 ≤ flags)),
     (0x1E, f 0x1E 1 == 0 || decide (4 < f 0x1E 1)), (0x1F, decide (2 < f 0x1F 1)), (0x24, decide (32000 < f 0x24 2)),
     (0x26, f 0x26 2 == 0 || decide (100 < f 0x26 2)), (0x28, f 0x28 1 == 0 || decide (100 < f 0x28 1)),
     (0x29, n == 0 || decide (4 < n)), (0x2E, f 0x2E 2 != 0),
     (0x30, decide (n ≤ 4) && (List.range 4).any (fun k => decide (n ≤ k) && f (0x30 + 2 * k) 2 != 0)),
     (0x3C, f 0x3C 4 != (if flags % 2 = 1 then 4194304 else 2097152)),
     (0x46, f 0x46 2 == 0 || decide (100 < f 0x46 2)), (0x4C, (r.drop 0x4C).any (· != 0))]
  (checks.find? Prod.snd).map Prod.fst

/-- The record as read. -/
def capsOf (r : List Byte) : Caps :=
  let f := fieldAt r
  { vendor := f 0x06 2, typ := f 0x08 2, tileId := f 0x10 8, spares := (f 0x1C 2).testBit 0, auth := (f 0x1C 2).testBit 1,
    fbPatterns := f 0x1E 1, sensors := f 0x1F 1, iUnit := f 0x20 4, tFixed := f 0x24 2, tReady := f 0x26 2, tSense := f 0x28 1,
    nSenseI := f 0x29 1, vfLsb := f 0x2A 2, vfBase := f 0x2C 2, ratedLife := f 0x38 4, mapSize := f 0x3C 4, mapCrc := f 0x40 4,
    nvMin := signOf 8 (f 0x44 1), nvMax := signOf 8 (f 0x45 1) }

/-- Offset of the first field in which a record differs from a declared type. -/
def typeDiff (r : List Byte) (t : TileType) : Option Nat :=
  let f := fieldAt r
  let checks : List (Nat × Bool) :=
    [(0x06, f 0x06 2 != t.vendor), (0x08, f 0x08 2 != t.typ), (0x18, f 0x18 2 != t.geometry / 65536),
     (0x1A, f 0x1A 2 != t.geometry % 65536), (0x1C, (f 0x1C 2).testBit 0 != t.spares)]
  (checks.find? Prod.snd).map Prod.fst

def State.portTypes (s : State) (n : Nat) : List TileType := nth [] s.loader.cfg.bd.tileTypes n

/-- What an accepted record had set is taken back (log 143). -/
def State.capsDrop (s : State) (n : Nat) : State :=
  let s := ((s.setRegN (rZTL_TILE_ID_LO n) 0).setRegN (rZTL_TILE_ID_HI n) 0).setRegN (rZTL_TILE_TYPE n) 0
  let s := (s.setF (fZTL_STATUS_CAPS_ACCEPTED n) 0).setTileBit fTOP_START_STATUS_TILES_UP n false
  s.updPort n (fun p => { p with caps := none, selStage := 0, selTries := 0, nv := none, nvRead := none, nvQueue := [],
                                 mapRead := false, chal := none, refused := true })

/-- The tile is treated as absent (R49): a tile accepted before stops being so, and its generator stops. -/
def State.tileMismatch (s : State) (n field : Nat) : State :=
  let s := s.post evCONFIG_TILE_MISMATCH srcTOP (2 ^ 30 * n + field)
  let s := if s.tgState n = tgOFF then s else s.tgOff n
  (((s.capsDrop n).setFull n false).setHandover n 0).setAbsent n true

/-! ### Authenticity (R268) -/

/-- A random challenge: 32 free bytes. -/
def State.challenge (s : State) : List Byte × State :=
  (List.range 8).foldl (fun (a : List Byte × State) _ =>
    let (w, s) := a.2.fresh
    (a.1 ++ leBytes 4 w.toNat, s)) ([], s)

/-- The seven AUTH_CHAL words. -/
def State.authStart (s : State) (n : Nat) : State :=
  let (c, s) := s.challenge
  let s := (s.setF (fZTL_AUTH_STATUS_STATE n) 3).updPort n (fun p => { p with chal := some c })
  let pad := c ++ [0#8, 0#8, 0#8]
  (List.range 7).foldl (fun s k =>
    s.send n ctlAUTH_CHAL (2 ^ 53 * k + 2 ^ 8 * ofBe ((pad.drop (5 * k)).take 5))) s

/-- The check fails. -/
def State.authFail (s : State) (n : Nat) : State :=
  (s.setF (fZTL_AUTH_STATUS_STATE n) 2).tileMismatch n 0xFF

/-- The key the maker of the accepted type signs with. -/
def State.authKey (s : State) (n : Nat) (r : List Byte) : Option (List Byte) :=
  ((s.portTypes n).find? (fun t => (typeDiff r t).isNone)).bind TileType.authKey

/-- Both signatures of an AUTH block. -/
def State.authOk (s : State) (n : Nat) (d chal : List Byte) : Bool :=
  match (s.portOf n).caps with
  | none => false
  | some c =>
    let key := ((s.portTypes n).find? (fun t => decide (t.vendor = c.vendor ∧ t.typ = c.typ ∧ t.spares = c.spares))).bind
      TileType.authKey
    let pub := d.take 64
    let ident := leBytes 8 c.tileId ++ leBytes 2 c.vendor ++ leBytes 2 c.typ ++ pub
    match key with
    | none => false
    | some k => ecdsaVerify k (sha256 ident) ((d.drop 64).take 64)
        && ecdsaVerify pub (sha256 (chal ++ leBytes 8 c.tileId)) ((d.drop 128).take 64)

/-! ### The calibration map and the life record, read (R70, R265, R292) -/

/-- An NV_READ of `len` 8-byte units from unit `start`. -/
def State.nvSend (s : State) (n start len tries : Nat) : State :=
  let tag := (match (s.portOf n).nvRead with | some (_, _, t, _) => t + 1 | none => 0) % 256
  let s := s.send n ctlNV_READ (2 ^ 36 * start + 2 ^ 16 * len + 2 ^ 8 * tag)
  s.updPort n (fun p => { p with nvRead := some (start, len, tag, tries) })

def lifeUnitA : Nat := 0x400000 / 8
def lifeUnitB : Nat := 0x408000 / 8

/-- A read of `len` units from unit `start`: in pieces of at most 4,096 words while TG_n runs (R261). -/
def State.nvPiece (s : State) (n start len tries : Nat) : State :=
  if s.tgState n = tgOFF ∨ len ≤ 4096 then s.nvSend n start len tries
  else (s.updPort n (fun p => { p with nvQueue := (start + 4096, len - 4096) :: p.nvQueue })).nvSend n start 4096 tries

/-- The life-record halves are read, and then what `more` names. -/
def State.startReads (s : State) (n : Nat) (more : List (Nat × Nat)) : State :=
  (s.updPort n (fun p => { p with nvQueue := (lifeUnitB, 0x1000) :: more, lifeA := [], lifeB := [], mapRead := false })).nvSend n
    lifeUnitA 0x1000 0

/-- The life-record halves and the map are read. -/
def State.startMapRead (s : State) (n : Nat) : State :=
  match (s.portOf n).caps with
  | none => s
  | some c => s.startReads n [(0, c.mapSize / 8)]

/-- DRAM is there: the maps that tiles wait for are read (R69). -/
def State.mapReads (s : State) : State :=
  (List.range 4).foldl (fun s n =>
    if s.tileUp n = false then s else if s.boot.mapOk.getD n false then s.startReads n [] else s.startMapRead n) s

/-- Where the bytes of a read go. -/
def State.nvStore (s : State) (n start : Nat) (bs : List Byte) : State :=
  if start = lifeUnitA then s.updPort n (fun p => { p with lifeA := bs })
  else if start = lifeUnitB then s.updPort n (fun p => { p with lifeB := bs })
  else
    let at_ := 8 * start
    let k := 0x200000 - at_
    let s := s.putDram (s.recTable n 0 + at_) (bs.take k)
    if s.hasSpares n then s.putDram (s.recTable n 1 + (at_ - 0x200000)) (bs.drop k) else s

/-- LIFE_SEQ, once both halves have been read (R269). -/
def State.lifeShow (s : State) (n : Nat) : State :=
  match (s.portOf n).nvRead with
  | none => s
  | some q =>
    if q.1 = lifeUnitB then
      s.setF (fZTL_NV_STATUS_LIFE_SEQ n) (((lifeValid (s.portOf n).lifeA (s.portOf n).lifeB).map Prod.fst).getD 0)
    else s

/-- The next read, or the end of the reading; the map of a tile whose map is in DRAM already is not read. -/
def State.nvNext (s : State) (n : Nat) : State :=
  let s := s.lifeShow n
  match (s.portOf n).nvQueue with
  | (a, l) :: t => (s.updPort n (fun p => { p with nvQueue := t })).nvPiece n a l 0
  | [] => s.updPort n (fun p => { p with nvRead := none, mapRead := !s.boot.mapOk.getD n false })

/-- A block of `kind` that nothing waits for: a bad one is counted all the same. -/
def State.blockStray (s : State) (n kind : Nat) (b : BlockIn) : State := if blkGood b then s else s.blockDrop n kind

/-- An NV block for the read in progress; a discarded one is requested up to two more times. -/
def State.nvBlock (s : State) (n : Nat) (b : BlockIn) : State :=
  match (s.portOf n).nvRead with
  | none => s.blockStray n 3 b
  | some (start, len, tag, tries) =>
    if blkGood b ∧ b.words.length = len ∧ payF b.hdr 15 8 = tag then (s.nvStore n start (blkBytes b)).nvNext n
    else
      let s := s.blockDrop n 3
      if tries < 2 then s.nvPiece n start len (tries + 1) else s.nvNext n

/-! ### Acceptance (R263, R294) -/

/-- Checkpoints of tile n have been written and none of them is valid: CKPT_FAIL (R297, log 153). -/
def State.ckptLost (s : State) (n : Nat) : State :=
  if (s.ckptNewest n).isNone ∧ [0, 1].all (fun h => s.storeBlank (ckptAt n h) 0x301000) = false then s.ckptFail n else s

/-- Is the tile a replacement of the one on record? What HEALTH kept of the old one is gone (R294). -/
def State.replaceCheck (s : State) (n id : Nat) : State :=
  let old := (s.ckptNewest n).map (fun q => q.2.1)
  if old = some id then s
  else
    let s := s.ckptLost n
    let s := s.updHl n (fun h => { caps := h.caps, sweep := h.sweep, kindNo := h.kindNo, oneSweep := h.oneSweep, linkFrom := h.linkFrom, fresh := true })
    let s := ((s.setRegN (rHEALTH_EOL n) 0).setRegN (rHEALTH_SHORTFALL n) 0).setRegN (rHEALTH_LIFE_USED n) 0
    let s := (s.setRegN (rHEALTH_LIT_S n) 0).darnBusy.baseActive
    let s := s.updBoot (fun b => { b with mapOk := b.mapOk.set n false, mapFail := b.mapFail.set n false, mapTries := b.mapTries.set n 0 })
    s.post evHEALTH_TILE_REPLACED srcHEALTH (2 ^ 30 * n + 2 ^ 16 * (id % 16384) + old.getD 0 % 65536)

/-- The registers show the tile's record. -/
def State.capsShow (s : State) (n : Nat) (c : Caps) : State :=
  let s := s.setRegN (rTG_LINK_LAT n) ((c.tFixed + nth 0 s.loader.cfg.bd.flight n) % 65536)
  let s := s.setF (fTG_SENSE_CFG_T_SENSE n) c.tSense
  let s := s.setPair (rZTL_TILE_ID_LO n) (rZTL_TILE_ID_HI n) c.tileId
  let s := (s.setRegN (rZTL_TILE_TYPE n) (65536 * c.vendor + c.typ)).setF (fZTL_STATUS_CAPS_ACCEPTED n) 1
  ((s.setTileBit fTOP_START_STATUS_TILES_UP n true).setAbsent n false).setF (fZTL_AUTH_STATUS_STATE n) 0

/-- Correction memory of a tile whose map is in DRAM is filled again; where a word is lost, the map is no longer good. -/
def State.refillTile (s : State) (n : Nat) : State :=
  let r := s.fillAll n
  if r.1 then r.2.dropRanges n else r.2.updBoot (fun b => { b with mapOk := b.mapOk.set n false })

/-- What an accepted tile needs: the map in DRAM, which is read where it has none (R69, R70); else correction memory and the number of
its life record anew (R297, R269). -/
def State.tileLoad (s : State) (n : Nat) : State :=
  if s.isF fTOP_START_STATUS_DRAM_READY = false then s
  else
    let s := if s.boot.mapOk.getD n false then s.refillTile n else s
    if s.boot.mapOk.getD n false then s.startReads n [] else s.startMapRead n

/-- The record is accepted. -/
def State.capsAccept (s : State) (n : Nat) (r : List Byte) : State :=
  let c := capsOf r
  let s := (s.updPort n (fun p => { p with caps := some c, selStage := 0, selTries := 0 })).updHl n (fun h => { h with caps := some c })
  let s := (s.capsShow n c).replaceCheck n c.tileId
  let s := match s.authKey n r with
    | none => s
    | some _ => if c.auth then s.authStart n else s.authFail n
  if (s.portOf n).refused then s else s.tileLoad n

/-- A capability record has been received whole: the port is ACTIVE, and the record is checked. -/
def State.capsCheck (s : State) (n : Nat) (r : List Byte) : State :=
  let s := s.portActive n
  match capsBad r with
  | some f => s.tileMismatch n f
  | none =>
    let ts := s.portTypes n
    if ts.any (fun t => (typeDiff r t).isNone) then s.capsAccept n r
    else s.tileMismatch n ((ts.head?.bind (typeDiff r)).getD 0x06)

/-- A CAPS block. -/
def State.capsBlock (s : State) (n : Nat) (b : BlockIn) : State :=
  if s.zState n ≠ zCAPS then (if s.zActive n then s.blockStray n 2 b else s)
  else if blkGood b ∧ b.words.length = 16 ∧ payF b.hdr 55 52 = 2 then s.capsCheck n (blkBytes b)
  else
    let s := s.blockDrop n 2
    if (s.portOf n).capsTries < 2 then
      (s.updPort n (fun p => { p with capsTries := p.capsTries + 1 })).send n ctlCAPS_REQ 0
    else s

def execCapsBlock (n : Fin 4) (b : BlockIn) (s : State) : Res := .next (s.capsBlock n b)

/-- An AUTH block. -/
def State.authBlock (s : State) (n : Nat) (b : BlockIn) : State :=
  match (s.portOf n).chal with
  | none => if s.zActive n then s.blockStray n 4 b else s
  | some c =>
    let s := s.blockStray n 4 b
    if blkGood b ∧ b.words.length = 24 ∧ s.authOk n (blkBytes b) c then
      (s.setF (fZTL_AUTH_STATUS_STATE n) 1).updPort n (fun p => { p with chal := none })
    else s.authFail n

def execAuthBlock (n : Fin 4) (b : BlockIn) (s : State) : Res := .next (s.authBlock n b)

/-- AUTH_TIMEOUT. -/
def execAuthTimeout (n : Fin 4) (s : State) : Res :=
  .next (if (s.portOf n).chal.isSome then s.authFail n else s)

/-! ### The selection-map load (R255) -/

/-- The map load begins: TG_n is OFF and the tile has selection maps. -/
def State.selLoad (s : State) (n : Nat) : State :=
  if s.tgState n = tgOFF ∧ s.tileUp n ∧ s.hasSpares n then
    (s.updPort n (fun p => { p with selTries := 0 })).sendSelClear n
  else s

def execSelMapLoad (n : Fin 4) (s : State) : Res := .next (s.selLoad n)

/-- The tile refuses a step of the load: it is repeated once. -/
def State.selRefused (s : State) (n : Nat) : State :=
  if (s.portOf n).selTries = 0 then (s.updPort n (fun p => { p with selTries := 1 })).sendSelClear n
  else
    let s := s.updPort n (fun p => { p with selStage := 4 })
    let s := (s.raise (fZTL_PROTO_FLAGS_TILE_FAULT n) (rZTL_TILE_FAULT_COUNT n)).zEvOnce evZTL_TILE_FAULT n 0xFF
    if (s.tgOf n).startWait then (s.updTg n (fun g => { g with startWait := false })).tgStart n else s

/-- T_CTRL is acknowledged. -/
def State.selAck (s : State) (n result : Nat) : State :=
  let st := (s.portOf n).selStage
  if result ≠ 0 then s.selRefused n
  else if st = 1 then s.sendSelMap n
  else
    let s := s.updPort n (fun p => { p with selStage := 3 })
    if (s.tgOf n).startWait then (s.updTg n (fun g => { g with startWait := false })).tgStart n else s

/-! ### The life record, written (R266, R267, R291) -/

/-- Estimates of the tile's blocks, 1/16 K. -/
def State.blkTemps (s : State) (n : Nat) : List Int := (List.range 256).map (fun b => signOf 16 (s.regN (rHK_BLKTEMP (256 * n + b))))

/-- Is every block within the write window? -/
def State.nvWindow (s : State) (n : Nat) : Bool :=
  match (s.portOf n).caps with
  | none => false
  | some c =>
    let lo := 16 * max (-30) c.nvMin
    let hi := 16 * min 95 c.nvMax
    (s.blkTemps n).all (fun t => decide (lo ≤ t) && decide (t ≤ hi))

/-- Seconds since the deferral began count towards NV_DEFER_MAX. -/
def State.nvDeferTime (s : State) (n : Nat) : State :=
  match (s.portOf n).deferFrom with
  | none => s
  | some t =>
    let k := satAt 65535 ((s.time.now - t) / 800000000)
    if s.regN (rZTL_NV_DEFER_MAX n) < k then s.setRegN (rZTL_NV_DEFER_MAX n) k else s

/-- The write waits for the window. -/
def State.nvDefer (s : State) (n : Nat) : State :=
  let s := (s.setF (fZTL_NV_STATUS_PENDING n) 1).setF (fZTL_NV_STATUS_OUT_OF_WINDOW n) 1
  let s := (s.setF (fZTL_NV_STATUS_BUSY n) 0).updPort n (fun p => { p with nv := none })
  match (s.portOf n).deferFrom with
  | some _ => s.nvDeferTime n
  | none =>
    let hot := (s.blkTemps n).foldl max (-32768)
    (s.updPort n (fun p => { p with deferFrom := some s.time.now })).zEvOnce evZTL_NV_DEFERRED n (unsignOf 16 hot)

/-- Is the tile's own record still to be read? Until then a write has no number (DEDUCED, log 172). -/
def State.lifeUnread (s : State) (n : Nat) : Bool :=
  (!s.boot.mapOk.getD n false && !s.boot.mapFail.getD n false)
    || (match (s.portOf n).nvRead with | some q => q.1 == lifeUnitA || q.1 == lifeUnitB | none => false)

/-- NV_BEGIN, when nothing stands in the way. -/
def State.nvTry (s : State) (n : Nat) : State :=
  if s.tileUp n = false ∨ (s.portOf n).nv.isSome ∨ s.lifeUnread n then s.setF (fZTL_NV_STATUS_PENDING n) 1
  else if s.nvWindow n = false then s.nvDefer n
  else
    let s := (s.nvDeferTime n).updPort n (fun p => { p with deferFrom := none })
    let ws := leWords (s.lifeBytes n)
    let seq := (s.getF (fZTL_NV_STATUS_LIFE_SEQ n) + 1) % 65536
    let s := s.updHl n (fun h => { h with lifeDue := 0, lastState := if h.lifeDue = 1 then some s.time.now else h.lastState })
    let s := s.updPort n (fun p => { p with nv := some { words := ws, seq := seq, stage := 1 } })
    let s := ((s.setF (fZTL_NV_STATUS_PENDING n) 0).setF (fZTL_NV_STATUS_OUT_OF_WINDOW n) 0).setF (fZTL_NV_STATUS_BUSY n) 1
    s.send n ctlNV_BEGIN (2 ^ 40 * seq + 2 ^ 27 * ws.length)

/-- Have `sec` seconds passed since `t`? -/
def State.after (s : State) (t : Option Nat) (sec : Nat) : Bool :=
  match t with
  | some a => decide (a + 800000000 * sec ≤ s.time.now)
  | none => true

/-- A life-record write that is due. -/
def State.lifeWrite (s : State) (n : Nat) : State :=
  let h := s.hl n
  if h.lifeDue = 0 ∧ s.isF (fZTL_NV_STATUS_PENDING n) = false then s
  else if s.after h.lastCommit 60 = false ∨ (h.lifeDue = 1 ∧ s.after h.lastState 600 = false) then s
  else s.nvTry n

def execLifeRecordWrite (n : Fin 4) (s : State) : Res := .next (s.lifeWrite n)

/-- A write that waits for temperature is tried again (R267). -/
def State.nvAgain (s : State) (n : Nat) : State :=
  if s.isF (fZTL_NV_STATUS_PENDING n) ∧ s.isF (fZTL_NV_STATUS_OUT_OF_WINDOW n) then s.nvTry n else s

/-- A sequence ends. -/
def State.nvEnd (s : State) (n : Nat) : State :=
  (s.setF (fZTL_NV_STATUS_BUSY n) 0).updPort n (fun p => { p with nv := none })

/-- The tile refuses a word of the sequence. -/
def State.nvFail (s : State) (n result : Nat) : State :=
  ((s.nvEnd n).raise (fZTL_PROTO_FLAGS_NV_FAIL n) (rZTL_NV_FAIL_COUNT n)).zEvOnce evZTL_NV_FAIL n result

/-- NV_BEGIN is acknowledged: the words, and the commit if the window still holds. -/
def State.nvBegun (s : State) (n : Nat) (v : NvSeq) (result : Nat) : State :=
  if result ≠ 0 then s.nvFail n result
  else
    let s := v.words.zipIdx.foldl (fun s q => s.send n ctlNV_WRITE (2 ^ 43 * q.2 + 2 ^ 11 * q.1.toNat)) s
    if s.nvWindow n = false then s.nvDefer n
    else
      let s := s.send n ctlNV_COMMIT (2 ^ 40 * v.seq + 2 ^ 8 * crc32c (wordBytes v.words))
      s.updPort n (fun p => { p with nv := some { v with stage := 3 } })

/-- NV_COMMIT is acknowledged. -/
def State.nvCommitted (s : State) (n : Nat) (v : NvSeq) (result : Nat) : State :=
  let s := s.setF (fZTL_NV_STATUS_RESULT n) result
  if result ≠ 0 then s.nvFail n result
  else
    let s := (s.nvEnd n).setF (fZTL_NV_STATUS_LIFE_SEQ n) v.seq
    let s := s.updHl n (fun h => { h with commits := h.commits + 1, lastCommit := some s.time.now })
    s.zEvOnce evZTL_NV_DONE n v.seq

/-! ### Acknowledgements (R260, R269) -/

/-- A register write is acknowledged: T_CTRL of the map load, else the operation of TREG_CMD. -/
def State.regAck (s : State) (n addr result : Nat) : State :=
  let p := s.portOf n
  if addr = 8 ∧ (p.selStage = 1 ∨ p.selStage = 2) then s.selAck n result
  else if p.treg = some (addr, true) then s.tregDone n result
  else s

/-- One ACK: type, tag or address, result. -/
def State.ackIn (s : State) (n typ tag result : Nat) : State :=
  let p := s.portOf n
  if typ = ctlFALLBACK then
    if tag = p.fbTag ∧ (result = 0 ∨ result = 2) ∧ p.fbCmd then
      ((s.updPort n (fun p => { p with fbWait := false })).updSafeT n (fun t => { t with fbTimer := false })).handoverAck n
    else s
  else if typ = ctlREG_WR then s.regAck n tag result
  else if typ = ctlNV_READ then (if p.nvRead.isSome then s.nvNext n else s)
  else
    match p.nv with
    | none => s
    | some v =>
      if typ = ctlNV_BEGIN ∧ v.stage = 1 then s.nvBegun n v result
      else if typ = ctlNV_COMMIT ∧ v.stage = 3 then s.nvCommitted n v result
      else s

/-- ACK. -/
def execAck (n : Fin 4) (b : BkBits) (s : State) : Res :=
  .next (s.backIn n ctlACK b (fun p s => if s.zActive n then s.ackIn n (payF p 55 48) (payF p 47 32) (payF p 31 24) else s))

/-! ### Swaps as the tile reports them (R251 to R253, R270) -/

/-- Toggles of a transfer frame that the tile has taken are no longer to be sent. -/
def State.selConfirm (s : State) (n frame16 : Nat) : State :=
  let sent := ((s.portOf n).flown.filter (fun q => q.1 = frame16)).flatMap Prod.snd
  let s := s.updPort n (fun p =>
    { p with flown := p.flown.filter (fun q => decide (q.1 ≠ frame16)),
             toggles := sent.foldl (fun t q => tabSet (fun _ => 0) t q.1 (tabGet (fun _ => 0) t q.1 ^^^ q.2)) p.toggles })
  s.showPending n

/-- They stay to be sent again. -/
def State.selHold (s : State) (n frame16 : Nat) : State :=
  let had := (s.portOf n).flown.any (fun q => q.1 = frame16 && !q.2.isEmpty)
  s.updPort n (fun p => { p with flown := p.flown.filter (fun q => decide (q.1 ≠ frame16)), resend := p.resend || had })

/-- SWAP_ACK: frame, outcome, hold reasons, valid maps. -/
def State.swapAckIn (s : State) (n frame outcome reasons maps : Nat) : State :=
  let s := s.setRegN (rZTL_SWAP_STATUS n) (65536 * frame + 16384 * outcome + 1024 * reasons + 64 * maps)
  let s := s.updPort n (fun p => { p with acks := p.acks.filter (fun f => decide (f ≠ frame)) })
  let s := if reasons = 0 then s
    else (s.raise (fZTL_PROTO_FLAGS_FRAME_HELD n) (rZTL_FRAME_HELD_COUNT n)).zEvOnce evZTL_FRAME_HELD n (65536 * reasons + frame)
  if outcome = 0 ∨ (outcome = 3 ∧ reasons = 0) then (s.selConfirm n frame).darnShown n frame else s.selHold n frame

def execSwapAck (n : Fin 4) (b : BkBits) (s : State) : Res :=
  .next (s.backIn n ctlSWAP_ACK b (fun p s =>
    if s.zActive n then s.swapAckIn n (payF p 55 40) (payF p 39 38) (payF p 37 34) (payF p 33 30) else s))

/-- SWAP_ACK_MISSING: the oldest swap not acknowledged is taken as shown. -/
def execSwapAckMissing (n : Fin 4) (s : State) : Res :=
  .next (match (s.portOf n).acks with
    | [] => s
    | f :: t =>
      let s := s.updPort n (fun p => { p with acks := t })
      let s := (s.raise (fZTL_PROTO_FLAGS_SWAP_ACK_MISSING n) (rZTL_SWAP_ACK_MISSING_COUNT n)).zEvOnce evZTL_SWAP_ACK_MISSING n f
      (s.selConfirm n f).darnShown n f)

/-- FB_ACK_LATE. -/
def execFbAckLate (n : Fin 4) (s : State) : Res :=
  .next (if (s.portOf n).fbWait = false then s
    else
      let s := s.updPort n (fun p => { p with fbWait := false })
      (s.raise (fZTL_PROTO_FLAGS_FB_ACK_LATE n) (rZTL_FB_ACK_LATE_COUNT n)).zEvOnce evZTL_FB_ACK_LATE n 0)

/-! ### Status words and register data (R261, R264, R269) -/

/-- TILE_STATUS: sensors 0 and 1, flags, fault code. -/
def State.tileStatusIn (s : State) (n s0 s1 flags fault : Nat) : State :=
  let last := s.regN (rZTL_TILE_STATE n) / 256 % 256
  let s := (s.setRegN (rZTL_TILE_TEMP n) (65536 * s1 + s0)).setRegN (rZTL_TILE_STATE n) (256 * fault + flags)
  if fault = 0 ∨ fault = last then s
  else (s.raise (fZTL_PROTO_FLAGS_TILE_FAULT n) (rZTL_TILE_FAULT_COUNT n)).zEvOnce evZTL_TILE_FAULT n fault

def execTileStatus (n : Fin 4) (b : BkBits) (s : State) : Res :=
  .next (s.backIn n ctlTILE_STATUS b (fun p s =>
    if s.zActive n then s.tileStatusIn n (payF p 55 44) (payF p 43 32) (payF p 31 24) (payF p 15 8) else s))

/-- REG_DATA. -/
def execRegData (n : Fin 4) (b : BkBits) (s : State) : Res :=
  .next (s.backIn n ctlREG_DATA b (fun p s =>
    if (s.portOf n).treg = some (payF p 55 40, false) then (s.setRegN (rZTL_TREG_DATA n) (payF p 39 8)).tregDone n 0 else s))

/-- A tile register operation; ignored while one is in progress. -/
def State.tregOp (s : State) (n : Nat) (write : Bool) : State :=
  if s.isF (fZTL_TREG_STATUS_BUSY n) then s
  else
    let a := s.regN (rZTL_TREG_ADDR n) % 65536
    let s := (s.setRegN (rZTL_TREG_STATUS n) 256).updPort n (fun p => { p with treg := some (a, write) })
    if s.zActive n = false then s
    else if write then s.send n ctlREG_WR (2 ^ 40 * a + 2 ^ 8 * s.regN (rZTL_TREG_DATA n))
    else s.send n ctlREG_RD (2 ^ 40 * a)

/-- TREG_READ. -/
def execTregRead (n : Fin 4) (s : State) : Res := .next (s.viaReg (rZTL_TREG_CMD n) (fun s => s.tregOp n false))

/-- TREG_WRITE. -/
def execTregWrite (n : Fin 4) (s : State) : Res := .next (s.viaReg (rZTL_TREG_CMD n) (fun s => s.tregOp n true))

/-- TREG_TIMEOUT. -/
def execTregTimeout (n : Fin 4) (s : State) : Res := .next (if (s.portOf n).treg.isSome then s.tregDone n 6 else s)

/-! ### Sense and NV blocks -/

/-- The 16,384 results of a sense block. -/
def senseResults (b : BlockIn) : List Nat := b.words.flatMap (fun w => (List.range 4).map (fun k => bitsOf w.toNat (16 * k) 16))

/-- A sense block for the chunk awaited; one that is discarded leaves its chunk unmeasured. -/
def State.senseIn (s : State) (n : Nat) (b : BlockIn) : State :=
  let s := if blkGood b ∧ b.words.length = 4096 then s else s.blockDrop n 1
  match (s.hl n).await with
  | none => s
  | some x =>
    if blkGood b ∧ b.words.length = 4096 then
      if payF b.hdr 31 16 = x.frame % 65536 ∧ payF b.hdr 15 12 = x.chunk ∧ payF b.hdr 11 11 = x.kind then
        (s.updHl n (fun h => { h with await := none })).hlIntake n { x with res := some (senseResults b) }
      else s
    else s.hlClose n

def execSenseBlock (n : Fin 4) (b : BlockIn) (s : State) : Res := .next (if s.zActive n then s.senseIn n b else s)

/-- NV_BLOCK. -/
def execNvBlock (n : Fin 4) (b : BlockIn) (s : State) : Res := .next (if s.zActive n then s.nvBlock n b else s)

end Sys2Proof.Machine
end

