-- ==== Sys2Proof/Machine/HkOps.lean ====
section
/-! DEFINITION. Ballast (R415 to R424): the housekeeping round with its sensors, the block thermal model, the thresholds, and what it
writes for the data plane. -/

namespace Sys2Proof.Machine

/-- HK's firmware runs. -/
def State.hkOn (s : State) : Bool := s.boot.fwStarted && decide (s.getF fPWR_PWR_STATUS_CURRENT ≤ 2)

/-- A THERMAL event, at most once per round per tile; 4 for what concerns no tile (R428). -/
def State.hkEv (s : State) (k : EvKind) (who data : Nat) : State := s.postOnce k who (s.regN rHK_ROUND_COUNT) srcHK data

/-- A temperature in 1/16 K, rounded to nearest, in 16 bits. -/
def k16 (t : Rat) : Nat := unsignOf 16 (clampI (-32768) 32767 (16 * t + 1 / 2).floor)

/-! ### Sensors (R415, R419) -/

/-- A broken sensor: 2n + s of a tile, 0x10 and up of the die. -/
def State.sensorBroken (s : State) (key : Nat) : Bool := (s.regN rHK_SENSOR_STATUS).testBit key

def State.sensorIgnore (s : State) (key reason : Nat) : State :=
  let s := s.setF ⟨rHK_SENSOR_STATUS, key, 1⟩ 1
  let s := s.raise fHK_HK_STATUS_SENSOR_IGNORED rHK_SENSOR_IGNORED_COUNT
  s.hkEv evTHERMAL_SENSOR_IGNORED (if key < 8 then key / 2 else 4) (256 * reason + key)

/-- A reading outside −50 °C to +175 °C. -/
def outOfRange (t : Rat) : Bool := decide (t < -50) || decide (175 < t)

/-- The die sensors are converted; the highest usable reading is DIE_TEMP_MAX. -/
def State.convertDie (s : State) (die : List Int) : Option Rat × State :=
  let q := ((die.take 8).zipIdx).foldl (fun (q : List Rat × State) r =>
    let t : Rat := (r.1 : Rat) / 16
    if q.2.sensorBroken (0x10 + r.2) then q
    else if outOfRange t then (q.1, q.2.sensorIgnore (0x10 + r.2) 1)
    else (q.1 ++ [t], q.2)) ([], s)
  match q.1 with
  | [] => (none, q.2)
  | t :: l => let m := l.foldl max t; (some m, q.2.setRegN rHK_DIE_TEMP_MAX (k16 m))

/-- The supply monitors are converted. -/
def State.convertSupply (s : State) (mv : List Nat) : State :=
  (mv.take 16).zipIdx.foldl (fun s q => s.setRegN (rHK_SUPPLY q.2) (q.1 % 65536)) s

/-- The window of rail k; none declared, none kept. -/
def State.supplyOut (s : State) (k mv : Nat) : Bool :=
  match s.loader.cfg.bd.windows[k]? with
  | some (lo, hi) => decide (mv < lo) || decide (hi < mv)
  | none => false

/-- Two rounds in a row outside the window (R424). -/
def State.supplyRound (s : State) (mv : List Nat) : State :=
  (mv.take 16).zipIdx.foldl (fun s q =>
    let n := if s.supplyOut q.2 q.1 then tabGet (fun _ => 0) s.hk.supplyBad q.2 + 1 else 0
    let s := s.updHk (fun h => { h with supplyBad := tabSet (fun _ => 0) h.supplyBad q.2 n })
    if n = 2 then s.post evPOWER_SUPPLY_WINDOW srcHK (65536 * (q.1 % 65536) + q.2) else s) s

/-- The latest readings of tile n's usable sensors (R261): sensor and °C. -/
def State.tileTemps (s : State) (n : Nat) : List (Nat × Rat) × State :=
  match (s.portOf n).caps with
  | some c =>
    if s.isF (fZTL_STATUS_CAPS_ACCEPTED n) = false then ([], s)
    else
      (List.range (min 2 c.sensors)).foldl (fun (q : List (Nat × Rat) × State) k =>
        let t : Rat := (signOf 12 (bitsOf (s.regN (rZTL_TILE_TEMP n)) (16 * k) 12) : Rat) / 8
        if q.2.sensorBroken (2 * n + k) then q
        else if outOfRange t then (q.1, q.2.sensorIgnore (2 * n + k) 1)
        else (q.1 ++ [(k, t)], q.2)) ([], s)
  | none => ([], s)

/-- SENSOR_BLOCK of sensor k of tile n. -/
def State.sensorBlock (s : State) (n k : Nat) : Nat := s.loader.cfg.pw.sensorBlock.getD (2 * n + k) 0

/-! ### The model (R416 to R418) -/

def State.tileBlocks (s : State) (n : Nat) : List Rat := tabRange (fun _ => 0) s.hk.temp (256 * n) 256

def State.setTileBlocks (s : State) (n : Nat) (ts : List Rat) : State :=
  s.updHk (fun h => { h with temp := tabPutAll (fun _ => 0) h.temp (256 * n) ts })

/-- Blocks of the lateral neighbours of block b. -/
def blockNear (b : Nat) : List Nat :=
  (if 16 ≤ b then [b - 16] else []) ++ (if b < 240 then [b + 16] else []) ++ (if b % 16 = 0 then [] else [b - 1])
  ++ (if b % 16 = 15 then [] else [b + 1])

/-- The commanded power of tile n's blocks in W (R417), scaled by `scale`. -/
def State.blockPower (s : State) (n : Nat) (scale : Rat) : List Rat :=
  if (s.regN rHK_CUT_STATUS).testBit n then List.replicate 256 0
  else (tabRange (fun _ => 0) s.hk.power (256 * n) 256).map (fun p => (p : Rat) * scale / 1000000)

/-- One step of the model: substrate and blocks after dt seconds. -/
def thermalStep (c : PowerC) (dt sub : Rat) (ts ps : List Rat) : Rat × List Rat :=
  let rs : Rat := (c.rS : Rat) / 1000
  let rb : Rat := (c.rB : Rat) / 1000
  let kl : Rat := (c.kLat : Rat) / 10000
  let sub := sub + ((c.tSink : Rat) / 1000 + rs * ps.sum - sub) * dt / ((c.tauS : Rat) / 1000)
  (sub, (List.range 256).map (fun b =>
    let t := ts.getD b 0
    let lat := kl * ((blockNear b).map (fun m => ts.getD m 0 - t)).sum
    t + (sub + rb * ps.getD b 0 + lat - t) * dt / ((c.tauB : Rat) / 1000)))

/-- TILE_LOAD now over TILE_LOAD when the last table was taken; with a load of 0 then, the spec states no ratio. -/
def State.loadScale (s : State) (n : Nat) : Rat × State :=
  let was := s.hk.loads.getD n 0
  if was = 0 then let (v, s) := s.fresh; ((v.toNat : Rat) / 65536, s)
  else ((s.regN (rPRESS_TILE_LOAD n) : Rat) / was, s)

/-- The newest power table is taken, or its absence counts (R417). -/
def State.takePower (s : State) : State :=
  let s := s.updHk (fun h => { h with ran := h.ran.zipIdx.map (fun q => q.1 || s.tgState q.2 != 0) })
  if s.hk.newTable then
    let loads := (List.range 4).map (fun n => s.regN (rPRESS_TILE_LOAD n))
    (s.updHk (fun h => { h with newTable := false, haveTable := true, psum := 0, loads := loads })).setF fHK_HK_STATUS_PSUM_STALE 0
  else if s.hk.haveTable ∨ s.hk.ran.any id then
    let s := (s.updHk (fun h => { h with psum := h.psum + 1 })).setF fHK_HK_STATUS_PSUM_STALE 1
    s.hkEv evTHERMAL_PSUM_STALE 4 s.hk.psum
  else s

/-- The mean of a tile's readings, or T_SINK. -/
def State.startTemp (s : State) (m : List (Nat × Rat)) : Rat :=
  match m with
  | [] => (s.loader.cfg.pw.tSink : Rat) / 1000
  | _ => (m.map Prod.snd).sum / (m.length : Nat)

/-- The model of tile n over dt; at the first round after a start it takes the readings. -/
def State.modelTile (s : State) (first fresh : Bool) (dt : Rat) (n : Nat) (m : List (Nat × Rat)) : State :=
  if first then
    let t := s.startTemp m
    (s.setTileBlocks n (List.replicate 256 t)).updHk (fun h => { h with sub := h.sub.set n t })
  else
    let (k, s) := if fresh then ((1 : Rat), s) else if s.hk.haveTable then s.loadScale n else (1, s)
    let (sub, ts) := thermalStep s.loader.cfg.pw dt (s.hk.sub.getD n 0) (s.tileBlocks n) (s.blockPower n k)
    (s.setTileBlocks n ts).updHk (fun h => { h with sub := h.sub.set n sub })

/-- One sensor of tile n against the model: its disagreement e, unless it is found broken (R418, R419). -/
def State.judgeSensor (s : State) (n k : Nat) (meas : Rat) : Option Rat × State :=
  let key := 2 * n + k
  let t := (s.tileBlocks n).getD (s.sensorBlock n k) 0
  let e := meas - (t + s.hk.bias.getD n 0)
  let x := tabGet (fun _ => {}) s.hk.sensors key
  let x := if x.last = some meas then { x with same := x.same + 1 } else { x with last := some meas, same := 0, from_ := t }
  let x := { x with big := if 15 < e ∨ e < -15 then x.big + 1 else 0 }
  let s := s.updHk (fun h => { h with sensors := tabSet (fun _ => {}) h.sensors key x })
  let moved := t - x.from_
  let why := if 100 ≤ x.same ∧ (2 < moved ∨ moved < -2) then 2 else if 100 ≤ x.big then 3 else 0
  if why = 0 then (some e, s) else (none, s.sensorIgnore key why)

/-- bias[n] follows the usable sensors (R418); answers whether there is one. -/
def State.anchor (s : State) (n : Nat) (m : List (Nat × Rat)) : Bool × State :=
  let q := m.foldl (fun (q : List Rat × State) r =>
    let (e, s) := q.2.judgeSensor n r.1 r.2
    (q.1 ++ e.toList, s)) ([], s)
  match q.1 with
  | [] => (false, q.2)
  | es =>
    let d := max (-1 / 2) (min (1 / 2) (es.sum / (es.length : Nat) / 16))
    (true, q.2.updHk (fun h => { h with bias := h.bias.set n (h.bias.getD n 0 + d) }))

/-! ### Thresholds (R420 to R423) -/

/-- A round of a threshold. -/
def Thr.round (t : Thr) (v on : Rat) : Thr :=
  if on ≤ v then { up := t.up + 1, down := 0, crossed := t.crossed || decide (3 ≤ t.up + 1) }
  else if v ≤ on - 3 then { up := 0, down := t.down + 1, crossed := t.crossed && decide (t.down + 1 < 3) }
  else { t with up := 0, down := 0 }

def thrGet (l : List (Nat × Thr)) (k : Nat) : Thr := tabGet (fun _ => {}) l k
def thrPut (l : List (Nat × Thr)) (k : Nat) (t : Thr) : List (Nat × Thr) := tabSet (fun _ => {}) l k t

/-- The target factor of a block, u1.15 (R421). -/
def derateTarget (crossed : Bool) (test td tf : Rat) : Nat :=
  if crossed then
    let f := max (1 / 4) (min 1 (1 - 3 / 4 * (test - td) / (tf - td)))
    (32768 * f + 1 / 2).floor.toNat
  else 0x8000

/-- DERATE falls at once and rises by at most 0x0200 a round. -/
def derateNext (cur tgt : Nat) : Nat := if tgt ≤ cur then tgt else min tgt (cur + 0x200)

/-- Tile n's blocks: thresholds, DERATE and BLKTEMP; answers the estimates. -/
def State.blockRound (s : State) (n : Nat) (margin : Rat) : List Rat × State :=
  let td : Rat := (s.getF fHK_THR_CFG_T_DERATE : Nat)
  let tf : Rat := (s.getF fHK_THR_CFG_T_FULL : Nat)
  let tc : Rat := (s.getF fHK_THR_CFG_T_CUT : Nat)
  let test := (s.tileBlocks n).map (fun t => t + s.hk.bias.getD n 0 + margin)
  let s := test.zipIdx.foldl (fun s q =>
    let b := 256 * n + q.2
    let d := (thrGet s.hk.derate b).round q.1 td
    let c := (thrGet s.hk.cut b).round q.1 tc
    let s := s.updHk (fun h => { h with derate := thrPut h.derate b d, cut := thrPut h.cut b c })
    let s := s.setRegN (rHK_DERATE b) (derateNext (s.regN (rHK_DERATE b) % 65536) (derateTarget d.crossed q.1 td tf))
    s.setRegN (rHK_BLKTEMP b) (k16 q.1)) s
  (test, s)

def blocksCrossed (n : Nat) (l : List (Nat × Thr)) : List Nat :=
  (List.range 256).filter (fun b => (thrGet l (256 * n + b)).crossed)

/-- TILE_CAP from the substrate (R423). -/
def tileCapOf (c : PowerC) (sub : Rat) : Nat :=
  let t0 : Rat := (c.capT0 : Rat) / 1000
  let t1 : Rat := (c.capT1 : Rat) / 1000
  if sub ≤ t0 then 0x8000 else if t1 ≤ sub then 0x4000
  else (32768 * (1 - (sub - t0) / (t1 - t0) / 2) + 1 / 2).floor.toNat

/-- Tile n is cut, or its cut ends (R422). -/
def State.tileCut (s : State) (n : Nat) (test : List Rat) : State :=
  let hot := test.foldl max (-50)
  let on := !(blocksCrossed n s.hk.cut).isEmpty
  let was := (s.regN rHK_CUT_STATUS).testBit n
  if on = was then s
  else
    let s := s.setB ⟨rHK_CUT_STATUS, n, 1⟩ on
    let s := if on then s.hkEv evTHERMAL_TILE_CUT n (2 ^ 30 * n + k16 hot) else s.hkEv evTHERMAL_TILE_CUT_END n (2 ^ 30 * n)
    s.updateSS (if on then evTHERMAL_TILE_CUT.code else evTHERMAL_TILE_CUT_END.code)

/-- Tile n in the second half of a round. -/
def State.tileRound (s : State) (n : Nat) (margin : Rat) : State :=
  let was := (blocksCrossed n s.hk.derate).isEmpty
  let (test, s) := s.blockRound n margin
  let now := blocksCrossed n s.hk.derate
  let s :=
    match was, now with
    | true, b :: _ => s.hkEv evTHERMAL_DERATE_ON n (2 ^ 30 * n + b)
    | false, [] => s.hkEv evTHERMAL_DERATE_OFF n (2 ^ 30 * n)
    | _, _ => s
  let s := s.tileCut n test
  let sub := s.hk.sub.getD n 0
  let s := (s.setRegN (rHK_TILE_CAP n) (tileCapOf s.loader.cfg.pw sub)).setRegN (rHK_TILE_SUB n) (k16 sub)
  let s := s.setRegN (rHK_TILE_BIAS n) (k16 (s.hk.bias.getD n 0))
  let hot := (s.blkTemps n).foldl max (-32768)
  s.updHl n (fun h => { h with tMax := max h.tMax hot })

/-- The die against 140 °C and 150 °C (R424). -/
def State.dieRound (s : State) (die : Option Rat) : State :=
  match die with
  | none => s
  | some t =>
    let hot := s.hk.die140.round t 140
    let crit := s.hk.die150.round t 150
    let (was, wasC) := (s.hk.die140.crossed, s.hk.die150.crossed)
    let s := if hot.crossed = s.hk.beHalf then s else s.beSettle
    let s := s.updHk (fun h => { h with die140 := hot, die150 := crit, beHalf := hot.crossed })
    let s := s.setB fHK_HK_STATUS_DIE_HOT hot.crossed
    let s := if hot.crossed ∧ was = false then s.hkEv evTHERMAL_DIE_HOT 4 (s.regN rHK_DIE_TEMP_MAX) else s
    if crit.crossed ∧ wasC = false then (s.assertFault .dieCrit).hkEv evTHERMAL_DIE_CRIT 4 (s.regN rHK_DIE_TEMP_MAX)
    else if crit.crossed = false ∧ wasC then s.releaseFault .dieCrit
    else s

/-- HK's writes stamp the hold-last-value registers and clear their bits (R13). -/
def State.hlvStamp (s : State) : State :=
  let f := s.time.frc
  { s with hlv := { s.hlv with stamp := [f, f, f] } }.setRegN rHK_HLV_STATUS 0

/-- A housekeeping round. -/
def State.hkRoundOp (s : State) (r : SensorIn) : State :=
  if s.hkOn = false then s
  else
    let first := s.hk.prev.isNone
    let dt : Rat := ((s.time.frc - s.hk.prev.getD s.time.frc : Nat) : Rat) / 800000000
    let (die, s) := s.convertDie r.die
    let s := (s.convertSupply r.supply).supplyRound r.supply
    let fresh := s.hk.newTable
    let s := s.takePower
    let q := (List.range s.tiles).foldl (fun (q : Bool × State) n =>
      let (m, s) := q.2.tileTemps n
      let (use, s) := (s.modelTile first fresh dt n m).anchor n m
      let margin : Rat := (if use then 0 else 5) + (if 10 ≤ s.hk.psum then 5 else 0)
      (q.1 || !use, s.tileRound n margin)) (false, s)
    let s := (q.2.setB fHK_HK_STATUS_OPEN_LOOP q.1).dieRound die
    let s := s.setRegN rHK_DERATED_BLOCKS
      ((List.range 1024).filter (fun b => decide (s.regN (rHK_DERATE b) % 65536 < 0x8000))).length
    let s := (s.updHk (fun h => { h with prev := some s.time.frc })).hlvStamp
    let s := (List.range s.tiles).foldl (fun s n => s.nvAgain n) s
    s.setRegN rHK_ROUND_COUNT ((s.regN rHK_ROUND_COUNT + 1) % 2 ^ 32)

/-- HK starts rounds by itself only while SCHED is 0. -/
def execHkRound (r : SensorIn) (s : State) : Res := .next (if s.isF fHK_ROUND_CFG_SCHED then s else s.hkRoundOp r)

/-- Has no round started for 15 ms? -/
def State.roundDue (s : State) : Bool :=
  match s.hk.prev with
  | some f => decide (f + ticksMs 15 ≤ s.time.frc)
  | none => true

/-- ROUND_LATE. -/
def execRoundLate (r : SensorIn) (s : State) : Res :=
  .next (if s.hkOn = false ∨ s.roundDue = false then s
    else
      let s := (s.raise fHK_HK_STATUS_ROUND_LATE rHK_ROUND_LATE_COUNT).hkEv evTHERMAL_ROUND_LATE 4 0
      s.hkRoundOp r)

/-- An HK_CONVERT action (R415): group 0 the die sensors, 1 the supply monitors, 2 a whole round; only while SCHED is 1. -/
def State.hkConvert (s : State) (group : Nat) (r : SensorIn) : State :=
  if s.isF fHK_ROUND_CFG_SCHED = false ∨ s.hkOn = false then s
  else
    match group with
    | 0 => (s.convertDie r.die).2
    | 1 => s.convertSupply r.supply
    | _ => s.hkRoundOp r

/-- Readings that no command gives (a conversion that a late policy starts): free values. -/
def State.freeReadings (s : State) : SensorIn × State :=
  let q := (List.range 24).foldl (fun (q : List Word × State) _ => let (v, s) := q.2.fresh; (q.1 ++ [v], s)) ([], s)
  ({ die := (q.1.take 8).map (fun v => signOf 16 v.toNat), supply := (q.1.drop 8).map (fun v => v.toNat % 65536) }, q.2)

end Sys2Proof.Machine
end

