-- ==== Sys2Proof/Machine/Keav.lean ====
section
/-! DEFINITION. The Keav instructions (R80 to R98): the command `add e f` is engine `e` issuing ADD with the fields `f` at
its pc: the word that stands there in its instruction memory (R80). An engine that is not in RUN, whose clock is gated, or whose
next instruction is another one, issues nothing. HALT stands in BeamEngine.lean. -/

namespace Sys2Proof.Machine

/-- How the body of an instruction ends: at the next instruction after `issue` cycles, at a branch target, waiting at
its own place, or in an exception. -/
inductive KOut where
  | step (s : State) (issue : Nat)
  | goto (s : State) (pc : Nat)
  | hold (s : State)
  | trap (s : State) (code : Nat)

/-- The number of instructions of the loaded image. -/
def Engine.imageLen (e : Engine) : Nat :=
  match e.prog with
  | some p => p.image.length
  | none => 0

/-- May engine n issue an instruction? -/
def State.issuing (s : State) (n : Nat) : Bool := s.beState n == beRUN && !s.beGated

/-- The end of an instruction (R83). -/
def State.finishK (n : Nat) : KOut → State
  | .step s issue => s.updEng n (fun e => { e with cycle := e.cycle + issue, pc := e.pc + 1 })
  | .goto s pc => s.updEng n (fun e => { e with cycle := e.cycle + 2, pc := pc })
  | .hold s => s
  | .trap s code => s.engineTrap n code

/-- Where the engine's next instruction stands. -/
def State.fetchAt (s : State) (n : Nat) : Nat := imemBase n + 8 * (s.eng n).pc

/-- The instruction with opcode `op` and fields `f`, of form `h`, when it is the one at the engine's pc (PC_OVERRUN, IMEM_UE; ILLEGAL
for an opcode that is not listed): its legality (ILLEGAL), the wait for its sources, its body. -/
def State.keavIssue (s : State) (n op : Nat) (f : KvF) (h : KvShape) (extra : List Nat) (ce : Nat) (body : State → KOut) : State :=
  let w := s.loadN (s.fetchAt n) 8
  if kvListed (w / 2 ^ 56) = false then s.engineTrap n 1
  else if w ≠ kvWord op f then s.updEng n (fun e => { e with cycle := e.cycle + ce })
  else if h.ok f = false then s.engineTrap n 1
  else State.finishK n (body (s.updEng n (fun e => { e with cycle := e.issueAt (h.srcs f ++ extra) + ce })))

/-- One instruction: the fetch and what it issues. The pc does not wrap after the last index (log 131). -/
def State.keav (s : State) (n op : Nat) (f : KvF) (h : KvShape) (extra : List Nat) (body : State → KOut) : State :=
  if s.issuing n = false then s
  else if (s.eng n).imageLen ≤ (s.eng n).pc then s.engineTrap n 4
  else
    let ((ue, ce), s) := s.beCheck (s.fetchAt n) 8
    if ue then s.engineTrap n 5 else s.keavIssue n op f h extra ce body

/-! ### Forms -/

/-- Sd = op (Sa, Sb). -/
def State.kAlu (s : State) (n op : Nat) (f : KvF) (lat : Nat) (fn : Word → Word → Word) : State :=
  s.keav n op f { d := .s, a := .s, b := .s } [] (fun s =>
    .step (s.putS n f.d (fn ((s.eng n).s f.a.toNat) ((s.eng n).s f.b.toNat)) lat) 1)

/-- Sd = op (Sa, IMM). -/
def State.kAluI (s : State) (n op : Nat) (f : KvF) (lat : Nat) (fn : Word → Word → Word) : State :=
  s.keav n op f { d := .s, a := .s, imm := .any } [] (fun s =>
    .step (s.putS n f.d (fn ((s.eng n).s f.a.toNat) f.imm) lat) 1)

/-- The divider takes one division at a time (R83). -/
def State.kDiv (s : State) (n op : Nat) (f : KvF) (h : KvShape) (b : Engine → Word) (fn : Word → Word → Word) : State :=
  s.keav n op f h [keyDiv] (fun s =>
    .step ((s.putS n f.d (fn ((s.eng n).s f.a.toNat) (b (s.eng n))) 20).updEng n (fun e => e.due keyDiv 20)) 1)

/-- What a guarded vector result reads beside its sources: the lanes it keeps (R81). -/
def oldV (f : KvF) : List Nat := if f.pg = 0 then [] else [keyV f.d.toNat]

/-- Vd = op (Va, Vb), lane by lane. -/
def State.kVec (s : State) (n op : Nat) (f : KvF) (lat : Nat) (fn : Half → Half → Half) : State :=
  s.keav n op f { guarded := true, d := .v, a := .v, b := .v } (oldV f) (fun s =>
    .step (s.putV n f (fun k => fn (lane ((s.eng n).v f.a.toNat) k) (lane ((s.eng n).v f.b.toNat) k)) lat) 1)

/-- Vd = op (Va) with the immediate's low 4 bits. -/
def State.kVecI (s : State) (n op : Nat) (f : KvF) (fn : Half → Nat → Half) : State :=
  s.keav n op f { guarded := true, d := .v, a := .v, imm := .any } (oldV f) (fun s =>
    .step (s.putV n f (fun k => fn (lane ((s.eng n).v f.a.toNat) k) (f.imm.toNat % 16)) 2) 1)

/-- Pd = cmp (Va, Vb), lane by lane. -/
def State.kCmp (s : State) (n op : Nat) (f : KvF) (fn : Half → Half → Bool) : State :=
  s.keav n op f { guarded := true, d := .p, a := .v, b := .v } [] (fun s =>
    .step (s.putP n f (fun k => fn (lane ((s.eng n).v f.a.toNat) k) (lane ((s.eng n).v f.b.toNat) k)) 2) 1)

/-- Pd = op (Pa, Pb), bit by bit. -/
def State.kPred (s : State) (n op : Nat) (f : KvF) (fn : Bool → Bool → Bool) : State :=
  s.keav n op f { guarded := true, d := .p, a := .p, b := .p } [] (fun s =>
    .step (s.putP n f (fun k => fn (((s.eng n).p f.a.toNat).getLsbD k) (((s.eng n).p f.b.toNat).getLsbD k)) 1) 1)

/-- A branch that is taken when `c` holds of the engine. -/
def State.kBranch (s : State) (n op : Nat) (f : KvF) (h : KvShape) (c : Engine → Bool) : State :=
  s.keav n op f h [] (fun s => if c (s.eng n) then .goto s (f.imm.toNat % 8192) else .step s 1)

/-- A local load of `len` bytes at Sa + IMM, aligned to `len`. -/
def State.kLoad (s : State) (n op : Nat) (f : KvF) (len : Nat) : State :=
  s.keav n op f { d := .s, a := .s, imm := .any } [] (fun s =>
    match s.ldRead n ((s.eng n).addr f) len len with
    | (.bad c, s) => .trap s c
    | (.ok bs ce, s) => .step (s.putS n f.d (BitVec.ofNat 32 (ofLe bs)) 3) (1 + ce))

/-- A local store of the low `len` bytes of Sd at Sa + IMM, aligned to `len`. -/
def State.kStore (s : State) (n op : Nat) (f : KvF) (len : Nat) : State :=
  s.keav n op f { d := .s, a := .s, imm := .any } (srcOf .s f.d) (fun s =>
    match s.ldWrite n ((s.eng n).addr f) len (leBytes len ((s.eng n).s f.d.toNat).toNat) with
    | (.bad c, s) => .trap s c
    | (.ok _ ce, s) => .step s (1 + ce))

/-- Signed quotient towards zero, with the fixed results for a divisor of 0 (R85). -/
def divK (a b : Word) : Word :=
  if b = 0 then (if 0 ≤ a.toInt then 0x7FFFFFFF else 0x80000000) else a.sdiv b

/-- The high 32 bits of the signed product. -/
def mulhK (a b : Word) : Word := BitVec.ofInt 32 (a.toInt * b.toInt / 2 ^ 32)

/-- The rounded high half of the unsigned product (R85). -/
def vmulhK (a b : Half) : Half := BitVec.ofNat 16 ((a.toNat * b.toNat + 0x8000) / 65536)

/-- A sum saturating at 0xFFFF. -/
def vaddsK (a b : Half) : Half := BitVec.ofNat 16 (min (a.toNat + b.toNat) 0xFFFF)
def vsubsK (a b : Half) : Half := BitVec.ofNat 16 (a.toNat - b.toNat)
def vabsdK (a b : Half) : Half := BitVec.ofNat 16 (max a.toNat b.toNat - min a.toNat b.toNat)

/-! ### Control (R83) -/

/-- NOP (R83): none. -/
def execNop (e : Fin 16) (f : KvF) (s : State) : Res := .next (s.keav e 0x00 f {} [] (fun s => .step s 1))

/-- BR (R83): PC = t. -/
def execBr (e : Fin 16) (f : KvF) (s : State) : Res :=
  .next (s.kBranch e 0x02 f { imm := .target } (fun _ => true))

/-- BRZ (R83). -/
def execBrz (e : Fin 16) (f : KvF) (s : State) : Res :=
  .next (s.kBranch e 0x03 f { a := .s, imm := .target } (fun g => g.s f.a.toNat == 0))

/-- BRNZ (R83). -/
def execBrnz (e : Fin 16) (f : KvF) (s : State) : Res :=
  .next (s.kBranch e 0x04 f { a := .s, imm := .target } (fun g => g.s f.a.toNat != 0))

/-- BRLT (R83): signed. -/
def execBrlt (e : Fin 16) (f : KvF) (s : State) : Res :=
  .next (s.kBranch e 0x05 f { a := .s, b := .s, imm := .target } (fun g => (g.s f.a.toNat).slt (g.s f.b.toNat)))

/-- BRANY (R83). -/
def execBrany (e : Fin 16) (f : KvF) (s : State) : Res :=
  .next (s.kBranch e 0x06 f { a := .p, imm := .target } (fun g => g.p f.a.toNat != 0))

/-- BRNONE (R83). -/
def execBrnone (e : Fin 16) (f : KvF) (s : State) : Res :=
  .next (s.kBranch e 0x07 f { a := .p, imm := .target } (fun g => g.p f.a.toNat == 0))

/-- CALL (R83): S31 = PC + 1; PC = t. -/
def execCall (e : Fin 16) (f : KvF) (s : State) : Res :=
  .next (s.keav e 0x08 f { imm := .target } [] (fun s =>
    .goto (s.putS e 31 (BitVec.ofNat 32 ((s.eng e).pc + 1)) 1) (f.imm.toNat % 8192)))

/-- RET (R83): PC = S31[12:0]. -/
def execRet (e : Fin 16) (f : KvF) (s : State) : Res :=
  .next (s.keav e 0x09 f {} [keyS 31] (fun s => .goto s (((s.eng e).s 31).toNat % 8192)))

/-- LOOP (R83): Sa = Sa - 1; branch if the new Sa is not 0. -/
def execLoop (e : Fin 16) (f : KvF) (s : State) : Res :=
  .next (s.keav e 0x0A f { a := .s, imm := .target } [] (fun s =>
    let s := s.putS e f.a ((s.eng e).s f.a.toNat - 1) 1
    if (s.eng e).s f.a.toNat = 0 then .step s 1 else .goto s (f.imm.toNat % 8192)))

/-! ### Scalar arithmetic (R85) -/

/-- ADD (R85): Sa + Sb. -/
def execAdd (e : Fin 16) (f : KvF) (s : State) : Res := .next (s.kAlu e 0x10 f 1 (· + ·))

/-- SUB (R85): Sa - Sb. -/
def execSub (e : Fin 16) (f : KvF) (s : State) : Res := .next (s.kAlu e 0x11 f 1 (· - ·))

/-- MUL (R85): low 32 bits of the product. -/
def execMul (e : Fin 16) (f : KvF) (s : State) : Res := .next (s.kAlu e 0x12 f 3 (· * ·))

/-- MULH (R85): high 32 bits of the signed product. -/
def execMulh (e : Fin 16) (f : KvF) (s : State) : Res := .next (s.kAlu e 0x13 f 3 mulhK)

/-- AND (R85): bitwise. -/
def execAnd (e : Fin 16) (f : KvF) (s : State) : Res := .next (s.kAlu e 0x14 f 1 (· &&& ·))

/-- OR (R85): bitwise. -/
def execOr (e : Fin 16) (f : KvF) (s : State) : Res := .next (s.kAlu e 0x15 f 1 (· ||| ·))

/-- XOR (R85): bitwise. -/
def execXor (e : Fin 16) (f : KvF) (s : State) : Res := .next (s.kAlu e 0x16 f 1 (· ^^^ ·))

/-- SHL (R85): shift left by Sb[4:0]. -/
def execShl (e : Fin 16) (f : KvF) (s : State) : Res := .next (s.kAlu e 0x17 f 1 (fun a b => a <<< (b.toNat % 32)))

/-- SHR (R85): logical shift right by Sb[4:0]. -/
def execShr (e : Fin 16) (f : KvF) (s : State) : Res := .next (s.kAlu e 0x18 f 1 (fun a b => a >>> (b.toNat % 32)))

/-- SRA (R85): arithmetic shift right by Sb[4:0]. -/
def execSra (e : Fin 16) (f : KvF) (s : State) : Res := .next (s.kAlu e 0x19 f 1 (fun a b => a.sshiftRight (b.toNat % 32)))

/-- SLT (R85): 1 if Sa < Sb signed. -/
def execSlt (e : Fin 16) (f : KvF) (s : State) : Res := .next (s.kAlu e 0x1A f 1 (fun a b => if a.slt b then 1 else 0))

/-- SLTU (R85): 1 if Sa < Sb unsigned. -/
def execSltu (e : Fin 16) (f : KvF) (s : State) : Res := .next (s.kAlu e 0x1B f 1 (fun a b => if a.ult b then 1 else 0))

/-- MIN (R85): signed. -/
def execMin (e : Fin 16) (f : KvF) (s : State) : Res := .next (s.kAlu e 0x1C f 1 (fun a b => if a.slt b then a else b))

/-- MAX (R85): signed. -/
def execMax (e : Fin 16) (f : KvF) (s : State) : Res := .next (s.kAlu e 0x1D f 1 (fun a b => if a.slt b then b else a))

/-- DIV (R85): signed quotient. -/
def execDiv (e : Fin 16) (f : KvF) (s : State) : Res :=
  .next (s.kDiv e 0x1E f { d := .s, a := .s, b := .s } (fun g => g.s f.b.toNat) divK)

/-- ADDI (R85): as ADD with IMM in place of Sb. -/
def execAddi (e : Fin 16) (f : KvF) (s : State) : Res := .next (s.kAluI e 0x30 f 1 (· + ·))

/-- SUBI (R85): as SUB with IMM in place of Sb. -/
def execSubi (e : Fin 16) (f : KvF) (s : State) : Res := .next (s.kAluI e 0x31 f 1 (· - ·))

/-- MULI (R85): as MUL with IMM in place of Sb. -/
def execMuli (e : Fin 16) (f : KvF) (s : State) : Res := .next (s.kAluI e 0x32 f 3 (· * ·))

/-- MULHI (R85): as MULH with IMM in place of Sb. -/
def execMulhi (e : Fin 16) (f : KvF) (s : State) : Res := .next (s.kAluI e 0x33 f 3 mulhK)

/-- ANDI (R85): as AND with IMM in place of Sb. -/
def execAndi (e : Fin 16) (f : KvF) (s : State) : Res := .next (s.kAluI e 0x34 f 1 (· &&& ·))

/-- ORI (R85): as OR with IMM in place of Sb. -/
def execOri (e : Fin 16) (f : KvF) (s : State) : Res := .next (s.kAluI e 0x35 f 1 (· ||| ·))

/-- XORI (R85): as XOR with IMM in place of Sb. -/
def execXori (e : Fin 16) (f : KvF) (s : State) : Res := .next (s.kAluI e 0x36 f 1 (· ^^^ ·))

/-- SHLI (R85): as SHL with IMM in place of Sb. -/
def execShli (e : Fin 16) (f : KvF) (s : State) : Res := .next (s.kAluI e 0x37 f 1 (fun a b => a <<< (b.toNat % 32)))

/-- SHRI (R85): as SHR with IMM in place of Sb. -/
def execShri (e : Fin 16) (f : KvF) (s : State) : Res := .next (s.kAluI e 0x38 f 1 (fun a b => a >>> (b.toNat % 32)))

/-- SRAI (R85): as SRA with IMM in place of Sb. -/
def execSrai (e : Fin 16) (f : KvF) (s : State) : Res := .next (s.kAluI e 0x39 f 1 (fun a b => a.sshiftRight (b.toNat % 32)))

/-- SLTI (R85): as SLT with IMM in place of Sb. -/
def execSlti (e : Fin 16) (f : KvF) (s : State) : Res := .next (s.kAluI e 0x3A f 1 (fun a b => if a.slt b then 1 else 0))

/-- SLTUI (R85): as SLTU with IMM in place of Sb. -/
def execSltui (e : Fin 16) (f : KvF) (s : State) : Res := .next (s.kAluI e 0x3B f 1 (fun a b => if a.ult b then 1 else 0))

/-- MINI (R85): as MIN with IMM in place of Sb. -/
def execMini (e : Fin 16) (f : KvF) (s : State) : Res := .next (s.kAluI e 0x3C f 1 (fun a b => if a.slt b then a else b))

/-- MAXI (R85): as MAX with IMM in place of Sb. -/
def execMaxi (e : Fin 16) (f : KvF) (s : State) : Res := .next (s.kAluI e 0x3D f 1 (fun a b => if a.slt b then b else a))

/-- DIVI (R85): as DIV with IMM in place of Sb. -/
def execDivi (e : Fin 16) (f : KvF) (s : State) : Res :=
  .next (s.kDiv e 0x3E f { d := .s, a := .s, imm := .any } (fun _ => f.imm) divK)

/-- LI (R83): Sd = IMM. -/
def execLi (e : Fin 16) (f : KvF) (s : State) : Res :=
  .next (s.keav e 0x20 f { d := .s, imm := .any } [] (fun s => .step (s.putS e f.d f.imm 1) 1))

/-- MOVSPR (R83): Sd = special register IMM[7:0]. -/
def execMovspr (e : Fin 16) (f : KvF) (s : State) : Res :=
  .next (s.keav e 0x21 f { d := .s, imm := .any } [keySpr (f.imm.toNat % 256)] (fun s =>
    let (v, s) := s.readSpr e (f.imm.toNat % 256)
    .step (s.putS e f.d v 2) 1))

/-- MOVTSPR (R83): RX and RY take Sa[15:0]; a read-only register raises ILLEGAL; no other number names one (log 31). -/
def execMovtspr (e : Fin 16) (f : KvF) (s : State) : Res :=
  .next (s.keav e 0x22 f { a := .s, imm := .any } [] (fun s =>
    let k := f.imm.toNat % 256
    let v := ((s.eng e).s f.a.toNat).setWidth 16
    if k = 4 then .step (s.updEng e (fun g => ({ g with rx := v }).due (keySpr 4) 1)) 1
    else if k = 5 then .step (s.updEng e (fun g => ({ g with ry := v }).due (keySpr 5) 1)) 1
    else if k ≤ 12 then .trap s 1
    else .step s 1))

/-- PMOV (R83): Sd = Pa. -/
def execPmov (e : Fin 16) (f : KvF) (s : State) : Res :=
  .next (s.keav e 0x23 f { d := .s, a := .p } [] (fun s => .step (s.putS e f.d ((s.eng e).p f.a.toNat) 1) 1))

/-- PLD (R83): Pd = Sa. -/
def execPld (e : Fin 16) (f : KvF) (s : State) : Res :=
  .next (s.keav e 0x24 f { guarded := true, d := .p, a := .s } [] (fun s =>
    .step (s.putP e f (fun k => ((s.eng e).s f.a.toNat).getLsbD k) 1) 1))

/-- PCNT (R83): the number of 1 bits in Pa. -/
def execPcnt (e : Fin 16) (f : KvF) (s : State) : Res :=
  .next (s.keav e 0x25 f { d := .s, a := .p } [] (fun s =>
    .step (s.putS e f.d (BitVec.ofNat 32 (popCount ((s.eng e).p f.a.toNat))) 1) 1))

/-! ### Local data (R84) -/

/-- LDW (R84). -/
def execLdw (e : Fin 16) (f : KvF) (s : State) : Res := .next (s.kLoad e 0x40 f 4)

/-- STW (R84). -/
def execStw (e : Fin 16) (f : KvF) (s : State) : Res := .next (s.kStore e 0x41 f 4)

/-- LDH (R84): zero-extended. -/
def execLdh (e : Fin 16) (f : KvF) (s : State) : Res := .next (s.kLoad e 0x42 f 2)

/-- STH (R84): Sd[15:0]. -/
def execSth (e : Fin 16) (f : KvF) (s : State) : Res := .next (s.kStore e 0x43 f 2)

/-- The halfword at offset 2k of a list of bytes. -/
def halfAt (bs : List Byte) (k : Nat) : Half := BitVec.ofNat 16 (ofLe ((bs.drop (2 * k)).take 2))

/-- VLD (R84): 64 bytes, 64-byte aligned. -/
def execVld (e : Fin 16) (f : KvF) (s : State) : Res :=
  .next (s.keav e 0x50 f { guarded := true, d := .v, a := .s, imm := .any } (oldV f) (fun s =>
    match s.ldRead e ((s.eng e).addr f) 64 64 with
    | (.bad c, s) => .trap s c
    | (.ok bs ce, s) => .step (s.putV e f (halfAt bs) 4) (1 + ce)))

/-- The writes of VST at local address `a`: whole words where both lanes are guarded. -/
def Engine.vstWrites (g : Engine) (f : KvF) (a : Nat) : List (Nat × List Byte) :=
  let x := g.v f.d.toNat
  (List.range 16).flatMap (fun j =>
    let lo := leBytes 2 (lane x (2 * j)).toNat
    let hi := leBytes 2 (lane x (2 * j + 1)).toNat
    let p := a + 4 * j
    if g.guard f (2 * j) && g.guard f (2 * j + 1) then [(p, lo ++ hi)]
    else if g.guard f (2 * j) then [(p, lo)]
    else if g.guard f (2 * j + 1) then [(p + 2, hi)] else [])

/-- The writes are made; an uncorrectable word among them raises LD_UE (R101). -/
def State.kPuts (s : State) (n : Nat) (ws : List (Nat × List Byte)) (issue : Nat) : KOut :=
  let ((u, ce), s) := s.ldPuts n ws
  if u then .trap s 6 else .step s (issue + ce)

/-- VST (R81): the guarded lanes. -/
def execVst (e : Fin 16) (f : KvF) (s : State) : Res :=
  .next (s.keav e 0x51 f { guarded := true, d := .v, a := .s, imm := .any } (srcOf .v f.d) (fun s =>
    let a := (s.eng e).addr f
    match ldCheck a 64 64 with
    | some c => .trap s c
    | none => s.kPuts e ((s.eng e).vstWrites f a) 1))

/-- The lanes an instruction accesses. -/
def Engine.lanes (g : Engine) (f : KvF) : List Nat := (List.range 32).filter (g.guard f)

/-- The first exception among the lanes of a gather or scatter. -/
def laneTrap (addrs : List Nat) : Option Nat := (addrs.filterMap (fun a => ldCheck a 2 2)).head?

/-- VGATHER (R84): lane k loads the halfword at Sa + 2 Vb[k]. -/
def execVgather (e : Fin 16) (f : KvF) (s : State) : Res :=
  .next (s.keav e 0x52 f { guarded := true, d := .v, a := .s, b := .v } (oldV f) (fun s =>
    let g := s.eng e
    let addrs := (g.lanes f).map (g.laneAddr f)
    match laneTrap addrs with
    | some c => .trap s c
    | none =>
      let ((ue, ce), s) := addrs.foldl (fun (q, s) a =>
        let ((v, c), s) := s.beCheck (ldBase e + a) 2
        ((q.1 || v, q.2 + c), s)) ((false, 0), s)
      if ue then .trap s 6
      else
        let n := bankCycles addrs
        .step (s.putV e f (fun k => BitVec.ofNat 16 (s.loadN (ldBase e + g.laneAddr f k) 2)) (n + 4)) (n + ce)))

/-- VSCATTER (R84): lane k stores at Sa + 2 Vb[k]; of equal addresses the highest lane wins. -/
def execVscatter (e : Fin 16) (f : KvF) (s : State) : Res :=
  .next (s.keav e 0x53 f { guarded := true, d := .v, a := .s, b := .v } (srcOf .v f.d) (fun s =>
    let g := s.eng e
    let addrs := (g.lanes f).map (g.laneAddr f)
    match laneTrap addrs with
    | some c => .trap s c
    | none =>
      s.kPuts e ((g.lanes f).map (fun k => (g.laneAddr f k, leBytes 2 (lane (g.v f.d.toNat) k).toNat))) (bankCycles addrs)))

/-! ### Vector arithmetic (R85) -/

/-- VADD (R85): Va + Vb. -/
def execVadd (e : Fin 16) (f : KvF) (s : State) : Res := .next (s.kVec e 0x58 f 2 (· + ·))

/-- VADDS (R85): saturating at 0xFFFF. -/
def execVadds (e : Fin 16) (f : KvF) (s : State) : Res := .next (s.kVec e 0x59 f 2 vaddsK)

/-- VSUB (R85): Va - Vb. -/
def execVsub (e : Fin 16) (f : KvF) (s : State) : Res := .next (s.kVec e 0x5A f 2 (· - ·))

/-- VSUBS (R85): saturating at 0. -/
def execVsubs (e : Fin 16) (f : KvF) (s : State) : Res := .next (s.kVec e 0x5B f 2 vsubsK)

/-- VMULH (R85): rounded high half of the product. -/
def execVmulh (e : Fin 16) (f : KvF) (s : State) : Res := .next (s.kVec e 0x5C f 3 vmulhK)

/-- VMULL (R85): low 16 bits of the product. -/
def execVmull (e : Fin 16) (f : KvF) (s : State) : Res := .next (s.kVec e 0x5D f 3 (· * ·))

/-- VMAC (R85): Vd + VMULH (Va, Vb), saturating at 0xFFFF. -/
def execVmac (e : Fin 16) (f : KvF) (s : State) : Res :=
  .next (s.keav e 0x5E f { guarded := true, d := .v, a := .v, b := .v } (srcOf .v f.d) (fun s =>
    let g := s.eng e
    .step (s.putV e f (fun k =>
      vaddsK (lane (g.v f.d.toNat) k) (vmulhK (lane (g.v f.a.toNat) k) (lane (g.v f.b.toNat) k))) 3) 1))

/-- VMIN (R85): unsigned. -/
def execVmin (e : Fin 16) (f : KvF) (s : State) : Res := .next (s.kVec e 0x5F f 2 (fun a b => if a.ult b then a else b))

/-- VMAX (R85): unsigned. -/
def execVmax (e : Fin 16) (f : KvF) (s : State) : Res := .next (s.kVec e 0x60 f 2 (fun a b => if a.ult b then b else a))

/-- VAND (R85): bitwise. -/
def execVand (e : Fin 16) (f : KvF) (s : State) : Res := .next (s.kVec e 0x61 f 2 (· &&& ·))

/-- VOR (R85): bitwise. -/
def execVor (e : Fin 16) (f : KvF) (s : State) : Res := .next (s.kVec e 0x62 f 2 (· ||| ·))

/-- VXOR (R85): bitwise. -/
def execVxor (e : Fin 16) (f : KvF) (s : State) : Res := .next (s.kVec e 0x63 f 2 (· ^^^ ·))

/-- VSHL (R85): shift left by IMM[3:0]. -/
def execVshl (e : Fin 16) (f : KvF) (s : State) : Res := .next (s.kVecI e 0x64 f (fun a n => a <<< n))

/-- VSHR (R85): logical shift right by IMM[3:0]. -/
def execVshr (e : Fin 16) (f : KvF) (s : State) : Res := .next (s.kVecI e 0x65 f (fun a n => a >>> n))

/-- VSRA (R85): arithmetic shift right by IMM[3:0]. -/
def execVsra (e : Fin 16) (f : KvF) (s : State) : Res := .next (s.kVecI e 0x66 f (fun a n => a.sshiftRight n))

/-- VABSD (R85): the absolute difference. -/
def execVabsd (e : Fin 16) (f : KvF) (s : State) : Res := .next (s.kVec e 0x67 f 2 vabsdK)

/-- VSEL (R85): Va[k] where Pc[k] is 1, else Vb[k]. -/
def execVsel (e : Fin 16) (f : KvF) (s : State) : Res :=
  .next (s.keav e 0x68 f { guarded := true, d := .v, a := .v, b := .v, c := .p } (oldV f) (fun s =>
    let g := s.eng e
    .step (s.putV e f (fun k =>
      if (g.p f.c.toNat).getLsbD k then lane (g.v f.a.toNat) k else lane (g.v f.b.toNat) k) 2) 1))

/-- VLUT (R86): linear interpolation in the table of 257 halfwords at Sb. -/
def execVlut (e : Fin 16) (f : KvF) (s : State) : Res :=
  .next (s.keav e 0x69 f { guarded := true, d := .v, a := .v, b := .s } (oldV f) (fun s =>
    let g := s.eng e
    match s.ldRead e (g.s f.b.toNat).toNat 514 2 with
    | (.bad c, s) => .trap s c
    | (.ok bs ce, s) =>
      let t := (List.range 257).map (fun i => (halfAt bs i).toNat)
      .step (s.putV e f (fun k => vlutLane t (lane (g.v f.a.toNat) k)) 6) (4 + ce)))

/-- VSPLAT (R85): every lane = Sa[15:0]. -/
def execVsplat (e : Fin 16) (f : KvF) (s : State) : Res :=
  .next (s.keav e 0x6A f { guarded := true, d := .v, a := .s } (oldV f) (fun s =>
    .step (s.putV e f (fun _ => ((s.eng e).s f.a.toNat).setWidth 16) 2) 1))

/-- VLANE (R85): lane k = k. -/
def execVlane (e : Fin 16) (f : KvF) (s : State) : Res :=
  .next (s.keav e 0x6B f { guarded := true, d := .v } (oldV f) (fun s => .step (s.putV e f (fun k => BitVec.ofNat 16 k) 2) 1))

/-- VEXT (R85): Sd = lane IMM[4:0], zero-extended. -/
def execVext (e : Fin 16) (f : KvF) (s : State) : Res :=
  .next (s.keav e 0x6C f { d := .s, a := .v, imm := .any } [] (fun s =>
    .step (s.putS e f.d ((lane ((s.eng e).v f.a.toNat) (f.imm.toNat % 32)).setWidth 32) 2) 1))

/-- VINS (R85): lane IMM[4:0] = Sa[15:0]. -/
def execVins (e : Fin 16) (f : KvF) (s : State) : Res :=
  .next (s.keav e 0x6D f { guarded := true, d := .v, a := .s, imm := .any } (srcOf .v f.d) (fun s =>
    let g := s.eng e
    .step (s.putV e f (fun k =>
      if k = f.imm.toNat % 32 then (g.s f.a.toNat).setWidth 16 else lane (g.v f.d.toNat) k) 2) 1))

/-- VSUM (R81): the sum of the guarded lanes. -/
def execVsum (e : Fin 16) (f : KvF) (s : State) : Res :=
  .next (s.keav e 0x6E f { guarded := true, d := .s, a := .v } [] (fun s =>
    let g := s.eng e
    .step (s.putS e f.d (BitVec.ofNat 32 (((g.lanes f).map (fun k => (lane (g.v f.a.toNat) k).toNat)).sum)) 4) 1))

/-- VMOV (R85): copy. -/
def execVmov (e : Fin 16) (f : KvF) (s : State) : Res :=
  .next (s.keav e 0x6F f { guarded := true, d := .v, a := .v } (oldV f) (fun s =>
    .step (s.putV e f (fun k => lane ((s.eng e).v f.a.toNat) k) 2) 1))

/-- VCMPEQ (R85): equal. -/
def execVcmpeq (e : Fin 16) (f : KvF) (s : State) : Res := .next (s.kCmp e 0x70 f (· == ·))

/-- VCMPLT (R85): less than, unsigned. -/
def execVcmplt (e : Fin 16) (f : KvF) (s : State) : Res := .next (s.kCmp e 0x71 f (fun a b => a.ult b))

/-- VCMPLTS (R85): less than, signed. -/
def execVcmplts (e : Fin 16) (f : KvF) (s : State) : Res := .next (s.kCmp e 0x72 f (fun a b => a.slt b))

/-- VCMPLE (R85): less or equal, unsigned. -/
def execVcmple (e : Fin 16) (f : KvF) (s : State) : Res := .next (s.kCmp e 0x73 f (fun a b => a.ule b))

/-! ### Predicates (R83) -/

/-- PAND (R83): Pa AND Pb. -/
def execPand (e : Fin 16) (f : KvF) (s : State) : Res := .next (s.kPred e 0x78 f (fun a b => a && b))

/-- POR (R83): Pa OR Pb. -/
def execPor (e : Fin 16) (f : KvF) (s : State) : Res := .next (s.kPred e 0x79 f (fun a b => a || b))

/-- PANDN (R83): Pa AND NOT Pb. -/
def execPandn (e : Fin 16) (f : KvF) (s : State) : Res := .next (s.kPred e 0x7A f (fun a b => a && !b))

/-- PNOT (R83): NOT Pa. -/
def execPnot (e : Fin 16) (f : KvF) (s : State) : Res :=
  .next (s.keav e 0x7B f { guarded := true, d := .p, a := .p } [] (fun s =>
    .step (s.putP e f (fun k => !((s.eng e).p f.a.toNat).getLsbD k) 1) 1))

/-- PSET (R83): Pd = IMM. -/
def execPset (e : Fin 16) (f : KvF) (s : State) : Res :=
  .next (s.keav e 0x7C f { guarded := true, d := .p, imm := .any } [] (fun s =>
    .step (s.putP e f (fun k => f.imm.getLsbD k) 1) 1))

/-! ### Raster and sample operations (R87, R88) -/

/-- The registers an edge function is read from. -/
def edgeSrcs (f : KvF) : List Nat := [keyS (f.a.toNat + 1), keyS (f.a.toNat + 2), keySpr 4, keySpr 5]

/-- Is Sa one of S1 to S29 (R87)? -/
def edgeRegOk (f : KvF) : Bool := 1 ≤ f.a.toNat && f.a.toNat ≤ 29

/-- REDGE (R87): lane k is 1 when the edge function is not negative at the pixel centre. The result for another Sa than
S1 to S29 is not stated: free (log 31). -/
def execRedge (e : Fin 16) (f : KvF) (s : State) : Res :=
  .next (s.keav e 0x80 f { guarded := true, d := .p, a := .s } (edgeSrcs f) (fun s =>
    let g := s.eng e
    let i := f.a.toNat
    if edgeRegOk f then .step (s.putP e f (redgeLane (g.s i) (g.s (i + 1)) (g.s (i + 2)) g.rx g.ry) 2) 1
    else
      let (v, s) := s.fresh
      .step (s.putP e f (fun k => v.getLsbD k) 2) 1))

/-- RCOV (R87): 16-sample coverage per lane. -/
def execRcov (e : Fin 16) (f : KvF) (s : State) : Res :=
  .next (s.keav e 0x81 f { guarded := true, d := .v, a := .s } (oldV f ++ edgeSrcs f) (fun s =>
    let g := s.eng e
    let i := f.a.toNat
    if edgeRegOk f then .step (s.putV e f (rcovLane (g.s i) (g.s (i + 1)) (g.s (i + 2)) g.rx g.ry) 4) 2
    else .step ((s.putV e f s.freeLane 4).drawn 32) 2))

/-- RSETXY (R87): RX = Sa[15:0], RY = Sb[15:0]. -/
def execRsetxy (e : Fin 16) (f : KvF) (s : State) : Res :=
  .next (s.keav e 0x82 f { a := .s, b := .s } [] (fun s =>
    .step (s.updEng e (fun g =>
      (({ g with rx := (g.s f.a.toNat).setWidth 16, ry := (g.s f.b.toNat).setWidth 16 }).due (keySpr 4) 1).due
        (keySpr 5) 1)) 1))

/-- SAMP and SAMPN through the descriptor at Sc; of a descriptor without pixels the samples are not stated: free
(log 31). -/
def State.kSamp (s : State) (n op : Nat) (f : KvF) (four : Bool) (issue lat : Nat) : State :=
  s.keav n op f { guarded := true, d := .v, a := .v, b := .v, c := .s } (oldV f) (fun s =>
    let g := s.eng n
    match s.ldRead n (g.s f.c.toNat).toNat 16 16 with
    | (.bad c, s) => .trap s c
    | (.ok bs ce, s) =>
      match sampDesc bs with
      | none => .trap s 3
      | some d =>
        if d.width = 0 ∨ d.height = 0 then .step ((s.putV n f s.freeLane lat).drawn 32) (issue + ce)
        else
          let reads := (g.lanes f).flatMap (fun k => d.reads four (lane (g.v f.a.toNat) k) (lane (g.v f.b.toNat) k))
          let ((ue, more), s) := reads.foldl (fun (q, s) a =>
            let ((v, c), s) := s.beCheck (ldBase n + a) d.bpp
            ((q.1 || v, q.2 + c), s)) ((false, 0), s)
          if ue then .trap s 6
          else
            .step (s.putV n f (fun k =>
              let x := lane (g.v f.a.toNat) k
              let y := lane (g.v f.b.toNat) k
              if four then s.sampLane n d x y else s.sampnLane n d x y) lat) (issue + ce + more))

/-- SAMP (R88): bilinear. -/
def execSamp (e : Fin 16) (f : KvF) (s : State) : Res := .next (s.kSamp e 0x83 f true 8 12)

/-- SAMPN (R88): nearest. -/
def execSampn (e : Fin 16) (f : KvF) (s : State) : Res := .next (s.kSamp e 0x84 f false 4 8)

/-! ### DMA (R89, R90) -/

/-- The descriptor in 32 bytes, or nothing when it breaks R89, the table of the descriptor, or R90's limit of the local side (DMA_DESC;
that this limit raises it and not DMA_ERR is a DESIGN CHOICE, log 163). CTRL bits [3:2] are ignored (DESIGN CHOICE, log 164). -/
def readDesc (bs : List Byte) : Option Desc :=
  let g := fun o n => ofLe ((bs.drop o).take n)
  let ctrl := g 0x1C 4
  let d : Desc := ⟨g 0 8, g 8 8, g 0x10 2, g 0x12 2, g 0x14 4, g 0x18 4, ctrl % 2 = 1, ctrl / 2 % 2 = 1, ctrl / 16 % 16, false⟩
  let loc := if d.toSys then d.src else d.dst
  let locStride := if d.toSys then d.srcStride else d.dstStride
  if d.src < 2 ^ 40 ∧ d.dst < 2 ^ 40 ∧ d.width % 4 = 0 ∧ 4 ≤ d.width ∧ 1 ≤ d.height ∧ d.srcStride % 4 = 0
      ∧ d.dstStride % 4 = 0 ∧ ctrl < 256 ∧ loc + (d.height - 1) * locStride + d.width ≤ 0x1C000 then some d
  else none

def Engine.chan (e : Engine) (ch : Nat) : List Desc := if ch = 0 then e.ch0 else e.ch1

def Engine.setChan (e : Engine) (ch : Nat) (l : List Desc) : Engine :=
  if ch = 0 then { e with ch0 := l } else { e with ch1 := l }

/-- DMAQ (R89): the descriptor at Sa enters the queue of channel IMM[0], or waits while the queue is full. One that is not 32-byte
aligned breaks R89, which is DMA_DESC (R90). -/
def execDmaq (e : Fin 16) (f : KvF) (s : State) : Res :=
  .next (s.keav e 0x90 f { a := .s, imm := .any } [] (fun s =>
    let ch := f.imm.toNat % 2
    match s.ldRead e ((s.eng e).s f.a.toNat).toNat 32 32 with
    | (.bad c, s) => .trap s (if c = 2 then 8 else c)
    | (.ok bs ce, s) =>
      match readDesc bs with
      | none => .trap s 8
      | some d =>
        if ((s.eng e).chan ch).length < 4 then
          .step (s.updEng e (fun g => g.setChan ch (g.chan ch ++ [d]))) (1 + ce)
        else .hold (s.beWait e (.dmaq ch d))))

/-- Are the channels of the mask idle? -/
def Engine.chansIdle (e : Engine) (mask : Nat) : Bool :=
  (mask % 2 == 0 || e.ch0.isEmpty) && (mask / 2 % 2 == 0 || e.ch1.isEmpty)

/-- DMAWAIT (R89): waits until the channels in IMM[1:0] are idle. -/
def execDmawait (e : Fin 16) (f : KvF) (s : State) : Res :=
  .next (s.keav e 0x91 f { imm := .any } [] (fun s =>
    if (s.eng e).chansIdle (f.imm.toNat % 4) then .step s 1 else .hold (s.beWait e (.dmawait (f.imm.toNat % 4)))))

/-- DMASTAT (R89): Sd = BE_n.DMA_STATUS. -/
def execDmastat (e : Fin 16) (f : KvF) (s : State) : Res :=
  .next (s.keav e 0x92 f { d := .s } [] (fun s =>
    let (v, s) := s.dmaStatus e
    .step (s.putS e f.d v 2) 1))

/-! ### Fences (R91 to R93); a fence number counts modulo 16 (log 128) -/

/-- FSIG (R92): waits for this engine's DMA writes, then adds 1 to fence k. -/
def execFsig (e : Fin 16) (f : KvF) (s : State) : Res :=
  .next (s.keav e 0xA0 f { imm := .any } [] (fun s =>
    if (s.eng e).writesPending then .hold (s.beWait e (.fsig (f.imm.toNat % 16)))
    else .step (s.signal (f.imm.toNat % 16) 1) 1))

/-- FWAIT (R93): waits until fence k has reached Sa. -/
def execFwait (e : Fin 16) (f : KvF) (s : State) : Res :=
  .next (s.keav e 0xA1 f { a := .s, imm := .any } [] (fun s =>
    let t := (s.eng e).s f.a.toNat
    if s.fenceReached (f.imm.toNat % 16) t then .step s 1
    else .hold (s.beWait e (.fwait (f.imm.toNat % 16) t))))

/-- FRD (R91): Sd = fence k. -/
def execFrd (e : Fin 16) (f : KvF) (s : State) : Res :=
  .next (s.keav e 0xA2 f { d := .s, imm := .any } [] (fun s =>
    .step (s.putS e f.d (s.fence (f.imm.toNat % 16)) 3) 1))

/-! ### Mailboxes (R96) -/

/-- The first slot delivered and not yet returned. -/
def Engine.firstSlot (e : Engine) : Option Nat := (e.slots.find? (fun x => !x.2)).map Prod.fst

/-- The slot is handed to the program. -/
def Engine.takeSlot (e : Engine) (m : Nat) : Engine :=
  { e with slots := e.slots.map (fun x => if x.1 = m then (m, true) else x) }

/-- MBRECV (R96): waits until a slot is delivered and returns its address. -/
def execMbrecv (e : Fin 16) (f : KvF) (s : State) : Res :=
  .next (s.keav e 0xB0 f { d := .s } [] (fun s =>
    match (s.eng e).firstSlot with
    | some m => .step ((s.updEng e (fun g => g.takeSlot m)).putS e f.d (BitVec.ofNat 32 (slotAddr m)) 2) 1
    | none => .hold (s.beWait e (.mbrecv f.d.toNat))))

/-- MBFREE (R96): returns the slot at Sa; a slot the program does not hold raises MBOX_FREE. -/
def execMbfree (e : Fin 16) (f : KvF) (s : State) : Res :=
  .next (s.keav e 0xB1 f { a := .s } [] (fun s =>
    let a := ((s.eng e).s f.a.toNat).toNat
    if ∃ x ∈ (s.eng e).slots, x.2 = true ∧ slotAddr x.1 = a then
      .step (s.updEng e (fun g => { g with slots := g.slots.filter (fun x => decide (slotAddr x.1 ≠ a)) })) 1
    else .trap s 0x0B))

/-- MBCOUNT (R96): records waiting. -/
def execMbcount (e : Fin 16) (f : KvF) (s : State) : Res :=
  .next (s.keav e 0xB2 f { d := .s } [] (fun s =>
    .step (s.putS e f.d (BitVec.ofNat 32 (s.eng e).waiting) 2) 1))

/-- EVPOST (R98): a class BE event with code IMM[15:0], priority IMM[17:16] and Sa as data. -/
def execEvpost (e : Fin 16) (f : KvF) (s : State) : Res :=
  .next (s.keav e 0xB3 f { a := .s, imm := .any } [] (fun s =>
    let i := f.imm.toNat
    if i / 2 ^ 15 % 2 = 1 ∧ 1 ≤ i / 2 ^ 16 % 4 ∧ i < 2 ^ 18 then
      .step (s.post ⟨12, i % 65536, i / 2 ^ 16 % 4⟩ e ((s.eng e).s f.a.toNat).toNat) 1
    else .trap s 1))

end Sys2Proof.Machine
end

