-- ==== Sys2Proof/Machine/EthFrame.lean ====
section
/-! DEFINITION. Ethernet frames as bytes (R325 to R327): the headers that the MACs read and build, MACsec over them (R326), and what leaves
on a port. The spec names IEEE 802.1Q, 802.1AE, 802.1AS, 1722, ARP, IPv4, UDP and ICMP and does not repeat their layouts, which are taken
from those standards (log 178, PRESUMED). -/

namespace Sys2Proof.Machine

def State.updHost (s : State) (f : HostU → HostU) : State := { s with host := f s.host }

/-- A HOST event, at most once per second per link or channel `who` (R352). -/
def State.hostEv (s : State) (k : EvKind) (who src data : Nat) : State := s.postGap k who (ticksMs 1000) src data

/-- The big-endian number of `n` bytes from byte `o`. -/
def beAt (bs : List Byte) (o n : Nat) : Nat := ofBe ((bs.drop o).take n)

/-- The sum of 16-bit big-endian words, an odd last byte being the high half of one. -/
def sum16 : List Byte → Nat
  | a :: b :: t => 256 * a.toNat + b.toNat + sum16 t
  | [a] => 256 * a.toNat
  | [] => 0

/-- The internet checksum of bytes. -/
def inetSum (bs : List Byte) : Nat :=
  let m := sum16 bs % 65535
  if m = 0 then 0 else 65535 - m

/-- Bytes that hold their own checksum sum to all ones. -/
def inetOk (bs : List Byte) : Bool := sum16 bs % 65535 == 0

/-! ### Holvo records (R333) -/

/-- A record's bytes. -/
def holvoBytes (r : HRec) : List Byte :=
  let b := leBytes 2 r.seq ++ leBytes 1 r.opcode ++ leBytes 1 r.flags ++ leBytes 2 r.payload.length ++ leBytes 2 r.ref ++ r.payload
  b ++ leBytes 4 (crc32c b)

/-- The zero bytes that bring a record to a multiple of 4 (R327). -/
def padTo4 (bs : List Byte) : List Byte := bs ++ List.replicate ((4 - bs.length % 4) % 4) 0#8

/-! ### What a frame carries, from its EtherType on -/

/-- NTSCF control messages by gpc_msg_id, a UDP datagram with its two ends, an ARP or an echo request, or another protocol. -/
inductive EthBody where
  | ntscf (stream : Nat) (msgs : List (Nat × List Byte))
  | udp (ip port srcIp srcPort : Nat) (data : List Byte)
  | arp (ip mac srcIp : Nat)
  | echo (ip srcIp : Nat) (data : List Byte)
  | other
deriving DecidableEq, Repr

/-- The GPC messages of ACF bytes, in order; a message longer than the bytes left ends the run. -/
def acfMsgs : Nat → List Byte → List (Nat × List Byte)
  | 0, _ => []
  | k + 1, bs =>
    let h := beAt bs 0 2
    let n := 4 * (h % 512)
    if n = 0 ∨ bs.length < n then []
    else
      let rest := acfMsgs k (bs.drop n)
      if h / 512 = 5 ∧ 8 ≤ n then (beAt bs 2 6, (bs.take n).drop 8) :: rest else rest

/-- An NTSCF frame: subtype 0x82, version 0, a valid stream ID. Its sequence number is ignored. -/
def ntscfBody (d : List Byte) : EthBody :=
  let n := beAt d 1 2 % 2048
  if beAt d 0 1 ≠ 0x82 ∨ beAt d 1 1 / 16 ≠ 8 ∨ d.length < 12 + n then .other
  else .ntscf (beAt d 4 8) (acfMsgs (n / 4 + 1) ((d.drop 12).take n))

/-- IPv4 without options and whole: a UDP datagram or an echo request. -/
def ipBody (d : List Byte) : EthBody :=
  let n := beAt d 2 2
  let u := (d.take n).drop 20
  if beAt d 0 1 ≠ 0x45 ∨ d.length < n ∨ n < 20 ∨ inetOk (d.take 20) = false ∨ beAt d 6 2 % 16384 ≠ 0 then .other
  else if beAt d 9 1 = 17 then
    let m := beAt u 4 2
    let pseudo := (d.drop 12).take 8 ++ beBytes 2 17 ++ beBytes 2 m
    if m < 8 ∨ u.length < m ∨ beAt u 6 2 ≠ 0 ∧ inetOk (pseudo ++ u.take m) = false then .other
    else .udp (beAt d 16 4) (beAt u 2 2) (beAt d 12 4) (beAt u 0 2) ((u.take m).drop 8)
  else if beAt d 9 1 = 1 ∧ beAt u 0 2 = 0x0800 ∧ inetOk u then .echo (beAt d 16 4) (beAt d 12 4) (u.drop 4)
  else .other

def arpBody (d : List Byte) : EthBody :=
  if d.length < 28 ∨ beAt d 0 8 ≠ 0x0001080006040001 then .other else .arp (beAt d 24 4) (beAt d 8 6) (beAt d 14 4)

/-- A payload by its EtherType. -/
def typedBody (typ : Nat) (d : List Byte) : EthBody :=
  if typ = 0x22F0 then ntscfBody d else if typ = 0x0800 then ipBody d else if typ = 0x0806 then arpBody d else .other

/-- What follows the addresses: untagged, or with one IEEE 802.1Q tag (R325). -/
def frameBody (bs : List Byte) : EthBody :=
  if beAt bs 0 2 = 0x8100 then typedBody (beAt bs 4 2) (bs.drop 6) else typedBody (beAt bs 0 2) (bs.drop 2)

def isArp : EthBody → Bool
  | .arp _ _ _ => true
  | _ => false

/-! ### What the device sends, from the EtherType on -/

/-- A Holvo record in one GPC message of one NTSCF frame (R325, R327). -/
def ntscfOut (stream msg seq : Nat) (rec_ : List Byte) : List Byte :=
  let m := padTo4 rec_
  beBytes 2 0x22F0 ++ beBytes 1 0x82 ++ beBytes 2 (0x8000 + 8 + m.length) ++ beBytes 1 (seq % 256) ++ beBytes 8 stream
    ++ beBytes 2 (5 * 512 + (8 + m.length) / 4) ++ beBytes 6 msg ++ m

/-- An IPv4 packet without options, not to be fragmented. -/
def ipOut (proto src dst : Nat) (d : List Byte) : List Byte :=
  let h := fun (c : Nat) => beBytes 2 0x4500 ++ beBytes 2 (20 + d.length) ++ beBytes 4 0x00004000 ++ beBytes 2 (64 * 256 + proto)
    ++ beBytes 2 c ++ beBytes 4 src ++ beBytes 4 dst
  beBytes 2 0x0800 ++ h (inetSum (h 0)) ++ d

def udpOut (src sport dst dport : Nat) (d : List Byte) : List Byte :=
  ipOut 17 src dst (beBytes 2 sport ++ beBytes 2 dport ++ beBytes 2 (8 + d.length) ++ beBytes 2 0 ++ d)

def echoOut (src dst : Nat) (d : List Byte) : List Byte :=
  ipOut 1 src dst (beBytes 2 0 ++ beBytes 2 (inetSum d) ++ d)

def arpOut (mac ip dmac dip : Nat) : List Byte :=
  beBytes 2 0x0806 ++ beBytes 8 0x0001080006040002 ++ beBytes 6 mac ++ beBytes 4 ip ++ beBytes 6 dmac ++ beBytes 4 dip

/-- The port identity of port p, whose address is `mac` (IEEE 802.1AS). -/
def ptpPort (mac p : Nat) : List Byte :=
  let m := beBytes 6 mac
  m.take 3 ++ beBytes 2 0xFFFE ++ m.drop 3 ++ beBytes 2 (p + 1)

/-- A gPTP message: its header with the correction field in 2^-16 ns, then its body. -/
def ptpOut (typ mac p seq corr flags : Nat) (body : List Byte) : List Byte :=
  beBytes 2 0x88F7 ++ beBytes 1 (0x10 + typ) ++ beBytes 1 0x12 ++ beBytes 2 (34 + body.length) ++ beBytes 2 0 ++ beBytes 2 flags
    ++ beBytes 8 corr ++ beBytes 4 0 ++ ptpPort mac p ++ beBytes 2 seq ++ beBytes 2 0x057F ++ body

/-- A stamp of FRC ticks as seconds and nanoseconds, and its quarters of a nanosecond as a correction. -/
def ptpStamp (t : Nat) : List Byte := beBytes 6 (5 * t / 4 / 1000000000) ++ beBytes 4 (5 * t / 4 % 1000000000)

def ptpCorr (t : Nat) : Nat := 5 * t % 4 * 2 ^ 14

/-- An IEEE 802.1Q tag of (priority, VID), or none. -/
def vlanOut : Option (Nat × Nat) → List Byte
  | some (pcp, vid) => beBytes 2 0x8100 ++ beBytes 2 (pcp % 8 * 8192 + vid % 4096)
  | none => []

def gptpAddr : Nat := 0x0180C200000E

/-- The destination address of what port p sends, and the rest from the EtherType on. Records go the way that the channel's last record
came (log 179); a stream's frames have the priority that HOST declares for it, other frames no tag. -/
def State.ethBytes (s : State) (p : Nat) : EthTx → Nat × List Byte
  | .holvo r =>
    let h := s.loader.cfg.ho
    match s.host.peer.getD p none with
    | some (mac, ip, port) => (mac, udpOut h.ip h.udpPort ip port (padTo4 (holvoBytes r)))
    | none =>
      let t := h.txStreams.getD p {}
      (t.dst, vlanOut t.vlan ++ ntscfOut t.stream h.gpcMsgId (nth 0 s.host.ntscf p) (holvoBytes r))
  | .pdelayReq seq => (gptpAddr, ptpOut 2 (s.loader.cfg.ho.mac.getD p 0) p seq 0 0x0008 (List.replicate 20 0#8))
  | .pdelayResp t2 who seq => (gptpAddr, ptpOut 3 (s.loader.cfg.ho.mac.getD p 0) p seq (ptpCorr t2) 0x0208 (ptpStamp t2 ++ beBytes 10 who))
  | .pdelayFollow t3 who seq => (gptpAddr, ptpOut 10 (s.loader.cfg.ho.mac.getD p 0) p seq (ptpCorr t3) 0x0008 (ptpStamp t3 ++ beBytes 10 who))
  | .arpReply mac ip => (mac, arpOut (s.loader.cfg.ho.mac.getD p 0) s.loader.cfg.ho.ip mac ip)
  | .echoReply mac ip d => (mac, echoOut s.loader.cfg.ho.ip ip d)

/-! ### MACsec (R326) -/

def State.macsecOn (s : State) (p : Nat) : Bool := s.loader.cfg.ho.macsec.getD p false

def SecA.limit (a : SecA) : Nat := if a.xpn then 2 ^ 64 else 2 ^ 32

/-- The nonce of packet number pn on secure channel `sci`: of XPN the salt over SSCI and the whole number. -/
def SecA.nonce (a : SecA) (sci pn : Nat) : List Byte :=
  if a.xpn then xorBytes a.salt (beBytes 4 a.ssci ++ beBytes 8 pn) else beBytes 8 sci ++ beBytes 4 pn

/-- A frame protected with the association's next packet number: the SecTAG with the SCI, the whole payload encrypted, the ICV. -/
def SecA.seal (a : SecA) (sci : Nat) (addrs d : List Byte) : List Byte :=
  let tag := beBytes 2 0x88E5 ++ beBytes 1 (0x2C + a.assoc % 4) ++ beBytes 1 (if d.length < 48 then d.length else 0)
    ++ beBytes 4 (a.pn % 2 ^ 32) ++ beBytes 8 sci
  addrs ++ tag ++ gcmSeal a.key (a.nonce sci a.pn) (addrs ++ tag) d

/-- The whole packet number of XPN from its low 32 bits and the lowest number that is acceptable; otherwise the 32 bits. -/
def SecA.number (a : SecA) (window low : Nat) : Nat :=
  if a.xpn = false then low
  else
    let least := a.pn - window
    let up := if 2 ^ 31 ≤ least % 2 ^ 32 ∧ low < 2 ^ 31 then 1 else 0
    2 ^ 32 * (least / 2 ^ 32 + up) + low

/-- What a protected frame holds behind the SecTAG: encrypted, or checked only; none where the check fails. `sl` is its short length. -/
def secPayload (key nonce aad body : List Byte) (sl : Nat) (enc : Bool) : Option (List Byte) :=
  let box := if sl = 0 then body else body.take (sl + 16)
  if enc then gcmOpen key nonce aad box
  else
    let d := box.take (box.length - 16)
    if (gcmOpen key nonce (aad ++ d) (box.drop (box.length - 16))).isSome then some d else none

def sameSec (a b : SecA) : Bool := a.port = b.port && a.tx = b.tx && a.assoc = b.assoc

/-- A protected frame in Strict mode with the replay window: what it holds from the EtherType on, and the state with its number noted;
none for one that fails. -/
def State.secOpen (s : State) (p : Nat) (f : List Byte) : Option (List Byte × State) :=
  let tci := beAt f 14 1
  let sci := (s.loader.cfg.ho.sci.getD p (0, 0)).2
  let n := if tci.testBit 5 then 28 else 20
  let win := s.loader.cfg.ho.replayWindow
  match s.host.secs.find? (fun a => a.port == p && !a.tx && a.assoc == tci % 4) with
  | none => none
  | some a =>
    let pn := a.number win (beAt f 16 4)
    if beAt f 12 2 ≠ 0x88E5 ∨ tci.testBit 7 ∨ tci.testBit 3 ≠ tci.testBit 2 ∨ tci.testBit 5 ∧ beAt f 20 8 ≠ sci ∨ pn = 0 ∨ a.limit ≤ pn
        ∨ pn + win < a.pn then none
    else match secPayload a.key (a.nonce sci pn) (f.take n) (f.drop n) (beAt f 15 1 % 64) (tci.testBit 3) with
      | none => none
      | some d =>
        some (d, s.updHost (fun h => { h with secs := h.secs.map (fun b => if sameSec a b then { b with pn := max b.pn (pn + 1) } else b) }))

/-! ### Transmission -/

/-- A frame is at least 60 bytes long before its FCS. -/
def padTo60 (bs : List Byte) : List Byte := bs ++ List.replicate (60 - bs.length) 0#8

/-- The bytes of what port p sends, on the association `sec` where MACsec is on. -/
def State.ethFrame (s : State) (p : Nat) (x : EthTx) (sec : Option SecA) : List Byte :=
  let (dst, d) := s.ethBytes p x
  let addrs := beBytes 6 dst ++ beBytes 6 (s.loader.cfg.ho.mac.getD p 0)
  padTo60 (match sec with
    | none => addrs ++ d
    | some a => a.seal (s.loader.cfg.ho.sci.getD p (0, 0)).1 addrs d)

/-- Something leaves on an Ethernet port. -/
def State.ethSend (s : State) (p : Nat) (x : EthTx) (sec : Option SecA) : State :=
  s.updHost (fun h => { h with
    eth := h.eth ++ [(p, x)], wire := h.wire ++ [(p, s.ethFrame p x sec)],
    ntscf := match x with | .holvo _ => h.ntscf.set p ((nth 0 h.ntscf p + 1) % 256) | _ => h.ntscf })

/-- The association a port transmits on: the one installed last (log 40). -/
def State.txSec (s : State) (p : Nat) : Option SecA := s.host.secs.reverse.find? (fun a => a.port = p && a.tx)

/-- A frame leaves on port p: with MACsec it takes the next packet number, and nothing leaves once they are used up. -/
def State.ethOut (s : State) (p : Nat) (x : EthTx) : State :=
  if s.macsecOn p = false then s.ethSend p x none
  else match s.txSec p with
    | none => s
    | some a =>
      if a.limit ≤ a.pn then s
      else
        let s := s.ethSend p x (some a)
        let s := s.updHost (fun h => { h with secs := h.secs.map (fun b => if sameSec a b then { b with pn := b.pn + 1 } else b) })
        if a.pn = a.limit - 2 ^ 24 then s.hostEv evHOST_MACSEC_PN_LOW p srcHOSTIF (2 * p + a.assoc) else s

end Sys2Proof.Machine
end

