-- ==== Sys2Proof/Machine/Sched.lean ====
section
/-! DEFINITION. The schedule table (R311 to R318), its actions, and the trigger and capture pins (R319, R320). -/

namespace Sys2Proof.Machine

def State.updTime (s : State) (f : TimeU → TimeU) : State := { s with time := f s.time }

def sONCE : Nat := 0
def sPERIODIC : Nat := 1
def sFRAME : Nat := 2

/-! ### Arming (R311 to R313) -/

/-- The entry as its registers hold it. -/
def State.schedHeld (s : State) (e : Nat) : SchedE :=
  { mode := s.getF (fTIME_SCHED_CFG_MODE e), late := s.getF (fTIME_SCHED_CFG_LATE e), action := s.getF (fTIME_SCHED_CFG_ACTION e),
    arg := s.reg (rTIME_SCHED_ARG e), period := s.regN (rTIME_SCHED_PERIOD e), lo := s.regN (rTIME_SCHED_TARGET_LO e),
    target := s.pair (rTIME_SCHED_TARGET_LO e) (rTIME_SCHED_TARGET_HI e) }

/-- The first check of R312. -/
def State.schedArgOk (s : State) (x : SchedE) : Bool :=
  decide (x.mode ≤ 2) && decide (x.late ≤ 2) && argOk x.action x.arg.toNat && periodOk x.mode x.period
    && (x.mode != sFRAME || s.frameOffsetOk x.lo)

/-- Is a target in the future (R311)? -/
def State.future (s : State) (target : Nat) : Bool := decide (s.lampFine < 2 ^ 32 * target)

/-- 2^39 ns or more in the future? -/
def State.tooFar (s : State) (target : Nat) : Bool := decide (s.lampFine + 2 ^ 39 * 2 ^ 32 ≤ 2 ^ 32 * target)

/-! ### When an entry is due (R311, R313) -/

/-- The latch points of the transfer frame last latched and of the next one, as far as they are frames that are sent. -/
def State.frameLatches (s : State) : List (Nat × Rat) :=
  let f := s.lampTiming.frame
  let next := (f + 1) % 2 ^ 32
  match s.gridTg with
  | none => []
  | some n =>
    ((if s.lampTiming.latched then [(f, s.lampTiming.latchAt)] else []) ++ [(next, s.frameLatch n next)]).filter (fun q => s.frameShown q.1)

/-- The first transfer frame of which a FRAME entry's instant lies in the future, and the run it belongs to (log 189). -/
def State.frameFrom (s : State) (x : SchedE) : Nat × Nat :=
  let q := s.frameLatches.find? (fun q => decide (s.lampRat < q.2 + (signOf 32 x.lo : Rat)))
  (s.lampTiming.runs, (q.map Prod.fst).getD ((s.lampTiming.frame + 2) % 2 ^ 32))

/-- Has the instant of a FRAME entry come: that of a frame it has not passed yet, whose number PERIOD divides? -/
def State.frameDue (s : State) (x : SchedE) : Bool :=
  s.frameLatches.any (fun q => q.1 % max 1 (x.period % 256) == 0
    && (x.seen.1 != s.lampTiming.runs || decide (0 ≤ signOf 32 ((q.1 + 2 ^ 32 - x.seen.2) % 2 ^ 32)))
    && decide (q.2 + (signOf 32 x.lo : Rat) ≤ s.lampRat))

/-- Does the entry match: is the low 40-bit difference of target and lamp time, with its fraction, 0 or below (R311)? -/
def State.schedDue (s : State) (x : SchedE) : Bool :=
  if x.mode = sFRAME then s.frameDue x
  else decide (signOf 72 (unsignOf 72 ((2 ^ 32 * x.target : Nat) - (s.lampFine : Int))) ≤ 0)

/-- Is the device away from RUN, or on its way there? -/
def State.asleep (s : State) : Bool := s.getF fPWR_PWR_STATUS_CURRENT != 0 || s.getF fPWR_PWR_STATUS_TARGET != 0xF

/-- Does a lower-numbered entry match in the same TIME cycle, and so execute first (R316)? -/
def State.schedBehind (s : State) (e : Nat) : Bool :=
  (List.range e).any (fun k => match s.schedOf k with
    | some x => s.schedDue x && !(x.action == 7 && s.asleep)
    | none => false)

/-! ### Executing (R316) -/

/-- A pulse of `width` FRC ticks on a pin; pulses that overlap or adjoin merge (R319). -/
def State.pulse (s : State) (pin width : Nat) : State :=
  let fin := s.time.now + width
  s.updTime (fun t =>
    let e := match t.trgEnd.getD pin none with
      | some x => max x fin
      | none => fin
    { t with trgEnd := t.trgEnd.set pin (some e) })

/-- The level of a trigger output. -/
def State.trgLevel (s : State) (pin : Nat) : Bool :=
  let cfg := s.regN (rTIME_TRG_CFG pin)
  let act := cfg.testBit 1 || (s.time.trgEnd.getD pin none).isSome
  act == cfg.testBit 0

/-- One full sweep on each named tile that senses nothing else (R316). -/
def State.sweepStart (s : State) (mask : Nat) : State :=
  ((List.range s.tiles).filter (fun n => mask.testBit n)).foldl (fun s n =>
    if s.isF (fTG_SENSE_CFG_EN n) = false ∧ (s.hl n).oneSweep = false ∧ s.getF (fTG_SENSE_CFG_CHUNK n) = 0 then
      s.updHl n (fun h => { h with oneSweep := true })
    else s) s

/-- The effect of an entry's action; `r` holds the readings of a conversion. -/
def State.schedAct (s : State) (e : Nat) (x : SchedE) (r : SensorIn) : State :=
  let a := x.arg.toNat
  match x.action with
  | 0 => s.post ⟨3, a % 65536, a / 65536⟩ srcTIME e
  | 1 => s.pulse (a % 2) (a / 256)
  | 2 =>
    if (s.regN rTIME_SLOT_GATE).testBit a then
      { s with lampTiming := { s.lampTiming with armed := if a ∈ s.lampTiming.armed then s.lampTiming.armed else s.lampTiming.armed ++ [a] } }
    else s
  | 3 => s.sweepStart a
  | 4 => s.hkConvert a r
  | 5 => s.timingCommit (7 + a)
  | 6 =>
    (List.range 16).foldl (fun s n =>
      if s.getF (fBE_JOB_TRIG_SRC n) = 1 ∧ s.getF (fBE_JOB_TRIG_SCHED_ENTRY n) = e then s.trigger n 1 else s) s
  | _ => s

def resEXECUTED : Nat := 1
def resLATE : Nat := 2
def resMISSED : Nat := 3

/-- One execution: the action, RESULT, EXEC_COUNT and LAST. -/
def State.schedExec (s : State) (e : Nat) (x : SchedE) (r : SensorIn) (result : Nat) : State :=
  let s := s.schedAct e x r
  let s := (s.setF (fTIME_SCHED_STATUS_RESULT e) result).setF (fTIME_SCHED_STATUS_EXEC_COUNT e)
    (s.getF (fTIME_SCHED_STATUS_EXEC_COUNT e) + 1)
  s.setRegN (rTIME_SCHED_LAST e) (s.lampNs % 2 ^ 32)

/-- The default late policy of an action: 1 RUN_LATE, 2 DROP. -/
def latePolicy (x : SchedE) : Nat := if x.late ≠ 0 then x.late else if x.action = 1 ∨ x.action = 2 then 2 else 1

/-- Targets of a PERIODIC entry that are not in the future. -/
def State.missedOf (s : State) (x : SchedE) : Nat :=
  if x.mode = sPERIODIC then (s.lampFine / 2 ^ 32 - x.target) / max 1 x.period + 1 else 1

/-- The late policy (R314). -/
def State.schedLate (s : State) (e : Nat) (x : SchedE) : State :=
  let late := s.lampFine / 2 ^ 32 - x.target
  let k := s.missedOf x
  let s :=
    if latePolicy x = 1 then
      let (r, s) := if x.action = 4 then s.freeReadings else (⟨[], []⟩, s)
      let s := (s.schedExec e x r resLATE).raise fTIME_STATUS_LATE rTIME_LATE_COUNT
      s.post evTIME_LATE srcTIME (2 ^ 26 * e + satAt (2 ^ 26 - 1) (late / 1000))
    else
      let s := (s.setF (fTIME_SCHED_STATUS_RESULT e) resMISSED).raise fTIME_STATUS_MISSED rTIME_MISSED_COUNT
      s.post evTIME_MISSED srcTIME (2 ^ 26 * e + satAt 65535 k)
  if x.mode = sPERIODIC then s.setSched e (some { x with target := (x.target + k * x.period) % 2 ^ 64 }) else s.schedStop e

/-- The entry is armed with what its registers hold (R312); answers the RESULT that refuses it, or 0. -/
def State.schedArm (s : State) (e : Nat) : Nat × State :=
  let x := s.schedHeld e
  let s := s.setSched e none
  if s.schedArgOk x = false then (6, s.schedReject e 6)
  else if x.mode = sFRAME then (0, (s.setSched e (some { x with seen := s.frameFrom x })).setF (fTIME_SCHED_STATUS_ARMED e) 1)
  else if s.tooFar x.target then (4, s.schedReject e 4)
  else
    let s := (s.setSched e (some x)).setF (fTIME_SCHED_STATUS_ARMED e) 1
    if s.future x.target then (0, s) else (0, s.schedLate e x)

/-! ### Matches -/

/-- After an execution: a ONCE entry ends, a PERIODIC entry advances. -/
def State.schedAfter (s : State) (e : Nat) (x : SchedE) : State :=
  if x.mode = sONCE then s.schedStop e
  else if x.mode = sPERIODIC then
    let x := { x with target := (x.target + x.period) % 2 ^ 64 }
    let s := s.setSched e (some x)
    if s.future x.target then s else s.schedLate e x
  else s.setSched e (some { x with seen := s.frameFrom x })

/-- Entry e matches while it is armed with `action`, its instant has come, and no lower-numbered entry comes first (R311, R316). -/
def State.schedMatch (s : State) (e action : Nat) (r : SensorIn) : State :=
  match s.schedOf e with
  | none => s
  | some x =>
    if x.action ≠ action ∨ s.boot.porst = false ∨ s.schedDue x = false ∨ s.schedBehind e then s
    else (s.schedExec e x r resEXECUTED).schedAfter e x

def noReadings : SensorIn := ⟨[], []⟩

/-- The entry is disarmed; one whose match has come executes first (R324). -/
def State.schedOff (s : State) (e : Nat) : State :=
  let s := match s.schedOf e with
    | some x =>
      if x.action = 7 ∧ s.asleep ∨ s.schedDue x = false ∨ s.schedBehind e then s
      else if x.action = 4 then
        let (r, s) := s.freeReadings
        s.schedMatch e x.action r
      else s.schedMatch e x.action noReadings
    | none => s
  s.schedStop e

/-- A write of CFG: with EN = 1 it arms. -/
def State.schedCfg (s : State) (e : Nat) (v : Word) : State :=
  let s := s.setRegN (rTIME_SCHED_CFG e) (2 ^ 27 * bitsOf v.toNat 27 5 + 2 ^ 20 * bitsOf v.toNat 20 4)
  if s.isF (fTIME_SCHED_CFG_EN e) then (s.schedArm e).2 else s.schedOff e

/-- SCHED_ARM: the command is the write with EN = 1. -/
def execSchedArm (e : Fin 64) (v : Word) (s : State) : Res :=
  .next (s.viaRegV (rTIME_SCHED_CFG e) v (fun v s => s.schedCfg e (v ||| 0x80000000#32)))

/-- SCHED_DISARM. -/
def execSchedDisarm (e : Fin 64) (s : State) : Res := .next (s.viaReg (rTIME_SCHED_CFG e) (fun s => s.schedOff e))

/-- A write of TARGET_LO re-arms an enabled entry. -/
def State.schedTarget (s : State) (e : Nat) (v : Word) : State :=
  let s := s.setReg (rTIME_SCHED_TARGET_LO e) v
  if s.isF (fTIME_SCHED_CFG_EN e) then (s.schedArm e).2 else s

def execSchedTargetWrite (e : Fin 64) (v : Word) (s : State) : Res :=
  .next (s.viaRegV (rTIME_SCHED_TARGET_LO e) v (fun v s => s.schedTarget e v))

def execEventPost (e : Fin 64) (s : State) : Res := .next (s.schedMatch e 0 noReadings)
def execTrgPulse (e : Fin 64) (s : State) : Res := .next (s.schedMatch e 1 noReadings)
def execSlotFire (e : Fin 64) (s : State) : Res := .next (s.schedMatch e 2 noReadings)
def execSweepStart (e : Fin 64) (s : State) : Res := .next (s.schedMatch e 3 noReadings)
def execHkConvert (e : Fin 64) (r : SensorIn) (s : State) : Res := .next (s.schedMatch e 4 r)
def execFramePhase (e : Fin 64) (s : State) : Res := .next (s.schedMatch e 5 noReadings)
def execBeWake (e : Fin 64) (s : State) : Res := .next (s.schedMatch e 6 noReadings)

/-- Exit times in ns (R413). -/
def State.exitNs (s : State) (t tiles : Nat) : Rat :=
  if t = 1 then 2000
  else if t = 2 then if tiles = 0 then 500000 else 6500000 + s.timing.period
  else if tiles = 0 then 12000000 else 30000000

def State.guardNs (s : State) : Rat := (1000 * (s.regN rPWR_PWR_GUARD % 2 ^ 20) : Nat)

/-- The wake point of a target away from RUN: earlier than it by the exit time of the state and PWR_GUARD (R411). -/
def State.wakePointCome (s : State) (target : Nat) : Bool :=
  let t := s.getF fPWR_PWR_STATUS_TARGET
  let st := if 1 ≤ t ∧ t ≤ 4 then t else s.getF fPWR_PWR_STATUS_CURRENT
  decide ((target : Rat) - s.exitNs st s.pwr.tiles - s.guardNs ≤ s.lampRat)

/-- PWR_WAKE: away from RUN the wake point wakes the device and the entry waits on; in RUN the match only counts (R411). -/
def State.pwrWake (s : State) (e : Nat) : State :=
  match s.schedOf e with
  | none => s
  | some x =>
    if x.action ≠ 7 then s
    else if s.asleep = false then s.schedMatch e 7 noReadings
    else if s.boot.porst ∧ s.wakePointCome x.target then s.wakeNote 3
    else s

def execPwrWake (e : Fin 64) (s : State) : Res := .next (s.pwrWake e)

/-- A lamp-time step: every armed ONCE and PERIODIC entry is re-examined (R315). -/
def State.schedStep (s : State) : State :=
  (List.range 64).foldl (fun s e =>
    match s.schedOf e with
    | none => s
    | some x =>
      if x.mode = sFRAME then s
      else if s.future x.target = false then s.schedLate e x
      else if s.tooFar x.target then s.schedReject e 5
      else s) s

/-! ### Pins (R319, R320) -/

/-- The width of the last pulse expires; while another pulse is active the pin stays. -/
def State.pulseEnd (s : State) (pin : Nat) : State :=
  match s.time.trgEnd.getD pin none with
  | some t => if t ≤ s.time.now then s.updTime (fun u => { u with trgEnd := u.trgEnd.set pin none }) else s
  | none => s

def execTrgPulseEnd (p : Fin 2) (s : State) : Res := .next (s.pulseEnd p)

/-- Is an edge of the kind CAP_n_CFG selects, and far enough from the last accepted one? -/
def State.capTakes (s : State) (p : Nat) (rising : Bool) : Bool :=
  let edge := s.getF (fTIME_CAP_CFG_EDGE p)
  s.isF (fTIME_CAP_CFG_EN p) && (if rising then edge % 2 == 1 else 2 ≤ edge)
    && (match s.time.capLast.getD p none with
        | some l => decide (l + s.getF (fTIME_CAP_CFG_FILTER p) ≤ s.time.frc)
        | none => true)

/-- An edge of CAP_p is stamped and queued. -/
def State.capEdge (s : State) (p : Nat) (rising : Bool) : State :=
  if s.capTakes p rising = false then s
  else
    let s := s.updTime (fun t => { t with capLast := t.capLast.set p (some t.frc) })
    let q := s.time.capQ.getD p []
    if 16 ≤ q.length then
      (s.raise fTIME_STATUS_CAP_OVF rTIME_CAP_OVF_COUNT).postGap evTIME_CAP_OVERFLOW p (ticksMs 1000) srcTIME p
    else
      let st := s.lampNs % 2 ^ 62
      let s := s.updTime (fun t => { t with capQ := t.capQ.set p (q ++ [(rising, st)]) })
      let s := s.setRegN (rTIME_CAP_DEPTH p) (q.length + 1)
      if s.isF (fTIME_CAP_CFG_EVT p) then
        s.post evTIME_CAP_EDGE srcTIME (2 ^ 31 * p + 2 ^ 30 * rising.toNat + st % 2 ^ 30)
      else s

def execCapEdge (p : Fin 2) (rising : Bool) (s : State) : Res := .next (s.capEdge p rising)

/-- A read of CAP_p_TS_HI. -/
def State.capRead (s : State) (p : Nat) : Word × State :=
  match s.time.capQ.getD p [] with
  | [] => (0, s)
  | (rising, st) :: q =>
    let s := s.updTime (fun t => { t with capQ := t.capQ.set p q, capHold := t.capHold.set p st })
    let s := (s.setRegN (rTIME_CAP_DEPTH p) q.length).setRegN (rTIME_CAP_TS_LO p) (st % 2 ^ 32)
    (BitVec.ofNat 32 (2 ^ 31 + 2 ^ 30 * rising.toNat + st / 2 ^ 32), s)

def execCapTsHiRead (p : Fin 2) (s : State) : Res :=
  .next (s.inCore (fun s =>
    let (v, s) := s.capRead p
    { s with rdata := v }))

end Sys2Proof.Machine
end

