-- ==== Sys2Proof/Machine/TimeOps.lean ====
section
/-! DEFINITION. Lamp time (R298 to R306): the domains' registers, the residual with its slew and step, holdover, the servo, and
the gPTP instances (R307, R308). -/

namespace Sys2Proof.Machine

def State.active (s : State) : Nat := s.getF fTIME_CTRL_ACTIVE

/-- The management firmware runs: started, its cores neither gated nor lost. -/
def State.fwRuns (s : State) : Bool :=
  s.boot.fwStarted && s.getF fPWR_PWR_STATUS_CURRENT == 0 && !s.isF fSAFETY_STATUS_MC_LOST

/-! ### The residual (R303) -/

/-- 1,000 ns in R's unit. -/
def residLimit : Int := 1000 * 4294967296 * 20000

/-- R in ns, exact. -/
def State.residNs (s : State) : Rat := (s.time.resid : Rat) / (4294967296 * 20000)

/-- Is R to be slewed away? -/
def slews (r : Int) : Bool := r != 0 && decide (r ≤ residLimit) && decide (-residLimit ≤ r)

/-- R takes a value; SLEWING follows. -/
def State.setResid (s : State) (r : Int) : State :=
  (s.updTime (fun t => { t with resid := r })).setB fTIME_STATUS_SLEWING (slews r)

/-- LT_a has changed discontinuously by δ, in 2^-32 ns. -/
def State.absorb (s : State) (d : Int) : State := s.setResid (s.time.resid - d * residDiv)

/-- The difference of two domain times as a signed 96-bit number. -/
def ltDiff (a b : Nat) : Int := signOf 96 (unsignOf 96 ((a : Int) - (b : Int)))

/-- Is it the boundary of a step: the next swap instant of the generator that gives the lamp latch point, or none runs? -/
def State.stepBoundary (s : State) : Bool :=
  match s.lampTg with
  | some n => decide ((s.tgOf n).e ≤ s.lampRat)
  | none => true

/-- The step at a light-frame boundary: nothing when R may be slewed by then. The generators' instants keep their place in
real time, the schedule is re-examined, and the grid re-phases (R194, R315). -/
def State.timeStepOp (s : State) : State :=
  let r := s.time.resid
  if r = 0 ∨ slews r ∨ s.stepBoundary = false then s
  else
    let step : Rat := -s.residNs
    let s := s.setResid 0
    let s := (s.raise fTIME_STATUS_TIME_STEP rTIME_TIME_STEP_COUNT).post evTIME_TIME_STEP srcTIME (satNs step)
    let s := s.tgsOn.foldl (fun s n => s.updTg n (fun g =>
      { g with s := g.s + step, e := g.e + step, xfer := g.xfer.map (fun x => { x with latch := x.latch + step }) })) s
    let s : State := { s with lampTiming := { s.lampTiming with latchAt := s.lampTiming.latchAt + step } }
    (s.schedStep).rephase

def execTimeStep (s : State) : Res := .next s.timeStepOp

/-- R moves towards 0 by 50 ppm of the active domain's increment, and never past it (R303). -/
def slewStep (r : Int) (incr : Nat) : Int :=
  if slews r = false then r
  else if 0 < r then max 0 (r - (incr : Int)) else min 0 (r + (incr : Int))

/-- The slew brings R to 0 in this TIME cycle. -/
def State.slewEnd (s : State) : State :=
  if s.isF fTIME_STATUS_SLEWING ∧ slewStep s.time.resid (s.dom s.active).incr = 0 then s.setResid 0 else s

def execSlewEnd (s : State) : Res := .next s.slewEnd

/-! ### Freshness (R304) -/

/-- Ticks since the domain's last update. -/
def State.domAge (s : State) (d : Nat) : Option Nat := (s.dom d).updated.map (fun t => s.time.now - t)

def State.domFresh (s : State) (d : Nat) : Bool :=
  s.isF (fTIME_DOM_CFG_VALID d) && !(s.dom d).stale
    && (match s.domAge d with
        | some a => decide (a < ticksMs (s.regN rTIME_HOLD_CFG % 65536))
        | none => false)

/-- Domain d becomes active under R303. -/
def State.switchTo (s : State) (d : Nat) (auto : Bool) : State :=
  let diff := ltDiff (s.ltDom d) (s.ltDom s.active)
  let s := (s.setF fTIME_CTRL_ACTIVE d).absorb diff
  s.post evTIME_DOMAIN_SWITCH srcTIME (2 * auto.toNat + d)

def State.setHoldover (s : State) (b : Bool) : State :=
  if s.isF fTIME_STATUS_HOLDOVER = b then s else (s.setB fTIME_STATUS_HOLDOVER b).post evTIME_HOLDOVER srcTIME b.toNat

/-- What follows from the domains' freshness; `was` tells that the active domain was fresh before. -/
def State.freshCheck (s : State) (was : Bool) : State :=
  let a := s.active
  if s.domFresh a then s.setHoldover false
  else if was ∨ s.isF fTIME_STATUS_HOLDOVER then
    if s.isF fTIME_CTRL_AUTO ∧ s.domFresh (1 - a) then (s.switchTo (1 - a) true).setHoldover false
    else s.setHoldover true
  else s

/-- Has HOLD_LIMIT passed since the domain's last update? -/
def State.holdPast (s : State) (d : Nat) : Bool :=
  match s.domAge d with
  | some a => decide (ticksMs (s.regN rTIME_HOLD_CFG % 65536) ≤ a)
  | none => false

/-- The active domain stops being fresh: HOLD_LIMIT has passed since its last update. -/
def State.domainStale (s : State) : State :=
  let a := s.active
  if s.holdPast a = false then s
  else
    let was := s.isF (fTIME_DOM_CFG_VALID a) && !(s.dom a).stale
    (s.setDom a { s.dom a with stale := true }).freshCheck was

def execDomainStale (s : State) : Res := .next s.domainStale

/-! ### Corrections (R300, R301, R306) -/

/-- The domain's registers show it. -/
def State.showDom (s : State) (d : Nat) : State :=
  let x := s.dom d
  let s := (s.setRegN (rTIME_OFFSET_FRAC d) (x.offset % 2 ^ 32)).setPair (rTIME_OFFSET_LO d) (rTIME_OFFSET_HI d) (x.offset / 2 ^ 32)
  let s := (s.setRegN (rTIME_INCR_INT d) (x.incr / 2 ^ 32)).setRegN (rTIME_INCR_FRAC d) (x.incr % 2 ^ 32)
  s.setPair (rTIME_BASE_LO d) (rTIME_BASE_HI d) x.base

/-- An update of domain d that takes effect: the residual takes up what it changes at once. -/
def State.domUpdate (s : State) (d : Nat) (x : Dom) : State :=
  let was := s.domFresh s.active
  let old := s.ltDom d
  let s := (s.setDom d { x with updated := some s.time.now, stale := false }).showDom d
  let s := if d = s.active ∧ s.ltDom d ≠ old then s.absorb (ltDiff (s.ltDom d) old) else s
  s.freshCheck was

def incrMin : Nat := 0x13FAE147B
def incrMax : Nat := 0x14051EB85

/-- A new rate: offset and base are latched first, so that LT_d is continuous. -/
def State.setRate (s : State) (d incr : Nat) : State :=
  s.domUpdate d { s.dom d with offset := s.ltDom d, base := s.time.frc, incr := incr }

/-- A refused increment leaves the domain as it is, and the registers show it. -/
def State.incrRefused (s : State) (d : Nat) (servo : Bool) : State :=
  let s := (s.showDom d).raise fTIME_STATUS_INCR_REFUSED rTIME_INCR_REFUSED_COUNT
  s.post evTIME_INCR_REFUSED srcTIME (2 * servo.toNat + d)

/-- A write of INCR_d_FRAC. -/
def State.incrWrite (s : State) (d : Nat) (v : Word) : State :=
  let incr := 2 ^ 32 * (s.regN (rTIME_INCR_INT d) % 16) + v.toNat
  if s.isF (fTIME_DOM_CFG_SERVO d) then s.incrRefused d true
  else if incr < incrMin ∨ incrMax < incr then s.incrRefused d false
  else s.setRate d incr

def execIncrWrite (d : Fin 2) (v : Word) (s : State) : Res :=
  .next (s.viaRegV (rTIME_INCR_FRAC d) v (fun v s => s.incrWrite d v))

/-- A write of OFFSET_d_HI. -/
def State.offsetWrite (s : State) (d : Nat) (v : Word) : State :=
  let off := 2 ^ 64 * v.toNat + 2 ^ 32 * s.regN (rTIME_OFFSET_LO d) + s.regN (rTIME_OFFSET_FRAC d)
  s.domUpdate d { s.dom d with offset := off }

def execOffsetWrite (d : Fin 2) (v : Word) (s : State) : Res :=
  .next (s.viaRegV (rTIME_OFFSET_HI d) v (fun v s => s.offsetWrite d v))

/-- A signed amount in ns added to OFFSET_d. -/
def State.adjust (s : State) (d : Nat) (ns : Int) : State :=
  s.domUpdate d { s.dom d with offset := unsignOf 96 (((s.dom d).offset : Int) + 4294967296 * ns) }

def execAdjWrite (d : Fin 2) (v : Word) (s : State) : Res :=
  .next (s.viaRegV (rTIME_ADJ d) v (fun v s => s.adjust d v.toInt))

/-- INCR_d for a correction in ppb. -/
def servoIncr (ppb : Int) : Nat := ((5368709120 * (1000000000 + ppb) + 500000000) / 1000000000).toNat

/-- A write of OFFSET_MEAS_d to a domain in servo mode. -/
def State.servo (s : State) (d : Nat) (e : Int) : State :=
  if s.isF (fTIME_DOM_CFG_SERVO d) = false then s
  else if 1000 < e ∨ e < -1000 then (s.setRegN (rTIME_SERVO_I d) 0).adjust d e
  else
    let i := clampI (-1048576) 1048575 ((s.reg (rTIME_SERVO_I d)).toInt + e)
    let kp : Int := (s.getF (fTIME_DOM_CFG_KP d) : Nat)
    let ki : Int := (s.getF (fTIME_DOM_CFG_KI d) : Nat)
    let ppb := clampI (-200000) 200000 (kp * e + ki * i / 256)
    let lim := decide (ppb = 200000) || decide (ppb = -200000)
    let s := (s.setRegN (rTIME_SERVO_I d) (unsignOf 32 i)).setB (fTIME_DOM_STATUS_SERVO_CLAMPED d) lim
    let s := if lim then s.post evTIME_SERVO_CLAMP srcTIME d else s
    s.setRate d (servoIncr ppb)

def execOffsetMeasWrite (d : Fin 2) (v : Word) (s : State) : Res :=
  .next (s.viaRegV (rTIME_OFFSET_MEAS d) v (fun v s => s.servo d v.toInt))

/-! ### Reads and the choice of domain (R302, R305) -/

/-- A write of SNAP_CMD. -/
def State.snapCmd (s : State) (v : Word) : State :=
  if v ≠ 1 then s
  else
    let f := s.lampFine
    let s0 := s
    let s := (s.setPair rTIME_SNAP_FRC_LO rTIME_SNAP_FRC_HI s.time.frc).setRegN rTIME_SNAP_LT_FRAC (f % 2 ^ 32)
    let s := s.setPair rTIME_SNAP_LT_LO rTIME_SNAP_LT_HI (f / 2 ^ 32)
    let s := s.setPair rTIME_SNAP_D0_LO rTIME_SNAP_D0_HI (s0.ltDom 0 / 2 ^ 32)
    s.setPair rTIME_SNAP_D1_LO rTIME_SNAP_D1_HI (s0.ltDom 1 / 2 ^ 32)

def execSnapCmd (v : Word) (s : State) : Res := .next (s.viaRegV (rTIME_SNAP_CMD) v (fun v s => s.snapCmd v))

/-- A read of LT_LO. -/
def State.ltRead (s : State) : Word × State :=
  (BitVec.ofNat 32 (s.lampNs % 2 ^ 32), s.setRegN rTIME_LT_HI (s.lampNs / 2 ^ 32 % 2 ^ 32))

def execLtLoRead (s : State) : Res :=
  .next (s.inCore (fun s =>
    let (v, s) := s.ltRead
    { s with rdata := v }))

/-- A write of CTRL; one that names the domain already active switches nothing. -/
def State.ctrlWrite (s : State) (v : Word) : State :=
  let d := v.toNat % 2
  let s := s.setF fTIME_CTRL_AUTO (bitsOf v.toNat 8 1)
  (if d = s.active then s else s.switchTo d false).freshCheck false

def execDomainSwitch (v : Word) (s : State) : Res := .next (s.viaRegV (rTIME_CTRL) v (fun v s => s.ctrlWrite v))

/-! ### gPTP (R307, R308) -/

def State.gptpOf (s : State) (i : Nat) : GptpSt := nth {} s.time.gptp i
def State.setGptp (s : State) (i : Nat) (g : GptpSt) : State := s.updTime (fun t => { t with gptp := t.gptp.set i g })

/-- The data word of GPTP_LOST and GPTP_LOCKED. -/
def gptpData (c : GptpC) : Nat := 256 * (c.domainNumber % 256) + c.port % 2 * 2 + c.dom % 2

/-- The instance is lost. -/
def State.gptpLose (s : State) (i : Nat) (c : GptpC) : State :=
  let s := s.setGptp i { s.gptpOf i with good := 0 }
  let d := c.dom % 2
  if s.isF (fTIME_DOM_CFG_VALID d) = false then s
  else
    let was := s.domFresh s.active
    ((s.setF (fTIME_DOM_CFG_VALID d) 0).post evTIME_GPTP_LOST srcMC0 (gptpData c)).freshCheck was

/-- The stamp of a gPTP event message that crossed the SerDes interface `ago` ticks before now: less the SerDes latency, plus that of the
PHY, of its direction (R309, log 183). -/
def State.gptpStamp (s : State) (p : Nat) (tx : Bool) (ago : Nat) : Nat :=
  let c := s.loader.cfg.ti
  let ser := (if tx then c.txSer else c.rxSer).getD p 0
  let phy := (if tx then c.txLat else c.rxLat).getD p 0
  unsignOf 64 ((s.time.frc : Int) - (ago : Int) - (ser : Int) + (phy : Int))

/-- The time of domain d at FRC stamp t, in 2^-32 ns (R299, R309). -/
def State.ltAt (s : State) (d t : Nat) : Nat :=
  unsignOf 96 ((s.dom d).offset + (s.dom d).incr * signOf 64 (unsignOf 64 ((t : Int) - ((s.dom d).base : Int))))

/-- Grandmaster time less domain time, whole ns, of a Sync stamped at t that left the grandmaster's port at `origin` ns. -/
def State.gptpOffset (s : State) (i d t origin : Nat) : Int :=
  ltDiff (2 ^ 32 * (origin + (s.gptpOf i).delayNs) % 2 ^ 96) (s.ltAt d t) / 2 ^ 32

/-- The offset of a completed Sync exchange: three in a row within ±200 ns set VALID. -/
def State.gptpGood (s : State) (i : Nat) (c : GptpC) (offset : Int) : State :=
  let d := c.dom % 2
  let good := if -200 ≤ offset ∧ offset ≤ 200 then satAt 3 ((s.gptpOf i).good + 1) else 0
  let s := s.setGptp i { s.gptpOf i with good := good }
  if good < 3 ∨ s.isF (fTIME_DOM_CFG_VALID d) then s
  else ((s.setF (fTIME_DOM_CFG_VALID d) 1).post evTIME_GPTP_LOCKED srcMC0 (gptpData c)).freshCheck false

/-- A Sync message, one-step or two-step, or the follow-up that completes a two-step one (R307). -/
def State.gptpSync (s : State) (i : Nat) (m : SyncIn) : State :=
  match s.loader.cfg.ti.gptp[i]? with
  | none => s
  | some c =>
    if s.fwRuns = false then s
    else
      let heard := fun (s : State) (w : Option Nat) => s.setGptp i { s.gptpOf i with last := some s.time.now, wait := w }
      match m with
      | .oneStep ago origin =>
        (heard s none).gptpGood i c (s.gptpOffset i (c.dom % 2) (s.gptpStamp c.port false ago) origin)
      | .twoStep ago => heard s (some (s.gptpStamp c.port false ago))
      | .followUp origin =>
        match (s.gptpOf i).wait with
        | none => s
        | some t => (s.setGptp i { s.gptpOf i with wait := none }).gptpGood i c (s.gptpOffset i (c.dom % 2) t origin)

def execGptpSync (i : Fin 2) (m : SyncIn) (s : State) : Res := .next (s.gptpSync i m)

/-- An Announce names a grandmaster. -/
def State.gptpAnnounce (s : State) (i gm : Nat) : State :=
  match s.loader.cfg.ti.gptp[i]? with
  | none => s
  | some c => if s.fwRuns = false ∨ gm = c.gm then s else s.gptpLose i c

def execGptpAnnounce (i : Fin 2) (gm : Nat) (s : State) : Res := .next (s.gptpAnnounce i gm)

/-- Have three Sync intervals passed since the latest Sync message (log 183)? -/
def State.syncTimeout (s : State) (i : Nat) : Bool :=
  match (s.gptpOf i).last with
  | some t => decide (t + 3 * (800000000 / 2 ^ (s.gptpOf i).interval.natAbs) ≤ s.time.now)
  | none => true

/-- asCapable is false, or no Sync has come for three intervals. -/
def State.gptpLost (s : State) (i : Nat) (asCapable : Bool) : State :=
  match s.loader.cfg.ti.gptp[i]? with
  | none => s
  | some c => if s.fwRuns = false ∨ asCapable ∧ s.syncTimeout i = false then s else s.gptpLose i c

def execGptpLost (i : Fin 2) (asCapable : Bool) (s : State) : Res := .next (s.gptpLost i asCapable)

/-- A link-delay exchange: the port's own request is sent and stamped, a request is answered with its stamps, and an answer gives the
delay that serves every instance of the port (R307). -/
def State.gptpPdelay (s : State) (p : Nat) (m : PdelayIn) : State :=
  if s.fwRuns = false then s
  else
    match m with
    | .due =>
      let seq := nth 0 s.time.pdelaySeq p
      (s.ethOut p (.pdelayReq seq)).updTime (fun t => { t with
        pdelay := t.pdelay.set p (some (s.gptpStamp p true 0)), pdelaySeq := t.pdelaySeq.set p ((seq + 1) % 65536) })
    | .req who seq =>
      (s.ethOut p (.pdelayResp (s.gptpStamp p false 0) who.toNat seq.toNat)).ethOut p
        (.pdelayFollow (s.gptpStamp p true 0) who.toNat seq.toNat)
    | .resp seq t2 t3 =>
      match s.time.pdelay.getD p none with
      | none => s
      | some t1 =>
        if (seq.toNat + 1) % 65536 ≠ nth 0 s.time.pdelaySeq p then s
        else
          let ns := (5 * ((s.gptpStamp p false 0 + 2 ^ 64 - t1) % 2 ^ 64) - 4 * (t3 - t2)) / 8
          let s := s.updTime (fun t => { t with pdelay := t.pdelay.set p none })
          s.loader.cfg.ti.gptp.zipIdx.foldl (fun s q =>
            if q.1.port = p then s.setGptp q.2 { s.gptpOf q.2 with delayNs := ns } else s) s

def execGptpPdelay (p : Fin 2) (m : PdelayIn) (s : State) : Res := .next (s.gptpPdelay p m)

/-- A message-interval request, honoured within −5 to 0. -/
def State.gptpSignal (s : State) (i : Nat) (interval : Int) : State :=
  if s.fwRuns = false ∨ interval < -5 ∨ 0 < interval then s else s.setGptp i { s.gptpOf i with interval := interval }

def execGptpSignalling (i : Fin 2) (interval : Int) (s : State) : Res := .next (s.gptpSignal i interval)

end Sys2Proof.Machine
end

