-- ==== Sys2Proof/Machine/HostOps.lean ====
section
/-! DEFINITION. What the device sends to a host: Holvo records, replies and STATE (R332 to R337), and
the views of Hamper that they carry (R342, R350). -/

namespace Sys2Proof.Machine

/-! ### Hamper's views -/

/-- EVT_SEQ_OLDEST: records enter in the order of their numbers. -/
def State.evtOldest (s : State) : Nat :=
  match s.hamper.held with
  | (n, _) :: _ => n
  | [] => s.regN rMSG_EVT_SEQ_NEXT % 65536

/-- EVT_STATUS. -/
def State.evtStatus (s : State) : Word :=
  let p0 := (s.hamper.held.filter (fun c => c.2.kind.prio = 0)).length
  BitVec.ofNat 32 (2 ^ 28 * (!s.hamper.packet.isEmpty).toNat + 2 ^ 27 * s.hamper.summary.isSome.toNat + 2 ^ 16 * p0
    + s.hamper.held.length)

/-! ### Holvo records out (R332, R333, R336) -/

def hACK_REQ : Nat := 1
def hRESYNC : Nat := 2
def hREPLY : Nat := 4

/-- A record of the device's on channel c: the next number, then the port or the reply mailbox. The longest, EVENTS and the answer to
SPOOL_READ, have 1,048 bytes, within every limit of R327. -/
def State.sendRec (s : State) (c opcode : Nat) (payload : List Byte) (ref flags : Nat) : State :=
  let n := s.regN (rMSG_TX_SEQ c) % 65536
  let s := s.setRegN (rMSG_TX_SEQ c) ((n + 1) % 65536)
  let r : HRec := ⟨n, opcode, flags, ref, payload⟩
  if c = 2 then
    let full := decide (8 ≤ s.host.replies.length)
    let s := s.updHost (fun h => { h with replies := (if full then h.replies.drop 1 else h.replies) ++ [r] })
    if full then s.bump rHOSTIF_SPI_REPLY_LOST else s
  else s.ethOut c (.holvo r)

/-! NAK reasons (R337). -/

def nakSEQ_GAP : Nat := 1
def nakDUPLICATE : Nat := 2
def nakFORMAT : Nat := 3
def nakUNKNOWN : Nat := 4
def nakBUSY : Nat := 5
def nakMAILBOX_FULL : Nat := 6
def nakTOO_LONG : Nat := 7
def nakUNOWNED : Nat := 8
def nakENGINE_DOWN : Nat := 9
def nakFLIP : Nat := 10
def nakENTRY : Nat := 11
def nakLOCKED : Nat := 12
def nakREJECTED : Nat := 13
def nakFENCE : Nat := 14

/-- A REPLY with its third field given. -/
def State.replyWith (s : State) (c seq op result expected detail : Nat) (data : List Byte) : State :=
  s.sendRec c 0xE0 (leBytes 1 result ++ leBytes 1 op ++ leBytes 2 expected ++ leBytes 4 detail ++ data) seq hREPLY

def State.lastSeq (s : State) (c : Nat) : Nat := s.regN (rMSG_LAST_ACCEPTED_SEQ c) % 65536

/-- ACK, with data. -/
def State.ackRec (s : State) (c seq op : Nat) (data : List Byte) : State := s.replyWith c seq op 0 (s.lastSeq c) 0 data

/-- NAK: counted and answered. -/
def State.nakRec (s : State) (c seq op why expected detail : Nat) : State :=
  (s.raise fMSG_ROUTER_FLAGS_NAK rMSG_NAK_COUNT).replyWith c seq op why expected detail []

/-- The STATE record (R337). -/
def State.stateRec (s : State) (c reason ref : Nat) : State :=
  let b := leBytes 2 (s.lastSeq c) ++ leBytes 2 (s.regN rMSG_EVT_SEQ_NEXT) ++ leBytes 2 s.evtOldest
    ++ leBytes 2 s.hamper.held.length ++ (List.range 4).flatMap (fun p => leBytes 2 (s.regN (rMSG_EVT_DROP p)))
    ++ leBytes 4 (s.regN rMSG_SP_SEQ_OLDEST) ++ leBytes 4 (s.regN rMSG_SP_SEQ_NEWEST) ++ leBytes 8 s.lampNs
    ++ leBytes 1 reason ++ leBytes 3 0 ++ leBytes 4 (satAt 0xFFFFFFFF s.hamper.withheld)
  s.sendRec c 0xE2 b ref (if reason = 0 then hREPLY else 0)

end Sys2Proof.Machine
end

