-- ==== Sys2Proof/Machine/Loader.lean ====
section
/-! DEFINITION. The loader: the phases of a load as they are applied (R45 to R50), the OTP commands (R43, R44), host pushes and
runtime updates (R48, R52 to R57), and the commands of chapter 2. -/

namespace Sys2Proof.Machine

def upRECEIVING : Nat := 1
def upVERIFYING : Nat := 2
def upVERIFIED : Nat := 3
def upINSTALLING : Nat := 4
def upARMED : Nat := 5
def upDONE : Nat := 6
def upREFUSED : Nat := 7
def upCANCELLED : Nat := 8

def State.setBs (s : State) (v : Nat) : State := s.setF fBSTREAM_STATUS_STATE v
def State.updState (s : State) : Nat := s.getF fBSTREAM_UPDATE_STATUS_STATE
def State.updLoader (s : State) (f : Loader → Loader) : State := { s with loader := f s.loader }

/-! ### Applying sections (R47) -/

/-- A register takes a value that a section declares: every field that software may write, locked or not. -/
def State.declare (s : State) (c : Nat × Word) : State :=
  match regRow c.1 with
  | none => s
  | some r =>
    let m := r.wr ||| r.lock
    s.setReg c.1 ((s.reg c.1 &&& ~~~m) ||| (c.2 &&& m))

def State.declareAll (s : State) (l : List (Nat × Word)) : State := l.foldl State.declare s

/-- The entries of one phase, with their contents. -/
def phaseSecs (img : LoadImg) (ph : Nat) : List (SecEntry × Content) :=
  (img.table.zip img.contents).filter (fun p => secPhase p.1.typ = ph)

/-- Their contents join the configuration in force. -/
def State.takeSecs (s : State) (l : List (SecEntry × Content)) : State :=
  s.updLoader (fun x => { x with cfg := l.foldl (fun c p => cfgAdd c p.1.inst p.2) x.cfg })

/-- SECTIONS_LOADED: the structural sections applied and the runtime sections installed. -/
def State.showLoaded (s : State) : State :=
  s.setF fBSTREAM_STATUS_SECTIONS_LOADED (s.loader.applied.length + s.loader.installed.length)

/-- A load fails: its code and section, LOAD_FAIL (R55). -/
def State.loadError (s : State) (code sec : Nat) : State :=
  let s := s.setRegN rBSTREAM_ERROR (65536 * sec + code)
  s.post evCONFIG_LOAD_FAIL srcBSTREAM (65536 * sec + code)

/-- STALE_MAX of every layer. -/
def State.setStale (s : State) (f : Nat → Nat) : State :=
  (List.range 8).foldl (fun s l => s.setF ⟨rMSG_LAYER_STALE l, 0, 8⟩ (f l)) s

/-- What an image's header shows in BSTREAM, from the moment phase 1 is applied (DESIGN CHOICE, log 166). -/
def State.showHeader (s : State) (img : LoadImg) (image : Nat) : State :=
  let s := (s.setRegN rBSTREAM_SEC_VERSION img.secVersion).setPair rBSTREAM_BUILD_ID_LO rBSTREAM_BUILD_ID_HI img.build
  let s := (s.setRegN rBSTREAM_LAMP_ID img.lampId).setRegWords (rBSTREAM_STRUCT_HASH 0) (leWords (structHash img))
  let s := (s.setF fBSTREAM_STATUS_KEY_SLOT img.keySlot).setB fBSTREAM_STATUS_ENCRYPTED (img.table.any encryptedBit)
  (s.setF fBSTREAM_STATUS_IMAGE image).setB fBSTREAM_STATUS_SOURCE (image = 2)

/-- CP_n.WINDOW shows the origin of every tile of the arrangement (R4, R128). -/
def State.placeTiles (s : State) : State :=
  let a := s.loader.cfg.st.arr
  (List.range (arrTiles a)).foldl (fun s n =>
    (s.setF (fCP_WINDOW_COL n) (tileOrigin a n).1).setF (fCP_WINDOW_ROW n) (tileOrigin a n).2) s

/-- Until BOARD has configured DRAM the loader stages the first 8 MiB of a file in correction memory (R46, R163). -/
def State.stageFile (s : State) (at_ : Nat) (bs : List Byte) : State :=
  if s.isF fTOP_START_STATUS_DRAM_READY then s else s.writeMem (corrBase + at_) (bs.take (0x800000 - at_))

/-- Phase 1 is applied: no earlier section stays in force. -/
def State.applyPhase1 (s : State) (img : LoadImg) (image : Nat) : State :=
  let l := phaseSecs img 1
  let s := s.updLoader (fun x => { x with
    img := img, cfg := {}, phase := 1, failed := false, installed := [], revokePermit := img.flags / 4 % 2 = 1,
    applied := l.map (fun p => (p.1.typ, p.1.inst, p.1.hash)) })
  let s := s.takeSecs l
  let c := s.loader.cfg
  let s := ((s.declareAll c.st.regs).declareAll c.bd.regs).declareAll c.sf.regs
  let s := (s.takeTables.placeTiles.setStale (fun _ => c.sf.staleMax)).showHeader img image
  (s.setF fTOP_START_STATUS_PHASE1_DONE 1).showLoaded

/-- Phases 0 and 1 of a whole bit-stream: the code and section it is refused with, or phase 1 applied. -/
def State.loadPhase1 (s : State) (bs : List Byte) (cs : List Content) (image : Nat) : Option (Nat × Nat) × State :=
  match checkPhase0 s bs with
  | some code => (some (code, 0xFF), s)
  | none =>
    let img := readImage bs cs
    match checkPhase s.part {} img 1 with
    | some r => (some r, s)
    | none => (none, s.applyPhase1 img image)

/-! ### Phase 2 and the lock (R50) -/

/-- The MACsec keys, the stream's buckets, Spool and the first STATE records of HOST (R326, R336, R345, R346). -/
def State.hostApply (s : State) (c : HostC) : State :=
  let s := s.updHost (fun h => { h with
    secs := c.saks.map (fun k => { port := k.port, tx := k.tx, assoc := k.assoc, key := k.key, xpn := k.xpn, ssci := k.ssci, salt := k.salt }) })
  let s := [0, 1].foldl (fun s p => (s.setB (fHOSTIF_ETH_STATUS_MACSEC p) (c.macsec.getD p false)).setB
    (fHOSTIF_ETH_STATUS_BENCH p) c.bench) s
  let s := { s with hamper := { s.hamper with tokens := c.buckets.map (fun (b : Nat × Nat) => 800000000 * b.2), tokensAt := s.time.now } }
  let s := if s.isF fMSG_SP_CFG_EN then s.setF fMSG_SP_STATUS_STATE 1 else s
  (c.hostChannels.filter (· < 2)).foldl (fun s p => s.stateRec p 1 0) s

/-- Phase 2 is applied and the lock is set. -/
def State.applyPhase2 (s : State) : State :=
  let l := phaseSecs s.loader.img 2
  let lm := l.foldl (fun a p => match p.2 with | .lockmap q => a ++ q | _ => a) []
  let s := (s.takeSecs l).updLoader (fun x => { x with
    phase := 2, lockmap := lm, applied := x.applied ++ l.map (fun p => (p.1.typ, p.1.inst, p.1.hash)) })
  let c := s.loader.cfg
  let s := ((s.declareAll c.pw.regs).declareAll c.ti.regs).declareAll c.ho.regs
  let s := (s.hostApply c.ho).showLoaded
  (s.setF fBSTREAM_STATUS_LOCKED 1).setF fTOP_START_STATUS_LOCKED 1

/-! ### Phase 3 (R47, R106) -/

/-- A curve written to a bank. -/
def putCurve (bank : List (Nat × Word)) (k : Nat × List Word) : List (Nat × Word) :=
  k.2.zipIdx.foldl (fun b q => tabSet (fun _ => 0#32) b (33 * k.1 + q.2) q.1) bank

/-- LAYER_FB shows the fallback descriptors of the LIBRARY sections in force; a layer without one has none (R158). -/
def State.setFallbacks (s : State) : State :=
  let all := (s.loader.cfg.li.flatMap (fun c => c.2.fallback)).reverse
  (List.range 8).foldl (fun s l =>
    s.setRegWords (rMSG_LAYER_FB l 0) (((all.find? (fun f => f.1 = l)).map Prod.snd).getD (List.replicate 8 0))) s

/-- A schedule template is written and armed as its CFG says (R312). -/
def State.setTemplate (s : State) (t : SchedEntry) : State :=
  let s := (s.setReg (rTIME_SCHED_ARG t.entry) t.arg).setReg (rTIME_SCHED_PERIOD t.entry) t.period
  let s := s.setPair (rTIME_SCHED_TARGET_LO t.entry) (rTIME_SCHED_TARGET_HI t.entry) t.target
  s.schedCfg t.entry t.cfg

/-- The spare is named in BE.SPARE. -/
def State.showSpare (s : State) (p : BeprogC) : State :=
  if p.isSpare then (s.setF fBE_SPARE_VALID 1).setF fBE_SPARE_ENGINE (p.engines.headD 0) else s

/-- The engines of a program get it (R106). -/
def State.setProgram (s : State) (p : BeprogC) : State := (p.engines.foldl (fun s n => s.placeProgram n p) s).showSpare p

/-- Layer staleness limits of SAFETY_RT; SAFETY's where it has none (R154). -/
def State.setRt (s : State) (c : SafetyRtC) : State :=
  s.setStale (fun k => (c.staleMax.getD []).getD k s.loader.cfg.sf.staleMax)

/-- An armed injection into the curve memory hits the first word written (R392). -/
def State.injectCurve (s : State) (c : LibraryC) : State :=
  match c.curves with
  | (k, _) :: _ => s.injectWord 4 (knotAddr 0 k 0)
  | [] => s

/-- One runtime section installed at the start. -/
def State.installSec (s : State) : Content → State
  | .safetyRt c => s.setRt c
  | .schedule l => l.foldl State.setTemplate s
  | .beprog p => s.setProgram p
  | .library c =>
    let s := s.setFallbacks.injectCurve c
    { s with bank0 := c.curves.foldl putCurve s.bank0, bank1 := c.curves.foldl putCurve s.bank1 }
  | _ => s

/-- Schedule entries 0 to 3 come from the supplied template (R108), where a program takes its default trigger and no SCHEDULE section
names the entry. -/
def State.setDefaults (s : State) (l : List Content) : State :=
  let named := l.flatMap (fun c => match c with
    | .schedule es => es.map (fun e => e.entry)
    | _ => [])
  l.foldl (fun s c => match c with
    | .beprog p => match progTemplate s.lampNs p.kind with
      | some t => if named.contains t.entry ∨ p.trig ≠ some (BitVec.ofNat 32 (progDefault p.kind).2.1) then s else s.setTemplate t
      | none => s
    | _ => s) s

/-- Every fence reads 0 after the load (R350). -/
def State.zeroFences (s : State) : State :=
  let s := (List.range 16).foldl (fun s k => s.setRegN (rMSG_FENCE k) 0) s
  { s with comp := { s.comp with arb := [] } }

/-- Phase 3 is installed and STATE is RUNNING. -/
def State.installPhase3 (s : State) (img : LoadImg) : State :=
  let l := phaseSecs img 3
  let s := (s.takeSecs l).updLoader (fun x => { x with
    phase := 3, failed := false, installed := l.map (fun p => (p.1.typ, p.1.inst)) })
  let s := l.foldl (fun s p => s.installSec p.2) (s.zeroFences.setRegN rBE_SPARE 0)
  let s := s.setDefaults (l.map Prod.snd)
  let s := s.showLoaded.releaseFault .load
  (s.setBs bsRUNNING).setF fTOP_START_STATUS_RUNTIME_DONE 1

/-- A load fails in phase 2 or 3 (R48). -/
def State.loadFailed (s : State) (r : Nat × Nat) : State :=
  let s := (s.loadError r.1 r.2).updLoader (fun x => { x with failed := true })
  (s.setBs bsFAILED).assertFault .load

/-- Phase 3 of an image: checked against what is in force, then installed. -/
def State.loadPhase3 (s : State) (img : LoadImg) : State :=
  match checkPhase s.part s.loader.cfg img 3 with
  | some r => s.loadFailed r
  | none => s.installPhase3 img

/-- Phases 2 and 3, once phase 1 is applied, its environment verified and DRAM trained. -/
def State.loadPhase2 (s : State) : State :=
  if s.loader.phase ≠ 1 ∨ s.bsState ≠ bsVERIFY_ENV ∨ s.boot.phase ≠ .started ∨ s.isF fTOP_START_STATUS_DRAM_READY = false then s
  else match checkPhase s.part s.loader.cfg s.loader.img 2 with
    | some r => s.loadFailed r
    | none => s.applyPhase2.loadPhase3 s.loader.img

def execLoadPhase2 (s : State) : Res := .next s.loadPhase2

/-! ### Runtime updates (R52 to R57) -/

/-- UPDATE_STATUS.STATE, with UPDATE_PENDING. -/
def State.setUpd (s : State) (v : Nat) : State :=
  (s.setF fBSTREAM_UPDATE_STATUS_STATE v).setB fBSTREAM_STATUS_UPDATE_PENDING (v = upINSTALLING || v = upARMED)

/-- ERR_CODE and UPD_REFUSED; STATE is unchanged. -/
def State.updNak (s : State) (code : Nat) : State :=
  (s.setF fBSTREAM_UPDATE_STATUS_ERR_CODE code).post evCONFIG_UPD_REFUSED srcBSTREAM code

/-- The package is refused. -/
def State.updRefuse (s : State) (code : Nat) : State :=
  ((s.setUpd upREFUSED).updLoader (fun x => { x with pkg := none })).updNak code

def State.updBusyState (s : State) : Bool := s.updState = upVERIFYING || s.updState = upINSTALLING || s.updState = upARMED

/-- Base and size of the staging buffer (R54); the base is STRUCTURE's (log 126). -/
def State.stageBase (s : State) : Nat := s.loader.cfg.st.stagingBase
def State.stageSize (s : State) : Nat := 2 ^ 20 * s.loader.cfg.st.stagingMiB

/-- Package bytes enter the staging buffer; what lies beyond it is dropped. While an update is in progress they are ignored (R57). -/
def State.stageBytes (s : State) (at_ : Nat) (bs : List Byte) : State :=
  if s.updBusyState then s.updNak errBusy
  else
    let s := if s.updState = upRECEIVING then s else (s.setUpd upRECEIVING).updLoader (fun x => { x with pkg := none })
    if at_ + bs.length ≤ s.stageSize then s.putDram (s.stageBase + at_) bs else s

/-- Four bytes of a host push (R48). -/
def State.pushBytes (s : State) (at_ : Nat) (bs : List Byte) : State :=
  let s := if s.bsState = bsLOAD_HOST then s else (s.setBs bsLOAD_HOST).updLoader (fun x => { x with push := [], pushed := 0 })
  (s.stageFile at_ bs).updLoader (fun x =>
    { x with push := tabPutAll (fun _ => 0#8) x.push at_ bs, pushed := max x.pushed (at_ + bs.length) })

/-- A write of STAGE_DATA; one that meets an update in progress changes nothing but the error code (R57). -/
def State.stageData (s : State) (v : Word) : State :=
  let a := s.regN rBSTREAM_STAGE_ADDR / 4 * 4
  let bs := leBytes 4 v.toNat
  let st := s.bsState
  let s :=
    if st = bsRUNNING then s.stageBytes a bs
    else if st = bsWAIT_HOST ∨ st = bsFAILED ∨ st = bsLOAD_HOST then s.pushBytes a bs
    else s.updNak errNotPermitted
  if st = bsRUNNING ∧ s.updBusyState then s else s.setRegN rBSTREAM_STAGE_ADDR ((a + 4) % 2 ^ 32)

def execStageData (v : Word) (s : State) : Res := .next (s.inCore (·.stageData v))

/-- More than 1 s between two STAGE_DATA writes. -/
def State.stageTimeout (s : State) : State :=
  if s.bsState = bsLOAD_HOST then
    ((s.loadError errTimeout 0xFF).setBs bsWAIT_HOST).updLoader (fun x => { x with push := [], pushed := 0 })
  else if s.bsState = bsRUNNING ∧ s.updState = upRECEIVING then s.updRefuse errTimeout
  else s

def execStageTimeout (s : State) : Res := .next s.stageTimeout

/-- VERIFY. -/
def State.updVerify (s : State) : State :=
  if s.updBusyState then s.updNak errBusy
  else if s.bsState ≠ bsRUNNING ∨ ¬ (s.updState = upRECEIVING ∨ s.updState = upVERIFIED) then s.updNak errNotPermitted
  else s.setUpd upVERIFYING

def execUpdateVerify (s : State) : Res := .next (s.inCore State.updVerify)

/-- Verification completes: the file is read from the staging buffer, as long as its header says. -/
def State.updVerified (s : State) (cs : List Content) : State :=
  if s.updState ≠ upVERIFYING then s
  else
    let n := min s.stageSize (s.loadN (s.stageBase + 8) 4)
    let ((bs, ue), s) := s.readMem s.stageBase n
    let img := readImage bs cs
    if ue then s.updRefuse errCrcFail
    else match checkPackage s img with
      | some code => s.updRefuse code
      | none => (s.setUpd upVERIFIED).updLoader (fun x => { x with pkg := some img })

def execUpdateVerified (contents : List Content) (s : State) : Res := .next (s.updVerified contents)

/-- COMMIT. -/
def State.updCommit (s : State) : State :=
  if s.updState = upINSTALLING ∨ s.updState = upARMED then s.updNak errBusy
  else if s.updState ≠ upVERIFIED then s.updNak errNotPermitted
  else s.setUpd upINSTALLING

def execUpdateCommit (s : State) : Res := .next (s.inCore State.updCommit)

/-- The copy completes. -/
def State.updCopied (s : State) : State :=
  if s.updState ≠ upINSTALLING then s else (s.setUpd upARMED).updLoader (fun x => { x with armedAt := s.time.now })

def execUpdateCopyDone (s : State) : Res := .next s.updCopied

/-- CANCEL (`power` 0), or the entry to SLEEP or deeper (1). -/
def State.updCancel (s : State) (power : Nat) : State :=
  let st := s.updState
  if st = upINSTALLING ∨ st = upARMED ∨ (power = 0 ∧ (st = upRECEIVING ∨ st = upVERIFIED)) then
    ((s.setUpd upCANCELLED).updLoader (fun x => { x with pkg := none })).post evCONFIG_UPD_CANCELLED srcBSTREAM power
  else if power = 0 ∧ st = upVERIFYING then s.updNak errBusy
  else s

def execUpdateCancel (s : State) : Res := .next (s.updCancel 0)

/-- A write of UPDATE_CMD. -/
def State.updCmd (s : State) (v : Nat) : State :=
  if v = 1 then s.updVerify else if v = 2 then s.updCommit else if v = 3 then s.updCancel 0 else s

/-- One section of a package takes effect: a program loads at its engine's next job start, curves go to the inactive
bank. -/
def State.activateSec (s : State) : Content → State
  | .safetyRt c => s.setRt c
  | .schedule l => l.foldl State.setTemplate s
  | .beprog p =>
    (p.engines.foldl (fun s n =>
      if s.beState n = beOFF then s.placeProgram n p else s.updEng n (fun e => { e with next := some p })) s).showSpare p
  | .library c =>
    let s := s.setFallbacks.injectCurve c
    if s.activeBank = 0 then { s with bank1 := c.curves.foldl putCurve s.bank1 }
    else { s with bank0 := c.curves.foldl putCurve s.bank0 }
  | _ => s

/-- The banks swap, for all four instances together (R169); the inactive one first holds what the active one does. -/
def State.copyBank (s : State) : State := if s.activeBank = 0 then { s with bank1 := s.bank0 } else { s with bank0 := s.bank1 }
def State.swapBanks (s : State) : State :=
  let b := 1 - s.activeBank
  (List.range 4).foldl (fun s n => s.setF (fPRESS_STATUS_CURVE_BANK n) b) s

/-- A package takes effect with transfer frame `frame` (R54). -/
def State.updActivate (s : State) (img : LoadImg) (frame : Nat) : State :=
  let l := (img.table.zip img.contents).filter (fun p => p.1.typ ≠ 9)
  let s := (s.takeSecs l).updLoader (fun x => { x with
    pkg := none, installed := (x.installed ++ l.map (fun p => (p.1.typ, p.1.inst))).eraseDups })
  let lib := l.any (fun p => p.1.typ = 0x23)
  let s := if lib then s.copyBank else s
  let s := l.foldl (fun s p => s.activateSec p.2) s
  let s := if lib then s.swapBanks else s
  let s := ((s.setRegN rBSTREAM_UPDATE_FRAME frame).setUpd upDONE).showLoaded
  s.post evCONFIG_UPD_DONE srcBSTREAM frame

/-- Four PIX cycles in ticks of 1.25 ns, rounded up: a copy that completed less long ago may fall on either frame. -/
def pix4 : Nat := 6

/-- The lamp latch point of transfer frame `frame`. -/
def State.updLatch (s : State) (frame : Nat) : State :=
  match s.loader.pkg with
  | none => s
  | some img =>
    if s.updState ≠ upARMED then s
    else
      let near := decide (s.time.now < s.loader.armedAt + pix4)
      let (v, s) := if near then s.fresh else (0#32, s)
      if v.getLsbD 0 then s
      else if hasSafetyRt img ∧ s.safeClear = false then s.updRefuse errVeto
      else s.updActivate img frame

/-! ### A host push (R45, R48) -/

/-- A complete bit-stream after a failure in phase 3: checks of phases 0 to 2, every structural section as applied, then
phase 3. -/
def State.pushAgain (s : State) (bs : List Byte) (cs : List Content) : State :=
  let img := readImage bs cs
  let bad : Option (Nat × Nat) :=
    match checkPhase0 s bs with
    | some code => some (code, 0xFF)
    | none =>
      match (checkPhase s.part {} img 1).or (checkPhase s.part (cfgOf {} img.table img.contents) img 2) with
      | some r => some r
      | none => (img.table.zipIdx.find? (fun q => secClass q.1.typ = some true
          && !s.loader.applied.contains (q.1.typ, q.1.inst, q.1.hash))).map (fun q => (errBaseMismatch, q.2))
  match bad with
  | some r => (s.loadError r.1 r.2).setBs bsFAILED
  | none =>
    let s := s.updLoader (fun x => { x with img := img, revokePermit := img.flags / 4 % 2 = 1 })
    (s.showHeader img 2).loadPhase3 img

/-- A complete bit-stream from the start: phases 0 and 1, and the environment is verified, from the PMIC's identity on. -/
def State.pushFirst (s : State) (bs : List Byte) (cs : List Content) : State :=
  match s.loadPhase1 bs cs 2 with
  | (some r, s) => (s.loadError r.1 r.2).setBs (if s.loader.failed then bsFAILED else bsWAIT_HOST)
  | (none, s) =>
    let s := (s.releaseFault .env).setBs bsVERIFY_ENV
    { s with boot := { s.boot with phase := .waitPmic, dramTries := 0 } }

/-- The host has pushed a complete bit-stream. -/
def State.hostPush (s : State) (cs : List Content) : State :=
  if s.bsState ≠ bsLOAD_HOST then s
  else
    let bs := tabRange (fun _ => 0#8) s.loader.push 0 s.loader.pushed
    let s := s.updLoader (fun x => { x with push := [], pushed := 0 })
    if s.loader.failed ∧ 2 ≤ s.loader.phase then s.pushAgain bs cs else s.pushFirst bs cs

def execHostPushLoad (contents : List Content) (s : State) : Res := .next (s.hostPush contents)

/-! ### OTP (R43, R44) -/

/-- OTP_STATUS shows the fuses. -/
def State.otpShow (s : State) : State :=
  let bits := fun (l : List Bool) => (l.zipIdx.map (fun q => q.1.toNat * 2 ^ q.2)).sum
  let s := (s.setF fBSTREAM_OTP_STATUS_ROLLBACK s.otp.rollback).setF fBSTREAM_OTP_STATUS_REVOKED (bits s.otp.revoked)
  (s.setF fBSTREAM_OTP_STATUS_PROGRAMMED (bits (s.otp.keys.map Option.isSome))).setB fBSTREAM_OTP_STATUS_WRAP_DISABLE s.otp.wrapDisable

/-- OTP_REFUSED: 1 temperature, 2 condition, 3 BUSY. -/
def State.otpRefuse (s : State) (cmd why : Nat) : State := s.post evCONFIG_OTP_REFUSED srcBSTREAM (256 * why + cmd)

/-- The estimated junction temperature lies between 0 and 85 °C (DIE_TEMP_MAX, 1/16 °C). -/
def State.otpTempOk (s : State) : Bool :=
  let t := signOf 16 (s.regN rHK_DIE_TEMP_MAX % 65536)
  decide (0 ≤ t) && decide (t ≤ 1360)

/-- An OTP command: refused, its condition tested before the temperature (log 125), or accepted with its effect; the device stays BUSY
until OTP_DONE. -/
def State.otpCmd (s : State) (cmd : Nat) (cond fuse : Bool) (act : State → State) : State :=
  if s.isF fBSTREAM_OTP_STATUS_BUSY then s.otpRefuse cmd 3
  else if cond = false then s.otpRefuse cmd 2
  else if fuse && !s.otpTempOk then (s.setF fBSTREAM_OTP_STATUS_TEMP_BLOCK 1).otpRefuse cmd 1
  else (act ((s.setF fBSTREAM_OTP_STATUS_TEMP_BLOCK 0).setF fBSTREAM_OTP_STATUS_BUSY 1)).otpShow

/-- OTP_DATA as bytes in order. -/
def State.otpData (s : State) : List Byte := wordBytes (s.regWords (rBSTREAM_OTP_DATA 0) 8)

def State.keyProgram (s : State) (slot : Nat) : State :=
  s.otpCmd 1 (nth none s.otp.keys slot).isNone true
    (fun s => { s with otp := { s.otp with keys := s.otp.keys.set slot (some s.otpData) } })

def State.revokeOk (s : State) (slot : Nat) : Bool :=
  s.loader.revokePermit && slot != s.getF fBSTREAM_STATUS_KEY_SLOT
    && (List.range 4).any (fun k => k != slot && (nth none s.otp.keys k).isSome && !nth false s.otp.revoked k)

def State.revokeOp (s : State) (slot : Nat) : State :=
  s.otpCmd 2 (s.revokeOk slot) true (fun s => { s with otp := { s.otp with revoked := s.otp.revoked.set slot true } })

/-- ADVANCE; a SECURITY_VERSION above 64 counts as 64 (DESIGN CHOICE, log 165). -/
def State.advanceOp (s : State) : State :=
  s.otpCmd 3 (s.bsState = bsRUNNING) true
    (fun s => { s with otp := { s.otp with rollback := max s.otp.rollback (min 64 (s.regN rBSTREAM_SEC_VERSION)) } })

/-- WRAP: nonce, wrapped key and tag; OTP_DATA reads 0 after it. -/
def State.wrapOp (s : State) : State :=
  s.otpCmd 4 (s.bsState = bsWAIT_HOST && !s.otp.wrapDisable) false (fun s =>
    let nonce := beBytes 12 (Config.wrapNonce s.otp.wraps).toNat
    let out := nonce ++ gcmSeal (beBytes 32 Config.deviceKey.toNat) nonce [] s.otpData
    let s := (s.setRegWords (rBSTREAM_WRAP_OUT 0) (leWords out)).setRegWords (rBSTREAM_OTP_DATA 0) (List.replicate 8 0)
    { s with otp := { s.otp with wraps := s.otp.wraps + 1 } })

def State.wrapLockOp (s : State) : State := s.otpCmd 5 true true (fun s => { s with otp := { s.otp with wrapDisable := true } })

/-- A write of OTP_CMD; other values have no command. -/
def State.otpWrite (s : State) (v : Nat) : State :=
  let slot := bitsOf v 8 2
  match bitsOf v 0 8 with
  | 1 => s.keyProgram slot
  | 2 => s.revokeOp slot
  | 3 => s.advanceOp
  | 4 => s.wrapOp
  | 5 => s.wrapLockOp
  | _ => s

def execKeyProgram (slot : Fin 4) (s : State) : Res := .next (s.inCore (·.keyProgram slot))
def execRevoke (slot : Fin 4) (s : State) : Res := .next (s.inCore (·.revokeOp slot))
def execAdvance (s : State) : Res := .next (s.inCore State.advanceOp)
def execWrap (s : State) : Res := .next (s.inCore State.wrapOp)
def execWrapLock (s : State) : Res := .next (s.inCore State.wrapLockOp)
def execOtpDone (s : State) : Res := .next (s.setF fBSTREAM_OTP_STATUS_BUSY 0)

end Sys2Proof.Machine
end

