-- ==== Sys2Proof/Machine/Latch.lean ====
section
/-! DEFINITION. The lamp latch point (R151, R195, R197, R207): flips, the staged timing set and an armed update are decided, and every
generator that sends a transfer frame begins it. With it the rows of the pipelines (R146) and the capture writers' packets
(R328, R138 to R140). -/

namespace Sys2Proof.Machine

/-- Defaults of stale hold-last-value inputs are in force, or lifted, from a boundary (R13). -/
def State.hlvLatch (s : State) : State :=
  { s with hlv := { s.hlv with applied := (List.range 3).map (fun k => (s.regN rHK_HLV_STATUS).testBit k) } }

/-- The timing set of light frame `frame`. -/
def State.timingFor (s : State) (frame : Nat) : TimingSet :=
  match s.lampTiming.staged with
  | some x => if x.frame = some frame then x.set s.timing.lead else s.timing
  | none => s.timing

/-- Has the fence a slot waits for advanced since the last latch point (R197)? -/
def State.slotReady (s : State) (k : Nat) : Bool :=
  !s.isF (fTG_SLOT_CFG_WAIT 0 k) ||
    (let j := s.getF (fTG_SLOT_CFG_FENCE 0 k)
     s.lampTiming.latched && decide (0 < (tabGet (fun _ => 0#32) s.comp.arb j - nth 0#32 s.lampTiming.fences j).toInt))

/-- What becomes of an enabled slot in a transfer frame: nothing (gated and not armed), skipped with a reason, or sent (0). -/
def State.slotFate (s : State) (n k : Nat) (half : Bool) : Option Nat :=
  if (s.regN rTIME_SLOT_GATE).testBit k && !s.lampTiming.armed.contains k then none
  else if s.inFallback n then some 4
  else if half then some 5
  else if s.slotReady k then some 0 else some 1

/-- What becomes of the enabled slots of light frame `frame`; those not sent are reported (R199). -/
def State.slotFates (s : State) (n frame : Nat) (half : Bool) : List (Nat × Nat) × State :=
  let fates := (s.timingFor frame).on.filterMap (fun q => (s.slotFate n q.1 half).map (fun f => (q.1, f)))
  (fates, [1, 4, 5].foldl (fun s r => s.slotSkip n ((fates.filter (fun q => q.2 = r)).map Prod.fst) r) s)

/-- Tile n begins to send transfer frame `frame`. -/
def State.beginTransfer (s : State) (n frame : Nat) (half : Bool) : State :=
  let (fates, s) := s.slotFates n frame half
  let s := (s.pressLatch n frame).takeSnap n
  let (sel, s) := s.sendToggles n frame
  let s := s.snapBegin n frame
  let layers := (List.range 8).map (fun l => (s.getF (fMSG_LAYER_STATUS_AGE l), s.getF (fMSG_LAYER_STATUS_STATE l),
    s.isF (fMSG_LAYER_STATUS_NEVER_FLIPPED l), s.onFallback l && (s.fbDesc l).isSome))
  let pre := s.tgState n == tgPRE
  let latch := s.latchOf (s.tgOf n).e (pre && half)
  s.updTg n (fun g => { g with flip := false, xfer := some { frame := frame, latch := latch, half := half, sel := sel, flip := g.flip, layers := layers,
                                                             maps := (fates.filter (fun q => q.2 = 0)).map Prod.fst } })

/-- Is transfer frame `frame` one that generator n in PRE may begin with? -/
def State.preReady (s : State) (n frame : Nat) : Bool :=
  (s.tgOf n).xfer.isNone && decide (0 ≤ signOf 32 ((frame + 2 ^ 32 - (s.tgOf n).first) % 2 ^ 32))

/-- A generator in PRE begins with transfer frame `frame`. -/
def State.preBegin (s : State) (n frame : Nat) (half : Bool) : State :=
  if s.preReady n frame then ((s.preShow n).preFirst n frame).beginTransfer n frame half else s

/-- A generator in PRE at the lamp latch point of `frame`; on one lane it begins with an even frame, a period early, and takes a lane that is
ready back at an even one (R207, R210). -/
def State.latchPre (s : State) (n frame : Nat) : State :=
  if s.isF (fZTL_STATUS_ONE_LANE n) = false then s.preBegin n frame false
  else if frame % 2 = 1 then (if (s.readyLane n).isSome then s else s.preBegin n ((frame + 1) % 2 ^ 32) true)
  else
    let s := if (s.tgOf n).xfer.isSome then s else s.rejoin n
    if s.isF (fZTL_STATUS_ONE_LANE n) then s else s.preBegin n frame false

/-- A generator at half rate at the lamp latch point of an odd frame, which it does not send: its slots are skipped, and the even frame that
follows begins unless a lane is ready. -/
def State.latchOdd (s : State) (n frame : Nat) : State :=
  let s := (s.slotFates n frame true).2
  if (s.readyLane n).isSome then s else s.beginTransfer n ((frame + 1) % 2 ^ 32) true

/-- A generator at half rate at the lamp latch point of an even frame: back to full rate with it once a lane is ready. -/
def State.latchEven (s : State) (n frame : Nat) : State :=
  if (match (s.tgOf n).xfer with | some x => x.frame == frame | none => false) then s
  else
    let s := s.rejoin n
    if s.tgState n = tgRUNNING then s.beginTransfer n frame false else (s.slotFates n frame true).2

/-- The generator of tile n at the lamp latch point of transfer frame `frame` (R195, R207). -/
def State.latchTg (s : State) (n frame : Nat) : State :=
  let st := s.tgState n
  if st = tgOFF ∨ (s.tgOf n).stop then s
  else if st = tgPRE then s.latchPre n frame
  else if st = tgRUNNING then s.beginTransfer n frame false
  else if frame % 2 = 1 then s.latchOdd n frame
  else s.latchEven n frame

/-- The lamp latch point, for the transfer frame after the one last latched. -/
def State.latchPoint (s : State) : State :=
  if s.tgsOn.isEmpty then s
  else
    let frame := (s.lampTiming.frame + 1) % 2 ^ 32
    let at_ := match s.gridTg with | some n => s.frameLatch n frame | none => 0
    let (taken, s) := s.hlvLatch.latchFlips frame
    let s := ((s.stagedLatch frame (taken.map Prod.fst)).updLatch frame).latchAges (taken.flatMap Prod.snd)
    let s := if taken.isEmpty then s else s.tgsOn.foldl (fun s n => s.updTg n (fun g => { g with flip := true })) s
    let s := (List.range 4).foldl (fun s n => s.latchTg n frame) s
    let arb := (List.range 16).map (fun k => tabGet (fun _ => 0#32) s.comp.arb k)
    { s with lampTiming := { s.lampTiming with frame := frame, latched := true, latchAt := at_, fences := arb, armed := [] } }

def execLatchPoint (s : State) : Res := .next s.latchPoint

/-! ### Rows (R146) -/

/-- The video layers that pipeline n scales into row y, with the local columns they cover. -/
def State.scaledCols (s : State) (n y : Nat) : List (Nat × Nat) :=
  let r := s.getF (fCP_WINDOW_ROW n) + y
  let cx := s.getF (fCP_WINDOW_COL n)
  (s.shownLayers n).filterMap (fun p =>
    if p.1 < 4 then match s.coverage n p.1 p.2 with
      | some ((c0, c1), (r0, r1)) => if r0 ≤ r ∧ r ≤ r1 then some (c0 - cx, c1 - cx) else none
      | none => none
    else none)

/-- An armed injection into the line buffers (R387, region 5): an entry that is lost reads 0 for the row; which one it is, and so
what the row's scaled columns hold, is open. -/
def State.lineInject (s : State) (n y : Nat) (row : List Nat) : List Nat × State :=
  let cols := s.scaledCols n y
  if s.injectArmed 5 ∧ cols ≠ [] then
    let (u, s) := s.injectFound 5
    if u then
      (row.zipIdx.map (fun q => if cols.any (fun (c : Nat × Nat) => decide (c.1 ≤ q.2 ∧ q.2 ≤ c.2)) then
        (Config.freeWord (s.draws + q.2)).toNat % 65536 else q.1), { s with draws := s.draws + 512 })
    else (row, s)
  else (row, s)

/-- Pipeline n composes its next row and passes it to Press. -/
def State.rowCompose (s : State) (n : Nat) : State :=
  let y := tabGet (fun _ => 0) s.comp.row n
  match (s.tgOf n).xfer with
  | none => s
  | some x =>
    if x.ended ∨ 512 ≤ y ∨ (s.pr n).room = false then s
    else
      let s := (s.shownLayers n).foldl (fun s p => s.fetchLayer n y p) s
      let (row, s) := s.lineInject n y (s.beamRow n y)
      let s := s.updPr n (fun p => { p with beam := p.beam ++ [row] })
      let s := { s with comp := { s.comp with row := tabSet (fun _ => 0) s.comp.row n (y + 1) } }
      s.pressFill n 4

def execRowCompose (n : Fin 4) (s : State) : Res := .next (s.rowCompose n)

/-- FLIP_COMMIT_g. -/
def execFlipCommit (g : Fin 4) (mask : Word) (s : State) : Res :=
  .next (s.viaReg (rMSG_FLIP_COMMIT g) (fun s => s.flipCommit g mask.toNat))

/-- LAYER_RAW_ADDR_LO_l. -/
def execRawAddrWrite (l : Fin 8) (lo : Word) (s : State) : Res :=
  .next (s.viaReg (rMSG_LAYER_RAW_ADDR_LO l) (fun s => s.rawAddr l lo))

/-! ### CSI-2 packets (R328) -/

def State.csiOn (s : State) (rx : Nat) : Bool := s.isF (fHOSTIF_CSI_CFG_EN rx)

/-- A packet error: counted, and reported at most once per second per receiver with the errors of the last second. -/
def State.csiError (s : State) (rx : Nat) : State :=
  let s := s.bumpF (fHOSTIF_CSI_ERR_ERR rx) 1
  let l := (nth [] s.host.csiErrs rx).filter (fun t => decide (s.time.now < t + ticksMs 1000)) ++ [s.time.now]
  (s.updHost (fun h => { h with csiErrs := h.csiErrs.set rx l })).hostEv evHOST_CSI_ERROR rx srcHOSTIF (2 ^ 31 * rx + satAt 0xFFFF l.length)

/-- A header that is right (0), corrected (1) or uncorrectable (2): corrected ones are counted. -/
def State.csiHead (s : State) (rx hdr : Nat) : State := if hdr = 1 then s.bump (rHOSTIF_CSI_ECC_CORR rx) else s

/-- A header with two bad bits is a packet error for the writers concerned. -/
def State.csiBad (s : State) (rx : Nat) (l : List Nat) : State :=
  l.foldl (fun s w => s.setCapw w { s.capw w with err := true }) (s.csiError rx)

/-- Data types that capture writers take. -/
def csiTypes : List Nat := [0x2A, 0x2C, 0x2E, 0x30, 0x31, 0x32, 0x33]

/-- A long packet: its header, and its payload's CRC. -/
def State.csiLong (s : State) (rx vc dt hdr : Nat) (bs : List Byte) (crcOk : Bool) : State :=
  if s.csiOn rx = false then s
  else
    let w := if csiTypes.contains dt then s.capOf rx vc dt else none
    let s := s.csiHead rx hdr
    if hdr = 2 then s.csiBad rx w.toList
    else match w with
      | none => s.bumpF (fHOSTIF_CSI_ERR_DISC rx) 1
      | some w =>
        let s := if crcOk then s else s.csiError rx
        s.capPacket w bs (!crcOk)

def execCsiLongPacket (rx : Fin 2) (vc : Fin 4) (dt : BitVec 6) (hdr : Fin 3) (payload : List Byte) (crcOk : Bool) (s : State) : Res :=
  .next (s.csiLong rx vc dt.toNat hdr payload crcOk)

/-- The enabled writers of a receiver's virtual channel. -/
def State.capsOn (s : State) (rx vc : Nat) : List Nat :=
  (List.range 8).filter (fun w => s.isF (fHOSTIF_CAPW_CFG_EN w) && s.getF (fHOSTIF_CAPW_CFG_RX w) == rx
    && s.getF (fHOSTIF_CAPW_CFG_VC w) == vc)

/-- A short packet, for the writers of its virtual channel: not acted on where its header is uncorrectable. -/
def State.csiShort (s : State) (rx vc hdr : Nat) (act : Nat → State → State) : State :=
  if s.csiOn rx = false then s
  else
    let s := s.csiHead rx hdr
    if hdr = 2 then s.csiBad rx (s.capsOn rx vc) else (s.capsOn rx vc).foldl (fun s w => act w s) s

def execCsiFrameStart (rx : Fin 2) (vc : Fin 4) (hdr : Fin 3) (s : State) : Res :=
  .next (s.csiShort rx vc hdr (fun w s => s.capStart w))

/-- A writer's frame end; without a frame start it is a packet error. -/
def State.csiEnd (s : State) (rx w : Nat) : State :=
  let s := if (s.capw w).started then s else s.csiError rx
  s.capEnd w

def execCsiFrameEnd (rx : Fin 2) (vc : Fin 4) (hdr : Fin 3) (s : State) : Res :=
  .next (s.csiShort rx vc hdr (fun w s => s.csiEnd rx w))

end Sys2Proof.Machine
end

