-- ==== Sys2Proof/Machine/Project.lean ====
section
/-! DEFINITION. The geometry of the supplied programs (R112, R117): the projection table and its inverse, the pixels that a polygon
touches, and the sample of a symbol at a lamp pixel. The arithmetic is exact but for sine and cosine (log 146). -/

namespace Sys2Proof.Machine

/-! ### The projection table -/

/-- Node (i, j) of the table, in degrees. -/
def nodeAngle (c : ProjectionC) (i j : Nat) : Rat × Rat :=
  let q := c.nodes.getD (j * c.cols + i) (0, 0)
  ((q.1 : Rat) / 65536, (q.2 : Rat) / 65536)

/-- The angles at `u`, `v` of a lamp block, each between 0 and 1: the block is two triangles, on each of which the table is linear. -/
def blockAngle (c : ProjectionC) (i j : Nat) (u v : Rat) : Rat × Rat :=
  let (p, q) := (nodeAngle c (i + 1) j, nodeAngle c i (j + 1))
  let (o, u, v) := if u + v ≤ 1 then (nodeAngle c i j, u, v) else (nodeAngle c (i + 1) (j + 1), 1 - v, 1 - u)
  (o.1 + (p.1 - o.1) * u + (q.1 - o.1) * v, o.2 + (p.2 - o.2) * u + (q.2 - o.2) * v)

/-- The angles of a lamp point. -/
def lampAngle (c : ProjectionC) (x y : Rat) : Rat × Rat :=
  let i := min (x / 32).floor.toNat (c.cols - 2)
  let j := min (y / 32).floor.toNat (c.rows - 2)
  blockAngle c i j (x / 32 - i) (y / 32 - j)

/-- Coordinates of `p` in the triangle at `o` with the corners `a` and `b`, if it has an area. -/
def triCoords (o a b p : Rat × Rat) : Option (Rat × Rat) :=
  let (a, b, p) := ((a.1 - o.1, a.2 - o.2), (b.1 - o.1, b.2 - o.2), (p.1 - o.1, p.2 - o.2))
  let det := a.1 * b.2 - a.2 * b.1
  if det = 0 then none else some ((p.1 * b.2 - p.2 * b.1) / det, (a.1 * p.2 - a.2 * p.1) / det)

/-- The lamp point of an angle, if it lies in block (i, j); the blocks at the edge of the lamp reach outward without end. -/
def blockPoint (c : ProjectionC) (i j : Nat) (p : Rat × Rat) : Option (Rat × Rat) :=
  let (a, b) := (nodeAngle c (i + 1) j, nodeAngle c i (j + 1))
  let at_ := fun (u v : Rat) => (32 * (i + u), 32 * (j + v))
  let first := match triCoords (nodeAngle c i j) a b p with
    | some (u, v) => if (0 ≤ u ∨ i = 0) ∧ (0 ≤ v ∨ j = 0) ∧ u + v ≤ 1 then some (at_ u v) else none
    | none => none
  match first with
  | some q => some q
  | none => match triCoords (nodeAngle c (i + 1) (j + 1)) a b p with
    | some (u, v) =>
      if (0 ≤ u ∨ j + 2 = c.rows) ∧ (0 ≤ v ∨ i + 2 = c.cols) ∧ u + v ≤ 1 then some (at_ (1 - v) (1 - u)) else none
    | none => none

/-- The inverse of the projection table: the lamp point of an angle. -/
def anglePoint (c : ProjectionC) (p : Rat × Rat) : Option (Rat × Rat) :=
  ((List.range (c.rows - 1)).flatMap (fun j => (List.range (c.cols - 1)).map (fun i => (i, j)))).findSome?
    (fun q => blockPoint c q.1 q.2 p)

/-! ### Polygons (R112) -/

/-- Points from `a` towards `b`, without `b`, at most 2° apart. -/
def edgePieces (a b : Rat × Rat) : List (Rat × Rat) :=
  let far := max (max (b.1 - a.1) (a.1 - b.1)) (max (b.2 - a.2) (a.2 - b.2))
  let k := max 1 (far / 2).ceil.toNat
  (List.range k).map (fun m => (a.1 + (b.1 - a.1) * m / k, a.2 + (b.2 - a.2) * m / k))

/-- The lamp polygon of a box of angles: left, right, bottom, top. -/
def boxPolygon (c : ProjectionC) (b : Rat × Rat × Rat × Rat) : List (Rat × Rat) :=
  let (l, r, lo, hi) := b
  (edgePieces (l, hi) (r, hi) ++ edgePieces (r, hi) (r, lo) ++ edgePieces (r, lo) (l, lo) ++ edgePieces (l, lo) (l, hi)).filterMap
    (anglePoint c)

/-- The sides of a polygon. -/
def sidesOf (l : List (Rat × Rat)) : List ((Rat × Rat) × (Rat × Rat)) := l.zip (l.drop 1 ++ l.take 1)

/-- Does a segment meet the square of pixel (x, y)? -/
def segTouches (x y : Rat) (s : (Rat × Rat) × (Rat × Rat)) : Bool :=
  let (a, b) := s
  let side := fun (px py : Rat) => (b.1 - a.1) * (py - a.2) - (b.2 - a.2) * (px - a.1)
  let k := [side x y, side (x + 1) y, side x (y + 1), side (x + 1) (y + 1)]
  decide (min a.1 b.1 ≤ x + 1) && decide (x ≤ max a.1 b.1) && decide (min a.2 b.2 ≤ y + 1) && decide (y ≤ max a.2 b.2)
    && k.any (fun t => decide (0 ≤ t)) && k.any (fun t => decide (t ≤ 0))

/-- Does the polygon hold the point: an odd number of its sides lies to the right of it? -/
def polyHolds (l : List (Rat × Rat)) (x y : Rat) : Bool :=
  ((sidesOf l).filter (fun s =>
    let (a, b) := s
    decide (a.2 ≤ y) != decide (b.2 ≤ y) && decide (x < a.1 + (b.1 - a.1) * (y - a.2) / (b.2 - a.2)))).length % 2 == 1

/-- Does any part of the polygon touch pixel (x, y)? -/
def polyTouches (l : List (Rat × Rat)) (x y : Nat) : Bool :=
  (sidesOf l).any (segTouches x y) || polyHolds l x y

/-! ### Symbols (R117) -/

/-- Degrees in radians. -/
def radOf (d : Rat) : Rat := d * 314159265358979 / 18000000000000000

/-- The series of sine and cosine to the 17th power. -/
def sinR (x : Rat) : Rat :=
  ((List.range 9).foldl (fun (a : Rat × Rat) k => (a.1 + a.2, -a.2 * x * x / ((2 * k + 2) * (2 * k + 3)))) (0, x)).1
def cosR (x : Rat) : Rat :=
  ((List.range 9).foldl (fun (a : Rat × Rat) k => (a.1 + a.2, -a.2 * x * x / ((2 * k + 1) * (2 * k + 2)))) (0, 1)).1

/-- Where a direction meets a flat road `height` m below the lamp, in m forward and to the right: the lamp's frame is turned by the
pitch (nose up) and the roll (right side down), in degrees. None above the horizon. -/
def roadPoint (height pitch roll : Rat) (p : Rat × Rat) : Option (Rat × Rat) :=
  let (az, el, th, ro) := (radOf p.1, radOf p.2, radOf pitch, radOf roll)
  let (f, r, u) := (cosR el * cosR az, cosR el * sinR az, sinR el)
  let (f, u) := (f * cosR th - u * sinR th, f * sinR th + u * cosR th)
  let (r, u) := (r * cosR ro + u * sinR ro, u * cosR ro - r * sinR ro)
  if u < 0 then some (f * height / -u, r * height / -u) else none

/-- Offsets forward (or up) and to the right, seen in a frame turned clockwise by `deg`. -/
def turned (deg : Rat) (f r : Rat) : Rat × Rat :=
  let (s, c) := (sinR (radOf deg), cosR (radOf deg))
  (f * c + r * s, r * c - f * s)

/-- The sample of a MASK8 image at a point in 1/16 texels, by the arithmetic of SAMP (R88), outside reading 0. -/
def sampImage (m : SymImage) (x y : Nat) : Nat :=
  let t := fun (i j : Nat) => if i < m.width ∧ j < m.height then 257 * m.pix.getD (j * m.width + i) 0 else 0
  let (ix, iy, fx, fy) := (x / 16, y / 16, x % 16, y % 16)
  (t ix iy * (16 - fx) * (16 - fy) + t (ix + 1) iy * fx * (16 - fy) + t ix (iy + 1) * (16 - fx) * fy
    + t (ix + 1) (iy + 1) * fx * fy + 128) / 256

/-- A symbol as it stands: its image, whether it is anchored to the ground, its place, heading, scale and level. -/
structure SymPlace where
  image : SymImage
  ground : Bool
  a : Int
  b : Int
  heading : Int
  scale : Nat
  level : Nat

/-- The texel that lies at a lamp pixel, in 1/16 texels: on the road, seen from the lamp at its pitch and roll, or at its angle, where
a magnification of 1 shows one texel per nominal pixel (log 146). -/
def SymPlace.texelAt (q : SymPlace) (c : ProjectionC) (pitch roll : Rat) (x y : Nat) : Option (Nat × Nat) :=
  let p := lampAngle c ((x : Rat) + 1 / 2) ((y : Rat) + 1 / 2)
  let at_ := if q.ground then
      (roadPoint ((c.heightMm : Rat) / 1000) pitch roll p).map (fun g => (g.1 - (q.a : Rat) / 1000, g.2 - (q.b : Rat) / 1000))
    else some (p.2 - (q.b : Rat) / 65536, p.1 - (q.a : Rat) / 65536)
  let step : Rat := if q.ground then (q.scale : Rat) / 256 / max 1 q.image.height else (q.scale : Rat) / 256 * 40 / 2048
  match at_ with
  | none => none
  | some (f, r) =>
    if step = 0 then none
    else
      let (f, r) := turned ((q.heading : Rat) / 100) f r
      let u := (16 * ((q.image.width : Rat) / 2 + r / step)).floor
      let v := (16 * ((q.image.height : Rat) / 2 - f / step)).floor
      if 0 ≤ u ∧ u < 16 * (q.image.width : Nat) ∧ 0 ≤ v ∧ v < 16 * (q.image.height : Nat) then some (u.toNat, v.toNat) else none

end Sys2Proof.Machine
end

