-- ==== Sys2Proof/Machine/Programs.lean ====
section
/-! DEFINITION. The supplied beam programs (R108 to R126): what one job of each does to the device. The effect of a job stands at
the end of the job; the images of the supplied programs carry their addresses and limits as `params` (log 30). -/

namespace Sys2Proof.Machine

/-! ### Shares and engines (R108) -/

def State.prog (s : State) (e : Nat) : ProgMem := tabGet (fun _ => {}) s.progs e

def State.updProg (s : State) (e : Nat) (f : ProgMem → ProgMem) : State :=
  { s with progs := tabSet (fun _ => {}) s.progs e (f (s.prog e)) }

/-- The place of engine e among the engines of its program; the spare stands where the engine it replaced stood. -/
def State.enginePlace (s : State) (p : BeprogC) (e : Nat) : Nat :=
  p.engines.idxOf (if p.engines.contains e then e else s.getF fBE_SPARE_REPLACED)

/-- The engines that run a program now: its own and the spare, unless OFF or FAULTED. -/
def State.progEngines (s : State) (p : BeprogC) : List Nat :=
  let own := p.engines ++ (if s.isF fBE_SPARE_IN_USE && p.engines.contains (s.getF fBE_SPARE_REPLACED)
    then [s.getF fBE_SPARE_ENGINE] else [])
  own.filter (fun n => s.beState n ≠ beOFF && s.beState n ≠ beFAULTED)

/-- The lowest-numbered running engine: it speaks for the program. -/
def State.progLead (s : State) (p : BeprogC) (e : Nat) : Bool := (s.progEngines p).all (fun n => decide (e ≤ n))

/-- Rows (tile, row) that engine e renders: the lamp's rows, tile after tile, divided equally among the engines. -/
def State.shareRows (s : State) (p : BeprogC) (e : Nat) : List (Nat × Nat) :=
  let m := p.engines.length
  let j := s.enginePlace p e
  let t := s.tiles
  ((List.range (512 * t)).filter (fun q => decide (512 * (j * t) / m ≤ q) && decide (q < 512 * ((j + 1) * t) / m))).map
    (fun q => (q / 512, q % 512))

/-! ### Events of a supplied program -/

def sField (b : List Byte) (off n : Nat) : Int := signOf (8 * n) (fileN b off n)

/-- An event of the program, posted by the engine that speaks for it. -/
def State.progEv (s : State) (lead : Bool) (k : EvKind) (e data : Nat) : State := if lead then s.post k e data else s

/-- The same with a data word the spec does not state. -/
def State.progEvFree (s : State) (lead : Bool) (k : EvKind) (e : Nat) : State :=
  let (v, s) := s.fresh
  s.progEv lead k e v.toNat

/-- The table "Program events" (R125). -/
def progEvents : List EvKind := [evBE_MASK_LATE, evBE_OBJ_STALE, evBE_OBJ_FRESH, evBE_POSE_STALE, evBE_OBJ_LIST_BAD, evBE_OBJ_FIXED,
  evBE_INPUT_OLD, evBE_MASK_PARAM_BAD, evBE_SYMBOL_BAD, evBE_SYMBOL_EXPIRED, evBE_SYMBOL_BUDGET, evBE_PATTERN_CLAMPED,
  evBE_PATTERN_BAD, evBE_AGING_PAUSED, evBE_HEALTH_CANDIDATES, evBE_POWER_SUM_LATE]

/-- A refused record for which the table names no event posts one of them: which one, and its data word, are free (R109, log 147). -/
def State.progRefuse (s : State) (lead : Bool) (e : Nat) : State :=
  let (v, s) := s.fresh
  s.progEvFree lead (progEvents.getD (v.toNat % 16) evBE_MASK_LATE) e

/-! ### Glare mask (R110 to R115) -/

/-- INPUT_OLD: at most once per second, with the records discarded since. -/
def State.inputOld (s : State) (lead : Bool) (e : Nat) : State :=
  let n := (s.prog e).old
  let key := limKey evBE_INPUT_OLD e
  let l := s.lastPost key
  if lead ∧ 0 < n ∧ (l = 0 ∨ ticksMs 1000 ≤ s.time.now + 1 - l) then
    ((s.notePost key (s.time.now + 1)).updProg e (fun m => { m with old := 0 })).post evBE_INPUT_OLD e n
  else s

/-- Is `b` at least as late as the payload held? -/
def newer (held : Option (List Byte)) (b : List Byte) : Bool :=
  match held with
  | some h => fileN h 0 8 ≤ fileN b 0 8
  | none => true

/-- A POSE payload (R109, R111): a malformed one is refused, an older one discarded. -/
def State.takePose (s : State) (lead : Bool) (e : Nat) (b : List Byte) : State :=
  if poseBad b then s.progRefuse lead e
  else if newer (s.prog e).pose b then s.updProg e (fun m => { m with pose := some b })
  else s.updProg e (fun m => { m with old := m.old + 1 })

/-- Objects whose edges are in the wrong order (R112). -/
def objSwapped (o : List Byte) : Bool := decide (sField o 8 4 < sField o 4 4) || decide (sField o 0x10 4 < sField o 0x0C 4)

/-- An OBJECT_LIST payload. -/
def State.takeList (s : State) (lead : Bool) (e : Nat) (b : List Byte) : State :=
  let id := fileN b 0x0C 4
  if listBad b then s.progEv lead evBE_OBJ_LIST_BAD e id
  else if newer (s.prog e).list b then
    let s := s.updProg e (fun m => { m with list := some b })
    ((List.range (fileN b 8 2)).map (objAt b)).foldl (fun s o =>
      if objSwapped o then s.progEv lead evBE_OBJ_FIXED e (65536 * (id % 65536) + fileN o 0 2) else s) s
  else s.updProg e (fun m => { m with old := m.old + 1 })

/-- The fields of MASK_PARAM: offset, value, bounds. -/
def parFields (b : List Byte) : List (Nat × Nat × Nat × Nat) := [
  (0x00, fileN b 0 2, 50, 2000), (0x02, fileN b 2 2, 500, 20000), (0x04, fileN b 4 2, 20, 500), (0x06, fileN b 6 2, 10, 200),
  (0x08, fileN b 8 2, 10, 90), (0x0A, fileN b 0x0A 2, fileN b 0 2, 10000), (0x0C, fileN b 0x0C 4, 100, 12000),
  (0x10, fileN b 0x10 8, 0, 0)]

/-- A MASK_PARAM payload: the job that drains it still uses the old values, and the next one these (R110). -/
def State.takePar (s : State) (lead : Bool) (e : Nat) (b : List Byte) : State :=
  if b.length ≠ 24 then s.progEvFree lead evBE_MASK_PARAM_BAD e
  else match (parFields b).find? (fun f => decide (f.2.1 < f.2.2.1) || decide (f.2.2.2 < f.2.1)) with
    | some f => s.progEv lead evBE_MASK_PARAM_BAD e f.1
    | none => s.updProg e (fun m => { m with par := some (((parFields b).take 7).map (fun f => f.2.1)) })

/-- The values in force: M_BASE, M_AGE, OBJ_AGE_MAX, POSE_AGE_MAX, YAW_WORST, M_MAX, LEAD_US; LEAD_US by default from the image. -/
def maskPar (p : BeprogC) (m : ProgMem) : List Nat := m.par.getD [100, 2000, 150, 50, 30, 3000, p.params.getD 0 0]

/-- Is the pose held older at t_m than the limit in ms, or absent? -/
def poseAged (m : ProgMem) (tm limitMs : Nat) : Bool :=
  match m.pose with
  | some b => decide ((1000000 * limitMs : Nat) < (tm : Int) - (fileN b 0 8 : Nat))
  | none => true

/-- The margined box of an object in degrees, left, right, bottom, top, and its transmittance in 8 bits (R112). Rates that
are not valid count as 0. -/
def maskBox (par : List Nat) (m : ProgMem) (stale : Bool) (tm tObj : Nat) (o : List Byte) : (Rat × Rat × Rat × Rat) × Nat :=
  let dt : Rat := ((tm : Int) - (tObj : Nat) : Int) / 1000000000
  let deg := fun (off : Nat) => (sField o off 4 : Rat) / 65536
  let own := fun (off : Nat) => if fileN o 3 1 % 2 = 1 then (sField o off 2 : Rat) / 256 else 0
  let rate := fun (off : Nat) => match m.pose with
    | some b => if fileN b 0x1A 2 % 2 = 1 then (sField b off 4 : Rat) / 65536 else 0
    | none => 0
  let az := (own 0x14 - rate 8) * dt
  let el := (own 0x16 - rate 0x0C) * dt
  let mmax : Rat := (par.getD 5 0 : Rat) / 1000
  let g := min ((par.getD 0 0 + par.getD 1 0 * dt + fileN o 0x1A 2) / 1000) mmax
  let g := if stale then min (g + par.getD 4 0 * dt) mmax else g
  ((min (deg 4) (deg 8) + az - g, max (deg 4) (deg 8) + az + g, min (deg 0x0C) (deg 0x10) + el - g,
    max (deg 0x0C) (deg 0x10) + el + g), fileN o 0x18 2 / 256)

/-- The mask of a pixel: the smallest transmittance of the polygons that touch it. -/
def maskValue (polys : List (List (Rat × Rat) × Nat)) (x y : Nat) : Nat :=
  ((polys.filter (fun b => polyTouches b.1 x y)).map Prod.snd).foldl min 0xFF

/-- The blind mask of LIBRARY at a pixel: the fallback surface of L7; without one its value is not stated (free). -/
def State.blindValue (s : State) (x y : Nat) : Nat :=
  match s.fbDesc 7 with
  | none => (Config.freeWord (s.draws + 2048 * y + x)).toNat % 256
  | some d =>
    let f := surfOf d
    let (c, r) := ((x : Int) - f.dstX, (y : Int) - f.dstY)
    if 0 ≤ c ∧ c < (f.width : Nat) ∧ 0 ≤ r ∧ r < (f.height : Nat) then (s.surfPix f c.toNat r.toNat).v / 256 else 0xFF

/-- Buffer k mod 3 of a rendered surface: base, step and stride are params 1 to 3. -/
def bufAddr (p : BeprogC) (k : Nat) : Nat := p.params.getD 1 0 + k % 3 * p.params.getD 2 0
def bufStride (p : BeprogC) : Nat := p.params.getD 3 0

/-- Rows of a share written to a surface of `bpp` bytes per pixel. -/
def State.putShare (s : State) (rows : List (Nat × Nat)) (addr stride bpp : Nat) (pix : Nat → Nat → Nat) : State :=
  rows.foldl (fun s q =>
    let (ox, oy) := tileOrigin s.loader.cfg.st.arr q.1
    let y := oy + q.2
    s.putDram (addr + y * (64 * stride) + bpp * ox) ((List.range 512).flatMap (fun x => leBytes bpp (pix (ox + x) y)))) s

/-- The flip of a rendered surface, through the flip-queue commit registers: layer l of group g waits for the fence. -/
def State.progFlip (s : State) (p : BeprogC) (g l fmt blend fence k : Nat) : State :=
  let (w, h) := lampSize s.loader.cfg.st.arr
  let a := bufAddr p k
  let d := [BitVec.ofNat 32 (a % 2 ^ 32), BitVec.ofNat 32 (a / 2 ^ 32 % 256 + 256 * fmt + 65536 * bufStride p),
    BitVec.ofNat 32 (w + 65536 * h), 0#32, 0#32, 0#32, 0#32, BitVec.ofNat 32 (blend + 0xFF00)]
  let t := ((p.engines.map (fun n => (s.prog n).target.toNat)).foldl max 0 + p.engines.length) % 2 ^ 32
  let s := p.engines.foldl (fun s n => s.updProg n (fun m => { m with target := BitVec.ofNat 32 t })) s
  let s := (s.setRegWords (rMSG_FLIP_STAGE l 0) d).setRegN (rMSG_FLIP_TARGET g) t
  let s := (s.setF (fMSG_FLIP_FENCE_FENCE g) fence).setF (fMSG_FLIP_FENCE_WAIT g) 1
  let s := s.setReg (rMSG_FLIP_ORDER g) (BitVec.ofNat 32
    (((s.groupLayers g).zipIdx.map (fun q => (8 + q.1) * 16 ^ q.2)).sum))
  s.flipCommit g (2 ^ l)

/-- One record to the mask program. -/
def State.maskTake (s : State) (lead : Bool) (e : Nat) (r : SlotRec) : State :=
  if r.opcode = 0x10 then s.takePose lead e r.payload
  else if r.opcode = 0x11 then s.takeList lead e r.payload
  else if r.opcode = 0x80 then s.takePar lead e r.payload
  else s

/-- A job of the mask program; its trigger is the cut-off C. -/
def State.maskJob (s : State) (p : BeprogC) (e : Nat) (recs : List SlotRec) : State :=
  let lead := s.progLead p e
  let par := maskPar p (s.prog e)
  let s := (recs.foldl (fun s r => s.maskTake lead e r) s).inputOld lead e
  let g := s.eng e
  let k := (g.jobFrame + 1) % 2 ^ 32
  let tm := g.trigLt + 1000 * par.getD 6 0
  let m := s.prog e
  let blind := match m.list with
    | some b => decide ((1000000 * par.getD 2 0 : Nat) < (tm : Int) - (fileN b 0 8 : Nat))
    | none => true
  let s := if blind = m.blind then s
    else match m.list with
      | some b => s.progEv lead (if blind then evBE_OBJ_STALE else evBE_OBJ_FRESH) e (fileN b 0x0C 4)
      | none => s.progEvFree lead evBE_OBJ_STALE e
  let s := s.updProg e (fun m => { m with blind := blind })
  let rows := s.shareRows p e
  let (addr, stride) := (bufAddr p k, bufStride p)
  let s :=
    if blind then (s.putShare rows addr stride 1 s.blindValue).drawn (2048 * 1024)
    else
      let b := m.list.getD []
      let stale := poseAged m tm (par.getD 3 0)
      let boxes := (List.range (fileN b 8 2)).map (fun i => maskBox par m stale tm (fileN b 0 8) (objAt b i))
      s.putShare rows addr stride 1 (maskValue (boxes.map (fun x => (boxPolygon s.loader.cfg.pj x.1, x.2))))
  let fence := p.fences.headD 0
  let s := s.signal fence 1
  let s := if s.lampTiming.frame ≠ g.jobFrame then s.postOnce evBE_MASK_LATE p.number k e k else s
  if lead then s.progFlip p 0 7 4 2 fence k else s

/-! ### Projection (R116 to R118) -/

/-- Is a symbol entry in range? -/
def symbolOk (s : State) (b : List Byte) : Bool :=
  let fl := fileN b 2 2
  decide (fileN b 0 1 < 16) && decide (fl < 4) && fileN b 0x16 2 == 0 && decide (fileN b 0x12 2 ≤ 2000)
  && (fl / 2 % 2 = 0 || (decide (5000 ≤ sField b 4 4) && decide (sField b 4 4 ≤ 200000)))
  && s.loader.cfg.li.any (fun l => l.2.symbols.any (fun y => y.index == fileN b 1 1))

/-- An entry replaces its slot, in the job that drains its record (DESIGN CHOICE, log 167). -/
def State.takeSymbol (s : State) (lead : Bool) (e : Nat) (b : List Byte) : State :=
  let k := fileN b 0 1
  if symbolOk s b then
    let lt := (s.eng e).jobLt
    s.updProg e (fun m => { m with syms := tabIns k ⟨b, lt, none⟩ (tabDel m.syms k) })
  else s.progEv lead evBE_SYMBOL_BAD e k

/-- SYMBOL_SET and SYMBOL_CLEAR, and POSE. -/
def State.projTake (s : State) (lead : Bool) (e : Nat) (r : SlotRec) : State :=
  let b := r.payload
  if r.opcode = 0x10 then s.takePose lead e b
  else if r.opcode = 0x88 then
    let n := fileN b 0 2
    if n = 0 ∨ 16 < n ∨ b.length ≠ 8 + 24 * n ∨ fileN b 2 6 ≠ 0 then s.progEvFree lead evBE_SYMBOL_BAD e
    else (List.range n).foldl (fun s i => s.takeSymbol lead e ((b.drop (8 + 24 * i)).take 24)) s
  else if r.opcode = 0x89 then
    if b.length ≠ 4 ∨ fileN b 2 2 ≠ 0 then s.progEvFree lead evBE_SYMBOL_BAD e
    else
      let lt := (s.eng e).jobLt
      s.updProg e (fun m => { m with syms := m.syms.map (fun (q : Nat × SymSlot) =>
        if (fileN b 0 2).testBit q.1 then (q.1, { q.2 with fade := some (q.2.fade.getD lt) }) else q) })
  else s

/-- Slots whose LIFE_MS has expired fade out; faded slots are empty. -/
def State.symbolLife (s : State) (lead : Bool) (e : Nat) : State :=
  let lt := (s.eng e).jobLt
  let s := (s.prog e).syms.foldl (fun s q =>
    let life := 1000000 * fileN q.2.entry 0x14 2
    if q.2.fade = none ∧ 0 < life ∧ q.2.since + life ≤ lt then
      let s := s.updProg e (fun m => { m with syms := tabIns q.1 { q.2 with fade := some lt } (tabDel m.syms q.1) })
      s.progEv lead evBE_SYMBOL_EXPIRED e q.1
    else s) s
  s.updProg e (fun m => { m with syms := m.syms.filter (fun (q : Nat × SymSlot) => match q.2.fade with
    | some t => decide (lt < t + 1000000 * fileN q.2.entry 0x12 2)
    | none => true) })

/-- How much of its fade has passed, of 0 to 1, `since` a lamp time. -/
def ramp (fadeMs since lt : Nat) : Rat := if fadeMs = 0 then 1 else min 1 (((lt - since : Nat) : Rat) / (1000000 * fadeMs : Nat))

/-- The part of its light that a slot shows: it fades in and out over FADE_MS, a ground symbol also with the pose (R118). -/
def ProgMem.symbolPart (m : ProgMem) (lt : Nat) (q : SymSlot) : Rat :=
  let f := ramp (fileN q.entry 0x12 2)
  let out := match q.fade with
    | some t => 1 - f t lt
    | none => 1
  let pose := match m.poseAt with
    | some t => if fileN q.entry 2 2 / 2 % 2 = 0 then 1 else if m.poseOld then 1 - f t lt else f t lt
    | none => 1
  min (f q.since lt) (min out pose)

/-- Pitch and roll at t_m in degrees: those held, carried on at the pose rates; what the flags call not valid counts as 0. -/
def ProgMem.attitude (m : ProgMem) (tm : Nat) : Rat × Rat :=
  match m.pose with
  | none => (0, 0)
  | some b =>
    let fl := fileN b 0x1A 2
    let dt : Rat := ((tm : Int) - (fileN b 0 8 : Nat) : Int) / 1000000000
    let at_ := fun (angle rate : Nat) =>
      (if fl / 2 % 2 = 1 then (sField b angle 2 : Rat) / 1000 else 0) + (if fl % 2 = 1 then (sField b rate 4 : Rat) / 65536 * dt else 0)
    (at_ 0x14 0x0C, at_ 0x16 0x10)

/-- The place of a slot's symbol, where LIBRARY has it. -/
def State.symPlace (s : State) (b : List Byte) : Option SymPlace :=
  ((s.loader.cfg.li.flatMap (fun l => l.2.symbols)).find? (fun y => y.index == fileN b 1 1)).map (fun y =>
    { image := y, ground := fileN b 2 2 / 2 % 2 == 1, a := sField b 4 4, b := sField b 8 4, heading := sField b 0x0C 2,
      scale := fileN b 0x0E 2, level := fileN b 0x10 2 })

/-- Lamp pixels that a symbol covers. -/
def coverOf (c : ProjectionC) (size : Nat × Nat) (pitch roll : Rat) (q : SymPlace) : Nat :=
  ((List.range size.2).map (fun y => ((List.range size.1).filter (fun x => (q.texelAt c pitch roll x y).isSome)).length)).sum

/-- The symbols rendered, in slot order, and the first slot left out: the areas may add up to 262,144 lamp pixels (R118). -/
def inBudget {α : Type} (l : List (Nat × Nat × α)) : List α × Option Nat :=
  let k := (List.range l.length).find? (fun k => decide (262144 < (((l.take (k + 1)).map (fun q => q.2.1)).sum)))
  match k with
  | some k => ((l.take k).map (fun q => q.2.2), (l[k]?).map Prod.fst)
  | none => (l.map (fun q => q.2.2), none)

/-- A pixel of the projection surface, BV16A8: LEVEL with the sample as alpha, of the highest slot that shows there. -/
def symbolPixel (c : ProjectionC) (pitch roll : Rat) (l : List (SymPlace × Rat)) (x y : Nat) : Nat :=
  l.foldl (fun v q => match q.1.texelAt c pitch roll x y with
    | some t =>
      let a := ((sampImage q.1.image t.1 t.2 / 256 : Nat) * q.2 : Rat).floor.toNat
      if a = 0 then v else q.1.level % 65536 + 65536 * a
    | none => v) 0

/-- Whether the pose is too old shows in POSE_STALE, and ground symbols fade from then (R118). -/
def State.projPose (s : State) (p : BeprogC) (lead : Bool) (e tm : Nat) : State :=
  let m := s.prog e
  let stale := poseAged m tm (p.params.getD 4 50)
  if stale = m.poseOld then s
  else
    let lt := (s.eng e).trigLt
    let s := s.updProg e (fun m => { m with poseOld := stale, poseAt := some lt })
    if stale then match m.pose with
      | some b => s.progEv lead evBE_POSE_STALE e (satAt 0xFFFFFFFF ((tm - fileN b 0 8) / 1000))
      | none => s.progEv lead evBE_POSE_STALE e 0xFFFFFFFF
    else s

/-- A job of the projection program (R117, R118). -/
def State.projJob (s : State) (p : BeprogC) (e : Nat) (recs : List SlotRec) : State :=
  let lead := s.progLead p e
  let s := (recs.foldl (fun s r => s.projTake lead e r) s).symbolLife lead e
  let s := s.updProg e (fun m => { m with old := 0 })
  let g := s.eng e
  let k := (g.jobFrame + 1) % 2 ^ 32
  let tm := g.trigLt + 1000 * p.params.getD 0 0
  let s := s.projPose p lead e tm
  let m := s.prog e
  let (c, arr) := (s.loader.cfg.pj, s.loader.cfg.st.arr)
  let (pitch, roll) := m.attitude tm
  let on := (m.syms.filter (fun q => fileN q.2.entry 2 2 % 2 = 1)).filterMap (fun q =>
    (s.symPlace q.2.entry).map (fun y => (q.1, coverOf c (lampSize arr) pitch roll y, y, m.symbolPart g.trigLt q.2)))
  let (shown, left) := inBudget on
  let s := match left with
    | some k => s.progEv lead evBE_SYMBOL_BUDGET e k
    | none => s
  let s := s.putShare (s.shareRows p e) (bufAddr p k) (bufStride p) 4 (symbolPixel c pitch roll shown)
  let fence := p.fences.headD 1
  let s := s.signal fence 1
  if lead then s.progFlip p 1 6 3 1 fence k else s

/-! ### Patterns (R119, R120) -/

/-- A PATTERN_SET payload. -/
def State.patTake (s : State) (p : BeprogC) (lead : Bool) (e : Nat) (r : SlotRec) : State :=
  let b := r.payload
  let k := fileN b 0 1
  if r.opcode ≠ 0x90 then s
  else
    let period := fileN b 4 2
    if b.length ≠ 16 ∨ 3 < k ∨ 5 < fileN b 1 1 ∨ period < 2 ∨ 1024 < period ∨ period ≤ fileN b 6 2 ∨ 1 < fileN b 8 1
        ∨ fileN b 9 1 = 0 ∨ 16 < fileN b 9 1 ∨ fileN b 0x0B 5 ≠ 0 then s.progEv lead evBE_PATTERN_BAD e k
    else
      let lim := p.params.getD k 0xFFFF
      let level := min (fileN b 2 2) lim
      let s := s.updProg e (fun m => { m with pats := tabIns k (b.take 2 ++ leBytes 2 level ++ b.drop 4) (tabDel m.pats k) })
      if lim < fileN b 2 2 then s.progEv lead evBE_PATTERN_CLAMPED e k else s

/-- Is pixel (x, y) lit at step `st` of the pattern? A library pattern steps through the images LIB_INDEX + st (DESIGN CHOICE, log 171) and
lights what the image does not leave at 0; without the image the pixel is free (log 148). -/
def patLit (images : List SymImage) (b : List Byte) (st x y free : Nat) : Bool :=
  let (period, phase) := (fileN b 4 2, fileN b 6 2)
  let v := ((if fileN b 8 1 = 0 then x else y) + phase) / period
  match fileN b 1 1 with
  | 1 => v % 2 = 0
  | 2 => (v ^^^ (v / 2)).testBit (fileN b 9 1 - 1 - st)
  | 3 => (((x + phase) / period) % 2 = 0) != (((y + phase) / period) % 2 = 0)
  | 4 => x % period = phase && y % period = phase
  | _ => match images.find? (fun m => m.index == fileN b 0x0A 1 + st) with
    | some m => decide (x < m.width) && decide (y < m.height) && m.pix.getD (y * m.width + x) 0 != 0
    | none => free % 2 = 1

/-- A job of the pattern program: the surfaces of every active slot. -/
def State.patJob (s : State) (p : BeprogC) (e : Nat) (recs : List SlotRec) : State :=
  let lead := s.progLead p e
  let s := recs.foldl (fun s r => s.patTake p lead e r) s
  let k := ((s.eng e).jobFrame + 1) % 2 ^ 32
  let rows := s.shareRows p e
  let images := s.loader.cfg.li.flatMap (fun l => l.2.images)
  let s := (s.prog e).pats.foldl (fun s q =>
    if fileN q.2 1 1 = 0 then s
    else
      let f := s.slotSurf q.1 k
      let d := s.draws
      let st := k % fileN q.2 9 1
      (s.putShare rows f.addr f.stride 2 (fun x y =>
        let w := (Config.freeWord (d + 2048 * y + x)).toNat
        if patLit images q.2 st x y w then fileN q.2 2 2 else 0)).drawn (2048 * 1024)) s
  s.signal (p.fences.headD 2) 1

/-! ### Snapshots: aging (R121, R122) and power sums (R124) -/

/-- Snapshot q of tile n, if it is whole and still in its slot: its span in µs and its codes. -/
def State.snapRead (s : State) (n q : Nat) : Option (Nat × List Nat) × State :=
  let slot := q % (max 1 (s.getF (fPRESS_SNAP_CFG_SLOTS n)))
  let h := s.snapBase n + 128 * slot
  let a := s.snapBase n + 0x1000 + 0x80000 * slot
  if s.inDram h 128 = false ∨ s.inDram a 0x80000 = false then (none, s)
  else if s.loadN (h + 0x14) 4 ≠ q ∨ s.loadN (h + 4) 4 % 2 = 0 then (none, s)
  else
    let (ue, s) := s.checkRange a 0x80000
    if ue then (none, s)
    else (some (s.loadN (h + 0x10) 4, (List.range 262144).map (fun i => s.loadN (a + 2 * i) 2)), s)

/-- The snapshots of tile n written since the program last looked, oldest first, as numbers: those the ring still holds. -/
def State.snapNew (s : State) (e n : Nat) : List Nat :=
  let count := s.regN (rPRESS_SNAP_COUNT n) - (if (s.pr n).snapOn then 1 else 0)
  let from_ := max (tabGet (fun _ => 0) (s.prog e).snaps n) (count - s.getF (fPRESS_SNAP_CFG_SLOTS n))
  (List.range (count - from_)).map (· + from_)

/-- They are consumed. -/
def State.snapSeen (s : State) (e n : Nat) : State :=
  let count := s.regN (rPRESS_SNAP_COUNT n) - (if (s.pr n).snapOn then 1 else 0)
  s.updProg e (fun m => { m with snaps := tabSet (fun _ => 0) m.snaps n count })

/-- F[range][bin]: the bounds of the bins are not stated, so the bin of a block is free. -/
def State.stressOf (s : State) (free range : Nat) : Nat :=
  (s.loader.cfg.li.flatMap (fun l => l.2.stress)).getD (16 * range + free % 16) 0

/-- Pixel i of tile n gains its stress; how a fraction of a microsecond is rounded is not stated (free). -/
def State.ageGain (s : State) (d n span : Nat) (q : Nat × Nat) : State :=
  let i := q.2
  let k := s.selBit n i
  let x := span * (q.1 % 16384) * s.stressOf (Config.freeWord (d + blockOf i)).toNat (q.1 / 16384)
  let up := if x % (16384 * 256) = 0 then 0 else (Config.freeWord (d + 256 + i)).toNat % 2
  s.putDram (s.acctAddr n k i) (leBytes 8 (s.account n k i + x / (16384 * 256) + up))

/-- Pixels of tile n that are the engine's. -/
def shareOf (rows : List (Nat × Nat)) (n i : Nat) : Bool := rows.contains (n, i / 512)

/-- A job of the aging program. -/
def State.agingJob (s : State) (p : BeprogC) (e : Nat) (recs : List SlotRec) : State :=
  let lead := s.progLead p e
  let lt := (s.eng e).jobLt
  let s := recs.foldl (fun s r =>
    let c := fileN r.payload 0 2
    if r.opcode ≠ 0x98 then s
    else if r.payload.length ≠ 4 ∨ fileN r.payload 2 2 ≠ 0 then s.progRefuse lead e
    else
      let s := if c % 2 = 1 ∧ s.agingPaused = false then
          (({ s with agingPaused := true }).notePost (limKey evBE_AGING_PAUSED 0) (s.time.now + 1)) else s
      let s := if c % 2 = 1 then s.updProg e (fun m => { m with paused := some (m.paused.getD lt) }) else s
      let s := if c / 2 % 2 = 1 then ({ s with agingPaused := false }).updProg e (fun m => { m with paused := none }) else s
      if c / 4 % 2 = 1 ∧ lead then s.checkpointOp else s) s
  let rows := s.shareRows p e
  let s :=
    if s.agingPaused then
      s.postGap evBE_AGING_PAUSED 0 (ticksMs 10000) e ((lt - (s.prog e).paused.getD lt) / 1000000000)
    else (List.range 4).foldl (fun s n => (s.snapNew e n).foldl (fun s q =>
      match s.snapRead n q with
      | (some (span, codes), s) =>
        (((codes.zip (List.range 262144)).filter (fun c => shareOf rows n c.2)).foldl (fun s' c => s'.ageGain s.draws n span c) s).drawn
          (256 + 262144)
      | (none, s) => s) s) s
  let s := (List.range 4).foldl (fun s n => s.snapSeen e n) s
  s.signal (p.fences.headD 3) 1

/-- Power of one pixel in 16384 × 10^9 µW × µs: duty × range × I_UNIT × forward voltage, the voltage free for an emitter that
has not been measured. -/
def State.pixelPower (s : State) (d n span code i : Nat) : Nat :=
  let c := s.caps n
  let l := tabGet (fun _ => 0) (s.hl n).latest (emKey (s.selBit n i) i)
  let raw := if l = 0 then (Config.freeWord (d + i)).toNat % 4096 else l - 1
  match c with
  | some c => span * (code % 16384) * 4 ^ (code / 16384) * c.iUnit * (1000 * c.vfBase + raw * c.vfLsb)
  | none => 0

/-- The table of tile n's blocks: the mean over the spans of the snapshots. -/
def State.powerTile (s : State) (e n : Nat) : List Nat × State :=
  let (snaps, s) := (s.snapNew e n).foldl (fun (a : List (Nat × List Nat) × State) q =>
    match a.2.snapRead n q with
    | (some x, s) => (a.1 ++ [x], s)
    | (none, s) => (a.1, s)) ([], s)
  let d := s.draws
  let time := (snaps.map Prod.fst).sum
  let tab := (List.range 256).map (fun b =>
    if time = 0 then 0
    else satAt 0xFFFFFFFF ((snaps.map (fun x => ((blockPixels b).map (fun i => s.pixelPower d n x.1 (x.2.getD i 0) i)).sum)).sum
      / (1000000000 * (16384 * time))))
  (tab, (s.drawn 262144).snapSeen e n)

/-- A job of the power-sum program; the table's address is its image's. -/
def State.powerJob (s : State) (p : BeprogC) (e : Nat) : State :=
  let s := if 0 < s.hk.psum then s.progEv (s.progLead p e) evBE_POWER_SUM_LATE e s.hk.psum else s
  let (tab, s) := (List.range 4).foldl (fun (a : List Nat × State) n =>
    let (t, s) := a.2.powerTile e n
    (a.1 ++ t, s)) ([], s)
  let s := s.putDram (p.params.getD 0 0) (tab.flatMap (leBytes 4))
  let s := s.updHk (fun h => { h with power := tab.zipIdx.foldl (fun t q => tabSet (fun _ => 0) t q.2 q.1) [], newTable := true })
  s.signal (p.fences.headD 5) 1

/-! ### Health (R123) -/

def State.healthTake (s : State) (lead : Bool) (e : Nat) (r : SlotRec) : State :=
  let b := r.payload
  if r.opcode ≠ 0xA0 then s
  else if b.length ≠ 16 ∨ fileN b 8 8 ≠ 0 ∨ 4 ≤ fileN b 6 2 then s.progRefuse lead e
  else { s with hcfg := (fileN b 0 2, fileN b 2 2, fileN b 4 2, fileN b 6 2) }

/-! ### A job's effect -/

/-- What the job of engine e's program has done when it ends: nothing beside its instructions for a program of the integrator's. -/
def State.jobEffect (s : State) (e : Nat) : State :=
  match (s.eng e).prog with
  | none => s
  | some p =>
    let recs := (s.eng e).taken
    match p.kind with
    | .mask => s.maskJob p e recs
    | .projection => s.projJob p e recs
    | .pattern => s.patJob p e recs
    | .aging => s.agingJob p e recs
    | .health =>
      let rows := s.shareRows p e
      (recs.foldl (fun s r => s.healthTake (s.progLead p e) e r) s).healthJob e (fun n c => rows.contains (n, 32 * c))
    | .powerSum => s.powerJob p e
    | .user => s

end Sys2Proof.Machine
end

