-- ==== Sys2Proof/Machine/BeamEngine.lean ====
section
/-! DEFINITION. Engine commands, triggers, the end of a job, and the waits of an engine (R92 to R104). A transfer of a descriptor
stands in BeamDma.lean. -/

namespace Sys2Proof.Machine

/-! ### Commands and triggers (R99, R102, R104) -/

/-- START. -/
def State.beStartOp (s : State) (n : Nat) : State := s.trigger n 0

def execBeStart (e : Fin 16) (s : State) : Res := .next (s.viaReg (rBE_CMD e) (fun s => s.beStartOp e))

/-- No descriptor of the engine signals its fence (R94). -/
def Engine.muteDma (e : Engine) : Engine :=
  { e with ch0 := e.ch0.map (fun (x : Desc) => { x with mute := true }),
           ch1 := e.ch1.map (fun (x : Desc) => { x with mute := true }), mute := true }

/-- STOP: no fence is signalled any more, by descriptors in flight either (R94); in RUN or WAIT the engine goes to IDLE, its wait
abandoned and its pending trigger dropped. -/
def State.beStopOp (s : State) (n : Nat) : State :=
  if s.beState n = beOFF then s
  else
    let s := s.updEng n Engine.muteDma
    if s.beState n = beRUN ∨ s.beState n = beWAIT then
      let s := s.updEng n (fun e => { e with wait := .none })
      ((s.setBeState n beIDLE).setF (fBE_STATUS_WAIT_ON n) 0).setF (fBE_STATUS_TRIG_PENDING n) 0
    else s

def execBeStop (e : Fin 16) (s : State) : Res := .next (s.viaReg (rBE_CMD e) (fun s => s.beStopOp e))

/-- RESET: the engine reloads; one that faulted twice within 1 s stays FAULTED, one that is OFF stays OFF, one that stops
finishes first. -/
def State.beResetOp (s : State) (n : Nat) : State :=
  let st := s.beState n
  if st = beOFF ∨ st = beSTOPPING ∨ (s.eng n).lost then s
  else
    let s := s.updEng n (fun e => { e.muteDma with wait := .none })
    ((s.setBeState n beLOADING).setF (fBE_STATUS_WAIT_ON n) 0).setF (fBE_STATUS_TRIG_PENDING n) 0

def execBeReset (e : Fin 16) (s : State) : Res := .next (s.viaReg (rBE_CMD e) (fun s => s.beResetOp e))

/-- A write of BE_n.CMD. -/
def State.beCmd (s : State) (n v : Nat) : State :=
  if v = 1 then s.beStartOp n else if v = 2 then s.beStopOp n else if v = 3 then s.beResetOp n else s

/-- The reload from the copy in the protected window is complete: every register reads 0 (R77), the mailbox is empty, and the engine
waits in IDLE. A copy with a lost word leaves the engine LOADING (log 162). -/
def State.beRestart (s : State) (n : Nat) : State :=
  if s.beState n ≠ beLOADING then s
  else
    let old := s.eng n
    let (ok, s) := match old.prog with
      | some p => s.reloadFrom n n p
      | none => (true, s)
    if ok then
      let s := (s.dropProg n).setEng n
        { freshEngine old.prog old.lastFault with next := old.next, ch0 := old.ch0, ch1 := old.ch1 }
      (s.setBeState n beIDLE).post evBE_ENGINE_RESTART n n
    else s

/-- ENGINE_RESTART; an engine does not load while the BE clock is gated (R103). -/
def execEngineRestart (e : Fin 16) (s : State) : Res := .next (if s.beGated then s else s.beRestart e)

/-- Can a trigger of source k arise for engine n: JOB_TRIG names it, the mailbox is not empty, the generator is not OFF (R107)? -/
def State.trigArises (s : State) (n k : Nat) : Bool :=
  k == 0 || s.getF (fBE_JOB_TRIG_SRC n) == k && (k != 2 || decide (0 < (s.eng n).waiting)) && (k != 4 || s.trigTg n != none)

/-- The lowest of the trigger sources that reach the engine: a software start always. -/
def State.trigSource (s : State) (n : Nat) (srcs : BitVec 5) : Option Nat :=
  (List.range 5).find? (fun k => srcs.getLsbD k && s.trigArises n k)

def execJobTrigger (e : Fin 16) (srcs : BitVec 5) (s : State) : Res :=
  .next (match s.trigSource e srcs with
    | some k => s.trigger e k
    | none => s)

/-! ### The end of a job -/

/-- A job ends: its program's effect, then the next job or IDLE. -/
def State.endJob (s : State) (n : Nat) : State :=
  let s := s.updEng n (fun e => { e with cycle := e.cycle + 1 })
  (s.jobEffect n).jobDone n

/-- HALT: ends the job once its DMA writes are complete. -/
def execHalt (e : Fin 16) (f : KvF) (s : State) : Res :=
  .next (s.keav e 0x01 f {} [] (fun s =>
    if (s.eng e).jobWrites then .hold (s.beWait e .halt) else .hold (s.endJob e)))

/-- An engine waits, and its clock runs. -/
def State.waits (s : State) (n : Nat) : Bool := s.beState n == beWAIT && !s.beGated

def execHaltComplete (e : Fin 16) (s : State) : Res :=
  .next (if s.waits e = false ∨ (s.eng e).wait ≠ .halt ∨ (s.eng e).jobWrites then s
    else (s.waitCount e).endJob e)

/-! ### Waits (R89, R92, R93, R96, R100) -/

/-- A waiting DMAQ or DMAWAIT proceeds. -/
def State.dmaRoom (s : State) (n : Nat) : State :=
  if s.waits n = false then s
  else match (s.eng n).wait with
    | .dmaq ch d =>
      if ((s.eng n).chan ch).length < 4 then (s.updEng n (fun g => g.setChan ch (g.chan ch ++ [d]))).beResume n else s
    | .dmawait m => if (s.eng n).chansIdle m then s.beResume n else s
    | _ => s

def execDmaQueueRoom (e : Fin 16) (s : State) : Res := .next (s.dmaRoom e)

/-- The writes that FSIG waits for are visible: the fence advances, and the engine goes on. -/
def State.fsigDone (s : State) (n : Nat) : State :=
  if s.waits n = false then s
  else match (s.eng n).wait with
    | .fsig k => if (s.eng n).writesPending then s else (s.signal k 1).beResume n
    | _ => s

def execFsigWritesVisible (e : Fin 16) (s : State) : Res := .next (s.fsigDone e)

/-- The fence that FWAIT names has reached its target. -/
def State.fwaitDone (s : State) (n : Nat) : State :=
  if s.waits n = false then s
  else match (s.eng n).wait with
    | .fwait k t => if s.fenceReached k t then s.beResume n else s
    | _ => s

def execFwaitSatisfied (e : Fin 16) (s : State) : Res := .next (s.fwaitDone e)

/-- A limit register in ticks: 0 is treated as 1 µs (R107). -/
def State.limitTicks (s : State) (off : Nat) : Nat := 800 * max 1 (s.regN off % 65536)

/-- FWAIT_LIMIT is exceeded. -/
def State.fwaitLate (s : State) (n : Nat) : State :=
  if s.waits n = false ∨ s.time.now - (s.eng n).limFrom ≤ s.limitTicks (rBE_FWAIT_LIMIT n) then s
  else match (s.eng n).wait with
    | .fwait _ _ => s.engineTrap n 9
    | _ => s

def execFwaitTimeout (e : Fin 16) (s : State) : Res := .next (s.fwaitLate e)

/-- A slot is delivered to an engine that waits in MBRECV. -/
def State.mbDeliver (s : State) (n : Nat) : State :=
  if s.waits n = false then s
  else match (s.eng n).wait, (s.eng n).firstSlot with
    | .mbrecv d, some m =>
      ((s.updEng n (fun g => g.takeSlot m)).putS n (BitVec.ofNat 5 d) (BitVec.ofNat 32 (slotAddr m)) 2).beResume n
    | _, _ => s

def execMbrecvDelivered (e : Fin 16) (s : State) : Res := .next (s.mbDeliver e)

/-- Ticks that the job of engine n has taken: model time, or what its cycles take where the commands have run ahead of it (log 144). -/
def State.jobTicks (s : State) (n : Nat) : Nat :=
  max (s.time.now - (s.eng n).jobFrom) ((s.eng n).cycle * (if s.hk.beHalf then 4 else 2) / 3)

/-- JOB_TIME_LIMIT is exceeded, in RUN or in a wait; it does not count while the clock is gated. -/
def State.watchdogOp (s : State) (n : Nat) : State :=
  if s.beGated = false ∧ (s.beState n = beRUN ∨ s.beState n = beWAIT) ∧ s.limitTicks (rBE_JOB_TIME_LIMIT n) < s.jobTicks n then
    s.engineTrap n 0x0A
  else s

def execWatchdog (e : Fin 16) (s : State) : Res := .next (s.watchdogOp e)

end Sys2Proof.Machine
end

