-- ==== Sys2Proof/Machine/Hamper.lean ====
section
/-! DEFINITION. Hamper (R339 to R345): the input arbiter, storing, evicting and dropping, delivery through EVT_POP, the owner,
and the Ethernet event stream; LAMP_ALARM, which looks at Hamper's input side (R329). -/

namespace Sys2Proof.Machine

def State.updHamper (s : State) (f : Hamper → Hamper) : State := { s with hamper := f s.hamper }

/-! ### The input side (R341, R342) -/

/-- Is a slot free for priority p? -/
def State.slotFree (s : State) (p : Nat) : Bool :=
  decide (s.hamper.held.length < 1024)
    && (p == 0 || decide ((s.hamper.held.filter (fun c => decide (1 ≤ c.2.kind.prio))).length < 960))

/-- The newest held record of the largest priority value above p. -/
def State.victim (s : State) (p : Nat) : Option (Nat × Ev) :=
  ([3, 2, 1].find? (fun q => decide (p < q) && s.hamper.held.any (fun c => c.2.kind.prio == q))).bind
    (fun q => s.hamper.held.reverse.find? (fun c => c.2.kind.prio == q))

/-- The list without its last element that equals `v`. -/
def dropLast (l : List (Nat × Ev)) (v : Nat × Ev) : List (Nat × Ev) := (l.reverse.erase v).reverse

/-- A record is stored; an armed injection hits it. -/
def State.storeEv (s : State) (n : Nat) (e : Ev) : State :=
  let s := s.updHamper (fun h => { h with held := h.held ++ [(n, e)] })
  if s.injectArmed 7 then
    let syn := s.injectSynd
    (s.setF fMEM_ECC_INJECT_ARM 0).updHamper (fun h => { h with hurt := h.hurt ++ [(n, syn)] })
  else s

/-- A record reaches the arbiter: it takes the next number, is stored, evicts or is dropped, and goes to Spool. -/
def State.hamperIn (s : State) (e : Ev) : State :=
  let p := e.kind.prio
  let (n, s) := s.takeSeq
  let s := if p ≤ 1 then s.updHamper (fun h => { h with alarmCode := e.kind.code, alarmCls := e.kind.cls }) else s
  if s.slotFree p then (s.storeEv n e).spoolEv 0 n e
  else match s.victim p with
    | some v =>
      let s := s.updHamper (fun h => { h with held := dropLast h.held v })
      let s := (s.storeEv n e).spoolEv 0 n e
      (s.bump (rMSG_EVT_EVICT v.2.kind.prio)).noteLoss v.2.kind.prio
    | none => ((s.spoolEv 1 n e).bump (rMSG_EVT_DROP p)).noteLoss p

/-- Does record a go before record b: lowest PRIO, then lowest SOURCE? -/
def evBefore (a b : Nat × Ev) : Bool :=
  decide (a.2.kind.prio < b.2.kind.prio) || (a.2.kind.prio == b.2.kind.prio && decide (a.2.src < b.2.src))

/-- The record that the arbiter takes: the first of those that no other goes before. -/
def pickEv (l : List (Nat × Ev)) : Option (Nat × Ev) :=
  l.foldl (fun best c => match best with
    | none => some c
    | some b => if evBefore c b then some c else some b) none

/-- A record of an outbox is read, with whatever an injection did to it: true when it is lost (R387, region 10). -/
def State.boxCheck (s : State) (e : Ev) : Bool × State :=
  match s.hamper.boxHurt.find? (fun q => q.1 = e) with
  | none => (false, s)
  | some q => (s.updHamper (fun h => { h with boxHurt := h.boxHurt.erase q })).synFound 10 q.2

/-- A record leaves its outbox for the arbiter; a word that is lost is lost there and counted by its unit (R341, R387). -/
def State.boxTake (s : State) (c : Nat × Ev) : State :=
  let (lost, s) := (s.updHamper (fun h => { h with outbox := h.outbox.erase c })).boxCheck c.2
  if lost then s.loseEv c.2.kind.prio else s.hamperIn c.2

/-- HAMPER_ACCEPT. -/
def execHamperAccept (s : State) : Res :=
  .next (match pickEv s.hamper.outbox with
    | none => s
    | some c => s.boxTake c)

/-- The events held by the boot ROM reach Hamper one after the other, in the order they arose (R63). -/
def State.pushHeld (s : State) (l : List Ev) : State :=
  l.foldl (fun s e => (if e.kind.prio ≤ 1 then s.wakeNote 9 else s).hamperIn e) s

/-! ### Delivery (R343) -/

/-- The head record: priority 0, then the drop summary, then the rest in priority order. -/
def State.evtHead (s : State) : Option (Nat × Ev) × State :=
  let take := fun (q : Nat) => s.hamper.held.find? (fun c => c.2.kind.prio == q)
  let out := fun (c : Nat × Ev) => (some c, s.updHamper (fun h => { h with held := h.held.erase c }))
  match take 0, s.hamper.summary with
  | some c, _ => out c
  | none, some m => (some (m.seq, summaryEv m), s.updHamper (fun h => { h with summary := none }))
  | none, none =>
    match [1, 2, 3].findSome? take with
    | some c => out c
    | none => (none, s)

/-- A record that leaves Hamper is removed with whatever an injection did to it: true when it is lost (R387, region 7). -/
def State.evtCheck (s : State) (c : Nat × Ev) : Bool × State :=
  match s.hamper.hurt.find? (fun q => q.1 = c.1) with
  | none => (false, s)
  | some q => (s.updHamper (fun h => { h with hurt := h.hurt.erase q })).synFound 7 q.2

/-- A lost record is counted as a drop of its priority, or of priority 0 when the priority field itself is in the word that is lost; which
of its four words that is is open. -/
def State.evtLose (s : State) (c : Nat × Ev) : State :=
  let (v, s) := s.fresh
  let p := if v.toNat % 4 = 0 then 0 else c.2.kind.prio
  (s.bump (rMSG_EVT_DROP p)).noteLoss p

/-- The next record delivered; a lost one is discarded and counted. -/
def State.evtTake (s : State) : Nat → Option (Nat × Ev) × State
  | 0 => (none, s)
  | k + 1 =>
    match s.evtHead with
    | (none, s) => (none, s)
    | (some c, s) =>
      let (lost, s) := s.evtCheck c
      if lost then (s.evtLose c).evtTake k else (some c, s)

def State.evtNext (s : State) : Option (Nat × Ev) × State := s.evtTake (s.hamper.held.length + 2)

/-- A read of EVT_POP by its owner. -/
def State.evtPop (s : State) (master : Nat) : Word × State :=
  if s.getF fMSG_EVT_CFG_OWNER ≠ master then (0, s)
  else match s.hamper.packet with
    | w :: t => (w, s.updHamper (fun h => { h with packet := t }))
    | [] =>
      match s.evtNext with
      | (none, s) => (0, s)
      | (some c, s) =>
        let s := s.updHamper (fun h => { h with packet := evWords c.1 c.2 })
        (BitVec.ofNat 32 (2 ^ 31 + 4 * 2 ^ 28 + 2 ^ 11 * satAt 1023 s.hamper.held.length), s)

/-- EVT_POP: read by the firmware, or by the SPI host. -/
def execEvtPop (spi : Bool) (s : State) : Res :=
  let (v, s) := s.evtPop spi.toNat
  .next { s with rdata := v }

/-- The rest of the packet in progress is dropped. -/
def State.evtSkip (s : State) : State := s.updHamper (fun h => { h with packet := [] })

def execEvtSkip (s : State) : Res := .next (s.viaReg (rMSG_EVT_SKIP) (fun s => s.evtSkip))

/-- A write of EVT_CFG. -/
def State.evtOwner (s : State) (v : Word) : State :=
  let new := bitsOf v.toNat 0 1
  let s := if new = s.getF fMSG_EVT_CFG_OWNER then s else s.evtSkip
  (s.setF fMSG_EVT_CFG_OWNER new).setF fMSG_EVT_CFG_AUTO_TAKEOVER (bitsOf v.toNat 8 1)

def execEvtOwnerWrite (v : Word) (s : State) : Res := .next (s.viaRegV (rMSG_EVT_CFG) v (fun v s => s.evtOwner v))

/-- SC has posted MC_HEARTBEAT_LOST: ownership passes to the SPI host (R17, R343). -/
def State.evtTakeover (s : State) : State :=
  if s.isF fMSG_EVT_CFG_AUTO_TAKEOVER = false then s
  else
    let s := if s.getF fMSG_EVT_CFG_OWNER = 1 then s else s.evtSkip
    let s := (s.setF fMSG_EVT_CFG_OWNER 1).raise fMSG_EVT_FLAGS_TAKEOVER rMSG_TAKEOVER_COUNT
    s.hostEv evHOST_EVT_TAKEOVER 0 srcMSG 0

/-! ### The Ethernet event stream (R345) -/

/-- One token in the unit of `Hamper.tokens`: rates are per second, ticks are 1.25 ns. -/
def tokenUnit : Nat := 800000000

/-- The buckets fill at their rates up to their bursts. -/
def State.refillTokens (s : State) : State :=
  let dt := s.time.now - s.hamper.tokensAt
  s.updHamper (fun h => { h with
    tokensAt := s.time.now,
    tokens := (s.loader.cfg.ho.buckets.zipIdx).map (fun q => satAt (q.1.2 * tokenUnit) (h.tokens.getD q.2 0 + dt * q.1.1)) })

/-- A record read for the stream is sent on, or withheld for want of a token; a class without a bucket has no limit. -/
def State.streamTake (s : State) (c : Nat × Ev) : State :=
  let k := c.2.kind.cls
  let keep := fun (s : State) => s.updHamper (fun h => { h with
    waiting := h.waiting ++ [c], waitFrom := some (h.waitFrom.getD s.time.now) })
  if c.2.kind.prio = 0 ∨ s.hamper.tokens.length ≤ k then keep s
  else if tokenUnit ≤ s.hamper.tokens.getD k 0 then
    keep (s.updHamper (fun h => { h with tokens := h.tokens.set k (h.tokens.getD k 0 - tokenUnit) }))
  else s.updHamper (fun h => { h with withheld := h.withheld + 1 })

/-- The firmware reads Hamper until 64 records wait, or one of priority 0 does, or none is left. -/
def State.streamRead (s : State) : Nat → State
  | 0 => s
  | k + 1 =>
    if 64 ≤ s.hamper.waiting.length ∨ s.hamper.waiting.any (fun c => c.2.kind.prio == 0) then s
    else match s.evtNext with
      | (none, s) => s
      | (some c, s) => (s.streamTake c).streamRead k

/-- An EVENTS record on every channel enabled. -/
def State.eventsOut (s : State) : State :=
  let h := s.hamper
  let b := leBytes 2 h.waiting.length ++ leBytes 2 h.held.length ++ leBytes 4 (satAt 0xFFFFFFFF h.losses)
    ++ h.waiting.flatMap (fun c => wordBytes (evWords c.1 c.2))
  let s := [0, 1].foldl (fun s c => if h.stream.getD c false then s.sendRec c 0xE1 b 0 0 else s) s
  s.updHamper (fun h => { h with waiting := [], waitFrom := none, losses := 0 })

/-- Is an EVENTS record due: 64 records, 1 ms after the first, or a record of priority 0? -/
def State.eventsDue (s : State) : Bool :=
  decide (64 ≤ s.hamper.waiting.length) || s.hamper.waiting.any (fun c => c.2.kind.prio == 0)
    || (match s.hamper.waitFrom with
      | some t => decide (t + ticksMs 1 ≤ s.time.now)
      | none => false)

/-- EVENTS_SEND: the firmware reads Hamper while it owns it and a channel is enabled, and sends what is due. -/
def execEventsSend (s : State) : Res :=
  .next (if s.fwRuns = false ∨ s.hamper.stream.any id = false then s
    else
      let s := if s.getF fMSG_EVT_CFG_OWNER = 0 ∧ s.hamper.packet.isEmpty then
          s.refillTokens.streamRead (s.hamper.held.length + 1) else s
      if s.eventsDue then s.eventsOut else s)

/-! ### LAMP_ALARM (R329) -/

/-- CRC-8 over bytes (R216). -/
def crc8 (bs : List Byte) : Byte :=
  BitVec.ofNat 8 ((bs.foldl (fun c b => (List.range 8).foldl (fun c k => crc8Bit c (b.toNat.testBit (7 - k))) c) 0xFF) ^^^ 0xFF)

/-- Bytes 2 to 6. -/
def State.alarmBytes (s : State) : List Byte :=
  let tiles := List.range s.tiles
  let dark := (tiles.filter (fun n => !s.lit n)).foldl (fun m n => m + 2 ^ n) 0
  let fb := (tiles.filter s.inFallback).foldl (fun m n => m + 2 ^ n) 0
  let b := s.faultNAsserted.toNat + 2 * (!s.sinBoth 0).toNat + 4 * s.getF fSAFETY_STATUS_CAN_REQ
    + 8 * s.hamper.dropSinceAlarm.toNat + 16 * s.getF fSAFETY_STATUS_MC_LOST
  leBytes 1 b ++ leBytes 2 s.hamper.alarmCode ++ leBytes 1 s.hamper.alarmCls ++ leBytes 1 (dark + 16 * fb)

/-- The lamp's safe state: the highest of its tiles. -/
def State.lampSs (s : State) : Nat := ((List.range s.tiles).map s.ssOf).foldl max 0

/-- A controller goes bus-off: its transmit error counter has passed 255, which its eight bits show as 255 (log 51). -/
def State.canBusOff (s : State) (c : Nat) : State :=
  ((s.setF (fHOSTIF_CAN_STATUS_BUS_OFF c) 1).setF (fHOSTIF_CAN_STATUS_TEC c) 255).hostEv evHOST_CAN_BUS_OFF c srcHOSTIF c

/-- A controller that is not bus-off sends a frame after `fails` attempts that failed, each of which adds 8 to its transmit error counter; one
that succeeds takes 1 off (ISO 11898-1, log 51). -/
def State.canSend (s : State) (c : Nat) (frame : List Byte) (fails : Nat) : State :=
  if s.isF (fHOSTIF_CAN_STATUS_BUS_OFF c) then s
  else
    let n := s.getF (fHOSTIF_CAN_STATUS_TEC c) + 8 * fails
    if 255 < n then s.canBusOff c
    else (s.setF (fHOSTIF_CAN_STATUS_TEC c) (n - 1)).updHost (fun h => { h with
      alarms := h.alarms ++ [(c, s.loader.cfg.ho.canAlarmId.getD c {}, frame)] })

/-- The bytes of LAMP_ALARM. -/
def State.alarmFrame (s : State) : List Byte :=
  let body := leBytes 1 (s.host.alive % 16 + 16 * s.lampSs) ++ s.alarmBytes ++ leBytes 1 0
  crc8 body :: body

/-- LAMP_ALARM: one frame on each controller. -/
def execLampAlarm (f0 f1 : Nat) (s : State) : Res :=
  .next (if s.boot.porst = false then s
    else
      let frame := s.alarmFrame
      let s := (s.updHost (fun h => { h with alive := (h.alive + 1) % 16 })).updHamper (fun h => { h with dropSinceAlarm := false })
      (s.canSend 0 frame f0).canSend 1 frame f1)

end Sys2Proof.Machine
end

