-- ==== Sys2Proof/Machine/Spool.lean ====
section
/-! DEFINITION. The Spool trace ring (R346 to R348): the writer, the reader's window, the mark, freezing and rearming. -/

namespace Sys2Proof.Machine

def State.updSpool (s : State) (f : Spool → Spool) : State := { s with spool := f s.spool }

/-! ### The ring -/

/-- Records that the ring holds. -/
def State.spCap (s : State) : Nat := s.spBytes / 64

def State.spBase (s : State) : Nat := s.pair rMSG_SP_BASE_LO rMSG_SP_BASE_HI

/-- Byte offset of the i-th valid record, the oldest being 0. -/
def State.spOff (s : State) (i : Nat) : Nat :=
  (s.regN rMSG_SP_WR_PTR + s.spBytes - 64 * s.spool.ring.length % max 64 s.spBytes + 64 * i) % max 64 s.spBytes

/-- Which valid record, the oldest being 0, lies at a byte offset. -/
def State.spIndex (s : State) (off : Nat) : Nat := (off + s.spBytes - s.spOff 0) % max 64 s.spBytes / 64

/-- A record's 64 bytes (R346). -/
def spRecord (r : SpRec) : List Byte :=
  let b := leBytes 4 r.seq ++ leBytes 1 r.kind ++ leBytes 1 r.flags ++ leBytes 2 r.src ++ leBytes 8 r.lt
    ++ (r.payload ++ List.replicate 44 0#8).take 44
  b ++ leBytes 4 (crc32c b)

/-- FROZEN is entered (R348). -/
def State.spFreezeNow (s : State) : State :=
  (s.setF fMSG_SP_STATUS_STATE spFROZEN).hostEv evHOST_SP_FROZEN 1 srcMSG (s.getF fMSG_SP_STATUS_TRIG_SRC)

/-- The record at the mark has been overwritten; `seq` is its number. -/
def State.spMarkGone (s : State) (seq : Nat) : State :=
  let s := (s.setF fMSG_SP_STATUS_MARK_VALID 0).raise fMSG_SP_STATUS_MARK_LOST rMSG_MARK_LOST_COUNT
  s.hostEv evHOST_SP_MARK_LOST 2 srcMSG seq

/-- What the writer's overwriting of the record at `off`, number `seq`, does to the mark and the read pointer (R347). -/
def State.spOverwrite (s : State) (off seq : Nat) : State :=
  let s := if s.isF fMSG_SP_STATUS_MARK_VALID ∧ s.regN rMSG_SP_MARK_PTR = off then s.spMarkGone seq else s
  if s.regN rMSG_SP_RD_PTR = off then
    (s.setRegN rMSG_SP_RD_PTR (s.spOff 0)).raise fMSG_SP_STATUS_RD_OVERTAKEN rMSG_RD_OVERTAKEN_COUNT
  else s

/-- In POST: does the record numbered `seq` follow the freeze marker? -/
def State.spAfter (s : State) (seq : Nat) : Bool :=
  let d : Word := BitVec.ofNat 32 seq - s.reg rMSG_SP_TRIG_SEQ
  s.spState == spPOST && d != 0 && decide (0 < d.toInt)

/-- A record after the marker has been written: half the ring ends POST. -/
def State.spHalf (s : State) : State :=
  let s := s.updSpool (fun p => { p with sinceTrig := p.sinceTrig + 64 })
  if s.spBytes ≤ 2 * s.spool.sinceTrig then s.spFreezeNow else s

/-- A record goes into the ring. -/
def State.spWriteRec (s : State) (r : SpRec) : State :=
  let off := s.regN rMSG_SP_WR_PTR
  let old := if s.spool.ring.length < s.spCap then none else s.spool.ring.head?
  let s := s.writeMem (s.spBase + off) (spRecord r)
  let s := s.updSpool (fun p => { p with ring := (if old.isSome then p.ring.drop 1 else p.ring) ++ [r.seq] })
  let s := (s.setRegN rMSG_SP_WR_PTR ((off + 64) % s.spBytes)).setRegN rMSG_SP_SEQ_NEWEST r.seq
  let s := s.setRegN rMSG_SP_SEQ_OLDEST (s.spool.ring.headD 0)
  let s := match old with
    | some seq => s.spOverwrite off seq
    | none => s
  if s.spAfter r.seq then s.spHalf else s

/-- A record of the writer's buffer is read, with whatever an injection did to it: true when it is lost (R387, region 10). -/
def State.bufCheck (s : State) (seq : Nat) : Bool × State :=
  match s.spool.hurt.find? (fun q => q.1 = seq) with
  | none => (false, s)
  | some q => (s.updSpool (fun p => { p with hurt := p.hurt.erase q })).synFound 10 q.2

/-- A record that leaves the writer's buffer: lost and counted, or in the ring. -/
def State.spDrain (s : State) (r : SpRec) : State :=
  let (lost, s) := s.bufCheck r.seq
  if lost then s.bump rMSG_SP_LOSS_COUNT
  else if s.spState = spFROZEN then s.bump rMSG_SP_FROZEN_DROP_COUNT
  else s.spWriteRec r

/-- SPOOL_WRITE: the oldest record of the writer's buffer. -/
def execSpoolWrite (s : State) : Res :=
  .next (match s.spool.buf with
    | [] => s
    | r :: t =>
      if s.spState = spOFF ∨ s.spCap = 0 then s
      else
        (s.updSpool (fun p => { p with buf := t })).spDrain r)

/-- The firmware's trace records, which stop at shed level 2 (R16): whether it writes one at a tick, from which source and what, is open
(log 50). -/
def State.traceStep (s : State) : State :=
  if s.isF fMSG_SP_CFG_EN = false ∨ s.fwRuns = false ∨ 2 ≤ s.shed then s
  else
    let (v, s) := s.fresh
    if v.getLsbD 0 then
      let ws := (List.range 11).map (fun k => Config.freeWord (s.draws + k))
      (s.drawn 11).spoolPut 2 0 (v.toNat / 65536) (wordBytes ws)
    else s

/-! ### The reader (R347) -/

/-- The record at `off` into the window. -/
def State.spLoad (s : State) (off : Nat) : State :=
  let ((bs, _), s) := s.readMem (s.spBase + off) 64
  (s.setRegWords (rMSG_SP_WIN 0) (leWords bs)).setRegN rMSG_SP_RD_PTR off

def State.spOldest (s : State) : State := if s.spool.ring.isEmpty then s else s.spLoad (s.spOff 0)

/-- NEXT: at the newest record nothing changes. -/
def State.spNext (s : State) : State :=
  let i := s.spIndex (s.regN rMSG_SP_RD_PTR)
  if s.spool.ring.length ≤ i + 1 then s else s.spLoad (s.spOff (i + 1))

def State.spSetMark (s : State) : State :=
  if s.spState = spOFF then s
  else (s.setRegN rMSG_SP_MARK_PTR (s.regN rMSG_SP_RD_PTR)).setF fMSG_SP_STATUS_MARK_VALID 1

def State.spRewind (s : State) : State :=
  if s.spState = spOFF then s
  else if s.isF fMSG_SP_STATUS_MARK_VALID then s.spLoad (s.regN rMSG_SP_MARK_PTR)
  else (s.raise fMSG_SP_STATUS_REWIND_FAIL rMSG_REWIND_FAIL_COUNT).spOldest

/-- REARM (R348). -/
def State.spRearm (s : State) : State :=
  if s.spState = spFROZEN then (s.setF fMSG_SP_STATUS_STATE spRECORDING).hostEv evHOST_SP_REARMED 3 srcMSG 0 else s

/-- A write of SP_CMD. -/
def State.spCmd (s : State) (v : Nat) : State :=
  match v with
  | 1 => s.spNext
  | 2 => s.spOldest
  | 3 => s.spSetMark
  | 4 => s.spRewind
  | 5 => s.spoolTrigger 5
  | 6 => s.spRearm
  | _ => s

def execSpNext (s : State) : Res := .next (s.viaReg (rMSG_SP_CMD) (fun s => s.spCmd 1))
def execSpOldest (s : State) : Res := .next (s.viaReg (rMSG_SP_CMD) (fun s => s.spCmd 2))
def execSpSetMark (s : State) : Res := .next (s.viaReg (rMSG_SP_CMD) (fun s => s.spCmd 3))
def execSpRewind (s : State) : Res := .next (s.viaReg (rMSG_SP_CMD) (fun s => s.spCmd 4))
def execSpFreeze (s : State) : Res := .next (s.viaReg (rMSG_SP_CMD) (fun s => s.spCmd 5))
def execSpRearm (s : State) : Res := .next (s.viaReg (rMSG_SP_CMD) (fun s => s.spCmd 6))

/-- SP_FROZEN: SP_CFG.POST of lamp time has passed since the trigger. -/
def execSpFrozen (s : State) : Res := .next (if s.spState = spPOST then s.spFreezeNow else s)

/-- The records that the ring holds with numbers from `first` on, at most `n` numbers (SPOOL_READ, R336). -/
def State.spRead (s : State) (first n : Nat) : List Byte × State :=
  (s.spool.ring.zipIdx.filter (fun q => decide ((q.1 + 2 ^ 32 - first) % 2 ^ 32 < n))).foldl (fun (acc, s) q =>
    let ((bs, _), s) := s.readMem (s.spBase + s.spOff q.2) 64
    (acc ++ bs, s)) ([], s)

end Sys2Proof.Machine
end

