-- ==== Sys2Proof/Machine/Startup.lean ====
section
/-! DEFINITION. Start-up (R58 to R72, R75): resets and wakes, the boot ROM's steps, the self-tests and switch tests, the
fallback beam, DRAM and calibration maps, the handover, and the end of a start. -/

namespace Sys2Proof.Machine

/-! ### Resets (R59, R60, R403, R431) -/

def retSize : Nat := 0x10000

/-- The part of memory that lies in the retention SRAM. -/
def State.retMem (s : State) : List Host.Cell :=
  s.mem.filter (fun c => decide (retBase ≤ c.1 ∧ c.1 < retBase + retSize))

def State.retSynd (s : State) : List (Nat × Nat) :=
  s.ecc.synd.filter (fun c => decide (retBase ≤ c.1 ∧ c.1 < retBase + retSize))

/-- Everything outside the always-on domain in its reset state; memory keeps `mem` with its syndromes. -/
def State.coreReset (s : State) (mem : List Host.Cell) (synd : List (Nat × Nat)) : State :=
  let w := s.reg rPWR_WAKE_FAIL_CAUSE
  let z : State := { State.reset with
    pending := s.pending, part := s.part, stepping := s.stepping, draws := s.draws, otp := s.otp, store := s.store,
    mem := mem, ecc := { synd := synd }, rdata := s.rdata, time := { now := s.time.now },
    loader := { flashA := s.loader.flashA, flashB := s.loader.flashB },
    faultN := s.faultN.filter (fun c => decide (c = .pg) || decide (c = .fio)) }
  z.setReg rPWR_WAKE_FAIL_CAUSE w

/-- PMIC_EN goes high: t = 0 (R58); `source` of the wake and the state it left. -/
def State.pmicOn (s : State) (cause left source : Nat) : State :=
  let s := s.updBoot (fun b => { b with phase := .waitPg, t0 := s.time.now, pmicEn := true, pmicAt := none, pgTries := 0 })
  let s := (s.setF fTOP_RESET_CAUSE_CAUSE cause).setRegN rPWR_WAKE_SRC (16 * left + source)
  (s.setF fPWR_PWR_STATUS_CURRENT 0).post evPOWER_WAKE srcPWR (16 * left + source)

/-- A start from OFF. -/
def State.startOff (s : State) (source : Nat) : State := (s.coreReset [] []).pmicOn 0 4 source

/-- A wake from DEEP_SLEEP: warm when DRAM was kept (R73). -/
def State.startDeep (s : State) (source : Nat) : State :=
  (s.updBoot (fun b => { b with warm := s.pwr.keep })).pmicOn 1 3 source

/-- WAKE_N accepted. -/
def State.wakeN (s : State) : State :=
  if s.boot.aon = false then s
  else if s.boot.phase = .off then
    if s.getF fPWR_PWR_STATUS_CURRENT = 3 then s.startDeep 1 else s.startOff 1
  else s.wakeNote 1

def execWakeN (s : State) : Res := .next s.wakeN

/-- PMIC_EN is high again after the 10 ms between two attempts (R60). -/
def State.pmicBack (s : State) : State := s.updBoot (fun b => { b with pmicEn := true, pmicAt := none })

/-- A tick ends those 10 ms. -/
def State.pmicStep (s : State) : State :=
  match s.boot.pmicAt with
  | some t => if t ≤ s.time.now then s.pmicBack else s
  | none => s

/-- PORST_N rises: the FIO starts. The boot rails are good, so that PMIC_EN is high. -/
def execPorstNRise (s : State) : Res :=
  .next (if s.boot.phase ≠ .waitPg then s
    else
      let s := s.pmicBack.updBoot (fun b => { b with phase := .waitFio, fioTries := 0 })
      s.setF fTOP_START_STATUS_BOOT_RAILS 1)

/-- PORST_N low for 10 µs or more: a reset, and the start again from R59. -/
def execPorstNLow (s : State) : Res :=
  .next (if s.boot.porst = false ∧ s.boot.phase ≠ .waitFio then s
    else
      let s := s.coreReset s.retMem s.retSynd
      let s := s.updBoot (fun b => { b with phase := .waitPg, t0 := s.time.now, pmicEn := true })
      s.setF fTOP_RESET_CAUSE_CAUSE 2)

/-- The start ends in OFF with a cause in WAKE_FAIL_CAUSE (R60, R61, R414). -/
def State.wakeFail (s : State) (cause : Nat) (c : FaultCause) : State :=
  let left := if s.getF fPWR_WAKE_SRC_LEFT = 3 then 3 else 4
  let s := (s.coreReset [] []).assertFault c
  let s := s.setRegN rPWR_WAKE_FAIL_CAUSE (2 ^ 31 + 2 ^ 16 * left + 4 * 2 ^ 8 + cause)
  s.setF fPWR_PWR_STATUS_CURRENT 4

/-- PG_TIMEOUT: PMIC_EN, which is high while PORST_N is awaited, goes low for 10 ms before the next attempt (log 157). -/
def execPgTimeout (s : State) : Res :=
  .next (if s.boot.phase ≠ .waitPg then s
    else if s.boot.pgTries < 3 then
      (s.updBoot (fun b => { b with pgTries := b.pgTries + 1, pmicEn := false, pmicAt := some (s.time.now + ticksMs 10) })).bumpF
        fTOP_RESET_CAUSE_PG_RETRIES 1
    else s.wakeFail 1 .pg)

/-- FIO_CHECK; internal reset is released, and the core, SC with it, starts on the FIO (R61, R412). -/
def execFioCheck (ok : Bool) (s : State) : Res :=
  .next (if s.boot.phase ≠ .waitFio then s
    else if ok then
      let s := (s.updBoot (fun b => { b with phase := .waitRefclk, porst := true })).setF fTOP_START_STATUS_FIO_OK 1
      (s.setF fSAFETY_STATUS_SC_ON_FIO 1).otpShow
    else if s.boot.fioTries < 3 then
      (s.updBoot (fun b => { b with fioTries := b.fioTries + 1 })).bumpF fTOP_RESET_CAUSE_FIO_RETRIES 1
    else s.wakeFail 2 .fio)

/-! ### The boot ROM (R45, R62 to R65) -/

/-- The source of a BOOT event (R74). -/
def State.bootEv (s : State) (k : EvKind) (data : Nat) : State :=
  s.post k (if s.boot.fwStarted then srcMC0 else srcROM) data

/-- A flash image that fails: the load error, and the BOOT event. -/
def State.imageFail (s : State) (k : EvKind) (r : Nat × Nat) : State :=
  (s.loadError r.1 r.2).bootEv k (65536 * r.2 + r.1)

/-- Phase 1 is applied: VERIFY_ENV, and the PMIC's identity is read next. -/
def State.toVerify (s : State) : State := (s.setBs bsVERIFY_ENV).updBoot (fun b => { b with phase := .waitPmic })

/-- A flash image is staged and loaded (R45, R46). -/
def State.loadFlash (s : State) (f : Flash) (image : Nat) : Option (Nat × Nat) × State :=
  (s.stageFile 0 f.bytes).loadPhase1 f.bytes f.contents image

/-- Images A and B in turn (R45). -/
def State.bootLoad (s : State) : State :=
  match s.loadFlash s.loader.flashA 0 with
  | (none, s) => s.toVerify
  | (some r, s) =>
    let s := s.imageFail evBOOT_IMAGE_A_FAIL r
    match s.loadFlash s.loader.flashB 1 with
    | (none, s) => s.toVerify
    | (some r, s) =>
      let s := (s.imageFail evBOOT_IMAGE_B_FAIL r).assertFault .flash
      (s.setBs bsWAIT_HOST).updBoot (fun b => { b with phase := .waitHost })

/-- Is the count of REFCLK edges in 20 µs within 100 MHz ±10 % (R64)? -/
def refclkOk (edges : Nat) : Bool := decide (1800 ≤ edges) && decide (edges ≤ 2200)

/-- REFCLK is confirmed. -/
def State.refclkFound (s : State) : State :=
  (s.updBoot (fun b => { b with refclk := true })).setF fTOP_START_STATUS_REFCLK_OK 1

/-- The result of the first count. -/
def State.refclkFirst (s : State) (edges : Nat) : State :=
  if refclkOk edges then s.refclkFound
  else ((s.setF fTOP_START_STATUS_DEGRADED_CLK 1).assertFault .degraded).bootEv evBOOT_DEGRADED_CLK edges

/-- REFCLK_CHECK; a warm wake goes on from the retention image instead of the flash. -/
def execRefclkCheck (edges : BitVec 16) (s : State) : Res :=
  .next (if s.boot.phase ≠ .waitRefclk then s
    else
      let s := s.refclkFirst edges.toNat
      if s.boot.warm then s.updBoot (fun b => { b with phase := .waitPmic }) else s.bootLoad)

/-- Correction memory of the tiles whose maps are in DRAM is filled again. -/
def State.refill (s : State) : State :=
  (List.range 4).foldl (fun s n =>
    if s.boot.mapOk.getD n false then s.refillTile n else s) s

/-- The data plane's part of a warm wake: DRAM out of self-refresh, STATE as it was, correction memory refilled (R73). -/
def State.warmData (s : State) : State :=
  let s := (s.updBoot (fun b => { b with warmDue := false })).setF fTOP_START_STATUS_DRAM_READY 1
  let s := match s.boot.resume with
    | some v => (s.setBs v).updBoot (fun b => { b with resume := none })
    | none => s
  let s := if s.bsState = bsRUNNING then s.setF fTOP_START_STATUS_RUNTIME_DONE 1 else s
  (s.updPwr (fun p => { p with selfRefresh := false })).refill.mapReads

/-- A warm wake takes up its data plane once the firmware runs, both self-tests have reported and the PLLs have locked (R64, R73). -/
def State.warmGo (s : State) : State :=
  if s.boot.warmDue ∧ s.boot.fwStarted ∧ s.boot.scRun ∧ s.boot.ttRun ∧ s.pllsUp then s.warmData else s

/-- REFCLK_RECHECK: the start goes on from the lock of the PLLs. -/
def execRefclkRecheck (edges : BitVec 16) (s : State) : Res :=
  .next (if s.isF fTOP_START_STATUS_DEGRADED_CLK = false ∨ refclkOk edges.toNat = false then s
    else ((s.setF fTOP_START_STATUS_DEGRADED_CLK 0).releaseFault .degraded).refclkFound.bootEv evBOOT_REFCLK_RECOVERED 0)

/-- Bring-up of the ports that STRUCTURE declares, once VDD_ZTL is good and the ZTL PLL locked (R69); after a wake, of those
named for it (R408). -/
def State.portsUp (s : State) : State :=
  if s.boot.fwStarted = false ∨ s.boot.pll.getD 4 false = false then s
  else (List.range 4).foldl (fun s n => if s.boot.warm && !s.pwr.tiles.testBit n then s else s.enableOp n) s

/-- The management firmware starts: events held by the boot ROM follow in order (R63), and the SPI channel's STATE (R336). -/
def State.fwStart (s : State) : State :=
  let l := s.boot.held
  let s := s.updBoot (fun b => { b with phase := .started, fwStarted := true, held := [] })
  let s := s.pushHeld l
  (s.stateRec 2 1 0).portsUp.heard

/-- The rail sequence is complete. -/
def State.railsDone (s : State) : State := (s.setF fTOP_START_STATUS_RAILS_DONE 1).fwStart

/-- The load is refused: the declared environment is not the one found (R49). -/
def State.envFail (s : State) : State :=
  let s := (s.loadError errEnvMismatch (secIndex 2 s.loader.img.table)).updLoader (fun x => { x with failed := true })
  (s.setBs bsFAILED).assertFault .env

/-- Rails and firmware already run when a bit-stream is pushed after a failure in phase 2 (R48): its environment is verified against
what the start has found. -/
def State.envAgain (s : State) : State :=
  let s := s.updBoot (fun b => { b with phase := .started })
  if s.isF fTOP_START_STATUS_DRAM_READY ∧ 2 * min s.boot.dramMib.1 s.boot.dramMib.2 < s.loader.cfg.bd.dramMiB then s.envFail
  else s

/-- PMIC_IDENTITY_READ (R49). -/
def execPmicIdentityRead (id : Nat) (s : State) : Res :=
  .next (if s.boot.phase ≠ .waitPmic ∨ s.boot.warm then s
    else if id = s.loader.cfg.bd.pmicId then
      if s.isF fTOP_START_STATUS_RAILS_DONE then s.envAgain
      else
      let s := s.updBoot (fun b => { b with phase := .rails, railStep := 0, railsOn := [] })
      if s.loader.cfg.bd.rails.isEmpty then s.railsDone else s
    else s.envFail.updBoot (fun b => { b with phase := .halted }))

/-- RAIL_POWER_GOOD: the rail of the step is good. -/
def execRailPowerGood (s : State) : Res :=
  .next (if s.boot.phase ≠ .rails then s
    else
      let k := s.boot.railStep
      let rail := ((s.loader.cfg.bd.rails[k]?).map RailStep.rail).getD 0
      let s := s.updBoot (fun b => { b with railStep := k + 1, railsOn := b.railsOn ++ [rail] })
      if s.loader.cfg.bd.rails.length ≤ k + 1 then s.railsDone else s)

/-- RAIL_FAIL. -/
def execRailFail (s : State) : Res :=
  .next (if s.boot.phase ≠ .rails then s
    else
      let k := s.boot.railStep
      let s := s.updBoot (fun b => { b with railsOn := [], phase := .halted })
      ((s.setBs bsFAILED).assertFault .rail).bootEv evBOOT_RAIL_FAIL (k % 16))

/-- The FRC after a DEEP_SLEEP (R298, R411): its value at entry plus the SLOW cycles counted; the residual has slewed through the
sleep, and armed entries are examined again (by the warm start where they are not back yet). A SLOW period that was never measured leaves the count open. -/
def State.frcResume (s : State) : State :=
  let p := s.pwr
  let (v, s) := if p.period = 0 then s.fresh else (0#32, s)
  let slept := if p.period = 0 then v.toNat else 256 * (s.time.now - p.nowAt) / p.period * p.period / 256
  let r := s.time.resid
  let less : Int := (2 ^ 30 * (slept * 5) : Nat)
  let r := if 0 ≤ r then r - min r less else r + min (-r) less
  let s := ({ s with time := { s.time with frc := (p.frcAt + slept) % 2 ^ 64, frcRun := true } } : State).setResid r
  if s.boot.warm ∧ s.boot.fwStarted = false then s else s.schedStep

/-- The FRC starts at 0, or resumes after a wake from DEEP_SLEEP. -/
def State.frcStart (s : State) : State :=
  if s.getF fTOP_RESET_CAUSE_CAUSE = 1 then s.frcResume else { s with time := { s.time with frcRun := true } }

/-- PLL_LOCK: 0 SYS, 1 PIX, 2 BE, 3 TIME, 4 ZTL, 5 DDR. On the first lock of TIME the FRC starts (R298). -/
def execPllLock (p : Fin 6) (s : State) : Res :=
  .next (if s.boot.refclk = false ∨ 2 ≤ s.boot.pllTries.getD p 0 then s
    else
      let s := s.updBoot (fun b => { b with pll := b.pll.set p true, pllTries := b.pllTries.set p 0 })
      let s := if p = 3 ∧ s.time.frcRun = false then s.frcStart else s
      let s := if p = 0 then s.setF fSAFETY_STATUS_SC_ON_FIO 0 else s
      (if p = 4 then s.portsUp else s).warmGo)

/-! ### Self-tests and switches (R66, R67) -/

/-- SELFTEST_DONE: Tether's (`tt`) or SC's self-test. -/
def execSelftestDone (tt pass : Bool) (s : State) : Res :=
  .next (if s.boot.fwStarted = false then s
    else
      let s := s.updBoot (fun b => if tt then { b with ttPass := pass, ttRun := true } else { b with scPass := pass, scRun := true })
      let s := (s.setB fTOP_START_STATUS_SELFTEST_PASS (s.boot.scPass && s.boot.ttPass)).warmGo
      if pass then
        let s := [0, 1].foldl (fun s n =>
          let f := if tt then fSAFETY_ACT_STATUS_TT_PERMITS n else fSAFETY_ACT_STATUS_SC_PERMITS n
          if s.isF (fSAFETY_ACT_CFG_EN n) ∧ s.faults.testBit (11 + n) = false then s.setF f 1 else s) s
        s.setF (if tt then fSAFETY_STATUS_TT_LOST else fSAFETY_STATUS_SC_LOST) 0
      else
        let s := if tt then s.latchTt 14 else s.latchSc 14
        (s.assertFault (if tt then .selftestTT else .selftestSC)).sfEv evSAFETY_SELFTEST_FAIL tt.toNat
          (if tt then srcTT else srcSC) (if tt then 2 else 1))

/-- Has tile n tests to run: it has not failed one, is not held dark, and after a wake is one of those to be lit? -/
def State.swPending (s : State) (n : Nat) : Bool :=
  decide (n < s.tiles) && !s.boot.swFail.getD n false && decide (s.swNext n < 4)
    && (decide (s.ssOf n < 2) || (s.safeT n).retest) && (!s.boot.warm || s.pwr.tiles.testBit n || s.zActive n)

/-- May the next switch test of tile n run: both self-tests have reported, both switches are open, the interlock is closed? -/
def State.swTestMay (s : State) (n : Nat) : Bool :=
  let t := s.safeT n
  s.boot.fwStarted && s.boot.scRun && s.boot.ttRun && s.swPending n && !t.hs && !t.ls && s.sinBoth 0

/-- The tile has failed a test and stays dark. -/
def State.swTestFail (s : State) (n : Nat) (low closed : Bool) : State :=
  (s.updBoot (fun b => { b with swFail := b.swFail.set n true })).switchFail n low closed

/-- Are the switches of tile n to be closed: its tests have passed, and it is neither held dark nor, with both channels permitting,
handed over directly? -/
def State.swCloses (s : State) (n : Nat) : Bool :=
  s.boot.swDue.getD n false && !(s.directTile n && s.boot.scPass && s.boot.ttPass) && (decide (s.ssOf n < 2) || (s.safeT n).retest)

/-- SC closes the high side of tile n, Tether the low side, each after its own tests (R67). -/
def State.swClose (s : State) (n : Nat) : State :=
  let s := s.updBoot (fun b => { b with swDue := b.swDue.set n false })
  let s := if s.boot.scPass then s.setHs n true else s
  if s.boot.ttPass then s.setLs n true else s

/-- No supply switch closes before every tile's tests have run (R66). -/
def State.swCloseAll (s : State) : State :=
  if (List.range 4).any s.swPending then s
  else (List.range 4).foldl (fun s n => if s.swCloses n then s.swClose n else s) s

/-- A test that has not failed: after the last one the tile waits for its switches to be closed. -/
def State.swTestPass (s : State) (n : Nat) : State :=
  if s.swNext n < 4 then s else s.updBoot (fun b => { b with swDue := b.swDue.set n true })

/-- The result of test k of tile n. Each channel reads its own switch. -/
def State.swTest (s : State) (n k : Nat) (a b : Bool) : State :=
  let s := s.updBoot (fun x => { x with swStep := x.swStep.set n (k + 1) })
  if k = 0 then
    let s := s.updSafeT n (fun t => (t.readHs a).readLs b)
    if a && s.boot.scPass then s.swTestFail n false true
    else if b && s.boot.ttPass then s.swTestFail n true true
    else s.swTestPass n
  else if k = 3 then if a then s.swTestFail n true true else s.swTestPass n
  else if a = false then s.swTestFail n (k == 2) false
  else if b then s.swTestFail n (k == 2) true
  else s.swTestPass n

/-- STARTUP_SWITCH_TEST: the result of the tile's next test. -/
def execStartupSwitchTest (n : Fin 4) (a b : Bool) (s : State) : Res :=
  .next (if s.swTestMay n = false then s else (s.swTest n (s.swNext n) a b).swCloseAll)

/-- FB_EN_ASSERT: both read-backs of a tested tile show closed. -/
def execFbEnAssert (n : Fin 4) (s : State) : Res :=
  let t := s.safeT n
  .next (if s.boot.ttPass = false ∨ s.swNext n ≠ 4 ∨ s.boot.swFail.getD n false ∨ s.directTile n
        ∨ t.hs = false ∨ t.ls = false ∨ t.hsFbT = false ∨ t.lsFbT = false ∨ (s.portOf n).fbPin
        ∨ s.boot.handover.getD n 0 ≠ 0 ∨ (s.getF fTOP_START_STATUS_TILES_FULL).testBit n ∨ 2 ≤ s.ssOf n ∧ (s.safeT n).retest = false then s
    else (s.setFb n true).leaveDark n)

/-- FB_LATE: the first FB_EN_n comes later than 45 ms after t = 0. -/
def execFbLate (s : State) : Res :=
  let t := s.getF fTOP_START_TIMES_FB_TIME
  .next (if s.boot.porst = false ∨ s.boot.warm ∨ t ≤ 450 then s
    else s.bootEv evBOOT_FB_LATE (if t = 0xFFFF then s.sinceStart else t))

/-- FULL_BEAM_LATE: no full beam; the data word names the first tile still in fallback, and is open where there is none. -/
def execFullBeamLate (s : State) : Res :=
  .next (if s.boot.porst = false ∨ s.boot.warm ∨ s.getF fTOP_START_TIMES_FULL_TIME ≠ 0xFFFF then s
    else match (List.range s.tiles).find? s.inFallback with
      | some n => s.bootEv evBOOT_FULL_BEAM_LATE n
      | none =>
        let (v, s) := s.fresh
        s.bootEv evBOOT_FULL_BEAM_LATE v.toNat)

/-! ### DRAM, calibration maps, life records (R49, R69, R70, R289, R292) -/

/-- DRAM_EXTRA of each channel that holds more than its half of the declared size S (R49, R456). -/
def State.dramExtra (s : State) (mib : Nat × Nat) : State :=
  [(0, mib.1), (1, mib.2)].foldl (fun s c =>
    if s.loader.cfg.bd.dramMiB < 2 * c.2 then s.post evCONFIG_DRAM_EXTRA srcBSTREAM (65536 * (c.2 % 65536) + c.1) else s) s

/-- DRAM_TRAINED: `fail` names the channels that failed, `mib` holds the densities found on the two channels. S is
declared for both together, so that each is held to half of it. -/
def execDramTrained (fail : BitVec 2) (mib : Nat × Nat) (s : State) : Res :=
  .next (if s.boot.fwStarted = false ∨ s.boot.refclk = false ∨ s.pllsUp = false ∨ s.isF fTOP_START_STATUS_DRAM_READY ∨ s.bsState ≠ bsVERIFY_ENV then s
    else if fail ≠ 0 then
      if s.boot.dramTries = 0 then s.updBoot (fun b => { b with dramTries := 1 })
      else ((s.setBs bsFAILED).assertFault .dram).bootEv evBOOT_DRAM_TRAIN_FAIL fail.toNat
    else if 2 * min mib.1 mib.2 < s.loader.cfg.bd.dramMiB then s.envFail
    else
      let s := ((s.updBoot (fun b => { b with dramMib := mib })).dramExtra mib).setF fTOP_START_STATUS_DRAM_READY 1
      s.mapReads)

/-- The bytes of tile n's calibration map as read into DRAM, and whether one of their words is lost. -/
def State.mapBytes (s : State) (n size : Nat) : (List Byte × Bool) × State :=
  let ((p, u), s) := s.readMem (s.recTable n 0) (min size 0x200000)
  if s.hasSpares n then
    let ((q, v), s) := s.readMem (s.recTable n 1) (size - 0x200000)
    ((p ++ q, u || v), s)
  else ((p, u), s)

/-- The words of the valid life record, with its number shown in LIFE_SEQ; one whose content fails is not used (R294). -/
def State.lifeRead (s : State) (n : Nat) : Option (Nat × List Byte) → List Byte × State
  | none => ([], s.setF (fZTL_NV_STATUS_LIFE_SEQ n) 0)
  | some (q, w) =>
    let s := s.setF (fZTL_NV_STATUS_LIFE_SEQ n) q
    if lifeOk w then (w, s) else ([], s.hlEv evHEALTH_LR_INVALID n 0)

/-- The accounts of a tile new to the controller start from its life record: its blocks' means (R294). -/
def State.lifeFresh (s : State) (n : Nat) (w : List Byte) : State :=
  let s := (s.kinds n).foldl (fun s k => s.putDram (s.offAddr n k 0) (List.replicate 512 0)) s
  let s := s.ageSet n (fun k b => if w = [] then 0 else lifeMean w k b)
  (s.updHl n (fun h => { h with accOk := true })).setF fHEALTH_STATUS_ACC_VALID 1

/-- The life record read takes effect: a replacement's block accounts come from it, any other tile's from the store. -/
def State.takeLife (s : State) (n : Nat) : State :=
  let (w, s) := s.lifeRead n (lifeValid (s.portOf n).lifeA (s.portOf n).lifeB)
  let s := s.lifeApply n w
  if (s.hl n).fresh then s.lifeFresh n w else (s.ageSet n (s.blockAcct n)).ckptTake n

/-- A map that fails its check is read again, up to two more times; then the tile stays in its fallback beam, or takes it
where it was to be handed over directly. -/
def State.mapFailed (s : State) (n : Nat) : State :=
  let k := s.boot.mapTries.getD n 0 + 1
  let s := s.updBoot (fun b => { b with mapTries := b.mapTries.set n k })
  if k < 3 then s.startMapRead n
  else
    let s := s.updBoot (fun b => { b with mapFail := b.mapFail.set n true })
    let s := (s.dropDirect n).swCloseAll
    let s := if s.lit n then s.setFb n true else s
    s.hlEv evHEALTH_CAL_MAP_FAIL n 0

/-- Correction memory is filled from the tables, or one of their words is lost. -/
def State.mapFilled (s : State) (n : Nat) (ok : Bool) : State :=
  if ok then
    let s := s.updBoot (fun b => { b with mapOk := b.mapOk.set n true })
    (s.dropRanges n).updPort n (fun p => { p with selStage := 0, selTries := 0, mapRead := false })
  else s.mapFailed n

/-- Correction memory is filled, and the selection map is to be loaded. -/
def State.mapFill (s : State) (n : Nat) : State :=
  let r := s.fillAll n
  r.2.mapFilled n r.1

/-- CAL_MAP_READ. -/
def execCalMapRead (n : Fin 4) (s : State) : Res :=
  .next (match (s.portOf n).caps with
    | none => s
    | some c =>
      if (s.portOf n).mapRead = false ∨ s.isF fTOP_START_STATUS_DRAM_READY = false ∨ s.boot.mapFail.getD n false then s
      else
        let ((bs, ue), s) := s.mapBytes n c.mapSize
        if ue ∨ crc32c bs ≠ c.mapCrc then s.mapFailed n else (s.takeLife n).mapFill n)

/-! ### The handover and the end of a start (R71, R73, R75, R408) -/

/-- A tile that was dark takes the full beam directly: its switches close and TG_n starts. -/
def State.directStart (s : State) (n : Nat) : State :=
  let s := (((s.setHs n true).setLs n true).setHandover n 2).dropDirect n
  let s := s.updBoot (fun b => { b with swDue := b.swDue.set n false })
  if s.tgState n = tgOFF ∧ (s.tgOf n).startWait = false then s.tgStart n else s

/-- HANDOVER_START. -/
def execHandoverStart (n : Fin 4) (s : State) : Res :=
  .next (if s.directTile n then
      if s.tileReady n ∧ s.boot.scPass ∧ s.boot.ttPass ∧ s.swNext n = 4 ∧ s.boot.swFail.getD n false = false
          ∧ (List.range 4).any s.swPending = false then s.directStart n else s
    else s.handoverStart n)

/-- Can tile n still reach the full beam in this start, and has not? -/
def State.tilePending (s : State) (n : Nat) : Bool :=
  decide (2 ≤ s.zState n) && !(s.portOf n).refused && !s.boot.mapFail.getD n false && !s.boot.swFail.getD n false
    && decide (s.ssOf n < 2) && !(s.getF fTOP_START_STATUS_TILES_FULL).testBit n

/-- Has the start completed: RUNNING with no tile on its way to the full beam (log 59)? -/
def State.startComplete (s : State) : Bool :=
  s.boot.fwStarted && !s.boot.done && s.bsState == bsRUNNING && s.boot.scPass && s.boot.ttPass
    && !(List.range s.tiles).any s.tilePending

/-- The start completes: FAULT_N is released as far as the start held it, WAKE_FAIL, START_DONE. -/
def State.startDone (s : State) : State :=
  if s.startComplete = false then s
  else
    let s := s.updBoot (fun b => { b with done := true })
    let s := [FaultCause.flash, .pg, .fio, .dram, .rail].foldl State.releaseFault s
    let s := if s.isF fPWR_WAKE_FAIL_CAUSE_VALID then s.post evPOWER_WAKE_FAIL srcPWR (s.regN rPWR_WAKE_FAIL_CAUSE) else s
    s.bootEv evBOOT_START_DONE (s.regN rTOP_START_TIMES)

end Sys2Proof.Machine
end

