-- ==== Sys2Proof/Machine/MemCrc.lean ====
section
/-! DEFINITION. Memory integrity commands (R388, R389, R392) and the check-value units (R393 to R397). -/

namespace Sys2Proof.Machine

/-! ### Scrubbing and injection -/

/-- SCRUB_READ: the scrubber reads its next word of the protected window, from the first to the last, which ends a pass. -/
def execScrubRead (s : State) : Res :=
  let w := if s.wp < s.ecc.scrubAt + 4 then 0 else s.ecc.scrubAt
  .next (if s.isF fMEM_SCRUB_CFG_EN = false ∨ s.wp = 0 then s
    else
      let (_, s) := s.checkWord w
      if w + 4 = s.wp then
        let n := (s.getF fMEM_SCRUB_STATUS_PASSES + 1) % 65536
        let s := { s with ecc := { s.ecc with scrubAt := 0 } }
        ((s.setF fMEM_SCRUB_STATUS_PASSES n).setF fMEM_SCRUB_STATUS_PROGRESS 0).post evMEM_SCRUB_DONE srcMEM n
      else { s with ecc := { s.ecc with scrubAt := w + 4 } }.setF fMEM_SCRUB_STATUS_PROGRESS (1000 * w / s.wp))

/-- A safety channel's memory has lost a word: the channel enters SS1 by its own means and latches it (R387). -/
def State.chanLost (s : State) (r : Nat) : State :=
  let s := if r = 8 then s.latchSc 14 else s.latchTt 14
  (s.updSafe (fun x => { x with memLost := true })).updateSS evMEM_UE.code

/-- A word with an error in a safety channel's memory is checked: one that can be corrected is, a lost one stays (R387). -/
def State.hidCheck (s : State) (q : Nat × Nat) : State :=
  let (u, t) := s.synFound q.1 q.2
  if u then t.chanLost q.1 else { t with ecc := { t.ecc with hid := t.ecc.hid.erase q } }

/-- A record with an error that Hamper holds is checked: a lost one is discarded and counted. -/
def State.heldCheck (s : State) (c : Nat × Ev) : State :=
  let (lost, s) := s.evtCheck c
  if lost then (s.updHamper (fun h => { h with held := h.held.erase c })).evtLose c else s

/-- A record with an error in an outbox or in the Spool writer's buffer is checked: a lost one is discarded and counted. -/
def State.boxScan (s : State) : State :=
  match s.hamper.outbox.find? (fun c => s.hamper.boxHurt.any (fun q => q.1 == c.2)), s.spool.hurt with
  | some c, _ =>
    let (lost, s) := s.boxCheck c.2
    if lost then (s.updHamper (fun h => { h with outbox := h.outbox.erase c })).loseEv c.2.kind.prio else s
  | none, (seq, _) :: _ =>
    let (lost, s) := s.bufCheck seq
    if lost then (s.updSpool (fun p => { p with buf := p.buf.filter (fun r => r.seq ≠ seq) })).bump rMSG_SP_LOSS_COUNT else s
  | none, [] => s

/-- Hardware reads a word of a region that the system map does not show: one with an error, if the region holds any. -/
def State.hidScan (s : State) (r : Nat) : State :=
  if r = 7 then
    match s.hamper.held.find? (fun c => s.hamper.hurt.any (fun q => q.1 == c.1)) with
    | some c => s.heldCheck c
    | none => s
  else if r = 10 then s.boxScan
  else match s.ecc.hid.find? (fun q => q.1 = r) with
    | some q => s.hidCheck q
    | none => s

/-- Hardware reads the on-chip word at `w`; in an engine's memory R101 holds too, and the retention SRAM is read while the always-on domain
has power. -/
def State.sramWord (s : State) (w : Nat) : State :=
  if eccRegion w = none ∨ eccRegion w = some 0 ∨ (eccRegion w = some 6 ∧ s.boot.aon = false) then s
  else match beWord w with
    | none => (s.checkWord w).2
    | some (n, code) =>
      let ((ue, _), s) := s.beCheck w 4
      if ue then s.engineTrap n code else s

/-- SRAM_CHECK. -/
def execSramCheck (w : SramAt) (s : State) : Res :=
  .next (match w with
    | .word a => s.sramWord (a.toNat / 4 * 4)
    | .hidden r => s.inCore (fun s => s.hidScan r))

/-- A write of ECC_INJECT; the safety channels' memories take an injection only while no tile is lit. -/
def State.eccWrite (s : State) (v : Word) : State :=
  let r := bitsOf v.toNat 24 4
  if v.getLsbD 31 ∧ (r = 8 ∨ r = 9) ∧ (List.range 4).any s.lit then s.setF fMEM_ECC_INJECT_ARM 0
  else s.setReg rMEM_ECC_INJECT (v &&& 0x8F3F3F01)

def execEccInject (v : Word) (s : State) : Res := .next (s.viaRegV (rMEM_ECC_INJECT) v (fun v s => s.eccWrite v))

/-! ### The CRC (R393) -/

/-- Width, generator, start value, reflections and final inversion, over the bytes in order. -/
def crcOf (w poly init : Nat) (refin refout finv : Bool) (bs : List Byte) : Nat :=
  crcOut w refout finv (crcRun w (poly % 2 ^ w) refin (init % 2 ^ w) bs)

def crcWidth (code : Nat) : Nat := if code = 0 then 8 else if code = 1 then 16 else 32

/-- The result of a SCAN of `bs`. -/
def CrcJob.value (j : CrcJob) (bs : List Byte) : Nat :=
  crcOf (crcWidth (bitsOf j.ctrl.toNat 16 2)) j.poly.toNat j.init.toNat (j.ctrl.getLsbD 10) (j.ctrl.getLsbD 9) (j.ctrl.getLsbD 8) bs

def CrcJob.mode (j : CrcJob) : Nat := bitsOf j.ctrl.toNat 30 2

/-- The argument errors of R395. -/
def CrcJob.bad (j : CrcJob) : Bool :=
  j.mode == 3 || bitsOf j.ctrl.toNat 16 2 == 3
    || (if j.mode = 0 then j.len == 0 else decide (j.len < 4) || decide (64 < j.len) || j.len % 4 != 0 || j.addr % 4 != 0)

/-! ### Jobs (R394 to R397) -/

def State.crcJob (s : State) (n : Nat) : Option CrcJob := tabGet (fun _ => none) s.crc n
def State.setCrcJob (s : State) (n : Nat) (j : Option CrcJob) : State := { s with crc := tabSet (fun _ => none) s.crc n j }

/-- A write that meets a job in progress (R396). -/
def State.crcBusyErr (s : State) (n : Nat) : State := s.raise (fCRC_STATUS_ERR_BUSY n) (rCRC_ERR_BUSY_COUNT n)

/-- The job ends: DONE, and CRC_DONE where the unit asks for it. -/
def State.crcEnd (s : State) (n : Nat) : State :=
  let s := ((s.setCrcJob n none).setF (fCRC_STATUS_BUSY n) 0).setF (fCRC_STATUS_DONE n) 1
  if s.isF (fCRC_CTRL_EVT n) then
    s.post evCRC_CRC_DONE srcCRC (2 ^ 30 * n + 2 ^ 12 * s.getF (fCRC_STATUS_OUTCOME n) + bitsOf (s.regN (rCRC_STATUS n)) 2 3 * 4)
  else s

/-- START. -/
def State.crcStart (s : State) (n : Nat) : State :=
  if s.isF (fCRC_STATUS_BUSY n) then s.crcBusyErr n
  else
    let j : CrcJob := ⟨s.reg (rCRC_CTRL n), s.reg (rCRC_POLY n), s.reg (rCRC_INIT n),
      s.regN (rCRC_ADDR_LO n) + 2 ^ 32 * (s.regN (rCRC_ADDR_HI n) % 256), s.regN (rCRC_LEN n), 0,
      s.regN (rCRC_INIT n) % 2 ^ crcWidth (bitsOf (s.regN (rCRC_CTRL n)) 16 2)⟩
    let s := (s.setReg (rCRC_STATUS n) (s.reg (rCRC_STATUS n) &&& 2)).setRegN (rCRC_PROGRESS n) 0
    if j.bad then (s.setF (fCRC_STATUS_ERR_ARG n) 1).crcEnd n
    else (s.setCrcJob n (some j)).setF (fCRC_STATUS_BUSY n) 1

/-- A job that stops early: RESULT is not valid; PROGRESS stays at the bytes done. -/
def State.crcStop (s : State) (n : Nat) (f : Fld) (j : CrcJob) : State :=
  let (r, s) := s.fresh
  let s := s.setF f 1
  (if j.mode = 0 then s.setReg (rCRC_RESULT n) r else s).crcEnd n

/-- R397: the comparison with the duplicated reference. -/
def State.crcCompare (s : State) (n : Nat) (j : CrcJob) (r : Nat) : State :=
  let m : Word := BitVec.ofNat 32 (2 ^ crcWidth (bitsOf j.ctrl.toNat 16 2) - 1)
  let refA := s.reg (rCRC_REF_A n)
  let refB := s.reg (rCRC_REF_B n)
  let a := refA &&& m
  let b := ~~~refB &&& m
  let r := BitVec.ofNat 32 r &&& m
  let mismatch := fun (s : State) (unresolved : Nat) =>
    ((s.setF (fCRC_STATUS_OUTCOME n) 2).bump (rCRC_DATA_MISMATCH_COUNT n)).post evCRC_DATA_MISMATCH srcCRC
      (2 ^ 30 * n + 2 ^ 11 * unresolved)
  let corrupt := fun (s : State) (wasA : Nat) =>
    ((s.setF (fCRC_STATUS_OUTCOME n) 3).bump (rCRC_REF_CORRUPT_COUNT n)).post evCRC_REF_CORRUPT srcCRC (2 ^ 30 * n + wasA)
  if a = b then if r = a then s.setF (fCRC_STATUS_OUTCOME n) 1 else mismatch s 0
  else if r = a then corrupt (s.setReg (rCRC_REF_B n) ((refB &&& ~~~m) ||| (~~~refA &&& m))) 0
  else if r = b then corrupt (s.setReg (rCRC_REF_A n) ((refA &&& ~~~m) ||| b)) 1
  else mismatch (s.setF (fCRC_STATUS_REF_UNRESOLVED n) 1) 1

/-- A SCAN or READ has reached its end: the result, and the comparison where CTRL asks for it. -/
def State.crcFinish (s : State) (n : Nat) (j : CrcJob) : State :=
  if j.mode = 1 then s.crcEnd n
  else
    let r := crcOut (crcWidth (bitsOf j.ctrl.toNat 16 2)) (j.ctrl.getLsbD 9) (j.ctrl.getLsbD 8) j.crc
    let s := s.setRegN (rCRC_RESULT n) r
    (if j.ctrl.getLsbD 4 then s.crcCompare n j r else s).crcEnd n

/-- The job with the bytes `bs` done. -/
def CrcJob.take (j : CrcJob) (bs : List Byte) : CrcJob :=
  let w := crcWidth (bitsOf j.ctrl.toNat 16 2)
  { j with done := j.done + bs.length, crc := if j.mode = 0 then crcRun w (j.poly.toNat % 2 ^ w) (j.ctrl.getLsbD 10) j.crc bs else j.crc }

/-- The next word of a SCAN or READ, as it is read at its own time (R399): the job stops at an address that is not listed, and at a word that
is lost. -/
def State.crcWord (s : State) (n : Nat) (j : CrcJob) : State :=
  let a := j.addr + j.done
  if inRegs a ∨ s.mapOk a = false then (s.busErr a).crcStop n (fCRC_STATUS_ERR_BUS n) j
  else
    let ((bs, u), s) := s.readAll a (min (j.len - j.done) (4 - a % 4))
    if u then s.crcStop n (fCRC_STATUS_ERR_UE n) j
    else
      let s := if j.mode = 1 then s.setRegWords (rCRC_DATA n (j.done / 4)) (leWords bs) else s
      let j := j.take bs
      let s := s.setRegN (rCRC_PROGRESS n) j.done
      if j.len ≤ j.done then s.crcFinish n j else s.setCrcJob n (some j)

/-- At most `k` more words. -/
def State.crcWords (s : State) (n : Nat) : Nat → State
  | 0 => s
  | k + 1 =>
    match s.crcJob n with
    | none => s
    | some j => (s.crcWord n j).crcWords n k

/-- A WRITE. -/
def State.crcPut (s : State) (n : Nat) (j : CrcJob) : State :=
  if s.inDram j.addr j.len = false then (s.busErr (if s.dramOk j.addr then s.rangeEnd j.addr else j.addr)).crcStop n (fCRC_STATUS_ERR_BUS n) j
  else
    let bs := (wordBytes (s.regWords (rCRC_DATA n 0) 16)).take j.len
    ((s.writeMem j.addr bs).setRegN (rCRC_PROGRESS n) j.len).crcEnd n

/-- The job of a check unit runs to its end. -/
def State.crcRun (s : State) (n : Nat) (j : CrcJob) : State := if j.mode = 2 then s.crcPut n j else s.crcWords n (j.len - j.done)

/-- A job goes on to the next 64-byte boundary and stops there; one that ends before it is done (log 182). -/
def State.crcToLine (s : State) (n : Nat) : Nat → State
  | 0 => s
  | k + 1 =>
    match s.crcJob n with
    | none => s
    | some j =>
      if j.mode = 2 ∨ j.done = 0 ∨ (j.addr + j.done) % 64 = 0 then s.crcStop n (fCRC_STATUS_ABORTED n) j
      else (s.crcWord n j).crcToLine n k

/-- ABORT, or the entry to SLEEP and deeper. -/
def State.crcAbortOp (s : State) (n : Nat) : State := s.crcToLine n 17

/-- A tick of a unit: whether it comes on by a word is open (log 186). -/
def State.crcStep (s : State) (n : Nat) : State :=
  match s.crcJob n with
  | none => s
  | some j =>
    if j.mode = 2 then s
    else
      let (v, s) := s.fresh
      if v.getLsbD 0 then s.crcWord n j else s

/-- A write of CMD: 1 START, 2 ABORT; other values are ignored. -/
def State.crcCmd (s : State) (n v : Nat) : State :=
  if v = 1 then s.crcStart n else if v = 2 then s.crcAbortOp n else s

/-- START in the mode that CTRL selects. -/
def State.crcStartIn (s : State) (n mode : Nat) : State := if s.getF (fCRC_CTRL_MODE n) = mode then s.crcStart n else s

def execCrcScan (n : Fin 4) (s : State) : Res := .next (s.viaReg (rCRC_CMD n) (fun s => s.crcStartIn n 0))
def execCrcRead (n : Fin 4) (s : State) : Res := .next (s.viaReg (rCRC_CMD n) (fun s => s.crcStartIn n 1))
def execCrcWrite (n : Fin 4) (s : State) : Res := .next (s.viaReg (rCRC_CMD n) (fun s => s.crcStartIn n 2))
def execCrcAbort (n : Fin 4) (s : State) : Res := .next (s.viaReg (rCRC_CMD n) (fun s => s.crcAbortOp n))

/-- CRC_DONE. -/
def execCrcDone (n : Fin 4) (s : State) : Res :=
  .next (match s.crcJob n with
    | none => s
    | some j => s.crcRun n j)

end Sys2Proof.Machine
end

