-- ==== Sys2Proof/Machine/Power.lean ====
section
/-! DEFINITION. The power-state manager (R400 to R414): requests, conditions, the steps of an entry with their abort points,
wakes, retention, time across DEEP_SLEEP, auto-depth. -/

namespace Sys2Proof.Machine

/-! ### The manager's place -/

def pwRUN : Nat := 0
def pwIDLE : Nat := 1
def pwSLEEP : Nat := 2
def pwDEEP : Nat := 3
def pwOFF : Nat := 4
def pwAUTO : Nat := 7
def pwNONE : Nat := 15

def rsDONE : Nat := 1
def rsREFUSED : Nat := 2
def rsVETO : Nat := 3
def rsABORTED : Nat := 4
def rsSUPERSEDED : Nat := 5
def rsSAME : Nat := 6

def State.pwrCur (s : State) : Nat := s.getF fPWR_PWR_STATUS_CURRENT
def State.pwrTarget (s : State) : Nat := s.getF fPWR_PWR_STATUS_TARGET
def State.pwrPhase (s : State) : Nat := s.getF fPWR_PWR_STATUS_PHASE

/-- RESULT of a request; REASON is that of a refusal only. -/
def State.pwrResult (s : State) (r why : Nat) : State := (s.setF fPWR_PWR_STATUS_RESULT r).setF fPWR_PWR_STATUS_REASON why

/-- The BE clock stops when the device leaves RUN. -/
def State.beGate (s : State) : State :=
  if s.beGated then s else s.beSettle.updPwr (fun p => { p with gateAt := s.time.now })

/-- No transition is in progress any more; the device is in state `st`. -/
def State.pwrSettle (s : State) (st : Nat) : State :=
  let s := if st = pwRUN then s else s.beGate
  ((s.setF fPWR_PWR_STATUS_PHASE 0).setF fPWR_PWR_STATUS_TARGET pwNONE).setF fPWR_PWR_STATUS_CURRENT st

/-- Does source `src` wake state `t` (R404, R406)? -/
def wakes (t src : Nat) : Bool :=
  if t = pwIDLE then [1, 3, 4, 5, 6, 7, 8, 9, 10].contains src
  else if t = pwSLEEP then [1, 3, 4, 5, 6, 7, 9, 10].contains src
  else if t = pwDEEP then [1, 2, 4].contains src
  else [1, 4].contains src

/-! ### Entry conditions (R402) -/

/-- An actuator is not at its target. -/
def State.actAway (s : State) (n : Nat) : Bool :=
  s.isF (fSAFETY_ACT_CFG_EN n) && (s.actOf n).steps != signOf 16 (s.regN (rSAFETY_ACT_TARGET n))

/-- The first condition that a request for state t fails, 0 when it fails none. -/
def State.pwrReason (s : State) (t : Nat) : Nat :=
  if t = pwIDLE then
    if !s.tgsOn.isEmpty && (List.range 8).any (fun l => s.layValid l && s.isF (fMSG_LAYER_CFG_PERIODIC l)) then 3 else 0
  else if !s.tgsOn.isEmpty then 1
  else if (List.range 4).any (fun n => (s.portOf n).fbPin) then 2
  else if [0, 1].any s.actAway then 4
  else if pwDEEP ≤ t ∧ s.faults ≠ 0 then 5
  else 0

/-! ### Wakes (R404, R406, R408) -/

/-- The exit from IDLE: the gated clocks run again, wake sources of IDLE are done with, and the heartbeat count resumes from 0 (R407). -/
def State.idleExit (s : State) : State :=
  let s : State := { s with wakeDue := [] }
  (s.pwrSettle pwRUN).beUngate.heard

/-- A wake is recorded and posted. -/
def State.wakeEv (s : State) (left src : Nat) : State :=
  (s.setRegN rPWR_WAKE_SRC (16 * left + src)).post evPOWER_WAKE srcPWR (16 * left + src)

def State.idleWake (s : State) (src : Nat) : State :=
  let s := s.idleExit.wakeEv pwIDLE src
  if src = 4 then s.pwrResult rsDONE 0 else s

/-- The exit from SLEEP begins: PLLs restart, DRAM leaves self-refresh. -/
def State.sleepWake (s : State) (src : Nat) : State :=
  let s := (s.setF fPWR_PWR_STATUS_TARGET pwRUN).setRegN rPWR_WAKE_SRC (16 * pwSLEEP + src)
  s.updBoot (fun b => { b with pllTries := [0, 0, 0, 0, 0, 0] })

/-- A wake event: it ends an entry at its next abort point, or wakes the device. -/
def State.wakeEvent (s : State) (src : Nat) : State :=
  let t := s.pwrTarget
  if 1 ≤ t ∧ t ≤ 4 then if wakes t src then s.updPwr (fun p => { p with wake := some (p.wake.getD src) }) else s
  else if t ≠ pwNONE then s
  else if s.pwrCur = pwIDLE ∧ wakes pwIDLE src then s.idleWake src
  else if s.pwrCur = pwSLEEP ∧ wakes pwSLEEP src then s.sleepWake src
  else s

/-- The wake sources noted since the last tick, or the last point that asks for them, act in order. -/
def State.wakeStep (s : State) : State := s.wakeDue.foldl State.wakeEvent { s with wakeDue := [] }

/-- Tiles named for the wake are to be brought up, tested, and handed over directly (R408). -/
def State.wakeTiles (s : State) : State :=
  let m := s.pwr.tiles
  let s := s.updPwr (fun p => { p with direct := (List.range 4).map (fun n => m.testBit n) })
  let s := s.updBoot (fun b => { b with
    warm := true,
    swStep := [0, 0, 0, 0],
    swFail := (List.range 4).map (fun n => !m.testBit n && b.swFail.getD n false) })
  s.portsUp

/-- The exit from SLEEP ends in RUN. -/
def State.sleepDone (s : State) : State :=
  let src := s.getF fPWR_WAKE_SRC_SOURCE
  let s := (s.updPwr (fun p => { p with selfRefresh := false })).pwrSettle pwRUN
  let s := s.post evPOWER_WAKE srcPWR (s.regN rPWR_WAKE_SRC)
  (if src = 4 then s.pwrResult rsDONE 0 else s).beUngate

/-! ### Entries (R403, R404) -/

/-- Is the high side of tile n, or the low side, demanded closed: a test pulse does not count as open. -/
def State.closedHs (s : State) (n : Nat) : Bool := (s.safeT n).hs || (s.safeT n).test == some true
def State.closedLs (s : State) (n : Nat) : Bool := (s.safeT n).ls || (s.safeT n).test == some false

/-- Both channels open every tile's switches, and a test pulse becomes that demand (R373); what stood before is kept for a veto. -/
def State.openSwitches (s : State) : State :=
  let s := s.updPwr (fun p => { p with switches := (List.range 4).map (fun n => (s.closedHs n, s.closedLs n)) })
  let s := s.updBoot (fun b => { b with swDue := [false, false, false, false] })
  (List.range 4).foldl (fun s n => ((s.setHs n false).setLs n false).updSafeT n (fun t => { t with test := none })) s

/-- The switches as they were, but for tiles that a safe state holds dark (R374). -/
def State.restoreSwitches (s : State) : State :=
  s.pwr.switches.zipIdx.foldl (fun s q =>
    if 2 ≤ s.ssOf q.2 then s else (s.setHs q.2 q.1.1).setLs q.2 q.1.2) s

/-- Step 4: ports OFF, a runtime update cancelled, check-unit jobs aborted. -/
def State.pwrPorts (s : State) : State :=
  let on := (List.range 4).filter (fun n => s.zState n ≠ zOFF)
  let s := s.updPwr (fun p => { p with ports := on })
  let s := (on.foldl State.portOff s).updCancel 1
  (List.range 4).foldl State.crcAbortOp s

/-- DRAM loses its contents. -/
def State.dramLost (s : State) : State :=
  { s with mem := s.mem.filter (fun c => decide (corrBase ≤ c.1)),
           ecc := { s.ecc with synd := s.ecc.synd.filter (fun c => decide (corrBase ≤ c.1)) } }

/-- Step 5: DRAM to self-refresh or off, and for SLEEP the PIX, BE and ZTL PLLs off. -/
def State.pwrDram (s : State) : State :=
  let t := s.pwrTarget
  if t = pwSLEEP then
    (s.updPwr (fun p => { p with selfRefresh := true })).updBoot (fun b =>
      { b with pll := ((b.pll.set 1 false).set 2 false).set 4 false })
  else if t = pwDEEP ∧ s.pwr.keep then s.updPwr (fun p => { p with selfRefresh := true })
  else (s.updPwr (fun p => { p with dramOn := false })).dramLost

/-! ### Retention and the wake timer (R409, R411) -/

/-- The register values named by POWER, in list order, 8 bytes each. -/
def State.retEntries (s : State) : List Byte :=
  (s.loader.cfg.pw.retention.take 2048).flatMap (fun off => leBytes 4 off ++ leBytes 4 (s.regN off))

/-- The retention image: the header (its layout is the model's), then the entries. The SLOW count is open. -/
def State.retSave (s : State) : State :=
  let ents := s.retEntries
  let k := ents.length / 8
  let (c, s) := s.fresh
  let hdr := leBytes 4 k ++ leBytes 4 (s.regN rPWR_SLOW_PERIOD) ++ leBytes 8 s.time.frc ++ leBytes 8 c.toNat ++ leBytes 4 (crc32c ents)
    ++ List.replicate 36 0
  (s.writeMem retBase (hdr ++ ents)).setRegN rPWR_RET_STATUS (2 ^ 31 + 2 ^ 16 * (k % 2048))

/-- Targets of the armed PWR_WAKE entries, ns. -/
def State.wakePoints (s : State) : List Nat :=
  (List.range 64).filterMap (fun e => match s.schedOf e with
    | some x => if x.action = 7 then some x.target else none
    | none => none)

/-- The host's deadline, ns. -/
def State.deadline (s : State) : Option Nat :=
  let d := s.pair rPWR_DEADLINE_LO rPWR_DEADLINE_HI
  if d = 0 then none else some d

/-- Nanoseconds from now to the earliest known event (R413). -/
def State.nextKnown (s : State) : Option Nat :=
  ((s.wakePoints ++ s.deadline.toList).map (fun t => t - s.lampNs)).min?

/-- Entry times in ns (R413). -/
def entryNs (t : Nat) : Rat := if t = pwIDLE then 2000 else if t = pwSLEEP then 1500000 else 4000000
/-- The always-on timer's load in SLOW cycles; open where the SLOW period has not been measured. -/
def State.wakeTimer (s : State) : Option Nat × State :=
  match s.nextKnown with
  | none => (none, s)
  | some t =>
    let iv : Rat := (t : Rat) - s.exitNs pwDEEP s.pwr.tiles - s.guardNs
    let iv := max 0 (iv - iv / 1000)
    let p := s.getF ⟨rPWR_SLOW_PERIOD, 0, 24⟩
    let (v, s) := if p = 0 then s.fresh else (0#32, s)
    (some (if p = 0 then v.toNat else (256 * iv * 4 / (5 * (p : Rat))).floor.toNat), s)

/-- Step 6. -/
def State.pwrRetain (s : State) : State :=
  let (t, s) := s.retSave.wakeTimer
  s.updPwr (fun p => { p with timer := t })

/-- Step k begins. -/
def State.pwrStep (s : State) (k : Nat) : State :=
  let s := s.setF fPWR_PWR_STATUS_PHASE k
  match k with
  | 2 => s.openSwitches
  | 3 => s.updSafe (fun x => { x with consent := some s.time.now })
  | 4 => s.pwrPorts
  | 5 => s.pwrDram
  | 6 => s.pwrRetain
  | _ => s

/-- The steps taken are undone: ports up again, DRAM back; the device is in RUN. -/
def State.pwrUndo (s : State) : State :=
  let on := s.pwr.ports
  let s := s.updPwr (fun p => { p with ports := [], wake := none, selfRefresh := false, dramOn := true, timer := none })
  (on.foldl State.enableOp s).pwrSettle pwRUN

/-- A wake event has ended the entry (R404): the switches stay open. -/
def State.pwrAbort (s : State) : State :=
  let k := s.pwrPhase
  let t := s.pwrTarget
  let s := (s.pwrUndo.pwrResult rsABORTED 0).raise fPWR_PWR_FLAGS_WAKE_ABORT rPWR_WAKE_ABORT_COUNT
  s.post evPOWER_WAKE_ABORT srcPWR (256 * k + t)

/-- SC has refused, or has not answered (R10). -/
def State.pwrVeto (s : State) : State :=
  let t := s.pwrTarget
  let s := s.updSafe (fun x => { x with consent := none })
  let s := ((s.restoreSwitches.pwrUndo).pwrResult rsVETO 0).raise fPWR_PWR_FLAGS_VETO rPWR_VETO_COUNT
  s.post evPOWER_PWR_VETO srcPWR t

/-- An abort point: the entry ends here if a wake event has come, else it goes on with step k. -/
def State.abortPoint (s : State) (k : Nat) : State :=
  let s := s.wakeStep
  if s.pwr.wake.isSome then s.pwrAbort else s.pwrStep k

/-- The request has ended in its state. -/
def State.pwrDone (s : State) (old new : Nat) : State := (s.pwrResult rsDONE 0).post evPOWER_PWR_DONE srcPWR (16 * old + new)

def State.sleepEnter (s : State) : State :=
  let s := s.wakeStep
  let w := s.pwr.wake
  let s := ((s.updPwr (fun p => { p with wake := none })).pwrSettle pwSLEEP).pwrDone pwRUN pwSLEEP
  match w with
  | some src => s.sleepWake src
  | none => s

/-- Registers that the boot ROM's wake context keeps through DEEP_SLEEP: TIME's (R411), and with DRAM those of BSTREAM. -/
def timeKept : List Nat :=
  rTIME_CTRL :: [0, 1].flatMap (fun d => [rTIME_OFFSET_FRAC d, rTIME_OFFSET_LO d, rTIME_OFFSET_HI d, rTIME_INCR_INT d,
    rTIME_INCR_FRAC d, rTIME_BASE_LO d, rTIME_BASE_HI d])

def State.deepKept (s : State) (keep : Bool) : List (Nat × Word) :=
  s.regs.filter (fun c => timeKept.contains c.1 || (keep && decide (0x10000 ≤ c.1 ∧ c.1 < 0x20000)))

/-- New images that no job has taken up yet are what the copies in DRAM keep through DEEP_SLEEP (log 162). -/
def State.settleCopies (s : State) : State :=
  (List.range 16).foldl (fun s n => match (s.eng n).next with
    | some p => s.putCopy n (imageBytes p) p.data
    | none => s) s

/-- DEEP_SLEEP is reached: the core has no supply; the always-on domain, retention, TIME's state in the wake context (R411), and with
DRAM_KEEP the DRAM and the schedule remain. -/
def State.deepEnter (s : State) : State :=
  let s := s.wakeStep.pwrDone pwRUN pwDEEP
  let keep := s.pwr.keep
  let s := if keep then s.settleCopies else s
  let held := fun (a : Nat) => decide (retBase ≤ a ∧ a < retBase + retSize) || (keep && decide (a < corrBase))
  let z := s.coreReset (s.mem.filter (fun c => held c.1)) (s.ecc.synd.filter (fun c => held c.1))
  let z := (s.deepKept keep).foldl (fun z c => z.setReg c.1 c.2) z
  let z : State := { z with
    time := { now := s.time.now, frc := s.time.frc, dom0 := s.time.dom0, dom1 := s.time.dom1, resid := s.time.resid,
              sched := if keep then s.time.sched else [] },
    pwr := { s.pwr with frcAt := s.time.frc, nowAt := s.time.now, period := s.getF ⟨rPWR_SLOW_PERIOD, 0, 24⟩,
                        switches := [], ports := [], wake := none, dramOn := true, selfRefresh := keep } }
  let z : State := if keep then
      { z with loader := s.loader, health := s.health, sel := s.sel, hcfg := s.hcfg, agingPaused := s.agingPaused,
               host := { secs := s.host.secs }, boot := { mapOk := s.boot.mapOk, dramMib := s.boot.dramMib } }
    else z
  let z := z.setF fPWR_PWR_STATUS_CURRENT pwDEEP
  match s.pwr.wake with
  | some src => z.startDeep src
  | none => z

/-- OFF is reached. -/
def State.offEnter (s : State) : State :=
  let s := s.wakeStep.pwrDone pwRUN pwOFF
  let z := (s.coreReset [] []).setF fPWR_PWR_STATUS_CURRENT pwOFF
  match s.pwr.wake with
  | some src => z.startOff src
  | none => z

/-- A step that took time has ended. -/
def State.pwrAdvance (s : State) : State :=
  let t := s.pwrTarget
  match s.pwrPhase with
  | 2 => s.pwrStep 3
  | 4 => s.abortPoint 5
  | 5 => if t = pwSLEEP then s.sleepEnter else s.abortPoint (if t = pwDEEP then 6 else 7)
  | 6 => s.abortPoint 7
  | 7 => if t = pwDEEP then s.deepEnter else s.offEnter
  | _ => s

/-! ### Requests (R401, R405, R413) -/

/-- The request waits in the pending slot; one that stood there is overwritten. -/
def State.pwrPend (s : State) (t tiles : Nat) (keep : Bool) : State :=
  let s := if s.getF fPWR_PWR_STATUS_PENDING = pwNONE then s else s.pwrResult rsSUPERSEDED 0
  (s.updPwr (fun p => { p with pendTiles := tiles, pendKeep := keep })).setF fPWR_PWR_STATUS_PENDING t

/-- The request becomes the target, or is refused (R402). -/
def State.pwrEnter (s : State) (t tiles : Nat) (keep : Bool) : State :=
  let why := s.pwrReason t
  if why ≠ 0 then
    let s := (s.pwrResult rsREFUSED why).raise fPWR_PWR_FLAGS_REFUSED rPWR_REFUSED_COUNT
    s.post evPOWER_PWR_REFUSED srcPWR (16 * why + t)
  else
    let s : State := { s with wakeDue := [] }
    let s := (s.updPwr (fun p => { p with tiles := tiles, keep := keep, wake := none, ports := [], timer := none })).setF
      fPWR_PWR_STATUS_TARGET t
    if t = pwIDLE then s
    else
      let s := if t = pwOFF ∨ t = pwDEEP ∧ keep = false then s.deltaWrite else s
      s.pwrStep 2

/-- Does state t fit into the time to the next known event (R413)? -/
def State.autoFits (s : State) (t tiles : Nat) (limit : Option Nat) : Bool :=
  s.pwrReason t == 0 && (t != pwDEEP || s.isF fPWR_PWR_CFG_AUTO_DEEP)
    && (match limit with
      | none => true
      | some n => decide (entryNs t + s.exitNs t tiles + s.guardNs ≤ (n : Rat)))

/-- AUTO: the deepest state that fits; without one the device stays in RUN. -/
def State.pwrAuto (s : State) (tiles : Nat) : State :=
  let n := s.nextKnown
  let t := ([pwDEEP, pwSLEEP, pwIDLE].find? (fun t => s.autoFits t tiles n)).getD pwRUN
  let us := match n with | some n => satAt 0xFFFFFFFF (n / 1000) | none => 0xFFFFFFFF
  let ms := match n with | some n => satAt 0xFFFFFFF (n / 1000000) | none => 0xFFFFFFF
  let s := (s.setRegN rPWR_NEXT_EVENT us).setRegN rPWR_AUTO_CHOICE t
  let s := s.post evPOWER_AUTO_CHOSEN srcPWR (16 * ms + t)
  if t = pwRUN then s.pwrResult rsSAME 0 else s.pwrEnter t tiles true

/-- A request that nothing holds back. -/
def State.pwrBegin (s : State) (t tiles : Nat) (keep : Bool) : State :=
  if t = s.pwrCur then s.pwrResult rsSAME 0
  else if s.pwrCur = pwIDLE ∧ t = pwRUN then s.idleWake 4
  else
    let s := if s.pwrCur = pwIDLE then s.idleExit else s
    if t = pwAUTO then s.pwrAuto tiles else s.pwrEnter t tiles keep

/-- A write of PWR_REQ. -/
def State.pwrRequest (s : State) (t tiles : Nat) (keep : Bool) : State :=
  if s.boot.porst = false ∨ ¬ (t ≤ 4 ∨ t = pwAUTO) then s
  else if s.bsState ≠ bsRUNNING ∧ s.bsState ≠ bsFAILED then s.pwrPend t tiles keep
  else if s.pwrTarget ≠ pwNONE then
    if t = pwRUN ∧ s.pwrTarget ≠ pwRUN then s.wakeEvent 4 else s.pwrPend t tiles keep
  else if s.pwrCur = pwSLEEP then if t = pwRUN then s.sleepWake 4 else if t = pwSLEEP then s.pwrResult rsSAME 0 else s.pwrPend t tiles keep
  else s.pwrBegin t tiles keep

/-- The pending request is taken up once nothing holds it back. -/
def State.pwrTake (s : State) : State :=
  let t := s.getF fPWR_PWR_STATUS_PENDING
  if t = pwNONE ∨ s.pwrTarget ≠ pwNONE ∨ pwIDLE < s.pwrCur ∨ (s.bsState ≠ bsRUNNING ∧ s.bsState ≠ bsFAILED) ∨ s.boot.porst = false then s
  else (s.setF fPWR_PWR_STATUS_PENDING pwNONE).pwrBegin t s.pwr.pendTiles s.pwr.pendKeep

/-- A write of PWR_REQ as a word. -/
def State.pwrWrite (s : State) (v : Nat) : State := s.pwrRequest (bitsOf v 0 4) (bitsOf v 16 4) (v.testBit 8)

def execPwrReqRun (tiles : BitVec 4) (keep : Bool) (s : State) : Res :=
  .next (s.viaReg (rPWR_PWR_REQ) (fun s => s.pwrRequest pwRUN tiles.toNat keep))
def execPwrReqIdle (tiles : BitVec 4) (keep : Bool) (s : State) : Res :=
  .next (s.viaReg (rPWR_PWR_REQ) (fun s => s.pwrRequest pwIDLE tiles.toNat keep))
def execPwrReqSleep (tiles : BitVec 4) (keep : Bool) (s : State) : Res :=
  .next (s.viaReg (rPWR_PWR_REQ) (fun s => s.pwrRequest pwSLEEP tiles.toNat keep))
def execPwrReqDeepSleep (tiles : BitVec 4) (keep : Bool) (s : State) : Res :=
  .next (s.viaReg (rPWR_PWR_REQ) (fun s => s.pwrRequest pwDEEP tiles.toNat keep))
def execPwrReqOff (tiles : BitVec 4) (keep : Bool) (s : State) : Res :=
  .next (s.viaReg (rPWR_PWR_REQ) (fun s => s.pwrRequest pwOFF tiles.toNat keep))
def execPwrReqAuto (tiles : BitVec 4) (keep : Bool) (s : State) : Res :=
  .next (s.viaReg (rPWR_PWR_REQ) (fun s => s.pwrRequest pwAUTO tiles.toNat keep))

/-- SC_CONSENT: SC answers by its own checks (R377). -/
def execScConsent (s : State) : Res :=
  .next (if s.pwrPhase ≠ 3 ∨ s.safe.consent.isNone then s
    else if s.powerGrant then ((s.updSafe (fun x => { x with consent := none })).abortPoint 4).pwrTake
    else s.pwrVeto.pwrTake)

/-- CONSENT_TIMEOUT: no answer within 1 ms. -/
def execConsentTimeout (s : State) : Res := .next (if s.pwrPhase = 3 then s.pwrVeto.pwrTake else s)

/-- ENTRY_STEP_DONE. -/
def execEntryStepDone (s : State) : Res := .next s.pwrAdvance.pwrTake

/-- IDLE_ENTER: every engine is IDLE, FAULTED or OFF, and both cores are in their idle loop. -/
def execIdleEnter (s : State) : Res :=
  let quiet := (List.range 16).all (fun n => [beIDLE, beFAULTED, beOFF].contains (s.beState n))
  .next (if s.pwrTarget ≠ pwIDLE ∨ quiet = false then s
    else
      let s := s.wakeStep
      let w := s.pwr.wake
      let s := ((s.updPwr (fun p => { p with wake := none })).pwrSettle pwIDLE).pwrDone pwRUN pwIDLE
      (match w with
        | some src => s.idleWake src
        | none => s).pwrTake)

/-- SLEEP_EXIT: the PLLs have locked and DRAM is ready. -/
def execSleepExit (s : State) : Res :=
  .next (if s.pwrCur ≠ pwSLEEP ∨ s.pwrTarget ≠ pwRUN then s
    else
      let s := s.updBoot (fun b => { b with pll := ((b.pll.set 1 true).set 2 true).set 4 true })
      s.sleepDone.wakeTiles.pwrTake)

/-- PLL_LOCK_TIMEOUT: 1 ms without lock; the second failure stops the data plane, and the safety channels go on as in
degraded-clock mode (R408). -/
def execPllLockTimeout (p : Fin 6) (s : State) : Res :=
  let k := s.boot.pllTries.getD p 0
  .next (if s.boot.refclk = false ∨ s.boot.pll.getD p false ∨ 2 ≤ k then s
    else
      let s := s.updBoot (fun b => { b with pllTries := b.pllTries.set p (k + 1) })
      if k = 0 then s
      else
        let s := (s.assertFault .pll).post evPOWER_PLL_FAIL srcPWR p
        let s := s.tgsOn.foldl State.tgOff s
        if s.pwrCur = pwSLEEP ∧ s.pwrTarget = pwRUN then
          let s := s.updBoot (fun b => { b with warm := false, swStep := [0, 0, 0, 0] })
          s.sleepDone.pwrTake
        else s)

/-- AON_WAKE_TIMER. -/
def execAonWakeTimer (s : State) : Res :=
  .next (if s.boot.aon ∧ s.boot.phase = .off ∧ s.pwrCur = pwDEEP ∧ s.pwr.timer.isSome then s.startDeep 2 else s)

/-- WAKE_FAIL_CLEAR. -/
def execWakeFailClear (s : State) : Res :=
  .next (s.viaReg (rPWR_WAKE_FAIL_CAUSE) (fun s => s.setRegN rPWR_WAKE_FAIL_CAUSE 0))

/-- SLOW_PERIOD_MEASURE: FRC ticks and SLOW cycles of a 1 s window in RUN. -/
def execSlowPeriodMeasure (ticks cycles : Nat) (s : State) : Res :=
  .next (if s.pwrCur ≠ pwRUN ∨ cycles = 0 ∨ s.time.frcRun = false then s
    else s.setF ⟨rPWR_SLOW_PERIOD, 0, 24⟩ (256 * ticks / cycles))

/-! ### The wake from DEEP_SLEEP (R73, R410) -/

/-- One entry of the image read: its offset and value, unless one of its words is lost. -/
def State.retEntry (s : State) (k : Nat) : Option (Nat × Word) × State :=
  let ((bs, u), s) := s.readMem (retBase + 0x40 + 8 * k) 8
  (if u then none else some (ofLe (bs.take 4), BitVec.ofNat 32 (ofLe (bs.drop 4))), s)

/-- The entries 0 to k - 1 in order, and the first one lost. -/
def State.retRead (s : State) : Nat → (List (Nat × Word) × Option Nat) × State
  | 0 => (([], none), s)
  | k + 1 =>
    let ((l, bad), s) := s.retRead k
    let (e, s) := s.retEntry k
    ((l ++ e.toList, bad.or (if e.isNone then some k else none)), s)

/-- The image as the boot ROM checks it: the entries, or the index of the first bad one, 0xFFFF for its CRC or a word of its header that is
lost. -/
def State.retCheck (s : State) : (List (Nat × Word) × Option Nat) × State :=
  let (u, s) := s.checkRange retBase 0x40
  let k := min 2048 (s.loadN retBase 4)
  let ((l, bad), s) := s.retRead k
  match bad with
  | some i => ((l, some i), s)
  | none => if u then ((l, some 0xFFFF), s) else ((l, if s.loadN (retBase + 24) 4 = crc32c (s.bytes (retBase + 0x40) (8 * k)) then none else some 0xFFFF), s)

/-- The image is lost: the start goes on from the boot ROM with the full load. -/
def State.retLost (s : State) (bad : Nat) : State :=
  let s := (s.raise fPWR_PWR_FLAGS_RET_LOST rPWR_RET_LOST_COUNT).setRegN rPWR_RET_STATUS (bad % 2048)
  let s := s.post evPOWER_RET_LOST srcPWR bad
  let s : State := { s with regs := s.regs.filter (fun c => decide (c.1 < 0x10000 ∨ 0x20000 ≤ c.1)),
                            loader := { flashA := s.loader.flashA, flashB := s.loader.flashB },
                            health := [], sel := [], host := {}, time := { s.time with sched := [] } }
  let s := s.otpShow.updBoot (fun b => { b with warm := false, mapOk := [false, false, false, false] })
  s.bootLoad

/-- A program is loaded again into engine n from the copy in DRAM (R103); an engine whose copy has lost a word stays LOADING (log
162). -/
def State.reloadProgram (s : State) (n : Nat) (p : BeprogC) : State :=
  let (ok, s) := s.reloadFrom n n p
  let s := s.enterProgram n p
  if ok then s else s.setBeState n beLOADING

/-- What memories that lost their contents held is placed again: curves, fallback surfaces, programs. -/
def State.reinstall (s : State) : State :=
  let s := s.loader.cfg.li.foldl (fun s c => s.installSec (.library c.2)) s
  s.loader.cfg.be.foldl (fun s c => (c.2.engines.foldl (fun s n => s.reloadProgram n c.2) s).showSpare c.2) s

/-- Without REFCLK the data plane waits, STATE shows VERIFY_ENV, and every tile takes its fallback beam (R64, R414,
log 140). -/
def State.warmDegraded (s : State) : State :=
  let s := (s.updBoot (fun b => { b with resume := some s.bsState })).setBs bsVERIFY_ENV
  s.updPwr (fun p => { p with direct := [false, false, false, false] })

/-- The warm wake: the entries are written back, the lock is set, and the firmware starts. -/
def State.warmStart (s : State) (ents : List (Nat × Word)) : State :=
  let s := ents.foldl (fun s e => s.setReg e.1 e.2) s
  let s := { s with lampTiming := { s.lampTiming with anchor := (s.pair (rTG_ANCHOR_LO 0) (rTG_ANCHOR_HI 0) : Nat) } }
  let s := s.setRegN rPWR_RET_STATUS (2 ^ 31 + 2 ^ 16 * (ents.length % 2048))
  let s := (s.setF fBSTREAM_STATUS_LOCKED 1).setF fTOP_START_STATUS_LOCKED 1
  let s := (s.setF fTOP_START_STATUS_PHASE1_DONE 1).setF fTOP_START_STATUS_RAILS_DONE 1
  let names := s.loader.cfg.pw.retention
  let s := (List.range 64).foldl (fun s e => if names.contains (rTIME_SCHED_CFG e) then s else s.setSched e none) s
  let secs := s.host.secs
  let s := (s.hostApply s.loader.cfg.ho).updHost (fun h => { h with secs := secs })
  let s := ((s.reinstall.takeTables.placeTiles).updBoot (fun b => { b with warmDue := true })).fwStart
  let s := (if s.time.frcRun then s.schedStep else s).wakeTiles
  (if s.boot.refclk then s else s.warmDegraded).warmGo

/-- DEEP_SLEEP_WAKE: the boot ROM checks the retention image. -/
def execDeepSleepWake (s : State) : Res :=
  .next (if s.boot.warm = false ∨ s.boot.phase ≠ .waitPmic then s
    else
      let ((ents, bad), s) := s.retCheck
      match bad with
      | some i => s.retLost i
      | none => s.warmStart ents)

end Sys2Proof.Machine
end

