-- ==== Sys2Proof/Machine/Electrical.lean ====
section
/-! DEFINITION. Supplies, debug and clocks (R383, R431, R444, R447) and the bus-off recovery of a CAN controller (R330). -/

namespace Sys2Proof.Machine

/-- VAON_RISE: the always-on domain leaves reset; a WAKE_N held low at that instant counts as a falling edge (R431). -/
def execVaonRise (wakeLow : Bool) (s : State) : Res :=
  .next (if s.boot.aon then s
    else
      let s := s.updBoot (fun b => { b with aon := true })
      if wakeLow then s.wakeN else s)

/-- VAON_LOSS: the always-on domain is in reset, WAKE_FAIL_CAUSE and the retention SRAM are lost, and the next start is one from
OFF. PMIC_EN falls, so the core has no supply either. -/
def execVaonLoss (s : State) : Res :=
  let z : State := { (s.coreReset [] []).setRegN rPWR_WAKE_FAIL_CAUSE 0 with faultN := [] }
  .next ((z.setF fPWR_PWR_STATUS_CURRENT pwOFF).updBoot (fun b => { b with aon := false }))

/-- Every tile is dark with both switches open. -/
def State.allDark (s : State) : Bool :=
  (List.range 4).all (fun n => !(s.safeT n).hs && !(s.safeT n).ls && !(s.portOf n).fbPin)

/-- JTAG_INSTRUCTION (R444): the instruction register takes an instruction that is accepted. -/
def execJtagInstruction (i : JtagI) (s : State) : Res :=
  let put := fun (k : Nat) => ({ s with debugPort := { s.debugPort with ir := k } } : State)
  .next (if s.boot.porst = false then s else match i with
    | .bypass => put 0
    | .idcode => put 1
    | .samplePreload => put 2
    | .other c => if s.debugPort.auth && s.allDark then put (256 + c.toNat) else s)

/-- The challenge given to the debugger. -/
def State.debugChal (s : State) : List Byte × State :=
  match s.debugPort.chal with
  | some c => (c, s)
  | none =>
    let (c, s) := s.challenge
    (c, { s with debugPort := { s.debugPort with chal := some c } })

/-- DEBUG_AUTH: the signature of the challenge under the public key of the running bit-stream. A challenge serves once. -/
def State.debugAuth (s : State) (sig : List Byte) : State :=
  let (c, s) := s.debugChal
  let ok := decide (1 ≤ s.loader.phase) && ecdsaVerify (fileBytes s.loader.img.bytes 0x60 64) (sha256 c) sig
  { s with debugPort := { s.debugPort with auth := s.debugPort.auth || ok, chal := none } }

def execDebugAuth (sig : List Byte) (s : State) : Res := .next (s.inCore (·.debugAuth sig))

/-- PLL_LOSS: SYS 0, PIX 1, BE 2, TIME 3, ZTL 4, DDR 5. On the loss of SYS, SC goes on on the FIO (R383). -/
def execPllLoss (p : Fin 6) (s : State) : Res :=
  .next (if s.boot.pll.getD p false = false then s
    else
      let s := s.updBoot (fun b => { b with pll := b.pll.set p false })
      if p = 0 then s.setF fSAFETY_STATUS_SC_ON_FIO 1 else s)

/-- BUS_OFF_RECOVERY: both error counters are 0 again (ISO 11898-1, log 51). -/
def execBusOffRecovery (c : Fin 2) (s : State) : Res :=
  .next (if s.boot.porst = false ∨ s.isF (fHOSTIF_CAN_STATUS_BUS_OFF c) = false then s
    else ((s.setF (fHOSTIF_CAN_STATUS_BUS_OFF c) 0).setF (fHOSTIF_CAN_STATUS_TEC c) 0).setF (fHOSTIF_CAN_STATUS_REC c) 0)

end Sys2Proof.Machine
end

