-- ==== Sys2Proof/Machine/Bus.lean ====
section
/-! DEFINITION. The register path (R2, R26 to R32): reads and writes of registers by any master, with the access types, the lock, the
registers whose read shows live state, and the registers whose write or read acts. -/

namespace Sys2Proof.Machine

/-- The masters of a register access, as far as a register tells them apart: the firmware, the SPI host, any other (R343). -/
def msFW : Nat := 0
def msSPI : Nat := 1
def msDMA : Nat := 2

/-- Which of `cnt` registers `st` apart from `base` lies at `off`. -/
def regAt (base st cnt off : Nat) : Option Nat :=
  if base ≤ off ∧ (off - base) % st = 0 ∧ (off - base) / st < cnt then some ((off - base) / st) else none

/-- The lamp timing block as TG_1 to TG_3 show it (R208): the registers of TG_0. -/
def tgMirror (off : Nat) : Option Nat :=
  if 0x190000 ≤ off ∧ off < 0x1C0000 ∧ 0x100 ≤ off % 0x10000 ∧ off % 0x10000 < 0x200 then some (0x180000 + off % 0x10000) else none

/-- The staged block of TG_1 to TG_3, which reads 0. -/
def tgNoStage (off : Nat) : Bool :=
  decide (0x190000 ≤ off) && decide (off < 0x1C0000) && decide (0x200 ≤ off % 0x10000) && decide (off % 0x10000 < 0x250)

/-- Curve memory: PRESS_n, curve and knot (R169). -/
def curveOff (off : Nat) : Option (Nat × Nat × Nat) :=
  let n := (off - 0x140000) / 0x10000
  let j := off % 0x10000
  if 0x140000 ≤ off ∧ off < 0x180000 ∧ 0x4000 ≤ j ∧ j < 0xC400 then
    some (n, (j - 0x4000) / 0x84, (j - 0x4000) % 0x84 / 4)
  else none

/-! ### Registers that show live state -/

/-- BE_n registers. -/
def State.beView (s : State) (n j off : Nat) : Word × State :=
  if j = 4 then (BitVec.ofNat 32 (putBits (s.regN off) 16 13 (s.eng n).pc), s)
  else if j = 0x30 then (BitVec.ofNat 32 (putBits (s.regN off) 0 4 (s.eng n).slots.length), s)
  else if j = 0x34 then s.dmaStatus n
  else (s.reg off, s)

/-- SAFETY.SW_STATUS. -/
def State.swStatus (s : State) : Nat :=
  (List.range s.tiles).foldl (fun v n =>
    let t := s.safeT n
    v + 2 ^ (8 * n) * (t.hs.toNat + 2 * t.hsFb.toNat + 4 * t.ls.toNat + 8 * t.lsFb.toNat + 16 * (s.portOf n).fbPin.toNat)) 0

/-- TIME.RESIDUAL: whole ns, saturating. -/
def State.residView (s : State) : Word :=
  BitVec.ofInt 32 (clampI (-2147483648) 2147483647 s.residNs.floor)

/-- TIME.DOM_d_STATUS. -/
def State.domView (s : State) (d : Nat) : Nat :=
  let age := match s.domAge d with
    | some a => satAt 0xFFFF (a / 800000)
    | none => 0xFFFF
  putBits (putBits (s.regN (rTIME_DOM_STATUS d)) 0 16 age) 31 1 (s.domFresh d).toNat

/-- TOP.DEVICE_ID. -/
def State.deviceId (s : State) : Nat :=
  (match s.part with | .sz1240 => 0x12400000 | .sz1220 => 0x12200000) + s.stepping % 256

/-- The value that a read of a mapped register returns, without what the read does. -/
def State.regView (s : State) (off : Nat) : Word :=
  let w := fun (v : Nat) => BitVec.ofNat 32 v
  if off = rTOP_DEVICE_ID then w s.deviceId
  else if off = rTOP_MC_LOAD then w (putBits (s.regN off) 24 8 (satAt 255 s.host.fwq.length))
  else if off = rMSG_EVT_STATUS then s.evtStatus
  else if off = rMSG_EVT_SEQ_OLDEST then w s.evtOldest
  else if off = rMSG_FW_QUEUE then w s.host.fwq.length
  else if off = rMSG_SP_STATUS then w (putBits (s.regN off) 0 2 s.spState)
  else if off = rREC_STATUS then w (putBits (s.regN off) fREC_STATUS_STATE.lo fREC_STATUS_STATE.w s.recState)
  else if off = rHOSTIF_SPI_STATUS then w (putBits (s.regN off) 0 4 s.host.mbox.length)
  else if off = rSAFETY_SW_STATUS then w s.swStatus
  else if off = rTIME_RESIDUAL then s.residView
  else match regAt (rTIME_DOM_STATUS 0) 0x40 2 off with
    | some d => w (s.domView d)
    | none => s.reg off

/-! ### Reads -/

/-- CP_n.PREFETCH: the least lead of the last transfer frame is open while a generator runs (log 43). -/
def State.prefetchRead (s : State) (n : Nat) : Word × State :=
  if s.tgState n = tgOFF then (s.reg (rCP_PREFETCH n), s)
  else
    let (v, s) := s.fresh
    (BitVec.ofNat 32 (putBits (s.regN (rCP_PREFETCH n)) 16 8 (bitsOf v.toNat 0 8)), s)

/-- A read of a mapped register, with what the read does. -/
def State.regRead (s : State) (ms off : Nat) : Word × State :=
  if off = rMSG_EVT_POP then s.evtPop ms
  else if off = rTIME_LT_LO then s.ltRead
  else if off = rTIME_CAP_TS_HI 0 then s.capRead 0
  else if off = rTIME_CAP_TS_HI 1 then s.capRead 1
  else if 0x240000 ≤ off ∧ off < 0x250000 then s.beView ((off - 0x240000) / 0x1000) (off % 0x1000) off
  else match regAt (rCP_PREFETCH 0) 0x10000 4 off with
    | some n => s.prefetchRead n
    | none => (s.regView off, s)

/-- A word of curve memory. -/
def State.curveRead (s : State) (n c k : Nat) : Word × State :=
  let (_, s) := s.checkWord (knotAddr n c k)
  (BitVec.ofNat 32 (s.knot n s.activeBank c k), s)

/-- A read of the register space at a 4-byte aligned offset. -/
def State.busReadAt (s : State) (ms off : Nat) : Word × State :=
  if s.absentUnit off then (0, s)
  else match curveOff off with
    | some (n, c, k) => s.curveRead n c k
    | none =>
      let at_ := (tgMirror off).getD off
      match regRow at_ with
      | none => (0, s.unmapped off)
      | some r => if r.wo || tgNoStage off then (0, s) else s.regRead ms at_

/-- A read of one word by master `ms` (R27); no unit answers in reset (R59). -/
def State.busRead (s : State) (ms off : Nat) : Word × State :=
  if s.boot.porst = false then (0, s)
  else if off % 4 ≠ 0 then (0, s.busErr (0xF800000000 + off)) else s.busReadAt ms off

/-! ### Writes -/

/-- The bits of a write that the access types take (R28). -/
def regNew (r : RegRow) (old v : Word) : Word := (old &&& ~~~r.wr &&& ~~~(r.w1c &&& v)) ||| (v &&& r.wr)

def State.regPlain (s : State) (r : RegRow) (off : Nat) (v : Word) : State :=
  if r.wo then s else s.setReg off (regNew r (s.reg off) v)

/-- FENCE_SIGNAL (R91): an increment of 0 is ignored. -/
def State.fenceWrite (s : State) (v : Word) : State :=
  let inc := v >>> 8
  if inc = 0 then s else s.signal (bitsOf v.toNat 0 4) inc

/-- A write of DOM_d_CFG may end or restore the freshness of the active domain (R304). -/
def State.domCfgWrite (s : State) (r : RegRow) (off : Nat) (v : Word) : State :=
  let was := s.domFresh s.active
  (s.regPlain r off v).freshCheck was

/-- Writes of BSTREAM and PWR that act. -/
def State.actSys (s : State) (off : Nat) (v : Word) : Option State :=
  if off = rBSTREAM_STAGE_DATA then some (s.stageData v)
  else if off = rBSTREAM_UPDATE_CMD then some (s.updCmd v.toNat)
  else if off = rBSTREAM_OTP_CMD then some (s.otpWrite v.toNat)
  else if off = rPWR_PWR_REQ then some (s.pwrWrite v.toNat)
  else if off = rPWR_WAKE_FAIL_CAUSE then some (if v.getLsbD 31 then s.setRegN rPWR_WAKE_FAIL_CAUSE 0 else s)
  else none

/-- Writes of TIME that act. -/
def State.actTime (s : State) (r : RegRow) (off : Nat) (v : Word) : Option State :=
  if off = rTIME_CTRL then some (s.ctrlWrite v)
  else if off = rTIME_SNAP_CMD then some (s.snapCmd v)
  else if 0x40100 ≤ off ∧ off < 0x40180 then
    let d := (off - 0x40100) / 0x40
    if off = rTIME_DOM_CFG d then some (s.domCfgWrite r off v)
    else if off = rTIME_INCR_FRAC d then some (s.incrWrite d v)
    else if off = rTIME_OFFSET_HI d then some (s.offsetWrite d v)
    else if off = rTIME_ADJ d then some (s.adjust d v.toInt)
    else if off = rTIME_OFFSET_MEAS d then some (s.servo d v.toInt)
    else none
  else match regAt (rTIME_SCHED_CFG 0) 0x20 64 off with
    | some e => some (s.schedCfg e v)
    | none => (regAt (rTIME_SCHED_TARGET_LO 0) 0x20 64 off).map (fun e => s.schedTarget e v)

/-- Writes of MSG that act. -/
def State.actMsg (s : State) (off : Nat) (v : Word) : Option State :=
  if off = rMSG_FENCE_SIGNAL then some (s.fenceWrite v)
  else if off = rMSG_EVT_SKIP then some s.evtSkip
  else if off = rMSG_EVT_CFG then some (s.evtOwner v)
  else if off = rMSG_SP_CMD then some (s.spCmd v.toNat)
  else match regAt (rMSG_FLIP_COMMIT 0) 0x10 4 off with
    | some g => some (s.flipCommit g v.toNat)
    | none =>
      match regAt (rMSG_LAYER_RAW_ADDR_HI 0) 0x40 8 off with
      | some _ => some (s.setReg off (v &&& 0xFF))
      | none => (regAt (rMSG_LAYER_RAW_ADDR_LO 0) 0x40 8 off).map (fun l => s.rawAddr l v)

/-- Writes of PRESS, TG, ZTL and HEALTH that act. -/
def State.actTile (s : State) (r : RegRow) (off : Nat) (v : Word) : Option State :=
  let k := v.toNat
  if off = rREC_CTRL then some (if k = 1 then s.recTrigger 5 else if k = 2 then s.recRearmOp else s)
  else if off = rTG_TIMING_COMMIT 0 then some (s.timingCommit k)
  else if off = rHEALTH_DARN_CFG then some (s.darnCfg (regNew r (s.reg off) v))
  else if off = rHEALTH_CMD then
    some (if k % 16 = 1 then s.baselineOp (bitsOf k 6 2) else if k % 16 = 2 then s.checkpointOp
      else if k % 16 = 3 then s.clearStateOp (bitsOf k 6 2) (bitsOf k 5 1) (bitsOf k 8 18) else s)
  else if (directKind off).isSome then some (s.directWrite off (v &&& r.wr))
  else match regAt (rPRESS_UPD_CMD 0) 0x10000 4 off with
    | some n => some (if k = 1 then s.updCommitOp n else if k = 2 then s.updFillOp n else if k = 3 then s.updCancelOp n else s)
    | none =>
      match regAt (rTG_CMD 0) 0x10000 4 off with
      | some n => some (if k = 1 then s.tgStart n else if k = 2 then s.tgStop n else s)
      | none =>
        match regAt (rZTL_CMD 0) 0x10000 4 off with
        | some n => some (if k = 1 then s.enableOp n else if k = 2 then s.disableOp n else if k = 3 then s.recalNext n
            else if k = 4 then s.retryOp n else s)
        | none => (regAt (rZTL_TREG_CMD 0) 0x10000 4 off).map (fun n =>
            if k = 1 then s.tregOp n false else if k = 2 then s.tregOp n true else s)

/-- Writes of BE, SAFETY, CRC and MEM that act; a check unit's configuration is closed while its job runs (R396). -/
def State.actUnit (s : State) (off : Nat) (v : Word) : Option State :=
  if off = rSAFETY_ACK_SC then some (s.ackScWrite v.toNat)
  else if off = rSAFETY_ACK_TT then some (s.ackTtWrite v.toNat)
  else if off = rMEM_ECC_INJECT then some (s.eccWrite v)
  else if 0x2C0000 ≤ off ∧ off < 0x2C0400 then
    let n := (off - 0x2C0000) / 0x100
    let j := off % 0x100
    if j = 4 then some (s.crcCmd n v.toNat)
    else if s.isF (fCRC_STATUS_BUSY n) ∧ (j = 0 ∨ (0xC ≤ j ∧ j ≤ 0x24) ∨ 0x40 ≤ j) then some (s.crcBusyErr n)
    else none
  else (regAt (rBE_CMD 0) 0x1000 16 off).map (fun n => s.beCmd n v.toNat)

/-- What a write to a mapped register does, once the lock has been applied. -/
def State.regAct (s : State) (r : RegRow) (off : Nat) (v : Word) : State :=
  let act :=
    if 0x10000 ≤ off ∧ off < 0x30000 then s.actSys off v
    else if 0x40000 ≤ off ∧ off < 0x50000 then s.actTime r off v
    else if 0xC0000 ≤ off ∧ off < 0x100000 then s.actMsg off v
    else if 0x140000 ≤ off ∧ off < 0x240000 then s.actTile r off v
    else s.actUnit off v
  act.getD (s.regPlain r off v)

/-- A write to a mapped register (R29). -/
def State.regWrite (s : State) (r : RegRow) (off : Nat) (v : Word) : State :=
  s.lockWrite r off v (fun v s => s.regAct r off v)

/-- Is there a register at a 4-byte aligned offset? The curve memory and the mirrors are registers too. -/
def regThere (off : Nat) : Bool := (curveOff off).isSome || (regRow ((tgMirror off).getD off)).isSome

/-- A write of the register space at a 4-byte aligned offset: what a LOCKMAP range holds is locked whole (R29). -/
def State.busWriteAt (s : State) (off : Nat) (v : Word) : State :=
  if s.absentUnit off then s
  else if regThere off && s.mapLocked off then s.lockViol off
  else if (curveOff off).isSome then s
  else match regRow ((tgMirror off).getD off) with
    | none => s.unmapped off
    | some r => if (tgMirror off).isSome || tgNoStage off then s else s.regWrite r off v

/-- A write of one word (R27); no unit takes it in reset (R59). -/
def State.busWrite (s : State) (off : Nat) (v : Word) : State :=
  if s.boot.porst = false then s
  else if off % 4 ≠ 0 then s.busErr (0xF800000000 + off) else s.busWriteAt off v

/-- FENCE_SIGNAL through the register path. -/
def execFenceSignalWrite (v : Word) (s : State) : Res := .next (s.viaRegV (rMSG_FENCE_SIGNAL) v (fun v s => s.fenceWrite v))

/-- REGISTER_WRITE. -/
def execRegisterWrite (off : BitVec 24) (v : Word) (s : State) : Res := .next (s.busWrite off.toNat v)

end Sys2Proof.Machine
end

