-- ==== Sys2Proof/Machine/BeamDma.lean ====
section
/-! DEFINITION. Two-dimensional DMA of the engines (R89, R90, R92, R94): what a descriptor moves, its bus errors, its fence. -/

namespace Sys2Proof.Machine

/-- How a row of a descriptor ends: moved, or with an exception. -/
inductive DmaOut where
  | ok (s : State)
  | bad (s : State) (code : Nat)

/-- Words read from the register window, from offset `off`. -/
def State.dmaRegRead (s : State) (off : Nat) : Nat → List Byte × State
  | 0 => ([], s)
  | k + 1 =>
    let (v, s) := s.busRead msDMA off
    let (t, s) := s.dmaRegRead (off + 4) k
    (wordBytes [v] ++ t, s)

/-- Words written to the register window, from offset `off`. -/
def State.dmaRegWrite (s : State) (off : Nat) : List Byte → Nat → State
  | _, 0 => s
  | bs, k + 1 => (s.busWrite off (BitVec.ofNat 32 (ofLe (bs.take 4)))).dmaRegWrite (off + 4) (bs.drop 4) k

/-- Offset in the register window of an address of the map. -/
def regOff (a : Nat) : Nat := a - 0xF800000000

/-- Memories that an engine's DMA may not write: correction memory, instruction memory, another engine's local data (R90). -/
def dmaClosed (n a len : Nat) : Bool :=
  let hits := fun (lo size : Nat) => decide (a < lo + size) && decide (lo < a + len)
  hits corrBase 0x800000 || hits 0xE200000000 0x100000
    || (hits 0xE100000000 0x200000 && !(decide (ldBase n ≤ a) && decide (a + len ≤ ldBase n + 0x20000)))

/-- The first address of an engine's row that it may not write. -/
def closedAt (n a : Nat) : Nat := if ldBase n ≤ a ∧ a < ldBase n + 0x20000 then ldBase n + 0x20000 else a

/-- May the row be accessed: inside one listed range, and aligned in the register window (R26, R27). -/
def State.dmaRowOk (s : State) (a len : Nat) : Bool := s.rangeOk a len && (!inRegs a || a % 4 == 0)

/-- The first address of a row that may not be accessed: the row's own where it is unaligned, else where its range ends. -/
def State.dmaRowBad (s : State) (a len : Nat) : Nat := if s.rangeOk a len then a else s.rangeEnd a

/-- A row from the system address map to local data; a word lost there is DMA_ERR (log 185). -/
def State.dmaRowIn (s : State) (n src dst len : Nat) : DmaOut :=
  if s.dmaRowOk src len = false then .bad (s.busErr (s.dmaRowBad src len)) 7
  else if inRegs src then
    let (bs, s) := s.dmaRegRead (regOff src) (len / 4)
    .ok (s.writeAll (ldBase n + dst) bs)
  else
    let ((bs, ue), s) := s.readAll src len
    if ue then .bad s 7 else .ok (s.writeAll (ldBase n + dst) bs)

/-- A row from local data to the system address map. -/
def State.dmaRowOut (s : State) (n src dst len : Nat) : DmaOut :=
  let ((ue, _), s) := s.beCheck (ldBase n + src) len
  if ue then .bad s 6
  else if s.dmaRowOk dst len = false then .bad (s.busErr (s.dmaRowBad dst len)) 7
  else if dmaClosed n dst len then .bad (s.busErr (closedAt n dst)) 7
  else
    let bs := s.bytes (ldBase n + src) len
    .ok (if inRegs dst then s.dmaRegWrite (regOff dst) bs (len / 4) else s.writeAll dst bs)

/-- `k` rows of a descriptor, in order. -/
def State.dmaRows (s : State) (n : Nat) (x : Desc) (src dst : Nat) : Nat → DmaOut
  | 0 => .ok s
  | k + 1 =>
    match (if x.toSys then s.dmaRowOut n src dst x.width else s.dmaRowIn n src dst x.width) with
    | .ok s => s.dmaRows n x (src + x.srcStride) (dst + x.dstStride) k
    | .bad s c => .bad s c

/-- A DMA error: what the channel still holds goes, and the exception is raised (R90, R100). -/
def State.dmaFail (s : State) (n ch code : Nat) : State :=
  ((s.updEng n (fun g => g.setChan ch [])).engineTrap n code).settleTrap n

/-- The descriptor at a channel's head moves its rows; once its last write is visible it signals its fence (R92). -/
def State.dmaComplete (s : State) (n ch : Nat) : State :=
  match (s.eng n).chan ch with
  | [] => s
  | x :: rest =>
    match s.dmaRows n x x.src x.dst x.height with
    | .bad s c => s.dmaFail n ch c
    | .ok s =>
      let s := s.updEng n (fun g => g.setChan ch rest)
      let s := if x.sig ∧ x.mute = false then s.signal x.fence 1 else s
      s.settleTrap n

/-- DMA_DESC_COMPLETE; nothing of an engine moves while the BE clock is gated (R103). -/
def execDmaDescComplete (e : Fin 16) (ch : Fin 2) (s : State) : Res := .next (if s.beGated then s else s.dmaComplete e ch)

/-- DMA_ERR: the memory answers the head descriptor with an error. -/
def execDmaErr (e : Fin 16) (ch : Fin 2) (s : State) : Res :=
  .next (if s.beGated ∨ ((s.eng e).chan ch).isEmpty then s else s.dmaFail e ch 7)

end Sys2Proof.Machine
end

