-- ==== Sys2Proof/Machine/Router.lean ====
section
/-! DEFINITION. The command router of MSG and the firmware's commands: the checks of a Holvo record (R334, R335), the fast path (R11,
R91, R95, R147, R318), the firmware queue and its opcodes (R16, R336, R337). -/

namespace Sys2Proof.Machine

/-- What a command answers: ACK with data, or a refusal with its NAK reason and detail word. -/
inductive Ans where
  | ack (data : List Byte)
  | nak (why detail : Nat)

/-! ### Fast path: flips, fences, schedule entries -/

def popMask (m : Nat) : Nat := ((List.range 8).filter (fun l => m.testBit l)).length

/-- The descriptors of a FLIP payload, one per layer of the mask (R147). -/
def flipDescs (p : List Byte) (mask : Nat) : List (Nat × List Word) :=
  (maskLayers mask).zipIdx.map (fun q => (q.1, leWords ((p.drop (16 + 32 * q.2)).take 32)))

/-- FLIP (R147, R148). A group that does not exist has no layers. -/
def State.holvoFlip (s : State) (p : List Byte) : Ans × State :=
  let f := fileN p
  let mask := f 1 1
  let g := f 0 1
  if p.length < 16 ∨ p.length ≠ 16 + 32 * popMask mask then (.nak nakFORMAT 4, s)
  else if 16 ≤ f 2 1 ∧ f 2 1 ≠ 0xFF then (.nak nakFENCE (f 2 1), s)
  else if 4 ≤ g then (.nak nakFLIP 2, s)
  else if f 3 1 ≠ 0 ∨ f 12 4 ≠ 0 then (.nak nakFLIP 8, s.refuseFlip g 8)
  else
    let fence := if f 2 1 = 0xFF then none else some (f 2 1)
    let (why, s) := s.commitFlip .holvo g mask (BitVec.ofNat 32 (f 8 4)) fence (BitVec.ofNat 32 (f 4 4)) (flipDescs p mask)
    (if why = 0 then .ack [] else .nak nakFLIP why, s)

/-- FENCE_SIGNAL (R91, R336). -/
def State.holvoFence (s : State) (p : List Byte) : Ans × State :=
  let k := fileN p 0 1
  let inc := fileN p 4 4
  if p.length ≠ 8 then (.nak nakFORMAT 4, s)
  else if fileN p 1 3 ≠ 0 then (.nak nakFORMAT 9, s)
  else if 16 ≤ k then (.nak nakFENCE k, s)
  else if inc = 0 ∨ 2 ^ 24 ≤ inc then (.nak nakFENCE inc, s)
  else (.ack [], s.signal k (BitVec.ofNat 32 inc))

/-- Is schedule entry e under LOCKMAP? -/
def State.entryLocked (s : State) (e : Nat) : Bool :=
  [rTIME_SCHED_CFG e, rTIME_SCHED_ARG e, rTIME_SCHED_TARGET_LO e, rTIME_SCHED_TARGET_HI e, rTIME_SCHED_PERIOD e].any s.mapLocked

/-- All fields of an entry, which is armed when CFG.EN = 1; the RESULT that refuses it, or 0. -/
def State.schedPut (s : State) (e : Nat) (cfg arg period : Word) (target : Nat) : Nat × State :=
  let s := (s.setReg (rTIME_SCHED_ARG e) arg).setReg (rTIME_SCHED_PERIOD e) period
  let s := s.setPair (rTIME_SCHED_TARGET_LO e) (rTIME_SCHED_TARGET_HI e) target
  let s := s.setRegN (rTIME_SCHED_CFG e) (2 ^ 27 * bitsOf cfg.toNat 27 5 + 2 ^ 20 * bitsOf cfg.toNat 20 4)
  if s.isF (fTIME_SCHED_CFG_EN e) then s.schedArm e else (0, s.schedOff e)

/-- SCHED_WRITE (R318). -/
def State.holvoSched (s : State) (p : List Byte) : Ans × State :=
  let w := fun (o : Nat) => BitVec.ofNat 32 (fileN p o 4)
  let e := fileN p 0 1
  if p.length ≠ 24 then (.nak nakFORMAT 4, s)
  else if 64 ≤ e then (.nak nakENTRY 0, s)
  else if s.entryLocked e then (.nak nakLOCKED 0, s)
  else if 2 ≤ fileN p 1 1 then (.nak nakFORMAT 9, s)
  else if fileN p 2 2 ≠ 0 then (.nak nakFORMAT 10, s)
  else if fileN p 1 1 = 1 then (.ack [], s.schedOff e)
  else
    let (r, s) := s.schedPut e (w 4) (w 8) (w 12) (fileN p 16 8)
    (if r = 0 then .ack [] else .nak nakREJECTED r, s)

/-! ### Fast path: records for the engines (R95, R96) -/

/-- The programs that own an opcode. -/
def State.owners (s : State) (op : Nat) : List OpcodeC :=
  s.loader.cfg.be.flatMap (fun q => q.2.opcodes.filter (fun o => o.opcode = op))

/-- The target set of an opcode: the union of its owners' sets, with the spare in the place of the engine it has replaced. -/
def State.targetsOf (s : State) (op : Nat) : List Nat :=
  let named := fun (n : Nat) => (s.owners op).any (fun o => o.targets.testBit n)
  (List.range 16).filter (fun n => named n
    || (s.isF fBE_SPARE_IN_USE && s.getF fBE_SPARE_ENGINE == n && named (s.getF fBE_SPARE_REPLACED)))

def engMask (l : List Nat) : Nat := l.foldl (fun m n => m + 2 ^ n) 0

/-- A refusal counts at each engine concerned. -/
def State.mboxNak (s : State) (l : List Nat) : State := l.foldl (fun s n => s.bumpF (fBE_MBOX_STATUS_NAK_COUNT n) 1) s

/-- The lowest free mailbox slot of engine n. -/
def State.freeSlot (s : State) (n : Nat) : Option Nat :=
  (List.range 8).find? (fun m => !(s.eng n).slots.any (fun x => x.1 == m))

/-- A record delivered to an IDLE engine whose trigger source is its mailbox starts a job (R107). -/
def State.mboxTrig (s : State) (n : Nat) : State :=
  if s.beState n = beIDLE ∧ s.getF (fBE_JOB_TRIG_SRC n) = 2 then s.trigger n 2 else s

/-- A slot of engine n takes a record. -/
def State.mboxPut (s : State) (n : Nat) (rec_ : List Byte) : State :=
  match s.freeSlot n with
  | none => s
  | some m =>
    let s := s.writeAll (ldBase n + slotAddr m) (leBytes 8 s.lampNs ++ leBytes 4 rec_.length ++ leBytes 4 0 ++ rec_)
    s.updEng n (fun e => { e with slots := e.slots ++ [(m, false)] })

/-- Delivery to every engine of the target set that is up, or to none (R95). -/
def State.deliver (s : State) (op : Nat) (rec_ : List Byte) : Ans × State :=
  let all := s.targetsOf op
  let up := all.filter (fun n => s.beState n ≠ beOFF && s.beState n ≠ beFAULTED)
  let full := up.filter (fun n => (s.freeSlot n).isNone)
  if 2032 < rec_.length then (.nak nakTOO_LONG rec_.length, s.mboxNak all)
  else if (s.owners op).isEmpty then (.nak nakUNOWNED 0, s)
  else if up.isEmpty then (.nak nakENGINE_DOWN (engMask all), s.mboxNak all)
  else if full.isEmpty = false then (.nak nakMAILBOX_FULL (engMask full), s.mboxNak full)
  else (.ack [], up.foldl State.mboxTrig (up.foldl (fun s n => s.mboxPut n rec_) s))

/-- SC's copy of a POSE record (R362). -/
def State.poseCopy (s : State) (p : List Byte) : State :=
  if p.length ≠ 32 then s
  else
    let q : PoseC := ⟨signOf 16 (fileN p 0x14 2), fileN p 0x18 2, fileN p 0 8, (fileN p 0x1A 2).testBit 1⟩
    (s.updSafe (fun x => { x with pose := some q })).hidWrite 8

/-- The fast path: opcodes 0x00 to 0x3F and 0x80 to 0xBF. -/
def State.fastRec (s : State) (op : Nat) (rec_ : HRec) : Ans × State :=
  if op = 0x01 then s.holvoFlip rec_.payload
  else if op = 0x02 then s.holvoFence rec_.payload
  else if op = 0x04 then s.holvoSched rec_.payload
  else if op = 0x10 then (s.poseCopy rec_.payload).deliver op (holvoBytes rec_)
  else if op = 0x11 ∨ 0x80 ≤ op then s.deliver op (holvoBytes rec_)
  else (.nak nakUNKNOWN 0, s)

/-! ### Firmware commands (R336) -/

/-- Words read through the register path. -/
def State.readWords (s : State) (ms off step : Nat) : Nat → List Word × State
  | 0 => ([], s)
  | k + 1 =>
    let (v, s) := s.busRead ms off
    let (t, s) := s.readWords ms (off + step) step k
    (v :: t, s)

/-- Words written through the register path. -/
def State.writeWords (s : State) (off step : Nat) : List Word → State
  | [] => s
  | v :: t => (s.busWrite off v).writeWords (off + step) step t

/-- REG_READ. -/
def State.fwRegRead (s : State) (p : List Byte) : Ans × State :=
  let k := fileN p 4 4
  if p.length ≠ 8 then (.nak nakFORMAT 4, s)
  else if k = 0 ∨ 64 < k then (.nak nakFORMAT 12, s)
  else
    let (ws, s) := s.readWords msFW (fileN p 0 4) 4 k
    (.ack (wordBytes ws), s)

/-- REG_WRITE. -/
def State.fwRegWrite (s : State) (p : List Byte) : Ans × State :=
  if p.length < 8 ∨ 260 < p.length then (.nak nakFORMAT 4, s)
  else (.ack [], s.writeWords (fileN p 0 4) 4 (leWords (p.drop 4)))

/-- STAGE_DATA (R54). -/
def State.fwStage (s : State) (p : List Byte) : Ans × State :=
  if p.length < 4 then (.nak nakFORMAT 4, s)
  else if s.bsState ≠ bsRUNNING then (.ack [], s.updNak errNotPermitted)
  else (.ack [], s.stageBytes (fileN p 0 4) (p.drop 4))

/-- A command of four bytes that is written to a register. -/
def State.fwWord (s : State) (off : Nat) (p : List Byte) : Ans × State :=
  if p.length ≠ 4 then (.nak nakFORMAT 4, s) else (.ack [], s.busWrite off (BitVec.ofNat 32 (ofLe p)))

/-- EVT_STREAM (R345). -/
def State.fwStream (s : State) (p : List Byte) : Ans × State :=
  if p.length ≠ 4 then (.nak nakFORMAT 4, s)
  else if 2 ≤ fileN p 0 1 then (.nak nakFORMAT 8, s)
  else if 2 ≤ fileN p 1 1 then (.nak nakFORMAT 9, s)
  else if fileN p 2 2 ≠ 0 then (.nak nakFORMAT 10, s)
  else (.ack [], s.updHamper (fun h => { h with stream := h.stream.set (fileN p 1 1) (fileN p 0 1 == 1) }))

/-- SPOOL_READ. -/
def State.fwSpool (s : State) (p : List Byte) : Ans × State :=
  let k := fileN p 4 4
  if p.length ≠ 8 then (.nak nakFORMAT 4, s)
  else if k = 0 ∨ 16 < k then (.nak nakFORMAT 12, s)
  else
    let (bs, s) := s.spRead (fileN p 0 4) k
    (.ack bs, s)

/-- SAK_INSTALL (R326). Its payload has no layout in the spec (log 41): port, direction, association, XPN, of XPN the SSCI and the salt of
12 bytes, and a key of 16 or 32 bytes. -/
def State.fwSak (s : State) (p : List Byte) : Ans × State :=
  let f := fun (o : Nat) => fileN p o 1
  let n := if f 3 = 1 then 20 else 4
  if p.length ≠ n + 16 ∧ p.length ≠ n + 32 then (.nak nakFORMAT 4, s)
  else match (List.range 4).find? (fun o => decide (2 ≤ f o)) with
    | some o => (.nak nakFORMAT (8 + o), s)
    | none =>
      let a : SecA := { port := f 0, tx := f 1 == 1, assoc := f 2, key := p.drop n, xpn := f 3 == 1,
                        ssci := if f 3 = 1 then fileN p 4 4 else 0, salt := (p.take n).drop 8 }
      (.ack [], s.updHost (fun h => { h with secs := h.secs.filter (fun b => !sameSec a b) ++ [a] }))

/-- A vendor test command: its effect is not in the spec, and its answer is a free word (log 42). -/
def State.fwDiag (s : State) : Ans × State :=
  if s.loader.cfg.ho.diagnostics then
    let (v, s) := s.fresh
    (.ack (wordBytes [v]), s)
  else (.nak nakUNKNOWN 0, s)

/-- What the firmware does with a record, STATE_REQ apart. -/
def State.fwOp (s : State) (op : Nat) (p : List Byte) : Ans × State :=
  match op with
  | 0x40 => if p.isEmpty then (.ack [], s) else (.nak nakFORMAT 4, s)
  | 0x42 => s.fwRegRead p
  | 0x43 => s.fwRegWrite p
  | 0x44 => s.fwStage p
  | 0x45 => s.fwWord rBSTREAM_UPDATE_CMD p
  | 0x46 => s.fwStream p
  | 0x47 => s.fwWord rMSG_SP_CMD p
  | 0x48 => s.fwSpool p
  | 0x49 => s.fwSak p
  | 0x50 => s.fwWord rPWR_PWR_REQ p
  | 0x51 => s.fwWord rHEALTH_CMD p
  | _ => if 0xC0 ≤ op ∧ op < 0xE0 then s.fwDiag else (.nak nakUNKNOWN 0, s)

/-- The answer to a record. -/
def State.answer (s : State) (c seq op : Nat) (ask : Bool) : Ans → State
  | .nak why d => s.nakRec c seq op why (s.lastSeq c) d
  | .ack data => if ask then s.ackRec c seq op data else s

/-- A firmware record is carried out and answered. -/
def State.fwRec (s : State) (c : Nat) (x : HRec) : State :=
  if x.opcode = 0x41 then
    if x.payload.isEmpty then s.stateRec c 0 x.seq else s.answer c x.seq x.opcode true (.nak nakFORMAT 4)
  else
    let (a, s) := s.fwOp x.opcode x.payload
    s.answer c x.seq x.opcode true a

/-- Does the firmware serve its queue? Slow commands wait at shed level 3 (R16). -/
def State.fwServes (s : State) : Bool := s.fwRuns && decide (s.getF fTOP_MC_LOAD_SHED_LEVEL < 3)

/-- The record at the head of the firmware queue, when the firmware serves it. -/
def State.fwServe (s : State) : State :=
  match s.host.fwq with
  | [] => s
  | (c, x) :: t => if s.fwServes then (s.updHost (fun h => { h with fwq := t })).fwRec c x else s

/-- A record for the firmware: queued, and served at once when nothing holds it up; refused when the queue is full. -/
def State.fwAccept (s : State) (c : Nat) (x : HRec) : State :=
  let n := s.host.fwq.length
  if 256 ≤ n then s.answer c x.seq x.opcode true (.nak nakBUSY n)
  else
    let s := s.updHost (fun h => { h with fwq := h.fwq ++ [(c, x)] })
    if n = 0 then s.fwServe else s

/-! ### The router (R334, R335) -/

/-- The sequence check. -/
def State.seqCheck (s : State) (c op : Nat) (r : RecIn) : Bool × State :=
  let take := fun (s : State) => s.setRegN (rMSG_LAST_ACCEPTED_SEQ c) r.seq.toNat
  if r.flags.getLsbD 1 then
    (true, (take s).hostEv evHOST_SEQ_RESYNC c srcMSG (2 ^ 30 * c + r.seq.toNat))
  else
    let want := BitVec.ofNat 16 (s.lastSeq c + 1)
    let d := (r.seq - want).toInt
    if d = 0 then (true, take s)
    else if 0 < d then
      let s := (s.raise fMSG_ROUTER_FLAGS_SEQ_GAP rMSG_SEQ_GAP_COUNT).hostEv evHOST_SEQ_GAP c srcMSG (2 ^ 30 * c + want.toNat)
      (false, s.nakRec c r.seq.toNat op nakSEQ_GAP want.toNat 0)
    else (false, s.nakRec c r.seq.toNat op nakDUPLICATE want.toNat 0)

/-- The first bad field of a header: its offset. -/
def headBad (r : RecIn) : Option Nat :=
  if r.flags.toNat / 4 ≠ 0 then some 3 else if r.payload.length % 4 ≠ 0 then some 4 else if r.ref ≠ 0 then some 6 else none

/-- Is the opcode one of the fast path (R11)? -/
def fastOp (op : Nat) : Bool := decide (op < 0x40) || (decide (0x80 ≤ op) && decide (op < 0xC0))

/-- Dispatch by opcode. -/
def State.dispatchRec (s : State) (c op : Nat) (r : RecIn) : State :=
  let x : HRec := ⟨r.seq.toNat, op, r.flags.toNat, r.ref.toNat, r.payload⟩
  if fastOp op then
    let (a, s) := s.fastRec op x
    s.answer c x.seq op (r.flags.getLsbD 0) a
  else s.fwAccept c x

/-- A record reaches the router on channel c. -/
def State.route (s : State) (c op : Nat) (r : RecIn) : State :=
  if 2048 < 12 + r.payload.length then s.raise fMSG_ROUTER_FLAGS_RX_FORMAT rMSG_RX_FORMAT_COUNT
  else if r.crcOk = false then s.raise fMSG_ROUTER_FLAGS_RX_CRC rMSG_RX_CRC_COUNT
  else match s.seqCheck c op r with
    | (false, s) => s
    | (true, s) =>
      match headBad r with
      | some o => s.answer c r.seq.toNat op true (.nak nakFORMAT o)
      | none => s.dispatchRec c op r

/-- The records in bytes, in order: each is padded to a multiple of 4; one longer than the bytes left ends the run (R327, R334). -/
def State.routeBytes (s : State) (c : Nat) (bs : List Byte) : Nat → State
  | 0 => s
  | k + 1 =>
    if bs.isEmpty then s
    else
      let n := 12 + fileN bs 4 2
      if bs.length < 12 ∨ bs.length < n then s.raise fMSG_ROUTER_FLAGS_RX_FORMAT rMSG_RX_FORMAT_COUNT
      else
        let ok := crc32c (bs.take (n - 4)) == fileN bs (n - 4) 4
        let r : RecIn := ⟨BitVec.ofNat 16 (fileN bs 0 2), BitVec.ofNat 8 (fileN bs 3 1), BitVec.ofNat 16 (fileN bs 6 2),
          (bs.drop 8).take (n - 12), ok⟩
        (s.route c (fileN bs 2 1) r).routeBytes c (bs.drop ((n + 3) / 4 * 4)) k

/-- Is an Ethernet port enabled and its link up? -/
def State.ethUp (s : State) (p : Nat) : Bool := s.isF (fHOSTIF_ETH_CFG_EN p) && s.isF (fHOSTIF_ETH_STATUS_LINK p)

/-- The longest record that channel c can bring: over IEEE 1722 the frame less 42 bytes, and an ACF message of at most 2,044 bytes; over UDP
the frame less 50 bytes (R327). -/
def State.recRoom (s : State) (c : Nat) : Nat :=
  if c = 2 then 2048
  else
    let m := s.getF (fHOSTIF_ETH_CFG_MAX_FRAME c)
    if s.loader.cfg.ho.bench then max (min (m - 42) 2036) (m - 50) else min (m - 42) 2036

/-- A record on channel c: 0 and 1 the Ethernet ports, 2 the SPI mailbox. It wakes the device (R406), and is ignored while the core
has no supply or the port is down; one that no frame of the port can carry whole is longer than the bytes that brought it (R334). -/
def State.recIn (s : State) (c op : Nat) (r : RecIn) : State :=
  if s.boot.porst = false ∨ c ≠ 2 ∧ s.ethUp c = false then s
  else
    let s := s.wakeNote (if c = 2 then 6 else 5)
    if s.recRoom c < 12 + r.payload.length then s.raise fMSG_ROUTER_FLAGS_RX_FORMAT rMSG_RX_FORMAT_COUNT else s.route c op r

end Sys2Proof.Machine
end

