-- ==== Sys2Proof/Machine/HostCmd.lean ====
section
/-! DEFINITION. The commands of chapter 13 from the links: Holvo records, Ethernet frames (R325 to R327), SPI frames (R331, R332) and CAN
frames (R330). -/

namespace Sys2Proof.Machine

/-! ### Holvo records, by opcode -/

def execFlip (c : Fin 3) (r : RecIn) (s : State) : Res := .next (s.recIn c 0x01 r)
def execFenceSignal (c : Fin 3) (r : RecIn) (s : State) : Res := .next (s.recIn c 0x02 r)
def execSchedWrite (c : Fin 3) (r : RecIn) (s : State) : Res := .next (s.recIn c 0x04 r)
def execPose (c : Fin 3) (r : RecIn) (s : State) : Res := .next (s.recIn c 0x10 r)
def execObjectList (c : Fin 3) (r : RecIn) (s : State) : Res := .next (s.recIn c 0x11 r)
def execMaskParam (c : Fin 3) (r : RecIn) (s : State) : Res := .next (s.recIn c 0x80 r)
def execSymbolSet (c : Fin 3) (r : RecIn) (s : State) : Res := .next (s.recIn c 0x88 r)
def execSymbolClear (c : Fin 3) (r : RecIn) (s : State) : Res := .next (s.recIn c 0x89 r)
def execPatternSet (c : Fin 3) (r : RecIn) (s : State) : Res := .next (s.recIn c 0x90 r)
def execAgingCtrl (c : Fin 3) (r : RecIn) (s : State) : Res := .next (s.recIn c 0x98 r)
def execHealthCfg (c : Fin 3) (r : RecIn) (s : State) : Res := .next (s.recIn c 0xA0 r)
def execPing (c : Fin 3) (r : RecIn) (s : State) : Res := .next (s.recIn c 0x40 r)
def execStateReq (c : Fin 3) (r : RecIn) (s : State) : Res := .next (s.recIn c 0x41 r)
def execRegRead (c : Fin 3) (r : RecIn) (s : State) : Res := .next (s.recIn c 0x42 r)
def execRegWrite (c : Fin 3) (r : RecIn) (s : State) : Res := .next (s.recIn c 0x43 r)
def execHolvoStageData (c : Fin 3) (r : RecIn) (s : State) : Res := .next (s.recIn c 0x44 r)
def execHolvoUpdateCmd (c : Fin 3) (r : RecIn) (s : State) : Res := .next (s.recIn c 0x45 r)
def execEvtStream (c : Fin 3) (r : RecIn) (s : State) : Res := .next (s.recIn c 0x46 r)
def execSpoolCmd (c : Fin 3) (r : RecIn) (s : State) : Res := .next (s.recIn c 0x47 r)
def execSpoolRead (c : Fin 3) (r : RecIn) (s : State) : Res := .next (s.recIn c 0x48 r)
def execSakInstall (c : Fin 3) (r : RecIn) (s : State) : Res := .next (s.recIn c 0x49 r)
def execPwrRequest (c : Fin 3) (r : RecIn) (s : State) : Res := .next (s.recIn c 0x50 r)
def execHealthCmd (c : Fin 3) (r : RecIn) (s : State) : Res := .next (s.recIn c 0x51 r)
/-- Opcodes 0xC0 to 0xDF. -/
def execDiagnostics (c : Fin 3) (op : Fin 32) (r : RecIn) (s : State) : Res := .next (s.recIn c (0xC0 + op) r)
/-- A reserved or device-only opcode. -/
def execUnknownOpcode (c : Fin 3) (op : Byte) (r : RecIn) (s : State) : Res := .next (s.recIn c op.toNat r)
/-- Opcodes 0x80 to 0xBF. -/
def execProgramCommand (c : Fin 3) (op : Fin 64) (r : RecIn) (s : State) : Res := .next (s.recIn c (0x80 + op) r)

/-! ### Ethernet (R325 to R327) -/

def bcastAddr : Nat := 0xFFFFFFFFFFFF

/-- The size of a frame, FCS included. -/
def ethSize (f : EthIn) : Nat := f.frame.length + 4

def ethDst (f : EthIn) : Nat := beAt f.frame 0 6
def ethSrc (f : EthIn) : Nat := beAt f.frame 6 6

def State.ownMac (s : State) (p dst : Nat) : Bool := s.loader.cfg.ho.mac[p]? == some dst

/-- The receive filter on the destination address; of the broadcast frames ARP alone passes it. -/
def State.ethFilter (s : State) (p dst : Nat) : Bool :=
  s.ownMac p dst || (s.loader.cfg.ho.multicast.take 8).contains dst || dst == gptpAddr || dst == bcastAddr

/-- What a frame holds from the EtherType on, with MACsec opened (R326): none for a frame that fails its validation. -/
def State.macsecIn (s : State) (p : Nat) (f : List Byte) : Option (List Byte × State) :=
  if s.macsecOn p then s.secOpen p f else some (f.drop 12, s)

/-- Where the host of channel p is: over IEEE 1722, or where a datagram came from. -/
def State.setPeer (s : State) (p : Nat) (x : Option (Nat × Nat × Nat)) : State := s.updHost (fun h => { h with peer := h.peer.set p x })

/-- The protocols of R325; others are ignored. `src` is the sender's address. -/
def State.ethBody (s : State) (p src : Nat) (own : Bool) (body : EthBody) : State :=
  let h := s.loader.cfg.ho
  match body with
  | .ntscf stream msgs =>
    if h.streamIds.contains stream then
      (msgs.filter (fun m => m.1 = h.gpcMsgId)).foldl (fun s m => s.routeBytes p m.2 (m.2.length + 1)) (s.setPeer p none)
    else s
  | .udp ip port srcIp srcPort data =>
    if h.bench ∧ ip = h.ip ∧ port = h.udpPort then (s.setPeer p (some (src, srcIp, srcPort))).routeBytes p data (data.length + 1) else s
  | .arp ip mac srcIp => if h.bench ∧ ip = h.ip then s.ethOut p (.arpReply mac srcIp) else s
  | .echo ip srcIp data => if h.bench ∧ ip = h.ip ∧ own then s.ethOut p (.echoReply src srcIp data) else s
  | .other => s

/-- A frame whose size and FCS are good. -/
def State.ethGood (s : State) (p : Nat) (f : EthIn) : State :=
  if s.ethFilter p (ethDst f) = false then s
  else
    let s := if s.ownMac p (ethDst f) then s.wakeNote 5 else s
    match s.macsecIn p f.frame with
    | none => s.bump (rHOSTIF_ETH_MACSEC_ERR p)
    | some (d, s) =>
      let body := frameBody d
      if ethDst f = bcastAddr ∧ isArp body = false then s else s.ethBody p (ethSrc f) (s.ownMac p (ethDst f)) body

/-- ETH_FRAME_RX. -/
def execEthFrameRx (p : Fin 2) (f : EthIn) (s : State) : Res :=
  .next (if s.boot.porst = false ∨ s.ethUp p = false then s
    else if f.fcsOk = false ∨ ethSize f < 64 ∨ s.getF (fHOSTIF_ETH_CFG_MAX_FRAME p) < ethSize f then s.bump (rHOSTIF_ETH_RX_ERR p)
    else s.ethGood p f)

/-- ETH_LINK. -/
def execEthLink (p : Fin 2) (up : Bool) (s : State) : Res :=
  .next (if s.boot.porst = false ∨ s.isF (fHOSTIF_ETH_CFG_EN p) = false ∨ s.isF (fHOSTIF_ETH_STATUS_LINK p) = up then s
    else (s.setB (fHOSTIF_ETH_STATUS_LINK p) up).hostEv evHOST_ETH_LINK p srcHOSTIF (2 * p + up.toNat))

/-! ### SPI (R331, R332) -/

def spiOK : Nat := 0
def spiHEADER : Nat := 1
def spiDATA : Nat := 2
def spiBUS : Nat := 3
def spiUNKNOWN : Nat := 4
def spiEARLY : Nat := 5
def spiFULL : Nat := 6

/-- The seven bytes sent during the header. -/
def State.spiHead (s : State) : List Byte :=
  let held := s.hamper.held
  let flags := (!held.isEmpty || s.hamper.summary.isSome).toNat + 2 * (held.any (fun c => c.2.kind.prio == 0)).toNat
    + 4 * (!s.host.replies.isEmpty).toNat + 8 * s.faultNAsserted.toNat
  leBytes 1 (s.getF fHOSTIF_SPI_STATUS_RESULT) ++ leBytes 1 flags ++ (leBytes 2 held.length).reverse ++ leBytes 3 0

/-- A frame ends: what the device has sent in it, followed by 0xFF until chip select rises where its header CRC has failed, and its result,
which the next frame reports. -/
def State.spiDone (s : State) (miso : List Byte) (result : Nat) : State :=
  (s.updHost (fun h => { h with miso := miso, misoFill := result == spiHEADER })).setF fHOSTIF_SPI_STATUS_RESULT result

/-- Would an access to the offset be a bus error (R27)? -/
def State.offBad (s : State) (off : Nat) : Bool :=
  decide (off % 4 ≠ 0) || (!s.absentUnit off && (curveOff off).isNone && (regRow ((tgMirror off).getD off)).isNone)

/-- The offsets of `n` words. -/
def spiOffs (off step n : Nat) : List Nat := (List.range n).map (fun i => off + step * i)

def State.spiBusResult (s : State) (offs : List Nat) : Nat := if offs.any s.offBad then spiBUS else spiOK

/-- A frame as every command begins: nothing while the core has no supply (R447); chip select wakes the device (R406); a failed header
CRC ends it. `body` goes on with the header's bytes. -/
def State.spiFrame (s : State) (fin : SpiEnd) (body : List Byte → State → State) : State :=
  if s.boot.porst = false then s
  else
    let head := s.spiHead
    let s := s.wakeNote 6
    if fin = .headerCrc then (s.bump rHOSTIF_SPI_CRC_COUNT).spiDone head spiHEADER else body head s

/-- A frame that writes: no word is applied until the data CRC has passed. -/
def State.spiPut (s : State) (fin : SpiEnd) (act : State → Nat × State) : State :=
  s.spiFrame fin (fun head s =>
    match fin with
    | .early => s.spiDone head spiEARLY
    | .dataCrc => (s.bump rHOSTIF_SPI_CRC_COUNT).spiDone head spiDATA
    | _ =>
      let (r, s) := act s
      s.spiDone head r)

/-- WRITE and WRITE_FIXED. -/
def State.spiWriteOp (s : State) (off step : Nat) (ws : List Word) (fin : SpiEnd) : State :=
  s.spiPut fin (fun s => (s.spiBusResult (spiOffs off step ws.length), s.writeWords off step ws))

def execSpiWrite (off : BitVec 24) (ws : List Word) (fin : SpiEnd) (s : State) : Res := .next (s.spiWriteOp off.toNat 4 ws fin)
def execSpiWriteFixed (off : BitVec 24) (ws : List Word) (fin : SpiEnd) (s : State) : Res := .next (s.spiWriteOp off.toNat 0 ws fin)

/-- READ and READ_FIXED: the header's bytes, then the data and its CRC; how many words a frame cut short has read is open. -/
def State.spiReadOp (s : State) (off step n : Nat) (fin : SpiEnd) : State :=
  s.spiFrame fin (fun head s =>
    if fin = .early then
      let (v, s) := s.fresh
      let (ws, s) := s.readWords msSPI off step (v.toNat % (n + 1))
      s.spiDone (head ++ wordBytes ws) spiEARLY
    else
      let r := s.spiBusResult (spiOffs off step n)
      let (ws, s) := s.readWords msSPI off step n
      let b := wordBytes ws
      s.spiDone (head ++ b ++ [crc8 b]) r)

def execSpiRead (off : BitVec 24) (n : Fin 512) (fin : SpiEnd) (s : State) : Res := .next (s.spiReadOp off.toNat 4 (n + 1) fin)
def execSpiReadFixed (off : BitVec 24) (n : Fin 512) (fin : SpiEnd) (s : State) : Res := .next (s.spiReadOp off.toNat 0 (n + 1) fin)

/-- MBOX_WRITE: a record that finds the input mailbox full is discarded. -/
def execMboxWrite (ws : List Word) (fin : SpiEnd) (s : State) : Res :=
  .next (s.spiPut fin (fun s =>
    if 4 ≤ s.host.mbox.length then (spiFULL, s)
    else (spiOK, s.updHost (fun h => { h with mbox := h.mbox ++ [wordBytes ws] }))))

/-- The oldest reply, padded with zeros to `n` words, is removed. -/
def State.mboxTake (s : State) (n : Nat) : List Byte × State :=
  match s.host.replies with
  | [] => (List.replicate (4 * n) 0#8, s)
  | r :: t => ((holvoBytes r ++ List.replicate (4 * n) 0#8).take (4 * n), s.updHost (fun h => { h with replies := t }))

/-- MBOX_READ; whether a frame cut short removes the record is open. -/
def execMboxRead (n : Fin 512) (fin : SpiEnd) (s : State) : Res :=
  .next (s.spiFrame fin (fun head s =>
    if fin = .early then
      let (v, s) := s.fresh
      let s := if v.getLsbD 0 then (s.mboxTake (n + 1)).2 else s
      s.spiDone head spiEARLY
    else
      let (b, s) := s.mboxTake (n + 1)
      s.spiDone (head ++ b ++ [crc8 b]) spiOK))

/-- An unknown command is not executed. -/
def execSpiUnknownCommand (_cmd : Byte) (s : State) : Res :=
  .next (s.spiFrame .ok (fun head s => s.spiDone head spiUNKNOWN))

/-- The router takes the oldest record of the input mailbox. -/
def State.mboxRoute (s : State) : State :=
  match s.host.mbox with
  | [] => s
  | b :: t =>
    let s := s.updHost (fun h => { h with mbox := t })
    if b.length < 12 ∨ b.length < 12 + fileN b 4 2 then s.raise fMSG_ROUTER_FLAGS_RX_FORMAT rMSG_RX_FORMAT_COUNT
    else s.routeBytes 2 (b.take ((12 + fileN b 4 2 + 3) / 4 * 4)) 1

/-! ### CAN (R330) -/

def State.canOf (s : State) (c : Nat) : CanSt := nth {} s.host.can c

/-- Is a LAMP_REQ frame valid: its CRC passes and its counter has advanced by 1 to 3? -/
def canValid (last : Option Nat) (b : List Byte) : Bool :=
  decide (b.length = 8) && b.headD 0 == crc8 (b.drop 1)
    && (match last with
      | none => true
      | some l => decide (1 ≤ (fileN b 1 1 % 16 + 16 - l) % 16 ∧ (fileN b 1 1 % 16 + 16 - l) % 16 ≤ 3))

/-- The request of the two controllers together. -/
def State.canLatched (s : State) : Bool := s.isF (fHOSTIF_CAN_STATUS_LATCHED 0) || s.isF (fHOSTIF_CAN_STATUS_LATCHED 1)

/-- A valid LAMP_REQ on controller c. -/
def State.canTake (s : State) (c : Nat) (b : List Byte) : State :=
  let fb := (fileN b 2 1).testBit 0
  let prev := (s.canOf c).prev
  let was := s.canLatched
  let x : CanSt := { last := some (fileN b 1 1 % 16), prev := some fb }
  let s := (s.updHost (fun h => { h with can := h.can.set c x })).setF (fHOSTIF_CAN_STATUS_ALIVE c) 1
  let s := if prev = some fb then s.setB (fHOSTIF_CAN_STATUS_LATCHED c) fb else s
  let s := if s.canLatched = was then s
    else (s.lampReq s.canLatched).hostEv evHOST_CAN_REQ 0 srcHOSTIF s.canLatched.toNat
  if prev = some (!fb) then s.wakeNote 7 else s

/-- Do the CAN controllers work: identifiers and bit rates come from HOST. -/
def State.canOn (s : State) (c : Nat) : Bool :=
  s.boot.porst && decide (2 ≤ s.loader.phase) && !s.isF (fHOSTIF_CAN_STATUS_BUS_OFF c)

/-- The receive error counter after a frame that the protocol's checks pass: one less, and from above 127 to a value from 119 to 127
(ISO 11898-1, log 51). -/
def State.canRecOk (s : State) (c : Nat) : State :=
  let n := s.getF (fHOSTIF_CAN_STATUS_REC c)
  if n ≤ 127 then s.setF (fHOSTIF_CAN_STATUS_REC c) (n - 1)
  else
    let (v, s) := s.fresh
    s.setF (fHOSTIF_CAN_STATUS_REC c) (119 + v.toNat % 9)

/-- LAMP_REQ: a frame with another identifier than HOST's is none. -/
def execLampReq (c : Fin 2) (x : CanRx) (s : State) : Res :=
  .next (if s.canOn c = false then s
    else match x with
      | .error eight => s.setF (fHOSTIF_CAN_STATUS_REC c) (satAt 255 (s.getF (fHOSTIF_CAN_STATUS_REC c) + if eight then 8 else 1))
      | .frame id b =>
        let s := s.canRecOk c
        if id ≠ s.loader.cfg.ho.canReqId.getD c {} then s
        else if canValid (s.canOf c).last b then s.canTake c b
        else s.bump (rHOSTIF_CAN_BAD_COUNT c))

/-- CAN_LOST: the latched state is kept. -/
def execCanLost (c : Fin 2) (s : State) : Res :=
  .next (if s.boot.porst = false then s
    else (s.setF (fHOSTIF_CAN_STATUS_ALIVE c) 0).hostEv evHOST_CAN_LOST c srcHOSTIF c)

/-- CAN_BUS_OFF. -/
def execCanBusOff (c : Fin 2) (s : State) : Res :=
  .next (if s.boot.porst = false then s else s.canBusOff c)

end Sys2Proof.Machine
end

