-- ==== Sys2Proof/Machine/Arch.lean ====
section
/-! DEFINITION. Chapter 1's own commands: staleness of the hold-last-value registers (R13), the load and the heartbeat of the management
cores (R15 to R17), urgent requests (R23). -/

namespace Sys2Proof.Machine

/-- Has the FRC moved past the staleness limit of input `k`, in ms, since HK's last write (R13)? -/
def State.hlvPast (s : State) (k : Nat) : Bool :=
  decide (ticksMs (s.getF ⟨rHK_HLV_LIMIT, 8 * k, 8⟩) < (s.time.frc + 2 ^ 64 - s.hlv.stamp.getD k 0) % 2 ^ 64)

/-- HLV_STALE (R13): the limit of input `k` has passed: 0 derate, 1 temperature, 2 current cap. The block temperatures freeze at once;
the defaults apply from the next latch point. -/
def State.hlvStaleOp (s : State) (k : Nat) : State :=
  let f : Fld := ⟨rHK_HLV_STATUS, k, 1⟩
  if s.isF f ∨ s.time.frcRun = false ∨ s.hlvPast k = false then s
  else
    let s := s.setF f 1
    let s := if k = 1 then
        { s with hlv := { s.hlv with frozen := (List.range 1024).map (fun b => (b, s.reg (rHK_BLKTEMP b))) } } else s
    s.post evTHERMAL_HLV_STALE srcHK (bitsOf (s.regN rHK_HLV_STATUS) 0 3)

def execHlvStale (which : Fin 3) (s : State) : Res := .next (s.hlvStaleOp which)

/-- SHED_LEVEL changes (R16). -/
def State.setShed (s : State) (level : Nat) : State :=
  if s.shed = level then s else (s.setF fTOP_MC_LOAD_SHED_LEVEL level).hostEv evHOST_MC_SHED 0 srcMC0 level

/-- A 10 ms window ends. The combined load is the mean of the two. -/
def State.mcWindow (s : State) (a b : Nat) : State :=
  let s := (s.setF fTOP_MC_LOAD_LOAD_0 a).setF fTOP_MC_LOAD_LOAD_1 b
  let hi := if 180 < a + b then s.mc.hi + 1 else 0
  let lo := if a + b < 140 then s.mc.lo + 1 else 0
  let s := { s with mc := { s.mc with hi := hi % 3, lo := lo % 3 } }
  if hi = 3 then s.setShed (min 3 (s.shed + 1)) else if lo = 3 then s.setShed (s.shed - 1) else s

def execMcLoadWindow (load0 load1 : Fin 101) (s : State) : Res :=
  .next (if s.fwRuns then s.mcWindow load0 load1 else s)

/-- MC_HEARTBEAT: the bit clears when heartbeats resume (R17). -/
def execMcHeartbeat (s : State) : Res := .next (s.inCore (fun s => s.heard.setF fSAFETY_STATUS_MC_LOST 0))

/-- MC_HEARTBEAT_LOST: SC has seen no heartbeat for 100 ms, a count that IDLE suspends (R407). -/
def execMcHeartbeatLost (s : State) : Res :=
  .next (if s.boot.fwStarted = false ∨ s.isF fSAFETY_STATUS_MC_LOST ∨ s.getF fPWR_PWR_STATUS_CURRENT = 1
        ∨ s.time.now < s.mc.beat + ticksMs 100 then s
    else ((s.setF fSAFETY_STATUS_MC_LOST 1).sfEv evSAFETY_MC_HEARTBEAT_LOST 0 srcSC 0).evtTakeover)

/-- The prefetch lead as CP_n.PREFETCH shows it. -/
def State.setLead (s : State) (n lead : Nat) : State :=
  s.setF (fCP_PREFETCH_LEAD n) lead

/-- URGENT_ENTRY: the prefetch lead of pipeline n is below 4 rows. -/
def execUrgentEntry (n : Fin 4) (lead : Fin 4) (s : State) : Res :=
  .next (if s.boot.porst = false ∨ s.absentUnit (rCP_STATUS n) ∨ s.isF (fCP_STATUS_URGENT n) ∨ 4 ≤ lead.val then s
    else ((s.setLead n lead).setF (fCP_STATUS_URGENT n) 1).bump (rCP_URGENT_COUNT n))

/-- URGENT_EXIT: the lead is back at 8 rows. -/
def execUrgentExit (n : Fin 4) (lead : Byte) (s : State) : Res :=
  .next (if s.boot.porst = false ∨ s.absentUnit (rCP_STATUS n) ∨ lead.toNat < 8 then s else (s.setLead n lead.toNat).setF (fCP_STATUS_URGENT n) 0)

end Sys2Proof.Machine
end

