-- ==== Sys2Proof/Machine/Tick.lean ====
section
/-! DEFINITION. What one tick of 1.25 ns does when no command waits (log 4): time runs, and the units take up what has been left for
them. -/

namespace Sys2Proof.Machine

/-- Model time, and the FRC with the slew while it runs. -/
def State.tickTime (s : State) : State :=
  let s := s.updTime (fun t => { t with now := t.now + 1 })
  if s.time.frcRun = false then s
  else
    let r := s.time.resid
    let r2 := slewStep r (s.dom s.active).incr
    let s := s.updTime (fun t => { t with frc := (t.frc + 1) % 2 ^ 64 })
    if r2 = r then s else s.setResid r2

/-- A residual beyond the slew is stepped away at once when no generator runs (R303). -/
def State.tickStep (s : State) : State :=
  if s.time.frcRun ∧ s.lampTg.isNone then s.timeStepOp else s

/-- The enable of a switch test falls 110 µs before its guard interval ends, at once where the generator has stopped (R200, R372). -/
def State.pulseStep (s : State) (n : Nat) : State :=
  let g := s.tgOf n
  if (s.safeT n).due.isNone then s
  else if s.tgState n = tgOFF ∨ (g.pulse ∧ g.e - 110000 ≤ s.lampRat) then s.pulseFall n else s

/-- At a lane-word boundary, a multiple of 16 FRC ticks, the ports send their next lane words (R211). -/
def State.laneTick (s : State) : State :=
  if s.time.frcRun ∧ s.time.frc % 16 = 0 then (List.range 4).foldl State.laneStep s else s

/-- One tick. -/
def State.tick (s : State) : State :=
  let s := s.tickTime.laneTick.pmicStep.settleCross
  let s := s.deltaStep
  let s := (List.range 4).foldl State.pulseStep ((List.range 4).foldl State.preEnter s.wakeStep.tickStep)
  let s := if s.boot.porst then s.mboxRoute.fwServe else s
  (List.range 4).foldl State.crcStep s.pwrTake.startDone.traceStep

end Sys2Proof.Machine
end

