-- ==== Sys2Proof/Machine/Dispatch.lean ====
section
/-! DEFINITION. The dispatch: one arm per command, each one direct call of its meaning. -/

namespace Sys2Proof.Machine

def exec (i : Instr) (s : State) : Host.Outcome State Fault Refusal :=
  match i with
  | .registerWrite off v => Sys2Proof.Machine.execRegisterWrite off v s
  | .hlvStale which => Sys2Proof.Machine.execHlvStale which s
  | .mcLoadWindow load0 load1 => Sys2Proof.Machine.execMcLoadWindow load0 load1 s
  | .mcHeartbeat => Sys2Proof.Machine.execMcHeartbeat s
  | .mcHeartbeatLost => Sys2Proof.Machine.execMcHeartbeatLost s
  | .urgentEntry n lead => Sys2Proof.Machine.execUrgentEntry n lead s
  | .urgentExit n lead => Sys2Proof.Machine.execUrgentExit n lead s
  | .stageData v => Sys2Proof.Machine.execStageData v s
  | .stageTimeout => Sys2Proof.Machine.execStageTimeout s
  | .hostPushLoad contents => Sys2Proof.Machine.execHostPushLoad contents s
  | .pmicIdentityRead id => Sys2Proof.Machine.execPmicIdentityRead id s
  | .loadPhase2 => Sys2Proof.Machine.execLoadPhase2 s
  | .keyProgram slot => Sys2Proof.Machine.execKeyProgram slot s
  | .revoke slot => Sys2Proof.Machine.execRevoke slot s
  | .advance => Sys2Proof.Machine.execAdvance s
  | .wrap => Sys2Proof.Machine.execWrap s
  | .wrapLock => Sys2Proof.Machine.execWrapLock s
  | .otpDone => Sys2Proof.Machine.execOtpDone s
  | .updateVerify => Sys2Proof.Machine.execUpdateVerify s
  | .updateVerified contents => Sys2Proof.Machine.execUpdateVerified contents s
  | .updateCommit => Sys2Proof.Machine.execUpdateCommit s
  | .updateCopyDone => Sys2Proof.Machine.execUpdateCopyDone s
  | .updateCancel => Sys2Proof.Machine.execUpdateCancel s
  | .wakeN => Sys2Proof.Machine.execWakeN s
  | .porstNRise => Sys2Proof.Machine.execPorstNRise s
  | .porstNLow => Sys2Proof.Machine.execPorstNLow s
  | .pgTimeout => Sys2Proof.Machine.execPgTimeout s
  | .fioCheck ok => Sys2Proof.Machine.execFioCheck ok s
  | .refclkCheck edges => Sys2Proof.Machine.execRefclkCheck edges s
  | .refclkRecheck edges => Sys2Proof.Machine.execRefclkRecheck edges s
  | .pllLock p => Sys2Proof.Machine.execPllLock p s
  | .pllLockTimeout p => Sys2Proof.Machine.execPllLockTimeout p s
  | .railPowerGood => Sys2Proof.Machine.execRailPowerGood s
  | .railFail => Sys2Proof.Machine.execRailFail s
  | .selftestDone tt pass => Sys2Proof.Machine.execSelftestDone tt pass s
  | .startupSwitchTest n a b => Sys2Proof.Machine.execStartupSwitchTest n a b s
  | .fbEnAssert n => Sys2Proof.Machine.execFbEnAssert n s
  | .fbLate => Sys2Proof.Machine.execFbLate s
  | .fullBeamLate => Sys2Proof.Machine.execFullBeamLate s
  | .dramTrained fail mib => Sys2Proof.Machine.execDramTrained fail mib s
  | .calMapRead n => Sys2Proof.Machine.execCalMapRead n s
  | .handoverStart n => Sys2Proof.Machine.execHandoverStart n s
  | .deepSleepWake => Sys2Proof.Machine.execDeepSleepWake s
  | .beStart e => Sys2Proof.Machine.execBeStart e s
  | .beStop e => Sys2Proof.Machine.execBeStop e s
  | .beReset e => Sys2Proof.Machine.execBeReset e s
  | .engineRestart e => Sys2Proof.Machine.execEngineRestart e s
  | .jobTrigger e srcs => Sys2Proof.Machine.execJobTrigger e srcs s
  | .nop e f => Sys2Proof.Machine.execNop e f s
  | .halt e f => Sys2Proof.Machine.execHalt e f s
  | .br e f => Sys2Proof.Machine.execBr e f s
  | .brz e f => Sys2Proof.Machine.execBrz e f s
  | .brnz e f => Sys2Proof.Machine.execBrnz e f s
  | .brlt e f => Sys2Proof.Machine.execBrlt e f s
  | .brany e f => Sys2Proof.Machine.execBrany e f s
  | .brnone e f => Sys2Proof.Machine.execBrnone e f s
  | .call e f => Sys2Proof.Machine.execCall e f s
  | .ret e f => Sys2Proof.Machine.execRet e f s
  | .loop e f => Sys2Proof.Machine.execLoop e f s
  | .add e f => Sys2Proof.Machine.execAdd e f s
  | .sub e f => Sys2Proof.Machine.execSub e f s
  | .mul e f => Sys2Proof.Machine.execMul e f s
  | .mulh e f => Sys2Proof.Machine.execMulh e f s
  | .and e f => Sys2Proof.Machine.execAnd e f s
  | .or e f => Sys2Proof.Machine.execOr e f s
  | .xor e f => Sys2Proof.Machine.execXor e f s
  | .shl e f => Sys2Proof.Machine.execShl e f s
  | .shr e f => Sys2Proof.Machine.execShr e f s
  | .sra e f => Sys2Proof.Machine.execSra e f s
  | .slt e f => Sys2Proof.Machine.execSlt e f s
  | .sltu e f => Sys2Proof.Machine.execSltu e f s
  | .min e f => Sys2Proof.Machine.execMin e f s
  | .max e f => Sys2Proof.Machine.execMax e f s
  | .div e f => Sys2Proof.Machine.execDiv e f s
  | .addi e f => Sys2Proof.Machine.execAddi e f s
  | .subi e f => Sys2Proof.Machine.execSubi e f s
  | .muli e f => Sys2Proof.Machine.execMuli e f s
  | .mulhi e f => Sys2Proof.Machine.execMulhi e f s
  | .andi e f => Sys2Proof.Machine.execAndi e f s
  | .ori e f => Sys2Proof.Machine.execOri e f s
  | .xori e f => Sys2Proof.Machine.execXori e f s
  | .shli e f => Sys2Proof.Machine.execShli e f s
  | .shri e f => Sys2Proof.Machine.execShri e f s
  | .srai e f => Sys2Proof.Machine.execSrai e f s
  | .slti e f => Sys2Proof.Machine.execSlti e f s
  | .sltui e f => Sys2Proof.Machine.execSltui e f s
  | .mini e f => Sys2Proof.Machine.execMini e f s
  | .maxi e f => Sys2Proof.Machine.execMaxi e f s
  | .divi e f => Sys2Proof.Machine.execDivi e f s
  | .li e f => Sys2Proof.Machine.execLi e f s
  | .movspr e f => Sys2Proof.Machine.execMovspr e f s
  | .movtspr e f => Sys2Proof.Machine.execMovtspr e f s
  | .pmov e f => Sys2Proof.Machine.execPmov e f s
  | .pld e f => Sys2Proof.Machine.execPld e f s
  | .pcnt e f => Sys2Proof.Machine.execPcnt e f s
  | .ldw e f => Sys2Proof.Machine.execLdw e f s
  | .stw e f => Sys2Proof.Machine.execStw e f s
  | .ldh e f => Sys2Proof.Machine.execLdh e f s
  | .sth e f => Sys2Proof.Machine.execSth e f s
  | .vld e f => Sys2Proof.Machine.execVld e f s
  | .vst e f => Sys2Proof.Machine.execVst e f s
  | .vgather e f => Sys2Proof.Machine.execVgather e f s
  | .vscatter e f => Sys2Proof.Machine.execVscatter e f s
  | .vadd e f => Sys2Proof.Machine.execVadd e f s
  | .vadds e f => Sys2Proof.Machine.execVadds e f s
  | .vsub e f => Sys2Proof.Machine.execVsub e f s
  | .vsubs e f => Sys2Proof.Machine.execVsubs e f s
  | .vmulh e f => Sys2Proof.Machine.execVmulh e f s
  | .vmull e f => Sys2Proof.Machine.execVmull e f s
  | .vmac e f => Sys2Proof.Machine.execVmac e f s
  | .vmin e f => Sys2Proof.Machine.execVmin e f s
  | .vmax e f => Sys2Proof.Machine.execVmax e f s
  | .vand e f => Sys2Proof.Machine.execVand e f s
  | .vor e f => Sys2Proof.Machine.execVor e f s
  | .vxor e f => Sys2Proof.Machine.execVxor e f s
  | .vshl e f => Sys2Proof.Machine.execVshl e f s
  | .vshr e f => Sys2Proof.Machine.execVshr e f s
  | .vsra e f => Sys2Proof.Machine.execVsra e f s
  | .vabsd e f => Sys2Proof.Machine.execVabsd e f s
  | .vsel e f => Sys2Proof.Machine.execVsel e f s
  | .vlut e f => Sys2Proof.Machine.execVlut e f s
  | .vsplat e f => Sys2Proof.Machine.execVsplat e f s
  | .vlane e f => Sys2Proof.Machine.execVlane e f s
  | .vext e f => Sys2Proof.Machine.execVext e f s
  | .vins e f => Sys2Proof.Machine.execVins e f s
  | .vsum e f => Sys2Proof.Machine.execVsum e f s
  | .vmov e f => Sys2Proof.Machine.execVmov e f s
  | .vcmpeq e f => Sys2Proof.Machine.execVcmpeq e f s
  | .vcmplt e f => Sys2Proof.Machine.execVcmplt e f s
  | .vcmplts e f => Sys2Proof.Machine.execVcmplts e f s
  | .vcmple e f => Sys2Proof.Machine.execVcmple e f s
  | .pand e f => Sys2Proof.Machine.execPand e f s
  | .por e f => Sys2Proof.Machine.execPor e f s
  | .pandn e f => Sys2Proof.Machine.execPandn e f s
  | .pnot e f => Sys2Proof.Machine.execPnot e f s
  | .pset e f => Sys2Proof.Machine.execPset e f s
  | .redge e f => Sys2Proof.Machine.execRedge e f s
  | .rcov e f => Sys2Proof.Machine.execRcov e f s
  | .rsetxy e f => Sys2Proof.Machine.execRsetxy e f s
  | .samp e f => Sys2Proof.Machine.execSamp e f s
  | .sampn e f => Sys2Proof.Machine.execSampn e f s
  | .dmaq e f => Sys2Proof.Machine.execDmaq e f s
  | .dmawait e f => Sys2Proof.Machine.execDmawait e f s
  | .dmastat e f => Sys2Proof.Machine.execDmastat e f s
  | .fsig e f => Sys2Proof.Machine.execFsig e f s
  | .fwait e f => Sys2Proof.Machine.execFwait e f s
  | .frd e f => Sys2Proof.Machine.execFrd e f s
  | .mbrecv e f => Sys2Proof.Machine.execMbrecv e f s
  | .mbfree e f => Sys2Proof.Machine.execMbfree e f s
  | .mbcount e f => Sys2Proof.Machine.execMbcount e f s
  | .evpost e f => Sys2Proof.Machine.execEvpost e f s
  | .haltComplete e => Sys2Proof.Machine.execHaltComplete e s
  | .dmaQueueRoom e => Sys2Proof.Machine.execDmaQueueRoom e s
  | .dmaDescComplete e ch => Sys2Proof.Machine.execDmaDescComplete e ch s
  | .dmaErr e ch => Sys2Proof.Machine.execDmaErr e ch s
  | .fsigWritesVisible e => Sys2Proof.Machine.execFsigWritesVisible e s
  | .fwaitSatisfied e => Sys2Proof.Machine.execFwaitSatisfied e s
  | .fwaitTimeout e => Sys2Proof.Machine.execFwaitTimeout e s
  | .mbrecvDelivered e => Sys2Proof.Machine.execMbrecvDelivered e s
  | .watchdog e => Sys2Proof.Machine.execWatchdog e s
  | .agingConversion => Sys2Proof.Machine.execAgingConversion s
  | .flip c r => Sys2Proof.Machine.execFlip c r s
  | .flipCommit g mask => Sys2Proof.Machine.execFlipCommit g mask s
  | .latchPoint => Sys2Proof.Machine.execLatchPoint s
  | .rawAddrWrite l lo => Sys2Proof.Machine.execRawAddrWrite l lo s
  | .rowCompose n => Sys2Proof.Machine.execRowCompose n s
  | .csiLongPacket rx vc dt hdr payload crcOk => Sys2Proof.Machine.execCsiLongPacket rx vc dt hdr payload crcOk s
  | .csiFrameStart rx vc hdr => Sys2Proof.Machine.execCsiFrameStart rx vc hdr s
  | .csiFrameEnd rx vc hdr => Sys2Proof.Machine.execCsiFrameEnd rx vc hdr s
  | .updateWindow n rows => Sys2Proof.Machine.execUpdateWindow n rows s
  | .updCommit n => Sys2Proof.Machine.execUpdCommit n s
  | .updFill n => Sys2Proof.Machine.execUpdFill n s
  | .updCancel n => Sys2Proof.Machine.execUpdCancel n s
  | .fillDone n => Sys2Proof.Machine.execFillDone n s
  | .transferEnd n snapOk recOk late => Sys2Proof.Machine.execTransferEnd n snapOk recOk late s
  | .recFreeze => Sys2Proof.Machine.execRecFreeze s
  | .recRearm => Sys2Proof.Machine.execRecRearm s
  | .recFrozen => Sys2Proof.Machine.execRecFrozen s
  | .tgStart n => Sys2Proof.Machine.execTgStart n s
  | .tgStop n => Sys2Proof.Machine.execTgStop n s
  | .swap n => Sys2Proof.Machine.execSwap n s
  | .slot n k => Sys2Proof.Machine.execSlot n k s
  | .sense n => Sys2Proof.Machine.execSense n s
  | .frameStart n => Sys2Proof.Machine.execFrameStart n s
  | .rowSlot n => Sys2Proof.Machine.execRowSlot n s
  | .timingCommit v => Sys2Proof.Machine.execTimingCommit v s
  | .directTimingWrite off v => Sys2Proof.Machine.execDirectTimingWrite off v s
  | .ztlEnable n => Sys2Proof.Machine.execZtlEnable n s
  | .ztlDisable n => Sys2Proof.Machine.execZtlDisable n s
  | .ztlRecal n => Sys2Proof.Machine.execZtlRecal n s
  | .ztlRetry n => Sys2Proof.Machine.execZtlRetry n s
  | .bringupAttempt n => Sys2Proof.Machine.execBringupAttempt n s
  | .detectDone n lanes => Sys2Proof.Machine.execDetectDone n lanes s
  | .trainDone n => Sys2Proof.Machine.execTrainDone n s
  | .lockDone n lanes => Sys2Proof.Machine.execLockDone n lanes s
  | .attemptTimeout n => Sys2Proof.Machine.execAttemptTimeout n s
  | .capsBlock n b => Sys2Proof.Machine.execCapsBlock n b s
  | .authBlock n b => Sys2Proof.Machine.execAuthBlock n b s
  | .authTimeout n => Sys2Proof.Machine.execAuthTimeout n s
  | .trainReport n p => Sys2Proof.Machine.execTrainReport n p s
  | .linkStatus n p => Sys2Proof.Machine.execLinkStatus n p s
  | .spareMarginCheck n centre off => Sys2Proof.Machine.execSpareMarginCheck n centre off s
  | .recalStep n => Sys2Proof.Machine.execRecalStep n s
  | .laneRetrain n lane => Sys2Proof.Machine.execLaneRetrain n lane s
  | .backFail n => Sys2Proof.Machine.execBackFail n s
  | .backRestored n => Sys2Proof.Machine.execBackRestored n s
  | .bkLossOfSignal n => Sys2Proof.Machine.execBkLossOfSignal n s
  | .selMapLoad n => Sys2Proof.Machine.execSelMapLoad n s
  | .ack n p => Sys2Proof.Machine.execAck n p s
  | .swapAck n p => Sys2Proof.Machine.execSwapAck n p s
  | .swapAckMissing n => Sys2Proof.Machine.execSwapAckMissing n s
  | .fbAckLate n => Sys2Proof.Machine.execFbAckLate n s
  | .tileStatus n p => Sys2Proof.Machine.execTileStatus n p s
  | .regData n p => Sys2Proof.Machine.execRegData n p s
  | .senseBlock n b => Sys2Proof.Machine.execSenseBlock n b s
  | .nvBlock n b => Sys2Proof.Machine.execNvBlock n b s
  | .tregRead n => Sys2Proof.Machine.execTregRead n s
  | .tregWrite n => Sys2Proof.Machine.execTregWrite n s
  | .tregTimeout n => Sys2Proof.Machine.execTregTimeout n s
  | .lifeRecordWrite n => Sys2Proof.Machine.execLifeRecordWrite n s
  | .baseline n => Sys2Proof.Machine.execBaseline n s
  | .checkpoint => Sys2Proof.Machine.execCheckpoint s
  | .clearState n spare pixel => Sys2Proof.Machine.execClearState n spare pixel s
  | .baselineAutoStart n => Sys2Proof.Machine.execBaselineAutoStart n s
  | .fullCheckpointDue n => Sys2Proof.Machine.execFullCheckpointDue n s
  | .deltaCheckpointDue => Sys2Proof.Machine.execDeltaCheckpointDue s
  | .ckptDone n ok => Sys2Proof.Machine.execCkptDone n ok s
  | .accRestored => Sys2Proof.Machine.execAccRestored s
  | .incrWrite d v => Sys2Proof.Machine.execIncrWrite d v s
  | .offsetWrite d v => Sys2Proof.Machine.execOffsetWrite d v s
  | .adjWrite d v => Sys2Proof.Machine.execAdjWrite d v s
  | .offsetMeasWrite d v => Sys2Proof.Machine.execOffsetMeasWrite d v s
  | .snapCmd v => Sys2Proof.Machine.execSnapCmd v s
  | .ltLoRead => Sys2Proof.Machine.execLtLoRead s
  | .domainSwitch v => Sys2Proof.Machine.execDomainSwitch v s
  | .timeStep => Sys2Proof.Machine.execTimeStep s
  | .slewEnd => Sys2Proof.Machine.execSlewEnd s
  | .domainStale => Sys2Proof.Machine.execDomainStale s
  | .gptpSync k offset => Sys2Proof.Machine.execGptpSync k offset s
  | .gptpAnnounce k gm => Sys2Proof.Machine.execGptpAnnounce k gm s
  | .gptpPdelay p m => Sys2Proof.Machine.execGptpPdelay p m s
  | .gptpSignalling k interval => Sys2Proof.Machine.execGptpSignalling k interval s
  | .gptpLost k a => Sys2Proof.Machine.execGptpLost k a s
  | .schedArm e v => Sys2Proof.Machine.execSchedArm e v s
  | .schedDisarm e => Sys2Proof.Machine.execSchedDisarm e s
  | .schedTargetWrite e v => Sys2Proof.Machine.execSchedTargetWrite e v s
  | .eventPost e => Sys2Proof.Machine.execEventPost e s
  | .trgPulse e => Sys2Proof.Machine.execTrgPulse e s
  | .trgPulseEnd p => Sys2Proof.Machine.execTrgPulseEnd p s
  | .slotFire e => Sys2Proof.Machine.execSlotFire e s
  | .sweepStart e => Sys2Proof.Machine.execSweepStart e s
  | .hkConvert e r => Sys2Proof.Machine.execHkConvert e r s
  | .framePhase e => Sys2Proof.Machine.execFramePhase e s
  | .beWake e => Sys2Proof.Machine.execBeWake e s
  | .pwrWake e => Sys2Proof.Machine.execPwrWake e s
  | .capEdge p rising => Sys2Proof.Machine.execCapEdge p rising s
  | .capTsHiRead p => Sys2Proof.Machine.execCapTsHiRead p s
  | .ethFrameRx p f => Sys2Proof.Machine.execEthFrameRx p f s
  | .ethLink p up => Sys2Proof.Machine.execEthLink p up s
  | .fenceSignal c r => Sys2Proof.Machine.execFenceSignal c r s
  | .fenceSignalWrite v => Sys2Proof.Machine.execFenceSignalWrite v s
  | .schedWrite c r => Sys2Proof.Machine.execSchedWrite c r s
  | .pose c r => Sys2Proof.Machine.execPose c r s
  | .objectList c r => Sys2Proof.Machine.execObjectList c r s
  | .maskParam c r => Sys2Proof.Machine.execMaskParam c r s
  | .symbolSet c r => Sys2Proof.Machine.execSymbolSet c r s
  | .symbolClear c r => Sys2Proof.Machine.execSymbolClear c r s
  | .patternSet c r => Sys2Proof.Machine.execPatternSet c r s
  | .agingCtrl c r => Sys2Proof.Machine.execAgingCtrl c r s
  | .healthCfg c r => Sys2Proof.Machine.execHealthCfg c r s
  | .ping c r => Sys2Proof.Machine.execPing c r s
  | .stateReq c r => Sys2Proof.Machine.execStateReq c r s
  | .regRead c r => Sys2Proof.Machine.execRegRead c r s
  | .regWrite c r => Sys2Proof.Machine.execRegWrite c r s
  | .holvoStageData c r => Sys2Proof.Machine.execHolvoStageData c r s
  | .holvoUpdateCmd c r => Sys2Proof.Machine.execHolvoUpdateCmd c r s
  | .evtStream c r => Sys2Proof.Machine.execEvtStream c r s
  | .spoolCmd c r => Sys2Proof.Machine.execSpoolCmd c r s
  | .spoolRead c r => Sys2Proof.Machine.execSpoolRead c r s
  | .sakInstall c r => Sys2Proof.Machine.execSakInstall c r s
  | .pwrRequest c r => Sys2Proof.Machine.execPwrRequest c r s
  | .healthCmd c r => Sys2Proof.Machine.execHealthCmd c r s
  | .diagnostics c op r => Sys2Proof.Machine.execDiagnostics c op r s
  | .unknownOpcode c op r => Sys2Proof.Machine.execUnknownOpcode c op r s
  | .spiWrite off ws fin => Sys2Proof.Machine.execSpiWrite off ws fin s
  | .spiWriteFixed off ws fin => Sys2Proof.Machine.execSpiWriteFixed off ws fin s
  | .spiRead off n fin => Sys2Proof.Machine.execSpiRead off n fin s
  | .spiReadFixed off n fin => Sys2Proof.Machine.execSpiReadFixed off n fin s
  | .mboxWrite ws fin => Sys2Proof.Machine.execMboxWrite ws fin s
  | .mboxRead n fin => Sys2Proof.Machine.execMboxRead n fin s
  | .lampReq c x => Sys2Proof.Machine.execLampReq c x s
  | .canLost c => Sys2Proof.Machine.execCanLost c s
  | .canBusOff c => Sys2Proof.Machine.execCanBusOff c s
  | .lampAlarm f0 f1 => Sys2Proof.Machine.execLampAlarm f0 f1 s
  | .hamperAccept => Sys2Proof.Machine.execHamperAccept s
  | .evtPop spi => Sys2Proof.Machine.execEvtPop spi s
  | .evtSkip => Sys2Proof.Machine.execEvtSkip s
  | .evtOwnerWrite v => Sys2Proof.Machine.execEvtOwnerWrite v s
  | .eventsSend => Sys2Proof.Machine.execEventsSend s
  | .spoolWrite => Sys2Proof.Machine.execSpoolWrite s
  | .spNext => Sys2Proof.Machine.execSpNext s
  | .spOldest => Sys2Proof.Machine.execSpOldest s
  | .spSetMark => Sys2Proof.Machine.execSpSetMark s
  | .spRewind => Sys2Proof.Machine.execSpRewind s
  | .spFreeze => Sys2Proof.Machine.execSpFreeze s
  | .spRearm => Sys2Proof.Machine.execSpRearm s
  | .spFrozen => Sys2Proof.Machine.execSpFrozen s
  | .channelLost tt => Sys2Proof.Machine.execChannelLost tt s
  | .lockstepMismatch => Sys2Proof.Machine.execLockstepMismatch s
  | .ackSc mask => Sys2Proof.Machine.execAckSc mask s
  | .ackTt v => Sys2Proof.Machine.execAckTt v s
  | .ackWindowExpiry => Sys2Proof.Machine.execAckWindowExpiry s
  | .statsRecord n ok => Sys2Proof.Machine.execStatsRecord n ok s
  | .ss1HoldExpiry => Sys2Proof.Machine.execSs1HoldExpiry s
  | .actStep n => Sys2Proof.Machine.execActStep n s
  | .encoderEdge n sc tt up => Sys2Proof.Machine.execEncoderEdge n sc tt up s
  | .actSpeedWindow n => Sys2Proof.Machine.execActSpeedWindow n s
  | .actMismatch n => Sys2Proof.Machine.execActMismatch n s
  | .actHoming n => Sys2Proof.Machine.execActHoming n s
  | .sinSample tt levels => Sys2Proof.Machine.execSinSample tt levels s
  | .contactAccepted tt k b => Sys2Proof.Machine.execContactAccepted tt k b s
  | .sinDiscrepancy tt k => Sys2Proof.Machine.execSinDiscrepancy tt k s
  | .switchReadbackTimeout n hs ls => Sys2Proof.Machine.execSwitchReadbackTimeout n hs ls s
  | .testPulse n low => Sys2Proof.Machine.execTestPulse n low s
  | .testPulseEnd n mid fin => Sys2Proof.Machine.execTestPulseEnd n mid fin s
  | .fallbackAckTimeout n => Sys2Proof.Machine.execFallbackAckTimeout n s
  | .scrubRead => Sys2Proof.Machine.execScrubRead s
  | .sramCheck w => Sys2Proof.Machine.execSramCheck w s
  | .eccInject v => Sys2Proof.Machine.execEccInject v s
  | .crcScan n => Sys2Proof.Machine.execCrcScan n s
  | .crcRead n => Sys2Proof.Machine.execCrcRead n s
  | .crcWrite n => Sys2Proof.Machine.execCrcWrite n s
  | .crcAbort n => Sys2Proof.Machine.execCrcAbort n s
  | .crcDone n => Sys2Proof.Machine.execCrcDone n s
  | .pwrReqRun tiles keep => Sys2Proof.Machine.execPwrReqRun tiles keep s
  | .pwrReqIdle tiles keep => Sys2Proof.Machine.execPwrReqIdle tiles keep s
  | .pwrReqSleep tiles keep => Sys2Proof.Machine.execPwrReqSleep tiles keep s
  | .pwrReqDeepSleep tiles keep => Sys2Proof.Machine.execPwrReqDeepSleep tiles keep s
  | .pwrReqOff tiles keep => Sys2Proof.Machine.execPwrReqOff tiles keep s
  | .pwrReqAuto tiles keep => Sys2Proof.Machine.execPwrReqAuto tiles keep s
  | .scConsent => Sys2Proof.Machine.execScConsent s
  | .consentTimeout => Sys2Proof.Machine.execConsentTimeout s
  | .entryStepDone => Sys2Proof.Machine.execEntryStepDone s
  | .idleEnter => Sys2Proof.Machine.execIdleEnter s
  | .sleepExit => Sys2Proof.Machine.execSleepExit s
  | .aonWakeTimer => Sys2Proof.Machine.execAonWakeTimer s
  | .wakeFailClear => Sys2Proof.Machine.execWakeFailClear s
  | .slowPeriodMeasure ticks cycles => Sys2Proof.Machine.execSlowPeriodMeasure ticks cycles s
  | .hkRound r => Sys2Proof.Machine.execHkRound r s
  | .roundLate r => Sys2Proof.Machine.execRoundLate r s
  | .vaonRise wakeLow => Sys2Proof.Machine.execVaonRise wakeLow s
  | .vaonLoss => Sys2Proof.Machine.execVaonLoss s
  | .jtagInstruction k => Sys2Proof.Machine.execJtagInstruction k s
  | .debugAuth sig => Sys2Proof.Machine.execDebugAuth sig s
  | .pllLoss p => Sys2Proof.Machine.execPllLoss p s
  | .busOffRecovery c => Sys2Proof.Machine.execBusOffRecovery c s
  | .programCommand c op r => Sys2Proof.Machine.execProgramCommand c op r s
  | .spiUnknownCommand cmd => Sys2Proof.Machine.execSpiUnknownCommand cmd s

end Sys2Proof.Machine
end

