-- ==== Sys2Proof/Safety.lean ====
section
/-! DEFINITION. The terms in which claims about whole steps are stated: the canonical form of the memory and of every other table of
the state, what may happen to the fuses, and what no command changes. -/

namespace Sys2Proof.Machine

/-- The canonical form of the memory: addresses strictly rising, no byte listed that equals what an unlisted address reads. -/
abbrev Memory.wf (m : List Host.Cell) : Prop := tabWf (fun _ => 0#8) m

/-- Every table of the state is in its canonical form: the register file, the memory, the curve banks, the account store and the
selection map. -/
structure TablesWf (s : State) : Prop where
  mem : Memory.wf s.mem
  regs : tabWf regReset s.regs
  bank0 : tabWf (fun _ => 0#32) s.bank0
  bank1 : tabWf (fun _ => 0#32) s.bank1
  store : tabWf (fun _ => 0xFF#8) s.store
  sel : tabWf (fun _ => 0) s.sel

/-- What one-time programmable memory may do: a programmed key stays, a revoked slot stays revoked, the rollback version never falls,
the wrap lock and the wrap count never go back. -/
structure OtpGrows (a b : Otp) : Prop where
  slots : b.keys.length = a.keys.length ∧ b.revoked.length = a.revoked.length
  keys : ∀ i k, nth none a.keys i = some k → nth none b.keys i = some k
  revoked : ∀ i, nth false a.revoked i = true → nth false b.revoked i = true
  rollback : a.rollback ≤ b.rollback
  wrapLock : a.wrapDisable = true → b.wrapDisable = true
  wraps : a.wraps ≤ b.wraps

/-- What nothing the block does changes: the commands waiting, the part and its stepping; the fuses only grow, and a free value
drawn is never drawn again. -/
structure Fixed (s t : State) : Prop where
  pending : t.pending = s.pending
  part : t.part = s.part
  stepping : t.stepping = s.stepping
  otp : OtpGrows s.otp t.otp
  draws : s.draws ≤ t.draws

/-! ### Terms of the claims about single commands -/

/-- The command answers a next state, of which `P` holds. -/
def Does (c : Instr) (s : State) (P : State → Prop) : Prop := ∃ t, exec c s = .next t ∧ P t

/-- The registers that posting an event may change (R341, R342, R346, R392): the event number, the losses, Spool's, and the injection that is
armed, which hits the record where it is armed for region 10. -/
def evRegs : List Nat := [rMSG_EVT_SEQ_NEXT, rMSG_EVT_FLAGS, rMSG_EVT_DROP_COUNT, rMSG_EVT_DROP 0, rMSG_EVT_DROP 1, rMSG_EVT_DROP 2,
  rMSG_EVT_DROP 3, rMSG_SP_LOSS_COUNT, rMSG_SP_FROZEN_DROP_COUNT, rMEM_ECC_INJECT]

/-- Nothing of the state changes but the registers of `l` and what posting events takes: the event queue, Spool's buffer, the events
that the boot ROM holds, the wakes noted, the stamps of limited events, and the registers of `evRegs`. -/
structure Quiet (l : List Nat) (s t : State) : Prop where
  rest : t = { s with regs := t.regs, hamper := t.hamper, spool := t.spool, boot := { s.boot with held := t.boot.held },
                      wakeDue := t.wakeDue, posted := t.posted }
  regs : ∀ off, off ∉ l → off ∉ evRegs → t.reg off = s.reg off

/-- No word of memory holds an error, and no injection is armed (R392). -/
abbrev Clean (s : State) : Prop := s.ecc.synd = [] ∧ s.isF fMEM_ECC_INJECT_ARM = false

/-- A write to the register at `off` takes effect: the core is out of reset (R59) and no LOCKMAP range holds the register (R29). -/
abbrev Takes (s : State) (off : Nat) : Prop := s.boot.porst = true ∧ s.mapLocked off = false

/-- The instruction with opcode `op` and the fields `f` stands at engine `e`'s pc, inside the image, and the engine is in RUN with its
clock running (R80, R100). -/
abbrev AtPc (e : Fin 16) (op : Nat) (f : KvF) (s : State) : Prop :=
  Clean s ∧ s.issuing e = true ∧ (s.eng e).pc < (s.eng e).imageLen ∧ s.loadN (s.fetchAt e) 8 = kvWord op f

/-- Engine `e` can issue the instruction with opcode `op`, form `h` and fields `f`: it is the one at the pc, and its fields are legal
(R80 to R83). -/
abbrev CanIssue (e : Fin 16) (op : Nat) (h : KvShape) (f : KvF) (s : State) : Prop := AtPc e op f s ∧ h.ok f = true

/-- The line bits `b` bring the back lane of port `n`, in state `s`, to the state `u`: their last bit completes a control word of type
`ty` with P[55:8] = `p` in lock, its header and its check right, and the back lane is not down after it (R214 to R217, R224, R237); the core
is out of reset (R59). -/
abbrev BkSays (n ty : Nat) (b : BkBits) (p : BitVec 48) (s u : State) : Prop :=
  s.boot.porst = true ∧ s.bkTake n b.bits = (some (ty, p), u) ∧ u.isF (fZTL_STATUS_BACK_STALE n) = false

/-- Of the whole state only engine `e`'s own registers change, and its count of corrected errors may. -/
structure EngineOnly (e : Nat) (s t : State) : Prop where
  rest : t = { s with be := t.be, regs := t.regs }
  others : ∀ k, k ≠ e → t.eng k = s.eng k
  regs : ∀ off, off ≠ rBE_ECC_CE_COUNT e → t.reg off = s.reg off

/-- The general registers but scalar register `d` are as before. -/
def KeepsAllBut (d : Nat) (g h : Engine) : Prop :=
  (∀ k, k ≠ d → h.s k = g.s k) ∧ (∀ k, h.v k = g.v k) ∧ ∀ k, h.p k = g.p k

/-- The next instruction follows; scalar register `d` holds `v`, and S0 still reads 0. -/
structure ScalarResult (e : Nat) (d : BitVec 5) (v : Word) (s t : State) : Prop where
  only : EngineOnly e s t
  pc : (t.eng e).pc = (s.eng e).pc + 1
  value : (t.eng e).s d.toNat = if d = 0 then 0 else v
  frame : KeepsAllBut d.toNat (s.eng e) (t.eng e)

/-- The next instruction follows; lane `k` of vector register Vd holds `x k` where the guard holds, and is kept elsewhere (R81). -/
structure VectorResult (e : Nat) (f : KvF) (x : Nat → Half) (s t : State) : Prop where
  only : EngineOnly e s t
  pc : (t.eng e).pc = (s.eng e).pc + 1
  lanes : ∀ k, k < 32 → lane ((t.eng e).v f.d.toNat) k =
    if (s.eng e).guard f k then x k else lane ((s.eng e).v f.d.toNat) k
  frame : (∀ k, (t.eng e).s k = (s.eng e).s k) ∧ (∀ k, k ≠ f.d.toNat → (t.eng e).v k = (s.eng e).v k)
    ∧ ∀ k, (t.eng e).p k = (s.eng e).p k

/-- The next instruction follows; bit `k` of Pd is `x k` where the guard holds, else 0; P0 still reads all ones (R81). -/
structure PredResult (e : Nat) (f : KvF) (x : Nat → Bool) (s t : State) : Prop where
  only : EngineOnly e s t
  pc : (t.eng e).pc = (s.eng e).pc + 1
  bits : ∀ k, k < 32 → ((t.eng e).p f.d.toNat).getLsbD k =
    if f.d = 0 then true else ((s.eng e).guard f k && x k)
  frame : (∀ k, (t.eng e).s k = (s.eng e).s k) ∧ (∀ k, (t.eng e).v k = (s.eng e).v k)
    ∧ ∀ k, k ≠ f.d.toNat → (t.eng e).p k = (s.eng e).p k

/-- Execution goes on at `pc`, and no general register changes. -/
structure BranchResult (e pc : Nat) (s t : State) : Prop where
  only : EngineOnly e s t
  pc : (t.eng e).pc = pc
  frame : (∀ k, (t.eng e).s k = (s.eng e).s k) ∧ (∀ k, (t.eng e).v k = (s.eng e).v k) ∧ ∀ k, (t.eng e).p k = (s.eng e).p k

/-- Engine `e` waits at its instruction, with WAIT_ON `code`. -/
structure WaitResult (e : Nat) (w : KWait) (s t : State) : Prop where
  state : t.beState e = beWAIT
  waitOn : t.getF (fBE_STATUS_WAIT_ON e) = w.code
  wait : (t.eng e).wait = w
  pc : (t.eng e).pc = (s.eng e).pc
  mem : t.mem = s.mem
  others : ∀ k, k ≠ e → t.eng k = s.eng k
  regs : ∀ off, off ≠ rBE_ECC_CE_COUNT e → off ≠ rBE_STATUS e → t.reg off = s.reg off

/-- Engine `e` has taken exception `code`: FAULTED at the pc of the instruction, its queues empty, FAULT flagged (R100). -/
structure TrapResult (e code : Nat) (s t : State) : Prop where
  state : t.beState e = beFAULTED
  exc : t.getF (fBE_STATUS_EXC e) = code
  flag : t.isF (fBE_FLAGS_FAULT e) = true
  pc : (t.eng e).pc = (s.eng e).pc
  mem : t.mem = s.mem
  others : ∀ k, k ≠ e → t.eng k = s.eng k

/-- The engine has no DMA under way and has not faulted before. -/
abbrev Calm (e : Nat) (s : State) : Prop := (s.eng e).ch0 = [] ∧ (s.eng e).ch1 = [] ∧ (s.eng e).lastFault = none

/-- Only the memory and engine `e` change, and its count of corrected errors may. -/
structure StoreOnly (e : Nat) (s t : State) : Prop where
  rest : t = { s with be := t.be, regs := t.regs, mem := t.mem, ecc := t.ecc }
  others : ∀ k, k ≠ e → t.eng k = s.eng k
  regs : ∀ off, off ≠ rBE_ECC_CE_COUNT e → t.reg off = s.reg off
  pc : (t.eng e).pc = (s.eng e).pc + 1
  frame : (∀ k, (t.eng e).s k = (s.eng e).s k) ∧ (∀ k, (t.eng e).v k = (s.eng e).v k) ∧ ∀ k, (t.eng e).p k = (s.eng e).p k

/-- R85's signed quotient towards zero, with its results for a divisor of 0. -/
def quotient (a b : Word) : Word :=
  if b = 0 then (if 0 ≤ a.toInt then 0x7FFFFFFF else 0x80000000) else BitVec.ofInt 32 (a.toInt.tdiv b.toInt)

/-- Sd = op (Sa, Sb): the scalar instructions of R85, with their opcodes (R80). -/
def scalarOps : List (Nat × (Fin 16 → KvF → Instr) × (Word → Word → Word)) := [
  (0x10, .add, fun a b => a + b), (0x11, .sub, fun a b => a - b), (0x12, .mul, fun a b => a * b),
  (0x13, .mulh, fun a b => BitVec.ofInt 32 (a.toInt * b.toInt / 2 ^ 32)),
  (0x14, .and, fun a b => a &&& b), (0x15, .or, fun a b => a ||| b), (0x16, .xor, fun a b => a ^^^ b),
  (0x17, .shl, fun a b => a <<< (b.toNat % 32)), (0x18, .shr, fun a b => a >>> (b.toNat % 32)),
  (0x19, .sra, fun a b => a.sshiftRight (b.toNat % 32)),
  (0x1A, .slt, fun a b => if a.toInt < b.toInt then 1 else 0), (0x1B, .sltu, fun a b => if a.toNat < b.toNat then 1 else 0),
  (0x1C, .min, fun a b => if a.toInt < b.toInt then a else b), (0x1D, .max, fun a b => if a.toInt < b.toInt then b else a),
  (0x1E, .div, quotient)]

/-- Sd = op (Sa, IMM). -/
def scalarImmOps : List (Nat × (Fin 16 → KvF → Instr) × (Word → Word → Word)) := [
  (0x30, .addi, fun a b => a + b), (0x31, .subi, fun a b => a - b), (0x32, .muli, fun a b => a * b),
  (0x33, .mulhi, fun a b => BitVec.ofInt 32 (a.toInt * b.toInt / 2 ^ 32)),
  (0x34, .andi, fun a b => a &&& b), (0x35, .ori, fun a b => a ||| b), (0x36, .xori, fun a b => a ^^^ b),
  (0x37, .shli, fun a b => a <<< (b.toNat % 32)), (0x38, .shri, fun a b => a >>> (b.toNat % 32)),
  (0x39, .srai, fun a b => a.sshiftRight (b.toNat % 32)),
  (0x3A, .slti, fun a b => if a.toInt < b.toInt then 1 else 0), (0x3B, .sltui, fun a b => if a.toNat < b.toNat then 1 else 0),
  (0x3C, .mini, fun a b => if a.toInt < b.toInt then a else b), (0x3D, .maxi, fun a b => if a.toInt < b.toInt then b else a),
  (0x3E, .divi, quotient)]

/-- Vd = op (Va, Vb), lane by lane (R85). -/
def vectorOps : List (Nat × (Fin 16 → KvF → Instr) × (Half → Half → Half)) := [
  (0x58, .vadd, fun a b => a + b), (0x5A, .vsub, fun a b => a - b), (0x5D, .vmull, fun a b => a * b),
  (0x59, .vadds, fun a b => if a.toNat + b.toNat < 65536 then a + b else 0xFFFF),
  (0x5B, .vsubs, fun a b => if b.toNat ≤ a.toNat then a - b else 0),
  (0x5C, .vmulh, fun a b => BitVec.ofNat 16 ((a.toNat * b.toNat + 32768) / 65536)),
  (0x5F, .vmin, fun a b => if a.toNat < b.toNat then a else b), (0x60, .vmax, fun a b => if a.toNat < b.toNat then b else a),
  (0x61, .vand, fun a b => a &&& b), (0x62, .vor, fun a b => a ||| b), (0x63, .vxor, fun a b => a ^^^ b),
  (0x67, .vabsd, fun a b => if a.toNat < b.toNat then b - a else a - b)]

/-- Vd = op (Va, IMM[3:0]), lane by lane. -/
def vectorShifts : List (Nat × (Fin 16 → KvF → Instr) × (Half → Nat → Half)) := [
  (0x64, .vshl, fun a n => a <<< n), (0x65, .vshr, fun a n => a >>> n), (0x66, .vsra, fun a n => a.sshiftRight n)]

/-- Pd = cmp (Va, Vb), lane by lane. -/
def vectorCompares : List (Nat × (Fin 16 → KvF → Instr) × (Half → Half → Bool)) := [
  (0x70, .vcmpeq, fun a b => decide (a = b)), (0x71, .vcmplt, fun a b => decide (a.toNat < b.toNat)),
  (0x72, .vcmplts, fun a b => decide (a.toInt < b.toInt)), (0x73, .vcmple, fun a b => decide (a.toNat ≤ b.toNat))]

/-- Pd = op (Pa, Pb), bit by bit. -/
def predicateOps : List (Nat × (Fin 16 → KvF → Instr) × (Bool → Bool → Bool)) := [
  (0x78, .pand, fun a b => a && b), (0x79, .por, fun a b => a || b), (0x7A, .pandn, fun a b => a && !b)]

/-- Branches: their form, and when they are taken. -/
def branchOps : List (Nat × (Fin 16 → KvF → Instr) × KvShape × (Engine → KvF → Bool)) := [
  (0x02, .br, { imm := .target }, fun _ _ => true),
  (0x03, .brz, { a := .s, imm := .target }, fun g f => decide (g.s f.a.toNat = 0)),
  (0x04, .brnz, { a := .s, imm := .target }, fun g f => decide (g.s f.a.toNat ≠ 0)),
  (0x05, .brlt, { a := .s, b := .s, imm := .target }, fun g f => decide ((g.s f.a.toNat).toInt < (g.s f.b.toNat).toInt)),
  (0x06, .brany, { a := .p, imm := .target }, fun g f => decide (g.p f.a.toNat ≠ 0)),
  (0x07, .brnone, { a := .p, imm := .target }, fun g f => decide (g.p f.a.toNat = 0))]

/-! ### gPTP -/

/-- The FRC stamp of a gPTP message of port `p` that crossed the SerDes interface `ago` ticks before now, with the latencies of its
direction in FRC ticks: less the SerDes, plus the PHY (R309). -/
def gptpTime (p : Nat) (ser phy : List Nat) (ago : Nat) (s : State) : Nat :=
  (((s.time.frc : Int) - ago - (ser.getD p 0 : Nat) + (phy.getD p 0 : Nat)) % 2 ^ 64).toNat

/-- Grandmaster time less domain time, in whole ns, of a Sync of instance `i` stamped at `stamp`, of origin time `origin` (R307). -/
def syncOffset (i : Nat) (c : GptpC) (stamp origin : Nat) (s : State) : Int :=
  let d := s.dom (c.dom % 2)
  let lt := ((d.offset : Int) + d.incr * ((stamp : Int) - d.base).bmod (2 ^ 64)) % 2 ^ 96
  (((2 ^ 32 * (origin + (s.gptpOf i).delayNs) : Nat) : Int) % 2 ^ 96 - lt).bmod (2 ^ 96) / 2 ^ 32

/-! ### Holvo records -/

/-- The Holvo record that a command is: its channel, its opcode and the record. -/
def asRecord : Instr → Option (Fin 3 × Nat × RecIn)
  | .flip c r => some (c, 0x01, r)
  | .fenceSignal c r => some (c, 0x02, r)
  | .schedWrite c r => some (c, 0x04, r)
  | .pose c r => some (c, 0x10, r)
  | .objectList c r => some (c, 0x11, r)
  | .maskParam c r => some (c, 0x80, r)
  | .symbolSet c r => some (c, 0x88, r)
  | .symbolClear c r => some (c, 0x89, r)
  | .patternSet c r => some (c, 0x90, r)
  | .agingCtrl c r => some (c, 0x98, r)
  | .healthCfg c r => some (c, 0xA0, r)
  | .ping c r => some (c, 0x40, r)
  | .stateReq c r => some (c, 0x41, r)
  | .regRead c r => some (c, 0x42, r)
  | .regWrite c r => some (c, 0x43, r)
  | .holvoStageData c r => some (c, 0x44, r)
  | .holvoUpdateCmd c r => some (c, 0x45, r)
  | .evtStream c r => some (c, 0x46, r)
  | .spoolCmd c r => some (c, 0x47, r)
  | .spoolRead c r => some (c, 0x48, r)
  | .sakInstall c r => some (c, 0x49, r)
  | .pwrRequest c r => some (c, 0x50, r)
  | .healthCmd c r => some (c, 0x51, r)
  | .diagnostics c op r => some (c, 0xC0 + op.val, r)
  | .unknownOpcode c op r => some (c, op.toNat, r)
  | .programCommand c op r => some (c, 0x80 + op.val, r)
  | _ => none

/-- Channel `c` can bring records: the core is out of reset (R59), and an Ethernet port is enabled with its link up (R325). -/
abbrev ChannelUp (c : Fin 3) (s : State) : Prop := s.boot.porst = true ∧ (c ≠ 2 → s.ethUp c = true)

/-- The record is no longer than what the channel carries and the router takes (R327, R334). -/
abbrev Fits (c : Fin 3) (r : RecIn) (s : State) : Prop := 12 + r.payload.length ≤ s.recRoom c ∧ r.payload.length ≤ 2036

/-- The router takes the record: it is whole and without error, next in sequence, and its header is right (R334, R335). -/
abbrev InOrder (c : Fin 3) (r : RecIn) (s : State) : Prop :=
  ChannelUp c s ∧ Fits c r s ∧ r.crcOk = true ∧ r.flags.getLsbD 1 = false
    ∧ r.seq = BitVec.ofNat 16 (s.lastSeq c + 1) ∧ headBad r = none

/-- The state in which a record taken is carried out: the wake noted, the sequence number taken. -/
def recTaken (c : Fin 3) (r : RecIn) (s : State) : State :=
  (s.wakeNote (if c = 2 then 6 else 5)).setRegN (rMSG_LAST_ACCEPTED_SEQ c) r.seq.toNat

/-- The record as it is queued and delivered. -/
def recOut (op : Nat) (r : RecIn) : HRec := ⟨r.seq.toNat, op, r.flags.toNat, r.ref.toNat, r.payload⟩

/-- The firmware's queue is empty and the firmware serves it. -/
abbrev FwReady (s : State) : Prop := s.host.fwq = [] ∧ s.fwServes = true

/-- The reply that the SPI mailbox takes for a record of channel 2 (R336). -/
def replyRec (s : State) (r : RecIn) (op result detail : Nat) (data : List Byte) : HRec :=
  ⟨s.regN (rMSG_TX_SEQ 2) % 65536, 0xE0, 4, r.seq.toNat,
    leBytes 1 result ++ leBytes 1 op ++ leBytes 2 r.seq.toNat ++ leBytes 4 detail ++ data⟩

/-- A NAK has been counted and flagged; memory is as before. -/
structure Nacked (s t : State) : Prop where
  flag : t.isF fMSG_ROUTER_FLAGS_NAK = true
  count : t.regN rMSG_NAK_COUNT = min 0xFFFF (s.regN rMSG_NAK_COUNT + 1)
  mem : t.mem = s.mem

/-- A register that a reply on channel `c` changes. -/
def replyRegs (c : Fin 3) : List Nat := [rMSG_TX_SEQ c, rHOSTIF_SPI_REPLY_LOST]

/-- Opcodes whose four bytes are written to a register, and the register (R336). -/
def wordRecords : List (Nat × BitVec 24) :=
  [(0x45, rBSTREAM_UPDATE_CMD), (0x47, rMSG_SP_CMD), (0x50, rPWR_PWR_REQ), (0x51, rHEALTH_CMD)]

end Sys2Proof.Machine
end

