-- ==== Sys2Proof/Certificates/Slice0/Obligations.lean ====
section
/-! DEFINITION. The statements for the provers. Each names the rules of spec/ that it formalises in OBLIGATIONS.json; the terms
they use are in Safety.lean. -/

open Sys2Proof Sys2Proof.Machine

/-! ### The machine -/

/-- The block as a whole: `step` takes the command at the front of the queue, with the queue's rest (log 120). -/
def Obligations.StepTakesFront : Prop :=
  ∀ (c : Instr) (rest : List Instr) (s : State), step { s with pending := c :: rest } = exec c { s with pending := rest }

/-- On an empty queue a step passes one tick of 1.25 ns of model time: the model's choice, log 4. -/
def Obligations.IdleTick : Prop :=
  ∀ s : State, s.pending = [] →
    ∃ t, step s = .next t ∧ t.pending = [] ∧ t.time.now = s.time.now + 1

/-- Every command answers a next state, and none touches the queue, the part or its stepping; the OTP fuses only grow (R41 to R44), and
no free value is drawn twice. Where the spec leaves a point open, this follows the model's choice in log 6 and 10. -/
def Obligations.EveryCommandCompletes : Prop := ∀ (c : Instr) (s : State), Does c s (Fixed s)

/-- The tables of the state are canonical at reset. Where the spec leaves a point open, this follows the model's choice in log 2 and 5.
-/
def Obligations.ResetTables : Prop := TablesWf State.reset

/-- Every step keeps the memory, the register file, the curve banks, the account store and the selection map in canonical form. -/
def Obligations.StepKeepsTables : Prop := ∀ s t : State, TablesWf s → step s = .next t → TablesWf t

/-- No step, a command or a tick, takes back a fuse: a programmed key slot keeps its hash, a revoked slot stays revoked, the rollback
counter never falls, WRAP_DISABLE stays set (R41 to R44). -/
def Obligations.StepGrowsFuses : Prop := ∀ s t : State, step s = .next t → OtpGrows s.otp t.otp

/-- What reset leaves in the registers named here, whose reset values the spec gives; the queue and the memory are empty. Where the spec
leaves a point open, this follows the model's choice in log 5 and 120. -/
def Obligations.ResetValues : Prop :=
  let r := State.reset
  r.reg rTOP_DEVICE_ID = 0x12400001 ∧ r.reg rMSG_COMPOSE_ORDER = 0x1B ∧ r.reg (rMSG_LAST_ACCEPTED_SEQ 0) = 0xFFFF
    ∧ (∀ n, n < 16 → r.regN (rBE_JOB_TIME_LIMIT n) = 10000 ∧ r.regN (rBE_FWAIT_LIMIT n) = 5000)
    ∧ (∀ n, n < 4 → r.regN (rPRESS_TREF n) = 400 ∧ r.regN (rPRESS_SWEEP n) = 8)
    ∧ (∀ n, n < 4 → r.reg (rCRC_POLY n) = 0x1EDC6F41 ∧ r.reg (rCRC_INIT n) = 0xFFFFFFFF)
    ∧ r.regN rPWR_PWR_GUARD = 1000 ∧ r.reg rHK_HLV_LIMIT = 0x001E1E1E ∧ r.reg rHK_THR_CFG = 0x6E879100
    ∧ (∀ d, d < 2 → r.regN (rTIME_INCR_INT d) = 1 ∧ r.reg (rTIME_INCR_FRAC d) = 0x40000000)
    ∧ r.pending = [] ∧ r.mem = [] ∧ r.beState 0 = beOFF

/-! ### Registers and memory (R26 to R32) -/

/-- A write of a plain register takes effect by the access types of its fields (R28): RW bits take the value, W1C bits clear where a 1 is
written, all others stay; no other register changes. A register that a LOCKMAP range or locked RWL bits hold is in `LockedWrite`. -/
def Obligations.RegisterWrite : Prop :=
  ∀ (off : BitVec 24) (v : Word) (s : State) (r : RegRow),
    off.toNat % 4 = 0 → s.absentUnit off.toNat = false → curveOff off.toNat = none → tgMirror off.toNat = none →
    tgNoStage off.toNat = false → regRow off.toNat = some r → r.wo = false → s.boot.porst = true → s.locked = false →
    (off.toNat < 0x10000 ∨ 0x80000 ≤ off.toNat ∧ off.toNat < 0xC0000 ∨ 0x30000 ≤ off.toNat ∧ off.toNat < 0x40000) →
    Does (.registerWrite off v) s (fun t =>
      t.reg off.toNat = ((s.reg off.toNat &&& ~~~r.wr &&& ~~~(r.w1c &&& v)) ||| (v &&& r.wr))
      ∧ Quiet [off.toNat] s t)

/-- A write to a register that a LOCKMAP range holds, the curve memory and the mirrors of TG_1 to TG_3 with them, changes nothing of it:
it is flagged, counted and posted (R29). -/
def Obligations.LockedWrite : Prop :=
  ∀ (off : BitVec 24) (v : Word) (s : State),
    off.toNat % 4 = 0 → s.absentUnit off.toNat = false → regThere off.toNat = true → s.boot.porst = true →
    s.mapLocked off.toNat = true → Does (.registerWrite off v) s (fun t =>
      t.getF fTOP_BUS_ERR_STATUS_LOCK_VIOL = 1
      ∧ t.regN rTOP_LOCK_VIOL_COUNT = min (s.regN rTOP_LOCK_VIOL_COUNT + 1) 0xFFFF
      ∧ Quiet [rTOP_BUS_ERR_STATUS, rTOP_LOCK_VIOL_COUNT] s t)

/-- R27: a write of an unmapped offset is ignored and sets UNMAPPED with its counter; an unaligned one is a bus error (R26). R2: on an
SZ-1220 a write to a unit of ports 2 and 3 has no effect. R59: in reset no register takes a write. Where the spec leaves a point open,
this follows the model's choice in log 6, 11 and 12. -/
def Obligations.UnmappedAndAbsent : Prop :=
  (∀ (off : BitVec 24) (v : Word) (s : State), s.boot.porst = true → off.toNat % 4 = 0 → s.absentUnit off.toNat = false →
    curveOff off.toNat = none → tgMirror off.toNat = none → regRow off.toNat = none →
    Does (.registerWrite off v) s (fun t => t.getF fTOP_BUS_ERR_STATUS_UNMAPPED = 1
      ∧ t.regN rTOP_UNMAPPED_COUNT = min (s.regN rTOP_UNMAPPED_COUNT + 1) 0xFFFF
      ∧ Quiet [rTOP_BUS_ERR_STATUS, rTOP_UNMAPPED_COUNT, rTOP_BUS_ERR_ADDR] s t))
  ∧ (∀ (off : BitVec 24) (v : Word) (s : State), s.boot.porst = false → Does (.registerWrite off v) s (fun t => t = s))
  ∧ (∀ (off : BitVec 24) (v : Word) (s : State), s.boot.porst = true → off.toNat % 4 ≠ 0 →
    Does (.registerWrite off v) s (fun t => t.getF fTOP_BUS_ERR_STATUS_SYS_MAP = 1
      ∧ t.regN rTOP_SYS_MAP_COUNT = min (s.regN rTOP_SYS_MAP_COUNT + 1) 0xFFFF
      ∧ Quiet [rTOP_BUS_ERR_STATUS, rTOP_SYS_MAP_COUNT, rTOP_BUS_ERR_ADDR] s t))
  ∧ ∀ (off : BitVec 24) (v : Word) (s : State), s.part = .sz1220 → off.toNat % 4 = 0 → 0x100000 ≤ off.toNat → off.toNat < 0x200000 →
    off.toNat / 0x20000 % 2 = 1 → Does (.registerWrite off v) s (fun t => t = s)

/-- Memory: a byte reads what was last written to it, and a write of other bytes leaves it alone; a word is stored little-endian. -/
def Obligations.MemoryReadsBack : Prop :=
  ∀ (s : State) (a : Nat) (bs : List Byte),
    (s.setBytes a bs).bytes a bs.length = bs ∧ (∀ x, x < a ∨ a + bs.length ≤ x → (s.setBytes a bs).byte x = s.byte x)
    ∧ ∀ (n v : Nat), v < 256 ^ n → (s.storeN a n v).loadN a n = v

/-! ### Management cores (R13 to R18, R23) -/

/-- HLV_STALE (an input's limit has passed: its bit, and the block temperatures freeze), MC_LOAD_WINDOW (the loads, and the shed level
after three windows in a row), MC_HEARTBEAT, MC_HEARTBEAT_LOST (MC_LOST, and the takeover of the event queue where it is enabled),
URGENT_ENTRY, URGENT_EXIT: each completes on every state, with the effect or with none, and all else is as before but for what posting an
event takes. Where the spec leaves a point open, this follows the model's choice in log 6, 44, 45 and 46. -/
def Obligations.ManagementEvents : Prop :=
  (∀ (k : Fin 3) (s : State),
    (s.time.frcRun = true → s.hlvPast k = true → s.isF ⟨rHK_HLV_STATUS, k, 1⟩ = false → Does (.hlvStale k) s (fun t =>
      t.isF ⟨rHK_HLV_STATUS, k, 1⟩ = true ∧ (∀ j, j < 3 → j ≠ k.val → t.isF ⟨rHK_HLV_STATUS, j, 1⟩ = s.isF ⟨rHK_HLV_STATUS, j, 1⟩)
      ∧ (k = 1 → t.hlv.frozen = (List.range 1024).map (fun b => (b, s.reg (rHK_BLKTEMP b))))
      ∧ (k ≠ 1 → t.hlv.frozen = s.hlv.frozen) ∧ t.hlv.stamp = s.hlv.stamp
      ∧ Quiet [rHK_HLV_STATUS] { s with hlv := { s.hlv with frozen := t.hlv.frozen } } t))
    ∧ (s.time.frcRun = false ∨ s.hlvPast k = false ∨ s.isF ⟨rHK_HLV_STATUS, k, 1⟩ = true → Does (.hlvStale k) s (fun t => t = s)))
  ∧ (∀ (a b : Fin 101) (s : State),
    (s.fwRuns = true →
      let hi := if 180 < a.val + b.val then s.mc.hi + 1 else 0
      let lo := if a.val + b.val < 140 then s.mc.lo + 1 else 0
      Does (.mcLoadWindow a b) s (fun t => t.getF fTOP_MC_LOAD_LOAD_0 = a ∧ t.getF fTOP_MC_LOAD_LOAD_1 = b
        ∧ t.mc = { s.mc with hi := hi % 3, lo := lo % 3 }
        ∧ t.getF fTOP_MC_LOAD_SHED_LEVEL = (if hi = 3 then min 3 (s.getF fTOP_MC_LOAD_SHED_LEVEL + 1)
            else if lo = 3 then s.getF fTOP_MC_LOAD_SHED_LEVEL - 1 else s.getF fTOP_MC_LOAD_SHED_LEVEL)
        ∧ Quiet [rTOP_MC_LOAD] { s with mc := t.mc } t))
    ∧ (s.fwRuns = false → Does (.mcLoadWindow a b) s (fun t => t = s)))
  ∧ (∀ s : State,
    (s.boot.porst = true → Does .mcHeartbeat s (fun t => t.isF fSAFETY_STATUS_MC_LOST = false
      ∧ t = { s with mc := { s.mc with beat := s.time.now }, regs := t.regs } ∧ ∀ off, off ≠ rSAFETY_STATUS → t.reg off = s.reg off))
    ∧ (s.boot.porst = false → Does .mcHeartbeat s (fun t => t = s)))
  ∧ (∀ s : State,
    (s.boot.fwStarted = true → s.isF fSAFETY_STATUS_MC_LOST = false → s.getF fPWR_PWR_STATUS_CURRENT ≠ 1 →
      s.mc.beat + ticksMs 100 ≤ s.time.now → Does .mcHeartbeatLost s (fun t => t.isF fSAFETY_STATUS_MC_LOST = true
        ∧ (s.isF fMSG_EVT_CFG_AUTO_TAKEOVER = true → t.getF fMSG_EVT_CFG_OWNER = 1 ∧ t.isF fMSG_EVT_FLAGS_TAKEOVER = true
          ∧ t.regN rMSG_TAKEOVER_COUNT = min (s.regN rMSG_TAKEOVER_COUNT + 1) 0xFFFF
          ∧ t.hamper.packet = (if s.getF fMSG_EVT_CFG_OWNER = 1 then s.hamper.packet else []))
        ∧ (s.isF fMSG_EVT_CFG_AUTO_TAKEOVER = false → t.reg rMSG_EVT_CFG = s.reg rMSG_EVT_CFG
          ∧ t.reg rMSG_TAKEOVER_COUNT = s.reg rMSG_TAKEOVER_COUNT ∧ t.hamper.packet = s.hamper.packet)
        ∧ Quiet [rSAFETY_STATUS, rMSG_EVT_CFG, rMSG_TAKEOVER_COUNT] s t))
    ∧ (s.boot.fwStarted = false ∨ s.isF fSAFETY_STATUS_MC_LOST = true ∨ s.getF fPWR_PWR_STATUS_CURRENT = 1
        ∨ s.time.now < s.mc.beat + ticksMs 100 → Does .mcHeartbeatLost s (fun t => t = s)))
  ∧ (∀ (n lead : Fin 4) (s : State),
    (s.boot.porst = true → s.absentUnit (rCP_STATUS n) = false → s.isF (fCP_STATUS_URGENT n) = false → Does (.urgentEntry n lead) s (fun t =>
      t.getF (fCP_PREFETCH_LEAD n) = lead ∧ t.isF (fCP_STATUS_URGENT n) = true
      ∧ t.regN (rCP_URGENT_COUNT n) = min (s.regN (rCP_URGENT_COUNT n) + 1) 0xFFFF ∧ t = { s with regs := t.regs }
      ∧ ∀ off, off ≠ rCP_PREFETCH n → off ≠ rCP_STATUS n → off ≠ rCP_URGENT_COUNT n → t.reg off = s.reg off))
    ∧ (s.boot.porst = false ∨ s.absentUnit (rCP_STATUS n) = true ∨ s.isF (fCP_STATUS_URGENT n) = true →
      Does (.urgentEntry n lead) s (fun t => t = s)))
  ∧ ∀ (n : Fin 4) (lead : Byte) (s : State),
    (s.boot.porst = true → s.absentUnit (rCP_STATUS n) = false → 8 ≤ lead.toNat → Does (.urgentExit n lead) s (fun t =>
      t.getF (fCP_PREFETCH_LEAD n) = lead.toNat ∧ t.isF (fCP_STATUS_URGENT n) = false ∧ t = { s with regs := t.regs }
      ∧ ∀ off, off ≠ rCP_PREFETCH n → off ≠ rCP_STATUS n → t.reg off = s.reg off))
    ∧ (s.boot.porst = false ∨ s.absentUnit (rCP_STATUS n) = true ∨ lead.toNat < 8 → Does (.urgentExit n lead) s (fun t => t = s))

/-! ### Keav (R77 to R98) -/

/-- R85 whole: the scalar instructions (ADD to DIV and their immediate forms) write the result to Sd (S0 ignores it) and nothing else;
the lane-wise vector instructions, and VMAC, VSEL, VSPLAT, VLANE, VMOV, VINS, write it to the guarded lanes of Vd and keep the others
(R81). Results wrap but for VADDS, VSUBS and VMAC, which saturate; lanes are unsigned but for VSRA; VMULH rounds; DIV rounds towards zero
and answers for a divisor of 0. -/
def Obligations.EngineArithmetic : Prop :=
  (∀ p ∈ scalarOps, ∀ (e : Fin 16) (f : KvF) (s : State), CanIssue e p.1 { d := .s, a := .s, b := .s } f s →
    Does (p.2.1 e f) s (ScalarResult e f.d (p.2.2 ((s.eng e).s f.a.toNat) ((s.eng e).s f.b.toNat)) s))
  ∧ (∀ p ∈ scalarImmOps, ∀ (e : Fin 16) (f : KvF) (s : State), CanIssue e p.1 { d := .s, a := .s, imm := .any } f s →
    Does (p.2.1 e f) s (ScalarResult e f.d (p.2.2 ((s.eng e).s f.a.toNat) f.imm) s))
  ∧ (∀ p ∈ vectorOps, ∀ (e : Fin 16) (f : KvF) (s : State), CanIssue e p.1 { guarded := true, d := .v, a := .v, b := .v } f s →
    Does (p.2.1 e f) s (VectorResult e f (fun k => p.2.2 (lane ((s.eng e).v f.a.toNat) k) (lane ((s.eng e).v f.b.toNat) k)) s))
  ∧ (∀ p ∈ vectorShifts, ∀ (e : Fin 16) (f : KvF) (s : State), CanIssue e p.1 { guarded := true, d := .v, a := .v, imm := .any } f s →
    Does (p.2.1 e f) s (VectorResult e f (fun k => p.2.2 (lane ((s.eng e).v f.a.toNat) k) (f.imm.toNat % 16)) s))
  ∧ (∀ (e : Fin 16) (f : KvF) (s : State), CanIssue e 0x5E { guarded := true, d := .v, a := .v, b := .v } f s →
    Does (.vmac e f) s (VectorResult e f (fun k =>
      let m := ((lane ((s.eng e).v f.a.toNat) k).toNat * (lane ((s.eng e).v f.b.toNat) k).toNat + 32768) / 65536
      BitVec.ofNat 16 (min ((lane ((s.eng e).v f.d.toNat) k).toNat + m) 65535)) s))
  ∧ (∀ (e : Fin 16) (f : KvF) (s : State), CanIssue e 0x68 { guarded := true, d := .v, a := .v, b := .v, c := .p } f s →
    Does (.vsel e f) s (VectorResult e f (fun k => if ((s.eng e).p f.c.toNat).getLsbD k then lane ((s.eng e).v f.a.toNat) k
      else lane ((s.eng e).v f.b.toNat) k) s))
  ∧ (∀ (e : Fin 16) (f : KvF) (s : State), CanIssue e 0x6A { guarded := true, d := .v, a := .s } f s →
    Does (.vsplat e f) s (VectorResult e f (fun _ => BitVec.ofNat 16 ((s.eng e).s f.a.toNat).toNat) s))
  ∧ (∀ (e : Fin 16) (f : KvF) (s : State), CanIssue e 0x6B { guarded := true, d := .v } f s →
    Does (.vlane e f) s (VectorResult e f (fun k => BitVec.ofNat 16 k) s))
  ∧ (∀ (e : Fin 16) (f : KvF) (s : State), CanIssue e 0x6F { guarded := true, d := .v, a := .v } f s →
    Does (.vmov e f) s (VectorResult e f (fun k => lane ((s.eng e).v f.a.toNat) k) s))
  ∧ ∀ (e : Fin 16) (f : KvF) (s : State), CanIssue e 0x6D { guarded := true, d := .v, a := .s, imm := .any } f s →
    Does (.vins e f) s (VectorResult e f (fun k => if k = f.imm.toNat % 32 then BitVec.ofNat 16 ((s.eng e).s f.a.toNat).toNat
      else lane ((s.eng e).v f.d.toNat) k) s)

/-- The compares, the predicate instructions and REDGE: bit k of Pd is the result where the guard holds, else 0; P0 stays (R81). Where
the spec leaves a point open, this follows the model's choice in log 80. -/
def Obligations.Predicates : Prop :=
  (∀ p ∈ vectorCompares, ∀ (e : Fin 16) (f : KvF) (s : State), CanIssue e p.1 { guarded := true, d := .p, a := .v, b := .v } f s →
    Does (p.2.1 e f) s (PredResult e f (fun k => p.2.2 (lane ((s.eng e).v f.a.toNat) k) (lane ((s.eng e).v f.b.toNat) k)) s))
  ∧ (∀ p ∈ predicateOps, ∀ (e : Fin 16) (f : KvF) (s : State), CanIssue e p.1 { guarded := true, d := .p, a := .p, b := .p } f s →
    Does (p.2.1 e f) s (PredResult e f (fun k => p.2.2 (((s.eng e).p f.a.toNat).getLsbD k) (((s.eng e).p f.b.toNat).getLsbD k)) s))
  ∧ (∀ (e : Fin 16) (f : KvF) (s : State), CanIssue e 0x7B { guarded := true, d := .p, a := .p } f s →
    Does (.pnot e f) s (PredResult e f (fun k => !((s.eng e).p f.a.toNat).getLsbD k) s))
  ∧ (∀ (e : Fin 16) (f : KvF) (s : State), CanIssue e 0x7C { guarded := true, d := .p, imm := .any } f s →
    Does (.pset e f) s (PredResult e f (fun k => f.imm.getLsbD k) s))
  ∧ (∀ (e : Fin 16) (f : KvF) (s : State), CanIssue e 0x24 { guarded := true, d := .p, a := .s } f s →
    Does (.pld e f) s (PredResult e f (fun k => ((s.eng e).s f.a.toNat).getLsbD k) s))
  ∧ ∀ (e : Fin 16) (f : KvF) (s : State), CanIssue e 0x80 { guarded := true, d := .p, a := .s } f s →
    1 ≤ f.a.toNat → f.a.toNat ≤ 29 →
    Does (.redge e f) s (PredResult e f (fun k =>
      let g := s.eng e
      decide (0 ≤ (g.s f.a.toNat).toInt * (2 * ((g.rx.toNat + k : Nat) : Int) + 1)
        + (g.s (f.a.toNat + 1)).toInt * (2 * (g.ry.toNat : Int) + 1) + 2 * (g.s (f.a.toNat + 2)).toInt)) s)

/-- Control flow: NOP, the branches, CALL, RET and LOOP (R83). Where the spec leaves a point open, this follows the model's choice in log
31 and 80. -/
def Obligations.ControlFlow : Prop :=
  (∀ (e : Fin 16) (f : KvF) (s : State), CanIssue e 0x00 {} f s → Does (.nop e f) s (BranchResult e ((s.eng e).pc + 1) s))
  ∧ (∀ p ∈ branchOps, ∀ (e : Fin 16) (f : KvF) (s : State), CanIssue e p.1 p.2.2.1 f s →
    Does (p.2.1 e f) s (BranchResult e (if p.2.2.2 (s.eng e) f then f.imm.toNat else (s.eng e).pc + 1) s))
  ∧ (∀ (e : Fin 16) (f : KvF) (s : State), CanIssue e 0x08 { imm := .target } f s →
    Does (.call e f) s (fun t => EngineOnly e s t ∧ (t.eng e).pc = f.imm.toNat
      ∧ (t.eng e).s 31 = BitVec.ofNat 32 ((s.eng e).pc + 1) ∧ KeepsAllBut 31 (s.eng e) (t.eng e)))
  ∧ (∀ (e : Fin 16) (f : KvF) (s : State), CanIssue e 0x09 {} f s →
    Does (.ret e f) s (BranchResult e (((s.eng e).s 31).toNat % 8192) s))
  ∧ ∀ (e : Fin 16) (f : KvF) (s : State), CanIssue e 0x0A { a := .s, imm := .target } f s → f.a ≠ 0 →
    Does (.loop e f) s (fun t => EngineOnly e s t ∧ (t.eng e).s f.a.toNat = (s.eng e).s f.a.toNat - 1
      ∧ (t.eng e).pc = (if (s.eng e).s f.a.toNat = 1 then (s.eng e).pc + 1 else f.imm.toNat)
      ∧ KeepsAllBut f.a.toNat (s.eng e) (t.eng e))

/-- Moves into scalar registers: LI, PMOV, PCNT, VEXT, VSUM, MOVSPR, DMASTAT, FRD, MBCOUNT. Where the spec leaves a point open, this
follows the model's choice in log 33, 80 and 128. -/
def Obligations.ScalarMoves : Prop :=
  (∀ (e : Fin 16) (f : KvF) (s : State), CanIssue e 0x20 { d := .s, imm := .any } f s →
    Does (.li e f) s (ScalarResult e f.d f.imm s))
  ∧ (∀ (e : Fin 16) (f : KvF) (s : State), CanIssue e 0x23 { d := .s, a := .p } f s →
    Does (.pmov e f) s (ScalarResult e f.d ((s.eng e).p f.a.toNat) s))
  ∧ (∀ (e : Fin 16) (f : KvF) (s : State), CanIssue e 0x25 { d := .s, a := .p } f s →
    Does (.pcnt e f) s (ScalarResult e f.d
      (BitVec.ofNat 32 ((List.range 32).countP (fun k => ((s.eng e).p f.a.toNat).getLsbD k))) s))
  ∧ (∀ (e : Fin 16) (f : KvF) (s : State), CanIssue e 0x6C { d := .s, a := .v, imm := .any } f s →
    Does (.vext e f) s (ScalarResult e f.d (BitVec.ofNat 32 (lane ((s.eng e).v f.a.toNat) (f.imm.toNat % 32)).toNat) s))
  ∧ (∀ (e : Fin 16) (f : KvF) (s : State), CanIssue e 0x6E { guarded := true, d := .s, a := .v } f s →
    Does (.vsum e f) s (ScalarResult e f.d (BitVec.ofNat 32 ((List.range 32).map (fun k =>
      if (s.eng e).guard f k then (lane ((s.eng e).v f.a.toNat) k).toNat else 0)).sum) s))
  ∧ (∀ (e : Fin 16) (f : KvF) (s : State), CanIssue e 0x21 { d := .s, imm := .any } f s → f.imm.toNat % 256 ∈ [0, 2, 3, 4, 5, 6, 7, 8, 9, 10, 11] →
    Does (.movspr e f) s (ScalarResult e f.d (match f.imm.toNat % 256 with
      | 0 => BitVec.ofNat 32 e
      | 2 => BitVec.ofNat 32 (s.eng e).jobSrc
      | 3 => (s.eng e).jobArg
      | 4 => BitVec.ofNat 32 (s.eng e).rx.toNat
      | 5 => BitVec.ofNat 32 (s.eng e).ry.toNat
      | 6 => BitVec.ofNat 32 s.lampNs
      | 7 => (s.eng e).ltHi
      | k => s.reg (rTG_FRAME_COUNT (k - 8))) s))
  ∧ (∀ (e : Fin 16) (f : KvF) (s : State), CanIssue e 0x92 { d := .s } f s → (s.eng e).ch0 = [] → (s.eng e).ch1 = [] →
    Does (.dmastat e f) s (ScalarResult e f.d 0 s))
  ∧ (∀ (e : Fin 16) (f : KvF) (s : State), CanIssue e 0xA2 { d := .s, imm := .any } f s →
    Does (.frd e f) s (ScalarResult e f.d (s.reg (rMSG_FENCE (f.imm.toNat % 16))) s))
  ∧ ∀ (e : Fin 16) (f : KvF) (s : State), CanIssue e 0xB2 { d := .s } f s →
    Does (.mbcount e f) s (ScalarResult e f.d (BitVec.ofNat 32 ((s.eng e).slots.countP (fun x => !x.2))) s)

/-- Local loads and what reads local data: LDW, LDH, VLD, VGATHER, VLUT, SAMP, SAMPN (R84, R86, R88), and RCOV (R87). Where the spec
leaves a point open, this follows the model's choice in log 31, 80 and 129. -/
def Obligations.LocalLoads : Prop :=
  (∀ (e : Fin 16) (f : KvF) (s : State), CanIssue e 0x40 { d := .s, a := .s, imm := .any } f s →
    ((s.eng e).addr f) % 4 = 0 → (s.eng e).addr f + 4 ≤ 0x20000 →
    Does (.ldw e f) s (ScalarResult e f.d (BitVec.ofNat 32 (s.loadN (ldBase e + (s.eng e).addr f) 4)) s))
  ∧ (∀ (e : Fin 16) (f : KvF) (s : State), CanIssue e 0x42 { d := .s, a := .s, imm := .any } f s →
    ((s.eng e).addr f) % 2 = 0 → (s.eng e).addr f + 2 ≤ 0x20000 →
    Does (.ldh e f) s (ScalarResult e f.d (BitVec.ofNat 32 (s.loadN (ldBase e + (s.eng e).addr f) 2)) s))
  ∧ (∀ (e : Fin 16) (f : KvF) (s : State), CanIssue e 0x50 { guarded := true, d := .v, a := .s, imm := .any } f s →
    ((s.eng e).addr f) % 64 = 0 → (s.eng e).addr f + 64 ≤ 0x20000 →
    Does (.vld e f) s (VectorResult e f (fun k => BitVec.ofNat 16 (s.loadN (ldBase e + (s.eng e).addr f + 2 * k) 2)) s))
  ∧ (∀ (e : Fin 16) (f : KvF) (s : State), CanIssue e 0x52 { guarded := true, d := .v, a := .s, b := .v } f s →
    (∀ k, k < 32 → (s.eng e).guard f k = true → (s.eng e).laneAddr f k % 2 = 0 ∧ (s.eng e).laneAddr f k + 2 ≤ 0x20000) →
    Does (.vgather e f) s (VectorResult e f (fun k => BitVec.ofNat 16 (s.loadN (ldBase e + (s.eng e).laneAddr f k) 2)) s))
  ∧ (∀ (e : Fin 16) (f : KvF) (s : State), CanIssue e 0x69 { guarded := true, d := .v, a := .v, b := .s } f s →
    ((s.eng e).s f.b.toNat).toNat % 2 = 0 → ((s.eng e).s f.b.toNat).toNat + 514 ≤ 0x20000 →
    Does (.vlut e f) s (VectorResult e f (fun k =>
      let v := (lane ((s.eng e).v f.a.toNat) k).toNat
      let t := fun (i : Nat) => (s.loadN (ldBase e + ((s.eng e).s f.b.toNat).toNat + 2 * i) 2 : Int)
      BitVec.ofInt 16 (t (v / 256) + ((t (v / 256 + 1) - t (v / 256)) * ((v % 256 : Nat) : Int) + 128) / 256)) s))
  ∧ (∀ (e : Fin 16) (f : KvF) (s : State) (d : SampDesc) (op : Nat),
    CanIssue e op { guarded := true, d := .v, a := .v, b := .v, c := .s } f s →
    ((s.eng e).s f.c.toNat).toNat % 16 = 0 → ((s.eng e).s f.c.toNat).toNat + 16 ≤ 0x20000 →
    sampDesc (s.bytes (ldBase e + ((s.eng e).s f.c.toNat).toNat) 16) = some d → 0 < d.width → 0 < d.height →
    (op = 0x83 → Does (.samp e f) s (VectorResult e f (fun k => s.sampLane e d (lane ((s.eng e).v f.a.toNat) k) (lane ((s.eng e).v f.b.toNat) k)) s))
    ∧ (op = 0x84 → Does (.sampn e f) s (VectorResult e f (fun k =>
        s.sampnLane e d (lane ((s.eng e).v f.a.toNat) k) (lane ((s.eng e).v f.b.toNat) k)) s)))
  ∧ ∀ (e : Fin 16) (f : KvF) (s : State), CanIssue e 0x81 { guarded := true, d := .v, a := .s } f s →
    1 ≤ f.a.toNat → f.a.toNat ≤ 29 →
    Does (.rcov e f) s (VectorResult e f (rcovLane ((s.eng e).s f.a.toNat) ((s.eng e).s (f.a.toNat + 1)) ((s.eng e).s (f.a.toNat + 2))
      (s.eng e).rx (s.eng e).ry) s)

/-- Local stores (R81, R84): STW, STH, VST and VSCATTER write exactly the bytes of the access, at the address that the instruction
computes. Where the spec leaves a point open, this follows the model's choice in log 80. -/
def Obligations.LocalStores : Prop :=
  (∀ (e : Fin 16) (f : KvF) (s : State), CanIssue e 0x41 { d := .s, a := .s, imm := .any } f s →
    ((s.eng e).addr f) % 4 = 0 → (s.eng e).addr f + 4 ≤ 0x20000 →
    Does (.stw e f) s (fun t => StoreOnly e s t
      ∧ t.loadN (ldBase e + (s.eng e).addr f) 4 = ((s.eng e).s f.d.toNat).toNat
      ∧ ∀ x, x < ldBase e + (s.eng e).addr f ∨ ldBase e + (s.eng e).addr f + 4 ≤ x → t.byte x = s.byte x))
  ∧ (∀ (e : Fin 16) (f : KvF) (s : State), CanIssue e 0x43 { d := .s, a := .s, imm := .any } f s →
    ((s.eng e).addr f) % 2 = 0 → (s.eng e).addr f + 2 ≤ 0x20000 →
    Does (.sth e f) s (fun t => StoreOnly e s t
      ∧ t.loadN (ldBase e + (s.eng e).addr f) 2 = ((s.eng e).s f.d.toNat).toNat % 65536
      ∧ ∀ x, x < ldBase e + (s.eng e).addr f ∨ ldBase e + (s.eng e).addr f + 2 ≤ x → t.byte x = s.byte x))
  ∧ (∀ (e : Fin 16) (f : KvF) (s : State), CanIssue e 0x51 { guarded := true, d := .v, a := .s, imm := .any } f s →
    ((s.eng e).addr f) % 64 = 0 → (s.eng e).addr f + 64 ≤ 0x20000 →
    Does (.vst e f) s (fun t => StoreOnly e s t
      ∧ (∀ k, k < 32 → t.loadN (ldBase e + (s.eng e).addr f + 2 * k) 2 =
          if (s.eng e).guard f k then (lane ((s.eng e).v f.d.toNat) k).toNat else s.loadN (ldBase e + (s.eng e).addr f + 2 * k) 2)
      ∧ ∀ x, x < ldBase e + (s.eng e).addr f ∨ ldBase e + (s.eng e).addr f + 64 ≤ x → t.byte x = s.byte x))
  ∧ ∀ (e : Fin 16) (f : KvF) (s : State), CanIssue e 0x53 { guarded := true, d := .v, a := .s, b := .v } f s →
    (∀ k, k < 32 → (s.eng e).guard f k = true → (s.eng e).laneAddr f k % 2 = 0 ∧ (s.eng e).laneAddr f k + 2 ≤ 0x20000) →
    Does (.vscatter e f) s (fun t => StoreOnly e s t
      ∧ (∀ k, k < 32 → (s.eng e).guard f k = true →
          (∀ j, k < j → j < 32 → (s.eng e).guard f j = true → (s.eng e).laneAddr f j ≠ (s.eng e).laneAddr f k) →
          t.loadN (ldBase e + (s.eng e).laneAddr f k) 2 = (lane ((s.eng e).v f.d.toNat) k).toNat)
      ∧ ∀ x, (∀ k, k < 32 → (s.eng e).guard f k = true →
          x < ldBase e + (s.eng e).laneAddr f k ∨ ldBase e + (s.eng e).laneAddr f k + 2 ≤ x) → t.byte x = s.byte x)

/-- Exceptions of an instruction (R80 to R82, R84, R90, R100): a misaligned access of local data raises LD_ALIGN (2), one past the end
LD_RANGE (3), a descriptor of DMAQ that is not 32-byte aligned DMA_DESC (8); an opcode that is not listed or an illegal field raises
ILLEGAL (1) and a pc past the image PC_OVERRUN (4), shown for ADD. Nothing is loaded or stored, and the engine is FAULTED at the
instruction's pc. A command that is not the instruction at the pc issues nothing. Where the spec leaves a point open, this follows the
model's choice in log 80, 83, 84 and 131. -/
def Obligations.EngineExceptions : Prop :=
  (∀ p ∈ ([(0x40, .ldw, 4), (0x41, .stw, 4), (0x42, .ldh, 2), (0x43, .sth, 2)] : List (Nat × (Fin 16 → KvF → Instr) × Nat)),
    ∀ (e : Fin 16) (f : KvF) (s : State), CanIssue e p.1 { d := .s, a := .s, imm := .any } f s → Calm e s →
      ((s.eng e).addr f % p.2.2 ≠ 0 → Does (p.2.1 e f) s (TrapResult e 2 s))
      ∧ ((s.eng e).addr f % p.2.2 = 0 → 0x20000 < (s.eng e).addr f + p.2.2 → Does (p.2.1 e f) s (TrapResult e 3 s)))
  ∧ (∀ (e : Fin 16) (f : KvF) (s : State), CanIssue e 0x90 { a := .s, imm := .any } f s → Calm e s →
    ((s.eng e).s f.a.toNat).toNat % 32 ≠ 0 → Does (.dmaq e f) s (TrapResult e 8 s))
  ∧ (∀ (e : Fin 16) (f : KvF) (s : State), AtPc e 0x10 f s → Calm e s → KvShape.ok { d := .s, a := .s, b := .s } f = false →
    Does (.add e f) s (TrapResult e 1 s))
  ∧ ∀ (e : Fin 16) (f : KvF) (s : State), Clean s → s.issuing e = true → Calm e s →
    ((s.eng e).pc < (s.eng e).imageLen →
      let w := s.loadN (s.fetchAt e) 8
      (kvListed (w / 2 ^ 56) = false → Does (.add e f) s (TrapResult e 1 s))
      ∧ (kvListed (w / 2 ^ 56) = true → w ≠ kvWord 0x10 f → Does (.add e f) s (fun t => t.be = s.be ∧ t.mem = s.mem
          ∧ ∀ off, off ≠ rBE_ECC_CE_COUNT e → t.reg off = s.reg off)))
    ∧ ((s.eng e).imageLen ≤ (s.eng e).pc → Does (.add e f) s (TrapResult e 4 s))

/-- MOVTSPR and RSETXY set RX and RY; MOVTSPR to another special register of the engine raises ILLEGAL (R83, R87). Where the spec leaves
a point open, this follows the model's choice in log 80. -/
def Obligations.RasterPosition : Prop :=
  (∀ (e : Fin 16) (f : KvF) (s : State), CanIssue e 0x82 { a := .s, b := .s } f s →
    Does (.rsetxy e f) s (fun t => BranchResult e ((s.eng e).pc + 1) s t
      ∧ (t.eng e).rx.toNat = ((s.eng e).s f.a.toNat).toNat % 65536 ∧ (t.eng e).ry.toNat = ((s.eng e).s f.b.toNat).toNat % 65536))
  ∧ (∀ (e : Fin 16) (f : KvF) (s : State), CanIssue e 0x22 { a := .s, imm := .any } f s → f.imm.toNat % 256 = 4 ∨ f.imm.toNat % 256 = 5 →
    Does (.movtspr e f) s (fun t => BranchResult e ((s.eng e).pc + 1) s t
      ∧ (t.eng e).rx.toNat = (if f.imm.toNat % 256 = 4 then ((s.eng e).s f.a.toNat).toNat % 65536 else (s.eng e).rx.toNat)
      ∧ (t.eng e).ry.toNat = (if f.imm.toNat % 256 = 5 then ((s.eng e).s f.a.toNat).toNat % 65536 else (s.eng e).ry.toNat)))
  ∧ ∀ (e : Fin 16) (f : KvF) (s : State), CanIssue e 0x22 { a := .s, imm := .any } f s → Calm e s →
    f.imm.toNat % 256 ≤ 12 → f.imm.toNat % 256 ≠ 4 → f.imm.toNat % 256 ≠ 5 → Does (.movtspr e f) s (TrapResult e 1 s)

/-- DMAQ, DMAWAIT, FSIG, FWAIT, MBRECV, MBFREE, HALT: they go on when what they need is there, and wait otherwise (R89, R92, R93, R96,
R104). Where the spec leaves a point open, this follows the model's choice in log 33, 80, 82, 84 and 128. -/
def Obligations.EngineWaits : Prop :=
  (∀ (e : Fin 16) (f : KvF) (s : State) (d : Desc), CanIssue e 0x90 { a := .s, imm := .any } f s →
    ((s.eng e).s f.a.toNat).toNat % 32 = 0 → ((s.eng e).s f.a.toNat).toNat + 32 ≤ 0x20000 →
    readDesc (s.bytes (ldBase e + ((s.eng e).s f.a.toNat).toNat) 32) = some d →
    (((s.eng e).chan (f.imm.toNat % 2)).length < 4 →
      Does (.dmaq e f) s (fun t => BranchResult e ((s.eng e).pc + 1) s t
        ∧ (t.eng e).chan (f.imm.toNat % 2) = (s.eng e).chan (f.imm.toNat % 2) ++ [d]))
    ∧ (4 ≤ ((s.eng e).chan (f.imm.toNat % 2)).length →
      Does (.dmaq e f) s (WaitResult e (.dmaq (f.imm.toNat % 2) d) s)))
  ∧ (∀ (e : Fin 16) (f : KvF) (s : State), CanIssue e 0x91 { imm := .any } f s →
    ((s.eng e).chansIdle (f.imm.toNat % 4) = true → Does (.dmawait e f) s (BranchResult e ((s.eng e).pc + 1) s))
    ∧ ((s.eng e).chansIdle (f.imm.toNat % 4) = false → Does (.dmawait e f) s (WaitResult e (.dmawait (f.imm.toNat % 4)) s)))
  ∧ (∀ (e : Fin 16) (f : KvF) (s : State), CanIssue e 0xA0 { imm := .any } f s →
    ((s.eng e).writesPending = false → Does (.fsig e f) s (fun t => (t.eng e).pc = (s.eng e).pc + 1
      ∧ t.fence (f.imm.toNat % 16) = s.fence (f.imm.toNat % 16) + 1 ∧ t.mem = s.mem
      ∧ ∀ k, k < 16 → k ≠ f.imm.toNat % 16 → t.fence k = s.fence k))
    ∧ ((s.eng e).writesPending = true → Does (.fsig e f) s (WaitResult e (.fsig (f.imm.toNat % 16)) s)))
  ∧ (∀ (e : Fin 16) (f : KvF) (s : State), CanIssue e 0xA1 { a := .s, imm := .any } f s →
    let t := (s.eng e).s f.a.toNat
    (0 ≤ (s.fence (f.imm.toNat % 16) - t).toInt → Does (.fwait e f) s (BranchResult e ((s.eng e).pc + 1) s))
    ∧ ((s.fence (f.imm.toNat % 16) - t).toInt < 0 → Does (.fwait e f) s (WaitResult e (.fwait (f.imm.toNat % 16) t) s)))
  ∧ (∀ (e : Fin 16) (f : KvF) (s : State), CanIssue e 0xB0 { d := .s } f s →
    (∀ m, (s.eng e).firstSlot = some m → Does (.mbrecv e f) s (fun t =>
      ScalarResult e f.d (BitVec.ofNat 32 (0x1C000 + 0x800 * m)) s t ∧ (m, true) ∈ (t.eng e).slots))
    ∧ ((s.eng e).firstSlot = none → Does (.mbrecv e f) s (WaitResult e (.mbrecv f.d.toNat) s)))
  ∧ (∀ (e : Fin 16) (f : KvF) (s : State) (m : Nat), CanIssue e 0xB1 { a := .s } f s → (m, true) ∈ (s.eng e).slots →
    ((s.eng e).s f.a.toNat).toNat = 0x1C000 + 0x800 * m →
    Does (.mbfree e f) s (fun t => BranchResult e ((s.eng e).pc + 1) s t ∧ (m, true) ∉ (t.eng e).slots))
  ∧ ∀ (e : Fin 16) (f : KvF) (s : State) (p : BeprogC), CanIssue e 0x01 {} f s → (s.eng e).prog = some p → p.kind = .user →
    ((s.eng e).jobWrites = true → Does (.halt e f) s (WaitResult e .halt s))
    ∧ ((s.eng e).jobWrites = false → s.isF (fBE_STATUS_TRIG_PENDING e) = false → s.getF (fBE_JOB_TRIG_SRC e) ≠ 2 →
      Does (.halt e f) s (fun t => t.beState e = beIDLE ∧ t.mem = s.mem
        ∧ t.regN (rBE_JOB_COUNT e) = (s.regN (rBE_JOB_COUNT e) + 1) % 2 ^ 32))

/-- EVPOST (R98) posts an event of class BE with code IMM[15:0], priority IMM[17:16], Sa as its data word and the engine's number as its
source; it is stored by the boot ROM until the firmware starts (R63), else offered in the engines' outbox. IMM[15] = 0, priority 0 or a
bit above 17 raises ILLEGAL. Where the spec leaves a point open, this follows the model's choice in log 37, 80 and 114. -/
def Obligations.EventPost : Prop :=
  ∀ (e : Fin 16) (f : KvF) (s : State), CanIssue e 0xB3 { a := .s, imm := .any } f s →
    let legal := f.imm.getLsbD 15 = true ∧ 1 ≤ f.imm.toNat / 2 ^ 16 % 4 ∧ f.imm.toNat < 2 ^ 18
    let ev := fun lt => (⟨⟨12, f.imm.toNat % 65536, f.imm.toNat / 65536⟩, e, (s.eng e).s f.a.toNat, lt⟩ : Ev)
    (legal → Does (.evpost e f) s (fun t => (t.eng e).pc = (s.eng e).pc + 1 ∧ t.mem = s.mem ∧ t.beState e = beRUN
      ∧ (s.boot.fwStarted = true → s.outboxOf 0x24 < 4 → ∃ lt, t.hamper.outbox = s.hamper.outbox ++ [(0x24, ev lt)])
      ∧ (s.boot.fwStarted = false → ∃ lt, t.boot.held = s.boot.held ++ [ev lt])))
    ∧ (¬legal → Calm e s → Does (.evpost e f) s (TrapResult e 1 s))

/-! ### Engine commands, jobs and DMA (R89 to R104) -/

/-- BE_START, BE_STOP, BE_RESET, ENGINE_RESTART, JOB_TRIGGER (R94, R99, R102, R103, R104): what each leaves of the engine's state; a STOP
mutes the descriptors in flight in every state but OFF; a restart takes the images from the copy in the protected window. Where the spec
leaves a point open, this follows the model's choice in log 34, 84, 133 and 162. -/
def Obligations.EngineCommands : Prop :=
  (∀ (e : Fin 16) (s : State), Clean s → Takes s (rBE_CMD e) → s.beState e = beIDLE → s.beGated = false → (s.eng e).next = none →
    Does (.beStart e) s (fun t => t.beState e = beRUN ∧ (t.eng e).pc = s.regN (rBE_ENTRY_PC e) % 8192 ∧ (t.eng e).jobSrc = 0
      ∧ t.mem = s.mem ∧ ∀ k, k ≠ e.val → t.eng k = s.eng k))
  ∧ (∀ (e : Fin 16) (s : State), Takes s (rBE_CMD e) → s.beState e = beRUN ∨ s.beState e = beWAIT →
    Does (.beStop e) s (fun t => t.beState e = beIDLE ∧ (t.eng e).wait = .none ∧ t.getF (fBE_STATUS_TRIG_PENDING e) = 0
      ∧ (∀ d ∈ (t.eng e).ch0 ++ (t.eng e).ch1, d.mute = true) ∧ t.mem = s.mem ∧ Quiet [rBE_STATUS e] { s with be := t.be } t))
  ∧ (∀ (e : Fin 16) (s : State), Takes s (rBE_CMD e) → s.beState e ≠ beOFF → s.beState e ≠ beRUN → s.beState e ≠ beWAIT →
    Does (.beStop e) s (fun t => (∀ d ∈ (t.eng e).ch0 ++ (t.eng e).ch1, d.mute = true) ∧ (∀ k, k ≠ e.val → t.eng k = s.eng k)
      ∧ t = { s with be := t.be }))
  ∧ (∀ (e : Fin 16) (s : State), Takes s (rBE_CMD e) → s.beState e ≠ beOFF → s.beState e ≠ beSTOPPING →
    (s.eng e).lost = false →
    Does (.beReset e) s (fun t => t.beState e = beLOADING ∧ (t.eng e).wait = .none ∧ t.getF (fBE_STATUS_TRIG_PENDING e) = 0
      ∧ t.mem = s.mem ∧ Quiet [rBE_STATUS e] { s with be := t.be } t))
  ∧ (∀ (e : Fin 16) (s : State), Clean s → s.beState e = beLOADING → s.beGated = true → Does (.engineRestart e) s (fun t => t = s))
  ∧ (∀ (e : Fin 16) (s : State), Clean s → s.beState e = beLOADING → s.beGated = false →
    Does (.engineRestart e) s (fun t => (∀ p, (s.eng e).prog = some p → 8 * p.image.length ≤ 0x10000 → p.data.length ≤ 0x1C000 →
        t.bytes (imemBase e) (8 * p.image.length) = s.bytes (s.copyBase e) (8 * p.image.length)
        ∧ t.bytes (ldBase e) p.data.length = s.bytes (s.copyBase e + 0x10000) p.data.length)
      ∧ t.beState e = beIDLE ∧ (∀ k, (t.eng e).s k = 0) ∧ (∀ k, k ≠ 0 → (t.eng e).p k = 0)
      ∧ (∀ k j, lane ((t.eng e).v k) j = 0) ∧ (t.eng e).slots = [] ∧ (t.eng e).prog = (s.eng e).prog))
  ∧ ∀ (e : Fin 16) (srcs : BitVec 5) (k : Nat) (s : State), Clean s → s.trigSource e srcs = some k → s.beGated = false →
    (s.beState e = beIDLE → (s.eng e).next = none → Does (.jobTrigger e srcs) s (fun t =>
      t.beState e = beRUN ∧ (t.eng e).jobSrc = k ∧ (t.eng e).pc = s.regN (rBE_ENTRY_PC e) % 8192 ∧ t.mem = s.mem))
    ∧ (s.beState e = beRUN ∨ s.beState e = beWAIT → s.isF (fBE_STATUS_TRIG_PENDING e) = false →
      Does (.jobTrigger e srcs) s (fun t => t.isF (fBE_STATUS_TRIG_PENDING e) = true ∧ (t.eng e).pendSrc = k
        ∧ t.beState e = s.beState e ∧ t.mem = s.mem))

/-- The ends of waits: HALT_COMPLETE, DMA_QUEUE_ROOM, FSIG_WRITES_VISIBLE, FWAIT_SATISFIED, MBRECV_DELIVERED go on at the next
instruction or end the job; FWAIT_TIMEOUT and WATCHDOG raise exceptions 9 and 10 once the limit in µs has passed, 0 as 1 (R107; R89, R92,
R93, R96, R100, R104). Where the spec leaves a point open, this follows the model's choice in log 7, 82, 84 and 144. -/
def Obligations.WaitsEnd : Prop :=
  (∀ (e : Fin 16) (s : State) (p : BeprogC), s.waits e = true → (s.eng e).wait = .halt → (s.eng e).jobWrites = false →
    (s.eng e).prog = some p → p.kind = .user → s.isF (fBE_STATUS_TRIG_PENDING e) = false → s.getF (fBE_JOB_TRIG_SRC e) ≠ 2 →
    Does (.haltComplete e) s (fun t => t.beState e = beIDLE ∧ (t.eng e).wait = .none ∧ t.mem = s.mem
      ∧ t.regN (rBE_JOB_COUNT e) = (s.regN (rBE_JOB_COUNT e) + 1) % 2 ^ 32))
  ∧ (∀ (e : Fin 16) (s : State) (ch : Nat) (d : Desc), s.waits e = true → (s.eng e).wait = .dmaq ch d →
    ((s.eng e).chan ch).length < 4 →
    Does (.dmaQueueRoom e) s (fun t => t.beState e = beRUN ∧ (t.eng e).pc = (s.eng e).pc + 1 ∧ (t.eng e).wait = .none
      ∧ (t.eng e).chan ch = (s.eng e).chan ch ++ [d] ∧ Quiet [rBE_STATUS e] { s with be := t.be } t))
  ∧ (∀ (e : Fin 16) (s : State) (m : Nat), s.waits e = true → (s.eng e).wait = .dmawait m → (s.eng e).chansIdle m = true →
    Does (.dmaQueueRoom e) s (fun t => t.beState e = beRUN ∧ (t.eng e).pc = (s.eng e).pc + 1 ∧ (t.eng e).wait = .none
      ∧ Quiet [rBE_STATUS e] { s with be := t.be } t))
  ∧ (∀ (e : Fin 16) (s : State) (k : Nat), s.waits e = true → (s.eng e).wait = .fsig k → (s.eng e).writesPending = false →
    Does (.fsigWritesVisible e) s (fun t => t.beState e = beRUN ∧ (t.eng e).pc = (s.eng e).pc + 1 ∧ t.fence k = s.fence k + 1
      ∧ t.mem = s.mem))
  ∧ (∀ (e : Fin 16) (s : State) (k : Nat) (x : Word), s.waits e = true → (s.eng e).wait = .fwait k x → s.fenceReached k x = true →
    Does (.fwaitSatisfied e) s (fun t => t.beState e = beRUN ∧ (t.eng e).pc = (s.eng e).pc + 1 ∧ (t.eng e).wait = .none
      ∧ Quiet [rBE_STATUS e] { s with be := t.be } t))
  ∧ (∀ (e : Fin 16) (s : State) (k : Nat) (x : Word), s.waits e = true → (s.eng e).wait = .fwait k x → Calm e s →
    let limit := 800 * max 1 (s.regN (rBE_FWAIT_LIMIT e) % 65536)
    (limit < s.time.now - (s.eng e).limFrom → Does (.fwaitTimeout e) s (TrapResult e 9 s))
    ∧ (s.time.now - (s.eng e).limFrom ≤ limit → Does (.fwaitTimeout e) s (fun t => t = s)))
  ∧ (∀ (e : Fin 16) (s : State) (d : BitVec 5) (m : Nat), s.waits e = true → (s.eng e).wait = .mbrecv d.toNat →
    (s.eng e).firstSlot = some m →
    Does (.mbrecvDelivered e) s (fun t => t.beState e = beRUN ∧ (t.eng e).pc = (s.eng e).pc + 1 ∧ (m, true) ∈ (t.eng e).slots
      ∧ (t.eng e).s d.toNat = (if d = 0 then 0 else BitVec.ofNat 32 (0x1C000 + 0x800 * m))
      ∧ Quiet [rBE_STATUS e] { s with be := t.be } t))
  ∧ ∀ (e : Fin 16) (s : State), s.beGated = false → s.beState e = beRUN ∨ s.beState e = beWAIT → Calm e s →
    let limit := 800 * max 1 (s.regN (rBE_JOB_TIME_LIMIT e) % 65536)
    (limit < s.jobTicks e → Does (.watchdog e) s (TrapResult e 10 s)) ∧ (s.jobTicks e ≤ limit → Does (.watchdog e) s (fun t => t = s))

/-- DMA_DESC_COMPLETE moves the rows of the descriptor at the channel's head from DRAM to local data and signals its fence (R89, R92);
DMA_ERR discards the channel and raises DMA_ERR, exception 7 (R90, R100). While the BE clock is gated neither does anything (R103). Where
the spec leaves a point open, this follows the model's choice in log 17, 84 and 185. -/
def Obligations.DmaTransfers : Prop :=
  (∀ (e : Fin 16) (ch : Fin 2) (s : State), s.beGated = true →
    ∀ c ∈ [Instr.dmaDescComplete e ch, .dmaErr e ch], Does c s (fun t => t = s)) ∧
  (∀ (e : Fin 16) (ch : Fin 2) (s : State) (x : Desc) (rest : List Desc), Clean s → s.beGated = false → (s.eng e).chan ch = x :: rest →
    x.toSys = false → s.wp ≤ 2 ^ 32 → x.src + (x.height - 1) * x.srcStride + x.width ≤ s.wp → x.width ≤ x.dstStride →
    x.dst + (x.height - 1) * x.dstStride + x.width ≤ 0x1C000 → 0 < x.width → (s.eng e).trap = none →
    Does (.dmaDescComplete e ch) s (fun t => (t.eng e).chan ch = rest
      ∧ (∀ r, r < x.height → t.bytes (ldBase e + x.dst + r * x.dstStride) x.width = s.bytes (x.src + r * x.srcStride) x.width)
      ∧ (∀ a, a < ldBase e + x.dst ∨ ldBase e + x.dst + (x.height - 1) * x.dstStride + x.width ≤ a → t.byte a = s.byte a)
      ∧ ∀ k, k < 16 → t.fence k = if x.sig = true ∧ x.mute = false ∧ k = x.fence % 16 then s.fence k + 1 else s.fence k))
  ∧ ∀ (e : Fin 16) (ch : Fin 2) (s : State), s.beGated = false → (s.eng e).chan ch ≠ [] → (s.eng e).chan (1 - ch.val) = [] → (s.eng e).lastFault = none →
    (s.eng e).trap = none → s.beState e = beRUN ∨ s.beState e = beWAIT →
    Does (.dmaErr e ch) s (fun t => TrapResult e 7 s t ∧ (t.eng e).chan ch = [])

/-! ### Lamp time (R298 to R308) -/

/-- R303: no correction of a domain and no change of the active domain moves lamp time at once: the residual takes up the step. Where the
spec leaves a point open, this follows the model's choice in log 77. -/
def Obligations.LampTimeContinuous : Prop :=
  ∀ (d : Fin 2) (v : Word) (m : SyncIn) (gm : Nat) (able : Bool) (s : State),
    ∀ c ∈ [Instr.incrWrite d v, .offsetWrite d v, .adjWrite d v, .offsetMeasWrite d v, .domainSwitch v, .domainStale, .gptpSync d m,
      .gptpAnnounce d gm, .gptpLost d able], Does c s (fun t => t.lampFine = s.lampFine)

/-- Corrections (R300, R301, R306): INCR_WRITE, OFFSET_WRITE, ADJ_WRITE, OFFSET_MEAS_WRITE. The other domain is as before. Where the spec
leaves a point open, this follows the model's choice in log 77. -/
def Obligations.TimeCorrections : Prop :=
  (∀ (d : Fin 2) (v : Word) (s : State), Takes s (rTIME_INCR_FRAC d) → s.isF (fTIME_DOM_CFG_SERVO d) = false →
    let incr := 2 ^ 32 * (s.regN (rTIME_INCR_INT d) % 16) + v.toNat
    (incrMin ≤ incr → incr ≤ incrMax → Does (.incrWrite d v) s (fun t =>
      t.dom d = { offset := s.ltDom d, incr := incr, base := s.time.frc, updated := some s.time.now, stale := false }
      ∧ t.dom (1 - d.val) = s.dom (1 - d.val) ∧ t.regN (rTIME_INCR_FRAC d) = v.toNat ∧ t.mem = s.mem))
    ∧ (incr < incrMin ∨ incrMax < incr → Does (.incrWrite d v) s (fun t => t.time = s.time
      ∧ t.regN (rTIME_INCR_FRAC d) = (s.dom d).incr % 2 ^ 32 ∧ t.getF fTIME_STATUS_INCR_REFUSED = 1
      ∧ t.regN rTIME_INCR_REFUSED_COUNT = min (s.regN rTIME_INCR_REFUSED_COUNT + 1) 0xFFFF)))
  ∧ (∀ (d : Fin 2) (v : Word) (s : State), Takes s (rTIME_OFFSET_HI d) →
    Does (.offsetWrite d v) s (fun t =>
      t.dom d = { s.dom d with offset := 2 ^ 64 * v.toNat + 2 ^ 32 * s.regN (rTIME_OFFSET_LO d) + s.regN (rTIME_OFFSET_FRAC d),
                               updated := some s.time.now, stale := false }
      ∧ t.dom (1 - d.val) = s.dom (1 - d.val) ∧ t.mem = s.mem))
  ∧ (∀ (d : Fin 2) (v : Word) (s : State), Takes s (rTIME_ADJ d) →
    Does (.adjWrite d v) s (fun t =>
      ((t.dom d).offset : Int) = (((s.dom d).offset : Int) + 2 ^ 32 * v.toInt) % 2 ^ 96 ∧ (t.dom d).updated = some s.time.now
      ∧ (t.dom d).incr = (s.dom d).incr ∧ t.dom (1 - d.val) = s.dom (1 - d.val) ∧ t.mem = s.mem))
  ∧ ∀ (d : Fin 2) (v : Word) (s : State), Takes s (rTIME_OFFSET_MEAS d) → s.isF (fTIME_DOM_CFG_SERVO d) = true →
    (1000 < v.toInt ∨ v.toInt < -1000 → Does (.offsetMeasWrite d v) s (fun t =>
      ((t.dom d).offset : Int) = (((s.dom d).offset : Int) + 2 ^ 32 * v.toInt) % 2 ^ 96 ∧ t.regN (rTIME_SERVO_I d) = 0
      ∧ (t.dom d).incr = (s.dom d).incr ∧ t.dom (1 - d.val) = s.dom (1 - d.val) ∧ t.mem = s.mem))
    ∧ (-1000 ≤ v.toInt → v.toInt ≤ 1000 → Does (.offsetMeasWrite d v) s (fun t =>
      let i := max (-2 ^ 20) (min (2 ^ 20 - 1) ((s.reg (rTIME_SERVO_I d)).toInt + v.toInt))
      let ppb := max (-200000) (min 200000 ((s.getF (fTIME_DOM_CFG_KP d) : Int) * v.toInt + (s.getF (fTIME_DOM_CFG_KI d) : Int) * i / 256))
      (t.reg (rTIME_SERVO_I d)).toInt = i
      ∧ ((t.dom d).incr : Int) = (0x140000000 * (1000000000 + ppb) + 500000000) / 1000000000
      ∧ (t.getF (fTIME_DOM_STATUS_SERVO_CLAMPED d) = 1 ↔ ppb = 200000 ∨ ppb = -200000) ∧ t.ltDom d = s.ltDom d
      ∧ t.dom (1 - d.val) = s.dom (1 - d.val) ∧ t.mem = s.mem))

/-- Reads, the choice of domain, steps and slews (R302 to R305, R315): SNAP_CMD, LT_LO_READ, DOMAIN_SWITCH, DOMAIN_STALE (once HOLD_LIMIT
has passed), TIME_STEP (only at a swap instant of the lamp while a generator runs), SLEW_END (once the residual has reached 0). Where the
spec leaves a point open, this follows the model's choice in log 77 and 78. -/
def Obligations.TimeDomains : Prop :=
  (∀ s : State, Takes s rTIME_SNAP_CMD → Does (.snapCmd 1) s (fun t =>
    t.pair rTIME_SNAP_FRC_LO rTIME_SNAP_FRC_HI = s.time.frc % 2 ^ 64 ∧ t.pair rTIME_SNAP_LT_LO rTIME_SNAP_LT_HI = s.lampNs
    ∧ t.regN rTIME_SNAP_LT_FRAC = s.lampFine % 2 ^ 32 ∧ t.pair rTIME_SNAP_D0_LO rTIME_SNAP_D0_HI = s.ltDom 0 / 2 ^ 32
    ∧ t.pair rTIME_SNAP_D1_LO rTIME_SNAP_D1_HI = s.ltDom 1 / 2 ^ 32 ∧ t = { s with regs := t.regs }))
  ∧ (∀ s : State, s.boot.porst = false → Does .ltLoRead s (fun t => t = s))
  ∧ (∀ s : State, s.boot.porst = true → Does .ltLoRead s (fun t =>
    t.rdata.toNat + 2 ^ 32 * t.regN rTIME_LT_HI = s.lampNs ∧ t = { s with regs := t.regs, rdata := t.rdata }
    ∧ ∀ off, off ≠ rTIME_LT_HI → t.reg off = s.reg off))
  ∧ (∀ (v : Word) (s : State), Takes s rTIME_CTRL → s.isF fTIME_STATUS_HOLDOVER = false →
    Does (.domainSwitch v) s (fun t => t.active = v.toNat % 2 ∧ t.getF fTIME_CTRL_AUTO = v.toNat / 256 % 2
      ∧ t.dom 0 = s.dom 0 ∧ t.dom 1 = s.dom 1 ∧ t.isF fTIME_STATUS_HOLDOVER = false ∧ t.mem = s.mem))
  ∧ (∀ s : State, s.holdPast s.active = false → Does .domainStale s (fun t => t = s))
  ∧ (∀ s : State, s.holdPast s.active = true → s.isF (fTIME_DOM_CFG_VALID s.active) = true → (s.dom s.active).stale = false →
    (s.isF fTIME_CTRL_AUTO = false → Does .domainStale s (fun t =>
      t.dom s.active = { s.dom s.active with stale := true } ∧ t.isF fTIME_STATUS_HOLDOVER = true ∧ t.active = s.active ∧ t.mem = s.mem))
    ∧ (s.isF fTIME_CTRL_AUTO = true → s.domFresh (1 - s.active) = true → Does .domainStale s (fun t =>
      t.active = 1 - s.active ∧ t.isF fTIME_STATUS_HOLDOVER = false ∧ t.mem = s.mem)))
  ∧ (∀ s : State, s.time.resid < -residLimit ∨ residLimit < s.time.resid → s.tgsOn = [] → s.time.sched = [] →
    Does .timeStep s (fun t => t.time.resid = 0 ∧ t.getF fTIME_STATUS_TIME_STEP = 1 ∧ t.isF fTIME_STATUS_SLEWING = false
      ∧ t.regN rTIME_TIME_STEP_COUNT = min (s.regN rTIME_TIME_STEP_COUNT + 1) 0xFFFF
      ∧ t.lampTiming = { s.lampTiming with latchAt := s.lampTiming.latchAt - (s.time.resid : Rat) / (2 ^ 32 * 20000) }
      ∧ Quiet [rTIME_STATUS, rTIME_TIME_STEP_COUNT] { s with time := t.time, lampTiming := t.lampTiming } t))
  ∧ (∀ (s : State) (n : Nat), s.lampTg = some n → (s.lampFine : Rat) < 2 ^ 32 * (s.tgOf n).e → Does .timeStep s (fun t => t = s))
  ∧ ∀ s : State,
    (s.isF fTIME_STATUS_SLEWING = true → slewStep s.time.resid (s.dom s.active).incr = 0 → Does .slewEnd s (fun t =>
      t.time.resid = 0 ∧ t.isF fTIME_STATUS_SLEWING = false ∧ Quiet [rTIME_STATUS] { s with time := t.time } t))
    ∧ (s.isF fTIME_STATUS_SLEWING = false ∨ slewStep s.time.resid (s.dom s.active).incr ≠ 0 → Does .slewEnd s (fun t => t = s))

/-- R305 whole: a write of CTRL that names the other domain switches to it, lamp time going on through the residual (R303), and posts
DOMAIN_SWITCH with data bit 1 clear; one that names the domain already active changes nothing but the AUTO bit it carries. -/
def Obligations.ActiveDomainWrite : Prop :=
  ∀ (v : Word) (s : State), Takes s rTIME_CTRL → s.isF fTIME_STATUS_HOLDOVER = false →
    (v.toNat % 2 ≠ s.active → s.boot.fwStarted = true → s.outboxOf srcTIME < 4 → Does (.domainSwitch v) s (fun t =>
      t.active = v.toNat % 2 ∧ t.lampFine = s.lampFine ∧ t.dom 0 = s.dom 0 ∧ t.dom 1 = s.dom 1 ∧ t.mem = s.mem
      ∧ ∃ lt, t.hamper.outbox = s.hamper.outbox ++ [(srcTIME, ⟨⟨3, 0x0002, 2⟩, srcTIME, BitVec.ofNat 32 (v.toNat % 2), lt⟩)]))
    ∧ (v.toNat % 2 = s.active → Does (.domainSwitch v) s (fun t => t.active = s.active ∧ t = { s with regs := t.regs }
      ∧ ∀ off, off ≠ rTIME_CTRL → t.reg off = s.reg off))

/-- gPTP (R307 to R309): a one-step Sync, or a two-step one with its follow-up, gives the offset of the domain; three in a row within
±200 ns make it valid; a loss, three intervals without a Sync or another grandmaster takes that back; the Sync interval is kept within
its range; a link-delay request is sent, stamped and answered, and its answer gives the delay. Without the firmware nothing happens.
Where the spec leaves a point open, this follows the model's choice in log 78 and 183. -/
def Obligations.Gptp : Prop :=
  (∀ (i p : Fin 2) (c : GptpC) (s : State), s.loader.cfg.ti.gptp[i.val]? = some c → s.fwRuns = true → s.time.gptp.length = 2 →
    s.time.pdelay.length = 2 → s.time.pdelaySeq.length = 2 →
    (∀ ago origin, let off := syncOffset i c (gptpTime c.port s.loader.cfg.ti.rxSer s.loader.cfg.ti.rxLat ago s) origin s
      (-200 ≤ off → off ≤ 200 → Does (.gptpSync i (.oneStep ago origin)) s (fun t =>
        (t.gptpOf i).good = min 3 ((s.gptpOf i).good + 1) ∧ (t.gptpOf i).last = some s.time.now ∧ (t.gptpOf i).wait = none
        ∧ t.mem = s.mem ∧ (2 ≤ (s.gptpOf i).good → t.isF (fTIME_DOM_CFG_VALID (c.dom % 2)) = true)))
      ∧ (off < -200 ∨ 200 < off → Does (.gptpSync i (.oneStep ago origin)) s (fun t =>
        (t.gptpOf i).good = 0 ∧ (t.gptpOf i).last = some s.time.now
        ∧ t = { s with time := { s.time with gptp := t.time.gptp } })))
    ∧ (∀ ago, Does (.gptpSync i (.twoStep ago)) s (fun t =>
      (t.gptpOf i).wait = some (gptpTime c.port s.loader.cfg.ti.rxSer s.loader.cfg.ti.rxLat ago s)
      ∧ (t.gptpOf i).last = some s.time.now ∧ (t.gptpOf i).good = (s.gptpOf i).good
      ∧ t = { s with time := { s.time with gptp := t.time.gptp } }))
    ∧ (∀ origin t0, (s.gptpOf i).wait = some t0 → -200 ≤ syncOffset i c t0 origin s → syncOffset i c t0 origin s ≤ 200 →
      Does (.gptpSync i (.followUp origin)) s (fun t =>
        (t.gptpOf i).good = min 3 ((s.gptpOf i).good + 1) ∧ (t.gptpOf i).wait = none ∧ t.mem = s.mem
        ∧ (2 ≤ (s.gptpOf i).good → t.isF (fTIME_DOM_CFG_VALID (c.dom % 2)) = true)))
    ∧ (∀ origin, (s.gptpOf i).wait = none → Does (.gptpSync i (.followUp origin)) s (fun t => t = s))
    ∧ (∀ gm, gm ≠ c.gm → Does (.gptpAnnounce i gm) s (fun t =>
      (t.gptpOf i).good = 0 ∧ t.isF (fTIME_DOM_CFG_VALID (c.dom % 2)) = false ∧ t.mem = s.mem))
    ∧ Does (.gptpAnnounce i c.gm) s (fun t => t = s)
    ∧ (∀ able : Bool, (able = true → ∀ t0, (s.gptpOf i).last = some t0 →
        t0 + 3 * (800000000 / 2 ^ (s.gptpOf i).interval.natAbs) ≤ s.time.now) →
      Does (.gptpLost i able) s (fun t =>
        (t.gptpOf i).good = 0 ∧ t.isF (fTIME_DOM_CFG_VALID (c.dom % 2)) = false ∧ t.mem = s.mem))
    ∧ (∀ t0, (s.gptpOf i).last = some t0 → s.time.now < t0 + 3 * (800000000 / 2 ^ (s.gptpOf i).interval.natAbs) →
      Does (.gptpLost i true) s (fun t => t = s))
    ∧ (∀ k : Int,
      (-5 ≤ k → k ≤ 0 → Does (.gptpSignalling i k) s (fun t =>
        (t.gptpOf i).interval = k ∧ (t.gptpOf i).good = (s.gptpOf i).good ∧ t.gptpOf (1 - i.val) = s.gptpOf (1 - i.val)
        ∧ t = { s with time := { s.time with gptp := t.time.gptp } }))
      ∧ (k < -5 ∨ 0 < k → Does (.gptpSignalling i k) s (fun t => t = s)))
    ∧ (s.macsecOn p = false → Does (.gptpPdelay p .due) s (fun t =>
      t.time = { s.time with
        pdelay := s.time.pdelay.set p (some (gptpTime p s.loader.cfg.ti.txSer s.loader.cfg.ti.txLat 0 s)),
        pdelaySeq := s.time.pdelaySeq.set p ((s.time.pdelaySeq.getD p 0 + 1) % 65536) }
      ∧ t = { s with time := t.time, host := { s.host with
          eth := s.host.eth ++ [(p.val, .pdelayReq (s.time.pdelaySeq.getD p 0))], wire := t.host.wire } }))
    ∧ (∀ (who : BitVec 80) (seq : BitVec 16), s.macsecOn p = false → Does (.gptpPdelay p (.req who seq)) s (fun t =>
      t = { s with host := { s.host with wire := t.host.wire, eth := s.host.eth ++
        [(p.val, .pdelayResp (gptpTime p s.loader.cfg.ti.rxSer s.loader.cfg.ti.rxLat 0 s) who.toNat seq.toNat),
         (p.val, .pdelayFollow (gptpTime p s.loader.cfg.ti.txSer s.loader.cfg.ti.txLat 0 s) who.toNat seq.toNat)] } }))
    ∧ ∀ (seq : BitVec 16) (t2 t3 : Nat), c.port = p →
      (∀ t1, s.time.pdelay.getD p none = some t1 → (seq.toNat + 1) % 65536 = s.time.pdelaySeq.getD p 0 →
        Does (.gptpPdelay p (.resp seq t2 t3)) s (fun t =>
          (t.gptpOf i).delayNs =
            (5 * ((gptpTime p s.loader.cfg.ti.rxSer s.loader.cfg.ti.rxLat 0 s + 2 ^ 64 - t1) % 2 ^ 64) - 4 * (t3 - t2)) / 8
          ∧ (t.gptpOf i).good = (s.gptpOf i).good ∧ t.time.pdelay.getD p none = none
          ∧ t = { s with time := { s.time with gptp := t.time.gptp, pdelay := t.time.pdelay } }))
      ∧ (s.time.pdelay.getD p none = none ∨ (seq.toNat + 1) % 65536 ≠ s.time.pdelaySeq.getD p 0 →
        Does (.gptpPdelay p (.resp seq t2 t3)) s (fun t => t = s)))
  ∧ ∀ (i : Fin 2) (m : SyncIn) (x : PdelayIn) (gm : Nat) (k : Int) (able : Bool) (s : State), s.fwRuns = false →
    ∀ c ∈ [Instr.gptpSync i m, .gptpAnnounce i gm, .gptpLost i able, .gptpSignalling i k, .gptpPdelay i x], Does c s (fun t => t = s)

/-! ### The schedule, trigger and capture pins (R311 to R320) -/

/-- SCHED_ARM, SCHED_TARGET_WRITE, SCHED_DISARM (R311, R312): an entry whose checks pass is armed as its registers hold it; one whose
argument is bad is refused with RESULT 6, one too far ahead with RESULT 4; an entry that matches as it is disarmed executes first (R324).
Where the spec leaves a point open, this follows the model's choice in log 76 and 189. -/
def Obligations.SchedArming : Prop :=
  (∀ (e : Fin 64) (v : Word) (s : State), Takes s (rTIME_SCHED_CFG e) →
    let s' := s.setRegN (rTIME_SCHED_CFG e) (2 ^ 31 + 2 ^ 27 * (v.toNat / 2 ^ 27 % 16) + 2 ^ 20 * (v.toNat / 2 ^ 20 % 16))
    let x := s'.schedHeld e
    (s'.schedArgOk x = true → x.mode = sFRAME ∨ s'.future x.target = true ∧ s'.tooFar x.target = false →
      Does (.schedArm e v) s (fun t => t.schedOf e = some (if x.mode = sFRAME then { x with seen := s'.frameFrom x } else x) ∧ t.isF (fTIME_SCHED_STATUS_ARMED e) = true
        ∧ t.isF (fTIME_SCHED_CFG_EN e) = true ∧ (∀ k, k ≠ e.val → t.schedOf k = s.schedOf k)
        ∧ Quiet [rTIME_SCHED_CFG e, rTIME_SCHED_STATUS e] { s with time := t.time } t))
    ∧ (s'.schedArgOk x = false → Does (.schedArm e v) s (fun t => t.schedOf e = none ∧ t.isF (fTIME_SCHED_STATUS_ARMED e) = false
        ∧ t.isF (fTIME_SCHED_CFG_EN e) = false ∧ t.getF (fTIME_SCHED_STATUS_RESULT e) = 6
        ∧ t.isF fTIME_STATUS_SCHED_REJECTED = true ∧ ∀ k, k ≠ e.val → t.schedOf k = s.schedOf k))
    ∧ (s'.schedArgOk x = true → x.mode ≠ sFRAME → s'.tooFar x.target = true →
      Does (.schedArm e v) s (fun t => t.schedOf e = none ∧ t.isF (fTIME_SCHED_STATUS_ARMED e) = false
        ∧ t.getF (fTIME_SCHED_STATUS_RESULT e) = 4 ∧ t.isF fTIME_STATUS_SCHED_REJECTED = true)))
  ∧ (∀ (e : Fin 64) (v : Word) (s : State), Takes s (rTIME_SCHED_TARGET_LO e) →
    let s' := s.setReg (rTIME_SCHED_TARGET_LO e) v
    let x := s'.schedHeld e
    (s.isF (fTIME_SCHED_CFG_EN e) = false → Does (.schedTargetWrite e v) s (fun t => t = s'))
    ∧ (s.isF (fTIME_SCHED_CFG_EN e) = true → s'.schedArgOk x = true →
      x.mode = sFRAME ∨ s'.future x.target = true ∧ s'.tooFar x.target = false →
      Does (.schedTargetWrite e v) s (fun t =>
        t.schedOf e = some (if x.mode = sFRAME then { x with seen := s'.frameFrom x } else x) ∧ t.isF (fTIME_SCHED_STATUS_ARMED e) = true
        ∧ Quiet [rTIME_SCHED_TARGET_LO e, rTIME_SCHED_STATUS e] { s with time := t.time } t)))
  ∧ ∀ (e : Fin 64) (s : State), Takes s (rTIME_SCHED_CFG e) →
    ((∀ x, s.schedOf e = some x → s.schedDue x = false ∨ s.schedBehind e = true ∨ x.action = 7 ∧ s.asleep = true) →
      Does (.schedDisarm e) s (fun t => t.schedOf e = none ∧ t.isF (fTIME_SCHED_CFG_EN e) = false
        ∧ t.isF (fTIME_SCHED_STATUS_ARMED e) = false ∧ (∀ k, k ≠ e.val → t.schedOf k = s.schedOf k)
        ∧ Quiet [rTIME_SCHED_CFG e, rTIME_SCHED_STATUS e] { s with time := t.time } t))
    ∧ (∀ x, s.schedOf e = some x → x.mode = sONCE → s.schedDue x = true → s.schedBehind e = false → ¬(x.action = 7 ∧ s.asleep = true) →
      Does (.schedDisarm e) s (fun t => t.schedOf e = none ∧ t.isF (fTIME_SCHED_CFG_EN e) = false
        ∧ t.isF (fTIME_SCHED_STATUS_ARMED e) = false ∧ t.getF (fTIME_SCHED_STATUS_RESULT e) = 1
        ∧ t.getF (fTIME_SCHED_STATUS_EXEC_COUNT e) = (s.getF (fTIME_SCHED_STATUS_EXEC_COUNT e) + 1) % 65536
        ∧ ∀ k, k ≠ e.val → t.schedOf k = s.schedOf k))

/-- A match, an armed entry whose instant has come with no lower-numbered one to come first, executes its entry (R311, R313, R316):
RESULT is EXECUTED, EXEC_COUNT counts, a ONCE entry ends, a PERIODIC entry takes its next target and a FRAME entry its next frame. A
PERIODIC entry with the next target past runs its late policy as well (R314). Without a match nothing happens. Where the spec leaves a
point open, this follows the model's choice in log 7, 76 and 189. -/
def Obligations.SchedMatches : Prop :=
  ∀ p ∈ ([((.eventPost : Fin 64 → Instr), 0), (.trgPulse, 1), (.slotFire, 2), (.sweepStart, 3), (.framePhase, 5), (.beWake, 6)]
      : List ((Fin 64 → Instr) × Nat)), ∀ (e : Fin 64) (s : State),
    (∀ x, s.schedOf e = some x → x.action = p.2 → s.boot.porst = true → s.schedDue x = true → s.schedBehind e = false → x.mode ≤ 2 →
      (x.mode = sPERIODIC → s.future ((x.target + x.period) % 2 ^ 64) = true) →
      Does (p.1 e) s (fun t => t.getF (fTIME_SCHED_STATUS_RESULT e) = 1
        ∧ t.getF (fTIME_SCHED_STATUS_EXEC_COUNT e) = (s.getF (fTIME_SCHED_STATUS_EXEC_COUNT e) + 1) % 65536
        ∧ t.regN (rTIME_SCHED_LAST e) = s.lampNs % 2 ^ 32
        ∧ t.schedOf e = (if x.mode = sONCE then none
            else if x.mode = sPERIODIC then some { x with target := (x.target + x.period) % 2 ^ 64 }
            else some { x with seen := t.frameFrom x })
        ∧ (x.mode = sONCE → t.isF (fTIME_SCHED_CFG_EN e) = false ∧ t.isF (fTIME_SCHED_STATUS_ARMED e) = false)
        ∧ ∀ k, k ≠ e.val → t.schedOf k = s.schedOf k))
    ∧ (∀ x, s.schedOf e = some x → x.action = p.2 → s.boot.porst = true → s.schedDue x = true → s.schedBehind e = false →
      x.mode = sPERIODIC → s.future ((x.target + x.period) % 2 ^ 64) = false →
      let runs := if x.late ≠ 0 then x.late = 1 else x.action ≠ 1 ∧ x.action ≠ 2
      Does (p.1 e) s (fun t => (runs → t.getF (fTIME_SCHED_STATUS_RESULT e) = 2) ∧ (¬runs → t.getF (fTIME_SCHED_STATUS_RESULT e) = 3)
        ∧ (∃ y, t.schedOf e = some { x with target := y }) ∧ ∀ k, k ≠ e.val → t.schedOf k = s.schedOf k))
    ∧ (s.boot.porst = false ∨ (∀ x, s.schedOf e = some x → x.action = p.2 → s.schedDue x = false ∨ s.schedBehind e = true) →
      Does (p.1 e) s (fun t => t = s))

/-- What the actions do (R316, R319, R411), shown for a ONCE entry that matches; PWR_WAKE acts at its wake point. Where the spec leaves a
point open, this follows the model's choice in log 7, 37 and 76. -/
def Obligations.SchedActions : Prop :=
  ∀ (e : Fin 64) (s : State) (x : SchedE), s.schedOf e = some x → x.mode = sONCE → s.boot.porst = true →
    (x.action ≠ 7 ∨ s.asleep = false → s.schedDue x = true ∧ s.schedBehind e = false) →
    (x.action = 0 → s.boot.fwStarted = true → s.outboxOf srcTIME < 4 →
      Does (.eventPost e) s (fun t => ∃ lt, t.hamper.outbox = s.hamper.outbox ++
        [(srcTIME, ⟨⟨3, x.arg.toNat % 65536, x.arg.toNat / 65536⟩, srcTIME, BitVec.ofNat 32 e, lt⟩)]))
    ∧ (x.action = 1 → s.time.trgEnd.length = 2 →
      Does (.trgPulse e) s (fun t => ∃ fin, t.time.trgEnd.getD (x.arg.toNat % 2) none = some fin
        ∧ s.time.now + x.arg.toNat / 256 ≤ fin ∧ t.mem = s.mem))
    ∧ (x.action = 2 → x.arg.toNat < 4 → (s.regN rTIME_SLOT_GATE).testBit x.arg.toNat = true →
      Does (.slotFire e) s (fun t => x.arg.toNat ∈ t.lampTiming.armed ∧ ∀ k ∈ s.lampTiming.armed, k ∈ t.lampTiming.armed))
    ∧ (x.action = 3 → ∀ n, n < s.tiles → x.arg.toNat.testBit n = true → s.isF (fTG_SENSE_CFG_EN n) = false →
      s.getF (fTG_SENSE_CFG_CHUNK n) = 0 → Does (.sweepStart e) s (fun t => (t.hl n).oneSweep = true))
    ∧ (x.action = 4 → x.arg.toNat = 1 → s.isF fHK_ROUND_CFG_SCHED = true → s.hkOn = true → ∀ r : SensorIn,
      Does (.hkConvert e r) s (fun t => (∀ k v, k < 16 → r.supply[k]? = some v → t.regN (rHK_SUPPLY k) = v % 65536)
        ∧ t.getF (fTIME_SCHED_STATUS_RESULT e) = 1 ∧ t.schedOf e = none))
    ∧ (x.action = 5 → x.arg.toNat = 0 → s.timingBad ((s.stagedSet 7 false).set s.timing.lead) = 0 →
      Does (.framePhase e) s (fun t => t.lampTiming.staged = some (s.stagedSet 7 false) ∧ t.getF (fTG_TIMING_STATUS_STATE 0) = 1))
    ∧ (x.action = 6 → Clean s → ∀ n, n < 16 → s.getF (fBE_JOB_TRIG_SRC n) = 1 → s.getF (fBE_JOB_TRIG_SCHED_ENTRY n) = e.val →
      s.beState n = beIDLE → s.beGated = false → (s.eng n).next = none →
      Does (.beWake e) s (fun t => t.beState n = beRUN ∧ (t.eng n).jobSrc = 1 ∧ (t.eng n).jobArg = BitVec.ofNat 32 e))
    ∧ (x.action = 7 →
      (s.asleep = false →
        Does (.pwrWake e) s (fun t => t.getF (fTIME_SCHED_STATUS_RESULT e) = 1 ∧ t.schedOf e = none ∧ t.wakeDue = s.wakeDue))
      ∧ (s.asleep = true → s.wakePointCome x.target = true →
        Does (.pwrWake e) s (fun t => t = { s with wakeDue := if 3 ∈ s.wakeDue then s.wakeDue else s.wakeDue ++ [3] }))
      ∧ (s.asleep = true → s.wakePointCome x.target = false → Does (.pwrWake e) s (fun t => t = s)))

/-- TRG_PULSE_END, CAP_EDGE, CAP_TS_HI_READ (R319, R320): a pulse ends when its width has passed; an accepted edge is queued with its
lamp time, the 17th is lost and flagged; a read of TS_HI takes the oldest stamp. Where the spec leaves a point open, this follows the
model's choice in log 7. -/
def Obligations.TriggerAndCapture : Prop :=
  (∀ (p : Fin 2) (s : State) (fin : Nat), s.time.trgEnd.length = 2 → s.time.trgEnd.getD p none = some fin →
    (fin ≤ s.time.now → Does (.trgPulseEnd p) s (fun t => t.time.trgEnd.getD p none = none
      ∧ t = { s with time := { s.time with trgEnd := t.time.trgEnd } }))
    ∧ (s.time.now < fin → Does (.trgPulseEnd p) s (fun t => t = s)))
  ∧ (∀ (p : Fin 2) (rising : Bool) (s : State), s.time.capQ.length = 2 → s.time.capLast.length = 2 → s.capTakes p rising = true →
    let q := s.time.capQ.getD p []
    (q.length < 16 → Does (.capEdge p rising) s (fun t => t.time.capQ.getD p [] = q ++ [(rising, s.lampNs % 2 ^ 62)]
      ∧ t.regN (rTIME_CAP_DEPTH p) = q.length + 1 ∧ t.time.capLast.getD p none = some s.time.frc
      ∧ Quiet [rTIME_CAP_DEPTH p] { s with time := t.time } t))
    ∧ (16 ≤ q.length → Does (.capEdge p rising) s (fun t => t.time.capQ = s.time.capQ ∧ t.getF fTIME_STATUS_CAP_OVF = 1
      ∧ t.regN rTIME_CAP_OVF_COUNT = min (s.regN rTIME_CAP_OVF_COUNT + 1) 0xFFFF
      ∧ Quiet [rTIME_STATUS, rTIME_CAP_OVF_COUNT] { s with time := t.time } t)))
  ∧ (∀ (p : Fin 2) (rising : Bool) (s : State), s.capTakes p rising = false → Does (.capEdge p rising) s (fun t => t = s))
  ∧ (∀ (p : Fin 2) (s : State), s.boot.porst = false → Does (.capTsHiRead p) s (fun t => t = s))
  ∧ ∀ (p : Fin 2) (rising : Bool) (st : Nat) (q : List (Bool × Nat)) (s : State), s.time.capQ.length = 2 →
    s.boot.porst = true → s.time.capQ.getD p [] = (rising, st) :: q → st < 2 ^ 62 → q.length < 16 →
    Does (.capTsHiRead p) s (fun t => t.time.capQ.getD p [] = q ∧ t.regN (rTIME_CAP_DEPTH p) = q.length
      ∧ t.regN (rTIME_CAP_TS_LO p) = st % 2 ^ 32
      ∧ t.rdata.toNat = 2 ^ 31 + 2 ^ 30 * rising.toNat + st / 2 ^ 32 ∧ t.mem = s.mem
      ∧ ∀ off, off ≠ rTIME_CAP_DEPTH p → off ≠ rTIME_CAP_TS_LO p → t.reg off = s.reg off)

/-! ### OTP, loading and updates (R41 to R57) -/

/-- The OTP commands (R43, R44): accepted when the device is not BUSY, the condition of the command holds and, for a fuse, the
temperature allows it; BUSY until OTP_DONE. A BUSY device, a failed condition or the temperature leaves every fuse as it is. Where the
spec leaves a point open, this follows the model's choice in log 6, 71, 125 and 165. -/
def Obligations.OtpCommands : Prop :=
  (∀ (k : Fin 4) (s : State), s.boot.porst = true → s.isF fBSTREAM_OTP_STATUS_BUSY = false → s.otpTempOk = true →
    (nth none s.otp.keys k = none → Does (.keyProgram k) s (fun t =>
      t.otp = { s.otp with keys := s.otp.keys.set k (some s.otpData) } ∧ t.isF fBSTREAM_OTP_STATUS_BUSY = true
      ∧ Quiet [rBSTREAM_OTP_STATUS] { s with otp := t.otp } t))
    ∧ (s.revokeOk k = true → Does (.revoke k) s (fun t =>
      t.otp = { s.otp with revoked := s.otp.revoked.set k true } ∧ t.isF fBSTREAM_OTP_STATUS_BUSY = true
      ∧ Quiet [rBSTREAM_OTP_STATUS] { s with otp := t.otp } t))
    ∧ (s.bsState = bsRUNNING → Does .advance s (fun t =>
      t.otp = { s.otp with rollback := max s.otp.rollback (min 64 (s.regN rBSTREAM_SEC_VERSION)) }
      ∧ t.isF fBSTREAM_OTP_STATUS_BUSY = true ∧ Quiet [rBSTREAM_OTP_STATUS] { s with otp := t.otp } t))
    ∧ Does .wrapLock s (fun t => t.otp = { s.otp with wrapDisable := true } ∧ t.isF fBSTREAM_OTP_STATUS_BUSY = true
      ∧ t.isF fBSTREAM_OTP_STATUS_WRAP_DISABLE = true ∧ Quiet [rBSTREAM_OTP_STATUS] { s with otp := t.otp } t))
  ∧ (∀ s : State, s.boot.porst = true → s.isF fBSTREAM_OTP_STATUS_BUSY = false → s.bsState = bsWAIT_HOST → s.otp.wrapDisable = false →
    Does .wrap s (fun t => t.otp = { s.otp with wraps := s.otp.wraps + 1 } ∧ t.isF fBSTREAM_OTP_STATUS_BUSY = true
      ∧ (∀ k, k < 8 → t.reg (rBSTREAM_OTP_DATA k) = 0) ∧ t.mem = s.mem))
  ∧ (∀ (k : Fin 4) (s : State), s.isF fBSTREAM_OTP_STATUS_BUSY = true →
    (∀ c ∈ [Instr.keyProgram k, .revoke k, .advance, .wrap, .wrapLock], Does c s (fun t => t.otp = s.otp ∧ Quiet [] s t))
    ∧ Does .otpDone s (fun t => t.otp = s.otp ∧ t.isF fBSTREAM_OTP_STATUS_BUSY = false ∧ Quiet [rBSTREAM_OTP_STATUS] s t))
  ∧ ∀ (k : Fin 4) (s : State), s.isF fBSTREAM_OTP_STATUS_BUSY = false → s.otpTempOk = false →
    ∀ c ∈ [Instr.keyProgram k, .revoke k, .advance, .wrapLock], Does c s (fun t => t.otp = s.otp ∧ Quiet [rBSTREAM_OTP_STATUS] s t)

/-- STAGE_DATA and its timeout (R46, R48, R54, R57): bytes of a push while the device waits for one, staged in correction memory until
DRAM is ready; bytes of a package while it runs, ignored while an update is in progress. Where the spec leaves a point open, this follows
the model's choice in log 6, 68 and 69. -/
def Obligations.Staging : Prop :=
  (∀ (v : Word) (s : State), Clean s → s.boot.porst = true → s.bsState = bsWAIT_HOST ∨ s.bsState = bsFAILED →
    let a := s.regN rBSTREAM_STAGE_ADDR / 4 * 4
    Does (.stageData v) s (fun t => t.bsState = bsLOAD_HOST
      ∧ t.loader.push = tabPutAll (fun _ => 0#8) [] a (leBytes 4 v.toNat) ∧ t.loader.pushed = a + 4
      ∧ t.regN rBSTREAM_STAGE_ADDR = (a + 4) % 2 ^ 32
      ∧ (s.isF fTOP_START_STATUS_DRAM_READY = false → a < 0x800000 → t.bytes (corrBase + a) 4 = leBytes 4 v.toNat)
      ∧ (∀ x, s.isF fTOP_START_STATUS_DRAM_READY = true ∨ 0x800000 ≤ a ∨ x < corrBase + a ∨ corrBase + a + 4 ≤ x → t.byte x = s.byte x)
      ∧ Quiet [rBSTREAM_STATUS, rBSTREAM_STAGE_ADDR] { s with loader := t.loader, mem := t.mem } t))
  ∧ (∀ (v : Word) (s : State), s.boot.porst = true → s.bsState = bsRUNNING →
    s.updState = upVERIFYING ∨ s.updState = upINSTALLING ∨ s.updState = upARMED → Does (.stageData v) s (fun t =>
      t.getF fBSTREAM_UPDATE_STATUS_ERR_CODE = errBusy ∧ t.updState = s.updState ∧ Quiet [rBSTREAM_UPDATE_STATUS] s t))
  ∧ (∀ (v : Word) (s : State), Clean s → s.boot.porst = true → s.bsState = bsRUNNING → s.updState = upRECEIVING →
    let a := s.regN rBSTREAM_STAGE_ADDR / 4 * 4
    a + 4 ≤ s.stageSize → s.inDram (s.stageBase + a) 4 = true →
    Does (.stageData v) s (fun t => t.updState = upRECEIVING ∧ t.bytes (s.stageBase + a) 4 = leBytes 4 v.toNat
      ∧ (∀ x, x < s.stageBase + a ∨ s.stageBase + a + 4 ≤ x → t.byte x = s.byte x)
      ∧ t.regN rBSTREAM_STAGE_ADDR = (a + 4) % 2 ^ 32))
  ∧ (∀ s : State, s.bsState = bsLOAD_HOST → Does .stageTimeout s (fun t => t.bsState = bsWAIT_HOST
      ∧ t.loader = { s.loader with push := [], pushed := 0 } ∧ Quiet [rBSTREAM_STATUS, rBSTREAM_ERROR] { s with loader := t.loader } t))
  ∧ ∀ s : State, s.bsState = bsRUNNING → s.updState = upRECEIVING → Does .stageTimeout s (fun t =>
      t.updState = upREFUSED ∧ t.getF fBSTREAM_UPDATE_STATUS_ERR_CODE = errTimeout ∧ t.loader = { s.loader with pkg := none })

/-- The update machine (R53 to R57): VERIFY, its completion, COMMIT, the copy, CANCEL. Where the spec leaves a point open, this follows
the model's choice in log 6, 69 and 126. -/
def Obligations.UpdateMachine : Prop :=
  (∀ s : State, s.boot.porst = true → s.bsState = bsRUNNING → s.updState = upRECEIVING ∨ s.updState = upVERIFIED →
    Does .updateVerify s (fun t => t.updState = upVERIFYING ∧ Quiet [rBSTREAM_UPDATE_STATUS, rBSTREAM_STATUS] s t))
  ∧ (∀ s : State, s.boot.porst = true → s.updState = upVERIFYING ∨ s.updState = upINSTALLING ∨ s.updState = upARMED →
    Does .updateVerify s (fun t => t.updState = s.updState ∧ t.getF fBSTREAM_UPDATE_STATUS_ERR_CODE = errBusy
      ∧ Quiet [rBSTREAM_UPDATE_STATUS] s t))
  ∧ (∀ (cs : List Content) (s : State), Clean s → s.updState = upVERIFYING →
    let img := readImage (s.bytes s.stageBase (min s.stageSize (s.loadN (s.stageBase + 8) 4))) cs
    Does (.updateVerified cs) s (fun t => match checkPackage s img with
      | none => t.updState = upVERIFIED ∧ t.loader = { s.loader with pkg := some img }
      | some code => t.updState = upREFUSED ∧ t.loader = { s.loader with pkg := none }
        ∧ t.getF fBSTREAM_UPDATE_STATUS_ERR_CODE = code % 2 ^ fBSTREAM_UPDATE_STATUS_ERR_CODE.w))
  ∧ (∀ s : State, s.boot.porst = true → s.updState = upVERIFIED → Does .updateCommit s (fun t => t.updState = upINSTALLING
      ∧ t.isF fBSTREAM_STATUS_UPDATE_PENDING = true ∧ Quiet [rBSTREAM_UPDATE_STATUS, rBSTREAM_STATUS] s t))
  ∧ (∀ s : State, s.updState = upINSTALLING → Does .updateCopyDone s (fun t => t.updState = upARMED
      ∧ t.loader = { s.loader with armedAt := s.time.now }
      ∧ Quiet [rBSTREAM_UPDATE_STATUS, rBSTREAM_STATUS] { s with loader := t.loader } t))
  ∧ (∀ s : State, s.updState = upRECEIVING ∨ s.updState = upVERIFIED ∨ s.updState = upINSTALLING ∨ s.updState = upARMED →
    Does .updateCancel s (fun t => t.updState = upCANCELLED ∧ t.loader = { s.loader with pkg := none }
      ∧ t.isF fBSTREAM_STATUS_UPDATE_PENDING = false
      ∧ Quiet [rBSTREAM_UPDATE_STATUS, rBSTREAM_STATUS] { s with loader := t.loader } t))
  ∧ ∀ s : State, s.updState = upVERIFYING → Does .updateCancel s (fun t => t.updState = upVERIFYING
      ∧ t.getF fBSTREAM_UPDATE_STATUS_ERR_CODE = errBusy ∧ Quiet [rBSTREAM_UPDATE_STATUS] s t)

/-- A complete push, and phases 2 and 3 (R45 to R50): a bit-stream that fails a check is refused with its code, one that passes is
applied; phase 2 sets the lock. Where the spec leaves a point open, this follows the model's choice in log 9, 57, 68, 145 and 166. -/
def Obligations.LoadPhases : Prop :=
  (∀ (cs : List Content) (s : State), s.bsState = bsLOAD_HOST → s.loader.failed = false →
    let bs := tabRange (fun _ => 0#8) s.loader.push 0 s.loader.pushed
    Does (.hostPushLoad cs) s (fun t => t.loader.push = [] ∧ match checkPhase0 s bs with
      | some code => t.bsState = bsWAIT_HOST ∧ t.regN rBSTREAM_ERROR = (65536 * 0xFF + code) % 2 ^ 32 ∧ t.loader.phase = s.loader.phase
      | none => match checkPhase s.part {} (readImage bs cs) 1 with
        | some r => t.bsState = bsWAIT_HOST ∧ t.regN rBSTREAM_ERROR = (65536 * r.2 + r.1) % 2 ^ 32 ∧ t.loader.phase = s.loader.phase
        | none => t.bsState = bsVERIFY_ENV ∧ t.boot.phase = .waitPmic ∧ t.loader.phase = 1 ∧ t.loader.img = readImage bs cs))
  ∧ (∀ s : State, s.loader.phase ≠ 1 ∨ s.bsState ≠ bsVERIFY_ENV ∨ s.boot.phase ≠ .started ∨ s.isF fTOP_START_STATUS_DRAM_READY = false →
    Does .loadPhase2 s (fun t => t = s))
  ∧ ∀ s : State, s.loader.phase = 1 → s.bsState = bsVERIFY_ENV → s.boot.phase = .started → s.isF fTOP_START_STATUS_DRAM_READY = true →
    Does .loadPhase2 s (fun t => match checkPhase s.part s.loader.cfg s.loader.img 2 with
      | some r => t.bsState = bsFAILED ∧ t.loader.failed = true ∧ t.regN rBSTREAM_ERROR = (65536 * r.2 + r.1) % 2 ^ 32
        ∧ .load ∈ t.faultN ∧ t.isF fBSTREAM_STATUS_LOCKED = s.isF fBSTREAM_STATUS_LOCKED
      | none => match checkPhase s.part s.applyPhase2.loader.cfg s.loader.img 3 with
        | some r => t.bsState = bsFAILED ∧ t.loader.failed = true ∧ t.loader.phase = 2 ∧ t.isF fBSTREAM_STATUS_LOCKED = true
          ∧ t.regN rBSTREAM_ERROR = (65536 * r.2 + r.1) % 2 ^ 32
        | none => t.bsState = bsRUNNING ∧ t.isF fTOP_START_STATUS_RUNTIME_DONE = true ∧ .load ∉ t.faultN)

/-! ### Start-up (R58 to R75) -/

/-- Resets and clocks (R58 to R61, R64): WAKE_N, PORST_N, PG_TIMEOUT, FIO_CHECK, which releases internal reset. Where the spec leaves a
point open, this follows the model's choice in log 55, 56, 60 and 157. -/
def Obligations.StartReset : Prop :=
  (∀ s : State, s.boot.aon = true → s.boot.phase = .off →
    (s.getF fPWR_PWR_STATUS_CURRENT ≠ 3 → Does .wakeN s (fun t => t.boot.phase = .waitPg ∧ t.boot.pmicEn = true ∧ t.boot.t0 = s.time.now
      ∧ t.getF fTOP_RESET_CAUSE_CAUSE = 0 ∧ t.regN rPWR_WAKE_SRC = 0x41 ∧ t.mem = [] ∧ t.otp = s.otp ∧ t.store = s.store
      ∧ t.reg rPWR_WAKE_FAIL_CAUSE = s.reg rPWR_WAKE_FAIL_CAUSE))
    ∧ (s.getF fPWR_PWR_STATUS_CURRENT = 3 → Does .wakeN s (fun t => t.boot.phase = .waitPg ∧ t.boot.warm = s.pwr.keep
      ∧ t.getF fTOP_RESET_CAUSE_CAUSE = 1 ∧ t.regN rPWR_WAKE_SRC = 0x31 ∧ t.mem = s.mem)))
  ∧ (∀ s : State, s.boot.aon = true → s.boot.phase ≠ .off →
    ¬(s.getF fPWR_PWR_STATUS_CURRENT = 0 ∧ s.getF fPWR_PWR_STATUS_TARGET = 0xF) →
    Does .wakeN s (fun t => t = { s with wakeDue := if 1 ∈ s.wakeDue then s.wakeDue else s.wakeDue ++ [1] }))
  ∧ (∀ s : State, s.boot.phase = .waitPg → Does .porstNRise s (fun t => t.boot.phase = .waitFio ∧ t.boot.porst = s.boot.porst
      ∧ t.isF fTOP_START_STATUS_BOOT_RAILS = true ∧ Quiet [rTOP_START_STATUS] { s with boot := t.boot } t))
  ∧ (∀ s : State, s.boot.porst = true ∨ s.boot.phase = .waitFio → Does .porstNLow s (fun t => t.boot.phase = .waitPg ∧ t.boot.porst = false
      ∧ t.boot.t0 = s.time.now ∧ t.getF fTOP_RESET_CAUSE_CAUSE = 2 ∧ t.otp = s.otp
      ∧ (∀ a, retBase ≤ a → a < retBase + retSize → t.byte a = s.byte a)
      ∧ (∀ a, a < retBase ∨ retBase + retSize ≤ a → t.byte a = 0)))
  ∧ (∀ s : State, s.boot.phase = .waitPg →
    (s.boot.pgTries < 3 → Does .pgTimeout s (fun t =>
      t.boot = { s.boot with pgTries := s.boot.pgTries + 1, pmicEn := false, pmicAt := some (s.time.now + ticksMs 10) }
      ∧ Quiet [rTOP_RESET_CAUSE] { s with boot := t.boot } t))
    ∧ (3 ≤ s.boot.pgTries → Does .pgTimeout s (fun t => t.boot.phase = .off ∧ t.boot.pmicEn = false ∧ .pg ∈ t.faultN
      ∧ t.getF fPWR_PWR_STATUS_CURRENT = 4 ∧ t.regN rPWR_WAKE_FAIL_CAUSE % 256 = 1 ∧ t.mem = [])))
  ∧ ∀ s : State, s.boot.phase = .waitFio →
    Does (.fioCheck true) s (fun t => t.boot.phase = .waitRefclk ∧ t.boot.porst = true ∧ t.isF fTOP_START_STATUS_FIO_OK = true
      ∧ t.isF fSAFETY_STATUS_SC_ON_FIO = true ∧ t.mem = s.mem)
    ∧ (s.boot.fioTries < 3 → Does (.fioCheck false) s (fun t => t.boot = { s.boot with fioTries := s.boot.fioTries + 1 }
      ∧ Quiet [rTOP_RESET_CAUSE] { s with boot := t.boot } t))
    ∧ (3 ≤ s.boot.fioTries → Does (.fioCheck false) s (fun t => t.boot.phase = .off ∧ .fio ∈ t.faultN
      ∧ t.getF fPWR_PWR_STATUS_CURRENT = 4 ∧ t.regN rPWR_WAKE_FAIL_CAUSE % 256 = 2))

/-- The boot ROM and the rails (R45, R49, R62 to R65, R69): REFCLK_CHECK, REFCLK_RECHECK, PMIC_IDENTITY_READ (again after a push with the
rails on: R48), RAIL_POWER_GOOD, RAIL_FAIL, PLL_LOCK (the last one takes up the data plane of a warm wake: R64, R73), PLL_LOCK_TIMEOUT.
Where the spec leaves a point open, this follows the model's choice in log 57, 58, 65, 140 and 160. -/
def Obligations.StartClocksAndRails : Prop :=
  (∀ (n : BitVec 16) (s : State), s.boot.phase = .waitRefclk → s.boot.warm = true →
    Does (.refclkCheck n) s (fun t => t.boot.phase = .waitPmic
      ∧ (1800 ≤ n.toNat → n.toNat ≤ 2200 → t.boot.refclk = true ∧ t.isF fTOP_START_STATUS_REFCLK_OK = true)
      ∧ (n.toNat < 1800 ∨ 2200 < n.toNat → t.isF fTOP_START_STATUS_DEGRADED_CLK = true ∧ .degraded ∈ t.faultN)))
  ∧ (∀ (n : BitVec 16) (a b : Nat) (s : State), s.boot.phase = .waitRefclk → s.boot.warm = false →
    checkPhase0 s s.loader.flashA.bytes = some a → checkPhase0 s s.loader.flashB.bytes = some b →
    Does (.refclkCheck n) s (fun t => t.boot.phase = .waitHost ∧ t.bsState = bsWAIT_HOST ∧ .flash ∈ t.faultN
      ∧ t.regN rBSTREAM_ERROR = (65536 * 0xFF + b) % 2 ^ 32))
  ∧ (∀ (n : BitVec 16) (s : State), s.isF fTOP_START_STATUS_DEGRADED_CLK = true → 1800 ≤ n.toNat → n.toNat ≤ 2200 →
    Does (.refclkRecheck n) s (fun t => t.boot.refclk = true ∧ t.isF fTOP_START_STATUS_DEGRADED_CLK = false
      ∧ t.isF fTOP_START_STATUS_REFCLK_OK = true ∧ .degraded ∉ t.faultN
      ∧ Quiet [rTOP_START_STATUS] { s with boot := { s.boot with refclk := true }, faultN := t.faultN } t))
  ∧ (∀ (id : Nat) (s : State), s.boot.phase = .waitPmic → s.boot.warm = false →
    (id = s.loader.cfg.bd.pmicId → s.isF fTOP_START_STATUS_RAILS_DONE = false → s.loader.cfg.bd.rails ≠ [] →
      Does (.pmicIdentityRead id) s (fun t =>
        t = { s with boot := { s.boot with phase := .rails, railStep := 0, railsOn := [] } }))
    ∧ (id = s.loader.cfg.bd.pmicId → s.isF fTOP_START_STATUS_RAILS_DONE = true →
      let short := s.isF fTOP_START_STATUS_DRAM_READY = true ∧ 2 * min s.boot.dramMib.1 s.boot.dramMib.2 < s.loader.cfg.bd.dramMiB
      Does (.pmicIdentityRead id) s (fun t =>
        (¬short → t = { s with boot := { s.boot with phase := .started } })
        ∧ (short → t.bsState = bsFAILED ∧ .env ∈ t.faultN ∧ t.loader = { s.loader with failed := true } ∧ t.mem = s.mem)))
    ∧ (id ≠ s.loader.cfg.bd.pmicId → Does (.pmicIdentityRead id) s (fun t => t.boot.phase = .halted ∧ t.bsState = bsFAILED
      ∧ .env ∈ t.faultN ∧ t.loader.failed = true ∧ t.mem = s.mem)))
  ∧ (∀ (s : State) (x : RailStep), s.boot.phase = .rails → s.loader.cfg.bd.rails[s.boot.railStep]? = some x →
    (s.boot.railStep + 1 < s.loader.cfg.bd.rails.length → Does .railPowerGood s (fun t =>
      t = { s with boot := { s.boot with railStep := s.boot.railStep + 1, railsOn := s.boot.railsOn ++ [x.rail] } }))
    ∧ (s.boot.railStep + 1 = s.loader.cfg.bd.rails.length → s.boot.pll.getD 4 false = false → Does .railPowerGood s (fun t =>
      t.boot.phase = .started ∧ t.boot.fwStarted = true ∧ t.boot.held = [] ∧ t.isF fTOP_START_STATUS_RAILS_DONE = true ∧ t.mem = s.mem)))
  ∧ (∀ s : State, s.boot.phase = .rails → Does .railFail s (fun t => t.boot.phase = .halted ∧ t.boot.railsOn = [] ∧ t.bsState = bsFAILED
      ∧ .rail ∈ t.faultN ∧ Quiet [rBSTREAM_STATUS] { s with boot := t.boot, faultN := t.faultN } t))
  ∧ (∀ (p : Fin 6) (s : State), s.boot.refclk = true → s.boot.pllTries.getD p 0 < 2 → s.boot.pll.length = 6 →
    p ≠ 4 ∨ s.boot.fwStarted = false → p ≠ 3 ∨ s.time.frcRun = true ∨ s.getF fTOP_RESET_CAUSE_CAUSE ≠ 1 → s.boot.warmDue = false →
    Does (.pllLock p) s (fun t => t.boot.pll.getD p false = true ∧ (∀ q, q ≠ p.val → t.boot.pll.getD q false = s.boot.pll.getD q false)
      ∧ (p = 3 → t.time.frcRun = true) ∧ (p = 0 → t.isF fSAFETY_STATUS_SC_ON_FIO = false) ∧ t.time.frc = s.time.frc
      ∧ Quiet [rSAFETY_STATUS] { s with boot := t.boot, time := t.time } t))
  ∧ (∀ p ∈ ([0, 1, 2, 5] : List (Fin 6)), ∀ (v : Nat) (s : State), s.boot.refclk = true → s.boot.pllTries.getD p 0 < 2 →
    s.boot.pll.length = 6 → s.boot.warmDue = true → s.boot.fwStarted = true → s.boot.scRun = true → s.boot.ttRun = true →
    (∀ q, q ∈ [0, 1, 2, 3, 5] → q ≠ p.val → s.boot.pll.getD q false = true) → s.boot.resume = some v → v ≤ bsFAILED →
    (∀ k, k < 4 → s.boot.mapOk.getD k false = false ∧ s.tileUp k = false) → Does (.pllLock p) s (fun t =>
      t.isF fTOP_START_STATUS_DRAM_READY = true ∧ t.bsState = v ∧ t.boot.warmDue = false ∧ t.pwr.selfRefresh = false ∧ t.mem = s.mem))
  ∧ ∀ (p : Fin 6) (s : State), s.boot.refclk = true → s.boot.pll.getD p false = false → s.boot.pllTries.length = 6 →
    (s.boot.pllTries.getD p 0 = 0 → Does (.pllLockTimeout p) s (fun t =>
      t = { s with boot := { s.boot with pllTries := s.boot.pllTries.set p 1 } }))
    ∧ (s.boot.pllTries.getD p 0 = 1 → s.tgsOn = [] → s.pwrCur ≠ pwSLEEP → Does (.pllLockTimeout p) s (fun t =>
      .pll ∈ t.faultN ∧ t.boot.pllTries.getD p 0 = 2 ∧ Quiet [] { s with boot := t.boot, faultN := t.faultN } t))

/-- The safety tests of a start (R66, R67: no supply switch closes while a tile's tests are pending, and each channel then closes only
its own, after its own self-test) and the fallback beam: SELFTEST_DONE, STARTUP_SWITCH_TEST, FB_EN_ASSERT, FB_LATE, FULL_BEAM_LATE. Where
the spec leaves a point open, this follows the model's choice in log 58, 114 and 141. -/
def Obligations.StartTests : Prop :=
  (∀ (tt : Bool) (s : State), s.boot.fwStarted = true → s.boot.warmDue = false →
    Does (.selftestDone tt true) s (fun t => (if tt then t.boot.ttPass else t.boot.scPass) = true
      ∧ t.isF fTOP_START_STATUS_SELFTEST_PASS = (if tt then s.boot.scPass else s.boot.ttPass)
      ∧ t.isF (if tt then fSAFETY_STATUS_TT_LOST else fSAFETY_STATUS_SC_LOST) = false ∧ t.faultN = s.faultN ∧ t.mem = s.mem)
    ∧ Does (.selftestDone tt false) s (fun t => (if tt then t.boot.ttPass else t.boot.scPass) = false
      ∧ t.isF fTOP_START_STATUS_SELFTEST_PASS = false ∧ (if tt then FaultCause.selftestTT else .selftestSC) ∈ t.faultN
      ∧ t.isF ⟨if tt then rSAFETY_FAULT_TT else rSAFETY_FAULT_SC, 14, 1⟩ = true ∧ t.mem = s.mem))
  ∧ (∀ (n : Fin 4) (s : State), s.swTestMay n = true → s.boot.swStep.length = 4 → s.boot.swFail.length = 4 →
    (∀ a b, s.swNext n = 0 ∧ a = false ∧ b = false ∨ (s.swNext n = 1 ∨ s.swNext n = 2) ∧ a = true ∧ b = false
        ∨ s.swNext n = 3 ∧ a = false →
      Does (.startupSwitchTest n a b) s (fun t => t.boot.swStep.getD n 0 = s.swNext n + 1 ∧ t.boot.swFail = s.boot.swFail
        ∧ t.mem = s.mem ∧ t.regs = s.regs
        ∧ ((∃ m, m < 4 ∧ m ≠ n ∧ s.swPending m = true) → ∀ m, (t.safeT m).hs = (s.safeT m).hs ∧ (t.safeT m).ls = (s.safeT m).ls)))
    ∧ (s.swNext n = 3 → s.directTile n = false ∨ s.boot.scPass = false → s.boot.swDue.length = 4 → (∀ m, m < 4 → m ≠ n → s.swPending m = false) →
      ∀ b, Does (.startupSwitchTest n false b) s (fun t => (t.safeT n).hs = s.boot.scPass ∧ (t.safeT n).ls = true)))
  ∧ (∀ (n : Fin 4) (s : State), s.boot.ttPass = true → s.swNext n = 4 → s.boot.swFail.getD n false = false →
    s.directTile n = false → (s.safeT n).hs = true → (s.safeT n).ls = true → (s.safeT n).hsFbT = true → (s.safeT n).lsFbT = true →
    (s.portOf n).fbPin = false → s.boot.handover.getD n 0 = 0 → (s.getF fTOP_START_STATUS_TILES_FULL).testBit n = false →
    s.ssOf n < 2 → (s.safeT n).retest = false →
    Does (.fbEnAssert n) s (fun t => (t.portOf n).fbPin = true ∧ t.mem = s.mem
      ∧ Quiet [rTOP_START_STATUS, rTOP_START_TIMES] { s with port := t.port } t))
  ∧ ∀ s : State, s.boot.porst = true → s.boot.warm = false → s.boot.fwStarted = true → s.outboxOf srcMC0 < 4 →
    (450 < s.getF fTOP_START_TIMES_FB_TIME → Does .fbLate s (fun t => (∃ e, t.hamper.outbox = s.hamper.outbox ++ [(srcMC0, e)]
      ∧ e.kind = evBOOT_FB_LATE) ∧ Quiet [] s t))
    ∧ (s.getF fTOP_START_TIMES_FULL_TIME = 0xFFFF → ∀ n, (List.range s.tiles).find? s.inFallback = some n →
      Does .fullBeamLate s (fun t => (∃ lt, t.hamper.outbox = s.hamper.outbox ++
        [(srcMC0, ⟨evBOOT_FULL_BEAM_LATE, srcMC0, BitVec.ofNat 32 n, lt⟩)]) ∧ Quiet [] s t))

/-- DRAM, calibration maps and the handover (R49, R69 to R73): DRAM_TRAINED, CAL_MAP_READ, HANDOVER_START. Where the spec leaves a point
open, this follows the model's choice in log 59, 140, 142 and 160. -/
def Obligations.StartDram : Prop :=
  (∀ (fail : BitVec 2) (mib : Nat × Nat) (s : State), s.boot.fwStarted = true → s.boot.refclk = true →
    s.pllsUp = true → s.isF fTOP_START_STATUS_DRAM_READY = false → s.bsState = bsVERIFY_ENV →
    (fail ≠ 0 → s.boot.dramTries = 0 → Does (.dramTrained fail mib) s (fun t => t = { s with boot := { s.boot with dramTries := 1 } }))
    ∧ (fail ≠ 0 → s.boot.dramTries ≠ 0 → Does (.dramTrained fail mib) s (fun t => t.bsState = bsFAILED ∧ .dram ∈ t.faultN
      ∧ Quiet [rBSTREAM_STATUS] { s with faultN := t.faultN } t))
    ∧ (fail = 0 → 2 * min mib.1 mib.2 < s.loader.cfg.bd.dramMiB → Does (.dramTrained fail mib) s (fun t => t.bsState = bsFAILED ∧ .env ∈ t.faultN
      ∧ t.loader = { s.loader with failed := true } ∧ t.mem = s.mem))
    ∧ (fail = 0 → s.loader.cfg.bd.dramMiB ≤ 2 * min mib.1 mib.2 → (∀ n, n < 4 → s.tileUp n = false) → Does (.dramTrained fail mib) s (fun t =>
      t.isF fTOP_START_STATUS_DRAM_READY = true
      ∧ Quiet [rTOP_START_STATUS] { s with boot := { s.boot with dramMib := mib } } t)))
  ∧ (∀ (n : Fin 4) (c : Caps) (s : State), Clean s → (s.portOf n).caps = some c → (s.portOf n).mapRead = true →
    s.isF fTOP_START_STATUS_DRAM_READY = true → s.boot.mapFail.getD n false = false → (s.mapBytes n c.mapSize).2 = s →
    (s.mapBytes n c.mapSize).1.2 = false →
    (crc32c (s.mapBytes n c.mapSize).1.1 = c.mapCrc → Does (.calMapRead n) s (fun t =>
      let r := (s.takeLife n).fillAll n
      (r.1 = true → t.boot.mapOk = r.2.boot.mapOk.set n true ∧ (t.portOf n).mapRead = false ∧ (t.portOf n).selStage = 0)
      ∧ (r.1 = false → t.boot.mapTries = r.2.boot.mapTries.set n (r.2.boot.mapTries.getD n 0 + 1))))
    ∧ (crc32c (s.mapBytes n c.mapSize).1.1 ≠ c.mapCrc → s.boot.mapTries.getD n 0 < 2 → s.boot.mapTries.length = 4 →
      Does (.calMapRead n) s (fun t => t.boot.mapTries.getD n 0 = s.boot.mapTries.getD n 0 + 1 ∧ t.boot.mapOk = s.boot.mapOk
        ∧ (t.portOf n).mapRead = false ∧ t.mem = s.mem)))
  ∧ ∀ (n : Fin 4) (s : State), s.tileReady n = true → s.directTile n = false → s.boot.handover.length = 4 →
    Does (.handoverStart n) s (fun t => t.boot.handover.getD n 0 = 1 ∧ t.mem = s.mem)

/-! ### Power states (R400 to R414) -/

/-- Requests in RUN (R401, R402, R413): accepted, the state becomes the target and the switches open (but for IDLE); refused, the reason
is shown and nothing else happens; in a transition they wait in the pending slot. Where the spec leaves a point open, this follows the
model's choice in log 63. -/
def Obligations.PowerRequests : Prop :=
  ∀ (m : BitVec 4) (keep : Bool) (s : State), Takes s rPWR_PWR_REQ → s.boot.porst = true →
    s.bsState = bsRUNNING ∨ s.bsState = bsFAILED → s.pwrCur = pwRUN →
    (s.pwrTarget = pwNONE → Does (.pwrReqRun m keep) s (fun t =>
      t.getF fPWR_PWR_STATUS_RESULT = rsSAME ∧ t.getF fPWR_PWR_STATUS_REASON = 0 ∧ Quiet [rPWR_PWR_STATUS] s t))
    ∧ (s.pwrTarget = pwNONE → s.pwrReason pwIDLE = 0 → Does (.pwrReqIdle m keep) s (fun t =>
      t.pwrTarget = pwIDLE ∧ t.pwr.tiles = m.toNat ∧ t.pwr.wake = none ∧ t.wakeDue = [] ∧ Quiet [rPWR_PWR_STATUS] { s with pwr := t.pwr } t))
    ∧ (∀ p ∈ ([(.pwrReqSleep, pwSLEEP), (.pwrReqDeepSleep, pwDEEP), (.pwrReqOff, pwOFF)] : List ((BitVec 4 → Bool → Instr) × Nat)),
      (s.pwrTarget = pwNONE → s.pwrReason p.2 = 0 → Does (p.1 m keep) s (fun t =>
        t.pwrTarget = p.2 ∧ t.pwrPhase = 2 ∧ t.pwr.tiles = m.toNat ∧ t.pwr.keep = keep
        ∧ ∀ n, n < 4 → (t.safeT n).hs = false ∧ (t.safeT n).ls = false))
      ∧ (s.pwrTarget = pwNONE → s.pwrReason p.2 ≠ 0 → Does (p.1 m keep) s (fun t => t.pwrTarget = pwNONE ∧ t.pwrCur = pwRUN
        ∧ t.getF fPWR_PWR_STATUS_RESULT = rsREFUSED ∧ t.getF fPWR_PWR_STATUS_REASON = s.pwrReason p.2
        ∧ t.isF fPWR_PWR_FLAGS_REFUSED = true ∧ Quiet [rPWR_PWR_STATUS, rPWR_PWR_FLAGS, rPWR_REFUSED_COUNT] s t))
      ∧ (s.pwrTarget ≠ pwNONE → s.getF fPWR_PWR_STATUS_PENDING = pwNONE → Does (p.1 m keep) s (fun t =>
        t.getF fPWR_PWR_STATUS_PENDING = p.2 ∧ t.pwr = { s.pwr with pendTiles := m.toNat, pendKeep := keep }
        ∧ t.pwrTarget = s.pwrTarget ∧ Quiet [rPWR_PWR_STATUS] { s with pwr := t.pwr } t)))
    ∧ (s.pwrTarget = pwNONE → s.nextKnown = none → s.pwrReason pwDEEP = 0 → s.isF fPWR_PWR_CFG_AUTO_DEEP = true →
      Does (.pwrReqAuto m keep) s (fun t => t.pwrTarget = pwDEEP ∧ t.pwrPhase = 2 ∧ t.regN rPWR_AUTO_CHOICE = pwDEEP
        ∧ t.regN rPWR_NEXT_EVENT = 0xFFFFFFFF ∧ t.pwr.keep = true))
    ∧ (s.pwrTarget = pwNONE → (∀ x ∈ [pwDEEP, pwSLEEP, pwIDLE], s.autoFits x m.toNat s.nextKnown = false) →
      Does (.pwrReqAuto m keep) s (fun t => t.pwrTarget = pwNONE ∧ t.regN rPWR_AUTO_CHOICE = pwRUN
        ∧ t.getF fPWR_PWR_STATUS_RESULT = rsSAME ∧ Quiet [rPWR_PWR_STATUS, rPWR_AUTO_CHOICE, rPWR_NEXT_EVENT] s t))
    ∧ (s.pwrTarget = pwSLEEP → Does (.pwrReqRun m keep) s (fun t => t.pwr = { s.pwr with wake := some (s.pwr.wake.getD 4) }
        ∧ t = { s with pwr := t.pwr }))

/-- The steps of an entry (R403, R404): the end of step 2 asks SC for consent, a grant goes on with step 4, a refusal or no answer ends
it with VETO, a wake event noted by an abort point with ABORTED; SLEEP, OFF and IDLE are reached. Where the spec leaves a point open,
this follows the model's choice in log 63 and 64. -/
def Obligations.PowerEntry : Prop :=
  (∀ s : State, s.pwrPhase = 2 → s.getF fPWR_PWR_STATUS_PENDING = pwNONE → Does .entryStepDone s (fun t => t.pwrPhase = 3
    ∧ t.safe.consent = some s.time.now ∧ t.pwrTarget = s.pwrTarget ∧ Quiet [rPWR_PWR_STATUS] { s with safe := t.safe } t))
  ∧ (∀ s : State, s.pwrPhase = 3 → s.safe.consent ≠ none → s.powerGrant = true → s.pwr.wake = none → s.wakeDue = [] →
    s.getF fPWR_PWR_STATUS_PENDING = pwNONE → (∀ n, n < 4 → s.zState n = zOFF ∧ s.crcJob n = none) → s.updState = 0 →
    Does .scConsent s (fun t => t.pwrPhase = 4 ∧ t.safe.consent = none ∧ t.pwr.ports = [] ∧ t.pwrTarget = s.pwrTarget ∧ t.mem = s.mem))
  ∧ (∀ s : State, s.pwrPhase = 3 → s.safe.consent ≠ none → s.getF fPWR_PWR_STATUS_PENDING = pwNONE → s.pwr.ports = [] →
    ∀ c, c = Instr.scConsent ∧ s.powerGrant = false ∨ c = .consentTimeout → Does c s (fun t =>
      t.pwrCur = pwRUN ∧ t.pwrTarget = pwNONE ∧ t.pwrPhase = 0 ∧ t.getF fPWR_PWR_STATUS_RESULT = rsVETO
      ∧ t.isF fPWR_PWR_FLAGS_VETO = true ∧ t.safe.consent = none ∧ t.mem = s.mem))
  ∧ (∀ s : State, s.pwrPhase = 4 → s.pwr.wake ≠ none ∧ s.wakeDue = [] ∨ s.pwrTarget = pwSLEEP ∧ s.wakeDue = [1] → s.pwr.ports = [] → s.getF fPWR_PWR_STATUS_PENDING = pwNONE →
    Does .entryStepDone s (fun t => t.pwrCur = pwRUN ∧ t.pwrTarget = pwNONE ∧ t.getF fPWR_PWR_STATUS_RESULT = rsABORTED
      ∧ t.isF fPWR_PWR_FLAGS_WAKE_ABORT = true ∧ t.pwr.wake = none ∧ t.mem = s.mem))
  ∧ (∀ s : State, s.pwrPhase = 4 → s.pwrTarget = pwSLEEP → s.pwr.wake = none → s.wakeDue = [] → s.getF fPWR_PWR_STATUS_PENDING = pwNONE →
    Does .entryStepDone s (fun t => t.pwrPhase = 5 ∧ t.pwr.selfRefresh = true ∧ t.mem = s.mem))
  ∧ (∀ s : State, s.pwrPhase = 4 → s.pwrTarget = pwOFF → s.pwr.wake = none → s.wakeDue = [] → s.getF fPWR_PWR_STATUS_PENDING = pwNONE →
    Does .entryStepDone s (fun t => t.pwrPhase = 5 ∧ t.pwr.dramOn = false ∧ (∀ a, a < corrBase → t.byte a = 0)
      ∧ ∀ a, corrBase ≤ a → t.byte a = s.byte a))
  ∧ (∀ s : State, s.pwrPhase = 5 → s.pwrTarget = pwSLEEP → s.pwr.wake = none → s.wakeDue = [] → s.getF fPWR_PWR_STATUS_PENDING = pwNONE →
    Does .entryStepDone s (fun t => t.pwrCur = pwSLEEP ∧ t.pwrTarget = pwNONE ∧ t.pwrPhase = 0
      ∧ t.getF fPWR_PWR_STATUS_RESULT = rsDONE ∧ Quiet [rPWR_PWR_STATUS] { s with be := t.be, pwr := t.pwr } t))
  ∧ (∀ s : State, s.pwrPhase = 7 → s.pwrTarget = pwOFF → s.pwr.wake = none → s.wakeDue = [] → Does .entryStepDone s (fun t =>
    t.pwrCur = pwOFF ∧ t.boot.phase = .off ∧ t.mem = [] ∧ t.otp = s.otp ∧ t.store = s.store))
  ∧ ∀ s : State, s.pwrTarget = pwIDLE → (∀ n, n < 16 → s.beState n = beIDLE ∨ s.beState n = beFAULTED ∨ s.beState n = beOFF) →
    s.pwr.wake = none → s.wakeDue = [] → s.getF fPWR_PWR_STATUS_PENDING = pwNONE →
    Does .idleEnter s (fun t => t.pwrCur = pwIDLE ∧ t.pwrTarget = pwNONE ∧ t.getF fPWR_PWR_STATUS_RESULT = rsDONE
      ∧ Quiet [rPWR_PWR_STATUS] { s with pwr := t.pwr } t)

/-- Wakes (R64, R73, R406 to R411): SLEEP_EXIT ends in RUN with its PLLs locked; AON_WAKE_TIMER starts the device from DEEP_SLEEP;
DEEP_SLEEP_WAKE with a good retention image writes its entries back and starts the firmware, the data plane waiting for the self-tests
and the PLLs, in VERIFY_ENV where REFCLK is missing, and with a bad image goes on with the full load; WAKE_FAIL_CLEAR clears the cause;
SLOW_PERIOD_MEASURE writes the period. Where the spec leaves a point open, this follows the model's choice in log 61, 62, 140 and 160. -/
def Obligations.PowerWakes : Prop :=
  (∀ s : State, s.pwrCur = pwSLEEP → s.pwrTarget = pwRUN → s.pwr.tiles = 0 → s.boot.pll.length = 6 →
    (∀ n, n < 16 → s.isF (fBE_STATUS_TRIG_PENDING n) = false) → s.getF fPWR_PWR_STATUS_PENDING = pwNONE →
    Does .sleepExit s (fun t => t.pwrCur = pwRUN ∧ t.pwrTarget = pwNONE ∧ t.pwr.selfRefresh = false
      ∧ t.boot.pll.getD 1 false = true ∧ t.boot.pll.getD 2 false = true ∧ t.boot.pll.getD 4 false = true ∧ t.mem = s.mem))
  ∧ (∀ s : State, s.pwrCur ≠ pwSLEEP ∨ s.pwrTarget ≠ pwRUN → Does .sleepExit s (fun t => t = s))
  ∧ (∀ s : State, s.boot.aon = true → s.boot.phase = .off → s.pwrCur = pwDEEP → s.pwr.timer ≠ none →
    Does .aonWakeTimer s (fun t => t.boot.phase = .waitPg ∧ t.boot.pmicEn = true ∧ t.boot.warm = s.pwr.keep
      ∧ t.regN rPWR_WAKE_SRC = 0x32 ∧ t.getF fTOP_RESET_CAUSE_CAUSE = 1 ∧ t.pwrCur = pwRUN ∧ t.mem = s.mem
      ∧ Quiet [rPWR_WAKE_SRC, rTOP_RESET_CAUSE, rPWR_PWR_STATUS] { s with boot := { t.boot with held := s.boot.held } } t))
  ∧ (∀ (s : State) (ents : List (Nat × Word)), s.boot.warm = true → s.boot.phase = .waitPmic → s.retCheck = ((ents, none), s) →
    (ents.map Prod.fst).Nodup → (∀ p ∈ ents, 0x140000 ≤ p.1 ∧ p.1 < 0x1C0000) → s.loader.cfg.ho.hostChannels = [] →
    s.loader.cfg.li = [] → s.loader.cfg.be = [] → (∀ n, n < 4 → s.boot.mapOk.getD n false = false) → s.time.sched = [] →
    s.boot.pll.getD 4 false = false → s.boot.resume = none → s.boot.scRun = false →
    Does .deepSleepWake s (fun t => t.boot.phase = .started ∧ t.boot.fwStarted = true ∧ t.isF fBSTREAM_STATUS_LOCKED = true
      ∧ t.isF fTOP_START_STATUS_LOCKED = true ∧ t.regN rPWR_RET_STATUS = 2 ^ 31 + 2 ^ 16 * (ents.length % 2048)
      ∧ (∀ p ∈ ents, t.reg p.1 = p.2)
      ∧ t.boot.warmDue = true ∧ t.pwr.selfRefresh = s.pwr.selfRefresh ∧ (s.boot.refclk = true → t.bsState = s.bsState)
      ∧ (s.boot.refclk = false → t.bsState = bsVERIFY_ENV ∧ t.boot.resume = some s.bsState ∧ ∀ n, n < 4 → t.directTile n = false)))
  ∧ (∀ (s : State) (l : List (Nat × Word)) (i a b : Nat), s.boot.warm = true → s.boot.phase = .waitPmic →
    s.retCheck = ((l, some i), s) → checkPhase0 s s.loader.flashA.bytes = some a → checkPhase0 s s.loader.flashB.bytes = some b →
    Does .deepSleepWake s (fun t => t.boot.warm = false ∧ t.boot.phase = .waitHost ∧ t.isF fPWR_PWR_FLAGS_RET_LOST = true
      ∧ t.regN rPWR_RET_STATUS = i % 2048 ∧ ∀ x, x < corrBase ∨ corrBase + 0x800000 ≤ x → t.byte x = s.byte x))
  ∧ (∀ s : State, Takes s rPWR_WAKE_FAIL_CAUSE → Does .wakeFailClear s (fun t =>
    t.reg rPWR_WAKE_FAIL_CAUSE = 0 ∧ Quiet [rPWR_WAKE_FAIL_CAUSE] s t))
  ∧ ∀ (ticks cycles : Nat) (s : State), s.pwrCur = pwRUN → cycles ≠ 0 → s.time.frcRun = true →
    Does (.slowPeriodMeasure ticks cycles) s (fun t => t.getF ⟨rPWR_SLOW_PERIOD, 0, 24⟩ = 256 * ticks / cycles % 2 ^ 24
      ∧ Quiet [rPWR_SLOW_PERIOD] s t)

/-! ### Composition, capture and Press (R127 to R189, R328) -/

/-- FLIP_COMMIT, LATCH_POINT, RAW_ADDR_WRITE, ROW_COMPOSE and the packets of a capture writer, with a buffer in use and a header in error
(R138 to R151, R195, R328). Where the spec leaves a point open, this follows the model's choice in log 36, 87, 88, 174, 175 and 176. -/
def Obligations.Composition : Prop :=
  (∀ (g : Fin 4) (mask : Word) (s : State), Takes s (rMSG_FLIP_COMMIT g) →
    let descs := (maskLayers mask.toNat).map (fun l => (l, s.regWords (rMSG_FLIP_STAGE l 0) 8))
    let why := s.flipReason .regs g mask.toNat (s.reg (rMSG_FLIP_ORDER g)) descs
    (why = 0 → s.isF (fMSG_FLIP_FENCE_WAIT g) = false → s.comp.flight = [] → Does (.flipCommit g mask) s (fun t =>
      t.getF (fMSG_FLIP_STATUS_COMMIT_SEQ g) = (s.getF (fMSG_FLIP_STATUS_COMMIT_SEQ g) + 1) % 65536
      ∧ t.comp.flight = [(s.time.now, .flip g ⟨mask.toNat, descs, s.reg (rMSG_FLIP_ORDER g), none, s.reg (rMSG_FLIP_TARGET g),
          (s.getF (fMSG_FLIP_STATUS_COMMIT_SEQ g) + 1) % 65536⟩)]
      ∧ Quiet [rMSG_FLIP_STATUS g] { s with comp := t.comp } t))
    ∧ (why ≠ 0 → Does (.flipCommit g mask) s (fun t => t.comp = s.comp ∧ t.isF (fMSG_FLIP_FLAGS_REFUSED g) = true
      ∧ t.getF (fMSG_FLIP_STATUS_COMMIT_SEQ g) = s.getF (fMSG_FLIP_STATUS_COMMIT_SEQ g) ∧ t.mem = s.mem)))
  ∧ (∀ s : State, (s.tgsOn = [] → Does .latchPoint s (fun t => t = s))
    ∧ (s.tgsOn ≠ [] → Does .latchPoint s (fun t => t.lampTiming.frame = (s.lampTiming.frame + 1) % 2 ^ 32
      ∧ t.lampTiming.latched = true ∧ t.lampTiming.armed = [])))
  ∧ (∀ (l : Fin 8) (lo : Word) (s : State), Takes s (rMSG_LAYER_RAW_ADDR_LO l) →
    let d := ((s.flipDesc l).set 0 lo).set 1
      (BitVec.ofNat 32 (putBits (nth 0#32 (s.flipDesc l) 1).toNat 0 8 (s.regN (rMSG_LAYER_RAW_ADDR_HI l) % 256)))
    (s.isF (fMSG_LAYER_CFG_RAW_EN l) = true → s.isF (fMSG_LAYER_STATUS_NEVER_FLIPPED l) = false → s.descReason l d ≠ 5 →
      s.descReason l d ≠ 7 → Does (.rawAddrWrite l lo) s (fun t => t.flipDesc l = d ∧ (∀ k, k ≠ l.val → t.flipDesc k = s.flipDesc k)
        ∧ t.mem = s.mem))
    ∧ (s.isF (fMSG_LAYER_CFG_RAW_EN l) = false → Does (.rawAddrWrite l lo) s (fun t => t.comp = s.comp ∧ Quiet [] s t)))
  ∧ (∀ (n : Fin 4) (s : State) (x : Xfer), (s.tgOf n).xfer = some x → x.ended = false → (s.pr n).room = true →
    tabGet (fun _ => 0) s.comp.row n < 512 → Does (.rowCompose n) s (fun t =>
      tabGet (fun _ => 0) t.comp.row n = tabGet (fun _ => 0) s.comp.row n + 1))
  ∧ (∀ (rx : Fin 2) (vc : Fin 4) (hdr : Fin 3) (w : Nat) (s : State), s.csiOn rx = true → s.capsOn rx vc = [w] →
    let b := (s.capw w).next % (s.getF (fHOSTIF_CAPW_CFG_BUFS w) + 1)
    (hdr ≠ 2 → s.baseInUse (s.capBase w b) = false → Does (.csiFrameStart rx vc hdr) s (fun t => t.mem = s.mem
      ∧ t.capw w = { started := true, buf := b, next := (s.capw w).next + 1 }
      ∧ t.regN (rHOSTIF_CSI_ECC_CORR rx) = (if hdr = 1 then min 0xFFFF (s.regN (rHOSTIF_CSI_ECC_CORR rx) + 1)
          else s.regN (rHOSTIF_CSI_ECC_CORR rx))))
    ∧ (hdr ≠ 2 → s.baseInUse (s.capBase w b) = true → Does (.csiFrameStart rx vc hdr) s (fun t => t.mem = s.mem
      ∧ (t.capw w).skip = true ∧ t.regN (rHOSTIF_CAPW_DROP_COUNT w) = min 0xFFFF (s.regN (rHOSTIF_CAPW_DROP_COUNT w) + 1)))
    ∧ ∀ c ∈ [Instr.csiFrameStart rx vc 2, .csiFrameEnd rx vc 2], Does c s (fun t => t.capw w = { s.capw w with err := true }
      ∧ t.getF (fHOSTIF_CSI_ERR_ERR rx) = min (2 ^ (fHOSTIF_CSI_ERR_ERR rx).w - 1) (s.getF (fHOSTIF_CSI_ERR_ERR rx) + 1)
      ∧ t.mem = s.mem))
  ∧ (∀ (rx : Fin 2) (vc : Fin 4) (hdr : Fin 3) (s : State), s.csiOn rx = false →
    ∀ c ∈ [Instr.csiFrameStart rx vc hdr, .csiFrameEnd rx vc hdr], Does c s (fun t => t = s))
  ∧ (∀ (rx : Fin 2) (vc : Fin 4) (dt : BitVec 6) (bs : List Byte) (w : Nat) (s : State), Clean s → s.csiOn rx = true →
    dt.toNat ∈ csiTypes → s.capOf rx vc dt.toNat = some w → (s.capw w).skip = false → s.isF (fHOSTIF_CAPW_CFG_COMPRESSED w) = false →
    (s.capw w).started = true → bs.length ≤ s.capStride w → (0 < (s.capw w).rows → bs.length = (s.capw w).bytes) →
    (s.capw w).rows < s.getF (fHOSTIF_CAPW_GEOM_HEIGHT w) →
    let a := s.capBase w (s.capw w).buf + (s.capw w).rows * s.capStride w
    s.inDram a bs.length = true → Does (.csiLongPacket rx vc dt 0 bs true) s (fun t =>
      t.bytes a bs.length = bs ∧ (∀ x, x < a ∨ a + bs.length ≤ x → t.byte x = s.byte x)
      ∧ t.capw w = { s.capw w with rows := (s.capw w).rows + 1, bytes := bs.length }))
  ∧ (∀ (rx : Fin 2) (vc : Fin 4) (dt : BitVec 6) (bs : List Byte) (w : Nat) (s : State), s.csiOn rx = true →
    dt.toNat ∈ csiTypes → s.capOf rx vc dt.toNat = some w → (s.capw w).skip = false → (s.capw w).started = false →
    (s.capw w).rows = 0 → (s.capw w).bytes = 0 → s.baseInUse (s.capBase w 0) = true →
    Does (.csiLongPacket rx vc dt 0 bs true) s (fun t => (t.capw w).skip = true
      ∧ t.regN (rHOSTIF_CAPW_DROP_COUNT w) = min 0xFFFF (s.regN (rHOSTIF_CAPW_DROP_COUNT w) + 1) ∧ t.mem = s.mem))
  ∧ (∀ (rx : Fin 2) (vc : Fin 4) (dt : BitVec 6) (bs : List Byte) (s : State), s.csiOn rx = true → s.capOf rx vc dt.toNat = none →
    Does (.csiLongPacket rx vc dt 0 bs true) s (fun t => t.mem = s.mem ∧ t.getF (fHOSTIF_CSI_ERR_DISC rx)
      = min (2 ^ (fHOSTIF_CSI_ERR_DISC rx).w - 1) (s.getF (fHOSTIF_CSI_ERR_DISC rx) + 1)))
  ∧ ∀ (rx : Fin 2) (vc : Fin 4) (hdr : Fin 3) (w : Nat) (s : State), s.csiOn rx = true → hdr ≠ 2 → s.capsOn rx vc = [w] →
    (s.capw w).started = true → (s.capw w).skip = false →
    s.capReason w = 0 → s.isF (fHOSTIF_CAPW_CFG_AUTO_FLIP w) = false → Does (.csiFrameEnd rx vc hdr) s (fun t =>
      t.regN (rHOSTIF_CAPW_FRAME_COUNT w) = (s.regN (rHOSTIF_CAPW_FRAME_COUNT w) + 1) % 2 ^ 32
      ∧ t.fence (s.getF (fHOSTIF_CAPW_CFG_FENCE w)) = s.fence (s.getF (fHOSTIF_CAPW_CFG_FENCE w)) + 1
      ∧ t.capw w = { next := (s.capw w).next } ∧ t.mem = s.mem)

/-- Press (R175 to R187): update lists, FILL, the end of a transfer frame, the recorder. Where the spec leaves a point open, this follows
the model's choice in log 89, 91, 149 and 150. -/
def Obligations.PressCommands : Prop :=
  (∀ (n : Fin 4) (s : State), s.absentUnit (rPRESS_UPD_CMD n) = false → Takes s (rPRESS_UPD_CMD n) →
    (s.updBusy n = false → Does (.updCommit n) s (fun t => t.getF (fPRESS_UPD_STATUS_STATE n) = updPENDING ∧ (t.pr n).updNext = 0
      ∧ (t.pr n).updLen = s.regN (rPRESS_UPD_LEN n) % 2 ^ 19
      ∧ (t.pr n).updBase = s.regN (rPRESS_UPD_LIST_LO n) + 2 ^ 32 * (s.regN (rPRESS_UPD_LIST_HI n) % 256)
      ∧ Quiet [rPRESS_UPD_STATUS n] { s with press := t.press } t))
    ∧ (s.updBusy n = true → ∀ c ∈ [Instr.updCommit n, .updFill n], Does c s (fun t => t.getF (fPRESS_UPD_STATUS_ERR n) = 1
      ∧ t.getF (fPRESS_UPD_STATUS_STATE n) = s.getF (fPRESS_UPD_STATUS_STATE n) ∧ Quiet [rPRESS_UPD_STATUS n] s t))
    ∧ (s.updBusy n = false → s.tgState n = tgOFF → Does (.updFill n) s (fun t =>
      t.getF (fPRESS_UPD_STATUS_STATE n) = updFILLING ∧ t.getF (fPRESS_UPD_STATUS_ERR n) = 0 ∧ Quiet [rPRESS_UPD_STATUS n] s t))
    ∧ (s.getF (fPRESS_UPD_STATUS_STATE n) = updPENDING ∨ s.getF (fPRESS_UPD_STATUS_STATE n) = updAPPLYING → (s.hl n).list = [] →
      (s.hl n).again = false → Does (.updCancel n) s (fun t =>
        t.getF (fPRESS_UPD_STATUS_STATE n) = updCANCELLED ∧ Quiet [rPRESS_UPD_STATUS n] s t)))
  ∧ (∀ (n : Fin 4) (s : State), s.getF (fPRESS_UPD_STATUS_STATE n) = updFILLING → (s.fillAll n).1 = true →
    Does (.fillDone n) s (fun t => t.getF (fPRESS_UPD_STATUS_STATE n) = updDONE ∧ t.getF (fPRESS_UPD_STATUS_DONE_ENTRIES n) = 262144
      ∧ (t.pr n).range = [] ∧ (t.portOf n).selStage = 0 ∧ t.mem = (s.fillAll n).2.mem))
  ∧ (∀ (n : Fin 4) (rows : Fin 17) (s : State), s.getF (fPRESS_UPD_STATUS_STATE n) = updPENDING → (s.pr n).reload = [] → Clean s →
    s.regN (rPRESS_SWEEP n) = 0 → (s.pr n).updLen ≤ (s.pr n).updNext → (s.hl n).list = [] → (s.hl n).again = false →
    Does (.updateWindow n rows) s (fun t => t.getF (fPRESS_UPD_STATUS_STATE n) = updDONE ∧ t.regN (rPRESS_UPD_FRAME n) = s.nextFrame n
      ∧ t.mem = s.mem))
  ∧ (∀ (n : Fin 4) (a b : Bool) (late : BitVec 4) (s : State) (x : Xfer), (s.tgOf n).xfer = some x → x.ended = false → 512 ≤ x.next →
    x.maps = [] → x.torn = false → (s.pr n).snapOn = false → s.recState = 0 → Does (.transferEnd n a b late) s (fun t =>
      (t.tgOf n).xfer = some { x with ended := true } ∧ t.regN (rPRESS_ROI_FRAME n) = x.frame % 2 ^ 32
      ∧ (∃ r, (t.safeT n).record = some r ∧ r.frame = x.frame) ∧ (t.pr n).span = (s.pr n).span ∧ t.mem = s.mem))
  ∧ (∀ s : State, Takes s rREC_CTRL →
    (s.recState = recRECORDING → Does .recFreeze s (fun t => t.recState = recPOST ∧ t.getF fREC_STATUS_TRIG_SRC = 5
      ∧ t.regN rREC_TRIG_PTR = s.regN rREC_WR_PTR ∧ t.pair rREC_TRIG_TIME_LO rREC_TRIG_TIME_HI = s.lampNs ∧ t.mem = s.mem))
    ∧ (s.recState = recPOST ∨ s.recState = recFROZEN → Does .recFreeze s (fun t =>
      t.regN rREC_TRIG_IGNORED_COUNT = min 0xFFFF (s.regN rREC_TRIG_IGNORED_COUNT + 1) ∧ Quiet [rREC_TRIG_IGNORED_COUNT] s t))
    ∧ (s.recState = recFROZEN → Does .recRearm s (fun t => t.recState = recRECORDING
      ∧ t.record = { s.record with ents := [], mark := [], ptr := false } ∧ t.regN rREC_OLDEST_PTR = s.regN rREC_WR_PTR ∧ t.mem = s.mem))
    ∧ (s.recState = recPOST → Does .recFrozen s (fun t => t.recState = recFROZEN ∧ Quiet [rREC_STATUS] s t)))

/-! ### Timing generators (R190 to R210) -/

/-- TG_START (PRE begins at S_0 - P), TG_STOP, SWAP, SLOT, SENSE, FRAME_START, ROW_SLOT, TIMING_COMMIT, DIRECT_TIMING_WRITE. Where the
spec leaves a point open, this follows the model's choice in log 79, 93, 108, 151, 152 and 161. -/
def Obligations.TimingGenerators : Prop :=
  (∀ (n : Fin 4) (s : State), s.absentUnit (rTG_CMD n) = false → Takes s (rTG_CMD n) →
    (s.startReason n = 0 → s.hasSpares n = false → Does (.tgStart n) s (fun t => t.tgState n = tgPRE
      ∧ (t.tgOf n).stop = false ∧ (s.tgsOn = [] → (t.tgOf n).first = 0)
      ∧ (t.tgOf n).e - (t.tgOf n).s = s.timing.period
      ∧ (2 ^ 32 * (t.tgOf n).s ≤ s.lampFine → t.getF (fTG_STATUS_STATE n) = tgPRE ∧ t.regN (rTG_FRAME_COUNT n) = 0xFFFFFFFF)
      ∧ ((s.lampFine : Rat) < 2 ^ 32 * (t.tgOf n).s → t.getF (fTG_STATUS_STATE n) = tgOFF
          ∧ t.regN (rTG_FRAME_COUNT n) = s.regN (rTG_FRAME_COUNT n))
      ∧ t.mem = s.mem))
    ∧ (s.startReason n = 0 → s.hasSpares n = true → (s.portOf n).selStage ≠ 3 → Does (.tgStart n) s (fun t =>
      t = s.updTg n (fun g => { g with startWait := true })))
    ∧ (s.startReason n ≠ 0 → Does (.tgStart n) s (fun t => t.isF (fTG_STATUS_START_REFUSED n) = true ∧ t.tgState n = s.tgState n
      ∧ Quiet [rTG_STATUS n, rTG_START_REFUSED_COUNT n] s t))
    ∧ (s.tgState n = tgPRE → Does (.tgStop n) s (fun t => t.tgState n = tgOFF ∧ t.tgOf n = {} ∧ t.mem = s.mem))
    ∧ (s.tgState n = tgRUNNING ∨ s.tgState n = tgHALF → Does (.tgStop n) s (fun t =>
      t = s.updTg n (fun g => { g with stop := true }))))
  ∧ (∀ (n : Fin 4) (s : State), s.tgState n = tgRUNNING → (s.tgOf n).stop = false → (s.tgOf n).xfer = none →
    s.lampTiming.staged = none → (s.portOf n).recal = none → s.boot.handover.getD n 0 = 0 → (s.tgOf n).delta = 0 →
    s.isF (fTG_STATUS_REPHASING n) = false → (s.safeT n).record = none → s.loader.cfg.sf.dMax = none →
    Does (.swap n) s (fun t => t.regN (rTG_FRAME_COUNT n) = (s.regN (rTG_FRAME_COUNT n) + 1) % 2 ^ 32
      ∧ (t.tgOf n).s = (s.tgOf n).e ∧ (t.tgOf n).e = gridAfter s.lampTiming.anchor s.timing.period (s.tgOf n).e
      ∧ t.tgState n = tgRUNNING ∧ (t.tgOf n).fired = [] ∧ (t.tgOf n).sensed = false ∧ t.mem = s.mem))
  ∧ (∀ (n : Fin 4) (s : State), s.tgState n = tgRUNNING → (s.tgOf n).stop = true → (s.portOf n).recal = none →
    Does (.swap n) s (fun t => t.tgState n = tgOFF ∧ t.regN (rTG_FRAME_COUNT n) = (s.regN (rTG_FRAME_COUNT n) + 1) % 2 ^ 32
      ∧ t.tgOf n = {} ∧ t.mem = s.mem))
  ∧ (∀ (n k : Fin 4) (code : Nat) (s : State), (s.tgOf n).fire.find? (fun q => q.1 = k.val) = some (k.val, code) →
    s.tgState n = tgRUNNING → k.val ∉ (s.tgOf n).fired →
    (s.timing.slots.getD k (false, 0, 0)).1 = true → s.inFallback n = false → s.loader.cfg.sf.slotMax = none →
    Does (.slot n k) s (fun t => (t.tgOf n).fired = (s.tgOf n).fired ++ [k.val]
      ∧ (∃ w, (t.portOf n).tx = .ctl w :: (s.portOf n).tx) ∧ t.regs = s.regs ∧ t.mem = s.mem))
  ∧ (∀ (n : Fin 4) (s : State), tgRUNNING ≤ s.tgState n → (s.tgOf n).sensed = false → s.isF (fTG_SENSE_CFG_EN n) = true →
    (1000 * s.getF (fTG_SENSE_CFG_T_SENSE n) + 4000 ≤ s.timing.guardT → (s.tgOf n).pulse = false → (s.tgOf n).torn = true →
      Does (.sense n) s (fun t => (t.tgOf n).sensed = true ∧ (∃ w, (t.portOf n).tx = .ctl w :: (s.portOf n).tx) ∧ t.regs = s.regs
        ∧ t.mem = s.mem))
    ∧ (s.timing.guardT < 1000 * s.getF (fTG_SENSE_CFG_T_SENSE n) + 4000 → Does (.sense n) s (fun t => (t.tgOf n).sensed = true
      ∧ t.isF (fTG_STATUS_SENSE_SKIP n) = true
      ∧ ((s.tgOf n).torn = false → ∃ x, (t.hl n).intake.getLast? = some x ∧ x.chunk = s.getF (fTG_SENSE_CFG_CHUNK n) ∧ x.again = true)
      ∧ Quiet [rTG_STATUS n, rTG_SENSE_SKIP_COUNT n] { s with tg := t.tg, health := t.health } t)))
  ∧ (∀ (n : Fin 4) (s : State) (x : Xfer), (s.tgOf n).xfer = some x →
    (x.opened = false → Does (.frameStart n) s (fun t => (t.tgOf n).xfer = some { x with opened := true }
      ∧ (t.portOf n).tx = .ctl (ctlWord ctlFRAME_START (2 ^ 24 * x.frame + 2 ^ 13 * x.sel + 2 ^ 9 * (x.maps.map (2 ^ ·)).sum))
          :: (s.portOf n).tx
      ∧ t.regs = s.regs ∧ t.mem = s.mem))
    ∧ (x.opened = true → x.ended = false → 0 < x.next → x.next < 512 → (s.pr n).out = [] → (s.pr n).beam = [] →
      Does (.rowSlot n) s (fun t => (t.tgOf n).xfer = some { x with next := x.next + 1 }
        ∧ (t.pr n).carried = (s.pr n).carried ++ [x.next]
        ∧ t.regN (rCP_ROW_CARRY_COUNT n) = min 0xFFFF (s.regN (rCP_ROW_CARRY_COUNT n) + 1) ∧ t.mem = s.mem)))
  ∧ (∀ (v : Word) (s : State), Takes s (rTG_TIMING_COMMIT 0) → v.toNat % 8 ≤ 3 ∨ v.toNat % 8 = 7 →
    let x := s.stagedSet (v.toNat % 8) (v.toNat.testBit 8)
    (s.timingBad (x.set s.timing.lead) = 0 → Does (.timingCommit v) s (fun t => t.lampTiming.staged = some x
      ∧ t.getF (fTG_TIMING_STATUS_STATE 0) = 1 ∧ (∀ n, n < 4 → t.isF (fTG_STATUS_STAGED_PENDING n) = true) ∧ t.mem = s.mem))
    ∧ (s.timingBad (x.set s.timing.lead) ≠ 0 → Does (.timingCommit v) s (fun t => t.lampTiming = s.lampTiming
      ∧ t.getF (fTG_TIMING_STATUS_STATE 0) = 3 ∧ t.getF (fTG_TIMING_STATUS_REASON 0) = s.timingBad (x.set s.timing.lead)
      ∧ Quiet [rTG_TIMING_STATUS 0] s t)))
  ∧ ∀ (off : BitVec 24) (v : Word) (s : State) (k : Direct), directKind off.toNat = some k → Takes s off.toNat →
    let s' := s.setReg off.toNat (v &&& wrBits off.toNat)
    (s'.timingBad s'.timing ≠ 0 → Does (.directTimingWrite off v) s (fun t => Quiet [] s t))
    ∧ (s'.timingBad s'.timing = 0 → k ≠ .period → s.tgsOn = [] → Does (.directTimingWrite off v) s (fun t =>
      t.reg off.toNat = v &&& wrBits off.toNat ∧ t = { s' with lampTiming := t.lampTiming }))

/-! ### Tile ports (R211 to R242) -/

/-- Bring-up (R227 to R231): the port's states, and what a failed attempt leaves. Where the spec leaves a point open, this follows the
model's choice in log 92, 123, 138 and 161. -/
def Obligations.LinkBringUp : Prop :=
  (∀ (n : Fin 4) (s : State), s.absentUnit (rZTL_CMD n) = false → Takes s (rZTL_CMD n) →
    (s.zState n = zOFF → n < s.tiles → s.pllDead = false → Does (.ztlEnable n) s (fun t => t.zState n = zDETECT ∧ (t.portOf n).tries = 0
      ∧ (t.portOf n).refused = false ∧ (t.portOf n).trained = 0 ∧ Quiet [rZTL_STATUS n] { s with port := t.port } t))
    ∧ (s.zState n ≠ zOFF ∨ s.tiles ≤ n ∨ s.pllDead = true → Does (.ztlEnable n) s (fun t => t = s))
    ∧ (s.zState n = zDOWN → Does (.ztlRetry n) s (fun t => t.zState n = zDETECT ∧ (t.portOf n).tries = (s.portOf n).tries
      ∧ Quiet [rZTL_STATUS n] { s with port := t.port } t))
    ∧ (s.tgState n = tgOFF → s.zState n ≠ zOFF → Does (.ztlDisable n) s (fun t => t.zState n = zOFF))
    ∧ (s.tgState n ≠ tgOFF → Does (.ztlDisable n) s (fun t => t = s)))
  ∧ (∀ (n : Fin 4) (s : State), s.zState n = zDOWN → Does (.bringupAttempt n) s (fun t => t.zState n = zDETECT
      ∧ (t.portOf n).trained = 0 ∧ (t.portOf n).locked = 0 ∧ Quiet [rZTL_STATUS n] { s with port := t.port } t))
  ∧ (∀ (n : Fin 4) (m : BitVec 3) (s : State), s.zState n = zDETECT →
    (2 ≤ (lanesOf m.toNat).length → Does (.detectDone n m) s (fun t => t.zState n = zTRAIN
      ∧ ((s.portOf n).cals = [] → (t.portOf n).cals.map Cal.lane = lanesOf m.toNat)
      ∧ (t.portOf n).ck = some (s.isF (fZTL_LANE_CFG_CK_INV n))
      ∧ Quiet [rZTL_STATUS n] { s with port := t.port } t))
    ∧ ((lanesOf m.toNat).length < 2 → Does (.detectDone n m) s (fun t => t = s)))
  ∧ (∀ (n : Fin 4) (s : State), s.zState n = zTRAIN → (s.portOf n).trained ≠ 0 → Does (.trainDone n) s (fun t =>
      t.zState n = zLOCK ∧ (t.portOf n).cals = []
      ∧ t.getF ⟨rZTL_EQ_STATUS n, 12, 3⟩ = (if s.isF (fZTL_LANE_CFG_EQ_MODE n) then s.getF ⟨rZTL_EQ_STATUS n, 12, 3⟩
          else bitsOf (s.regN (rZTL_EQ_CFG n)) 12 3)
      ∧ Quiet [rZTL_STATUS n, rZTL_EQ_STATUS n] { s with port := t.port } t))
  ∧ (∀ (n : Fin 4) (m : BitVec 3) (s : State), s.zState n = zLOCK → m.toNat &&& (s.portOf n).trained ≠ 0 →
    Does (.lockDone n m) s (fun t => t.zState n = zCAPS ∧ (t.portOf n).locked = m.toNat &&& (s.portOf n).trained
      ∧ Quiet [rZTL_STATUS n] { s with port := t.port } t))
  ∧ (∀ (n : Fin 4) (s : State), s.zState n = zLOCK → (s.portOf n).locked &&& (s.portOf n).trained ≠ 0 →
    Does (.attemptTimeout n) s (fun t => t.zState n = zCAPS ∧ (t.portOf n).locked = (s.portOf n).locked &&& (s.portOf n).trained
      ∧ Quiet [rZTL_STATUS n] { s with port := t.port } t))
  ∧ (∀ (n : Fin 4) (s : State), s.zState n ∈ [zDETECT, zTRAIN, zLOCK, zCAPS] → (s.portOf n).tries ≠ 2 →
    s.zState n ≠ zLOCK ∨ (s.portOf n).locked &&& (s.portOf n).trained = 0 →
    Does (.attemptTimeout n) s (fun t => t.zState n = zDOWN ∧ t.getF (fZTL_ATTEMPT_LAST_FAIL_STATE n) = s.zState n
      ∧ t.getF (fZTL_ATTEMPT_COUNT n) = min 255 (s.getF (fZTL_ATTEMPT_COUNT n) + 1) ∧ (t.portOf n).tries = (s.portOf n).tries + 1
      ∧ (t.portOf n).ck = none ∧ (∀ l ∈ (t.portOf n).lanes, l.out = none)
      ∧ Quiet [rZTL_STATUS n, rZTL_ATTEMPT n] { s with port := t.port } t))
  ∧ ∀ (n : Fin 4) (b : BkBits) (p : BitVec 48) (c : Cal) (r s : State), BkSays n ctlTRAIN_REPORT b p r s → s.zState n = zTRAIN →
    (s.portOf n).cals.find? (fun x => x.lane = s.devLane n (payF p 55 52)) = some c → c.lane < 3 → payF p 15 8 = c.testPhase →
    (∀ ph w ct, c.report (s.regN (rZTL_RECAL_CFG n) % 128) true (payF p 47 16) = .done ph w ct → Does (.trainReport n b) r (fun t =>
      (t.portOf n).trained = (s.portOf n).trained ||| 2 ^ c.lane ∧ t.getF (fldPhase n c.lane) = ph % 64
      ∧ t.getF (fldEye n c.lane) = w % 128 ∧ t.getF (fldCtle n c.lane) = ct % 8 ∧ t.mem = s.mem))
    ∧ (c.report (s.regN (rZTL_RECAL_CFG n) % 128) true (payF p 47 16) = .fail → Does (.trainReport n b) r (fun t =>
      (t.portOf n).trained = (s.portOf n).trained ∧ (∀ x ∈ (t.portOf n).cals, x.lane ≠ c.lane)
      ∧ t.isF (fZTL_STATUS_CAL_REJECT n) = true ∧ t.mem = s.mem))

/-- An ACTIVE port (R232 to R242): status reports, the spare's margin, recalibration, retraining, the back lane. Where the spec leaves a
point open, this follows the model's choice in log 92, 109, 123, 137, 138, 139 and 177. -/
def Obligations.LinkActive : Prop :=
  (∀ (n : Fin 4) (b : BkBits) (p : BitVec 48) (r s : State), BkSays n ctlLINK_STATUS b p r s → s.zState n = zACTIVE →
    (payF p 55 55 = 0 → Does (.linkStatus n b) r (fun t => t.zState n = zDOWN ∧ t.isF (fZTL_STATUS_PORT_DOWN n) = true
      ∧ (t.portOf n).caps = none))
    ∧ (payF p 55 55 = 1 → payF p 47 32 = (s.portOf n).discards → payF p 51 49 = 0 →
      (∀ d ∈ [s.stripe n 0, s.stripe n 1], hasLane (s.devMask n (payF p 54 52)) d = true) →
      s.spareLane n = 3 ∨ hasLane (s.devMask n (payF p 54 52)) (s.spareLane n) = true →
      Does (.linkStatus n b) r (fun t => (t.portOf n).locked = s.devMask n (payF p 54 52) ∧ t.zState n = zACTIVE
        ∧ t = { s with port := t.port })))
  ∧ (∀ (n : Fin 4) (c o : Word) (s : State), s.zState n = zACTIVE → s.spareLane n ≠ 3 →
    (∀ x ∈ (s.portOf n).cals, x.lane ≠ s.spareLane n) →
    (c = 0 ∨ (s.portOf n).spareErr = false → Does (.spareMarginCheck n c o) s (fun t =>
      t.regN (rZTL_SPARE_MARGIN n) = 65536 * min o.toNat 0xFFFF + min c.toNat 0xFFFF
      ∧ (t.portOf n).spareErr = decide (0 < c.toNat) ∧ t.spareLane n = s.spareLane n
      ∧ Quiet [rZTL_SPARE_MARGIN n] { s with port := t.port } t))
    ∧ (c ≠ 0 → (s.portOf n).spareErr = true → Does (.spareMarginCheck n c o) s (fun t => t.spareLane n = 3
      ∧ t.isF (fZTL_STATUS_SPARE_FAIL n) = true ∧ t.zState n = zACTIVE ∧ t.mem = s.mem)))
  ∧ (∀ (n : Fin 4) (s : State), s.zState n = zACTIVE → (s.portOf n).recal = none → s.spareLane n ≠ 3 →
    ∀ c, (c = Instr.ztlRecal n ∧ s.absentUnit (rZTL_CMD n) = false ∧ Takes s (rZTL_CMD n))
        ∨ (c = .recalStep n ∧ s.isF (fZTL_RECAL_CFG_EN n) = true) →
      (s.isF (fZTL_STATUS_BACK_STALE n) = true → Does c s (fun t => (t.portOf n).recal = none
        ∧ (t.portOf n).rot = ((s.portOf n).rot + 1) % 4 ∧ t = { s with port := t.port }))
      ∧ (s.isF (fZTL_STATUS_BACK_STALE n) = false → (s.portOf n).rot = 2 → Does c s (fun t =>
        (t.portOf n).recal = some { role := 2, lane := s.spareLane n } ∧ (t.portOf n).rot = 3
        ∧ t.isF (fZTL_STATUS_RECAL_ACTIVE n) = true ∧ Quiet [rZTL_STATUS n] { s with port := t.port } t)))
  ∧ (∀ (n : Fin 4) (s : State), s.isF (fZTL_RECAL_CFG_EN n) = false → Does (.recalStep n) s (fun t => t = s))
  ∧ (∀ (n : Fin 4) (l : Fin 3) (s : State), s.zState n = zACTIVE → (s.regN (rZTL_LANE_MAP n)).testBit (8 + l) = true →
    (s.regN (rZTL_LANE_MAP n)).testBit (12 + l) = false → (∀ c ∈ (s.portOf n).cals, c.lane ≠ l.val) →
    Does (.laneRetrain n l) s (fun t => (t.portOf n).cals.map Cal.lane = (s.portOf n).cals.map Cal.lane ++ [l.val]
      ∧ t = { s with port := t.port }))
  ∧ (∀ (n : Fin 4) (s : State), s.zState n = zACTIVE → s.isF (fZTL_STATUS_BACK_STALE n) = false →
    (s.hl n).await = none → Does (.backFail n) s (fun t =>
      t.isF (fZTL_STATUS_BACK_STALE n) = true ∧ t.isF (fZTL_STATUS_BACK_FAIL n) = true ∧ t.zState n = zACTIVE ∧ (t.portOf n).bk = {}
      ∧ Quiet [rZTL_STATUS n, rZTL_BACK_FAIL_COUNT n, rZTL_RETRAIN_COUNT n] { s with port := t.port } t))
  ∧ (∀ (n : Fin 4) (x : SenseIn) (s : State), s.zState n = zACTIVE → s.isF (fZTL_STATUS_BACK_STALE n) = false →
    (s.hl n).await = some x → Does (.backFail n) s (fun t => t.isF fHEALTH_STATUS_SENSE_STALE = true ∧ (t.hl n).await = none
      ∧ (t.hl n).intake = (s.hl n).intake ++ [x] ∧ t.mem = s.mem))
  ∧ (∀ (n : Fin 4) (s : State), s.zState n ≠ zACTIVE ∨ s.isF (fZTL_STATUS_BACK_STALE n) = false ∨ (s.portOf n).bkTry ≠ none →
    Does (.backRestored n) s (fun t => t = s))
  ∧ (∀ (n : Fin 4) (s : State), s.zState n = zACTIVE → s.isF (fZTL_STATUS_BACK_STALE n) = true → (s.portOf n).bkTry = none →
    Does (.backRestored n) s (fun t => t.isF (fZTL_STATUS_BACK_STALE n) = false ∧ t.zState n = zACTIVE
      ∧ (t.portOf n).bk.lock = true
      ∧ t.getF ⟨rZTL_EQ_STATUS n, 12, 3⟩ = (if s.isF (fZTL_LANE_CFG_EQ_MODE n) then s.getF ⟨rZTL_EQ_STATUS n, 12, 3⟩
          else bitsOf (s.regN (rZTL_EQ_CFG n)) 12 3)
      ∧ Quiet [rZTL_STATUS n, rZTL_EQ_STATUS n] { s with port := t.port } t))
  ∧ (∀ (n : Fin 4) (w : BitVec 64) (s : State), s.zState n = zACTIVE → (s.portOf n).bk.lock = true → (s.portOf n).bk.buf = [] →
    (s.portOf n).bk.bad.count true < 15 →
    let line := lineBits (lineWord true (scramble (s.portOf n).bk.hist w).1 (s.isF (fZTL_LANE_CFG_BK_INV n)))
    let u := (s.bkTake n line).2
    u = { s with port := u.port, regs := u.regs } ∧ (u.portOf n).bk.lock = true ∧ (u.portOf n).bk.buf = []
    ∧ (ctlGood w = true → (s.bkTake n line).1 = some (bitsOf w.toNat 56 8, BitVec.ofNat 48 (bitsOf w.toNat 8 48))
      ∧ ∀ off, u.reg off = s.reg off)
    ∧ (ctlGood w = false → s.boot.porst = true → ∀ c ∈ [Instr.trainReport n ⟨line⟩, .linkStatus n ⟨line⟩, .ack n ⟨line⟩, .swapAck n ⟨line⟩,
        .tileStatus n ⟨line⟩, .regData n ⟨line⟩], Does c s (fun t => t = u
      ∧ t.regN (rZTL_BK_HDR_ERR n) = min 0xFFFFFFFF (s.regN (rZTL_BK_HDR_ERR n) + 1)
      ∧ ∀ off, off ≠ rZTL_BK_HDR_ERR n → t.reg off = s.reg off)))
  ∧ ∀ (n : Fin 4) (s : State), s.zState n = zACTIVE → Does (.bkLossOfSignal n) s (fun t => t.zState n = zDOWN
      ∧ t.isF (fZTL_STATUS_PORT_DOWN n) = true ∧ (t.portOf n).caps = none ∧ (t.portOf n).tries = 0
      ∧ (t.portOf n).ck = none ∧ ∀ l ∈ (t.portOf n).lanes, l.out = none)

/-- The tile protocol (R251 to R269): blocks, acknowledgements, status words, the registers of a tile, the map load, the life record.
Where the spec leaves a point open, this follows the model's choice in log 111, 123, 143 and 172. -/
def Obligations.TileProtocol : Prop :=
  (∀ (n : Fin 4) (b : BlockIn) (s : State), s.zState n = zCAPS →
    (blkGood b = false → (s.portOf n).capsTries < 2 → Does (.capsBlock n b) s (fun t => (t.portOf n).capsTries = (s.portOf n).capsTries + 1
      ∧ t.isF (fZTL_PROTO_FLAGS_BLOCK_BAD n) = true ∧ t.zState n = zCAPS ∧ t.mem = s.mem))
    ∧ (blkGood b = true → b.words.length = 16 → payF b.hdr 55 52 = 2 → capsBad (blkBytes b) = none →
      (s.portTypes n).any (fun t => (typeDiff (blkBytes b) t).isNone) = true → s.isF fTOP_START_STATUS_DRAM_READY = false →
      s.authKey n (blkBytes b) = none → Does (.capsBlock n b) s (fun t => t.zState n = zACTIVE
        ∧ (t.portOf n).caps = some (capsOf (blkBytes b)) ∧ t.isF (fZTL_STATUS_CAPS_ACCEPTED n) = true)))
  ∧ (∀ (n : Fin 4) (b : BlockIn) (c : List Byte) (s : State), (s.portOf n).chal = some c → blkGood b = true → b.words.length = 24 →
    Does (.authBlock n b) s (fun t => (t.portOf n).chal = none
      ∧ t.getF (fZTL_AUTH_STATUS_STATE n) = (if s.authOk n (blkBytes b) c then 1 else 2)
      ∧ (s.authOk n (blkBytes b) c = false → (t.portOf n).caps = none ∧ t.isF (fZTL_STATUS_CAPS_ACCEPTED n) = false)))
  ∧ (∀ (n : Fin 4) (s : State), (s.portOf n).chal ≠ none → s.absent n = true → s.tgState n = tgOFF →
    Does (.authTimeout n) s (fun t =>
      (t.portOf n).chal = none ∧ (t.portOf n).refused = true ∧ (t.portOf n).caps = none ∧ t.getF (fZTL_AUTH_STATUS_STATE n) = 2
      ∧ t.isF (fZTL_STATUS_CAPS_ACCEPTED n) = false
      ∧ Quiet [rZTL_AUTH_STATUS n, rZTL_TILE_ID_LO n, rZTL_TILE_ID_HI n, rZTL_TILE_TYPE n, rZTL_STATUS n, rTOP_START_STATUS]
        { s with port := t.port, boot := { t.boot with held := s.boot.held } } t))
  ∧ (∀ (n : Fin 4) (s : State), s.tgState n = tgOFF → s.tileUp n = true → s.hasSpares n = true → Does (.selMapLoad n) s (fun t =>
      (t.portOf n).selStage = 1 ∧ (t.portOf n).selTries = 0 ∧ t = { s with port := t.port }))
  ∧ (∀ (n : Fin 4) (b : BkBits) (p : BitVec 48) (r s : State), BkSays n ctlACK b p r s → s.zState n = zACTIVE →
    (payF p 55 48 = ctlREG_WR → payF p 47 32 ≠ 8 → (s.portOf n).treg = some (payF p 47 32, true) → Does (.ack n b) r (fun t =>
      t.regN (rZTL_TREG_STATUS n) = payF p 31 24 ∧ (t.portOf n).treg = none ∧ Quiet [rZTL_TREG_STATUS n] { s with port := t.port } t))
    ∧ (payF p 55 48 = ctlFALLBACK → payF p 47 32 = (s.portOf n).fbTag → payF p 31 24 = 0 → (s.portOf n).fbCmd = true →
      s.boot.handover.getD n 0 ≠ 1 → Does (.ack n b) r (fun t => (t.portOf n).fbWait = false ∧ (t.safeT n).fbTimer = false
        ∧ t = { s with port := t.port, safeTile := t.safeTile })))
  ∧ (∀ (n : Fin 4) (b : BkBits) (p : BitVec 48) (r s : State), BkSays n ctlSWAP_ACK b p r s → s.zState n = zACTIVE →
    payF p 37 34 = 0 → (s.hl n).flying = [] → Does (.swapAck n b) r (fun t => t.regN (rZTL_SWAP_STATUS n) = 65536 * payF p 55 40 + 16384 * payF p 39 38 + 64 * payF p 33 30
      ∧ payF p 55 40 ∉ (t.portOf n).acks ∧ Quiet [rZTL_SWAP_STATUS n, rZTL_SEL_STATUS n] { s with port := t.port } t))
  ∧ (∀ (n : Fin 4) (f : Nat) (l : List Nat) (s : State), (s.portOf n).acks = f :: l → (s.hl n).flying = [] →
    Does (.swapAckMissing n) s (fun t => (t.portOf n).acks = l ∧ t.isF (fZTL_PROTO_FLAGS_SWAP_ACK_MISSING n) = true ∧ t.mem = s.mem))
  ∧ (∀ (n : Fin 4) (s : State), (s.portOf n).fbWait = true → Does (.fbAckLate n) s (fun t => (t.portOf n).fbWait = false
      ∧ t.isF (fZTL_PROTO_FLAGS_FB_ACK_LATE n) = true
      ∧ Quiet [rZTL_PROTO_FLAGS n, rZTL_FB_ACK_LATE_COUNT n] { s with port := t.port } t))
  ∧ (∀ (n : Fin 4) (b : BkBits) (p : BitVec 48) (r s : State), BkSays n ctlTILE_STATUS b p r s → s.zState n = zACTIVE →
    Does (.tileStatus n b) r (fun t =>
      t.regN (rZTL_TILE_TEMP n) = 65536 * payF p 43 32 + payF p 55 44 ∧ t.regN (rZTL_TILE_STATE n) = 256 * payF p 15 8 + payF p 31 24
      ∧ Quiet [rZTL_TILE_TEMP n, rZTL_TILE_STATE n, rZTL_PROTO_FLAGS n, rZTL_TILE_FAULT_COUNT n] s t))
  ∧ (∀ (n : Fin 4) (b : BkBits) (p : BitVec 48) (r s : State), BkSays n ctlREG_DATA b p r s →
    (s.portOf n).treg = some (payF p 55 40, false) → Does (.regData n b) r (fun t =>
      t.regN (rZTL_TREG_DATA n) = payF p 39 8 ∧ t.regN (rZTL_TREG_STATUS n) = 0 ∧ (t.portOf n).treg = none
      ∧ Quiet [rZTL_TREG_DATA n, rZTL_TREG_STATUS n] { s with port := t.port } t))
  ∧ (∀ (n : Fin 4) (s : State), s.absentUnit (rZTL_TREG_CMD n) = false → Takes s (rZTL_TREG_CMD n) →
    s.isF (fZTL_TREG_STATUS_BUSY n) = false → s.zState n = zACTIVE →
    let a := s.regN (rZTL_TREG_ADDR n) % 65536
    Does (.tregRead n) s (fun t => t.isF (fZTL_TREG_STATUS_BUSY n) = true ∧ (t.portOf n).treg = some (a, false)
      ∧ (t.portOf n).tx = .ctl (ctlWord ctlREG_RD (2 ^ 40 * a)) :: (s.portOf n).tx
      ∧ Quiet [rZTL_TREG_STATUS n] { s with port := t.port } t)
    ∧ Does (.tregWrite n) s (fun t => t.isF (fZTL_TREG_STATUS_BUSY n) = true ∧ (t.portOf n).treg = some (a, true)
      ∧ (t.portOf n).tx = .ctl (ctlWord ctlREG_WR (2 ^ 40 * a + 2 ^ 8 * s.regN (rZTL_TREG_DATA n))) :: (s.portOf n).tx
      ∧ Quiet [rZTL_TREG_STATUS n] { s with port := t.port } t))
  ∧ (∀ (n : Fin 4) (s : State), (s.portOf n).treg ≠ none → Does (.tregTimeout n) s (fun t =>
      t.regN (rZTL_TREG_STATUS n) = 6 ∧ (t.portOf n).treg = none ∧ Quiet [rZTL_TREG_STATUS n] { s with port := t.port } t))
  ∧ (∀ (n : Fin 4) (b : BlockIn) (x : SenseIn) (s : State), s.zState n = zACTIVE → (s.hl n).await = some x → blkGood b = true →
    b.words.length = 4096 → payF b.hdr 31 16 = x.frame % 65536 → payF b.hdr 15 12 = x.chunk → payF b.hdr 11 11 = x.kind →
    Does (.senseBlock n b) s (fun t => (t.hl n).await = none
      ∧ (t.hl n).intake = (s.hl n).intake ++ [{ x with res := some (senseResults b) }] ∧ t = { s with health := t.health }))
  ∧ (∀ (n : Fin 4) (b : BlockIn) (tag tries : Nat) (s : State), s.zState n = zACTIVE →
    (s.portOf n).nvRead = some (lifeUnitA, 0x1000, tag, tries) → blkGood b = true → b.words.length = 0x1000 → payF b.hdr 15 8 = tag →
    (s.portOf n).nvQueue = [] → Does (.nvBlock n b) s (fun t => (t.portOf n).lifeA = blkBytes b ∧ (t.portOf n).mapRead = true
      ∧ (t.portOf n).nvRead = none ∧ t = { s with port := t.port }))
  ∧ (∀ (n : Fin 4) (b : BlockIn) (tag tries len : Nat) (s : State), s.zState n = zACTIVE →
    (s.portOf n).nvRead = some (lifeUnitB, 0x1000, tag, tries) → blkGood b = true → b.words.length = 0x1000 → payF b.hdr 15 8 = tag →
    (s.portOf n).nvQueue = [(0, len)] → 4096 < len → Does (.nvBlock n b) s (fun t => (t.portOf n).lifeB = blkBytes b
      ∧ (t.portOf n).nvRead = some (0, if s.tgState n = tgOFF then len else 4096, (tag + 1) % 256, 0)
      ∧ (t.portOf n).nvQueue = (if s.tgState n = tgOFF then [] else [(4096, len - 4096)]) ∧ t = { s with port := t.port }))
  ∧ (∀ (n : Fin 4) (b : BlockIn) (s : State), s.zState n = zACTIVE → blkGood b = false → (s.portOf n).nvRead = none →
    (s.portOf n).chal = none → (s.hl n).await = none →
    ∀ c ∈ [Instr.nvBlock n b, .capsBlock n b, .authBlock n b, .senseBlock n b], Does c s (fun t =>
      t.isF (fZTL_PROTO_FLAGS_BLOCK_BAD n) = true
      ∧ t.regN (rZTL_BLOCK_BAD_COUNT n) = min 0xFFFF (s.regN (rZTL_BLOCK_BAD_COUNT n) + 1)
      ∧ Quiet [rZTL_PROTO_FLAGS n, rZTL_BLOCK_BAD_COUNT n] s t))
  ∧ ∀ (n : Fin 4) (s : State), (s.hl n).lifeDue = 2 → (s.hl n).lastCommit = none → s.tileUp n = true → (s.portOf n).nv = none →
    s.lifeUnread n = false → s.nvWindow n = true → (s.portOf n).deferFrom = none → Does (.lifeRecordWrite n) s (fun t => (t.hl n).lifeDue = 0
      ∧ t.isF (fZTL_NV_STATUS_BUSY n) = true ∧ t.isF (fZTL_NV_STATUS_PENDING n) = false
      ∧ (t.portOf n).nv = some { words := leWords (s.lifeBytes n), seq := (s.getF (fZTL_NV_STATUS_LIFE_SEQ n) + 1) % 65536, stage := 1 }
      ∧ t.mem = s.mem)

/-! ### Hosts (R324 to R353) -/

/-- The router's checks of every Holvo record (R334, R335), and the fast path: FLIP, FENCE_SIGNAL (also through its register),
SCHED_WRITE, and POSE, OBJECT_LIST and the program commands 0x80 to 0xBF, which are delivered to the engines (R91, R95, R147, R318).
Where the spec leaves a point open, this follows the model's choice in log 19, 20 and 21. -/
def Obligations.HolvoRouter : Prop :=
  (∀ (i : Instr) (c : Fin 3) (op : Nat) (r : RecIn) (s : State), asRecord i = some (c, op, r) →
    (¬ ChannelUp c s → Does i s (fun t => t = s))
    ∧ (ChannelUp c s → ¬ Fits c r s → Does i s (fun t => t.isF fMSG_ROUTER_FLAGS_RX_FORMAT = true
      ∧ t.regN rMSG_RX_FORMAT_COUNT = min 0xFFFF (s.regN rMSG_RX_FORMAT_COUNT + 1)
      ∧ Quiet [rMSG_ROUTER_FLAGS, rMSG_RX_FORMAT_COUNT] s t))
    ∧ (ChannelUp c s → Fits c r s → r.crcOk = false → Does i s (fun t =>
      t.isF fMSG_ROUTER_FLAGS_RX_CRC = true ∧ t.regN rMSG_RX_CRC_COUNT = min 0xFFFF (s.regN rMSG_RX_CRC_COUNT + 1)
      ∧ Quiet [rMSG_ROUTER_FLAGS, rMSG_RX_CRC_COUNT] s t))
    ∧ (ChannelUp c s → Fits c r s → r.crcOk = true → r.flags.getLsbD 1 = false →
      r.seq ≠ BitVec.ofNat 16 (s.lastSeq c + 1) → Does i s (fun t => Nacked s t ∧ t.lastSeq c = s.lastSeq c
        ∧ (0 < (r.seq - BitVec.ofNat 16 (s.lastSeq c + 1)).toInt → t.isF fMSG_ROUTER_FLAGS_SEQ_GAP = true)))
    ∧ (ChannelUp c s → Fits c r s → r.crcOk = true → r.flags.getLsbD 1 = false →
      r.seq = BitVec.ofNat 16 (s.lastSeq c + 1) → headBad r ≠ none → Does i s (fun t => Nacked s t ∧ t.lastSeq c = r.seq.toNat)))
  ∧ (∀ (c : Fin 3) (k : Fin 16) (n : BitVec 24) (r : RecIn) (s : State), InOrder c r s → n ≠ 0 →
    r.payload = leBytes 1 k ++ leBytes 3 0 ++ leBytes 4 n.toNat → Does (.fenceSignal c r) s (fun t =>
      t.fence k = s.fence k + n.setWidth 32 ∧ t.lastSeq c = r.seq.toNat ∧ t.mem = s.mem))
  ∧ (∀ (v : Word) (s : State), Takes s rMSG_FENCE_SIGNAL → s.locked = false →
    (v >>> 8 ≠ 0 → Does (.fenceSignalWrite v) s (fun t => t.fence (v.toNat % 16) = s.fence (v.toNat % 16) + (v >>> 8)
      ∧ t.mem = s.mem))
    ∧ (v >>> 8 = 0 → Does (.fenceSignalWrite v) s (fun t => t = s)))
  ∧ (∀ (c : Fin 3) (g : Fin 4) (r : RecIn) (s : State), InOrder c r s →
    let p := r.payload
    let mask := fileN p 1 1
    let fence := if fileN p 2 1 = 0xFF then none else some (fileN p 2 1)
    let order := BitVec.ofNat 32 (fileN p 8 4)
    p.length = 16 + 32 * popMask mask → fileN p 0 1 = g.val → fileN p 2 1 < 16 ∨ fileN p 2 1 = 0xFF → fileN p 3 1 = 0 →
    fileN p 12 4 = 0 → s.flipReason .holvo g mask order (flipDescs p mask) = 0 → s.comp.flight = [] → Does (.flip c r) s (fun t =>
      t.getF (fMSG_FLIP_STATUS_COMMIT_SEQ g) = (s.getF (fMSG_FLIP_STATUS_COMMIT_SEQ g) + 1) % 65536
      ∧ t.comp.flight = [(s.time.now, .flip g ⟨mask, flipDescs p mask, order, fence, BitVec.ofNat 32 (fileN p 4 4),
          (s.getF (fMSG_FLIP_STATUS_COMMIT_SEQ g) + 1) % 65536⟩)] ∧ t.mem = s.mem))
  ∧ (∀ (c : Fin 3) (e : Fin 64) (cfg arg period : Word) (tgt : BitVec 64) (r : RecIn) (s : State), InOrder c r s →
    s.entryLocked e = false →
    (r.payload = leBytes 1 e ++ leBytes 1 0 ++ leBytes 2 0 ++ leBytes 4 cfg.toNat ++ leBytes 4 arg.toNat ++ leBytes 4 period.toNat
        ++ leBytes 8 tgt.toNat → cfg.getLsbD 31 = false → Does (.schedWrite c r) s (fun t => t.schedOf e = none
      ∧ t.reg (rTIME_SCHED_ARG e) = arg ∧ t.reg (rTIME_SCHED_PERIOD e) = period
      ∧ t.pair (rTIME_SCHED_TARGET_LO e) (rTIME_SCHED_TARGET_HI e) = tgt.toNat
      ∧ t.isF (fTIME_SCHED_CFG_EN e) = false ∧ t.mem = s.mem))
    ∧ (r.payload.length = 24 → fileN r.payload 0 1 = e.val → fileN r.payload 1 1 = 1 → fileN r.payload 2 2 = 0 →
      Does (.schedWrite c r) s (fun t => t.schedOf e = none ∧ t.isF (fTIME_SCHED_CFG_EN e) = false ∧ t.mem = s.mem)))
  ∧ ∀ (i : Instr) (c : Fin 3) (op : Nat) (r : RecIn) (s : State), asRecord i = some (c, op, r) → InOrder c r s →
    (∀ n m, op = 0x10 ∨ op = 0x11 ∨ 0x80 ≤ op ∧ op < 0xC0 → Clean s → s.owners op ≠ [] → s.targetsOf op = [n] → s.beState n ≠ beOFF →
      s.beState n ≠ beFAULTED → s.freeSlot n = some m →
      let b := holvoBytes (recOut op r)
      b.length ≤ 2032 →
      (s.beState n ≠ beIDLE ∨ s.getF (fBE_JOB_TRIG_SRC n) ≠ 2 → Does i s (fun t => (t.eng n).slots = (s.eng n).slots ++ [(m, false)]
        ∧ t.bytes (ldBase n + slotAddr m) (16 + b.length) = leBytes 8 s.lampNs ++ leBytes 4 b.length ++ leBytes 4 0 ++ b
        ∧ ∀ x, x < ldBase n + slotAddr m ∨ ldBase n + slotAddr m + (16 + b.length) ≤ x → t.byte x = s.byte x))
      ∧ (s.beState n = beIDLE → s.getF (fBE_JOB_TRIG_SRC n) = 2 → s.beGated = false → (s.eng n).next = none →
        Does i s (fun t => t.beState n = beRUN ∧ (t.eng n).jobSrc = 2
          ∧ t.bytes (ldBase n + slotAddr m) (16 + b.length) = leBytes 8 s.lampNs ++ leBytes 4 b.length ++ leBytes 4 0 ++ b)))
    ∧ (op = 0x10 ∨ op = 0x11 ∨ 0x80 ≤ op ∧ op < 0xC0 → r.payload.length ≤ 2020 → s.owners op = [] →
      Does i s (fun t => Nacked s t ∧ t.lastSeq c = r.seq.toNat))
    ∧ (op < 0x40 → op ∉ [0x01, 0x02, 0x04, 0x10, 0x11] → Does i s (fun t => Nacked s t ∧ t.lastSeq c = r.seq.toNat))

/-- The firmware's commands (R336): PING, STATE_REQ, REG_READ, REG_WRITE, STAGE_DATA, UPDATE_CMD, EVT_STREAM, SPOOL_CMD, SPOOL_READ,
SAK_INSTALL, PWR_REQUEST, HEALTH_CMD, the diagnostics and unknown opcodes. The key's place in SAK_INSTALL is log 41's choice, what a
diagnostic answers log 42's. Where the spec leaves a point open, this follows the model's choice in log 23 and 24. -/
def Obligations.HolvoFirmware : Prop :=
  (∀ (i : Instr) (c : Fin 3) (op : Nat) (r : RecIn) (s : State), asRecord i = some (c, op, r) → fastOp op = false → InOrder c r s →
    (s.fwServes = false → s.host.fwq.length < 256 → Does i s (fun t => t.host.fwq = s.host.fwq ++ [(c.val, recOut op r)]
      ∧ Quiet [rMSG_LAST_ACCEPTED_SEQ c] { s with host := t.host } t))
    ∧ (256 ≤ s.host.fwq.length → Does i s (fun t => Nacked s t ∧ t.host.fwq = s.host.fwq))
    ∧ (FwReady s → op ∉ [0x40, 0x41, 0x42, 0x43, 0x44, 0x45, 0x46, 0x47, 0x48, 0x49, 0x50, 0x51] → op < 0xC0 ∨ 0xE0 ≤ op →
      Does i s (fun t => Nacked s t ∧ t.host.fwq = [])))
  ∧ (∀ (r : RecIn) (s : State), InOrder 2 r s → FwReady s → s.host.replies.length < 8 →
    (r.payload = [] → Does (.ping 2 r) s (fun t => t.host.replies = s.host.replies ++ [replyRec s r 0x40 0 0 []]
        ∧ Quiet [rMSG_LAST_ACCEPTED_SEQ 2, rMSG_TX_SEQ 2] { s with host := t.host } t)
      ∧ Does (.stateReq 2 r) s (fun t => (∃ x, t.host.replies = s.host.replies ++ [x] ∧ x.opcode = 0xE2 ∧ x.ref = r.seq.toNat
          ∧ x.payload.take 2 = leBytes 2 r.seq.toNat ∧ x.payload.length = 40)
        ∧ Quiet [rMSG_LAST_ACCEPTED_SEQ 2, rMSG_TX_SEQ 2] { s with host := t.host } t))
    ∧ (∀ off k : Nat, off < 2 ^ 32 → 0 < k → k ≤ 64 → r.payload = leBytes 4 off ++ leBytes 4 k → Does (.regRead 2 r) s (fun t =>
      t.host.replies = s.host.replies ++ [replyRec s r 0x42 0 0 (wordBytes ((recTaken 2 r s).readWords msFW off 4 k).1)]))
    ∧ (∀ first k : Nat, first < 2 ^ 32 → 0 < k → k ≤ 16 → r.payload = leBytes 4 first ++ leBytes 4 k → Does (.spoolRead 2 r) s (fun t =>
      t.host.replies = s.host.replies ++ [replyRec s r 0x48 0 0 ((recTaken 2 r s).spRead first k).1]))
    ∧ (∀ (p a : Fin 2) (tx xpn : Bool) (ssci : Word) (salt key : List Byte), key.length = 16 ∨ key.length = 32 → salt.length = 12 →
      r.payload = leBytes 1 p ++ leBytes 1 tx.toNat ++ leBytes 1 a ++ leBytes 1 xpn.toNat
        ++ (if xpn then leBytes 4 ssci.toNat ++ salt else []) ++ key → Does (.sakInstall 2 r) s (fun t =>
        let x : SecA := ⟨p, tx, a, key, xpn, if xpn then ssci.toNat else 0, if xpn then salt else [], 1⟩
        t.host.secs = s.host.secs.filter (fun b => !sameSec x b) ++ [x] ∧ t.mem = s.mem))
    ∧ ∀ op : Fin 32, (s.loader.cfg.ho.diagnostics = true → Does (.diagnostics 2 op r) s (fun t => t.draws = s.draws + 1
        ∧ t.host.replies = s.host.replies ++ [replyRec s r (0xC0 + op.val) 0 0 (wordBytes [Config.freeWord s.draws])]))
      ∧ (s.loader.cfg.ho.diagnostics = false → Does (.diagnostics 2 op r) s (fun t => Nacked s t ∧ t.draws = s.draws)))
  ∧ ∀ (c : Fin 3) (r : RecIn) (s : State), InOrder c r s → FwReady s →
    (∀ (off : BitVec 24) (v : Word), r.payload = leBytes 4 off.toNat ++ leBytes 4 v.toNat →
      ∃ u, exec (.registerWrite off v) (recTaken c r s) = .next u ∧ Does (.regWrite c r) s (fun t => t.mem = u.mem
        ∧ ∀ o, o ∉ replyRegs c → o ∉ evRegs → t.reg o = u.reg o))
    ∧ (∀ (i : Instr) (op : Nat) (off : BitVec 24) (v : Word), asRecord i = some (c, op, r) → (op, off) ∈ wordRecords →
      r.payload = leBytes 4 v.toNat → ∃ u, exec (.registerWrite off v) (recTaken c r s) = .next u ∧ Does i s (fun t => t.mem = u.mem
        ∧ ∀ o, o ∉ replyRegs c → o ∉ evRegs → t.reg o = u.reg o))
    ∧ (4 ≤ r.payload.length →
      (s.bsState ≠ bsRUNNING → Does (.holvoStageData c r) s (fun t =>
        t.getF fBSTREAM_UPDATE_STATUS_ERR_CODE = errNotPermitted ∧ t.loader = s.loader ∧ t.mem = s.mem))
      ∧ (s.bsState = bsRUNNING → Does (.holvoStageData c r) s (fun t =>
        let u := (recTaken c r s).stageBytes (fileN r.payload 0 4) (r.payload.drop 4)
        t.mem = u.mem ∧ t.loader = u.loader ∧ t.updState = u.updState)))
    ∧ ∀ (on : Bool) (p : Fin 2), r.payload = leBytes 1 on.toNat ++ leBytes 1 p ++ leBytes 2 0 → Does (.evtStream c r) s (fun t =>
      t.hamper.stream = s.hamper.stream.set p on ∧ t.mem = s.mem)

/-- The links: SPI frames and the mailboxes (R331, R332), Ethernet frames (R325 to R327), CAN (R329, R330), each form with its effect,
what it leaves, and when it is none. Where the spec leaves a point open, this follows the model's choice in log 16, 27, 28, 29, 48, 51,
178 and 179. -/
def Obligations.HostLinks : Prop :=
  (∀ (off : BitVec 24) (ws : List Word) (n : Fin 512) (b : Byte) (fin : SpiEnd) (s : State),
    (s.boot.porst = false → ∀ c ∈ [Instr.spiWrite off ws fin, .spiWriteFixed off ws fin, .spiRead off n fin, .spiReadFixed off n fin,
        .mboxWrite ws fin, .mboxRead n fin, .spiUnknownCommand b], Does c s (fun t => t = s))
    ∧ (s.boot.porst = true →
      (∀ c ∈ [Instr.spiWrite off ws .headerCrc, .spiWriteFixed off ws .headerCrc, .spiRead off n .headerCrc,
          .spiReadFixed off n .headerCrc, .mboxWrite ws .headerCrc, .mboxRead n .headerCrc], Does c s (fun t =>
        t.getF fHOSTIF_SPI_STATUS_RESULT = 1 ∧ t.regN rHOSTIF_SPI_CRC_COUNT = min 0xFFFF (s.regN rHOSTIF_SPI_CRC_COUNT + 1)
        ∧ Quiet [rHOSTIF_SPI_STATUS, rHOSTIF_SPI_CRC_COUNT] { s with host := { s.host with miso := s.spiHead, misoFill := true } } t))
      ∧ (∀ c ∈ [Instr.spiWrite off ws .dataCrc, .spiWriteFixed off ws .dataCrc, .mboxWrite ws .dataCrc], Does c s (fun t =>
        t.getF fHOSTIF_SPI_STATUS_RESULT = 2 ∧ t.regN rHOSTIF_SPI_CRC_COUNT = min 0xFFFF (s.regN rHOSTIF_SPI_CRC_COUNT + 1)
        ∧ Quiet [rHOSTIF_SPI_STATUS, rHOSTIF_SPI_CRC_COUNT] { s with host := { s.host with miso := s.spiHead, misoFill := false } } t))
      ∧ (∀ c ∈ [Instr.spiWrite off ws .early, .spiWriteFixed off ws .early, .mboxWrite ws .early], Does c s (fun t =>
        t.getF fHOSTIF_SPI_STATUS_RESULT = 5
        ∧ Quiet [rHOSTIF_SPI_STATUS] { s with host := { s.host with miso := s.spiHead, misoFill := false } } t))
      ∧ (∀ q ∈ [(Instr.spiWrite off ws .ok, 4), (.spiWriteFixed off ws .ok, 0)], Does q.1 s (fun t =>
          let u := (s.wakeNote 6).writeWords off.toNat q.2 ws
          t = { u with host := { u.host with miso := s.spiHead, misoFill := false }, regs := t.regs }
          ∧ (∀ o, o ≠ rHOSTIF_SPI_STATUS → t.reg o = u.reg o)
          ∧ t.getF fHOSTIF_SPI_STATUS_RESULT = (if (spiOffs off.toNat q.2 ws.length).any s.offBad then 3 else 0)))
      ∧ (fin = .ok ∨ fin = .dataCrc → ∀ q ∈ [(Instr.spiRead off n fin, 4), (.spiReadFixed off n fin, 0)], Does q.1 s (fun t =>
          let u := (s.wakeNote 6).readWords msSPI off.toNat q.2 (n + 1)
          t = { u.2 with host := { u.2.host with miso := s.spiHead ++ wordBytes u.1 ++ [crc8 (wordBytes u.1)], misoFill := false },
                         regs := t.regs }
          ∧ (∀ o, o ≠ rHOSTIF_SPI_STATUS → t.reg o = u.2.reg o)
          ∧ t.getF fHOSTIF_SPI_STATUS_RESULT = (if (spiOffs off.toNat q.2 (n + 1)).any s.offBad then 3 else 0)))
      ∧ (∀ q ∈ [(Instr.spiRead off n .early, 4), (.spiReadFixed off n .early, 0)], Does q.1 s (fun t => ∃ k ≤ n.val + 1,
          let u := { s.wakeNote 6 with draws := s.draws + 1 }.readWords msSPI off.toNat q.2 k
          t = { u.2 with host := { u.2.host with miso := s.spiHead ++ wordBytes u.1, misoFill := false }, regs := t.regs }
          ∧ (∀ o, o ≠ rHOSTIF_SPI_STATUS → t.reg o = u.2.reg o) ∧ t.getF fHOSTIF_SPI_STATUS_RESULT = 5))
      ∧ Does (.mboxWrite ws .ok) s (fun t => t.getF fHOSTIF_SPI_STATUS_RESULT = (if s.host.mbox.length < 4 then 0 else 6)
          ∧ (let mbox := if s.host.mbox.length < 4 then s.host.mbox ++ [wordBytes ws] else s.host.mbox
             Quiet [rHOSTIF_SPI_STATUS] { s with host := { s.host with miso := s.spiHead, misoFill := false, mbox := mbox } } t))
      ∧ (fin = .ok ∨ fin = .dataCrc → Does (.mboxRead n fin) s (fun t => t.getF fHOSTIF_SPI_STATUS_RESULT = 0
          ∧ (let d := ((s.host.replies.head?.map holvoBytes).getD [] ++ List.replicate (4 * (n.val + 1)) 0#8).take (4 * (n.val + 1))
             let replies := s.host.replies.drop 1
             Quiet [rHOSTIF_SPI_STATUS]
              { s with host := { s.host with miso := s.spiHead ++ d ++ [crc8 d], misoFill := false, replies := replies } } t)))
      ∧ Does (.mboxRead n .early) s (fun t => t.getF fHOSTIF_SPI_STATUS_RESULT = 5 ∧ ∃ k ≤ 1,
          let host := { s.host with miso := s.spiHead, misoFill := false, replies := s.host.replies.drop k }
          Quiet [rHOSTIF_SPI_STATUS] { s with draws := s.draws + 1, host := host } t)
      ∧ Does (.spiUnknownCommand b) s (fun t => t.getF fHOSTIF_SPI_STATUS_RESULT = 4
          ∧ Quiet [rHOSTIF_SPI_STATUS] { s with host := { s.host with miso := s.spiHead, misoFill := false } } t)))
  ∧ (∀ (p : Fin 2) (f : EthIn) (s : State),
    (s.boot.porst = false ∨ s.ethUp p = false → Does (.ethFrameRx p f) s (fun t => t = s))
    ∧ (s.boot.porst = true → s.ethUp p = true →
      let dst := beAt f.frame 0 6
      let size := f.frame.length + 4
      let fits := f.fcsOk = true ∧ 64 ≤ size ∧ size ≤ s.getF (fHOSTIF_ETH_CFG_MAX_FRAME p)
      let u := if s.ownMac p dst then s.wakeNote 5 else s
      (¬ fits → Does (.ethFrameRx p f) s (fun t =>
        t.regN (rHOSTIF_ETH_RX_ERR p) = min 0xFFFF (s.regN (rHOSTIF_ETH_RX_ERR p) + 1) ∧ Quiet [rHOSTIF_ETH_RX_ERR p] s t))
      ∧ (fits → s.ethFilter p dst = false → Does (.ethFrameRx p f) s (fun t => t = s))
      ∧ (fits → s.ethFilter p dst = true → u.macsecIn p f.frame = none → Does (.ethFrameRx p f) s (fun t =>
        t.regN (rHOSTIF_ETH_MACSEC_ERR p) = min 0xFFFF (s.regN (rHOSTIF_ETH_MACSEC_ERR p) + 1) ∧ Quiet [rHOSTIF_ETH_MACSEC_ERR p] s t))
      ∧ (∀ (d : List Byte) (v : State), fits → s.ethFilter p dst = true → u.macsecIn p f.frame = some (d, v) →
        (dst = 0xFFFFFFFFFFFF → isArp (frameBody d) = false → Does (.ethFrameRx p f) s (fun t => t = v))
        ∧ (frameBody d = .other → Does (.ethFrameRx p f) s (fun t => t = v))
        ∧ (∀ (st : Nat) (ms : List (Nat × List Byte)), frameBody d = .ntscf st ms → dst ≠ 0xFFFFFFFFFFFF →
          Does (.ethFrameRx p f) s (fun t => t =
            if st ∈ s.loader.cfg.ho.streamIds then (ms.filter (fun m => m.1 = s.loader.cfg.ho.gpcMsgId)).foldl
              (fun w m => w.routeBytes p m.2 (m.2.length + 1)) { v with host := { v.host with peer := v.host.peer.set p none } }
            else v))
        ∧ (∀ (ip port srcIp srcPort : Nat) (bs : List Byte), frameBody d = .udp ip port srcIp srcPort bs → dst ≠ 0xFFFFFFFFFFFF →
          Does (.ethFrameRx p f) s (fun t => t =
            if s.loader.cfg.ho.bench = true ∧ ip = s.loader.cfg.ho.ip ∧ port = s.loader.cfg.ho.udpPort then
              { v with host := { v.host with peer := v.host.peer.set p (some (beAt f.frame 6 6, srcIp, srcPort)) } }.routeBytes p bs
                (bs.length + 1)
            else v))
        ∧ (∀ ip mac srcIp : Nat, frameBody d = .arp ip mac srcIp → Does (.ethFrameRx p f) s (fun t => t =
            if s.loader.cfg.ho.bench = true ∧ ip = s.loader.cfg.ho.ip then v.ethOut p (.arpReply mac srcIp) else v))
        ∧ (∀ (ip srcIp : Nat) (bs : List Byte), frameBody d = .echo ip srcIp bs → dst ≠ 0xFFFFFFFFFFFF →
          Does (.ethFrameRx p f) s (fun t => t =
            if s.loader.cfg.ho.bench = true ∧ ip = s.loader.cfg.ho.ip ∧ s.ownMac p dst = true then
              v.ethOut p (.echoReply (beAt f.frame 6 6) srcIp bs)
            else v)))))
  ∧ (∀ (p : Fin 2) (up : Bool) (s : State),
    (s.boot.porst = true → s.isF (fHOSTIF_ETH_CFG_EN p) = true → s.isF (fHOSTIF_ETH_STATUS_LINK p) ≠ up →
      Does (.ethLink p up) s (fun t => t.isF (fHOSTIF_ETH_STATUS_LINK p) = up ∧ Quiet [rHOSTIF_ETH_STATUS p] s t))
    ∧ (s.boot.porst = false ∨ s.isF (fHOSTIF_ETH_CFG_EN p) = false ∨ s.isF (fHOSTIF_ETH_STATUS_LINK p) = up →
      Does (.ethLink p up) s (fun t => t = s)))
  ∧ (∀ (c : Fin 2) (x : CanRx) (s : State), s.canOn c = false → Does (.lampReq c x) s (fun t => t = s))
  ∧ (∀ (c : Fin 2) (s : State), s.canOn c = true →
    let rec_ := s.getF (fHOSTIF_CAN_STATUS_REC c)
    (∀ eight : Bool, Does (.lampReq c (.error eight)) s (fun t =>
      t.getF (fHOSTIF_CAN_STATUS_REC c) = min 255 (rec_ + if eight then 8 else 1) ∧ Quiet [rHOSTIF_CAN_STATUS c] s t))
    ∧ ∀ (id : CanId) (b : List Byte),
      let Counted := fun t : State => if rec_ ≤ 127 then t.getF (fHOSTIF_CAN_STATUS_REC c) = rec_ - 1 ∧ t.draws = s.draws
        else 119 ≤ t.getF (fHOSTIF_CAN_STATUS_REC c) ∧ t.getF (fHOSTIF_CAN_STATUS_REC c) ≤ 127 ∧ t.draws = s.draws + 1
      (id ≠ s.loader.cfg.ho.canReqId.getD c {} → Does (.lampReq c (.frame id b)) s (fun t => Counted t
        ∧ Quiet [rHOSTIF_CAN_STATUS c] { s with draws := t.draws } t))
      ∧ (id = s.loader.cfg.ho.canReqId.getD c {} → canValid (s.canOf c).last b = false →
        Does (.lampReq c (.frame id b)) s (fun t => Counted t
          ∧ t.regN (rHOSTIF_CAN_BAD_COUNT c) = min 0xFFFF (s.regN (rHOSTIF_CAN_BAD_COUNT c) + 1)
          ∧ Quiet [rHOSTIF_CAN_STATUS c, rHOSTIF_CAN_BAD_COUNT c] { s with draws := t.draws } t))
      ∧ (id = s.loader.cfg.ho.canReqId.getD c {} → canValid (s.canOf c).last b = true → c.val < s.host.can.length →
        Does (.lampReq c (.frame id b)) s (fun t => Counted t ∧ t.isF (fHOSTIF_CAN_STATUS_ALIVE c) = true
          ∧ t.isF (fHOSTIF_CAN_STATUS_LATCHED c) = (if (s.canOf c).prev = some ((fileN b 2 1).testBit 0) then (fileN b 2 1).testBit 0
              else s.isF (fHOSTIF_CAN_STATUS_LATCHED c))
          ∧ t.canOf c = { last := some (fileN b 1 1 % 16), prev := some ((fileN b 2 1).testBit 0) }
          ∧ t.mem = s.mem ∧ t.be = s.be ∧ t.port = s.port)))
  ∧ (∀ (c : Fin 2) (s : State),
    (s.boot.porst = false → ∀ i ∈ [Instr.canLost c, .canBusOff c, .busOffRecovery c], Does i s (fun t => t = s))
    ∧ (s.isF (fHOSTIF_CAN_STATUS_BUS_OFF c) = false → Does (.busOffRecovery c) s (fun t => t = s))
    ∧ (s.boot.porst = true →
      Does (.canLost c) s (fun t => t.isF (fHOSTIF_CAN_STATUS_ALIVE c) = false
        ∧ t.isF (fHOSTIF_CAN_STATUS_LATCHED c) = s.isF (fHOSTIF_CAN_STATUS_LATCHED c) ∧ Quiet [rHOSTIF_CAN_STATUS c] s t)
      ∧ Does (.canBusOff c) s (fun t => t.isF (fHOSTIF_CAN_STATUS_BUS_OFF c) = true ∧ t.getF (fHOSTIF_CAN_STATUS_TEC c) = 255
        ∧ Quiet [rHOSTIF_CAN_STATUS c] s t)
      ∧ (s.isF (fHOSTIF_CAN_STATUS_BUS_OFF c) = true → Does (.busOffRecovery c) s (fun t =>
        t.isF (fHOSTIF_CAN_STATUS_BUS_OFF c) = false ∧ t.getF (fHOSTIF_CAN_STATUS_TEC c) = 0 ∧ t.getF (fHOSTIF_CAN_STATUS_REC c) = 0
        ∧ Quiet [rHOSTIF_CAN_STATUS c] s t))))
  ∧ ∀ (f0 f1 : Nat) (s : State),
    (s.boot.porst = false → Does (.lampAlarm f0 f1) s (fun t => t = s))
    ∧ (s.boot.porst = true → Does (.lampAlarm f0 f1) s (fun t =>
      let body := leBytes 1 (s.host.alive % 16 + 16 * s.lampSs) ++ s.alarmBytes ++ leBytes 1 0
      let fails := fun c : Fin 2 => if c = 0 then f0 else f1
      let sends := fun c : Fin 2 => s.isF (fHOSTIF_CAN_STATUS_BUS_OFF c) = false ∧ s.getF (fHOSTIF_CAN_STATUS_TEC c) + 8 * fails c ≤ 255
      t.host = { s.host with alive := (s.host.alive + 1) % 16, alarms := s.host.alarms
          ++ (([0, 1] : List (Fin 2)).filter (fun c => decide (sends c))).map (fun c : Fin 2 => (c.val, s.loader.cfg.ho.canAlarmId.getD c {}, crc8 body :: body)) }
      ∧ (∀ c : Fin 2, (s.isF (fHOSTIF_CAN_STATUS_BUS_OFF c) = true → t.reg (rHOSTIF_CAN_STATUS c) = s.reg (rHOSTIF_CAN_STATUS c))
        ∧ (sends c → t.getF (fHOSTIF_CAN_STATUS_TEC c) = s.getF (fHOSTIF_CAN_STATUS_TEC c) + 8 * fails c - 1
          ∧ t.isF (fHOSTIF_CAN_STATUS_BUS_OFF c) = false)
        ∧ (s.isF (fHOSTIF_CAN_STATUS_BUS_OFF c) = false → ¬ sends c →
          t.getF (fHOSTIF_CAN_STATUS_TEC c) = 255 ∧ t.isF (fHOSTIF_CAN_STATUS_BUS_OFF c) = true))
      ∧ ((∀ c : Fin 2, s.isF (fHOSTIF_CAN_STATUS_BUS_OFF c) = true ∨ sends c) → t.hamper.dropSinceAlarm = false)
      ∧ Quiet [rHOSTIF_CAN_STATUS 0, rHOSTIF_CAN_STATUS 1] { s with host := t.host } t))

/-- Hamper (R341 to R345): acceptance, EVT_POP, EVT_SKIP, the owner, EVENTS; and the Spool ring (R346 to R348). Where the spec leaves a
point open, this follows the model's choice in log 37, 38, 47 and 49. -/
def Obligations.EventsAndSpool : Prop :=
  (∀ s : State, (s.hamper.outbox = [] → Does .hamperAccept s (fun t => t = s))
    ∧ (∀ c, pickEv s.hamper.outbox = some c → s.slotFree c.2.kind.prio = true → s.injectArmed 7 = false → s.hamper.boxHurt = [] →
      Does .hamperAccept s (fun t => t.hamper.held = s.hamper.held ++ [(s.regN rMSG_EVT_SEQ_NEXT, c.2)]
        ∧ t.hamper.outbox = s.hamper.outbox.erase c ∧ t.regN rMSG_EVT_SEQ_NEXT = (s.regN rMSG_EVT_SEQ_NEXT + 1) % 65536
        ∧ Quiet [] s t)))
  ∧ (∀ (spi : Bool) (s : State),
    (s.getF fMSG_EVT_CFG_OWNER ≠ spi.toNat → Does (.evtPop spi) s (fun t => t = { s with rdata := 0 }))
    ∧ (∀ w l, s.getF fMSG_EVT_CFG_OWNER = spi.toNat → s.hamper.packet = w :: l → Does (.evtPop spi) s (fun t =>
      t = { s with rdata := w, hamper := { s.hamper with packet := l } }))
    ∧ (s.getF fMSG_EVT_CFG_OWNER = spi.toNat → s.hamper.packet = [] → s.hamper.held = [] → s.hamper.summary = none →
      Does (.evtPop spi) s (fun t => t = { s with rdata := 0 }))
    ∧ (∀ c u, s.getF fMSG_EVT_CFG_OWNER = spi.toNat → s.hamper.packet = [] → s.evtHead = (some c, u) → s.hamper.hurt = [] →
      Does (.evtPop spi) s (fun t => t.hamper = { u.hamper with packet := evWords c.1 c.2 }
        ∧ t.rdata = BitVec.ofNat 32 (2 ^ 31 + 4 * 2 ^ 28 + 2 ^ 11 * min 1023 u.hamper.held.length) ∧ t.regs = s.regs ∧ t.mem = s.mem)))
  ∧ (∀ s : State, Takes s rMSG_EVT_SKIP → Does .evtSkip s (fun t => t = { s with hamper := { s.hamper with packet := [] } }))
  ∧ (∀ (v : Word) (s : State), s.boot.porst = true → s.locked = false → Does (.evtOwnerWrite v) s (fun t => t.getF fMSG_EVT_CFG_OWNER = v.toNat % 2
      ∧ t.getF fMSG_EVT_CFG_AUTO_TAKEOVER = v.toNat / 256 % 2
      ∧ t.hamper.packet = (if v.toNat % 2 = s.getF fMSG_EVT_CFG_OWNER then s.hamper.packet else [])
      ∧ Quiet [rMSG_EVT_CFG] s t))
  ∧ (∀ s : State, (s.fwRuns = false ∨ s.hamper.stream.any id = false → Does .eventsSend s (fun t => t = s))
    ∧ (s.fwRuns = true → s.hamper.stream.any id = true → s.getF fMSG_EVT_CFG_OWNER = 1 → s.eventsDue = true →
      Does .eventsSend s (fun t => t.hamper.waiting = [] ∧ t.hamper.waitFrom = none ∧ t.hamper.losses = 0
        ∧ t.hamper.held = s.hamper.held ∧ t.mem = s.mem)))
  ∧ (∀ s : State, (s.spool.buf = [] → Does .spoolWrite s (fun t => t = s))
    ∧ (∀ r l, s.spool.buf = r :: l → s.spool.hurt = [] →
      (s.spState = spOFF → Does .spoolWrite s (fun t => t = s))
      ∧ (s.spState = spFROZEN → 0 < s.spCap → Does .spoolWrite s (fun t =>
        t.regN rMSG_SP_FROZEN_DROP_COUNT = min 0xFFFF (s.regN rMSG_SP_FROZEN_DROP_COUNT + 1) ∧ t.spool = { s.spool with buf := l }
        ∧ t.mem = s.mem))
      ∧ (s.spState = spRECORDING → s.spool.ring.length < s.spCap → Clean s → Does .spoolWrite s (fun t =>
        let a := s.spBase + s.regN rMSG_SP_WR_PTR
        t.bytes a 64 = spRecord r ∧ (∀ x, x < a ∨ a + 64 ≤ x → t.byte x = s.byte x)
        ∧ t.spool = { s.spool with buf := l, ring := s.spool.ring ++ [r.seq] }
        ∧ t.regN rMSG_SP_WR_PTR = (s.regN rMSG_SP_WR_PTR + 64) % s.spBytes ∧ t.regN rMSG_SP_SEQ_NEWEST = r.seq % 2 ^ 32))))
  ∧ (∀ s : State, Takes s rMSG_SP_CMD →
    (s.spool.ring = [] → ∀ c ∈ [Instr.spOldest, .spNext], Does c s (fun t => t = s))
    ∧ (∀ i, s.spIndex (s.regN rMSG_SP_RD_PTR) = i → i + 1 < s.spool.ring.length → Clean s → Does .spNext s (fun t =>
      t.regN rMSG_SP_RD_PTR = s.spOff (i + 1) % 2 ^ 32
      ∧ (∀ k, k < 16 → t.reg (rMSG_SP_WIN k) = nth 0#32 (leWords (s.bytes (s.spBase + s.spOff (i + 1)) 64)) k) ∧ t.mem = s.mem))
    ∧ (s.spool.ring ≠ [] → Clean s → Does .spOldest s (fun t => t.regN rMSG_SP_RD_PTR = s.spOff 0 % 2 ^ 32
      ∧ (∀ k, k < 16 → t.reg (rMSG_SP_WIN k) = nth 0#32 (leWords (s.bytes (s.spBase + s.spOff 0) 64)) k) ∧ t.mem = s.mem))
    ∧ (s.spState ≠ spOFF → Does .spSetMark s (fun t => t.reg rMSG_SP_MARK_PTR = s.reg rMSG_SP_RD_PTR
      ∧ t.isF fMSG_SP_STATUS_MARK_VALID = true ∧ Quiet [rMSG_SP_MARK_PTR, rMSG_SP_STATUS] s t))
    ∧ (s.spState ≠ spOFF → s.isF fMSG_SP_STATUS_MARK_VALID = true → Clean s → Does .spRewind s (fun t =>
      t.reg rMSG_SP_RD_PTR = s.reg rMSG_SP_MARK_PTR ∧ t.mem = s.mem))
    ∧ (s.spState ≠ spOFF → s.isF fMSG_SP_STATUS_MARK_VALID = false → Clean s → Does .spRewind s (fun t =>
      t.isF fMSG_SP_STATUS_REWIND_FAIL = true ∧ t.mem = s.mem))
    ∧ (s.spState = spRECORDING → Does .spFreeze s (fun t => t.spState = spPOST ∧ t.getF fMSG_SP_STATUS_TRIG_SRC = 5
      ∧ t.spool.sinceTrig = 0 ∧ t.mem = s.mem))
    ∧ (s.spState ≠ spRECORDING → Does .spFreeze s (fun t => t = s))
    ∧ (s.spState = spFROZEN → Does .spRearm s (fun t => t.spState = spRECORDING ∧ Quiet [rMSG_SP_STATUS] s t))
    ∧ (s.spState = spOFF → ∀ c ∈ [Instr.spSetMark, .spRewind, .spRearm], Does c s (fun t => t = s)))
  ∧ ∀ s : State, (s.spState = spPOST → Does .spFrozen s (fun t => t.spState = spFROZEN ∧ Quiet [rMSG_SP_STATUS] s t))
    ∧ (s.spState ≠ spPOST → Does .spFrozen s (fun t => t = s))

/-! ### The safety plane (R354 to R377, R457) -/

/-- Channels, acknowledgement, statistics records, switches and the fallback's timer (R355, R356, R361, R364, R371 to R376, R457). Where
the spec leaves a point open, this follows the model's choice in log 6, 97, 99 and 152. -/
def Obligations.SafetyChannels : Prop :=
  (∀ (tt : Bool) (v : BitVec 8) (n : Fin 2) (k : Fin 4) (a b : Bool) (s : State), s.boot.porst = false →
    ∀ c ∈ [Instr.channelLost tt, .statsRecord k a, .encoderEdge n tt a b, .sinSample tt v, .switchReadbackTimeout k a b],
      Does c s (fun t => t = s))
  ∧ (∀ (tt : Bool) (s : State), s.boot.porst = true → Does (.channelLost tt) s (fun t =>
      (t.regN (if tt then rSAFETY_FAULT_TT else rSAFETY_FAULT_SC)).testBit 13 = true ∧ (∀ n, n < s.tiles → 1 ≤ t.ssOf n) ∧ t.mem = s.mem))
  ∧ (∀ s : State, Does .lockstepMismatch s (fun t =>
      t = { s with safe := { s.safe with pose := none, consent := none, ack := none } }))
  ∧ (∀ (mask : Word) (s : State), Takes s rSAFETY_ACK_SC → Does (.ackSc mask) s (fun t =>
      t = { s with safe := { s.safe with ack := some (mask.toNat, s.time.now) } }))
  ∧ (∀ (v mask : Word) (from_ : Nat) (s : State), Takes s rSAFETY_ACK_TT →
    (s.safe.ack = none ∨ s.safe.ack = some (mask.toNat, from_) ∧ (v ≠ ~~~mask ∨ from_ + ticksMs 10 < s.time.now) →
      Does (.ackTt v) s (fun t => t.safe.ack = none ∧ t.isF fSAFETY_FLAGS_ACK_REFUSED = true
        ∧ Quiet [rSAFETY_FLAGS, rSAFETY_ACK_REFUSED_COUNT] { s with safe := t.safe } t))
    ∧ (s.safe.ack = some (mask.toNat, from_) → v = ~~~mask → s.time.now ≤ from_ + ticksMs 10 → (nth {} s.safe.sinTt 1).normal = false →
      let held := s.faults &&& mask.toNat &&& 0xFFFFF
      (∀ b, b < 20 → held.testBit b = true → s.persists b = false) → Does (.ackTt v) s (fun t => t.safe.ack = none
        ∧ t.regN rSAFETY_FAULT_SC = s.regN rSAFETY_FAULT_SC &&& (0xFFFFFFFF ^^^ held)
        ∧ t.regN rSAFETY_FAULT_TT = s.regN rSAFETY_FAULT_TT &&& (0xFFFFFFFF ^^^ held) ∧ t.mem = s.mem)))
  ∧ (∀ s : State, (s.safe.ack = none → Does .ackWindowExpiry s (fun t => t = s))
    ∧ ∀ m from_, s.safe.ack = some (m, from_) →
      (from_ + ticksMs 10 < s.time.now → Does .ackWindowExpiry s (fun t => t.safe = { s.safe with ack := none }
        ∧ t.isF fSAFETY_FLAGS_ACK_REFUSED = true ∧ Quiet [rSAFETY_FLAGS, rSAFETY_ACK_REFUSED_COUNT] { s with safe := t.safe } t))
      ∧ (s.time.now ≤ from_ + ticksMs 10 → Does .ackWindowExpiry s (fun t => t = s)))
  ∧ (∀ (n : Fin 4) (s : State), s.boot.porst = true →
    (∀ ok : Bool, (s.safeT n).record = none → Does (.statsRecord n ok) s (fun t => t = s))
    ∧ ∀ r, (s.safeT n).record = some r →
      (∀ ok : Bool, s.tgState n = tgOFF → Does (.statsRecord n ok) s (fun t => t.safeT n = { s.safeT n with record := none }
        ∧ t = { s with safeTile := t.safeTile }))
      ∧ (s.tgState n ≠ tgOFF → Does (.statsRecord n true) s (fun t => (t.safeT n).record = none ∧ (t.safeT n).missed = false
        ∧ (t.safeT n).bandsNext = r.bands ∧ t.mem = s.mem))
      ∧ (s.tgState n ≠ tgOFF → (s.safeT n).missed = false → Does (.statsRecord n false) s (fun t =>
        t.safeT n = { s.safeT n with missed := true, scOk := false, record := none } ∧ t.isF fSAFETY_FLAGS_STATS_MISSING = true
        ∧ Quiet [rSAFETY_FLAGS, rSAFETY_STATS_MISSING_COUNT] { s with safeTile := t.safeTile } t)))
  ∧ (∀ s : State, (s.safe.stream = true → s.safe.streamT + s.holdTicks ≤ s.time.now → Does .ss1HoldExpiry s (fun t =>
      t.safe.stream = false ∧ t.mem = s.mem))
    ∧ (s.time.now < s.safe.streamT + s.holdTicks → Does .ss1HoldExpiry s (fun t => t = s)))
  ∧ (∀ (n : Fin 4) (hs ls : Bool) (s : State), s.boot.porst = true → (s.safeT n).test = none →
    (hs = (s.safeT n).hs → ls = (s.safeT n).ls →
      Does (.switchReadbackTimeout n hs ls) s (fun t =>
        t.safeT n = { s.safeT n with hsFb := hs, hsFbT := hs, lsFb := ls, lsFbT := ls } ∧ t = { s with safeTile := t.safeTile }))
    ∧ (hs ≠ (s.safeT n).hs ∨ ls ≠ (s.safeT n).ls → n < s.tiles →
      Does (.switchReadbackTimeout n hs ls) s (fun t => (t.regN rSAFETY_FAULT_SC).testBit (7 + n.val) = true
        ∧ (t.regN rSAFETY_FAULT_TT).testBit (7 + n.val) = true ∧ t.isF fSAFETY_FLAGS_SWITCH_FAIL = true ∧ 2 ≤ t.ssOf n ∧ t.mem = s.mem)))
  ∧ (∀ (n : Fin 4) (low : Bool) (s : State), s.isF fSAFETY_TEST_CFG_EN = true → (s.safeT n).test = none →
    (s.safeT n).due = none →
    ((s.safeT n).hs = true → (s.safeT n).ls = true → s.ssOf n < 2 →
      (s.tgState n = tgOFF → Does (.testPulse n low) s (fun t =>
        (t.safeT n).test = some (!low) ∧ (t.safeT n).hs = low ∧ (t.safeT n).ls = !low ∧ t = { s with safeTile := t.safeTile }))
      ∧ (s.tgState n ≠ tgOFF → Does (.testPulse n low) s (fun t => t.safeT n = { s.safeT n with due := some (!low) }
        ∧ t.tgOf n = (if s.lampRat < (s.tgOf n).e - (s.timing.guardT : Nat) then { s.tgOf n with pulse := true }
            else { s.tgOf n with pulseNext := true })
        ∧ t = { s with safeTile := t.safeTile, tg := t.tg })))
    ∧ ((s.safeT n).hs = false ∨ (s.safeT n).ls = false → Does (.testPulse n low) s (fun t => t.isF fSAFETY_FLAGS_TEST_SKIP = true
      ∧ (t.safeT n).due = none ∧ Quiet [rSAFETY_FLAGS, rSAFETY_TEST_SKIP_COUNT] { s with safeTile := t.safeTile } t)))
  ∧ (∀ (n : Fin 4) (mid fin high : Bool) (s : State), (s.safeT n).test = some high → (s.safeT n).due = none →
    s.ssOf n < 2 →
    (mid = false → fin = true → Does (.testPulseEnd n mid fin) s (fun t => (t.safeT n).test = none
      ∧ (high = true → (t.safeT n).hs = true ∧ (t.safeT n).hsFb = true ∧ (t.safeT n).hsFbT = true)
      ∧ (high = false → (t.safeT n).ls = true ∧ (t.safeT n).lsFb = true ∧ (t.safeT n).lsFbT = true)
      ∧ t = { s with safeTile := t.safeTile }))
    ∧ (mid = true ∨ fin = false → n < s.tiles → Does (.testPulseEnd n mid fin) s (fun t =>
      (t.regN rSAFETY_FAULT_SC).testBit (7 + n.val) = true ∧ (t.regN rSAFETY_FAULT_TT).testBit (7 + n.val) = true ∧ 2 ≤ t.ssOf n
      ∧ t.mem = s.mem)))
  ∧ ∀ (n : Fin 4) (s : State), ((s.safeT n).fbTimer = false → Does (.fallbackAckTimeout n) s (fun t => t = s))
    ∧ ((s.safeT n).fbTimer = true → n < s.tiles → Does (.fallbackAckTimeout n) s (fun t =>
      (t.regN rSAFETY_FAULT_SC).testBit (16 + n.val) = true ∧ (t.regN rSAFETY_FAULT_TT).testBit (16 + n.val) = true ∧ 2 ≤ t.ssOf n
      ∧ t.mem = s.mem))

/-- Actuators (R365 to R367) and safe inputs (R368 to R370). Which way a homing step goes is the free value of log 98. Where the spec
leaves a point open, this follows the model's choice in log 6, 98, 117 and 184. -/
def Obligations.SafetyInputs : Prop :=
  (∀ (n : Fin 2) (s : State), n < s.safe.act.length →
    let a := s.actOf n
    let target := signOf 16 (s.regN (rSAFETY_ACT_TARGET n))
    let w := s.actCfg false n
    let down := decide (a.steps < target)
    let next := if down then a.steps + 1 else a.steps - 1
    let may := s.actMay n = true ∧ s.isF (fSAFETY_ACT_STATUS_HOMED n) = true ∧ target ≠ a.steps ∧ w.posMin ≤ next ∧ next ≤ w.posMax
    let refused := n = 0 ∧ down = false ∧ s.upRefused = true
    let lost := s.actOutside false n = true ∨ s.actOutside true n = true
      ∨ 4 * s.encPerStep n < (a.sc - next * (s.encPerStep n : Nat)).natAbs
    (¬ may → Does (.actStep n) s (fun t => t.actOf n = { a with moving := false, step := false } ∧ t = { s with safe := t.safe }))
    ∧ (may → s.stepSpeed n = false → Does (.actStep n) s (fun t => t.actOf n = { a with step := false } ∧ t = { s with safe := t.safe }))
    ∧ (may → s.stepSpeed n = true → refused → Does (.actStep n) s (fun t => t.actOf n = { a with moving := false, step := false }
      ∧ t.isF (fSAFETY_ACT_STATUS_UP_REFUSED n) = true ∧ Quiet [rSAFETY_ACT_STATUS n] { s with safe := t.safe } t))
    ∧ (may → s.stepSpeed n = true → ¬ refused →
      (¬ lost → Does (.actStep n) s (fun t =>
        t.actOf n = { a with steps := next, moving := decide (next ≠ target), step := true,
                             dir := if down then w.downDir else !w.downDir, stepAt := some s.time.now }
        ∧ t.isF (fSAFETY_ACT_STATUS_UP_REFUSED n) = false ∧ Quiet [rSAFETY_ACT_STATUS n] { s with safe := t.safe } t))
      ∧ (lost → Does (.actStep n) s (fun t => (t.actOf n).steps = next ∧ (t.actOf n).moving = false
        ∧ (t.regN rSAFETY_FAULT_SC).testBit (11 + n.val) = true ∧ (t.regN rSAFETY_FAULT_TT).testBit (11 + n.val) = true
        ∧ (∀ k, k < s.tiles → 1 ≤ t.ssOf k) ∧ t.mem = s.mem))))
  ∧ (∀ (n : Fin 2) (sc tt up : Bool) (s : State), s.boot.porst = true → n < s.safe.act.length → s.isF (fSAFETY_ACT_STATUS_HOMED n) = false →
    Does (.encoderEdge n sc tt up) s (fun t =>
      (t.actOf n).sc = (s.actOf n).sc + (if sc then (if up then 1 else -1) else 0)
      ∧ (t.actOf n).tt = (s.actOf n).tt + (if tt then (if up then 1 else -1) else 0) ∧ (t.actOf n).steps = (s.actOf n).steps
      ∧ Quiet [rSAFETY_ACT_POS_SC n, rSAFETY_ACT_POS_TT n] { s with safe := t.safe } t))
  ∧ (∀ (n : Fin 2) (s : State), n < s.safe.act.length →
    let a := s.actOf n
    let fast := 11 * (s.actCfg false n).vMax * s.encPerStep n < 1000 * (a.sc - a.scWin).natAbs
      ∨ 11 * (s.actCfg true n).vMax * s.encPerStep n < 1000 * (a.tt - a.ttWin).natAbs
    let long := ∃ from_, a.differ = some from_ ∧ from_ + ticksMs 10 < s.time.now
    (¬ fast ∨ s.isF (fSAFETY_ACT_CFG_EN n) = false → Does (.actSpeedWindow n) s (fun t =>
      t.actOf n = { a with scWin := a.sc, ttWin := a.tt } ∧ t = { s with safe := t.safe }))
    ∧ (s.isF (fSAFETY_ACT_CFG_EN n) = true →
      ∀ c, (c = Instr.actMismatch n ∧ long) ∨ (c = .actSpeedWindow n ∧ fast) →
        Does c s (fun t => (t.regN rSAFETY_FAULT_SC).testBit (11 + n.val) = true ∧ (t.regN rSAFETY_FAULT_TT).testBit (11 + n.val) = true
          ∧ t.isF (fSAFETY_ACT_STATUS_SC_PERMITS n) = false ∧ t.isF (fSAFETY_ACT_STATUS_TT_PERMITS n) = false
          ∧ (t.actOf n).moving = false ∧ (∀ k, k < s.tiles → 1 ≤ t.ssOf k) ∧ t.mem = s.mem))
    ∧ (¬ long ∨ s.isF (fSAFETY_ACT_CFG_EN n) = false → Does (.actMismatch n) s (fun t => t = s)))
  ∧ (∀ (n : Fin 2) (s : State), n < s.safe.act.length →
    (s.actMay n = false ∨ s.isF (fSAFETY_ACT_STATUS_HOMED n) = true → Does (.actHoming n) s (fun t => t = s))
    ∧ (s.actMay n = true → s.isF (fSAFETY_ACT_STATUS_HOMED n) = false →
      (s.sinNormal false 2 = false → s.sinNormal true 2 = false → Does (.actHoming n) s (fun t =>
        t.isF (fSAFETY_ACT_STATUS_HOMED n) = true ∧ (t.actOf n).sc = 0 ∧ (t.actOf n).tt = 0 ∧ (t.actOf n).steps = 0
        ∧ t.regN (rSAFETY_ACT_POS_SC n) = 0 ∧ t.regN (rSAFETY_ACT_POS_TT n) = 0
        ∧ Quiet [rSAFETY_ACT_STATUS n, rSAFETY_ACT_POS_SC n, rSAFETY_ACT_POS_TT n] { s with safe := t.safe } t))
      ∧ (s.sinNormal false 2 = true ∨ s.sinNormal true 2 = true →
        ((s.actCfg false n).homeSteps ≤ (s.actOf n).homing → Does (.actHoming n) s (fun t => (t.actOf n).moving = false
          ∧ (t.regN rSAFETY_FAULT_SC).testBit (11 + n.val) = true ∧ (t.regN rSAFETY_FAULT_TT).testBit (11 + n.val) = true
          ∧ (∀ k, k < s.tiles → 1 ≤ t.ssOf k) ∧ t.mem = s.mem))
        ∧ ((s.actOf n).homing < (s.actCfg false n).homeSteps → s.stepSpeed n = false → Does (.actHoming n) s (fun t =>
          t.actOf n = { s.actOf n with step := false } ∧ t = { s with safe := t.safe }))
        ∧ ((s.actOf n).homing < (s.actCfg false n).homeSteps → s.stepSpeed n = true → Does (.actHoming n) s (fun t =>
          t.actOf n = { s.actOf n with homing := (s.actOf n).homing + 1, moving := true, step := true,
                                       dir := (Config.freeWord s.draws).getLsbD 0, stepAt := some s.time.now }
          ∧ t = { s with safe := t.safe, draws := s.draws + 1 })))))
  ∧ (∀ (tt : Bool) (v : BitVec 8) (s : State), s.boot.porst = true → s.safe.sinSc.length = 4 → s.safe.sinTt.length = 4 →
    let deb := fun i => bitsOf (s.regN (rSAFETY_SIN_CFG i)) 16 5
    Does (.sinSample tt v) s (fun t => (∀ i, i < 4 → (t.sinCh tt i).a = (s.sinCh tt i).a.sample (v.getLsbD (2 * i)) (deb i)
      ∧ (t.sinCh tt i).b = (s.sinCh tt i).b.sample (v.getLsbD (2 * i + 1)) (deb i)
      ∧ (t.sinCh (!tt) i).a = (s.sinCh (!tt) i).a ∧ (t.sinCh (!tt) i).b = (s.sinCh (!tt) i).b) ∧ t.mem = s.mem))
  ∧ ∀ (tt b : Bool) (i : Fin 4) (s : State), s.safe.sinSc.length = 4 → s.safe.sinTt.length = 4 →
    let k := fun (c : SinCh) => if b then c.b else c.a
    ((k (s.sinCh tt i)).raw = (k (s.sinCh tt i)).acc ∨ (k (s.sinCh tt i)).stable < bitsOf (s.regN (rSAFETY_SIN_CFG i)) 16 5 →
      Does (.contactAccepted tt i b) s (fun t => t = s))
    ∧ (bitsOf (s.regN (rSAFETY_SIN_CFG i)) 16 5 ≤ (k (s.sinCh tt i)).stable → s.sinOverdue tt i = false →
      Does (.contactAccepted tt i b) s (fun t => (k (t.sinCh tt i)).acc = (k (s.sinCh tt i)).raw ∧ t.mem = s.mem))
    ∧ (s.sinOverdue tt i = false → Does (.sinDiscrepancy tt i) s (fun t => t = s))
    ∧ (s.sinOverdue tt i = true → Does (.sinDiscrepancy tt i) s (fun t => (t.sinCh tt i).latched = true
      ∧ (t.regN (if tt then rSAFETY_FAULT_TT else rSAFETY_FAULT_SC)).testBit (3 + i.val) = true
      ∧ t.isF fSAFETY_FLAGS_DISCREPANCY = true ∧ t.mem = s.mem))

/-! ### Integrity, housekeeping, supplies, health -/

/-- Scrubbing and injection (R388, R389, R392), the check-value units (R393 to R397), housekeeping rounds (R415), supplies, clocks and
the debug port (R383, R431, R444, R447). Where the spec leaves a point open, this follows the model's choice in log 6, 52, 66, 67, 158,
180 and 182. -/
def Obligations.Integrity : Prop :=
  (∀ s : State, (s.isF fMEM_SCRUB_CFG_EN = false ∨ s.wp = 0 → Does .scrubRead s (fun t => t = s))
    ∧ (s.isF fMEM_SCRUB_CFG_EN = true → s.wp ≠ 0 → Clean s →
      let w := if s.wp < s.ecc.scrubAt + 4 then 0 else s.ecc.scrubAt
      (w + 4 ≠ s.wp → Does .scrubRead s (fun t => t.getF fMEM_SCRUB_STATUS_PROGRESS = 1000 * w / s.wp
        ∧ t.ecc = { s.ecc with scrubAt := w + 4 } ∧ Quiet [rMEM_SCRUB_STATUS] { s with ecc := t.ecc } t))
      ∧ (w + 4 = s.wp → Does .scrubRead s (fun t => t.getF fMEM_SCRUB_STATUS_PROGRESS = 0 ∧ t.ecc = { s.ecc with scrubAt := 0 }
        ∧ t.getF fMEM_SCRUB_STATUS_PASSES = (s.getF fMEM_SCRUB_STATUS_PASSES + 1) % 65536
        ∧ Quiet [rMEM_SCRUB_STATUS] { s with ecc := t.ecc } t))))
  ∧ (∀ (b : BitVec 40) (r : Fin 11) (k : Fin 32) (s : State),
    let w := b.toNat / 4 * 4
    (s.ecc.synd = [] → Does (.sramCheck (.word b)) s (fun t => t = s))
    ∧ (s.syndAt w = eccColumn k → s.dirtyWords w 4 = [w] → (eccRegion w = some 1 ∨ eccRegion w = some 2 ∨ eccRegion w = some 3
        ∨ eccRegion w = some 6 ∧ s.boot.aon = true) → Does (.sramCheck (.word b)) s (fun t =>
        t.syndAt w = 0 ∧ t.mem = (s.flipMem w k).mem ∧ t.isF fMEM_ECC_STATUS_CE = true ∧ t.be = s.be))
    ∧ (s.boot.porst = false → Does (.sramCheck (.hidden r)) s (fun t => t = s))
    ∧ (s.ecc.hid = [] → s.hamper.hurt = [] → s.hamper.boxHurt = [] → s.spool.hurt = [] →
      Does (.sramCheck (.hidden r)) s (fun t => t = s)))
  ∧ (∀ (v : Word) (s : State), s.boot.porst = true → s.locked = false → (List.range 4).any s.lit = false →
    Does (.eccInject v) s (fun t => t.reg rMEM_ECC_INJECT = v &&& 0x8F3F3F01 ∧ Quiet [rMEM_ECC_INJECT] s t))
  ∧ (∀ (n : Fin 4) (s : State), Takes s (rCRC_CMD n) →
    let j : CrcJob := ⟨s.reg (rCRC_CTRL n), s.reg (rCRC_POLY n), s.reg (rCRC_INIT n),
      s.regN (rCRC_ADDR_LO n) + 2 ^ 32 * (s.regN (rCRC_ADDR_HI n) % 256), s.regN (rCRC_LEN n), 0,
      s.regN (rCRC_INIT n) % 2 ^ crcWidth (bitsOf (s.regN (rCRC_CTRL n)) 16 2)⟩
    (∀ q ∈ [(Instr.crcScan n, 0), (.crcRead n, 1), (.crcWrite n, 2)],
      (s.getF (fCRC_CTRL_MODE n) ≠ q.2 → Does q.1 s (fun t => t = s))
      ∧ (s.getF (fCRC_CTRL_MODE n) = q.2 →
        (s.isF (fCRC_STATUS_BUSY n) = true → Does q.1 s (fun t => t.isF (fCRC_STATUS_ERR_BUSY n) = true ∧ t.crcJob n = s.crcJob n
          ∧ Quiet [rCRC_STATUS n, rCRC_ERR_BUSY_COUNT n] s t))
        ∧ (s.isF (fCRC_STATUS_BUSY n) = false → j.bad = false → Does q.1 s (fun t => t.crcJob n = some j
          ∧ t.isF (fCRC_STATUS_BUSY n) = true ∧ t.isF (fCRC_STATUS_DONE n) = false ∧ t.reg (rCRC_PROGRESS n) = 0
          ∧ Quiet [rCRC_STATUS n, rCRC_PROGRESS n] { s with crc := t.crc } t))
        ∧ (s.isF (fCRC_STATUS_BUSY n) = false → j.bad = true → Does q.1 s (fun t => t.crcJob n = none
          ∧ t.isF (fCRC_STATUS_BUSY n) = false ∧ t.isF (fCRC_STATUS_DONE n) = true ∧ t.isF (fCRC_STATUS_ERR_ARG n) = true
          ∧ t.mem = s.mem))))
    ∧ (s.crcJob n = none → Does (.crcAbort n) s (fun t => t = s))
    ∧ ∀ i, s.crcJob n = some i →
      (i.mode = 2 ∨ i.done = 0 ∨ (i.addr + i.done) % 64 = 0 → Does (.crcAbort n) s (fun t => t.crcJob n = none
        ∧ t.isF (fCRC_STATUS_ABORTED n) = true ∧ t.isF (fCRC_STATUS_BUSY n) = false ∧ t.isF (fCRC_STATUS_DONE n) = true
        ∧ t.reg (rCRC_PROGRESS n) = s.reg (rCRC_PROGRESS n) ∧ t.mem = s.mem))
      ∧ (s.ecc.synd = [] → Does (.crcAbort n) s (fun t => t.crcJob n = none ∧ t.isF (fCRC_STATUS_BUSY n) = false
        ∧ t.isF (fCRC_STATUS_DONE n) = true ∧ t.mem = s.mem)))
  ∧ (∀ (n : Fin 4) (s : State), s.crcJob n = none → Does (.crcDone n) s (fun t => t = s))
  ∧ (∀ (n : Fin 4) (j : CrcJob) (s : State), s.crcJob n = some j → j.done < j.len → s.ecc.synd = [] →
    (j.mode ≠ 2 → inRegs (j.addr + j.done) = true ∨ s.mapOk (j.addr + j.done) = false → Does (.crcDone n) s (fun t =>
      t.isF (fCRC_STATUS_ERR_BUS n) = true ∧ t.crcJob n = none ∧ t.isF (fCRC_STATUS_DONE n) = true
      ∧ t.reg (rCRC_PROGRESS n) = s.reg (rCRC_PROGRESS n) ∧ t.mem = s.mem))
    ∧ ((∀ k, k < j.len → inRegs (j.addr + k) = false ∧ s.mapOk (j.addr + k) = true) → j.done = 0 →
      j.crc = j.init.toNat % 2 ^ crcWidth (bitsOf j.ctrl.toNat 16 2) →
      (j.mode = 0 → j.ctrl.getLsbD 4 = false → Does (.crcDone n) s (fun t =>
        t.regN (rCRC_RESULT n) = j.value (s.bytes j.addr j.len) % 2 ^ 32 ∧ t.crcJob n = none ∧ t.isF (fCRC_STATUS_DONE n) = true
        ∧ t.regN (rCRC_PROGRESS n) = j.len % 2 ^ 32 ∧ t.mem = s.mem))
      ∧ (j.mode = 1 → j.len = 64 → j.addr % 4 = 0 → Does (.crcDone n) s (fun t =>
        (∀ k, k < 16 → t.reg (rCRC_DATA n k) = nth 0#32 (leWords (s.bytes j.addr 64)) k) ∧ t.crcJob n = none
        ∧ t.isF (fCRC_STATUS_DONE n) = true ∧ t.regN (rCRC_PROGRESS n) = 64 ∧ t.mem = s.mem))))
  ∧ (∀ (n : Fin 4) (j : CrcJob) (s : State), s.crcJob n = some j → Clean s → j.mode = 2 → s.inDram j.addr j.len = true → j.len ≤ 64 →
    Does (.crcDone n) s (fun t => t.bytes j.addr j.len = (wordBytes (s.regWords (rCRC_DATA n 0) 16)).take j.len
      ∧ (∀ x, x < j.addr ∨ j.addr + j.len ≤ x → t.byte x = s.byte x) ∧ t.crcJob n = none ∧ t.isF (fCRC_STATUS_DONE n) = true))
  ∧ (∀ (r : SensorIn) (s : State), (s.isF fHK_ROUND_CFG_SCHED = true → Does (.hkRound r) s (fun t => t = s))
    ∧ (s.hkOn = false → ∀ c ∈ [Instr.hkRound r, .roundLate r], Does c s (fun t => t = s))
    ∧ (s.hkOn = true →
      (s.isF fHK_ROUND_CFG_SCHED = false → Does (.hkRound r) s (fun t =>
        t.regN rHK_ROUND_COUNT = (s.regN rHK_ROUND_COUNT + 1) % 2 ^ 32 ∧ t.regN rHK_HLV_STATUS = 0
        ∧ t.hlv.stamp = [s.time.frc, s.time.frc, s.time.frc] ∧ t.mem = s.mem))
      ∧ (s.roundDue = false → Does (.roundLate r) s (fun t => t = s))
      ∧ (s.roundDue = true → Does (.roundLate r) s (fun t => t.isF fHK_HK_STATUS_ROUND_LATE = true
        ∧ t.regN rHK_ROUND_COUNT = (s.regN rHK_ROUND_COUNT + 1) % 2 ^ 32 ∧ t.mem = s.mem))))
  ∧ (∀ s : State, (s.boot.aon = true → ∀ low : Bool, Does (.vaonRise low) s (fun t => t = s))
    ∧ (s.boot.aon = false → Does (.vaonRise false) s (fun t => t = { s with boot := { s.boot with aon := true } })
      ∧ Does (.vaonRise true) s (fun t => exec .wakeN { s with boot := { s.boot with aon := true } } = .next t))
    ∧ Does .vaonLoss s (fun t => t.mem = [] ∧ t.faultN = [] ∧ t.boot.aon = false ∧ t.regN rPWR_WAKE_FAIL_CAUSE = 0
      ∧ t.getF fPWR_PWR_STATUS_CURRENT = pwOFF))
  ∧ (∀ (i : JtagI) (sig : List Byte) (s : State), s.boot.porst = false → ∀ c ∈ [Instr.jtagInstruction i, .debugAuth sig],
    Does c s (fun t => t = s))
  ∧ (∀ (i : JtagI) (s : State), s.boot.porst = true → Does (.jtagInstruction i) s (fun t => t = { s with debugPort := t.debugPort }
      ∧ t.debugPort = { s.debugPort with ir := match i with
        | .bypass => 0
        | .idcode => 1
        | .samplePreload => 2
        | .other c => if s.debugPort.auth && s.allDark then 256 + c.toNat else s.debugPort.ir }))
  ∧ (∀ (sig c : List Byte) (s : State), s.boot.porst = true → s.debugPort.chal = some c → Does (.debugAuth sig) s (fun t => t = { s with debugPort := t.debugPort }
      ∧ t.debugPort.chal = none ∧ t.debugPort.ir = s.debugPort.ir ∧ (t.debugPort.auth = true ↔ s.debugPort.auth = true ∨ 1 ≤ s.loader.phase
        ∧ ecdsaVerify (fileBytes s.loader.img.bytes 0x60 64) (sha256 c) sig = true)))
  ∧ ∀ (p : Fin 6) (s : State), (s.boot.pll.getD p false = false → Does (.pllLoss p) s (fun t => t = s))
    ∧ (s.boot.pll.getD p false = true → Does (.pllLoss p) s (fun t => t.boot = { s.boot with pll := s.boot.pll.set p false }
      ∧ (p = 0 → t.isF fSAFETY_STATUS_SC_ON_FIO = true) ∧ Quiet [rSAFETY_STATUS] { s with boot := t.boot } t))

/-- R396 whole: while a check-value unit is BUSY, START and every write to its configuration, reference and data registers are ignored,
set ERR_BUSY and count in ERR_BUSY_COUNT, and the job goes on; ABORT alone is accepted. -/
def Obligations.CheckUnitBusy : Prop :=
  ∀ (n : Fin 4) (v : Word) (s : State), s.isF (fCRC_STATUS_BUSY n) = true →
    let ignored := fun (t : State) => t.isF (fCRC_STATUS_ERR_BUSY n) = true ∧ t.isF (fCRC_STATUS_BUSY n) = true
      ∧ t.regN (rCRC_ERR_BUSY_COUNT n) = min (s.regN (rCRC_ERR_BUSY_COUNT n) + 1) 0xFFFF ∧ t.crc = s.crc
      ∧ Quiet [rCRC_STATUS n, rCRC_ERR_BUSY_COUNT n] s t
    (∀ off ∈ [rCRC_CTRL n, rCRC_POLY n, rCRC_INIT n, rCRC_ADDR_LO n, rCRC_ADDR_HI n, rCRC_LEN n, rCRC_REF_A n, rCRC_REF_B n]
        ++ (List.range 16).map (rCRC_DATA n), Takes s off →
      Does (.registerWrite (BitVec.ofNat 24 off) v) s ignored)
    ∧ (Takes s (rCRC_CMD n) →
      Does (.registerWrite (BitVec.ofNat 24 (rCRC_CMD n)) 1) s ignored
      ∧ (∀ q ∈ [(Instr.crcScan n, 0), (.crcRead n, 1), (.crcWrite n, 2)], s.getF (fCRC_CTRL_MODE n) = q.2 → Does q.1 s ignored)
      ∧ (∀ j, s.crcJob n = some j → j.mode = 2 ∨ j.done = 0 ∨ (j.addr + j.done) % 64 = 0 →
        ∀ c ∈ [Instr.crcAbort n, .registerWrite (BitVec.ofNat 24 (rCRC_CMD n)) 2], Does c s (fun t =>
        t.crcJob n = none ∧ t.isF (fCRC_STATUS_BUSY n) = false ∧ t.isF (fCRC_STATUS_ABORTED n) = true
        ∧ t.isF (fCRC_STATUS_DONE n) = true ∧ t.mem = s.mem)))

/-- HEALTH's commands (R277, R279, R285 to R289). Where the spec leaves a point open, this follows the model's choice in log 6, 101, 103,
153 and 181. -/
def Obligations.HealthCommands : Prop :=
  (∀ (n : Fin 4) (s : State), Takes s rHEALTH_CMD →
    (∀ b, (s.hl n).base = some b → Does (.baseline n) s (fun t => t = s))
    ∧ ((s.hl n).base = none → Does (.baseline n) s (fun t =>
      (t.hl n).base = some { on := decide (s.getF (fTG_SENSE_CFG_CHUNK n) = 0) } ∧ t.isF fHEALTH_STATUS_BASELINE_ACTIVE = true
      ∧ Quiet [rHEALTH_STATUS, rHEALTH_SWEEP_STATUS n] { s with health := t.health } t)))
  ∧ (∀ (n : Fin 4) (s : State), ((s.hl n).fresh = false → Does (.baselineAutoStart n) s (fun t => t = s))
    ∧ ((s.hl n).fresh = true → (s.hl n).base = none → Does (.baselineAutoStart n) s (fun t =>
      (t.hl n).base = some { on := decide (s.getF (fTG_SENSE_CFG_CHUNK n) = 0) } ∧ t.isF fHEALTH_STATUS_BASELINE_ACTIVE = true
      ∧ Quiet [rHEALTH_STATUS, rHEALTH_SWEEP_STATUS n] { s with health := t.health } t)))
  ∧ (∀ s : State, Takes s rHEALTH_CMD → Does .checkpoint s (fun t => t = { s with health := t.health }
      ∧ ∀ n, n < 4 → t.hl n = if s.tileUp n then { s.hl n with ckpt := true, lifeDue := 2 }
        else s.hl n))
  ∧ (∀ (n : Fin 4) (s : State), Does (.fullCheckpointDue n) s (fun t => t = { s with health := t.health }
      ∧ t.hl n = { s.hl n with ckpt := (s.hl n).ckpt || s.tileUp n } ∧ ∀ k, k ≠ n.val → t.hl k = s.hl k))
  ∧ (∀ s : State, (s.boot.porst = false → Does .deltaCheckpointDue s (fun t => t = s))
    ∧ (s.boot.porst = true → Does .deltaCheckpointDue s (fun t => t = { s with hk := { s.hk with deltaDue := true } })))
  ∧ (∀ s : State, (s.hk.deltaDue = false ∨ 1 ≤ s.shed → s.deltaStep = s)
    ∧ (s.hk.deltaDue = true → s.shed = 0 → s.ecc.synd = [] → s.deltaStep.hk = { s.hk with deltaDue := false }
      ∧ (∀ n, n < 4 → (s.deltaStep.hl n).deltaNs = 0)
      ∧ s.deltaStep = { s with hk := s.deltaStep.hk, health := s.deltaStep.health, store := s.deltaStep.store }))
  ∧ (∀ (n : Fin 4) (ok : Bool) (s : State),
    (1 ≤ s.shed ∨ (s.hl n).ckpt = false ∧ (ok = true ∨ s.hk.deltaDue = false) → Does (.ckptDone n ok) s (fun t => t = s))
    ∧ ((s.hl n).ckpt = true → s.shed = 0 →
      (s.ecc.synd = [] → Does (.ckptDone n true) s (fun t => (t.hl n).ckpt = false ∧ (t.hl n).ckSeq = (s.ckptNext n).1 ∧ (t.hl n).lifeDue = 2
        ∧ Quiet [] { s with health := t.health, store := t.store } t))
      ∧ Does (.ckptDone n false) s (fun t => t.hl n = { s.hl n with ckpt := false } ∧ t.isF fHEALTH_STATUS_CKPT_FAIL = true
        ∧ Quiet [rHEALTH_STATUS, rHEALTH_CKPT_FAIL_COUNT] { s with health := t.health } t))
    ∧ ((s.hl n).ckpt = false → s.shed = 0 → s.hk.deltaDue = true → Does (.ckptDone n false) s (fun t =>
      t.hk = { s.hk with deltaDue := false } ∧ t.isF fHEALTH_STATUS_CKPT_FAIL = true
      ∧ Quiet [rHEALTH_STATUS, rHEALTH_CKPT_FAIL_COUNT] { s with hk := t.hk } t)))
  ∧ (∀ s : State, (s.loader.phase < 3 → Does .accRestored s (fun t => t = s))
    ∧ (s.isF fHEALTH_STATUS_ACC_VALID = true → (∀ n, n < 4 → s.tileUp n = false ∨ (s.hl n).fresh = true ∨ (s.hl n).accOk = true) →
      Does .accRestored s (fun t => t = s))
    ∧ (3 ≤ s.loader.phase → s.isF fHEALTH_STATUS_ACC_VALID = false → Does .accRestored s (fun t =>
      t.isF fHEALTH_STATUS_ACC_VALID = true))
    ∧ (∀ n, n < 4 → 3 ≤ s.loader.phase → s.isF fHEALTH_STATUS_ACC_VALID = false → s.tileUp n = true → (s.hl n).fresh = false →
      (s.hl n).accOk = false → Does .accRestored s (fun t => (t.hl n).accOk = (s.ckptNewest n).isSome)))
  ∧ (∀ s : State, (s.agingPaused = true → Does .agingConversion s (fun t => t = s))
    ∧ (s.agingPaused = false → s.ecc.synd = [] → Does .agingConversion s (fun t =>
      (∀ n, n < s.tiles → t.regN (rHEALTH_SHORTFALL n) ≤ 0x3FFFF)
      ∧ ∀ n, n < 4 → s.tiles ≤ n → t.reg (rHEALTH_SHORTFALL n) = s.reg (rHEALTH_SHORTFALL n))))
  ∧ ∀ (n : Fin 4) (spare : Bool) (px : BitVec 18) (s : State), Takes s rHEALTH_CMD → Clean s →
    s.isF fHEALTH_DARN_CFG_EN = false → s.inDram (s.stateAddr n spare.toNat px.toNat) 1 = true →
    Does (.clearState n spare px) s (fun t => t.emState n spare.toNat px.toNat = emUNKNOWN
      ∧ (∀ a, a ≠ s.stateAddr n spare.toNat px.toNat → t.byte a = s.byte a)
      ∧ (s.emState n spare.toNat px.toNat = emFAILED → 1 ≤ (t.hl n).lifeDue)
      ∧ emKey spare.toNat px.toNat ∉ (t.hl n).marks ∧ emKey spare.toNat px.toNat ∉ (t.hl n).todo
      ∧ emKey spare.toNat px.toNat ∉ (t.hl n).wait)
end

