-- ==== Sys2Proof/Laws/Tab.lean ====
section
/-! SUPPORT. The laws of sparse tables: a read after a write, and the canonical form kept. -/

namespace Sys2Proof.Machine

variable {β : Type} [DecidableEq β] (d : Nat → β)

theorem tabGet_tabIns (t : List (Nat × β)) (k k' : Nat) (v : β) (h : ∀ c ∈ t, c.1 ≠ k) :
    tabGet d (tabIns k v t) k' = if k' = k then v else tabGet d t k' := by
  induction t with
  | nil => simp [tabIns, tabGet, eq_comm]
  | cons c t ih =>
    obtain ⟨a, w⟩ := c
    have ha : a ≠ k := h (a, w) (by simp)
    have ih' := ih (fun c hc => h c (by simp [hc]))
    by_cases hk : k' = k
    · subst hk
      simp only [tabIns]
      split
      · simp [tabGet]
      · simp [tabGet, ha, ih']
    · have hkk : ¬ k = k' := fun e => hk e.symm
      simp only [tabIns]
      split
      · simp [tabGet, hkk, hk]
      · simp [tabGet, ih', hk]

theorem tabGet_tabDel (t : List (Nat × β)) (k k' : Nat) :
    tabGet d (tabDel t k) k' = if k' = k then d k else tabGet d t k' := by
  induction t with
  | nil => by_cases h : k' = k <;> simp [tabDel, tabGet, h]
  | cons c t ih =>
    obtain ⟨a, w⟩ := c
    simp only [tabDel] at ih ⊢
    by_cases ha : a = k
    · subst ha
      simp only [ne_eq, not_true_eq_false, decide_false, List.filter_cons_of_neg, Bool.false_eq_true, not_false_eq_true, ih]
      by_cases h : k' = a
      · simp [h]
      · simp [tabGet, h, Ne.symm h]
    · rw [List.filter_cons_of_pos (by simpa using ha)]
      simp only [tabGet, ih]
      by_cases h1 : a = k'
      · subst h1; simp [ha]
      · simp [h1]

theorem tabDel_ne (t : List (Nat × β)) (k : Nat) : ∀ c ∈ tabDel t k, c.1 ≠ k := by
  intro c hc
  simp only [tabDel, List.mem_filter] at hc
  simpa using hc.2

/-- A read after a write: the value written at the key, what stood there at every other key. -/
theorem tabGet_tabSet (t : List (Nat × β)) (k k' : Nat) (v : β) :
    tabGet d (tabSet d t k v) k' = if k' = k then v else tabGet d t k' := by
  unfold tabSet
  split
  · next h => rw [tabGet_tabDel, h]
  · rw [tabGet_tabIns d _ _ _ _ (tabDel_ne t k), tabGet_tabDel]
    by_cases h : k' = k <;> simp [h]

theorem tabWf_tabDel {t : List (Nat × β)} (k : Nat) (h : tabWf d t) : tabWf d (tabDel t k) := by
  refine ⟨?_, fun c hc => h.2 c (List.mem_of_mem_filter hc)⟩
  exact h.1.sublist ((List.filter_sublist).map _)

theorem mem_tabIns {t : List (Nat × β)} {k : Nat} {v : β} {c : Nat × β} :
    c ∈ tabIns k v t → c = (k, v) ∨ c ∈ t := by
  induction t with
  | nil => simp [tabIns]
  | cons e t ih =>
    simp only [tabIns]
    split
    · simp
    · intro h
      rcases List.mem_cons.1 h with h | h
      · exact .inr (by simp [h])
      · rcases ih h with h | h
        · exact .inl h
        · exact .inr (by simp [h])

theorem pairwise_tabIns {t : List (Nat × β)} (k : Nat) (v : β) (h : (t.map Prod.fst).Pairwise (· < ·))
    (hk : ∀ c ∈ t, c.1 ≠ k) : ((tabIns k v t).map Prod.fst).Pairwise (· < ·) := by
  induction t with
  | nil => simp [tabIns]
  | cons e t ih =>
    obtain ⟨a, w⟩ := e
    simp only [List.map_cons, List.pairwise_cons] at h
    simp only [tabIns]
    split
    · next hlt =>
      simp only [List.map_cons, List.pairwise_cons]
      refine ⟨?_, h.1, h.2⟩
      intro x hx
      rcases List.mem_cons.1 hx with hx | hx
      · omega
      · exact lt_trans hlt (h.1 x hx)
    · next hlt =>
      have hne : a ≠ k := hk (a, w) (by simp)
      simp only [List.map_cons, List.pairwise_cons]
      refine ⟨?_, ih h.2 (fun c hc => hk c (by simp [hc]))⟩
      intro x hx
      obtain ⟨c, hc, rfl⟩ := List.mem_map.1 hx
      rcases mem_tabIns hc with hc | hc
      · subst hc; show a < k; omega
      · exact h.1 _ (List.mem_map_of_mem hc)

theorem tabWf_nil : tabWf d ([] : List (Nat × β)) := ⟨.nil, fun _ h => nomatch h⟩

/-- A write keeps the canonical form. -/
theorem tabWf_tabSet {t : List (Nat × β)} (k : Nat) (v : β) (h : tabWf d t) : tabWf d (tabSet d t k v) := by
  unfold tabSet
  split
  · exact tabWf_tabDel d k h
  · next hv =>
    have hd := tabWf_tabDel d k h
    refine ⟨pairwise_tabIns k v hd.1 (tabDel_ne t k), ?_⟩
    intro c hc
    rcases mem_tabIns hc with hc | hc
    · subst hc; exact hv
    · exact hd.2 c hc

theorem tabWf_filter {t : List (Nat × β)} (p : Nat × β → Bool) (h : tabWf d t) : tabWf d (t.filter p) :=
  ⟨h.1.sublist (List.filter_sublist.map _), fun c hc => h.2 c (List.mem_of_mem_filter hc)⟩

theorem tabRun_cons (k : Nat) (v : β) (vs : List β) :
    tabRun d k (v :: vs) = if v = d k then tabRun d (k + 1) vs else (k, v) :: tabRun d (k + 1) vs := by
  by_cases h : v = d k <;> simp [tabRun, List.zipIdx_cons, h]

theorem mem_tabRun {k : Nat} {vs : List β} {c : Nat × β} (h : c ∈ tabRun d k vs) :
    k ≤ c.1 ∧ c.1 < k + vs.length ∧ c.2 ≠ d c.1 := by
  induction vs generalizing k with
  | nil => simp [tabRun] at h
  | cons v vs ih =>
    rw [tabRun_cons] at h
    have hc : c = (k, v) ∧ v ≠ d k ∨ c ∈ tabRun d (k + 1) vs := by
      split at h
      · exact .inr h
      · next hv => rcases List.mem_cons.1 h with h | h
                   · exact .inl ⟨h, hv⟩
                   · exact .inr h
    simp only [List.length_cons]
    rcases hc with ⟨rfl, hv⟩ | hc
    · exact ⟨Nat.le_refl _, by simp, hv⟩
    · have := ih hc; exact ⟨by omega, by omega, this.2.2⟩

theorem pairwise_tabRun (k : Nat) (vs : List β) : ((tabRun d k vs).map Prod.fst).Pairwise (· < ·) := by
  induction vs generalizing k with
  | nil => simp [tabRun]
  | cons v vs ih =>
    rw [tabRun_cons]
    split
    · exact ih (k + 1)
    · rw [List.map_cons, List.pairwise_cons]
      refine ⟨?_, ih (k + 1)⟩
      intro x hx
      obtain ⟨c, hc, rfl⟩ := List.mem_map.1 hx
      have := mem_tabRun d hc
      show k < c.1
      omega

/-- A run of writes keeps the canonical form. -/
theorem tabWf_tabPutAll {t : List (Nat × β)} (k : Nat) (vs : List β) (h : tabWf d t) :
    tabWf d (tabPutAll d t k vs) := by
  refine ⟨?_, ?_⟩
  · have hs : ∀ p : Nat × β → Bool, ((t.filter p).map Prod.fst).Pairwise (· < ·) :=
      fun p => h.1.sublist (List.filter_sublist.map _)
    simp only [tabPutAll, List.map_append]
    rw [List.pairwise_append, List.pairwise_append]
    refine ⟨⟨hs _, pairwise_tabRun d k vs, ?_⟩, hs _, ?_⟩
    · intro x hx y hy
      obtain ⟨c, hc, rfl⟩ := List.mem_map.1 hx
      obtain ⟨e, he, rfl⟩ := List.mem_map.1 hy
      have h1 := of_decide_eq_true (List.mem_filter.1 hc).2
      have h2 := mem_tabRun d he
      omega
    · intro x hx y hy
      obtain ⟨e, he, rfl⟩ := List.mem_map.1 hy
      have h2 := of_decide_eq_true (List.mem_filter.1 he).2
      rcases List.mem_append.1 hx with hx | hx
      · obtain ⟨c, hc, rfl⟩ := List.mem_map.1 hx
        have h1 := of_decide_eq_true (List.mem_filter.1 hc).2
        omega
      · obtain ⟨c, hc, rfl⟩ := List.mem_map.1 hx
        have h1 := mem_tabRun d hc
        omega
  · intro c hc
    rcases List.mem_append.1 hc with hc | hc
    · rcases List.mem_append.1 hc with hc | hc
      · exact h.2 c (List.mem_of_mem_filter hc)
      · exact (mem_tabRun d hc).2.2
    · exact h.2 c (List.mem_of_mem_filter hc)

theorem tabGet_append (t u : List (Nat × β)) (k : Nat) :
    tabGet d (t ++ u) k = if k ∈ t.map Prod.fst then tabGet d t k else tabGet d u k := by
  induction t with
  | nil => simp
  | cons c t ih =>
    obtain ⟨a, v⟩ := c
    by_cases h : a = k
    · simp [tabGet, h]
    · have h' : ¬ k = a := fun e => h e.symm
      rw [List.cons_append, tabGet, if_neg h, ih, tabGet, if_neg h, List.map_cons]
      simp only [List.mem_cons, h', false_or]

theorem tabGet_unlisted (t : List (Nat × β)) (k : Nat) (h : k ∉ t.map Prod.fst) : tabGet d t k = d k := by
  induction t with
  | nil => rfl
  | cons c t ih =>
    obtain ⟨a, v⟩ := c
    simp only [List.map_cons, List.mem_cons, not_or] at h
    simp [tabGet, Ne.symm h.1, ih h.2]

theorem tabGet_filter (t : List (Nat × β)) (p : Nat → Bool) (k : Nat) :
    tabGet d (t.filter (fun c => p c.1)) k = if p k then tabGet d t k else d k := by
  induction t with
  | nil => simp [tabGet]
  | cons c t ih =>
    obtain ⟨a, v⟩ := c
    by_cases h : a = k
    · subst h
      by_cases hp : p a <;> simp [tabGet, hp, ih]
    · by_cases hp : p a <;> simp [tabGet, hp, h, ih]

theorem tabGet_tabRun (k k' : Nat) (vs : List β) :
    tabGet d (tabRun d k vs) k' = if k ≤ k' ∧ k' < k + vs.length then vs.getD (k' - k) (d k') else d k' := by
  induction vs generalizing k with
  | nil => simp [tabRun, tabGet]
  | cons v vs ih =>
    have hs : k ≠ k' → (k + 1 ≤ k' ↔ k ≤ k') := by omega
    rw [tabRun_cons]
    by_cases h : k = k'
    · subst h
      by_cases hv : v = d k
      · rw [if_pos hv, ih]; simp [hv]
      · rw [if_neg hv]; simp [tabGet]
    · have hg : tabGet d (if v = d k then tabRun d (k + 1) vs else (k, v) :: tabRun d (k + 1) vs) k'
          = tabGet d (tabRun d (k + 1) vs) k' := by
        by_cases hv : v = d k
        · rw [if_pos hv]
        · rw [if_neg hv]; simp [tabGet, h]
      rw [hg, ih]
      by_cases hr : k + 1 ≤ k' ∧ k' < k + 1 + vs.length
      · have : k' - k = (k' - (k + 1)) + 1 := by omega
        rw [if_pos hr, if_pos (by simp only [List.length_cons]; omega), this]
        simp
      · rw [if_neg hr, if_neg (by simp only [List.length_cons]; omega)]

/-- What a run of writes leaves: the values written inside the run, what stood there outside it. -/
theorem tabGet_tabPutAll (t : List (Nat × β)) (k k' : Nat) (vs : List β) :
    tabGet d (tabPutAll d t k vs) k' =
      if k ≤ k' ∧ k' < k + vs.length then vs.getD (k' - k) (d k') else tabGet d t k' := by
  have e1 := tabGet_filter d t (fun a => decide (a < k)) k'
  have e2 := tabGet_filter d t (fun a => decide (k + vs.length ≤ a)) k'
  have hm : k' ∈ (tabRun d k vs).map Prod.fst → k ≤ k' ∧ k' < k + vs.length := by
    intro hx
    obtain ⟨c, hc, rfl⟩ := List.mem_map.1 hx
    have := mem_tabRun d hc
    exact ⟨this.1, this.2.1⟩
  have hm1 : k' ∈ (t.filter (fun c => decide (c.1 < k))).map Prod.fst → k' < k := by
    intro hx
    obtain ⟨c, hc, rfl⟩ := List.mem_map.1 hx
    exact of_decide_eq_true (List.mem_filter.1 hc).2
  simp only [tabPutAll, List.append_assoc, tabGet_append]
  by_cases h : k ≤ k' ∧ k' < k + vs.length
  · rw [if_neg (fun x => by have := hm1 x; omega), if_pos h]
    by_cases hr : k' ∈ (tabRun d k vs).map Prod.fst
    · rw [if_pos hr, tabGet_tabRun, if_pos h]
    · have hu := tabGet_unlisted d _ _ hr
      rw [tabGet_tabRun, if_pos h] at hu
      rw [if_neg hr, e2, hu]
      have : ¬ k + vs.length ≤ k' := by omega
      simp [this]
  · rw [if_neg h, if_neg (fun x => h (hm x))]
    by_cases h1 : k' ∈ (t.filter (fun c => decide (c.1 < k))).map Prod.fst
    · rw [if_pos h1, e1]; simp [hm1 h1]
    · rw [if_neg h1, e2]
      by_cases h2 : k + vs.length ≤ k'
      · simp [h2]
      · have hlt : k' < k := by omega
        have := tabGet_unlisted d _ _ h1
        rw [e1] at this
        simp only [hlt, decide_true, if_true] at this
        simp [h2, this]

/-- A run of writes changes nothing outside the run. -/
theorem tabGet_tabPutAll_other (t : List (Nat × β)) (k k' : Nat) (vs : List β)
    (h : k' < k ∨ k + vs.length ≤ k') : tabGet d (tabPutAll d t k vs) k' = tabGet d t k' := by
  rw [tabGet_tabPutAll, if_neg (by omega)]

end Sys2Proof.Machine
end

