-- ==== Sys2Proof/Laws/Keeps.lean ====
section
/-! SUPPORT. What every operation keeps: the queue, the part, the fuses' growth and the canonical form of every table. `Keeps s u` says
it of a state `u` made from `s`; each operation has one law, which says that it leads from such a state to such a state. -/

namespace Sys2Proof.Machine

structure Keeps (s t : State) : Prop where
  fixed : Fixed s t
  tables : TablesWf s → TablesWf t

/-- The part of a state that `Keeps` speaks of. -/
abbrev kept (s : State) := (s.pending, s.part, s.stepping, s.otp, s.draws, s.mem, s.regs, s.bank0, s.bank1, s.store, s.sel)

theorem OtpGrows.refl (a : Otp) : OtpGrows a a :=
  ⟨⟨rfl, rfl⟩, fun _ _ h => h, fun _ h => h, Nat.le_refl _, fun h => h, Nat.le_refl _⟩

theorem Fixed.refl (s : State) : Fixed s s := ⟨rfl, rfl, rfl, OtpGrows.refl _, Nat.le_refl _⟩

theorem Keeps.refl (s : State) : Keeps s s := ⟨Fixed.refl s, id⟩

/-- An update of the other fields. -/
theorem Keeps.of {s u t : State} (h : Keeps s u) (e : kept t = kept u) : Keeps s t := by
  simp only [kept, Prod.mk.injEq] at e
  obtain ⟨e1, e2, e3, e4, e5, e6, e7, e8, e9, e10, e11⟩ := e
  refine ⟨⟨e1 ▸ h.fixed.pending, e2 ▸ h.fixed.part, e3 ▸ h.fixed.stepping, e4 ▸ h.fixed.otp, e5 ▸ h.fixed.draws⟩, fun w => ?_⟩
  have k := h.tables w
  exact ⟨e6 ▸ k.mem, e7 ▸ k.regs, e8 ▸ k.bank0, e9 ▸ k.bank1, e10 ▸ k.store, e11 ▸ k.sel⟩

/-- An update of the other fields, as a record. -/
theorem Keeps.upd {s u : State} {x_time x_boot x_faultN x_loader x_hamper x_spool x_posted x_hlv x_mc x_ecc x_be x_progs x_comp x_press x_tg
    x_port x_lampTiming x_record x_health x_hcfg x_agingPaused x_safe x_safeTile x_hk x_pwr x_host
    x_crc x_debugPort x_wakeDue x_rdata}
    (h : Keeps s u) :
    Keeps s { u with time := x_time, boot := x_boot, faultN := x_faultN, loader := x_loader, hamper := x_hamper, spool := x_spool, posted := x_posted, hlv := x_hlv, mc := x_mc, ecc := x_ecc, be := x_be, progs := x_progs, comp := x_comp, press := x_press, tg := x_tg, port := x_port, lampTiming := x_lampTiming, record := x_record, health := x_health, hcfg := x_hcfg, agingPaused := x_agingPaused, safe := x_safe, safeTile := x_safeTile, hk := x_hk, pwr := x_pwr, host := x_host, crc := x_crc, debugPort := x_debugPort, wakeDue := x_wakeDue, rdata := x_rdata } :=
  h.of rfl

theorem Keeps.ite {s : State} {c : Prop} [Decidable c] {a b : State} (h : c → Keeps s a) (k : ¬c → Keeps s b) :
    Keeps s (if c then a else b) := by split <;> simp_all

theorem Keeps.foldl {s : State} {α : Type} {F : State → α → State} {l : List α} {u : State} (h : Keeps s u)
    (k : ∀ v x, Keeps s v → Keeps s (F v x)) : Keeps s (l.foldl F u) := by
  induction l generalizing u with
  | nil => exact h
  | cons x l ih => exact ih (k u x h)

/-- The state of a pair that a fold carries. -/
theorem Keeps.foldl2 {s : State} {α β : Type} {F : β × State → α → β × State} {l : List α} {p : β × State} (h : Keeps s p.2)
    (k : ∀ v x, Keeps s v.2 → Keeps s (F v x).2) : Keeps s (l.foldl F p).2 := by
  induction l generalizing p with
  | nil => exact h
  | cons x l ih => exact ih (k p x h)

/-- The state of a triple that a fold carries. -/
theorem Keeps.foldl3 {s : State} {α β γ : Type} {F : β × γ × State → α → β × γ × State} {l : List α} {p : β × γ × State}
    (h : Keeps s p.2.2) (k : ∀ v x, Keeps s v.2.2 → Keeps s (F v x).2.2) : Keeps s (l.foldl F p).2.2 := by
  induction l generalizing p with
  | nil => exact h
  | cons x l ih => exact ih (k p x h)

theorem Keeps.ite2 {s : State} {β : Type} {c : Prop} [Decidable c] {a b : β × State} (h : c → Keeps s a.2) (k : ¬c → Keeps s b.2) :
    Keeps s (if c then a else b).2 := by split <;> simp_all

theorem Keeps.opt {s : State} {α : Type} {o : Option α} {A : State} {B : α → State} (h : Keeps s A) (k : ∀ x, Keeps s (B x)) :
    Keeps s (Option.casesOn (motive := fun _ => State) o A B) := by cases o <;> simp_all

/-- What a pair's state keeps. -/
def KeepsP (s : State) {β : Type} (p : β × State) : Prop := Keeps s p.2

theorem KeepsP.ite {s : State} {β : Type} {c : Prop} [Decidable c] {a b : β × State} (h : c → KeepsP s a) (k : ¬c → KeepsP s b) :
    KeepsP s (if c then a else b) := by split <;> simp_all

theorem KeepsP.mk {s t : State} {β : Type} {b : β} (h : Keeps s t) : KeepsP s (b, t) := h

/-- What an answer keeps. -/
def KeepsR (s : State) (r : Res) : Prop := ∀ t, r = .next t → Keeps s t

theorem KeepsR.next {s t : State} (h : Keeps s t) : KeepsR s (.next t) := fun _ e => by cases e; exact h

theorem KeepsR.ite {s : State} {c : Prop} [Decidable c] {a b : Res} (h : c → KeepsR s a) (k : ¬c → KeepsR s b) :
    KeepsR s (if c then a else b) := by split <;> simp_all

/-- What an optional state keeps. -/
def KeepsO (s : State) (r : Option State) : Prop := ∀ t, r = some t → Keeps s t

theorem KeepsO.some {s t : State} (h : Keeps s t) : KeepsO s (some t) := fun _ e => by cases e; exact h

theorem KeepsO.none {s : State} : KeepsO s none := fun _ e => by cases e

theorem KeepsO.ite {s : State} {c : Prop} [Decidable c] {a b : Option State} (h : c → KeepsO s a) (k : ¬c → KeepsO s b) :
    KeepsO s (if c then a else b) := by split <;> simp_all

theorem Keeps.mk2 {s t : State} {β : Type} {b : β} (h : Keeps s t) : Keeps s (b, t).2 := h

/-- The state of a pair that has been taken apart. -/
theorem Keeps.pair {s : State} {β : Type} {p : β × State} {b : β} {t : State} (e : p = (b, t)) (h : Keeps s p.2) : Keeps s t := by
  rw [e] at h; exact h

theorem KeepsO.get {s t : State} {o : Option State} (e : o = Option.some t) (h : KeepsO s o) : Keeps s t := h t e

/-- What the end of an instruction keeps. -/
def KeepsK (s : State) : KOut → Prop
  | .step t _ => Keeps s t
  | .goto t _ => Keeps s t
  | .hold t => Keeps s t
  | .trap t _ => Keeps s t

theorem KeepsK.ite {s : State} {c : Prop} [Decidable c] {a b : KOut} (h : c → KeepsK s a) (k : ¬c → KeepsK s b) :
    KeepsK s (if c then a else b) := by split <;> simp_all

/-! ### The tables -/

theorem keeps_setReg {s u : State} {off v} (h : Keeps s u) : Keeps s (u.setReg off v) :=
  ⟨⟨h.fixed.pending, h.fixed.part, h.fixed.stepping, h.fixed.otp, h.fixed.draws⟩, fun w =>
    have k := h.tables w
    ⟨k.mem, tabWf_tabSet regReset off v k.regs, k.bank0, k.bank1, k.store, k.sel⟩⟩

theorem keeps_setRegWords {s u : State} {off} {l : List Word} (h : Keeps s u) : Keeps s (u.setRegWords off l) := by
  induction l generalizing u off with
  | nil => exact h
  | cons v t ih => exact ih (keeps_setReg h)

theorem keeps_setByte {s u : State} {a b} (h : Keeps s u) : Keeps s (u.setByte a b) :=
  ⟨⟨h.fixed.pending, h.fixed.part, h.fixed.stepping, h.fixed.otp, h.fixed.draws⟩, fun w =>
    have k := h.tables w
    ⟨tabWf_tabSet _ a b k.mem, k.regs, k.bank0, k.bank1, k.store, k.sel⟩⟩

theorem keeps_setBytes {s u : State} {a bs} (h : Keeps s u) : Keeps s (u.setBytes a bs) :=
  ⟨⟨h.fixed.pending, h.fixed.part, h.fixed.stepping, h.fixed.otp, h.fixed.draws⟩, fun w =>
    have k := h.tables w
    ⟨tabWf_tabPutAll _ a bs k.mem, k.regs, k.bank0, k.bank1, k.store, k.sel⟩⟩

theorem keeps_putStore {s u : State} {a bs} (h : Keeps s u) : Keeps s (u.putStore a bs) :=
  ⟨⟨h.fixed.pending, h.fixed.part, h.fixed.stepping, h.fixed.otp, h.fixed.draws⟩, fun w =>
    have k := h.tables w
    ⟨k.mem, k.regs, k.bank0, k.bank1, tabWf_tabPutAll _ a bs k.store, k.sel⟩⟩

theorem keeps_putSel {s u : State} {n i v} (h : Keeps s u) : Keeps s (u.putSel n i v) :=
  ⟨⟨h.fixed.pending, h.fixed.part, h.fixed.stepping, h.fixed.otp, h.fixed.draws⟩, fun w =>
    have k := h.tables w
    ⟨k.mem, k.regs, k.bank0, k.bank1, k.store, tabWf_tabSet _ _ v k.sel⟩⟩

theorem keeps_selFilter {s u : State} {p} (h : Keeps s u) : Keeps s { u with sel := u.sel.filter p } :=
  ⟨⟨h.fixed.pending, h.fixed.part, h.fixed.stepping, h.fixed.otp, h.fixed.draws⟩, fun w =>
    have k := h.tables w
    ⟨k.mem, k.regs, k.bank0, k.bank1, k.store, tabWf_filter _ p k.sel⟩⟩

theorem tabWf_putCurve {b : List (Nat × Word)} (k : Nat × List Word) (h : tabWf (fun _ => 0#32) b) :
    tabWf (fun _ => 0#32) (putCurve b k) := by
  unfold putCurve
  generalize k.2.zipIdx = l
  induction l generalizing b with
  | nil => exact h
  | cons q l ih => exact ih (tabWf_tabSet _ _ _ h)

theorem tabWf_putCurves {b : List (Nat × Word)} (l : List (Nat × List Word)) (h : tabWf (fun _ => 0#32) b) :
    tabWf (fun _ => 0#32) (l.foldl putCurve b) := by
  induction l generalizing b with
  | nil => exact h
  | cons q l ih => exact ih (tabWf_putCurve q h)

/-- New curve banks, canonical when the old ones are. -/
theorem keeps_banks {s u : State} {b c} (h : Keeps s u)
    (k : tabWf (fun _ => 0#32) u.bank0 → tabWf (fun _ => 0#32) u.bank1 →
      tabWf (fun _ => 0#32) b ∧ tabWf (fun _ => 0#32) c) : Keeps s { u with bank0 := b, bank1 := c } :=
  ⟨⟨h.fixed.pending, h.fixed.part, h.fixed.stepping, h.fixed.otp, h.fixed.draws⟩, fun w =>
    have t := h.tables w
    have e := k t.bank0 t.bank1
    ⟨t.mem, t.regs, e.1, e.2, t.store, t.sel⟩⟩

theorem nth_set {α : Type} (d : α) (l : List α) (i j : Nat) (v : α) :
    nth d (l.set i v) j = if i = j ∧ i < l.length then v else nth d l j := by
  simp only [nth, List.getD_eq_getElem?_getD, List.getElem?_set]
  by_cases h : i = j
  · subst h
    by_cases k : i < l.length
    · simp [k]
    · simp [k, List.getElem?_eq_none (Nat.le_of_not_lt k)]
  · simp [h]

/-- Fuses that only grow. -/
theorem keeps_otp {s u : State} {o} (h : Keeps s u) (k : OtpGrows u.otp o) : Keeps s { u with otp := o } :=
  ⟨⟨h.fixed.pending, h.fixed.part, h.fixed.stepping,
    ⟨⟨k.slots.1.trans h.fixed.otp.slots.1, k.slots.2.trans h.fixed.otp.slots.2⟩, fun i x e => k.keys i x (h.fixed.otp.keys i x e),
      fun i e => k.revoked i (h.fixed.otp.revoked i e), Nat.le_trans h.fixed.otp.rollback k.rollback,
      fun e => k.wrapLock (h.fixed.otp.wrapLock e), Nat.le_trans h.fixed.otp.wraps k.wraps⟩, h.fixed.draws⟩, fun w =>
    have t := h.tables w
    ⟨t.mem, t.regs, t.bank0, t.bank1, t.store, t.sel⟩⟩

theorem keeps_fresh {s u : State} (h : Keeps s u) : Keeps s u.fresh.2 :=
  ⟨⟨h.fixed.pending, h.fixed.part, h.fixed.stepping, h.fixed.otp, Nat.le_succ_of_le h.fixed.draws⟩, fun w =>
    have k := h.tables w
    ⟨k.mem, k.regs, k.bank0, k.bank1, k.store, k.sel⟩⟩

theorem keeps_drawn {s u : State} {k} (h : Keeps s u) : Keeps s (u.drawn k) :=
  ⟨⟨h.fixed.pending, h.fixed.part, h.fixed.stepping, h.fixed.otp, Nat.le_trans h.fixed.draws (Nat.le_add_right _ _)⟩, fun w =>
    have k := h.tables w
    ⟨k.mem, k.regs, k.bank0, k.bank1, k.store, k.sel⟩⟩

end Sys2Proof.Machine
end

