-- ==== Sys2Proof/Laws/KeepsOps.lean ====
section
/-! SUPPORT. What the operations of Machine/Ops.lean keep (Laws/Keeps.lean). -/

namespace Sys2Proof.Machine

theorem keeps_setRegN {s u : State} {x1} {x2} (h : Keeps s u) :
    Keeps s (State.setRegN u x1 x2) := by
  unfold State.setRegN
  exact (keeps_setReg h)

theorem keeps_setF {s u : State} {x1} {x2} (h : Keeps s u) :
    Keeps s (State.setF u x1 x2) := by
  unfold State.setF
  exact (keeps_setRegN h)

theorem keeps_setB {s u : State} {x1} {x2} (h : Keeps s u) :
    Keeps s (State.setB u x1 x2) := by
  unfold State.setB
  exact (keeps_setF h)

theorem keeps_bumpBy {s u : State} {x1} {x2} (h : Keeps s u) :
    Keeps s (State.bumpBy u x1 x2) := by
  unfold State.bumpBy
  exact (keeps_setRegN h)

theorem keeps_bump {s u : State} {x1} (h : Keeps s u) :
    Keeps s (State.bump u x1) := by
  unfold State.bump
  exact (keeps_bumpBy h)

theorem keeps_bumpF {s u : State} {x1} {x2} (h : Keeps s u) :
    Keeps s (State.bumpF u x1 x2) := by
  unfold State.bumpF
  exact (keeps_setF h)

theorem keeps_raise {s u : State} {x1} {x2} (h : Keeps s u) :
    Keeps s (State.raise u x1 x2) := by
  unfold State.raise
  exact (keeps_bump (keeps_setF h))

theorem keeps_setPair {s u : State} {x1} {x2} {x3} (h : Keeps s u) :
    Keeps s (State.setPair u x1 x2 x3) := by
  unfold State.setPair
  exact (keeps_setRegN (keeps_setRegN h))

theorem keeps_storeN {s u : State} {x1} {x2} {x3} (h : Keeps s u) :
    Keeps s (State.storeN u x1 x2 x3) := by
  unfold State.storeN
  exact (keeps_setBytes h)

theorem keeps_setDom {s u : State} {x1} {x2} (h : Keeps s u) :
    Keeps s (State.setDom u x1 x2) := by
  unfold State.setDom
  extract_lets -merge v6 v7
  exact (Keeps.ite (fun _ => (Keeps.upd h)) (fun _ => (Keeps.upd h)))

theorem keeps_wakeNote {s u : State} {x1} (h : Keeps s u) :
    Keeps s (State.wakeNote u x1) := by
  unfold State.wakeNote
  exact (Keeps.ite (fun _ => h) (fun _ => (Keeps.upd h)))

theorem keeps_heard {s u : State} (h : Keeps s u) :
    Keeps s (State.heard u) := by
  unfold State.heard
  exact Keeps.upd h

theorem keeps_assertFault {s u : State} {x1} (h : Keeps s u) :
    Keeps s (State.assertFault u x1) := by
  unfold State.assertFault
  exact (Keeps.upd h)

theorem keeps_releaseFault {s u : State} {x1} (h : Keeps s u) :
    Keeps s (State.releaseFault u x1) := by
  unfold State.releaseFault
  exact (Keeps.upd h)

end Sys2Proof.Machine
end

