-- ==== Sys2Proof/Laws/KeepsEvents.lean ====
section
/-! SUPPORT. What the operations of Machine/Events.lean keep (Laws/Keeps.lean). -/

namespace Sys2Proof.Machine

theorem keeps_spoolPut {s u : State} {x1} {x2} {x3} {x4} (h : Keeps s u) :
    Keeps s (State.spoolPut u x1 x2 x3 x4) := by
  unfold State.spoolPut
  refine Keeps.ite (fun _ => h) (fun _ => ?_)
  refine Keeps.ite (fun _ => keeps_bump h) (fun _ => ?_)
  extract_lets -merge v1 v2 v3 v4 v5 v6
  have h7 : Keeps s v3 := Keeps.upd h
  have h8 : Keeps s v5 := Keeps.upd h7
  exact Keeps.ite (fun _ => keeps_bump h7) (fun _ => Keeps.ite (fun _ => keeps_setF (Keeps.upd h8)) (fun _ => h8))

theorem keeps_spoolEv {s u : State} {x1} {x2} {x3} (h : Keeps s u) :
    Keeps s (State.spoolEv u x1 x2 x3) := by
  unfold State.spoolEv
  exact (keeps_spoolPut h)

theorem keeps_takeSeq {s u : State} (h : Keeps s u) :
    Keeps s (State.takeSeq u).2 := by
  unfold State.takeSeq
  extract_lets -merge v4
  exact (Keeps.mk2 (keeps_setRegN h))

theorem keeps_noteLoss {s u : State} {x1} (h : Keeps s u) :
    Keeps s (State.noteLoss u x1) := by
  unfold State.noteLoss
  extract_lets -merge v5 v6 v7 v8 v9
  have h18 : Keeps s v5 := (keeps_bump (keeps_setF h))
  have h11 : Keeps s v7 := (Keeps.upd h18)
  split
  · exact (Keeps.upd h11)
  · split
    rename_i y27 h28
    have h29 := Keeps.pair h28 (keeps_takeSeq h11)
    extract_lets -merge v24 v25 v26
    have h30 : Keeps s v26 := (Keeps.upd h29)
    exact (keeps_spoolEv h30)

theorem keeps_loseEv {s u : State} {x1} (h : Keeps s u) :
    Keeps s (State.loseEv u x1) := by
  unfold State.loseEv
  exact (keeps_noteLoss (keeps_bump h))

theorem keeps_boxPut {s u : State} {x1} (h : Keeps s u) :
    Keeps s (State.boxPut u x1) := by
  unfold State.boxPut
  extract_lets -merge v1 v2 v3
  have h4 : Keeps s v2 := Keeps.upd h
  exact Keeps.ite (fun _ => keeps_setF (Keeps.upd h4)) (fun _ => h4)

theorem keeps_offer {s u : State} {x1} (h : Keeps s u) :
    Keeps s (State.offer u x1) := by
  unfold State.offer
  extract_lets -merge v1
  have h2 : Keeps s v1 := Keeps.ite (fun _ => keeps_wakeNote h) (fun _ => h)
  exact Keeps.ite (fun _ => keeps_boxPut h2) (fun _ => keeps_loseEv h2)

theorem keeps_post {s u : State} {x1} {x2} {x3} (h : Keeps s u) :
    Keeps s (State.post u x1 x2 x3) := by
  unfold State.post
  extract_lets -merge v8 v9
  exact (Keeps.ite (fun _ => (keeps_offer h)) (fun _ => (Keeps.upd h)))

theorem keeps_postAll {s u : State} {x1} (h : Keeps s u) :
    Keeps s (State.postAll u x1) := by
  unfold State.postAll
  refine (Keeps.foldl h (fun _ _ _ => ?_))
  rename_i y13 y14 h15
  exact (keeps_post h15)

theorem keeps_notePost {s u : State} {x1} {x2} (h : Keeps s u) :
    Keeps s (State.notePost u x1 x2) := by
  unfold State.notePost
  exact (Keeps.upd h)

theorem keeps_postGap {s u : State} {x1} {x2} {x3} {x4} {x5} (h : Keeps s u) :
    Keeps s (State.postGap u x1 x2 x3 x4 x5) := by
  unfold State.postGap
  extract_lets -merge v9 v10
  exact (Keeps.ite (fun _ => (keeps_post (keeps_notePost h))) (fun _ => h))

theorem keeps_postOnce {s u : State} {x1} {x2} {x3} {x4} {x5} (h : Keeps s u) :
    Keeps s (State.postOnce u x1 x2 x3 x4 x5) := by
  unfold State.postOnce
  extract_lets -merge v9
  exact (Keeps.ite (fun _ => h) (fun _ => (keeps_post (keeps_notePost h))))

theorem keeps_busErr {s u : State} {x1} (h : Keeps s u) :
    Keeps s (State.busErr u x1) := by
  unfold State.busErr
  exact (keeps_post (keeps_setRegN (keeps_raise h)))

theorem keeps_unmapped {s u : State} {x1} (h : Keeps s u) :
    Keeps s (State.unmapped u x1) := by
  unfold State.unmapped
  exact (keeps_setRegN (keeps_raise h))

theorem keeps_lockViol {s u : State} {x1} (h : Keeps s u) :
    Keeps s (State.lockViol u x1) := by
  unfold State.lockViol
  exact (keeps_postGap (keeps_raise h))

theorem keeps_lockWrite {s u : State} {x1} {x2} {x3} {x4 : Sys2Proof.Word → State → State} (h : Keeps s u) (k4 : ∀ w v, Keeps s v → Keeps s (x4 w v)) :
    Keeps s (State.lockWrite u x1 x2 x3 x4) := by
  unfold State.lockWrite
  extract_lets -merge v9 v10 v11
  have h12 : Keeps s v11 := (Keeps.ite (fun _ => (keeps_lockViol h)) (fun _ => h))
  exact (Keeps.ite (fun _ => (keeps_lockViol h)) (fun _ => (k4 _ _ h12)))

theorem keeps_inCore {s u : State} {x1 : State → State} (h : Keeps s u) (k1 : ∀ v, Keeps s v → Keeps s (x1 v)) :
    Keeps s (State.inCore u x1) := by
  unfold State.inCore
  exact Keeps.ite (fun _ => k1 _ h) (fun _ => h)

theorem keeps_viaReg {s u : State} {x1} {x2 : State → State} (h : Keeps s u) (k2 : ∀ v, Keeps s v → Keeps s (x2 v)) :
    Keeps s (State.viaReg u x1 x2) := by
  unfold State.viaReg
  exact (Keeps.ite (fun _ => h) (fun _ => (Keeps.ite (fun _ => (keeps_lockViol h)) (fun _ => (k2 _ h)))))

theorem keeps_viaRegV {s u : State} {x1} {x2} {x3 : Sys2Proof.Word → State → State} (h : Keeps s u) (k3 : ∀ w v, Keeps s v → Keeps s (x3 w v)) :
    Keeps s (State.viaRegV u x1 x2 x3) := by
  unfold State.viaRegV
  refine (Keeps.ite (fun _ => h) (fun _ => ?_))
  split
  · exact (keeps_unmapped h)
  · refine (keeps_lockWrite h (fun _ _ _ => ?_))
    rename_i y31 h32
    exact (k3 _ _ h32)

end Sys2Proof.Machine
end

