-- ==== Sys2Proof/Laws/KeepsEthFrame.lean ====
section
/-! SUPPORT. What the operations of Machine/EthFrame.lean keep (Laws/Keeps.lean). -/

namespace Sys2Proof.Machine

theorem keeps_updHost {s u : State} {x1} (h : Keeps s u) :
    Keeps s (State.updHost u x1) := by
  unfold State.updHost
  exact (Keeps.upd h)

theorem keeps_hostEv {s u : State} {x1} {x2} {x3} {x4} (h : Keeps s u) :
    Keeps s (State.hostEv u x1 x2 x3 x4) := by
  unfold State.hostEv
  exact (keeps_postGap h)

/-- What an opened frame keeps. -/
theorem keeps_secOpen {s u t : State} {x1 x2 d} (e : State.secOpen u x1 x2 = some (d, t)) (h : Keeps s u) : Keeps s t := by
  unfold State.secOpen at e
  extract_lets at e
  split at e
  · cases e
  · extract_lets at e
    split at e
    · cases e
    · split at e
      · cases e
      · cases e; exact keeps_updHost h

theorem keeps_ethSend {s u : State} {x1} {x2} {x3} (h : Keeps s u) :
    Keeps s (State.ethSend u x1 x2 x3) := by
  unfold State.ethSend
  exact keeps_updHost h

theorem keeps_ethOut {s u : State} {x1} {x2} (h : Keeps s u) :
    Keeps s (State.ethOut u x1 x2) := by
  unfold State.ethOut
  refine Keeps.ite (fun _ => keeps_ethSend h) (fun _ => ?_)
  split
  · exact h
  · refine Keeps.ite (fun _ => h) (fun _ => ?_)
    extract_lets -merge v6 v7
    have h8 : Keeps s v6 := keeps_ethSend h
    have h9 : Keeps s v7 := keeps_updHost h8
    exact Keeps.ite (fun _ => keeps_hostEv h9) (fun _ => h9)

end Sys2Proof.Machine
end

