-- ==== Sys2Proof/Laws/KeepsEcc.lean ====
section
/-! SUPPORT. What the operations of Machine/Ecc.lean keep (Laws/Keeps.lean). -/

namespace Sys2Proof.Machine

theorem keeps_setSynd {s u : State} {x1} {x2} (h : Keeps s u) :
    Keeps s (State.setSynd u x1 x2) := by
  unfold State.setSynd
  extract_lets -merge v6
  exact (Keeps.upd h)

theorem keeps_flipMem {s u : State} {x1} {x2} (h : Keeps s u) :
    Keeps s (State.flipMem u x1 x2) := by
  unfold State.flipMem
  extract_lets -merge v6
  exact (keeps_setByte h)

theorem keeps_eccRecent {s u : State} {x1} {x2} (h : Keeps s u) :
    Keeps s (State.eccRecent u x1 x2) := by
  unfold State.eccRecent
  extract_lets -merge v11 v12 v13
  split
  · exact (Keeps.ite (fun _ => (keeps_post (keeps_raise h))) (fun _ => (Keeps.upd h)))
  · exact (Keeps.upd h)

theorem keeps_beCount {s u : State} {x1} (h : Keeps s u) :
    Keeps s (State.beCount u x1) := by
  unfold State.beCount
  split
  · exact keeps_bump h
  · exact h

theorem keeps_noteCe {s u : State} {x1} {x2} {x3} (h : Keeps s u) :
    Keeps s (State.noteCe u x1 x2 x3) := by
  unfold State.noteCe
  extract_lets -merge v1 v2 v3 v4 v5 v6 v7 v8 v9 v10 v11 v12
  have h13 : Keeps s v1 := keeps_raise (keeps_beCount h)
  have h14 : Keeps s v2 := keeps_bumpF h13
  have h15 : Keeps s v3 := keeps_setPair h14
  have h16 : Keeps s v4 := keeps_setRegN h15
  have h17 : Keeps s v7 := Keeps.upd h16
  have h18 : Keeps s v10 := keeps_post (keeps_notePost h17)
  have h19 : Keeps s v12 := Keeps.ite (fun _ => Keeps.upd h18) (fun _ => h17)
  exact keeps_eccRecent h19

theorem keeps_noteUe {s u : State} {x1} {x2} {x3} (h : Keeps s u) :
    Keeps s (State.noteUe u x1 x2 x3) := by
  unfold State.noteUe
  extract_lets -merge v8 v9 v10 v11
  have h19 : Keeps s v8 := (keeps_raise h)
  have h33 : Keeps s v9 := (keeps_bumpF h19)
  have h13 : Keeps s v10 := (keeps_setPair h33)
  have h16 : Keeps s v11 := (keeps_setRegN h13)
  exact (keeps_postOnce h16)

theorem keeps_checkWord {s u : State} {x1} (h : Keeps s u) :
    Keeps s (State.checkWord u x1).2 := by
  unfold State.checkWord
  extract_lets -merge v8
  split
  · exact (Keeps.mk2 h)
  · split
    · exact (Keeps.mk2 h)
    · exact (Keeps.mk2 (keeps_noteCe (keeps_setSynd h)))
    · exact (Keeps.mk2 (keeps_noteCe (keeps_setSynd (Keeps.ite (fun _ => h) (fun _ => (keeps_flipMem h))))))
    · exact (Keeps.mk2 (keeps_noteUe h))

theorem keeps_checkRange {s u : State} {x1} {x2} (h : Keeps s u) :
    Keeps s (State.checkRange u x1 x2).2 := by
  unfold State.checkRange
  refine (Keeps.foldl2 (Keeps.mk2 h) (fun _ _ _ => ?_))
  rename_i h17
  split
  rename_i y31
  split
  rename_i y44 h45
  have h46 := Keeps.pair h45 (keeps_checkWord h17)
  exact (Keeps.mk2 h46)

theorem keeps_readMem {s u : State} {x1} {x2} (h : Keeps s u) :
    Keeps s (State.readMem u x1 x2).2 := by
  unfold State.readMem
  split
  rename_i y32 h33
  have h34 := Keeps.pair h33 (keeps_checkRange h)
  exact (Keeps.mk2 h34)

theorem keeps_prepWord {s u : State} {x1} {x2} {x3} (h : Keeps s u) :
    Keeps s (State.prepWord u x1 x2 x3) := by
  unfold State.prepWord
  refine (Keeps.ite (fun _ => (keeps_setSynd h)) (fun _ => ?_))
  split
  rename_i y25 h26
  have h27 := Keeps.pair h26 (keeps_checkWord h)
  exact (Keeps.ite (fun _ => (keeps_setSynd h27)) (fun _ => (keeps_setSynd h27)))

theorem keeps_injectInto {s u : State} {x1} {x2} (h : Keeps s u) :
    Keeps s (State.injectInto u x1 x2) := by
  unfold State.injectInto
  extract_lets -merge v6 v7 v8
  have h12 : Keeps s v7 := by
    unfold v7
    unfold v6
    extract_lets -merge v9
    have h11 : Keeps s v9 := (Keeps.ite (fun _ => (keeps_flipMem h)) (fun _ => h))
    exact (keeps_setSynd h11)
  have h10 : Keeps s v8 := by
    refine (Keeps.ite (fun _ => ?_) (fun _ => h12))
    unfold v6
    extract_lets -merge v19
    have h22 : Keeps s v19 := (Keeps.ite (fun _ => (keeps_flipMem h12)) (fun _ => h12))
    exact (keeps_setSynd h22)
  exact (Keeps.ite (fun _ => (keeps_setF h10)) (fun _ => h))

theorem keeps_injectWord {s u : State} {x1} {x2} (h : Keeps s u) :
    Keeps s (State.injectWord u x1 x2) := by
  unfold State.injectWord
  exact (Keeps.ite (fun _ => (keeps_setF (keeps_setSynd h))) (fun _ => h))

theorem keeps_synFound {s u : State} {x1} {x2} (h : Keeps s u) :
    Keeps s (State.synFound u x1 x2).2 := by
  unfold State.synFound
  split
  rename_i y14 h15
  have h17 := Keeps.pair h15 (keeps_fresh h)
  split
  · exact (Keeps.mk2 h17)
  · exact (Keeps.mk2 (keeps_noteCe h17))
  · exact (Keeps.mk2 (keeps_noteUe h17))

theorem keeps_injectFound {s u : State} {x1} (h : Keeps s u) :
    Keeps s (State.injectFound u x1).2 := by
  unfold State.injectFound
  exact (keeps_synFound (keeps_setF h))

theorem keeps_hidWrite {s u : State} {x1} (h : Keeps s u) :
    Keeps s (State.hidWrite u x1) := by
  unfold State.hidWrite
  exact Keeps.ite (fun _ => keeps_setF (Keeps.upd h)) (fun _ => h)

theorem keeps_writeMem {s u : State} {x1} {x2} (h : Keeps s u) :
    Keeps s (State.writeMem u x1 x2) := by
  unfold State.writeMem
  extract_lets -merge v12 v13
  have h17 : Keeps s v12 := by
    refine (Keeps.foldl h (fun _ _ _ => ?_))
    rename_i y22 y23 h24
    exact (keeps_prepWord h24)
  have h23 : Keeps s v13 := (keeps_setBytes h17)
  split
  · exact (keeps_injectInto h23)
  · exact h23
theorem keeps_putDram {s u : State} {x1} {x2} (h : Keeps s u) :
    Keeps s (State.putDram u x1 x2) := by
  unfold State.putDram
  exact Keeps.ite (fun _ => keeps_writeMem h) (fun _ => keeps_busErr h)

end Sys2Proof.Machine
end

