-- ==== Sys2Proof/Laws/KeepsOperands.lean ====
section
/-! SUPPORT. What the operations of Machine/Operands.lean keep (Laws/Keeps.lean). -/

namespace Sys2Proof.Machine

theorem keeps_setEng {s u : State} {x1} {x2} (h : Keeps s u) :
    Keeps s (State.setEng u x1 x2) := by
  unfold State.setEng
  exact (Keeps.upd h)

theorem keeps_updEng {s u : State} {x1} {x2} (h : Keeps s u) :
    Keeps s (State.updEng u x1 x2) := by
  unfold State.updEng
  exact (keeps_setEng h)

theorem keeps_putS {s u : State} {x1} {x2} {x3} {x4} (h : Keeps s u) :
    Keeps s (State.putS u x1 x2 x3 x4) := by
  unfold State.putS
  exact (keeps_updEng h)

theorem keeps_putV {s u : State} {x1} {x2} {x3} {x4} (h : Keeps s u) :
    Keeps s (State.putV u x1 x2 x3 x4) := by
  unfold State.putV
  exact (keeps_updEng h)

theorem keeps_putP {s u : State} {x1} {x2} {x3} {x4} (h : Keeps s u) :
    Keeps s (State.putP u x1 x2 x3 x4) := by
  unfold State.putP
  exact (keeps_updEng h)

theorem keeps_beCheck {s u : State} {x1} {x2} (h : Keeps s u) :
    Keeps s (State.beCheck u x1 x2).2 := by
  unfold State.beCheck
  extract_lets -merge v1
  split
  rename_i e5
  have h6 := Keeps.pair e5 (keeps_checkRange h)
  exact h6

theorem keeps_ldRead {s u : State} {x1} {x2} {x3} {x4} (h : Keeps s u) :
    Keeps s (State.ldRead u x1 x2 x3 x4).2 := by
  unfold State.ldRead
  split
  · exact h
  · split
    rename_i e10
    have h11 := Keeps.pair e10 (keeps_beCheck h)
    exact Keeps.ite2 (fun _ => h11) (fun _ => h11)

theorem keeps_ldPut {s u : State} {x1} {x2} {x3} (h : Keeps s u) :
    Keeps s (State.ldPut u x1 x2 x3).2 := by
  unfold State.ldPut
  extract_lets -merge v1 v2 v3 v4
  exact Keeps.mk2 (keeps_writeMem h)

theorem keeps_ldPuts {s u : State} {x1} {x2} (h : Keeps s u) :
    Keeps s (State.ldPuts u x1 x2).2 := by
  unfold State.ldPuts
  refine Keeps.foldl2 h (fun y1 y2 h3 => ?_)
  split
  split
  rename_i e11
  have h12 := Keeps.pair e11 (keeps_ldPut h3)
  exact h12

theorem keeps_ldWrite {s u : State} {x1} {x2} {x3} {x4} (h : Keeps s u) :
    Keeps s (State.ldWrite u x1 x2 x3 x4).2 := by
  unfold State.ldWrite
  split
  · exact h
  · split
    rename_i e10
    have h11 := Keeps.pair e10 (keeps_ldPut h)
    exact h11

theorem keeps_readSpr {s u : State} {x1} {x2} (h : Keeps s u) :
    Keeps s (State.readSpr u x1 x2).2 := by
  unfold State.readSpr
  extract_lets -merge v6 v7
  split
  · exact (Keeps.mk2 h)
  · exact (Keeps.mk2 h)
  · exact (Keeps.mk2 h)
  · exact (Keeps.mk2 h)
  · exact (Keeps.mk2 h)
  · exact (Keeps.mk2 h)
  · exact (Keeps.mk2 (keeps_updEng h))
  · exact (Keeps.mk2 h)
  · exact (Keeps.mk2 h)
  · exact (Keeps.mk2 h)
  · exact (Keeps.mk2 h)
  · exact (Keeps.mk2 h)
  · exact (Keeps.mk2 h)
  · exact (keeps_fresh h)

end Sys2Proof.Machine
end

