-- ==== Sys2Proof/Laws/KeepsFlags.lean ====
section
/-! SUPPORT. What the operations of Machine/Flags.lean keep (Laws/Keeps.lean). -/

namespace Sys2Proof.Machine

theorem keeps_setBeState {s u : State} {x1} {x2} (h : Keeps s u) :
    Keeps s (State.setBeState u x1 x2) := by
  unfold State.setBeState
  exact (keeps_setF h)

theorem keeps_beWait {s u : State} {x1} {x2} (h : Keeps s u) :
    Keeps s (State.beWait u x1 x2) := by
  unfold State.beWait
  extract_lets -merge v6
  have h9 : Keeps s v6 := (keeps_updEng h)
  exact (keeps_setF (keeps_setBeState h9))

theorem keeps_waitCount {s u : State} {x1} (h : Keeps s u) :
    Keeps s (State.waitCount u x1) := by
  unfold State.waitCount
  extract_lets -merge v1
  exact keeps_updEng h

theorem keeps_beSettle {s u : State} (h : Keeps s u) :
    Keeps s (State.beSettle u) := by
  unfold State.beSettle
  exact Keeps.foldl h (fun y1 y2 h3 => Keeps.ite (fun _ => keeps_waitCount h3) (fun _ => h3))

theorem keeps_beResume {s u : State} {x1} (h : Keeps s u) :
    Keeps s (State.beResume u x1) := by
  unfold State.beResume
  extract_lets -merge v1
  have h2 : Keeps s v1 := keeps_updEng (keeps_waitCount h)
  exact keeps_setF (keeps_setBeState h2)

theorem keeps_dmaStatus {s u : State} {x1} (h : Keeps s u) :
    Keeps s (State.dmaStatus u x1).2 := by
  unfold State.dmaStatus
  extract_lets -merge v6 v7
  refine (Keeps.ite2 (fun _ => (Keeps.mk2 h)) (fun _ => ?_))
  split
  rename_i y32 h33
  have h34 := Keeps.pair h33 (keeps_fresh h)
  exact (Keeps.mk2 h34)

theorem keeps_arrive {s u : State} {x1} (h : Keeps s u) :
    Keeps s (State.arrive u x1) := by
  unfold State.arrive
  extract_lets -merge v5
  split
  · extract_lets -merge v18 v19
    have h25 : Keeps s v18 := (Keeps.ite (fun _ => (keeps_raise h)) (fun _ => h))
    exact (Keeps.upd h25)
  · extract_lets -merge v13
    exact (Keeps.upd h)

theorem keeps_settleCross {s u : State} (h : Keeps s u) :
    Keeps s (State.settleCross u) := by
  unfold State.settleCross
  extract_lets -merge v5 v6 v7
  have h11 : Keeps s v7 := (Keeps.upd h)
  refine (Keeps.foldl h11 (fun _ _ _ => ?_))
  rename_i y22 y23 h24
  exact (keeps_arrive h24)

theorem keeps_cross {s u : State} {x1} (h : Keeps s u) :
    Keeps s (State.cross u x1) := by
  unfold State.cross
  extract_lets -merge v5 v6
  have h7 : Keeps s v5 := (keeps_settleCross h)
  exact (Keeps.upd h7)

theorem keeps_signal {s u : State} {x1} {x2} (h : Keeps s u) :
    Keeps s (State.signal u x1 x2) := by
  unfold State.signal
  exact keeps_cross (keeps_setReg h)

theorem keeps_putImages {s u : State} {x1} {x2} {x3} (h : Keeps s u) :
    Keeps s (State.putImages u x1 x2 x3) := by
  unfold State.putImages
  exact keeps_writeMem (keeps_writeMem h)

theorem keeps_putCopy {s u : State} {x1} {x2} {x3} (h : Keeps s u) :
    Keeps s (State.putCopy u x1 x2 x3) := by
  unfold State.putCopy
  exact keeps_putDram (keeps_putDram h)

theorem keeps_loadImages {s u : State} {x1} {x2} (h : Keeps s u) :
    Keeps s (State.loadImages u x1 x2) := by
  unfold State.loadImages
  exact keeps_putImages (keeps_putCopy h)

theorem keeps_readCopy {s u : State} {x1} {x2} (h : Keeps s u) :
    Keeps s (State.readCopy u x1 x2).2 := by
  unfold State.readCopy
  split
  rename_i e5
  have h6 := Keeps.pair e5 (keeps_readMem h)
  split
  rename_i e11
  have h12 := Keeps.pair e11 (keeps_readMem h6)
  exact h12

theorem keeps_reloadFrom {s u : State} {x1} {x2} {x3} (h : Keeps s u) :
    Keeps s (State.reloadFrom u x1 x2 x3).2 := by
  unfold State.reloadFrom
  split
  · rename_i e3
    have h4 := Keeps.pair e3 (keeps_readCopy h)
    exact h4
  · rename_i e9
    have h10 := Keeps.pair e9 (keeps_readCopy h)
    exact Keeps.mk2 (keeps_putImages (Keeps.ite (fun _ => h10) (fun _ => keeps_putCopy h10)))

theorem keeps_setBeRegs {s u : State} {x1} {x2} (h : Keeps s u) :
    Keeps s (State.setBeRegs u x1 x2) := by
  unfold State.setBeRegs
  extract_lets -merge v6
  have h7 : Keeps s v6 := (keeps_setReg (keeps_setRegN h))
  exact (keeps_setRegN (keeps_setRegN h7))

theorem keeps_dropProg {s u : State} {x1} (h : Keeps s u) :
    Keeps s (State.dropProg u x1) := by
  unfold State.dropProg
  exact (Keeps.upd h)

theorem keeps_enterProgram {s u : State} {x1} {x2} (h : Keeps s u) :
    Keeps s (State.enterProgram u x1 x2) := by
  unfold State.enterProgram
  extract_lets -merge v1
  have h2 : Keeps s v1 := keeps_setRegN (keeps_setBeRegs (keeps_setEng (keeps_dropProg h)))
  exact keeps_setBeState h2

theorem keeps_placeProgram {s u : State} {x1} {x2} (h : Keeps s u) :
    Keeps s (State.placeProgram u x1 x2) := by
  unfold State.placeProgram
  exact keeps_enterProgram (keeps_loadImages h)

theorem keeps_spareTake {s u : State} {x1} {x2} {x3} (h : Keeps s u) :
    Keeps s (State.spareTake u x1 x2 x3) := by
  unfold State.spareTake
  extract_lets -merge v1 v2 v3
  have h4 : Keeps s v1 := keeps_enterProgram h
  have h5 : Keeps s v2 := keeps_setReg (keeps_setReg (keeps_setReg h4))
  have h6 : Keeps s v3 := keeps_setF (keeps_setF h5)
  exact keeps_post h6

theorem keeps_spareTakeover {s u : State} {x1} (h : Keeps s u) :
    Keeps s (State.spareTakeover u x1) := by
  unfold State.spareTakeover
  split
  · exact h
  · extract_lets -merge v6 v7
    split
    rename_i e11
    have h12 := Keeps.pair e11 (Keeps.ite2 (fun _ => keeps_reloadFrom h) (fun _ => h))
    exact Keeps.ite (fun _ => keeps_spareTake h12) (fun _ => keeps_post h12)

theorem keeps_enterFaulted {s u : State} {x1} {x2} (h : Keeps s u) :
    Keeps s (State.enterFaulted u x1 x2) := by
  unfold State.enterFaulted
  extract_lets -merge v6 v7 v8 v9 v10 v11
  have h22 : Keeps s v8 := (keeps_updEng h)
  have h25 : Keeps s v9 := (keeps_setF (keeps_setF (keeps_setF h22)))
  have h28 : Keeps s v10 := (keeps_raise (keeps_setBeState h25))
  have h15 : Keeps s v11 := (keeps_post h28)
  exact (Keeps.ite (fun _ => (keeps_spareTakeover h15)) (fun _ => h15))

theorem keeps_engineTrap {s u : State} {x1} {x2} (h : Keeps s u) :
    Keeps s (State.engineTrap u x1 x2) := by
  unfold State.engineTrap
  extract_lets -merge v13 v14 v15
  have h20 : Keeps s v14 := (keeps_updEng h)
  have h23 : Keeps s v15 := (keeps_updEng h20)
  exact (Keeps.ite (fun _ => h) (fun _ => (Keeps.ite (fun _ => (keeps_enterFaulted h20)) (fun _ => (keeps_setF (keeps_setF (keeps_setBeState h23)))))))

theorem keeps_trapAll {s u : State} {x1} (h : Keeps s u) :
    Keeps s (State.trapAll u x1) := by
  unfold State.trapAll
  exact Keeps.foldl h (fun y1 y2 h3 => keeps_engineTrap h3)

theorem keeps_readAll {s u : State} {x1} {x2} (h : Keeps s u) :
    Keeps s (State.readAll u x1 x2).2 := by
  unfold State.readAll
  extract_lets -merge v1
  split
  rename_i e5
  have h6 := Keeps.pair e5 (keeps_readMem h)
  exact Keeps.mk2 (keeps_trapAll h6)

theorem keeps_writeAll {s u : State} {x1} {x2} (h : Keeps s u) :
    Keeps s (State.writeAll u x1 x2) := by
  unfold State.writeAll
  extract_lets -merge v1
  exact keeps_trapAll (keeps_writeMem h)

theorem keeps_settleTrap {s u : State} {x1} (h : Keeps s u) :
    Keeps s (State.settleTrap u x1) := by
  unfold State.settleTrap
  split
  · exact (Keeps.ite (fun _ => (keeps_enterFaulted h)) (fun _ => h))
  · exact h

theorem keeps_jobArgOf {s u : State} {x1} {x2} (h : Keeps s u) :
    Keeps s (State.jobArgOf u x1 x2).2 := by
  unfold State.jobArgOf
  split
  · exact h
  · exact h
  · exact h
  · exact h
  · exact keeps_fresh h

theorem keeps_takeUpdate {s u : State} {x1} (h : Keeps s u) :
    Keeps s (State.takeUpdate u x1) := by
  unfold State.takeUpdate
  extract_lets -merge v6
  split
  · exact h
  · extract_lets -merge v23 v24 v25 v26
    have h32 : Keeps s v24 := (keeps_setEng (keeps_dropProg h))
    have h16 : Keeps s v25 := (keeps_setRegN (keeps_loadImages h32))
    have h21 : Keeps s v26 := (keeps_setReg h16)
    exact (keeps_post h21)

theorem keeps_jobTake {s u : State} {x1} (h : Keeps s u) : Keeps s (State.jobTake u x1).2 := by
  unfold State.jobTake
  split
  · exact h
  · rename_i p _
    split
    · exact h
    · extract_lets -merge m d r k
      split
      rename_i e
      refine Keeps.mk2 (keeps_updEng (Keeps.pair e ?_))
      refine Keeps.foldl2 (p := (false, u)) h (fun a m k => ?_)
      exact keeps_beCheck k

theorem keeps_startJob {s u : State} {x1} {x2} {x3} (h : Keeps s u) :
    Keeps s (State.startJob u x1 x2 x3) := by
  unfold State.startJob
  extract_lets -merge v1
  have h2 : Keeps s v1 := keeps_takeUpdate h
  split
  rename_i e6
  have h7 := Keeps.pair e6 (keeps_jobArgOf h2)
  extract_lets -merge v8 v9
  have h10 : Keeps s v9 := keeps_updEng h7
  split
  rename_i e14
  have h15 := Keeps.pair e14 (keeps_jobTake h10)
  extract_lets -merge v16
  have h17 : Keeps s v16 := keeps_setF (keeps_setF (keeps_setBeState h15))
  exact Keeps.ite (fun _ => keeps_engineTrap h17) (fun _ => h17)

theorem keeps_trigger {s u : State} {x1} {x2} (h : Keeps s u) :
    Keeps s (State.trigger u x1 x2) := by
  unfold State.trigger
  extract_lets -merge v12 v13
  have h19 : Keeps s v13 := (keeps_setF (keeps_updEng h))
  exact (Keeps.ite (fun _ => (keeps_startJob h)) (fun _ => (Keeps.ite (fun _ => (Keeps.ite (fun _ => (keeps_postGap (keeps_raise h))) (fun _ => (Keeps.ite (fun _ => (keeps_wakeNote h19)) (fun _ => h19))))) (fun _ => h))))

theorem keeps_jobDone {s u : State} {x1} (h : Keeps s u) :
    Keeps s (State.jobDone u x1) := by
  unfold State.jobDone
  extract_lets -merge v5 v6 v7 v8 v9
  have h15 : Keeps s v6 := (keeps_setRegN h)
  have h17 : Keeps s v7 := (keeps_setRegN h15)
  have h22 : Keeps s v8 := (keeps_updEng h17)
  have h24 : Keeps s v9 := (keeps_setF (keeps_setBeState h22))
  exact (Keeps.ite (fun _ => (keeps_startJob h24)) (fun _ => (Keeps.ite (fun _ => (keeps_startJob h24)) (fun _ => h24))))

theorem keeps_beUngate {s u : State} (h : Keeps s u) :
    Keeps s (State.beUngate u) := by
  unfold State.beUngate
  extract_lets -merge v1
  refine Keeps.foldl h (fun y2 y3 h4 => ?_)
  extract_lets -merge v5
  have h6 : Keeps s v5 := keeps_updEng h4
  exact Keeps.ite (fun _ => keeps_startJob h6) (fun _ => h6)

end Sys2Proof.Machine
end

