-- ==== Sys2Proof/Laws/KeepsKeav.lean ====
section
/-! SUPPORT. What the operations of Machine/Keav.lean keep (Laws/Keeps.lean). -/

namespace Sys2Proof.Machine

theorem keeps_finishK {s : State} {x1} {k} (h : KeepsK s k) : Keeps s (State.finishK x1 k) := by
  unfold State.finishK
  cases k with
  | step t i => exact keeps_updEng h
  | goto t p => exact keeps_updEng h
  | hold t => exact h
  | trap t c => exact keeps_engineTrap h

theorem keeps_keavIssue {s u : State} {x1} {x2} {x3} {x4} {x5} {x6} {x7 : State → KOut} (h : Keeps s u)
    (k7 : ∀ v, Keeps s v → KeepsK s (x7 v)) : Keeps s (State.keavIssue u x1 x2 x3 x4 x5 x6 x7) := by
  unfold State.keavIssue
  extract_lets v1
  exact Keeps.ite (fun _ => keeps_engineTrap h) (fun _ => Keeps.ite (fun _ => keeps_updEng h) (fun _ => Keeps.ite (fun _ => keeps_engineTrap h)
    (fun _ => keeps_finishK (k7 _ (keeps_updEng h)))))

theorem keeps_keav {s u : State} {x1} {x2} {x3} {x4} {x5} {x6 : State → KOut} (h : Keeps s u) (k6 : ∀ v, Keeps s v → KeepsK s (x6 v)) :
    Keeps s (State.keav u x1 x2 x3 x4 x5 x6) := by
  unfold State.keav
  refine Keeps.ite (fun _ => h) (fun _ => Keeps.ite (fun _ => keeps_engineTrap h) (fun _ => ?_))
  split
  rename_i h1
  have h2 := Keeps.pair h1 (keeps_beCheck h)
  exact Keeps.ite (fun _ => keeps_engineTrap h2) (fun _ => keeps_keavIssue h2 k6)

theorem keeps_kAlu {s u : State} {x1} {x2} {x3} {x4} {x5} (h : Keeps s u) :
    Keeps s (State.kAlu u x1 x2 x3 x4 x5) := by
  unfold State.kAlu
  exact keeps_keav h (fun y1 y2 => keeps_putS y2)

theorem keeps_kAluI {s u : State} {x1} {x2} {x3} {x4} {x5} (h : Keeps s u) :
    Keeps s (State.kAluI u x1 x2 x3 x4 x5) := by
  unfold State.kAluI
  exact keeps_keav h (fun y1 y2 => keeps_putS y2)

theorem keeps_kDiv {s u : State} {x1} {x2} {x3} {x4} {x5} {x6} (h : Keeps s u) :
    Keeps s (State.kDiv u x1 x2 x3 x4 x5 x6) := by
  unfold State.kDiv
  exact keeps_keav h (fun y1 y2 => keeps_updEng (keeps_putS y2))

theorem keeps_kVec {s u : State} {x1} {x2} {x3} {x4} {x5} (h : Keeps s u) :
    Keeps s (State.kVec u x1 x2 x3 x4 x5) := by
  unfold State.kVec
  exact keeps_keav h (fun y1 y2 => keeps_putV y2)

theorem keeps_kVecI {s u : State} {x1} {x2} {x3} {x4} (h : Keeps s u) :
    Keeps s (State.kVecI u x1 x2 x3 x4) := by
  unfold State.kVecI
  exact keeps_keav h (fun y1 y2 => keeps_putV y2)

theorem keeps_kCmp {s u : State} {x1} {x2} {x3} {x4} (h : Keeps s u) :
    Keeps s (State.kCmp u x1 x2 x3 x4) := by
  unfold State.kCmp
  exact keeps_keav h (fun y1 y2 => keeps_putP y2)

theorem keeps_kPred {s u : State} {x1} {x2} {x3} {x4} (h : Keeps s u) :
    Keeps s (State.kPred u x1 x2 x3 x4) := by
  unfold State.kPred
  exact keeps_keav h (fun y1 y2 => keeps_putP y2)

theorem keeps_kBranch {s u : State} {x1} {x2} {x3} {x4} {x5} (h : Keeps s u) :
    Keeps s (State.kBranch u x1 x2 x3 x4 x5) := by
  unfold State.kBranch
  exact keeps_keav h (fun y1 y2 => KeepsK.ite (fun _ => y2) (fun _ => y2))

theorem keeps_kLoad {s u : State} {x1} {x2} {x3} {x4} (h : Keeps s u) :
    Keeps s (State.kLoad u x1 x2 x3 x4) := by
  unfold State.kLoad
  refine keeps_keav h ?_
  intro y1
  intro y2
  split
  · rename_i e6
    have h7 := Keeps.pair e6 (keeps_ldRead y2)
    exact h7
  · rename_i e12
    have h13 := Keeps.pair e12 (keeps_ldRead y2)
    exact keeps_putS h13

theorem keeps_kStore {s u : State} {x1} {x2} {x3} {x4} (h : Keeps s u) :
    Keeps s (State.kStore u x1 x2 x3 x4) := by
  unfold State.kStore
  refine keeps_keav h ?_
  intro y1
  intro y2
  split
  · rename_i e6
    have h7 := Keeps.pair e6 (keeps_ldWrite y2)
    exact h7
  · rename_i e12
    have h13 := Keeps.pair e12 (keeps_ldWrite y2)
    exact h13

theorem keeps_execNop {s u : State} {x0} {x1} (h : Keeps s u) :
    KeepsR s (execNop x0 x1 u) := by
  unfold execNop
  refine (KeepsR.next (keeps_keav h (fun _ _ => ?_)))
  rename_i y8 h9
  exact h9

theorem keeps_execBr {s u : State} {x0} {x1} (h : Keeps s u) :
    KeepsR s (execBr x0 x1 u) := by
  unfold execBr
  exact (KeepsR.next (keeps_kBranch h))

theorem keeps_execBrz {s u : State} {x0} {x1} (h : Keeps s u) :
    KeepsR s (execBrz x0 x1 u) := by
  unfold execBrz
  exact (KeepsR.next (keeps_kBranch h))

theorem keeps_execBrnz {s u : State} {x0} {x1} (h : Keeps s u) :
    KeepsR s (execBrnz x0 x1 u) := by
  unfold execBrnz
  exact (KeepsR.next (keeps_kBranch h))

theorem keeps_execBrlt {s u : State} {x0} {x1} (h : Keeps s u) :
    KeepsR s (execBrlt x0 x1 u) := by
  unfold execBrlt
  exact (KeepsR.next (keeps_kBranch h))

theorem keeps_execBrany {s u : State} {x0} {x1} (h : Keeps s u) :
    KeepsR s (execBrany x0 x1 u) := by
  unfold execBrany
  exact (KeepsR.next (keeps_kBranch h))

theorem keeps_execBrnone {s u : State} {x0} {x1} (h : Keeps s u) :
    KeepsR s (execBrnone x0 x1 u) := by
  unfold execBrnone
  exact (KeepsR.next (keeps_kBranch h))

theorem keeps_execCall {s u : State} {x0} {x1} (h : Keeps s u) :
    KeepsR s (execCall x0 x1 u) := by
  unfold execCall
  refine (KeepsR.next (keeps_keav h (fun _ _ => ?_)))
  rename_i y8 h9
  exact (keeps_putS h9)

theorem keeps_execRet {s u : State} {x0} {x1} (h : Keeps s u) :
    KeepsR s (execRet x0 x1 u) := by
  unfold execRet
  refine (KeepsR.next (keeps_keav h (fun _ _ => ?_)))
  rename_i y8 h9
  exact h9

theorem keeps_execLoop {s u : State} {x0} {x1} (h : Keeps s u) :
    KeepsR s (execLoop x0 x1 u) := by
  unfold execLoop
  refine (KeepsR.next (keeps_keav h (fun _ _ => ?_)))
  rename_i y8 h9
  extract_lets -merge v10
  have h12 : Keeps s v10 := (keeps_putS h9)
  refine KeepsK.ite (fun _ => ?_) (fun _ => ?_)
  · exact h12
  · exact h12

theorem keeps_execAdd {s u : State} {x0} {x1} (h : Keeps s u) :
    KeepsR s (execAdd x0 x1 u) := by
  unfold execAdd
  exact (KeepsR.next (keeps_kAlu h))

theorem keeps_execSub {s u : State} {x0} {x1} (h : Keeps s u) :
    KeepsR s (execSub x0 x1 u) := by
  unfold execSub
  exact (KeepsR.next (keeps_kAlu h))

theorem keeps_execMul {s u : State} {x0} {x1} (h : Keeps s u) :
    KeepsR s (execMul x0 x1 u) := by
  unfold execMul
  exact (KeepsR.next (keeps_kAlu h))

theorem keeps_execMulh {s u : State} {x0} {x1} (h : Keeps s u) :
    KeepsR s (execMulh x0 x1 u) := by
  unfold execMulh
  exact (KeepsR.next (keeps_kAlu h))

theorem keeps_execAnd {s u : State} {x0} {x1} (h : Keeps s u) :
    KeepsR s (execAnd x0 x1 u) := by
  unfold execAnd
  exact (KeepsR.next (keeps_kAlu h))

theorem keeps_execOr {s u : State} {x0} {x1} (h : Keeps s u) :
    KeepsR s (execOr x0 x1 u) := by
  unfold execOr
  exact (KeepsR.next (keeps_kAlu h))

theorem keeps_execXor {s u : State} {x0} {x1} (h : Keeps s u) :
    KeepsR s (execXor x0 x1 u) := by
  unfold execXor
  exact (KeepsR.next (keeps_kAlu h))

theorem keeps_execShl {s u : State} {x0} {x1} (h : Keeps s u) :
    KeepsR s (execShl x0 x1 u) := by
  unfold execShl
  exact (KeepsR.next (keeps_kAlu h))

theorem keeps_execShr {s u : State} {x0} {x1} (h : Keeps s u) :
    KeepsR s (execShr x0 x1 u) := by
  unfold execShr
  exact (KeepsR.next (keeps_kAlu h))

theorem keeps_execSra {s u : State} {x0} {x1} (h : Keeps s u) :
    KeepsR s (execSra x0 x1 u) := by
  unfold execSra
  exact (KeepsR.next (keeps_kAlu h))

theorem keeps_execSlt {s u : State} {x0} {x1} (h : Keeps s u) :
    KeepsR s (execSlt x0 x1 u) := by
  unfold execSlt
  exact (KeepsR.next (keeps_kAlu h))

theorem keeps_execSltu {s u : State} {x0} {x1} (h : Keeps s u) :
    KeepsR s (execSltu x0 x1 u) := by
  unfold execSltu
  exact (KeepsR.next (keeps_kAlu h))

theorem keeps_execMin {s u : State} {x0} {x1} (h : Keeps s u) :
    KeepsR s (execMin x0 x1 u) := by
  unfold execMin
  exact (KeepsR.next (keeps_kAlu h))

theorem keeps_execMax {s u : State} {x0} {x1} (h : Keeps s u) :
    KeepsR s (execMax x0 x1 u) := by
  unfold execMax
  exact (KeepsR.next (keeps_kAlu h))

theorem keeps_execDiv {s u : State} {x0} {x1} (h : Keeps s u) :
    KeepsR s (execDiv x0 x1 u) := by
  unfold execDiv
  exact (KeepsR.next (keeps_kDiv h))

theorem keeps_execAddi {s u : State} {x0} {x1} (h : Keeps s u) :
    KeepsR s (execAddi x0 x1 u) := by
  unfold execAddi
  exact (KeepsR.next (keeps_kAluI h))

theorem keeps_execSubi {s u : State} {x0} {x1} (h : Keeps s u) :
    KeepsR s (execSubi x0 x1 u) := by
  unfold execSubi
  exact (KeepsR.next (keeps_kAluI h))

theorem keeps_execMuli {s u : State} {x0} {x1} (h : Keeps s u) :
    KeepsR s (execMuli x0 x1 u) := by
  unfold execMuli
  exact (KeepsR.next (keeps_kAluI h))

theorem keeps_execMulhi {s u : State} {x0} {x1} (h : Keeps s u) :
    KeepsR s (execMulhi x0 x1 u) := by
  unfold execMulhi
  exact (KeepsR.next (keeps_kAluI h))

theorem keeps_execAndi {s u : State} {x0} {x1} (h : Keeps s u) :
    KeepsR s (execAndi x0 x1 u) := by
  unfold execAndi
  exact (KeepsR.next (keeps_kAluI h))

theorem keeps_execOri {s u : State} {x0} {x1} (h : Keeps s u) :
    KeepsR s (execOri x0 x1 u) := by
  unfold execOri
  exact (KeepsR.next (keeps_kAluI h))

theorem keeps_execXori {s u : State} {x0} {x1} (h : Keeps s u) :
    KeepsR s (execXori x0 x1 u) := by
  unfold execXori
  exact (KeepsR.next (keeps_kAluI h))

theorem keeps_execShli {s u : State} {x0} {x1} (h : Keeps s u) :
    KeepsR s (execShli x0 x1 u) := by
  unfold execShli
  exact (KeepsR.next (keeps_kAluI h))

theorem keeps_execShri {s u : State} {x0} {x1} (h : Keeps s u) :
    KeepsR s (execShri x0 x1 u) := by
  unfold execShri
  exact (KeepsR.next (keeps_kAluI h))

theorem keeps_execSrai {s u : State} {x0} {x1} (h : Keeps s u) :
    KeepsR s (execSrai x0 x1 u) := by
  unfold execSrai
  exact (KeepsR.next (keeps_kAluI h))

theorem keeps_execSlti {s u : State} {x0} {x1} (h : Keeps s u) :
    KeepsR s (execSlti x0 x1 u) := by
  unfold execSlti
  exact (KeepsR.next (keeps_kAluI h))

theorem keeps_execSltui {s u : State} {x0} {x1} (h : Keeps s u) :
    KeepsR s (execSltui x0 x1 u) := by
  unfold execSltui
  exact (KeepsR.next (keeps_kAluI h))

theorem keeps_execMini {s u : State} {x0} {x1} (h : Keeps s u) :
    KeepsR s (execMini x0 x1 u) := by
  unfold execMini
  exact (KeepsR.next (keeps_kAluI h))

theorem keeps_execMaxi {s u : State} {x0} {x1} (h : Keeps s u) :
    KeepsR s (execMaxi x0 x1 u) := by
  unfold execMaxi
  exact (KeepsR.next (keeps_kAluI h))

theorem keeps_execDivi {s u : State} {x0} {x1} (h : Keeps s u) :
    KeepsR s (execDivi x0 x1 u) := by
  unfold execDivi
  exact (KeepsR.next (keeps_kDiv h))

theorem keeps_execLi {s u : State} {x0} {x1} (h : Keeps s u) :
    KeepsR s (execLi x0 x1 u) := by
  unfold execLi
  refine (KeepsR.next (keeps_keav h (fun _ _ => ?_)))
  rename_i y8 h9
  exact (keeps_putS h9)

theorem keeps_execMovspr {s u : State} {x0} {x1} (h : Keeps s u) :
    KeepsR s (execMovspr x0 x1 u) := by
  unfold execMovspr
  refine (KeepsR.next (keeps_keav h (fun _ _ => ?_)))
  rename_i y8 h9
  split
  rename_i y19 h20
  have h21 := Keeps.pair h20 (keeps_readSpr h9)
  exact (keeps_putS h21)

theorem keeps_execMovtspr {s u : State} {x0} {x1} (h : Keeps s u) :
    KeepsR s (execMovtspr x0 x1 u) := by
  unfold execMovtspr
  extract_lets -merge v8
  refine (KeepsR.next (keeps_keav h (fun _ _ => ?_)))
  rename_i y9 h10
  extract_lets -merge v11
  refine KeepsK.ite (fun _ => ?_) (fun _ => ?_)
  · exact (keeps_updEng h10)
  · refine KeepsK.ite (fun _ => ?_) (fun _ => ?_)
    · exact (keeps_updEng h10)
    · refine KeepsK.ite (fun _ => ?_) (fun _ => ?_)
      · exact h10
      · exact h10

theorem keeps_execPmov {s u : State} {x0} {x1} (h : Keeps s u) :
    KeepsR s (execPmov x0 x1 u) := by
  unfold execPmov
  refine (KeepsR.next (keeps_keav h (fun _ _ => ?_)))
  rename_i y8 h9
  exact (keeps_putS h9)

theorem keeps_execPld {s u : State} {x0} {x1} (h : Keeps s u) :
    KeepsR s (execPld x0 x1 u) := by
  unfold execPld
  refine (KeepsR.next (keeps_keav h (fun _ _ => ?_)))
  rename_i y8 h9
  exact (keeps_putP h9)

theorem keeps_execPcnt {s u : State} {x0} {x1} (h : Keeps s u) :
    KeepsR s (execPcnt x0 x1 u) := by
  unfold execPcnt
  refine (KeepsR.next (keeps_keav h (fun _ _ => ?_)))
  rename_i y11 h12
  exact (keeps_putS h12)

theorem keeps_execLdw {s u : State} {x0} {x1} (h : Keeps s u) :
    KeepsR s (execLdw x0 x1 u) := by
  unfold execLdw
  exact (KeepsR.next (keeps_kLoad h))

theorem keeps_execStw {s u : State} {x0} {x1} (h : Keeps s u) :
    KeepsR s (execStw x0 x1 u) := by
  unfold execStw
  exact (KeepsR.next (keeps_kStore h))

theorem keeps_execLdh {s u : State} {x0} {x1} (h : Keeps s u) :
    KeepsR s (execLdh x0 x1 u) := by
  unfold execLdh
  exact (KeepsR.next (keeps_kLoad h))

theorem keeps_execSth {s u : State} {x0} {x1} (h : Keeps s u) :
    KeepsR s (execSth x0 x1 u) := by
  unfold execSth
  exact (KeepsR.next (keeps_kStore h))

theorem keeps_execVld {s u : State} {x0} {x1} (h : Keeps s u) :
    KeepsR s (execVld x0 x1 u) := by
  unfold execVld
  refine (KeepsR.next (keeps_keav h (fun _ _ => ?_)))
  rename_i y8 h9
  split
  · rename_i y19 h20
    have h21 := Keeps.pair h20 (keeps_ldRead h9)
    exact h21
  · rename_i y26 h27
    have h28 := Keeps.pair h27 (keeps_ldRead h9)
    exact (keeps_putV h28)

theorem keeps_kPuts {s u : State} {x1} {x2} {x3} (h : Keeps s u) :
    KeepsK s (State.kPuts u x1 x2 x3) := by
  unfold State.kPuts
  split
  rename_i e5
  have h6 := Keeps.pair e5 (keeps_ldPuts h)
  exact KeepsK.ite (fun _ => h6) (fun _ => h6)

theorem keeps_execVst {s u : State} {x0} {x1} (h : Keeps s u) :
    KeepsR s (execVst x0 x1 u) := by
  unfold execVst
  refine KeepsR.next ?_
  refine keeps_keav h ?_
  intro y1
  intro y2
  extract_lets -merge v3
  split
  · exact y2
  · exact keeps_kPuts y2

theorem keeps_execVgather {s u : State} {x0} {x1} (h : Keeps s u) :
    KeepsR s (execVgather x0 x1 u) := by
  unfold execVgather
  refine KeepsR.next (keeps_keav h (fun v hv => ?_))
  dsimp only
  cases laneTrap (((v.eng x0).lanes x1).map ((v.eng x0).laneAddr x1)) with
  | some c => exact hv
  | none =>
    refine KeepsK.ite (fun _ => ?_) (fun _ => keeps_putV ?_)
    all_goals
      refine Keeps.foldl2 (Keeps.mk2 hv) (fun p a hp => ?_)
      exact keeps_beCheck hp

theorem keeps_execVscatter {s u : State} {x0} {x1} (h : Keeps s u) :
    KeepsR s (execVscatter x0 x1 u) := by
  unfold execVscatter
  refine KeepsR.next ?_
  refine keeps_keav h ?_
  intro y1
  intro y2
  extract_lets -merge v3 v4
  split
  · exact y2
  · exact keeps_kPuts y2

theorem keeps_execVadd {s u : State} {x0} {x1} (h : Keeps s u) :
    KeepsR s (execVadd x0 x1 u) := by
  unfold execVadd
  exact (KeepsR.next (keeps_kVec h))

theorem keeps_execVadds {s u : State} {x0} {x1} (h : Keeps s u) :
    KeepsR s (execVadds x0 x1 u) := by
  unfold execVadds
  exact (KeepsR.next (keeps_kVec h))

theorem keeps_execVsub {s u : State} {x0} {x1} (h : Keeps s u) :
    KeepsR s (execVsub x0 x1 u) := by
  unfold execVsub
  exact (KeepsR.next (keeps_kVec h))

theorem keeps_execVsubs {s u : State} {x0} {x1} (h : Keeps s u) :
    KeepsR s (execVsubs x0 x1 u) := by
  unfold execVsubs
  exact (KeepsR.next (keeps_kVec h))

theorem keeps_execVmulh {s u : State} {x0} {x1} (h : Keeps s u) :
    KeepsR s (execVmulh x0 x1 u) := by
  unfold execVmulh
  exact (KeepsR.next (keeps_kVec h))

theorem keeps_execVmull {s u : State} {x0} {x1} (h : Keeps s u) :
    KeepsR s (execVmull x0 x1 u) := by
  unfold execVmull
  exact (KeepsR.next (keeps_kVec h))

theorem keeps_execVmac {s u : State} {x0} {x1} (h : Keeps s u) :
    KeepsR s (execVmac x0 x1 u) := by
  unfold execVmac
  refine (KeepsR.next (keeps_keav h (fun _ _ => ?_)))
  rename_i y8 h9
  extract_lets -merge v10
  exact (keeps_putV h9)

theorem keeps_execVmin {s u : State} {x0} {x1} (h : Keeps s u) :
    KeepsR s (execVmin x0 x1 u) := by
  unfold execVmin
  exact (KeepsR.next (keeps_kVec h))

theorem keeps_execVmax {s u : State} {x0} {x1} (h : Keeps s u) :
    KeepsR s (execVmax x0 x1 u) := by
  unfold execVmax
  exact (KeepsR.next (keeps_kVec h))

theorem keeps_execVand {s u : State} {x0} {x1} (h : Keeps s u) :
    KeepsR s (execVand x0 x1 u) := by
  unfold execVand
  exact (KeepsR.next (keeps_kVec h))

theorem keeps_execVor {s u : State} {x0} {x1} (h : Keeps s u) :
    KeepsR s (execVor x0 x1 u) := by
  unfold execVor
  exact (KeepsR.next (keeps_kVec h))

theorem keeps_execVxor {s u : State} {x0} {x1} (h : Keeps s u) :
    KeepsR s (execVxor x0 x1 u) := by
  unfold execVxor
  exact (KeepsR.next (keeps_kVec h))

theorem keeps_execVshl {s u : State} {x0} {x1} (h : Keeps s u) :
    KeepsR s (execVshl x0 x1 u) := by
  unfold execVshl
  exact (KeepsR.next (keeps_kVecI h))

theorem keeps_execVshr {s u : State} {x0} {x1} (h : Keeps s u) :
    KeepsR s (execVshr x0 x1 u) := by
  unfold execVshr
  exact (KeepsR.next (keeps_kVecI h))

theorem keeps_execVsra {s u : State} {x0} {x1} (h : Keeps s u) :
    KeepsR s (execVsra x0 x1 u) := by
  unfold execVsra
  exact (KeepsR.next (keeps_kVecI h))

theorem keeps_execVabsd {s u : State} {x0} {x1} (h : Keeps s u) :
    KeepsR s (execVabsd x0 x1 u) := by
  unfold execVabsd
  exact (KeepsR.next (keeps_kVec h))

theorem keeps_execVsel {s u : State} {x0} {x1} (h : Keeps s u) :
    KeepsR s (execVsel x0 x1 u) := by
  unfold execVsel
  refine (KeepsR.next (keeps_keav h (fun _ _ => ?_)))
  rename_i y8 h9
  extract_lets -merge v10
  exact (keeps_putV h9)

theorem keeps_execVlut {s u : State} {x0} {x1} (h : Keeps s u) :
    KeepsR s (execVlut x0 x1 u) := by
  unfold execVlut
  refine (KeepsR.next (keeps_keav h (fun _ _ => ?_)))
  rename_i y13 h14
  extract_lets -merge v15
  split
  · rename_i y19 h20
    have h21 := Keeps.pair h20 (keeps_ldRead h14)
    exact h21
  · rename_i y28 h29
    have h30 := Keeps.pair h29 (keeps_ldRead h14)
    extract_lets -merge v17
    exact (keeps_putV h30)

theorem keeps_execVsplat {s u : State} {x0} {x1} (h : Keeps s u) :
    KeepsR s (execVsplat x0 x1 u) := by
  unfold execVsplat
  refine (KeepsR.next (keeps_keav h (fun _ _ => ?_)))
  rename_i y11 h12
  exact (keeps_putV h12)

theorem keeps_execVlane {s u : State} {x0} {x1} (h : Keeps s u) :
    KeepsR s (execVlane x0 x1 u) := by
  unfold execVlane
  refine (KeepsR.next (keeps_keav h (fun _ _ => ?_)))
  rename_i y8 h9
  exact (keeps_putV h9)

theorem keeps_execVext {s u : State} {x0} {x1} (h : Keeps s u) :
    KeepsR s (execVext x0 x1 u) := by
  unfold execVext
  refine (KeepsR.next (keeps_keav h (fun _ _ => ?_)))
  rename_i y15 h16
  exact (keeps_putS h16)

theorem keeps_execVins {s u : State} {x0} {x1} (h : Keeps s u) :
    KeepsR s (execVins x0 x1 u) := by
  unfold execVins
  refine (KeepsR.next (keeps_keav h (fun _ _ => ?_)))
  rename_i y11 h12
  extract_lets -merge v14
  exact (keeps_putV h12)

theorem keeps_execVsum {s u : State} {x0} {x1} (h : Keeps s u) :
    KeepsR s (execVsum x0 x1 u) := by
  unfold execVsum
  refine (KeepsR.next (keeps_keav h (fun _ _ => ?_)))
  rename_i y9 h10
  extract_lets -merge v13
  exact (keeps_putS h10)

theorem keeps_execVmov {s u : State} {x0} {x1} (h : Keeps s u) :
    KeepsR s (execVmov x0 x1 u) := by
  unfold execVmov
  refine (KeepsR.next (keeps_keav h (fun _ _ => ?_)))
  rename_i y8 h9
  exact (keeps_putV h9)

theorem keeps_execVcmpeq {s u : State} {x0} {x1} (h : Keeps s u) :
    KeepsR s (execVcmpeq x0 x1 u) := by
  unfold execVcmpeq
  exact (KeepsR.next (keeps_kCmp h))

theorem keeps_execVcmplt {s u : State} {x0} {x1} (h : Keeps s u) :
    KeepsR s (execVcmplt x0 x1 u) := by
  unfold execVcmplt
  exact (KeepsR.next (keeps_kCmp h))

theorem keeps_execVcmplts {s u : State} {x0} {x1} (h : Keeps s u) :
    KeepsR s (execVcmplts x0 x1 u) := by
  unfold execVcmplts
  exact (KeepsR.next (keeps_kCmp h))

theorem keeps_execVcmple {s u : State} {x0} {x1} (h : Keeps s u) :
    KeepsR s (execVcmple x0 x1 u) := by
  unfold execVcmple
  exact (KeepsR.next (keeps_kCmp h))

theorem keeps_execPand {s u : State} {x0} {x1} (h : Keeps s u) :
    KeepsR s (execPand x0 x1 u) := by
  unfold execPand
  exact (KeepsR.next (keeps_kPred h))

theorem keeps_execPor {s u : State} {x0} {x1} (h : Keeps s u) :
    KeepsR s (execPor x0 x1 u) := by
  unfold execPor
  exact (KeepsR.next (keeps_kPred h))

theorem keeps_execPandn {s u : State} {x0} {x1} (h : Keeps s u) :
    KeepsR s (execPandn x0 x1 u) := by
  unfold execPandn
  exact (KeepsR.next (keeps_kPred h))

theorem keeps_execPnot {s u : State} {x0} {x1} (h : Keeps s u) :
    KeepsR s (execPnot x0 x1 u) := by
  unfold execPnot
  refine (KeepsR.next (keeps_keav h (fun _ _ => ?_)))
  rename_i y11 h12
  exact (keeps_putP h12)

theorem keeps_execPset {s u : State} {x0} {x1} (h : Keeps s u) :
    KeepsR s (execPset x0 x1 u) := by
  unfold execPset
  refine (KeepsR.next (keeps_keav h (fun _ _ => ?_)))
  rename_i y9 h10
  exact (keeps_putP h10)

theorem keeps_execRedge {s u : State} {x0} {x1} (h : Keeps s u) :
    KeepsR s (execRedge x0 x1 u) := by
  unfold execRedge
  extract_lets -merge v6
  refine (KeepsR.next (keeps_keav h (fun _ _ => ?_)))
  rename_i y14 h15
  extract_lets -merge v16
  refine KeepsK.ite (fun _ => ?_) (fun _ => ?_)
  · exact (keeps_putP h15)
  · split
    rename_i y28 h29
    have h30 := Keeps.pair h29 (keeps_fresh h15)
    exact (keeps_putP h30)

theorem keeps_execRcov {s u : State} {x0} {x1} (h : Keeps s u) :
    KeepsR s (execRcov x0 x1 u) := by
  unfold execRcov
  extract_lets -merge v6
  refine (KeepsR.next (keeps_keav h (fun _ _ => ?_)))
  rename_i y14 h15
  extract_lets -merge v16
  refine KeepsK.ite (fun _ => ?_) (fun _ => ?_)
  · exact (keeps_putV h15)
  · exact (keeps_drawn (keeps_putV h15))

theorem keeps_execRsetxy {s u : State} {x0} {x1} (h : Keeps s u) :
    KeepsR s (execRsetxy x0 x1 u) := by
  unfold execRsetxy
  refine (KeepsR.next (keeps_keav h (fun _ _ => ?_)))
  rename_i y10 h11
  exact (keeps_updEng h11)

theorem keeps_kSamp {s u : State} {x1} {x2} {x3} {x4} {x5} {x6} (h : Keeps s u) :
    Keeps s (State.kSamp u x1 x2 x3 x4 x5 x6) := by
  unfold State.kSamp
  refine keeps_keav h (fun v hv => ?_)
  dsimp only
  rcases h8 : v.ldRead x1 (BitVec.toNat ((v.eng x1).s x3.c.toNat)) 16 16 with ⟨o, t⟩
  have h9 := Keeps.pair h8 (keeps_ldRead hv)
  cases o with
  | bad c => exact h9
  | ok bs ce =>
    dsimp only
    cases sampDesc bs with
    | none => exact h9
    | some d =>
      refine KeepsK.ite (fun _ => keeps_drawn (keeps_putV h9)) (fun _ => ?_)
      refine KeepsK.ite (fun _ => ?_) (fun _ => keeps_putV ?_)
      all_goals
        refine Keeps.foldl2 (Keeps.mk2 h9) (fun p a hp => ?_)
        exact keeps_beCheck hp

theorem keeps_execSamp {s u : State} {x0} {x1} (h : Keeps s u) :
    KeepsR s (execSamp x0 x1 u) := by
  unfold execSamp
  exact (KeepsR.next (keeps_kSamp h))

theorem keeps_execSampn {s u : State} {x0} {x1} (h : Keeps s u) :
    KeepsR s (execSampn x0 x1 u) := by
  unfold execSampn
  exact (KeepsR.next (keeps_kSamp h))

theorem keeps_execDmaq {s u : State} {x0} {x1} (h : Keeps s u) :
    KeepsR s (execDmaq x0 x1 u) := by
  unfold execDmaq
  extract_lets -merge v6
  refine (KeepsR.next (keeps_keav h (fun _ _ => ?_)))
  rename_i y10 h11
  split
  · rename_i y22 h23
    have h24 := Keeps.pair h23 (keeps_ldRead h11)
    exact h24
  · rename_i y19 h20
    have h21 := Keeps.pair h20 (keeps_ldRead h11)
    split
    · exact h21
    · refine KeepsK.ite (fun _ => ?_) (fun _ => ?_)
      · exact (keeps_updEng h21)
      · exact (keeps_beWait h21)

theorem keeps_execDmawait {s u : State} {x0} {x1} (h : Keeps s u) :
    KeepsR s (execDmawait x0 x1 u) := by
  unfold execDmawait
  refine (KeepsR.next (keeps_keav h (fun _ _ => ?_)))
  rename_i y11 h12
  refine KeepsK.ite (fun _ => ?_) (fun _ => ?_)
  · exact h12
  · exact (keeps_beWait h12)

theorem keeps_execDmastat {s u : State} {x0} {x1} (h : Keeps s u) :
    KeepsR s (execDmastat x0 x1 u) := by
  unfold execDmastat
  refine (KeepsR.next (keeps_keav h (fun _ _ => ?_)))
  rename_i y14 h15
  split
  rename_i y25 h26
  have h28 := Keeps.pair h26 (keeps_dmaStatus h15)
  exact (keeps_putS h28)

theorem keeps_execFsig {s u : State} {x0} {x1} (h : Keeps s u) :
    KeepsR s (execFsig x0 x1 u) := by
  unfold execFsig
  refine (KeepsR.next (keeps_keav h (fun _ _ => ?_)))
  rename_i y8 h9
  refine KeepsK.ite (fun _ => ?_) (fun _ => ?_)
  · exact (keeps_beWait h9)
  · exact (keeps_signal h9)

theorem keeps_execFwait {s u : State} {x0} {x1} (h : Keeps s u) :
    KeepsR s (execFwait x0 x1 u) := by
  unfold execFwait
  refine (KeepsR.next (keeps_keav h (fun _ _ => ?_)))
  rename_i y17 h18
  extract_lets -merge v26
  refine KeepsK.ite (fun _ => ?_) (fun _ => ?_)
  · exact h18
  · exact (keeps_beWait h18)

theorem keeps_execFrd {s u : State} {x0} {x1} (h : Keeps s u) :
    KeepsR s (execFrd x0 x1 u) := by
  unfold execFrd
  refine (KeepsR.next (keeps_keav h (fun _ _ => ?_)))
  rename_i y9 h10
  exact (keeps_putS h10)

theorem keeps_execMbrecv {s u : State} {x0} {x1} (h : Keeps s u) :
    KeepsR s (execMbrecv x0 x1 u) := by
  unfold execMbrecv
  refine (KeepsR.next (keeps_keav h (fun _ _ => ?_)))
  rename_i y10 h11
  split
  · exact (keeps_putS (keeps_updEng h11))
  · exact (keeps_beWait h11)

theorem keeps_execMbfree {s u : State} {x0} {x1} (h : Keeps s u) :
    KeepsR s (execMbfree x0 x1 u) := by
  unfold execMbfree
  refine (KeepsR.next (keeps_keav h (fun _ _ => ?_)))
  rename_i y12 h13
  extract_lets -merge v14
  refine KeepsK.ite (fun _ => ?_) (fun _ => ?_)
  · exact (keeps_updEng h13)
  · exact h13

theorem keeps_execMbcount {s u : State} {x0} {x1} (h : Keeps s u) :
    KeepsR s (execMbcount x0 x1 u) := by
  unfold execMbcount
  refine (KeepsR.next (keeps_keav h (fun _ _ => ?_)))
  rename_i y20 h21
  exact (keeps_putS h21)

theorem keeps_execEvpost {s u : State} {x0} {x1} (h : Keeps s u) :
    KeepsR s (execEvpost x0 x1 u) := by
  unfold execEvpost
  extract_lets -merge v6
  refine (KeepsR.next (keeps_keav h (fun _ _ => ?_)))
  rename_i y11 h12
  refine KeepsK.ite (fun _ => ?_) (fun _ => ?_)
  · exact (keeps_post h12)
  · exact h12

end Sys2Proof.Machine
end

