-- ==== Sys2Proof/Laws/KeepsCompose.lean ====
section
/-! SUPPORT. What the operations of Machine/Compose.lean keep (Laws/Keeps.lean). -/

namespace Sys2Proof.Machine

theorem keeps_decodeErr {s u : State} {x1} {x2} {x3} (h : Keeps s u) :
    Keeps s (State.decodeErr u x1 x2 x3) := by
  unfold State.decodeErr
  extract_lets -merge v7 v8
  have h12 : Keeps s v7 := (keeps_raise h)
  have h15 : Keeps s v8 := (keeps_setF (keeps_setF h12))
  exact (keeps_postOnce h15)

theorem keeps_readSpans {s u : State} {l} (h : Keeps s u) : Keeps s (State.readSpans u l).2 := by
  induction l generalizing u with
  | nil => exact h
  | cons r t ih =>
    unfold State.readSpans
    exact Keeps.ite2 (fun _ => keeps_checkRange h) (fun _ => ih (keeps_checkRange h))

theorem keeps_readPlanes {s u : State} {x1 x2 k} (h : Keeps s u) : Keeps s (State.readPlanes u x1 x2 k).2 := by
  induction k generalizing u x2 with
  | zero => exact h
  | succ k ih =>
    unfold State.readPlanes
    exact Keeps.ite2 (fun _ => h) (fun _ => Keeps.ite2 (fun _ => keeps_checkRange h) (fun _ => ih (keeps_checkRange h)))

theorem keeps_readHead {s u : State} {x1 x2 x3} (h : Keeps s u) : Keeps s (State.readHead u x1 x2 x3).2 := by
  unfold State.readHead
  exact Keeps.ite2 (fun _ => h) (fun _ => Keeps.ite2 (fun _ => keeps_checkRange h) (fun _ => keeps_readPlanes (keeps_checkRange h)))

theorem keeps_readBlock {s u : State} {x1} {x2} {x3} (h : Keeps s u) :
    Keeps s (State.readBlock u x1 x2 x3).2 := by
  unfold State.readBlock
  extract_lets -merge v1
  have h2 : Keeps s v1.2 := keeps_readHead h
  refine Keeps.ite2 (fun _ => h2) (fun _ => ?_)
  split
  · exact h2
  · exact keeps_readSpans h2

theorem keeps_readUnit {s u : State} {x1 x2} (h : Keeps s u) : Keeps s (State.readUnit u x1 x2).2 := by
  cases x2
  · exact keeps_readBlock h
  · exact keeps_checkRange h

theorem keeps_fetchUnit {s u : State} {x1} {x2} {x3} {x4} (h : Keeps s u) :
    Keeps s (State.fetchUnit u x1 x2 x3 x4) := by
  unfold State.fetchUnit
  extract_lets -merge v1
  have h2 : Keeps s v1.2 := keeps_readUnit h
  exact Keeps.ite (fun _ => keeps_decodeErr h2) (fun _ => h2)

theorem keeps_baseUsed {s u : State} {x1} {x2} {x3} (h : Keeps s u) :
    Keeps s (State.baseUsed u x1 x2 x3) := by
  unfold State.baseUsed
  split
  · exact Keeps.upd h
  · refine Keeps.ite (fun _ => h) (fun _ => ?_)
    extract_lets -merge v6 v7
    have h8 : Keeps s v6 := keeps_raise h
    exact Keeps.upd h8

theorem keeps_fetchLayer {s u : State} {x1} {x2} {x3} (h : Keeps s u) :
    Keeps s (State.fetchLayer u x1 x2 x3) := by
  unfold State.fetchLayer
  split
  rename_i y2 _
  extract_lets -merge v4 v5 v6
  split
  · exact h
  · refine Keeps.ite (fun _ => h) (fun _ => ?_)
    extract_lets -merge v15 v16 v17
    split
    refine Keeps.foldl h (fun y22 y23 h24 => ?_)
    extract_lets -merge v25
    exact Keeps.foldl (keeps_baseUsed h24) (fun y26 y27 h28 => keeps_fetchUnit h28)

theorem keeps_refuseFlip {s u : State} {x1} {x2} (h : Keeps s u) :
    Keeps s (State.refuseFlip u x1 x2) := by
  unfold State.refuseFlip
  extract_lets -merge v6
  have h8 : Keeps s v6 := (keeps_setF (keeps_raise h))
  exact (keeps_postOnce h8)

theorem keeps_commitFlip {s u : State} {x1} {x2} {x3} {x4} {x5} {x6} {x7} (h : Keeps s u) :
    Keeps s (State.commitFlip u x1 x2 x3 x4 x5 x6 x7).2 := by
  unfold State.commitFlip
  extract_lets -merge v11 v12 v13
  have h17 : Keeps s v13 := (keeps_setF h)
  exact (Keeps.ite2 (fun _ => (Keeps.mk2 (keeps_refuseFlip h))) (fun _ => (Keeps.mk2 (keeps_cross h17))))

theorem keeps_flipCommit {s u : State} {x1} {x2} (h : Keeps s u) :
    Keeps s (State.flipCommit u x1 x2) := by
  unfold State.flipCommit
  extract_lets -merge v10
  exact (keeps_commitFlip h)

theorem keeps_latchCross {s u : State} (h : Keeps s u) :
    Keeps s (State.latchCross u) := by
  unfold State.latchCross
  refine Keeps.upd (Keeps.foldl3 h (fun p c hp => ?_))
  obtain ⟨late, keep, v⟩ := p
  dsimp only at hp ⊢
  split
  · exact hp
  · split
    · exact keeps_arrive hp
    · split
      · exact hp
      · split
        · exact keeps_fresh hp
        · exact keeps_arrive (keeps_fresh hp)

theorem keeps_takeLayer {s u : State} {x1} {x2} (h : Keeps s u) :
    Keeps s (State.takeLayer u x1 x2) := by
  unfold State.takeLayer
  extract_lets -merge v18 v19 v20 v21
  have h26 : Keeps s v20 := (Keeps.upd h)
  have h28 : Keeps s v21 := (keeps_setF (keeps_setF (keeps_setF (keeps_setF h26))))
  exact (Keeps.ite (fun _ => (keeps_postOnce h28)) (fun _ => h28))

theorem keeps_takeFlip {s u : State} {x1} {x2} {x3} (h : Keeps s u) :
    Keeps s (State.takeFlip u x1 x2 x3) := by
  unfold State.takeFlip
  extract_lets -merge v8 v10 v11
  have h20 : Keeps s v8 := by
    refine (Keeps.foldl h (fun _ _ _ => ?_))
    rename_i y24 y25 h26
    exact (keeps_takeLayer h26)
  have h25 : Keeps s v11 := (Keeps.upd h20)
  exact (keeps_setF (keeps_setRegN h25))

theorem keeps_deferFlip {s u : State} {x1} {x2} (h : Keeps s u) :
    Keeps s (State.deferFlip u x1 x2) := by
  unfold State.deferFlip
  extract_lets -merge v6 v7
  have h8 : Keeps s v6 := (keeps_raise h)
  have h10 : Keeps s v7 := by
    refine (Keeps.foldl h8 (fun _ _ _ => ?_))
    rename_i y17 y18 h19
    exact (keeps_bump h19)
  exact (keeps_postOnce h10)

theorem keeps_decideFlips {s u : State} {x1} (h : Keeps s u) :
    Keeps s (State.decideFlips u x1).2 := by
  unfold State.decideFlips
  refine (Keeps.foldl2 (Keeps.mk2 h) (fun _ _ _ => ?_))
  rename_i h12
  split
  rename_i y25
  split
  · exact (Keeps.mk2 h12)
  · extract_lets -merge v39
    exact (Keeps.ite2 (fun _ => (Keeps.mk2 (keeps_takeFlip h12))) (fun _ => (Keeps.mk2 (keeps_deferFlip h12))))

theorem keeps_ageLayer {s u : State} {x1} {x2} (h : Keeps s u) :
    Keeps s (State.ageLayer u x1 x2) := by
  unfold State.ageLayer
  exact Keeps.ite (fun _ => keeps_postOnce (keeps_setB (keeps_setF (keeps_setF h)))) (fun _ => keeps_setF h)

theorem keeps_snapLayer {s u : State} {x1} {x2} (h : Keeps s u) :
    Keeps s (State.snapLayer u x1 x2) := by
  unfold State.snapLayer
  extract_lets -merge v1 v2 v3 v4 v5
  have h8 : Keeps s v3 := by
    unfold v3
    refine keeps_raise ?_
    unfold v1
    beta_reduce
    extract_lets -merge v6
    have h7 : Keeps s v6 := keeps_setRegN h
    exact Keeps.ite (fun _ => keeps_setRegN h7) (fun _ => h7)
  have h9 : Keeps s v5 := Keeps.upd h8
  refine Keeps.ite (fun _ => ?_) (fun _ => ?_)
  · unfold v1
    beta_reduce
    extract_lets -merge v10
    have h11 : Keeps s v10 := keeps_setRegN h
    exact Keeps.ite (fun _ => keeps_setRegN h11) (fun _ => h11)
  · split
    · unfold v1
      beta_reduce
      extract_lets -merge v14
      have h15 : Keeps s v14 := keeps_setRegN h
      exact Keeps.ite (fun _ => keeps_setRegN h15) (fun _ => h15)
    · extract_lets -merge v19
      split
      · unfold v1
        beta_reduce
        extract_lets -merge v22
        have h23 : Keeps s v22 := keeps_setRegN h
        exact Keeps.ite (fun _ => keeps_setRegN h23) (fun _ => h23)
      · refine Keeps.ite (fun _ => ?_) (fun _ => ?_)
        · extract_lets -merge v29
          split
          · exact keeps_postOnce h9
          · extract_lets -merge v35 v36
            have h39 : Keeps s v35 := by
              unfold v35
              unfold v2
              beta_reduce
              extract_lets -merge v37
              have h38 : Keeps s v37 := keeps_setRegN h
              exact Keeps.ite (fun _ => keeps_setRegN h38) (fun _ => h38)
            have h40 : Keeps s v36 := keeps_raise h39
            exact Keeps.ite (fun _ => keeps_postOnce h40) (fun _ => h39)
        · unfold v2
          beta_reduce
          extract_lets -merge v41
          have h42 : Keeps s v41 := keeps_setRegN h
          exact Keeps.ite (fun _ => keeps_setRegN h42) (fun _ => h42)

theorem keeps_setActive {s u : State} {x1} (h : Keeps s u) :
    Keeps s (State.setActive u x1) := by
  unfold State.setActive
  exact (keeps_setRegWords h)

theorem keeps_showSkips {s u : State} {x1} (h : Keeps s u) :
    Keeps s (State.showSkips u x1) := by
  unfold State.showSkips
  extract_lets -merge v1 v2
  have h3 : Keeps s v2 := Keeps.upd h
  exact Keeps.foldl h3 (fun y4 y5 h6 => keeps_setB h6)

theorem keeps_takeSnap {s u : State} {x1} (h : Keeps s u) :
    Keeps s (State.takeSnap u x1) := by
  unfold State.takeSnap
  extract_lets -merge v1 v2 v3
  have h7 : Keeps s v1 := keeps_showSkips (Keeps.foldl (keeps_showSkips h) (fun y4 y5 h6 => keeps_snapLayer h6))
  exact Keeps.upd h7

theorem keeps_latchFlips {s u : State} {x1} (h : Keeps s u) :
    Keeps s (State.latchFlips u x1).2 := by
  unfold State.latchFlips
  split
  rename_i e5
  have h6 := Keeps.pair e5 (keeps_decideFlips (keeps_latchCross h))
  exact Keeps.mk2 (Keeps.ite (fun _ => Keeps.foldl h6 (fun y7 y8 h9 => keeps_bump h9)) (fun _ => h6))

theorem keeps_fallbackShown {s u : State} {x1} (h : Keeps s u) :
    Keeps s (State.fallbackShown u x1) := by
  unfold State.fallbackShown
  exact Keeps.ite (fun _ => keeps_setB h) (fun _ => h)

theorem keeps_latchAges {s u : State} {x1} (h : Keeps s u) :
    Keeps s (State.latchAges u x1) := by
  unfold State.latchAges
  extract_lets -merge v1
  have h5 : Keeps s v1 := Keeps.foldl h (fun y2 y3 h4 => keeps_fallbackShown (keeps_ageLayer h4))
  exact Keeps.foldl (keeps_showSkips h5) (fun y6 y7 h8 => keeps_setActive h8)

theorem keeps_rebaseLayer {s u : State} {x1 x2 x3} (h : Keeps s u) : Keeps s (State.rebaseLayer u x1 x2 x3) := by
  unfold State.rebaseLayer
  dsimp only
  split
  · exact Keeps.upd (Keeps.upd h)
  · exact Keeps.upd h

theorem keeps_rawAddr {s u : State} {x1} {x2} (h : Keeps s u) :
    Keeps s (State.rawAddr u x1 x2) := by
  unfold State.rawAddr
  extract_lets -merge v1 v2 v3 v4 v5 v6 v7 v8 v9
  have h13 : Keeps s v6 := Keeps.ite (fun _ => h) (fun _ => Keeps.foldl h (fun y10 y11 h12 => keeps_rebaseLayer h12))
  have h14 : Keeps s v8 := Keeps.upd h13
  have h15 : Keeps s v9 := Keeps.ite (fun _ => h14) (fun _ => keeps_setRegWords h14)
  exact Keeps.ite (fun _ => keeps_postOnce h) (fun _ => keeps_postOnce h15)

theorem keeps_setCapw {s u : State} {x1} {x2} (h : Keeps s u) :
    Keeps s (State.setCapw u x1 x2) := by
  unfold State.setCapw
  extract_lets -merge v10
  exact (Keeps.upd h)

theorem keeps_capDrop {s u : State} {x1} (h : Keeps s u) :
    Keeps s (State.capDrop u x1) := by
  unfold State.capDrop
  extract_lets -merge v1 v2
  have h3 : Keeps s v2 := keeps_bump (keeps_setCapw h)
  exact keeps_postOnce h3

theorem keeps_capInto {s u : State} {x1} {x2} (h : Keeps s u) :
    Keeps s (State.capInto u x1 x2) := by
  unfold State.capInto
  exact Keeps.ite (fun _ => keeps_capDrop h) (fun _ => h)

theorem keeps_capStart {s u : State} {x1} (h : Keeps s u) :
    Keeps s (State.capStart u x1) := by
  unfold State.capStart
  extract_lets -merge v1 v2 v3
  have h4 : Keeps s v3 := keeps_setCapw h
  exact keeps_capInto (keeps_setF h4)

theorem keeps_capPut {s u : State} {x1} {x2} {x3} (h : Keeps s u) :
    Keeps s (State.capPut u x1 x2 x3) := by
  unfold State.capPut
  extract_lets -merge v1 v2 v3 v4 v5
  have h6 : Keeps s v3 := Keeps.ite (fun _ => keeps_putDram h) (fun _ => h)
  have h7 : Keeps s v5 := Keeps.ite (fun _ => keeps_putDram h) (fun _ => h)
  exact Keeps.ite (fun _ => keeps_setCapw h6) (fun _ => keeps_setCapw h7)

theorem keeps_capPacket {s u : State} {x1} {x2} {x3} (h : Keeps s u) :
    Keeps s (State.capPacket u x1 x2 x3) := by
  unfold State.capPacket
  extract_lets -merge v1 v2
  have h3 : Keeps s v2 := Keeps.ite (fun _ => keeps_capInto h) (fun _ => h)
  exact Keeps.ite (fun _ => h3) (fun _ => keeps_capPut h3)

theorem keeps_capEnd {s u : State} {x1} (h : Keeps s u) :
    Keeps s (State.capEnd u x1) := by
  unfold State.capEnd
  extract_lets -merge v20 v21 v22 v23 v24 v25 v26 v28 v29 v30 v31
  have h46 : Keeps s v22 := (keeps_setF (keeps_bump h))
  have h49 : Keeps s v23 := (keeps_postOnce h46)
  have h52 : Keeps s v24 := (keeps_setRegN h)
  have h54 : Keeps s v26 := (keeps_signal h52)
  have h56 : Keeps s v31 := (Keeps.ite (fun _ => (keeps_commitFlip h54)) (fun _ => h54))
  exact (Keeps.ite (fun _ => (keeps_setCapw h)) (fun _ => (Keeps.ite (fun _ => (keeps_setCapw h49)) (fun _ => (keeps_setCapw h56)))))

end Sys2Proof.Machine
end

