-- ==== Sys2Proof/Laws/KeepsPress.lean ====
section
/-! SUPPORT. What the operations of Machine/Press.lean keep (Laws/Keeps.lean). -/

namespace Sys2Proof.Machine

theorem keeps_setPr {s u : State} {x1} {x2} (h : Keeps s u) :
    Keeps s (State.setPr u x1 x2) := by
  unfold State.setPr
  exact (Keeps.upd h)

theorem keeps_updPr {s u : State} {x1} {x2} (h : Keeps s u) :
    Keeps s (State.updPr u x1 x2) := by
  unfold State.updPr
  exact (keeps_setPr h)

theorem keeps_setSel {s u : State} {x1} {x2} {x3} (h : Keeps s u) :
    Keeps s (State.setSel u x1 x2 x3) := by
  unfold State.setSel
  refine Keeps.ite (fun _ => ?_) (fun _ => keeps_putSel h)
  split
  rename_i e4
  have h5 := Keeps.pair e4 (keeps_injectFound h)
  exact Keeps.ite (fun _ => h5) (fun _ => keeps_putSel h5)

theorem keeps_corrUe {s u : State} {x1} {x2} (h : Keeps s u) :
    Keeps s (State.corrUe u x1 x2) := by
  unfold State.corrUe
  extract_lets -merge v6
  have h7 : Keeps s v6 := (keeps_updPr h)
  exact (keeps_postOnce (keeps_raise h7))

theorem keeps_selMismatch {s u : State} {x1} {x2} (h : Keeps s u) :
    Keeps s (State.selMismatch u x1 x2) := by
  unfold State.selMismatch
  exact (keeps_postOnce (keeps_raise h))

theorem keeps_pressRead {s u : State} {x1} {x2} {x3} (h : Keeps s u) :
    Keeps s (State.pressRead u x1 x2 x3).2 := by
  unfold State.pressRead
  extract_lets -merge v8
  split
  rename_i y20 h21
  have h14 := Keeps.pair h21 (keeps_checkRange h)
  extract_lets -merge v21 v22 v23
  have h28 : Keeps s v23 := (Keeps.ite (fun _ => (keeps_selMismatch h14)) (fun _ => h14))
  exact (Keeps.ite2 (fun _ => (Keeps.mk2 (keeps_corrUe h14))) (fun _ => (Keeps.mk2 h28)))

theorem keeps_pressPixels {s u : State} {x1} {x2} (h : Keeps s u) :
    Keeps s (State.pressPixels u x1 x2).2 := by
  unfold State.pressPixels
  extract_lets -merge v6 v7 v8 v9
  refine (Keeps.ite2 (fun _ => ?_) (fun _ => (Keeps.mk2 (Keeps.foldl h (fun _ _ _ => ?_)))))
  · split
    rename_i y27 h28
    have h29 : Keeps s y27 := by
      refine (Keeps.pair h28 (Keeps.foldl2 (Keeps.mk2 h) (fun _ _ _ => ?_)))
      rename_i h39
      split
      rename_i y53 h54
      have h55 := Keeps.pair h54 (keeps_pressRead h39)
      exact (Keeps.mk2 h55)
    exact (Keeps.mk2 h29)
  · rename_i y16 y17 h18
    exact (keeps_selMismatch h18)

theorem keeps_pressRow {s u : State} {x1} {x2} (h : Keeps s u) :
    Keeps s (State.pressRow u x1 x2).2 := by
  unfold State.pressRow
  split
  rename_i y15 h16
  have h17 := Keeps.pair h16 (keeps_pressPixels h)
  extract_lets -merge v22
  exact (Keeps.mk2 h17)

theorem keeps_pressFill {s u : State} {x1} {x2} (h : Keeps s u) :
    Keeps s (State.pressFill u x1 x2) := by
  induction x2 generalizing u with
  | zero => exact h
  | succ k ih =>
    unfold State.pressFill
    extract_lets -merge v16
    refine (Keeps.ite (fun _ => ?_) (fun _ => h))
    split
    rename_i y29 h30
    have h31 := Keeps.pair h30 (keeps_pressRow h)
    extract_lets -merge v33 v34
    have h37 : Keeps s v34 := (keeps_updPr h31)
    exact (ih h37)

theorem keeps_capFrame {s u : State} {x1} {x2} (h : Keeps s u) :
    Keeps s (State.capFrame u x1 x2) := by
  unfold State.capFrame
  extract_lets -merge v7 v8 v9 v10 v11
  have h17 : Keeps s v8 := (keeps_setRegN h)
  have h25 : Keeps s v11 := (keeps_setRegN h17)
  exact (Keeps.ite (fun _ => (keeps_postOnce h25)) (fun _ => h25))

theorem keeps_satFrame {s u : State} {x1} {x2} (h : Keeps s u) :
    Keeps s (State.satFrame u x1 x2) := by
  unfold State.satFrame
  extract_lets -merge v6 v7
  have h8 : Keeps s v7 := (keeps_setRegN h)
  exact (Keeps.ite (fun _ => (keeps_postGap (keeps_raise h8))) (fun _ => h8))

theorem keeps_roiFrame {s u : State} {x1} {x2} {x3} {x4} (h : Keeps s u) :
    Keeps s (State.roiFrame u x1 x2 x3 x4) := by
  unfold State.roiFrame
  extract_lets -merge v13 v14 v15 v16 v17
  have h23 : Keeps s v14 := by
    refine (Keeps.foldl h (fun _ _ _ => ?_))
    rename_i y27 y28 h29
    split
    · exact (keeps_setReg h29)
    · exact h29
  have h20 : Keeps s v17 := (keeps_setRegN (keeps_setRegN h23))
  exact (Keeps.ite (fun _ => (keeps_postOnce (keeps_raise h20))) (fun _ => h20))

theorem keeps_dropRanges {s u : State} {x1} (h : Keeps s u) :
    Keeps s (State.dropRanges u x1) := by
  unfold State.dropRanges
  exact (keeps_updPr h)

end Sys2Proof.Machine
end

