-- ==== Sys2Proof/Laws/KeepsPressWin.lean ====
section
/-! SUPPORT. What the operations of Machine/PressWin.lean keep (Laws/Keeps.lean). -/

namespace Sys2Proof.Machine

theorem keeps_setTg {s u : State} {x1} {x2} (h : Keeps s u) :
    Keeps s (State.setTg u x1 x2) := by
  unfold State.setTg
  exact (Keeps.upd h)

theorem keeps_updTg {s u : State} {x1} {x2} (h : Keeps s u) :
    Keeps s (State.updTg u x1 x2) := by
  unfold State.updTg
  exact (keeps_setTg h)

theorem keeps_setPort {s u : State} {x1} {x2} (h : Keeps s u) :
    Keeps s (State.setPort u x1 x2) := by
  unfold State.setPort
  exact (Keeps.upd h)

theorem keeps_updPort {s u : State} {x1} {x2} (h : Keeps s u) :
    Keeps s (State.updPort u x1 x2) := by
  unfold State.updPort
  exact (keeps_setPort h)

theorem keeps_setHl {s u : State} {x1} {x2} (h : Keeps s u) :
    Keeps s (State.setHl u x1 x2) := by
  unfold State.setHl
  exact (Keeps.upd h)

theorem keeps_updHl {s u : State} {x1} {x2} (h : Keeps s u) :
    Keeps s (State.updHl u x1 x2) := by
  unfold State.updHl
  exact (keeps_setHl h)

theorem keeps_pressLatch {s u : State} {x1} {x2} (h : Keeps s u) :
    Keeps s (State.pressLatch u x1 x2) := by
  unfold State.pressLatch
  extract_lets -merge v6 v7 v8
  exact (keeps_updPr h)

theorem keeps_sweepPix {s u : State} {x1} {x2} (h : Keeps s u) :
    Keeps s (State.sweepPix u x1 x2).2 := by
  unfold State.sweepPix
  extract_lets -merge v6 v7
  exact (Keeps.mk2 (keeps_writeMem h))

theorem keeps_sweepCheck {s u : State} {x1} {x2} (h : Keeps s u) :
    Keeps s (State.sweepCheck u x1 x2).2 := by
  unfold State.sweepCheck
  refine (Keeps.foldl2 (Keeps.mk2 h) (fun _ _ _ => ?_))
  rename_i h11
  split
  rename_i y25 h26
  have h27 := Keeps.pair h26 (keeps_checkRange h11)
  exact (Keeps.mk2 h27)

theorem keeps_sweepTake {s u : State} {x1} {x2} (h : Keeps s u) :
    Keeps s (State.sweepTake u x1 x2).2 := by
  unfold State.sweepTake
  refine (Keeps.foldl2 (Keeps.mk2 h) (fun _ _ _ => ?_))
  rename_i h14
  split
  rename_i y32 h33
  have h34 := Keeps.pair h33 (keeps_sweepPix h14)
  exact (Keeps.mk2 h34)

theorem keeps_sweepGo {s u : State} {x1} {x2} {x3} (h : Keeps s u) :
    Keeps s (State.sweepGo u x1 x2 x3).2 := by
  cases x3 with
  | some q => exact keeps_busErr h
  | none =>
    have hk := keeps_sweepTake (x1 := x1) (x2 := x2) h
    show KeepsP s _
    unfold State.sweepGo
    refine KeepsP.ite (fun _ => KeepsP.mk (keeps_updPr (keeps_setRegN (keeps_setF (keeps_setF (keeps_updPr hk)))))) (fun _ => KeepsP.mk ?_)
    exact keeps_setF (keeps_updPr hk)

theorem keeps_sweepRow {s u : State} {x1} {x2} (h : Keeps s u) :
    Keeps s (State.sweepRow u x1 x2).2 := by
  unfold State.sweepRow
  have hr := keeps_sweepCheck (x1 := x1) (x2 := x2) h
  exact Keeps.ite2 (fun _ => Keeps.mk2 hr) (fun _ => keeps_sweepGo hr)

theorem keeps_reloadAll {s u : State} {x1} (h : Keeps s u) :
    Keeps s (State.reloadAll u x1) := by
  unfold State.reloadAll
  extract_lets -merge v1 v2
  have h3 : Keeps s v2 := keeps_updPr h
  refine Keeps.foldl h3 (fun y4 y5 h6 => ?_)
  extract_lets -merge v7
  split
  rename_i e11
  have h12 := Keeps.pair e11 (keeps_checkRange h6)
  extract_lets -merge v13
  have h14 : Keeps s v13 := Keeps.ite (fun _ => h12) (fun _ => keeps_busErr h12)
  exact Keeps.ite (fun _ => keeps_updPr h14) (fun _ => keeps_writeMem h14)

theorem keeps_sweepRows {s u : State} {x1} {x2} (h : Keeps s u) :
    Keeps s (State.sweepRows u x1 x2) := by
  induction x2 generalizing u with
  | zero => exact h
  | succ k ih =>
    have hr := keeps_sweepRow (x1 := x1) (x2 := u.getF (fPRESS_SWEEP_STATUS_ROW x1)) h
    unfold State.sweepRows
    generalize State.sweepRow u x1 (u.getF (fPRESS_SWEEP_STATUS_ROW x1)) = r at hr ⊢
    exact Keeps.ite (fun _ => ih hr) (fun _ => hr)

theorem keeps_updEntry {s u : State} {x1} {x2} (h : Keeps s u) :
    Keeps s (State.updEntry u x1 x2).2 := by
  unfold State.updEntry
  extract_lets -merge v6
  refine (Keeps.ite2 (fun _ => (Keeps.mk2 (keeps_busErr h))) (fun _ => ?_))
  split
  rename_i y19 h20
  have h21 := Keeps.pair h20 (keeps_checkRange h)
  exact (Keeps.ite2 (fun _ => (Keeps.mk2 h21)) (fun _ => (Keeps.mk2 h21)))

theorem keeps_updGroup {s u : State} {x1} {x2} {x3} (h : Keeps s u) :
    Keeps s (State.updGroup u x1 x2 x3).2 := by
  induction x3 generalizing u x2 with
  | zero => exact h
  | succ k ih =>
    unfold State.updGroup
    refine (Keeps.ite2 (fun _ => (Keeps.mk2 h)) (fun _ => ?_))
    split
    · rename_i y50 h51
      have h52 := Keeps.pair h51 (keeps_updEntry h)
      exact (Keeps.mk2 h52)
    · rename_i y57 h58
      have h59 := Keeps.pair h58 (keeps_updEntry h)
      refine (Keeps.ite2 (fun _ => (Keeps.mk2 h59)) (fun _ => ?_))
      split
      · rename_i y76 h77
        have h78 := Keeps.pair h77 (ih h59)
        exact (Keeps.mk2 h78)
      · rename_i y88 h89
        have h90 := Keeps.pair h89 (ih h59)
        exact (Keeps.mk2 h90)

theorem keeps_showPending {s u : State} {x1} (h : Keeps s u) :
    Keeps s (State.showPending u x1) := by
  unfold State.showPending
  exact (keeps_setRegN h)

theorem keeps_toggleSel {s u : State} {x1} {x2} (h : Keeps s u) :
    Keeps s (State.toggleSel u x1 x2) := by
  unfold State.toggleSel
  extract_lets -merge v6
  have h8 : Keeps s v6 := (keeps_setSel h)
  exact (keeps_showPending (keeps_updPort h8))

theorem keeps_applyEntry {s u : State} {x1} {x2} (h : Keeps s u) :
    Keeps s (State.applyEntry u x1 x2) := by
  unfold State.applyEntry
  extract_lets -merge v6
  have h8 : Keeps s v6 := (keeps_writeMem h)
  exact (Keeps.ite (fun _ => (keeps_toggleSel h8)) (fun _ => h8))

theorem keeps_updError {s u : State} {x1} {x2} {x3} (h : Keeps s u) :
    Keeps s (State.updError u x1 x2 x3) := by
  unfold State.updError
  extract_lets -merge v8 v9
  have h12 : Keeps s v8 := (keeps_setF h)
  have h14 : Keeps s v9 := (Keeps.ite (fun _ => (keeps_setF h12)) (fun _ => h12))
  exact (keeps_postOnce h14)

theorem keeps_updGroups {s u : State} {x1} {x2} {x3} {x4} (h : Keeps s u) :
    Keeps s (State.updGroups u x1 x2 x3 x4) := by
  induction x3 generalizing u x4 with
  | zero => exact h
  | succ k ih =>
    unfold State.updGroups
    dsimp only
    refine Keeps.ite (fun _ => keeps_postOnce (keeps_setRegN (keeps_setF h))) (fun _ => ?_)
    rcases h1 : u.updGroup x1 (u.pr x1).updNext 8193 with ⟨o, t⟩
    have h2 := Keeps.pair h1 (keeps_updGroup h)
    cases o with
    | none => exact keeps_updError h2
    | some g =>
      refine Keeps.ite (fun _ => keeps_updError h2) (fun _ => Keeps.ite (fun _ => keeps_updError h2) (fun _ => ?_))
      refine Keeps.ite (fun _ => h2) (fun _ => ih (keeps_setF (keeps_updPr (Keeps.foldl h2 (fun v e hv => ?_)))))
      exact keeps_applyEntry hv

theorem keeps_curveRewrite {s u : State} {x1} (h : Keeps s u) :
    Keeps s (State.curveRewrite u x1) := by
  unfold State.curveRewrite
  refine (Keeps.foldl h (fun _ _ _ => ?_))
  rename_i y8 y9 h10
  split
  rename_i y23 h24
  have h25 := Keeps.pair h24 (keeps_checkWord h10)
  exact (keeps_setSynd h25)

theorem keeps_updateWindow {s u : State} {x1} {x2} (h : Keeps s u) :
    Keeps s (State.updateWindow u x1 x2) := by
  unfold State.updateWindow
  extract_lets -merge v9 v10 v11
  have h15 : Keeps s v9 := (keeps_curveRewrite (keeps_reloadAll h))
  have h22 : Keeps s v10 := (keeps_sweepRows h15)
  exact (Keeps.ite (fun _ => (keeps_updGroups (keeps_setF h22))) (fun _ => h22))

theorem keeps_fillEach {s u : State} {x1} (h : Keeps s u) :
    Keeps s (State.fillEach u x1).2 := by
  unfold State.fillEach
  refine (Keeps.foldl2 (Keeps.mk2 h) (fun _ _ _ => ?_))
  rename_i h10
  extract_lets -merge v11 v12
  have h15 : Keeps s v11 := h10
  refine (Keeps.ite2 (fun _ => (Keeps.mk2 (keeps_busErr h15))) (fun _ => ?_))
  split
  rename_i y33 h34
  have h35 := Keeps.pair h34 (keeps_checkRange h15)
  exact (Keeps.ite2 (fun _ => (Keeps.mk2 h35)) (fun _ => (Keeps.mk2 (keeps_writeMem h35))))

theorem keeps_fillAll {s u : State} {x1} (h : Keeps s u) :
    Keeps s (State.fillAll u x1).2 := by
  unfold State.fillAll
  extract_lets -merge v11
  exact (Keeps.ite2 (fun _ => (Keeps.mk2 (keeps_writeMem h))) (fun _ => (keeps_fillEach h)))

theorem keeps_snapFail {s u : State} {x1} (h : Keeps s u) :
    Keeps s (State.snapFail u x1) := by
  unfold State.snapFail
  exact keeps_postOnce (keeps_bump h)

theorem keeps_snapDrop {s u : State} {x1} (h : Keeps s u) :
    Keeps s (State.snapDrop u x1) := by
  unfold State.snapDrop
  exact Keeps.ite (fun _ => keeps_snapFail (keeps_updPr h)) (fun _ => h)

theorem keeps_snapBegin {s u : State} {x1} {x2} (h : Keeps s u) :
    Keeps s (State.snapBegin u x1 x2) := by
  unfold State.snapBegin
  extract_lets -merge v1 v2 v3 v4 v5
  have h6 : Keeps s v1 := keeps_snapDrop h
  have h7 : Keeps s v4 := keeps_setRegN h6
  have h8 : Keeps s v5 := keeps_updPr h7
  exact Keeps.ite (fun _ => keeps_putDram h8) (fun _ => h6)

theorem keeps_snapEnd {s u : State} {x1} {x2} {x3} {x4} {x5} {x6} (h : Keeps s u) :
    Keeps s (State.snapEnd u x1 x2 x3 x4 x5 x6) := by
  unfold State.snapEnd
  extract_lets -merge v1 v2 v3 v4 v5 v6 v7 v8
  have h9 : Keeps s v6 := keeps_updPr h
  have h13 : Keeps s v7 := Keeps.ite (fun _ => Keeps.foldl h9 (fun y10 y11 h12 => keeps_putDram h12)) (fun _ => h9)
  exact Keeps.ite (fun _ => h) (fun _ => Keeps.ite (fun _ => keeps_putDram h13) (fun _ => keeps_snapFail h13))

theorem keeps_recDrop {s u : State} {x1} {x2} (h : Keeps s u) :
    Keeps s (State.recDrop u x1 x2) := by
  unfold State.recDrop
  extract_lets -merge v6 v7
  exact (Keeps.upd h)

theorem keeps_recShow {s u : State} (h : Keeps s u) :
    Keeps s (State.recShow u) := by
  unfold State.recShow
  split
  · exact (keeps_setRegN h)
  · extract_lets -merge v14
    exact (keeps_setRegN (keeps_setRegN h))

theorem keeps_recAppend {s u : State} {x1} {x2} {x3} {x4} (h : Keeps s u) :
    Keeps s (State.recAppend u x1 x2 x3 x4) := by
  unfold State.recAppend
  extract_lets -merge v1 v2 v3 v4 v5 v6
  have h7 : Keeps s v2 := keeps_recDrop h
  have h8 : Keeps s v3 := keeps_putDram h7
  have h9 : Keeps s v5 := Keeps.ite (fun _ => h8) (fun _ => Keeps.upd h8)
  exact keeps_setRegN h9

theorem keeps_recPad {s u : State} {x1} (h : Keeps s u) :
    Keeps s (State.recPad u x1) := by
  unfold State.recPad
  extract_lets -merge v1 v2 v3 v4 v5
  have h6 : Keeps s v3 := keeps_recDrop h
  have h7 : Keeps s v5 := keeps_putDram h6
  exact Keeps.ite (fun _ => keeps_setRegN h7) (fun _ => h)

theorem keeps_recRows {s u : State} {x1} (h : Keeps s u) :
    Keeps s (State.recRows u x1).2 := by
  unfold State.recRows
  extract_lets -merge v5 v6 v7
  exact (Keeps.ite2 (fun _ => (Keeps.mk2 h)) (fun _ => (Keeps.mk2 (keeps_drawn h))))

theorem keeps_recFrame {s u : State} {x1} {x2} {x3} {x4} {x5} {x6} (h : Keeps s u) :
    Keeps s (State.recFrame u x1 x2 x3 x4 x5 x6) := by
  unfold State.recFrame
  extract_lets -merge v10 v11 v12 v13 v14
  refine (Keeps.ite (fun _ => ?_) (fun _ => h))
  split
  rename_i y33 h34
  have h35 := Keeps.pair h34 (Keeps.ite2 (fun _ => (keeps_recRows h)) (fun _ => (Keeps.mk2 h)))
  extract_lets -merge v37 v38 v39 v40 v41 v42 v43 v44 v45 v46 v47
  have h59 : Keeps s v39 := (keeps_recPad h35)
  have h61 : Keeps s v41 := (Keeps.ite (fun _ => (keeps_setRegN (keeps_setRegN h59))) (fun _ => h59))
  have h63 : Keeps s v45 := (Keeps.upd h61)
  have h65 : Keeps s v46 := (keeps_recShow (keeps_recAppend h63))
  have h67 : Keeps s v47 := (keeps_setF h65)
  exact (Keeps.ite (fun _ => h67) (fun _ => (keeps_postOnce (keeps_bump h67))))

theorem keeps_recTrigger {s u : State} {x1} (h : Keeps s u) :
    Keeps s (State.recTrigger u x1) := by
  unfold State.recTrigger
  extract_lets -merge v5 v6 v7 v8 v9
  have h15 : Keeps s v6 := (keeps_setRegN (keeps_setRegN h))
  have h17 : Keeps s v7 := (keeps_setPair h15)
  have h19 : Keeps s v8 := (keeps_setF (keeps_setF h17))
  exact (Keeps.ite (fun _ => (keeps_bump h)) (fun _ => (Keeps.ite (fun _ => (Keeps.upd h19)) (fun _ => h))))

end Sys2Proof.Machine
end

