-- ==== Sys2Proof/Laws/KeepsLink.lean ====
section
/-! SUPPORT. What the operations of Machine/Link.lean keep (Laws/Keeps.lean). -/

namespace Sys2Proof.Machine

theorem keeps_emit {s u : State} {x1} {x2} (h : Keeps s u) :
    Keeps s (State.emit u x1 x2) := by
  unfold State.emit
  exact (keeps_updPort h)

theorem keeps_send {s u : State} {x1} {x2} {x3} (h : Keeps s u) :
    Keeps s (State.send u x1 x2 x3) := by
  unfold State.send
  extract_lets -merge v1
  exact keeps_updPort (keeps_emit h)

theorem keeps_setZState {s u : State} {x1} {x2} (h : Keeps s u) :
    Keeps s (State.setZState u x1 x2) := by
  unfold State.setZState
  exact (keeps_setF h)

theorem keeps_zEv {s u : State} {x1} {x2} {x3} (h : Keeps s u) :
    Keeps s (State.zEv u x1 x2 x3) := by
  unfold State.zEv
  exact (keeps_post h)

theorem keeps_zEvOnce {s u : State} {x1} {x2} {x3} (h : Keeps s u) :
    Keeps s (State.zEvOnce u x1 x2 x3) := by
  unfold State.zEvOnce
  exact (keeps_postOnce h)

theorem keeps_pushSlot {s u : State} {x1} {x2} {x3} {x4} (h : Keeps s u) :
    Keeps s (State.pushSlot u x1 x2 x3 x4) := by
  unfold State.pushSlot
  extract_lets -merge v1
  exact keeps_updPort h

theorem keeps_emitStripe {s u : State} {x1} {x2} {x3} {x4} {x5} (h : Keeps s u) :
    Keeps s (State.emitStripe u x1 x2 x3 x4 x5) := by
  unfold State.emitStripe
  extract_lets -merge v1 v2 v3
  have h4 : Keeps s v3 := keeps_emit h
  exact keeps_emit (keeps_emit h4)

theorem keeps_sendRow {s u : State} {x1} {x2} {x3} {x4} (h : Keeps s u) :
    Keeps s (State.sendRow u x1 x2 x3 x4) := by
  unfold State.sendRow
  exact keeps_pushSlot (keeps_emitStripe (keeps_emitStripe h))

theorem keeps_sendCarry {s u : State} {x1} {x2} (h : Keeps s u) :
    Keeps s (State.sendCarry u x1 x2) := by
  unfold State.sendCarry
  extract_lets -merge v1 v2 v3
  exact keeps_pushSlot (keeps_emit h)

theorem keeps_sendMapRow {s u : State} {x1} {x2} (h : Keeps s u) :
    Keeps s (State.sendMapRow u x1 x2) := by
  unfold State.sendMapRow
  extract_lets -merge v1
  exact keeps_pushSlot (keeps_emit (keeps_emit h))

theorem keeps_sendMove {s u : State} {x1} {x2} {x3} {x4} (h : Keeps s u) :
    Keeps s (State.sendMove u x1 x2 x3 x4) := by
  unfold State.sendMove
  exact (keeps_send h)

theorem keeps_setReady {s u : State} {x1} {x2} {x3} (h : Keeps s u) :
    Keeps s (State.setReady u x1 x2 x3) := by
  unfold State.setReady
  exact keeps_updPort (keeps_setB h)

theorem keeps_setFailed {s u : State} {x1} {x2} {x3} (h : Keeps s u) :
    Keeps s (State.setFailed u x1 x2 x3) := by
  unfold State.setFailed
  exact (keeps_setB h)

theorem keeps_sendCheck {s u : State} {x1} {x2} (h : Keeps s u) :
    Keeps s (State.sendCheck u x1 x2) := by
  unfold State.sendCheck
  exact (keeps_send h)

theorem keeps_sendCtle {s u : State} {x1} {x2} {x3} (h : Keeps s u) :
    Keeps s (State.sendCtle u x1 x2 x3) := by
  unfold State.sendCtle
  exact (keeps_send h)

theorem keeps_startCal {s u : State} {x1} {x2} (h : Keeps s u) :
    Keeps s (State.startCal u x1 x2) := by
  unfold State.startCal
  extract_lets -merge v6 v7 v8 v9
  have h14 : Keeps s v9 := (keeps_updPort h)
  exact (keeps_sendCheck (keeps_sendCtle h14))

theorem keeps_dropCal {s u : State} {x1} {x2} (h : Keeps s u) :
    Keeps s (State.dropCal u x1 x2) := by
  unfold State.dropCal
  exact (keeps_updPort h)

theorem keeps_takeCal {s u : State} {x1} {x2} {x3} {x4} {x5} (h : Keeps s u) :
    Keeps s (State.takeCal u x1 x2 x3 x4 x5) := by
  unfold State.takeCal
  exact (keeps_setF (keeps_setF (keeps_setF h)))

theorem keeps_calReject {s u : State} {x1} {x2} {x3} (h : Keeps s u) :
    Keeps s (State.calReject u x1 x2 x3) := by
  unfold State.calReject
  exact (keeps_zEvOnce (keeps_raise h))

theorem keeps_retrainEv {s u : State} {x1} {x2} {x3} (h : Keeps s u) :
    Keeps s (State.retrainEv u x1 x2 x3) := by
  unfold State.retrainEv
  exact (keeps_zEv (keeps_raise h))

theorem keeps_spareFail {s u : State} {x1} {x2} (h : Keeps s u) :
    Keeps s (State.spareFail u x1 x2) := by
  unfold State.spareFail
  extract_lets -merge v6
  have h10 : Keeps s v6 := (keeps_zEv (keeps_raise h))
  exact (Keeps.ite (fun _ => h10) (fun _ => (keeps_retrainEv (keeps_setF (keeps_setFailed h10)))))

theorem keeps_laneFail {s u : State} {x1} {x2} {x3} (h : Keeps s u) :
    Keeps s (State.laneFail u x1 x2 x3) := by
  unfold State.laneFail
  extract_lets -merge v8 v9
  have h13 : Keeps s v8 := (keeps_setReady (keeps_setFailed h))
  have h10 : Keeps s v9 := (keeps_zEv (keeps_raise h13))
  exact (keeps_retrainEv (keeps_dropCal h10))

theorem keeps_sendBkPrbs {s u : State} {x1} (h : Keeps s u) :
    Keeps s (State.sendBkPrbs u x1) := by
  unfold State.sendBkPrbs
  exact keeps_send h

theorem keeps_bkAsk {s u : State} {x1} (h : Keeps s u) :
    Keeps s (State.bkAsk u x1) := by
  unfold State.bkAsk
  split
  · exact Keeps.ite (fun _ => keeps_updPort (keeps_sendBkPrbs h)) (fun _ => h)
  · exact h

theorem keeps_hlEv {s u : State} {x1} {x2} {x3} (h : Keeps s u) :
    Keeps s (State.hlEv u x1 x2 x3) := by
  unfold State.hlEv
  exact keeps_post h

theorem keeps_hlEvOnce {s u : State} {x1} {x2} {x3} (h : Keeps s u) :
    Keeps s (State.hlEvOnce u x1 x2 x3) := by
  unfold State.hlEvOnce
  exact keeps_postOnce h

theorem keeps_hlIntake {s u : State} {x1} {x2} (h : Keeps s u) :
    Keeps s (State.hlIntake u x1 x2) := by
  unfold State.hlIntake
  exact keeps_updHl h

theorem keeps_hlClose {s u : State} {x1} (h : Keeps s u) :
    Keeps s (State.hlClose u x1) := by
  unfold State.hlClose
  split
  · exact keeps_hlIntake (keeps_updHl h)
  · exact h

theorem keeps_hlStale {s u : State} {x1} {x2} (h : Keeps s u) :
    Keeps s (State.hlStale u x1 x2) := by
  unfold State.hlStale
  exact keeps_hlIntake (keeps_hlEvOnce (keeps_raise h))

theorem keeps_hlShow {s u : State} {x1} (h : Keeps s u) :
    Keeps s (State.hlShow u x1) := by
  unfold State.hlShow
  exact keeps_setF (keeps_setF (keeps_setF h))

theorem keeps_hlAdvance {s u : State} {x1} {x2} (h : Keeps s u) :
    Keeps s (State.hlAdvance u x1 x2) := by
  unfold State.hlAdvance
  extract_lets -merge v1 v2
  have h3 : Keeps s v1 := keeps_setF h
  have h4 : Keeps s v2 := Keeps.ite (fun _ => h3) (fun _ => keeps_updHl h3)
  exact keeps_hlShow h4

theorem keeps_hlSense {s u : State} {x1} {x2} {x3} (h : Keeps s u) :
    Keeps s (State.hlSense u x1 x2 x3) := by
  unfold State.hlSense
  extract_lets -merge v1 v2 v3
  have h4 : Keeps s v1 := keeps_hlClose h
  have h5 : Keeps s v3 := Keeps.ite (fun _ => keeps_hlStale h4) (fun _ => keeps_updHl h4)
  exact keeps_hlAdvance h5

theorem keeps_hlSkip {s u : State} {x1} {x2} {x3} (h : Keeps s u) :
    Keeps s (State.hlSkip u x1 x2 x3) := by
  unfold State.hlSkip
  extract_lets -merge v1 v2
  have h3 : Keeps s v1 := keeps_hlClose h
  exact keeps_hlIntake h3

theorem keeps_hlRewind {s u : State} {x1} {x2} (h : Keeps s u) :
    Keeps s (State.hlRewind u x1 x2) := by
  unfold State.hlRewind
  extract_lets -merge v1
  have h2 : Keeps s v1 := Keeps.ite (fun _ => h) (fun _ => keeps_updHl h)
  exact keeps_hlShow (keeps_setF h2)

theorem keeps_hlRestart {s u : State} {x1} {x2} (h : Keeps s u) :
    Keeps s (State.hlRestart u x1 x2) := by
  unfold State.hlRestart
  exact keeps_hlRewind (keeps_hlIntake h)

theorem keeps_hlDiscard {s u : State} {x1} {x2} (h : Keeps s u) :
    Keeps s (State.hlDiscard u x1 x2) := by
  unfold State.hlDiscard
  exact keeps_updHl h

theorem keeps_hlTorn {s u : State} {x1} {x2} {x3} {x4} (h : Keeps s u) :
    Keeps s (State.hlTorn u x1 x2 x3 x4) := by
  unfold State.hlTorn
  refine Keeps.ite (fun _ => Keeps.ite (fun _ => keeps_hlRestart h) (fun _ => h)) (fun _ => ?_)
  split
  · exact keeps_hlShow (keeps_setF h)
  · exact Keeps.ite (fun _ => keeps_hlRestart (keeps_updHl h)) (fun _ => keeps_hlRewind (keeps_hlDiscard h))

theorem keeps_sendSel {s u : State} {x1} {x2} {x3} (h : Keeps s u) :
    Keeps s (State.sendSel u x1 x2 x3) := by
  unfold State.sendSel
  exact (keeps_send h)

theorem keeps_sendToggles {s u : State} {x1} {x2} (h : Keeps s u) :
    Keeps s (State.sendToggles u x1 x2).2 := by
  unfold State.sendToggles
  extract_lets -merge v6 v7 v8 v9 v10
  have h16 : Keeps s v8 := by
    refine (Keeps.foldl h (fun _ _ _ => ?_))
    rename_i y14 y15 h16
    exact (keeps_sendSel h16)
  have h21 : Keeps s v9 := (keeps_updPort h16)
  have h26 : Keeps s v10 := (keeps_setF h21)
  exact (Keeps.mk2 (Keeps.ite (fun _ => (keeps_zEvOnce h26)) (fun _ => h26)))

theorem keeps_sendSelClear {s u : State} {x1} (h : Keeps s u) :
    Keeps s (State.sendSelClear u x1) := by
  unfold State.sendSelClear
  exact (keeps_updPort (keeps_send h))

theorem keeps_sendSelMap {s u : State} {x1} (h : Keeps s u) :
    Keeps s (State.sendSelMap u x1) := by
  unfold State.sendSelMap
  extract_lets -merge v8 v9
  have h14 : Keeps s v8 := by
    refine (Keeps.foldl h (fun _ _ _ => ?_))
    rename_i y20 y21 h22
    exact (keeps_sendSel h22)
  have h22 : Keeps s v9 := (keeps_send h14)
  exact (keeps_showPending (keeps_updPort h22))

theorem keeps_sendFallback {s u : State} {x1} {x2} (h : Keeps s u) :
    Keeps s (State.sendFallback u x1 x2) := by
  unfold State.sendFallback
  extract_lets -merge v11 v12
  have h16 : Keeps s v12 := (keeps_updPort h)
  exact (keeps_send h16)

end Sys2Proof.Machine
end

