-- ==== Sys2Proof/Laws/KeepsTgGrid.lean ====
section
/-! SUPPORT. What the operations of Machine/TgGrid.lean keep (Laws/Keeps.lean). -/

namespace Sys2Proof.Machine

theorem keeps_setTgState {s u : State} {x1} {x2} (h : Keeps s u) :
    Keeps s (State.setTgState u x1 x2) := by
  unfold State.setTgState
  exact (keeps_setF h)

theorem keeps_tgEv {s u : State} {x1} {x2} {x3} (h : Keeps s u) :
    Keeps s (State.tgEv u x1 x2 x3) := by
  unfold State.tgEv
  exact (keeps_postOnce h)

theorem keeps_rephase {s u : State} (h : Keeps s u) :
    Keeps s (State.rephase u) := by
  unfold State.rephase
  extract_lets -merge v4 v5 v6
  have h12 : Keeps s v5 := by
    refine (Keeps.foldl h (fun _ _ _ => ?_))
    rename_i y18 y19 h20
    exact (keeps_updTg h20)
  have h19 : Keeps s v6 := by
    refine (Keeps.foldl h12 (fun _ _ _ => ?_))
    rename_i y11 y12 h13
    exact (keeps_setF h13)
  split
  · exact h12
  · extract_lets -merge v32
    exact (Keeps.ite (fun _ => h12) (fun _ => (keeps_tgEv h19)))

theorem keeps_stagedLoose {s u : State} (h : Keeps s u) :
    Keeps s (State.stagedLoose u) := by
  unfold State.stagedLoose
  split
  · split
    · exact Keeps.ite (fun _ => h) (fun _ => Keeps.upd h)
    · exact h
  · exact h

theorem keeps_tgOff {s u : State} {x1} (h : Keeps s u) :
    Keeps s (State.tgOff u x1) := by
  unfold State.tgOff
  refine Keeps.ite (fun _ => h) (fun _ => ?_)
  extract_lets -merge v1 v2
  have h3 : Keeps s v1 := keeps_setF (keeps_setTgState (keeps_snapDrop h))
  have h4 : Keeps s v2 := keeps_stagedLoose (keeps_setTg h3)
  exact keeps_tgEv h4

theorem keeps_halfRate {s u : State} {x1} {x2} (h : Keeps s u) :
    Keeps s (State.halfRate u x1 x2) := by
  unfold State.halfRate
  extract_lets -merge v10
  have h14 : Keeps s v10 := (keeps_updTg h)
  exact (Keeps.ite (fun _ => (keeps_tgEv (keeps_setTgState h14))) (fun _ => (Keeps.ite (fun _ => (keeps_tgEv (keeps_setTgState h14))) (fun _ => h14))))

theorem keeps_tearFrame {s u : State} {x1} (h : Keeps s u) :
    Keeps s (State.tearFrame u x1) := by
  unfold State.tearFrame
  extract_lets -merge v1 v2 v3
  have h4 : Keeps s v1 := keeps_raise h
  have h5 : Keeps s v2 := keeps_tgEv h4
  have h6 : Keeps s v3 := Keeps.ite (fun _ => h5) (fun _ => keeps_hlTorn h5)
  exact keeps_dropRanges (keeps_updTg h6)

theorem keeps_cutTransfer {s u : State} {x1} (h : Keeps s u) :
    Keeps s (State.cutTransfer u x1) := by
  unfold State.cutTransfer
  extract_lets -merge v1
  split
  · exact h
  · refine Keeps.ite (fun _ => h) (fun _ => ?_)
    split
    · exact h
    · exact keeps_updTg h

theorem keeps_retime {s u : State} {x1} (h : Keeps s u) :
    Keeps s (State.retime u x1) := by
  unfold State.retime
  extract_lets -merge v5 v6 v7 v8 v9 v10
  have h17 : Keeps s v7 := (keeps_send h)
  have h12 : Keeps s v10 := (keeps_updTg h17)
  exact (Keeps.ite (fun _ => h12) (fun _ => (keeps_raise h12)))

theorem keeps_setSched {s u : State} {x1} {x2} (h : Keeps s u) :
    Keeps s (State.setSched u x1 x2) := by
  unfold State.setSched
  extract_lets -merge v7
  exact (Keeps.upd h)

theorem keeps_schedStop {s u : State} {x1} (h : Keeps s u) :
    Keeps s (State.schedStop u x1) := by
  unfold State.schedStop
  exact (keeps_setF (keeps_setF (keeps_setSched h)))

theorem keeps_schedReject {s u : State} {x1} {x2} (h : Keeps s u) :
    Keeps s (State.schedReject u x1 x2) := by
  unfold State.schedReject
  extract_lets -merge v6
  have h10 : Keeps s v6 := (keeps_setF (keeps_schedStop h))
  exact (keeps_post (keeps_raise h10))

theorem keeps_framesRecheck {s u : State} (h : Keeps s u) :
    Keeps s (State.framesRecheck u) := by
  unfold State.framesRecheck
  refine (Keeps.foldl h (fun _ _ _ => ?_))
  rename_i y7 y8 h9
  split
  · exact (Keeps.ite (fun _ => (keeps_schedReject h9)) (fun _ => h9))
  · exact h9

theorem keeps_frameZero {s u : State} {x1} (h : Keeps s u) :
    Keeps s (State.frameZero u x1) := by
  unfold State.frameZero
  exact Keeps.upd h

theorem keeps_preAgain {s u : State} {x1} {x2} (h : Keeps s u) :
    Keeps s (State.preAgain u x1 x2) := by
  unfold State.preAgain
  extract_lets -merge v1
  have h2 : Keeps s v1 := keeps_snapDrop (Keeps.ite (fun _ => keeps_frameZero h) (fun _ => h))
  split
  exact keeps_updTg h2

theorem keeps_gridMoved {s u : State} {x1} (h : Keeps s u) :
    Keeps s (State.gridMoved u x1) := by
  unfold State.gridMoved
  extract_lets -merge v1 v2 v3
  split
  extract_lets -merge v8
  exact keeps_updTg h

theorem keeps_gridWritten {s u : State} (h : Keeps s u) :
    Keeps s (State.gridWritten u) := by
  unfold State.gridWritten
  extract_lets -merge v1 v2
  have h6 : Keeps s v2 := Keeps.foldl h (fun y3 y4 h5 => keeps_gridMoved h5)
  exact Keeps.foldl2 h6 (fun y7 y8 h9 => Keeps.mk2 (keeps_preAgain h9))

theorem keeps_setAnchor {s u : State} {x1} (h : Keeps s u) :
    Keeps s (State.setAnchor u x1) := by
  unfold State.setAnchor
  extract_lets -merge v1 v2
  have h3 : Keeps s v1 := keeps_setPair h
  exact Keeps.upd h3

theorem keeps_applyDirect {s u : State} {x1} (h : Keeps s u) :
    Keeps s (State.applyDirect u x1) := by
  unfold State.applyDirect
  extract_lets -merge v1 v2 v3 v4
  have h16 : Keeps s v2 := by
    unfold v2
    split
    · exact keeps_setAnchor h
    · exact Keeps.upd h
    · exact h
  have h17 : Keeps s v3 := Keeps.ite (fun _ => keeps_gridWritten h16) (fun _ => h16)
  have h21 : Keeps s v4 := Keeps.foldl h17 (fun y18 y19 h20 => keeps_cutTransfer (keeps_tearFrame (Keeps.ite (fun _ => keeps_retime h20) (fun _ => h20))))
  exact Keeps.ite (fun _ => keeps_framesRecheck h21) (fun _ => h21)

theorem keeps_timingRefused {s u : State} {x1} {x2} (h : Keeps s u) :
    Keeps s (State.timingRefused u x1 x2) := by
  unfold State.timingRefused
  exact (keeps_tgEv h)

theorem keeps_directWrite {s u : State} {x1} {x2} (h : Keeps s u) :
    Keeps s (State.directWrite u x1 x2) := by
  unfold State.directWrite
  extract_lets -merge v6 v7
  have h10 : Keeps s v6 := (keeps_setReg h)
  split
  · exact h
  · exact (Keeps.ite (fun _ => (keeps_timingRefused h)) (fun _ => (keeps_applyDirect h10)))

theorem keeps_timingCommit {s u : State} {x1} (h : Keeps s u) :
    Keeps s (State.timingCommit u x1) := by
  unfold State.timingCommit
  extract_lets -merge v8 v9 v10 v11 v12 v13 v14
  have h22 : Keeps s v11 := (keeps_setF (keeps_setF h))
  have h24 : Keeps s v13 := (Keeps.upd h)
  have h20 : Keeps s v14 := (keeps_setF (keeps_setF h24))
  refine (Keeps.ite (fun _ => h) (fun _ => (Keeps.ite (fun _ => (keeps_timingRefused h22)) (fun _ => (Keeps.foldl h20 (fun _ _ _ => ?_))))))
  rename_i y22 y23 h25
  exact (keeps_setF h25)

theorem keeps_stagedHere {s u : State} {x1} (h : Keeps s u) :
    Keeps s (State.stagedHere u x1).2 := by
  unfold State.stagedHere
  refine Keeps.ite2 (fun _ => h) (fun _ => ?_)
  refine Keeps.ite2 (fun _ => h) (fun _ => ?_)
  split
  rename_i e4
  have h5 := Keeps.pair e4 (keeps_fresh h)
  exact h5

theorem keeps_stagedLatch {s u : State} {x1} {x2} (h : Keeps s u) :
    Keeps s (State.stagedLatch u x1 x2) := by
  unfold State.stagedLatch
  split
  · refine Keeps.ite (fun _ => ?_) (fun _ => h)
    split
    rename_i e7
    have h8 := Keeps.pair e7 (keeps_stagedHere h)
    exact Keeps.ite (fun _ => Keeps.upd h8) (fun _ => h8)
  · exact h

theorem keeps_applyStaged {s u : State} {x1} {x2} (h : Keeps s u) :
    Keeps s (State.applyStaged u x1 x2) := by
  unfold State.applyStaged
  split
  · exact h
  · rename_i y3 _ _
    refine Keeps.ite (fun _ => h) (fun _ => ?_)
    extract_lets -merge v6 v7 v8 v9 v10 v11 v12 v13 v14 v15
    have h16 : Keeps s v6 := keeps_setRegN (keeps_setRegN h)
    have h17 : Keeps s v7 := keeps_setRegN (keeps_setRegN h16)
    have h21 : Keeps s v8 := Keeps.foldl h17 (fun y18 y19 h20 => keeps_setRegN (keeps_setRegN h20))
    have h22 : Keeps s v10 := keeps_setAnchor h21
    have h23 : Keeps s v12 := Keeps.upd h22
    have h24 : Keeps s v13 := keeps_setRegN (keeps_setF h23)
    have h28 : Keeps s v14 := Keeps.foldl h24 (fun y25 y26 h27 => keeps_setF h27)
    have h29 : Keeps s v15 := keeps_framesRecheck (keeps_tgEv h28)
    exact Keeps.ite (fun _ => keeps_rephase h29) (fun _ => Keeps.foldl h29 (fun y30 y31 h32 => keeps_updTg h32))

theorem keeps_joinPhase {s u : State} {x1} {x2} (h : Keeps s u) :
    Keeps s (State.joinPhase u x1 x2) := by
  unfold State.joinPhase
  extract_lets -merge v1
  exact keeps_setF (keeps_updTg h)

theorem keeps_followGrid {s u : State} {x1} {x2} (h : Keeps s u) :
    Keeps s (State.followGrid u x1 x2) := by
  unfold State.followGrid
  extract_lets -merge v1 v2
  refine Keeps.foldl h (fun y3 y4 h5 => ?_)
  extract_lets -merge v6 v7
  exact Keeps.ite (fun _ => h5) (fun _ => keeps_joinPhase (keeps_updTg h5))

theorem keeps_preFirst {s u : State} {x1} {x2} (h : Keeps s u) :
    Keeps s (State.preFirst u x1 x2) := by
  unfold State.preFirst
  extract_lets -merge v1
  exact keeps_updTg h

theorem keeps_preShow {s u : State} {x1} (h : Keeps s u) :
    Keeps s (State.preShow u x1) := by
  unfold State.preShow
  exact Keeps.ite (fun _ => keeps_setRegN (keeps_setTgState h)) (fun _ => h)

theorem keeps_preEnter {s u : State} {x1} (h : Keeps s u) :
    Keeps s (State.preEnter u x1) := by
  unfold State.preEnter
  exact Keeps.ite (fun _ => keeps_preShow h) (fun _ => h)

theorem keeps_startCount {s u : State} {x1} (h : Keeps s u) :
    Keeps s (State.startCount u x1) := by
  unfold State.startCount
  exact Keeps.upd h

theorem keeps_tgBegin {s u : State} {x1} (h : Keeps s u) :
    Keeps s (State.tgBegin u x1) := by
  unfold State.tgBegin
  extract_lets -merge v1 v2 v3
  have h4 : Keeps s v2 := keeps_startCount h
  have h5 : Keeps s v3 := Keeps.ite (fun _ => keeps_frameZero h4) (fun _ => h4)
  have h10 : ∀ y z, Keeps s (v3.setTg x1 { s := y - v3.timing.period, e := y, first := z, accepted := true }) := fun _ _ => keeps_setTg h5
  refine keeps_preEnter (keeps_setF (keeps_updPr (keeps_dropRanges ?_)))
  cases v1 with
  | none => exact h10 _ _
  | some m => exact keeps_joinPhase (h10 _ _)

theorem keeps_tgStart {s u : State} {x1} (h : Keeps s u) :
    Keeps s (State.tgStart u x1) := by
  unfold State.tgStart
  extract_lets -merge v16
  exact (Keeps.ite (fun _ => (keeps_tgEv (keeps_raise h))) (fun _ => (Keeps.ite (fun _ => (keeps_updTg h)) (fun _ => (keeps_tgBegin h)))))

theorem keeps_tgStop {s u : State} {x1} (h : Keeps s u) :
    Keeps s (State.tgStop u x1) := by
  unfold State.tgStop
  extract_lets -merge v6
  exact (Keeps.ite (fun _ => h) (fun _ => (Keeps.ite (fun _ => (keeps_tgOff h)) (fun _ => (keeps_updTg h)))))

end Sys2Proof.Machine
end

