-- ==== Sys2Proof/Laws/KeepsFreeze.lean ====
section
/-! SUPPORT. What the operations of Machine/Freeze.lean keep (Laws/Keeps.lean). -/

namespace Sys2Proof.Machine

theorem keeps_spoolTrigger {s u : State} {x1} (h : Keeps s u) :
    Keeps s (State.spoolTrigger u x1) := by
  unfold State.spoolTrigger
  extract_lets -merge v5 v6 v7 v8 v9
  have h15 : Keeps s v5 := (keeps_setRegN h)
  have h17 : Keeps s v6 := (keeps_setRegN h15)
  have h19 : Keeps s v7 := (keeps_spoolPut h17)
  have h21 : Keeps s v9 := (Keeps.upd h19)
  exact (Keeps.ite (fun _ => h) (fun _ => (keeps_setF (keeps_setF h21))))

theorem keeps_freezeAll {s u : State} {x1} (h : Keeps s u) :
    Keeps s (State.freezeAll u x1) := by
  unfold State.freezeAll
  exact (keeps_spoolTrigger (keeps_recTrigger h))

end Sys2Proof.Machine
end

