-- ==== Sys2Proof/Laws/KeepsSafeOps.lean ====
section
/-! SUPPORT. What the operations of Machine/SafeOps.lean keep (Laws/Keeps.lean). -/

namespace Sys2Proof.Machine

theorem keeps_setSafeT {s u : State} {x1} {x2} (h : Keeps s u) :
    Keeps s (State.setSafeT u x1 x2) := by
  unfold State.setSafeT
  exact (Keeps.upd h)

theorem keeps_updSafeT {s u : State} {x1} {x2} (h : Keeps s u) :
    Keeps s (State.updSafeT u x1 x2) := by
  unfold State.updSafeT
  exact (keeps_setSafeT h)

theorem keeps_updSafe {s u : State} {x1} (h : Keeps s u) :
    Keeps s (State.updSafe u x1) := by
  unfold State.updSafe
  exact (Keeps.upd h)

theorem keeps_updBoot {s u : State} {x1} (h : Keeps s u) :
    Keeps s (State.updBoot u x1) := by
  unfold State.updBoot
  exact (Keeps.upd h)

theorem keeps_updHk {s u : State} {x1} (h : Keeps s u) :
    Keeps s (State.updHk u x1) := by
  unfold State.updHk
  exact Keeps.upd h

theorem keeps_updPwr {s u : State} {x1} (h : Keeps s u) :
    Keeps s (State.updPwr u x1) := by
  unfold State.updPwr
  exact Keeps.upd h

theorem keeps_sfEv {s u : State} {x1} {x2} {x3} {x4} (h : Keeps s u) :
    Keeps s (State.sfEv u x1 x2 x3 x4) := by
  unfold State.sfEv
  exact (keeps_postOnce h)

theorem keeps_setSs {s u : State} {x1} {x2} (h : Keeps s u) :
    Keeps s (State.setSs u x1 x2) := by
  unfold State.setSs
  exact (keeps_setF h)

theorem keeps_latchSc {s u : State} {x1} (h : Keeps s u) :
    Keeps s (State.latchSc u x1) := by
  unfold State.latchSc
  exact (keeps_setF h)

theorem keeps_latchTt {s u : State} {x1} (h : Keeps s u) :
    Keeps s (State.latchTt u x1) := by
  unfold State.latchTt
  exact (keeps_setF h)

theorem keeps_latchBoth {s u : State} {x1} (h : Keeps s u) :
    Keeps s (State.latchBoth u x1) := by
  unfold State.latchBoth
  exact (keeps_latchTt (keeps_latchSc h))

theorem keeps_setHs {s u : State} {x1} {x2} (h : Keeps s u) :
    Keeps s (State.setHs u x1 x2) := by
  unfold State.setHs
  exact (keeps_updSafeT h)

theorem keeps_setLs {s u : State} {x1} {x2} (h : Keeps s u) :
    Keeps s (State.setLs u x1 x2) := by
  unfold State.setLs
  exact (keeps_updSafeT h)

theorem keeps_takeTables {s u : State} (h : Keeps s u) :
    Keeps s (State.takeTables u) := by
  unfold State.takeTables
  exact keeps_hidWrite (keeps_hidWrite (keeps_updSafe h))

theorem keeps_setTileBit {s u : State} {x1} {x2} {x3} (h : Keeps s u) :
    Keeps s (State.setTileBit u x1 x2 x3) := by
  unfold State.setTileBit
  exact (keeps_setB h)

theorem keeps_setFb {s u : State} {x1} {x2} (h : Keeps s u) :
    Keeps s (State.setFb u x1 x2) := by
  unfold State.setFb
  extract_lets -merge v6 v7
  have h12 : Keeps s v6 := (keeps_updPort h)
  have h14 : Keeps s v7 := (keeps_setTileBit h12)
  exact (Keeps.ite (fun _ => (keeps_setF h14)) (fun _ => h14))

theorem keeps_setFull {s u : State} {x1} {x2} (h : Keeps s u) :
    Keeps s (State.setFull u x1 x2) := by
  unfold State.setFull
  extract_lets -merge v8
  have h10 : Keeps s v8 := (keeps_setTileBit h)
  exact (Keeps.ite (fun _ => (keeps_setF h10)) (fun _ => h10))

theorem keeps_setHandover {s u : State} {x1} {x2} (h : Keeps s u) :
    Keeps s (State.setHandover u x1 x2) := by
  unfold State.setHandover
  exact (keeps_updBoot h)

theorem keeps_safeFallback {s u : State} {x1} (h : Keeps s u) :
    Keeps s (State.safeFallback u x1) := by
  unfold State.safeFallback
  exact (Keeps.ite (fun _ => (keeps_updSafeT (keeps_sendFallback h))) (fun _ => h))

theorem keeps_dropDirect {s u : State} {x1} (h : Keeps s u) :
    Keeps s (State.dropDirect u x1) := by
  unfold State.dropDirect
  exact keeps_updPwr h

theorem keeps_handoverStart {s u : State} {x1} (h : Keeps s u) :
    Keeps s (State.handoverStart u x1) := by
  unfold State.handoverStart
  exact (Keeps.ite (fun _ => (keeps_setHandover (keeps_sendFallback h))) (fun _ => h))

theorem keeps_handoverAck {s u : State} {x1} (h : Keeps s u) :
    Keeps s (State.handoverAck u x1) := by
  unfold State.handoverAck
  extract_lets -merge v5
  have h6 : Keeps s v5 := (keeps_setHandover (keeps_setFb h))
  exact (Keeps.ite (fun _ => (Keeps.ite (fun _ => (keeps_tgStart h6)) (fun _ => h6))) (fun _ => h))

theorem keeps_ssFaultN {s u : State} (h : Keeps s u) :
    Keeps s (State.ssFaultN u) := by
  unfold State.ssFaultN
  exact (Keeps.ite (fun _ => (keeps_assertFault h)) (fun _ => (keeps_releaseFault h)))

theorem keeps_goDark {s u : State} {x1} (h : Keeps s u) :
    Keeps s (State.goDark u x1) := by
  unfold State.goDark
  extract_lets -merge v5 v6
  have h11 : Keeps s v5 := (keeps_setFb (keeps_setLs (keeps_setHs h)))
  have h13 : Keeps s v6 := (keeps_setHandover (keeps_setFull h11))
  exact (keeps_updSafeT h13)

theorem keeps_goFallback {s u : State} {x1} (h : Keeps s u) :
    Keeps s (State.goFallback u x1) := by
  unfold State.goFallback
  extract_lets -merge v7
  have h9 : Keeps s v7 := (Keeps.ite (fun _ => (keeps_setFb h)) (fun _ => h))
  exact (keeps_safeFallback (keeps_setHandover (keeps_setFull h9)))

theorem keeps_startRetest {s u : State} {x1} (h : Keeps s u) :
    Keeps s (State.startRetest u x1) := by
  unfold State.startRetest
  extract_lets -merge v1
  have h2 : Keeps s v1 := keeps_dropDirect (keeps_updSafeT h)
  exact keeps_updBoot h2

theorem keeps_ssPost {s u : State} {x1} {x2} {x3} (h : Keeps s u) :
    Keeps s (State.ssPost u x1 x2 x3) := by
  unfold State.ssPost
  extract_lets -merge v1
  exact Keeps.ite (fun _ => h) (fun _ => keeps_post (Keeps.foldl h (fun y2 y3 h4 => keeps_notePost h4)))

theorem keeps_ssEvents {s u : State} {x1} (h : Keeps s u) :
    Keeps s (State.ssEvents u x1) := by
  unfold State.ssEvents
  extract_lets -merge v1 v2
  have h7 : Keeps s v1 := by
    unfold v1
    refine Keeps.foldl h (fun y3 y4 h5 => ?_)
    extract_lets -merge v6
    exact Keeps.ite (fun _ => h5) (fun _ => keeps_freezeAll (keeps_ssPost (keeps_wakeNote h5)))
  have h11 : Keeps s v2 := Keeps.foldl h7 (fun y8 y9 h10 => keeps_ssPost h10)
  exact keeps_ssFaultN h11

theorem keeps_ssMove {s u : State} {x1} {x2} {x3} (h : Keeps s u) :
    Keeps s (State.ssMove u x1 x2 x3) := by
  unfold State.ssMove
  extract_lets -merge v10
  have h21 : Keeps s v10 := (keeps_setSs h)
  exact (Keeps.ite (fun _ => (Keeps.ite (fun _ => (keeps_goDark h21)) (fun _ => h21))) (fun _ => (Keeps.ite (fun _ => (Keeps.ite (fun _ => (keeps_goFallback h21)) (fun _ => h21))) (fun _ => (Keeps.ite (fun _ => (keeps_handoverStart h21)) (fun _ => h21))))))

theorem keeps_updateSS {s u : State} {x1} (h : Keeps s u) :
    Keeps s (State.updateSS u x1) := by
  unfold State.updateSS
  extract_lets -merge v1 v2 v3 v4 v5 v6 v7
  have h8 : Keeps s v1 := Keeps.ite (fun _ => h) (fun _ => keeps_updSafe h)
  have h12 : Keeps s v5 := Keeps.foldl h8 (fun y9 y10 h11 => Keeps.ite (fun _ => h11) (fun _ => keeps_startRetest h11))
  have h16 : Keeps s v6 := Keeps.foldl h12 (fun y13 y14 h15 => keeps_updSafeT h15)
  have h20 : Keeps s v7 := Keeps.foldl h16 (fun y17 y18 h19 => keeps_ssMove h19)
  exact keeps_ssEvents h20

theorem keeps_leaveDark {s u : State} {x1} (h : Keeps s u) :
    Keeps s (State.leaveDark u x1) := by
  unfold State.leaveDark
  extract_lets -merge v5 v6 v7 v8
  have h14 : Keeps s v7 := (keeps_setSs (keeps_updSafeT h))
  have h24 : Keeps s v8 := (Keeps.ite (fun _ => (keeps_handoverStart h14)) (fun _ => (keeps_safeFallback h14)))
  exact (Keeps.ite (fun _ => h) (fun _ => (keeps_ssEvents h24)))

theorem keeps_pulseFall {s u : State} {x1} (h : Keeps s u) :
    Keeps s (State.pulseFall u x1) := by
  unfold State.pulseFall
  extract_lets -merge v1 v2
  have h3 : Keeps s v2 := keeps_updSafeT h
  split
  · exact h
  · exact Keeps.ite (fun _ => keeps_sfEv (keeps_raise h3)) (fun _ => keeps_updSafeT (Keeps.ite (fun _ => keeps_setHs h3) (fun _ => keeps_setLs h3)))

theorem keeps_switchFail {s u : State} {x1} {x2} {x3} (h : Keeps s u) :
    Keeps s (State.switchFail u x1 x2 x3) := by
  unfold State.switchFail
  extract_lets -merge v11 v12
  have h16 : Keeps s v11 := (keeps_raise (keeps_latchBoth h))
  have h18 : Keeps s v12 := (keeps_sfEv h16)
  exact (keeps_updateSS h18)

theorem keeps_streamViol {s u : State} {x1} {x2} (h : Keeps s u) :
    Keeps s (State.streamViol u x1 x2) := by
  unfold State.streamViol
  extract_lets -merge v6 v7 v8 v9 v10
  have h19 : Keeps s v6 := (Keeps.ite (fun _ => (keeps_freezeAll h)) (fun _ => h))
  have h12 : Keeps s v8 := (keeps_updSafe h19)
  have h14 : Keeps s v9 := (Keeps.ite (fun _ => h19) (fun _ => (Keeps.ite (fun _ => (Keeps.ite (fun _ => (keeps_latchTt h12)) (fun _ => (keeps_latchSc h12)))) (fun _ => h12))))
  have h17 : Keeps s v10 := (keeps_updSafe h14)
  exact (keeps_updateSS h17)

theorem keeps_rowViol {s u : State} {x1} {x2} {x3} {x4} (h : Keeps s u) :
    Keeps s (State.rowViol u x1 x2 x3 x4) := by
  unfold State.rowViol
  extract_lets -merge v13 v14 v15
  have h20 : Keeps s v14 := (keeps_raise (keeps_setRegN h))
  have h22 : Keeps s v15 := (keeps_sfEv h20)
  exact (keeps_streamViol (keeps_updSafeT h22))

theorem keeps_ttCheckRow {s u : State} {x1} {x2} {x3} {x4} (h : Keeps s u) :
    Keeps s (State.ttCheckRow u x1 x2 x3 x4) := by
  unfold State.ttCheckRow
  extract_lets -merge v8
  refine (Keeps.foldl h (fun _ _ _ => ?_))
  rename_i y16 y17 h18
  exact (Keeps.ite (fun _ => (keeps_rowViol h18)) (fun _ => h18))

theorem keeps_ttRow {s u : State} {x1} {x2} {x3} {x4} (h : Keeps s u) :
    Keeps s (State.ttRow u x1 x2 x3 x4) := by
  unfold State.ttRow
  extract_lets -merge v8
  have h11 : Keeps s v8 := (keeps_updSafeT h)
  exact (keeps_ttCheckRow h11)

theorem keeps_ttCarry {s u : State} {x1} {x2} {x3} (h : Keeps s u) :
    Keeps s (State.ttCarry u x1 x2 x3) := by
  unfold State.ttCarry
  extract_lets -merge v8
  have h11 : Keeps s v8 := (keeps_updSafeT h)
  exact (keeps_ttCheckRow h11)

theorem keeps_ttSlotRow {s u : State} {x1} {x2} {x3} {x4} {x5} (h : Keeps s u) :
    Keeps s (State.ttSlotRow u x1 x2 x3 x4 x5) := by
  unfold State.ttSlotRow
  extract_lets -merge v9 v10
  have h13 : Keeps s v10 := (keeps_updSafeT h)
  exact (keeps_ttCheckRow h13)

theorem keeps_ttLimit {s u : State} {x1} {x2} {x3} (h : Keeps s u) :
    Keeps s (State.ttLimit u x1 x2 x3) := by
  unfold State.ttLimit
  generalize (if x2 = true then _ else _) = o
  cases o with
  | none => exact h
  | some m => exact Keeps.ite (fun _ => h) (fun _ => keeps_streamViol (keeps_sfEv (keeps_raise h)))

theorem keeps_ttSwap {s u : State} {x1} (h : Keeps s u) :
    Keeps s (State.ttSwap u x1) := by
  unfold State.ttSwap
  exact (keeps_updSafeT h)

theorem keeps_ttReselect {s u : State} (h : Keeps s u) :
    Keeps s (State.ttReselect u) := by
  unfold State.ttReselect
  refine (Keeps.foldl h (fun _ _ _ => ?_))
  rename_i y7 y8 h9
  extract_lets -merge v7 v8
  have h11 : Keeps s v8 := by
    refine (Keeps.foldl h9 (fun _ _ _ => ?_))
    rename_i y14 y15 h16
    exact (keeps_ttCheckRow h16)
  refine (Keeps.foldl h11 (fun _ _ _ => ?_))
  rename_i y26 y27 h28
  exact (keeps_ttCheckRow h28)

theorem keeps_sinShow {s u : State} {x1} (h : Keeps s u) :
    Keeps s (State.sinShow u x1) := by
  unfold State.sinShow
  extract_lets -merge v5 v6
  exact (keeps_setF h)

theorem keeps_sinDecide {s u : State} {x1} (h : Keeps s u) :
    Keeps s (State.sinDecide u x1) := by
  unfold State.sinDecide
  extract_lets -merge v10 v11 v12 v13 v14 v15 v16 v17
  have h29 : Keeps s v13 := h
  have h14 : Keeps s v14 := (keeps_updSafe h)
  have h25 : Keeps s v15 := by
    refine (Keeps.foldl h14 (fun _ _ _ => ?_))
    rename_i y20 y21 h22
    exact (keeps_sinShow h22)
  have h16 : Keeps s v16 := (keeps_setB (keeps_setB h25))
  have h24 : Keeps s v17 := (Keeps.ite (fun _ => (keeps_ttReselect h16)) (fun _ => h16))
  exact (Keeps.ite (fun _ => (keeps_updateSS (keeps_sfEv h24))) (fun _ => (keeps_updateSS h24)))

theorem keeps_setAct {s u : State} {x1} {x2} (h : Keeps s u) :
    Keeps s (State.setAct u x1 x2) := by
  unfold State.setAct
  exact (keeps_updSafe h)

theorem keeps_pitchShift {s u : State} (h : Keeps s u) :
    Keeps s (State.pitchShift u) := by
  unfold State.pitchShift
  extract_lets -merge v1 v2 v3 v4 v5 v6 v7 v8
  have h9 : Keeps s v2 := keeps_setB h
  have h10 : Keeps s v3 := Keeps.ite (fun _ => keeps_sfEv h9) (fun _ => h9)
  have h11 : Keeps s v8 := keeps_updSafe h10
  exact keeps_setF (keeps_setF h11)

theorem keeps_dynViol {s u : State} {x1} {x2} {x3} (h : Keeps s u) :
    Keeps s (State.dynViol u x1 x2 x3) := by
  unfold State.dynViol
  extract_lets -merge v15 v16
  have h9 : Keeps s v16 := (keeps_raise (keeps_setRegN h))
  exact (keeps_streamViol (keeps_sfEv h9))

theorem keeps_maskCheck {s u : State} {x1} {x2} (h : Keeps s u) :
    Keeps s (State.maskCheck u x1 x2).2 := by
  unfold State.maskCheck
  split
  extract_lets -merge v7 v8 v9 v10 v11
  have h12 : Keeps s v8 := keeps_setF (keeps_setF h)
  have h13 : Keeps s v9 := keeps_updSafeT h12
  have h14 : Keeps s v11 := keeps_raise h13
  exact Keeps.ite2 (fun _ => h12) (fun _ => Keeps.ite2 (fun _ => h13) (fun _ => Keeps.mk2 (keeps_streamViol (keeps_sfEv h14))))

theorem keeps_roiCheck {s u : State} {x1} {x2} (h : Keeps s u) :
    Keeps s (State.roiCheck u x1 x2).2 := by
  unfold State.roiCheck
  extract_lets -merge v7 v8 v9 v10 v11 v12
  have h20 : Keeps s v11 := (keeps_updSafeT h)
  have h22 : Keeps s v12 := (keeps_raise h20)
  exact (Keeps.ite2 (fun _ => (Keeps.mk2 h20)) (fun _ => (Keeps.mk2 (keeps_streamViol (keeps_sfEv h22)))))

theorem keeps_damageCheck {s u : State} {x1} (h : Keeps s u) :
    Keeps s (State.damageCheck u x1) := by
  unfold State.damageCheck
  extract_lets -merge v7 v8 v9 v10
  have h15 : Keeps s v10 := by
    refine (Keeps.foldl h (fun _ _ _ => ?_))
    rename_i y12 y13 h14
    exact (keeps_dynViol h14)
  exact (keeps_updSafeT h15)

theorem keeps_statsMissing {s u : State} {x1} (h : Keeps s u) :
    Keeps s (State.statsMissing u x1) := by
  unfold State.statsMissing
  extract_lets -merge v8 v9 v10 v11
  have h9 : Keeps s v9 := (keeps_raise h)
  have h10 : Keeps s v10 := (keeps_sfEv h9)
  have h21 : Keeps s v11 := (keeps_updSafeT h10)
  exact (Keeps.ite (fun _ => (keeps_streamViol h21)) (fun _ => h21))

theorem keeps_statsCheck {s u : State} {x1} {x2} (h : Keeps s u) :
    Keeps s (State.statsCheck u x1 x2) := by
  unfold State.statsCheck
  extract_lets -merge v7 v8 v9 v10
  have h21 : Keeps s v7 := (keeps_updSafeT h)
  have h24 : Keeps s v8 := (keeps_pitchShift h21)
  have h26 : Keeps s v10 := by
    refine (Keeps.foldl h24 (fun _ _ _ => ?_))
    rename_i y15 y16 h17
    exact (keeps_dynViol h17)
  split
  rename_i y24 h25
  have h27 := Keeps.pair h25 (keeps_maskCheck h26)
  split
  rename_i y39 h40
  have h41 := Keeps.pair h40 (keeps_roiCheck h27)
  extract_lets -merge v43
  have h45 : Keeps s v43 := (keeps_damageCheck h41)
  exact (keeps_updSafeT h45)

theorem keeps_setAbsent {s u : State} {x1} {x2} (h : Keeps s u) :
    Keeps s (State.setAbsent u x1 x2) := by
  unfold State.setAbsent
  extract_lets -merge v11 v12 v13 v14
  have h19 : Keeps s v11 := (keeps_setB h)
  have h23 : Keeps s v13 := (Keeps.ite (fun _ => (keeps_sfEv h19)) (fun _ => h19))
  have h18 : Keeps s v14 := (Keeps.ite (fun _ => (keeps_setFb h23)) (fun _ => h23))
  exact (Keeps.ite (fun _ => h) (fun _ => (keeps_updateSS h18)))

theorem keeps_lampReq {s u : State} {x1} (h : Keeps s u) :
    Keeps s (State.lampReq u x1) := by
  unfold State.lampReq
  extract_lets -merge v8 v9
  have h12 : Keeps s v8 := (keeps_setB h)
  have h15 : Keeps s v9 := (keeps_setB h12)
  exact (keeps_updateSS h15)

theorem keeps_actFault {s u : State} {x1} {x2} {x3} (h : Keeps s u) :
    Keeps s (State.actFault u x1 x2 x3) := by
  unfold State.actFault
  extract_lets -merge v1 v2 v3 v4
  have h5 : Keeps s v1 := keeps_setF (keeps_setF h)
  have h6 : Keeps s v3 := keeps_setAct h5
  have h7 : Keeps s v4 := keeps_raise (keeps_latchBoth h6)
  exact keeps_updateSS (keeps_sfEv h7)

theorem keeps_actShow {s u : State} {x1} (h : Keeps s u) :
    Keeps s (State.actShow u x1) := by
  unfold State.actShow
  extract_lets -merge v6 v7
  exact (keeps_setRegN (keeps_setRegN h))

end Sys2Proof.Machine
end

