-- ==== Sys2Proof/Laws/KeepsSafetyPlane.lean ====
section
/-! SUPPORT. What the operations of Machine/SafetyPlane.lean keep (Laws/Keeps.lean). -/

namespace Sys2Proof.Machine

theorem keeps_channelLost {s u : State} {x1} (h : Keeps s u) :
    Keeps s (State.channelLost u x1) := by
  unfold State.channelLost
  extract_lets -merge v1
  have h2 : Keeps s v1 := Keeps.ite (fun _ => keeps_setF (keeps_latchTt h)) (fun _ => keeps_setF (keeps_latchSc h))
  exact keeps_updateSS (keeps_sfEv h2)

theorem keeps_execChannelLost {s u : State} {x0} (h : Keeps s u) :
    KeepsR s (execChannelLost x0 u) := by
  unfold execChannelLost
  exact KeepsR.next (keeps_inCore h (fun y1 y2 => keeps_channelLost y2))

theorem keeps_execLockstepMismatch {s u : State} (h : Keeps s u) :
    KeepsR s (execLockstepMismatch u) := by
  unfold execLockstepMismatch
  exact (KeepsR.next (keeps_updSafe h))

theorem keeps_ackRefuse {s u : State} {x1} (h : Keeps s u) :
    Keeps s (State.ackRefuse u x1) := by
  unfold State.ackRefuse
  extract_lets -merge v5
  have h7 : Keeps s v5 := (keeps_updSafe h)
  exact (keeps_sfEv (keeps_raise h7))

theorem keeps_ackScWrite {s u : State} {x1} (h : Keeps s u) :
    Keeps s (State.ackScWrite u x1) := by
  unfold State.ackScWrite
  exact (keeps_updSafe h)

theorem keeps_execAckSc {s u : State} {x0} (h : Keeps s u) :
    KeepsR s (execAckSc x0 u) := by
  unfold execAckSc
  refine (KeepsR.next (keeps_viaReg h (fun _ _ => ?_)))
  rename_i y7 h8
  exact (keeps_ackScWrite h8)

theorem keeps_ackClear {s u : State} {x1} (h : Keeps s u) :
    Keeps s (State.ackClear u x1) := by
  unfold State.ackClear
  extract_lets -merge v7 v8 v9 v10
  have h9 : Keeps s v7 := (keeps_setRegN (keeps_setRegN h))
  have h13 : Keeps s v9 := (keeps_updSafe h9)
  have h15 : Keeps s v10 := by
    refine (Keeps.foldl h13 (fun _ _ _ => ?_))
    rename_i y14 y15 h16
    exact (Keeps.ite (fun _ => (keeps_setF (keeps_setF h16))) (fun _ => h16))
  exact (keeps_sinDecide (keeps_sfEv h15))

theorem keeps_ackTtWrite {s u : State} {x1} (h : Keeps s u) :
    Keeps s (State.ackTtWrite u x1) := by
  unfold State.ackTtWrite
  split
  · exact (keeps_ackRefuse h)
  · extract_lets -merge v26
    exact (Keeps.ite (fun _ => (keeps_ackRefuse h)) (fun _ => (Keeps.ite (fun _ => (keeps_ackRefuse h)) (fun _ => (keeps_ackClear h)))))

theorem keeps_execAckTt {s u : State} {x0} (h : Keeps s u) :
    KeepsR s (execAckTt x0 u) := by
  unfold execAckTt
  refine (KeepsR.next (keeps_viaReg h (fun _ _ => ?_)))
  rename_i y8 h9
  exact (keeps_ackTtWrite h9)

theorem keeps_execAckWindowExpiry {s u : State} (h : Keeps s u) :
    KeepsR s (execAckWindowExpiry u) := by
  unfold execAckWindowExpiry
  refine KeepsR.next ?_
  split
  · exact h
  · exact Keeps.ite (fun _ => keeps_ackRefuse h) (fun _ => h)

theorem keeps_execStatsRecord {s u : State} {x0} {x1} (h : Keeps s u) :
    KeepsR s (execStatsRecord x0 x1 u) := by
  unfold execStatsRecord
  refine KeepsR.next ?_
  refine Keeps.ite (fun _ => h) (fun _ => ?_)
  split
  · exact Keeps.ite (fun _ => keeps_updSafeT h) (fun _ => Keeps.ite (fun _ => keeps_statsCheck h) (fun _ => keeps_statsMissing h))
  · exact h

theorem keeps_execSs1HoldExpiry {s u : State} (h : Keeps s u) :
    KeepsR s (execSs1HoldExpiry u) := by
  unfold execSs1HoldExpiry
  exact (KeepsR.next (Keeps.ite (fun _ => (keeps_updateSS (keeps_updSafe h))) (fun _ => h)))

theorem keeps_actCheck {s u : State} {x1} (h : Keeps s u) :
    Keeps s (State.actCheck u x1) := by
  unfold State.actCheck
  extract_lets -merge v5
  exact (Keeps.ite (fun _ => h) (fun _ => (Keeps.ite (fun _ => (keeps_actFault h)) (fun _ => (Keeps.ite (fun _ => (keeps_actFault h)) (fun _ => h))))))

theorem keeps_execActStep {s u : State} {x0} (h : Keeps s u) :
    KeepsR s (execActStep x0 u) := by
  unfold execActStep
  extract_lets -merge v1 v2 v3 v4 v5 v6
  exact KeepsR.next (Keeps.ite (fun _ => keeps_setAct h) (fun _ => Keeps.ite (fun _ => keeps_setAct h) (fun _ => Keeps.ite (fun _ => keeps_setAct (keeps_setF h)) (fun _ => keeps_actCheck (keeps_setAct (keeps_setF h))))))

theorem keeps_encoderEdge {s u : State} {x1} {x2} {x3} {x4} (h : Keeps s u) :
    Keeps s (State.encoderEdge u x1 x2 x3 x4) := by
  unfold State.encoderEdge
  extract_lets -merge v1 v2 v3 v4 v5 v6
  have h7 : Keeps s v3 := keeps_setAct h
  have h8 : Keeps s v6 := keeps_setAct h7
  exact keeps_actCheck (keeps_actShow h8)

theorem keeps_execEncoderEdge {s u : State} {x0} {x1} {x2} {x3} (h : Keeps s u) :
    KeepsR s (execEncoderEdge x0 x1 x2 x3 u) := by
  unfold execEncoderEdge
  exact KeepsR.next (keeps_inCore h (fun y1 y2 => keeps_encoderEdge y2))

theorem keeps_execActSpeedWindow {s u : State} {x0} (h : Keeps s u) :
    KeepsR s (execActSpeedWindow x0 u) := by
  unfold execActSpeedWindow
  extract_lets -merge v11 v12 v13 v14
  have h19 : Keeps s v14 := (keeps_setAct h)
  exact (KeepsR.next (Keeps.ite (fun _ => (keeps_actFault h19)) (fun _ => h19)))

theorem keeps_execActMismatch {s u : State} {x0} (h : Keeps s u) :
    KeepsR s (execActMismatch x0 u) := by
  unfold execActMismatch
  extract_lets -merge v5
  exact (KeepsR.next (Keeps.ite (fun _ => (keeps_actFault h)) (fun _ => h)))

theorem keeps_execActHoming {s u : State} {x0} (h : Keeps s u) :
    KeepsR s (execActHoming x0 u) := by
  unfold execActHoming
  extract_lets -merge v1 v2
  have h3 : Keeps s v2 := keeps_setAct h
  refine KeepsR.next ?_
  refine Keeps.ite (fun _ => h) (fun _ => ?_)
  refine Keeps.ite (fun _ => keeps_actShow (keeps_setF h3)) (fun _ => ?_)
  refine Keeps.ite (fun _ => keeps_actFault h) (fun _ => ?_)
  refine Keeps.ite (fun _ => keeps_setAct h) (fun _ => ?_)
  split
  rename_i e7
  have h8 := Keeps.pair e7 (keeps_fresh h)
  exact keeps_setAct h8

theorem keeps_setSin {s u : State} {x1} {x2} {x3} (h : Keeps s u) :
    Keeps s (State.setSin u x1 x2 x3) := by
  unfold State.setSin
  exact (keeps_updSafe h)

theorem keeps_sinSample {s u : State} {x1} {x2} (h : Keeps s u) :
    Keeps s (State.sinSample u x1 x2) := by
  unfold State.sinSample
  extract_lets -merge v1
  have h5 : Keeps s v1 := Keeps.foldl h (fun y2 y3 h4 => keeps_setSin h4)
  exact keeps_sinDecide h5

theorem keeps_execSinSample {s u : State} {x0} {x1} (h : Keeps s u) :
    KeepsR s (execSinSample x0 x1 u) := by
  unfold execSinSample
  exact KeepsR.next (keeps_inCore h (fun y1 y2 => keeps_sinSample (keeps_hidWrite y2)))

theorem keeps_sinFault {s u : State} {x1} {x2} (h : Keeps s u) :
    Keeps s (State.sinFault u x1 x2) := by
  unfold State.sinFault
  extract_lets -merge v7 v8 v9 v10
  have h15 : Keeps s v8 := (keeps_setSin h)
  have h20 : Keeps s v9 := (Keeps.ite (fun _ => (keeps_latchTt h15)) (fun _ => (keeps_latchSc h15)))
  have h12 : Keeps s v10 := (keeps_raise h20)
  exact (keeps_sinDecide (keeps_sfEv h12))

theorem keeps_execContactAccepted {s u : State} {x0} {x1} {x2} (h : Keeps s u) :
    KeepsR s (execContactAccepted x0 x1 x2 u) := by
  unfold execContactAccepted
  extract_lets -merge v7 v8 v9 v10 v11 v12 v13
  have h14 : Keeps s v9 := (Keeps.ite (fun _ => (keeps_sinFault h)) (fun _ => h))
  exact (KeepsR.next (Keeps.ite (fun _ => h) (fun _ => (keeps_sinDecide (keeps_setSin h14)))))

theorem keeps_execSinDiscrepancy {s u : State} {x0} {x1} (h : Keeps s u) :
    KeepsR s (execSinDiscrepancy x0 x1 u) := by
  unfold execSinDiscrepancy
  exact (KeepsR.next (Keeps.ite (fun _ => (keeps_sinFault h)) (fun _ => h)))

theorem keeps_execSwitchReadbackTimeout {s u : State} {x0} {x1} {x2} (h : Keeps s u) :
    KeepsR s (execSwitchReadbackTimeout x0 x1 x2 u) := by
  unfold execSwitchReadbackTimeout
  extract_lets -merge v8 v9 v10 v11
  have h16 : Keeps s v9 := (keeps_updSafeT h)
  have h18 : Keeps s v10 := (Keeps.ite (fun _ => (keeps_updateSS (keeps_latchBoth h16))) (fun _ => h16))
  have h13 : Keeps s v11 := (Keeps.ite (fun _ => (keeps_switchFail h18)) (fun _ => h18))
  exact (KeepsR.next (Keeps.ite (fun _ => h) (fun _ => (Keeps.ite (fun _ => (keeps_switchFail h13)) (fun _ => h13)))))

theorem keeps_pulseMark {s u : State} {x1} (h : Keeps s u) :
    Keeps s (State.pulseMark u x1) := by
  unfold State.pulseMark
  extract_lets -merge v1
  exact Keeps.ite (fun _ => keeps_pulseFall h) (fun _ => Keeps.ite (fun _ => keeps_updTg h) (fun _ => keeps_updTg h))

theorem keeps_execTestPulse {s u : State} {x0} {x1} (h : Keeps s u) :
    KeepsR s (execTestPulse x0 x1 u) := by
  unfold execTestPulse
  extract_lets -merge v1 v2
  have h3 : Keeps s v2 := keeps_updSafeT h
  exact KeepsR.next (Keeps.ite (fun _ => h) (fun _ => Keeps.ite (fun _ => keeps_pulseFall h3) (fun _ => keeps_pulseMark h3)))

theorem keeps_execTestPulseEnd {s u : State} {x0} {x1} {x2} (h : Keeps s u) :
    KeepsR s (execTestPulseEnd x0 x1 x2 u) := by
  unfold execTestPulseEnd
  extract_lets -merge v1 v2
  have h3 : Keeps s v1 := keeps_pulseFall h
  have h4 : Keeps s v2 := keeps_updSafeT h3
  refine KeepsR.next ?_
  split
  · exact h3
  · refine Keeps.ite (fun _ => h4) (fun _ => ?_)
    extract_lets -merge v10
    have h11 : Keeps s v10 := keeps_updSafeT h4
    exact Keeps.ite (fun _ => keeps_switchFail h11) (fun _ => Keeps.ite (fun _ => keeps_switchFail h11) (fun _ => h11))

theorem keeps_execFallbackAckTimeout {s u : State} {x0} (h : Keeps s u) :
    KeepsR s (execFallbackAckTimeout x0 u) := by
  unfold execFallbackAckTimeout
  exact (KeepsR.next (Keeps.ite (fun _ => (keeps_updateSS (keeps_latchBoth (keeps_updSafeT h)))) (fun _ => h)))

end Sys2Proof.Machine
end

