-- ==== Sys2Proof/Laws/KeepsHealthOps.lean ====
section
/-! SUPPORT. What the operations of Machine/HealthOps.lean keep (Laws/Keeps.lean). -/

namespace Sys2Proof.Machine


theorem keeps_count1 {s u : State} {x1} {x2} (h : Keeps s u) :
    Keeps s (State.count1 u x1 x2) := by
  unfold State.count1
  split
  · exact h
  · exact (keeps_setRegN h)

theorem keeps_setEm {s u : State} {x1} {x2} {x3} {x4} (h : Keeps s u) :
    Keeps s (State.setEm u x1 x2 x3 x4) := by
  unfold State.setEm
  extract_lets -merge v8 v9 v10
  have h11 : Keeps s v10 := (keeps_putDram h)
  exact (Keeps.ite (fun _ => h11) (fun _ => (keeps_count1 (keeps_count1 h11))))

theorem keeps_hlRejected {s u : State} (h : Keeps s u) :
    Keeps s (State.hlRejected u) := by
  unfold State.hlRejected
  exact keeps_raise h

theorem keeps_offPair {s u : State} {x1} {x2} {x3} {x4} {x5} (h : Keeps s u) :
    Keeps s (State.offPair u x1 x2 x3 x4 x5) := by
  cases x5 with
  | none => exact h
  | some l => exact Keeps.ite (fun _ => keeps_updHl h) (fun _ => keeps_updHl (keeps_hlRejected h))

theorem keeps_offBlock {s u : State} {x1} {x2} {x3} (h : Keeps s u) :
    Keeps s (State.offBlock u x1 x2 x3) := by
  unfold State.offBlock
  extract_lets -merge v1 v2
  have h3 : Keeps s v2 := keeps_updHl h
  generalize State.blockMedian v2 x1 x2 x3 = o
  cases o with
  | none => exact keeps_updHl h3
  | some m => exact keeps_offPair (keeps_updHl h3)

theorem keeps_offApply {s u : State} {x1} {x2} (h : Keeps s u) :
    Keeps s (State.offApply u x1 x2) := by
  unfold State.offApply
  extract_lets -merge v9 v10
  have h13 : Keeps s v10 := (keeps_updHl h)
  refine (Keeps.foldl h13 (fun _ _ _ => ?_))
  rename_i y12 y13 h14
  exact (keeps_putDram h14)

theorem keeps_baseActive {s u : State} (h : Keeps s u) :
    Keeps s (State.baseActive u) := by
  unfold State.baseActive
  exact (keeps_setB h)

theorem keeps_hlReject {s u : State} {x1} (h : Keeps s u) :
    Keeps s (State.hlReject u x1) := by
  unfold State.hlReject
  exact (keeps_post (keeps_raise h))

theorem keeps_freshDone {s u : State} {x1} (h : Keeps s u) :
    Keeps s (State.freshDone u x1) := by
  unfold State.freshDone
  exact keeps_updHl h

theorem keeps_baseEnd {s u : State} {x1} {x2} (h : Keeps s u) :
    Keeps s (State.baseEnd u x1 x2) := by
  unfold State.baseEnd
  extract_lets -merge v1 v2 v3 v4 v5
  have h6 : Keeps s v2 := keeps_baseActive (keeps_freshDone (keeps_updHl h))
  have h10 : Keeps s v3 := Keeps.foldl h6 (fun y7 y8 h9 => keeps_putDram h9)
  have h11 : Keeps s v4 := keeps_putDram h10
  have h12 : Keeps s v5 := keeps_updHl h11
  split
  · exact keeps_hlReject h6
  · exact keeps_hlEv h12

theorem keeps_baseChunk {s u : State} {x1} {x2} (h : Keeps s u) :
    Keeps s (State.baseChunk u x1 x2) := by
  unfold State.baseChunk
  extract_lets -merge v6 v7
  split
  · extract_lets -merge v27 v28
    have h31 : Keeps s v28 := (keeps_updHl h)
    exact (Keeps.ite (fun _ => (keeps_baseEnd h31)) (fun _ => h31))
  · exact h

theorem keeps_sweepEnd {s u : State} {x1} {x2} (h : Keeps s u) :
    Keeps s (State.sweepEnd u x1 x2) := by
  unfold State.sweepEnd
  extract_lets -merge v1 v2
  have h3 : Keeps s v2 := Keeps.ite (fun _ => keeps_post h) (fun _ => h)
  exact keeps_updHl h3

theorem keeps_tabsLost {s u : State} {x1} (h : Keeps s u) :
    Keeps s (State.tabsLost u x1).2 := by
  unfold State.tabsLost
  refine Keeps.foldl2 h (fun y1 y2 h3 => ?_)
  split
  split
  rename_i e10
  have h11 := Keeps.pair e10 (keeps_checkRange h3)
  exact h11

theorem keeps_classChunk {s u : State} {x1} {x2} (h : Keeps s u) :
    Keeps s (State.classChunk u x1 x2) := by
  unfold State.classChunk
  split
  rename_i y1 _ _ e4
  have h5 := Keeps.pair e4 (keeps_tabsLost (keeps_offApply h))
  extract_lets -merge v6 v7 v8 v9 v10 v11 v12 v13 v14
  have h15 : Keeps s v9 := keeps_putDram h5
  have h19 : Keeps s v10 := Keeps.ite (fun _ => Keeps.foldl h15 (fun y16 y17 h18 => keeps_offBlock h18)) (fun _ => h15)
  have h20 : Keeps s v11 := keeps_baseChunk h19
  have h21 : Keeps s v14 := keeps_updHl h20
  exact Keeps.ite (fun _ => keeps_sweepEnd h21) (fun _ => h21)

theorem keeps_putRec {s u : State} {x1} {x2} {x3} {x4} (h : Keeps s u) :
    Keeps s (State.putRec u x1 x2 x3 x4) := by
  unfold State.putRec
  exact (keeps_putDram h)

theorem keeps_markDead {s u : State} {x1} {x2} {x3} {x4} (h : Keeps s u) :
    Keeps s (State.markDead u x1 x2 x3 x4) := by
  unfold State.markDead
  exact (keeps_putRec h)

theorem keeps_darnBusy {s u : State} (h : Keeps s u) :
    Keeps s (State.darnBusy u) := by
  unfold State.darnBusy
  exact (keeps_setB h)

theorem keeps_updCommitOp {s u : State} {x1} (h : Keeps s u) :
    Keeps s (State.updCommitOp u x1) := by
  unfold State.updCommitOp
  extract_lets -merge v5 v6 v7
  have h15 : Keeps s v7 := (keeps_updPr h)
  exact (Keeps.ite (fun _ => (keeps_updError h)) (fun _ => (keeps_setF (keeps_setRegN h15))))

theorem keeps_darnCommit {s u : State} {x1} {x2} (h : Keeps s u) :
    Keeps s (State.darnCommit u x1 x2) := by
  unfold State.darnCommit
  extract_lets -merge v9 v10 v11 v12
  have h18 : Keeps s v9 := (keeps_putDram h)
  have h11 : Keeps s v10 := (keeps_setRegN h18)
  have h14 : Keeps s v11 := (keeps_setRegN h11)
  have h17 : Keeps s v12 := (keeps_updCommitOp (keeps_setRegN h14))
  exact (Keeps.ite (fun _ => h) (fun _ => (keeps_darnBusy (keeps_updHl h17))))

theorem keeps_darnLost {s u : State} {x1} {x2} {x3} (h : Keeps s u) :
    Keeps s (State.darnLost u x1 x2 x3) := by
  unfold State.darnLost
  extract_lets -merge v8
  have h11 : Keeps s v8 := (keeps_markDead h)
  exact (Keeps.ite (fun _ => (keeps_hlEv h11)) (fun _ => h11))

theorem keeps_darnDead {s u : State} {x1} {x2} {x3} (h : Keeps s u) :
    Keeps s (State.darnDead u x1 x2 x3) := by
  unfold State.darnDead
  extract_lets -merge v1
  have h1 : Keeps s v1 := keeps_hlEv (keeps_markDead h)
  exact keeps_count1 (Keeps.ite (fun _ => keeps_count1 h1) (fun _ => h1))

theorem keeps_darnGroup {s u : State} {x1} {x2} {x3} (h : Keeps s u) :
    Keeps s (State.darnGroup u x1 x2 x3).2 := by
  unfold State.darnGroup
  split
  · exact keeps_darnDead h
  · exact keeps_markDead h

theorem keeps_darnRun {s u : State} {x1} (h : Keeps s u) :
    Keeps s (State.darnRun u x1) := by
  unfold State.darnRun
  extract_lets -merge v1 v2 v3 v4 v5 v6 v7 v8 v9 v10
  have h14 : Keeps s v6 := Keeps.foldl h (fun y11 y12 h13 => keeps_darnLost h13)
  have h15 : Keeps s v9 := keeps_updHl h14
  have h21 : Keeps s v10.2 := by
    unfold v10
    refine Keeps.foldl2 h15 (fun y16 y17 h18 => ?_)
    extract_lets -merge v19
    have h20 : Keeps s v19.2 := keeps_darnGroup h18
    exact h20
  exact Keeps.ite (fun _ => h) (fun _ => Keeps.ite (fun _ => keeps_updHl h14) (fun _ => Keeps.ite (fun _ => keeps_updError (keeps_updHl h14)) (fun _ => keeps_darnCommit h21)))

theorem keeps_lrTake {s u : State} {x1} {x2} (h : Keeps s u) :
    Keeps s (State.lrTake u x1 x2) := by
  unfold State.lrTake
  extract_lets -merge v1
  exact Keeps.ite (fun _ => h) (fun _ => Keeps.ite (fun _ => keeps_updHl h) (fun _ => keeps_setF h))

theorem keeps_darnConfirm {s u : State} {x1} {x2} {x3} (h : Keeps s u) :
    Keeps s (State.darnConfirm u x1 x2 x3) := by
  unfold State.darnConfirm
  extract_lets -merge v1
  have h2 : Keeps s v1 := keeps_lrTake (keeps_hlEvOnce (keeps_setEm h))
  exact keeps_updHl h2

theorem keeps_darnEmitter {s u : State} {x1} {x2} {x3} {x4} (h : Keeps s u) :
    Keeps s (State.darnEmitter u x1 x2 x3 x4) := by
  unfold State.darnEmitter
  extract_lets -merge v12 v13 v14 v15 v16
  exact (Keeps.ite (fun _ => h) (fun _ => (Keeps.ite (fun _ => (keeps_updHl (keeps_setEm h))) (fun _ => (Keeps.ite (fun _ => (keeps_updHl (keeps_setEm h))) (fun _ => (Keeps.ite (fun _ => (keeps_darnConfirm h)) (fun _ => (keeps_updHl (keeps_setEm h))))))))))

theorem keeps_darnMass {s u : State} {x1} (h : Keeps s u) :
    Keeps s (State.darnMass u x1) := by
  unfold State.darnMass
  extract_lets -merge v1 v2 v3 v4
  have h5 : Keeps s v4 := keeps_updHl h
  exact Keeps.ite (fun _ => h) (fun _ => Keeps.ite (fun _ => h5) (fun _ => keeps_hlEv (keeps_raise h5)))

theorem keeps_darnChunk {s u : State} {x1} (h : Keeps s u) :
    Keeps s (State.darnChunk u x1) := by
  unfold State.darnChunk
  split
  · exact h
  · extract_lets -merge v8
    have h9 : Keeps s v8 := keeps_updHl h
    refine Keeps.ite (fun _ => h9) (fun _ => ?_)
    split
    rename_i e13
    have h14 := Keeps.pair e13 (keeps_tabsLost h9)
    refine Keeps.ite (fun _ => h14) (fun _ => ?_)
    extract_lets -merge v15
    have h19 : Keeps s v15 := Keeps.foldl h14 (fun y16 y17 h18 => keeps_darnEmitter h18)
    exact keeps_darnRun (keeps_darnMass h19)

theorem keeps_healthChunk {s u : State} {x1} {x2} (h : Keeps s u) :
    Keeps s (State.healthChunk u x1 x2) := by
  unfold State.healthChunk
  exact keeps_darnChunk (keeps_signal (keeps_classChunk h))

theorem keeps_sweepCands {s u : State} {x1} {x2} (h : Keeps s u) :
    Keeps s (State.sweepCands u x1 x2) := by
  unfold State.sweepCands
  exact keeps_post (keeps_updHl h)

theorem keeps_healthJob {s u : State} {x1} {x2} (h : Keeps s u) :
    Keeps s (State.healthJob u x1 x2) := by
  unfold State.healthJob
  refine (Keeps.foldl h (fun _ _ _ => ?_))
  rename_i y9 y10 h11
  split
  · exact h11
  · extract_lets -merge v15 v16
    have h22 : Keeps s v15 := (keeps_healthChunk (keeps_updHl h11))
    exact (Keeps.ite (fun _ => h11) (fun _ => (Keeps.ite (fun _ => (keeps_post (keeps_updHl h22))) (fun _ => h22))))

theorem keeps_darnWindow {s u : State} {x1} (h : Keeps s u) :
    Keeps s (State.darnWindow u x1) := by
  unfold State.darnWindow
  extract_lets -merge v13 v14 v15 v16 v17
  have h31 : Keeps s v17 := (Keeps.ite (fun _ => h) (fun _ => (keeps_darnBusy (keeps_updHl h))))
  exact (Keeps.ite (fun _ => (keeps_darnRun h31)) (fun _ => h31))

theorem keeps_darnShown {s u : State} {x1} {x2} (h : Keeps s u) :
    Keeps s (State.darnShown u x1 x2) := by
  unfold State.darnShown
  extract_lets -merge v6 v7 v8
  have h12 : Keeps s v8 := by
    refine (Keeps.foldl h (fun _ _ _ => ?_))
    rename_i y22 y23 h24
    exact (keeps_count1 (keeps_hlEv h24))
  exact (Keeps.ite (fun _ => h) (fun _ => (keeps_updHl h12)))

theorem keeps_darnPortDown {s u : State} {x1} (h : Keeps s u) :
    Keeps s (State.darnPortDown u x1) := by
  unfold State.darnPortDown
  extract_lets -merge v1 v2 v3 v4 v5 v6
  have h7 : Keeps s v1 := keeps_hlClose h
  have h11 : Keeps s v6 := Keeps.ite (fun _ => h7) (fun _ => keeps_setF (Keeps.foldl h7 (fun y8 y9 h10 => keeps_setSel h10)))
  exact keeps_darnBusy (keeps_updHl h11)

theorem keeps_darnRelease {s u : State} (h : Keeps s u) :
    Keeps s (State.darnRelease u) := by
  unfold State.darnRelease
  refine (Keeps.foldl h (fun _ _ _ => ?_))
  rename_i y18 y19 h20
  extract_lets -merge v25
  have h27 : Keeps s v25 := (keeps_updHl h20)
  exact (keeps_darnRun h27)

theorem keeps_convertOne {s u : State} {x1} {x2} {x3} {x4} {x5} {x6} (h : Keeps s u) :
    Keeps s (State.convertOne u x1 x2 x3 x4 x5 x6).2 := by
  unfold State.convertOne
  extract_lets -merge v10 v11
  exact (Keeps.mk2 (keeps_putRec h))

theorem keeps_eolOne {s u : State} {x1} {x2} {x3} {x4} (h : Keeps s u) :
    Keeps s (State.eolOne u x1 x2 x3 x4) := by
  unfold State.eolOne
  extract_lets -merge v19 v20 v21 v22 v23 v24
  have h32 : Keeps s v20 := (keeps_setF h)
  have h52 : Keeps s v21 := (Keeps.ite (fun _ => (keeps_setF h32)) (fun _ => h32))
  have h19 : Keeps s v22 := (Keeps.ite (fun _ => (keeps_hlEv (keeps_setF h52))) (fun _ => h))
  have h20 : Keeps s v23 := (keeps_setF (keeps_setF h19))
  have h31 : Keeps s v24 := (keeps_updHl h20)
  exact (Keeps.ite (fun _ => (keeps_hlEv (keeps_setF h31))) (fun _ => h19))

theorem keeps_eolTile {s u : State} {x1} (h : Keeps s u) :
    Keeps s (State.eolTile u x1) := by
  unfold State.eolTile
  extract_lets -merge v7 v8 v9 v10 v11 v12 v13 v14 v15
  have h31 : Keeps s v9 := (keeps_setRegN h)
  have h34 : Keeps s v13 := (keeps_eolOne h31)
  have h52 : Keeps s v14 := (keeps_eolOne h34)
  have h55 : Keeps s v15 := (keeps_eolOne h52)
  exact (keeps_eolOne h55)

theorem keeps_convertAll {s u : State} (h : Keeps s u) : Keeps s (State.convertAll u) := by
  unfold State.convertAll
  refine Keeps.foldl h (fun v n hv => ?_)
  split
  rename_i e
  refine keeps_eolTile (keeps_setRegN (Keeps.pair e (Keeps.foldl2 (Keeps.mk2 hv) (fun p q hp => ?_))))
  split
  rename_i e
  exact Keeps.mk2 (Keeps.pair e (keeps_convertOne hp))

theorem keeps_agingConvert {s u : State} (h : Keeps s u) : Keeps s (State.agingConvert u) := by
  unfold State.agingConvert
  split
  rename_i e
  have h1 := Keeps.pair e (keeps_tabsLost h)
  exact Keeps.ite (fun _ => h1) (fun _ => keeps_convertAll h1)

theorem keeps_litFrame {s u : State} {x1} {x2} (h : Keeps s u) :
    Keeps s (State.litFrame u x1 x2) := by
  unfold State.litFrame
  extract_lets -merge v10
  have h19 : Keeps s v10 := (keeps_updHl h)
  exact (keeps_setRegN h19)

theorem keeps_ckptPut {s u : State} {x1} (h : Keeps s u) :
    Keeps s (State.ckptPut u x1) := by
  unfold State.ckptPut
  split
  extract_lets -merge v5 v6 v7
  have h8 : Keeps s v5 := keeps_putStore h
  have h9 : Keeps s v7 := keeps_updHl h8
  exact keeps_hlEv h9

theorem keeps_ckptWrite {s u : State} {x1} (h : Keeps s u) :
    Keeps s (State.ckptWrite u x1) := by
  unfold State.ckptWrite
  split
  rename_i e4
  have h5 := Keeps.pair e4 (keeps_tabsLost h)
  exact Keeps.ite (fun _ => h5) (fun _ => keeps_ckptPut h5)

theorem keeps_deltaPut {s u : State} (h : Keeps s u) :
    Keeps s (State.deltaPut u) := by
  unfold State.deltaPut
  extract_lets -merge v1 v2 v3 v4
  have h5 : Keeps s v4 := keeps_putStore h
  exact keeps_updHk (Keeps.foldl h5 (fun y6 y7 h8 => keeps_updHl h8))

theorem keeps_deltaWrite {s u : State} (h : Keeps s u) :
    Keeps s (State.deltaWrite u) := by
  unfold State.deltaWrite
  split
  rename_i e4
  have h5 := Keeps.pair e4 (keeps_tabsLost h)
  exact Keeps.ite (fun _ => h5) (fun _ => keeps_deltaPut h5)

theorem keeps_ckptTake {s u : State} {x1} (h : Keeps s u) :
    Keeps s (State.ckptTake u x1) := by
  unfold State.ckptTake
  split
  · exact h
  · extract_lets -merge v8 v9 v10 v11
    have h12 : Keeps s v11 := keeps_updHl h
    exact keeps_setRegN h12

theorem keeps_acctRestore {s u : State} {x1} (h : Keeps s u) :
    Keeps s (State.acctRestore u x1) := by
  unfold State.acctRestore
  split
  · exact h
  · extract_lets -merge v114 v115 v116 v117 v118 v119
    have h131 : Keeps s v115 := by
      refine (Keeps.foldl h (fun _ _ _ => ?_))
      rename_i y71 y72 h73
      extract_lets -merge v77
      refine (Keeps.foldl h73 (fun _ _ _ => ?_))
      rename_i y137 y138 h139
      extract_lets -merge v26 v27
      exact (keeps_putDram h139)
    have h25 : Keeps s v116 := by
      refine (Keeps.foldl h131 (fun _ _ _ => ?_))
      rename_i y85 y86 h87
      exact (keeps_putDram h87)
    exact (keeps_updHl h25)

theorem keeps_lifeApply {s u : State} {x1} {x2} (h : Keeps s u) :
    Keeps s (State.lifeApply u x1 x2) := by
  unfold State.lifeApply
  extract_lets -merge v47 v48 v49 v49a v50 v51 v52 v53 v54 v55
  have h105 : Keeps s v47 := by
    refine (Keeps.foldl h (fun _ _ _ => ?_))
    rename_i y112 y113 h114
    exact (keeps_putDram h114)
  have h16 : Keeps s v48 := (keeps_setRegN (keeps_setRegN (keeps_setRegN h105)))
  have h41 : Keeps s v49 := (keeps_setRegN (keeps_setRegN h16))
  have h61 : Keeps s v49a := (keeps_selFilter h41)
  have h62 : Keeps s v50 := (keeps_updHl h61)
  have h106 : Keeps s v53 := by
    refine (Keeps.foldl h62 (fun _ _ _ => ?_))
    rename_i y121 y122 h123
    extract_lets -merge v130 v131 v132 v132a v133 v134
    have h140 : Keeps s v132a := keeps_lrTake h123
    have h141 : Keeps s v133 := (Keeps.ite (fun _ => (keeps_markDead (keeps_setEm h140))) (fun _ => h140))
    have h28 : Keeps s v134 := (Keeps.ite (fun _ => (keeps_markDead (keeps_setEm h141))) (fun _ => h141))
    exact (Keeps.ite (fun _ => (keeps_count1 (keeps_setSel h28))) (fun _ => (Keeps.ite (fun _ => (keeps_count1 h28)) (fun _ => h28))))
  have h20 : Keeps s v55 := (keeps_updHl h106)
  exact (Keeps.ite (fun _ => h62) (fun _ => (keeps_setRegN h20)))

theorem keeps_ageKind {s u : State} {x1} {x2} {x3} (h : Keeps s u) :
    Keeps s (State.ageKind u x1 x2 x3) := by
  unfold State.ageKind
  extract_lets -merge v48 v49 v50
  have h103 : Keeps s v49 := (keeps_putDram h)
  exact (keeps_putDram h103)

theorem keeps_ageSet {s u : State} {x1} {x2} (h : Keeps s u) :
    Keeps s (State.ageSet u x1 x2) := by
  unfold State.ageSet
  refine (Keeps.foldl h (fun _ _ _ => ?_))
  rename_i y62 y63 h64
  exact (keeps_ageKind h64)

theorem keeps_clearStateOp {s u : State} {x1} {x2} {x3} (h : Keeps s u) :
    Keeps s (State.clearStateOp u x1 x2 x3) := by
  unfold State.clearStateOp
  extract_lets -merge v1 v2 v3 v4 v5
  have h6 : Keeps s v2 := keeps_setEm h
  have h7 : Keeps s v4 := Keeps.ite (fun _ => keeps_updHl h6) (fun _ => h6)
  have h8 : Keeps s v5 := keeps_updHl h7
  exact keeps_darnRelease h8

theorem keeps_baselineOp {s u : State} {x1} (h : Keeps s u) :
    Keeps s (State.baselineOp u x1) := by
  unfold State.baselineOp
  exact (Keeps.ite (fun _ => h) (fun _ => (keeps_hlShow (keeps_baseActive (keeps_updHl h)))))

theorem keeps_checkpointOp {s u : State} (h : Keeps s u) :
    Keeps s (State.checkpointOp u) := by
  unfold State.checkpointOp
  exact Keeps.foldl h (fun y1 y2 h3 => Keeps.ite (fun _ => keeps_updHl h3) (fun _ => h3))

theorem keeps_darnCfg {s u : State} {x1} (h : Keeps s u) :
    Keeps s (State.darnCfg u x1) := by
  unfold State.darnCfg
  extract_lets -merge v1 v2
  have h3 : Keeps s v2 := keeps_setReg h
  exact Keeps.ite (fun _ => keeps_darnRelease h3) (fun _ => h3)

theorem keeps_execBaseline {s u : State} {x0} (h : Keeps s u) :
    KeepsR s (execBaseline x0 u) := by
  unfold execBaseline
  refine (KeepsR.next (keeps_viaReg h (fun _ _ => ?_)))
  rename_i y10 h11
  exact (keeps_baselineOp h11)

theorem keeps_execCheckpoint {s u : State} (h : Keeps s u) :
    KeepsR s (execCheckpoint u) := by
  unfold execCheckpoint
  refine (KeepsR.next (keeps_viaReg h (fun _ _ => ?_)))
  rename_i y73 h74
  exact (keeps_checkpointOp h74)

theorem keeps_execClearState {s u : State} {x0} {x1} {x2} (h : Keeps s u) :
    KeepsR s (execClearState x0 x1 x2 u) := by
  unfold execClearState
  refine (KeepsR.next (keeps_viaReg h (fun _ _ => ?_)))
  rename_i y78 h79
  exact (keeps_clearStateOp h79)

theorem keeps_execBaselineAutoStart {s u : State} {x0} (h : Keeps s u) :
    KeepsR s (execBaselineAutoStart x0 u) := by
  unfold execBaselineAutoStart
  exact (KeepsR.next (Keeps.ite (fun _ => (keeps_baselineOp h)) (fun _ => h)))

theorem keeps_execFullCheckpointDue {s u : State} {x0} (h : Keeps s u) :
    KeepsR s (execFullCheckpointDue x0 u) := by
  unfold execFullCheckpointDue
  exact (KeepsR.next (Keeps.ite (fun _ => (keeps_updHl h)) (fun _ => h)))

theorem keeps_execDeltaCheckpointDue {s u : State} (h : Keeps s u) :
    KeepsR s (execDeltaCheckpointDue u) := by
  unfold execDeltaCheckpointDue
  exact KeepsR.next (keeps_inCore h (fun y1 y2 => keeps_updHk y2))

theorem keeps_deltaStep {s u : State} (h : Keeps s u) :
    Keeps s (State.deltaStep u) := by
  unfold State.deltaStep
  exact Keeps.ite (fun _ => keeps_deltaWrite h) (fun _ => h)

theorem keeps_ckptFail {s u : State} {x1} (h : Keeps s u) :
    Keeps s (State.ckptFail u x1) := by
  unfold State.ckptFail
  exact keeps_hlEv (keeps_raise h)

theorem keeps_execCkptDone {s u : State} {x0} {x1} (h : Keeps s u) :
    KeepsR s (execCkptDone x0 x1 u) := by
  unfold execCkptDone
  exact KeepsR.next (Keeps.ite (fun _ => h) (fun _ => Keeps.ite (fun _ => Keeps.ite (fun _ => keeps_ckptWrite h) (fun _ => keeps_ckptFail (keeps_updHl h))) (fun _ => Keeps.ite (fun _ => keeps_ckptFail (keeps_updHk h)) (fun _ => h))))

theorem keeps_execAccRestored {s u : State} (h : Keeps s u) :
    KeepsR s (execAccRestored u) := by
  unfold execAccRestored
  extract_lets -merge v5 v6
  have h9 : Keeps s v6 := by
    refine (Keeps.foldl h (fun _ _ _ => ?_))
    rename_i y88 y89 h90
    exact (keeps_acctRestore h90)
  exact (KeepsR.next (Keeps.ite (fun _ => h) (fun _ => (keeps_post (keeps_setF h9)))))

theorem keeps_execAgingConversion {s u : State} (h : Keeps s u) :
    KeepsR s (execAgingConversion u) := by
  unfold execAgingConversion
  exact (KeepsR.next (Keeps.ite (fun _ => h) (fun _ => (keeps_agingConvert h))))

end Sys2Proof.Machine
end

