-- ==== Sys2Proof/Laws/KeepsPressCmd.lean ====
section
/-! SUPPORT. What the operations of Machine/PressCmd.lean keep (Laws/Keeps.lean). -/

namespace Sys2Proof.Machine

theorem keeps_execUpdateWindow {s u : State} {x0} {x1} (h : Keeps s u) :
    KeepsR s (execUpdateWindow x0 x1 u) := by
  unfold execUpdateWindow
  exact (KeepsR.next (keeps_darnWindow (keeps_updateWindow h)))

theorem keeps_execUpdCommit {s u : State} {x0} (h : Keeps s u) :
    KeepsR s (execUpdCommit x0 u) := by
  unfold execUpdCommit
  refine (KeepsR.next (keeps_viaReg h (fun _ _ => ?_)))
  rename_i y7 h8
  exact (keeps_updCommitOp h8)

theorem keeps_updFillOp {s u : State} {x1} (h : Keeps s u) :
    Keeps s (State.updFillOp u x1) := by
  unfold State.updFillOp
  exact (Keeps.ite (fun _ => (keeps_updError h)) (fun _ => (Keeps.ite (fun _ => (keeps_updError h)) (fun _ => (keeps_setF (keeps_setF h))))))

theorem keeps_execUpdFill {s u : State} {x0} (h : Keeps s u) :
    KeepsR s (execUpdFill x0 u) := by
  unfold execUpdFill
  refine (KeepsR.next (keeps_viaReg h (fun _ _ => ?_)))
  rename_i y10 h11
  exact (keeps_updFillOp h11)

theorem keeps_updCancelOp {s u : State} {x1} (h : Keeps s u) :
    Keeps s (State.updCancelOp u x1) := by
  unfold State.updCancelOp
  extract_lets -merge v7
  exact (Keeps.ite (fun _ => (keeps_darnWindow (keeps_setF h))) (fun _ => h))

theorem keeps_execUpdCancel {s u : State} {x0} (h : Keeps s u) :
    KeepsR s (execUpdCancel x0 u) := by
  unfold execUpdCancel
  refine (KeepsR.next (keeps_viaReg h (fun _ _ => ?_)))
  rename_i y7 h8
  exact (keeps_updCancelOp h8)

theorem keeps_fillTile {s u : State} {x1} (h : Keeps s u) :
    Keeps s (State.fillTile u x1) := by
  have hr := keeps_fillAll (x1 := x1) h
  unfold State.fillTile
  generalize State.fillAll u x1 = r at hr ⊢
  exact Keeps.ite (fun _ => keeps_updPort (keeps_dropRanges (keeps_setF (keeps_setF hr)))) (fun _ => keeps_updError hr)

theorem keeps_execFillDone {s u : State} {x0} (h : Keeps s u) :
    KeepsR s (execFillDone x0 u) := by
  unfold execFillDone
  exact (KeepsR.next (Keeps.ite (fun _ => (keeps_fillTile h)) (fun _ => h)))

theorem keeps_slotSkip {s u : State} {x1} {x2} {x3} (h : Keeps s u) :
    Keeps s (State.slotSkip u x1 x2 x3) := by
  unfold State.slotSkip
  extract_lets -merge v7
  have h9 : Keeps s v7 := by
    refine (Keeps.foldl h (fun _ _ _ => ?_))
    rename_i y13 y14 h15
    exact (keeps_raise h15)
  exact (Keeps.ite (fun _ => h) (fun _ => (keeps_tgEv h9)))

theorem keeps_slotFetch {s u : State} {x1} {x2} {x3} (h : Keeps s u) :
    Keeps s (State.slotFetch u x1 x2 x3) := by
  unfold State.slotFetch
  extract_lets -merge v7 v8 v9
  refine (Keeps.foldl h (fun _ _ _ => ?_))
  rename_i y15 y16 h17
  exact (keeps_checkRange h17)

theorem keeps_slotSend {s u : State} {x1} {x2} {x3} (h : Keeps s u) :
    Keeps s (State.slotSend u x1 x2 x3) := by
  unfold State.slotSend
  extract_lets -merge v10 v11 v12 v13 v14 v15
  have h13 : Keeps s v10 := (keeps_slotFetch h)
  have h15 : Keeps s v15 := by
    refine (Keeps.foldl h13 (fun _ _ _ => ?_))
    rename_i y22 y23 h24
    extract_lets -merge v25
    exact (keeps_ttSlotRow (keeps_sendMapRow h24))
  exact (keeps_updTg h15)

theorem keeps_statFrame {s u : State} {x1} {x2} {x3} (h : Keeps s u) :
    Keeps s (State.statFrame u x1 x2 x3) := by
  unfold State.statFrame
  extract_lets -merge v16 v17
  exact (keeps_updSafeT h)

theorem keeps_spanTaken {s u : State} {x1} {x2} (h : Keeps s u) :
    Keeps s (State.spanTaken u x1 x2) := by
  unfold State.spanTaken
  extract_lets -merge v1 v2
  exact keeps_updPr h

theorem keeps_bkWindow {s u : State} {x1} {x2} (h : Keeps s u) :
    Keeps s (State.bkWindow u x1 x2) := by
  unfold State.bkWindow
  exact Keeps.ite (fun _ => keeps_bkAsk h) (fun _ => h)

theorem keeps_endTransfer {s u : State} {x1} {x2} {x3} {x4} (h : Keeps s u) :
    Keeps s (State.endTransfer u x1 x2 x3 x4) := by
  unfold State.endTransfer
  split
  · exact h
  · refine Keeps.ite (fun _ => h) (fun _ => ?_)
    split
    extract_lets -merge v10 v11 v12 v13 v14 v15 v16 v17 v18 v19 v20 v21
    have h22 : Keeps s v10 := keeps_slotSkip h
    have h26 : Keeps s v11 := Keeps.foldl h22 (fun y23 y24 h25 => keeps_slotSend h25)
    have h27 : Keeps s v15 := keeps_bkWindow (keeps_updTg h26)
    have h28 : Keeps s v16 := keeps_satFrame (keeps_capFrame h27)
    have h29 : Keeps s v17 := keeps_roiFrame h28
    have h30 : Keeps s v18 := keeps_statFrame h29
    have h31 : Keeps s v20 := Keeps.ite (fun _ => keeps_spanTaken (keeps_snapEnd h30)) (fun _ => h30)
    have h32 : Keeps s v21 := keeps_recFrame h31
    exact Keeps.ite (fun _ => keeps_dropRanges h32) (fun _ => h32)

theorem keeps_execTransferEnd {s u : State} {x0} {x1} {x2} {x3} (h : Keeps s u) :
    KeepsR s (execTransferEnd x0 x1 x2 x3 u) := by
  unfold execTransferEnd
  exact (KeepsR.next (keeps_endTransfer h))

theorem keeps_execRecFreeze {s u : State} (h : Keeps s u) :
    KeepsR s (execRecFreeze u) := by
  unfold execRecFreeze
  refine (KeepsR.next (keeps_viaReg h (fun _ _ => ?_)))
  rename_i y13 h14
  exact (keeps_recTrigger h14)

theorem keeps_recRearmOp {s u : State} (h : Keeps s u) :
    Keeps s (State.recRearmOp u) := by
  unfold State.recRearmOp
  refine Keeps.ite (fun _ => h) (fun _ => ?_)
  extract_lets -merge v1 v2 v3 v4
  have h5 : Keeps s v3 := Keeps.upd h
  have h6 : Keeps s v4 := keeps_setRegN (keeps_setRegN h5)
  exact keeps_postOnce (keeps_setF h6)

theorem keeps_execRecRearm {s u : State} (h : Keeps s u) :
    KeepsR s (execRecRearm u) := by
  unfold execRecRearm
  refine (KeepsR.next (keeps_viaReg h (fun _ _ => ?_)))
  rename_i y19 h20
  exact (keeps_recRearmOp h20)

theorem keeps_execRecFrozen {s u : State} (h : Keeps s u) :
    KeepsR s (execRecFrozen u) := by
  unfold execRecFrozen
  exact KeepsR.next (Keeps.ite (fun _ => keeps_postOnce (keeps_setF h)) (fun _ => h))

end Sys2Proof.Machine
end

