-- ==== Sys2Proof/Laws/KeepsLanes.lean ====
section
/-! SUPPORT. What the operations of Machine/Lanes.lean keep (Laws/Keeps.lean). -/

namespace Sys2Proof.Machine


theorem keeps_laneStop {s u : State} {x1} (h : Keeps s u) :
    Keeps s (State.laneStop u x1) := by
  unfold State.laneStop
  exact keeps_updPort h

theorem keeps_tregDone {s u : State} {x1} {x2} (h : Keeps s u) :
    Keeps s (State.tregDone u x1 x2) := by
  unfold State.tregDone
  exact (keeps_updPort (keeps_setRegN h))

theorem keeps_portClear {s u : State} {x1} (h : Keeps s u) :
    Keeps s (State.portClear u x1) := by
  unfold State.portClear
  extract_lets -merge v1 v2 v3 v4 v5 v6 v7 v8 v9 v10 v11
  have h12 : Keeps s v1 := keeps_updTg (keeps_tgOff h)
  have h13 : Keeps s v2 := keeps_setF (keeps_setF h12)
  have h14 : Keeps s v3 := keeps_setF (keeps_setF h13)
  have h15 : Keeps s v4 := keeps_setRegN (keeps_setRegN (keeps_setRegN h14))
  have h16 : Keeps s v5 := keeps_setHandover (keeps_setFull (keeps_setTileBit h15))
  have h17 : Keeps s v6 := Keeps.ite (fun _ => keeps_tregDone h16) (fun _ => h16)
  have h18 : Keeps s v7 := Keeps.ite (fun _ => keeps_setF h17) (fun _ => h17)
  have h19 : Keeps s v8 := keeps_setF h18
  have h20 : Keeps s v9 := Keeps.ite (fun _ => keeps_setF h19) (fun _ => h19)
  have h21 : Keeps s v10 := keeps_updPort h20
  have h22 : Keeps s v11 := keeps_updHl h21
  exact keeps_darnPortDown (keeps_showPending (keeps_laneStop h22))

theorem keeps_portDown {s u : State} {x1} {x2} (h : Keeps s u) :
    Keeps s (State.portDown u x1 x2) := by
  unfold State.portDown
  extract_lets -merge v16 v17
  have h20 : Keeps s v16 := (keeps_setZState (keeps_portClear h))
  have h23 : Keeps s v17 := (keeps_zEv (keeps_raise h20))
  exact (keeps_setAbsent (keeps_updPort h23))

theorem keeps_portOff {s u : State} {x1} (h : Keeps s u) :
    Keeps s (State.portOff u x1) := by
  unfold State.portOff
  exact (keeps_setZState (keeps_portClear h))

theorem keeps_startAttempt {s u : State} {x1} (h : Keeps s u) :
    Keeps s (State.startAttempt u x1) := by
  unfold State.startAttempt
  exact keeps_updPort (keeps_setZState (keeps_laneStop h))

theorem keeps_enableOp {s u : State} {x1} (h : Keeps s u) :
    Keeps s (State.enableOp u x1) := by
  unfold State.enableOp
  exact (Keeps.ite (fun _ => (keeps_startAttempt (keeps_updPort h))) (fun _ => h))

theorem keeps_attemptFail {s u : State} {x1} (h : Keeps s u) :
    Keeps s (State.attemptFail u x1) := by
  unfold State.attemptFail
  extract_lets -merge v1 v2 v3 v4 v5
  have h6 : Keeps s v3 := keeps_setF (keeps_setF h)
  have h7 : Keeps s v4 := keeps_setZState (keeps_laneStop (keeps_zEv h6))
  have h8 : Keeps s v5 := keeps_updPort h7
  exact Keeps.ite (fun _ => keeps_zEv (keeps_setAbsent h8)) (fun _ => h8)

theorem keeps_bkTrials {s u : State} {x1} (h : Keeps s u) :
    Keeps s (State.bkTrials u x1) := by
  unfold State.bkTrials
  exact Keeps.ite (fun _ => keeps_updPort h) (fun _ => h)

theorem keeps_bkFixed {s u : State} {x1} (h : Keeps s u) :
    Keeps s (State.bkFixed u x1) := by
  unfold State.bkFixed
  exact Keeps.ite (fun _ => h) (fun _ => keeps_setF h)

theorem keeps_bkScore {s u : State} {x1} (h : Keeps s u) :
    Keeps s (State.bkScore u x1) := by
  unfold State.bkScore
  exact keeps_updPort h

theorem keeps_bkPick {s u : State} {x1} (h : Keeps s u) :
    Keeps s (State.bkPick u x1) := by
  unfold State.bkPick
  extract_lets -merge v1 v2
  exact keeps_setF (keeps_updPort h)

theorem keeps_bkTrial {s u : State} {x1} {x2} (h : Keeps s u) :
    Keeps s (State.bkTrial u x1 x2) := by
  unfold State.bkTrial
  exact keeps_updPort (keeps_sendBkPrbs (keeps_setF h))

theorem keeps_portActive {s u : State} {x1} (h : Keeps s u) :
    Keeps s (State.portActive u x1) := by
  unfold State.portActive
  extract_lets -merge v7 v8 v9 v10 v11 v12 v13 v14 v15 v16 v17 v18 v19
  have h35 : Keeps s v13 := (keeps_setRegN h)
  have h37 : Keeps s v14 := (keeps_setF (keeps_setZState h35))
  have h40 : Keeps s v15 := (keeps_setRegN h37)
  have h21 : Keeps s v16 := (keeps_updPort h40)
  have h26 : Keeps s v17 := (keeps_updHl h21)
  have h28 : Keeps s v18 := (keeps_setB (keeps_zEv h26))
  have h27 : Keeps s v19 := (Keeps.ite (fun _ => (keeps_spareFail h28)) (fun _ => h28))
  refine (Keeps.foldl h27 (fun _ _ _ => ?_))
  rename_i y28 y29 h30
  exact (keeps_retrainEv h30)

theorem keeps_recalFinish {s u : State} {x1} (h : Keeps s u) :
    Keeps s (State.recalFinish u x1) := by
  unfold State.recalFinish
  extract_lets -merge v21
  have h25 : Keeps s v21 := (keeps_setF (keeps_updPort h))
  split
  · exact h
  · split
    · exact (keeps_zEv h25)
    · exact h25

theorem keeps_recalReturn {s u : State} {x1} {x2} (h : Keeps s u) :
    Keeps s (State.recalReturn u x1 x2) := by
  unfold State.recalReturn
  extract_lets -merge v7 v8
  have h11 : Keeps s v8 := (keeps_sendMove h)
  exact (keeps_setF (keeps_setF h11))

theorem keeps_recalTake {s u : State} {x1} {x2} (h : Keeps s u) :
    Keeps s (State.recalTake u x1 x2) := by
  unfold State.recalTake
  split
  · exact (keeps_takeCal h)
  · exact h

theorem keeps_recalEnded {s u : State} {x1} {x2} (h : Keeps s u) :
    Keeps s (State.recalEnded u x1 x2) := by
  unfold State.recalEnded
  split
  · exact h
  · extract_lets -merge v29 v30 v31
    have h35 : Keeps s v30 := (keeps_updPort h)
    have h37 : Keeps s v31 := (keeps_recalTake h35)
    exact (Keeps.ite (fun _ => (keeps_recalFinish (Keeps.ite (fun _ => (keeps_recalReturn h37)) (fun _ => h37)))) (fun _ => h35))

theorem keeps_recalSwap {s u : State} {x1} (h : Keeps s u) :
    Keeps s (State.recalSwap u x1) := by
  unfold State.recalSwap
  split
  · extract_lets -merge v16
    have h18 : Keeps s v16 := (keeps_recalTake h)
    exact (Keeps.ite (fun _ => h) (fun _ => (Keeps.ite (fun _ => (keeps_updPort h18)) (fun _ => (keeps_recalFinish h18)))))
  · exact h

theorem keeps_recalRow {s u : State} {x1} (h : Keeps s u) :
    Keeps s (State.recalRow u x1) := by
  unfold State.recalRow
  split
  · exact (Keeps.ite (fun _ => (keeps_recalFinish (keeps_recalReturn h))) (fun _ => h))
  · exact h

theorem keeps_laneBack {s u : State} {x1} {x2} (h : Keeps s u) :
    Keeps s (State.laneBack u x1 x2) := by
  unfold State.laneBack
  exact (keeps_zEv (keeps_setFailed (keeps_setReady h)))

theorem keeps_spareReturn {s u : State} {x1} (h : Keeps s u) :
    Keeps s (State.spareReturn u x1) := by
  unfold State.spareReturn
  refine (Keeps.ite (fun _ => h) (fun _ => ?_))
  split
  · exact h
  · extract_lets -merge v34
    have h36 : Keeps s v34 := (keeps_sendMove (keeps_setF (keeps_laneBack h)))
    exact (keeps_updPort h36)

theorem keeps_recalBegin {s u : State} {x1} {x2} {x3} {x4} (h : Keeps s u) :
    Keeps s (State.recalBegin u x1 x2 x3 x4) := by
  unfold State.recalBegin
  extract_lets -merge v8
  have h9 : Keeps s v8 := (keeps_updPort h)
  exact (keeps_startCal (keeps_setF h9))

theorem keeps_recalBack {s u : State} {x1} (h : Keeps s u) :
    Keeps s (State.recalBack u x1) := by
  unfold State.recalBack
  extract_lets -merge v1
  have h2 : Keeps s v1 := keeps_setF (keeps_updPort h)
  exact Keeps.ite (fun _ => keeps_bkAsk h2) (fun _ => h2)

theorem keeps_recalNext {s u : State} {x1} (h : Keeps s u) :
    Keeps s (State.recalNext u x1) := by
  unfold State.recalNext
  refine Keeps.ite (fun _ => h) (fun _ => ?_)
  extract_lets -merge v1 v2 v3 v4 v5 v6
  have h7 : Keeps s v1 := keeps_spareReturn h
  have h8 : Keeps s v3 := keeps_updPort h7
  have h9 : Keeps s v6 := keeps_setF (keeps_setF (keeps_sendMove h8))
  exact Keeps.ite (fun _ => h8) (fun _ => Keeps.ite (fun _ => Keeps.ite (fun _ => keeps_recalBegin h8) (fun _ => Keeps.ite (fun _ => h8) (fun _ => Keeps.ite (fun _ => h8) (fun _ => keeps_recalBegin h9)))) (fun _ => Keeps.ite (fun _ => Keeps.ite (fun _ => h8) (fun _ => keeps_recalBegin h8)) (fun _ => keeps_recalBack h8)))

theorem keeps_bkDone {s u : State} {x1} (h : Keeps s u) :
    Keeps s (State.bkDone u x1) := by
  unfold State.bkDone
  split
  rename_i e4
  have h5 := Keeps.pair e4 (keeps_fresh h)
  exact keeps_recalFinish (keeps_updPort h5)

theorem keeps_recalAbandon {s u : State} {x1} (h : Keeps s u) :
    Keeps s (State.recalAbandon u x1) := by
  unfold State.recalAbandon
  split
  · exact h
  · extract_lets -merge v6 v7
    have h8 : Keeps s v6 := keeps_sendCtle (keeps_dropCal h)
    have h9 : Keeps s v7 := Keeps.ite (fun _ => keeps_updPort (keeps_recalReturn h8)) (fun _ => h8)
    exact keeps_setF (keeps_updPort h9)

theorem keeps_bothTo {s u : State} {x1} {x2} (h : Keeps s u) :
    Keeps s (State.bothTo u x1 x2) := by
  unfold State.bothTo
  extract_lets -merge v6 v7 v8
  have h18 : Keeps s v6 := (keeps_sendMove h)
  have h21 : Keeps s v7 := (keeps_setF (keeps_setF h18))
  have h25 : Keeps s v8 := (Keeps.ite (fun _ => (keeps_setF h21)) (fun _ => h21))
  exact (keeps_halfRate (keeps_setF h25))

theorem keeps_moveStripes {s u : State} {x1} (h : Keeps s u) :
    Keeps s (State.moveStripes u x1) := by
  have fail : ∀ v (d : Nat) (l : List Nat), Keeps s v → Keeps s (l.foldl (fun s l => s.laneFail x1 l d) v) :=
    fun v d l hv => Keeps.foldl hv (fun w l hw => keeps_laneFail hw)
  unfold State.moveStripes
  extract_lets lost sp free one f
  have hf : ∀ v d, Keeps s v → Keeps s (f v d) := fun v d hv => fail v d lost hv
  clear_value f lost
  cases lost with
  | nil => exact h
  | cons l rest =>
    dsimp only
    refine Keeps.ite (fun _ => hf _ _ (keeps_setF (keeps_setF (keeps_sendMove h)))) (fun _ => ?_)
    refine Keeps.ite (fun _ => hf _ _ (keeps_bothTo h)) (fun _ => Keeps.ite (fun _ => hf _ _ (keeps_bothTo h)) (fun _ => ?_))
    cases u.readyLane x1 with
    | none => exact keeps_portDown (hf _ _ h)
    | some d => exact hf _ _ (keeps_bothTo (keeps_laneBack h))

theorem keeps_recalLost {s u : State} {x1} {x2} (h : Keeps s u) :
    Keeps s (State.recalLost u x1 x2) := by
  unfold State.recalLost
  extract_lets -merge v1
  have h2 : Keeps s v1 := keeps_setF (keeps_updPort h)
  exact Keeps.ite (fun _ => keeps_spareFail h2) (fun _ => Keeps.ite (fun _ => keeps_laneFail h2) (fun _ => keeps_moveStripes (keeps_updPort (keeps_dropCal h2))))

theorem keeps_calBack {s u : State} {x1} {x2} {x3} (h : Keeps s u) :
    Keeps s (State.calBack u x1 x2 x3) := by
  unfold State.calBack
  extract_lets -merge v1
  have h2 : Keeps s v1 := keeps_calReject h
  exact Keeps.ite (fun _ => h2) (fun _ => keeps_sendCtle h2)

theorem keeps_calOut {s u : State} {x1} {x2} {x3} (h : Keeps s u) :
    Keeps s (State.calOut u x1 x2 x3) := by
  unfold State.calOut
  extract_lets -merge v1 v2 v3 v4 v5 v6
  have h7 : Keeps s v4 := keeps_dropCal h
  have h8 : Keeps s v5 := keeps_dropCal h
  have h9 : Keeps s v6 := keeps_dropCal h
  split
  · extract_lets -merge v12 v13
    have h14 : Keeps s v12 := keeps_updPort h
    have h15 : Keeps s v13 := Keeps.ite (fun _ => h14) (fun _ => keeps_sendCtle h14)
    exact keeps_sendCheck h15
  · exact Keeps.ite (fun _ => keeps_updPort (keeps_takeCal h7)) (fun _ => Keeps.ite (fun _ => keeps_recalEnded h7) (fun _ => keeps_retrainEv (keeps_setReady (keeps_takeCal h7))))
  · exact Keeps.ite (fun _ => keeps_calReject h8) (fun _ => Keeps.ite (fun _ => keeps_recalEnded (keeps_calBack h8)) (fun _ => keeps_calBack h8))
  · refine Keeps.ite (fun _ => keeps_calReject h9) (fun _ => ?_)
    split
    · exact Keeps.ite (fun _ => keeps_recalLost h9) (fun _ => h9)
    · exact h9

theorem keeps_lockReport {s u : State} {x1} (h : Keeps s u) :
    Keeps s (State.lockReport u x1) := by
  unfold State.lockReport
  extract_lets -merge v6 v7 v8 v9 v10 v11 v12
  have h20 : Keeps s v8 := by
    unfold v8
    split
    · exact (Keeps.ite (fun _ => (keeps_recalAbandon h)) (fun _ => h))
    · exact h
  have h37 : Keeps s v11 := (Keeps.ite (fun _ => (keeps_recalAbandon h20)) (fun _ => h20))
  have h48 : Keeps s v12 := (Keeps.ite (fun _ => (keeps_spareFail h37)) (fun _ => h20))
  exact (keeps_moveStripes h48)

theorem keeps_damageReport {s u : State} {x1} {x2} {x3} (h : Keeps s u) :
    Keeps s (State.damageReport u x1 x2 x3) := by
  unfold State.damageReport
  extract_lets -merge v7 v8 v9 v10 v11 v12
  have h15 : Keeps s v8 := (keeps_updPort h)
  have h17 : Keeps s v10 := (keeps_bumpBy (keeps_setF h15))
  have h27 : Keeps s v11 := (keeps_setRegN h17)
  have h29 : Keeps s v12 := (keeps_zEvOnce h27)
  exact (Keeps.ite (fun _ => h15) (fun _ => (keeps_updSafeT h29)))

theorem keeps_lockLoss {s u : State} {x1} {x2} (h : Keeps s u) :
    Keeps s (State.lockLoss u x1 x2) := by
  unfold State.lockLoss
  refine (Keeps.foldl h (fun _ _ _ => ?_))
  rename_i y18 y19 h20
  exact (keeps_bumpF h20)

theorem keeps_linkReport {s u : State} {x1} {x2} (h : Keeps s u) :
    Keeps s (State.linkReport u x1 x2) := by
  unfold State.linkReport
  extract_lets -merge v10 v11
  have h14 : Keeps s v10 := (keeps_damageReport h)
  have h16 : Keeps s v11 := (keeps_lockLoss h14)
  exact (Keeps.ite (fun _ => (keeps_portDown h16)) (fun _ => (keeps_lockReport (keeps_updPort h16))))

theorem keeps_rejoin {s u : State} {x1} (h : Keeps s u) :
    Keeps s (State.rejoin u x1) := by
  unfold State.rejoin
  split
  · extract_lets -merge v21
    have h11 : Keeps s v21 := (keeps_setF (keeps_sendMove (keeps_laneBack h)))
    exact (keeps_halfRate (keeps_setF h11))
  · exact h

theorem keeps_backLost {s u : State} {x1} (h : Keeps s u) :
    Keeps s (State.backLost u x1) := by
  unfold State.backLost
  refine Keeps.ite (fun _ => h) (fun _ => ?_)
  extract_lets -merge v1 v2 v3
  have h4 : Keeps s v1 := keeps_setF h
  have h10 : Keeps s v2 := by
    unfold v2
    split
    · exact keeps_hlStale (keeps_updHl h4)
    · exact keeps_setF h
  have h21 : Keeps s v3 := by
    unfold v3
    split
    · exact Keeps.ite (fun _ => keeps_setF (keeps_updPort h10)) (fun _ => h10)
    · unfold v2
      split
      · exact keeps_hlStale (keeps_updHl h4)
      · exact keeps_setF h
  exact keeps_bkTrials (keeps_retrainEv (keeps_zEv (keeps_raise h21)))

theorem keeps_backRelock {s u : State} {x1} (h : Keeps s u) :
    Keeps s (State.backRelock u x1) := by
  unfold State.backRelock
  exact Keeps.ite (fun _ => keeps_zEv (keeps_setF h)) (fun _ => h)

theorem keeps_chkBits {s u : State} {x1} {x2} {x3} (h : Keeps s u) :
    Keeps s (State.chkBits u x1 x2 x3) := by
  unfold State.chkBits
  extract_lets -merge v1
  have h2 : Keeps s v1 := keeps_updPort h
  exact Keeps.ite (fun _ => keeps_setRegN h2) (fun _ => h2)

theorem keeps_bkCheck {s u : State} {x1} {x2} {x3} {x4} (h : Keeps s u) :
    Keeps s (State.bkCheck u x1 x2 x3 x4) := by
  unfold State.bkCheck
  split
  · exact keeps_chkBits h
  · exact keeps_chkBits h
  · exact h

theorem keeps_bkBit {s u : State} {x1} {x2} (h : Keeps s u) :
    Keeps s (State.bkBit u x1 x2).2 := by
  unfold State.bkBit
  extract_lets -merge v1 v2
  split
  extract_lets -merge v7 v8 v9
  have h10 : Keeps s v7 := keeps_bkCheck (keeps_updPort h)
  have h11 : Keeps s v8 := Keeps.ite (fun _ => keeps_setRegN h10) (fun _ => h10)
  have h12 : Keeps s v9 := Keeps.ite (fun _ => keeps_backLost h11) (fun _ => Keeps.ite (fun _ => keeps_backRelock h11) (fun _ => h11))
  exact h12

theorem keeps_bkTake {s u : State} {x1} {x2} (h : Keeps s u) :
    Keeps s (State.bkTake u x1 x2).2 := by
  unfold State.bkTake
  split
  rename_i e4
  have h8 := Keeps.pair e4 (Keeps.foldl2 h (fun y5 y6 h7 => keeps_bkBit h7))
  exact h8

theorem keeps_backIn {s u : State} {x1} {x2} {x3} {x4 : BitVec 48 → State → State} (h : Keeps s u)
    (k4 : ∀ p v, Keeps s v → Keeps s (x4 p v)) : Keeps s (State.backIn u x1 x2 x3 x4) := by
  unfold State.backIn
  refine keeps_inCore h (fun v hv => ?_)
  split
  rename_i e
  have h1 := Keeps.pair e (keeps_bkTake hv)
  split
  · exact Keeps.ite (fun _ => k4 _ _ h1) (fun _ => h1)
  · exact h1

theorem keeps_sendMargin {s u : State} {x1} {x2} (h : Keeps s u) :
    Keeps s (State.sendMargin u x1 x2) := by
  unfold State.sendMargin
  exact keeps_send h

theorem keeps_marginStep {s u : State} {x1} (h : Keeps s u) :
    Keeps s (State.marginStep u x1) := by
  unfold State.marginStep
  extract_lets -merge v1 v2
  refine Keeps.ite (fun _ => Keeps.ite (fun _ => h) (fun _ => keeps_updPort h)) (fun _ => ?_)
  split
  · exact keeps_sendMargin (keeps_updPort h)
  · extract_lets -merge v9
    exact Keeps.ite (fun _ => h) (fun _ => keeps_sendMargin (keeps_updPort h))

theorem keeps_bkStep {s u : State} {x1} (h : Keeps s u) :
    Keeps s (State.bkStep u x1) := by
  unfold State.bkStep
  extract_lets -merge v1 v2
  have h13 : Keeps s v2 := by
    unfold v2
    split
    · refine Keeps.ite (fun _ => h) (fun _ => ?_)
      extract_lets -merge v7 v8
      have h9 : Keeps s v7 := Keeps.ite (fun _ => h) (fun _ => keeps_bkScore h)
      have h10 : Keeps s v8 := keeps_bkPick h9
      exact Keeps.ite (fun _ => keeps_bkTrial h9) (fun _ => Keeps.ite (fun _ => keeps_backRelock h10) (fun _ => h10))
    · exact h
  split
  · exact Keeps.ite (fun _ => h13) (fun _ => keeps_bkDone h13)
  · exact h13

theorem keeps_benchStep {s u : State} {x1} (h : Keeps s u) :
    Keeps s (State.benchStep u x1) := by
  unfold State.benchStep
  extract_lets -merge v1 v2 v3
  have h4 : Keeps s v2 := Keeps.ite (fun _ => h) (fun _ => keeps_updPort h)
  exact Keeps.ite (fun _ => keeps_updPort h4) (fun _ => Keeps.ite (fun _ => h4) (fun _ => keeps_laneStop h4))

theorem keeps_laneStep {s u : State} {x1} (h : Keeps s u) :
    Keeps s (State.laneStep u x1) := by
  unfold State.laneStep
  extract_lets -merge v1 v2 v3 v4
  have h5 : Keeps s v2 := keeps_marginStep (keeps_bkStep h)
  refine Keeps.ite (fun _ => keeps_benchStep h) (fun _ => ?_)
  refine Keeps.ite (fun _ => h) (fun _ => ?_)
  split
  rename_i e9
  have h10 := Keeps.pair e9 (Keeps.ite2 (fun _ => keeps_fresh h5) (fun _ => h5))
  exact keeps_updPort h10

theorem keeps_execZtlEnable {s u : State} {x0} (h : Keeps s u) :
    KeepsR s (execZtlEnable x0 u) := by
  unfold execZtlEnable
  refine (KeepsR.next (keeps_viaReg h (fun _ _ => ?_)))
  rename_i y7 h8
  exact (keeps_enableOp h8)

theorem keeps_disableOp {s u : State} {x1} (h : Keeps s u) :
    Keeps s (State.disableOp u x1) := by
  unfold State.disableOp
  exact (Keeps.ite (fun _ => (keeps_portOff h)) (fun _ => h))

theorem keeps_execZtlDisable {s u : State} {x0} (h : Keeps s u) :
    KeepsR s (execZtlDisable x0 u) := by
  unfold execZtlDisable
  refine (KeepsR.next (keeps_viaReg h (fun _ _ => ?_)))
  rename_i y7 h8
  exact (keeps_disableOp h8)

theorem keeps_execZtlRecal {s u : State} {x0} (h : Keeps s u) :
    KeepsR s (execZtlRecal x0 u) := by
  unfold execZtlRecal
  refine (KeepsR.next (keeps_viaReg h (fun _ _ => ?_)))
  rename_i y9 h10
  exact (keeps_recalNext h10)

theorem keeps_retryOp {s u : State} {x1} (h : Keeps s u) :
    Keeps s (State.retryOp u x1) := by
  unfold State.retryOp
  exact (Keeps.ite (fun _ => (keeps_startAttempt h)) (fun _ => h))

theorem keeps_execZtlRetry {s u : State} {x0} (h : Keeps s u) :
    KeepsR s (execZtlRetry x0 u) := by
  unfold execZtlRetry
  refine (KeepsR.next (keeps_viaReg h (fun _ _ => ?_)))
  rename_i y9 h10
  exact (keeps_retryOp h10)

theorem keeps_execBringupAttempt {s u : State} {x0} (h : Keeps s u) :
    KeepsR s (execBringupAttempt x0 u) := by
  unfold execBringupAttempt
  exact (KeepsR.next (keeps_retryOp h))

theorem keeps_execDetectDone {s u : State} {x0} {x1} (h : Keeps s u) :
    KeepsR s (execDetectDone x0 x1 u) := by
  unfold execDetectDone
  extract_lets -merge v1 v2
  have h3 : Keeps s v2 := keeps_updPort (keeps_setZState h)
  exact KeepsR.next (Keeps.ite (fun _ => h) (fun _ => Keeps.foldl (keeps_bkTrials h3) (fun y4 y5 h6 => keeps_startCal h6)))

theorem keeps_execTrainDone {s u : State} {x0} (h : Keeps s u) :
    KeepsR s (execTrainDone x0 u) := by
  unfold execTrainDone
  exact KeepsR.next (Keeps.ite (fun _ => h) (fun _ => keeps_updPort (keeps_setZState (keeps_bkFixed h))))

theorem keeps_lockedOn {s u : State} {x1} {x2} (h : Keeps s u) :
    Keeps s (State.lockedOn u x1 x2) := by
  unfold State.lockedOn
  exact keeps_send (keeps_updPort (keeps_setZState h))

theorem keeps_execLockDone {s u : State} {x0} {x1} (h : Keeps s u) :
    KeepsR s (execLockDone x0 x1 u) := by
  unfold execLockDone
  extract_lets -merge v6
  exact (KeepsR.next (Keeps.ite (fun _ => h) (fun _ => (keeps_send (keeps_updPort (keeps_setZState h))))))

theorem keeps_execAttemptTimeout {s u : State} {x0} (h : Keeps s u) :
    KeepsR s (execAttemptTimeout x0 u) := by
  unfold execAttemptTimeout
  extract_lets -merge v1 v2
  exact KeepsR.next (Keeps.ite (fun _ => keeps_lockedOn h) (fun _ => Keeps.ite (fun _ => keeps_attemptFail h) (fun _ => h)))

theorem keeps_trainIn {s u : State} {x1} {x2} (h : Keeps s u) :
    Keeps s (State.trainIn u x1 x2) := by
  unfold State.trainIn
  extract_lets -merge v1
  split
  · exact h
  · exact Keeps.ite (fun _ => h) (fun _ => keeps_calOut h)

theorem keeps_execTrainReport {s u : State} {x0} {x1} (h : Keeps s u) :
    KeepsR s (execTrainReport x0 x1 u) := by
  unfold execTrainReport
  exact KeepsR.next (keeps_backIn h (fun y1 y2 y3 => keeps_trainIn y3))

theorem keeps_statusIn {s u : State} {x1} {x2} (h : Keeps s u) :
    Keeps s (State.statusIn u x1 x2) := by
  unfold State.statusIn
  exact Keeps.ite (fun _ => keeps_linkReport h) (fun _ => Keeps.ite (fun _ => keeps_updPort h) (fun _ => h))

theorem keeps_execLinkStatus {s u : State} {x0} {x1} (h : Keeps s u) :
    KeepsR s (execLinkStatus x0 x1 u) := by
  unfold execLinkStatus
  exact KeepsR.next (keeps_backIn h (fun y1 y2 y3 => keeps_statusIn y3))

theorem keeps_execSpareMarginCheck {s u : State} {x0} {x1} {x2} (h : Keeps s u) :
    KeepsR s (execSpareMarginCheck x0 x1 x2 u) := by
  unfold execSpareMarginCheck
  extract_lets -merge v7 v8 v9 v10 v11
  have h12 : Keeps s v9 := (keeps_setRegN h)
  have h19 : Keeps s v11 := (keeps_updPort h12)
  exact (KeepsR.next (Keeps.ite (fun _ => h) (fun _ => (Keeps.ite (fun _ => (keeps_updPort (keeps_spareFail h19))) (fun _ => h19)))))

theorem keeps_execRecalStep {s u : State} {x0} (h : Keeps s u) :
    KeepsR s (execRecalStep x0 u) := by
  unfold execRecalStep
  exact (KeepsR.next (Keeps.ite (fun _ => (keeps_recalNext h)) (fun _ => h)))

theorem keeps_execLaneRetrain {s u : State} {x0} {x1} (h : Keeps s u) :
    KeepsR s (execLaneRetrain x0 x1 u) := by
  unfold execLaneRetrain
  extract_lets -merge v6
  exact (KeepsR.next (Keeps.ite (fun _ => (keeps_startCal h)) (fun _ => h)))

theorem keeps_execBackFail {s u : State} {x0} (h : Keeps s u) :
    KeepsR s (execBackFail x0 u) := by
  unfold execBackFail
  exact KeepsR.next (keeps_backLost (keeps_updPort h))

theorem keeps_execBackRestored {s u : State} {x0} (h : Keeps s u) :
    KeepsR s (execBackRestored x0 u) := by
  unfold execBackRestored
  exact KeepsR.next (Keeps.ite (fun _ => keeps_backRelock (keeps_bkFixed (keeps_updPort h))) (fun _ => h))

theorem keeps_execBkLossOfSignal {s u : State} {x0} (h : Keeps s u) :
    KeepsR s (execBkLossOfSignal x0 u) := by
  unfold execBkLossOfSignal
  exact (KeepsR.next (Keeps.ite (fun _ => (keeps_portDown h)) (fun _ => h)))

end Sys2Proof.Machine
end

