-- ==== Sys2Proof/Laws/KeepsTiming.lean ====
section
/-! SUPPORT. What the operations of Machine/Timing.lean keep (Laws/Keeps.lean). -/

namespace Sys2Proof.Machine

theorem keeps_execTgStart {s u : State} {x0} (h : Keeps s u) :
    KeepsR s (execTgStart x0 u) := by
  unfold execTgStart
  refine (KeepsR.next (keeps_viaReg h (fun _ _ => ?_)))
  rename_i y7 h8
  exact (keeps_tgStart h8)

theorem keeps_execTgStop {s u : State} {x0} (h : Keeps s u) :
    KeepsR s (execTgStop x0 u) := by
  unfold execTgStop
  refine (KeepsR.next (keeps_viaReg h (fun _ _ => ?_)))
  rename_i y8 h9
  exact (keeps_tgStop h9)

theorem keeps_sendSwap {s u : State} {x1} {x2} {x3} {x4} {x5} {x6} (h : Keeps s u) :
    Keeps s (State.sendSwap u x1 x2 x3 x4 x5 x6) := by
  unfold State.sendSwap
  extract_lets -merge v10
  have h14 : Keeps s v10 := (keeps_send h)
  exact (keeps_updPort h14)

theorem keeps_countSwap {s u : State} {x1} {x2} {x3} (h : Keeps s u) :
    Keeps s (State.countSwap u x1 x2 x3) := by
  unfold State.countSwap
  exact (keeps_setPair (keeps_setRegN h))

theorem keeps_endLit {s u : State} {x1} (h : Keeps s u) :
    Keeps s (State.endLit u x1) := by
  unfold State.endLit
  refine Keeps.ite (fun _ => h) (fun _ => ?_)
  extract_lets -merge v1 v2
  have h3 : Keeps s v2 := keeps_updPr h
  exact Keeps.ite (fun _ => h3) (fun _ => keeps_litFrame h3)

theorem keeps_blankSwap {s u : State} {x1} {x2} (h : Keeps s u) :
    Keeps s (State.blankSwap u x1 x2) := by
  unfold State.blankSwap
  extract_lets -merge v1 v2 v3 v4
  have h5 : Keeps s v2 := keeps_sendSwap (keeps_applyStaged (keeps_endLit h))
  have h6 : Keeps s v3 := keeps_setF h5
  have h7 : Keeps s v4 := keeps_setHandover (keeps_setFull (keeps_countSwap h6))
  exact keeps_tgOff (keeps_recalSwap h7)

theorem keeps_rephaseStep {s u : State} {x1} {x2} (h : Keeps s u) :
    Keeps s (State.rephaseStep u x1 x2) := by
  unfold State.rephaseStep
  extract_lets -merge v6
  have h9 : Keeps s v6 := (keeps_setF h)
  exact (Keeps.ite (fun _ => (keeps_updTg h)) (fun _ => (Keeps.ite (fun _ => (Keeps.ite (fun _ => (keeps_tgEv h9)) (fun _ => h9))) (fun _ => h))))

theorem keeps_handoverSwap {s u : State} {x1} (h : Keeps s u) :
    Keeps s (State.handoverSwap u x1).2 := by
  unfold State.handoverSwap
  exact (Keeps.ite2 (fun _ => (Keeps.ite2 (fun _ => (Keeps.mk2 (keeps_setHandover (keeps_updPort h)))) (fun _ => (Keeps.mk2 (keeps_post h))))) (fun _ => (Keeps.mk2 h)))

theorem keeps_recordDue {s u : State} {x1} (h : Keeps s u) :
    Keeps s (State.recordDue u x1) := by
  unfold State.recordDue
  exact (Keeps.ite (fun _ => (keeps_statsMissing h)) (fun _ => h))

theorem keeps_slotsFit {s u : State} {x1} {x2} {x3} (h : Keeps s u) :
    Keeps s (State.slotsFit u x1 x2 x3).2 := by
  unfold State.slotsFit
  extract_lets -merge v7 v8
  exact (Keeps.mk2 (keeps_slotSkip h))

theorem keeps_flipSwap {s u : State} {x1} {x2} {x3} {x4} (h : Keeps s u) :
    Keeps s (State.flipSwap u x1 x2 x3 x4) := by
  unfold State.flipSwap
  split
  · exact (Keeps.ite (fun _ => (keeps_setPair (keeps_setRegN h))) (fun _ => h))
  · exact h

theorem keeps_showHandover {s u : State} {x1} {x2} (h : Keeps s u) :
    Keeps s (State.showHandover u x1 x2).2 := by
  unfold State.showHandover
  exact (Keeps.ite2 (fun _ => (keeps_handoverSwap h)) (fun _ => (Keeps.mk2 h)))

theorem keeps_swapOut {s u : State} {x1} {x2} {x3} {x4} {x5} {x6} {x7} {x8} {x9} (h : Keeps s u) :
    Keeps s (State.swapOut u x1 x2 x3 x4 x5 x6 x7 x8 x9) := by
  unfold State.swapOut
  extract_lets -merge v1 v2 v3 v4 v5 v6 v7 v8 v9 v10
  have h11 : Keeps s v4 := keeps_countSwap h
  have h12 : Keeps s v5 := keeps_setF h11
  have h13 : Keeps s v7 := keeps_tgEv (keeps_setTgState h12)
  have h14 : Keeps s v8 := Keeps.ite (fun _ => Keeps.ite (fun _ => keeps_tgEv h13) (fun _ => h13)) (fun _ => h12)
  split
  rename_i e18
  have h19 := Keeps.pair e18 (keeps_slotsFit h14)
  extract_lets -merge v20 v21 v22 v23 v24 v25 v26
  have h27 : Keeps s v20 := keeps_updTg h19
  have h28 : Keeps s v21 := Keeps.ite (fun _ => keeps_hlTorn h27) (fun _ => h27)
  have h29 : Keeps s v22 := keeps_flipSwap h28
  have h30 : Keeps s v23 := Keeps.ite (fun _ => keeps_ttSwap (keeps_recordDue h29)) (fun _ => h29)
  have h31 : Keeps s v24 := keeps_ttLimit h30
  have h32 : Keeps s v25 := keeps_sendSwap h31
  have h33 : Keeps s v26 := Keeps.ite (fun _ => keeps_setFull h32) (fun _ => h32)
  exact keeps_followGrid h33

theorem keeps_runSwap {s u : State} {x1} {x2} (h : Keeps s u) :
    Keeps s (State.runSwap u x1 x2) := by
  unfold State.runSwap
  exact keeps_swapOut (keeps_showHandover (keeps_rephaseStep (keeps_recalSwap (keeps_applyStaged (keeps_endLit h)))))

theorem keeps_swapOp {s u : State} {x1} (h : Keeps s u) :
    Keeps s (State.swapOp u x1) := by
  unfold State.swapOp
  extract_lets -merge v1 v2
  have h3 : Keeps s v1 := Keeps.ite (fun _ => keeps_pulseFall h) (fun _ => h)
  exact Keeps.ite (fun _ => h3) (fun _ => Keeps.ite (fun _ => h3) (fun _ => Keeps.ite (fun _ => keeps_blankSwap h3) (fun _ => keeps_runSwap h3)))

theorem keeps_execSwap {s u : State} {x0} (h : Keeps s u) :
    KeepsR s (execSwap x0 u) := by
  unfold execSwap
  exact (KeepsR.next (keeps_swapOp h))

theorem keeps_slotOp {s u : State} {x1} {x2} (h : Keeps s u) :
    Keeps s (State.slotOp u x1 x2) := by
  unfold State.slotOp
  extract_lets -merge v1 v2
  have h3 : Keeps s v2 := keeps_updTg h
  split
  · exact h
  · refine Keeps.ite (fun _ => h) (fun _ => ?_)
    refine Keeps.ite (fun _ => h3) (fun _ => ?_)
    refine Keeps.ite (fun _ => keeps_slotSkip h3) (fun _ => ?_)
    refine Keeps.ite (fun _ => keeps_slotSkip h3) (fun _ => ?_)
    split
    extract_lets -merge v15 v16
    have h17 : Keeps s v15 := keeps_ttLimit h
    have h18 : Keeps s v16 := keeps_send h17
    exact keeps_updTg h18

theorem keeps_execSlot {s u : State} {x0} {x1} (h : Keeps s u) :
    KeepsR s (execSlot x0 x1 u) := by
  unfold execSlot
  exact (KeepsR.next (keeps_slotOp h))

theorem keeps_senseSkip {s u : State} {x1} (h : Keeps s u) :
    Keeps s (State.senseSkip u x1) := by
  unfold State.senseSkip
  extract_lets -merge v1 v2
  have h3 : Keeps s v1 := keeps_updTg h
  have h4 : Keeps s v2 := Keeps.ite (fun _ => h3) (fun _ => keeps_hlSkip h3)
  exact keeps_tgEv (keeps_raise h4)

theorem keeps_senseOp {s u : State} {x1} (h : Keeps s u) :
    Keeps s (State.senseOp u x1) := by
  unfold State.senseOp
  extract_lets -merge v6 v7 v8 v9 v10 v11 v12
  have h21 : Keeps s v11 := (keeps_send h)
  have h30 : Keeps s v12 := (keeps_updTg h21)
  exact (Keeps.ite (fun _ => h) (fun _ => (Keeps.ite (fun _ => (keeps_senseSkip h)) (fun _ => (Keeps.ite (fun _ => h30) (fun _ => (keeps_hlSense h30)))))))

theorem keeps_execSense {s u : State} {x0} (h : Keeps s u) :
    KeepsR s (execSense x0 u) := by
  unfold execSense
  exact (KeepsR.next (keeps_senseOp h))

theorem keeps_frameStartOp {s u : State} {x1} (h : Keeps s u) :
    Keeps s (State.frameStartOp u x1) := by
  unfold State.frameStartOp
  split
  · exact h
  · extract_lets -merge v12 v13
    have h17 : Keeps s v13 := (keeps_send h)
    exact (Keeps.ite (fun _ => h) (fun _ => (keeps_updTg h17)))

theorem keeps_execFrameStart {s u : State} {x0} (h : Keeps s u) :
    KeepsR s (execFrameStart x0 u) := by
  unfold execFrameStart
  exact (KeepsR.next (keeps_frameStartOp h))

theorem keeps_rowOut {s u : State} {x1} {x2} {x3} (h : Keeps s u) :
    Keeps s (State.rowOut u x1 x2 x3) := by
  unfold State.rowOut
  extract_lets -merge v7 v8
  have h11 : Keeps s v7 := (keeps_sendRow h)
  have h17 : Keeps s v8 := (keeps_updPr h11)
  exact (keeps_ttRow h17)

theorem keeps_rowCarry {s u : State} {x1} {x2} {x3} (h : Keeps s u) :
    Keeps s (State.rowCarry u x1 x2 x3) := by
  unfold State.rowCarry
  extract_lets -merge v10 v11 v12
  have h16 : Keeps s v10 := (keeps_sendCarry h)
  have h11 : Keeps s v11 := (keeps_updPr h16)
  have h13 : Keeps s v12 := (keeps_postOnce (keeps_bump h11))
  exact (keeps_ttCarry h13)

theorem keeps_rowSlotOp {s u : State} {x1} (h : Keeps s u) :
    Keeps s (State.rowSlotOp u x1) := by
  unfold State.rowSlotOp
  split
  · exact h
  · extract_lets -merge v15 v16 v17 v18
    have h23 : Keeps s v16 := (Keeps.ite (fun _ => (keeps_recalRow h)) (fun _ => h))
    have h30 : Keeps s v17 := by
      unfold v17
      split
      · exact (Keeps.ite (fun _ => (keeps_rowOut h23)) (fun _ => (keeps_rowCarry h23)))
      · exact (keeps_rowCarry h23)
    have h44 : Keeps s v18 := (keeps_updTg h30)
    exact (Keeps.ite (fun _ => h) (fun _ => (keeps_pressFill h44)))

theorem keeps_execRowSlot {s u : State} {x0} (h : Keeps s u) :
    KeepsR s (execRowSlot x0 u) := by
  unfold execRowSlot
  exact (KeepsR.next (keeps_rowSlotOp h))

theorem keeps_execTimingCommit {s u : State} {x0} (h : Keeps s u) :
    KeepsR s (execTimingCommit x0 u) := by
  unfold execTimingCommit
  refine (KeepsR.next (keeps_viaReg h (fun _ _ => ?_)))
  rename_i y20 h21
  exact (keeps_timingCommit h21)

theorem keeps_execDirectTimingWrite {s u : State} {x0} {x1} (h : Keeps s u) :
    KeepsR s (execDirectTimingWrite x0 x1 u) := by
  unfold execDirectTimingWrite
  refine (KeepsR.next (keeps_viaRegV h (fun _ _ _ => ?_)))
  rename_i y20 h21
  exact (keeps_directWrite h21)

end Sys2Proof.Machine
end

