-- ==== Sys2Proof/Laws/KeepsTileProto.lean ====
section
/-! SUPPORT. What the operations of Machine/TileProto.lean keep (Laws/Keeps.lean). -/

namespace Sys2Proof.Machine

theorem keeps_blockDrop {s u : State} {x1} {x2} (h : Keeps s u) :
    Keeps s (State.blockDrop u x1 x2) := by
  unfold State.blockDrop
  exact (keeps_zEvOnce (keeps_raise h))

theorem keeps_capsDrop {s u : State} {x1} (h : Keeps s u) :
    Keeps s (State.capsDrop u x1) := by
  unfold State.capsDrop
  extract_lets -merge v1 v2
  have h3 : Keeps s v1 := keeps_setRegN (keeps_setRegN (keeps_setRegN h))
  have h4 : Keeps s v2 := keeps_setTileBit (keeps_setF h3)
  exact keeps_updPort h4

theorem keeps_tileMismatch {s u : State} {x1} {x2} (h : Keeps s u) :
    Keeps s (State.tileMismatch u x1 x2) := by
  unfold State.tileMismatch
  extract_lets -merge v1 v2
  have h3 : Keeps s v1 := keeps_post h
  have h4 : Keeps s v2 := Keeps.ite (fun _ => h3) (fun _ => keeps_tgOff h3)
  exact keeps_setAbsent (keeps_setHandover (keeps_setFull (keeps_capsDrop h4)))

theorem keeps_challenge {s u : State} (h : Keeps s u) :
    Keeps s (State.challenge u).2 := by
  unfold State.challenge
  refine (Keeps.foldl2 (Keeps.mk2 h) (fun _ _ _ => ?_))
  rename_i h10
  split
  rename_i y17 h18
  have h19 := Keeps.pair h18 (keeps_fresh h10)
  exact (Keeps.mk2 h19)

theorem keeps_authStart {s u : State} {x1} (h : Keeps s u) :
    Keeps s (State.authStart u x1) := by
  unfold State.authStart
  split
  rename_i y20 h21
  have h22 := Keeps.pair h21 (keeps_challenge h)
  extract_lets -merge v24 v25
  have h14 : Keeps s v24 := (keeps_updPort (keeps_setF h22))
  refine (Keeps.foldl h14 (fun _ _ _ => ?_))
  rename_i y24 y25 h26
  exact (keeps_send h26)

theorem keeps_authFail {s u : State} {x1} (h : Keeps s u) :
    Keeps s (State.authFail u x1) := by
  unfold State.authFail
  exact keeps_tileMismatch (keeps_setF h)

theorem keeps_nvSend {s u : State} {x1} {x2} {x3} {x4} (h : Keeps s u) :
    Keeps s (State.nvSend u x1 x2 x3 x4) := by
  unfold State.nvSend
  extract_lets -merge v9 v10
  have h13 : Keeps s v10 := (keeps_send h)
  exact (keeps_updPort h13)

theorem keeps_nvPiece {s u : State} {x1} {x2} {x3} {x4} (h : Keeps s u) :
    Keeps s (State.nvPiece u x1 x2 x3 x4) := by
  unfold State.nvPiece
  exact Keeps.ite (fun _ => keeps_nvSend h) (fun _ => keeps_nvSend (keeps_updPort h))

theorem keeps_startReads {s u : State} {x1} {x2} (h : Keeps s u) :
    Keeps s (State.startReads u x1 x2) := by
  unfold State.startReads
  exact keeps_nvSend (keeps_updPort h)

theorem keeps_startMapRead {s u : State} {x1} (h : Keeps s u) :
    Keeps s (State.startMapRead u x1) := by
  unfold State.startMapRead
  split
  · exact h
  · exact keeps_startReads h

theorem keeps_mapReads {s u : State} (h : Keeps s u) :
    Keeps s (State.mapReads u) := by
  unfold State.mapReads
  exact Keeps.foldl h (fun y1 y2 h3 => Keeps.ite (fun _ => h3) (fun _ => Keeps.ite (fun _ => keeps_startReads h3) (fun _ => keeps_startMapRead h3)))

theorem keeps_nvStore {s u : State} {x1} {x2} {x3} (h : Keeps s u) :
    Keeps s (State.nvStore u x1 x2 x3) := by
  unfold State.nvStore
  refine Keeps.ite (fun _ => keeps_updPort h) (fun _ => ?_)
  refine Keeps.ite (fun _ => keeps_updPort h) (fun _ => ?_)
  extract_lets -merge v1 v2 v3
  have h4 : Keeps s v3 := keeps_putDram h
  exact Keeps.ite (fun _ => keeps_putDram h4) (fun _ => h4)

theorem keeps_lifeShow {s u : State} {x1} (h : Keeps s u) :
    Keeps s (State.lifeShow u x1) := by
  unfold State.lifeShow
  split
  · exact h
  · exact Keeps.ite (fun _ => keeps_setF h) (fun _ => h)

theorem keeps_nvNext {s u : State} {x1} (h : Keeps s u) :
    Keeps s (State.nvNext u x1) := by
  unfold State.nvNext
  extract_lets -merge v1
  have h2 : Keeps s v1 := keeps_lifeShow h
  split
  · exact keeps_nvPiece (keeps_updPort h2)
  · exact keeps_updPort h2

theorem keeps_blockStray {s u : State} {x1} {x2} {x3} (h : Keeps s u) :
    Keeps s (State.blockStray u x1 x2 x3) := by
  unfold State.blockStray
  exact Keeps.ite (fun _ => h) (fun _ => keeps_blockDrop h)

theorem keeps_nvBlock {s u : State} {x1} {x2} (h : Keeps s u) :
    Keeps s (State.nvBlock u x1 x2) := by
  unfold State.nvBlock
  split
  · exact keeps_blockStray h
  · refine Keeps.ite (fun _ => keeps_nvNext (keeps_nvStore h)) (fun _ => ?_)
    extract_lets -merge v9
    have h10 : Keeps s v9 := keeps_blockDrop h
    exact Keeps.ite (fun _ => keeps_nvPiece h10) (fun _ => keeps_nvNext h10)

theorem keeps_ckptLost {s u : State} {x1} (h : Keeps s u) :
    Keeps s (State.ckptLost u x1) := by
  unfold State.ckptLost
  exact Keeps.ite (fun _ => keeps_ckptFail h) (fun _ => h)

theorem keeps_replaceCheck {s u : State} {x1} {x2} (h : Keeps s u) :
    Keeps s (State.replaceCheck u x1 x2) := by
  unfold State.replaceCheck
  extract_lets -merge v1 v2 v3 v4 v5 v6
  have h7 : Keeps s v2 := keeps_ckptLost h
  have h8 : Keeps s v3 := keeps_updHl h7
  have h9 : Keeps s v4 := keeps_setRegN (keeps_setRegN (keeps_setRegN h8))
  have h10 : Keeps s v5 := keeps_baseActive (keeps_darnBusy (keeps_setRegN h9))
  have h11 : Keeps s v6 := keeps_updBoot h10
  exact Keeps.ite (fun _ => h) (fun _ => keeps_post h11)

theorem keeps_capsShow {s u : State} {x1} {x2} (h : Keeps s u) :
    Keeps s (State.capsShow u x1 x2) := by
  unfold State.capsShow
  extract_lets -merge v6 v7 v8 v9
  have h15 : Keeps s v6 := (keeps_setRegN h)
  have h11 : Keeps s v7 := (keeps_setF h15)
  have h14 : Keeps s v8 := (keeps_setPair h11)
  have h20 : Keeps s v9 := (keeps_setF (keeps_setRegN h14))
  exact (keeps_setF (keeps_setAbsent (keeps_setTileBit h20)))

theorem keeps_refillTile {s u : State} {x1} (h : Keeps s u) :
    Keeps s (State.refillTile u x1) := by
  unfold State.refillTile
  have h2 : Keeps s (u.fillAll x1).2 := keeps_fillAll h
  generalize u.fillAll x1 = r at h2
  exact Keeps.ite (fun _ => keeps_dropRanges h2) (fun _ => keeps_updBoot h2)

theorem keeps_tileLoad {s u : State} {x1} (h : Keeps s u) :
    Keeps s (State.tileLoad u x1) := by
  unfold State.tileLoad
  refine Keeps.ite (fun _ => h) (fun _ => ?_)
  extract_lets -merge v1
  have h2 : Keeps s v1 := Keeps.ite (fun _ => keeps_refillTile h) (fun _ => h)
  exact Keeps.ite (fun _ => keeps_startReads h2) (fun _ => keeps_startMapRead h2)

theorem keeps_capsAccept {s u : State} {x1} {x2} (h : Keeps s u) :
    Keeps s (State.capsAccept u x1 x2) := by
  unfold State.capsAccept
  extract_lets -merge v1 v2 v3 v4
  have h5 : Keeps s v2 := keeps_updHl (keeps_updPort h)
  have h6 : Keeps s v3 := keeps_replaceCheck (keeps_capsShow h5)
  have h12 : Keeps s v4 := by
    unfold v4
    split
    · exact keeps_replaceCheck (keeps_capsShow h5)
    · exact Keeps.ite (fun _ => keeps_authStart h6) (fun _ => keeps_authFail h6)
  exact Keeps.ite (fun _ => h12) (fun _ => keeps_tileLoad h12)

theorem keeps_capsCheck {s u : State} {x1} {x2} (h : Keeps s u) :
    Keeps s (State.capsCheck u x1 x2) := by
  unfold State.capsCheck
  extract_lets -merge v6 v7
  have h12 : Keeps s v6 := (keeps_portActive h)
  split
  · exact (keeps_tileMismatch h12)
  · exact (Keeps.ite (fun _ => (keeps_capsAccept h12)) (fun _ => (keeps_tileMismatch h12)))

theorem keeps_capsBlock {s u : State} {x1} {x2} (h : Keeps s u) :
    Keeps s (State.capsBlock u x1 x2) := by
  unfold State.capsBlock
  refine Keeps.ite (fun _ => Keeps.ite (fun _ => keeps_blockStray h) (fun _ => h)) (fun _ => ?_)
  refine Keeps.ite (fun _ => keeps_capsCheck h) (fun _ => ?_)
  extract_lets -merge v1
  have h2 : Keeps s v1 := keeps_blockDrop h
  exact Keeps.ite (fun _ => keeps_send (keeps_updPort h2)) (fun _ => h2)

theorem keeps_execCapsBlock {s u : State} {x0} {x1} (h : Keeps s u) :
    KeepsR s (execCapsBlock x0 x1 u) := by
  unfold execCapsBlock
  exact (KeepsR.next (keeps_capsBlock h))

theorem keeps_authBlock {s u : State} {x1} {x2} (h : Keeps s u) :
    Keeps s (State.authBlock u x1 x2) := by
  unfold State.authBlock
  split
  · exact Keeps.ite (fun _ => keeps_blockStray h) (fun _ => h)
  · extract_lets -merge v6
    have h7 : Keeps s v6 := keeps_blockStray h
    exact Keeps.ite (fun _ => keeps_updPort (keeps_setF h7)) (fun _ => keeps_authFail h7)

theorem keeps_execAuthBlock {s u : State} {x0} {x1} (h : Keeps s u) :
    KeepsR s (execAuthBlock x0 x1 u) := by
  unfold execAuthBlock
  exact (KeepsR.next (keeps_authBlock h))

theorem keeps_execAuthTimeout {s u : State} {x0} (h : Keeps s u) :
    KeepsR s (execAuthTimeout x0 u) := by
  unfold execAuthTimeout
  exact (KeepsR.next (Keeps.ite (fun _ => (keeps_authFail h)) (fun _ => h)))

theorem keeps_selLoad {s u : State} {x1} (h : Keeps s u) :
    Keeps s (State.selLoad u x1) := by
  unfold State.selLoad
  exact (Keeps.ite (fun _ => (keeps_sendSelClear (keeps_updPort h))) (fun _ => h))

theorem keeps_execSelMapLoad {s u : State} {x0} (h : Keeps s u) :
    KeepsR s (execSelMapLoad x0 u) := by
  unfold execSelMapLoad
  exact (KeepsR.next (keeps_selLoad h))

theorem keeps_selRefused {s u : State} {x1} (h : Keeps s u) :
    Keeps s (State.selRefused u x1) := by
  unfold State.selRefused
  extract_lets -merge v5 v6
  have h11 : Keeps s v5 := (keeps_updPort h)
  have h14 : Keeps s v6 := (keeps_zEvOnce (keeps_raise h11))
  exact (Keeps.ite (fun _ => (keeps_sendSelClear (keeps_updPort h))) (fun _ => (Keeps.ite (fun _ => (keeps_tgStart (keeps_updTg h14))) (fun _ => h14))))

theorem keeps_selAck {s u : State} {x1} {x2} (h : Keeps s u) :
    Keeps s (State.selAck u x1 x2) := by
  unfold State.selAck
  extract_lets -merge v8 v9
  have h13 : Keeps s v9 := (keeps_updPort h)
  exact (Keeps.ite (fun _ => (keeps_selRefused h)) (fun _ => (Keeps.ite (fun _ => (keeps_sendSelMap h)) (fun _ => (Keeps.ite (fun _ => (keeps_tgStart (keeps_updTg h13))) (fun _ => h13))))))

theorem keeps_nvDeferTime {s u : State} {x1} (h : Keeps s u) :
    Keeps s (State.nvDeferTime u x1) := by
  unfold State.nvDeferTime
  split
  · exact h
  · extract_lets -merge v20
    exact (Keeps.ite (fun _ => (keeps_setRegN h)) (fun _ => h))

theorem keeps_nvDefer {s u : State} {x1} (h : Keeps s u) :
    Keeps s (State.nvDefer u x1) := by
  unfold State.nvDefer
  extract_lets -merge v5 v6 v7
  have h11 : Keeps s v5 := (keeps_setF (keeps_setF h))
  have h18 : Keeps s v6 := (keeps_updPort (keeps_setF h11))
  split
  · exact (keeps_nvDeferTime h18)
  · exact (keeps_zEvOnce (keeps_updPort h18))

theorem keeps_nvTry {s u : State} {x1} (h : Keeps s u) :
    Keeps s (State.nvTry u x1) := by
  unfold State.nvTry
  refine Keeps.ite (fun _ => keeps_setF h) (fun _ => ?_)
  refine Keeps.ite (fun _ => keeps_nvDefer h) (fun _ => ?_)
  extract_lets -merge v1 v2 v3 v4 v5 v6
  have h7 : Keeps s v1 := keeps_updPort (keeps_nvDeferTime h)
  have h8 : Keeps s v4 := keeps_updHl h7
  have h9 : Keeps s v5 := keeps_updPort h8
  have h10 : Keeps s v6 := keeps_setF (keeps_setF (keeps_setF h9))
  exact keeps_send h10

theorem keeps_lifeWrite {s u : State} {x1} (h : Keeps s u) :
    Keeps s (State.lifeWrite u x1) := by
  unfold State.lifeWrite
  extract_lets -merge v13
  exact (Keeps.ite (fun _ => h) (fun _ => (Keeps.ite (fun _ => h) (fun _ => (keeps_nvTry h)))))

theorem keeps_execLifeRecordWrite {s u : State} {x0} (h : Keeps s u) :
    KeepsR s (execLifeRecordWrite x0 u) := by
  unfold execLifeRecordWrite
  exact (KeepsR.next (keeps_lifeWrite h))

theorem keeps_nvAgain {s u : State} {x1} (h : Keeps s u) :
    Keeps s (State.nvAgain u x1) := by
  unfold State.nvAgain
  exact (Keeps.ite (fun _ => (keeps_nvTry h)) (fun _ => h))

theorem keeps_nvEnd {s u : State} {x1} (h : Keeps s u) :
    Keeps s (State.nvEnd u x1) := by
  unfold State.nvEnd
  exact (keeps_updPort (keeps_setF h))

theorem keeps_nvFail {s u : State} {x1} {x2} (h : Keeps s u) :
    Keeps s (State.nvFail u x1 x2) := by
  unfold State.nvFail
  exact (keeps_zEvOnce (keeps_raise (keeps_nvEnd h)))

theorem keeps_nvBegun {s u : State} {x1} {x2} {x3} (h : Keeps s u) :
    Keeps s (State.nvBegun u x1 x2 x3) := by
  unfold State.nvBegun
  extract_lets -merge v7 v8
  have h11 : Keeps s v7 := by
    refine (Keeps.foldl h (fun _ _ _ => ?_))
    rename_i y17 y18 h19
    exact (keeps_send h19)
  have h20 : Keeps s v8 := (keeps_send h11)
  exact (Keeps.ite (fun _ => (keeps_nvFail h)) (fun _ => (Keeps.ite (fun _ => (keeps_nvDefer h11)) (fun _ => (keeps_updPort h20)))))

theorem keeps_nvCommitted {s u : State} {x1} {x2} {x3} (h : Keeps s u) :
    Keeps s (State.nvCommitted u x1 x2 x3) := by
  unfold State.nvCommitted
  extract_lets -merge v7 v8 v9
  have h13 : Keeps s v7 := (keeps_setF h)
  have h19 : Keeps s v8 := (keeps_setF (keeps_nvEnd h13))
  have h21 : Keeps s v9 := (keeps_updHl h19)
  exact (Keeps.ite (fun _ => (keeps_nvFail h13)) (fun _ => (keeps_zEvOnce h21)))

theorem keeps_regAck {s u : State} {x1} {x2} {x3} (h : Keeps s u) :
    Keeps s (State.regAck u x1 x2 x3) := by
  unfold State.regAck
  extract_lets -merge v11
  exact (Keeps.ite (fun _ => (keeps_selAck h)) (fun _ => (Keeps.ite (fun _ => (keeps_tregDone h)) (fun _ => h))))

theorem keeps_ackIn {s u : State} {x1} {x2} {x3} {x4} (h : Keeps s u) :
    Keeps s (State.ackIn u x1 x2 x3 x4) := by
  unfold State.ackIn
  extract_lets -merge v8
  refine (Keeps.ite (fun _ => (Keeps.ite (fun _ => (keeps_handoverAck (keeps_updSafeT (keeps_updPort h)))) (fun _ => h))) (fun _ => (Keeps.ite (fun _ => (keeps_regAck h)) (fun _ => (Keeps.ite (fun _ => (Keeps.ite (fun _ => (keeps_nvNext h)) (fun _ => h))) (fun _ => ?_))))))
  split
  · exact h
  · exact (Keeps.ite (fun _ => (keeps_nvBegun h)) (fun _ => (Keeps.ite (fun _ => (keeps_nvCommitted h)) (fun _ => h))))

theorem keeps_execAck {s u : State} {x0} {x1} (h : Keeps s u) :
    KeepsR s (execAck x0 x1 u) := by
  unfold execAck
  exact KeepsR.next (keeps_backIn h (fun y1 y2 y3 => Keeps.ite (fun _ => keeps_ackIn y3) (fun _ => y3)))

theorem keeps_selConfirm {s u : State} {x1} {x2} (h : Keeps s u) :
    Keeps s (State.selConfirm u x1 x2) := by
  unfold State.selConfirm
  extract_lets -merge v6 v7
  have h10 : Keeps s v7 := (keeps_updPort h)
  exact (keeps_showPending h10)

theorem keeps_selHold {s u : State} {x1} {x2} (h : Keeps s u) :
    Keeps s (State.selHold u x1 x2) := by
  unfold State.selHold
  extract_lets -merge v9
  exact (keeps_updPort h)

theorem keeps_swapAckIn {s u : State} {x1} {x2} {x3} {x4} {x5} (h : Keeps s u) :
    Keeps s (State.swapAckIn u x1 x2 x3 x4 x5) := by
  unfold State.swapAckIn
  extract_lets -merge v9 v10 v11
  have h15 : Keeps s v9 := (keeps_setRegN h)
  have h13 : Keeps s v10 := (keeps_updPort h15)
  have h14 : Keeps s v11 := (Keeps.ite (fun _ => h13) (fun _ => (keeps_zEvOnce (keeps_raise h13))))
  exact (Keeps.ite (fun _ => (keeps_darnShown (keeps_selConfirm h14))) (fun _ => (keeps_selHold h14)))

theorem keeps_execSwapAck {s u : State} {x0} {x1} (h : Keeps s u) :
    KeepsR s (execSwapAck x0 x1 u) := by
  unfold execSwapAck
  exact KeepsR.next (keeps_backIn h (fun y1 y2 y3 => Keeps.ite (fun _ => keeps_swapAckIn y3) (fun _ => y3)))

theorem keeps_execSwapAckMissing {s u : State} {x0} (h : Keeps s u) :
    KeepsR s (execSwapAckMissing x0 u) := by
  unfold execSwapAckMissing
  refine KeepsR.next ?_
  split
  · exact h
  · extract_lets -merge v22 v23
    have h31 : Keeps s v22 := (keeps_updPort h)
    have h14 : Keeps s v23 := (keeps_zEvOnce (keeps_raise h31))
    exact (keeps_darnShown (keeps_selConfirm h14))

theorem keeps_execFbAckLate {s u : State} {x0} (h : Keeps s u) :
    KeepsR s (execFbAckLate x0 u) := by
  unfold execFbAckLate
  extract_lets -merge v10
  have h16 : Keeps s v10 := (keeps_updPort h)
  exact (KeepsR.next (Keeps.ite (fun _ => h) (fun _ => (keeps_zEvOnce (keeps_raise h16)))))

theorem keeps_tileStatusIn {s u : State} {x1} {x2} {x3} {x4} {x5} (h : Keeps s u) :
    Keeps s (State.tileStatusIn u x1 x2 x3 x4 x5) := by
  unfold State.tileStatusIn
  extract_lets -merge v9 v10
  have h13 : Keeps s v10 := (keeps_setRegN (keeps_setRegN h))
  exact (Keeps.ite (fun _ => h13) (fun _ => (keeps_zEvOnce (keeps_raise h13))))

theorem keeps_execTileStatus {s u : State} {x0} {x1} (h : Keeps s u) :
    KeepsR s (execTileStatus x0 x1 u) := by
  unfold execTileStatus
  exact KeepsR.next (keeps_backIn h (fun y1 y2 y3 => Keeps.ite (fun _ => keeps_tileStatusIn y3) (fun _ => y3)))

theorem keeps_execRegData {s u : State} {x0} {x1} (h : Keeps s u) :
    KeepsR s (execRegData x0 x1 u) := by
  unfold execRegData
  exact KeepsR.next (keeps_backIn h (fun y1 y2 y3 => Keeps.ite (fun _ => keeps_tregDone (keeps_setRegN y3)) (fun _ => y3)))

theorem keeps_tregOp {s u : State} {x1} {x2} (h : Keeps s u) :
    Keeps s (State.tregOp u x1 x2) := by
  unfold State.tregOp
  extract_lets -merge v6 v7
  have h10 : Keeps s v7 := (keeps_updPort (keeps_setRegN h))
  exact (Keeps.ite (fun _ => h) (fun _ => (Keeps.ite (fun _ => h10) (fun _ => (Keeps.ite (fun _ => (keeps_send h10)) (fun _ => (keeps_send h10)))))))

theorem keeps_execTregRead {s u : State} {x0} (h : Keeps s u) :
    KeepsR s (execTregRead x0 u) := by
  unfold execTregRead
  refine (KeepsR.next (keeps_viaReg h (fun _ _ => ?_)))
  rename_i y7 h8
  exact (keeps_tregOp h8)

theorem keeps_execTregWrite {s u : State} {x0} (h : Keeps s u) :
    KeepsR s (execTregWrite x0 u) := by
  unfold execTregWrite
  refine (KeepsR.next (keeps_viaReg h (fun _ _ => ?_)))
  rename_i y7 h8
  exact (keeps_tregOp h8)

theorem keeps_execTregTimeout {s u : State} {x0} (h : Keeps s u) :
    KeepsR s (execTregTimeout x0 u) := by
  unfold execTregTimeout
  exact (KeepsR.next (Keeps.ite (fun _ => (keeps_tregDone h)) (fun _ => h)))

theorem keeps_senseIn {s u : State} {x1} {x2} (h : Keeps s u) :
    Keeps s (State.senseIn u x1 x2) := by
  unfold State.senseIn
  extract_lets -merge v6
  have h8 : Keeps s v6 := (Keeps.ite (fun _ => h) (fun _ => (keeps_blockDrop h)))
  split
  · exact h8
  · exact (Keeps.ite (fun _ => (Keeps.ite (fun _ => (keeps_hlIntake (keeps_updHl h8))) (fun _ => h8))) (fun _ => (keeps_hlClose h8)))

theorem keeps_execSenseBlock {s u : State} {x0} {x1} (h : Keeps s u) :
    KeepsR s (execSenseBlock x0 x1 u) := by
  unfold execSenseBlock
  exact (KeepsR.next (Keeps.ite (fun _ => (keeps_senseIn h)) (fun _ => h)))

theorem keeps_execNvBlock {s u : State} {x0} {x1} (h : Keeps s u) :
    KeepsR s (execNvBlock x0 x1 u) := by
  unfold execNvBlock
  exact (KeepsR.next (Keeps.ite (fun _ => (keeps_nvBlock h)) (fun _ => h)))

end Sys2Proof.Machine
end

