-- ==== Sys2Proof/Laws/KeepsHkOps.lean ====
section
/-! SUPPORT. What the operations of Machine/HkOps.lean keep (Laws/Keeps.lean). -/

namespace Sys2Proof.Machine

theorem keeps_hkEv {s u : State} {x1} {x2} {x3} (h : Keeps s u) :
    Keeps s (State.hkEv u x1 x2 x3) := by
  unfold State.hkEv
  exact (keeps_postOnce h)

theorem keeps_sensorIgnore {s u : State} {x1} {x2} (h : Keeps s u) :
    Keeps s (State.sensorIgnore u x1 x2) := by
  unfold State.sensorIgnore
  extract_lets -merge v6 v7
  have h11 : Keeps s v6 := (keeps_setF h)
  have h9 : Keeps s v7 := (keeps_raise h11)
  exact (keeps_hkEv h9)

theorem keeps_convertDie {s u : State} {x1} (h : Keeps s u) :
    Keeps s (State.convertDie u x1).2 := by
  unfold State.convertDie
  extract_lets -merge v6
  have h8 : Keeps s v6.2 := by
    refine (Keeps.foldl2 (Keeps.mk2 h) (fun _ _ _ => ?_))
    rename_i h15
    extract_lets -merge v16
    exact (Keeps.ite2 (fun _ => h15) (fun _ => (Keeps.ite2 (fun _ => (Keeps.mk2 (keeps_sensorIgnore h15))) (fun _ => (Keeps.mk2 h15)))))
  clear_value v6
  split
  · exact (Keeps.mk2 h8)
  · extract_lets -merge v19
    exact (Keeps.mk2 (keeps_setRegN h8))

theorem keeps_convertSupply {s u : State} {x1} (h : Keeps s u) :
    Keeps s (State.convertSupply u x1) := by
  unfold State.convertSupply
  refine (Keeps.foldl h (fun _ _ _ => ?_))
  rename_i y9 y10 h11
  exact (keeps_setRegN h11)

theorem keeps_supplyRound {s u : State} {x1} (h : Keeps s u) :
    Keeps s (State.supplyRound u x1) := by
  unfold State.supplyRound
  refine (Keeps.foldl h (fun _ _ _ => ?_))
  rename_i y8 y9 h10
  extract_lets -merge v8 v9
  have h12 : Keeps s v9 := (keeps_updHk h10)
  exact (Keeps.ite (fun _ => (keeps_post h12)) (fun _ => h12))

theorem keeps_tileTemps {s u : State} {x1} (h : Keeps s u) :
    Keeps s (State.tileTemps u x1).2 := by
  unfold State.tileTemps
  split
  · refine (Keeps.ite2 (fun _ => (Keeps.mk2 h)) (fun _ => (Keeps.foldl2 (Keeps.mk2 h) (fun _ _ _ => ?_))))
    rename_i h34
    extract_lets -merge v35
    exact (Keeps.ite2 (fun _ => h34) (fun _ => (Keeps.ite2 (fun _ => (Keeps.mk2 (keeps_sensorIgnore h34))) (fun _ => (Keeps.mk2 h34)))))
  · exact (Keeps.mk2 h)

theorem keeps_setTileBlocks {s u : State} {x1} {x2} (h : Keeps s u) :
    Keeps s (State.setTileBlocks u x1 x2) := by
  unfold State.setTileBlocks
  exact (keeps_updHk h)

theorem keeps_loadScale {s u : State} {x1} (h : Keeps s u) :
    Keeps s (State.loadScale u x1).2 := by
  unfold State.loadScale
  extract_lets -merge v8
  refine (Keeps.ite2 (fun _ => ?_) (fun _ => (Keeps.mk2 h)))
  split
  rename_i y23 h24
  have h28 := Keeps.pair h24 (keeps_fresh h)
  exact (Keeps.mk2 h28)

theorem keeps_takePower {s u : State} (h : Keeps s u) :
    Keeps s (State.takePower u) := by
  unfold State.takePower
  extract_lets -merge v15 v16 v17
  have h29 : Keeps s v15 := (keeps_updHk h)
  have h8 : Keeps s v17 := (keeps_setF (keeps_updHk h29))
  exact (Keeps.ite (fun _ => (keeps_setF (keeps_updHk h29))) (fun _ => (Keeps.ite (fun _ => (keeps_hkEv h8)) (fun _ => h29))))

theorem keeps_modelTile {s u : State} {x1} {x2} {x3} {x4} {x5} (h : Keeps s u) :
    Keeps s (State.modelTile u x1 x2 x3 x4 x5) := by
  unfold State.modelTile
  extract_lets -merge v9
  refine (Keeps.ite (fun _ => (keeps_updHk (keeps_setTileBlocks h))) (fun _ => ?_))
  split
  rename_i y34 h35
  have h36 := Keeps.pair h35 (Keeps.ite2 (fun _ => (Keeps.mk2 h)) (fun _ => (Keeps.ite2 (fun _ => (keeps_loadScale h)) (fun _ => (Keeps.mk2 h)))))
  exact (keeps_updHk (keeps_setTileBlocks h36))

theorem keeps_judgeSensor {s u : State} {x1} {x2} {x3} (h : Keeps s u) :
    Keeps s (State.judgeSensor u x1 x2 x3).2 := by
  unfold State.judgeSensor
  extract_lets -merge v8 v9 v10 v11 v12 v13 v14 v15 v16
  have h26 : Keeps s v14 := (keeps_updHk h)
  exact (Keeps.ite2 (fun _ => (Keeps.mk2 h26)) (fun _ => (Keeps.mk2 (keeps_sensorIgnore h26))))

theorem keeps_anchor {s u : State} {x1} {x2} (h : Keeps s u) :
    Keeps s (State.anchor u x1 x2).2 := by
  unfold State.anchor
  extract_lets -merge v11
  have h14 : Keeps s v11.2 := by
    refine (Keeps.foldl2 (Keeps.mk2 h) (fun _ _ _ => ?_))
    rename_i h34
    split
    rename_i y48 h49
    have h50 := Keeps.pair h49 (keeps_judgeSensor h34)
    exact (Keeps.mk2 h50)
  clear_value v11
  split
  · exact (Keeps.mk2 h14)
  · extract_lets -merge v18
    exact (Keeps.mk2 (keeps_updHk h14))

theorem keeps_blockRound {s u : State} {x1} {x2} (h : Keeps s u) :
    Keeps s (State.blockRound u x1 x2).2 := by
  unfold State.blockRound
  extract_lets -merge v6 v7 v8 v9 v10
  have h17 : Keeps s v10 := by
    refine (Keeps.foldl h (fun _ _ _ => ?_))
    rename_i y28 y29 h30
    extract_lets -merge v31 v32 v33 v34 v35
    have h45 : Keeps s v34 := (keeps_updHk h30)
    have h47 : Keeps s v35 := (keeps_setRegN h45)
    exact (keeps_setRegN h47)
  exact (Keeps.mk2 h17)

theorem keeps_tileCut {s u : State} {x1} {x2} (h : Keeps s u) :
    Keeps s (State.tileCut u x1 x2) := by
  unfold State.tileCut
  extract_lets -merge v14 v15 v16 v17 v18
  have h24 : Keeps s v17 := (keeps_setB h)
  have h37 : Keeps s v18 := (Keeps.ite (fun _ => (keeps_hkEv h24)) (fun _ => (keeps_hkEv h24)))
  exact (Keeps.ite (fun _ => h) (fun _ => (keeps_updateSS h37)))

theorem keeps_tileRound {s u : State} {x1} {x2} (h : Keeps s u) :
    Keeps s (State.tileRound u x1 x2) := by
  have hr := keeps_blockRound (x1 := x1) (x2 := x2) h
  unfold State.tileRound
  generalize State.blockRound u x1 x2 = r at hr ⊢
  obtain ⟨test, v⟩ := r
  replace hr : Keeps s v := hr
  dsimp only
  generalize (blocksCrossed x1 u.hk.derate).isEmpty = was
  generalize blocksCrossed x1 v.hk.derate = now
  refine keeps_updHl (keeps_setRegN (keeps_setRegN (keeps_setRegN (keeps_tileCut ?_))))
  cases was <;> cases now
  · exact keeps_hkEv hr
  · exact hr
  · exact hr
  · exact keeps_hkEv hr

theorem keeps_dieRound {s u : State} {x1} (h : Keeps s u) :
    Keeps s (State.dieRound u x1) := by
  unfold State.dieRound
  split
  · exact h
  · extract_lets -merge v4 v5 v6 v7 v8
    have h9 : Keeps s v6 := Keeps.ite (fun _ => h) (fun _ => keeps_beSettle h)
    have h10 : Keeps s v7 := keeps_updHk h9
    have h11 : Keeps s v8 := keeps_setB h10
    split
    extract_lets -merge v16
    have h17 : Keeps s v16 := Keeps.ite (fun _ => keeps_hkEv h11) (fun _ => h11)
    exact Keeps.ite (fun _ => keeps_hkEv (keeps_assertFault h17)) (fun _ => Keeps.ite (fun _ => keeps_releaseFault h17) (fun _ => h17))

theorem keeps_hlvStamp {s u : State} (h : Keeps s u) :
    Keeps s (State.hlvStamp u) := by
  unfold State.hlvStamp
  extract_lets -merge v7 v8
  exact (keeps_setRegN (Keeps.upd h))

theorem keeps_hkRoundOp {s u : State} {x1} (h : Keeps s u) :
    Keeps s (State.hkRoundOp u x1) := by
  unfold State.hkRoundOp
  extract_lets -merge v5 v6
  refine (Keeps.ite (fun _ => h) (fun _ => ?_))
  split
  rename_i y19 h20
  have h21 := Keeps.pair h20 (keeps_convertDie h)
  extract_lets -merge v24 v25 v26 v27 v28 v29 v30 v31
  have h23 : Keeps s v24 := (keeps_supplyRound (keeps_convertSupply h21))
  have h27 : Keeps s v26 := (keeps_takePower h23)
  have h29 : Keeps s v27.2 := by
    refine (Keeps.foldl2 (Keeps.mk2 h27) (fun _ _ _ => ?_))
    rename_i h45
    split
    rename_i y69 h70
    have h71 := Keeps.pair h70 (keeps_tileTemps h45)
    split
    rename_i y88 h89
    have h90 := Keeps.pair h89 (keeps_anchor (keeps_modelTile h71))
    extract_lets -merge v92
    exact (Keeps.mk2 (keeps_tileRound h90))
  clear_value v27
  have h77 : Keeps s v28 := (keeps_dieRound (keeps_setB h29))
  have h79 : Keeps s v29 := (keeps_setRegN h77)
  have h81 : Keeps s v30 := (keeps_hlvStamp (keeps_updHk h79))
  have h83 : Keeps s v31 := by
    refine (Keeps.foldl h81 (fun _ _ _ => ?_))
    rename_i y90 y91 h92
    exact (keeps_nvAgain h92)
  exact (keeps_setRegN h83)

theorem keeps_execHkRound {s u : State} {x0} (h : Keeps s u) :
    KeepsR s (execHkRound x0 u) := by
  unfold execHkRound
  exact (KeepsR.next (Keeps.ite (fun _ => h) (fun _ => (keeps_hkRoundOp h))))

theorem keeps_execRoundLate {s u : State} {x0} (h : Keeps s u) :
    KeepsR s (execRoundLate x0 u) := by
  unfold execRoundLate
  extract_lets -merge v5
  have h7 : Keeps s v5 := (keeps_hkEv (keeps_raise h))
  exact (KeepsR.next (Keeps.ite (fun _ => h) (fun _ => (keeps_hkRoundOp h7))))

theorem keeps_hkConvert {s u : State} {x1} {x2} (h : Keeps s u) :
    Keeps s (State.hkConvert u x1 x2) := by
  unfold State.hkConvert
  refine (Keeps.ite (fun _ => h) (fun _ => ?_))
  split
  · exact (keeps_convertDie h)
  · exact (keeps_convertSupply h)
  · exact (keeps_hkRoundOp h)

theorem keeps_freeReadings {s u : State} (h : Keeps s u) :
    Keeps s (State.freeReadings u).2 := by
  unfold State.freeReadings
  extract_lets -merge v5
  have h7 : Keeps s v5.2 := by
    refine (Keeps.foldl2 (Keeps.mk2 h) (fun _ _ _ => ?_))
    rename_i h15
    split
    rename_i y39 h40
    have h41 := Keeps.pair h40 (keeps_fresh h15)
    exact (Keeps.mk2 h41)
  clear_value v5
  exact (Keeps.mk2 h7)

end Sys2Proof.Machine
end

