-- ==== Sys2Proof/Laws/KeepsSched.lean ====
section
/-! SUPPORT. What the operations of Machine/Sched.lean keep (Laws/Keeps.lean). -/

namespace Sys2Proof.Machine


theorem keeps_updTime {s u : State} {x1} (h : Keeps s u) :
    Keeps s (State.updTime u x1) := by
  unfold State.updTime
  exact (Keeps.upd h)

theorem keeps_pulse {s u : State} {x1} {x2} (h : Keeps s u) :
    Keeps s (State.pulse u x1 x2) := by
  unfold State.pulse
  extract_lets -merge v6
  exact (keeps_updTime h)

theorem keeps_sweepStart {s u : State} {x1} (h : Keeps s u) :
    Keeps s (State.sweepStart u x1) := by
  unfold State.sweepStart
  refine (Keeps.foldl h (fun _ _ _ => ?_))
  rename_i y10 y11 h12
  exact (Keeps.ite (fun _ => (keeps_updHl h12)) (fun _ => h12))

theorem keeps_schedAct {s u : State} {x1} {x2} {x3} (h : Keeps s u) :
    Keeps s (State.schedAct u x1 x2 x3) := by
  unfold State.schedAct
  extract_lets -merge v7 v8
  split
  · exact (keeps_post h)
  · exact (keeps_pulse h)
  · exact (Keeps.ite (fun _ => (Keeps.upd h)) (fun _ => h))
  · exact (keeps_sweepStart h)
  · exact (keeps_hkConvert h)
  · exact (keeps_timingCommit h)
  · refine (Keeps.foldl h (fun _ _ _ => ?_))
    rename_i y24 y25 h26
    exact (Keeps.ite (fun _ => (keeps_trigger h26)) (fun _ => h26))
  · exact h

theorem keeps_schedExec {s u : State} {x1} {x2} {x3} {x4} (h : Keeps s u) :
    Keeps s (State.schedExec u x1 x2 x3 x4) := by
  unfold State.schedExec
  extract_lets -merge v8 v9
  have h12 : Keeps s v8 := (keeps_schedAct h)
  have h14 : Keeps s v9 := (keeps_setF (keeps_setF h12))
  exact (keeps_setRegN h14)

theorem keeps_schedLate {s u : State} {x1} {x2} (h : Keeps s u) :
    Keeps s (State.schedLate u x1 x2) := by
  unfold State.schedLate
  extract_lets -merge v6 v7 v8 v9
  have h10 : Keeps s v8 := (keeps_raise (keeps_setF h))
  have h12 : Keeps s v9 := by
    refine (Keeps.ite (fun _ => ?_) (fun _ => (keeps_post h10)))
    split
    rename_i y25 h26
    have h27 := Keeps.pair h26 (Keeps.ite2 (fun _ => (keeps_freeReadings h)) (fun _ => (Keeps.mk2 h)))
    extract_lets -merge v19
    have h21 : Keeps s v19 := (keeps_raise (keeps_schedExec h27))
    exact (keeps_post h21)
  exact (Keeps.ite (fun _ => (keeps_setSched h12)) (fun _ => (keeps_schedStop h12)))

theorem keeps_schedArm {s u : State} {x1} (h : Keeps s u) :
    Keeps s (State.schedArm u x1).2 := by
  unfold State.schedArm
  extract_lets -merge v7 v8 v9
  have h13 : Keeps s v8 := (keeps_setSched h)
  have h9 : Keeps s v9 := (keeps_setF (keeps_setSched h13))
  exact (Keeps.ite2 (fun _ => (Keeps.mk2 (keeps_schedReject h13))) (fun _ => (Keeps.ite2 (fun _ => (Keeps.mk2 (keeps_setF (keeps_setSched h13)))) (fun _ => (Keeps.ite2 (fun _ => (Keeps.mk2 (keeps_schedReject h13))) (fun _ => (Keeps.ite2 (fun _ => (Keeps.mk2 h9)) (fun _ => (Keeps.mk2 (keeps_schedLate h9))))))))))

theorem keeps_schedAfter {s u : State} {x1} {x2} (h : Keeps s u) :
    Keeps s (State.schedAfter u x1 x2) := by
  unfold State.schedAfter
  refine Keeps.ite (fun _ => keeps_schedStop h) (fun _ => ?_)
  refine Keeps.ite (fun _ => ?_) (fun _ => keeps_setSched h)
  extract_lets -merge v1 v2
  have h3 : Keeps s v2 := keeps_setSched h
  exact Keeps.ite (fun _ => h3) (fun _ => keeps_schedLate h3)

theorem keeps_schedMatch {s u : State} {x1} {x2} {x3} (h : Keeps s u) :
    Keeps s (State.schedMatch u x1 x2 x3) := by
  unfold State.schedMatch
  split
  · exact h
  · exact (Keeps.ite (fun _ => h) (fun _ => (keeps_schedAfter (keeps_schedExec h))))

theorem keeps_schedOff {s u : State} {x1} (h : Keeps s u) : Keeps s (State.schedOff u x1) := by
  unfold State.schedOff
  refine keeps_schedStop ?_
  split
  · refine Keeps.ite (fun _ => h) (fun _ => Keeps.ite (fun _ => ?_) (fun _ => keeps_schedMatch h))
    split
    rename_i e
    exact keeps_schedMatch (Keeps.pair e (keeps_freeReadings h))
  · exact h

theorem keeps_schedCfg {s u : State} {x1} {x2} (h : Keeps s u) :
    Keeps s (State.schedCfg u x1 x2) := by
  unfold State.schedCfg
  extract_lets -merge v1
  have h2 : Keeps s v1 := keeps_setRegN h
  exact Keeps.ite (fun _ => keeps_schedArm h2) (fun _ => keeps_schedOff h2)

theorem keeps_execSchedArm {s u : State} {x0} {x1} (h : Keeps s u) :
    KeepsR s (execSchedArm x0 x1 u) := by
  unfold execSchedArm
  refine (KeepsR.next (keeps_viaRegV h (fun _ _ _ => ?_)))
  rename_i y12 h13
  exact (keeps_schedCfg h13)

theorem keeps_execSchedDisarm {s u : State} {x0} (h : Keeps s u) :
    KeepsR s (execSchedDisarm x0 u) := by
  unfold execSchedDisarm
  exact KeepsR.next (keeps_viaReg h (fun y1 y2 => keeps_schedOff y2))

theorem keeps_schedTarget {s u : State} {x1} {x2} (h : Keeps s u) :
    Keeps s (State.schedTarget u x1 x2) := by
  unfold State.schedTarget
  extract_lets -merge v6
  have h7 : Keeps s v6 := (keeps_setReg h)
  exact (Keeps.ite (fun _ => (keeps_schedArm h7)) (fun _ => h7))

theorem keeps_execSchedTargetWrite {s u : State} {x0} {x1} (h : Keeps s u) :
    KeepsR s (execSchedTargetWrite x0 x1 u) := by
  unfold execSchedTargetWrite
  refine (KeepsR.next (keeps_viaRegV h (fun _ _ _ => ?_)))
  rename_i y11 h12
  exact (keeps_schedTarget h12)

theorem keeps_execEventPost {s u : State} {x0} (h : Keeps s u) :
    KeepsR s (execEventPost x0 u) := by
  unfold execEventPost
  exact (KeepsR.next (keeps_schedMatch h))

theorem keeps_execTrgPulse {s u : State} {x0} (h : Keeps s u) :
    KeepsR s (execTrgPulse x0 u) := by
  unfold execTrgPulse
  exact (KeepsR.next (keeps_schedMatch h))

theorem keeps_execSlotFire {s u : State} {x0} (h : Keeps s u) :
    KeepsR s (execSlotFire x0 u) := by
  unfold execSlotFire
  exact (KeepsR.next (keeps_schedMatch h))

theorem keeps_execSweepStart {s u : State} {x0} (h : Keeps s u) :
    KeepsR s (execSweepStart x0 u) := by
  unfold execSweepStart
  exact (KeepsR.next (keeps_schedMatch h))

theorem keeps_execHkConvert {s u : State} {x0} {x1} (h : Keeps s u) :
    KeepsR s (execHkConvert x0 x1 u) := by
  unfold execHkConvert
  exact (KeepsR.next (keeps_schedMatch h))

theorem keeps_execFramePhase {s u : State} {x0} (h : Keeps s u) :
    KeepsR s (execFramePhase x0 u) := by
  unfold execFramePhase
  exact (KeepsR.next (keeps_schedMatch h))

theorem keeps_execBeWake {s u : State} {x0} (h : Keeps s u) :
    KeepsR s (execBeWake x0 u) := by
  unfold execBeWake
  exact (KeepsR.next (keeps_schedMatch h))

theorem keeps_pwrWake {s u : State} {x1} (h : Keeps s u) :
    Keeps s (State.pwrWake u x1) := by
  unfold State.pwrWake
  split
  · exact h
  · exact Keeps.ite (fun _ => h) (fun _ => Keeps.ite (fun _ => keeps_schedMatch h) (fun _ => Keeps.ite (fun _ => keeps_wakeNote h) (fun _ => h)))

theorem keeps_execPwrWake {s u : State} {x0} (h : Keeps s u) :
    KeepsR s (execPwrWake x0 u) := by
  unfold execPwrWake
  exact (KeepsR.next (keeps_pwrWake h))

theorem keeps_schedStep {s u : State} (h : Keeps s u) :
    Keeps s (State.schedStep u) := by
  unfold State.schedStep
  refine (Keeps.foldl h (fun _ _ _ => ?_))
  rename_i y9 y10 h11
  split
  · exact h11
  · exact (Keeps.ite (fun _ => h11) (fun _ => (Keeps.ite (fun _ => (keeps_schedLate h11)) (fun _ => (Keeps.ite (fun _ => (keeps_schedReject h11)) (fun _ => h11))))))

theorem keeps_pulseEnd {s u : State} {x1} (h : Keeps s u) :
    Keeps s (State.pulseEnd u x1) := by
  unfold State.pulseEnd
  split
  · exact (Keeps.ite (fun _ => (keeps_updTime h)) (fun _ => h))
  · exact h

theorem keeps_execTrgPulseEnd {s u : State} {x0} (h : Keeps s u) :
    KeepsR s (execTrgPulseEnd x0 u) := by
  unfold execTrgPulseEnd
  exact (KeepsR.next (keeps_pulseEnd h))

theorem keeps_capEdge {s u : State} {x1} {x2} (h : Keeps s u) :
    Keeps s (State.capEdge u x1 x2) := by
  unfold State.capEdge
  extract_lets -merge v14 v15 v16 v17 v18
  have h24 : Keeps s v14 := (keeps_updTime h)
  have h28 : Keeps s v17 := (keeps_updTime h24)
  have h13 : Keeps s v18 := (keeps_setRegN h28)
  exact (Keeps.ite (fun _ => h) (fun _ => (Keeps.ite (fun _ => (keeps_postGap (keeps_raise h24))) (fun _ => (Keeps.ite (fun _ => (keeps_post h13)) (fun _ => h13))))))

theorem keeps_execCapEdge {s u : State} {x0} {x1} (h : Keeps s u) :
    KeepsR s (execCapEdge x0 x1 u) := by
  unfold execCapEdge
  exact (KeepsR.next (keeps_capEdge h))

theorem keeps_capRead {s u : State} {x1} (h : Keeps s u) :
    Keeps s (State.capRead u x1).2 := by
  unfold State.capRead
  split
  · exact (Keeps.mk2 h)
  · extract_lets -merge v24 v25
    have h28 : Keeps s v24 := (keeps_updTime h)
    have h30 : Keeps s v25 := (keeps_setRegN (keeps_setRegN h28))
    exact (Keeps.mk2 h30)

theorem keeps_execCapTsHiRead {s u : State} {x0} (h : Keeps s u) :
    KeepsR s (execCapTsHiRead x0 u) := by
  unfold execCapTsHiRead
  refine KeepsR.next ?_
  refine keeps_inCore h ?_
  intro y1
  intro y2
  split
  rename_i e6
  have h7 := Keeps.pair e6 (keeps_capRead y2)
  exact Keeps.upd h7

end Sys2Proof.Machine
end

