-- ==== Sys2Proof/Laws/KeepsTimeOps.lean ====
section
/-! SUPPORT. What the operations of Machine/TimeOps.lean keep (Laws/Keeps.lean). -/

namespace Sys2Proof.Machine

theorem keeps_setResid {s u : State} {x1} (h : Keeps s u) :
    Keeps s (State.setResid u x1) := by
  unfold State.setResid
  exact (keeps_setB (keeps_updTime h))

theorem keeps_absorb {s u : State} {x1} (h : Keeps s u) :
    Keeps s (State.absorb u x1) := by
  unfold State.absorb
  exact (keeps_setResid h)

theorem keeps_timeStepOp {s u : State} (h : Keeps s u) :
    Keeps s (State.timeStepOp u) := by
  unfold State.timeStepOp
  extract_lets -merge v1 v2 v3 v4 v5 v6 v7
  have h8 : Keeps s v3 := keeps_setResid h
  have h9 : Keeps s v4 := keeps_post (keeps_raise h8)
  have h13 : Keeps s v5 := Keeps.foldl h9 (fun y10 y11 h12 => keeps_updTg h12)
  have h14 : Keeps s v7 := Keeps.upd h13
  exact Keeps.ite (fun _ => h) (fun _ => keeps_rephase (keeps_schedStep h14))

theorem keeps_execTimeStep {s u : State} (h : Keeps s u) :
    KeepsR s (execTimeStep u) := by
  unfold execTimeStep
  exact (KeepsR.next (keeps_timeStepOp h))

theorem keeps_slewEnd {s u : State} (h : Keeps s u) :
    Keeps s (State.slewEnd u) := by
  unfold State.slewEnd
  exact (Keeps.ite (fun _ => (keeps_setResid h)) (fun _ => h))

theorem keeps_execSlewEnd {s u : State} (h : Keeps s u) :
    KeepsR s (execSlewEnd u) := by
  unfold execSlewEnd
  exact (KeepsR.next (keeps_slewEnd h))

theorem keeps_switchTo {s u : State} {x1} {x2} (h : Keeps s u) :
    Keeps s (State.switchTo u x1 x2) := by
  unfold State.switchTo
  extract_lets -merge v6 v7
  have h10 : Keeps s v7 := (keeps_absorb (keeps_setF h))
  exact (keeps_post h10)

theorem keeps_setHoldover {s u : State} {x1} (h : Keeps s u) :
    Keeps s (State.setHoldover u x1) := by
  unfold State.setHoldover
  exact (Keeps.ite (fun _ => h) (fun _ => (keeps_post (keeps_setB h))))

theorem keeps_freshCheck {s u : State} {x1} (h : Keeps s u) :
    Keeps s (State.freshCheck u x1) := by
  unfold State.freshCheck
  extract_lets -merge v5
  exact (Keeps.ite (fun _ => (keeps_setHoldover h)) (fun _ => (Keeps.ite (fun _ => (Keeps.ite (fun _ => (keeps_setHoldover (keeps_switchTo h))) (fun _ => (keeps_setHoldover h)))) (fun _ => h))))

theorem keeps_domainStale {s u : State} (h : Keeps s u) :
    Keeps s (State.domainStale u) := by
  unfold State.domainStale
  extract_lets -merge v5 v6 v7
  exact (Keeps.ite (fun _ => h) (fun _ => (keeps_freshCheck (keeps_setDom h))))

theorem keeps_execDomainStale {s u : State} (h : Keeps s u) :
    KeepsR s (execDomainStale u) := by
  unfold execDomainStale
  exact (KeepsR.next (keeps_domainStale h))

theorem keeps_showDom {s u : State} {x1} (h : Keeps s u) :
    Keeps s (State.showDom u x1) := by
  unfold State.showDom
  extract_lets -merge v5 v6 v7
  have h15 : Keeps s v6 := (keeps_setPair (keeps_setRegN h))
  have h18 : Keeps s v7 := (keeps_setRegN (keeps_setRegN h15))
  exact (keeps_setPair h18)

theorem keeps_domUpdate {s u : State} {x1} {x2} (h : Keeps s u) :
    Keeps s (State.domUpdate u x1 x2) := by
  unfold State.domUpdate
  extract_lets -merge v9 v10 v11 v12
  have h18 : Keeps s v11 := (keeps_showDom (keeps_setDom h))
  have h21 : Keeps s v12 := (Keeps.ite (fun _ => (keeps_absorb h18)) (fun _ => h18))
  exact (keeps_freshCheck h21)

theorem keeps_setRate {s u : State} {x1} {x2} (h : Keeps s u) :
    Keeps s (State.setRate u x1 x2) := by
  unfold State.setRate
  extract_lets -merge v6
  exact (keeps_domUpdate h)

theorem keeps_incrRefused {s u : State} {x1} {x2} (h : Keeps s u) :
    Keeps s (State.incrRefused u x1 x2) := by
  unfold State.incrRefused
  extract_lets -merge v7
  have h7 : Keeps s v7 := (keeps_raise (keeps_showDom h))
  exact (keeps_post h7)

theorem keeps_incrWrite {s u : State} {x1} {x2} (h : Keeps s u) :
    Keeps s (State.incrWrite u x1 x2) := by
  unfold State.incrWrite
  extract_lets -merge v6
  exact (Keeps.ite (fun _ => (keeps_incrRefused h)) (fun _ => (Keeps.ite (fun _ => (keeps_incrRefused h)) (fun _ => (keeps_setRate h)))))

theorem keeps_execIncrWrite {s u : State} {x0} {x1} (h : Keeps s u) :
    KeepsR s (execIncrWrite x0 x1 u) := by
  unfold execIncrWrite
  refine (KeepsR.next (keeps_viaRegV h (fun _ _ _ => ?_)))
  rename_i y13 h14
  exact (keeps_incrWrite h14)

theorem keeps_offsetWrite {s u : State} {x1} {x2} (h : Keeps s u) :
    Keeps s (State.offsetWrite u x1 x2) := by
  unfold State.offsetWrite
  extract_lets -merge v7 v8
  exact (keeps_domUpdate h)

theorem keeps_execOffsetWrite {s u : State} {x0} {x1} (h : Keeps s u) :
    KeepsR s (execOffsetWrite x0 x1 u) := by
  unfold execOffsetWrite
  refine (KeepsR.next (keeps_viaRegV h (fun _ _ _ => ?_)))
  rename_i y11 h12
  exact (keeps_offsetWrite h12)

theorem keeps_adjust {s u : State} {x1} {x2} (h : Keeps s u) :
    Keeps s (State.adjust u x1 x2) := by
  unfold State.adjust
  extract_lets -merge v6
  exact (keeps_domUpdate h)

theorem keeps_execAdjWrite {s u : State} {x0} {x1} (h : Keeps s u) :
    KeepsR s (execAdjWrite x0 x1 u) := by
  unfold execAdjWrite
  refine (KeepsR.next (keeps_viaRegV h (fun _ _ _ => ?_)))
  rename_i y12 h13
  exact (keeps_adjust h13)

theorem keeps_servo {s u : State} {x1} {x2} (h : Keeps s u) :
    Keeps s (State.servo u x1 x2) := by
  unfold State.servo
  extract_lets -merge v6 v7 v8 v9 v10 v11 v12
  have h13 : Keeps s v11 := (keeps_setB (keeps_setRegN h))
  have h21 : Keeps s v12 := (Keeps.ite (fun _ => (keeps_post h13)) (fun _ => h13))
  exact (Keeps.ite (fun _ => h) (fun _ => (Keeps.ite (fun _ => (keeps_adjust (keeps_setRegN h))) (fun _ => (keeps_setRate h21)))))

theorem keeps_execOffsetMeasWrite {s u : State} {x0} {x1} (h : Keeps s u) :
    KeepsR s (execOffsetMeasWrite x0 x1 u) := by
  unfold execOffsetMeasWrite
  refine (KeepsR.next (keeps_viaRegV h (fun _ _ _ => ?_)))
  rename_i y12 h13
  exact (keeps_servo h13)

theorem keeps_snapCmd {s u : State} {x1} (h : Keeps s u) :
    Keeps s (State.snapCmd u x1) := by
  unfold State.snapCmd
  extract_lets -merge v6 v7 v8 v9 v10
  have h16 : Keeps s v7 := h
  have h11 : Keeps s v8 := (keeps_setRegN (keeps_setPair h))
  have h13 : Keeps s v9 := (keeps_setPair h11)
  have h18 : Keeps s v10 := (keeps_setPair h13)
  exact (Keeps.ite (fun _ => h) (fun _ => (keeps_setPair h18)))

theorem keeps_execSnapCmd {s u : State} {x0} (h : Keeps s u) :
    KeepsR s (execSnapCmd x0 u) := by
  unfold execSnapCmd
  refine (KeepsR.next (keeps_viaRegV h (fun _ _ _ => ?_)))
  rename_i y15 h16
  exact (keeps_snapCmd h16)

theorem keeps_ltRead {s u : State} (h : Keeps s u) :
    Keeps s (State.ltRead u).2 := by
  unfold State.ltRead
  exact (Keeps.mk2 (keeps_setRegN h))

theorem keeps_execLtLoRead {s u : State} (h : Keeps s u) :
    KeepsR s (execLtLoRead u) := by
  unfold execLtLoRead
  refine KeepsR.next ?_
  refine keeps_inCore h ?_
  intro y1
  intro y2
  split
  rename_i e6
  have h7 := Keeps.pair e6 (keeps_ltRead y2)
  exact Keeps.upd h7

theorem keeps_ctrlWrite {s u : State} {x1} (h : Keeps s u) :
    Keeps s (State.ctrlWrite u x1) := by
  unfold State.ctrlWrite
  extract_lets -merge v5 v6
  have h9 : Keeps s v6 := (keeps_setF h)
  exact (keeps_freshCheck (Keeps.ite (fun _ => h9) (fun _ => (keeps_switchTo h9))))

theorem keeps_execDomainSwitch {s u : State} {x0} (h : Keeps s u) :
    KeepsR s (execDomainSwitch x0 u) := by
  unfold execDomainSwitch
  refine (KeepsR.next (keeps_viaRegV h (fun _ _ _ => ?_)))
  rename_i y12 h13
  exact (keeps_ctrlWrite h13)

theorem keeps_setGptp {s u : State} {x1} {x2} (h : Keeps s u) :
    Keeps s (State.setGptp u x1 x2) := by
  unfold State.setGptp
  exact (keeps_updTime h)

theorem keeps_gptpLose {s u : State} {x1} {x2} (h : Keeps s u) :
    Keeps s (State.gptpLose u x1 x2) := by
  unfold State.gptpLose
  extract_lets -merge v6 v7 v8 v9
  have h10 : Keeps s v7 := (keeps_setGptp h)
  exact (Keeps.ite (fun _ => h10) (fun _ => (keeps_freshCheck (keeps_post (keeps_setF h10)))))

theorem keeps_gptpGood {s u : State} {x1} {x2} {x3} (h : Keeps s u) :
    Keeps s (State.gptpGood u x1 x2 x3) := by
  unfold State.gptpGood
  extract_lets -merge v1 v2 v3 v4
  have h5 : Keeps s v4 := keeps_setGptp h
  exact Keeps.ite (fun _ => h5) (fun _ => keeps_freshCheck (keeps_post (keeps_setF h5)))

theorem keeps_gptpSync {s u : State} {x1} {x2} (h : Keeps s u) :
    Keeps s (State.gptpSync u x1 x2) := by
  unfold State.gptpSync
  split
  · exact h
  · refine Keeps.ite (fun _ => h) (fun _ => ?_)
    extract_lets -merge v6 v7
    split
    · exact keeps_gptpGood (keeps_setGptp h)
    · exact keeps_setGptp h
    · split
      · exact h
      · exact keeps_gptpGood (keeps_setGptp h)

theorem keeps_execGptpSync {s u : State} {x0} {x1} (h : Keeps s u) :
    KeepsR s (execGptpSync x0 x1 u) := by
  unfold execGptpSync
  exact (KeepsR.next (keeps_gptpSync h))

theorem keeps_gptpAnnounce {s u : State} {x1} {x2} (h : Keeps s u) :
    Keeps s (State.gptpAnnounce u x1 x2) := by
  unfold State.gptpAnnounce
  split
  · exact h
  · exact (Keeps.ite (fun _ => h) (fun _ => (keeps_gptpLose h)))

theorem keeps_execGptpAnnounce {s u : State} {x0} {x1} (h : Keeps s u) :
    KeepsR s (execGptpAnnounce x0 x1 u) := by
  unfold execGptpAnnounce
  exact (KeepsR.next (keeps_gptpAnnounce h))

theorem keeps_gptpLost {s u : State} {x1} {x2} (h : Keeps s u) :
    Keeps s (State.gptpLost u x1 x2) := by
  unfold State.gptpLost
  split
  · exact h
  · exact Keeps.ite (fun _ => h) (fun _ => keeps_gptpLose h)

theorem keeps_execGptpLost {s u : State} {x0} {x1} (h : Keeps s u) :
    KeepsR s (execGptpLost x0 x1 u) := by
  unfold execGptpLost
  exact KeepsR.next (keeps_gptpLost h)

theorem keeps_gptpPdelay {s u : State} {x1} {x2} (h : Keeps s u) :
    Keeps s (State.gptpPdelay u x1 x2) := by
  unfold State.gptpPdelay
  refine Keeps.ite (fun _ => h) (fun _ => ?_)
  split
  · extract_lets -merge v2
    exact keeps_updTime (keeps_ethOut h)
  · exact keeps_ethOut (keeps_ethOut h)
  · split
    · exact h
    · refine Keeps.ite (fun _ => h) (fun _ => ?_)
      extract_lets -merge v15 v16
      have h17 : Keeps s v16 := keeps_updTime h
      exact Keeps.foldl h17 (fun y18 y19 h20 => Keeps.ite (fun _ => keeps_setGptp h20) (fun _ => h20))

theorem keeps_execGptpPdelay {s u : State} {x0} {x1} (h : Keeps s u) :
    KeepsR s (execGptpPdelay x0 x1 u) := by
  unfold execGptpPdelay
  exact (KeepsR.next (keeps_gptpPdelay h))

theorem keeps_gptpSignal {s u : State} {x1} {x2} (h : Keeps s u) :
    Keeps s (State.gptpSignal u x1 x2) := by
  unfold State.gptpSignal
  extract_lets -merge v6
  exact (Keeps.ite (fun _ => h) (fun _ => (keeps_setGptp h)))

theorem keeps_execGptpSignalling {s u : State} {x0} {x1} (h : Keeps s u) :
    KeepsR s (execGptpSignalling x0 x1 u) := by
  unfold execGptpSignalling
  exact (KeepsR.next (keeps_gptpSignal h))

end Sys2Proof.Machine
end

