-- ==== Sys2Proof/Laws/KeepsHostOps.lean ====
section
/-! SUPPORT. What the operations of Machine/HostOps.lean keep (Laws/Keeps.lean). -/

namespace Sys2Proof.Machine

theorem keeps_sendRec {s u : State} {x1} {x2} {x3} {x4} {x5} (h : Keeps s u) :
    Keeps s (State.sendRec u x1 x2 x3 x4 x5) := by
  unfold State.sendRec
  extract_lets -merge v9 v10 v11 v12 v13
  have h14 : Keeps s v10 := (keeps_setRegN h)
  have h15 : Keeps s v13 := (keeps_updHost h14)
  exact (Keeps.ite (fun _ => (Keeps.ite (fun _ => (keeps_bump h15)) (fun _ => h15))) (fun _ => (keeps_ethOut h14)))

theorem keeps_replyWith {s u : State} {x1} {x2} {x3} {x4} {x5} {x6} {x7} (h : Keeps s u) :
    Keeps s (State.replyWith u x1 x2 x3 x4 x5 x6 x7) := by
  unfold State.replyWith
  exact (keeps_sendRec h)

theorem keeps_ackRec {s u : State} {x1} {x2} {x3} {x4} (h : Keeps s u) :
    Keeps s (State.ackRec u x1 x2 x3 x4) := by
  unfold State.ackRec
  exact (keeps_replyWith h)

theorem keeps_nakRec {s u : State} {x1} {x2} {x3} {x4} {x5} {x6} (h : Keeps s u) :
    Keeps s (State.nakRec u x1 x2 x3 x4 x5 x6) := by
  unfold State.nakRec
  exact (keeps_replyWith (keeps_raise h))

theorem keeps_stateRec {s u : State} {x1} {x2} {x3} (h : Keeps s u) :
    Keeps s (State.stateRec u x1 x2 x3) := by
  unfold State.stateRec
  extract_lets -merge v8
  exact (keeps_sendRec h)

end Sys2Proof.Machine
end

