-- ==== Sys2Proof/Laws/KeepsLoader.lean ====
section
/-! SUPPORT. What the operations of Machine/Loader.lean keep (Laws/Keeps.lean). -/

namespace Sys2Proof.Machine

theorem keeps_setBs {s u : State} {x1} (h : Keeps s u) :
    Keeps s (State.setBs u x1) := by
  unfold State.setBs
  exact (keeps_setF h)

theorem keeps_updLoader {s u : State} {x1} (h : Keeps s u) :
    Keeps s (State.updLoader u x1) := by
  unfold State.updLoader
  exact (Keeps.upd h)

theorem keeps_declare {s u : State} {x1} (h : Keeps s u) :
    Keeps s (State.declare u x1) := by
  unfold State.declare
  split
  · exact h
  · extract_lets -merge v13
    exact (keeps_setReg h)

theorem keeps_declareAll {s u : State} {x1} (h : Keeps s u) :
    Keeps s (State.declareAll u x1) := by
  unfold State.declareAll
  refine (Keeps.foldl h (fun _ _ _ => ?_))
  rename_i y12 y13 h14
  exact (keeps_declare h14)

theorem keeps_takeSecs {s u : State} {x1} (h : Keeps s u) :
    Keeps s (State.takeSecs u x1) := by
  unfold State.takeSecs
  exact (keeps_updLoader h)

theorem keeps_showLoaded {s u : State} (h : Keeps s u) :
    Keeps s (State.showLoaded u) := by
  unfold State.showLoaded
  exact (keeps_setF h)

theorem keeps_loadError {s u : State} {x1} {x2} (h : Keeps s u) :
    Keeps s (State.loadError u x1 x2) := by
  unfold State.loadError
  extract_lets -merge v6
  have h8 : Keeps s v6 := (keeps_setRegN h)
  exact (keeps_post h8)

theorem keeps_setStale {s u : State} {x1} (h : Keeps s u) :
    Keeps s (State.setStale u x1) := by
  unfold State.setStale
  refine (Keeps.foldl h (fun _ _ _ => ?_))
  rename_i y11 y12 h13
  exact (keeps_setF h13)

theorem keeps_showHeader {s u : State} {x1} {x2} (h : Keeps s u) :
    Keeps s (State.showHeader u x1 x2) := by
  unfold State.showHeader
  extract_lets -merge v6 v7 v8
  have h15 : Keeps s v6 := (keeps_setPair (keeps_setRegN h))
  have h11 : Keeps s v7 := (keeps_setRegWords (keeps_setRegN h15))
  have h19 : Keeps s v8 := (keeps_setB (keeps_setF h11))
  exact (keeps_setB (keeps_setF h19))

theorem keeps_placeTiles {s u : State} (h : Keeps s u) :
    Keeps s (State.placeTiles u) := by
  unfold State.placeTiles
  extract_lets -merge v1
  exact Keeps.foldl h (fun y2 y3 h4 => keeps_setF (keeps_setF h4))

theorem keeps_stageFile {s u : State} {x1} {x2} (h : Keeps s u) :
    Keeps s (State.stageFile u x1 x2) := by
  unfold State.stageFile
  exact Keeps.ite (fun _ => h) (fun _ => keeps_writeMem h)

theorem keeps_applyPhase1 {s u : State} {x1} {x2} (h : Keeps s u) :
    Keeps s (State.applyPhase1 u x1 x2) := by
  unfold State.applyPhase1
  extract_lets -merge v1 v2 v3 v4 v5 v6
  have h7 : Keeps s v2 := keeps_updLoader h
  have h8 : Keeps s v3 := keeps_takeSecs h7
  have h9 : Keeps s v5 := keeps_declareAll (keeps_declareAll (keeps_declareAll h8))
  have h10 : Keeps s v6 := keeps_showHeader (keeps_setStale (keeps_placeTiles (keeps_takeTables h9)))
  exact keeps_showLoaded (keeps_setF h10)

theorem keeps_loadPhase1 {s u : State} {x1} {x2} {x3} (h : Keeps s u) :
    Keeps s (State.loadPhase1 u x1 x2 x3).2 := by
  unfold State.loadPhase1
  extract_lets -merge v7
  split
  · exact (Keeps.mk2 h)
  · split
    · exact (Keeps.mk2 h)
    · exact (Keeps.mk2 (keeps_applyPhase1 h))

theorem keeps_hostApply {s u : State} {x1} (h : Keeps s u) :
    Keeps s (State.hostApply u x1) := by
  unfold State.hostApply
  extract_lets -merge v14 v15 v16 v17 v18
  have h26 : Keeps s v14 := (keeps_updHost h)
  have h28 : Keeps s v15 := by
    refine (Keeps.foldl h26 (fun _ _ _ => ?_))
    rename_i y14 y15 h16
    exact (keeps_setB (keeps_setB h16))
  have h21 : Keeps s v17 := (Keeps.upd h28)
  have h29 : Keeps s v18 := (Keeps.ite (fun _ => (keeps_setF h21)) (fun _ => h21))
  refine (Keeps.foldl h29 (fun _ _ _ => ?_))
  rename_i y19 y20 h22
  exact (keeps_stateRec h22)

theorem keeps_applyPhase2 {s u : State} (h : Keeps s u) :
    Keeps s (State.applyPhase2 u) := by
  unfold State.applyPhase2
  extract_lets -merge v7 v8 v9 v10 v11 v12
  have h23 : Keeps s v9 := (keeps_updLoader (keeps_takeSecs h))
  have h25 : Keeps s v11 := (keeps_declareAll (keeps_declareAll (keeps_declareAll h23)))
  have h29 : Keeps s v12 := (keeps_showLoaded (keeps_hostApply h25))
  exact (keeps_setF (keeps_setF h29))

theorem keeps_setFallbacks {s u : State} (h : Keeps s u) :
    Keeps s (State.setFallbacks u) := by
  unfold State.setFallbacks
  extract_lets -merge v1
  exact Keeps.foldl h (fun y2 y3 h4 => keeps_setRegWords h4)

theorem keeps_setTemplate {s u : State} {x1} (h : Keeps s u) :
    Keeps s (State.setTemplate u x1) := by
  unfold State.setTemplate
  extract_lets -merge v5 v6
  have h13 : Keeps s v5 := (keeps_setReg (keeps_setReg h))
  have h17 : Keeps s v6 := (keeps_setPair h13)
  exact (keeps_schedCfg h17)

theorem keeps_showSpare {s u : State} {x1} (h : Keeps s u) :
    Keeps s (State.showSpare u x1) := by
  unfold State.showSpare
  exact Keeps.ite (fun _ => keeps_setF (keeps_setF h)) (fun _ => h)

theorem keeps_setProgram {s u : State} {x1} (h : Keeps s u) :
    Keeps s (State.setProgram u x1) := by
  unfold State.setProgram
  exact keeps_showSpare (Keeps.foldl h (fun y1 y2 h3 => keeps_placeProgram h3))

theorem keeps_setRt {s u : State} {x1} (h : Keeps s u) :
    Keeps s (State.setRt u x1) := by
  unfold State.setRt
  exact keeps_setStale h

theorem keeps_injectCurve {s u : State} {x1} (h : Keeps s u) :
    Keeps s (State.injectCurve u x1) := by
  unfold State.injectCurve
  split
  · exact (keeps_injectWord h)
  · exact h

theorem keeps_installSec {s u : State} {x1} (h : Keeps s u) :
    Keeps s (State.installSec u x1) := by
  unfold State.installSec
  split
  · exact keeps_setRt h
  · exact Keeps.foldl h (fun v t hv => keeps_setTemplate hv)
  · exact keeps_setProgram h
  · exact keeps_banks (keeps_injectCurve (keeps_setFallbacks h)) (fun a b => ⟨tabWf_putCurves _ a, tabWf_putCurves _ b⟩)
  · exact h

theorem keeps_setDefaults {s u : State} {x1} (h : Keeps s u) :
    Keeps s (State.setDefaults u x1) := by
  unfold State.setDefaults
  extract_lets -merge v1
  refine Keeps.foldl h (fun y2 y3 h4 => ?_)
  split
  · split
    · exact Keeps.ite (fun _ => h4) (fun _ => keeps_setTemplate h4)
    · exact h4
  · exact h4

theorem keeps_zeroFences {s u : State} (h : Keeps s u) :
    Keeps s (State.zeroFences u) := by
  unfold State.zeroFences
  extract_lets -merge v6 v7
  have h10 : Keeps s v6 := by
    refine (Keeps.foldl h (fun _ _ _ => ?_))
    rename_i y9 y10 h11
    exact (keeps_setRegN h11)
  exact (Keeps.upd h10)

theorem keeps_installPhase3 {s u : State} {x1} (h : Keeps s u) :
    Keeps s (State.installPhase3 u x1) := by
  unfold State.installPhase3
  extract_lets -merge v5 v6 v7 v8 v9
  have h13 : Keeps s v6 := (keeps_updLoader (keeps_takeSecs h))
  have h15 : Keeps s v7 := by
    refine (Keeps.foldl (keeps_setRegN (keeps_zeroFences h13)) (fun _ _ _ => ?_))
    rename_i y13 y14 h15
    exact (keeps_installSec h15)
  have h14 : Keeps s v9 := (keeps_releaseFault (keeps_showLoaded (keeps_setDefaults h15)))
  exact (keeps_setF (keeps_setBs h14))

theorem keeps_loadFailed {s u : State} {x1} (h : Keeps s u) :
    Keeps s (State.loadFailed u x1) := by
  unfold State.loadFailed
  extract_lets -merge v8
  have h12 : Keeps s v8 := (keeps_updLoader (keeps_loadError h))
  exact (keeps_assertFault (keeps_setBs h12))

theorem keeps_loadPhase3 {s u : State} {x1} (h : Keeps s u) :
    Keeps s (State.loadPhase3 u x1) := by
  unfold State.loadPhase3
  split
  · exact (keeps_loadFailed h)
  · exact (keeps_installPhase3 h)

theorem keeps_loadPhase2 {s u : State} (h : Keeps s u) :
    Keeps s (State.loadPhase2 u) := by
  unfold State.loadPhase2
  refine (Keeps.ite (fun _ => h) (fun _ => ?_))
  split
  · exact (keeps_loadFailed h)
  · exact (keeps_loadPhase3 (keeps_applyPhase2 h))

theorem keeps_execLoadPhase2 {s u : State} (h : Keeps s u) :
    KeepsR s (execLoadPhase2 u) := by
  unfold execLoadPhase2
  exact (KeepsR.next (keeps_loadPhase2 h))

theorem keeps_setUpd {s u : State} {x1} (h : Keeps s u) :
    Keeps s (State.setUpd u x1) := by
  unfold State.setUpd
  exact (keeps_setB (keeps_setF h))

theorem keeps_updNak {s u : State} {x1} (h : Keeps s u) :
    Keeps s (State.updNak u x1) := by
  unfold State.updNak
  exact (keeps_post (keeps_setF h))

theorem keeps_updRefuse {s u : State} {x1} (h : Keeps s u) :
    Keeps s (State.updRefuse u x1) := by
  unfold State.updRefuse
  exact (keeps_updNak (keeps_updLoader (keeps_setUpd h)))

theorem keeps_stageBytes {s u : State} {x1} {x2} (h : Keeps s u) :
    Keeps s (State.stageBytes u x1 x2) := by
  unfold State.stageBytes
  extract_lets -merge v6
  have h9 : Keeps s v6 := (Keeps.ite (fun _ => h) (fun _ => (keeps_updLoader (keeps_setUpd h))))
  exact (Keeps.ite (fun _ => (keeps_updNak h)) (fun _ => (Keeps.ite (fun _ => (keeps_putDram h9)) (fun _ => h9))))

theorem keeps_pushBytes {s u : State} {x1} {x2} (h : Keeps s u) :
    Keeps s (State.pushBytes u x1 x2) := by
  unfold State.pushBytes
  extract_lets -merge v1
  have h2 : Keeps s v1 := Keeps.ite (fun _ => h) (fun _ => keeps_updLoader (keeps_setBs h))
  exact keeps_updLoader (keeps_stageFile h2)

theorem keeps_stageData {s u : State} {x1} (h : Keeps s u) :
    Keeps s (State.stageData u x1) := by
  unfold State.stageData
  extract_lets -merge v1 v2 v3 v4
  have h5 : Keeps s v4 := Keeps.ite (fun _ => keeps_stageBytes h) (fun _ => Keeps.ite (fun _ => keeps_pushBytes h) (fun _ => keeps_updNak h))
  exact Keeps.ite (fun _ => h5) (fun _ => keeps_setRegN h5)

theorem keeps_execStageData {s u : State} {x0} (h : Keeps s u) :
    KeepsR s (execStageData x0 u) := by
  unfold execStageData
  exact KeepsR.next (keeps_inCore h (fun y1 y2 => keeps_stageData y2))

theorem keeps_stageTimeout {s u : State} (h : Keeps s u) :
    Keeps s (State.stageTimeout u) := by
  unfold State.stageTimeout
  exact (Keeps.ite (fun _ => (keeps_updLoader (keeps_setBs (keeps_loadError h)))) (fun _ => (Keeps.ite (fun _ => (keeps_updRefuse h)) (fun _ => h))))

theorem keeps_execStageTimeout {s u : State} (h : Keeps s u) :
    KeepsR s (execStageTimeout u) := by
  unfold execStageTimeout
  exact (KeepsR.next (keeps_stageTimeout h))

theorem keeps_updVerify {s u : State} (h : Keeps s u) :
    Keeps s (State.updVerify u) := by
  unfold State.updVerify
  exact (Keeps.ite (fun _ => (keeps_updNak h)) (fun _ => (Keeps.ite (fun _ => (keeps_updNak h)) (fun _ => (keeps_setUpd h)))))

theorem keeps_execUpdateVerify {s u : State} (h : Keeps s u) :
    KeepsR s (execUpdateVerify u) := by
  unfold execUpdateVerify
  exact KeepsR.next (keeps_inCore h (fun y1 y2 => keeps_updVerify y2))

theorem keeps_updVerified {s u : State} {x1} (h : Keeps s u) :
    Keeps s (State.updVerified u x1) := by
  unfold State.updVerified
  extract_lets -merge v5
  refine (Keeps.ite (fun _ => h) (fun _ => ?_))
  split
  rename_i y18 h19
  have h20 := Keeps.pair h19 (keeps_readMem h)
  extract_lets -merge v16
  refine (Keeps.ite (fun _ => (keeps_updRefuse h20)) (fun _ => ?_))
  split
  · exact (keeps_updRefuse h20)
  · exact (keeps_updLoader (keeps_setUpd h20))

theorem keeps_execUpdateVerified {s u : State} {x0} (h : Keeps s u) :
    KeepsR s (execUpdateVerified x0 u) := by
  unfold execUpdateVerified
  exact (KeepsR.next (keeps_updVerified h))

theorem keeps_updCommit {s u : State} (h : Keeps s u) :
    Keeps s (State.updCommit u) := by
  unfold State.updCommit
  exact (Keeps.ite (fun _ => (keeps_updNak h)) (fun _ => (Keeps.ite (fun _ => (keeps_updNak h)) (fun _ => (keeps_setUpd h)))))

theorem keeps_execUpdateCommit {s u : State} (h : Keeps s u) :
    KeepsR s (execUpdateCommit u) := by
  unfold execUpdateCommit
  exact KeepsR.next (keeps_inCore h (fun y1 y2 => keeps_updCommit y2))

theorem keeps_updCopied {s u : State} (h : Keeps s u) :
    Keeps s (State.updCopied u) := by
  unfold State.updCopied
  exact (Keeps.ite (fun _ => h) (fun _ => (keeps_updLoader (keeps_setUpd h))))

theorem keeps_execUpdateCopyDone {s u : State} (h : Keeps s u) :
    KeepsR s (execUpdateCopyDone u) := by
  unfold execUpdateCopyDone
  exact (KeepsR.next (keeps_updCopied h))

theorem keeps_updCancel {s u : State} {x1} (h : Keeps s u) :
    Keeps s (State.updCancel u x1) := by
  unfold State.updCancel
  extract_lets -merge v5
  exact (Keeps.ite (fun _ => (keeps_post (keeps_updLoader (keeps_setUpd h)))) (fun _ => (Keeps.ite (fun _ => (keeps_updNak h)) (fun _ => h))))

theorem keeps_execUpdateCancel {s u : State} (h : Keeps s u) :
    KeepsR s (execUpdateCancel u) := by
  unfold execUpdateCancel
  exact (KeepsR.next (keeps_updCancel h))

theorem keeps_updCmd {s u : State} {x1} (h : Keeps s u) :
    Keeps s (State.updCmd u x1) := by
  unfold State.updCmd
  exact (Keeps.ite (fun _ => (keeps_updVerify h)) (fun _ => (Keeps.ite (fun _ => (keeps_updCommit h)) (fun _ => (Keeps.ite (fun _ => (keeps_updCancel h)) (fun _ => h))))))

theorem keeps_activateSec {s u : State} {x1} (h : Keeps s u) :
    Keeps s (State.activateSec u x1) := by
  unfold State.activateSec
  split
  · exact keeps_setRt h
  · exact Keeps.foldl h (fun v t hv => keeps_setTemplate hv)
  · rename_i p
    have h1 : Keeps s (p.engines.foldl (fun s n =>
        if s.beState n = beOFF then s.placeProgram n p else s.updEng n (fun e => { e with next := some p })) u) :=
      Keeps.foldl h (fun v n hv => Keeps.ite (fun _ => keeps_placeProgram hv) (fun _ => keeps_updEng hv))
    exact Keeps.ite (fun _ => keeps_setF (keeps_setF h1)) (fun _ => h1)
  · have h1 := fun c => keeps_injectCurve (x1 := c) (keeps_setFallbacks h)
    exact Keeps.ite (fun _ => keeps_banks (h1 _) (fun a b => ⟨a, tabWf_putCurves _ b⟩))
      (fun _ => keeps_banks (h1 _) (fun a b => ⟨tabWf_putCurves _ a, b⟩))
  · exact h

theorem keeps_copyBank {s u : State} (h : Keeps s u) :
    Keeps s (State.copyBank u) := by
  unfold State.copyBank
  exact Keeps.ite (fun _ => keeps_banks h (fun a _ => ⟨a, a⟩)) (fun _ => keeps_banks h (fun _ b => ⟨b, b⟩))

theorem keeps_swapBanks {s u : State} (h : Keeps s u) :
    Keeps s (State.swapBanks u) := by
  unfold State.swapBanks
  extract_lets -merge v4
  refine (Keeps.foldl h (fun _ _ _ => ?_))
  rename_i y9 y10 h11
  exact (keeps_setF h11)

theorem keeps_updActivate {s u : State} {x1} {x2} (h : Keeps s u) :
    Keeps s (State.updActivate u x1 x2) := by
  unfold State.updActivate
  extract_lets -merge v6 v7 v8 v9 v10 v11 v12
  have h21 : Keeps s v7 := (keeps_updLoader (keeps_takeSecs h))
  have h23 : Keeps s v9 := (Keeps.ite (fun _ => (keeps_copyBank h21)) (fun _ => h21))
  have h15 : Keeps s v10 := by
    refine (Keeps.foldl h23 (fun _ _ _ => ?_))
    rename_i y19 y20 h22
    exact (keeps_activateSec h22)
  have h25 : Keeps s v11 := (Keeps.ite (fun _ => (keeps_swapBanks h15)) (fun _ => h15))
  have h41 : Keeps s v12 := (keeps_showLoaded (keeps_setUpd (keeps_setRegN h25)))
  exact (keeps_post h41)

theorem keeps_updLatch {s u : State} {x1} (h : Keeps s u) :
    Keeps s (State.updLatch u x1) := by
  unfold State.updLatch
  extract_lets -merge v12
  split
  · exact h
  · refine (Keeps.ite (fun _ => h) (fun _ => ?_))
    split
    rename_i y34 h35
    have h40 := Keeps.pair h35 (Keeps.ite2 (fun _ => (keeps_fresh h)) (fun _ => (Keeps.mk2 h)))
    exact (Keeps.ite (fun _ => h40) (fun _ => (Keeps.ite (fun _ => (keeps_updRefuse h40)) (fun _ => (keeps_updActivate h40)))))

theorem keeps_pushAgain {s u : State} {x1} {x2} (h : Keeps s u) :
    Keeps s (State.pushAgain u x1 x2) := by
  unfold State.pushAgain
  extract_lets img bad v
  generalize bad = o
  cases o with
  | none => exact keeps_loadPhase3 (keeps_showHeader (keeps_updLoader h))
  | some r => exact keeps_setBs (keeps_loadError h)

theorem keeps_pushFirst {s u : State} {x1} {x2} (h : Keeps s u) :
    Keeps s (State.pushFirst u x1 x2) := by
  unfold State.pushFirst
  split
  · rename_i e4
    have h5 := Keeps.pair e4 (keeps_loadPhase1 h)
    exact keeps_setBs (keeps_loadError h5)
  · rename_i e8
    have h9 := Keeps.pair e8 (keeps_loadPhase1 h)
    extract_lets -merge v10 v11
    have h12 : Keeps s v10 := keeps_setBs (keeps_releaseFault h9)
    exact Keeps.upd h12

theorem keeps_hostPush {s u : State} {x1} (h : Keeps s u) :
    Keeps s (State.hostPush u x1) := by
  unfold State.hostPush
  extract_lets -merge v6 v7
  have h7 : Keeps s v7 := (keeps_updLoader h)
  exact (Keeps.ite (fun _ => h) (fun _ => (Keeps.ite (fun _ => (keeps_pushAgain h7)) (fun _ => (keeps_pushFirst h7)))))

theorem keeps_execHostPushLoad {s u : State} {x0} (h : Keeps s u) :
    KeepsR s (execHostPushLoad x0 u) := by
  unfold execHostPushLoad
  exact (KeepsR.next (keeps_hostPush h))

theorem keeps_otpShow {s u : State} (h : Keeps s u) :
    Keeps s (State.otpShow u) := by
  unfold State.otpShow
  extract_lets -merge v4 v5
  have h8 : Keeps s v5 := (keeps_setF (keeps_setF h))
  exact (keeps_setB (keeps_setF h8))

theorem keeps_otpRefuse {s u : State} {x1} {x2} (h : Keeps s u) :
    Keeps s (State.otpRefuse u x1 x2) := by
  unfold State.otpRefuse
  exact (keeps_post h)

theorem keeps_otpCmd {s u : State} {x1} {x2} {x3} {x4 : State → State} (h : Keeps s u) (k4 : ∀ v, Keeps s v → Keeps s (x4 v)) :
    Keeps s (State.otpCmd u x1 x2 x3 x4) := by
  unfold State.otpCmd
  exact (Keeps.ite (fun _ => (keeps_otpRefuse h)) (fun _ => (Keeps.ite (fun _ => (keeps_otpRefuse h)) (fun _ => (Keeps.ite (fun _ => (keeps_otpRefuse (keeps_setF h))) (fun _ => (keeps_otpShow (k4 _ (keeps_setF (keeps_setF h))))))))))

theorem keeps_keyProgram {s u : State} {x1} (h : Keeps s u) :
    Keeps s (State.keyProgram u x1) := by
  unfold State.keyProgram State.otpCmd
  refine Keeps.ite (fun _ => keeps_otpRefuse h) (fun _ => Keeps.ite (fun _ => keeps_otpRefuse h) (fun hc =>
    Keeps.ite (fun _ => keeps_otpRefuse (keeps_setF h)) (fun _ => keeps_otpShow (keeps_otp (keeps_setF (keeps_setF h)) ?_))))
  refine ⟨⟨List.length_set, rfl⟩, fun i k e => ?_, fun _ e => e, Nat.le_refl _, fun e => e, Nat.le_refl _⟩
  show nth none (u.otp.keys.set x1 _) i = _
  replace e : nth none u.otp.keys i = some k := e
  rw [nth_set]
  split
  · rename_i hi
    rw [hi.1, e] at hc
    simp at hc
  · exact e

theorem keeps_revokeOp {s u : State} {x1} (h : Keeps s u) :
    Keeps s (State.revokeOp u x1) := by
  unfold State.revokeOp State.otpCmd
  refine Keeps.ite (fun _ => keeps_otpRefuse h) (fun _ => Keeps.ite (fun _ => keeps_otpRefuse h) (fun hc =>
    Keeps.ite (fun _ => keeps_otpRefuse (keeps_setF h)) (fun _ => keeps_otpShow (keeps_otp (keeps_setF (keeps_setF h)) ?_))))
  refine ⟨⟨rfl, List.length_set⟩, fun _ _ e => e, fun i e => ?_, Nat.le_refl _, fun e => e, Nat.le_refl _⟩
  show nth false (u.otp.revoked.set x1 true) i = _
  replace e : nth false u.otp.revoked i = true := e
  rw [nth_set]
  split
  · rfl
  · exact e

theorem keeps_advanceOp {s u : State} (h : Keeps s u) :
    Keeps s (State.advanceOp u) := by
  unfold State.advanceOp State.otpCmd
  refine Keeps.ite (fun _ => keeps_otpRefuse h) (fun _ => Keeps.ite (fun _ => keeps_otpRefuse h) (fun hc =>
    Keeps.ite (fun _ => keeps_otpRefuse (keeps_setF h)) (fun _ => keeps_otpShow (keeps_otp (keeps_setF (keeps_setF h)) ?_))))
  exact ⟨⟨rfl, rfl⟩, fun _ _ e => e, fun _ e => e, Nat.le_max_left _ _, fun e => e, Nat.le_refl _⟩

theorem keeps_wrapOp {s u : State} (h : Keeps s u) :
    Keeps s (State.wrapOp u) := by
  unfold State.wrapOp State.otpCmd
  refine Keeps.ite (fun _ => keeps_otpRefuse h) (fun _ => Keeps.ite (fun _ => keeps_otpRefuse h) (fun hc =>
    Keeps.ite (fun _ => keeps_otpRefuse (keeps_setF h)) (fun _ => keeps_otpShow
      (keeps_otp (keeps_setRegWords (keeps_setRegWords (keeps_setF (keeps_setF h)))) ?_))))
  exact ⟨⟨rfl, rfl⟩, fun _ _ e => e, fun _ e => e, Nat.le_refl _, fun e => e, Nat.le_succ _⟩

theorem keeps_wrapLockOp {s u : State} (h : Keeps s u) :
    Keeps s (State.wrapLockOp u) := by
  unfold State.wrapLockOp State.otpCmd
  refine Keeps.ite (fun _ => keeps_otpRefuse h) (fun _ => Keeps.ite (fun _ => keeps_otpRefuse h) (fun hc =>
    Keeps.ite (fun _ => keeps_otpRefuse (keeps_setF h)) (fun _ => keeps_otpShow (keeps_otp (keeps_setF (keeps_setF h)) ?_))))
  exact ⟨⟨rfl, rfl⟩, fun _ _ e => e, fun _ e => e, Nat.le_refl _, fun _ => rfl, Nat.le_refl _⟩

theorem keeps_otpWrite {s u : State} {x1} (h : Keeps s u) :
    Keeps s (State.otpWrite u x1) := by
  unfold State.otpWrite
  extract_lets -merge v5
  split
  · exact (keeps_keyProgram h)
  · exact (keeps_revokeOp h)
  · exact (keeps_advanceOp h)
  · exact (keeps_wrapOp h)
  · exact (keeps_wrapLockOp h)
  · exact h

theorem keeps_execKeyProgram {s u : State} {x0} (h : Keeps s u) :
    KeepsR s (execKeyProgram x0 u) := by
  unfold execKeyProgram
  exact KeepsR.next (keeps_inCore h (fun y1 y2 => keeps_keyProgram y2))

theorem keeps_execRevoke {s u : State} {x0} (h : Keeps s u) :
    KeepsR s (execRevoke x0 u) := by
  unfold execRevoke
  exact KeepsR.next (keeps_inCore h (fun y1 y2 => keeps_revokeOp y2))

theorem keeps_execAdvance {s u : State} (h : Keeps s u) :
    KeepsR s (execAdvance u) := by
  unfold execAdvance
  exact KeepsR.next (keeps_inCore h (fun y1 y2 => keeps_advanceOp y2))

theorem keeps_execWrap {s u : State} (h : Keeps s u) :
    KeepsR s (execWrap u) := by
  unfold execWrap
  exact KeepsR.next (keeps_inCore h (fun y1 y2 => keeps_wrapOp y2))

theorem keeps_execWrapLock {s u : State} (h : Keeps s u) :
    KeepsR s (execWrapLock u) := by
  unfold execWrapLock
  exact KeepsR.next (keeps_inCore h (fun y1 y2 => keeps_wrapLockOp y2))

theorem keeps_execOtpDone {s u : State} (h : Keeps s u) :
    KeepsR s (execOtpDone u) := by
  unfold execOtpDone
  exact (KeepsR.next (keeps_setF h))

end Sys2Proof.Machine
end

