-- ==== Sys2Proof/Laws/KeepsLatch.lean ====
section
/-! SUPPORT. What the operations of Machine/Latch.lean keep (Laws/Keeps.lean). -/

namespace Sys2Proof.Machine

theorem keeps_hlvLatch {s u : State} (h : Keeps s u) :
    Keeps s (State.hlvLatch u) := by
  unfold State.hlvLatch
  extract_lets -merge v4
  exact (Keeps.upd h)

theorem keeps_slotFates {s u : State} {x1} {x2} {x3} (h : Keeps s u) :
    Keeps s (State.slotFates u x1 x2 x3).2 := by
  unfold State.slotFates
  extract_lets -merge v1
  exact Keeps.mk2 (Keeps.foldl h (fun y2 y3 h4 => keeps_slotSkip h4))

theorem keeps_beginTransfer {s u : State} {x1} {x2} {x3} (h : Keeps s u) :
    Keeps s (State.beginTransfer u x1 x2 x3) := by
  unfold State.beginTransfer
  split
  rename_i e4
  have h5 := Keeps.pair e4 (keeps_slotFates h)
  extract_lets -merge v6
  have h7 : Keeps s v6 := keeps_takeSnap (keeps_pressLatch h5)
  split
  rename_i e11
  have h12 := Keeps.pair e11 (keeps_sendToggles h7)
  extract_lets -merge v13 v14 v15 v16
  have h17 : Keeps s v13 := keeps_snapBegin h12
  exact keeps_updTg h17

theorem keeps_preBegin {s u : State} {x1} {x2} {x3} (h : Keeps s u) :
    Keeps s (State.preBegin u x1 x2 x3) := by
  unfold State.preBegin
  exact Keeps.ite (fun _ => keeps_beginTransfer (keeps_preFirst (keeps_preShow h))) (fun _ => h)

theorem keeps_latchPre {s u : State} {x1} {x2} (h : Keeps s u) :
    Keeps s (State.latchPre u x1 x2) := by
  unfold State.latchPre
  refine Keeps.ite (fun _ => keeps_preBegin h) (fun _ => ?_)
  refine Keeps.ite (fun _ => Keeps.ite (fun _ => h) (fun _ => keeps_preBegin h)) (fun _ => ?_)
  extract_lets -merge v1
  have h2 : Keeps s v1 := Keeps.ite (fun _ => h) (fun _ => keeps_rejoin h)
  exact Keeps.ite (fun _ => h2) (fun _ => keeps_preBegin h2)

theorem keeps_latchOdd {s u : State} {x1} {x2} (h : Keeps s u) :
    Keeps s (State.latchOdd u x1 x2) := by
  unfold State.latchOdd
  extract_lets -merge v1
  have h2 : Keeps s v1 := keeps_slotFates h
  exact Keeps.ite (fun _ => h2) (fun _ => keeps_beginTransfer h2)

theorem keeps_latchEven {s u : State} {x1} {x2} (h : Keeps s u) :
    Keeps s (State.latchEven u x1 x2) := by
  unfold State.latchEven
  refine Keeps.ite (fun _ => h) (fun _ => ?_)
  extract_lets -merge v1
  have h2 : Keeps s v1 := keeps_rejoin h
  exact Keeps.ite (fun _ => keeps_beginTransfer h2) (fun _ => keeps_slotFates h2)

theorem keeps_latchTg {s u : State} {x1} {x2} (h : Keeps s u) :
    Keeps s (State.latchTg u x1 x2) := by
  unfold State.latchTg
  extract_lets -merge v1
  exact Keeps.ite (fun _ => h) (fun _ => Keeps.ite (fun _ => keeps_latchPre h) (fun _ => Keeps.ite (fun _ => keeps_beginTransfer h) (fun _ => Keeps.ite (fun _ => keeps_latchOdd h) (fun _ => keeps_latchEven h))))

theorem keeps_latchPoint {s u : State} (h : Keeps s u) :
    Keeps s (State.latchPoint u) := by
  unfold State.latchPoint
  refine Keeps.ite (fun _ => h) (fun _ => ?_)
  extract_lets -merge v1
  split
  rename_i e5
  have h6 := Keeps.pair e5 (keeps_latchFlips (keeps_hlvLatch h))
  extract_lets -merge v7 v8 v9 v10 v11
  have h12 : Keeps s v7 := keeps_latchAges (keeps_updLatch (keeps_stagedLatch h6))
  have h16 : Keeps s v8 := Keeps.ite (fun _ => h12) (fun _ => Keeps.foldl h12 (fun y13 y14 h15 => keeps_updTg h15))
  have h20 : Keeps s v9 := Keeps.foldl h16 (fun y17 y18 h19 => keeps_latchTg h19)
  exact Keeps.upd h20

theorem keeps_execLatchPoint {s u : State} (h : Keeps s u) :
    KeepsR s (execLatchPoint u) := by
  unfold execLatchPoint
  exact (KeepsR.next (keeps_latchPoint h))

theorem keeps_lineInject {s u : State} {x1} {x2} {x3} (h : Keeps s u) :
    Keeps s (State.lineInject u x1 x2 x3).2 := by
  have hu := keeps_injectFound (x1 := 5) h
  unfold State.lineInject
  generalize State.injectFound u 5 = r at hu ⊢
  obtain ⟨b, v⟩ := r
  replace hu : Keeps s v := hu
  exact Keeps.ite2 (fun _ => Keeps.ite2 (fun _ => keeps_drawn hu) (fun _ => hu)) (fun _ => h)

theorem keeps_rowCompose {s u : State} {x1} (h : Keeps s u) :
    Keeps s (State.rowCompose u x1) := by
  unfold State.rowCompose
  extract_lets -merge v6 v7
  have h10 : Keeps s v7 := by
    refine (Keeps.foldl h (fun _ _ _ => ?_))
    rename_i y14 y15 h16
    exact (keeps_fetchLayer h16)
  split
  · exact h
  · refine (Keeps.ite (fun _ => h) (fun _ => ?_))
    split
    rename_i y36 h37
    have h38 := Keeps.pair h37 (keeps_lineInject h10)
    extract_lets -merge v41 v42 v43
    have h47 : Keeps s v41 := (keeps_updPr h38)
    have h49 : Keeps s v43 := (Keeps.upd h47)
    exact (keeps_pressFill h49)

theorem keeps_execRowCompose {s u : State} {x0} (h : Keeps s u) :
    KeepsR s (execRowCompose x0 u) := by
  unfold execRowCompose
  exact (KeepsR.next (keeps_rowCompose h))

theorem keeps_execFlipCommit {s u : State} {x0} {x1} (h : Keeps s u) :
    KeepsR s (execFlipCommit x0 x1 u) := by
  unfold execFlipCommit
  refine (KeepsR.next (keeps_viaReg h (fun _ _ => ?_)))
  rename_i y10 h11
  exact (keeps_flipCommit h11)

theorem keeps_execRawAddrWrite {s u : State} {x0} {x1} (h : Keeps s u) :
    KeepsR s (execRawAddrWrite x0 x1 u) := by
  unfold execRawAddrWrite
  refine (KeepsR.next (keeps_viaReg h (fun _ _ => ?_)))
  rename_i y15 h16
  exact (keeps_rawAddr h16)

theorem keeps_csiError {s u : State} {x1} (h : Keeps s u) :
    Keeps s (State.csiError u x1) := by
  unfold State.csiError
  extract_lets -merge v1 v2
  have h3 : Keeps s v1 := keeps_bumpF h
  exact keeps_hostEv (keeps_updHost h3)

theorem keeps_csiHead {s u : State} {x1} {x2} (h : Keeps s u) :
    Keeps s (State.csiHead u x1 x2) := by
  unfold State.csiHead
  exact Keeps.ite (fun _ => keeps_bump h) (fun _ => h)

theorem keeps_csiBad {s u : State} {x1} {x2} (h : Keeps s u) :
    Keeps s (State.csiBad u x1 x2) := by
  unfold State.csiBad
  exact Keeps.foldl (keeps_csiError h) (fun y1 y2 h3 => keeps_setCapw h3)

theorem keeps_csiLong {s u : State} {x1} {x2} {x3} {x4} {x5} {x6} (h : Keeps s u) :
    Keeps s (State.csiLong u x1 x2 x3 x4 x5 x6) := by
  unfold State.csiLong
  extract_lets w v1 v2 v3
  refine Keeps.ite (fun _ => h) (fun _ => ?_)
  have h1 : Keeps s v1 := Keeps.ite (fun _ => keeps_bump h) (fun _ => h)
  clear_value w v1
  refine Keeps.ite (fun _ => ?_) (fun _ => ?_)
  · cases w with
    | none => exact keeps_csiError h1
    | some w => exact keeps_setCapw (keeps_csiError h1)
  · cases w with
    | none => exact keeps_bumpF h1
    | some w => exact keeps_capPacket (Keeps.ite (fun _ => h1) (fun _ => keeps_csiError h1))

theorem keeps_execCsiLongPacket {s u : State} {x0} {x1} {x2} {x3} {x4} {x5} (h : Keeps s u) :
    KeepsR s (execCsiLongPacket x0 x1 x2 x3 x4 x5 u) := by
  unfold execCsiLongPacket
  exact (KeepsR.next (keeps_csiLong h))

theorem keeps_csiShort {s u : State} {x1 x2 x3} {x4 : Nat → State → State} (h : Keeps s u)
    (k : ∀ w v, Keeps s v → Keeps s (x4 w v)) : Keeps s (State.csiShort u x1 x2 x3 x4) := by
  unfold State.csiShort
  refine Keeps.ite (fun _ => h) (fun _ => ?_)
  extract_lets v1
  have h1 : Keeps s v1 := keeps_csiHead h
  exact Keeps.ite (fun _ => keeps_csiBad h1) (fun _ => Keeps.foldl h1 (fun v w hv => k w v hv))

theorem keeps_execCsiFrameStart {s u : State} {x0 x1 x2} (h : Keeps s u) : KeepsR s (execCsiFrameStart x0 x1 x2 u) :=
  KeepsR.next (keeps_csiShort h (fun _ _ => keeps_capStart))

theorem keeps_csiEnd {s u : State} {x1} {x2} (h : Keeps s u) :
    Keeps s (State.csiEnd u x1 x2) := by
  unfold State.csiEnd
  extract_lets -merge v1
  have h2 : Keeps s v1 := Keeps.ite (fun _ => h) (fun _ => keeps_csiError h)
  exact keeps_capEnd h2

theorem keeps_execCsiFrameEnd {s u : State} {x0 x1 x2} (h : Keeps s u) : KeepsR s (execCsiFrameEnd x0 x1 x2 u) :=
  KeepsR.next (keeps_csiShort h (fun _ _ => keeps_csiEnd))

end Sys2Proof.Machine
end

