-- ==== Sys2Proof/Laws/KeepsPrograms.lean ====
section
/-! SUPPORT. What the operations of Machine/Programs.lean keep (Laws/Keeps.lean). -/

namespace Sys2Proof.Machine

theorem keeps_updProg {s u : State} {x1} {x2} (h : Keeps s u) :
    Keeps s (State.updProg u x1 x2) := by
  unfold State.updProg
  exact (Keeps.upd h)

theorem keeps_progEv {s u : State} {x1} {x2} {x3} {x4} (h : Keeps s u) :
    Keeps s (State.progEv u x1 x2 x3 x4) := by
  unfold State.progEv
  exact (Keeps.ite (fun _ => (keeps_post h)) (fun _ => h))

theorem keeps_progEvFree {s u : State} {x1} {x2} {x3} (h : Keeps s u) :
    Keeps s (State.progEvFree u x1 x2 x3) := by
  unfold State.progEvFree
  split
  rename_i y16 h17
  have h18 := Keeps.pair h17 (keeps_fresh h)
  exact (keeps_progEv h18)

theorem keeps_progRefuse {s u : State} {x1} {x2} (h : Keeps s u) :
    Keeps s (State.progRefuse u x1 x2) := by
  unfold State.progRefuse
  split
  rename_i e4
  have h5 := Keeps.pair e4 (keeps_fresh h)
  exact keeps_progEvFree h5

theorem keeps_inputOld {s u : State} {x1} {x2} (h : Keeps s u) :
    Keeps s (State.inputOld u x1 x2) := by
  unfold State.inputOld
  extract_lets -merge v6 v7 v8
  exact (Keeps.ite (fun _ => (keeps_post (keeps_updProg (keeps_notePost h)))) (fun _ => h))

theorem keeps_takePose {s u : State} {x1} {x2} {x3} (h : Keeps s u) :
    Keeps s (State.takePose u x1 x2 x3) := by
  unfold State.takePose
  exact Keeps.ite (fun _ => keeps_progRefuse h) (fun _ => Keeps.ite (fun _ => keeps_updProg h) (fun _ => keeps_updProg h))

theorem keeps_takeList {s u : State} {x1} {x2} {x3} (h : Keeps s u) :
    Keeps s (State.takeList u x1 x2 x3) := by
  unfold State.takeList
  extract_lets -merge v8 v9
  have h12 : Keeps s v9 := (keeps_updProg h)
  refine (Keeps.ite (fun _ => (keeps_progEv h)) (fun _ => (Keeps.ite (fun _ => (Keeps.foldl h12 (fun _ _ _ => ?_))) (fun _ => (keeps_updProg h)))))
  rename_i y21 y22 h23
  exact (Keeps.ite (fun _ => (keeps_progEv h23)) (fun _ => h23))

theorem keeps_takePar {s u : State} {x1} {x2} {x3} (h : Keeps s u) :
    Keeps s (State.takePar u x1 x2 x3) := by
  unfold State.takePar
  refine (Keeps.ite (fun _ => (keeps_progEvFree h)) (fun _ => ?_))
  split
  · exact (keeps_progEv h)
  · exact (keeps_updProg h)

theorem keeps_putShare {s u : State} {x1} {x2} {x3} {x4} {x5} (h : Keeps s u) :
    Keeps s (State.putShare u x1 x2 x3 x4 x5) := by
  unfold State.putShare
  refine (Keeps.foldl h (fun _ _ _ => ?_))
  rename_i y12 y13 h14
  exact (keeps_putDram h14)

theorem keeps_progFlip {s u : State} {x1} {x2} {x3} {x4} {x5} {x6} {x7} (h : Keeps s u) :
    Keeps s (State.progFlip u x1 x2 x3 x4 x5 x6 x7) := by
  unfold State.progFlip
  extract_lets -merge v15 v16 v17
  have h24 : Keeps s v17 := by
    refine (Keeps.foldl h (fun _ _ _ => ?_))
    rename_i y28 y29 h30
    exact (keeps_updProg h30)
  exact (keeps_flipCommit (keeps_setReg (keeps_setF (keeps_setF (keeps_setRegN (keeps_setRegWords h24))))))

theorem keeps_maskTake {s u : State} {x1} {x2} {x3} (h : Keeps s u) :
    Keeps s (State.maskTake u x1 x2 x3) := by
  unfold State.maskTake
  exact (Keeps.ite (fun _ => (keeps_takePose h)) (fun _ => (Keeps.ite (fun _ => (keeps_takeList h)) (fun _ => (Keeps.ite (fun _ => (keeps_takePar h)) (fun _ => h))))))

theorem keeps_maskJob {s u : State} {x1} {x2} {x3} (h : Keeps s u) :
    Keeps s (State.maskJob u x1 x2 x3) := by
  unfold State.maskJob
  extract_lets -merge v8 v9 v10 v11 v12 v13 v14 v15 v16 v17 v18 v19 v20 v21 v22
  have h38 : Keeps s v10 := by
    refine (keeps_inputOld (Keeps.foldl h (fun _ _ _ => ?_)))
    rename_i y25 y26 h27
    exact (keeps_maskTake h27)
  have h26 : Keeps s v16 := by
    refine (Keeps.ite (fun _ => h38) (fun _ => ?_))
    split
    · exact (keeps_progEv h38)
    · exact (keeps_progEvFree h38)
  have h25 : Keeps s v17 := (keeps_updProg h26)
  exact (Keeps.ite (fun _ => (keeps_progFlip (Keeps.ite (fun _ => (keeps_postOnce (keeps_signal (Keeps.ite (fun _ => (keeps_drawn (keeps_putShare h25))) (fun _ => (keeps_putShare h25)))))) (fun _ => (keeps_signal (Keeps.ite (fun _ => (keeps_drawn (keeps_putShare h25))) (fun _ => (keeps_putShare h25)))))))) (fun _ => (Keeps.ite (fun _ => (keeps_postOnce (keeps_signal (Keeps.ite (fun _ => (keeps_drawn (keeps_putShare h25))) (fun _ => (keeps_putShare h25)))))) (fun _ => (keeps_signal (Keeps.ite (fun _ => (keeps_drawn (keeps_putShare h25))) (fun _ => (keeps_putShare h25))))))))

theorem keeps_takeSymbol {s u : State} {x1} {x2} {x3} (h : Keeps s u) :
    Keeps s (State.takeSymbol u x1 x2 x3) := by
  unfold State.takeSymbol
  extract_lets -merge v7 v8
  exact (Keeps.ite (fun _ => (keeps_updProg h)) (fun _ => (keeps_progEv h)))

theorem keeps_projTake {s u : State} {x1} {x2} {x3} (h : Keeps s u) :
    Keeps s (State.projTake u x1 x2 x3) := by
  unfold State.projTake
  extract_lets -merge v11 v12 v13
  refine (Keeps.ite (fun _ => (keeps_takePose h)) (fun _ => (Keeps.ite (fun _ => (Keeps.ite (fun _ => (keeps_progEvFree h)) (fun _ => (Keeps.foldl h (fun _ _ _ => ?_))))) (fun _ => (Keeps.ite (fun _ => (Keeps.ite (fun _ => (keeps_progEvFree h)) (fun _ => (keeps_updProg h)))) (fun _ => h))))))
  rename_i y19 y20 h21
  exact (keeps_takeSymbol h21)

theorem keeps_symbolLife {s u : State} {x1} {x2} (h : Keeps s u) :
    Keeps s (State.symbolLife u x1 x2) := by
  unfold State.symbolLife
  extract_lets -merge v7 v8
  have h11 : Keeps s v8 := by
    refine (Keeps.foldl h (fun _ _ _ => ?_))
    rename_i y19 y20 h21
    extract_lets -merge v25 v26 v27
    have h14 : Keeps s v27 := (keeps_updProg h21)
    exact (Keeps.ite (fun _ => (keeps_progEv h14)) (fun _ => h21))
  exact (keeps_updProg h11)

theorem keeps_projPose {s u : State} {x1} {x2} {x3} {x4} (h : Keeps s u) :
    Keeps s (State.projPose u x1 x2 x3 x4) := by
  unfold State.projPose
  extract_lets -merge v1 v2 v3 v4
  have h5 : Keeps s v4 := keeps_updProg h
  refine Keeps.ite (fun _ => h) (fun _ => ?_)
  refine Keeps.ite (fun _ => ?_) (fun _ => h5)
  split
  · exact keeps_progEv h5
  · exact keeps_progEv h5

theorem keeps_projJob {s u : State} {x1} {x2} {x3} (h : Keeps s u) :
    Keeps s (State.projJob u x1 x2 x3) := by
  unfold State.projJob
  extract_lets -merge v1 v2 v3 v4 v5 v6 v7 v8 v9
  have h13 : Keeps s v2 := keeps_symbolLife (Keeps.foldl h (fun y10 y11 h12 => keeps_projTake h12))
  have h14 : Keeps s v3 := keeps_updProg h13
  have h15 : Keeps s v7 := keeps_projPose h14
  split
  split
  extract_lets -merge v24
  split
  extract_lets -merge v29 v30 v31
  have h35 : Keeps s v29 := by
    unfold v29
    split
    · exact keeps_progEv h15
    · exact h15
  have h36 : Keeps s v30 := keeps_putShare h35
  have h37 : Keeps s v31 := keeps_signal h36
  exact Keeps.ite (fun _ => keeps_progFlip h37) (fun _ => h37)

theorem keeps_patTake {s u : State} {x1} {x2} {x3} {x4} (h : Keeps s u) :
    Keeps s (State.patTake u x1 x2 x3 x4) := by
  unfold State.patTake
  extract_lets -merge v15 v16 v17 v18 v19 v20
  have h27 : Keeps s v20 := (keeps_updProg h)
  exact (Keeps.ite (fun _ => h) (fun _ => (Keeps.ite (fun _ => (keeps_progEv h)) (fun _ => (Keeps.ite (fun _ => (keeps_progEv h27)) (fun _ => h27))))))

theorem keeps_patJob {s u : State} {x1} {x2} {x3} (h : Keeps s u) :
    Keeps s (State.patJob u x1 x2 x3) := by
  unfold State.patJob
  extract_lets -merge v1 v2 v3 v4 v5 v6
  have h10 : Keeps s v2 := Keeps.foldl h (fun y7 y8 h9 => keeps_patTake h9)
  have h17 : Keeps s v6 := by
    unfold v6
    refine Keeps.foldl h10 (fun y11 y12 h13 => ?_)
    refine Keeps.ite (fun _ => h13) (fun _ => ?_)
    extract_lets -merge v14 v15 v16
    exact keeps_drawn (keeps_putShare h13)
  exact keeps_signal h17

theorem keeps_snapRead {s u : State} {x1} {x2} (h : Keeps s u) :
    Keeps s (State.snapRead u x1 x2).2 := by
  unfold State.snapRead
  extract_lets -merge v6 v7 v8
  refine (Keeps.ite2 (fun _ => (Keeps.mk2 h)) (fun _ => (Keeps.ite2 (fun _ => (Keeps.mk2 h)) (fun _ => ?_))))
  split
  rename_i y30 h32
  have h33 := Keeps.pair h32 (keeps_checkRange h)
  exact (Keeps.ite2 (fun _ => (Keeps.mk2 h33)) (fun _ => (Keeps.mk2 h33)))

theorem keeps_snapSeen {s u : State} {x1} {x2} (h : Keeps s u) :
    Keeps s (State.snapSeen u x1 x2) := by
  unfold State.snapSeen
  extract_lets -merge v9
  exact (keeps_updProg h)

theorem keeps_ageGain {s u : State} {x1} {x2} {x3} {x4} (h : Keeps s u) :
    Keeps s (State.ageGain u x1 x2 x3 x4) := by
  unfold State.ageGain
  extract_lets -merge v8 v9 v10 v11
  exact (keeps_putDram h)

theorem keeps_agingJob {s u : State} {x1} {x2} {x3} (h : Keeps s u) :
    Keeps s (State.agingJob u x1 x2 x3) := by
  unfold State.agingJob
  extract_lets -merge v1 v2 v3 v4 v5 v6
  have h17 : Keeps s v3 := by
    unfold v3
    refine Keeps.foldl h (fun y7 y8 h9 => ?_)
    extract_lets -merge v10 v11 v12 v13
    have h14 : Keeps s v11 := Keeps.ite (fun _ => keeps_notePost (Keeps.upd h9)) (fun _ => h9)
    have h15 : Keeps s v12 := Keeps.ite (fun _ => keeps_updProg h14) (fun _ => h14)
    have h16 : Keeps s v13 := Keeps.ite (fun _ => keeps_updProg (Keeps.upd h15)) (fun _ => h15)
    exact Keeps.ite (fun _ => h9) (fun _ => Keeps.ite (fun _ => keeps_progRefuse h9) (fun _ => Keeps.ite (fun _ => keeps_checkpointOp h16) (fun _ => h16)))
  have h37 : Keeps s v5 := by
    unfold v5
    refine Keeps.ite (fun _ => keeps_postGap h17) (fun _ => ?_)
    refine Keeps.foldl h17 (fun y18 y19 h20 => ?_)
    refine Keeps.foldl h20 (fun y21 y22 h23 => ?_)
    split
    · rename_i e28
      have h29 := Keeps.pair e28 (keeps_snapRead h23)
      exact keeps_drawn (Keeps.foldl h29 (fun y30 y31 h32 => keeps_ageGain h32))
    · rename_i e35
      have h36 := Keeps.pair e35 (keeps_snapRead h23)
      exact h36
  have h41 : Keeps s v6 := Keeps.foldl h37 (fun y38 y39 h40 => keeps_snapSeen h40)
  exact keeps_signal h41

theorem keeps_powerTile {s u : State} {x1} {x2} (h : Keeps s u) :
    Keeps s (State.powerTile u x1 x2).2 := by
  unfold State.powerTile
  split
  rename_i y31 h32
  have h33 : Keeps s y31 := by
    refine (Keeps.pair h32 (Keeps.foldl2 (Keeps.mk2 h) (fun _ _ _ => ?_)))
    rename_i h41
    split
    · rename_i y57 h58
      have h59 := Keeps.pair h58 (keeps_snapRead h41)
      exact (Keeps.mk2 h59)
    · rename_i y64 h65
      have h66 := Keeps.pair h65 (keeps_snapRead h41)
      exact (Keeps.mk2 h66)
  extract_lets -merge v61 v62 v63
  exact (Keeps.mk2 (keeps_snapSeen (keeps_drawn h33)))

theorem keeps_powerJob {s u : State} {x1} {x2} (h : Keeps s u) :
    Keeps s (State.powerJob u x1 x2) := by
  unfold State.powerJob
  extract_lets v
  have hv : Keeps s v := Keeps.ite (fun _ => keeps_progEv h) (fun _ => h)
  have hr : Keeps s ((List.range 4).foldl (fun (a : List Nat × State) n =>
      ((a.1 ++ (a.2.powerTile x2 n).1, (a.2.powerTile x2 n).2) : List Nat × State)) ([], v)).2 :=
    Keeps.foldl2 hv (fun w n hw => keeps_powerTile hw)
  generalize List.foldl _ _ _ = r at hr ⊢
  exact keeps_signal (keeps_updHk (keeps_putDram hr))

theorem keeps_healthTake {s u : State} {x1} {x2} {x3} (h : Keeps s u) :
    Keeps s (State.healthTake u x1 x2 x3) := by
  unfold State.healthTake
  extract_lets -merge v1
  exact Keeps.ite (fun _ => h) (fun _ => Keeps.ite (fun _ => keeps_progRefuse h) (fun _ => Keeps.upd h))

theorem keeps_jobEffect {s u : State} {x1} (h : Keeps s u) :
    Keeps s (State.jobEffect u x1) := by
  unfold State.jobEffect
  split
  · exact h
  · extract_lets -merge v6 v7
    split
    · exact keeps_maskJob h
    · exact keeps_projJob h
    · exact keeps_patJob h
    · exact keeps_agingJob h
    · exact keeps_healthJob (Keeps.foldl h (fun y18 y19 h20 => keeps_healthTake h20))
    · exact keeps_powerJob h
    · exact h

end Sys2Proof.Machine
end

