-- ==== Sys2Proof/Laws/KeepsBeamEngine.lean ====
section
/-! SUPPORT. What the operations of Machine/BeamEngine.lean keep (Laws/Keeps.lean). -/

namespace Sys2Proof.Machine

theorem keeps_beStartOp {s u : State} {x1} (h : Keeps s u) :
    Keeps s (State.beStartOp u x1) := by
  unfold State.beStartOp
  exact (keeps_trigger h)

theorem keeps_execBeStart {s u : State} {x0} (h : Keeps s u) :
    KeepsR s (execBeStart x0 u) := by
  unfold execBeStart
  refine (KeepsR.next (keeps_viaReg h (fun _ _ => ?_)))
  rename_i y7 h8
  exact (keeps_beStartOp h8)

theorem keeps_beStopOp {s u : State} {x1} (h : Keeps s u) :
    Keeps s (State.beStopOp u x1) := by
  unfold State.beStopOp
  refine Keeps.ite (fun _ => h) (fun _ => ?_)
  extract_lets -merge v1 v2
  have h3 : Keeps s v1 := keeps_updEng h
  have h4 : Keeps s v2 := keeps_updEng h3
  exact Keeps.ite (fun _ => keeps_setF (keeps_setF (keeps_setBeState h4))) (fun _ => h3)

theorem keeps_execBeStop {s u : State} {x0} (h : Keeps s u) :
    KeepsR s (execBeStop x0 u) := by
  unfold execBeStop
  refine (KeepsR.next (keeps_viaReg h (fun _ _ => ?_)))
  rename_i y9 h10
  exact (keeps_beStopOp h10)

theorem keeps_beResetOp {s u : State} {x1} (h : Keeps s u) :
    Keeps s (State.beResetOp u x1) := by
  unfold State.beResetOp
  extract_lets -merge v5 v6
  have h11 : Keeps s v6 := (keeps_updEng h)
  exact (Keeps.ite (fun _ => h) (fun _ => (keeps_setF (keeps_setF (keeps_setBeState h11)))))

theorem keeps_execBeReset {s u : State} {x0} (h : Keeps s u) :
    KeepsR s (execBeReset x0 u) := by
  unfold execBeReset
  refine (KeepsR.next (keeps_viaReg h (fun _ _ => ?_)))
  rename_i y7 h8
  exact (keeps_beResetOp h8)

theorem keeps_beCmd {s u : State} {x1} {x2} (h : Keeps s u) :
    Keeps s (State.beCmd u x1 x2) := by
  unfold State.beCmd
  exact (Keeps.ite (fun _ => (keeps_beStartOp h)) (fun _ => (Keeps.ite (fun _ => (keeps_beStopOp h)) (fun _ => (Keeps.ite (fun _ => (keeps_beResetOp h)) (fun _ => h))))))

theorem keeps_beRestart {s u : State} {x1} (h : Keeps s u) : Keeps s (State.beRestart u x1) := by
  unfold State.beRestart
  refine Keeps.ite (fun _ => h) (fun _ => ?_)
  extract_lets old
  split
  rename_i v e
  have h1 : Keeps s v := by
    refine Keeps.pair e ?_
    split
    · exact keeps_reloadFrom h
    · exact h
  exact Keeps.ite (fun _ => keeps_post (keeps_setBeState (keeps_setEng (keeps_dropProg h1)))) (fun _ => h1)

theorem keeps_execEngineRestart {s u : State} {x0} (h : Keeps s u) : KeepsR s (execEngineRestart x0 u) :=
  KeepsR.next (Keeps.ite (fun _ => h) (fun _ => keeps_beRestart h))

theorem keeps_execJobTrigger {s u : State} {x0} {x1} (h : Keeps s u) :
    KeepsR s (execJobTrigger x0 x1 u) := by
  unfold execJobTrigger
  refine KeepsR.next ?_
  split
  · exact (keeps_trigger h)
  · exact h

theorem keeps_endJob {s u : State} {x1} (h : Keeps s u) :
    Keeps s (State.endJob u x1) := by
  unfold State.endJob
  extract_lets -merge v1
  have h2 : Keeps s v1 := keeps_updEng h
  exact keeps_jobDone (keeps_jobEffect h2)

theorem keeps_execHalt {s u : State} {x0} {x1} (h : Keeps s u) :
    KeepsR s (execHalt x0 x1 u) := by
  unfold execHalt
  refine (KeepsR.next (keeps_keav h (fun _ _ => ?_)))
  rename_i y14 h15
  refine KeepsK.ite (fun _ => ?_) (fun _ => ?_)
  · exact (keeps_beWait h15)
  · exact (keeps_endJob h15)

theorem keeps_execHaltComplete {s u : State} {x0} (h : Keeps s u) :
    KeepsR s (execHaltComplete x0 u) := by
  unfold execHaltComplete
  exact KeepsR.next (Keeps.ite (fun _ => h) (fun _ => keeps_endJob (keeps_waitCount h)))

theorem keeps_dmaRoom {s u : State} {x1} (h : Keeps s u) :
    Keeps s (State.dmaRoom u x1) := by
  unfold State.dmaRoom
  refine (Keeps.ite (fun _ => h) (fun _ => ?_))
  split
  · exact (Keeps.ite (fun _ => (keeps_beResume (keeps_updEng h))) (fun _ => h))
  · exact (Keeps.ite (fun _ => (keeps_beResume h)) (fun _ => h))
  · exact h

theorem keeps_execDmaQueueRoom {s u : State} {x0} (h : Keeps s u) :
    KeepsR s (execDmaQueueRoom x0 u) := by
  unfold execDmaQueueRoom
  exact (KeepsR.next (keeps_dmaRoom h))

theorem keeps_fsigDone {s u : State} {x1} (h : Keeps s u) :
    Keeps s (State.fsigDone u x1) := by
  unfold State.fsigDone
  refine (Keeps.ite (fun _ => h) (fun _ => ?_))
  split
  · exact (Keeps.ite (fun _ => h) (fun _ => (keeps_beResume (keeps_signal h))))
  · exact h

theorem keeps_execFsigWritesVisible {s u : State} {x0} (h : Keeps s u) :
    KeepsR s (execFsigWritesVisible x0 u) := by
  unfold execFsigWritesVisible
  exact (KeepsR.next (keeps_fsigDone h))

theorem keeps_fwaitDone {s u : State} {x1} (h : Keeps s u) :
    Keeps s (State.fwaitDone u x1) := by
  unfold State.fwaitDone
  refine (Keeps.ite (fun _ => h) (fun _ => ?_))
  split
  · exact (Keeps.ite (fun _ => (keeps_beResume h)) (fun _ => h))
  · exact h

theorem keeps_execFwaitSatisfied {s u : State} {x0} (h : Keeps s u) :
    KeepsR s (execFwaitSatisfied x0 u) := by
  unfold execFwaitSatisfied
  exact (KeepsR.next (keeps_fwaitDone h))

theorem keeps_fwaitLate {s u : State} {x1} (h : Keeps s u) :
    Keeps s (State.fwaitLate u x1) := by
  unfold State.fwaitLate
  refine (Keeps.ite (fun _ => h) (fun _ => ?_))
  split
  · exact (keeps_engineTrap h)
  · exact h

theorem keeps_execFwaitTimeout {s u : State} {x0} (h : Keeps s u) :
    KeepsR s (execFwaitTimeout x0 u) := by
  unfold execFwaitTimeout
  exact (KeepsR.next (keeps_fwaitLate h))

theorem keeps_mbDeliver {s u : State} {x1} (h : Keeps s u) :
    Keeps s (State.mbDeliver u x1) := by
  unfold State.mbDeliver
  refine (Keeps.ite (fun _ => h) (fun _ => ?_))
  split
  · exact (keeps_beResume (keeps_putS (keeps_updEng h)))
  · exact h

theorem keeps_execMbrecvDelivered {s u : State} {x0} (h : Keeps s u) :
    KeepsR s (execMbrecvDelivered x0 u) := by
  unfold execMbrecvDelivered
  exact (KeepsR.next (keeps_mbDeliver h))

theorem keeps_watchdogOp {s u : State} {x1} (h : Keeps s u) :
    Keeps s (State.watchdogOp u x1) := by
  unfold State.watchdogOp
  exact (Keeps.ite (fun _ => (keeps_engineTrap h)) (fun _ => h))

theorem keeps_execWatchdog {s u : State} {x0} (h : Keeps s u) :
    KeepsR s (execWatchdog x0 u) := by
  unfold execWatchdog
  exact (KeepsR.next (keeps_watchdogOp h))

end Sys2Proof.Machine
end

