-- ==== Sys2Proof/Laws/KeepsHamper.lean ====
section
/-! SUPPORT. What the operations of Machine/Hamper.lean keep (Laws/Keeps.lean). -/

namespace Sys2Proof.Machine

theorem keeps_updHamper {s u : State} {x1} (h : Keeps s u) :
    Keeps s (State.updHamper u x1) := by
  unfold State.updHamper
  exact (Keeps.upd h)

theorem keeps_storeEv {s u : State} {x1} {x2} (h : Keeps s u) :
    Keeps s (State.storeEv u x1 x2) := by
  unfold State.storeEv
  extract_lets -merge v6 v7
  have h10 : Keeps s v6 := (keeps_updHamper h)
  exact (Keeps.ite (fun _ => (keeps_updHamper (keeps_setF h10))) (fun _ => h10))

theorem keeps_hamperIn {s u : State} {x1} (h : Keeps s u) :
    Keeps s (State.hamperIn u x1) := by
  unfold State.hamperIn
  extract_lets -merge v5
  split
  rename_i y22 h23
  have h24 := Keeps.pair h23 (keeps_takeSeq h)
  extract_lets -merge v15
  have h17 : Keeps s v15 := (Keeps.ite (fun _ => (keeps_updHamper h24)) (fun _ => h24))
  refine (Keeps.ite (fun _ => (keeps_spoolEv (keeps_storeEv h17))) (fun _ => ?_))
  split
  · extract_lets -merge v21 v22
    have h32 : Keeps s v21 := (keeps_updHamper h17)
    have h25 : Keeps s v22 := (keeps_spoolEv (keeps_storeEv h32))
    exact (keeps_noteLoss (keeps_bump h25))
  · exact (keeps_noteLoss (keeps_bump (keeps_spoolEv h17)))

theorem keeps_boxCheck {s u : State} {x1} (h : Keeps s u) :
    Keeps s (State.boxCheck u x1).2 := by
  unfold State.boxCheck
  split
  · exact h
  · exact keeps_synFound (keeps_updHamper h)

theorem keeps_boxTake {s u : State} {x1} (h : Keeps s u) :
    Keeps s (State.boxTake u x1) := by
  unfold State.boxTake
  split
  rename_i e4
  have h5 := Keeps.pair e4 (keeps_boxCheck (keeps_updHamper h))
  exact Keeps.ite (fun _ => keeps_loseEv h5) (fun _ => keeps_hamperIn h5)

theorem keeps_execHamperAccept {s u : State} (h : Keeps s u) :
    KeepsR s (execHamperAccept u) := by
  unfold execHamperAccept
  refine KeepsR.next ?_
  split
  · exact h
  · exact keeps_boxTake h

theorem keeps_pushHeld {s u : State} {x1} (h : Keeps s u) :
    Keeps s (State.pushHeld u x1) := by
  unfold State.pushHeld
  refine (Keeps.foldl h (fun _ _ _ => ?_))
  rename_i y8 y9 h10
  exact (keeps_hamperIn (Keeps.ite (fun _ => (keeps_wakeNote h10)) (fun _ => h10)))

theorem keeps_evtHead {s u : State} (h : Keeps s u) :
    Keeps s (State.evtHead u).2 := by
  unfold State.evtHead
  extract_lets -merge v4 v5
  split
  · exact (Keeps.mk2 (keeps_updHamper h))
  · exact (Keeps.mk2 (keeps_updHamper h))
  · split
    · exact (Keeps.mk2 (keeps_updHamper h))
    · exact (Keeps.mk2 h)

theorem keeps_evtCheck {s u : State} {x1} (h : Keeps s u) :
    Keeps s (State.evtCheck u x1).2 := by
  unfold State.evtCheck
  split
  · exact (Keeps.mk2 h)
  · exact (keeps_synFound (keeps_updHamper h))

theorem keeps_evtLose {s u : State} {x1} (h : Keeps s u) :
    Keeps s (State.evtLose u x1) := by
  unfold State.evtLose
  split
  rename_i e4
  have h5 := Keeps.pair e4 (keeps_fresh h)
  extract_lets -merge v6
  exact keeps_noteLoss (keeps_bump h5)

theorem keeps_evtTake {s u : State} {x1} (h : Keeps s u) :
    Keeps s (State.evtTake u x1).2 := by
  induction x1 generalizing u with
  | zero => exact h
  | succ k ih =>
    have h1 := keeps_evtHead h
    rw [State.evtTake]
    generalize State.evtHead u = r at h1 ⊢
    obtain ⟨c, v⟩ := r
    cases c with
    | none => exact h1
    | some c =>
      have h2 := keeps_evtCheck (x1 := c) (u := v) h1
      dsimp only
      generalize State.evtCheck v c = r at h2 ⊢
      exact Keeps.ite2 (fun _ => ih (keeps_evtLose h2)) (fun _ => h2)

theorem keeps_evtNext {s u : State} (h : Keeps s u) :
    Keeps s (State.evtNext u).2 := by
  unfold State.evtNext
  exact (keeps_evtTake h)

theorem keeps_evtPop {s u : State} {x1} (h : Keeps s u) :
    Keeps s (State.evtPop u x1).2 := by
  unfold State.evtPop
  refine (Keeps.ite2 (fun _ => (Keeps.mk2 h)) (fun _ => ?_))
  split
  · exact (Keeps.mk2 (keeps_updHamper h))
  · split
    · rename_i y21 h22
      have h23 := Keeps.pair h22 (keeps_evtNext h)
      exact (Keeps.mk2 h23)
    · rename_i y31 h32
      have h33 := Keeps.pair h32 (keeps_evtNext h)
      extract_lets -merge v19
      have h21 : Keeps s v19 := (keeps_updHamper h33)
      exact (Keeps.mk2 h21)

theorem keeps_execEvtPop {s u : State} {x0} (h : Keeps s u) :
    KeepsR s (execEvtPop x0 u) := by
  unfold execEvtPop
  split
  rename_i y13 h14
  have h15 := Keeps.pair h14 (keeps_evtPop h)
  exact (KeepsR.next (Keeps.upd h15))

theorem keeps_evtSkip {s u : State} (h : Keeps s u) :
    Keeps s (State.evtSkip u) := by
  unfold State.evtSkip
  exact (keeps_updHamper h)

theorem keeps_execEvtSkip {s u : State} (h : Keeps s u) :
    KeepsR s (execEvtSkip u) := by
  unfold execEvtSkip
  refine (KeepsR.next (keeps_viaReg h (fun _ _ => ?_)))
  rename_i y10 h11
  exact (keeps_evtSkip h11)

theorem keeps_evtOwner {s u : State} {x1} (h : Keeps s u) :
    Keeps s (State.evtOwner u x1) := by
  unfold State.evtOwner
  extract_lets -merge v10 v11
  have h7 : Keeps s v11 := (Keeps.ite (fun _ => h) (fun _ => (keeps_evtSkip h)))
  exact (keeps_setF (keeps_setF h7))

theorem keeps_execEvtOwnerWrite {s u : State} {x0} (h : Keeps s u) :
    KeepsR s (execEvtOwnerWrite x0 u) := by
  unfold execEvtOwnerWrite
  refine (KeepsR.next (keeps_viaRegV h (fun _ _ _ => ?_)))
  rename_i y10 h11
  exact (keeps_evtOwner h11)

theorem keeps_evtTakeover {s u : State} (h : Keeps s u) :
    Keeps s (State.evtTakeover u) := by
  unfold State.evtTakeover
  extract_lets -merge v4 v5
  have h8 : Keeps s v4 := (Keeps.ite (fun _ => h) (fun _ => (keeps_evtSkip h)))
  have h12 : Keeps s v5 := (keeps_raise (keeps_setF h8))
  exact (Keeps.ite (fun _ => h) (fun _ => (keeps_hostEv h12)))

theorem keeps_refillTokens {s u : State} (h : Keeps s u) :
    Keeps s (State.refillTokens u) := by
  unfold State.refillTokens
  extract_lets -merge v7
  exact (keeps_updHamper h)

theorem keeps_streamTake {s u : State} {x1} (h : Keeps s u) :
    Keeps s (State.streamTake u x1) := by
  unfold State.streamTake
  extract_lets -merge v8 v9
  exact (Keeps.ite (fun _ => (keeps_updHamper h)) (fun _ => (Keeps.ite (fun _ => (keeps_updHamper (keeps_updHamper h))) (fun _ => (keeps_updHamper h)))))

theorem keeps_streamRead {s u : State} {x1} (h : Keeps s u) :
    Keeps s (State.streamRead u x1) := by
  induction x1 generalizing u with
  | zero => exact h
  | succ k ih =>
    have h1 := keeps_evtNext h
    rw [State.streamRead]
    refine Keeps.ite (fun _ => h) (fun _ => ?_)
    generalize State.evtNext u = r at h1 ⊢
    obtain ⟨c, v⟩ := r
    cases c with
    | none => exact h1
    | some c => exact ih (keeps_streamTake h1)

theorem keeps_eventsOut {s u : State} (h : Keeps s u) :
    Keeps s (State.eventsOut u) := by
  unfold State.eventsOut
  extract_lets -merge v4 v5 v6
  have h10 : Keeps s v6 := by
    refine (Keeps.foldl h (fun _ _ _ => ?_))
    rename_i y14 y15 h16
    exact (Keeps.ite (fun _ => (keeps_sendRec h16)) (fun _ => h16))
  exact (keeps_updHamper h10)

theorem keeps_execEventsSend {s u : State} (h : Keeps s u) :
    KeepsR s (execEventsSend u) := by
  unfold execEventsSend
  extract_lets -merge v4
  have h6 : Keeps s v4 := (Keeps.ite (fun _ => (keeps_streamRead (keeps_refillTokens h))) (fun _ => h))
  exact (KeepsR.next (Keeps.ite (fun _ => h) (fun _ => (Keeps.ite (fun _ => (keeps_eventsOut h6)) (fun _ => h6)))))

theorem keeps_canBusOff {s u : State} {x1} (h : Keeps s u) :
    Keeps s (State.canBusOff u x1) := by
  unfold State.canBusOff
  exact keeps_hostEv (keeps_setF (keeps_setF h))

theorem keeps_canSend {s u : State} {x1} {x2} {x3} (h : Keeps s u) :
    Keeps s (State.canSend u x1 x2 x3) := by
  unfold State.canSend
  refine Keeps.ite (fun _ => h) (fun _ => ?_)
  extract_lets -merge v1
  exact Keeps.ite (fun _ => keeps_canBusOff h) (fun _ => keeps_updHost (keeps_setF h))

theorem keeps_execLampAlarm {s u : State} {x0} {x1} (h : Keeps s u) :
    KeepsR s (execLampAlarm x0 x1 u) := by
  unfold execLampAlarm
  refine KeepsR.next ?_
  refine Keeps.ite (fun _ => h) (fun _ => ?_)
  extract_lets -merge v1 v2
  have h3 : Keeps s v2 := keeps_updHamper (keeps_updHost h)
  exact keeps_canSend (keeps_canSend h3)

end Sys2Proof.Machine
end

