-- ==== Sys2Proof/Laws/KeepsSpool.lean ====
section
/-! SUPPORT. What the operations of Machine/Spool.lean keep (Laws/Keeps.lean). -/

namespace Sys2Proof.Machine

theorem keeps_updSpool {s u : State} {x1} (h : Keeps s u) :
    Keeps s (State.updSpool u x1) := by
  unfold State.updSpool
  exact (Keeps.upd h)

theorem keeps_spFreezeNow {s u : State} (h : Keeps s u) :
    Keeps s (State.spFreezeNow u) := by
  unfold State.spFreezeNow
  exact (keeps_hostEv (keeps_setF h))

theorem keeps_spMarkGone {s u : State} {x1} (h : Keeps s u) :
    Keeps s (State.spMarkGone u x1) := by
  unfold State.spMarkGone
  extract_lets -merge v5
  have h8 : Keeps s v5 := (keeps_raise (keeps_setF h))
  exact (keeps_hostEv h8)

theorem keeps_spOverwrite {s u : State} {x1} {x2} (h : Keeps s u) :
    Keeps s (State.spOverwrite u x1 x2) := by
  unfold State.spOverwrite
  extract_lets -merge v7
  have h10 : Keeps s v7 := (Keeps.ite (fun _ => (keeps_spMarkGone h)) (fun _ => h))
  exact (Keeps.ite (fun _ => (keeps_raise (keeps_setRegN h10))) (fun _ => h10))

theorem keeps_spHalf {s u : State} (h : Keeps s u) :
    Keeps s (State.spHalf u) := by
  unfold State.spHalf
  extract_lets -merge v8
  have h10 : Keeps s v8 := (keeps_updSpool h)
  exact (Keeps.ite (fun _ => (keeps_spFreezeNow h10)) (fun _ => h10))

theorem keeps_overwrite {s u : State} {off} {o : Option Nat} (h : Keeps s u) :
    Keeps s (match o with
      | some seq => u.spOverwrite off seq
      | none => u) := by
  cases o with
  | none => exact h
  | some _ => exact keeps_spOverwrite h

theorem keeps_spWriteRec {s u : State} {x1} (h : Keeps s u) :
    Keeps s (State.spWriteRec u x1) := by
  unfold State.spWriteRec
  dsimp only
  refine Keeps.ite (fun _ => keeps_spHalf ?_) (fun _ => ?_) <;>
    exact keeps_overwrite (keeps_setRegN (keeps_setRegN (keeps_setRegN (keeps_updSpool (keeps_writeMem h)))))

theorem keeps_bufCheck {s u : State} {x1} (h : Keeps s u) :
    Keeps s (State.bufCheck u x1).2 := by
  unfold State.bufCheck
  split
  · exact h
  · exact keeps_synFound (keeps_updSpool h)

theorem keeps_spDrain {s u : State} {x1} (h : Keeps s u) :
    Keeps s (State.spDrain u x1) := by
  unfold State.spDrain
  split
  rename_i e4
  have h5 := Keeps.pair e4 (keeps_bufCheck h)
  exact Keeps.ite (fun _ => keeps_bump h5) (fun _ => Keeps.ite (fun _ => keeps_bump h5) (fun _ => keeps_spWriteRec h5))

theorem keeps_execSpoolWrite {s u : State} (h : Keeps s u) :
    KeepsR s (execSpoolWrite u) := by
  unfold execSpoolWrite
  refine KeepsR.next ?_
  split
  · exact h
  · exact Keeps.ite (fun _ => h) (fun _ => keeps_spDrain (keeps_updSpool h))

theorem keeps_traceStep {s u : State} (h : Keeps s u) :
    Keeps s (State.traceStep u) := by
  unfold State.traceStep
  refine Keeps.ite (fun _ => h) (fun _ => ?_)
  split
  rename_i e4
  have h5 := Keeps.pair e4 (keeps_fresh h)
  refine Keeps.ite (fun _ => ?_) (fun _ => h5)
  extract_lets -merge v6
  exact keeps_spoolPut (keeps_drawn h5)

theorem keeps_spLoad {s u : State} {x1} (h : Keeps s u) :
    Keeps s (State.spLoad u x1) := by
  unfold State.spLoad
  split
  rename_i y23 h24
  have h25 := Keeps.pair h24 (keeps_readMem h)
  exact (keeps_setRegN (keeps_setRegWords h25))

theorem keeps_spOldest {s u : State} (h : Keeps s u) :
    Keeps s (State.spOldest u) := by
  unfold State.spOldest
  exact (Keeps.ite (fun _ => h) (fun _ => (keeps_spLoad h)))

theorem keeps_spNext {s u : State} (h : Keeps s u) :
    Keeps s (State.spNext u) := by
  unfold State.spNext
  extract_lets -merge v4
  exact (Keeps.ite (fun _ => h) (fun _ => (keeps_spLoad h)))

theorem keeps_spSetMark {s u : State} (h : Keeps s u) :
    Keeps s (State.spSetMark u) := by
  unfold State.spSetMark
  exact (Keeps.ite (fun _ => h) (fun _ => (keeps_setF (keeps_setRegN h))))

theorem keeps_spRewind {s u : State} (h : Keeps s u) :
    Keeps s (State.spRewind u) := by
  unfold State.spRewind
  exact (Keeps.ite (fun _ => h) (fun _ => (Keeps.ite (fun _ => (keeps_spLoad h)) (fun _ => (keeps_spOldest (keeps_raise h))))))

theorem keeps_spRearm {s u : State} (h : Keeps s u) :
    Keeps s (State.spRearm u) := by
  unfold State.spRearm
  exact (Keeps.ite (fun _ => (keeps_hostEv (keeps_setF h))) (fun _ => h))

theorem keeps_spCmd {s u : State} {x1} (h : Keeps s u) :
    Keeps s (State.spCmd u x1) := by
  unfold State.spCmd
  split
  · exact (keeps_spNext h)
  · exact (keeps_spOldest h)
  · exact (keeps_spSetMark h)
  · exact (keeps_spRewind h)
  · exact (keeps_spoolTrigger h)
  · exact (keeps_spRearm h)
  · exact h

theorem keeps_execSpNext {s u : State} (h : Keeps s u) :
    KeepsR s (execSpNext u) := by
  unfold execSpNext
  refine (KeepsR.next (keeps_viaReg h (fun _ _ => ?_)))
  rename_i y6 h7
  exact (keeps_spCmd h7)

theorem keeps_execSpOldest {s u : State} (h : Keeps s u) :
    KeepsR s (execSpOldest u) := by
  unfold execSpOldest
  refine (KeepsR.next (keeps_viaReg h (fun _ _ => ?_)))
  rename_i y6 h7
  exact (keeps_spCmd h7)

theorem keeps_execSpSetMark {s u : State} (h : Keeps s u) :
    KeepsR s (execSpSetMark u) := by
  unfold execSpSetMark
  refine (KeepsR.next (keeps_viaReg h (fun _ _ => ?_)))
  rename_i y8 h9
  exact (keeps_spCmd h9)

theorem keeps_execSpRewind {s u : State} (h : Keeps s u) :
    KeepsR s (execSpRewind u) := by
  unfold execSpRewind
  refine (KeepsR.next (keeps_viaReg h (fun _ _ => ?_)))
  rename_i y6 h7
  exact (keeps_spCmd h7)

theorem keeps_execSpFreeze {s u : State} (h : Keeps s u) :
    KeepsR s (execSpFreeze u) := by
  unfold execSpFreeze
  refine (KeepsR.next (keeps_viaReg h (fun _ _ => ?_)))
  rename_i y8 h9
  exact (keeps_spCmd h9)

theorem keeps_execSpRearm {s u : State} (h : Keeps s u) :
    KeepsR s (execSpRearm u) := by
  unfold execSpRearm
  refine (KeepsR.next (keeps_viaReg h (fun _ _ => ?_)))
  rename_i y10 h11
  exact (keeps_spCmd h11)

theorem keeps_execSpFrozen {s u : State} (h : Keeps s u) :
    KeepsR s (execSpFrozen u) := by
  unfold execSpFrozen
  exact (KeepsR.next (Keeps.ite (fun _ => (keeps_spFreezeNow h)) (fun _ => h)))

theorem keeps_spRead {s u : State} {x1} {x2} (h : Keeps s u) :
    Keeps s (State.spRead u x1 x2).2 := by
  unfold State.spRead
  refine (Keeps.foldl2 (Keeps.mk2 h) (fun _ _ _ => ?_))
  rename_i h11
  split
  rename_i y19
  split
  rename_i y33 h34
  have h35 := Keeps.pair h34 (keeps_readMem h11)
  exact (Keeps.mk2 h35)

end Sys2Proof.Machine
end

