-- ==== Sys2Proof/Laws/KeepsStartup.lean ====
section
/-! SUPPORT. What the operations of Machine/Startup.lean keep (Laws/Keeps.lean). -/

namespace Sys2Proof.Machine

theorem keeps_coreReset {s u : State} {mem : List Host.Cell} {synd} (h : Keeps s u) (k : Memory.wf u.mem → Memory.wf mem) :
    Keeps s (u.coreReset mem synd) :=
  keeps_setReg ⟨⟨h.fixed.pending, h.fixed.part, h.fixed.stepping, h.fixed.otp, h.fixed.draws⟩, fun w =>
    have t := h.tables w
    ⟨k t.mem, tabWf_nil _, tabWf_nil _, tabWf_nil _, t.store, tabWf_nil _⟩⟩

theorem keeps_coreReset_empty {s u : State} (h : Keeps s u) : Keeps s (u.coreReset [] []) :=
  keeps_coreReset h (fun _ => tabWf_nil _)

theorem keeps_pmicOn {s u : State} {x1} {x2} {x3} (h : Keeps s u) :
    Keeps s (State.pmicOn u x1 x2 x3) := by
  unfold State.pmicOn
  extract_lets -merge v7 v8
  have h9 : Keeps s v7 := (keeps_updBoot h)
  have h11 : Keeps s v8 := (keeps_setRegN (keeps_setF h9))
  exact (keeps_post (keeps_setF h11))

theorem keeps_startOff {s u : State} {x1} (h : Keeps s u) :
    Keeps s (State.startOff u x1) := by
  unfold State.startOff
  exact keeps_pmicOn (keeps_coreReset_empty h)

theorem keeps_startDeep {s u : State} {x1} (h : Keeps s u) :
    Keeps s (State.startDeep u x1) := by
  unfold State.startDeep
  exact (keeps_pmicOn (keeps_updBoot h))

theorem keeps_wakeN {s u : State} (h : Keeps s u) :
    Keeps s (State.wakeN u) := by
  unfold State.wakeN
  exact Keeps.ite (fun _ => h) (fun _ => Keeps.ite (fun _ => Keeps.ite (fun _ => keeps_startDeep h) (fun _ => keeps_startOff h)) (fun _ => keeps_wakeNote h))

theorem keeps_execWakeN {s u : State} (h : Keeps s u) :
    KeepsR s (execWakeN u) := by
  unfold execWakeN
  exact (KeepsR.next (Keeps.ite (fun _ => h) (fun _ => (Keeps.ite (fun _ => (Keeps.ite (fun _ => (keeps_startDeep h)) (fun _ => (keeps_startOff h)))) (fun _ => (keeps_wakeNote h))))))

theorem keeps_pmicBack {s u : State} (h : Keeps s u) :
    Keeps s (State.pmicBack u) := by
  unfold State.pmicBack
  exact keeps_updBoot h

theorem keeps_pmicStep {s u : State} (h : Keeps s u) :
    Keeps s (State.pmicStep u) := by
  unfold State.pmicStep
  split
  · exact Keeps.ite (fun _ => keeps_pmicBack h) (fun _ => h)
  · exact h

theorem keeps_execPorstNRise {s u : State} (h : Keeps s u) :
    KeepsR s (execPorstNRise u) := by
  unfold execPorstNRise
  refine KeepsR.next ?_
  refine Keeps.ite (fun _ => h) (fun _ => ?_)
  extract_lets -merge v1
  have h2 : Keeps s v1 := keeps_updBoot (keeps_pmicBack h)
  exact keeps_setF h2

theorem keeps_execPorstNLow {s u : State} (h : Keeps s u) :
    KeepsR s (execPorstNLow u) := by
  unfold execPorstNLow
  refine KeepsR.next (Keeps.ite (fun _ => h) (fun _ => keeps_setF (keeps_updBoot (keeps_coreReset h ?_))))
  exact fun w => tabWf_filter _ _ w

theorem keeps_wakeFail {s u : State} {x1} {x2} (h : Keeps s u) :
    Keeps s (State.wakeFail u x1 x2) := by
  unfold State.wakeFail
  exact keeps_setF (keeps_setRegN (keeps_assertFault (keeps_coreReset_empty h)))

theorem keeps_execPgTimeout {s u : State} (h : Keeps s u) :
    KeepsR s (execPgTimeout u) := by
  unfold execPgTimeout
  exact (KeepsR.next (Keeps.ite (fun _ => h) (fun _ => (Keeps.ite (fun _ => (keeps_bumpF (keeps_updBoot h))) (fun _ => (keeps_wakeFail h))))))

theorem keeps_execFioCheck {s u : State} {x0} (h : Keeps s u) :
    KeepsR s (execFioCheck x0 u) := by
  unfold execFioCheck
  extract_lets -merge v5
  have h7 : Keeps s v5 := (keeps_setF (keeps_updBoot h))
  exact (KeepsR.next (Keeps.ite (fun _ => h) (fun _ => (Keeps.ite (fun _ => (keeps_otpShow (keeps_setF h7))) (fun _ => (Keeps.ite (fun _ => (keeps_bumpF (keeps_updBoot h))) (fun _ => (keeps_wakeFail h))))))))

theorem keeps_bootEv {s u : State} {x1} {x2} (h : Keeps s u) :
    Keeps s (State.bootEv u x1 x2) := by
  unfold State.bootEv
  exact (keeps_post h)

theorem keeps_imageFail {s u : State} {x1} {x2} (h : Keeps s u) :
    Keeps s (State.imageFail u x1 x2) := by
  unfold State.imageFail
  exact (keeps_bootEv (keeps_loadError h))

theorem keeps_toVerify {s u : State} (h : Keeps s u) :
    Keeps s (State.toVerify u) := by
  unfold State.toVerify
  exact (keeps_updBoot (keeps_setBs h))

theorem keeps_loadFlash {s u : State} {x1} {x2} (h : Keeps s u) :
    Keeps s (State.loadFlash u x1 x2).2 := by
  unfold State.loadFlash
  exact keeps_loadPhase1 (keeps_stageFile h)

theorem keeps_bootLoad {s u : State} (h : Keeps s u) :
    Keeps s (State.bootLoad u) := by
  unfold State.bootLoad
  split
  · rename_i e3
    have h4 := Keeps.pair e3 (keeps_loadFlash h)
    exact keeps_toVerify h4
  · rename_i e8
    have h9 := Keeps.pair e8 (keeps_loadFlash h)
    extract_lets -merge v10
    have h11 : Keeps s v10 := keeps_imageFail h9
    split
    · rename_i e14
      have h15 := Keeps.pair e14 (keeps_loadFlash h11)
      exact keeps_toVerify h15
    · rename_i e19
      have h20 := Keeps.pair e19 (keeps_loadFlash h11)
      extract_lets -merge v21
      have h22 : Keeps s v21 := keeps_assertFault (keeps_imageFail h20)
      exact keeps_updBoot (keeps_setBs h22)

theorem keeps_refclkFound {s u : State} (h : Keeps s u) :
    Keeps s (State.refclkFound u) := by
  unfold State.refclkFound
  exact (keeps_setF (keeps_updBoot h))

theorem keeps_refclkFirst {s u : State} {x1} (h : Keeps s u) :
    Keeps s (State.refclkFirst u x1) := by
  unfold State.refclkFirst
  exact (Keeps.ite (fun _ => (keeps_refclkFound h)) (fun _ => (keeps_bootEv (keeps_assertFault (keeps_setF h)))))

theorem keeps_execRefclkCheck {s u : State} {x0} (h : Keeps s u) :
    KeepsR s (execRefclkCheck x0 u) := by
  unfold execRefclkCheck
  extract_lets -merge v6
  have h10 : Keeps s v6 := (keeps_refclkFirst h)
  exact (KeepsR.next (Keeps.ite (fun _ => h) (fun _ => (Keeps.ite (fun _ => (keeps_updBoot h10)) (fun _ => (keeps_bootLoad h10))))))

theorem keeps_refill {s u : State} (h : Keeps s u) :
    Keeps s (State.refill u) := by
  unfold State.refill
  exact Keeps.foldl h (fun y1 y2 h3 => Keeps.ite (fun _ => keeps_refillTile h3) (fun _ => h3))

theorem keeps_warmData {s u : State} (h : Keeps s u) :
    Keeps s (State.warmData u) := by
  unfold State.warmData
  extract_lets -merge v1 v2 v3
  have h4 : Keeps s v1 := keeps_setF (keeps_updBoot h)
  have h10 : Keeps s v2 := by
    unfold v2
    split
    · exact keeps_updBoot (keeps_setBs h4)
    · exact h4
  have h11 : Keeps s v3 := Keeps.ite (fun _ => keeps_setF h10) (fun _ => h10)
  exact keeps_mapReads (keeps_refill (keeps_updPwr h11))

theorem keeps_warmGo {s u : State} (h : Keeps s u) :
    Keeps s (State.warmGo u) := by
  unfold State.warmGo
  exact Keeps.ite (fun _ => keeps_warmData h) (fun _ => h)

theorem keeps_execRefclkRecheck {s u : State} {x0} (h : Keeps s u) :
    KeepsR s (execRefclkRecheck x0 u) := by
  unfold execRefclkRecheck
  exact KeepsR.next (Keeps.ite (fun _ => h) (fun _ => keeps_bootEv (keeps_refclkFound (keeps_releaseFault (keeps_setF h)))))

theorem keeps_portsUp {s u : State} (h : Keeps s u) :
    Keeps s (State.portsUp u) := by
  unfold State.portsUp
  refine (Keeps.ite (fun _ => h) (fun _ => (Keeps.foldl h (fun _ _ _ => ?_))))
  rename_i y12 y13 h14
  exact (Keeps.ite (fun _ => h14) (fun _ => (keeps_enableOp h14)))

theorem keeps_fwStart {s u : State} (h : Keeps s u) :
    Keeps s (State.fwStart u) := by
  unfold State.fwStart
  extract_lets -merge v1 v2 v3
  have h4 : Keeps s v2 := keeps_updBoot h
  have h5 : Keeps s v3 := keeps_pushHeld h4
  exact keeps_heard (keeps_portsUp (keeps_stateRec h5))

theorem keeps_railsDone {s u : State} (h : Keeps s u) :
    Keeps s (State.railsDone u) := by
  unfold State.railsDone
  exact (keeps_fwStart (keeps_setF h))

theorem keeps_envFail {s u : State} (h : Keeps s u) :
    Keeps s (State.envFail u) := by
  unfold State.envFail
  extract_lets -merge v1
  have h2 : Keeps s v1 := keeps_updLoader (keeps_loadError h)
  exact keeps_assertFault (keeps_setBs h2)

theorem keeps_envAgain {s u : State} (h : Keeps s u) :
    Keeps s (State.envAgain u) := by
  unfold State.envAgain
  extract_lets -merge v1
  have h2 : Keeps s v1 := keeps_updBoot h
  exact Keeps.ite (fun _ => keeps_envFail h2) (fun _ => h2)

theorem keeps_execPmicIdentityRead {s u : State} {x0} (h : Keeps s u) :
    KeepsR s (execPmicIdentityRead x0 u) := by
  unfold execPmicIdentityRead
  refine KeepsR.next ?_
  refine Keeps.ite (fun _ => h) (fun _ => ?_)
  refine Keeps.ite (fun _ => ?_) (fun _ => keeps_updBoot (keeps_envFail h))
  refine Keeps.ite (fun _ => keeps_envAgain h) (fun _ => ?_)
  extract_lets -merge v1
  have h2 : Keeps s v1 := keeps_updBoot h
  exact Keeps.ite (fun _ => keeps_railsDone h2) (fun _ => h2)

theorem keeps_execRailPowerGood {s u : State} (h : Keeps s u) :
    KeepsR s (execRailPowerGood u) := by
  unfold execRailPowerGood
  extract_lets -merge v5 v6 v7
  have h11 : Keeps s v7 := (keeps_updBoot h)
  exact (KeepsR.next (Keeps.ite (fun _ => h) (fun _ => (Keeps.ite (fun _ => (keeps_railsDone h11)) (fun _ => h11)))))

theorem keeps_execRailFail {s u : State} (h : Keeps s u) :
    KeepsR s (execRailFail u) := by
  unfold execRailFail
  extract_lets -merge v4 v5
  have h6 : Keeps s v5 := (keeps_updBoot h)
  exact (KeepsR.next (Keeps.ite (fun _ => h) (fun _ => (keeps_bootEv (keeps_assertFault (keeps_setBs h6))))))

theorem keeps_frcResume {s u : State} (h : Keeps s u) :
    Keeps s (State.frcResume u) := by
  unfold State.frcResume
  extract_lets -merge v6
  split
  rename_i y16 h17
  have h18 := Keeps.pair h17 (Keeps.ite2 (fun _ => (keeps_fresh h)) (fun _ => (Keeps.mk2 h)))
  extract_lets -merge v19 v20 v21 v22 v23 v24
  have h32 : Keeps s v24 := (keeps_setResid (Keeps.upd h18))
  exact (Keeps.ite (fun _ => h32) (fun _ => (keeps_schedStep h32)))

theorem keeps_frcStart {s u : State} (h : Keeps s u) :
    Keeps s (State.frcStart u) := by
  unfold State.frcStart
  extract_lets -merge v4
  exact (Keeps.ite (fun _ => (keeps_frcResume h)) (fun _ => (Keeps.upd h)))

theorem keeps_execPllLock {s u : State} {x0} (h : Keeps s u) :
    KeepsR s (execPllLock x0 u) := by
  unfold execPllLock
  refine KeepsR.next ?_
  refine Keeps.ite (fun _ => h) (fun _ => ?_)
  extract_lets -merge v1 v2 v3
  have h4 : Keeps s v1 := keeps_updBoot h
  have h5 : Keeps s v2 := Keeps.ite (fun _ => keeps_frcStart h4) (fun _ => h4)
  have h6 : Keeps s v3 := Keeps.ite (fun _ => keeps_setF h5) (fun _ => h5)
  exact keeps_warmGo (Keeps.ite (fun _ => keeps_portsUp h6) (fun _ => h6))

theorem keeps_execSelftestDone {s u : State} {x0} {x1} (h : Keeps s u) :
    KeepsR s (execSelftestDone x0 x1 u) := by
  unfold execSelftestDone
  refine KeepsR.next ?_
  refine Keeps.ite (fun _ => h) (fun _ => ?_)
  extract_lets -merge v1 v2 v3 v4
  have h5 : Keeps s v1 := keeps_updBoot h
  have h6 : Keeps s v2 := keeps_warmGo (keeps_setB h5)
  have h11 : Keeps s v3 := by
    unfold v3
    refine Keeps.foldl h6 (fun y7 y8 h9 => ?_)
    extract_lets -merge v10
    exact Keeps.ite (fun _ => keeps_setF h9) (fun _ => h9)
  have h12 : Keeps s v4 := Keeps.ite (fun _ => keeps_latchTt h6) (fun _ => keeps_latchSc h6)
  exact Keeps.ite (fun _ => keeps_setF h11) (fun _ => keeps_sfEv (keeps_assertFault h12))

theorem keeps_swTestFail {s u : State} {x1} {x2} {x3} (h : Keeps s u) :
    Keeps s (State.swTestFail u x1 x2 x3) := by
  unfold State.swTestFail
  exact (keeps_switchFail (keeps_updBoot h))

theorem keeps_swClose {s u : State} {x1} (h : Keeps s u) :
    Keeps s (State.swClose u x1) := by
  unfold State.swClose
  extract_lets -merge v1 v2
  have h3 : Keeps s v1 := keeps_updBoot h
  have h4 : Keeps s v2 := Keeps.ite (fun _ => keeps_setHs h3) (fun _ => h3)
  exact Keeps.ite (fun _ => keeps_setLs h4) (fun _ => h4)

theorem keeps_swCloseAll {s u : State} (h : Keeps s u) :
    Keeps s (State.swCloseAll u) := by
  unfold State.swCloseAll
  exact Keeps.ite (fun _ => h) (fun _ => Keeps.foldl h (fun y1 y2 h3 => Keeps.ite (fun _ => keeps_swClose h3) (fun _ => h3)))

theorem keeps_swTestPass {s u : State} {x1} (h : Keeps s u) :
    Keeps s (State.swTestPass u x1) := by
  unfold State.swTestPass
  exact Keeps.ite (fun _ => h) (fun _ => keeps_updBoot h)

theorem keeps_swTest {s u : State} {x1} {x2} {x3} {x4} (h : Keeps s u) :
    Keeps s (State.swTest u x1 x2 x3 x4) := by
  unfold State.swTest
  extract_lets -merge v1 v2
  have h3 : Keeps s v1 := keeps_updBoot h
  have h4 : Keeps s v2 := keeps_updSafeT h3
  exact Keeps.ite (fun _ => Keeps.ite (fun _ => keeps_swTestFail h4) (fun _ => Keeps.ite (fun _ => keeps_swTestFail h4) (fun _ => keeps_swTestPass h4))) (fun _ => Keeps.ite (fun _ => Keeps.ite (fun _ => keeps_swTestFail h3) (fun _ => keeps_swTestPass h3)) (fun _ => Keeps.ite (fun _ => keeps_swTestFail h3) (fun _ => Keeps.ite (fun _ => keeps_swTestFail h3) (fun _ => keeps_swTestPass h3))))

theorem keeps_execStartupSwitchTest {s u : State} {x0} {x1} {x2} (h : Keeps s u) :
    KeepsR s (execStartupSwitchTest x0 x1 x2 u) := by
  unfold execStartupSwitchTest
  exact KeepsR.next (Keeps.ite (fun _ => h) (fun _ => keeps_swCloseAll (keeps_swTest h)))

theorem keeps_execFbEnAssert {s u : State} {x0} (h : Keeps s u) :
    KeepsR s (execFbEnAssert x0 u) := by
  unfold execFbEnAssert
  extract_lets -merge v8
  exact (KeepsR.next (Keeps.ite (fun _ => h) (fun _ => (keeps_leaveDark (keeps_setFb h)))))

theorem keeps_execFbLate {s u : State} (h : Keeps s u) :
    KeepsR s (execFbLate u) := by
  unfold execFbLate
  extract_lets -merge v5
  exact (KeepsR.next (Keeps.ite (fun _ => h) (fun _ => (keeps_bootEv h))))

theorem keeps_execFullBeamLate {s u : State} (h : Keeps s u) :
    KeepsR s (execFullBeamLate u) := by
  unfold execFullBeamLate
  refine (KeepsR.next (Keeps.ite (fun _ => h) (fun _ => ?_)))
  split
  · exact (keeps_bootEv h)
  · split
    rename_i y41 h42
    have h43 := Keeps.pair h42 (keeps_fresh h)
    exact (keeps_bootEv h43)

theorem keeps_dramExtra {s u : State} {x1} (h : Keeps s u) :
    Keeps s (State.dramExtra u x1) := by
  unfold State.dramExtra
  exact Keeps.foldl h (fun y1 y2 h3 => Keeps.ite (fun _ => keeps_post h3) (fun _ => h3))

theorem keeps_execDramTrained {s u : State} {x0} {x1} (h : Keeps s u) :
    KeepsR s (execDramTrained x0 x1 u) := by
  unfold execDramTrained
  refine KeepsR.next ?_
  refine Keeps.ite (fun _ => h) (fun _ => ?_)
  refine Keeps.ite (fun _ => Keeps.ite (fun _ => keeps_updBoot h) (fun _ => keeps_bootEv (keeps_assertFault (keeps_setBs h)))) (fun _ => ?_)
  refine Keeps.ite (fun _ => keeps_envFail h) (fun _ => ?_)
  extract_lets -merge v1
  have h2 : Keeps s v1 := keeps_setF (keeps_dramExtra (keeps_updBoot h))
  exact keeps_mapReads h2

theorem keeps_mapBytes {s u : State} {x1} {x2} (h : Keeps s u) :
    Keeps s (State.mapBytes u x1 x2).2 := by
  unfold State.mapBytes
  split
  rename_i y19 h20
  have h21 := Keeps.pair h20 (keeps_readMem h)
  refine (Keeps.ite2 (fun _ => ?_) (fun _ => (Keeps.mk2 h21)))
  split
  rename_i y62 h63
  have h64 := Keeps.pair h63 (keeps_readMem h21)
  exact (Keeps.mk2 h64)

theorem keeps_lifeRead {s u : State} {x1} {o : Option (Nat × List Byte)} (h : Keeps s u) :
    Keeps s (State.lifeRead u x1 o).2 := by
  cases o with
  | none => exact keeps_setF h
  | some p => exact Keeps.ite2 (fun _ => keeps_setF h) (fun _ => keeps_hlEv (keeps_setF h))

theorem keeps_lifeFresh {s u : State} {x1} {x2} (h : Keeps s u) :
    Keeps s (State.lifeFresh u x1 x2) := by
  unfold State.lifeFresh
  extract_lets -merge v1 v2
  have h3 : Keeps s v1 := Keeps.foldl h (fun y1 y2 h4 => keeps_putDram h4)
  exact keeps_setF (keeps_updHl (keeps_ageSet h3))

theorem keeps_takeLife {s u : State} {x1} (h : Keeps s u) :
    Keeps s (State.takeLife u x1) := by
  unfold State.takeLife
  have h1 := fun o => keeps_lifeRead (x1 := x1) (o := o) h
  exact Keeps.ite (fun _ => keeps_lifeFresh (keeps_lifeApply (h1 _))) (fun _ => keeps_ckptTake (keeps_ageSet (keeps_lifeApply (h1 _))))

theorem keeps_mapFailed {s u : State} {x1} (h : Keeps s u) :
    Keeps s (State.mapFailed u x1) := by
  unfold State.mapFailed
  extract_lets -merge v1 v2 v3 v4 v5
  have h6 : Keeps s v2 := keeps_updBoot h
  have h7 : Keeps s v3 := keeps_updBoot h6
  have h8 : Keeps s v4 := keeps_swCloseAll (keeps_dropDirect h7)
  have h9 : Keeps s v5 := Keeps.ite (fun _ => keeps_setFb h8) (fun _ => h8)
  exact Keeps.ite (fun _ => keeps_startMapRead h6) (fun _ => keeps_hlEv h9)

theorem keeps_mapFilled {s u : State} {x1} {x2} (h : Keeps s u) :
    Keeps s (State.mapFilled u x1 x2) := by
  unfold State.mapFilled
  extract_lets -merge v13
  have h17 : Keeps s v13 := (keeps_updBoot h)
  exact (Keeps.ite (fun _ => (keeps_updPort (keeps_dropRanges h17))) (fun _ => (keeps_mapFailed h)))

theorem keeps_mapFill {s u : State} {x1} (h : Keeps s u) :
    Keeps s (State.mapFill u x1) := by
  unfold State.mapFill
  exact keeps_mapFilled (keeps_fillAll h)

theorem keeps_execCalMapRead {s u : State} {x0} (h : Keeps s u) :
    KeepsR s (execCalMapRead x0 u) := by
  unfold execCalMapRead
  refine KeepsR.next ?_
  split
  · exact h
  · refine (Keeps.ite (fun _ => h) (fun _ => ?_))
    split
    rename_i y25 h26
    have h27 := Keeps.pair h26 (keeps_mapBytes h)
    exact (Keeps.ite (fun _ => (keeps_mapFailed h27)) (fun _ => (keeps_mapFill (keeps_takeLife h27))))

theorem keeps_directStart {s u : State} {x1} (h : Keeps s u) :
    Keeps s (State.directStart u x1) := by
  unfold State.directStart
  extract_lets -merge v1 v2
  have h3 : Keeps s v1 := keeps_dropDirect (keeps_setHandover (keeps_setLs (keeps_setHs h)))
  have h4 : Keeps s v2 := keeps_updBoot h3
  exact Keeps.ite (fun _ => keeps_tgStart h4) (fun _ => h4)

theorem keeps_execHandoverStart {s u : State} {x0} (h : Keeps s u) :
    KeepsR s (execHandoverStart x0 u) := by
  unfold execHandoverStart
  exact KeepsR.next (Keeps.ite (fun _ => Keeps.ite (fun _ => keeps_directStart h) (fun _ => h)) (fun _ => keeps_handoverStart h))

theorem keeps_startDone {s u : State} (h : Keeps s u) :
    Keeps s (State.startDone u) := by
  unfold State.startDone
  refine Keeps.ite (fun _ => h) (fun _ => ?_)
  extract_lets -merge v1 v2 v3
  have h4 : Keeps s v1 := keeps_updBoot h
  have h8 : Keeps s v2 := Keeps.foldl h4 (fun y5 y6 h7 => keeps_releaseFault h7)
  have h9 : Keeps s v3 := Keeps.ite (fun _ => keeps_post h8) (fun _ => h8)
  exact keeps_bootEv h9

end Sys2Proof.Machine
end

