-- ==== Sys2Proof/Laws/KeepsMemCrc.lean ====
section
/-! SUPPORT. What the operations of Machine/MemCrc.lean keep (Laws/Keeps.lean). -/

namespace Sys2Proof.Machine


theorem keeps_execScrubRead {s u : State} (h : Keeps s u) :
    KeepsR s (execScrubRead u) := by
  unfold execScrubRead
  extract_lets -merge v1
  refine KeepsR.next ?_
  refine Keeps.ite (fun _ => h) (fun _ => ?_)
  split
  rename_i e5
  have h6 := Keeps.pair e5 (keeps_checkWord h)
  refine Keeps.ite (fun _ => ?_) (fun _ => keeps_setF (Keeps.upd h6))
  extract_lets -merge v7 v8 v9
  have h10 : Keeps s v9 := Keeps.upd h6
  exact keeps_post (keeps_setF (keeps_setF h10))

theorem keeps_chanLost {s u : State} {x1} (h : Keeps s u) :
    Keeps s (State.chanLost u x1) := by
  unfold State.chanLost
  extract_lets -merge v1
  have h2 : Keeps s v1 := Keeps.ite (fun _ => keeps_latchSc h) (fun _ => keeps_latchTt h)
  exact keeps_updateSS (keeps_updSafe h2)

theorem keeps_hidCheck {s u : State} {x1} (h : Keeps s u) :
    Keeps s (State.hidCheck u x1) := by
  unfold State.hidCheck
  split
  rename_i e4
  have h5 := Keeps.pair e4 (keeps_synFound h)
  exact Keeps.ite (fun _ => keeps_chanLost h5) (fun _ => Keeps.upd h5)

theorem keeps_heldCheck {s u : State} {x1} (h : Keeps s u) :
    Keeps s (State.heldCheck u x1) := by
  unfold State.heldCheck
  split
  rename_i e4
  have h5 := Keeps.pair e4 (keeps_evtCheck h)
  exact Keeps.ite (fun _ => keeps_evtLose (keeps_updHamper h5)) (fun _ => h5)

theorem keeps_boxScan {s u : State} (h : Keeps s u) :
    Keeps s (State.boxScan u) := by
  unfold State.boxScan
  split
  · split
    rename_i e8
    have h9 := Keeps.pair e8 (keeps_boxCheck h)
    exact Keeps.ite (fun _ => keeps_loseEv (keeps_updHamper h9)) (fun _ => h9)
  · split
    rename_i e20
    have h21 := Keeps.pair e20 (keeps_bufCheck h)
    exact Keeps.ite (fun _ => keeps_bump (keeps_updSpool h21)) (fun _ => h21)
  · exact h

theorem keeps_hidScan {s u : State} {x1} (h : Keeps s u) :
    Keeps s (State.hidScan u x1) := by
  unfold State.hidScan
  refine Keeps.ite (fun _ => ?_) (fun _ => ?_)
  · split
    · exact keeps_heldCheck h
    · exact h
  · refine Keeps.ite (fun _ => keeps_boxScan h) (fun _ => ?_)
    split
    · exact keeps_hidCheck h
    · exact h

theorem keeps_sramWord {s u : State} {x1} (h : Keeps s u) :
    Keeps s (State.sramWord u x1) := by
  unfold State.sramWord
  refine Keeps.ite (fun _ => h) (fun _ => ?_)
  split
  · exact keeps_checkWord h
  · split
    rename_i e11
    have h12 := Keeps.pair e11 (keeps_beCheck h)
    exact Keeps.ite (fun _ => keeps_engineTrap h12) (fun _ => h12)

theorem keeps_execSramCheck {s u : State} {x0} (h : Keeps s u) :
    KeepsR s (execSramCheck x0 u) := by
  unfold execSramCheck
  refine KeepsR.next ?_
  split
  · exact keeps_sramWord h
  · exact keeps_inCore h (fun y5 y6 => keeps_hidScan y6)

theorem keeps_eccWrite {s u : State} {x1} (h : Keeps s u) :
    Keeps s (State.eccWrite u x1) := by
  unfold State.eccWrite
  extract_lets -merge v1
  exact Keeps.ite (fun _ => keeps_setF h) (fun _ => keeps_setReg h)

theorem keeps_execEccInject {s u : State} {x0} (h : Keeps s u) :
    KeepsR s (execEccInject x0 u) := by
  unfold execEccInject
  exact KeepsR.next (keeps_viaRegV h (fun y1 y2 y3 => keeps_eccWrite y3))

theorem keeps_setCrcJob {s u : State} {x1} {x2} (h : Keeps s u) :
    Keeps s (State.setCrcJob u x1 x2) := by
  unfold State.setCrcJob
  exact Keeps.upd h

theorem keeps_crcBusyErr {s u : State} {x1} (h : Keeps s u) :
    Keeps s (State.crcBusyErr u x1) := by
  unfold State.crcBusyErr
  exact keeps_raise h

theorem keeps_crcEnd {s u : State} {x1} (h : Keeps s u) :
    Keeps s (State.crcEnd u x1) := by
  unfold State.crcEnd
  extract_lets -merge v1
  have h2 : Keeps s v1 := keeps_setF (keeps_setF (keeps_setCrcJob h))
  exact Keeps.ite (fun _ => keeps_post h2) (fun _ => h2)

theorem keeps_crcStart {s u : State} {x1} (h : Keeps s u) :
    Keeps s (State.crcStart u x1) := by
  unfold State.crcStart
  refine Keeps.ite (fun _ => keeps_crcBusyErr h) (fun _ => ?_)
  extract_lets -merge v1 v2
  have h3 : Keeps s v2 := keeps_setRegN (keeps_setReg h)
  exact Keeps.ite (fun _ => keeps_crcEnd (keeps_setF h3)) (fun _ => keeps_setF (keeps_setCrcJob h3))

theorem keeps_crcStop {s u : State} {x1} {x2} {x3} (h : Keeps s u) :
    Keeps s (State.crcStop u x1 x2 x3) := by
  unfold State.crcStop
  split
  rename_i e4
  have h5 := Keeps.pair e4 (keeps_fresh h)
  extract_lets -merge v6
  have h7 : Keeps s v6 := keeps_setF h5
  exact keeps_crcEnd (Keeps.ite (fun _ => keeps_setReg h7) (fun _ => h7))

theorem keeps_crcCompare {s u : State} {x1} {x2} {x3} (h : Keeps s u) :
    Keeps s (State.crcCompare u x1 x2 x3) := by
  unfold State.crcCompare
  extract_lets -merge v1 v2 v3 v4 v5 v6 v7 v8
  exact Keeps.ite (fun _ => Keeps.ite (fun _ => keeps_setF h) (fun _ => keeps_post (keeps_bump (keeps_setF h)))) (fun _ => Keeps.ite (fun _ => keeps_post (keeps_bump (keeps_setF (keeps_setReg h)))) (fun _ => Keeps.ite (fun _ => keeps_post (keeps_bump (keeps_setF (keeps_setReg h)))) (fun _ => keeps_post (keeps_bump (keeps_setF (keeps_setF h))))))

theorem keeps_crcFinish {s u : State} {x1} {x2} (h : Keeps s u) :
    Keeps s (State.crcFinish u x1 x2) := by
  unfold State.crcFinish
  refine Keeps.ite (fun _ => keeps_crcEnd h) (fun _ => ?_)
  extract_lets -merge v1 v2
  have h3 : Keeps s v2 := keeps_setRegN h
  exact keeps_crcEnd (Keeps.ite (fun _ => keeps_crcCompare h3) (fun _ => h3))

theorem keeps_crcWord {s u : State} {x1} {x2} (h : Keeps s u) :
    Keeps s (State.crcWord u x1 x2) := by
  unfold State.crcWord
  extract_lets -merge v1
  refine Keeps.ite (fun _ => keeps_crcStop (keeps_busErr h)) (fun _ => ?_)
  split
  rename_i e6
  have h7 := Keeps.pair e6 (keeps_readAll h)
  refine Keeps.ite (fun _ => keeps_crcStop h7) (fun _ => ?_)
  extract_lets -merge v8 v9 v10
  have h11 : Keeps s v8 := Keeps.ite (fun _ => keeps_setRegWords h7) (fun _ => h7)
  have h12 : Keeps s v10 := keeps_setRegN h11
  exact Keeps.ite (fun _ => keeps_crcFinish h12) (fun _ => keeps_setCrcJob h12)

theorem keeps_crcWords {s u : State} {x1 k} (h : Keeps s u) : Keeps s (State.crcWords u x1 k) := by
  induction k generalizing u with
  | zero => exact h
  | succ k ih =>
    rw [State.crcWords]
    cases u.crcJob x1 with
    | none => exact h
    | some j => exact ih (keeps_crcWord h)

theorem keeps_crcPut {s u : State} {x1} {x2} (h : Keeps s u) :
    Keeps s (State.crcPut u x1 x2) := by
  unfold State.crcPut
  refine Keeps.ite (fun _ => keeps_crcStop (keeps_busErr h)) (fun _ => ?_)
  extract_lets -merge v1
  exact keeps_crcEnd (keeps_setRegN (keeps_writeMem h))

theorem keeps_crcRun {s u : State} {x1} {x2} (h : Keeps s u) :
    Keeps s (State.crcRun u x1 x2) := by
  unfold State.crcRun
  exact Keeps.ite (fun _ => keeps_crcPut h) (fun _ => keeps_crcWords h)

theorem keeps_crcToLine {s u : State} {x1 k} (h : Keeps s u) : Keeps s (State.crcToLine u x1 k) := by
  induction k generalizing u with
  | zero => exact h
  | succ k ih =>
    rw [State.crcToLine]
    cases u.crcJob x1 with
    | none => exact h
    | some j => exact Keeps.ite (fun _ => keeps_crcStop h) (fun _ => ih (keeps_crcWord h))

theorem keeps_crcAbortOp {s u : State} {x1} (h : Keeps s u) :
    Keeps s (State.crcAbortOp u x1) := by
  unfold State.crcAbortOp
  exact keeps_crcToLine h

theorem keeps_crcStep {s u : State} {x1} (h : Keeps s u) :
    Keeps s (State.crcStep u x1) := by
  unfold State.crcStep
  split
  · exact h
  · refine Keeps.ite (fun _ => h) (fun _ => ?_)
    split
    rename_i e9
    have h10 := Keeps.pair e9 (keeps_fresh h)
    exact Keeps.ite (fun _ => keeps_crcWord h10) (fun _ => h10)

theorem keeps_crcCmd {s u : State} {x1} {x2} (h : Keeps s u) :
    Keeps s (State.crcCmd u x1 x2) := by
  unfold State.crcCmd
  exact Keeps.ite (fun _ => keeps_crcStart h) (fun _ => Keeps.ite (fun _ => keeps_crcAbortOp h) (fun _ => h))

theorem keeps_crcStartIn {s u : State} {x1} {x2} (h : Keeps s u) :
    Keeps s (State.crcStartIn u x1 x2) := by
  unfold State.crcStartIn
  exact Keeps.ite (fun _ => keeps_crcStart h) (fun _ => h)

theorem keeps_execCrcScan {s u : State} {x0} (h : Keeps s u) :
    KeepsR s (execCrcScan x0 u) := by
  unfold execCrcScan
  exact KeepsR.next (keeps_viaReg h (fun y1 y2 => keeps_crcStartIn y2))

theorem keeps_execCrcRead {s u : State} {x0} (h : Keeps s u) :
    KeepsR s (execCrcRead x0 u) := by
  unfold execCrcRead
  exact KeepsR.next (keeps_viaReg h (fun y1 y2 => keeps_crcStartIn y2))

theorem keeps_execCrcWrite {s u : State} {x0} (h : Keeps s u) :
    KeepsR s (execCrcWrite x0 u) := by
  unfold execCrcWrite
  exact KeepsR.next (keeps_viaReg h (fun y1 y2 => keeps_crcStartIn y2))

theorem keeps_execCrcAbort {s u : State} {x0} (h : Keeps s u) :
    KeepsR s (execCrcAbort x0 u) := by
  unfold execCrcAbort
  exact KeepsR.next (keeps_viaReg h (fun y1 y2 => keeps_crcAbortOp y2))

theorem keeps_execCrcDone {s u : State} {x0} (h : Keeps s u) :
    KeepsR s (execCrcDone x0 u) := by
  unfold execCrcDone
  refine KeepsR.next ?_
  split
  · exact h
  · exact keeps_crcRun h

end Sys2Proof.Machine
end

