-- ==== Sys2Proof/Laws/KeepsPower.lean ====
section
/-! SUPPORT. What the operations of Machine/Power.lean keep (Laws/Keeps.lean). -/

namespace Sys2Proof.Machine

theorem keeps_pwrResult {s u : State} {x1} {x2} (h : Keeps s u) :
    Keeps s (State.pwrResult u x1 x2) := by
  unfold State.pwrResult
  exact (keeps_setF (keeps_setF h))

theorem keeps_beGate {s u : State} (h : Keeps s u) :
    Keeps s (State.beGate u) := by
  unfold State.beGate
  exact Keeps.ite (fun _ => h) (fun _ => keeps_updPwr (keeps_beSettle h))

theorem keeps_pwrSettle {s u : State} {x1} (h : Keeps s u) :
    Keeps s (State.pwrSettle u x1) := by
  unfold State.pwrSettle
  extract_lets -merge v1
  have h2 : Keeps s v1 := Keeps.ite (fun _ => h) (fun _ => keeps_beGate h)
  exact keeps_setF (keeps_setF (keeps_setF h2))

theorem keeps_idleExit {s u : State} (h : Keeps s u) :
    Keeps s (State.idleExit u) := by
  unfold State.idleExit
  extract_lets -merge v1
  have h2 : Keeps s v1 := Keeps.upd h
  exact keeps_heard (keeps_beUngate (keeps_pwrSettle h2))

theorem keeps_wakeEv {s u : State} {x1} {x2} (h : Keeps s u) :
    Keeps s (State.wakeEv u x1 x2) := by
  unfold State.wakeEv
  exact (keeps_post (keeps_setRegN h))

theorem keeps_idleWake {s u : State} {x1} (h : Keeps s u) :
    Keeps s (State.idleWake u x1) := by
  unfold State.idleWake
  extract_lets -merge v5
  have h6 : Keeps s v5 := (keeps_wakeEv (keeps_idleExit h))
  exact (Keeps.ite (fun _ => (keeps_pwrResult h6)) (fun _ => h6))

theorem keeps_sleepWake {s u : State} {x1} (h : Keeps s u) :
    Keeps s (State.sleepWake u x1) := by
  unfold State.sleepWake
  extract_lets -merge v6
  have h8 : Keeps s v6 := (keeps_setRegN (keeps_setF h))
  exact (keeps_updBoot h8)

theorem keeps_wakeEvent {s u : State} {x1} (h : Keeps s u) :
    Keeps s (State.wakeEvent u x1) := by
  unfold State.wakeEvent
  extract_lets -merge v6
  exact (Keeps.ite (fun _ => (Keeps.ite (fun _ => (keeps_updPwr h)) (fun _ => h))) (fun _ => (Keeps.ite (fun _ => h) (fun _ => (Keeps.ite (fun _ => (keeps_idleWake h)) (fun _ => (Keeps.ite (fun _ => (keeps_sleepWake h)) (fun _ => h))))))))

theorem keeps_wakeStep {s u : State} (h : Keeps s u) :
    Keeps s (State.wakeStep u) := by
  unfold State.wakeStep
  exact Keeps.foldl (Keeps.upd h) (fun y1 y2 h3 => keeps_wakeEvent h3)

theorem keeps_wakeTiles {s u : State} (h : Keeps s u) :
    Keeps s (State.wakeTiles u) := by
  unfold State.wakeTiles
  extract_lets -merge v4 v5 v6
  have h15 : Keeps s v5 := (keeps_updPwr h)
  have h11 : Keeps s v6 := (keeps_updBoot h15)
  exact (keeps_portsUp h11)

theorem keeps_sleepDone {s u : State} (h : Keeps s u) :
    Keeps s (State.sleepDone u) := by
  unfold State.sleepDone
  extract_lets -merge v4 v5 v6
  have h11 : Keeps s v5 := (keeps_pwrSettle (keeps_updPwr h))
  have h8 : Keeps s v6 := (keeps_post h11)
  exact (keeps_beUngate (Keeps.ite (fun _ => (keeps_pwrResult h8)) (fun _ => h8)))

theorem keeps_openSwitches {s u : State} (h : Keeps s u) :
    Keeps s (State.openSwitches u) := by
  unfold State.openSwitches
  extract_lets -merge v1 v2
  have h3 : Keeps s v1 := keeps_updPwr h
  have h4 : Keeps s v2 := keeps_updBoot h3
  exact Keeps.foldl h4 (fun y5 y6 h7 => keeps_updSafeT (keeps_setLs (keeps_setHs h7)))

theorem keeps_restoreSwitches {s u : State} (h : Keeps s u) :
    Keeps s (State.restoreSwitches u) := by
  unfold State.restoreSwitches
  exact Keeps.foldl h (fun y1 y2 h3 => Keeps.ite (fun _ => h3) (fun _ => keeps_setLs (keeps_setHs h3)))

theorem keeps_pwrPorts {s u : State} (h : Keeps s u) :
    Keeps s (State.pwrPorts u) := by
  unfold State.pwrPorts
  extract_lets -merge v7 v8 v9
  have h13 : Keeps s v8 := (keeps_updPwr h)
  have h15 : Keeps s v9 := by
    refine (keeps_updCancel (Keeps.foldl h13 (fun _ _ _ => ?_)))
    rename_i y19 y20 h21
    exact (keeps_portOff h21)
  refine (Keeps.foldl h15 (fun _ _ _ => ?_))
  rename_i y12 y13 h14
  exact (keeps_crcAbortOp h14)

theorem keeps_dramLost {s u : State} (h : Keeps s u) :
    Keeps s (State.dramLost u) := by
  exact ⟨⟨h.fixed.pending, h.fixed.part, h.fixed.stepping, h.fixed.otp, h.fixed.draws⟩, fun w =>
    have t := h.tables w
    ⟨tabWf_filter _ _ t.mem, t.regs, t.bank0, t.bank1, t.store, t.sel⟩⟩

theorem keeps_pwrDram {s u : State} (h : Keeps s u) :
    Keeps s (State.pwrDram u) := by
  unfold State.pwrDram
  extract_lets -merge v4
  exact (Keeps.ite (fun _ => (keeps_updBoot (keeps_updPwr h))) (fun _ => (Keeps.ite (fun _ => (keeps_updPwr h)) (fun _ => (keeps_dramLost (keeps_updPwr h))))))

theorem keeps_retSave {s u : State} (h : Keeps s u) :
    Keeps s (State.retSave u) := by
  unfold State.retSave
  extract_lets -merge v4 v5
  split
  rename_i y22 h23
  have h24 := Keeps.pair h23 (keeps_fresh h)
  extract_lets -merge v34
  exact (keeps_setRegN (keeps_writeMem h24))

theorem keeps_wakeTimer {s u : State} (h : Keeps s u) :
    Keeps s (State.wakeTimer u).2 := by
  unfold State.wakeTimer
  extract_lets -merge v4
  split
  · exact (Keeps.mk2 h)
  · extract_lets -merge v16 v17
    split
    rename_i y36 h37
    have h38 := Keeps.pair h37 (Keeps.ite2 (fun _ => (keeps_fresh h)) (fun _ => (Keeps.mk2 h)))
    exact (Keeps.mk2 h38)

theorem keeps_pwrRetain {s u : State} (h : Keeps s u) :
    Keeps s (State.pwrRetain u) := by
  unfold State.pwrRetain
  split
  rename_i y16 h17
  have h19 := Keeps.pair h17 (keeps_wakeTimer (keeps_retSave h))
  exact (keeps_updPwr h19)

theorem keeps_pwrStep {s u : State} {x1} (h : Keeps s u) :
    Keeps s (State.pwrStep u x1) := by
  unfold State.pwrStep
  extract_lets -merge v5
  have h9 : Keeps s v5 := (keeps_setF h)
  split
  · exact (keeps_openSwitches h9)
  · exact (keeps_updSafe h9)
  · exact (keeps_pwrPorts h9)
  · exact (keeps_pwrDram h9)
  · exact (keeps_pwrRetain h9)
  · exact h9

theorem keeps_pwrUndo {s u : State} (h : Keeps s u) :
    Keeps s (State.pwrUndo u) := by
  unfold State.pwrUndo
  extract_lets -merge v5 v6
  have h14 : Keeps s v6 := (keeps_updPwr h)
  refine (keeps_pwrSettle (Keeps.foldl h14 (fun _ _ _ => ?_)))
  rename_i y14 y15 h16
  exact (keeps_enableOp h16)

theorem keeps_pwrAbort {s u : State} (h : Keeps s u) :
    Keeps s (State.pwrAbort u) := by
  unfold State.pwrAbort
  extract_lets -merge v4 v5 v6
  have h10 : Keeps s v6 := (keeps_raise (keeps_pwrResult (keeps_pwrUndo h)))
  exact (keeps_post h10)

theorem keeps_pwrVeto {s u : State} (h : Keeps s u) :
    Keeps s (State.pwrVeto u) := by
  unfold State.pwrVeto
  extract_lets -merge v4 v5 v6
  have h10 : Keeps s v5 := (keeps_updSafe h)
  have h12 : Keeps s v6 := (keeps_raise (keeps_pwrResult (keeps_pwrUndo (keeps_restoreSwitches h10))))
  exact (keeps_post h12)

theorem keeps_abortPoint {s u : State} {x1} (h : Keeps s u) :
    Keeps s (State.abortPoint u x1) := by
  unfold State.abortPoint
  extract_lets -merge v1
  have h2 : Keeps s v1 := keeps_wakeStep h
  exact Keeps.ite (fun _ => keeps_pwrAbort h2) (fun _ => keeps_pwrStep h2)

theorem keeps_pwrDone {s u : State} {x1} {x2} (h : Keeps s u) :
    Keeps s (State.pwrDone u x1 x2) := by
  unfold State.pwrDone
  exact (keeps_post (keeps_pwrResult h))

theorem keeps_sleepEnter {s u : State} (h : Keeps s u) :
    Keeps s (State.sleepEnter u) := by
  unfold State.sleepEnter
  have h0 := keeps_wakeStep h
  have hz := keeps_pwrDone (x1 := pwRUN) (x2 := pwSLEEP) (keeps_pwrSettle (x1 := pwSLEEP) (keeps_updPwr (x1 := fun p => { p with wake := none }) h0))
  dsimp only
  cases (u.wakeStep).pwr.wake with
  | none => exact hz
  | some x => exact keeps_sleepWake hz

theorem keeps_settleCopies {s u : State} (h : Keeps s u) :
    Keeps s (State.settleCopies u) := by
  unfold State.settleCopies
  refine Keeps.foldl h (fun y1 y2 h3 => ?_)
  split
  · exact keeps_putCopy h3
  · exact h3

theorem keeps_deepEnter {s u : State} (h : Keeps s u) :
    Keeps s (State.deepEnter u) := by
  unfold State.deepEnter
  have h00 := keeps_pwrDone (x1 := pwRUN) (x2 := pwDEEP) (keeps_wakeStep h)
  generalize State.pwrDone u.wakeStep pwRUN pwDEEP = v0 at h00 ⊢
  dsimp only
  generalize hv : ite (v0.pwr.keep = true) v0.settleCopies v0 = v
  have h0 : Keeps s v := hv ▸ Keeps.ite (fun _ => keeps_settleCopies h00) (fun _ => h00)
  generalize v0.pwr.keep = kp
  generalize hz : (v.deepKept kp).foldl _ _ = z
  have h1 : Keeps s z := hz ▸ Keeps.foldl (keeps_coreReset h0 (fun w => tabWf_filter _ _ w)) (fun _ _ hw => keeps_setReg hw)
  generalize hy : ite (kp = true) _ _ = y
  have h2 : Keeps s y := by
    subst hy
    refine Keeps.ite (fun _ => ?_) (fun _ => h1.of rfl)
    exact ⟨⟨h1.fixed.pending, h1.fixed.part, h1.fixed.stepping, h1.fixed.otp, h1.fixed.draws⟩, fun w =>
      have t := h1.tables w
      ⟨t.mem, t.regs, t.bank0, t.bank1, t.store, (h0.tables w).sel⟩⟩
  have h3 := keeps_setF (x1 := fPWR_PWR_STATUS_CURRENT) (x2 := pwDEEP) h2
  cases v.pwr.wake with
  | none => exact h3
  | some x => exact keeps_startDeep h3

theorem keeps_offEnter {s u : State} (h : Keeps s u) :
    Keeps s (State.offEnter u) := by
  unfold State.offEnter
  have h0 := keeps_pwrDone (x1 := pwRUN) (x2 := pwOFF) (keeps_wakeStep h)
  generalize State.pwrDone u.wakeStep pwRUN pwOFF = v at h0 ⊢
  have hz := keeps_setF (x1 := fPWR_PWR_STATUS_CURRENT) (x2 := pwOFF) (keeps_coreReset_empty h0)
  dsimp only
  cases v.pwr.wake with
  | none => exact hz
  | some x => exact keeps_startOff hz

theorem keeps_pwrAdvance {s u : State} (h : Keeps s u) :
    Keeps s (State.pwrAdvance u) := by
  unfold State.pwrAdvance
  extract_lets -merge v4
  split
  · exact (keeps_pwrStep h)
  · exact (keeps_abortPoint h)
  · exact (Keeps.ite (fun _ => (keeps_sleepEnter h)) (fun _ => (keeps_abortPoint h)))
  · exact (keeps_abortPoint h)
  · exact (Keeps.ite (fun _ => (keeps_deepEnter h)) (fun _ => (keeps_offEnter h)))
  · exact h

theorem keeps_pwrPend {s u : State} {x1} {x2} {x3} (h : Keeps s u) :
    Keeps s (State.pwrPend u x1 x2 x3) := by
  unfold State.pwrPend
  extract_lets -merge v8
  have h10 : Keeps s v8 := (Keeps.ite (fun _ => h) (fun _ => (keeps_pwrResult h)))
  exact (keeps_setF (keeps_updPwr h10))

theorem keeps_pwrEnter {s u : State} {x1} {x2} {x3} (h : Keeps s u) :
    Keeps s (State.pwrEnter u x1 x2 x3) := by
  unfold State.pwrEnter
  extract_lets -merge v1 v2 v3 v4 v5
  have h6 : Keeps s v2 := keeps_raise (keeps_pwrResult h)
  have h7 : Keeps s v3 := Keeps.upd h
  have h8 : Keeps s v4 := keeps_setF (keeps_updPwr h7)
  have h9 : Keeps s v5 := Keeps.ite (fun _ => keeps_deltaWrite h8) (fun _ => h8)
  exact Keeps.ite (fun _ => keeps_post h6) (fun _ => Keeps.ite (fun _ => h8) (fun _ => keeps_pwrStep h9))

theorem keeps_pwrAuto {s u : State} {x1} (h : Keeps s u) :
    Keeps s (State.pwrAuto u x1) := by
  unfold State.pwrAuto
  extract_lets -merge v5 v6 v7 v8 v9 v10
  have h18 : Keeps s v9 := (keeps_setRegN (keeps_setRegN h))
  have h21 : Keeps s v10 := (keeps_post h18)
  exact (Keeps.ite (fun _ => (keeps_pwrResult h21)) (fun _ => (keeps_pwrEnter h21)))

theorem keeps_pwrBegin {s u : State} {x1} {x2} {x3} (h : Keeps s u) :
    Keeps s (State.pwrBegin u x1 x2 x3) := by
  unfold State.pwrBegin
  extract_lets -merge v7
  have h9 : Keeps s v7 := (Keeps.ite (fun _ => (keeps_idleExit h)) (fun _ => h))
  exact (Keeps.ite (fun _ => (keeps_pwrResult h)) (fun _ => (Keeps.ite (fun _ => (keeps_idleWake h)) (fun _ => (Keeps.ite (fun _ => (keeps_pwrAuto h9)) (fun _ => (keeps_pwrEnter h9)))))))

theorem keeps_pwrRequest {s u : State} {x1} {x2} {x3} (h : Keeps s u) :
    Keeps s (State.pwrRequest u x1 x2 x3) := by
  unfold State.pwrRequest
  exact (Keeps.ite (fun _ => h) (fun _ => (Keeps.ite (fun _ => (keeps_pwrPend h)) (fun _ => (Keeps.ite (fun _ => (Keeps.ite (fun _ => (keeps_wakeEvent h)) (fun _ => (keeps_pwrPend h)))) (fun _ => (Keeps.ite (fun _ => (Keeps.ite (fun _ => (keeps_sleepWake h)) (fun _ => (Keeps.ite (fun _ => (keeps_pwrResult h)) (fun _ => (keeps_pwrPend h)))))) (fun _ => (keeps_pwrBegin h)))))))))

theorem keeps_pwrTake {s u : State} (h : Keeps s u) :
    Keeps s (State.pwrTake u) := by
  unfold State.pwrTake
  extract_lets -merge v6
  exact (Keeps.ite (fun _ => h) (fun _ => (keeps_pwrBegin (keeps_setF h))))

theorem keeps_pwrWrite {s u : State} {x1} (h : Keeps s u) :
    Keeps s (State.pwrWrite u x1) := by
  unfold State.pwrWrite
  exact (keeps_pwrRequest h)

theorem keeps_execPwrReqRun {s u : State} {x0} {x1} (h : Keeps s u) :
    KeepsR s (execPwrReqRun x0 x1 u) := by
  unfold execPwrReqRun
  refine (KeepsR.next (keeps_viaReg h (fun _ _ => ?_)))
  rename_i y8 h9
  exact (keeps_pwrRequest h9)

theorem keeps_execPwrReqIdle {s u : State} {x0} {x1} (h : Keeps s u) :
    KeepsR s (execPwrReqIdle x0 x1 u) := by
  unfold execPwrReqIdle
  refine (KeepsR.next (keeps_viaReg h (fun _ _ => ?_)))
  rename_i y8 h9
  exact (keeps_pwrRequest h9)

theorem keeps_execPwrReqSleep {s u : State} {x0} {x1} (h : Keeps s u) :
    KeepsR s (execPwrReqSleep x0 x1 u) := by
  unfold execPwrReqSleep
  refine (KeepsR.next (keeps_viaReg h (fun _ _ => ?_)))
  rename_i y8 h9
  exact (keeps_pwrRequest h9)

theorem keeps_execPwrReqDeepSleep {s u : State} {x0} {x1} (h : Keeps s u) :
    KeepsR s (execPwrReqDeepSleep x0 x1 u) := by
  unfold execPwrReqDeepSleep
  refine (KeepsR.next (keeps_viaReg h (fun _ _ => ?_)))
  rename_i y10 h11
  exact (keeps_pwrRequest h11)

theorem keeps_execPwrReqOff {s u : State} {x0} {x1} (h : Keeps s u) :
    KeepsR s (execPwrReqOff x0 x1 u) := by
  unfold execPwrReqOff
  refine (KeepsR.next (keeps_viaReg h (fun _ _ => ?_)))
  rename_i y8 h9
  exact (keeps_pwrRequest h9)

theorem keeps_execPwrReqAuto {s u : State} {x0} {x1} (h : Keeps s u) :
    KeepsR s (execPwrReqAuto x0 x1 u) := by
  unfold execPwrReqAuto
  refine (KeepsR.next (keeps_viaReg h (fun _ _ => ?_)))
  rename_i y8 h9
  exact (keeps_pwrRequest h9)

theorem keeps_execScConsent {s u : State} (h : Keeps s u) :
    KeepsR s (execScConsent u) := by
  unfold execScConsent
  exact (KeepsR.next (Keeps.ite (fun _ => h) (fun _ => (Keeps.ite (fun _ => (keeps_pwrTake (keeps_abortPoint (keeps_updSafe h)))) (fun _ => (keeps_pwrTake (keeps_pwrVeto h)))))))

theorem keeps_execConsentTimeout {s u : State} (h : Keeps s u) :
    KeepsR s (execConsentTimeout u) := by
  unfold execConsentTimeout
  exact (KeepsR.next (Keeps.ite (fun _ => (keeps_pwrTake (keeps_pwrVeto h))) (fun _ => h)))

theorem keeps_execEntryStepDone {s u : State} (h : Keeps s u) :
    KeepsR s (execEntryStepDone u) := by
  unfold execEntryStepDone
  exact (KeepsR.next (keeps_pwrTake (keeps_pwrAdvance h)))

theorem keeps_execIdleEnter {s u : State} (h : Keeps s u) :
    KeepsR s (execIdleEnter u) := by
  unfold execIdleEnter
  have h0 := keeps_wakeStep h
  have hz := keeps_pwrDone (x1 := pwRUN) (x2 := pwIDLE) (keeps_pwrSettle (x1 := pwIDLE) (keeps_updPwr (x1 := fun p => { p with wake := none }) h0))
  dsimp only
  refine KeepsR.next (Keeps.ite (fun _ => h) (fun _ => keeps_pwrTake ?_))
  cases u.wakeStep.pwr.wake with
  | none => exact hz
  | some x => exact keeps_idleWake hz

theorem keeps_execSleepExit {s u : State} (h : Keeps s u) :
    KeepsR s (execSleepExit u) := by
  unfold execSleepExit
  extract_lets -merge v4
  have h6 : Keeps s v4 := (keeps_updBoot h)
  exact (KeepsR.next (Keeps.ite (fun _ => h) (fun _ => (keeps_pwrTake (keeps_wakeTiles (keeps_sleepDone h6))))))

theorem keeps_execPllLockTimeout {s u : State} {x0} (h : Keeps s u) :
    KeepsR s (execPllLockTimeout x0 u) := by
  unfold execPllLockTimeout
  extract_lets -merge v5 v6 v7 v8 v9
  have h10 : Keeps s v6 := (keeps_updBoot h)
  have h12 : Keeps s v7 := (keeps_post (keeps_assertFault h10))
  have h14 : Keeps s v8 := by
    refine (Keeps.foldl h12 (fun _ _ _ => ?_))
    rename_i y18 y19 h20
    exact (keeps_tgOff h20)
  have h13 : Keeps s v9 := (keeps_updBoot h14)
  exact (KeepsR.next (Keeps.ite (fun _ => h) (fun _ => (Keeps.ite (fun _ => h10) (fun _ => (Keeps.ite (fun _ => (keeps_pwrTake (keeps_sleepDone h13))) (fun _ => h14)))))))

theorem keeps_execAonWakeTimer {s u : State} (h : Keeps s u) :
    KeepsR s (execAonWakeTimer u) := by
  unfold execAonWakeTimer
  exact (KeepsR.next (Keeps.ite (fun _ => (keeps_startDeep h)) (fun _ => h)))

theorem keeps_execWakeFailClear {s u : State} (h : Keeps s u) :
    KeepsR s (execWakeFailClear u) := by
  unfold execWakeFailClear
  refine (KeepsR.next (keeps_viaReg h (fun _ _ => ?_)))
  rename_i y6 h7
  exact (keeps_setRegN h7)

theorem keeps_execSlowPeriodMeasure {s u : State} {x0} {x1} (h : Keeps s u) :
    KeepsR s (execSlowPeriodMeasure x0 x1 u) := by
  unfold execSlowPeriodMeasure
  exact (KeepsR.next (Keeps.ite (fun _ => h) (fun _ => (keeps_setF h))))

theorem keeps_retEntry {s u : State} {x1} (h : Keeps s u) :
    Keeps s (State.retEntry u x1).2 := by
  unfold State.retEntry
  split
  rename_i y17 h18
  have h19 := Keeps.pair h18 (keeps_readMem h)
  exact (Keeps.mk2 h19)

theorem keeps_retRead {s u : State} {x1} (h : Keeps s u) :
    Keeps s (State.retRead u x1).2 := by
  induction x1 generalizing u with
  | zero => exact h
  | succ k ih =>
    rw [State.retRead]
    exact keeps_retEntry (ih h)

theorem keeps_retCheck {s u : State} (h : Keeps s u) :
    Keeps s (State.retCheck u).2 := by
  unfold State.retCheck
  split
  rename_i e4
  have h5 := Keeps.pair e4 (keeps_checkRange h)
  extract_lets -merge v6
  split
  rename_i e11
  have h12 := Keeps.pair e11 (keeps_retRead h5)
  split
  · exact h12
  · exact Keeps.ite2 (fun _ => h12) (fun _ => h12)

theorem keeps_retLost {s u : State} {x1} (h : Keeps s u) :
    Keeps s (State.retLost u x1) := by
  unfold State.retLost
  have h0 := keeps_post (x1 := evPOWER_RET_LOST) (x2 := srcPWR) (x3 := x1) (keeps_setRegN (x1 := rPWR_RET_STATUS) (x2 := x1 % 2048)
    (keeps_raise (x1 := fPWR_PWR_FLAGS_RET_LOST) (x2 := rPWR_RET_LOST_COUNT) h))
  dsimp only
  generalize State.post _ _ _ _ = v at h0 ⊢
  refine keeps_bootLoad (keeps_updBoot (keeps_otpShow ?_))
  exact ⟨⟨h0.fixed.pending, h0.fixed.part, h0.fixed.stepping, h0.fixed.otp, h0.fixed.draws⟩, fun w =>
    have t := h0.tables w
    ⟨t.mem, tabWf_filter _ _ t.regs, t.bank0, t.bank1, t.store, tabWf_nil _⟩⟩

theorem keeps_reloadProgram {s u : State} {x1} {x2} (h : Keeps s u) :
    Keeps s (State.reloadProgram u x1 x2) := by
  unfold State.reloadProgram
  split
  rename_i e4
  have h5 := Keeps.pair e4 (keeps_reloadFrom h)
  extract_lets -merge v6
  have h7 : Keeps s v6 := keeps_enterProgram h5
  exact Keeps.ite (fun _ => h7) (fun _ => keeps_setBeState h7)

theorem keeps_reinstall {s u : State} (h : Keeps s u) :
    Keeps s (State.reinstall u) := by
  unfold State.reinstall
  extract_lets -merge v1
  have h5 : Keeps s v1 := Keeps.foldl h (fun y2 y3 h4 => keeps_installSec h4)
  exact Keeps.foldl h5 (fun y6 y7 h8 => keeps_showSpare (Keeps.foldl h8 (fun y9 y10 h11 => keeps_reloadProgram h11)))

theorem keeps_warmDegraded {s u : State} (h : Keeps s u) :
    Keeps s (State.warmDegraded u) := by
  unfold State.warmDegraded
  extract_lets -merge v1
  have h2 : Keeps s v1 := keeps_setBs (keeps_updBoot h)
  exact keeps_updPwr h2

theorem keeps_warmStart {s u : State} {x1} (h : Keeps s u) :
    Keeps s (State.warmStart u x1) := by
  unfold State.warmStart
  extract_lets -merge v1 anc v2 v3 v4 v5 names v7 secs v9 v10 v11
  have h1 : Keeps s v1 := Keeps.foldl h (fun _ _ k => keeps_setReg k)
  have h2 : Keeps s v2 := Keeps.upd h1
  have h3 : Keeps s v3 := keeps_setRegN h2
  have h4 : Keeps s v4 := keeps_setF (keeps_setF h3)
  have h5 : Keeps s v5 := keeps_setF (keeps_setF h4)
  have h7 : Keeps s v7 := Keeps.foldl h5 (fun _ _ k => Keeps.ite (fun _ => k) (fun _ => keeps_setSched k))
  have h9 : Keeps s v9 := keeps_updHost (keeps_hostApply h7)
  have h10 : Keeps s v10 := keeps_fwStart (keeps_updBoot (keeps_placeTiles (keeps_takeTables (keeps_reinstall h9))))
  have h11 : Keeps s v11 := keeps_wakeTiles (Keeps.ite (fun _ => keeps_schedStep h10) (fun _ => h10))
  exact keeps_warmGo (Keeps.ite (fun _ => h11) (fun _ => keeps_warmDegraded h11))

theorem keeps_execDeepSleepWake {s u : State} (h : Keeps s u) :
    KeepsR s (execDeepSleepWake u) := by
  unfold execDeepSleepWake
  refine (KeepsR.next (Keeps.ite (fun _ => h) (fun _ => ?_)))
  split
  rename_i y19 h20
  have h21 := Keeps.pair h20 (keeps_retCheck h)
  split
  · exact (keeps_retLost h21)
  · exact (keeps_warmStart h21)

end Sys2Proof.Machine
end

