-- ==== Sys2Proof/Laws/KeepsElectrical.lean ====
section
/-! SUPPORT. What the operations of Machine/Electrical.lean keep (Laws/Keeps.lean). -/

namespace Sys2Proof.Machine

theorem keeps_execVaonRise {s u : State} {x0} (h : Keeps s u) :
    KeepsR s (execVaonRise x0 u) := by
  unfold execVaonRise
  refine KeepsR.next ?_
  refine Keeps.ite (fun _ => h) (fun _ => ?_)
  extract_lets -merge v1
  have h2 : Keeps s v1 := keeps_updBoot h
  exact Keeps.ite (fun _ => keeps_wakeN h2) (fun _ => h2)

theorem keeps_execVaonLoss {s u : State} (h : Keeps s u) :
    KeepsR s (execVaonLoss u) := by
  unfold execVaonLoss
  have h1 := keeps_setRegN (x1 := rPWR_WAKE_FAIL_CAUSE) (x2 := 0) (keeps_coreReset_empty h)
  dsimp only
  generalize State.setRegN _ _ _ = v at h1 ⊢
  exact KeepsR.next (keeps_updBoot (keeps_setF (h1.of rfl)))

theorem keeps_execJtagInstruction {s u : State} {x0} (h : Keeps s u) :
    KeepsR s (execJtagInstruction x0 u) := by
  unfold execJtagInstruction
  extract_lets -merge v1 v2
  refine KeepsR.next ?_
  refine Keeps.ite (fun _ => h) (fun _ => ?_)
  split
  · exact Keeps.upd h
  · exact Keeps.upd h
  · exact Keeps.upd h
  · exact Keeps.ite (fun _ => Keeps.upd h) (fun _ => h)

theorem keeps_debugChal {s u : State} (h : Keeps s u) :
    Keeps s (State.debugChal u).2 := by
  unfold State.debugChal
  split
  · exact (Keeps.mk2 h)
  · split
    rename_i y37 h38
    have h39 := Keeps.pair h38 (keeps_challenge h)
    extract_lets -merge v15
    exact (Keeps.mk2 (Keeps.upd h39))

theorem keeps_debugAuth {s u : State} {x1} (h : Keeps s u) :
    Keeps s (State.debugAuth u x1) := by
  unfold State.debugAuth
  split
  rename_i e4
  have h5 := Keeps.pair e4 (keeps_debugChal h)
  extract_lets -merge v6 v7
  exact Keeps.upd h5

theorem keeps_execDebugAuth {s u : State} {x0} (h : Keeps s u) :
    KeepsR s (execDebugAuth x0 u) := by
  unfold execDebugAuth
  exact KeepsR.next (keeps_inCore h (fun y1 y2 => keeps_debugAuth y2))

theorem keeps_execPllLoss {s u : State} {x0} (h : Keeps s u) :
    KeepsR s (execPllLoss x0 u) := by
  unfold execPllLoss
  extract_lets -merge v6
  have h8 : Keeps s v6 := (keeps_updBoot h)
  exact (KeepsR.next (Keeps.ite (fun _ => h) (fun _ => (Keeps.ite (fun _ => (keeps_setF h8)) (fun _ => h8)))))

theorem keeps_execBusOffRecovery {s u : State} {x0} (h : Keeps s u) :
    KeepsR s (execBusOffRecovery x0 u) := by
  unfold execBusOffRecovery
  exact KeepsR.next (Keeps.ite (fun _ => h) (fun _ => keeps_setF (keeps_setF (keeps_setF h))))

end Sys2Proof.Machine
end

