-- ==== Sys2Proof/Laws/KeepsBus.lean ====
section
/-! SUPPORT. What the operations of Machine/Bus.lean keep (Laws/Keeps.lean). -/

namespace Sys2Proof.Machine

theorem keeps_beView {s u : State} {x1} {x2} {x3} (h : Keeps s u) :
    Keeps s (State.beView u x1 x2 x3).2 := by
  unfold State.beView
  exact (Keeps.ite2 (fun _ => (Keeps.mk2 h)) (fun _ => (Keeps.ite2 (fun _ => (Keeps.mk2 h)) (fun _ => (Keeps.ite2 (fun _ => (keeps_dmaStatus h)) (fun _ => (Keeps.mk2 h)))))))

theorem keeps_prefetchRead {s u : State} {x1} (h : Keeps s u) :
    Keeps s (State.prefetchRead u x1).2 := by
  unfold State.prefetchRead
  refine (Keeps.ite2 (fun _ => (Keeps.mk2 h)) (fun _ => ?_))
  split
  rename_i y15 h16
  have h21 := Keeps.pair h16 (keeps_fresh h)
  exact (Keeps.mk2 h21)

theorem keeps_regRead {s u : State} {x1} {x2} (h : Keeps s u) :
    Keeps s (State.regRead u x1 x2).2 := by
  unfold State.regRead
  refine Keeps.ite2 (fun _ => keeps_evtPop h) (fun _ => ?_)
  refine Keeps.ite2 (fun _ => keeps_ltRead h) (fun _ => ?_)
  refine Keeps.ite2 (fun _ => keeps_capRead h) (fun _ => ?_)
  refine Keeps.ite2 (fun _ => keeps_capRead h) (fun _ => ?_)
  refine Keeps.ite2 (fun _ => keeps_beView h) (fun _ => ?_)
  split
  · exact keeps_prefetchRead h
  · exact h

theorem keeps_curveRead {s u : State} {x1} {x2} {x3} (h : Keeps s u) :
    Keeps s (State.curveRead u x1 x2 x3).2 := by
  unfold State.curveRead
  split
  rename_i y15 h16
  have h17 := Keeps.pair h16 (keeps_checkWord h)
  exact (Keeps.mk2 h17)

theorem keeps_busReadAt {s u : State} {x1} {x2} (h : Keeps s u) :
    Keeps s (State.busReadAt u x1 x2).2 := by
  unfold State.busReadAt
  extract_lets -merge v6
  refine (Keeps.ite2 (fun _ => (Keeps.mk2 h)) (fun _ => ?_))
  split
  · exact (keeps_curveRead h)
  · split
    · exact (Keeps.mk2 (keeps_unmapped h))
    · exact (Keeps.ite2 (fun _ => (Keeps.mk2 h)) (fun _ => (keeps_regRead h)))

theorem keeps_busRead {s u : State} {x1} {x2} (h : Keeps s u) :
    Keeps s (State.busRead u x1 x2).2 := by
  unfold State.busRead
  exact Keeps.ite2 (fun _ => h) (fun _ => Keeps.ite2 (fun _ => Keeps.mk2 (keeps_busErr h)) (fun _ => keeps_busReadAt h))

theorem keeps_regPlain {s u : State} {x1} {x2} {x3} (h : Keeps s u) :
    Keeps s (State.regPlain u x1 x2 x3) := by
  unfold State.regPlain
  exact (Keeps.ite (fun _ => h) (fun _ => (keeps_setReg h)))

theorem keeps_fenceWrite {s u : State} {x1} (h : Keeps s u) :
    Keeps s (State.fenceWrite u x1) := by
  unfold State.fenceWrite
  extract_lets -merge v5
  exact (Keeps.ite (fun _ => h) (fun _ => (keeps_signal h)))

theorem keeps_domCfgWrite {s u : State} {x1} {x2} {x3} (h : Keeps s u) :
    Keeps s (State.domCfgWrite u x1 x2 x3) := by
  unfold State.domCfgWrite
  extract_lets -merge v10
  exact (keeps_freshCheck (keeps_regPlain h))

theorem keeps_actSys {s u : State} {x1} {x2} (h : Keeps s u) :
    KeepsO s (State.actSys u x1 x2) := by
  unfold State.actSys
  refine KeepsO.ite (fun _ => ?_) (fun _ => ?_)
  · exact (KeepsO.some (keeps_stageData h))
  · refine KeepsO.ite (fun _ => ?_) (fun _ => ?_)
    · exact (KeepsO.some (keeps_updCmd h))
    · refine KeepsO.ite (fun _ => ?_) (fun _ => ?_)
      · exact (KeepsO.some (keeps_otpWrite h))
      · refine KeepsO.ite (fun _ => ?_) (fun _ => ?_)
        · exact (KeepsO.some (keeps_pwrWrite h))
        · refine KeepsO.ite (fun _ => ?_) (fun _ => ?_)
          · exact (KeepsO.some (Keeps.ite (fun _ => (keeps_setRegN h)) (fun _ => h)))
          · exact KeepsO.none

theorem KeepsO.map {s : State} {α : Type} {o : Option α} {F : α → State} (h : ∀ x, Keeps s (F x)) : KeepsO s (o.map F) := by
  cases o with
  | none => exact KeepsO.none
  | some x => exact KeepsO.some (h x)

theorem keeps_actTime {s u : State} {x1} {x2} {x3} (h : Keeps s u) :
    KeepsO s (State.actTime u x1 x2 x3) := by
  unfold State.actTime
  refine KeepsO.ite (fun _ => .some (keeps_ctrlWrite h)) (fun _ => .ite (fun _ => .some (keeps_snapCmd h)) (fun _ => .ite (fun _ => ?_)
    (fun _ => ?_)))
  · exact .ite (fun _ => .some (keeps_domCfgWrite h)) (fun _ => .ite (fun _ => .some (keeps_incrWrite h)) (fun _ =>
      .ite (fun _ => .some (keeps_offsetWrite h)) (fun _ => .ite (fun _ => .some (keeps_adjust h)) (fun _ =>
      .ite (fun _ => .some (keeps_servo h)) (fun _ => .none)))))
  · split
    · exact .some (keeps_schedCfg h)
    · exact .map (fun _ => keeps_schedTarget h)

theorem keeps_actMsg {s u : State} {x1} {x2} (h : Keeps s u) :
    KeepsO s (State.actMsg u x1 x2) := by
  unfold State.actMsg
  refine KeepsO.ite (fun _ => .some (keeps_fenceWrite h)) (fun _ => .ite (fun _ => .some (keeps_evtSkip h)) (fun _ =>
    .ite (fun _ => .some (keeps_evtOwner h)) (fun _ => .ite (fun _ => .some (keeps_spCmd h)) (fun _ => ?_))))
  split
  · exact .some (keeps_flipCommit h)
  · split
    · exact .some (keeps_setReg h)
    · exact .map (fun _ => keeps_rawAddr h)

theorem keeps_actTile {s u : State} {x1} {x2} {x3} (h : Keeps s u) :
    KeepsO s (State.actTile u x1 x2 x3) := by
  unfold State.actTile
  refine KeepsO.ite (fun _ => .some (.ite (fun _ => keeps_recTrigger h) (fun _ => .ite (fun _ => keeps_recRearmOp h) (fun _ => h))))
    (fun _ => .ite (fun _ => .some (keeps_timingCommit h)) (fun _ => .ite (fun _ => .some (keeps_darnCfg h)) (fun _ =>
    .ite (fun _ => .some (.ite (fun _ => keeps_baselineOp h) (fun _ => .ite (fun _ => keeps_checkpointOp h)
    (fun _ => .ite (fun _ => keeps_clearStateOp h) (fun _ => h))))) (fun _ =>
    .ite (fun _ => .some (keeps_directWrite h)) (fun _ => ?_)))))
  split
  · exact .some (.ite (fun _ => keeps_updCommitOp h) (fun _ => .ite (fun _ => keeps_updFillOp h) (fun _ =>
      .ite (fun _ => keeps_updCancelOp h) (fun _ => h))))
  · split
    · exact .some (.ite (fun _ => keeps_tgStart h) (fun _ => .ite (fun _ => keeps_tgStop h) (fun _ => h)))
    · split
      · exact .some (.ite (fun _ => keeps_enableOp h) (fun _ => .ite (fun _ => keeps_disableOp h) (fun _ =>
          .ite (fun _ => keeps_recalNext h) (fun _ => .ite (fun _ => keeps_retryOp h) (fun _ => h)))))
      · exact .map (fun _ => .ite (fun _ => keeps_tregOp h) (fun _ => .ite (fun _ => keeps_tregOp h) (fun _ => h)))

theorem keeps_actUnit {s u : State} {x1} {x2} (h : Keeps s u) :
    KeepsO s (State.actUnit u x1 x2) := by
  unfold State.actUnit
  refine KeepsO.ite (fun _ => .some (keeps_ackScWrite h)) (fun _ => .ite (fun _ => .some (keeps_ackTtWrite h)) (fun _ =>
    .ite (fun _ => .some (keeps_eccWrite h)) (fun _ => .ite (fun _ => ?_) (fun _ => .map (fun _ => keeps_beCmd h)))))
  exact .ite (fun _ => .some (keeps_crcCmd h)) (fun _ => .ite (fun _ => .some (keeps_crcBusyErr h)) (fun _ => .none))

theorem KeepsO.getD {s t : State} {o : Option State} (h : KeepsO s o) (k : Keeps s t) : Keeps s (o.getD t) := by
  cases o with
  | none => exact k
  | some x => exact h x rfl

theorem keeps_regAct {s u : State} {x1} {x2} {x3} (h : Keeps s u) :
    Keeps s (State.regAct u x1 x2 x3) := by
  unfold State.regAct
  exact KeepsO.getD (.ite (fun _ => keeps_actSys h) (fun _ => .ite (fun _ => keeps_actTime h) (fun _ => .ite (fun _ => keeps_actMsg h)
    (fun _ => .ite (fun _ => keeps_actTile h) (fun _ => keeps_actUnit h))))) (keeps_regPlain h)

theorem keeps_regWrite {s u : State} {x1} {x2} {x3} (h : Keeps s u) :
    Keeps s (State.regWrite u x1 x2 x3) := by
  unfold State.regWrite
  refine (keeps_lockWrite h (fun _ _ _ => ?_))
  rename_i y11 h12
  exact (keeps_regAct h12)

theorem keeps_busWriteAt {s u : State} {x1} {x2} (h : Keeps s u) :
    Keeps s (State.busWriteAt u x1 x2) := by
  unfold State.busWriteAt
  refine Keeps.ite (fun _ => h) (fun _ => ?_)
  refine Keeps.ite (fun _ => keeps_lockViol h) (fun _ => ?_)
  refine Keeps.ite (fun _ => h) (fun _ => ?_)
  split
  · exact keeps_unmapped h
  · exact Keeps.ite (fun _ => h) (fun _ => keeps_regWrite h)

theorem keeps_busWrite {s u : State} {x1} {x2} (h : Keeps s u) :
    Keeps s (State.busWrite u x1 x2) := by
  unfold State.busWrite
  exact Keeps.ite (fun _ => h) (fun _ => Keeps.ite (fun _ => keeps_busErr h) (fun _ => keeps_busWriteAt h))

theorem keeps_execFenceSignalWrite {s u : State} {x0} (h : Keeps s u) :
    KeepsR s (execFenceSignalWrite x0 u) := by
  unfold execFenceSignalWrite
  refine (KeepsR.next (keeps_viaRegV h (fun _ _ _ => ?_)))
  rename_i y16 h17
  exact (keeps_fenceWrite h17)

theorem keeps_execRegisterWrite {s u : State} {x0} {x1} (h : Keeps s u) :
    KeepsR s (execRegisterWrite x0 x1 u) := by
  unfold execRegisterWrite
  exact (KeepsR.next (keeps_busWrite h))

end Sys2Proof.Machine
end

