-- ==== Sys2Proof/Laws/KeepsBeamDma.lean ====
section
/-! SUPPORT. What the operations of Machine/BeamDma.lean keep (Laws/Keeps.lean). -/

namespace Sys2Proof.Machine

theorem keeps_dmaRegRead {s u : State} {x1} {x2} (h : Keeps s u) :
    Keeps s (State.dmaRegRead u x1 x2).2 := by
  induction x2 generalizing u x1 with
  | zero => exact h
  | succ k ih =>
    rw [State.dmaRegRead]
    exact ih (keeps_busRead h)

theorem keeps_dmaRegWrite {s u : State} {x1} {x2} {x3} (h : Keeps s u) :
    Keeps s (State.dmaRegWrite u x1 x2 x3) := by
  induction x3 generalizing u x1 x2 with
  | zero => cases x2 <;> exact h
  | succ k ih =>
    rw [State.dmaRegWrite]
    exact ih (keeps_busWrite h)

theorem keeps_dmaFail {s u : State} {x1} {x2} {x3} (h : Keeps s u) :
    Keeps s (State.dmaFail u x1 x2 x3) := by
  unfold State.dmaFail
  exact (keeps_settleTrap (keeps_engineTrap (keeps_updEng h)))

/-- `Keeps` of a DMA row's end. -/
def KeepsD (s : State) : DmaOut → Prop
  | .ok t => Keeps s t
  | .bad t _ => Keeps s t

theorem KeepsD.ok {s t : State} (h : Keeps s t) : KeepsD s (.ok t) := h

theorem KeepsD.bad {s t : State} {c : Nat} (h : Keeps s t) : KeepsD s (.bad t c) := h

theorem KeepsD.ite {s : State} {c : Prop} [Decidable c] {a b : DmaOut} (h : c → KeepsD s a) (k : ¬c → KeepsD s b) :
    KeepsD s (if c then a else b) := by
  split
  · exact h ‹_›
  · exact k ‹_›

theorem keeps_dmaRowIn {s u : State} {n src dst len} (h : Keeps s u) : KeepsD s (u.dmaRowIn n src dst len) := by
  unfold State.dmaRowIn
  refine KeepsD.ite (fun _ => .bad (keeps_busErr h)) (fun _ => .ite (fun _ => ?_) (fun _ => ?_))
  · exact .ok (keeps_writeAll (keeps_dmaRegRead h))
  · exact .ite (fun _ => .bad (keeps_readAll h)) (fun _ => .ok (keeps_writeAll (keeps_readAll h)))

theorem keeps_dmaRowOut {s u : State} {n src dst len} (h : Keeps s u) : KeepsD s (u.dmaRowOut n src dst len) := by
  unfold State.dmaRowOut
  have h1 := keeps_beCheck (x1 := ldBase n + src) (x2 := len) h
  refine KeepsD.ite (fun _ => .bad h1) (fun _ => .ite (fun _ => .bad (keeps_busErr h1))
    (fun _ => .ite (fun _ => .bad (keeps_busErr h1)) (fun _ => .ok ?_)))
  exact .ite (fun _ => keeps_dmaRegWrite h1) (fun _ => keeps_writeAll h1)

theorem keeps_dmaRows {s u : State} {n x k} {src dst : Nat} (h : Keeps s u) : KeepsD s (u.dmaRows n x src dst k) := by
  induction k generalizing u src dst with
  | zero => exact .ok h
  | succ k ih =>
    rw [State.dmaRows]
    have h1 : KeepsD s (if x.toSys then u.dmaRowOut n src dst x.width else u.dmaRowIn n src dst x.width) :=
      .ite (fun _ => keeps_dmaRowOut h) (fun _ => keeps_dmaRowIn h)
    split
    · next e => rw [e] at h1; exact ih h1
    · next e => rw [e] at h1; exact h1

theorem keeps_dmaComplete {s u : State} {x1} {x2} (h : Keeps s u) :
    Keeps s (State.dmaComplete u x1 x2) := by
  unfold State.dmaComplete
  split
  · exact h
  · next x rest e =>
    have h1 := keeps_dmaRows (n := x1) (x := x) (k := x.height) (src := x.src) (dst := x.dst) h
    split
    · next e => rw [e] at h1; exact keeps_dmaFail h1
    · next e =>
      rw [e] at h1
      exact keeps_settleTrap (Keeps.ite (fun _ => keeps_signal (keeps_updEng h1)) (fun _ => keeps_updEng h1))

theorem keeps_execDmaDescComplete {s u : State} {x0} {x1} (h : Keeps s u) :
    KeepsR s (execDmaDescComplete x0 x1 u) := by
  unfold execDmaDescComplete
  exact KeepsR.next (Keeps.ite (fun _ => h) (fun _ => keeps_dmaComplete h))

theorem keeps_execDmaErr {s u : State} {x0} {x1} (h : Keeps s u) :
    KeepsR s (execDmaErr x0 x1 u) := by
  unfold execDmaErr
  exact (KeepsR.next (Keeps.ite (fun _ => h) (fun _ => (keeps_dmaFail h))))

end Sys2Proof.Machine
end

