-- ==== Sys2Proof/Laws/KeepsRouter.lean ====
section
/-! SUPPORT. What the operations of Machine/Router.lean keep (Laws/Keeps.lean). -/

namespace Sys2Proof.Machine

theorem keeps_holvoFlip {s u : State} {x1} (h : Keeps s u) :
    Keeps s (State.holvoFlip u x1).2 := by
  unfold State.holvoFlip
  extract_lets -merge v5 v6 v7 v8
  refine (Keeps.ite2 (fun _ => (Keeps.mk2 h)) (fun _ => (Keeps.ite2 (fun _ => (Keeps.mk2 h)) (fun _ => (Keeps.ite2 (fun _ => (Keeps.mk2 h)) (fun _ => (Keeps.ite2 (fun _ => (Keeps.mk2 (keeps_refuseFlip h))) (fun _ => ?_))))))))
  split
  rename_i y25 h26
  have h27 := Keeps.pair h26 (keeps_commitFlip h)
  exact (Keeps.mk2 h27)

theorem keeps_holvoFence {s u : State} {x1} (h : Keeps s u) :
    Keeps s (State.holvoFence u x1).2 := by
  unfold State.holvoFence
  extract_lets -merge v5 v6
  exact (Keeps.ite2 (fun _ => (Keeps.mk2 h)) (fun _ => (Keeps.ite2 (fun _ => (Keeps.mk2 h)) (fun _ => (Keeps.ite2 (fun _ => (Keeps.mk2 h)) (fun _ => (Keeps.ite2 (fun _ => (Keeps.mk2 h)) (fun _ => (Keeps.mk2 (keeps_signal h))))))))))

theorem keeps_schedPut {s u : State} {x1} {x2} {x3} {x4} {x5} (h : Keeps s u) :
    Keeps s (State.schedPut u x1 x2 x3 x4 x5).2 := by
  unfold State.schedPut
  extract_lets -merge v1 v2 v3
  have h4 : Keeps s v1 := keeps_setReg (keeps_setReg h)
  have h5 : Keeps s v2 := keeps_setPair h4
  have h6 : Keeps s v3 := keeps_setRegN h5
  exact Keeps.ite2 (fun _ => keeps_schedArm h6) (fun _ => Keeps.mk2 (keeps_schedOff h6))

theorem keeps_holvoSched {s u : State} {x1} (h : Keeps s u) :
    Keeps s (State.holvoSched u x1).2 := by
  unfold State.holvoSched
  extract_lets -merge v1 v2
  refine Keeps.ite2 (fun _ => h) (fun _ => ?_)
  refine Keeps.ite2 (fun _ => h) (fun _ => ?_)
  refine Keeps.ite2 (fun _ => h) (fun _ => ?_)
  refine Keeps.ite2 (fun _ => h) (fun _ => ?_)
  refine Keeps.ite2 (fun _ => h) (fun _ => ?_)
  refine Keeps.ite2 (fun _ => Keeps.mk2 (keeps_schedOff h)) (fun _ => ?_)
  split
  rename_i e6
  have h7 := Keeps.pair e6 (keeps_schedPut h)
  exact h7

theorem keeps_mboxNak {s u : State} {x1} (h : Keeps s u) :
    Keeps s (State.mboxNak u x1) := by
  unfold State.mboxNak
  refine (Keeps.foldl h (fun _ _ _ => ?_))
  rename_i y8 y9 h10
  exact (keeps_bumpF h10)

theorem keeps_mboxTrig {s u : State} {x1} (h : Keeps s u) :
    Keeps s (State.mboxTrig u x1) := by
  unfold State.mboxTrig
  exact Keeps.ite (fun _ => keeps_trigger h) (fun _ => h)

theorem keeps_mboxPut {s u : State} {x1} {x2} (h : Keeps s u) :
    Keeps s (State.mboxPut u x1 x2) := by
  unfold State.mboxPut
  split
  · exact h
  · extract_lets -merge v6
    have h7 : Keeps s v6 := keeps_writeAll h
    exact keeps_updEng h7

theorem keeps_deliver {s u : State} {x1} {x2} (h : Keeps s u) :
    Keeps s (State.deliver u x1 x2).2 := by
  unfold State.deliver
  extract_lets -merge v1 v2 v3
  exact Keeps.ite2 (fun _ => Keeps.mk2 (keeps_mboxNak h)) (fun _ => Keeps.ite2 (fun _ => h) (fun _ => Keeps.ite2 (fun _ => Keeps.mk2 (keeps_mboxNak h)) (fun _ => Keeps.ite2 (fun _ => Keeps.mk2 (keeps_mboxNak h)) (fun _ => Keeps.mk2 (Keeps.foldl (Keeps.foldl h (fun y7 y8 h9 => keeps_mboxPut h9)) (fun y4 y5 h6 => keeps_mboxTrig h6))))))

theorem keeps_poseCopy {s u : State} {x1} (h : Keeps s u) :
    Keeps s (State.poseCopy u x1) := by
  unfold State.poseCopy
  refine Keeps.ite (fun _ => h) (fun _ => ?_)
  extract_lets -merge v1
  exact keeps_hidWrite (keeps_updSafe h)

theorem keeps_fastRec {s u : State} {x1} {x2} (h : Keeps s u) :
    Keeps s (State.fastRec u x1 x2).2 := by
  unfold State.fastRec
  exact (Keeps.ite2 (fun _ => (keeps_holvoFlip h)) (fun _ => (Keeps.ite2 (fun _ => (keeps_holvoFence h)) (fun _ => (Keeps.ite2 (fun _ => (keeps_holvoSched h)) (fun _ => (Keeps.ite2 (fun _ => (keeps_deliver (keeps_poseCopy h))) (fun _ => (Keeps.ite2 (fun _ => (keeps_deliver h)) (fun _ => (Keeps.mk2 h)))))))))))

theorem keeps_readWords {s u : State} {x1} {x2} {x3} {x4} (h : Keeps s u) :
    Keeps s (State.readWords u x1 x2 x3 x4).2 := by
  induction x4 generalizing u x2 with
  | zero => exact h
  | succ k ih =>
    rw [State.readWords]
    exact ih (keeps_busRead h)

theorem keeps_writeWords {s u : State} {x1} {x2} {x3} (h : Keeps s u) :
    Keeps s (State.writeWords u x1 x2 x3) := by
  induction x3 generalizing u x1 with
  | nil => exact h
  | cons v t ih =>
    rw [State.writeWords]
    exact ih (keeps_busWrite h)

theorem keeps_fwRegRead {s u : State} {x1} (h : Keeps s u) :
    Keeps s (State.fwRegRead u x1).2 := by
  unfold State.fwRegRead
  extract_lets -merge v5
  refine (Keeps.ite2 (fun _ => (Keeps.mk2 h)) (fun _ => (Keeps.ite2 (fun _ => (Keeps.mk2 h)) (fun _ => ?_))))
  split
  rename_i y20 h21
  have h22 := Keeps.pair h21 (keeps_readWords h)
  exact (Keeps.mk2 h22)

theorem keeps_fwRegWrite {s u : State} {x1} (h : Keeps s u) :
    Keeps s (State.fwRegWrite u x1).2 := by
  unfold State.fwRegWrite
  exact (Keeps.ite2 (fun _ => (Keeps.mk2 h)) (fun _ => (Keeps.mk2 (keeps_writeWords h))))

theorem keeps_fwStage {s u : State} {x1} (h : Keeps s u) :
    Keeps s (State.fwStage u x1).2 := by
  unfold State.fwStage
  exact (Keeps.ite2 (fun _ => (Keeps.mk2 h)) (fun _ => (Keeps.ite2 (fun _ => (Keeps.mk2 (keeps_updNak h))) (fun _ => (Keeps.mk2 (keeps_stageBytes h))))))

theorem keeps_fwWord {s u : State} {x1} {x2} (h : Keeps s u) :
    Keeps s (State.fwWord u x1 x2).2 := by
  unfold State.fwWord
  exact (Keeps.ite2 (fun _ => (Keeps.mk2 h)) (fun _ => (Keeps.mk2 (keeps_busWrite h))))

theorem keeps_fwStream {s u : State} {x1} (h : Keeps s u) :
    Keeps s (State.fwStream u x1).2 := by
  unfold State.fwStream
  exact (Keeps.ite2 (fun _ => (Keeps.mk2 h)) (fun _ => (Keeps.ite2 (fun _ => (Keeps.mk2 h)) (fun _ => (Keeps.ite2 (fun _ => (Keeps.mk2 h)) (fun _ => (Keeps.ite2 (fun _ => (Keeps.mk2 h)) (fun _ => (Keeps.mk2 (keeps_updHamper h))))))))))

theorem keeps_fwSpool {s u : State} {x1} (h : Keeps s u) :
    Keeps s (State.fwSpool u x1).2 := by
  unfold State.fwSpool
  extract_lets -merge v5
  refine (Keeps.ite2 (fun _ => (Keeps.mk2 h)) (fun _ => (Keeps.ite2 (fun _ => (Keeps.mk2 h)) (fun _ => ?_))))
  split
  rename_i y20 h21
  have h22 := Keeps.pair h21 (keeps_spRead h)
  exact (Keeps.mk2 h22)

theorem keeps_fwSak {s u : State} {x1} (h : Keeps s u) :
    Keeps s (State.fwSak u x1).2 := by
  unfold State.fwSak
  extract_lets -merge v6 v7
  refine (Keeps.ite2 (fun _ => (Keeps.mk2 h)) (fun _ => ?_))
  split
  · exact (Keeps.mk2 h)
  · exact (Keeps.mk2 (keeps_updHost h))

theorem keeps_fwDiag {s u : State} (h : Keeps s u) :
    Keeps s (State.fwDiag u).2 := by
  unfold State.fwDiag
  refine (Keeps.ite2 (fun _ => ?_) (fun _ => (Keeps.mk2 h)))
  split
  rename_i y14 h15
  have h16 := Keeps.pair h15 (keeps_fresh h)
  exact (Keeps.mk2 h16)

theorem keeps_fwOp {s u : State} {x1} {x2} (h : Keeps s u) :
    Keeps s (State.fwOp u x1 x2).2 := by
  unfold State.fwOp
  split
  · exact (Keeps.ite2 (fun _ => (Keeps.mk2 h)) (fun _ => (Keeps.mk2 h)))
  · exact (keeps_fwRegRead h)
  · exact (keeps_fwRegWrite h)
  · exact (keeps_fwStage h)
  · exact (keeps_fwWord h)
  · exact (keeps_fwStream h)
  · exact (keeps_fwWord h)
  · exact (keeps_fwSpool h)
  · exact (keeps_fwSak h)
  · exact (keeps_fwWord h)
  · exact (keeps_fwWord h)
  · exact (Keeps.ite2 (fun _ => (keeps_fwDiag h)) (fun _ => (Keeps.mk2 h)))

theorem keeps_answer {s u : State} {x1} {x2} {x3} {x4} {x5} (h : Keeps s u) :
    Keeps s (State.answer u x1 x2 x3 x4 x5) := by
  unfold State.answer
  split
  · exact (keeps_nakRec h)
  · exact (Keeps.ite (fun _ => (keeps_ackRec h)) (fun _ => h))

theorem keeps_fwRec {s u : State} {x1} {x2} (h : Keeps s u) :
    Keeps s (State.fwRec u x1 x2) := by
  unfold State.fwRec
  refine (Keeps.ite (fun _ => (Keeps.ite (fun _ => (keeps_stateRec h)) (fun _ => (keeps_answer h)))) (fun _ => ?_))
  split
  rename_i y20 h21
  have h22 := Keeps.pair h21 (keeps_fwOp h)
  exact (keeps_answer h22)

theorem keeps_fwServe {s u : State} (h : Keeps s u) :
    Keeps s (State.fwServe u) := by
  unfold State.fwServe
  split
  · exact h
  · exact (Keeps.ite (fun _ => (keeps_fwRec (keeps_updHost h))) (fun _ => h))

theorem keeps_fwAccept {s u : State} {x1} {x2} (h : Keeps s u) :
    Keeps s (State.fwAccept u x1 x2) := by
  unfold State.fwAccept
  extract_lets -merge v6 v7
  have h11 : Keeps s v7 := (keeps_updHost h)
  exact (Keeps.ite (fun _ => (keeps_answer h)) (fun _ => (Keeps.ite (fun _ => (keeps_fwServe h11)) (fun _ => h11))))

theorem keeps_seqCheck {s u : State} {x1} {x2} {x3} (h : Keeps s u) :
    Keeps s (State.seqCheck u x1 x2 x3).2 := by
  unfold State.seqCheck
  extract_lets -merge v7 v8 v9 v10
  have h16 : Keeps s v10 := (keeps_hostEv (keeps_raise h))
  exact (Keeps.ite2 (fun _ => (Keeps.mk2 (keeps_hostEv (keeps_setRegN h)))) (fun _ => (Keeps.ite2 (fun _ => (Keeps.mk2 (keeps_setRegN h))) (fun _ => (Keeps.ite2 (fun _ => (Keeps.mk2 (keeps_nakRec h16))) (fun _ => (Keeps.mk2 (keeps_nakRec h))))))))

theorem keeps_dispatchRec {s u : State} {x1} {x2} {x3} (h : Keeps s u) :
    Keeps s (State.dispatchRec u x1 x2 x3) := by
  unfold State.dispatchRec
  extract_lets -merge v11
  refine (Keeps.ite (fun _ => ?_) (fun _ => (keeps_fwAccept h)))
  split
  rename_i y19 h20
  have h21 := Keeps.pair h20 (keeps_fastRec h)
  exact (keeps_answer h21)

theorem keeps_route {s u : State} {x1} {x2} {x3} (h : Keeps s u) :
    Keeps s (State.route u x1 x2 x3) := by
  unfold State.route
  refine (Keeps.ite (fun _ => (keeps_raise h)) (fun _ => (Keeps.ite (fun _ => (keeps_raise h)) (fun _ => ?_))))
  split
  · rename_i y17 h18
    have h19 := Keeps.pair h18 (keeps_seqCheck h)
    exact h19
  · rename_i y23 h24
    have h25 := Keeps.pair h24 (keeps_seqCheck h)
    split
    · exact (keeps_answer h25)
    · exact (keeps_dispatchRec h25)

theorem keeps_routeBytes {s u : State} {x1} {x2} {x3} (h : Keeps s u) :
    Keeps s (State.routeBytes u x1 x2 x3) := by
  induction x3 generalizing u x2 with
  | zero => exact h
  | succ k ih =>
    rw [State.routeBytes]
    exact .ite (fun _ => h) (fun _ => .ite (fun _ => keeps_raise h) (fun _ => ih (keeps_route h)))

theorem keeps_recIn {s u : State} {x1} {x2} {x3} (h : Keeps s u) :
    Keeps s (State.recIn u x1 x2 x3) := by
  unfold State.recIn
  refine Keeps.ite (fun _ => h) (fun _ => ?_)
  extract_lets -merge v1
  have h2 : Keeps s v1 := keeps_wakeNote h
  exact Keeps.ite (fun _ => keeps_raise h2) (fun _ => keeps_route h2)

end Sys2Proof.Machine
end

