-- ==== Sys2Proof/Laws/KeepsHostCmd.lean ====
section
/-! SUPPORT. What the operations of Machine/HostCmd.lean keep (Laws/Keeps.lean). -/

namespace Sys2Proof.Machine

theorem keeps_execFlip {s u : State} {x0} {x1} (h : Keeps s u) :
    KeepsR s (execFlip x0 x1 u) := by
  unfold execFlip
  exact (KeepsR.next (keeps_recIn h))

theorem keeps_execFenceSignal {s u : State} {x0} {x1} (h : Keeps s u) :
    KeepsR s (execFenceSignal x0 x1 u) := by
  unfold execFenceSignal
  exact (KeepsR.next (keeps_recIn h))

theorem keeps_execSchedWrite {s u : State} {x0} {x1} (h : Keeps s u) :
    KeepsR s (execSchedWrite x0 x1 u) := by
  unfold execSchedWrite
  exact (KeepsR.next (keeps_recIn h))

theorem keeps_execPose {s u : State} {x0} {x1} (h : Keeps s u) :
    KeepsR s (execPose x0 x1 u) := by
  unfold execPose
  exact (KeepsR.next (keeps_recIn h))

theorem keeps_execObjectList {s u : State} {x0} {x1} (h : Keeps s u) :
    KeepsR s (execObjectList x0 x1 u) := by
  unfold execObjectList
  exact (KeepsR.next (keeps_recIn h))

theorem keeps_execMaskParam {s u : State} {x0} {x1} (h : Keeps s u) :
    KeepsR s (execMaskParam x0 x1 u) := by
  unfold execMaskParam
  exact (KeepsR.next (keeps_recIn h))

theorem keeps_execSymbolSet {s u : State} {x0} {x1} (h : Keeps s u) :
    KeepsR s (execSymbolSet x0 x1 u) := by
  unfold execSymbolSet
  exact (KeepsR.next (keeps_recIn h))

theorem keeps_execSymbolClear {s u : State} {x0} {x1} (h : Keeps s u) :
    KeepsR s (execSymbolClear x0 x1 u) := by
  unfold execSymbolClear
  exact (KeepsR.next (keeps_recIn h))

theorem keeps_execPatternSet {s u : State} {x0} {x1} (h : Keeps s u) :
    KeepsR s (execPatternSet x0 x1 u) := by
  unfold execPatternSet
  exact (KeepsR.next (keeps_recIn h))

theorem keeps_execAgingCtrl {s u : State} {x0} {x1} (h : Keeps s u) :
    KeepsR s (execAgingCtrl x0 x1 u) := by
  unfold execAgingCtrl
  exact (KeepsR.next (keeps_recIn h))

theorem keeps_execHealthCfg {s u : State} {x0} {x1} (h : Keeps s u) :
    KeepsR s (execHealthCfg x0 x1 u) := by
  unfold execHealthCfg
  exact (KeepsR.next (keeps_recIn h))

theorem keeps_execPing {s u : State} {x0} {x1} (h : Keeps s u) :
    KeepsR s (execPing x0 x1 u) := by
  unfold execPing
  exact (KeepsR.next (keeps_recIn h))

theorem keeps_execStateReq {s u : State} {x0} {x1} (h : Keeps s u) :
    KeepsR s (execStateReq x0 x1 u) := by
  unfold execStateReq
  exact (KeepsR.next (keeps_recIn h))

theorem keeps_execRegRead {s u : State} {x0} {x1} (h : Keeps s u) :
    KeepsR s (execRegRead x0 x1 u) := by
  unfold execRegRead
  exact (KeepsR.next (keeps_recIn h))

theorem keeps_execRegWrite {s u : State} {x0} {x1} (h : Keeps s u) :
    KeepsR s (execRegWrite x0 x1 u) := by
  unfold execRegWrite
  exact (KeepsR.next (keeps_recIn h))

theorem keeps_execHolvoStageData {s u : State} {x0} {x1} (h : Keeps s u) :
    KeepsR s (execHolvoStageData x0 x1 u) := by
  unfold execHolvoStageData
  exact (KeepsR.next (keeps_recIn h))

theorem keeps_execHolvoUpdateCmd {s u : State} {x0} {x1} (h : Keeps s u) :
    KeepsR s (execHolvoUpdateCmd x0 x1 u) := by
  unfold execHolvoUpdateCmd
  exact (KeepsR.next (keeps_recIn h))

theorem keeps_execEvtStream {s u : State} {x0} {x1} (h : Keeps s u) :
    KeepsR s (execEvtStream x0 x1 u) := by
  unfold execEvtStream
  exact (KeepsR.next (keeps_recIn h))

theorem keeps_execSpoolCmd {s u : State} {x0} {x1} (h : Keeps s u) :
    KeepsR s (execSpoolCmd x0 x1 u) := by
  unfold execSpoolCmd
  exact (KeepsR.next (keeps_recIn h))

theorem keeps_execSpoolRead {s u : State} {x0} {x1} (h : Keeps s u) :
    KeepsR s (execSpoolRead x0 x1 u) := by
  unfold execSpoolRead
  exact (KeepsR.next (keeps_recIn h))

theorem keeps_execSakInstall {s u : State} {x0} {x1} (h : Keeps s u) :
    KeepsR s (execSakInstall x0 x1 u) := by
  unfold execSakInstall
  exact (KeepsR.next (keeps_recIn h))

theorem keeps_execPwrRequest {s u : State} {x0} {x1} (h : Keeps s u) :
    KeepsR s (execPwrRequest x0 x1 u) := by
  unfold execPwrRequest
  exact (KeepsR.next (keeps_recIn h))

theorem keeps_execHealthCmd {s u : State} {x0} {x1} (h : Keeps s u) :
    KeepsR s (execHealthCmd x0 x1 u) := by
  unfold execHealthCmd
  exact (KeepsR.next (keeps_recIn h))

theorem keeps_execDiagnostics {s u : State} {x0} {x1} {x2} (h : Keeps s u) :
    KeepsR s (execDiagnostics x0 x1 x2 u) := by
  unfold execDiagnostics
  exact (KeepsR.next (keeps_recIn h))

theorem keeps_execUnknownOpcode {s u : State} {x0} {x1} {x2} (h : Keeps s u) :
    KeepsR s (execUnknownOpcode x0 x1 x2 u) := by
  unfold execUnknownOpcode
  exact (KeepsR.next (keeps_recIn h))

theorem keeps_execProgramCommand {s u : State} {x0} {x1} {x2} (h : Keeps s u) :
    KeepsR s (execProgramCommand x0 x1 x2 u) := by
  unfold execProgramCommand
  exact (KeepsR.next (keeps_recIn h))

theorem keeps_macsecIn {s u t : State} {x1 x2 d} (e : State.macsecIn u x1 x2 = some (d, t)) (h : Keeps s u) : Keeps s t := by
  unfold State.macsecIn at e
  split at e
  · exact keeps_secOpen e h
  · cases e; exact h

theorem keeps_setPeer {s u : State} {x1} {x2} (h : Keeps s u) :
    Keeps s (State.setPeer u x1 x2) := by
  unfold State.setPeer
  exact keeps_updHost h

theorem keeps_ethBody {s u : State} {x1} {x2} {x3} {x4} (h : Keeps s u) :
    Keeps s (State.ethBody u x1 x2 x3 x4) := by
  unfold State.ethBody
  extract_lets -merge v1
  split
  · exact Keeps.ite (fun _ => Keeps.foldl (keeps_setPeer h) (fun y5 y6 h7 => keeps_routeBytes h7)) (fun _ => h)
  · exact Keeps.ite (fun _ => keeps_routeBytes (keeps_setPeer h)) (fun _ => h)
  · exact Keeps.ite (fun _ => keeps_ethOut h) (fun _ => h)
  · exact Keeps.ite (fun _ => keeps_ethOut h) (fun _ => h)
  · exact h

theorem keeps_ethGood {s u : State} {x1} {x2} (h : Keeps s u) :
    Keeps s (State.ethGood u x1 x2) := by
  unfold State.ethGood
  extract_lets -merge v6
  have h9 : Keeps s v6 := (Keeps.ite (fun _ => (keeps_wakeNote h)) (fun _ => h))
  refine Keeps.ite (fun _ => h) (fun _ => ?_)
  split
  · exact keeps_bump h9
  · rename_i e
    have h1 := keeps_macsecIn e h9
    exact Keeps.ite (fun _ => h1) (fun _ => keeps_ethBody h1)

theorem keeps_execEthFrameRx {s u : State} {x0} {x1} (h : Keeps s u) :
    KeepsR s (execEthFrameRx x0 x1 u) := by
  unfold execEthFrameRx
  exact (KeepsR.next (Keeps.ite (fun _ => h) (fun _ => (Keeps.ite (fun _ => (keeps_bump h)) (fun _ => (keeps_ethGood h))))))

theorem keeps_execEthLink {s u : State} {x0} {x1} (h : Keeps s u) :
    KeepsR s (execEthLink x0 x1 u) := by
  unfold execEthLink
  exact (KeepsR.next (Keeps.ite (fun _ => h) (fun _ => (keeps_hostEv (keeps_setB h)))))

theorem keeps_spiDone {s u : State} {x1} {x2} (h : Keeps s u) :
    Keeps s (State.spiDone u x1 x2) := by
  unfold State.spiDone
  exact (keeps_setF (keeps_updHost h))

theorem keeps_spiFrame {s u : State} {x1} {x2 : List Sys2Proof.Byte → State → State} (h : Keeps s u) (k2 : ∀ w v, Keeps s v → Keeps s (x2 w v)) :
    Keeps s (State.spiFrame u x1 x2) := by
  unfold State.spiFrame
  extract_lets -merge v7 v8
  have h11 : Keeps s v8 := (keeps_wakeNote h)
  exact (Keeps.ite (fun _ => h) (fun _ => (Keeps.ite (fun _ => (keeps_spiDone (keeps_bump h11))) (fun _ => (k2 _ _ h11)))))

theorem keeps_spiPut {s u : State} {x1} {x2 : State → ℕ × State} (h : Keeps s u) (k2 : ∀ v, Keeps s v → Keeps s (x2 v).2) :
    Keeps s (State.spiPut u x1 x2) := by
  unfold State.spiPut
  refine (keeps_spiFrame h (fun _ _ _ => ?_))
  rename_i y14 h15
  split
  · exact (keeps_spiDone h15)
  · exact (keeps_spiDone (keeps_bump h15))
  · split
    rename_i y30 h31
    have h32 := Keeps.pair h31 (k2 _ h15)
    exact (keeps_spiDone h32)

theorem keeps_spiWriteOp {s u : State} {x1} {x2} {x3} {x4} (h : Keeps s u) :
    Keeps s (State.spiWriteOp u x1 x2 x3 x4) := by
  unfold State.spiWriteOp
  refine (keeps_spiPut h (fun _ _ => ?_))
  rename_i y16 h17
  exact (Keeps.mk2 (keeps_writeWords h17))

theorem keeps_execSpiWrite {s u : State} {x0} {x1} {x2} (h : Keeps s u) :
    KeepsR s (execSpiWrite x0 x1 x2 u) := by
  unfold execSpiWrite
  exact (KeepsR.next (keeps_spiWriteOp h))

theorem keeps_execSpiWriteFixed {s u : State} {x0} {x1} {x2} (h : Keeps s u) :
    KeepsR s (execSpiWriteFixed x0 x1 x2 u) := by
  unfold execSpiWriteFixed
  exact (KeepsR.next (keeps_spiWriteOp h))

theorem keeps_spiReadOp {s u : State} {x1} {x2} {x3} {x4} (h : Keeps s u) :
    Keeps s (State.spiReadOp u x1 x2 x3 x4) := by
  unfold State.spiReadOp
  refine (keeps_spiFrame h (fun _ _ _ => ?_))
  rename_i y12 h13
  extract_lets -merge v11
  refine (Keeps.ite (fun _ => ?_) (fun _ => ?_))
  · split
    rename_i y34 h35
    have h19 := Keeps.pair h35 (keeps_fresh h13)
    split
    rename_i y36 h37
    have h38 := Keeps.pair h37 (keeps_readWords h19)
    exact (keeps_spiDone h38)
  · split
    rename_i y31 h32
    have h33 := Keeps.pair h32 (keeps_readWords h13)
    extract_lets -merge v38
    exact (keeps_spiDone h33)

theorem keeps_execSpiRead {s u : State} {x0} {x1} {x2} (h : Keeps s u) :
    KeepsR s (execSpiRead x0 x1 x2 u) := by
  unfold execSpiRead
  exact (KeepsR.next (keeps_spiReadOp h))

theorem keeps_execSpiReadFixed {s u : State} {x0} {x1} {x2} (h : Keeps s u) :
    KeepsR s (execSpiReadFixed x0 x1 x2 u) := by
  unfold execSpiReadFixed
  exact (KeepsR.next (keeps_spiReadOp h))

theorem keeps_execMboxWrite {s u : State} {x0} {x1} (h : Keeps s u) :
    KeepsR s (execMboxWrite x0 x1 u) := by
  unfold execMboxWrite
  refine (KeepsR.next (keeps_spiPut h (fun _ _ => ?_)))
  rename_i y9 h10
  exact (Keeps.ite2 (fun _ => (Keeps.mk2 h10)) (fun _ => (Keeps.mk2 (keeps_updHost h10))))

theorem keeps_mboxTake {s u : State} {x1} (h : Keeps s u) :
    Keeps s (State.mboxTake u x1).2 := by
  unfold State.mboxTake
  split
  · exact (Keeps.mk2 h)
  · exact (Keeps.mk2 (keeps_updHost h))

theorem keeps_execMboxRead {s u : State} {x0} {x1} (h : Keeps s u) :
    KeepsR s (execMboxRead x0 x1 u) := by
  unfold execMboxRead
  refine (KeepsR.next (keeps_spiFrame h (fun _ _ _ => ?_)))
  rename_i y11 h12
  refine (Keeps.ite (fun _ => ?_) (fun _ => ?_))
  · split
    rename_i y40 h41
    have h42 := Keeps.pair h41 (keeps_fresh h12)
    extract_lets -merge v18
    have h20 : Keeps s v18 := (Keeps.ite (fun _ => (keeps_mboxTake h42)) (fun _ => h42))
    exact (keeps_spiDone h20)
  · split
    rename_i y23 h24
    have h25 := Keeps.pair h24 (keeps_mboxTake h12)
    exact (keeps_spiDone h25)

theorem keeps_execSpiUnknownCommand {s u : State} {x0} (h : Keeps s u) :
    KeepsR s (execSpiUnknownCommand x0 u) := by
  unfold execSpiUnknownCommand
  refine (KeepsR.next (keeps_spiFrame h (fun _ _ _ => ?_)))
  rename_i y9 h10
  exact (keeps_spiDone h10)

theorem keeps_mboxRoute {s u : State} (h : Keeps s u) :
    Keeps s (State.mboxRoute u) := by
  unfold State.mboxRoute
  split
  · exact h
  · extract_lets -merge v29
    have h11 : Keeps s v29 := (keeps_updHost h)
    exact (Keeps.ite (fun _ => (keeps_raise h11)) (fun _ => (keeps_routeBytes h11)))

theorem keeps_canTake {s u : State} {x1} {x2} (h : Keeps s u) :
    Keeps s (State.canTake u x1 x2) := by
  unfold State.canTake
  extract_lets -merge v7 v8 v9 v10 v11 v12 v13
  have h30 : Keeps s v11 := (keeps_setF (keeps_updHost h))
  have h33 : Keeps s v12 := (Keeps.ite (fun _ => (keeps_setB h30)) (fun _ => h30))
  have h15 : Keeps s v13 := (Keeps.ite (fun _ => h33) (fun _ => (keeps_hostEv (keeps_lampReq h33))))
  exact (Keeps.ite (fun _ => (keeps_wakeNote h15)) (fun _ => h15))

theorem keeps_canRecOk {s u : State} {x1} (h : Keeps s u) :
    Keeps s (State.canRecOk u x1) := by
  unfold State.canRecOk
  extract_lets -merge v1
  refine Keeps.ite (fun _ => keeps_setF h) (fun _ => ?_)
  split
  rename_i e5
  have h6 := Keeps.pair e5 (keeps_fresh h)
  exact keeps_setF h6

theorem keeps_execLampReq {s u : State} {x0} {x1} (h : Keeps s u) :
    KeepsR s (execLampReq x0 x1 u) := by
  unfold execLampReq
  refine KeepsR.next ?_
  refine Keeps.ite (fun _ => h) (fun _ => ?_)
  split
  · exact keeps_setF h
  · extract_lets -merge v6
    have h7 : Keeps s v6 := keeps_canRecOk h
    exact Keeps.ite (fun _ => h7) (fun _ => Keeps.ite (fun _ => keeps_canTake h7) (fun _ => keeps_bump h7))

theorem keeps_execCanLost {s u : State} {x0} (h : Keeps s u) :
    KeepsR s (execCanLost x0 u) := by
  unfold execCanLost
  exact (KeepsR.next (Keeps.ite (fun _ => h) (fun _ => (keeps_hostEv (keeps_setF h)))))

theorem keeps_execCanBusOff {s u : State} {x0} (h : Keeps s u) :
    KeepsR s (execCanBusOff x0 u) := by
  unfold execCanBusOff
  exact KeepsR.next (Keeps.ite (fun _ => h) (fun _ => keeps_canBusOff h))

end Sys2Proof.Machine
end

