-- ==== Sys2Proof/Laws/KeepsArch.lean ====
section
/-! SUPPORT. What the operations of Machine/Arch.lean keep (Laws/Keeps.lean). -/

namespace Sys2Proof.Machine

theorem keeps_hlvStaleOp {s u : State} {x1} (h : Keeps s u) :
    Keeps s (State.hlvStaleOp u x1) := by
  unfold State.hlvStaleOp
  extract_lets -merge v5 v6 v7 v8
  have h9 : Keeps s v6 := (keeps_setF h)
  have h11 : Keeps s v8 := (Keeps.ite (fun _ => (Keeps.upd h9)) (fun _ => h9))
  exact (Keeps.ite (fun _ => h) (fun _ => (keeps_post h11)))

theorem keeps_execHlvStale {s u : State} {x0} (h : Keeps s u) :
    KeepsR s (execHlvStale x0 u) := by
  unfold execHlvStale
  exact (KeepsR.next (keeps_hlvStaleOp h))

theorem keeps_setShed {s u : State} {x1} (h : Keeps s u) :
    Keeps s (State.setShed u x1) := by
  unfold State.setShed
  exact (Keeps.ite (fun _ => h) (fun _ => (keeps_hostEv (keeps_setF h))))

theorem keeps_mcWindow {s u : State} {x1} {x2} (h : Keeps s u) :
    Keeps s (State.mcWindow u x1 x2) := by
  unfold State.mcWindow
  extract_lets -merge v1 v2 v3 v4 v5
  have h6 : Keeps s v1 := keeps_setF (keeps_setF h)
  have h7 : Keeps s v5 := Keeps.upd h6
  exact Keeps.ite (fun _ => keeps_setShed h7) (fun _ => Keeps.ite (fun _ => keeps_setShed h7) (fun _ => h7))

theorem keeps_execMcLoadWindow {s u : State} {x0} {x1} (h : Keeps s u) :
    KeepsR s (execMcLoadWindow x0 x1 u) := by
  unfold execMcLoadWindow
  exact (KeepsR.next (Keeps.ite (fun _ => (keeps_mcWindow h)) (fun _ => h)))

theorem keeps_execMcHeartbeat {s u : State} (h : Keeps s u) :
    KeepsR s (execMcHeartbeat u) := by
  unfold execMcHeartbeat
  exact KeepsR.next (keeps_inCore h (fun y1 y2 => keeps_setF (keeps_heard y2)))

theorem keeps_execMcHeartbeatLost {s u : State} (h : Keeps s u) :
    KeepsR s (execMcHeartbeatLost u) := by
  unfold execMcHeartbeatLost
  exact KeepsR.next (Keeps.ite (fun _ => h) (fun _ => keeps_evtTakeover (keeps_sfEv (keeps_setF h))))

theorem keeps_setLead {s u : State} {x1} {x2} (h : Keeps s u) :
    Keeps s (State.setLead u x1 x2) := by
  unfold State.setLead
  exact (keeps_setF h)

theorem keeps_execUrgentEntry {s u : State} {x0} {x1} (h : Keeps s u) :
    KeepsR s (execUrgentEntry x0 x1 u) := by
  unfold execUrgentEntry
  exact (KeepsR.next (Keeps.ite (fun _ => h) (fun _ => (keeps_bump (keeps_setF (keeps_setLead h))))))

theorem keeps_execUrgentExit {s u : State} {x0} {x1} (h : Keeps s u) :
    KeepsR s (execUrgentExit x0 x1 u) := by
  unfold execUrgentExit
  exact (KeepsR.next (Keeps.ite (fun _ => h) (fun _ => (keeps_setF (keeps_setLead h)))))

end Sys2Proof.Machine
end

