-- ==== Sys2Proof/Laws/KeepsTick.lean ====
section
/-! SUPPORT. What the operations of Machine/Tick.lean keep (Laws/Keeps.lean). -/

namespace Sys2Proof.Machine

theorem keeps_tickTime {s u : State} (h : Keeps s u) :
    Keeps s (State.tickTime u) := by
  unfold State.tickTime
  extract_lets -merge v4 v5 v6 v7
  have h12 : Keeps s v4 := (keeps_updTime h)
  have h9 : Keeps s v7 := (keeps_updTime h12)
  exact (Keeps.ite (fun _ => h12) (fun _ => (Keeps.ite (fun _ => h9) (fun _ => (keeps_setResid h9)))))

theorem keeps_tickStep {s u : State} (h : Keeps s u) :
    Keeps s (State.tickStep u) := by
  unfold State.tickStep
  exact (Keeps.ite (fun _ => (keeps_timeStepOp h)) (fun _ => h))

theorem keeps_pulseStep {s u : State} {x1} (h : Keeps s u) :
    Keeps s (State.pulseStep u x1) := by
  unfold State.pulseStep
  extract_lets -merge v1
  exact Keeps.ite (fun _ => h) (fun _ => Keeps.ite (fun _ => keeps_pulseFall h) (fun _ => h))

theorem keeps_laneTick {s u : State} (h : Keeps s u) :
    Keeps s (State.laneTick u) := by
  unfold State.laneTick
  exact Keeps.ite (fun _ => Keeps.foldl h (fun y1 y2 h3 => keeps_laneStep h3)) (fun _ => h)

theorem keeps_tick {s u : State} (h : Keeps s u) :
    Keeps s (State.tick u) := by
  unfold State.tick
  extract_lets -merge v1 v2 v3 v4
  have h5 : Keeps s v1 := keeps_settleCross (keeps_pmicStep (keeps_laneTick (keeps_tickTime h)))
  have h6 : Keeps s v2 := keeps_deltaStep h5
  have h13 : Keeps s v3 := Keeps.foldl (Keeps.foldl (keeps_tickStep (keeps_wakeStep h6)) (fun y10 y11 h12 => keeps_preEnter h12)) (fun y7 y8 h9 => keeps_pulseStep h9)
  have h14 : Keeps s v4 := Keeps.ite (fun _ => keeps_fwServe (keeps_mboxRoute h13)) (fun _ => h13)
  exact Keeps.foldl (keeps_traceStep (keeps_startDone (keeps_pwrTake h14))) (fun y15 y16 h17 => keeps_crcStep h17)

end Sys2Proof.Machine
end

