-- ==== Sys2Proof/Laws/LaneWord.lean ====
section
/-! SUPPORT. The scrambler of the lanes and its descrambler (R215): what one undoes, and that both keep the same history. -/

namespace Sys2Proof.Machine

/-- The line bit `i` places after the oldest of the history `h`, with the payload bits `w` after it. -/
def lineAt (h : BitVec 58) (w i : Nat) : Bool := if i < 58 then h.getLsbD i else w.testBit (i - 58)

theorem histBit_getLsbD (h : BitVec 58) (b : Bool) (j : Nat) (hj : j < 58) :
    (histBit h b).getLsbD j = if j = 57 then b else h.getLsbD (j + 1) := by
  unfold histBit
  simp only [BitVec.getLsbD_or, BitVec.ushiftRight_eq, BitVec.getLsbD_ushiftRight]
  by_cases h57 : j = 57
  · subst h57
    cases b <;> simp
  · have h2 : (BitVec.ofNat 58 (2 ^ 57)).getLsbD j = false := by
      rw [BitVec.getLsbD_ofNat, Nat.testBit_two_pow_of_ne (by omega), Bool.and_false]
    cases b
    · simp [h57, Nat.add_comm 1 j]
    · simp only [if_true, h2, Bool.or_false, h57, if_false, Nat.add_comm 1 j]

theorem testBit_add_two_pow (w k i : Nat) (b : Bool) (hw : w < 2 ^ k) :
    (w + if b then 2 ^ k else 0).testBit i = if i = k then b else w.testBit i := by
  by_cases hi : i = k
  · subst hi
    cases b
    · simpa using Nat.testBit_lt_two_pow hw
    · simp [Nat.add_comm w, Nat.testBit_two_pow_add_eq, Nat.testBit_lt_two_pow hw]
  · cases b
    · simp [hi]
    · simp only [if_true, hi, if_false]
      rcases Nat.lt_or_gt_of_ne hi with h | h
      · rw [Nat.add_comm, Nat.testBit_two_pow_add_gt h]
      · rw [Nat.testBit_lt_two_pow (Nat.lt_of_lt_of_le hw (Nat.pow_le_pow_right (by decide) h.le)),
          Nat.testBit_lt_two_pow]
        calc w + 2 ^ k < 2 ^ (k + 1) := by rw [Nat.pow_succ]; omega
          _ ≤ 2 ^ i := Nat.pow_le_pow_right (by decide) h

/-- What the scrambler has done after `k` bits: each is the payload bit with the line bits 39 and 58 places before it, and the history
holds the last 58 line bits. -/
theorem scrambleUpTo_spec (h : BitVec 58) (p : BitVec 64) (k : Nat) :
    (scrambleUpTo h p k).1 < 2 ^ k ∧
    (∀ i < k, (scrambleUpTo h p k).1.testBit i =
      ((p.getLsbD i != lineAt h (scrambleUpTo h p k).1 (i + 19)) != lineAt h (scrambleUpTo h p k).1 i)) ∧
    ∀ j < 58, (scrambleUpTo h p k).2.getLsbD j = lineAt h (scrambleUpTo h p k).1 (j + k) := by
  induction k with
  | zero => simp +contextual [scrambleUpTo, lineAt]
  | succ k ih =>
    obtain ⟨hw, hb, hh⟩ := ih
    simp only [scrambleUpTo]
    generalize scrambleUpTo h p k = r at hw hb hh ⊢
    obtain ⟨w, g⟩ := r
    simp only at hw hb hh ⊢
    generalize hc : scrambleBit g (p.getLsbD k) = c
    have hbit := fun i => testBit_add_two_pow w k i c hw
    have hline : ∀ i, i < k + 58 → lineAt h (w + if c then 2 ^ k else 0) i = lineAt h w i := by
      intro i hi
      unfold lineAt
      split
      · rfl
      · rw [hbit, if_neg (by omega)]
    refine ⟨?_, ?_, ?_⟩
    · rw [Nat.pow_succ]; split <;> omega
    · intro i hi
      rw [hbit, hline _ (by omega), hline _ (by omega)]
      split
      · rename_i e
        subst e
        rw [← hc, scrambleBit, hh 19 (by decide), hh 0 (by decide), Nat.zero_add, Nat.add_comm 19]
      · exact hb i (by omega)
    · intro j hj
      rw [histBit_getLsbD g c j hj]
      split
      · rename_i e
        subst e
        rw [lineAt, if_neg (by omega), hbit, if_pos (by omega)]
      · rw [hh (j + 1) (by omega), hline _ (by omega)]
        congr 1; omega

/-- The scrambler's history after a word is the word's last 58 line bits. -/
theorem scramble_history (h : BitVec 58) (p : BitVec 64) : (scramble h p).2 = histWord (scramble h p).1 := by
  obtain ⟨hw, -, hh⟩ := scrambleUpTo_spec h p 64
  simp only [scramble]
  apply BitVec.eq_of_getLsbD_eq
  intro j hj
  rw [hh j hj, lineAt, if_neg (by omega)]
  simp only [histWord, BitVec.getLsbD_setWidth, BitVec.ushiftRight_eq, BitVec.getLsbD_ushiftRight, BitVec.getLsbD_ofNat, hj,
    show 6 + j < 64 by omega, show j + 64 - 58 = 6 + j by omega, decide_true, Bool.true_and]

/-- A descrambler in step gives the payload back. -/
theorem descramble_scramble (h : BitVec 58) (p : BitVec 64) : descramble h (scramble h p).1 = p := by
  obtain ⟨hw, hb, -⟩ := scrambleUpTo_spec h p 64
  simp only [scramble, descramble]
  generalize scrambleUpTo h p 64 = r at hw hb
  obtain ⟨w, g⟩ := r
  simp only at hw hb ⊢
  have hline : ∀ i < 122, (BitVec.shiftLeft (BitVec.setWidth 122 (BitVec.ofNat 64 w)) 58 ||| BitVec.setWidth 122 h).getLsbD i
      = lineAt h w i := by
    intro i hi
    rw [lineAt]
    split
    · simp [*]
    · rename_i h58
      have hz : h.getLsbD i = false := BitVec.getLsbD_of_ge h i (by omega)
      simp only [BitVec.shiftLeft_eq, BitVec.getLsbD_or, BitVec.getLsbD_shiftLeft, BitVec.getLsbD_setWidth, BitVec.getLsbD_ofNat, hz, hi, h58,
        show i - 58 < 64 by omega, show i - 58 < 122 by omega, decide_true, decide_false, Bool.not_false, Bool.true_and, Bool.and_false,
        Bool.or_false]
  apply BitVec.eq_of_getLsbD_eq
  intro i hi
  simp only [BitVec.getLsbD_setWidth, BitVec.getLsbD_xor, BitVec.ushiftRight_eq, BitVec.getLsbD_ushiftRight, hi, decide_true, Bool.true_and]
  rw [hline _ (by omega), hline _ (by omega), hline _ (by omega), Nat.add_comm 19]
  rw [show lineAt h w (58 + i) = w.testBit i by rw [lineAt, if_neg (by omega)]; congr 1; omega, hb i hi]
  cases p.getLsbD i <;> cases lineAt h w (i + 19) <;> cases lineAt h w i <;> rfl

end Sys2Proof.Machine
end

