-- ==== Sys2Proof/Laws/Lanes.lean ====
section
/-! SUPPORT. What a row of the back lane does (R216, R217, R237), in terms of what its line bits say. -/

namespace Sys2Proof.Machine

/-- The bits say the row's word: the row acts on its payload. -/
theorem State.backIn_says {n t : Nat} {b : BkBits} {p : BitVec 48} {s u : State} (act : BitVec 48 → State → State)
    (h : BkSays n t b p s u) : s.backIn n t b act = act p u := by
  unfold State.backIn State.inCore
  rw [if_pos h.1]
  beta_reduce
  rw [h.2.1]
  exact if_pos ⟨rfl, h.2.2⟩

/-- The bits end in no control word that is right, in one of another type, or the back lane is down after them: the receiver has taken
them, and nothing else happens. -/
theorem State.backIn_silent (n t : Nat) (b : BkBits) (s : State) (act : BitVec 48 → State → State) (hp : s.boot.porst = true)
    (h : ∀ p, (s.bkTake n b.bits).1 = some (t, p) → (s.bkTake n b.bits).2.isF (fZTL_STATUS_BACK_STALE n) = true) :
    s.backIn n t b act = (s.bkTake n b.bits).2 := by
  unfold State.backIn State.inCore
  rw [if_pos hp]
  beta_reduce
  generalize s.bkTake n b.bits = r at h
  obtain ⟨_ | ⟨ty, p⟩, u⟩ := r
  · rfl
  · refine if_neg fun hc => ?_
    have := h p (by rw [hc.1])
    simp [this] at hc

end Sys2Proof.Machine
end

