-- ==== Sys2Proof/Laws/State.lean ====
section
/-! SUPPORT. The small lemmas of State: what each update leaves in each field, and what a read finds after a write. -/

namespace Sys2Proof.Machine

/-! ### setReg -/

@[simp] theorem State.setReg_pending (s : State) (off : Nat) (v : Word) : (s.setReg off v).pending = s.pending := rfl
@[simp] theorem State.setReg_part (s : State) (off : Nat) (v : Word) : (s.setReg off v).part = s.part := rfl
@[simp] theorem State.setReg_stepping (s : State) (off : Nat) (v : Word) : (s.setReg off v).stepping = s.stepping := rfl
@[simp] theorem State.setReg_regs (s : State) (off : Nat) (v : Word) : (s.setReg off v).regs = tabSet regReset s.regs off v := rfl
@[simp] theorem State.setReg_mem (s : State) (off : Nat) (v : Word) : (s.setReg off v).mem = s.mem := rfl
@[simp] theorem State.setReg_draws (s : State) (off : Nat) (v : Word) : (s.setReg off v).draws = s.draws := rfl
@[simp] theorem State.setReg_time (s : State) (off : Nat) (v : Word) : (s.setReg off v).time = s.time := rfl
@[simp] theorem State.setReg_boot (s : State) (off : Nat) (v : Word) : (s.setReg off v).boot = s.boot := rfl
@[simp] theorem State.setReg_faultN (s : State) (off : Nat) (v : Word) : (s.setReg off v).faultN = s.faultN := rfl
@[simp] theorem State.setReg_otp (s : State) (off : Nat) (v : Word) : (s.setReg off v).otp = s.otp := rfl
@[simp] theorem State.setReg_loader (s : State) (off : Nat) (v : Word) : (s.setReg off v).loader = s.loader := rfl
@[simp] theorem State.setReg_hamper (s : State) (off : Nat) (v : Word) : (s.setReg off v).hamper = s.hamper := rfl
@[simp] theorem State.setReg_spool (s : State) (off : Nat) (v : Word) : (s.setReg off v).spool = s.spool := rfl
@[simp] theorem State.setReg_posted (s : State) (off : Nat) (v : Word) : (s.setReg off v).posted = s.posted := rfl
@[simp] theorem State.setReg_hlv (s : State) (off : Nat) (v : Word) : (s.setReg off v).hlv = s.hlv := rfl
@[simp] theorem State.setReg_mc (s : State) (off : Nat) (v : Word) : (s.setReg off v).mc = s.mc := rfl
@[simp] theorem State.setReg_ecc (s : State) (off : Nat) (v : Word) : (s.setReg off v).ecc = s.ecc := rfl
@[simp] theorem State.setReg_be (s : State) (off : Nat) (v : Word) : (s.setReg off v).be = s.be := rfl
@[simp] theorem State.setReg_progs (s : State) (off : Nat) (v : Word) : (s.setReg off v).progs = s.progs := rfl
@[simp] theorem State.setReg_comp (s : State) (off : Nat) (v : Word) : (s.setReg off v).comp = s.comp := rfl
@[simp] theorem State.setReg_press (s : State) (off : Nat) (v : Word) : (s.setReg off v).press = s.press := rfl
@[simp] theorem State.setReg_tg (s : State) (off : Nat) (v : Word) : (s.setReg off v).tg = s.tg := rfl
@[simp] theorem State.setReg_port (s : State) (off : Nat) (v : Word) : (s.setReg off v).port = s.port := rfl
@[simp] theorem State.setReg_lampTiming (s : State) (off : Nat) (v : Word) : (s.setReg off v).lampTiming = s.lampTiming := rfl
@[simp] theorem State.setReg_record (s : State) (off : Nat) (v : Word) : (s.setReg off v).record = s.record := rfl
@[simp] theorem State.setReg_bank0 (s : State) (off : Nat) (v : Word) : (s.setReg off v).bank0 = s.bank0 := rfl
@[simp] theorem State.setReg_bank1 (s : State) (off : Nat) (v : Word) : (s.setReg off v).bank1 = s.bank1 := rfl
@[simp] theorem State.setReg_health (s : State) (off : Nat) (v : Word) : (s.setReg off v).health = s.health := rfl
@[simp] theorem State.setReg_store (s : State) (off : Nat) (v : Word) : (s.setReg off v).store = s.store := rfl
@[simp] theorem State.setReg_hcfg (s : State) (off : Nat) (v : Word) : (s.setReg off v).hcfg = s.hcfg := rfl
@[simp] theorem State.setReg_agingPaused (s : State) (off : Nat) (v : Word) : (s.setReg off v).agingPaused = s.agingPaused := rfl
@[simp] theorem State.setReg_sel (s : State) (off : Nat) (v : Word) : (s.setReg off v).sel = s.sel := rfl
@[simp] theorem State.setReg_safe (s : State) (off : Nat) (v : Word) : (s.setReg off v).safe = s.safe := rfl
@[simp] theorem State.setReg_safeTile (s : State) (off : Nat) (v : Word) : (s.setReg off v).safeTile = s.safeTile := rfl
@[simp] theorem State.setReg_hk (s : State) (off : Nat) (v : Word) : (s.setReg off v).hk = s.hk := rfl
@[simp] theorem State.setReg_pwr (s : State) (off : Nat) (v : Word) : (s.setReg off v).pwr = s.pwr := rfl
@[simp] theorem State.setReg_host (s : State) (off : Nat) (v : Word) : (s.setReg off v).host = s.host := rfl
@[simp] theorem State.setReg_crc (s : State) (off : Nat) (v : Word) : (s.setReg off v).crc = s.crc := rfl
@[simp] theorem State.setReg_debugPort (s : State) (off : Nat) (v : Word) : (s.setReg off v).debugPort = s.debugPort := rfl
@[simp] theorem State.setReg_wakeDue (s : State) (off : Nat) (v : Word) : (s.setReg off v).wakeDue = s.wakeDue := rfl
@[simp] theorem State.setReg_rdata (s : State) (off : Nat) (v : Word) : (s.setReg off v).rdata = s.rdata := rfl
@[simp] theorem State.setReg_byte (s : State) (off : Nat) (v : Word) (x : Nat) : (s.setReg off v).byte x = s.byte x := rfl

/-! ### setByte -/

@[simp] theorem State.setByte_pending (s : State) (a : Nat) (b : Byte) : (s.setByte a b).pending = s.pending := rfl
@[simp] theorem State.setByte_part (s : State) (a : Nat) (b : Byte) : (s.setByte a b).part = s.part := rfl
@[simp] theorem State.setByte_stepping (s : State) (a : Nat) (b : Byte) : (s.setByte a b).stepping = s.stepping := rfl
@[simp] theorem State.setByte_regs (s : State) (a : Nat) (b : Byte) : (s.setByte a b).regs = s.regs := rfl
@[simp] theorem State.setByte_mem (s : State) (a : Nat) (b : Byte) : (s.setByte a b).mem = tabSet (fun _ => 0#8) s.mem a b := rfl
@[simp] theorem State.setByte_draws (s : State) (a : Nat) (b : Byte) : (s.setByte a b).draws = s.draws := rfl
@[simp] theorem State.setByte_time (s : State) (a : Nat) (b : Byte) : (s.setByte a b).time = s.time := rfl
@[simp] theorem State.setByte_boot (s : State) (a : Nat) (b : Byte) : (s.setByte a b).boot = s.boot := rfl
@[simp] theorem State.setByte_faultN (s : State) (a : Nat) (b : Byte) : (s.setByte a b).faultN = s.faultN := rfl
@[simp] theorem State.setByte_otp (s : State) (a : Nat) (b : Byte) : (s.setByte a b).otp = s.otp := rfl
@[simp] theorem State.setByte_loader (s : State) (a : Nat) (b : Byte) : (s.setByte a b).loader = s.loader := rfl
@[simp] theorem State.setByte_hamper (s : State) (a : Nat) (b : Byte) : (s.setByte a b).hamper = s.hamper := rfl
@[simp] theorem State.setByte_spool (s : State) (a : Nat) (b : Byte) : (s.setByte a b).spool = s.spool := rfl
@[simp] theorem State.setByte_posted (s : State) (a : Nat) (b : Byte) : (s.setByte a b).posted = s.posted := rfl
@[simp] theorem State.setByte_hlv (s : State) (a : Nat) (b : Byte) : (s.setByte a b).hlv = s.hlv := rfl
@[simp] theorem State.setByte_mc (s : State) (a : Nat) (b : Byte) : (s.setByte a b).mc = s.mc := rfl
@[simp] theorem State.setByte_ecc (s : State) (a : Nat) (b : Byte) : (s.setByte a b).ecc = s.ecc := rfl
@[simp] theorem State.setByte_be (s : State) (a : Nat) (b : Byte) : (s.setByte a b).be = s.be := rfl
@[simp] theorem State.setByte_progs (s : State) (a : Nat) (b : Byte) : (s.setByte a b).progs = s.progs := rfl
@[simp] theorem State.setByte_comp (s : State) (a : Nat) (b : Byte) : (s.setByte a b).comp = s.comp := rfl
@[simp] theorem State.setByte_press (s : State) (a : Nat) (b : Byte) : (s.setByte a b).press = s.press := rfl
@[simp] theorem State.setByte_tg (s : State) (a : Nat) (b : Byte) : (s.setByte a b).tg = s.tg := rfl
@[simp] theorem State.setByte_port (s : State) (a : Nat) (b : Byte) : (s.setByte a b).port = s.port := rfl
@[simp] theorem State.setByte_lampTiming (s : State) (a : Nat) (b : Byte) : (s.setByte a b).lampTiming = s.lampTiming := rfl
@[simp] theorem State.setByte_record (s : State) (a : Nat) (b : Byte) : (s.setByte a b).record = s.record := rfl
@[simp] theorem State.setByte_bank0 (s : State) (a : Nat) (b : Byte) : (s.setByte a b).bank0 = s.bank0 := rfl
@[simp] theorem State.setByte_bank1 (s : State) (a : Nat) (b : Byte) : (s.setByte a b).bank1 = s.bank1 := rfl
@[simp] theorem State.setByte_health (s : State) (a : Nat) (b : Byte) : (s.setByte a b).health = s.health := rfl
@[simp] theorem State.setByte_store (s : State) (a : Nat) (b : Byte) : (s.setByte a b).store = s.store := rfl
@[simp] theorem State.setByte_hcfg (s : State) (a : Nat) (b : Byte) : (s.setByte a b).hcfg = s.hcfg := rfl
@[simp] theorem State.setByte_agingPaused (s : State) (a : Nat) (b : Byte) : (s.setByte a b).agingPaused = s.agingPaused := rfl
@[simp] theorem State.setByte_sel (s : State) (a : Nat) (b : Byte) : (s.setByte a b).sel = s.sel := rfl
@[simp] theorem State.setByte_safe (s : State) (a : Nat) (b : Byte) : (s.setByte a b).safe = s.safe := rfl
@[simp] theorem State.setByte_safeTile (s : State) (a : Nat) (b : Byte) : (s.setByte a b).safeTile = s.safeTile := rfl
@[simp] theorem State.setByte_hk (s : State) (a : Nat) (b : Byte) : (s.setByte a b).hk = s.hk := rfl
@[simp] theorem State.setByte_pwr (s : State) (a : Nat) (b : Byte) : (s.setByte a b).pwr = s.pwr := rfl
@[simp] theorem State.setByte_host (s : State) (a : Nat) (b : Byte) : (s.setByte a b).host = s.host := rfl
@[simp] theorem State.setByte_crc (s : State) (a : Nat) (b : Byte) : (s.setByte a b).crc = s.crc := rfl
@[simp] theorem State.setByte_debugPort (s : State) (a : Nat) (b : Byte) : (s.setByte a b).debugPort = s.debugPort := rfl
@[simp] theorem State.setByte_wakeDue (s : State) (a : Nat) (b : Byte) : (s.setByte a b).wakeDue = s.wakeDue := rfl
@[simp] theorem State.setByte_rdata (s : State) (a : Nat) (b : Byte) : (s.setByte a b).rdata = s.rdata := rfl
@[simp] theorem State.setByte_reg (s : State) (a : Nat) (b : Byte) (o : Nat) : (s.setByte a b).reg o = s.reg o := rfl
@[simp] theorem State.setByte_regN (s : State) (a : Nat) (b : Byte) (o : Nat) : (s.setByte a b).regN o = s.regN o := rfl
@[simp] theorem State.setByte_getF (s : State) (a : Nat) (b : Byte) (fd : Fld) : (s.setByte a b).getF fd = s.getF fd := rfl
@[simp] theorem State.setByte_isF (s : State) (a : Nat) (b : Byte) (fd : Fld) : (s.setByte a b).isF fd = s.isF fd := rfl

/-! ### setBytes -/

@[simp] theorem State.setBytes_pending (s : State) (a : Nat) (bs : List Byte) : (s.setBytes a bs).pending = s.pending := rfl
@[simp] theorem State.setBytes_part (s : State) (a : Nat) (bs : List Byte) : (s.setBytes a bs).part = s.part := rfl
@[simp] theorem State.setBytes_stepping (s : State) (a : Nat) (bs : List Byte) : (s.setBytes a bs).stepping = s.stepping := rfl
@[simp] theorem State.setBytes_regs (s : State) (a : Nat) (bs : List Byte) : (s.setBytes a bs).regs = s.regs := rfl
@[simp] theorem State.setBytes_mem (s : State) (a : Nat) (bs : List Byte) : (s.setBytes a bs).mem = tabPutAll (fun _ => 0#8) s.mem a bs := rfl
@[simp] theorem State.setBytes_draws (s : State) (a : Nat) (bs : List Byte) : (s.setBytes a bs).draws = s.draws := rfl
@[simp] theorem State.setBytes_time (s : State) (a : Nat) (bs : List Byte) : (s.setBytes a bs).time = s.time := rfl
@[simp] theorem State.setBytes_boot (s : State) (a : Nat) (bs : List Byte) : (s.setBytes a bs).boot = s.boot := rfl
@[simp] theorem State.setBytes_faultN (s : State) (a : Nat) (bs : List Byte) : (s.setBytes a bs).faultN = s.faultN := rfl
@[simp] theorem State.setBytes_otp (s : State) (a : Nat) (bs : List Byte) : (s.setBytes a bs).otp = s.otp := rfl
@[simp] theorem State.setBytes_loader (s : State) (a : Nat) (bs : List Byte) : (s.setBytes a bs).loader = s.loader := rfl
@[simp] theorem State.setBytes_hamper (s : State) (a : Nat) (bs : List Byte) : (s.setBytes a bs).hamper = s.hamper := rfl
@[simp] theorem State.setBytes_spool (s : State) (a : Nat) (bs : List Byte) : (s.setBytes a bs).spool = s.spool := rfl
@[simp] theorem State.setBytes_posted (s : State) (a : Nat) (bs : List Byte) : (s.setBytes a bs).posted = s.posted := rfl
@[simp] theorem State.setBytes_hlv (s : State) (a : Nat) (bs : List Byte) : (s.setBytes a bs).hlv = s.hlv := rfl
@[simp] theorem State.setBytes_mc (s : State) (a : Nat) (bs : List Byte) : (s.setBytes a bs).mc = s.mc := rfl
@[simp] theorem State.setBytes_ecc (s : State) (a : Nat) (bs : List Byte) : (s.setBytes a bs).ecc = s.ecc := rfl
@[simp] theorem State.setBytes_be (s : State) (a : Nat) (bs : List Byte) : (s.setBytes a bs).be = s.be := rfl
@[simp] theorem State.setBytes_progs (s : State) (a : Nat) (bs : List Byte) : (s.setBytes a bs).progs = s.progs := rfl
@[simp] theorem State.setBytes_comp (s : State) (a : Nat) (bs : List Byte) : (s.setBytes a bs).comp = s.comp := rfl
@[simp] theorem State.setBytes_press (s : State) (a : Nat) (bs : List Byte) : (s.setBytes a bs).press = s.press := rfl
@[simp] theorem State.setBytes_tg (s : State) (a : Nat) (bs : List Byte) : (s.setBytes a bs).tg = s.tg := rfl
@[simp] theorem State.setBytes_port (s : State) (a : Nat) (bs : List Byte) : (s.setBytes a bs).port = s.port := rfl
@[simp] theorem State.setBytes_lampTiming (s : State) (a : Nat) (bs : List Byte) : (s.setBytes a bs).lampTiming = s.lampTiming := rfl
@[simp] theorem State.setBytes_record (s : State) (a : Nat) (bs : List Byte) : (s.setBytes a bs).record = s.record := rfl
@[simp] theorem State.setBytes_bank0 (s : State) (a : Nat) (bs : List Byte) : (s.setBytes a bs).bank0 = s.bank0 := rfl
@[simp] theorem State.setBytes_bank1 (s : State) (a : Nat) (bs : List Byte) : (s.setBytes a bs).bank1 = s.bank1 := rfl
@[simp] theorem State.setBytes_health (s : State) (a : Nat) (bs : List Byte) : (s.setBytes a bs).health = s.health := rfl
@[simp] theorem State.setBytes_store (s : State) (a : Nat) (bs : List Byte) : (s.setBytes a bs).store = s.store := rfl
@[simp] theorem State.setBytes_hcfg (s : State) (a : Nat) (bs : List Byte) : (s.setBytes a bs).hcfg = s.hcfg := rfl
@[simp] theorem State.setBytes_agingPaused (s : State) (a : Nat) (bs : List Byte) : (s.setBytes a bs).agingPaused = s.agingPaused := rfl
@[simp] theorem State.setBytes_sel (s : State) (a : Nat) (bs : List Byte) : (s.setBytes a bs).sel = s.sel := rfl
@[simp] theorem State.setBytes_safe (s : State) (a : Nat) (bs : List Byte) : (s.setBytes a bs).safe = s.safe := rfl
@[simp] theorem State.setBytes_safeTile (s : State) (a : Nat) (bs : List Byte) : (s.setBytes a bs).safeTile = s.safeTile := rfl
@[simp] theorem State.setBytes_hk (s : State) (a : Nat) (bs : List Byte) : (s.setBytes a bs).hk = s.hk := rfl
@[simp] theorem State.setBytes_pwr (s : State) (a : Nat) (bs : List Byte) : (s.setBytes a bs).pwr = s.pwr := rfl
@[simp] theorem State.setBytes_host (s : State) (a : Nat) (bs : List Byte) : (s.setBytes a bs).host = s.host := rfl
@[simp] theorem State.setBytes_crc (s : State) (a : Nat) (bs : List Byte) : (s.setBytes a bs).crc = s.crc := rfl
@[simp] theorem State.setBytes_debugPort (s : State) (a : Nat) (bs : List Byte) : (s.setBytes a bs).debugPort = s.debugPort := rfl
@[simp] theorem State.setBytes_wakeDue (s : State) (a : Nat) (bs : List Byte) : (s.setBytes a bs).wakeDue = s.wakeDue := rfl
@[simp] theorem State.setBytes_rdata (s : State) (a : Nat) (bs : List Byte) : (s.setBytes a bs).rdata = s.rdata := rfl
@[simp] theorem State.setBytes_reg (s : State) (a : Nat) (bs : List Byte) (o : Nat) : (s.setBytes a bs).reg o = s.reg o := rfl
@[simp] theorem State.setBytes_regN (s : State) (a : Nat) (bs : List Byte) (o : Nat) : (s.setBytes a bs).regN o = s.regN o := rfl
@[simp] theorem State.setBytes_getF (s : State) (a : Nat) (bs : List Byte) (fd : Fld) : (s.setBytes a bs).getF fd = s.getF fd := rfl
@[simp] theorem State.setBytes_isF (s : State) (a : Nat) (bs : List Byte) (fd : Fld) : (s.setBytes a bs).isF fd = s.isF fd := rfl

/-! ### setEng -/

@[simp] theorem State.setEng_pending (s : State) (n : Nat) (e : Engine) : (s.setEng n e).pending = s.pending := rfl
@[simp] theorem State.setEng_part (s : State) (n : Nat) (e : Engine) : (s.setEng n e).part = s.part := rfl
@[simp] theorem State.setEng_stepping (s : State) (n : Nat) (e : Engine) : (s.setEng n e).stepping = s.stepping := rfl
@[simp] theorem State.setEng_regs (s : State) (n : Nat) (e : Engine) : (s.setEng n e).regs = s.regs := rfl
@[simp] theorem State.setEng_mem (s : State) (n : Nat) (e : Engine) : (s.setEng n e).mem = s.mem := rfl
@[simp] theorem State.setEng_draws (s : State) (n : Nat) (e : Engine) : (s.setEng n e).draws = s.draws := rfl
@[simp] theorem State.setEng_time (s : State) (n : Nat) (e : Engine) : (s.setEng n e).time = s.time := rfl
@[simp] theorem State.setEng_boot (s : State) (n : Nat) (e : Engine) : (s.setEng n e).boot = s.boot := rfl
@[simp] theorem State.setEng_faultN (s : State) (n : Nat) (e : Engine) : (s.setEng n e).faultN = s.faultN := rfl
@[simp] theorem State.setEng_otp (s : State) (n : Nat) (e : Engine) : (s.setEng n e).otp = s.otp := rfl
@[simp] theorem State.setEng_loader (s : State) (n : Nat) (e : Engine) : (s.setEng n e).loader = s.loader := rfl
@[simp] theorem State.setEng_hamper (s : State) (n : Nat) (e : Engine) : (s.setEng n e).hamper = s.hamper := rfl
@[simp] theorem State.setEng_spool (s : State) (n : Nat) (e : Engine) : (s.setEng n e).spool = s.spool := rfl
@[simp] theorem State.setEng_posted (s : State) (n : Nat) (e : Engine) : (s.setEng n e).posted = s.posted := rfl
@[simp] theorem State.setEng_hlv (s : State) (n : Nat) (e : Engine) : (s.setEng n e).hlv = s.hlv := rfl
@[simp] theorem State.setEng_mc (s : State) (n : Nat) (e : Engine) : (s.setEng n e).mc = s.mc := rfl
@[simp] theorem State.setEng_ecc (s : State) (n : Nat) (e : Engine) : (s.setEng n e).ecc = s.ecc := rfl
@[simp] theorem State.setEng_be (s : State) (n : Nat) (e : Engine) : (s.setEng n e).be = tabSet (fun _ => {}) s.be n e := rfl
@[simp] theorem State.setEng_progs (s : State) (n : Nat) (e : Engine) : (s.setEng n e).progs = s.progs := rfl
@[simp] theorem State.setEng_comp (s : State) (n : Nat) (e : Engine) : (s.setEng n e).comp = s.comp := rfl
@[simp] theorem State.setEng_press (s : State) (n : Nat) (e : Engine) : (s.setEng n e).press = s.press := rfl
@[simp] theorem State.setEng_tg (s : State) (n : Nat) (e : Engine) : (s.setEng n e).tg = s.tg := rfl
@[simp] theorem State.setEng_port (s : State) (n : Nat) (e : Engine) : (s.setEng n e).port = s.port := rfl
@[simp] theorem State.setEng_lampTiming (s : State) (n : Nat) (e : Engine) : (s.setEng n e).lampTiming = s.lampTiming := rfl
@[simp] theorem State.setEng_record (s : State) (n : Nat) (e : Engine) : (s.setEng n e).record = s.record := rfl
@[simp] theorem State.setEng_bank0 (s : State) (n : Nat) (e : Engine) : (s.setEng n e).bank0 = s.bank0 := rfl
@[simp] theorem State.setEng_bank1 (s : State) (n : Nat) (e : Engine) : (s.setEng n e).bank1 = s.bank1 := rfl
@[simp] theorem State.setEng_health (s : State) (n : Nat) (e : Engine) : (s.setEng n e).health = s.health := rfl
@[simp] theorem State.setEng_store (s : State) (n : Nat) (e : Engine) : (s.setEng n e).store = s.store := rfl
@[simp] theorem State.setEng_hcfg (s : State) (n : Nat) (e : Engine) : (s.setEng n e).hcfg = s.hcfg := rfl
@[simp] theorem State.setEng_agingPaused (s : State) (n : Nat) (e : Engine) : (s.setEng n e).agingPaused = s.agingPaused := rfl
@[simp] theorem State.setEng_sel (s : State) (n : Nat) (e : Engine) : (s.setEng n e).sel = s.sel := rfl
@[simp] theorem State.setEng_safe (s : State) (n : Nat) (e : Engine) : (s.setEng n e).safe = s.safe := rfl
@[simp] theorem State.setEng_safeTile (s : State) (n : Nat) (e : Engine) : (s.setEng n e).safeTile = s.safeTile := rfl
@[simp] theorem State.setEng_hk (s : State) (n : Nat) (e : Engine) : (s.setEng n e).hk = s.hk := rfl
@[simp] theorem State.setEng_pwr (s : State) (n : Nat) (e : Engine) : (s.setEng n e).pwr = s.pwr := rfl
@[simp] theorem State.setEng_host (s : State) (n : Nat) (e : Engine) : (s.setEng n e).host = s.host := rfl
@[simp] theorem State.setEng_crc (s : State) (n : Nat) (e : Engine) : (s.setEng n e).crc = s.crc := rfl
@[simp] theorem State.setEng_debugPort (s : State) (n : Nat) (e : Engine) : (s.setEng n e).debugPort = s.debugPort := rfl
@[simp] theorem State.setEng_wakeDue (s : State) (n : Nat) (e : Engine) : (s.setEng n e).wakeDue = s.wakeDue := rfl
@[simp] theorem State.setEng_rdata (s : State) (n : Nat) (e : Engine) : (s.setEng n e).rdata = s.rdata := rfl
@[simp] theorem State.setEng_reg (s : State) (n : Nat) (e : Engine) (o : Nat) : (s.setEng n e).reg o = s.reg o := rfl
@[simp] theorem State.setEng_regN (s : State) (n : Nat) (e : Engine) (o : Nat) : (s.setEng n e).regN o = s.regN o := rfl
@[simp] theorem State.setEng_getF (s : State) (n : Nat) (e : Engine) (fd : Fld) : (s.setEng n e).getF fd = s.getF fd := rfl
@[simp] theorem State.setEng_isF (s : State) (n : Nat) (e : Engine) (fd : Fld) : (s.setEng n e).isF fd = s.isF fd := rfl
@[simp] theorem State.setEng_byte (s : State) (n : Nat) (e : Engine) (x : Nat) : (s.setEng n e).byte x = s.byte x := rfl

/-! ### setTg -/

@[simp] theorem State.setTg_pending (s : State) (n : Nat) (g : Tg) : (s.setTg n g).pending = s.pending := rfl
@[simp] theorem State.setTg_part (s : State) (n : Nat) (g : Tg) : (s.setTg n g).part = s.part := rfl
@[simp] theorem State.setTg_stepping (s : State) (n : Nat) (g : Tg) : (s.setTg n g).stepping = s.stepping := rfl
@[simp] theorem State.setTg_regs (s : State) (n : Nat) (g : Tg) : (s.setTg n g).regs = s.regs := rfl
@[simp] theorem State.setTg_mem (s : State) (n : Nat) (g : Tg) : (s.setTg n g).mem = s.mem := rfl
@[simp] theorem State.setTg_draws (s : State) (n : Nat) (g : Tg) : (s.setTg n g).draws = s.draws := rfl
@[simp] theorem State.setTg_time (s : State) (n : Nat) (g : Tg) : (s.setTg n g).time = s.time := rfl
@[simp] theorem State.setTg_boot (s : State) (n : Nat) (g : Tg) : (s.setTg n g).boot = s.boot := rfl
@[simp] theorem State.setTg_faultN (s : State) (n : Nat) (g : Tg) : (s.setTg n g).faultN = s.faultN := rfl
@[simp] theorem State.setTg_otp (s : State) (n : Nat) (g : Tg) : (s.setTg n g).otp = s.otp := rfl
@[simp] theorem State.setTg_loader (s : State) (n : Nat) (g : Tg) : (s.setTg n g).loader = s.loader := rfl
@[simp] theorem State.setTg_hamper (s : State) (n : Nat) (g : Tg) : (s.setTg n g).hamper = s.hamper := rfl
@[simp] theorem State.setTg_spool (s : State) (n : Nat) (g : Tg) : (s.setTg n g).spool = s.spool := rfl
@[simp] theorem State.setTg_posted (s : State) (n : Nat) (g : Tg) : (s.setTg n g).posted = s.posted := rfl
@[simp] theorem State.setTg_hlv (s : State) (n : Nat) (g : Tg) : (s.setTg n g).hlv = s.hlv := rfl
@[simp] theorem State.setTg_mc (s : State) (n : Nat) (g : Tg) : (s.setTg n g).mc = s.mc := rfl
@[simp] theorem State.setTg_ecc (s : State) (n : Nat) (g : Tg) : (s.setTg n g).ecc = s.ecc := rfl
@[simp] theorem State.setTg_be (s : State) (n : Nat) (g : Tg) : (s.setTg n g).be = s.be := rfl
@[simp] theorem State.setTg_progs (s : State) (n : Nat) (g : Tg) : (s.setTg n g).progs = s.progs := rfl
@[simp] theorem State.setTg_comp (s : State) (n : Nat) (g : Tg) : (s.setTg n g).comp = s.comp := rfl
@[simp] theorem State.setTg_press (s : State) (n : Nat) (g : Tg) : (s.setTg n g).press = s.press := rfl
@[simp] theorem State.setTg_tg (s : State) (n : Nat) (g : Tg) : (s.setTg n g).tg = tabSet (fun _ => {}) s.tg n g := rfl
@[simp] theorem State.setTg_port (s : State) (n : Nat) (g : Tg) : (s.setTg n g).port = s.port := rfl
@[simp] theorem State.setTg_lampTiming (s : State) (n : Nat) (g : Tg) : (s.setTg n g).lampTiming = s.lampTiming := rfl
@[simp] theorem State.setTg_record (s : State) (n : Nat) (g : Tg) : (s.setTg n g).record = s.record := rfl
@[simp] theorem State.setTg_bank0 (s : State) (n : Nat) (g : Tg) : (s.setTg n g).bank0 = s.bank0 := rfl
@[simp] theorem State.setTg_bank1 (s : State) (n : Nat) (g : Tg) : (s.setTg n g).bank1 = s.bank1 := rfl
@[simp] theorem State.setTg_health (s : State) (n : Nat) (g : Tg) : (s.setTg n g).health = s.health := rfl
@[simp] theorem State.setTg_store (s : State) (n : Nat) (g : Tg) : (s.setTg n g).store = s.store := rfl
@[simp] theorem State.setTg_hcfg (s : State) (n : Nat) (g : Tg) : (s.setTg n g).hcfg = s.hcfg := rfl
@[simp] theorem State.setTg_agingPaused (s : State) (n : Nat) (g : Tg) : (s.setTg n g).agingPaused = s.agingPaused := rfl
@[simp] theorem State.setTg_sel (s : State) (n : Nat) (g : Tg) : (s.setTg n g).sel = s.sel := rfl
@[simp] theorem State.setTg_safe (s : State) (n : Nat) (g : Tg) : (s.setTg n g).safe = s.safe := rfl
@[simp] theorem State.setTg_safeTile (s : State) (n : Nat) (g : Tg) : (s.setTg n g).safeTile = s.safeTile := rfl
@[simp] theorem State.setTg_hk (s : State) (n : Nat) (g : Tg) : (s.setTg n g).hk = s.hk := rfl
@[simp] theorem State.setTg_pwr (s : State) (n : Nat) (g : Tg) : (s.setTg n g).pwr = s.pwr := rfl
@[simp] theorem State.setTg_host (s : State) (n : Nat) (g : Tg) : (s.setTg n g).host = s.host := rfl
@[simp] theorem State.setTg_crc (s : State) (n : Nat) (g : Tg) : (s.setTg n g).crc = s.crc := rfl
@[simp] theorem State.setTg_debugPort (s : State) (n : Nat) (g : Tg) : (s.setTg n g).debugPort = s.debugPort := rfl
@[simp] theorem State.setTg_wakeDue (s : State) (n : Nat) (g : Tg) : (s.setTg n g).wakeDue = s.wakeDue := rfl
@[simp] theorem State.setTg_rdata (s : State) (n : Nat) (g : Tg) : (s.setTg n g).rdata = s.rdata := rfl
@[simp] theorem State.setTg_reg (s : State) (n : Nat) (g : Tg) (o : Nat) : (s.setTg n g).reg o = s.reg o := rfl
@[simp] theorem State.setTg_regN (s : State) (n : Nat) (g : Tg) (o : Nat) : (s.setTg n g).regN o = s.regN o := rfl
@[simp] theorem State.setTg_getF (s : State) (n : Nat) (g : Tg) (fd : Fld) : (s.setTg n g).getF fd = s.getF fd := rfl
@[simp] theorem State.setTg_isF (s : State) (n : Nat) (g : Tg) (fd : Fld) : (s.setTg n g).isF fd = s.isF fd := rfl
@[simp] theorem State.setTg_byte (s : State) (n : Nat) (g : Tg) (x : Nat) : (s.setTg n g).byte x = s.byte x := rfl

/-! ### setPort -/

@[simp] theorem State.setPort_pending (s : State) (n : Nat) (p : Port) : (s.setPort n p).pending = s.pending := rfl
@[simp] theorem State.setPort_part (s : State) (n : Nat) (p : Port) : (s.setPort n p).part = s.part := rfl
@[simp] theorem State.setPort_stepping (s : State) (n : Nat) (p : Port) : (s.setPort n p).stepping = s.stepping := rfl
@[simp] theorem State.setPort_regs (s : State) (n : Nat) (p : Port) : (s.setPort n p).regs = s.regs := rfl
@[simp] theorem State.setPort_mem (s : State) (n : Nat) (p : Port) : (s.setPort n p).mem = s.mem := rfl
@[simp] theorem State.setPort_draws (s : State) (n : Nat) (p : Port) : (s.setPort n p).draws = s.draws := rfl
@[simp] theorem State.setPort_time (s : State) (n : Nat) (p : Port) : (s.setPort n p).time = s.time := rfl
@[simp] theorem State.setPort_boot (s : State) (n : Nat) (p : Port) : (s.setPort n p).boot = s.boot := rfl
@[simp] theorem State.setPort_faultN (s : State) (n : Nat) (p : Port) : (s.setPort n p).faultN = s.faultN := rfl
@[simp] theorem State.setPort_otp (s : State) (n : Nat) (p : Port) : (s.setPort n p).otp = s.otp := rfl
@[simp] theorem State.setPort_loader (s : State) (n : Nat) (p : Port) : (s.setPort n p).loader = s.loader := rfl
@[simp] theorem State.setPort_hamper (s : State) (n : Nat) (p : Port) : (s.setPort n p).hamper = s.hamper := rfl
@[simp] theorem State.setPort_spool (s : State) (n : Nat) (p : Port) : (s.setPort n p).spool = s.spool := rfl
@[simp] theorem State.setPort_posted (s : State) (n : Nat) (p : Port) : (s.setPort n p).posted = s.posted := rfl
@[simp] theorem State.setPort_hlv (s : State) (n : Nat) (p : Port) : (s.setPort n p).hlv = s.hlv := rfl
@[simp] theorem State.setPort_mc (s : State) (n : Nat) (p : Port) : (s.setPort n p).mc = s.mc := rfl
@[simp] theorem State.setPort_ecc (s : State) (n : Nat) (p : Port) : (s.setPort n p).ecc = s.ecc := rfl
@[simp] theorem State.setPort_be (s : State) (n : Nat) (p : Port) : (s.setPort n p).be = s.be := rfl
@[simp] theorem State.setPort_progs (s : State) (n : Nat) (p : Port) : (s.setPort n p).progs = s.progs := rfl
@[simp] theorem State.setPort_comp (s : State) (n : Nat) (p : Port) : (s.setPort n p).comp = s.comp := rfl
@[simp] theorem State.setPort_press (s : State) (n : Nat) (p : Port) : (s.setPort n p).press = s.press := rfl
@[simp] theorem State.setPort_tg (s : State) (n : Nat) (p : Port) : (s.setPort n p).tg = s.tg := rfl
@[simp] theorem State.setPort_port (s : State) (n : Nat) (p : Port) : (s.setPort n p).port = tabSet (fun _ => {}) s.port n p := rfl
@[simp] theorem State.setPort_lampTiming (s : State) (n : Nat) (p : Port) : (s.setPort n p).lampTiming = s.lampTiming := rfl
@[simp] theorem State.setPort_record (s : State) (n : Nat) (p : Port) : (s.setPort n p).record = s.record := rfl
@[simp] theorem State.setPort_bank0 (s : State) (n : Nat) (p : Port) : (s.setPort n p).bank0 = s.bank0 := rfl
@[simp] theorem State.setPort_bank1 (s : State) (n : Nat) (p : Port) : (s.setPort n p).bank1 = s.bank1 := rfl
@[simp] theorem State.setPort_health (s : State) (n : Nat) (p : Port) : (s.setPort n p).health = s.health := rfl
@[simp] theorem State.setPort_store (s : State) (n : Nat) (p : Port) : (s.setPort n p).store = s.store := rfl
@[simp] theorem State.setPort_hcfg (s : State) (n : Nat) (p : Port) : (s.setPort n p).hcfg = s.hcfg := rfl
@[simp] theorem State.setPort_agingPaused (s : State) (n : Nat) (p : Port) : (s.setPort n p).agingPaused = s.agingPaused := rfl
@[simp] theorem State.setPort_sel (s : State) (n : Nat) (p : Port) : (s.setPort n p).sel = s.sel := rfl
@[simp] theorem State.setPort_safe (s : State) (n : Nat) (p : Port) : (s.setPort n p).safe = s.safe := rfl
@[simp] theorem State.setPort_safeTile (s : State) (n : Nat) (p : Port) : (s.setPort n p).safeTile = s.safeTile := rfl
@[simp] theorem State.setPort_hk (s : State) (n : Nat) (p : Port) : (s.setPort n p).hk = s.hk := rfl
@[simp] theorem State.setPort_pwr (s : State) (n : Nat) (p : Port) : (s.setPort n p).pwr = s.pwr := rfl
@[simp] theorem State.setPort_host (s : State) (n : Nat) (p : Port) : (s.setPort n p).host = s.host := rfl
@[simp] theorem State.setPort_crc (s : State) (n : Nat) (p : Port) : (s.setPort n p).crc = s.crc := rfl
@[simp] theorem State.setPort_debugPort (s : State) (n : Nat) (p : Port) : (s.setPort n p).debugPort = s.debugPort := rfl
@[simp] theorem State.setPort_wakeDue (s : State) (n : Nat) (p : Port) : (s.setPort n p).wakeDue = s.wakeDue := rfl
@[simp] theorem State.setPort_rdata (s : State) (n : Nat) (p : Port) : (s.setPort n p).rdata = s.rdata := rfl
@[simp] theorem State.setPort_reg (s : State) (n : Nat) (p : Port) (o : Nat) : (s.setPort n p).reg o = s.reg o := rfl
@[simp] theorem State.setPort_regN (s : State) (n : Nat) (p : Port) (o : Nat) : (s.setPort n p).regN o = s.regN o := rfl
@[simp] theorem State.setPort_getF (s : State) (n : Nat) (p : Port) (fd : Fld) : (s.setPort n p).getF fd = s.getF fd := rfl
@[simp] theorem State.setPort_isF (s : State) (n : Nat) (p : Port) (fd : Fld) : (s.setPort n p).isF fd = s.isF fd := rfl
@[simp] theorem State.setPort_byte (s : State) (n : Nat) (p : Port) (x : Nat) : (s.setPort n p).byte x = s.byte x := rfl

/-! ### setHl -/

@[simp] theorem State.setHl_pending (s : State) (n : Nat) (h : HealthT) : (s.setHl n h).pending = s.pending := rfl
@[simp] theorem State.setHl_part (s : State) (n : Nat) (h : HealthT) : (s.setHl n h).part = s.part := rfl
@[simp] theorem State.setHl_stepping (s : State) (n : Nat) (h : HealthT) : (s.setHl n h).stepping = s.stepping := rfl
@[simp] theorem State.setHl_regs (s : State) (n : Nat) (h : HealthT) : (s.setHl n h).regs = s.regs := rfl
@[simp] theorem State.setHl_mem (s : State) (n : Nat) (h : HealthT) : (s.setHl n h).mem = s.mem := rfl
@[simp] theorem State.setHl_draws (s : State) (n : Nat) (h : HealthT) : (s.setHl n h).draws = s.draws := rfl
@[simp] theorem State.setHl_time (s : State) (n : Nat) (h : HealthT) : (s.setHl n h).time = s.time := rfl
@[simp] theorem State.setHl_boot (s : State) (n : Nat) (h : HealthT) : (s.setHl n h).boot = s.boot := rfl
@[simp] theorem State.setHl_faultN (s : State) (n : Nat) (h : HealthT) : (s.setHl n h).faultN = s.faultN := rfl
@[simp] theorem State.setHl_otp (s : State) (n : Nat) (h : HealthT) : (s.setHl n h).otp = s.otp := rfl
@[simp] theorem State.setHl_loader (s : State) (n : Nat) (h : HealthT) : (s.setHl n h).loader = s.loader := rfl
@[simp] theorem State.setHl_hamper (s : State) (n : Nat) (h : HealthT) : (s.setHl n h).hamper = s.hamper := rfl
@[simp] theorem State.setHl_spool (s : State) (n : Nat) (h : HealthT) : (s.setHl n h).spool = s.spool := rfl
@[simp] theorem State.setHl_posted (s : State) (n : Nat) (h : HealthT) : (s.setHl n h).posted = s.posted := rfl
@[simp] theorem State.setHl_hlv (s : State) (n : Nat) (h : HealthT) : (s.setHl n h).hlv = s.hlv := rfl
@[simp] theorem State.setHl_mc (s : State) (n : Nat) (h : HealthT) : (s.setHl n h).mc = s.mc := rfl
@[simp] theorem State.setHl_ecc (s : State) (n : Nat) (h : HealthT) : (s.setHl n h).ecc = s.ecc := rfl
@[simp] theorem State.setHl_be (s : State) (n : Nat) (h : HealthT) : (s.setHl n h).be = s.be := rfl
@[simp] theorem State.setHl_progs (s : State) (n : Nat) (h : HealthT) : (s.setHl n h).progs = s.progs := rfl
@[simp] theorem State.setHl_comp (s : State) (n : Nat) (h : HealthT) : (s.setHl n h).comp = s.comp := rfl
@[simp] theorem State.setHl_press (s : State) (n : Nat) (h : HealthT) : (s.setHl n h).press = s.press := rfl
@[simp] theorem State.setHl_tg (s : State) (n : Nat) (h : HealthT) : (s.setHl n h).tg = s.tg := rfl
@[simp] theorem State.setHl_port (s : State) (n : Nat) (h : HealthT) : (s.setHl n h).port = s.port := rfl
@[simp] theorem State.setHl_lampTiming (s : State) (n : Nat) (h : HealthT) : (s.setHl n h).lampTiming = s.lampTiming := rfl
@[simp] theorem State.setHl_record (s : State) (n : Nat) (h : HealthT) : (s.setHl n h).record = s.record := rfl
@[simp] theorem State.setHl_bank0 (s : State) (n : Nat) (h : HealthT) : (s.setHl n h).bank0 = s.bank0 := rfl
@[simp] theorem State.setHl_bank1 (s : State) (n : Nat) (h : HealthT) : (s.setHl n h).bank1 = s.bank1 := rfl
@[simp] theorem State.setHl_health (s : State) (n : Nat) (h : HealthT) : (s.setHl n h).health = tabSet (fun _ => {}) s.health n h := rfl
@[simp] theorem State.setHl_store (s : State) (n : Nat) (h : HealthT) : (s.setHl n h).store = s.store := rfl
@[simp] theorem State.setHl_hcfg (s : State) (n : Nat) (h : HealthT) : (s.setHl n h).hcfg = s.hcfg := rfl
@[simp] theorem State.setHl_agingPaused (s : State) (n : Nat) (h : HealthT) : (s.setHl n h).agingPaused = s.agingPaused := rfl
@[simp] theorem State.setHl_sel (s : State) (n : Nat) (h : HealthT) : (s.setHl n h).sel = s.sel := rfl
@[simp] theorem State.setHl_safe (s : State) (n : Nat) (h : HealthT) : (s.setHl n h).safe = s.safe := rfl
@[simp] theorem State.setHl_safeTile (s : State) (n : Nat) (h : HealthT) : (s.setHl n h).safeTile = s.safeTile := rfl
@[simp] theorem State.setHl_hk (s : State) (n : Nat) (h : HealthT) : (s.setHl n h).hk = s.hk := rfl
@[simp] theorem State.setHl_pwr (s : State) (n : Nat) (h : HealthT) : (s.setHl n h).pwr = s.pwr := rfl
@[simp] theorem State.setHl_host (s : State) (n : Nat) (h : HealthT) : (s.setHl n h).host = s.host := rfl
@[simp] theorem State.setHl_crc (s : State) (n : Nat) (h : HealthT) : (s.setHl n h).crc = s.crc := rfl
@[simp] theorem State.setHl_debugPort (s : State) (n : Nat) (h : HealthT) : (s.setHl n h).debugPort = s.debugPort := rfl
@[simp] theorem State.setHl_wakeDue (s : State) (n : Nat) (h : HealthT) : (s.setHl n h).wakeDue = s.wakeDue := rfl
@[simp] theorem State.setHl_rdata (s : State) (n : Nat) (h : HealthT) : (s.setHl n h).rdata = s.rdata := rfl
@[simp] theorem State.setHl_reg (s : State) (n : Nat) (h : HealthT) (o : Nat) : (s.setHl n h).reg o = s.reg o := rfl
@[simp] theorem State.setHl_regN (s : State) (n : Nat) (h : HealthT) (o : Nat) : (s.setHl n h).regN o = s.regN o := rfl
@[simp] theorem State.setHl_getF (s : State) (n : Nat) (h : HealthT) (fd : Fld) : (s.setHl n h).getF fd = s.getF fd := rfl
@[simp] theorem State.setHl_isF (s : State) (n : Nat) (h : HealthT) (fd : Fld) : (s.setHl n h).isF fd = s.isF fd := rfl
@[simp] theorem State.setHl_byte (s : State) (n : Nat) (h : HealthT) (x : Nat) : (s.setHl n h).byte x = s.byte x := rfl

/-! ### setSafeT -/

@[simp] theorem State.setSafeT_pending (s : State) (n : Nat) (t : SafeTile) : (s.setSafeT n t).pending = s.pending := rfl
@[simp] theorem State.setSafeT_part (s : State) (n : Nat) (t : SafeTile) : (s.setSafeT n t).part = s.part := rfl
@[simp] theorem State.setSafeT_stepping (s : State) (n : Nat) (t : SafeTile) : (s.setSafeT n t).stepping = s.stepping := rfl
@[simp] theorem State.setSafeT_regs (s : State) (n : Nat) (t : SafeTile) : (s.setSafeT n t).regs = s.regs := rfl
@[simp] theorem State.setSafeT_mem (s : State) (n : Nat) (t : SafeTile) : (s.setSafeT n t).mem = s.mem := rfl
@[simp] theorem State.setSafeT_draws (s : State) (n : Nat) (t : SafeTile) : (s.setSafeT n t).draws = s.draws := rfl
@[simp] theorem State.setSafeT_time (s : State) (n : Nat) (t : SafeTile) : (s.setSafeT n t).time = s.time := rfl
@[simp] theorem State.setSafeT_boot (s : State) (n : Nat) (t : SafeTile) : (s.setSafeT n t).boot = s.boot := rfl
@[simp] theorem State.setSafeT_faultN (s : State) (n : Nat) (t : SafeTile) : (s.setSafeT n t).faultN = s.faultN := rfl
@[simp] theorem State.setSafeT_otp (s : State) (n : Nat) (t : SafeTile) : (s.setSafeT n t).otp = s.otp := rfl
@[simp] theorem State.setSafeT_loader (s : State) (n : Nat) (t : SafeTile) : (s.setSafeT n t).loader = s.loader := rfl
@[simp] theorem State.setSafeT_hamper (s : State) (n : Nat) (t : SafeTile) : (s.setSafeT n t).hamper = s.hamper := rfl
@[simp] theorem State.setSafeT_spool (s : State) (n : Nat) (t : SafeTile) : (s.setSafeT n t).spool = s.spool := rfl
@[simp] theorem State.setSafeT_posted (s : State) (n : Nat) (t : SafeTile) : (s.setSafeT n t).posted = s.posted := rfl
@[simp] theorem State.setSafeT_hlv (s : State) (n : Nat) (t : SafeTile) : (s.setSafeT n t).hlv = s.hlv := rfl
@[simp] theorem State.setSafeT_mc (s : State) (n : Nat) (t : SafeTile) : (s.setSafeT n t).mc = s.mc := rfl
@[simp] theorem State.setSafeT_ecc (s : State) (n : Nat) (t : SafeTile) : (s.setSafeT n t).ecc = s.ecc := rfl
@[simp] theorem State.setSafeT_be (s : State) (n : Nat) (t : SafeTile) : (s.setSafeT n t).be = s.be := rfl
@[simp] theorem State.setSafeT_progs (s : State) (n : Nat) (t : SafeTile) : (s.setSafeT n t).progs = s.progs := rfl
@[simp] theorem State.setSafeT_comp (s : State) (n : Nat) (t : SafeTile) : (s.setSafeT n t).comp = s.comp := rfl
@[simp] theorem State.setSafeT_press (s : State) (n : Nat) (t : SafeTile) : (s.setSafeT n t).press = s.press := rfl
@[simp] theorem State.setSafeT_tg (s : State) (n : Nat) (t : SafeTile) : (s.setSafeT n t).tg = s.tg := rfl
@[simp] theorem State.setSafeT_port (s : State) (n : Nat) (t : SafeTile) : (s.setSafeT n t).port = s.port := rfl
@[simp] theorem State.setSafeT_lampTiming (s : State) (n : Nat) (t : SafeTile) : (s.setSafeT n t).lampTiming = s.lampTiming := rfl
@[simp] theorem State.setSafeT_record (s : State) (n : Nat) (t : SafeTile) : (s.setSafeT n t).record = s.record := rfl
@[simp] theorem State.setSafeT_bank0 (s : State) (n : Nat) (t : SafeTile) : (s.setSafeT n t).bank0 = s.bank0 := rfl
@[simp] theorem State.setSafeT_bank1 (s : State) (n : Nat) (t : SafeTile) : (s.setSafeT n t).bank1 = s.bank1 := rfl
@[simp] theorem State.setSafeT_health (s : State) (n : Nat) (t : SafeTile) : (s.setSafeT n t).health = s.health := rfl
@[simp] theorem State.setSafeT_store (s : State) (n : Nat) (t : SafeTile) : (s.setSafeT n t).store = s.store := rfl
@[simp] theorem State.setSafeT_hcfg (s : State) (n : Nat) (t : SafeTile) : (s.setSafeT n t).hcfg = s.hcfg := rfl
@[simp] theorem State.setSafeT_agingPaused (s : State) (n : Nat) (t : SafeTile) : (s.setSafeT n t).agingPaused = s.agingPaused := rfl
@[simp] theorem State.setSafeT_sel (s : State) (n : Nat) (t : SafeTile) : (s.setSafeT n t).sel = s.sel := rfl
@[simp] theorem State.setSafeT_safe (s : State) (n : Nat) (t : SafeTile) : (s.setSafeT n t).safe = s.safe := rfl
@[simp] theorem State.setSafeT_safeTile (s : State) (n : Nat) (t : SafeTile) : (s.setSafeT n t).safeTile = tabSet (fun _ => {}) s.safeTile n t := rfl
@[simp] theorem State.setSafeT_hk (s : State) (n : Nat) (t : SafeTile) : (s.setSafeT n t).hk = s.hk := rfl
@[simp] theorem State.setSafeT_pwr (s : State) (n : Nat) (t : SafeTile) : (s.setSafeT n t).pwr = s.pwr := rfl
@[simp] theorem State.setSafeT_host (s : State) (n : Nat) (t : SafeTile) : (s.setSafeT n t).host = s.host := rfl
@[simp] theorem State.setSafeT_crc (s : State) (n : Nat) (t : SafeTile) : (s.setSafeT n t).crc = s.crc := rfl
@[simp] theorem State.setSafeT_debugPort (s : State) (n : Nat) (t : SafeTile) : (s.setSafeT n t).debugPort = s.debugPort := rfl
@[simp] theorem State.setSafeT_wakeDue (s : State) (n : Nat) (t : SafeTile) : (s.setSafeT n t).wakeDue = s.wakeDue := rfl
@[simp] theorem State.setSafeT_rdata (s : State) (n : Nat) (t : SafeTile) : (s.setSafeT n t).rdata = s.rdata := rfl
@[simp] theorem State.setSafeT_reg (s : State) (n : Nat) (t : SafeTile) (o : Nat) : (s.setSafeT n t).reg o = s.reg o := rfl
@[simp] theorem State.setSafeT_regN (s : State) (n : Nat) (t : SafeTile) (o : Nat) : (s.setSafeT n t).regN o = s.regN o := rfl
@[simp] theorem State.setSafeT_getF (s : State) (n : Nat) (t : SafeTile) (fd : Fld) : (s.setSafeT n t).getF fd = s.getF fd := rfl
@[simp] theorem State.setSafeT_isF (s : State) (n : Nat) (t : SafeTile) (fd : Fld) : (s.setSafeT n t).isF fd = s.isF fd := rfl
@[simp] theorem State.setSafeT_byte (s : State) (n : Nat) (t : SafeTile) (x : Nat) : (s.setSafeT n t).byte x = s.byte x := rfl

/-! ### updBoot -/

@[simp] theorem State.updBoot_pending (s : State) (f : Boot → Boot) : (s.updBoot f).pending = s.pending := rfl
@[simp] theorem State.updBoot_part (s : State) (f : Boot → Boot) : (s.updBoot f).part = s.part := rfl
@[simp] theorem State.updBoot_stepping (s : State) (f : Boot → Boot) : (s.updBoot f).stepping = s.stepping := rfl
@[simp] theorem State.updBoot_regs (s : State) (f : Boot → Boot) : (s.updBoot f).regs = s.regs := rfl
@[simp] theorem State.updBoot_mem (s : State) (f : Boot → Boot) : (s.updBoot f).mem = s.mem := rfl
@[simp] theorem State.updBoot_draws (s : State) (f : Boot → Boot) : (s.updBoot f).draws = s.draws := rfl
@[simp] theorem State.updBoot_time (s : State) (f : Boot → Boot) : (s.updBoot f).time = s.time := rfl
@[simp] theorem State.updBoot_boot (s : State) (f : Boot → Boot) : (s.updBoot f).boot = f s.boot := rfl
@[simp] theorem State.updBoot_faultN (s : State) (f : Boot → Boot) : (s.updBoot f).faultN = s.faultN := rfl
@[simp] theorem State.updBoot_otp (s : State) (f : Boot → Boot) : (s.updBoot f).otp = s.otp := rfl
@[simp] theorem State.updBoot_loader (s : State) (f : Boot → Boot) : (s.updBoot f).loader = s.loader := rfl
@[simp] theorem State.updBoot_hamper (s : State) (f : Boot → Boot) : (s.updBoot f).hamper = s.hamper := rfl
@[simp] theorem State.updBoot_spool (s : State) (f : Boot → Boot) : (s.updBoot f).spool = s.spool := rfl
@[simp] theorem State.updBoot_posted (s : State) (f : Boot → Boot) : (s.updBoot f).posted = s.posted := rfl
@[simp] theorem State.updBoot_hlv (s : State) (f : Boot → Boot) : (s.updBoot f).hlv = s.hlv := rfl
@[simp] theorem State.updBoot_mc (s : State) (f : Boot → Boot) : (s.updBoot f).mc = s.mc := rfl
@[simp] theorem State.updBoot_ecc (s : State) (f : Boot → Boot) : (s.updBoot f).ecc = s.ecc := rfl
@[simp] theorem State.updBoot_be (s : State) (f : Boot → Boot) : (s.updBoot f).be = s.be := rfl
@[simp] theorem State.updBoot_progs (s : State) (f : Boot → Boot) : (s.updBoot f).progs = s.progs := rfl
@[simp] theorem State.updBoot_comp (s : State) (f : Boot → Boot) : (s.updBoot f).comp = s.comp := rfl
@[simp] theorem State.updBoot_press (s : State) (f : Boot → Boot) : (s.updBoot f).press = s.press := rfl
@[simp] theorem State.updBoot_tg (s : State) (f : Boot → Boot) : (s.updBoot f).tg = s.tg := rfl
@[simp] theorem State.updBoot_port (s : State) (f : Boot → Boot) : (s.updBoot f).port = s.port := rfl
@[simp] theorem State.updBoot_lampTiming (s : State) (f : Boot → Boot) : (s.updBoot f).lampTiming = s.lampTiming := rfl
@[simp] theorem State.updBoot_record (s : State) (f : Boot → Boot) : (s.updBoot f).record = s.record := rfl
@[simp] theorem State.updBoot_bank0 (s : State) (f : Boot → Boot) : (s.updBoot f).bank0 = s.bank0 := rfl
@[simp] theorem State.updBoot_bank1 (s : State) (f : Boot → Boot) : (s.updBoot f).bank1 = s.bank1 := rfl
@[simp] theorem State.updBoot_health (s : State) (f : Boot → Boot) : (s.updBoot f).health = s.health := rfl
@[simp] theorem State.updBoot_store (s : State) (f : Boot → Boot) : (s.updBoot f).store = s.store := rfl
@[simp] theorem State.updBoot_hcfg (s : State) (f : Boot → Boot) : (s.updBoot f).hcfg = s.hcfg := rfl
@[simp] theorem State.updBoot_agingPaused (s : State) (f : Boot → Boot) : (s.updBoot f).agingPaused = s.agingPaused := rfl
@[simp] theorem State.updBoot_sel (s : State) (f : Boot → Boot) : (s.updBoot f).sel = s.sel := rfl
@[simp] theorem State.updBoot_safe (s : State) (f : Boot → Boot) : (s.updBoot f).safe = s.safe := rfl
@[simp] theorem State.updBoot_safeTile (s : State) (f : Boot → Boot) : (s.updBoot f).safeTile = s.safeTile := rfl
@[simp] theorem State.updBoot_hk (s : State) (f : Boot → Boot) : (s.updBoot f).hk = s.hk := rfl
@[simp] theorem State.updBoot_pwr (s : State) (f : Boot → Boot) : (s.updBoot f).pwr = s.pwr := rfl
@[simp] theorem State.updBoot_host (s : State) (f : Boot → Boot) : (s.updBoot f).host = s.host := rfl
@[simp] theorem State.updBoot_crc (s : State) (f : Boot → Boot) : (s.updBoot f).crc = s.crc := rfl
@[simp] theorem State.updBoot_debugPort (s : State) (f : Boot → Boot) : (s.updBoot f).debugPort = s.debugPort := rfl
@[simp] theorem State.updBoot_wakeDue (s : State) (f : Boot → Boot) : (s.updBoot f).wakeDue = s.wakeDue := rfl
@[simp] theorem State.updBoot_rdata (s : State) (f : Boot → Boot) : (s.updBoot f).rdata = s.rdata := rfl
@[simp] theorem State.updBoot_reg (s : State) (f : Boot → Boot) (o : Nat) : (s.updBoot f).reg o = s.reg o := rfl
@[simp] theorem State.updBoot_regN (s : State) (f : Boot → Boot) (o : Nat) : (s.updBoot f).regN o = s.regN o := rfl
@[simp] theorem State.updBoot_getF (s : State) (f : Boot → Boot) (fd : Fld) : (s.updBoot f).getF fd = s.getF fd := rfl
@[simp] theorem State.updBoot_isF (s : State) (f : Boot → Boot) (fd : Fld) : (s.updBoot f).isF fd = s.isF fd := rfl
@[simp] theorem State.updBoot_byte (s : State) (f : Boot → Boot) (x : Nat) : (s.updBoot f).byte x = s.byte x := rfl

/-! ### updLoader -/

@[simp] theorem State.updLoader_pending (s : State) (f : Loader → Loader) : (s.updLoader f).pending = s.pending := rfl
@[simp] theorem State.updLoader_part (s : State) (f : Loader → Loader) : (s.updLoader f).part = s.part := rfl
@[simp] theorem State.updLoader_stepping (s : State) (f : Loader → Loader) : (s.updLoader f).stepping = s.stepping := rfl
@[simp] theorem State.updLoader_regs (s : State) (f : Loader → Loader) : (s.updLoader f).regs = s.regs := rfl
@[simp] theorem State.updLoader_mem (s : State) (f : Loader → Loader) : (s.updLoader f).mem = s.mem := rfl
@[simp] theorem State.updLoader_draws (s : State) (f : Loader → Loader) : (s.updLoader f).draws = s.draws := rfl
@[simp] theorem State.updLoader_time (s : State) (f : Loader → Loader) : (s.updLoader f).time = s.time := rfl
@[simp] theorem State.updLoader_boot (s : State) (f : Loader → Loader) : (s.updLoader f).boot = s.boot := rfl
@[simp] theorem State.updLoader_faultN (s : State) (f : Loader → Loader) : (s.updLoader f).faultN = s.faultN := rfl
@[simp] theorem State.updLoader_otp (s : State) (f : Loader → Loader) : (s.updLoader f).otp = s.otp := rfl
@[simp] theorem State.updLoader_loader (s : State) (f : Loader → Loader) : (s.updLoader f).loader = f s.loader := rfl
@[simp] theorem State.updLoader_hamper (s : State) (f : Loader → Loader) : (s.updLoader f).hamper = s.hamper := rfl
@[simp] theorem State.updLoader_spool (s : State) (f : Loader → Loader) : (s.updLoader f).spool = s.spool := rfl
@[simp] theorem State.updLoader_posted (s : State) (f : Loader → Loader) : (s.updLoader f).posted = s.posted := rfl
@[simp] theorem State.updLoader_hlv (s : State) (f : Loader → Loader) : (s.updLoader f).hlv = s.hlv := rfl
@[simp] theorem State.updLoader_mc (s : State) (f : Loader → Loader) : (s.updLoader f).mc = s.mc := rfl
@[simp] theorem State.updLoader_ecc (s : State) (f : Loader → Loader) : (s.updLoader f).ecc = s.ecc := rfl
@[simp] theorem State.updLoader_be (s : State) (f : Loader → Loader) : (s.updLoader f).be = s.be := rfl
@[simp] theorem State.updLoader_progs (s : State) (f : Loader → Loader) : (s.updLoader f).progs = s.progs := rfl
@[simp] theorem State.updLoader_comp (s : State) (f : Loader → Loader) : (s.updLoader f).comp = s.comp := rfl
@[simp] theorem State.updLoader_press (s : State) (f : Loader → Loader) : (s.updLoader f).press = s.press := rfl
@[simp] theorem State.updLoader_tg (s : State) (f : Loader → Loader) : (s.updLoader f).tg = s.tg := rfl
@[simp] theorem State.updLoader_port (s : State) (f : Loader → Loader) : (s.updLoader f).port = s.port := rfl
@[simp] theorem State.updLoader_lampTiming (s : State) (f : Loader → Loader) : (s.updLoader f).lampTiming = s.lampTiming := rfl
@[simp] theorem State.updLoader_record (s : State) (f : Loader → Loader) : (s.updLoader f).record = s.record := rfl
@[simp] theorem State.updLoader_bank0 (s : State) (f : Loader → Loader) : (s.updLoader f).bank0 = s.bank0 := rfl
@[simp] theorem State.updLoader_bank1 (s : State) (f : Loader → Loader) : (s.updLoader f).bank1 = s.bank1 := rfl
@[simp] theorem State.updLoader_health (s : State) (f : Loader → Loader) : (s.updLoader f).health = s.health := rfl
@[simp] theorem State.updLoader_store (s : State) (f : Loader → Loader) : (s.updLoader f).store = s.store := rfl
@[simp] theorem State.updLoader_hcfg (s : State) (f : Loader → Loader) : (s.updLoader f).hcfg = s.hcfg := rfl
@[simp] theorem State.updLoader_agingPaused (s : State) (f : Loader → Loader) : (s.updLoader f).agingPaused = s.agingPaused := rfl
@[simp] theorem State.updLoader_sel (s : State) (f : Loader → Loader) : (s.updLoader f).sel = s.sel := rfl
@[simp] theorem State.updLoader_safe (s : State) (f : Loader → Loader) : (s.updLoader f).safe = s.safe := rfl
@[simp] theorem State.updLoader_safeTile (s : State) (f : Loader → Loader) : (s.updLoader f).safeTile = s.safeTile := rfl
@[simp] theorem State.updLoader_hk (s : State) (f : Loader → Loader) : (s.updLoader f).hk = s.hk := rfl
@[simp] theorem State.updLoader_pwr (s : State) (f : Loader → Loader) : (s.updLoader f).pwr = s.pwr := rfl
@[simp] theorem State.updLoader_host (s : State) (f : Loader → Loader) : (s.updLoader f).host = s.host := rfl
@[simp] theorem State.updLoader_crc (s : State) (f : Loader → Loader) : (s.updLoader f).crc = s.crc := rfl
@[simp] theorem State.updLoader_debugPort (s : State) (f : Loader → Loader) : (s.updLoader f).debugPort = s.debugPort := rfl
@[simp] theorem State.updLoader_wakeDue (s : State) (f : Loader → Loader) : (s.updLoader f).wakeDue = s.wakeDue := rfl
@[simp] theorem State.updLoader_rdata (s : State) (f : Loader → Loader) : (s.updLoader f).rdata = s.rdata := rfl
@[simp] theorem State.updLoader_reg (s : State) (f : Loader → Loader) (o : Nat) : (s.updLoader f).reg o = s.reg o := rfl
@[simp] theorem State.updLoader_regN (s : State) (f : Loader → Loader) (o : Nat) : (s.updLoader f).regN o = s.regN o := rfl
@[simp] theorem State.updLoader_getF (s : State) (f : Loader → Loader) (fd : Fld) : (s.updLoader f).getF fd = s.getF fd := rfl
@[simp] theorem State.updLoader_isF (s : State) (f : Loader → Loader) (fd : Fld) : (s.updLoader f).isF fd = s.isF fd := rfl
@[simp] theorem State.updLoader_byte (s : State) (f : Loader → Loader) (x : Nat) : (s.updLoader f).byte x = s.byte x := rfl

/-! ### updTime -/

@[simp] theorem State.updTime_pending (s : State) (f : TimeU → TimeU) : (s.updTime f).pending = s.pending := rfl
@[simp] theorem State.updTime_part (s : State) (f : TimeU → TimeU) : (s.updTime f).part = s.part := rfl
@[simp] theorem State.updTime_stepping (s : State) (f : TimeU → TimeU) : (s.updTime f).stepping = s.stepping := rfl
@[simp] theorem State.updTime_regs (s : State) (f : TimeU → TimeU) : (s.updTime f).regs = s.regs := rfl
@[simp] theorem State.updTime_mem (s : State) (f : TimeU → TimeU) : (s.updTime f).mem = s.mem := rfl
@[simp] theorem State.updTime_draws (s : State) (f : TimeU → TimeU) : (s.updTime f).draws = s.draws := rfl
@[simp] theorem State.updTime_time (s : State) (f : TimeU → TimeU) : (s.updTime f).time = f s.time := rfl
@[simp] theorem State.updTime_boot (s : State) (f : TimeU → TimeU) : (s.updTime f).boot = s.boot := rfl
@[simp] theorem State.updTime_faultN (s : State) (f : TimeU → TimeU) : (s.updTime f).faultN = s.faultN := rfl
@[simp] theorem State.updTime_otp (s : State) (f : TimeU → TimeU) : (s.updTime f).otp = s.otp := rfl
@[simp] theorem State.updTime_loader (s : State) (f : TimeU → TimeU) : (s.updTime f).loader = s.loader := rfl
@[simp] theorem State.updTime_hamper (s : State) (f : TimeU → TimeU) : (s.updTime f).hamper = s.hamper := rfl
@[simp] theorem State.updTime_spool (s : State) (f : TimeU → TimeU) : (s.updTime f).spool = s.spool := rfl
@[simp] theorem State.updTime_posted (s : State) (f : TimeU → TimeU) : (s.updTime f).posted = s.posted := rfl
@[simp] theorem State.updTime_hlv (s : State) (f : TimeU → TimeU) : (s.updTime f).hlv = s.hlv := rfl
@[simp] theorem State.updTime_mc (s : State) (f : TimeU → TimeU) : (s.updTime f).mc = s.mc := rfl
@[simp] theorem State.updTime_ecc (s : State) (f : TimeU → TimeU) : (s.updTime f).ecc = s.ecc := rfl
@[simp] theorem State.updTime_be (s : State) (f : TimeU → TimeU) : (s.updTime f).be = s.be := rfl
@[simp] theorem State.updTime_progs (s : State) (f : TimeU → TimeU) : (s.updTime f).progs = s.progs := rfl
@[simp] theorem State.updTime_comp (s : State) (f : TimeU → TimeU) : (s.updTime f).comp = s.comp := rfl
@[simp] theorem State.updTime_press (s : State) (f : TimeU → TimeU) : (s.updTime f).press = s.press := rfl
@[simp] theorem State.updTime_tg (s : State) (f : TimeU → TimeU) : (s.updTime f).tg = s.tg := rfl
@[simp] theorem State.updTime_port (s : State) (f : TimeU → TimeU) : (s.updTime f).port = s.port := rfl
@[simp] theorem State.updTime_lampTiming (s : State) (f : TimeU → TimeU) : (s.updTime f).lampTiming = s.lampTiming := rfl
@[simp] theorem State.updTime_record (s : State) (f : TimeU → TimeU) : (s.updTime f).record = s.record := rfl
@[simp] theorem State.updTime_bank0 (s : State) (f : TimeU → TimeU) : (s.updTime f).bank0 = s.bank0 := rfl
@[simp] theorem State.updTime_bank1 (s : State) (f : TimeU → TimeU) : (s.updTime f).bank1 = s.bank1 := rfl
@[simp] theorem State.updTime_health (s : State) (f : TimeU → TimeU) : (s.updTime f).health = s.health := rfl
@[simp] theorem State.updTime_store (s : State) (f : TimeU → TimeU) : (s.updTime f).store = s.store := rfl
@[simp] theorem State.updTime_hcfg (s : State) (f : TimeU → TimeU) : (s.updTime f).hcfg = s.hcfg := rfl
@[simp] theorem State.updTime_agingPaused (s : State) (f : TimeU → TimeU) : (s.updTime f).agingPaused = s.agingPaused := rfl
@[simp] theorem State.updTime_sel (s : State) (f : TimeU → TimeU) : (s.updTime f).sel = s.sel := rfl
@[simp] theorem State.updTime_safe (s : State) (f : TimeU → TimeU) : (s.updTime f).safe = s.safe := rfl
@[simp] theorem State.updTime_safeTile (s : State) (f : TimeU → TimeU) : (s.updTime f).safeTile = s.safeTile := rfl
@[simp] theorem State.updTime_hk (s : State) (f : TimeU → TimeU) : (s.updTime f).hk = s.hk := rfl
@[simp] theorem State.updTime_pwr (s : State) (f : TimeU → TimeU) : (s.updTime f).pwr = s.pwr := rfl
@[simp] theorem State.updTime_host (s : State) (f : TimeU → TimeU) : (s.updTime f).host = s.host := rfl
@[simp] theorem State.updTime_crc (s : State) (f : TimeU → TimeU) : (s.updTime f).crc = s.crc := rfl
@[simp] theorem State.updTime_debugPort (s : State) (f : TimeU → TimeU) : (s.updTime f).debugPort = s.debugPort := rfl
@[simp] theorem State.updTime_wakeDue (s : State) (f : TimeU → TimeU) : (s.updTime f).wakeDue = s.wakeDue := rfl
@[simp] theorem State.updTime_rdata (s : State) (f : TimeU → TimeU) : (s.updTime f).rdata = s.rdata := rfl
@[simp] theorem State.updTime_reg (s : State) (f : TimeU → TimeU) (o : Nat) : (s.updTime f).reg o = s.reg o := rfl
@[simp] theorem State.updTime_regN (s : State) (f : TimeU → TimeU) (o : Nat) : (s.updTime f).regN o = s.regN o := rfl
@[simp] theorem State.updTime_getF (s : State) (f : TimeU → TimeU) (fd : Fld) : (s.updTime f).getF fd = s.getF fd := rfl
@[simp] theorem State.updTime_isF (s : State) (f : TimeU → TimeU) (fd : Fld) : (s.updTime f).isF fd = s.isF fd := rfl
@[simp] theorem State.updTime_byte (s : State) (f : TimeU → TimeU) (x : Nat) : (s.updTime f).byte x = s.byte x := rfl

/-! ### updHost -/

@[simp] theorem State.updHost_pending (s : State) (f : HostU → HostU) : (s.updHost f).pending = s.pending := rfl
@[simp] theorem State.updHost_part (s : State) (f : HostU → HostU) : (s.updHost f).part = s.part := rfl
@[simp] theorem State.updHost_stepping (s : State) (f : HostU → HostU) : (s.updHost f).stepping = s.stepping := rfl
@[simp] theorem State.updHost_regs (s : State) (f : HostU → HostU) : (s.updHost f).regs = s.regs := rfl
@[simp] theorem State.updHost_mem (s : State) (f : HostU → HostU) : (s.updHost f).mem = s.mem := rfl
@[simp] theorem State.updHost_draws (s : State) (f : HostU → HostU) : (s.updHost f).draws = s.draws := rfl
@[simp] theorem State.updHost_time (s : State) (f : HostU → HostU) : (s.updHost f).time = s.time := rfl
@[simp] theorem State.updHost_boot (s : State) (f : HostU → HostU) : (s.updHost f).boot = s.boot := rfl
@[simp] theorem State.updHost_faultN (s : State) (f : HostU → HostU) : (s.updHost f).faultN = s.faultN := rfl
@[simp] theorem State.updHost_otp (s : State) (f : HostU → HostU) : (s.updHost f).otp = s.otp := rfl
@[simp] theorem State.updHost_loader (s : State) (f : HostU → HostU) : (s.updHost f).loader = s.loader := rfl
@[simp] theorem State.updHost_hamper (s : State) (f : HostU → HostU) : (s.updHost f).hamper = s.hamper := rfl
@[simp] theorem State.updHost_spool (s : State) (f : HostU → HostU) : (s.updHost f).spool = s.spool := rfl
@[simp] theorem State.updHost_posted (s : State) (f : HostU → HostU) : (s.updHost f).posted = s.posted := rfl
@[simp] theorem State.updHost_hlv (s : State) (f : HostU → HostU) : (s.updHost f).hlv = s.hlv := rfl
@[simp] theorem State.updHost_mc (s : State) (f : HostU → HostU) : (s.updHost f).mc = s.mc := rfl
@[simp] theorem State.updHost_ecc (s : State) (f : HostU → HostU) : (s.updHost f).ecc = s.ecc := rfl
@[simp] theorem State.updHost_be (s : State) (f : HostU → HostU) : (s.updHost f).be = s.be := rfl
@[simp] theorem State.updHost_progs (s : State) (f : HostU → HostU) : (s.updHost f).progs = s.progs := rfl
@[simp] theorem State.updHost_comp (s : State) (f : HostU → HostU) : (s.updHost f).comp = s.comp := rfl
@[simp] theorem State.updHost_press (s : State) (f : HostU → HostU) : (s.updHost f).press = s.press := rfl
@[simp] theorem State.updHost_tg (s : State) (f : HostU → HostU) : (s.updHost f).tg = s.tg := rfl
@[simp] theorem State.updHost_port (s : State) (f : HostU → HostU) : (s.updHost f).port = s.port := rfl
@[simp] theorem State.updHost_lampTiming (s : State) (f : HostU → HostU) : (s.updHost f).lampTiming = s.lampTiming := rfl
@[simp] theorem State.updHost_record (s : State) (f : HostU → HostU) : (s.updHost f).record = s.record := rfl
@[simp] theorem State.updHost_bank0 (s : State) (f : HostU → HostU) : (s.updHost f).bank0 = s.bank0 := rfl
@[simp] theorem State.updHost_bank1 (s : State) (f : HostU → HostU) : (s.updHost f).bank1 = s.bank1 := rfl
@[simp] theorem State.updHost_health (s : State) (f : HostU → HostU) : (s.updHost f).health = s.health := rfl
@[simp] theorem State.updHost_store (s : State) (f : HostU → HostU) : (s.updHost f).store = s.store := rfl
@[simp] theorem State.updHost_hcfg (s : State) (f : HostU → HostU) : (s.updHost f).hcfg = s.hcfg := rfl
@[simp] theorem State.updHost_agingPaused (s : State) (f : HostU → HostU) : (s.updHost f).agingPaused = s.agingPaused := rfl
@[simp] theorem State.updHost_sel (s : State) (f : HostU → HostU) : (s.updHost f).sel = s.sel := rfl
@[simp] theorem State.updHost_safe (s : State) (f : HostU → HostU) : (s.updHost f).safe = s.safe := rfl
@[simp] theorem State.updHost_safeTile (s : State) (f : HostU → HostU) : (s.updHost f).safeTile = s.safeTile := rfl
@[simp] theorem State.updHost_hk (s : State) (f : HostU → HostU) : (s.updHost f).hk = s.hk := rfl
@[simp] theorem State.updHost_pwr (s : State) (f : HostU → HostU) : (s.updHost f).pwr = s.pwr := rfl
@[simp] theorem State.updHost_host (s : State) (f : HostU → HostU) : (s.updHost f).host = f s.host := rfl
@[simp] theorem State.updHost_crc (s : State) (f : HostU → HostU) : (s.updHost f).crc = s.crc := rfl
@[simp] theorem State.updHost_debugPort (s : State) (f : HostU → HostU) : (s.updHost f).debugPort = s.debugPort := rfl
@[simp] theorem State.updHost_wakeDue (s : State) (f : HostU → HostU) : (s.updHost f).wakeDue = s.wakeDue := rfl
@[simp] theorem State.updHost_rdata (s : State) (f : HostU → HostU) : (s.updHost f).rdata = s.rdata := rfl
@[simp] theorem State.updHost_reg (s : State) (f : HostU → HostU) (o : Nat) : (s.updHost f).reg o = s.reg o := rfl
@[simp] theorem State.updHost_regN (s : State) (f : HostU → HostU) (o : Nat) : (s.updHost f).regN o = s.regN o := rfl
@[simp] theorem State.updHost_getF (s : State) (f : HostU → HostU) (fd : Fld) : (s.updHost f).getF fd = s.getF fd := rfl
@[simp] theorem State.updHost_isF (s : State) (f : HostU → HostU) (fd : Fld) : (s.updHost f).isF fd = s.isF fd := rfl
@[simp] theorem State.updHost_byte (s : State) (f : HostU → HostU) (x : Nat) : (s.updHost f).byte x = s.byte x := rfl

/-! ### updPwr -/

@[simp] theorem State.updPwr_pending (s : State) (f : Pwr → Pwr) : (s.updPwr f).pending = s.pending := rfl
@[simp] theorem State.updPwr_part (s : State) (f : Pwr → Pwr) : (s.updPwr f).part = s.part := rfl
@[simp] theorem State.updPwr_stepping (s : State) (f : Pwr → Pwr) : (s.updPwr f).stepping = s.stepping := rfl
@[simp] theorem State.updPwr_regs (s : State) (f : Pwr → Pwr) : (s.updPwr f).regs = s.regs := rfl
@[simp] theorem State.updPwr_mem (s : State) (f : Pwr → Pwr) : (s.updPwr f).mem = s.mem := rfl
@[simp] theorem State.updPwr_draws (s : State) (f : Pwr → Pwr) : (s.updPwr f).draws = s.draws := rfl
@[simp] theorem State.updPwr_time (s : State) (f : Pwr → Pwr) : (s.updPwr f).time = s.time := rfl
@[simp] theorem State.updPwr_boot (s : State) (f : Pwr → Pwr) : (s.updPwr f).boot = s.boot := rfl
@[simp] theorem State.updPwr_faultN (s : State) (f : Pwr → Pwr) : (s.updPwr f).faultN = s.faultN := rfl
@[simp] theorem State.updPwr_otp (s : State) (f : Pwr → Pwr) : (s.updPwr f).otp = s.otp := rfl
@[simp] theorem State.updPwr_loader (s : State) (f : Pwr → Pwr) : (s.updPwr f).loader = s.loader := rfl
@[simp] theorem State.updPwr_hamper (s : State) (f : Pwr → Pwr) : (s.updPwr f).hamper = s.hamper := rfl
@[simp] theorem State.updPwr_spool (s : State) (f : Pwr → Pwr) : (s.updPwr f).spool = s.spool := rfl
@[simp] theorem State.updPwr_posted (s : State) (f : Pwr → Pwr) : (s.updPwr f).posted = s.posted := rfl
@[simp] theorem State.updPwr_hlv (s : State) (f : Pwr → Pwr) : (s.updPwr f).hlv = s.hlv := rfl
@[simp] theorem State.updPwr_mc (s : State) (f : Pwr → Pwr) : (s.updPwr f).mc = s.mc := rfl
@[simp] theorem State.updPwr_ecc (s : State) (f : Pwr → Pwr) : (s.updPwr f).ecc = s.ecc := rfl
@[simp] theorem State.updPwr_be (s : State) (f : Pwr → Pwr) : (s.updPwr f).be = s.be := rfl
@[simp] theorem State.updPwr_progs (s : State) (f : Pwr → Pwr) : (s.updPwr f).progs = s.progs := rfl
@[simp] theorem State.updPwr_comp (s : State) (f : Pwr → Pwr) : (s.updPwr f).comp = s.comp := rfl
@[simp] theorem State.updPwr_press (s : State) (f : Pwr → Pwr) : (s.updPwr f).press = s.press := rfl
@[simp] theorem State.updPwr_tg (s : State) (f : Pwr → Pwr) : (s.updPwr f).tg = s.tg := rfl
@[simp] theorem State.updPwr_port (s : State) (f : Pwr → Pwr) : (s.updPwr f).port = s.port := rfl
@[simp] theorem State.updPwr_lampTiming (s : State) (f : Pwr → Pwr) : (s.updPwr f).lampTiming = s.lampTiming := rfl
@[simp] theorem State.updPwr_record (s : State) (f : Pwr → Pwr) : (s.updPwr f).record = s.record := rfl
@[simp] theorem State.updPwr_bank0 (s : State) (f : Pwr → Pwr) : (s.updPwr f).bank0 = s.bank0 := rfl
@[simp] theorem State.updPwr_bank1 (s : State) (f : Pwr → Pwr) : (s.updPwr f).bank1 = s.bank1 := rfl
@[simp] theorem State.updPwr_health (s : State) (f : Pwr → Pwr) : (s.updPwr f).health = s.health := rfl
@[simp] theorem State.updPwr_store (s : State) (f : Pwr → Pwr) : (s.updPwr f).store = s.store := rfl
@[simp] theorem State.updPwr_hcfg (s : State) (f : Pwr → Pwr) : (s.updPwr f).hcfg = s.hcfg := rfl
@[simp] theorem State.updPwr_agingPaused (s : State) (f : Pwr → Pwr) : (s.updPwr f).agingPaused = s.agingPaused := rfl
@[simp] theorem State.updPwr_sel (s : State) (f : Pwr → Pwr) : (s.updPwr f).sel = s.sel := rfl
@[simp] theorem State.updPwr_safe (s : State) (f : Pwr → Pwr) : (s.updPwr f).safe = s.safe := rfl
@[simp] theorem State.updPwr_safeTile (s : State) (f : Pwr → Pwr) : (s.updPwr f).safeTile = s.safeTile := rfl
@[simp] theorem State.updPwr_hk (s : State) (f : Pwr → Pwr) : (s.updPwr f).hk = s.hk := rfl
@[simp] theorem State.updPwr_pwr (s : State) (f : Pwr → Pwr) : (s.updPwr f).pwr = f s.pwr := rfl
@[simp] theorem State.updPwr_host (s : State) (f : Pwr → Pwr) : (s.updPwr f).host = s.host := rfl
@[simp] theorem State.updPwr_crc (s : State) (f : Pwr → Pwr) : (s.updPwr f).crc = s.crc := rfl
@[simp] theorem State.updPwr_debugPort (s : State) (f : Pwr → Pwr) : (s.updPwr f).debugPort = s.debugPort := rfl
@[simp] theorem State.updPwr_wakeDue (s : State) (f : Pwr → Pwr) : (s.updPwr f).wakeDue = s.wakeDue := rfl
@[simp] theorem State.updPwr_rdata (s : State) (f : Pwr → Pwr) : (s.updPwr f).rdata = s.rdata := rfl
@[simp] theorem State.updPwr_reg (s : State) (f : Pwr → Pwr) (o : Nat) : (s.updPwr f).reg o = s.reg o := rfl
@[simp] theorem State.updPwr_regN (s : State) (f : Pwr → Pwr) (o : Nat) : (s.updPwr f).regN o = s.regN o := rfl
@[simp] theorem State.updPwr_getF (s : State) (f : Pwr → Pwr) (fd : Fld) : (s.updPwr f).getF fd = s.getF fd := rfl
@[simp] theorem State.updPwr_isF (s : State) (f : Pwr → Pwr) (fd : Fld) : (s.updPwr f).isF fd = s.isF fd := rfl
@[simp] theorem State.updPwr_byte (s : State) (f : Pwr → Pwr) (x : Nat) : (s.updPwr f).byte x = s.byte x := rfl

/-! ### updHk -/

@[simp] theorem State.updHk_pending (s : State) (f : Hk → Hk) : (s.updHk f).pending = s.pending := rfl
@[simp] theorem State.updHk_part (s : State) (f : Hk → Hk) : (s.updHk f).part = s.part := rfl
@[simp] theorem State.updHk_stepping (s : State) (f : Hk → Hk) : (s.updHk f).stepping = s.stepping := rfl
@[simp] theorem State.updHk_regs (s : State) (f : Hk → Hk) : (s.updHk f).regs = s.regs := rfl
@[simp] theorem State.updHk_mem (s : State) (f : Hk → Hk) : (s.updHk f).mem = s.mem := rfl
@[simp] theorem State.updHk_draws (s : State) (f : Hk → Hk) : (s.updHk f).draws = s.draws := rfl
@[simp] theorem State.updHk_time (s : State) (f : Hk → Hk) : (s.updHk f).time = s.time := rfl
@[simp] theorem State.updHk_boot (s : State) (f : Hk → Hk) : (s.updHk f).boot = s.boot := rfl
@[simp] theorem State.updHk_faultN (s : State) (f : Hk → Hk) : (s.updHk f).faultN = s.faultN := rfl
@[simp] theorem State.updHk_otp (s : State) (f : Hk → Hk) : (s.updHk f).otp = s.otp := rfl
@[simp] theorem State.updHk_loader (s : State) (f : Hk → Hk) : (s.updHk f).loader = s.loader := rfl
@[simp] theorem State.updHk_hamper (s : State) (f : Hk → Hk) : (s.updHk f).hamper = s.hamper := rfl
@[simp] theorem State.updHk_spool (s : State) (f : Hk → Hk) : (s.updHk f).spool = s.spool := rfl
@[simp] theorem State.updHk_posted (s : State) (f : Hk → Hk) : (s.updHk f).posted = s.posted := rfl
@[simp] theorem State.updHk_hlv (s : State) (f : Hk → Hk) : (s.updHk f).hlv = s.hlv := rfl
@[simp] theorem State.updHk_mc (s : State) (f : Hk → Hk) : (s.updHk f).mc = s.mc := rfl
@[simp] theorem State.updHk_ecc (s : State) (f : Hk → Hk) : (s.updHk f).ecc = s.ecc := rfl
@[simp] theorem State.updHk_be (s : State) (f : Hk → Hk) : (s.updHk f).be = s.be := rfl
@[simp] theorem State.updHk_progs (s : State) (f : Hk → Hk) : (s.updHk f).progs = s.progs := rfl
@[simp] theorem State.updHk_comp (s : State) (f : Hk → Hk) : (s.updHk f).comp = s.comp := rfl
@[simp] theorem State.updHk_press (s : State) (f : Hk → Hk) : (s.updHk f).press = s.press := rfl
@[simp] theorem State.updHk_tg (s : State) (f : Hk → Hk) : (s.updHk f).tg = s.tg := rfl
@[simp] theorem State.updHk_port (s : State) (f : Hk → Hk) : (s.updHk f).port = s.port := rfl
@[simp] theorem State.updHk_lampTiming (s : State) (f : Hk → Hk) : (s.updHk f).lampTiming = s.lampTiming := rfl
@[simp] theorem State.updHk_record (s : State) (f : Hk → Hk) : (s.updHk f).record = s.record := rfl
@[simp] theorem State.updHk_bank0 (s : State) (f : Hk → Hk) : (s.updHk f).bank0 = s.bank0 := rfl
@[simp] theorem State.updHk_bank1 (s : State) (f : Hk → Hk) : (s.updHk f).bank1 = s.bank1 := rfl
@[simp] theorem State.updHk_health (s : State) (f : Hk → Hk) : (s.updHk f).health = s.health := rfl
@[simp] theorem State.updHk_store (s : State) (f : Hk → Hk) : (s.updHk f).store = s.store := rfl
@[simp] theorem State.updHk_hcfg (s : State) (f : Hk → Hk) : (s.updHk f).hcfg = s.hcfg := rfl
@[simp] theorem State.updHk_agingPaused (s : State) (f : Hk → Hk) : (s.updHk f).agingPaused = s.agingPaused := rfl
@[simp] theorem State.updHk_sel (s : State) (f : Hk → Hk) : (s.updHk f).sel = s.sel := rfl
@[simp] theorem State.updHk_safe (s : State) (f : Hk → Hk) : (s.updHk f).safe = s.safe := rfl
@[simp] theorem State.updHk_safeTile (s : State) (f : Hk → Hk) : (s.updHk f).safeTile = s.safeTile := rfl
@[simp] theorem State.updHk_hk (s : State) (f : Hk → Hk) : (s.updHk f).hk = f s.hk := rfl
@[simp] theorem State.updHk_pwr (s : State) (f : Hk → Hk) : (s.updHk f).pwr = s.pwr := rfl
@[simp] theorem State.updHk_host (s : State) (f : Hk → Hk) : (s.updHk f).host = s.host := rfl
@[simp] theorem State.updHk_crc (s : State) (f : Hk → Hk) : (s.updHk f).crc = s.crc := rfl
@[simp] theorem State.updHk_debugPort (s : State) (f : Hk → Hk) : (s.updHk f).debugPort = s.debugPort := rfl
@[simp] theorem State.updHk_wakeDue (s : State) (f : Hk → Hk) : (s.updHk f).wakeDue = s.wakeDue := rfl
@[simp] theorem State.updHk_rdata (s : State) (f : Hk → Hk) : (s.updHk f).rdata = s.rdata := rfl
@[simp] theorem State.updHk_reg (s : State) (f : Hk → Hk) (o : Nat) : (s.updHk f).reg o = s.reg o := rfl
@[simp] theorem State.updHk_regN (s : State) (f : Hk → Hk) (o : Nat) : (s.updHk f).regN o = s.regN o := rfl
@[simp] theorem State.updHk_getF (s : State) (f : Hk → Hk) (fd : Fld) : (s.updHk f).getF fd = s.getF fd := rfl
@[simp] theorem State.updHk_isF (s : State) (f : Hk → Hk) (fd : Fld) : (s.updHk f).isF fd = s.isF fd := rfl
@[simp] theorem State.updHk_byte (s : State) (f : Hk → Hk) (x : Nat) : (s.updHk f).byte x = s.byte x := rfl

/-! ### updSafe -/

@[simp] theorem State.updSafe_pending (s : State) (f : Safe → Safe) : (s.updSafe f).pending = s.pending := rfl
@[simp] theorem State.updSafe_part (s : State) (f : Safe → Safe) : (s.updSafe f).part = s.part := rfl
@[simp] theorem State.updSafe_stepping (s : State) (f : Safe → Safe) : (s.updSafe f).stepping = s.stepping := rfl
@[simp] theorem State.updSafe_regs (s : State) (f : Safe → Safe) : (s.updSafe f).regs = s.regs := rfl
@[simp] theorem State.updSafe_mem (s : State) (f : Safe → Safe) : (s.updSafe f).mem = s.mem := rfl
@[simp] theorem State.updSafe_draws (s : State) (f : Safe → Safe) : (s.updSafe f).draws = s.draws := rfl
@[simp] theorem State.updSafe_time (s : State) (f : Safe → Safe) : (s.updSafe f).time = s.time := rfl
@[simp] theorem State.updSafe_boot (s : State) (f : Safe → Safe) : (s.updSafe f).boot = s.boot := rfl
@[simp] theorem State.updSafe_faultN (s : State) (f : Safe → Safe) : (s.updSafe f).faultN = s.faultN := rfl
@[simp] theorem State.updSafe_otp (s : State) (f : Safe → Safe) : (s.updSafe f).otp = s.otp := rfl
@[simp] theorem State.updSafe_loader (s : State) (f : Safe → Safe) : (s.updSafe f).loader = s.loader := rfl
@[simp] theorem State.updSafe_hamper (s : State) (f : Safe → Safe) : (s.updSafe f).hamper = s.hamper := rfl
@[simp] theorem State.updSafe_spool (s : State) (f : Safe → Safe) : (s.updSafe f).spool = s.spool := rfl
@[simp] theorem State.updSafe_posted (s : State) (f : Safe → Safe) : (s.updSafe f).posted = s.posted := rfl
@[simp] theorem State.updSafe_hlv (s : State) (f : Safe → Safe) : (s.updSafe f).hlv = s.hlv := rfl
@[simp] theorem State.updSafe_mc (s : State) (f : Safe → Safe) : (s.updSafe f).mc = s.mc := rfl
@[simp] theorem State.updSafe_ecc (s : State) (f : Safe → Safe) : (s.updSafe f).ecc = s.ecc := rfl
@[simp] theorem State.updSafe_be (s : State) (f : Safe → Safe) : (s.updSafe f).be = s.be := rfl
@[simp] theorem State.updSafe_progs (s : State) (f : Safe → Safe) : (s.updSafe f).progs = s.progs := rfl
@[simp] theorem State.updSafe_comp (s : State) (f : Safe → Safe) : (s.updSafe f).comp = s.comp := rfl
@[simp] theorem State.updSafe_press (s : State) (f : Safe → Safe) : (s.updSafe f).press = s.press := rfl
@[simp] theorem State.updSafe_tg (s : State) (f : Safe → Safe) : (s.updSafe f).tg = s.tg := rfl
@[simp] theorem State.updSafe_port (s : State) (f : Safe → Safe) : (s.updSafe f).port = s.port := rfl
@[simp] theorem State.updSafe_lampTiming (s : State) (f : Safe → Safe) : (s.updSafe f).lampTiming = s.lampTiming := rfl
@[simp] theorem State.updSafe_record (s : State) (f : Safe → Safe) : (s.updSafe f).record = s.record := rfl
@[simp] theorem State.updSafe_bank0 (s : State) (f : Safe → Safe) : (s.updSafe f).bank0 = s.bank0 := rfl
@[simp] theorem State.updSafe_bank1 (s : State) (f : Safe → Safe) : (s.updSafe f).bank1 = s.bank1 := rfl
@[simp] theorem State.updSafe_health (s : State) (f : Safe → Safe) : (s.updSafe f).health = s.health := rfl
@[simp] theorem State.updSafe_store (s : State) (f : Safe → Safe) : (s.updSafe f).store = s.store := rfl
@[simp] theorem State.updSafe_hcfg (s : State) (f : Safe → Safe) : (s.updSafe f).hcfg = s.hcfg := rfl
@[simp] theorem State.updSafe_agingPaused (s : State) (f : Safe → Safe) : (s.updSafe f).agingPaused = s.agingPaused := rfl
@[simp] theorem State.updSafe_sel (s : State) (f : Safe → Safe) : (s.updSafe f).sel = s.sel := rfl
@[simp] theorem State.updSafe_safe (s : State) (f : Safe → Safe) : (s.updSafe f).safe = f s.safe := rfl
@[simp] theorem State.updSafe_safeTile (s : State) (f : Safe → Safe) : (s.updSafe f).safeTile = s.safeTile := rfl
@[simp] theorem State.updSafe_hk (s : State) (f : Safe → Safe) : (s.updSafe f).hk = s.hk := rfl
@[simp] theorem State.updSafe_pwr (s : State) (f : Safe → Safe) : (s.updSafe f).pwr = s.pwr := rfl
@[simp] theorem State.updSafe_host (s : State) (f : Safe → Safe) : (s.updSafe f).host = s.host := rfl
@[simp] theorem State.updSafe_crc (s : State) (f : Safe → Safe) : (s.updSafe f).crc = s.crc := rfl
@[simp] theorem State.updSafe_debugPort (s : State) (f : Safe → Safe) : (s.updSafe f).debugPort = s.debugPort := rfl
@[simp] theorem State.updSafe_wakeDue (s : State) (f : Safe → Safe) : (s.updSafe f).wakeDue = s.wakeDue := rfl
@[simp] theorem State.updSafe_rdata (s : State) (f : Safe → Safe) : (s.updSafe f).rdata = s.rdata := rfl
@[simp] theorem State.updSafe_reg (s : State) (f : Safe → Safe) (o : Nat) : (s.updSafe f).reg o = s.reg o := rfl
@[simp] theorem State.updSafe_regN (s : State) (f : Safe → Safe) (o : Nat) : (s.updSafe f).regN o = s.regN o := rfl
@[simp] theorem State.updSafe_getF (s : State) (f : Safe → Safe) (fd : Fld) : (s.updSafe f).getF fd = s.getF fd := rfl
@[simp] theorem State.updSafe_isF (s : State) (f : Safe → Safe) (fd : Fld) : (s.updSafe f).isF fd = s.isF fd := rfl
@[simp] theorem State.updSafe_byte (s : State) (f : Safe → Safe) (x : Nat) : (s.updSafe f).byte x = s.byte x := rfl

/-! ### updHamper -/

@[simp] theorem State.updHamper_pending (s : State) (f : Hamper → Hamper) : (s.updHamper f).pending = s.pending := rfl
@[simp] theorem State.updHamper_part (s : State) (f : Hamper → Hamper) : (s.updHamper f).part = s.part := rfl
@[simp] theorem State.updHamper_stepping (s : State) (f : Hamper → Hamper) : (s.updHamper f).stepping = s.stepping := rfl
@[simp] theorem State.updHamper_regs (s : State) (f : Hamper → Hamper) : (s.updHamper f).regs = s.regs := rfl
@[simp] theorem State.updHamper_mem (s : State) (f : Hamper → Hamper) : (s.updHamper f).mem = s.mem := rfl
@[simp] theorem State.updHamper_draws (s : State) (f : Hamper → Hamper) : (s.updHamper f).draws = s.draws := rfl
@[simp] theorem State.updHamper_time (s : State) (f : Hamper → Hamper) : (s.updHamper f).time = s.time := rfl
@[simp] theorem State.updHamper_boot (s : State) (f : Hamper → Hamper) : (s.updHamper f).boot = s.boot := rfl
@[simp] theorem State.updHamper_faultN (s : State) (f : Hamper → Hamper) : (s.updHamper f).faultN = s.faultN := rfl
@[simp] theorem State.updHamper_otp (s : State) (f : Hamper → Hamper) : (s.updHamper f).otp = s.otp := rfl
@[simp] theorem State.updHamper_loader (s : State) (f : Hamper → Hamper) : (s.updHamper f).loader = s.loader := rfl
@[simp] theorem State.updHamper_hamper (s : State) (f : Hamper → Hamper) : (s.updHamper f).hamper = f s.hamper := rfl
@[simp] theorem State.updHamper_spool (s : State) (f : Hamper → Hamper) : (s.updHamper f).spool = s.spool := rfl
@[simp] theorem State.updHamper_posted (s : State) (f : Hamper → Hamper) : (s.updHamper f).posted = s.posted := rfl
@[simp] theorem State.updHamper_hlv (s : State) (f : Hamper → Hamper) : (s.updHamper f).hlv = s.hlv := rfl
@[simp] theorem State.updHamper_mc (s : State) (f : Hamper → Hamper) : (s.updHamper f).mc = s.mc := rfl
@[simp] theorem State.updHamper_ecc (s : State) (f : Hamper → Hamper) : (s.updHamper f).ecc = s.ecc := rfl
@[simp] theorem State.updHamper_be (s : State) (f : Hamper → Hamper) : (s.updHamper f).be = s.be := rfl
@[simp] theorem State.updHamper_progs (s : State) (f : Hamper → Hamper) : (s.updHamper f).progs = s.progs := rfl
@[simp] theorem State.updHamper_comp (s : State) (f : Hamper → Hamper) : (s.updHamper f).comp = s.comp := rfl
@[simp] theorem State.updHamper_press (s : State) (f : Hamper → Hamper) : (s.updHamper f).press = s.press := rfl
@[simp] theorem State.updHamper_tg (s : State) (f : Hamper → Hamper) : (s.updHamper f).tg = s.tg := rfl
@[simp] theorem State.updHamper_port (s : State) (f : Hamper → Hamper) : (s.updHamper f).port = s.port := rfl
@[simp] theorem State.updHamper_lampTiming (s : State) (f : Hamper → Hamper) : (s.updHamper f).lampTiming = s.lampTiming := rfl
@[simp] theorem State.updHamper_record (s : State) (f : Hamper → Hamper) : (s.updHamper f).record = s.record := rfl
@[simp] theorem State.updHamper_bank0 (s : State) (f : Hamper → Hamper) : (s.updHamper f).bank0 = s.bank0 := rfl
@[simp] theorem State.updHamper_bank1 (s : State) (f : Hamper → Hamper) : (s.updHamper f).bank1 = s.bank1 := rfl
@[simp] theorem State.updHamper_health (s : State) (f : Hamper → Hamper) : (s.updHamper f).health = s.health := rfl
@[simp] theorem State.updHamper_store (s : State) (f : Hamper → Hamper) : (s.updHamper f).store = s.store := rfl
@[simp] theorem State.updHamper_hcfg (s : State) (f : Hamper → Hamper) : (s.updHamper f).hcfg = s.hcfg := rfl
@[simp] theorem State.updHamper_agingPaused (s : State) (f : Hamper → Hamper) : (s.updHamper f).agingPaused = s.agingPaused := rfl
@[simp] theorem State.updHamper_sel (s : State) (f : Hamper → Hamper) : (s.updHamper f).sel = s.sel := rfl
@[simp] theorem State.updHamper_safe (s : State) (f : Hamper → Hamper) : (s.updHamper f).safe = s.safe := rfl
@[simp] theorem State.updHamper_safeTile (s : State) (f : Hamper → Hamper) : (s.updHamper f).safeTile = s.safeTile := rfl
@[simp] theorem State.updHamper_hk (s : State) (f : Hamper → Hamper) : (s.updHamper f).hk = s.hk := rfl
@[simp] theorem State.updHamper_pwr (s : State) (f : Hamper → Hamper) : (s.updHamper f).pwr = s.pwr := rfl
@[simp] theorem State.updHamper_host (s : State) (f : Hamper → Hamper) : (s.updHamper f).host = s.host := rfl
@[simp] theorem State.updHamper_crc (s : State) (f : Hamper → Hamper) : (s.updHamper f).crc = s.crc := rfl
@[simp] theorem State.updHamper_debugPort (s : State) (f : Hamper → Hamper) : (s.updHamper f).debugPort = s.debugPort := rfl
@[simp] theorem State.updHamper_wakeDue (s : State) (f : Hamper → Hamper) : (s.updHamper f).wakeDue = s.wakeDue := rfl
@[simp] theorem State.updHamper_rdata (s : State) (f : Hamper → Hamper) : (s.updHamper f).rdata = s.rdata := rfl
@[simp] theorem State.updHamper_reg (s : State) (f : Hamper → Hamper) (o : Nat) : (s.updHamper f).reg o = s.reg o := rfl
@[simp] theorem State.updHamper_regN (s : State) (f : Hamper → Hamper) (o : Nat) : (s.updHamper f).regN o = s.regN o := rfl
@[simp] theorem State.updHamper_getF (s : State) (f : Hamper → Hamper) (fd : Fld) : (s.updHamper f).getF fd = s.getF fd := rfl
@[simp] theorem State.updHamper_isF (s : State) (f : Hamper → Hamper) (fd : Fld) : (s.updHamper f).isF fd = s.isF fd := rfl
@[simp] theorem State.updHamper_byte (s : State) (f : Hamper → Hamper) (x : Nat) : (s.updHamper f).byte x = s.byte x := rfl

/-! ### updSpool -/

@[simp] theorem State.updSpool_pending (s : State) (f : Spool → Spool) : (s.updSpool f).pending = s.pending := rfl
@[simp] theorem State.updSpool_part (s : State) (f : Spool → Spool) : (s.updSpool f).part = s.part := rfl
@[simp] theorem State.updSpool_stepping (s : State) (f : Spool → Spool) : (s.updSpool f).stepping = s.stepping := rfl
@[simp] theorem State.updSpool_regs (s : State) (f : Spool → Spool) : (s.updSpool f).regs = s.regs := rfl
@[simp] theorem State.updSpool_mem (s : State) (f : Spool → Spool) : (s.updSpool f).mem = s.mem := rfl
@[simp] theorem State.updSpool_draws (s : State) (f : Spool → Spool) : (s.updSpool f).draws = s.draws := rfl
@[simp] theorem State.updSpool_time (s : State) (f : Spool → Spool) : (s.updSpool f).time = s.time := rfl
@[simp] theorem State.updSpool_boot (s : State) (f : Spool → Spool) : (s.updSpool f).boot = s.boot := rfl
@[simp] theorem State.updSpool_faultN (s : State) (f : Spool → Spool) : (s.updSpool f).faultN = s.faultN := rfl
@[simp] theorem State.updSpool_otp (s : State) (f : Spool → Spool) : (s.updSpool f).otp = s.otp := rfl
@[simp] theorem State.updSpool_loader (s : State) (f : Spool → Spool) : (s.updSpool f).loader = s.loader := rfl
@[simp] theorem State.updSpool_hamper (s : State) (f : Spool → Spool) : (s.updSpool f).hamper = s.hamper := rfl
@[simp] theorem State.updSpool_spool (s : State) (f : Spool → Spool) : (s.updSpool f).spool = f s.spool := rfl
@[simp] theorem State.updSpool_posted (s : State) (f : Spool → Spool) : (s.updSpool f).posted = s.posted := rfl
@[simp] theorem State.updSpool_hlv (s : State) (f : Spool → Spool) : (s.updSpool f).hlv = s.hlv := rfl
@[simp] theorem State.updSpool_mc (s : State) (f : Spool → Spool) : (s.updSpool f).mc = s.mc := rfl
@[simp] theorem State.updSpool_ecc (s : State) (f : Spool → Spool) : (s.updSpool f).ecc = s.ecc := rfl
@[simp] theorem State.updSpool_be (s : State) (f : Spool → Spool) : (s.updSpool f).be = s.be := rfl
@[simp] theorem State.updSpool_progs (s : State) (f : Spool → Spool) : (s.updSpool f).progs = s.progs := rfl
@[simp] theorem State.updSpool_comp (s : State) (f : Spool → Spool) : (s.updSpool f).comp = s.comp := rfl
@[simp] theorem State.updSpool_press (s : State) (f : Spool → Spool) : (s.updSpool f).press = s.press := rfl
@[simp] theorem State.updSpool_tg (s : State) (f : Spool → Spool) : (s.updSpool f).tg = s.tg := rfl
@[simp] theorem State.updSpool_port (s : State) (f : Spool → Spool) : (s.updSpool f).port = s.port := rfl
@[simp] theorem State.updSpool_lampTiming (s : State) (f : Spool → Spool) : (s.updSpool f).lampTiming = s.lampTiming := rfl
@[simp] theorem State.updSpool_record (s : State) (f : Spool → Spool) : (s.updSpool f).record = s.record := rfl
@[simp] theorem State.updSpool_bank0 (s : State) (f : Spool → Spool) : (s.updSpool f).bank0 = s.bank0 := rfl
@[simp] theorem State.updSpool_bank1 (s : State) (f : Spool → Spool) : (s.updSpool f).bank1 = s.bank1 := rfl
@[simp] theorem State.updSpool_health (s : State) (f : Spool → Spool) : (s.updSpool f).health = s.health := rfl
@[simp] theorem State.updSpool_store (s : State) (f : Spool → Spool) : (s.updSpool f).store = s.store := rfl
@[simp] theorem State.updSpool_hcfg (s : State) (f : Spool → Spool) : (s.updSpool f).hcfg = s.hcfg := rfl
@[simp] theorem State.updSpool_agingPaused (s : State) (f : Spool → Spool) : (s.updSpool f).agingPaused = s.agingPaused := rfl
@[simp] theorem State.updSpool_sel (s : State) (f : Spool → Spool) : (s.updSpool f).sel = s.sel := rfl
@[simp] theorem State.updSpool_safe (s : State) (f : Spool → Spool) : (s.updSpool f).safe = s.safe := rfl
@[simp] theorem State.updSpool_safeTile (s : State) (f : Spool → Spool) : (s.updSpool f).safeTile = s.safeTile := rfl
@[simp] theorem State.updSpool_hk (s : State) (f : Spool → Spool) : (s.updSpool f).hk = s.hk := rfl
@[simp] theorem State.updSpool_pwr (s : State) (f : Spool → Spool) : (s.updSpool f).pwr = s.pwr := rfl
@[simp] theorem State.updSpool_host (s : State) (f : Spool → Spool) : (s.updSpool f).host = s.host := rfl
@[simp] theorem State.updSpool_crc (s : State) (f : Spool → Spool) : (s.updSpool f).crc = s.crc := rfl
@[simp] theorem State.updSpool_debugPort (s : State) (f : Spool → Spool) : (s.updSpool f).debugPort = s.debugPort := rfl
@[simp] theorem State.updSpool_wakeDue (s : State) (f : Spool → Spool) : (s.updSpool f).wakeDue = s.wakeDue := rfl
@[simp] theorem State.updSpool_rdata (s : State) (f : Spool → Spool) : (s.updSpool f).rdata = s.rdata := rfl
@[simp] theorem State.updSpool_reg (s : State) (f : Spool → Spool) (o : Nat) : (s.updSpool f).reg o = s.reg o := rfl
@[simp] theorem State.updSpool_regN (s : State) (f : Spool → Spool) (o : Nat) : (s.updSpool f).regN o = s.regN o := rfl
@[simp] theorem State.updSpool_getF (s : State) (f : Spool → Spool) (fd : Fld) : (s.updSpool f).getF fd = s.getF fd := rfl
@[simp] theorem State.updSpool_isF (s : State) (f : Spool → Spool) (fd : Fld) : (s.updSpool f).isF fd = s.isF fd := rfl
@[simp] theorem State.updSpool_byte (s : State) (f : Spool → Spool) (x : Nat) : (s.updSpool f).byte x = s.byte x := rfl

/-! ### Reads after writes -/

@[simp] theorem State.reg_setReg (s : State) (a b : Nat) (v : Word) : (s.setReg a v).reg b = if b = a then v else s.reg b := by
  unfold State.reg State.setReg; exact tabGet_tabSet ..

theorem State.byte_setByte (s : State) (a x : Nat) (v : Byte) : (s.setByte a v).byte x = if x = a then v else s.byte x := by
  unfold State.byte State.setByte; exact tabGet_tabSet ..

@[simp] theorem State.eng_setEng (s : State) (n k : Nat) (e : Engine) : (s.setEng n e).eng k = if k = n then e else s.eng k := by
  unfold State.eng State.setEng; exact tabGet_tabSet ..

@[simp] theorem State.tgOf_setTg (s : State) (n k : Nat) (g : Tg) : (s.setTg n g).tgOf k = if k = n then g else s.tgOf k := by
  unfold State.tgOf State.setTg; exact tabGet_tabSet ..

@[simp] theorem State.portOf_setPort (s : State) (n k : Nat) (p : Port) :
    (s.setPort n p).portOf k = if k = n then p else s.portOf k := by
  unfold State.portOf State.setPort; exact tabGet_tabSet ..

@[simp] theorem State.hl_setHl (s : State) (n k : Nat) (h : HealthT) : (s.setHl n h).hl k = if k = n then h else s.hl k := by
  unfold State.hl State.setHl; exact tabGet_tabSet ..

@[simp] theorem State.safeT_setSafeT (s : State) (n k : Nat) (t : SafeTile) :
    (s.setSafeT n t).safeT k = if k = n then t else s.safeT k := by
  unfold State.safeT State.setSafeT; exact tabGet_tabSet ..

@[simp] theorem State.setReg_eng (s : State) (o : Nat) (v : Word) (k : Nat) : (s.setReg o v).eng k = s.eng k := rfl
@[simp] theorem State.setReg_tgOf (s : State) (o : Nat) (v : Word) (k : Nat) : (s.setReg o v).tgOf k = s.tgOf k := rfl
@[simp] theorem State.setReg_portOf (s : State) (o : Nat) (v : Word) (k : Nat) : (s.setReg o v).portOf k = s.portOf k := rfl
@[simp] theorem State.setReg_hl (s : State) (o : Nat) (v : Word) (k : Nat) : (s.setReg o v).hl k = s.hl k := rfl
@[simp] theorem State.setReg_safeT (s : State) (o : Nat) (v : Word) (k : Nat) : (s.setReg o v).safeT k = s.safeT k := rfl

end Sys2Proof.Machine
end

