-- ==== Sys2Proof/Laws/Regs.lean ====
section
/-! SUPPORT. Registers and fields: what a read finds after a write, and which registers the shared operations leave alone. -/

namespace Sys2Proof.Machine

theorem bitsOf_lt (v lo w : Nat) : bitsOf v lo w < 2 ^ w := Nat.mod_lt _ (Nat.two_pow_pos w)

theorem State.reg_setRegN (s : State) (a b v : Nat) :
    (s.setRegN a v).reg b = if b = a then BitVec.ofNat 32 v else s.reg b := State.reg_setReg ..

@[simp] theorem State.regN_setReg (s : State) (a b : Nat) (v : Word) :
    (s.setReg a v).regN b = if b = a then v.toNat else s.regN b := by
  simp only [State.regN, State.reg_setReg]; split <;> rfl

@[simp] theorem State.regN_setRegN (s : State) (a b v : Nat) :
    (s.setRegN a v).regN b = if b = a then v % 2 ^ 32 else s.regN b := by
  simp only [State.setRegN, State.regN_setReg, BitVec.toNat_ofNat]

theorem State.regN_lt (s : State) (a : Nat) : s.regN a < 2 ^ 32 := (s.reg a).isLt

/-- The field written reads the value, modulo its width. -/
theorem bitsOf_putBits (v lo w n : Nat) : bitsOf (putBits v lo w n) lo w = n % 2 ^ w := by
  have h : putBits v lo w n = v % 2 ^ lo + 2 ^ lo * (n % 2 ^ w + 2 ^ w * (v / 2 ^ (lo + w))) := by
    simp only [putBits, Nat.pow_add]; ring
  rw [bitsOf, h, Nat.add_mul_div_left _ _ (Nat.two_pow_pos lo), Nat.div_eq_of_lt (Nat.mod_lt _ (Nat.two_pow_pos lo)), Nat.zero_add,
    Nat.add_mul_mod_self_left, Nat.mod_mod]

/-- Another field of the register, below or above, keeps its value. -/
theorem bitsOf_putBits_below (v lo w n lo' w' : Nat) (h : lo' + w' ≤ lo) : bitsOf (putBits v lo w n) lo' w' = bitsOf v lo' w' := by
  have e : ∀ x : Nat, bitsOf x lo' w' = bitsOf (x % 2 ^ lo) lo' w' := by
    intro x
    have hd : 2 ^ lo = 2 ^ lo' * 2 ^ (lo - lo') := by rw [← Nat.pow_add]; congr 1; omega
    rw [bitsOf, bitsOf, hd, Nat.mod_mul_right_div_self]
    exact (Nat.mod_mod_of_dvd _ (Nat.pow_dvd_pow 2 (by omega))).symm
  rw [e, e v]
  congr 1
  have : putBits v lo w n = v % 2 ^ lo + 2 ^ lo * (n % 2 ^ w + 2 ^ w * (v / 2 ^ (lo + w))) := by
    simp only [putBits, Nat.pow_add]; ring
  rw [this, Nat.add_mul_mod_self_left, Nat.mod_mod]

theorem bitsOf_putBits_above (v lo w n lo' w' : Nat) (h : lo + w ≤ lo') : bitsOf (putBits v lo w n) lo' w' = bitsOf v lo' w' := by
  have e : ∀ x : Nat, bitsOf x lo' w' = bitsOf (x / 2 ^ (lo + w)) (lo' - (lo + w)) w' := by
    intro x
    simp only [bitsOf]
    rw [Nat.div_div_eq_div_mul, ← Nat.pow_add]
    congr 3; omega
  rw [e, e v]
  congr 1
  have hb : v % 2 ^ lo + n % 2 ^ w * 2 ^ lo < 2 ^ (lo + w) := by
    have h1 := Nat.mod_lt v (Nat.two_pow_pos lo)
    have h2 := Nat.mod_lt n (Nat.two_pow_pos w)
    calc v % 2 ^ lo + n % 2 ^ w * 2 ^ lo < 2 ^ lo + n % 2 ^ w * 2 ^ lo := by omega
      _ = (n % 2 ^ w + 1) * 2 ^ lo := by ring
      _ ≤ 2 ^ w * 2 ^ lo := Nat.mul_le_mul_right _ h2
      _ = 2 ^ (lo + w) := by rw [Nat.pow_add, Nat.mul_comm]
  rw [putBits, Nat.add_mul_div_right _ _ (Nat.two_pow_pos _), Nat.div_eq_of_lt hb, Nat.zero_add]

theorem putBits_lt {v lo w n : Nat} (h : lo + w ≤ 32) (hv : v < 2 ^ 32) : putBits v lo w n < 2 ^ 32 := by
  have hb : v % 2 ^ lo + n % 2 ^ w * 2 ^ lo < 2 ^ (lo + w) := by
    have h1 := Nat.mod_lt v (Nat.two_pow_pos lo)
    have h2 := Nat.mod_lt n (Nat.two_pow_pos w)
    calc v % 2 ^ lo + n % 2 ^ w * 2 ^ lo < 2 ^ lo + n % 2 ^ w * 2 ^ lo := by omega
      _ = (n % 2 ^ w + 1) * 2 ^ lo := by ring
      _ ≤ 2 ^ w * 2 ^ lo := Nat.mul_le_mul_right _ h2
      _ = 2 ^ (lo + w) := by rw [Nat.pow_add, Nat.mul_comm]
  have hq : v / 2 ^ (lo + w) < 2 ^ (32 - (lo + w)) :=
    Nat.div_lt_of_lt_mul (by rw [← Nat.pow_add, Nat.add_sub_cancel' h]; exact hv)
  calc putBits v lo w n < 2 ^ (lo + w) + v / 2 ^ (lo + w) * 2 ^ (lo + w) := by unfold putBits; omega
    _ = (v / 2 ^ (lo + w) + 1) * 2 ^ (lo + w) := by ring
    _ ≤ 2 ^ (32 - (lo + w)) * 2 ^ (lo + w) := Nat.mul_le_mul_right _ hq
    _ = 2 ^ 32 := by rw [← Nat.pow_add, Nat.sub_add_cancel h]

theorem State.regN_setF (s : State) (f : Fld) (n b : Nat) (h : f.lo + f.w ≤ 32) :
    (s.setF f n).regN b = if b = f.off then putBits (s.regN f.off) f.lo f.w n else s.regN b := by
  rw [State.setF, State.regN_setRegN, Nat.mod_eq_of_lt (putBits_lt h (s.regN_lt _))]

/-- A field reads the value written to it. -/
theorem State.getF_setF (s : State) (f : Fld) (n : Nat) (h : f.lo + f.w ≤ 32) : (s.setF f n).getF f = n % 2 ^ f.w := by
  rw [State.getF, State.regN_setF _ _ _ _ h, if_pos rfl, bitsOf_putBits]

/-- A field of another register, or other bits of the same one, are unchanged. -/
theorem State.getF_setF_other (s : State) (f g : Fld) (n : Nat) (h : f.lo + f.w ≤ 32)
    (k : g.off ≠ f.off ∨ g.lo + g.w ≤ f.lo ∨ f.lo + f.w ≤ g.lo) : (s.setF f n).getF g = s.getF g := by
  rw [State.getF, State.regN_setF _ _ _ _ h]
  split
  · next e =>
    rcases k with k | k | k
    · exact absurd e k
    · rw [bitsOf_putBits_below _ _ _ _ _ _ k, State.getF, e]
    · rw [bitsOf_putBits_above _ _ _ _ _ _ k, State.getF, e]
  · rfl

@[simp] theorem State.reg_setF (s : State) (f : Fld) (n b : Nat) :
    (s.setF f n).reg b = if b = f.off then BitVec.ofNat 32 (putBits (s.regN f.off) f.lo f.w n) else s.reg b :=
  State.reg_setReg ..

/-- A register of which two states agree gives both the same fields. -/
theorem State.getF_congr {s t : State} {f : Fld} (h : t.reg f.off = s.reg f.off) : t.getF f = s.getF f := by
  simp only [State.getF, State.regN, h]

theorem State.isF_congr {s t : State} {f : Fld} (h : t.reg f.off = s.reg f.off) : t.isF f = s.isF f := by
  simp only [State.isF, State.getF_congr h]

/-! ### What posting an event leaves alone -/

theorem Quiet.refl (l : List Nat) (s : State) : Quiet l s s := ⟨rfl, fun _ _ _ => rfl⟩

theorem Quiet.trans {l : List Nat} {s t u : State} (h : Quiet l s t) (k : Quiet l t u) : Quiet l s u := by
  obtain ⟨h1, h2⟩ := h
  obtain ⟨k1, k2⟩ := k
  refine ⟨?_, fun o a b => (k2 o a b).trans (h2 o a b)⟩
  rw [h1] at k1
  exact k1

theorem Quiet.mono {l m : List Nat} {s t : State} (h : Quiet l s t) (k : ∀ o ∈ l, o ∈ m) : Quiet m s t :=
  ⟨h.rest, fun o a b => h.regs o (fun c => a (k o c)) b⟩

theorem Quiet.setReg {l : List Nat} {s u : State} {o : Nat} {v : Word} (h : Quiet l s u) (k : o ∈ l ∨ o ∈ evRegs) :
    Quiet l s (u.setReg o v) := by
  refine h.trans ⟨rfl, fun x a b => ?_⟩
  rw [State.reg_setReg, if_neg]
  rintro rfl
  exact k.elim a b

theorem Quiet.setRegN {l : List Nat} {s u : State} {o v : Nat} (h : Quiet l s u) (k : o ∈ l ∨ o ∈ evRegs) :
    Quiet l s (u.setRegN o v) := h.setReg k

theorem Quiet.setF {l : List Nat} {s u : State} {f : Fld} {n : Nat} (h : Quiet l s u) (k : f.off ∈ l ∨ f.off ∈ evRegs) :
    Quiet l s (u.setF f n) := h.setReg k

theorem Quiet.setB {l : List Nat} {s u : State} {f : Fld} {b : Bool} (h : Quiet l s u) (k : f.off ∈ l ∨ f.off ∈ evRegs) :
    Quiet l s (u.setB f b) := h.setReg k

theorem Quiet.bumpBy {l : List Nat} {s u : State} {o n : Nat} (h : Quiet l s u) (k : o ∈ l ∨ o ∈ evRegs) :
    Quiet l s (u.bumpBy o n) := h.setReg k

theorem Quiet.bump {l : List Nat} {s u : State} {o : Nat} (h : Quiet l s u) (k : o ∈ l ∨ o ∈ evRegs) : Quiet l s (u.bump o) :=
  h.setReg k

theorem Quiet.bumpF {l : List Nat} {s u : State} {f : Fld} {n : Nat} (h : Quiet l s u) (k : f.off ∈ l ∨ f.off ∈ evRegs) :
    Quiet l s (u.bumpF f n) := h.setReg k

theorem Quiet.raise {l : List Nat} {s u : State} {f : Fld} {c : Nat} (h : Quiet l s u) (k : f.off ∈ l ∨ f.off ∈ evRegs)
    (k' : c ∈ l ∨ c ∈ evRegs) : Quiet l s (u.raise f c) := (h.setF k).bump k'

theorem Quiet.setPair {l : List Nat} {s u : State} {a b v : Nat} (h : Quiet l s u) (k : a ∈ l ∨ a ∈ evRegs)
    (k' : b ∈ l ∨ b ∈ evRegs) : Quiet l s (u.setPair a b v) := (h.setReg k).setReg k'

theorem Quiet.ite {l : List Nat} {s a b : State} {c : Prop} [Decidable c] (h : c → Quiet l s a) (k : ¬c → Quiet l s b) :
    Quiet l s (if c then a else b) := by split <;> simp_all

/-- An update of the parts that events use. -/
theorem Quiet.parts {l : List Nat} {s u : State} {h : Hamper} {p : Spool} {w : List Nat} {po : List (Nat × Nat)} {b : List Ev}
    (q : Quiet l s u) :
    Quiet l s { u with hamper := h, spool := p, wakeDue := w, posted := po, boot := { u.boot with held := b } } :=
  q.trans ⟨rfl, fun _ _ _ => rfl⟩

theorem Quiet.hamper {l : List Nat} {s u : State} {h : Hamper} (q : Quiet l s u) : Quiet l s { u with hamper := h } :=
  q.trans ⟨rfl, fun _ _ _ => rfl⟩

theorem Quiet.spool {l : List Nat} {s u : State} {h : Spool} (q : Quiet l s u) : Quiet l s { u with spool := h } :=
  q.trans ⟨rfl, fun _ _ _ => rfl⟩

theorem Quiet.spoolPut {l : List Nat} {s u : State} {k f c : Nat} {p : List Byte} (q : Quiet l s u) :
    Quiet l s (u.spoolPut k f c p) := by
  unfold State.spoolPut
  exact .ite (fun _ => q) fun _ => .ite (fun _ => q.bump (.inr (by decide))) fun _ =>
    .ite (fun _ => q.spool.bump (.inr (by decide))) fun _ =>
      .ite (fun _ => (Quiet.spool (Quiet.spool q.spool)).setF (.inr (by decide))) (fun _ => Quiet.spool q.spool)

theorem Quiet.noteLoss {l : List Nat} {s u : State} {p : Nat} (q : Quiet l s u) : Quiet l s (u.noteLoss p) := by
  have h1 : Quiet l s { ((u.setF fMSG_EVT_FLAGS_DROP 1).bump rMSG_EVT_DROP_COUNT) with
      hamper := { ((u.setF fMSG_EVT_FLAGS_DROP 1).bump rMSG_EVT_DROP_COUNT).hamper with
        dropSinceAlarm := true, losses := ((u.setF fMSG_EVT_FLAGS_DROP 1).bump rMSG_EVT_DROP_COUNT).hamper.losses + 1 } } :=
    ((q.setF (.inr (by decide))).bump (.inr (by decide))).hamper
  unfold State.noteLoss
  dsimp only
  split
  · exact h1.hamper
  · exact Quiet.spoolPut (Quiet.hamper (h1.setRegN (.inr (by decide))))

theorem Quiet.wakeNote {l : List Nat} {s u : State} {k : Nat} (q : Quiet l s u) : Quiet l s (u.wakeNote k) := by
  unfold State.wakeNote
  exact .ite (fun _ => q) (fun _ => q.trans ⟨rfl, fun _ _ _ => rfl⟩)

theorem Quiet.boxPut {l : List Nat} {s u : State} {e : Ev} (q : Quiet l s u) : Quiet l s (u.boxPut e) := by
  unfold State.boxPut
  exact .ite (fun _ => (Quiet.hamper q.hamper).setF (.inr (by decide))) (fun _ => q.hamper)

/-- The event priorities are 0 to 3 (R339). -/
theorem Quiet.offer {l : List Nat} {s u : State} {e : Ev} (q : Quiet l s u) (h : e.kind.prio < 4) : Quiet l s (u.offer e) := by
  have hp : rMSG_EVT_DROP e.kind.prio ∈ evRegs := by
    obtain h | h | h | h : e.kind.prio = 0 ∨ e.kind.prio = 1 ∨ e.kind.prio = 2 ∨ e.kind.prio = 3 := by omega
    all_goals rw [h]; decide
  have h1 : Quiet l s (if e.kind.prio ≤ 1 then u.wakeNote 9 else u) := .ite (fun _ => q.wakeNote) (fun _ => q)
  unfold State.offer
  exact .ite (fun _ => h1.boxPut) (fun _ => (h1.bump (.inr hp)).noteLoss)

/-- Posting an event changes the event queue and its registers, and nothing else. -/
theorem Quiet.post {l : List Nat} {s u : State} {k : EvKind} {c d : Nat} (q : Quiet l s u) (h : k.prio < 4) :
    Quiet l s (u.post k c d) := by
  unfold State.post
  exact .ite (fun _ => q.offer h) (fun _ => q.trans ⟨rfl, fun _ _ _ => rfl⟩)

theorem Quiet.notePost {l : List Nat} {s u : State} {k v : Nat} (q : Quiet l s u) : Quiet l s (u.notePost k v) :=
  q.trans ⟨rfl, fun _ _ _ => rfl⟩

theorem Quiet.postOnce {l : List Nat} {s u : State} {k : EvKind} {w z c d : Nat} (q : Quiet l s u) (h : k.prio < 4) :
    Quiet l s (u.postOnce k w z c d) := by
  unfold State.postOnce
  exact .ite (fun _ => q) (fun _ => q.notePost.post h)

theorem Quiet.postGap {l : List Nat} {s u : State} {k : EvKind} {w z c d : Nat} (q : Quiet l s u) (h : k.prio < 4) :
    Quiet l s (u.postGap k w z c d) := by
  unfold State.postGap
  exact .ite (fun _ => q.notePost.post h) (fun _ => q)

/-- The field that a quiet change leaves alone. -/
theorem Quiet.getF {l : List Nat} {s t : State} (q : Quiet l s t) (f : Fld) (h : f.off ∉ l) (k : f.off ∉ evRegs) :
    t.getF f = s.getF f := State.getF_congr (q.regs _ h k)

theorem Quiet.mem_eq {l : List Nat} {s t : State} (q : Quiet l s t) : t.mem = s.mem := by rw [q.rest]

end Sys2Proof.Machine
end

