-- ==== Sys2Proof/WellFormed.lean ====
section
/-! DEFINITION. Well-formed commands: operands inside what the spec lets the sender give. The meanings are total, so a command that is
not well formed still has one; no sender that keeps to the spec sends it. -/

namespace Sys2Proof

/-- Opcodes that rows of their own name (R109, R336), and the diagnostics and program groups. -/
def namedOpcode (op : Nat) : Bool :=
  op ∈ [0x01, 0x02, 0x04, 0x10, 0x11] || (decide (0x40 ≤ op) && decide (op ≤ 0x49)) || op == 0x50 || op == 0x51
    || (decide (0x80 ≤ op) && decide (op < 0xE0))

/-- Opcodes of the supplied programs, less 0x80 (R109). -/
def suppliedOpcode (op : Nat) : Bool := op ∈ [0x00, 0x08, 0x09, 0x10, 0x18, 0x20]

/-- SPI command bytes (R331). -/
def spiCommand (c : Nat) : Bool := c ∈ [0x02, 0x12, 0x03, 0x13, 0x20, 0x21]

/-- LENGTH has 16 bits (R333). -/
def RecIn.wf (r : RecIn) : Bool := decide (r.payload.length < 65536)

/-- N is 1 to 512 (R331). -/
def spiWordsOk (ws : List Word) : Bool := decide (1 ≤ ws.length) && decide (ws.length ≤ 512)

/-- A frame holds its two addresses and its type (R325). -/
def EthIn.wf (f : EthIn) : Bool := decide (14 ≤ f.frame.length)

/-- A CAN identifier of 11 or 29 bits and at most 64 data bytes (R329). -/
def CanRx.wf : CanRx → Bool
  | .frame id b => decide (id.id < if id.ext then 2 ^ 29 else 2 ^ 11) && decide (b.length ≤ 64)
  | .error _ => true

/-- The checks, command by command; a command not named has operands whose types admit only what the spec does. -/
def Instr.wf : Instr → Bool
  | .flip _ r | .fenceSignal _ r | .schedWrite _ r | .pose _ r | .objectList _ r | .maskParam _ r | .symbolSet _ r
  | .symbolClear _ r | .patternSet _ r | .agingCtrl _ r | .healthCfg _ r | .ping _ r | .stateReq _ r | .regRead _ r
  | .regWrite _ r | .holvoStageData _ r | .holvoUpdateCmd _ r | .evtStream _ r | .spoolCmd _ r | .spoolRead _ r
  | .sakInstall _ r | .pwrRequest _ r | .healthCmd _ r | .diagnostics _ _ r => r.wf
  | .unknownOpcode _ op r => r.wf && !namedOpcode op.toNat
  | .programCommand _ op r => r.wf && !suppliedOpcode op
  | .spiWrite _ ws _ | .spiWriteFixed _ ws _ | .mboxWrite ws _ => spiWordsOk ws
  | .spiUnknownCommand c => !spiCommand c.toNat
  | .lampReq _ x => x.wf
  | .csiLongPacket _ _ _ _ p _ => decide (p.length < 65536)
  | .ethFrameRx _ f => f.wf
  | _ => true

end Sys2Proof
end

