-- ==== Sys2Proof/Tests/Slice0.lean ====
section
/-! SUPPORT. Tests: ill-formed commands that the check of WellFormed refuses, values from the spec's worked examples, and for every
statement of Certificates/Slice0 with hypotheses a state and operands that meet them together, clause by clause. -/

open Sys2Proof Sys2Proof.Machine

namespace Sys2Proof.Machine

set_option Elab.async false

/-! ### States -/

/-- Right after reset, with the core out of reset (R59). -/
def wRst : State := { State.reset with boot := { State.reset.boot with porst := true } }
/-- With the firmware started and the FRC running. -/
def wFw : State := { wRst with boot := { wRst.boot with fwStarted := true }, time := { wRst.time with frcRun := true } }
def wUrgent : State := wRst.setF (fCP_STATUS_URGENT 1) 1
def wNoTake : State := wFw.setF fMSG_EVT_CFG_AUTO_TAKEOVER 0
def wHi : State := { wFw with mc := { hi := 2 } }
def wLo : State := { wFw with mc := { lo := 2 } }
def wLocked : State := { wRst.setF fBSTREAM_STATUS_LOCKED 1 with loader := { lockmap := [(0x10, 2)] } }
def wSmall : State := { wRst with part := .sz1220 }
/-- A program of 16 instructions. -/
def wProg : BeprogC := { number := 9, image := List.replicate 16 0 }
def wEngine : Engine :=
  { sr := [(1, 5), (2, 0xFFFFFFF9), (4, 0x1000), (5, 0x100), (6, 0x1C000), (7, 0x10000)], pr := [(1, 0x0F0F00FF)], pc := 15,
    prog := some wProg, slots := [(0, true), (2, false)] }
/-- Engine 0 runs `g`. -/
def wRun (g : Engine) : State := (wRst.setF (fBE_STATUS_STATE 0) beRUN).setEng 0 g
def wEng : State := wRun wEngine
/-- `s` with the instruction of opcode `op` and fields `f` at engine 0's pc. -/
def wIssue (op : Nat) (f : KvF) (s : State) : State := s.setBytes (s.fetchAt 0) (leBytes 8 (kvWord op f))
def wPast : State := wRun { wEngine with pc := 16 }
/-- A DMA descriptor, a sampling descriptor and local data for engine 0. -/
def wDescB : List Byte :=
  leBytes 8 0x2000 ++ leBytes 8 0x100 ++ leBytes 2 64 ++ leBytes 2 3 ++ leBytes 4 128 ++ leBytes 4 64 ++ leBytes 4 0x52
def wSampB : List Byte := leBytes 4 0x1400 ++ leBytes 2 20 ++ leBytes 2 5 ++ leBytes 2 64 ++ [0, 0, 0, 0]
def wDma : State := wEng.setBytes (ldBase 0 + 0x1000) wDescB
def wSamp : State := wEng.setBytes (ldBase 0 + 0x100) wSampB
def wDesc : Desc := { src := 0x2000, dst := 0x100, width := 64, height := 3, srcStride := 128, dstStride := 64, toSys := false, sig := true, fence := 5 }
def wOut : Desc := { wDesc with toSys := true }
def wFull : State := wDma.setEng 0 { wEngine with ch0 := [wDesc, wDesc, wDesc, wDesc] }
def wWrites : State := wRun { wEngine with ch0 := [wOut] }
def wNoSlot : State := wRun { wEngine with slots := [(0, true)] }
def wWait (g : Engine) (w : KWait) : State := (wRst.setF (fBE_STATUS_STATE 0) beWAIT).setEng 0 { g with wait := w }
def wHalt : State := wWait wEngine .halt
def wRoom : State := wWait wEngine (.dmaq 0 wDesc)
def wDmaWait : State := wWait wEngine (.dmawait 3)
def wFsig : State := wWait wEngine (.fsig 4)
def wFwait : State := wWait wEngine (.fwait 3 0)
def wFwaitLate : State := wWait wEngine (.fwait 3 9)
def wMbrecv : State := wWait wEngine (.mbrecv 1)
def wIdle : State := wEng.setF (fBE_STATUS_STATE 0) beIDLE
/-- The BE clock is gated. -/
def wGated : State := (wEng.setF (fBE_STATUS_STATE 0) beLOADING).setF fPWR_PWR_STATUS_CURRENT 1
def wLoading : State := wEng.setF (fBE_STATUS_STATE 0) beLOADING
/-- Protected DRAM of 1 MiB. -/
def wDram (s : State) : State := { s with loader := { s.loader with cfg := { s.loader.cfg with bd := { wpMiB := 1 } } } }
def wChan : State := wDram (wRun { wEngine with ch0 := [wDesc] })
def wEvp : State := { wEng with boot := { wEng.boot with fwStarted := true } }
/-- `s` with fields set. -/
def State.withF (s : State) : List (Fld × Nat) → State
  | [] => s
  | (f, v) :: l => (s.setF f v).withF l
/-- `s` with registers set. -/
def State.withR (s : State) : List (Nat × Nat) → State
  | [] => s
  | (o, v) :: l => (s.setRegN o v).withR l
def wServo : State := wRst.withF [(fTIME_DOM_CFG_SERVO 0, 1)]
def wHold : State := wRst.withF [(fTIME_STATUS_HOLDOVER, 1)]
/-- Domain 0 active and valid, updated long ago; domain 1 updated now. -/
def wDoms : State :=
  { wRst.withF [(fTIME_DOM_CFG_VALID 0, 1), (fTIME_DOM_CFG_VALID 1, 1), (fTIME_CTRL_AUTO, 0)] with
    time := { now := 900000000, dom0 := { updated := some 0 }, dom1 := { updated := some 900000000 } } }
def wAuto : State := wDoms.withF [(fTIME_CTRL_AUTO, 1)]
def wStep : State := { wRst with time := { resid := residLimit + 1 } }
def wSlew : State := wRst.withF [(fTIME_STATUS_SLEWING, 1)]
def wGptpC : GptpC := ⟨0, 0, 1, 42⟩
def wGptpOf (g : GptpSt) : State :=
  { wFw with loader := { cfg := { ti := { gptp := [wGptpC] } } }, time := { wFw.time with gptp := [g, {}], pdelay := [some 0, none], pdelaySeq := [1, 0] } }
def wGptp : State := wGptpOf { good := 2 }
/-- Entry 0 holds EVENT_POST, ONCE, 1 ms ahead. -/
def wSched : State := wRst.withR [(rTIME_SCHED_ARG 0, 0x18001), (rTIME_SCHED_TARGET_LO 0, 1000000)]
def wSchedOn : State := wSched.withF [(fTIME_SCHED_CFG_EN 0, 1)]
def wSchedBad : State := wRst.withR [(rTIME_SCHED_ARG 0, 0xFFFFFFFF)]
def wSchedFar : State := wSched.withR [(rTIME_SCHED_TARGET_HI 0, 0x80)]
def wEntry (m a : Nat) (arg : Word) : SchedE := { mode := m, late := 0, action := a, arg := arg, period := 1000, lo := 0, target := 0 }
/-- Entry 0 is armed as `x`. -/
def wArmed (m a : Nat) (arg : Word) : State := wFw.setSched 0 (some (wEntry m a arg))
def wPost : State := wArmed 0 0 0x18001
def wPulse : State := wArmed 0 1 0x501
def wFire : State := (wArmed 0 2 3).withR [(rTIME_SLOT_GATE, 8)]
def wSweep : State := (wArmed 0 3 1).withF [(fTG_SENSE_CFG_EN 0, 0)]
def wConvert : State := (wArmed 0 4 1).withF [(fHK_ROUND_CFG_SCHED, 1)]
/-- A timing set that R191 accepts, direct and staged. -/
def wTim (s : State) : State := s.withR [
  (rTG_PERIOD_INT 0, 2083333), (rTG_PERIOD_FRAC 0, 0x10003), (rTG_DRIVE 0, 1900000), (rTG_GUARD 0, 130000), (rTG_LEAD 0, 800000),
  (rTG_STAGE_PERIOD_INT 0, 2083333), (rTG_STAGE_PERIOD_FRAC 0, 0x10003), (rTG_STAGE_DRIVE 0, 1900000), (rTG_STAGE_GUARD 0, 130000)]
def wPhase : State := wTim (wArmed 0 5 0)
def wWakeE : State := (wArmed 0 6 0).withF [(fBE_JOB_TRIG_SRC 0, 1), (fBE_STATUS_STATE 0, beIDLE)]
def wWakeP : State := (wArmed 0 7 0).withF [(fPWR_PWR_STATUS_TARGET, 0xF)]
def wWakeFar : State :=
  (wFw.setSched 0 (some { wEntry 0 7 0 with target := 1000000000000 })).withF [(fPWR_PWR_STATUS_CURRENT, 2)]
def wWakeS : State := (wArmed 0 7 0).withF [(fPWR_PWR_STATUS_CURRENT, 2)]
def wCap : State := wRst.withF [(fTIME_CAP_CFG_EN 0, 1), (fTIME_CAP_CFG_EDGE 0, 3)]
def wCapFull : State := { wCap with time := { capQ := [List.replicate 16 (true, 1), []] } }
def wCapOne : State := { wCap with time := { capQ := [[(true, 1)], []] } }
def wTrg : State := { wRst with time := { trgEnd := [some 0, none] } }
def wTrgOn : State := { wRst with time := { trgEnd := [some 1, none] } }
def wOtpBusy : State := wRst.withF [(fBSTREAM_OTP_STATUS_BUSY, 1)]
def wHot : State := wRst.withR [(rHK_DIE_TEMP_MAX, 1361)]
def wRevoke : State :=
  { wRst with otp := { keys := [some [], some [], none, none] }, loader := { revokePermit := true } }
def wBs (n : Nat) : State := wRst.withF [(fBSTREAM_STATUS_STATE, n)]
def wUpd (u : Nat) : State := wDram ((wBs bsRUNNING).withF [(fBSTREAM_UPDATE_STATUS_STATE, u)])
/-- A staging buffer of 1 MiB takes a package. -/
def wRecv : State :=
  let s := wUpd upRECEIVING
  { s with loader := { s.loader with cfg := { s.loader.cfg with st := { stagingMiB := 1 } } } }
def wPhase2 : State :=
  { (wBs bsVERIFY_ENV).withF [(fTOP_START_STATUS_DRAM_READY, 1)] with
    loader := { phase := 1 }, boot := { porst := true, phase := .started } }
def wBoot (b : Boot) : State := { wRst with boot := b }
def wDeep : State := wRst.withF [(fPWR_PWR_STATUS_CURRENT, 3)]
def wWaitPg : State := wBoot { phase := .waitPg }
def wPg3 : State := wBoot { phase := .waitPg, pgTries := 3 }
def wWaitFio : State := wBoot { phase := .waitFio, porst := true }
def wFio3 : State := wBoot { phase := .waitFio, porst := true, fioTries := 3 }
def wRefWarm : State := wBoot { phase := .waitRefclk, warm := true }
def wRefCold : State := wBoot { phase := .waitRefclk }
def wDegraded : State := wRst.withF [(fTOP_START_STATUS_DEGRADED_CLK, 1)]
def wStepR : RailStep := ⟨1, 10, 100⟩
def wBoard (s : State) : State := { s with loader := { cfg := { bd := { rails := [wStepR, wStepR] } } } }
def wPmic : State := wBoard (wBoot { phase := .waitPmic })
def wRail0 : State := wBoard (wBoot { phase := .rails })
def wRail1 : State := wBoard (wBoot { phase := .rails, railStep := 1 })
def wRefOk : State := wBoot { refclk := true }
def wPll1 : State := (wBoot { refclk := true, pllTries := [1, 1, 1, 1, 1, 1] }).withF [(fPWR_PWR_STATUS_CURRENT, 0)]
def wTest (k : Nat) (sc tt : Bool) : State :=
  wBoot { fwStarted := true, porst := true, scPass := sc, ttPass := tt, scRun := true, ttRun := true, swStep := [k, k, k, k] }
def wFbEn : State := { wTest 4 true true with safeTile := [(0, { hs := true, ls := true, hsFb := true, lsFb := true, hsFbT := true, lsFbT := true })] }
def wFbLate : State := (wTest 4 true true).withF [(fTOP_START_TIMES_FB_TIME, 451)]
def wFullLate : State :=
  { (wTest 4 true true).withF [(fTOP_START_TIMES_FULL_TIME, 0xFFFF)] with port := [(0, { fbPin := true })] }
def wTrain (k : Nat) : State :=
  { wBs bsVERIFY_ENV with boot := { fwStarted := true, refclk := true, pll := [true, true, true, true, false, true], dramTries := k } }
def wReady : State :=
  { wRst.withF [(fBSTREAM_STATUS_STATE, bsRUNNING), (fZTL_STATUS_STATE 0, zACTIVE), (fZTL_STATUS_CAPS_ACCEPTED 0, 1), (fTOP_START_STATUS_DRAM_READY, 1)] with
    boot := { mapOk := [true, false, false, false], pll := [true, true, true, true, false, true] } }
def wCaps (crc : Nat) : Caps := ⟨0, 0, 0, false, false, 1, 0, 0, 0, 0, 0, 0, 0, 0, 0, 4, crc, 0, 0⟩
def wMap (crc : Nat) : State :=
  { wRst.withF [(fTOP_START_STATUS_DRAM_READY, 1)] with port := [(0, { caps := some (wCaps crc), mapRead := true })] }
def wPw (cur tgt ph : Nat) : State :=
  { wRst.withF [(fPWR_PWR_STATUS_CURRENT, cur), (fPWR_PWR_STATUS_TARGET, tgt), (fPWR_PWR_STATUS_PHASE, ph),
      (fPWR_PWR_STATUS_PENDING, pwNONE), (fBSTREAM_STATUS_STATE, bsRUNNING), (fPWR_PWR_CFG_AUTO_DEEP, 1)] with boot := { porst := true } }
def wRun0 : State := wPw pwRUN pwNONE 0
def wLitOn : State := wRun0.withF [(fTG_STATUS_STATE 0, tgRUNNING)]
def wIdleNo : State := wRun0.withF [(fTG_STATUS_STATE 0, tgRUNNING), (fMSG_LAYER_CFG_VALID 0, 1), (fMSG_LAYER_CFG_PERIODIC 0, 1)]
def wToSleep (ph : Nat) : State := wPw pwRUN pwSLEEP ph
def wConsent : State := { wToSleep 3 with safe := { consent := some 0 } }
def wNoGrant : State := { wToSleep 3 with safe := { consent := some 0 }, safeTile := [(0, { hs := true })] }
def wAbort : State := { wToSleep 4 with pwr := { wake := some 1 } }
def wToOff (ph : Nat) : State := wPw pwRUN pwOFF ph
def wToIdle : State := wPw pwRUN pwIDLE 1
def wExit : State := wPw pwSLEEP pwRUN 1
def wTimer : State := { wRst.withF [(fPWR_PWR_STATUS_CURRENT, pwDEEP)] with pwr := { timer := some 5 } }
def wWarm : State := { wBoot { warm := true, phase := .waitPmic } with mem := [(retBase + 24, 0)] }
def wRate : State := { wRun0 with time := { frcRun := true } }
def wFlip : State := (wDram wRst).withF [(fMSG_LAYER_CFG_VALID 0, 1)]
def wFlipOk : State := wFlip.withR [(rMSG_FLIP_ORDER 0, 8)]
def wTgOn : State := wRst.withF [(fTG_STATUS_STATE 0, tgRUNNING)]
def wRaw : State := (wDram wRst).withF [(fMSG_LAYER_CFG_RAW_EN 0, 1), (fMSG_LAYER_STATUS_NEVER_FLIPPED 0, 0)]
def wX : Xfer := { frame := 7 }
def wXfer (x : Xfer) : State := { wTgOn with tg := [(0, { xfer := some x })] }
def wCsi (c : CapW) : State :=
  { (wDram wRst).withF [(fHOSTIF_CSI_CFG_EN 0, 1), (fHOSTIF_CAPW_CFG_EN 0, 1), (fHOSTIF_CAPW_CFG_DT 0, 0x2A),
      (fHOSTIF_CAPW_GEOM_STRIDE 0, 1), (fHOSTIF_CAPW_GEOM_HEIGHT 0, 2)] with comp := { capw := [(0, c)] } }
/-- A flip that waits names the writer's first buffer. -/
def wCsiUse : State :=
  { wCsi {} with comp := { capw := [(0, {})], pend := [(0, { mask := 1, descs := [(0, [])], order := 0, fence := none, target := 0, seq := 0 })] } }
def wUpdS (u : Nat) : State := (wDram wRst).withF [(fPRESS_UPD_STATUS_STATE 0, u)]
def wUpdQ : State := (wUpdS updPENDING).withR [(rPRESS_SWEEP 0, 0)]
def wFilling : State := wRst.withF [(fPRESS_UPD_STATUS_STATE 0, updFILLING)]
def wRecS (k : Nat) : State := wRst.withF [(fREC_CFG_EN, 1), (fREC_STATUS_STATE, k)]
/-- Tile 0 is up. -/
def wUp (s : State) : State := s.withF [(fZTL_STATUS_STATE 0, zACTIVE), (fZTL_STATUS_CAPS_ACCEPTED 0, 1)]
def wStart : State := wTim (wUp wRst)
def wSpares : State := { wStart with port := [(0, { caps := some { wCaps 0 with spares := true } })] }
def wTgS (k : Nat) (g : Tg) : State := { wTim (wRst.withF [(fTG_STATUS_STATE 0, k)]) with tg := [(0, g)] }
def wSwap : State := wTgS tgRUNNING { e := 2083333 }
def wStop : State := wTgS tgRUNNING { stop := true }
def wSlot : State := (wTgS tgRUNNING { fire := [(1, 2)] }).withF [(fTG_SLOT_POS_EN 0 1, 1)]
def wSense : State := (wTgS tgRUNNING { torn := true }).withF [(fTG_SENSE_CFG_EN 0, 1), (fTG_SENSE_CFG_T_SENSE 0, 50)]
def wNoSense : State := (wTgS tgRUNNING {}).withF [(fTG_SENSE_CFG_EN 0, 1), (fTG_SENSE_CFG_T_SENSE 0, 200)]
def wZ (k : Nat) : State := wRst.withF [(fZTL_STATUS_STATE 0, k)]
def wZp (k : Nat) (p : Port) : State := { wZ k with port := [(0, p)] }
def wTrained : State := wZp zTRAIN { trained := 7 }
def wLock : State := wZp zLOCK { trained := 7 }
def wCalDone : Cal := { lane := 0, oks := List.replicate 63 true, phase := 63, first := some (31, 64) }
def wCalFail : Cal := { lane := 0, oks := List.replicate 63 false, phase := 63 }
def wCal (c : Cal) : State := (wZp zTRAIN { cals := [c] }).withF [(fZTL_RECAL_CFG_MIN_EYE 0, 20), (⟨rZTL_LANE_CFG 0, 8, 6⟩, 0x24)]
def wAct (p : Port) : State :=
  { wRst.withF [(fZTL_STATUS_STATE 0, zACTIVE), (fZTL_LANE_MAP_STRIPE0 0, 0), (fZTL_LANE_MAP_STRIPE1 0, 1),
      (fZTL_LANE_MAP_SPARE 0, 2), (⟨rZTL_LANE_CFG 0, 8, 6⟩, 0x24), (fZTL_RECAL_CFG_EN 0, 1), (fZTL_LANE_MAP_FAILED 0, 1)] with
    port := [(0, p)] }
/-- `s` with the back lane of port 0 in lock, and the line bits of the control word of type `t` with P[55:8] = `p`. -/
def wBk (s : State) : State := s.updPort 0 (fun p => { p with bk := { p.bk with lock := true } })
def wLine (t : Nat) (p : BitVec 48) : BkBits := ⟨lineBits (lineWord true (scramble 0 (ctlWord t (256 * p.toNat))).1 false)⟩
def wSaid (t : Nat) (p : BitVec 48) (s : State) : State := ((wBk s).bkTake 0 (wLine t p).bits).2
def wRot : State := wAct { rot := 2 }
def wStale : State := (wAct {}).withF [(fZTL_STATUS_BACK_STALE 0, 1)]
def wNoRecal : State := wRst.withF [(fZTL_RECAL_CFG_EN 0, 0)]
/-- A back-lane block of `kind` with its count and CRC right; `low` are the header's other bits. -/
def wBlk (kind low : Nat) (ws : List (BitVec 64)) : BlockIn :=
  ⟨BitVec.ofNat 48 (kind * 2 ^ 44 + ws.length * 2 ^ 24 + low), ws, BitVec.ofNat 32 (crc32c (ws.flatMap (fun w => leBytes 8 w.toNat)))⟩
/-- A capability record without spares that R262 accepts. -/
def wCapsW : List (BitVec 64) := [0x1005041435A, 0, 1, 0x0001000002000200, 0x0001000000000000, 0x0101, 0, 0x0020000000000000,
  0x0001000000000000, 0, 0, 0, 0, 0, 0, 0]
def wZCaps : State :=
  { wZ zCAPS with loader := { cfg := { bd := { tileTypes := [[{ vendor := 0, typ := 0, spares := false }]] } } } }
def wChal : State := (wAct { chal := some [1] }).withF [(fZTL_STATUS_TILE_ABSENT 0, 1)]
def wSelUp : State := { wUp wRst with port := [(0, { caps := some { wCaps 0 with spares := true } })] }
def wAckP (code addr : Nat) : BitVec 48 := BitVec.ofNat 48 (code * 2 ^ 40 + addr * 2 ^ 24)
def wTregW : State := wAct { treg := some (4, true) }
def wTregR : State := wAct { treg := some (4, false) }
def wFbCmd : State := wAct { fbCmd := true, fbWait := true }
def wAcks : State := wAct { acks := [3] }
def wSenseX : SenseIn := { frame := 0, chunk := 0, kind := 0, sweep := 0 }
def wSenseS : State := { wAct {} with health := [(0, { await := some wSenseX })] }
def wNvB : State := (wAct { nvRead := some (lifeUnitB, 0x1000, 3, 0), nvQueue := [(0, 5000)] }).setF (fTG_STATUS_STATE 0) tgRUNNING
def wNvS : State := wAct { nvRead := some (lifeUnitA, 0x1000, 3, 0) }
def wLife : State :=
  { wUp wRst with port := [(0, { caps := some { wCaps 0 with nvMin := -40, nvMax := 125 } })], health := [(0, { lifeDue := 2 })], boot := { porst := true, mapOk := [true, false, false, false] } }
/-- The core runs and the firmware serves. -/
def wOn : State := { wFw with boot := { wFw.boot with porst := true } }
def wRec (payload : List Byte) : RecIn := { seq := 0, flags := 0, ref := 0, payload := payload }
def wLong : RecIn := wRec (List.replicate 2037 0)
def wBadCrc : RecIn := { wRec [] with crcOk := false }
def wSeq5 : RecIn := { wRec [] with seq := 5 }
def wFlags : RecIn := { wRec [] with flags := 4 }
def wFence : RecIn := wRec (leBytes 1 2 ++ leBytes 3 0 ++ leBytes 4 2)
def wFlipP : RecIn := wRec ([0, 0, 0xFF, 0] ++ leBytes 4 0 ++ leBytes 4 8 ++ leBytes 4 0)
def wFlipH : State := { wFlip with boot := wOn.boot }.withR [(rMSG_FLIP_MASTER, 1)]
def wSchedP (op : Nat) : RecIn := wRec ([0, BitVec.ofNat 8 op] ++ List.replicate 22 0)
def wUser : State :=
  { wOn.withF [(fBE_STATUS_STATE 2, beIDLE)] with
    loader := { cfg := { be := [(0, { number := 9, opcodes := [⟨0x80, 4, false⟩, ⟨0x10, 4, false⟩] })] } } }
def wNoFw : State := { wOn with boot := { wOn.boot with fwStarted := false } }
def wQueue : State := { wOn with host := { fwq := List.replicate 256 (0, ⟨0, 0, 0, 0, []⟩) } }
def wDiag : State := { wOn with loader := { cfg := { ho := { diagnostics := true } } } }
def wOnRun : State := wOn.withF [(fBSTREAM_STATUS_STATE, bsRUNNING)]
def wMail : State := { wOn with host := { mbox := [[], [], [], []], replies := [⟨0, 0, 0, 0, []⟩] } }
def wMac : Nat := 0x020000000001
def wEthOn (sec : Bool) : State :=
  { wOn.withF [(fHOSTIF_ETH_CFG_EN 0, 1), (fHOSTIF_ETH_STATUS_LINK 0, 1), (fHOSTIF_ETH_CFG_MAX_FRAME 0, 1518)] with
    loader := { cfg := { ho := {
      mac := [wMac, 2], ip := 0x0A000001, bench := true, udpPort := 4000, streamIds := [7], macsec := [sec, false], gpcMsgId := 5 } } } }
/-- An Ethernet frame to `dst` whose bytes from the EtherType on are `d`, padded to the least length (IEEE 802.3). -/
def wFrame (dst : Nat) (d : List Byte) : EthIn := { frame := padTo60 (beBytes 6 dst ++ beBytes 6 9 ++ d), fcsOk := true }
def wPing (ref : Nat) : List Byte := holvoBytes ⟨0, 0x40, 0, ref, []⟩
def wNtscf : EthIn := wFrame wMac (ntscfOut 7 5 0 (wPing 1))
def wUdp : EthIn := wFrame wMac (udpOut 0x0A000002 99 0x0A000001 4000 (wPing 1))
/-- An ARP request (operation 1) of 10.0.0.2 for 10.0.0.1, and an echo request (type 8). -/
def wArp : EthIn :=
  wFrame 0xFFFFFFFFFFFF (beBytes 2 0x0806 ++ beBytes 8 0x0001080006040001 ++ beBytes 6 9 ++ beBytes 4 0x0A000002 ++ beBytes 6 0 ++ beBytes 4 0x0A000001)
def wEcho : EthIn := wFrame wMac (ipOut 1 0x0A000002 0x0A000001 (beBytes 2 0x0800 ++ beBytes 2 0xF7FE ++ beBytes 2 0 ++ beBytes 2 1))
/-- To all addresses and no ARP. -/
def wAll : EthIn := wFrame 0xFFFFFFFFFFFF (ntscfOut 7 5 0 (wPing 1))
def wOther : EthIn := wFrame wMac (beBytes 2 0x88B5)
def wBadFcs : EthIn := { wNtscf with fcsOk := false }
/-- The SYS PLL locks last in a warm wake. -/
def wWarmLast : State := wBoot {
  refclk := true, fwStarted := true, scRun := true, ttRun := true, warmDue := true,
  pll := [false, true, true, true, false, true], resume := some bsRUNNING }
def wCan : State := { wOn with loader := { phase := 2 }, host := { can := [{ prev := some false }, {}] } }
def wLampReq : List Byte := [crc8 [1, 0, 0, 0, 0, 0, 0], 1, 0, 0, 0, 0, 0, 0]
def wEv : Ev := ⟨⟨3, 1, 2⟩, srcTIME, 0, 0⟩
def wOut1 : State := { wOn with hamper := { outbox := [(srcTIME, wEv)] } }
def wHeld : State := { wOn.withF [(fMSG_EVT_CFG_OWNER, 1)] with hamper := { held := [(0, wEv)] } }
def wPacket : State := { wHeld with hamper := { packet := [5] } }
def wOwned : State := wOn.withF [(fMSG_EVT_CFG_OWNER, 1)]
def wStream : State := { wOwned with hamper := { stream := [true, false], waiting := [(0, { wEv with kind := ⟨3, 1, 0⟩ })] } }
def wSpR : SpRec := ⟨0, 0, 0, 0, 0, []⟩
def wSp (st : Nat) (ring : List Nat) (buf : List SpRec) : State :=
  { ((wDram wOn).withF [(fMSG_SP_CFG_EN, (if st = spOFF then 0 else 1)), (fMSG_SP_STATUS_STATE, st)]).withR [(rMSG_SP_SIZE, 1), (rMSG_SP_WR_PTR, 64 * ring.length)] with
    spool := { ring := ring, buf := buf } }
def wSpMark : State := (wSp spRECORDING [0] []).withF [(fMSG_SP_STATUS_MARK_VALID, 1)]
def wAck1 : State := { wRst with safe := { ack := some (3, 0) } }
def wAckLate : State := { wAck1 with time := { now := 100000000 } }
def wStat : StatRec := { frame := 0, bands := [], carry := [], layers := [], mismatch := 0, invalid := 0 }
def wSafeT (x : SafeTile) : State := { wRst with safeTile := [(0, x)] }
def wHoldOn : State := { wRst with safe := { stream := true }, time := { now := 10000000000000 } }
def wClosed : State := (wSafeT { hs := true, ls := true }).withF [(fSAFETY_TEST_CFG_EN, 1)]
def wOpen : State := (wSafeT {}).withF [(fSAFETY_TEST_CFG_EN, 1)]
def wFbTimer : State := wSafeT { fbTimer := true }
/-- Both channels hold an actuator table of positions -100 to 100, 10 steps per second and 50 homing steps. -/
def wActTab : SafetyC := { act := List.replicate 2 { posMin := -100, posMax := 100, vMax := 10, homeSteps := 50 } }
/-- Actuator 0 may move. -/
def wActOn (homed : Nat) (tgt : Nat) (a : Act) : State :=
  { (wRst.withF [(fSAFETY_ACT_CFG_EN 0, 1), (fSAFETY_ACT_STATUS_SC_PERMITS 0, 1), (fSAFETY_ACT_STATUS_TT_PERMITS 0, 1),
      (fSAFETY_ACT_STATUS_HOMED 0, homed)]).withR [(rSAFETY_ACT_TARGET 0, tgt)] with safe := { act := [a, {}], scTab := wActTab, ttTab := wActTab }, time := { now := 900000000 } }
def wActUp : State := wActOn 1 0 { steps := 5 }
def wActDown : State := wActOn 1 9 { steps := 5 }
def wActBad : State := wActOn 1 5 { steps := 5, sc := 1000000000, differ := some 0 }
def wHomed0 : State := wActOn 0 0 {}
/-- SIN_2 is in use and reads normal: the reference is not reached. -/
def wHoming (a : Act) : State :=
  let s := (wActOn 0 0 a).withF [(⟨rSAFETY_SIN_CFG 2, 28, 1⟩, 1)]
  let c : SinCh := { normal := true, a := { acc := true }, b := { acc := true } }
  { s with safe := { s.safe with sinSc := [{}, {}, c, {}], sinTt := [{}, {}, c, {}] } }
def wStable : State := { wRst with safe := { sinSc := [{ a := { raw := true, stable := 31 } }, {}, {}, {}] } }
def wDue : State := { wRst with safe := { sinSc := [{ timer := some 2000 }, {}, {}, {}] } }
def wScrub : State := (wDram wRst).withF [(fMEM_SCRUB_CFG_EN, 1)]
def wNoScrub : State := (wDram wRst).withF [(fMEM_SCRUB_CFG_EN, 0)]
def wScrubLast : State := { wScrub with ecc := { scrubAt := 0xFFFFC } }
def wCrcR : State := (wDram wRst).withR [(rCRC_LEN 0, 64)]
def wCrcMode (m : Nat) : State := wCrcR.withF [(fCRC_CTRL_MODE 0, m)]
def wBusy : State := { wRst.withF [(fCRC_STATUS_BUSY 1, 1), (fCRC_CTRL_MODE 1, 2)] with crc := [(1, some { ctrl := 0x80000000, poly := 0, init := 0, addr := 0, len := 64 })] }
def wJob (m len : Nat) : CrcJob := { ctrl := BitVec.ofNat 32 (2 ^ 30 * m), poly := 0, init := 0, addr := 0x100, len := len }
def wCrcJob (m len : Nat) : State := (wDram { wRst with crc := [(0, some (wJob m len))] }).withF [(fCRC_STATUS_BUSY 0, 1)]
/-- Housekeeping runs, by itself or on the schedule. -/
def wHk (sched : Nat) : State := wFw.withF [(fHK_ROUND_CFG_SCHED, sched)]
def wChalD : State := { wRst with debugPort := { chal := some [1] } }
def wPllOn : State := wBoot { pll := [true, true, true, true, true, true] }
def wBase : State := { wRst with health := [(0, { base := some {} })] }
def wFresh : State := { wRst with health := [(0, { fresh := true })] }
def wShed1 : State := wRst.withF [(fTOP_MC_LOAD_SHED_LEVEL, 1)]
def wCkpt : State := { wRst with health := [(0, { ckpt := true })] }
def wAccs : State := { wRst with loader := { phase := 3 } }
def wDarnOff : State := wRst.withF [(fHEALTH_DARN_CFG_EN, 0)]
def wPaused : State := { wRst with agingPaused := true }
def wAging : State := wUp wRst

/-! ### The WellFormed check refuses -/

/-- A record of LENGTH 65,536, which 16 bits cannot carry (R333). -/
def wLongRec : RecIn := { seq := 1, flags := 0, ref := 0, payload := List.replicate 65536 0 }
def wShortRec : RecIn := { seq := 1, flags := 0, ref := 0, payload := [] }

theorem longRec_wf : wLongRec.wf = false := by
  have h : wLongRec.payload.length = 65536 := List.length_replicate
  simp only [RecIn.wf, h]
  decide

theorem test_wf_record : (Instr.ping 0 wLongRec).wf = false ∧ (Instr.flip 0 wLongRec).wf = false ∧ (Instr.ping 0 wShortRec).wf = true :=
  ⟨longRec_wf, longRec_wf, by decide⟩
theorem test_wf_unknownOpcode_long : (Instr.unknownOpcode 0 0xE5 wLongRec).wf = false := by
  simp [Instr.wf, longRec_wf]
theorem test_wf_unknownOpcode_named : (Instr.unknownOpcode 0 0x40 wShortRec).wf = false := by decide
theorem test_wf_programCommand_long : (Instr.programCommand 0 0x3F wLongRec).wf = false := by
  simp [Instr.wf, longRec_wf]
theorem test_wf_programCommand_supplied : (Instr.programCommand 0 0x08 wShortRec).wf = false := by decide
theorem test_wf_spi_empty : (Instr.spiWrite 0 [] .ok).wf = false ∧ (Instr.mboxWrite [] .ok).wf = false := by decide
theorem test_wf_spi_long : (Instr.spiWriteFixed 0 (List.replicate 513 0) .ok).wf = false := by decide +kernel
theorem test_wf_spiUnknownCommand : (Instr.spiUnknownCommand 0x03).wf = false := by decide
theorem test_wf_lampReq : (Instr.lampReq 0 (.frame {} (List.replicate 65 0))).wf = false
    ∧ (Instr.lampReq 0 (.frame { id := 2048 } [])).wf = false := by decide
theorem test_wf_csiLongPacket : (Instr.csiLongPacket 0 0 0x24 0 (List.replicate 65536 0) true).wf = false := by
  have h : (List.replicate 65536 (0 : Byte)).length = 65536 := List.length_replicate
  simp only [Instr.wf, h]
  decide
theorem test_wf_ethFrame : (Instr.ethFrameRx 0 { frame := List.replicate 13 0, fcsOk := true }).wf = false := by decide

/-! ### Worked examples of the spec -/

/-- The swap word of chapter 10's example: frame 1,001, D 150,000, F 59. -/
theorem test_swap_word : ctlWord ctlSWAP (0x03E90124F83B * 256) = 0x2303E90124F83B2A := by decide +kernel

/-- The record of chapter 7's worked pixel. -/
theorem test_record : recOf 0x4520832FF4031400 =
    ⟨0x4520, 0x832, -12, 3, 20, false, false, false, false, false, false⟩ := by decide +kernel

/-- Derate, thermal factor, magnitude and range of the worked pixel. -/
theorem test_pixel_magnitude : combined 0x7800 0x8000 = 0x7800 ∧ thermal true 20 960 = 37568
    ∧ magnitude 390292 0x4520 0x832 37568 = 495096 ∧ selectRange 2 495096 3 = 1 := by decide +kernel

/-- Its duty and offset. -/
theorem test_pixel_duty : formDuty true 495096 1 41000 276 200 = 7736 ∧ addOffset 7736 (-12) = 7724 := by decide +kernel

/-- R216: the check of control words over the ASCII bytes "123456789" is 0xDF. -/
theorem test_crc8_check : ([49, 50, 51, 52, 53, 54, 55, 56, 57].foldl (fun c b =>
    (List.range 8).foldl (fun c k => crc8Bit c (Nat.testBit b (7 - k))) c) 0xFF) ^^^ 0xFF = 0xDF := by decide +kernel

/-- R215, by hand: one payload bit 1 after a history of zeros comes again 39 and 58 bits later, and nothing else within the word. -/
theorem test_scramble_impulse : (scramble 0 1).1 = BitVec.ofNat 64 (1 + 2 ^ 39 + 2 ^ 58) := by decide +kernel

/-- R214: a control word's header is sent 1 then 0, a data word's 0 then 1, before P[0]. -/
theorem test_headers : (lineBits (lineWord true 1 false)).take 3 = [true, false, true]
    ∧ (lineBits (lineWord false 1 false)).take 3 = [false, true, true] := by decide +kernel

/-- The width word of chapter 6's block: its payload has 392 bytes. -/
theorem test_block_bytes : planeBytes 0x4000492492492000 = 392 := by decide +kernel

/-- The state after a command. -/
def wAfter (c : Instr) (s : State) : State :=
  match exec c s with
  | .next t => t
  | _ => s

/-- DIV (R85): -7 over 5 rounds towards zero; over 0 a negative dividend gives 0x80000000, a positive one 0x7FFFFFFF. -/
theorem test_div_rounds :
    let f : KvF := { pg := 0, pn := false, d := 3, a := 2, b := 1, c := 0, imm := 0 }
    ((wAfter (.div 0 f) (wIssue 0x1E f wEng)).eng 0).s 3 = 0xFFFFFFFF := by
  decide +kernel
theorem test_div_zero :
    let f : KvF := { pg := 0, pn := false, d := 3, a := 2, b := 0, c := 0, imm := 0 }
    ((wAfter (.div 0 f) (wIssue 0x1E f wEng)).eng 0).s 3 = 0x80000000
    ∧ ((wAfter (.div 0 { f with a := 1 }) (wIssue 0x1E { f with a := 1 } wEng)).eng 0).s 3 = 0x7FFFFFFF := by
  decide +kernel

/-! ### Long back-lane blocks -/

theorem crc32cShift_lt (k c : Nat) (h : c < 2 ^ 32) : crc32cShift c k < 2 ^ 32 := by
  induction k generalizing c with
  | zero => exact h
  | succ k ih =>
    rw [crc32cShift]
    refine ih _ ?_
    split
    · exact Nat.xor_lt_two_pow (by omega) (by decide)
    · omega

theorem crc32c_lt (bs : List Byte) : crc32c bs < 2 ^ 32 := by
  have go : ∀ (l : List Byte) (c : Nat), c < 2 ^ 32 → l.foldl (fun c b => crc32cShift (c ^^^ b.toNat) 8) c < 2 ^ 32 := by
    intro l
    induction l with
    | nil => intro c h; exact h
    | cons b t ih =>
      intro c h
      exact ih _ (crc32cShift_lt 8 _ (Nat.xor_lt_two_pow h (Nat.lt_trans b.isLt (by decide))))
  exact Nat.xor_lt_two_pow (by decide) (go bs _ (by decide))

/-- A block of `n` data words of zero with its check value. -/
def wBlock (hdr : BitVec 48) (n : Nat) : BlockIn :=
  { hdr := hdr, words := List.replicate n 0,
    crc := BitVec.ofNat 32 (crc32c ((List.replicate n (0 : BitVec 64)).flatMap (fun w => leBytes 8 w.toNat))) }

theorem wBlock_good (hdr : BitVec 48) (n : Nat) (h : payF hdr 51 32 = n) : blkGood (wBlock hdr n) = true := by
  simp only [blkGood, wBlock, List.length_replicate, h, BitVec.toNat_ofNat, Nat.mod_eq_of_lt (crc32c_lt _), BEq.rfl, Bool.and_self]

/-! ### A state and operands for every statement with hypotheses -/

theorem witness_IdleTick :
    ∃ (s : State), s.pending = [] :=
  ⟨wDma, by decide +kernel⟩

theorem witness_StepKeepsTables :
    ∃ s t : State, TablesWf s ∧ s.mem ≠ [] ∧ step s = .next t :=
  ⟨{ wDma with pending := [.ltLoRead] }, _, ⟨by decide +kernel, by decide +kernel, by decide +kernel, by decide +kernel, by decide +kernel, by decide +kernel⟩, by decide +kernel, rfl⟩

theorem witness_StepGrowsFuses :
    ∃ s t : State, s.pending ≠ [] ∧ step s = .next t :=
  ⟨{ wDma with pending := [.ltLoRead] }, _, by decide +kernel, rfl⟩

theorem witness_ResetValues :
    (∃ (n : Nat), n < 16)
    ∧ (∃ (n : Nat), n < 4)
    ∧ (∃ (d : Nat), d < 2) :=
  ⟨⟨15, by decide +kernel⟩,
    ⟨3, by decide +kernel⟩,
    ⟨1, by decide +kernel⟩⟩

theorem witness_RegisterWrite :
    ∃ (off : BitVec 24) (s : State) (r : RegRow), off.toNat % 4 = 0 ∧ s.absentUnit off.toNat = false ∧ curveOff off.toNat = none ∧ tgMirror off.toNat = none ∧ tgNoStage off.toNat = false ∧ regRow off.toNat = some r ∧ r.wo = false ∧ s.boot.porst = true ∧ s.locked = false ∧ (off.toNat < 65536 ∨ 524288 ≤ off.toNat ∧ off.toNat < 786432 ∨ 196608 ≤ off.toNat ∧ off.toNat < 262144) :=
  ⟨16, wRst, { base := 16, us := 0, uc := 1, st := 0, cnt := 1, words := 1, wr := 0x0000ffff#32, lock := 0x00000000#32, w1c := 0x00000000#32, rst := 0x00000000#32, wo := false }, by decide +kernel⟩

theorem witness_LockedWrite :
    ∃ (off : BitVec 24) (s : State), off.toNat % 4 = 0 ∧ s.absentUnit off.toNat = false ∧ regThere off.toNat = true ∧ s.boot.porst = true ∧ s.mapLocked off.toNat = true :=
  ⟨16, wLocked, by decide +kernel⟩

theorem witness_UnmappedAndAbsent :
    (∃ (off : BitVec 24) (s : State), s.boot.porst = true ∧ off.toNat % 4 = 0 ∧ s.absentUnit off.toNat = false ∧ curveOff off.toNat = none ∧ tgMirror off.toNat = none ∧ regRow off.toNat = none)
    ∧ (∃ (s : State), s.boot.porst = false)
    ∧ (∃ (off : BitVec 24) (s : State), s.boot.porst = true ∧ off.toNat % 4 ≠ 0)
    ∧ (∃ (off : BitVec 24) (s : State), s.part = Part.sz1220 ∧ off.toNat % 4 = 0 ∧ 1048576 ≤ off.toNat ∧ off.toNat < 2097152 ∧ off.toNat / 131072 % 2 = 1) :=
  ⟨⟨3145724, wRst, by decide +kernel⟩,
    ⟨State.reset, by decide +kernel⟩,
    ⟨1, wRst, by decide +kernel⟩,
    ⟨1245184, wSmall, by decide +kernel⟩⟩

theorem witness_MemoryReadsBack :
    (∃ (a : Nat) (bs : List Byte) (x : Nat), x < a ∨ a + bs.length ≤ x)
    ∧ (∃ (n : Nat) (v : Nat), v < 256 ^ n) :=
  ⟨⟨4, [7#8], 5, by decide +kernel⟩,
    ⟨4, 0xFFFFFFFF, by decide +kernel⟩⟩

theorem witness_ManagementEvents :
    (∃ (k : Fin 3) (s : State), s.time.frcRun = true ∧ s.hlvPast k.val = true ∧ s.isF { off := rHK_HLV_STATUS, lo := k.val, w := 1 : Fld } = false)
    ∧ (∃ (k : Fin 3) (s : State), s.time.frcRun = false ∨ s.hlvPast k.val = false ∨ s.isF { off := rHK_HLV_STATUS, lo := k.val, w := 1 : Fld } = true)
    ∧ (∃ (s : State), s.fwRuns = true)
    ∧ (∃ (s : State), s.fwRuns = false)
    ∧ (∃ (s : State), s.boot.porst = true)
    ∧ (∃ (s : State), s.boot.porst = false)
    ∧ (∃ (s : State), s.boot.fwStarted = true ∧ s.isF fSAFETY_STATUS_MC_LOST = false ∧ s.getF fPWR_PWR_STATUS_CURRENT ≠ 1 ∧ s.mc.beat + ticksMs 100 ≤ s.time.now)
    ∧ (∃ (s : State), s.boot.fwStarted = false ∨ s.isF fSAFETY_STATUS_MC_LOST = true ∨ s.getF fPWR_PWR_STATUS_CURRENT = 1 ∨ s.time.now < s.mc.beat + ticksMs 100)
    ∧ (∃ (n : Fin 4) (s : State), s.boot.porst = true ∧ s.absentUnit (rCP_STATUS n.val) = false ∧ s.isF (fCP_STATUS_URGENT n.val) = false)
    ∧ (∃ (n : Fin 4) (s : State), s.boot.porst = false ∨ s.absentUnit (rCP_STATUS n.val) = true ∨ s.isF (fCP_STATUS_URGENT n.val) = true)
    ∧ (∃ (n : Fin 4) (lead : Byte) (s : State), s.boot.porst = true ∧ s.absentUnit (rCP_STATUS n.val) = false ∧ 8 ≤ BitVec.toNat lead)
    ∧ (∃ (n : Fin 4) (lead : Byte) (s : State), s.boot.porst = false ∨ s.absentUnit (rCP_STATUS n.val) = true ∨ BitVec.toNat lead < 8) :=
  ⟨⟨2, { wFw with time := { frcRun := true, frc := 1000000000 } }, by decide +kernel⟩,
    ⟨2, wFw, by decide +kernel⟩,
    ⟨wFw, by decide +kernel⟩,
    ⟨wRst, by decide +kernel⟩,
    ⟨wRst, by decide +kernel⟩,
    ⟨State.reset, by decide +kernel⟩,
    ⟨{ wFw with time := { now := 1000000000 } }, by decide +kernel⟩,
    ⟨wRst, by decide +kernel⟩,
    ⟨0, wRst, by decide +kernel⟩,
    ⟨1, wUrgent, by decide +kernel⟩,
    ⟨0, 255, wRst, by decide +kernel⟩,
    ⟨0, 7, wRst, by decide +kernel⟩⟩

theorem witness_EngineArithmetic :
    (∃ (e : Fin 16) (f : KvF) (s : State), CanIssue e 16 { d := RegUse.s, a := RegUse.s, b := RegUse.s : KvShape } f s)
    ∧ (∃ (e : Fin 16) (f : KvF) (s : State), CanIssue e 48 { d := RegUse.s, a := RegUse.s, imm := ImmUse.any : KvShape } f s)
    ∧ (∃ (e : Fin 16) (f : KvF) (s : State), CanIssue e 88 { guarded := true, d := RegUse.v, a := RegUse.v, b := RegUse.v : KvShape } f s)
    ∧ (∃ (e : Fin 16) (f : KvF) (s : State), CanIssue e 100 { guarded := true, d := RegUse.v, a := RegUse.v, imm := ImmUse.any : KvShape } f s)
    ∧ (∃ (e : Fin 16) (f : KvF) (s : State), CanIssue e 94 { guarded := true, d := RegUse.v, a := RegUse.v, b := RegUse.v : KvShape } f s)
    ∧ (∃ (e : Fin 16) (f : KvF) (s : State), CanIssue e 104 { guarded := true, d := RegUse.v, a := RegUse.v, b := RegUse.v, c := RegUse.p : KvShape } f s)
    ∧ (∃ (e : Fin 16) (f : KvF) (s : State), CanIssue e 106 { guarded := true, d := RegUse.v, a := RegUse.s : KvShape } f s)
    ∧ (∃ (e : Fin 16) (f : KvF) (s : State), CanIssue e 107 { guarded := true, d := RegUse.v : KvShape } f s)
    ∧ (∃ (e : Fin 16) (f : KvF) (s : State), CanIssue e 111 { guarded := true, d := RegUse.v, a := RegUse.v : KvShape } f s)
    ∧ (∃ (e : Fin 16) (f : KvF) (s : State), CanIssue e 109 { guarded := true, d := RegUse.v, a := RegUse.s, imm := ImmUse.any : KvShape } f s) :=
  ⟨⟨0, { pg := 0x0#3, pn := false, d := 0x00#5, a := 0x00#5, b := 0x00#5, c := 0x00#5, imm := 0x00000000#32 }, wIssue 16 { pg := 0x0#3, pn := false, d := 0x00#5, a := 0x00#5, b := 0x00#5, c := 0x00#5, imm := 0x00000000#32 } wEng, by decide +kernel⟩,
    ⟨0, { pg := 0x0#3, pn := false, d := 0x00#5, a := 0x00#5, b := 0x00#5, c := 0x00#5, imm := 0x00000000#32 }, wIssue 48 { pg := 0x0#3, pn := false, d := 0x00#5, a := 0x00#5, b := 0x00#5, c := 0x00#5, imm := 0x00000000#32 } wEng, by decide +kernel⟩,
    ⟨0, { pg := 0x0#3, pn := false, d := 0x00#5, a := 0x00#5, b := 0x00#5, c := 0x00#5, imm := 0x00000000#32 }, wIssue 88 { pg := 0x0#3, pn := false, d := 0x00#5, a := 0x00#5, b := 0x00#5, c := 0x00#5, imm := 0x00000000#32 } wEng, by decide +kernel⟩,
    ⟨0, { pg := 0x0#3, pn := false, d := 0x00#5, a := 0x00#5, b := 0x00#5, c := 0x00#5, imm := 0x00000000#32 }, wIssue 100 { pg := 0x0#3, pn := false, d := 0x00#5, a := 0x00#5, b := 0x00#5, c := 0x00#5, imm := 0x00000000#32 } wEng, by decide +kernel⟩,
    ⟨0, { pg := 0x0#3, pn := false, d := 0x00#5, a := 0x00#5, b := 0x00#5, c := 0x00#5, imm := 0x00000000#32 }, wIssue 94 { pg := 0x0#3, pn := false, d := 0x00#5, a := 0x00#5, b := 0x00#5, c := 0x00#5, imm := 0x00000000#32 } wEng, by decide +kernel⟩,
    ⟨0, { pg := 0x0#3, pn := false, d := 0x00#5, a := 0x00#5, b := 0x00#5, c := 0x00#5, imm := 0x00000000#32 }, wIssue 104 { pg := 0x0#3, pn := false, d := 0x00#5, a := 0x00#5, b := 0x00#5, c := 0x00#5, imm := 0x00000000#32 } wEng, by decide +kernel⟩,
    ⟨0, { pg := 0x0#3, pn := false, d := 0x00#5, a := 0x00#5, b := 0x00#5, c := 0x00#5, imm := 0x00000000#32 }, wIssue 106 { pg := 0x0#3, pn := false, d := 0x00#5, a := 0x00#5, b := 0x00#5, c := 0x00#5, imm := 0x00000000#32 } wEng, by decide +kernel⟩,
    ⟨0, { pg := 0x0#3, pn := false, d := 0x00#5, a := 0x00#5, b := 0x00#5, c := 0x00#5, imm := 0x00000000#32 }, wIssue 107 { pg := 0x0#3, pn := false, d := 0x00#5, a := 0x00#5, b := 0x00#5, c := 0x00#5, imm := 0x00000000#32 } wEng, by decide +kernel⟩,
    ⟨0, { pg := 0x0#3, pn := false, d := 0x00#5, a := 0x00#5, b := 0x00#5, c := 0x00#5, imm := 0x00000000#32 }, wIssue 111 { pg := 0x0#3, pn := false, d := 0x00#5, a := 0x00#5, b := 0x00#5, c := 0x00#5, imm := 0x00000000#32 } wEng, by decide +kernel⟩,
    ⟨0, { pg := 0x0#3, pn := false, d := 0x00#5, a := 0x00#5, b := 0x00#5, c := 0x00#5, imm := 0x00000000#32 }, wIssue 109 { pg := 0x0#3, pn := false, d := 0x00#5, a := 0x00#5, b := 0x00#5, c := 0x00#5, imm := 0x00000000#32 } wEng, by decide +kernel⟩⟩

theorem witness_Predicates :
    (∃ (e : Fin 16) (f : KvF) (s : State), CanIssue e 112 { guarded := true, d := RegUse.p, a := RegUse.v, b := RegUse.v : KvShape } f s)
    ∧ (∃ (e : Fin 16) (f : KvF) (s : State), CanIssue e 120 { guarded := true, d := RegUse.p, a := RegUse.p, b := RegUse.p : KvShape } f s)
    ∧ (∃ (e : Fin 16) (f : KvF) (s : State), CanIssue e 123 { guarded := true, d := RegUse.p, a := RegUse.p : KvShape } f s)
    ∧ (∃ (e : Fin 16) (f : KvF) (s : State), CanIssue e 124 { guarded := true, d := RegUse.p, imm := ImmUse.any : KvShape } f s)
    ∧ (∃ (e : Fin 16) (f : KvF) (s : State), CanIssue e 36 { guarded := true, d := RegUse.p, a := RegUse.s : KvShape } f s)
    ∧ (∃ (e : Fin 16) (f : KvF) (s : State), CanIssue e 128 { guarded := true, d := RegUse.p, a := RegUse.s : KvShape } f s ∧ 1 ≤ f.a.toNat ∧ f.a.toNat ≤ 29) :=
  ⟨⟨0, { pg := 0x0#3, pn := false, d := 0x00#5, a := 0x00#5, b := 0x00#5, c := 0x00#5, imm := 0x00000000#32 }, wIssue 112 { pg := 0x0#3, pn := false, d := 0x00#5, a := 0x00#5, b := 0x00#5, c := 0x00#5, imm := 0x00000000#32 } wEng, by decide +kernel⟩,
    ⟨0, { pg := 0x0#3, pn := false, d := 0x00#5, a := 0x00#5, b := 0x00#5, c := 0x00#5, imm := 0x00000000#32 }, wIssue 120 { pg := 0x0#3, pn := false, d := 0x00#5, a := 0x00#5, b := 0x00#5, c := 0x00#5, imm := 0x00000000#32 } wEng, by decide +kernel⟩,
    ⟨0, { pg := 0x0#3, pn := false, d := 0x00#5, a := 0x00#5, b := 0x00#5, c := 0x00#5, imm := 0x00000000#32 }, wIssue 123 { pg := 0x0#3, pn := false, d := 0x00#5, a := 0x00#5, b := 0x00#5, c := 0x00#5, imm := 0x00000000#32 } wEng, by decide +kernel⟩,
    ⟨0, { pg := 0x0#3, pn := false, d := 0x00#5, a := 0x00#5, b := 0x00#5, c := 0x00#5, imm := 0x00000000#32 }, wIssue 124 { pg := 0x0#3, pn := false, d := 0x00#5, a := 0x00#5, b := 0x00#5, c := 0x00#5, imm := 0x00000000#32 } wEng, by decide +kernel⟩,
    ⟨0, { pg := 0x0#3, pn := false, d := 0x00#5, a := 0x00#5, b := 0x00#5, c := 0x00#5, imm := 0x00000000#32 }, wIssue 36 { pg := 0x0#3, pn := false, d := 0x00#5, a := 0x00#5, b := 0x00#5, c := 0x00#5, imm := 0x00000000#32 } wEng, by decide +kernel⟩,
    ⟨0, { pg := 0x0#3, pn := false, d := 0x02#5, a := 0x01#5, b := 0x00#5, c := 0x00#5, imm := 0x00000000#32 }, wIssue 128 { pg := 0x0#3, pn := false, d := 0x02#5, a := 0x01#5, b := 0x00#5, c := 0x00#5, imm := 0x00000000#32 } wEng, by decide +kernel⟩⟩

theorem witness_ControlFlow :
    (∃ (e : Fin 16) (f : KvF) (s : State), CanIssue e 0 ({} : KvShape) f s)
    ∧ (∃ (e : Fin 16) (f : KvF) (s : State), CanIssue e 2 { imm := ImmUse.target : KvShape } f s)
    ∧ (∃ (e : Fin 16) (f : KvF) (s : State), CanIssue e 8 { imm := ImmUse.target : KvShape } f s)
    ∧ (∃ (e : Fin 16) (f : KvF) (s : State), CanIssue e 9 ({} : KvShape) f s)
    ∧ (∃ (e : Fin 16) (f : KvF) (s : State), CanIssue e 10 { a := RegUse.s, imm := ImmUse.target : KvShape } f s ∧ f.a ≠ 0) :=
  ⟨⟨0, { pg := 0x0#3, pn := false, d := 0x00#5, a := 0x00#5, b := 0x00#5, c := 0x00#5, imm := 0x00000000#32 }, wIssue 0 { pg := 0x0#3, pn := false, d := 0x00#5, a := 0x00#5, b := 0x00#5, c := 0x00#5, imm := 0x00000000#32 } wEng, by decide +kernel⟩,
    ⟨0, { pg := 0x0#3, pn := false, d := 0x00#5, a := 0x00#5, b := 0x00#5, c := 0x00#5, imm := 0x00000000#32 }, wIssue 2 { pg := 0x0#3, pn := false, d := 0x00#5, a := 0x00#5, b := 0x00#5, c := 0x00#5, imm := 0x00000000#32 } wEng, by decide +kernel⟩,
    ⟨0, { pg := 0x0#3, pn := false, d := 0x00#5, a := 0x00#5, b := 0x00#5, c := 0x00#5, imm := 0x00000000#32 }, wIssue 8 { pg := 0x0#3, pn := false, d := 0x00#5, a := 0x00#5, b := 0x00#5, c := 0x00#5, imm := 0x00000000#32 } wEng, by decide +kernel⟩,
    ⟨0, { pg := 0x0#3, pn := false, d := 0x00#5, a := 0x00#5, b := 0x00#5, c := 0x00#5, imm := 0x00000000#32 }, wIssue 9 { pg := 0x0#3, pn := false, d := 0x00#5, a := 0x00#5, b := 0x00#5, c := 0x00#5, imm := 0x00000000#32 } wEng, by decide +kernel⟩,
    ⟨0, { pg := 0x0#3, pn := false, d := 0x00#5, a := 0x02#5, b := 0x00#5, c := 0x00#5, imm := 0x00000032#32 }, wIssue 10 { pg := 0x0#3, pn := false, d := 0x00#5, a := 0x02#5, b := 0x00#5, c := 0x00#5, imm := 0x00000032#32 } wEng, by decide +kernel⟩⟩

theorem witness_ScalarMoves :
    (∃ (e : Fin 16) (f : KvF) (s : State), CanIssue e 32 { d := RegUse.s, imm := ImmUse.any : KvShape } f s)
    ∧ (∃ (e : Fin 16) (f : KvF) (s : State), CanIssue e 35 { d := RegUse.s, a := RegUse.p : KvShape } f s)
    ∧ (∃ (e : Fin 16) (f : KvF) (s : State), CanIssue e 37 { d := RegUse.s, a := RegUse.p : KvShape } f s)
    ∧ (∃ (e : Fin 16) (f : KvF) (s : State), CanIssue e 108 { d := RegUse.s, a := RegUse.v, imm := ImmUse.any : KvShape } f s)
    ∧ (∃ (e : Fin 16) (f : KvF) (s : State), CanIssue e 110 { guarded := true, d := RegUse.s, a := RegUse.v : KvShape } f s)
    ∧ (∃ (e : Fin 16) (f : KvF) (s : State), CanIssue e 33 { d := RegUse.s, imm := ImmUse.any : KvShape } f s ∧ BitVec.toNat f.imm % 256 ∈ [0, 2, 3, 4, 5, 6, 7, 8, 9, 10, 11])
    ∧ (∃ (e : Fin 16) (f : KvF) (s : State), CanIssue e 146 { d := RegUse.s : KvShape } f s ∧ (s.eng e.val).ch0 = [] ∧ (s.eng e.val).ch1 = [])
    ∧ (∃ (e : Fin 16) (f : KvF) (s : State), CanIssue e 162 { d := RegUse.s, imm := ImmUse.any : KvShape } f s)
    ∧ (∃ (e : Fin 16) (f : KvF) (s : State), CanIssue e 178 { d := RegUse.s : KvShape } f s) :=
  ⟨⟨0, { pg := 0x0#3, pn := false, d := 0x00#5, a := 0x00#5, b := 0x00#5, c := 0x00#5, imm := 0x00000000#32 }, wIssue 32 { pg := 0x0#3, pn := false, d := 0x00#5, a := 0x00#5, b := 0x00#5, c := 0x00#5, imm := 0x00000000#32 } wEng, by decide +kernel⟩,
    ⟨0, { pg := 0x0#3, pn := false, d := 0x00#5, a := 0x00#5, b := 0x00#5, c := 0x00#5, imm := 0x00000000#32 }, wIssue 35 { pg := 0x0#3, pn := false, d := 0x00#5, a := 0x00#5, b := 0x00#5, c := 0x00#5, imm := 0x00000000#32 } wEng, by decide +kernel⟩,
    ⟨0, { pg := 0x0#3, pn := false, d := 0x00#5, a := 0x00#5, b := 0x00#5, c := 0x00#5, imm := 0x00000000#32 }, wIssue 37 { pg := 0x0#3, pn := false, d := 0x00#5, a := 0x00#5, b := 0x00#5, c := 0x00#5, imm := 0x00000000#32 } wEng, by decide +kernel⟩,
    ⟨0, { pg := 0x0#3, pn := false, d := 0x00#5, a := 0x00#5, b := 0x00#5, c := 0x00#5, imm := 0x00000000#32 }, wIssue 108 { pg := 0x0#3, pn := false, d := 0x00#5, a := 0x00#5, b := 0x00#5, c := 0x00#5, imm := 0x00000000#32 } wEng, by decide +kernel⟩,
    ⟨0, { pg := 0x0#3, pn := false, d := 0x00#5, a := 0x00#5, b := 0x00#5, c := 0x00#5, imm := 0x00000000#32 }, wIssue 110 { pg := 0x0#3, pn := false, d := 0x00#5, a := 0x00#5, b := 0x00#5, c := 0x00#5, imm := 0x00000000#32 } wEng, by decide +kernel⟩,
    ⟨0, { pg := 0x0#3, pn := false, d := 0x00#5, a := 0x00#5, b := 0x00#5, c := 0x00#5, imm := 0x00000000#32 }, wIssue 33 { pg := 0x0#3, pn := false, d := 0x00#5, a := 0x00#5, b := 0x00#5, c := 0x00#5, imm := 0x00000000#32 } wEng, by decide +kernel⟩,
    ⟨0, { pg := 0x0#3, pn := false, d := 0x00#5, a := 0x00#5, b := 0x00#5, c := 0x00#5, imm := 0x00000000#32 }, wIssue 146 { pg := 0x0#3, pn := false, d := 0x00#5, a := 0x00#5, b := 0x00#5, c := 0x00#5, imm := 0x00000000#32 } wEng, by decide +kernel⟩,
    ⟨0, { pg := 0x0#3, pn := false, d := 0x00#5, a := 0x00#5, b := 0x00#5, c := 0x00#5, imm := 0x00000000#32 }, wIssue 162 { pg := 0x0#3, pn := false, d := 0x00#5, a := 0x00#5, b := 0x00#5, c := 0x00#5, imm := 0x00000000#32 } wEng, by decide +kernel⟩,
    ⟨0, { pg := 0x0#3, pn := false, d := 0x00#5, a := 0x00#5, b := 0x00#5, c := 0x00#5, imm := 0x00000000#32 }, wIssue 178 { pg := 0x0#3, pn := false, d := 0x00#5, a := 0x00#5, b := 0x00#5, c := 0x00#5, imm := 0x00000000#32 } wEng, by decide +kernel⟩⟩

theorem witness_LocalLoads :
    (∃ (e : Fin 16) (f : KvF) (s : State), CanIssue e 64 { d := RegUse.s, a := RegUse.s, imm := ImmUse.any : KvShape } f s ∧ (s.eng e.val).addr f % 4 = 0 ∧ (s.eng e.val).addr f + 4 ≤ 131072)
    ∧ (∃ (e : Fin 16) (f : KvF) (s : State), CanIssue e 66 { d := RegUse.s, a := RegUse.s, imm := ImmUse.any : KvShape } f s ∧ (s.eng e.val).addr f % 2 = 0 ∧ (s.eng e.val).addr f + 2 ≤ 131072)
    ∧ (∃ (e : Fin 16) (f : KvF) (s : State), CanIssue e 80 { guarded := true, d := RegUse.v, a := RegUse.s, imm := ImmUse.any : KvShape } f s ∧ (s.eng e.val).addr f % 64 = 0 ∧ (s.eng e.val).addr f + 64 ≤ 131072)
    ∧ (∃ (e : Fin 16) (f : KvF) (s : State), CanIssue e 82 { guarded := true, d := RegUse.v, a := RegUse.s, b := RegUse.v : KvShape } f s ∧ ∀ k < 32, (s.eng e.val).guard f k = true → (s.eng e.val).laneAddr f k % 2 = 0 ∧ (s.eng e.val).laneAddr f k + 2 ≤ 131072)
    ∧ (∃ (e : Fin 16) (f : KvF) (s : State), CanIssue e 105 { guarded := true, d := RegUse.v, a := RegUse.v, b := RegUse.s : KvShape } f s ∧ BitVec.toNat ((s.eng e.val).s f.b.toNat) % 2 = 0 ∧ BitVec.toNat ((s.eng e.val).s f.b.toNat) + 514 ≤ 131072)
    ∧ (∃ (e : Fin 16) (f : KvF) (s : State) (d : SampDesc) (op : Nat), CanIssue e op { guarded := true, d := RegUse.v, a := RegUse.v, b := RegUse.v, c := RegUse.s : KvShape } f s ∧ BitVec.toNat ((s.eng e.val).s f.c.toNat) % 16 = 0 ∧ BitVec.toNat ((s.eng e.val).s f.c.toNat) + 16 ≤ 131072 ∧ sampDesc (s.bytes (ldBase e.val + BitVec.toNat ((s.eng e.val).s f.c.toNat)) 16) = some d ∧ 0 < d.width ∧ 0 < d.height ∧ op = 131)
    ∧ (∃ (e : Fin 16) (f : KvF) (s : State) (d : SampDesc) (op : Nat), CanIssue e op { guarded := true, d := RegUse.v, a := RegUse.v, b := RegUse.v, c := RegUse.s : KvShape } f s ∧ BitVec.toNat ((s.eng e.val).s f.c.toNat) % 16 = 0 ∧ BitVec.toNat ((s.eng e.val).s f.c.toNat) + 16 ≤ 131072 ∧ sampDesc (s.bytes (ldBase e.val + BitVec.toNat ((s.eng e.val).s f.c.toNat)) 16) = some d ∧ 0 < d.width ∧ 0 < d.height ∧ op = 132)
    ∧ (∃ (e : Fin 16) (f : KvF) (s : State), CanIssue e 129 { guarded := true, d := RegUse.v, a := RegUse.s : KvShape } f s ∧ 1 ≤ f.a.toNat ∧ f.a.toNat ≤ 29) :=
  ⟨⟨0, { pg := 0x0#3, pn := false, d := 0x00#5, a := 0x00#5, b := 0x00#5, c := 0x00#5, imm := 0x00000000#32 }, wIssue 64 { pg := 0x0#3, pn := false, d := 0x00#5, a := 0x00#5, b := 0x00#5, c := 0x00#5, imm := 0x00000000#32 } wEng, by decide +kernel⟩,
    ⟨0, { pg := 0x0#3, pn := false, d := 0x00#5, a := 0x00#5, b := 0x00#5, c := 0x00#5, imm := 0x00000000#32 }, wIssue 66 { pg := 0x0#3, pn := false, d := 0x00#5, a := 0x00#5, b := 0x00#5, c := 0x00#5, imm := 0x00000000#32 } wEng, by decide +kernel⟩,
    ⟨0, { pg := 0x0#3, pn := false, d := 0x00#5, a := 0x00#5, b := 0x00#5, c := 0x00#5, imm := 0x00000000#32 }, wIssue 80 { pg := 0x0#3, pn := false, d := 0x00#5, a := 0x00#5, b := 0x00#5, c := 0x00#5, imm := 0x00000000#32 } wEng, by decide +kernel⟩,
    ⟨0, { pg := 0x0#3, pn := false, d := 0x00#5, a := 0x00#5, b := 0x00#5, c := 0x00#5, imm := 0x00000000#32 }, wIssue 82 { pg := 0x0#3, pn := false, d := 0x00#5, a := 0x00#5, b := 0x00#5, c := 0x00#5, imm := 0x00000000#32 } wEng, by decide +kernel⟩,
    ⟨0, { pg := 0x0#3, pn := false, d := 0x00#5, a := 0x00#5, b := 0x00#5, c := 0x00#5, imm := 0x00000000#32 }, wIssue 105 { pg := 0x0#3, pn := false, d := 0x00#5, a := 0x00#5, b := 0x00#5, c := 0x00#5, imm := 0x00000000#32 } wEng, by decide +kernel⟩,
    ⟨0, { pg := 0x0#3, pn := false, d := 0x01#5, a := 0x01#5, b := 0x02#5, c := 0x05#5, imm := 0x00000000#32 }, wIssue 131 { pg := 0x0#3, pn := false, d := 0x01#5, a := 0x01#5, b := 0x02#5, c := 0x05#5, imm := 0x00000000#32 } wSamp, { base := 0x1400, width := 20, height := 5, stride := 64, fmt := 0, edge := 0 }, 131, by decide +kernel⟩,
    ⟨0, { pg := 0x0#3, pn := false, d := 0x01#5, a := 0x01#5, b := 0x02#5, c := 0x05#5, imm := 0x00000000#32 }, wIssue 132 { pg := 0x0#3, pn := false, d := 0x01#5, a := 0x01#5, b := 0x02#5, c := 0x05#5, imm := 0x00000000#32 } wSamp, { base := 0x1400, width := 20, height := 5, stride := 64, fmt := 0, edge := 0 }, 132, by decide +kernel⟩,
    ⟨0, { pg := 0x0#3, pn := false, d := 0x02#5, a := 0x01#5, b := 0x00#5, c := 0x00#5, imm := 0x00000000#32 }, wIssue 129 { pg := 0x0#3, pn := false, d := 0x02#5, a := 0x01#5, b := 0x00#5, c := 0x00#5, imm := 0x00000000#32 } wEng, by decide +kernel⟩⟩

theorem witness_LocalStores :
    (∃ (e : Fin 16) (f : KvF) (s : State), CanIssue e 65 { d := RegUse.s, a := RegUse.s, imm := ImmUse.any : KvShape } f s ∧ (s.eng e.val).addr f % 4 = 0 ∧ (s.eng e.val).addr f + 4 ≤ 131072)
    ∧ (∃ (e : Fin 16) (f : KvF) (s : State), CanIssue e 67 { d := RegUse.s, a := RegUse.s, imm := ImmUse.any : KvShape } f s ∧ (s.eng e.val).addr f % 2 = 0 ∧ (s.eng e.val).addr f + 2 ≤ 131072)
    ∧ (∃ (e : Fin 16) (f : KvF) (s : State), CanIssue e 81 { guarded := true, d := RegUse.v, a := RegUse.s, imm := ImmUse.any : KvShape } f s ∧ (s.eng e.val).addr f % 64 = 0 ∧ (s.eng e.val).addr f + 64 ≤ 131072)
    ∧ (∃ (e : Fin 16) (f : KvF) (s : State), CanIssue e 83 { guarded := true, d := RegUse.v, a := RegUse.s, b := RegUse.v : KvShape } f s ∧ ∀ k < 32, (s.eng e.val).guard f k = true → (s.eng e.val).laneAddr f k % 2 = 0 ∧ (s.eng e.val).laneAddr f k + 2 ≤ 131072) :=
  ⟨⟨0, { pg := 0x0#3, pn := false, d := 0x00#5, a := 0x00#5, b := 0x00#5, c := 0x00#5, imm := 0x00000000#32 }, wIssue 65 { pg := 0x0#3, pn := false, d := 0x00#5, a := 0x00#5, b := 0x00#5, c := 0x00#5, imm := 0x00000000#32 } wEng, by decide +kernel⟩,
    ⟨0, { pg := 0x0#3, pn := false, d := 0x00#5, a := 0x00#5, b := 0x00#5, c := 0x00#5, imm := 0x00000000#32 }, wIssue 67 { pg := 0x0#3, pn := false, d := 0x00#5, a := 0x00#5, b := 0x00#5, c := 0x00#5, imm := 0x00000000#32 } wEng, by decide +kernel⟩,
    ⟨0, { pg := 0x0#3, pn := false, d := 0x00#5, a := 0x00#5, b := 0x00#5, c := 0x00#5, imm := 0x00000000#32 }, wIssue 81 { pg := 0x0#3, pn := false, d := 0x00#5, a := 0x00#5, b := 0x00#5, c := 0x00#5, imm := 0x00000000#32 } wEng, by decide +kernel⟩,
    ⟨0, { pg := 0x0#3, pn := false, d := 0x00#5, a := 0x00#5, b := 0x00#5, c := 0x00#5, imm := 0x00000000#32 }, wIssue 83 { pg := 0x0#3, pn := false, d := 0x00#5, a := 0x00#5, b := 0x00#5, c := 0x00#5, imm := 0x00000000#32 } wEng, by decide +kernel⟩⟩

theorem witness_EngineExceptions :
    (∃ (e : Fin 16) (f : KvF) (s : State), CanIssue e 64 { d := RegUse.s, a := RegUse.s, imm := ImmUse.any : KvShape } f s ∧ Calm e.val s ∧ (s.eng e.val).addr f % 4 ≠ 0)
    ∧ (∃ (e : Fin 16) (f : KvF) (s : State), CanIssue e 64 { d := RegUse.s, a := RegUse.s, imm := ImmUse.any : KvShape } f s ∧ Calm e.val s ∧ (s.eng e.val).addr f % 4 = 0 ∧ 131072 < (s.eng e.val).addr f + 4)
    ∧ (∃ (e : Fin 16) (f : KvF) (s : State), CanIssue e 144 { a := RegUse.s, imm := ImmUse.any : KvShape } f s ∧ Calm e.val s ∧ BitVec.toNat ((s.eng e.val).s f.a.toNat) % 32 ≠ 0)
    ∧ (∃ (e : Fin 16) (f : KvF) (s : State), AtPc e 16 f s ∧ Calm e.val s ∧ { d := RegUse.s, a := RegUse.s, b := RegUse.s : KvShape }.ok f = false)
    ∧ (∃ (e : Fin 16) (s : State), Clean s ∧ s.issuing e.val = true ∧ Calm e.val s ∧ (s.eng e.val).pc < (s.eng e.val).imageLen ∧ kvListed (s.loadN (s.fetchAt e.val) 8 / 2 ^ 56) = false)
    ∧ (∃ (e : Fin 16) (f : KvF) (s : State), Clean s ∧ s.issuing e.val = true ∧ Calm e.val s ∧ (s.eng e.val).pc < (s.eng e.val).imageLen ∧ kvListed (s.loadN (s.fetchAt e.val) 8 / 2 ^ 56) = true ∧ s.loadN (s.fetchAt e.val) 8 ≠ kvWord 16 f)
    ∧ (∃ (e : Fin 16) (s : State), Clean s ∧ s.issuing e.val = true ∧ Calm e.val s ∧ (s.eng e.val).imageLen ≤ (s.eng e.val).pc) :=
  ⟨⟨0, { pg := 0x0#3, pn := false, d := 0x04#5, a := 0x00#5, b := 0x00#5, c := 0x00#5, imm := 0x00000003#32 }, wIssue 64 { pg := 0x0#3, pn := false, d := 0x04#5, a := 0x00#5, b := 0x00#5, c := 0x00#5, imm := 0x00000003#32 } wEng, by decide +kernel⟩,
    ⟨0, { pg := 0x0#3, pn := false, d := 0x04#5, a := 0x02#5, b := 0x00#5, c := 0x00#5, imm := 0xffffffff#32 }, wIssue 64 { pg := 0x0#3, pn := false, d := 0x04#5, a := 0x02#5, b := 0x00#5, c := 0x00#5, imm := 0xffffffff#32 } wEng, by decide +kernel⟩,
    ⟨0, { pg := 0x0#3, pn := false, d := 0x00#5, a := 0x01#5, b := 0x00#5, c := 0x00#5, imm := 0x00000003#32 }, wIssue 144 { pg := 0x0#3, pn := false, d := 0x00#5, a := 0x01#5, b := 0x00#5, c := 0x00#5, imm := 0x00000003#32 } wEng, by decide +kernel⟩,
    ⟨0, { pg := 0x0#3, pn := false, d := 0x04#5, a := 0x02#5, b := 0x00#5, c := 0x00#5, imm := 0xffffffff#32 }, wIssue 16 { pg := 0x0#3, pn := false, d := 0x04#5, a := 0x02#5, b := 0x00#5, c := 0x00#5, imm := 0xffffffff#32 } wEng, by decide +kernel⟩,
    ⟨0, wIssue 255 { pg := 0x0#3, pn := false, d := 0x00#5, a := 0x01#5, b := 0x00#5, c := 0x00#5, imm := 0x00000003#32 } wEng, by decide +kernel⟩,
    ⟨0, { pg := 0x0#3, pn := false, d := 0x00#5, a := 0x01#5, b := 0x00#5, c := 0x00#5, imm := 0x00000003#32 }, wIssue 17 { pg := 0x0#3, pn := false, d := 0x00#5, a := 0x01#5, b := 0x00#5, c := 0x00#5, imm := 0x00000003#32 } wEng, by decide +kernel⟩,
    ⟨0, wPast, by decide +kernel⟩⟩

theorem witness_RasterPosition :
    (∃ (e : Fin 16) (f : KvF) (s : State), CanIssue e 130 { a := RegUse.s, b := RegUse.s : KvShape } f s)
    ∧ (∃ (e : Fin 16) (f : KvF) (s : State), CanIssue e 34 { a := RegUse.s, imm := ImmUse.any : KvShape } f s ∧ (BitVec.toNat f.imm % 256 = 4 ∨ BitVec.toNat f.imm % 256 = 5))
    ∧ (∃ (e : Fin 16) (f : KvF) (s : State), CanIssue e 34 { a := RegUse.s, imm := ImmUse.any : KvShape } f s ∧ Calm e.val s ∧ BitVec.toNat f.imm % 256 ≤ 12 ∧ BitVec.toNat f.imm % 256 ≠ 4 ∧ BitVec.toNat f.imm % 256 ≠ 5) :=
  ⟨⟨0, { pg := 0x0#3, pn := false, d := 0x00#5, a := 0x00#5, b := 0x00#5, c := 0x00#5, imm := 0x00000000#32 }, wIssue 130 { pg := 0x0#3, pn := false, d := 0x00#5, a := 0x00#5, b := 0x00#5, c := 0x00#5, imm := 0x00000000#32 } wEng, by decide +kernel⟩,
    ⟨0, { pg := 0x0#3, pn := false, d := 0x00#5, a := 0x01#5, b := 0x00#5, c := 0x00#5, imm := 0x00000004#32 }, wIssue 34 { pg := 0x0#3, pn := false, d := 0x00#5, a := 0x01#5, b := 0x00#5, c := 0x00#5, imm := 0x00000004#32 } wEng, by decide +kernel⟩,
    ⟨0, { pg := 0x0#3, pn := false, d := 0x00#5, a := 0x00#5, b := 0x00#5, c := 0x00#5, imm := 0x00000000#32 }, wIssue 34 { pg := 0x0#3, pn := false, d := 0x00#5, a := 0x00#5, b := 0x00#5, c := 0x00#5, imm := 0x00000000#32 } wEng, by decide +kernel⟩⟩

theorem witness_EngineWaits :
    (∃ (e : Fin 16) (f : KvF) (s : State) (d : Desc), CanIssue e 144 { a := RegUse.s, imm := ImmUse.any : KvShape } f s ∧ BitVec.toNat ((s.eng e.val).s f.a.toNat) % 32 = 0 ∧ BitVec.toNat ((s.eng e.val).s f.a.toNat) + 32 ≤ 131072 ∧ readDesc (s.bytes (ldBase e.val + BitVec.toNat ((s.eng e.val).s f.a.toNat)) 32) = some d ∧ ((s.eng e.val).chan (BitVec.toNat f.imm % 2)).length < 4)
    ∧ (∃ (e : Fin 16) (f : KvF) (s : State) (d : Desc), CanIssue e 144 { a := RegUse.s, imm := ImmUse.any : KvShape } f s ∧ BitVec.toNat ((s.eng e.val).s f.a.toNat) % 32 = 0 ∧ BitVec.toNat ((s.eng e.val).s f.a.toNat) + 32 ≤ 131072 ∧ readDesc (s.bytes (ldBase e.val + BitVec.toNat ((s.eng e.val).s f.a.toNat)) 32) = some d ∧ 4 ≤ ((s.eng e.val).chan (BitVec.toNat f.imm % 2)).length)
    ∧ (∃ (e : Fin 16) (f : KvF) (s : State), CanIssue e 145 { imm := ImmUse.any : KvShape } f s ∧ (s.eng e.val).chansIdle (BitVec.toNat f.imm % 4) = true)
    ∧ (∃ (e : Fin 16) (f : KvF) (s : State), CanIssue e 145 { imm := ImmUse.any : KvShape } f s ∧ (s.eng e.val).chansIdle (BitVec.toNat f.imm % 4) = false)
    ∧ (∃ (e : Fin 16) (f : KvF) (s : State), CanIssue e 160 { imm := ImmUse.any : KvShape } f s ∧ (s.eng e.val).writesPending = false)
    ∧ (∃ (e : Fin 16) (f : KvF) (s : State), CanIssue e 160 { imm := ImmUse.any : KvShape } f s ∧ (s.eng e.val).writesPending = true)
    ∧ (∃ (e : Fin 16) (f : KvF) (s : State), CanIssue e 161 { a := RegUse.s, imm := ImmUse.any : KvShape } f s ∧ 0 ≤ BitVec.toInt (s.fence (BitVec.toNat f.imm % 16) - (s.eng e.val).s f.a.toNat))
    ∧ (∃ (e : Fin 16) (f : KvF) (s : State), CanIssue e 161 { a := RegUse.s, imm := ImmUse.any : KvShape } f s ∧ BitVec.toInt (s.fence (BitVec.toNat f.imm % 16) - (s.eng e.val).s f.a.toNat) < 0)
    ∧ (∃ (e : Fin 16) (f : KvF) (s : State) (m : Nat), CanIssue e 176 { d := RegUse.s : KvShape } f s ∧ (s.eng e.val).firstSlot = some m)
    ∧ (∃ (e : Fin 16) (f : KvF) (s : State), CanIssue e 176 { d := RegUse.s : KvShape } f s ∧ (s.eng e.val).firstSlot = none)
    ∧ (∃ (e : Fin 16) (f : KvF) (s : State) (m : Nat), CanIssue e 177 { a := RegUse.s : KvShape } f s ∧ (m, true) ∈ (s.eng e.val).slots ∧ BitVec.toNat ((s.eng e.val).s f.a.toNat) = 114688 + 2048 * m)
    ∧ (∃ (e : Fin 16) (f : KvF) (s : State) (p : BeprogC), CanIssue e 1 ({} : KvShape) f s ∧ (s.eng e.val).prog = some p ∧ p.kind = ProgKind.user ∧ (s.eng e.val).jobWrites = true)
    ∧ (∃ (e : Fin 16) (f : KvF) (s : State) (p : BeprogC), CanIssue e 1 ({} : KvShape) f s ∧ (s.eng e.val).prog = some p ∧ p.kind = ProgKind.user ∧ (s.eng e.val).jobWrites = false ∧ s.isF (fBE_STATUS_TRIG_PENDING e.val) = false ∧ s.getF (fBE_JOB_TRIG_SRC e.val) ≠ 2) :=
  ⟨⟨0, { pg := 0x0#3, pn := false, d := 0x00#5, a := 0x04#5, b := 0x00#5, c := 0x00#5, imm := 0x00000001#32 }, wIssue 144 { pg := 0x0#3, pn := false, d := 0x00#5, a := 0x04#5, b := 0x00#5, c := 0x00#5, imm := 0x00000001#32 } wDma, { src := 8192, dst := 256, width := 64, height := 3, srcStride := 128, dstStride := 64, toSys := false, sig := true, fence := 5, mute := false }, by decide +kernel⟩,
    ⟨0, { pg := 0x0#3, pn := false, d := 0x00#5, a := 0x04#5, b := 0x00#5, c := 0x00#5, imm := 0x00000000#32 }, wIssue 144 { pg := 0x0#3, pn := false, d := 0x00#5, a := 0x04#5, b := 0x00#5, c := 0x00#5, imm := 0x00000000#32 } wFull, { src := 8192, dst := 256, width := 64, height := 3, srcStride := 128, dstStride := 64, toSys := false, sig := true, fence := 5, mute := false }, by decide +kernel⟩,
    ⟨0, { pg := 0x0#3, pn := false, d := 0x00#5, a := 0x00#5, b := 0x00#5, c := 0x00#5, imm := 0x00000000#32 }, wIssue 145 { pg := 0x0#3, pn := false, d := 0x00#5, a := 0x00#5, b := 0x00#5, c := 0x00#5, imm := 0x00000000#32 } wEng, by decide +kernel⟩,
    ⟨0, { pg := 0x0#3, pn := false, d := 0x00#5, a := 0x00#5, b := 0x00#5, c := 0x00#5, imm := 0x00000003#32 }, wIssue 145 { pg := 0x0#3, pn := false, d := 0x00#5, a := 0x00#5, b := 0x00#5, c := 0x00#5, imm := 0x00000003#32 } wFull, by decide +kernel⟩,
    ⟨0, { pg := 0x0#3, pn := false, d := 0x00#5, a := 0x00#5, b := 0x00#5, c := 0x00#5, imm := 0x00000000#32 }, wIssue 160 { pg := 0x0#3, pn := false, d := 0x00#5, a := 0x00#5, b := 0x00#5, c := 0x00#5, imm := 0x00000000#32 } wEng, by decide +kernel⟩,
    ⟨0, { pg := 0x0#3, pn := false, d := 0x00#5, a := 0x00#5, b := 0x00#5, c := 0x00#5, imm := 0x00000000#32 }, wIssue 160 { pg := 0x0#3, pn := false, d := 0x00#5, a := 0x00#5, b := 0x00#5, c := 0x00#5, imm := 0x00000000#32 } wWrites, by decide +kernel⟩,
    ⟨0, { pg := 0x0#3, pn := false, d := 0x00#5, a := 0x00#5, b := 0x00#5, c := 0x00#5, imm := 0x00000000#32 }, wIssue 161 { pg := 0x0#3, pn := false, d := 0x00#5, a := 0x00#5, b := 0x00#5, c := 0x00#5, imm := 0x00000000#32 } wEng, by decide +kernel⟩,
    ⟨0, { pg := 0x0#3, pn := false, d := 0x00#5, a := 0x01#5, b := 0x00#5, c := 0x00#5, imm := 0x00001fff#32 }, wIssue 161 { pg := 0x0#3, pn := false, d := 0x00#5, a := 0x01#5, b := 0x00#5, c := 0x00#5, imm := 0x00001fff#32 } wEng, by decide +kernel⟩,
    ⟨0, { pg := 0x0#3, pn := false, d := 0x00#5, a := 0x00#5, b := 0x00#5, c := 0x00#5, imm := 0x00000000#32 }, wIssue 176 { pg := 0x0#3, pn := false, d := 0x00#5, a := 0x00#5, b := 0x00#5, c := 0x00#5, imm := 0x00000000#32 } wEng, 2, by decide +kernel⟩,
    ⟨0, { pg := 0x0#3, pn := false, d := 0x00#5, a := 0x00#5, b := 0x00#5, c := 0x00#5, imm := 0x00000000#32 }, wIssue 176 { pg := 0x0#3, pn := false, d := 0x00#5, a := 0x00#5, b := 0x00#5, c := 0x00#5, imm := 0x00000000#32 } wNoSlot, by decide +kernel⟩,
    ⟨0, { pg := 0x0#3, pn := false, d := 0x00#5, a := 0x06#5, b := 0x00#5, c := 0x00#5, imm := 0x00000000#32 }, wIssue 177 { pg := 0x0#3, pn := false, d := 0x00#5, a := 0x06#5, b := 0x00#5, c := 0x00#5, imm := 0x00000000#32 } wEng, 0, by decide +kernel⟩,
    ⟨0, { pg := 0x0#3, pn := false, d := 0x00#5, a := 0x00#5, b := 0x00#5, c := 0x00#5, imm := 0x00000000#32 }, wIssue 1 { pg := 0x0#3, pn := false, d := 0x00#5, a := 0x00#5, b := 0x00#5, c := 0x00#5, imm := 0x00000000#32 } wWrites, wProg, by decide +kernel⟩,
    ⟨0, { pg := 0x0#3, pn := false, d := 0x00#5, a := 0x00#5, b := 0x00#5, c := 0x00#5, imm := 0x00000000#32 }, wIssue 1 { pg := 0x0#3, pn := false, d := 0x00#5, a := 0x00#5, b := 0x00#5, c := 0x00#5, imm := 0x00000000#32 } wEng, wProg, by decide +kernel⟩⟩

theorem witness_EventPost :
    (∃ (e : Fin 16) (f : KvF) (s : State), CanIssue e 179 { a := RegUse.s, imm := ImmUse.any : KvShape } f s ∧ BitVec.getLsbD f.imm 15 = true ∧ 1 ≤ BitVec.toNat f.imm / 2 ^ 16 % 4 ∧ BitVec.toNat f.imm < 2 ^ 18)
    ∧ (∃ (e : Fin 16) (f : KvF) (s : State), CanIssue e 179 { a := RegUse.s, imm := ImmUse.any : KvShape } f s ∧ ¬(BitVec.getLsbD f.imm 15 = true ∧ 1 ≤ BitVec.toNat f.imm / 2 ^ 16 % 4 ∧ BitVec.toNat f.imm < 2 ^ 18) ∧ Calm e.val s) :=
  ⟨⟨0, { pg := 0x0#3, pn := false, d := 0x00#5, a := 0x02#5, b := 0x00#5, c := 0x00#5, imm := 0x00018001#32 }, wIssue 179 { pg := 0x0#3, pn := false, d := 0x00#5, a := 0x02#5, b := 0x00#5, c := 0x00#5, imm := 0x00018001#32 } wEng, by decide +kernel⟩,
    ⟨0, { pg := 0x0#3, pn := false, d := 0x00#5, a := 0x02#5, b := 0x00#5, c := 0x00#5, imm := 0x00008001#32 }, wIssue 179 { pg := 0x0#3, pn := false, d := 0x00#5, a := 0x02#5, b := 0x00#5, c := 0x00#5, imm := 0x00008001#32 } wEng, by decide +kernel⟩⟩

theorem witness_EngineCommands :
    (∃ (e : Fin 16) (s : State), Clean s ∧ Takes s (rBE_CMD e.val) ∧ s.beState e.val = beIDLE ∧ s.beGated = false ∧ (s.eng e.val).next = none)
    ∧ (∃ (e : Fin 16) (s : State), Takes s (rBE_CMD e.val) ∧ (s.beState e.val = beRUN ∨ s.beState e.val = beWAIT))
    ∧ (∃ (e : Fin 16) (s : State), Takes s (rBE_CMD e.val) ∧ s.beState e.val ≠ beOFF ∧ s.beState e.val ≠ beRUN ∧ s.beState e.val ≠ beWAIT)
    ∧ (∃ (e : Fin 16) (s : State), Takes s (rBE_CMD e.val) ∧ s.beState e.val ≠ beOFF ∧ s.beState e.val ≠ beSTOPPING ∧ (s.eng e.val).lost = false)
    ∧ (∃ (e : Fin 16) (s : State), Clean s ∧ s.beState e.val = beLOADING ∧ s.beGated = true)
    ∧ (∃ (e : Fin 16) (s : State), Clean s ∧ s.beState e.val = beLOADING ∧ s.beGated = false)
    ∧ (∃ (e : Fin 16) (srcs : BitVec 5) (k : Nat) (s : State), Clean s ∧ s.trigSource e.val srcs = some k ∧ s.beGated = false ∧ s.beState e.val = beIDLE ∧ (s.eng e.val).next = none)
    ∧ (∃ (e : Fin 16) (srcs : BitVec 5) (k : Nat) (s : State), Clean s ∧ s.trigSource e.val srcs = some k ∧ s.beGated = false ∧ (s.beState e.val = beRUN ∨ s.beState e.val = beWAIT) ∧ s.isF (fBE_STATUS_TRIG_PENDING e.val) = false) :=
  ⟨⟨0, wIdle, by decide +kernel⟩,
    ⟨0, wEng, by decide +kernel⟩,
    ⟨0, wIdle, by decide +kernel⟩,
    ⟨0, wEng, by decide +kernel⟩,
    ⟨0, wGated, by decide +kernel⟩,
    ⟨0, wLoading, by decide +kernel⟩,
    ⟨0, 1, 0, wIdle, by decide +kernel⟩,
    ⟨0, 1, 0, wEng, by decide +kernel⟩⟩

theorem witness_WaitsEnd :
    (∃ (e : Fin 16) (s : State) (p : BeprogC), s.waits e.val = true ∧ (s.eng e.val).wait = KWait.halt ∧ (s.eng e.val).jobWrites = false ∧ (s.eng e.val).prog = some p ∧ p.kind = ProgKind.user ∧ s.isF (fBE_STATUS_TRIG_PENDING e.val) = false ∧ s.getF (fBE_JOB_TRIG_SRC e.val) ≠ 2)
    ∧ (∃ (e : Fin 16) (s : State) (ch : Nat) (d : Desc), s.waits e.val = true ∧ (s.eng e.val).wait = KWait.dmaq ch d ∧ ((s.eng e.val).chan ch).length < 4)
    ∧ (∃ (e : Fin 16) (s : State) (m : Nat), s.waits e.val = true ∧ (s.eng e.val).wait = KWait.dmawait m ∧ (s.eng e.val).chansIdle m = true)
    ∧ (∃ (e : Fin 16) (s : State) (k : Nat), s.waits e.val = true ∧ (s.eng e.val).wait = KWait.fsig k ∧ (s.eng e.val).writesPending = false)
    ∧ (∃ (e : Fin 16) (s : State) (k : Nat) (x : Word), s.waits e.val = true ∧ (s.eng e.val).wait = KWait.fwait k x ∧ s.fenceReached k x = true)
    ∧ (∃ (e : Fin 16) (s : State) (k : Nat) (x : Word), s.waits e.val = true ∧ (s.eng e.val).wait = KWait.fwait k x ∧ Calm e.val s ∧ 800 * max 1 (s.regN (rBE_FWAIT_LIMIT e.val) % 65536) < s.time.now - (s.eng e.val).limFrom)
    ∧ (∃ (e : Fin 16) (s : State) (k : Nat) (x : Word), s.waits e.val = true ∧ (s.eng e.val).wait = KWait.fwait k x ∧ Calm e.val s ∧ s.time.now - (s.eng e.val).limFrom ≤ 800 * max 1 (s.regN (rBE_FWAIT_LIMIT e.val) % 65536))
    ∧ (∃ (e : Fin 16) (s : State) (d : BitVec 5) (m : Nat), s.waits e.val = true ∧ (s.eng e.val).wait = KWait.mbrecv d.toNat ∧ (s.eng e.val).firstSlot = some m)
    ∧ (∃ (e : Fin 16) (s : State), s.beGated = false ∧ (s.beState e.val = beRUN ∨ s.beState e.val = beWAIT) ∧ Calm e.val s ∧ 800 * max 1 (s.regN (rBE_JOB_TIME_LIMIT e.val) % 65536) < s.jobTicks e.val)
    ∧ (∃ (e : Fin 16) (s : State), s.beGated = false ∧ (s.beState e.val = beRUN ∨ s.beState e.val = beWAIT) ∧ Calm e.val s ∧ s.jobTicks e.val ≤ 800 * max 1 (s.regN (rBE_JOB_TIME_LIMIT e.val) % 65536)) :=
  ⟨⟨0, wHalt, wProg, by decide +kernel⟩,
    ⟨0, wRoom, 0, { src := 8192, dst := 256, width := 64, height := 3, srcStride := 128, dstStride := 64, toSys := false, sig := true, fence := 5, mute := false }, by decide +kernel⟩,
    ⟨0, wDmaWait, 3, by decide +kernel⟩,
    ⟨0, wFsig, 4, by decide +kernel⟩,
    ⟨0, wFwait, 3, 0, by decide +kernel⟩,
    ⟨0, { wFwait with time := { wFwait.time with now := 100000000 } }, 3, 0, by decide +kernel⟩,
    ⟨0, wFwait, 3, 0, by decide +kernel⟩,
    ⟨0, wMbrecv, 1, 2, by decide +kernel⟩,
    ⟨0, { wHalt with time := { wHalt.time with now := 100000000 } }, by decide +kernel⟩,
    ⟨0, wHalt, by decide +kernel⟩⟩

theorem witness_DmaTransfers :
    (∃ (s : State), s.beGated = true)
    ∧ (∃ (e : Fin 16) (ch : Fin 2) (s : State) (x : Desc) (rest : List Desc), Clean s ∧ s.beGated = false ∧ (s.eng e.val).chan ch.val = x :: rest ∧ x.toSys = false ∧ s.wp ≤ 2 ^ 32 ∧ x.src + (x.height - 1) * x.srcStride + x.width ≤ s.wp ∧ x.width ≤ x.dstStride ∧ x.dst + (x.height - 1) * x.dstStride + x.width ≤ 114688 ∧ 0 < x.width ∧ (s.eng e.val).trap = none)
    ∧ (∃ (e : Fin 16) (ch : Fin 2) (s : State), s.beGated = false ∧ (s.eng e.val).chan ch.val ≠ [] ∧ (s.eng e.val).chan (1 - ch.val) = [] ∧ (s.eng e.val).lastFault = none ∧ (s.eng e.val).trap = none ∧ (s.beState e.val = beRUN ∨ s.beState e.val = beWAIT)) :=
  ⟨⟨wGated, by decide +kernel⟩,
    ⟨0, 0, wChan, { src := 8192, dst := 256, width := 64, height := 3, srcStride := 128, dstStride := 64, toSys := false, sig := true, fence := 5, mute := false }, [], by decide +kernel⟩,
    ⟨0, 0, wChan, by decide +kernel⟩⟩

theorem witness_LampTimeContinuous :
    ∃ (d : Fin 2) (v : Word) (m : SyncIn) (gm : Nat) (able : Bool) (c : Instr), c ∈ [Instr.incrWrite d v, .offsetWrite d v, .adjWrite d v, .offsetMeasWrite d v, .domainSwitch v, .domainStale, .gptpSync d m, .gptpAnnounce d gm, .gptpLost d able] :=
  ⟨1, 0x80000000, .twoStep 0, 0, true, .domainStale, by simp⟩

theorem witness_TimeCorrections :
    (∃ (d : Fin 2) (v : Word) (s : State), Takes s (rTIME_INCR_FRAC d.val) ∧ s.isF (fTIME_DOM_CFG_SERVO d.val) = false ∧ incrMin ≤ 2 ^ 32 * (s.regN (rTIME_INCR_INT d.val) % 16) + BitVec.toNat v ∧ 2 ^ 32 * (s.regN (rTIME_INCR_INT d.val) % 16) + BitVec.toNat v ≤ incrMax)
    ∧ (∃ (d : Fin 2) (v : Word) (s : State), Takes s (rTIME_INCR_FRAC d.val) ∧ s.isF (fTIME_DOM_CFG_SERVO d.val) = false ∧ (2 ^ 32 * (s.regN (rTIME_INCR_INT d.val) % 16) + BitVec.toNat v < incrMin ∨ incrMax < 2 ^ 32 * (s.regN (rTIME_INCR_INT d.val) % 16) + BitVec.toNat v))
    ∧ (∃ (d : Fin 2) (s : State), Takes s (rTIME_OFFSET_HI d.val))
    ∧ (∃ (d : Fin 2) (s : State), Takes s (rTIME_ADJ d.val))
    ∧ (∃ (d : Fin 2) (v : Word) (s : State), Takes s (rTIME_OFFSET_MEAS d.val) ∧ s.isF (fTIME_DOM_CFG_SERVO d.val) = true ∧ (1000 < BitVec.toInt v ∨ BitVec.toInt v < -1000))
    ∧ (∃ (d : Fin 2) (v : Word) (s : State), Takes s (rTIME_OFFSET_MEAS d.val) ∧ s.isF (fTIME_DOM_CFG_SERVO d.val) = true ∧ -1000 ≤ BitVec.toInt v ∧ BitVec.toInt v ≤ 1000) :=
  ⟨⟨0, 1073741824, wRst, by decide +kernel⟩,
    ⟨0, 0, wRst, by decide +kernel⟩,
    ⟨0, wRst, by decide +kernel⟩,
    ⟨0, wRst, by decide +kernel⟩,
    ⟨0, 1073741824, wServo, by decide +kernel⟩,
    ⟨0, 0, wServo, by decide +kernel⟩⟩

theorem witness_TimeDomains :
    (∃ (s : State), Takes s rTIME_SNAP_CMD)
    ∧ (∃ (s : State), s.boot.porst = false)
    ∧ (∃ (s : State), s.boot.porst = true)
    ∧ (∃ (s : State), Takes s rTIME_CTRL ∧ s.isF fTIME_STATUS_HOLDOVER = false)
    ∧ (∃ (s : State), s.holdPast s.active = false)
    ∧ (∃ (s : State), s.holdPast s.active = true ∧ s.isF (fTIME_DOM_CFG_VALID s.active) = true ∧ (s.dom s.active).stale = false ∧ s.isF fTIME_CTRL_AUTO = false)
    ∧ (∃ (s : State), s.holdPast s.active = true ∧ s.isF (fTIME_DOM_CFG_VALID s.active) = true ∧ (s.dom s.active).stale = false ∧ s.isF fTIME_CTRL_AUTO = true ∧ s.domFresh (1 - s.active) = true)
    ∧ (∃ (s : State), (s.time.resid < -residLimit ∨ residLimit < s.time.resid) ∧ s.tgsOn = [] ∧ s.time.sched = [])
    ∧ (∃ (s : State) (n : Nat), s.lampTg = some n ∧ s.lampFine.cast < 2 ^ 32 * (s.tgOf n).e)
    ∧ (∃ (s : State), s.isF fTIME_STATUS_SLEWING = true ∧ slewStep s.time.resid (s.dom s.active).incr = 0)
    ∧ (∃ (s : State), s.isF fTIME_STATUS_SLEWING = false ∨ slewStep s.time.resid (s.dom s.active).incr ≠ 0) :=
  ⟨⟨wRst, by decide +kernel⟩,
    ⟨State.reset, by decide +kernel⟩,
    ⟨wRst, by decide +kernel⟩,
    ⟨wRst, by decide +kernel⟩,
    ⟨wRst, by decide +kernel⟩,
    ⟨wDoms, by decide +kernel⟩,
    ⟨wAuto, by decide +kernel⟩,
    ⟨wStep, by decide +kernel⟩,
    ⟨wSwap, 0, by decide +kernel⟩,
    ⟨{ wSlew with time := { resid := 1 } }, by decide +kernel⟩,
    ⟨wRst, by decide +kernel⟩⟩

theorem witness_ActiveDomainWrite :
    (∃ (v : Word) (s : State), Takes s rTIME_CTRL ∧ s.isF fTIME_STATUS_HOLDOVER = false ∧ BitVec.toNat v % 2 ≠ s.active ∧ s.boot.fwStarted = true ∧ s.outboxOf srcTIME < 4)
    ∧ (∃ (v : Word) (s : State), Takes s rTIME_CTRL ∧ s.isF fTIME_STATUS_HOLDOVER = false ∧ BitVec.toNat v % 2 = s.active) :=
  ⟨⟨1, wFw, by decide +kernel⟩,
    ⟨0, wFw, by decide +kernel⟩⟩

theorem witness_Gptp :
    (∃ (i : Fin 2) (c : GptpC) (s : State) (ago : Nat) (origin : Nat), s.loader.cfg.ti.gptp[i.val]? = some c ∧ s.fwRuns = true ∧ s.time.gptp.length = 2 ∧ s.time.pdelay.length = 2 ∧ s.time.pdelaySeq.length = 2 ∧ -200 ≤ syncOffset i.val c (gptpTime c.port s.loader.cfg.ti.rxSer s.loader.cfg.ti.rxLat ago s) origin s ∧ syncOffset i.val c (gptpTime c.port s.loader.cfg.ti.rxSer s.loader.cfg.ti.rxLat ago s) origin s ≤ 200)
    ∧ (∃ (i : Fin 2) (c : GptpC) (s : State) (ago : Nat) (origin : Nat), s.loader.cfg.ti.gptp[i.val]? = some c ∧ s.fwRuns = true ∧ s.time.gptp.length = 2 ∧ s.time.pdelay.length = 2 ∧ s.time.pdelaySeq.length = 2 ∧ (syncOffset i.val c (gptpTime c.port s.loader.cfg.ti.rxSer s.loader.cfg.ti.rxLat ago s) origin s < -200 ∨ 200 < syncOffset i.val c (gptpTime c.port s.loader.cfg.ti.rxSer s.loader.cfg.ti.rxLat ago s) origin s))
    ∧ (∃ (i : Fin 2) (c : GptpC) (s : State), s.loader.cfg.ti.gptp[i.val]? = some c ∧ s.fwRuns = true ∧ s.time.gptp.length = 2 ∧ s.time.pdelay.length = 2 ∧ s.time.pdelaySeq.length = 2)
    ∧ (∃ (i : Fin 2) (c : GptpC) (s : State) (origin : Nat) (t0 : Nat), s.loader.cfg.ti.gptp[i.val]? = some c ∧ s.fwRuns = true ∧ s.time.gptp.length = 2 ∧ s.time.pdelay.length = 2 ∧ s.time.pdelaySeq.length = 2 ∧ (s.gptpOf i.val).wait = some t0 ∧ -200 ≤ syncOffset i.val c t0 origin s ∧ syncOffset i.val c t0 origin s ≤ 200)
    ∧ (∃ (i : Fin 2) (c : GptpC) (s : State), s.loader.cfg.ti.gptp[i.val]? = some c ∧ s.fwRuns = true ∧ s.time.gptp.length = 2 ∧ s.time.pdelay.length = 2 ∧ s.time.pdelaySeq.length = 2 ∧ (s.gptpOf i.val).wait = none)
    ∧ (∃ (i : Fin 2) (c : GptpC) (s : State) (gm : Nat), s.loader.cfg.ti.gptp[i.val]? = some c ∧ s.fwRuns = true ∧ s.time.gptp.length = 2 ∧ s.time.pdelay.length = 2 ∧ s.time.pdelaySeq.length = 2 ∧ gm ≠ c.gm)
    ∧ (∃ (i : Fin 2) (c : GptpC) (s : State) (able : Bool), s.loader.cfg.ti.gptp[i.val]? = some c ∧ s.fwRuns = true ∧ s.time.gptp.length = 2 ∧ s.time.pdelay.length = 2 ∧ s.time.pdelaySeq.length = 2 ∧ (able = true → ∀ (t0 : Nat), (s.gptpOf i.val).last = some t0 → t0 + 3 * (800000000 / 2 ^ (s.gptpOf i.val).interval.natAbs) ≤ s.time.now))
    ∧ (∃ (i : Fin 2) (c : GptpC) (s : State) (t0 : Nat), s.loader.cfg.ti.gptp[i.val]? = some c ∧ s.fwRuns = true ∧ s.time.gptp.length = 2 ∧ s.time.pdelay.length = 2 ∧ s.time.pdelaySeq.length = 2 ∧ (s.gptpOf i.val).last = some t0 ∧ s.time.now < t0 + 3 * (800000000 / 2 ^ (s.gptpOf i.val).interval.natAbs))
    ∧ (∃ (i : Fin 2) (c : GptpC) (s : State) (k : Int), s.loader.cfg.ti.gptp[i.val]? = some c ∧ s.fwRuns = true ∧ s.time.gptp.length = 2 ∧ s.time.pdelay.length = 2 ∧ s.time.pdelaySeq.length = 2 ∧ -5 ≤ k ∧ k ≤ 0)
    ∧ (∃ (i : Fin 2) (c : GptpC) (s : State) (k : Int), s.loader.cfg.ti.gptp[i.val]? = some c ∧ s.fwRuns = true ∧ s.time.gptp.length = 2 ∧ s.time.pdelay.length = 2 ∧ s.time.pdelaySeq.length = 2 ∧ (k < -5 ∨ 0 < k))
    ∧ (∃ (i : Fin 2) (p : Fin 2) (c : GptpC) (s : State), s.loader.cfg.ti.gptp[i.val]? = some c ∧ s.fwRuns = true ∧ s.time.gptp.length = 2 ∧ s.time.pdelay.length = 2 ∧ s.time.pdelaySeq.length = 2 ∧ s.macsecOn p.val = false)
    ∧ (∃ (i : Fin 2) (p : Fin 2) (c : GptpC) (s : State) (seq : BitVec 16) (t1 : Nat), s.loader.cfg.ti.gptp[i.val]? = some c ∧ s.fwRuns = true ∧ s.time.gptp.length = 2 ∧ s.time.pdelay.length = 2 ∧ s.time.pdelaySeq.length = 2 ∧ c.port = p.val ∧ s.time.pdelay.getD p.val none = some t1 ∧ (seq.toNat + 1) % 65536 = s.time.pdelaySeq.getD p.val 0)
    ∧ (∃ (i : Fin 2) (p : Fin 2) (c : GptpC) (s : State) (seq : BitVec 16), s.loader.cfg.ti.gptp[i.val]? = some c ∧ s.fwRuns = true ∧ s.time.gptp.length = 2 ∧ s.time.pdelay.length = 2 ∧ s.time.pdelaySeq.length = 2 ∧ c.port = p.val ∧ (s.time.pdelay.getD p.val none = none ∨ (seq.toNat + 1) % 65536 ≠ s.time.pdelaySeq.getD p.val 0))
    ∧ (∃ (s : State), s.fwRuns = false) :=
  ⟨⟨0, wGptpC, wGptp, 0, 0, by decide +kernel⟩,
    ⟨0, wGptpC, wGptp, 0, 1000000, by decide +kernel⟩,
    ⟨0, wGptpC, wGptp, by decide +kernel⟩,
    ⟨0, wGptpC, wGptpOf { wait := some 0 }, 0, 0, by decide +kernel⟩,
    ⟨0, wGptpC, wGptp, by decide +kernel⟩,
    ⟨0, wGptpC, wGptp, 7, by decide +kernel⟩,
    ⟨0, wGptpC, wGptp, false, by decide +kernel, by decide +kernel, by decide +kernel, by decide +kernel, by decide +kernel, by simp⟩,
    ⟨0, wGptpC, wGptpOf { last := some 0 }, 0, by decide +kernel⟩,
    ⟨0, wGptpC, wGptp, -5, by decide +kernel⟩,
    ⟨0, wGptpC, wGptp, 1, by decide +kernel⟩,
    ⟨0, 0, wGptpC, wGptp, by decide +kernel⟩,
    ⟨0, 0, wGptpC, wGptp, 0, 0, by decide +kernel⟩,
    ⟨0, 0, wGptpC, wGptp, 5, by decide +kernel⟩,
    ⟨wRst, by decide +kernel⟩⟩

theorem witness_SchedArming :
    (∃ (e : Fin 64) (v : Word) (s : State), Takes s (rTIME_SCHED_CFG e.val) ∧ (s.setRegN (rTIME_SCHED_CFG e.val) (2 ^ 31 + 2 ^ 27 * (BitVec.toNat v / 2 ^ 27 % 16) + 2 ^ 20 * (BitVec.toNat v / 2 ^ 20 % 16))).schedArgOk ((s.setRegN (rTIME_SCHED_CFG e.val) (2 ^ 31 + 2 ^ 27 * (BitVec.toNat v / 2 ^ 27 % 16) + 2 ^ 20 * (BitVec.toNat v / 2 ^ 20 % 16))).schedHeld e.val) = true ∧ (((s.setRegN (rTIME_SCHED_CFG e.val) (2 ^ 31 + 2 ^ 27 * (BitVec.toNat v / 2 ^ 27 % 16) + 2 ^ 20 * (BitVec.toNat v / 2 ^ 20 % 16))).schedHeld e.val).mode = sFRAME ∨ (s.setRegN (rTIME_SCHED_CFG e.val) (2 ^ 31 + 2 ^ 27 * (BitVec.toNat v / 2 ^ 27 % 16) + 2 ^ 20 * (BitVec.toNat v / 2 ^ 20 % 16))).future ((s.setRegN (rTIME_SCHED_CFG e.val) (2 ^ 31 + 2 ^ 27 * (BitVec.toNat v / 2 ^ 27 % 16) + 2 ^ 20 * (BitVec.toNat v / 2 ^ 20 % 16))).schedHeld e.val).target = true ∧ (s.setRegN (rTIME_SCHED_CFG e.val) (2 ^ 31 + 2 ^ 27 * (BitVec.toNat v / 2 ^ 27 % 16) + 2 ^ 20 * (BitVec.toNat v / 2 ^ 20 % 16))).tooFar ((s.setRegN (rTIME_SCHED_CFG e.val) (2 ^ 31 + 2 ^ 27 * (BitVec.toNat v / 2 ^ 27 % 16) + 2 ^ 20 * (BitVec.toNat v / 2 ^ 20 % 16))).schedHeld e.val).target = false))
    ∧ (∃ (e : Fin 64) (v : Word) (s : State), Takes s (rTIME_SCHED_CFG e.val) ∧ (s.setRegN (rTIME_SCHED_CFG e.val) (2 ^ 31 + 2 ^ 27 * (BitVec.toNat v / 2 ^ 27 % 16) + 2 ^ 20 * (BitVec.toNat v / 2 ^ 20 % 16))).schedArgOk ((s.setRegN (rTIME_SCHED_CFG e.val) (2 ^ 31 + 2 ^ 27 * (BitVec.toNat v / 2 ^ 27 % 16) + 2 ^ 20 * (BitVec.toNat v / 2 ^ 20 % 16))).schedHeld e.val) = false)
    ∧ (∃ (e : Fin 64) (v : Word) (s : State), Takes s (rTIME_SCHED_CFG e.val) ∧ (s.setRegN (rTIME_SCHED_CFG e.val) (2 ^ 31 + 2 ^ 27 * (BitVec.toNat v / 2 ^ 27 % 16) + 2 ^ 20 * (BitVec.toNat v / 2 ^ 20 % 16))).schedArgOk ((s.setRegN (rTIME_SCHED_CFG e.val) (2 ^ 31 + 2 ^ 27 * (BitVec.toNat v / 2 ^ 27 % 16) + 2 ^ 20 * (BitVec.toNat v / 2 ^ 20 % 16))).schedHeld e.val) = true ∧ ((s.setRegN (rTIME_SCHED_CFG e.val) (2 ^ 31 + 2 ^ 27 * (BitVec.toNat v / 2 ^ 27 % 16) + 2 ^ 20 * (BitVec.toNat v / 2 ^ 20 % 16))).schedHeld e.val).mode ≠ sFRAME ∧ (s.setRegN (rTIME_SCHED_CFG e.val) (2 ^ 31 + 2 ^ 27 * (BitVec.toNat v / 2 ^ 27 % 16) + 2 ^ 20 * (BitVec.toNat v / 2 ^ 20 % 16))).tooFar ((s.setRegN (rTIME_SCHED_CFG e.val) (2 ^ 31 + 2 ^ 27 * (BitVec.toNat v / 2 ^ 27 % 16) + 2 ^ 20 * (BitVec.toNat v / 2 ^ 20 % 16))).schedHeld e.val).target = true)
    ∧ (∃ (e : Fin 64) (s : State), Takes s (rTIME_SCHED_TARGET_LO e.val) ∧ s.isF (fTIME_SCHED_CFG_EN e.val) = false)
    ∧ (∃ (e : Fin 64) (v : Word) (s : State), Takes s (rTIME_SCHED_TARGET_LO e.val) ∧ s.isF (fTIME_SCHED_CFG_EN e.val) = true ∧ (s.setReg (rTIME_SCHED_TARGET_LO e.val) v).schedArgOk ((s.setReg (rTIME_SCHED_TARGET_LO e.val) v).schedHeld e.val) = true ∧ (((s.setReg (rTIME_SCHED_TARGET_LO e.val) v).schedHeld e.val).mode = sFRAME ∨ (s.setReg (rTIME_SCHED_TARGET_LO e.val) v).future ((s.setReg (rTIME_SCHED_TARGET_LO e.val) v).schedHeld e.val).target = true ∧ (s.setReg (rTIME_SCHED_TARGET_LO e.val) v).tooFar ((s.setReg (rTIME_SCHED_TARGET_LO e.val) v).schedHeld e.val).target = false))
    ∧ (∃ (e : Fin 64) (s : State), Takes s (rTIME_SCHED_CFG e.val) ∧ ∀ (x : SchedE), s.schedOf e.val = some x → s.schedDue x = false ∨ s.schedBehind e.val = true ∨ x.action = 7 ∧ s.asleep = true)
    ∧ (∃ (e : Fin 64) (s : State) (x : SchedE), Takes s (rTIME_SCHED_CFG e.val) ∧ s.schedOf e.val = some x ∧ x.mode = sONCE ∧ s.schedDue x = true ∧ s.schedBehind e.val = false ∧ ¬(x.action = 7 ∧ s.asleep = true)) :=
  ⟨⟨0, 0, wSched, by decide +kernel⟩,
    ⟨0, 0, wRst, by decide +kernel⟩,
    ⟨0, 0, wSchedFar, by decide +kernel⟩,
    ⟨0, wRst, by decide +kernel⟩,
    ⟨0, 1, wSchedOn, by decide +kernel⟩,
    ⟨0, wRst, by decide +kernel, fun x h => absurd (h.symm.trans (by decide +kernel : wRst.schedOf (0 : Fin 64).val = none)) (by simp)⟩,
    ⟨0, wPost, { mode := 0, late := 0, action := 0, arg := 0x18001, period := 1000, lo := 0, target := 0 }, by decide +kernel⟩⟩

theorem witness_SchedMatches :
    (∃ (e : Fin 64) (s : State) (x : SchedE), s.schedOf e.val = some x ∧ x.action = 0 ∧ s.boot.porst = true ∧ s.schedDue x = true ∧ s.schedBehind e.val = false ∧ x.mode ≤ 2 ∧ (x.mode = sPERIODIC → s.future ((x.target + x.period) % 2 ^ 64) = true))
    ∧ (∃ (e : Fin 64) (s : State) (x : SchedE), s.schedOf e.val = some x ∧ x.action = 0 ∧ s.boot.porst = true ∧ s.schedDue x = true ∧ s.schedBehind e.val = false ∧ x.mode = sPERIODIC ∧ s.future ((x.target + x.period) % 2 ^ 64) = false)
    ∧ (∃ (e : Fin 64) (s : State), s.boot.porst = false ∨ ∀ (x : SchedE), s.schedOf e.val = some x → x.action = 0 → s.schedDue x = false ∨ s.schedBehind e.val = true) :=
  ⟨⟨0, wPost, { mode := 0, late := 0, action := 0, arg := 0x00018001#32, period := 1000, lo := 0, target := 0 }, by decide +kernel⟩,
    ⟨0, wFw.setSched 0 (some { mode := 1, late := 0, action := 0, arg := 0x18001, period := 0, lo := 0, target := 0 }), { mode := 1, late := 0, action := 0, arg := 0x18001, period := 0, lo := 0, target := 0 }, by decide +kernel⟩,
    ⟨0, wRst, .inr (fun x h => absurd (h.symm.trans (by decide +kernel : wRst.schedOf (0 : Fin 64).val = none)) (by simp))⟩⟩

theorem witness_SchedActions :
    (∃ (e : Fin 64) (s : State) (x : SchedE), s.schedOf e.val = some x ∧ x.mode = sONCE ∧ s.boot.porst = true ∧ (x.action ≠ 7 ∨ s.asleep = false → s.schedDue x = true ∧ s.schedBehind e.val = false) ∧ x.action = 0 ∧ s.boot.fwStarted = true ∧ s.outboxOf srcTIME < 4)
    ∧ (∃ (e : Fin 64) (s : State) (x : SchedE), s.schedOf e.val = some x ∧ x.mode = sONCE ∧ s.boot.porst = true ∧ (x.action ≠ 7 ∨ s.asleep = false → s.schedDue x = true ∧ s.schedBehind e.val = false) ∧ x.action = 1 ∧ s.time.trgEnd.length = 2)
    ∧ (∃ (e : Fin 64) (s : State) (x : SchedE), s.schedOf e.val = some x ∧ x.mode = sONCE ∧ s.boot.porst = true ∧ (x.action ≠ 7 ∨ s.asleep = false → s.schedDue x = true ∧ s.schedBehind e.val = false) ∧ x.action = 2 ∧ BitVec.toNat x.arg < 4 ∧ (s.regN rTIME_SLOT_GATE).testBit (BitVec.toNat x.arg) = true)
    ∧ (∃ (e : Fin 64) (s : State) (x : SchedE) (n : Nat), s.schedOf e.val = some x ∧ x.mode = sONCE ∧ s.boot.porst = true ∧ (x.action ≠ 7 ∨ s.asleep = false → s.schedDue x = true ∧ s.schedBehind e.val = false) ∧ x.action = 3 ∧ n < s.tiles ∧ (BitVec.toNat x.arg).testBit n = true ∧ s.isF (fTG_SENSE_CFG_EN n) = false ∧ s.getF (fTG_SENSE_CFG_CHUNK n) = 0)
    ∧ (∃ (e : Fin 64) (s : State) (x : SchedE), s.schedOf e.val = some x ∧ x.mode = sONCE ∧ s.boot.porst = true ∧ (x.action ≠ 7 ∨ s.asleep = false → s.schedDue x = true ∧ s.schedBehind e.val = false) ∧ x.action = 4 ∧ BitVec.toNat x.arg = 1 ∧ s.isF fHK_ROUND_CFG_SCHED = true ∧ s.hkOn = true)
    ∧ (∃ (e : Fin 64) (s : State) (x : SchedE), s.schedOf e.val = some x ∧ x.mode = sONCE ∧ s.boot.porst = true ∧ (x.action ≠ 7 ∨ s.asleep = false → s.schedDue x = true ∧ s.schedBehind e.val = false) ∧ x.action = 5 ∧ BitVec.toNat x.arg = 0 ∧ s.timingBad ((s.stagedSet 7 false).set s.timing.lead) = 0)
    ∧ (∃ (e : Fin 64) (s : State) (x : SchedE) (n : Nat), s.schedOf e.val = some x ∧ x.mode = sONCE ∧ s.boot.porst = true ∧ (x.action ≠ 7 ∨ s.asleep = false → s.schedDue x = true ∧ s.schedBehind e.val = false) ∧ x.action = 6 ∧ Clean s ∧ n < 16 ∧ s.getF (fBE_JOB_TRIG_SRC n) = 1 ∧ s.getF (fBE_JOB_TRIG_SCHED_ENTRY n) = e.val ∧ s.beState n = beIDLE ∧ s.beGated = false ∧ (s.eng n).next = none)
    ∧ (∃ (e : Fin 64) (s : State) (x : SchedE), s.schedOf e.val = some x ∧ x.mode = sONCE ∧ s.boot.porst = true ∧ (x.action ≠ 7 ∨ s.asleep = false → s.schedDue x = true ∧ s.schedBehind e.val = false) ∧ x.action = 7 ∧ s.asleep = false)
    ∧ (∃ (e : Fin 64) (s : State) (x : SchedE), s.schedOf e.val = some x ∧ x.mode = sONCE ∧ s.boot.porst = true ∧ (x.action ≠ 7 ∨ s.asleep = false → s.schedDue x = true ∧ s.schedBehind e.val = false) ∧ x.action = 7 ∧ s.asleep = true ∧ s.wakePointCome x.target = true)
    ∧ (∃ (e : Fin 64) (s : State) (x : SchedE), s.schedOf e.val = some x ∧ x.mode = sONCE ∧ s.boot.porst = true ∧ (x.action ≠ 7 ∨ s.asleep = false → s.schedDue x = true ∧ s.schedBehind e.val = false) ∧ x.action = 7 ∧ s.asleep = true ∧ s.wakePointCome x.target = false) :=
  ⟨⟨0, wPost, { mode := 0, late := 0, action := 0, arg := 0x00018001#32, period := 1000, lo := 0, target := 0 }, by decide +kernel⟩,
    ⟨0, wPulse, { mode := 0, late := 0, action := 1, arg := 0x00000501#32, period := 1000, lo := 0, target := 0 }, by decide +kernel⟩,
    ⟨0, wFire, { mode := 0, late := 0, action := 2, arg := 0x00000003#32, period := 1000, lo := 0, target := 0 }, by decide +kernel⟩,
    ⟨0, wSweep, { mode := 0, late := 0, action := 3, arg := 0x00000001#32, period := 1000, lo := 0, target := 0 }, 0, by decide +kernel⟩,
    ⟨0, wConvert, { mode := 0, late := 0, action := 4, arg := 0x00000001#32, period := 1000, lo := 0, target := 0 }, by decide +kernel⟩,
    ⟨0, wPhase, { mode := 0, late := 0, action := 5, arg := 0x00000000#32, period := 1000, lo := 0, target := 0 }, by decide +kernel⟩,
    ⟨0, wWakeE, { mode := 0, late := 0, action := 6, arg := 0x00000000#32, period := 1000, lo := 0, target := 0 }, 0, by decide +kernel⟩,
    ⟨0, wWakeP, { mode := 0, late := 0, action := 7, arg := 0, period := 1000, lo := 0, target := 0 }, by decide +kernel⟩,
    ⟨0, wWakeS, { mode := 0, late := 0, action := 7, arg := 0, period := 1000, lo := 0, target := 0 }, by decide +kernel⟩,
    ⟨0, wWakeFar, { mode := 0, late := 0, action := 7, arg := 0, period := 1000, lo := 0, target := 1000000000000 }, by decide +kernel⟩⟩

theorem witness_TriggerAndCapture :
    (∃ (p : Fin 2) (s : State) (fin : Nat), s.time.trgEnd.length = 2 ∧ s.time.trgEnd.getD p.val none = some fin ∧ fin ≤ s.time.now)
    ∧ (∃ (p : Fin 2) (s : State) (fin : Nat), s.time.trgEnd.length = 2 ∧ s.time.trgEnd.getD p.val none = some fin ∧ s.time.now < fin)
    ∧ (∃ (p : Fin 2) (rising : Bool) (s : State), s.time.capQ.length = 2 ∧ s.time.capLast.length = 2 ∧ s.capTakes p.val rising = true ∧ (s.time.capQ.getD p.val []).length < 16)
    ∧ (∃ (p : Fin 2) (rising : Bool) (s : State), s.time.capQ.length = 2 ∧ s.time.capLast.length = 2 ∧ s.capTakes p.val rising = true ∧ 16 ≤ (s.time.capQ.getD p.val []).length)
    ∧ (∃ (p : Fin 2) (rising : Bool) (s : State), s.capTakes p.val rising = false)
    ∧ (∃ (s : State), s.boot.porst = false)
    ∧ (∃ (p : Fin 2) (rising : Bool) (st : Nat) (q : List (Bool × Nat)) (s : State), s.time.capQ.length = 2 ∧ s.boot.porst = true ∧ s.time.capQ.getD p.val [] = (rising, st) :: q ∧ st < 2 ^ 62 ∧ q.length < 16) :=
  ⟨⟨0, wTrg, 0, by decide +kernel⟩,
    ⟨0, wTrgOn, 1, by decide +kernel⟩,
    ⟨0, false, wCap, by decide +kernel⟩,
    ⟨0, false, wCapFull, by decide +kernel⟩,
    ⟨0, false, wRst, by decide +kernel⟩,
    ⟨State.reset, by decide +kernel⟩,
    ⟨0, true, 1, [], wCapOne, by decide +kernel⟩⟩

theorem witness_OtpCommands :
    (∃ (k : Fin 4) (s : State), s.boot.porst = true ∧ s.isF fBSTREAM_OTP_STATUS_BUSY = false ∧ s.otpTempOk = true ∧ nth none s.otp.keys k.val = none)
    ∧ (∃ (k : Fin 4) (s : State), s.boot.porst = true ∧ s.isF fBSTREAM_OTP_STATUS_BUSY = false ∧ s.otpTempOk = true ∧ s.revokeOk k.val = true)
    ∧ (∃ (s : State), s.boot.porst = true ∧ s.isF fBSTREAM_OTP_STATUS_BUSY = false ∧ s.otpTempOk = true ∧ s.bsState = bsRUNNING)
    ∧ (∃ (s : State), s.boot.porst = true ∧ s.isF fBSTREAM_OTP_STATUS_BUSY = false ∧ s.otpTempOk = true)
    ∧ (∃ (s : State), s.boot.porst = true ∧ s.isF fBSTREAM_OTP_STATUS_BUSY = false ∧ s.bsState = bsWAIT_HOST ∧ s.otp.wrapDisable = false)
    ∧ (∃ (s : State), s.isF fBSTREAM_OTP_STATUS_BUSY = true)
    ∧ (∃ (s : State), s.isF fBSTREAM_OTP_STATUS_BUSY = false ∧ s.otpTempOk = false) :=
  ⟨⟨0, wRst, by decide +kernel⟩,
    ⟨1, wRevoke, by decide +kernel⟩,
    ⟨(wBs bsRUNNING), by decide +kernel⟩,
    ⟨wRst, by decide +kernel⟩,
    ⟨(wBs bsWAIT_HOST), by decide +kernel⟩,
    ⟨wOtpBusy, by decide +kernel⟩,
    ⟨wHot, by decide +kernel⟩⟩

theorem witness_Staging :
    (∃ (s : State), Clean s ∧ s.boot.porst = true ∧ (s.bsState = bsWAIT_HOST ∨ s.bsState = bsFAILED))
    ∧ (∃ (s : State), s.boot.porst = true ∧ s.bsState = bsRUNNING ∧ (s.updState = upVERIFYING ∨ s.updState = upINSTALLING ∨ s.updState = upARMED))
    ∧ (∃ (s : State), Clean s ∧ s.boot.porst = true ∧ s.bsState = bsRUNNING ∧ s.updState = upRECEIVING ∧ s.regN rBSTREAM_STAGE_ADDR / 4 * 4 + 4 ≤ s.stageSize ∧ s.inDram (s.stageBase + s.regN rBSTREAM_STAGE_ADDR / 4 * 4) 4 = true)
    ∧ (∃ (s : State), s.bsState = bsLOAD_HOST)
    ∧ (∃ (s : State), s.bsState = bsRUNNING ∧ s.updState = upRECEIVING) :=
  ⟨⟨(wBs bsWAIT_HOST), by decide +kernel⟩,
    ⟨wUpd upVERIFYING, by decide +kernel⟩,
    ⟨wRecv, by decide +kernel⟩,
    ⟨(wBs bsLOAD_HOST), by decide +kernel⟩,
    ⟨wRecv, by decide +kernel⟩⟩

theorem witness_UpdateMachine :
    (∃ (s : State), s.boot.porst = true ∧ s.bsState = bsRUNNING ∧ (s.updState = upRECEIVING ∨ s.updState = upVERIFIED))
    ∧ (∃ (s : State), s.boot.porst = true ∧ (s.updState = upVERIFYING ∨ s.updState = upINSTALLING ∨ s.updState = upARMED))
    ∧ (∃ (s : State), Clean s ∧ s.updState = upVERIFYING)
    ∧ (∃ (s : State), s.boot.porst = true ∧ s.updState = upVERIFIED)
    ∧ (∃ (s : State), s.updState = upINSTALLING)
    ∧ (∃ (s : State), s.updState = upRECEIVING ∨ s.updState = upVERIFIED ∨ s.updState = upINSTALLING ∨ s.updState = upARMED)
    ∧ (∃ (s : State), s.updState = upVERIFYING) :=
  ⟨⟨(wUpd upRECEIVING), by decide +kernel⟩,
    ⟨(wUpd upVERIFYING), by decide +kernel⟩,
    ⟨(wUpd upVERIFYING), by decide +kernel⟩,
    ⟨(wUpd upVERIFIED), by decide +kernel⟩,
    ⟨(wUpd upINSTALLING), by decide +kernel⟩,
    ⟨(wUpd upRECEIVING), by decide +kernel⟩,
    ⟨(wUpd upVERIFYING), by decide +kernel⟩⟩

theorem witness_LoadPhases :
    (∃ (s : State), s.bsState = bsLOAD_HOST ∧ s.loader.failed = false)
    ∧ (∃ (s : State), s.loader.phase ≠ 1 ∨ s.bsState ≠ bsVERIFY_ENV ∨ s.boot.phase ≠ BootPhase.started ∨ s.isF fTOP_START_STATUS_DRAM_READY = false)
    ∧ (∃ (s : State), s.loader.phase = 1 ∧ s.bsState = bsVERIFY_ENV ∧ s.boot.phase = BootPhase.started ∧ s.isF fTOP_START_STATUS_DRAM_READY = true) :=
  ⟨⟨(wBs bsLOAD_HOST), by decide +kernel⟩,
    ⟨wRst, by decide +kernel⟩,
    ⟨wPhase2, by decide +kernel⟩⟩

theorem witness_StartReset :
    (∃ (s : State), s.boot.aon = true ∧ s.boot.phase = BootPhase.off ∧ s.getF fPWR_PWR_STATUS_CURRENT ≠ 3)
    ∧ (∃ (s : State), s.boot.aon = true ∧ s.boot.phase = BootPhase.off ∧ s.getF fPWR_PWR_STATUS_CURRENT = 3)
    ∧ (∃ (s : State), s.boot.aon = true ∧ s.boot.phase ≠ BootPhase.off ∧ ¬(s.getF fPWR_PWR_STATUS_CURRENT = 0 ∧ s.getF fPWR_PWR_STATUS_TARGET = 15))
    ∧ (∃ (s : State), s.boot.phase = BootPhase.waitPg)
    ∧ (∃ (s : State), s.boot.porst = true ∨ s.boot.phase = BootPhase.waitFio)
    ∧ (∃ (s : State), s.boot.phase = BootPhase.waitPg ∧ s.boot.pgTries < 3)
    ∧ (∃ (s : State), s.boot.phase = BootPhase.waitPg ∧ 3 ≤ s.boot.pgTries)
    ∧ (∃ (s : State), s.boot.phase = BootPhase.waitFio)
    ∧ (∃ (s : State), s.boot.phase = BootPhase.waitFio ∧ s.boot.fioTries < 3)
    ∧ (∃ (s : State), s.boot.phase = BootPhase.waitFio ∧ 3 ≤ s.boot.fioTries) :=
  ⟨⟨wRst, by decide +kernel⟩,
    ⟨wDeep, by decide +kernel⟩,
    ⟨((wBoot { phase := .started }).withF [(fPWR_PWR_STATUS_TARGET, 2)]), by decide +kernel⟩,
    ⟨wWaitPg, by decide +kernel⟩,
    ⟨wWaitFio, by decide +kernel⟩,
    ⟨wWaitPg, by decide +kernel⟩,
    ⟨wPg3, by decide +kernel⟩,
    ⟨wWaitFio, by decide +kernel⟩,
    ⟨wWaitFio, by decide +kernel⟩,
    ⟨wFio3, by decide +kernel⟩⟩

theorem witness_StartClocksAndRails :
    (∃ (s : State), s.boot.phase = BootPhase.waitRefclk ∧ s.boot.warm = true)
    ∧ (∃ (a : Nat) (b : Nat) (s : State), s.boot.phase = BootPhase.waitRefclk ∧ s.boot.warm = false ∧ checkPhase0 s s.loader.flashA.bytes = some a ∧ checkPhase0 s s.loader.flashB.bytes = some b)
    ∧ (∃ (n : BitVec 16) (s : State), s.isF fTOP_START_STATUS_DEGRADED_CLK = true ∧ 1800 ≤ n.toNat ∧ n.toNat ≤ 2200)
    ∧ (∃ (id : Nat) (s : State), s.boot.phase = BootPhase.waitPmic ∧ s.boot.warm = false ∧ id = s.loader.cfg.bd.pmicId ∧ s.isF fTOP_START_STATUS_RAILS_DONE = false ∧ s.loader.cfg.bd.rails ≠ [])
    ∧ (∃ (id : Nat) (s : State), s.boot.phase = BootPhase.waitPmic ∧ s.boot.warm = false ∧ id = s.loader.cfg.bd.pmicId ∧ s.isF fTOP_START_STATUS_RAILS_DONE = true)
    ∧ (∃ (id : Nat) (s : State), s.boot.phase = BootPhase.waitPmic ∧ s.boot.warm = false ∧ id ≠ s.loader.cfg.bd.pmicId)
    ∧ (∃ (s : State) (x : RailStep), s.boot.phase = BootPhase.rails ∧ s.loader.cfg.bd.rails[s.boot.railStep]? = some x ∧ s.boot.railStep + 1 < s.loader.cfg.bd.rails.length)
    ∧ (∃ (s : State) (x : RailStep), s.boot.phase = BootPhase.rails ∧ s.loader.cfg.bd.rails[s.boot.railStep]? = some x ∧ s.boot.railStep + 1 = s.loader.cfg.bd.rails.length ∧ s.boot.pll.getD 4 false = false)
    ∧ (∃ (s : State), s.boot.phase = BootPhase.rails)
    ∧ (∃ (p : Fin 6) (s : State), s.boot.refclk = true ∧ s.boot.pllTries.getD p.val 0 < 2 ∧ s.boot.pll.length = 6 ∧ (p ≠ (4 : Fin 6) ∨ s.boot.fwStarted = false) ∧ (p ≠ (3 : Fin 6) ∨ s.time.frcRun = true ∨ s.getF fTOP_RESET_CAUSE_CAUSE ≠ 1) ∧ s.boot.warmDue = false)
    ∧ (∃ (v : Nat) (s : State), s.boot.refclk = true ∧ s.boot.pllTries.getD (Fin.val (0 : Fin 6)) 0 < 2 ∧ s.boot.pll.length = 6 ∧ s.boot.warmDue = true ∧ s.boot.fwStarted = true ∧ s.boot.scRun = true ∧ s.boot.ttRun = true ∧ (∀ q ∈ [0, 1, 2, 3, 5], q ≠ Fin.val (0 : Fin 6) → s.boot.pll.getD q false = true) ∧ s.boot.resume = some v ∧ v ≤ bsFAILED ∧ ∀ k < 4, s.boot.mapOk.getD k false = false ∧ s.tileUp k = false)
    ∧ (∃ (p : Fin 6) (s : State), s.boot.refclk = true ∧ s.boot.pll.getD p.val false = false ∧ s.boot.pllTries.length = 6 ∧ s.boot.pllTries.getD p.val 0 = 0)
    ∧ (∃ (p : Fin 6) (s : State), s.boot.refclk = true ∧ s.boot.pll.getD p.val false = false ∧ s.boot.pllTries.length = 6 ∧ s.boot.pllTries.getD p.val 0 = 1 ∧ s.tgsOn = [] ∧ s.pwrCur ≠ pwSLEEP) :=
  ⟨⟨wRefWarm, by decide +kernel⟩,
    ⟨1, 1, wRefCold, by decide +kernel⟩,
    ⟨1800, wDegraded, by decide +kernel⟩,
    ⟨0, wPmic, by decide +kernel⟩,
    ⟨0, wPmic.withF [(fTOP_START_STATUS_RAILS_DONE, 1)], by decide +kernel⟩,
    ⟨1, wPmic, by decide +kernel⟩,
    ⟨wRail0, { rail := 1, settleUs := 10, limitUs := 100 }, by decide +kernel⟩,
    ⟨wRail1, { rail := 1, settleUs := 10, limitUs := 100 }, by decide +kernel⟩,
    ⟨wRail0, by decide +kernel⟩,
    ⟨0, wRefOk, by decide +kernel⟩,
    ⟨bsRUNNING, wWarmLast, by decide +kernel⟩,
    ⟨0, wRefOk, by decide +kernel⟩,
    ⟨0, wPll1, by decide +kernel⟩⟩

theorem witness_StartTests :
    (∃ (s : State), s.boot.fwStarted = true ∧ s.boot.warmDue = false)
    ∧ (∃ (n : Fin 4) (s : State) (a : Bool) (b : Bool), s.swTestMay n.val = true ∧ s.boot.swStep.length = 4 ∧ s.boot.swFail.length = 4 ∧ (s.swNext n.val = 0 ∧ a = false ∧ b = false ∨ (s.swNext n.val = 1 ∨ s.swNext n.val = 2) ∧ a = true ∧ b = false ∨ s.swNext n.val = 3 ∧ a = false))
    ∧ (∃ (n : Fin 4) (s : State), s.swTestMay n.val = true ∧ s.boot.swStep.length = 4 ∧ s.boot.swFail.length = 4 ∧ s.swNext n.val = 3 ∧ (s.directTile n.val = false ∨ s.boot.scPass = false) ∧ s.boot.swDue.length = 4 ∧ ∀ m < (4 : Fin 4), m ≠ n → s.swPending m.val = false)
    ∧ (∃ (n : Fin 4) (s : State), s.boot.ttPass = true ∧ s.swNext n.val = 4 ∧ s.boot.swFail.getD n.val false = false ∧ s.directTile n.val = false ∧ (s.safeT n.val).hs = true ∧ (s.safeT n.val).ls = true ∧ (s.safeT n.val).hsFbT = true ∧ (s.safeT n.val).lsFbT = true ∧ (s.portOf n.val).fbPin = false ∧ s.boot.handover.getD n.val 0 = 0 ∧ (s.getF fTOP_START_STATUS_TILES_FULL).testBit n.val = false ∧ s.ssOf n.val < 2 ∧ (s.safeT n.val).retest = false)
    ∧ (∃ (s : State), s.boot.porst = true ∧ s.boot.warm = false ∧ s.boot.fwStarted = true ∧ s.outboxOf srcMC0 < 4 ∧ 450 < s.getF fTOP_START_TIMES_FB_TIME)
    ∧ (∃ (s : State) (n : Nat), s.boot.porst = true ∧ s.boot.warm = false ∧ s.boot.fwStarted = true ∧ s.outboxOf srcMC0 < 4 ∧ s.getF fTOP_START_TIMES_FULL_TIME = 65535 ∧ List.find? s.inFallback (List.range s.tiles) = some n) :=
  ⟨⟨(wTest 0 true true), by decide +kernel⟩,
    ⟨0, wTest 1 true true, true, false, by decide +kernel⟩,
    ⟨0, (let s := wTest 3 true true; { s with boot := { s.boot with swStep := [3, 4, 4, 4] } }), by decide +kernel⟩,
    ⟨0, wFbEn, by decide +kernel⟩,
    ⟨(wTest 0 true true), by decide +kernel⟩,
    ⟨wFullLate, 0, by decide +kernel⟩⟩

theorem witness_StartDram :
    (∃ (fail : BitVec 2) (s : State), s.boot.fwStarted = true ∧ s.boot.refclk = true ∧ s.pllsUp = true ∧ s.isF fTOP_START_STATUS_DRAM_READY = false ∧ s.bsState = bsVERIFY_ENV ∧ fail ≠ 0 ∧ s.boot.dramTries = 0)
    ∧ (∃ (fail : BitVec 2) (s : State), s.boot.fwStarted = true ∧ s.boot.refclk = true ∧ s.pllsUp = true ∧ s.isF fTOP_START_STATUS_DRAM_READY = false ∧ s.bsState = bsVERIFY_ENV ∧ fail ≠ 0 ∧ s.boot.dramTries ≠ 0)
    ∧ (∃ (fail : BitVec 2) (mib : Nat × Nat) (s : State), s.boot.fwStarted = true ∧ s.boot.refclk = true ∧ s.pllsUp = true ∧ s.isF fTOP_START_STATUS_DRAM_READY = false ∧ s.bsState = bsVERIFY_ENV ∧ fail = 0 ∧ 2 * min mib.1 mib.2 < s.loader.cfg.bd.dramMiB)
    ∧ (∃ (fail : BitVec 2) (mib : Nat × Nat) (s : State), s.boot.fwStarted = true ∧ s.boot.refclk = true ∧ s.pllsUp = true ∧ s.isF fTOP_START_STATUS_DRAM_READY = false ∧ s.bsState = bsVERIFY_ENV ∧ fail = 0 ∧ s.loader.cfg.bd.dramMiB ≤ 2 * min mib.1 mib.2 ∧ ∀ n < 4, s.tileUp n = false)
    ∧ (∃ (n : Fin 4) (c : Caps) (s : State), Clean s ∧ (s.portOf n.val).caps = some c ∧ (s.portOf n.val).mapRead = true ∧ s.isF fTOP_START_STATUS_DRAM_READY = true ∧ s.boot.mapFail.getD n.val false = false ∧ (s.mapBytes n.val c.mapSize).2 = s ∧ (s.mapBytes n.val c.mapSize).1.2 = false ∧ crc32c (s.mapBytes n.val c.mapSize).1.1 = c.mapCrc)
    ∧ (∃ (n : Fin 4) (c : Caps) (s : State), Clean s ∧ (s.portOf n.val).caps = some c ∧ (s.portOf n.val).mapRead = true ∧ s.isF fTOP_START_STATUS_DRAM_READY = true ∧ s.boot.mapFail.getD n.val false = false ∧ (s.mapBytes n.val c.mapSize).2 = s ∧ (s.mapBytes n.val c.mapSize).1.2 = false ∧ crc32c (s.mapBytes n.val c.mapSize).1.1 ≠ c.mapCrc ∧ s.boot.mapTries.getD n.val 0 < 2 ∧ s.boot.mapTries.length = 4)
    ∧ (∃ (n : Fin 4) (s : State), s.tileReady n.val = true ∧ s.directTile n.val = false ∧ s.boot.handover.length = 4) :=
  ⟨⟨1, wTrain 0, by decide +kernel⟩,
    ⟨3, wTrain 1, by decide +kernel⟩,
    ⟨0, (511, 512), { wTrain 0 with loader := { cfg := { bd := { dramMiB := 1024 } } } }, by decide +kernel⟩,
    ⟨0, (512, 513), { wTrain 0 with loader := { cfg := { bd := { dramMiB := 1024 } } } }, by decide +kernel⟩,
    ⟨0, wCaps 0x48674BC7, wMap 0x48674BC7, by decide +kernel⟩,
    ⟨0, wCaps 1, wMap 1, by decide +kernel⟩,
    ⟨0, wReady, by decide +kernel⟩⟩

theorem witness_PowerRequests :
    (∃ (s : State), Takes s rPWR_PWR_REQ ∧ s.boot.porst = true ∧ (s.bsState = bsRUNNING ∨ s.bsState = bsFAILED) ∧ s.pwrCur = pwRUN ∧ s.pwrTarget = pwNONE)
    ∧ (∃ (s : State), Takes s rPWR_PWR_REQ ∧ s.boot.porst = true ∧ (s.bsState = bsRUNNING ∨ s.bsState = bsFAILED) ∧ s.pwrCur = pwRUN ∧ s.pwrTarget = pwNONE ∧ s.pwrReason pwIDLE = 0)
    ∧ (∃ (s : State), Takes s rPWR_PWR_REQ ∧ s.boot.porst = true ∧ (s.bsState = bsRUNNING ∨ s.bsState = bsFAILED) ∧ s.pwrCur = pwRUN ∧ s.pwrTarget = pwNONE ∧ s.pwrReason pwSLEEP = 0)
    ∧ (∃ (s : State), Takes s rPWR_PWR_REQ ∧ s.boot.porst = true ∧ (s.bsState = bsRUNNING ∨ s.bsState = bsFAILED) ∧ s.pwrCur = pwRUN ∧ s.pwrTarget = pwNONE ∧ s.pwrReason pwSLEEP ≠ 0)
    ∧ (∃ (s : State), Takes s rPWR_PWR_REQ ∧ s.boot.porst = true ∧ (s.bsState = bsRUNNING ∨ s.bsState = bsFAILED) ∧ s.pwrCur = pwRUN ∧ s.pwrTarget ≠ pwNONE ∧ s.getF fPWR_PWR_STATUS_PENDING = pwNONE)
    ∧ (∃ (s : State), Takes s rPWR_PWR_REQ ∧ s.boot.porst = true ∧ (s.bsState = bsRUNNING ∨ s.bsState = bsFAILED) ∧ s.pwrCur = pwRUN ∧ s.pwrTarget = pwNONE ∧ s.nextKnown = none ∧ s.pwrReason pwDEEP = 0 ∧ s.isF fPWR_PWR_CFG_AUTO_DEEP = true)
    ∧ (∃ (m : BitVec 4) (s : State), Takes s rPWR_PWR_REQ ∧ s.boot.porst = true ∧ (s.bsState = bsRUNNING ∨ s.bsState = bsFAILED) ∧ s.pwrCur = pwRUN ∧ s.pwrTarget = pwNONE ∧ ∀ x ∈ [pwDEEP, pwSLEEP, pwIDLE], s.autoFits x m.toNat s.nextKnown = false)
    ∧ (∃ (s : State), Takes s rPWR_PWR_REQ ∧ s.boot.porst = true ∧ (s.bsState = bsRUNNING ∨ s.bsState = bsFAILED) ∧ s.pwrCur = pwRUN ∧ s.pwrTarget = pwSLEEP) :=
  ⟨⟨wRun0, by decide +kernel⟩,
    ⟨wRun0, by decide +kernel⟩,
    ⟨wRun0, by decide +kernel⟩,
    ⟨wLitOn, by decide +kernel⟩,
    ⟨wToSleep 2, by decide +kernel⟩,
    ⟨wRun0, by decide +kernel⟩,
    ⟨0, wIdleNo, by decide +kernel⟩,
    ⟨wToSleep 2, by decide +kernel⟩⟩

theorem witness_PowerEntry :
    (∃ (s : State), s.pwrPhase = 2 ∧ s.getF fPWR_PWR_STATUS_PENDING = pwNONE)
    ∧ (∃ (s : State), s.pwrPhase = 3 ∧ s.safe.consent ≠ none ∧ s.powerGrant = true ∧ s.pwr.wake = none ∧ s.wakeDue = [] ∧ s.getF fPWR_PWR_STATUS_PENDING = pwNONE ∧ (∀ n < 4, s.zState n = zOFF ∧ s.crcJob n = none) ∧ s.updState = 0)
    ∧ (∃ (s : State) (c : Instr), s.pwrPhase = 3 ∧ s.safe.consent ≠ none ∧ s.getF fPWR_PWR_STATUS_PENDING = pwNONE ∧ s.pwr.ports = [] ∧ (c = Instr.scConsent ∧ s.powerGrant = false ∨ c = Instr.consentTimeout))
    ∧ (∃ (s : State), s.pwrPhase = 4 ∧ (s.pwr.wake ≠ none ∧ s.wakeDue = [] ∨ s.pwrTarget = pwSLEEP ∧ s.wakeDue = [1]) ∧ s.pwr.ports = [] ∧ s.getF fPWR_PWR_STATUS_PENDING = pwNONE)
    ∧ (∃ (s : State), s.pwrPhase = 4 ∧ s.pwrTarget = pwSLEEP ∧ s.pwr.wake = none ∧ s.wakeDue = [] ∧ s.getF fPWR_PWR_STATUS_PENDING = pwNONE)
    ∧ (∃ (s : State), s.pwrPhase = 4 ∧ s.pwrTarget = pwOFF ∧ s.pwr.wake = none ∧ s.wakeDue = [] ∧ s.getF fPWR_PWR_STATUS_PENDING = pwNONE)
    ∧ (∃ (s : State), s.pwrPhase = 5 ∧ s.pwrTarget = pwSLEEP ∧ s.pwr.wake = none ∧ s.wakeDue = [] ∧ s.getF fPWR_PWR_STATUS_PENDING = pwNONE)
    ∧ (∃ (s : State), s.pwrPhase = 7 ∧ s.pwrTarget = pwOFF ∧ s.pwr.wake = none ∧ s.wakeDue = [])
    ∧ (∃ (s : State), s.pwrTarget = pwIDLE ∧ (∀ n < 16, s.beState n = beIDLE ∨ s.beState n = beFAULTED ∨ s.beState n = beOFF) ∧ s.pwr.wake = none ∧ s.wakeDue = [] ∧ s.getF fPWR_PWR_STATUS_PENDING = pwNONE) :=
  ⟨⟨(wToSleep 2), by decide +kernel⟩,
    ⟨wConsent, by decide +kernel⟩,
    ⟨wConsent, .consentTimeout, by decide +kernel⟩,
    ⟨wAbort, by decide +kernel⟩,
    ⟨(wToSleep 4), by decide +kernel⟩,
    ⟨(wToOff 4), by decide +kernel⟩,
    ⟨(wToSleep 5), by decide +kernel⟩,
    ⟨(wToOff 7), by decide +kernel⟩,
    ⟨wToIdle, by decide +kernel⟩⟩

theorem witness_PowerWakes :
    (∃ (s : State), s.pwrCur = pwSLEEP ∧ s.pwrTarget = pwRUN ∧ s.pwr.tiles = 0 ∧ s.boot.pll.length = 6 ∧ (∀ n < 16, s.isF (fBE_STATUS_TRIG_PENDING n) = false) ∧ s.getF fPWR_PWR_STATUS_PENDING = pwNONE)
    ∧ (∃ (s : State), s.pwrCur ≠ pwSLEEP ∨ s.pwrTarget ≠ pwRUN)
    ∧ (∃ (s : State), s.boot.aon = true ∧ s.boot.phase = BootPhase.off ∧ s.pwrCur = pwDEEP ∧ s.pwr.timer ≠ none)
    ∧ (∃ (s : State) (ents : List (Nat × Word)), s.boot.warm = true ∧ s.boot.phase = BootPhase.waitPmic ∧ s.retCheck = ((ents, none), s) ∧ (List.map Prod.fst ents).Nodup ∧ (∀ p ∈ ents, 1310720 ≤ p.1 ∧ p.1 < 1835008) ∧ s.loader.cfg.ho.hostChannels = [] ∧ s.loader.cfg.li = [] ∧ s.loader.cfg.be = [] ∧ (∀ n < 4, s.boot.mapOk.getD n false = false) ∧ s.time.sched = [] ∧ s.boot.pll.getD 4 false = false ∧ s.boot.resume = none ∧ s.boot.scRun = false)
    ∧ (∃ (s : State) (l : List (Nat × Word)) (i : Nat) (a : Nat) (b : Nat), s.boot.warm = true ∧ s.boot.phase = BootPhase.waitPmic ∧ s.retCheck = ((l, some i), s) ∧ checkPhase0 s s.loader.flashA.bytes = some a ∧ checkPhase0 s s.loader.flashB.bytes = some b)
    ∧ (∃ (s : State), Takes s rPWR_WAKE_FAIL_CAUSE)
    ∧ (∃ (cycles : Nat) (s : State), s.pwrCur = pwRUN ∧ cycles ≠ 0 ∧ s.time.frcRun = true) :=
  ⟨⟨wExit, by decide +kernel⟩,
    ⟨wRst, by decide +kernel⟩,
    ⟨wTimer, by decide +kernel⟩,
    ⟨wWarm, [], by decide +kernel⟩,
    ⟨({ wWarm with mem := [(retBase + 24, 1)] }), [], 65535, 1, 1, by decide +kernel⟩,
    ⟨wExit, by decide +kernel⟩,
    ⟨1, wRate, by decide +kernel⟩⟩

theorem witness_Composition :
    (∃ (g : Fin 4) (mask : Word) (s : State), Takes s (rMSG_FLIP_COMMIT g.val) ∧ s.flipReason FlipMaster.regs g.val (BitVec.toNat mask) (s.reg (rMSG_FLIP_ORDER g.val)) (List.map (fun (l : Nat) => (l, s.regWords (rMSG_FLIP_STAGE l 0) 8)) (maskLayers (BitVec.toNat mask))) = 0 ∧ s.isF (fMSG_FLIP_FENCE_WAIT g.val) = false ∧ s.comp.flight = [])
    ∧ (∃ (g : Fin 4) (mask : Word) (s : State), Takes s (rMSG_FLIP_COMMIT g.val) ∧ s.flipReason FlipMaster.regs g.val (BitVec.toNat mask) (s.reg (rMSG_FLIP_ORDER g.val)) (List.map (fun (l : Nat) => (l, s.regWords (rMSG_FLIP_STAGE l 0) 8)) (maskLayers (BitVec.toNat mask))) ≠ 0)
    ∧ (∃ (s : State), s.tgsOn = [])
    ∧ (∃ (s : State), s.tgsOn ≠ [])
    ∧ (∃ (l : Fin 8) (lo : Word) (s : State), Takes s (rMSG_LAYER_RAW_ADDR_LO l.val) ∧ s.isF (fMSG_LAYER_CFG_RAW_EN l.val) = true ∧ s.isF (fMSG_LAYER_STATUS_NEVER_FLIPPED l.val) = false ∧ s.descReason l.val (((s.flipDesc l.val).set 0 lo).set 1 (BitVec.ofNat 32 (putBits (nth (BitVec.ofNat 32 0) (s.flipDesc l.val) 1).toNat 0 8 (s.regN (rMSG_LAYER_RAW_ADDR_HI l.val) % 256)))) ≠ 5 ∧ s.descReason l.val (((s.flipDesc l.val).set 0 lo).set 1 (BitVec.ofNat 32 (putBits (nth (BitVec.ofNat 32 0) (s.flipDesc l.val) 1).toNat 0 8 (s.regN (rMSG_LAYER_RAW_ADDR_HI l.val) % 256)))) ≠ 7)
    ∧ (∃ (l : Fin 8) (s : State), Takes s (rMSG_LAYER_RAW_ADDR_LO l.val) ∧ s.isF (fMSG_LAYER_CFG_RAW_EN l.val) = false)
    ∧ (∃ (n : Fin 4) (s : State) (x : Xfer), (s.tgOf n.val).xfer = some x ∧ x.ended = false ∧ (s.pr n.val).room = true ∧ tabGet (fun (x : Nat) => 0) s.comp.row n.val < 512)
    ∧ (∃ (rx : Fin 2) (vc : Fin 4) (hdr : Fin 3) (w : Nat) (s : State), s.csiOn rx.val = true ∧ s.capsOn rx.val vc.val = [w] ∧ hdr ≠ (2 : Fin 3) ∧ s.baseInUse (s.capBase w ((s.capw w).next % (s.getF (fHOSTIF_CAPW_CFG_BUFS w) + 1))) = false)
    ∧ (∃ (rx : Fin 2) (vc : Fin 4) (hdr : Fin 3) (w : Nat) (s : State), s.csiOn rx.val = true ∧ s.capsOn rx.val vc.val = [w] ∧ hdr ≠ (2 : Fin 3) ∧ s.baseInUse (s.capBase w ((s.capw w).next % (s.getF (fHOSTIF_CAPW_CFG_BUFS w) + 1))) = true)
    ∧ (∃ (rx : Fin 2) (vc : Fin 4) (w : Nat) (s : State), s.csiOn rx.val = true ∧ s.capsOn rx.val vc.val = [w])
    ∧ (∃ (rx : Fin 2) (s : State), s.csiOn rx.val = false)
    ∧ (∃ (rx : Fin 2) (vc : Fin 4) (dt : BitVec 6) (bs : List Byte) (w : Nat) (s : State), Clean s ∧ s.csiOn rx.val = true ∧ dt.toNat ∈ csiTypes ∧ s.capOf rx.val vc.val dt.toNat = some w ∧ (s.capw w).skip = false ∧ s.isF (fHOSTIF_CAPW_CFG_COMPRESSED w) = false ∧ (s.capw w).started = true ∧ bs.length ≤ s.capStride w ∧ (0 < (s.capw w).rows → bs.length = (s.capw w).bytes) ∧ (s.capw w).rows < s.getF (fHOSTIF_CAPW_GEOM_HEIGHT w) ∧ s.inDram (s.capBase w (s.capw w).buf + (s.capw w).rows * s.capStride w) bs.length = true)
    ∧ (∃ (rx : Fin 2) (vc : Fin 4) (dt : BitVec 6) (w : Nat) (s : State), s.csiOn rx.val = true ∧ dt.toNat ∈ csiTypes ∧ s.capOf rx.val vc.val dt.toNat = some w ∧ (s.capw w).skip = false ∧ (s.capw w).started = false ∧ (s.capw w).rows = 0 ∧ (s.capw w).bytes = 0 ∧ s.baseInUse (s.capBase w 0) = true)
    ∧ (∃ (rx : Fin 2) (vc : Fin 4) (dt : BitVec 6) (s : State), s.csiOn rx.val = true ∧ s.capOf rx.val vc.val dt.toNat = none)
    ∧ (∃ (rx : Fin 2) (vc : Fin 4) (hdr : Fin 3) (w : Nat) (s : State), s.csiOn rx.val = true ∧ hdr ≠ (2 : Fin 3) ∧ s.capsOn rx.val vc.val = [w] ∧ (s.capw w).started = true ∧ (s.capw w).skip = false ∧ s.capReason w = 0 ∧ s.isF (fHOSTIF_CAPW_CFG_AUTO_FLIP w) = false) :=
  ⟨⟨0, 0, wFlipOk, by decide +kernel⟩,
    ⟨0, 0, wRst, by decide +kernel⟩,
    ⟨wRst, by decide +kernel⟩,
    ⟨wTgOn, by decide +kernel⟩,
    ⟨0, 0, wRaw, by decide +kernel⟩,
    ⟨0, wRst, by decide +kernel⟩,
    ⟨0, (wXfer wX), { frame := 7, opened := false, ended := false, next := 0, carryFrom := 512, torn := false, half := false, maps := [], codes := [], sel := 0, flip := false, layers := [] }, by decide +kernel⟩,
    ⟨0, 0, 1, 0, wCsi {}, by decide +kernel⟩,
    ⟨0, 0, 0, 0, wCsiUse, by decide +kernel⟩,
    ⟨0, 0, 0, (wCsi {}), by decide +kernel⟩,
    ⟨0, wRst, by decide +kernel⟩,
    ⟨0, 0, 42, [], 0, wCsi { started := true }, by decide +kernel⟩,
    ⟨0, 0, 42, 0, wCsiUse, by decide +kernel⟩,
    ⟨0, 0, 0, (wCsi {}), by decide +kernel⟩,
    ⟨0, 0, 0, 0, wCsi { started := true, rows := 2 }, by decide +kernel⟩⟩

theorem witness_PressCommands :
    (∃ (n : Fin 4) (s : State), s.absentUnit (rPRESS_UPD_CMD n.val) = false ∧ Takes s (rPRESS_UPD_CMD n.val) ∧ s.updBusy n.val = false)
    ∧ (∃ (n : Fin 4) (s : State), s.absentUnit (rPRESS_UPD_CMD n.val) = false ∧ Takes s (rPRESS_UPD_CMD n.val) ∧ s.updBusy n.val = true)
    ∧ (∃ (n : Fin 4) (s : State), s.absentUnit (rPRESS_UPD_CMD n.val) = false ∧ Takes s (rPRESS_UPD_CMD n.val) ∧ s.updBusy n.val = false ∧ s.tgState n.val = tgOFF)
    ∧ (∃ (n : Fin 4) (s : State), s.absentUnit (rPRESS_UPD_CMD n.val) = false ∧ Takes s (rPRESS_UPD_CMD n.val) ∧ (s.getF (fPRESS_UPD_STATUS_STATE n.val) = updPENDING ∨ s.getF (fPRESS_UPD_STATUS_STATE n.val) = updAPPLYING) ∧ (s.hl n.val).list = [] ∧ (s.hl n.val).again = false)
    ∧ (∃ (n : Fin 4) (s : State), s.getF (fPRESS_UPD_STATUS_STATE n.val) = updFILLING ∧ (s.fillAll n.val).1 = true)
    ∧ (∃ (n : Fin 4) (s : State), s.getF (fPRESS_UPD_STATUS_STATE n.val) = updPENDING ∧ (s.pr n.val).reload = [] ∧ Clean s ∧ s.regN (rPRESS_SWEEP n.val) = 0 ∧ (s.pr n.val).updLen ≤ (s.pr n.val).updNext ∧ (s.hl n.val).list = [] ∧ (s.hl n.val).again = false)
    ∧ (∃ (n : Fin 4) (s : State) (x : Xfer), (s.tgOf n.val).xfer = some x ∧ x.ended = false ∧ 512 ≤ x.next ∧ x.maps = [] ∧ x.torn = false ∧ (s.pr n.val).snapOn = false ∧ s.recState = 0)
    ∧ (∃ (s : State), Takes s rREC_CTRL ∧ s.recState = recRECORDING)
    ∧ (∃ (s : State), Takes s rREC_CTRL ∧ (s.recState = recPOST ∨ s.recState = recFROZEN))
    ∧ (∃ (s : State), Takes s rREC_CTRL ∧ s.recState = recFROZEN)
    ∧ (∃ (s : State), Takes s rREC_CTRL ∧ s.recState = recPOST) :=
  ⟨⟨0, wRst, by decide +kernel⟩,
    ⟨0, (wUpdS updPENDING), by decide +kernel⟩,
    ⟨0, wRst, by decide +kernel⟩,
    ⟨0, (wUpdS updPENDING), by decide +kernel⟩,
    ⟨0, wFilling, by decide +kernel⟩,
    ⟨0, wUpdQ, by decide +kernel⟩,
    ⟨0, (wXfer { wX with next := 512 }), { frame := 7, opened := false, ended := false, next := 512, carryFrom := 512, torn := false, half := false, maps := [], codes := [], sel := 0, flip := false, layers := [] }, by decide +kernel⟩,
    ⟨(wRecS recRECORDING), by decide +kernel⟩,
    ⟨(wRecS recPOST), by decide +kernel⟩,
    ⟨(wRecS recFROZEN), by decide +kernel⟩,
    ⟨(wRecS recPOST), by decide +kernel⟩⟩

theorem witness_TimingGenerators :
    (∃ (n : Fin 4) (s : State), s.absentUnit (rTG_CMD n.val) = false ∧ Takes s (rTG_CMD n.val) ∧ s.startReason n.val = 0 ∧ s.hasSpares n.val = false)
    ∧ (∃ (n : Fin 4) (s : State), s.absentUnit (rTG_CMD n.val) = false ∧ Takes s (rTG_CMD n.val) ∧ s.startReason n.val = 0 ∧ s.hasSpares n.val = true ∧ (s.portOf n.val).selStage ≠ 3)
    ∧ (∃ (n : Fin 4) (s : State), s.absentUnit (rTG_CMD n.val) = false ∧ Takes s (rTG_CMD n.val) ∧ s.startReason n.val ≠ 0)
    ∧ (∃ (n : Fin 4) (s : State), s.absentUnit (rTG_CMD n.val) = false ∧ Takes s (rTG_CMD n.val) ∧ s.tgState n.val = tgPRE)
    ∧ (∃ (n : Fin 4) (s : State), s.absentUnit (rTG_CMD n.val) = false ∧ Takes s (rTG_CMD n.val) ∧ (s.tgState n.val = tgRUNNING ∨ s.tgState n.val = tgHALF))
    ∧ (∃ (n : Fin 4) (s : State), s.tgState n.val = tgRUNNING ∧ (s.tgOf n.val).stop = false ∧ (s.tgOf n.val).xfer = none ∧ s.lampTiming.staged = none ∧ (s.portOf n.val).recal = none ∧ s.boot.handover.getD n.val 0 = 0 ∧ (s.tgOf n.val).delta = 0 ∧ s.isF (fTG_STATUS_REPHASING n.val) = false ∧ (s.safeT n.val).record = none ∧ s.loader.cfg.sf.dMax = none)
    ∧ (∃ (n : Fin 4) (s : State), s.tgState n.val = tgRUNNING ∧ (s.tgOf n.val).stop = true ∧ (s.portOf n.val).recal = none)
    ∧ (∃ (n : Fin 4) (k : Fin 4) (code : Nat) (s : State), List.find? (fun (q : Nat × Nat) => decide (q.1 = k.val)) (s.tgOf n.val).fire = some (k.val, code) ∧ s.tgState n.val = tgRUNNING ∧ k.val ∉ (s.tgOf n.val).fired ∧ (s.timing.slots.getD k.val (false, 0, 0)).1 = true ∧ s.inFallback n.val = false ∧ s.loader.cfg.sf.slotMax = none)
    ∧ (∃ (n : Fin 4) (s : State), tgRUNNING ≤ s.tgState n.val ∧ (s.tgOf n.val).sensed = false ∧ s.isF (fTG_SENSE_CFG_EN n.val) = true ∧ 1000 * s.getF (fTG_SENSE_CFG_T_SENSE n.val) + 4000 ≤ s.timing.guardT ∧ (s.tgOf n.val).pulse = false ∧ (s.tgOf n.val).torn = true)
    ∧ (∃ (n : Fin 4) (s : State), tgRUNNING ≤ s.tgState n.val ∧ (s.tgOf n.val).sensed = false ∧ s.isF (fTG_SENSE_CFG_EN n.val) = true ∧ s.timing.guardT < 1000 * s.getF (fTG_SENSE_CFG_T_SENSE n.val) + 4000)
    ∧ (∃ (n : Fin 4) (s : State) (x : Xfer), (s.tgOf n.val).xfer = some x ∧ x.opened = false)
    ∧ (∃ (n : Fin 4) (s : State) (x : Xfer), (s.tgOf n.val).xfer = some x ∧ x.opened = true ∧ x.ended = false ∧ 0 < x.next ∧ x.next < 512 ∧ (s.pr n.val).out = [] ∧ (s.pr n.val).beam = [])
    ∧ (∃ (v : Word) (s : State), Takes s (rTG_TIMING_COMMIT 0) ∧ (BitVec.toNat v % 8 ≤ 3 ∨ BitVec.toNat v % 8 = 7) ∧ s.timingBad ((s.stagedSet (BitVec.toNat v % 8) ((BitVec.toNat v).testBit 8)).set s.timing.lead) = 0)
    ∧ (∃ (v : Word) (s : State), Takes s (rTG_TIMING_COMMIT 0) ∧ (BitVec.toNat v % 8 ≤ 3 ∨ BitVec.toNat v % 8 = 7) ∧ s.timingBad ((s.stagedSet (BitVec.toNat v % 8) ((BitVec.toNat v).testBit 8)).set s.timing.lead) ≠ 0)
    ∧ (∃ (off : BitVec 24) (v : Word) (s : State) (k : Direct), directKind off.toNat = some k ∧ Takes s off.toNat ∧ (s.setReg off.toNat (v &&& wrBits off.toNat)).timingBad (s.setReg off.toNat (v &&& wrBits off.toNat)).timing ≠ 0)
    ∧ (∃ (off : BitVec 24) (v : Word) (s : State) (k : Direct), directKind off.toNat = some k ∧ Takes s off.toNat ∧ (s.setReg off.toNat (v &&& wrBits off.toNat)).timingBad (s.setReg off.toNat (v &&& wrBits off.toNat)).timing = 0 ∧ k ≠ Direct.period ∧ s.tgsOn = []) :=
  ⟨⟨0, wStart, by decide +kernel⟩,
    ⟨0, wSpares, by decide +kernel⟩,
    ⟨0, wRst, by decide +kernel⟩,
    ⟨0, (wTgS tgPRE {}), by decide +kernel⟩,
    ⟨0, wSwap, by decide +kernel⟩,
    ⟨0, wSwap, by decide +kernel⟩,
    ⟨0, wStop, by decide +kernel⟩,
    ⟨0, 1, 2, wSlot, by decide +kernel⟩,
    ⟨0, wSense, by decide +kernel⟩,
    ⟨0, wNoSense, by decide +kernel⟩,
    ⟨0, (wXfer wX), { frame := 7, opened := false, ended := false, next := 0, carryFrom := 512, torn := false, half := false, maps := [], codes := [], sel := 0, flip := false, layers := [] }, by decide +kernel⟩,
    ⟨0, (wXfer { wX with opened := true, next := 3 }), { frame := 7, opened := true, ended := false, next := 3, carryFrom := 512, torn := false, half := false, maps := [], codes := [], sel := 0, flip := false, layers := [] }, by decide +kernel⟩,
    ⟨0, wStart, by decide +kernel⟩,
    ⟨0, wRst, by decide +kernel⟩,
    ⟨1573140, 0, wRst, Sys2Proof.Machine.Direct.guardT, by decide +kernel⟩,
    ⟨1573140, 130000, wStart, Sys2Proof.Machine.Direct.guardT, by decide +kernel⟩⟩

theorem witness_LinkBringUp :
    (∃ (n : Fin 4) (s : State), s.absentUnit (rZTL_CMD n.val) = false ∧ Takes s (rZTL_CMD n.val) ∧ s.zState n.val = zOFF ∧ n.val < s.tiles ∧ s.pllDead = false)
    ∧ (∃ (n : Fin 4) (s : State), s.absentUnit (rZTL_CMD n.val) = false ∧ Takes s (rZTL_CMD n.val) ∧ (s.zState n.val ≠ zOFF ∨ s.tiles ≤ n.val ∨ s.pllDead = true))
    ∧ (∃ (n : Fin 4) (s : State), s.absentUnit (rZTL_CMD n.val) = false ∧ Takes s (rZTL_CMD n.val) ∧ s.zState n.val = zDOWN)
    ∧ (∃ (n : Fin 4) (s : State), s.absentUnit (rZTL_CMD n.val) = false ∧ Takes s (rZTL_CMD n.val) ∧ s.tgState n.val = tgOFF ∧ s.zState n.val ≠ zOFF)
    ∧ (∃ (n : Fin 4) (s : State), s.absentUnit (rZTL_CMD n.val) = false ∧ Takes s (rZTL_CMD n.val) ∧ s.tgState n.val ≠ tgOFF)
    ∧ (∃ (n : Fin 4) (s : State), s.zState n.val = zDOWN)
    ∧ (∃ (n : Fin 4) (m : BitVec 3) (s : State), s.zState n.val = zDETECT ∧ 2 ≤ (lanesOf m.toNat).length)
    ∧ (∃ (n : Fin 4) (m : BitVec 3) (s : State), s.zState n.val = zDETECT ∧ (lanesOf m.toNat).length < 2)
    ∧ (∃ (n : Fin 4) (s : State), s.zState n.val = zTRAIN ∧ (s.portOf n.val).trained ≠ 0)
    ∧ (∃ (n : Fin 4) (m : BitVec 3) (s : State), s.zState n.val = zLOCK ∧ m.toNat &&& (s.portOf n.val).trained ≠ 0)
    ∧ (∃ (n : Fin 4) (s : State), s.zState n.val = zLOCK ∧ (s.portOf n.val).locked &&& (s.portOf n.val).trained ≠ 0)
    ∧ (∃ (n : Fin 4) (s : State), s.zState n.val ∈ [zDETECT, zTRAIN, zLOCK, zCAPS] ∧ (s.portOf n.val).tries ≠ 2 ∧ (s.zState n.val ≠ zLOCK ∨ (s.portOf n.val).locked &&& (s.portOf n.val).trained = 0))
    ∧ (∃ (n : Fin 4) (b : BkBits) (p : BitVec 48) (c : Cal) (r : State) (s : State) (ph : Nat) (w : Nat) (ct : Nat), BkSays n.val ctlTRAIN_REPORT b p r s ∧ s.zState n.val = zTRAIN ∧ List.find? (fun (x : Cal) => decide (x.lane = s.devLane n.val (payF p 55 52))) (s.portOf n.val).cals = some c ∧ c.lane < 3 ∧ payF p 15 8 = c.testPhase ∧ c.report (s.regN (rZTL_RECAL_CFG n.val) % 128) true (payF p 47 16) = CalOut.done ph w ct)
    ∧ (∃ (n : Fin 4) (b : BkBits) (p : BitVec 48) (c : Cal) (r : State) (s : State), BkSays n.val ctlTRAIN_REPORT b p r s ∧ s.zState n.val = zTRAIN ∧ List.find? (fun (x : Cal) => decide (x.lane = s.devLane n.val (payF p 55 52))) (s.portOf n.val).cals = some c ∧ c.lane < 3 ∧ payF p 15 8 = c.testPhase ∧ c.report (s.regN (rZTL_RECAL_CFG n.val) % 128) true (payF p 47 16) = CalOut.fail) :=
  ⟨⟨0, wRst, by decide +kernel⟩,
    ⟨0, wZ zDOWN, by decide +kernel⟩,
    ⟨0, (wZ zDOWN), by decide +kernel⟩,
    ⟨0, (wZ zDOWN), by decide +kernel⟩,
    ⟨0, wTgOn, by decide +kernel⟩,
    ⟨0, (wZ zDOWN), by decide +kernel⟩,
    ⟨0, 7, (wZ zDETECT), by decide +kernel⟩,
    ⟨0, 0, (wZ zDETECT), by decide +kernel⟩,
    ⟨0, wTrained, by decide +kernel⟩,
    ⟨0, 1, wLock, by decide +kernel⟩,
    ⟨0, wZp zLOCK { trained := 7, locked := 1 }, by decide +kernel⟩,
    ⟨0, wZ zDETECT, by decide +kernel⟩,
    ⟨0, wLine ctlTRAIN_REPORT 63, 63, wCalDone, wBk (wCal wCalDone), wSaid ctlTRAIN_REPORT 63 (wCal wCalDone), 31, 64, 0, by decide +kernel⟩,
    ⟨0, wLine ctlTRAIN_REPORT 63, 63, wCalFail, wBk (wCal wCalFail), wSaid ctlTRAIN_REPORT 63 (wCal wCalFail), by decide +kernel⟩⟩

theorem witness_LinkActive :
    (∃ (n : Fin 4) (b : BkBits) (p : BitVec 48) (r : State) (s : State), BkSays n.val ctlLINK_STATUS b p r s ∧ s.zState n.val = zACTIVE ∧ payF p 55 55 = 0)
    ∧ (∃ (n : Fin 4) (b : BkBits) (p : BitVec 48) (r : State) (s : State), BkSays n.val ctlLINK_STATUS b p r s ∧ s.zState n.val = zACTIVE ∧ payF p 55 55 = 1 ∧ payF p 47 32 = (s.portOf n.val).discards ∧ payF p 51 49 = 0 ∧ (∀ d ∈ [s.stripe n.val 0, s.stripe n.val 1], hasLane (s.devMask n.val (payF p 54 52)) d = true) ∧ (s.spareLane n.val = 3 ∨ hasLane (s.devMask n.val (payF p 54 52)) (s.spareLane n.val) = true))
    ∧ (∃ (n : Fin 4) (c : Word) (s : State), s.zState n.val = zACTIVE ∧ s.spareLane n.val ≠ 3 ∧ (∀ x ∈ (s.portOf n.val).cals, x.lane ≠ s.spareLane n.val) ∧ (c = 0 ∨ (s.portOf n.val).spareErr = false))
    ∧ (∃ (n : Fin 4) (c : Word) (s : State), s.zState n.val = zACTIVE ∧ s.spareLane n.val ≠ 3 ∧ (∀ x ∈ (s.portOf n.val).cals, x.lane ≠ s.spareLane n.val) ∧ c ≠ 0 ∧ (s.portOf n.val).spareErr = true)
    ∧ (∃ (n : Fin 4) (s : State) (c : Instr), s.zState n.val = zACTIVE ∧ (s.portOf n.val).recal = none ∧ s.spareLane n.val ≠ 3 ∧ (c = Instr.ztlRecal n ∧ s.absentUnit (rZTL_CMD n.val) = false ∧ Takes s (rZTL_CMD n.val) ∨ c = Instr.recalStep n ∧ s.isF (fZTL_RECAL_CFG_EN n.val) = true) ∧ s.isF (fZTL_STATUS_BACK_STALE n.val) = true)
    ∧ (∃ (n : Fin 4) (s : State) (c : Instr), s.zState n.val = zACTIVE ∧ (s.portOf n.val).recal = none ∧ s.spareLane n.val ≠ 3 ∧ (c = Instr.ztlRecal n ∧ s.absentUnit (rZTL_CMD n.val) = false ∧ Takes s (rZTL_CMD n.val) ∨ c = Instr.recalStep n ∧ s.isF (fZTL_RECAL_CFG_EN n.val) = true) ∧ s.isF (fZTL_STATUS_BACK_STALE n.val) = false ∧ (s.portOf n.val).rot = 2)
    ∧ (∃ (n : Fin 4) (s : State), s.isF (fZTL_RECAL_CFG_EN n.val) = false)
    ∧ (∃ (n : Fin 4) (l : Fin 3) (s : State), s.zState n.val = zACTIVE ∧ (s.regN (rZTL_LANE_MAP n.val)).testBit (8 + l.val) = true ∧ (s.regN (rZTL_LANE_MAP n.val)).testBit (12 + l.val) = false ∧ ∀ c ∈ (s.portOf n.val).cals, c.lane ≠ l.val)
    ∧ (∃ (n : Fin 4) (s : State), s.zState n.val = zACTIVE ∧ s.isF (fZTL_STATUS_BACK_STALE n.val) = false ∧ (s.hl n.val).await = none)
    ∧ (∃ (n : Fin 4) (x : SenseIn) (s : State), s.zState n.val = zACTIVE ∧ s.isF (fZTL_STATUS_BACK_STALE n.val) = false ∧ (s.hl n.val).await = some x)
    ∧ (∃ (n : Fin 4) (s : State), s.zState n.val ≠ zACTIVE ∨ s.isF (fZTL_STATUS_BACK_STALE n.val) = false ∨ (s.portOf n.val).bkTry ≠ none)
    ∧ (∃ (n : Fin 4) (s : State), s.zState n.val = zACTIVE ∧ s.isF (fZTL_STATUS_BACK_STALE n.val) = true ∧ (s.portOf n.val).bkTry = none)
    ∧ (∃ (n : Fin 4) (s : State), s.zState n.val = zACTIVE ∧ (s.portOf n.val).bk.lock = true ∧ (s.portOf n.val).bk.buf = [] ∧ List.count true (s.portOf n.val).bk.bad < 15)
    ∧ (∃ (n : Fin 4) (w : BitVec 64) (s : State), s.zState n.val = zACTIVE ∧ (s.portOf n.val).bk.lock = true ∧ (s.portOf n.val).bk.buf = [] ∧ List.count true (s.portOf n.val).bk.bad < 15 ∧ ctlGood w = true)
    ∧ (∃ (n : Fin 4) (w : BitVec 64) (s : State), s.zState n.val = zACTIVE ∧ (s.portOf n.val).bk.lock = true ∧ (s.portOf n.val).bk.buf = [] ∧ List.count true (s.portOf n.val).bk.bad < 15 ∧ ctlGood w = false ∧ s.boot.porst = true)
    ∧ (∃ (n : Fin 4) (s : State), s.zState n.val = zACTIVE) :=
  ⟨⟨0, wLine ctlLINK_STATUS 0, 0, wBk (wAct {}), wSaid ctlLINK_STATUS 0 (wAct {}), by decide +kernel⟩,
    ⟨0, wLine ctlLINK_STATUS 263882790666240, 263882790666240, wBk (wAct {}), wSaid ctlLINK_STATUS 263882790666240 (wAct {}), by decide +kernel⟩,
    ⟨0, 1, wAct {}, by decide +kernel⟩,
    ⟨0, 1, wAct { spareErr := true }, by decide +kernel⟩,
    ⟨0, wStale, .recalStep 0, by decide +kernel⟩,
    ⟨0, wRot, .ztlRecal 0, by decide +kernel⟩,
    ⟨0, wNoRecal, by decide +kernel⟩,
    ⟨0, 0, (wAct {}), by decide +kernel⟩,
    ⟨0, wAct {}, by decide +kernel⟩,
    ⟨0, wSenseX, wSenseS, by decide +kernel⟩,
    ⟨0, wAct {}, by decide +kernel⟩,
    ⟨0, wStale, by decide +kernel⟩,
    ⟨0, wBk (wAct {}), by decide +kernel⟩,
    ⟨0, ctlWord ctlACK 0, wBk (wAct {}), by decide +kernel⟩,
    ⟨0, 1, wBk (wAct {}), by decide +kernel⟩,
    ⟨0, (wAct {}), by decide +kernel⟩⟩

theorem witness_TileProtocol :
    (∃ (n : Fin 4) (b : BlockIn) (s : State), s.zState n.val = zCAPS ∧ blkGood b = false ∧ (s.portOf n.val).capsTries < 2)
    ∧ (∃ (n : Fin 4) (b : BlockIn) (s : State), s.zState n.val = zCAPS ∧ blkGood b = true ∧ b.words.length = 16 ∧ payF b.hdr 55 52 = 2 ∧ capsBad (blkBytes b) = none ∧ ((s.portTypes n.val).any fun (t : TileType) => (typeDiff (blkBytes b) t).isNone) = true ∧ s.isF fTOP_START_STATUS_DRAM_READY = false ∧ s.authKey n.val (blkBytes b) = none)
    ∧ (∃ (n : Fin 4) (b : BlockIn) (c : List Byte) (s : State), (s.portOf n.val).chal = some c ∧ blkGood b = true ∧ b.words.length = 24)
    ∧ (∃ (n : Fin 4) (s : State), (s.portOf n.val).chal ≠ none ∧ s.absent n.val = true ∧ s.tgState n.val = tgOFF)
    ∧ (∃ (n : Fin 4) (s : State), s.tgState n.val = tgOFF ∧ s.tileUp n.val = true ∧ s.hasSpares n.val = true)
    ∧ (∃ (n : Fin 4) (b : BkBits) (p : BitVec 48) (r : State) (s : State), BkSays n.val ctlACK b p r s ∧ s.zState n.val = zACTIVE ∧ payF p 55 48 = ctlREG_WR ∧ payF p 47 32 ≠ 8 ∧ (s.portOf n.val).treg = some (payF p 47 32, true))
    ∧ (∃ (n : Fin 4) (b : BkBits) (p : BitVec 48) (r : State) (s : State), BkSays n.val ctlACK b p r s ∧ s.zState n.val = zACTIVE ∧ payF p 55 48 = ctlFALLBACK ∧ payF p 47 32 = (s.portOf n.val).fbTag ∧ payF p 31 24 = 0 ∧ (s.portOf n.val).fbCmd = true ∧ s.boot.handover.getD n.val 0 ≠ 1)
    ∧ (∃ (n : Fin 4) (b : BkBits) (p : BitVec 48) (r : State) (s : State), BkSays n.val ctlSWAP_ACK b p r s ∧ s.zState n.val = zACTIVE ∧ payF p 37 34 = 0 ∧ (s.hl n.val).flying = [])
    ∧ (∃ (n : Fin 4) (f : Nat) (l : List Nat) (s : State), (s.portOf n.val).acks = f :: l ∧ (s.hl n.val).flying = [])
    ∧ (∃ (n : Fin 4) (s : State), (s.portOf n.val).fbWait = true)
    ∧ (∃ (n : Fin 4) (b : BkBits) (p : BitVec 48) (r : State) (s : State), BkSays n.val ctlTILE_STATUS b p r s ∧ s.zState n.val = zACTIVE)
    ∧ (∃ (n : Fin 4) (b : BkBits) (p : BitVec 48) (r : State) (s : State), BkSays n.val ctlREG_DATA b p r s ∧ (s.portOf n.val).treg = some (payF p 55 40, false))
    ∧ (∃ (n : Fin 4) (s : State), s.absentUnit (rZTL_TREG_CMD n.val) = false ∧ Takes s (rZTL_TREG_CMD n.val) ∧ s.isF (fZTL_TREG_STATUS_BUSY n.val) = false ∧ s.zState n.val = zACTIVE)
    ∧ (∃ (n : Fin 4) (s : State), (s.portOf n.val).treg ≠ none)
    ∧ (∃ (n : Fin 4) (b : BlockIn) (x : SenseIn) (s : State), s.zState n.val = zACTIVE ∧ (s.hl n.val).await = some x ∧ blkGood b = true ∧ b.words.length = 4096 ∧ payF b.hdr 31 16 = x.frame % 65536 ∧ payF b.hdr 15 12 = x.chunk ∧ payF b.hdr 11 11 = x.kind)
    ∧ (∃ (n : Fin 4) (b : BlockIn) (tag : Nat) (tries : Nat) (s : State), s.zState n.val = zACTIVE ∧ (s.portOf n.val).nvRead = some (lifeUnitA, 4096, tag, tries) ∧ blkGood b = true ∧ b.words.length = 4096 ∧ payF b.hdr 15 8 = tag ∧ (s.portOf n.val).nvQueue = [])
    ∧ (∃ (n : Fin 4) (b : BlockIn) (tag : Nat) (tries : Nat) (len : Nat) (s : State), s.zState n.val = zACTIVE ∧ (s.portOf n.val).nvRead = some (lifeUnitB, 4096, tag, tries) ∧ blkGood b = true ∧ b.words.length = 4096 ∧ payF b.hdr 15 8 = tag ∧ (s.portOf n.val).nvQueue = [(0, len)] ∧ 4096 < len)
    ∧ (∃ (n : Fin 4) (b : BlockIn) (s : State), s.zState n.val = zACTIVE ∧ blkGood b = false ∧ (s.portOf n.val).nvRead = none ∧ (s.portOf n.val).chal = none ∧ (s.hl n.val).await = none)
    ∧ (∃ (n : Fin 4) (s : State), (s.hl n.val).lifeDue = 2 ∧ (s.hl n.val).lastCommit = none ∧ s.tileUp n.val = true ∧ (s.portOf n.val).nv = none ∧ s.lifeUnread n.val = false ∧ s.nvWindow n.val = true ∧ (s.portOf n.val).deferFrom = none) :=
  ⟨⟨0, { hdr := 0x000000000000#48, words := [], crc := 0x00000001#32 }, (wZ zCAPS), by decide +kernel⟩,
    ⟨0, { hdr := 0x200010000000#48, words := ([0x000001005041435a#64, 0x0000000000000000#64, 0x0000000000000001#64, 0x0001000002000200#64, 0x0001000000000000#64, 0x0000000000000101#64, 0x0000000000000000#64, 0x0020000000000000#64, 0x0001000000000000#64] ++ List.replicate 7 0x0000000000000000#64), crc := 0xf3151bc0#32 }, wZCaps, by decide +kernel⟩,
    ⟨0, { hdr := 0x300018000000#48, words := (List.replicate 24 0x0000000000000000#64), crc := 0x74357830#32 }, [0x01#8], wChal, by decide +kernel⟩,
    ⟨0, wChal, by decide +kernel⟩,
    ⟨0, wSelUp, by decide +kernel⟩,
    ⟨0, wLine ctlACK 52776625242112, 52776625242112, wBk wTregW, wSaid ctlACK 52776625242112 wTregW, by decide +kernel⟩,
    ⟨0, wLine ctlACK 42880953483264, 42880953483264, wBk wFbCmd, wSaid ctlACK 42880953483264 wFbCmd, by decide +kernel⟩,
    ⟨0, wLine ctlSWAP_ACK 0, 0, wBk wChal, wSaid ctlSWAP_ACK 0 wChal, by decide +kernel⟩,
    ⟨0, 3, [], wAcks, by decide +kernel⟩,
    ⟨0, wFbCmd, by decide +kernel⟩,
    ⟨0, wLine ctlTILE_STATUS 0, 0, wBk wChal, wSaid ctlTILE_STATUS 0 wChal, by decide +kernel⟩,
    ⟨0, wLine ctlREG_DATA 17179869184, 17179869184, wBk wTregR, wSaid ctlREG_DATA 17179869184 wTregR, by decide +kernel⟩,
    ⟨0, wChal, by decide +kernel⟩,
    ⟨0, wTregW, by decide +kernel⟩,
    ⟨0, wBlock 0x401000000000 4096, { frame := 0, chunk := 0, kind := 0, sweep := 0, step := none, res := none }, wSenseS, by decide +kernel, by decide +kernel, wBlock_good _ _ (by decide +kernel), List.length_replicate, by decide +kernel, by decide +kernel, by decide +kernel⟩,
    ⟨0, wBlock 0x501000000003 4096, 3, 0, wNvS, by decide +kernel, by decide +kernel, wBlock_good _ _ (by decide +kernel), List.length_replicate, by decide +kernel, by decide +kernel⟩,
    ⟨0, wBlock 0x501000000003 4096, 3, 0, 5000, wNvB, by decide +kernel, by decide +kernel, wBlock_good _ _ (by decide +kernel), List.length_replicate, by decide +kernel, by decide +kernel, by decide +kernel⟩,
    ⟨0, ⟨0, [], 1⟩, wAct {}, by decide +kernel⟩,
    ⟨0, wLife, by decide +kernel⟩⟩

theorem witness_HolvoRouter :
    (∃ (i : Instr) (c : Fin 3) (op : Nat) (r : RecIn) (s : State), asRecord i = some (c, op, r) ∧ ¬ChannelUp c s)
    ∧ (∃ (i : Instr) (c : Fin 3) (op : Nat) (r : RecIn) (s : State), asRecord i = some (c, op, r) ∧ ChannelUp c s ∧ ¬Fits c r s)
    ∧ (∃ (i : Instr) (c : Fin 3) (op : Nat) (r : RecIn) (s : State), asRecord i = some (c, op, r) ∧ ChannelUp c s ∧ Fits c r s ∧ r.crcOk = false)
    ∧ (∃ (i : Instr) (c : Fin 3) (op : Nat) (r : RecIn) (s : State), asRecord i = some (c, op, r) ∧ ChannelUp c s ∧ Fits c r s ∧ r.crcOk = true ∧ BitVec.getLsbD r.flags 1 = false ∧ r.seq ≠ BitVec.ofNat 16 (s.lastSeq c.val + 1))
    ∧ (∃ (i : Instr) (c : Fin 3) (op : Nat) (r : RecIn) (s : State), asRecord i = some (c, op, r) ∧ ChannelUp c s ∧ Fits c r s ∧ r.crcOk = true ∧ BitVec.getLsbD r.flags 1 = false ∧ r.seq = BitVec.ofNat 16 (s.lastSeq c.val + 1) ∧ headBad r ≠ none)
    ∧ (∃ (c : Fin 3) (k : Fin 16) (n : BitVec 24) (r : RecIn) (s : State), InOrder c r s ∧ n ≠ 0 ∧ r.payload = leBytes 1 k.val ++ leBytes 3 0 ++ leBytes 4 n.toNat)
    ∧ (∃ (v : Word) (s : State), Takes s rMSG_FENCE_SIGNAL ∧ s.locked = false ∧ v >>> 8 ≠ 0)
    ∧ (∃ (v : Word) (s : State), Takes s rMSG_FENCE_SIGNAL ∧ s.locked = false ∧ v >>> 8 = 0)
    ∧ (∃ (c : Fin 3) (g : Fin 4) (r : RecIn) (s : State), InOrder c r s ∧ r.payload.length = 16 + 32 * popMask (fileN r.payload 1 1) ∧ fileN r.payload 0 1 = g.val ∧ (fileN r.payload 2 1 < 16 ∨ fileN r.payload 2 1 = 255) ∧ fileN r.payload 3 1 = 0 ∧ fileN r.payload 12 4 = 0 ∧ s.flipReason FlipMaster.holvo g.val (fileN r.payload 1 1) (BitVec.ofNat 32 (fileN r.payload 8 4)) (flipDescs r.payload (fileN r.payload 1 1)) = 0 ∧ s.comp.flight = [])
    ∧ (∃ (c : Fin 3) (e : Fin 64) (cfg : Word) (arg : Word) (period : Word) (tgt : BitVec 64) (r : RecIn) (s : State), InOrder c r s ∧ s.entryLocked e.val = false ∧ r.payload = leBytes 1 e.val ++ leBytes 1 0 ++ leBytes 2 0 ++ leBytes 4 (BitVec.toNat cfg) ++ leBytes 4 (BitVec.toNat arg) ++ leBytes 4 (BitVec.toNat period) ++ leBytes 8 tgt.toNat ∧ BitVec.getLsbD cfg 31 = false)
    ∧ (∃ (c : Fin 3) (e : Fin 64) (r : RecIn) (s : State), InOrder c r s ∧ s.entryLocked e.val = false ∧ r.payload.length = 24 ∧ fileN r.payload 0 1 = e.val ∧ fileN r.payload 1 1 = 1 ∧ fileN r.payload 2 2 = 0)
    ∧ (∃ (i : Instr) (c : Fin 3) (op : Nat) (r : RecIn) (s : State) (n : Nat) (m : Nat), asRecord i = some (c, op, r) ∧ InOrder c r s ∧ (op = 16 ∨ op = 17 ∨ 128 ≤ op ∧ op < 192) ∧ Clean s ∧ s.owners op ≠ [] ∧ s.targetsOf op = [n] ∧ s.beState n ≠ beOFF ∧ s.beState n ≠ beFAULTED ∧ s.freeSlot n = some m ∧ (holvoBytes (recOut op r)).length ≤ 2032 ∧ (s.beState n ≠ beIDLE ∨ s.getF (fBE_JOB_TRIG_SRC n) ≠ 2))
    ∧ (∃ (i : Instr) (c : Fin 3) (op : Nat) (r : RecIn) (s : State) (n : Nat) (m : Nat), asRecord i = some (c, op, r) ∧ InOrder c r s ∧ (op = 16 ∨ op = 17 ∨ 128 ≤ op ∧ op < 192) ∧ Clean s ∧ s.owners op ≠ [] ∧ s.targetsOf op = [n] ∧ s.beState n ≠ beOFF ∧ s.beState n ≠ beFAULTED ∧ s.freeSlot n = some m ∧ (holvoBytes (recOut op r)).length ≤ 2032 ∧ s.beState n = beIDLE ∧ s.getF (fBE_JOB_TRIG_SRC n) = 2 ∧ s.beGated = false ∧ (s.eng n).next = none)
    ∧ (∃ (i : Instr) (c : Fin 3) (op : Nat) (r : RecIn) (s : State), asRecord i = some (c, op, r) ∧ InOrder c r s ∧ (op = 16 ∨ op = 17 ∨ 128 ≤ op ∧ op < 192) ∧ r.payload.length ≤ 2020 ∧ s.owners op = [])
    ∧ (∃ (i : Instr) (c : Fin 3) (op : Nat) (r : RecIn) (s : State), asRecord i = some (c, op, r) ∧ InOrder c r s ∧ op < 64 ∧ op ∉ [1, 2, 4, 16, 17]) :=
  ⟨⟨.ping 2 (wRec []), 2, 64, wRec [], State.reset, by decide +kernel⟩,
    ⟨.ping 2 wLong, 2, 64, wLong, wOn, by decide +kernel⟩,
    ⟨.ping 2 wBadCrc, 2, 64, wBadCrc, wOn, by decide +kernel⟩,
    ⟨Sys2Proof.Instr.ping 2 { seq := 0x0005#16, flags := 0x00#8, ref := 0x0000#16, payload := [], crcOk := true }, 2, 64, { seq := 0x0005#16, flags := 0x00#8, ref := 0x0000#16, payload := [], crcOk := true }, wOn, by decide +kernel⟩,
    ⟨Sys2Proof.Instr.ping 2 { seq := 0x0000#16, flags := 0x04#8, ref := 0x0000#16, payload := [], crcOk := true }, 2, 64, { seq := 0x0000#16, flags := 0x04#8, ref := 0x0000#16, payload := [], crcOk := true }, wOn, by decide +kernel⟩,
    ⟨2, 2, 2, { seq := 0x0000#16, flags := 0x00#8, ref := 0x0000#16, payload := [0x02#8, 0x00#8, 0x00#8, 0x00#8, 0x02#8, 0x00#8, 0x00#8, 0x00#8], crcOk := true }, wOn, by decide +kernel⟩,
    ⟨4294967295, wRst, by decide +kernel⟩,
    ⟨0, wRst, by decide +kernel⟩,
    ⟨2, 0, { seq := 0x0000#16, flags := 0x00#8, ref := 0x0000#16, payload := ([0x00#8, 0x00#8, 0xff#8, 0x00#8, 0x00#8, 0x00#8, 0x00#8, 0x00#8, 0x08#8] ++ List.replicate 7 0x00#8), crcOk := true }, wFlipH, by decide +kernel⟩,
    ⟨2, 0, 0, 0, 0, 0, { seq := 0x0000#16, flags := 0x00#8, ref := 0x0000#16, payload := (List.replicate 24 0x00#8), crcOk := true }, wOn, by decide +kernel⟩,
    ⟨2, 0, { seq := 0x0000#16, flags := 0x00#8, ref := 0x0000#16, payload := ([0x00#8, 0x01#8] ++ List.replicate 22 0x00#8), crcOk := true }, wOn, by decide +kernel⟩,
    ⟨Sys2Proof.Instr.pose 2 { seq := 0x0000#16, flags := 0x00#8, ref := 0x0000#16, payload := [], crcOk := true }, 2, 16, { seq := 0x0000#16, flags := 0x00#8, ref := 0x0000#16, payload := [], crcOk := true }, wUser, 2, 0, by decide +kernel⟩,
    ⟨Sys2Proof.Instr.pose 2 { seq := 0x0000#16, flags := 0x00#8, ref := 0x0000#16, payload := [], crcOk := true }, 2, 16, { seq := 0x0000#16, flags := 0x00#8, ref := 0x0000#16, payload := [], crcOk := true }, wUser.setF (fBE_JOB_TRIG_SRC 2) 2, 2, 0, by decide +kernel⟩,
    ⟨Sys2Proof.Instr.pose 2 { seq := 0x0000#16, flags := 0x00#8, ref := 0x0000#16, payload := [], crcOk := true }, 2, 16, { seq := 0x0000#16, flags := 0x00#8, ref := 0x0000#16, payload := [], crcOk := true }, wOn, by decide +kernel⟩,
    ⟨Sys2Proof.Instr.unknownOpcode 2 0x30#8 { seq := 0x0000#16, flags := 0x00#8, ref := 0x0000#16, payload := [], crcOk := true }, 2, 48, { seq := 0x0000#16, flags := 0x00#8, ref := 0x0000#16, payload := [], crcOk := true }, wOn, by decide +kernel⟩⟩

theorem witness_HolvoFirmware :
    (∃ (i : Instr) (c : Fin 3) (op : Nat) (r : RecIn) (s : State), asRecord i = some (c, op, r) ∧ fastOp op = false ∧ InOrder c r s ∧ s.fwServes = false ∧ s.host.fwq.length < 256)
    ∧ (∃ (i : Instr) (c : Fin 3) (op : Nat) (r : RecIn) (s : State), asRecord i = some (c, op, r) ∧ fastOp op = false ∧ InOrder c r s ∧ 256 ≤ s.host.fwq.length)
    ∧ (∃ (i : Instr) (c : Fin 3) (op : Nat) (r : RecIn) (s : State), asRecord i = some (c, op, r) ∧ fastOp op = false ∧ InOrder c r s ∧ FwReady s ∧ op ∉ [64, 65, 66, 67, 68, 69, 70, 71, 72, 73, 80, 81] ∧ (op < 192 ∨ 224 ≤ op))
    ∧ (∃ (r : RecIn) (s : State), InOrder (2 : Fin 3) r s ∧ FwReady s ∧ s.host.replies.length < 8 ∧ r.payload = [])
    ∧ (∃ (r : RecIn) (s : State) (off : Nat) (k : Nat), InOrder (2 : Fin 3) r s ∧ FwReady s ∧ s.host.replies.length < 8 ∧ off < 2 ^ 32 ∧ 0 < k ∧ k ≤ 64 ∧ r.payload = leBytes 4 off ++ leBytes 4 k)
    ∧ (∃ (r : RecIn) (s : State) (first : Nat) (k : Nat), InOrder (2 : Fin 3) r s ∧ FwReady s ∧ s.host.replies.length < 8 ∧ first < 2 ^ 32 ∧ 0 < k ∧ k ≤ 16 ∧ r.payload = leBytes 4 first ++ leBytes 4 k)
    ∧ (∃ (r : RecIn) (s : State) (p : Fin 2) (a : Fin 2) (tx : Bool) (xpn : Bool) (ssci : Word) (salt : List Byte) (key : List Byte), InOrder (2 : Fin 3) r s ∧ FwReady s ∧ s.host.replies.length < 8 ∧ (key.length = 16 ∨ key.length = 32) ∧ salt.length = 12 ∧ r.payload = (leBytes 1 p.val ++ leBytes 1 tx.toNat ++ leBytes 1 a.val ++ leBytes 1 xpn.toNat ++ if xpn = true then leBytes 4 (BitVec.toNat ssci) ++ salt else []) ++ key)
    ∧ (∃ (r : RecIn) (s : State), InOrder (2 : Fin 3) r s ∧ FwReady s ∧ s.host.replies.length < 8 ∧ s.loader.cfg.ho.diagnostics = true)
    ∧ (∃ (r : RecIn) (s : State), InOrder (2 : Fin 3) r s ∧ FwReady s ∧ s.host.replies.length < 8 ∧ s.loader.cfg.ho.diagnostics = false)
    ∧ (∃ (c : Fin 3) (r : RecIn) (s : State) (off : BitVec 24) (v : Word), InOrder c r s ∧ FwReady s ∧ r.payload = leBytes 4 off.toNat ++ leBytes 4 (BitVec.toNat v))
    ∧ (∃ (c : Fin 3) (r : RecIn) (s : State) (i : Instr) (op : Nat) (off : BitVec 24) (v : Word), InOrder c r s ∧ FwReady s ∧ asRecord i = some (c, op, r) ∧ (op, off) ∈ wordRecords ∧ r.payload = leBytes 4 (BitVec.toNat v))
    ∧ (∃ (c : Fin 3) (r : RecIn) (s : State), InOrder c r s ∧ FwReady s ∧ 4 ≤ r.payload.length ∧ s.bsState ≠ bsRUNNING)
    ∧ (∃ (c : Fin 3) (r : RecIn) (s : State), InOrder c r s ∧ FwReady s ∧ 4 ≤ r.payload.length ∧ s.bsState = bsRUNNING)
    ∧ (∃ (c : Fin 3) (r : RecIn) (s : State) (on : Bool) (p : Fin 2), InOrder c r s ∧ FwReady s ∧ r.payload = leBytes 1 on.toNat ++ leBytes 1 p.val ++ leBytes 2 0) :=
  ⟨⟨Sys2Proof.Instr.ping 2 { seq := 0x0000#16, flags := 0x00#8, ref := 0x0000#16, payload := [], crcOk := true }, 2, 64, { seq := 0x0000#16, flags := 0x00#8, ref := 0x0000#16, payload := [], crcOk := true }, wNoFw, by decide +kernel⟩,
    ⟨Sys2Proof.Instr.ping 2 { seq := 0x0000#16, flags := 0x00#8, ref := 0x0000#16, payload := [], crcOk := true }, 2, 64, { seq := 0x0000#16, flags := 0x00#8, ref := 0x0000#16, payload := [], crcOk := true }, wQueue, by decide +kernel⟩,
    ⟨Sys2Proof.Instr.unknownOpcode 2 0x70#8 { seq := 0x0000#16, flags := 0x00#8, ref := 0x0000#16, payload := [], crcOk := true }, 2, 112, { seq := 0x0000#16, flags := 0x00#8, ref := 0x0000#16, payload := [], crcOk := true }, wOn, by decide +kernel⟩,
    ⟨{ seq := 0x0000#16, flags := 0x00#8, ref := 0x0000#16, payload := [], crcOk := true }, wOn, by decide +kernel⟩,
    ⟨{ seq := 0x0000#16, flags := 0x00#8, ref := 0x0000#16, payload := [0x10#8, 0x00#8, 0x00#8, 0x00#8, 0x02#8, 0x00#8, 0x00#8, 0x00#8], crcOk := true }, wOn, 16, 2, by decide +kernel⟩,
    ⟨{ seq := 0x0000#16, flags := 0x00#8, ref := 0x0000#16, payload := [0x10#8, 0x00#8, 0x00#8, 0x00#8, 0x02#8, 0x00#8, 0x00#8, 0x00#8], crcOk := true }, wOn, 16, 2, by decide +kernel⟩,
    ⟨{ seq := 0x0000#16, flags := 0x00#8, ref := 0x0000#16, payload := ([0x00#8, 0x01#8, 0x01#8, 0x00#8] ++ List.replicate 16 0x07#8), crcOk := true }, wOn, 0, 1, true, false, 0, List.replicate 12 0, (List.replicate 16 0x07#8), by decide +kernel⟩,
    ⟨{ seq := 0x0000#16, flags := 0x00#8, ref := 0x0000#16, payload := [], crcOk := true }, wDiag, by decide +kernel⟩,
    ⟨{ seq := 0x0000#16, flags := 0x00#8, ref := 0x0000#16, payload := [], crcOk := true }, wOn, by decide +kernel⟩,
    ⟨2, { seq := 0x0000#16, flags := 0x00#8, ref := 0x0000#16, payload := ([0x10#8] ++ List.replicate 7 0x00#8), crcOk := true }, wOn, 16, 0, by decide +kernel⟩,
    ⟨2, { seq := 0x0000#16, flags := 0x00#8, ref := 0x0000#16, payload := [0x01#8, 0x00#8, 0x00#8, 0x00#8], crcOk := true }, wOn, Sys2Proof.Instr.holvoUpdateCmd 2 { seq := 0x0000#16, flags := 0x00#8, ref := 0x0000#16, payload := [0x01#8, 0x00#8, 0x00#8, 0x00#8], crcOk := true }, 69, 65608, 1, by decide +kernel⟩,
    ⟨2, { seq := 0x0000#16, flags := 0x00#8, ref := 0x0000#16, payload := ([0x10#8] ++ List.replicate 7 0x00#8), crcOk := true }, wOn, by decide +kernel⟩,
    ⟨2, { seq := 0x0000#16, flags := 0x00#8, ref := 0x0000#16, payload := ([0x10#8] ++ List.replicate 7 0x00#8), crcOk := true }, wOnRun, by decide +kernel⟩,
    ⟨2, { seq := 0x0000#16, flags := 0x00#8, ref := 0x0000#16, payload := [0x01#8, 0x00#8, 0x00#8, 0x00#8], crcOk := true }, wOn, true, 0, by decide +kernel⟩⟩

theorem witness_HostLinks :
    (∃ (s : State), s.boot.porst = false)
    ∧ (∃ (s : State), s.boot.porst = true)
    ∧ (∃ (fin : SpiEnd) (s : State), s.boot.porst = true ∧ (fin = SpiEnd.ok ∨ fin = SpiEnd.dataCrc))
    ∧ (∃ (p : Fin 2) (s : State), s.boot.porst = false ∨ s.ethUp p.val = false)
    ∧ (∃ (p : Fin 2) (f : EthIn) (s : State), s.boot.porst = true ∧ s.ethUp p.val = true ∧ ¬(f.fcsOk = true ∧ 64 ≤ f.frame.length + 4 ∧ f.frame.length + 4 ≤ s.getF (fHOSTIF_ETH_CFG_MAX_FRAME p.val)))
    ∧ (∃ (p : Fin 2) (f : EthIn) (s : State), s.boot.porst = true ∧ s.ethUp p.val = true ∧ (f.fcsOk = true ∧ 64 ≤ f.frame.length + 4 ∧ f.frame.length + 4 ≤ s.getF (fHOSTIF_ETH_CFG_MAX_FRAME p.val)) ∧ s.ethFilter p.val (beAt f.frame 0 6) = false)
    ∧ (∃ (p : Fin 2) (f : EthIn) (s : State), s.boot.porst = true ∧ s.ethUp p.val = true ∧ (f.fcsOk = true ∧ 64 ≤ f.frame.length + 4 ∧ f.frame.length + 4 ≤ s.getF (fHOSTIF_ETH_CFG_MAX_FRAME p.val)) ∧ s.ethFilter p.val (beAt f.frame 0 6) = true ∧ (if s.ownMac p.val (beAt f.frame 0 6) = true then s.wakeNote 5 else s).macsecIn p.val f.frame = none)
    ∧ (∃ (p : Fin 2) (f : EthIn) (s : State) (d : List Byte) (v : State), s.boot.porst = true ∧ s.ethUp p.val = true ∧ (f.fcsOk = true ∧ 64 ≤ f.frame.length + 4 ∧ f.frame.length + 4 ≤ s.getF (fHOSTIF_ETH_CFG_MAX_FRAME p.val)) ∧ s.ethFilter p.val (beAt f.frame 0 6) = true ∧ (if s.ownMac p.val (beAt f.frame 0 6) = true then s.wakeNote 5 else s).macsecIn p.val f.frame = some (d, v) ∧ beAt f.frame 0 6 = 281474976710655 ∧ isArp (frameBody d) = false)
    ∧ (∃ (p : Fin 2) (f : EthIn) (s : State) (d : List Byte) (v : State), s.boot.porst = true ∧ s.ethUp p.val = true ∧ (f.fcsOk = true ∧ 64 ≤ f.frame.length + 4 ∧ f.frame.length + 4 ≤ s.getF (fHOSTIF_ETH_CFG_MAX_FRAME p.val)) ∧ s.ethFilter p.val (beAt f.frame 0 6) = true ∧ (if s.ownMac p.val (beAt f.frame 0 6) = true then s.wakeNote 5 else s).macsecIn p.val f.frame = some (d, v) ∧ frameBody d = EthBody.other)
    ∧ (∃ (p : Fin 2) (f : EthIn) (s : State) (d : List Byte) (v : State) (st : Nat) (ms : List (Nat × List Byte)), s.boot.porst = true ∧ s.ethUp p.val = true ∧ (f.fcsOk = true ∧ 64 ≤ f.frame.length + 4 ∧ f.frame.length + 4 ≤ s.getF (fHOSTIF_ETH_CFG_MAX_FRAME p.val)) ∧ s.ethFilter p.val (beAt f.frame 0 6) = true ∧ (if s.ownMac p.val (beAt f.frame 0 6) = true then s.wakeNote 5 else s).macsecIn p.val f.frame = some (d, v) ∧ frameBody d = EthBody.ntscf st ms ∧ beAt f.frame 0 6 ≠ 281474976710655)
    ∧ (∃ (p : Fin 2) (f : EthIn) (s : State) (d : List Byte) (v : State) (ip : Nat) (port : Nat) (srcIp : Nat) (srcPort : Nat) (bs : List Byte), s.boot.porst = true ∧ s.ethUp p.val = true ∧ (f.fcsOk = true ∧ 64 ≤ f.frame.length + 4 ∧ f.frame.length + 4 ≤ s.getF (fHOSTIF_ETH_CFG_MAX_FRAME p.val)) ∧ s.ethFilter p.val (beAt f.frame 0 6) = true ∧ (if s.ownMac p.val (beAt f.frame 0 6) = true then s.wakeNote 5 else s).macsecIn p.val f.frame = some (d, v) ∧ frameBody d = EthBody.udp ip port srcIp srcPort bs ∧ beAt f.frame 0 6 ≠ 281474976710655)
    ∧ (∃ (p : Fin 2) (f : EthIn) (s : State) (d : List Byte) (v : State) (ip : Nat) (mac : Nat) (srcIp : Nat), s.boot.porst = true ∧ s.ethUp p.val = true ∧ (f.fcsOk = true ∧ 64 ≤ f.frame.length + 4 ∧ f.frame.length + 4 ≤ s.getF (fHOSTIF_ETH_CFG_MAX_FRAME p.val)) ∧ s.ethFilter p.val (beAt f.frame 0 6) = true ∧ (if s.ownMac p.val (beAt f.frame 0 6) = true then s.wakeNote 5 else s).macsecIn p.val f.frame = some (d, v) ∧ frameBody d = EthBody.arp ip mac srcIp)
    ∧ (∃ (p : Fin 2) (f : EthIn) (s : State) (d : List Byte) (v : State) (ip : Nat) (srcIp : Nat) (bs : List Byte), s.boot.porst = true ∧ s.ethUp p.val = true ∧ (f.fcsOk = true ∧ 64 ≤ f.frame.length + 4 ∧ f.frame.length + 4 ≤ s.getF (fHOSTIF_ETH_CFG_MAX_FRAME p.val)) ∧ s.ethFilter p.val (beAt f.frame 0 6) = true ∧ (if s.ownMac p.val (beAt f.frame 0 6) = true then s.wakeNote 5 else s).macsecIn p.val f.frame = some (d, v) ∧ frameBody d = EthBody.echo ip srcIp bs ∧ beAt f.frame 0 6 ≠ 281474976710655)
    ∧ (∃ (p : Fin 2) (up : Bool) (s : State), s.boot.porst = true ∧ s.isF (fHOSTIF_ETH_CFG_EN p.val) = true ∧ s.isF (fHOSTIF_ETH_STATUS_LINK p.val) ≠ up)
    ∧ (∃ (p : Fin 2) (up : Bool) (s : State), s.boot.porst = false ∨ s.isF (fHOSTIF_ETH_CFG_EN p.val) = false ∨ s.isF (fHOSTIF_ETH_STATUS_LINK p.val) = up)
    ∧ (∃ (c : Fin 2) (s : State), s.canOn c.val = false)
    ∧ (∃ (c : Fin 2) (s : State), s.canOn c.val = true)
    ∧ (∃ (c : Fin 2) (s : State) (id : CanId), s.canOn c.val = true ∧ id ≠ s.loader.cfg.ho.canReqId.getD c.val { : CanId })
    ∧ (∃ (c : Fin 2) (s : State) (id : CanId) (b : List Byte), s.canOn c.val = true ∧ id = s.loader.cfg.ho.canReqId.getD c.val { : CanId } ∧ canValid (s.canOf c.val).last b = false)
    ∧ (∃ (c : Fin 2) (s : State) (id : CanId) (b : List Byte), s.canOn c.val = true ∧ id = s.loader.cfg.ho.canReqId.getD c.val { : CanId } ∧ canValid (s.canOf c.val).last b = true ∧ c.val < s.host.can.length)
    ∧ (∃ (c : Fin 2) (s : State), s.isF (fHOSTIF_CAN_STATUS_BUS_OFF c.val) = false)
    ∧ (∃ (c : Fin 2) (s : State), s.boot.porst = true ∧ s.isF (fHOSTIF_CAN_STATUS_BUS_OFF c.val) = true) :=
  ⟨⟨State.reset, by decide +kernel⟩,
    ⟨wOn, by decide +kernel⟩,
    ⟨Sys2Proof.SpiEnd.dataCrc, wOn, by decide +kernel⟩,
    ⟨0, State.reset, by decide +kernel⟩,
    ⟨0, wBadFcs, wEthOn false, by decide +kernel⟩,
    ⟨0, wFrame 9 [], wEthOn false, by decide +kernel⟩,
    ⟨0, wNtscf, wEthOn true, by decide +kernel⟩,
    ⟨0, wAll, (wEthOn false), wAll.frame.drop 12, wEthOn false, by decide +kernel⟩,
    ⟨0, wOther, (wEthOn false), wOther.frame.drop 12, (wEthOn false).wakeNote 5, by decide +kernel⟩,
    ⟨0, wNtscf, (wEthOn false), wNtscf.frame.drop 12, (wEthOn false).wakeNote 5, 7, [(5, wPing 1)], by decide +kernel⟩,
    ⟨0, wUdp, (wEthOn false), wUdp.frame.drop 12, (wEthOn false).wakeNote 5, 0x0A000001, 4000, 0x0A000002, 99, wPing 1, by decide +kernel⟩,
    ⟨0, wArp, (wEthOn false), wArp.frame.drop 12, wEthOn false, 0x0A000001, 9, 0x0A000002, by decide +kernel⟩,
    ⟨0, wEcho, (wEthOn false), wEcho.frame.drop 12, (wEthOn false).wakeNote 5, 0x0A000001, 0x0A000002, [0, 0, 0, 1], by decide +kernel⟩,
    ⟨0, false, wEthOn false, by decide +kernel⟩,
    ⟨0, true, State.reset, by decide +kernel⟩,
    ⟨0, wRst, by decide +kernel⟩,
    ⟨0, wCan, by decide +kernel⟩,
    ⟨0, wCan, { ext := true }, by decide +kernel⟩,
    ⟨0, wCan, {}, [1, 2], by decide +kernel⟩,
    ⟨0, wCan, {}, [0x9e#8, 0x01#8] ++ List.replicate 6 0x00#8, by decide +kernel⟩,
    ⟨0, wRst, by decide +kernel⟩,
    ⟨0, wCan.withF [(fHOSTIF_CAN_STATUS_BUS_OFF 0, 1)], by decide +kernel⟩⟩

theorem witness_EventsAndSpool :
    (∃ (s : State), s.hamper.outbox = [])
    ∧ (∃ (s : State) (c : Nat × Ev), pickEv s.hamper.outbox = some c ∧ s.slotFree c.2.kind.prio = true ∧ s.injectArmed 7 = false ∧ s.hamper.boxHurt = [])
    ∧ (∃ (spi : Bool) (s : State), s.getF fMSG_EVT_CFG_OWNER ≠ spi.toNat)
    ∧ (∃ (spi : Bool) (s : State) (w : Word) (l : List Word), s.getF fMSG_EVT_CFG_OWNER = spi.toNat ∧ s.hamper.packet = w :: l)
    ∧ (∃ (spi : Bool) (s : State), s.getF fMSG_EVT_CFG_OWNER = spi.toNat ∧ s.hamper.packet = [] ∧ s.hamper.held = [] ∧ s.hamper.summary = none)
    ∧ (∃ (spi : Bool) (s : State) (c : Nat × Ev) (u : State), s.getF fMSG_EVT_CFG_OWNER = spi.toNat ∧ s.hamper.packet = [] ∧ s.evtHead = (some c, u) ∧ s.hamper.hurt = [])
    ∧ (∃ (s : State), Takes s rMSG_EVT_SKIP)
    ∧ (∃ (s : State), s.boot.porst = true ∧ s.locked = false)
    ∧ (∃ (s : State), s.fwRuns = false ∨ s.hamper.stream.any id = false)
    ∧ (∃ (s : State), s.fwRuns = true ∧ s.hamper.stream.any id = true ∧ s.getF fMSG_EVT_CFG_OWNER = 1 ∧ s.eventsDue = true)
    ∧ (∃ (s : State), s.spool.buf = [])
    ∧ (∃ (s : State) (r : SpRec) (l : List SpRec), s.spool.buf = r :: l ∧ s.spool.hurt = [] ∧ s.spState = spOFF)
    ∧ (∃ (s : State) (r : SpRec) (l : List SpRec), s.spool.buf = r :: l ∧ s.spool.hurt = [] ∧ s.spState = spFROZEN ∧ 0 < s.spCap)
    ∧ (∃ (s : State) (r : SpRec) (l : List SpRec), s.spool.buf = r :: l ∧ s.spool.hurt = [] ∧ s.spState = spRECORDING ∧ s.spool.ring.length < s.spCap ∧ Clean s)
    ∧ (∃ (s : State), Takes s rMSG_SP_CMD ∧ s.spool.ring = [])
    ∧ (∃ (s : State) (i : Nat), Takes s rMSG_SP_CMD ∧ s.spIndex (s.regN rMSG_SP_RD_PTR) = i ∧ i + 1 < s.spool.ring.length ∧ Clean s)
    ∧ (∃ (s : State), Takes s rMSG_SP_CMD ∧ s.spool.ring ≠ [] ∧ Clean s)
    ∧ (∃ (s : State), Takes s rMSG_SP_CMD ∧ s.spState ≠ spOFF)
    ∧ (∃ (s : State), Takes s rMSG_SP_CMD ∧ s.spState ≠ spOFF ∧ s.isF fMSG_SP_STATUS_MARK_VALID = true ∧ Clean s)
    ∧ (∃ (s : State), Takes s rMSG_SP_CMD ∧ s.spState ≠ spOFF ∧ s.isF fMSG_SP_STATUS_MARK_VALID = false ∧ Clean s)
    ∧ (∃ (s : State), Takes s rMSG_SP_CMD ∧ s.spState = spRECORDING)
    ∧ (∃ (s : State), Takes s rMSG_SP_CMD ∧ s.spState ≠ spRECORDING)
    ∧ (∃ (s : State), Takes s rMSG_SP_CMD ∧ s.spState = spFROZEN)
    ∧ (∃ (s : State), Takes s rMSG_SP_CMD ∧ s.spState = spOFF)
    ∧ (∃ (s : State), s.spState = spPOST)
    ∧ (∃ (s : State), s.spState ≠ spPOST) :=
  ⟨⟨wRst, by decide +kernel⟩,
    ⟨wOut1, (4, { kind := { cls := 3, code := 1, prio := 2 }, src := 4, data := 0x00000000#32, lt := 0 }), by decide +kernel⟩,
    ⟨false, wHeld, by decide +kernel⟩,
    ⟨true, wPacket, 5, [], by decide +kernel⟩,
    ⟨false, wRst, by decide +kernel⟩,
    ⟨true, wHeld, (0, { kind := { cls := 3, code := 1, prio := 2 }, src := 4, data := 0x00000000#32, lt := 0 }), wOwned, by decide +kernel⟩,
    ⟨wRst, by decide +kernel⟩,
    ⟨wRst, by decide +kernel⟩,
    ⟨wRst, by decide +kernel⟩,
    ⟨wStream, by decide +kernel⟩,
    ⟨wRst, by decide +kernel⟩,
    ⟨(wSp spOFF [] [wSpR]), { seq := 0, kind := 0, flags := 0, src := 0, lt := 0, payload := [] }, [], by decide +kernel⟩,
    ⟨(wSp spFROZEN [0] [wSpR]), { seq := 0, kind := 0, flags := 0, src := 0, lt := 0, payload := [] }, [], by decide +kernel⟩,
    ⟨(wSp spRECORDING [] [wSpR]), { seq := 0, kind := 0, flags := 0, src := 0, lt := 0, payload := [] }, [], by decide +kernel⟩,
    ⟨wRst, by decide +kernel⟩,
    ⟨(wSp spRECORDING [0,1] []), 0, by decide +kernel⟩,
    ⟨(wSp spFROZEN [0] [wSpR]), by decide +kernel⟩,
    ⟨(wSp spFROZEN [0] [wSpR]), by decide +kernel⟩,
    ⟨wSpMark, by decide +kernel⟩,
    ⟨(wSp spFROZEN [0] [wSpR]), by decide +kernel⟩,
    ⟨(wSp spRECORDING [] [wSpR]), by decide +kernel⟩,
    ⟨wRst, by decide +kernel⟩,
    ⟨(wSp spFROZEN [0] [wSpR]), by decide +kernel⟩,
    ⟨wRst, by decide +kernel⟩,
    ⟨(wSp spPOST [0] []), by decide +kernel⟩,
    ⟨wRst, by decide +kernel⟩⟩

theorem witness_SafetyChannels :
    (∃ (s : State), s.boot.porst = false)
    ∧ (∃ (s : State), s.boot.porst = true)
    ∧ (∃ (s : State), Takes s rSAFETY_ACK_SC)
    ∧ (∃ (v : Word) (mask : Word) (from_ : Nat) (s : State), Takes s rSAFETY_ACK_TT ∧ (s.safe.ack = none ∨ s.safe.ack = some (BitVec.toNat mask, from_) ∧ (v ≠ ~~~mask ∨ from_ + ticksMs 10 < s.time.now)))
    ∧ (∃ (v : Word) (mask : Word) (from_ : Nat) (s : State), Takes s rSAFETY_ACK_TT ∧ s.safe.ack = some (BitVec.toNat mask, from_) ∧ v = ~~~mask ∧ s.time.now ≤ from_ + ticksMs 10 ∧ (nth { : SinCh } s.safe.sinTt 1).normal = false ∧ ∀ b < 20, (s.faults &&& BitVec.toNat mask &&& 1048575).testBit b = true → s.persists b = false)
    ∧ (∃ (s : State), s.safe.ack = none)
    ∧ (∃ (s : State) (m : Nat) (from_ : Nat), s.safe.ack = some (m, from_) ∧ from_ + ticksMs 10 < s.time.now)
    ∧ (∃ (s : State) (m : Nat) (from_ : Nat), s.safe.ack = some (m, from_) ∧ s.time.now ≤ from_ + ticksMs 10)
    ∧ (∃ (n : Fin 4) (s : State), s.boot.porst = true ∧ (s.safeT n.val).record = none)
    ∧ (∃ (n : Fin 4) (s : State) (r : StatRec), s.boot.porst = true ∧ (s.safeT n.val).record = some r ∧ s.tgState n.val = tgOFF)
    ∧ (∃ (n : Fin 4) (s : State) (r : StatRec), s.boot.porst = true ∧ (s.safeT n.val).record = some r ∧ s.tgState n.val ≠ tgOFF)
    ∧ (∃ (n : Fin 4) (s : State) (r : StatRec), s.boot.porst = true ∧ (s.safeT n.val).record = some r ∧ s.tgState n.val ≠ tgOFF ∧ (s.safeT n.val).missed = false)
    ∧ (∃ (s : State), s.safe.stream = true ∧ s.safe.streamT + s.holdTicks ≤ s.time.now)
    ∧ (∃ (s : State), s.time.now < s.safe.streamT + s.holdTicks)
    ∧ (∃ (n : Fin 4) (hs : Bool) (ls : Bool) (s : State), s.boot.porst = true ∧ (s.safeT n.val).test = none ∧ hs = (s.safeT n.val).hs ∧ ls = (s.safeT n.val).ls)
    ∧ (∃ (n : Fin 4) (hs : Bool) (ls : Bool) (s : State), s.boot.porst = true ∧ (s.safeT n.val).test = none ∧ (hs ≠ (s.safeT n.val).hs ∨ ls ≠ (s.safeT n.val).ls) ∧ n.val < s.tiles)
    ∧ (∃ (n : Fin 4) (s : State), s.isF fSAFETY_TEST_CFG_EN = true ∧ (s.safeT n.val).test = none ∧ (s.safeT n.val).due = none ∧ (s.safeT n.val).hs = true ∧ (s.safeT n.val).ls = true ∧ s.ssOf n.val < 2 ∧ s.tgState n.val = tgOFF)
    ∧ (∃ (n : Fin 4) (s : State), s.isF fSAFETY_TEST_CFG_EN = true ∧ (s.safeT n.val).test = none ∧ (s.safeT n.val).due = none ∧ (s.safeT n.val).hs = true ∧ (s.safeT n.val).ls = true ∧ s.ssOf n.val < 2 ∧ s.tgState n.val ≠ tgOFF)
    ∧ (∃ (n : Fin 4) (s : State), s.isF fSAFETY_TEST_CFG_EN = true ∧ (s.safeT n.val).test = none ∧ (s.safeT n.val).due = none ∧ ((s.safeT n.val).hs = false ∨ (s.safeT n.val).ls = false))
    ∧ (∃ (n : Fin 4) (mid : Bool) (fin : Bool) (high : Bool) (s : State), (s.safeT n.val).test = some high ∧ (s.safeT n.val).due = none ∧ s.ssOf n.val < 2 ∧ mid = false ∧ fin = true)
    ∧ (∃ (n : Fin 4) (mid : Bool) (fin : Bool) (high : Bool) (s : State), (s.safeT n.val).test = some high ∧ (s.safeT n.val).due = none ∧ s.ssOf n.val < 2 ∧ (mid = true ∨ fin = false) ∧ n.val < s.tiles)
    ∧ (∃ (n : Fin 4) (s : State), (s.safeT n.val).fbTimer = false)
    ∧ (∃ (n : Fin 4) (s : State), (s.safeT n.val).fbTimer = true ∧ n.val < s.tiles) :=
  ⟨⟨State.reset, by decide +kernel⟩,
    ⟨wRst, by decide +kernel⟩,
    ⟨wRst, by decide +kernel⟩,
    ⟨0, 0, 0, wRst, by decide +kernel⟩,
    ⟨4294967292, 3, 0, wAck1, by decide +kernel⟩,
    ⟨wRst, by decide +kernel⟩,
    ⟨wAckLate, 3, 0, by decide +kernel⟩,
    ⟨wAck1, 3, 0, by decide +kernel⟩,
    ⟨0, wRst, by decide +kernel⟩,
    ⟨0, (wSafeT { record := some wStat }), { frame := 0, bands := [], carry := [], layers := [], mismatch := 0, invalid := 0 }, by decide +kernel⟩,
    ⟨0, (wSafeT { record := some wStat }).setF (fTG_STATUS_STATE 0) tgRUNNING, { frame := 0, bands := [], carry := [], layers := [], mismatch := 0, invalid := 0 }, by decide +kernel⟩,
    ⟨0, (wSafeT { record := some wStat }).setF (fTG_STATUS_STATE 0) tgRUNNING, { frame := 0, bands := [], carry := [], layers := [], mismatch := 0, invalid := 0 }, by decide +kernel⟩,
    ⟨wHoldOn, by decide +kernel⟩,
    ⟨wRst, by decide +kernel⟩,
    ⟨0, false, false, wRst, by decide +kernel⟩,
    ⟨0, true, false, wRst, by decide +kernel⟩,
    ⟨0, wClosed, by decide +kernel⟩,
    ⟨0, wClosed.setF (fTG_STATUS_STATE 0) tgRUNNING, by decide +kernel⟩,
    ⟨0, wOpen, by decide +kernel⟩,
    ⟨0, false, true, true, (wSafeT { test := some true }), by decide +kernel⟩,
    ⟨0, false, false, true, (wSafeT { test := some true }), by decide +kernel⟩,
    ⟨0, wRst, by decide +kernel⟩,
    ⟨0, wFbTimer, by decide +kernel⟩⟩

theorem witness_SafetyInputs :
    (∃ (n : Fin 2) (s : State), n.val < s.safe.act.length ∧ ¬(s.actMay n.val = true ∧ s.isF (fSAFETY_ACT_STATUS_HOMED n.val) = true ∧ signOf 16 (s.regN (rSAFETY_ACT_TARGET n.val)) ≠ (s.actOf n.val).steps ∧ ((s.actCfg false n.val).posMin ≤ if decide ((s.actOf n.val).steps < signOf 16 (s.regN (rSAFETY_ACT_TARGET n.val))) = true then (s.actOf n.val).steps + 1 else (s.actOf n.val).steps - 1) ∧ (if decide ((s.actOf n.val).steps < signOf 16 (s.regN (rSAFETY_ACT_TARGET n.val))) = true then (s.actOf n.val).steps + 1 else (s.actOf n.val).steps - 1) ≤ (s.actCfg false n.val).posMax))
    ∧ (∃ (n : Fin 2) (s : State), n.val < s.safe.act.length ∧ (s.actMay n.val = true ∧ s.isF (fSAFETY_ACT_STATUS_HOMED n.val) = true ∧ signOf 16 (s.regN (rSAFETY_ACT_TARGET n.val)) ≠ (s.actOf n.val).steps ∧ ((s.actCfg false n.val).posMin ≤ if decide ((s.actOf n.val).steps < signOf 16 (s.regN (rSAFETY_ACT_TARGET n.val))) = true then (s.actOf n.val).steps + 1 else (s.actOf n.val).steps - 1) ∧ (if decide ((s.actOf n.val).steps < signOf 16 (s.regN (rSAFETY_ACT_TARGET n.val))) = true then (s.actOf n.val).steps + 1 else (s.actOf n.val).steps - 1) ≤ (s.actCfg false n.val).posMax) ∧ s.stepSpeed n.val = false)
    ∧ (∃ (n : Fin 2) (s : State), n.val < s.safe.act.length ∧ (s.actMay n.val = true ∧ s.isF (fSAFETY_ACT_STATUS_HOMED n.val) = true ∧ signOf 16 (s.regN (rSAFETY_ACT_TARGET n.val)) ≠ (s.actOf n.val).steps ∧ ((s.actCfg false n.val).posMin ≤ if decide ((s.actOf n.val).steps < signOf 16 (s.regN (rSAFETY_ACT_TARGET n.val))) = true then (s.actOf n.val).steps + 1 else (s.actOf n.val).steps - 1) ∧ (if decide ((s.actOf n.val).steps < signOf 16 (s.regN (rSAFETY_ACT_TARGET n.val))) = true then (s.actOf n.val).steps + 1 else (s.actOf n.val).steps - 1) ≤ (s.actCfg false n.val).posMax) ∧ s.stepSpeed n.val = true ∧ n = (0 : Fin 2) ∧ decide ((s.actOf n.val).steps < signOf 16 (s.regN (rSAFETY_ACT_TARGET n.val))) = false ∧ s.upRefused = true)
    ∧ (∃ (n : Fin 2) (s : State), n.val < s.safe.act.length ∧ (s.actMay n.val = true ∧ s.isF (fSAFETY_ACT_STATUS_HOMED n.val) = true ∧ signOf 16 (s.regN (rSAFETY_ACT_TARGET n.val)) ≠ (s.actOf n.val).steps ∧ ((s.actCfg false n.val).posMin ≤ if decide ((s.actOf n.val).steps < signOf 16 (s.regN (rSAFETY_ACT_TARGET n.val))) = true then (s.actOf n.val).steps + 1 else (s.actOf n.val).steps - 1) ∧ (if decide ((s.actOf n.val).steps < signOf 16 (s.regN (rSAFETY_ACT_TARGET n.val))) = true then (s.actOf n.val).steps + 1 else (s.actOf n.val).steps - 1) ≤ (s.actCfg false n.val).posMax) ∧ s.stepSpeed n.val = true ∧ ¬(n = (0 : Fin 2) ∧ decide ((s.actOf n.val).steps < signOf 16 (s.regN (rSAFETY_ACT_TARGET n.val))) = false ∧ s.upRefused = true) ∧ ¬(s.actOutside false n.val = true ∨ s.actOutside true n.val = true ∨ 4 * s.encPerStep n.val < ((s.actOf n.val).sc - (if decide ((s.actOf n.val).steps < signOf 16 (s.regN (rSAFETY_ACT_TARGET n.val))) = true then (s.actOf n.val).steps + 1 else (s.actOf n.val).steps - 1) * (s.encPerStep n.val).cast).natAbs))
    ∧ (∃ (n : Fin 2) (s : State), n.val < s.safe.act.length ∧ (s.actMay n.val = true ∧ s.isF (fSAFETY_ACT_STATUS_HOMED n.val) = true ∧ signOf 16 (s.regN (rSAFETY_ACT_TARGET n.val)) ≠ (s.actOf n.val).steps ∧ ((s.actCfg false n.val).posMin ≤ if decide ((s.actOf n.val).steps < signOf 16 (s.regN (rSAFETY_ACT_TARGET n.val))) = true then (s.actOf n.val).steps + 1 else (s.actOf n.val).steps - 1) ∧ (if decide ((s.actOf n.val).steps < signOf 16 (s.regN (rSAFETY_ACT_TARGET n.val))) = true then (s.actOf n.val).steps + 1 else (s.actOf n.val).steps - 1) ≤ (s.actCfg false n.val).posMax) ∧ s.stepSpeed n.val = true ∧ ¬(n = (0 : Fin 2) ∧ decide ((s.actOf n.val).steps < signOf 16 (s.regN (rSAFETY_ACT_TARGET n.val))) = false ∧ s.upRefused = true) ∧ (s.actOutside false n.val = true ∨ s.actOutside true n.val = true ∨ 4 * s.encPerStep n.val < ((s.actOf n.val).sc - (if decide ((s.actOf n.val).steps < signOf 16 (s.regN (rSAFETY_ACT_TARGET n.val))) = true then (s.actOf n.val).steps + 1 else (s.actOf n.val).steps - 1) * (s.encPerStep n.val).cast).natAbs))
    ∧ (∃ (n : Fin 2) (s : State), s.boot.porst = true ∧ n.val < s.safe.act.length ∧ s.isF (fSAFETY_ACT_STATUS_HOMED n.val) = false)
    ∧ (∃ (n : Fin 2) (s : State), n.val < s.safe.act.length ∧ (¬(11 * (s.actCfg false n.val).vMax * s.encPerStep n.val < 1000 * ((s.actOf n.val).sc - (s.actOf n.val).scWin).natAbs ∨ 11 * (s.actCfg true n.val).vMax * s.encPerStep n.val < 1000 * ((s.actOf n.val).tt - (s.actOf n.val).ttWin).natAbs) ∨ s.isF (fSAFETY_ACT_CFG_EN n.val) = false))
    ∧ (∃ (n : Fin 2) (s : State) (c : Instr), n.val < s.safe.act.length ∧ s.isF (fSAFETY_ACT_CFG_EN n.val) = true ∧ ((c = Instr.actMismatch n ∧ ∃ (from_ : Nat), (s.actOf n.val).differ = some from_ ∧ from_ + ticksMs 10 < s.time.now) ∨ c = Instr.actSpeedWindow n ∧ (11 * (s.actCfg false n.val).vMax * s.encPerStep n.val < 1000 * ((s.actOf n.val).sc - (s.actOf n.val).scWin).natAbs ∨ 11 * (s.actCfg true n.val).vMax * s.encPerStep n.val < 1000 * ((s.actOf n.val).tt - (s.actOf n.val).ttWin).natAbs)))
    ∧ (∃ (n : Fin 2) (s : State), n.val < s.safe.act.length ∧ ((¬∃ (from_ : Nat), (s.actOf n.val).differ = some from_ ∧ from_ + ticksMs 10 < s.time.now) ∨ s.isF (fSAFETY_ACT_CFG_EN n.val) = false))
    ∧ (∃ (n : Fin 2) (s : State), n.val < s.safe.act.length ∧ (s.actMay n.val = false ∨ s.isF (fSAFETY_ACT_STATUS_HOMED n.val) = true))
    ∧ (∃ (n : Fin 2) (s : State), n.val < s.safe.act.length ∧ s.actMay n.val = true ∧ s.isF (fSAFETY_ACT_STATUS_HOMED n.val) = false ∧ s.sinNormal false 2 = false ∧ s.sinNormal true 2 = false)
    ∧ (∃ (n : Fin 2) (s : State), n.val < s.safe.act.length ∧ s.actMay n.val = true ∧ s.isF (fSAFETY_ACT_STATUS_HOMED n.val) = false ∧ (s.sinNormal false 2 = true ∨ s.sinNormal true 2 = true) ∧ (s.actCfg false n.val).homeSteps ≤ (s.actOf n.val).homing)
    ∧ (∃ (n : Fin 2) (s : State), n.val < s.safe.act.length ∧ s.actMay n.val = true ∧ s.isF (fSAFETY_ACT_STATUS_HOMED n.val) = false ∧ (s.sinNormal false 2 = true ∨ s.sinNormal true 2 = true) ∧ (s.actOf n.val).homing < (s.actCfg false n.val).homeSteps ∧ s.stepSpeed n.val = false)
    ∧ (∃ (n : Fin 2) (s : State), n.val < s.safe.act.length ∧ s.actMay n.val = true ∧ s.isF (fSAFETY_ACT_STATUS_HOMED n.val) = false ∧ (s.sinNormal false 2 = true ∨ s.sinNormal true 2 = true) ∧ (s.actOf n.val).homing < (s.actCfg false n.val).homeSteps ∧ s.stepSpeed n.val = true)
    ∧ (∃ (s : State), s.boot.porst = true ∧ s.safe.sinSc.length = 4 ∧ s.safe.sinTt.length = 4)
    ∧ (∃ (tt : Bool) (b : Bool) (i : Fin 4) (s : State), s.safe.sinSc.length = 4 ∧ s.safe.sinTt.length = 4 ∧ ((if b = true then (s.sinCh tt i.val).b else (s.sinCh tt i.val).a).raw = (if b = true then (s.sinCh tt i.val).b else (s.sinCh tt i.val).a).acc ∨ (if b = true then (s.sinCh tt i.val).b else (s.sinCh tt i.val).a).stable < bitsOf (s.regN (rSAFETY_SIN_CFG i.val)) 16 5))
    ∧ (∃ (tt : Bool) (b : Bool) (i : Fin 4) (s : State), s.safe.sinSc.length = 4 ∧ s.safe.sinTt.length = 4 ∧ bitsOf (s.regN (rSAFETY_SIN_CFG i.val)) 16 5 ≤ (if b = true then (s.sinCh tt i.val).b else (s.sinCh tt i.val).a).stable ∧ s.sinOverdue tt i.val = false)
    ∧ (∃ (tt : Bool) (i : Fin 4) (s : State), s.safe.sinSc.length = 4 ∧ s.safe.sinTt.length = 4 ∧ s.sinOverdue tt i.val = false)
    ∧ (∃ (tt : Bool) (i : Fin 4) (s : State), s.safe.sinSc.length = 4 ∧ s.safe.sinTt.length = 4 ∧ s.sinOverdue tt i.val = true) :=
  ⟨⟨0, wRst, by decide +kernel⟩,
    ⟨0, wActOn 1 9 { steps := 5, stepAt := some 900000000 }, by decide +kernel⟩,
    ⟨0, wActUp, by decide +kernel⟩,
    ⟨0, wActOn 1 9 { steps := 5, sc := 5, tt := 5 }, by decide +kernel⟩,
    ⟨0, wActDown, by decide +kernel⟩,
    ⟨0, wRst, by decide +kernel⟩,
    ⟨0, wActUp, by decide +kernel⟩,
    ⟨0, wActBad, .actMismatch 0, by decide +kernel, by decide +kernel, .inl ⟨rfl, 0, by decide +kernel⟩⟩,
    ⟨0, wRst, by decide +kernel, .inr (by decide +kernel)⟩,
    ⟨0, wRst, by decide +kernel⟩,
    ⟨0, wHomed0, by decide +kernel⟩,
    ⟨0, wHoming { homing := 50 }, by decide +kernel⟩,
    ⟨0, wHoming { stepAt := some 900000000 }, by decide +kernel⟩,
    ⟨0, wHoming {}, by decide +kernel⟩,
    ⟨wRst, by decide +kernel⟩,
    ⟨false, false, 0, wRst, by decide +kernel⟩,
    ⟨false, false, 0, wRst, by decide +kernel⟩,
    ⟨false, 0, wRst, by decide +kernel⟩,
    ⟨false, 0, wDue, by decide +kernel⟩⟩

theorem witness_Integrity :
    (∃ (s : State), s.isF fMEM_SCRUB_CFG_EN = false ∨ s.wp = 0)
    ∧ (∃ (s : State), s.isF fMEM_SCRUB_CFG_EN = true ∧ s.wp ≠ 0 ∧ Clean s ∧ (if s.wp < s.ecc.scrubAt + 4 then 0 else s.ecc.scrubAt) + 4 ≠ s.wp)
    ∧ (∃ (s : State), s.isF fMEM_SCRUB_CFG_EN = true ∧ s.wp ≠ 0 ∧ Clean s ∧ (if s.wp < s.ecc.scrubAt + 4 then 0 else s.ecc.scrubAt) + 4 = s.wp)
    ∧ (∃ (s : State), s.ecc.synd = [])
    ∧ (∃ (b : BitVec 40) (k : Fin 32) (s : State), s.syndAt (b.toNat / 4 * 4) = eccColumn k.val ∧ s.dirtyWords (b.toNat / 4 * 4) 4 = [b.toNat / 4 * 4] ∧ (eccRegion (b.toNat / 4 * 4) = some 1 ∨ eccRegion (b.toNat / 4 * 4) = some 2 ∨ eccRegion (b.toNat / 4 * 4) = some 3 ∨ eccRegion (b.toNat / 4 * 4) = some 6 ∧ s.boot.aon = true))
    ∧ (∃ (s : State), s.boot.porst = false)
    ∧ (∃ (s : State), s.ecc.hid = [] ∧ s.hamper.hurt = [] ∧ s.hamper.boxHurt = [] ∧ s.spool.hurt = [])
    ∧ (∃ (s : State), s.boot.porst = true ∧ s.locked = false ∧ (List.range 4).any s.lit = false)
    ∧ (∃ (n : Fin 4) (s : State), Takes s (rCRC_CMD n.val) ∧ s.getF (fCRC_CTRL_MODE n.val) ≠ 0)
    ∧ (∃ (n : Fin 4) (s : State), Takes s (rCRC_CMD n.val) ∧ s.getF (fCRC_CTRL_MODE n.val) = 0 ∧ s.isF (fCRC_STATUS_BUSY n.val) = true)
    ∧ (∃ (n : Fin 4) (s : State), Takes s (rCRC_CMD n.val) ∧ s.getF (fCRC_CTRL_MODE n.val) = 0 ∧ s.isF (fCRC_STATUS_BUSY n.val) = false ∧ { ctrl := s.reg (rCRC_CTRL n.val), poly := s.reg (rCRC_POLY n.val), init := s.reg (rCRC_INIT n.val), addr := s.regN (rCRC_ADDR_LO n.val) + 2 ^ 32 * (s.regN (rCRC_ADDR_HI n.val) % 256), len := s.regN (rCRC_LEN n.val), crc := s.regN (rCRC_INIT n.val) % 2 ^ crcWidth (bitsOf (s.regN (rCRC_CTRL n.val)) 16 2) : CrcJob }.bad = false)
    ∧ (∃ (n : Fin 4) (s : State), Takes s (rCRC_CMD n.val) ∧ s.getF (fCRC_CTRL_MODE n.val) = 0 ∧ s.isF (fCRC_STATUS_BUSY n.val) = false ∧ { ctrl := s.reg (rCRC_CTRL n.val), poly := s.reg (rCRC_POLY n.val), init := s.reg (rCRC_INIT n.val), addr := s.regN (rCRC_ADDR_LO n.val) + 2 ^ 32 * (s.regN (rCRC_ADDR_HI n.val) % 256), len := s.regN (rCRC_LEN n.val), crc := s.regN (rCRC_INIT n.val) % 2 ^ crcWidth (bitsOf (s.regN (rCRC_CTRL n.val)) 16 2) : CrcJob }.bad = true)
    ∧ (∃ (n : Fin 4) (s : State), Takes s (rCRC_CMD n.val) ∧ s.crcJob n.val = none)
    ∧ (∃ (n : Fin 4) (s : State) (i : CrcJob), Takes s (rCRC_CMD n.val) ∧ s.crcJob n.val = some i ∧ (i.mode = 2 ∨ i.done = 0 ∨ (i.addr + i.done) % 64 = 0))
    ∧ (∃ (n : Fin 4) (s : State) (i : CrcJob), Takes s (rCRC_CMD n.val) ∧ s.crcJob n.val = some i ∧ s.ecc.synd = [])
    ∧ (∃ (n : Fin 4) (s : State), s.crcJob n.val = none)
    ∧ (∃ (n : Fin 4) (j : CrcJob) (s : State), s.crcJob n.val = some j ∧ j.done < j.len ∧ s.ecc.synd = [] ∧ j.mode ≠ 2 ∧ (inRegs (j.addr + j.done) = true ∨ s.mapOk (j.addr + j.done) = false))
    ∧ (∃ (n : Fin 4) (j : CrcJob) (s : State), s.crcJob n.val = some j ∧ j.done < j.len ∧ s.ecc.synd = [] ∧ (∀ k < j.len, inRegs (j.addr + k) = false ∧ s.mapOk (j.addr + k) = true) ∧ j.done = 0 ∧ j.crc = BitVec.toNat j.init % 2 ^ crcWidth (bitsOf (BitVec.toNat j.ctrl) 16 2) ∧ j.mode = 0 ∧ BitVec.getLsbD j.ctrl 4 = false)
    ∧ (∃ (n : Fin 4) (j : CrcJob) (s : State), s.crcJob n.val = some j ∧ j.done < j.len ∧ s.ecc.synd = [] ∧ (∀ k < j.len, inRegs (j.addr + k) = false ∧ s.mapOk (j.addr + k) = true) ∧ j.done = 0 ∧ j.crc = BitVec.toNat j.init % 2 ^ crcWidth (bitsOf (BitVec.toNat j.ctrl) 16 2) ∧ j.mode = 1 ∧ j.len = 64 ∧ j.addr % 4 = 0)
    ∧ (∃ (n : Fin 4) (j : CrcJob) (s : State), s.crcJob n.val = some j ∧ Clean s ∧ j.mode = 2 ∧ s.inDram j.addr j.len = true ∧ j.len ≤ 64)
    ∧ (∃ (s : State), s.isF fHK_ROUND_CFG_SCHED = true)
    ∧ (∃ (s : State), s.hkOn = false)
    ∧ (∃ (s : State), s.hkOn = true ∧ s.isF fHK_ROUND_CFG_SCHED = false)
    ∧ (∃ (s : State), s.hkOn = true ∧ s.roundDue = false)
    ∧ (∃ (s : State), s.hkOn = true ∧ s.roundDue = true)
    ∧ (∃ (s : State), s.boot.aon = true)
    ∧ (∃ (s : State), s.boot.aon = false)
    ∧ (∃ (s : State), s.boot.porst = true)
    ∧ (∃ (c : List Byte) (s : State), s.boot.porst = true ∧ s.debugPort.chal = some c)
    ∧ (∃ (p : Fin 6) (s : State), s.boot.pll.getD p.val false = false)
    ∧ (∃ (p : Fin 6) (s : State), s.boot.pll.getD p.val false = true) :=
  ⟨⟨wNoScrub, by decide +kernel⟩,
    ⟨wScrub, by decide +kernel⟩,
    ⟨wScrubLast, by decide +kernel⟩,
    ⟨(wHk 0), by decide +kernel⟩,
    ⟨0xE100000004, 7, { wRst with ecc := { synd := [(0xE100000004, eccColumn 7)] } }, by decide +kernel⟩,
    ⟨State.reset, by decide +kernel⟩,
    ⟨wRst, by decide +kernel⟩,
    ⟨wRst, by decide +kernel⟩,
    ⟨0, wCrcMode 1, by decide +kernel⟩,
    ⟨0, (wCrcJob 0 3), by decide +kernel⟩,
    ⟨0, wCrcR, by decide +kernel⟩,
    ⟨0, wRst, by decide +kernel⟩,
    ⟨0, wRst, by decide +kernel⟩,
    ⟨1, wBusy, { ctrl := 0x80000000, poly := 0, init := 0, addr := 0, len := 64 }, by decide +kernel⟩,
    ⟨1, wBusy, { ctrl := 0x80000000, poly := 0, init := 0, addr := 0, len := 64 }, by decide +kernel⟩,
    ⟨0, wRst, by decide +kernel⟩,
    ⟨0, { ctrl := 0, poly := 0, init := 0, addr := 0xF800000000, len := 4 }, { wRst with crc := [(0, some { ctrl := 0, poly := 0, init := 0, addr := 0xF800000000, len := 4 })] }, by decide +kernel⟩,
    ⟨0, wJob 0 3, wCrcJob 0 3, by decide +kernel⟩,
    ⟨0, wJob 1 64, wCrcJob 1 64, by decide +kernel⟩,
    ⟨0, { ctrl := 0x80000000#32, poly := 0x00000000#32, init := 0x00000000#32, addr := 256, len := 64 }, (wCrcJob 2 64), by decide +kernel⟩,
    ⟨(wHk 1), by decide +kernel⟩,
    ⟨wRst, by decide +kernel⟩,
    ⟨(wHk 0), by decide +kernel⟩,
    ⟨{ wHk 0 with hk := { prev := some 0 } }, by decide +kernel⟩,
    ⟨(wHk 0), by decide +kernel⟩,
    ⟨wRst, by decide +kernel⟩,
    ⟨wBoot { aon := false }, by decide +kernel⟩,
    ⟨wRst, by decide +kernel⟩,
    ⟨[0x01#8], wChalD, by decide +kernel⟩,
    ⟨0, wRst, by decide +kernel⟩,
    ⟨0, wPllOn, by decide +kernel⟩⟩

theorem witness_CheckUnitBusy :
    (∃ (n : Fin 4) (s : State), s.isF (fCRC_STATUS_BUSY n.val) = true ∧ Takes s (rCRC_CTRL n.val))
    ∧ (∃ (n : Fin 4) (s : State), s.isF (fCRC_STATUS_BUSY n.val) = true ∧ Takes s (rCRC_CMD n.val))
    ∧ (∃ (n : Fin 4) (s : State), s.isF (fCRC_STATUS_BUSY n.val) = true ∧ Takes s (rCRC_CMD n.val) ∧ s.getF (fCRC_CTRL_MODE n.val) = 0)
    ∧ (∃ (n : Fin 4) (s : State) (j : CrcJob), s.isF (fCRC_STATUS_BUSY n.val) = true ∧ Takes s (rCRC_CMD n.val) ∧ s.crcJob n.val = some j ∧ (j.mode = 2 ∨ j.done = 0 ∨ (j.addr + j.done) % 64 = 0)) :=
  ⟨⟨1, wBusy, by decide +kernel⟩,
    ⟨1, wBusy, by decide +kernel⟩,
    ⟨1, wBusy.setF (fCRC_CTRL_MODE 1) 0, by decide +kernel⟩,
    ⟨1, wBusy, { ctrl := 0x80000000, poly := 0, init := 0, addr := 0, len := 64 }, by decide +kernel⟩⟩

theorem witness_HealthCommands :
    (∃ (n : Fin 4) (s : State) (b : BaseRun), Takes s rHEALTH_CMD ∧ (s.hl n.val).base = some b)
    ∧ (∃ (n : Fin 4) (s : State), Takes s rHEALTH_CMD ∧ (s.hl n.val).base = none)
    ∧ (∃ (n : Fin 4) (s : State), (s.hl n.val).fresh = false)
    ∧ (∃ (n : Fin 4) (s : State), (s.hl n.val).fresh = true ∧ (s.hl n.val).base = none)
    ∧ (∃ (s : State), Takes s rHEALTH_CMD)
    ∧ (∃ (s : State), s.boot.porst = false)
    ∧ (∃ (s : State), s.boot.porst = true)
    ∧ (∃ (s : State), s.hk.deltaDue = false ∨ 1 ≤ s.shed)
    ∧ (∃ (s : State), s.hk.deltaDue = true ∧ s.shed = 0 ∧ s.ecc.synd = [])
    ∧ (∃ (s : State) (n : Nat), s.hk.deltaDue = true ∧ s.shed = 0 ∧ s.ecc.synd = [] ∧ n < 4)
    ∧ (∃ (n : Fin 4) (ok : Bool) (s : State), 1 ≤ s.shed ∨ (s.hl n.val).ckpt = false ∧ (ok = true ∨ s.hk.deltaDue = false))
    ∧ (∃ (n : Fin 4) (s : State), (s.hl n.val).ckpt = true ∧ s.shed = 0 ∧ s.ecc.synd = [])
    ∧ (∃ (n : Fin 4) (s : State), (s.hl n.val).ckpt = true ∧ s.shed = 0)
    ∧ (∃ (n : Fin 4) (s : State), (s.hl n.val).ckpt = false ∧ s.shed = 0 ∧ s.hk.deltaDue = true)
    ∧ (∃ (s : State), s.loader.phase < 3)
    ∧ (∃ (s : State), s.isF fHEALTH_STATUS_ACC_VALID = true ∧ ∀ n < 4, s.tileUp n = false ∨ (s.hl n).fresh = true ∨ (s.hl n).accOk = true)
    ∧ (∃ (s : State), 3 ≤ s.loader.phase ∧ s.isF fHEALTH_STATUS_ACC_VALID = false)
    ∧ (∃ (s : State), ∃ n < 4, 3 ≤ s.loader.phase ∧ s.isF fHEALTH_STATUS_ACC_VALID = false ∧ s.tileUp n = true ∧ (s.hl n).fresh = false ∧ (s.hl n).accOk = false)
    ∧ (∃ (s : State), s.agingPaused = true)
    ∧ (∃ (s : State), s.agingPaused = false ∧ s.ecc.synd = [])
    ∧ (∃ (n : Fin 4) (spare : Bool) (px : BitVec 18) (s : State), Takes s rHEALTH_CMD ∧ Clean s ∧ s.isF fHEALTH_DARN_CFG_EN = false ∧ s.inDram (s.stateAddr n.val spare.toNat px.toNat) 1 = true) :=
  ⟨⟨0, wBase, {}, by decide +kernel⟩,
    ⟨0, wRst, by decide +kernel⟩,
    ⟨0, wRst, by decide +kernel⟩,
    ⟨0, wFresh, by decide +kernel⟩,
    ⟨wRst, by decide +kernel⟩,
    ⟨State.reset, by decide +kernel⟩,
    ⟨wRst, by decide +kernel⟩,
    ⟨wRst, by decide +kernel⟩,
    ⟨{ wRst with hk := { deltaDue := true } }, by decide +kernel⟩,
    ⟨{ wRst with hk := { deltaDue := true } }, 3, by decide +kernel⟩,
    ⟨0, true, wRst, by decide +kernel⟩,
    ⟨0, wCkpt, by decide +kernel⟩,
    ⟨0, wCkpt, by decide +kernel⟩,
    ⟨0, { wRst with hk := { deltaDue := true } }, by decide +kernel⟩,
    ⟨wRst, by decide +kernel⟩,
    ⟨wRst.setF fHEALTH_STATUS_ACC_VALID 1, by decide +kernel⟩,
    ⟨wAccs, by decide +kernel⟩,
    ⟨wUp wAccs, 0, by decide +kernel⟩,
    ⟨wPaused, by decide +kernel⟩,
    ⟨wRst, by decide +kernel⟩,
    ⟨0, false, 0, wDarnOff, by decide +kernel⟩⟩

/-- No row of the table has bits, so no word spells a command. -/
theorem test_decode_none : Sys2Proof.decodeTableWord 32 0 = none := by decide

end Sys2Proof.Machine
end

/-! ## Engine arithmetic (R85)

An instruction that can issue (R80 to R83) runs its body and passes on to the next one; the body of an arithmetic instruction writes one
register of its engine. These are said once, for every opcode; what is left for each row of the tables is that the function the model
computes is the one R85 states. -/

namespace Sys2Proof.Machine

/-! ### The registers of an engine (R77) -/

theorem Engine.s_setS (g : Engine) (d k : Nat) (v : Word) :
    (g.setS d v).s k = if k = d then (if d = 0 then 0 else v) else g.s k := by
  by_cases hd : d = 0
  · simp +contextual [Engine.setS, Engine.s, hd]
  · by_cases hk : k = d <;> simp [Engine.setS, Engine.s, hd, hk, tabGet_tabSet]

@[simp] theorem Engine.v_setS (g : Engine) (d k : Nat) (v : Word) : (g.setS d v).v k = g.v k := by
  unfold Engine.setS; split <;> rfl

@[simp] theorem Engine.p_setS (g : Engine) (d k : Nat) (v : Word) : (g.setS d v).p k = g.p k := by
  unfold Engine.setS; split <;> rfl

@[simp] theorem Engine.pc_setS (g : Engine) (d : Nat) (v : Word) : (g.setS d v).pc = g.pc := by
  unfold Engine.setS; split <;> rfl

theorem Engine.v_setV (g : Engine) (d k : Nat) (x : Lanes) : (g.setV d x).v k = if k = d then x else g.v k :=
  tabGet_tabSet ..

@[simp] theorem Engine.s_setV (g : Engine) (d k : Nat) (x : Lanes) : (g.setV d x).s k = g.s k := rfl
@[simp] theorem Engine.p_setV (g : Engine) (d k : Nat) (x : Lanes) : (g.setV d x).p k = g.p k := rfl
@[simp] theorem Engine.pc_setV (g : Engine) (d : Nat) (x : Lanes) : (g.setV d x).pc = g.pc := rfl

@[simp] theorem Engine.s_due (g : Engine) (key lat k : Nat) : (g.due key lat).s k = g.s k := rfl
@[simp] theorem Engine.v_due (g : Engine) (key lat k : Nat) : (g.due key lat).v k = g.v k := rfl
@[simp] theorem Engine.p_due (g : Engine) (key lat k : Nat) : (g.due key lat).p k = g.p k := rfl
@[simp] theorem Engine.pc_due (g : Engine) (key lat : Nat) : (g.due key lat).pc = g.pc := rfl

theorem lane_ofFn (x : Fin 32 → Half) {k : Nat} (hk : k < 32) : lane (Vector.ofFn x) k = x ⟨k, hk⟩ := by
  simp [lane, hk]

/-! ### Updates of one engine -/

@[simp] theorem State.eng_updEng_same (s : State) (n : Nat) (F : Engine → Engine) : (s.updEng n F).eng n = F (s.eng n) := by
  simp [State.updEng]

theorem EngineOnly.refl (n : Nat) (s : State) : EngineOnly n s s := ⟨rfl, fun _ _ => rfl, fun _ _ => rfl⟩

/-- An update of the engine itself stays within what the engine may change. -/
theorem EngineOnly.updEng {n : Nat} {s u : State} (h : EngineOnly n s u) (F : Engine → Engine) : EngineOnly n s (u.updEng n F) where
  rest := by
    rw [h.rest]
    rfl
  others k hk := by simpa [State.updEng, hk] using h.others k hk
  regs := h.regs

/-! ### Fetch and issue (R80 to R83) -/

/-- The state in which the body of an instruction runs: the engine's clock has reached the cycle of issue. -/
def State.issuedAt (s : State) (n cyc : Nat) : State := s.updEng n (fun g => { g with cycle := cyc })

theorem State.eng_issuedAt (s : State) (n cyc : Nat) : (s.issuedAt n cyc).eng n = { s.eng n with cycle := cyc } :=
  s.eng_updEng_same n _

@[simp] theorem State.issuedAt_s (s : State) (n cyc k : Nat) : ((s.issuedAt n cyc).eng n).s k = (s.eng n).s k := by
  rw [s.eng_issuedAt]; rfl

@[simp] theorem State.issuedAt_v (s : State) (n cyc k : Nat) : ((s.issuedAt n cyc).eng n).v k = (s.eng n).v k := by
  rw [s.eng_issuedAt]; rfl

@[simp] theorem State.issuedAt_p (s : State) (n cyc k : Nat) : ((s.issuedAt n cyc).eng n).p k = (s.eng n).p k := by
  rw [s.eng_issuedAt]; rfl

@[simp] theorem State.issuedAt_pc (s : State) (n cyc : Nat) : ((s.issuedAt n cyc).eng n).pc = (s.eng n).pc := by
  rw [s.eng_issuedAt]

@[simp] theorem State.issuedAt_guard (s : State) (n cyc : Nat) (f : KvF) (k : Nat) :
    ((s.issuedAt n cyc).eng n).guard f k = (s.eng n).guard f k := by
  simp [Engine.guard]

theorem EngineOnly.issuedAt (n : Nat) (s : State) (cyc : Nat) : EngineOnly n s (s.issuedAt n cyc) :=
  (EngineOnly.refl n s).updEng _

/-- The opcode stands in the top byte of the instruction (R80). -/
theorem kvWord_opcode (op : Nat) (f : KvF) : kvWord op f / 2 ^ 56 = op := by
  have hpn : f.pn.toNat ≤ 1 := Bool.toNat_le f.pn
  have hpg := f.pg.isLt
  have hd := f.d.isLt
  have ha := f.a.isLt
  have hb := f.b.isLt
  have hc := f.c.isLt
  have himm := f.imm.isLt
  unfold kvWord
  omega

/-- Where no word holds an error, a read meets none and changes nothing (R101). -/
theorem State.beCheck_of_no_synd {s : State} (h : s.ecc.synd = []) (a len : Nat) : s.beCheck a len = ((false, 0), s) := by
  simp [State.beCheck, State.ceIn, State.checkRange, State.dirtyWords, h]

/-- An instruction that can issue runs its body at some cycle. -/
theorem State.keav_of_canIssue {e : Fin 16} {op : Nat} {h : KvShape} {f : KvF} {s : State} (hl : kvListed op = true)
    (hi : CanIssue e op h f s) (extra : List Nat) (body : State → KOut) :
    ∃ cyc, s.keav e op f h extra body = State.finishK e (body (s.issuedAt e cyc)) := by
  obtain ⟨⟨⟨hsynd, -⟩, hrun, hpc, hword⟩, hok⟩ := hi
  refine ⟨(s.eng e).issueAt (h.srcs f ++ extra) + 0, ?_⟩
  simp only [State.keav, hrun, Bool.true_eq_false, if_false, Nat.not_le.2 hpc, State.beCheck_of_no_synd hsynd, Bool.false_eq_true,
    State.keavIssue, hword, kvWord_opcode, hl, hok, ne_eq, not_true_eq_false]
  rfl

/-- What holds at the end of an instruction's body, whatever the cycle of issue, holds after the command. -/
theorem does_of_keav {e : Fin 16} {op : Nat} {h : KvShape} {f : KvF} {s : State} {c : Instr} {extra : List Nat} {body : State → KOut}
    {P : State → Prop} (hl : kvListed op = true) (hi : CanIssue e op h f s) (hx : exec c s = .next (s.keav e op f h extra body))
    (hp : ∀ cyc, P (State.finishK e (body (s.issuedAt e cyc)))) : Does c s P := by
  obtain ⟨cyc, hk⟩ := State.keav_of_canIssue hl hi extra body
  exact ⟨_, hx, hk ▸ hp cyc⟩

/-! ### Results (R81, R85) -/

/-- Two engines stand at the same pc and hold the same in every general register. -/
structure SameRegs (g h : Engine) : Prop where
  pc : g.pc = h.pc
  s : ∀ k, g.s k = h.s k
  v : ∀ k, g.v k = h.v k
  p : ∀ k, g.p k = h.p k

/-- Going on to the next instruction moves the engine's clock and its pc. -/
theorem State.finishK_step (n : Nat) (u : State) (issue : Nat) :
    State.finishK n (.step u issue) = u.updEng n (fun g => { g with cycle := g.cycle + issue, pc := g.pc + 1 }) := rfl

theorem EngineOnly.finishK_step {n : Nat} {s u : State} (h : EngineOnly n s u) (issue : Nat) :
    EngineOnly n s (State.finishK n (.step u issue)) := by
  rw [State.finishK_step]
  exact h.updEng _

@[simp] theorem State.finishK_step_pc (n : Nat) (u : State) (issue : Nat) :
    ((State.finishK n (.step u issue)).eng n).pc = (u.eng n).pc + 1 := by
  rw [State.finishK_step, State.eng_updEng_same]

@[simp] theorem State.finishK_step_s (n : Nat) (u : State) (issue k : Nat) :
    ((State.finishK n (.step u issue)).eng n).s k = (u.eng n).s k := by
  rw [State.finishK_step, State.eng_updEng_same]; rfl

@[simp] theorem State.finishK_step_v (n : Nat) (u : State) (issue k : Nat) :
    ((State.finishK n (.step u issue)).eng n).v k = (u.eng n).v k := by
  rw [State.finishK_step, State.eng_updEng_same]; rfl

@[simp] theorem State.finishK_step_p (n : Nat) (u : State) (issue k : Nat) :
    ((State.finishK n (.step u issue)).eng n).p k = (u.eng n).p k := by
  rw [State.finishK_step, State.eng_updEng_same]; rfl

/-- A body that has set Sd makes a scalar result. -/
theorem scalarResult_of_setS {e : Nat} {d : BitVec 5} {v : Word} {s u : State} (ho : EngineOnly e s u)
    (hu : SameRegs (u.eng e) ((s.eng e).setS d.toNat v)) (issue : Nat) :
    ScalarResult e d v s (State.finishK e (.step u issue)) where
  only := ho.finishK_step issue
  pc := by simp [hu.pc]
  value := by
    have hd : d.toNat = 0 ↔ d = 0 := (BitVec.toNat_inj (y := 0#5)).trans Iff.rfl
    simp only [State.finishK_step_s, hu.s, Engine.s_setS, if_true, hd]
  frame := by
    refine ⟨fun k hk => ?_, fun k => ?_, fun k => ?_⟩
    · rw [State.finishK_step_s, hu.s, Engine.s_setS, if_neg hk]
    · rw [State.finishK_step_v, hu.v, Engine.v_setS]
    · rw [State.finishK_step_p, hu.p, Engine.p_setS]

/-- A body that has set the guarded lanes of Vd makes a vector result. -/
theorem vectorResult_of_setV {e : Nat} {f : KvF} {x y : Nat → Half} {s u : State} (ho : EngineOnly e s u)
    (hu : SameRegs (u.eng e) ((s.eng e).setV f.d.toNat (Vector.ofFn (fun k : Fin 32 =>
      if (s.eng e).guard f k then x k else lane ((s.eng e).v f.d.toNat) k)))) (hxy : ∀ k, k < 32 → x k = y k) (issue : Nat) :
    VectorResult e f y s (State.finishK e (.step u issue)) where
  only := ho.finishK_step issue
  pc := by simp [hu.pc]
  lanes k hk := by rw [State.finishK_step_v, hu.v, Engine.v_setV, if_pos rfl, lane_ofFn _ hk, hxy k hk]
  frame := by
    refine ⟨fun k => ?_, fun k hk => ?_, fun k => ?_⟩
    · rw [State.finishK_step_s, hu.s, Engine.s_setV]
    · rw [State.finishK_step_v, hu.v, Engine.v_setV, if_neg hk]
    · rw [State.finishK_step_p, hu.p, Engine.p_setV]

/-- A scalar result written at the cycle of issue: register Sd is set, the other registers are as before the instruction. -/
theorem sameRegs_putS (e : Nat) (d : BitVec 5) (v : Word) (lat cyc : Nat) (s : State) :
    SameRegs (((s.issuedAt e cyc).putS e d v lat).eng e) ((s.eng e).setS d.toNat v) := by
  simp only [State.putS, State.eng_updEng_same]
  constructor <;> simp [Engine.s_setS]

theorem sameRegs_putV (e : Nat) (f : KvF) (x : Nat → Half) (lat cyc : Nat) (s : State) :
    SameRegs (((s.issuedAt e cyc).putV e f x lat).eng e) ((s.eng e).setV f.d.toNat (Vector.ofFn (fun k : Fin 32 =>
      if (s.eng e).guard f k then x k else lane ((s.eng e).v f.d.toNat) k))) := by
  simp only [State.putV, State.eng_updEng_same]
  constructor <;> simp [Engine.v_setV]

theorem scalarResult_putS (e : Nat) (d : BitVec 5) (v : Word) (lat issue cyc : Nat) (s : State) :
    ScalarResult e d v s (State.finishK e (.step ((s.issuedAt e cyc).putS e d v lat) issue)) :=
  scalarResult_of_setS ((EngineOnly.issuedAt e s cyc).updEng _) (sameRegs_putS ..) issue

/-- The divider's own time is none of a general register. -/
theorem scalarResult_putS_due (e : Nat) (d : BitVec 5) (v : Word) (lat key lat' issue cyc : Nat) (s : State) :
    ScalarResult e d v s
      (State.finishK e (.step (((s.issuedAt e cyc).putS e d v lat).updEng e (fun g => g.due key lat')) issue)) := by
  have hput := sameRegs_putS e d v lat cyc s
  refine scalarResult_of_setS (((EngineOnly.issuedAt e s cyc).updEng _).updEng _) ?_ issue
  rw [State.eng_updEng_same]
  exact ⟨hput.pc, hput.s, hput.v, hput.p⟩

theorem vectorResult_putV (e : Nat) (f : KvF) {x y : Nat → Half} (lat issue cyc : Nat) (s : State) (hxy : ∀ k, k < 32 → x k = y k) :
    VectorResult e f y s (State.finishK e (.step ((s.issuedAt e cyc).putV e f x lat) issue)) :=
  vectorResult_of_setV ((EngineOnly.issuedAt e s cyc).updEng _) (sameRegs_putV ..) hxy issue

/-! ### The functions of R85 as the model computes them -/

theorem ite_slt {α : Type} (a b : Word) (x y : α) : (if a.slt b then x else y) = if a.toInt < b.toInt then x else y := by
  simp [BitVec.slt_iff_toInt_lt]

theorem ite_ult {α : Type} {w : Nat} (a b : BitVec w) (x y : α) : (if a.ult b then x else y) = if a.toNat < b.toNat then x else y := by
  simp [BitVec.ult_iff_toNat_lt]

/-- The quotient wraps only for the least dividend by -1, in the model as in R85. -/
theorem divK_eq_quotient (a b : Word) : divK a b = quotient a b := by
  have h : a.sdiv b = BitVec.ofInt 32 (a.toInt.tdiv b.toInt) :=
    BitVec.eq_of_toInt_eq (by rw [BitVec.toInt_sdiv, BitVec.toInt_ofInt])
  simp only [divK, quotient, h]

theorem vaddsK_eq (a b : Half) : vaddsK a b = if a.toNat + b.toNat < 65536 then a + b else 0xFFFF := by
  unfold vaddsK
  split
  · next h => rw [Nat.min_eq_left (by omega), BitVec.ofNat_add, BitVec.ofNat_toNat, BitVec.ofNat_toNat]; simp
  · next h => rw [Nat.min_eq_right (by omega)]; rfl

theorem vsubsK_eq (a b : Half) : vsubsK a b = if b.toNat ≤ a.toNat then a - b else 0 := by
  unfold vsubsK
  split <;> bv_omega

theorem vabsdK_eq (a b : Half) : vabsdK a b = if a.toNat < b.toNat then b - a else a - b := by
  unfold vabsdK
  split <;> bv_omega

/-! ### One instruction, and one row of each table -/

/-- An instruction that ends with a vector result, whose lanes do not depend on the cycle of issue. -/
theorem does_of_keav_putV {e : Fin 16} {op lat : Nat} {h : KvShape} {f : KvF} {s : State} {c : Instr} {extra : List Nat}
    {x : State → Nat → Half} {y : Nat → Half} (hl : kvListed op = true) (hi : CanIssue e op h f s)
    (hx : exec c s = .next (s.keav e op f h extra (fun u => .step (u.putV e f (x u) lat) 1)))
    (hxy : ∀ cyc k, x (s.issuedAt e cyc) k = y k) : Does c s (VectorResult e f y s) :=
  does_of_keav hl hi hx fun cyc => vectorResult_putV e f lat 1 cyc s fun k _ => hxy cyc k

/-- The row's command gives Sd the row's function of Sa and of the operand `b`. -/
def ScalarRow (h : KvShape) (b : KvF → Engine → Word) (p : Nat × (Fin 16 → KvF → Instr) × (Word → Word → Word)) : Prop :=
  ∀ (e : Fin 16) (f : KvF) (s : State), CanIssue e p.1 h f s →
    Does (p.2.1 e f) s (ScalarResult e f.d (p.2.2 ((s.eng e).s f.a.toNat) (b f (s.eng e))) s)

/-- A row of the scalar instructions whose second operand is Sb. -/
abbrev ScalarRegRow := ScalarRow { d := .s, a := .s, b := .s } (fun f g => g.s f.b.toNat)

/-- A row of the scalar instructions whose second operand is IMM. -/
abbrev ScalarImmRow := ScalarRow { d := .s, a := .s, imm := .any } (fun f _ => f.imm)

/-- The row's command gives Vd the row's function of Va and Vb, lane by lane. -/
def VectorRow (p : Nat × (Fin 16 → KvF → Instr) × (Half → Half → Half)) : Prop :=
  ∀ (e : Fin 16) (f : KvF) (s : State), CanIssue e p.1 { guarded := true, d := .v, a := .v, b := .v } f s →
    Does (p.2.1 e f) s (VectorResult e f (fun k => p.2.2 (lane ((s.eng e).v f.a.toNat) k) (lane ((s.eng e).v f.b.toNat) k)) s)

/-- The row's command gives Vd the row's function of Va and IMM[3:0], lane by lane. -/
def VectorShiftRow (p : Nat × (Fin 16 → KvF → Instr) × (Half → Nat → Half)) : Prop :=
  ∀ (e : Fin 16) (f : KvF) (s : State), CanIssue e p.1 { guarded := true, d := .v, a := .v, imm := .any } f s →
    Does (p.2.1 e f) s (VectorResult e f (fun k => p.2.2 (lane ((s.eng e).v f.a.toNat) k) (f.imm.toNat % 16)) s)

section
variable {op lat : Nat} {c : Fin 16 → KvF → Instr} {fn r : Word → Word → Word} {fv rv : Half → Half → Half} {rn : Half → Nat → Half}

theorem scalarRow_of_kAlu (hl : kvListed op = true) (hx : ∀ e f s, exec (c e f) s = .next (s.kAlu e op f lat fn))
    (hr : ∀ a b, fn a b = r a b := by intros; rfl) : ScalarRegRow (op, c, r) :=
  fun e f s hi => does_of_keav hl hi (hx e f s) fun cyc => by
    simpa only [State.issuedAt_s, hr] using scalarResult_putS e f.d (r ((s.eng e).s f.a.toNat) ((s.eng e).s f.b.toNat)) lat 1 cyc s

theorem scalarRow_of_kAluI (hl : kvListed op = true) (hx : ∀ e f s, exec (c e f) s = .next (s.kAluI e op f lat fn))
    (hr : ∀ a b, fn a b = r a b := by intros; rfl) : ScalarImmRow (op, c, r) :=
  fun e f s hi => does_of_keav hl hi (hx e f s) fun cyc => by
    simpa only [State.issuedAt_s, hr] using scalarResult_putS e f.d (r ((s.eng e).s f.a.toNat) f.imm) lat 1 cyc s

/-- The divider, with either second operand. -/
theorem scalarRow_of_kDiv {h : KvShape} {b : KvF → Engine → Word} (hl : kvListed op = true)
    (hb : ∀ f s (e : Fin 16) cyc, b f ((State.issuedAt s e cyc).eng e) = b f (s.eng e))
    (hx : ∀ e f s, exec (c e f) s = .next (s.kDiv e op f h (b f) fn)) (hr : ∀ a b, fn a b = r a b) : ScalarRow h b (op, c, r) :=
  fun e f s hi => does_of_keav hl hi (hx e f s) fun cyc => by
    simpa only [State.issuedAt_s, hb, hr] using
      scalarResult_putS_due e f.d (r ((s.eng e).s f.a.toNat) (b f (s.eng e))) 20 keyDiv 20 1 cyc s

theorem vectorRow_of_kVec (hl : kvListed op = true) (hx : ∀ e f s, exec (c e f) s = .next (s.kVec e op f lat fv))
    (hr : ∀ a b, fv a b = rv a b := by intros; rfl) : VectorRow (op, c, rv) :=
  fun e f s hi => does_of_keav_putV hl hi (hx e f s) fun cyc k => by simp only [State.issuedAt_v, hr]

theorem vectorShiftRow_of_kVecI (hl : kvListed op = true) (hx : ∀ e f s, exec (c e f) s = .next (s.kVecI e op f rn)) :
    VectorShiftRow (op, c, rn) :=
  fun e f s hi => does_of_keav_putV hl hi (hx e f s) fun cyc k => by simp only [State.issuedAt_v]

end

/-! ### The tables

Each row in the order of its table; a row names the equation between its function and the model's where the two are written differently. -/

theorem scalarRegRow_of_mem_scalarOps : ∀ p ∈ scalarOps, ScalarRegRow p := by
  simp only [scalarOps, List.forall_mem_cons]
  exact ⟨
    scalarRow_of_kAlu rfl (fun _ _ _ => rfl),
    scalarRow_of_kAlu rfl (fun _ _ _ => rfl),
    scalarRow_of_kAlu rfl (fun _ _ _ => rfl),
    scalarRow_of_kAlu rfl (fun _ _ _ => rfl),
    scalarRow_of_kAlu rfl (fun _ _ _ => rfl),
    scalarRow_of_kAlu rfl (fun _ _ _ => rfl),
    scalarRow_of_kAlu rfl (fun _ _ _ => rfl),
    scalarRow_of_kAlu rfl (fun _ _ _ => rfl),
    scalarRow_of_kAlu rfl (fun _ _ _ => rfl),
    scalarRow_of_kAlu rfl (fun _ _ _ => rfl),
    scalarRow_of_kAlu rfl (fun _ _ _ => rfl) (fun a b => ite_slt a b 1 0),
    scalarRow_of_kAlu rfl (fun _ _ _ => rfl) (fun a b => ite_ult a b 1 0),
    scalarRow_of_kAlu rfl (fun _ _ _ => rfl) (fun a b => ite_slt a b a b),
    scalarRow_of_kAlu rfl (fun _ _ _ => rfl) (fun a b => ite_slt a b b a),
    scalarRow_of_kDiv rfl (fun _ _ _ _ => State.issuedAt_s ..) (fun _ _ _ => rfl) divK_eq_quotient,
    List.forall_mem_nil _⟩

theorem scalarImmRow_of_mem_scalarImmOps : ∀ p ∈ scalarImmOps, ScalarImmRow p := by
  simp only [scalarImmOps, List.forall_mem_cons]
  exact ⟨
    scalarRow_of_kAluI rfl (fun _ _ _ => rfl),
    scalarRow_of_kAluI rfl (fun _ _ _ => rfl),
    scalarRow_of_kAluI rfl (fun _ _ _ => rfl),
    scalarRow_of_kAluI rfl (fun _ _ _ => rfl),
    scalarRow_of_kAluI rfl (fun _ _ _ => rfl),
    scalarRow_of_kAluI rfl (fun _ _ _ => rfl),
    scalarRow_of_kAluI rfl (fun _ _ _ => rfl),
    scalarRow_of_kAluI rfl (fun _ _ _ => rfl),
    scalarRow_of_kAluI rfl (fun _ _ _ => rfl),
    scalarRow_of_kAluI rfl (fun _ _ _ => rfl),
    scalarRow_of_kAluI rfl (fun _ _ _ => rfl) (fun a b => ite_slt a b 1 0),
    scalarRow_of_kAluI rfl (fun _ _ _ => rfl) (fun a b => ite_ult a b 1 0),
    scalarRow_of_kAluI rfl (fun _ _ _ => rfl) (fun a b => ite_slt a b a b),
    scalarRow_of_kAluI rfl (fun _ _ _ => rfl) (fun a b => ite_slt a b b a),
    scalarRow_of_kDiv rfl (fun _ _ _ _ => rfl) (fun _ _ _ => rfl) divK_eq_quotient,
    List.forall_mem_nil _⟩

theorem vectorRow_of_mem_vectorOps : ∀ p ∈ vectorOps, VectorRow p := by
  simp only [vectorOps, List.forall_mem_cons]
  exact ⟨
    vectorRow_of_kVec rfl (fun _ _ _ => rfl),
    vectorRow_of_kVec rfl (fun _ _ _ => rfl),
    vectorRow_of_kVec rfl (fun _ _ _ => rfl),
    vectorRow_of_kVec rfl (fun _ _ _ => rfl) vaddsK_eq,
    vectorRow_of_kVec rfl (fun _ _ _ => rfl) vsubsK_eq,
    vectorRow_of_kVec rfl (fun _ _ _ => rfl),
    vectorRow_of_kVec rfl (fun _ _ _ => rfl) (fun a b => ite_ult a b a b),
    vectorRow_of_kVec rfl (fun _ _ _ => rfl) (fun a b => ite_ult a b b a),
    vectorRow_of_kVec rfl (fun _ _ _ => rfl),
    vectorRow_of_kVec rfl (fun _ _ _ => rfl),
    vectorRow_of_kVec rfl (fun _ _ _ => rfl),
    vectorRow_of_kVec rfl (fun _ _ _ => rfl) vabsdK_eq,
    List.forall_mem_nil _⟩

theorem vectorShiftRow_of_mem_vectorShifts : ∀ p ∈ vectorShifts, VectorShiftRow p := by
  simp only [vectorShifts, List.forall_mem_cons]
  exact ⟨vectorShiftRow_of_kVecI rfl (fun _ _ _ => rfl), vectorShiftRow_of_kVecI rfl (fun _ _ _ => rfl),
    vectorShiftRow_of_kVecI rfl (fun _ _ _ => rfl), List.forall_mem_nil _⟩

/-! ### The vector instructions outside the tables -/

/-- VMAC's sum saturates after VMULH has rounded (R85). -/
theorem vaddsK_vmulhK (d a b : Half) :
    vaddsK d (vmulhK a b) = BitVec.ofNat 16 (min (d.toNat + (a.toNat * b.toNat + 32768) / 65536) 65535) := by
  have hab : a.toNat * b.toNat ≤ 65535 * 65535 := Nat.mul_le_mul (by omega) (by omega)
  have hm : (vmulhK a b).toNat = (a.toNat * b.toNat + 32768) / 65536 := by
    rw [vmulhK, BitVec.toNat_ofNat, Nat.mod_eq_of_lt (by omega)]
  rw [vaddsK, hm]

/-- Settles O13: every row of R85's tables, and the vector instructions with operands of their own. -/
theorem engineArithmetic : Obligations.EngineArithmetic := by
  unfold Obligations.EngineArithmetic
  refine ⟨scalarRegRow_of_mem_scalarOps, scalarImmRow_of_mem_scalarImmOps, vectorRow_of_mem_vectorOps,
    vectorShiftRow_of_mem_vectorShifts, ?vmac, ?vsel, ?vsplat, ?vlane, ?vmov, ?vins⟩
  case vmac =>
    exact fun e f s hi => does_of_keav_putV rfl hi rfl fun cyc k => by simp only [State.issuedAt_v, vaddsK_vmulhK]
  case vsel =>
    exact fun e f s hi => does_of_keav_putV rfl hi rfl fun cyc k => by simp only [State.issuedAt_v, State.issuedAt_p]
  case vsplat =>
    exact fun e f s hi => does_of_keav_putV rfl hi rfl fun cyc k => by simp only [State.issuedAt_s]; rfl
  case vlane =>
    exact fun e f s hi => does_of_keav_putV rfl hi rfl fun cyc k => rfl
  case vmov =>
    exact fun e f s hi => does_of_keav_putV rfl hi rfl fun cyc k => by simp only [State.issuedAt_v]
  case vins =>
    exact fun e f s hi => does_of_keav_putV rfl hi rfl fun cyc k => by simp only [State.issuedAt_v, State.issuedAt_s]; rfl

end Sys2Proof.Machine

/-! ## Writes of CTRL.ACTIVE (R303, R305)

A write of CTRL takes the AUTO bit and then, where it names the other domain, switches to it. The switch moves the step of the domain times
into the residual, so that lamp time is as before; the event that follows finds room in the unit's outbox. -/

namespace Sys2Proof.Machine

/-! ### Register writes (R29) -/

@[simp] theorem lockMerge_zero (old v : Word) : lockMerge 0#32 old v = v := by
  rw [lockMerge, BitVec.and_zero, BitVec.or_zero]
  exact BitVec.and_allOnes

/-- A write that takes effect, to a register none of whose bits the lock holds, does its act on the value written. -/
theorem State.viaRegV_of_takes {s : State} {off : Nat} {r : RegRow} (ht : Takes s off) (hunit : s.absentUnit off = false)
    (hrow : regRow off = some r) (hlock : r.lock = 0) (v : Word) (act : Word → State → State) : s.viaRegV off v act = act v s := by
  obtain ⟨hporst, hmap⟩ := ht
  simp [State.viaRegV, State.lockWrite, hporst, hunit, hrow, hmap, hlock]

/-! ### An event for an outbox with room (R341) -/

@[simp] theorem State.wakeNote_hamper (s : State) (k : Nat) : (s.wakeNote k).hamper = s.hamper := by
  unfold State.wakeNote; split <;> rfl

@[simp] theorem State.boxPut_outbox (s : State) (e : Ev) : (s.boxPut e).hamper.outbox = s.hamper.outbox ++ [(evUnit e, e)] := by
  unfold State.boxPut
  dsimp only
  split <;> rfl

theorem State.offer_outbox {s : State} {e : Ev} (hroom : s.outboxOf (evUnit e) < 4) :
    (s.offer e).hamper.outbox = s.hamper.outbox ++ [(evUnit e, e)] := by
  have hnote : (if e.kind.prio ≤ 1 then s.wakeNote 9 else s).hamper = s.hamper := by split <;> simp
  have hroom' : (if e.kind.prio ≤ 1 then s.wakeNote 9 else s).outboxOf (evUnit e) < 4 := by rwa [State.outboxOf, hnote]
  simp only [State.offer, if_pos hroom', State.boxPut_outbox, hnote]

/-- Once the firmware has started, an event whose unit has room in its outbox enters it; only the programs' events (class 0x0C) go to
another unit than their source. -/
theorem State.post_outbox {s : State} {k : EvKind} {src : Nat} (hfw : s.boot.fwStarted = true) (hcls : k.cls ≠ 0x0C)
    (hroom : s.outboxOf src < 4) (data : Nat) :
    ∃ lt, (s.post k src data).hamper.outbox = s.hamper.outbox ++ [(src, ⟨k, src, BitVec.ofNat 32 data, lt⟩)] := by
  have hunit : ∀ lt, evUnit ⟨k, src, BitVec.ofNat 32 data, lt⟩ = src := fun lt => if_neg hcls
  refine ⟨if s.time.frcRun then s.lampNs else 0, ?_⟩
  rw [State.post, if_pos hfw, State.offer_outbox (by rwa [hunit]), hunit]

/-! ### Lamp time (R303) -/

/-- Lamp time is read from the TIME unit's state and from CTRL alone. -/
theorem State.lampFine_congr {s t : State} (htime : t.time = s.time) (hactive : t.active = s.active) : t.lampFine = s.lampFine := by
  have hlt : ∀ d, t.ltDom d = s.ltDom d := fun d => by simp only [State.ltDom, State.dom, htime]
  unfold State.active at hactive
  simp only [State.lampFine, hactive, hlt, htime]

theorem unsignOf_modEq (w : Nat) (i : Int) : (unsignOf w i : Int) ≡ i [ZMOD 2 ^ w] := by
  have hw : (0 : Int) < 2 ^ w := by positivity
  rw [unsignOf, Nat.cast_pow, Nat.cast_ofNat, Int.toNat_of_nonneg (Int.emod_nonneg _ hw.ne')]
  exact Int.mod_modEq i _

theorem signOf_modEq (w v : Nat) : signOf w v ≡ v [ZMOD 2 ^ w] := by
  have hv : ((v % 2 ^ w : Nat) : Int) ≡ v [ZMOD 2 ^ w] := by
    rw [Int.natCast_mod, Nat.cast_pow, Nat.cast_ofNat]
    exact Int.mod_modEq v _
  unfold signOf
  split
  · exact hv
  · rw [Nat.cast_pow, Nat.cast_ofNat]
    exact Int.sub_modulus_modEq_iff.2 hv

/-- The step that the residual takes up is the difference of the domain times, modulo the width of lamp time. -/
theorem ltDiff_modEq (a b : Nat) : ltDiff a b ≡ a - b [ZMOD 2 ^ 96] :=
  (signOf_modEq 96 _).trans (unsignOf_modEq 96 _)

/-- The residual less the step, added to the new domain time, is what it was with the old one. -/
theorem add_resid_sub_ltDiff (a b : Nat) (r : Int) :
    ((a : Int) + (r - ltDiff a b * residDiv) / residDiv) % 2 ^ 96 = ((b : Int) + r / residDiv) % 2 ^ 96 := by
  have hdiv : (r - ltDiff a b * residDiv) / residDiv = r / residDiv - ltDiff a b := Int.sub_mul_ediv_right _ _ (by decide)
  have hstep : (a : Int) + (r / residDiv - ltDiff a b) ≡ a + (r / residDiv - (a - b)) [ZMOD 2 ^ 96] :=
    ((ltDiff_modEq a b).sub_left _).add_left _
  rw [hdiv, show (b : Int) + r / residDiv = a + (r / residDiv - (a - b)) by ring]
  exact hstep

/-! ### The switch to a domain -/

/-- Taking a residual writes the SLEWING bit of STATUS and no other field. -/
theorem State.getF_setResid (s : State) (r : Int) {f : Fld}
    (h : f.off ≠ rTIME_STATUS ∨ f.lo + f.w ≤ fTIME_STATUS_SLEWING.lo ∨ fTIME_STATUS_SLEWING.lo + fTIME_STATUS_SLEWING.w ≤ f.lo) :
    (s.setResid r).getF f = s.getF f := by
  rw [State.setResid, State.setB, State.getF_setF_other _ _ _ _ (by decide) h, State.updTime_getF]

/-- The residual that a switch to domain `d` leaves. -/
def State.switchResid (s : State) (d : Nat) : Int := s.time.resid - ltDiff (s.ltDom d) (s.ltDom s.active) * residDiv

/-- A switch sets ACTIVE and the residual; the rest is what posting its event takes. -/
theorem State.switchTo_quiet (s : State) (d : Nat) (auto : Bool) :
    Quiet [] ((s.setF fTIME_CTRL_ACTIVE d).setResid (s.switchResid d)) (s.switchTo d auto) :=
  (Quiet.refl [] _).post (by decide)

/-- Of lamp time's own state a switch changes the residual alone. -/
theorem State.switchTo_time (s : State) (d : Nat) (auto : Bool) :
    (s.switchTo d auto).time = { s.time with resid := s.switchResid d } := by
  rw [(s.switchTo_quiet d auto).rest]
  rfl

theorem State.switchTo_mem (s : State) (d : Nat) (auto : Bool) : (s.switchTo d auto).mem = s.mem :=
  (s.switchTo_quiet d auto).mem_eq

theorem State.switchTo_dom (s : State) (d : Nat) (auto : Bool) (k : Nat) : (s.switchTo d auto).dom k = s.dom k := by
  simp only [State.dom, s.switchTo_time]

theorem State.switchTo_ltDom (s : State) (d : Nat) (auto : Bool) (k : Nat) : (s.switchTo d auto).ltDom k = s.ltDom k := by
  simp only [State.ltDom, s.switchTo_dom, s.switchTo_time]

theorem State.switchTo_active (s : State) (d : Nat) (auto : Bool) : (s.switchTo d auto).active = d % 2 := by
  rw [State.active, (s.switchTo_quiet d auto).getF _ (by decide) (by decide), State.getF_setResid _ _ (by decide),
    State.getF_setF _ _ _ (by decide), Nat.pow_one]

theorem State.switchTo_holdover (s : State) (d : Nat) (auto : Bool) :
    (s.switchTo d auto).isF fTIME_STATUS_HOLDOVER = s.isF fTIME_STATUS_HOLDOVER := by
  rw [State.isF, (s.switchTo_quiet d auto).getF _ (by decide) (by decide), State.getF_setResid _ _ (by decide),
    State.getF_setF_other _ _ _ _ (by decide) (by decide), State.isF]

/-- A switch leaves lamp time as it is: the residual takes up the step (R303). -/
theorem State.switchTo_lampFine (s : State) {d : Nat} (hd : d < 2) (auto : Bool) : (s.switchTo d auto).lampFine = s.lampFine := by
  have hactive : (s.switchTo d auto).getF fTIME_CTRL_ACTIVE = d := (s.switchTo_active d auto).trans (Nat.mod_eq_of_lt hd)
  rw [State.lampFine, hactive, s.switchTo_ltDom, s.switchTo_time, Nat.cast_pow, Nat.cast_ofNat]
  exact congrArg Int.toNat (add_resid_sub_ltDiff (s.ltDom d) (s.ltDom s.active) s.time.resid)

theorem State.switchTo_outbox {s : State} (hfw : s.boot.fwStarted = true) (hroom : s.outboxOf srcTIME < 4) (d : Nat) (auto : Bool) :
    ∃ lt, (s.switchTo d auto).hamper.outbox
      = s.hamper.outbox ++ [(srcTIME, ⟨evTIME_DOMAIN_SWITCH, srcTIME, BitVec.ofNat 32 (2 * auto.toNat + d), lt⟩)] :=
  State.post_outbox (s := (s.setF fTIME_CTRL_ACTIVE d).setResid (s.switchResid d)) hfw (by decide) hroom _

/-! ### A write of CTRL -/

/-- Without holdover, and where the active domain has not just ceased to be fresh, freshness changes nothing (R304). -/
theorem State.freshCheck_of_no_holdover {s : State} (h : s.isF fTIME_STATUS_HOLDOVER = false) : s.freshCheck false = s := by
  simp [State.freshCheck, State.setHoldover, h]

/-- The AUTO bit that a write of CTRL carries is taken. -/
def State.takeAuto (s : State) (v : Word) : State := s.setF fTIME_CTRL_AUTO (bitsOf v.toNat 8 1)

@[simp] theorem State.takeAuto_time (s : State) (v : Word) : (s.takeAuto v).time = s.time := rfl

@[simp] theorem State.takeAuto_active (s : State) (v : Word) : (s.takeAuto v).active = s.active :=
  s.getF_setF_other _ _ _ (by decide) (by decide)

@[simp] theorem State.takeAuto_holdover (s : State) (v : Word) :
    (s.takeAuto v).isF fTIME_STATUS_HOLDOVER = s.isF fTIME_STATUS_HOLDOVER := by
  rw [State.isF, State.takeAuto, State.getF_setF_other _ _ _ _ (by decide) (by decide), State.isF]

theorem State.takeAuto_reg (s : State) (v : Word) {off : Nat} (h : off ≠ rTIME_CTRL) : (s.takeAuto v).reg off = s.reg off := by
  rw [State.takeAuto, State.reg_setF, if_neg h]

theorem State.ctrlWrite_of_no_holdover {s : State} (h : s.isF fTIME_STATUS_HOLDOVER = false) (v : Word) :
    s.ctrlWrite v = if v.toNat % 2 = s.active then s.takeAuto v else (s.takeAuto v).switchTo (v.toNat % 2) false := by
  have hfresh : s.ctrlWrite v
      = (if v.toNat % 2 = (s.takeAuto v).active then s.takeAuto v else (s.takeAuto v).switchTo (v.toNat % 2) false).freshCheck false := rfl
  rw [hfresh, State.takeAuto_active, State.freshCheck_of_no_holdover]
  split
  · rw [State.takeAuto_holdover, h]
  · rw [State.switchTo_holdover, State.takeAuto_holdover, h]

/-- CTRL stands in the register map and holds no bit that the lock keeps. -/
theorem regRow_ctrl_lock : (regRow rTIME_CTRL).map RegRow.lock = some 0 := by decide +kernel

theorem exec_domainSwitch {s : State} (ht : Takes s rTIME_CTRL) (v : Word) : exec (.domainSwitch v) s = .next (s.ctrlWrite v) := by
  obtain ⟨r, hrow, hlock⟩ := Option.map_eq_some_iff.1 regRow_ctrl_lock
  have hunit : s.absentUnit rTIME_CTRL = false := by simp [State.absentUnit]
  exact congrArg Host.Outcome.next (State.viaRegV_of_takes ht hunit hrow hlock v _)

/-- Settles O29: a write that names the other domain takes AUTO and switches; one that names the active domain takes AUTO alone. -/
theorem activeDomainWrite : Obligations.ActiveDomainWrite := by
  unfold Obligations.ActiveDomainWrite
  intro v s ht hhold
  have hexec := exec_domainSwitch ht v
  rw [State.ctrlWrite_of_no_holdover hhold v] at hexec
  constructor
  · intro hother hfw hroom
    rw [if_neg hother] at hexec
    have hd : v.toNat % 2 < 2 := Nat.mod_lt _ Nat.two_pos
    refine ⟨_, hexec, ?active, ?lampFine, ?dom0, ?dom1, ?mem, ?event⟩
    case active => rw [State.switchTo_active, Nat.mod_mod]
    case lampFine =>
      exact ((s.takeAuto v).switchTo_lampFine hd false).trans (State.lampFine_congr (s.takeAuto_time v) (s.takeAuto_active v))
    case dom0 => exact (s.takeAuto v).switchTo_dom _ false 0
    case dom1 => exact (s.takeAuto v).switchTo_dom _ false 1
    case mem => exact (s.takeAuto v).switchTo_mem _ false
    case event =>
      obtain ⟨lt, hbox⟩ := State.switchTo_outbox (s := s.takeAuto v) hfw hroom (v.toNat % 2) false
      rw [Bool.toNat_false, Nat.mul_zero, Nat.zero_add] at hbox
      exact ⟨lt, hbox⟩
  · intro hsame
    rw [if_pos hsame] at hexec
    exact ⟨_, hexec, s.takeAuto_active v, rfl, fun off hoff => s.takeAuto_reg v hoff⟩

end Sys2Proof.Machine

/-! ## A check-value unit that is BUSY (R394 to R396)

A write that meets a job reaches the unit by two ways: the register path, where the write goes to one of the registers that R396 closes or
is START, and the commands that stand for START. Both end in `State.crcBusyErr`, whose effect is said once. ABORT ends the job on the spot
where the job stands on a 64-byte line, has not begun, or is a WRITE (R395, log 182). -/

namespace Sys2Proof.Machine

/-! ### A flag raised with its counter (R31, R32) -/

/-- The counter goes up by one and stays at 0xFFFF. -/
theorem State.regN_raise_counter (s : State) {f : Fld} {c : Nat} (hw : f.lo + f.w ≤ 32) (hc : c ≠ f.off) :
    (s.raise f c).regN c = min (s.regN c + 1) 0xFFFF := by
  rw [State.raise, State.bump, State.bumpBy, State.regN_setRegN, if_pos rfl, State.regN_setF _ _ _ _ hw, if_neg hc, satAt]
  omega

/-- In the flag's register a raise does no more than set the flag. -/
theorem State.isF_raise (s : State) {f g : Fld} {c : Nat} (hg : g.off ≠ c) : (s.raise f c).isF g = (s.setF f 1).isF g :=
  State.isF_congr (by rw [State.raise, State.bump, State.bumpBy, State.reg_setRegN, if_neg hg])

/-- A bit of a register after one bit of it was written. -/
theorem State.isF_setF_bit (s : State) {off lo lo' : Nat} (n : Nat) (hlo : lo < 32) :
    (s.setF ⟨off, lo, 1⟩ n).isF ⟨off, lo', 1⟩ = if lo' = lo then n % 2 == 1 else s.isF ⟨off, lo', 1⟩ := by
  have hw : (⟨off, lo, 1⟩ : Fld).lo + (⟨off, lo, 1⟩ : Fld).w ≤ 32 := hlo
  unfold State.isF
  split
  · next h => rw [h, State.getF_setF _ _ _ hw, Nat.pow_one]
  · next h => rw [State.getF_setF_other _ _ ⟨off, lo', 1⟩ _ hw (.inr (Nat.lt_or_gt_of_ne h))]

/-! ### What a busy unit ignores -/

/-- From `s` to `t` unit `n` has ignored a write: ERR_BUSY is set and counted, and its job goes on (R396). -/
def CrcIgnored (n : Nat) (s t : State) : Prop :=
  t.isF (fCRC_STATUS_ERR_BUSY n) = true ∧ t.isF (fCRC_STATUS_BUSY n) = true
    ∧ t.regN (rCRC_ERR_BUSY_COUNT n) = min (s.regN (rCRC_ERR_BUSY_COUNT n) + 1) 0xFFFF ∧ t.crc = s.crc
    ∧ Quiet [rCRC_STATUS n, rCRC_ERR_BUSY_COUNT n] s t

theorem crcIgnored_crcBusyErr {n : Nat} {s : State} (hbusy : s.isF (fCRC_STATUS_BUSY n) = true) : CrcIgnored n s (s.crcBusyErr n) := by
  have hcount : rCRC_STATUS n ≠ rCRC_ERR_BUSY_COUNT n := by simp
  refine ⟨?errBusy, ?busy, ?count, rfl, ?frame⟩
  case errBusy => rw [State.crcBusyErr, State.isF_raise _ hcount, State.isF_setF_bit _ _ (by decide)]; rfl
  case busy => rwa [State.crcBusyErr, State.isF_raise _ hcount, State.isF_setF_bit _ _ (by decide), if_neg (by decide)]
  case count => exact s.regN_raise_counter (Nat.le_of_ble_eq_true rfl) hcount.symm
  case frame => exact (Quiet.refl _ s).raise (.inl (by simp)) (.inl (by simp))

theorem State.crcStart_of_busy {n : Nat} {s : State} (hbusy : s.isF (fCRC_STATUS_BUSY n) = true) : s.crcStart n = s.crcBusyErr n :=
  if_pos hbusy

/-! ### The end of a job (R395) -/

theorem rCRC_STATUS_not_mem_evRegs (n : Nat) : rCRC_STATUS n ∉ evRegs := by
  have hregs : ∀ off ∈ evRegs, off % 0x100 ≠ 8 := by decide
  exact fun h => hregs _ h (Nat.add_mul_mod_self_left 0x2C0008 0x100 n)

/-- The state of a unit whose job is over, before its event is posted. -/
def State.crcOver (s : State) (n : Nat) : State := ((s.setCrcJob n none).setF (fCRC_STATUS_BUSY n) 0).setF (fCRC_STATUS_DONE n) 1

theorem State.crcEnd_quiet (s : State) (n : Nat) : Quiet [] (s.crcOver n) (s.crcEnd n) :=
  .ite (fun _ => (Quiet.refl [] _).post (by decide)) (fun _ => Quiet.refl [] _)

/-- The event of a job's end leaves STATUS as it is. -/
theorem State.isF_crcEnd (s : State) {n : Nat} {f : Fld} (hf : f.off = rCRC_STATUS n) : (s.crcEnd n).isF f = (s.crcOver n).isF f :=
  State.isF_congr ((s.crcEnd_quiet n).regs _ List.not_mem_nil (hf ▸ rCRC_STATUS_not_mem_evRegs n))

theorem State.crcJob_crcEnd (s : State) (n : Nat) : (s.crcEnd n).crcJob n = none := by
  have hcrc : (s.crcEnd n).crc = (s.setCrcJob n none).crc := by rw [(s.crcEnd_quiet n).rest]; rfl
  rw [State.crcJob, hcrc]
  exact (tabGet_tabSet (fun _ => none) s.crc n n none).trans (if_pos rfl)

theorem State.crcEnd_busy (s : State) (n : Nat) : (s.crcEnd n).isF (fCRC_STATUS_BUSY n) = false := by
  rw [s.isF_crcEnd rfl, State.crcOver, State.isF_setF_bit _ _ (by decide), if_neg (by decide), State.isF_setF_bit _ _ (by decide)]
  rfl

theorem State.crcEnd_done (s : State) (n : Nat) : (s.crcEnd n).isF (fCRC_STATUS_DONE n) = true := by
  rw [s.isF_crcEnd rfl, State.crcOver, State.isF_setF_bit _ _ (by decide)]
  rfl

/-- The end of a job moves BUSY and DONE, and no other flag of STATUS. -/
theorem State.crcEnd_flag (s : State) {n lo : Nat} (hlow : lo < 14) :
    (s.crcEnd n).isF ⟨rCRC_STATUS n, lo, 1⟩ = s.isF ⟨rCRC_STATUS n, lo, 1⟩ := by
  rw [s.isF_crcEnd rfl, State.crcOver, State.isF_setF_bit _ _ (by decide), if_neg (by omega), State.isF_setF_bit _ _ (by decide),
    if_neg (by omega)]
  rfl

theorem State.crcEnd_mem (s : State) (n : Nat) : (s.crcEnd n).mem = s.mem := (s.crcEnd_quiet n).mem_eq

/-- The state in which a job that stops early for the cause `f` comes to its end: RESULT of a SCAN is open. -/
def State.crcCause (s : State) (n : Nat) (f : Fld) (j : CrcJob) : State :=
  let u := s.fresh.2.setF f 1
  if j.mode = 0 then u.setReg (rCRC_RESULT n) s.fresh.1 else u

theorem State.crcStop_eq (s : State) (n : Nat) (f : Fld) (j : CrcJob) : s.crcStop n f j = (s.crcCause n f j).crcEnd n := rfl

theorem State.crcCause_mem (s : State) (n : Nat) (f : Fld) (j : CrcJob) : (s.crcCause n f j).mem = s.mem := by
  unfold State.crcCause
  split <;> rfl

theorem State.crcCause_aborted (s : State) (n : Nat) (j : CrcJob) :
    (s.crcCause n (fCRC_STATUS_ABORTED n) j).isF (fCRC_STATUS_ABORTED n) = true := by
  have hset : (s.fresh.2.setF (fCRC_STATUS_ABORTED n) 1).isF (fCRC_STATUS_ABORTED n) = true := by
    rw [State.isF_setF_bit _ _ (by decide)]
    rfl
  unfold State.crcCause
  split
  · rw [← hset]
    exact State.isF_congr (by rw [State.reg_setReg, if_neg (by simp)])
  · exact hset

/-- A job that is a WRITE, has not begun or stands on a 64-byte line ends at once (R395, log 182). -/
theorem State.crcAbortOp_of_line {s : State} {n : Nat} {j : CrcJob} (hj : s.crcJob n = some j)
    (hline : j.mode = 2 ∨ j.done = 0 ∨ (j.addr + j.done) % 64 = 0) : s.crcAbortOp n = s.crcStop n (fCRC_STATUS_ABORTED n) j := by
  simp only [State.crcAbortOp, State.crcToLine, hj, if_pos hline]

/-- From `s` to `t` the job of unit `n` was aborted. -/
def CrcAborted (n : Nat) (s t : State) : Prop :=
  t.crcJob n = none ∧ t.isF (fCRC_STATUS_BUSY n) = false ∧ t.isF (fCRC_STATUS_ABORTED n) = true
    ∧ t.isF (fCRC_STATUS_DONE n) = true ∧ t.mem = s.mem

theorem crcAborted_crcAbortOp {s : State} {n : Nat} {j : CrcJob} (hj : s.crcJob n = some j)
    (hline : j.mode = 2 ∨ j.done = 0 ∨ (j.addr + j.done) % 64 = 0) : CrcAborted n s (s.crcAbortOp n) := by
  rw [State.crcAbortOp_of_line hj hline, State.crcStop_eq]
  refine ⟨State.crcJob_crcEnd _ n, State.crcEnd_busy _ n, ?aborted, State.crcEnd_done _ n, ?mem⟩
  case aborted => rw [State.crcEnd_flag _ (by decide), State.crcCause_aborted]
  case mem => rw [State.crcEnd_mem, State.crcCause_mem]

/-! ### The way to a unit's registers (R27, R29) -/

/-- `off` is a register of check-value unit `n`, with no bit that the lock keeps. -/
abbrev CrcReg (n off : Nat) : Prop :=
  0x2C0000 ≤ off ∧ (off - 0x2C0000) / 0x100 = n ∧ off % 4 = 0 ∧ (regRow off).map RegRow.lock = some 0

/-- The registers that R396 closes while the unit is BUSY. -/
def crcClosed (n : Nat) : List Nat :=
  [rCRC_CTRL n, rCRC_POLY n, rCRC_INIT n, rCRC_ADDR_LO n, rCRC_ADDR_HI n, rCRC_LEN n, rCRC_REF_A n, rCRC_REF_B n]
    ++ (List.range 16).map (rCRC_DATA n)

theorem crcReg_of_mem_closed : ∀ n : Fin 4, ∀ off ∈ crcClosed n, CrcReg n off := by decide +kernel

theorem crcReg_cmd : ∀ n : Fin 4, CrcReg n (rCRC_CMD n) := by decide +kernel

/-- Where the closed registers lie in the unit. -/
theorem offset_of_mem_crcClosed : ∀ n : Fin 4, ∀ off ∈ crcClosed n,
    off % 0x100 = 0 ∨ (0xC ≤ off % 0x100 ∧ off % 0x100 ≤ 0x24) ∨ 0x40 ≤ off % 0x100 := by decide +kernel

theorem State.absentUnit_of_le (s : State) {off : Nat} (h : 0x200000 ≤ off) : s.absentUnit off = false := by
  simp [State.absentUnit, Nat.not_lt.2 h]

theorem State.viaReg_of_takes {s : State} {off : Nat} (ht : Takes s off) (hunit : s.absentUnit off = false) (act : State → State) :
    s.viaReg off act = act s := by
  obtain ⟨hporst, hmap⟩ := ht
  simp [State.viaReg, hporst, hunit, hmap]

/-- Above the units that have mirrors, curve memory or an absent half, a write that takes effect, to a register none of whose bits the lock
holds, acts by its value. -/
theorem State.busWrite_of_takes {s : State} {off : Nat} {r : RegRow} (ht : Takes s off) (hoff : 0x200000 ≤ off) (halign : off % 4 = 0)
    (hrow : regRow off = some r) (hlock : r.lock = 0) (v : Word) : s.busWrite off v = s.regAct r off v := by
  obtain ⟨hporst, hmap⟩ := ht
  have hcurve : curveOff off = none := if_neg (by omega)
  have hmirror : tgMirror off = none := if_neg (by omega)
  have hstage : tgNoStage off = false := by
    have : ¬ off < 0x1C0000 := by omega
    simp [tgNoStage, this]
  simp [State.busWrite, State.busWriteAt, State.regWrite, State.lockWrite, hporst, halign, s.absentUnit_of_le hoff, hmap, hcurve, hmirror,
    hstage, hrow, hlock]

/-- The check units stand outside the ranges of BSTREAM, PWR, TIME, MSG and the tiles. -/
theorem State.regAct_of_unit (s : State) (r : RegRow) {off : Nat} (h : 0x240000 ≤ off) (v : Word) :
    s.regAct r off v = (s.actUnit off v).getD (s.regPlain r off v) := by
  simp only [State.regAct]
  rw [if_neg (by omega), if_neg (by omega), if_neg (by omega), if_neg (by omega)]

/-- What a write to a check unit's register does: CMD takes it, a busy unit refuses its configuration (R396). -/
theorem State.actUnit_crc (s : State) {n : Fin 4} {off : Nat} (hr : CrcReg n off) (v : Word) :
    s.actUnit off v =
      if off % 0x100 = 4 then some (s.crcCmd n v.toNat)
      else if s.isF (fCRC_STATUS_BUSY n)
          ∧ (off % 0x100 = 0 ∨ (0xC ≤ off % 0x100 ∧ off % 0x100 ≤ 0x24) ∨ 0x40 ≤ off % 0x100) then
        some (s.crcBusyErr n)
      else none := by
  obtain ⟨hbase, hunit, -, -⟩ := hr
  have hn := n.isLt
  simp only [State.actUnit, hunit, rSAFETY_ACK_SC, rSAFETY_ACK_TT, rMEM_ECC_INJECT]
  rw [if_neg (by omega), if_neg (by omega), if_neg (by omega), if_pos (by omega)]

/-- REGISTER_WRITE of a check unit's register whose write acts. -/
theorem does_registerWrite_crc {n : Fin 4} {off : Nat} {v : Word} {s t : State} {P : State → Prop} (hr : CrcReg n off) (ht : Takes s off)
    (hact : s.actUnit off v = some t) (hp : P t) : Does (.registerWrite (BitVec.ofNat 24 off) v) s P := by
  obtain ⟨hbase, hunit, halign, hlock⟩ := hr
  obtain ⟨r, hrow, hlock⟩ := Option.map_eq_some_iff.1 hlock
  have hn := n.isLt
  have hoff : (BitVec.ofNat 24 off).toNat = off := Nat.mod_eq_of_lt (by omega)
  refine ⟨t, congrArg Host.Outcome.next ?_, hp⟩
  rw [hoff, State.busWrite_of_takes ht (by omega) halign hrow hlock, State.regAct_of_unit _ _ (by omega), hact, Option.getD_some]

theorem State.actUnit_crcClosed {s : State} {n : Fin 4} {off : Nat} (hoff : off ∈ crcClosed n) (hbusy : s.isF (fCRC_STATUS_BUSY n) = true)
    (v : Word) : s.actUnit off v = some (s.crcBusyErr n) := by
  have hj := offset_of_mem_crcClosed n off hoff
  rw [s.actUnit_crc (crcReg_of_mem_closed n off hoff), if_neg (by omega), if_pos ⟨hbusy, hj⟩]

theorem State.actUnit_crcCmd (s : State) (n : Fin 4) (v : Word) : s.actUnit (rCRC_CMD n) v = some (s.crcCmd n v.toNat) := by
  rw [s.actUnit_crc (crcReg_cmd n), if_pos (Nat.add_mul_mod_self_left 0x2C0004 0x100 n)]

/-- A command that stands for a write of CMD. -/
theorem does_of_viaReg_crcCmd {n : Fin 4} {c : Instr} {s : State} {act : State → State} {P : State → Prop} (ht : Takes s (rCRC_CMD n))
    (hx : exec c s = .next (s.viaReg (rCRC_CMD n) act)) (hp : P (act s)) : Does c s P := by
  rw [State.viaReg_of_takes ht (s.absentUnit_of_le ((by decide : 0x200000 ≤ 0x2C0000).trans (crcReg_cmd n).1))] at hx
  exact ⟨_, hx, hp⟩

/-! ### The claim -/

/-- START of a mode that CTRL selects, given to a busy unit. -/
theorem crcIgnored_crcStartIn {n mode : Nat} {s : State} (hbusy : s.isF (fCRC_STATUS_BUSY n) = true)
    (hmode : s.getF (fCRC_CTRL_MODE n) = mode) : CrcIgnored n s (s.crcStartIn n mode) := by
  rw [State.crcStartIn, if_pos hmode, State.crcStart_of_busy hbusy]
  exact crcIgnored_crcBusyErr hbusy

/-- Settles O59: every way to START and to the closed registers ends in ERR_BUSY, and both ways of ABORT end the job. -/
theorem checkUnitBusy : Obligations.CheckUnitBusy := by
  unfold Obligations.CheckUnitBusy
  intro n v s hbusy
  refine ⟨fun off hoff ht => ?closed, fun ht => ⟨?start, ?commands, fun j hj hline => ?abort⟩⟩
  case closed =>
    exact does_registerWrite_crc (crcReg_of_mem_closed n off hoff) ht (State.actUnit_crcClosed hoff hbusy v) (crcIgnored_crcBusyErr hbusy)
  case start =>
    have hcmd : s.crcCmd n 1 = s.crcBusyErr n := State.crcStart_of_busy hbusy
    exact does_registerWrite_crc (crcReg_cmd n) ht (s.actUnit_crcCmd n 1) (hcmd ▸ crcIgnored_crcBusyErr hbusy)
  case commands =>
    simp only [List.forall_mem_cons]
    exact ⟨fun hmode => does_of_viaReg_crcCmd ht rfl (crcIgnored_crcStartIn hbusy hmode),
      fun hmode => does_of_viaReg_crcCmd ht rfl (crcIgnored_crcStartIn hbusy hmode),
      fun hmode => does_of_viaReg_crcCmd ht rfl (crcIgnored_crcStartIn hbusy hmode), List.forall_mem_nil _⟩
  case abort =>
    have haborted := crcAborted_crcAbortOp hj hline
    simp only [List.forall_mem_cons]
    exact ⟨does_of_viaReg_crcCmd ht rfl haborted, does_registerWrite_crc (crcReg_cmd n) ht (s.actUnit_crcCmd n 2) haborted,
      List.forall_mem_nil _⟩

end Sys2Proof.Machine

/-! ## Every command and every step (log 4, log 6)

Every arm of the dispatch answers a next state, and the law of its meaning (Laws/Keeps) says what that state keeps; a tick keeps the same.
The fuses and the tables of a step are then those of its command or of its tick. -/

namespace Sys2Proof.Machine

/-- What a command's meaning keeps, arm by arm of the dispatch. -/
theorem keepsR_exec (c : Instr) (s : State) : KeepsR s (exec c s) :=
  match c with
  | .registerWrite .. => keeps_execRegisterWrite (.refl s)
  | .hlvStale .. => keeps_execHlvStale (.refl s)
  | .mcLoadWindow .. => keeps_execMcLoadWindow (.refl s)
  | .mcHeartbeat => keeps_execMcHeartbeat (.refl s)
  | .mcHeartbeatLost => keeps_execMcHeartbeatLost (.refl s)
  | .urgentEntry .. => keeps_execUrgentEntry (.refl s)
  | .urgentExit .. => keeps_execUrgentExit (.refl s)
  | .stageData .. => keeps_execStageData (.refl s)
  | .stageTimeout => keeps_execStageTimeout (.refl s)
  | .hostPushLoad .. => keeps_execHostPushLoad (.refl s)
  | .pmicIdentityRead .. => keeps_execPmicIdentityRead (.refl s)
  | .loadPhase2 => keeps_execLoadPhase2 (.refl s)
  | .keyProgram .. => keeps_execKeyProgram (.refl s)
  | .revoke .. => keeps_execRevoke (.refl s)
  | .advance => keeps_execAdvance (.refl s)
  | .wrap => keeps_execWrap (.refl s)
  | .wrapLock => keeps_execWrapLock (.refl s)
  | .otpDone => keeps_execOtpDone (.refl s)
  | .updateVerify => keeps_execUpdateVerify (.refl s)
  | .updateVerified .. => keeps_execUpdateVerified (.refl s)
  | .updateCommit => keeps_execUpdateCommit (.refl s)
  | .updateCopyDone => keeps_execUpdateCopyDone (.refl s)
  | .updateCancel => keeps_execUpdateCancel (.refl s)
  | .wakeN => keeps_execWakeN (.refl s)
  | .porstNRise => keeps_execPorstNRise (.refl s)
  | .porstNLow => keeps_execPorstNLow (.refl s)
  | .pgTimeout => keeps_execPgTimeout (.refl s)
  | .fioCheck .. => keeps_execFioCheck (.refl s)
  | .refclkCheck .. => keeps_execRefclkCheck (.refl s)
  | .refclkRecheck .. => keeps_execRefclkRecheck (.refl s)
  | .pllLock .. => keeps_execPllLock (.refl s)
  | .pllLockTimeout .. => keeps_execPllLockTimeout (.refl s)
  | .railPowerGood => keeps_execRailPowerGood (.refl s)
  | .railFail => keeps_execRailFail (.refl s)
  | .selftestDone .. => keeps_execSelftestDone (.refl s)
  | .startupSwitchTest .. => keeps_execStartupSwitchTest (.refl s)
  | .fbEnAssert .. => keeps_execFbEnAssert (.refl s)
  | .fbLate => keeps_execFbLate (.refl s)
  | .fullBeamLate => keeps_execFullBeamLate (.refl s)
  | .dramTrained .. => keeps_execDramTrained (.refl s)
  | .calMapRead .. => keeps_execCalMapRead (.refl s)
  | .handoverStart .. => keeps_execHandoverStart (.refl s)
  | .deepSleepWake => keeps_execDeepSleepWake (.refl s)
  | .beStart .. => keeps_execBeStart (.refl s)
  | .beStop .. => keeps_execBeStop (.refl s)
  | .beReset .. => keeps_execBeReset (.refl s)
  | .engineRestart .. => keeps_execEngineRestart (.refl s)
  | .jobTrigger .. => keeps_execJobTrigger (.refl s)
  | .nop .. => keeps_execNop (.refl s)
  | .halt .. => keeps_execHalt (.refl s)
  | .br .. => keeps_execBr (.refl s)
  | .brz .. => keeps_execBrz (.refl s)
  | .brnz .. => keeps_execBrnz (.refl s)
  | .brlt .. => keeps_execBrlt (.refl s)
  | .brany .. => keeps_execBrany (.refl s)
  | .brnone .. => keeps_execBrnone (.refl s)
  | .call .. => keeps_execCall (.refl s)
  | .ret .. => keeps_execRet (.refl s)
  | .loop .. => keeps_execLoop (.refl s)
  | .add .. => keeps_execAdd (.refl s)
  | .sub .. => keeps_execSub (.refl s)
  | .mul .. => keeps_execMul (.refl s)
  | .mulh .. => keeps_execMulh (.refl s)
  | .and .. => keeps_execAnd (.refl s)
  | .or .. => keeps_execOr (.refl s)
  | .xor .. => keeps_execXor (.refl s)
  | .shl .. => keeps_execShl (.refl s)
  | .shr .. => keeps_execShr (.refl s)
  | .sra .. => keeps_execSra (.refl s)
  | .slt .. => keeps_execSlt (.refl s)
  | .sltu .. => keeps_execSltu (.refl s)
  | .min .. => keeps_execMin (.refl s)
  | .max .. => keeps_execMax (.refl s)
  | .div .. => keeps_execDiv (.refl s)
  | .addi .. => keeps_execAddi (.refl s)
  | .subi .. => keeps_execSubi (.refl s)
  | .muli .. => keeps_execMuli (.refl s)
  | .mulhi .. => keeps_execMulhi (.refl s)
  | .andi .. => keeps_execAndi (.refl s)
  | .ori .. => keeps_execOri (.refl s)
  | .xori .. => keeps_execXori (.refl s)
  | .shli .. => keeps_execShli (.refl s)
  | .shri .. => keeps_execShri (.refl s)
  | .srai .. => keeps_execSrai (.refl s)
  | .slti .. => keeps_execSlti (.refl s)
  | .sltui .. => keeps_execSltui (.refl s)
  | .mini .. => keeps_execMini (.refl s)
  | .maxi .. => keeps_execMaxi (.refl s)
  | .divi .. => keeps_execDivi (.refl s)
  | .li .. => keeps_execLi (.refl s)
  | .movspr .. => keeps_execMovspr (.refl s)
  | .movtspr .. => keeps_execMovtspr (.refl s)
  | .pmov .. => keeps_execPmov (.refl s)
  | .pld .. => keeps_execPld (.refl s)
  | .pcnt .. => keeps_execPcnt (.refl s)
  | .ldw .. => keeps_execLdw (.refl s)
  | .stw .. => keeps_execStw (.refl s)
  | .ldh .. => keeps_execLdh (.refl s)
  | .sth .. => keeps_execSth (.refl s)
  | .vld .. => keeps_execVld (.refl s)
  | .vst .. => keeps_execVst (.refl s)
  | .vgather .. => keeps_execVgather (.refl s)
  | .vscatter .. => keeps_execVscatter (.refl s)
  | .vadd .. => keeps_execVadd (.refl s)
  | .vadds .. => keeps_execVadds (.refl s)
  | .vsub .. => keeps_execVsub (.refl s)
  | .vsubs .. => keeps_execVsubs (.refl s)
  | .vmulh .. => keeps_execVmulh (.refl s)
  | .vmull .. => keeps_execVmull (.refl s)
  | .vmac .. => keeps_execVmac (.refl s)
  | .vmin .. => keeps_execVmin (.refl s)
  | .vmax .. => keeps_execVmax (.refl s)
  | .vand .. => keeps_execVand (.refl s)
  | .vor .. => keeps_execVor (.refl s)
  | .vxor .. => keeps_execVxor (.refl s)
  | .vshl .. => keeps_execVshl (.refl s)
  | .vshr .. => keeps_execVshr (.refl s)
  | .vsra .. => keeps_execVsra (.refl s)
  | .vabsd .. => keeps_execVabsd (.refl s)
  | .vsel .. => keeps_execVsel (.refl s)
  | .vlut .. => keeps_execVlut (.refl s)
  | .vsplat .. => keeps_execVsplat (.refl s)
  | .vlane .. => keeps_execVlane (.refl s)
  | .vext .. => keeps_execVext (.refl s)
  | .vins .. => keeps_execVins (.refl s)
  | .vsum .. => keeps_execVsum (.refl s)
  | .vmov .. => keeps_execVmov (.refl s)
  | .vcmpeq .. => keeps_execVcmpeq (.refl s)
  | .vcmplt .. => keeps_execVcmplt (.refl s)
  | .vcmplts .. => keeps_execVcmplts (.refl s)
  | .vcmple .. => keeps_execVcmple (.refl s)
  | .pand .. => keeps_execPand (.refl s)
  | .por .. => keeps_execPor (.refl s)
  | .pandn .. => keeps_execPandn (.refl s)
  | .pnot .. => keeps_execPnot (.refl s)
  | .pset .. => keeps_execPset (.refl s)
  | .redge .. => keeps_execRedge (.refl s)
  | .rcov .. => keeps_execRcov (.refl s)
  | .rsetxy .. => keeps_execRsetxy (.refl s)
  | .samp .. => keeps_execSamp (.refl s)
  | .sampn .. => keeps_execSampn (.refl s)
  | .dmaq .. => keeps_execDmaq (.refl s)
  | .dmawait .. => keeps_execDmawait (.refl s)
  | .dmastat .. => keeps_execDmastat (.refl s)
  | .fsig .. => keeps_execFsig (.refl s)
  | .fwait .. => keeps_execFwait (.refl s)
  | .frd .. => keeps_execFrd (.refl s)
  | .mbrecv .. => keeps_execMbrecv (.refl s)
  | .mbfree .. => keeps_execMbfree (.refl s)
  | .mbcount .. => keeps_execMbcount (.refl s)
  | .evpost .. => keeps_execEvpost (.refl s)
  | .haltComplete .. => keeps_execHaltComplete (.refl s)
  | .dmaQueueRoom .. => keeps_execDmaQueueRoom (.refl s)
  | .dmaDescComplete .. => keeps_execDmaDescComplete (.refl s)
  | .dmaErr .. => keeps_execDmaErr (.refl s)
  | .fsigWritesVisible .. => keeps_execFsigWritesVisible (.refl s)
  | .fwaitSatisfied .. => keeps_execFwaitSatisfied (.refl s)
  | .fwaitTimeout .. => keeps_execFwaitTimeout (.refl s)
  | .mbrecvDelivered .. => keeps_execMbrecvDelivered (.refl s)
  | .watchdog .. => keeps_execWatchdog (.refl s)
  | .agingConversion => keeps_execAgingConversion (.refl s)
  | .flip .. => keeps_execFlip (.refl s)
  | .flipCommit .. => keeps_execFlipCommit (.refl s)
  | .latchPoint => keeps_execLatchPoint (.refl s)
  | .rawAddrWrite .. => keeps_execRawAddrWrite (.refl s)
  | .rowCompose .. => keeps_execRowCompose (.refl s)
  | .csiLongPacket .. => keeps_execCsiLongPacket (.refl s)
  | .csiFrameStart .. => keeps_execCsiFrameStart (.refl s)
  | .csiFrameEnd .. => keeps_execCsiFrameEnd (.refl s)
  | .updateWindow .. => keeps_execUpdateWindow (.refl s)
  | .updCommit .. => keeps_execUpdCommit (.refl s)
  | .updFill .. => keeps_execUpdFill (.refl s)
  | .updCancel .. => keeps_execUpdCancel (.refl s)
  | .fillDone .. => keeps_execFillDone (.refl s)
  | .transferEnd .. => keeps_execTransferEnd (.refl s)
  | .recFreeze => keeps_execRecFreeze (.refl s)
  | .recRearm => keeps_execRecRearm (.refl s)
  | .recFrozen => keeps_execRecFrozen (.refl s)
  | .tgStart .. => keeps_execTgStart (.refl s)
  | .tgStop .. => keeps_execTgStop (.refl s)
  | .swap .. => keeps_execSwap (.refl s)
  | .slot .. => keeps_execSlot (.refl s)
  | .sense .. => keeps_execSense (.refl s)
  | .frameStart .. => keeps_execFrameStart (.refl s)
  | .rowSlot .. => keeps_execRowSlot (.refl s)
  | .timingCommit .. => keeps_execTimingCommit (.refl s)
  | .directTimingWrite .. => keeps_execDirectTimingWrite (.refl s)
  | .ztlEnable .. => keeps_execZtlEnable (.refl s)
  | .ztlDisable .. => keeps_execZtlDisable (.refl s)
  | .ztlRecal .. => keeps_execZtlRecal (.refl s)
  | .ztlRetry .. => keeps_execZtlRetry (.refl s)
  | .bringupAttempt .. => keeps_execBringupAttempt (.refl s)
  | .detectDone .. => keeps_execDetectDone (.refl s)
  | .trainDone .. => keeps_execTrainDone (.refl s)
  | .lockDone .. => keeps_execLockDone (.refl s)
  | .attemptTimeout .. => keeps_execAttemptTimeout (.refl s)
  | .capsBlock .. => keeps_execCapsBlock (.refl s)
  | .authBlock .. => keeps_execAuthBlock (.refl s)
  | .authTimeout .. => keeps_execAuthTimeout (.refl s)
  | .trainReport .. => keeps_execTrainReport (.refl s)
  | .linkStatus .. => keeps_execLinkStatus (.refl s)
  | .spareMarginCheck .. => keeps_execSpareMarginCheck (.refl s)
  | .recalStep .. => keeps_execRecalStep (.refl s)
  | .laneRetrain .. => keeps_execLaneRetrain (.refl s)
  | .backFail .. => keeps_execBackFail (.refl s)
  | .backRestored .. => keeps_execBackRestored (.refl s)
  | .bkLossOfSignal .. => keeps_execBkLossOfSignal (.refl s)
  | .selMapLoad .. => keeps_execSelMapLoad (.refl s)
  | .ack .. => keeps_execAck (.refl s)
  | .swapAck .. => keeps_execSwapAck (.refl s)
  | .swapAckMissing .. => keeps_execSwapAckMissing (.refl s)
  | .fbAckLate .. => keeps_execFbAckLate (.refl s)
  | .tileStatus .. => keeps_execTileStatus (.refl s)
  | .regData .. => keeps_execRegData (.refl s)
  | .senseBlock .. => keeps_execSenseBlock (.refl s)
  | .nvBlock .. => keeps_execNvBlock (.refl s)
  | .tregRead .. => keeps_execTregRead (.refl s)
  | .tregWrite .. => keeps_execTregWrite (.refl s)
  | .tregTimeout .. => keeps_execTregTimeout (.refl s)
  | .lifeRecordWrite .. => keeps_execLifeRecordWrite (.refl s)
  | .baseline .. => keeps_execBaseline (.refl s)
  | .checkpoint => keeps_execCheckpoint (.refl s)
  | .clearState .. => keeps_execClearState (.refl s)
  | .baselineAutoStart .. => keeps_execBaselineAutoStart (.refl s)
  | .fullCheckpointDue .. => keeps_execFullCheckpointDue (.refl s)
  | .deltaCheckpointDue => keeps_execDeltaCheckpointDue (.refl s)
  | .ckptDone .. => keeps_execCkptDone (.refl s)
  | .accRestored => keeps_execAccRestored (.refl s)
  | .incrWrite .. => keeps_execIncrWrite (.refl s)
  | .offsetWrite .. => keeps_execOffsetWrite (.refl s)
  | .adjWrite .. => keeps_execAdjWrite (.refl s)
  | .offsetMeasWrite .. => keeps_execOffsetMeasWrite (.refl s)
  | .snapCmd .. => keeps_execSnapCmd (.refl s)
  | .ltLoRead => keeps_execLtLoRead (.refl s)
  | .domainSwitch .. => keeps_execDomainSwitch (.refl s)
  | .timeStep => keeps_execTimeStep (.refl s)
  | .slewEnd => keeps_execSlewEnd (.refl s)
  | .domainStale => keeps_execDomainStale (.refl s)
  | .gptpSync .. => keeps_execGptpSync (.refl s)
  | .gptpAnnounce .. => keeps_execGptpAnnounce (.refl s)
  | .gptpPdelay .. => keeps_execGptpPdelay (.refl s)
  | .gptpSignalling .. => keeps_execGptpSignalling (.refl s)
  | .gptpLost .. => keeps_execGptpLost (.refl s)
  | .schedArm .. => keeps_execSchedArm (.refl s)
  | .schedDisarm .. => keeps_execSchedDisarm (.refl s)
  | .schedTargetWrite .. => keeps_execSchedTargetWrite (.refl s)
  | .eventPost .. => keeps_execEventPost (.refl s)
  | .trgPulse .. => keeps_execTrgPulse (.refl s)
  | .trgPulseEnd .. => keeps_execTrgPulseEnd (.refl s)
  | .slotFire .. => keeps_execSlotFire (.refl s)
  | .sweepStart .. => keeps_execSweepStart (.refl s)
  | .hkConvert .. => keeps_execHkConvert (.refl s)
  | .framePhase .. => keeps_execFramePhase (.refl s)
  | .beWake .. => keeps_execBeWake (.refl s)
  | .pwrWake .. => keeps_execPwrWake (.refl s)
  | .capEdge .. => keeps_execCapEdge (.refl s)
  | .capTsHiRead .. => keeps_execCapTsHiRead (.refl s)
  | .ethFrameRx .. => keeps_execEthFrameRx (.refl s)
  | .ethLink .. => keeps_execEthLink (.refl s)
  | .fenceSignal .. => keeps_execFenceSignal (.refl s)
  | .fenceSignalWrite .. => keeps_execFenceSignalWrite (.refl s)
  | .schedWrite .. => keeps_execSchedWrite (.refl s)
  | .pose .. => keeps_execPose (.refl s)
  | .objectList .. => keeps_execObjectList (.refl s)
  | .maskParam .. => keeps_execMaskParam (.refl s)
  | .symbolSet .. => keeps_execSymbolSet (.refl s)
  | .symbolClear .. => keeps_execSymbolClear (.refl s)
  | .patternSet .. => keeps_execPatternSet (.refl s)
  | .agingCtrl .. => keeps_execAgingCtrl (.refl s)
  | .healthCfg .. => keeps_execHealthCfg (.refl s)
  | .ping .. => keeps_execPing (.refl s)
  | .stateReq .. => keeps_execStateReq (.refl s)
  | .regRead .. => keeps_execRegRead (.refl s)
  | .regWrite .. => keeps_execRegWrite (.refl s)
  | .holvoStageData .. => keeps_execHolvoStageData (.refl s)
  | .holvoUpdateCmd .. => keeps_execHolvoUpdateCmd (.refl s)
  | .evtStream .. => keeps_execEvtStream (.refl s)
  | .spoolCmd .. => keeps_execSpoolCmd (.refl s)
  | .spoolRead .. => keeps_execSpoolRead (.refl s)
  | .sakInstall .. => keeps_execSakInstall (.refl s)
  | .pwrRequest .. => keeps_execPwrRequest (.refl s)
  | .healthCmd .. => keeps_execHealthCmd (.refl s)
  | .diagnostics .. => keeps_execDiagnostics (.refl s)
  | .unknownOpcode .. => keeps_execUnknownOpcode (.refl s)
  | .spiWrite .. => keeps_execSpiWrite (.refl s)
  | .spiWriteFixed .. => keeps_execSpiWriteFixed (.refl s)
  | .spiRead .. => keeps_execSpiRead (.refl s)
  | .spiReadFixed .. => keeps_execSpiReadFixed (.refl s)
  | .mboxWrite .. => keeps_execMboxWrite (.refl s)
  | .mboxRead .. => keeps_execMboxRead (.refl s)
  | .lampReq .. => keeps_execLampReq (.refl s)
  | .canLost .. => keeps_execCanLost (.refl s)
  | .canBusOff .. => keeps_execCanBusOff (.refl s)
  | .lampAlarm .. => keeps_execLampAlarm (.refl s)
  | .hamperAccept => keeps_execHamperAccept (.refl s)
  | .evtPop .. => keeps_execEvtPop (.refl s)
  | .evtSkip => keeps_execEvtSkip (.refl s)
  | .evtOwnerWrite .. => keeps_execEvtOwnerWrite (.refl s)
  | .eventsSend => keeps_execEventsSend (.refl s)
  | .spoolWrite => keeps_execSpoolWrite (.refl s)
  | .spNext => keeps_execSpNext (.refl s)
  | .spOldest => keeps_execSpOldest (.refl s)
  | .spSetMark => keeps_execSpSetMark (.refl s)
  | .spRewind => keeps_execSpRewind (.refl s)
  | .spFreeze => keeps_execSpFreeze (.refl s)
  | .spRearm => keeps_execSpRearm (.refl s)
  | .spFrozen => keeps_execSpFrozen (.refl s)
  | .channelLost .. => keeps_execChannelLost (.refl s)
  | .lockstepMismatch => keeps_execLockstepMismatch (.refl s)
  | .ackSc .. => keeps_execAckSc (.refl s)
  | .ackTt .. => keeps_execAckTt (.refl s)
  | .ackWindowExpiry => keeps_execAckWindowExpiry (.refl s)
  | .statsRecord .. => keeps_execStatsRecord (.refl s)
  | .ss1HoldExpiry => keeps_execSs1HoldExpiry (.refl s)
  | .actStep .. => keeps_execActStep (.refl s)
  | .encoderEdge .. => keeps_execEncoderEdge (.refl s)
  | .actSpeedWindow .. => keeps_execActSpeedWindow (.refl s)
  | .actMismatch .. => keeps_execActMismatch (.refl s)
  | .actHoming .. => keeps_execActHoming (.refl s)
  | .sinSample .. => keeps_execSinSample (.refl s)
  | .contactAccepted .. => keeps_execContactAccepted (.refl s)
  | .sinDiscrepancy .. => keeps_execSinDiscrepancy (.refl s)
  | .switchReadbackTimeout .. => keeps_execSwitchReadbackTimeout (.refl s)
  | .testPulse .. => keeps_execTestPulse (.refl s)
  | .testPulseEnd .. => keeps_execTestPulseEnd (.refl s)
  | .fallbackAckTimeout .. => keeps_execFallbackAckTimeout (.refl s)
  | .scrubRead => keeps_execScrubRead (.refl s)
  | .sramCheck .. => keeps_execSramCheck (.refl s)
  | .eccInject .. => keeps_execEccInject (.refl s)
  | .crcScan .. => keeps_execCrcScan (.refl s)
  | .crcRead .. => keeps_execCrcRead (.refl s)
  | .crcWrite .. => keeps_execCrcWrite (.refl s)
  | .crcAbort .. => keeps_execCrcAbort (.refl s)
  | .crcDone .. => keeps_execCrcDone (.refl s)
  | .pwrReqRun .. => keeps_execPwrReqRun (.refl s)
  | .pwrReqIdle .. => keeps_execPwrReqIdle (.refl s)
  | .pwrReqSleep .. => keeps_execPwrReqSleep (.refl s)
  | .pwrReqDeepSleep .. => keeps_execPwrReqDeepSleep (.refl s)
  | .pwrReqOff .. => keeps_execPwrReqOff (.refl s)
  | .pwrReqAuto .. => keeps_execPwrReqAuto (.refl s)
  | .scConsent => keeps_execScConsent (.refl s)
  | .consentTimeout => keeps_execConsentTimeout (.refl s)
  | .entryStepDone => keeps_execEntryStepDone (.refl s)
  | .idleEnter => keeps_execIdleEnter (.refl s)
  | .sleepExit => keeps_execSleepExit (.refl s)
  | .aonWakeTimer => keeps_execAonWakeTimer (.refl s)
  | .wakeFailClear => keeps_execWakeFailClear (.refl s)
  | .slowPeriodMeasure .. => keeps_execSlowPeriodMeasure (.refl s)
  | .hkRound .. => keeps_execHkRound (.refl s)
  | .roundLate .. => keeps_execRoundLate (.refl s)
  | .vaonRise .. => keeps_execVaonRise (.refl s)
  | .vaonLoss => keeps_execVaonLoss (.refl s)
  | .jtagInstruction .. => keeps_execJtagInstruction (.refl s)
  | .debugAuth .. => keeps_execDebugAuth (.refl s)
  | .pllLoss .. => keeps_execPllLoss (.refl s)
  | .busOffRecovery .. => keeps_execBusOffRecovery (.refl s)
  | .programCommand .. => keeps_execProgramCommand (.refl s)
  | .spiUnknownCommand cmd => keeps_execSpiUnknownCommand (x0 := cmd) (.refl s)

theorem exec_eq_next (c : Instr) (s : State) : ∃ t, exec c s = .next t := by
  cases c <;> exact ⟨_, rfl⟩

theorem step_of_nil {s : State} (h : s.pending = []) : step s = .next s.tick := by
  unfold step; rw [h]

theorem step_of_cons {s : State} {c : Instr} {rest : List Instr} (h : s.pending = c :: rest) :
    step s = exec c { s with pending := rest } := by
  unfold step; rw [h]

/-- A step keeps the tables canonical and takes back no fuse; only the queue grows shorter. -/
theorem step_keeps {s t : State} (h : step s = .next t) : (TablesWf s → TablesWf t) ∧ OtpGrows s.otp t.otp := by
  cases hq : s.pending with
  | nil =>
    have ht : s.tick = t := Host.Outcome.next.inj ((step_of_nil hq).symm.trans h)
    have hk := keeps_tick (Keeps.refl s)
    rw [ht] at hk
    exact ⟨hk.tables, hk.fixed.otp⟩
  | cons c rest =>
    have hk := keepsR_exec c _ t ((step_of_cons hq).symm.trans h)
    exact ⟨fun w => hk.tables ⟨w.mem, w.regs, w.bank0, w.bank1, w.store, w.sel⟩, hk.fixed.otp⟩

/-- Settles O3: every command answers a next state, and the law of its meaning says what stays. -/
theorem everyCommandCompletes : Obligations.EveryCommandCompletes := by
  unfold Obligations.EveryCommandCompletes
  intro c s
  obtain ⟨t, ht⟩ := exec_eq_next c s
  exact ⟨t, ht, (keepsR_exec c s t ht).fixed⟩

/-- Settles O5, from what a command and a tick keep. -/
theorem stepKeepsTables : Obligations.StepKeepsTables := by
  unfold Obligations.StepKeepsTables
  exact fun s t hw h => (step_keeps h).1 hw

/-- Settles O6, from what a command and a tick keep. -/
theorem stepGrowsFuses : Obligations.StepGrowsFuses := by
  unfold Obligations.StepGrowsFuses
  exact fun s t h => (step_keeps h).2

/-- Settles O1: the queue's front is the command carried out. -/
theorem stepTakesFront : Obligations.StepTakesFront := by
  unfold Obligations.StepTakesFront
  exact fun c rest s => step_of_cons (s := { s with pending := c :: rest }) rfl

/-- Settles O4: at reset every table is the empty list, which is canonical. -/
theorem resetTables : Obligations.ResetTables := by
  unfold Obligations.ResetTables
  exact ⟨tabWf_nil _, tabWf_nil _, tabWf_nil _, tabWf_nil _, tabWf_nil _, tabWf_nil _⟩

end Sys2Proof.Machine

/-! ## Memory (R26)

Bytes are read and written one by one; what a range of them reads, and a number stored in little-endian bytes, follow from the law of the
single byte. -/

namespace Sys2Proof.Machine

theorem State.bytes_eq (s : State) (a n : Nat) : s.bytes a n = (List.range' a n).map s.byte := by
  refine List.map_congr_left fun x hx => ?_
  obtain ⟨i, hi, rfl⟩ := List.mem_range'.1 hx
  refine (tabGet_filter _ s.mem (fun x => decide (a ≤ x) && decide (x < a + n)) _).trans (if_pos ?_)
  simpa using hi

@[simp] theorem State.length_bytes (s : State) (a n : Nat) : (s.bytes a n).length = n := by
  simp [State.bytes_eq]

theorem State.bytes_congr {s t : State} {a n : Nat} (h : ∀ x, a ≤ x → x < a + n → t.byte x = s.byte x) : t.bytes a n = s.bytes a n := by
  rw [State.bytes_eq, State.bytes_eq]
  refine List.map_congr_left fun x hx => ?_
  obtain ⟨i, hi, rfl⟩ := List.mem_range'.1 hx
  exact h _ (by omega) (by omega)

/-- What a run of bytes written leaves at an address. -/
theorem State.byte_setBytes (s : State) (a x : Nat) (bs : List Byte) :
    (s.setBytes a bs).byte x = if a ≤ x ∧ x < a + bs.length then bs.getD (x - a) 0#8 else s.byte x :=
  tabGet_tabPutAll ..

theorem State.byte_setBytes_other (s : State) {a x : Nat} {bs : List Byte} (h : x < a ∨ a + bs.length ≤ x) :
    (s.setBytes a bs).byte x = s.byte x := by
  rw [State.byte_setBytes, if_neg (by omega)]

theorem State.bytes_setBytes_same (s : State) (a : Nat) (bs : List Byte) : (s.setBytes a bs).bytes a bs.length = bs := by
  rw [State.bytes_eq]
  refine List.ext_getElem (by simp) fun i h _ => ?_
  have hi : i < bs.length := by simpa using h
  simp [State.byte_setBytes, hi]

@[simp] theorem length_leBytes (n v : Nat) : (leBytes n v).length = n := by
  induction n generalizing v with
  | zero => rfl
  | succ n ih => simp [leBytes, ih]

/-- Little-endian bytes spell the number modulo what they hold. -/
theorem ofLe_leBytes (n v : Nat) : ofLe (leBytes n v) = v % 256 ^ n := by
  induction n generalizing v with
  | zero => simp [leBytes, ofLe, Nat.mod_one]
  | succ n ih => rw [leBytes, ofLe, ih, BitVec.toNat_ofNat, pow_succ' 256, Nat.mod_mul]

theorem State.loadN_storeN (s : State) (a n v : Nat) : (s.storeN a n v).loadN a n = v % 256 ^ n := by
  have h := s.bytes_setBytes_same a (leBytes n v)
  rw [length_leBytes] at h
  rw [State.loadN, State.storeN, h, ofLe_leBytes]

/-- Settles O11, from the law of a single byte after a run of writes. -/
theorem memoryReadsBack : Obligations.MemoryReadsBack := by
  unfold Obligations.MemoryReadsBack
  exact fun s a bs => ⟨s.bytes_setBytes_same a bs, fun x hx => s.byte_setBytes_other hx,
    fun n v hv => (s.loadN_storeN a n v).trans (Nat.mod_eq_of_lt hv)⟩

end Sys2Proof.Machine

/-! ## Register writes (R26 to R32)

What the bus does with a write is said once for each of its ends: dropped in reset, by an absent unit or by the lock, refused as unmapped or
unaligned, or taken by a plain register. A flag raised with its counter stands in most of them. -/

namespace Sys2Proof.Machine

/-! ### Fields and counters -/

theorem State.getF_setReg_other (s : State) {o : Nat} {f : Fld} (v : Word) (h : f.off ≠ o) : (s.setReg o v).getF f = s.getF f :=
  State.getF_congr (by rw [State.reg_setReg, if_neg h])

theorem State.getF_setRegN_other (s : State) {o : Nat} {f : Fld} (v : Nat) (h : f.off ≠ o) : (s.setRegN o v).getF f = s.getF f :=
  s.getF_setReg_other _ h

theorem State.getF_bump_other (s : State) {o : Nat} {f : Fld} (h : f.off ≠ o) : (s.bump o).getF f = s.getF f :=
  s.getF_setReg_other _ h

theorem State.regN_setF_other (s : State) {f : Fld} {o : Nat} (n : Nat) (h : o ≠ f.off) : (s.setF f n).regN o = s.regN o := by
  rw [State.regN, State.reg_setF, if_neg h, State.regN]

theorem State.regN_setRegN_other (s : State) {o p : Nat} (v : Nat) (h : p ≠ o) : (s.setRegN o v).regN p = s.regN p := by
  rw [State.regN_setRegN, if_neg h]

/-- A raise sets its flag. -/
theorem State.getF_raise (s : State) {f : Fld} {c : Nat} (hw : f.lo + f.w ≤ 32) (hc : f.off ≠ c) : (s.raise f c).getF f = 1 % 2 ^ f.w := by
  rw [State.raise, State.getF_bump_other _ hc, State.getF_setF _ _ _ hw]

theorem State.regN_bump (s : State) (o : Nat) : (s.bump o).regN o = min (s.regN o + 1) 0xFFFF := by
  rw [State.bump, State.bumpBy, State.regN_setRegN, if_pos rfl, satAt]
  omega

theorem Quiet.regN {l : List Nat} {s t : State} (q : Quiet l s t) {o : Nat} (h : o ∉ l) (k : o ∉ evRegs) : t.regN o = s.regN o :=
  congrArg BitVec.toNat (q.regs o h k)

theorem Quiet.isF {l : List Nat} {s t : State} (q : Quiet l s t) (f : Fld) (h : f.off ∉ l) (k : f.off ∉ evRegs) : t.isF f = s.isF f :=
  State.isF_congr (q.regs _ h k)

/-! ### Writes of registers alone -/

/-- Nothing changes but the registers of `l`. -/
structure OnlyRegs (l : List Nat) (s t : State) : Prop where
  rest : t = { s with regs := t.regs }
  regs : ∀ off, off ∉ l → t.reg off = s.reg off

theorem OnlyRegs.refl (l : List Nat) (s : State) : OnlyRegs l s s := ⟨rfl, fun _ _ => rfl⟩

theorem OnlyRegs.setReg {l : List Nat} {s u : State} {o : Nat} {v : Word} (h : OnlyRegs l s u) (k : o ∈ l) :
    OnlyRegs l s (u.setReg o v) := by
  refine ⟨?_, fun x a => ?_⟩
  · rw [State.setReg, h.rest]
  · rw [State.reg_setReg, if_neg (fun e : x = o => a (e ▸ k)), h.regs x a]

theorem OnlyRegs.setRegN {l : List Nat} {s u : State} {o v : Nat} (h : OnlyRegs l s u) (k : o ∈ l) : OnlyRegs l s (u.setRegN o v) :=
  h.setReg k

theorem OnlyRegs.setF {l : List Nat} {s u : State} {f : Fld} {n : Nat} (h : OnlyRegs l s u) (k : f.off ∈ l) : OnlyRegs l s (u.setF f n) :=
  h.setReg k

theorem OnlyRegs.bump {l : List Nat} {s u : State} {o : Nat} (h : OnlyRegs l s u) (k : o ∈ l) : OnlyRegs l s (u.bump o) := h.setReg k

theorem OnlyRegs.raise {l : List Nat} {s u : State} {f : Fld} {c : Nat} (h : OnlyRegs l s u) (k : f.off ∈ l) (k' : c ∈ l) :
    OnlyRegs l s (u.raise f c) := (h.setF k).bump k'

theorem OnlyRegs.setPair {l : List Nat} {s u : State} {a b v : Nat} (h : OnlyRegs l s u) (k : a ∈ l) (k' : b ∈ l) :
    OnlyRegs l s (u.setPair a b v) := (h.setReg k).setReg k'

theorem OnlyRegs.quiet {l : List Nat} {s t : State} (h : OnlyRegs l s t) : Quiet l s t := by
  refine ⟨?_, fun x a _ => h.regs x a⟩
  rw [h.rest]

/-! ### Writes that the lock lets through (R29) -/

theorem State.mapLocked_of_unlocked {s : State} (h : s.locked = false) (off : Nat) : s.mapLocked off = false := by
  simp [State.mapLocked, h]

/-- Before the lock a write does its act on the value written. -/
theorem State.lockWrite_of_unlocked {s : State} (h : s.locked = false) (r : RegRow) (off : Nat) (v : Word) (act : Word → State → State) :
    s.lockWrite r off v act = act v s := by
  simp [State.lockWrite, State.mapLocked_of_unlocked h, h]

/-- Of the units below HEALTH and outside BSTREAM, PWR, TIME and MSG no register's write acts. -/
theorem State.regAct_plain (s : State) (r : RegRow) {off : Nat} (v : Word)
    (h : off < 0x10000 ∨ 0x80000 ≤ off ∧ off < 0xC0000 ∨ 0x30000 ≤ off ∧ off < 0x40000) : s.regAct r off v = s.regPlain r off v := by
  have hunit : s.actUnit off v = none := by
    simp only [State.actUnit, regAt, rSAFETY_ACK_SC, rSAFETY_ACK_TT, rMEM_ECC_INJECT, rBE_CMD]
    rw [if_neg (by omega), if_neg (by omega), if_neg (by omega), if_neg (by omega), if_neg (by omega), Option.map_none]
  simp only [State.regAct]
  rw [if_neg (by omega), if_neg (by omega), if_neg (by omega), if_neg (by omega), hunit, Option.getD_none]

theorem regThere_of_none {off : Nat} (hc : curveOff off = none) (hm : tgMirror off = none) (hrow : regRow off = none) :
    regThere off = false := by
  simp [regThere, hc, hm, hrow]

/-! ### The ends of a bus write -/

/-- Out of reset an aligned write reaches the register space. -/
theorem State.busWrite_of_aligned {s : State} {off : Nat} (hp : s.boot.porst = true) (ha : off % 4 = 0) (v : Word) :
    s.busWrite off v = s.busWriteAt off v := by
  simp [State.busWrite, hp, ha]

theorem State.lockViol_quiet (s : State) (off : Nat) : Quiet [rTOP_BUS_ERR_STATUS, rTOP_LOCK_VIOL_COUNT] s (s.lockViol off) :=
  ((Quiet.refl _ s).raise (by decide) (by decide)).postGap (by decide)

/-- What follows the raise of a lock violation is its event alone. -/
theorem State.lockViol_event (s : State) (off : Nat) :
    Quiet [] (s.raise fTOP_BUS_ERR_STATUS_LOCK_VIOL rTOP_LOCK_VIOL_COUNT) (s.lockViol off) :=
  (Quiet.refl _ _).postGap (by decide)

theorem State.busErr_quiet (s : State) (a : Nat) :
    Quiet [rTOP_BUS_ERR_STATUS, rTOP_SYS_MAP_COUNT, rTOP_BUS_ERR_ADDR] s (s.busErr a) :=
  (((Quiet.refl _ s).raise (by decide) (by decide)).setRegN (by decide)).post (by decide)

theorem State.busErr_event (s : State) (a : Nat) :
    Quiet [rTOP_BUS_ERR_ADDR] (s.raise fTOP_BUS_ERR_STATUS_SYS_MAP rTOP_SYS_MAP_COUNT) (s.busErr a) :=
  ((Quiet.refl _ _).setRegN (by decide)).post (by decide)

theorem State.unmapped_quiet (s : State) (off : Nat) :
    Quiet [rTOP_BUS_ERR_STATUS, rTOP_UNMAPPED_COUNT, rTOP_BUS_ERR_ADDR] s (s.unmapped off) :=
  ((Quiet.refl _ s).raise (by decide) (by decide)).setRegN (by decide)

theorem State.unmapped_addr (s : State) (off : Nat) :
    Quiet [rTOP_BUS_ERR_ADDR] (s.raise fTOP_BUS_ERR_STATUS_UNMAPPED rTOP_UNMAPPED_COUNT) (s.unmapped off) :=
  (Quiet.refl _ _).setRegN (by decide)

/-- What is left of a flag raised with its counter where only other registers change after it. -/
theorem raised_of_quiet {s t : State} {l : List Nat} {f : Fld} {c : Nat} (q : Quiet l (s.raise f c) t)
    (hf : f.lo + f.w ≤ 32 ∧ 1 % 2 ^ f.w = 1 ∧ f.off ≠ c) (hq : (f.off ∉ l ∧ f.off ∉ evRegs) ∧ c ∉ l ∧ c ∉ evRegs) :
    t.getF f = 1 ∧ t.regN c = min (s.regN c + 1) 0xFFFF := by
  obtain ⟨hw, hone, hc⟩ := hf
  obtain ⟨⟨hl, hev⟩, hlc, hevc⟩ := hq
  exact ⟨by rw [q.getF f hl hev, s.getF_raise hw hc, hone], by rw [q.regN hlc hevc, s.regN_raise_counter hw hc.symm]⟩

/-! ### The claims -/

theorem exec_registerWrite (off : BitVec 24) (v : Word) (s : State) : exec (.registerWrite off v) s = .next (s.busWrite off.toNat v) := rfl

/-- Settles O8: in these units no write acts, so that the bus ends at the plain write by access types. -/
theorem registerWrite : Obligations.RegisterWrite := by
  unfold Obligations.RegisterWrite
  intro off v s r ha hu hc hm hst hrow hwo hp hl hoff
  refine ⟨_, exec_registerWrite off v s, ?_⟩
  have hw : s.busWrite off.toNat v = s.setReg off.toNat (regNew r (s.reg off.toNat) v) := by
    rw [State.busWrite_of_aligned hp ha]
    simp [State.busWriteAt, hu, hc, hm, hrow, hst, State.mapLocked_of_unlocked hl, State.regWrite, State.lockWrite_of_unlocked hl,
      s.regAct_plain r v hoff, State.regPlain, hwo]
  rw [hw]
  exact ⟨by rw [State.reg_setReg, if_pos rfl, regNew], (Quiet.refl _ s).setReg (.inl (List.mem_singleton_self _))⟩

/-- Settles O9: what a LOCKMAP range holds ends at the lock violation before any register is reached. -/
theorem lockedWrite : Obligations.LockedWrite := by
  unfold Obligations.LockedWrite
  intro off v s ha hu hthere hp hl
  refine ⟨_, exec_registerWrite off v s, ?_⟩
  have hw : s.busWrite off.toNat v = s.lockViol off.toNat := by
    rw [State.busWrite_of_aligned hp ha]
    simp [State.busWriteAt, hu, hthere, hl]
  rw [hw]
  obtain ⟨hflag, hcount⟩ := raised_of_quiet (s.lockViol_event off.toNat) (by decide) (by decide)
  exact ⟨hflag, hcount, s.lockViol_quiet off.toNat⟩

/-- Settles O10: the four ends of a write that no register takes. -/
theorem unmappedAndAbsent : Obligations.UnmappedAndAbsent := by
  unfold Obligations.UnmappedAndAbsent
  refine ⟨fun off v s hp ha hu hc hm hrow => ?unmapped, fun off v s hp => ?reset, fun off v s hp ha => ?unaligned,
    fun off v s hpart ha hlo hhi hodd => ?absent⟩
  case unmapped =>
    refine ⟨_, exec_registerWrite off v s, ?_⟩
    have hw : s.busWrite off.toNat v = s.unmapped off.toNat := by
      rw [State.busWrite_of_aligned hp ha]
      simp [State.busWriteAt, hu, regThere_of_none hc hm hrow, hc, hm, hrow]
    rw [hw]
    obtain ⟨hflag, hcount⟩ := raised_of_quiet (s.unmapped_addr off.toNat) (by decide) (by decide)
    exact ⟨hflag, hcount, s.unmapped_quiet off.toNat⟩
  case reset => exact ⟨_, exec_registerWrite off v s, if_pos hp⟩
  case unaligned =>
    refine ⟨_, exec_registerWrite off v s, ?_⟩
    have hw : s.busWrite off.toNat v = s.busErr (0xF800000000 + off.toNat) := by
      rw [State.busWrite, if_neg (by rw [hp]; decide), if_pos ha]
    rw [hw]
    obtain ⟨hflag, hcount⟩ := raised_of_quiet (s.busErr_event (0xF800000000 + off.toNat)) (by decide) (by decide)
    exact ⟨hflag, hcount, s.busErr_quiet _⟩
  case absent =>
    have hu : s.absentUnit off.toNat = true := by simp [State.absentUnit, hpart, hlo, hhi, hodd]
    refine ⟨_, exec_registerWrite off v s, ?_⟩
    simp [State.busWrite, State.busWriteAt, ha, hu]

/-- Settles O7: the registers named are read from the reset table. -/
theorem resetValues : Obligations.ResetValues := by
  unfold Obligations.ResetValues
  refine ⟨?_, ?_, ?_, ?_, ?_, ?_, ?_, ?_, ?_, ?_, rfl, rfl, ?_⟩ <;> decide +kernel

end Sys2Proof.Machine

/-! ## What posting an event leaves alone (R339 to R346)

`EventBlind φ` says that `φ` reads nothing that an event posted can change: of the registers of `evRegs` none but the flags beside DROP, of
Hamper neither the outboxes nor the losses. Such a reading is the same after an event as before it, so that a field of the flags or the packet
in progress can be read through the events of a command. -/

namespace Sys2Proof.Machine

structure EventBlind {α : Type} (φ : State → α) : Prop where
  reg : ∀ s o v, o ∈ evRegs → o ≠ rMSG_EVT_FLAGS → φ (s.setReg o v) = φ s
  drop : ∀ s, φ (s.setF fMSG_EVT_FLAGS_DROP 1) = φ s
  hamper : ∀ (s : State) outbox boxHurt summary dropSince losses, φ { s with hamper := { s.hamper with
    outbox := outbox, boxHurt := boxHurt, summary := summary, dropSinceAlarm := dropSince, losses := losses } } = φ s
  spool : ∀ (s : State) x, φ { s with spool := x } = φ s
  wake : ∀ (s : State) x, φ { s with wakeDue := x } = φ s
  held : ∀ (s : State) x, φ { s with boot := { s.boot with held := x } } = φ s
  posted : ∀ (s : State) x, φ { s with posted := x } = φ s

section
variable {α : Type} {φ : State → α}

theorem EventBlind.bump (h : EventBlind φ) (s : State) {o : Nat} (ho : o ∈ evRegs) (hf : o ≠ rMSG_EVT_FLAGS) : φ (s.bump o) = φ s :=
  h.reg _ _ _ ho hf

theorem EventBlind.wakeNote (h : EventBlind φ) (s : State) (k : Nat) : φ (s.wakeNote k) = φ s := by
  unfold State.wakeNote
  split
  · rfl
  · exact h.wake s _

theorem EventBlind.spoolPut (h : EventBlind φ) (s : State) (k f c : Nat) (p : List Byte) : φ (s.spoolPut k f c p) = φ s := by
  unfold State.spoolPut
  split
  · rfl
  split
  · exact h.bump _ (by decide) (by decide)
  dsimp only
  split
  · exact (h.bump _ (by decide) (by decide)).trans (h.spool s _)
  split
  · exact (h.reg _ _ _ (by decide) (by decide)).trans (((h.spool _ _).trans (h.spool _ _)).trans (h.spool s _))
  · exact (h.spool _ _).trans (h.spool s _)

theorem EventBlind.takeSeq (h : EventBlind φ) (s : State) : φ s.takeSeq.2 = φ s := h.reg _ _ _ (by decide) (by decide)

theorem EventBlind.noteLoss (h : EventBlind φ) (s : State) (p : Nat) : φ (s.noteLoss p) = φ s := by
  have hcount : φ ((s.setF fMSG_EVT_FLAGS_DROP 1).bump rMSG_EVT_DROP_COUNT) = φ s :=
    (h.bump _ (by decide) (by decide)).trans (h.drop s)
  unfold State.noteLoss
  dsimp only
  split
  · exact ((h.hamper _ _ _ _ _ _).trans (h.hamper _ _ _ _ _ _)).trans hcount
  · exact (h.spoolPut _ _ _ _ _).trans ((h.hamper _ _ _ _ _ _).trans ((h.takeSeq _).trans ((h.hamper _ _ _ _ _ _).trans hcount)))

theorem EventBlind.boxPut (h : EventBlind φ) (s : State) (e : Ev) : φ (s.boxPut e) = φ s := by
  unfold State.boxPut
  dsimp only
  split
  · exact (h.reg _ _ _ (by decide) (by decide)).trans ((h.hamper _ _ _ _ _ _).trans (h.hamper s _ _ _ _ _))
  · exact h.hamper s _ _ _ _ _

theorem EventBlind.offer (h : EventBlind φ) (s : State) {e : Ev} (hp : e.kind.prio < 4) : φ (s.offer e) = φ s := by
  have hreg : ∀ p < 4, rMSG_EVT_DROP p ∈ evRegs ∧ rMSG_EVT_DROP p ≠ rMSG_EVT_FLAGS := by decide
  have hwake : φ (if e.kind.prio ≤ 1 then s.wakeNote 9 else s) = φ s := by
    split
    · exact h.wakeNote s 9
    · rfl
  obtain ⟨hmem, hne⟩ := hreg _ hp
  unfold State.offer
  generalize (if e.kind.prio ≤ 1 then s.wakeNote 9 else s) = u at hwake ⊢
  dsimp only
  split
  · exact (h.boxPut _ e).trans hwake
  · exact ((h.noteLoss _ _).trans (h.bump _ hmem hne)).trans hwake

theorem EventBlind.post (h : EventBlind φ) (s : State) {k : EvKind} (src data : Nat) (hp : k.prio < 4) : φ (s.post k src data) = φ s := by
  unfold State.post
  dsimp only
  split
  · exact h.offer s hp
  · exact h.held s _

theorem EventBlind.postGap (h : EventBlind φ) (s : State) {k : EvKind} (who gap src data : Nat) (hp : k.prio < 4) :
    φ (s.postGap k who gap src data) = φ s := by
  unfold State.postGap
  dsimp only
  split
  · exact (h.post _ src data hp).trans (h.posted s _)
  · rfl

theorem EventBlind.postOnce (h : EventBlind φ) (s : State) {k : EvKind} (who stamp src data : Nat) (hp : k.prio < 4) :
    φ (s.postOnce k who stamp src data) = φ s := by
  unfold State.postOnce
  dsimp only
  split
  · rfl
  · exact (h.post _ src data hp).trans (h.posted s _)

end

/-- The flags of MSG beside DROP. -/
theorem eventBlind_flag {lo w : Nat} (h : 1 ≤ lo) : EventBlind (fun s => s.getF ⟨rMSG_EVT_FLAGS, lo, w⟩) where
  reg s o v _ hf := s.getF_setReg_other v (Ne.symm hf)
  drop s := State.getF_setF_other _ _ _ _ (by decide) (.inr (.inr h))
  hamper _ _ _ _ _ _ := rfl
  spool _ _ := rfl
  wake _ _ := rfl
  held _ _ := rfl
  posted _ _ := rfl

theorem eventBlind_packet : EventBlind (fun s => s.hamper.packet) :=
  ⟨fun _ _ _ _ _ => rfl, fun _ => rfl, fun _ _ _ _ _ _ => rfl, fun _ _ => rfl, fun _ _ => rfl, fun _ _ => rfl, fun _ _ => rfl⟩

end Sys2Proof.Machine

/-! ## Events of the management cores (R13 to R18, R23)

Every command here marks its registers and posts at most one event after that; what the event leaves alone is read through `Quiet` and
`EventBlind`. -/

namespace Sys2Proof.Machine

/-- A command that the model carries out by `act`. -/
theorem does_next {c : Instr} {s t : State} {P : State → Prop} (hx : exec c s = .next t) (hp : P t) : Does c s P := ⟨t, hx, hp⟩

/-! ### HLV_STALE (R13) -/

/-- The frozen block temperatures once input `k` is stale. -/
def State.frozenAt (s : State) (k : Nat) : List (Nat × Word) :=
  if k = 1 then (List.range 1024).map (fun b => (b, s.reg (rHK_BLKTEMP b))) else s.hlv.frozen

theorem State.frozenAt_one (s : State) {k : Nat} (h : k = 1) :
    s.frozenAt k = (List.range 1024).map (fun b => (b, s.reg (rHK_BLKTEMP b))) := if_pos h

theorem State.frozenAt_other (s : State) {k : Nat} (h : k ≠ 1) : s.frozenAt k = s.hlv.frozen := if_neg h

/-- Input `k` is marked stale; its event is still to be posted. -/
def State.hlvMarked (s : State) (k : Nat) : State :=
  { s.setF ⟨rHK_HLV_STATUS, k, 1⟩ 1 with hlv := { s.hlv with frozen := s.frozenAt k } }

theorem rHK_BLKTEMP_ne_status (b : Nat) : rHK_BLKTEMP b ≠ rHK_HLV_STATUS := by
  show 0x32000 + 0x4 * b ≠ 0x30004
  omega

theorem State.hlvStaleOp_eq {s : State} {k : Nat} (hf : s.isF ⟨rHK_HLV_STATUS, k, 1⟩ = false) (hrun : s.time.frcRun = true)
    (hpast : s.hlvPast k = true) :
    s.hlvStaleOp k = (s.hlvMarked k).post evTHERMAL_HLV_STALE srcHK (bitsOf ((s.hlvMarked k).regN rHK_HLV_STATUS) 0 3) := by
  have hreg : ∀ b, (s.setF ⟨rHK_HLV_STATUS, k, 1⟩ 1).reg (rHK_BLKTEMP b) = s.reg (rHK_BLKTEMP b) :=
    fun b => by rw [State.reg_setF, if_neg (rHK_BLKTEMP_ne_status b)]
  have hhlv : (s.setF ⟨rHK_HLV_STATUS, k, 1⟩ 1).hlv = s.hlv := rfl
  by_cases hk : k = 1
  · subst hk
    simp [State.hlvStaleOp, State.hlvMarked, State.frozenAt, hf, hrun, hpast, hreg, hhlv]
  · simp [State.hlvStaleOp, State.hlvMarked, State.frozenAt, hf, hrun, hpast, hk, ← hhlv]

theorem State.hlvStaleOp_quiet {s : State} {k : Nat} (hf : s.isF ⟨rHK_HLV_STATUS, k, 1⟩ = false) (hrun : s.time.frcRun = true)
    (hpast : s.hlvPast k = true) : Quiet [] (s.hlvMarked k) (s.hlvStaleOp k) := by
  rw [State.hlvStaleOp_eq hf hrun hpast]
  exact (Quiet.refl _ _).post (by decide)

theorem State.hlvStaleOp_of_not {s : State} {k : Nat}
    (h : s.time.frcRun = false ∨ s.hlvPast k = false ∨ s.isF ⟨rHK_HLV_STATUS, k, 1⟩ = true) : s.hlvStaleOp k = s := by
  refine if_pos ?_
  tauto

/-- A bit of STATUS after input `k` is marked. -/
theorem State.isF_hlvMarked (s : State) {k j : Nat} (hk : k < 32) :
    (s.hlvMarked k).isF ⟨rHK_HLV_STATUS, j, 1⟩ = if j = k then true else s.isF ⟨rHK_HLV_STATUS, j, 1⟩ := by
  exact (s.isF_setF_bit 1 hk).trans (by rfl)

/-! ### MC_LOAD_WINDOW (R15, R16) -/

def State.withMc (s : State) (m : McLoad) : State := { s with mc := m }

@[simp] theorem State.withMc_getF (s : State) (m : McLoad) (f : Fld) : (s.withMc m).getF f = s.getF f := rfl
@[simp] theorem State.withMc_shed (s : State) (m : McLoad) : (s.withMc m).shed = s.shed := rfl

theorem Quiet.withMc {l : List Nat} {s u : State} (q : Quiet l s u) (m : McLoad) : Quiet l { s with mc := m } (u.withMc m) := by
  refine ⟨?_, q.regs⟩
  rw [State.withMc, q.rest]

/-- Both loads of a window. -/
def State.loadsSet (s : State) (a b : Nat) : State := (s.setF fTOP_MC_LOAD_LOAD_0 a).setF fTOP_MC_LOAD_LOAD_1 b

/-- The window's loads and its counts stand in the state; the shed level has not moved. -/
def State.loadsTaken (s : State) (a b : Nat) : State := (s.loadsSet a b).withMc
  { s.mc with hi := (if 180 < a + b then s.mc.hi + 1 else 0) % 3, lo := (if a + b < 140 then s.mc.lo + 1 else 0) % 3 }

theorem State.mcWindow_eq (s : State) (a b : Nat) :
    s.mcWindow a b =
      if (if 180 < a + b then s.mc.hi + 1 else 0) = 3 then (s.loadsTaken a b).setShed (min 3 ((s.loadsTaken a b).shed + 1))
      else if (if a + b < 140 then s.mc.lo + 1 else 0) = 3 then (s.loadsTaken a b).setShed ((s.loadsTaken a b).shed - 1)
      else s.loadsTaken a b := rfl

/-- The state in which a new shed level is announced. -/
theorem State.setShed_quiet (s : State) (level : Nat) : Quiet [] (s.setF fTOP_MC_LOAD_SHED_LEVEL level) (s.setShed level) ∨
    s.setShed level = s ∧ s.shed = level := by
  unfold State.setShed
  split
  · next h => exact .inr ⟨rfl, h⟩
  · exact .inl ((Quiet.refl _ _).postGap (by decide))

/-- A change of the shed level sets the level and leaves the loads. -/
structure ShedSet (level : Nat) (s t : State) : Prop where
  level : t.getF fTOP_MC_LOAD_SHED_LEVEL = level
  load0 : t.getF fTOP_MC_LOAD_LOAD_0 = s.getF fTOP_MC_LOAD_LOAD_0
  load1 : t.getF fTOP_MC_LOAD_LOAD_1 = s.getF fTOP_MC_LOAD_LOAD_1
  quiet : Quiet [rTOP_MC_LOAD] s t

theorem shedSet_setShed (s : State) {level : Nat} (hl : level < 256) : ShedSet level s (s.setShed level) := by
  obtain hq | ⟨hs, hlev⟩ := s.setShed_quiet level
  · refine ⟨?_, ?_, ?_, ((Quiet.refl _ s).setF (by decide)).trans (hq.mono (by simp))⟩
    · rw [hq.getF _ (by decide) (by decide), State.getF_setF _ _ _ (by decide)]
      exact Nat.mod_eq_of_lt hl
    · rw [hq.getF _ (by decide) (by decide), State.getF_setF_other _ _ _ _ (by decide) (by decide)]
    · rw [hq.getF _ (by decide) (by decide), State.getF_setF_other _ _ _ _ (by decide) (by decide)]
  · rw [hs]
    exact ⟨hlev, rfl, rfl, Quiet.refl _ s⟩

/-- The level that the counts of high and low windows give. -/
def State.shedNext (s : State) (a b : Nat) : Nat :=
  if (if 180 < a + b then s.mc.hi + 1 else 0) = 3 then min 3 (s.shed + 1)
  else if (if a + b < 140 then s.mc.lo + 1 else 0) = 3 then s.shed - 1 else s.shed

theorem State.shed_lt (s : State) : s.shed < 256 := bitsOf_lt ..

theorem State.shed_loadsTaken (s : State) (a b : Nat) : (s.loadsTaken a b).shed = s.shed := by
  rw [State.loadsTaken, State.withMc_shed, State.loadsSet, State.shed, State.getF_setF_other _ _ _ _ (by decide) (by decide),
    State.getF_setF_other _ _ _ _ (by decide) (by decide), State.shed]

theorem State.load0_loadsTaken (s : State) {a b : Nat} (ha : a < 256) : (s.loadsTaken a b).getF fTOP_MC_LOAD_LOAD_0 = a := by
  rw [State.loadsTaken, State.withMc_getF, State.loadsSet, State.getF_setF_other _ _ _ _ (by decide) (by decide),
    State.getF_setF _ _ _ (by decide)]
  exact Nat.mod_eq_of_lt ha

theorem State.load1_loadsTaken (s : State) {a b : Nat} (hb : b < 256) : (s.loadsTaken a b).getF fTOP_MC_LOAD_LOAD_1 = b := by
  rw [State.loadsTaken, State.withMc_getF, State.loadsSet, State.getF_setF _ _ _ (by decide)]
  exact Nat.mod_eq_of_lt hb

theorem State.loadsTaken_quiet (s : State) (a b : Nat) :
    Quiet [rTOP_MC_LOAD] { s with mc := (s.loadsTaken a b).mc } (s.loadsTaken a b) :=
  (((Quiet.refl _ s).setF (by decide)).setF (by decide)).withMc _

/-- What a load window does: the loads are taken, and the shed level follows the counts. -/
theorem State.mcWindow_shedSet (s : State) (a b : Nat) : ShedSet (s.shedNext a b) (s.loadsTaken a b) (s.mcWindow a b) := by
  have hlt := s.shed_lt
  rw [State.mcWindow_eq, State.shedNext, State.shed_loadsTaken]
  generalize (if 180 < a + b then s.mc.hi + 1 else 0) = hi
  generalize (if a + b < 140 then s.mc.lo + 1 else 0) = lo
  split
  · exact shedSet_setShed _ (by omega)
  split
  · exact shedSet_setShed _ (by omega)
  · exact ⟨s.shed_loadsTaken a b, rfl, rfl, Quiet.refl _ _⟩

/-! ### MC_HEARTBEAT_LOST (R17, R343) -/

/-- MC_LOST is set, and its event posted. -/
def State.mcLost (s : State) : State := (s.setF fSAFETY_STATUS_MC_LOST 1).sfEv evSAFETY_MC_HEARTBEAT_LOST 0 srcSC 0

theorem State.mcLost_quiet (s : State) : Quiet [] (s.setF fSAFETY_STATUS_MC_LOST 1) s.mcLost := (Quiet.refl _ _).postOnce (by decide)

theorem State.mcLost_packet (s : State) : s.mcLost.hamper.packet = s.hamper.packet := eventBlind_packet.postOnce _ _ _ _ _ (by decide)

/-- The takeover of the event queue, before its event: a packet in progress is dropped where another read it. -/
def State.ownerTaken (s : State) : State :=
  ((if s.getF fMSG_EVT_CFG_OWNER = 1 then s else s.evtSkip).setF fMSG_EVT_CFG_OWNER 1).raise fMSG_EVT_FLAGS_TAKEOVER rMSG_TAKEOVER_COUNT

theorem State.evtTakeover_of_auto {s : State} (h : s.isF fMSG_EVT_CFG_AUTO_TAKEOVER = true) :
    s.evtTakeover = s.ownerTaken.hostEv evHOST_EVT_TAKEOVER 0 srcMSG 0 := by
  simp only [State.evtTakeover, h]
  rfl

theorem State.evtTakeover_of_not_auto {s : State} (h : s.isF fMSG_EVT_CFG_AUTO_TAKEOVER = false) : s.evtTakeover = s := if_pos h

/-- The queue has been taken over. -/
structure OwnerTaken (s t : State) : Prop where
  owner : t.getF fMSG_EVT_CFG_OWNER = 1
  flag : t.isF fMSG_EVT_FLAGS_TAKEOVER = true
  count : t.regN rMSG_TAKEOVER_COUNT = min (s.regN rMSG_TAKEOVER_COUNT + 1) 0xFFFF
  packet : t.hamper.packet = if s.getF fMSG_EVT_CFG_OWNER = 1 then s.hamper.packet else []
  quiet : Quiet [rMSG_EVT_CFG, rMSG_TAKEOVER_COUNT] s t

theorem ownerTaken_evtTakeover {s : State} (h : s.isF fMSG_EVT_CFG_AUTO_TAKEOVER = true) : OwnerTaken s s.evtTakeover := by
  have hskip : Quiet [rMSG_EVT_CFG, rMSG_TAKEOVER_COUNT] s (if s.getF fMSG_EVT_CFG_OWNER = 1 then s else s.evtSkip) :=
    .ite (fun _ => Quiet.refl _ s) (fun _ => (Quiet.refl _ s).hamper)
  have hcount : (if s.getF fMSG_EVT_CFG_OWNER = 1 then s else s.evtSkip).regN rMSG_TAKEOVER_COUNT = s.regN rMSG_TAKEOVER_COUNT := by
    split <;> rfl
  have hpacket : s.ownerTaken.hamper.packet = if s.getF fMSG_EVT_CFG_OWNER = 1 then s.hamper.packet else [] := by
    unfold State.ownerTaken
    split <;> rfl
  have hq : Quiet [] s.ownerTaken s.evtTakeover := by
    rw [State.evtTakeover_of_auto h]
    exact (Quiet.refl _ _).postGap (by decide)
  refine ⟨?owner, ?flag, ?count, ?packet, ?quiet⟩
  case owner =>
    rw [hq.getF _ (by decide) (by decide), State.ownerTaken]
    simp [State.raise, State.getF_bump_other, State.getF_setF_other, State.getF_setF]
  case flag =>
    have hf := (eventBlind_flag (lo := 1) (w := 1) (Nat.le_refl 1)).postGap s.ownerTaken 0 (ticksMs 1000) srcMSG 0
      (k := evHOST_EVT_TAKEOVER) (by decide)
    have hset : s.ownerTaken.getF fMSG_EVT_FLAGS_TAKEOVER = 1 := State.getF_raise _ (by decide) (by decide)
    rw [State.evtTakeover_of_auto h, State.isF]
    exact beq_iff_eq.2 (hf.trans hset)
  case count =>
    rw [hq.regN (by decide) (by decide), State.ownerTaken, State.regN_raise_counter _ (by decide) (by decide),
      State.regN_setF_other _ _ (by decide), hcount]
  case packet =>
    rw [State.evtTakeover_of_auto h]
    exact (eventBlind_packet.postGap _ _ _ _ _ (by decide)).trans hpacket
  case quiet => exact ((hskip.setF (by decide)).raise (by decide) (by decide)).trans (hq.mono (by simp))

theorem exec_mcHeartbeatLost (s : State) : exec .mcHeartbeatLost s = .next (if s.boot.fwStarted = false ∨ s.isF fSAFETY_STATUS_MC_LOST = true
    ∨ s.getF fPWR_PWR_STATUS_CURRENT = 1 ∨ s.time.now < s.mc.beat + ticksMs 100 then s else s.mcLost.evtTakeover) := rfl

/-! ### Urgent rows (R23) -/

theorem exec_urgentEntry (n lead : Fin 4) (s : State) : exec (.urgentEntry n lead) s =
    .next (if s.boot.porst = false ∨ s.absentUnit (rCP_STATUS n) = true ∨ s.isF (fCP_STATUS_URGENT n) = true ∨ 4 ≤ lead.val then s
      else ((s.setF (fCP_PREFETCH_LEAD n) lead).setF (fCP_STATUS_URGENT n) 1).bump (rCP_URGENT_COUNT n)) := rfl

theorem exec_urgentExit (n : Fin 4) (lead : Byte) (s : State) : exec (.urgentExit n lead) s =
    .next (if s.boot.porst = false ∨ s.absentUnit (rCP_STATUS n) = true ∨ lead.toNat < 8 then s
      else (s.setF (fCP_PREFETCH_LEAD n) lead.toNat).setF (fCP_STATUS_URGENT n) 0) := rfl

/-- Settles O12: each command with its effect, and with none outside its conditions. -/
theorem managementEvents : Obligations.ManagementEvents := by
  unfold Obligations.ManagementEvents
  refine ⟨fun k s => ⟨fun hrun hpast hf => ?stale, fun h => ?notStale⟩, fun a b s => ⟨fun hfw => ?window, fun hfw => ?noWindow⟩,
    fun s => ⟨fun hp => ?beat, fun hp => ?noBeat⟩, fun s => ⟨fun hfw hl hc ht => ?lost, fun h => ?notLost⟩,
    fun n lead s => ⟨fun hp hu hf => ?urgent, fun h => ?notUrgent⟩, fun n lead s => ⟨fun hp hu hl => ?relaxed, fun h => ?notRelaxed⟩⟩
  case stale =>
    have hq := State.hlvStaleOp_quiet hf hrun hpast
    have hbit : ∀ j, (s.hlvStaleOp k).isF ⟨rHK_HLV_STATUS, j, 1⟩ = if j = k.val then true else s.isF ⟨rHK_HLV_STATUS, j, 1⟩ :=
      fun j => (hq.isF _ List.not_mem_nil (show rHK_HLV_STATUS ∉ evRegs by decide)).trans (s.isF_hlvMarked (by omega))
    have hhlv : (s.hlvStaleOp k).hlv = { s.hlv with frozen := s.frozenAt k } := by rw [hq.rest]; rfl
    refine does_next rfl ⟨by rw [hbit, if_pos rfl], fun j _ hj => by rw [hbit, if_neg hj], fun h1 => ?_, fun h1 => ?_, by rw [hhlv], ?_⟩
    · rw [hhlv]; exact s.frozenAt_one (congrArg Fin.val h1)
    · rw [hhlv]; exact s.frozenAt_other fun h => h1 (Fin.ext h)
    · rw [hhlv]
      exact ((Quiet.refl _ { s with hlv := { s.hlv with frozen := s.frozenAt k } }).setF (f := ⟨rHK_HLV_STATUS, k, 1⟩) (n := 1)
        (by simp)).trans (hq.mono (by simp))
  case notStale => exact does_next rfl (State.hlvStaleOp_of_not h)
  case window =>
    have hw := s.mcWindow_shedSet a b
    have hmc : (s.mcWindow a b).mc = (s.loadsTaken a b).mc := by rw [hw.quiet.rest]
    refine does_next (congrArg Host.Outcome.next (if_pos hfw)) ⟨?_, ?_, hmc, hw.level, ?_⟩
    · rw [hw.load0, s.load0_loadsTaken (by omega)]
    · rw [hw.load1, s.load1_loadsTaken (by omega)]
    · rw [hmc]
      exact (s.loadsTaken_quiet a b).trans hw.quiet
  case noWindow => exact does_next (congrArg Host.Outcome.next (if_neg (by rw [hfw]; decide))) rfl
  case beat =>
    refine does_next (congrArg Host.Outcome.next (if_pos hp)) ⟨?_, rfl, fun off h => ?_⟩
    · rw [State.isF_setF_bit _ _ (by decide)]; rfl
    · rw [State.reg_setF, if_neg h]; rfl
  case noBeat => exact does_next (congrArg Host.Outcome.next (if_neg (by rw [hp]; decide))) rfl
  case lost =>
    have hq := s.mcLost_quiet
    have hset : s.mcLost.isF fSAFETY_STATUS_MC_LOST = true := by
      rw [hq.isF _ (by decide) (by decide), State.isF_setF_bit _ _ (by decide)]; rfl
    have hcfg : ∀ f : Fld, f.off = rMSG_EVT_CFG → s.mcLost.getF f = s.getF f := fun f hf => by
      rw [hq.getF _ (by simp) (by rw [hf]; decide), State.getF_congr (s.reg_setF .. |>.trans (if_neg (by rw [hf]; decide)))]
    have hcount : s.mcLost.regN rMSG_TAKEOVER_COUNT = s.regN rMSG_TAKEOVER_COUNT := by
      rw [hq.regN (by decide) (by decide), State.regN_setF_other _ _ (by decide)]
    have hlost : Quiet [rSAFETY_STATUS, rMSG_EVT_CFG, rMSG_TAKEOVER_COUNT] s s.mcLost :=
      ((Quiet.refl _ s).setF (by decide)).trans (hq.mono (by simp))
    have hauto : s.mcLost.isF fMSG_EVT_CFG_AUTO_TAKEOVER = s.isF fMSG_EVT_CFG_AUTO_TAKEOVER := by
      rw [State.isF, hcfg _ rfl, State.isF]
    have hx : exec .mcHeartbeatLost s = .next s.mcLost.evtTakeover := by
      rw [exec_mcHeartbeatLost, if_neg (by simp [hfw, hl, hc, Nat.not_lt.2 ht])]
    cases h : s.isF fMSG_EVT_CFG_AUTO_TAKEOVER with
    | true =>
      have ho := ownerTaken_evtTakeover (hauto.trans h)
      refine does_next hx ⟨?_, fun _ => ⟨ho.owner, ho.flag, ?_, ?_⟩, fun hf => absurd hf (by decide), ?_⟩
      · rw [ho.quiet.isF _ (by decide) (by decide), hset]
      · rw [ho.count, hcount, Nat.min_comm, Nat.min_comm]
      · rw [ho.packet, hcfg _ rfl, s.mcLost_packet]
      · exact hlost.trans (ho.quiet.mono (by simp))
    | false =>
      rw [State.evtTakeover_of_not_auto (hauto.trans h)] at hx
      refine does_next hx ⟨hset, fun hf => absurd hf (by decide), fun _ => ⟨?_, ?_, s.mcLost_packet⟩, hlost⟩
      · rw [hq.regs _ (by decide) (by decide), State.reg_setF, if_neg (by decide)]
      · rw [hq.regs _ (by decide) (by decide), State.reg_setF, if_neg (by decide)]
  case notLost =>
    rw [Does, exec_mcHeartbeatLost, if_pos h]
    exact ⟨s, rfl, rfl⟩
  case urgent =>
    have hx := exec_urgentEntry n lead s
    rw [if_neg (by simp [hp, hu, hf, Nat.not_le.2 lead.isLt])] at hx
    have honly : OnlyRegs [rCP_PREFETCH n, rCP_STATUS n, rCP_URGENT_COUNT n] s
        (((s.setF (fCP_PREFETCH_LEAD n) lead).setF (fCP_STATUS_URGENT n) 1).bump (rCP_URGENT_COUNT n)) :=
      (((OnlyRegs.refl _ s).setF (by simp)).setF (by simp)).bump (by simp)
    refine does_next hx ⟨?_, ?_, ?_, honly.rest, fun off h1 h2 h3 => honly.regs off (by simp [h1, h2, h3])⟩
    · simp [State.getF_bump_other, State.getF_setF_other, State.getF_setF]
      omega
    · simp [State.isF, State.getF_bump_other, State.getF_setF]
    · simp [State.regN_bump, State.regN_setF_other]
  case notUrgent =>
    rw [Does, exec_urgentEntry, if_pos (by tauto)]
    exact ⟨s, rfl, rfl⟩
  case relaxed =>
    have hx := exec_urgentExit n lead s
    rw [if_neg (by simp [hp, hu, Nat.not_lt.2 hl])] at hx
    have honly : OnlyRegs [rCP_PREFETCH n, rCP_STATUS n] s ((s.setF (fCP_PREFETCH_LEAD n) lead.toNat).setF (fCP_STATUS_URGENT n) 0) :=
      ((OnlyRegs.refl _ s).setF (by simp)).setF (by simp)
    refine does_next hx ⟨?_, ?_, honly.rest, fun off h1 h2 => honly.regs off (by simp [h1, h2])⟩
    · simp [State.getF_setF_other, State.getF_setF, Nat.mod_eq_of_lt (show lead.toNat < 256 from lead.isLt)]
    · simp [State.isF, State.getF_setF]
  case notRelaxed =>
    rw [Does, exec_urgentExit, if_pos h]
    exact ⟨s, rfl, rfl⟩

end Sys2Proof.Machine

/-! ## Predicates, control flow and moves (R81, R83, R85, R87)

As with the arithmetic, an instruction's body ends with one write of its engine: a predicate, a scalar register or the pc. The result of each
kind of ending is said once, and each row cites it. -/

namespace Sys2Proof.Machine

/-! ### Predicate registers (R77, R81) -/

/-- Lane `k` of a predicate built from its lanes. -/
theorem foldr_bits (x : Nat → Bool) (l : List Nat) (j : Nat) :
    ((l.foldr (fun k acc => (x k).toNat + 2 * acc) 0).testBit j) = (l.map x).getD j false := by
  induction l generalizing j with
  | nil => simp
  | cons a l ih =>
    have hb : (x a).toNat ≤ 1 := Bool.toNat_le (x a)
    cases j with
    | zero => cases h : x a <;> simp [h, Nat.testBit_zero]
    | succ j =>
      have hdiv : ((x a).toNat + 2 * l.foldr (fun k acc => (x k).toNat + 2 * acc) 0) / 2 =
        l.foldr (fun k acc => (x k).toNat + 2 * acc) 0 := by omega
      simp only [List.foldr_cons, Nat.testBit_succ, hdiv, ih, List.map_cons, List.getD_cons_succ]

theorem predOf_getLsbD (x : Nat → Bool) {k : Nat} (hk : k < 32) : (predOf x).getLsbD k = x k := by
  rw [predOf, BitVec.getLsbD_ofNat, foldr_bits]
  simp [hk]

theorem Engine.p_setP (g : Engine) (d k : Nat) (w : Word) :
    (g.setP d w).p k = if k = d then (if d = 0 then 0xFFFFFFFF else w) else g.p k := by
  by_cases hd : d = 0
  · simp +contextual [Engine.setP, Engine.p, hd]
  · by_cases hk : k = d <;> simp [Engine.setP, Engine.p, hd, hk, tabGet_tabSet]

@[simp] theorem Engine.s_setP (g : Engine) (d k : Nat) (w : Word) : (g.setP d w).s k = g.s k := by
  unfold Engine.setP; split <;> rfl

@[simp] theorem Engine.v_setP (g : Engine) (d k : Nat) (w : Word) : (g.setP d w).v k = g.v k := by
  unfold Engine.setP; split <;> rfl

@[simp] theorem Engine.pc_setP (g : Engine) (d : Nat) (w : Word) : (g.setP d w).pc = g.pc := by
  unfold Engine.setP; split <;> rfl

@[simp] theorem State.issuedAt_rx (s : State) (n cyc : Nat) : ((s.issuedAt n cyc).eng n).rx = (s.eng n).rx := by rw [s.eng_issuedAt]
@[simp] theorem State.issuedAt_ry (s : State) (n cyc : Nat) : ((s.issuedAt n cyc).eng n).ry = (s.eng n).ry := by rw [s.eng_issuedAt]
@[simp] theorem State.issuedAt_slots (s : State) (n cyc : Nat) : ((s.issuedAt n cyc).eng n).slots = (s.eng n).slots := by rw [s.eng_issuedAt]
@[simp] theorem State.issuedAt_ch0 (s : State) (n cyc : Nat) : ((s.issuedAt n cyc).eng n).ch0 = (s.eng n).ch0 := by rw [s.eng_issuedAt]
@[simp] theorem State.issuedAt_ch1 (s : State) (n cyc : Nat) : ((s.issuedAt n cyc).eng n).ch1 = (s.eng n).ch1 := by rw [s.eng_issuedAt]

/-- A body that has set Pd from guarded lanes makes a predicate result. -/
theorem predResult_putP (e : Nat) (f : KvF) {x y : Nat → Bool} (lat issue cyc : Nat) (s : State) (hxy : ∀ k, k < 32 → x k = y k) :
    PredResult e f y s (State.finishK e (.step ((s.issuedAt e cyc).putP e f x lat) issue)) where
  only := ((EngineOnly.issuedAt e s cyc).updEng _).finishK_step issue
  pc := by simp [State.putP]
  bits k hk := by
    have hd : f.d.toNat = 0 ↔ f.d = 0 := (BitVec.toNat_inj (y := 0#5)).trans Iff.rfl
    simp only [State.finishK_step_p, State.putP, State.eng_updEng_same, Engine.p_due, Engine.p_setP, if_true, hd]
    split
    · exact (by decide : ∀ k < 32, (0xFFFFFFFF : Word).getLsbD k = true) k hk
    · rw [predOf_getLsbD _ hk, State.issuedAt_guard, hxy k hk]
  frame := by
    refine ⟨fun k => ?_, fun k => ?_, fun k hk => ?_⟩
    · simp [State.putP]
    · simp [State.putP]
    · simp [State.putP, Engine.p_setP, hk]

/-- An instruction that ends with a predicate result, whose lanes do not depend on the cycle of issue. -/
theorem does_of_keav_putP {e : Fin 16} {op lat : Nat} {h : KvShape} {f : KvF} {s : State} {c : Instr} {extra : List Nat}
    {x : State → Nat → Bool} {y : Nat → Bool} (hl : kvListed op = true) (hi : CanIssue e op h f s)
    (hx : exec c s = .next (s.keav e op f h extra (fun u => .step (u.putP e f (x u) lat) 1)))
    (hxy : ∀ cyc k, k < 32 → x (s.issuedAt e cyc) k = y k) : Does c s (PredResult e f y s) :=
  does_of_keav hl hi hx fun cyc => predResult_putP e f lat 1 cyc s (hxy cyc)

/-- The row's command gives Pd the row's comparison of Va and Vb, lane by lane. -/
def CompareRow (p : Nat × (Fin 16 → KvF → Instr) × (Half → Half → Bool)) : Prop :=
  ∀ (e : Fin 16) (f : KvF) (s : State), CanIssue e p.1 { guarded := true, d := .p, a := .v, b := .v } f s →
    Does (p.2.1 e f) s (PredResult e f (fun k => p.2.2 (lane ((s.eng e).v f.a.toNat) k) (lane ((s.eng e).v f.b.toNat) k)) s)

/-- The row's command gives Pd the row's function of Pa and Pb, bit by bit. -/
def PredicateRow (p : Nat × (Fin 16 → KvF → Instr) × (Bool → Bool → Bool)) : Prop :=
  ∀ (e : Fin 16) (f : KvF) (s : State), CanIssue e p.1 { guarded := true, d := .p, a := .p, b := .p } f s →
    Does (p.2.1 e f) s (PredResult e f (fun k => p.2.2 (((s.eng e).p f.a.toNat).getLsbD k) (((s.eng e).p f.b.toNat).getLsbD k)) s)

section
variable {op : Nat} {c : Fin 16 → KvF → Instr} {fc rc : Half → Half → Bool} {fb : Bool → Bool → Bool}

theorem compareRow_of_kCmp (hl : kvListed op = true) (hx : ∀ e f s, exec (c e f) s = .next (s.kCmp e op f fc))
    (hr : ∀ a b, fc a b = rc a b) : CompareRow (op, c, rc) :=
  fun e f s hi => does_of_keav_putP hl hi (hx e f s) fun cyc k _ => by simp only [State.issuedAt_v, hr]

theorem predicateRow_of_kPred (hl : kvListed op = true) (hx : ∀ e f s, exec (c e f) s = .next (s.kPred e op f fb)) :
    PredicateRow (op, c, fb) :=
  fun e f s hi => does_of_keav_putP hl hi (hx e f s) fun cyc k _ => by simp only [State.issuedAt_p]

end

theorem compareRow_of_mem_vectorCompares : ∀ p ∈ vectorCompares, CompareRow p := by
  simp only [vectorCompares, List.forall_mem_cons]
  exact ⟨
    compareRow_of_kCmp rfl (fun _ _ _ => rfl) (fun a b => rfl),
    compareRow_of_kCmp rfl (fun _ _ _ => rfl) (fun a b => rfl),
    compareRow_of_kCmp rfl (fun _ _ _ => rfl) (fun a b => rfl),
    compareRow_of_kCmp rfl (fun _ _ _ => rfl) (fun a b => rfl),
    List.forall_mem_nil _⟩

theorem predicateRow_of_mem_predicateOps : ∀ p ∈ predicateOps, PredicateRow p := by
  simp only [predicateOps, List.forall_mem_cons]
  exact ⟨predicateRow_of_kPred rfl (fun _ _ _ => rfl), predicateRow_of_kPred rfl (fun _ _ _ => rfl),
    predicateRow_of_kPred rfl (fun _ _ _ => rfl), List.forall_mem_nil _⟩

/-- The edge function at a pixel centre, in eighths and times 2^19, is four times the one of R87. -/
theorem redgeLane_eq (a b c : Word) (rx ry : Half) (k : Nat) :
    redgeLane a b c rx ry k = decide (0 ≤ a.toInt * (2 * ((rx.toNat + k : Nat) : Int) + 1)
      + b.toInt * (2 * (ry.toNat : Int) + 1) + 2 * c.toInt) := by
  have h : edgeAt a b c (8 * (rx.toNat + k : Nat) + 4) (8 * (ry.toNat : Nat) + 4)
      = 4 * (a.toInt * (2 * ((rx.toNat + k : Nat) : Int) + 1) + b.toInt * (2 * (ry.toNat : Int) + 1) + 2 * c.toInt) := by
    unfold edgeAt
    ring
  rw [redgeLane, h]
  exact decide_eq_decide.2 (by omega)

theorem edgeRegOk_of_le {f : KvF} (h1 : 1 ≤ f.a.toNat) (h2 : f.a.toNat ≤ 29) : edgeRegOk f = true := by
  simp [edgeRegOk, h1, h2]

/-- Settles O14: every compare and predicate instruction, and REDGE, ends with one predicate result. -/
theorem predicates : Obligations.Predicates := by
  unfold Obligations.Predicates
  refine ⟨compareRow_of_mem_vectorCompares, predicateRow_of_mem_predicateOps, ?pnot, ?pset, ?pld, ?redge⟩
  case pnot => exact fun e f s hi => does_of_keav_putP rfl hi rfl fun cyc k _ => by simp only [State.issuedAt_p]
  case pset => exact fun e f s hi => does_of_keav_putP rfl hi rfl fun cyc k _ => rfl
  case pld => exact fun e f s hi => does_of_keav_putP rfl hi rfl fun cyc k _ => by simp only [State.issuedAt_s]
  case redge =>
    intro e f s hi h1 h2
    refine does_of_keav rfl hi rfl fun cyc => ?_
    rw [edgeRegOk_of_le h1 h2, if_pos rfl]
    exact predResult_putP e f 2 1 cyc s fun k _ => by simp only [State.issuedAt_s, State.issuedAt_rx, State.issuedAt_ry, redgeLane_eq]

/-! ### The pc (R83) -/

/-- An engine that differs in its clock alone. -/
theorem State.finishK_goto (n : Nat) (u : State) (pc : Nat) :
    State.finishK n (.goto u pc) = u.updEng n (fun g => { g with cycle := g.cycle + 2, pc := pc }) := rfl

theorem EngineOnly.finishK_goto {n : Nat} {s u : State} (h : EngineOnly n s u) (pc : Nat) :
    EngineOnly n s (State.finishK n (.goto u pc)) := by
  rw [State.finishK_goto]
  exact h.updEng _

@[simp] theorem State.finishK_goto_pc (n : Nat) (u : State) (pc : Nat) : ((State.finishK n (.goto u pc)).eng n).pc = pc := by
  rw [State.finishK_goto, State.eng_updEng_same]

@[simp] theorem State.finishK_goto_s (n : Nat) (u : State) (pc k : Nat) : ((State.finishK n (.goto u pc)).eng n).s k = (u.eng n).s k := by
  rw [State.finishK_goto, State.eng_updEng_same]; rfl

@[simp] theorem State.finishK_goto_v (n : Nat) (u : State) (pc k : Nat) : ((State.finishK n (.goto u pc)).eng n).v k = (u.eng n).v k := by
  rw [State.finishK_goto, State.eng_updEng_same]; rfl

@[simp] theorem State.finishK_goto_p (n : Nat) (u : State) (pc k : Nat) : ((State.finishK n (.goto u pc)).eng n).p k = (u.eng n).p k := by
  rw [State.finishK_goto, State.eng_updEng_same]; rfl

/-- A body that changes no general register and goes on at the next instruction. -/
theorem branchResult_step {n : Nat} {s u : State} (ho : EngineOnly n s u) (hu : SameRegs (u.eng n) (s.eng n)) (issue : Nat) :
    BranchResult n ((s.eng n).pc + 1) s (State.finishK n (.step u issue)) where
  only := ho.finishK_step issue
  pc := by rw [State.finishK_step_pc, hu.pc]
  frame := ⟨fun k => by rw [State.finishK_step_s, hu.s], fun k => by rw [State.finishK_step_v, hu.v],
    fun k => by rw [State.finishK_step_p, hu.p]⟩

/-- A body that changes no general register and branches. -/
theorem branchResult_goto {n : Nat} {s u : State} (ho : EngineOnly n s u) (hu : SameRegs (u.eng n) (s.eng n)) (pc : Nat) :
    BranchResult n pc s (State.finishK n (.goto u pc)) where
  only := ho.finishK_goto pc
  pc := State.finishK_goto_pc ..
  frame := ⟨fun k => by rw [State.finishK_goto_s, hu.s], fun k => by rw [State.finishK_goto_v, hu.v],
    fun k => by rw [State.finishK_goto_p, hu.p]⟩

theorem sameRegs_issuedAt (n cyc : Nat) (s : State) : SameRegs ((s.issuedAt n cyc).eng n) (s.eng n) :=
  ⟨s.issuedAt_pc n cyc, s.issuedAt_s n cyc, s.issuedAt_v n cyc, s.issuedAt_p n cyc⟩

/-- A branch target inside the image's numbers is not cut (R80). -/
theorem target_mod {h : KvShape} {f : KvF} (hok : h.ok f = true) (ht : h.imm = .target) : f.imm.toNat % 8192 = f.imm.toNat := by
  have himm : immFieldOk h.imm f.imm = true := by
    simp only [KvShape.ok, Bool.and_eq_true] at hok
    exact hok.2
  rw [ht] at himm
  exact Nat.mod_eq_of_lt (of_decide_eq_true himm)

/-- The row's command branches to IMM where the row's condition holds of the engine, and goes on otherwise. -/
def BranchRow (p : Nat × (Fin 16 → KvF → Instr) × KvShape × (Engine → KvF → Bool)) : Prop :=
  ∀ (e : Fin 16) (f : KvF) (s : State), CanIssue e p.1 p.2.2.1 f s →
    Does (p.2.1 e f) s (BranchResult e (if p.2.2.2 (s.eng e) f then f.imm.toNat else (s.eng e).pc + 1) s)

theorem branchRow_of_kBranch {op : Nat} {c : Fin 16 → KvF → Instr} {h : KvShape} {fc : KvF → Engine → Bool} {r : Engine → KvF → Bool}
    (hl : kvListed op = true) (ht : h.imm = .target) (hx : ∀ e f s, exec (c e f) s = .next (s.kBranch e op f h (fc f)))
    (hr : ∀ f (g g' : Engine), SameRegs g g' → fc f g = r g' f) : BranchRow (op, c, h, r) := fun e f s hi =>
  does_of_keav hl hi (hx e f s) fun cyc => by
    have hc := hr f _ _ (sameRegs_issuedAt e cyc s)
    rw [hc]
    split
    · rw [target_mod hi.2 ht]
      exact branchResult_goto (EngineOnly.issuedAt e s cyc) (sameRegs_issuedAt e cyc s) _
    · exact branchResult_step (EngineOnly.issuedAt e s cyc) (sameRegs_issuedAt e cyc s) 1

theorem branchRow_of_mem_branchOps : ∀ p ∈ branchOps, BranchRow p := by
  simp only [branchOps, List.forall_mem_cons]
  exact ⟨
    branchRow_of_kBranch rfl rfl (fun _ _ _ => rfl) (fun _ _ _ _ => rfl),
    branchRow_of_kBranch rfl rfl (fun _ _ _ => rfl) (fun f g g' h => by rw [h.s]; rfl),
    branchRow_of_kBranch rfl rfl (fun _ _ _ => rfl) (fun f g g' h => by rw [h.s]; exact decide_not.symm),
    branchRow_of_kBranch rfl rfl (fun _ _ _ => rfl) (fun f g g' h => by rw [h.s, h.s]; rfl),
    branchRow_of_kBranch rfl rfl (fun _ _ _ => rfl) (fun f g g' h => by rw [h.p]; exact decide_not.symm),
    branchRow_of_kBranch rfl rfl (fun _ _ _ => rfl) (fun f g g' h => by rw [h.p]; rfl),
    List.forall_mem_nil _⟩

/-- What a body that has set Sd leaves, wherever the engine goes on. -/
theorem sameRegs_putS_of_eq {e : Nat} {d : BitVec 5} {v w : Word} {lat cyc : Nat} {s : State} (h : v = w) :
    SameRegs (((s.issuedAt e cyc).putS e d v lat).eng e) ((s.eng e).setS d.toNat w) := h ▸ sameRegs_putS e d v lat cyc s

theorem keepsAllBut_setS {g h : Engine} {d : Nat} {v : Word} (hs : ∀ k, h.s k = (g.setS d v).s k) (hv : ∀ k, h.v k = g.v k)
    (hp : ∀ k, h.p k = g.p k) : KeepsAllBut d g h :=
  ⟨fun k hk => by rw [hs, Engine.s_setS, if_neg hk], hv, hp⟩

/-- Settles O15: each row ends with the pc that it names. -/
theorem controlFlow : Obligations.ControlFlow := by
  unfold Obligations.ControlFlow
  refine ⟨?nop, branchRow_of_mem_branchOps, ?call, ?ret, ?loop⟩
  case nop =>
    exact fun e f s hi => does_of_keav rfl hi rfl fun cyc =>
      branchResult_step (EngineOnly.issuedAt e s cyc) (sameRegs_issuedAt e cyc s) 1
  case call =>
    refine fun e f s hi => does_of_keav rfl hi rfl fun cyc => ?_
    have hput : SameRegs (((s.issuedAt e cyc).putS e 31 (BitVec.ofNat 32 (((s.issuedAt e cyc).eng e).pc + 1)) 1).eng e)
        ((s.eng e).setS 31 (BitVec.ofNat 32 ((s.eng e).pc + 1))) := sameRegs_putS_of_eq (d := 31) (by rw [State.issuedAt_pc])
    refine ⟨((EngineOnly.issuedAt e s cyc).updEng _).finishK_goto _, (State.finishK_goto_pc ..).trans (target_mod hi.2 rfl), ?_, ?_⟩
    · rw [State.finishK_goto_s, hput.s, Engine.s_setS]
      rfl
    · exact keepsAllBut_setS (fun k => (State.finishK_goto_s ..).trans (hput.s k))
        (fun k => by rw [State.finishK_goto_v, hput.v, Engine.v_setS]) (fun k => by rw [State.finishK_goto_p, hput.p, Engine.p_setS])
  case ret =>
    exact fun e f s hi => does_of_keav rfl hi rfl fun cyc =>
      s.issuedAt_s e cyc 31 ▸ branchResult_goto (EngineOnly.issuedAt e s cyc) (sameRegs_issuedAt e cyc s) _
  case loop =>
    refine fun e f s hi ha => does_of_keav rfl hi rfl fun cyc => ?_
    have ha0 : f.a.toNat ≠ 0 := fun h => ha (BitVec.eq_of_toNat_eq h)
    have hput := sameRegs_putS e f.a (((s.issuedAt e cyc).eng e).s f.a.toNat - 1) 1 cyc s
    have honly := (EngineOnly.issuedAt e s cyc).updEng (fun g => (g.setS f.a.toNat (((s.issuedAt e cyc).eng e).s f.a.toNat - 1)).due
      (keyS f.a.toNat) 1)
    have hval : (((s.issuedAt e cyc).putS e f.a (((s.issuedAt e cyc).eng e).s f.a.toNat - 1) 1).eng e).s f.a.toNat
        = (s.eng e).s f.a.toNat - 1 := by
      rw [hput.s, Engine.s_setS, if_pos rfl, if_neg ha0, State.issuedAt_s]
    have hone : (s.eng e).s f.a.toNat - 1 = 0 ↔ (s.eng e).s f.a.toNat = 1 := sub_eq_zero
    simp only [hval, hone]
    split
    · refine ⟨honly.finishK_step 1, by rw [State.finishK_step_s]; exact hval, by rw [State.finishK_step_pc, hput.pc, Engine.pc_setS], ?_⟩
      exact keepsAllBut_setS (fun k => (State.finishK_step_s ..).trans (hput.s k))
        (fun k => by rw [State.finishK_step_v, hput.v, Engine.v_setS]) (fun k => by rw [State.finishK_step_p, hput.p, Engine.p_setS])
    · refine ⟨honly.finishK_goto _, by rw [State.finishK_goto_s]; exact hval,
        (State.finishK_goto_pc ..).trans (target_mod hi.2 rfl), ?_⟩
      exact keepsAllBut_setS (fun k => (State.finishK_goto_s ..).trans (hput.s k))
        (fun k => by rw [State.finishK_goto_v, hput.v, Engine.v_setS]) (fun k => by rw [State.finishK_goto_p, hput.p, Engine.p_setS])

end Sys2Proof.Machine

/-! ## Scalar moves and local loads (R83, R84, R86 to R88) -/

namespace Sys2Proof.Machine

/-! ### What an update of one engine leaves of the rest -/

@[simp] theorem State.updEng_reg (s : State) (n : Nat) (F : Engine → Engine) (off : Nat) : (s.updEng n F).reg off = s.reg off := rfl
@[simp] theorem State.updEng_lampNs (s : State) (n : Nat) (F : Engine → Engine) : (s.updEng n F).lampNs = s.lampNs := rfl
@[simp] theorem State.updEng_fence (s : State) (n : Nat) (F : Engine → Engine) (k : Nat) : (s.updEng n F).fence k = s.fence k := rfl
@[simp] theorem State.updEng_ecc (s : State) (n : Nat) (F : Engine → Engine) : (s.updEng n F).ecc = s.ecc := rfl
@[simp] theorem State.updEng_byte (s : State) (n : Nat) (F : Engine → Engine) (a : Nat) : (s.updEng n F).byte a = s.byte a := rfl
@[simp] theorem State.updEng_bytes (s : State) (n : Nat) (F : Engine → Engine) (a k : Nat) : (s.updEng n F).bytes a k = s.bytes a k := rfl
@[simp] theorem State.updEng_loadN (s : State) (n : Nat) (F : Engine → Engine) (a k : Nat) : (s.updEng n F).loadN a k = s.loadN a k := rfl

theorem State.updEng_texel (s : State) (n : Nat) (F : Engine → Engine) (e : Nat) (d : SampDesc) (x y : Nat) :
    (s.updEng n F).texel e d x y = s.texel e d x y := rfl

theorem State.updEng_sampLane (s : State) (n : Nat) (F : Engine → Engine) (e : Nat) (d : SampDesc) (x y : Half) :
    (s.updEng n F).sampLane e d x y = s.sampLane e d x y := by
  simp only [State.sampLane, State.updEng_texel]

theorem State.updEng_sampnLane (s : State) (n : Nat) (F : Engine → Engine) (e : Nat) (d : SampDesc) (x y : Half) :
    (s.updEng n F).sampnLane e d x y = s.sampnLane e d x y := by
  simp only [State.sampnLane, State.updEng_texel]

/-! ### Moves into scalar registers -/

/-- An instruction that ends with a scalar result which does not depend on the cycle of issue. -/
theorem does_of_keav_putS {e : Fin 16} {op lat : Nat} {h : KvShape} {f : KvF} {s : State} {c : Instr} {extra : List Nat}
    {x : State → Word} {y : Word} (hl : kvListed op = true) (hi : CanIssue e op h f s)
    (hx : exec c s = .next (s.keav e op f h extra (fun u => .step (u.putS e f.d (x u) lat) 1)))
    (hxy : ∀ cyc, x (s.issuedAt e cyc) = y) : Does c s (ScalarResult e f.d y s) :=
  does_of_keav hl hi hx fun cyc => hxy cyc ▸ scalarResult_putS e f.d (x (s.issuedAt e cyc)) lat 1 cyc s

/-- MOVSPR of a special register whose read changes nothing. -/
theorem does_movspr_of_read {e : Fin 16} {f : KvF} {s : State} {k : Nat} {v : Word}
    (hi : CanIssue e 0x21 { d := .s, imm := .any } f s) (hk : f.imm.toNat % 256 = k)
    (hread : ∀ cyc, (s.issuedAt e cyc).readSpr e k = (v, s.issuedAt e cyc)) : Does (.movspr e f) s (ScalarResult e f.d v s) :=
  does_of_keav rfl hi rfl fun cyc => by
    rw [hk, hread]
    exact scalarResult_putS e f.d v 2 1 cyc s

/-- A scalar result keeps the agreement of two engines. -/
theorem sameRegs_eng_putS {u : State} {e : Nat} {g : Engine} (hu : SameRegs (u.eng e) g) (d : BitVec 5) (v : Word) (lat : Nat) :
    SameRegs ((u.putS e d v lat).eng e) (g.setS d.toNat v) := by
  rw [State.putS, State.eng_updEng_same]
  exact ⟨by simpa [Engine.pc_setS] using hu.pc, fun k => by simp [Engine.s_setS, hu.s], fun k => by simp [Engine.v_setS, hu.v],
    fun k => by simp [Engine.p_setS, hu.p]⟩

/-- MOVSPR of LT_LO captures LT_HI, which is no general register. -/
theorem does_movspr_ltLo {e : Fin 16} {f : KvF} {s : State} (hi : CanIssue e 0x21 { d := .s, imm := .any } f s)
    (hk : f.imm.toNat % 256 = 6) : Does (.movspr e f) s (ScalarResult e f.d (BitVec.ofNat 32 s.lampNs) s) :=
  does_of_keav rfl hi rfl fun cyc => by
    rw [hk]
    refine scalarResult_of_setS (((EngineOnly.issuedAt e s cyc).updEng _).updEng _) (sameRegs_eng_putS ?_ ..) 1
    show SameRegs (State.eng (State.updEng _ _ _) _) _
    rw [State.eng_updEng_same, s.eng_issuedAt]
    exact ⟨rfl, fun _ => rfl, fun _ => rfl, fun _ => rfl⟩

theorem popCount_eq_countP (w : Word) : popCount w = (List.range 32).countP (fun k => w.getLsbD k) :=
  List.countP_eq_length_filter.symm

/-- The sum over the lanes that the guard lets through. -/
theorem sum_map_filter (l : List Nat) (p : Nat → Bool) (x : Nat → Nat) :
    ((l.filter p).map x).sum = (l.map fun k => if p k then x k else 0).sum := by
  induction l with
  | nil => rfl
  | cons a l ih => cases h : p a <;> simp [h, ih]

theorem State.dmaStatus_of_empty {s : State} {n : Nat} (h0 : (s.eng n).ch0 = []) (h1 : (s.eng n).ch1 = []) : s.dmaStatus n = (0, s) := by
  simp [State.dmaStatus, h0, h1]

/-- Settles O16: each row ends with one scalar result. -/
theorem scalarMoves : Obligations.ScalarMoves := by
  unfold Obligations.ScalarMoves
  refine ⟨?li, ?pmov, ?pcnt, ?vext, ?vsum, ?movspr, ?dmastat, ?frd, ?mbcount⟩
  case li => exact fun e f s hi => does_of_keav_putS rfl hi rfl fun cyc => rfl
  case pmov => exact fun e f s hi => does_of_keav_putS rfl hi rfl fun cyc => by simp only [State.issuedAt_p]
  case pcnt => exact fun e f s hi => does_of_keav_putS rfl hi rfl fun cyc => by simp only [State.issuedAt_p, popCount_eq_countP]
  case vext => exact fun e f s hi => does_of_keav_putS rfl hi rfl fun cyc => by simp only [State.issuedAt_v, BitVec.ofNat_toNat]
  case vsum =>
    exact fun e f s hi => does_of_keav_putS rfl hi rfl fun cyc => by
      simp only [Engine.lanes, State.issuedAt_v, State.issuedAt_guard, sum_map_filter]
  case movspr =>
    intro e f s hi hk
    simp only [List.mem_cons, List.not_mem_nil, or_false] at hk
    obtain h | h | h | h | h | h | h | h | h | h | h := hk
    all_goals rw [h]
    · exact does_movspr_of_read hi h fun cyc => rfl
    · exact does_movspr_of_read hi h fun cyc => by simp only [State.readSpr, s.eng_issuedAt]
    · exact does_movspr_of_read hi h fun cyc => by simp only [State.readSpr, s.eng_issuedAt]
    · exact does_movspr_of_read hi h fun cyc => by simp only [State.readSpr, s.eng_issuedAt, BitVec.ofNat_toNat]
    · exact does_movspr_of_read hi h fun cyc => by simp only [State.readSpr, s.eng_issuedAt, BitVec.ofNat_toNat]
    · exact does_movspr_ltLo hi h
    · exact does_movspr_of_read hi h fun cyc => by simp only [State.readSpr, s.eng_issuedAt]
    · exact does_movspr_of_read hi h fun cyc => rfl
    · exact does_movspr_of_read hi h fun cyc => rfl
    · exact does_movspr_of_read hi h fun cyc => rfl
    · exact does_movspr_of_read hi h fun cyc => rfl
  case dmastat =>
    exact fun e f s hi h0 h1 => does_of_keav rfl hi rfl fun cyc => by
      rw [State.dmaStatus_of_empty ((s.issuedAt_ch0 e cyc).trans h0) ((s.issuedAt_ch1 e cyc).trans h1)]
      exact scalarResult_putS e f.d 0 2 1 cyc s
  case frd =>
    exact fun e f s hi => does_of_keav_putS rfl hi rfl fun cyc => by
      rw [State.issuedAt, State.updEng_fence, State.fence, Nat.mod_mod]
  case mbcount =>
    exact fun e f s hi => does_of_keav_putS rfl hi rfl fun cyc => by
      rw [Engine.waiting, State.issuedAt_slots, List.countP_eq_length_filter]

/-! ### Reads of local data (R78, R84) -/

theorem State.bytes_drop_take (s : State) {a n i m : Nat} (h : i + m ≤ n) : ((s.bytes a n).drop i).take m = s.bytes (a + i) m := by
  have htake : (List.range' (a + i * 1) (n - i)).take m = List.range' (a + i) m := by
    obtain ⟨r, hr⟩ : ∃ r, n - i = m + r := ⟨n - i - m, by omega⟩
    rw [mul_one, hr, ← List.range'_append, List.take_left' List.length_range']
  rw [State.bytes_eq, State.bytes_eq, ← List.map_drop, ← List.map_take, List.drop_range', htake]

/-- A halfword of bytes read is the halfword in memory. -/
theorem halfAt_bytes (s : State) {a n k : Nat} (h : 2 * k + 2 ≤ n) : halfAt (s.bytes a n) k = BitVec.ofNat 16 (s.loadN (a + 2 * k) 2) := by
  rw [halfAt, s.bytes_drop_take h, State.loadN]

theorem ldCheck_of_ok {a n al : Nat} (ha : a % al = 0) (hr : a + n ≤ 0x20000) : ldCheck a n al = none := by
  rw [ldCheck, if_neg (not_not.2 ha), if_neg (Nat.not_lt.2 hr)]

/-- An aligned access inside local data without a word in error. -/
theorem State.ldRead_of_ok {s : State} {a len al : Nat} (hs : s.ecc.synd = []) (ha : a % al = 0) (hr : a + len ≤ 0x20000) (n : Nat) :
    s.ldRead n a len al = (.ok (s.bytes (ldBase n + a) len) 0, s) := by
  simp [State.ldRead, ldCheck_of_ok ha hr, State.beCheck_of_no_synd hs]

theorem State.synd_issuedAt {e : Fin 16} {op : Nat} {h : KvShape} {f : KvF} {s : State} (hi : CanIssue e op h f s) (cyc : Nat) :
    (s.issuedAt e cyc).ecc.synd = [] := hi.1.1.1

@[simp] theorem State.issuedAt_addr (s : State) (n cyc : Nat) (f : KvF) : ((s.issuedAt n cyc).eng n).addr f = (s.eng n).addr f := by
  simp [Engine.addr]

@[simp] theorem State.issuedAt_laneAddr (s : State) (n cyc : Nat) (f : KvF) (k : Nat) :
    ((s.issuedAt n cyc).eng n).laneAddr f k = (s.eng n).laneAddr f k := by
  simp [Engine.laneAddr]

@[simp] theorem State.issuedAt_lanes (s : State) (n cyc : Nat) (f : KvF) : ((s.issuedAt n cyc).eng n).lanes f = (s.eng n).lanes f := by
  exact List.filter_congr fun k _ => State.issuedAt_guard s n cyc f k

/-- A scalar load whose address is right. -/
theorem does_kLoad {e : Fin 16} {op len : Nat} {f : KvF} {s : State} {c : Instr} (hl : kvListed op = true)
    (hi : CanIssue e op { d := .s, a := .s, imm := .any } f s) (hx : exec c s = .next (s.kLoad e op f len))
    (ha : (s.eng e).addr f % len = 0) (hr : (s.eng e).addr f + len ≤ 0x20000) :
    Does c s (ScalarResult e f.d (BitVec.ofNat 32 (s.loadN (ldBase e + (s.eng e).addr f) len)) s) :=
  does_of_keav hl hi hx fun cyc => by
    rw [State.issuedAt_addr, State.ldRead_of_ok (State.synd_issuedAt hi cyc) ha hr]
    exact scalarResult_putS e f.d _ 3 1 cyc s

/-! ### Reads by lanes (R84, R88) -/

/-- Reads by lanes meet no error where no word holds one. -/
theorem State.foldl_beCheck {s : State} (hs : s.ecc.synd = []) (b len : Nat) (l : List Nat) :
    l.foldl (fun (p : (Bool × Nat) × State) a => ((p.1.1 || (p.2.beCheck (b + a) len).1.1, p.1.2 + (p.2.beCheck (b + a) len).1.2),
      (p.2.beCheck (b + a) len).2)) ((false, 0), s) = ((false, 0), s) := by
  induction l with
  | nil => rfl
  | cons a l ih => rw [List.foldl_cons]; simpa only [State.beCheck_of_no_synd hs, Bool.or_self, Nat.add_zero] using ih

theorem laneTrap_of_ok {l : List Nat} (h : ∀ a ∈ l, a % 2 = 0 ∧ a + 2 ≤ 0x20000) : laneTrap l = none := by
  rw [laneTrap, List.head?_eq_none_iff, List.filterMap_eq_nil_iff]
  exact fun a ha => ldCheck_of_ok (h a ha).1 (h a ha).2

theorem Engine.mem_lanes {g : Engine} {f : KvF} {k : Nat} : k ∈ g.lanes f ↔ k < 32 ∧ g.guard f k = true := by
  simp [Engine.lanes]

/-- The lanes that access local data keep to its limits. -/
theorem laneAddrs_ok {g : Engine} {f : KvF}
    (h : ∀ k, k < 32 → g.guard f k = true → g.laneAddr f k % 2 = 0 ∧ g.laneAddr f k + 2 ≤ 0x20000) :
    ∀ a ∈ (g.lanes f).map (g.laneAddr f), a % 2 = 0 ∧ a + 2 ≤ 0x20000 := by
  intro a ha
  obtain ⟨k, hk, rfl⟩ := List.mem_map.1 ha
  obtain ⟨hk32, hguard⟩ := Engine.mem_lanes.1 hk
  exact h k hk32 hguard

/-- The table of VLUT, as the lanes read it. -/
theorem vlutLane_bytes (s : State) (a : Nat) (v : Half) :
    vlutLane ((List.range 257).map (fun i => (halfAt (s.bytes a 514) i).toNat)) v =
      (let t := fun (i : Nat) => (s.loadN (a + 2 * i) 2 : Int)
       BitVec.ofInt 16 (t (v.toNat / 256) + ((t (v.toNat / 256 + 1) - t (v.toNat / 256)) * ((v.toNat % 256 : Nat) : Int) + 128) / 256)) := by
  have hload : ∀ i, s.loadN (a + 2 * i) 2 < 65536 := fun i => by
    rw [State.loadN, State.bytes_eq]
    simp only [List.range', List.map_cons, List.map_nil, ofLe]
    omega
  have hnth : ∀ i, i < 257 → nth 0 ((List.range 257).map (fun i => (halfAt (s.bytes a 514) i).toNat)) i = s.loadN (a + 2 * i) 2 := by
    intro i hi
    rw [nth, List.getD_eq_getElem?_getD, List.getElem?_map, List.getElem?_range hi, Option.map_some, Option.getD_some,
      halfAt_bytes s (by omega), BitVec.toNat_ofNat, Nat.mod_eq_of_lt (hload i)]
  have hv := v.isLt
  simp only [vlutLane]
  rw [hnth _ (by omega), hnth _ (by omega)]

/-- SAMP and SAMPN through a descriptor with pixels. -/
theorem does_kSamp {e : Fin 16} {op issue lat : Nat} {four : Bool} {f : KvF} {s : State} {c : Instr} {d : SampDesc} {y : Nat → Half}
    (hl : kvListed op = true) (hi : CanIssue e op { guarded := true, d := .v, a := .v, b := .v, c := .s } f s)
    (hx : exec c s = .next (s.kSamp e op f four issue lat)) (ha : ((s.eng e).s f.c.toNat).toNat % 16 = 0)
    (hr : ((s.eng e).s f.c.toNat).toNat + 16 ≤ 0x20000)
    (hd : sampDesc (s.bytes (ldBase e + ((s.eng e).s f.c.toNat).toNat) 16) = some d) (hw : 0 < d.width) (hh : 0 < d.height)
    (hy : ∀ k, (if four then s.sampLane e d (lane ((s.eng e).v f.a.toNat) k) (lane ((s.eng e).v f.b.toNat) k)
      else s.sampnLane e d (lane ((s.eng e).v f.a.toNat) k) (lane ((s.eng e).v f.b.toNat) k)) = y k) :
    Does c s (VectorResult e f y s) :=
  does_of_keav hl hi hx fun cyc => by
    have hs := State.synd_issuedAt hi cyc
    have hbytes : ∀ a n, (s.issuedAt e cyc).bytes a n = s.bytes a n := fun a n => s.updEng_bytes e _ a n
    dsimp only
    rw [State.issuedAt_s, State.ldRead_of_ok hs ha hr]
    dsimp only
    rw [hbytes, hd]
    dsimp only
    rw [if_neg (by omega)]
    erw [State.foldl_beCheck hs]
    refine vectorResult_putV e f lat _ cyc s fun k _ => ?_
    simp only [State.issuedAt_v]
    rw [← hy k, State.issuedAt, State.updEng_sampLane, State.updEng_sampnLane]

/-- Settles O17: an aligned access inside local data reads the bytes there, whatever the instruction makes of them. -/
theorem localLoads : Obligations.LocalLoads := by
  unfold Obligations.LocalLoads
  refine ⟨?ldw, ?ldh, ?vld, ?vgather, ?vlut, ?samp, ?rcov⟩
  case ldw => exact fun e f s hi ha hr => does_kLoad rfl hi rfl ha hr
  case ldh => exact fun e f s hi ha hr => does_kLoad rfl hi rfl ha hr
  case vld =>
    refine fun e f s hi ha hr => does_of_keav rfl hi rfl fun cyc => ?_
    rw [State.issuedAt_addr, State.ldRead_of_ok (State.synd_issuedAt hi cyc) ha hr]
    exact vectorResult_putV e f 4 _ cyc s fun k hk => halfAt_bytes s (by omega)
  case vgather =>
    refine fun e f s hi h => does_of_keav rfl hi rfl fun cyc => ?_
    have hlanes : ((s.issuedAt e cyc).eng e).laneAddr f = (s.eng e).laneAddr f := funext (s.issuedAt_laneAddr e cyc f)
    simp only [hlanes, State.issuedAt_lanes, laneTrap_of_ok (laneAddrs_ok h)]
    erw [State.foldl_beCheck (State.synd_issuedAt hi cyc)]
    exact vectorResult_putV e f _ _ cyc s fun k _ => rfl
  case vlut =>
    refine fun e f s hi ha hr => does_of_keav rfl hi rfl fun cyc => ?_
    simp only [State.issuedAt_s, State.ldRead_of_ok (State.synd_issuedAt hi cyc) ha hr, State.issuedAt_v]
    exact vectorResult_putV e f 6 _ cyc s fun k _ => vlutLane_bytes s _ _
  case samp =>
    refine fun e f s d op hi ha hr hd hw hh => ⟨fun hop => ?_, fun hop => ?_⟩
    · exact does_kSamp rfl (hop ▸ hi) rfl ha hr hd hw hh fun k => rfl
    · exact does_kSamp rfl (hop ▸ hi) rfl ha hr hd hw hh fun k => rfl
  case rcov =>
    intro e f s hi h1 h2
    refine does_of_keav rfl hi rfl fun cyc => ?_
    rw [edgeRegOk_of_le h1 h2, if_pos rfl]
    exact vectorResult_putV e f 4 2 cyc s fun k _ => by simp only [State.issuedAt_s, State.issuedAt_rx, State.issuedAt_ry]

end Sys2Proof.Machine

/-! ## Local stores (R81, R84) -/

namespace Sys2Proof.Machine

/-! ### Writes of memory that meet no error -/

/-- Where no word holds an error and no injection is armed, a write of memory places its bytes and does nothing else. -/
theorem State.writeMem_of_clean {s : State} (h : Clean s) (a : Nat) (bs : List Byte) : s.writeMem a bs = s.setBytes a bs := by
  obtain ⟨hsynd, harm⟩ := h
  have hinject : ∀ r w, (s.setBytes a bs).injectInto r w = s.setBytes a bs := fun r w =>
    if_neg fun hc => absurd (harm.symm.trans hc.1) (by decide)
  simp only [State.writeMem, State.dirtyWords, hsynd, List.filter_nil, List.map_nil, List.foldl_nil, hinject]
  split <;> rfl

theorem State.ldPut_of_clean {s : State} (h : Clean s) (n a : Nat) (bs : List Byte) :
    s.ldPut n a bs = ((false, 0), s.setBytes (ldBase n + a) bs) := by
  have hdirty : s.dirtyWords (ldBase n + a) bs.length = [] := by simp [State.dirtyWords, h.1]
  simp [State.ldPut, hdirty, State.writeMem_of_clean h]

/-- Runs of bytes written one after the other, each at its offset from `b`. -/
def State.setAll (s : State) (b : Nat) (ws : List (Nat × List Byte)) : State := ws.foldl (fun u w => u.setBytes (b + w.1) w.2) s

theorem State.setAll_cons (s : State) (b : Nat) (w : Nat × List Byte) (ws : List (Nat × List Byte)) :
    s.setAll b (w :: ws) = (s.setBytes (b + w.1) w.2).setAll b ws := rfl

theorem State.setAll_append (s : State) (b : Nat) (l m : List (Nat × List Byte)) : s.setAll b (l ++ m) = (s.setAll b l).setAll b m :=
  List.foldl_append ..

theorem State.ldPuts_of_clean {s : State} (h : Clean s) (n : Nat) (ws : List (Nat × List Byte)) :
    s.ldPuts n ws = ((false, 0), s.setAll (ldBase n) ws) := by
  induction ws generalizing s with
  | nil => rfl
  | cons w ws ih =>
    have hw : Clean (s.setBytes (ldBase n + w.1) w.2) := h
    rw [State.setAll_cons, ← ih hw, State.ldPuts, List.foldl_cons]
    simp only [State.ldPut_of_clean h]
    rfl

theorem State.kPuts_of_clean {s : State} (h : Clean s) (n : Nat) (ws : List (Nat × List Byte)) (issue : Nat) :
    s.kPuts n ws issue = .step (s.setAll (ldBase n) ws) (issue + 0) := by
  rw [State.kPuts, State.ldPuts_of_clean h]
  rfl

/-- Of the state such writes change the memory. -/
theorem State.setAll_eq (s : State) (b : Nat) (ws : List (Nat × List Byte)) : s.setAll b ws = { s with mem := (s.setAll b ws).mem } := by
  induction ws generalizing s with
  | nil => rfl
  | cons w ws ih => rw [State.setAll_cons]; exact ih _

/-! ### What a byte reads after several writes -/

theorem State.byte_setAll_other (s : State) (b : Nat) {ws : List (Nat × List Byte)} {x : Nat}
    (h : ∀ w ∈ ws, x < b + w.1 ∨ b + w.1 + w.2.length ≤ x) : (s.setAll b ws).byte x = s.byte x := by
  induction ws generalizing s with
  | nil => rfl
  | cons w ws ih =>
    rw [State.setAll_cons, ih _ fun v hv => h v (List.mem_cons_of_mem w hv), State.byte_setBytes_other _ (h w List.mem_cons_self)]

theorem State.byte_setAll_congr {s t : State} (b : Nat) (ws : List (Nat × List Byte)) {x : Nat} (h : s.byte x = t.byte x) :
    (s.setAll b ws).byte x = (t.setAll b ws).byte x := by
  induction ws generalizing s t with
  | nil => exact h
  | cons w ws ih =>
    rw [State.setAll_cons, State.setAll_cons]
    exact ih (by rw [State.byte_setBytes, State.byte_setBytes, h])

/-- Writes that agree block by block agree. -/
theorem State.byte_setAll_flatMap {W V : Nat → List (Nat × List Byte)} {b x : Nat} (l : List Nat)
    (h : ∀ j ∈ l, ∀ s : State, (s.setAll b (W j)).byte x = (s.setAll b (V j)).byte x) (s : State) :
    (s.setAll b (l.flatMap W)).byte x = (s.setAll b (l.flatMap V)).byte x := by
  induction l generalizing s with
  | nil => rfl
  | cons j l ih =>
    rw [List.flatMap_cons, List.flatMap_cons, State.setAll_append, State.setAll_append, ih fun i hi => h i (List.mem_cons_of_mem j hi)]
    exact State.byte_setAll_congr b _ (h j List.mem_cons_self s)

/-- Bytes written as one run or as two. -/
theorem State.byte_setBytes_append (s : State) (a x : Nat) (l m : List Byte) :
    (s.setBytes a (l ++ m)).byte x = ((s.setBytes a l).setBytes (a + l.length) m).byte x := by
  rw [State.byte_setBytes, State.byte_setBytes, State.byte_setBytes, List.length_append]
  by_cases hl : a ≤ x ∧ x < a + l.length
  · rw [if_pos (by omega), if_neg (by omega), if_pos hl, List.getD_append _ _ _ _ (by omega)]
  by_cases hm : a + l.length ≤ x ∧ x < a + l.length + m.length
  · rw [if_pos (by omega), if_pos hm, List.getD_append_right _ _ _ _ (by omega), Nat.sub_sub]
  · rw [if_neg (by omega), if_neg hm, if_neg hl]

/-- A run that no later one touches stands as it was written. -/
theorem State.bytes_setAll_last (s : State) (b : Nat) (l m : List (Nat × List Byte)) (w : Nat × List Byte)
    (h : ∀ v ∈ m, v.1 + v.2.length ≤ w.1 ∨ w.1 + w.2.length ≤ v.1) : (s.setAll b (l ++ w :: m)).bytes (b + w.1) w.2.length = w.2 := by
  rw [State.setAll_append, State.setAll_cons]
  refine (State.bytes_congr fun x hlo hhi => State.byte_setAll_other _ b fun v hv => ?_).trans (State.bytes_setBytes_same _ _ _)
  have hv := h v hv
  omega

theorem State.loadN_setAll_last (s : State) (b : Nat) (l m : List (Nat × List Byte)) (a k v : Nat)
    (h : ∀ w ∈ m, w.1 + w.2.length ≤ a ∨ a + k ≤ w.1) : (s.setAll b (l ++ (a, leBytes k v) :: m)).loadN (b + a) k = v % 256 ^ k := by
  have hlen := length_leBytes k v
  have hb := s.bytes_setAll_last b l m (a, leBytes k v) (by simpa only [hlen] using h)
  simp only [hlen] at hb
  rw [State.loadN, hb, ofLe_leBytes]

theorem State.loadN_congr {s t : State} {a n : Nat} (h : ∀ x, a ≤ x → x < a + n → t.byte x = s.byte x) : t.loadN a n = s.loadN a n :=
  congrArg ofLe (State.bytes_congr h)

/-! ### Stores of lanes -/

/-- The halfwords of the lanes in `l`, each at its address. -/
def laneWrites (A : Nat → Nat) (x : Lanes) (l : List Nat) : List (Nat × List Byte) := l.map fun k => (A k, leBytes 2 (lane x k).toNat)

theorem mem_laneWrites {A : Nat → Nat} {x : Lanes} {l : List Nat} {w : Nat × List Byte} (h : w ∈ laneWrites A x l) :
    ∃ k ∈ l, w.1 = A k ∧ w.2.length = 2 := by
  obtain ⟨k, hk, rfl⟩ := List.mem_map.1 h
  exact ⟨k, hk, rfl, length_leBytes ..⟩

/-- A lane's halfword stands where no later lane writes over it. -/
theorem State.loadN_laneWrites (s : State) (b : Nat) {A : Nat → Nat} (x : Lanes) {l : List Nat} {k : Nat} (hl : l.Pairwise (· < ·))
    (hk : k ∈ l) (h : ∀ j ∈ l, k < j → A j + 2 ≤ A k ∨ A k + 2 ≤ A j) :
    (s.setAll b (laneWrites A x l)).loadN (b + A k) 2 = (lane x k).toNat := by
  obtain ⟨l1, l2, rfl⟩ := List.append_of_mem hk
  have hlater : ∀ j ∈ l2, k < j := (List.pairwise_cons.1 (List.pairwise_append.1 hl).2.1).1
  have hlt := (lane x k).isLt
  rw [laneWrites, List.map_append, List.map_cons, State.loadN_setAll_last, Nat.mod_eq_of_lt (by omega)]
  intro w hw
  obtain ⟨j, hj, ha, hlen⟩ := mem_laneWrites hw
  have hdis := h j (by simp [hj]) (hlater j hj)
  omega

theorem State.byte_laneWrites_other (s : State) (b : Nat) {A : Nat → Nat} (x : Lanes) {l : List Nat} {y : Nat}
    (h : ∀ k ∈ l, y < b + A k ∨ b + A k + 2 ≤ y) : (s.setAll b (laneWrites A x l)).byte y = s.byte y := by
  refine s.byte_setAll_other b fun w hw => ?_
  obtain ⟨k, hk, ha, hlen⟩ := mem_laneWrites hw
  rw [ha, hlen]
  exact h k hk

theorem Engine.pairwise_lanes (g : Engine) (f : KvF) : (g.lanes f).Pairwise (· < ·) := List.pairwise_lt_range.filter _

/-- VST writes whole words where it can; every byte reads as after the lanes' own halfwords. -/
theorem State.byte_vstWrites (s : State) (g : Engine) (f : KvF) (b a x : Nat) :
    (s.setAll b (g.vstWrites f a)).byte x = (s.setAll b (laneWrites (fun k => a + 2 * k) (g.v f.d.toNat) (g.lanes f))).byte x := by
  have hlanes : laneWrites (fun k => a + 2 * k) (g.v f.d.toNat) (g.lanes f) = (List.range 16).flatMap fun j =>
      laneWrites (fun k => a + 2 * k) (g.v f.d.toNat) ([2 * j, 2 * j + 1].filter (g.guard f)) := by
    have hrange : List.range 32 = (List.range 16).flatMap fun j => [2 * j, 2 * j + 1] := by decide
    rw [Engine.lanes, hrange, List.filter_flatMap, laneWrites, List.map_flatMap]
    rfl
  rw [hlanes]
  refine State.byte_setAll_flatMap _ (fun j _ u => ?_) s
  have hlo : a + 2 * (2 * j) = a + 4 * j := by omega
  have hhi : a + 2 * (2 * j + 1) = a + 4 * j + 2 := by omega
  cases h0 : g.guard f (2 * j) <;> cases h1 : g.guard f (2 * j + 1) <;>
    simp only [h0, h1, laneWrites, List.filter_cons, List.filter_nil, List.map_cons, List.map_nil, hlo, hhi, Bool.and_self, Bool.and_false,
      Bool.false_and, Bool.false_eq_true, if_true, if_false]
  refine (State.byte_setBytes_append ..).trans ?_
  rw [length_leBytes]
  rfl

/-! ### The instructions -/

theorem clean_issuedAt {e : Fin 16} {op : Nat} {h : KvShape} {f : KvF} {s : State} (hi : CanIssue e op h f s) (cyc : Nat) :
    Clean (s.issuedAt e cyc) := hi.1.1

theorem State.eng_updEng_other (s : State) {n k : Nat} (F : Engine → Engine) (h : k ≠ n) : (s.updEng n F).eng k = s.eng k := by
  simp [State.updEng, h]

/-- An instruction that changes memory and goes on. -/
theorem storeOnly_finishK {e cyc : Nat} {s u : State} (issue : Nat) (hu : u = { s.issuedAt e cyc with mem := u.mem }) :
    StoreOnly e s (State.finishK e (.step u issue)) := by
  rw [hu]
  have heng : State.eng { s.issuedAt e cyc with mem := u.mem } = State.eng (s.issuedAt e cyc) := rfl
  refine ⟨rfl, fun k hk => ?_, fun _ _ => rfl, ?_, fun k => ?_, fun k => ?_, fun k => ?_⟩
  · rw [State.finishK_step, State.eng_updEng_other _ _ hk]
    exact (congrFun heng k).trans (State.eng_updEng_other s _ hk)
  all_goals simp [heng]

/-- A scalar store whose address is right. -/
theorem does_kStore {e : Fin 16} {op len : Nat} {f : KvF} {s : State} {c : Instr} (hl : kvListed op = true)
    (hi : CanIssue e op { d := .s, a := .s, imm := .any } f s) (hx : exec c s = .next (s.kStore e op f len))
    (ha : (s.eng e).addr f % len = 0) (hr : (s.eng e).addr f + len ≤ 0x20000) :
    Does c s (fun t => StoreOnly e s t
      ∧ t.loadN (ldBase e + (s.eng e).addr f) len = ((s.eng e).s f.d.toNat).toNat % 256 ^ len
      ∧ ∀ x, x < ldBase e + (s.eng e).addr f ∨ ldBase e + (s.eng e).addr f + len ≤ x → t.byte x = s.byte x) :=
  does_of_keav hl hi hx fun cyc => by
    simp only [State.issuedAt_addr, State.issuedAt_s, State.ldWrite, length_leBytes, ldCheck_of_ok ha hr,
      State.ldPut_of_clean (clean_issuedAt hi cyc)]
    exact ⟨storeOnly_finishK _ rfl, State.loadN_storeN .., fun x hx => State.byte_setBytes_other _ (by rwa [length_leBytes])⟩

/-- What the instructions that store lanes share. -/
theorem storeOnly_setAll (e cyc : Nat) (s : State) (ws : List (Nat × List Byte)) (issue : Nat) :
    StoreOnly e s (State.finishK e (.step ((s.issuedAt e cyc).setAll (ldBase e) ws) issue)) :=
  storeOnly_finishK issue (State.setAll_eq ..)

/-- Settles O18: the bytes that each store writes, and their addresses. -/
theorem localStores : Obligations.LocalStores := by
  unfold Obligations.LocalStores
  refine ⟨?stw, ?sth, ?vst, ?vscatter⟩
  case stw =>
    intro e f s hi ha hr
    have hlt := ((s.eng e).s f.d.toNat).isLt
    have h := does_kStore (c := .stw e f) rfl hi rfl ha hr
    rwa [Nat.mod_eq_of_lt (by omega)] at h
  case sth => exact fun e f s hi ha hr => does_kStore rfl hi rfl ha hr
  case vst =>
    intro e f s hi ha hr
    refine does_of_keav rfl hi rfl fun cyc => ?_
    have hguard : ((s.issuedAt e cyc).eng e).lanes f = (s.eng e).lanes f := State.issuedAt_lanes ..
    simp only [State.issuedAt_addr, ldCheck_of_ok ha hr, State.kPuts_of_clean (clean_issuedAt hi cyc)]
    refine ⟨storeOnly_setAll .., fun k hk => ?_, fun x hx => ?_⟩
    · refine (State.loadN_congr fun x _ _ => State.byte_vstWrites ..).trans ?_
      rw [hguard, State.issuedAt_v, Nat.add_assoc]
      split
      case isTrue hg =>
        exact State.loadN_laneWrites _ _ (A := fun k => _ + 2 * k) _ ((s.eng e).pairwise_lanes f) (Engine.mem_lanes.2 ⟨hk, hg⟩)
          fun j _ hj => .inr (by omega)
      case isFalse hg =>
        refine State.loadN_congr fun x hlo hhi => State.byte_laneWrites_other _ _ _ fun j hj => ?_
        have hne : j ≠ k := fun h => hg (h ▸ (Engine.mem_lanes.1 hj).2)
        omega
    · refine (State.byte_vstWrites ..).trans (State.byte_laneWrites_other _ _ _ fun j hj => ?_)
      have hj := (Engine.mem_lanes.1 hj).1
      omega
  case vscatter =>
    intro e f s hi h
    refine does_of_keav rfl hi rfl fun cyc => ?_
    have haddr : ((s.issuedAt e cyc).eng e).laneAddr f = (s.eng e).laneAddr f := funext (s.issuedAt_laneAddr e cyc f)
    have hwrites : ((s.eng e).lanes f).map (fun k => ((s.eng e).laneAddr f k, leBytes 2 (lane ((s.eng e).v f.d.toNat) k).toNat)) =
        laneWrites ((s.eng e).laneAddr f) ((s.eng e).v f.d.toNat) ((s.eng e).lanes f) := rfl
    simp only [haddr, State.issuedAt_lanes, laneTrap_of_ok (laneAddrs_ok h), State.issuedAt_v, hwrites,
      State.kPuts_of_clean (clean_issuedAt hi cyc)]
    refine ⟨storeOnly_setAll .., fun k hk hg hlast => ?_, fun x hx => ?_⟩
    · refine State.loadN_laneWrites _ _ _ ((s.eng e).pairwise_lanes f) (Engine.mem_lanes.2 ⟨hk, hg⟩) fun j hj hkj => ?_
      obtain ⟨hj32, hgj⟩ := Engine.mem_lanes.1 hj
      have hne := hlast j hkj hj32 hgj
      have hjeven := (h j hj32 hgj).1
      have hkeven := (h k hk hg).1
      omega
    · refine State.byte_laneWrites_other _ _ _ fun k hk => ?_
      obtain ⟨hk32, hg⟩ := Engine.mem_lanes.1 hk
      exact hx k hk32 hg

end Sys2Proof.Machine

/-! ## Exceptions of an engine, and its raster position (R80 to R84, R87, R90, R100) -/

namespace Sys2Proof.Machine

/-! ### What an exception leaves (R100) -/

/-- The engine as it enters FAULTED at `now`, having no DMA under way. -/
def Engine.faultAt (now : Nat) (g : Engine) : Engine :=
  { g with trap := none, wait := .none, lastFault := some now, lost := g.lost || false }

/-- What the registers show of an exception. -/
def State.faultMarks (s : State) (n code : Nat) : State :=
  ((((s.setF (fBE_STATUS_EXC n) code).setF (fBE_STATUS_WAIT_ON n) 0).setF (fBE_STATUS_TRIG_PENDING n) 0).setBeState n beFAULTED).raise
    (fBE_FLAGS_FAULT n) (rBE_FAULT_COUNT n)

/-- The engine runs or waits. -/
abbrev Running (n : Nat) (s : State) : Prop := s.beState n = beRUN ∨ s.beState n = beWAIT

theorem State.enterFaulted_of_first {s : State} {n : Nat} (h : (s.eng n).lastFault = none) (code : Nat) :
    s.enterFaulted n code = ((s.updEng n (Engine.faultAt s.time.now)).faultMarks n code).post evBE_ENGINE_FAULT n
      (2 ^ 24 * n + 2 ^ 16 * code + (s.eng n).pc % 8192) := by
  simp only [State.enterFaulted, h, Bool.false_eq_true, if_false]
  rfl

theorem State.engineTrap_of_calm {s : State} {n : Nat} (hrun : Running n s) (hc : Calm n s) (code : Nat) :
    s.engineTrap n code = (s.updEng n Engine.cutDma).enterFaulted n code := by
  obtain ⟨h0, h1, -⟩ := hc
  have hst : ¬(s.beState n = beOFF ∨ s.beState n = beFAULTED ∨ s.beState n = beSTOPPING ∨ s.beState n = beLOADING) := by
    obtain h | h := hrun <;> rw [h] <;> decide
  rw [State.engineTrap, if_neg hst]
  refine if_pos ?_
  simp [Engine.cutDma, h0, h1]

theorem Quiet.eng {l : List Nat} {s t : State} (q : Quiet l s t) (k : Nat) : t.eng k = s.eng k := by rw [q.rest]; rfl

theorem status_not_mem_evRegs : ∀ n : Fin 16, rBE_STATUS n ∉ evRegs ∧ rBE_FLAGS n ∉ evRegs := by decide

theorem State.faultMarks_beState (s : State) (n code : Nat) : (s.faultMarks n code).beState n = beFAULTED := by
  simp [State.faultMarks, State.beState, State.setBeState, State.raise, State.getF_bump_other, State.getF_setF_other, State.getF_setF, beFAULTED]

theorem State.faultMarks_exc (s : State) (n : Nat) {code : Nat} (h : code < 256) : (s.faultMarks n code).getF (fBE_STATUS_EXC n) = code := by
  simp [State.faultMarks, State.setBeState, State.raise, State.getF_bump_other, State.getF_setF_other, State.getF_setF, Nat.mod_eq_of_lt h]

theorem State.faultMarks_flag (s : State) (n code : Nat) : (s.faultMarks n code).isF (fBE_FLAGS_FAULT n) = true := by
  simp [State.faultMarks, State.isF, State.setBeState, State.raise, State.getF_bump_other, State.getF_setF]

theorem OnlyRegs.eng {l : List Nat} {s t : State} (q : OnlyRegs l s t) (k : Nat) : t.eng k = s.eng k := by rw [q.rest]; rfl

theorem OnlyRegs.mem_eq {l : List Nat} {s t : State} (q : OnlyRegs l s t) : t.mem = s.mem := by rw [q.rest]

theorem State.faultMarks_only (s : State) (n code : Nat) :
    OnlyRegs [rBE_STATUS n, rBE_FLAGS n, rBE_FAULT_COUNT n] s (s.faultMarks n code) :=
  ((((((OnlyRegs.refl _ s).setF (by simp)).setF (by simp)).setF (by simp)).setF (by simp)).raise (by simp) (by simp))

/-- The first exception of an engine that has faulted before of nothing, seen from a state with the same memory and the same pc. -/
theorem trapResult_enterFaulted {e : Fin 16} {s u : State} {code : Nat} (hfirst : (u.eng e).lastFault = none) (hcode : code < 256)
    (hpc : (u.eng e).pc = (s.eng e).pc) (hmem : u.mem = s.mem) (hothers : ∀ k, k ≠ e.val → u.eng k = s.eng k) :
    TrapResult e code s (u.enterFaulted e code) := by
  rw [State.enterFaulted_of_first hfirst]
  generalize u.time.now = now
  generalize 2 ^ 24 * e.val + 2 ^ 16 * code + (u.eng e).pc % 8192 = data
  generalize hm : (u.updEng e (Engine.faultAt now)).faultMarks e code = m
  have q : Quiet [] m (m.post evBE_ENGINE_FAULT e data) := (Quiet.refl [] m).post (by decide)
  have heng : ∀ k, (m.post evBE_ENGINE_FAULT e data).eng k = (u.updEng e (Engine.faultAt now)).eng k := fun k => by
    rw [q.eng, ← hm, (State.faultMarks_only ..).eng]
  obtain ⟨hstatus, hflags⟩ := status_not_mem_evRegs e
  exact {
    state := (q.getF _ (by simp) hstatus).trans (hm ▸ State.faultMarks_beState ..)
    exc := (q.getF _ (by simp) hstatus).trans (hm ▸ State.faultMarks_exc _ _ hcode)
    flag := (q.isF _ (by simp) hflags).trans (hm ▸ State.faultMarks_flag ..)
    pc := by rw [heng, State.eng_updEng_same]; exact hpc
    mem := q.mem_eq.trans (hm ▸ (State.faultMarks_only ..).mem_eq.trans hmem)
    others := fun k hk => by rw [heng, State.eng_updEng_other _ _ hk]; exact hothers k hk }

/-- An exception of a calm engine that runs or waits, in a state that agrees with `s` on its memory, its engines and their pcs. -/
theorem trapResult_engineTrap {e : Fin 16} {s u : State} {code : Nat} (hrun : Running e u) (hc : Calm e u) (hcode : code < 256)
    (hpc : (u.eng e).pc = (s.eng e).pc) (hmem : u.mem = s.mem) (hothers : ∀ k, k ≠ e.val → u.eng k = s.eng k) :
    TrapResult e code s (u.engineTrap e code) := by
  rw [State.engineTrap_of_calm hrun hc]
  refine trapResult_enterFaulted ?_ hcode ?_ hmem fun k hk => (State.eng_updEng_other _ _ hk).trans (hothers k hk)
  · rw [State.eng_updEng_same]; exact hc.2.2
  · rw [State.eng_updEng_same]; exact hpc

theorem running_of_issuing {e : Nat} {s : State} (h : s.issuing e = true) : Running e s := .inl (by
  rw [State.issuing, Bool.and_eq_true] at h
  exact eq_of_beq h.1)

theorem trapResult_of_issuing {e : Fin 16} {s : State} {code : Nat} (hrun : s.issuing e = true) (hc : Calm e s) (hcode : code < 256) :
    TrapResult e code s (s.engineTrap e code) :=
  trapResult_engineTrap (running_of_issuing hrun) hc hcode rfl rfl fun _ _ => rfl

/-- The state in which an instruction's body runs raises the exception just as well. -/
theorem trapResult_finishK {e : Fin 16} {s : State} {cyc code : Nat} (hrun : s.issuing e = true) (hc : Calm e s) (hcode : code < 256) :
    TrapResult e code s (State.finishK e (.trap (s.issuedAt e cyc) code)) := by
  obtain ⟨h0, h1, hfirst⟩ := hc
  refine trapResult_engineTrap (running_of_issuing hrun) ⟨?_, ?_, ?_⟩ hcode ?_ rfl fun k hk => State.eng_updEng_other s _ hk
  · rw [State.issuedAt_ch0, h0]
  · rw [State.issuedAt_ch1, h1]
  · rw [s.eng_issuedAt]; exact hfirst
  · rw [State.issuedAt_pc]

/-! ### Illegal instructions and accesses (R80, R84, R100) -/

theorem issuing_of_canIssue {e : Fin 16} {op : Nat} {h : KvShape} {f : KvF} {s : State} (hi : CanIssue e op h f s) : s.issuing e = true :=
  hi.1.2.1

/-- An instruction whose body raises an exception. -/
theorem does_of_keav_trap {e : Fin 16} {op code : Nat} {h : KvShape} {f : KvF} {s : State} {c : Instr} {extra : List Nat}
    {body : State → KOut} (hl : kvListed op = true) (hi : CanIssue e op h f s) (hc : Calm e s) (hcode : code < 256)
    (hx : exec c s = .next (s.keav e op f h extra body))
    (hbody : ∀ cyc, body (s.issuedAt e cyc) = .trap (s.issuedAt e cyc) code) : Does c s (TrapResult e code s) :=
  does_of_keav hl hi hx fun cyc => hbody cyc ▸ trapResult_finishK (issuing_of_canIssue hi) hc hcode

/-- An engine that stands at SUB, listed twice among the engines. -/
def wListedTwice : State := { wIssue 0x11 {} wEng with be := wEng.be ++ wEng.be }

/-- A command that is not at the pc writes its engine back, which lists it once. -/
theorem be_wListedTwice : ((wListedTwice.kAlu 0 0x10 {} 1 (· + ·)).be.length, wListedTwice.be.length) = (1, 2) := by decide +kernel

theorem misfetch_wListedTwice : Clean wListedTwice ∧ wListedTwice.issuing 0 = true ∧ Calm 0 wListedTwice
    ∧ (wListedTwice.eng 0).pc < (wListedTwice.eng 0).imageLen ∧ kvListed (wListedTwice.loadN (wListedTwice.fetchAt 0) 8 / 2 ^ 56) = true
    ∧ wListedTwice.loadN (wListedTwice.fetchAt 0) 8 ≠ kvWord 0x10 {} := by decide +kernel

/-- Refutes O19: the last clause asks for the same list of engines, and a state may list an engine twice. The engine that ADD is given to
stands at SUB; the command leaves what every engine reads as it was, but the list that held engine 0 twice holds it once. -/
theorem not_engineExceptions : ¬ Obligations.EngineExceptions := by
  unfold Obligations.EngineExceptions
  rintro ⟨-, -, -, h⟩
  obtain ⟨hclean, hrun, hcalm, hpc, hlisted, hne⟩ := misfetch_wListedTwice
  obtain ⟨t, ht, hbe, -⟩ := ((h 0 {} wListedTwice hclean hrun hcalm).1 hpc).2 hlisted hne
  have hadd : exec (.add 0 {}) wListedTwice = .next (wListedTwice.kAlu 0 0x10 {} 1 (· + ·)) := rfl
  rw [hadd] at ht
  cases ht
  have hlen := congrArg List.length hbe
  obtain ⟨h1, h2⟩ := Prod.mk.inj be_wListedTwice
  omega

/-! ### The raster position (R87) -/

/-- A body that updates its engine, but no general register, and goes on. -/
theorem branchResult_updEng {F : Engine → Engine} (hF : ∀ g, SameRegs (F g) g) (e cyc : Nat) (s : State) (issue : Nat) :
    BranchResult e ((s.eng e).pc + 1) s (State.finishK e (.step ((s.issuedAt e cyc).updEng e F) issue)) := by
  refine branchResult_step ((EngineOnly.issuedAt e s cyc).updEng F) ?_ issue
  rw [State.eng_updEng_same]
  obtain ⟨hpc, hs, hv, hp⟩ := hF ((s.issuedAt e cyc).eng e)
  exact ⟨hpc.trans (s.issuedAt_pc e cyc), fun k => (hs k).trans (s.issuedAt_s e cyc k), fun k => (hv k).trans (s.issuedAt_v e cyc k),
    fun k => (hp k).trans (s.issuedAt_p e cyc k)⟩

theorem State.finishK_step_eng (n : Nat) (u : State) (issue : Nat) :
    (State.finishK n (.step u issue)).eng n = { u.eng n with cycle := (u.eng n).cycle + issue, pc := (u.eng n).pc + 1 } := by
  rw [State.finishK_step, State.eng_updEng_same]

/-- The state that an instruction ends in when it gives the raster registers new values. -/
theorem raster_finishK {F : Engine → Engine} {x y : Half} {e cyc issue : Nat} {s : State} (hF : ∀ g, SameRegs (F g) g)
    (hx : (F ((s.issuedAt e cyc).eng e)).rx = x) (hy : (F ((s.issuedAt e cyc).eng e)).ry = y) :
    let t := State.finishK e (.step ((s.issuedAt e cyc).updEng e F) issue)
    BranchResult e ((s.eng e).pc + 1) s t ∧ (t.eng e).rx = x ∧ (t.eng e).ry = y := by
  refine ⟨branchResult_updEng hF .., ?_, ?_⟩
  · rw [State.finishK_step_eng, State.eng_updEng_same, hx]
  · rw [State.finishK_step_eng, State.eng_updEng_same, hy]

/-- The raster registers are none of the general ones. -/
theorem sameRegs_raster (x y : Engine → Half) (keys : List Nat) (g : Engine) :
    SameRegs (keys.foldl (fun h k => h.due k 1) { g with rx := x g, ry := y g }) g := by
  generalize hh : ({ g with rx := x g, ry := y g } : Engine) = h
  have hsame : SameRegs h g := hh ▸ ⟨rfl, fun _ => rfl, fun _ => rfl, fun _ => rfl⟩
  clear hh
  induction keys generalizing h with
  | nil => exact hsame
  | cons k keys ih => exact ih _ ⟨hsame.pc, hsame.s, hsame.v, hsame.p⟩

theorem toNat_setWidth_half (w : Word) : (w.setWidth 16).toNat = w.toNat % 65536 := BitVec.toNat_setWidth ..

theorem does_rsetxy {e : Fin 16} {f : KvF} {s : State} (hi : CanIssue e 0x82 { a := .s, b := .s } f s) :
    Does (.rsetxy e f) s (fun t => BranchResult e ((s.eng e).pc + 1) s t
      ∧ (t.eng e).rx = ((s.eng e).s f.a.toNat).setWidth 16 ∧ (t.eng e).ry = ((s.eng e).s f.b.toNat).setWidth 16) :=
  does_of_keav rfl hi rfl fun cyc => raster_finishK
    (sameRegs_raster (fun g => (g.s f.a.toNat).setWidth 16) (fun g => (g.s f.b.toNat).setWidth 16) [keySpr 4, keySpr 5])
    (congrArg (BitVec.setWidth 16) (s.issuedAt_s e cyc _)) (congrArg (BitVec.setWidth 16) (s.issuedAt_s e cyc _))

theorem does_movtspr_rx {e : Fin 16} {f : KvF} {s : State} (hi : CanIssue e 0x22 { a := .s, imm := .any } f s)
    (hk : f.imm.toNat % 256 = 4) : Does (.movtspr e f) s (fun t => BranchResult e ((s.eng e).pc + 1) s t
      ∧ (t.eng e).rx = ((s.eng e).s f.a.toNat).setWidth 16 ∧ (t.eng e).ry = (s.eng e).ry) :=
  does_of_keav rfl hi rfl fun cyc => by
    rw [if_pos hk]
    exact raster_finishK (sameRegs_raster (fun _ => _) (fun g => g.ry) [keySpr 4]) (congrArg (BitVec.setWidth 16) (s.issuedAt_s e cyc _))
      (s.issuedAt_ry e cyc)

theorem does_movtspr_ry {e : Fin 16} {f : KvF} {s : State} (hi : CanIssue e 0x22 { a := .s, imm := .any } f s)
    (hk : f.imm.toNat % 256 = 5) : Does (.movtspr e f) s (fun t => BranchResult e ((s.eng e).pc + 1) s t
      ∧ (t.eng e).rx = (s.eng e).rx ∧ (t.eng e).ry = ((s.eng e).s f.a.toNat).setWidth 16) :=
  does_of_keav rfl hi rfl fun cyc => by
    rw [if_neg (by omega), if_pos hk]
    exact raster_finishK (sameRegs_raster (fun g => g.rx) (fun _ => _) [keySpr 5]) (s.issuedAt_rx e cyc)
      (congrArg (BitVec.setWidth 16) (s.issuedAt_s e cyc _))

theorem Does.imp {c : Instr} {s : State} {P Q : State → Prop} (h : Does c s P) (hpq : ∀ t, P t → Q t) : Does c s Q := by
  obtain ⟨t, ht, hp⟩ := h
  exact ⟨t, ht, hpq t hp⟩

/-- Settles O20: the two registers of the position, and the special registers that no instruction sets. -/
theorem rasterPosition : Obligations.RasterPosition := by
  unfold Obligations.RasterPosition
  refine ⟨?rsetxy, ?position, ?illegal⟩
  case rsetxy =>
    refine fun e f s hi => (does_rsetxy hi).imp fun t ⟨hb, hx, hy⟩ => ⟨hb, ?_, ?_⟩
    · rw [hx, toNat_setWidth_half]
    · rw [hy, toNat_setWidth_half]
  case position =>
    rintro e f s hi (hk | hk)
    · refine (does_movtspr_rx hi hk).imp fun t ⟨hb, hx, hy⟩ => ⟨hb, ?_, ?_⟩
      · rw [hx, if_pos hk, toNat_setWidth_half]
      · rw [hy, if_neg (by omega)]
    · refine (does_movtspr_ry hi hk).imp fun t ⟨hb, hx, hy⟩ => ⟨hb, ?_, ?_⟩
      · rw [hx, if_neg (by omega)]
      · rw [hy, if_pos hk, toNat_setWidth_half]
  case illegal =>
    exact fun e f s hi hc hle h4 h5 => does_of_keav_trap rfl hi hc (by decide) rfl fun cyc => by
      dsimp only
      rw [if_neg h4, if_neg h5, if_pos hle]

end Sys2Proof.Machine

/-! ## Instructions that wait, and events from programs (R85, R89, R91 to R96, R98, R104) -/

namespace Sys2Proof.Machine

/-! ### The beginning of a wait -/

theorem KWait.code_lt (w : KWait) : w.code < 8 := by cases w <;> simp [KWait.code]

/-- What the registers show of a wait. -/
def State.waitMarks (s : State) (n : Nat) (w : KWait) : State := (s.setBeState n beWAIT).setF (fBE_STATUS_WAIT_ON n) w.code

theorem State.waitMarks_only (s : State) (n : Nat) (w : KWait) : OnlyRegs [rBE_STATUS n] s (s.waitMarks n w) :=
  ((OnlyRegs.refl _ s).setF (by simp)).setF (by simp)

theorem State.waitMarks_beState (s : State) (n : Nat) (w : KWait) : (s.waitMarks n w).beState n = beWAIT := by
  simp [State.waitMarks, State.beState, State.setBeState, State.getF_setF_other, State.getF_setF, beWAIT]

theorem State.waitMarks_code (s : State) (n : Nat) (w : KWait) : (s.waitMarks n w).getF (fBE_STATUS_WAIT_ON n) = w.code := by
  simp [State.waitMarks, State.getF_setF, Nat.mod_eq_of_lt w.code_lt]

/-- An instruction that holds its engine. -/
theorem waitResult_beWait (e cyc : Nat) (s : State) (w : KWait) :
    WaitResult e w s (State.finishK e (.hold ((s.issuedAt e cyc).beWait e w))) := by
  have heq : State.finishK e (.hold ((s.issuedAt e cyc).beWait e w)) = ((s.issuedAt e cyc).updEng e
    (fun g => { g with wait := w, waitFrom := s.time.now, limFrom := s.time.now })).waitMarks e w := rfl
  rw [heq]
  generalize hu : (s.issuedAt e cyc).updEng e (fun g => { g with wait := w, waitFrom := s.time.now, limFrom := s.time.now }) = u
  have ho := u.waitMarks_only e w
  exact {
    state := u.waitMarks_beState e w
    waitOn := u.waitMarks_code e w
    wait := by rw [ho.eng, ← hu, State.eng_updEng_same]
    pc := by rw [ho.eng, ← hu, State.eng_updEng_same, ← s.issuedAt_pc e cyc]
    mem := ho.mem_eq.trans (hu ▸ rfl)
    others := fun k hk => by rw [ho.eng, ← hu, State.eng_updEng_other _ _ hk, State.issuedAt, State.eng_updEng_other _ _ hk]
    regs := fun off _ hoff => (ho.regs off (by simpa using hoff)).trans (hu ▸ rfl) }

/-! ### Fences (R91, R92) -/

/-- What the crossing to the arbiter may change: registers of the flip groups, and Compose's own state. -/
structure Crossed (s t : State) : Prop where
  rest : t = { s with regs := t.regs, comp := t.comp }
  regs : ∀ off, off < 0xC1204 → t.reg off = s.reg off

theorem Crossed.refl (s : State) : Crossed s s := ⟨rfl, fun _ _ => rfl⟩

theorem Crossed.trans {s t u : State} (h : Crossed s t) (k : Crossed t u) : Crossed s u := by
  obtain ⟨h1, h2⟩ := h
  obtain ⟨k1, k2⟩ := k
  refine ⟨?_, fun off hoff => (k2 off hoff).trans (h2 off hoff)⟩
  rw [h1] at k1
  exact k1

theorem Crossed.comp (s : State) (c : Comp) : Crossed s { s with comp := c } := ⟨rfl, fun _ _ => rfl⟩

theorem Crossed.setReg (s : State) {o : Nat} (v : Word) (ho : 0xC1204 ≤ o) : Crossed s (s.setReg o v) :=
  ⟨rfl, fun off hoff => by rw [State.reg_setReg, if_neg (by omega)]⟩

theorem Crossed.raise (s : State) {f : Fld} {c : Nat} (hf : 0xC1204 ≤ f.off) (hc : 0xC1204 ≤ c) : Crossed s (s.raise f c) :=
  (Crossed.setReg s _ hf).trans (Crossed.setReg _ _ hc)

theorem Crossed.arrive (s : State) (c : Cross) : Crossed s (s.arrive c) := by
  cases c with
  | flip g f =>
    rw [State.arrive]
    split
    · exact (Crossed.raise s (Nat.le_add_right ..) (by show 0xC1204 ≤ 0xC1210 + 0x20 * g; omega)).trans (.comp _ _)
    · exact .comp _ _
  | inc k n => exact .comp _ _

theorem Crossed.cross (s : State) (c : Cross) : Crossed s (s.cross c) := by
  have hfold : ∀ (l : List (Nat × Cross)) (u : State), Crossed u (l.foldl (fun s c => s.arrive c.2) u) := by
    intro l
    induction l with
    | nil => exact .refl
    | cons c l ih => exact fun u => (Crossed.arrive u c.2).trans (ih _)
  exact ((Crossed.comp s _).trans (hfold _ _)).trans (.comp _ _)

/-- An advance of a fence changes the fence's register, and Compose. -/
theorem State.signal_crossed (s : State) (k : Nat) (n : Word) :
    Crossed (s.setReg (rMSG_FENCE (k % 16)) (s.fence k + n)) (s.signal k n) := Crossed.cross _ _

theorem State.signal_fence (s : State) (k j : Nat) (n : Word) :
    (s.signal k n).fence j = if j % 16 = k % 16 then s.fence k + n else s.fence j := by
  have hj : j % 16 < 16 := Nat.mod_lt _ (by decide)
  rw [State.fence, (s.signal_crossed k n).regs _ (by show 0xC0100 + 0x4 * (j % 16) < 0xC1204; omega), State.reg_setReg]
  by_cases h : j % 16 = k % 16
  · rw [if_pos h, if_pos (by rw [h])]
  · rw [if_neg h, if_neg (by show ¬0xC0100 + 0x4 * (j % 16) = 0xC0100 + 0x4 * (k % 16); omega)]
    rfl

theorem State.signal_mem (s : State) (k : Nat) (n : Word) : (s.signal k n).mem = s.mem := by
  rw [(s.signal_crossed k n).rest]
  rfl

theorem State.signal_eng (s : State) (k : Nat) (n : Word) (e : Nat) : (s.signal k n).eng e = s.eng e := by
  rw [(s.signal_crossed k n).rest]
  rfl

/-! ### Mailbox slots and channels (R89, R96) -/

theorem Engine.mem_of_firstSlot {g : Engine} {m : Nat} (h : g.firstSlot = some m) : (m, false) ∈ g.slots := by
  obtain ⟨⟨k, held⟩, hx, rfl⟩ := Option.map_eq_some_iff.1 h
  have hnot : held = false := by simpa using List.find?_some hx
  exact hnot ▸ List.mem_of_find?_eq_some hx

theorem Engine.mem_takeSlot {g : Engine} {m : Nat} (h : g.firstSlot = some m) : (m, true) ∈ (g.takeSlot m).slots :=
  List.mem_map.2 ⟨_, Engine.mem_of_firstSlot h, if_pos rfl⟩

theorem Engine.chan_setChan (g : Engine) (ch : Nat) (l : List Desc) : (g.setChan ch l).chan ch = l := by
  unfold Engine.setChan Engine.chan
  split <;> rfl

theorem sameRegs_setChan (g : Engine) (ch : Nat) (l : List Desc) : SameRegs (g.setChan ch l) g := by
  unfold Engine.setChan
  split <;> exact ⟨rfl, fun _ => rfl, fun _ => rfl, fun _ => rfl⟩

theorem State.issuedAt_chan (s : State) (e cyc ch : Nat) : ((s.issuedAt e cyc).eng e).chan ch = (s.eng e).chan ch := by
  rw [Engine.chan, State.issuedAt_ch0, State.issuedAt_ch1, Engine.chan]

theorem State.issuedAt_firstSlot (s : State) (e cyc : Nat) : ((s.issuedAt e cyc).eng e).firstSlot = (s.eng e).firstSlot := by
  rw [Engine.firstSlot, State.issuedAt_slots, Engine.firstSlot]

theorem State.issuedAt_prog (s : State) (e cyc : Nat) : ((s.issuedAt e cyc).eng e).prog = (s.eng e).prog := by rw [s.eng_issuedAt]

/-! ### The end of a user program's job (R104) -/

@[simp] theorem State.updEng_getF (s : State) (n : Nat) (F : Engine → Engine) (f : Fld) : (s.updEng n F).getF f = s.getF f := rfl
@[simp] theorem State.updEng_isF (s : State) (n : Nat) (F : Engine → Engine) (f : Fld) : (s.updEng n F).isF f = s.isF f := rfl
@[simp] theorem State.updEng_regN (s : State) (n : Nat) (F : Engine → Engine) (off : Nat) : (s.updEng n F).regN off = s.regN off := rfl

/-- A job of engine `n` is counted, and the engine is in IDLE. -/
def State.jobCounted (s : State) (n : Nat) : State :=
  ((((s.setRegN (rBE_JOB_COUNT n) ((s.regN (rBE_JOB_COUNT n) + 1) % 2 ^ 32)).setRegN (rBE_LAST_JOB_TIME n)
    (satAt 0xFFFFFFFF (s.eng n).cycle)).updEng n (fun g => { g with wait := .none })).setBeState n beIDLE).setF (fBE_STATUS_WAIT_ON n) 0

theorem State.jobCounted_pending (s : State) (n : Nat) :
    (s.jobCounted n).isF (fBE_STATUS_TRIG_PENDING n) = s.isF (fBE_STATUS_TRIG_PENDING n) := by
  simp [State.jobCounted, State.setBeState, State.isF, State.getF_setF_other, State.getF_setRegN_other]

theorem State.jobCounted_src (s : State) (n : Nat) : (s.jobCounted n).getF (fBE_JOB_TRIG_SRC n) = s.getF (fBE_JOB_TRIG_SRC n) := by
  simp [State.jobCounted, State.setBeState, State.getF_setF_other, State.getF_setRegN_other]

theorem State.jobCounted_beState (s : State) (n : Nat) : (s.jobCounted n).beState n = beIDLE := by
  simp [State.jobCounted, State.setBeState, State.beState, State.getF_setF_other, State.getF_setF, beIDLE]

theorem State.jobCounted_count (s : State) (n : Nat) :
    (s.jobCounted n).regN (rBE_JOB_COUNT n) = (s.regN (rBE_JOB_COUNT n) + 1) % 2 ^ 32 := by
  simp [State.jobCounted, State.setBeState, State.regN_setF_other]

theorem State.jobCounted_mem (s : State) (n : Nat) : (s.jobCounted n).mem = s.mem :=
  (((OnlyRegs.refl [rBE_STATUS n] _).setF (by simp)).setF (by simp)).mem_eq

theorem State.jobCounted_wait (s : State) (n : Nat) : ((s.jobCounted n).eng n).wait = .none := by
  rw [State.jobCounted, State.setBeState, (((OnlyRegs.refl [rBE_STATUS n] _).setF (by simp)).setF (by simp)).eng, State.eng_updEng_same]

/-- What a job's end leaves when nothing has the next job start. -/
theorem State.jobDone_of_no_trigger {s : State} {n : Nat} (htrig : s.isF (fBE_STATUS_TRIG_PENDING n) = false)
    (hsrc : s.getF (fBE_JOB_TRIG_SRC n) ≠ 2) : s.jobDone n = s.jobCounted n := by
  have h : s.jobDone n = if (s.jobCounted n).isF (fBE_STATUS_TRIG_PENDING n) then _ else
    if (s.jobCounted n).getF (fBE_JOB_TRIG_SRC n) = 2 ∧ 0 < (s.eng n).waiting then _ else s.jobCounted n := rfl
  rw [h, if_neg (by rw [s.jobCounted_pending, htrig]; decide), if_neg fun hc => hsrc (s.jobCounted_src n ▸ hc.1)]

/-- The end of a job of a user program, with nothing that has the next one start. -/
structure JobEnded (n : Nat) (s t : State) : Prop where
  state : t.beState n = beIDLE
  wait : (t.eng n).wait = .none
  mem : t.mem = s.mem
  count : t.regN (rBE_JOB_COUNT n) = (s.regN (rBE_JOB_COUNT n) + 1) % 2 ^ 32

theorem State.endJob_of_user {s : State} {n : Nat} {p : BeprogC} (hp : (s.eng n).prog = some p) (hk : p.kind = .user)
    (htrig : s.isF (fBE_STATUS_TRIG_PENDING n) = false) (hsrc : s.getF (fBE_JOB_TRIG_SRC n) ≠ 2) : JobEnded n s (s.endJob n) := by
  generalize hu : s.updEng n (fun e => { e with cycle := e.cycle + 1 }) = u
  have hprog : (u.eng n).prog = some p := by rw [← hu, State.eng_updEng_same]; exact hp
  have heffect : u.jobEffect n = u := by simp only [State.jobEffect, hprog, hk]
  have hend : s.endJob n = u.jobCounted n := by
    have h : s.endJob n = (u.jobEffect n).jobDone n := hu ▸ rfl
    rw [h, heffect, State.jobDone_of_no_trigger (hu ▸ htrig) (hu ▸ hsrc)]
  rw [hend]
  exact ⟨u.jobCounted_beState n, u.jobCounted_wait n, (u.jobCounted_mem n).trans (hu ▸ rfl), (u.jobCounted_count n).trans (hu ▸ rfl)⟩

/-! ### The instructions -/

/-- DMAQ, whose descriptor is read and right. -/
theorem dmaq_body {e : Fin 16} {f : KvF} {s : State} {d : Desc} (hi : CanIssue e 0x90 { a := .s, imm := .any } f s)
    (ha : ((s.eng e).s f.a.toNat).toNat % 32 = 0) (hr : ((s.eng e).s f.a.toNat).toNat + 32 ≤ 0x20000)
    (hd : readDesc (s.bytes (ldBase e + ((s.eng e).s f.a.toNat).toNat) 32) = some d) {P : State → Prop}
    (hp : ∀ cyc, P (State.finishK e (if ((s.eng e).chan (f.imm.toNat % 2)).length < 4 then
      .step ((s.issuedAt e cyc).updEng e (fun g => g.setChan (f.imm.toNat % 2) (g.chan (f.imm.toNat % 2) ++ [d]))) (1 + 0)
      else .hold ((s.issuedAt e cyc).beWait e (.dmaq (f.imm.toNat % 2) d))))) : Does (.dmaq e f) s P :=
  does_of_keav rfl hi rfl fun cyc => by
    have hbytes : ∀ a n, (s.issuedAt e cyc).bytes a n = s.bytes a n := fun a n => s.updEng_bytes e _ a n
    simp only [State.issuedAt_s, State.ldRead_of_ok (State.synd_issuedAt hi cyc) ha hr, hbytes, hd, State.issuedAt_chan]
    exact hp cyc

theorem does_dmaq_room {e : Fin 16} {f : KvF} {s : State} {d : Desc} (hi : CanIssue e 0x90 { a := .s, imm := .any } f s)
    (ha : ((s.eng e).s f.a.toNat).toNat % 32 = 0) (hr : ((s.eng e).s f.a.toNat).toNat + 32 ≤ 0x20000)
    (hd : readDesc (s.bytes (ldBase e + ((s.eng e).s f.a.toNat).toNat) 32) = some d)
    (hroom : ((s.eng e).chan (f.imm.toNat % 2)).length < 4) :
    Does (.dmaq e f) s (fun t => BranchResult e ((s.eng e).pc + 1) s t
      ∧ (t.eng e).chan (f.imm.toNat % 2) = (s.eng e).chan (f.imm.toNat % 2) ++ [d]) :=
  dmaq_body hi ha hr hd fun cyc => by
    rw [if_pos hroom]
    refine ⟨branchResult_updEng (fun g => sameRegs_setChan ..) .., ?_⟩
    rw [State.finishK_step_eng, State.eng_updEng_same, ← s.issuedAt_chan e cyc]
    exact Engine.chan_setChan ..

/-- FSIG without writes outstanding. -/
theorem does_fsig {e : Fin 16} {f : KvF} {s : State} (hi : CanIssue e 0xA0 { imm := .any } f s) (hw : (s.eng e).writesPending = false) :
    Does (.fsig e f) s (fun t => (t.eng e).pc = (s.eng e).pc + 1
      ∧ t.fence (f.imm.toNat % 16) = s.fence (f.imm.toNat % 16) + 1 ∧ t.mem = s.mem
      ∧ ∀ k, k < 16 → k ≠ f.imm.toNat % 16 → t.fence k = s.fence k) :=
  does_of_keav rfl hi rfl fun cyc => by
    have hpend : ((s.issuedAt e cyc).eng e).writesPending = false := by
      rw [Engine.writesPending, State.issuedAt_ch0, State.issuedAt_ch1]
      exact hw
    have hfence : ∀ (u : State) (k : Nat), (State.finishK e (.step u 1)).fence k = u.fence k := fun _ _ => rfl
    have hissue : ∀ k, (s.issuedAt e cyc).fence k = s.fence k := fun _ => rfl
    rw [if_neg (by rw [hpend]; decide)]
    refine ⟨?_, ?_, (State.signal_mem ..).trans rfl, fun k hk hne => ?_⟩
    · rw [State.finishK_step_pc, State.signal_eng, State.issuedAt_pc]
    · rw [hfence, State.signal_fence, if_pos rfl, hissue]
    · rw [hfence, State.signal_fence, if_neg (by omega), hissue]

/-- MBFREE of a slot that the program holds. -/
theorem does_mbfree {e : Fin 16} {f : KvF} {s : State} {m : Nat} (hi : CanIssue e 0xB1 { a := .s } f s)
    (hm : (m, true) ∈ (s.eng e).slots) (ha : ((s.eng e).s f.a.toNat).toNat = slotAddr m) :
    Does (.mbfree e f) s (fun t => BranchResult e ((s.eng e).pc + 1) s t ∧ (m, true) ∉ (t.eng e).slots) :=
  does_of_keav rfl hi rfl fun cyc => by
    have hheld : ∃ x ∈ ((s.issuedAt e cyc).eng e).slots, x.2 = true ∧ slotAddr x.1 = (((s.issuedAt e cyc).eng e).s f.a.toNat).toNat :=
      ⟨_, (s.issuedAt_slots e cyc).symm ▸ hm, rfl, by rw [State.issuedAt_s, ha]⟩
    dsimp only
    rw [if_pos hheld]
    refine ⟨branchResult_updEng ?_ .., ?_⟩
    · exact fun g => ⟨rfl, fun _ => rfl, fun _ => rfl, fun _ => rfl⟩
    · rw [State.finishK_step_eng, State.eng_updEng_same, State.issuedAt_s, ha]
      simp

/-- MBRECV of a slot that waits. -/
theorem does_mbrecv {e : Fin 16} {f : KvF} {s : State} {m : Nat} (hi : CanIssue e 0xB0 { d := .s } f s)
    (hm : (s.eng e).firstSlot = some m) : Does (.mbrecv e f) s (fun t =>
      ScalarResult e f.d (BitVec.ofNat 32 (slotAddr m)) s t ∧ (m, true) ∈ (t.eng e).slots) :=
  does_of_keav rfl hi rfl fun cyc => by
    simp only [State.issuedAt_firstSlot, hm]
    refine ⟨scalarResult_of_setS (((EngineOnly.issuedAt e s cyc).updEng _).updEng _) (sameRegs_eng_putS ?_ ..) 1, ?_⟩
    · rw [State.eng_updEng_same]
      obtain ⟨hpc, hs, hv, hp⟩ := sameRegs_issuedAt e cyc s
      exact ⟨hpc, hs, hv, hp⟩
    · rw [State.finishK_step_eng, State.putS, State.eng_updEng_same, State.eng_updEng_same]
      have h := Engine.mem_takeSlot ((s.issuedAt_firstSlot e cyc).trans hm)
      simpa [Engine.due, Engine.setS, apply_ite Engine.slots] using h

/-- HALT of a user program. -/
theorem does_halt {e : Fin 16} {f : KvF} {s : State} {p : BeprogC} (hi : CanIssue e 0x01 {} f s) (hp : (s.eng e).prog = some p)
    (hk : p.kind = .user) (hw : (s.eng e).jobWrites = false) (htrig : s.isF (fBE_STATUS_TRIG_PENDING e) = false)
    (hsrc : s.getF (fBE_JOB_TRIG_SRC e) ≠ 2) : Does (.halt e f) s (JobEnded e s) :=
  does_of_keav rfl hi rfl fun cyc => by
    have hwrites : ((s.issuedAt e cyc).eng e).jobWrites = false := by
      rw [Engine.jobWrites, State.issuedAt_ch0, State.issuedAt_ch1]
      exact hw
    rw [if_neg (by rw [hwrites]; decide)]
    have h := State.endJob_of_user (s := s.issuedAt e cyc) ((s.issuedAt_prog e cyc).trans hp) hk (by rwa [State.issuedAt, State.updEng_isF])
      (by rwa [State.issuedAt, State.updEng_getF])
    exact ⟨h.state, h.wait, h.mem, h.count.trans (by rw [State.issuedAt, State.updEng_regN])⟩

/-- Settles O21: each instruction's effect where what it needs is there, and its wait where not. -/
theorem engineWaits : Obligations.EngineWaits := by
  unfold Obligations.EngineWaits
  refine ⟨?dmaq, ?dmawait, ?fsig, ?fwait, ?mbrecv, ?mbfree, ?halt⟩
  case dmaq =>
    refine fun e f s d hi ha hr hd => ⟨does_dmaq_room hi ha hr hd, fun hfull => dmaq_body hi ha hr hd fun cyc => ?_⟩
    rw [if_neg (Nat.not_lt.2 hfull)]
    exact waitResult_beWait ..
  case dmawait =>
    intro e f s hi
    have hidle : ∀ cyc, ((s.issuedAt e cyc).eng e).chansIdle (f.imm.toNat % 4) = (s.eng e).chansIdle (f.imm.toNat % 4) := fun cyc => by
      rw [Engine.chansIdle, State.issuedAt_ch0, State.issuedAt_ch1, Engine.chansIdle]
    refine ⟨fun h => does_of_keav rfl hi rfl fun cyc => ?_, fun h => does_of_keav rfl hi rfl fun cyc => ?_⟩
    · rw [hidle, if_pos h]
      exact branchResult_step (.issuedAt e s cyc) (sameRegs_issuedAt e cyc s) 1
    · rw [hidle, if_neg (by rw [h]; decide)]
      exact waitResult_beWait ..
  case fsig =>
    refine fun e f s hi => ⟨does_fsig hi, fun h => does_of_keav rfl hi rfl fun cyc => ?_⟩
    have hpend : ((s.issuedAt e cyc).eng e).writesPending = true := by
      rw [Engine.writesPending, State.issuedAt_ch0, State.issuedAt_ch1]
      exact h
    rw [if_pos hpend]
    exact waitResult_beWait ..
  case fwait =>
    intro e f s hi
    have hreach : ∀ cyc k x, (s.issuedAt e cyc).fenceReached k x = decide (0 ≤ (s.fence k - x).toInt) := fun _ _ _ => rfl
    refine ⟨fun h => does_of_keav rfl hi rfl fun cyc => ?_, fun h => does_of_keav rfl hi rfl fun cyc => ?_⟩
    · dsimp only
      rw [State.issuedAt_s, hreach, if_pos (decide_eq_true h)]
      exact branchResult_step (.issuedAt e s cyc) (sameRegs_issuedAt e cyc s) 1
    · dsimp only
      rw [State.issuedAt_s, hreach, if_neg (by simpa using h)]
      exact waitResult_beWait ..
  case mbrecv =>
    refine fun e f s hi => ⟨fun m => does_mbrecv hi, fun h => does_of_keav rfl hi rfl fun cyc => ?_⟩
    simp only [State.issuedAt_firstSlot, h]
    exact waitResult_beWait ..
  case mbfree => exact fun e f s m hi hm ha => does_mbfree hi hm ha
  case halt =>
    refine fun e f s p hi hp hk => ⟨fun h => does_of_keav rfl hi rfl fun cyc => ?_, fun h htrig hsrc =>
      (does_halt hi hp hk h htrig hsrc).imp fun t ht => ⟨ht.state, ht.mem, ht.count⟩⟩
    have hwrites : ((s.issuedAt e cyc).eng e).jobWrites = true := by
      rw [Engine.jobWrites, State.issuedAt_ch0, State.issuedAt_ch1]
      exact h
    rw [if_pos hwrites]
    exact waitResult_beWait ..

end Sys2Proof.Machine

/-! ## Events from programs, and the commands of an engine (R94, R98, R99, R102 to R104) -/

namespace Sys2Proof.Machine

/-! ### EVPOST (R98) -/

/-- A program's event enters the outbox of unit BE, which the sixteen engines share. -/
theorem State.post_outbox_be {s : State} {k : EvKind} (src : Nat) (hfw : s.boot.fwStarted = true) (hcls : k.cls = 0x0C)
    (hroom : s.outboxOf 0x24 < 4) (data : Nat) :
    ∃ lt, (s.post k src data).hamper.outbox = s.hamper.outbox ++ [(0x24, ⟨k, src, BitVec.ofNat 32 data, lt⟩)] := by
  have hunit : ∀ lt, evUnit ⟨k, src, BitVec.ofNat 32 data, lt⟩ = 0x24 := fun lt => if_pos hcls
  refine ⟨if s.time.frcRun then s.lampNs else 0, ?_⟩
  rw [State.post, if_pos hfw, State.offer_outbox (by rwa [hunit]), hunit]

/-- Before the firmware starts, the boot ROM holds the event (R63). -/
theorem State.post_held {s : State} (hfw : s.boot.fwStarted = false) (k : EvKind) (src data : Nat) :
    ∃ lt, (s.post k src data).boot.held = s.boot.held ++ [⟨k, src, BitVec.ofNat 32 data, lt⟩] := by
  refine ⟨if s.time.frcRun then s.lampNs else 0, ?_⟩
  rw [State.post, if_neg (by rw [hfw]; decide)]

/-- The condition on IMM, as EVPOST reads it. -/
theorem evpost_legal_iff (i : Word) : (i.getLsbD 15 = true ∧ 1 ≤ i.toNat / 2 ^ 16 % 4 ∧ i.toNat < 2 ^ 18) ↔
    (i.toNat / 2 ^ 15 % 2 = 1 ∧ 1 ≤ i.toNat / 2 ^ 16 % 4 ∧ i.toNat < 2 ^ 18) := by
  rw [BitVec.getLsbD, Nat.testBit_eq_decide_div_mod_eq, decide_eq_true_iff]

theorem beState_of_canIssue {e : Fin 16} {op : Nat} {h : KvShape} {f : KvF} {s : State} (hi : CanIssue e op h f s) : s.beState e = beRUN := by
  have hrun := issuing_of_canIssue hi
  rw [State.issuing, Bool.and_eq_true] at hrun
  exact eq_of_beq hrun.1

/-- What an instruction that posts an event leaves, whatever the event. -/
theorem finishK_post {e : Fin 16} {s : State} {k : EvKind} {data : Nat} (hp : k.prio < 4) (cyc : Nat) :
    let t := State.finishK e (.step ((s.issuedAt e cyc).post k e data) 1)
    (t.eng e).pc = (s.eng e).pc + 1 ∧ t.mem = s.mem ∧ t.beState e = s.beState e := by
  have q := (Quiet.refl [] (s.issuedAt e cyc)).post (k := k) (c := e) (d := data) hp
  refine ⟨?_, q.mem_eq, q.getF _ (by simp) (status_not_mem_evRegs e).1⟩
  rw [State.finishK_step_pc, q.eng, State.issuedAt_pc]

theorem does_evpost {e : Fin 16} {f : KvF} {s : State} (hi : CanIssue e 0xB3 { a := .s, imm := .any } f s)
    (hlegal : f.imm.toNat / 2 ^ 15 % 2 = 1 ∧ 1 ≤ f.imm.toNat / 2 ^ 16 % 4 ∧ f.imm.toNat < 2 ^ 18) :
    Does (.evpost e f) s (fun t => (t.eng e).pc = (s.eng e).pc + 1 ∧ t.mem = s.mem ∧ t.beState e = beRUN
      ∧ (s.boot.fwStarted = true → s.outboxOf 0x24 < 4 → ∃ lt, t.hamper.outbox = s.hamper.outbox ++
          [(0x24, ⟨⟨12, f.imm.toNat % 65536, f.imm.toNat / 65536⟩, e, (s.eng e).s f.a.toNat, lt⟩)])
      ∧ (s.boot.fwStarted = false → ∃ lt, t.boot.held = s.boot.held ++
          [⟨⟨12, f.imm.toNat % 65536, f.imm.toNat / 65536⟩, e, (s.eng e).s f.a.toNat, lt⟩])) :=
  does_of_keav rfl hi rfl fun cyc => by
    have hprio : f.imm.toNat / 2 ^ 16 % 4 = f.imm.toNat / 65536 := Nat.mod_eq_of_lt (by omega)
    have hdata : BitVec.ofNat 32 ((s.eng e).s f.a.toNat).toNat = (s.eng e).s f.a.toNat := by rw [BitVec.ofNat_toNat, BitVec.setWidth_eq]
    dsimp only
    rw [if_pos hlegal, State.issuedAt_s, hprio]
    obtain ⟨hpc, hmem, hst⟩ := finishK_post (e := e) (s := s) (k := ⟨12, f.imm.toNat % 65536, f.imm.toNat / 65536⟩)
      (data := ((s.eng e).s f.a.toNat).toNat) (by show f.imm.toNat / 65536 < 4; omega) cyc
    refine ⟨hpc, hmem, hst.trans (beState_of_canIssue hi), fun hfw hroom => ?_, fun hfw => ?_⟩
    · have h := State.post_outbox_be (s := s.issuedAt e cyc) (k := ⟨12, f.imm.toNat % 65536, f.imm.toNat / 65536⟩) e hfw rfl hroom
        ((s.eng e).s f.a.toNat).toNat
      rwa [hdata] at h
    · have h := State.post_held (s := s.issuedAt e cyc) hfw ⟨12, f.imm.toNat % 65536, f.imm.toNat / 65536⟩ e ((s.eng e).s f.a.toNat).toNat
      rwa [hdata] at h

/-- Settles O22: the event that a legal EVPOST posts, and the exception of an illegal one. -/
theorem eventPost : Obligations.EventPost := by
  unfold Obligations.EventPost
  refine fun e f s hi => ⟨fun hlegal => does_evpost hi ((evpost_legal_iff _).1 hlegal), fun hbad hc => ?_⟩
  exact does_of_keav_trap rfl hi hc (by decide) rfl fun cyc => if_neg ((evpost_legal_iff _).not.1 hbad)

/-! ### The start of a job (R99, R104) -/

/-- Taking a job's argument draws at most a free value. -/
theorem State.jobArgOf_eq (s : State) (n src : Nat) : (s.jobArgOf n src).2 = { s with draws := (s.jobArgOf n src).2.draws } := by
  unfold State.jobArgOf
  split <;> rfl

/-- What the drain of a mailbox leaves of its engine. -/
structure Drained (n : Nat) (s : State) (r : Bool × State) : Prop where
  ok : r.1 = false
  only : EngineOnly n s r.2
  pc : (r.2.eng n).pc = (s.eng n).pc
  src : (r.2.eng n).jobSrc = (s.eng n).jobSrc

theorem Drained.refl (n : Nat) (s : State) : Drained n s (false, s) := ⟨rfl, .refl n s, rfl, rfl⟩

theorem Drained.updEng {n : Nat} (s : State) {F : Engine → Engine} (hpc : ∀ g, (F g).pc = g.pc) (hsrc : ∀ g, (F g).jobSrc = g.jobSrc) :
    Drained n s (false, s.updEng n F) :=
  ⟨rfl, (EngineOnly.refl n s).updEng F, by rw [State.eng_updEng_same, hpc], by rw [State.eng_updEng_same, hsrc]⟩

theorem State.foldl_slotCheck {s : State} (hs : s.ecc.synd = []) (b : Nat) (l : List Nat) :
    l.foldl (fun (a : Bool × State) m => (a.1 || (a.2.beCheck (b + slotAddr m) 0x800).1.1, (a.2.beCheck (b + slotAddr m) 0x800).2))
      (false, s) = (false, s) := by
  induction l with
  | nil => rfl
  | cons m l ih => rw [List.foldl_cons]; simpa only [State.beCheck_of_no_synd hs, Bool.or_self] using ih

theorem State.jobTake_of_clean {s : State} (hs : s.ecc.synd = []) (n : Nat) : Drained n s (s.jobTake n) := by
  cases hp : (s.eng n).prog with
  | none => simp only [State.jobTake, hp]; exact .refl n s
  | some p =>
    by_cases hk : p.kind = .user
    · simp only [State.jobTake, hp, hk, if_true]; exact .refl n s
    · simp only [State.jobTake, hp, if_neg hk]
      erw [State.foldl_slotCheck hs]
      exact .updEng s (fun g => rfl) fun g => rfl

/-- What the registers show of an engine that is sent to the state `st`: no wait, no trigger pending. -/
def State.sentTo (s : State) (n st : Nat) : State := ((s.setBeState n st).setF (fBE_STATUS_WAIT_ON n) 0).setF (fBE_STATUS_TRIG_PENDING n) 0

theorem State.sentTo_only (s : State) (n st : Nat) : OnlyRegs [rBE_STATUS n] s (s.sentTo n st) :=
  (((OnlyRegs.refl _ s).setF (by simp)).setF (by simp)).setF (by simp)

theorem State.sentTo_beState (s : State) (n : Nat) {st : Nat} (h : st < 16) : (s.sentTo n st).beState n = st := by
  simp [State.sentTo, State.beState, State.setBeState, State.getF_setF_other, State.getF_setF, Nat.mod_eq_of_lt h]

theorem State.sentTo_pending (s : State) (n st : Nat) : (s.sentTo n st).getF (fBE_STATUS_TRIG_PENDING n) = 0 := by
  simp [State.sentTo, State.getF_setF]

/-- Engine `n` runs a job of source `src` from ENTRY_PC. -/
structure JobStarted (n src : Nat) (s t : State) : Prop where
  state : t.beState n = beRUN
  pc : (t.eng n).pc = s.regN (rBE_ENTRY_PC n) % 8192
  src : (t.eng n).jobSrc = src
  mem : t.mem = s.mem
  others : ∀ k, k ≠ n → t.eng k = s.eng k

theorem EngineOnly.mem_eq {n : Nat} {s t : State} (h : EngineOnly n s t) : t.mem = s.mem := by rw [h.rest]

/-- The engine at the start of a job. -/
def Engine.startAt (pc src cyc lt jobLt frame : Nat) (arg : Word) (g : Engine) : Engine :=
  { g with pc := pc, jobSrc := src, jobArg := arg, cycle := 0, ready := [], wait := .none, mute := false, jobFrom := cyc, trigLt := lt,
           jobLt := jobLt, jobFrame := frame }

theorem jobStarted_startJob {s : State} {n : Nat} (hs : s.ecc.synd = []) (hnext : (s.eng n).next = none) (src lt : Nat) :
    JobStarted n src s (s.startJob n src lt) := by
  have hupdate : s.takeUpdate n = s := by simp only [State.takeUpdate, hnext]
  generalize hu : (s.jobArgOf n src).2 = u
  have hdraws : u = { s with draws := u.draws } := hu ▸ s.jobArgOf_eq n src
  have hreg : ∀ off, u.regN off = s.regN off := fun off => by rw [hdraws]; rfl
  have heng : ∀ k, u.eng k = s.eng k := fun k => by rw [hdraws]; rfl
  have hmem : u.mem = s.mem := by rw [hdraws]
  have hsynd : u.ecc.synd = [] := by rw [hdraws]; exact hs
  generalize hv : u.updEng n (Engine.startAt (u.regN (rBE_ENTRY_PC n) % 8192) src u.time.now lt u.lampNs u.lampTiming.frame
    (s.jobArgOf n src).1) = v
  obtain ⟨hok, honly, hpc, hsrc⟩ := State.jobTake_of_clean (s := v) (hv ▸ hsynd) n
  have heq : s.startJob n src lt = if (v.jobTake n).1 then ((v.jobTake n).2.sentTo n beRUN).engineTrap n 6 else (v.jobTake n).2.sentTo n beRUN := by
    rw [State.startJob, hupdate]
    dsimp only
    rw [hu, ← hv]
    rfl
  rw [heq, if_neg (by rw [hok]; decide)]
  generalize (v.jobTake n).2 = w at honly hpc hsrc
  have ho := w.sentTo_only n beRUN
  exact {
    state := w.sentTo_beState n (by decide)
    pc := by rw [ho.eng, hpc, ← hv, State.eng_updEng_same, Engine.startAt, hreg]
    src := by rw [ho.eng, hsrc, ← hv, State.eng_updEng_same]; rfl
    mem := ho.mem_eq.trans (honly.mem_eq.trans (hv ▸ hmem))
    others := fun k hk => by rw [ho.eng, honly.others k hk, ← hv, State.eng_updEng_other _ _ hk, heng] }

/-! ### Commands (R94, R99, R102) -/

theorem does_beCmd {e : Fin 16} {s : State} {c : Instr} {act : State → State} {P : State → Prop} (ht : Takes s (rBE_CMD e))
    (hx : exec c s = .next (s.viaReg (rBE_CMD e) act)) (hp : P (act s)) : Does c s P := by
  rw [State.viaReg_of_takes ht (s.absentUnit_of_le (by show 0x200000 ≤ 0x240000 + 0x1000 * e.val; omega))] at hx
  exact ⟨_, hx, hp⟩

/-- An engine that is sent to another state by a command: its wait is over, its trigger is dropped. -/
theorem sentTo_result {n st : Nat} {s u : State} (hst : st < 16) (hu : u = { s with be := u.be }) (hwait : (u.eng n).wait = .none) :
    let t := u.sentTo n st
    t.beState n = st ∧ (t.eng n).wait = .none ∧ t.getF (fBE_STATUS_TRIG_PENDING n) = 0 ∧ t.mem = s.mem
      ∧ Quiet [rBE_STATUS n] { s with be := t.be } t := by
  have ho := u.sentTo_only n st
  have hbe : (u.sentTo n st).be = u.be := by rw [ho.rest]
  refine ⟨u.sentTo_beState n hst, by rw [ho.eng, hwait], u.sentTo_pending n st, ho.mem_eq.trans (by rw [hu]), ?_⟩
  rw [hbe, ← hu]
  exact ho.quiet

theorem Engine.muteDma_mute (g : Engine) : ∀ d ∈ g.muteDma.ch0 ++ g.muteDma.ch1, d.mute = true := by
  intro d hd
  simp only [Engine.muteDma, List.mem_append, List.mem_map] at hd
  obtain ⟨x, -, rfl⟩ | ⟨x, -, rfl⟩ := hd <;> rfl

/-- An update of an engine leaves all the rest. -/
theorem State.updEng_be (s : State) (n : Nat) (F : Engine → Engine) : s.updEng n F = { s with be := (s.updEng n F).be } := rfl

theorem does_beStart {e : Fin 16} {s : State} (hc : Clean s) (ht : Takes s (rBE_CMD e)) (hst : s.beState e = beIDLE)
    (hgate : s.beGated = false) (hnext : (s.eng e).next = none) : Does (.beStart e) s (JobStarted e 0 s) :=
  does_beCmd ht rfl (by
    rw [State.beStartOp, State.trigger, if_pos ⟨hst, hgate⟩]
    exact jobStarted_startJob hc.1 hnext 0 _)

theorem not_off_of_running {n : Nat} {s : State} (h : Running n s) : s.beState n ≠ beOFF := by
  obtain h | h := h <;> rw [h] <;> decide

/-- STOP of an engine that runs or waits. -/
theorem does_beStop_running {e : Fin 16} {s : State} (ht : Takes s (rBE_CMD e)) (hrun : Running e s) :
    Does (.beStop e) s (fun t => t.beState e = beIDLE ∧ (t.eng e).wait = .none ∧ t.getF (fBE_STATUS_TRIG_PENDING e) = 0
      ∧ (∀ d ∈ (t.eng e).ch0 ++ (t.eng e).ch1, d.mute = true) ∧ t.mem = s.mem ∧ Quiet [rBE_STATUS e] { s with be := t.be } t) :=
  does_beCmd ht rfl (by
    have hrun' : Running e (s.updEng e Engine.muteDma) := hrun
    rw [State.beStopOp, if_neg (not_off_of_running hrun)]
    dsimp only
    rw [if_pos hrun']
    generalize hu : (s.updEng e Engine.muteDma).updEng e (fun g => { g with wait := .none }) = u
    have heng : u.eng e = { (s.eng e).muteDma with wait := .none } := by rw [← hu, State.eng_updEng_same, State.eng_updEng_same]
    obtain ⟨hst, hwait, hpend, hmem, hq⟩ := sentTo_result (n := e) (s := s) (u := u) (st := beIDLE) (by decide) (hu ▸ rfl) (by rw [heng])
    refine ⟨hst, hwait, hpend, ?_, hmem, hq⟩
    have hd := (s.eng e).muteDma_mute
    intro d hd'
    refine hd d ?_
    have h0 := (u.sentTo_only e beIDLE).eng e
    rw [heng] at h0
    have hch : ((u.sentTo e beIDLE).eng e).ch0 ++ ((u.sentTo e beIDLE).eng e).ch1 = (s.eng e).muteDma.ch0 ++ (s.eng e).muteDma.ch1 := by
      rw [h0]
    exact hch ▸ hd')

/-- STOP elsewhere than in OFF, RUN and WAIT. -/
theorem does_beStop_resting {e : Fin 16} {s : State} (ht : Takes s (rBE_CMD e)) (hoff : s.beState e ≠ beOFF) (hrun : s.beState e ≠ beRUN)
    (hwait : s.beState e ≠ beWAIT) :
    Does (.beStop e) s (fun t => (∀ d ∈ (t.eng e).ch0 ++ (t.eng e).ch1, d.mute = true) ∧ (∀ k, k ≠ e.val → t.eng k = s.eng k)
      ∧ t = { s with be := t.be }) :=
  does_beCmd ht rfl (by
    have hrest : ¬Running e (s.updEng e Engine.muteDma) := fun h => h.elim hrun hwait
    rw [State.beStopOp, if_neg hoff]
    dsimp only
    rw [if_neg hrest]
    refine ⟨?_, fun k hk => State.eng_updEng_other _ _ hk, rfl⟩
    rw [State.eng_updEng_same]
    exact (s.eng e).muteDma_mute)

theorem does_beReset {e : Fin 16} {s : State} (ht : Takes s (rBE_CMD e)) (hoff : s.beState e ≠ beOFF) (hstop : s.beState e ≠ beSTOPPING)
    (hlost : (s.eng e).lost = false) :
    Does (.beReset e) s (fun t => t.beState e = beLOADING ∧ (t.eng e).wait = .none ∧ t.getF (fBE_STATUS_TRIG_PENDING e) = 0
      ∧ t.mem = s.mem ∧ Quiet [rBE_STATUS e] { s with be := t.be } t) :=
  does_beCmd ht rfl (by
    rw [State.beResetOp, if_neg (by simp [hoff, hstop, hlost])]
    exact sentTo_result (by decide) rfl (by rw [State.eng_updEng_same]))

/-! ### Restarts (R77, R102) -/

theorem State.readMem_of_clean {s : State} (h : s.ecc.synd = []) (a n : Nat) : s.readMem a n = ((s.bytes a n, false), s) := by
  simp [State.readMem, State.checkRange, State.dirtyWords, h]

theorem State.readCopy_of_clean {s : State} (h : s.ecc.synd = []) (n : Nat) (p : BeprogC) :
    s.readCopy n p = (some (s.bytes (s.copyBase n) (8 * p.image.length), s.bytes (s.copyBase n + 0x10000) p.data.length), s) := by
  simp [State.readCopy, State.readMem_of_clean h]

theorem State.reloadFrom_self {s : State} (h : s.ecc.synd = []) (n : Nat) (p : BeprogC) :
    s.reloadFrom n n p = (true, s.putImages n (s.bytes (s.copyBase n) (8 * p.image.length))
      (s.bytes (s.copyBase n + 0x10000) p.data.length)) := by
  simp [State.reloadFrom, State.readCopy_of_clean h]

theorem State.putImages_of_clean {s : State} (h : Clean s) (n : Nat) (im da : List Byte) :
    s.putImages n im da = (s.setBytes (imemBase n) im).setBytes (ldBase n) da := by
  have h' : Clean (s.setBytes (imemBase n) im) := h
  rw [State.putImages, State.writeMem_of_clean h, State.writeMem_of_clean h']

/-- The images that stand in an engine's memories after they are put there. -/
theorem State.bytes_putImages {s : State} (h : Clean s) (e : Fin 16) (im da : List Byte)
    (hda : da.length ≤ 0x1C000) :
    (s.putImages e im da).bytes (imemBase e) im.length = im ∧ (s.putImages e im da).bytes (ldBase e) da.length = da := by
  rw [State.putImages_of_clean h]
  refine ⟨(State.bytes_congr fun x hlo _ => State.byte_setBytes_other _ (.inr ?_)).trans (State.bytes_setBytes_same ..),
    State.bytes_setBytes_same ..⟩
  rw [imemBase] at hlo
  rw [ldBase]
  omega

theorem State.bytes_of_mem {s t : State} (h : t.mem = s.mem) (a n : Nat) : t.bytes a n = s.bytes a n := by
  rw [State.bytes, h, State.bytes]

/-- The engine as a restart leaves it. -/
def Engine.restarted (g : Engine) : Engine := { freshEngine g.prog g.lastFault with next := g.next, ch0 := g.ch0, ch1 := g.ch1 }

theorem Engine.restarted_s (g : Engine) (k : Nat) : g.restarted.s k = 0 := ite_self _

theorem Engine.restarted_p (g : Engine) {k : Nat} (hk : k ≠ 0) : g.restarted.p k = 0 := if_neg hk

theorem Engine.restarted_lane (g : Engine) (k j : Nat) : lane (g.restarted.v k) j = 0 := by
  have h : g.restarted.v k = Vector.replicate 32 0#16 := rfl
  rw [h, lane]
  by_cases hj : j < 32 <;> simp [hj]

/-- The state that a restart ends in, from the state `u` in which the images stand. -/
theorem restart_result {e : Fin 16} {u : State} (g : Engine) :
    let t := ((((u.dropProg e).setEng e g.restarted).setBeState e beIDLE).post evBE_ENGINE_RESTART e e)
    t.mem = u.mem ∧ t.beState e = beIDLE ∧ t.eng e = g.restarted := by
  have ho : OnlyRegs [rBE_STATUS e] ((u.dropProg e).setEng e g.restarted) _ := (OnlyRegs.refl _ _).setF (f := fBE_STATUS_STATE e) (n := beIDLE)
    (by simp)
  have q := (Quiet.refl [] (((u.dropProg e).setEng e g.restarted).setBeState e beIDLE)).post (k := evBE_ENGINE_RESTART) (c := e) (d := e)
    (by decide)
  refine ⟨q.mem_eq.trans ho.mem_eq, (q.getF _ (by simp) (status_not_mem_evRegs e).1).trans ?_, ?_⟩
  · simp [State.setBeState, State.getF_setF, beIDLE]
  · rw [q.eng]
    exact (ho.eng e).trans (by simp)

/-- The state in which the images of engine `n`'s program stand again. -/
def State.reloaded (s : State) (n : Nat) : State :=
  match (s.eng n).prog with
  | some p => s.putImages n (s.bytes (s.copyBase n) (8 * p.image.length)) (s.bytes (s.copyBase n + 0x10000) p.data.length)
  | none => s

theorem State.beRestart_of_clean {s : State} {n : Nat} (h : s.ecc.synd = []) (hst : s.beState n = beLOADING) :
    s.beRestart n = ((((s.reloaded n).dropProg n).setEng n (s.eng n).restarted).setBeState n beIDLE).post evBE_ENGINE_RESTART n n := by
  rw [State.beRestart, if_neg (not_not.2 hst)]
  cases hp : (s.eng n).prog with
  | none => simp only [State.reloaded, hp, if_true, Engine.restarted]
  | some p => simp only [State.reloaded, hp, State.reloadFrom_self h, if_true, Engine.restarted]

/-! ### Triggers (R104) -/

/-- A trigger that finds the engine at work waits. -/
theorem trigger_pending {e : Fin 16} {s : State} (hgate : s.beGated = false) (hrun : Running e s)
    (hpend : s.isF (fBE_STATUS_TRIG_PENDING e) = false) (k : Nat) :
    let t := s.trigger e k
    t.isF (fBE_STATUS_TRIG_PENDING e) = true ∧ (t.eng e).pendSrc = k ∧ t.beState e = s.beState e ∧ t.mem = s.mem := by
  have hidle : s.beState e ≠ beIDLE := by obtain h | h := hrun <;> rw [h] <;> decide
  generalize hu : s.updEng e (fun g => { g with pendSrc := k, pendLt := s.lampNs }) = u
  have hcur : (u.setF (fBE_STATUS_TRIG_PENDING e) 1).getF fPWR_PWR_STATUS_CURRENT = 0 := by
    have hzero : s.getF fPWR_PWR_STATUS_CURRENT = 0 := by simpa [State.beGated] using hgate
    rw [State.getF_setF_other _ _ _ _ (by simp) (by simp), ← hu, State.updEng_getF, hzero]
  have heq : s.trigger e k = u.setF (fBE_STATUS_TRIG_PENDING e) 1 := by
    rw [State.trigger, if_neg fun h => hidle h.1, if_pos (.inr hrun), if_neg (by rw [hpend]; decide)]
    dsimp only
    rw [hu, if_neg fun h => absurd (hcur.symm.trans h.1) (by decide)]
  have ho : OnlyRegs [rBE_STATUS e] u (u.setF (fBE_STATUS_TRIG_PENDING e) 1) := (OnlyRegs.refl _ u).setF (by simp)
  rw [heq]
  refine ⟨?_, ?_, ?_, ho.mem_eq.trans (hu ▸ rfl)⟩
  · simp [State.isF, State.getF_setF]
  · rw [ho.eng, ← hu, State.eng_updEng_same]
  · rw [State.beState, State.getF_setF_other _ _ _ _ (by simp) (by simp), ← hu, State.updEng_getF, State.beState]

/-- Settles O23: what each command makes of the engine in the states where it is taken. -/
theorem engineCommands : Obligations.EngineCommands := by
  unfold Obligations.EngineCommands
  refine ⟨?start, ?stop, ?stopResting, ?reset, ?gated, ?restart, ?trigger⟩
  case start => exact fun e s hc ht hst hgate hnext => (does_beStart hc ht hst hgate hnext).imp fun t h => ⟨h.state, h.pc, h.src, h.mem, h.others⟩
  case stop => exact fun e s ht hrun => does_beStop_running ht hrun
  case stopResting => exact fun e s ht hoff hrun hwait => does_beStop_resting ht hoff hrun hwait
  case reset => exact fun e s ht hoff hstop hlost => does_beReset ht hoff hstop hlost
  case gated =>
    intro e s _ _ hgate
    have hx : exec (.engineRestart e) s = .next (if s.beGated then s else s.beRestart e) := rfl
    rw [if_pos hgate] at hx
    exact ⟨_, hx, rfl⟩
  case restart =>
    intro e s hc hst hgate
    have hx : exec (.engineRestart e) s = .next (if s.beGated then s else s.beRestart e) := rfl
    rw [if_neg (by rw [hgate]; decide), State.beRestart_of_clean hc.1 hst] at hx
    obtain ⟨hmem, hidle, heng⟩ := restart_result (e := e) (u := s.reloaded e) (s.eng e)
    refine ⟨_, hx, fun p hp _ hda => ?_, hidle, fun k => ?_, fun k hk => ?_, fun k j => ?_, ?_, ?_⟩
    · have h := State.bytes_putImages hc e (s.bytes (s.copyBase e) (8 * p.image.length)) (s.bytes (s.copyBase e + 0x10000) p.data.length)
        (by rwa [State.length_bytes])
      rw [State.length_bytes, State.length_bytes] at h
      rw [State.bytes_of_mem hmem, State.bytes_of_mem hmem, State.reloaded, hp]
      exact h
    all_goals rw [heng]
    · exact Engine.restarted_s ..
    · exact Engine.restarted_p _ hk
    · exact Engine.restarted_lane ..
    · rfl
    · rfl
  case trigger =>
    intro e srcs k s hc hk hgate
    have hx : exec (.jobTrigger e srcs) s = .next (match s.trigSource e srcs with
      | some k => s.trigger e k
      | none => s) := rfl
    rw [hk] at hx
    refine ⟨fun hst hnext => ⟨_, hx, ?_⟩, fun hrun hpend => ⟨_, hx, trigger_pending hgate hrun hpend k⟩⟩
    dsimp only
    rw [State.trigger, if_pos ⟨hst, hgate⟩]
    have h := jobStarted_startJob hc.1 hnext k s.lampNs
    exact ⟨h.state, h.src, h.pc, h.mem⟩

end Sys2Proof.Machine

/-! ## The ends of waits, and DMA transfers (R85, R89, R90, R92, R93, R96, R100, R103, R104) -/

namespace Sys2Proof.Machine

/-! ### A wait that ends -/

/-- The engine as it goes on after a wait. -/
def Engine.resumed (cyc now : Nat) (g : Engine) : Engine := { g with cycle := cyc, waitFrom := now, wait := .none, pc := g.pc + 1 }

/-- What the end of engine `n`'s wait leaves of the state `u`. -/
structure Resumed (n : Nat) (u t : State) : Prop where
  state : t.beState n = beRUN
  eng : ∃ cyc now, t.eng n = (u.eng n).resumed cyc now
  mem : t.mem = u.mem
  quiet : Quiet [rBE_STATUS n] { u with be := t.be } t

theorem resumed_beResume (n : Nat) (u : State) : Resumed n u (u.beResume n) := by
  generalize hv : (u.waitCount n).updEng n (fun e => { e with wait := .none, cycle := e.cycle + 1, pc := e.pc + 1 }) = v
  have heq : u.beResume n = (v.setBeState n beRUN).setF (fBE_STATUS_WAIT_ON n) 0 := hv ▸ rfl
  have ho : OnlyRegs [rBE_STATUS n] v (u.beResume n) := heq ▸ ((OnlyRegs.refl _ v).setF (by simp)).setF (by simp)
  have hbe : (u.beResume n).be = v.be := by rw [ho.rest]
  have hrest : v = { u with be := v.be } := by rw [← hv]; rfl
  refine ⟨?_, ⟨(u.eng n).cycle + u.waitCycles n + 1, u.time.now, ?_⟩, ho.mem_eq.trans (by rw [hrest]), ?_⟩
  · rw [heq]
    simp [State.beState, State.setBeState, State.getF_setF_other, State.getF_setF, beRUN]
  · rw [ho.eng, ← hv, State.eng_updEng_same, State.waitCount, State.eng_updEng_same]
    rfl
  · rw [hbe, ← hrest]
    exact ho.quiet

theorem Resumed.pc {n : Nat} {u t : State} (h : Resumed n u t) : (t.eng n).pc = (u.eng n).pc + 1 := by
  obtain ⟨cyc, now, heng⟩ := h.eng
  rw [heng]
  rfl

theorem Resumed.wait {n : Nat} {u t : State} (h : Resumed n u t) : (t.eng n).wait = .none := by
  obtain ⟨cyc, now, heng⟩ := h.eng
  rw [heng]
  rfl

theorem Resumed.chan {n : Nat} {u t : State} (h : Resumed n u t) (ch : Nat) : (t.eng n).chan ch = (u.eng n).chan ch := by
  obtain ⟨cyc, now, heng⟩ := h.eng
  rw [heng]
  rfl

theorem Resumed.slots {n : Nat} {u t : State} (h : Resumed n u t) : (t.eng n).slots = (u.eng n).slots := by
  obtain ⟨cyc, now, heng⟩ := h.eng
  rw [heng]
  rfl

theorem Resumed.s {n : Nat} {u t : State} (h : Resumed n u t) (k : Nat) : (t.eng n).s k = (u.eng n).s k := by
  obtain ⟨cyc, now, heng⟩ := h.eng
  rw [heng]
  rfl

/-- A fence is no register of an engine. -/
theorem Resumed.fence {n : Nat} {u t : State} (h : Resumed n u t) (k : Nat) : t.fence k = u.fence k := by
  have hk : k % 16 < 16 := Nat.mod_lt _ (by decide)
  have hne : rMSG_FENCE (k % 16) ≠ rBE_STATUS n := by
    show 0xC0100 + 0x4 * (k % 16) ≠ 0x240004 + 0x1000 * n
    omega
  have hev : ∀ j : Fin 16, rMSG_FENCE j ∉ evRegs := by decide
  exact h.quiet.regs _ (by simpa using hne) (hev ⟨k % 16, hk⟩)

/-- A wait that ends after a change of the engine alone. -/
theorem Resumed.quiet_of_be {n : Nat} {s u t : State} (h : Resumed n u t) (hu : u = { s with be := u.be }) :
    Quiet [rBE_STATUS n] { s with be := t.be } t := by
  have q := h.quiet
  rw [hu] at q
  exact q

/-! ### The instructions that waited -/

theorem waits_of_wait {n : Nat} {s : State} (h : s.waits n = true) : s.waits n ≠ false := by rw [h]; decide

theorem running_of_waits {n : Nat} {s : State} (h : s.waits n = true) : Running n s := .inr (by
  rw [State.waits, Bool.and_eq_true] at h
  exact eq_of_beq h.1)

theorem does_dmaQueueRoom {e : Fin 16} {s : State} {ch : Nat} {d : Desc} (hw : s.waits e = true) (hwait : (s.eng e).wait = .dmaq ch d)
    (hroom : ((s.eng e).chan ch).length < 4) :
    Does (.dmaQueueRoom e) s (fun t => t.beState e = beRUN ∧ (t.eng e).pc = (s.eng e).pc + 1 ∧ (t.eng e).wait = .none
      ∧ (t.eng e).chan ch = (s.eng e).chan ch ++ [d] ∧ Quiet [rBE_STATUS e] { s with be := t.be } t) := by
  have hx : exec (.dmaQueueRoom e) s = .next (s.dmaRoom e) := rfl
  rw [State.dmaRoom, if_neg (waits_of_wait hw), hwait] at hx
  dsimp only at hx
  rw [if_pos hroom] at hx
  have h := resumed_beResume e (s.updEng e (fun g => g.setChan ch (g.chan ch ++ [d])))
  refine ⟨_, hx, h.state, ?_, h.wait, ?_, h.quiet_of_be rfl⟩
  · rw [h.pc, State.eng_updEng_same, (sameRegs_setChan ..).pc]
  · rw [h.chan, State.eng_updEng_same, Engine.chan_setChan]

theorem does_mbrecvDelivered {e : Fin 16} {s : State} {d : BitVec 5} {m : Nat} (hw : s.waits e = true)
    (hwait : (s.eng e).wait = .mbrecv d.toNat) (hm : (s.eng e).firstSlot = some m) :
    Does (.mbrecvDelivered e) s (fun t => t.beState e = beRUN ∧ (t.eng e).pc = (s.eng e).pc + 1 ∧ (m, true) ∈ (t.eng e).slots
      ∧ (t.eng e).s d.toNat = (if d = 0 then 0 else BitVec.ofNat 32 (slotAddr m)) ∧ Quiet [rBE_STATUS e] { s with be := t.be } t) := by
  have hx : exec (.mbrecvDelivered e) s = .next (s.mbDeliver e) := rfl
  have hd0 : d.toNat = 0 ↔ d = 0 := (BitVec.toNat_inj (y := 0#5)).trans Iff.rfl
  rw [State.mbDeliver, if_neg (waits_of_wait hw), hwait, hm] at hx
  dsimp only at hx
  rw [BitVec.ofNat_toNat, BitVec.setWidth_eq] at hx
  have h := resumed_beResume e ((s.updEng e (fun g => g.takeSlot m)).putS e d (BitVec.ofNat 32 (slotAddr m)) 2)
  have heng : ((s.updEng e (fun g => g.takeSlot m)).putS e d (BitVec.ofNat 32 (slotAddr m)) 2).eng e =
      (((s.eng e).takeSlot m).setS d.toNat (BitVec.ofNat 32 (slotAddr m))).due (keyS d.toNat) 2 := by
    rw [State.putS, State.eng_updEng_same, State.eng_updEng_same]
  refine ⟨_, hx, h.state, ?_, ?_, ?_, h.quiet_of_be rfl⟩
  · rw [h.pc, heng, Engine.pc_due, Engine.pc_setS]
    rfl
  · have hslot := Engine.mem_takeSlot hm
    rw [h.slots, heng]
    simpa [Engine.due, Engine.setS, apply_ite Engine.slots] using hslot
  · rw [h.s, heng, Engine.s_due, Engine.s_setS]
    simp [hd0]

theorem does_fsigWritesVisible {e : Fin 16} {s : State} {k : Nat} (hw : s.waits e = true) (hwait : (s.eng e).wait = .fsig k)
    (hpend : (s.eng e).writesPending = false) :
    Does (.fsigWritesVisible e) s (fun t => t.beState e = beRUN ∧ (t.eng e).pc = (s.eng e).pc + 1 ∧ t.fence k = s.fence k + 1
      ∧ t.mem = s.mem) := by
  have hx : exec (.fsigWritesVisible e) s = .next (s.fsigDone e) := rfl
  rw [State.fsigDone, if_neg (waits_of_wait hw), hwait] at hx
  dsimp only at hx
  rw [if_neg (by rw [hpend]; decide)] at hx
  have h := resumed_beResume e (s.signal k 1)
  refine ⟨_, hx, h.state, ?_, ?_, h.mem.trans (s.signal_mem k 1)⟩
  · rw [h.pc, State.signal_eng]
  · rw [h.fence, State.signal_fence, if_pos rfl]

/-- FWAIT_TIMEOUT in a wait for a fence. -/
theorem exec_fwaitTimeout {e : Fin 16} {s : State} {k : Nat} {x : Word} (hw : s.waits e = true) (hwait : (s.eng e).wait = .fwait k x) :
    exec (.fwaitTimeout e) s = .next (if s.time.now - (s.eng e).limFrom ≤ 800 * max 1 (s.regN (rBE_FWAIT_LIMIT e) % 65536) then s
      else s.engineTrap e 9) := by
  have hx : exec (.fwaitTimeout e) s = .next (s.fwaitLate e) := rfl
  rw [hx, State.fwaitLate, hwait]
  simp [hw, State.limitTicks]

/-- Settles O24: each wait ends with what it waited for, and its limit with the exception. -/
theorem waitsEnd : Obligations.WaitsEnd := by
  unfold Obligations.WaitsEnd
  refine ⟨?halt, ?dmaq, ?dmawait, ?fsig, ?fwait, ?timeout, ?mbrecv, ?watchdog⟩
  case halt =>
    intro e s p hw hwait hwrites hp hk htrig hsrc
    have hx : exec (.haltComplete e) s = .next (if s.waits e = false ∨ (s.eng e).wait ≠ .halt ∨ (s.eng e).jobWrites then s
      else (s.waitCount e).endJob e) := rfl
    rw [if_neg (by simp [hw, hwait, hwrites])] at hx
    have h := State.endJob_of_user (s := s.waitCount e) (n := e) (by rw [State.waitCount, State.eng_updEng_same]; exact hp) hk
      (by rwa [State.waitCount, State.updEng_isF]) (by rwa [State.waitCount, State.updEng_getF])
    exact ⟨_, hx, h.state, h.wait, h.mem, h.count.trans (by rw [State.waitCount, State.updEng_regN])⟩
  case dmaq => exact fun e s ch d hw hwait hroom => does_dmaQueueRoom hw hwait hroom
  case dmawait =>
    intro e s m hw hwait hidle
    have hx : exec (.dmaQueueRoom e) s = .next (s.dmaRoom e) := rfl
    rw [State.dmaRoom, if_neg (waits_of_wait hw), hwait] at hx
    dsimp only at hx
    rw [if_pos hidle] at hx
    have h := resumed_beResume e s
    exact ⟨_, hx, h.state, h.pc, h.wait, h.quiet⟩
  case fsig => exact fun e s k hw hwait hpend => does_fsigWritesVisible hw hwait hpend
  case fwait =>
    intro e s k x hw hwait hreach
    have hx : exec (.fwaitSatisfied e) s = .next (s.fwaitDone e) := rfl
    rw [State.fwaitDone, if_neg (waits_of_wait hw), hwait] at hx
    dsimp only at hx
    rw [if_pos hreach] at hx
    have h := resumed_beResume e s
    exact ⟨_, hx, h.state, h.pc, h.wait, h.quiet⟩
  case timeout =>
    intro e s k x hw hwait hc
    have hx := exec_fwaitTimeout hw hwait
    refine ⟨fun hlate => ?_, fun hearly => ?_⟩
    · rw [if_neg (Nat.not_le.2 hlate)] at hx
      exact ⟨_, hx, trapResult_engineTrap (running_of_waits hw) hc (by decide) rfl rfl fun _ _ => rfl⟩
    · rw [if_pos hearly] at hx
      exact ⟨_, hx, rfl⟩
  case mbrecv => exact fun e s d m hw hwait hm => does_mbrecvDelivered hw hwait hm
  case watchdog =>
    intro e s hgate hrun hc
    have hx : exec (.watchdog e) s = .next (s.watchdogOp e) := rfl
    refine ⟨fun hlate => ?_, fun hearly => ?_⟩
    · rw [State.watchdogOp, if_pos ⟨hgate, hrun, hlate⟩] at hx
      exact ⟨_, hx, trapResult_engineTrap hrun hc (by decide) rfl rfl fun _ _ => rfl⟩
    · rw [State.watchdogOp, if_neg fun h => absurd h.2.2 (Nat.not_lt.2 hearly)] at hx
      exact ⟨_, hx, rfl⟩

/-! ### Rows of a descriptor (R89) -/

theorem State.readAll_of_clean {s : State} (h : s.ecc.synd = []) (a n : Nat) : s.readAll a n = ((s.bytes a n, false), s) := by
  simp [State.readAll, State.readMem_of_clean h, State.beLost, State.dirtyWords, h, State.trapAll]

theorem State.writeAll_of_clean {s : State} (h : Clean s) (a : Nat) (bs : List Byte) : s.writeAll a bs = s.setBytes a bs := by
  have hlost : s.beLostBy a bs.length = [] := by simp [State.beLostBy, State.dirtyWords, h.1]
  rw [State.writeAll, hlost, State.writeMem_of_clean h, State.trapAll, List.foldl_nil]

/-- A row of the protected window may be read. -/
theorem State.dmaRowOk_of_window {s : State} {a len : Nat} (hwp : s.wp ≤ 2 ^ 32) (h : a + len ≤ s.wp) (hlen : 0 < len) :
    s.dmaRowOk a len = true ∧ inRegs a = false := by
  have hend : a + len ≤ s.wpEnd := by
    unfold State.wpEnd
    split <;> omega
  have hout : inRegs a = false := by simp [inRegs]; omega
  refine ⟨?_, hout⟩
  simp [State.dmaRowOk, State.rangeOk, hend, hout]

/-- A row from the protected window to local data. -/
theorem State.dmaRowIn_of_window {s : State} (hc : Clean s) (n : Nat) {src dst len : Nat} (hwp : s.wp ≤ 2 ^ 32) (h : src + len ≤ s.wp)
    (hlen : 0 < len) : s.dmaRowIn n src dst len = .ok (s.setBytes (ldBase n + dst) (s.bytes src len)) := by
  obtain ⟨hok, hregs⟩ := State.dmaRowOk_of_window hwp h hlen
  simp [State.dmaRowIn, hok, hregs, State.readAll_of_clean hc.1, State.writeAll_of_clean hc]

/-- What the rows of a descriptor from the protected window leave. -/
structure RowsMoved (n : Nat) (x : Desc) (src dst k : Nat) (s t : State) : Prop where
  rest : t = { s with mem := t.mem }
  rows : ∀ r, r < k → t.bytes (ldBase n + dst + r * x.dstStride) x.width = s.bytes (src + r * x.srcStride) x.width
  other : ∀ a, (∀ r, r < k → a < ldBase n + dst + r * x.dstStride ∨ ldBase n + dst + r * x.dstStride + x.width ≤ a) → t.byte a = s.byte a

theorem dmaRows_moved {n : Nat} {x : Desc} (hx : x.toSys = false) (hw : 0 < x.width) (hd : x.width ≤ x.dstStride) (k : Nat) {s : State}
    {src dst : Nat} (hc : Clean s) (hwp : s.wp ≤ 2 ^ 32) (hsrc : k ≠ 0 → src + (k - 1) * x.srcStride + x.width ≤ s.wp) :
    ∃ t, s.dmaRows n x src dst k = .ok t ∧ RowsMoved n x src dst k s t := by
  induction k generalizing s src dst with
  | zero => exact ⟨s, rfl, rfl, fun r hr => absurd hr (Nat.not_lt_zero r), fun _ _ => rfl⟩
  | succ k ih =>
    have hlast : src + k * x.srcStride + x.width ≤ s.wp := hsrc (Nat.succ_ne_zero k)
    have hrow := State.dmaRowIn_of_window (s := s) hc n (src := src) (dst := dst) (len := x.width) hwp (by omega) hw
    generalize hu : s.setBytes (ldBase n + dst) (s.bytes src x.width) = u at hrow
    have hbyte : ∀ a, a < ldBase n + dst ∨ ldBase n + dst + x.width ≤ a → u.byte a = s.byte a := fun a ha => by
      rw [← hu, State.byte_setBytes_other _ (by rwa [State.length_bytes])]
    obtain ⟨t, ht, hrest, hrows, hother⟩ := ih (s := u) (src := src + x.srcStride) (dst := dst + x.dstStride) (hu ▸ hc) (hu ▸ hwp) (by
      intro hk
      obtain ⟨j, rfl⟩ := Nat.exists_eq_succ_of_ne_zero hk
      have hwpu : u.wp = s.wp := hu ▸ rfl
      rw [hwpu]
      rw [Nat.succ_mul] at hlast
      simp only [Nat.succ_eq_add_one, Nat.add_sub_cancel]
      omega)
    refine ⟨t, ?_, ?_, fun r hr => ?_, fun a ha => ?_⟩
    · simp only [State.dmaRows, hx, Bool.false_eq_true, if_false, hrow, ht]
    · rw [hrest, ← hu]
      rfl
    · cases r with
      | zero =>
        rw [Nat.zero_mul, Nat.add_zero, Nat.zero_mul, Nat.add_zero]
        refine (State.bytes_congr fun a _ hhi => hother a fun r _ => .inl ?_).trans ?_
        · omega
        · have h := s.bytes_setBytes_same (ldBase n + dst) (s.bytes src x.width)
          rwa [State.length_bytes, hu] at h
      | succ r =>
        have hle : (r + 1) * x.srcStride ≤ k * x.srcStride := Nat.mul_le_mul_right _ (by omega)
        have hbase : 2 ^ 32 ≤ ldBase n := by rw [ldBase]; omega
        have h := hrows r (by omega)
        rw [Nat.succ_mul] at hle ⊢
        rw [Nat.succ_mul, show ldBase n + dst + (r * x.dstStride + x.dstStride) = ldBase n + (dst + x.dstStride) + r * x.dstStride by omega, h,
          show src + (r * x.srcStride + x.srcStride) = src + x.srcStride + r * x.srcStride by omega]
        exact State.bytes_congr fun a _ hhi => hbyte a (by omega)
    · refine (hother a fun r hr => ?_).trans (hbyte a ?_)
      · have h := ha (r + 1) (by omega)
        rw [Nat.succ_mul] at h
        omega
      · simpa using ha 0 (by omega)

/-! ### Descriptors (R90, R92, R103) -/

theorem State.settleTrap_of_none {s : State} {n : Nat} (h : (s.eng n).trap = none) : s.settleTrap n = s := by
  rw [State.settleTrap, h]

theorem trap_setChan (g : Engine) (ch : Nat) (l : List Desc) : (g.setChan ch l).trap = g.trap := by
  unfold Engine.setChan
  split <;> rfl

/-- The fence that a descriptor raises when its rows have moved. -/
def State.raiseFence (s : State) (x : Desc) : State := if x.sig ∧ x.mute = false then s.signal x.fence 1 else s

theorem State.raiseFence_mem (s : State) (x : Desc) : (s.raiseFence x).mem = s.mem := by
  unfold State.raiseFence
  split
  · exact s.signal_mem _ _
  · rfl

theorem State.raiseFence_eng (s : State) (x : Desc) (k : Nat) : (s.raiseFence x).eng k = s.eng k := by
  unfold State.raiseFence
  split
  · exact s.signal_eng _ _ _
  · rfl

theorem State.raiseFence_fence (s : State) (x : Desc) {k : Nat} (hk : k < 16) :
    (s.raiseFence x).fence k = if x.sig = true ∧ x.mute = false ∧ k = x.fence % 16 then s.fence k + 1 else s.fence k := by
  unfold State.raiseFence
  by_cases h : x.sig = true ∧ x.mute = false
  · rw [if_pos h, State.signal_fence, Nat.mod_eq_of_lt hk]
    by_cases hf : k = x.fence % 16
    · have hreg : s.fence x.fence = s.fence k := by rw [State.fence, State.fence, Nat.mod_eq_of_lt hk, hf]
      rw [if_pos hf, if_pos ⟨h.1, h.2, hf⟩, hreg]
    · rw [if_neg hf, if_neg fun hc => hf hc.2.2]
  · rw [if_neg h, if_neg fun hc => h ⟨hc.1, hc.2.1⟩]

/-- A descriptor from DRAM to local data. -/
theorem does_dmaDescComplete {e : Fin 16} {ch : Fin 2} {s : State} {x : Desc} {rest : List Desc} (hc : Clean s) (hgate : s.beGated = false)
    (hch : (s.eng e).chan ch = x :: rest) (hsys : x.toSys = false) (hwp : s.wp ≤ 2 ^ 32)
    (hsrc : x.src + (x.height - 1) * x.srcStride + x.width ≤ s.wp) (hstride : x.width ≤ x.dstStride) (hw : 0 < x.width)
    (htrap : (s.eng e).trap = none) :
    Does (.dmaDescComplete e ch) s (fun t => (t.eng e).chan ch = rest
      ∧ (∀ r, r < x.height → t.bytes (ldBase e + x.dst + r * x.dstStride) x.width = s.bytes (x.src + r * x.srcStride) x.width)
      ∧ (∀ a, a < ldBase e + x.dst ∨ ldBase e + x.dst + (x.height - 1) * x.dstStride + x.width ≤ a → t.byte a = s.byte a)
      ∧ ∀ k, k < 16 → t.fence k = if x.sig = true ∧ x.mute = false ∧ k = x.fence % 16 then s.fence k + 1 else s.fence k) := by
  have hx : exec (.dmaDescComplete e ch) s = .next (if s.beGated then s else s.dmaComplete e ch) := rfl
  obtain ⟨u, hu, hrest, hrows, hother⟩ := dmaRows_moved (n := e) hsys hw hstride x.height (src := x.src) (dst := x.dst) hc hwp fun _ => hsrc
  have heng : ∀ k, u.eng k = s.eng k := fun k => by rw [hrest]; rfl
  have hfence : ∀ k, u.fence k = s.fence k := fun k => by rw [hrest]; rfl
  generalize hv : u.updEng e (fun g => g.setChan ch rest) = v
  have hveng : v.eng e = (s.eng e).setChan ch rest := by rw [← hv, State.eng_updEng_same, heng]
  have hcomplete : s.dmaComplete e ch = v.raiseFence x := by
    have htrap' : ((v.raiseFence x).eng e).trap = none := by rw [State.raiseFence_eng, hveng, trap_setChan, htrap]
    have h := State.settleTrap_of_none htrap'
    rw [State.dmaComplete, hch]
    dsimp only
    rw [hu]
    dsimp only
    rw [hv]
    exact h
  rw [if_neg (by rw [hgate]; decide), hcomplete] at hx
  have hmem : (v.raiseFence x).mem = u.mem := (v.raiseFence_mem x).trans (hv ▸ rfl)
  refine ⟨_, hx, ?_, fun r hr => ?_, fun a ha => ?_, fun k hk => ?_⟩
  · rw [State.raiseFence_eng, hveng, Engine.chan_setChan]
  · rw [State.bytes_of_mem hmem, hrows r hr]
  · rw [State.byte, hmem]
    refine hother a fun r hr => ?_
    have hle : r * x.dstStride ≤ (x.height - 1) * x.dstStride := Nat.mul_le_mul_right _ (by omega)
    omega
  · have hvf : v.fence k = s.fence k := by rw [← hfence, ← hv]; rfl
    rw [State.raiseFence_fence v x hk, hvf]

/-- The engine after an exception that finds it calm. -/
theorem eng_engineTrap_of_calm {e : Fin 16} {s : State} (hrun : Running e s) (hc : Calm e s) (code : Nat) :
    ∃ now, (s.engineTrap e code).eng e = ((s.eng e).cutDma).faultAt now := by
  refine ⟨s.time.now, ?_⟩
  rw [State.engineTrap_of_calm hrun hc, State.enterFaulted_of_first (by rw [State.eng_updEng_same]; exact hc.2.2)]
  have q := (Quiet.refl [] (((s.updEng e Engine.cutDma).updEng e (Engine.faultAt s.time.now)).faultMarks e code)).post
    (k := evBE_ENGINE_FAULT) (c := e) (d := 2 ^ 24 * e.val + 2 ^ 16 * code + ((s.updEng e Engine.cutDma).eng e).pc % 8192) (by decide)
  refine (q.eng e).trans ?_
  rw [(State.faultMarks_only ..).eng, State.eng_updEng_same, State.eng_updEng_same]

/-- A DMA error of the one channel in use. -/
theorem does_dmaErr {e : Fin 16} {ch : Fin 2} {s : State} (hgate : s.beGated = false) (hch : (s.eng e).chan ch ≠ [])
    (hone : (s.eng e).chan (1 - ch.val) = []) (hfirst : (s.eng e).lastFault = none) (hrun : Running e s) :
    Does (.dmaErr e ch) s (fun t => TrapResult e 7 s t ∧ (t.eng e).chan ch = []) := by
  have hx : exec (.dmaErr e ch) s = .next (if s.beGated ∨ ((s.eng e).chan ch).isEmpty then s else s.dmaFail e ch 7) := rfl
  rw [if_neg (by simp [hgate, hch])] at hx
  generalize hu : s.updEng e (fun g => g.setChan ch []) = u
  have hueng : u.eng e = (s.eng e).setChan ch [] := by rw [← hu, State.eng_updEng_same]
  have hempty : (u.eng e).ch0 = [] ∧ (u.eng e).ch1 = [] ∧ (u.eng e).lastFault = none := by
    rw [hueng]
    match ch, hone with
    | 0, hone => exact ⟨rfl, hone, hfirst⟩
    | 1, hone => exact ⟨hone, rfl, hfirst⟩
  have hmem : u.mem = s.mem := by rw [← hu]; rfl
  have hrun' : Running e u := hu ▸ hrun
  obtain ⟨now, heng⟩ := eng_engineTrap_of_calm hrun' hempty 7
  have hfail : s.dmaFail e ch 7 = u.engineTrap e 7 := by
    rw [State.dmaFail, hu]
    exact State.settleTrap_of_none (by rw [heng]; rfl)
  rw [hfail] at hx
  refine ⟨_, hx, trapResult_engineTrap hrun' hempty (by decide) ?_ hmem fun k hk => ?_, ?_⟩
  · rw [hueng, (sameRegs_setChan ..).pc]
  · rw [← hu, State.eng_updEng_other _ _ hk]
  · rw [heng]
    obtain ⟨h0, h1, -⟩ := hempty
    match ch with
    | 0 => show ((u.eng e).ch0.take 1).map _ = []; rw [h0]; rfl
    | 1 => show ((u.eng e).ch1.take 1).map _ = []; rw [h1]; rfl

/-- Settles O25: by induction on the rows of the descriptor. -/
theorem dmaTransfers : Obligations.DmaTransfers := by
  unfold Obligations.DmaTransfers
  refine ⟨?gated, ?complete, ?err⟩
  case gated =>
    intro e ch s hgate
    have hdone : exec (.dmaDescComplete e ch) s = .next (if s.beGated then s else s.dmaComplete e ch) := rfl
    have herr : exec (.dmaErr e ch) s = .next (if s.beGated ∨ ((s.eng e).chan ch).isEmpty then s else s.dmaFail e ch 7) := rfl
    rw [if_pos hgate] at hdone
    rw [if_pos (.inl hgate)] at herr
    simp only [List.forall_mem_cons]
    exact ⟨⟨_, hdone, rfl⟩, ⟨_, herr, rfl⟩, fun _ h => nomatch h⟩
  case complete => exact fun e ch s x rest hc hgate hch hsys hwp hsrc hstride _ hw htrap =>
    does_dmaDescComplete hc hgate hch hsys hwp hsrc hstride hw htrap
  case err => exact fun e ch s hgate hch hone hfirst _ hrun => does_dmaErr hgate hch hone hfirst hrun

end Sys2Proof.Machine

/-! ## Lamp time through corrections and changes of domain (R298 to R308)

Lamp time is read from the active domain's time and the residual. Every operation here either leaves both, or changes one domain at once and
gives the residual what lamp time would have jumped by (R303). -/

namespace Sys2Proof.Machine

/-! ### What leaves lamp time alone -/

theorem Quiet.time_eq {l : List Nat} {s t : State} (q : Quiet l s t) : t.time = s.time := by rw [q.rest]

theorem OnlyRegs.time_eq {l : List Nat} {s t : State} (q : OnlyRegs l s t) : t.time = s.time := by rw [q.rest]

theorem Quiet.active {l : List Nat} {s t : State} (q : Quiet l s t) (h : rTIME_CTRL ∉ l) : t.active = s.active :=
  q.getF _ h (by decide)

/-- Registers beside CTRL and events do not move lamp time. -/
theorem Quiet.lampFine {l : List Nat} {s t : State} (q : Quiet l s t) (h : rTIME_CTRL ∉ l) : t.lampFine = s.lampFine :=
  State.lampFine_congr q.time_eq (q.active h)

theorem State.active_lt (s : State) : s.active < 2 := bitsOf_lt ..

theorem State.dom_setDom (s : State) {d k : Nat} (hd : d < 2) (hk : k < 2) (x : Dom) :
    (s.setDom d x).dom k = if k = d then x else s.dom k := by
  interval_cases d <;> interval_cases k <;> rfl

theorem State.setDom_eq (s : State) (d : Nat) (x : Dom) : s.setDom d x = { s with time := (s.setDom d x).time } := by
  unfold State.setDom
  split <;> rfl

theorem State.setDom_frc (s : State) (d : Nat) (x : Dom) : (s.setDom d x).time.frc = s.time.frc := by
  unfold State.setDom
  split <;> rfl

theorem State.setDom_resid (s : State) (d : Nat) (x : Dom) : (s.setDom d x).time.resid = s.time.resid := by
  unfold State.setDom
  split <;> rfl

/-- The registers in which a domain shows. -/
def domRegs (d : Nat) : List Nat :=
  [rTIME_OFFSET_FRAC d, rTIME_OFFSET_LO d, rTIME_OFFSET_HI d, rTIME_INCR_INT d, rTIME_INCR_FRAC d, rTIME_BASE_LO d, rTIME_BASE_HI d]

theorem State.showDom_only (s : State) (d : Nat) : OnlyRegs (domRegs d) s (s.showDom d) :=
  (((((OnlyRegs.refl _ s).setRegN (by simp [domRegs])).setPair (by simp [domRegs]) (by simp [domRegs])).setRegN (by simp [domRegs])).setRegN
    (by simp [domRegs])).setPair (by simp [domRegs]) (by simp [domRegs])

theorem ctrl_not_mem_domRegs {d : Nat} (hd : d < 2) : rTIME_CTRL ∉ domRegs d := by
  interval_cases d <;> decide

/-! ### Freshness (R304) -/

/-- What freshness may change: STATUS and CTRL, the residual through a switch of domain, and what posting events takes. -/
structure Refreshed (s t : State) : Prop where
  rest : Quiet [rTIME_STATUS, rTIME_CTRL] { s with time := t.time } t
  time : t.time = { s.time with resid := t.time.resid }
  lampFine : t.lampFine = s.lampFine

theorem Refreshed.refl (s : State) : Refreshed s s := ⟨Quiet.refl _ _, rfl, rfl⟩

theorem Refreshed.trans {s t u : State} (h : Refreshed s t) (k : Refreshed t u) : Refreshed s u := by
  obtain ⟨h1, h2, h3⟩ := h
  obtain ⟨k1, k2, k3⟩ := k
  refine ⟨?_, ?_, k3.trans h3⟩
  · have hmid : Quiet [rTIME_STATUS, rTIME_CTRL] { s with time := u.time } { t with time := u.time } := by
      refine ⟨?_, h1.regs⟩
      rw [h1.rest]
    exact hmid.trans k1
  · rw [h2] at k2
    exact k2

theorem Refreshed.of_quiet {s t : State} (q : Quiet [rTIME_STATUS] s t) : Refreshed s t := by
  refine ⟨?_, by rw [q.time_eq], q.lampFine (by decide)⟩
  rw [q.time_eq]
  exact q.mono (by simp)

theorem State.setHoldover_quiet (s : State) (b : Bool) : Quiet [rTIME_STATUS] s (s.setHoldover b) := by
  unfold State.setHoldover
  split
  · exact .refl _ _
  · exact ((Quiet.refl _ s).setB (.inl (by simp))).post (by decide)

theorem refreshed_switchTo (s : State) {d : Nat} (hd : d < 2) (auto : Bool) : Refreshed s (s.switchTo d auto) := by
  refine ⟨?_, by rw [s.switchTo_time], s.switchTo_lampFine hd auto⟩
  rw [s.switchTo_time]
  have hfields : Quiet [rTIME_STATUS, rTIME_CTRL] { s with time := { s.time with resid := s.switchResid d } }
      ((s.setF fTIME_CTRL_ACTIVE d).setResid (s.switchResid d)) :=
    ((Quiet.refl _ { s with time := { s.time with resid := s.switchResid d } }).setF (f := fTIME_CTRL_ACTIVE) (.inl (by simp))).setB
      (f := fTIME_STATUS_SLEWING) (.inl (by simp))
  exact hfields.trans ((s.switchTo_quiet d auto).mono (by simp))

theorem refreshed_freshCheck (s : State) (was : Bool) : Refreshed s (s.freshCheck was) := by
  have hold : ∀ (u : State) b, Refreshed u (u.setHoldover b) := fun u b => .of_quiet (u.setHoldover_quiet b)
  unfold State.freshCheck
  dsimp only
  split
  · exact hold s _
  split
  · split
    · exact (refreshed_switchTo s (by omega) true).trans (hold _ _)
    · exact hold s _
  · exact .refl s

theorem Refreshed.dom {s t : State} (h : Refreshed s t) (k : Nat) : t.dom k = s.dom k := by
  rw [State.dom, h.time]
  rfl

theorem Refreshed.mem_eq {s t : State} (h : Refreshed s t) : t.mem = s.mem := h.rest.mem_eq

theorem Refreshed.reg {s t : State} (h : Refreshed s t) {off : Nat} (hs : off ≠ rTIME_STATUS) (hc : off ≠ rTIME_CTRL) (he : off ∉ evRegs) :
    t.reg off = s.reg off := h.rest.regs off (by simp [hs, hc]) he

/-! ### A correction that takes effect (R301, R303) -/

/-- Domain `d` holds `x`, taken now; lamp time is as before. -/
structure DomUpdated (d : Nat) (x : Dom) (s t : State) : Prop where
  dom : t.dom d = { x with updated := some s.time.now, stale := false }
  other : t.dom (1 - d) = s.dom (1 - d)
  frc : t.time.frc = s.time.frc
  lampFine : t.lampFine = s.lampFine
  mem : t.mem = s.mem
  incrFrac : t.regN (rTIME_INCR_FRAC d) = x.incr % 2 ^ 32
  regs : ∀ off, off ∉ domRegs d → off ≠ rTIME_STATUS → off ≠ rTIME_CTRL → off ∉ evRegs → t.reg off = s.reg off

/-- Domain `d` holds `x` and shows it. -/
def State.domShown (s : State) (d : Nat) (x : Dom) : State := (s.setDom d x).showDom d

theorem State.domShown_time (s : State) (d : Nat) (x : Dom) : (s.domShown d x).time = (s.setDom d x).time :=
  ((s.setDom d x).showDom_only d).time_eq

theorem State.domShown_dom (s : State) {d k : Nat} (hd : d < 2) (hk : k < 2) (x : Dom) :
    (s.domShown d x).dom k = if k = d then x else s.dom k := by
  rw [← s.dom_setDom hd hk x, State.dom, State.dom, State.domShown_time]

theorem State.domShown_resid (s : State) (d : Nat) (x : Dom) : (s.domShown d x).time.resid = s.time.resid := by
  rw [State.domShown_time, State.setDom_resid]

theorem State.domShown_frc (s : State) (d : Nat) (x : Dom) : (s.domShown d x).time.frc = s.time.frc := by
  rw [State.domShown_time, State.setDom_frc]

theorem State.domShown_reg (s : State) {d : Nat} (x : Dom) {off : Nat} (h : off ∉ domRegs d) : (s.domShown d x).reg off = s.reg off := by
  rw [State.domShown, ((s.setDom d x).showDom_only d).regs off h, s.setDom_eq]
  rfl

theorem State.domShown_active (s : State) {d : Nat} (hd : d < 2) (x : Dom) : (s.domShown d x).active = s.active :=
  State.getF_congr (s.domShown_reg x (ctrl_not_mem_domRegs hd))

theorem State.domShown_mem (s : State) (d : Nat) (x : Dom) : (s.domShown d x).mem = s.mem := by
  rw [State.domShown, ((s.setDom d x).showDom_only d).mem_eq, s.setDom_eq]

theorem State.domShown_ltDom_other (s : State) {d k : Nat} (hd : d < 2) (hk : k < 2) (h : k ≠ d) (x : Dom) :
    (s.domShown d x).ltDom k = s.ltDom k := by
  rw [State.ltDom, s.domShown_dom hd hk, if_neg h, s.domShown_frc, State.ltDom]

/-- INCR_FRAC shows the low half of the increment. -/
theorem State.domShown_incrFrac (s : State) {d : Nat} (hd : d < 2) (x : Dom) : (s.domShown d x).regN (rTIME_INCR_FRAC d) = x.incr % 2 ^ 32 := by
  have hx : (s.setDom d x).dom d = x := by rw [s.dom_setDom hd hd, if_pos rfl]
  simp [State.domShown, State.showDom, hx, State.setPair]

/-- The residual takes up what the domain's time has changed by. -/
theorem State.absorb_lampFine {u : State} {b : Nat} (d : Nat) (hd : d = u.active) :
    (u.absorb (ltDiff (u.ltDom d) b)).lampFine = (((b : Int) + u.time.resid / residDiv) % ((2 ^ 96 : Nat) : Int)).toNat := by
  have hactive : (u.absorb (ltDiff (u.ltDom d) b)).getF fTIME_CTRL_ACTIVE = d := (State.getF_setResid _ _ (by decide)).trans hd.symm
  have htime : (u.absorb (ltDiff (u.ltDom d) b)).time = { u.time with resid := u.time.resid - ltDiff (u.ltDom d) b * residDiv } := rfl
  have hlt : (u.absorb (ltDiff (u.ltDom d) b)).ltDom d = u.ltDom d := by rw [State.ltDom, State.dom, htime]; rfl
  rw [State.lampFine, hactive, hlt, htime, Nat.cast_pow, Nat.cast_ofNat]
  exact congrArg Int.toNat (add_resid_sub_ltDiff (u.ltDom d) b u.time.resid)

/-- What the residual takes up moves nothing else than STATUS. -/
theorem State.absorb_quiet (u : State) (d : Int) : Quiet [rTIME_STATUS] { u with time := { u.time with resid := u.time.resid - d * residDiv } }
    (u.absorb d) := (Quiet.refl _ _).setB (f := fTIME_STATUS_SLEWING) (.inl (by simp))

/-- The state in which a correction stands, before freshness is looked at again. -/
def State.domTaken (s : State) (d : Nat) (x : Dom) : State :=
  let u := s.domShown d { x with updated := some s.time.now, stale := false }
  if d = u.active ∧ u.ltDom d ≠ s.ltDom d then u.absorb (ltDiff (u.ltDom d) (s.ltDom d)) else u

theorem State.domUpdate_eq (s : State) (d : Nat) (x : Dom) : s.domUpdate d x = (s.domTaken d x).freshCheck (s.domFresh s.active) := rfl

theorem State.domTaken_lampFine (s : State) {d : Nat} (hd : d < 2) (x : Dom) : (s.domTaken d x).lampFine = s.lampFine := by
  unfold State.domTaken
  generalize hu : s.domShown d { x with updated := some s.time.now, stale := false } = u
  have hactive : u.active = s.active := hu ▸ s.domShown_active hd _
  have hresid : u.time.resid = s.time.resid := hu ▸ s.domShown_resid d _
  dsimp only
  split
  case isTrue h =>
    rw [State.absorb_lampFine d h.1, hresid, h.1, hactive]
    rfl
  case isFalse h =>
    have hlt : u.ltDom s.active = s.ltDom s.active := by
      by_cases had : s.active = d
      · rw [had]
        exact of_not_not fun hne => h ⟨by rw [hactive, had], hne⟩
      · exact hu ▸ s.domShown_ltDom_other hd s.active_lt had _
    have ha : u.getF fTIME_CTRL_ACTIVE = s.active := hactive
    rw [State.lampFine, ha, hlt, hresid]
    rfl

/-- A correction as it stands: of the time unit it changes the domain and the residual. -/
theorem State.domTaken_time (s : State) (d : Nat) (x : Dom) : (s.domTaken d x).time =
    { (s.domShown d { x with updated := some s.time.now, stale := false }).time with resid := (s.domTaken d x).time.resid } := by
  unfold State.domTaken
  dsimp only
  split <;> rfl

theorem State.domTaken_quiet (s : State) (d : Nat) (x : Dom) : Quiet [rTIME_STATUS]
    { s.domShown d { x with updated := some s.time.now, stale := false } with time := (s.domTaken d x).time } (s.domTaken d x) := by
  unfold State.domTaken
  dsimp only
  split
  · exact State.absorb_quiet _ _
  · exact .refl _ _

theorem domUpdated_domUpdate (s : State) {d : Nat} (hd : d < 2) (x : Dom) : DomUpdated d x s (s.domUpdate d x) := by
  rw [State.domUpdate_eq]
  have hf := refreshed_freshCheck (s.domTaken d x) (s.domFresh s.active)
  have hq := s.domTaken_quiet d x
  have ht := s.domTaken_time d x
  have hlamp := s.domTaken_lampFine hd x
  have hwdom : ∀ k, k < 2 → _ = _ := fun k hk => s.domShown_dom hd hk { x with updated := some s.time.now, stale := false }
  have hwfrc := s.domShown_frc d { x with updated := some s.time.now, stale := false }
  have hwmem := s.domShown_mem d { x with updated := some s.time.now, stale := false }
  have hwincr := s.domShown_incrFrac hd { x with updated := some s.time.now, stale := false }
  have hwreg : ∀ off, off ∉ domRegs d → _ = _ := fun off => s.domShown_reg { x with updated := some s.time.now, stale := false }
  generalize (s.domTaken d x).freshCheck (s.domFresh s.active) = t at hf
  generalize s.domTaken d x = v at hf hq ht hlamp
  generalize s.domShown d { x with updated := some s.time.now, stale := false } = w at hq ht hwdom hwfrc hwmem hwincr hwreg
  have hdom : ∀ k, k < 2 → t.dom k = if k = d then { x with updated := some s.time.now, stale := false } else s.dom k := fun k hk => by
    rw [hf.dom, ← hwdom k hk, State.dom, ht, State.dom]
  have hreg : ∀ off, off ≠ rTIME_STATUS → off ≠ rTIME_CTRL → off ∉ evRegs → t.reg off = w.reg off :=
    fun off h1 h2 h3 => (hf.reg h1 h2 h3).trans (hq.regs off (by simp [h1]) h3)
  have hincr : rTIME_INCR_FRAC d ≠ rTIME_STATUS ∧ rTIME_INCR_FRAC d ≠ rTIME_CTRL ∧ rTIME_INCR_FRAC d ∉ evRegs := by
    interval_cases d <;> decide
  exact {
    dom := by rw [hdom d hd, if_pos rfl]
    other := by rw [hdom (1 - d) (by omega), if_neg (by omega)]
    frc := by rw [hf.time, ht, hwfrc]
    lampFine := hf.lampFine.trans hlamp
    mem := by rw [hf.mem_eq, hq.mem_eq, hwmem]
    incrFrac := by
      rw [State.regN, hreg _ hincr.1 hincr.2.1 hincr.2.2]
      exact hwincr
    regs := fun off h0 h1 h2 h3 => (hreg off h1 h2 h3).trans (hwreg off h0) }

end Sys2Proof.Machine

/-! ## Lamp time is continuous; corrections of a domain (R300, R301, R303, R306) -/

namespace Sys2Proof.Machine

/-! ### Lamp time is continuous -/

/-- A register write moves lamp time only by what it does. -/
theorem State.viaRegV_lampFine {act : Word → State → State} (h : ∀ v u, (act v u).lampFine = u.lampFine) (s : State) (off : Nat) (v : Word) :
    (s.viaRegV off v act).lampFine = s.lampFine := by
  have hviol : (s.lockViol off).lampFine = s.lampFine := (s.lockViol_quiet off).lampFine (by decide)
  unfold State.viaRegV
  split
  · rfl
  split
  · exact (s.unmapped_quiet off).lampFine (by decide)
  · have hmaybe : ∀ (p : Prop) [Decidable p], (if p then s.lockViol off else s).lampFine = s.lampFine := fun p _ => by
      split
      · exact hviol
      · rfl
    unfold State.lockWrite
    split
    · exact hviol
    · exact (h _ _).trans (hmaybe _)

theorem State.incrRefused_quiet (s : State) (d : Nat) (servo : Bool) :
    Quiet (domRegs d ++ [rTIME_STATUS, rTIME_INCR_REFUSED_COUNT]) s (s.incrRefused d servo) :=
  (((s.showDom_only d).quiet.mono fun o h => List.mem_append_left _ h).raise (.inl (by simp)) (.inl (by simp))).post (by decide)

theorem State.setRate_lampFine (s : State) {d : Nat} (hd : d < 2) (incr : Nat) : (s.setRate d incr).lampFine = s.lampFine :=
  (domUpdated_domUpdate s hd _).lampFine

theorem State.incrWrite_lampFine (s : State) {d : Nat} (hd : d < 2) (v : Word) : (s.incrWrite d v).lampFine = s.lampFine := by
  have hrefused : ∀ b, (s.incrRefused d b).lampFine = s.lampFine := fun b =>
    (s.incrRefused_quiet d b).lampFine (by interval_cases d <;> decide)
  unfold State.incrWrite
  dsimp only
  split
  · exact hrefused true
  split
  · exact hrefused false
  · exact s.setRate_lampFine hd _

theorem State.adjust_lampFine (s : State) {d : Nat} (hd : d < 2) (ns : Int) : (s.adjust d ns).lampFine = s.lampFine :=
  (domUpdated_domUpdate s hd _).lampFine

/-- What the servo shows of a correction it works out. -/
def State.servoShown (s : State) (d : Nat) (i ppb : Int) : State :=
  let lim := decide (ppb = 200000) || decide (ppb = -200000)
  let u := (s.setRegN (rTIME_SERVO_I d) (unsignOf 32 i)).setB (fTIME_DOM_STATUS_SERVO_CLAMPED d) lim
  if lim then u.post evTIME_SERVO_CLAMP srcTIME d else u

theorem State.servoShown_quiet (s : State) (d : Nat) (i ppb : Int) :
    Quiet [rTIME_SERVO_I d, rTIME_DOM_STATUS d] s (s.servoShown d i ppb) := by
  have h : Quiet [rTIME_SERVO_I d, rTIME_DOM_STATUS d] s
      ((s.setRegN (rTIME_SERVO_I d) (unsignOf 32 i)).setB (fTIME_DOM_STATUS_SERVO_CLAMPED d)
        (decide (ppb = 200000) || decide (ppb = -200000))) :=
    ((Quiet.refl _ s).setRegN (.inl (by simp))).setB (.inl (by simp))
  unfold State.servoShown
  dsimp only
  split
  · exact h.post (by decide)
  · exact h

theorem State.servo_lampFine (s : State) {d : Nat} (hd : d < 2) (e : Int) : (s.servo d e).lampFine = s.lampFine := by
  unfold State.servo
  split
  · rfl
  split
  · exact (State.adjust_lampFine _ hd e).trans
      (((Quiet.refl [rTIME_SERVO_I d] s).setRegN (.inl (by simp))).lampFine (by interval_cases d <;> decide))
  · exact (State.setRate_lampFine _ hd _).trans ((s.servoShown_quiet d _ _).lampFine (by interval_cases d <;> decide))

theorem State.ctrlWrite_lampFine (s : State) (v : Word) : (s.ctrlWrite v).lampFine = s.lampFine := by
  have hauto : (s.takeAuto v).lampFine = s.lampFine := State.lampFine_congr (s.takeAuto_time v) (s.takeAuto_active v)
  refine (refreshed_freshCheck _ false).lampFine.trans ?_
  split
  · exact hauto
  · exact (State.switchTo_lampFine _ (Nat.mod_lt _ Nat.two_pos) false).trans hauto

/-- Lamp time is read from the domains, the counter, the residual and ACTIVE. -/
theorem State.lampFine_of_parts {s t : State} (h0 : t.time.dom0 = s.time.dom0) (h1 : t.time.dom1 = s.time.dom1)
    (hfrc : t.time.frc = s.time.frc) (hresid : t.time.resid = s.time.resid) (hactive : t.active = s.active) : t.lampFine = s.lampFine := by
  have hlt : ∀ d, t.ltDom d = s.ltDom d := fun d => by simp only [State.ltDom, State.dom, h0, h1, hfrc]
  unfold State.active at hactive
  simp only [State.lampFine, hactive, hlt, hresid]

theorem State.setGptp_lampFine (s : State) (i : Nat) (g : GptpSt) : (s.setGptp i g).lampFine = s.lampFine :=
  State.lampFine_of_parts rfl rfl rfl rfl rfl

/-- A change of a domain's VALID bit, announced, and freshness after it. -/
theorem validChange_lampFine (s : State) (d n : Nat) {k : EvKind} (src data : Nat) (was : Bool) (hk : k.prio < 4) :
    (((s.setF (fTIME_DOM_CFG_VALID (d % 2)) n).post k src data).freshCheck was).lampFine = s.lampFine := by
  have hd : d % 2 < 2 := Nat.mod_lt _ Nat.two_pos
  have q : Quiet [rTIME_DOM_CFG (d % 2)] s ((s.setF (fTIME_DOM_CFG_VALID (d % 2)) n).post k src data) :=
    ((Quiet.refl _ s).setF (.inl (by simp))).post hk
  refine (refreshed_freshCheck _ was).lampFine.trans (q.lampFine ?_)
  interval_cases d % 2 <;> decide

theorem State.gptpLose_lampFine (s : State) (i : Nat) (c : GptpC) : (s.gptpLose i c).lampFine = s.lampFine := by
  unfold State.gptpLose
  dsimp only
  split
  · exact s.setGptp_lampFine i _
  · exact (validChange_lampFine _ c.dom 0 _ _ _ (by decide)).trans (s.setGptp_lampFine i _)

theorem State.gptpGood_lampFine (s : State) (i : Nat) (c : GptpC) (off : Int) : (s.gptpGood i c off).lampFine = s.lampFine := by
  unfold State.gptpGood
  dsimp only
  generalize (if -200 ≤ off ∧ off ≤ 200 then satAt 3 ((s.gptpOf i).good + 1) else 0) = good
  split
  · exact s.setGptp_lampFine i _
  · exact (validChange_lampFine _ c.dom 1 _ _ _ (by decide)).trans (s.setGptp_lampFine i _)

theorem State.gptpSync_lampFine (s : State) (i : Nat) (m : SyncIn) : (s.gptpSync i m).lampFine = s.lampFine := by
  unfold State.gptpSync
  split
  · rfl
  split
  · rfl
  dsimp only
  split
  · exact (State.gptpGood_lampFine ..).trans (s.setGptp_lampFine i _)
  · exact s.setGptp_lampFine i _
  · split
    · rfl
    · exact (State.gptpGood_lampFine ..).trans (s.setGptp_lampFine i _)

theorem State.domainStale_lampFine (s : State) : s.domainStale.lampFine = s.lampFine := by
  have hstale : (s.setDom s.active { s.dom s.active with stale := true }).lampFine = s.lampFine := by
    have hactive : (s.setDom s.active { s.dom s.active with stale := true }).getF fTIME_CTRL_ACTIVE = s.active := by
      rw [s.setDom_eq]
      rfl
    rw [State.lampFine, hactive, State.ltDom, s.dom_setDom s.active_lt s.active_lt, if_pos rfl, s.setDom_frc, s.setDom_resid]
    rfl
  unfold State.domainStale
  dsimp only
  split
  · rfl
  · exact (refreshed_freshCheck _ _).lampFine.trans hstale

theorem State.gptpAnnounce_lampFine (s : State) (i gm : Nat) : (s.gptpAnnounce i gm).lampFine = s.lampFine := by
  unfold State.gptpAnnounce
  split
  · rfl
  split
  · rfl
  · exact s.gptpLose_lampFine i _

theorem State.gptpLost_lampFine (s : State) (i : Nat) (able : Bool) : (s.gptpLost i able).lampFine = s.lampFine := by
  unfold State.gptpLost
  split
  · rfl
  split
  · rfl
  · exact s.gptpLose_lampFine i _

/-- Settles O26: of the commands listed each leaves lamp time, or has the residual take up the step. -/
theorem lampTimeContinuous : Obligations.LampTimeContinuous := by
  unfold Obligations.LampTimeContinuous
  intro d v m gm able s
  have hd := d.isLt
  simp only [List.forall_mem_cons]
  refine ⟨?incr, ?offset, ?adj, ?meas, ?switch, ?stale, ?sync, ?announce, ?lost, fun _ h => nomatch h⟩
  case incr => exact ⟨_, rfl, State.viaRegV_lampFine (fun v u => u.incrWrite_lampFine hd v) s _ v⟩
  case offset => exact ⟨_, rfl, State.viaRegV_lampFine (fun v u => (domUpdated_domUpdate u hd _).lampFine) s _ v⟩
  case adj => exact ⟨_, rfl, State.viaRegV_lampFine (fun v u => u.adjust_lampFine hd _) s _ v⟩
  case meas => exact ⟨_, rfl, State.viaRegV_lampFine (fun v u => u.servo_lampFine hd _) s _ v⟩
  case switch => exact ⟨_, rfl, State.viaRegV_lampFine (fun v u => u.ctrlWrite_lampFine v) s _ v⟩
  case stale => exact ⟨_, rfl, s.domainStale_lampFine⟩
  case sync => exact ⟨_, rfl, s.gptpSync_lampFine d m⟩
  case announce => exact ⟨_, rfl, s.gptpAnnounce_lampFine d gm⟩
  case lost => exact ⟨_, rfl, s.gptpLost_lampFine d able⟩

/-! ### Corrections (R300, R301, R306) -/

/-- A write that takes effect, to a register outside the units of ports 2 and 3 and without bits that the lock keeps. -/
theorem does_viaRegV {c : Instr} {s : State} {off : Nat} {v : Word} {act : Word → State → State} {P : State → Prop} (ht : Takes s off)
    (hrow : (regRow off).map RegRow.lock = some 0) (hoff : off < 0x100000) (hx : exec c s = .next (s.viaRegV off v act))
    (hp : P (act v s)) : Does c s P := by
  obtain ⟨r, hr, hlock⟩ := Option.map_eq_some_iff.1 hrow
  have hunit : s.absentUnit off = false := by simp [State.absentUnit, Nat.not_le.2 hoff]
  rw [State.viaRegV_of_takes ht hunit hr hlock] at hx
  exact ⟨_, hx, hp⟩

/-- The registers that correct a domain hold no bit that the lock keeps. -/
theorem regRow_correction_lock : ∀ d : Fin 2, ∀ off ∈ [rTIME_INCR_FRAC d, rTIME_OFFSET_HI d, rTIME_ADJ d, rTIME_OFFSET_MEAS d],
    (regRow off).map RegRow.lock = some 0 ∧ off < 0x100000 := by decide +kernel

/-- A correction of domain `d` is taken. -/
theorem does_correction {c : Instr} {d : Fin 2} {s : State} {off : Nat} {v : Word} {act : Word → State → State} {P : State → Prop}
    (hoff : off ∈ [rTIME_INCR_FRAC d, rTIME_OFFSET_HI d, rTIME_ADJ d, rTIME_OFFSET_MEAS d]) (ht : Takes s off)
    (hx : exec c s = .next (s.viaRegV off v act)) (hp : P (act v s)) : Does c s P :=
  does_viaRegV ht (regRow_correction_lock d off hoff).1 (regRow_correction_lock d off hoff).2 hx hp

theorem not_servo {s : State} {d : Nat} (h : s.isF (fTIME_DOM_CFG_SERVO d) = false) : ¬s.isF (fTIME_DOM_CFG_SERVO d) = true := by
  rw [h]; decide

theorem does_incrWrite {d : Fin 2} {v : Word} {s : State} (ht : Takes s (rTIME_INCR_FRAC d)) (hservo : s.isF (fTIME_DOM_CFG_SERVO d) = false)
    (hmin : incrMin ≤ 2 ^ 32 * (s.regN (rTIME_INCR_INT d) % 16) + v.toNat)
    (hmax : 2 ^ 32 * (s.regN (rTIME_INCR_INT d) % 16) + v.toNat ≤ incrMax) :
    Does (.incrWrite d v) s (fun t =>
      t.dom d = { offset := s.ltDom d, incr := 2 ^ 32 * (s.regN (rTIME_INCR_INT d) % 16) + v.toNat, base := s.time.frc,
                  updated := some s.time.now, stale := false }
      ∧ t.dom (1 - d.val) = s.dom (1 - d.val) ∧ t.regN (rTIME_INCR_FRAC d) = v.toNat ∧ t.mem = s.mem) := by
  have hv := v.isLt
  refine does_correction (d := d) (by simp) ht rfl ?_
  rw [State.incrWrite, if_neg (not_servo hservo), if_neg (by omega), State.setRate]
  have h := domUpdated_domUpdate s d.isLt { s.dom d with
      offset := s.ltDom d, base := s.time.frc, incr := 2 ^ 32 * (s.regN (rTIME_INCR_INT d) % 16) + v.toNat }
  exact ⟨h.dom, h.other, h.incrFrac.trans (by dsimp only; omega), h.mem⟩

theorem State.showDom_incrFrac (s : State) (d : Nat) : (s.showDom d).regN (rTIME_INCR_FRAC d) = (s.dom d).incr % 2 ^ 32 := by
  simp [State.showDom, State.setPair]

theorem status_not_mem_domRegs {d : Nat} (hd : d < 2) : rTIME_STATUS ∉ domRegs d ∧ rTIME_INCR_REFUSED_COUNT ∉ domRegs d := by
  interval_cases d <;> decide

theorem does_incrWrite_refused {d : Fin 2} {v : Word} {s : State} (ht : Takes s (rTIME_INCR_FRAC d))
    (hservo : s.isF (fTIME_DOM_CFG_SERVO d) = false)
    (hout : 2 ^ 32 * (s.regN (rTIME_INCR_INT d) % 16) + v.toNat < incrMin ∨ incrMax < 2 ^ 32 * (s.regN (rTIME_INCR_INT d) % 16) + v.toNat) :
    Does (.incrWrite d v) s (fun t => t.time = s.time
      ∧ t.regN (rTIME_INCR_FRAC d) = (s.dom d).incr % 2 ^ 32 ∧ t.getF fTIME_STATUS_INCR_REFUSED = 1
      ∧ t.regN rTIME_INCR_REFUSED_COUNT = min (s.regN rTIME_INCR_REFUSED_COUNT + 1) 0xFFFF) := by
  have hfrac : ∀ d : Fin 2, rTIME_INCR_FRAC d ≠ rTIME_STATUS ∧ rTIME_INCR_FRAC d ≠ rTIME_INCR_REFUSED_COUNT ∧ rTIME_INCR_FRAC d ∉ evRegs := by
    decide
  refine does_correction (d := d) (by simp) ht rfl ?_
  rw [State.incrWrite, if_neg (not_servo hservo), if_pos hout]
  have q : Quiet [] ((s.showDom d).raise fTIME_STATUS_INCR_REFUSED rTIME_INCR_REFUSED_COUNT) (s.incrRefused d false) :=
    (Quiet.refl _ _).post (by decide)
  refine ⟨(s.incrRefused_quiet d false).time_eq, ?_, ?_, ?_⟩
  · rw [q.regN (by simp) (hfrac d).2.2, State.raise, State.bump, State.bumpBy, State.regN_setRegN_other _ _ (hfrac d).2.1,
      State.regN_setF_other _ _ (hfrac d).1, s.showDom_incrFrac]
  · rw [q.getF _ (by decide) (by decide), State.getF_raise _ (by decide) (by decide)]
    rfl
  · rw [q.regN (by decide) (by decide), State.regN_raise_counter _ (by decide) (by decide), State.regN,
      (s.showDom_only d).regs _ (status_not_mem_domRegs d.isLt).2]
    rfl

/-- An amount of nanoseconds added to a domain's offset. -/
theorem domUpdated_adjust (s : State) {d : Nat} (hd : d < 2) (ns : Int) :
    let t := s.adjust d ns
    ((t.dom d).offset : Int) = (((s.dom d).offset : Int) + 2 ^ 32 * ns) % 2 ^ 96 ∧ (t.dom d).updated = some s.time.now
      ∧ (t.dom d).incr = (s.dom d).incr ∧ t.dom (1 - d) = s.dom (1 - d) ∧ t.mem = s.mem
      ∧ ∀ off, off ∉ domRegs d → off ≠ rTIME_STATUS → off ≠ rTIME_CTRL → off ∉ evRegs → t.reg off = s.reg off := by
  have h := domUpdated_domUpdate s hd { s.dom d with offset := unsignOf 96 (((s.dom d).offset : Int) + 4294967296 * ns) }
  refine ⟨?_, ?_, ?_, h.other, h.mem, h.regs⟩
  · rw [State.adjust, h.dom]
    exact Int.toNat_of_nonneg (Int.emod_nonneg _ (by decide))
  · rw [State.adjust, h.dom]
  · rw [State.adjust, h.dom]

theorem servoI_free : ∀ d : Fin 2, ∀ off ∈ [rTIME_SERVO_I d, rTIME_DOM_STATUS d],
    off ∉ domRegs d ∧ off ≠ rTIME_STATUS ∧ off ≠ rTIME_CTRL ∧ off ∉ evRegs := by decide

theorem does_offsetMeas_step {d : Fin 2} {v : Word} {s : State} (ht : Takes s (rTIME_OFFSET_MEAS d))
    (hservo : s.isF (fTIME_DOM_CFG_SERVO d) = true) (hbig : 1000 < v.toInt ∨ v.toInt < -1000) :
    Does (.offsetMeasWrite d v) s (fun t =>
      ((t.dom d).offset : Int) = (((s.dom d).offset : Int) + 2 ^ 32 * v.toInt) % 2 ^ 96 ∧ t.regN (rTIME_SERVO_I d) = 0
      ∧ (t.dom d).incr = (s.dom d).incr ∧ t.dom (1 - d.val) = s.dom (1 - d.val) ∧ t.mem = s.mem) := by
  refine does_correction (d := d) (by simp) ht rfl ?_
  rw [State.servo, if_neg (by rw [hservo]; decide), if_pos hbig]
  obtain ⟨hoff, -, hincr, hother, hmem, hregs⟩ := domUpdated_adjust (s.setRegN (rTIME_SERVO_I d) 0) d.isLt v.toInt
  obtain ⟨h1, h2, h3, h4⟩ := servoI_free d (rTIME_SERVO_I d) (by simp)
  refine ⟨hoff, ?_, hincr, hother, hmem⟩
  rw [State.regN, hregs _ h1 h2 h3 h4]
  exact (State.regN_setRegN ..).trans (by simp)

/-- A new rate leaves the domain's time as it is, since offset and base are latched. -/
theorem setRate_ltDom (s : State) {d : Nat} (hd : d < 2) (incr : Nat) : (s.setRate d incr).ltDom d = s.ltDom d := by
  have h := domUpdated_domUpdate s hd { s.dom d with offset := s.ltDom d, base := s.time.frc, incr := incr }
  have hbase : (s.time.frc + 2 ^ 64 - s.time.frc) % 2 ^ 64 = 0 := by omega
  rw [State.setRate, State.ltDom, h.dom, h.frc]
  dsimp only
  rw [hbase, Nat.mul_zero, Nat.add_zero]
  exact Nat.mod_eq_of_lt (Nat.mod_lt _ (by decide) : s.ltDom d < 2 ^ 96)

theorem servoIncr_cast {ppb : Int} (h : -200000 ≤ ppb) :
    (servoIncr ppb : Int) = (0x140000000 * (1000000000 + ppb) + 500000000) / 1000000000 :=
  Int.toNat_of_nonneg (Int.ediv_nonneg (by omega) (by decide))

/-- The integrator's value in its register. -/
theorem toInt_unsignOf {i : Int} (hlo : -2 ^ 20 ≤ i) (hhi : i ≤ 2 ^ 20 - 1) : (BitVec.ofNat 32 (unsignOf 32 i)).toInt = i := by
  have hn : (unsignOf 32 i : Int) = i % 2 ^ 32 := Int.toNat_of_nonneg (Int.emod_nonneg _ (by decide))
  rw [BitVec.toInt_eq_toNat_bmod, BitVec.toNat_ofNat]
  simp only [Int.bmod]
  omega

theorem State.servoShown_integral (s : State) (d : Fin 2) {i : Int} (ppb : Int) (hlo : -2 ^ 20 ≤ i) (hhi : i ≤ 2 ^ 20 - 1) :
    ((s.servoShown d i ppb).reg (rTIME_SERVO_I d)).toInt = i := by
  have q : Quiet [rTIME_DOM_STATUS d] (s.setRegN (rTIME_SERVO_I d) (unsignOf 32 i)) (s.servoShown d i ppb) := by
    have h : Quiet [rTIME_DOM_STATUS d] (s.setRegN (rTIME_SERVO_I d) (unsignOf 32 i))
        ((s.setRegN (rTIME_SERVO_I d) (unsignOf 32 i)).setB (fTIME_DOM_STATUS_SERVO_CLAMPED d)
          (decide (ppb = 200000) || decide (ppb = -200000))) := (Quiet.refl _ _).setB (.inl (by simp))
    unfold State.servoShown
    dsimp only
    split
    · exact h.post (by decide)
    · exact h
  have hfree : ∀ d : Fin 2, rTIME_SERVO_I d ∉ [rTIME_DOM_STATUS d] ∧ rTIME_SERVO_I d ∉ evRegs := by decide
  rw [q.regs _ (hfree d).1 (hfree d).2, State.setRegN, State.reg_setReg, if_pos rfl, toInt_unsignOf hlo hhi]

theorem State.servoShown_clamped (s : State) (d : Fin 2) (i ppb : Int) :
    (s.servoShown d i ppb).getF (fTIME_DOM_STATUS_SERVO_CLAMPED d) = 1 ↔ ppb = 200000 ∨ ppb = -200000 := by
  have hfree : ∀ d : Fin 2, rTIME_DOM_STATUS d ∉ evRegs := by decide
  generalize hlim : (decide (ppb = 200000) || decide (ppb = -200000)) = lim
  generalize hu : (s.setRegN (rTIME_SERVO_I d) (unsignOf 32 i)).setB (fTIME_DOM_STATUS_SERVO_CLAMPED d) lim = u
  have q : Quiet [] u (s.servoShown d i ppb) := by
    unfold State.servoShown
    dsimp only
    rw [hlim, hu]
    split
    · exact (Quiet.refl _ u).post (by decide)
    · exact .refl _ u
  rw [q.getF _ (by simp) (hfree d), ← hu, State.setB, State.getF_setF _ _ _ (by simp), ← decide_eq_true_iff (p := ppb = 200000),
    ← decide_eq_true_iff (p := ppb = -200000), ← Bool.or_eq_true, hlim]
  cases lim <;> simp

theorem does_offsetMeas_servo {d : Fin 2} {v : Word} {s : State} (ht : Takes s (rTIME_OFFSET_MEAS d))
    (hservo : s.isF (fTIME_DOM_CFG_SERVO d) = true) (hlo : -1000 ≤ v.toInt) (hhi : v.toInt ≤ 1000) :
    Does (.offsetMeasWrite d v) s (fun t =>
      let i := max (-2 ^ 20) (min (2 ^ 20 - 1) ((s.reg (rTIME_SERVO_I d)).toInt + v.toInt))
      let ppb := max (-200000) (min 200000 ((s.getF (fTIME_DOM_CFG_KP d) : Int) * v.toInt + (s.getF (fTIME_DOM_CFG_KI d) : Int) * i / 256))
      (t.reg (rTIME_SERVO_I d)).toInt = i
      ∧ ((t.dom d).incr : Int) = (0x140000000 * (1000000000 + ppb) + 500000000) / 1000000000
      ∧ (t.getF (fTIME_DOM_STATUS_SERVO_CLAMPED d) = 1 ↔ ppb = 200000 ∨ ppb = -200000) ∧ t.ltDom d = s.ltDom d
      ∧ t.dom (1 - d.val) = s.dom (1 - d.val) ∧ t.mem = s.mem) := by
  refine does_correction (d := d) (by simp) ht rfl ?_
  have heq : s.servo d v.toInt =
      let i := max (-2 ^ 20) (min (2 ^ 20 - 1) ((s.reg (rTIME_SERVO_I d)).toInt + v.toInt))
      let ppb := max (-200000) (min 200000 ((s.getF (fTIME_DOM_CFG_KP d) : Int) * v.toInt + (s.getF (fTIME_DOM_CFG_KI d) : Int) * i / 256))
      (s.servoShown d i ppb).setRate d (servoIncr ppb) := by
    rw [State.servo, if_neg (by rw [hservo]; decide), if_neg (by omega)]
    rfl
  rw [heq]
  dsimp only
  generalize hi : max (-2 ^ 20) (min (2 ^ 20 - 1) ((s.reg (rTIME_SERVO_I d)).toInt + v.toInt)) = i
  generalize hppb : max (-200000) (min 200000 ((s.getF (fTIME_DOM_CFG_KP d) : Int) * v.toInt + (s.getF (fTIME_DOM_CFG_KI d) : Int) * i / 256)) = ppb
  have q := s.servoShown_quiet d i ppb
  have hint := s.servoShown_integral d (i := i) ppb (by omega) (by omega)
  have hclamped := s.servoShown_clamped d i ppb
  generalize s.servoShown d i ppb = u at q hint hclamped
  have h := domUpdated_domUpdate u d.isLt { u.dom d with offset := u.ltDom d, base := u.time.frc, incr := servoIncr ppb }
  have hdom : ∀ k, u.dom k = s.dom k := fun k => by rw [State.dom, q.time_eq, State.dom]
  obtain ⟨hi1, hi2, hi3, hi4⟩ := servoI_free d (rTIME_SERVO_I d) (by simp)
  obtain ⟨hs1, hs2, hs3, hs4⟩ := servoI_free d (rTIME_DOM_STATUS d) (by simp)
  refine ⟨(congrArg BitVec.toInt (h.regs _ hi1 hi2 hi3 hi4)).trans hint, ?_, ?_, (setRate_ltDom u d.isLt _).trans ?_,
    h.other.trans (hdom _), h.mem.trans q.mem_eq⟩
  · rw [State.setRate, h.dom]
    exact servoIncr_cast (by omega)
  · rw [← hclamped]
    exact Eq.congr (State.getF_congr (h.regs _ hs1 hs2 hs3 hs4)) rfl
  · rw [State.ltDom, hdom, q.time_eq, State.ltDom]

/-- Settles O27: each correction is an update of the domain, or is refused. -/
theorem timeCorrections : Obligations.TimeCorrections := by
  unfold Obligations.TimeCorrections
  refine ⟨?incr, ?offset, ?adj, ?meas⟩
  case incr => exact fun d v s ht hservo => ⟨does_incrWrite ht hservo, does_incrWrite_refused ht hservo⟩
  case offset =>
    intro d v s ht
    have h := domUpdated_domUpdate s d.isLt { s.dom d with
      offset := 2 ^ 64 * v.toNat + 2 ^ 32 * s.regN (rTIME_OFFSET_LO d) + s.regN (rTIME_OFFSET_FRAC d) }
    exact does_correction (d := d) (by simp) ht rfl ⟨h.dom, h.other, h.mem⟩
  case adj =>
    intro d v s ht
    obtain ⟨hoff, hupd, hincr, hother, hmem, -⟩ := domUpdated_adjust s d.isLt v.toInt
    exact does_correction (d := d) (by simp) ht rfl ⟨hoff, hupd, hincr, hother, hmem⟩
  case meas => exact fun d v s ht hservo => ⟨does_offsetMeas_step ht hservo, does_offsetMeas_servo ht hservo⟩

end Sys2Proof.Machine

/-! ## Snapshots, choice of domain, steps and slews (R302 to R305) -/

namespace Sys2Proof.Machine

/-! ### Register pairs -/

theorem State.pair_setPair (s : State) {lo hi : Nat} (h : lo ≠ hi) (v : Nat) : (s.setPair lo hi v).pair lo hi = v % 2 ^ 64 := by
  simp only [State.pair, State.setPair, State.regN_setRegN, if_neg h, ↓reduceIte]
  omega

theorem State.pair_setRegN_other (s : State) {lo hi o : Nat} (hlo : lo ≠ o) (hhi : hi ≠ o) (v : Nat) :
    (s.setRegN o v).pair lo hi = s.pair lo hi := by
  rw [State.pair, State.regN_setRegN_other _ _ hlo, State.regN_setRegN_other _ _ hhi, State.pair]

theorem State.pair_setPair_other (s : State) {lo hi a b : Nat} (h1 : lo ≠ a) (h2 : hi ≠ a) (h3 : lo ≠ b) (h4 : hi ≠ b) (v : Nat) :
    (s.setPair a b v).pair lo hi = s.pair lo hi := by
  rw [State.setPair, State.pair_setRegN_other _ h3 h4, State.pair_setRegN_other _ h1 h2]

theorem State.regN_setPair_other (s : State) {o a b : Nat} (ha : o ≠ a) (hb : o ≠ b) (v : Nat) : (s.setPair a b v).regN o = s.regN o := by
  rw [State.setPair, State.regN_setRegN_other _ _ hb, State.regN_setRegN_other _ _ ha]

/-! ### Reads of lamp time (R302) -/

theorem State.ltDom_lt (s : State) (d : Nat) : s.ltDom d < 2 ^ 96 := Nat.mod_lt _ (by decide)

theorem State.lampFine_lt (s : State) : s.lampFine < 2 ^ 96 := by
  have h : (0 : Int) < ((2 ^ 96 : Nat) : Int) := by decide
  exact (Int.toNat_lt (Int.emod_nonneg _ h.ne')).2 (Int.emod_lt_of_pos _ h)

theorem State.lampNs_lt (s : State) : s.lampNs < 2 ^ 64 :=
  Nat.div_lt_of_lt_mul (s.lampFine_lt.trans_eq (by decide))

def snapRegs : List Nat :=
  [rTIME_SNAP_FRC_LO, rTIME_SNAP_FRC_HI, rTIME_SNAP_LT_FRAC, rTIME_SNAP_LT_LO, rTIME_SNAP_LT_HI, rTIME_SNAP_D0_LO, rTIME_SNAP_D0_HI,
    rTIME_SNAP_D1_LO, rTIME_SNAP_D1_HI]

theorem State.snapCmd_only (s : State) (v : Word) : OnlyRegs snapRegs s (s.snapCmd v) := by
  unfold State.snapCmd
  split
  · exact .refl _ _
  · exact ((((OnlyRegs.refl snapRegs s).setPair (by decide) (by decide)).setRegN (by decide)).setPair (by decide) (by decide)
      |>.setPair (by decide) (by decide)).setPair (by decide) (by decide)

theorem regRow_snap_lock : (regRow rTIME_SNAP_CMD).map RegRow.lock = some 0 := by decide +kernel

theorem does_snapCmd {s : State} (ht : Takes s rTIME_SNAP_CMD) : Does (.snapCmd 1) s (fun t =>
    t.pair rTIME_SNAP_FRC_LO rTIME_SNAP_FRC_HI = s.time.frc % 2 ^ 64 ∧ t.pair rTIME_SNAP_LT_LO rTIME_SNAP_LT_HI = s.lampNs
    ∧ t.regN rTIME_SNAP_LT_FRAC = s.lampFine % 2 ^ 32 ∧ t.pair rTIME_SNAP_D0_LO rTIME_SNAP_D0_HI = s.ltDom 0 / 2 ^ 32
    ∧ t.pair rTIME_SNAP_D1_LO rTIME_SNAP_D1_HI = s.ltDom 1 / 2 ^ 32 ∧ t = { s with regs := t.regs }) := by
  refine does_viaRegV ht regRow_snap_lock (by decide) rfl ?_
  have honly := (s.snapCmd_only 1).rest
  have hns := s.lampNs_lt
  have h0 := s.ltDom_lt 0
  have h1 := s.ltDom_lt 1
  rw [State.lampNs] at hns ⊢
  refine ⟨?_, ?_, ?_, ?_, ?_, honly⟩ <;> rw [State.snapCmd, if_neg (by decide)] <;> dsimp only
  · rw [State.pair_setPair_other _ (by decide) (by decide) (by decide) (by decide),
      State.pair_setPair_other _ (by decide) (by decide) (by decide) (by decide),
      State.pair_setPair_other _ (by decide) (by decide) (by decide) (by decide), State.pair_setRegN_other _ (by decide) (by decide),
      State.pair_setPair _ (by decide)]
  · rw [State.pair_setPair_other _ (by decide) (by decide) (by decide) (by decide),
      State.pair_setPair_other _ (by decide) (by decide) (by decide) (by decide), State.pair_setPair _ (by decide), Nat.mod_eq_of_lt hns]
  · rw [State.regN_setPair_other _ (by decide) (by decide), State.regN_setPair_other _ (by decide) (by decide),
      State.regN_setPair_other _ (by decide) (by decide), State.regN_setRegN, if_pos rfl, Nat.mod_mod]
  · rw [State.pair_setPair_other _ (by decide) (by decide) (by decide) (by decide), State.pair_setPair _ (by decide), Nat.mod_eq_of_lt (by omega)]
  · rw [State.pair_setPair _ (by decide), Nat.mod_eq_of_lt (by omega)]

theorem does_ltLoRead {s : State} (hp : s.boot.porst = true) : Does .ltLoRead s (fun t =>
    t.rdata.toNat + 2 ^ 32 * t.regN rTIME_LT_HI = s.lampNs ∧ t = { s with regs := t.regs, rdata := t.rdata }
    ∧ ∀ off, off ≠ rTIME_LT_HI → t.reg off = s.reg off) := by
  have hx : exec .ltLoRead s = .next (s.inCore fun u => { u.ltRead.2 with rdata := u.ltRead.1 }) := rfl
  rw [State.inCore, if_pos hp] at hx
  have hreg : ({ s.ltRead.2 with rdata := s.ltRead.1 } : State).regN rTIME_LT_HI = s.lampNs / 2 ^ 32 % 2 ^ 32 :=
    (s.regN_setRegN rTIME_LT_HI rTIME_LT_HI _).trans (by rw [if_pos rfl, Nat.mod_mod])
  have hlow : (BitVec.ofNat 32 (s.lampNs % 2 ^ 32)).toNat = s.lampNs % 2 ^ 32 := by rw [BitVec.toNat_ofNat, Nat.mod_mod]
  have hns := s.lampNs_lt
  refine ⟨_, hx, ?_, rfl, fun off h => ?_⟩
  · rw [hreg]
    exact (congrArg (· + _) hlow).trans (by omega)
  · exact (s.reg_setReg rTIME_LT_HI off _).trans (if_neg h)

/-! ### The choice of the active domain (R304, R305) -/

theorem does_domainSwitch {v : Word} {s : State} (ht : Takes s rTIME_CTRL) (hhold : s.isF fTIME_STATUS_HOLDOVER = false) :
    Does (.domainSwitch v) s (fun t => t.active = v.toNat % 2 ∧ t.getF fTIME_CTRL_AUTO = v.toNat / 256 % 2
      ∧ t.dom 0 = s.dom 0 ∧ t.dom 1 = s.dom 1 ∧ t.isF fTIME_STATUS_HOLDOVER = false ∧ t.mem = s.mem) := by
  have hauto : (s.takeAuto v).getF fTIME_CTRL_AUTO = v.toNat / 256 % 2 :=
    (State.getF_setF _ _ _ (by decide)).trans (Nat.mod_mod _ 2)
  refine ⟨_, exec_domainSwitch ht v, ?_⟩
  rw [State.ctrlWrite_of_no_holdover hhold]
  split
  case isTrue h => exact ⟨(s.takeAuto_active v).trans h.symm, hauto, rfl, rfl, (s.takeAuto_holdover v).trans hhold, rfl⟩
  case isFalse h =>
    refine ⟨(State.switchTo_active ..).trans (Nat.mod_mod _ 2), ?_, State.switchTo_dom _ _ _ 0, State.switchTo_dom _ _ _ 1, ?_,
      State.switchTo_mem ..⟩
    · rw [(State.switchTo_quiet _ _ _).getF _ (by decide) (by decide), State.getF_setResid _ _ (by decide),
        State.getF_setF_other _ _ _ _ (by decide) (by decide), hauto]
    · rw [State.switchTo_holdover, s.takeAuto_holdover, hhold]

theorem State.isF_setHoldover (s : State) (b : Bool) : (s.setHoldover b).isF fTIME_STATUS_HOLDOVER = b := by
  unfold State.setHoldover
  split
  case isTrue h => exact h
  case isFalse =>
    have q : Quiet [] (s.setB fTIME_STATUS_HOLDOVER b) ((s.setB fTIME_STATUS_HOLDOVER b).post evTIME_HOLDOVER srcTIME b.toNat) :=
      (Quiet.refl _ _).post (by decide)
    rw [q.isF _ (by decide) (by decide), State.setB, State.isF, State.getF_setF _ _ _ (by decide)]
    cases b <;> rfl

/-- The active domain is marked stale. -/
def State.staled (s : State) : State := s.setDom s.active { s.dom s.active with stale := true }

theorem State.staled_isF (s : State) (f : Fld) : s.staled.isF f = s.isF f := by rw [State.staled, State.setDom_eq]; rfl

theorem State.staled_active (s : State) : s.staled.active = s.active := by rw [State.staled, State.setDom_eq]; rfl

theorem State.staled_mem (s : State) : s.staled.mem = s.mem := by rw [State.staled, State.setDom_eq]

theorem State.staled_dom (s : State) : s.staled.dom s.active = { s.dom s.active with stale := true } := by
  rw [State.staled, s.dom_setDom s.active_lt s.active_lt, if_pos rfl]

theorem State.staled_fresh_active (s : State) : s.staled.domFresh s.active = false := by
  simp [State.domFresh, s.staled_dom]

/-- The other domain is as fresh as it was. -/
theorem State.staled_fresh_other (s : State) : s.staled.domFresh (1 - s.active) = s.domFresh (1 - s.active) := by
  have hdom : s.staled.dom (1 - s.active) = s.dom (1 - s.active) := by
    rw [State.staled, s.dom_setDom s.active_lt (by omega), if_neg (by have := s.active_lt; omega)]
  have hnow : s.staled.time.now = s.time.now := by
    unfold State.staled State.setDom
    split <;> rfl
  have hcfg : s.staled.regN rTIME_HOLD_CFG = s.regN rTIME_HOLD_CFG := by rw [State.staled, State.setDom_eq]; rfl
  rw [State.domFresh, State.domAge, s.staled_isF, hdom, hnow, hcfg, State.domFresh, State.domAge]

theorem State.domainStale_eq {s : State} (hp : s.holdPast s.active = true) (hv : s.isF (fTIME_DOM_CFG_VALID s.active) = true)
    (hs : (s.dom s.active).stale = false) :
    s.domainStale = if s.isF fTIME_CTRL_AUTO = true ∧ s.domFresh (1 - s.active) = true then
      (s.staled.switchTo (1 - s.active) true).setHoldover false else s.staled.setHoldover true := by
  have hfresh : s.staled.freshCheck true = if s.isF fTIME_CTRL_AUTO = true ∧ s.domFresh (1 - s.active) = true then
      (s.staled.switchTo (1 - s.active) true).setHoldover false else s.staled.setHoldover true := by
    simp only [State.freshCheck, s.staled_active, s.staled_fresh_active, s.staled_fresh_other, s.staled_isF, true_or, ↓reduceIte,
      Bool.false_eq_true]
  rw [State.domainStale, if_neg (by rw [hp]; decide), hv, hs]
  exact hfresh

theorem does_domainStale_holdover {s : State} (hp : s.holdPast s.active = true) (hv : s.isF (fTIME_DOM_CFG_VALID s.active) = true)
    (hs : (s.dom s.active).stale = false) (hauto : s.isF fTIME_CTRL_AUTO = false) :
    Does .domainStale s (fun t =>
      t.dom s.active = { s.dom s.active with stale := true } ∧ t.isF fTIME_STATUS_HOLDOVER = true ∧ t.active = s.active ∧ t.mem = s.mem) := by
  have hx : exec .domainStale s = .next s.domainStale := rfl
  rw [State.domainStale_eq hp hv hs, if_neg (by rw [hauto]; simp)] at hx
  have q := s.staled.setHoldover_quiet true
  refine ⟨_, hx, ?_, State.isF_setHoldover _ _, (q.active (by decide)).trans s.staled_active, q.mem_eq.trans s.staled_mem⟩
  rw [← s.staled_dom, State.dom, q.time_eq, State.dom]

theorem does_domainStale_switch {s : State} (hp : s.holdPast s.active = true) (hv : s.isF (fTIME_DOM_CFG_VALID s.active) = true)
    (hs : (s.dom s.active).stale = false) (hauto : s.isF fTIME_CTRL_AUTO = true) (hfresh : s.domFresh (1 - s.active) = true) :
    Does .domainStale s (fun t => t.active = 1 - s.active ∧ t.isF fTIME_STATUS_HOLDOVER = false ∧ t.mem = s.mem) := by
  have hx : exec .domainStale s = .next s.domainStale := rfl
  rw [State.domainStale_eq hp hv hs, if_pos ⟨hauto, hfresh⟩] at hx
  have q := (s.staled.switchTo (1 - s.active) true).setHoldover_quiet false
  refine ⟨_, hx, ?_, State.isF_setHoldover _ _, (q.mem_eq.trans (State.switchTo_mem ..)).trans s.staled_mem⟩
  rw [q.active (by decide), State.switchTo_active, Nat.mod_eq_of_lt (by omega)]

/-! ### Steps and slews of the residual (R303) -/

theorem slews_of_beyond {r : Int} (h : r < -residLimit ∨ residLimit < r) : r ≠ 0 ∧ slews r = false := by
  have hpos : (0 : Int) < residLimit := by decide
  refine ⟨by omega, ?_⟩
  rw [slews, Bool.and_assoc, Bool.and_eq_false_iff]
  right
  rw [Bool.and_eq_false_iff, decide_eq_false_iff_not, decide_eq_false_iff_not]
  omega

theorem State.lampTg_of_none {s : State} (h : s.tgsOn = []) : s.lampTg = none := by
  refine List.find?_eq_none.2 fun n hn => ?_
  have hoff := List.filter_eq_nil_iff.1 h n (by simp at hn ⊢; omega)
  rw [decide_eq_true_eq, not_not] at hoff ⊢
  by_contra hne
  rw [State.tgState, if_neg fun k => hne k.1] at hoff
  exact hne hoff

/-- With no entry armed a lamp-time step re-examines nothing. -/
theorem State.schedStep_of_empty {s : State} (h : s.time.sched = []) : s.schedStep = s := by
  have hnone : ∀ l : List Nat, l.foldl (fun (s : State) e =>
      match s.schedOf e with
      | none => s
      | some x =>
        if x.mode = sFRAME then s
        else if s.future x.target = false then s.schedLate e x
        else if s.tooFar x.target then s.schedReject e 5
        else s) s = s := fun l => by
    induction l with
    | nil => rfl
    | cons e l ih =>
      have he : s.schedOf e = none := by rw [State.schedOf, h]; rfl
      rw [List.foldl_cons, he]
      exact ih
  exact hnone _

theorem State.rephase_of_none {s : State} (h : s.tgsOn = []) : s.rephase = s := by
  unfold State.rephase
  dsimp only
  rw [h, List.foldl_nil, h]

/-- The residual is gone, and the step counted and posted. -/
def State.stepTaken (s : State) (step : Rat) : State :=
  ((s.setResid 0).raise fTIME_STATUS_TIME_STEP rTIME_TIME_STEP_COUNT).post evTIME_TIME_STEP srcTIME (satNs step)

theorem State.stepTaken_quiet (s : State) (step : Rat) :
    Quiet [rTIME_STATUS, rTIME_TIME_STEP_COUNT] { s with time := { s.time with resid := 0 } } (s.stepTaken step) :=
  (((Quiet.refl _ { s with time := { s.time with resid := 0 } }).setB (f := fTIME_STATUS_SLEWING) (.inl (by simp))).raise
    (.inl (by simp)) (.inl (by simp))).post (by decide)

/-- The latch point of lamp time moves with the step. -/
def State.latchMoved (s : State) (step : Rat) : State :=
  { s with lampTiming := { s.lampTiming with latchAt := s.lampTiming.latchAt + step } }

/-- The instants of the generators move with the step; the schedule and the grid are looked at again. -/
def State.stepBy (s : State) (step : Rat) : State :=
  ((s.tgsOn.foldl (fun s n => s.updTg n (fun g =>
    { g with s := g.s + step, e := g.e + step, xfer := g.xfer.map (fun x => { x with latch := x.latch + step }) })) s).latchMoved
      step).schedStep.rephase

theorem tgStatus_free : ∀ n : Fin 4, (fTG_STATUS_STATE n).off ∉ [rTIME_STATUS, rTIME_TIME_STEP_COUNT] ∧ (fTG_STATUS_STATE n).off ∉ evRegs := by
  decide

theorem State.tgsOn_congr {s t : State} (htg : t.tg = s.tg) (h : ∀ n < 4, t.getF (fTG_STATUS_STATE n) = s.getF (fTG_STATUS_STATE n)) :
    t.tgsOn = s.tgsOn :=
  List.filter_congr fun n hn => by
    rw [State.tgState, h n (List.mem_range.1 hn), htg, State.tgState]

theorem State.stepBy_of_none {s : State} (htg : s.tgsOn = []) (hsched : s.time.sched = []) (step : Rat) :
    s.stepBy step = s.latchMoved step := by
  have hon : (s.latchMoved step).tgsOn = [] := (State.tgsOn_congr rfl fun _ _ => rfl).trans htg
  rw [State.stepBy, htg, List.foldl_nil, State.schedStep_of_empty (s := s.latchMoved step) hsched, State.rephase_of_none hon]

theorem State.stepTaken_regs (s : State) (step : Rat) :
    (s.stepTaken step).getF fTIME_STATUS_TIME_STEP = 1 ∧ (s.stepTaken step).isF fTIME_STATUS_SLEWING = false
      ∧ (s.stepTaken step).regN rTIME_TIME_STEP_COUNT = min (s.regN rTIME_TIME_STEP_COUNT + 1) 0xFFFF := by
  have q : Quiet [] ((s.setResid 0).raise fTIME_STATUS_TIME_STEP rTIME_TIME_STEP_COUNT) (s.stepTaken step) :=
    (Quiet.refl _ _).post (by decide)
  have hcount : (s.setResid 0).regN rTIME_TIME_STEP_COUNT = s.regN rTIME_TIME_STEP_COUNT :=
    State.regN_setF_other _ _ (by decide)
  have hslew : (s.setResid 0).getF fTIME_STATUS_SLEWING = 0 := State.getF_setF _ _ _ (by decide)
  refine ⟨?_, ?_, ?_⟩
  · rw [q.getF _ (by decide) (by decide), State.getF_raise _ (by decide) (by decide)]
    rfl
  · rw [q.isF _ (by decide) (by decide), State.isF, State.raise, State.bump, State.bumpBy, State.getF_setRegN_other _ _ (by decide),
      State.getF_setF_other _ _ _ _ (by decide) (by decide), hslew]
    rfl
  · rw [q.regN (by decide) (by decide), State.regN_raise_counter _ (by decide) (by decide), hcount]

theorem does_timeStep {s : State} (hr : s.time.resid < -residLimit ∨ residLimit < s.time.resid) (htg : s.tgsOn = [])
    (hsched : s.time.sched = []) : Does .timeStep s (fun t => t.time.resid = 0 ∧ t.getF fTIME_STATUS_TIME_STEP = 1
      ∧ t.isF fTIME_STATUS_SLEWING = false ∧ t.regN rTIME_TIME_STEP_COUNT = min (s.regN rTIME_TIME_STEP_COUNT + 1) 0xFFFF
      ∧ t.lampTiming = { s.lampTiming with latchAt := s.lampTiming.latchAt - (s.time.resid : Rat) / (2 ^ 32 * 20000) }
      ∧ Quiet [rTIME_STATUS, rTIME_TIME_STEP_COUNT] { s with time := t.time, lampTiming := t.lampTiming } t) := by
  obtain ⟨hne, hslews⟩ := slews_of_beyond hr
  have hbound : s.stepBoundary = true := by rw [State.stepBoundary, State.lampTg_of_none htg]
  have hq := s.stepTaken_quiet (-s.residNs)
  obtain ⟨hstep, hslew, hcount⟩ := s.stepTaken_regs (-s.residNs)
  have heq : s.timeStepOp =
      { s.stepTaken (-s.residNs) with lampTiming := { s.lampTiming with latchAt := s.lampTiming.latchAt + -s.residNs } } := by
    have hby : s.timeStepOp = (s.stepTaken (-s.residNs)).stepBy (-s.residNs) := by
      rw [State.timeStepOp, if_neg (by rw [hslews, hbound]; simp [hne])]
      rfl
    have hon : (s.stepTaken (-s.residNs)).tgsOn = [] := (State.tgsOn_congr (by rw [hq.rest])
      fun n hn => hq.getF _ (tgStatus_free ⟨n, hn⟩).1 (tgStatus_free ⟨n, hn⟩).2).trans htg
    have hnone : (s.stepTaken (-s.residNs)).time.sched = [] := by rw [hq.time_eq]; exact hsched
    have hlamp : (s.stepTaken (-s.residNs)).lampTiming = s.lampTiming := by rw [hq.rest]
    rw [hby, State.stepBy_of_none hon hnone, State.latchMoved, hlamp]
  have hx : exec .timeStep s = .next s.timeStepOp := rfl
  rw [heq] at hx
  generalize s.stepTaken (-s.residNs) = u at hq hstep hslew hcount hx
  refine ⟨_, hx, congrArg TimeU.resid hq.time_eq, hstep, hslew, hcount, ?_, ?_⟩
  · rw [← sub_eq_add_neg, State.residNs]
    norm_num
  · refine ⟨?_, hq.regs⟩
    rw [hq.rest]

theorem does_slewEnd {s : State} (hslew : s.isF fTIME_STATUS_SLEWING = true) (hend : slewStep s.time.resid (s.dom s.active).incr = 0) :
    Does .slewEnd s (fun t => t.time.resid = 0 ∧ t.isF fTIME_STATUS_SLEWING = false ∧ Quiet [rTIME_STATUS] { s with time := t.time } t) := by
  have hx : exec .slewEnd s = .next s.slewEnd := rfl
  rw [State.slewEnd, if_pos ⟨hslew, hend⟩] at hx
  refine ⟨_, hx, rfl, ?_, (Quiet.refl _ { s with time := { s.time with resid := 0 } }).setB (f := fTIME_STATUS_SLEWING) (.inl (by simp))⟩
  have h0 : (s.setResid 0).getF fTIME_STATUS_SLEWING = 0 := State.getF_setF _ _ _ (by decide)
  rw [State.isF, h0]
  rfl

/-- Settles O28: what each command takes of lamp time, and the domain that freshness leaves active. -/
theorem timeDomains : Obligations.TimeDomains := by
  unfold Obligations.TimeDomains
  refine ⟨fun s => does_snapCmd, fun s hp => ?inReset, fun s => does_ltLoRead, fun v s => does_domainSwitch, fun s hp => ?fresh,
    fun s hp hv hs => ⟨does_domainStale_holdover hp hv hs, does_domainStale_switch hp hv hs⟩, fun s => does_timeStep, fun s n htg he => ?early,
    fun s => ⟨does_slewEnd, fun h => ?noSlew⟩⟩
  case inReset =>
    have hx : exec .ltLoRead s = .next (s.inCore fun u => { u.ltRead.2 with rdata := u.ltRead.1 }) := rfl
    rw [State.inCore, if_neg (by rw [hp]; decide)] at hx
    exact ⟨s, hx, rfl⟩
  case fresh =>
    have hx : exec .domainStale s = .next s.domainStale := rfl
    rw [State.domainStale, if_pos hp] at hx
    exact ⟨s, hx, rfl⟩
  case early =>
    have hbound : s.stepBoundary = false := by
      rw [State.stepBoundary, htg]
      have hlt : s.lampRat < (s.tgOf n).e := (div_lt_iff₀ (by norm_num)).2 (by linarith)
      exact decide_eq_false (not_le.2 hlt)
    have hx : exec .timeStep s = .next s.timeStepOp := rfl
    rw [State.timeStepOp, if_pos (.inr (.inr hbound))] at hx
    exact ⟨s, hx, rfl⟩
  case noSlew =>
    have hx : exec .slewEnd s = .next s.slewEnd := rfl
    rw [State.slewEnd, if_neg fun k => h.elim (by rw [k.1]; decide) (· k.2)] at hx
    exact ⟨s, hx, rfl⟩

end Sys2Proof.Machine

/-! ## gPTP (R307 to R309) -/

namespace Sys2Proof.Machine

/-! ### The offset of an exchange -/

theorem signOf_unsignOf (k : Nat) (i : Int) : signOf (k + 1) (unsignOf (k + 1) i) = i.bmod (2 ^ (k + 1)) := by
  have hpow : (2 : Nat) ^ (k + 1) = 2 * 2 ^ k := Nat.pow_succ'
  generalize (2 : Nat) ^ k = m at hpow
  rw [signOf, Int.bmod, unsignOf, hpow]
  by_cases hm : m = 0
  · subst hm
    simp at hpow
  · have hnonneg : 0 ≤ i % ((2 * m : Nat) : Int) := Int.emod_nonneg _ (by omega)
    have hlt : i % ((2 * m : Nat) : Int) < ((2 * m : Nat) : Int) := Int.emod_lt_of_pos _ (by omega)
    generalize i % ((2 * m : Nat) : Int) = r at hnonneg hlt
    rw [Nat.mod_eq_of_lt (by omega)]
    split <;> split <;> omega

theorem State.gptpStamp_rx (s : State) (p ago : Nat) : s.gptpStamp p false ago = gptpTime p s.loader.cfg.ti.rxSer s.loader.cfg.ti.rxLat ago s := by
  simp [State.gptpStamp, gptpTime, unsignOf]

theorem State.gptpStamp_tx (s : State) (p ago : Nat) : s.gptpStamp p true ago = gptpTime p s.loader.cfg.ti.txSer s.loader.cfg.ti.txLat ago s := by
  simp [State.gptpStamp, gptpTime, unsignOf]

theorem State.gptpOffset_eq (s : State) (i t origin : Nat) (c : GptpC) : s.gptpOffset i (c.dom % 2) t origin = syncOffset i c t origin s := by
  have hlt : ((s.ltAt (c.dom % 2) t : Nat) : Int) =
      (((s.dom (c.dom % 2)).offset : Int) + (s.dom (c.dom % 2)).incr * ((t : Int) - (s.dom (c.dom % 2)).base).bmod (2 ^ 64)) % 2 ^ 96 := by
    rw [State.ltAt, signOf_unsignOf 63]
    exact Int.toNat_of_nonneg (Int.emod_nonneg _ (by decide))
  rw [State.gptpOffset, ltDiff, signOf_unsignOf 95, hlt, syncOffset]
  simp

/-! ### Instances -/

theorem State.gptpOf_setGptp (s : State) {i : Nat} (h : i < s.time.gptp.length) (g : GptpSt) (k : Nat) :
    (s.setGptp i g).gptpOf k = if k = i then g else s.gptpOf k := by
  simp only [State.gptpOf, State.setGptp, State.updTime, nth, List.getD_eq_getElem?_getD, List.getElem?_set]
  by_cases hk : k = i
  · rw [if_pos hk.symm, if_pos h, if_pos hk]; rfl
  · rw [if_neg (Ne.symm hk), if_neg hk]

/-- A change of a domain's VALID bit leaves the gPTP entries and the memory; the bit is as it was set. -/
theorem validChange_effect (s : State) {e : Nat} (he : e < 2) (n : Nat) {k : EvKind} (src data : Nat) (was : Bool)
    (hk : k.prio < 4) :
    let t := ((s.setF (fTIME_DOM_CFG_VALID e) n).post k src data).freshCheck was
    (∀ i, t.gptpOf i = s.gptpOf i) ∧ t.mem = s.mem ∧ t.getF (fTIME_DOM_CFG_VALID e) = n % 2 := by
  have hfree : ∀ d : Fin 2, rTIME_DOM_CFG d ≠ rTIME_STATUS ∧ rTIME_DOM_CFG d ≠ rTIME_CTRL ∧ rTIME_DOM_CFG d ∉ evRegs := by decide
  obtain ⟨h1, h2, h3⟩ : rTIME_DOM_CFG e ≠ rTIME_STATUS ∧ rTIME_DOM_CFG e ≠ rTIME_CTRL ∧ rTIME_DOM_CFG e ∉ evRegs := hfree ⟨e, he⟩
  have q : Quiet [] (s.setF (fTIME_DOM_CFG_VALID e) n) ((s.setF (fTIME_DOM_CFG_VALID e) n).post k src data) :=
    (Quiet.refl _ _).post hk
  have honly : OnlyRegs [rTIME_DOM_CFG e] s (s.setF (fTIME_DOM_CFG_VALID e) n) := (OnlyRegs.refl _ s).setF (by simp)
  have hset : (s.setF (fTIME_DOM_CFG_VALID e) n).getF (fTIME_DOM_CFG_VALID e) = n % 2 := by
    rw [State.getF_setF _ _ _ (by simp), Nat.pow_one]
  generalize (s.setF (fTIME_DOM_CFG_VALID e) n).post k src data = u at q
  have hf := refreshed_freshCheck u was
  refine ⟨fun i => ?_, (hf.mem_eq.trans q.mem_eq).trans honly.mem_eq, ?_⟩
  · unfold State.gptpOf
    rw [hf.time, q.time_eq, honly.time_eq]
  · rw [← hset, ← q.getF _ (by simp) h3]
    exact State.getF_congr (hf.reg h1 h2 h3)

/-- The count of good exchanges after one more. -/
def goodAfter (n : Nat) (off : Int) : Nat := if -200 ≤ off ∧ off ≤ 200 then min 3 (n + 1) else 0

theorem goodAfter_le (n : Nat) (off : Int) : goodAfter n off ≤ 3 := by
  unfold goodAfter
  split <;> omega

theorem State.gptpGood_effect {s : State} {i : Nat} (h : i < s.time.gptp.length) (c : GptpC) (off : Int) :
    let t := s.gptpGood i c off
    t.gptpOf i = { s.gptpOf i with good := goodAfter (s.gptpOf i).good off } ∧ t.mem = s.mem
      ∧ (goodAfter (s.gptpOf i).good off = 3 → t.isF (fTIME_DOM_CFG_VALID (c.dom % 2)) = true)
      ∧ (goodAfter (s.gptpOf i).good off = 0 → t = { s with time := { s.time with gptp := t.time.gptp } }) := by
  have hsat : (if -200 ≤ off ∧ off ≤ 200 then satAt 3 ((s.gptpOf i).good + 1) else 0) = goodAfter (s.gptpOf i).good off := by
    simp only [satAt, goodAfter, Nat.min_comm]
  unfold State.gptpGood
  rw [hsat]
  dsimp only
  have hle := goodAfter_le (s.gptpOf i).good off
  generalize goodAfter (s.gptpOf i).good off = n at hle
  have hof : (s.setGptp i { s.gptpOf i with good := n }).gptpOf i = { s.gptpOf i with good := n } := by
    rw [s.gptpOf_setGptp h, if_pos rfl]
  split
  case isTrue hc =>
    refine ⟨hof, rfl, fun h3 => ?_, fun _ => rfl⟩
    exact hc.resolve_left (by omega)
  case isFalse hc =>
    obtain ⟨hkeep, hmem, hvalid⟩ := validChange_effect (s.setGptp i { s.gptpOf i with good := n })
      (Nat.mod_lt c.dom Nat.two_pos) 1 srcMC0 (gptpData c) false
      (k := evTIME_GPTP_LOCKED) (by decide)
    refine ⟨(hkeep i).trans hof, hmem, fun _ => ?_, fun h0 => absurd (.inl (by omega)) hc⟩
    rw [State.isF, hvalid]
    rfl

theorem State.gptpLose_effect {s : State} {i : Nat} (h : i < s.time.gptp.length) (c : GptpC) :
    let t := s.gptpLose i c
    (t.gptpOf i).good = 0 ∧ t.isF (fTIME_DOM_CFG_VALID (c.dom % 2)) = false ∧ t.mem = s.mem := by
  have hof : ((s.setGptp i { s.gptpOf i with good := 0 }).gptpOf i).good = 0 := by rw [s.gptpOf_setGptp h, if_pos rfl]
  unfold State.gptpLose
  dsimp only
  split
  case isTrue hc => exact ⟨hof, hc, rfl⟩
  case isFalse =>
    obtain ⟨hkeep, hmem, hvalid⟩ := validChange_effect (s.setGptp i { s.gptpOf i with good := 0 })
      (Nat.mod_lt c.dom Nat.two_pos) 0 srcMC0 (gptpData c)
      ((s.setGptp i { s.gptpOf i with good := 0 }).domFresh (s.setGptp i { s.gptpOf i with good := 0 }).active)
      (k := evTIME_GPTP_LOST) (by decide)
    refine ⟨(congrArg GptpSt.good (hkeep i)).trans hof, ?_, hmem⟩
    rw [State.isF, hvalid]
    rfl

/-! ### Sync exchanges -/

/-- A Sync is heard: its time, and the stamp that waits for its follow-up. -/
def State.gptpHeard (s : State) (i : Nat) (w : Option Nat) : State := s.setGptp i { s.gptpOf i with last := some s.time.now, wait := w }

/-- What the state needs for an exchange of gPTP entry `i` with port and domain `c`. -/
structure GptpUp (i : Nat) (c : GptpC) (s : State) : Prop where
  cfg : s.loader.cfg.ti.gptp[i]? = some c
  runs : s.fwRuns = true
  lt : i < s.time.gptp.length

section

variable {i : Fin 2} {c : GptpC} {s : State}

theorem State.gptpOf_gptpHeard (h : i.val < s.time.gptp.length) (w : Option Nat) :
    (s.gptpHeard i w).gptpOf i = { s.gptpOf i with last := some s.time.now, wait := w } := by
  rw [State.gptpHeard, s.gptpOf_setGptp h, if_pos rfl]

theorem State.gptpHeard_length (s : State) (i : Nat) (w : Option Nat) : (s.gptpHeard i w).time.gptp.length = s.time.gptp.length :=
  List.length_set

theorem exec_gptpSync (h : GptpUp i c s) (m : SyncIn) : exec (.gptpSync i m) s = .next (match m with
    | .oneStep ago origin => (s.gptpHeard i none).gptpGood i c
        (syncOffset i c (gptpTime c.port s.loader.cfg.ti.rxSer s.loader.cfg.ti.rxLat ago s) origin s)
    | .twoStep ago => s.gptpHeard i (some (gptpTime c.port s.loader.cfg.ti.rxSer s.loader.cfg.ti.rxLat ago s))
    | .followUp origin =>
      match (s.gptpOf i).wait with
      | none => s
      | some t => (s.setGptp i { s.gptpOf i with wait := none }).gptpGood i c (syncOffset i c t origin s)) := by
  have hx : exec (.gptpSync i m) s = .next (s.gptpSync i m) := rfl
  rw [hx, State.gptpSync, h.cfg]
  dsimp only
  rw [if_neg (by rw [h.runs]; decide)]
  cases m with
  | oneStep ago origin =>
    dsimp only
    rw [s.gptpStamp_rx, s.gptpOffset_eq]
    rfl
  | twoStep ago =>
    dsimp only
    rw [s.gptpStamp_rx]
    rfl
  | followUp origin =>
    dsimp only
    cases (s.gptpOf i).wait with
    | none => rfl
    | some t => exact congrArg (fun o => Host.Outcome.next (State.gptpGood _ i c o)) (s.gptpOffset_eq i t origin c)

theorem goodAfter_within {n : Nat} {off : Int} (hlo : -200 ≤ off) (hhi : off ≤ 200) : goodAfter n off = min 3 (n + 1) :=
  if_pos ⟨hlo, hhi⟩

theorem does_oneStep_within (h : GptpUp i c s) {ago origin : Nat} {off : Int}
    (hoff : syncOffset i c (gptpTime c.port s.loader.cfg.ti.rxSer s.loader.cfg.ti.rxLat ago s) origin s = off) (hlo : -200 ≤ off) (hhi : off ≤ 200) :
    Does (.gptpSync i (.oneStep ago origin)) s (fun t =>
      (t.gptpOf i).good = min 3 ((s.gptpOf i).good + 1) ∧ (t.gptpOf i).last = some s.time.now ∧ (t.gptpOf i).wait = none
      ∧ t.mem = s.mem ∧ (2 ≤ (s.gptpOf i).good → t.isF (fTIME_DOM_CFG_VALID (c.dom % 2)) = true)) := by
  have hlen : i.val < (s.gptpHeard i none).time.gptp.length := by rw [s.gptpHeard_length]; exact h.lt
  obtain ⟨hof, hmem, hvalid, -⟩ := State.gptpGood_effect hlen c off
  rw [State.gptpOf_gptpHeard h.lt, goodAfter_within hlo hhi] at hof hvalid
  refine ⟨_, exec_gptpSync h _, ?_⟩
  dsimp only
  rw [hoff]
  exact ⟨congrArg GptpSt.good hof, congrArg GptpSt.last hof, congrArg GptpSt.wait hof, hmem, fun h2 => hvalid (by dsimp only; omega)⟩

theorem does_oneStep_outside (h : GptpUp i c s) {ago origin : Nat} {off : Int}
    (hoff : syncOffset i c (gptpTime c.port s.loader.cfg.ti.rxSer s.loader.cfg.ti.rxLat ago s) origin s = off) (hout : off < -200 ∨ 200 < off) :
    Does (.gptpSync i (.oneStep ago origin)) s (fun t =>
      (t.gptpOf i).good = 0 ∧ (t.gptpOf i).last = some s.time.now ∧ t = { s with time := { s.time with gptp := t.time.gptp } }) := by
  have hlen : i.val < (s.gptpHeard i none).time.gptp.length := by rw [s.gptpHeard_length]; exact h.lt
  obtain ⟨hof, -, -, hrest⟩ := State.gptpGood_effect hlen c off
  have hzero : goodAfter (s.gptpOf i).good off = 0 := if_neg (by omega)
  rw [State.gptpOf_gptpHeard h.lt] at hof hrest
  rw [hzero] at hof
  refine ⟨_, exec_gptpSync h _, ?_⟩
  dsimp only
  rw [hoff]
  exact ⟨congrArg GptpSt.good hof, congrArg GptpSt.last hof, hrest hzero⟩

theorem does_followUp (h : GptpUp i c s) {origin t0 : Nat} (hwait : (s.gptpOf i).wait = some t0) (hlo : -200 ≤ syncOffset i c t0 origin s)
    (hhi : syncOffset i c t0 origin s ≤ 200) : Does (.gptpSync i (.followUp origin)) s (fun t =>
        (t.gptpOf i).good = min 3 ((s.gptpOf i).good + 1) ∧ (t.gptpOf i).wait = none ∧ t.mem = s.mem
        ∧ (2 ≤ (s.gptpOf i).good → t.isF (fTIME_DOM_CFG_VALID (c.dom % 2)) = true)) := by
  have hlen : i.val < (s.setGptp i { s.gptpOf i with wait := none }).time.gptp.length := h.lt.trans_eq List.length_set.symm
  obtain ⟨hof, hmem, hvalid, -⟩ := State.gptpGood_effect hlen c (syncOffset i c t0 origin s)
  rw [s.gptpOf_setGptp h.lt, if_pos rfl, goodAfter_within hlo hhi] at hof hvalid
  have hx := exec_gptpSync h (.followUp origin)
  dsimp only at hx
  rw [hwait] at hx
  exact ⟨_, hx, congrArg GptpSt.good hof, congrArg GptpSt.wait hof, hmem, fun h2 => hvalid (by dsimp only; omega)⟩

/-! ### Announce, loss and the Sync interval -/

theorem exec_gptpAnnounce (h : GptpUp i c s) (gm : Nat) :
    exec (.gptpAnnounce i gm) s = .next (if gm = c.gm then s else s.gptpLose i c) := by
  have hx : exec (.gptpAnnounce i gm) s = .next (s.gptpAnnounce i gm) := rfl
  rw [hx, State.gptpAnnounce, h.cfg]
  simp only [h.runs, Bool.true_eq_false, false_or]

theorem exec_gptpLost (h : GptpUp i c s) (able : Bool) :
    exec (.gptpLost i able) s = .next (if able = true ∧ s.syncTimeout i = false then s else s.gptpLose i c) := by
  have hx : exec (.gptpLost i able) s = .next (s.gptpLost i able) := rfl
  rw [hx, State.gptpLost, h.cfg]
  simp only [h.runs, Bool.true_eq_false, false_or]

theorem does_gptpLost (h : GptpUp i c s) {able : Bool} (hlate : able = true → ∀ t0, (s.gptpOf i).last = some t0 →
    t0 + 3 * (800000000 / 2 ^ (s.gptpOf i).interval.natAbs) ≤ s.time.now) : Does (.gptpLost i able) s (fun t =>
        (t.gptpOf i).good = 0 ∧ t.isF (fTIME_DOM_CFG_VALID (c.dom % 2)) = false ∧ t.mem = s.mem) := by
  have hneg : ¬(able = true ∧ s.syncTimeout i = false) := by
    rintro ⟨hable, hno⟩
    rw [State.syncTimeout] at hno
    cases hl : (s.gptpOf i).last with
    | none => rw [hl] at hno; cases hno
    | some t0 =>
      rw [hl] at hno
      exact of_decide_eq_false hno (hlate hable t0 hl)
  have hx := exec_gptpLost h able
  rw [if_neg hneg] at hx
  exact ⟨_, hx, State.gptpLose_effect h.lt c⟩

theorem does_gptpLost_early (h : GptpUp i c s) {t0 : Nat} (hl : (s.gptpOf i).last = some t0)
    (hearly : s.time.now < t0 + 3 * (800000000 / 2 ^ (s.gptpOf i).interval.natAbs)) : Does (.gptpLost i true) s (fun t => t = s) := by
  have hno : s.syncTimeout i = false := by
    rw [State.syncTimeout, hl]
    exact decide_eq_false (not_le.2 hearly)
  have hx := exec_gptpLost h true
  rw [if_pos ⟨rfl, hno⟩] at hx
  exact ⟨s, hx, rfl⟩

theorem does_gptpSignalling (h : GptpUp i c s) {k : Int} (hlo : -5 ≤ k) (hhi : k ≤ 0) : Does (.gptpSignalling i k) s (fun t =>
        (t.gptpOf i).interval = k ∧ (t.gptpOf i).good = (s.gptpOf i).good ∧ t.gptpOf (1 - i.val) = s.gptpOf (1 - i.val)
        ∧ t = { s with time := { s.time with gptp := t.time.gptp } }) := by
  have hx : exec (.gptpSignalling i k) s = .next (s.gptpSignal i k) := rfl
  rw [State.gptpSignal, if_neg (by rw [h.runs]; simp; omega)] at hx
  have hof := s.gptpOf_setGptp h.lt { s.gptpOf i with interval := k }
  refine ⟨_, hx, ?_, ?_, ?_, rfl⟩
  · rw [hof, if_pos rfl]
  · rw [hof, if_pos rfl]
  · rw [hof, if_neg (by have := i.isLt; omega)]

theorem does_gptpSignalling_ignored {k : Int} (hout : k < -5 ∨ 0 < k) : Does (.gptpSignalling i k) s (fun t => t = s) := by
  have hx : exec (.gptpSignalling i k) s = .next (s.gptpSignal i k) := rfl
  rw [State.gptpSignal, if_pos (.inr hout)] at hx
  exact ⟨s, hx, rfl⟩

/-! ### Link delay -/

theorem State.ethOut_of_plain {s : State} {p : Nat} (h : s.macsecOn p = false) (x : EthTx) : s.ethOut p x = s.ethSend p x none := if_pos h

theorem does_pdelay_due {p : Fin 2} (hrun : s.fwRuns = true) (hplain : s.macsecOn p = false) : Does (.gptpPdelay p .due) s (fun t =>
      t.time = { s.time with
        pdelay := s.time.pdelay.set p (some (gptpTime p s.loader.cfg.ti.txSer s.loader.cfg.ti.txLat 0 s)),
        pdelaySeq := s.time.pdelaySeq.set p ((s.time.pdelaySeq.getD p 0 + 1) % 65536) }
      ∧ t = { s with time := t.time, host := { s.host with
          eth := s.host.eth ++ [(p.val, .pdelayReq (s.time.pdelaySeq.getD p 0))], wire := t.host.wire } }) := by
  have hx : exec (.gptpPdelay p .due) s = .next (s.gptpPdelay p .due) := rfl
  rw [State.gptpPdelay, if_neg (by rw [hrun]; decide)] at hx
  dsimp only at hx
  rw [State.ethOut_of_plain hplain, s.gptpStamp_tx] at hx
  exact ⟨_, hx, rfl, rfl⟩

theorem does_pdelay_req {p : Fin 2} (hrun : s.fwRuns = true) (hplain : s.macsecOn p = false) (who : BitVec 80) (seq : BitVec 16) :
    Does (.gptpPdelay p (.req who seq)) s (fun t =>
      t = { s with host := { s.host with wire := t.host.wire, eth := s.host.eth ++
        [(p.val, .pdelayResp (gptpTime p s.loader.cfg.ti.rxSer s.loader.cfg.ti.rxLat 0 s) who.toNat seq.toNat),
         (p.val, .pdelayFollow (gptpTime p s.loader.cfg.ti.txSer s.loader.cfg.ti.txLat 0 s) who.toNat seq.toNat)] } }) := by
  have hx : exec (.gptpPdelay p (.req who seq)) s = .next (s.gptpPdelay p (.req who seq)) := rfl
  rw [State.gptpPdelay, if_neg (by rw [hrun]; decide)] at hx
  have hnext : ∀ x y, (s.ethSend p x none).ethOut p y = (s.ethSend p x none).ethSend p y none := fun x y =>
    State.ethOut_of_plain (s := s.ethSend p x none) hplain y
  rw [State.ethOut_of_plain hplain, hnext, s.gptpStamp_rx, s.gptpStamp_tx] at hx
  refine ⟨_, hx, ?_⟩
  simp only [State.ethSend, State.updHost, List.append_assoc, List.cons_append, List.nil_append]

/-- The delay `ns` goes to the gPTP entry `q`, if it stands at port `p`. -/
def State.delayTo (p ns : Nat) (s : State) (q : GptpC × Nat) : State :=
  if q.1.port = p then s.setGptp q.2 { s.gptpOf q.2 with delayNs := ns } else s

/-- Of the gPTP entries the delays alone are set. -/
structure DelaysSet (s t : State) : Prop where
  rest : t = { s with time := { s.time with gptp := t.time.gptp } }
  length : t.time.gptp.length = s.time.gptp.length
  good : ∀ k, (t.gptpOf k).good = (s.gptpOf k).good

theorem DelaysSet.trans {s t u : State} (h : DelaysSet s t) (k : DelaysSet t u) : DelaysSet s u := by
  refine ⟨?_, k.length.trans h.length, fun j => (k.good j).trans (h.good j)⟩
  have := k.rest
  rw [h.rest] at this
  exact this

theorem State.setGptp_of_le {s : State} {i : Nat} (h : s.time.gptp.length ≤ i) (g : GptpSt) : s.setGptp i g = s := by
  rw [State.setGptp, State.updTime, List.set_eq_of_length_le h]

theorem delaysSet_delayTo (p ns : Nat) (s : State) (q : GptpC × Nat) : DelaysSet s (s.delayTo p ns q) := by
  unfold State.delayTo
  split
  · refine ⟨rfl, List.length_set, fun k => ?_⟩
    rcases Nat.lt_or_ge q.2 s.time.gptp.length with h | h
    · rw [s.gptpOf_setGptp h]
      split
      case isTrue hk => rw [hk]
      case isFalse => rfl
    · rw [State.setGptp_of_le h]
  · exact ⟨rfl, rfl, fun _ => rfl⟩

theorem State.delayTo_delay {s : State} {k : Nat} (hk : k < s.time.gptp.length) {p ns : Nat} {q : GptpC × Nat}
    (h : q.1.port = p ∧ q.2 = k ∨ (s.gptpOf k).delayNs = ns) : ((s.delayTo p ns q).gptpOf k).delayNs = ns := by
  unfold State.delayTo
  split
  case isTrue hp =>
    rcases Nat.lt_or_ge q.2 s.time.gptp.length with hq | hq
    · rw [s.gptpOf_setGptp hq]
      split
      case isTrue => rfl
      case isFalse hne => exact h.resolve_left fun e => hne e.2.symm
    · rw [State.setGptp_of_le hq]
      exact h.resolve_left fun e => by omega
  case isFalse hp => exact h.resolve_left fun e => hp e.1

theorem delaysSet_foldl (p ns : Nat) (l : List (GptpC × Nat)) (s : State) : DelaysSet s (l.foldl (State.delayTo p ns) s) := by
  induction l generalizing s with
  | nil => exact ⟨rfl, rfl, fun _ => rfl⟩
  | cons q l ih => exact (delaysSet_delayTo p ns s q).trans (ih _)

theorem foldl_delayTo_delay {p ns k : Nat} (l : List (GptpC × Nat)) {s : State} (hk : k < s.time.gptp.length)
    (h : (∃ q ∈ l, q.1.port = p ∧ q.2 = k) ∨ (s.gptpOf k).delayNs = ns) : ((l.foldl (State.delayTo p ns) s).gptpOf k).delayNs = ns := by
  induction l generalizing s with
  | nil => exact h.resolve_left fun ⟨_, hq, _⟩ => nomatch hq
  | cons q l ih =>
    refine ih (hk.trans_eq (delaysSet_delayTo p ns s q).length.symm) ?_
    rcases h with ⟨r, hr, hport⟩ | h
    · rcases List.mem_cons.1 hr with rfl | hr
      · exact .inr (State.delayTo_delay hk (.inl hport))
      · exact .inl ⟨r, hr, hport⟩
    · exact .inr (State.delayTo_delay hk (.inr h))

theorem exec_pdelay_resp {p : Fin 2} (hrun : s.fwRuns = true) (seq : BitVec 16) (t2 t3 : Nat) :
    exec (.gptpPdelay p (.resp seq t2 t3)) s = .next (match s.time.pdelay.getD p none with
      | none => s
      | some t1 =>
        if (seq.toNat + 1) % 65536 ≠ s.time.pdelaySeq.getD p 0 then s
        else s.loader.cfg.ti.gptp.zipIdx.foldl (State.delayTo p
          ((5 * ((gptpTime p s.loader.cfg.ti.rxSer s.loader.cfg.ti.rxLat 0 s + 2 ^ 64 - t1) % 2 ^ 64) - 4 * (t3 - t2)) / 8))
          (s.updTime (fun t => { t with pdelay := t.pdelay.set p none }))) := by
  have hx : exec (.gptpPdelay p (.resp seq t2 t3)) s = .next (s.gptpPdelay p (.resp seq t2 t3)) := rfl
  rw [hx, State.gptpPdelay, if_neg (by rw [hrun]; decide), ← s.gptpStamp_rx]
  rfl

theorem does_pdelay_resp (h : GptpUp i c s) {p : Fin 2} (hport : c.port = p) (hlen : s.time.pdelay.length = 2) {seq : BitVec 16} {t1 : Nat}
    (ht1 : s.time.pdelay.getD p none = some t1) (hseq : (seq.toNat + 1) % 65536 = s.time.pdelaySeq.getD p 0) (t2 t3 : Nat) :
    Does (.gptpPdelay p (.resp seq t2 t3)) s (fun t =>
          (t.gptpOf i).delayNs =
            (5 * ((gptpTime p s.loader.cfg.ti.rxSer s.loader.cfg.ti.rxLat 0 s + 2 ^ 64 - t1) % 2 ^ 64) - 4 * (t3 - t2)) / 8
          ∧ (t.gptpOf i).good = (s.gptpOf i).good ∧ t.time.pdelay.getD p none = none
          ∧ t = { s with time := { s.time with gptp := t.time.gptp, pdelay := t.time.pdelay } }) := by
  have hx := exec_pdelay_resp (p := p) h.runs seq t2 t3
  rw [ht1] at hx
  dsimp only at hx
  rw [if_neg (not_not.2 hseq)] at hx
  generalize (5 * ((gptpTime p s.loader.cfg.ti.rxSer s.loader.cfg.ti.rxLat 0 s + 2 ^ 64 - t1) % 2 ^ 64) - 4 * (t3 - t2)) / 8 = ns at hx ⊢
  have hmem : (c, i.val) ∈ s.loader.cfg.ti.gptp.zipIdx := List.mem_zipIdx_iff_getElem?.2 h.cfg
  have hlt : i.val < (s.updTime (fun t => { t with pdelay := t.pdelay.set p none })).time.gptp.length := h.lt
  have hdelay := foldl_delayTo_delay (p := p) (ns := ns) _ hlt (.inl ⟨_, hmem, hport, rfl⟩)
  have hset := delaysSet_foldl p ns s.loader.cfg.ti.gptp.zipIdx (s.updTime (fun t => { t with pdelay := t.pdelay.set p none }))
  refine ⟨_, hx, hdelay, hset.good i, ?_, ?_⟩
  · rw [hset.rest]
    have hp : p.val < (s.time.pdelay.set p none).length := by rw [List.length_set]; omega
    exact (List.getD_eq_getElem _ _ hp).trans (List.getElem_set_self hp)
  · generalize List.foldl _ _ _ = t at hset
    have hpd : t.time.pdelay = s.time.pdelay.set p none := by rw [hset.rest]; rfl
    rw [hpd]
    exact hset.rest

theorem does_pdelay_resp_ignored {p : Fin 2} (hrun : s.fwRuns = true) {seq : BitVec 16}
    (hno : s.time.pdelay.getD p none = none ∨ (seq.toNat + 1) % 65536 ≠ s.time.pdelaySeq.getD p 0) (t2 t3 : Nat) :
    Does (.gptpPdelay p (.resp seq t2 t3)) s (fun t => t = s) := by
  have hx := exec_pdelay_resp (p := p) hrun seq t2 t3
  cases ht : s.time.pdelay.getD p none with
  | none =>
    rw [ht] at hx
    exact ⟨s, hx, rfl⟩
  | some t1 =>
    rw [ht] at hx hno
    dsimp only at hx
    rw [if_pos (hno.resolve_left (by simp))] at hx
    exact ⟨s, hx, rfl⟩

end

/-! ### The obligation -/

theorem gptp_without_firmware {s : State} (hoff : s.fwRuns = false) (i : Fin 2) (m : SyncIn) (x : PdelayIn) (gm : Nat) (k : Int) (able : Bool) :
    ∀ c ∈ [Instr.gptpSync i m, .gptpAnnounce i gm, .gptpLost i able, .gptpSignalling i k, .gptpPdelay i x], Does c s (fun t => t = s) := by
  have hsync : s.gptpSync i m = s := by
    unfold State.gptpSync
    split
    · rfl
    · rw [if_pos hoff]
  have hannounce : s.gptpAnnounce i gm = s := by
    unfold State.gptpAnnounce
    split
    · rfl
    · rw [if_pos (.inl hoff)]
  have hlost : s.gptpLost i able = s := by
    unfold State.gptpLost
    split
    · rfl
    · rw [if_pos (.inl hoff)]
  have hsignal : s.gptpSignal i k = s := if_pos (.inl hoff)
  have hpdelay : s.gptpPdelay i x = s := if_pos hoff
  simp only [List.forall_mem_cons]
  exact ⟨⟨_, rfl, hsync⟩, ⟨_, rfl, hannounce⟩, ⟨_, rfl, hlost⟩, ⟨_, rfl, hsignal⟩, ⟨_, rfl, hpdelay⟩, fun _ h => nomatch h⟩

/-- Settles O30: each message against the gPTP entry's count of good exchanges. -/
theorem gptp : Obligations.Gptp := by
  unfold Obligations.Gptp
  refine ⟨fun i p c s hcfg hrun hlen hplen _ => ?runs, fun i m x gm k able s hoff => gptp_without_firmware hoff i m x gm k able⟩
  have h : GptpUp i c s := ⟨hcfg, hrun, by have := i.isLt; omega⟩
  refine ⟨fun ago origin => ⟨does_oneStep_within h rfl, does_oneStep_outside h rfl⟩, fun ago => ?twoStep,
    fun origin t0 hwait => does_followUp h hwait, fun origin hwait => ?followUp, fun gm hgm => ?announce, ?same, fun able => does_gptpLost h,
    fun t0 => does_gptpLost_early h, fun k => ⟨does_gptpSignalling h, does_gptpSignalling_ignored⟩, does_pdelay_due hrun,
    fun who seq hplain => does_pdelay_req hrun hplain who seq, fun seq t2 t3 hport =>
      ⟨fun t1 ht1 hseq => does_pdelay_resp h hport hplen ht1 hseq t2 t3, fun hno => does_pdelay_resp_ignored hrun hno t2 t3⟩⟩
  case twoStep =>
    have hof := State.gptpOf_gptpHeard h.lt (some (gptpTime c.port s.loader.cfg.ti.rxSer s.loader.cfg.ti.rxLat ago s))
    have hx : exec (.gptpSync i (.twoStep ago)) s =
        .next (s.gptpHeard i (some (gptpTime c.port s.loader.cfg.ti.rxSer s.loader.cfg.ti.rxLat ago s))) := exec_gptpSync h _
    exact ⟨_, hx, congrArg GptpSt.wait hof, congrArg GptpSt.last hof, (congrArg GptpSt.good hof :), rfl⟩
  case followUp =>
    have hx := exec_gptpSync h (.followUp origin)
    dsimp only at hx
    rw [hwait] at hx
    exact ⟨s, hx, rfl⟩
  case announce =>
    have hx := exec_gptpAnnounce h gm
    rw [if_neg hgm] at hx
    exact ⟨_, hx, State.gptpLose_effect h.lt c⟩
  case same =>
    have hx := exec_gptpAnnounce h c.gm
    rw [if_pos rfl] at hx
    exact ⟨s, hx, rfl⟩

end Sys2Proof.Machine

/-! ## What lies beside lamp time, the schedule and the housekeeping count

Engines' jobs, housekeeping and the safety channels' moves leave the time unit alone but for the pulses of the trigger pins, and write none of
its registers. `Beside` is closed under every operation that they are made of; each lemma follows its operation's own steps. -/

namespace Sys2Proof.Machine

/-! ### The relation -/

/-- How much stays: model time; all of the time unit and its registers; memory too. -/
inductive Span where
  | now | time | mem

/-- The registers of the time unit, the count of rounds, and the status register of housekeeping stand apart. -/
def aside (off : Nat) : Bool := (decide (off < 0x40000) || decide (0x50000 ≤ off)) && off != rHK_ROUND_COUNT && off != rHK_HK_STATUS

/-- The registers that stay. -/
def stays (off : Nat) : Bool := decide (0x40000 ≤ off ∧ off < 0x50000) || off == rHK_ROUND_COUNT

structure Beside (p : Span) (s t : State) : Prop where
  now : t.time.now = s.time.now
  time : p ≠ .now → t.time = { s.time with trgEnd := t.time.trgEnd }
  regs : p ≠ .now → ∀ off, stays off = true → t.reg off = s.reg off
  late : p ≠ .now → t.isF fHK_HK_STATUS_ROUND_LATE = s.isF fHK_HK_STATUS_ROUND_LATE
  mem : p = .mem → t.mem = s.mem

@[simp] theorem aside_add {b : Nat} (k : Nat) (h : 0x50000 ≤ b) : aside (b + k) = true := by
  have hb : b ≤ b + k := Nat.le_add_right b k
  generalize b + k = o at hb
  simp only [aside, Bool.and_eq_true, Bool.or_eq_true, decide_eq_true_eq, bne_iff_ne]
  refine ⟨⟨.inr (h.trans hb), ?_⟩, ?_⟩ <;> rintro rfl <;> exact absurd (h.trans hb) (by decide)

/-- Registers of housekeeping that follow the broken sensors. -/
theorem aside_hk {o : Nat} (h : 0x30018 < o) (k : o < 0x40000) : aside o = true := by
  simp only [aside, Bool.and_eq_true, Bool.or_eq_true, decide_eq_true_eq, bne_iff_ne]
  refine ⟨⟨.inl k, ?_⟩, ?_⟩ <;> rintro rfl <;> exact absurd h (by decide)

theorem not_stays_of_aside {o : Nat} (h : aside o = true) : stays o = false := by
  simp only [aside, Bool.and_eq_true, Bool.or_eq_true, decide_eq_true_eq, bne_iff_ne] at h
  simp only [stays, Bool.or_eq_false_iff, decide_eq_false_iff_not, beq_eq_false_iff_ne]
  exact ⟨fun k => by omega, h.1.2⟩

theorem Beside.refl (p : Span) (s : State) : Beside p s s := ⟨rfl, fun _ => rfl, fun _ _ _ => rfl, fun _ => rfl, fun _ => rfl⟩

theorem Beside.of {p : Span} {s u t : State} (h : Beside p s u) (htime : t.time = u.time) (hregs : t.regs = u.regs)
    (hmem : p = .mem → t.mem = u.mem) : Beside p s t := by
  have hreg : ∀ off, t.reg off = u.reg off := fun off => by unfold State.reg; rw [hregs]
  refine ⟨?_, fun hp => ?_, fun hp off ho => (hreg off).trans (h.regs hp off ho), fun hp => ?_, fun hp => (hmem hp).trans (h.mem hp)⟩
  · rw [htime, h.now]
  · rw [htime, ← h.time hp]
  · rw [← h.late hp, State.isF, State.getF, State.regN, hreg]
    rfl

/-- An update of the other fields. -/
theorem Beside.upd {p : Span} {s u : State} {x_draws x_otp x_boot x_faultN x_loader x_hamper x_spool x_posted x_hlv x_mc x_ecc x_be x_progs
    x_comp x_press x_tg x_port x_lampTiming x_record x_bank0 x_bank1 x_health x_store x_hcfg x_agingPaused x_sel x_safe x_safeTile x_hk x_pwr
    x_host x_crc x_debugPort x_wakeDue x_rdata}
    (h : Beside p s u) :
    Beside p s { u with
      draws := x_draws, otp := x_otp, boot := x_boot, faultN := x_faultN, loader := x_loader, hamper := x_hamper, spool := x_spool,
      posted := x_posted, hlv := x_hlv, mc := x_mc, ecc := x_ecc, be := x_be, progs := x_progs, comp := x_comp, press := x_press, tg := x_tg,
      port := x_port, lampTiming := x_lampTiming, record := x_record, bank0 := x_bank0, bank1 := x_bank1, health := x_health, store := x_store,
      hcfg := x_hcfg, agingPaused := x_agingPaused, sel := x_sel, safe := x_safe, safeTile := x_safeTile, hk := x_hk, pwr := x_pwr,
      host := x_host, crc := x_crc, debugPort := x_debugPort, wakeDue := x_wakeDue, rdata := x_rdata } :=
  h.of rfl rfl fun _ => rfl

/-! ### Combining -/

theorem Beside.ite {p : Span} {s : State} {c : Prop} [Decidable c] {a b : State} (h : c → Beside p s a) (k : ¬c → Beside p s b) :
    Beside p s (if c then a else b) := by
  split
  · exact h ‹_›
  · exact k ‹_›

theorem Beside.foldl {p : Span} {s : State} {α : Type} {F : State → α → State} {l : List α} {u : State} (h : Beside p s u)
    (k : ∀ v x, Beside p s v → Beside p s (F v x)) : Beside p s (l.foldl F u) := by
  induction l generalizing u with
  | nil => exact h
  | cons x l ih => exact ih (k u x h)

/-- The same, where only the list's own elements come. -/
theorem Beside.foldl_mem {p : Span} {s : State} {α : Type} {F : State → α → State} {l : List α} {u : State} (h : Beside p s u)
    (k : ∀ v, ∀ x ∈ l, Beside p s v → Beside p s (F v x)) : Beside p s (l.foldl F u) := by
  induction l generalizing u with
  | nil => exact h
  | cons x l ih => exact ih (k u x (by simp) h) fun v y hy => k v y (List.mem_cons_of_mem _ hy)

/-- The state of a pair that a fold carries. -/
theorem Beside.foldl2 {p : Span} {s : State} {α β : Type} {F : β × State → α → β × State} {l : List α} {q : β × State} (h : Beside p s q.2)
    (k : ∀ v x, Beside p s v.2 → Beside p s (F v x).2) : Beside p s (l.foldl F q).2 := by
  induction l generalizing q with
  | nil => exact h
  | cons x l ih => exact ih (k q x h)

theorem Beside.foldl2_mem {p : Span} {s : State} {α β : Type} {F : β × State → α → β × State} {l : List α} {q : β × State}
    (h : Beside p s q.2) (k : ∀ v, ∀ x ∈ l, Beside p s v.2 → Beside p s (F v x).2) : Beside p s (l.foldl F q).2 := by
  induction l generalizing q with
  | nil => exact h
  | cons x l ih => exact ih (k q x (by simp) h) fun v y hy => k v y (List.mem_cons_of_mem _ hy)

theorem Beside.ite2 {p : Span} {s : State} {β : Type} {c : Prop} [Decidable c] {a b : β × State} (h : c → Beside p s a.2) (k : ¬c → Beside p s b.2) :
    Beside p s (if c then a else b).2 := by
  split
  · exact h ‹_›
  · exact k ‹_›

theorem Beside.mk2 {p : Span} {s t : State} {β : Type} {b : β} (h : Beside p s t) : Beside p s (b, t).2 := h

/-- The state of a pair that has been taken apart. -/
theorem Beside.pair {p : Span} {s : State} {β : Type} {q : β × State} {b : β} {t : State} (e : q = (b, t)) (h : Beside p s q.2) : Beside p s t := by
  rw [e] at h
  exact h

/-! ### Registers and memory -/

theorem beside_setReg {p : Span} {s u : State} {off : Nat} {v : Word} (h : Beside p s u) (k : aside off = true) :
    Beside p s (u.setReg off v) := by
  have hne : ∀ o, stays o = true → o ≠ off := fun o ho e => by
    rw [e, not_stays_of_aside k] at ho
    cases ho
  have hlate : rHK_HK_STATUS ≠ off := fun e => by
    rw [← e] at k
    exact absurd k (by decide)
  refine ⟨h.now, h.time, fun hp o ho => ?_, fun hp => ?_, h.mem⟩
  · rw [State.reg_setReg, if_neg (hne o ho), h.regs hp o ho]
  · rw [← h.late hp, State.isF, State.isF, State.getF_setReg_other _ _ hlate]

theorem beside_setRegN {p : Span} {s u : State} {off v : Nat} (h : Beside p s u) (k : aside off = true) :
    Beside p s (u.setRegN off v) := beside_setReg h k

theorem beside_setF {p : Span} {s u : State} {f : Fld} {n : Nat} (h : Beside p s u) (k : aside f.off = true) :
    Beside p s (u.setF f n) := beside_setReg h k

theorem beside_setB {p : Span} {s u : State} {f : Fld} {b : Bool} (h : Beside p s u) (k : aside f.off = true) :
    Beside p s (u.setB f b) := beside_setReg h k

theorem beside_bump {p : Span} {s u : State} {off : Nat} (h : Beside p s u) (k : aside off = true) :
    Beside p s (u.bump off) := beside_setReg h k

theorem beside_bumpF {p : Span} {s u : State} {f : Fld} {n : Nat} (h : Beside p s u) (k : aside f.off = true) :
    Beside p s (u.bumpF f n) := beside_setReg h k

theorem beside_raise {p : Span} {s u : State} {f : Fld} {c : Nat} (h : Beside p s u) (k : aside f.off = true)
    (l : aside c = true) : Beside p s (u.raise f c) := beside_setReg (beside_setReg h k) l

theorem beside_setPair {p : Span} {s u : State} {a b v : Nat} (h : Beside p s u) (k : aside a = true)
    (l : aside b = true) : Beside p s (u.setPair a b v) := beside_setReg (beside_setReg h k) l

/-- A bit of housekeeping's status other than ROUND_LATE. -/
theorem beside_setHk {p : Span} {s u : State} {lo n : Nat} (h : Beside p s u) (k : 0 < lo) (k' : lo < 32) :
    Beside p s (u.setF ⟨rHK_HK_STATUS, lo, 1⟩ n) := by
  refine ⟨h.now, h.time, fun hp o ho => ?_, fun hp => ?_, h.mem⟩
  · rw [State.reg_setF, if_neg (fun e : o = rHK_HK_STATUS => by rw [e] at ho; exact absurd ho (by decide)), h.regs hp o ho]
  · rw [← h.late hp, State.isF, State.isF, State.getF_setF_other (f := ⟨rHK_HK_STATUS, lo, 1⟩) (g := fHK_HK_STATUS_ROUND_LATE) _ _ k' (.inr (.inl k))]

theorem beside_setByte {p : Span} {s u : State} {a : Nat} {b : Byte} (hp : p ≠ .mem) (h : Beside p s u) : Beside p s (u.setByte a b) :=
  h.of rfl rfl fun e => absurd e hp

theorem beside_setBytes {p : Span} {s u : State} {a : Nat} {b : List Byte} (hp : p ≠ .mem) (h : Beside p s u) : Beside p s (u.setBytes a b) :=
  h.of rfl rfl fun e => absurd e hp

theorem beside_fresh {p : Span} {s u : State} (h : Beside p s u) : Beside p s u.fresh.2 := h.of rfl rfl fun _ => rfl

section

variable {p : Span} {s u : State}

/-! ### Events -/

theorem beside_wakeNote {x1} (h : Beside p s u) : Beside p s (State.wakeNote u x1) := by
  unfold State.wakeNote
  exact (Beside.ite (fun _ => h) (fun _ => (Beside.upd h)))

theorem beside_assertFault {x1} (h : Beside p s u) : Beside p s (State.assertFault u x1) := by
  unfold State.assertFault
  exact (Beside.upd h)

theorem beside_releaseFault {x1} (h : Beside p s u) : Beside p s (State.releaseFault u x1) := by
  unfold State.releaseFault
  exact (Beside.upd h)

theorem beside_spoolPut {x1 x2 x3 x4} (h : Beside p s u) : Beside p s (State.spoolPut u x1 x2 x3 x4) := by
  unfold State.spoolPut
  refine Beside.ite (fun _ => h) (fun _ => ?_)
  refine Beside.ite (fun _ => beside_bump h rfl) (fun _ => ?_)
  extract_lets -merge v1 v2 v3 v4 v5 v6
  have h7 : Beside p s v3 := Beside.upd h
  have h8 : Beside p s v5 := Beside.upd h7
  exact Beside.ite (fun _ => beside_bump h7 rfl) (fun _ => Beside.ite (fun _ => beside_setF (Beside.upd h8) rfl) (fun _ => h8))

theorem beside_spoolEv {x1 x2 x3} (h : Beside p s u) : Beside p s (State.spoolEv u x1 x2 x3) := by
  unfold State.spoolEv
  exact beside_spoolPut h

theorem beside_takeSeq (h : Beside p s u) : Beside p s (State.takeSeq u).2 := by
  unfold State.takeSeq
  extract_lets -merge v4
  exact (Beside.mk2 (beside_setRegN h rfl))

theorem beside_noteLoss {x1} (h : Beside p s u) : Beside p s (State.noteLoss u x1) := by
  unfold State.noteLoss
  extract_lets -merge v5 v6 v7 v8 v9
  have h18 : Beside p s v5 := beside_bump (beside_setF h rfl) rfl
  have h11 : Beside p s v7 := (Beside.upd h18)
  split
  · exact (Beside.upd h11)
  · split
    rename_i y27 h28
    have h29 := Beside.pair h28 (beside_takeSeq h11)
    extract_lets -merge v24 v25 v26
    have h30 : Beside p s v26 := (Beside.upd h29)
    exact (beside_spoolEv h30)

theorem beside_loseEv {x1} (h : Beside p s u) : Beside p s (State.loseEv u x1) := by
  unfold State.loseEv
  exact beside_noteLoss (beside_bump h (by simp +decide))

theorem beside_boxPut {x1} (h : Beside p s u) : Beside p s (State.boxPut u x1) := by
  unfold State.boxPut
  extract_lets -merge v1 v2 v3
  have h4 : Beside p s v2 := Beside.upd h
  exact Beside.ite (fun _ => beside_setF (Beside.upd h4) rfl) (fun _ => h4)

theorem beside_offer {x1} (h : Beside p s u) : Beside p s (State.offer u x1) := by
  unfold State.offer
  extract_lets -merge v1
  have h2 : Beside p s v1 := Beside.ite (fun _ => beside_wakeNote h) (fun _ => h)
  exact Beside.ite (fun _ => beside_boxPut h2) (fun _ => beside_loseEv h2)

theorem beside_post {x1 x2 x3} (h : Beside p s u) : Beside p s (State.post u x1 x2 x3) := by
  unfold State.post
  extract_lets -merge v8 v9
  exact (Beside.ite (fun _ => (beside_offer h)) (fun _ => (Beside.upd h)))

theorem beside_notePost {x1 x2} (h : Beside p s u) : Beside p s (State.notePost u x1 x2) := by
  unfold State.notePost
  exact (Beside.upd h)

theorem beside_postGap {x1 x2 x3 x4 x5} (h : Beside p s u) : Beside p s (State.postGap u x1 x2 x3 x4 x5) := by
  unfold State.postGap
  extract_lets -merge v9 v10
  exact (Beside.ite (fun _ => (beside_post (beside_notePost h))) (fun _ => h))

theorem beside_postOnce {x1 x2 x3 x4 x5} (h : Beside p s u) : Beside p s (State.postOnce u x1 x2 x3 x4 x5) := by
  unfold State.postOnce
  extract_lets -merge v9
  exact (Beside.ite (fun _ => h) (fun _ => (beside_post (beside_notePost h))))

theorem beside_busErr {x1} (h : Beside p s u) : Beside p s (State.busErr u x1) := by
  unfold State.busErr
  exact beside_post (beside_setRegN (beside_raise h rfl rfl) rfl)

/-! ### Protected memory -/

theorem beside_setSynd {x1 x2} (h : Beside p s u) : Beside p s (State.setSynd u x1 x2) := by
  unfold State.setSynd
  extract_lets -merge v6
  exact (Beside.upd h)

theorem beside_flipMem {x1 x2} (hp : p ≠ .mem) (h : Beside p s u) : Beside p s (State.flipMem u x1 x2) := by
  unfold State.flipMem
  extract_lets -merge v6
  exact beside_setByte hp h

theorem beside_eccRecent {x1 x2} (h : Beside p s u) : Beside p s (State.eccRecent u x1 x2) := by
  unfold State.eccRecent
  extract_lets -merge v11 v12 v13
  split
  · exact (Beside.ite (fun _ => (beside_post (beside_raise h rfl rfl))) (fun _ => (Beside.upd h)))
  · exact (Beside.upd h)

theorem beside_beCount {x1} (h : Beside p s u) : Beside p s (State.beCount u x1) := by
  unfold State.beCount
  split
  · exact beside_bump h (by simp +decide)
  · exact h

theorem beside_noteCe {x1 x2 x3} (h : Beside p s u) : Beside p s (State.noteCe u x1 x2 x3) := by
  unfold State.noteCe
  extract_lets -merge v1 v2 v3 v4 v5 v6 v7 v8 v9 v10 v11 v12
  have h13 : Beside p s v1 := beside_raise (beside_beCount h) rfl rfl
  have h14 : Beside p s v2 := beside_bumpF h13 (by simp +decide)
  have h15 : Beside p s v3 := beside_setPair h14 rfl rfl
  have h16 : Beside p s v4 := beside_setRegN h15 rfl
  have h17 : Beside p s v7 := Beside.upd h16
  have h18 : Beside p s v10 := beside_post (beside_notePost h17)
  have h19 : Beside p s v12 := Beside.ite (fun _ => Beside.upd h18) (fun _ => h17)
  exact beside_eccRecent h19

theorem beside_noteUe {x1 x2 x3} (h : Beside p s u) : Beside p s (State.noteUe u x1 x2 x3) := by
  unfold State.noteUe
  extract_lets -merge v8 v9 v10 v11
  have h19 : Beside p s v8 := beside_raise h rfl rfl
  have h33 : Beside p s v9 := beside_bumpF h19 (by simp +decide)
  have h13 : Beside p s v10 := beside_setPair h33 rfl rfl
  have h16 : Beside p s v11 := beside_setRegN h13 rfl
  exact beside_postOnce h16

theorem beside_checkWord {x1} (hp : p ≠ .mem) (h : Beside p s u) : Beside p s (State.checkWord u x1).2 := by
  unfold State.checkWord
  extract_lets -merge v8
  split
  · exact (Beside.mk2 h)
  · split
    · exact (Beside.mk2 h)
    · exact (Beside.mk2 (beside_noteCe (beside_setSynd h)))
    · exact (Beside.mk2 (beside_noteCe (beside_setSynd (Beside.ite (fun _ => h) (fun _ => (beside_flipMem hp h))))))
    · exact (Beside.mk2 (beside_noteUe h))

theorem beside_checkRange {x1 x2} (hp : p ≠ .mem) (h : Beside p s u) : Beside p s (State.checkRange u x1 x2).2 := by
  unfold State.checkRange
  refine (Beside.foldl2 (Beside.mk2 h) (fun _ _ _ => ?_))
  rename_i h17
  split
  rename_i y31
  split
  rename_i y44 h45
  have h46 := Beside.pair h45 (beside_checkWord hp h17)
  exact (Beside.mk2 h46)

theorem beside_readMem {x1 x2} (hp : p ≠ .mem) (h : Beside p s u) : Beside p s (State.readMem u x1 x2).2 := by
  unfold State.readMem
  split
  rename_i y32 h33
  have h34 := Beside.pair h33 (beside_checkRange hp h)
  exact (Beside.mk2 h34)

theorem beside_prepWord {x1 x2 x3} (hp : p ≠ .mem) (h : Beside p s u) : Beside p s (State.prepWord u x1 x2 x3) := by
  unfold State.prepWord
  refine (Beside.ite (fun _ => (beside_setSynd h)) (fun _ => ?_))
  split
  rename_i y25 h26
  have h27 := Beside.pair h26 (beside_checkWord hp h)
  exact (Beside.ite (fun _ => (beside_setSynd h27)) (fun _ => (beside_setSynd h27)))

theorem beside_injectInto {x1 x2} (hp : p ≠ .mem) (h : Beside p s u) : Beside p s (State.injectInto u x1 x2) := by
  unfold State.injectInto
  extract_lets -merge v6 v7 v8
  have h12 : Beside p s v7 := by
    unfold v7
    unfold v6
    extract_lets -merge v9
    have h11 : Beside p s v9 := (Beside.ite (fun _ => (beside_flipMem hp h)) (fun _ => h))
    exact (beside_setSynd h11)
  have h10 : Beside p s v8 := by
    refine (Beside.ite (fun _ => ?_) (fun _ => h12))
    unfold v6
    extract_lets -merge v19
    have h22 : Beside p s v19 := (Beside.ite (fun _ => (beside_flipMem hp h12)) (fun _ => h12))
    exact (beside_setSynd h22)
  exact (Beside.ite (fun _ => (beside_setF h10 rfl)) (fun _ => h))

theorem beside_writeMem {x1 x2} (hp : p ≠ .mem) (h : Beside p s u) : Beside p s (State.writeMem u x1 x2) := by
  unfold State.writeMem
  extract_lets -merge v12 v13
  have h17 : Beside p s v12 := by
    refine (Beside.foldl h (fun _ _ _ => ?_))
    rename_i y22 y23 h24
    exact (beside_prepWord hp h24)
  have h23 : Beside p s v13 := beside_setBytes hp h17
  split
  · exact (beside_injectInto hp h23)
  · exact h23

theorem beside_putDram {x1 x2} (hp : p ≠ .mem) (h : Beside p s u) : Beside p s (State.putDram u x1 x2) := by
  unfold State.putDram
  exact Beside.ite (fun _ => beside_writeMem hp h) (fun _ => beside_busErr h)

/-! ### Engines and their jobs -/

theorem beside_setEng {x1 x2} (h : Beside p s u) : Beside p s (State.setEng u x1 x2) := by
  unfold State.setEng
  exact (Beside.upd h)

theorem beside_updEng {x1 x2} (h : Beside p s u) : Beside p s (State.updEng u x1 x2) := by
  unfold State.updEng
  exact beside_setEng h

theorem beside_beCheck {x1 x2} (hp : p ≠ .mem) (h : Beside p s u) : Beside p s (State.beCheck u x1 x2).2 := by
  unfold State.beCheck
  extract_lets -merge v1
  split
  rename_i e5
  have h6 := Beside.pair e5 (beside_checkRange hp h)
  exact h6

theorem beside_setBeState {x1 x2} (h : Beside p s u) : Beside p s (State.setBeState u x1 x2) := by
  unfold State.setBeState
  exact beside_setF h (by simp +decide)

theorem beside_waitCount {x1} (h : Beside p s u) : Beside p s (State.waitCount u x1) := by
  unfold State.waitCount
  extract_lets -merge v1
  exact beside_updEng h

theorem beside_beSettle (h : Beside p s u) : Beside p s (State.beSettle u) := by
  unfold State.beSettle
  exact Beside.foldl h (fun y1 y2 h3 => Beside.ite (fun _ => beside_waitCount h3) (fun _ => h3))

theorem beside_putImages {x1 x2 x3} (hp : p ≠ .mem) (h : Beside p s u) : Beside p s (State.putImages u x1 x2 x3) := by
  unfold State.putImages
  exact beside_writeMem hp (beside_writeMem hp h)

theorem beside_putCopy {x1 x2 x3} (hp : p ≠ .mem) (h : Beside p s u) : Beside p s (State.putCopy u x1 x2 x3) := by
  unfold State.putCopy
  exact beside_putDram hp (beside_putDram hp h)

theorem beside_loadImages {x1 x2} (hp : p ≠ .mem) (h : Beside p s u) : Beside p s (State.loadImages u x1 x2) := by
  unfold State.loadImages
  exact beside_putImages hp (beside_putCopy hp h)

theorem beside_readCopy {x1 x2} (hp : p ≠ .mem) (h : Beside p s u) : Beside p s (State.readCopy u x1 x2).2 := by
  unfold State.readCopy
  split
  rename_i e5
  have h6 := Beside.pair e5 (beside_readMem hp h)
  split
  rename_i e11
  have h12 := Beside.pair e11 (beside_readMem hp h6)
  exact h12

theorem beside_reloadFrom {x1 x2 x3} (hp : p ≠ .mem) (h : Beside p s u) : Beside p s (State.reloadFrom u x1 x2 x3).2 := by
  unfold State.reloadFrom
  split
  · rename_i e3
    have h4 := Beside.pair e3 (beside_readCopy hp h)
    exact h4
  · rename_i e9
    have h10 := Beside.pair e9 (beside_readCopy hp h)
    exact Beside.mk2 (beside_putImages hp (Beside.ite (fun _ => h10) (fun _ => beside_putCopy hp h10)))

theorem beside_setBeRegs {x1 x2} (h : Beside p s u) : Beside p s (State.setBeRegs u x1 x2) := by
  unfold State.setBeRegs
  extract_lets -merge v6
  have h7 : Beside p s v6 := beside_setReg (beside_setRegN h (by simp +decide)) (by simp +decide)
  exact beside_setRegN (beside_setRegN h7 (by simp +decide)) (by simp +decide)

theorem beside_dropProg {x1} (h : Beside p s u) : Beside p s (State.dropProg u x1) := by
  unfold State.dropProg
  exact (Beside.upd h)

theorem beside_enterProgram {x1 x2} (h : Beside p s u) : Beside p s (State.enterProgram u x1 x2) := by
  unfold State.enterProgram
  extract_lets -merge v1
  have h2 : Beside p s v1 := beside_setRegN (beside_setBeRegs (beside_setEng (beside_dropProg h))) (by simp +decide)
  exact beside_setBeState h2

theorem beside_spareTake {x1 x2 x3} (h : Beside p s u) : Beside p s (State.spareTake u x1 x2 x3) := by
  unfold State.spareTake
  extract_lets -merge v1 v2 v3
  have h4 : Beside p s v1 := beside_enterProgram h
  have h5 : Beside p s v2 := beside_setReg (beside_setReg (beside_setReg h4 (by simp +decide)) (by simp +decide)) (by simp +decide)
  have h6 : Beside p s v3 := beside_setF (beside_setF h5 rfl) rfl
  exact beside_post h6

theorem beside_spareTakeover {x1} (hp : p ≠ .mem) (h : Beside p s u) : Beside p s (State.spareTakeover u x1) := by
  unfold State.spareTakeover
  split
  · exact h
  · extract_lets -merge v6 v7
    split
    rename_i e11
    have h12 := Beside.pair e11 (Beside.ite2 (fun _ => beside_reloadFrom hp h) (fun _ => h))
    exact Beside.ite (fun _ => beside_spareTake h12) (fun _ => beside_post h12)

theorem beside_enterFaulted {x1 x2} (hp : p ≠ .mem) (h : Beside p s u) : Beside p s (State.enterFaulted u x1 x2) := by
  unfold State.enterFaulted
  extract_lets -merge v6 v7 v8 v9 v10 v11
  have h22 : Beside p s v8 := beside_updEng h
  have h25 : Beside p s v9 := beside_setF (beside_setF (beside_setF h22 (by simp +decide)) (by simp +decide)) (by simp +decide)
  have h28 : Beside p s v10 := beside_raise (beside_setBeState h25) (by simp +decide) (by simp +decide)
  have h15 : Beside p s v11 := beside_post h28
  exact (Beside.ite (fun _ => (beside_spareTakeover hp h15)) (fun _ => h15))

theorem beside_engineTrap {x1 x2} (hp : p ≠ .mem) (h : Beside p s u) : Beside p s (State.engineTrap u x1 x2) := by
  unfold State.engineTrap
  extract_lets -merge v13 v14 v15
  have h20 : Beside p s v14 := beside_updEng h
  have h23 : Beside p s v15 := beside_updEng h20
  exact Beside.ite (fun _ => h) fun _ => Beside.ite (fun _ => beside_enterFaulted hp h20)
    fun _ => beside_setF (beside_setF (beside_setBeState h23) (by simp +decide)) (by simp +decide)

theorem beside_jobArgOf {x1 x2} (h : Beside p s u) : Beside p s (State.jobArgOf u x1 x2).2 := by
  unfold State.jobArgOf
  split
  · exact h
  · exact h
  · exact h
  · exact h
  · exact beside_fresh h

theorem beside_takeUpdate {x1} (hp : p ≠ .mem) (h : Beside p s u) : Beside p s (State.takeUpdate u x1) := by
  unfold State.takeUpdate
  extract_lets -merge v6
  split
  · exact h
  · extract_lets -merge v23 v24 v25 v26
    have h32 : Beside p s v24 := beside_setEng (beside_dropProg h)
    have h16 : Beside p s v25 := beside_setRegN (beside_loadImages hp h32) (by simp +decide)
    have h21 : Beside p s v26 := beside_setReg h16 (by simp +decide)
    exact (beside_post h21)

theorem beside_jobTake {x1} (hp : p ≠ .mem) (h : Beside p s u) : Beside p s (State.jobTake u x1).2 := by
  unfold State.jobTake
  split
  · exact h
  · rename_i p _
    split
    · exact h
    · extract_lets -merge m d r k
      split
      rename_i e
      refine Beside.mk2 (beside_updEng (Beside.pair e ?_))
      refine Beside.foldl2 (q := (false, u)) h (fun a m k => ?_)
      exact beside_beCheck hp k

theorem beside_startJob {x1 x2 x3} (hp : p ≠ .mem) (h : Beside p s u) : Beside p s (State.startJob u x1 x2 x3) := by
  unfold State.startJob
  extract_lets -merge v1
  have h2 : Beside p s v1 := beside_takeUpdate hp h
  split
  rename_i e6
  have h7 := Beside.pair e6 (beside_jobArgOf h2)
  extract_lets -merge v8 v9
  have h10 : Beside p s v9 := beside_updEng h7
  split
  rename_i e14
  have h15 := Beside.pair e14 (beside_jobTake hp h10)
  extract_lets -merge v16
  have h17 : Beside p s v16 := beside_setF (beside_setF (beside_setBeState h15) (by simp +decide)) (by simp +decide)
  exact Beside.ite (fun _ => beside_engineTrap hp h17) (fun _ => h17)

theorem beside_trigger {x1 x2} (hp : p ≠ .mem) (h : Beside p s u) : Beside p s (State.trigger u x1 x2) := by
  unfold State.trigger
  extract_lets -merge v12 v13
  have h19 : Beside p s v13 := beside_setF (beside_updEng h) (by simp +decide)
  refine Beside.ite (fun _ => beside_startJob hp h) fun _ => Beside.ite (fun _ => ?_) fun _ => h
  exact Beside.ite (fun _ => beside_postGap (beside_raise h (by simp +decide) (by simp +decide))) fun _ => Beside.ite (fun _ => beside_wakeNote h19) fun _ => h19

/-! ### Ports and records -/

theorem beside_setPort {x1 x2} (h : Beside p s u) : Beside p s (State.setPort u x1 x2) := by
  unfold State.setPort
  exact (Beside.upd h)

theorem beside_updPort {x1 x2} (h : Beside p s u) : Beside p s (State.updPort u x1 x2) := by
  unfold State.updPort
  exact beside_setPort h

theorem beside_setHl {x1 x2} (h : Beside p s u) : Beside p s (State.setHl u x1 x2) := by
  unfold State.setHl
  exact (Beside.upd h)

theorem beside_updHl {x1 x2} (h : Beside p s u) : Beside p s (State.updHl u x1 x2) := by
  unfold State.updHl
  exact beside_setHl h

theorem beside_recTrigger {x1} (h : Beside p s u) : Beside p s (State.recTrigger u x1) := by
  unfold State.recTrigger
  extract_lets -merge v5 v6 v7 v8 v9
  have h15 : Beside p s v6 := beside_setRegN (beside_setRegN h rfl) rfl
  have h17 : Beside p s v7 := beside_setPair h15 rfl rfl
  have h19 : Beside p s v8 := beside_setF (beside_setF h17 rfl) rfl
  exact (Beside.ite (fun _ => (beside_bump h rfl)) (fun _ => (Beside.ite (fun _ => (Beside.upd h19)) (fun _ => h))))

theorem beside_emit {x1 x2} (h : Beside p s u) : Beside p s (State.emit u x1 x2) := by
  unfold State.emit
  exact beside_updPort h

theorem beside_send {x1 x2 x3} (h : Beside p s u) : Beside p s (State.send u x1 x2 x3) := by
  unfold State.send
  extract_lets -merge v1
  exact beside_updPort (beside_emit h)

theorem beside_zEvOnce {x1 x2 x3} (h : Beside p s u) : Beside p s (State.zEvOnce u x1 x2 x3) := by
  unfold State.zEvOnce
  exact beside_postOnce h

theorem beside_sendFallback {x1 x2} (h : Beside p s u) : Beside p s (State.sendFallback u x1 x2) := by
  unfold State.sendFallback
  extract_lets -merge v11 v12
  have h16 : Beside p s v12 := beside_updPort h
  exact beside_send h16

theorem beside_tgEv {x1 x2 x3} (h : Beside p s u) : Beside p s (State.tgEv u x1 x2 x3) := by
  unfold State.tgEv
  exact beside_postOnce h

theorem beside_timingRefused {x1 x2} (h : Beside p s u) : Beside p s (State.timingRefused u x1 x2) := by
  unfold State.timingRefused
  exact beside_tgEv h

theorem beside_timingCommit {x1} (h : Beside p s u) : Beside p s (State.timingCommit u x1) := by
  unfold State.timingCommit
  extract_lets -merge v8 v9 v10 v11 v12 v13 v14
  have h22 : Beside p s v11 := beside_setF (beside_setF h rfl) rfl
  have h24 : Beside p s v13 := (Beside.upd h)
  have h20 : Beside p s v14 := beside_setF (beside_setF h24 rfl) rfl
  refine (Beside.ite (fun _ => h) (fun _ => (Beside.ite (fun _ => (beside_timingRefused h22)) (fun _ => (Beside.foldl h20 (fun _ _ _ => ?_))))))
  rename_i y22 y23 h25
  exact beside_setF h25 (by simp +decide)

/-! ### Safety -/

theorem beside_spoolTrigger {x1} (h : Beside p s u) : Beside p s (State.spoolTrigger u x1) := by
  unfold State.spoolTrigger
  extract_lets -merge v5 v6 v7 v8 v9
  have h15 : Beside p s v5 := beside_setRegN h rfl
  have h17 : Beside p s v6 := beside_setRegN h15 rfl
  have h19 : Beside p s v7 := beside_spoolPut h17
  have h21 : Beside p s v9 := (Beside.upd h19)
  exact (Beside.ite (fun _ => h) (fun _ => (beside_setF (beside_setF h21 rfl) rfl)))

theorem beside_freezeAll {x1} (h : Beside p s u) : Beside p s (State.freezeAll u x1) := by
  unfold State.freezeAll
  exact beside_spoolTrigger (beside_recTrigger h)

theorem beside_setSafeT {x1 x2} (h : Beside p s u) : Beside p s (State.setSafeT u x1 x2) := by
  unfold State.setSafeT
  exact (Beside.upd h)

theorem beside_updSafeT {x1 x2} (h : Beside p s u) : Beside p s (State.updSafeT u x1 x2) := by
  unfold State.updSafeT
  exact beside_setSafeT h

theorem beside_updSafe {x1} (h : Beside p s u) : Beside p s (State.updSafe u x1) := by
  unfold State.updSafe
  exact (Beside.upd h)

theorem beside_updBoot {x1} (h : Beside p s u) : Beside p s (State.updBoot u x1) := by
  unfold State.updBoot
  exact (Beside.upd h)

theorem beside_updHk {x1} (h : Beside p s u) : Beside p s (State.updHk u x1) := by
  unfold State.updHk
  exact Beside.upd h

theorem beside_updPwr {x1} (h : Beside p s u) : Beside p s (State.updPwr u x1) := by
  unfold State.updPwr
  exact Beside.upd h

theorem beside_setSs {x1 x2} (h : Beside p s u) : Beside p s (State.setSs u x1 x2) := by
  unfold State.setSs
  exact beside_setF h rfl

theorem beside_setHs {x1 x2} (h : Beside p s u) : Beside p s (State.setHs u x1 x2) := by
  unfold State.setHs
  exact beside_updSafeT h

theorem beside_setLs {x1 x2} (h : Beside p s u) : Beside p s (State.setLs u x1 x2) := by
  unfold State.setLs
  exact beside_updSafeT h

theorem beside_setTileBit {x1 x2 x3} (h : Beside p s u) (k : aside x1.off = true) :
    Beside p s (State.setTileBit u x1 x2 x3) := by
  unfold State.setTileBit
  exact beside_setB h k

theorem beside_setFb {x1 x2} (h : Beside p s u) : Beside p s (State.setFb u x1 x2) := by
  unfold State.setFb
  extract_lets -merge v6 v7
  have h12 : Beside p s v6 := beside_updPort h
  have h14 : Beside p s v7 := beside_setTileBit h12 rfl
  exact (Beside.ite (fun _ => (beside_setF h14 rfl)) (fun _ => h14))

theorem beside_setFull {x1 x2} (h : Beside p s u) : Beside p s (State.setFull u x1 x2) := by
  unfold State.setFull
  extract_lets -merge v8
  have h10 : Beside p s v8 := beside_setTileBit h rfl
  exact (Beside.ite (fun _ => (beside_setF h10 rfl)) (fun _ => h10))

theorem beside_setHandover {x1 x2} (h : Beside p s u) : Beside p s (State.setHandover u x1 x2) := by
  unfold State.setHandover
  exact beside_updBoot h

theorem beside_safeFallback {x1} (h : Beside p s u) : Beside p s (State.safeFallback u x1) := by
  unfold State.safeFallback
  exact (Beside.ite (fun _ => (beside_updSafeT (beside_sendFallback h))) (fun _ => h))

theorem beside_dropDirect {x1} (h : Beside p s u) : Beside p s (State.dropDirect u x1) := by
  unfold State.dropDirect
  exact beside_updPwr h

theorem beside_handoverStart {x1} (h : Beside p s u) : Beside p s (State.handoverStart u x1) := by
  unfold State.handoverStart
  exact (Beside.ite (fun _ => (beside_setHandover (beside_sendFallback h))) (fun _ => h))

theorem beside_ssFaultN (h : Beside p s u) : Beside p s (State.ssFaultN u) := by
  unfold State.ssFaultN
  exact (Beside.ite (fun _ => (beside_assertFault h)) (fun _ => (beside_releaseFault h)))

theorem beside_goDark {x1} (h : Beside p s u) : Beside p s (State.goDark u x1) := by
  unfold State.goDark
  extract_lets -merge v5 v6
  have h11 : Beside p s v5 := beside_setFb (beside_setLs (beside_setHs h))
  have h13 : Beside p s v6 := beside_setHandover (beside_setFull h11)
  exact beside_updSafeT h13

theorem beside_goFallback {x1} (h : Beside p s u) : Beside p s (State.goFallback u x1) := by
  unfold State.goFallback
  extract_lets -merge v7
  have h9 : Beside p s v7 := (Beside.ite (fun _ => (beside_setFb h)) (fun _ => h))
  exact beside_safeFallback (beside_setHandover (beside_setFull h9))

theorem beside_startRetest {x1} (h : Beside p s u) : Beside p s (State.startRetest u x1) := by
  unfold State.startRetest
  extract_lets -merge v1
  have h2 : Beside p s v1 := beside_dropDirect (beside_updSafeT h)
  exact beside_updBoot h2

theorem beside_ssPost {x1 x2 x3} (h : Beside p s u) : Beside p s (State.ssPost u x1 x2 x3) := by
  unfold State.ssPost
  extract_lets -merge v1
  exact Beside.ite (fun _ => h) (fun _ => beside_post (Beside.foldl h (fun y2 y3 h4 => beside_notePost h4)))

theorem beside_ssEvents {x1} (h : Beside p s u) : Beside p s (State.ssEvents u x1) := by
  unfold State.ssEvents
  extract_lets -merge v1 v2
  have h7 : Beside p s v1 := by
    unfold v1
    refine Beside.foldl h (fun y3 y4 h5 => ?_)
    extract_lets -merge v6
    exact Beside.ite (fun _ => h5) (fun _ => beside_freezeAll (beside_ssPost (beside_wakeNote h5)))
  have h11 : Beside p s v2 := Beside.foldl h7 (fun y8 y9 h10 => beside_ssPost h10)
  exact beside_ssFaultN h11

theorem beside_ssMove {x1 x2 x3} (h : Beside p s u) : Beside p s (State.ssMove u x1 x2 x3) := by
  unfold State.ssMove
  extract_lets -merge v10
  have h21 : Beside p s v10 := beside_setSs h
  refine Beside.ite (fun _ => Beside.ite (fun _ => beside_goDark h21) fun _ => h21) fun _ => ?_
  exact Beside.ite (fun _ => Beside.ite (fun _ => beside_goFallback h21) fun _ => h21)
    fun _ => Beside.ite (fun _ => beside_handoverStart h21) fun _ => h21

theorem beside_updateSS {x1} (h : Beside p s u) : Beside p s (State.updateSS u x1) := by
  unfold State.updateSS
  extract_lets -merge v1 v2 v3 v4 v5 v6 v7
  have h8 : Beside p s v1 := Beside.ite (fun _ => h) (fun _ => beside_updSafe h)
  have h12 : Beside p s v5 := Beside.foldl h8 (fun y9 y10 h11 => Beside.ite (fun _ => h11) (fun _ => beside_startRetest h11))
  have h16 : Beside p s v6 := Beside.foldl h12 (fun y13 y14 h15 => beside_updSafeT h15)
  have h20 : Beside p s v7 := Beside.foldl h16 (fun y17 y18 h19 => beside_ssMove h19)
  exact beside_ssEvents h20

/-! ### The non-volatile store -/

theorem beside_nvDeferTime {x1} (h : Beside p s u) : Beside p s (State.nvDeferTime u x1) := by
  unfold State.nvDeferTime
  split
  · exact h
  · extract_lets -merge v20
    exact (Beside.ite (fun _ => (beside_setRegN h (by simp +decide))) (fun _ => h))

theorem beside_nvDefer {x1} (h : Beside p s u) : Beside p s (State.nvDefer u x1) := by
  unfold State.nvDefer
  extract_lets -merge v5 v6 v7
  have h11 : Beside p s v5 := beside_setF (beside_setF h (by simp +decide)) (by simp +decide)
  have h18 : Beside p s v6 := beside_updPort (beside_setF h11 (by simp +decide))
  split
  · exact (beside_nvDeferTime h18)
  · exact (beside_zEvOnce (beside_updPort h18))

theorem beside_nvTry {x1} (h : Beside p s u) : Beside p s (State.nvTry u x1) := by
  unfold State.nvTry
  refine Beside.ite (fun _ => beside_setF h (by simp +decide)) (fun _ => ?_)
  refine Beside.ite (fun _ => beside_nvDefer h) (fun _ => ?_)
  extract_lets -merge v1 v2 v3 v4 v5 v6
  have h7 : Beside p s v1 := beside_updPort (beside_nvDeferTime h)
  have h8 : Beside p s v4 := beside_updHl h7
  have h9 : Beside p s v5 := beside_updPort h8
  have h10 : Beside p s v6 := beside_setF (beside_setF (beside_setF h9 (by simp +decide)) (by simp +decide)) (by simp +decide)
  exact beside_send h10

theorem beside_nvAgain {x1} (h : Beside p s u) : Beside p s (State.nvAgain u x1) := by
  unfold State.nvAgain
  exact (Beside.ite (fun _ => (beside_nvTry h)) (fun _ => h))

/-! ### Housekeeping -/

theorem beside_hkEv {x1 x2 x3} (h : Beside p s u) : Beside p s (State.hkEv u x1 x2 x3) := by
  unfold State.hkEv
  exact beside_postOnce h

theorem beside_sensorIgnore {x1 x2} (h : Beside p s u) : Beside p s (State.sensorIgnore u x1 x2) := by
  unfold State.sensorIgnore
  extract_lets -merge v6 v7
  have h11 : Beside p s v6 := beside_setF h rfl
  have h9 : Beside p s v7 := beside_bump (beside_setHk h11 (by decide) (by decide)) rfl
  exact beside_hkEv h9

theorem beside_convertDie {x1} (h : Beside p s u) : Beside p s (State.convertDie u x1).2 := by
  unfold State.convertDie
  extract_lets -merge v6
  have h8 : Beside p s v6.2 := by
    refine (Beside.foldl2 (Beside.mk2 h) (fun _ _ _ => ?_))
    rename_i h15
    extract_lets -merge v16
    exact (Beside.ite2 (fun _ => h15) (fun _ => (Beside.ite2 (fun _ => (Beside.mk2 (beside_sensorIgnore h15))) (fun _ => (Beside.mk2 h15)))))
  clear_value v6
  split
  · exact (Beside.mk2 h8)
  · extract_lets -merge v19
    exact (Beside.mk2 (beside_setRegN h8 rfl))

theorem beside_convertSupply {x1} (h : Beside p s u) : Beside p s (State.convertSupply u x1) := by
  unfold State.convertSupply
  refine Beside.foldl_mem h fun v q hq hv => ?_
  have hk := List.snd_lt_of_mem_zipIdx hq
  have hlen := List.length_take_le 16 x1
  have hreg : rHK_SUPPLY q.2 = 0x30080 + 4 * q.2 := rfl
  exact beside_setRegN hv (aside_hk (by rw [hreg]; omega) (by rw [hreg]; omega))

theorem beside_supplyRound {x1} (h : Beside p s u) : Beside p s (State.supplyRound u x1) := by
  unfold State.supplyRound
  refine (Beside.foldl h (fun _ _ _ => ?_))
  rename_i y8 y9 h10
  extract_lets -merge v8 v9
  have h12 : Beside p s v9 := beside_updHk h10
  exact (Beside.ite (fun _ => (beside_post h12)) (fun _ => h12))

theorem beside_tileTemps {x1} (h : Beside p s u) : Beside p s (State.tileTemps u x1).2 := by
  unfold State.tileTemps
  split
  · refine (Beside.ite2 (fun _ => (Beside.mk2 h)) (fun _ => (Beside.foldl2 (Beside.mk2 h) (fun _ _ _ => ?_))))
    rename_i h34
    extract_lets -merge v35
    exact (Beside.ite2 (fun _ => h34) (fun _ => (Beside.ite2 (fun _ => (Beside.mk2 (beside_sensorIgnore h34))) (fun _ => (Beside.mk2 h34)))))
  · exact (Beside.mk2 h)

theorem beside_setTileBlocks {x1 x2} (h : Beside p s u) : Beside p s (State.setTileBlocks u x1 x2) := by
  unfold State.setTileBlocks
  exact beside_updHk h

theorem beside_loadScale {x1} (h : Beside p s u) : Beside p s (State.loadScale u x1).2 := by
  unfold State.loadScale
  extract_lets -merge v8
  refine (Beside.ite2 (fun _ => ?_) (fun _ => (Beside.mk2 h)))
  split
  rename_i y23 h24
  have h28 := Beside.pair h24 (beside_fresh h)
  exact (Beside.mk2 h28)

theorem beside_takePower (h : Beside p s u) : Beside p s (State.takePower u) := by
  unfold State.takePower
  extract_lets -merge v15 v16 v17
  have h29 : Beside p s v15 := beside_updHk h
  have h8 : Beside p s v17 := beside_setHk (beside_updHk h29) (by decide) (by decide)
  exact Beside.ite (fun _ => beside_setHk (beside_updHk h29) (by decide) (by decide))
    (fun _ => Beside.ite (fun _ => beside_hkEv h8) (fun _ => h29))

theorem beside_modelTile {x1 x2 x3 x4 x5} (h : Beside p s u) : Beside p s (State.modelTile u x1 x2 x3 x4 x5) := by
  unfold State.modelTile
  extract_lets -merge v9
  refine (Beside.ite (fun _ => (beside_updHk (beside_setTileBlocks h))) (fun _ => ?_))
  split
  rename_i y34 h35
  have h36 := Beside.pair h35 (Beside.ite2 (fun _ => Beside.mk2 h) fun _ =>
    Beside.ite2 (fun _ => beside_loadScale h) fun _ => Beside.mk2 h)
  exact beside_updHk (beside_setTileBlocks h36)

theorem beside_judgeSensor {x1 x2 x3} (h : Beside p s u) : Beside p s (State.judgeSensor u x1 x2 x3).2 := by
  unfold State.judgeSensor
  extract_lets -merge v8 v9 v10 v11 v12 v13 v14 v15 v16
  have h26 : Beside p s v14 := beside_updHk h
  exact (Beside.ite2 (fun _ => (Beside.mk2 h26)) (fun _ => (Beside.mk2 (beside_sensorIgnore h26))))

theorem beside_anchor {x1 x2} (h : Beside p s u) : Beside p s (State.anchor u x1 x2).2 := by
  unfold State.anchor
  extract_lets -merge v11
  have h14 : Beside p s v11.2 := by
    refine (Beside.foldl2 (Beside.mk2 h) (fun _ _ _ => ?_))
    rename_i h34
    split
    rename_i y48 h49
    have h50 := Beside.pair h49 (beside_judgeSensor h34)
    exact (Beside.mk2 h50)
  clear_value v11
  split
  · exact (Beside.mk2 h14)
  · extract_lets -merge v18
    exact (Beside.mk2 (beside_updHk h14))

theorem beside_blockRound {n : Nat} {margin : Rat} (hn : n < 4) (h : Beside p s u) :
    Beside p s (State.blockRound u n margin).2 := by
  unfold State.blockRound
  extract_lets -merge v6 v7 v8 v9 v10
  refine Beside.mk2 (Beside.foldl_mem h fun v q hq hv => ?_)
  have hlen : v9.length = 256 := by simp [v9, State.tileBlocks, tabRange]
  have hb := List.snd_lt_of_mem_zipIdx hq
  have hderate : rHK_DERATE (256 * n + q.2) = 0x31000 + 4 * (256 * n + q.2) := rfl
  have hblk : rHK_BLKTEMP (256 * n + q.2) = 0x32000 + 4 * (256 * n + q.2) := rfl
  extract_lets -merge b d c v34 v35
  have h47 : Beside p s v35 := beside_setRegN (beside_updHk hv) (aside_hk (by rw [hderate]; omega) (by rw [hderate]; omega))
  exact beside_setRegN h47 (aside_hk (by rw [hblk]; omega) (by rw [hblk]; omega))

theorem beside_tileCut {x1 x2} (h : Beside p s u) : Beside p s (State.tileCut u x1 x2) := by
  unfold State.tileCut
  extract_lets -merge v14 v15 v16 v17 v18
  have h24 : Beside p s v17 := beside_setB h rfl
  have h37 : Beside p s v18 := (Beside.ite (fun _ => (beside_hkEv h24)) (fun _ => (beside_hkEv h24)))
  exact (Beside.ite (fun _ => h) (fun _ => (beside_updateSS h37)))

theorem beside_tileRound {n : Nat} {margin : Rat} (hn : n < 4) (h : Beside p s u) :
    Beside p s (State.tileRound u n margin) := by
  have hr := beside_blockRound (margin := margin) hn h
  unfold State.tileRound
  generalize State.blockRound u n margin = r at hr ⊢
  obtain ⟨test, v⟩ := r
  replace hr : Beside p s v := hr
  dsimp only
  generalize (blocksCrossed n u.hk.derate).isEmpty = was
  generalize blocksCrossed n v.hk.derate = now
  have hcap : aside (rHK_TILE_CAP n) = true := aside_hk (Nat.le_trans (by decide) (Nat.le_add_right _ _)) (by dsimp only [rHK_TILE_CAP]; omega)
  have hsub : aside (rHK_TILE_SUB n) = true := aside_hk (Nat.le_trans (by decide) (Nat.le_add_right _ _)) (by dsimp only [rHK_TILE_SUB]; omega)
  have hbias : aside (rHK_TILE_BIAS n) = true := aside_hk (Nat.le_trans (by decide) (Nat.le_add_right _ _)) (by dsimp only [rHK_TILE_BIAS]; omega)
  refine beside_updHl (beside_setRegN (beside_setRegN (beside_setRegN (beside_tileCut ?_) hcap) hsub) hbias)
  cases was <;> cases now
  · exact beside_hkEv hr
  · exact hr
  · exact hr
  · exact beside_hkEv hr

theorem beside_dieRound {x1} (h : Beside p s u) : Beside p s (State.dieRound u x1) := by
  unfold State.dieRound
  split
  · exact h
  · extract_lets -merge v4 v5 v6 v7 v8
    have h9 : Beside p s v6 := Beside.ite (fun _ => h) (fun _ => beside_beSettle h)
    have h10 : Beside p s v7 := beside_updHk h9
    have h11 : Beside p s v8 := beside_setHk h10 (by decide) (by decide)
    split
    extract_lets -merge v16
    have h17 : Beside p s v16 := Beside.ite (fun _ => beside_hkEv h11) (fun _ => h11)
    exact Beside.ite (fun _ => beside_hkEv (beside_assertFault h17)) (fun _ => Beside.ite (fun _ => beside_releaseFault h17) (fun _ => h17))

theorem beside_hlvStamp (h : Beside p s u) : Beside p s (State.hlvStamp u) := by
  unfold State.hlvStamp
  extract_lets -merge v7 v8
  exact beside_setRegN (Beside.upd h) rfl

/-- A round before it is counted. -/
def State.hkRounded (s : State) (r : SensorIn) : State :=
  let first := s.hk.prev.isNone
  let dt : Rat := ((s.time.frc - s.hk.prev.getD s.time.frc : Nat) : Rat) / 800000000
  let (die, s) := s.convertDie r.die
  let s := (s.convertSupply r.supply).supplyRound r.supply
  let fresh := s.hk.newTable
  let s := s.takePower
  let q := (List.range s.tiles).foldl (fun (q : Bool × State) n =>
    let (m, s) := q.2.tileTemps n
    let (use, s) := (s.modelTile first fresh dt n m).anchor n m
    let margin : Rat := (if use then 0 else 5) + (if 10 ≤ s.hk.psum then 5 else 0)
    (q.1 || !use, s.tileRound n margin)) (false, s)
  let s := (q.2.setB fHK_HK_STATUS_OPEN_LOOP q.1).dieRound die
  let s := s.setRegN rHK_DERATED_BLOCKS
    ((List.range 1024).filter (fun b => decide (s.regN (rHK_DERATE b) % 65536 < 0x8000))).length
  let s := (s.updHk (fun h => { h with prev := some s.time.frc })).hlvStamp
  (List.range s.tiles).foldl (fun s n => s.nvAgain n) s

theorem State.hkRoundOp_eq {s : State} (h : s.hkOn = true) (r : SensorIn) : s.hkRoundOp r =
    (s.hkRounded r).setRegN rHK_ROUND_COUNT (((s.hkRounded r).regN rHK_ROUND_COUNT + 1) % 2 ^ 32) := by
  rw [State.hkRoundOp, if_neg (by rw [h]; decide)]
  rfl

theorem State.tiles_le (s : State) : s.tiles ≤ 4 := by
  unfold State.tiles
  cases s.loader.cfg.st.arr <;> decide

theorem beside_hkRounded {r : SensorIn} (h : Beside p s u) : Beside p s (State.hkRounded u r) := by
  unfold State.hkRounded
  extract_lets -merge v5 v6
  split
  rename_i y19 h20
  have h21 := Beside.pair h20 (beside_convertDie h)
  extract_lets -merge v24 v25 v26 v27 v28 v29 v30
  have h27 : Beside p s v26 := beside_takePower (beside_supplyRound (beside_convertSupply h21))
  have h29 : Beside p s v27.2 := by
    refine Beside.foldl2_mem (Beside.mk2 h27) (fun v n hn hv => ?_)
    have htile : n < 4 := (List.mem_range.1 hn).trans_le v26.tiles_le
    split
    rename_i y69 h70
    have h71 := Beside.pair h70 (beside_tileTemps hv)
    split
    rename_i y88 h89
    have h90 := Beside.pair h89 (beside_anchor (beside_modelTile h71))
    extract_lets -merge v92
    exact Beside.mk2 (beside_tileRound htile h90)
  clear_value v27
  have h77 : Beside p s v28 := beside_dieRound (beside_setHk h29 (by decide) (by decide))
  have h79 : Beside p s v29 := beside_setRegN h77 rfl
  have h81 : Beside p s v30 := beside_hlvStamp (beside_updHk h79)
  exact Beside.foldl h81 fun _ _ hv => beside_nvAgain hv

/-! ### A sweep -/

theorem beside_sweepStart {x1} (h : Beside p s u) : Beside p s (State.sweepStart u x1) := by
  unfold State.sweepStart
  refine (Beside.foldl h (fun _ _ _ => ?_))
  rename_i y10 y11 h12
  exact (Beside.ite (fun _ => (beside_updHl h12)) (fun _ => h12))

end

/-! ### What users take from it -/

/-- The time unit but for the pulses, and its registers. -/
structure TimeKept (s t : State) : Prop where
  time : t.time = { s.time with trgEnd := t.time.trgEnd }
  regs : ∀ off, 0x40000 ≤ off → off < 0x50000 → t.reg off = s.reg off

theorem TimeKept.refl (s : State) : TimeKept s s := ⟨rfl, fun _ _ _ => rfl⟩

theorem TimeKept.trans {s t u : State} (h : TimeKept s t) (k : TimeKept t u) : TimeKept s u := by
  refine ⟨?_, fun off h1 h2 => (k.regs off h1 h2).trans (h.regs off h1 h2)⟩
  rw [k.time, h.time]

theorem Beside.timeKept {p : Span} {s t : State} (h : Beside p s t) (hp : p ≠ .now) : TimeKept s t :=
  ⟨h.time hp, fun off h1 h2 => h.regs hp off (by simp [stays, h1, h2])⟩

theorem TimeKept.getF {s t : State} (h : TimeKept s t) {f : Fld} (h1 : 0x40000 ≤ f.off) (h2 : f.off < 0x50000) : t.getF f = s.getF f :=
  State.getF_congr (h.regs _ h1 h2)

theorem TimeKept.lampFine {s t : State} (h : TimeKept s t) : t.lampFine = s.lampFine :=
  State.lampFine_of_parts (by rw [h.time]) (by rw [h.time]) (by rw [h.time]) (by rw [h.time]) (h.getF (by decide) (by decide))

theorem TimeKept.sched {s t : State} (h : TimeKept s t) : t.time.sched = s.time.sched := by rw [h.time]

theorem TimeKept.schedOf {s t : State} (h : TimeKept s t) (e : Nat) : t.schedOf e = s.schedOf e := by rw [State.schedOf, h.sched, State.schedOf]

end Sys2Proof.Machine

/-! ## The schedule: arming and disarming (R311, R312, R324) -/

namespace Sys2Proof.Machine

/-! ### Entries and their registers -/

theorem State.schedOf_setSched (s : State) (e k : Nat) (x : Option SchedE) : (s.setSched e x).schedOf k = if k = e then x else s.schedOf k :=
  tabGet_tabSet _ _ _ _ _

/-- The registers of entry `e` that the schedule writes are apart from each other and from the unit's flags and counters. -/
theorem schedRegs_apart : ∀ e : Fin 64, ∀ off ∈ [rTIME_SCHED_CFG e, rTIME_SCHED_STATUS e, rTIME_SCHED_TARGET_LO e, rTIME_SCHED_LAST e],
    off ≠ rTIME_STATUS ∧ off ≠ rTIME_CTRL ∧ off ≠ rTIME_SCHED_REJECTED_COUNT ∧ off ≠ rTIME_LATE_COUNT ∧ off ≠ rTIME_MISSED_COUNT
      ∧ off ∉ evRegs ∧ 0x40000 ≤ off ∧ off < 0x50000 := by decide

theorem schedRegs_lock : ∀ e : Fin 64, ∀ off ∈ [rTIME_SCHED_CFG e, rTIME_SCHED_TARGET_LO e],
    (regRow off).map RegRow.lock = some 0 ∧ off < 0x100000 := by decide +kernel

theorem schedStatus_range (e : Fin 64) : 0x40000 ≤ rTIME_SCHED_STATUS e ∧ rTIME_SCHED_STATUS e < 0x50000 := by
  obtain ⟨-, -, -, -, -, -, h⟩ := schedRegs_apart e (rTIME_SCHED_STATUS e) (by simp)
  exact h

/-- Entry `e` is `x` afterwards, the other entries are as they were. -/
def SchedSet (e : Nat) (x : Option SchedE) (s t : State) : Prop := ∀ k, t.schedOf k = if k = e then x else s.schedOf k

theorem SchedSet.self {e : Nat} {x : Option SchedE} {s t : State} (h : SchedSet e x s t) : t.schedOf e = x := (h e).trans (if_pos rfl)

theorem SchedSet.other {e k : Nat} {x : Option SchedE} {s t : State} (h : SchedSet e x s t) (hk : k ≠ e) : t.schedOf k = s.schedOf k :=
  (h k).trans (if_neg hk)

theorem SchedSet.of_time {e : Nat} {x : Option SchedE} {s t u : State} (h : SchedSet e x s t) (hu : u.time = t.time) : SchedSet e x s u :=
  fun k => by rw [State.schedOf, hu]; exact h k

theorem schedSet_setSched (s : State) (e : Nat) (x : Option SchedE) : SchedSet e x s (s.setSched e x) := fun k => s.schedOf_setSched e k x

theorem SchedSet.trans {e : Nat} {x y : Option SchedE} {s t u : State} (h : SchedSet e x s t) (k : SchedSet e y t u) : SchedSet e y s u := fun j => by
  rw [k j, h j]
  split <;> rfl

theorem State.reg_withTime (s : State) (x : TimeU) (off : Nat) : ({ s with time := x } : State).reg off = s.reg off := rfl

/-- What a stop leaves: the entry gone, EN and ARMED clear, the other fields of its registers as they were. -/
structure Stopped (e : Nat) (s t : State) : Prop where
  set : SchedSet e none s t
  en : t.isF (fTIME_SCHED_CFG_EN e) = false
  armed : t.isF (fTIME_SCHED_STATUS_ARMED e) = false
  result : t.getF (fTIME_SCHED_STATUS_RESULT e) = s.getF (fTIME_SCHED_STATUS_RESULT e)
  count : t.getF (fTIME_SCHED_STATUS_EXEC_COUNT e) = s.getF (fTIME_SCHED_STATUS_EXEC_COUNT e)
  only : OnlyRegs [rTIME_SCHED_CFG e, rTIME_SCHED_STATUS e] { s with time := t.time } t

theorem cfg_ne_status (e : Nat) : rTIME_SCHED_CFG e ≠ rTIME_SCHED_STATUS e := by
  unfold rTIME_SCHED_CFG rTIME_SCHED_STATUS
  omega

theorem stopped_schedStop (s : State) (e : Nat) : Stopped e s (s.schedStop e) := by
  have hne := cfg_ne_status e
  have hset : (s.setSched e none).getF (fTIME_SCHED_STATUS_RESULT e) = s.getF (fTIME_SCHED_STATUS_RESULT e) := rfl
  have hset' : (s.setSched e none).getF (fTIME_SCHED_STATUS_EXEC_COUNT e) = s.getF (fTIME_SCHED_STATUS_EXEC_COUNT e) := rfl
  refine ⟨(schedSet_setSched s e none).of_time rfl, ?_, ?_, ?_, ?_, ?_⟩
  · rw [State.isF, State.schedStop, State.getF_setF_other _ _ _ _ (by simp) (.inl hne), State.getF_setF _ _ _ (by simp)]
    rfl
  · rw [State.isF, State.schedStop, State.getF_setF _ _ _ (by simp)]
    rfl
  · rw [State.schedStop, State.getF_setF_other _ _ _ _ (by simp) (.inr (.inl (by simp))),
      State.getF_setF_other _ _ _ _ (by simp) (.inl hne.symm), hset]
  · rw [State.schedStop, State.getF_setF_other _ _ _ _ (by simp) (.inr (.inl (by simp))),
      State.getF_setF_other _ _ _ _ (by simp) (.inl hne.symm), hset']
  · exact ((OnlyRegs.refl _ (s.setSched e none)).setF (f := fTIME_SCHED_CFG_EN e) (by simp)).setF (f := fTIME_SCHED_STATUS_ARMED e) (by simp)

theorem State.isF_setF_one (s : State) {f : Fld} (hw : f.w = 1) (hf : f.lo + f.w ≤ 32) : (s.setF f 1).isF f = true := by
  rw [State.isF, State.getF_setF _ _ _ hf, hw]
  rfl

/-- A refusal: the entry stopped, RESULT showing why, and the refusal flagged. -/
theorem schedReject_effect (s : State) (e : Fin 64) {code : Nat} (hc : code < 8) :
    let t := s.schedReject e code
    SchedSet e none s t ∧ t.isF (fTIME_SCHED_STATUS_ARMED e) = false ∧ t.isF (fTIME_SCHED_CFG_EN e) = false
      ∧ t.getF (fTIME_SCHED_STATUS_RESULT e) = code ∧ t.isF fTIME_STATUS_SCHED_REJECTED = true := by
  have hstop := stopped_schedStop s e
  obtain ⟨hs1, -, hs2, -, -, hs3, -⟩ := schedRegs_apart e (rTIME_SCHED_STATUS e) (by simp)
  obtain ⟨hc1, -, hc2, -, -, hc3, -⟩ := schedRegs_apart e (rTIME_SCHED_CFG e) (by simp)
  have hne := cfg_ne_status e
  rw [State.schedReject]
  dsimp only
  generalize s.schedStop e = u at hstop
  generalize hv : (u.setF (fTIME_SCHED_STATUS_RESULT e) code).raise fTIME_STATUS_SCHED_REJECTED rTIME_SCHED_REJECTED_COUNT = v
  have hraise : OnlyRegs [rTIME_STATUS, rTIME_SCHED_REJECTED_COUNT] (u.setF (fTIME_SCHED_STATUS_RESULT e) code) v :=
    hv ▸ (OnlyRegs.refl _ _).raise (by simp) (by simp)
  have hcode : OnlyRegs [rTIME_SCHED_STATUS e] u (u.setF (fTIME_SCHED_STATUS_RESULT e) code) := (OnlyRegs.refl _ u).setF (by simp)
  have hvtime : v.time = u.time := hraise.time_eq.trans hcode.time_eq
  have hreg : ∀ off, off ≠ rTIME_STATUS → off ≠ rTIME_SCHED_REJECTED_COUNT → v.reg off = (u.setF (fTIME_SCHED_STATUS_RESULT e) code).reg off :=
    fun off h1 h2 => hraise.regs off (by simp [h1, h2])
  have q : Quiet [] v (v.post evTIME_SCHED_REJECTED srcTIME (2 ^ 26 * e + code)) := (Quiet.refl _ v).post (by decide)
  refine ⟨hstop.set.of_time (q.time_eq.trans hvtime), ?_, ?_, ?_, ?_⟩
  · rw [q.isF _ (by simp) hs3, State.isF, State.getF_congr (hreg _ hs1 hs2), State.getF_setF_other _ _ _ _ (by simp) (.inr (.inr (by simp)))]
    exact hstop.armed
  · rw [q.isF _ (by simp) hc3, State.isF, State.getF_congr (hreg _ hc1 hc2), State.getF_setF_other _ _ _ _ (by simp) (.inl hne)]
    exact hstop.en
  · rw [q.getF _ (by simp) hs3, State.getF_congr (hreg _ hs1 hs2), State.getF_setF _ _ _ (by simp)]
    exact Nat.mod_eq_of_lt hc
  · rw [q.isF _ (by decide) (by decide), ← hv, State.isF_raise _ (by decide)]
    exact State.isF_setF_one _ rfl (by decide)

/-! ### Arming (R312) -/

/-- The entry as it is armed: a FRAME entry begins at its first frame to come. -/
def State.armedAs (s : State) (x : SchedE) : SchedE := if x.mode = sFRAME then { x with seen := s.frameFrom x } else x

/-- An armed entry shows in its STATUS. -/
theorem setArmed_effect (s : State) (e : Fin 64) (x y : Option SchedE) :
    let t := ((s.setSched e x).setSched e y).setF (fTIME_SCHED_STATUS_ARMED e) 1
    SchedSet e y s t ∧ t.isF (fTIME_SCHED_STATUS_ARMED e) = true ∧ OnlyRegs [rTIME_SCHED_STATUS e] { s with time := t.time } t :=
  ⟨((schedSet_setSched s e x).trans (schedSet_setSched _ e y)).of_time rfl, State.isF_setF_one _ rfl (by simp),
    (OnlyRegs.refl _ ((s.setSched e x).setSched e y)).setF (f := fTIME_SCHED_STATUS_ARMED e) (by simp)⟩

theorem setArmed_lampFine (s : State) (e : Fin 64) (x y : Option SchedE) :
    (((s.setSched e x).setSched e y).setF (fTIME_SCHED_STATUS_ARMED e) 1).lampFine = s.lampFine := by
  obtain ⟨-, hctrl, -⟩ := schedRegs_apart e (rTIME_SCHED_STATUS e) (by simp)
  exact ((OnlyRegs.refl [rTIME_SCHED_STATUS e] ((s.setSched e x).setSched e y)).setF (f := fTIME_SCHED_STATUS_ARMED e) (by simp)).quiet.lampFine
    (by simpa using hctrl.symm)

theorem schedArm_effect {s : State} {e : Fin 64} {x : SchedE} (hx : s.schedHeld e = x) (hok : s.schedArgOk x = true)
    (hin : x.mode = sFRAME ∨ s.future x.target = true ∧ s.tooFar x.target = false) :
    let t := (s.schedArm e).2
    SchedSet e (some (s.armedAs x)) s t ∧ t.isF (fTIME_SCHED_STATUS_ARMED e) = true
      ∧ OnlyRegs [rTIME_SCHED_STATUS e] { s with time := t.time } t := by
  have hok' : ¬(s.setSched e none).schedArgOk x = false := by
    rw [show (s.setSched e none).schedArgOk x = s.schedArgOk x from rfl, hok]
    decide
  have harm : (s.schedArm e).2 = ((s.setSched e none).setSched e (some (s.armedAs x))).setF (fTIME_SCHED_STATUS_ARMED e) 1 := by
    rw [State.schedArm, hx]
    dsimp only
    rw [if_neg hok']
    unfold State.armedAs
    split
    case isTrue => rfl
    case isFalse hm =>
      obtain ⟨hfut, hfar⟩ := hin.resolve_left hm
      have hnow : (((s.setSched e none).setSched e (some x)).setF (fTIME_SCHED_STATUS_ARMED e) 1).future x.target = true := by
        rw [State.future, setArmed_lampFine]
        exact hfut
      rw [if_neg (by rw [show (s.setSched e none).tooFar x.target = s.tooFar x.target from rfl, hfar]; decide), if_pos hnow]
  rw [harm]
  exact setArmed_effect s e none _

theorem schedArm_refused {s : State} {e : Fin 64} {x : SchedE} (hx : s.schedHeld e = x) (hbad : s.schedArgOk x = false) :
    (s.schedArm e).2 = (s.setSched e none).schedReject e 6 := by
  rw [State.schedArm, hx]
  exact congrArg Prod.snd (if_pos hbad)

theorem schedArm_far {s : State} {e : Fin 64} {x : SchedE} (hx : s.schedHeld e = x) (hok : s.schedArgOk x = true) (hm : x.mode ≠ sFRAME)
    (hfar : s.tooFar x.target = true) : (s.schedArm e).2 = (s.setSched e none).schedReject e 4 := by
  have hok' : ¬(s.setSched e none).schedArgOk x = false := by
    rw [show (s.setSched e none).schedArgOk x = s.schedArgOk x from rfl, hok]
    decide
  rw [State.schedArm, hx]
  dsimp only
  rw [if_neg hok', if_neg hm, if_pos (show (s.setSched e none).tooFar x.target = true from hfar)]

theorem toNat_or_top (v : Word) : (v ||| 0x80000000#32).toNat = 2 ^ 31 + v.toNat % 2 ^ 31 := by
  have hv := v.isLt
  have h1 : (0x80000000#32 : Word).toNat = 2 ^ 31 * 1 := by decide
  have h2 : v.toNat = 2 ^ 31 * (v.toNat / 2 ^ 31) + v.toNat % 2 ^ 31 := (Nat.div_add_mod _ _).symm
  have hlt : v.toNat % 2 ^ 31 < 2 ^ 31 := Nat.mod_lt _ (by decide)
  rw [BitVec.toNat_or, h1]
  generalize v.toNat % 2 ^ 31 = w at *
  have hq : v.toNat / 2 ^ 31 = 0 ∨ v.toNat / 2 ^ 31 = 1 := by omega
  rw [h2, Nat.two_pow_add_eq_or_of_lt hlt, Nat.or_comm, ← Nat.or_assoc]
  obtain hq | hq := hq <;> rw [hq]
  · rw [Nat.mul_zero, Nat.or_zero, ← Nat.two_pow_add_eq_or_of_lt hlt, Nat.mul_one]
  · rw [Nat.or_self, ← Nat.two_pow_add_eq_or_of_lt hlt, Nat.mul_one]

/-- CFG as SCHED_ARM writes it. -/
def State.armWritten (s : State) (e : Nat) (v : Word) : State :=
  s.setRegN (rTIME_SCHED_CFG e) (2 ^ 31 + 2 ^ 27 * (v.toNat / 2 ^ 27 % 16) + 2 ^ 20 * (v.toNat / 2 ^ 20 % 16))

theorem State.armWritten_en (s : State) (e : Nat) (v : Word) : (s.armWritten e v).isF (fTIME_SCHED_CFG_EN e) = true := by
  rw [State.isF, State.getF, State.armWritten, State.regN_setRegN, if_pos rfl, bitsOf, beq_iff_eq]
  dsimp only
  omega

theorem State.schedCfg_arm (s : State) (e : Nat) (v : Word) : s.schedCfg e (v ||| 0x80000000#32) = ((s.armWritten e v).schedArm e).2 := by
  have hval : 2 ^ 27 * bitsOf (v ||| 0x80000000#32).toNat 27 5 + 2 ^ 20 * bitsOf (v ||| 0x80000000#32).toNat 20 4 =
      2 ^ 31 + 2 ^ 27 * (v.toNat / 2 ^ 27 % 16) + 2 ^ 20 * (v.toNat / 2 ^ 20 % 16) := by
    rw [toNat_or_top, bitsOf, bitsOf]
    omega
  rw [State.schedCfg, hval]
  exact if_pos (s.armWritten_en e v)

theorem does_schedCfgWrite {c : Instr} {e : Fin 64} {s : State} {v : Word} {act : Word → State → State} {P : State → Prop} {off : Nat}
    (hoff : off ∈ [rTIME_SCHED_CFG e, rTIME_SCHED_TARGET_LO e]) (ht : Takes s off) (hx : exec c s = .next (s.viaRegV off v act))
    (hp : P (act v s)) : Does c s P :=
  does_viaRegV ht (schedRegs_lock e off hoff).1 (schedRegs_lock e off hoff).2 hx hp

theorem does_schedArm {e : Fin 64} {v : Word} {s : State} {P : State → Prop} (ht : Takes s (rTIME_SCHED_CFG e))
    (hp : P ((s.armWritten e v).schedArm e).2) : Does (.schedArm e v) s P :=
  does_schedCfgWrite (e := e) (by simp) ht rfl (by rw [State.schedCfg_arm]; exact hp)

/-- An entry written with EN and armed. -/
theorem does_schedArm_ok {e : Fin 64} {v : Word} {s : State} {x : SchedE} (ht : Takes s (rTIME_SCHED_CFG e))
    (hx : (s.armWritten e v).schedHeld e = x) (hok : (s.armWritten e v).schedArgOk x = true)
    (hin : x.mode = sFRAME ∨ (s.armWritten e v).future x.target = true ∧ (s.armWritten e v).tooFar x.target = false) :
    Does (.schedArm e v) s (fun t => t.schedOf e = some ((s.armWritten e v).armedAs x) ∧ t.isF (fTIME_SCHED_STATUS_ARMED e) = true
        ∧ t.isF (fTIME_SCHED_CFG_EN e) = true ∧ (∀ k, k ≠ e.val → t.schedOf k = s.schedOf k)
        ∧ Quiet [rTIME_SCHED_CFG e, rTIME_SCHED_STATUS e] { s with time := t.time } t) := by
  have hen := s.armWritten_en e v
  have hwrite : OnlyRegs [rTIME_SCHED_CFG e] s (s.armWritten e v) := (OnlyRegs.refl _ s).setRegN (by simp)
  have hof : ∀ k, (s.armWritten e v).schedOf k = s.schedOf k := fun k => by rw [State.schedOf, hwrite.time_eq, State.schedOf]
  obtain ⟨hset, harmed, honly⟩ := schedArm_effect hx hok hin
  refine does_schedArm ht ?_
  generalize ((s.armWritten e v).schedArm e).2 = t at hset harmed honly
  generalize s.armWritten e v = w at *
  refine ⟨hset.self, harmed, ?_, fun k hk => (hset.other hk).trans (hof k), ?_, fun off h1 h2 => ?_⟩
  · rw [← hen, State.isF, State.isF]
    exact congrArg (· == 1) (State.getF_congr (honly.regs _ (by simp)))
  · rw [honly.rest, hwrite.rest]
  · simp only [List.mem_cons, List.not_mem_nil, or_false, not_or] at h1
    exact (honly.regs off (by simpa using h1.2)).trans (hwrite.regs off (by simpa using h1.1))

end Sys2Proof.Machine

/-! ## The schedule: matches (R311, R313, R314, R316) -/

namespace Sys2Proof.Machine

/-! ### Actions leave the time unit alone -/

theorem beside_pulse (s : State) (pin width : Nat) : TimeKept s (s.pulse pin width) := ⟨rfl, fun _ _ _ => rfl⟩

/-- A conversion round counts in a register of housekeeping. -/
theorem timeKept_hkConvert (s : State) (group : Nat) (r : SensorIn) : TimeKept s (s.hkConvert group r) := by
  unfold State.hkConvert
  split
  · exact .refl s
  case isFalse hon =>
    have hrun : s.hkOn = true := by simpa using fun h => hon (.inr h)
    split
    · exact (beside_convertDie (.refl .time s)).timeKept (by simp)
    · exact (beside_convertSupply (.refl .time s)).timeKept (by simp)
    · rw [State.hkRoundOp_eq hrun]
      have h := (beside_hkRounded (r := r) (.refl .time s)).timeKept (by simp)
      generalize s.hkRounded r = u at h
      have honly : OnlyRegs [rHK_ROUND_COUNT] u (u.setRegN rHK_ROUND_COUNT ((u.regN rHK_ROUND_COUNT + 1) % 2 ^ 32)) :=
        (OnlyRegs.refl _ u).setRegN (by simp)
      refine h.trans ⟨by rw [honly.time_eq], fun off h1 _ => honly.regs off ?_⟩
      rintro hm
      obtain rfl := List.mem_singleton.1 hm
      exact absurd h1 (by decide)

theorem timeKept_schedAct (s : State) (e : Nat) (x : SchedE) (r : SensorIn) : TimeKept s (s.schedAct e x r) := by
  have hbeside : ∀ t, Beside .time s t → TimeKept s t := fun t h => h.timeKept (by simp)
  unfold State.schedAct
  extract_lets a
  split
  · exact hbeside _ (beside_post (.refl _ s))
  · exact beside_pulse s _ _
  · exact hbeside _ (Beside.ite (fun _ => (Beside.refl _ s).upd) fun _ => .refl _ s)
  · exact hbeside _ (beside_sweepStart (.refl _ s))
  · exact timeKept_hkConvert s _ r
  · exact hbeside _ (beside_timingCommit (.refl _ s))
  · exact hbeside _ (Beside.foldl (.refl _ s) fun v n hv => Beside.ite (fun _ => beside_trigger (by simp) hv) fun _ => hv)
  · exact .refl s

theorem timeKept_freeReadings (s : State) : TimeKept s s.freeReadings.2 := by
  have h : Beside .time s s.freeReadings.2 := by
    unfold State.freeReadings
    extract_lets q
    have hq : Beside .time s q.2 := Beside.foldl2 (Beside.mk2 (.refl _ s)) fun _ _ hv => Beside.mk2 (beside_fresh hv)
    exact hq
  exact h.timeKept (by simp)

/-! ### One execution -/

/-- What an execution of entry `e` leaves of the schedule: the entries as they were, RESULT, EXEC_COUNT and LAST written. -/
structure Executed (e result : Nat) (s t : State) : Prop where
  time : t.time = { s.time with trgEnd := t.time.trgEnd }
  result : t.getF (fTIME_SCHED_STATUS_RESULT e) = result
  count : t.getF (fTIME_SCHED_STATUS_EXEC_COUNT e) = (s.getF (fTIME_SCHED_STATUS_EXEC_COUNT e) + 1) % 65536
  last : t.regN (rTIME_SCHED_LAST e) = s.lampNs % 2 ^ 32
  lampFine : t.lampFine = s.lampFine

theorem Executed.sched {e result : Nat} {s t : State} (h : Executed e result s t) (k : Nat) : t.schedOf k = s.schedOf k := by
  rw [State.schedOf, h.time, State.schedOf]

theorem last_ne_status (e : Nat) : rTIME_SCHED_LAST e ≠ rTIME_SCHED_STATUS e := by
  unfold rTIME_SCHED_LAST rTIME_SCHED_STATUS
  omega

theorem State.getF_setRegN_ne (s : State) {o v : Nat} {f : Fld} (h : f.off ≠ o) : (s.setRegN o v).getF f = s.getF f :=
  State.getF_setRegN_other _ _ h

/-- RESULT and EXEC_COUNT of an execution. -/
def State.schedCounted (s : State) (e result : Nat) : State :=
  (s.setF (fTIME_SCHED_STATUS_RESULT e) result).setF (fTIME_SCHED_STATUS_EXEC_COUNT e) (s.getF (fTIME_SCHED_STATUS_EXEC_COUNT e) + 1)

theorem State.schedCounted_only (s : State) (e result : Nat) : OnlyRegs [rTIME_SCHED_STATUS e] s (s.schedCounted e result) :=
  ((OnlyRegs.refl _ s).setF (f := fTIME_SCHED_STATUS_RESULT e) (by simp)).setF (f := fTIME_SCHED_STATUS_EXEC_COUNT e) (by simp)

theorem State.schedExec_eq (s : State) (e : Nat) (x : SchedE) (r : SensorIn) (result : Nat) : s.schedExec e x r result =
    ((s.schedAct e x r).schedCounted e result).setRegN (rTIME_SCHED_LAST e) (((s.schedAct e x r).schedCounted e result).lampNs % 2 ^ 32) := by
  have hcount : ((s.schedAct e x r).setF (fTIME_SCHED_STATUS_RESULT e) result).getF (fTIME_SCHED_STATUS_EXEC_COUNT e) =
      (s.schedAct e x r).getF (fTIME_SCHED_STATUS_EXEC_COUNT e) := State.getF_setF_other _ _ _ _ (by simp) (.inr (.inl (by simp)))
  rw [State.schedExec, State.schedCounted, ← hcount]

theorem executed_schedExec (s : State) (e : Fin 64) (x : SchedE) (r : SensorIn) {result : Nat} (hr : result < 8) :
    Executed e result s (s.schedExec e x r result) := by
  obtain ⟨-, hs2, -, -, -, -, hs7, hs8⟩ := schedRegs_apart e (rTIME_SCHED_STATUS e) (by simp)
  obtain ⟨-, hl2, -⟩ := schedRegs_apart e (rTIME_SCHED_LAST e) (by simp)
  have hkept := timeKept_schedAct s e x r
  rw [State.schedExec_eq]
  generalize s.schedAct e x r = u at hkept
  have hcnt := u.schedCounted_only e result
  have hvlamp : (u.schedCounted e result).lampFine = s.lampFine :=
    (hcnt.quiet.lampFine (by simpa using hs2.symm)).trans hkept.lampFine
  have hresult : (u.schedCounted e result).getF (fTIME_SCHED_STATUS_RESULT e) = result := by
    rw [State.schedCounted, State.getF_setF_other _ _ _ _ (by simp) (.inr (.inr (by simp))), State.getF_setF _ _ _ (by simp)]
    exact Nat.mod_eq_of_lt hr
  have hcount : (u.schedCounted e result).getF (fTIME_SCHED_STATUS_EXEC_COUNT e) = (s.getF (fTIME_SCHED_STATUS_EXEC_COUNT e) + 1) % 65536 := by
    rw [State.schedCounted, State.getF_setF _ _ _ (by simp), hkept.getF hs7 hs8]
    exact congrArg (_ % ·) (by decide : 2 ^ 16 = 65536)
  have hvtime := hcnt.time_eq
  generalize u.schedCounted e result = v at *
  have honly : OnlyRegs [rTIME_SCHED_LAST e] v (v.setRegN (rTIME_SCHED_LAST e) (v.lampNs % 2 ^ 32)) := (OnlyRegs.refl _ v).setRegN (by simp)
  have hstatus : ∀ lo w, (v.setRegN (rTIME_SCHED_LAST e) (v.lampNs % 2 ^ 32)).getF ⟨rTIME_SCHED_STATUS e, lo, w⟩ = v.getF ⟨rTIME_SCHED_STATUS e, lo, w⟩ :=
    fun lo w => State.getF_setRegN_ne _ (last_ne_status e).symm
  refine ⟨by rw [honly.time_eq, hvtime, hkept.time], (hstatus _ _).trans hresult, (hstatus _ _).trans hcount, ?_, ?_⟩
  · rw [State.regN_setRegN, if_pos rfl, State.lampNs, hvlamp, State.lampNs]
    omega
  · exact (honly.quiet.lampFine (by simpa using hl2.symm)).trans hvlamp

/-! ### After an execution -/

/-- What a match leaves of entry `e`: executed, and `y` in its place. -/
structure Matched (e result : Nat) (y : Option SchedE) (s t : State) : Prop where
  result : t.getF (fTIME_SCHED_STATUS_RESULT e) = result
  count : t.getF (fTIME_SCHED_STATUS_EXEC_COUNT e) = (s.getF (fTIME_SCHED_STATUS_EXEC_COUNT e) + 1) % 65536
  last : t.regN (rTIME_SCHED_LAST e) = s.lampNs % 2 ^ 32
  set : SchedSet e y s t

theorem State.setSched_reg (s : State) (e : Nat) (x : Option SchedE) (off : Nat) : (s.setSched e x).reg off = s.reg off := by
  simp only [State.setSched, State.reg]

theorem Executed.matched {e result : Nat} {s t : State} (h : Executed e result s t) (y : Option SchedE) : Matched e result y s (t.setSched e y) :=
  ⟨(State.getF_congr (t.setSched_reg e y _)).trans h.result, (State.getF_congr (t.setSched_reg e y _)).trans h.count,
    (congrArg BitVec.toNat (t.setSched_reg e y _)).trans h.last, fun k => by rw [t.schedOf_setSched, h.sched]⟩

theorem Executed.stopped {e : Fin 64} {result : Nat} {s t : State} (h : Executed e result s t) :
    Matched e result none s (t.schedStop e) ∧ (t.schedStop e).isF (fTIME_SCHED_CFG_EN e) = false
      ∧ (t.schedStop e).isF (fTIME_SCHED_STATUS_ARMED e) = false := by
  have hstop := stopped_schedStop t e
  have hlast : rTIME_SCHED_LAST e ∉ [rTIME_SCHED_CFG e, rTIME_SCHED_STATUS e] := by simp
  refine ⟨⟨hstop.result.trans h.result, hstop.count.trans h.count, ?_, fun k => by rw [hstop.set k, h.sched]⟩, hstop.en, hstop.armed⟩
  rw [State.regN, hstop.only.regs _ hlast, State.reg_withTime]
  exact h.last

/-- The entry matches now, and no lower-numbered one comes first (R311, R316). -/
structure Due (e : Nat) (x : SchedE) (s : State) : Prop where
  armed : s.schedOf e = some x
  due : s.schedDue x = true
  first : s.schedBehind e = false

theorem State.schedMatch_of_due {s : State} {e : Nat} {x : SchedE} (h : Due e x s) (hp : s.boot.porst = true) (r : SensorIn) :
    s.schedMatch e x.action r = (s.schedExec e x r resEXECUTED).schedAfter e x := by
  have hno : ¬(x.action ≠ x.action ∨ s.boot.porst = false ∨ s.schedDue x = false ∨ s.schedBehind e = true) := by
    rw [hp, h.due, h.first]
    simp
  rw [State.schedMatch, h.armed]
  exact if_neg hno

theorem State.schedMatch_of_not {s : State} {e action : Nat} (hno : s.boot.porst = false ∨ ∀ x, s.schedOf e = some x → x.action = action →
    s.schedDue x = false ∨ s.schedBehind e = true) (r : SensorIn) : s.schedMatch e action r = s := by
  unfold State.schedMatch
  split
  · rfl
  case h_2 x hx =>
    refine if_pos ?_
    by_cases ha : x.action = action
    · exact .inr (hno.imp id fun h => h x hx ha)
    · exact .inl ha

/-- An execution of a ONCE entry ends it. -/
theorem matched_once {s : State} {e : Fin 64} {x : SchedE} (h : Due e x s) (hp : s.boot.porst = true) (hm : x.mode = sONCE) (r : SensorIn) :
    let t := s.schedMatch e x.action r
    Matched e 1 none s t ∧ t.isF (fTIME_SCHED_CFG_EN e) = false ∧ t.isF (fTIME_SCHED_STATUS_ARMED e) = false := by
  have hx := executed_schedExec s e x r (result := resEXECUTED) (by decide)
  dsimp only
  rw [State.schedMatch_of_due h hp, State.schedAfter, if_pos hm]
  exact hx.stopped

/-- A conversion's free readings take draws and nothing else. -/
theorem State.freeReadings_eq (s : State) : s.freeReadings.2 = { s with draws := s.freeReadings.2.draws } := by
  have hfold : ∀ (l : List Nat) (q : List Word × State), q.2 = { s with draws := q.2.draws } →
      let t := l.foldl (fun (q : List Word × State) _ => (q.1 ++ [q.2.fresh.1], q.2.fresh.2)) q
      t.2 = { s with draws := t.2.draws } := fun l => by
    induction l with
    | nil => exact fun q hq => hq
    | cons k l ih =>
      intro q hq
      refine ih _ ?_
      change q.2.fresh.2 = { s with draws := q.2.fresh.2.draws }
      rw [hq]
      rfl
  exact hfold (List.range 24) ([], s) rfl

/-- The state in which a match that an entry's disarming finds is executed, and its readings. -/
def State.disarmReadings (s : State) (x : SchedE) : SensorIn × State := if x.action = 4 then s.freeReadings else (noReadings, s)

theorem State.disarmReadings_eq (s : State) (x : SchedE) : (s.disarmReadings x).2 = { s with draws := (s.disarmReadings x).2.draws } := by
  unfold State.disarmReadings
  split
  · exact s.freeReadings_eq
  · rfl

/-- Disarming an entry that does not match only stops it. -/
theorem State.schedOff_idle {s : State} {e : Nat} (h : ∀ x, s.schedOf e = some x → s.schedDue x = false ∨ s.schedBehind e = true ∨
    x.action = 7 ∧ s.asleep = true) : s.schedOff e = s.schedStop e := by
  unfold State.schedOff
  refine congrArg (State.schedStop · e) ?_
  split
  case h_1 x hx => exact if_pos (by have := h x hx; tauto)
  case h_2 => rfl

theorem State.schedOff_match {s : State} {e : Nat} {x : SchedE} (h : Due e x s) (hwake : ¬(x.action = 7 ∧ s.asleep = true)) :
    s.schedOff e = ((s.disarmReadings x).2.schedMatch e x.action (s.disarmReadings x).1).schedStop e := by
  have hno : ¬(x.action = 7 ∧ s.asleep = true ∨ s.schedDue x = false ∨ s.schedBehind e = true) := by
    rw [h.due, h.first]
    simpa using hwake
  rw [State.schedOff, h.armed]
  refine congrArg (State.schedStop · e) ((if_neg hno).trans ?_)
  unfold State.disarmReadings
  split <;> rfl

theorem Due.disarmReadings {s : State} {e : Nat} {x : SchedE} (h : Due e x s) : Due e x (s.disarmReadings x).2 := by
  rw [s.disarmReadings_eq]
  exact ⟨h.armed, h.due, h.first⟩

/-- SCHED_DISARM takes effect. -/
theorem does_schedDisarm {e : Fin 64} {s : State} {P : State → Prop} (ht : Takes s (rTIME_SCHED_CFG e)) (hp : P (s.schedOff e)) :
    Does (.schedDisarm e) s P := by
  obtain ⟨hrow, hoff⟩ := schedRegs_lock e (rTIME_SCHED_CFG e) (by simp)
  have hunit : s.absentUnit (rTIME_SCHED_CFG e) = false := by simp [State.absentUnit, Nat.not_le.2 hoff]
  have hx : exec (.schedDisarm e) s = .next (s.viaReg (rTIME_SCHED_CFG e) (fun s => s.schedOff e)) := rfl
  rw [State.viaReg_of_takes ht hunit] at hx
  exact ⟨_, hx, hp⟩

theorem does_schedDisarm_idle {e : Fin 64} {s : State} (ht : Takes s (rTIME_SCHED_CFG e))
    (h : ∀ x, s.schedOf e = some x → s.schedDue x = false ∨ s.schedBehind e = true ∨ x.action = 7 ∧ s.asleep = true) :
    Does (.schedDisarm e) s (fun t => t.schedOf e = none ∧ t.isF (fTIME_SCHED_CFG_EN e) = false
        ∧ t.isF (fTIME_SCHED_STATUS_ARMED e) = false ∧ (∀ k, k ≠ e.val → t.schedOf k = s.schedOf k)
        ∧ Quiet [rTIME_SCHED_CFG e, rTIME_SCHED_STATUS e] { s with time := t.time } t) := by
  have hstop := stopped_schedStop s e
  refine does_schedDisarm ht ?_
  rw [State.schedOff_idle h]
  exact ⟨hstop.set.self, hstop.en, hstop.armed, fun k => hstop.set.other, hstop.only.quiet⟩

theorem does_schedDisarm_match {e : Fin 64} {s : State} {x : SchedE} (ht : Takes s (rTIME_SCHED_CFG e)) (h : Due e x s) (hm : x.mode = sONCE)
    (hwake : ¬(x.action = 7 ∧ s.asleep = true)) :
    Does (.schedDisarm e) s (fun t => t.schedOf e = none ∧ t.isF (fTIME_SCHED_CFG_EN e) = false
        ∧ t.isF (fTIME_SCHED_STATUS_ARMED e) = false ∧ t.getF (fTIME_SCHED_STATUS_RESULT e) = 1
        ∧ t.getF (fTIME_SCHED_STATUS_EXEC_COUNT e) = (s.getF (fTIME_SCHED_STATUS_EXEC_COUNT e) + 1) % 65536
        ∧ ∀ k, k ≠ e.val → t.schedOf k = s.schedOf k) := by
  have hread := s.disarmReadings_eq x
  have hporst : (s.disarmReadings x).2.boot.porst = true := by
    rw [hread]
    exact ht.1
  obtain ⟨hmatch, -, -⟩ := matched_once h.disarmReadings hporst hm (s.disarmReadings x).1
  refine does_schedDisarm ht ?_
  rw [State.schedOff_match h hwake]
  generalize (s.disarmReadings x).2.schedMatch e x.action (s.disarmReadings x).1 = v at hmatch
  have hof : ∀ k, (s.disarmReadings x).2.schedOf k = s.schedOf k := fun k => by rw [hread]; rfl
  have hcnt : (s.disarmReadings x).2.getF (fTIME_SCHED_STATUS_EXEC_COUNT e) = s.getF (fTIME_SCHED_STATUS_EXEC_COUNT e) := by rw [hread]; rfl
  have hstop := stopped_schedStop v e
  refine ⟨hstop.set.self, hstop.en, hstop.armed, hstop.result.trans hmatch.result, ?_, fun k hk => ?_⟩
  · rw [hstop.count, hmatch.count, hcnt]
  · rw [hstop.set.other hk, hmatch.set.other hk, hof]

/-! ### The obligations on arming and matches -/

theorem does_schedArm_refused {e : Fin 64} {v : Word} {s : State} {x : SchedE} (ht : Takes s (rTIME_SCHED_CFG e))
    (hx : (s.armWritten e v).schedHeld e = x) (hbad : (s.armWritten e v).schedArgOk x = false) :
    Does (.schedArm e v) s (fun t => t.schedOf e = none ∧ t.isF (fTIME_SCHED_STATUS_ARMED e) = false
        ∧ t.isF (fTIME_SCHED_CFG_EN e) = false ∧ t.getF (fTIME_SCHED_STATUS_RESULT e) = 6
        ∧ t.isF fTIME_STATUS_SCHED_REJECTED = true ∧ ∀ k, k ≠ e.val → t.schedOf k = s.schedOf k) := by
  have hwrite : OnlyRegs [rTIME_SCHED_CFG e] s (s.armWritten e v) := (OnlyRegs.refl _ s).setRegN (by simp)
  have hset := schedSet_setSched (s.armWritten e v) e none
  obtain ⟨hnone, harmed, hen, hres, hflag⟩ := schedReject_effect ((s.armWritten e v).setSched e none) e (code := 6) (by decide)
  refine does_schedArm ht ?_
  rw [schedArm_refused hx hbad]
  refine ⟨hnone.self, harmed, hen, hres, hflag, fun k hk => ?_⟩
  rw [hnone.other hk, hset.other hk, State.schedOf, hwrite.time_eq, State.schedOf]

theorem does_schedArm_far {e : Fin 64} {v : Word} {s : State} {x : SchedE} (ht : Takes s (rTIME_SCHED_CFG e))
    (hx : (s.armWritten e v).schedHeld e = x) (hok : (s.armWritten e v).schedArgOk x = true) (hm : x.mode ≠ sFRAME)
    (hfar : (s.armWritten e v).tooFar x.target = true) :
    Does (.schedArm e v) s (fun t => t.schedOf e = none ∧ t.isF (fTIME_SCHED_STATUS_ARMED e) = false
        ∧ t.getF (fTIME_SCHED_STATUS_RESULT e) = 4 ∧ t.isF fTIME_STATUS_SCHED_REJECTED = true) := by
  obtain ⟨hnone, harmed, -, hres, hflag⟩ := schedReject_effect ((s.armWritten e v).setSched e none) e (code := 4) (by decide)
  refine does_schedArm ht ?_
  rw [schedArm_far hx hok hm hfar]
  exact ⟨hnone.self, harmed, hres, hflag⟩

theorem does_schedTargetWrite {e : Fin 64} {v : Word} {s : State} {P : State → Prop} (ht : Takes s (rTIME_SCHED_TARGET_LO e))
    (hp : P (s.schedTarget e v)) : Does (.schedTargetWrite e v) s P := does_schedCfgWrite (e := e) (by simp) ht rfl hp

/-- The write of TARGET_LO leaves CFG. -/
theorem State.isF_en_setTarget (s : State) (e : Nat) (v : Word) :
    (s.setReg (rTIME_SCHED_TARGET_LO e) v).isF (fTIME_SCHED_CFG_EN e) = s.isF (fTIME_SCHED_CFG_EN e) := by
  rw [State.isF, State.getF_setReg_other _ _ (by simp), State.isF]

theorem does_schedTargetWrite_armed {e : Fin 64} {v : Word} {s : State} {x : SchedE} (ht : Takes s (rTIME_SCHED_TARGET_LO e))
    (hen : s.isF (fTIME_SCHED_CFG_EN e) = true) (hx : (s.setReg (rTIME_SCHED_TARGET_LO e) v).schedHeld e = x)
    (hok : (s.setReg (rTIME_SCHED_TARGET_LO e) v).schedArgOk x = true)
    (hin : x.mode = sFRAME ∨ (s.setReg (rTIME_SCHED_TARGET_LO e) v).future x.target = true
      ∧ (s.setReg (rTIME_SCHED_TARGET_LO e) v).tooFar x.target = false) :
    Does (.schedTargetWrite e v) s (fun t =>
        t.schedOf e = some ((s.setReg (rTIME_SCHED_TARGET_LO e) v).armedAs x) ∧ t.isF (fTIME_SCHED_STATUS_ARMED e) = true
        ∧ Quiet [rTIME_SCHED_TARGET_LO e, rTIME_SCHED_STATUS e] { s with time := t.time } t) := by
  have hwrite : OnlyRegs [rTIME_SCHED_TARGET_LO e] s (s.setReg (rTIME_SCHED_TARGET_LO e) v) := (OnlyRegs.refl _ s).setReg (by simp)
  obtain ⟨hset, harmed, honly⟩ := schedArm_effect hx hok hin
  refine does_schedTargetWrite ht ?_
  rw [State.schedTarget, if_pos (by rw [State.isF_en_setTarget, hen])]
  generalize ((s.setReg (rTIME_SCHED_TARGET_LO e) v).schedArm e).2 = t at hset harmed honly
  generalize s.setReg (rTIME_SCHED_TARGET_LO e) v = w at *
  refine ⟨hset.self, harmed, ?_, fun off h1 h2 => ?_⟩
  · rw [honly.rest, hwrite.rest]
  · simp only [List.mem_cons, List.not_mem_nil, or_false, not_or] at h1
    exact (honly.regs off (by simpa using h1.2)).trans (hwrite.regs off (by simpa using h1.1))

/-- Settles O31: the entry as its registers hold it, armed, refused or taken away. -/
theorem schedArming : Obligations.SchedArming := by
  unfold Obligations.SchedArming
  refine ⟨fun e v s ht => ⟨does_schedArm_ok ht rfl, does_schedArm_refused ht rfl, does_schedArm_far ht rfl⟩, fun e v s ht => ⟨fun hen => ?_, fun hen =>
    does_schedTargetWrite_armed ht hen rfl⟩, fun e s ht => ⟨does_schedDisarm_idle ht, fun x hx hm hdue hfirst hwake =>
    does_schedDisarm_match ht ⟨hx, hdue, hfirst⟩ hm hwake⟩⟩
  refine does_schedTargetWrite ht ?_
  rw [State.schedTarget, if_neg (by rw [State.isF_en_setTarget, hen]; decide)]

end Sys2Proof.Machine

/-! ## The schedule: a match executes its entry (R313, R314, R316) -/

namespace Sys2Proof.Machine

/-! ### Entries that go on -/

/-- The next target of a PERIODIC entry. -/
def SchedE.nextTarget (x : SchedE) : SchedE := { x with target := (x.target + x.period) % 2 ^ 64 }

theorem future_congr {s t : State} (h : t.lampFine = s.lampFine) (target : Nat) : t.future target = s.future target := by
  rw [State.future, h, State.future]

theorem State.setSched_future (s : State) (e : Nat) (x : Option SchedE) (target : Nat) : (s.setSched e x).future target = s.future target :=
  future_congr (State.lampFine_of_parts (by simp only [State.setSched]) (by simp only [State.setSched]) (by simp only [State.setSched])
    (by simp only [State.setSched]) (State.getF_congr (s.setSched_reg e x rTIME_CTRL))) target

theorem State.setSched_frameFrom (s : State) (e : Nat) (y : Option SchedE) (x : SchedE) : (s.setSched e y).frameFrom x = s.frameFrom x := rfl

/-- A flag raised, its counter counting and an event posted leave the schedule's own registers. -/
theorem raisePost_effect (s : State) (e : Fin 64) {f : Fld} {c : Nat} {k : EvKind} (src data : Nat)
    (hf : f.off = rTIME_STATUS) (hc : c = rTIME_LATE_COUNT ∨ c = rTIME_MISSED_COUNT) (hk : k.prio < 4) :
    let t := (s.raise f c).post k src data
    (∀ lo w, t.getF ⟨rTIME_SCHED_STATUS e, lo, w⟩ = s.getF ⟨rTIME_SCHED_STATUS e, lo, w⟩) ∧ t.time = s.time := by
  obtain ⟨h1, -, -, h4, h5, h6, -⟩ := schedRegs_apart e (rTIME_SCHED_STATUS e) (by simp)
  have q : Quiet [rTIME_STATUS, c] s ((s.raise f c).post k src data) :=
    ((Quiet.refl _ s).raise (.inl (by rw [hf]; simp)) (.inl (by simp))).post hk
  have hne : rTIME_SCHED_STATUS e ≠ c := by
    rcases hc with rfl | rfl
    · exact h4
    · exact h5
  exact ⟨fun lo w => q.getF ⟨rTIME_SCHED_STATUS e, lo, w⟩ (by simp only [List.mem_cons, List.not_mem_nil, or_false, not_or]; exact ⟨h1, hne⟩) h6, q.time_eq⟩

/-- Does the late policy run the entry? -/
def SchedE.runsLate (x : SchedE) : Prop := if x.late ≠ 0 then x.late = 1 else x.action ≠ 1 ∧ x.action ≠ 2

theorem latePolicy_eq_one (x : SchedE) : latePolicy x = 1 ↔ x.runsLate := by
  unfold latePolicy SchedE.runsLate
  split
  · rfl
  · split <;> simp <;> tauto

/-- The late policy of an entry that is executed late. -/
def State.lateRun (s : State) (e : Nat) (x : SchedE) : State :=
  let late := s.lampFine / 2 ^ 32 - x.target
  let q := if x.action = 4 then s.freeReadings else (noReadings, s)
  let s := (q.2.schedExec e x q.1 resLATE).raise fTIME_STATUS_LATE rTIME_LATE_COUNT
  s.post evTIME_LATE srcTIME (2 ^ 26 * e + satAt (2 ^ 26 - 1) (late / 1000))

/-- The late policy of an entry that is passed over. -/
def State.lateMissed (s : State) (e : Nat) (x : SchedE) : State :=
  let k := s.missedOf x
  let s := (s.setF (fTIME_SCHED_STATUS_RESULT e) resMISSED).raise fTIME_STATUS_MISSED rTIME_MISSED_COUNT
  s.post evTIME_MISSED srcTIME (2 ^ 26 * e + satAt 65535 k)

theorem State.schedLate_periodic {x : SchedE} (hm : x.mode = sPERIODIC) (s : State) (e : Nat) : s.schedLate e x =
    (if latePolicy x = 1 then s.lateRun e x else s.lateMissed e x).setSched e
      (some { x with target := (x.target + s.missedOf x * x.period) % 2 ^ 64 }) := by
  rw [State.schedLate]
  dsimp only
  rw [if_pos hm]
  congr 1

theorem lateRun_effect (s : State) (e : Fin 64) (x : SchedE) :
    (s.lateRun e x).getF (fTIME_SCHED_STATUS_RESULT e) = 2 ∧ ∀ k, (s.lateRun e x).schedOf k = s.schedOf k := by
  have hq : ∀ k, (if x.action = 4 then s.freeReadings else (noReadings, s)).2.schedOf k = s.schedOf k := fun k => by
    split
    · exact (timeKept_freeReadings s).schedOf k
    · rfl
  have hx := executed_schedExec (if x.action = 4 then s.freeReadings else (noReadings, s)).2 e x
    (if x.action = 4 then s.freeReadings else (noReadings, s)).1 (result := resLATE) (by decide)
  unfold State.lateRun
  dsimp only
  generalize (if x.action = 4 then s.freeReadings else (noReadings, s)) = q at hq hx ⊢
  generalize q.2.schedExec e x q.1 resLATE = u at hx
  obtain ⟨hreg, htime⟩ := raisePost_effect u e (f := fTIME_STATUS_LATE) (c := rTIME_LATE_COUNT) (k := evTIME_LATE) srcTIME
    (2 ^ 26 * e + satAt (2 ^ 26 - 1) ((s.lampFine / 2 ^ 32 - x.target) / 1000)) rfl (.inl rfl) (by decide)
  refine ⟨(hreg _ _).trans hx.result, fun k => ?_⟩
  rw [State.schedOf, htime]
  exact (hx.sched k).trans (hq k)

theorem lateMissed_effect (s : State) (e : Fin 64) (x : SchedE) :
    (s.lateMissed e x).getF (fTIME_SCHED_STATUS_RESULT e) = 3 ∧ ∀ k, (s.lateMissed e x).schedOf k = s.schedOf k := by
  have hres : (s.setF (fTIME_SCHED_STATUS_RESULT e) resMISSED).getF (fTIME_SCHED_STATUS_RESULT e) = 3 := State.getF_setF _ _ _ (by simp)
  have honly : OnlyRegs [rTIME_SCHED_STATUS e] s (s.setF (fTIME_SCHED_STATUS_RESULT e) resMISSED) := (OnlyRegs.refl _ s).setF (by simp)
  unfold State.lateMissed
  dsimp only
  generalize s.setF (fTIME_SCHED_STATUS_RESULT e) resMISSED = u at hres honly
  obtain ⟨hreg, htime⟩ := raisePost_effect u e (f := fTIME_STATUS_MISSED) (c := rTIME_MISSED_COUNT) (k := evTIME_MISSED) srcTIME
    (2 ^ 26 * e + satAt 65535 (s.missedOf x)) rfl (.inr rfl) (by decide)
  refine ⟨(hreg _ _).trans hres, fun k => ?_⟩
  rw [State.schedOf, htime, honly.time_eq, State.schedOf]

/-- What the late policy leaves of a PERIODIC entry. -/
theorem schedLate_effect (s : State) (e : Fin 64) {x : SchedE} (hm : x.mode = sPERIODIC) :
    let t := s.schedLate e x
    (x.runsLate → t.getF (fTIME_SCHED_STATUS_RESULT e) = 2) ∧ (¬x.runsLate → t.getF (fTIME_SCHED_STATUS_RESULT e) = 3)
      ∧ (∃ y, t.schedOf e = some { x with target := y }) ∧ ∀ k, k ≠ e.val → t.schedOf k = s.schedOf k := by
  obtain ⟨hrun, hrunOf⟩ := lateRun_effect s e x
  obtain ⟨hmiss, hmissOf⟩ := lateMissed_effect s e x
  rw [State.schedLate_periodic hm]
  generalize hy : some { x with target := (x.target + s.missedOf x * x.period) % 2 ^ 64 } = y
  have hresult : ∀ u : State, (u.setSched e y).getF (fTIME_SCHED_STATUS_RESULT e) = u.getF (fTIME_SCHED_STATUS_RESULT e) :=
    fun u =>
    State.getF_congr (u.setSched_reg e y (rTIME_SCHED_STATUS e))
  dsimp only
  refine ⟨fun h => ?_, fun h => ?_, ⟨(x.target + s.missedOf x * x.period) % 2 ^ 64, ?_⟩, fun k hk => ?_⟩
  · rw [if_pos ((latePolicy_eq_one x).2 h), hresult, hrun]
  · rw [if_neg (fun e => h ((latePolicy_eq_one x).1 e)), hresult, hmiss]
  · rw [State.schedOf_setSched, if_pos rfl, ← hy]
  · rw [State.schedOf_setSched, if_neg hk]
    split
    · exact hrunOf k
    · exact hmissOf k

/-- A PERIODIC entry whose next target is still to come takes it. -/
theorem State.schedAfter_periodic {s : State} {e : Nat} {x : SchedE} (hm : x.mode = sPERIODIC) (hfut : s.future x.nextTarget.target = true) :
    s.schedAfter e x = s.setSched e (some x.nextTarget) := by
  rw [State.schedAfter, if_neg (by rw [hm]; decide), if_pos hm]
  exact if_pos ((s.setSched_future e _ _).trans hfut)

/-! ### Matches of the six actions -/

/-- The actions whose matches come as commands, without readings. -/
def IsMatch (p : (Fin 64 → Instr) × Nat) : Prop :=
  p ∈ ([(.eventPost, 0), (.trgPulse, 1), (.slotFire, 2), (.sweepStart, 3), (.framePhase, 5), (.beWake, 6)] : List ((Fin 64 → Instr) × Nat))

theorem exec_match {p : (Fin 64 → Instr) × Nat} (hp : IsMatch p) (e : Fin 64) (s : State) :
    exec (p.1 e) s = .next (s.schedMatch e p.2 noReadings) := by
  simp only [IsMatch, List.mem_cons, List.not_mem_nil, or_false] at hp
  rcases hp with rfl | rfl | rfl | rfl | rfl | rfl <;> rfl

theorem does_match {p : (Fin 64 → Instr) × Nat} (hp : IsMatch p) {e : Fin 64} {s : State} {x : SchedE} (h : Due e x s)
    (ha : x.action = p.2) (hporst : s.boot.porst = true) {P : State → Prop}
    (k : P ((s.schedExec e x noReadings resEXECUTED).schedAfter e x)) : Does (p.1 e) s P := by
  refine ⟨_, exec_match hp e s, ?_⟩
  rw [← ha, State.schedMatch_of_due h hporst]
  exact k

theorem does_match_executed {p : (Fin 64 → Instr) × Nat} (hp : IsMatch p) {e : Fin 64} {s : State} {x : SchedE} (h : Due e x s)
    (ha : x.action = p.2) (hporst : s.boot.porst = true)
    (hfut : x.mode = sPERIODIC → s.future ((x.target + x.period) % 2 ^ 64) = true) :
    Does (p.1 e) s (fun t => t.getF (fTIME_SCHED_STATUS_RESULT e) = 1
        ∧ t.getF (fTIME_SCHED_STATUS_EXEC_COUNT e) = (s.getF (fTIME_SCHED_STATUS_EXEC_COUNT e) + 1) % 65536
        ∧ t.regN (rTIME_SCHED_LAST e) = s.lampNs % 2 ^ 32
        ∧ t.schedOf e = (if x.mode = sONCE then none
            else if x.mode = sPERIODIC then some { x with target := (x.target + x.period) % 2 ^ 64 }
            else some { x with seen := t.frameFrom x })
        ∧ (x.mode = sONCE → t.isF (fTIME_SCHED_CFG_EN e) = false ∧ t.isF (fTIME_SCHED_STATUS_ARMED e) = false)
        ∧ ∀ k, k ≠ e.val → t.schedOf k = s.schedOf k) := by
  have hx := executed_schedExec s e x noReadings (result := resEXECUTED) (by decide)
  refine does_match hp h ha hporst ?_
  generalize s.schedExec e x noReadings resEXECUTED = u at hx
  by_cases honce : x.mode = sONCE
  · obtain ⟨hm, hen, harmed⟩ := hx.stopped
    rw [State.schedAfter, if_pos honce, if_pos honce]
    exact ⟨hm.result, hm.count, hm.last, hm.set.self, fun _ => ⟨hen, harmed⟩, fun k => hm.set.other⟩
  by_cases hper : x.mode = sPERIODIC
  · have hm := hx.matched (some x.nextTarget)
    rw [State.schedAfter_periodic hper ((future_congr hx.lampFine _).trans (hfut hper)), if_neg honce, if_pos hper]
    exact ⟨hm.result, hm.count, hm.last, hm.set.self, fun ho => absurd ho honce, fun k => hm.set.other⟩
  · have hm := hx.matched (some { x with seen := u.frameFrom x })
    have hafter : u.schedAfter e x = u.setSched e (some { x with seen := u.frameFrom x }) := by
      rw [State.schedAfter, if_neg honce, if_neg hper]
    rw [hafter, if_neg honce, if_neg hper, State.setSched_frameFrom]
    exact ⟨hm.result, hm.count, hm.last, hm.set.self, fun ho => absurd ho honce, fun k => hm.set.other⟩

theorem does_match_late {p : (Fin 64 → Instr) × Nat} (hp : IsMatch p) {e : Fin 64} {s : State} {x : SchedE} (h : Due e x s)
    (ha : x.action = p.2) (hporst : s.boot.porst = true) (hm : x.mode = sPERIODIC)
    (hpast : s.future ((x.target + x.period) % 2 ^ 64) = false) :
    Does (p.1 e) s (fun t => (x.runsLate → t.getF (fTIME_SCHED_STATUS_RESULT e) = 2) ∧ (¬x.runsLate → t.getF (fTIME_SCHED_STATUS_RESULT e) = 3)
        ∧ (∃ y, t.schedOf e = some { x with target := y }) ∧ ∀ k, k ≠ e.val → t.schedOf k = s.schedOf k) := by
  have hx := executed_schedExec s e x noReadings (result := resEXECUTED) (by decide)
  refine does_match hp h ha hporst ?_
  generalize s.schedExec e x noReadings resEXECUTED = u at hx
  have hnow : ¬(u.setSched e (some x.nextTarget)).future x.nextTarget.target = true := by
    rw [State.setSched_future, future_congr hx.lampFine, SchedE.nextTarget, hpast]
    decide
  have hafter : u.schedAfter e x = (u.setSched e (some x.nextTarget)).schedLate e x.nextTarget := by
    rw [State.schedAfter, if_neg (by rw [hm]; decide), if_pos hm]
    exact if_neg hnow
  obtain ⟨hrun, hmiss, hset, hother⟩ := schedLate_effect (u.setSched e (some x.nextTarget)) e (x := x.nextTarget) hm
  rw [hafter]
  refine ⟨hrun, hmiss, hset, fun k hk => ?_⟩
  rw [hother k hk, State.schedOf_setSched, if_neg hk, hx.sched]

/-- Settles O32: the action leaves the schedule, RESULT, EXEC_COUNT and LAST are written after it, and the entry's mode says how it goes on. -/
theorem schedMatches : Obligations.SchedMatches := by
  unfold Obligations.SchedMatches
  intro p hp e s
  refine ⟨fun x hx ha hporst hdue hfirst _ hfut => does_match_executed hp ⟨hx, hdue, hfirst⟩ ha hporst hfut,
    fun x hx ha hporst hdue hfirst hm hpast => does_match_late hp ⟨hx, hdue, hfirst⟩ ha hporst hm hpast, fun hno => ?_⟩
  refine ⟨_, exec_match hp e s, ?_⟩
  exact State.schedMatch_of_not hno noReadings

end Sys2Proof.Machine

/-! ## Posting events leaves no injection armed that was not (R341, R342, R348, R392) -/

namespace Sys2Proof.Machine

/-- No injection is armed (R392). -/
def Unarmed (s : State) : Prop := s.isF fMEM_ECC_INJECT_ARM = false

theorem Unarmed.of_reg {s t : State} (h : Unarmed s) (hreg : t.reg rMEM_ECC_INJECT = s.reg rMEM_ECC_INJECT) : Unarmed t := by
  rw [Unarmed, State.isF, State.getF_congr hreg]
  exact h

theorem Unarmed.setReg {s : State} (h : Unarmed s) {o : Nat} {v : Word} (ho : o ≠ rMEM_ECC_INJECT) : Unarmed (s.setReg o v) :=
  h.of_reg (by rw [State.reg_setReg, if_neg ho.symm])

theorem Unarmed.bump {s : State} (h : Unarmed s) {o : Nat} (ho : o ≠ rMEM_ECC_INJECT) : Unarmed (s.bump o) := Unarmed.setReg h ho

theorem Unarmed.setF {s : State} (h : Unarmed s) {f : Fld} {n : Nat} (ho : f.off ≠ rMEM_ECC_INJECT) : Unarmed (s.setF f n) := Unarmed.setReg h ho

theorem Unarmed.injectArmed {s : State} (h : Unarmed s) (r : Nat) : s.injectArmed r = false := by
  rw [State.injectArmed, h, Bool.false_and]

theorem Unarmed.wakeNote {s : State} (h : Unarmed s) (k : Nat) : Unarmed (s.wakeNote k) := by
  unfold State.wakeNote
  split <;> exact h

theorem Unarmed.ite {c : Prop} [Decidable c] {a b : State} (h : Unarmed a) (k : Unarmed b) : Unarmed (if c then a else b) := by
  split
  · exact h
  · exact k

/-- What an armed injection would do does not happen. -/
theorem Unarmed.ite_injectArmed {u : State} (h : Unarmed u) (r : Nat) (a : State) : Unarmed (if u.injectArmed r then a else u) := by
  rw [if_neg (by rw [h.injectArmed]; decide)]
  exact h

theorem Unarmed.spoolPut {s : State} (h : Unarmed s) (kind flags src : Nat) (bs : List Byte) : Unarmed (s.spoolPut kind flags src bs) := by
  unfold State.spoolPut
  refine Unarmed.ite h (Unarmed.ite (h.bump (by decide)) ?_)
  extract_lets -merge v1 v2 v3 v4 v5 v6
  have h3 : Unarmed v3 := h
  have h5 : Unarmed v5 := h3
  exact Unarmed.ite (h3.bump (by decide)) (h5.ite_injectArmed 10 _)

theorem Unarmed.spoolEv {s : State} (h : Unarmed s) (flags seq : Nat) (e : Ev) : Unarmed (s.spoolEv flags seq e) := h.spoolPut _ _ _ _

theorem Unarmed.noteLoss {s : State} (h : Unarmed s) (p : Nat) : Unarmed (s.noteLoss p) := by
  unfold State.noteLoss
  extract_lets -merge v5 v6 v7 v8 v9
  have h5 : Unarmed v5 := (h.setF (by decide)).bump (by decide)
  have h7 : Unarmed v7 := h5
  split
  · exact h7
  · have htake : Unarmed v7.takeSeq.2 := h7.setReg (by decide)
    split
    rename_i n u hq
    rw [hq] at htake
    extract_lets -merge v24 v25 v26
    have h26 : Unarmed v26 := htake
    exact h26.spoolEv _ _ _

theorem evDrop_ne_inject (p : Nat) (h : p < 4) : rMSG_EVT_DROP p ≠ rMEM_ECC_INJECT := by
  interval_cases p <;> decide

theorem Unarmed.boxPut {s : State} (h : Unarmed s) (e : Ev) : Unarmed (s.boxPut e) := by
  unfold State.boxPut
  extract_lets -merge v1 v2 v3
  have h2 : Unarmed v2 := h
  exact h2.ite_injectArmed 10 _

theorem Unarmed.offer {s : State} (h : Unarmed s) {e : Ev} (hp : e.kind.prio < 4) : Unarmed (s.offer e) := by
  unfold State.offer
  extract_lets -merge v1
  have h1 : Unarmed v1 := Unarmed.ite (h.wakeNote 9) h
  exact Unarmed.ite (h1.boxPut e) (Unarmed.noteLoss (h1.bump (evDrop_ne_inject _ hp)) _)

theorem Unarmed.post {s : State} (h : Unarmed s) {k : EvKind} (hp : k.prio < 4) (src data : Nat) : Unarmed (s.post k src data) := by
  unfold State.post
  exact Unarmed.ite (h.offer hp) h

theorem Unarmed.postGap {s : State} (h : Unarmed s) {k : EvKind} (hp : k.prio < 4) (who gap src data : Nat) :
    Unarmed (s.postGap k who gap src data) := by
  unfold State.postGap
  exact Unarmed.ite (Unarmed.post (s := s.notePost _ _) h hp _ _) h

end Sys2Proof.Machine

/-! ## What the actions of the schedule do (R316, R319, R411): all but the start of engines -/

namespace Sys2Proof.Machine

/-- A ONCE entry's execution ends: RESULT, EXEC_COUNT, LAST, and the entry disarmed (R316). -/
def State.onceDone (a : State) (e : Nat) : State :=
  ((a.schedCounted e resEXECUTED).setRegN (rTIME_SCHED_LAST e) ((a.schedCounted e resEXECUTED).lampNs % 2 ^ 32)).schedStop e

/-- The end of an execution touches the entry and its registers alone. -/
theorem State.onceDone_only (a : State) (e : Nat) :
    OnlyRegs [rTIME_SCHED_STATUS e, rTIME_SCHED_LAST e, rTIME_SCHED_CFG e] (a.setSched e none) (a.onceDone e) := by
  have hcount := (a.schedCounted_only e resEXECUTED)
  have hlast : OnlyRegs [rTIME_SCHED_STATUS e, rTIME_SCHED_LAST e, rTIME_SCHED_CFG e] a
      ((a.schedCounted e resEXECUTED).setRegN (rTIME_SCHED_LAST e) ((a.schedCounted e resEXECUTED).lampNs % 2 ^ 32)) :=
    OnlyRegs.setRegN ⟨hcount.rest, fun off hoff => hcount.regs off (by simp at hoff ⊢; tauto)⟩ (by simp)
  have hset : OnlyRegs [rTIME_SCHED_STATUS e, rTIME_SCHED_LAST e, rTIME_SCHED_CFG e] (a.setSched e none)
      (((a.schedCounted e resEXECUTED).setRegN (rTIME_SCHED_LAST e) ((a.schedCounted e resEXECUTED).lampNs % 2 ^ 32)).setSched e none) := by
    refine ⟨?_, fun off hoff => ?_⟩
    · rw [State.setSched, hlast.rest]
      rfl
    · rw [State.setSched_reg, State.setSched_reg]
      exact hlast.regs off hoff
  exact (hset.setF (f := fTIME_SCHED_CFG_EN e) (by simp)).setF (f := fTIME_SCHED_STATUS_ARMED e) (by simp)

/-- A register outside the entry's own. -/
theorem State.onceDone_reg (a : State) (e : Fin 64) {off : Nat} (hoff : off < 0x40000 ∨ 0x50000 ≤ off) : (a.onceDone e).reg off = a.reg off := by
  refine ((a.onceDone_only e).regs off fun hin => ?_).trans (a.setSched_reg e none off)
  have hrange : 0x40000 ≤ off ∧ off < 0x50000 := by
    simp only [List.mem_cons, List.not_mem_nil, or_false] at hin
    obtain rfl | rfl | rfl := hin
    · obtain ⟨-, -, -, -, -, -, h⟩ := schedRegs_apart e (rTIME_SCHED_STATUS e) (by simp); exact h
    · obtain ⟨-, -, -, -, -, -, h⟩ := schedRegs_apart e (rTIME_SCHED_LAST e) (by simp); exact h
    · obtain ⟨-, -, -, -, -, -, h⟩ := schedRegs_apart e (rTIME_SCHED_CFG e) (by simp); exact h
  omega

theorem State.onceDone_hl (a : State) (e n : Nat) : (a.onceDone e).hl n = a.hl n := by
  have hrest := congrArg State.health (a.onceDone_only e).rest
  simp only [State.setSched] at hrest
  simp only [State.hl, hrest]

theorem State.onceDone_lampTiming (a : State) (e : Nat) : (a.onceDone e).lampTiming = a.lampTiming := by
  have hrest := congrArg State.lampTiming (a.onceDone_only e).rest
  simpa only [State.setSched] using hrest

theorem State.onceDone_eng (a : State) (e n : Nat) : (a.onceDone e).eng n = a.eng n := by
  have hrest := congrArg State.be (a.onceDone_only e).rest
  simp only [State.setSched] at hrest
  simp only [State.eng, hrest]

theorem State.schedMatch_once {s : State} {e : Nat} {x : SchedE} (h : Due e x s) (hp : s.boot.porst = true) (hm : x.mode = sONCE) (r : SensorIn) :
    s.schedMatch e x.action r = (s.schedAct e x r).onceDone e := by
  rw [State.schedMatch_of_due h hp, State.schedAfter, if_pos hm, State.schedExec_eq, State.onceDone]

/-- A ONCE entry that matches: its action, then the end of the execution. -/
theorem does_once {c : Instr} {e : Fin 64} {s : State} {x : SchedE} {r : SensorIn} {action : Nat} {P : State → Prop} (hc : exec c s = .next (s.schedMatch e action r))
    (ha : x.action = action) (h : Due e x s) (hp : s.boot.porst = true) (hm : x.mode = sONCE) (hP : P ((s.schedAct e x r).onceDone e)) : Does c s P :=
  ⟨_, hc, by rw [← ha, State.schedMatch_once h hp hm]; exact hP⟩

/-! ### The actions one by one -/

theorem does_eventPost {e : Fin 64} {s : State} {x : SchedE} (h : Due e x s) (hp : s.boot.porst = true) (hm : x.mode = sONCE) (ha : x.action = 0)
    (hfw : s.boot.fwStarted = true) (hroom : s.outboxOf srcTIME < 4) :
    Does (.eventPost e) s (fun t => ∃ lt, t.hamper.outbox = s.hamper.outbox ++
      [(srcTIME, ⟨⟨3, x.arg.toNat % 65536, x.arg.toNat / 65536⟩, srcTIME, BitVec.ofNat 32 e, lt⟩)]) := by
  refine does_once rfl ha h hp hm ?_
  have hact : s.schedAct e x noReadings = s.post ⟨3, x.arg.toNat % 65536, x.arg.toNat / 65536⟩ srcTIME e := by
    simp only [State.schedAct, ha]
  obtain ⟨lt, hout⟩ := State.post_outbox (s := s) (k := ⟨3, x.arg.toNat % 65536, x.arg.toNat / 65536⟩) hfw (by simp) hroom e
  refine ⟨lt, ?_⟩
  rw [hact, (State.onceDone_only _ e).rest]
  exact hout

theorem State.pulse_end (s : State) {pin : Nat} (width : Nat) (hpin : pin < s.time.trgEnd.length) :
    ∃ fin, (s.pulse pin width).time.trgEnd.getD pin none = some fin ∧ s.time.now + width ≤ fin := by
  refine ⟨match s.time.trgEnd.getD pin none with | some x => max x (s.time.now + width) | none => s.time.now + width, ?_, ?_⟩
  · simp only [State.pulse, State.updTime, List.getD_eq_getElem?_getD, List.getElem?_set_self hpin, Option.getD_some] <;> rfl
  · split
    · exact Nat.le_max_right _ _
    · exact Nat.le_refl _

theorem does_trgPulse {e : Fin 64} {s : State} {x : SchedE} (h : Due e x s) (hp : s.boot.porst = true) (hm : x.mode = sONCE) (ha : x.action = 1)
    (hlen : s.time.trgEnd.length = 2) :
    Does (.trgPulse e) s (fun t => ∃ fin, t.time.trgEnd.getD (x.arg.toNat % 2) none = some fin
      ∧ s.time.now + x.arg.toNat / 256 ≤ fin ∧ t.mem = s.mem) := by
  refine does_once rfl ha h hp hm ?_
  have hact : s.schedAct e x noReadings = s.pulse (x.arg.toNat % 2) (x.arg.toNat / 256) := by simp only [State.schedAct, ha]
  obtain ⟨fin, hend, hle⟩ := s.pulse_end (pin := x.arg.toNat % 2) (x.arg.toNat / 256) (by omega)
  refine ⟨fin, ?_, hle, ?_⟩
  · rw [hact, (State.onceDone_only _ e).rest]
    exact hend
  · rw [hact, (State.onceDone_only _ e).rest]
    rfl

theorem does_slotFire {e : Fin 64} {s : State} {x : SchedE} (h : Due e x s) (hp : s.boot.porst = true) (hm : x.mode = sONCE) (ha : x.action = 2)
    (hgate : (s.regN rTIME_SLOT_GATE).testBit x.arg.toNat = true) :
    Does (.slotFire e) s (fun t => x.arg.toNat ∈ t.lampTiming.armed ∧ ∀ k ∈ s.lampTiming.armed, k ∈ t.lampTiming.armed) := by
  refine does_once rfl ha h hp hm ?_
  have hact : s.schedAct e x noReadings = { s with lampTiming := { s.lampTiming with
      armed := if x.arg.toNat ∈ s.lampTiming.armed then s.lampTiming.armed else s.lampTiming.armed ++ [x.arg.toNat] } } := by
    rw [State.schedAct, ha]
    exact if_pos hgate
  rw [hact, State.onceDone_lampTiming]
  change x.arg.toNat ∈ (if x.arg.toNat ∈ s.lampTiming.armed then s.lampTiming.armed else s.lampTiming.armed ++ [x.arg.toNat]) ∧ ∀ k ∈ s.lampTiming.armed, k ∈ (if x.arg.toNat ∈ s.lampTiming.armed then s.lampTiming.armed else s.lampTiming.armed ++ [x.arg.toNat])
  by_cases hin : x.arg.toNat ∈ s.lampTiming.armed
  · rw [if_pos hin]; exact ⟨hin, fun k hk => hk⟩
  · rw [if_neg hin]; exact ⟨by simp, fun k hk => by simp [hk]⟩

/-- One tile's part of SWEEP_START (R316). -/
def State.sweepOne (s : State) (n : Nat) : State :=
  if s.isF (fTG_SENSE_CFG_EN n) = false ∧ (s.hl n).oneSweep = false ∧ s.getF (fTG_SENSE_CFG_CHUNK n) = 0 then s.updHl n (fun h => { h with oneSweep := true })
  else s

theorem State.sweepOne_reg (s : State) (n off : Nat) : (s.sweepOne n).reg off = s.reg off := by
  unfold State.sweepOne
  split <;> rfl

theorem State.sweepOne_hl (s : State) (n k : Nat) (h : k = n ∧ s.isF (fTG_SENSE_CFG_EN n) = false ∧ s.getF (fTG_SENSE_CFG_CHUNK n) = 0 ∨ (s.hl k).oneSweep = true) :
    ((s.sweepOne n).hl k).oneSweep = true := by
  unfold State.sweepOne
  split
  · rw [State.updHl, State.hl_setHl]
    split
    · rfl
    · exact h.resolve_left fun hk => absurd hk.1 ‹_›
  · rename_i hno
    obtain ⟨rfl, hen, hchunk⟩ | hset := h
    · by_contra hclear
      exact hno ⟨hen, by simpa using hclear, hchunk⟩
    · exact hset

/-- The sweep of a tile that the mask names and that senses nothing else is started, and stays so. -/
theorem foldl_sweepOne_hl (l : List Nat) {k : Nat} : ∀ s : State, s.isF (fTG_SENSE_CFG_EN k) = false → s.getF (fTG_SENSE_CFG_CHUNK k) = 0 →
    (k ∈ l ∨ (s.hl k).oneSweep = true) → ((l.foldl State.sweepOne s).hl k).oneSweep = true := by
  induction l with
  | nil => exact fun s _ _ h => h.resolve_left (by simp)
  | cons n l ih =>
    intro s hen hchunk h
    refine ih (s.sweepOne n) ?_ ?_ ?_
    · rw [State.isF, State.getF_congr (s.sweepOne_reg n _)]; exact hen
    · rw [State.getF_congr (s.sweepOne_reg n _)]; exact hchunk
    · obtain hin | hset := h
      · obtain rfl | hin := List.mem_cons.1 hin
        · exact .inr (s.sweepOne_hl k k (.inl ⟨rfl, hen, hchunk⟩))
        · exact .inl hin
      · exact Or.inr (s.sweepOne_hl n k (Or.inr hset))

theorem does_sweepStart {e : Fin 64} {s : State} {x : SchedE} (h : Due e x s) (hp : s.boot.porst = true) (hm : x.mode = sONCE) (ha : x.action = 3)
    {n : Nat} (hn : n < s.tiles) (hbit : x.arg.toNat.testBit n = true) (hen : s.isF (fTG_SENSE_CFG_EN n) = false) (hchunk : s.getF (fTG_SENSE_CFG_CHUNK n) = 0) :
    Does (.sweepStart e) s (fun t => (t.hl n).oneSweep = true) := by
  refine does_once rfl ha h hp hm ?_
  have hact : s.schedAct e x noReadings = ((List.range s.tiles).filter (fun n => x.arg.toNat.testBit n)).foldl State.sweepOne s := by
    rw [State.schedAct, ha]
    rfl
  rw [hact, State.onceDone_hl]
  exact foldl_sweepOne_hl _ s hen hchunk (.inl (List.mem_filter.2 ⟨List.mem_range.2 hn, hbit⟩))

/-- The supply monitors of a conversion, from number `i` on. -/
theorem foldl_supply_regN (l : List Nat) {k v : Nat} : ∀ (i : Nat) (s : State), (i ≤ k → l[k - i]? = some v) → (k < i → s.regN (rHK_SUPPLY k) = v % 65536) →
    ((l.zipIdx i).foldl (fun s q => s.setRegN (rHK_SUPPLY q.2) (q.1 % 65536)) s).regN (rHK_SUPPLY k) = v % 65536 := by
  induction l with
  | nil => exact fun i s hl hs => hs (Nat.lt_of_not_le fun hik => by simp at hl; omega)
  | cons w l ih =>
    intro i s hl hs
    refine ih (i + 1) _ (fun hik => ?_) (fun hki => ?_)
    · have := hl (by omega)
      rwa [show k - i = k - (i + 1) + 1 by omega, List.getElem?_cons_succ] at this
    · dsimp only
      obtain rfl | hlt := Nat.eq_or_lt_of_le (Nat.le_of_lt_succ hki)
      · have hw : w = v := by simpa using hl (Nat.le_refl _)
        rw [State.regN_setRegN, if_pos rfl, hw]
        omega
      · rw [State.regN_setRegN, if_neg (by unfold rHK_SUPPLY; omega)]
        exact hs hlt

theorem does_hkConvert_supply {e : Fin 64} {s : State} {x : SchedE} (h : Due e x s) (hp : s.boot.porst = true) (hm : x.mode = sONCE) (ha : x.action = 4)
    (hg : x.arg.toNat = 1) (hsched : s.isF fHK_ROUND_CFG_SCHED = true) (hon : s.hkOn = true) (r : SensorIn) :
    Does (.hkConvert e r) s (fun t => (∀ k v, k < 16 → r.supply[k]? = some v → t.regN (rHK_SUPPLY k) = v % 65536)
      ∧ t.getF (fTIME_SCHED_STATUS_RESULT e) = 1 ∧ t.schedOf e = none) := by
  obtain ⟨⟨hres, -, -, hset⟩, -⟩ := matched_once h hp hm r
  refine ⟨s.schedMatch e x.action r, by rw [ha]; rfl, fun k v hk hv => ?_, hres, hset.self⟩
  have hact : s.schedAct e x r = s.convertSupply r.supply := by
    rw [State.schedAct, ha, hg]
    exact if_neg (by rw [hsched, hon]; decide)
  have hsup : rHK_SUPPLY k < 0x40000 := by unfold rHK_SUPPLY; omega
  rw [State.schedMatch_once h hp hm, hact, State.regN, State.onceDone_reg _ _ (.inl hsup)]
  exact foldl_supply_regN (r.supply.take 16) 0 s (fun _ => by rw [Nat.sub_zero, List.getElem?_take, if_pos hk]; exact hv) (by omega)

theorem does_framePhase {e : Fin 64} {s : State} {x : SchedE} (h : Due e x s) (hp : s.boot.porst = true) (hm : x.mode = sONCE) (ha : x.action = 5)
    (harg : x.arg.toNat = 0) (hok : s.timingBad ((s.stagedSet 7 false).set s.timing.lead) = 0) :
    Does (.framePhase e) s (fun t => t.lampTiming.staged = some (s.stagedSet 7 false) ∧ t.getF (fTG_TIMING_STATUS_STATE 0) = 1) := by
  refine does_once rfl ha h hp hm ?_
  generalize hu : (({ s with lampTiming := { s.lampTiming with staged := some (s.stagedSet 7 false) } } : State).setF (fTG_TIMING_STATUS_STATE 0) 1).setF (fTG_TIMING_STATUS_REASON 0) 0 = u
  have hact : s.schedAct e x noReadings = (List.range 4).foldl (fun s n => s.setF (fTG_STATUS_STAGED_PENDING n) 1) u := by
    rw [State.schedAct, ha, harg, ← hu]
    change s.timingCommit 7 = _
    unfold State.timingCommit
    rw [if_neg (by decide)]
    exact if_neg (fun hne => hne hok)
  have hmarks : OnlyRegs ((List.range 4).map rTG_STATUS) u ((List.range 4).foldl (fun s n => s.setF (fTG_STATUS_STAGED_PENDING n) 1) u) := by
    rw [show List.range 4 = [0, 1, 2, 3] from rfl]
    exact ((((OnlyRegs.refl _ u).setF (by decide)).setF (by decide)).setF (by decide)).setF (by decide)
  have hstate : u.getF (fTG_TIMING_STATUS_STATE 0) = 1 := by
    rw [← hu, State.getF_setF_other _ _ _ _ (by decide) (.inr (by decide)), State.getF_setF _ _ _ (by decide)]
    rfl
  have hstaged : u.lampTiming.staged = some (s.stagedSet 7 false) := by rw [← hu]; rfl
  rw [hact]
  refine ⟨?_, ?_⟩
  · rw [State.onceDone_lampTiming, hmarks.rest]
    exact hstaged
  · rw [State.getF_congr (State.onceDone_reg _ e (by decide)), State.getF_congr (hmarks.regs _ (by decide)), hstate]

/-- Noting a wake source, away from RUN (R403). -/
theorem State.wakeNote_away {s : State} (h : ¬(s.getF fPWR_PWR_STATUS_CURRENT = 0 ∧ s.getF fPWR_PWR_STATUS_TARGET = 0xF)) (k : Nat) :
    s.wakeNote k = { s with wakeDue := if k ∈ s.wakeDue then s.wakeDue else s.wakeDue ++ [k] } := by
  rw [State.wakeNote, if_neg h]
  simp only [List.contains_iff_mem]

/-- PWR_WAKE in RUN, and away from it at and before its wake point (R411). -/
theorem does_pwrWake {e : Fin 64} {s : State} {x : SchedE} (hs : s.schedOf e = some x) (hdue : s.asleep = false → Due e x s) (hp : s.boot.porst = true)
    (hm : x.mode = sONCE) (ha : x.action = 7) :
    (s.asleep = false →
        Does (.pwrWake e) s (fun t => t.getF (fTIME_SCHED_STATUS_RESULT e) = 1 ∧ t.schedOf e = none ∧ t.wakeDue = s.wakeDue))
      ∧ (s.asleep = true → s.wakePointCome x.target = true →
        Does (.pwrWake e) s (fun t => t = { s with wakeDue := if 3 ∈ s.wakeDue then s.wakeDue else s.wakeDue ++ [3] }))
      ∧ (s.asleep = true → s.wakePointCome x.target = false → Does (.pwrWake e) s (fun t => t = s)) := by
  have hx : exec (.pwrWake e) s = .next (s.pwrWake e) := rfl
  have hwake : s.asleep = true → s.pwrWake e = if s.boot.porst = true ∧ s.wakePointCome x.target = true then s.wakeNote 3 else s := by
    intro hasleep
    simp only [State.pwrWake, hs]
    rw [if_neg (by simp [ha]), if_neg (by simp [hasleep])]
  refine ⟨fun hawake => ?_, fun hasleep hcome => ?_, fun hasleep hcome => ?_⟩
  · obtain ⟨⟨hres, -, -, hset⟩, -⟩ := matched_once (hdue hawake) hp hm noReadings
    have hmatch : s.pwrWake e = s.schedMatch e x.action noReadings := by
      simp only [State.pwrWake, hs]
      rw [if_neg (by simp [ha]), if_pos hawake, ha]
    refine ⟨_, hmatch ▸ hx, hres, hset.self, ?_⟩
    have hact : s.schedAct e x noReadings = s := by simp only [State.schedAct, ha]
    rw [State.schedMatch_once (hdue hawake) hp hm, hact, (State.onceDone_only _ e).rest]
    rfl
  · rw [hwake hasleep, if_pos ⟨hp, hcome⟩] at hx
    refine ⟨_, hx, ?_⟩
    have haway : ¬(s.getF fPWR_PWR_STATUS_CURRENT = 0 ∧ s.getF fPWR_PWR_STATUS_TARGET = 0xF) := fun hrun => by
      rw [State.asleep, hrun.1, hrun.2] at hasleep
      exact absurd hasleep (by decide)
    exact State.wakeNote_away haway 3
  · rw [hwake hasleep, if_neg (by simp [hcome])] at hx
    exact ⟨_, hx, rfl⟩

end Sys2Proof.Machine

/-! ## Starting other engines leaves an engine alone (R99, R104), and SchedActions -/

namespace Sys2Proof.Machine

/-- The registers from which a trigger of engine `n` is answered. -/
def triggerRegs (n : Nat) : List Nat := [rBE_STATUS n, rBE_JOB_TRIG n, rBE_ENTRY_PC n, rPWR_PWR_STATUS]

/-- Engine `n` and what its triggers go by are as before, and memory is as clean as before. -/
structure Aloof (n : Nat) (s t : State) : Prop where
  eng : t.eng n = s.eng n
  regs : ∀ off ∈ triggerRegs n, t.reg off = s.reg off
  clean : Clean s → Clean t

theorem Aloof.refl (n : Nat) (s : State) : Aloof n s s := ⟨rfl, fun _ _ => rfl, id⟩

theorem Aloof.trans {n : Nat} {s t u : State} (h : Aloof n s t) (k : Aloof n t u) : Aloof n s u :=
  ⟨k.eng.trans h.eng, fun off ho => (k.regs off ho).trans (h.regs off ho), fun hc => k.clean (h.clean hc)⟩

/-- A register of another engine, or of none. -/
def OtherEngine (n off : Nat) : Prop := off ∉ triggerRegs n ∧ off ≠ rMEM_ECC_INJECT

theorem otherEngine_of_be {n k : Nat} (hk : k < 16) (hne : k ≠ n) {off : Nat} (ho : off - 0x1000 * k ∈ [rBE_STATUS 0, rBE_JOB_TRIG 0, rBE_ENTRY_PC 0, rBE_FLAGS 0, rBE_TRIG_OVERRUN_COUNT 0]) :
    OtherEngine n off := by
  simp only [List.mem_cons, List.not_mem_nil, or_false] at ho
  simp only [OtherEngine, triggerRegs, List.mem_cons, List.not_mem_nil, or_false]
  unfold rBE_STATUS rBE_JOB_TRIG rBE_ENTRY_PC rBE_FLAGS rBE_TRIG_OVERRUN_COUNT rPWR_PWR_STATUS rMEM_ECC_INJECT at *
  omega

theorem otherEngine_status {n k : Nat} (hk : k < 16) (hne : k ≠ n) : OtherEngine n (rBE_STATUS k) :=
  otherEngine_of_be hk hne (by rw [show rBE_STATUS k - 0x1000 * k = rBE_STATUS 0 by unfold rBE_STATUS; omega]; decide)

theorem otherEngine_top {n off : Nat} (h : off < 0x20000) : OtherEngine n off := by
  simp only [OtherEngine, triggerRegs, List.mem_cons, List.not_mem_nil, or_false]
  unfold rBE_STATUS rBE_JOB_TRIG rBE_ENTRY_PC rPWR_PWR_STATUS rMEM_ECC_INJECT
  omega

section
variable {n : Nat} {s u : State}

theorem Aloof.setReg (h : Aloof n s u) {off : Nat} {v : Word} (ho : OtherEngine n off) : Aloof n s (u.setReg off v) := by
  obtain ⟨hregs, hinject⟩ := ho
  refine ⟨h.eng, fun o hin => ?_, fun hc => ⟨(h.clean hc).1, Unarmed.setReg (h.clean hc).2 hinject⟩⟩
  rw [State.reg_setReg, if_neg (fun e : o = off => hregs (e ▸ hin)), h.regs o hin]

theorem Aloof.setF (h : Aloof n s u) {f : Fld} {v : Nat} (ho : OtherEngine n f.off) : Aloof n s (u.setF f v) := h.setReg ho

theorem Aloof.setEng (h : Aloof n s u) {k : Nat} (hne : k ≠ n) (g : Engine) : Aloof n s (u.setEng k g) :=
  ⟨by rw [State.eng_setEng, if_neg (Ne.symm hne), h.eng], h.regs, h.clean⟩

theorem Aloof.updEng (h : Aloof n s u) {k : Nat} (hne : k ≠ n) (F : Engine → Engine) : Aloof n s (u.updEng k F) := h.setEng hne _

/-- An update that an engine's triggers do not go by. -/
theorem Aloof.same (h : Aloof n s u) {t : State} (hbe : t.be = u.be) (hregs : t.regs = u.regs) (hecc : t.ecc = u.ecc) : Aloof n s t := by
  have hreg : ∀ off, t.reg off = u.reg off := fun off => by rw [State.reg, hregs, State.reg]
  refine ⟨by rw [State.eng, hbe]; exact h.eng, fun off ho => (hreg off).trans (h.regs off ho), fun hc => ⟨by rw [hecc]; exact (h.clean hc).1, ?_⟩⟩
  exact Unarmed.of_reg (h.clean hc).2 (hreg _)

theorem evRegs_not_trigger : ∀ off ∈ evRegs, off ∉ triggerRegs n := by
  intro off ho hin
  simp only [triggerRegs, List.mem_cons, List.not_mem_nil, or_false] at hin
  have hlow : ∀ o ∈ evRegs, o ≠ rPWR_PWR_STATUS ∧ (o < 0x240000 ∨ 0x300000 ≤ o ∧ o % 0x1000 ≠ 4 ∧ o % 0x1000 ≠ 0x14 ∧ o % 0x1000 ≠ 0x18) := by decide
  obtain ⟨hpwr, hrange⟩ := hlow off ho
  unfold rBE_STATUS rBE_JOB_TRIG rBE_ENTRY_PC at hin
  omega

/-- Quiet changes, as of posted events, that leave no injection armed. -/
theorem Aloof.quiet (h : Aloof n s u) {t : State} (q : Quiet [] u t) (harm : Unarmed u → Unarmed t) : Aloof n s t := by
  refine ⟨?_, fun off ho => ?_, fun hc => ⟨?_, harm (h.clean hc).2⟩⟩
  · rw [State.eng, q.rest]
    exact h.eng
  · rw [q.regs off (by simp) (fun hev => evRegs_not_trigger off hev ho), h.regs off ho]
  · rw [q.rest]
    exact (h.clean hc).1

theorem Aloof.post (h : Aloof n s u) {k : EvKind} (hp : k.prio < 4) (src data : Nat) : Aloof n s (u.post k src data) :=
  h.quiet ((Quiet.refl _ u).post hp) fun ha => ha.post hp _ _

theorem Aloof.wakeNote (h : Aloof n s u) (k : Nat) : Aloof n s (u.wakeNote k) :=
  h.quiet (Quiet.refl _ u).wakeNote fun ha => ha.wakeNote _

theorem Aloof.busErr (h : Aloof n s u) (a : Nat) : Aloof n s (u.busErr a) :=
  (((h.setF (f := fTOP_BUS_ERR_STATUS_SYS_MAP) (otherEngine_top (by decide))).setReg (otherEngine_top (by decide))).setReg
    (otherEngine_top (by decide))).post (by decide) _ _

theorem Aloof.putDram (h : Aloof n s u) (hc : Clean u) (a : Nat) (bs : List Byte) : Aloof n s (u.putDram a bs) := by
  unfold State.putDram
  split
  · rw [State.writeMem_of_clean hc]
    exact h.same rfl rfl rfl
  · exact h.busErr _

theorem Aloof.loadImages (h : Aloof n s u) (hc : Clean s) (k : Nat) (p : BeprogC) : Aloof n s (u.loadImages k p) := by
  have hfirst : Aloof n s (u.putDram (u.copyBase k) (imageBytes p)) := h.putDram (h.clean hc) _ _
  have hcopy : Aloof n s (u.putCopy k (imageBytes p) p.data) := hfirst.putDram (hfirst.clean hc) _ _
  rw [State.loadImages, State.putImages_of_clean (hcopy.clean hc)]
  exact hcopy.same rfl rfl rfl

theorem Aloof.takeUpdate (h : Aloof n s u) (hc : Clean s) {k : Nat} (hk : k < 16) (hne : k ≠ n) : Aloof n s (u.takeUpdate k) := by
  unfold State.takeUpdate
  split
  · exact h
  · rename_i p hp
    have hset : ∀ g, Aloof n s ((u.dropProg k).setEng k g) := Aloof.setEng (u := u.dropProg k) (h.same rfl rfl rfl) hne
    exact ((((hset _).loadImages hc k p).setReg (otherEngine_of_be (off := rBE_ENTRY_PC k) hk hne (by rw [show rBE_ENTRY_PC k - 0x1000 * k = rBE_ENTRY_PC 0 by unfold rBE_ENTRY_PC; omega]; decide))).setReg
      (otherEngine_of_be (off := rBE_JOB_TRIG k) hk hne (by rw [show rBE_JOB_TRIG k - 0x1000 * k = rBE_JOB_TRIG 0 by unfold rBE_JOB_TRIG; omega]; decide))).post (by decide) _ _

theorem Aloof.jobTake (h : Aloof n s u) (hc : Clean s) {k : Nat} (hne : k ≠ n) : Aloof n s (u.jobTake k).2 := by
  have hsynd := (h.clean hc).1
  cases hp : (u.eng k).prog with
  | none => simpa only [State.jobTake, hp] using h
  | some p =>
    by_cases hkind : p.kind = .user
    · simpa only [State.jobTake, hp, hkind, if_true] using h
    · simp only [State.jobTake, hp, if_neg hkind]
      erw [State.foldl_slotCheck hsynd]
      exact h.updEng hne _

theorem Aloof.sentTo (h : Aloof n s u) {k : Nat} (hk : k < 16) (hne : k ≠ n) (st : Nat) : Aloof n s (u.sentTo k st) :=
  ((h.setF (f := fBE_STATUS_STATE k) (otherEngine_status hk hne)).setF (f := fBE_STATUS_WAIT_ON k) (otherEngine_status hk hne)).setF
    (f := fBE_STATUS_TRIG_PENDING k) (otherEngine_status hk hne)

end

/-- A job that a schedule entry triggers, its engine's memory clean: the engine is sent to RUN (R99). -/
theorem State.startJob_sched {v : State} {n lt : Nat} (hs : (v.takeUpdate n).ecc.synd = []) :
    v.startJob n 1 lt = State.sentTo (((v.takeUpdate n).updEng n (Engine.startAt ((v.takeUpdate n).regN (rBE_ENTRY_PC n) % 8192) 1
      (v.takeUpdate n).time.now lt (v.takeUpdate n).lampNs (v.takeUpdate n).lampTiming.frame
      (BitVec.ofNat 32 ((v.takeUpdate n).getF (fBE_JOB_TRIG_SCHED_ENTRY n))))).jobTake n).2 n beRUN := by
  unfold State.startJob
  generalize v.takeUpdate n = w at hs
  generalize hx : w.updEng n (Engine.startAt (w.regN (rBE_ENTRY_PC n) % 8192) 1 w.time.now lt w.lampNs w.lampTiming.frame
    (BitVec.ofNat 32 (w.getF (fBE_JOB_TRIG_SCHED_ENTRY n)))) = x
  have hok : (x.jobTake n).1 = false := (State.jobTake_of_clean (s := x) (hx ▸ hs) n).ok
  have heq : ∀ q : Bool × State, q = x.jobTake n → (if q.1 = true then (q.2.sentTo n beRUN).engineTrap n 6 else q.2.sentTo n beRUN) = (x.jobTake n).2.sentTo n beRUN := by
    rintro q rfl
    rw [if_neg (by rw [hok]; decide)]
  exact heq _ (by rw [← hx]; rfl)

theorem Aloof.startJob {n : Nat} {s u : State} (h : Aloof n s u) (hc : Clean s) {k : Nat} (hk : k < 16) (hne : k ≠ n) (lt : Nat) :
    Aloof n s (u.startJob k 1 lt) := by
  have htake := h.takeUpdate hc hk hne
  rw [State.startJob_sched (htake.clean hc).1]
  exact (Aloof.jobTake (htake.updEng hne _) hc hne).sentTo hk hne _

theorem Aloof.trigger {n : Nat} {s u : State} (h : Aloof n s u) (hc : Clean s) {k : Nat} (hk : k < 16) (hne : k ≠ n) : Aloof n s (u.trigger k 1) := by
  have hflags : OtherEngine n (rBE_FLAGS k) := otherEngine_of_be hk hne (by rw [show rBE_FLAGS k - 0x1000 * k = rBE_FLAGS 0 by unfold rBE_FLAGS; omega]; decide)
  have hover : OtherEngine n (rBE_TRIG_OVERRUN_COUNT k) :=
    otherEngine_of_be hk hne (by rw [show rBE_TRIG_OVERRUN_COUNT k - 0x1000 * k = rBE_TRIG_OVERRUN_COUNT 0 by unfold rBE_TRIG_OVERRUN_COUNT; omega]; decide)
  unfold State.trigger
  extract_lets -merge st v
  split
  · exact h.startJob hc hk hne _
  split
  · split
    · have hraise : Aloof n s (u.raise (fBE_FLAGS_TRIG_OVERRUN k) (rBE_TRIG_OVERRUN_COUNT k)) :=
        (h.setF (f := fBE_FLAGS_TRIG_OVERRUN k) hflags).setReg hover
      exact hraise.quiet ((Quiet.refl _ _).postGap (by decide)) fun ha => ha.postGap (by decide) _ _ _ _
    · have hpend : Aloof n s v := Aloof.setF (f := fBE_STATUS_TRIG_PENDING k) (h.updEng hne _) (otherEngine_status hk hne)
      split
      · exact hpend.wakeNote _
      · exact hpend
  · exact h

/-! ### BE_WAKE -/

/-- Engine `n` runs the job that schedule entry `e` started. -/
structure Woken (e n : Nat) (t : State) : Prop where
  state : t.beState n = beRUN
  src : (t.eng n).jobSrc = 1
  arg : (t.eng n).jobArg = BitVec.ofNat 32 e

theorem Woken.aloof {e n : Nat} {s t : State} (h : Woken e n s) (a : Aloof n s t) : Woken e n t :=
  ⟨by rw [State.beState, State.getF_congr (a.regs (rBE_STATUS n) (by simp [triggerRegs]))]; exact h.state, by rw [a.eng]; exact h.src, by rw [a.eng]; exact h.arg⟩

theorem State.jobTake_arg {s : State} (hs : s.ecc.synd = []) (n : Nat) : ((s.jobTake n).2.eng n).jobArg = (s.eng n).jobArg := by
  cases hp : (s.eng n).prog with
  | none => simp only [State.jobTake, hp]
  | some p =>
    by_cases hkind : p.kind = .user
    · simp only [State.jobTake, hp, hkind, if_true]
    · simp only [State.jobTake, hp, if_neg hkind]
      erw [State.foldl_slotCheck hs]
      rw [State.eng_updEng_same]

theorem woken_trigger {e n : Nat} {s : State} (hc : Clean s) (hentry : s.getF (fBE_JOB_TRIG_SCHED_ENTRY n) = e) (hst : s.beState n = beIDLE)
    (hgate : s.beGated = false) (hnext : (s.eng n).next = none) : Woken e n (s.trigger n 1) := by
  have hupdate : s.takeUpdate n = s := by simp only [State.takeUpdate, hnext]
  have hjob := jobStarted_startJob hc.1 hnext 1 s.lampNs
  rw [State.trigger]
  dsimp only
  rw [if_pos ⟨hst, hgate⟩]
  refine ⟨hjob.state, hjob.src, ?_⟩
  rw [State.startJob_sched (by rw [hupdate]; exact hc.1), hupdate, (State.sentTo_only _ n beRUN).eng, State.jobTake_arg (show (s.updEng n _).ecc.synd = [] from hc.1), State.eng_updEng_same, Engine.startAt, hentry]

/-- One engine's part of BE_WAKE (R316). -/
def State.wakeOne (e : Nat) (s : State) (k : Nat) : State :=
  if s.getF (fBE_JOB_TRIG_SRC k) = 1 ∧ s.getF (fBE_JOB_TRIG_SCHED_ENTRY k) = e then s.trigger k 1 else s

theorem Aloof.foldl_wakeOne {e n : Nat} {s : State} (hc : Clean s) (l : List Nat) : ∀ u, Aloof n s u → (∀ k ∈ l, k < 16 ∧ k ≠ n) → Aloof n s (l.foldl (State.wakeOne e) u) := by
  induction l with
  | nil => exact fun u h _ => h
  | cons k l ih =>
    intro u h hl
    obtain ⟨hk, hne⟩ := hl k (by simp)
    refine ih _ ?_ fun j hj => hl j (by simp [hj])
    unfold State.wakeOne
    split
    · exact h.trigger hc hk hne
    · exact h

theorem range_split {n : Nat} (hn : n < 16) : ∃ a b, List.range 16 = a ++ n :: b ∧ (∀ k ∈ a, k < 16 ∧ k ≠ n) ∧ ∀ k ∈ b, k < 16 ∧ k ≠ n := by
  obtain ⟨a, b, heq⟩ := List.append_of_mem (List.mem_range.2 hn)
  have hnodup : (a ++ n :: b).Nodup := heq ▸ List.nodup_range
  have hlt : ∀ k ∈ a ++ n :: b, k < 16 := fun k hk => List.mem_range.1 (heq ▸ hk)
  rw [List.nodup_middle, List.nodup_cons, List.mem_append, not_or] at hnodup
  exact ⟨a, b, heq, fun k hk => ⟨hlt k (by simp [hk]), fun e => hnodup.1.1 (e ▸ hk)⟩, fun k hk => ⟨hlt k (by simp [hk]), fun e => hnodup.1.2 (e ▸ hk)⟩⟩

theorem woken_all {e n : Nat} {s : State} (hc : Clean s) (hn : n < 16) (hsrc : s.getF (fBE_JOB_TRIG_SRC n) = 1)
    (hentry : s.getF (fBE_JOB_TRIG_SCHED_ENTRY n) = e) (hst : s.beState n = beIDLE) (hgate : s.beGated = false) (hnext : (s.eng n).next = none) :
    Woken e n ((List.range 16).foldl (State.wakeOne e) s) := by
  obtain ⟨a, b, hsplit, ha, hb⟩ := range_split hn
  rw [hsplit, List.foldl_append, List.foldl_cons]
  have h := Aloof.foldl_wakeOne (e := e) hc a s (.refl n s) ha
  generalize a.foldl (State.wakeOne e) s = u at h
  have hreg : ∀ f : Fld, f.off ∈ triggerRegs n → u.getF f = s.getF f := fun f hf => State.getF_congr (h.regs f.off hf)
  have hwoken : Woken e n (u.wakeOne e n) := by
    rw [State.wakeOne, if_pos ⟨by rw [hreg _ (by simp [triggerRegs])]; exact hsrc, by rw [hreg _ (by simp [triggerRegs])]; exact hentry⟩]
    refine woken_trigger (h.clean hc) ?_ ?_ ?_ (by rw [h.eng]; exact hnext)
    · rw [hreg _ (by simp [triggerRegs])]; exact hentry
    · rw [State.beState, hreg _ (by simp [triggerRegs])]; exact hst
    · rw [State.beGated, hreg _ (by simp [triggerRegs])]; exact hgate
  generalize hw : u.wakeOne e n = w at hwoken
  have hcw : Clean w := by
    rw [← hw, State.wakeOne]
    split
    · exact ((Aloof.refl 16 u).trigger (h.clean hc) hn (by omega)).clean (h.clean hc)
    · exact h.clean hc
  exact hwoken.aloof (Aloof.foldl_wakeOne hcw b w (.refl n w) hb)

theorem does_beWake {e : Fin 64} {s : State} {x : SchedE} (h : Due e x s) (hp : s.boot.porst = true) (hm : x.mode = sONCE) (ha : x.action = 6)
    (hc : Clean s) {n : Nat} (hn : n < 16) (hsrc : s.getF (fBE_JOB_TRIG_SRC n) = 1) (hentry : s.getF (fBE_JOB_TRIG_SCHED_ENTRY n) = e.val)
    (hst : s.beState n = beIDLE) (hgate : s.beGated = false) (hnext : (s.eng n).next = none) :
    Does (.beWake e) s (fun t => t.beState n = beRUN ∧ (t.eng n).jobSrc = 1 ∧ (t.eng n).jobArg = BitVec.ofNat 32 e) := by
  refine does_once rfl ha h hp hm ?_
  have hact : s.schedAct e x noReadings = (List.range 16).foldl (State.wakeOne e) s := by
    simp only [State.schedAct, ha]
    rfl
  obtain ⟨hstate, hsrc', harg⟩ := woken_all hc hn hsrc hentry hst hgate hnext
  rw [hact]
  refine ⟨?_, by rw [State.onceDone_eng]; exact hsrc', by rw [State.onceDone_eng]; exact harg⟩
  rw [State.beState, State.getF_congr (State.onceDone_reg _ e (.inr (by simp only [rBE_STATUS]; omega)))]
  exact hstate

/-- Settles O33: the actions of a ONCE entry, each by what its own operation does; the end of the execution touches the entry alone. -/
theorem schedActions : Obligations.SchedActions := by
  unfold Obligations.SchedActions
  intro e s x hx hm hp hdue
  have hd : x.action ≠ 7 ∨ s.asleep = false → Due e x s := fun h => ⟨hx, (hdue h).1, (hdue h).2⟩
  refine ⟨fun ha => does_eventPost (hd (.inl (by omega))) hp hm ha, fun ha => does_trgPulse (hd (.inl (by omega))) hp hm ha,
    fun ha _ hgate => does_slotFire (hd (.inl (by omega))) hp hm ha hgate, fun ha n hn hb => does_sweepStart (hd (.inl (by omega))) hp hm ha hn hb,
    fun ha hg hs ho r => does_hkConvert_supply (hd (.inl (by omega))) hp hm ha hg hs ho r,
    fun ha hg hok => does_framePhase (hd (.inl (by omega))) hp hm ha hg hok,
    fun ha hc n hn h1 h2 h3 h4 h5 => does_beWake (hd (.inl (by omega))) hp hm ha hc hn h1 h2 h3 h4 h5,
    fun ha => does_pwrWake hx (fun h => hd (.inr h)) hp hm ha⟩

end Sys2Proof.Machine

/-! ## Trigger pulses and capture stamps (R319, R320) -/

namespace Sys2Proof.Machine

theorem capRegs_apart : ∀ p : Fin 2, rTIME_CAP_DEPTH p ∉ evRegs ∧ rTIME_CAP_TS_LO p ≠ rTIME_CAP_DEPTH p := by decide

theorem does_trgPulseEnd {p : Fin 2} {s : State} {fin : Nat} (hlen : s.time.trgEnd.length = 2) (hp : s.time.trgEnd.getD p none = some fin) :
    (fin ≤ s.time.now → Does (.trgPulseEnd p) s (fun t => t.time.trgEnd.getD p none = none
      ∧ t = { s with time := { s.time with trgEnd := t.time.trgEnd } }))
    ∧ (s.time.now < fin → Does (.trgPulseEnd p) s (fun t => t = s)) := by
  have hx : exec (.trgPulseEnd p) s = .next (s.pulseEnd p) := rfl
  simp only [State.pulseEnd, hp] at hx
  refine ⟨fun hpast => ?_, fun hyet => ?_⟩
  · rw [if_pos hpast] at hx
    refine ⟨_, hx, ?_, rfl⟩
    have hin : p.val < s.time.trgEnd.length := by omega
    simp only [State.updTime, List.getD_eq_getElem?_getD, List.getElem?_set_self hin, Option.getD_some]
  · rw [if_neg (by omega)] at hx
    exact ⟨_, hx, rfl⟩

/-- The edge's stamp is the latest on its pin. -/
def State.capStamped (s : State) (p : Nat) : State := s.updTime (fun t => { t with capLast := t.capLast.set p (some t.frc) })

theorem State.capStamped_last (s : State) {p : Nat} (hp : p < s.time.capLast.length) :
    (s.capStamped p).time.capLast.getD p none = some s.time.frc := by
  simp only [State.capStamped, State.updTime, List.getD_eq_getElem?_getD, List.getElem?_set_self hp, Option.getD_some]

theorem State.capStamped_lampNs (s : State) (p : Nat) : (s.capStamped p).lampNs = s.lampNs := by
  rw [State.lampNs, State.lampFine_of_parts (s := s) (t := s.capStamped p) rfl rfl rfl rfl rfl, State.lampNs]

/-- The edge's stamp in the queue, and the depth that shows it. -/
def State.capQueued (s : State) (p : Nat) (rising : Bool) : State :=
  ((s.capStamped p).updTime (fun t => { t with
    capQ := t.capQ.set p (s.time.capQ.getD p [] ++ [(rising, s.lampNs % 2 ^ 62)]) })).setRegN (rTIME_CAP_DEPTH p) ((s.time.capQ.getD p []).length + 1)

theorem State.capQueued_capQ (s : State) {p : Nat} (hp : p < s.time.capQ.length) (rising : Bool) :
    (s.capQueued p rising).time.capQ.getD p [] = s.time.capQ.getD p [] ++ [(rising, s.lampNs % 2 ^ 62)] := by
  simp only [State.capQueued, State.setRegN, State.setReg, State.updTime, State.capStamped, List.getD_eq_getElem?_getD, List.getElem?_set_self hp,
    Option.getD_some]

theorem State.capQueued_only (s : State) (p : Nat) (rising : Bool) :
    OnlyRegs [rTIME_CAP_DEPTH p] { s with time := (s.capQueued p rising).time } (s.capQueued p rising) := by
  refine ⟨by simp only [State.capQueued, State.setRegN, State.setReg, State.updTime, State.capStamped], fun off hoff => ?_⟩
  rw [State.capQueued, State.reg_setRegN, if_neg (by simpa using hoff)]
  rfl

theorem State.capEdge_room {s : State} {p : Nat} {rising : Bool} (ht : s.capTakes p rising = true) (hroom : (s.time.capQ.getD p []).length < 16) :
    ∃ d, s.capEdge p rising = if (s.capQueued p rising).isF (fTIME_CAP_CFG_EVT p) then (s.capQueued p rising).post evTIME_CAP_EDGE srcTIME d
      else s.capQueued p rising := by
  refine ⟨2 ^ 31 * p + 2 ^ 30 * rising.toNat + s.lampNs % 2 ^ 62 % 2 ^ 30, ?_⟩
  have hnew : s.capQueued p rising = ((s.capStamped p).updTime (fun t => { t with
      capQ := t.capQ.set p (s.time.capQ.getD p [] ++ [(rising, (s.capStamped p).lampNs % 2 ^ 62)]) })).setRegN (rTIME_CAP_DEPTH p)
        ((s.time.capQ.getD p []).length + 1) := by rw [State.capStamped_lampNs, State.capQueued]
  rw [State.capEdge, if_neg (by simp [ht]), hnew, ← State.capStamped_lampNs s p]
  exact if_neg (Nat.not_le.2 hroom)

theorem State.capEdge_full {s : State} {p : Nat} {rising : Bool} (ht : s.capTakes p rising = true) (hfull : 16 ≤ (s.time.capQ.getD p []).length) :
    s.capEdge p rising = ((s.capStamped p).raise fTIME_STATUS_CAP_OVF rTIME_CAP_OVF_COUNT).postGap evTIME_CAP_OVERFLOW p (ticksMs 1000) srcTIME p := by
  rw [State.capEdge, if_neg (by simp [ht])]
  exact if_pos hfull

theorem does_capEdge_room {p : Fin 2} {rising : Bool} {s : State} (hq : s.time.capQ.length = 2) (hl : s.time.capLast.length = 2)
    (ht : s.capTakes p rising = true) (hroom : (s.time.capQ.getD p []).length < 16) :
    Does (.capEdge p rising) s (fun t => t.time.capQ.getD p [] = s.time.capQ.getD p [] ++ [(rising, s.lampNs % 2 ^ 62)]
      ∧ t.regN (rTIME_CAP_DEPTH p) = (s.time.capQ.getD p []).length + 1 ∧ t.time.capLast.getD p none = some s.time.frc
      ∧ Quiet [rTIME_CAP_DEPTH p] { s with time := t.time } t) := by
  have hx : exec (.capEdge p rising) s = .next (s.capEdge p rising) := rfl
  have hev := (capRegs_apart p).1
  obtain ⟨d, heq⟩ := State.capEdge_room ht hroom
  have hdepth : (s.capQueued p rising).regN (rTIME_CAP_DEPTH p) = (s.time.capQ.getD p []).length + 1 := by
    rw [State.capQueued, State.regN_setRegN, if_pos rfl]
    omega
  have hqueue := s.capQueued_capQ (p := p) (by omega) rising
  have hlast : (s.capQueued p rising).time.capLast.getD p none = some s.time.frc := s.capStamped_last (p := p) (by omega)
  have honly := (s.capQueued_only p rising).quiet
  have hquiet : Quiet [] (s.capQueued p rising) (s.capEdge p rising) := by
    rw [heq]
    exact .ite (fun _ => (Quiet.refl _ _).post (by decide)) fun _ => .refl _ _
  generalize s.capQueued p rising = u at hdepth hqueue hlast honly hquiet
  have htime : (s.capEdge p rising).time = u.time := hquiet.time_eq
  refine ⟨_, hx, by rw [htime, hqueue], ?_, by rw [htime, hlast], ?_⟩
  · rw [State.regN, hquiet.regs _ (by simp) hev]
    exact hdepth
  · rw [htime]
    exact honly.trans (hquiet.mono (by simp))

theorem does_capEdge_full {p : Fin 2} {rising : Bool} {s : State} (ht : s.capTakes p rising = true) (hfull : 16 ≤ (s.time.capQ.getD p []).length) :
    Does (.capEdge p rising) s (fun t => t.time.capQ = s.time.capQ ∧ t.getF fTIME_STATUS_CAP_OVF = 1
      ∧ t.regN rTIME_CAP_OVF_COUNT = min (s.regN rTIME_CAP_OVF_COUNT + 1) 0xFFFF
      ∧ Quiet [rTIME_STATUS, rTIME_CAP_OVF_COUNT] { s with time := t.time } t) := by
  have hx : exec (.capEdge p rising) s = .next (s.capEdge p rising) := rfl
  rw [State.capEdge_full ht hfull] at hx
  have hraise : Quiet [rTIME_STATUS, rTIME_CAP_OVF_COUNT] (s.capStamped p) ((s.capStamped p).raise fTIME_STATUS_CAP_OVF rTIME_CAP_OVF_COUNT) :=
    (Quiet.refl _ _).raise (by decide) (by decide)
  have hflag : ((s.capStamped p).raise fTIME_STATUS_CAP_OVF rTIME_CAP_OVF_COUNT).getF fTIME_STATUS_CAP_OVF = 1 :=
    State.getF_raise _ (by decide) (by decide)
  have hcount : ((s.capStamped p).raise fTIME_STATUS_CAP_OVF rTIME_CAP_OVF_COUNT).regN rTIME_CAP_OVF_COUNT = min (s.regN rTIME_CAP_OVF_COUNT + 1) 0xFFFF :=
    State.regN_raise_counter _ (by decide) (by decide)
  generalize hu : (s.capStamped p).raise fTIME_STATUS_CAP_OVF rTIME_CAP_OVF_COUNT = u at hx hraise hflag hcount
  have hpost : Quiet [] u (u.postGap evTIME_CAP_OVERFLOW p (ticksMs 1000) srcTIME p) := (Quiet.refl _ _).postGap (by decide)
  generalize u.postGap evTIME_CAP_OVERFLOW p (ticksMs 1000) srcTIME p = t at hx hpost
  have htime : t.time = (s.capStamped p).time := hpost.time_eq.trans hraise.time_eq
  refine ⟨_, hx, by rw [htime]; rfl, (hpost.getF _ (by simp) (by decide)).trans hflag, ?_, ?_⟩
  · rw [State.regN, hpost.regs _ (by simp) (by decide)]
    exact hcount
  · rw [htime]
    exact Quiet.trans (t := s.capStamped p) ⟨rfl, fun _ _ _ => rfl⟩ (hraise.trans (hpost.mono (by simp)))

/-- A read of TS_HI takes the oldest stamp of its queue. -/
theorem does_capTsHiRead {p : Fin 2} {rising : Bool} {st : Nat} {q : List (Bool × Nat)} {s : State} (hq : s.time.capQ.length = 2)
    (hp : s.boot.porst = true) (hhead : s.time.capQ.getD p [] = (rising, st) :: q) (hst : st < 2 ^ 62) (hroom : q.length < 16) :
    Does (.capTsHiRead p) s (fun t => t.time.capQ.getD p [] = q ∧ t.regN (rTIME_CAP_DEPTH p) = q.length
      ∧ t.regN (rTIME_CAP_TS_LO p) = st % 2 ^ 32
      ∧ t.rdata.toNat = 2 ^ 31 + 2 ^ 30 * rising.toNat + st / 2 ^ 32 ∧ t.mem = s.mem
      ∧ ∀ off, off ≠ rTIME_CAP_DEPTH p → off ≠ rTIME_CAP_TS_LO p → t.reg off = s.reg off) := by
  have hx : exec (.capTsHiRead p) s = .next (s.inCore (fun s => { (s.capRead p).2 with rdata := (s.capRead p).1 })) := rfl
  rw [State.inCore, if_pos hp] at hx
  simp only [State.capRead, hhead] at hx
  obtain ⟨-, hne⟩ := capRegs_apart p
  generalize hu : s.updTime (fun t => { t with capQ := t.capQ.set p q, capHold := t.capHold.set p st }) = u at hx
  have hqueue : u.time.capQ.getD p [] = q := by
    have hin : p.val < s.time.capQ.length := by omega
    simp only [← hu, State.updTime, List.getD_eq_getElem?_getD, List.getElem?_set_self hin, Option.getD_some]
  have hreg : ∀ off, ((u.setRegN (rTIME_CAP_DEPTH p) q.length).setRegN (rTIME_CAP_TS_LO p) (st % 2 ^ 32)).reg off =
      if off = rTIME_CAP_TS_LO p then BitVec.ofNat 32 (st % 2 ^ 32) else if off = rTIME_CAP_DEPTH p then BitVec.ofNat 32 q.length else s.reg off :=
    fun off => by
      rw [State.reg_setRegN, State.reg_setRegN, ← hu]
      rfl
  refine ⟨_, hx, hqueue, ?_, ?_, ?_, by rw [← hu]; rfl, fun off h1 h2 => (hreg off).trans (by rw [if_neg h2, if_neg h1])⟩
  · refine (congrArg BitVec.toNat (hreg _)).trans ?_
    rw [if_neg hne.symm, if_pos rfl, BitVec.toNat_ofNat]
    omega
  · refine (congrArg BitVec.toNat (hreg _)).trans ?_
    rw [if_pos rfl, BitVec.toNat_ofNat]
    omega
  · have hbit : rising.toNat ≤ 1 := by cases rising <;> decide
    refine (BitVec.toNat_ofNat _ _).trans (Nat.mod_eq_of_lt ?_)
    omega

/-- Settles O34: the pulse's end, the edge with room and without, and the read of the oldest stamp. -/
theorem triggerAndCapture : Obligations.TriggerAndCapture := by
  unfold Obligations.TriggerAndCapture
  refine ⟨fun p s fin hlen hp => does_trgPulseEnd hlen hp, fun p rising s hq hl ht => ⟨does_capEdge_room hq hl ht, does_capEdge_full ht⟩,
    fun p rising s ht => ?_, fun p s hp => ?_, fun p rising st q s hq hp hhead hst hroom => does_capTsHiRead hq hp hhead hst hroom⟩
  · have hx : exec (.capEdge p rising) s = .next (s.capEdge p rising) := rfl
    rw [State.capEdge, if_pos ht] at hx
    exact ⟨_, hx, rfl⟩
  · have hx : exec (.capTsHiRead p) s = .next (s.inCore (fun s => { (s.capRead p).2 with rdata := (s.capRead p).1 })) := rfl
    rw [State.inCore, if_neg (by simp [hp])] at hx
    exact ⟨_, hx, rfl⟩

end Sys2Proof.Machine

/-! ## The OTP commands (R43, R44) -/

namespace Sys2Proof.Machine

/-! ### Words written in a row -/

theorem State.setRegWords_rest (l : List Word) : ∀ (s : State) (off : Nat), s.setRegWords off l = { s with regs := (s.setRegWords off l).regs } := by
  induction l with
  | nil => exact fun _ _ => rfl
  | cons v l ih => exact fun s off => ih (s.setReg off v) (off + 4)

/-- A register before the words, or after the last of them. -/
theorem State.reg_setRegWords_outside (l : List Word) : ∀ (s : State) (off : Nat) {o : Nat}, o < off ∨ off + 4 * l.length ≤ o →
    (s.setRegWords off l).reg o = s.reg o := by
  induction l with
  | nil => exact fun _ _ _ _ => rfl
  | cons v l ih =>
    intro s off o ho
    rw [List.length_cons] at ho
    rw [State.setRegWords, ih _ _ (by omega), State.reg_setReg, if_neg (by omega)]

theorem State.reg_setRegWords (l : List Word) : ∀ (s : State) (off : Nat) {k : Nat} (hk : k < l.length), (s.setRegWords off l).reg (off + 4 * k) = l[k] := by
  induction l with
  | nil => exact fun _ _ _ hk => absurd hk (by simp)
  | cons v l ih =>
    intro s off k hk
    cases k with
    | zero => rw [State.setRegWords, State.reg_setRegWords_outside _ _ _ (by omega), State.reg_setReg, if_pos (by omega)]; rfl
    | succ k =>
      rw [State.setRegWords, show off + 4 * (k + 1) = off + 4 + 4 * k by omega, ih _ _ (by simpa using hk)]
      rfl

/-! ### A command's ends -/

theorem State.otpShow_only (s : State) : OnlyRegs [rBSTREAM_OTP_STATUS] s s.otpShow :=
  ((((OnlyRegs.refl _ s).setF (by simp)).setF (by simp)).setF (by simp)).setF (by simp)

theorem State.otpShow_busy (s : State) : s.otpShow.isF fBSTREAM_OTP_STATUS_BUSY = s.isF fBSTREAM_OTP_STATUS_BUSY := by
  have hother : ∀ (u : State) {f : Fld} (n : Nat), f.off = rBSTREAM_OTP_STATUS → 2 ≤ f.lo → f.lo + f.w ≤ 32 →
      (u.setF f n).getF fBSTREAM_OTP_STATUS_BUSY = u.getF fBSTREAM_OTP_STATUS_BUSY := fun u f n ho hlo hw => State.getF_setF_other _ _ _ _ hw (.inr (.inl hlo))
  rw [State.isF, State.isF, State.otpShow, State.setB, hother _ _ rfl (by decide) (by decide), hother _ _ rfl (by decide) (by decide),
    hother _ _ rfl (by decide) (by decide), hother _ _ rfl (by decide) (by decide)]

theorem State.otpShow_wrap (s : State) : s.otpShow.isF fBSTREAM_OTP_STATUS_WRAP_DISABLE = s.otp.wrapDisable := by
  rw [State.isF, State.otpShow, State.setB, State.getF_setF _ _ _ (by decide)]
  have hshown : OnlyRegs [rBSTREAM_OTP_STATUS] s
      ((s.setF fBSTREAM_OTP_STATUS_ROLLBACK s.otp.rollback).setF fBSTREAM_OTP_STATUS_REVOKED
        (s.otp.revoked.zipIdx.map (fun q => q.1.toNat * 2 ^ q.2)).sum) := ((OnlyRegs.refl _ s).setF (by simp)).setF (by simp)
  dsimp only
  generalize (s.setF fBSTREAM_OTP_STATUS_ROLLBACK s.otp.rollback).setF fBSTREAM_OTP_STATUS_REVOKED
    (s.otp.revoked.zipIdx.map (fun q => q.1.toNat * 2 ^ q.2)).sum = u at hshown
  rw [show u.otp = s.otp by rw [hshown.rest]]
  cases s.otp.wrapDisable <;> rfl

/-- An accepted command is BUSY, the temperature no hindrance. -/
def State.otpTaken (s : State) : State := (s.setF fBSTREAM_OTP_STATUS_TEMP_BLOCK 0).setF fBSTREAM_OTP_STATUS_BUSY 1

theorem State.otpTaken_only (s : State) : OnlyRegs [rBSTREAM_OTP_STATUS] s s.otpTaken := ((OnlyRegs.refl _ s).setF (by simp)).setF (by simp)

theorem State.otpTaken_busy (s : State) : s.otpTaken.isF fBSTREAM_OTP_STATUS_BUSY = true := State.isF_setF_one _ rfl (by decide)

theorem State.otpCmd_accepted {s : State} {cond fuse : Bool} (cmd : Nat) (act : State → State) (hb : s.isF fBSTREAM_OTP_STATUS_BUSY = false)
    (hcond : cond = true) (hfuse : fuse = false ∨ s.otpTempOk = true) : s.otpCmd cmd cond fuse act = (act s.otpTaken).otpShow := by
  rw [State.otpCmd, if_neg (by simp [hb]), if_neg (by simp [hcond]), if_neg (by obtain h | h := hfuse <;> simp [h]), State.otpTaken]

theorem State.otpRefuse_quiet {l : List Nat} {s u : State} (q : Quiet l s u) (cmd why : Nat) : Quiet l s (u.otpRefuse cmd why) := q.post (by decide)

theorem State.otpCmd_busy {s : State} (cmd : Nat) (cond fuse : Bool) (act : State → State) (hb : s.isF fBSTREAM_OTP_STATUS_BUSY = true) :
    Quiet [] s (s.otpCmd cmd cond fuse act) := by
  rw [State.otpCmd, if_pos hb]
  exact State.otpRefuse_quiet (.refl _ s) _ _

theorem State.otpCmd_hot {s : State} (cmd : Nat) (cond : Bool) (act : State → State) (hb : s.isF fBSTREAM_OTP_STATUS_BUSY = false)
    (ht : s.otpTempOk = false) : Quiet [rBSTREAM_OTP_STATUS] s (s.otpCmd cmd cond true act) := by
  rw [State.otpCmd, if_neg (by simp [hb]), if_pos (c := (true && !s.otpTempOk) = true) (by simp [ht])]
  exact .ite (fun _ => State.otpRefuse_quiet (.refl _ s) _ _) fun _ => State.otpRefuse_quiet ((Quiet.refl _ s).setF (by decide)) _ _

theorem Quiet.otp {l : List Nat} {s t : State} (q : Quiet l s t) : t.otp = s.otp := by rw [q.rest]

/-! ### The commands -/

theorem does_inCore {c : Instr} {s : State} {act : State → State} {P : State → Prop} (hx : exec c s = .next (s.inCore act)) (hp : s.boot.porst = true)
    (h : P (act s)) : Does c s P := by
  rw [State.inCore, if_pos hp] at hx
  exact ⟨_, hx, h⟩

/-- What a command changes nothing of, it changes nothing of in reset either (R59). -/
theorem does_inCore_quiet {c : Instr} {s : State} {act : State → State} {l : List Nat} (hx : exec c s = .next (s.inCore act)) (h : Quiet l s (act s)) :
    Does c s (fun t => t.otp = s.otp ∧ Quiet l s t) := by
  by_cases hp : s.boot.porst = true
  · exact does_inCore hx hp ⟨h.otp, h⟩
  · rw [State.inCore, if_neg hp] at hx
    exact ⟨_, hx, rfl, .refl _ s⟩

/-- A fuse command that is accepted: the fuses it programs, BUSY, and its status register. -/
theorem does_fuse {c : Instr} {s : State} {cmd : Nat} {cond : Bool} {o : State → Otp}
    (hx : exec c s = .next (s.inCore (fun s => s.otpCmd cmd cond true (fun s => { s with otp := o s })))) (hp : s.boot.porst = true)
    (hb : s.isF fBSTREAM_OTP_STATUS_BUSY = false) (hcond : cond = true) (ht : s.otpTempOk = true) (ho : o s.otpTaken = o s) :
    Does c s (fun t => t.otp = o s ∧ t.isF fBSTREAM_OTP_STATUS_BUSY = true ∧ t.isF fBSTREAM_OTP_STATUS_WRAP_DISABLE = (o s).wrapDisable
      ∧ Quiet [rBSTREAM_OTP_STATUS] { s with otp := t.otp } t) := by
  refine does_inCore hx hp ?_
  rw [State.otpCmd_accepted cmd _ hb hcond (.inr ht), ho]
  have htaken := s.otpTaken_only
  have hbusy := s.otpTaken_busy
  generalize s.otpTaken = u at htaken hbusy
  have hshow := ({ u with otp := o s } : State).otpShow_only
  have hotp : ({ u with otp := o s } : State).otpShow.otp = o s := by rw [hshow.rest]
  refine ⟨hotp, (State.otpShow_busy _).trans hbusy, State.otpShow_wrap _, ?_⟩
  rw [hotp]
  refine Quiet.trans (t := { u with otp := o s }) ⟨?_, fun off h1 _ => htaken.regs off h1⟩ hshow.quiet
  rw [htaken.rest]

/-- WRAP with its output left open. -/
theorem State.wrapOp_eq (s : State) : ∃ out : State → List Word, s.wrapOp = s.otpCmd 4 (s.bsState = bsWAIT_HOST && !s.otp.wrapDisable) false (fun s =>
    { (s.setRegWords (rBSTREAM_WRAP_OUT 0) (out s)).setRegWords (rBSTREAM_OTP_DATA 0) (List.replicate 8 0) with
      otp := { ((s.setRegWords (rBSTREAM_WRAP_OUT 0) (out s)).setRegWords (rBSTREAM_OTP_DATA 0) (List.replicate 8 0)).otp with
        wraps := ((s.setRegWords (rBSTREAM_WRAP_OUT 0) (out s)).setRegWords (rBSTREAM_OTP_DATA 0) (List.replicate 8 0)).otp.wraps + 1 } }) := ⟨_, rfl⟩

theorem does_wrap {s : State} (hp : s.boot.porst = true) (hb : s.isF fBSTREAM_OTP_STATUS_BUSY = false) (hst : s.bsState = bsWAIT_HOST)
    (hw : s.otp.wrapDisable = false) :
    Does .wrap s (fun t => t.otp = { s.otp with wraps := s.otp.wraps + 1 } ∧ t.isF fBSTREAM_OTP_STATUS_BUSY = true
      ∧ (∀ k, k < 8 → t.reg (rBSTREAM_OTP_DATA k) = 0) ∧ t.mem = s.mem) := by
  have hx : exec .wrap s = .next (s.inCore State.wrapOp) := rfl
  refine does_inCore hx hp ?_
  obtain ⟨fout, hop⟩ := s.wrapOp_eq
  rw [hop, State.otpCmd_accepted 4 _ hb (by simp [hst, hw]) (.inl rfl)]
  have htaken := s.otpTaken_only
  have hbusy := s.otpTaken_busy
  generalize s.otpTaken = u at htaken hbusy
  generalize fout u = out
  have h1 := State.setRegWords_rest out u (rBSTREAM_WRAP_OUT 0)
  have hout : (u.setRegWords (rBSTREAM_WRAP_OUT 0) out).reg rBSTREAM_OTP_STATUS = u.reg rBSTREAM_OTP_STATUS :=
    State.reg_setRegWords_outside _ _ _ (.inl (by decide))
  generalize u.setRegWords (rBSTREAM_WRAP_OUT 0) out = v at h1 hout
  have h2 := State.setRegWords_rest (List.replicate 8 0) v (rBSTREAM_OTP_DATA 0)
  have hin : ∀ k, k < 8 → (v.setRegWords (rBSTREAM_OTP_DATA 0) (List.replicate 8 0)).reg (rBSTREAM_OTP_DATA k) = 0 := fun k hk => by
    have h := State.reg_setRegWords (List.replicate 8 0) v (rBSTREAM_OTP_DATA 0) (k := k) (by simpa using hk)
    rwa [List.getElem_replicate] at h
  have hstatus : (v.setRegWords (rBSTREAM_OTP_DATA 0) (List.replicate 8 0)).reg rBSTREAM_OTP_STATUS = v.reg rBSTREAM_OTP_STATUS :=
    State.reg_setRegWords_outside _ _ _ (.inl (by decide))
  generalize v.setRegWords (rBSTREAM_OTP_DATA 0) (List.replicate 8 0) = w at h2 hin hstatus
  have hotp : w.otp = s.otp := by rw [h2, h1, htaken.rest]
  have hmem : w.mem = s.mem := by rw [h2, h1, htaken.rest]
  have hshow := ({ w with otp := { w.otp with wraps := w.otp.wraps + 1 } } : State).otpShow_only
  refine ⟨by rw [hshow.rest, hotp], ?_, fun k hk => ?_, by rw [hshow.rest]; exact hmem⟩
  · rw [State.otpShow_busy]
    refine Eq.trans ?_ hbusy
    rw [State.isF, State.isF]
    exact congrArg (· == 1) (State.getF_congr (hstatus.trans hout))
  · rw [hshow.regs _ (by rw [List.mem_singleton, rBSTREAM_OTP_DATA, rBSTREAM_OTP_STATUS]; omega)]
    exact hin k hk

theorem State.otpTaken_otp (s : State) : s.otpTaken.otp = s.otp := by rw [s.otpTaken_only.rest]

theorem State.otpTaken_data (s : State) : s.otpTaken.otpData = s.otpData := by
  have hreg : ∀ j, s.otpTaken.reg (rBSTREAM_OTP_DATA 0 + 4 * j) = s.reg (rBSTREAM_OTP_DATA 0 + 4 * j) := fun j => s.otpTaken_only.regs _ (by rw [List.mem_singleton, rBSTREAM_OTP_DATA, rBSTREAM_OTP_STATUS]; omega)
  simp only [State.otpData, State.regWords, Nat.add_assoc]
  rw [hreg 0, hreg 1, hreg 2, hreg 3, hreg 4, hreg 5, hreg 6, hreg 7]

/-- Settles O35: a command that is accepted, one that BUSY or the temperature refuses, and OTP_DONE. -/
theorem otpCommands : Obligations.OtpCommands := by
  unfold Obligations.OtpCommands
  refine ⟨fun k s hp hb ht => ⟨fun hk => ?_, fun hk => ?_, fun hst => ?_, ?_⟩, fun s hp hb hst hw => does_wrap hp hb hst hw,
    fun k s hb => ⟨fun c hc => ?_, ?_⟩, fun k s hb ht c hc => ?_⟩
  · exact (does_fuse (c := .keyProgram k) (cond := (nth none s.otp.keys k).isNone) (o := fun s => { s.otp with keys := s.otp.keys.set k (some s.otpData) }) rfl hp hb (by rw [hk]; rfl) ht
      (by rw [s.otpTaken_otp, s.otpTaken_data])).imp fun t h => ⟨h.1, h.2.1, h.2.2.2⟩
  · exact (does_fuse (c := .revoke k) (cond := s.revokeOk k) (o := fun s => { s.otp with revoked := s.otp.revoked.set k true }) rfl hp hb hk ht (by rw [s.otpTaken_otp])).imp
      fun t h => ⟨h.1, h.2.1, h.2.2.2⟩
  · exact (does_fuse (c := .advance) (cond := s.bsState = bsRUNNING) (o := fun s => { s.otp with rollback := max s.otp.rollback (min 64 (s.regN rBSTREAM_SEC_VERSION)) }) rfl hp hb
      (by simp [hst]) ht (by rw [s.otpTaken_otp, State.regN, s.otpTaken_only.regs _ (by decide), State.regN])).imp fun t h => ⟨h.1, h.2.1, h.2.2.2⟩
  · exact does_fuse (c := .wrapLock) (cond := true) (o := fun s => { s.otp with wrapDisable := true }) rfl hp hb rfl ht (by rw [s.otpTaken_otp])
  · simp only [List.mem_cons, List.not_mem_nil, or_false] at hc
    obtain rfl | rfl | rfl | rfl | rfl := hc
    · exact does_inCore_quiet (act := (·.keyProgram k)) rfl (State.otpCmd_busy _ _ _ _ hb)
    · exact does_inCore_quiet (act := (·.revokeOp k)) rfl (State.otpCmd_busy _ _ _ _ hb)
    · exact does_inCore_quiet (act := State.advanceOp) rfl (State.otpCmd_busy _ _ _ _ hb)
    · exact does_inCore_quiet (act := State.wrapOp) rfl (State.otpCmd_busy _ _ _ _ hb)
    · exact does_inCore_quiet (act := State.wrapLockOp) rfl (State.otpCmd_busy _ _ _ _ hb)
  · refine ⟨_, rfl, rfl, ?_, (Quiet.refl _ s).setF (by decide)⟩
    rw [State.isF, State.getF_setF _ _ _ (by decide)]
    rfl
  · simp only [List.mem_cons, List.not_mem_nil, or_false] at hc
    obtain rfl | rfl | rfl | rfl := hc
    · exact does_inCore_quiet (act := (·.keyProgram k)) rfl (State.otpCmd_hot _ _ _ hb ht)
    · exact does_inCore_quiet (act := (·.revokeOp k)) rfl (State.otpCmd_hot _ _ _ hb ht)
    · exact does_inCore_quiet (act := State.advanceOp) rfl (State.otpCmd_hot _ _ _ hb ht)
    · exact does_inCore_quiet (act := State.wrapLockOp) rfl (State.otpCmd_hot _ _ _ hb ht)

end Sys2Proof.Machine

/-! ## Staged bytes and the update machine (R46, R48, R53 to R57) -/

namespace Sys2Proof.Machine

theorem Quiet.loader {l : List Nat} {s t : State} (q : Quiet l s t) : t.loader = s.loader := by rw [q.rest]

/-! ### The registers of the two machines -/

theorem State.setBs_state (s : State) {v : Nat} (hv : v < 16) : (s.setBs v).bsState = v := by
  rw [State.bsState, State.setBs, State.getF_setF _ _ _ (by decide)]
  exact Nat.mod_eq_of_lt hv

theorem State.setBs_only (s : State) (v : Nat) : OnlyRegs [rBSTREAM_STATUS] s (s.setBs v) := (OnlyRegs.refl _ s).setF (by simp)

theorem State.setUpd_only (s : State) (v : Nat) : OnlyRegs [rBSTREAM_UPDATE_STATUS, rBSTREAM_STATUS] s (s.setUpd v) :=
  ((OnlyRegs.refl _ s).setF (by decide)).setF (by decide)

theorem State.setUpd_state (s : State) {v : Nat} (hv : v < 16) : (s.setUpd v).updState = v := by
  rw [State.updState, State.setUpd, State.setB, State.getF_setF_other _ _ _ _ (by decide) (.inl (by decide)), State.getF_setF _ _ _ (by decide)]
  exact Nat.mod_eq_of_lt hv

theorem State.setUpd_pending (s : State) (v : Nat) : (s.setUpd v).isF fBSTREAM_STATUS_UPDATE_PENDING = (v == upINSTALLING || v == upARMED) := by
  rw [State.isF, State.setUpd, State.setB, State.getF_setF _ _ _ (by decide)]
  by_cases h : v = upINSTALLING ∨ v = upARMED
  · simp [h]
  · simp only [not_or] at h
    simp [h]

/-- A refused command shows its code and posts its event. -/
theorem State.updNak_quiet (s : State) (code : Nat) : Quiet [rBSTREAM_UPDATE_STATUS] s (s.updNak code) :=
  ((Quiet.refl _ s).setF (by decide)).post (by decide)

theorem State.updNak_marks (s : State) (code : Nat) : Quiet [] (s.setF fBSTREAM_UPDATE_STATUS_ERR_CODE code) (s.updNak code) :=
  (Quiet.refl _ _).post (by decide)

theorem State.updNak_code (s : State) (code : Nat) : (s.updNak code).getF fBSTREAM_UPDATE_STATUS_ERR_CODE = code % 256 := by
  rw [(s.updNak_marks code).getF _ (by simp) (by decide), State.getF_setF _ _ _ (by decide), show 2 ^ fBSTREAM_UPDATE_STATUS_ERR_CODE.w = 256 from rfl]

theorem State.updNak_state (s : State) (code : Nat) : (s.updNak code).updState = s.updState := by
  rw [State.updState, (s.updNak_marks code).getF _ (by simp) (by decide), State.getF_setF_other _ _ _ _ (by decide) (.inr (by decide))]
  rfl

theorem State.updNak_pending (s : State) (code : Nat) : (s.updNak code).isF fBSTREAM_STATUS_UPDATE_PENDING = s.isF fBSTREAM_STATUS_UPDATE_PENDING := by
  rw [State.isF, (s.updNak_quiet code).getF _ (by decide) (by decide)]
  rfl

/-- The package refused: REFUSED with its code, the package gone. -/
theorem State.updRefuse_effect (s : State) (code : Nat) :
    (s.updRefuse code).updState = upREFUSED ∧ (s.updRefuse code).loader = { s.loader with pkg := none }
      ∧ (s.updRefuse code).getF fBSTREAM_UPDATE_STATUS_ERR_CODE = code % 256 := by
  have hset := s.setUpd_only upREFUSED
  have hstate := s.setUpd_state (v := upREFUSED) (by decide)
  unfold State.updRefuse
  generalize s.setUpd upREFUSED = u at hset hstate
  have hl : u.loader = s.loader := by rw [hset.rest]
  refine ⟨(State.updNak_state _ _).trans hstate, (State.updNak_quiet _ _).loader.trans ?_, State.updNak_code _ _⟩
  rw [State.updLoader, hl]

theorem State.updLoader_state (s : State) (F : Loader → Loader) : (s.updLoader F).updState = s.updState := State.getF_congr (s.updLoader_reg F _)

/-! ### The update machine -/

theorem State.updBusyState_iff (s : State) : s.updBusyState = true ↔ s.updState = upVERIFYING ∨ s.updState = upINSTALLING ∨ s.updState = upARMED := by
  simp [State.updBusyState, or_assoc]

theorem State.not_updBusyState {s : State} (h : s.updState = upRECEIVING ∨ s.updState = upVERIFIED) : ¬s.updBusyState = true := by
  rw [s.updBusyState_iff]
  obtain h | h := h <;> rw [h] <;> decide

theorem does_updateVerify {s : State} (hp : s.boot.porst = true) (hrun : s.bsState = bsRUNNING) (hst : s.updState = upRECEIVING ∨ s.updState = upVERIFIED) :
    Does .updateVerify s (fun t => t.updState = upVERIFYING ∧ Quiet [rBSTREAM_UPDATE_STATUS, rBSTREAM_STATUS] s t) := by
  refine does_inCore (act := State.updVerify) rfl hp ?_
  rw [State.updVerify, if_neg (State.not_updBusyState hst), if_neg (by simp [hrun, hst])]
  exact ⟨s.setUpd_state (by decide), (s.setUpd_only _).quiet⟩

/-- A command that BUSY refuses. -/
theorem State.updNak_busy (s : State) : (s.updNak errBusy).updState = s.updState ∧ (s.updNak errBusy).getF fBSTREAM_UPDATE_STATUS_ERR_CODE = errBusy
    ∧ Quiet [rBSTREAM_UPDATE_STATUS] s (s.updNak errBusy) := ⟨s.updNak_state _, s.updNak_code _, s.updNak_quiet _⟩

theorem does_updateVerify_busy {s : State} (hp : s.boot.porst = true) (hst : s.updState = upVERIFYING ∨ s.updState = upINSTALLING ∨ s.updState = upARMED) :
    Does .updateVerify s (fun t => t.updState = s.updState ∧ t.getF fBSTREAM_UPDATE_STATUS_ERR_CODE = errBusy
      ∧ Quiet [rBSTREAM_UPDATE_STATUS] s t) := by
  refine does_inCore (act := State.updVerify) rfl hp ?_
  rw [State.updVerify, if_pos (s.updBusyState_iff.2 hst)]
  exact s.updNak_busy

theorem does_updateVerified {cs : List Content} {s : State} (hc : Clean s) (hst : s.updState = upVERIFYING) :
    let img := readImage (s.bytes s.stageBase (min s.stageSize (s.loadN (s.stageBase + 8) 4))) cs
    Does (.updateVerified cs) s (fun t => match checkPackage s img with
      | none => t.updState = upVERIFIED ∧ t.loader = { s.loader with pkg := some img }
      | some code => t.updState = upREFUSED ∧ t.loader = { s.loader with pkg := none }
        ∧ t.getF fBSTREAM_UPDATE_STATUS_ERR_CODE = code % 2 ^ fBSTREAM_UPDATE_STATUS_ERR_CODE.w) := by
  intro img
  have hx : exec (.updateVerified cs) s = .next (s.updVerified cs) := rfl
  have heq : s.updVerified cs = match checkPackage s img with
      | some code => s.updRefuse code
      | none => (s.setUpd upVERIFIED).updLoader (fun x => { x with pkg := some img }) := by
    rw [State.updVerified, if_neg (by simp [hst])]
    simp only [State.readMem_of_clean hc.1]
    rfl
  rw [heq] at hx
  cases hchk : checkPackage s img with
  | some code =>
    simp only [hchk] at hx
    exact ⟨_, hx, s.updRefuse_effect code⟩
  | none =>
    simp only [hchk] at hx
    refine ⟨_, hx, s.setUpd_state (v := upVERIFIED) (by decide), ?_⟩
    rw [State.updLoader, (s.setUpd_only upVERIFIED).rest]

theorem does_updateCommit {s : State} (hp : s.boot.porst = true) (hst : s.updState = upVERIFIED) :
    Does .updateCommit s (fun t => t.updState = upINSTALLING ∧ t.isF fBSTREAM_STATUS_UPDATE_PENDING = true
      ∧ Quiet [rBSTREAM_UPDATE_STATUS, rBSTREAM_STATUS] s t) := by
  refine does_inCore (act := State.updCommit) rfl hp ?_
  rw [State.updCommit, if_neg (by rw [hst]; decide), if_neg (by simp [hst])]
  exact ⟨s.setUpd_state (by decide), s.setUpd_pending _, (s.setUpd_only _).quiet⟩

/-- A change of state with a new loader. -/
theorem quiet_setUpd_loader {s u : State} {F : Loader → Loader} {v : Nat} (h : OnlyRegs [rBSTREAM_UPDATE_STATUS, rBSTREAM_STATUS] (s.setUpd v) u) :
    Quiet [rBSTREAM_UPDATE_STATUS, rBSTREAM_STATUS] { s with loader := (u.updLoader F).loader } (u.updLoader F) := by
  have hset := s.setUpd_only v
  refine ⟨?_, fun off h1 _ => (h.regs off h1).trans (hset.regs off h1)⟩
  rw [State.updLoader, h.rest, hset.rest]

theorem does_updateCopyDone {s : State} (hst : s.updState = upINSTALLING) :
    Does .updateCopyDone s (fun t => t.updState = upARMED ∧ t.loader = { s.loader with armedAt := s.time.now }
      ∧ Quiet [rBSTREAM_UPDATE_STATUS, rBSTREAM_STATUS] { s with loader := t.loader } t) := by
  have hx : exec .updateCopyDone s = .next s.updCopied := rfl
  rw [State.updCopied, if_neg (by simp [hst])] at hx
  refine ⟨_, hx, s.setUpd_state (v := upARMED) (by decide), ?_, quiet_setUpd_loader (.refl _ _)⟩
  rw [State.updLoader, (s.setUpd_only upARMED).rest]

theorem does_updateCancel {s : State} (hst : s.updState = upRECEIVING ∨ s.updState = upVERIFIED ∨ s.updState = upINSTALLING ∨ s.updState = upARMED) :
    Does .updateCancel s (fun t => t.updState = upCANCELLED ∧ t.loader = { s.loader with pkg := none }
      ∧ t.isF fBSTREAM_STATUS_UPDATE_PENDING = false
      ∧ Quiet [rBSTREAM_UPDATE_STATUS, rBSTREAM_STATUS] { s with loader := t.loader } t) := by
  have hx : exec .updateCancel s = .next (s.updCancel 0) := rfl
  rw [State.updCancel, if_pos (by tauto)] at hx
  have hset := s.setUpd_only upCANCELLED
  have hquiet := quiet_setUpd_loader (s := s) (F := fun x => { x with pkg := none }) (.refl _ (s.setUpd upCANCELLED))
  have hl : ((s.setUpd upCANCELLED).updLoader (fun x => { x with pkg := none })).loader = { s.loader with pkg := none } := by
    rw [State.updLoader, hset.rest]
  have hstate : ((s.setUpd upCANCELLED).updLoader (fun x => { x with pkg := none })).updState = upCANCELLED := by
    rw [State.updLoader_state, State.setUpd_state _ (by decide)]
  have hpend : ((s.setUpd upCANCELLED).updLoader (fun x => { x with pkg := none })).isF fBSTREAM_STATUS_UPDATE_PENDING = false := by
    rw [State.isF_congr (State.updLoader_reg _ _ _), State.setUpd_pending]
    decide
  generalize (s.setUpd upCANCELLED).updLoader (fun x => { x with pkg := none }) = u at hx hquiet hl hstate hpend
  have hpost : Quiet [] u (u.post evCONFIG_UPD_CANCELLED srcBSTREAM 0) := (Quiet.refl _ u).post (by decide)
  refine ⟨_, hx, (hpost.getF _ (by simp) (by decide)).trans hstate, hpost.loader.trans hl, ?_, ?_⟩
  · rw [State.isF, hpost.getF _ (by simp) (by decide)]
    exact hpend
  · rw [hpost.loader]
    exact hquiet.trans (hpost.mono (by simp))

theorem does_updateCancel_busy {s : State} (hst : s.updState = upVERIFYING) :
    Does .updateCancel s (fun t => t.updState = upVERIFYING ∧ t.getF fBSTREAM_UPDATE_STATUS_ERR_CODE = errBusy
      ∧ Quiet [rBSTREAM_UPDATE_STATUS] s t) := by
  have hx : exec .updateCancel s = .next (s.updCancel 0) := rfl
  rw [State.updCancel, if_neg (by rw [hst]; decide), if_pos ⟨rfl, hst⟩] at hx
  obtain ⟨hsame, h⟩ := s.updNak_busy
  exact ⟨_, hx, hsame.trans hst, h⟩

/-- Settles O37: each command in the states where it is taken, and where BUSY refuses it. -/
theorem updateMachine : Obligations.UpdateMachine := by
  unfold Obligations.UpdateMachine
  exact ⟨fun s hp hrun hst => does_updateVerify hp hrun hst, fun s hp hst => does_updateVerify_busy hp hst, fun cs s hc hst => does_updateVerified hc hst,
    fun s hp hst => does_updateCommit hp hst, fun s hst => does_updateCopyDone hst, fun s hst => does_updateCancel hst,
    fun s hst => does_updateCancel_busy hst⟩

/-! ### Staged bytes -/

/-- A write of STAGE_DATA that STAGE_ADDR follows. -/
def State.stageNext (s : State) (a : Nat) : State := s.setRegN rBSTREAM_STAGE_ADDR ((a + 4) % 2 ^ 32)

theorem State.stageNext_only (s : State) (a : Nat) : OnlyRegs [rBSTREAM_STAGE_ADDR] s (s.stageNext a) := (OnlyRegs.refl _ s).setRegN (by simp)

theorem State.stageNext_addr (s : State) (a : Nat) : (s.stageNext a).regN rBSTREAM_STAGE_ADDR = (a + 4) % 2 ^ 32 := by
  rw [State.stageNext, State.regN_setRegN, if_pos rfl, Nat.mod_mod]

/-- The first word of a push. -/
def State.pushStarted (s : State) : State := (s.setBs bsLOAD_HOST).updLoader (fun x => { x with push := [], pushed := 0 })

theorem State.pushStarted_only (s : State) : OnlyRegs [rBSTREAM_STATUS] { s with loader := { s.loader with push := [], pushed := 0 } } s.pushStarted := by
  have h := s.setBs_only bsLOAD_HOST
  refine ⟨?_, h.regs⟩
  rw [State.pushStarted, State.updLoader, h.rest]

/-- The bytes of a push that correction memory holds until DRAM is ready. -/
def stagedBytes (s : State) (a : Nat) (bs : List Byte) : List Byte :=
  if s.isF fTOP_START_STATUS_DRAM_READY then [] else bs.take (0x800000 - a)

theorem State.stageFile_rest {s : State} (h : Clean s) (a : Nat) (bs : List Byte) : s.stageFile a bs = { s with mem := (s.stageFile a bs).mem } := by
  unfold State.stageFile
  split
  · rfl
  · rw [State.writeMem_of_clean h]
    rfl

theorem State.byte_stageFile {s : State} (h : Clean s) (a x : Nat) (bs : List Byte) :
    (s.stageFile a bs).byte x = (s.setBytes (corrBase + a) (stagedBytes s a bs)).byte x := by
  unfold State.stageFile stagedBytes
  split
  · rw [State.byte_setBytes_other _ (by rw [List.length_nil]; omega)]
  · rw [State.writeMem_of_clean h]

/-- Bytes pushed at `a` into what the push holds so far. -/
def Loader.pushAt (x : Loader) (a : Nat) (bs : List Byte) : Loader :=
  { x with push := tabPutAll (fun _ => 0#8) x.push a bs, pushed := max x.pushed (a + bs.length) }

theorem State.stageData_push {s : State} (v : Word) (hst : s.bsState = bsWAIT_HOST ∨ s.bsState = bsFAILED) :
    s.stageData v = ((s.pushStarted.stageFile (s.regN rBSTREAM_STAGE_ADDR / 4 * 4) (leBytes 4 v.toNat)).updLoader
      (·.pushAt (s.regN rBSTREAM_STAGE_ADDR / 4 * 4) (leBytes 4 v.toNat))).stageNext (s.regN rBSTREAM_STAGE_ADDR / 4 * 4) := by
  have hnot : s.bsState ≠ bsRUNNING ∧ s.bsState ≠ bsLOAD_HOST := by obtain h | h := hst <;> rw [h] <;> decide
  rw [State.stageData, if_neg hnot.1, if_pos (hst.imp_right .inl), if_neg (fun h => hnot.1 h.1), State.pushBytes, if_neg hnot.2]
  rfl

theorem does_stageData_push {v : Word} {s : State} (hc : Clean s) (hp : s.boot.porst = true) (hst : s.bsState = bsWAIT_HOST ∨ s.bsState = bsFAILED) :
    let a := s.regN rBSTREAM_STAGE_ADDR / 4 * 4
    Does (.stageData v) s (fun t => t.bsState = bsLOAD_HOST
      ∧ t.loader.push = tabPutAll (fun _ => 0#8) [] a (leBytes 4 v.toNat) ∧ t.loader.pushed = a + 4
      ∧ t.regN rBSTREAM_STAGE_ADDR = (a + 4) % 2 ^ 32
      ∧ (s.isF fTOP_START_STATUS_DRAM_READY = false → a < 0x800000 → t.bytes (corrBase + a) 4 = leBytes 4 v.toNat)
      ∧ (∀ x, s.isF fTOP_START_STATUS_DRAM_READY = true ∨ 0x800000 ≤ a ∨ x < corrBase + a ∨ corrBase + a + 4 ≤ x → t.byte x = s.byte x)
      ∧ Quiet [rBSTREAM_STATUS, rBSTREAM_STAGE_ADDR] { s with loader := t.loader, mem := t.mem } t) := by
  refine does_inCore (act := (·.stageData v)) rfl hp ?_
  rw [State.stageData_push v hst]
  have ha4 : s.regN rBSTREAM_STAGE_ADDR / 4 * 4 % 4 = 0 := Nat.mul_mod_left _ _
  generalize s.regN rBSTREAM_STAGE_ADDR / 4 * 4 = a at ha4
  have hlen : (leBytes 4 v.toNat).length = 4 := length_leBytes 4 _
  generalize leBytes 4 v.toNat = bs at hlen
  have hstart := s.pushStarted_only
  have hstate : s.pushStarted.bsState = bsLOAD_HOST := s.setBs_state (by decide)
  generalize s.pushStarted = u at hstart hstate
  have hcu : Clean u := ⟨by rw [hstart.rest]; exact hc.1, Unarmed.of_reg hc.2 (hstart.regs _ (by decide))⟩
  have hready : u.isF fTOP_START_STATUS_DRAM_READY = s.isF fTOP_START_STATUS_DRAM_READY := State.isF_congr (hstart.regs _ (by decide))
  have hbyte : ∀ x, u.byte x = s.byte x := fun x => by rw [State.byte, State.byte, hstart.rest]
  have hrest := State.stageFile_rest hcu a bs
  have hput := fun x => State.byte_stageFile hcu a x bs
  have hfile : stagedBytes u a bs = if s.isF fTOP_START_STATUS_DRAM_READY then [] else bs.take (0x800000 - a) := by rw [stagedBytes, hready]
  generalize u.stageFile a bs = w at hrest hput
  have hl : (w.updLoader (·.pushAt a bs)).loader = Loader.pushAt { s.loader with push := [], pushed := 0 } a bs := by
    rw [State.updLoader, hrest, hstart.rest]
  have hnext := (w.updLoader (·.pushAt a bs)).stageNext_only a
  have haddr := (w.updLoader (·.pushAt a bs)).stageNext_addr a
  generalize hx : (w.updLoader (·.pushAt a bs)).stageNext a = t at hnext haddr
  have htl : t.loader = Loader.pushAt { s.loader with push := [], pushed := 0 } a bs := by rw [hnext.rest]; exact hl
  have hreg : ∀ off, off ≠ rBSTREAM_STAGE_ADDR → off ≠ rBSTREAM_STATUS → t.reg off = s.reg off := fun off h1 h2 => by
    rw [hnext.regs _ (by simpa using h1), State.updLoader_reg, hrest]
    exact hstart.regs _ (by simpa using h2)
  have htb : ∀ x, t.byte x = w.byte x := fun x => by
    have hmem : t.mem = w.mem := by rw [hnext.rest]; rfl
    rw [State.byte, hmem, State.byte]
  refine ⟨?_, by rw [htl, Loader.pushAt], by rw [htl, Loader.pushAt, hlen]; exact Nat.max_eq_right (Nat.zero_le _), haddr, fun hdram hin => ?_, fun x hx' => ?_, ?_⟩
  · rw [State.bsState, State.getF_congr (hnext.regs _ (by decide)), State.getF_congr (State.updLoader_reg _ _ _), hrest]
    exact hstate
  · rw [hdram, if_neg (by decide), List.take_of_length_le (by omega)] at hfile
    rw [State.bytes_congr (s := u.setBytes (corrBase + a) bs) fun x _ _ => by rw [htb, hput, hfile], ← hlen, State.bytes_setBytes_same]
  · rw [htb, hput, hfile, State.byte_setBytes_other, hbyte]
    split
    · rw [List.length_nil]
      omega
    · rename_i hdram
      have hout := hx'.resolve_left hdram
      rw [List.length_take, hlen]
      omega
  · refine ⟨?_, fun off h1 _ => hreg off (by simp at h1; tauto) (by simp at h1; tauto)⟩
    rw [hnext.rest, State.updLoader, hrest, hstart.rest]

/-- A word of a package that meets an update in progress. -/
theorem does_stageData_busy {v : Word} {s : State} (hp : s.boot.porst = true) (hrun : s.bsState = bsRUNNING)
    (hst : s.updState = upVERIFYING ∨ s.updState = upINSTALLING ∨ s.updState = upARMED) :
    Does (.stageData v) s (fun t => t.getF fBSTREAM_UPDATE_STATUS_ERR_CODE = errBusy ∧ t.updState = s.updState ∧ Quiet [rBSTREAM_UPDATE_STATUS] s t) := by
  refine does_inCore (act := (·.stageData v)) rfl hp ?_
  obtain ⟨hsame, hcode, hquiet⟩ := s.updNak_busy
  have hbusy : (s.updNak errBusy).updBusyState = true := (State.updBusyState_iff _).2 (by rw [hsame]; exact hst)
  have heq : s.stageData v = s.updNak errBusy := by
    rw [State.stageData, if_pos hrun, State.stageBytes, if_pos (s.updBusyState_iff.2 hst)]
    exact if_pos ⟨hrun, hbusy⟩
  rw [heq]
  exact ⟨hcode, hsame, hquiet⟩

/-- A word of a package that is received. -/
theorem does_stageData_package {v : Word} {s : State} (hc : Clean s) (hp : s.boot.porst = true) (hrun : s.bsState = bsRUNNING) (hst : s.updState = upRECEIVING) :
    let a := s.regN rBSTREAM_STAGE_ADDR / 4 * 4
    a + 4 ≤ s.stageSize → s.inDram (s.stageBase + a) 4 = true →
    Does (.stageData v) s (fun t => t.updState = upRECEIVING ∧ t.bytes (s.stageBase + a) 4 = leBytes 4 v.toNat
      ∧ (∀ x, x < s.stageBase + a ∨ s.stageBase + a + 4 ≤ x → t.byte x = s.byte x)
      ∧ t.regN rBSTREAM_STAGE_ADDR = (a + 4) % 2 ^ 32) := by
  intro a hin hdram
  refine does_inCore (act := (·.stageData v)) rfl hp ?_
  have hlen : (leBytes 4 v.toNat).length = 4 := length_leBytes 4 _
  have hfree : ∀ u : State, u.updState = upRECEIVING → ¬u.updBusyState = true := fun u hu => State.not_updBusyState (.inl hu)
  have heq : s.stageData v = (s.setBytes (s.stageBase + a) (leBytes 4 v.toNat)).stageNext a := by
    have hbytes : s.stageBytes a (leBytes 4 v.toNat) = s.setBytes (s.stageBase + a) (leBytes 4 v.toNat) := by
      rw [State.stageBytes, if_neg (hfree s hst), if_pos hst, if_pos (by rw [hlen]; exact hin), State.putDram,
        if_pos (.inr (by rw [hlen]; exact hdram)), State.writeMem_of_clean hc]
    rw [State.stageData, if_pos hrun]
    change (if s.bsState = bsRUNNING ∧ (s.stageBytes a (leBytes 4 v.toNat)).updBusyState = true then _ else State.stageNext (s.stageBytes a (leBytes 4 v.toNat)) a) = _
    rw [hbytes, if_neg fun h => hfree (s.setBytes (s.stageBase + a) (leBytes 4 v.toNat)) hst h.2]
  rw [heq]
  have hnext := (s.setBytes (s.stageBase + a) (leBytes 4 v.toNat)).stageNext_only a
  have haddr := (s.setBytes (s.stageBase + a) (leBytes 4 v.toNat)).stageNext_addr a
  have hmem : ((s.setBytes (s.stageBase + a) (leBytes 4 v.toNat)).stageNext a).mem = (s.setBytes (s.stageBase + a) (leBytes 4 v.toNat)).mem := hnext.mem_eq
  generalize (s.setBytes (s.stageBase + a) (leBytes 4 v.toNat)).stageNext a = t at hnext haddr hmem
  have hbyte : ∀ x, t.byte x = (s.setBytes (s.stageBase + a) (leBytes 4 v.toNat)).byte x := fun x => by rw [State.byte, hmem, State.byte]
  refine ⟨?_, ?_, fun x hx => ?_, haddr⟩
  · rw [State.updState, State.getF_congr (hnext.regs _ (by decide))]
    exact hst
  · have hsame := s.bytes_setBytes_same (s.stageBase + a) (leBytes 4 v.toNat)
    rw [hlen] at hsame
    rw [State.bytes_congr fun x _ _ => hbyte x, hsame]
  · rw [hbyte, State.byte_setBytes_other _ (by rw [hlen]; exact hx)]

theorem State.loadError_quiet (s : State) (code sec : Nat) : Quiet [rBSTREAM_ERROR] s (s.loadError code sec) :=
  ((Quiet.refl _ s).setRegN (by decide)).post (by decide)

theorem does_stageTimeout_push {s : State} (hst : s.bsState = bsLOAD_HOST) :
    Does .stageTimeout s (fun t => t.bsState = bsWAIT_HOST
      ∧ t.loader = { s.loader with push := [], pushed := 0 } ∧ Quiet [rBSTREAM_STATUS, rBSTREAM_ERROR] { s with loader := t.loader } t) := by
  have hx : exec .stageTimeout s = .next s.stageTimeout := rfl
  rw [State.stageTimeout, if_pos hst] at hx
  have herr : Quiet [rBSTREAM_STATUS, rBSTREAM_ERROR] s ((s.loadError errTimeout 0xFF).setBs bsWAIT_HOST) :=
    ((s.loadError_quiet errTimeout 0xFF).mono (by simp)).setF (by decide)
  have hstate : ((s.loadError errTimeout 0xFF).setBs bsWAIT_HOST).bsState = bsWAIT_HOST := State.setBs_state _ (by decide)
  generalize (s.loadError errTimeout 0xFF).setBs bsWAIT_HOST = u at hx herr hstate
  have hl : (u.updLoader (fun x => { x with push := [], pushed := 0 })).loader = { s.loader with push := [], pushed := 0 } := by
    rw [State.updLoader, herr.loader]
  refine ⟨_, hx, (State.getF_congr (State.updLoader_reg _ _ _)).trans hstate, hl, ?_, fun off h1 h2 => herr.regs off h1 h2⟩
  rw [hl, State.updLoader, herr.rest]

/-- Settles O36: the words of a push and of a package, and their timeouts. -/
theorem staging : Obligations.Staging := by
  unfold Obligations.Staging
  refine ⟨fun v s hc hp hst => does_stageData_push hc hp hst, fun v s hp hrun hst => does_stageData_busy hp hrun hst,
    fun v s hc hp hrun hst => does_stageData_package hc hp hrun hst, fun s hst => does_stageTimeout_push hst, fun s hrun hst => ?_⟩
  have hx : exec .stageTimeout s = .next s.stageTimeout := rfl
  rw [State.stageTimeout, if_neg (by rw [hrun]; decide), if_pos ⟨hrun, hst⟩] at hx
  obtain ⟨hstate, hl, hcode⟩ := s.updRefuse_effect errTimeout
  exact ⟨_, hx, hstate, hcode, hl⟩

end Sys2Proof.Machine

/-! ## A complete push and load phases 2 and 3 (R45 to R50) -/

namespace Sys2Proof.Machine

/-! ### What applying sections leaves of the loader -/

/-- A field that every step of a fold keeps. -/
theorem foldl_keeps {α β : Type} {φ : State → β} {F : State → α → State} (h : ∀ s x, φ (F s x) = φ s) (l : List α) : ∀ s, φ (l.foldl F s) = φ s := by
  induction l with
  | nil => exact fun _ => rfl
  | cons x l ih => exact fun s => (ih (F s x)).trans (h s x)

theorem State.loader_post (s : State) {k : EvKind} (hp : k.prio < 4) (src data : Nat) : (s.post k src data).loader = s.loader :=
  ((Quiet.refl [] s).post hp).loader

theorem State.loader_setF (s : State) (f : Fld) (n : Nat) : (s.setF f n).loader = s.loader := State.setReg_loader _ _ _

theorem State.faultN_setF (s : State) (f : Fld) (n : Nat) : (s.setF f n).faultN = s.faultN := State.setReg_faultN _ _ _

theorem State.reg_setF_ne {s : State} {f : Fld} {n o : Nat} (h : o ≠ f.off) : (s.setF f n).reg o = s.reg o := by
  rw [State.setF, State.reg_setRegN, if_neg h]

/-- What BSTREAM_ERROR shows of a load that failed. -/
theorem State.loadError_reg (s : State) (code sec : Nat) : (s.loadError code sec).regN rBSTREAM_ERROR = (65536 * sec + code) % 2 ^ 32 := by
  have hpost : Quiet [] (s.setRegN rBSTREAM_ERROR (65536 * sec + code)) (s.loadError code sec) := (Quiet.refl _ _).post (by decide)
  rw [State.regN, hpost.regs _ (by simp) (by decide)]
  change (State.setRegN s rBSTREAM_ERROR (65536 * sec + code)).regN rBSTREAM_ERROR = _
  rw [State.regN_setRegN, if_pos rfl]

theorem State.loader_releaseFault (s : State) (c : FaultCause) : (s.releaseFault c).loader = s.loader := rfl

theorem State.loader_setB (s : State) (f : Fld) (b : Bool) : (s.setB f b).loader = s.loader := State.setReg_loader _ _ _

theorem State.loader_setRegN (s : State) (o n : Nat) : (s.setRegN o n).loader = s.loader := State.setReg_loader _ _ _

theorem State.loader_setPair (s : State) (a b n : Nat) : (s.setPair a b n).loader = s.loader := (State.setReg_loader _ _ _).trans (State.setReg_loader _ _ _)

theorem State.loader_declareAll (s : State) (l : List (Nat × Word)) : (s.declareAll l).loader = s.loader :=
  foldl_keeps (φ := State.loader) (fun s c => by
    unfold State.declare
    split
    · rfl
    · exact State.setReg_loader _ _ _) l s

theorem State.loader_setRegWords (s : State) (o : Nat) (l : List Word) : (s.setRegWords o l).loader = s.loader := by rw [State.setRegWords_rest]

theorem State.loader_hidWrite (s : State) (r : Nat) : (s.hidWrite r).loader = s.loader := by
  unfold State.hidWrite
  split
  · exact (State.loader_setF _ _ _).trans rfl
  · rfl

theorem State.loader_takeTables (s : State) : s.takeTables.loader = s.loader := by
  rw [State.takeTables, State.loader_hidWrite, State.loader_hidWrite, State.updSafe_loader]

theorem State.loader_placeTiles (s : State) : s.placeTiles.loader = s.loader :=
  foldl_keeps (φ := State.loader) (fun _ _ => (State.loader_setF _ _ _).trans (State.loader_setF _ _ _)) _ s

theorem State.loader_setStale (s : State) (f : Nat → Nat) : (s.setStale f).loader = s.loader :=
  foldl_keeps (φ := State.loader) (fun _ _ => State.loader_setF _ _ _) _ s

theorem State.loader_showHeader (s : State) (img : LoadImg) (image : Nat) : (s.showHeader img image).loader = s.loader := by
  rw [State.showHeader]
  simp only [State.loader_setB, State.loader_setF, State.loader_setRegWords, State.loader_setRegN, State.loader_setPair]

theorem State.loader_ethOut (s : State) (p : Nat) (x : EthTx) : (s.ethOut p x).loader = s.loader := by
  unfold State.ethOut
  split
  · exact State.updHost_loader _ _
  split
  · rfl
  split
  · rfl
  extract_lets -merge v1 v2
  have h2 : v2.loader = s.loader := (State.updHost_loader _ _).trans (State.updHost_loader _ _)
  split
  · exact ((Quiet.refl [] v2).postGap (by decide)).loader.trans h2
  · exact h2

theorem State.loader_sendRec (s : State) (c op : Nat) (b : List Byte) (ref fl : Nat) : (s.sendRec c op b ref fl).loader = s.loader := by
  unfold State.sendRec
  extract_lets -merge n v1 r full v2
  have h1 : v1.loader = s.loader := State.loader_setRegN _ _ _
  have h2 : v2.loader = s.loader := (State.updHost_loader _ _).trans h1
  split
  · split
    · exact (State.setReg_loader _ _ _).trans h2
    · exact h2
  · exact (v1.loader_ethOut _ _).trans h1

theorem State.loader_hostApply (s : State) (c : HostC) : (s.hostApply c).loader = s.loader := by
  unfold State.hostApply
  extract_lets -merge v1 v2 vh v4 v5
  have h1 : v1.loader = s.loader := State.updHost_loader _ _
  have h2 : v2.loader = v1.loader := by
    simp only [v2, List.foldl_cons, List.foldl_nil, State.loader_setB]
  have h5 : v5.loader = v2.loader := by
    simp only [v5]
    split
    · exact State.loader_setF _ _ _
    · rfl
  exact (foldl_keeps (φ := State.loader) (fun s p => s.loader_sendRec _ _ _ _ _) _ v5).trans (h5.trans (h2.trans h1))

/-- The loader once phase 1 is applied. -/
theorem State.loader_applyPhase1 (s : State) (img : LoadImg) (image : Nat) :
    (s.applyPhase1 img image).loader.phase = 1 ∧ (s.applyPhase1 img image).loader.img = img
      ∧ (s.applyPhase1 img image).loader.push = s.loader.push := by
  unfold State.applyPhase1
  extract_lets -merge l v1 v2 c v3 v4
  have h2 : v2.loader.phase = 1 ∧ v2.loader.img = img ∧ v2.loader.push = s.loader.push := ⟨rfl, rfl, rfl⟩
  have h3 : v3.loader = v2.loader := by
    rw [show v3 = ((v2.declareAll c.st.regs).declareAll c.bd.regs).declareAll c.sf.regs from rfl, State.loader_declareAll, State.loader_declareAll,
      State.loader_declareAll]
  have h4 : v4.loader = v2.loader := by
    rw [show v4 = (v3.takeTables.placeTiles.setStale (fun _ => c.sf.staleMax)).showHeader img image from rfl, State.loader_showHeader,
      State.loader_setStale, State.loader_placeTiles, State.loader_takeTables, h3]
  have h5 : ((v4.setF fTOP_START_STATUS_PHASE1_DONE 1).showLoaded).loader = v2.loader := by
    rw [State.showLoaded, State.loader_setF, State.loader_setF, h4]
  rw [h5]
  exact h2

theorem State.loader_showLoaded (s : State) : s.showLoaded.loader = s.loader := State.loader_setF _ _ _

/-- Once phase 2 is applied, the lock is set. -/
theorem State.applyPhase2_effect (s : State) : s.applyPhase2.loader.phase = 2 ∧ s.applyPhase2.isF fBSTREAM_STATUS_LOCKED = true := by
  unfold State.applyPhase2
  extract_lets -merge l lm v1 c v2 v3
  have h1 : v1.loader.phase = 2 := rfl
  have h2 : v2.loader = v1.loader := by
    rw [show v2 = ((v1.declareAll c.pw.regs).declareAll c.ti.regs).declareAll c.ho.regs from rfl, State.loader_declareAll, State.loader_declareAll,
      State.loader_declareAll]
  have h3 : v3.loader = v2.loader := (State.loader_showLoaded _).trans (State.loader_hostApply _ _)
  refine ⟨?_, ?_⟩
  · rw [State.loader_setF, State.loader_setF, h3, h2, h1]
  · rw [State.isF_congr (State.reg_setF_ne (by decide)), State.isF_setF_one _ rfl (by decide)]

/-- The part is no state (R2): every command keeps it. -/
theorem State.part_applyPhase2 (s : State) : s.applyPhase2.part = s.part := (keeps_applyPhase2 (Keeps.refl s)).fixed.part

/-! ### The ends of a load -/

/-- A load that fails: its code and section, FAILED, the fault, and the lock as it was. -/
theorem State.loadFailed_effect (s : State) (r : Nat × Nat) :
    (s.loadFailed r).bsState = bsFAILED ∧ (s.loadFailed r).loader = { s.loader with failed := true }
      ∧ (s.loadFailed r).regN rBSTREAM_ERROR = (65536 * r.2 + r.1) % 2 ^ 32 ∧ .load ∈ (s.loadFailed r).faultN
      ∧ (s.loadFailed r).isF fBSTREAM_STATUS_LOCKED = s.isF fBSTREAM_STATUS_LOCKED := by
  have hquiet := s.loadError_quiet r.1 r.2
  have hreg := s.loadError_reg r.1 r.2
  unfold State.loadFailed
  generalize s.loadError r.1 r.2 = u at hquiet hreg
  dsimp only
  have hl : (u.updLoader (fun x => { x with failed := true })).loader = { s.loader with failed := true } := by rw [State.updLoader, hquiet.loader]
  have hset := (u.updLoader (fun x => { x with failed := true })).setBs_only bsFAILED
  have hstate := (u.updLoader (fun x => { x with failed := true })).setBs_state (v := bsFAILED) (by decide)
  have hlock : ((u.updLoader (fun x => { x with failed := true })).setBs bsFAILED).isF fBSTREAM_STATUS_LOCKED = s.isF fBSTREAM_STATUS_LOCKED := by
    rw [State.isF, State.setBs, State.getF_setF_other _ _ _ _ (by decide) (.inr (by decide)), State.updLoader_getF,
      hquiet.getF _ (by decide) (by decide), State.isF]
  have herr : ((u.updLoader (fun x => { x with failed := true })).setBs bsFAILED).regN rBSTREAM_ERROR = (65536 * r.2 + r.1) % 2 ^ 32 := by
    rw [State.regN, hset.regs _ (by decide)]
    exact hreg
  generalize (u.updLoader (fun x => { x with failed := true })).setBs bsFAILED = w at hset hstate hlock herr
  refine ⟨hstate, ?_, herr, ?_, hlock⟩
  · rw [State.assertFault, hset.rest]
    exact hl
  · rw [State.assertFault]
    split
    · assumption
    · exact List.mem_cons_self

theorem State.installPhase3_effect (s : State) (img : LoadImg) : (s.installPhase3 img).bsState = bsRUNNING
    ∧ (s.installPhase3 img).isF fTOP_START_STATUS_RUNTIME_DONE = true ∧ .load ∉ (s.installPhase3 img).faultN := by
  unfold State.installPhase3
  extract_lets -merge l v1 v2 v3 v4
  have hset := v4.setBs_only bsRUNNING
  have hstate := v4.setBs_state (v := bsRUNNING) (by decide)
  have hfault : .load ∉ v4.faultN := by
    simp only [v4, State.releaseFault, List.mem_filter]
    simp
  generalize v4.setBs bsRUNNING = w at hset hstate
  refine ⟨?_, State.isF_setF_one _ rfl (by decide), ?_⟩
  · rw [State.bsState, State.getF_congr (State.reg_setF_ne (by decide))]
    exact hstate
  · rw [State.faultN_setF, hset.rest]
    exact hfault

/-! ### The commands -/

/-- The checks of phase 0 go by the part and the fuses (R41, R44). -/
theorem checkPhase0_congr {s t : State} (hpart : t.part = s.part) (hstep : t.stepping = s.stepping)
    (hotp : t.otp = s.otp) (bs : List Byte) : checkPhase0 t bs = checkPhase0 s bs := by
  have h1 : checkPart t bs = checkPart s bs := by unfold checkPart; rw [hpart, hstep]
  have h2 : checkKeys t bs = checkKeys s bs := by unfold checkKeys; rw [hotp]
  rw [checkPhase0, h1, h2, checkPhase0]

/-- A push that is refused (R48): its code and section, and the device waits on. -/
theorem State.pushRefused_effect (u : State) (code sec : Nat) :
    ((u.loadError code sec).setBs bsWAIT_HOST).loader.push = u.loader.push ∧ ((u.loadError code sec).setBs bsWAIT_HOST).bsState = bsWAIT_HOST
      ∧ ((u.loadError code sec).setBs bsWAIT_HOST).regN rBSTREAM_ERROR = (65536 * sec + code) % 2 ^ 32
      ∧ ((u.loadError code sec).setBs bsWAIT_HOST).loader.phase = u.loader.phase := by
  have hquiet := u.loadError_quiet code sec
  have hreg := u.loadError_reg code sec
  generalize u.loadError code sec = w at hquiet hreg
  have hl : (w.setBs bsWAIT_HOST).loader = u.loader := (State.loader_setF _ _ _).trans hquiet.loader
  refine ⟨by rw [hl], w.setBs_state (by decide), ?_, by rw [hl]⟩
  rw [State.regN, (w.setBs_only bsWAIT_HOST).regs _ (by decide)]
  exact hreg

/-- The ways of a first push: a check of phase 0 fails, one of phase 1 does, or the image is applied. -/
theorem State.pushFirst_phase0 {u : State} {bs : List Byte} (cs : List Content) {code : Nat} (hf : u.loader.failed = false) (h : checkPhase0 u bs = some code) :
    u.pushFirst bs cs = (u.loadError code 0xFF).setBs bsWAIT_HOST := by
  have hload : u.loadPhase1 bs cs 2 = (some (code, 0xFF), u) := by rw [State.loadPhase1, h]
  simp only [State.pushFirst, hload, hf, Bool.false_eq_true, if_false]

theorem State.pushFirst_phase1 {u : State} {bs : List Byte} {cs : List Content} {r : Nat × Nat} (hf : u.loader.failed = false) (h : checkPhase0 u bs = none)
    (h1 : checkPhase u.part {} (readImage bs cs) 1 = some r) : u.pushFirst bs cs = (u.loadError r.1 r.2).setBs bsWAIT_HOST := by
  have hload : u.loadPhase1 bs cs 2 = (some r, u) := by simp only [State.loadPhase1, h, h1]
  simp only [State.pushFirst, hload, hf, Bool.false_eq_true, if_false]

/-- Phase 1 in force after a push, and the environment to be verified. -/
def State.pushApplied (u : State) (img : LoadImg) : State := ((u.applyPhase1 img 2).releaseFault .env).setBs bsVERIFY_ENV

theorem State.pushFirst_ok {u : State} {bs : List Byte} {cs : List Content} (h : checkPhase0 u bs = none)
    (h1 : checkPhase u.part {} (readImage bs cs) 1 = none) : u.pushFirst bs cs = { u.pushApplied (readImage bs cs) with
      boot := { (u.pushApplied (readImage bs cs)).boot with phase := .waitPmic, dramTries := 0 } } := by
  have hload : u.loadPhase1 bs cs 2 = (none, u.applyPhase1 (readImage bs cs) 2) := by simp only [State.loadPhase1, h, h1]
  simp only [State.pushFirst, hload, State.pushApplied]

theorem State.bsState_withBoot (s : State) (b : Boot) : ({ s with boot := b } : State).bsState = s.bsState := State.updBoot_getF s (fun _ => b) _

theorem does_hostPushLoad {cs : List Content} {s : State} (hst : s.bsState = bsLOAD_HOST) (hfail : s.loader.failed = false) :
    let bs := tabRange (fun _ => 0#8) s.loader.push 0 s.loader.pushed
    Does (.hostPushLoad cs) s (fun t => t.loader.push = [] ∧ match checkPhase0 s bs with
      | some code => t.bsState = bsWAIT_HOST ∧ t.regN rBSTREAM_ERROR = (65536 * 0xFF + code) % 2 ^ 32 ∧ t.loader.phase = s.loader.phase
      | none => match checkPhase s.part {} (readImage bs cs) 1 with
        | some r => t.bsState = bsWAIT_HOST ∧ t.regN rBSTREAM_ERROR = (65536 * r.2 + r.1) % 2 ^ 32 ∧ t.loader.phase = s.loader.phase
        | none => t.bsState = bsVERIFY_ENV ∧ t.boot.phase = .waitPmic ∧ t.loader.phase = 1 ∧ t.loader.img = readImage bs cs) := by
  intro bs
  have hx : exec (.hostPushLoad cs) s = .next (s.hostPush cs) := rfl
  generalize hu : s.updLoader (fun x => { x with push := [], pushed := 0 }) = u at *
  have hfail' : u.loader.failed = false := by rw [← hu]; exact hfail
  have hphase : u.loader.phase = s.loader.phase := by rw [← hu]; rfl
  have hpush : u.loader.push = [] := by rw [← hu]; rfl
  have hpart : u.part = s.part := by rw [← hu]; rfl
  have hchk0 : checkPhase0 u bs = checkPhase0 s bs := checkPhase0_congr hpart (by rw [← hu]; rfl) (by rw [← hu]; rfl) bs
  have heq : s.hostPush cs = u.pushFirst bs cs := by
    rw [State.hostPush, if_neg (by simp [hst]), hu]
    exact if_neg (by simp [hfail'])
  rw [heq] at hx
  cases hc0 : checkPhase0 s bs with
  | some code =>
    rw [State.pushFirst_phase0 cs hfail' (hchk0.trans hc0)] at hx
    obtain ⟨hp, hb, he, hl⟩ := u.pushRefused_effect code 0xFF
    exact ⟨_, hx, hp.trans hpush, hb, he, hl.trans hphase⟩
  | none =>
    cases hc1 : checkPhase s.part {} (readImage bs cs) 1 with
    | some r =>
      rw [State.pushFirst_phase1 hfail' (hchk0.trans hc0) (by rw [hpart, hc1])] at hx
      obtain ⟨hp, hb, he, hl⟩ := u.pushRefused_effect r.1 r.2
      exact ⟨_, hx, hp.trans hpush, hb, he, hl.trans hphase⟩
    | none =>
      rw [State.pushFirst_ok (hchk0.trans hc0) (by rw [hpart, hc1])] at hx
      obtain ⟨hph, him, hps⟩ := State.loader_applyPhase1 u (readImage bs cs) 2
      have hl : (u.pushApplied (readImage bs cs)).loader = (u.applyPhase1 (readImage bs cs) 2).loader := by
        rw [State.pushApplied, State.setBs, State.loader_setF, State.loader_releaseFault]
      have hstate : (u.pushApplied (readImage bs cs)).bsState = bsVERIFY_ENV := by
        rw [State.pushApplied, State.setBs_state _ (by decide)]
      generalize u.pushApplied (readImage bs cs) = x at hl hstate hx
      exact ⟨_, hx, (congrArg Loader.push hl).trans (hps.trans hpush), (State.bsState_withBoot x _).trans hstate, rfl, (congrArg Loader.phase hl).trans hph, (congrArg Loader.img hl).trans him⟩

/-- Settles O38: a complete push refused or applied; phases 2 and 3 where they may not come, refused, and complete. -/
theorem loadPhases : Obligations.LoadPhases := by
  unfold Obligations.LoadPhases
  refine ⟨fun cs s hst hfail => does_hostPushLoad hst hfail, fun s hno => ?_, fun s h1 h2 h3 h4 => ?_⟩
  · have hx : exec .loadPhase2 s = .next s.loadPhase2 := rfl
    rw [State.loadPhase2, if_pos hno] at hx
    exact ⟨_, hx, rfl⟩
  · have hx : exec .loadPhase2 s = .next s.loadPhase2 := rfl
    rw [State.loadPhase2, if_neg (by simp [h1, h2, h3, h4])] at hx
    cases hc2 : checkPhase s.part s.loader.cfg s.loader.img 2 with
    | some r =>
      obtain ⟨hstate, hl, herr, hfault, hlock⟩ := s.loadFailed_effect r
      rw [hc2] at hx
      exact ⟨_, hx, hstate, by rw [hl], herr, hfault, hlock⟩
    | none =>
      have hlocked := s.applyPhase2_effect
      have hpart := s.part_applyPhase2
      rw [hc2] at hx
      dsimp only at hx ⊢
      rw [State.loadPhase3, hpart] at hx
      generalize s.applyPhase2 = u at hx hlocked
      refine ⟨_, hx, ?_⟩
      cases checkPhase s.part u.loader.cfg s.loader.img 3 with
      | some r =>
        obtain ⟨hstate, hl, herr, -, hlock⟩ := u.loadFailed_effect r
        exact ⟨hstate, by rw [hl], by rw [hl]; exact hlocked.1, hlock.trans hlocked.2, herr⟩
      | none => exact u.installPhase3_effect s.loader.img

end Sys2Proof.Machine

/-! ## Resets and the first steps of a start (R58 to R61) -/

namespace Sys2Proof.Machine

theorem OnlyRegs.boot_eq {l : List Nat} {s t : State} (q : OnlyRegs l s t) : t.boot = s.boot := by rw [q.rest]

/-! ### A reset of the core -/

theorem State.coreReset_reg (s : State) (m : List Host.Cell) (y : List (Nat × Nat)) :
    (s.coreReset m y).reg rPWR_WAKE_FAIL_CAUSE = s.reg rPWR_WAKE_FAIL_CAUSE := by
  rw [State.coreReset, State.reg_setReg, if_pos rfl]

/-- What a reset of the core keeps, and what it resets. -/
structure CoreReset (m : List Host.Cell) (s t : State) : Prop where
  mem : t.mem = m
  otp : t.otp = s.otp
  store : t.store = s.store
  now : t.time.now = s.time.now
  boot : t.boot = State.reset.boot
  cause : t.reg rPWR_WAKE_FAIL_CAUSE = s.reg rPWR_WAKE_FAIL_CAUSE

theorem coreReset_coreReset (s : State) (m : List Host.Cell) (y : List (Nat × Nat)) : CoreReset m s (s.coreReset m y) where
  mem := State.setReg_mem _ _ _
  otp := State.setReg_otp _ _ _
  store := State.setReg_store _ _ _
  now := by rw [State.coreReset, State.setReg_time]
  boot := State.setReg_boot _ _ _
  cause := s.coreReset_reg m y

theorem reset_boot : State.reset.boot.phase = .off ∧ State.reset.boot.porst = false ∧ State.reset.boot.pmicEn = false := ⟨rfl, rfl, rfl⟩

/-! ### PMIC_EN goes high -/

/-- The registers of a wake (R403, R410). -/
def State.wakeShown (s : State) (cause left source : Nat) : State :=
  ((s.setF fTOP_RESET_CAUSE_CAUSE cause).setRegN rPWR_WAKE_SRC (16 * left + source)).setF fPWR_PWR_STATUS_CURRENT 0

theorem State.wakeShown_only (s : State) (cause left source : Nat) :
    OnlyRegs [rTOP_RESET_CAUSE, rPWR_WAKE_SRC, rPWR_PWR_STATUS] s (s.wakeShown cause left source) :=
  (((OnlyRegs.refl _ s).setF (by decide)).setRegN (by decide)).setF (by decide)

theorem State.wakeShown_cause (s : State) {cause : Nat} (left source : Nat) (hc : cause < 4) :
    (s.wakeShown cause left source).getF fTOP_RESET_CAUSE_CAUSE = cause := by
  rw [State.wakeShown, State.getF_setF_other _ _ _ _ (by decide) (.inl (by decide)), State.getF_setRegN_other _ _ (by decide), State.getF_setF _ _ _ (by decide)]
  exact Nat.mod_eq_of_lt (hc.trans (by decide))

theorem State.wakeShown_source (s : State) (cause : Nat) {left source : Nat} (h : 16 * left + source < 2 ^ 32) :
    (s.wakeShown cause left source).regN rPWR_WAKE_SRC = 16 * left + source := by
  rw [State.regN, State.wakeShown, State.reg_setF_ne (by decide)]
  change (State.setRegN _ rPWR_WAKE_SRC (16 * left + source)).regN rPWR_WAKE_SRC = _
  rw [State.regN_setRegN, if_pos rfl, Nat.mod_eq_of_lt h]

/-- The boot record when PMIC_EN goes high. -/
def Boot.pmicUp (b : Boot) (now : Nat) : Boot := { b with phase := .waitPg, t0 := now, pmicEn := true, pmicAt := none, pgTries := 0 }

/-- PMIC_EN high: what the start and its registers show, all else as before but for the event. -/
structure PmicOn (cause src : Nat) (s t : State) : Prop where
  boot : { t.boot with held := [] } = { s.boot.pmicUp s.time.now with held := [] }
  cause : t.getF fTOP_RESET_CAUSE_CAUSE = cause
  source : t.regN rPWR_WAKE_SRC = src
  mem : t.mem = s.mem
  otp : t.otp = s.otp
  store : t.store = s.store
  fail : t.reg rPWR_WAKE_FAIL_CAUSE = s.reg rPWR_WAKE_FAIL_CAUSE

theorem pmicOn_pmicOn (s : State) {cause left source : Nat} (hc : cause < 4) (h : 16 * left + source < 2 ^ 32) :
    PmicOn cause (16 * left + source) s (s.pmicOn cause left source) := by
  have honly := (s.updBoot (·.pmicUp s.time.now)).wakeShown_only cause left source
  have hcause := (s.updBoot (·.pmicUp s.time.now)).wakeShown_cause left source hc
  have hsource := (s.updBoot (·.pmicUp s.time.now)).wakeShown_source cause h
  have heq : s.pmicOn cause left source = ((s.updBoot (·.pmicUp s.time.now)).wakeShown cause left source).post evPOWER_WAKE srcPWR (16 * left + source) := rfl
  rw [heq]
  generalize (s.updBoot (·.pmicUp s.time.now)).wakeShown cause left source = u at honly hcause hsource
  have hpost : Quiet [] u (u.post evPOWER_WAKE srcPWR (16 * left + source)) := (Quiet.refl _ u).post (by decide)
  generalize u.post evPOWER_WAKE srcPWR (16 * left + source) = t at hpost
  have hboot : u.boot = s.boot.pmicUp s.time.now := by rw [honly.rest]; rfl
  exact {
    boot := by rw [hpost.rest, ← hboot]
    cause := (hpost.getF _ (by simp) (by decide)).trans hcause
    source := (congrArg BitVec.toNat (hpost.regs _ (by simp) (by decide))).trans hsource
    mem := by rw [hpost.rest, honly.rest]; rfl
    otp := by rw [hpost.rest, honly.rest]; rfl
    store := by rw [hpost.rest, honly.rest]; rfl
    fail := (hpost.regs _ (by simp) (by decide)).trans ((honly.regs _ (by decide)).trans (State.updBoot_reg _ _ _)) }

theorem does_wakeN_off {s : State} (ha : s.boot.aon = true) (hph : s.boot.phase = .off) (hcur : s.getF fPWR_PWR_STATUS_CURRENT ≠ 3) :
    Does .wakeN s (fun t => t.boot.phase = .waitPg ∧ t.boot.pmicEn = true ∧ t.boot.t0 = s.time.now
      ∧ t.getF fTOP_RESET_CAUSE_CAUSE = 0 ∧ t.regN rPWR_WAKE_SRC = 0x41 ∧ t.mem = [] ∧ t.otp = s.otp ∧ t.store = s.store
      ∧ t.reg rPWR_WAKE_FAIL_CAUSE = s.reg rPWR_WAKE_FAIL_CAUSE) := by
  have hx : exec .wakeN s = .next s.wakeN := rfl
  rw [State.wakeN, if_neg (by simp [ha]), if_pos hph, if_neg hcur, State.startOff] at hx
  have hreset := coreReset_coreReset s [] []
  generalize s.coreReset [] [] = u at hx hreset
  obtain ⟨hboot, hcause, hsource, hmem, hotp, hstore, hfail⟩ := pmicOn_pmicOn u (cause := 0) (left := 4) (source := 1) (by decide) (by decide)
  exact ⟨_, hx, (congrArg Boot.phase hboot :), (congrArg Boot.pmicEn hboot :), (congrArg Boot.t0 hboot : _).trans hreset.now, hcause, hsource,
    hmem.trans hreset.mem, hotp.trans hreset.otp, hstore.trans hreset.store, hfail.trans hreset.cause⟩

theorem does_wakeN_deep {s : State} (ha : s.boot.aon = true) (hph : s.boot.phase = .off) (hcur : s.getF fPWR_PWR_STATUS_CURRENT = 3) :
    Does .wakeN s (fun t => t.boot.phase = .waitPg ∧ t.boot.warm = s.pwr.keep
      ∧ t.getF fTOP_RESET_CAUSE_CAUSE = 1 ∧ t.regN rPWR_WAKE_SRC = 0x31 ∧ t.mem = s.mem) := by
  have hx : exec .wakeN s = .next s.wakeN := rfl
  rw [State.wakeN, if_neg (by simp [ha]), if_pos hph, if_pos hcur, State.startDeep] at hx
  obtain ⟨hboot, hcause, hsource, hmem, -⟩ := pmicOn_pmicOn (s.updBoot (fun b => { b with warm := s.pwr.keep })) (cause := 1) (left := 3) (source := 1)
    (by decide) (by decide)
  exact ⟨_, hx, (congrArg Boot.phase hboot :), (congrArg Boot.warm hboot :), hcause, hsource, hmem⟩

/-! ### PORST_N, PG_TIMEOUT and FIO_CHECK -/

theorem does_porstNRise {s : State} (hph : s.boot.phase = .waitPg) :
    Does .porstNRise s (fun t => t.boot.phase = .waitFio ∧ t.boot.porst = s.boot.porst
      ∧ t.isF fTOP_START_STATUS_BOOT_RAILS = true ∧ Quiet [rTOP_START_STATUS] { s with boot := t.boot } t) := by
  have hx : exec .porstNRise s = .next (if s.boot.phase ≠ .waitPg then s
      else (s.pmicBack.updBoot (fun b => { b with phase := .waitFio, fioTries := 0 })).setF fTOP_START_STATUS_BOOT_RAILS 1) := rfl
  rw [if_neg (by simp [hph])] at hx
  have hset := (OnlyRegs.refl [rTOP_START_STATUS] (s.pmicBack.updBoot (fun b => { b with phase := .waitFio, fioTries := 0 }))).setF
    (f := fTOP_START_STATUS_BOOT_RAILS) (n := 1) (by decide)
  have hflag := State.isF_setF_one (s.pmicBack.updBoot (fun b => { b with phase := .waitFio, fioTries := 0 })) (f := fTOP_START_STATUS_BOOT_RAILS) rfl (by decide)
  generalize hu : s.pmicBack.updBoot (fun b => { b with phase := .waitFio, fioTries := 0 }) = u at hx hset hflag
  have hrest : u = { s with boot := u.boot } := by rw [← hu]; rfl
  have hboot : u.boot.phase = .waitFio ∧ u.boot.porst = s.boot.porst := by rw [← hu]; exact ⟨rfl, rfl⟩
  have hb : (u.setF fTOP_START_STATUS_BOOT_RAILS 1).boot = u.boot := State.setReg_boot _ _ _
  refine ⟨_, hx, by rw [hb]; exact hboot.1, by rw [hb]; exact hboot.2, hflag, ?_⟩
  rw [hb, ← hrest]
  exact hset.quiet

/-- A byte of the retention memory, and one outside it, after a reset that keeps that memory. -/
theorem State.byte_retMem (s : State) {t : State} (h : t.mem = s.retMem) (a : Nat) :
    t.byte a = if retBase ≤ a ∧ a < retBase + retSize then s.byte a else 0 := by
  rw [State.byte, h, State.retMem, tabGet_filter (fun _ => 0#8) s.mem (fun x => decide (retBase ≤ x ∧ x < retBase + retSize)) a]
  simp only [decide_eq_true_eq]
  rfl

theorem does_porstNLow {s : State} (h : s.boot.porst = true ∨ s.boot.phase = .waitFio) :
    Does .porstNLow s (fun t => t.boot.phase = .waitPg ∧ t.boot.porst = false
      ∧ t.boot.t0 = s.time.now ∧ t.getF fTOP_RESET_CAUSE_CAUSE = 2 ∧ t.otp = s.otp
      ∧ (∀ a, retBase ≤ a → a < retBase + retSize → t.byte a = s.byte a)
      ∧ (∀ a, a < retBase ∨ retBase + retSize ≤ a → t.byte a = 0)) := by
  have hx : exec .porstNLow s = .next (if s.boot.porst = false ∧ s.boot.phase ≠ .waitFio then s
      else ((s.coreReset s.retMem s.retSynd).updBoot (fun b => { b with phase := .waitPg, t0 := (s.coreReset s.retMem s.retSynd).time.now, pmicEn := true })).setF
        fTOP_RESET_CAUSE_CAUSE 2) := rfl
  rw [if_neg (by rintro ⟨h1, h2⟩; simp [h1, h2] at h)] at hx
  have hreset := coreReset_coreReset s s.retMem s.retSynd
  generalize s.coreReset s.retMem s.retSynd = u at hx hreset
  have hset := (OnlyRegs.refl [rTOP_RESET_CAUSE] (u.updBoot (fun b => { b with phase := .waitPg, t0 := u.time.now, pmicEn := true }))).setF
    (f := fTOP_RESET_CAUSE_CAUSE) (n := 2) (by decide)
  have hcause := State.getF_setF (u.updBoot (fun b => { b with phase := .waitPg, t0 := u.time.now, pmicEn := true })) fTOP_RESET_CAUSE_CAUSE 2 (by decide)
  generalize (u.updBoot (fun b => { b with phase := .waitPg, t0 := u.time.now, pmicEn := true })).setF fTOP_RESET_CAUSE_CAUSE 2 = t at hx hset hcause
  have hboot : t.boot = { State.reset.boot with phase := .waitPg, t0 := s.time.now, pmicEn := true } := by
    rw [hset.rest, ← hreset.boot, ← hreset.now]
    rfl
  have hmem : t.mem = s.retMem := by rw [hset.rest]; exact hreset.mem
  refine ⟨_, hx, by rw [hboot], by rw [hboot]; exact reset_boot.2.1, by rw [hboot], hcause, by rw [hset.rest]; exact hreset.otp, fun a h1 h2 => ?_, fun a ha => ?_⟩
  · rw [s.byte_retMem hmem, if_pos ⟨h1, h2⟩]
  · rw [s.byte_retMem hmem, if_neg (by omega)]

/-- What the end of a failed start leaves (R60, R61, R414). -/
theorem State.wakeFail_effect (s : State) (cause : Nat) (c : FaultCause) (hc : cause < 256) :
    (s.wakeFail cause c).boot = State.reset.boot ∧ c ∈ (s.wakeFail cause c).faultN ∧ (s.wakeFail cause c).getF fPWR_PWR_STATUS_CURRENT = 4
      ∧ (s.wakeFail cause c).regN rPWR_WAKE_FAIL_CAUSE % 256 = cause ∧ (s.wakeFail cause c).mem = [] := by
  unfold State.wakeFail
  have hreset := coreReset_coreReset s [] []
  generalize (if s.getF fPWR_WAKE_SRC_LEFT = 3 then 3 else 4) = left
  generalize s.coreReset [] [] = u at hreset
  dsimp only
  have hfault : c ∈ (u.assertFault c).faultN := by
    rw [State.assertFault]
    split
    · assumption
    · exact List.mem_cons_self
  have hrest : (u.assertFault c).boot = u.boot ∧ (u.assertFault c).mem = u.mem := ⟨rfl, rfl⟩
  generalize u.assertFault c = v at hfault hrest
  have honly : OnlyRegs [rPWR_WAKE_FAIL_CAUSE, rPWR_PWR_STATUS] v
      ((v.setRegN rPWR_WAKE_FAIL_CAUSE (2 ^ 31 + 2 ^ 16 * left + 4 * 2 ^ 8 + cause)).setF fPWR_PWR_STATUS_CURRENT 4) :=
    ((OnlyRegs.refl _ v).setRegN (by decide)).setF (by decide)
  refine ⟨by rw [honly.rest]; exact hrest.1.trans hreset.boot, by rw [honly.rest]; exact hfault, State.getF_setF _ _ _ (by decide), ?_,
    by rw [honly.rest]; exact hrest.2.trans hreset.mem⟩
  rw [State.regN, State.reg_setF_ne (by decide)]
  change (State.setRegN v rPWR_WAKE_FAIL_CAUSE (2 ^ 31 + 2 ^ 16 * left + 4 * 2 ^ 8 + cause)).regN rPWR_WAKE_FAIL_CAUSE % 256 = cause
  rw [State.regN_setRegN, if_pos rfl]
  omega

/-- Another try: the boot record and a count. -/
theorem bootRetry_quiet (s : State) (F : Boot → Boot) (f : Fld) :
    Quiet [f.off] { s with boot := ((s.updBoot F).bumpF f 1).boot } ((s.updBoot F).bumpF f 1) := by
  have hb : ((s.updBoot F).bumpF f 1).boot = F s.boot := State.setReg_boot _ _ _
  rw [hb]
  exact Quiet.bumpF (.refl _ (s.updBoot F)) (.inl (List.mem_singleton.2 rfl))

theorem does_pgTimeout {s : State} (hph : s.boot.phase = .waitPg) :
    (s.boot.pgTries < 3 → Does .pgTimeout s (fun t =>
      t.boot = { s.boot with pgTries := s.boot.pgTries + 1, pmicEn := false, pmicAt := some (s.time.now + ticksMs 10) }
      ∧ Quiet [rTOP_RESET_CAUSE] { s with boot := t.boot } t))
    ∧ (3 ≤ s.boot.pgTries → Does .pgTimeout s (fun t => t.boot.phase = .off ∧ t.boot.pmicEn = false ∧ .pg ∈ t.faultN
      ∧ t.getF fPWR_PWR_STATUS_CURRENT = 4 ∧ t.regN rPWR_WAKE_FAIL_CAUSE % 256 = 1 ∧ t.mem = [])) := by
  have hx : exec .pgTimeout s = .next (if s.boot.phase ≠ .waitPg then s else if s.boot.pgTries < 3 then
      (s.updBoot (fun b => { b with pgTries := b.pgTries + 1, pmicEn := false, pmicAt := some (s.time.now + ticksMs 10) })).bumpF
        fTOP_RESET_CAUSE_PG_RETRIES 1 else s.wakeFail 1 .pg) := rfl
  rw [if_neg (by simp [hph])] at hx
  refine ⟨fun htry => ?_, fun htry => ?_⟩
  · rw [if_pos htry] at hx
    have hb := State.setReg_boot (s.updBoot (fun b => { b with pgTries := b.pgTries + 1, pmicEn := false, pmicAt := some (s.time.now + ticksMs 10) }))
    exact ⟨_, hx, hb _ _, bootRetry_quiet s _ fTOP_RESET_CAUSE_PG_RETRIES⟩
  · rw [if_neg (by omega)] at hx
    obtain ⟨hboot, hfault, hcur, hcause, hmem⟩ := s.wakeFail_effect 1 .pg (by decide)
    exact ⟨_, hx, by rw [hboot]; exact reset_boot.1, by rw [hboot]; exact reset_boot.2.2, hfault, hcur, hcause, hmem⟩

/-- A good FIO releases internal reset: the core runs on it. -/
def State.fioGood (s : State) : State :=
  (((s.updBoot (fun b => { b with phase := .waitRefclk, porst := true })).setF fTOP_START_STATUS_FIO_OK 1).setF fSAFETY_STATUS_SC_ON_FIO 1).otpShow

theorem State.fioGood_effect (s : State) : s.fioGood.boot.phase = .waitRefclk ∧ s.fioGood.boot.porst = true
    ∧ s.fioGood.isF fTOP_START_STATUS_FIO_OK = true ∧ s.fioGood.isF fSAFETY_STATUS_SC_ON_FIO = true ∧ s.fioGood.mem = s.mem := by
  unfold State.fioGood
  generalize hu : s.updBoot (fun b => { b with phase := .waitRefclk, porst := true }) = u
  have hboot : u.boot.phase = .waitRefclk ∧ u.boot.porst = true ∧ u.mem = s.mem := by rw [← hu]; exact ⟨rfl, rfl, rfl⟩
  have h1 := State.isF_setF_one u (f := fTOP_START_STATUS_FIO_OK) rfl (by decide)
  have h2 := State.isF_setF_one (u.setF fTOP_START_STATUS_FIO_OK 1) (f := fSAFETY_STATUS_SC_ON_FIO) rfl (by decide)
  have honly : OnlyRegs [rTOP_START_STATUS, rSAFETY_STATUS] u ((u.setF fTOP_START_STATUS_FIO_OK 1).setF fSAFETY_STATUS_SC_ON_FIO 1) :=
    ((OnlyRegs.refl _ u).setF (by decide)).setF (by decide)
  have hkeep : ((u.setF fTOP_START_STATUS_FIO_OK 1).setF fSAFETY_STATUS_SC_ON_FIO 1).isF fTOP_START_STATUS_FIO_OK = true :=
    (State.isF_congr (State.reg_setF_ne (by decide))).trans h1
  generalize (u.setF fTOP_START_STATUS_FIO_OK 1).setF fSAFETY_STATUS_SC_ON_FIO 1 = v at h2 honly hkeep
  have hshow := v.otpShow_only
  have hb : v.otpShow.boot = u.boot := hshow.boot_eq.trans honly.boot_eq
  have hm : v.otpShow.mem = u.mem := hshow.mem_eq.trans honly.mem_eq
  exact ⟨by rw [hb]; exact hboot.1, by rw [hb]; exact hboot.2.1, (State.isF_congr (hshow.regs _ (by decide))).trans hkeep,
    (State.isF_congr (hshow.regs _ (by decide))).trans h2, hm.trans hboot.2.2⟩

theorem does_fioCheck {s : State} (hph : s.boot.phase = .waitFio) :
    Does (.fioCheck true) s (fun t => t.boot.phase = .waitRefclk ∧ t.boot.porst = true ∧ t.isF fTOP_START_STATUS_FIO_OK = true
      ∧ t.isF fSAFETY_STATUS_SC_ON_FIO = true ∧ t.mem = s.mem)
    ∧ (s.boot.fioTries < 3 → Does (.fioCheck false) s (fun t => t.boot = { s.boot with fioTries := s.boot.fioTries + 1 }
      ∧ Quiet [rTOP_RESET_CAUSE] { s with boot := t.boot } t))
    ∧ (3 ≤ s.boot.fioTries → Does (.fioCheck false) s (fun t => t.boot.phase = .off ∧ .fio ∈ t.faultN
      ∧ t.getF fPWR_PWR_STATUS_CURRENT = 4 ∧ t.regN rPWR_WAKE_FAIL_CAUSE % 256 = 2)) := by
  have hx : ∀ ok, exec (.fioCheck ok) s = .next (if s.boot.phase ≠ .waitFio then s else if ok then s.fioGood else if s.boot.fioTries < 3 then
      (s.updBoot (fun b => { b with fioTries := b.fioTries + 1 })).bumpF fTOP_RESET_CAUSE_FIO_RETRIES 1 else s.wakeFail 2 .fio) := fun _ => rfl
  have hgo : ¬s.boot.phase ≠ .waitFio := by simp [hph]
  simp only [if_neg hgo] at hx
  refine ⟨⟨_, hx true, s.fioGood_effect⟩, fun htry => ?_, fun htry => ?_⟩
  · have h := hx false
    rw [if_neg (by decide), if_pos htry] at h
    have hb := State.setReg_boot (s.updBoot (fun b => { b with fioTries := b.fioTries + 1 }))
    exact ⟨_, h, hb _ _, bootRetry_quiet s _ fTOP_RESET_CAUSE_FIO_RETRIES⟩
  · have h := hx false
    rw [if_neg (by decide), if_neg (by omega)] at h
    obtain ⟨hboot, hfault, hcur, hcause, -⟩ := s.wakeFail_effect 2 .fio (by decide)
    exact ⟨_, h, by rw [hboot]; exact reset_boot.1, hfault, hcur, hcause⟩

/-- Settles O39: the wake, PORST_N both ways, and the tries of power-good and of the FIO. -/
theorem startReset : Obligations.StartReset := by
  unfold Obligations.StartReset
  refine ⟨fun s ha hph => ⟨does_wakeN_off ha hph, does_wakeN_deep ha hph⟩, fun s ha hph haway => ?_, fun s hph => does_porstNRise hph,
    fun s h => does_porstNLow h, fun s hph => does_pgTimeout hph, fun s hph => does_fioCheck hph⟩
  have hx : exec .wakeN s = .next s.wakeN := rfl
  rw [State.wakeN, if_neg (by simp [ha]), if_neg hph, State.wakeNote_away haway] at hx
  exact ⟨_, hx, rfl⟩

end Sys2Proof.Machine

/-! ## Clocks and rails of a start (R45, R49, R62 to R65, R69) -/

namespace Sys2Proof.Machine

/-! ### What the messages of a start leave alone -/

/-- Events, records and what sends them change; the registers below those of the links stay. -/
structure MsgOnly (s t : State) : Prop where
  rest : t = { s with regs := t.regs, hamper := t.hamper, spool := t.spool, wakeDue := t.wakeDue, posted := t.posted, host := t.host,
                      boot := { s.boot with held := t.boot.held } }
  regs : ∀ off, off < 0x80000 → t.reg off = s.reg off

/-- The same, and the events held by the boot ROM stay. -/
structure MsgHeld (s t : State) : Prop extends MsgOnly s t where
  held : t.boot.held = s.boot.held

section
variable {s u : State}

theorem MsgHeld.refl (s : State) : MsgHeld s s := ⟨⟨rfl, fun _ _ => rfl⟩, rfl⟩

theorem MsgHeld.trans {t : State} (h : MsgHeld s t) (k : MsgHeld t u) : MsgHeld s u := by
  refine ⟨⟨?_, fun off ho => (k.regs off ho).trans (h.regs off ho)⟩, k.held.trans h.held⟩
  have hrest := k.rest
  rw [h.rest] at hrest
  exact hrest

theorem MsgHeld.setReg (h : MsgHeld s u) {off : Nat} {v : Word} (ho : 0x80000 ≤ off) : MsgHeld s (u.setReg off v) :=
  h.trans ⟨⟨rfl, fun o hlt => by rw [State.reg_setReg, if_neg (by omega)]⟩, rfl⟩

theorem MsgHeld.bump (h : MsgHeld s u) {off : Nat} (ho : 0x80000 ≤ off) : MsgHeld s (u.bump off) := h.setReg ho

theorem MsgHeld.setF (h : MsgHeld s u) {f : Fld} {n : Nat} (ho : 0x80000 ≤ f.off) : MsgHeld s (u.setF f n) := h.setReg ho

theorem MsgHeld.hamper (h : MsgHeld s u) (x : Hamper) : MsgHeld s { u with hamper := x } := h.trans ⟨⟨rfl, fun _ _ => rfl⟩, rfl⟩

theorem MsgHeld.updHamper (h : MsgHeld s u) (F : Hamper → Hamper) : MsgHeld s (u.updHamper F) := h.hamper _

theorem MsgHeld.spool (h : MsgHeld s u) (x : Spool) : MsgHeld s { u with spool := x } := h.trans ⟨⟨rfl, fun _ _ => rfl⟩, rfl⟩

theorem MsgHeld.updHost (h : MsgHeld s u) (F : HostU → HostU) : MsgHeld s (u.updHost F) := h.trans ⟨⟨rfl, fun _ _ => rfl⟩, rfl⟩

theorem MsgHeld.ite {c : Prop} [Decidable c] {a b : State} (h : MsgHeld s a) (k : MsgHeld s b) : MsgHeld s (if c then a else b) := by
  split
  · exact h
  · exact k

theorem MsgHeld.wakeNote (h : MsgHeld s u) (k : Nat) : MsgHeld s (u.wakeNote k) := by
  unfold State.wakeNote
  exact .ite h (h.trans ⟨⟨rfl, fun _ _ => rfl⟩, rfl⟩)

theorem MsgHeld.notePost (h : MsgHeld s u) (k v : Nat) : MsgHeld s (u.notePost k v) := h.trans ⟨⟨rfl, fun _ _ => rfl⟩, rfl⟩

theorem MsgHeld.spoolPut (h : MsgHeld s u) (k f c : Nat) (p : List Byte) : MsgHeld s (u.spoolPut k f c p) := by
  unfold State.spoolPut
  refine .ite h (.ite (h.bump (by decide)) ?_)
  extract_lets -merge v1 v2 v3 v4 v5 v6
  have h3 : MsgHeld s v3 := h.spool _
  have h5 : MsgHeld s v5 := h3.spool _
  exact .ite (h3.bump (by decide)) (.ite ((h5.spool _).setF (by decide)) h5)

theorem MsgHeld.takeSeq (h : MsgHeld s u) : MsgHeld s u.takeSeq.2 := h.setReg (by decide)

theorem MsgHeld.noteLoss (h : MsgHeld s u) (p : Nat) : MsgHeld s (u.noteLoss p) := by
  unfold State.noteLoss
  extract_lets -merge v5 v6 v7 v8 v9
  have h5 : MsgHeld s v5 := (h.setF (by decide)).bump (by decide)
  have h7 : MsgHeld s v7 := h5.hamper _
  split
  · exact h7.hamper _
  · have htake := h7.takeSeq
    split
    rename_i n w hq
    rw [hq] at htake
    extract_lets -merge v24 v25 v26
    have h26 : MsgHeld s v26 := htake.hamper _
    exact h26.spoolPut _ _ _ _

theorem MsgHeld.storeEv (h : MsgHeld s u) (n : Nat) (e : Ev) : MsgHeld s (u.storeEv n e) := by
  unfold State.storeEv
  exact .ite (((h.updHamper _).setF (by decide)).updHamper _) (h.updHamper _)

theorem MsgHeld.hamperIn (h : MsgHeld s u) (e : Ev) : MsgHeld s (u.hamperIn e) := by
  have hevict : ∀ p, 0x80000 ≤ rMSG_EVT_EVICT p := fun p => by unfold rMSG_EVT_EVICT; omega
  have hdrop : ∀ p, 0x80000 ≤ rMSG_EVT_DROP p := fun p => by unfold rMSG_EVT_DROP; omega
  have htake := h.takeSeq
  unfold State.hamperIn
  extract_lets -merge p
  split
  rename_i n v hq
  rw [hq] at htake
  extract_lets -merge w
  have hw : MsgHeld s w := .ite (htake.updHamper _) htake
  refine .ite ((hw.storeEv n e).spoolPut _ _ _ _) ?_
  split
  · exact ((((hw.updHamper _).storeEv n e).spoolPut _ _ _ _).bump (hevict _)).noteLoss _
  · exact ((hw.spoolPut _ _ _ _).bump (hdrop _)).noteLoss _

theorem MsgHeld.pushHeld (h : MsgHeld s u) (l : List Ev) : MsgHeld s (u.pushHeld l) := by
  unfold State.pushHeld
  induction l generalizing u with
  | nil => exact h
  | cons e l ih => exact ih ((MsgHeld.ite (h.wakeNote 9) h).hamperIn e)

/-- A record that leaves by SPI (R336) waits among the replies. -/
theorem MsgHeld.sendSpi (h : MsgHeld s u) (op : Nat) (b : List Byte) (ref fl : Nat) : MsgHeld s (u.sendRec 2 op b ref fl) := by
  unfold State.sendRec
  extract_lets -merge n v1 r full v2
  have h1 : MsgHeld s v1 := h.setReg (by unfold rMSG_TX_SEQ; omega)
  have h2 : MsgHeld s v2 := h1.updHost _
  rw [if_pos rfl]
  exact .ite (h2.bump (by decide)) h2

end

/-! ### What accesses to protected memory leave alone (R384 to R391) -/

/-- Registers that neither an access to memory nor an event touches: those below the links' and those of the units up to HEALTH. -/
abbrev MemFixed (off : Nat) : Prop := off < 0x80000 ∨ 0x100000 ≤ off ∧ off < 0x240000

/-- Memory, its syndromes and events change; the registers of `MemFixed` stay. -/
structure MemEv (s t : State) : Prop where
  rest : t = { s with regs := t.regs, mem := t.mem, ecc := t.ecc, hamper := t.hamper, spool := t.spool, wakeDue := t.wakeDue, posted := t.posted,
                      boot := { s.boot with held := t.boot.held } }
  regs : ∀ off, MemFixed off → t.reg off = s.reg off

theorem evRegs_high : ∀ off ∈ evRegs, ¬MemFixed off := by decide

section
variable {s u : State}

theorem MemEv.refl (s : State) : MemEv s s := ⟨rfl, fun _ _ => rfl⟩

theorem MemEv.trans {t : State} (h : MemEv s t) (k : MemEv t u) : MemEv s u := by
  refine ⟨?_, fun off ho => (k.regs off ho).trans (h.regs off ho)⟩
  have hrest := k.rest
  rw [h.rest] at hrest
  exact hrest

/-- Quiet changes above those registers. -/
theorem MemEv.quiet {t : State} {l : List Nat} (h : MemEv s u) (q : Quiet l u t) (hl : ∀ off ∈ l, ¬MemFixed off) : MemEv s t := by
  have hmem : t.mem = u.mem := q.mem_eq
  have hecc : t.ecc = u.ecc := by rw [q.rest]
  refine h.trans ⟨?_, fun off ho => q.regs off (fun hin => ?_) fun hin => ?_⟩
  · rw [hmem, hecc]
    exact q.rest
  · exact hl off hin ho
  · exact evRegs_high off hin ho

theorem MemEv.setReg (h : MemEv s u) {off : Nat} {v : Word} (ho : ¬MemFixed off) : MemEv s (u.setReg off v) :=
  h.quiet (l := [off]) ((Quiet.refl _ u).setReg (by simp)) (by simpa using ho)

theorem MemEv.bump (h : MemEv s u) {off : Nat} (ho : ¬MemFixed off) : MemEv s (u.bump off) := h.setReg ho

theorem MemEv.setF (h : MemEv s u) {f : Fld} {n : Nat} (ho : ¬MemFixed f.off) : MemEv s (u.setF f n) := h.setReg ho

theorem MemEv.bumpF (h : MemEv s u) {f : Fld} {n : Nat} (ho : ¬MemFixed f.off) : MemEv s (u.bumpF f n) := h.setReg ho

theorem MemEv.setRegN (h : MemEv s u) {off n : Nat} (ho : ¬MemFixed off) : MemEv s (u.setRegN off n) := h.setReg ho

theorem MemEv.raise (h : MemEv s u) {f : Fld} {c : Nat} (hf : ¬MemFixed f.off) (hc : ¬MemFixed c) : MemEv s (u.raise f c) := (h.setReg hf).setReg hc

theorem MemEv.setPair (h : MemEv s u) {a b n : Nat} (ha : ¬MemFixed a) (hb : ¬MemFixed b) : MemEv s (u.setPair a b n) := (h.setReg ha).setReg hb

theorem MemEv.post (h : MemEv s u) {k : EvKind} (hp : k.prio < 4) (src data : Nat) : MemEv s (u.post k src data) :=
  h.quiet ((Quiet.refl [] u).post hp) (by simp)

theorem MemEv.ite {c : Prop} [Decidable c] {a b : State} (h : MemEv s a) (k : MemEv s b) : MemEv s (if c then a else b) := by
  split
  · exact h
  · exact k

theorem MemEv.ecc (h : MemEv s u) (x : Ecc) : MemEv s { u with ecc := x } := h.trans ⟨rfl, fun _ _ => rfl⟩

theorem MemEv.notePost (h : MemEv s u) (k v : Nat) : MemEv s (u.notePost k v) := h.trans ⟨rfl, fun _ _ => rfl⟩

theorem MemEv.setBytes (h : MemEv s u) (a : Nat) (bs : List Byte) : MemEv s (u.setBytes a bs) := h.trans ⟨rfl, fun _ _ => rfl⟩

theorem MemEv.setSynd (h : MemEv s u) (w v : Nat) : MemEv s (u.setSynd w v) := h.ecc _

theorem MemEv.flipMem (h : MemEv s u) (w k : Nat) : MemEv s (u.flipMem w k) := h.trans ⟨rfl, fun _ _ => rfl⟩

theorem MemEv.beCount (h : MemEv s u) (w : Nat) : MemEv s (u.beCount w) := by
  unfold State.beCount
  split
  · exact h.bump (by unfold rBE_ECC_CE_COUNT; omega)
  · exact h

theorem MemEv.eccRecent (h : MemEv s u) (r w : Nat) : MemEv s (u.eccRecent r w) := by
  unfold State.eccRecent
  extract_lets -merge v1 v2 v3
  split
  · exact .ite ((h.raise (by decide) (by decide)).post (by decide) _ _) (h.ecc _)
  · exact h.ecc _

theorem eccRegion_high (r : Nat) : ¬MemFixed (rMEM_ECC_REGION r) := by
  unfold rMEM_ECC_REGION
  omega

theorem MemEv.noteCe (h : MemEv s u) (r w syn : Nat) : MemEv s (u.noteCe r w syn) := by
  unfold State.noteCe
  extract_lets -merge v1 v2 v3 v4 v5 v6 v7 v8 v9 v10 v11 v12
  have h1 : MemEv s v1 := (h.beCount w).raise (by decide) (by decide)
  have h2 : MemEv s v2 := h1.bumpF (eccRegion_high r)
  have h3 : MemEv s v3 := h2.setPair (by decide) (by decide)
  have h4 : MemEv s v4 := h3.setRegN (by decide)
  have h7 : MemEv s v7 := h4.ecc _
  have h10 : MemEv s v10 := (h7.notePost _ _).post (by decide) _ _
  have h12 : MemEv s v12 := .ite (h10.ecc _) h7
  exact h12.eccRecent r w

theorem MemEv.noteUe (h : MemEv s u) (r w syn : Nat) : MemEv s (u.noteUe r w syn) := by
  unfold State.noteUe
  extract_lets -merge v1 v2 v3 v4
  have h1 : MemEv s v1 := h.raise (by decide) (by decide)
  have h2 : MemEv s v2 := h1.bumpF (eccRegion_high r)
  have h3 : MemEv s v3 := h2.setPair (by decide) (by decide)
  have h4 : MemEv s v4 := h3.setRegN (by decide)
  exact h4.quiet ((Quiet.refl [] v4).postOnce (by decide)) (by simp)

theorem MemEv.checkWord (h : MemEv s u) (w : Nat) : MemEv s (u.checkWord w).2 := by
  unfold State.checkWord
  extract_lets -merge syn
  split
  · exact h
  · split
    · exact h
    · exact (h.setSynd _ _).noteCe _ _ _
    · exact ((MemEv.ite h (h.flipMem _ _)).setSynd _ _).noteCe _ _ _
    · exact h.noteUe _ _ _

theorem MemEv.checkRange (h : MemEv s u) (a n : Nat) : MemEv s (u.checkRange a n).2 := by
  have hfold : ∀ (l : List Nat) (q : Bool × State), MemEv s q.2 →
      MemEv s (l.foldl (fun (q : Bool × State) w => (q.1 || (q.2.checkWord w).1, (q.2.checkWord w).2)) q).2 := by
    intro l
    induction l with
    | nil => exact fun q hq => hq
    | cons w l ih => exact fun q hq => ih _ (hq.checkWord w)
  exact hfold _ (false, u) h

theorem MemEv.readMem (h : MemEv s u) (a n : Nat) : MemEv s (u.readMem a n).2 := h.checkRange a n

theorem MemEv.prepWord (h : MemEv s u) (a n w : Nat) : MemEv s (u.prepWord a n w) := by
  unfold State.prepWord
  refine .ite (h.setSynd _ _) ?_
  have hchk := h.checkWord w
  split
  rename_i lost v hq
  rw [hq] at hchk
  exact .ite (hchk.setSynd _ _) (hchk.setSynd _ _)

theorem MemEv.injectInto (h : MemEv s u) (r w : Nat) : MemEv s (u.injectInto r w) := by
  have hflip : ∀ v, MemEv s v → ∀ k, MemEv s ((if k < 32 then v.flipMem w k else v).setSynd w ((if k < 32 then v.flipMem w k else v).syndAt w ^^^ eccColumn k)) :=
    fun v hv k => (MemEv.ite (hv.flipMem w k) hv).setSynd _ _
  unfold State.injectInto
  refine .ite ?_ h
  exact (MemEv.ite (hflip _ (hflip u h _) _) (hflip u h _)).setF (by decide)

theorem MemEv.writeMem (h : MemEv s u) (a : Nat) (bs : List Byte) : MemEv s (u.writeMem a bs) := by
  have hfold : ∀ (l : List Nat) (v : State), MemEv s v → MemEv s (l.foldl (fun s w => s.prepWord a bs.length w) v) := by
    intro l
    induction l with
    | nil => exact fun v hv => hv
    | cons w l ih => exact fun v hv => ih _ (hv.prepWord a _ w)
  unfold State.writeMem
  extract_lets -merge v1 v2
  have h2 : MemEv s v2 := (hfold _ u h).setBytes _ _
  split
  · exact h2.injectInto _ _
  · exact h2

theorem MemEv.stageFile (h : MemEv s u) (a : Nat) (bs : List Byte) : MemEv s (u.stageFile a bs) := by
  unfold State.stageFile
  exact .ite h (h.writeMem _ _)

end

/-! ### The reference clock -/

/-- What the checks of a load go by, and whether the start is a wake. -/
structure LoadKept (s t : State) : Prop where
  part : t.part = s.part
  stepping : t.stepping = s.stepping
  otp : t.otp = s.otp
  loader : t.loader = s.loader
  warm : t.boot.warm = s.boot.warm


theorem State.refclkFirst_ok {s : State} {n : Nat} (h1 : 1800 ≤ n) (h2 : n ≤ 2200) :
    (s.refclkFirst n).boot.refclk = true ∧ (s.refclkFirst n).isF fTOP_START_STATUS_REFCLK_OK = true := by
  rw [State.refclkFirst, if_pos (by simp [refclkOk, h1, h2]), State.refclkFound]
  exact ⟨congrArg Boot.refclk (State.setReg_boot _ _ _), State.isF_setF_one _ rfl (by decide)⟩

theorem State.bootEv_quiet {l : List Nat} {s u : State} (q : Quiet l s u) {k : EvKind} (hp : k.prio < 4) (data : Nat) : Quiet l s (u.bootEv k data) := q.post hp

theorem State.mem_assertFault (s : State) (c : FaultCause) : c ∈ (s.assertFault c).faultN := by
  rw [State.assertFault]
  split
  · assumption
  · exact List.mem_cons_self

theorem Quiet.faultN {l : List Nat} {s t : State} (q : Quiet l s t) : t.faultN = s.faultN := by rw [q.rest]

theorem State.reg_withFaults (s : State) (x : List FaultCause) (off : Nat) : ({ s with faultN := x } : State).reg off = s.reg off := rfl

theorem State.assertFault_reg (s : State) (c : FaultCause) (off : Nat) : (s.assertFault c).reg off = s.reg off := s.reg_withFaults _ off

/-- The first count is out of range. -/
theorem State.refclkFirst_degraded {n : Nat} (h : refclkOk n = false) (s : State) :
    s.refclkFirst n = ((s.setF fTOP_START_STATUS_DEGRADED_CLK 1).assertFault .degraded).bootEv evBOOT_DEGRADED_CLK n := by
  rw [State.refclkFirst, if_neg (by simp [h])]

/-- A fault held, and its event. -/
theorem State.faultEv_kept (u : State) (c : FaultCause) {k : EvKind} (hp : k.prio < 4) (n : Nat) :
    Quiet [] (u.assertFault c) ((u.assertFault c).bootEv k n) ∧ c ∈ ((u.assertFault c).bootEv k n).faultN := by
  have hfault := u.mem_assertFault c
  generalize u.assertFault c = v at hfault
  have hpost := State.bootEv_quiet (.refl [] v) hp n
  exact ⟨hpost, by rw [hpost.faultN]; exact hfault⟩

theorem State.refclkFirst_bad {s : State} {n : Nat} (h : n < 1800 ∨ 2200 < n) :
    (s.refclkFirst n).isF fTOP_START_STATUS_DEGRADED_CLK = true ∧ .degraded ∈ (s.refclkFirst n).faultN := by
  have hbad : refclkOk n = false := by
    simp only [refclkOk, Bool.and_eq_false_iff, decide_eq_false_iff_not]
    omega
  rw [State.refclkFirst_degraded hbad]
  have hflag := State.isF_setF_one s (f := fTOP_START_STATUS_DEGRADED_CLK) rfl (by decide)
  generalize s.setF fTOP_START_STATUS_DEGRADED_CLK 1 = u at hflag ⊢
  obtain ⟨hpost, hfault⟩ := u.faultEv_kept .degraded (k := evBOOT_DEGRADED_CLK) (by decide) n
  exact ⟨(State.isF_congr ((hpost.regs _ (by simp) (by decide)).trans (u.assertFault_reg _ _))).trans hflag, hfault⟩

theorem LoadKept.of_quiet {l : List Nat} {s u : State} (q : Quiet l s u) : LoadKept s u := by
  rw [q.rest]
  exact ⟨rfl, rfl, rfl, rfl, rfl⟩

theorem LoadKept.withFaults (s : State) (x : List FaultCause) : LoadKept s { s with faultN := x } := ⟨rfl, rfl, rfl, rfl, rfl⟩

theorem LoadKept.of_only {l : List Nat} {s u : State} (q : OnlyRegs l s u) : LoadKept s u := by
  rw [q.rest]
  exact ⟨rfl, rfl, rfl, rfl, rfl⟩

theorem LoadKept.trans {s t u : State} (h : LoadKept s t) (k : LoadKept t u) : LoadKept s u :=
  ⟨k.part.trans h.part, k.stepping.trans h.stepping, k.otp.trans h.otp, k.loader.trans h.loader, k.warm.trans h.warm⟩

theorem State.refclkFirst_rest (s : State) (n : Nat) : LoadKept s (s.refclkFirst n) := by
  by_cases hok : refclkOk n = true
  · have hset := (OnlyRegs.refl [rTOP_START_STATUS] (s.updBoot (fun b => { b with refclk := true }))).setF (f := fTOP_START_STATUS_REFCLK_OK) (n := 1) (by decide)
    rw [State.refclkFirst, if_pos hok, State.refclkFound]
    exact LoadKept.trans (t := s.updBoot (fun b => { b with refclk := true })) ⟨rfl, rfl, rfl, rfl, rfl⟩ (.of_only hset)
  · have hset := (OnlyRegs.refl [rTOP_START_STATUS] s).setF (f := fTOP_START_STATUS_DEGRADED_CLK) (n := 1) (by decide)
    rw [State.refclkFirst_degraded (by simpa using hok)]
    generalize s.setF fTOP_START_STATUS_DEGRADED_CLK 1 = u at hset ⊢
    have hfault : LoadKept u (u.assertFault .degraded) := .withFaults u _
    exact (LoadKept.of_only hset).trans (hfault.trans (.of_quiet (u.faultEv_kept .degraded (by decide) n).1))

theorem does_refclkCheck_warm {n : BitVec 16} {s : State} (hph : s.boot.phase = .waitRefclk) (hwarm : s.boot.warm = true) :
    Does (.refclkCheck n) s (fun t => t.boot.phase = .waitPmic
      ∧ (1800 ≤ n.toNat → n.toNat ≤ 2200 → t.boot.refclk = true ∧ t.isF fTOP_START_STATUS_REFCLK_OK = true)
      ∧ (n.toNat < 1800 ∨ 2200 < n.toNat → t.isF fTOP_START_STATUS_DEGRADED_CLK = true ∧ .degraded ∈ t.faultN)) := by
  have hx : exec (.refclkCheck n) s = execRefclkCheck n s := rfl
  rw [execRefclkCheck] at hx
  dsimp only at hx
  have hw : (s.refclkFirst n.toNat).boot.warm = true := by
    rw [(s.refclkFirst_rest n.toNat).warm]
    exact hwarm
  rw [if_neg (by simp [hph]), if_pos hw] at hx
  refine ⟨_, hx, rfl, fun h1 h2 => ?_, fun h => ?_⟩
  · obtain ⟨h1, h2⟩ := s.refclkFirst_ok h1 h2
    exact ⟨h1, (State.updBoot_isF _ _ _).trans h2⟩
  · obtain ⟨h1, h2⟩ := s.refclkFirst_bad h
    exact ⟨(State.updBoot_isF _ _ _).trans h1, h2⟩

/-! ### Both flash images fail (R45) -/

theorem State.loadFlash_phase0 {s : State} {f : Flash} {code image : Nat} (h : checkPhase0 s f.bytes = some code) :
    s.loadFlash f image = (some (code, 0xFF), s.stageFile 0 f.bytes) := by
  have hrest := ((MemEv.refl s).stageFile 0 f.bytes).rest
  have hchk : checkPhase0 (s.stageFile 0 f.bytes) f.bytes = some code := by
    rw [← h]
    exact checkPhase0_congr (by rw [hrest]) (by rw [hrest]) (by rw [hrest]) _
  rw [State.loadFlash, State.loadPhase1, hchk]

/-- An image that fails: its error, and events. -/
theorem State.imageFail_quiet (s : State) {k : EvKind} (hp : k.prio < 4) (r : Nat × Nat) : Quiet [rBSTREAM_ERROR] s (s.imageFail k r) :=
  State.bootEv_quiet (s.loadError_quiet _ _) hp _

theorem State.imageFail_reg (s : State) {k : EvKind} (hp : k.prio < 4) (r : Nat × Nat) :
    (s.imageFail k r).regN rBSTREAM_ERROR = (65536 * r.2 + r.1) % 2 ^ 32 := by
  have hpost := State.bootEv_quiet (.refl [] (s.loadError r.1 r.2)) hp (65536 * r.2 + r.1)
  rw [State.regN, State.imageFail, hpost.regs _ (by simp) (by decide)]
  exact s.loadError_reg r.1 r.2

theorem does_refclkCheck_cold {n : BitVec 16} {a b : Nat} {s : State} (hph : s.boot.phase = .waitRefclk) (hwarm : s.boot.warm = false)
    (ha : checkPhase0 s s.loader.flashA.bytes = some a) (hb : checkPhase0 s s.loader.flashB.bytes = some b) :
    Does (.refclkCheck n) s (fun t => t.boot.phase = .waitHost ∧ t.bsState = bsWAIT_HOST ∧ .flash ∈ t.faultN
      ∧ t.regN rBSTREAM_ERROR = (65536 * 0xFF + b) % 2 ^ 32) := by
  have hx : exec (.refclkCheck n) s = execRefclkCheck n s := rfl
  rw [execRefclkCheck] at hx
  dsimp only at hx
  have hfirst := s.refclkFirst_rest n.toNat
  generalize s.refclkFirst n.toNat = u at hx hfirst
  rw [if_neg (by simp [hph]), if_neg (by rw [hfirst.warm, hwarm]; decide)] at hx
  have hloadA : u.loadFlash u.loader.flashA 0 = (some (a, 0xFF), u.stageFile 0 u.loader.flashA.bytes) := by
    refine State.loadFlash_phase0 ((checkPhase0_congr hfirst.part hfirst.stepping hfirst.otp _).trans ?_)
    rw [hfirst.loader]
    exact ha
  have hstaged := (MemEv.refl u).stageFile 0 u.loader.flashA.bytes
  generalize u.stageFile 0 u.loader.flashA.bytes = v at hloadA hstaged
  have hfail := v.imageFail_quiet (k := evBOOT_IMAGE_A_FAIL) (by decide) (a, 0xFF)
  rw [State.bootLoad, hloadA] at hx
  dsimp only at hx
  generalize v.imageFail evBOOT_IMAGE_A_FAIL (a, 0xFF) = w at hfail hx
  have hloader : w.loader = s.loader := by rw [hfail.rest, hstaged.rest]; exact hfirst.loader
  have hloadB : w.loadFlash w.loader.flashB 1 = (some (b, 0xFF), w.stageFile 0 w.loader.flashB.bytes) := by
    refine State.loadFlash_phase0 ((checkPhase0_congr (s := s) ?_ ?_ ?_ _).trans ?_)
    · rw [hfail.rest, hstaged.rest]; exact hfirst.part
    · rw [hfail.rest, hstaged.rest]; exact hfirst.stepping
    · rw [hfail.rest, hstaged.rest]; exact hfirst.otp
    · rw [hloader]; exact hb
  rw [hloadB] at hx
  generalize w.stageFile 0 w.loader.flashB.bytes = x at hx
  have herr := x.imageFail_reg (k := evBOOT_IMAGE_B_FAIL) (by decide) (b, 0xFF)
  dsimp only at hx
  generalize x.imageFail evBOOT_IMAGE_B_FAIL (b, 0xFF) = y at hx herr
  have hfault := y.mem_assertFault .flash
  have hset := (y.assertFault .flash).setBs_only bsWAIT_HOST
  have hstate := (y.assertFault .flash).setBs_state (v := bsWAIT_HOST) (by decide)
  have hreg : ((y.assertFault .flash).setBs bsWAIT_HOST).regN rBSTREAM_ERROR = (65536 * 0xFF + b) % 2 ^ 32 :=
    (congrArg BitVec.toNat (hset.regs _ (by decide))).trans herr
  generalize (y.assertFault .flash).setBs bsWAIT_HOST = z at hx hset hstate hreg
  exact ⟨_, hx, rfl, (State.updBoot_getF _ _ _).trans hstate, by rw [State.updBoot, hset.rest]; exact hfault, (State.updBoot_regN _ _ _).trans hreg⟩

end Sys2Proof.Machine

/-! ## Rails, PLLs and the data plane of a start (R48, R49, R62 to R65, R69, R73) -/

namespace Sys2Proof.Machine

/-! ### Rules -/

theorem State.faultN_withFaults (s : State) (x : List FaultCause) : ({ s with faultN := x } : State).faultN = x := rfl

theorem State.assertFault_eq (s : State) (c : FaultCause) : s.assertFault c = { s with faultN := (s.assertFault c).faultN } := rfl

theorem State.releaseFault_faultN (s : State) (c : FaultCause) : (s.releaseFault c).faultN = s.faultN.filter (fun x => decide (x ≠ c)) := rfl

theorem State.not_mem_releaseFault (s : State) (c : FaultCause) : c ∉ (s.releaseFault c).faultN := by
  rw [State.releaseFault_faultN]
  simp

theorem OnlyRegs.faultN {l : List Nat} {s u : State} (h : OnlyRegs l s u) : u.faultN = s.faultN := by rw [h.rest]

theorem State.isF_setF_zero (s : State) {f : Fld} (hf : f.lo + f.w ≤ 32) : (s.setF f 0).isF f = false := by
  rw [State.isF, State.getF_setF _ _ _ hf, Nat.zero_mod]
  rfl

/-- Only the start, the faults, the events and the registers listed (and those of the events) change. -/
structure StartStep (l : List Nat) (s t : State) : Prop where
  rest : t = { s with regs := t.regs, hamper := t.hamper, spool := t.spool, posted := t.posted, wakeDue := t.wakeDue, boot := t.boot, faultN := t.faultN }
  regs : ∀ off, off ∉ l → off ∉ evRegs → t.reg off = s.reg off

section
variable {l : List Nat} {s t u : State}

theorem StartStep.quiet (h : StartStep l s t) : Quiet l { s with boot := t.boot, faultN := t.faultN } t := ⟨h.rest, h.regs⟩

theorem StartStep.refl (l : List Nat) (s : State) : StartStep l s s := ⟨rfl, fun _ _ _ => rfl⟩

theorem StartStep.trans (h : StartStep l s t) (k : StartStep l t u) : StartStep l s u := by
  refine ⟨?_, fun off ho he => (k.regs off ho he).trans (h.regs off ho he)⟩
  have hrest := k.rest
  rw [h.rest] at hrest
  exact hrest

theorem StartStep.of_quiet (q : Quiet l s t) : StartStep l s t := by
  refine ⟨?_, q.regs⟩
  have hfault : t.faultN = s.faultN := by rw [q.rest]
  have hboot : t.boot = { s.boot with held := t.boot.held } := congrArg State.boot q.rest
  rw [hfault, hboot]
  exact q.rest

theorem StartStep.of_only (q : OnlyRegs l s t) : StartStep l s t := .of_quiet q.quiet

theorem StartStep.withBoot (l : List Nat) (s : State) (b : Boot) : StartStep l s { s with boot := b } := ⟨rfl, fun _ _ _ => rfl⟩

theorem StartStep.withFaults (l : List Nat) (s : State) (x : List FaultCause) : StartStep l s { s with faultN := x } := ⟨rfl, fun _ _ _ => rfl⟩

theorem StartStep.updBoot (h : StartStep l s t) (F : Boot → Boot) : StartStep l s (t.updBoot F) := h.trans (.withBoot l t _)

theorem StartStep.assertFault (h : StartStep l s t) (c : FaultCause) : StartStep l s (t.assertFault c) := h.trans (.withFaults l t _)

theorem StartStep.releaseFault (h : StartStep l s t) (c : FaultCause) : StartStep l s (t.releaseFault c) := h.trans (.withFaults l t _)

theorem StartStep.setF (h : StartStep l s t) {f : Fld} {n : Nat} (hf : f.off ∈ l) : StartStep l s (t.setF f n) :=
  h.trans (.of_only ((OnlyRegs.refl _ _).setF hf))

theorem StartStep.bootEv (h : StartStep l s t) {k : EvKind} (hp : k.prio < 4) (data : Nat) : StartStep l s (t.bootEv k data) :=
  h.trans (.of_quiet (State.bootEv_quiet (.refl l t) hp data))

theorem StartStep.post (h : StartStep l s t) {k : EvKind} (hp : k.prio < 4) (src data : Nat) : StartStep l s (t.post k src data) :=
  h.trans (.of_quiet ((Quiet.refl l t).post hp))

end

/-- Registers written, seen with another start and other faults. -/
theorem OnlyRegs.over {l : List Nat} {s u : State} (h : OnlyRegs l s u) (b : Boot) (x : List FaultCause) :
    OnlyRegs l { s with boot := b, faultN := x } { u with boot := b, faultN := x } :=
  ⟨by rw [h.rest], fun off ho => h.regs off ho⟩

theorem State.isF_over (s : State) (b : Boot) (x : List FaultCause) (f : Fld) : ({ s with boot := b, faultN := x } : State).isF f = s.isF f := rfl

theorem State.releaseFault_eq (s : State) (c : FaultCause) : s.releaseFault c = { s with faultN := (s.releaseFault c).faultN } := rfl

/-! ### REFCLK_RECHECK -/

theorem does_refclkRecheck {n : BitVec 16} {s : State} (hdeg : s.isF fTOP_START_STATUS_DEGRADED_CLK = true) (h1 : 1800 ≤ n.toNat)
    (h2 : n.toNat ≤ 2200) :
    Does (.refclkRecheck n) s (fun t => t.boot.refclk = true ∧ t.isF fTOP_START_STATUS_DEGRADED_CLK = false
      ∧ t.isF fTOP_START_STATUS_REFCLK_OK = true ∧ .degraded ∉ t.faultN
      ∧ Quiet [rTOP_START_STATUS] { s with boot := { s.boot with refclk := true }, faultN := t.faultN } t) := by
  have hx : exec (.refclkRecheck n) s = execRefclkRecheck n s := rfl
  have hok : refclkOk n.toNat = true := by simp [refclkOk, h1, h2]
  rw [execRefclkRecheck, if_neg (by simp [hdeg, hok]), State.refclkFound] at hx
  have ha := (OnlyRegs.refl [rTOP_START_STATUS] s).setF (f := fTOP_START_STATUS_DEGRADED_CLK) (n := 0) (by decide)
  have hclear := s.isF_setF_zero (f := fTOP_START_STATUS_DEGRADED_CLK) (by decide)
  generalize s.setF fTOP_START_STATUS_DEGRADED_CLK 0 = a at hx ha hclear
  have hgone := a.not_mem_releaseFault .degraded
  rw [a.releaseFault_eq] at hx
  generalize (a.releaseFault .degraded).faultN = x at hgone hx
  have hc : ({ a with faultN := x } : State).updBoot (fun b => { b with refclk := true }) = { a with boot := { s.boot with refclk := true }, faultN := x } := by
    rw [State.updBoot, ha.boot_eq]
  rw [hc] at hx
  have hover := ha.over { s.boot with refclk := true } x
  have hcclear := (a.isF_over { s.boot with refclk := true } x _).trans hclear
  have hd : ({ a with boot := { s.boot with refclk := true }, faultN := x } : State).faultN = x := rfl
  have hb : ({ a with boot := { s.boot with refclk := true }, faultN := x } : State).boot.refclk = true := rfl
  generalize ({ a with boot := { s.boot with refclk := true }, faultN := x } : State) = c at hx hover hcclear hd hb
  have hset := (OnlyRegs.refl [rTOP_START_STATUS] c).setF (f := fTOP_START_STATUS_REFCLK_OK) (n := 1) (by decide)
  have hfound := c.isF_setF_one (f := fTOP_START_STATUS_REFCLK_OK) rfl (by decide)
  have hkeep : (c.setF fTOP_START_STATUS_REFCLK_OK 1).isF fTOP_START_STATUS_DEGRADED_CLK = false := by
    rw [State.isF, State.getF_setF_other _ _ _ _ (by decide) (.inr (by decide))]
    exact hcclear
  generalize c.setF fTOP_START_STATUS_REFCLK_OK 1 = d at hx hset hfound hkeep
  have hpost := State.bootEv_quiet (.refl [] d) (k := evBOOT_REFCLK_RECOVERED) (by decide) 0
  generalize d.bootEv evBOOT_REFCLK_RECOVERED 0 = t at hx hpost
  have hfaults : t.faultN = x := hpost.faultN.trans (hset.faultN.trans hd)
  have hboot : t.boot.refclk = true := by
    rw [hpost.rest]
    exact (congrArg Boot.refclk hset.boot_eq).trans hb
  refine ⟨t, hx, hboot, (State.isF_congr (hpost.regs _ (by simp) (by decide))).trans hkeep,
    (State.isF_congr (hpost.regs _ (by simp) (by decide))).trans hfound, by rw [hfaults]; exact hgone, ?_⟩
  rw [hfaults]
  exact (hover.quiet.trans hset.quiet).trans (hpost.mono (by simp))

/-! ### PMIC_IDENTITY_READ -/

/-- The declared environment is not the one found: the load is refused, and the start is as it was. -/
theorem State.envFail_effect (s : State) : s.envFail.bsState = bsFAILED ∧ .env ∈ s.envFail.faultN
    ∧ s.envFail.loader = { s.loader with failed := true } ∧ s.envFail.mem = s.mem := by
  rw [State.envFail]
  have herr := s.loadError_quiet errEnvMismatch (secIndex 2 s.loader.img.table)
  generalize s.loadError errEnvMismatch (secIndex 2 s.loader.img.table) = u at herr
  dsimp only
  have hset := (u.updLoader (fun x => { x with failed := true })).setBs_only bsFAILED
  have hstate := (u.updLoader (fun x => { x with failed := true })).setBs_state (v := bsFAILED) (by decide)
  generalize (u.updLoader (fun x => { x with failed := true })).setBs bsFAILED = v at hset hstate ⊢
  refine ⟨?_, v.mem_assertFault _, ?_, ?_⟩
  · rw [State.assertFault_eq]
    exact (State.getF_congr (v.reg_withFaults _ _)).trans hstate
  · rw [State.assertFault_eq]
    exact (congrArg State.loader hset.rest).trans (congrArg (fun x : Loader => { x with failed := true }) herr.loader)
  · rw [State.assertFault_eq]
    exact hset.mem_eq.trans herr.mem_eq

theorem does_pmicIdentityRead {id : Nat} {s : State} (hph : s.boot.phase = .waitPmic) (hwarm : s.boot.warm = false) :
    (id = s.loader.cfg.bd.pmicId → s.isF fTOP_START_STATUS_RAILS_DONE = false → s.loader.cfg.bd.rails ≠ [] →
      Does (.pmicIdentityRead id) s (fun t =>
        t = { s with boot := { s.boot with phase := .rails, railStep := 0, railsOn := [] } }))
    ∧ (id = s.loader.cfg.bd.pmicId → s.isF fTOP_START_STATUS_RAILS_DONE = true →
      let short := s.isF fTOP_START_STATUS_DRAM_READY = true ∧ 2 * min s.boot.dramMib.1 s.boot.dramMib.2 < s.loader.cfg.bd.dramMiB
      Does (.pmicIdentityRead id) s (fun t =>
        (¬short → t = { s with boot := { s.boot with phase := .started } })
        ∧ (short → t.bsState = bsFAILED ∧ .env ∈ t.faultN ∧ t.loader = { s.loader with failed := true } ∧ t.mem = s.mem)))
    ∧ (id ≠ s.loader.cfg.bd.pmicId → Does (.pmicIdentityRead id) s (fun t => t.boot.phase = .halted ∧ t.bsState = bsFAILED
      ∧ .env ∈ t.faultN ∧ t.loader.failed = true ∧ t.mem = s.mem)) := by
  have hx : exec (.pmicIdentityRead id) s = execPmicIdentityRead id s := rfl
  rw [execPmicIdentityRead, if_neg (by simp [hph, hwarm])] at hx
  refine ⟨fun hid hdone hrails => ?_, fun hid hdone => ?_, fun hid => ?_⟩
  · rw [if_pos hid, if_neg (by simp [hdone])] at hx
    rw [if_neg (by simpa [State.updBoot] using hrails)] at hx
    exact ⟨_, hx, rfl⟩
  · rw [if_pos hid, if_pos hdone, State.envAgain] at hx
    rw [State.updBoot_isF] at hx
    split at hx
    next hshort =>
      obtain ⟨hst, henv, hl, hm⟩ := (s.updBoot (fun b => { b with phase := .started })).envFail_effect
      exact ⟨_, hx, fun h => absurd hshort h, fun _ => ⟨hst, henv, hl, hm⟩⟩
    next hshort => exact ⟨_, hx, fun _ => rfl, fun h => absurd h hshort⟩
  · rw [if_neg hid] at hx
    obtain ⟨hst, henv, hl, hm⟩ := s.envFail_effect
    generalize s.envFail = u at hx hst henv hl hm
    exact ⟨_, hx, rfl, (State.updBoot_getF _ _ _).trans hst, henv, (congrArg Loader.failed hl), hm⟩

/-! ### RAIL_FAIL and PLL_LOCK_TIMEOUT -/

theorem does_railFail {s : State} (hph : s.boot.phase = .rails) :
    Does .railFail s (fun t => t.boot.phase = .halted ∧ t.boot.railsOn = [] ∧ t.bsState = bsFAILED
      ∧ .rail ∈ t.faultN ∧ Quiet [rBSTREAM_STATUS] { s with boot := t.boot, faultN := t.faultN } t) := by
  have hx : exec .railFail s = execRailFail s := rfl
  rw [execRailFail, if_neg (by simp [hph])] at hx
  dsimp only at hx
  have hset := (s.updBoot (fun b => { b with railsOn := [], phase := .halted })).setBs_only bsFAILED
  have hstate := (s.updBoot (fun b => { b with railsOn := [], phase := .halted })).setBs_state (v := bsFAILED) (by decide)
  have hstep := ((StartStep.refl [rBSTREAM_STATUS] s).updBoot (fun b => { b with railsOn := [], phase := .halted })).trans (.of_only hset)
  have hboot := hset.boot_eq
  generalize (s.updBoot (fun b => { b with railsOn := [], phase := .halted })).setBs bsFAILED = u at hx hstate hstep hboot
  obtain ⟨hpost, hfault⟩ := u.faultEv_kept .rail (k := evBOOT_RAIL_FAIL) (by decide) (s.boot.railStep % 16)
  have hlast := (hstep.assertFault .rail).bootEv (k := evBOOT_RAIL_FAIL) (by decide) (s.boot.railStep % 16)
  have htb := congrArg State.boot hpost.rest
  have hreg := (hpost.regs rBSTREAM_STATUS (by simp) (by decide)).trans (u.assertFault_reg _ _)
  generalize (u.assertFault .rail).bootEv evBOOT_RAIL_FAIL (s.boot.railStep % 16) = t at hx hfault hlast htb hreg
  refine ⟨t, hx, ?_, ?_, (State.getF_congr hreg).trans hstate, hfault, hlast.quiet⟩
  · exact (congrArg Boot.phase htb).trans (congrArg Boot.phase hboot)
  · exact (congrArg Boot.railsOn htb).trans (congrArg Boot.railsOn hboot)

theorem does_pllLockTimeout {p : Fin 6} {s : State} (href : s.boot.refclk = true) (hpll : s.boot.pll.getD p false = false)
    (hlen : s.boot.pllTries.length = 6) :
    (s.boot.pllTries.getD p 0 = 0 → Does (.pllLockTimeout p) s (fun t =>
      t = { s with boot := { s.boot with pllTries := s.boot.pllTries.set p 1 } }))
    ∧ (s.boot.pllTries.getD p 0 = 1 → s.tgsOn = [] → s.pwrCur ≠ pwSLEEP → Does (.pllLockTimeout p) s (fun t =>
      .pll ∈ t.faultN ∧ t.boot.pllTries.getD p 0 = 2 ∧ Quiet [] { s with boot := t.boot, faultN := t.faultN } t)) := by
  have hx : exec (.pllLockTimeout p) s = execPllLockTimeout p s := rfl
  rw [execPllLockTimeout] at hx
  dsimp only at hx
  refine ⟨fun htry => ?_, fun htry hoff haway => ?_⟩
  · rw [htry, if_neg (by rw [href, hpll]; decide), if_pos rfl] at hx
    exact ⟨_, hx, rfl⟩
  · rw [htry, if_neg (by rw [href, hpll]; decide), if_neg (by decide)] at hx
    have hgot : (s.boot.pllTries.set p 2).getD p 0 = 2 := by
      rw [List.getD_eq_getElem?_getD, List.getElem?_set_self (by omega)]
      rfl
    have hstep := (StartStep.refl [] s).updBoot (fun b => { b with pllTries := b.pllTries.set p 2 })
    have hub : (s.updBoot (fun b => { b with pllTries := b.pllTries.set p 2 })).boot.pllTries = s.boot.pllTries.set p 2 := rfl
    generalize s.updBoot (fun b => { b with pllTries := b.pllTries.set p (1 + 1) }) = u at hx hstep hub
    have hfault := u.mem_assertFault .pll
    have hpost := (Quiet.refl [] (u.assertFault .pll)).post (k := evPOWER_PLL_FAIL) (c := srcPWR) (d := p) (by decide)
    have hlast := (hstep.assertFault .pll).post (k := evPOWER_PLL_FAIL) (by decide) srcPWR p
    have htb : (u.assertFault .pll).boot.pllTries = s.boot.pllTries.set p 2 := hub
    generalize u.assertFault .pll = v at hx hfault hpost hlast htb
    have hb2 := congrArg (fun x : State => x.boot.pllTries) hpost.rest
    have hf2 := hpost.faultN
    generalize v.post evPOWER_PLL_FAIL srcPWR p = t at hx hlast hb2 hf2
    have hreg : ∀ off, off ∉ evRegs → t.reg off = s.reg off := fun off he => hlast.regs off (by simp) he
    have htg : t.tgsOn = s.tgsOn := by
      refine State.tgsOn_congr (by rw [hlast.rest]) fun n hn => State.getF_congr (hreg _ ?_)
      exact (by decide : ∀ n < 4, rTG_STATUS n ∉ evRegs) n hn
    rw [htg, hoff, List.foldl_nil, if_neg (fun h => haway ((State.getF_congr (hreg _ (by decide))).symm.trans h.1))] at hx
    refine ⟨t, hx, by rw [hf2]; exact hfault, ?_, hlast.quiet⟩
    rw [show t.boot.pllTries = s.boot.pllTries.set p 2 from hb2.trans htb]
    exact hgot

/-! ### RAIL_POWER_GOOD -/

theorem MsgHeld.boot_eq {s t : State} (h : MsgHeld s t) : t.boot = s.boot := by
  have hboot := congrArg State.boot h.rest
  rw [h.held] at hboot
  exact hboot

/-- The management firmware starts with no port to bring up: what is heard, and the messages of the start. -/
theorem State.fwStart_effect {s : State} (hztl : s.boot.pll.getD 4 false = false) :
    s.fwStart.boot = { s.boot with phase := .started, fwStarted := true, held := [] } ∧ s.fwStart.mem = s.mem
      ∧ ∀ off, off < 0x80000 → s.fwStart.reg off = s.reg off := by
  have hw := ((MsgHeld.refl (s.updBoot (fun b => { b with phase := .started, fwStarted := true, held := [] }))).pushHeld s.boot.held)
  rw [State.fwStart]
  dsimp only
  generalize (s.updBoot (fun b => { b with phase := .started, fwStarted := true, held := [] })).pushHeld s.boot.held = x at hw
  have hy : MsgHeld (s.updBoot (fun b => { b with phase := .started, fwStarted := true, held := [] })) (x.stateRec 2 1 0) := hw.sendSpi _ _ _ _
  generalize x.stateRec 2 1 0 = y at hy
  have hports : y.portsUp = y := by
    rw [State.portsUp, if_pos]
    right
    rw [hy.boot_eq]
    exact hztl
  rw [hports]
  have hm := congrArg State.mem hy.rest
  exact ⟨hy.boot_eq, hm, hy.regs⟩

theorem does_railPowerGood {s : State} {x : RailStep} (hph : s.boot.phase = .rails) (hstep : s.loader.cfg.bd.rails[s.boot.railStep]? = some x) :
    (s.boot.railStep + 1 < s.loader.cfg.bd.rails.length → Does .railPowerGood s (fun t =>
      t = { s with boot := { s.boot with railStep := s.boot.railStep + 1, railsOn := s.boot.railsOn ++ [x.rail] } }))
    ∧ (s.boot.railStep + 1 = s.loader.cfg.bd.rails.length → s.boot.pll.getD 4 false = false → Does .railPowerGood s (fun t =>
      t.boot.phase = .started ∧ t.boot.fwStarted = true ∧ t.boot.held = [] ∧ t.isF fTOP_START_STATUS_RAILS_DONE = true ∧ t.mem = s.mem)) := by
  have hx : exec .railPowerGood s = execRailPowerGood s := rfl
  rw [execRailPowerGood, if_neg (by simp [hph])] at hx
  dsimp only at hx
  rw [hstep] at hx
  split at hx
  next hlast =>
    have hlast : s.loader.cfg.bd.rails.length ≤ s.boot.railStep + 1 := hlast
    refine ⟨fun h => absurd h (by omega), fun _ hztl => ?_⟩
    generalize hu : s.updBoot (fun b => { b with railStep := s.boot.railStep + 1, railsOn := b.railsOn ++ [((some x).map RailStep.rail).getD 0] }) = u at hx
    have hpll : u.boot.pll.getD 4 false = false := by rw [← hu]; exact hztl
    have hmem : u.mem = s.mem := by rw [← hu]; rfl
    have hdone := u.isF_setF_one (f := fTOP_START_STATUS_RAILS_DONE) rfl (by decide)
    have hset := (OnlyRegs.refl [rTOP_START_STATUS] u).setF (f := fTOP_START_STATUS_RAILS_DONE) (n := 1) (by decide)
    rw [State.railsDone] at hx
    generalize u.setF fTOP_START_STATUS_RAILS_DONE 1 = v at hx hdone hset
    obtain ⟨hboot, hm, hreg⟩ := v.fwStart_effect (by rw [hset.boot_eq]; exact hpll)
    generalize v.fwStart = t at hx hboot hm hreg
    refine ⟨t, hx, by rw [hboot], by rw [hboot], by rw [hboot], (State.isF_congr (hreg _ (by decide))).trans hdone, ?_⟩
    exact hm.trans (hset.mem_eq.trans hmem)
  next hmore =>
    have hmore : ¬s.loader.cfg.bd.rails.length ≤ s.boot.railStep + 1 := hmore
    exact ⟨fun _ => ⟨_, hx, rfl⟩, fun h _ => absurd h (by omega)⟩

/-! ### PLL_LOCK -/

/-- The start once PLL p has locked. -/
def Boot.pllLocked (b : Boot) (p : Nat) : Boot := { b with pll := b.pll.set p true, pllTries := b.pllTries.set p 0 }

/-- SC runs on the PLL once SYS has locked. -/
def State.pllFio (s : State) (p : Fin 6) : State := if p = 0 then s.setF fSAFETY_STATUS_SC_ON_FIO 0 else s

/-- The ports come up with ZTL, and the data plane of a warm wake with the last lock. -/
def State.pllGo (s : State) (p : Fin 6) : State := (if p = 4 then s.portsUp else s).warmGo

theorem State.pllLock_eq (p : Fin 6) {s : State} (href : s.boot.refclk = true) (htry : s.boot.pllTries.getD p 0 < 2) :
    execPllLock p s = .next (((if p = 3 ∧ s.time.frcRun = false then ({ s with boot := s.boot.pllLocked p } : State).frcStart
      else { s with boot := s.boot.pllLocked p }).pllFio p).pllGo p) := by
  have hgo : ¬(s.boot.refclk = false ∨ 2 ≤ s.boot.pllTries.getD p 0) := by
    rw [href]
    simpa using htry
  rw [execPllLock, if_neg hgo]
  rfl

theorem State.pllFio_only (s : State) (p : Fin 6) : OnlyRegs [rSAFETY_STATUS] s (s.pllFio p) := by
  rw [State.pllFio]
  split
  · exact (OnlyRegs.refl _ s).setF (by decide)
  · exact .refl _ s

theorem State.pllFio_clear (s : State) (p : Fin 6) (hp : p = 0) : (s.pllFio p).isF fSAFETY_STATUS_SC_ON_FIO = false := by
  rw [State.pllFio, if_pos hp]
  exact s.isF_setF_zero (by decide)

/-- The FRC runs once TIME has locked; where no wake from DEEP_SLEEP resumes it, its count stays. -/
theorem State.frcStarted (p : Fin 6) (s : State) (b : Boot) (h : p ≠ 3 ∨ s.time.frcRun = true ∨ s.getF fTOP_RESET_CAUSE_CAUSE ≠ 1) :
    ∃ r, (if p = 3 ∧ s.time.frcRun = false then ({ s with boot := b } : State).frcStart else { s with boot := b })
        = { s with boot := b, time := { s.time with frcRun := r } } ∧ (p = 3 → r = true) := by
  split
  next hgo =>
    have hcause : ¬({ s with boot := b } : State).getF fTOP_RESET_CAUSE_CAUSE = 1 := by
      rw [show ({ s with boot := b } : State).getF fTOP_RESET_CAUSE_CAUSE = s.getF fTOP_RESET_CAUSE_CAUSE from State.updBoot_getF s (fun _ => b) _]
      simpa [hgo] using h
    rw [State.frcStart, if_neg hcause]
    exact ⟨true, rfl, fun _ => rfl⟩
  next hgo =>
    refine ⟨s.time.frcRun, rfl, fun hp => ?_⟩
    simpa [hp] using hgo

theorem getD_set_same {l : List Bool} {p : Nat} (h : p < l.length) : (l.set p true).getD p false = true := by
  rw [List.getD_eq_getElem?_getD, List.getElem?_set_self h]
  rfl

theorem getD_set_other {l : List Bool} {p q : Nat} (h : q ≠ p) : (l.set p true).getD q false = l.getD q false := by
  rw [List.getD_eq_getElem?_getD, List.getElem?_set_ne (Ne.symm h), List.getD_eq_getElem?_getD]

theorem does_pllLock_cold {p : Fin 6} {s : State} (href : s.boot.refclk = true) (htry : s.boot.pllTries.getD p 0 < 2) (hlen : s.boot.pll.length = 6)
    (hfw : p ≠ 4 ∨ s.boot.fwStarted = false) (hfrc : p ≠ 3 ∨ s.time.frcRun = true ∨ s.getF fTOP_RESET_CAUSE_CAUSE ≠ 1) (hdue : s.boot.warmDue = false) :
    Does (.pllLock p) s (fun t => t.boot.pll.getD p false = true ∧ (∀ q, q ≠ p.val → t.boot.pll.getD q false = s.boot.pll.getD q false)
      ∧ (p = 3 → t.time.frcRun = true) ∧ (p = 0 → t.isF fSAFETY_STATUS_SC_ON_FIO = false) ∧ t.time.frc = s.time.frc
      ∧ Quiet [rSAFETY_STATUS] { s with boot := t.boot, time := t.time } t) := by
  have hx : exec (.pllLock p) s = execPllLock p s := rfl
  obtain ⟨r, hrun, hr⟩ := State.frcStarted p s (s.boot.pllLocked p) hfrc
  rw [State.pllLock_eq p href htry, hrun] at hx
  have hub : ({ s with boot := s.boot.pllLocked p, time := { s.time with frcRun := r } } : State).boot = s.boot.pllLocked p := rfl
  have hut : ({ s with boot := s.boot.pllLocked p, time := { s.time with frcRun := r } } : State).time = { s.time with frcRun := r } := rfl
  generalize hu : ({ s with boot := s.boot.pllLocked p, time := { s.time with frcRun := r } } : State) = u at hx hub hut
  have hset := u.pllFio_only p
  have hfio := u.pllFio_clear p
  generalize u.pllFio p = v at hx hset hfio
  have hvb : v.boot = s.boot.pllLocked p := hset.boot_eq.trans hub
  have hvt : v.time = { s.time with frcRun := r } := hset.time_eq.trans hut
  have hports : (if p = 4 then v.portsUp else v) = v := by
    split
    next hp =>
      rw [State.portsUp, if_pos]
      left
      rw [hvb]
      exact hfw.resolve_left (fun h => h hp)
    next => rfl
  have hwarm : v.warmGo = v := by
    rw [State.warmGo, if_neg]
    rw [hvb]
    intro h
    exact absurd (hdue.symm.trans h.1) (by decide)
  rw [State.pllGo, hports, hwarm] at hx
  refine ⟨v, hx, ?_, fun q hq => ?_, fun hp => ?_, hfio, ?_, ?_⟩
  · rw [hvb]
    exact getD_set_same (by omega)
  · rw [hvb]
    exact getD_set_other hq
  · rw [hvt]
    exact hr hp
  · rw [hvt]
  · rw [hvb, hvt, hu]
    exact hset.quiet

/-! ### The data plane of a warm wake -/

theorem State.refill_none {s : State} (h : ∀ k, k < 4 → s.boot.mapOk.getD k false = false) : s.refill = s := by
  rw [State.refill, show List.range 4 = [0, 1, 2, 3] from rfl]
  simp only [List.foldl_cons, List.foldl_nil, h 0 (by decide), h 1 (by decide), h 2 (by decide), h 3 (by decide), Bool.false_eq_true, if_false]

theorem State.mapReads_none {s : State} (h : ∀ k, k < 4 → s.tileUp k = false) : s.mapReads = s := by
  rw [State.mapReads, show List.range 4 = [0, 1, 2, 3] from rfl]
  simp only [List.foldl_cons, List.foldl_nil, h 0 (by decide), h 1 (by decide), h 2 (by decide), h 3 (by decide), if_true]

theorem State.tileUp_congr {s t : State} {n : Nat} (h : t.reg (rZTL_STATUS n) = s.reg (rZTL_STATUS n)) : t.tileUp n = s.tileUp n := by
  unfold State.tileUp State.zActive State.zState
  rw [State.getF_congr (f := fZTL_STATUS_STATE n) h, State.isF_congr (f := fZTL_STATUS_CAPS_ACCEPTED n) h]

theorem State.setF_reads {l : List Nat} {s u : State} (h : OnlyRegs l s u) (hl : ∀ n < 4, rZTL_STATUS n ∉ l) {k : Nat} (hk : k < 4) :
    u.tileUp k = s.tileUp k := State.tileUp_congr (h.regs _ (hl k hk))

/-- Running again is shown as such. -/
def State.runShown (s : State) : State := if s.bsState = bsRUNNING then s.setF fTOP_START_STATUS_RUNTIME_DONE 1 else s

theorem State.runShown_only (s : State) : OnlyRegs [rTOP_START_STATUS] s s.runShown := by
  rw [State.runShown]
  split
  · exact (OnlyRegs.refl _ s).setF (by decide)
  · exact .refl _ s

theorem State.runShown_ready (s : State) : s.runShown.isF fTOP_START_STATUS_DRAM_READY = s.isF fTOP_START_STATUS_DRAM_READY := by
  rw [State.runShown]
  split
  · rw [State.isF, State.getF_setF_other _ _ _ _ (by decide) (.inr (by decide)), State.isF]
  · rfl

/-- DRAM is out of self-refresh, as the wake notes it. -/
def State.dramShown (s : State) : State := (s.updBoot (fun b => { b with warmDue := false })).setF fTOP_START_STATUS_DRAM_READY 1

theorem State.warmData_eq {s : State} {v : Nat} (hres : s.dramShown.boot.resume = some v) :
    s.warmData = (((s.dramShown.setBs v).updBoot (fun b => { b with resume := none })).runShown.updPwr (fun p => { p with selfRefresh := false })).refill.mapReads := by
  rw [State.dramShown] at hres
  rw [State.warmData, hres]
  rfl

/-- The data plane of a wake with no map to fill: DRAM is ready, and STATE is as it was. -/
theorem State.warmData_effect {s : State} {v : Nat} (hres : s.boot.resume = some v) (hv : v ≤ bsFAILED)
    (hmap : ∀ k, k < 4 → s.boot.mapOk.getD k false = false ∧ s.tileUp k = false) :
    s.warmData.isF fTOP_START_STATUS_DRAM_READY = true ∧ s.warmData.bsState = v ∧ s.warmData.boot.warmDue = false
      ∧ s.warmData.pwr.selfRefresh = false ∧ s.warmData.mem = s.mem := by
  have hv : v < 16 := lt_of_le_of_lt hv (by decide)
  have h1 := (OnlyRegs.refl [rTOP_START_STATUS] (s.updBoot (fun b => { b with warmDue := false }))).setF (f := fTOP_START_STATUS_DRAM_READY) (n := 1) (by decide)
  have hready := (s.updBoot (fun b => { b with warmDue := false })).isF_setF_one (f := fTOP_START_STATUS_DRAM_READY) rfl (by decide)
  have htile : ∀ k, (s.updBoot (fun b => { b with warmDue := false })).tileUp k = s.tileUp k := fun k => State.tileUp_congr rfl
  have heq := s.warmData_eq (v := v) (by rw [State.dramShown, h1.boot_eq]; exact hres)
  rw [State.dramShown] at heq
  rw [heq]
  generalize (s.updBoot (fun b => { b with warmDue := false })).setF fTOP_START_STATUS_DRAM_READY 1 = a at h1 hready ⊢
  have hab : a.boot = { s.boot with warmDue := false } := h1.boot_eq
  have ham : a.mem = s.mem := h1.mem_eq
  have h2 := a.setBs_only v
  have hst := a.setBs_state hv
  generalize a.setBs v = b at h2 hst ⊢
  have hbready : b.isF fTOP_START_STATUS_DRAM_READY = true := (State.isF_congr (h2.regs _ (by decide))).trans hready
  have hcs : (b.updBoot (fun b => { b with resume := none })).bsState = v := (State.bsState_withBoot b _).trans hst
  have hcready := (b.updBoot_isF (fun b => { b with resume := none }) fTOP_START_STATUS_DRAM_READY).trans hbready
  have hcb : (b.updBoot (fun b => { b with resume := none })).boot = { a.boot with resume := none } := congrArg (fun x : Boot => { x with resume := none }) h2.boot_eq
  have hct : ∀ k < 4, (b.updBoot (fun b => { b with resume := none })).tileUp k = s.tileUp k := fun k hk =>
    (State.tileUp_congr rfl).trans ((State.setF_reads h2 (by decide) hk).trans ((State.setF_reads h1 (by decide) hk).trans (htile k)))
  have hcm : (b.updBoot (fun b => { b with resume := none })).mem = s.mem := h2.mem_eq.trans ham
  generalize b.updBoot (fun b => { b with resume := none }) = c at hcs hcready hcb hct hcm ⊢
  have h3 := c.runShown_only
  have hdready := c.runShown_ready.trans hcready
  generalize c.runShown = d at h3 hdready ⊢
  have hdb : d.boot = { s.boot with warmDue := false, resume := none } := by
    rw [h3.boot_eq, hcb, hab]
  have he : (d.updPwr (fun p => { p with selfRefresh := false })).refill.mapReads = d.updPwr (fun p => { p with selfRefresh := false }) := by
    have hreads : ∀ k, k < 4 → (d.updPwr (fun p => { p with selfRefresh := false })).tileUp k = false := fun k hk =>
      (State.tileUp_congr rfl).trans ((State.setF_reads h3 (by decide) hk).trans ((hct k hk).trans (hmap k hk).2))
    rw [State.refill_none fun k hk => ?_, State.mapReads_none hreads]
    exact (congrArg (fun x : Boot => x.mapOk.getD k false) hdb).trans (hmap k hk).1
  rw [he]
  refine ⟨(State.updPwr_isF _ _ _).trans hdready, (State.updPwr_getF _ _ _).trans ((State.getF_congr (h3.regs _ (by decide))).trans hcs), ?_, rfl, h3.mem_eq.trans hcm⟩
  exact congrArg Boot.warmDue hdb

/-- The PLLs that the data plane waits for have locked with PLL p. -/
theorem pllsUp_locked {b : Boot} {p : Nat} (hp : p < b.pll.length) (h : ∀ q, q ∈ [0, 1, 2, 3, 5] → q ≠ p → b.pll.getD q false = true) :
    [0, 1, 2, 3, 5].all (fun q => (b.pllLocked p).pll.getD q false) = true := by
  rw [List.all_eq_true]
  intro q hq
  by_cases hqp : q = p
  · rw [hqp]
    exact getD_set_same hp
  · exact (getD_set_other hqp).trans (h q hq hqp)

theorem does_pllLock_warm {p : Fin 6} (hp : p ∈ ([0, 1, 2, 5] : List (Fin 6))) {v : Nat} {s : State} (href : s.boot.refclk = true)
    (htry : s.boot.pllTries.getD p 0 < 2) (hlen : s.boot.pll.length = 6) (hdue : s.boot.warmDue = true) (hfw : s.boot.fwStarted = true)
    (hsc : s.boot.scRun = true) (htt : s.boot.ttRun = true) (hpll : ∀ q, q ∈ [0, 1, 2, 3, 5] → q ≠ p.val → s.boot.pll.getD q false = true)
    (hres : s.boot.resume = some v) (hv : v ≤ bsFAILED) (hmap : ∀ k, k < 4 → s.boot.mapOk.getD k false = false ∧ s.tileUp k = false) :
    Does (.pllLock p) s (fun t => t.isF fTOP_START_STATUS_DRAM_READY = true ∧ t.bsState = v ∧ t.boot.warmDue = false
      ∧ t.pwr.selfRefresh = false ∧ t.mem = s.mem) := by
  have hx : exec (.pllLock p) s = execPllLock p s := rfl
  obtain ⟨hp3, hp4⟩ : p ≠ 3 ∧ p ≠ 4 := (by decide : ∀ p ∈ ([0, 1, 2, 5] : List (Fin 6)), p ≠ 3 ∧ p ≠ 4) p hp
  rw [State.pllLock_eq p href htry, if_neg (fun h => hp3 h.1)] at hx
  have hub : ({ s with boot := s.boot.pllLocked p } : State).boot = s.boot.pllLocked p := rfl
  have hum : ({ s with boot := s.boot.pllLocked p } : State).mem = s.mem := rfl
  have hut : ∀ k, ({ s with boot := s.boot.pllLocked p } : State).tileUp k = s.tileUp k := fun k => State.tileUp_congr rfl
  generalize ({ s with boot := s.boot.pllLocked p } : State) = u at hx hub hum hut
  have hset := u.pllFio_only p
  generalize u.pllFio p = w at hx hset
  have hwb : w.boot = s.boot.pllLocked p := hset.boot_eq.trans hub
  have hup : w.pllsUp = true := by
    rw [State.pllsUp, hwb]
    exact pllsUp_locked (by omega) hpll
  have hgo : w.pllGo p = w.warmData := by
    rw [State.pllGo, if_neg hp4, State.warmGo, if_pos]
    rw [hup, hwb]
    exact ⟨hdue, hfw, hsc, htt, rfl⟩
  rw [hgo] at hx
  obtain ⟨hready, hst, hnot, href', hm⟩ := w.warmData_effect (by rw [hwb]; exact hres) hv fun k hk => by
    rw [hwb]
    exact ⟨(hmap k hk).1, (State.setF_reads hset (by decide) hk).trans ((hut k).trans (hmap k hk).2)⟩
  exact ⟨_, hx, hready, hst, hnot, href', hm.trans (hset.mem_eq.trans hum)⟩

/-- Settles O40: the reference clock, the PMIC, the rails and the PLLs, in and out of their limits. -/
theorem startClocksAndRails : Obligations.StartClocksAndRails := by
  unfold Obligations.StartClocksAndRails
  exact ⟨fun n s hph hwarm => does_refclkCheck_warm hph hwarm, fun n a b s hph hwarm ha hb => does_refclkCheck_cold hph hwarm ha hb,
    fun n s hdeg h1 h2 => does_refclkRecheck hdeg h1 h2, fun id s hph hwarm => does_pmicIdentityRead hph hwarm,
    fun s x hph hstep => does_railPowerGood hph hstep, fun s hph => does_railFail hph,
    fun p s href htry hlen hfw hfrc hdue => does_pllLock_cold href htry hlen hfw hfrc hdue,
    fun p hp v s href htry hlen hdue hfw hsc htt hpll hres hv hmap => does_pllLock_warm hp href htry hlen hdue hfw hsc htt hpll hres hv hmap,
    fun p s href hpll hlen => does_pllLockTimeout href hpll hlen⟩

end Sys2Proof.Machine

/-! ## The switch tests of a start: a tile still to be tested holds the switches open (R66) -/

namespace Sys2Proof.Machine

/-- Two tiles, both channels up: tile 0 has its last test before it, tile 1 all four. -/
def twoTilesTested : State :=
  { State.reset with
    boot := { State.reset.boot with fwStarted := true, scRun := true, ttRun := true, scPass := true, ttPass := true, swStep := [3, 0, 0, 0] }
    loader := { State.reset.loader with cfg := { State.reset.loader.cfg with st := { State.reset.loader.cfg.st with arr := .a2x1 } } } }

theorem twoTilesTested_may : twoTilesTested.swTestMay 0 = true := by decide

theorem twoTilesTested_next : twoTilesTested.swNext 0 = 3 := by decide

/-- Tile 1 still waits for its tests, so that no switch closes. -/
theorem twoTilesTested_open : ((twoTilesTested.swTest 0 3 false false).swCloseAll.safeT 0).hs = false := by decide

/-- Refutes O41: in the clause that closes a tile's switches after its last test, the bound of `∀ m, m < 4` is read in `Fin 4`, where it
is 0, so that nothing is asked of the other tiles; with one of them still to be tested no switch closes. -/
theorem not_startTests : ¬ Obligations.StartTests := by
  unfold Obligations.StartTests
  rintro ⟨-, hswitch, -⟩
  obtain ⟨-, hlast⟩ := hswitch 0 twoTilesTested twoTilesTested_may rfl rfl
  have hnone : ∀ m : Fin 4, m < 4 → m ≠ 0 → twoTilesTested.swPending m = false := fun m hm => absurd hm (Fin.not_lt_zero m)
  obtain ⟨t, hx, hhs, -⟩ := hlast twoTilesTested_next (.inl rfl) rfl hnone false
  have heq : exec (.startupSwitchTest 0 false false) twoTilesTested = .next ((twoTilesTested.swTest 0 3 false false).swCloseAll) := by
    have h : exec (.startupSwitchTest 0 false false) twoTilesTested = execStartupSwitchTest 0 false false twoTilesTested := rfl
    rw [h, execStartupSwitchTest, if_neg (by rw [show ((0 : Fin 4) : Nat) = 0 from rfl, twoTilesTested_may]; decide)]
    rw [show ((0 : Fin 4) : Nat) = 0 from rfl, twoTilesTested_next]
  rw [heq] at hx
  have ht : (twoTilesTested.swTest 0 3 false false).swCloseAll = t := by injection hx
  rw [← ht] at hhs
  exact absurd (twoTilesTested_open.symm.trans hhs) (by decide)

end Sys2Proof.Machine

/-! ## Tile ports: what their operations leave alone -/

namespace Sys2Proof.Machine

theorem State.portOf_updPort (s : State) (n k : Nat) (F : Port → Port) : (s.updPort n F).portOf k = if k = n then F (s.portOf n) else s.portOf k :=
  State.portOf_setPort _ _ _ _

theorem State.portOf_updPort_self (s : State) (n : Nat) (F : Port → Port) : (s.updPort n F).portOf n = F (s.portOf n) := by
  rw [State.portOf_updPort, if_pos rfl]

/-- Only port n changes. -/
structure PortOnly (n : Nat) (s t : State) : Prop where
  rest : t = { s with port := t.port }
  other : ∀ k, k ≠ n → t.portOf k = s.portOf k

section
variable {n : Nat} {s t u : State}

theorem PortOnly.refl (n : Nat) (s : State) : PortOnly n s s := ⟨rfl, fun _ _ => rfl⟩

theorem PortOnly.trans (h : PortOnly n s t) (k : PortOnly n t u) : PortOnly n s u := by
  refine ⟨?_, fun m hm => (k.other m hm).trans (h.other m hm)⟩
  have hrest := k.rest
  rw [h.rest] at hrest
  exact hrest

theorem PortOnly.updPort (h : PortOnly n s t) (F : Port → Port) : PortOnly n s (t.updPort n F) :=
  h.trans ⟨rfl, fun k hk => by rw [State.portOf_updPort, if_neg hk]⟩

theorem PortOnly.boot (h : PortOnly n s t) : t.boot = s.boot := by rw [h.rest]
theorem PortOnly.mem (h : PortOnly n s t) : t.mem = s.mem := by rw [h.rest]
theorem PortOnly.regs (h : PortOnly n s t) : t.regs = s.regs := by rw [h.rest]
theorem PortOnly.time (h : PortOnly n s t) : t.time = s.time := by rw [h.rest]
theorem PortOnly.reg (h : PortOnly n s t) (off : Nat) : t.reg off = s.reg off := by rw [State.reg, State.reg, h.regs]

theorem PortOnly.emit (h : PortOnly n s t) (x : Tx) : PortOnly n s (t.emit n x) := h.updPort _

theorem PortOnly.send (h : PortOnly n s t) (k body : Nat) : PortOnly n s (t.send n k body) := by
  unfold State.send
  exact (h.emit _).updPort _

theorem PortOnly.nvSend (h : PortOnly n s t) (start len tries : Nat) : PortOnly n s (t.nvSend n start len tries) := by
  unfold State.nvSend
  exact (h.send _ _).updPort _

theorem PortOnly.startReads (h : PortOnly n s t) (more : List (Nat × Nat)) : PortOnly n s (t.startReads n more) := (h.updPort _).nvSend _ _ _

theorem PortOnly.startMapRead (h : PortOnly n s t) : PortOnly n s (t.startMapRead n) := by
  unfold State.startMapRead
  split
  · exact h
  · exact h.startReads _

theorem PortOnly.sendFallback (h : PortOnly n s t) (pat : Nat) : PortOnly n s (t.sendFallback n pat) := (h.updPort _).send _ _

end

/-- A control word goes out at the lanes' next room. -/
theorem State.portOf_send (s : State) (n k body : Nat) : (s.send n k body).portOf n
    = { s.portOf n with tx := .ctl (ctlWord k body) :: (s.portOf n).tx, slots := slotsInsert (ctlWord k body) (s.portOf n).slots } := by
  rw [State.send, State.emit]
  rw [State.portOf_updPort_self, State.portOf_updPort_self]

/-- A read of the tile's store. -/
theorem State.nvSend_keeps {φ : Port → α} (hφ : ∀ (p : Port) (w : BitVec 64) r, φ { p with tx := .ctl w :: p.tx, slots := slotsInsert w p.slots, nvRead := r } = φ p)
    (s : State) (n start len tries : Nat) : φ ((s.nvSend n start len tries).portOf n) = φ (s.portOf n) := by
  rw [State.nvSend]
  rw [State.portOf_updPort_self, State.portOf_send]
  exact hφ _ _ _

theorem State.startReads_mapRead (s : State) (n : Nat) (more : List (Nat × Nat)) : ((s.startReads n more).portOf n).mapRead = false := by
  rw [State.startReads, State.nvSend_keeps (φ := fun p => p.mapRead) (fun _ _ _ => rfl), State.portOf_updPort_self]

theorem State.startMapRead_mapRead {s : State} {n : Nat} {c : Caps} (h : (s.portOf n).caps = some c) : ((s.startMapRead n).portOf n).mapRead = false := by
  rw [State.startMapRead, h]
  exact s.startReads_mapRead n _

end Sys2Proof.Machine

/-! ## DRAM, calibration maps and the handover (R49, R69 to R73) -/

namespace Sys2Proof.Machine

theorem State.sfEv_quiet {l : List Nat} {s u : State} (q : Quiet l s u) {k : EvKind} (hp : k.prio < 4) (who src data : Nat) : Quiet l s (u.sfEv k who src data) :=
  q.postOnce hp

/-! ### DRAM_TRAINED -/

theorem State.dramExtra_quiet {l : List Nat} {s u : State} (q : Quiet l s u) (mib : Nat × Nat) : Quiet l s (u.dramExtra mib) := by
  have hone : ∀ (v : State) (c : Nat × Nat), Quiet l s v →
      Quiet l s (if v.loader.cfg.bd.dramMiB < 2 * c.2 then v.post evCONFIG_DRAM_EXTRA srcBSTREAM (65536 * (c.2 % 65536) + c.1) else v) :=
    fun v c hv => .ite (fun _ => hv.post (by decide)) (fun _ => hv)
  exact hone _ _ (hone _ _ q)

theorem does_dramTrained_fail {fail : BitVec 2} {mib : Nat × Nat} {s : State} (hfw : s.boot.fwStarted = true) (href : s.boot.refclk = true)
    (hpll : s.pllsUp = true) (hnot : s.isF fTOP_START_STATUS_DRAM_READY = false) (hst : s.bsState = bsVERIFY_ENV) (hfail : fail ≠ 0) :
    (s.boot.dramTries = 0 → Does (.dramTrained fail mib) s (fun t => t = { s with boot := { s.boot with dramTries := 1 } }))
    ∧ (s.boot.dramTries ≠ 0 → Does (.dramTrained fail mib) s (fun t => t.bsState = bsFAILED ∧ .dram ∈ t.faultN
      ∧ Quiet [rBSTREAM_STATUS] { s with faultN := t.faultN } t)) := by
  have hx : exec (.dramTrained fail mib) s = execDramTrained fail mib s := rfl
  rw [execDramTrained, if_neg (by simp [hfw, href, hpll, hnot, hst]), if_pos hfail] at hx
  refine ⟨fun h => ?_, fun h => ?_⟩
  · rw [if_pos h] at hx
    exact ⟨_, hx, rfl⟩
  · rw [if_neg h] at hx
    have hset := s.setBs_only bsFAILED
    have hstate := s.setBs_state (v := bsFAILED) (by decide)
    generalize s.setBs bsFAILED = u at hx hset hstate
    obtain ⟨hpost, hfault⟩ := u.faultEv_kept .dram (k := evBOOT_DRAM_TRAIN_FAIL) (by decide) fail.toNat
    have hover := hset.over s.boot (u.assertFault .dram).faultN
    rw [u.assertFault_eq] at hx hpost hfault
    generalize (u.assertFault .dram).faultN = x at hx hpost hfault hover
    generalize ({ u with faultN := x } : State).bootEv evBOOT_DRAM_TRAIN_FAIL fail.toNat = t at hx hpost hfault
    refine ⟨t, hx, (State.getF_congr ((hpost.regs _ (by simp) (by decide)).trans (u.reg_withFaults _ _))).trans hstate, hfault, ?_⟩
    rw [hpost.faultN]
    have hboot : { u with boot := s.boot, faultN := x } = { u with faultN := x } := by rw [← hset.boot_eq]
    rw [hboot] at hover
    exact hover.quiet.trans (hpost.mono (by simp))

theorem does_dramTrained {fail : BitVec 2} {mib : Nat × Nat} {s : State} (hfw : s.boot.fwStarted = true) (href : s.boot.refclk = true)
    (hpll : s.pllsUp = true) (hnot : s.isF fTOP_START_STATUS_DRAM_READY = false) (hst : s.bsState = bsVERIFY_ENV) (hfail : fail = 0) :
    (2 * min mib.1 mib.2 < s.loader.cfg.bd.dramMiB → Does (.dramTrained fail mib) s (fun t => t.bsState = bsFAILED ∧ .env ∈ t.faultN
      ∧ t.loader = { s.loader with failed := true } ∧ t.mem = s.mem))
    ∧ (s.loader.cfg.bd.dramMiB ≤ 2 * min mib.1 mib.2 → (∀ n, n < 4 → s.tileUp n = false) → Does (.dramTrained fail mib) s (fun t =>
      t.isF fTOP_START_STATUS_DRAM_READY = true
      ∧ Quiet [rTOP_START_STATUS] { s with boot := { s.boot with dramMib := mib } } t)) := by
  have hx : exec (.dramTrained fail mib) s = execDramTrained fail mib s := rfl
  rw [execDramTrained, if_neg (by simp [hfw, href, hpll, hnot, hst]), if_neg (by simp [hfail])] at hx
  refine ⟨fun h => ?_, fun h htile => ?_⟩
  · rw [if_pos h] at hx
    exact ⟨_, hx, s.envFail_effect⟩
  · rw [if_neg (by omega)] at hx
    have hextra := State.dramExtra_quiet (.refl [rTOP_START_STATUS] (s.updBoot (fun b => { b with dramMib := mib }))) mib
    generalize (s.updBoot (fun b => { b with dramMib := mib })).dramExtra mib = u at hx hextra
    have hset := hextra.setF (f := fTOP_START_STATUS_DRAM_READY) (n := 1) (.inl (by decide))
    have hready := u.isF_setF_one (f := fTOP_START_STATUS_DRAM_READY) rfl (by decide)
    generalize u.setF fTOP_START_STATUS_DRAM_READY 1 = v at hx hset hready
    have hnone : v.mapReads = v := State.mapReads_none fun k hk => by
      have hfree : ∀ k < 4, rZTL_STATUS k ∉ [rTOP_START_STATUS] ∧ rZTL_STATUS k ∉ evRegs := by decide
      rw [State.tileUp_congr (hset.regs _ (hfree k hk).1 (hfree k hk).2)]
      exact htile k hk
    rw [hnone] at hx
    exact ⟨v, hx, hready, hset⟩

/-! ### CAL_MAP_READ and HANDOVER_START -/

theorem State.setFb_boot (s : State) (n : Nat) (b : Bool) : (s.setFb n b).boot = s.boot := by
  rw [State.setFb]
  split
  · exact (State.setReg_boot _ _ _).trans ((State.setReg_boot _ _ _).trans rfl)
  · exact (State.setReg_boot _ _ _).trans rfl

theorem State.swCloseAll_tries (s : State) : s.swCloseAll.boot.mapTries = s.boot.mapTries := by
  have hone : ∀ (u : State) (m : Nat), (if u.swCloses m then u.swClose m else u).boot.mapTries = u.boot.mapTries := by
    intro u m
    split
    · unfold State.swClose
      dsimp only
      split <;> split <;> rfl
    · rfl
  rw [State.swCloseAll]
  split
  · rfl
  · exact foldl_keeps (φ := fun u => u.boot.mapTries) (F := fun u m => if u.swCloses m then u.swClose m else u) hone _ s

/-- The map of tile n is given up: it keeps its fallback beam, or takes it. -/
def State.mapGivenUp (s : State) (n : Nat) : State :=
  if ((s.dropDirect n).swCloseAll).lit n then ((s.dropDirect n).swCloseAll).setFb n true else (s.dropDirect n).swCloseAll

theorem State.mapGivenUp_tries (s : State) (n : Nat) : (s.mapGivenUp n).boot.mapTries = s.boot.mapTries := by
  rw [State.mapGivenUp]
  split
  · rw [State.setFb_boot]
    exact (s.dropDirect n).swCloseAll_tries
  · exact (s.dropDirect n).swCloseAll_tries

theorem State.hlEv_quiet {l : List Nat} {s u : State} (q : Quiet l s u) {k : EvKind} (hp : k.prio < 4) (n data : Nat) : Quiet l s (u.hlEv k n data) := q.post hp

/-- The read of a map that failed is counted. -/
def State.mapCounted (s : State) (n : Nat) : State :=
  s.updBoot (fun b => { b with mapTries := b.mapTries.set n (s.boot.mapTries.getD n 0 + 1) })

theorem State.mapFailed_eq (s : State) (n : Nat) : s.mapFailed n = if s.boot.mapTries.getD n 0 + 1 < 3 then (s.mapCounted n).startMapRead n
    else (((s.mapCounted n).updBoot (fun b => { b with mapFail := b.mapFail.set n true })).mapGivenUp n).hlEv evHEALTH_CAL_MAP_FAIL n 0 := rfl

theorem State.mapFailed_tries (s : State) (n : Nat) : (s.mapFailed n).boot.mapTries = s.boot.mapTries.set n (s.boot.mapTries.getD n 0 + 1) := by
  rw [State.mapFailed_eq]
  split
  · rw [((PortOnly.refl n _).startMapRead).boot]
    rfl
  · have hg := ((s.mapCounted n).updBoot (fun b => { b with mapFail := b.mapFail.set n true })).mapGivenUp_tries n
    generalize ((s.mapCounted n).updBoot (fun b => { b with mapFail := b.mapFail.set n true })).mapGivenUp n = u at hg ⊢
    have hev := State.hlEv_quiet (.refl [] u) (k := evHEALTH_CAL_MAP_FAIL) (by decide) n 0
    exact (congrArg (fun v : State => v.boot.mapTries) hev.rest).trans hg

theorem State.mapFilled_effect (s : State) (n : Nat) :
    (s.mapFilled n true).boot.mapOk = s.boot.mapOk.set n true ∧ ((s.mapFilled n true).portOf n).mapRead = false
      ∧ ((s.mapFilled n true).portOf n).selStage = 0 := by
  have h : s.mapFilled n true = ((s.updBoot (fun b => { b with mapOk := b.mapOk.set n true })).dropRanges n).updPort n
      (fun p => { p with selStage := 0, selTries := 0, mapRead := false }) := rfl
  rw [h]
  generalize hu : (s.updBoot (fun b => { b with mapOk := b.mapOk.set n true })).dropRanges n = u
  refine ⟨?_, ?_, ?_⟩
  · rw [((PortOnly.refl n u).updPort _).boot, ← hu]
    rfl
  · rw [State.portOf_updPort_self]
  · rw [State.portOf_updPort_self]

theorem execCalMapRead_eq {n : Fin 4} {c : Caps} {s : State} (hcaps : (s.portOf n).caps = some c) (hread : (s.portOf n).mapRead = true)
    (hready : s.isF fTOP_START_STATUS_DRAM_READY = true) (hfail : s.boot.mapFail.getD n false = false) (hsame : (s.mapBytes n c.mapSize).2 = s)
    (hue : (s.mapBytes n c.mapSize).1.2 = false) :
    execCalMapRead n s = .next (if crc32c (s.mapBytes n c.mapSize).1.1 ≠ c.mapCrc then s.mapFailed n else (s.takeLife n).mapFill n) := by
  rw [execCalMapRead, hcaps]
  dsimp only
  rw [if_neg (by rw [hread, hready, hfail]; decide)]
  rcases hm : s.mapBytes n c.mapSize with ⟨⟨bs, ue⟩, v⟩
  rw [hm] at hsame hue
  dsimp only at hsame hue ⊢
  rw [hsame, hue]
  by_cases hcrc : crc32c bs ≠ c.mapCrc
  · rw [if_pos (.inr hcrc), if_pos hcrc]
  · rw [if_neg (by simpa using hcrc), if_neg hcrc]

theorem does_calMapRead {n : Fin 4} {c : Caps} {s : State} (hcaps : (s.portOf n).caps = some c) (hread : (s.portOf n).mapRead = true)
    (hready : s.isF fTOP_START_STATUS_DRAM_READY = true) (hfail : s.boot.mapFail.getD n false = false) (hsame : (s.mapBytes n c.mapSize).2 = s)
    (hue : (s.mapBytes n c.mapSize).1.2 = false) :
    (crc32c (s.mapBytes n c.mapSize).1.1 = c.mapCrc → Does (.calMapRead n) s (fun t =>
      let r := (s.takeLife n).fillAll n
      (r.1 = true → t.boot.mapOk = r.2.boot.mapOk.set n true ∧ (t.portOf n).mapRead = false ∧ (t.portOf n).selStage = 0)
      ∧ (r.1 = false → t.boot.mapTries = r.2.boot.mapTries.set n (r.2.boot.mapTries.getD n 0 + 1))))
    ∧ (crc32c (s.mapBytes n c.mapSize).1.1 ≠ c.mapCrc → s.boot.mapTries.getD n 0 < 2 → s.boot.mapTries.length = 4 →
      Does (.calMapRead n) s (fun t => t.boot.mapTries.getD n 0 = s.boot.mapTries.getD n 0 + 1 ∧ t.boot.mapOk = s.boot.mapOk
        ∧ (t.portOf n).mapRead = false ∧ t.mem = s.mem)) := by
  have hx : exec (.calMapRead n) s = execCalMapRead n s := rfl
  rw [execCalMapRead_eq hcaps hread hready hfail hsame hue] at hx
  refine ⟨fun hcrc => ?_, fun hcrc htry hlen => ?_⟩
  · rw [if_neg (by simpa using hcrc), State.mapFill] at hx
    refine ⟨_, hx, ?_⟩
    generalize (s.takeLife n).fillAll n = r
    obtain ⟨ok, u⟩ := r
    refine ⟨fun hok => ?_, fun hok => ?_⟩
    · dsimp only at hok ⊢
      rw [hok]
      exact u.mapFilled_effect n
    · dsimp only at hok ⊢
      rw [hok]
      exact u.mapFailed_tries n
  · rw [if_pos hcrc, State.mapFailed_eq, if_pos (by omega)] at hx
    have hcap : ((s.mapCounted n).portOf n).caps = some c := hcaps
    have hstep := (PortOnly.refl n (s.mapCounted n)).startMapRead
    refine ⟨_, hx, ?_, ?_, State.startMapRead_mapRead hcap, hstep.mem⟩
    · rw [hstep.boot]
      exact (congrArg (Option.getD · 0) (List.getElem?_set_self (by omega)))
    · rw [hstep.boot]
      rfl

theorem does_handoverStart {n : Fin 4} {s : State} (hready : s.tileReady n = true) (hnot : s.directTile n = false) (hlen : s.boot.handover.length = 4) :
    Does (.handoverStart n) s (fun t => t.boot.handover.getD n 0 = 1 ∧ t.mem = s.mem) := by
  have hx : exec (.handoverStart n) s = execHandoverStart n s := rfl
  rw [execHandoverStart, if_neg (by rw [hnot]; decide), State.handoverStart, if_pos ⟨hready, hnot⟩] at hx
  have hsend := (PortOnly.refl (n : Nat) s).sendFallback 0
  generalize s.sendFallback n 0 = u at hx hsend
  refine ⟨_, hx, ?_, hsend.mem⟩
  have hb : (u.setHandover n 1).boot.handover = s.boot.handover.set n 1 := by
    rw [← hsend.boot]
    rfl
  rw [hb]
  exact (congrArg (Option.getD · 0) (List.getElem?_set_self (by omega)))

/-- Settles O42: DRAM trained or not, the maps read, and the handover. -/
theorem startDram : Obligations.StartDram := by
  unfold Obligations.StartDram
  refine ⟨fun fail mib s hfw href hpll hnot hst => ?_, fun n c s _ hcaps hread hready hfail hsame hue => does_calMapRead hcaps hread hready hfail hsame hue,
    fun n s hready hnot hlen => does_handoverStart hready hnot hlen⟩
  exact ⟨fun hf => (does_dramTrained_fail hfw href hpll hnot hst hf).1, fun hf => (does_dramTrained_fail hfw href hpll hnot hst hf).2,
    fun hf => (does_dramTrained hfw href hpll hnot hst hf).1, fun hf => (does_dramTrained hfw href hpll hnot hst hf).2⟩

end Sys2Proof.Machine

/-! ## Requests of a power state (R401, R402, R413) -/

namespace Sys2Proof.Machine

/-! ### The fields of PWR_STATUS -/

/-- RESULT and REASON are shown; the rest of PWR_STATUS stays. -/
theorem State.pwrResult_effect (s : State) {r why : Nat} (hr : r < 16) (hw : why < 16) :
    OnlyRegs [rPWR_PWR_STATUS] s (s.pwrResult r why) ∧ (s.pwrResult r why).getF fPWR_PWR_STATUS_RESULT = r
      ∧ (s.pwrResult r why).getF fPWR_PWR_STATUS_REASON = why
      ∧ ∀ f ∈ [fPWR_PWR_STATUS_CURRENT, fPWR_PWR_STATUS_TARGET, fPWR_PWR_STATUS_PENDING, fPWR_PWR_STATUS_PHASE], (s.pwrResult r why).getF f = s.getF f := by
  have hfree : ∀ f ∈ [fPWR_PWR_STATUS_CURRENT, fPWR_PWR_STATUS_TARGET, fPWR_PWR_STATUS_PENDING, fPWR_PWR_STATUS_PHASE],
      (f.lo + f.w ≤ fPWR_PWR_STATUS_REASON.lo ∨ fPWR_PWR_STATUS_REASON.lo + fPWR_PWR_STATUS_REASON.w ≤ f.lo)
        ∧ (f.lo + f.w ≤ fPWR_PWR_STATUS_RESULT.lo ∨ fPWR_PWR_STATUS_RESULT.lo + fPWR_PWR_STATUS_RESULT.w ≤ f.lo) := by decide
  refine ⟨((OnlyRegs.refl _ s).setF (by decide)).setF (by decide), ?_, ?_, fun f hf => ?_⟩
  · rw [State.pwrResult, State.getF_setF_other _ _ _ _ (by decide) (.inr (by decide)), State.getF_setF _ _ _ (by decide)]
    exact Nat.mod_eq_of_lt hr
  · rw [State.pwrResult, State.getF_setF _ _ _ (by decide)]
    exact Nat.mod_eq_of_lt hw
  · obtain ⟨h1, h2⟩ := hfree f hf
    rw [State.pwrResult, State.getF_setF_other _ _ _ _ (by decide) (.inr h1), State.getF_setF_other _ _ _ _ (by decide) (.inr h2)]

/-- What PWR_STATUS says of the state, the target, the pending request and the step. -/
structure PwrAt (cur tgt pend phase : Nat) (s : State) : Prop where
  cur : s.pwrCur = cur
  tgt : s.pwrTarget = tgt
  pend : s.getF fPWR_PWR_STATUS_PENDING = pend
  phase : s.pwrPhase = phase

section
variable {c t q p : Nat} {s u : State}

theorem PwrAt.self (s : State) : PwrAt s.pwrCur s.pwrTarget (s.getF fPWR_PWR_STATUS_PENDING) s.pwrPhase s := ⟨rfl, rfl, rfl, rfl⟩

theorem PwrAt.of_reg (h : PwrAt c t q p s) (hreg : u.reg rPWR_PWR_STATUS = s.reg rPWR_PWR_STATUS) : PwrAt c t q p u :=
  ⟨(State.getF_congr hreg).trans h.cur, (State.getF_congr hreg).trans h.tgt, (State.getF_congr hreg).trans h.pend, (State.getF_congr hreg).trans h.phase⟩

theorem PwrAt.pwrResult (h : PwrAt c t q p s) {r why : Nat} (hr : r < 16) (hw : why < 16) : PwrAt c t q p (s.pwrResult r why) := by
  obtain ⟨-, -, -, hkeep⟩ := s.pwrResult_effect hr hw
  exact ⟨(hkeep _ (by simp)).trans h.cur, (hkeep _ (by simp)).trans h.tgt, (hkeep _ (by simp)).trans h.pend, (hkeep _ (by simp)).trans h.phase⟩

theorem PwrAt.setTarget (h : PwrAt c t q p s) {n : Nat} (hn : n < 16) : PwrAt c n q p (s.setF fPWR_PWR_STATUS_TARGET n) := by
  refine ⟨?_, (State.getF_setF _ _ _ (by decide)).trans (Nat.mod_eq_of_lt hn), ?_, ?_⟩
  · exact (State.getF_setF_other _ _ _ _ (by decide) (.inr (by decide))).trans h.cur
  · exact (State.getF_setF_other _ _ _ _ (by decide) (.inr (by decide))).trans h.pend
  · exact (State.getF_setF_other _ _ _ _ (by decide) (.inr (by decide))).trans h.phase

theorem PwrAt.setPhase (h : PwrAt c t q p s) {n : Nat} (hn : n < 16) : PwrAt c t q n (s.setF fPWR_PWR_STATUS_PHASE n) := by
  refine ⟨?_, ?_, ?_, (State.getF_setF _ _ _ (by decide)).trans (Nat.mod_eq_of_lt hn)⟩
  · exact (State.getF_setF_other _ _ _ _ (by decide) (.inr (by decide))).trans h.cur
  · exact (State.getF_setF_other _ _ _ _ (by decide) (.inr (by decide))).trans h.tgt
  · exact (State.getF_setF_other _ _ _ _ (by decide) (.inr (by decide))).trans h.pend

theorem PwrAt.setCurrent (h : PwrAt c t q p s) {n : Nat} (hn : n < 16) : PwrAt n t q p (s.setF fPWR_PWR_STATUS_CURRENT n) := by
  refine ⟨(State.getF_setF _ _ _ (by decide)).trans (Nat.mod_eq_of_lt hn), ?_, ?_, ?_⟩
  · exact (State.getF_setF_other _ _ _ _ (by decide) (.inr (by decide))).trans h.tgt
  · exact (State.getF_setF_other _ _ _ _ (by decide) (.inr (by decide))).trans h.pend
  · exact (State.getF_setF_other _ _ _ _ (by decide) (.inr (by decide))).trans h.phase

theorem PwrAt.setPending (h : PwrAt c t q p s) {n : Nat} (hn : n < 16) : PwrAt c t n p (s.setF fPWR_PWR_STATUS_PENDING n) := by
  refine ⟨?_, ?_, (State.getF_setF _ _ _ (by decide)).trans (Nat.mod_eq_of_lt hn), ?_⟩
  · exact (State.getF_setF_other _ _ _ _ (by decide) (.inr (by decide))).trans h.cur
  · exact (State.getF_setF_other _ _ _ _ (by decide) (.inr (by decide))).trans h.tgt
  · exact (State.getF_setF_other _ _ _ _ (by decide) (.inr (by decide))).trans h.phase

end

/-! ### A request by its register -/

theorem does_viaReg {c : Instr} {s : State} {off : Nat} {act : State → State} {P : State → Prop} (ht : Takes s off)
    (hoff : off < 0x100000) (hx : exec c s = .next (s.viaReg off act)) (hp : P (act s)) : Does c s P := by
  have hunit : s.absentUnit off = false := by simp [State.absentUnit, Nat.not_le.2 hoff]
  rw [State.viaReg_of_takes ht hunit] at hx
  exact ⟨_, hx, hp⟩

/-- A request in RUN with no transition in progress. -/
theorem State.pwrRequest_begin {s : State} {t m : Nat} {keep : Bool} (hp : s.boot.porst = true) (hst : s.bsState = bsRUNNING ∨ s.bsState = bsFAILED)
    (hcur : s.pwrCur = pwRUN) (ht : t ≤ 4 ∨ t = pwAUTO) (htgt : s.pwrTarget = pwNONE) : s.pwrRequest t m keep = s.pwrBegin t m keep := by
  have hsleep : s.pwrCur ≠ pwSLEEP := by rw [hcur]; decide
  have hgo : ¬(s.boot.porst = false ∨ ¬(t ≤ 4 ∨ t = pwAUTO)) := by
    rintro (h | h)
    · rw [hp] at h; exact absurd h (by decide)
    · exact h ht
  have hload : ¬(s.bsState ≠ bsRUNNING ∧ s.bsState ≠ bsFAILED) := fun h => hst.elim h.1 h.2
  rw [State.pwrRequest, if_neg hgo, if_neg hload, if_neg (not_not.2 htgt), if_neg hsleep]

/-- A request of another state than RUN, in RUN. -/
theorem State.pwrBegin_enter {s : State} {t m : Nat} {keep : Bool} (hcur : s.pwrCur = pwRUN) (ht : t ≠ pwRUN) (ha : t ≠ pwAUTO) :
    s.pwrBegin t m keep = s.pwrEnter t m keep := by
  have hne : ¬t = s.pwrCur := by rw [hcur]; exact ht
  have hidle : ¬(s.pwrCur = pwIDLE ∧ t = pwRUN) := fun h => ht h.2
  have hidle' : ¬s.pwrCur = pwIDLE := by rw [hcur]; decide
  rw [State.pwrBegin, if_neg hne, if_neg hidle, if_neg ha, if_neg hidle']

/-- A request in a transition waits (R405). -/
theorem State.pwrRequest_pend {s : State} {t m : Nat} {keep : Bool} (hp : s.boot.porst = true) (hst : s.bsState = bsRUNNING ∨ s.bsState = bsFAILED)
    (ht : t ≤ 4 ∨ t = pwAUTO) (hrun : t ≠ pwRUN) (htgt : s.pwrTarget ≠ pwNONE) (hpend : s.getF fPWR_PWR_STATUS_PENDING = pwNONE) :
    s.pwrRequest t m keep = (s.updPwr (fun p => { p with pendTiles := m, pendKeep := keep })).setF fPWR_PWR_STATUS_PENDING t := by
  have hgo : ¬(s.boot.porst = false ∨ ¬(t ≤ 4 ∨ t = pwAUTO)) := by
    rintro (h | h)
    · rw [hp] at h; exact absurd h (by decide)
    · exact h ht
  have hload : ¬(s.bsState ≠ bsRUNNING ∧ s.bsState ≠ bsFAILED) := fun h => hst.elim h.1 h.2
  rw [State.pwrRequest, if_neg hgo, if_neg hload, if_pos htgt, if_neg (fun h => hrun h.1), State.pwrPend, if_pos hpend]

theorem does_pwrReqRun_same {m : BitVec 4} {keep : Bool} {s : State} (ht : Takes s rPWR_PWR_REQ) (hp : s.boot.porst = true)
    (hst : s.bsState = bsRUNNING ∨ s.bsState = bsFAILED) (hcur : s.pwrCur = pwRUN) (htgt : s.pwrTarget = pwNONE) :
    Does (.pwrReqRun m keep) s (fun t =>
      t.getF fPWR_PWR_STATUS_RESULT = rsSAME ∧ t.getF fPWR_PWR_STATUS_REASON = 0 ∧ Quiet [rPWR_PWR_STATUS] s t) := by
  refine does_viaReg (act := fun s => s.pwrRequest pwRUN m.toNat keep) ht (by decide) rfl ?_
  rw [State.pwrRequest_begin hp hst hcur (.inl (by decide)) htgt, State.pwrBegin, if_pos hcur.symm]
  obtain ⟨honly, hr, hw, -⟩ := s.pwrResult_effect (r := rsSAME) (why := 0) (by decide) (by decide)
  exact ⟨hr, hw, honly.quiet⟩

/-- The request as it is taken up. -/
def State.pwrTaken (s : State) (m : Nat) (keep : Bool) : State :=
  ({ s with wakeDue := [] } : State).updPwr (fun p => { p with tiles := m, keep := keep, wake := none, ports := [], timer := none })

theorem State.pwrEnter_go {s : State} {t m : Nat} {keep : Bool} (hwhy : s.pwrReason t = 0) :
    s.pwrEnter t m keep = if t = pwIDLE then (s.pwrTaken m keep).setF fPWR_PWR_STATUS_TARGET t
      else (if t = pwOFF ∨ t = pwDEEP ∧ keep = false then ((s.pwrTaken m keep).setF fPWR_PWR_STATUS_TARGET t).deltaWrite
        else (s.pwrTaken m keep).setF fPWR_PWR_STATUS_TARGET t).pwrStep 2 := by
  rw [State.pwrEnter, if_neg (not_not.2 hwhy)]
  rfl

theorem does_pwrReqIdle {m : BitVec 4} {keep : Bool} {s : State} (ht : Takes s rPWR_PWR_REQ) (hp : s.boot.porst = true)
    (hst : s.bsState = bsRUNNING ∨ s.bsState = bsFAILED) (hcur : s.pwrCur = pwRUN) (htgt : s.pwrTarget = pwNONE) (hwhy : s.pwrReason pwIDLE = 0) :
    Does (.pwrReqIdle m keep) s (fun t =>
      t.pwrTarget = pwIDLE ∧ t.pwr.tiles = m.toNat ∧ t.pwr.wake = none ∧ t.wakeDue = [] ∧ Quiet [rPWR_PWR_STATUS] { s with pwr := t.pwr } t) := by
  refine does_viaReg (act := fun s => s.pwrRequest pwIDLE m.toNat keep) ht (by decide) rfl ?_
  rw [State.pwrRequest_begin hp hst hcur (.inl (by decide)) htgt, State.pwrBegin_enter hcur (by decide) (by decide), State.pwrEnter_go hwhy, if_pos rfl]
  have hat := (PwrAt.self (s.pwrTaken m.toNat keep)).setTarget (n := pwIDLE) (by decide)
  have honly := (OnlyRegs.refl [rPWR_PWR_STATUS] (s.pwrTaken m.toNat keep)).setF (f := fPWR_PWR_STATUS_TARGET) (n := pwIDLE) (by decide)
  have hpwr : ((s.pwrTaken m.toNat keep).setF fPWR_PWR_STATUS_TARGET pwIDLE).pwr = (s.pwrTaken m.toNat keep).pwr := State.setReg_pwr _ _ _
  have hdue : ((s.pwrTaken m.toNat keep).setF fPWR_PWR_STATUS_TARGET pwIDLE).wakeDue = [] := State.setReg_wakeDue _ _ _
  have hbase : Quiet [rPWR_PWR_STATUS] { s with pwr := (s.pwrTaken m.toNat keep).pwr } (s.pwrTaken m.toNat keep) := ⟨rfl, fun _ _ _ => rfl⟩
  refine ⟨hat.tgt, ?_, ?_, hdue, ?_⟩
  · rw [hpwr]; rfl
  · rw [hpwr]; rfl
  · rw [hpwr]
    exact hbase.trans honly.quiet

/-! ### SLEEP, DEEP_SLEEP and OFF -/

theorem MemEv.tabsLost {s : State} (l : List (Nat × Nat)) {u : State} (h : MemEv s u) : MemEv s (u.tabsLost l).2 := by
  have hfold : ∀ (l : List (Nat × Nat)) (a : Bool × State), MemEv s a.2 →
      MemEv s (l.foldl (fun (a : Bool × State) q => (a.1 || (a.2.checkRange q.1 q.2).1, (a.2.checkRange q.1 q.2).2)) a).2 := by
    intro l
    induction l with
    | nil => exact fun a ha => ha
    | cons q l ih => exact fun a ha => ih _ (ha.checkRange q.1 q.2)
  exact hfold l (false, u) h

/-- The state of power and what is shown below the links stay. -/
def PwrKept (s t : State) : Prop := t.pwr = s.pwr ∧ ∀ off, off < 0x80000 → t.reg off = s.reg off

theorem State.deltaPut_kept (s : State) : PwrKept s s.deltaPut := by
  have hfold : ∀ (l : List Nat) (v : State), let w := l.foldl (fun s n => s.updHl n (fun h => { h with deltaNs := 0 })) v
      w.pwr = v.pwr ∧ w.regs = v.regs := by
    intro l
    induction l with
    | nil => exact fun v => ⟨rfl, rfl⟩
    | cons n l ih => exact fun v => ⟨(ih _).1.trans rfl, (ih _).2.trans rfl⟩
  obtain ⟨hpwr, hregs⟩ := hfold (List.range 4) s
  unfold State.deltaPut
  extract_lets -merge q body b v
  obtain ⟨hpwr, hregs⟩ := hfold (List.range 4) v
  refine ⟨hpwr, fun off _ => ?_⟩
  exact (congrArg (fun r => tabGet regReset r off) hregs)

theorem State.deltaWrite_kept (s : State) : PwrKept s s.deltaWrite := by
  have hread := (MemEv.refl s).tabsLost ((List.range 4).map (fun n => (s.acctAddr n 0 0, 0x400000)))
  rw [State.deltaWrite]
  generalize s.tabsLost ((List.range 4).map (fun n => (s.acctAddr n 0 0, 0x400000))) = r at hread
  obtain ⟨lost, u⟩ := r
  have hpwr := congrArg State.pwr hread.rest
  have hkept : PwrKept s u := ⟨hpwr, fun off ho => hread.regs off (.inl ho)⟩
  dsimp only
  split
  · exact hkept
  · obtain ⟨h1, h2⟩ := u.deltaPut_kept
    exact ⟨h1.trans hpwr, fun off ho => (h2 off ho).trans (hread.regs off (.inl ho))⟩

/-- The switches of tile n are opened, and a test pulse ends as that demand. -/
def State.openTile (s : State) (n : Nat) : State := ((s.setHs n false).setLs n false).updSafeT n (fun t => { t with test := none })

theorem State.openTile_effect (s : State) (n : Nat) : (s.openTile n).pwr = s.pwr ∧ (s.openTile n).regs = s.regs
    ∧ ∀ k, ((s.openTile n).safeT k).hs = (if k = n then false else (s.safeT k).hs) ∧ ((s.openTile n).safeT k).ls = (if k = n then false else (s.safeT k).ls) := by
  have hget : ∀ (u : State) (F : SafeTile → SafeTile) (m : Nat), (u.updSafeT n F).safeT m = if m = n then F (u.safeT n) else u.safeT m := fun u F m =>
    State.safeT_setSafeT _ _ _ _
  have hpwr : ∀ (u : State) (F : SafeTile → SafeTile), (u.updSafeT n F).pwr = u.pwr := fun _ _ => rfl
  have hregs : ∀ (u : State) (F : SafeTile → SafeTile), (u.updSafeT n F).regs = u.regs := fun _ _ => rfl
  unfold State.openTile State.setLs State.setHs
  refine ⟨(hpwr _ _).trans ((hpwr _ _).trans (hpwr _ _)), (hregs _ _).trans ((hregs _ _).trans (hregs _ _)), fun k => ?_⟩
  by_cases hk : k = n
  · rw [hget, if_pos hk, if_pos hk, if_pos hk, hget, if_pos rfl, hget, if_pos rfl]
    exact ⟨rfl, rfl⟩
  · rw [hget, if_neg hk, if_neg hk, if_neg hk, hget, if_neg hk, hget, if_neg hk]
    exact ⟨rfl, rfl⟩

theorem State.openTiles_effect (l : List Nat) : ∀ u : State, (l.foldl State.openTile u).pwr = u.pwr ∧ (l.foldl State.openTile u).regs = u.regs
      ∧ ∀ k, (k ∈ l ∨ (u.safeT k).hs = false → ((l.foldl State.openTile u).safeT k).hs = false)
        ∧ (k ∈ l ∨ (u.safeT k).ls = false → ((l.foldl State.openTile u).safeT k).ls = false) := by
  induction l with
  | nil => exact fun u => ⟨rfl, rfl, fun k => ⟨fun h => h.resolve_left List.not_mem_nil, fun h => h.resolve_left List.not_mem_nil⟩⟩
  | cons n l ih =>
    intro u
    rw [List.foldl_cons]
    obtain ⟨h1, h2, h3⟩ := u.openTile_effect n
    generalize u.openTile n = v at h1 h2 h3
    obtain ⟨i1, i2, i3⟩ := ih v
    refine ⟨i1.trans h1, i2.trans h2, fun k => ⟨fun h => (i3 k).1 ?_, fun h => (i3 k).2 ?_⟩⟩
    · rw [(h3 k).1]
      by_cases hk : k = n
      · exact .inr (if_pos hk)
      · rw [if_neg hk]
        exact h.imp_left fun hin => (List.mem_cons.1 hin).resolve_left hk
    · rw [(h3 k).2]
      by_cases hk : k = n
      · exact .inr (if_pos hk)
      · rw [if_neg hk]
        exact h.imp_left fun hin => (List.mem_cons.1 hin).resolve_left hk

/-- What the switches were, kept for a veto. -/
def State.switchesKept (s : State) : State :=
  (s.updPwr (fun p => { p with switches := (List.range 4).map (fun n => (s.closedHs n, s.closedLs n)) })).updBoot
    (fun b => { b with swDue := [false, false, false, false] })

theorem State.openSwitches_eq (s : State) : s.openSwitches = (List.range 4).foldl State.openTile s.switchesKept := rfl

theorem State.openSwitches_effect (s : State) : s.openSwitches.regs = s.regs
    ∧ s.openSwitches.pwr = { s.pwr with switches := (List.range 4).map (fun n => (s.closedHs n, s.closedLs n)) }
    ∧ ∀ n, n < 4 → (s.openSwitches.safeT n).hs = false ∧ (s.openSwitches.safeT n).ls = false := by
  rw [State.openSwitches_eq]
  have hpwr : s.switchesKept.pwr = { s.pwr with switches := (List.range 4).map (fun n => (s.closedHs n, s.closedLs n)) } := rfl
  have hregs : s.switchesKept.regs = s.regs := rfl
  generalize s.switchesKept = u at hpwr hregs
  obtain ⟨h1, h2, h3⟩ := State.openTiles_effect (List.range 4) u
  exact ⟨h2.trans hregs, h1.trans hpwr, fun n hn => ⟨(h3 n).1 (.inl (List.mem_range.2 hn)), (h3 n).2 (.inl (List.mem_range.2 hn))⟩⟩

theorem State.pwrStep_two (s : State) : s.pwrStep 2 = (s.setF fPWR_PWR_STATUS_PHASE 2).openSwitches := rfl

theorem State.reg_of_regs {s t : State} (h : t.regs = s.regs) (off : Nat) : t.reg off = s.reg off := by rw [State.reg, State.reg, h]

/-- What an accepted request of a state below IDLE leaves (R402, R403): step 2 has begun, with all switches open. -/
structure Entering (tgt m : Nat) (keep : Bool) (t : State) : Prop where
  tgt : t.pwrTarget = tgt
  phase : t.pwrPhase = 2
  tiles : t.pwr.tiles = m
  keep : t.pwr.keep = keep
  open' : ∀ n, n < 4 → (t.safeT n).hs = false ∧ (t.safeT n).ls = false

theorem State.pwrEnter_entering {s : State} {t m : Nat} {keep : Bool} (hwhy : s.pwrReason t = 0) (hidle : t ≠ pwIDLE) (ht : t < 16) :
    Entering t m keep (s.pwrEnter t m keep) ∧ ∀ off, off < 0x80000 → off ≠ rPWR_PWR_STATUS → (s.pwrEnter t m keep).reg off = s.reg off := by
  rw [State.pwrEnter_go hwhy, if_neg hidle]
  have hat := (PwrAt.self (s.pwrTaken m keep)).setTarget ht
  have hpwr : ((s.pwrTaken m keep).setF fPWR_PWR_STATUS_TARGET t).pwr = (s.pwrTaken m keep).pwr := State.setReg_pwr _ _ _
  have hreg : ∀ off, off ≠ rPWR_PWR_STATUS → ((s.pwrTaken m keep).setF fPWR_PWR_STATUS_TARGET t).reg off = s.reg off := fun off ho => State.reg_setF_ne ho
  generalize (s.pwrTaken m keep).setF fPWR_PWR_STATUS_TARGET t = u at hat hpwr hreg
  have hkept : PwrKept u (if t = pwOFF ∨ t = pwDEEP ∧ keep = false then u.deltaWrite else u) := by
    split
    · exact u.deltaWrite_kept
    · exact ⟨rfl, fun _ _ => rfl⟩
  generalize (if t = pwOFF ∨ t = pwDEEP ∧ keep = false then u.deltaWrite else u) = v at hkept
  have hat2 := (hat.of_reg (hkept.2 _ (by decide))).setPhase (n := 2) (by decide)
  have hpwr2 : (v.setF fPWR_PWR_STATUS_PHASE 2).pwr = v.pwr := State.setReg_pwr _ _ _
  have hreg2 : ∀ off, off ≠ rPWR_PWR_STATUS → (v.setF fPWR_PWR_STATUS_PHASE 2).reg off = v.reg off := fun off ho => State.reg_setF_ne ho
  rw [State.pwrStep_two]
  generalize v.setF fPWR_PWR_STATUS_PHASE 2 = w at hat2 hpwr2 hreg2
  obtain ⟨hregs, hsw, hopen⟩ := w.openSwitches_effect
  have hat3 := hat2.of_reg (State.reg_of_regs hregs _)
  refine ⟨⟨hat3.tgt, hat3.phase, ?_, ?_, hopen⟩, fun off h1 h2 => ?_⟩
  · rw [hsw, hpwr2, hkept.1, hpwr]
    rfl
  · rw [hsw, hpwr2, hkept.1, hpwr]
    rfl
  · rw [State.reg_of_regs hregs, hreg2 off h2, hkept.2 off h1, hreg off h2]

/-- The requests of a state below IDLE, by their commands. -/
theorem exec_deepRequest {p : (BitVec 4 → Bool → Instr) × Nat} (h : p ∈ ([(.pwrReqSleep, pwSLEEP), (.pwrReqDeepSleep, pwDEEP), (.pwrReqOff, pwOFF)] : List ((BitVec 4 → Bool → Instr) × Nat)))
    (m : BitVec 4) (keep : Bool) (s : State) :
    exec (p.1 m keep) s = .next (s.viaReg rPWR_PWR_REQ (fun s => s.pwrRequest p.2 m.toNat keep)) ∧ p.2 ≤ 4 ∧ p.2 ≠ pwRUN ∧ p.2 ≠ pwIDLE ∧ p.2 ≠ pwAUTO := by
  simp only [List.mem_cons, List.not_mem_nil, or_false] at h
  obtain rfl | rfl | rfl := h
  · exact ⟨rfl, by decide⟩
  · exact ⟨rfl, by decide⟩
  · exact ⟨rfl, by decide⟩

theorem State.pwrReason_lt (s : State) (t : Nat) : s.pwrReason t < 16 := by
  unfold State.pwrReason
  split
  · split <;> decide
  · split
    · decide
    · split
      · decide
      · split
        · decide
        · split <;> decide

/-- A refusal (R402): its reason is shown, and the device stays where it is. -/
theorem State.pwrEnter_refused {s : State} {t m c tgt q p : Nat} {keep : Bool} (hwhy : s.pwrReason t ≠ 0) (hat : PwrAt c tgt q p s) :
    PwrAt c tgt q p (s.pwrEnter t m keep) ∧ (s.pwrEnter t m keep).getF fPWR_PWR_STATUS_RESULT = rsREFUSED
      ∧ (s.pwrEnter t m keep).getF fPWR_PWR_STATUS_REASON = s.pwrReason t ∧ (s.pwrEnter t m keep).isF fPWR_PWR_FLAGS_REFUSED = true
      ∧ Quiet [rPWR_PWR_STATUS, rPWR_PWR_FLAGS, rPWR_REFUSED_COUNT] s (s.pwrEnter t m keep) := by
  rw [State.pwrEnter, if_pos hwhy]
  obtain ⟨honly, hr, hw, -⟩ := s.pwrResult_effect (r := rsREFUSED) (by decide) (s.pwrReason_lt t)
  have hat2 := hat.pwrResult (r := rsREFUSED) (by decide) (s.pwrReason_lt t)
  generalize s.pwrResult rsREFUSED (s.pwrReason t) = u at honly hr hw hat2 ⊢
  have hraise := (OnlyRegs.refl [rPWR_PWR_FLAGS, rPWR_REFUSED_COUNT] u).raise (f := fPWR_PWR_FLAGS_REFUSED) (c := rPWR_REFUSED_COUNT) (by decide) (by decide)
  have hflag : (u.raise fPWR_PWR_FLAGS_REFUSED rPWR_REFUSED_COUNT).isF fPWR_PWR_FLAGS_REFUSED = true := by
    rw [State.isF, State.getF_raise _ (by decide) (by decide)]
    rfl
  generalize u.raise fPWR_PWR_FLAGS_REFUSED rPWR_REFUSED_COUNT = v at hraise hflag ⊢
  have hpost := (Quiet.refl [] v).post (k := evPOWER_PWR_REFUSED) (c := srcPWR) (d := 16 * s.pwrReason t + t) (by decide)
  generalize v.post evPOWER_PWR_REFUSED srcPWR (16 * s.pwrReason t + t) = w at hpost ⊢
  have hreg : w.reg rPWR_PWR_STATUS = u.reg rPWR_PWR_STATUS := (hpost.regs _ (by simp) (by decide)).trans (hraise.regs _ (by decide))
  refine ⟨hat2.of_reg hreg, (State.getF_congr hreg).trans hr, (State.getF_congr hreg).trans hw,
    (State.isF_congr (hpost.regs _ (by simp) (by decide))).trans hflag, ?_⟩
  exact ((honly.quiet.mono (by simp)).trans (hraise.quiet.mono (by simp))).trans (hpost.mono (by simp))

theorem does_deepRequest {p : (BitVec 4 → Bool → Instr) × Nat} (h : p ∈ ([(.pwrReqSleep, pwSLEEP), (.pwrReqDeepSleep, pwDEEP), (.pwrReqOff, pwOFF)] : List ((BitVec 4 → Bool → Instr) × Nat)))
    {m : BitVec 4} {keep : Bool} {s : State} (ht : Takes s rPWR_PWR_REQ) (hp : s.boot.porst = true) (hst : s.bsState = bsRUNNING ∨ s.bsState = bsFAILED)
    (hcur : s.pwrCur = pwRUN) :
    (s.pwrTarget = pwNONE → s.pwrReason p.2 = 0 → Does (p.1 m keep) s (fun t =>
        t.pwrTarget = p.2 ∧ t.pwrPhase = 2 ∧ t.pwr.tiles = m.toNat ∧ t.pwr.keep = keep
        ∧ ∀ n, n < 4 → (t.safeT n).hs = false ∧ (t.safeT n).ls = false))
      ∧ (s.pwrTarget = pwNONE → s.pwrReason p.2 ≠ 0 → Does (p.1 m keep) s (fun t => t.pwrTarget = pwNONE ∧ t.pwrCur = pwRUN
        ∧ t.getF fPWR_PWR_STATUS_RESULT = rsREFUSED ∧ t.getF fPWR_PWR_STATUS_REASON = s.pwrReason p.2
        ∧ t.isF fPWR_PWR_FLAGS_REFUSED = true ∧ Quiet [rPWR_PWR_STATUS, rPWR_PWR_FLAGS, rPWR_REFUSED_COUNT] s t))
      ∧ (s.pwrTarget ≠ pwNONE → s.getF fPWR_PWR_STATUS_PENDING = pwNONE → Does (p.1 m keep) s (fun t =>
        t.getF fPWR_PWR_STATUS_PENDING = p.2 ∧ t.pwr = { s.pwr with pendTiles := m.toNat, pendKeep := keep }
        ∧ t.pwrTarget = s.pwrTarget ∧ Quiet [rPWR_PWR_STATUS] { s with pwr := t.pwr } t)) := by
  obtain ⟨hx, hle, hrun, hidle, hauto⟩ := exec_deepRequest h m keep s
  have hlt : p.2 < 16 := by omega
  refine ⟨fun htgt hwhy => ?_, fun htgt hwhy => ?_, fun htgt hpend => ?_⟩
  · refine does_viaReg ht (by decide) hx ?_
    rw [State.pwrRequest_begin hp hst hcur (.inl hle) htgt, State.pwrBegin_enter hcur hrun hauto]
    have hent := (State.pwrEnter_entering (m := m.toNat) (keep := keep) hwhy hidle hlt).1
    exact ⟨hent.tgt, hent.phase, hent.tiles, hent.keep, hent.open'⟩
  · refine does_viaReg ht (by decide) hx ?_
    rw [State.pwrRequest_begin hp hst hcur (.inl hle) htgt, State.pwrBegin_enter hcur hrun hauto]
    obtain ⟨hat, hr, hw, hflag, hq⟩ := State.pwrEnter_refused (m := m.toNat) (keep := keep) hwhy (PwrAt.self s)
    exact ⟨hat.tgt.trans htgt, hat.cur.trans hcur, hr, hw, hflag, hq⟩
  · refine does_viaReg ht (by decide) hx ?_
    rw [State.pwrRequest_pend hp hst (.inl hle) hrun htgt hpend]
    have hat0 : PwrAt s.pwrCur s.pwrTarget (s.getF fPWR_PWR_STATUS_PENDING) s.pwrPhase (s.updPwr (fun q => { q with pendTiles := m.toNat, pendKeep := keep })) :=
      (PwrAt.self s).of_reg (State.updPwr_reg _ _ _)
    have hat := hat0.setPending hlt
    have honly := (OnlyRegs.refl [rPWR_PWR_STATUS] (s.updPwr (fun q => { q with pendTiles := m.toNat, pendKeep := keep }))).setF
      (f := fPWR_PWR_STATUS_PENDING) (n := p.2) (by decide)
    have hpwr : ((s.updPwr (fun q => { q with pendTiles := m.toNat, pendKeep := keep })).setF fPWR_PWR_STATUS_PENDING p.2).pwr
        = { s.pwr with pendTiles := m.toNat, pendKeep := keep } := State.setReg_pwr _ _ _
    exact ⟨hat.pend, hpwr, hat.tgt, by rw [hpwr]; exact honly.quiet⟩

/-! ### AUTO -/

theorem State.regN_congr {s t : State} {off : Nat} (h : t.reg off = s.reg off) : t.regN off = s.regN off := congrArg BitVec.toNat h

theorem State.actAway_congr {l : List Nat} {s u : State} (q : Quiet l s u) {n : Nat} (hcfg : rSAFETY_ACT_CFG n ∉ l ∧ rSAFETY_ACT_CFG n ∉ evRegs)
    (htgt : rSAFETY_ACT_TARGET n ∉ l ∧ rSAFETY_ACT_TARGET n ∉ evRegs) : u.actAway n = s.actAway n := by
  have hact : u.actOf n = s.actOf n := by
    unfold State.actOf
    rw [q.rest]
  unfold State.actAway
  rw [hact, State.isF_congr (f := fSAFETY_ACT_CFG_EN n) (q.regs _ hcfg.1 hcfg.2), State.regN, q.regs _ htgt.1 htgt.2, State.regN]

/-- The reasons against a state below IDLE are none of those registers. -/
theorem State.pwrReason_congr {s u : State} (q : Quiet [rPWR_NEXT_EVENT, rPWR_AUTO_CHOICE] s u) {t : Nat} (ht : t ≠ pwIDLE) : u.pwrReason t = s.pwrReason t := by
  have htg : u.tgsOn = s.tgsOn := by
    refine State.tgsOn_congr (by rw [q.rest]) fun n hn => State.getF_congr ?_
    obtain ⟨h1, h2⟩ := (by decide : ∀ n < 4, rTG_STATUS n ∉ [rPWR_NEXT_EVENT, rPWR_AUTO_CHOICE] ∧ rTG_STATUS n ∉ evRegs) n hn
    exact q.regs _ h1 h2
  have hport : ∀ n, u.portOf n = s.portOf n := fun n => by
    unfold State.portOf
    rw [q.rest]
  have hact : [0, 1].any u.actAway = [0, 1].any s.actAway := by
    rw [List.any_cons, List.any_cons, List.any_nil, State.actAway_congr q (by decide) (by decide), State.actAway_congr q (by decide) (by decide),
      List.any_cons, List.any_cons, List.any_nil]
  have hfaults : u.faults = s.faults := by
    unfold State.faults
    rw [State.regN_congr (q.regs rSAFETY_FAULT_SC (by decide) (by decide)), State.regN_congr (q.regs rSAFETY_FAULT_TT (by decide) (by decide))]
  unfold State.pwrReason
  simp only [if_neg ht, htg, hport, hact, hfaults]

/-- What AUTO shows of its choice (R413). -/
def State.autoShown (s : State) (t us ms : Nat) : State :=
  ((s.setRegN rPWR_NEXT_EVENT us).setRegN rPWR_AUTO_CHOICE t).post evPOWER_AUTO_CHOSEN srcPWR (16 * ms + t)

theorem State.autoShown_effect (s : State) (t us ms : Nat) (ht : t < 2 ^ 32) (hus : us < 2 ^ 32) :
    Quiet [rPWR_NEXT_EVENT, rPWR_AUTO_CHOICE] s (s.autoShown t us ms) ∧ (s.autoShown t us ms).regN rPWR_AUTO_CHOICE = t
      ∧ (s.autoShown t us ms).regN rPWR_NEXT_EVENT = us := by
  have hset := ((Quiet.refl [rPWR_NEXT_EVENT, rPWR_AUTO_CHOICE] s).setRegN (o := rPWR_NEXT_EVENT) (v := us) (by decide)).setRegN
    (o := rPWR_AUTO_CHOICE) (v := t) (by decide)
  have hchoice : ((s.setRegN rPWR_NEXT_EVENT us).setRegN rPWR_AUTO_CHOICE t).regN rPWR_AUTO_CHOICE = t := by
    rw [State.regN, State.reg_setRegN, if_pos rfl, BitVec.toNat_ofNat, Nat.mod_eq_of_lt ht]
  have hnext : ((s.setRegN rPWR_NEXT_EVENT us).setRegN rPWR_AUTO_CHOICE t).regN rPWR_NEXT_EVENT = us := by
    rw [State.regN, State.reg_setRegN, if_neg (by decide), State.reg_setRegN, if_pos rfl, BitVec.toNat_ofNat, Nat.mod_eq_of_lt hus]
  rw [State.autoShown]
  generalize (s.setRegN rPWR_NEXT_EVENT us).setRegN rPWR_AUTO_CHOICE t = u at hset hchoice hnext
  have hpost := (Quiet.refl [] u).post (k := evPOWER_AUTO_CHOSEN) (c := srcPWR) (d := 16 * ms + t) (by decide)
  have hreg : ∀ off, off ∉ evRegs → (u.post evPOWER_AUTO_CHOSEN srcPWR (16 * ms + t)).regN off = u.regN off := fun off ho =>
    congrArg BitVec.toNat (hpost.regs off (by simp) ho)
  exact ⟨hset.trans (hpost.mono (by simp)), (hreg _ (by decide)).trans hchoice, (hreg _ (by decide)).trans hnext⟩

/-- The deepest state that fits (R413). -/
def State.autoChoice (s : State) (tiles : Nat) : Nat := ([pwDEEP, pwSLEEP, pwIDLE].find? (fun t => s.autoFits t tiles s.nextKnown)).getD pwRUN

theorem State.pwrRequest_auto {s : State} {m : Nat} {keep : Bool} (hp : s.boot.porst = true) (hst : s.bsState = bsRUNNING ∨ s.bsState = bsFAILED)
    (hcur : s.pwrCur = pwRUN) (htgt : s.pwrTarget = pwNONE) : s.pwrRequest pwAUTO m keep = s.pwrAuto m := by
  have hne : ¬pwAUTO = s.pwrCur := by rw [hcur]; decide
  have hidle' : ¬s.pwrCur = pwIDLE := by rw [hcur]; decide
  rw [State.pwrRequest_begin hp hst hcur (.inr rfl) htgt, State.pwrBegin, if_neg hne, if_neg (fun h => hidle' h.1), if_pos rfl, if_neg hidle']

theorem does_pwrReqAuto_deep {m : BitVec 4} {keep : Bool} {s : State} (ht : Takes s rPWR_PWR_REQ) (hp : s.boot.porst = true)
    (hst : s.bsState = bsRUNNING ∨ s.bsState = bsFAILED) (hcur : s.pwrCur = pwRUN) (htgt : s.pwrTarget = pwNONE) (hnext : s.nextKnown = none)
    (hwhy : s.pwrReason pwDEEP = 0) (hauto : s.isF fPWR_PWR_CFG_AUTO_DEEP = true) :
    Does (.pwrReqAuto m keep) s (fun t => t.pwrTarget = pwDEEP ∧ t.pwrPhase = 2 ∧ t.regN rPWR_AUTO_CHOICE = pwDEEP
      ∧ t.regN rPWR_NEXT_EVENT = 0xFFFFFFFF ∧ t.pwr.keep = true) := by
  refine does_viaReg (act := fun s => s.pwrRequest pwAUTO m.toNat keep) ht (by decide) rfl ?_
  have hchoice : s.autoChoice m.toNat = pwDEEP := by
    have hfits : s.autoFits pwDEEP m.toNat s.nextKnown = true := by
      unfold State.autoFits
      rw [hwhy, hauto, hnext]
      rfl
    rw [State.autoChoice, List.find?_cons_of_pos (p := fun t => s.autoFits t m.toNat s.nextKnown) hfits, Option.getD_some]
  have heq : s.pwrAuto m.toNat = (s.autoShown pwDEEP 0xFFFFFFFF 0xFFFFFFF).pwrEnter pwDEEP m.toNat true := by
    rw [State.autoChoice] at hchoice
    rw [State.pwrAuto, hchoice, hnext, if_neg (by decide)]
    rfl
  rw [State.pwrRequest_auto hp hst hcur htgt, heq]
  obtain ⟨hq, hc, hn⟩ := s.autoShown_effect pwDEEP 0xFFFFFFFF 0xFFFFFFF (by decide) (by decide)
  generalize s.autoShown pwDEEP 0xFFFFFFFF 0xFFFFFFF = u at hq hc hn
  obtain ⟨hent, hreg⟩ := State.pwrEnter_entering (s := u) (t := pwDEEP) (m := m.toNat) (keep := true)
    ((State.pwrReason_congr hq (by decide)).trans hwhy) (by decide) (by decide)
  have hregN : ∀ off, off < 0x80000 → off ≠ rPWR_PWR_STATUS → (u.pwrEnter pwDEEP m.toNat true).regN off = u.regN off := fun off h1 h2 =>
    congrArg BitVec.toNat (hreg off h1 h2)
  exact ⟨hent.tgt, hent.phase, (hregN _ (by decide) (by decide)).trans hc, (hregN _ (by decide) (by decide)).trans hn, hent.keep⟩

theorem satAt_lt (k n : Nat) (hk : k < 2 ^ 32) : satAt k n < 2 ^ 32 := by
  unfold satAt
  omega

theorem does_pwrReqAuto_none {m : BitVec 4} {keep : Bool} {s : State} (ht : Takes s rPWR_PWR_REQ) (hp : s.boot.porst = true)
    (hst : s.bsState = bsRUNNING ∨ s.bsState = bsFAILED) (hcur : s.pwrCur = pwRUN) (htgt : s.pwrTarget = pwNONE)
    (hfits : ∀ x ∈ [pwDEEP, pwSLEEP, pwIDLE], s.autoFits x m.toNat s.nextKnown = false) :
    Does (.pwrReqAuto m keep) s (fun t => t.pwrTarget = pwNONE ∧ t.regN rPWR_AUTO_CHOICE = pwRUN
        ∧ t.getF fPWR_PWR_STATUS_RESULT = rsSAME ∧ Quiet [rPWR_PWR_STATUS, rPWR_AUTO_CHOICE, rPWR_NEXT_EVENT] s t) := by
  refine does_viaReg (act := fun s => s.pwrRequest pwAUTO m.toNat keep) ht (by decide) rfl ?_
  have hchoice : s.autoChoice m.toNat = pwRUN := by
    have hnone : [pwDEEP, pwSLEEP, pwIDLE].find? (fun t => s.autoFits t m.toNat s.nextKnown) = none :=
      List.find?_eq_none.2 fun x hx => by rw [hfits x hx]; decide
    rw [State.autoChoice, hnone, Option.getD_none]
  have heq : ∃ us ms, us < 2 ^ 32 ∧ s.pwrAuto m.toNat = (s.autoShown pwRUN us ms).pwrResult rsSAME 0 := by
    rw [State.autoChoice] at hchoice
    rw [State.pwrAuto, hchoice, if_pos rfl]
    cases s.nextKnown with
    | none => exact ⟨_, _, by decide, rfl⟩
    | some n => exact ⟨_, _, satAt_lt _ _ (by decide), rfl⟩
  obtain ⟨us, ms, hus, heq⟩ := heq
  rw [State.pwrRequest_auto hp hst hcur htgt, heq]
  obtain ⟨hq, hc, -⟩ := s.autoShown_effect pwRUN us ms (by decide) hus
  generalize s.autoShown pwRUN us ms = u at hq hc
  obtain ⟨honly, hr, -, -⟩ := u.pwrResult_effect (r := rsSAME) (why := 0) (by decide) (by decide)
  have hat := ((PwrAt.self s).of_reg (hq.regs _ (by decide) (by decide))).pwrResult (r := rsSAME) (why := 0) (by decide) (by decide)
  generalize u.pwrResult rsSAME 0 = v at honly hr hat
  exact ⟨hat.tgt.trans htgt, (State.regN_congr (honly.regs _ (by decide))).trans hc, hr, (hq.mono (by simp)).trans (honly.quiet.mono (by simp))⟩

theorem does_pwrReqRun_sleep {m : BitVec 4} {keep : Bool} {s : State} (ht : Takes s rPWR_PWR_REQ) (hp : s.boot.porst = true)
    (hst : s.bsState = bsRUNNING ∨ s.bsState = bsFAILED) (htgt : s.pwrTarget = pwSLEEP) :
    Does (.pwrReqRun m keep) s (fun t => t.pwr = { s.pwr with wake := some (s.pwr.wake.getD 4) } ∧ t = { s with pwr := t.pwr }) := by
  refine does_viaReg (act := fun s => s.pwrRequest pwRUN m.toNat keep) ht (by decide) rfl ?_
  have hgo : ¬(s.boot.porst = false ∨ ¬(pwRUN ≤ 4 ∨ pwRUN = pwAUTO)) := by
    rw [hp]
    decide
  have hload : ¬(s.bsState ≠ bsRUNNING ∧ s.bsState ≠ bsFAILED) := fun h => hst.elim h.1 h.2
  have hwake : s.wakeEvent 4 = s.updPwr (fun p => { p with wake := some (p.wake.getD 4) }) := by
    rw [State.wakeEvent, htgt, if_pos (by decide), if_pos (by decide)]
  rw [State.pwrRequest, if_neg hgo, if_neg hload, if_pos (by rw [htgt]; decide), if_pos (by rw [htgt]; decide), hwake]
  exact ⟨rfl, rfl⟩

/-- Settles O43: requests taken up, refused, made to wait, and AUTO's choice. -/
theorem powerRequests : Obligations.PowerRequests := by
  unfold Obligations.PowerRequests
  intro m keep s ht hp hst hcur
  exact ⟨fun htgt => does_pwrReqRun_same ht hp hst hcur htgt, fun htgt hwhy => does_pwrReqIdle ht hp hst hcur htgt hwhy,
    fun p hin => does_deepRequest hin ht hp hst hcur, fun htgt hnext hwhy hauto => does_pwrReqAuto_deep ht hp hst hcur htgt hnext hwhy hauto,
    fun htgt hfits => does_pwrReqAuto_none ht hp hst hcur htgt hfits, fun htgt => does_pwrReqRun_sleep ht hp hst htgt⟩

end Sys2Proof.Machine

/-! ## The steps of a power-state entry (R403, R404) -/

namespace Sys2Proof.Machine

/-! ### Rules -/

theorem State.pwrTake_none {s : State} (h : s.getF fPWR_PWR_STATUS_PENDING = pwNONE) : s.pwrTake = s := by
  rw [State.pwrTake, if_pos (.inl h)]

theorem State.wakeStep_none {s : State} (h : s.wakeDue = []) : s.wakeStep = s := by
  have hsame : ({ s with wakeDue := [] } : State) = s := by rw [← h]
  rw [State.wakeStep, h, List.foldl_nil, hsame]

theorem State.pwrPhase_step {s : State} (k : Nat) (hk : k < 16) {c t q p : Nat} (h : PwrAt c t q p s) :
    PwrAt c t q k (s.setF fPWR_PWR_STATUS_PHASE k) ∧ OnlyRegs [rPWR_PWR_STATUS] s (s.setF fPWR_PWR_STATUS_PHASE k) :=
  ⟨h.setPhase hk, (OnlyRegs.refl _ s).setF (by simp)⟩

theorem OnlyRegs.wakeDue {l : List Nat} {s u : State} (h : OnlyRegs l s u) : u.wakeDue = s.wakeDue := by rw [h.rest]
theorem OnlyRegs.pwr {l : List Nat} {s u : State} (h : OnlyRegs l s u) : u.pwr = s.pwr := by rw [h.rest]
theorem OnlyRegs.safe {l : List Nat} {s u : State} (h : OnlyRegs l s u) : u.safe = s.safe := by rw [h.rest]
theorem Quiet.pwr {l : List Nat} {s u : State} (h : Quiet l s u) : u.pwr = s.pwr := by rw [h.rest]
theorem Quiet.safe {l : List Nat} {s u : State} (h : Quiet l s u) : u.safe = s.safe := by rw [h.rest]

theorem State.pwrAdvance_two {s : State} (h : s.pwrPhase = 2) : s.pwrAdvance = s.pwrStep 3 := by simp only [State.pwrAdvance, h]
theorem State.pwrAdvance_four {s : State} (h : s.pwrPhase = 4) : s.pwrAdvance = s.abortPoint 5 := by simp only [State.pwrAdvance, h]
theorem State.pwrAdvance_five {s : State} (h : s.pwrPhase = 5) : s.pwrAdvance = if s.pwrTarget = pwSLEEP then s.sleepEnter else s.abortPoint (if s.pwrTarget = pwDEEP then 6 else 7) := by
  simp only [State.pwrAdvance, h]
theorem State.pwrAdvance_seven {s : State} (h : s.pwrPhase = 7) : s.pwrAdvance = if s.pwrTarget = pwDEEP then s.deepEnter else s.offEnter := by
  simp only [State.pwrAdvance, h]

theorem State.pwrStep_three (s : State) : s.pwrStep 3 = (s.setF fPWR_PWR_STATUS_PHASE 3).updSafe (fun x => { x with consent := some (s.setF fPWR_PWR_STATUS_PHASE 3).time.now }) := rfl
theorem State.pwrStep_four (s : State) : s.pwrStep 4 = (s.setF fPWR_PWR_STATUS_PHASE 4).pwrPorts := by
  unfold State.pwrStep
  generalize s.setF fPWR_PWR_STATUS_PHASE 4 = u
  split
  case h_3 => rfl
  case h_6 hne _ _ => exact absurd rfl hne
  all_goals omega

theorem State.pwrStep_five (s : State) : s.pwrStep 5 = (s.setF fPWR_PWR_STATUS_PHASE 5).pwrDram := by
  unfold State.pwrStep
  generalize s.setF fPWR_PWR_STATUS_PHASE 5 = u
  split
  case h_4 => rfl
  case h_6 hne _ => exact absurd rfl hne
  all_goals omega

/-- A quiet change, seen with other safety channels. -/
theorem Quiet.withSafe {l : List Nat} {s u : State} (q : Quiet l s u) (x : Safe) : Quiet l { s with safe := x } { u with safe := x } :=
  ⟨by rw [q.rest], q.regs⟩

theorem Quiet.of_eq {l : List Nat} {s u v : State} {x : Safe} (q : Quiet l { s with safe := x } u) (h : v = u) (hx : v.safe = x) : Quiet l { s with safe := v.safe } v := by
  rw [hx, h]
  exact q

/-! ### Steps 2 and 3 -/

theorem does_entryStep2 {s : State} (hph : s.pwrPhase = 2) (hpend : s.getF fPWR_PWR_STATUS_PENDING = pwNONE) :
    Does .entryStepDone s (fun t => t.pwrPhase = 3 ∧ t.safe.consent = some s.time.now ∧ t.pwrTarget = s.pwrTarget
      ∧ Quiet [rPWR_PWR_STATUS] { s with safe := t.safe } t) := by
  have hx : exec .entryStepDone s = .next s.pwrAdvance.pwrTake := rfl
  rw [State.pwrAdvance_two hph, State.pwrStep_three] at hx
  obtain ⟨hat, honly⟩ := State.pwrPhase_step 3 (by decide) (PwrAt.self s)
  generalize s.setF fPWR_PWR_STATUS_PHASE 3 = u at hx hat honly
  have hat2 := hat.of_reg (u.updSafe_reg (fun x => { x with consent := some u.time.now }) rPWR_PWR_STATUS)
  rw [State.pwrTake_none (hat2.pend.trans hpend)] at hx
  refine ⟨_, hx, hat2.phase, ?_, hat2.tgt, ?_⟩
  · exact congrArg some (congrArg TimeU.now honly.time_eq)
  · generalize some u.time.now = x
    exact (honly.quiet.withSafe { s.safe with consent := x }).of_eq (by rw [State.updSafe, honly.safe]) (by rw [State.updSafe, honly.safe])

/-! ### Consent given -/

/-- Step 4 with no port up, no update and no check-unit job. -/
theorem State.pwrPorts_none {s : State} (h : ∀ n, n < 4 → s.zState n = zOFF ∧ s.crcJob n = none) (hupd : s.updState = 0) :
    s.pwrPorts = s.updPwr (fun p => { p with ports := [] }) := by
  have hon : (List.range 4).filter (fun n => s.zState n ≠ zOFF) = [] := by
    rw [List.filter_eq_nil_iff]
    intro n hn
    simp [(h n (List.mem_range.1 hn)).1]
  have hcancel : (s.updPwr (fun p => { p with ports := [] })).updCancel 1 = s.updPwr (fun p => { p with ports := [] }) := by
    have hst : (s.updPwr (fun p => { p with ports := [] })).updState = 0 := (State.updPwr_getF _ _ _).trans hupd
    rw [State.updCancel]
    simp [hst, upINSTALLING, upARMED]
  have hjob : ∀ n, n < 4 → (s.updPwr (fun p => { p with ports := [] })).crcAbortOp n = s.updPwr (fun p => { p with ports := [] }) := by
    intro n hn
    have hnone : (s.updPwr (fun p => { p with ports := [] })).crcJob n = none := (h n hn).2
    rw [State.crcAbortOp, State.crcToLine, hnone]
  rw [State.pwrPorts, hon, List.foldl_nil, hcancel, show List.range 4 = [0, 1, 2, 3] from rfl]
  simp only [List.foldl_cons, List.foldl_nil, hjob 0 (by decide), hjob 1 (by decide), hjob 2 (by decide), hjob 3 (by decide)]

theorem does_scConsent_grant {s : State} (hph : s.pwrPhase = 3) (hask : s.safe.consent ≠ none) (hgrant : s.powerGrant = true) (hwake : s.pwr.wake = none)
    (hdue : s.wakeDue = []) (hpend : s.getF fPWR_PWR_STATUS_PENDING = pwNONE) (hoff : ∀ n, n < 4 → s.zState n = zOFF ∧ s.crcJob n = none)
    (hupd : s.updState = 0) :
    Does .scConsent s (fun t => t.pwrPhase = 4 ∧ t.safe.consent = none ∧ t.pwr.ports = [] ∧ t.pwrTarget = s.pwrTarget ∧ t.mem = s.mem) := by
  have hx : exec .scConsent s = execScConsent s := rfl
  rw [execScConsent, if_neg (by simpa [hph] using hask), if_pos hgrant] at hx
  have hat := (PwrAt.self s).of_reg (s.updSafe_reg (fun x => { x with consent := none }) rPWR_PWR_STATUS)
  have hfacts : (s.updSafe (fun x => { x with consent := none })).safe.consent = none ∧ (s.updSafe (fun x => { x with consent := none })).mem = s.mem
      ∧ (s.updSafe (fun x => { x with consent := none })).wakeDue = [] ∧ (s.updSafe (fun x => { x with consent := none })).pwr.wake = none := ⟨rfl, rfl, hdue, hwake⟩
  have hoff' : ∀ n, n < 4 → (s.updSafe (fun x => { x with consent := none })).zState n = zOFF ∧ (s.updSafe (fun x => { x with consent := none })).crcJob n = none :=
    fun n hn => ⟨(State.getF_congr (State.updSafe_reg _ _ _)).trans (hoff n hn).1, (hoff n hn).2⟩
  have hupd' : (s.updSafe (fun x => { x with consent := none })).updState = 0 := (State.getF_congr (State.updSafe_reg _ _ _)).trans hupd
  generalize s.updSafe (fun x => { x with consent := none }) = u at hx hat hfacts hoff' hupd'
  obtain ⟨hc, hm, hd, hw⟩ := hfacts
  rw [State.abortPoint, State.wakeStep_none hd, if_neg (by rw [hw]; decide), State.pwrStep_four] at hx
  obtain ⟨hat2, honly⟩ := State.pwrPhase_step 4 (by decide) hat
  generalize u.setF fPWR_PWR_STATUS_PHASE 4 = v at hx hat2 honly
  have hv : ∀ n, n < 4 → v.zState n = zOFF ∧ v.crcJob n = none := by
    intro n hn
    have hfree : ∀ n < 4, rZTL_STATUS n ∉ [rPWR_PWR_STATUS] := by decide
    refine ⟨(State.getF_congr (honly.regs _ (hfree n hn))).trans (hoff' n hn).1, ?_⟩
    unfold State.crcJob
    rw [honly.rest]
    exact (hoff' n hn).2
  rw [State.pwrPorts_none hv ((State.getF_congr (honly.regs _ (by decide))).trans hupd')] at hx
  have hat3 := hat2.of_reg (v.updPwr_reg (fun p => { p with ports := [] }) _)
  rw [State.pwrTake_none (hat3.pend.trans hpend)] at hx
  refine ⟨_, hx, hat3.phase, ?_, rfl, hat3.tgt, honly.mem_eq.trans hm⟩
  exact (congrArg Safe.consent honly.safe).trans hc

/-! ### An entry that ends in RUN -/

/-- What the end of an entry in RUN leaves of the power state. -/
structure BackInRun (r : Nat) (s t : State) : Prop where
  cur : t.pwrCur = pwRUN
  tgt : t.pwrTarget = pwNONE
  pend : t.getF fPWR_PWR_STATUS_PENDING = s.getF fPWR_PWR_STATUS_PENDING
  phase : t.pwrPhase = 0
  result : t.getF fPWR_PWR_STATUS_RESULT = r
  wake : t.pwr.wake = none
  mem : t.mem = s.mem
  safe : t.safe = s.safe

theorem State.pwrSettle_run (s : State) : OnlyRegs [rPWR_PWR_STATUS] s (s.pwrSettle pwRUN)
    ∧ PwrAt pwRUN pwNONE (s.getF fPWR_PWR_STATUS_PENDING) 0 (s.pwrSettle pwRUN) := by
  have heq : s.pwrSettle pwRUN = ((s.setF fPWR_PWR_STATUS_PHASE 0).setF fPWR_PWR_STATUS_TARGET pwNONE).setF fPWR_PWR_STATUS_CURRENT pwRUN := by
    rw [State.pwrSettle, if_pos rfl]
  rw [heq]
  exact ⟨(((OnlyRegs.refl _ s).setF (by decide)).setF (by decide)).setF (by decide),
    (((PwrAt.self s).setPhase (by decide)).setTarget (by decide)).setCurrent (by decide)⟩

theorem State.pwrUndo_none {s : State} (h : s.pwr.ports = []) :
    s.pwrUndo = (s.updPwr (fun p => { p with ports := [], wake := none, selfRefresh := false, dramOn := true, timer := none })).pwrSettle pwRUN := by
  rw [State.pwrUndo, h, List.foldl_nil]

/-- The end is shown, flagged, counted and posted. -/
theorem State.backInRun {s : State} {r : Nat} {f : Fld} {cnt : Nat} {k : EvKind} (data : Nat) (hports : s.pwr.ports = []) (hr : r < 16)
    (hf : f.off = rPWR_PWR_FLAGS ∧ f.w = 1 ∧ f.lo + f.w ≤ 32) (hcnt : cnt ≠ rPWR_PWR_STATUS ∧ cnt ≠ rPWR_PWR_FLAGS) (hk : k.prio < 4) :
    BackInRun r s (((s.pwrUndo.pwrResult r 0).raise f cnt).post k srcPWR data) ∧ (((s.pwrUndo.pwrResult r 0).raise f cnt).post k srcPWR data).isF f = true := by
  obtain ⟨hoff, hw, hlo⟩ := hf
  rw [State.pwrUndo_none hports]
  have hpend : (s.updPwr (fun p => { p with ports := [], wake := none, selfRefresh := false, dramOn := true, timer := none })).getF fPWR_PWR_STATUS_PENDING
      = s.getF fPWR_PWR_STATUS_PENDING := State.updPwr_getF _ _ _
  have hfacts : (s.updPwr (fun p => { p with ports := [], wake := none, selfRefresh := false, dramOn := true, timer := none })).pwr.wake = none
      ∧ (s.updPwr (fun p => { p with ports := [], wake := none, selfRefresh := false, dramOn := true, timer := none })).mem = s.mem
      ∧ (s.updPwr (fun p => { p with ports := [], wake := none, selfRefresh := false, dramOn := true, timer := none })).safe = s.safe := ⟨rfl, rfl, rfl⟩
  generalize s.updPwr (fun p => { p with ports := [], wake := none, selfRefresh := false, dramOn := true, timer := none }) = a at hpend hfacts
  obtain ⟨hawake, hamem, hasafe⟩ := hfacts
  obtain ⟨h1, hat⟩ := a.pwrSettle_run
  generalize a.pwrSettle pwRUN = b at h1 hat
  obtain ⟨h2, hres, -, -⟩ := b.pwrResult_effect (why := 0) hr (by decide)
  have hat2 := hat.pwrResult (why := 0) hr (by decide)
  generalize b.pwrResult r 0 = c at h2 hres hat2
  have h3 : OnlyRegs [rPWR_PWR_FLAGS, cnt] c (c.raise f cnt) := (OnlyRegs.refl _ c).raise (by simp [hoff]) (by simp)
  have hflag : (c.raise f cnt).isF f = true := by
    rw [State.isF, State.getF_raise _ hlo (by rw [hoff]; exact fun h => hcnt.2 h.symm), hw]
    rfl
  generalize c.raise f cnt = d at h3 hflag
  have h4 := (Quiet.refl [] d).post (c := srcPWR) (d := data) hk
  generalize d.post k srcPWR data = e at h4
  have hreg : e.reg rPWR_PWR_STATUS = c.reg rPWR_PWR_STATUS :=
    (h4.regs _ (by simp) (by decide)).trans (h3.regs _ (by simp only [List.mem_cons, List.not_mem_nil, or_false, not_or]; exact ⟨by decide, fun h => hcnt.1 h.symm⟩))
  have hat3 := hat2.of_reg hreg
  refine ⟨⟨hat3.cur, hat3.tgt, hat3.pend.trans hpend, hat3.phase, (State.getF_congr hreg).trans hres, ?_, ?_, ?_⟩, ?_⟩
  · rw [h4.pwr, h3.pwr, h2.pwr, h1.pwr]
    exact hawake
  · rw [h4.mem_eq, h3.mem_eq, h2.mem_eq, h1.mem_eq]
    exact hamem
  · rw [h4.safe, h3.safe, h2.safe, h1.safe]
    exact hasafe
  · exact (State.isF_congr (h4.regs _ (by simp) (by rw [hoff]; decide))).trans hflag

/-- Switches change, and nothing else. -/
def TilesOnly (s t : State) : Prop := t = { s with safeTile := t.safeTile }

theorem TilesOnly.trans {s t u : State} (h : TilesOnly s t) (k : TilesOnly t u) : TilesOnly s u := by
  have hrest : u = _ := k
  rw [h] at hrest
  exact hrest

theorem tilesOnly_updSafeT (s : State) (n : Nat) (F : SafeTile → SafeTile) : TilesOnly s (s.updSafeT n F) := rfl

/-- The switches of one tile are put back, unless a safe state holds it dark. -/
def State.restoreTile (s : State) (q : (Bool × Bool) × Nat) : State := if 2 ≤ s.ssOf q.2 then s else (s.setHs q.2 q.1.1).setLs q.2 q.1.2

theorem State.restoreTile_only (s : State) (q : (Bool × Bool) × Nat) : TilesOnly s (s.restoreTile q) := by
  rw [State.restoreTile]
  split
  · rfl
  · exact (tilesOnly_updSafeT s _ _).trans (tilesOnly_updSafeT _ _ _)

theorem State.restoreSwitches_only (s : State) : TilesOnly s s.restoreSwitches := by
  have hfold : ∀ (l : List ((Bool × Bool) × Nat)) (u : State), TilesOnly s u → TilesOnly s (l.foldl State.restoreTile u) := by
    intro l
    induction l with
    | nil => exact fun u hu => hu
    | cons q l ih => exact fun u hu => ih _ (hu.trans (u.restoreTile_only q))
  exact hfold _ s rfl

theorem TilesOnly.reg {s t : State} (h : TilesOnly s t) (off : Nat) : t.reg off = s.reg off := State.reg_of_regs (by rw [h]) off

/-- SC's refusal, or its silence (R10). -/
theorem State.pwrVeto_effect {s : State} (hports : s.pwr.ports = []) :
    BackInRun rsVETO (s.updSafe (fun x => { x with consent := none })) s.pwrVeto ∧ s.pwrVeto.isF fPWR_PWR_FLAGS_VETO = true := by
  rw [State.pwrVeto]
  have hp : (s.updSafe (fun x => { x with consent := none })).pwr.ports = [] := hports
  generalize s.updSafe (fun x => { x with consent := none }) = u at hp
  have honly := u.restoreSwitches_only
  generalize u.restoreSwitches = v at honly
  have hpv : v.pwr = u.pwr := by rw [honly]
  obtain ⟨hback, hflag⟩ := State.backInRun (s := v) (r := rsVETO) (f := fPWR_PWR_FLAGS_VETO) (cnt := rPWR_VETO_COUNT) (k := evPOWER_PWR_VETO) s.pwrTarget
    (by rw [hpv]; exact hp) (by decide) (by decide) (by decide) (by decide)
  exact ⟨⟨hback.cur, hback.tgt, hback.pend.trans (State.getF_congr (honly.reg _)), hback.phase, hback.result, hback.wake,
    hback.mem.trans (by rw [honly]), hback.safe.trans (by rw [honly])⟩, hflag⟩

theorem does_veto {s : State} (hph : s.pwrPhase = 3) (hask : s.safe.consent ≠ none) (hpend : s.getF fPWR_PWR_STATUS_PENDING = pwNONE)
    (hports : s.pwr.ports = []) (c : Instr) (hc : c = Instr.scConsent ∧ s.powerGrant = false ∨ c = .consentTimeout) :
    Does c s (fun t => t.pwrCur = pwRUN ∧ t.pwrTarget = pwNONE ∧ t.pwrPhase = 0 ∧ t.getF fPWR_PWR_STATUS_RESULT = rsVETO
      ∧ t.isF fPWR_PWR_FLAGS_VETO = true ∧ t.safe.consent = none ∧ t.mem = s.mem) := by
  have hx : exec c s = .next s.pwrVeto.pwrTake := by
    obtain ⟨rfl, hgrant⟩ | rfl := hc
    · have h : exec .scConsent s = execScConsent s := rfl
      rw [h, execScConsent, if_neg (by simpa [hph] using hask), if_neg (by rw [hgrant]; decide)]
    · have h : exec .consentTimeout s = execConsentTimeout s := rfl
      rw [h, execConsentTimeout, if_pos hph]
  obtain ⟨hback, hflag⟩ := State.pwrVeto_effect hports
  generalize s.pwrVeto = t at hx hback hflag
  rw [State.pwrTake_none (hback.pend.trans ((State.updSafe_getF _ _ _).trans hpend))] at hx
  exact ⟨t, hx, hback.cur, hback.tgt, hback.phase, hback.result, hflag, by rw [hback.safe]; rfl, hback.mem⟩

/-- The wake sources noted by an abort point have stopped the entry. -/
theorem State.abortPoint_stop {s : State} (hwake : s.pwr.wake ≠ none ∧ s.wakeDue = [] ∨ s.pwrTarget = pwSLEEP ∧ s.wakeDue = [1]) (k : Nat) :
    ∃ u : State, s.abortPoint k = u.pwrAbort ∧ u.pwr.ports = s.pwr.ports ∧ u.mem = s.mem ∧ u.regs = s.regs := by
  obtain ⟨hw, hdue⟩ | ⟨htgt, hdue⟩ := hwake
  · refine ⟨s, ?_, rfl, rfl, rfl⟩
    rw [State.abortPoint, State.wakeStep_none hdue, if_pos (Option.isSome_iff_ne_none.2 hw)]
  · have ht : ({ s with wakeDue := [] } : State).pwrTarget = pwSLEEP := (State.getF_congr (State.reg_of_regs rfl _)).trans htgt
    have hstep : s.wakeStep = ({ s with wakeDue := [] } : State).updPwr (fun p => { p with wake := some (p.wake.getD 1) }) := by
      rw [State.wakeStep, hdue, List.foldl_cons, List.foldl_nil, State.wakeEvent, ht, if_pos (by decide), if_pos (by decide)]
    have hsome : (({ s with wakeDue := [] } : State).updPwr (fun p => { p with wake := some (p.wake.getD 1) })).pwr.wake.isSome = true := rfl
    refine ⟨({ s with wakeDue := [] } : State).updPwr (fun p => { p with wake := some (p.wake.getD 1) }), ?_, rfl, rfl, rfl⟩
    rw [State.abortPoint, hstep, if_pos hsome]

theorem does_entryAborted {s : State} (hph : s.pwrPhase = 4) (hwake : s.pwr.wake ≠ none ∧ s.wakeDue = [] ∨ s.pwrTarget = pwSLEEP ∧ s.wakeDue = [1])
    (hports : s.pwr.ports = []) (hpend : s.getF fPWR_PWR_STATUS_PENDING = pwNONE) :
    Does .entryStepDone s (fun t => t.pwrCur = pwRUN ∧ t.pwrTarget = pwNONE ∧ t.getF fPWR_PWR_STATUS_RESULT = rsABORTED
      ∧ t.isF fPWR_PWR_FLAGS_WAKE_ABORT = true ∧ t.pwr.wake = none ∧ t.mem = s.mem) := by
  have hx : exec .entryStepDone s = .next s.pwrAdvance.pwrTake := rfl
  obtain ⟨u, heq, hp, hm, hregs⟩ := State.abortPoint_stop hwake 5
  rw [State.pwrAdvance_four hph, heq, State.pwrAbort] at hx
  obtain ⟨hback, hflag⟩ := State.backInRun (s := u) (r := rsABORTED) (f := fPWR_PWR_FLAGS_WAKE_ABORT) (cnt := rPWR_WAKE_ABORT_COUNT) (k := evPOWER_WAKE_ABORT)
    (256 * u.pwrPhase + u.pwrTarget) (hp.trans hports) (by decide) (by decide) (by decide) (by decide)
  generalize ((u.pwrUndo.pwrResult rsABORTED 0).raise fPWR_PWR_FLAGS_WAKE_ABORT rPWR_WAKE_ABORT_COUNT).post evPOWER_WAKE_ABORT srcPWR (256 * u.pwrPhase + u.pwrTarget) = t
    at hx hback hflag
  rw [State.pwrTake_none (hback.pend.trans ((State.getF_congr (State.reg_of_regs hregs _)).trans hpend))] at hx
  exact ⟨t, hx, hback.cur, hback.tgt, hback.result, hflag, hback.wake, hback.mem.trans hm⟩

/-! ### Steps 4 and 5, SLEEP, OFF and IDLE -/

theorem State.abortPoint_go {s : State} (hwake : s.pwr.wake = none) (hdue : s.wakeDue = []) (k : Nat) : s.abortPoint k = s.pwrStep k := by
  rw [State.abortPoint, State.wakeStep_none hdue, if_neg (by rw [hwake]; decide)]

theorem does_entryDram_sleep {s : State} (hph : s.pwrPhase = 4) (htgt : s.pwrTarget = pwSLEEP) (hwake : s.pwr.wake = none) (hdue : s.wakeDue = [])
    (hpend : s.getF fPWR_PWR_STATUS_PENDING = pwNONE) :
    Does .entryStepDone s (fun t => t.pwrPhase = 5 ∧ t.pwr.selfRefresh = true ∧ t.mem = s.mem) := by
  have hx : exec .entryStepDone s = .next s.pwrAdvance.pwrTake := rfl
  rw [State.pwrAdvance_four hph, State.abortPoint_go hwake hdue, State.pwrStep_five] at hx
  obtain ⟨hat, honly⟩ := State.pwrPhase_step 5 (by decide) (PwrAt.self s)
  generalize s.setF fPWR_PWR_STATUS_PHASE 5 = u at hx hat honly
  rw [State.pwrDram, if_pos (hat.tgt.trans htgt)] at hx
  have hat2 := (hat.of_reg (u.updPwr_reg (fun p => { p with selfRefresh := true }) _)).of_reg
    ((u.updPwr (fun p => { p with selfRefresh := true })).updBoot_reg (fun b => { b with pll := ((b.pll.set 1 false).set 2 false).set 4 false }) _)
  rw [State.pwrTake_none (hat2.pend.trans hpend)] at hx
  exact ⟨_, hx, hat2.phase, rfl, (State.updBoot_mem _ _).trans ((State.updPwr_mem _ _).trans honly.mem_eq)⟩

/-- DRAM loses its contents; correction memory keeps its own. -/
theorem State.byte_dramLost (s : State) (a : Nat) : s.dramLost.byte a = if a < corrBase then 0 else s.byte a := by
  have hfilter := tabGet_filter (fun _ => 0#8) s.mem (fun x => decide (corrBase ≤ x)) a
  have heq : s.dramLost.byte a = tabGet (fun _ => 0#8) (s.mem.filter (fun c => decide (corrBase ≤ c.1))) a := rfl
  rw [heq, hfilter, State.byte]
  by_cases ha : a < corrBase
  · rw [if_pos ha, if_neg (by simpa using ha)]
    rfl
  · rw [if_neg ha, if_pos (by simpa using ha)]

theorem State.withMem_kept (s : State) (m : List Host.Cell) (e : Ecc) :
    ({ s with mem := m, ecc := e } : State).regs = s.regs ∧ ({ s with mem := m, ecc := e } : State).pwr = s.pwr := ⟨rfl, rfl⟩

theorem State.dramLost_kept (s : State) : s.dramLost.regs = s.regs ∧ s.dramLost.pwr = s.pwr := s.withMem_kept _ _

theorem does_entryDram_off {s : State} (hph : s.pwrPhase = 4) (htgt : s.pwrTarget = pwOFF) (hwake : s.pwr.wake = none) (hdue : s.wakeDue = [])
    (hpend : s.getF fPWR_PWR_STATUS_PENDING = pwNONE) :
    Does .entryStepDone s (fun t => t.pwrPhase = 5 ∧ t.pwr.dramOn = false ∧ (∀ a, a < corrBase → t.byte a = 0)
      ∧ ∀ a, corrBase ≤ a → t.byte a = s.byte a) := by
  have hx : exec .entryStepDone s = .next s.pwrAdvance.pwrTake := rfl
  rw [State.pwrAdvance_four hph, State.abortPoint_go hwake hdue, State.pwrStep_five] at hx
  obtain ⟨hat, honly⟩ := State.pwrPhase_step 5 (by decide) (PwrAt.self s)
  generalize s.setF fPWR_PWR_STATUS_PHASE 5 = u at hx hat honly
  have hne : ∀ x, x ≠ pwOFF → u.pwrTarget ≠ x := fun x hx h => hx (h.symm.trans (hat.tgt.trans htgt))
  rw [State.pwrDram, if_neg (hne _ (by decide)), if_neg (fun h => hne _ (by decide) h.1)] at hx
  have hat2 := hat.of_reg (u.updPwr_reg (fun p => { p with dramOn := false }) _)
  have hpwr : (u.updPwr (fun p => { p with dramOn := false })).pwr.dramOn = false := rfl
  have hbyte : ∀ a, (u.updPwr (fun p => { p with dramOn := false })).byte a = s.byte a := fun a =>
    congrArg (fun m => tabGet (fun _ => 0#8) m a) ((State.updPwr_mem _ _).trans honly.mem_eq)
  generalize u.updPwr (fun p => { p with dramOn := false }) = v at hx hat2 hpwr hbyte
  have hat3 := hat2.of_reg (State.reg_of_regs v.dramLost_kept.1 _)
  rw [State.pwrTake_none (hat3.pend.trans hpend)] at hx
  refine ⟨_, hx, hat3.phase, by rw [v.dramLost_kept.2]; exact hpwr, fun a ha => ?_, fun a ha => ?_⟩
  · rw [State.byte_dramLost, if_pos ha]
  · rw [State.byte_dramLost, if_neg (Nat.not_lt.2 ha), hbyte]

/-- The engines and the power state change, and nothing else. -/
def GateOnly (s t : State) : Prop := t = { s with be := t.be, pwr := t.pwr }

theorem GateOnly.trans {s t u : State} (h : GateOnly s t) (k : GateOnly t u) : GateOnly s u := by
  have hrest : u = _ := k
  rw [h] at hrest
  exact hrest

theorem State.waitCount_only (s : State) (n : Nat) : GateOnly s (s.waitCount n) := rfl

theorem State.beSettle_only (s : State) : GateOnly s s.beSettle := by
  have hfold : ∀ (l : List Nat) (u : State), GateOnly s u → GateOnly s (l.foldl (fun s n => if s.beState n = beWAIT then s.waitCount n else s) u) := by
    intro l
    induction l with
    | nil => exact fun u hu => hu
    | cons n l ih =>
      intro u hu
      refine ih _ ?_
      dsimp only
      split
      · exact hu.trans (u.waitCount_only n)
      · exact hu
  exact hfold _ s rfl

/-- Without an engine in WAIT there is nothing to settle. -/
theorem State.beSettle_none {s : State} (h : ∀ n, n < 16 → s.beState n ≠ beWAIT) : s.beSettle = s := by
  have hfold : ∀ l : List Nat, (∀ n ∈ l, n < 16) → l.foldl (fun s n => if s.beState n = beWAIT then s.waitCount n else s) s = s := by
    intro l
    induction l with
    | nil => exact fun _ => rfl
    | cons n l ih =>
      intro hl
      rw [List.foldl_cons, if_neg (h n (hl n List.mem_cons_self))]
      exact ih fun k hk => hl k (List.mem_cons_of_mem _ hk)
  exact hfold _ fun n hn => List.mem_range.1 hn

theorem State.beGate_only (s : State) : GateOnly s s.beGate := by
  rw [State.beGate]
  split
  · rfl
  · exact (s.beSettle_only).trans rfl

/-- The device settles in a state away from RUN, and the request that brought it there ends. -/
theorem State.settled_effect {s : State} {st : Nat} (hst : st ≠ pwRUN) (hlt : st < 16) :
    PwrAt st pwNONE (s.getF fPWR_PWR_STATUS_PENDING) 0 ((s.pwrSettle st).pwrDone pwRUN st)
      ∧ ((s.pwrSettle st).pwrDone pwRUN st).getF fPWR_PWR_STATUS_RESULT = rsDONE
      ∧ Quiet [rPWR_PWR_STATUS] s.beGate ((s.pwrSettle st).pwrDone pwRUN st) := by
  have hgate := s.beGate_only
  have heq : s.pwrSettle st = ((s.beGate.setF fPWR_PWR_STATUS_PHASE 0).setF fPWR_PWR_STATUS_TARGET pwNONE).setF fPWR_PWR_STATUS_CURRENT st := by
    rw [State.pwrSettle, if_neg hst]
  rw [heq, State.pwrDone]
  have hpend : s.beGate.getF fPWR_PWR_STATUS_PENDING = s.getF fPWR_PWR_STATUS_PENDING :=
    State.getF_congr (State.reg_of_regs (by rw [hgate]) _)
  generalize s.beGate = u at hpend
  have h1 := (((OnlyRegs.refl [rPWR_PWR_STATUS] u).setF (f := fPWR_PWR_STATUS_PHASE) (n := 0) (by decide)).setF (f := fPWR_PWR_STATUS_TARGET) (n := pwNONE)
    (by decide)).setF (f := fPWR_PWR_STATUS_CURRENT) (n := st) (by decide)
  have hat := (((PwrAt.self u).setPhase (n := 0) (by decide)).setTarget (n := pwNONE) (by decide)).setCurrent hlt
  generalize ((u.setF fPWR_PWR_STATUS_PHASE 0).setF fPWR_PWR_STATUS_TARGET pwNONE).setF fPWR_PWR_STATUS_CURRENT st = v at h1 hat
  obtain ⟨h2, hres, -, -⟩ := v.pwrResult_effect (r := rsDONE) (why := 0) (by decide) (by decide)
  have hat2 := hat.pwrResult (r := rsDONE) (why := 0) (by decide) (by decide)
  generalize v.pwrResult rsDONE 0 = w at h2 hres hat2
  have h3 := (Quiet.refl [] w).post (k := evPOWER_PWR_DONE) (c := srcPWR) (d := 16 * pwRUN + st) (by decide)
  have hreg := h3.regs rPWR_PWR_STATUS (by simp) (by decide)
  have hat3 := hat2.of_reg hreg
  exact ⟨⟨hat3.cur, hat3.tgt, hat3.pend.trans hpend, hat3.phase⟩, (State.getF_congr hreg).trans hres,
    (h1.quiet.trans h2.quiet).trans (h3.mono (by simp))⟩

theorem does_sleepEnter {s : State} (hph : s.pwrPhase = 5) (htgt : s.pwrTarget = pwSLEEP) (hwake : s.pwr.wake = none) (hdue : s.wakeDue = [])
    (hpend : s.getF fPWR_PWR_STATUS_PENDING = pwNONE) :
    Does .entryStepDone s (fun t => t.pwrCur = pwSLEEP ∧ t.pwrTarget = pwNONE ∧ t.pwrPhase = 0
      ∧ t.getF fPWR_PWR_STATUS_RESULT = rsDONE ∧ Quiet [rPWR_PWR_STATUS] { s with be := t.be, pwr := t.pwr } t) := by
  have hx : exec .entryStepDone s = .next s.pwrAdvance.pwrTake := rfl
  rw [State.pwrAdvance_five hph, if_pos htgt, State.sleepEnter, State.wakeStep_none hdue, hwake] at hx
  have h0 : GateOnly s (s.updPwr (fun p => { p with wake := none })) := rfl
  have hp0 : (s.updPwr (fun p => { p with wake := none })).getF fPWR_PWR_STATUS_PENDING = pwNONE := (State.updPwr_getF _ _ _).trans hpend
  generalize s.updPwr (fun p => { p with wake := none }) = u at hx h0 hp0
  obtain ⟨hat, hres, hq⟩ := State.settled_effect (s := u) (st := pwSLEEP) (by decide) (by decide)
  have hgate := h0.trans u.beGate_only
  generalize (u.pwrSettle pwSLEEP).pwrDone pwRUN pwSLEEP = t at hx hat hres hq
  generalize u.beGate = v at hq hgate
  dsimp only at hx
  rw [State.pwrTake_none (hat.pend.trans hp0)] at hx
  refine ⟨t, hx, hat.cur, hat.tgt, hat.phase, hres, ?_⟩
  have hbe : t.be = v.be := by rw [hq.rest]
  rw [hbe, hq.pwr, ← show v = { s with be := v.be, pwr := v.pwr } from hgate]
  exact hq

theorem does_offEnter {s : State} (hph : s.pwrPhase = 7) (htgt : s.pwrTarget = pwOFF) (hwake : s.pwr.wake = none) (hdue : s.wakeDue = []) :
    Does .entryStepDone s (fun t => t.pwrCur = pwOFF ∧ t.boot.phase = .off ∧ t.mem = [] ∧ t.otp = s.otp ∧ t.store = s.store) := by
  have hx : exec .entryStepDone s = .next s.pwrAdvance.pwrTake := rfl
  rw [State.pwrAdvance_seven hph, if_neg (by rw [htgt]; decide), State.offEnter, State.wakeStep_none hdue] at hx
  have hdone : Quiet [rPWR_PWR_STATUS] s (s.pwrDone pwRUN pwOFF) :=
    ((s.pwrResult_effect (r := rsDONE) (why := 0) (by decide) (by decide)).1.quiet).trans ((Quiet.refl _ _).post (by decide))
  generalize s.pwrDone pwRUN pwOFF = u at hx hdone
  rw [show u.pwr.wake = none by rw [hdone.pwr]; exact hwake] at hx
  dsimp only at hx
  have hreset := coreReset_coreReset u [] []
  have hotp : (u.coreReset [] []).otp = s.otp := by rw [hreset.otp, hdone.otp]
  have hstore : (u.coreReset [] []).store = s.store := by
    rw [hreset.store]
    rw [hdone.rest]
  generalize u.coreReset [] [] = z at hx hreset hotp hstore
  have honly := (OnlyRegs.refl [rPWR_PWR_STATUS] z).setF (f := fPWR_PWR_STATUS_CURRENT) (n := pwOFF) (by decide)
  have hcur : (z.setF fPWR_PWR_STATUS_CURRENT pwOFF).pwrCur = pwOFF := State.getF_setF _ _ _ (by decide)
  generalize z.setF fPWR_PWR_STATUS_CURRENT pwOFF = t at hx honly hcur
  have htake : t.pwrTake = t := by
    rw [State.pwrTake, if_pos]
    right; right; left
    rw [hcur]
    decide
  rw [htake] at hx
  refine ⟨t, hx, hcur, ?_, honly.mem_eq.trans hreset.mem, ?_, ?_⟩
  · rw [honly.boot_eq, hreset.boot]
    exact reset_boot.1
  · rw [honly.rest]
    exact hotp
  · rw [honly.rest]
    exact hstore

theorem does_idleEnter {s : State} (htgt : s.pwrTarget = pwIDLE) (hquiet : ∀ n, n < 16 → s.beState n = beIDLE ∨ s.beState n = beFAULTED ∨ s.beState n = beOFF)
    (hwake : s.pwr.wake = none) (hdue : s.wakeDue = []) (hpend : s.getF fPWR_PWR_STATUS_PENDING = pwNONE) :
    Does .idleEnter s (fun t => t.pwrCur = pwIDLE ∧ t.pwrTarget = pwNONE ∧ t.getF fPWR_PWR_STATUS_RESULT = rsDONE
      ∧ Quiet [rPWR_PWR_STATUS] { s with pwr := t.pwr } t) := by
  have hx : exec .idleEnter s = execIdleEnter s := rfl
  have hall : (List.range 16).all (fun n => [beIDLE, beFAULTED, beOFF].contains (s.beState n)) = true := by
    rw [List.all_eq_true]
    intro n hn
    rw [List.contains_iff_mem]
    simpa using hquiet n (List.mem_range.1 hn)
  have hgo : ¬(s.pwrTarget ≠ pwIDLE ∨ (List.range 16).all (fun n => [beIDLE, beFAULTED, beOFF].contains (s.beState n)) = false) := by
    rw [hall, htgt]
    decide
  rw [execIdleEnter, if_neg hgo, State.wakeStep_none hdue] at hx
  dsimp only at hx
  rw [hwake] at hx
  have hwait : ∀ n, n < 16 → s.beState n ≠ beWAIT := fun n hn h => by
    obtain h' | h' | h' := hquiet n hn <;> exact absurd (h.symm.trans h') (by decide)
  have h0 : s.updPwr (fun p => { p with wake := none }) = { s with pwr := { s.pwr with wake := none } } := rfl
  have hp0 : (s.updPwr (fun p => { p with wake := none })).getF fPWR_PWR_STATUS_PENDING = pwNONE := (State.updPwr_getF _ _ _).trans hpend
  have hw0 : ∀ n, n < 16 → (s.updPwr (fun p => { p with wake := none })).beState n ≠ beWAIT := fun n hn h =>
    hwait n hn ((State.updPwr_getF s _ _).symm.trans h)
  generalize s.updPwr (fun p => { p with wake := none }) = u at hx h0 hp0 hw0
  obtain ⟨hat, hres, hq⟩ := State.settled_effect (s := u) (st := pwIDLE) (by decide) (by decide)
  have hgate : u.beGate = { s with pwr := u.beGate.pwr } := by
    rw [State.beGate]
    split
    · rw [h0]
    · rw [State.beSettle_none hw0, h0]
      rfl
  generalize (u.pwrSettle pwIDLE).pwrDone pwRUN pwIDLE = t at hx hat hres hq
  generalize u.beGate = v at hq hgate
  dsimp only at hx
  rw [State.pwrTake_none (hat.pend.trans hp0)] at hx
  refine ⟨t, hx, hat.cur, hat.tgt, hres, ?_⟩
  rw [hq.pwr, ← hgate]
  exact hq

/-- Settles O44: consent asked and given, a veto, an abort, and what SLEEP, OFF and IDLE keep. -/
theorem powerEntry : Obligations.PowerEntry := by
  unfold Obligations.PowerEntry
  exact ⟨fun s hph hpend => does_entryStep2 hph hpend,
    fun s hph hask hgrant hwake hdue hpend hoff hupd => does_scConsent_grant hph hask hgrant hwake hdue hpend hoff hupd,
    fun s hph hask hpend hports c hc => does_veto hph hask hpend hports c hc,
    fun s hph hwake hports hpend => does_entryAborted hph hwake hports hpend,
    fun s hph htgt hwake hdue hpend => does_entryDram_sleep hph htgt hwake hdue hpend,
    fun s hph htgt hwake hdue hpend => does_entryDram_off hph htgt hwake hdue hpend,
    fun s hph htgt hwake hdue hpend => does_sleepEnter hph htgt hwake hdue hpend,
    fun s hph htgt hwake hdue => does_offEnter hph htgt hwake hdue,
    fun s htgt hquiet hwake hdue hpend => does_idleEnter htgt hquiet hwake hdue hpend⟩

end Sys2Proof.Machine

/-! ## The wake from DEEP_SLEEP with a lost image: a syndrome at the end of correction memory (R410) -/

namespace Sys2Proof.Machine

/-! ### What a correction leaves of memory -/

theorem State.mem_setRegs (s : State) (f : Fld) (a b c n m : Nat) :
    (s.raise f c).mem = s.mem ∧ (s.bumpF f n).mem = s.mem ∧ (s.setPair a b n).mem = s.mem ∧ (s.setRegN a m).mem = s.mem :=
  ⟨(State.setReg_mem _ _ _).trans (State.setReg_mem _ _ _), State.setReg_mem _ _ _, (State.setReg_mem _ _ _).trans (State.setReg_mem _ _ _), State.setReg_mem _ _ _⟩

theorem State.mem_eccRecent (s : State) (r w : Nat) : (s.eccRecent r w).mem = s.mem := by
  unfold State.eccRecent
  extract_lets -merge v1 v2 v3
  split
  · split
    · exact ((Quiet.refl [] _).post (by decide)).mem_eq.trans ((State.setReg_mem _ _ _).trans (State.setReg_mem _ _ _))
    · rfl
  · rfl

theorem State.mem_noteCe (s : State) (r w syn : Nat) : (s.noteCe r w syn).mem = s.mem := by
  unfold State.noteCe
  extract_lets -merge v1 v2 v3 v4 v5 v6 v7 v8 v9 v10 v11 v12
  have hecc : ∀ (u : State) (x : Ecc), ({ u with ecc := x } : State).mem = u.mem := fun _ _ => rfl
  have hposted : ∀ (u : State) (x : List (Nat × Nat)), ({ u with posted := x } : State).mem = u.mem := fun _ _ => rfl
  have hcount : (s.beCount w).mem = s.mem := by
    unfold State.beCount
    split
    · exact State.setReg_mem _ _ _
    · rfl
  have h1 : v1.mem = s.mem := ((State.setReg_mem _ _ _).trans (State.setReg_mem _ _ _)).trans hcount
  have h2 : v2.mem = s.mem := (State.setReg_mem _ _ _).trans h1
  have h3 : v3.mem = s.mem := ((State.setReg_mem _ _ _).trans (State.setReg_mem _ _ _)).trans h2
  have h4 : v4.mem = s.mem := (State.setReg_mem _ _ _).trans h3
  have h7 : v7.mem = s.mem := (hecc v4 _).trans h4
  have h10 : v10.mem = s.mem := ((Quiet.refl [] _).post (by decide)).mem_eq.trans ((hposted v7 _).trans h7)
  have h12 : v12.mem = s.mem := by
    simp only [v12]
    split
    · exact (hecc v10 _).trans h10
    · exact h7
  exact (v12.mem_eccRecent r w).trans h12

theorem State.byte_flipMem_other {s : State} {w k x : Nat} (h : x ≠ w + k / 8) : (s.flipMem w k).byte x = s.byte x := by
  rw [State.flipMem, State.byte_setByte, if_neg h]

/-- One stored bit of word w inverted, and its syndrome with it. -/
def State.flipBit (s : State) (w k : Nat) : State :=
  (if k < 32 then s.flipMem w k else s).setSynd w ((if k < 32 then s.flipMem w k else s).syndAt w ^^^ eccColumn k)

theorem State.byte_flipBit {s : State} {w k x : Nat} (h : x < w ∨ w + 4 ≤ x) : (s.flipBit w k).byte x = s.byte x := by
  have hone : (if k < 32 then s.flipMem w k else s).byte x = s.byte x := by
    split
    next hk => exact State.byte_flipMem_other (by omega)
    next => rfl
  rw [State.flipBit]
  generalize (if k < 32 then s.flipMem w k else s) = v at hone
  exact hone

theorem State.injectInto_eq (s : State) (r w : Nat) : s.injectInto r w = if s.isF fMEM_ECC_INJECT_ARM ∧ s.getF fMEM_ECC_INJECT_REGION = r then
    (if (s.flipBit w (s.getF fMEM_ECC_INJECT_BIT1)).isF fMEM_ECC_INJECT_TWO then
      (s.flipBit w (s.getF fMEM_ECC_INJECT_BIT1)).flipBit w ((s.flipBit w (s.getF fMEM_ECC_INJECT_BIT1)).getF fMEM_ECC_INJECT_BIT2)
      else s.flipBit w (s.getF fMEM_ECC_INJECT_BIT1)).setF fMEM_ECC_INJECT_ARM 0
    else s := rfl

theorem State.byte_setF (s : State) (f : Fld) (n x : Nat) : (s.setF f n).byte x = s.byte x := rfl

/-- An injection hits the word it is armed for, and no other byte. -/
theorem State.byte_injectInto {s : State} {r w x : Nat} (h : x < w ∨ w + 4 ≤ x) : (s.injectInto r w).byte x = s.byte x := by
  rw [State.injectInto_eq]
  split
  · rw [State.byte_setF]
    split
    · rw [State.byte_flipBit h, State.byte_flipBit h]
    · exact State.byte_flipBit h
  · rfl

/-! ### The last word of the staging area -/

/-- A word two bytes before the end of correction memory, off any word boundary. -/
def endWord : Nat := corrBase + 0x800000 - 2

theorem endWord_facts : eccRegion endWord = some 1 ∧ eccClassify 0x31 = .corrected (some 16) ∧ endWord + 16 / 8 = corrBase + 0x800000 := by decide

/-- An image that fills the staging area corrects that word, and with it a byte past the end. -/
theorem State.byte_stageFile_end {u : State} {bs : List Byte} (hready : u.isF fTOP_START_STATUS_DRAM_READY = false) (hlen : bs.length = 0x800000)
    (hsynd : u.ecc.synd = [(endWord, 0x31)]) : (u.stageFile 0 bs).byte (corrBase + 0x800000) = u.byte (corrBase + 0x800000) ^^^ 1#8 := by
  obtain ⟨hregion, hclass, hpast⟩ := endWord_facts
  have hdirty : u.dirtyWords corrBase bs.length = [endWord] := by
    rw [State.dirtyWords, hsynd, hlen]
    rfl
  have hprep : u.prepWord corrBase bs.length endWord = (((u.flipMem endWord 16).setSynd endWord 0).noteCe 1 endWord 0x31).setSynd endWord 0 := by
    have hsyn : u.syndAt endWord = 0x31 := by
      rw [State.syndAt, hsynd, tabGet, if_pos rfl]
    rw [State.prepWord, if_neg (by rw [hlen]; decide), State.checkWord]
    dsimp only
    rw [hsyn, hregion, hclass]
    rfl
  have hbyte : (u.prepWord corrBase bs.length endWord).byte (corrBase + 0x800000) = u.byte (corrBase + 0x800000) ^^^ 1#8 := by
    have hmem : (u.prepWord corrBase bs.length endWord).mem = (u.flipMem endWord 16).mem := by
      rw [hprep]
      exact State.mem_noteCe _ _ _ _
    refine (congrArg (fun m => tabGet (fun _ => 0#8) m (corrBase + 0x800000)) hmem).trans ?_
    change (u.flipMem endWord 16).byte (corrBase + 0x800000) = _
    rw [State.flipMem, State.byte_setByte, hpast, if_pos rfl]
    rfl
  rw [State.stageFile, if_neg (by rw [hready]; decide), Nat.add_zero, Nat.sub_zero, List.take_of_length_le (by omega)]
  unfold State.writeMem
  rw [hdirty, List.foldl_cons, List.foldl_nil]
  generalize u.prepWord corrBase bs.length endWord = v at hbyte
  have hset : (v.setBytes corrBase bs).byte (corrBase + 0x800000) = u.byte (corrBase + 0x800000) ^^^ 1#8 :=
    (v.byte_setBytes_other (.inr (by rw [hlen]))).trans hbyte
  obtain ⟨x, l, rfl⟩ := List.exists_cons_of_length_pos (l := bs) (by omega)
  rw [show eccRegion corrBase = some 1 by decide]
  dsimp only
  exact (State.byte_injectInto (.inr (by decide))).trans hset

/-! ### A lost image whose restart stages a full flash image -/

/-- The wake finds a retention image with a wrong check value; the first flash image is not one, the second is empty. -/
def lostWake (bs : List Byte) : State :=
  { State.reset with
    mem := [(retBase + 24, 1#8)]
    ecc := { State.reset.ecc with synd := [(endWord, 0x31)] }
    boot := { State.reset.boot with warm := true, phase := .waitPmic }
    loader := { State.reset.loader with flashA := { State.reset.loader.flashA with bytes := bs }, flashB := { State.reset.loader.flashB with bytes := [] } } }

theorem State.retCheck_empty {s : State} (hd : s.dirtyWords retBase 0x40 = []) (hn : s.loadN retBase 4 = 0) (hc : s.loadN (retBase + 24) 4 = 1) :
    s.retCheck = (([], some 0xFFFF), s) := by
  have hchk : s.checkRange retBase 0x40 = (false, s) := by rw [State.checkRange, hd, List.foldl_nil]
  rw [State.retCheck, hchk]
  dsimp only
  rw [hn, Nat.min_zero, State.retRead]
  dsimp only
  rw [hc, Nat.mul_zero, if_neg (by decide), show s.bytes (retBase + 0x40) 0 = [] from rfl, if_neg (by decide)]

theorem lostWake_check (bs : List Byte) : (lostWake bs).retCheck = (([], some 0xFFFF), lostWake bs) :=
  State.retCheck_empty rfl rfl rfl

/-- The core restarts as after a cold start, but for what the wake had kept. -/
def State.coreDropped (s : State) : State :=
  { s with regs := s.regs.filter (fun c => decide (c.1 < 0x10000 ∨ 0x20000 ≤ c.1)), loader := { flashA := s.loader.flashA, flashB := s.loader.flashB },
           health := [], sel := [], host := {}, time := { s.time with sched := [] } }

/-- What a lost image leaves before the flash is read. -/
def State.retCleared (s : State) (bad : Nat) : State :=
  ((((s.raise fPWR_PWR_FLAGS_RET_LOST rPWR_RET_LOST_COUNT).setRegN rPWR_RET_STATUS (bad % 2048)).post evPOWER_RET_LOST srcPWR bad).coreDropped.otpShow).updBoot
    (fun b => { b with warm := false, mapOk := [false, false, false, false] })

theorem State.retLost_eq (s : State) (bad : Nat) : s.retLost bad = (s.retCleared bad).bootLoad := rfl

theorem State.reg_coreDropped (s : State) {off : Nat} (ho : off < 0x10000) : s.coreDropped.reg off = s.reg off := by
  have hfilter := tabGet_filter regReset s.regs (fun x => decide (x < 0x10000 ∨ 0x20000 ≤ x)) off
  have hregs : s.coreDropped.regs = s.regs.filter (fun c => decide (c.1 < 0x10000 ∨ 0x20000 ≤ c.1)) := rfl
  rw [State.reg, hregs, hfilter, if_pos (by simpa using .inl ho), State.reg]

theorem State.coreDropped_kept (s : State) : s.coreDropped.mem = s.mem ∧ s.coreDropped.ecc = s.ecc
    ∧ s.coreDropped.loader = { flashA := s.loader.flashA, flashB := s.loader.flashB } := ⟨rfl, rfl, rfl⟩

theorem State.retCleared_effect (s : State) (bad : Nat) : (s.retCleared bad).mem = s.mem ∧ (s.retCleared bad).ecc = s.ecc
    ∧ (s.retCleared bad).loader = { flashA := s.loader.flashA, flashB := s.loader.flashB }
    ∧ (s.retCleared bad).isF fTOP_START_STATUS_DRAM_READY = s.isF fTOP_START_STATUS_DRAM_READY := by
  rw [State.retCleared]
  have h1 : Quiet [rPWR_PWR_FLAGS, rPWR_RET_LOST_COUNT, rPWR_RET_STATUS] s
      (((s.raise fPWR_PWR_FLAGS_RET_LOST rPWR_RET_LOST_COUNT).setRegN rPWR_RET_STATUS (bad % 2048)).post evPOWER_RET_LOST srcPWR bad) :=
    (((Quiet.refl _ s).raise (by decide) (by decide)).setRegN (by decide)).post (by decide)
  generalize ((s.raise fPWR_PWR_FLAGS_RET_LOST rPWR_RET_LOST_COUNT).setRegN rPWR_RET_STATUS (bad % 2048)).post evPOWER_RET_LOST srcPWR bad = a at h1
  obtain ⟨hm, he, hl⟩ := a.coreDropped_kept
  have hdrop : a.coreDropped.isF fTOP_START_STATUS_DRAM_READY = a.isF fTOP_START_STATUS_DRAM_READY := State.isF_congr (a.reg_coreDropped (by decide))
  generalize a.coreDropped = b at hm he hl hdrop
  have h2 := b.otpShow_only
  generalize b.otpShow = c at h2
  have hmem : (c.updBoot (fun b => { b with warm := false, mapOk := [false, false, false, false] })).mem = c.mem := State.updBoot_mem _ _
  refine ⟨hmem.trans (h2.mem_eq.trans (hm.trans h1.mem_eq)), ?_, ?_, ?_⟩
  · rw [State.updBoot_ecc, h2.rest]
    rw [← show a.ecc = s.ecc by rw [h1.rest]]
    exact he
  · rw [State.updBoot_loader, h2.rest]
    rw [← show a.loader = s.loader from h1.loader]
    exact hl
  · rw [State.updBoot_isF]
    exact (State.isF_congr (h2.regs _ (by decide))).trans (hdrop.trans (State.isF_congr (h1.regs _ (by decide) (by decide))))

/-- No DLZ1 image. -/
theorem checkPhase0_magic (s : State) {bs : List Byte} (h : fileBytes bs 0 4 ≠ [0x44#8, 0x4C#8, 0x5A#8, 0x31#8]) : checkPhase0 s bs = some errBadMagic := by
  rw [checkPhase0, checkFrame, if_pos h]
  rfl

/-- An empty file leaves every byte. -/
theorem State.byte_stageFile_nil (s : State) (a x : Nat) : (s.stageFile a []).byte x = s.byte x := by
  have hset : ∀ u : State, ∀ b, (u.setBytes b []).byte x = u.byte x := fun u b => u.byte_setBytes_other (by simp only [List.length_nil]; omega)
  rw [State.stageFile]
  split
  · rfl
  · unfold State.writeMem
    have hdirty : s.dirtyWords (corrBase + a) (([] : List Byte).take (0x800000 - a)).length = [] := by
      rw [State.dirtyWords, List.take_nil, List.length_nil]
      simp
    rw [hdirty, List.foldl_nil, List.take_nil]
    dsimp only
    split
    next heq => exact absurd heq (by simp)
    next => exact hset _ _

/-- Both flash images fail, the second one empty: what is in memory is what staging the first one leaves. -/
theorem State.byte_bootLoad_fails {u : State} {a x : Nat} (ha : checkPhase0 u u.loader.flashA.bytes = some a) (hb : u.loader.flashB.bytes = []) :
    u.bootLoad.byte x = (u.stageFile 0 u.loader.flashA.bytes).byte x := by
  rw [State.bootLoad, State.loadFlash_phase0 ha]
  have hstaged := (MemEv.refl u).stageFile 0 u.loader.flashA.bytes
  generalize u.stageFile 0 u.loader.flashA.bytes = v at hstaged
  have hfail := v.imageFail_quiet (k := evBOOT_IMAGE_A_FAIL) (by decide) (a, 0xFF)
  dsimp only
  generalize v.imageFail evBOOT_IMAGE_A_FAIL (a, 0xFF) = w at hfail ⊢
  have hloader : w.loader.flashB.bytes = [] := by
    rw [hfail.loader, show v.loader = u.loader by rw [hstaged.rest]]
    exact hb
  have hload : w.loadFlash w.loader.flashB 1 = (some (errBadMagic, 0xFF), w.stageFile 0 w.loader.flashB.bytes) :=
    State.loadFlash_phase0 (checkPhase0_magic _ (by rw [hloader]; decide))
  rw [hload, hloader]
  dsimp only
  have hnil := w.byte_stageFile_nil 0 x
  generalize w.stageFile 0 [] = y at hnil ⊢
  have hfail2 := y.imageFail_quiet (k := evBOOT_IMAGE_B_FAIL) (by decide) (errBadMagic, 0xFF)
  generalize y.imageFail evBOOT_IMAGE_B_FAIL (errBadMagic, 0xFF) = z at hfail2 ⊢
  have hset := (z.assertFault .flash).setBs_only bsWAIT_HOST
  generalize (z.assertFault .flash).setBs bsWAIT_HOST = q at hset ⊢
  have hmem : (q.updBoot (fun b => { b with phase := .waitHost })).mem = y.mem :=
    (State.updBoot_mem _ _).trans (hset.mem_eq.trans hfail2.mem_eq)
  have hbyte : ∀ {s t : State}, t.mem = s.mem → t.byte x = s.byte x := fun h => congrArg (fun m => tabGet (fun _ => 0#8) m x) h
  exact (hbyte hmem).trans (hnil.trans (hbyte hfail.mem_eq))

/-- Eight mebibytes of zeros. -/
def zeroImage : List Byte := List.replicate 0x800000 0#8

theorem zeroImage_facts : zeroImage.length = 0x800000 ∧ fileBytes zeroImage 0 4 ≠ [0x44#8, 0x4C#8, 0x5A#8, 0x31#8] := by
  refine ⟨List.length_replicate, ?_⟩
  rw [fileBytes, List.drop_zero, zeroImage, List.take_replicate]
  decide

/-- The restart changes the byte past the staging area. -/
theorem lostWake_byte : ((lostWake zeroImage).retLost 0xFFFF).byte (corrBase + 0x800000) = 1#8 := by
  obtain ⟨hlen, hmagic⟩ := zeroImage_facts
  generalize zeroImage = bs at hlen hmagic
  obtain ⟨hm, he, hl, hr⟩ := (lostWake bs).retCleared_effect 0xFFFF
  have hsynd : ((lostWake bs).retCleared 0xFFFF).ecc.synd = [(endWord, 0x31)] := by rw [he]; rfl
  have hready : ((lostWake bs).retCleared 0xFFFF).isF fTOP_START_STATUS_DRAM_READY = false :=
    hr.trans ((State.isF_congr (State.reg_of_regs (s := State.reset) rfl _)).trans (by decide))
  have hbyte : ((lostWake bs).retCleared 0xFFFF).byte (corrBase + 0x800000) = 0#8 := (congrArg (fun m => tabGet (fun _ => 0#8) m (corrBase + 0x800000)) hm).trans rfl
  rw [State.retLost_eq]
  have hA : ((lostWake bs).retCleared 0xFFFF).loader.flashA.bytes = bs := by rw [hl]; rfl
  have hB : ((lostWake bs).retCleared 0xFFFF).loader.flashB.bytes = [] := by rw [hl]; rfl
  generalize (lostWake bs).retCleared 0xFFFF = u at hsynd hready hbyte hA hB
  rw [State.byte_bootLoad_fails (checkPhase0_magic u (by rw [hA]; exact hmagic)) hB, hA, State.byte_stageFile_end hready hlen hsynd, hbyte]
  rfl

/-- Refutes O45: a syndrome at an address off the word boundaries, at the end of correction memory: staging a full flash image corrects
that word, and with it a byte past the area that the clause of a lost retention image excepts. -/
theorem not_powerWakes : ¬ Obligations.PowerWakes := by
  unfold Obligations.PowerWakes
  rintro ⟨-, -, -, -, hlost, -⟩
  obtain ⟨-, hmagic⟩ := zeroImage_facts
  obtain ⟨t, hx, -, -, -, -, hbytes⟩ := hlost (lostWake zeroImage) [] 0xFFFF errBadMagic errBadMagic rfl rfl (lostWake_check zeroImage)
    (checkPhase0_magic _ hmagic) (checkPhase0_magic _ (by decide))
  have heq : exec .deepSleepWake (lostWake zeroImage) = .next ((lostWake zeroImage).retLost 0xFFFF) := by
    have h : exec .deepSleepWake (lostWake zeroImage) = execDeepSleepWake (lostWake zeroImage) := rfl
    have hgo : ¬((lostWake zeroImage).boot.warm = false ∨ (lostWake zeroImage).boot.phase ≠ .waitPmic) := by
      rw [show (lostWake zeroImage).boot.warm = true from rfl, show (lostWake zeroImage).boot.phase = .waitPmic from rfl]
      decide
    rw [h, execDeepSleepWake, if_neg hgo, lostWake_check]
  rw [heq] at hx
  have ht : (lostWake zeroImage).retLost 0xFFFF = t := by injection hx
  have hsame := hbytes (corrBase + 0x800000) (.inr (Nat.le_refl _))
  rw [← ht, lostWake_byte] at hsame
  exact absurd hsame (by decide)

end Sys2Proof.Machine

/-! ## Composition (O46): flips and raw addresses (R127 to R160) -/

namespace Sys2Proof.Machine

/-! ### Parts that quiet changes and registers leave -/

theorem Quiet.comp {l : List Nat} {s t : State} (q : Quiet l s t) : t.comp = s.comp := by rw [q.rest]

theorem OnlyRegs.comp {l : List Nat} {s t : State} (q : OnlyRegs l s t) : t.comp = s.comp := by rw [q.rest]

theorem MemEv.comp {s t : State} (q : MemEv s t) : t.comp = s.comp := by rw [q.rest]

theorem Quiet.withComp {l : List Nat} {s u : State} (q : Quiet l s u) (x : Comp) : Quiet l { s with comp := x } { u with comp := x } := by
  refine ⟨?_, q.regs⟩
  conv_lhs => rw [q.rest]

/-! ### Flips -/

/-- With nothing in flight nothing arrives (R150). -/
theorem State.cross_of_empty {s : State} (h : s.comp.flight = []) (c : Cross) :
    s.cross c = { s with comp := { s.comp with flight := [(s.time.now, c)] } } := by
  have hs : s.settleCross = s := by
    rw [State.settleCross, h]
    simp only [List.takeWhile_nil, List.length_nil, List.drop_nil, List.foldl_nil]
    rw [← h]
  rw [State.cross, hs, h]
  rfl

theorem State.refuseFlip_quiet (s : State) (g : Fin 4) (why : Nat) :
    Quiet [rMSG_FLIP_FLAGS g, rMSG_REFUSED_COUNT g] s (s.refuseFlip g why) := by
  rw [State.refuseFlip]
  exact (((Quiet.refl _ s).raise (.inl (by simp)) (.inl (by simp))).setF (.inl (by simp))).postOnce (by decide)

/-- The registers of events lie together, but for the injection's. -/
theorem not_mem_evRegs {off : Nat} (h : off < 0xC0210 ∨ 0xC0344 < off ∧ off ≠ 0x300138) : off ∉ evRegs := by
  have hev : ∀ o ∈ evRegs, 0xC0210 ≤ o ∧ (o ≤ 0xC0344 ∨ o = 0x300138) := by decide
  intro hin
  have := hev off hin
  omega

theorem does_flipCommit_taken {g : Fin 4} {mask : Word} {s : State} (ht : Takes s (rMSG_FLIP_COMMIT g)) (hwait : s.isF (fMSG_FLIP_FENCE_WAIT g) = false)
    (hfly : s.comp.flight = [])
    (hwhy : s.flipReason .regs g mask.toNat (s.reg (rMSG_FLIP_ORDER g)) ((maskLayers mask.toNat).map (fun l => (l, s.regWords (rMSG_FLIP_STAGE l 0) 8))) = 0) :
    Does (.flipCommit g mask) s (fun t =>
      t.getF (fMSG_FLIP_STATUS_COMMIT_SEQ g) = (s.getF (fMSG_FLIP_STATUS_COMMIT_SEQ g) + 1) % 65536
      ∧ t.comp.flight = [(s.time.now, .flip g ⟨mask.toNat, (maskLayers mask.toNat).map (fun l => (l, s.regWords (rMSG_FLIP_STAGE l 0) 8)),
          s.reg (rMSG_FLIP_ORDER g), none, s.reg (rMSG_FLIP_TARGET g), (s.getF (fMSG_FLIP_STATUS_COMMIT_SEQ g) + 1) % 65536⟩)]
      ∧ Quiet [rMSG_FLIP_STATUS g] { s with comp := t.comp } t) := by
  have hoff : rMSG_FLIP_COMMIT g < 0x100000 := by
    unfold rMSG_FLIP_COMMIT
    omega
  refine does_viaReg (act := fun s => s.flipCommit g mask.toNat) ht hoff rfl ?_
  rw [State.flipCommit, if_neg (by rw [hwait]; decide), State.commitFlip, hwhy, if_neg (by decide)]
  dsimp only
  generalize hseq : (s.getF (fMSG_FLIP_STATUS_COMMIT_SEQ g) + 1) % 65536 = seq
  have hset : Quiet [rMSG_FLIP_STATUS g] s (s.setF (fMSG_FLIP_STATUS_COMMIT_SEQ g) seq) := (Quiet.refl _ s).setF (.inl (by simp))
  have hget := State.getF_setF s (fMSG_FLIP_STATUS_COMMIT_SEQ g) seq (by simp)
  generalize s.setF (fMSG_FLIP_STATUS_COMMIT_SEQ g) seq = u at hset hget
  rw [State.cross_of_empty (by rw [hset.comp]; exact hfly)]
  have htime : u.time = s.time := hset.time_eq
  refine ⟨?_, ?_, hset.withComp _⟩
  · show u.getF _ = seq
    rw [hget, ← hseq]
    exact Nat.mod_mod _ _
  · show [(u.time.now, _)] = _
    rw [htime]

/-! ### A flag raised -/

theorem State.isF_setF_other (s : State) (f g : Fld) (n : Nat) (h : f.lo + f.w ≤ 32) (k : g.off ≠ f.off ∨ g.lo + g.w ≤ f.lo ∨ f.lo + f.w ≤ g.lo) :
    (s.setF f n).isF g = s.isF g := by
  rw [State.isF, State.getF_setF_other _ _ _ _ h k]
  rfl

theorem State.isF_raise_self (s : State) {f : Fld} {c : Nat} (hw : f.w = 1) (hf : f.lo + f.w ≤ 32) (hc : f.off ≠ c) : (s.raise f c).isF f = true := by
  rw [State.isF_raise _ hc, State.isF_setF_one _ hw hf]

theorem does_flipCommit_refused {g : Fin 4} {mask : Word} {s : State} (ht : Takes s (rMSG_FLIP_COMMIT g))
    (hwhy : s.flipReason .regs g mask.toNat (s.reg (rMSG_FLIP_ORDER g)) ((maskLayers mask.toNat).map (fun l => (l, s.regWords (rMSG_FLIP_STAGE l 0) 8))) ≠ 0) :
    Does (.flipCommit g mask) s (fun t => t.comp = s.comp ∧ t.isF (fMSG_FLIP_FLAGS_REFUSED g) = true
      ∧ t.getF (fMSG_FLIP_STATUS_COMMIT_SEQ g) = s.getF (fMSG_FLIP_STATUS_COMMIT_SEQ g) ∧ t.mem = s.mem) := by
  have hoff : rMSG_FLIP_COMMIT g < 0x100000 := by
    unfold rMSG_FLIP_COMMIT
    omega
  refine does_viaReg (act := fun s => s.flipCommit g mask.toNat) ht hoff rfl ?_
  rw [State.flipCommit, State.commitFlip]
  dsimp only
  rw [if_pos hwhy]
  generalize s.flipReason _ _ _ _ _ = why
  have hq := s.refuseFlip_quiet g why
  refine ⟨hq.comp, ?_, hq.getF _ ?_ (not_mem_evRegs ?_), hq.mem_eq⟩
  · rw [State.refuseFlip]
    dsimp only
    generalize State.lampFrame _ = stamp
    have hraise := s.isF_raise_self (f := fMSG_FLIP_FLAGS_REFUSED g) (c := rMSG_REFUSED_COUNT g) rfl (by simp) (by simp)
    generalize s.raise (fMSG_FLIP_FLAGS_REFUSED g) (rMSG_REFUSED_COUNT g) = u at hraise
    have hset := State.isF_setF_other u (fMSG_FLIP_FLAGS_REASON g) (fMSG_FLIP_FLAGS_REFUSED g) why (by simp) (by simp)
    generalize u.setF (fMSG_FLIP_FLAGS_REASON g) why = v at hset
    have hpost : Quiet [] v (v.postOnce evCOMPOSE_FLIP_REFUSED g stamp srcMSG (2 ^ 30 * g + why)) := (Quiet.refl _ v).postOnce (by decide)
    rw [hpost.isF _ (by simp) (not_mem_evRegs (by simp only [rMSG_FLIP_FLAGS]; omega)), hset, hraise]
  · simp
  · simp only [rMSG_FLIP_STATUS]
    omega

/-! ### Raw addresses (R157) -/

/-- The descriptors of the layers and memory stay. -/
def DescKept (s t : State) : Prop := t.comp.desc = s.comp.desc ∧ t.mem = s.mem

theorem DescKept.rebaseLayers {s : State} (l : Nat) (d : List Word) (ns : List Nat) :
    ∀ {u : State}, DescKept s u → DescKept s (ns.foldl (fun s n => s.rebaseLayer l d n) u) := by
  induction ns with
  | nil => exact fun h => h
  | cons n ns ih =>
    refine fun {u} h => ih ?_
    show DescKept s (u.rebaseLayer l d n)
    unfold State.rebaseLayer
    dsimp only
    split
    · exact ⟨h.1, h.2⟩
    · exact ⟨h.1, h.2⟩

/-- The layer's descriptor with the address of the two registers. -/
def State.rawDesc (s : State) (l : Nat) (lo : Word) : List Word :=
  ((s.flipDesc l).set 0 lo).set 1 (BitVec.ofNat 32 (putBits (nth 0#32 (s.flipDesc l) 1).toNat 0 8 (s.regN (rMSG_LAYER_RAW_ADDR_HI l) % 256)))

/-- The layer's descriptor replaced, the pipelines on it turned to the new address. -/
def State.rawSet (s : State) (l : Nat) (d : List Word) : State :=
  let u := if s.onFallback l then s else (List.range 4).foldl (fun s n => s.rebaseLayer l d n) s
  { u with comp := { u.comp with desc := tabSet (fun _ => []) u.comp.desc l d } }

/-- And the layer's registers show it. -/
def State.rawShow (s : State) (l : Nat) (d : List Word) : State := if s.onFallback l then s else s.setRegWords (rMSG_LAYER_ACTIVE l 0) d

theorem State.rawSet_desc (s : State) (l : Nat) (d : List Word) :
    ((s.rawSet l d).rawShow l d).comp.desc = tabSet (fun _ => []) s.comp.desc l d ∧ ((s.rawSet l d).rawShow l d).mem = s.mem := by
  have hrest : DescKept s (if s.onFallback l then s else (List.range 4).foldl (fun s n => s.rebaseLayer l d n) s) := by
    split
    · exact ⟨rfl, rfl⟩
    · exact DescKept.rebaseLayers l d _ ⟨rfl, rfl⟩
  have hset : (s.rawSet l d).comp.desc = tabSet (fun _ => []) s.comp.desc l d ∧ (s.rawSet l d).mem = s.mem := by
    rw [← hrest.1, ← hrest.2]
    exact ⟨rfl, rfl⟩
  rw [State.rawShow]
  split
  · exact hset
  · rw [State.setRegWords_rest]
    exact hset

theorem State.rawAddr_taken {s : State} {l : Nat} {lo : Word} (hen : s.isF (fMSG_LAYER_CFG_RAW_EN l) = true)
    (hnever : s.isF (fMSG_LAYER_STATUS_NEVER_FLIPPED l) = false) (h5 : s.descReason l (s.rawDesc l lo) ≠ 5) (h7 : s.descReason l (s.rawDesc l lo) ≠ 7) :
    (s.rawAddr l lo).flipDesc l = s.rawDesc l lo ∧ (∀ k, k ≠ l → (s.rawAddr l lo).flipDesc k = s.flipDesc k) ∧ (s.rawAddr l lo).mem = s.mem := by
  have hgo : ¬(s.isF (fMSG_LAYER_CFG_RAW_EN l) = false ∨ s.isF (fMSG_LAYER_STATUS_NEVER_FLIPPED l) = true
      ∨ decide (s.descReason l (s.rawDesc l lo) = 5 ∨ s.descReason l (s.rawDesc l lo) = 7) = true) := by
    rw [hen, hnever]
    simp [h5, h7]
  obtain ⟨hdesc, hmem⟩ := s.rawSet_desc l (s.rawDesc l lo)
  have hraw : s.rawAddr l lo = ((s.rawSet l (s.rawDesc l lo)).rawShow l (s.rawDesc l lo)).postOnce evCOMPOSE_RAW_TEAR l
      ((s.rawSet l (s.rawDesc l lo)).rawShow l (s.rawDesc l lo)).lampFrame srcMSG (2 ^ 29 * l) := if_neg hgo
  generalize (s.rawSet l (s.rawDesc l lo)).rawShow l (s.rawDesc l lo) = u at hdesc hmem hraw
  have hpost : Quiet [] u (s.rawAddr l lo) := by
    rw [hraw]
    exact (Quiet.refl _ u).postOnce (by decide)
  refine ⟨?_, fun k hk => ?_, hpost.mem_eq.trans hmem⟩
  · rw [State.flipDesc, hpost.comp, hdesc, tabGet_tabSet, if_pos rfl]
  · rw [State.flipDesc, hpost.comp, hdesc, tabGet_tabSet, if_neg hk]
    rfl

theorem State.rawAddr_refused {s : State} {l : Nat} {lo : Word} (hen : s.isF (fMSG_LAYER_CFG_RAW_EN l) = false) : Quiet [] s (s.rawAddr l lo) := by
  have hraw : s.rawAddr l lo = _ := if_pos (.inl hen)
  rw [hraw]
  exact (Quiet.refl _ s).postOnce (by decide)

theorem does_rawAddrWrite {l : Fin 8} {lo : Word} {s : State} (ht : Takes s (rMSG_LAYER_RAW_ADDR_LO l)) {P : State → Prop} (h : P (s.rawAddr l lo)) :
    Does (.rawAddrWrite l lo) s P := by
  refine does_viaReg (act := fun s => s.rawAddr l lo) ht ?_ rfl h
  unfold rMSG_LAYER_RAW_ADDR_LO
  omega

/-! ### Rows (R146) -/

/-- The rows that the pipelines have composed stay. -/
def RowKept (s t : State) : Prop := t.comp.row = s.comp.row

theorem RowKept.quiet {s u t : State} {l : List Nat} (h : RowKept s u) (q : Quiet l u t) : RowKept s t := by rw [RowKept, q.comp]; exact h

theorem RowKept.memEv {s u t : State} (h : RowKept s u) (q : MemEv u t) : RowKept s t := by rw [RowKept, q.comp]; exact h

theorem RowKept.foldl {α : Type} {s : State} {F : State → α → State} (hF : ∀ u x, RowKept s u → RowKept s (F u x)) (l : List α) :
    ∀ {u : State}, RowKept s u → RowKept s (l.foldl F u) := by
  induction l with
  | nil => exact fun h => h
  | cons x l ih => exact fun h => ih (hF _ x h)

theorem RowKept.foldl2 {α β : Type} {s : State} {F : β × State → α → β × State} (hF : ∀ a x, RowKept s a.2 → RowKept s (F a x).2) (l : List α) :
    ∀ {u : β × State}, RowKept s u.2 → RowKept s (l.foldl F u).2 := by
  induction l with
  | nil => exact fun h => h
  | cons x l ih => exact fun h => ih (hF _ x h)

theorem MemEv.readSpans {s : State} (l : List (Nat × Nat)) : ∀ {u : State}, MemEv s u → MemEv s (u.readSpans l).2 := by
  induction l with
  | nil => exact fun h => h
  | cons r l ih =>
    intro u h
    have hq := h.checkRange r.1 r.2
    rw [State.readSpans]
    split
    · exact hq
    · exact ih hq

theorem MemEv.readPlanes {s : State} (f : Surf) (k : Nat) : ∀ {u : State} (a : Nat), MemEv s u → MemEv s (u.readPlanes f a k).2 := by
  induction k with
  | zero => exact fun _ h => h
  | succ k ih =>
    intro u a h
    have hq := h.checkRange a 8
    rw [State.readPlanes]
    split
    · exact h
    · dsimp only
      split
      · exact hq
      · exact ih _ hq

theorem MemEv.readHead {s u : State} (h : MemEv s u) (f : Surf) (bx ys : Nat) : MemEv s (u.readHead f bx ys).2 := by
  have hq := h.checkRange (f.header bx ys) 4
  unfold State.readHead
  extract_lets hd q w
  split
  · exact h
  · split
    · exact hq
    · exact hq.readPlanes f _ _

theorem MemEv.readUnit {s u : State} (h : MemEv s u) (f : Surf) (x : FetchUnit) : MemEv s (u.readUnit f x).2 := by
  cases x with
  | piece a => exact h.checkRange a 64
  | block bx ys =>
    have hq := h.readHead f bx ys
    show MemEv s (u.readBlock f bx ys).2
    unfold State.readBlock
    extract_lets q
    split
    · exact hq
    · split
      · exact hq
      · exact hq.readSpans _

theorem State.decodeErr_quiet (s : State) (n l i : Nat) :
    Quiet [rCP_STATUS n, rCP_DECODE_ERR_COUNT n, rCP_DECODE_ERR_INFO n] s (s.decodeErr n l i) := by
  rw [State.decodeErr]
  exact ((((Quiet.refl _ s).raise (.inl (by simp)) (.inl (by simp))).setF (.inl (by simp))).setF (.inl (by simp))).postOnce (by decide)

theorem RowKept.fetchUnit {s u : State} (h : RowKept s u) (n l : Nat) (f : Surf) (x : FetchUnit) : RowKept s (u.fetchUnit n l f x) := by
  have hq := h.memEv ((MemEv.refl u).readUnit f x)
  rw [State.fetchUnit]
  split
  · exact hq.quiet (State.decodeErr_quiet _ n l _)
  · exact hq

theorem RowKept.baseUsed {s u : State} (h : RowKept s u) (n l a : Nat) : RowKept s (u.baseUsed n l a) := by
  unfold State.baseUsed
  split
  · exact h
  · split
    · exact h
    · exact h

theorem RowKept.fetchLayer {s u : State} (h : RowKept s u) (n y : Nat) (p : Nat × Surf) : RowKept s (u.fetchLayer n y p) := by
  obtain ⟨l, f⟩ := p
  unfold State.fetchLayer
  dsimp only
  split
  · exact h
  · split
    · exact h
    · exact RowKept.foldl (fun v q hv => RowKept.foldl (fun w x hw => hw.fetchUnit n _ _ x) _ (hv.baseUsed n _ _)) _ h

theorem RowKept.synFound {s u : State} (h : RowKept s u) (r syn : Nat) : RowKept s (u.synFound r syn).2 := by
  have hfresh : RowKept s u.fresh.2 := h
  rw [State.synFound]
  generalize u.fresh = q at hfresh
  obtain ⟨a, w⟩ := q
  dsimp only
  split
  · exact hfresh
  · exact hfresh.memEv ((MemEv.refl w).noteCe _ _ _)
  · exact hfresh.memEv ((MemEv.refl w).noteUe _ _ _)

theorem RowKept.injectFound {s u : State} (h : RowKept s u) (r : Nat) : RowKept s (u.injectFound r).2 := by
  have hset : RowKept s (u.setF fMEM_ECC_INJECT_ARM 0) := h.quiet ((Quiet.refl [rMEM_ECC_INJECT] u).setF (.inl (by simp)))
  exact hset.synFound r u.injectSynd

theorem RowKept.lineInject {s u : State} (h : RowKept s u) (n y : Nat) (row : List Nat) : RowKept s (u.lineInject n y row).2 := by
  have hfound := h.injectFound 5
  unfold State.lineInject
  extract_lets cols
  split
  · generalize u.injectFound 5 = q at hfound
    obtain ⟨b, v⟩ := q
    dsimp only
    split
    · exact hfound
    · exact hfound
  · exact h

theorem State.selMismatch_quiet (s : State) (n i : Nat) : Quiet [rPRESS_STATUS n, rPRESS_SEL_MISMATCH_COUNT n] s (s.selMismatch n i) := by
  rw [State.selMismatch]
  exact ((Quiet.refl _ s).raise (.inl (by simp)) (.inl (by simp))).postOnce (by decide)

theorem RowKept.corrUe {s u : State} (h : RowKept s u) (n i : Nat) : RowKept s (u.corrUe n i) := by
  rw [State.corrUe]
  generalize hv : u.updPr n _ = v
  have hrow : RowKept s v := by
    rw [← hv]
    exact h
  exact hrow.quiet (((Quiet.refl [rPRESS_STATUS n, rPRESS_CORR_UE_COUNT n] v).raise (.inl (by simp)) (.inl (by simp))).postOnce (by decide))

theorem RowKept.pressRead {s u : State} (h : RowKept s u) (n x y : Nat) : RowKept s (u.pressRead n x y).2 := by
  have hread := h.memEv ((MemEv.refl u).checkRange (recAddr n (512 * y + x)) 8)
  unfold State.pressRead
  dsimp only
  split
  · exact hread.corrUe _ _
  · split
    · exact hread.quiet (State.selMismatch_quiet _ n _)
    · exact hread

theorem RowKept.pressPixels {s u : State} (h : RowKept s u) (n y : Nat) : RowKept s (u.pressPixels n y).2 := by
  unfold State.pressPixels
  generalize List.range 512 = l
  split
  · generalize hq : List.foldl _ _ l = q
    have hrow : RowKept s q.2 := by
      rw [← hq]
      refine RowKept.foldl2 (fun a x ha => ?_) l (u := ([], u)) h
      have hread := ha.pressRead n x y
      dsimp only
      generalize a.2.pressRead n x y = q at hread
      obtain ⟨p, v⟩ := q
      exact hread
    obtain ⟨px, v⟩ := q
    exact hrow
  · exact RowKept.foldl (fun v x hv => hv.quiet (State.selMismatch_quiet _ n _)) _ h

theorem RowKept.pressFill {s : State} (n k : Nat) : ∀ {u : State}, RowKept s u → RowKept s (u.pressFill n k) := by
  induction k with
  | zero => exact fun h => h
  | succ k ih =>
    intro u h
    rw [State.pressFill]
    dsimp only
    split
    · have hrow := h.pressPixels n (u.pr n).made
      rw [State.pressRow]
      generalize u.pressPixels n (u.pr n).made = q at hrow
      exact ih (u := q.2.updPr n _) hrow
    · exact h

theorem does_rowCompose {n : Fin 4} {s : State} {x : Xfer} (hx : (s.tgOf n).xfer = some x) (hend : x.ended = false) (hroom : (s.pr n).room = true)
    (hrow : tabGet (fun _ => 0) s.comp.row n < 512) : Does (.rowCompose n) s (fun t =>
      tabGet (fun _ => 0) t.comp.row n = tabGet (fun _ => 0) s.comp.row n + 1) := by
  refine ⟨_, rfl, ?_⟩
  have hgo : ¬(x.ended = true ∨ 512 ≤ tabGet (fun _ => 0) s.comp.row n ∨ (s.pr n).room = false) := by
    rw [hend, hroom]
    simpa using hrow
  unfold State.rowCompose
  dsimp only
  rw [hx]
  dsimp only
  rw [if_neg hgo]
  generalize tabGet (fun _ => 0) s.comp.row n = y
  have hfetch : RowKept s ((s.shownLayers n).foldl (fun s p => s.fetchLayer n y p) s) := RowKept.foldl (fun v p hv => hv.fetchLayer n _ p) _ rfl
  generalize (s.shownLayers n).foldl (fun s p => s.fetchLayer n y p) s = u at hfetch
  have hline := hfetch.lineInject n y (u.beamRow n y)
  generalize u.lineInject n y (u.beamRow n y) = q at hline
  generalize hv : State.updPr q.2 n _ = v
  have hset : RowKept { v with comp := { v.comp with row := tabSet (fun _ => 0) v.comp.row n (y + 1) } } _ := RowKept.pressFill n 4 rfl
  rw [hset, tabGet_tabSet, if_pos rfl]

end Sys2Proof.Machine

/-! ## Capture writers (O46, R138 to R140, R328) -/

namespace Sys2Proof.Machine

/-! ### What the choice of a buffer depends on -/

theorem State.regWords_congr {s t : State} : ∀ (n off : Nat), (∀ o, off ≤ o → t.reg o = s.reg o) → t.regWords off n = s.regWords off n
  | 0, _, _ => rfl
  | n + 1, off, h => by
    rw [State.regWords, State.regWords, h off (le_refl off), State.regWords_congr n (off + 4) fun o ho => h o (by omega)]

/-- Registers of composition (0xC0000 up) and what is pending or in flight decide whether a base is in use. -/
theorem State.baseInUse_congr {s t : State} (hregs : ∀ off, 0xC1000 ≤ off → t.reg off = s.reg off) (hpend : t.comp.pend = s.comp.pend)
    (hfly : t.comp.flight = s.comp.flight) (a : Nat) : t.baseInUse a = s.baseInUse a := by
  have hvalid : ∀ l, t.layValid l = s.layValid l := fun l => State.isF_congr (hregs _ (by simp [rMSG_LAYER_CFG]; omega))
  have hact : ∀ l k, rMSG_LAYER_ACTIVE l k ≥ 0xC1000 := fun l k => by
    unfold rMSG_LAYER_ACTIVE
    omega
  have hwords : ∀ l, t.regWords (rMSG_LAYER_ACTIVE l 0) 8 = s.regWords (rMSG_LAYER_ACTIVE l 0) 8 := fun l =>
    State.regWords_congr 8 _ fun o ho => hregs o (le_trans (hact l 0) ho)
  simp only [State.baseInUse, hpend, hfly, hvalid, hwords, fun l => hregs _ (hact l 1)]

/-- The registers of writer `w` from BUF on, without STATUS. -/
theorem State.capBase_congr {s t : State} {w b : Nat} (hb : b < 4) (hregs : ∀ off, rHOSTIF_CAPW_BUF w 0 ≤ off → off < rHOSTIF_CAPW_STATUS w → t.reg off = s.reg off) :
    t.capBase w b = s.capBase w b := by
  rw [State.capBase, State.capBase, State.regN_congr (hregs (rHOSTIF_CAPW_BUF w b) ?_ ?_), State.regN_congr (hregs (rHOSTIF_CAPW_BUF_HI w) ?_ ?_)]
  all_goals
    simp only [rHOSTIF_CAPW_BUF, rHOSTIF_CAPW_STATUS, rHOSTIF_CAPW_BUF_HI]
    omega

theorem State.getF_lt (s : State) (f : Fld) : s.getF f < 2 ^ f.w := Nat.mod_lt _ (Nat.two_pow_pos _)

theorem State.bufs_lt (s : State) (w k : Nat) : k % (s.getF (fHOSTIF_CAPW_CFG_BUFS w) + 1) < 4 := by
  have h : s.getF (fHOSTIF_CAPW_CFG_BUFS w) < 2 ^ 2 := s.getF_lt _
  have := Nat.mod_lt k (y := s.getF (fHOSTIF_CAPW_CFG_BUFS w) + 1) (Nat.succ_pos _)
  omega

theorem State.capsOn_congr {s t : State} (h : ∀ w, w < 8 → t.reg (rHOSTIF_CAPW_CFG w) = s.reg (rHOSTIF_CAPW_CFG w)) (rx vc : Nat) :
    t.capsOn rx vc = s.capsOn rx vc :=
  List.filter_congr fun w hw => by
    have hreg := h w (List.mem_range.1 hw)
    rw [State.isF_congr (f := fHOSTIF_CAPW_CFG_EN w) hreg, State.getF_congr (f := fHOSTIF_CAPW_CFG_RX w) hreg, State.getF_congr (f := fHOSTIF_CAPW_CFG_VC w) hreg]

theorem State.lt_of_capsOn {s : State} {rx vc w : Nat} (h : s.capsOn rx vc = [w]) : w < 8 := by
  have hw : w ∈ s.capsOn rx vc := by simp [h]
  exact List.mem_range.1 (List.mem_of_mem_filter hw)

/-! ### A packet's header -/

theorem State.csiHead_only (s : State) (rx hdr : Nat) : OnlyRegs [rHOSTIF_CSI_ECC_CORR rx] s (s.csiHead rx hdr) := by
  unfold State.csiHead
  split
  · exact (OnlyRegs.refl _ s).bump (by simp)
  · exact .refl _ s

theorem State.csiHead_corr (s : State) (rx hdr : Nat) : (s.csiHead rx hdr).regN (rHOSTIF_CSI_ECC_CORR rx)
    = if hdr = 1 then min 0xFFFF (s.regN (rHOSTIF_CSI_ECC_CORR rx) + 1) else s.regN (rHOSTIF_CSI_ECC_CORR rx) := by
  unfold State.csiHead
  split
  · rw [State.regN_bump, Nat.min_comm]
  · rfl

/-! ### Frame starts -/

theorem State.capw_setCapw (s : State) (w : Nat) (c : CapW) : (s.setCapw w c).capw w = c := by
  rw [State.capw, State.setCapw, tabGet_tabSet, if_pos rfl]

theorem State.capDrop_effect (s : State) {w : Nat} (hw : w < 8) :
    (s.capDrop w).mem = s.mem ∧ (s.capDrop w).capw w = { s.capw w with skip := true }
      ∧ (s.capDrop w).regN (rHOSTIF_CAPW_DROP_COUNT w) = min 0xFFFF (s.regN (rHOSTIF_CAPW_DROP_COUNT w) + 1)
      ∧ ∀ off, off < rHOSTIF_CAPW_CFG 0 → (s.capDrop w).reg off = s.reg off := by
  have hset := s.capw_setCapw w { s.capw w with skip := true }
  have hbase : OnlyRegs [] (s.setCapw w { s.capw w with skip := true }) (s.setCapw w { s.capw w with skip := true }) := .refl _ _
  have hmem : (s.setCapw w { s.capw w with skip := true }).mem = s.mem := rfl
  have hreg : ∀ off, (s.setCapw w { s.capw w with skip := true }).reg off = s.reg off := fun _ => rfl
  rw [State.capDrop]
  dsimp only
  generalize s.setCapw w { s.capw w with skip := true } = u at hset hmem hreg
  have hcount := u.regN_bump (rHOSTIF_CAPW_DROP_COUNT w)
  have hbump : Quiet [rHOSTIF_CAPW_DROP_COUNT w] u (u.bump (rHOSTIF_CAPW_DROP_COUNT w)) := (Quiet.refl _ u).bump (.inl (by simp))
  generalize u.bump (rHOSTIF_CAPW_DROP_COUNT w) = v at hcount hbump
  have hpost : Quiet [] v (v.postOnce evCOMPOSE_CAPTURE_DROP w v.lampFrame srcHOSTIF (2 ^ 29 * w + v.regN (rHOSTIF_CAPW_FRAME_COUNT w) % 65536)) :=
    (Quiet.refl _ v).postOnce (by decide)
  refine ⟨hpost.mem_eq.trans (hbump.mem_eq.trans hmem), ?_, ?_, fun off ho => ?_⟩
  · rw [State.capw, hpost.comp, hbump.comp]
    exact hset
  · rw [hpost.regN (by simp) (not_mem_evRegs (by simp only [rHOSTIF_CAPW_DROP_COUNT]; omega)), hcount, State.regN_congr (hreg _), Nat.min_comm]
  · simp only [rHOSTIF_CAPW_CFG] at ho
    rw [hpost.regs _ (by simp) (not_mem_evRegs (by omega)), hbump.regs _ (by simp [rHOSTIF_CAPW_DROP_COUNT]; omega) (not_mem_evRegs (by omega)), hreg]

/-- Writer `w` opened on its next buffer. -/
def State.capOpened (s : State) (w : Nat) : State :=
  let b := (s.capw w).next % (s.getF (fHOSTIF_CAPW_CFG_BUFS w) + 1)
  (s.setCapw w { started := true, buf := b, next := (s.capw w).next + 1 }).setF (fHOSTIF_CAPW_STATUS_BUF w) b

theorem State.capOpened_effect (s : State) (w : Nat) :
    (s.capOpened w).mem = s.mem
      ∧ (s.capOpened w).capw w = { started := true, buf := (s.capw w).next % (s.getF (fHOSTIF_CAPW_CFG_BUFS w) + 1), next := (s.capw w).next + 1 }
      ∧ (∀ off, off ≠ rHOSTIF_CAPW_STATUS w → (s.capOpened w).reg off = s.reg off)
      ∧ (s.capOpened w).comp.pend = s.comp.pend ∧ (s.capOpened w).comp.flight = s.comp.flight := by
  rw [State.capOpened]
  generalize (s.capw w).next % (s.getF (fHOSTIF_CAPW_CFG_BUFS w) + 1) = b
  have hset := s.capw_setCapw w { started := true, buf := b, next := (s.capw w).next + 1 }
  have hreg : ∀ off, (s.setCapw w { started := true, buf := b, next := (s.capw w).next + 1 }).reg off = s.reg off := fun _ => rfl
  have hmem : (s.setCapw w { started := true, buf := b, next := (s.capw w).next + 1 }).mem = s.mem := rfl
  have hcomp : (s.setCapw w { started := true, buf := b, next := (s.capw w).next + 1 }).comp.pend = s.comp.pend
      ∧ (s.setCapw w { started := true, buf := b, next := (s.capw w).next + 1 }).comp.flight = s.comp.flight := ⟨rfl, rfl⟩
  generalize s.setCapw w { started := true, buf := b, next := (s.capw w).next + 1 } = u at hset hreg hmem hcomp
  have honly : OnlyRegs [rHOSTIF_CAPW_STATUS w] u (u.setF (fHOSTIF_CAPW_STATUS_BUF w) b) := (OnlyRegs.refl _ u).setF (by simp)
  refine ⟨honly.mem_eq.trans hmem, ?_, fun off ho => ?_, ?_, ?_⟩
  · rw [State.capw, honly.comp]
    exact hset
  · rw [honly.regs _ (by simpa using ho), hreg]
  · rw [honly.comp]
    exact hcomp.1
  · rw [honly.comp]
    exact hcomp.2

theorem State.capStart_eq {s : State} {w : Nat} (hw : w < 8) :
    s.capStart w = if s.baseInUse (s.capBase w ((s.capw w).next % (s.getF (fHOSTIF_CAPW_CFG_BUFS w) + 1))) then (s.capOpened w).capDrop w else s.capOpened w := by
  obtain ⟨-, -, hregs, hpend, hfly⟩ := s.capOpened_effect w
  have hbase : (s.capOpened w).capBase w ((s.capw w).next % (s.getF (fHOSTIF_CAPW_CFG_BUFS w) + 1))
      = s.capBase w ((s.capw w).next % (s.getF (fHOSTIF_CAPW_CFG_BUFS w) + 1)) :=
    State.capBase_congr (s.bufs_lt w _) fun off _ ho => hregs off (Nat.ne_of_lt ho)
  have huse := State.baseInUse_congr (s := s) (t := s.capOpened w) (fun off ho => hregs off (by simp only [rHOSTIF_CAPW_STATUS]; omega)) hpend hfly
  show (s.capOpened w).capInto w _ = _
  rw [State.capInto, hbase, huse]

/-- What the header of a short packet leaves for its writers. -/
theorem State.csiShort_eq {s : State} {rx : Fin 2} {vc : Fin 4} {hdr : Fin 3} {w : Nat} (hon : s.csiOn rx = true) (hcaps : s.capsOn rx vc = [w])
    (act : Nat → State → State) (hhdr : hdr ≠ 2) : s.csiShort rx vc hdr act = act w (s.csiHead rx hdr) := by
  have honly := s.csiHead_only rx hdr
  have hcaps' : (s.csiHead rx hdr).capsOn rx vc = [w] := by
    rw [← hcaps]
    refine State.capsOn_congr (fun k hk => honly.regs _ ?_) rx vc
    simp [rHOSTIF_CAPW_CFG, rHOSTIF_CSI_ECC_CORR]
    omega
  have hne : ¬(hdr : Nat) = 2 := fun h => hhdr (Fin.ext h)
  rw [State.csiShort, hon, if_neg (by decide)]
  dsimp only
  rw [if_neg hne, hcaps']
  rfl

section
variable {rx : Fin 2} {vc : Fin 4} {hdr : Fin 3} {w : Nat} {s : State}

/-- The next buffer's use, as the header leaves it. -/
theorem State.csiHead_next (hw : w < 8) (s : State) (rx : Fin 2) (hdr : Fin 3) :
    let b := (s.capw w).next % (s.getF (fHOSTIF_CAPW_CFG_BUFS w) + 1)
    let u := s.csiHead rx hdr
    (u.capw w).next % (u.getF (fHOSTIF_CAPW_CFG_BUFS w) + 1) = b ∧ u.baseInUse (u.capBase w b) = s.baseInUse (s.capBase w b) := by
  intro b u
  have honly := s.csiHead_only rx hdr
  have hcapw : u.capw w = s.capw w := by
    rw [State.capw, honly.comp]
    rfl
  have hreg : ∀ off, rHOSTIF_CAPW_CFG 0 ≤ off → u.reg off = s.reg off := fun off ho => honly.regs off (by
    simp only [rHOSTIF_CAPW_CFG] at ho
    simp [rHOSTIF_CSI_ECC_CORR]
    omega)
  have hbufs : u.getF (fHOSTIF_CAPW_CFG_BUFS w) = s.getF (fHOSTIF_CAPW_CFG_BUFS w) := State.getF_congr (hreg _ (by simp [rHOSTIF_CAPW_CFG]))
  refine ⟨by rw [hcapw, hbufs], ?_⟩
  rw [State.capBase_congr (s := s) (s.bufs_lt w _) fun off ho _ => hreg off (by simp only [rHOSTIF_CAPW_BUF, rHOSTIF_CAPW_CFG] at ho ⊢; omega),
    State.baseInUse_congr (s := s) (fun off ho => hreg off (by simp only [rHOSTIF_CAPW_CFG]; omega)) (by rw [honly.comp]) (by rw [honly.comp])]

theorem does_csiFrameStart_free (hon : s.csiOn rx = true) (hcaps : s.capsOn rx vc = [w]) (hhdr : hdr ≠ 2)
    (hfree : s.baseInUse (s.capBase w ((s.capw w).next % (s.getF (fHOSTIF_CAPW_CFG_BUFS w) + 1))) = false) :
    Does (.csiFrameStart rx vc hdr) s (fun t => t.mem = s.mem
      ∧ t.capw w = { started := true, buf := (s.capw w).next % (s.getF (fHOSTIF_CAPW_CFG_BUFS w) + 1), next := (s.capw w).next + 1 }
      ∧ t.regN (rHOSTIF_CSI_ECC_CORR rx) = (if hdr = 1 then min 0xFFFF (s.regN (rHOSTIF_CSI_ECC_CORR rx) + 1)
          else s.regN (rHOSTIF_CSI_ECC_CORR rx))) := by
  have hw := State.lt_of_capsOn hcaps
  have hx : exec (.csiFrameStart rx vc hdr) s = .next (s.csiShort rx vc hdr fun w s => s.capStart w) := rfl
  obtain ⟨hb, huse⟩ := State.csiHead_next hw s rx hdr
  have honly := s.csiHead_only rx hdr
  have hcorr := s.csiHead_corr rx hdr
  have hcapw : (s.csiHead rx hdr).capw w = s.capw w := by
    rw [State.capw, honly.comp]
    rfl
  rw [State.csiShort_eq hon hcaps _ hhdr, State.capStart_eq hw, hb, huse, hfree, if_neg (by decide)] at hx
  obtain ⟨hmem, hnew, hregs, -, -⟩ := (s.csiHead rx hdr).capOpened_effect w
  refine ⟨_, hx, hmem.trans honly.mem_eq, ?_, ?_⟩
  · rw [hnew, hb, hcapw]
  · rw [State.regN_congr (hregs _ (by simp [rHOSTIF_CSI_ECC_CORR, rHOSTIF_CAPW_STATUS]; omega)), hcorr]
    simp [Fin.ext_iff]

theorem does_csiFrameStart_used (hon : s.csiOn rx = true) (hcaps : s.capsOn rx vc = [w]) (hhdr : hdr ≠ 2)
    (hused : s.baseInUse (s.capBase w ((s.capw w).next % (s.getF (fHOSTIF_CAPW_CFG_BUFS w) + 1))) = true) :
    Does (.csiFrameStart rx vc hdr) s (fun t => t.mem = s.mem
      ∧ (t.capw w).skip = true ∧ t.regN (rHOSTIF_CAPW_DROP_COUNT w) = min 0xFFFF (s.regN (rHOSTIF_CAPW_DROP_COUNT w) + 1)) := by
  have hw := State.lt_of_capsOn hcaps
  have hx : exec (.csiFrameStart rx vc hdr) s = .next (s.csiShort rx vc hdr fun w s => s.capStart w) := rfl
  obtain ⟨hb, huse⟩ := State.csiHead_next hw s rx hdr
  have honly := s.csiHead_only rx hdr
  rw [State.csiShort_eq hon hcaps _ hhdr, State.capStart_eq hw, hb, huse, hused, if_pos rfl] at hx
  obtain ⟨hmem, -, hregs, -, -⟩ := (s.csiHead rx hdr).capOpened_effect w
  obtain ⟨hmem', hskip, hcount, -⟩ := ((s.csiHead rx hdr).capOpened w).capDrop_effect hw
  refine ⟨_, hx, hmem'.trans (hmem.trans honly.mem_eq), by rw [hskip], ?_⟩
  rw [hcount, State.regN_congr (hregs _ (by simp)), State.regN_congr (honly.regs _ (by simp [rHOSTIF_CSI_ECC_CORR, rHOSTIF_CAPW_DROP_COUNT]; omega))]

/-! ### Headers that are lost -/

theorem State.getF_bumpF (s : State) {f : Fld} (h : f.lo + f.w ≤ 32) (k : Nat) : (s.bumpF f k).getF f = min (2 ^ f.w - 1) (s.getF f + k) := by
  have hpos : 0 < 2 ^ f.w := Nat.two_pow_pos _
  rw [State.bumpF, State.getF_setF _ _ _ h, satAt, Nat.min_comm]
  exact Nat.mod_eq_of_lt (by omega)

theorem State.csiError_effect (s : State) (rx : Fin 2) :
    (s.csiError rx).comp = s.comp ∧ (s.csiError rx).mem = s.mem
      ∧ (s.csiError rx).getF (fHOSTIF_CSI_ERR_ERR rx) = min (2 ^ (fHOSTIF_CSI_ERR_ERR rx).w - 1) (s.getF (fHOSTIF_CSI_ERR_ERR rx) + 1) := by
  have hget := s.getF_bumpF (f := fHOSTIF_CSI_ERR_ERR rx) (by simp) 1
  have honly : OnlyRegs [rHOSTIF_CSI_ERR rx] s (s.bumpF (fHOSTIF_CSI_ERR_ERR rx) 1) := (OnlyRegs.refl _ s).setF (by simp)
  unfold State.csiError
  generalize s.bumpF (fHOSTIF_CSI_ERR_ERR rx) 1 = u at hget honly
  extract_lets u' l
  generalize hv : u'.updHost _ = v
  have hregs : v.regs = u.regs := by rw [← hv, State.updHost_regs]
  have hcomp : v.comp = u.comp := by rw [← hv, State.updHost_comp]
  have hmem : v.mem = u.mem := by rw [← hv, State.updHost_mem]
  have hpost : Quiet [] v (v.hostEv evHOST_CSI_ERROR rx srcHOSTIF (2 ^ 31 * rx + satAt 0xFFFF l.length)) :=
    (Quiet.refl _ v).postGap (by decide)
  refine ⟨?_, ?_, ?_⟩
  · rw [hpost.comp, hcomp, honly.comp]
  · rw [hpost.mem_eq, hmem, honly.mem_eq]
  · rw [hpost.getF _ (by simp) (not_mem_evRegs (by simp only [rHOSTIF_CSI_ERR]; omega)), State.getF_congr (State.reg_of_regs hregs _), hget]

theorem does_csiBad (hon : s.csiOn rx = true) (hcaps : s.capsOn rx vc = [w]) : ∀ c ∈ [Instr.csiFrameStart rx vc 2, .csiFrameEnd rx vc 2],
    Does c s (fun t => t.capw w = { s.capw w with err := true }
      ∧ t.getF (fHOSTIF_CSI_ERR_ERR rx) = min (2 ^ (fHOSTIF_CSI_ERR_ERR rx).w - 1) (s.getF (fHOSTIF_CSI_ERR_ERR rx) + 1)
      ∧ t.mem = s.mem) := by
  have hbad : ∀ act, s.csiShort rx vc 2 act = (s.csiError rx).setCapw w { (s.csiError rx).capw w with err := true } := fun act => by
    rw [State.csiShort, hon, if_neg (by decide)]
    show s.csiBad rx (s.capsOn rx vc) = _
    rw [hcaps]
    rfl
  obtain ⟨hcomp, hmem, hget⟩ := s.csiError_effect rx
  have hcapw : (s.csiError rx).capw w = s.capw w := by
    rw [State.capw, hcomp]
    rfl
  have heff : ∀ c act, exec c s = .next (s.csiShort rx vc 2 act) → Does c s (fun t => t.capw w = { s.capw w with err := true }
      ∧ t.getF (fHOSTIF_CSI_ERR_ERR rx) = min (2 ^ (fHOSTIF_CSI_ERR_ERR rx).w - 1) (s.getF (fHOSTIF_CSI_ERR_ERR rx) + 1)
      ∧ t.mem = s.mem) := fun c act hx => by
    rw [hbad, hcapw] at hx
    generalize s.csiError rx = u at hmem hget hx
    exact ⟨_, hx, State.capw_setCapw _ _ _, hget, hmem⟩
  simp only [List.mem_cons, List.not_mem_nil, or_false, forall_eq_or_imp, forall_eq]
  exact ⟨heff _ _ rfl, heff _ _ rfl⟩

theorem does_csiOff (hoff : s.csiOn rx = false) : ∀ c ∈ [Instr.csiFrameStart rx vc hdr, .csiFrameEnd rx vc hdr], Does c s (fun t => t = s) := by
  have heff : ∀ c act, exec c s = .next (s.csiShort rx vc hdr act) → Does c s (fun t => t = s) := fun c act hx => by
    rw [State.csiShort, hoff, if_pos rfl] at hx
    exact ⟨_, hx, rfl⟩
  simp only [List.mem_cons, List.not_mem_nil, or_false, forall_eq_or_imp, forall_eq]
  exact ⟨heff _ _ rfl, heff _ _ rfl⟩

/-! ### Packets -/

/-- The writer of a long packet, by its header's data type. -/
def State.csiWriter (s : State) (rx vc dt : Nat) : Option Nat := if csiTypes.contains dt then s.capOf rx vc dt else none

theorem State.csiLong_eq {s : State} {rx vc dt : Nat} (hon : s.csiOn rx = true) (bs : List Byte) :
    s.csiLong rx vc dt 0 bs true = match s.csiWriter rx vc dt with
      | none => s.bumpF (fHOSTIF_CSI_ERR_DISC rx) 1
      | some w => s.capPacket w bs false := by
  rw [State.csiLong, hon, if_neg (by decide)]
  rfl

theorem State.csiWriter_of_type {s : State} {rx vc dt : Nat} (ht : dt ∈ csiTypes) : s.csiWriter rx vc dt = s.capOf rx vc dt :=
  if_pos (List.contains_iff_mem.2 ht)

theorem State.lt_of_capOf {s : State} {rx vc dt w : Nat} (h : s.capOf rx vc dt = some w) : w < 8 := List.mem_range.1 (List.mem_of_find?_eq_some h)

variable {dt : BitVec 6} {bs : List Byte}

theorem does_csiLongPacket_none (hon : s.csiOn rx = true) (hno : s.capOf rx vc dt.toNat = none) :
    Does (.csiLongPacket rx vc dt 0 bs true) s (fun t => t.mem = s.mem ∧ t.getF (fHOSTIF_CSI_ERR_DISC rx)
      = min (2 ^ (fHOSTIF_CSI_ERR_DISC rx).w - 1) (s.getF (fHOSTIF_CSI_ERR_DISC rx) + 1)) := by
  have hx : exec (.csiLongPacket rx vc dt 0 bs true) s = .next (s.csiLong rx vc dt.toNat 0 bs true) := rfl
  have hw : s.csiWriter rx vc dt.toNat = none := by
    rw [State.csiWriter, hno, ite_self]
  rw [State.csiLong_eq hon, hw] at hx
  exact ⟨_, hx, State.setReg_mem _ _ _, s.getF_bumpF (by simp) 1⟩

theorem does_csiLongPacket_used (hon : s.csiOn rx = true) (ht : dt.toNat ∈ csiTypes) (hcap : s.capOf rx vc dt.toNat = some w)
    (hskip : (s.capw w).skip = false) (hstart : (s.capw w).started = false) (hrows : (s.capw w).rows = 0) (hbytes : (s.capw w).bytes = 0)
    (hused : s.baseInUse (s.capBase w 0) = true) :
    Does (.csiLongPacket rx vc dt 0 bs true) s (fun t => (t.capw w).skip = true
      ∧ t.regN (rHOSTIF_CAPW_DROP_COUNT w) = min 0xFFFF (s.regN (rHOSTIF_CAPW_DROP_COUNT w) + 1) ∧ t.mem = s.mem) := by
  have hx : exec (.csiLongPacket rx vc dt 0 bs true) s = .next (s.csiLong rx vc dt.toNat 0 bs true) := rfl
  obtain ⟨hmem, hcapw, hcount, -⟩ := s.capDrop_effect (State.lt_of_capOf hcap)
  have hdrop : s.capPacket w bs false = s.capDrop w := by
    have hinto : s.capInto w 0 = s.capDrop w := if_pos hused
    rw [State.capPacket]
    rw [if_pos (c := (s.capw w).started = false ∧ _) ⟨hstart, hskip, hrows, hbytes⟩, hinto, hcapw]
    rfl
  rw [State.csiLong_eq hon, State.csiWriter_of_type ht, hcap] at hx
  dsimp only at hx
  rw [hdrop] at hx
  exact ⟨_, hx, by rw [hcapw], hcount, hmem⟩

theorem does_csiLongPacket_row (hc : Clean s) (hon : s.csiOn rx = true) (ht : dt.toNat ∈ csiTypes) (hcap : s.capOf rx vc dt.toNat = some w)
    (hskip : (s.capw w).skip = false) (hraw : s.isF (fHOSTIF_CAPW_CFG_COMPRESSED w) = false) (hstart : (s.capw w).started = true)
    (hfit : bs.length ≤ s.capStride w) (hsame : 0 < (s.capw w).rows → bs.length = (s.capw w).bytes)
    (hrow : (s.capw w).rows < s.getF (fHOSTIF_CAPW_GEOM_HEIGHT w))
    (hin : s.inDram (s.capBase w (s.capw w).buf + (s.capw w).rows * s.capStride w) bs.length = true) :
    let a := s.capBase w (s.capw w).buf + (s.capw w).rows * s.capStride w
    Does (.csiLongPacket rx vc dt 0 bs true) s (fun t =>
      t.bytes a bs.length = bs ∧ (∀ x, x < a ∨ a + bs.length ≤ x → t.byte x = s.byte x)
      ∧ t.capw w = { s.capw w with rows := (s.capw w).rows + 1, bytes := bs.length }) := by
  intro a
  have hx : exec (.csiLongPacket rx vc dt 0 bs true) s = .next (s.csiLong rx vc dt.toNat 0 bs true) := rfl
  have hbad : ¬(s.capStride w < bs.length ∨ 0 < (s.capw w).rows ∧ bs.length ≠ (s.capw w).bytes) := by
    rintro (h | ⟨h, hne⟩)
    · omega
    · exact hne (hsame h)
  have hput : s.capPut w bs false = (s.setBytes a bs).setCapw w { s.capw w with rows := (s.capw w).rows + 1, bytes := bs.length } := by
    rw [State.capPut]
    dsimp only
    rw [hraw, if_neg (by decide), decide_eq_false hbad, if_pos ⟨hrow, rfl⟩, State.putDram, if_pos (.inr hin), State.writeMem_of_clean hc]
    simp only [Bool.or_false]
    rfl
  have hpacket : s.capPacket w bs false = s.capPut w bs false := by
    rw [State.capPacket]
    rw [if_neg (c := (s.capw w).started = false ∧ _) (fun h => absurd (hstart.symm.trans h.1) (by decide)), hskip]
    rfl
  rw [State.csiLong_eq hon, State.csiWriter_of_type ht, hcap] at hx
  dsimp only at hx
  rw [hpacket, hput] at hx
  exact ⟨_, hx, State.bytes_setBytes_same _ _ _, fun x h => State.byte_setBytes_other _ h, State.capw_setCapw _ _ _⟩

/-! ### Frame ends -/

/-- What crosses to the arbiter leaves the writers alone. -/
theorem State.capw_cross (s : State) (c : Cross) : (s.cross c).comp.capw = s.comp.capw := by
  have harrive : ∀ (u : State) (x : Cross), (u.arrive x).comp.capw = u.comp.capw := fun u x => by
    cases x with
    | inc k n => rfl
    | flip g f =>
      rw [State.arrive]
      split
      · rfl
      · rfl
  have hfold : ∀ (l : List (Nat × Cross)) (u : State), (l.foldl (fun s c => s.arrive c.2) u).comp.capw = u.comp.capw := by
    intro l
    induction l with
    | nil => exact fun _ => rfl
    | cons x l ih => exact fun u => (ih _).trans (harrive u x.2)
  exact hfold _ _

theorem State.capw_signal (s : State) (k w : Nat) (v : Word) : (s.signal k v).capw w = s.capw w := by
  rw [State.capw, State.signal, State.capw_cross]
  rfl

/-- The header does not touch what a writer's frame is judged by. -/
theorem State.capReason_congr {s t : State} {w : Nat} (hcapw : t.capw w = s.capw w) (hregs : ∀ off, 0x84000 ≤ off → t.reg off = s.reg off) :
    t.capReason w = s.capReason w := by
  rw [State.capReason, State.capReason, hcapw, State.isF_congr (f := fHOSTIF_CAPW_CFG_COMPRESSED w) (hregs _ (by simp [rHOSTIF_CAPW_CFG])),
    State.getF_congr (f := fHOSTIF_CAPW_GEOM_HEIGHT w) (hregs _ (by simp [rHOSTIF_CAPW_GEOM]; omega)), State.capSize, State.capSize,
    State.regN_congr (hregs (rHOSTIF_CAPW_SIZE w) (by unfold rHOSTIF_CAPW_SIZE; omega))]

theorem State.capEnd_good {u : State} (hw : w < 8) (hskip : (u.capw w).skip = false) (hwhy : u.capReason w = 0)
    (hauto : u.isF (fHOSTIF_CAPW_CFG_AUTO_FLIP w) = false) :
    (u.capEnd w).regN (rHOSTIF_CAPW_FRAME_COUNT w) = (u.regN (rHOSTIF_CAPW_FRAME_COUNT w) + 1) % 2 ^ 32
      ∧ (u.capEnd w).fence (u.getF (fHOSTIF_CAPW_CFG_FENCE w)) = u.fence (u.getF (fHOSTIF_CAPW_CFG_FENCE w)) + 1
      ∧ (u.capEnd w).capw w = { next := (u.capw w).next } ∧ (u.capEnd w).mem = u.mem := by
  have hset := u.regN_setRegN (rHOSTIF_CAPW_FRAME_COUNT w) (rHOSTIF_CAPW_FRAME_COUNT w) ((u.regN (rHOSTIF_CAPW_FRAME_COUNT w) + 1) % 2 ^ 32)
  have honly : OnlyRegs [rHOSTIF_CAPW_FRAME_COUNT w] u (u.setRegN (rHOSTIF_CAPW_FRAME_COUNT w) ((u.regN (rHOSTIF_CAPW_FRAME_COUNT w) + 1) % 2 ^ 32)) :=
    (OnlyRegs.refl _ u).setRegN (by simp)
  rw [State.capEnd]
  dsimp only
  rw [if_neg (by rw [hskip]; decide), if_neg (by rw [hwhy]; decide)]
  generalize hv : u.setRegN (rHOSTIF_CAPW_FRAME_COUNT w) ((u.regN (rHOSTIF_CAPW_FRAME_COUNT w) + 1) % 2 ^ 32) = v at hset honly ⊢
  have hcfg : v.reg (rHOSTIF_CAPW_CFG w) = u.reg (rHOSTIF_CAPW_CFG w) := honly.regs _ (by simp [rHOSTIF_CAPW_FRAME_COUNT, rHOSTIF_CAPW_CFG])
  rw [State.getF_congr (f := fHOSTIF_CAPW_CFG_FENCE w) hcfg]
  generalize u.getF (fHOSTIF_CAPW_CFG_FENCE w) = k
  have hcross := v.signal_crossed k 1
  have hsig : ∀ off, off < 0xC0100 → (v.signal k 1).reg off = v.reg off := fun off ho => by
    rw [hcross.regs off (by omega), State.reg_setReg, if_neg]
    unfold rMSG_FENCE
    omega
  rw [State.isF_congr (f := fHOSTIF_CAPW_CFG_AUTO_FLIP w) ((hsig _ (by simp only [rHOSTIF_CAPW_CFG]; omega)).trans hcfg), hauto, if_neg (by decide)]
  have hfence := v.signal_fence k k 1
  have hmem := v.signal_mem k 1
  generalize v.signal k 1 = x at hsig hfence hmem
  refine ⟨?_, ?_, ?_, hmem.trans honly.mem_eq⟩
  · show x.regN _ = _
    rw [State.regN_congr (hsig _ (by unfold rHOSTIF_CAPW_FRAME_COUNT; omega)), hset, if_pos rfl, Nat.mod_mod]
  · show x.fence k = _
    rw [hfence, if_pos rfl, State.fence, State.fence, honly.regs _ (by simp [rHOSTIF_CAPW_FRAME_COUNT, rMSG_FENCE]; omega)]
  · exact State.capw_setCapw _ _ _

theorem does_csiFrameEnd (hon : s.csiOn rx = true) (hhdr : hdr ≠ 2) (hcaps : s.capsOn rx vc = [w]) (hstart : (s.capw w).started = true)
    (hskip : (s.capw w).skip = false) (hwhy : s.capReason w = 0) (hauto : s.isF (fHOSTIF_CAPW_CFG_AUTO_FLIP w) = false) :
    Does (.csiFrameEnd rx vc hdr) s (fun t =>
      t.regN (rHOSTIF_CAPW_FRAME_COUNT w) = (s.regN (rHOSTIF_CAPW_FRAME_COUNT w) + 1) % 2 ^ 32
      ∧ t.fence (s.getF (fHOSTIF_CAPW_CFG_FENCE w)) = s.fence (s.getF (fHOSTIF_CAPW_CFG_FENCE w)) + 1
      ∧ t.capw w = { next := (s.capw w).next } ∧ t.mem = s.mem) := by
  have hx : exec (.csiFrameEnd rx vc hdr) s = .next (s.csiShort rx vc hdr fun w s => s.csiEnd rx w) := rfl
  rw [State.csiShort_eq hon hcaps _ hhdr] at hx
  have honly := s.csiHead_only rx hdr
  generalize s.csiHead rx hdr = u at honly hx
  have hcapw : u.capw w = s.capw w := by
    rw [State.capw, honly.comp]
    rfl
  have hreg : ∀ off, 0x84000 ≤ off → u.reg off = s.reg off := fun off ho => honly.regs off (by simp [rHOSTIF_CSI_ECC_CORR]; omega)
  have hcfg : u.reg (rHOSTIF_CAPW_CFG w) = s.reg (rHOSTIF_CAPW_CFG w) := hreg _ (by simp [rHOSTIF_CAPW_CFG])
  have hend : u.csiEnd rx w = u.capEnd w := by rw [State.csiEnd, hcapw, hstart, if_pos rfl]
  obtain ⟨hcount, hfence, hnext, hmem⟩ := State.capEnd_good (u := u) (State.lt_of_capsOn hcaps) (by rw [hcapw, hskip])
    (by rw [State.capReason_congr hcapw hreg, hwhy]) (by rw [State.isF_congr hcfg, hauto])
  rw [hend] at hx
  refine ⟨_, hx, ?_, ?_, ?_, hmem.trans honly.mem_eq⟩
  · rw [hcount, State.regN_congr (hreg _ (by unfold rHOSTIF_CAPW_FRAME_COUNT; omega))]
  · rw [State.getF_congr (f := fHOSTIF_CAPW_CFG_FENCE w) hcfg] at hfence
    rw [hfence, State.fence, State.fence, hreg _ (by unfold rMSG_FENCE; omega)]
  · rw [hnext, hcapw]

end

/-! ### The obligation -/

/-- Settles O46: each clause by the lemma on its command; a latch point's count and a composed row are read off the operation's end. -/
theorem composition : Obligations.Composition := by
  unfold Obligations.Composition
  refine ⟨fun g mask s ht => ⟨fun hwhy hwait hfly => does_flipCommit_taken ht hwait hfly hwhy, fun hwhy => does_flipCommit_refused ht hwhy⟩,
    fun s => ⟨fun hon => ?_, fun hon => ?_⟩, fun l lo s ht => ⟨fun hen hnever h5 h7 => ?_, fun hen => ?_⟩,
    fun n s x hx hend hroom hrow => does_rowCompose hx hend hroom hrow, fun rx vc hdr w s hon hcaps => ⟨fun hhdr hfree => ?_, fun hhdr hused => ?_, ?_⟩,
    fun rx vc hdr s hoff => does_csiOff hoff,
    fun rx vc dt bs w s hc hon htype hcap hskip hraw hstart hfit hsame hrow hin =>
      does_csiLongPacket_row hc hon htype hcap hskip hraw hstart hfit hsame hrow hin,
    fun rx vc dt bs w s hon htype hcap hskip hstart hrows hbytes hused => does_csiLongPacket_used hon htype hcap hskip hstart hrows hbytes hused,
    fun rx vc dt bs s hon hno => does_csiLongPacket_none hon hno,
    fun rx vc hdr w s hon hhdr hcaps hstart hskip hwhy hauto => does_csiFrameEnd hon hhdr hcaps hstart hskip hwhy hauto⟩
  · exact ⟨_, rfl, by rw [State.latchPoint, hon]; rfl⟩
  · refine ⟨_, rfl, ?_⟩
    rw [State.latchPoint, if_neg (by simpa using hon)]
    exact ⟨rfl, rfl, rfl⟩
  · exact does_rawAddrWrite ht (State.rawAddr_taken hen hnever h5 h7)
  · exact does_rawAddrWrite ht ⟨(State.rawAddr_refused hen).comp, State.rawAddr_refused hen⟩
  · exact does_csiFrameStart_free hon hcaps hhdr hfree
  · exact does_csiFrameStart_used hon hcaps hhdr hused
  · exact does_csiBad hon hcaps

end Sys2Proof.Machine

/-! ## Press's commands (O47, R175 to R187) -/

namespace Sys2Proof.Machine

/-- A command by its register, of a unit that the part has. -/
theorem does_viaReg_present {c : Instr} {s : State} {off : Nat} {act : State → State} {P : State → Prop} (habs : s.absentUnit off = false)
    (ht : Takes s off) (hx : exec c s = .next (s.viaReg off act)) (hp : P (act s)) : Does c s P := by
  rw [State.viaReg_of_takes ht habs] at hx
  exact ⟨_, hx, hp⟩

theorem Quiet.withPress {l : List Nat} {s u : State} (q : Quiet l s u) (x : List (Nat × PressT)) : Quiet l { s with press := x } { u with press := x } := by
  refine ⟨?_, q.regs⟩
  conv_lhs => rw [q.rest]

theorem Quiet.press {l : List Nat} {s u : State} (q : Quiet l s u) : u.press = s.press := by rw [q.rest]

theorem OnlyRegs.press {l : List Nat} {s u : State} (q : OnlyRegs l s u) : u.press = s.press := by rw [q.rest]

theorem OnlyRegs.health {l : List Nat} {s u : State} (q : OnlyRegs l s u) : u.health = s.health := by rw [q.rest]

theorem Quiet.health {l : List Nat} {s u : State} (q : Quiet l s u) : u.health = s.health := by rw [q.rest]

/-! ### What an update of a tile's tables leaves -/

@[simp] theorem State.updPr_reg (s : State) (n : Nat) (f : PressT → PressT) (o : Nat) : (s.updPr n f).reg o = s.reg o := rfl
@[simp] theorem State.updPr_mem (s : State) (n : Nat) (f : PressT → PressT) : (s.updPr n f).mem = s.mem := rfl
@[simp] theorem State.updPort_reg (s : State) (n : Nat) (f : Port → Port) (o : Nat) : (s.updPort n f).reg o = s.reg o := rfl
@[simp] theorem State.updPort_mem (s : State) (n : Nat) (f : Port → Port) : (s.updPort n f).mem = s.mem := rfl
@[simp] theorem State.updPort_pr (s : State) (n k : Nat) (f : Port → Port) : (s.updPort n f).pr k = s.pr k := rfl
@[simp] theorem State.updTg_reg (s : State) (n : Nat) (f : Tg → Tg) (o : Nat) : (s.updTg n f).reg o = s.reg o := rfl
@[simp] theorem State.updTg_mem (s : State) (n : Nat) (f : Tg → Tg) : (s.updTg n f).mem = s.mem := rfl
@[simp] theorem State.updHl_reg (s : State) (n : Nat) (f : HealthT → HealthT) (o : Nat) : (s.updHl n f).reg o = s.reg o := rfl
@[simp] theorem State.updHl_mem (s : State) (n : Nat) (f : HealthT → HealthT) : (s.updHl n f).mem = s.mem := rfl
@[simp] theorem State.updSafeT_reg (s : State) (n : Nat) (f : SafeTile → SafeTile) (o : Nat) : (s.updSafeT n f).reg o = s.reg o := rfl
@[simp] theorem State.updSafeT_mem (s : State) (n : Nat) (f : SafeTile → SafeTile) : (s.updSafeT n f).mem = s.mem := rfl

/-! ### Update lists and FILL (R175 to R178) -/

section
variable {n : Fin 4} {s : State}

theorem State.updError_effect (s : State) (n : Fin 4) {code : Nat} (hc : code < 16) :
    (s.updError n code false).getF (fPRESS_UPD_STATUS_ERR n) = code
      ∧ (s.updError n code false).getF (fPRESS_UPD_STATUS_STATE n) = s.getF (fPRESS_UPD_STATUS_STATE n)
      ∧ Quiet [rPRESS_UPD_STATUS n] s (s.updError n code false) := by
  have hget := s.getF_setF (fPRESS_UPD_STATUS_ERR n) code (by simp)
  have hother := s.getF_setF_other (fPRESS_UPD_STATUS_ERR n) (fPRESS_UPD_STATUS_STATE n) code (by simp) (by simp)
  have hset : Quiet [rPRESS_UPD_STATUS n] s (s.setF (fPRESS_UPD_STATUS_ERR n) code) := (Quiet.refl _ s).setF (.inl (by simp))
  rw [State.updError, if_neg (by decide)]
  generalize s.setF (fPRESS_UPD_STATUS_ERR n) code = u at hget hother hset
  have hpost : Quiet [] u (u.postOnce evPRESS_UPD_ERROR n u.lampFrame (srcPRESS n) (2 ^ 30 * n + code)) := (Quiet.refl _ u).postOnce (by decide)
  have hoff : rPRESS_UPD_STATUS n ∉ evRegs := not_mem_evRegs (by unfold rPRESS_UPD_STATUS; omega)
  refine ⟨?_, ?_, hset.trans (hpost.mono (by simp))⟩
  · rw [hpost.getF _ (by simp) hoff, hget]
    exact Nat.mod_eq_of_lt hc
  · rw [hpost.getF _ (by simp) hoff, hother]

theorem does_updBusy (habs : s.absentUnit (rPRESS_UPD_CMD n) = false) (ht : Takes s (rPRESS_UPD_CMD n)) (hbusy : s.updBusy n = true) :
    ∀ c ∈ [Instr.updCommit n, .updFill n], Does c s (fun t => t.getF (fPRESS_UPD_STATUS_ERR n) = 1
      ∧ t.getF (fPRESS_UPD_STATUS_STATE n) = s.getF (fPRESS_UPD_STATUS_STATE n) ∧ Quiet [rPRESS_UPD_STATUS n] s t) := by
  have herr := s.updError_effect n (code := 1) (by decide)
  simp only [List.mem_cons, List.not_mem_nil, or_false, forall_eq_or_imp, forall_eq]
  refine ⟨does_viaReg_present habs ht rfl ?_, does_viaReg_present habs ht rfl ?_⟩
  · rw [State.updCommitOp, hbusy, if_pos rfl]
    exact herr
  · rw [State.updFillOp, hbusy, if_pos rfl]
    exact herr

theorem State.pr_updPr (s : State) (n : Nat) (f : PressT → PressT) : (s.updPr n f).pr n = f (s.pr n) := by
  rw [State.pr, State.updPr, State.setPr, tabGet_tabSet, if_pos rfl]

theorem does_updCommit (habs : s.absentUnit (rPRESS_UPD_CMD n) = false) (ht : Takes s (rPRESS_UPD_CMD n)) (hbusy : s.updBusy n = false) :
    Does (.updCommit n) s (fun t => t.getF (fPRESS_UPD_STATUS_STATE n) = updPENDING ∧ (t.pr n).updNext = 0
      ∧ (t.pr n).updLen = s.regN (rPRESS_UPD_LEN n) % 2 ^ 19
      ∧ (t.pr n).updBase = s.regN (rPRESS_UPD_LIST_LO n) + 2 ^ 32 * (s.regN (rPRESS_UPD_LIST_HI n) % 256)
      ∧ Quiet [rPRESS_UPD_STATUS n] { s with press := t.press } t) := by
  refine does_viaReg_present habs ht rfl ?_
  rw [State.updCommitOp, hbusy, if_neg (by decide)]
  dsimp only
  generalize s.regN (rPRESS_UPD_LIST_LO n) + 2 ^ 32 * (s.regN (rPRESS_UPD_LIST_HI n) % 256) = base
  generalize s.regN (rPRESS_UPD_LEN n) % 2 ^ 19 = len
  have hpr := s.pr_updPr n (fun p => { p with updBase := base, updLen := len, updNext := 0 })
  have hbase : s.updPr n (fun p => { p with updBase := base, updLen := len, updNext := 0 })
    = { s with press := (s.updPr n (fun p => { p with updBase := base, updLen := len, updNext := 0 })).press } := rfl
  generalize s.updPr n (fun p => { p with updBase := base, updLen := len, updNext := 0 }) = u at hpr hbase
  have hone : OnlyRegs [rPRESS_UPD_STATUS n] u (u.setRegN (rPRESS_UPD_STATUS n) 0) := (OnlyRegs.refl _ u).setRegN (by simp)
  have hset : OnlyRegs [rPRESS_UPD_STATUS n] u ((u.setRegN (rPRESS_UPD_STATUS n) 0).setF (fPRESS_UPD_STATUS_STATE n) updPENDING) := hone.setF (by simp)
  have hget := (u.setRegN (rPRESS_UPD_STATUS n) 0).getF_setF (fPRESS_UPD_STATUS_STATE n) updPENDING (by simp)
  generalize (u.setRegN (rPRESS_UPD_STATUS n) 0).setF (fPRESS_UPD_STATUS_STATE n) updPENDING = t at hset hget
  have hpr' : t.pr n = u.pr n := by
    rw [State.pr, hset.press]
    rfl
  refine ⟨hget, by rw [hpr', hpr], by rw [hpr', hpr], by rw [hpr', hpr], ?_⟩
  rw [hset.press, ← hbase]
  exact hset.quiet

theorem does_updFill (habs : s.absentUnit (rPRESS_UPD_CMD n) = false) (ht : Takes s (rPRESS_UPD_CMD n)) (hbusy : s.updBusy n = false)
    (hoff : s.tgState n = tgOFF) : Does (.updFill n) s (fun t =>
      t.getF (fPRESS_UPD_STATUS_STATE n) = updFILLING ∧ t.getF (fPRESS_UPD_STATUS_ERR n) = 0 ∧ Quiet [rPRESS_UPD_STATUS n] s t) := by
  refine does_viaReg_present habs ht rfl ?_
  rw [State.updFillOp, hbusy, if_neg (by decide), if_neg (by rw [hoff]; simp)]
  have hset : OnlyRegs [rPRESS_UPD_STATUS n] s ((s.setF (fPRESS_UPD_STATUS_ERR n) 0).setF (fPRESS_UPD_STATUS_STATE n) updFILLING) :=
    ((OnlyRegs.refl _ s).setF (by simp)).setF (by simp)
  refine ⟨State.getF_setF _ _ _ (by simp), ?_, hset.quiet⟩
  rw [State.getF_setF_other _ _ _ _ (by simp) (by simp), State.getF_setF _ _ _ (by simp)]
  exact Nat.zero_mod _

/-- Darn has nothing to do after an update window. -/
theorem State.darnWindow_idle {n : Nat} (hlist : (s.hl n).list = []) (hagain : (s.hl n).again = false) : s.darnWindow n = s := by
  have hempty : (s.hl n).list.isEmpty = true := by rw [hlist]; rfl
  simp only [State.darnWindow, hempty, hagain, true_or, if_true, Bool.false_eq_true, if_false]

theorem does_updCancel (habs : s.absentUnit (rPRESS_UPD_CMD n) = false) (ht : Takes s (rPRESS_UPD_CMD n))
    (hst : s.getF (fPRESS_UPD_STATUS_STATE n) = updPENDING ∨ s.getF (fPRESS_UPD_STATUS_STATE n) = updAPPLYING) (hlist : (s.hl n).list = [])
    (hagain : (s.hl n).again = false) : Does (.updCancel n) s (fun t =>
        t.getF (fPRESS_UPD_STATUS_STATE n) = updCANCELLED ∧ Quiet [rPRESS_UPD_STATUS n] s t) := by
  refine does_viaReg_present habs ht rfl ?_
  have hset : OnlyRegs [rPRESS_UPD_STATUS n] s (s.setF (fPRESS_UPD_STATUS_STATE n) updCANCELLED) := (OnlyRegs.refl _ s).setF (by simp)
  have hget := s.getF_setF (fPRESS_UPD_STATUS_STATE n) updCANCELLED (by simp)
  rw [State.updCancelOp, if_pos hst]
  generalize s.setF (fPRESS_UPD_STATUS_STATE n) updCANCELLED = u at hset hget
  have hhl : u.hl n = s.hl n := by
    rw [State.hl, hset.health]
    rfl
  rw [State.darnWindow_idle (by rw [hhl, hlist]) (by rw [hhl, hagain])]
  exact ⟨hget, hset.quiet⟩

/-! ### A FILL done and a list ended -/

/-- UPD_STATUS of a FILL that is done. -/
def State.filled (u : State) (n : Nat) : State := (u.setF (fPRESS_UPD_STATUS_DONE_ENTRIES n) 262144).setF (fPRESS_UPD_STATUS_STATE n) updDONE

theorem State.filled_effect (u : State) (n : Fin 4) :
    (u.filled n).getF (fPRESS_UPD_STATUS_STATE n) = updDONE ∧ (u.filled n).getF (fPRESS_UPD_STATUS_DONE_ENTRIES n) = 262144 ∧ (u.filled n).mem = u.mem := by
  rw [State.filled]
  refine ⟨State.getF_setF _ _ _ (by simp), ?_, by rw [State.setF, State.setRegN, State.setReg_mem, State.setF, State.setRegN, State.setReg_mem]⟩
  rw [State.getF_setF_other _ _ _ _ (by simp) (by simp), State.getF_setF _ _ _ (by simp)]
  exact Nat.mod_eq_of_lt (by norm_num)

theorem State.fillTile_ok {n : Nat} (hok : (s.fillAll n).1 = true) :
    s.fillTile n = (((s.fillAll n).2.filled n).dropRanges n).updPort n (fun p => { p with selStage := 0, selTries := 0 }) := if_pos hok

theorem does_fillDone (hst : s.getF (fPRESS_UPD_STATUS_STATE n) = updFILLING) (hok : (s.fillAll n).1 = true) :
    Does (.fillDone n) s (fun t => t.getF (fPRESS_UPD_STATUS_STATE n) = updDONE ∧ t.getF (fPRESS_UPD_STATUS_DONE_ENTRIES n) = 262144
      ∧ (t.pr n).range = [] ∧ (t.portOf n).selStage = 0 ∧ t.mem = (s.fillAll n).2.mem) := by
  have hx : exec (.fillDone n) s = .next (if s.getF (fPRESS_UPD_STATUS_STATE n) = updFILLING then s.fillTile n else s) := rfl
  obtain ⟨hstate, hdone, hmem⟩ := (s.fillAll n).2.filled_effect n
  rw [if_pos hst, State.fillTile_ok hok] at hx
  generalize (s.fillAll n).2.filled n = v at hmem hstate hdone hx
  have hpr := v.pr_updPr n (fun p => { p with range := [] })
  refine ⟨_, hx, ?_, ?_, ?_, ?_, (State.updPort_mem _ _ _).trans ((State.updPr_mem _ _ _).trans hmem)⟩
  · rw [State.getF_congr (State.updPort_reg _ _ _ _), State.dropRanges, State.getF_congr (State.updPr_reg _ _ _ _), hstate]
  · rw [State.getF_congr (State.updPort_reg _ _ _ _), State.dropRanges, State.getF_congr (State.updPr_reg _ _ _ _), hdone]
  · rw [State.updPort_pr, State.dropRanges, hpr]
  · rw [State.portOf_updPort_self]

/-- With nothing to reload and no sweep a window begins with the list. -/
theorem State.updateWindow_list {n : Nat} (hst : s.getF (fPRESS_UPD_STATUS_STATE n) = updPENDING) (hc : Clean s) (hload : (s.pr n).reload = [])
    (hsweep : s.regN (rPRESS_SWEEP n) = 0) (rows : Nat) : s.updateWindow n rows
      = ((s.updPr n (fun p => { p with reload := [] })).setF (fPRESS_UPD_STATUS_STATE n) updAPPLYING).updGroups n
          ((s.updPr n (fun p => { p with reload := [] })).nextFrame n) 8193 8192 := by
  have hreload : s.reloadAll n = s.updPr n (fun p => { p with reload := [] }) := by
    rw [State.reloadAll, hload]
    rfl
  have hsynd : (s.updPr n (fun p => { p with reload := [] })).ecc.synd = [] := hc.1
  have hreg : ∀ off, (s.updPr n (fun p => { p with reload := [] })).reg off = s.reg off := State.updPr_reg _ _ _
  generalize s.updPr n (fun p => { p with reload := [] }) = u at hreload hsynd hreg ⊢
  have hcurve : u.curveRewrite n = u := by
    rw [State.curveRewrite, State.dirtyWords, hsynd]
    rfl
  rw [State.updateWindow, hreload, hcurve, State.regN_congr (hreg _), hsweep]
  have hzero : min rows (min (0 % 32) 16) = 0 := by omega
  rw [hzero, State.sweepRows]
  rw [State.getF_congr (hreg _), hst, if_pos (.inl rfl)]

/-- A list that has ended is done. -/
theorem State.updGroups_done (u : State) (n : Fin 4) {frame fuel budget : Nat} (hf : frame < 2 ^ 32) (hend : (u.pr n).updLen ≤ (u.pr n).updNext) :
    (u.updGroups n frame (fuel + 1) budget).getF (fPRESS_UPD_STATUS_STATE n) = updDONE
      ∧ (u.updGroups n frame (fuel + 1) budget).regN (rPRESS_UPD_FRAME n) = frame
      ∧ Quiet [rPRESS_UPD_STATUS n, rPRESS_UPD_FRAME n] u (u.updGroups n frame (fuel + 1) budget) := by
  have hstate := u.getF_setF (fPRESS_UPD_STATUS_STATE n) updDONE (by simp)
  have hset : Quiet [rPRESS_UPD_STATUS n, rPRESS_UPD_FRAME n] u (u.setF (fPRESS_UPD_STATUS_STATE n) updDONE) := (Quiet.refl _ u).setF (.inl (by simp))
  rw [State.updGroups, if_pos hend]
  generalize u.setF (fPRESS_UPD_STATUS_STATE n) updDONE = v at hstate hset
  have hother := v.getF_setRegN_ne (o := rPRESS_UPD_FRAME n) (v := frame) (f := fPRESS_UPD_STATUS_STATE n) (by simp)
  have hframe := v.regN_setRegN (rPRESS_UPD_FRAME n) (rPRESS_UPD_FRAME n) frame
  have hset' : Quiet [rPRESS_UPD_STATUS n, rPRESS_UPD_FRAME n] u (v.setRegN (rPRESS_UPD_FRAME n) frame) := hset.setRegN (.inl (by simp))
  generalize v.setRegN (rPRESS_UPD_FRAME n) frame = w at hother hframe hset'
  have hpost : Quiet [] w (w.postOnce evPRESS_UPD_DONE n w.lampFrame (srcPRESS n) (2 ^ 30 * n + frame % 2 ^ 30)) := (Quiet.refl _ w).postOnce (by decide)
  refine ⟨?_, ?_, hset'.trans (hpost.mono (by simp))⟩
  · rw [hpost.getF _ (by simp) (not_mem_evRegs (by simp only [rPRESS_UPD_STATUS]; omega)), hother, hstate]
    rfl
  · rw [hpost.regN (by simp) (not_mem_evRegs (by unfold rPRESS_UPD_FRAME; omega)), hframe, if_pos rfl, Nat.mod_eq_of_lt hf]

theorem State.nextFrame_lt (s : State) (n : Nat) : s.nextFrame n < 2 ^ 32 := by
  have hlt : ∀ k : Nat, k % 2 ^ 32 < 2 ^ 32 := fun k => Nat.mod_lt _ (by decide)
  unfold State.nextFrame
  extract_lets f g
  split
  · have hg : g < 2 ^ 32 := by
      show (if f % 2 = 1 then (f + 1) % 2 ^ 32 else f) < 2 ^ 32
      split
      · exact hlt _
      · exact hlt _
    split
    · exact hlt _
    · exact hg
  · exact hlt _

theorem does_updateWindow {rows : Fin 17} (hst : s.getF (fPRESS_UPD_STATUS_STATE n) = updPENDING) (hload : (s.pr n).reload = []) (hc : Clean s)
    (hsweep : s.regN (rPRESS_SWEEP n) = 0) (hend : (s.pr n).updLen ≤ (s.pr n).updNext) (hlist : (s.hl n).list = []) (hagain : (s.hl n).again = false) :
    Does (.updateWindow n rows) s (fun t => t.getF (fPRESS_UPD_STATUS_STATE n) = updDONE ∧ t.regN (rPRESS_UPD_FRAME n) = s.nextFrame n
      ∧ t.mem = s.mem) := by
  have hx : exec (.updateWindow n rows) s = .next ((s.updateWindow n rows).darnWindow n) := rfl
  have hpr := s.pr_updPr n (fun p => { p with reload := [] })
  have hnext : (s.updPr n (fun p => { p with reload := [] })).nextFrame n = s.nextFrame n := rfl
  have hhl : (s.updPr n (fun p => { p with reload := [] })).hl n = s.hl n := rfl
  have hmem : (s.updPr n (fun p => { p with reload := [] })).mem = s.mem := State.updPr_mem _ _ _
  rw [State.updateWindow_list hst hc hload hsweep rows, hnext] at hx
  generalize s.updPr n (fun p => { p with reload := [] }) = u at hx hpr hhl hmem
  have hset : Quiet [rPRESS_UPD_STATUS n] u (u.setF (fPRESS_UPD_STATUS_STATE n) updAPPLYING) := (Quiet.refl _ u).setF (.inl (by simp))
  generalize u.setF (fPRESS_UPD_STATUS_STATE n) updAPPLYING = v at hset hx
  have hprv : v.pr n = u.pr n := by
    rw [State.pr, hset.press]
    rfl
  obtain ⟨hdone, hframe, hq⟩ := v.updGroups_done n (fuel := 8192) (budget := 8192) (s.nextFrame_lt n) (by rw [hprv, hpr]; exact hend)
  generalize v.updGroups n (s.nextFrame n) (8192 + 1) 8192 = w at hdone hframe hq hx
  have hhlw : w.hl n = s.hl n := by
    rw [← hhl, State.hl, hq.health, hset.health]
    rfl
  rw [State.darnWindow_idle (by rw [hhlw, hlist]) (by rw [hhlw, hagain])] at hx
  exact ⟨_, hx, hdone, hframe, by rw [hq.mem_eq, hset.mem_eq, hmem]⟩

end

end Sys2Proof.Machine

/-! ## The end of a transfer frame and the recorder (O47, R181 to R187) -/

namespace Sys2Proof.Machine

theorem Quiet.tg {l : List Nat} {s u : State} (q : Quiet l s u) : u.tg = s.tg := by rw [q.rest]

theorem Quiet.safeTile {l : List Nat} {s u : State} (q : Quiet l s u) : u.safeTile = s.safeTile := by rw [q.rest]

theorem Quiet.record {l : List Nat} {s u : State} (q : Quiet l s u) : u.record = s.record := by rw [q.rest]

theorem OnlyRegs.record {l : List Nat} {s u : State} (q : OnlyRegs l s u) : u.record = s.record := by rw [q.rest]

/-! ### The frame's results -/

/-- Generators, Press's tables, memory and the recorder's registers stay. -/
structure Shown (s t : State) : Prop where
  tg : t.tg = s.tg
  press : t.press = s.press
  mem : t.mem = s.mem
  recorder : ∀ off, 0x140800 ≤ off → off < 0x140840 → t.reg off = s.reg off

section
variable {s u : State}

theorem Shown.refl (s : State) : Shown s s := ⟨rfl, rfl, rfl, fun _ _ _ => rfl⟩

theorem Shown.trans {t : State} (h : Shown s u) (k : Shown u t) : Shown s t :=
  ⟨k.tg.trans h.tg, k.press.trans h.press, k.mem.trans h.mem, fun off h1 h2 => (k.recorder off h1 h2).trans (h.recorder off h1 h2)⟩

/-- Registers of Press below the recorder's. -/
theorem Shown.quiet {t : State} {l : List Nat} (h : Shown s u) (q : Quiet l u t) (hl : ∀ off ∈ l, off < 0x140800 ∨ 0x140840 ≤ off) : Shown s t :=
  h.trans ⟨q.tg, q.press, q.mem_eq, fun off h1 h2 => q.regs off (fun hin => by have := hl off hin; omega) (not_mem_evRegs (by omega))⟩

theorem Shown.ite {c : Prop} [Decidable c] {a b : State} (h : Shown s a) (k : Shown s b) : Shown s (if c then a else b) := by
  split
  · exact h
  · exact k

theorem Shown.bkWindow (h : Shown s u) (n : Nat) (x : Xfer) : Shown s (u.bkWindow n x) := by
  have hport : PortOnly n u (u.bkAsk n) := by
    unfold State.bkAsk
    split
    · split
      · exact (PortOnly.send (.refl n u) _ _).updPort _
      · exact .refl n u
    · exact .refl n u
  have hask : Shown u (u.bkAsk n) := ⟨by rw [hport.rest], by rw [hport.rest], hport.mem, fun off _ _ => hport.reg off⟩
  exact .ite (h.trans hask) h

theorem State.capFrame_quiet (s : State) (n : Nat) (p : PressT) : Quiet [rPRESS_TILE_LOAD n, rPRESS_TILE_FACTOR n] s (s.capFrame n p) := by
  unfold State.capFrame
  extract_lets load v k k' w
  have hw : Quiet [rPRESS_TILE_LOAD n, rPRESS_TILE_FACTOR n] s w := ((Quiet.refl _ s).setRegN (.inl (by simp))).setRegN (.inl (by simp))
  exact .ite (fun _ => hw.postOnce (by decide)) fun _ => hw

theorem State.satFrame_quiet (s : State) (n : Nat) (p : PressT) : Quiet [rPRESS_SAT_PIXELS n, rPRESS_STATUS n, rPRESS_SAT_COUNT n] s (s.satFrame n p) := by
  unfold State.satFrame
  extract_lets k v
  have hv : Quiet [rPRESS_SAT_PIXELS n, rPRESS_STATUS n, rPRESS_SAT_COUNT n] s v := (Quiet.refl _ s).setRegN (.inl (by simp))
  exact .ite (fun _ => (hv.raise (.inl (by simp)) (.inl (by simp))).postGap (by decide)) fun _ => hv

/-- The registers of a tile's regions. -/
def roiRegs (n : Nat) : List Nat :=
  (List.range 16).map (rPRESS_ROI_CRC n) ++ [rPRESS_ROI_STATUS n, rPRESS_ROI_FRAME n, rPRESS_STATUS n, rPRESS_ROI_MISMATCH_COUNT n]

theorem State.roiFrame_effect (s : State) (n : Fin 4) (frame : Nat) (p : PressT) (torn : Bool) :
    Quiet (roiRegs n) s (s.roiFrame n frame p torn) ∧ (s.roiFrame n frame p torn).regN (rPRESS_ROI_FRAME n) = frame % 2 ^ 32 := by
  have hfold : ∀ (l : List (Nat × Option (Word × Bool))) (u : State), (∀ q ∈ l, q.1 < 16) → Quiet (roiRegs n) s u →
      Quiet (roiRegs n) s (l.foldl (fun s q => match q.2 with | some (c, _) => s.setReg (rPRESS_ROI_CRC n q.1) c | none => s) u) := by
    intro l
    induction l with
    | nil => exact fun _ _ h => h
    | cons q l ih =>
      refine fun u hl h => ih _ (fun r hr => hl r (List.mem_cons_of_mem _ hr)) ?_
      have hk := hl q (by simp)
      obtain ⟨k, _ | c⟩ := q
      · exact h
      · exact h.setReg (.inl (List.mem_append_left _ (List.mem_map.2 ⟨k, List.mem_range.2 hk, rfl⟩)))
  unfold State.roiFrame
  extract_lets res v inv mis w
  have hv : Quiet (roiRegs n) s v := hfold res s (fun q hq => by
    obtain ⟨k, hk, rfl⟩ := List.mem_map.1 hq
    exact List.mem_range.1 hk) (.refl _ s)
  have hin : ∀ o ∈ [rPRESS_ROI_STATUS n, rPRESS_ROI_FRAME n, rPRESS_STATUS n, rPRESS_ROI_MISMATCH_COUNT n], o ∈ roiRegs n := fun o ho =>
    List.mem_append_right _ ho
  have hw : Quiet (roiRegs n) s w := (hv.setRegN (.inl (hin _ (by simp)))).setRegN (.inl (hin _ (by simp)))
  have hframe : w.regN (rPRESS_ROI_FRAME n) = frame % 2 ^ 32 := by
    rw [State.regN_setRegN, if_pos rfl]
  clear_value w
  have hraise : Quiet [rPRESS_STATUS n, rPRESS_ROI_MISMATCH_COUNT n] w (w.raise (fPRESS_STATUS_ROI_MISMATCH n) (rPRESS_ROI_MISMATCH_COUNT n)) :=
    (Quiet.refl _ w).raise (.inl (by simp)) (.inl (by simp))
  generalize w.lampFrame = z
  split
  · generalize w.raise (fPRESS_STATUS_ROI_MISMATCH n) (rPRESS_ROI_MISMATCH_COUNT n) = x at hraise ⊢
    have hall := hraise.postOnce (k := evPRESS_ROI_MISMATCH) (w := n) (z := z) (c := srcPRESS n) (d := 2 ^ 30 * n + mis) (by decide)
    refine ⟨hw.trans (hall.mono fun o ho => hin o (List.mem_cons_of_mem _ (List.mem_cons_of_mem _ ho))), ?_⟩
    rw [hall.regN (by simp) (not_mem_evRegs (by unfold rPRESS_ROI_FRAME; omega)), hframe]
  · exact ⟨hw, hframe⟩

@[simp] theorem State.updSafeT_tg (s : State) (n : Nat) (f : SafeTile → SafeTile) : (s.updSafeT n f).tg = s.tg := rfl
@[simp] theorem State.updSafeT_press (s : State) (n : Nat) (f : SafeTile → SafeTile) : (s.updSafeT n f).press = s.press := rfl

theorem State.safeT_updSafeT (s : State) (n : Nat) (f : SafeTile → SafeTile) : (s.updSafeT n f).safeT n = f (s.safeT n) := by
  rw [State.safeT, State.updSafeT, State.setSafeT, tabGet_tabSet, if_pos rfl]

/-- A transfer frame's results, as far as the generator, the cap, saturation and regions give them. -/
def State.framed (s : State) (n : Nat) (x : Xfer) (p : PressT) : State :=
  (((((s.updTg n (fun g => { g with xfer := some x })).bkWindow n x).capFrame n p).satFrame n p).roiFrame n x.frame p x.torn)

theorem State.tgOf_updTg (s : State) (n : Nat) (f : Tg → Tg) : (s.updTg n f).tgOf n = f (s.tgOf n) := by
  rw [State.tgOf, State.updTg, State.setTg, tabGet_tabSet, if_pos rfl]

theorem State.framed_effect (s : State) (n : Fin 4) (x : Xfer) (p : PressT) :
    Shown (s.updTg n (fun g => { g with xfer := some x })) (s.framed n x p) ∧ (s.framed n x p).regN (rPRESS_ROI_FRAME n) = x.frame % 2 ^ 32 := by
  have hwin := (Shown.refl (s.updTg n (fun g => { g with xfer := some x }))).bkWindow n x
  rw [State.framed]
  generalize s.updTg n (fun g => { g with xfer := some x }) = u at hwin ⊢
  generalize u.bkWindow n x = v at hwin ⊢
  have hcap : Shown u (v.capFrame n p) := hwin.quiet (v.capFrame_quiet n p) (by
    simp only [rPRESS_TILE_LOAD, rPRESS_TILE_FACTOR, List.forall_mem_cons, List.not_mem_nil, false_imp_iff, implies_true, and_true]
    omega)
  generalize v.capFrame n p = v' at hcap ⊢
  have hsat : Shown u (v'.satFrame n p) := hcap.quiet (v'.satFrame_quiet n p) (by
    simp only [rPRESS_SAT_PIXELS, rPRESS_STATUS, rPRESS_SAT_COUNT, List.forall_mem_cons, List.not_mem_nil, false_imp_iff, implies_true, and_true]
    omega)
  generalize v'.satFrame n p = w at hsat ⊢
  obtain ⟨hq, hframe⟩ := w.roiFrame_effect n x.frame p x.torn
  refine ⟨hsat.quiet hq fun off ho => ?_, hframe⟩
  simp only [roiRegs, List.mem_append, List.mem_map, List.mem_range, List.mem_cons, List.not_mem_nil, or_false, rPRESS_ROI_CRC, rPRESS_ROI_STATUS,
    rPRESS_ROI_FRAME, rPRESS_STATUS, rPRESS_ROI_MISMATCH_COUNT] at ho
  omega

theorem State.recFrame_off {s : State} (h : s.recState = 0) (n frame swap : Nat) (torn fallback ok : Bool) : s.recFrame n frame swap torn fallback ok = s := by
  have hno : ¬(s.recState = recRECORDING ∨ s.recState = recPOST) := by rw [h]; decide
  exact if_neg fun hc => hno hc.1

theorem State.recState_congr {s t : State} (hcfg : t.reg rREC_CFG = s.reg rREC_CFG) (hst : t.reg rREC_STATUS = s.reg rREC_STATUS) : t.recState = s.recState := by
  rw [State.recState, State.recState, State.isF_congr (f := fREC_CFG_EN) hcfg, State.getF_congr (f := fREC_STATUS_STATE) hst]

theorem State.mapsLost_nil (s : State) (n late : Nat) {x : Xfer} (h : x.maps = []) : (s.mapsLost n late x).1 = [] := by
  unfold State.mapsLost
  split
  · exact h
  · split
    · exact h
    · rw [h]
      rfl

theorem State.endTransfer_eq {n late : Nat} {a b : Bool} {x : Xfer} (hx : (s.tgOf n).xfer = some x) (hend : x.ended = false) (hnext : 512 ≤ x.next)
    (hmaps : x.maps = []) (htorn : x.torn = false) (hsnap : (s.pr n).snapOn = false)
    (hrec : ((s.framed n { x with ended := true } (s.pr n)).statFrame n { x with ended := true } (s.pr n)).recState = 0) :
    s.endTransfer n a b late = (s.framed n { x with ended := true } (s.pr n)).statFrame n { x with ended := true } (s.pr n) := by
  have hlost := s.mapsLost_nil n late hmaps
  unfold State.endTransfer
  rw [hx]
  dsimp only
  rw [if_neg (by rw [hend]; simpa using hnext)]
  generalize s.mapsLost n late x = q at hlost ⊢
  obtain ⟨lost, why⟩ := q
  dsimp only at hlost ⊢
  subst hlost
  have hskip : s.slotSkip n [] why = s := rfl
  have hrec' := State.recFrame_off hrec n x.frame
  simp only [State.framed, htorn] at hrec' ⊢
  simp only [hskip, hmaps, hx, hsnap, htorn, Option.getD_some, List.filter_nil, List.foldl_nil, Bool.false_eq_true, if_false]
  rw [hmaps] at hrec'
  exact hrec' _ _ _ _

theorem does_transferEnd {n : Fin 4} {a b : Bool} {late : BitVec 4} {x : Xfer} (hx : (s.tgOf n).xfer = some x) (hend : x.ended = false) (hnext : 512 ≤ x.next)
    (hmaps : x.maps = []) (htorn : x.torn = false) (hsnap : (s.pr n).snapOn = false) (hrec : s.recState = 0) :
    Does (.transferEnd n a b late) s (fun t =>
      (t.tgOf n).xfer = some { x with ended := true } ∧ t.regN (rPRESS_ROI_FRAME n) = x.frame % 2 ^ 32
      ∧ (∃ r, (t.safeT n).record = some r ∧ r.frame = x.frame) ∧ (t.pr n).span = (s.pr n).span ∧ t.mem = s.mem) := by
  have hexec : exec (.transferEnd n a b late) s = .next (s.endTransfer n a b late.toNat) := rfl
  obtain ⟨hshown, hframe⟩ := s.framed_effect n { x with ended := true } (s.pr n)
  have htg := s.tgOf_updTg n (fun g => { g with xfer := some { x with ended := true } })
  have hpr : (s.updTg n (fun g => { g with xfer := some { x with ended := true } })).pr n = s.pr n := rfl
  have hmem : (s.updTg n (fun g => { g with xfer := some { x with ended := true } })).mem = s.mem := State.updTg_mem _ _ _
  have hreg : ∀ off, (s.updTg n (fun g => { g with xfer := some { x with ended := true } })).reg off = s.reg off := State.updTg_reg _ _ _
  have heq := State.endTransfer_eq (a := a) (b := b) (late := late.toNat) hx hend hnext hmaps htorn hsnap
  generalize s.updTg n (fun g => { g with xfer := some { x with ended := true } }) = u at hshown htg hpr hmem hreg
  generalize s.framed n { x with ended := true } (s.pr n) = v at hshown hframe heq
  have hstat : ∃ F, v.statFrame n { x with ended := true } (s.pr n) = v.updSafeT n F ∧ ∃ r, (F (v.safeT n)).record = some r ∧ r.frame = x.frame :=
    ⟨fun t => { t with record := some _ }, rfl, _, rfl, rfl⟩
  obtain ⟨F, hF, r, hr, hrf⟩ := hstat
  rw [hF] at heq
  have hrec' : (v.updSafeT n F).recState = 0 := by
    have hsame : ∀ off, 0x140800 ≤ off → off < 0x140840 → (v.updSafeT n F).reg off = s.reg off := fun off h1 h2 => by
      rw [State.updSafeT_reg, hshown.recorder off h1 h2, hreg]
    rw [State.recState_congr (hsame _ (by decide) (by decide)) (hsame _ (by decide) (by decide)), hrec]
  rw [heq hrec'] at hexec
  refine ⟨_, hexec, ?_, ?_, ⟨r, ?_, hrf⟩, ?_, ?_⟩
  · have htg' : (v.updSafeT n F).tgOf n = u.tgOf n := by
      rw [State.tgOf, State.tgOf, State.updSafeT_tg, hshown.tg]
    rw [htg', htg]
  · rw [State.regN_congr (State.updSafeT_reg _ _ _ _), hframe]
  · rw [State.safeT_updSafeT, hr]
  · have hpr' : (v.updSafeT n F).pr n = u.pr n := by
      rw [State.pr, State.pr, State.updSafeT_press, hshown.press]
    rw [hpr', hpr]
  · rw [State.updSafeT_mem, hshown.mem, hmem]

/-! ### The recorder -/

/-- Where the recorder is enabled its state is STATE's, RECORDING for 0. -/
theorem State.recState_of {s : State} {k : Nat} (hen : s.isF fREC_CFG_EN = true) (hk : k ≠ 0) (hst : s.getF fREC_STATUS_STATE = k) : s.recState = k := by
  rw [State.recState, hen, if_neg (by decide), hst, if_neg hk]

theorem State.recEn_of {s : State} (h : s.recState ≠ recOFF) : s.isF fREC_CFG_EN = true := by
  rw [State.recState] at h
  split at h
  · exact absurd rfl h
  · next hen => simpa using hen

theorem State.rec_present (s : State) : s.absentUnit rREC_CTRL = false := by
  simp [State.absentUnit]

/-- The freeze's time and place, before its source and the new state. -/
def State.recMarked (s : State) : State :=
  ((s.setRegN rREC_TRIG_PTR (s.regN rREC_WR_PTR)).setRegN rREC_TRIG_SEQ s.record.seq).setPair rREC_TRIG_TIME_LO rREC_TRIG_TIME_HI
    ((s.setRegN rREC_TRIG_PTR (s.regN rREC_WR_PTR)).setRegN rREC_TRIG_SEQ s.record.seq).lampNs

theorem State.recMarked_effect (s : State) :
    s.recMarked.regN rREC_TRIG_PTR = s.regN rREC_WR_PTR ∧ s.recMarked.pair rREC_TRIG_TIME_LO rREC_TRIG_TIME_HI = s.lampNs
      ∧ OnlyRegs [rREC_TRIG_PTR, rREC_TRIG_SEQ, rREC_TRIG_TIME_LO, rREC_TRIG_TIME_HI] s s.recMarked := by
  have hset : OnlyRegs [rREC_TRIG_PTR, rREC_TRIG_SEQ, rREC_TRIG_TIME_LO, rREC_TRIG_TIME_HI] s
      ((s.setRegN rREC_TRIG_PTR (s.regN rREC_WR_PTR)).setRegN rREC_TRIG_SEQ s.record.seq) := ((OnlyRegs.refl _ s).setRegN (by decide)).setRegN (by decide)
  have hptr : ((s.setRegN rREC_TRIG_PTR (s.regN rREC_WR_PTR)).setRegN rREC_TRIG_SEQ s.record.seq).regN rREC_TRIG_PTR = s.regN rREC_WR_PTR := by
    rw [State.regN_setRegN, if_neg (by decide), State.regN_setRegN, if_pos rfl, Nat.mod_eq_of_lt (s.regN_lt _)]
  have hns : ((s.setRegN rREC_TRIG_PTR (s.regN rREC_WR_PTR)).setRegN rREC_TRIG_SEQ s.record.seq).lampNs = s.lampNs :=
    congrArg (· / 2 ^ 32) (hset.quiet.lampFine (by decide))
  rw [State.recMarked, hns]
  generalize (s.setRegN rREC_TRIG_PTR (s.regN rREC_WR_PTR)).setRegN rREC_TRIG_SEQ s.record.seq = u at hset hptr
  refine ⟨?_, (State.pair_setPair _ (by decide) _).trans (Nat.mod_eq_of_lt s.lampNs_lt), hset.setPair (by decide) (by decide)⟩
  rw [State.regN_setPair_other _ (by decide) (by decide), hptr]

theorem State.reg_withRecord (s : State) (x : RecSt) (off : Nat) : ({ s with record := x } : State).reg off = s.reg off := rfl

theorem State.mem_withRecord (s : State) (x : RecSt) : ({ s with record := x } : State).mem = s.mem := rfl

/-- STATUS of a freeze from `src`. -/
def State.recPosted (s : State) (src : Nat) : State := (s.setF fREC_STATUS_TRIG_SRC src).setF fREC_STATUS_STATE recPOST

theorem State.recPosted_effect (s : State) {src : Nat} (h : src < 16) : (s.recPosted src).getF fREC_STATUS_STATE = recPOST
    ∧ (s.recPosted src).getF fREC_STATUS_TRIG_SRC = src ∧ OnlyRegs [rREC_STATUS] s (s.recPosted src) := by
  rw [State.recPosted]
  refine ⟨State.getF_setF _ _ _ (by decide), ?_, ((OnlyRegs.refl _ s).setF (by decide)).setF (by decide)⟩
  rw [State.getF_setF_other _ _ _ _ (by decide) (by decide), State.getF_setF _ _ _ (by decide)]
  exact Nat.mod_eq_of_lt h

theorem State.recTrigger_go {s : State} (hst : s.recState = recRECORDING) (src : Nat) :
    s.recTrigger src = { s.recMarked.recPosted src with record := { (s.recMarked.recPosted src).record with mark := [0, 1, 2, 3], ptr := true } } := by
  rw [State.recTrigger, hst]
  rfl

theorem does_recFreeze (ht : Takes s rREC_CTRL) (hst : s.recState = recRECORDING) : Does .recFreeze s (fun t => t.recState = recPOST
      ∧ t.getF fREC_STATUS_TRIG_SRC = 5 ∧ t.regN rREC_TRIG_PTR = s.regN rREC_WR_PTR
      ∧ t.pair rREC_TRIG_TIME_LO rREC_TRIG_TIME_HI = s.lampNs ∧ t.mem = s.mem) := by
  refine does_viaReg_present s.rec_present ht (act := fun s => s.recTrigger 5) rfl ?_
  obtain ⟨hptr, hpair, honly⟩ := s.recMarked_effect
  have hen : s.isF fREC_CFG_EN = true := State.recEn_of (by rw [hst]; decide)
  rw [State.recTrigger_go hst]
  generalize s.recMarked = u at hptr hpair honly ⊢
  obtain ⟨hstate, hsrc, hset⟩ := u.recPosted_effect (src := 5) (by decide)
  generalize u.recPosted 5 = v at hstate hsrc hset ⊢
  have hreg : ∀ off, off ≠ rREC_STATUS → v.reg off = u.reg off := fun off ho => hset.regs off (by simpa using ho)
  refine ⟨State.recState_of ?_ (by decide) ?_, ?_, ?_, ?_, ?_⟩
  · rw [State.isF_congr (State.reg_withRecord _ _ _), State.isF_congr (hreg _ (by decide)), State.isF_congr (honly.regs _ (by decide)), hen]
  · rw [State.getF_congr (State.reg_withRecord _ _ _), hstate]
  · rw [State.getF_congr (State.reg_withRecord _ _ _), hsrc]
  · rw [State.regN_congr (State.reg_withRecord _ _ _), State.regN_congr (hreg _ (by decide)), hptr]
  · rw [← hpair, State.pair, State.pair, State.regN_congr ((State.reg_withRecord _ _ _).trans (hreg rREC_TRIG_TIME_LO (by decide))),
      State.regN_congr ((State.reg_withRecord _ _ _).trans (hreg rREC_TRIG_TIME_HI (by decide)))]
  · rw [State.mem_withRecord, hset.mem_eq, honly.mem_eq]

theorem does_recFreeze_ignored (ht : Takes s rREC_CTRL) (hst : s.recState = recPOST ∨ s.recState = recFROZEN) : Does .recFreeze s (fun t =>
      t.regN rREC_TRIG_IGNORED_COUNT = min 0xFFFF (s.regN rREC_TRIG_IGNORED_COUNT + 1) ∧ Quiet [rREC_TRIG_IGNORED_COUNT] s t) := by
  refine does_viaReg_present s.rec_present ht (act := fun s => s.recTrigger 5) rfl ?_
  rw [State.recTrigger, if_pos hst]
  exact ⟨(s.regN_bump _).trans (Nat.min_comm _ _), (Quiet.refl _ s).bump (.inl (by decide))⟩

/-- The record is empty again. -/
def State.recBlank (s : State) : State := { s with record := { s.record with ents := [], mark := [], ptr := false } }

theorem State.recBlank_reg (s : State) (off : Nat) : s.recBlank.reg off = s.reg off := rfl

theorem State.recBlank_mem (s : State) : s.recBlank.mem = s.mem := rfl

theorem State.recBlank_record (s : State) : s.recBlank.record = { s.record with ents := [], mark := [], ptr := false } := rfl

/-- The recorder's registers as it is armed again. -/
def State.rearmed (s : State) : State :=
  ((s.setRegN rREC_OLDEST_PTR (s.regN rREC_WR_PTR)).setRegN rREC_SPAN 0).setF fREC_STATUS_STATE recRECORDING

theorem State.rearmed_effect (s : State) : s.rearmed.getF fREC_STATUS_STATE = recRECORDING ∧ s.rearmed.regN rREC_OLDEST_PTR = s.regN rREC_WR_PTR
    ∧ OnlyRegs [rREC_OLDEST_PTR, rREC_SPAN, rREC_STATUS] s s.rearmed := by
  rw [State.rearmed]
  refine ⟨State.getF_setF _ _ _ (by decide), ?_, (((OnlyRegs.refl _ s).setRegN (by decide)).setRegN (by decide)).setF (by decide)⟩
  rw [State.regN_setF_other _ _ (by decide), State.regN_setRegN, if_neg (by decide), State.regN_setRegN, if_pos rfl, Nat.mod_eq_of_lt (s.regN_lt _)]

theorem does_recRearm (ht : Takes s rREC_CTRL) (hst : s.recState = recFROZEN) : Does .recRearm s (fun t => t.recState = recRECORDING
      ∧ t.record = { s.record with ents := [], mark := [], ptr := false } ∧ t.regN rREC_OLDEST_PTR = s.regN rREC_WR_PTR ∧ t.mem = s.mem) := by
  refine does_viaReg_present s.rec_present ht (act := fun s => s.recRearmOp) rfl ?_
  have hen : s.isF fREC_CFG_EN = true := State.recEn_of (by rw [hst]; decide)
  have hop : s.recRearmOp = s.recBlank.rearmed.postOnce evPRESS_REC_REARMED 0
      ((s.recBlank.setRegN rREC_OLDEST_PTR (s.recBlank.regN rREC_WR_PTR)).setRegN rREC_SPAN 0).lampFrame (srcPRESS 0) 0 := by
    rw [State.recRearmOp, hst]
    rfl
  have hreg := s.recBlank_reg
  have hmem := s.recBlank_mem
  have hrec := s.recBlank_record
  rw [hop]
  generalize State.lampFrame _ = z
  generalize s.recBlank = u at hreg hmem hrec ⊢
  obtain ⟨hstate, hold, hset⟩ := u.rearmed_effect
  generalize u.rearmed = v at hstate hold hset ⊢
  have hpost := (Quiet.refl [] v).postOnce (k := evPRESS_REC_REARMED) (w := 0) (z := z) (c := srcPRESS 0) (d := 0) (by decide)
  refine ⟨State.recState_of ?_ (by decide) ?_, ?_, ?_, ?_⟩
  · rw [hpost.isF _ (by simp) (by decide), State.isF_congr (hset.regs _ (by decide)), State.isF_congr (hreg _), hen]
  · rw [hpost.getF _ (by simp) (by decide), hstate]
  · rw [hpost.record, hset.record, hrec]
  · rw [hpost.regN (by simp) (by decide), hold, State.regN_congr (hreg _)]
  · rw [hpost.mem_eq, hset.mem_eq, hmem]

theorem does_recFrozen (hst : s.recState = recPOST) : Does .recFrozen s (fun t => t.recState = recFROZEN ∧ Quiet [rREC_STATUS] s t) := by
  have hx : exec .recFrozen s = .next (if s.recState = recPOST then
    (s.setF fREC_STATUS_STATE recFROZEN).postOnce evPRESS_REC_FROZEN 0 s.lampFrame (srcPRESS 0) (s.getF fREC_STATUS_TRIG_SRC) else s) := rfl
  rw [if_pos hst] at hx
  have hget := s.getF_setF fREC_STATUS_STATE recFROZEN (by decide)
  have hset : Quiet [rREC_STATUS] s (s.setF fREC_STATUS_STATE recFROZEN) := (Quiet.refl _ s).setF (.inl (by decide))
  generalize s.setF fREC_STATUS_STATE recFROZEN = u at hx hget hset
  have hpost := (Quiet.refl [] u).postOnce (k := evPRESS_REC_FROZEN) (w := 0) (z := s.lampFrame) (c := srcPRESS 0) (d := s.getF fREC_STATUS_TRIG_SRC) (by decide)
  refine ⟨_, hx, State.recState_of ?_ (by decide) ?_, hset.trans (hpost.mono (by simp))⟩
  · rw [hpost.isF _ (by simp) (by decide), hset.isF _ (by decide) (by decide)]
    exact State.recEn_of (by rw [hst]; decide)
  · rw [hpost.getF _ (by simp) (by decide), hget]
    rfl

end

/-! ### The obligation -/

/-- Settles O47: each clause by the lemma on its command. -/
theorem pressCommands : Obligations.PressCommands := by
  unfold Obligations.PressCommands
  exact ⟨fun n s habs ht => ⟨does_updCommit habs ht, does_updBusy habs ht, does_updFill habs ht, does_updCancel habs ht⟩,
    fun n s => does_fillDone,
    fun n rows s hst hload hc hsweep hend => does_updateWindow hst hload hc hsweep hend,
    fun n a b late s x hx hend hnext hmaps htorn hsnap hrec => does_transferEnd hx hend hnext hmaps htorn hsnap hrec,
    fun s ht => ⟨does_recFreeze ht, does_recFreeze_ignored ht, does_recRearm ht, does_recFrozen⟩⟩

end Sys2Proof.Machine

/-! ## A slot that the Tether channel's own table finds too long (R199, R358) -/

namespace Sys2Proof.Machine

/-- Tile 0's generator runs and slot 0, 4 ns long, is about to fire; the channel's own table allows a slot of no length at all, while the
bitstream in force gives no limit. -/
def longSlot : State :=
  { (((State.reset.setRegN (rTG_STATUS 0) 2).setRegN (rTG_SLOT_POS 0 0) 0x80000000).setRegN (rTG_SLOT_LEN 0 0) 4).setTg 0
      { fire := [(0, 0)] } with
    safe := { State.reset.safe with ttTab := { State.reset.safe.ttTab with slotMax := some 0 } } }

theorem longSlot_count : longSlot.regN rSAFETY_ROW_ENERGY_COUNT = 0 := by decide

/-- The channel counts the slot as a violation. -/
theorem longSlot_slotOp_count : (longSlot.slotOp 0 0).regN rSAFETY_ROW_ENERGY_COUNT = 1 := by decide +kernel

/-- Refutes O48: SLOT checks the slot's length by the limit in the channel's own table, which the clause's hypothesis on the bitstream in
force does not bound; a slot past it leaves a violation in the registers. -/
theorem not_timingGenerators : ¬ Obligations.TimingGenerators := by
  unfold Obligations.TimingGenerators
  rintro ⟨-, -, -, hslot, -⟩
  obtain ⟨t, hx, -, -, hregs, -⟩ := hslot 0 0 0 longSlot rfl (by decide) (by decide) (by decide) (by decide) rfl
  have heq : exec (.slot 0 0) longSlot = .next (longSlot.slotOp 0 0) := rfl
  rw [heq] at hx
  have ht : longSlot.slotOp 0 0 = t := by injection hx
  have hcount : (longSlot.slotOp 0 0).regN rSAFETY_ROW_ENERGY_COUNT = longSlot.regN rSAFETY_ROW_ENERGY_COUNT :=
    State.regN_congr (State.reg_of_regs (ht ▸ hregs) _)
  rw [longSlot_slotOp_count, longSlot_count] at hcount
  exact absurd hcount (by decide)

end Sys2Proof.Machine

/-! ## A life record read where the map is in DRAM already (R265, R269) -/

namespace Sys2Proof.Machine

/-- A shift step leaves the register of CRC-32C within its 32 bits. -/
theorem crc32cShift_fits {c : Nat} (k : Nat) (h : c < 2 ^ 32) : crc32cShift c k < 2 ^ 32 := by
  induction k generalizing c with
  | zero => exact h
  | succ k ih =>
    refine ih ?_
    split
    · exact Nat.xor_lt_two_pow (by omega) (by decide)
    · omega

theorem crc32c_fits (bs : List Byte) : crc32c bs < 2 ^ 32 := by
  refine Nat.xor_lt_two_pow (by decide) ?_
  refine List.foldlRecOn (motive := (· < 2 ^ 32)) bs _ (by decide) fun c hc b _ => ?_
  exact crc32cShift_fits 8 (Nat.xor_lt_two_pow hc (Nat.lt_trans b.isLt (by decide)))

/-- A block that carries the check value of its words. -/
def checkedBlock (hdr : BitVec 48) (ws : List (BitVec 64)) : BlockIn :=
  { hdr := hdr, words := ws, crc := BitVec.ofNat 32 (crc32c (ws.flatMap (fun w => leBytes 8 w.toNat))) }

theorem checkedBlock_good {hdr : BitVec 48} {ws : List (BitVec 64)} (h : payF hdr 51 32 = ws.length) :
    blkGood (checkedBlock hdr ws) = true := by
  simp only [blkGood, checkedBlock, h, BitVec.toNat_ofNat, Nat.mod_eq_of_lt (crc32c_fits _), BEq.rfl, Bool.and_self]

/-- A good block of 4,096 words of zero under tag 0. -/
def zeroHalf : BlockIn := checkedBlock (BitVec.ofNat 48 (4096 * 2 ^ 24)) (List.replicate 4096 0)

theorem zeroHalf_good : blkGood zeroHalf = true :=
  checkedBlock_good ((show payF (BitVec.ofNat 48 (4096 * 2 ^ 24)) 51 32 = 4096 by decide).trans List.length_replicate.symm)

/-- The half A arrives and no read is left: whether the map counts as read says whether DRAM held it already. -/
theorem State.nvNext_halfA {s : State} {n len tag tries : Nat} (bs : List Byte) (hread : (s.portOf n).nvRead = some (lifeUnitA, len, tag, tries))
    (hqueue : (s.portOf n).nvQueue = []) :
    (((s.nvStore n lifeUnitA bs).nvNext n).portOf n).mapRead = !s.boot.mapOk.getD n false := by
  have hport : (s.nvStore n lifeUnitA bs).portOf n = { s.portOf n with lifeA := bs } := by
    rw [State.nvStore, if_pos rfl]
    exact State.portOf_updPort_self _ _ _
  have hboot : (s.nvStore n lifeUnitA bs).boot = s.boot := by rw [State.nvStore, if_pos rfl]; rfl
  generalize s.nvStore n lifeUnitA bs = u at hport hboot
  have hshow : u.lifeShow n = u := by
    rw [State.lifeShow, hport]
    simp only [hread]
    exact if_neg (by decide)
  rw [State.nvNext, hshow, hport]
  simp only [hqueue]
  rw [State.portOf_updPort_self, hboot]

/-- Port 0 is ACTIVE and awaits the first half of the life record, the last read of all; the tile's map is in DRAM already. -/
def lifeAwaited : State :=
  { State.reset.setRegN (rZTL_STATUS 0) zACTIVE with
    port := [(0, { nvRead := some (lifeUnitA, 0x1000, 0, 0) })]
    boot := { State.reset.boot with mapOk := [true, false, false, false] } }

/-- Refutes O51: where the tile's map is in DRAM already, the end of the life-record reads is no read of the map, and MAP_READ stays
clear. -/
theorem not_tileProtocol : ¬ Obligations.TileProtocol := by
  unfold Obligations.TileProtocol
  rintro ⟨-, -, -, -, -, -, -, -, -, -, -, -, -, hnv, -⟩
  have hlen : zeroHalf.words.length = 0x1000 := List.length_replicate
  have htag : payF zeroHalf.hdr 15 8 = 0 := show payF (BitVec.ofNat 48 (4096 * 2 ^ 24)) 15 8 = 0 by decide
  obtain ⟨t, hx, -, hread, -⟩ := hnv 0 zeroHalf 0 0 lifeAwaited (by decide) rfl zeroHalf_good hlen htag rfl
  have heq : exec (.nvBlock 0 zeroHalf) lifeAwaited = .next ((lifeAwaited.nvStore 0 lifeUnitA (blkBytes zeroHalf)).nvNext 0) := by
    have h : exec (.nvBlock 0 zeroHalf) lifeAwaited = execNvBlock 0 zeroHalf lifeAwaited := rfl
    rw [h, execNvBlock, show ((0 : Fin 4) : Nat) = 0 from rfl, if_pos (show lifeAwaited.zActive 0 = true by decide), State.nvBlock]
    exact congrArg Host.Outcome.next (if_pos ⟨zeroHalf_good, hlen, htag⟩)
  rw [heq] at hx
  have ht : (lifeAwaited.nvStore 0 lifeUnitA (blkBytes zeroHalf)).nvNext 0 = t := by injection hx
  have hclear : (((lifeAwaited.nvStore 0 lifeUnitA (blkBytes zeroHalf)).nvNext 0).portOf 0).mapRead = false :=
    State.nvNext_halfA _ rfl rfl
  rw [ht] at hclear
  exact absurd (hclear.symm.trans hread) (by decide)

end Sys2Proof.Machine

/-! ## SCHED_WRITE on an entry whose instant has come (R316, R318, R324) -/

namespace Sys2Proof.Machine

/-- Schedule entry 0 is to wake the engines that name it, and its instant has come; engine 0, in IDLE, names it, and one byte of local
data waits for its next job. -/
def wakeDueEntry : State :=
  { (State.reset.setRegN (rBE_STATUS 0) beIDLE).setF (fBE_JOB_TRIG_SRC 0) 1 with
    boot := { State.reset.boot with porst := true }
    be := [(0, { next := some { number := 1, data := [1#8] } })]
    time := { State.reset.time with
      sched := [(0, some { mode := sONCE, late := 0, action := 6, arg := 0, period := 0, lo := 0, target := 0 })] } }

/-- The record that disarms entry 0. -/
def disarmRecord : RecIn :=
  { seq := BitVec.ofNat 16 (wakeDueEntry.lastSeq 2 + 1), flags := 0, ref := 0, payload := [0#8, 1#8] ++ List.replicate 22 0#8, crcOk := true }

theorem disarmRecord_inOrder : InOrder 2 disarmRecord wakeDueEntry := by
  unfold InOrder ChannelUp Fits
  decide +kernel

/-- The entry executes before it is disarmed: the job that it starts loads its local data. -/
theorem wakeDueEntry_data : (wakeDueEntry.recIn 2 4 disarmRecord).byte (ldBase 0) = 1#8 := by decide +kernel

/-- Refutes O52: an entry whose instant has come executes before SCHED_WRITE disarms it, and the job that it starts may load a new
program into an engine's memory. -/
theorem not_holvoRouter : ¬ Obligations.HolvoRouter := by
  unfold Obligations.HolvoRouter
  rintro ⟨-, -, -, -, hsched, -⟩
  obtain ⟨-, hoff⟩ := hsched 2 0 0 0 0 0 disarmRecord wakeDueEntry disarmRecord_inOrder rfl
  obtain ⟨t, hx, -, -, hmem⟩ := hoff rfl rfl rfl rfl
  have heq : exec (.schedWrite 2 disarmRecord) wakeDueEntry = .next (wakeDueEntry.recIn 2 4 disarmRecord) := rfl
  rw [heq] at hx
  have ht : wakeDueEntry.recIn 2 4 disarmRecord = t := by injection hx
  have hbyte : (wakeDueEntry.recIn 2 4 disarmRecord).byte (ldBase 0) = wakeDueEntry.byte (ldBase 0) :=
    congrArg (fun m => tabGet (fun _ => 0#8) m (ldBase 0)) (ht ▸ hmem)
  rw [wakeDueEntry_data] at hbyte
  exact absurd hbyte (by decide)

end Sys2Proof.Machine

/-! ## LAMP_REQ and the fallback beam of SS1 (R330, R364) -/

namespace Sys2Proof.Machine

/-- Tile 0's port is ACTIVE, CAN controller 0 works, and its last valid frame asked for the fallback beam. -/
def fallbackAsked : State :=
  { State.reset.setRegN (rZTL_STATUS 0) zACTIVE with
    boot := { State.reset.boot with porst := true }
    loader := { State.reset.loader with phase := 2 }
    host := { State.reset.host with can := [{ prev := some true }, {}] } }

/-- A LAMP_REQ that asks for it again, with its check value. -/
def fallbackFrame : List Byte :=
  let d := [0#8, 1#8, 0#8, 0#8, 0#8, 0#8, 0#8]
  crc8 d :: d

/-- The tile is commanded into its fallback beam: its link carries the command. -/
theorem fallbackAsked_port : (((fallbackAsked.canRecOk 0).canTake 0 fallbackFrame).portOf 0).fbCmd = true := by decide +kernel

theorem fallbackFrame_valid : canValid (fallbackAsked.canOf 0).last fallbackFrame = true := by decide +kernel

theorem fallbackAsked_lampReq :
    exec (.lampReq 0 (.frame {} fallbackFrame)) fallbackAsked = .next ((fallbackAsked.canRecOk 0).canTake 0 fallbackFrame) := by
  have h : exec (.lampReq 0 (.frame {} fallbackFrame)) fallbackAsked = execLampReq 0 (.frame {} fallbackFrame) fallbackAsked := rfl
  have hon : ¬fallbackAsked.canOn 0 = false := by decide
  have hlast : ((fallbackAsked.canRecOk 0).canOf 0).last = (fallbackAsked.canOf 0).last := rfl
  rw [h, execLampReq, show ((0 : Fin 2) : Nat) = 0 from rfl, if_neg hon]
  exact congrArg Host.Outcome.next ((if_neg (fun hne => hne rfl)).trans (if_pos (hlast ▸ fallbackFrame_valid)))

theorem fallbackAsked_before : (fallbackAsked.portOf 0).fbCmd = false := rfl

/-- Refutes O54: a LAMP_REQ that latches the request takes a lit tile to SS1, and its port sends the fallback command. -/
theorem not_hostLinks : ¬ Obligations.HostLinks := by
  unfold Obligations.HostLinks
  rintro ⟨-, -, -, -, hcan, -⟩
  obtain ⟨-, hframe⟩ := hcan 0 fallbackAsked (by decide)
  obtain ⟨-, -, hvalid⟩ := hframe {} fallbackFrame
  obtain ⟨t, hx, -, -, -, -, -, -, hport⟩ := hvalid rfl fallbackFrame_valid (by decide)
  rw [fallbackAsked_lampReq] at hx
  have ht : (fallbackAsked.canRecOk 0).canTake 0 fallbackFrame = t := by injection hx
  have hsame : (((fallbackAsked.canRecOk 0).canTake 0 fallbackFrame).portOf 0).fbCmd = (fallbackAsked.portOf 0).fbCmd :=
    congrArg (fun x => (tabGet (fun _ => {}) x 0 : Port).fbCmd) (ht ▸ hport)
  rw [fallbackAsked_port, fallbackAsked_before] at hsame
  exact absurd hsame (by decide)

end Sys2Proof.Machine

/-! ## HEALTH's commands (O60, R277, R279, R285 to R289) -/

namespace Sys2Proof.Machine

@[simp] theorem State.hl_updHl (s : State) (n k : Nat) (f : HealthT → HealthT) : (s.updHl n f).hl k = if k = n then f (s.hl n) else s.hl k :=
  s.hl_setHl n k _

theorem State.updHl_eq (s : State) (n : Nat) (f : HealthT → HealthT) : s.updHl n f = { s with health := (s.updHl n f).health } := rfl

theorem State.hl_congr {s t : State} (h : t.health = s.health) (n : Nat) : t.hl n = s.hl n := by rw [State.hl, State.hl, h]

/-- Registers and events after a change of a tile's entry. -/
theorem Quiet.afterHl {l : List Nat} {s u : State} {n : Nat} {f : HealthT → HealthT} (q : Quiet l (s.updHl n f) u) :
    u.health = (s.updHl n f).health ∧ Quiet l { s with health := u.health } u := by
  have h := q.health
  refine ⟨h, ?_⟩
  rw [h, ← State.updHl_eq]
  exact q

section
variable {n : Fin 4} {s : State}

/-! ### BASELINE -/

theorem State.baselineOp_some {b : BaseRun} (h : (s.hl n).base = some b) : s.baselineOp n = s := by
  rw [State.baselineOp, h, Option.isSome_some, if_pos rfl]

theorem State.hlShow_onlyRegs (s : State) (n : Nat) : OnlyRegs [rHEALTH_SWEEP_STATUS n] s (s.hlShow n) :=
  (((OnlyRegs.refl _ s).setF (by simp)).setF (by simp)).setF (by simp)

theorem State.isF_baseActive {b : BaseRun} (h : (s.hl n).base = some b) : s.baseActive.isF fHEALTH_STATUS_BASELINE_ACTIVE = true := by
  have hany : (List.range 4).any (fun k => (s.hl k).base.isSome) = true :=
    List.any_eq_true.2 ⟨n, List.mem_range.2 n.isLt, by rw [h]; rfl⟩
  rw [State.baseActive, hany]
  exact s.isF_setF_one rfl (by decide)

theorem State.baselineOp_none (h : (s.hl n).base = none) :
    ((s.baselineOp n).hl n).base = some { on := decide (s.getF (fTG_SENSE_CFG_CHUNK n) = 0) }
      ∧ (s.baselineOp n).isF fHEALTH_STATUS_BASELINE_ACTIVE = true
      ∧ Quiet [rHEALTH_STATUS, rHEALTH_SWEEP_STATUS n] { s with health := (s.baselineOp n).health } (s.baselineOp n) := by
  rw [State.baselineOp, h, Option.isSome_none, if_neg (by decide)]
  generalize hf : (fun x : HealthT => { x with base := some { on := decide (s.getF (fTG_SENSE_CFG_CHUNK n) = 0) } }) = f
  have hbase : ((s.updHl n f).hl n).base = some { on := decide (s.getF (fTG_SENSE_CFG_CHUNK n) = 0) } := by
    rw [State.hl_updHl, if_pos rfl, ← hf]
  have hact := State.isF_baseActive hbase
  have hregs : OnlyRegs [rHEALTH_STATUS, rHEALTH_SWEEP_STATUS n] (s.updHl n f) (s.updHl n f).baseActive := (OnlyRegs.refl _ _).setF (by simp)
  have hshow := (s.updHl n f).baseActive.hlShow_onlyRegs n
  have hboth : Quiet [rHEALTH_STATUS, rHEALTH_SWEEP_STATUS n] (s.updHl n f) ((s.updHl n f).baseActive.hlShow n) :=
    hregs.quiet.trans (hshow.quiet.mono (by simp))
  obtain ⟨hhl, hq⟩ := hboth.afterHl
  refine ⟨?_, ?_, hq⟩
  · rw [State.hl_congr hhl, hbase]
  · rw [hshow.quiet.isF _ (by rw [List.mem_singleton]; simp only [rHEALTH_STATUS, rHEALTH_SWEEP_STATUS]; omega) (not_mem_evRegs (by decide)), hact]

theorem does_baseline (ht : Takes s rHEALTH_CMD) :
    (∀ b, (s.hl n).base = some b → Does (.baseline n) s (fun t => t = s))
    ∧ ((s.hl n).base = none → Does (.baseline n) s (fun t =>
      (t.hl n).base = some { on := decide (s.getF (fTG_SENSE_CFG_CHUNK n) = 0) } ∧ t.isF fHEALTH_STATUS_BASELINE_ACTIVE = true
      ∧ Quiet [rHEALTH_STATUS, rHEALTH_SWEEP_STATUS n] { s with health := t.health } t)) := by
  have hx : exec (.baseline n) s = .next (s.viaReg rHEALTH_CMD (fun s => s.baselineOp n)) := rfl
  have habs := s.absentUnit_of_le (off := rHEALTH_CMD) (by decide)
  exact ⟨fun b hb => does_viaReg_present habs ht hx (State.baselineOp_some hb), fun hb => does_viaReg_present habs ht hx (State.baselineOp_none hb)⟩

theorem does_baselineAutoStart :
    ((s.hl n).fresh = false → Does (.baselineAutoStart n) s (fun t => t = s))
    ∧ ((s.hl n).fresh = true → (s.hl n).base = none → Does (.baselineAutoStart n) s (fun t =>
      (t.hl n).base = some { on := decide (s.getF (fTG_SENSE_CFG_CHUNK n) = 0) } ∧ t.isF fHEALTH_STATUS_BASELINE_ACTIVE = true
      ∧ Quiet [rHEALTH_STATUS, rHEALTH_SWEEP_STATUS n] { s with health := t.health } t)) := by
  have hx : exec (.baselineAutoStart n) s = .next (if (s.hl n).fresh then s.baselineOp n else s) := rfl
  refine ⟨fun hf => ?_, fun hf hb => ?_⟩
  · rw [hf, if_neg (by decide)] at hx
    exact ⟨s, hx, rfl⟩
  · rw [hf, if_pos rfl] at hx
    exact ⟨_, hx, State.baselineOp_none hb⟩

/-! ### Checkpoints asked for -/

/-- The tiles of `l` that are up owe a full checkpoint and a life record. -/
theorem State.foldl_checkpoint (l : List Nat) (hl : l.Nodup) : ∀ s : State,
    let t := l.foldl (fun s n => if s.tileUp n then s.updHl n (fun h => { h with ckpt := true, lifeDue := 2 }) else s) s
    t = { s with health := t.health } ∧ ∀ k, t.hl k = if k ∈ l ∧ s.tileUp k = true then { s.hl k with ckpt := true, lifeDue := 2 } else s.hl k := by
  induction l with
  | nil => exact fun s => ⟨rfl, fun k => by simp⟩
  | cons m l ih =>
    intro s
    obtain ⟨hm, hl⟩ := List.nodup_cons.1 hl
    have hstep : ∃ u, (if s.tileUp m then s.updHl m (fun h => { h with ckpt := true, lifeDue := 2 }) else s) = u
        ∧ u = { s with health := u.health }
        ∧ ∀ k, u.hl k = if k = m ∧ s.tileUp k = true then { s.hl k with ckpt := true, lifeDue := 2 } else s.hl k := by
      refine ⟨_, rfl, ?_, fun k => ?_⟩
      · split <;> rfl
      · by_cases hk : k = m
        · subst hk
          by_cases hup : s.tileUp k = true <;> simp [hup]
        · by_cases hup : s.tileUp m = true <;> simp [hup, hk]
    obtain ⟨u, hu, hrest, hget⟩ := hstep
    obtain ⟨hrest', hget'⟩ := ih hl u
    have hup : ∀ k, u.tileUp k = s.tileUp k := fun k => by rw [hrest]; rfl
    simp only [List.foldl_cons, hu]
    generalize l.foldl (fun s n => if s.tileUp n then s.updHl n (fun h => { h with ckpt := true, lifeDue := 2 }) else s) u = t at hrest' hget'
    refine ⟨?_, fun k => ?_⟩
    · rw [hrest] at hrest'
      exact hrest'
    · rw [hget', hup, hget]
      by_cases hk : k = m
      · subst hk
        simp [hm]
      · simp [hk]

theorem does_checkpoint (ht : Takes s rHEALTH_CMD) : Does .checkpoint s (fun t => t = { s with health := t.health }
    ∧ ∀ n, n < 4 → t.hl n = if s.tileUp n then { s.hl n with ckpt := true, lifeDue := 2 } else s.hl n) := by
  have hx : exec .checkpoint s = .next (s.viaReg rHEALTH_CMD (fun s => s.checkpointOp)) := rfl
  obtain ⟨hrest, hget⟩ := State.foldl_checkpoint (List.range 4) (List.nodup_range) s
  refine does_viaReg_present (s.absentUnit_of_le (by decide)) ht hx ⟨hrest, fun n hn => ?_⟩
  rw [State.checkpointOp, hget n]
  simp [hn]

theorem does_fullCheckpointDue : Does (.fullCheckpointDue n) s (fun t => t = { s with health := t.health }
    ∧ t.hl n = { s.hl n with ckpt := (s.hl n).ckpt || s.tileUp n } ∧ ∀ k, k ≠ n.val → t.hl k = s.hl k) := by
  have hx : exec (.fullCheckpointDue n) s = .next (if s.tileUp n then s.updHl n (fun h => { h with ckpt := true }) else s) := rfl
  by_cases hup : s.tileUp n = true
  · rw [if_pos hup] at hx
    exact ⟨_, hx, rfl, by simp [hup], fun k hk => by simp [hk]⟩
  · rw [if_neg hup] at hx
    exact ⟨_, hx, rfl, by simp [hup], fun _ _ => rfl⟩

theorem does_deltaCheckpointDue : (s.boot.porst = false → Does .deltaCheckpointDue s (fun t => t = s))
    ∧ (s.boot.porst = true → Does .deltaCheckpointDue s (fun t => t = { s with hk := { s.hk with deltaDue := true } })) := by
  have hx : exec .deltaCheckpointDue s = .next (s.inCore (fun s => s.updHk (fun h => { h with deltaDue := true }))) := rfl
  refine ⟨fun hp => ?_, fun hp => does_inCore hx hp rfl⟩
  rw [State.inCore, hp, if_neg (by decide)] at hx
  exact ⟨s, hx, rfl⟩

/-! ### Checkpoints written -/

/-- With no word in error, the tables read lose none. -/
theorem State.checkRange_of_none {s : State} (h : s.ecc.synd = []) (a m : Nat) : s.checkRange a m = (false, s) := by
  simp [State.checkRange, State.dirtyWords, h]

theorem State.tabsLost_of_none {s : State} (h : s.ecc.synd = []) (l : List (Nat × Nat)) : s.tabsLost l = (false, s) := by
  rw [State.tabsLost]
  induction l with
  | nil => rfl
  | cons q l ih =>
    rw [List.foldl_cons]
    simp only [State.checkRange_of_none h, Bool.or_self]
    exact ih

/-- The delta times of the tiles of `l` are set to zero. -/
theorem State.foldl_deltaNs (l : List Nat) : ∀ s : State, let t := l.foldl (fun s n => s.updHl n (fun h => { h with deltaNs := 0 })) s
    t = { s with health := t.health } ∧ ∀ k, k ∈ l ∨ (s.hl k).deltaNs = 0 → (t.hl k).deltaNs = 0 := by
  induction l with
  | nil => exact fun s => ⟨rfl, fun k hk => hk.resolve_left List.not_mem_nil⟩
  | cons m l ih =>
    intro s
    have hu := s.updHl_eq m (fun h => { h with deltaNs := 0 })
    have hget := fun k => s.hl_updHl m k (fun h => { h with deltaNs := 0 })
    rw [List.foldl_cons]
    generalize s.updHl m (fun h => { h with deltaNs := 0 }) = u at hu hget
    obtain ⟨hrest, hzero⟩ := ih u
    generalize l.foldl (fun s n => s.updHl n (fun h => { h with deltaNs := 0 })) u = t at hrest hzero
    refine ⟨?_, fun k hk => hzero k ?_⟩
    · rw [hu] at hrest
      exact hrest
    · rw [hget]
      by_cases hkm : k = m
      · exact .inr (by rw [if_pos hkm])
      · rw [if_neg hkm]
        exact hk.imp (fun h => (List.mem_cons.1 h).resolve_left hkm) id

theorem State.deltaPut_effect (s : State) : s.deltaPut.hk = { s.hk with deltaDue := false } ∧ (∀ n, n < 4 → (s.deltaPut.hl n).deltaNs = 0)
    ∧ s.deltaPut = { s with hk := s.deltaPut.hk, health := s.deltaPut.health, store := s.deltaPut.store } := by
  unfold State.deltaPut
  extract_lets -merge q body b v
  obtain ⟨hrest, hzero⟩ := State.foldl_deltaNs (List.range 4) v
  generalize (List.range 4).foldl (fun s n => s.updHl n (fun h => { h with deltaNs := 0 })) v = t at hrest hzero
  have hhk : t.hk = s.hk := by rw [hrest]; rfl
  refine ⟨?_, fun n hn => hzero n (.inl (List.mem_range.2 hn)), ?_⟩
  · rw [State.updHk, hhk]
  · rw [State.updHk, hrest]
    rfl

theorem State.deltaStep_effect (s : State) : (s.hk.deltaDue = false ∨ 1 ≤ s.shed → s.deltaStep = s)
    ∧ (s.hk.deltaDue = true → s.shed = 0 → s.ecc.synd = [] → s.deltaStep.hk = { s.hk with deltaDue := false }
      ∧ (∀ n, n < 4 → (s.deltaStep.hl n).deltaNs = 0)
      ∧ s.deltaStep = { s with hk := s.deltaStep.hk, health := s.deltaStep.health, store := s.deltaStep.store }) := by
  refine ⟨fun h => if_neg ?_, fun hdue hshed hsynd => ?_⟩
  · rintro ⟨hdue, hshed⟩
    obtain h | h := h
    · exact absurd (h.symm.trans hdue) (by decide)
    · omega
  · have hstep : s.deltaStep = s.deltaPut := by
      rw [State.deltaStep, if_pos ⟨hdue, hshed⟩, State.deltaWrite, State.tabsLost_of_none hsynd]
      rfl
    rw [hstep]
    exact s.deltaPut_effect

theorem State.ckptFail_effect (s : State) (n : Nat) : (s.ckptFail n).isF fHEALTH_STATUS_CKPT_FAIL = true
    ∧ Quiet [rHEALTH_STATUS, rHEALTH_CKPT_FAIL_COUNT] s (s.ckptFail n) := by
  have hflag := s.isF_raise_self (f := fHEALTH_STATUS_CKPT_FAIL) (c := rHEALTH_CKPT_FAIL_COUNT) rfl (by decide) (by decide)
  have hraise : Quiet [rHEALTH_STATUS, rHEALTH_CKPT_FAIL_COUNT] s (s.raise fHEALTH_STATUS_CKPT_FAIL rHEALTH_CKPT_FAIL_COUNT) :=
    (Quiet.refl _ s).raise (by simp) (by simp)
  rw [State.ckptFail]
  generalize s.raise fHEALTH_STATUS_CKPT_FAIL rHEALTH_CKPT_FAIL_COUNT = u at hflag hraise
  have hev : Quiet [] u (u.hlEv evHEALTH_CKPT_FAIL n 0) := State.hlEv_quiet (.refl [] u) (by decide) n 0
  exact ⟨(hev.isF _ (by simp) (by decide)).trans hflag, hraise.trans (hev.mono (by simp))⟩

theorem State.ckptPut_effect (s : State) (n : Fin 4) : ((s.ckptPut n).hl n).ckpt = false ∧ ((s.ckptPut n).hl n).ckSeq = (s.ckptNext n).1
    ∧ ((s.ckptPut n).hl n).lifeDue = 2 ∧ Quiet [] { s with health := (s.ckptPut n).health, store := (s.ckptPut n).store } (s.ckptPut n) := by
  unfold State.ckptPut
  obtain ⟨seq, half⟩ := s.ckptNext n
  dsimp only
  generalize ([0, 1].flatMap (fun k => (List.range 256).map (fun b => (256 * k + b, (s.putStore (ckptAt n half) (s.ckptBytes n seq)).blockMean n k b)))) = means
  have hget := (s.putStore (ckptAt n half) (s.ckptBytes n seq)).hl_updHl n n
    (fun h => { h with ckpt := false, ckSeq := seq, ckMean := means, ckNs := 0, lifeDue := 2 })
  have hrest : (s.putStore (ckptAt n half) (s.ckptBytes n seq)).updHl n
      (fun h => { h with ckpt := false, ckSeq := seq, ckMean := means, ckNs := 0, lifeDue := 2 })
    = { s with health := ((s.putStore (ckptAt n half) (s.ckptBytes n seq)).updHl n
      (fun h => { h with ckpt := false, ckSeq := seq, ckMean := means, ckNs := 0, lifeDue := 2 })).health,
               store := (s.putStore (ckptAt n half) (s.ckptBytes n seq)).store } := rfl
  rw [if_pos rfl] at hget
  generalize s.putStore (ckptAt n half) (s.ckptBytes n seq) = p at hget hrest
  generalize p.updHl n (fun h => { h with ckpt := false, ckSeq := seq, ckMean := means, ckNs := 0, lifeDue := 2 }) = u at hget hrest
  have hev : Quiet [] u (u.hlEv evHEALTH_CKPT_DONE n (seq % 65536)) := State.hlEv_quiet (.refl [] u) (by decide) n _
  have hstore : u.store = p.store := by rw [hrest]
  rw [State.hl_congr hev.health, hget, hev.health, show (u.hlEv evHEALTH_CKPT_DONE n (seq % 65536)).store = u.store by rw [hev.rest], hstore, ← hrest]
  exact ⟨rfl, rfl, rfl, hev⟩

theorem does_ckptDone_idle {ok : Bool} (h : 1 ≤ s.shed ∨ (s.hl n).ckpt = false ∧ (ok = true ∨ s.hk.deltaDue = false)) :
    Does (.ckptDone n ok) s (fun t => t = s) := by
  have hx : exec (.ckptDone n ok) s = execCkptDone n ok s := rfl
  rw [execCkptDone] at hx
  obtain h | ⟨hck, h⟩ := h
  · rw [if_pos h] at hx
    exact ⟨s, hx, rfl⟩
  · by_cases hshed : 1 ≤ s.shed
    · rw [if_pos hshed] at hx
      exact ⟨s, hx, rfl⟩
    · have hno : ¬(ok = false ∧ s.hk.deltaDue = true) := by
        rintro ⟨hok, hdue⟩
        obtain h | h := h
        · exact absurd (hok.symm.trans h) (by decide)
        · exact absurd (h.symm.trans hdue) (by decide)
      rw [if_neg hshed, hck, if_neg (by decide), if_neg hno] at hx
      exact ⟨s, hx, rfl⟩

theorem does_ckptDone_ok (hck : (s.hl n).ckpt = true) (hshed : s.shed = 0) (hsynd : s.ecc.synd = []) :
    Does (.ckptDone n true) s (fun t => (t.hl n).ckpt = false ∧ (t.hl n).ckSeq = (s.ckptNext n).1 ∧ (t.hl n).lifeDue = 2
      ∧ Quiet [] { s with health := t.health, store := t.store } t) := by
  have hx : exec (.ckptDone n true) s = execCkptDone n true s := rfl
  rw [execCkptDone, if_neg (by omega), if_pos hck, if_pos rfl, State.ckptWrite, State.tabsLost_of_none hsynd] at hx
  exact ⟨_, hx, s.ckptPut_effect n⟩

theorem does_ckptDone_fail (hck : (s.hl n).ckpt = true) (hshed : s.shed = 0) :
    Does (.ckptDone n false) s (fun t => t.hl n = { s.hl n with ckpt := false } ∧ t.isF fHEALTH_STATUS_CKPT_FAIL = true
      ∧ Quiet [rHEALTH_STATUS, rHEALTH_CKPT_FAIL_COUNT] { s with health := t.health } t) := by
  have hx : exec (.ckptDone n false) s = execCkptDone n false s := rfl
  rw [execCkptDone, if_neg (by omega), if_pos hck, if_neg (by decide)] at hx
  have heff := (s.updHl n (fun h => { h with ckpt := false })).ckptFail_effect n
  have hq := heff.2.afterHl
  refine ⟨_, hx, ?_, heff.1, hq.2⟩
  rw [State.hl_congr hq.1, State.hl_updHl, if_pos rfl]

theorem does_ckptDone_delta (hck : (s.hl n).ckpt = false) (hshed : s.shed = 0) (hdue : s.hk.deltaDue = true) :
    Does (.ckptDone n false) s (fun t => t.hk = { s.hk with deltaDue := false } ∧ t.isF fHEALTH_STATUS_CKPT_FAIL = true
      ∧ Quiet [rHEALTH_STATUS, rHEALTH_CKPT_FAIL_COUNT] { s with hk := t.hk } t) := by
  have hx : exec (.ckptDone n false) s = execCkptDone n false s := rfl
  rw [execCkptDone, if_neg (by omega), hck, if_neg (by decide), if_pos ⟨rfl, hdue⟩] at hx
  have heff := (s.updHk (fun h => { h with deltaDue := false })).ckptFail_effect n
  have hhk : ((s.updHk (fun h => { h with deltaDue := false })).ckptFail n).hk = { s.hk with deltaDue := false } := by rw [heff.2.rest]; rfl
  exact ⟨_, hx, hhk, heff.1, by rw [hhk]; exact heff.2⟩

end

end Sys2Proof.Machine

/-! ## HEALTH's accounts and emitter states (O60, R279, R286, R289) -/

namespace Sys2Proof.Machine

/-! ### What a unit's write to DRAM leaves alone (R26, R384) -/

/-- Memory, its syndromes, events and the registers of other units change; those from CP's to HEALTH's stay. -/
structure DramEv (s t : State) : Prop where
  rest : t = { s with regs := t.regs, mem := t.mem, ecc := t.ecc, hamper := t.hamper, spool := t.spool, wakeDue := t.wakeDue, posted := t.posted,
                      boot := { s.boot with held := t.boot.held } }
  regs : ∀ off, 0x100000 ≤ off → off < 0x240000 → t.reg off = s.reg off

section
variable {s u t : State}

theorem DramEv.refl (s : State) : DramEv s s := ⟨rfl, fun _ _ _ => rfl⟩

theorem DramEv.trans (h : DramEv s u) (k : DramEv u t) : DramEv s t := by
  refine ⟨?_, fun off h1 h2 => (k.regs off h1 h2).trans (h.regs off h1 h2)⟩
  have hrest := k.rest
  rw [h.rest] at hrest
  exact hrest

theorem MemEv.dramEv (h : MemEv s t) : DramEv s t := ⟨h.rest, fun off h1 h2 => h.regs off (.inr ⟨h1, h2⟩)⟩

theorem DramEv.quiet {l : List Nat} (h : DramEv s u) (q : Quiet l u t) (hl : ∀ off ∈ l, off < 0x100000) : DramEv s t := by
  have hmem : t.mem = u.mem := q.mem_eq
  have hecc : t.ecc = u.ecc := by rw [q.rest]
  refine h.trans ⟨?_, fun off h1 h2 => q.regs off (fun hin => ?_) fun hin => evRegs_high off hin (.inr ⟨h1, h2⟩)⟩
  · rw [hmem, hecc]
    exact q.rest
  · have := hl off hin
    omega

theorem DramEv.busErr (h : DramEv s u) (a : Nat) : DramEv s (u.busErr a) := by
  have hq : Quiet [rTOP_BUS_ERR_STATUS, rTOP_SYS_MAP_COUNT, rTOP_BUS_ERR_ADDR] u (u.busErr a) :=
    (((Quiet.refl _ u).raise (by simp) (by simp)).setRegN (by simp)).post (by decide)
  exact h.quiet hq (by decide)

theorem DramEv.putDram (h : DramEv s u) (a : Nat) (bs : List Byte) : DramEv s (u.putDram a bs) := by
  unfold State.putDram
  split
  · exact h.trans ((MemEv.refl u).writeMem a bs).dramEv
  · exact h.busErr _

theorem DramEv.store (h : DramEv s t) : t.store = s.store := by rw [h.rest]

theorem DramEv.hl (h : DramEv s t) (k : Nat) : t.hl k = s.hl k := State.hl_congr (by rw [h.rest]) k

/-- A relation that each step keeps holds after all of them. -/
theorem DramEv.foldl {α : Type} {f : State → α → State} (hf : ∀ v x, DramEv s v → DramEv s (f v x)) (l : List α) :
    ∀ {u : State}, DramEv s u → DramEv s (l.foldl f u) := by
  induction l with
  | nil => exact fun h => h
  | cons x l ih => exact fun h => ih (hf _ x h)

end

/-! ### Accounts restored (R289) -/

theorem State.ckptNewest_congr {s t : State} (h : t.store = s.store) (n : Nat) : t.ckptNewest n = s.ckptNewest n := by
  have hhead : ∀ half, t.ckptHead n half = s.ckptHead n half := fun half => by
    rw [State.ckptHead, State.ckptHead, State.storeBlank, State.storeBlank, State.storeBytes, State.storeBytes, h]
  rw [State.ckptNewest, State.ckptNewest, hhead, hhead]

theorem State.acctRestore_effect {s : State} {n : Nat} (h : (s.ckptNewest n).isSome = true) : (s.acctRestore n).store = s.store
    ∧ ∀ k, (s.acctRestore n).hl k = if k = n then { s.hl n with accOk := true } else s.hl k := by
  unfold State.acctRestore
  split
  · rename_i hnone
    rw [hnone] at h
    exact absurd h (by decide)
  extract_lets -merge d v w
  have hacc : DramEv s v := (DramEv.foldl fun v k hv => DramEv.foldl (fun w i hw => hw.putDram _ _) _ hv) _ (.refl s)
  have hbase : DramEv s w := DramEv.foldl (fun v k hv => hv.putDram _ _) _ hacc
  refine ⟨hbase.store, fun k => ?_⟩
  rw [State.hl_updHl, hbase.hl, hbase.hl]

theorem State.foldl_acctRestore (l : List Nat) : ∀ s : State, (∀ n ∈ l, (s.ckptNewest n).isSome = true) →
    ∀ k, ((l.foldl (fun s n => s.acctRestore n) s).hl k).accOk = (decide (k ∈ l) || (s.hl k).accOk) := by
  induction l with
  | nil => exact fun s _ k => by simp
  | cons m l ih =>
    intro s hsome k
    obtain ⟨hstore, hget⟩ := State.acctRestore_effect (hsome m List.mem_cons_self)
    rw [List.foldl_cons]
    generalize s.acctRestore m = u at hstore hget
    rw [ih u (fun n hn => by rw [State.ckptNewest_congr hstore]; exact hsome n (List.mem_cons_of_mem _ hn)), hget]
    by_cases hk : k = m
    · simp [hk]
    · simp [hk]

/-- The tiles whose accounts ACC_RESTORED loads. -/
def State.restoring (s : State) : List Nat :=
  (List.range 4).filter (fun n => s.tileUp n && !(s.hl n).fresh && !(s.hl n).accOk && (s.ckptNewest n).isSome)

theorem State.mem_restoring {s : State} {n : Nat} : n ∈ s.restoring ↔ n < 4 ∧ s.tileUp n = true ∧ (s.hl n).fresh = false
    ∧ (s.hl n).accOk = false ∧ (s.ckptNewest n).isSome = true := by
  rw [State.restoring, List.mem_filter, List.mem_range]
  simp only [Bool.and_eq_true, Bool.not_eq_true', and_assoc]

theorem exec_accRestored (s : State) : exec .accRestored s = .next (if s.loader.phase < 3 ∨ (s.isF fHEALTH_STATUS_ACC_VALID ∧ s.restoring = []) then s
    else ((s.restoring.foldl (fun s n => s.acctRestore n) s).setF fHEALTH_STATUS_ACC_VALID 1).post evHEALTH_ACC_RESTORED srcHEALTH
      ((s.restoring.map (2 ^ ·)).sum)) := rfl

theorem does_accRestored_none {s : State} (h : s.loader.phase < 3 ∨ (s.isF fHEALTH_STATUS_ACC_VALID = true
    ∧ ∀ n, n < 4 → s.tileUp n = false ∨ (s.hl n).fresh = true ∨ (s.hl n).accOk = true)) : Does .accRestored s (fun t => t = s) := by
  refine ⟨s, ?_, rfl⟩
  rw [exec_accRestored, if_pos]
  refine h.imp id fun ⟨hv, hall⟩ => ⟨hv, List.eq_nil_iff_forall_not_mem.2 fun n hn => ?_⟩
  obtain ⟨hlt, hup, hfresh, hacc, -⟩ := State.mem_restoring.1 hn
  obtain h | h | h := hall n hlt
  · exact absurd (h.symm.trans hup) (by decide)
  · exact absurd (h.symm.trans hfresh) (by decide)
  · exact absurd (h.symm.trans hacc) (by decide)

theorem does_accRestored {s : State} (hphase : 3 ≤ s.loader.phase) (hv : s.isF fHEALTH_STATUS_ACC_VALID = false) :
    Does .accRestored s (fun t => t.isF fHEALTH_STATUS_ACC_VALID = true
      ∧ ∀ n, (t.hl n).accOk = (decide (n ∈ s.restoring) || (s.hl n).accOk)) := by
  have hx := exec_accRestored s
  rw [if_neg (by simp [hv]; omega)] at hx
  refine ⟨_, hx, ?_⟩
  have hacc := State.foldl_acctRestore s.restoring s fun n hn => (State.mem_restoring.1 hn).2.2.2.2
  generalize s.restoring.foldl (fun s n => s.acctRestore n) s = u at hacc
  have hflag : (u.setF fHEALTH_STATUS_ACC_VALID 1).isF fHEALTH_STATUS_ACC_VALID = true := u.isF_setF_one rfl (by decide)
  have hhl : ∀ k, (u.setF fHEALTH_STATUS_ACC_VALID 1).hl k = u.hl k := fun _ => rfl
  generalize u.setF fHEALTH_STATUS_ACC_VALID 1 = v at hflag hhl
  have hev : Quiet [] v (v.post evHEALTH_ACC_RESTORED srcHEALTH ((s.restoring.map (2 ^ ·)).sum)) := (Quiet.refl [] v).post (by decide)
  exact ⟨(hev.isF _ (by simp) (by decide)).trans hflag, fun n => by rw [State.hl_congr hev.health, hhl, hacc]⟩

/-! ### A conversion of the accounts (R286, R293) -/

/-- The SHORTFALL registers stay. -/
def ShortKept (s t : State) : Prop := ∀ k, k < 4 → t.reg (rHEALTH_SHORTFALL k) = s.reg (rHEALTH_SHORTFALL k)

section
variable {s u t : State}

theorem ShortKept.refl (s : State) : ShortKept s s := fun _ _ => rfl

theorem ShortKept.trans (h : ShortKept s u) (k : ShortKept u t) : ShortKept s t := fun m hm => (k m hm).trans (h m hm)

theorem DramEv.shortKept (h : DramEv s t) : ShortKept s t := fun k hk => h.regs _ (by simp only [rHEALTH_SHORTFALL]; omega) (by simp only [rHEALTH_SHORTFALL]; omega)

/-- Quiet changes of other registers of HEALTH. -/
theorem ShortKept.quiet {l : List Nat} (h : ShortKept s u) (q : Quiet l u t) (hl : ∀ k, k < 4 → rHEALTH_SHORTFALL k ∉ l) : ShortKept s t :=
  fun k hk => (q.regs _ (hl k hk) (not_mem_evRegs (by simp only [rHEALTH_SHORTFALL]; omega))).trans (h k hk)

theorem ShortKept.setF (h : ShortKept s u) {f : Fld} {m : Nat} (hf : f.off = rHEALTH_STATUS ∨ ∃ k, k < 4 ∧ f.off = rHEALTH_EOL k) : ShortKept s (u.setF f m) :=
  h.quiet (l := [f.off]) ((Quiet.refl _ u).setF (.inl (by simp))) (fun k hk => by
    rw [List.mem_singleton]
    obtain hf | ⟨j, hj, hf⟩ := hf <;> rw [hf] <;> simp only [rHEALTH_SHORTFALL, rHEALTH_STATUS, rHEALTH_EOL] <;> omega)

theorem ShortKept.hlEv (h : ShortKept s u) {k : EvKind} (hp : k.prio < 4) (n x : Nat) : ShortKept s (u.hlEv k n x) :=
  h.quiet (l := []) ((Quiet.refl [] u).post hp) (fun _ _ => List.not_mem_nil)

theorem ShortKept.updHl (h : ShortKept s u) (n : Nat) (f : HealthT → HealthT) : ShortKept s (u.updHl n f) := fun k hk =>
  (State.updHl_reg u n f _).trans (h k hk)

theorem ShortKept.ite {c : Prop} [Decidable c] {a b : State} (h : ShortKept s a) (k : ShortKept s b) : ShortKept s (if c then a else b) := by
  split
  · exact h
  · exact k

theorem ShortKept.eolOne (h : ShortKept s u) {n : Nat} (hn : n < 4) (bit : Nat) (warn fin : Bool) : ShortKept s (u.eolOne n bit warn fin) := by
  unfold State.eolOne
  extract_lets -merge o v1 v2 v3 v4 v5
  have h1 : ShortKept s v1 := h.setF (.inr ⟨n, hn, rfl⟩)
  have h2 : ShortKept s v2 := .ite (h1.setF (.inr ⟨n, hn, rfl⟩)) h1
  have h3 : ShortKept s v3 := .ite ((h2.setF (.inl rfl)).hlEv (by decide) _ _) h
  have h4 : ShortKept s v4 := (h3.setF (.inr ⟨n, hn, rfl⟩)).setF (.inr ⟨n, hn, rfl⟩)
  have h5 : ShortKept s v5 := h4.updHl _ _
  exact .ite ((h5.setF (.inl rfl)).hlEv (by decide) _ _) h3

theorem ShortKept.eolTile (h : ShortKept s u) {n : Nat} (hn : n < 4) : ShortKept s (u.eolTile n) := by
  have hused : ∀ v, ShortKept s (u.setRegN (rHEALTH_LIFE_USED n) v) := fun v =>
    h.quiet (l := [rHEALTH_LIFE_USED n]) ((Quiet.refl _ u).setRegN (by simp)) (fun k hk => by
      simp only [List.mem_singleton, rHEALTH_SHORTFALL, rHEALTH_LIFE_USED]
      omega)
  unfold State.eolTile
  extract_lets
  exact ((((hused _).eolOne hn _ _ _).eolOne hn _ _ _).eolOne hn _ _ _).eolOne hn _ _ _

end

theorem State.convertOne_dram {s v : State} (h : DramEv s v) (n k i num ref : Nat) (uni : Bool) : DramEv s (v.convertOne n k i num ref uni).2 := by
  unfold State.convertOne
  exact h.putDram _ _

/-- The emitters of tile n are converted: those counted in SHORTFALL, and the state. -/
def State.convertTile (s : State) (n num ref : Nat) (uni : Bool) : Nat × State :=
  ((s.kinds n).flatMap (fun k => (List.range 262144).map (fun i => (k, i)))).foldl
    (fun (a : Nat × State) q =>
      let (c, s) := a.2.convertOne n q.1 q.2 num ref uni
      (a.1 + c, s)) (0, s)

theorem State.convertTile_dram (s : State) (n num ref : Nat) (uni : Bool) : DramEv s (s.convertTile n num ref uni).2 := by
  have hfold : ∀ (l : List (Nat × Nat)) (a : Nat × State), DramEv s a.2 → DramEv s (l.foldl
      (fun (a : Nat × State) q => (a.1 + (a.2.convertOne n q.1 q.2 num ref uni).1, (a.2.convertOne n q.1 q.2 num ref uni).2)) a).2 := by
    intro l
    induction l with
    | nil => exact fun a ha => ha
    | cons q l ih => exact fun a ha => ih _ (State.convertOne_dram ha n q.1 q.2 num ref uni)
  exact hfold _ (0, s) (.refl s)

/-- Tile n's part of a conversion: its SHORTFALL, then its indicators. -/
def State.convertShown (s : State) (n num ref : Nat) (uni : Bool) : State :=
  ((s.convertTile n num ref uni).2.setRegN (rHEALTH_SHORTFALL n) (satAt 0x3FFFF (s.convertTile n num ref uni).1)).eolTile n

theorem State.convertShown_effect (s : State) {n : Nat} (hn : n < 4) (num ref : Nat) (uni : Bool) :
    (s.convertShown n num ref uni).regN (rHEALTH_SHORTFALL n) ≤ 0x3FFFF
      ∧ ∀ k, k < 4 → k ≠ n → (s.convertShown n num ref uni).reg (rHEALTH_SHORTFALL k) = s.reg (rHEALTH_SHORTFALL k) := by
  have hdram := (s.convertTile_dram n num ref uni).shortKept
  rw [State.convertShown]
  generalize s.convertTile n num ref uni = r at hdram ⊢
  obtain ⟨c, u⟩ := r
  have hsat : satAt 0x3FFFF c ≤ 0x3FFFF := Nat.min_le_right _ _
  have hset : (u.setRegN (rHEALTH_SHORTFALL n) (satAt 0x3FFFF c)).regN (rHEALTH_SHORTFALL n) = satAt 0x3FFFF c := by
    rw [State.regN_setRegN, if_pos rfl]
    exact Nat.mod_eq_of_lt (by omega)
  have hother : ∀ k, k ≠ n → (u.setRegN (rHEALTH_SHORTFALL n) (satAt 0x3FFFF c)).reg (rHEALTH_SHORTFALL k) = u.reg (rHEALTH_SHORTFALL k) := fun k hk =>
    (State.reg_setRegN _ _ _ _).trans (if_neg (by simp only [rHEALTH_SHORTFALL]; omega))
  dsimp only at hdram ⊢
  generalize u.setRegN (rHEALTH_SHORTFALL n) (satAt 0x3FFFF c) = v at hset hother
  have heol := (ShortKept.refl v).eolTile hn
  refine ⟨?_, fun k hk hkn => (heol k hk).trans ((hother k hkn).trans (hdram k hk))⟩
  rw [State.regN_congr (heol n hn), hset]
  exact hsat

theorem State.foldl_convertShown (num ref : Nat) (uni : Bool) (l : List Nat) (hl : ∀ n ∈ l, n < 4) : ∀ s : State,
    (∀ k, k < 4 → k ∈ l ∨ s.regN (rHEALTH_SHORTFALL k) ≤ 0x3FFFF →
      (l.foldl (fun s n => s.convertShown n num ref uni) s).regN (rHEALTH_SHORTFALL k) ≤ 0x3FFFF)
    ∧ ∀ k, k < 4 → k ∉ l → (l.foldl (fun s n => s.convertShown n num ref uni) s).reg (rHEALTH_SHORTFALL k) = s.reg (rHEALTH_SHORTFALL k) := by
  induction l with
  | nil => exact fun s => ⟨fun k _ h => h.resolve_left List.not_mem_nil, fun _ _ _ => rfl⟩
  | cons m l ih =>
    intro s
    obtain ⟨hm, hl⟩ := List.forall_mem_cons.1 hl
    obtain ⟨hle, hother⟩ := s.convertShown_effect hm num ref uni
    rw [List.foldl_cons]
    generalize s.convertShown m num ref uni = u at hle hother
    obtain ⟨hin, hout⟩ := ih hl u
    refine ⟨fun k hk h => hin k hk ?_, fun k hk h => ?_⟩
    · by_cases hkm : k = m
      · exact .inr (by rw [hkm]; exact hle)
      · rw [State.regN_congr (hother k hk hkm)]
        exact h.imp (fun h => (List.mem_cons.1 h).resolve_left hkm) id
    · rw [hout k hk (fun hin => h (List.mem_cons_of_mem _ hin)), hother k hk (fun hkm => h (by rw [hkm]; exact List.mem_cons_self))]

theorem does_agingConversion {s : State} (hp : s.agingPaused = false) (hsynd : s.ecc.synd = []) : Does .agingConversion s (fun t =>
    (∀ n, n < s.tiles → t.regN (rHEALTH_SHORTFALL n) ≤ 0x3FFFF)
    ∧ ∀ n, n < 4 → s.tiles ≤ n → t.reg (rHEALTH_SHORTFALL n) = s.reg (rHEALTH_SHORTFALL n)) := by
  have hx : exec .agingConversion s = .next (if s.agingPaused then s else s.agingConvert) := rfl
  have hconv : ∃ num ref uni, s.convertAll = (List.range s.tiles).foldl (fun s n => s.convertShown n num ref uni) s := ⟨_, _, _, rfl⟩
  obtain ⟨num, ref, uni, hconv⟩ := hconv
  have htiles := s.tiles_le
  obtain ⟨hin, hout⟩ := State.foldl_convertShown num ref uni (List.range s.tiles) (fun n hn => by have := List.mem_range.1 hn; omega) s
  rw [hp, if_neg (by decide), State.agingConvert, State.tabsLost_of_none hsynd] at hx
  refine ⟨_, hx, ?_⟩
  show (∀ n, n < s.tiles → s.convertAll.regN _ ≤ _) ∧ ∀ n, n < 4 → s.tiles ≤ n → s.convertAll.reg _ = _
  rw [hconv]
  exact ⟨fun n hn => hin n (by omega) (.inl (List.mem_range.2 hn)), fun n hn hle => hout n hn (by rw [List.mem_range]; omega)⟩

end Sys2Proof.Machine

/-! ## HEALTH's CLEAR_STATE and the whole of its commands (O60, R279, R283) -/

namespace Sys2Proof.Machine

/-! ### An emitter's state is set -/

theorem bitsOf_mod_byte (x i : Nat) : bitsOf (x % 256) (2 * (i % 4)) 2 = bitsOf x (2 * (i % 4)) 2 := by
  have hi : i % 4 = 0 ∨ i % 4 = 1 ∨ i % 4 = 2 ∨ i % 4 = 3 := by omega
  obtain h | h | h | h := hi <;> rw [h] <;> simp only [bitsOf] <;> omega

/-- The registers that count emitters by state. -/
def emCounts (n : Nat) : List Nat := [rHEALTH_SUSPECT n, rHEALTH_FAILED_P n, rHEALTH_FAILED_S n]

theorem emCount_mem {n k st o : Nat} (h : emCount n k st = some o) : o ∈ emCounts n := by
  unfold emCount at h
  split at h
  · rw [← Option.some.inj h]
    simp [emCounts]
  · split at h
    · rw [← Option.some.inj h]
      split <;> simp [emCounts]
    · exact absurd h (by simp)

theorem OnlyRegs.count1 {s u : State} {n k st : Nat} (h : OnlyRegs (emCounts n) s u) (up : Bool) : OnlyRegs (emCounts n) s (u.count1 (emCount n k st) up) := by
  unfold State.count1
  split
  · exact h
  · rename_i o ho
    exact h.setRegN (emCount_mem ho)

theorem OnlyRegs.workBase {s u : State} {n : Nat} (h : OnlyRegs (emCounts n) s u) : u.workBase = s.workBase := by
  have hno : ∀ o, o = rHEALTH_WORK_BASE_LO ∨ o = rHEALTH_WORK_BASE_HI → o ∉ emCounts n := fun o ho => by
    simp only [emCounts, List.mem_cons, List.not_mem_nil, or_false, rHEALTH_SUSPECT, rHEALTH_FAILED_P, rHEALTH_FAILED_S]
    obtain rfl | rfl := ho <;> simp only [rHEALTH_WORK_BASE_LO, rHEALTH_WORK_BASE_HI] <;> omega
  rw [State.workBase, State.workBase, State.regN_congr (h.regs _ (hno _ (.inl rfl))), State.regN_congr (h.regs _ (hno _ (.inr rfl)))]

theorem State.setEm_effect {s : State} (hc : Clean s) {n k i : Nat} (st : Nat) (hin : s.inDram (s.stateAddr n k i) 1 = true) :
    (s.setEm n k i st).emState n k i = st % 4 ∧ (∀ a, a ≠ s.stateAddr n k i → (s.setEm n k i st).byte a = s.byte a)
      ∧ (s.setEm n k i st).health = s.health ∧ (s.setEm n k i st).isF fHEALTH_DARN_CFG_EN = s.isF fHEALTH_DARN_CFG_EN := by
  have hput : s.putDram (s.stateAddr n k i) (leBytes 1 (putBits (s.loadN (s.stateAddr n k i) 1) (2 * (i % 4)) 2 st))
      = s.storeN (s.stateAddr n k i) 1 (putBits (s.loadN (s.stateAddr n k i) 1) (2 * (i % 4)) 2 st) := by
    rw [State.putDram, if_pos (.inr (by rw [length_leBytes]; exact hin)), State.writeMem_of_clean hc, State.storeN]
  have hload := s.loadN_storeN (s.stateAddr n k i) 1 (putBits (s.loadN (s.stateAddr n k i) 1) (2 * (i % 4)) 2 st)
  have hbyte : ∀ a, a ≠ s.stateAddr n k i → (s.storeN (s.stateAddr n k i) 1 (putBits (s.loadN (s.stateAddr n k i) 1) (2 * (i % 4)) 2 st)).byte a = s.byte a :=
    fun a ha => State.byte_setBytes_other _ (by rw [length_leBytes]; omega)
  have hbits := bitsOf_putBits (s.loadN (s.stateAddr n k i) 1) (2 * (i % 4)) 2 st
  rw [← bitsOf_mod_byte] at hbits
  have hreg : ∀ v o, (s.storeN (s.stateAddr n k i) 1 v).reg o = s.reg o := fun _ _ => rfl
  have hhl : ∀ v, (s.storeN (s.stateAddr n k i) 1 v).health = s.health := fun _ => rfl
  generalize hv : putBits (s.loadN (s.stateAddr n k i) 1) (2 * (i % 4)) 2 st = v at hput hload hbyte hbits
  replace hreg := hreg v
  replace hhl := hhl v
  have hset : ∃ w, s.setEm n k i st = w ∧ OnlyRegs (emCounts n) (s.storeN (s.stateAddr n k i) 1 v) w := by
    refine ⟨_, rfl, ?_⟩
    rw [State.setEm]
    rw [hv, hput]
    split
    · exact .refl _ _
    · exact ((OnlyRegs.refl _ _).count1 false).count1 true
  obtain ⟨w, hw, honly⟩ := hset
  rw [hw]
  generalize s.storeN (s.stateAddr n k i) 1 v = u at hload hbyte hreg hhl honly
  have hwork : w.workBase = s.workBase := by
    rw [honly.workBase, State.workBase, State.workBase, State.regN_congr (hreg _), State.regN_congr (hreg _)]
  have haddr : w.stateAddr n k i = s.stateAddr n k i := by rw [State.stateAddr, State.stateAddr, hwork]
  have hmem : ∀ a, w.byte a = u.byte a := fun a => by rw [State.byte, State.byte, honly.mem_eq]
  refine ⟨?_, fun a ha => (hmem a).trans (hbyte a ha), honly.health.trans hhl, ?_⟩
  · rw [State.emState, haddr, State.loadN_congr (fun x _ _ => hmem x), hload]
    exact hbits
  · rw [State.isF, State.isF, honly.quiet.getF _ (by
      simp only [emCounts, List.mem_cons, List.not_mem_nil, or_false, rHEALTH_SUSPECT, rHEALTH_FAILED_P, rHEALTH_FAILED_S, rHEALTH_DARN_CFG]
      omega) (by decide), State.getF_congr (hreg _)]

/-! ### Darn switched off -/

/-- What a tile's list of failures becomes on a release. -/
def HealthT.released (h : HealthT) : HealthT :=
  { h with todo := h.held ++ h.todo, held := [], new := h.new.filter (fun q => !h.held.contains q) }

theorem State.darnRun_off {s : State} (h : s.isF fHEALTH_DARN_CFG_EN = false) (n : Nat) : s.darnRun n = s := by
  rw [State.darnRun]
  exact if_pos (.inl h)

/-- Withheld failures are put back on the list; nothing acts on them while EN is 0. -/
theorem State.foldl_released (l : List Nat) (hl : l.Nodup) : ∀ s : State, s.isF fHEALTH_DARN_CFG_EN = false →
    let t := l.foldl (fun s n => (s.updHl n HealthT.released).darnRun n) s
    t.mem = s.mem ∧ t.regs = s.regs ∧ ∀ k, t.hl k = if k ∈ l then (s.hl k).released else s.hl k := by
  induction l with
  | nil => exact fun s _ => ⟨rfl, rfl, fun k => by simp⟩
  | cons m l ih =>
    intro s hen
    obtain ⟨hm, hl⟩ := List.nodup_cons.1 hl
    have hregs : (s.updHl m HealthT.released).regs = s.regs := rfl
    have hmem := s.updHl_mem m HealthT.released
    have hget := fun k => s.hl_updHl m k HealthT.released
    simp only [List.foldl_cons]
    generalize s.updHl m HealthT.released = u at hregs hmem hget
    have hen' : u.isF fHEALTH_DARN_CFG_EN = false := by
      rw [State.isF, State.getF_congr (State.reg_of_regs hregs _)]
      exact hen
    rw [State.darnRun_off hen']
    obtain ⟨hmem', hregs', hget'⟩ := ih hl u hen'
    generalize l.foldl (fun s n => (s.updHl n HealthT.released).darnRun n) u = t at hmem' hregs' hget'
    refine ⟨hmem'.trans hmem, hregs'.trans hregs, fun k => ?_⟩
    rw [hget', hget]
    by_cases hk : k = m
    · rw [hk, if_neg hm, if_pos rfl, if_pos List.mem_cons_self]
    · simp [hk]

theorem State.darnRelease_off {s : State} (h : s.isF fHEALTH_DARN_CFG_EN = false) : s.darnRelease.mem = s.mem ∧ s.darnRelease.regs = s.regs
    ∧ ∀ n, n < 4 → s.darnRelease.hl n = (s.hl n).released := by
  obtain ⟨hmem, hregs, hget⟩ := State.foldl_released (List.range 4) List.nodup_range s h
  exact ⟨hmem, hregs, fun n hn => (hget n).trans (if_pos (List.mem_range.2 hn))⟩

/-! ### CLEAR_STATE -/

/-- An emitter's failure is no longer to be acted on. -/
def HealthT.forget (h : HealthT) (key : Nat) : HealthT :=
  { h with marks := h.marks.filter (· ≠ key), todo := h.todo.filter (· ≠ key), wait := h.wait.filter (· ≠ key), held := h.held.filter (· ≠ key) }

theorem HealthT.forget_released (h : HealthT) (key : Nat) : key ∉ (h.forget key).released.marks ∧ key ∉ (h.forget key).released.todo
    ∧ key ∉ (h.forget key).released.wait ∧ (h.forget key).released.lifeDue = h.lifeDue := by
  simp [HealthT.forget, HealthT.released]

/-- A pixel's emitter that had failed: a life record is due. -/
def State.cleared (s : State) (n i : Nat) (due rest : Bool) : State :=
  if due then s.updHl n (fun h => { h with lifeDue := max h.lifeDue 1, lrPix := if rest then h.lrPix else h.lrPix.filter (· ≠ i) }) else s

theorem State.cleared_effect (s : State) (n i : Nat) (due rest : Bool) : (s.cleared n i due rest).mem = s.mem ∧ (s.cleared n i due rest).regs = s.regs
    ∧ (due = true → 1 ≤ ((s.cleared n i due rest).hl n).lifeDue) := by
  cases due
  · exact ⟨rfl, rfl, fun h => absurd h (by decide)⟩
  · refine ⟨rfl, rfl, fun _ => ?_⟩
    rw [State.cleared, if_pos rfl, State.hl_updHl, if_pos rfl]
    exact Nat.le_max_right _ _

theorem State.clearStateOp_eq (s : State) (n k i : Nat) : ∃ rest, s.clearStateOp n k i =
    (((s.setEm n k i emUNKNOWN).cleared n i (decide (s.emState n k i = emFAILED)) rest).updHl n (·.forget (emKey k i))).darnRelease := ⟨_, rfl⟩

theorem State.emState_congr {s t : State} (hm : t.mem = s.mem) (hr : t.regs = s.regs) (n k i : Nat) : t.emState n k i = s.emState n k i := by
  have hwork : t.workBase = s.workBase := by
    rw [State.workBase, State.workBase, State.regN_congr (State.reg_of_regs hr _), State.regN_congr (State.reg_of_regs hr _)]
  rw [State.emState, State.emState, State.stateAddr, State.stateAddr, hwork, State.loadN, State.loadN, State.bytes_of_mem hm]

theorem does_clearState {n : Fin 4} {spare : Bool} {px : BitVec 18} {s : State} (ht : Takes s rHEALTH_CMD) (hc : Clean s)
    (hen : s.isF fHEALTH_DARN_CFG_EN = false) (hin : s.inDram (s.stateAddr n spare.toNat px.toNat) 1 = true) :
    Does (.clearState n spare px) s (fun t => t.emState n spare.toNat px.toNat = emUNKNOWN
      ∧ (∀ a, a ≠ s.stateAddr n spare.toNat px.toNat → t.byte a = s.byte a)
      ∧ (s.emState n spare.toNat px.toNat = emFAILED → 1 ≤ (t.hl n).lifeDue)
      ∧ emKey spare.toNat px.toNat ∉ (t.hl n).marks ∧ emKey spare.toNat px.toNat ∉ (t.hl n).todo
      ∧ emKey spare.toNat px.toNat ∉ (t.hl n).wait) := by
  have hx : exec (.clearState n spare px) s = .next (s.viaReg rHEALTH_CMD (fun s => s.clearStateOp n spare.toNat px.toNat)) := rfl
  refine does_viaReg_present (s.absentUnit_of_le (by decide)) ht hx ?_
  generalize spare.toNat = k at hin
  generalize px.toNat = i at hin
  obtain ⟨hstate, hbyte, -, hdarn⟩ := State.setEm_effect hc emUNKNOWN hin
  obtain ⟨rest, heq⟩ := s.clearStateOp_eq n k i
  rw [heq]
  generalize s.setEm n k i emUNKNOWN = u at hstate hbyte hdarn
  obtain ⟨hmem1, hregs1, hdue⟩ := u.cleared_effect n i (decide (s.emState n k i = emFAILED)) rest
  generalize u.cleared n i (decide (s.emState n k i = emFAILED)) rest = v at hmem1 hregs1 hdue
  have hmem2 := v.updHl_mem n (·.forget (emKey k i))
  have hregs2 : (v.updHl n (·.forget (emKey k i))).regs = v.regs := rfl
  have hget := v.hl_updHl n n (·.forget (emKey k i))
  rw [if_pos rfl] at hget
  generalize v.updHl n (·.forget (emKey k i)) = w at hmem2 hregs2 hget
  have hregs3 : w.regs = u.regs := hregs2.trans hregs1
  have hen' : w.isF fHEALTH_DARN_CFG_EN = false := by
    rw [State.isF, State.getF_congr (State.reg_of_regs hregs3 _)]
    exact hdarn.trans hen
  obtain ⟨hmem4, hregs4, hrel⟩ := State.darnRelease_off hen'
  have hhl := hrel n n.isLt
  generalize w.darnRelease = t at hmem4 hregs4 hhl
  have hmem : t.mem = u.mem := hmem4.trans (hmem2.trans hmem1)
  obtain ⟨hmarks, htodo, hwait, hlife⟩ := (v.hl n).forget_released (emKey k i)
  rw [hget] at hhl
  rw [State.emState_congr hmem (hregs4.trans hregs3), hhl, hlife]
  exact ⟨hstate, fun a ha => by rw [State.byte, hmem]; exact hbyte a ha, fun h => hdue (decide_eq_true h), hmarks, htodo, hwait⟩

/-! ### The statement -/

/-- Settles O60: each command's effect by its operation; what it leaves alone by the relations of registers, events and memory. -/
theorem healthCommands : Obligations.HealthCommands := by
  unfold Obligations.HealthCommands
  refine ⟨fun n s ht => does_baseline ht, fun n s => does_baselineAutoStart, fun s ht => does_checkpoint ht, fun n s => does_fullCheckpointDue,
    fun s => does_deltaCheckpointDue, fun s => s.deltaStep_effect,
    fun n ok s => ⟨does_ckptDone_idle, fun hck hshed => ⟨does_ckptDone_ok hck hshed, does_ckptDone_fail hck hshed⟩, does_ckptDone_delta⟩,
    fun s => ⟨fun h => does_accRestored_none (.inl h), fun hv hall => does_accRestored_none (.inr ⟨hv, hall⟩), fun hp hv => ?_,
      fun n hn hp hv hup hfresh hacc => ?_⟩,
    fun s => ⟨fun hp => ?_, does_agingConversion⟩, fun n spare px s ht hc hen hin => does_clearState ht hc hen hin⟩
  · obtain ⟨t, hx, hvalid, -⟩ := does_accRestored hp hv
    exact ⟨t, hx, hvalid⟩
  · obtain ⟨t, hx, -, hget⟩ := does_accRestored hp hv
    refine ⟨t, hx, ?_⟩
    show (t.hl n).accOk = _
    rw [hget, hacc, Bool.or_false, Bool.eq_iff_iff, decide_eq_true_iff, State.mem_restoring]
    exact ⟨fun h => h.2.2.2.2, fun h => ⟨hn, hup, hfresh, hacc, h⟩⟩
  · have hx : exec .agingConversion s = .next (if s.agingPaused then s else s.agingConvert) := rfl
    rw [hp, if_pos rfl] at hx
    exact ⟨s, hx, rfl⟩

end Sys2Proof.Machine

/-! ## A tile port's bring-up (O49, R227 to R231) -/

namespace Sys2Proof.Machine

/-! ### What a command does to a port -/

/-- Besides the registers of `l` and what events take, only ports change. -/
def PortQuiet (l : List Nat) (s t : State) : Prop := Quiet l { s with port := t.port } t

section
variable {l : List Nat} {n : Nat} {s t u : State}

theorem PortQuiet.refl (l : List Nat) (s : State) : PortQuiet l s s := Quiet.refl l s

theorem PortQuiet.quiet (h : PortQuiet l s u) (q : Quiet l u t) : PortQuiet l s t := by
  have hport : t.port = u.port := by rw [q.rest]
  rw [PortQuiet, hport]
  exact Quiet.trans h q

theorem PortQuiet.only (h : PortQuiet l s u) (p : PortOnly n u t) : PortQuiet l s t := by
  refine ⟨?_, fun off h1 h2 => (p.reg off).trans (h.regs off h1 h2)⟩
  have hrest := p.rest
  rw [h.rest] at hrest
  rw [hrest]

theorem PortQuiet.trans (h : PortQuiet l s u) (k : PortQuiet l u t) : PortQuiet l s t := by
  refine ⟨?_, fun off h1 h2 => (Quiet.regs k off h1 h2).trans (Quiet.regs h off h1 h2)⟩
  have hrest := Quiet.rest k
  rw [Quiet.rest h] at hrest
  exact hrest

theorem PortQuiet.mono {m : List Nat} (h : PortQuiet l s t) (k : ∀ o ∈ l, o ∈ m) : PortQuiet m s t := Quiet.mono h k

theorem PortQuiet.mem (h : PortQuiet l s t) : t.mem = s.mem := by rw [Quiet.rest h]

theorem Quiet.portOf (q : Quiet l s t) (k : Nat) : t.portOf k = s.portOf k := by rw [q.rest]; rfl

theorem OnlyRegs.portOf (q : OnlyRegs l s t) (k : Nat) : t.portOf k = s.portOf k := by rw [q.rest]; rfl

theorem PortOnly.getF (h : PortOnly n s t) (f : Fld) : t.getF f = s.getF f := State.getF_congr (h.reg _)

theorem PortOnly.isF (h : PortOnly n s t) (f : Fld) : t.isF f = s.isF f := by rw [State.isF, State.isF, h.getF]

theorem PortOnly.zState (h : PortOnly n s t) (k : Nat) : t.zState k = s.zState k := h.getF _

theorem State.zState_setZState (s : State) (n : Nat) {v : Nat} (h : v < 16) : (s.setZState n v).zState n = v := by
  rw [State.zState, State.setZState, State.getF_setF _ _ _ (by simp)]
  exact Nat.mod_eq_of_lt h

theorem State.portOf_setZState (s : State) (n v k : Nat) : (s.setZState n v).portOf k = s.portOf k := rfl

theorem State.setZState_onlyRegs (s : State) (n v : Nat) : OnlyRegs [rZTL_STATUS n] s (s.setZState n v) := (OnlyRegs.refl _ s).setF (by simp)

theorem ztl_not_evReg {n off : Nat} (hn : n < 4) (h1 : rZTL_CMD n ≤ off) (h2 : off < rZTL_CMD n + 0x10000) : off ∉ evRegs :=
  not_mem_evRegs (by simp only [rZTL_CMD] at h1 h2; omega)

/-! ### The words a port sends -/

/-- Only what port n's lanes are given changes. -/
structure SentOnly (n : Nat) (s t : State) : Prop where
  only : PortOnly n s t
  port : ∃ tx slots, t.portOf n = { s.portOf n with tx := tx, slots := slots }

theorem SentOnly.refl (n : Nat) (s : State) : SentOnly n s s := ⟨.refl n s, _, _, rfl⟩

theorem SentOnly.trans (h : SentOnly n s u) (k : SentOnly n u t) : SentOnly n s t := by
  obtain ⟨tx, slots, hp⟩ := h.port
  obtain ⟨tx', slots', hp'⟩ := k.port
  refine ⟨h.only.trans k.only, tx', slots', ?_⟩
  rw [hp', hp]

theorem State.send_sent (s : State) (n t body : Nat) : SentOnly n s (s.send n t body) := by
  refine ⟨(PortOnly.refl n s).send t body, ?_⟩
  rw [State.send, State.portOf_updPort_self, State.emit, State.portOf_updPort_self]
  exact ⟨_, _, rfl⟩

theorem SentOnly.send (h : SentOnly n s u) (t body : Nat) : SentOnly n s (u.send n t body) := h.trans (u.send_sent n t body)

theorem SentOnly.cals (h : SentOnly n s t) : (t.portOf n).cals = (s.portOf n).cals := by
  obtain ⟨tx, slots, hp⟩ := h.port
  rw [hp]

theorem SentOnly.ck (h : SentOnly n s t) : (t.portOf n).ck = (s.portOf n).ck := by
  obtain ⟨tx, slots, hp⟩ := h.port
  rw [hp]

theorem SentOnly.locked (h : SentOnly n s t) : (t.portOf n).locked = (s.portOf n).locked := by
  obtain ⟨tx, slots, hp⟩ := h.port
  rw [hp]

end

/-! ### Attempts -/

/-- A port whose lanes stand still. -/
def Port.stopped (p : Port) : Port := { p with ck := none, lanes := p.lanes.map LaneTx.hold, slots := [] }

theorem Port.stopped_out (p : Port) : ∀ l ∈ p.stopped.lanes, l.out = none := by
  intro l hl
  obtain ⟨m, -, rfl⟩ := List.mem_map.1 hl
  rfl

theorem State.portOf_laneStop (s : State) (n : Nat) : (s.laneStop n).portOf n = (s.portOf n).stopped := s.portOf_updPort_self n _

theorem State.laneStop_only (s : State) (n : Nat) : PortOnly n s (s.laneStop n) := (PortOnly.refl n s).updPort _

/-- A port at the start of an attempt. -/
def Port.started (p : Port) : Port := { p.stopped with trained := 0, locked := 0, cals := [], capsTries := 0, discards := 0, bk := {}, chk := {} }

section
variable {n : Fin 4} {s : State}

theorem State.startAttempt_effect (s : State) (n : Nat) : (s.startAttempt n).zState n = zDETECT ∧ (s.startAttempt n).portOf n = (s.portOf n).started
    ∧ PortQuiet [rZTL_STATUS n] s (s.startAttempt n) := by
  have hstop := s.portOf_laneStop n
  have honly := s.laneStop_only n
  rw [State.startAttempt]
  generalize s.laneStop n = u at hstop honly
  have hz := u.zState_setZState n (v := zDETECT) (by decide)
  have hport := u.portOf_setZState n zDETECT n
  have hregs := u.setZState_onlyRegs n zDETECT
  generalize u.setZState n zDETECT = v at hz hport hregs
  have hupd := (PortOnly.refl n v).updPort (fun p => { p with trained := 0, locked := 0, cals := [], capsTries := 0, discards := 0, bk := {}, chk := {} })
  refine ⟨(hupd.zState n).trans hz, ?_, (((PortQuiet.refl _ s).only honly).quiet hregs.quiet).only hupd⟩
  rw [State.portOf_updPort_self, hport, hstop, Port.started]

theorem does_ztlEnable (habs : s.absentUnit (rZTL_CMD n) = false) (ht : Takes s (rZTL_CMD n)) (hz : s.zState n = zOFF) (hn : n < s.tiles)
    (hpll : s.pllDead = false) : Does (.ztlEnable n) s (fun t => t.zState n = zDETECT ∧ (t.portOf n).tries = 0
      ∧ (t.portOf n).refused = false ∧ (t.portOf n).trained = 0 ∧ Quiet [rZTL_STATUS n] { s with port := t.port } t) := by
  have hx : exec (.ztlEnable n) s = .next (s.viaReg (rZTL_CMD n) (fun s => s.enableOp n)) := rfl
  refine does_viaReg_present habs ht hx ?_
  rw [State.enableOp, if_pos ⟨hz, decide_eq_true hn, hpll⟩]
  have hfirst := (PortOnly.refl (n : Nat) s).updPort (fun p => { p with tries := 0, refused := false })
  have hport := s.portOf_updPort_self n (fun p => { p with tries := 0, refused := false })
  generalize s.updPort n (fun p => { p with tries := 0, refused := false }) = u at hfirst hport
  obtain ⟨hz', hport', hquiet⟩ := u.startAttempt_effect n
  have hall := ((PortQuiet.refl [rZTL_STATUS n] s).only hfirst).trans hquiet
  rw [hport', hport]
  exact ⟨hz', rfl, rfl, rfl, hall⟩

theorem does_ztlEnable_ignored (habs : s.absentUnit (rZTL_CMD n) = false) (ht : Takes s (rZTL_CMD n))
    (h : s.zState n ≠ zOFF ∨ s.tiles ≤ n ∨ s.pllDead = true) : Does (.ztlEnable n) s (fun t => t = s) := by
  have hx : exec (.ztlEnable n) s = .next (s.viaReg (rZTL_CMD n) (fun s => s.enableOp n)) := rfl
  refine does_viaReg_present habs ht hx (if_neg ?_)
  rintro ⟨hz, hn, hpll⟩
  obtain h | h | h := h
  · exact h hz
  · exact absurd (of_decide_eq_true hn) (by omega)
  · exact absurd (h.symm.trans hpll) (by decide)

theorem State.retryOp_down (hz : s.zState n = zDOWN) : (s.retryOp n).zState n = zDETECT ∧ (s.retryOp n).portOf n = (s.portOf n).started
    ∧ PortQuiet [rZTL_STATUS n] s (s.retryOp n) := by
  rw [State.retryOp, if_pos hz]
  exact s.startAttempt_effect n

theorem does_ztlRetry (habs : s.absentUnit (rZTL_CMD n) = false) (ht : Takes s (rZTL_CMD n)) (hz : s.zState n = zDOWN) :
    Does (.ztlRetry n) s (fun t => t.zState n = zDETECT ∧ (t.portOf n).tries = (s.portOf n).tries
      ∧ Quiet [rZTL_STATUS n] { s with port := t.port } t) := by
  have hx : exec (.ztlRetry n) s = .next (s.viaReg (rZTL_CMD n) (fun s => s.retryOp n)) := rfl
  obtain ⟨hz', hport, hquiet⟩ := State.retryOp_down hz
  exact does_viaReg_present habs ht hx ⟨hz', by rw [hport]; rfl, hquiet⟩

theorem does_bringupAttempt (hz : s.zState n = zDOWN) : Does (.bringupAttempt n) s (fun t => t.zState n = zDETECT
    ∧ (t.portOf n).trained = 0 ∧ (t.portOf n).locked = 0 ∧ Quiet [rZTL_STATUS n] { s with port := t.port } t) := by
  have hx : exec (.bringupAttempt n) s = .next (s.retryOp n) := rfl
  obtain ⟨hz', hport, hquiet⟩ := State.retryOp_down hz
  exact ⟨_, hx, hz', by rw [hport]; rfl, by rw [hport]; rfl, hquiet⟩

theorem does_ztlDisable (habs : s.absentUnit (rZTL_CMD n) = false) (ht : Takes s (rZTL_CMD n)) (htg : s.tgState n = tgOFF) (hz : s.zState n ≠ zOFF) :
    Does (.ztlDisable n) s (fun t => t.zState n = zOFF) := by
  have hx : exec (.ztlDisable n) s = .next (s.viaReg (rZTL_CMD n) (fun s => s.disableOp n)) := rfl
  refine does_viaReg_present habs ht hx ?_
  rw [State.disableOp, if_pos ⟨htg, hz⟩, State.portOff]
  exact State.zState_setZState _ _ (by decide)

theorem does_ztlDisable_running (habs : s.absentUnit (rZTL_CMD n) = false) (ht : Takes s (rZTL_CMD n)) (htg : s.tgState n ≠ tgOFF) :
    Does (.ztlDisable n) s (fun t => t = s) := by
  have hx : exec (.ztlDisable n) s = .next (s.viaReg (rZTL_CMD n) (fun s => s.disableOp n)) := rfl
  exact does_viaReg_present habs ht hx (if_neg fun h => htg h.1)

/-- An attempt that has failed and is not the third. -/
theorem State.attemptFail_effect (htries : (s.portOf n).tries ≠ 2) : (s.attemptFail n).zState n = zDOWN
    ∧ (s.attemptFail n).getF (fZTL_ATTEMPT_LAST_FAIL_STATE n) = s.zState n
    ∧ (s.attemptFail n).getF (fZTL_ATTEMPT_COUNT n) = min 255 (s.getF (fZTL_ATTEMPT_COUNT n) + 1)
    ∧ (s.attemptFail n).portOf n = { (s.portOf n).stopped with cals := [], bkTry := none, tries := (s.portOf n).tries + 1 }
    ∧ PortQuiet [rZTL_STATUS n, rZTL_ATTEMPT n] s (s.attemptFail n) := by
  have hst : s.zState n < 16 := State.getF_lt _ _
  have hk : satAt 255 (s.getF (fZTL_ATTEMPT_COUNT n) + 1) = min 255 (s.getF (fZTL_ATTEMPT_COUNT n) + 1) := Nat.min_comm _ _
  unfold State.attemptFail
  rw [hk]
  extract_lets -merge st k u v w
  have hk256 : k < 256 := by unfold k; omega
  have hu1 : u.getF (fZTL_ATTEMPT_LAST_FAIL_STATE n) = st := by
    unfold u
    rw [State.getF_setF_other _ _ _ _ (by simp) (by simp), State.getF_setF _ _ _ (by simp)]
    exact Nat.mod_eq_of_lt hst
  have hu2 : u.getF (fZTL_ATTEMPT_COUNT n) = k := (State.getF_setF _ _ _ (by simp)).trans (Nat.mod_eq_of_lt hk256)
  have hu : OnlyRegs [rZTL_ATTEMPT n] s u := ((OnlyRegs.refl _ s).setF (by simp)).setF (by simp)
  have hv0 : Quiet [] u (u.zEv evZTL_ATTEMPT_FAIL n (256 * st + k)) := (Quiet.refl _ u).post (by decide)
  have hvz : v.zState n = zDOWN := State.zState_setZState _ _ (by decide)
  have hvport : v.portOf n = (s.portOf n).stopped := by
    unfold v
    rw [State.portOf_setZState, State.portOf_laneStop, hv0.portOf, hu.portOf]
  have hvq : PortQuiet [rZTL_STATUS n, rZTL_ATTEMPT n] u v :=
    (((PortQuiet.refl _ u).quiet (hv0.mono (by simp))).only (State.laneStop_only _ n)).quiet ((State.setZState_onlyRegs _ n zDOWN).quiet.mono (by simp))
  have hvreg : v.reg (rZTL_ATTEMPT n) = u.reg (rZTL_ATTEMPT n) := by
    unfold v
    rw [((State.setZState_onlyRegs _ n zDOWN).regs _ (by simp)), (State.laneStop_only _ n).reg, hv0.regs _ (by simp) (ztl_not_evReg n.isLt (by simp only [rZTL_CMD, rZTL_ATTEMPT]; omega) (by simp only [rZTL_CMD, rZTL_ATTEMPT]; omega))]
  clear_value u v
  have hw := (PortOnly.refl (n : Nat) v).updPort (fun p => { p with cals := [], bkTry := none, tries := p.tries + 1 })
  have hwport : w.portOf n = { (s.portOf n).stopped with cals := [], bkTry := none, tries := (s.portOf n).tries + 1 } := by
    unfold w
    rw [State.portOf_updPort_self, hvport]
    rfl
  have hno : ¬(w.portOf n).tries = 3 := by
    rw [hwport]
    show ¬(s.portOf n).tries + 1 = 3
    omega
  rw [if_neg hno]
  refine ⟨(hw.zState n).trans hvz, ?_, ?_, hwport, ((PortQuiet.refl _ s).quiet (hu.quiet.mono (by simp))).trans (hvq.only hw)⟩
  · exact (hw.getF _).trans ((State.getF_congr hvreg).trans hu1)
  · exact (hw.getF _).trans ((State.getF_congr hvreg).trans hu2)

/-! ### Lanes found, trained and locked -/

/-- A calibration that begins joins those of the port; the words of it are sent. -/
theorem State.startCal_effect (s : State) (n d : Nat) : ∃ c : Cal, c.lane = d ∧ PortOnly n s (s.startCal n d)
    ∧ ((s.startCal n d).portOf n).cals = (s.portOf n).cals.filter (fun x => decide (x.lane ≠ d)) ++ [c]
    ∧ ((s.startCal n d).portOf n).ck = (s.portOf n).ck := by
  unfold State.startCal
  extract_lets -merge adapt code c u
  have hu : PortOnly n s u := (PortOnly.refl n s).updPort _
  have hport : u.portOf n = { s.portOf n with cals := (s.portOf n).cals.filter (fun x => decide (x.lane ≠ d)) ++ [c] } := s.portOf_updPort_self n _
  have hlane : c.lane = d := rfl
  have hsent : SentOnly n u ((u.sendCtle n d code).sendCheck n c) := ((SentOnly.refl n u).send _ _).send _ _
  refine ⟨c, hlane, hu.trans hsent.only, ?_, ?_⟩
  · rw [hsent.cals, hport]
  · rw [hsent.ck, hport]

theorem State.foldl_startCal (n : Nat) (l : List Nat) (hl : l.Nodup) : ∀ s : State, (∀ x ∈ (s.portOf n).cals, x.lane ∉ l) →
    (((l.foldl (fun s d => s.startCal n d) s).portOf n).cals.map Cal.lane = (s.portOf n).cals.map Cal.lane ++ l) := by
  induction l with
  | nil => exact fun s _ => (List.append_nil _).symm
  | cons d l ih =>
    intro s hfree
    obtain ⟨hd, hl⟩ := List.nodup_cons.1 hl
    obtain ⟨c, hc, -, hcals, -⟩ := s.startCal_effect n d
    have hkept : (s.portOf n).cals.filter (fun x => decide (x.lane ≠ d)) = (s.portOf n).cals :=
      List.filter_eq_self.2 fun x hx => decide_eq_true fun h => hfree x hx (h ▸ List.mem_cons_self)
    rw [hkept] at hcals
    rw [List.foldl_cons]
    generalize s.startCal n d = u at hcals
    rw [ih hl u fun x hx => ?_, hcals, List.map_append, List.map_singleton, hc, List.append_assoc, List.singleton_append]
    rw [hcals, List.mem_append, List.mem_singleton] at hx
    obtain hx | rfl := hx
    · exact fun h => hfree x hx (List.mem_cons_of_mem _ h)
    · rw [hc]
      exact hd

theorem State.foldl_startCal_only (n : Nat) (l : List Nat) : ∀ s : State, PortOnly n s (l.foldl (fun s d => s.startCal n d) s)
    ∧ ((l.foldl (fun s d => s.startCal n d) s).portOf n).ck = (s.portOf n).ck := by
  induction l with
  | nil => exact fun s => ⟨.refl n s, rfl⟩
  | cons d l ih =>
    intro s
    obtain ⟨-, -, honly, -, hck⟩ := s.startCal_effect n d
    rw [List.foldl_cons]
    generalize s.startCal n d = u at honly hck
    obtain ⟨h1, h2⟩ := ih u
    exact ⟨honly.trans h1, h2.trans hck⟩

theorem State.bkTrials_effect (s : State) (n : Nat) : PortOnly n s (s.bkTrials n) ∧ ((s.bkTrials n).portOf n).ck = (s.portOf n).ck
    ∧ ((s.bkTrials n).portOf n).cals = (s.portOf n).cals := by
  unfold State.bkTrials
  split
  · refine ⟨(PortOnly.refl n s).updPort _, ?_, ?_⟩ <;> rw [State.portOf_updPort_self]
  · exact ⟨.refl n s, rfl, rfl⟩

theorem lanesOf_nodup (m : Nat) : (lanesOf m).Nodup := List.nodup_range.filter _

theorem does_detectDone {m : BitVec 3} (hz : s.zState n = zDETECT) (hm : 2 ≤ (lanesOf m.toNat).length) :
    Does (.detectDone n m) s (fun t => t.zState n = zTRAIN ∧ ((s.portOf n).cals = [] → (t.portOf n).cals.map Cal.lane = lanesOf m.toNat)
      ∧ (t.portOf n).ck = some (s.isF (fZTL_LANE_CFG_CK_INV n)) ∧ Quiet [rZTL_STATUS n] { s with port := t.port } t) := by
  have hx : exec (.detectDone n m) s = execDetectDone n m s := rfl
  rw [execDetectDone] at hx
  dsimp only at hx
  have hnodup := lanesOf_nodup m.toNat
  generalize lanesOf m.toNat = l at hm hx hnodup
  rw [if_neg (by rintro (h | h); exacts [h hz, by omega])] at hx
  have hu := s.zState_setZState n (v := zTRAIN) (by decide)
  have hport := s.portOf_setZState n zTRAIN n
  have hregs := s.setZState_onlyRegs n zTRAIN
  generalize s.setZState n zTRAIN = u at hx hu hport hregs
  have hv := (PortOnly.refl (n : Nat) u).updPort (fun p => { p with ck := some (s.isF (fZTL_LANE_CFG_CK_INV n)) })
  have hvport := u.portOf_updPort_self n (fun p => { p with ck := some (s.isF (fZTL_LANE_CFG_CK_INV n)) })
  generalize u.updPort n (fun p => { p with ck := some (s.isF (fZTL_LANE_CFG_CK_INV n)) }) = v at hx hv hvport
  obtain ⟨hw, hwck, hwcals⟩ := v.bkTrials_effect n
  generalize v.bkTrials n = w at hx hw hwck hwcals
  obtain ⟨ht, htck⟩ := State.foldl_startCal_only n l w
  have hcals := State.foldl_startCal n l hnodup w
  have hall := (hv.trans hw).trans ht
  have hbase : (w.portOf n).cals = (s.portOf n).cals := by rw [hwcals, hvport, ← hport]
  refine ⟨_, hx, (hall.zState n).trans hu, fun hnil => ?_, ?_, ((PortQuiet.refl _ s).quiet hregs.quiet).only hall⟩
  · rw [hcals (by rw [hbase, hnil]; simp), hbase, hnil]
    rfl
  · rw [htck, hwck, hvport]

theorem does_detectDone_few {m : BitVec 3} (hm : (lanesOf m.toNat).length < 2) : Does (.detectDone n m) s (fun t => t = s) := by
  have hx : exec (.detectDone n m) s = execDetectDone n m s := rfl
  rw [execDetectDone, if_pos (.inr hm)] at hx
  exact ⟨s, hx, rfl⟩

theorem State.bkFixed_effect (s : State) (n : Nat) : (s.bkFixed n).getF ⟨rZTL_EQ_STATUS n, 12, 3⟩
      = (if s.isF (fZTL_LANE_CFG_EQ_MODE n) then s.getF ⟨rZTL_EQ_STATUS n, 12, 3⟩ else bitsOf (s.regN (rZTL_EQ_CFG n)) 12 3)
    ∧ OnlyRegs [rZTL_EQ_STATUS n] s (s.bkFixed n) := by
  unfold State.bkFixed
  split
  · exact ⟨rfl, .refl _ s⟩
  · refine ⟨(State.getF_setF _ _ _ (by simp [fldBkCode])).trans (Nat.mod_eq_of_lt ?_), (OnlyRegs.refl _ s).setF (by simp [fldBkCode])⟩
    exact bitsOf_lt _ _ _

theorem does_trainDone (hz : s.zState n = zTRAIN) (htr : (s.portOf n).trained ≠ 0) : Does (.trainDone n) s (fun t =>
    t.zState n = zLOCK ∧ (t.portOf n).cals = []
    ∧ t.getF ⟨rZTL_EQ_STATUS n, 12, 3⟩ = (if s.isF (fZTL_LANE_CFG_EQ_MODE n) then s.getF ⟨rZTL_EQ_STATUS n, 12, 3⟩
        else bitsOf (s.regN (rZTL_EQ_CFG n)) 12 3)
    ∧ Quiet [rZTL_STATUS n, rZTL_EQ_STATUS n] { s with port := t.port } t) := by
  have hx : exec (.trainDone n) s = execTrainDone n s := rfl
  rw [execTrainDone, if_neg (by rintro (h | h); exacts [h hz, htr h])] at hx
  obtain ⟨hcode, hfix⟩ := s.bkFixed_effect n
  generalize s.bkFixed n = u at hx hcode hfix
  have hu := u.zState_setZState n (v := zLOCK) (by decide)
  have hkeep : (u.setZState n zLOCK).getF ⟨rZTL_EQ_STATUS n, 12, 3⟩ = u.getF ⟨rZTL_EQ_STATUS n, 12, 3⟩ :=
    State.getF_setF_other _ _ _ _ (by simp) (.inl (by simp))
  have hregs := u.setZState_onlyRegs n zLOCK
  generalize u.setZState n zLOCK = v at hx hu hkeep hregs
  have hv := (PortOnly.refl (n : Nat) v).updPort (fun p => { p with cals := [] })
  refine ⟨_, hx, (hv.zState n).trans hu, by rw [State.portOf_updPort_self], (hv.getF _).trans (hkeep.trans hcode), ?_⟩
  exact (((PortQuiet.refl _ s).quiet (hfix.quiet.mono (by simp))).quiet (hregs.quiet.mono (by simp))).only hv

theorem State.lockedOn_effect (s : State) (n lk : Nat) : (s.lockedOn n lk).zState n = zCAPS ∧ ((s.lockedOn n lk).portOf n).locked = lk
    ∧ PortQuiet [rZTL_STATUS n] s (s.lockedOn n lk) := by
  have hu := s.zState_setZState n (v := zCAPS) (by decide)
  have hregs := s.setZState_onlyRegs n zCAPS
  rw [State.lockedOn]
  generalize s.setZState n zCAPS = u at hu hregs
  have hv := (PortOnly.refl n u).updPort (fun p => { p with locked := lk })
  have hport := u.portOf_updPort_self n (fun p => { p with locked := lk })
  generalize u.updPort n (fun p => { p with locked := lk }) = v at hv hport
  have hsent := v.send_sent n ctlCAPS_REQ 0
  refine ⟨(hsent.only.zState n).trans ((hv.zState n).trans hu), ?_, ((PortQuiet.refl _ s).quiet hregs.quiet).only (hv.trans hsent.only)⟩
  rw [hsent.locked, hport]

theorem does_lockDone {m : BitVec 3} (hz : s.zState n = zLOCK) (hm : m.toNat &&& (s.portOf n).trained ≠ 0) :
    Does (.lockDone n m) s (fun t => t.zState n = zCAPS ∧ (t.portOf n).locked = m.toNat &&& (s.portOf n).trained
      ∧ Quiet [rZTL_STATUS n] { s with port := t.port } t) := by
  have hx : exec (.lockDone n m) s = execLockDone n m s := rfl
  rw [execLockDone] at hx
  rw [if_neg (by rintro (h | h); exacts [h hz, hm h])] at hx
  exact ⟨_, hx, s.lockedOn_effect n _⟩

theorem does_attemptTimeout_locked (hz : s.zState n = zLOCK) (hlk : (s.portOf n).locked &&& (s.portOf n).trained ≠ 0) :
    Does (.attemptTimeout n) s (fun t => t.zState n = zCAPS ∧ (t.portOf n).locked = (s.portOf n).locked &&& (s.portOf n).trained
      ∧ Quiet [rZTL_STATUS n] { s with port := t.port } t) := by
  have hx : exec (.attemptTimeout n) s = execAttemptTimeout n s := rfl
  rw [execAttemptTimeout] at hx
  rw [if_pos ⟨hz, hlk⟩] at hx
  exact ⟨_, hx, s.lockedOn_effect n _⟩

theorem does_attemptTimeout (hz : s.zState n ∈ [zDETECT, zTRAIN, zLOCK, zCAPS]) (htries : (s.portOf n).tries ≠ 2)
    (hlk : s.zState n ≠ zLOCK ∨ (s.portOf n).locked &&& (s.portOf n).trained = 0) :
    Does (.attemptTimeout n) s (fun t => t.zState n = zDOWN ∧ t.getF (fZTL_ATTEMPT_LAST_FAIL_STATE n) = s.zState n
      ∧ t.getF (fZTL_ATTEMPT_COUNT n) = min 255 (s.getF (fZTL_ATTEMPT_COUNT n) + 1) ∧ (t.portOf n).tries = (s.portOf n).tries + 1
      ∧ (t.portOf n).ck = none ∧ (∀ l ∈ (t.portOf n).lanes, l.out = none)
      ∧ Quiet [rZTL_STATUS n, rZTL_ATTEMPT n] { s with port := t.port } t) := by
  have hx : exec (.attemptTimeout n) s = execAttemptTimeout n s := rfl
  rw [execAttemptTimeout] at hx
  rw [if_neg (by rintro ⟨h1, h2⟩; exact hlk.elim (· h1) h2), if_pos (by simpa using hz)] at hx
  obtain ⟨h1, h2, h3, hport, hq⟩ := State.attemptFail_effect htries
  refine ⟨_, hx, h1, h2, h3, ?_, ?_, ?_, hq⟩ <;> rw [hport]
  · rfl
  · exact (s.portOf n).stopped_out

/-! ### Reports of a lane's training (R229 to R231) -/

theorem does_trainReport {b : BkBits} {p : BitVec 48} {c : Cal} {r s : State} {P : State → Prop} (h : BkSays n ctlTRAIN_REPORT b p r s)
    (hz : s.zState n = zTRAIN) (hc : (s.portOf n).cals.find? (fun x => x.lane = s.devLane n (payF p 55 52)) = some c) (hph : payF p 15 8 = c.testPhase)
    (hP : P (s.calOut n c (c.report (s.regN (rZTL_RECAL_CFG n) % 128) true (payF p 47 16)))) : Does (.trainReport n b) r P := by
  have hx : exec (.trainReport n b) r = .next (r.backIn n ctlTRAIN_REPORT b (fun p s => s.trainIn n p)) := rfl
  rw [State.backIn_says _ h] at hx
  refine ⟨_, hx, ?_⟩
  rw [State.trainIn]
  rw [hc, hz]
  dsimp only
  rw [if_neg (not_not_intro hph)]
  exact hP

theorem State.takeCal_effect (s : State) (n : Nat) {d : Nat} (hd : d < 3) (ph w ct : Nat) :
    (s.takeCal n d ph w ct).getF (fldPhase n d) = ph % 64 ∧ (s.takeCal n d ph w ct).getF (fldEye n d) = w % 128
      ∧ (s.takeCal n d ph w ct).getF (fldCtle n d) = ct % 8 ∧ OnlyRegs [rZTL_PHASE n, rZTL_EYE_WIDTH n, rZTL_EQ_STATUS n] s (s.takeCal n d ph w ct) := by
  have hp : (fldPhase n d).lo + (fldPhase n d).w ≤ 32 := by simp only [fldPhase]; omega
  have he : (fldEye n d).lo + (fldEye n d).w ≤ 32 := by simp only [fldEye]; omega
  have hc : (fldCtle n d).lo + (fldCtle n d).w ≤ 32 := by simp only [fldCtle]; omega
  refine ⟨?_, ?_, ?_, (((OnlyRegs.refl _ s).setF (by simp [fldPhase])).setF (by simp [fldEye])).setF (by simp [fldCtle])⟩
  · rw [State.takeCal, State.getF_setF_other _ _ _ _ hc (.inl (by simp [fldPhase, fldCtle])), State.getF_setF_other _ _ _ _ he (.inl (by simp [fldPhase, fldEye])),
      State.getF_setF _ _ _ hp]
    rfl
  · rw [State.takeCal, State.getF_setF_other _ _ _ _ hc (.inl (by simp [fldEye, fldCtle])), State.getF_setF _ _ _ he]
    rfl
  · rw [State.takeCal, State.getF_setF _ _ _ hc]
    rfl

theorem State.dropCal_effect (s : State) (n d : Nat) : PortOnly n s (s.dropCal n d)
    ∧ (s.dropCal n d).portOf n = { s.portOf n with cals := (s.portOf n).cals.filter (fun x => decide (x.lane ≠ d)) } :=
  ⟨(PortOnly.refl n s).updPort _, s.portOf_updPort_self n _⟩

theorem State.calOut_done {c : Cal} {ph w ct : Nat} (hz : s.zState n = zTRAIN) (hc : c.lane < 3) :
    ((s.calOut n c (.done ph w ct)).portOf n).trained = (s.portOf n).trained ||| 2 ^ c.lane
      ∧ (s.calOut n c (.done ph w ct)).getF (fldPhase n c.lane) = ph % 64 ∧ (s.calOut n c (.done ph w ct)).getF (fldEye n c.lane) = w % 128
      ∧ (s.calOut n c (.done ph w ct)).getF (fldCtle n c.lane) = ct % 8 ∧ (s.calOut n c (.done ph w ct)).mem = s.mem := by
  have hout : s.calOut n c (.done ph w ct) = ((s.dropCal n c.lane).takeCal n c.lane ph w ct).updPort n (fun p => { p with trained := p.trained ||| 2 ^ c.lane }) := by
    rw [State.calOut, hz]
    rfl
  obtain ⟨hdrop, hport⟩ := s.dropCal_effect n c.lane
  rw [hout]
  generalize s.dropCal n c.lane = u at hdrop hport
  obtain ⟨h1, h2, h3, hregs⟩ := u.takeCal_effect n hc ph w ct
  generalize u.takeCal n c.lane ph w ct = v at h1 h2 h3 hregs
  have hupd := (PortOnly.refl (n : Nat) v).updPort (fun p => { p with trained := p.trained ||| 2 ^ c.lane })
  refine ⟨?_, (hupd.getF _).trans h1, (hupd.getF _).trans h2, (hupd.getF _).trans h3, hupd.mem.trans (hregs.mem_eq.trans hdrop.mem)⟩
  rw [State.portOf_updPort_self, hregs.portOf, hport]

theorem State.calReject_effect (s : State) (n : Fin 4) (d diff : Nat) : (s.calReject n d diff).isF (fZTL_STATUS_CAL_REJECT n) = true
    ∧ Quiet [rZTL_STATUS n, rZTL_CAL_REJECT_COUNT n] s (s.calReject n d diff) := by
  have hflag := s.isF_raise_self (f := fZTL_STATUS_CAL_REJECT n) (c := rZTL_CAL_REJECT_COUNT n) rfl (by simp) (by simp)
  have hraise : Quiet [rZTL_STATUS n, rZTL_CAL_REJECT_COUNT n] s (s.raise (fZTL_STATUS_CAL_REJECT n) (rZTL_CAL_REJECT_COUNT n)) :=
    (Quiet.refl _ s).raise (by simp) (by simp)
  rw [State.calReject]
  generalize s.raise (fZTL_STATUS_CAL_REJECT n) (rZTL_CAL_REJECT_COUNT n) = u at hflag hraise
  have hev : Quiet [] u (u.zEvOnce evZTL_CAL_REJECT n (2 ^ 8 * diff + d)) := (Quiet.refl _ u).postOnce (by decide)
  refine ⟨?_, hraise.trans (hev.mono (by simp))⟩
  rw [hev.isF _ (by simp) (ztl_not_evReg n.isLt (by simp only [rZTL_CMD, rZTL_STATUS]; omega) (by simp only [rZTL_CMD, rZTL_STATUS]; omega)), hflag]

theorem State.calOut_fail {c : Cal} (hz : s.zState n = zTRAIN) :
    ((s.calOut n c .fail).portOf n).trained = (s.portOf n).trained ∧ (∀ x ∈ ((s.calOut n c .fail).portOf n).cals, x.lane ≠ c.lane)
      ∧ (s.calOut n c .fail).isF (fZTL_STATUS_CAL_REJECT n) = true ∧ (s.calOut n c .fail).mem = s.mem := by
  have hout : s.calOut n c .fail = (s.dropCal n c.lane).calReject n c.lane 0 := by
    rw [State.calOut, hz]
    rfl
  obtain ⟨hdrop, hport⟩ := s.dropCal_effect n c.lane
  rw [hout]
  generalize s.dropCal n c.lane = u at hdrop hport
  obtain ⟨hflag, hq⟩ := u.calReject_effect n c.lane 0
  rw [hq.portOf, hport]
  refine ⟨rfl, fun x hx => ?_, hflag, hq.mem_eq.trans hdrop.mem⟩
  exact of_decide_eq_true (List.mem_filter.1 hx).2

end

/-- Settles O49: each step of the bring-up by what it does to the port, its state and its words. -/
theorem linkBringUp : Obligations.LinkBringUp := by
  unfold Obligations.LinkBringUp
  refine ⟨fun n s habs ht => ⟨fun hz hn hpll => does_ztlEnable habs ht hz hn hpll, does_ztlEnable_ignored habs ht, does_ztlRetry habs ht,
      does_ztlDisable habs ht, does_ztlDisable_running habs ht⟩,
    fun n s => does_bringupAttempt, fun n m s hz => ⟨does_detectDone hz, does_detectDone_few⟩, fun n s => does_trainDone, fun n m s => does_lockDone,
    fun n s => does_attemptTimeout_locked, fun n s => does_attemptTimeout, fun n b p c r s h hz hc hd hph => ⟨fun ph w ct hout => ?_, fun hout => ?_⟩⟩
  · refine does_trainReport h hz hc hph ?_
    rw [hout]
    exact State.calOut_done hz hd
  · refine does_trainReport h hz hc hph ?_
    rw [hout]
    exact State.calOut_fail hz

end Sys2Proof.Machine

/-! ## Hamper and the Spool ring (O55, R339 to R348) -/

namespace Sys2Proof.Machine

/-! ### What the Spool writer's buffer leaves alone (R346, R392) -/

/-- The registers that a record handed to the Spool writer may change. -/
def spoolRegs : List Nat := [rMSG_SP_LOSS_COUNT, rMSG_SP_FROZEN_DROP_COUNT, rMEM_ECC_INJECT]

/-- Only Spool's own state and the registers of `spoolRegs` change. -/
structure SpoolOnly (s t : State) : Prop where
  rest : t = { s with regs := t.regs, spool := t.spool }
  regs : ∀ off, off ∉ spoolRegs → t.reg off = s.reg off

section
variable {s t u : State}

theorem SpoolOnly.refl (s : State) : SpoolOnly s s := ⟨rfl, fun _ _ => rfl⟩

theorem SpoolOnly.hamper (h : SpoolOnly s t) : t.hamper = s.hamper := by rw [h.rest]

theorem SpoolOnly.mem (h : SpoolOnly s t) : t.mem = s.mem := by rw [h.rest]

theorem SpoolOnly.spool (h : SpoolOnly s u) (x : Spool) : SpoolOnly s { u with spool := x } := by
  refine ⟨?_, h.regs⟩
  conv_lhs => rw [h.rest]

theorem SpoolOnly.setReg (h : SpoolOnly s u) {off : Nat} {v : Word} (ho : off ∈ spoolRegs) : SpoolOnly s (u.setReg off v) := by
  refine ⟨?_, fun k hk => ?_⟩
  · conv_lhs => rw [h.rest]
    rfl
  · rw [State.reg_setReg, if_neg (fun hkoff : k = off => hk (by rw [hkoff]; exact ho))]
    exact h.regs k hk

theorem SpoolOnly.setF (h : SpoolOnly s u) {f : Fld} {m : Nat} (ho : f.off ∈ spoolRegs) : SpoolOnly s (u.setF f m) := h.setReg ho

theorem SpoolOnly.bump (h : SpoolOnly s u) {off : Nat} (ho : off ∈ spoolRegs) : SpoolOnly s (u.bump off) := h.setReg ho

theorem SpoolOnly.ite {c : Prop} [Decidable c] {a b : State} (h : SpoolOnly s a) (k : SpoolOnly s b) : SpoolOnly s (if c then a else b) := by
  split
  · exact h
  · exact k

theorem State.spoolPut_only (s : State) (kind flags src : Nat) (payload : List Byte) : SpoolOnly s (s.spoolPut kind flags src payload) := by
  unfold State.spoolPut
  extract_lets -merge n x v y w
  have hv : SpoolOnly s v := (SpoolOnly.refl s).spool _
  have hw : SpoolOnly s w := hv.spool _
  exact .ite (.refl s) (.ite ((SpoolOnly.refl s).bump (by decide)) (.ite (hv.bump (by decide)) (.ite ((hw.spool _).setF (by decide)) hw)))

theorem State.spoolEv_only (s : State) (flags seq : Nat) (e : Ev) : SpoolOnly s (s.spoolEv flags seq e) := s.spoolPut_only _ _ _ _

end

/-! ### The arbiter (R341, R342) -/

theorem pickEv_mem {l : List (Nat × Ev)} (h : pickEv l = none) : l = [] := by
  cases l with
  | nil => rfl
  | cons a l =>
    have hsome : ∀ (l : List (Nat × Ev)) (b : Nat × Ev), (l.foldl (fun best c => match best with
        | none => some c
        | some b => if evBefore c b then some c else some b) (some b)) ≠ none := by
      intro l
      induction l with
      | nil => exact fun b => Option.some_ne_none b
      | cons c l ih =>
        intro b
        rw [List.foldl_cons]
        dsimp only
        split
        · exact ih c
        · exact ih b
    exact absurd h (hsome l a)

section
variable {s : State}

theorem does_hamperAccept_none (h : s.hamper.outbox = []) : Does .hamperAccept s (fun t => t = s) := by
  have hx : exec .hamperAccept s = execHamperAccept s := rfl
  rw [execHamperAccept, h] at hx
  exact ⟨s, hx, rfl⟩

theorem State.storeEv_effect (s : State) (n : Nat) (e : Ev) (h : s.injectArmed 7 = false) :
    s.storeEv n e = s.updHamper (fun h => { h with held := h.held ++ [(n, e)] }) := by
  have harm : (s.updHamper (fun h => { h with held := h.held ++ [(n, e)] })).injectArmed 7 = s.injectArmed 7 := rfl
  rw [State.storeEv]
  dsimp only
  rw [harm, h]
  rfl

/-- A record that finds a slot is stored under the next number. -/
theorem State.hamperIn_effect (s : State) (e : Ev) (hfree : s.slotFree e.kind.prio = true) (harm : s.injectArmed 7 = false) :
    (s.hamperIn e).hamper.held = s.hamper.held ++ [(s.regN rMSG_EVT_SEQ_NEXT, e)] ∧ (s.hamperIn e).hamper.outbox = s.hamper.outbox
      ∧ (s.hamperIn e).regN rMSG_EVT_SEQ_NEXT = (s.regN rMSG_EVT_SEQ_NEXT + 1) % 65536 ∧ Quiet [] s (s.hamperIn e) := by
  unfold State.hamperIn
  extract_lets p
  rw [State.takeSeq]
  dsimp only
  have hn := (s.regN_setRegN rMSG_EVT_SEQ_NEXT rMSG_EVT_SEQ_NEXT ((s.regN rMSG_EVT_SEQ_NEXT + 1) % 65536)).trans
    ((if_pos rfl).trans (Nat.mod_eq_of_lt (by omega)))
  have hq : Quiet [] s (s.setRegN rMSG_EVT_SEQ_NEXT ((s.regN rMSG_EVT_SEQ_NEXT + 1) % 65536)) := (Quiet.refl [] s).setRegN (.inr (by decide))
  have hham : (s.setRegN rMSG_EVT_SEQ_NEXT ((s.regN rMSG_EVT_SEQ_NEXT + 1) % 65536)).hamper = s.hamper := rfl
  have harm1 : (s.setRegN rMSG_EVT_SEQ_NEXT ((s.regN rMSG_EVT_SEQ_NEXT + 1) % 65536)).injectArmed 7 = s.injectArmed 7 := by
    rw [State.injectArmed, State.injectArmed, State.isF, State.isF, State.getF_setRegN_other _ _ (by decide), State.getF_setRegN_other _ _ (by decide)]
  generalize s.regN rMSG_EVT_SEQ_NEXT = n at hn hq hham harm1
  generalize s.setRegN rMSG_EVT_SEQ_NEXT ((n + 1) % 65536) = u at hn hq hham harm1
  have hv : ∃ v, (if p ≤ 1 then u.updHamper (fun h => { h with alarmCode := e.kind.code, alarmCls := e.kind.cls }) else u) = v
      ∧ v.hamper.held = s.hamper.held ∧ v.hamper.outbox = s.hamper.outbox ∧ v.injectArmed 7 = false
      ∧ v.regN rMSG_EVT_SEQ_NEXT = (n + 1) % 65536 ∧ Quiet [] s v := by
    refine ⟨_, rfl, ?_⟩
    have hheld : u.hamper.held = s.hamper.held := by rw [hham]
    have hbox : u.hamper.outbox = s.hamper.outbox := by rw [hham]
    split
    · exact ⟨hheld, hbox, harm1.trans harm, hn, hq.hamper⟩
    · exact ⟨hheld, hbox, harm1.trans harm, hn, hq⟩
  obtain ⟨v, hv, hheld, hbox, harm2, hseq, hq⟩ := hv
  have hslot : v.slotFree p = true := by
    rw [State.slotFree, hheld]
    exact hfree
  rw [hv, if_pos hslot, State.storeEv_effect v n e harm2]
  have hstored : (v.updHamper (fun h => { h with held := h.held ++ [(n, e)] })).hamper.held = v.hamper.held ++ [(n, e)] := rfl
  have hsbox : (v.updHamper (fun h => { h with held := h.held ++ [(n, e)] })).hamper.outbox = v.hamper.outbox := rfl
  have hsreg : (v.updHamper (fun h => { h with held := h.held ++ [(n, e)] })).regN rMSG_EVT_SEQ_NEXT = v.regN rMSG_EVT_SEQ_NEXT := rfl
  have hsq : Quiet [] s (v.updHamper (fun h => { h with held := h.held ++ [(n, e)] })) := hq.hamper
  generalize v.updHamper (fun h => { h with held := h.held ++ [(n, e)] }) = w at hstored hsbox hsreg hsq
  have honly := w.spoolEv_only 0 n e
  refine ⟨?_, ?_, ?_, hsq.spoolPut⟩
  · rw [honly.hamper, hstored, hheld]
  · rw [honly.hamper, hsbox, hbox]
  · rw [State.regN_congr (honly.regs _ (by decide)), hsreg, hseq]

theorem does_hamperAccept {c : Nat × Ev} (hpick : pickEv s.hamper.outbox = some c) (hfree : s.slotFree c.2.kind.prio = true)
    (harm : s.injectArmed 7 = false) (hhurt : s.hamper.boxHurt = []) :
    Does .hamperAccept s (fun t => t.hamper.held = s.hamper.held ++ [(s.regN rMSG_EVT_SEQ_NEXT, c.2)]
      ∧ t.hamper.outbox = s.hamper.outbox.erase c ∧ t.regN rMSG_EVT_SEQ_NEXT = (s.regN rMSG_EVT_SEQ_NEXT + 1) % 65536
      ∧ Quiet [] s t) := by
  have hx : exec .hamperAccept s = execHamperAccept s := rfl
  rw [execHamperAccept, hpick] at hx
  refine ⟨_, hx, ?_⟩
  have hheld : (s.updHamper (fun h => { h with outbox := h.outbox.erase c })).hamper.held = s.hamper.held := rfl
  have hbox : (s.updHamper (fun h => { h with outbox := h.outbox.erase c })).hamper.outbox = s.hamper.outbox.erase c := rfl
  have hhurt' : (s.updHamper (fun h => { h with outbox := h.outbox.erase c })).hamper.boxHurt = [] := hhurt
  have hseq : (s.updHamper (fun h => { h with outbox := h.outbox.erase c })).regN rMSG_EVT_SEQ_NEXT = s.regN rMSG_EVT_SEQ_NEXT := rfl
  have hfree' : (s.updHamper (fun h => { h with outbox := h.outbox.erase c })).slotFree c.2.kind.prio = true := hfree
  have harm' : (s.updHamper (fun h => { h with outbox := h.outbox.erase c })).injectArmed 7 = false := harm
  have hq : Quiet [] s (s.updHamper (fun h => { h with outbox := h.outbox.erase c })) := (Quiet.refl [] s).hamper
  dsimp only
  rw [State.boxTake]
  generalize s.updHamper (fun h => { h with outbox := h.outbox.erase c }) = u at hheld hbox hhurt' hseq hfree' harm' hq
  have hchk : u.boxCheck c.2 = (false, u) := by rw [State.boxCheck, hhurt']; rfl
  obtain ⟨h1, h2, h3, h4⟩ := u.hamperIn_effect c.2 hfree' harm'
  rw [hchk]
  dsimp only
  rw [if_neg (by decide)]
  exact ⟨by rw [h1, hheld, hseq], by rw [h2, hbox], by rw [h3, hseq], hq.trans h4⟩

/-! ### Delivery (R343) -/

theorem exec_evtPop (spi : Bool) (s : State) : exec (.evtPop spi) s = .next { (s.evtPop spi.toNat).2 with rdata := (s.evtPop spi.toNat).1 } := rfl

theorem does_evtPop {spi : Bool} {v : Word} {u : State} {P : State → Prop} (h : s.evtPop spi.toNat = (v, u)) (hP : P { u with rdata := v }) :
    Does (.evtPop spi) s P := by
  refine ⟨_, exec_evtPop spi s, ?_⟩
  rw [h]
  exact hP

theorem State.evtNext_empty (hheld : s.hamper.held = []) (hsum : s.hamper.summary = none) : s.evtNext = (none, s) := by
  rw [State.evtNext, hheld]
  have hhead : s.evtHead = (none, s) := by
    rw [State.evtHead, hheld, hsum]
    rfl
  show s.evtTake (1 + 1) = _
  rw [State.evtTake, hhead]

theorem State.evtHead_kept {c : Nat × Ev} {u : State} (h : s.evtHead = (some c, u)) : u = { s with hamper := u.hamper } ∧ u.hamper.hurt = s.hamper.hurt := by
  unfold State.evtHead at h
  dsimp only at h
  split at h
  · obtain ⟨-, rfl⟩ := Prod.mk.inj h
    exact ⟨rfl, rfl⟩
  · obtain ⟨-, rfl⟩ := Prod.mk.inj h
    exact ⟨rfl, rfl⟩
  · split at h
    · obtain ⟨-, rfl⟩ := Prod.mk.inj h
      exact ⟨rfl, rfl⟩
    · exact absurd (Prod.mk.inj h).1 (by simp)

theorem State.evtNext_head {c : Nat × Ev} {u : State} (h : s.evtHead = (some c, u)) (hhurt : u.hamper.hurt = []) : s.evtNext = (some c, u) := by
  have hchk : u.evtCheck c = (false, u) := by rw [State.evtCheck, hhurt]; rfl
  show s.evtTake (s.hamper.held.length + 1 + 1) = _
  rw [State.evtTake, h]
  dsimp only
  rw [hchk]
  rfl

theorem does_evtPop_clauses (spi : Bool) (s : State) :
    (s.getF fMSG_EVT_CFG_OWNER ≠ spi.toNat → Does (.evtPop spi) s (fun t => t = { s with rdata := 0 }))
    ∧ (∀ w l, s.getF fMSG_EVT_CFG_OWNER = spi.toNat → s.hamper.packet = w :: l → Does (.evtPop spi) s (fun t =>
      t = { s with rdata := w, hamper := { s.hamper with packet := l } }))
    ∧ (s.getF fMSG_EVT_CFG_OWNER = spi.toNat → s.hamper.packet = [] → s.hamper.held = [] → s.hamper.summary = none →
      Does (.evtPop spi) s (fun t => t = { s with rdata := 0 }))
    ∧ (∀ c u, s.getF fMSG_EVT_CFG_OWNER = spi.toNat → s.hamper.packet = [] → s.evtHead = (some c, u) → s.hamper.hurt = [] →
      Does (.evtPop spi) s (fun t => t.hamper = { u.hamper with packet := evWords c.1 c.2 }
        ∧ t.rdata = BitVec.ofNat 32 (2 ^ 31 + 4 * 2 ^ 28 + 2 ^ 11 * min 1023 u.hamper.held.length) ∧ t.regs = s.regs ∧ t.mem = s.mem)) := by
  refine ⟨fun hown => ?_, fun w l hown hp => ?_, fun hown hp hheld hsum => ?_, fun c u hown hp hhead hhurt => ?_⟩
  · have hpop : s.evtPop spi.toNat = (0, s) := by rw [State.evtPop, if_pos hown]
    exact does_evtPop hpop rfl
  · have hpop : s.evtPop spi.toNat = (w, s.updHamper (fun h => { h with packet := l })) := by
      rw [State.evtPop, if_neg (not_not_intro hown), hp]
    exact does_evtPop hpop rfl
  · have hpop : s.evtPop spi.toNat = (0, s) := by
      rw [State.evtPop, if_neg (not_not_intro hown), hp]
      dsimp only
      rw [State.evtNext_empty hheld hsum]
    exact does_evtPop hpop rfl
  · obtain ⟨hrest, hkept⟩ := State.evtHead_kept hhead
    have hpop : s.evtPop spi.toNat = (BitVec.ofNat 32 (2 ^ 31 + 4 * 2 ^ 28 + 2 ^ 11 * satAt 1023 u.hamper.held.length),
        u.updHamper (fun h => { h with packet := evWords c.1 c.2 })) := by
      rw [State.evtPop, if_neg (not_not_intro hown), hp]
      dsimp only
      rw [State.evtNext_head hhead (hkept.trans hhurt)]
      rfl
    have hregs : u.regs = s.regs := by rw [hrest]
    have hmem : u.mem = s.mem := by rw [hrest]
    exact does_evtPop hpop ⟨rfl, by rw [satAt, Nat.min_comm], hregs, hmem⟩

theorem does_evtSkip (ht : Takes s rMSG_EVT_SKIP) : Does .evtSkip s (fun t => t = { s with hamper := { s.hamper with packet := [] } }) := by
  have hx : exec .evtSkip s = .next (s.viaReg rMSG_EVT_SKIP (fun s => s.evtSkip)) := rfl
  exact does_viaReg ht (by decide) hx rfl

/-- A write of the value `v` to a register, before the lock. -/
theorem State.viaRegV_of_unlocked {off : Nat} (hp : s.boot.porst = true) (hl : s.locked = false) (habs : s.absentUnit off = false)
    (hrow : (regRow off).isSome = true) (v : Word) (act : Word → State → State) : s.viaRegV off v act = act v s := by
  obtain ⟨r, hr⟩ := Option.isSome_iff_exists.1 hrow
  rw [State.viaRegV, if_neg (by rw [hp, habs]; decide), hr]
  exact State.lockWrite_of_unlocked hl _ _ _ _

theorem does_evtOwnerWrite {v : Word} (hp : s.boot.porst = true) (hl : s.locked = false) : Does (.evtOwnerWrite v) s (fun t =>
    t.getF fMSG_EVT_CFG_OWNER = v.toNat % 2 ∧ t.getF fMSG_EVT_CFG_AUTO_TAKEOVER = v.toNat / 256 % 2
      ∧ t.hamper.packet = (if v.toNat % 2 = s.getF fMSG_EVT_CFG_OWNER then s.hamper.packet else [])
      ∧ Quiet [rMSG_EVT_CFG] s t) := by
  have hx : exec (.evtOwnerWrite v) s = .next (s.viaRegV rMSG_EVT_CFG v (fun v s => s.evtOwner v)) := rfl
  rw [State.viaRegV_of_unlocked hp hl (by simp [State.absentUnit]) (by decide +kernel)] at hx
  refine ⟨_, hx, ?_⟩
  have hnew : bitsOf v.toNat 0 1 = v.toNat % 2 := by simp [bitsOf]
  have hauto : bitsOf v.toNat 8 1 = v.toNat / 256 % 2 := by simp [bitsOf]
  rw [State.evtOwner, hnew, hauto]
  have hskip : ∃ u, (if v.toNat % 2 = s.getF fMSG_EVT_CFG_OWNER then s else s.evtSkip) = u ∧ Quiet [rMSG_EVT_CFG] s u
      ∧ u.hamper.packet = (if v.toNat % 2 = s.getF fMSG_EVT_CFG_OWNER then s.hamper.packet else []) := by
    refine ⟨_, rfl, ?_⟩
    split
    · exact ⟨.refl _ s, rfl⟩
    · exact ⟨(Quiet.refl _ s).hamper, rfl⟩
  obtain ⟨u, hu, hq, hpacket⟩ := hskip
  rw [hu]
  refine ⟨?_, ?_, hpacket, (hq.setF (by decide)).setF (by decide)⟩
  · rw [State.getF_setF_other _ _ _ _ (by decide) (by decide), State.getF_setF _ _ _ (by decide)]
    exact Nat.mod_mod _ 2
  · rw [State.getF_setF _ _ _ (by decide)]
    exact Nat.mod_mod _ 2

end

end Sys2Proof.Machine

/-! ## The Ethernet event stream and the Spool ring (O55, R345 to R348) -/

namespace Sys2Proof.Machine

/-! ### What a record sent leaves of Hamper (R327, R336) -/

/-- Memory and the records that Hamper holds stay. -/
def HeldKept (s t : State) : Prop := t.mem = s.mem ∧ t.hamper.held = s.hamper.held

section
variable {s t u : State}

theorem HeldKept.refl (s : State) : HeldKept s s := ⟨rfl, rfl⟩

theorem HeldKept.trans (h : HeldKept s u) (k : HeldKept u t) : HeldKept s t := ⟨k.1.trans h.1, k.2.trans h.2⟩

theorem HeldKept.ite {c : Prop} [Decidable c] {a b : State} (h : HeldKept s a) (k : HeldKept s b) : HeldKept s (if c then a else b) := by
  split
  · exact h
  · exact k

theorem HeldKept.same (h : HeldKept s u) (hm : t.mem = u.mem) (hh : t.hamper.held = u.hamper.held) : HeldKept s t := h.trans ⟨hm, hh⟩

theorem HeldKept.setReg (h : HeldKept s u) (off : Nat) (v : Word) : HeldKept s (u.setReg off v) := h.same rfl rfl
theorem HeldKept.setF (h : HeldKept s u) (f : Fld) (v : Nat) : HeldKept s (u.setF f v) := h.setReg _ _
theorem HeldKept.setRegN (h : HeldKept s u) (off v : Nat) : HeldKept s (u.setRegN off v) := h.setReg _ _
theorem HeldKept.bump (h : HeldKept s u) (off : Nat) : HeldKept s (u.bump off) := h.setReg _ _
theorem HeldKept.updHost (h : HeldKept s u) (F : HostU → HostU) : HeldKept s (u.updHost F) := h.same rfl rfl
theorem HeldKept.notePost (h : HeldKept s u) (k v : Nat) : HeldKept s (u.notePost k v) := h.same rfl rfl
theorem HeldKept.hamper (h : HeldKept s u) (x : Hamper) (hx : x.held = u.hamper.held) : HeldKept s { u with hamper := x } := h.same rfl hx

theorem SpoolOnly.heldKept (h : SpoolOnly s t) : HeldKept s t := ⟨h.mem, by rw [h.hamper]⟩

theorem HeldKept.noteLoss (h : HeldKept s u) (p : Nat) : HeldKept s (u.noteLoss p) := by
  unfold State.noteLoss
  extract_lets -merge a x b add
  have ha : HeldKept s a := (h.setF _ _).bump _
  have hb : HeldKept s b := ha.hamper _ rfl
  clear_value b
  split
  · exact hb.hamper _ rfl
  · have hw : HeldKept s b.takeSeq.2 := hb.setRegN _ _
    generalize b.takeSeq = q at hw
    obtain ⟨n, w⟩ := q
    refine HeldKept.trans ?_ (State.spoolEv_only _ _ _ _).heldKept
    exact hw.hamper _ rfl

theorem HeldKept.wakeNote (h : HeldKept s u) (k : Nat) : HeldKept s (u.wakeNote k) := by
  unfold State.wakeNote
  exact .ite h (h.same rfl rfl)

theorem HeldKept.boxPut (h : HeldKept s u) (e : Ev) : HeldKept s (u.boxPut e) := by
  unfold State.boxPut
  extract_lets x v y
  have hv : HeldKept s v := h.hamper _ rfl
  clear_value v
  refine .ite (HeldKept.setF ?_ _ _) hv
  exact hv.hamper _ rfl

theorem HeldKept.post (h : HeldKept s u) (k : EvKind) (src data : Nat) : HeldKept s (u.post k src data) := by
  unfold State.post
  extract_lets e
  refine .ite ?_ (h.same rfl rfl)
  unfold State.offer
  extract_lets v
  have hv : HeldKept s v := .ite (h.wakeNote _) h
  exact .ite (hv.boxPut _) ((hv.bump _).noteLoss _)

theorem HeldKept.hostEv (h : HeldKept s u) (k : EvKind) (who src data : Nat) : HeldKept s (u.hostEv k who src data) := by
  unfold State.hostEv State.postGap
  extract_lets key l
  exact .ite ((h.notePost _ _).post _ _ _) h

theorem HeldKept.ethOut (h : HeldKept s u) (p : Nat) (x : EthTx) : HeldKept s (u.ethOut p x) := by
  unfold State.ethOut
  refine .ite (h.updHost _) ?_
  split
  · exact h
  · refine .ite h ?_
    exact .ite (((h.updHost _).updHost _).hostEv _ _ _ _) ((h.updHost _).updHost _)

theorem HeldKept.sendRec (h : HeldKept s u) (c opcode : Nat) (payload : List Byte) (ref flags : Nat) :
    HeldKept s (u.sendRec c opcode payload ref flags) := by
  unfold State.sendRec
  extract_lets -merge n v r full w
  have hv : HeldKept s v := h.setRegN _ _
  exact .ite (.ite ((hv.updHost _).bump _) (hv.updHost _)) (hv.ethOut _ _)

theorem State.eventsOut_effect (s : State) : s.eventsOut.hamper.waiting = [] ∧ s.eventsOut.hamper.waitFrom = none ∧ s.eventsOut.hamper.losses = 0
    ∧ HeldKept s s.eventsOut := by
  unfold State.eventsOut
  extract_lets h b u
  have hu : HeldKept s u := by
    have hstep : ∀ v c, HeldKept s v → HeldKept s (if h.stream.getD c false then v.sendRec c 0xE1 b 0 0 else v) := fun v c hv =>
      .ite (hv.sendRec _ _ _ _ _) hv
    exact hstep _ 1 (hstep s 0 (.refl s))
  exact ⟨rfl, rfl, rfl, hu⟩

theorem does_eventsSend_none (h : s.fwRuns = false ∨ s.hamper.stream.any id = false) : Does .eventsSend s (fun t => t = s) := by
  have hx : exec .eventsSend s = execEventsSend s := rfl
  rw [execEventsSend, if_pos h] at hx
  exact ⟨s, hx, rfl⟩

theorem does_eventsSend (hfw : s.fwRuns = true) (hstream : s.hamper.stream.any id = true) (hown : s.getF fMSG_EVT_CFG_OWNER = 1)
    (hdue : s.eventsDue = true) : Does .eventsSend s (fun t => t.hamper.waiting = [] ∧ t.hamper.waitFrom = none ∧ t.hamper.losses = 0
      ∧ t.hamper.held = s.hamper.held ∧ t.mem = s.mem) := by
  have hx : exec .eventsSend s = execEventsSend s := rfl
  rw [execEventsSend, if_neg (by rw [hfw, hstream]; decide)] at hx
  have hread : ¬(s.getF fMSG_EVT_CFG_OWNER = 0 ∧ s.hamper.packet.isEmpty = true) := by rw [hown]; exact fun h => absurd h.1 (by decide)
  simp only [if_neg hread, if_pos hdue] at hx
  obtain ⟨h1, h2, h3, h4⟩ := s.eventsOut_effect
  exact ⟨_, hx, h1, h2, h3, h4.2, h4.1⟩

end

/-! ### The writer (R346 to R348) -/

section
variable {s : State}

theorem does_spoolWrite_idle (h : s.spool.buf = [] ∨ s.spState = spOFF) : Does .spoolWrite s (fun t => t = s) := by
  have hx : exec .spoolWrite s = execSpoolWrite s := rfl
  rw [execSpoolWrite] at hx
  obtain h | h := h
  · rw [h] at hx
    exact ⟨s, hx, rfl⟩
  · cases hbuf : s.spool.buf with
    | nil =>
      rw [hbuf] at hx
      exact ⟨s, hx, rfl⟩
    | cons r l =>
      rw [hbuf] at hx
      dsimp only at hx
      rw [if_pos (.inl h)] at hx
      exact ⟨s, hx, rfl⟩

theorem State.bufCheck_none {u : State} (h : u.spool.hurt = []) (seq : Nat) : u.bufCheck seq = (false, u) := by rw [State.bufCheck, h]; rfl

/-- A record leaves the buffer unhurt. -/
theorem does_spoolWrite {r : SpRec} {l : List SpRec} {P : State → Prop} (hbuf : s.spool.buf = r :: l) (hhurt : s.spool.hurt = [])
    (hoff : s.spState ≠ spOFF) (hcap : 0 < s.spCap)
    (hP : P (if s.spState = spFROZEN then (s.updSpool (fun p => { p with buf := l })).bump rMSG_SP_FROZEN_DROP_COUNT
      else (s.updSpool (fun p => { p with buf := l })).spWriteRec r)) : Does .spoolWrite s P := by
  have hx : exec .spoolWrite s = execSpoolWrite s := rfl
  rw [execSpoolWrite, hbuf] at hx
  dsimp only at hx
  have hst : (s.updSpool (fun p => { p with buf := l })).spState = s.spState := rfl
  have hhurt' : (s.updSpool (fun p => { p with buf := l })).spool.hurt = [] := hhurt
  rw [if_neg (by rintro (h | h); exacts [hoff h, by omega])] at hx
  generalize s.updSpool (fun p => { p with buf := l }) = u at hx hP hst hhurt'
  rw [State.spDrain, State.bufCheck_none hhurt'] at hx
  dsimp only at hx
  rw [if_neg (by decide), hst] at hx
  exact ⟨_, hx, hP⟩

theorem does_spoolWrite_frozen {r : SpRec} {l : List SpRec} (hbuf : s.spool.buf = r :: l) (hhurt : s.spool.hurt = [])
    (hst : s.spState = spFROZEN) (hcap : 0 < s.spCap) : Does .spoolWrite s (fun t =>
      t.regN rMSG_SP_FROZEN_DROP_COUNT = min 0xFFFF (s.regN rMSG_SP_FROZEN_DROP_COUNT + 1) ∧ t.spool = { s.spool with buf := l }
        ∧ t.mem = s.mem) := by
  refine does_spoolWrite hbuf hhurt (by rw [hst]; decide) hcap ?_
  rw [if_pos hst]
  refine ⟨?_, rfl, rfl⟩
  rw [State.regN_bump]
  exact Nat.min_comm _ _

theorem length_spRecord (r : SpRec) : (spRecord r).length = 64 := by
  simp [spRecord]

/-- The ring's record after it has been written where the ring has room. -/
theorem State.spWriteRec_effect (s : State) (r : SpRec) (hroom : s.spool.ring.length < s.spCap) (hc : Clean s) (hst : s.spState = spRECORDING) :
    let a := s.spBase + s.regN rMSG_SP_WR_PTR
    (s.spWriteRec r).bytes a 64 = spRecord r ∧ (∀ x, x < a ∨ a + 64 ≤ x → (s.spWriteRec r).byte x = s.byte x)
      ∧ (s.spWriteRec r).spool = { s.spool with ring := s.spool.ring ++ [r.seq] }
      ∧ (s.spWriteRec r).regN rMSG_SP_WR_PTR = (s.regN rMSG_SP_WR_PTR + 64) % s.spBytes ∧ (s.spWriteRec r).regN rMSG_SP_SEQ_NEWEST = r.seq % 2 ^ 32 := by
  intro a
  have hbytes : 0 < s.spBytes ∧ s.spBytes < 2 ^ 32 := by
    have hcap : s.spCap = s.spBytes / 64 := rfl
    have hdef : s.spBytes = 2 ^ 20 * (s.regN rMSG_SP_SIZE % 512) := rfl
    omega
  have hput : s.writeMem a (spRecord r) = s.setBytes a (spRecord r) := State.writeMem_of_clean hc _ _
  have hself := s.bytes_setBytes_same a (spRecord r)
  rw [length_spRecord] at hself
  have hother : ∀ x, x < a ∨ a + 64 ≤ x → (s.setBytes a (spRecord r)).byte x = s.byte x := fun x hx =>
    State.byte_setBytes_other s (by rw [length_spRecord]; exact hx)
  have hspool : (s.setBytes a (spRecord r)).spool = s.spool := rfl
  have hregs : (s.setBytes a (spRecord r)).regs = s.regs := rfl
  unfold State.spWriteRec
  extract_lets -merge off old v w x y z
  have hold : old = none := if_pos hroom
  have hv : v = s.setBytes a (spRecord r) := hput
  rw [← hv] at hself hother hspool hregs
  have hwmem : ∀ b, w.byte b = v.byte b := fun _ => rfl
  have hwspool : w.spool = { s.spool with ring := s.spool.ring ++ [r.seq] } := by
    unfold w
    rw [hold, State.updSpool, hspool]
    rfl
  have hwregs : w.regs = s.regs := hregs
  have hwbytes : w.spBytes = s.spBytes := by rw [State.spBytes, State.spBytes, State.regN_congr (State.reg_of_regs hwregs _)]
  have hx1 : x.regN rMSG_SP_WR_PTR = (off + 64) % s.spBytes := by
    have hlt := Nat.mod_lt (off + 64) hbytes.1
    unfold x
    rw [State.regN_setRegN, if_neg (by decide), State.regN_setRegN, if_pos rfl, hwbytes]
    exact Nat.mod_eq_of_lt (hlt.trans hbytes.2)
  have hx2 : x.regN rMSG_SP_SEQ_NEWEST = r.seq % 2 ^ 32 := by
    unfold x
    rw [State.regN_setRegN, if_pos rfl]
  have hxonly : OnlyRegs [rMSG_SP_WR_PTR, rMSG_SP_SEQ_NEWEST] w x := ((OnlyRegs.refl _ w).setRegN (by decide)).setRegN (by decide)
  have hxspool : x.spool = w.spool := by rw [hxonly.rest]
  have hxmem := hxonly.mem_eq
  have hyonly : OnlyRegs [rMSG_SP_SEQ_OLDEST] x y := (OnlyRegs.refl _ x).setRegN (by decide)
  have hz : z = y := by
    unfold z
    rw [hold]
  have hspState : y.spState = spRECORDING := by
    have hreg : ∀ o, o ∉ [rMSG_SP_WR_PTR, rMSG_SP_SEQ_NEWEST] → o ∉ [rMSG_SP_SEQ_OLDEST] → y.reg o = s.reg o := fun o h1 h2 =>
      (hyonly.regs o h2).trans ((hxonly.regs o h1).trans (State.reg_of_regs hwregs o))
    rw [State.spState, State.isF, State.getF_congr (hreg _ (by decide) (by decide)), State.getF_congr (hreg _ (by decide) (by decide))]
    exact hst
  have hafter : z.spAfter r.seq = false := by
    rw [hz, State.spAfter, hspState]
    rfl
  rw [hafter, if_neg (by decide), hz]
  have hyspool : y.spool = x.spool := by rw [hyonly.rest]
  have hmem : y.mem = v.mem := hyonly.mem_eq.trans hxmem
  refine ⟨(State.bytes_of_mem hmem a 64).trans hself, fun b hb => ?_, ?_, ?_, ?_⟩
  · rw [State.byte, hmem]
    exact hother b hb
  · rw [hyspool, hxspool, hwspool]
  · rw [State.regN_congr (hyonly.regs _ (by decide)), hx1]
  · rw [State.regN_congr (hyonly.regs _ (by decide)), hx2]

theorem does_spoolWrite_recording {r : SpRec} {l : List SpRec} (hbuf : s.spool.buf = r :: l) (hhurt : s.spool.hurt = [])
    (hst : s.spState = spRECORDING) (hroom : s.spool.ring.length < s.spCap) (hc : Clean s) : Does .spoolWrite s (fun t =>
      let a := s.spBase + s.regN rMSG_SP_WR_PTR
      t.bytes a 64 = spRecord r ∧ (∀ x, x < a ∨ a + 64 ≤ x → t.byte x = s.byte x)
      ∧ t.spool = { s.spool with buf := l, ring := s.spool.ring ++ [r.seq] }
      ∧ t.regN rMSG_SP_WR_PTR = (s.regN rMSG_SP_WR_PTR + 64) % s.spBytes ∧ t.regN rMSG_SP_SEQ_NEWEST = r.seq % 2 ^ 32) := by
  refine does_spoolWrite hbuf hhurt (by rw [hst]; decide) (by omega) ?_
  rw [if_neg (by rw [hst]; decide)]
  exact (s.updSpool (fun p => { p with buf := l })).spWriteRec_effect r hroom hc hst

/-! ### The reader's window (R347) -/

theorem length_leWords : ∀ bs : List Byte, (leWords bs).length = bs.length / 4
  | a :: b :: c :: d :: l => by
    rw [leWords, List.length_cons, length_leWords l]
    simp only [List.length_cons]
    omega
  | [a, b, c] => by simp [leWords]
  | [a, b] => by simp [leWords]
  | [a] => by simp [leWords]
  | [] => rfl

/-- The record at `off` stands in the window. -/
theorem State.spLoad_effect (s : State) (off : Nat) (hsynd : s.ecc.synd = []) : (s.spLoad off).regN rMSG_SP_RD_PTR = off % 2 ^ 32
    ∧ (∀ k, k < 16 → (s.spLoad off).reg (rMSG_SP_WIN k) = nth 0#32 (leWords (s.bytes (s.spBase + off) 64)) k)
    ∧ (s.spLoad off).mem = s.mem ∧ ∀ o, o < rMSG_SP_WIN 0 → o ≠ rMSG_SP_RD_PTR → (s.spLoad off).reg o = s.reg o := by
  have hlen : (leWords (s.bytes (s.spBase + off) 64)).length = 16 := by
    rw [length_leWords, State.bytes_eq, List.length_map, List.length_range']
  rw [State.spLoad, State.readMem_of_clean hsynd]
  dsimp only
  generalize leWords (s.bytes (s.spBase + off) 64) = l at hlen
  have hin : ∀ k, (hk : k < l.length) → (s.setRegWords (rMSG_SP_WIN 0) l).reg (rMSG_SP_WIN 0 + 4 * k) = l[k] := fun k hk => State.reg_setRegWords l s _ hk
  have hout : ∀ o, o < rMSG_SP_WIN 0 → (s.setRegWords (rMSG_SP_WIN 0) l).reg o = s.reg o := fun o ho => State.reg_setRegWords_outside l s _ (.inl ho)
  have hmem : (s.setRegWords (rMSG_SP_WIN 0) l).mem = s.mem := by rw [State.setRegWords_rest]
  generalize s.setRegWords (rMSG_SP_WIN 0) l = u at hin hout hmem
  refine ⟨by rw [State.regN_setRegN, if_pos rfl], fun k hk => ?_, hmem, fun o h1 h2 => ?_⟩
  · rw [State.reg_setRegN, if_neg (by simp only [rMSG_SP_WIN, rMSG_SP_RD_PTR]; omega), nth, List.getD_eq_getElem _ _ (by omega), ← hin k (by omega)]
  · rw [State.reg_setRegN, if_neg h2, hout o h1]

theorem exec_spCmd : (∀ s, exec .spNext s = .next (s.viaReg rMSG_SP_CMD (fun s => s.spNext))) ∧ (∀ s, exec .spOldest s = .next (s.viaReg rMSG_SP_CMD (fun s => s.spOldest)))
    ∧ (∀ s, exec .spSetMark s = .next (s.viaReg rMSG_SP_CMD (fun s => s.spSetMark))) ∧ (∀ s, exec .spRewind s = .next (s.viaReg rMSG_SP_CMD (fun s => s.spRewind)))
    ∧ (∀ s, exec .spFreeze s = .next (s.viaReg rMSG_SP_CMD (fun s => s.spoolTrigger 5))) ∧ (∀ s, exec .spRearm s = .next (s.viaReg rMSG_SP_CMD (fun s => s.spRearm))) :=
  ⟨fun _ => rfl, fun _ => rfl, fun _ => rfl, fun _ => rfl, fun _ => rfl, fun _ => rfl⟩

theorem State.spoolTrigger_effect (h : s.spState = spRECORDING) : (s.spoolTrigger 5).spState = spPOST ∧ (s.spoolTrigger 5).getF fMSG_SP_STATUS_TRIG_SRC = 5
    ∧ (s.spoolTrigger 5).spool.sinceTrig = 0 ∧ (s.spoolTrigger 5).mem = s.mem := by
  have hen : s.isF fMSG_SP_CFG_EN = true := by
    by_contra hno
    rw [State.spState, if_pos (by simpa using hno)] at h
    exact absurd h (by decide)
  rw [State.spoolTrigger, if_neg (not_not_intro h)]
  extract_lets a u v x w
  have hu : OnlyRegs [rMSG_SP_TRIG_PTR, rMSG_SP_TRIG_SEQ] s u := ((OnlyRegs.refl _ s).setRegN (by decide)).setRegN (by decide)
  have hv : SpoolOnly u v := u.spoolPut_only _ _ _ _
  have hw : SpoolOnly u w := hv.spool _
  have hzero : w.spool.sinceTrig = 0 := rfl
  clear_value w
  have hmem : w.mem = s.mem := hw.mem.trans hu.mem_eq
  have hcfg : w.isF fMSG_SP_CFG_EN = true := by
    rw [State.isF, State.getF_congr (hw.regs _ (by decide)), hu.quiet.getF _ (by decide) (by decide)]
    exact hen
  refine ⟨?_, ?_, hzero, hmem⟩
  · have hcfg' : ((w.setF fMSG_SP_STATUS_TRIG_SRC 5).setF fMSG_SP_STATUS_STATE spPOST).isF fMSG_SP_CFG_EN = true := by
      rw [State.isF_setF_other _ _ _ _ (by decide) (by decide), State.isF_setF_other _ _ _ _ (by decide) (by decide), hcfg]
    rw [State.spState, hcfg', if_neg (by decide), State.getF_setF _ _ _ (by decide)]
    rfl
  · rw [State.getF_setF_other _ _ _ _ (by decide) (by decide), State.getF_setF _ _ _ (by decide)]
    rfl

theorem State.spRearm_effect (h : s.spState = spFROZEN) : s.spRearm.spState = spRECORDING ∧ Quiet [rMSG_SP_STATUS] s s.spRearm := by
  have hen : s.isF fMSG_SP_CFG_EN = true := by
    by_contra hno
    rw [State.spState, if_pos (by simpa using hno)] at h
    exact absurd h (by decide)
  rw [State.spRearm, if_pos h]
  have hget : (s.setF fMSG_SP_STATUS_STATE spRECORDING).getF fMSG_SP_STATUS_STATE = spRECORDING := State.getF_setF _ _ _ (by decide)
  have hcfg : (s.setF fMSG_SP_STATUS_STATE spRECORDING).isF fMSG_SP_CFG_EN = true := (State.isF_setF_other _ _ _ _ (by decide) (by decide)).trans hen
  have hq : Quiet [rMSG_SP_STATUS] s (s.setF fMSG_SP_STATUS_STATE spRECORDING) := (Quiet.refl _ s).setF (by decide)
  generalize s.setF fMSG_SP_STATUS_STATE spRECORDING = u at hget hcfg hq
  have hev : Quiet [] u (u.hostEv evHOST_SP_REARMED 3 srcMSG 0) := (Quiet.refl _ u).postGap (by decide)
  refine ⟨?_, hq.trans (hev.mono (by simp))⟩
  rw [State.spState, hev.isF _ (by simp) (by decide), hcfg, if_neg (by decide), hev.getF _ (by simp) (by decide), hget]
  rfl

theorem State.spFreezeNow_effect (h : s.spState = spPOST) : s.spFreezeNow.spState = spFROZEN ∧ Quiet [rMSG_SP_STATUS] s s.spFreezeNow := by
  have hen : s.isF fMSG_SP_CFG_EN = true := by
    by_contra hno
    rw [State.spState, if_pos (by simpa using hno)] at h
    exact absurd h (by decide)
  rw [State.spFreezeNow]
  have hget : (s.setF fMSG_SP_STATUS_STATE spFROZEN).getF fMSG_SP_STATUS_STATE = spFROZEN := State.getF_setF _ _ _ (by decide)
  have hcfg : (s.setF fMSG_SP_STATUS_STATE spFROZEN).isF fMSG_SP_CFG_EN = true := (State.isF_setF_other _ _ _ _ (by decide) (by decide)).trans hen
  have hq : Quiet [rMSG_SP_STATUS] s (s.setF fMSG_SP_STATUS_STATE spFROZEN) := (Quiet.refl _ s).setF (by decide)
  generalize s.setF fMSG_SP_STATUS_STATE spFROZEN = u at hget hcfg hq
  have hev : Quiet [] u (u.hostEv evHOST_SP_FROZEN 1 srcMSG (s.getF fMSG_SP_STATUS_TRIG_SRC)) := (Quiet.refl _ u).postGap (by decide)
  refine ⟨?_, hq.trans (hev.mono (by simp))⟩
  rw [State.spState, hev.isF _ (by simp) (by decide), hcfg, if_neg (by decide), hev.getF _ (by simp) (by decide), hget]
  rfl

theorem does_spCmd_empty (ht : Takes s rMSG_SP_CMD) (h : s.spool.ring = []) : ∀ c ∈ [Instr.spOldest, .spNext], Does c s (fun t => t = s) := by
  obtain ⟨hnext, hold, -⟩ := exec_spCmd
  simp only [List.mem_cons, List.not_mem_nil, or_false, forall_eq_or_imp, forall_eq]
  refine ⟨does_viaReg ht (by decide) (hold s) ?_, does_viaReg ht (by decide) (hnext s) ?_⟩
  · rw [State.spOldest, h]
    rfl
  · rw [State.spNext, h, List.length_nil, if_pos (Nat.zero_le _)]

theorem does_spSetMark (ht : Takes s rMSG_SP_CMD) (h : s.spState ≠ spOFF) : Does .spSetMark s (fun t => t.reg rMSG_SP_MARK_PTR = s.reg rMSG_SP_RD_PTR
    ∧ t.isF fMSG_SP_STATUS_MARK_VALID = true ∧ Quiet [rMSG_SP_MARK_PTR, rMSG_SP_STATUS] s t) := by
  obtain ⟨-, -, hmark, -⟩ := exec_spCmd
  refine does_viaReg ht (by decide) (hmark s) ?_
  rw [State.spSetMark, if_neg h]
  refine ⟨?_, State.isF_setF_one _ rfl (by decide), ((Quiet.refl _ s).setRegN (by decide)).setF (by decide)⟩
  rw [State.setF, State.reg_setRegN, if_neg (by decide), State.reg_setRegN, if_pos rfl, State.regN, BitVec.ofNat_toNat, BitVec.setWidth_eq]

theorem does_spRewind (ht : Takes s rMSG_SP_CMD) (h : s.spState ≠ spOFF) (hv : s.isF fMSG_SP_STATUS_MARK_VALID = true) (hc : Clean s) :
    Does .spRewind s (fun t => t.reg rMSG_SP_RD_PTR = s.reg rMSG_SP_MARK_PTR ∧ t.mem = s.mem) := by
  obtain ⟨-, -, -, hrew, -⟩ := exec_spCmd
  refine does_viaReg ht (by decide) (hrew s) ?_
  rw [State.spRewind, if_neg h, if_pos hv]
  obtain ⟨hptr, -, hmem, -⟩ := s.spLoad_effect (s.regN rMSG_SP_MARK_PTR) hc.1
  exact ⟨BitVec.eq_of_toNat_eq (hptr.trans (Nat.mod_eq_of_lt (s.reg rMSG_SP_MARK_PTR).isLt)), hmem⟩

theorem does_spRewind_fail (ht : Takes s rMSG_SP_CMD) (h : s.spState ≠ spOFF) (hv : s.isF fMSG_SP_STATUS_MARK_VALID = false) (hc : Clean s) :
    Does .spRewind s (fun t => t.isF fMSG_SP_STATUS_REWIND_FAIL = true ∧ t.mem = s.mem) := by
  obtain ⟨-, -, -, hrew, -⟩ := exec_spCmd
  refine does_viaReg ht (by decide) (hrew s) ?_
  rw [State.spRewind, if_neg h, hv, if_neg (by decide)]
  have hflag := s.isF_raise_self (f := fMSG_SP_STATUS_REWIND_FAIL) (c := rMSG_REWIND_FAIL_COUNT) rfl (by decide) (by decide)
  have honly : OnlyRegs [rMSG_SP_STATUS, rMSG_REWIND_FAIL_COUNT] s (s.raise fMSG_SP_STATUS_REWIND_FAIL rMSG_REWIND_FAIL_COUNT) :=
    (OnlyRegs.refl _ s).raise (by decide) (by decide)
  generalize s.raise fMSG_SP_STATUS_REWIND_FAIL rMSG_REWIND_FAIL_COUNT = u at hflag honly
  have hsynd : u.ecc.synd = [] := by
    rw [honly.rest]
    exact hc.1
  have hmem := honly.mem_eq
  rw [State.spOldest]
  split
  · exact ⟨hflag, hmem⟩
  · obtain ⟨-, -, hload, hreg⟩ := u.spLoad_effect (u.spOff 0) hsynd
    exact ⟨by rw [State.isF, State.getF_congr (hreg _ (by decide) (by decide))]; exact hflag, hload.trans hmem⟩

theorem does_sp_off (ht : Takes s rMSG_SP_CMD) (h : s.spState = spOFF) : ∀ c ∈ [Instr.spSetMark, .spRewind, .spRearm], Does c s (fun t => t = s) := by
  obtain ⟨-, -, hmark, hrew, -, hrearm⟩ := exec_spCmd
  simp only [List.mem_cons, List.not_mem_nil, or_false, forall_eq_or_imp, forall_eq]
  refine ⟨does_viaReg ht (by decide) (hmark s) (if_pos h), does_viaReg ht (by decide) (hrew s) (if_pos h), does_viaReg ht (by decide) (hrearm s) (if_neg ?_)⟩
  rw [h]
  decide

theorem does_spFrozen : (s.spState = spPOST → Does .spFrozen s (fun t => t.spState = spFROZEN ∧ Quiet [rMSG_SP_STATUS] s t))
    ∧ (s.spState ≠ spPOST → Does .spFrozen s (fun t => t = s)) := by
  have hx : exec .spFrozen s = .next (if s.spState = spPOST then s.spFreezeNow else s) := rfl
  refine ⟨fun h => ?_, fun h => ?_⟩
  · rw [if_pos h] at hx
    exact ⟨_, hx, State.spFreezeNow_effect h⟩
  · rw [if_neg h] at hx
    exact ⟨s, hx, rfl⟩

end

/-- Settles O55: the arbiter, the reads and the ring by what each operation takes from the state and leaves. -/
theorem eventsAndSpool : Obligations.EventsAndSpool := by
  unfold Obligations.EventsAndSpool
  refine ⟨fun s => ⟨does_hamperAccept_none, fun c => does_hamperAccept⟩, does_evtPop_clauses, fun s => does_evtSkip, fun v s => does_evtOwnerWrite,
    fun s => ⟨does_eventsSend_none, does_eventsSend⟩,
    fun s => ⟨fun h => does_spoolWrite_idle (.inl h), fun r l hbuf hhurt => ⟨fun h => does_spoolWrite_idle (.inr h),
      does_spoolWrite_frozen hbuf hhurt, does_spoolWrite_recording hbuf hhurt⟩⟩,
    fun s ht => ?_, fun s => does_spFrozen⟩
  obtain ⟨hnext, hold, -, -, hfreeze, hrearm⟩ := exec_spCmd
  refine ⟨does_spCmd_empty ht, fun i hi hlt hc => ?_, fun hring hc => ?_, does_spSetMark ht, does_spRewind ht, does_spRewind_fail ht,
    fun h => does_viaReg ht (by decide) (hfreeze s) (State.spoolTrigger_effect h), fun h => does_viaReg ht (by decide) (hfreeze s) (if_pos h),
    fun h => does_viaReg ht (by decide) (hrearm s) (State.spRearm_effect h), does_sp_off ht⟩
  · refine does_viaReg ht (by decide) (hnext s) ?_
    rw [State.spNext, hi, if_neg (by omega)]
    obtain ⟨h1, h2, h3, -⟩ := s.spLoad_effect (s.spOff (i + 1)) hc.1
    exact ⟨h1, h2, h3⟩
  · refine does_viaReg ht (by decide) (hold s) ?_
    rw [State.spOldest, if_neg (by simpa using hring)]
    obtain ⟨h1, h2, h3, -⟩ := s.spLoad_effect (s.spOff 0) hc.1
    exact ⟨h1, h2, h3⟩

end Sys2Proof.Machine

/-! ## What a change of the safe states leaves alone (R374 to R376) -/

namespace Sys2Proof.Machine

/-- What a statistics record leaves of a tile: the record that waits, whether one is missing, the bands it shows. -/
def SafeTile.stat (t : SafeTile) : Option StatRec × Bool × List Nat := (t.record, t.missed, t.bandsNext)

/-- The registers of SAFETY and of the tile ports. -/
abbrev SafeOff (off : Nat) : Prop := (0x280000 ≤ off ∧ off < 0x290000) ∨ (0x1C0000 ≤ off ∧ off < 0x200000)

/-- What a port holds of its tile and its line: the capabilities, the attempts, the clock, the transmitters. -/
def Port.line (p : Port) : Option Caps × Nat × Option Bool × List LaneTx := (p.caps, p.tries, p.ck, p.lanes)

/-- Memory, the configuration, the lines of the ports, their registers and those of SAFETY, what the tiles' statistics records left and the safety plane's state but for the code of the latest
cause stay. -/
structure SafeEv (s t : State) : Prop where
  mem : t.mem = s.mem
  loader : t.loader = s.loader
  safe : t.safe = { s.safe with code := t.safe.code }
  regs : ∀ off, SafeOff off → t.reg off = s.reg off
  line : ∀ k, (t.portOf k).line = (s.portOf k).line
  stat : ∀ k, (t.safeT k).stat = (s.safeT k).stat

theorem evRegs_notSafety : ∀ off ∈ evRegs, ¬SafeOff off := by decide

section
variable {s t u : State}

theorem SafeEv.refl (s : State) : SafeEv s s := ⟨rfl, rfl, rfl, fun _ _ => rfl, fun _ => rfl, fun _ => rfl⟩

theorem SafeEv.trans (h : SafeEv s u) (k : SafeEv u t) : SafeEv s t := by
  refine ⟨k.mem.trans h.mem, k.loader.trans h.loader, ?_, fun off ho => (k.regs off ho).trans (h.regs off ho), fun j => (k.line j).trans (h.line j), fun j => (k.stat j).trans (h.stat j)⟩
  have hsafe := k.safe
  rw [h.safe] at hsafe
  exact hsafe

theorem SafeEv.ite {c : Prop} [Decidable c] {a b : State} (h : SafeEv s a) (k : SafeEv s b) : SafeEv s (if c then a else b) := by
  split
  · exact h
  · exact k

/-- Memory, the safety plane and its tiles as they are, the registers of SAFETY as they are. -/
theorem SafeEv.same (h : SafeEv s u) (hm : t.mem = u.mem) (hs : t.safe = u.safe) (ht : t.safeTile = u.safeTile) (hr : t.regs = u.regs)
    (hl : t.loader = u.loader) (hp : ∀ k, (t.portOf k).line = (u.portOf k).line) : SafeEv s t :=
  h.trans ⟨hm, hl, by rw [hs], fun off _ => State.reg_of_regs hr off, hp, fun k => by rw [State.safeT, State.safeT, ht]⟩

theorem SafeEv.quiet {l : List Nat} (h : SafeEv s u) (q : Quiet l u t) (hl : ∀ off ∈ l, ¬SafeOff off) : SafeEv s t := by
  refine h.trans ⟨q.mem_eq, by rw [q.rest], by rw [q.rest], fun off ho => q.regs off (fun hin => hl off hin ho) fun hin => evRegs_notSafety off hin ho, fun k => by rw [q.portOf], fun k => ?_⟩
  rw [State.safeT, State.safeT, q.safeTile]

theorem SafeEv.port {n : Nat} (h : SafeEv s u) (p : PortOnly n u t) (hl : (t.portOf n).line = (u.portOf n).line) : SafeEv s t := by
  refine h.same p.mem (by rw [p.rest]) (by rw [p.rest]) p.regs (by rw [p.rest]) fun k => ?_
  by_cases hk : k = n
  · rw [hk]
    exact hl
  · rw [p.other k hk]

theorem SafeEv.updPort (h : SafeEv s u) (n : Nat) {F : Port → Port} (hF : ∀ p, (F p).line = p.line) : SafeEv s (u.updPort n F) :=
  h.port ((PortOnly.refl n u).updPort F) (by rw [State.portOf_updPort, if_pos rfl]; exact hF _)

theorem SafeEv.setReg (h : SafeEv s u) {off : Nat} {v : Word} (ho : ¬SafeOff off) : SafeEv s (u.setReg off v) :=
  h.quiet (l := [off]) ((Quiet.refl _ u).setReg (by simp)) (by simpa using ho)

theorem SafeEv.setF (h : SafeEv s u) {f : Fld} {v : Nat} (ho : ¬SafeOff f.off) : SafeEv s (u.setF f v) := h.setReg ho

theorem SafeEv.setRegN (h : SafeEv s u) {off v : Nat} (ho : ¬SafeOff off) : SafeEv s (u.setRegN off v) := h.setReg ho

theorem SafeEv.bump (h : SafeEv s u) {off : Nat} (ho : ¬SafeOff off) : SafeEv s (u.bump off) := h.setReg ho

theorem SafeEv.post (h : SafeEv s u) {k : EvKind} (hp : k.prio < 4) (src data : Nat) : SafeEv s (u.post k src data) :=
  h.quiet (l := []) ((Quiet.refl [] u).post hp) (by simp)

theorem SafeEv.notePost (h : SafeEv s u) (k v : Nat) : SafeEv s (u.notePost k v) := h.same rfl rfl rfl rfl rfl (fun _ => rfl)

theorem SafeEv.wakeNote (h : SafeEv s u) (k : Nat) : SafeEv s (u.wakeNote k) := h.quiet (l := []) (Quiet.refl [] u).wakeNote (by simp)

theorem SafeEv.assertFault (h : SafeEv s u) (c : FaultCause) : SafeEv s (u.assertFault c) := h.same rfl rfl rfl rfl rfl (fun _ => rfl)

theorem SafeEv.releaseFault (h : SafeEv s u) (c : FaultCause) : SafeEv s (u.releaseFault c) := h.same rfl rfl rfl rfl rfl (fun _ => rfl)

theorem SafeEv.updBoot (h : SafeEv s u) (F : Boot → Boot) : SafeEv s (u.updBoot F) := h.same rfl rfl rfl rfl rfl (fun _ => rfl)

theorem SafeEv.updPwr (h : SafeEv s u) (F : Pwr → Pwr) : SafeEv s (u.updPwr F) := h.same rfl rfl rfl rfl rfl (fun _ => rfl)

theorem State.safeT_updSafeT_if (s : State) (n k : Nat) (F : SafeTile → SafeTile) : (s.updSafeT n F).safeT k = if k = n then F (s.safeT n) else s.safeT k :=
  State.safeT_setSafeT _ _ _ _

theorem SafeEv.updSafeT (h : SafeEv s u) (n : Nat) {F : SafeTile → SafeTile} (hF : ∀ t, (F t).stat = t.stat) : SafeEv s (u.updSafeT n F) := by
  refine h.trans ⟨rfl, rfl, rfl, fun off _ => State.updSafeT_reg u n F off, fun _ => rfl, fun k => ?_⟩
  rw [State.safeT_updSafeT_if]
  split
  · next hk => rw [hF, hk]
  · rfl

/-! ### The actions of the safe states -/

theorem SafeEv.send (h : SafeEv s u) (n x body : Nat) : SafeEv s (u.send n x body) := by
  have hemit : SafeEv s (u.emit n (.ctl (ctlWord x body))) := h.updPort n fun _ => rfl
  have hslot : SafeEv s ((u.emit n (.ctl (ctlWord x body))).updPort n (fun p => { p with slots := slotsInsert (ctlWord x body) p.slots })) :=
    hemit.updPort n fun _ => rfl
  exact hslot

theorem SafeEv.sendFallback (h : SafeEv s u) (n pat : Nat) : SafeEv s (u.sendFallback n pat) := by
  unfold State.sendFallback
  extract_lets tag v
  have hv : SafeEv s v := h.updPort n fun _ => rfl
  exact hv.send n _ _

theorem SafeEv.setHs (h : SafeEv s u) (n : Nat) (b : Bool) : SafeEv s (u.setHs n b) := h.updSafeT n fun _ => rfl

theorem SafeEv.setLs (h : SafeEv s u) (n : Nat) (b : Bool) : SafeEv s (u.setLs n b) := h.updSafeT n fun _ => rfl

theorem SafeEv.setFb (h : SafeEv s u) (n : Nat) (b : Bool) : SafeEv s (u.setFb n b) := by
  unfold State.setFb
  extract_lets v w
  have hv : SafeEv s v := h.updPort n fun _ => rfl
  have hw : SafeEv s w := hv.setReg (off := rTOP_START_STATUS) (by decide)
  exact .ite (hw.setF (by decide)) hw

theorem SafeEv.setFull (h : SafeEv s u) (n : Nat) (b : Bool) : SafeEv s (u.setFull n b) := by
  unfold State.setFull
  extract_lets w
  have hw : SafeEv s w := h.setReg (off := rTOP_START_STATUS) (by decide)
  exact .ite (hw.setF (by decide)) hw

theorem SafeEv.setHandover (h : SafeEv s u) (n v : Nat) : SafeEv s (u.setHandover n v) := h.updBoot _

theorem SafeEv.safeFallback (h : SafeEv s u) (n : Nat) : SafeEv s (u.safeFallback n) :=
  .ite ((h.sendFallback n 0).updSafeT n fun _ => rfl) h

theorem SafeEv.handoverStart (h : SafeEv s u) (n : Nat) : SafeEv s (u.handoverStart n) :=
  .ite ((h.sendFallback n 0).setHandover _ _) h

theorem SafeEv.goDark (h : SafeEv s u) (n : Nat) : SafeEv s (u.goDark n) := by
  unfold State.goDark
  extract_lets v w
  have hv : SafeEv s v := ((h.setHs n false).setLs n false).setFb n false
  have hw : SafeEv s w := (hv.setFull n false).setHandover n 0
  exact hw.updSafeT n fun _ => rfl

theorem SafeEv.goFallback (h : SafeEv s u) (n : Nat) : SafeEv s (u.goFallback n) := by
  unfold State.goFallback
  extract_lets v k
  have hv : SafeEv s v := .ite (h.setFb n true) h
  exact ((hv.setFull n false).setHandover _ _).safeFallback n

theorem SafeEv.startRetest (h : SafeEv s u) (n : Nat) : SafeEv s (u.startRetest n) := by
  have hmark : SafeEv s (u.updSafeT n (fun t => { t with retest := true })) := h.updSafeT n fun _ => rfl
  unfold State.startRetest
  extract_lets v
  have hv : SafeEv s v := hmark.updPwr _
  exact hv.updBoot _

theorem SafeEv.recTrigger (h : SafeEv s u) (src : Nat) : SafeEv s (u.recTrigger src) := by
  unfold State.recTrigger
  extract_lets st v w x
  have hv : SafeEv s v := (h.setRegN (by decide)).setRegN (by decide)
  have hw : SafeEv s w := (hv.setReg (by decide)).setReg (by decide)
  have hx : SafeEv s x := (hw.setF (by decide)).setF (by decide)
  exact .ite (h.bump (by decide)) (.ite (hx.same rfl rfl rfl rfl rfl (fun _ => rfl)) h)

theorem SafeEv.spoolTrigger (h : SafeEv s u) (src : Nat) : SafeEv s (u.spoolTrigger src) := by
  unfold State.spoolTrigger
  extract_lets a v w x y
  have hv : SafeEv s v := (h.setRegN (by decide)).setRegN (by decide)
  have hw : SafeEv s w := hv.quiet (l := []) (Quiet.refl [] v).spoolPut (by simp)
  have hy : SafeEv s y := hw.same rfl rfl rfl rfl rfl (fun _ => rfl)
  exact .ite h ((hy.setF (by decide)).setF (by decide))

theorem SafeEv.freezeAll (h : SafeEv s u) (src : Nat) : SafeEv s (u.freezeAll src) := (h.recTrigger src).spoolTrigger src

theorem SafeEv.ssFaultN (h : SafeEv s u) : SafeEv s u.ssFaultN := .ite (h.assertFault _) (h.releaseFault _)

theorem SafeEv.foldl {α : Type} {f : State → α → State} (hf : ∀ v x, SafeEv s v → SafeEv s (f v x)) (l : List α) : ∀ {u : State}, SafeEv s u →
    SafeEv s (l.foldl f u) := by
  induction l with
  | nil => exact fun h => h
  | cons x l ih => exact fun h => ih (hf _ x h)

theorem SafeEv.ssPost (h : SafeEv s u) {k : EvKind} (hp : k.prio < 4) (v : Nat) (l : List Nat) : SafeEv s (u.ssPost k v l) := by
  unfold State.ssPost
  extract_lets new
  exact .ite h ((SafeEv.foldl (fun w _ hw => hw.notePost _ _) _ h).post hp _ _)

theorem SafeEv.ssEvents (h : SafeEv s u) (moves : List (Nat × Nat × Nat)) : SafeEv s (u.ssEvents moves) := by
  unfold State.ssEvents
  extract_lets v w
  have hv : SafeEv s v := SafeEv.foldl (fun x k hx => .ite hx (((hx.wakeNote _).ssPost (by decide) _ _).freezeAll _)) _ h
  have hw : SafeEv s w := SafeEv.foldl (fun x k hx => hx.ssPost (by decide) _ _) _ hv
  exact hw.ssFaultN

end

/-! ### The safe state of each tile -/

/-- As `SafeEv`, but the safe states move. -/
structure SsEv (s t : State) : Prop where
  mem : t.mem = s.mem
  loader : t.loader = s.loader
  safe : t.safe = { s.safe with code := t.safe.code }
  regs : ∀ off, SafeOff off → off ≠ rSAFETY_SS_STATE → t.reg off = s.reg off
  line : ∀ k, (t.portOf k).line = (s.portOf k).line
  stat : ∀ k, (t.safeT k).stat = (s.safeT k).stat

section
variable {s t u : State}

theorem SafeEv.ssEv (h : SafeEv s t) : SsEv s t := ⟨h.mem, h.loader, h.safe, fun off ho _ => h.regs off ho, h.line, h.stat⟩

theorem SsEv.refl (s : State) : SsEv s s := (SafeEv.refl s).ssEv

theorem SsEv.trans (h : SsEv s u) (k : SsEv u t) : SsEv s t := by
  refine ⟨k.mem.trans h.mem, k.loader.trans h.loader, ?_, fun off ho h3 => (k.regs off ho h3).trans (h.regs off ho h3), fun j => (k.line j).trans (h.line j), fun j => (k.stat j).trans (h.stat j)⟩
  have hsafe := k.safe
  rw [h.safe] at hsafe
  exact hsafe

theorem SafeEv.ssOf (h : SafeEv s t) (n : Nat) : t.ssOf n = s.ssOf n := by
  rw [State.ssOf, State.ssOf, State.regN_congr (h.regs _ (by decide))]

theorem State.ssOf_setSs (s : State) {n v k : Nat} (hn : n < 16) (hv : v < 4) : (s.setSs n v).ssOf k = if k = n then v else s.ssOf k := by
  have hfit : (⟨rSAFETY_SS_STATE, 2 * n, 2⟩ : Fld).lo + (⟨rSAFETY_SS_STATE, 2 * n, 2⟩ : Fld).w ≤ 32 := by
    show 2 * n + 2 ≤ 32
    omega
  show (s.setF ⟨rSAFETY_SS_STATE, 2 * n, 2⟩ v).getF ⟨rSAFETY_SS_STATE, 2 * k, 2⟩ = _
  split
  · next h => rw [h, State.getF_setF _ _ _ hfit]; exact Nat.mod_eq_of_lt hv
  · next h =>
    refine State.getF_setF_other _ _ ⟨rSAFETY_SS_STATE, 2 * k, 2⟩ _ hfit (.inr ?_)
    show 2 * k + 2 ≤ 2 * n ∨ 2 * n + 2 ≤ 2 * k
    omega

theorem State.setSs_ssEv (s : State) (n v : Nat) : SsEv s (s.setSs n v) :=
  ⟨rfl, rfl, rfl, fun _ _ h => (State.reg_setRegN _ _ _ _).trans (if_neg h), fun _ => rfl, fun _ => rfl⟩

theorem State.ssMove_effect (s : State) (n old new : Nat) : SafeEv (s.setSs n new) (s.ssMove n old new) := by
  unfold State.ssMove
  extract_lets u
  exact .ite (.ite ((SafeEv.refl u).goDark n) (.refl u)) (.ite (.ite ((SafeEv.refl u).goFallback n) (.refl u)) (.ite ((SafeEv.refl u).handoverStart n) (.refl u)))

/-- The moves of `l`, each to the state that `raw` demands: a tile that was at a bound or is moved to one is at it. -/
theorem State.foldl_ssMove (raw : Nat → Nat) (l : List (Nat × Nat × Nat)) (hl : ∀ m ∈ l, m.1 < 16 ∧ m.2.2 = raw m.1 ∧ m.2.2 < 4) : ∀ s : State,
    SsEv s (l.foldl (fun s m => s.ssMove m.1 m.2.1 m.2.2) s)
    ∧ ∀ k b, k < 16 → b ≤ raw k → (b ≤ s.ssOf k ∨ ∃ m ∈ l, m.1 = k) → b ≤ (l.foldl (fun s m => s.ssMove m.1 m.2.1 m.2.2) s).ssOf k := by
  induction l with
  | nil => exact fun s => ⟨.refl s, fun k b _ _ h => h.resolve_right (by simp)⟩
  | cons m l ih =>
    intro s
    obtain ⟨⟨hm, hraw, hlt⟩, hl⟩ := List.forall_mem_cons.1 hl
    have hstep := s.ssMove_effect m.1 m.2.1 m.2.2
    have hev : SsEv s (s.ssMove m.1 m.2.1 m.2.2) := (s.setSs_ssEv m.1 m.2.2).trans hstep.ssEv
    have hget : ∀ k, k < 16 → (s.ssMove m.1 m.2.1 m.2.2).ssOf k = if k = m.1 then m.2.2 else s.ssOf k := fun k _ =>
      (hstep.ssOf k).trans (s.ssOf_setSs hm hlt)
    rw [List.foldl_cons]
    generalize s.ssMove m.1 m.2.1 m.2.2 = u at hev hget
    obtain ⟨hev', hge⟩ := ih hl u
    refine ⟨hev.trans hev', fun k b hk hb h => hge k b hk hb ?_⟩
    rw [hget k hk]
    by_cases hkm : k = m.1
    · exact .inl (by rw [if_pos hkm, hraw, ← hkm]; exact hb)
    · rw [if_neg hkm]
      refine h.imp id fun ⟨x, hx, hxk⟩ => ?_
      rcases List.mem_cons.1 hx with rfl | hx
      · exact absurd hxk.symm hkm
      · exact ⟨x, hx, hxk⟩

theorem State.ssRaw_lt (s : State) (n : Nat) : s.ssRaw n < 4 := by
  unfold State.ssRaw
  extract_lets f pol
  split
  · decide
  · split
    · decide
    · split <;> decide

/-- The causes have changed: what stays, and that no tile stays below the safe state that its causes demand. -/
theorem State.updateSS_effect (s : State) (code : Nat) : SsEv s (s.updateSS code) ∧ ∀ n b, n < s.tiles → b ≤ s.ssRaw n → b ≤ (s.updateSS code).ssOf n := by
  unfold State.updateSS
  extract_lets -merge v want wait go w x y
  have hv : SsEv s v := by
    unfold v
    split
    · exact .refl s
    · exact ⟨rfl, rfl, rfl, fun _ _ _ => rfl, fun _ => rfl, fun _ => rfl⟩
  have hvtiles : v.tiles = s.tiles := by
    unfold v
    split <;> rfl
  have hvss : ∀ n, v.ssOf n = s.ssOf n ∧ v.ssRaw n = s.ssRaw n := fun n => by
    unfold v
    split <;> exact ⟨rfl, rfl⟩
  clear_value v
  have hw : SafeEv v w := SafeEv.foldl (fun a m ha => .ite ha (ha.startRetest _)) _ (.refl v)
  have hend : ∀ a (m : Nat × Nat × Nat), SafeEv v a → SafeEv v (a.updSafeT m.1 (fun t => { t with retest := false })) := fun a m ha =>
    ha.updSafeT _ fun _ => rfl
  have hx : SafeEv v x := SafeEv.foldl hend _ hw
  have hgo : ∀ m ∈ go, m.1 < 16 ∧ m.2.2 = v.ssRaw m.1 ∧ m.2.2 < 4 := by
    intro m hm
    obtain ⟨n, hn, rfl⟩ := List.mem_map.1 (List.mem_filter.1 hm).1
    have htiles := v.tiles_le
    have := List.mem_range.1 hn
    exact ⟨by show n < 16; omega, rfl, v.ssRaw_lt n⟩
  have hmoves : y = go.foldl (fun s m => s.ssMove m.1 m.2.1 m.2.2) x := rfl
  obtain ⟨hev, hge⟩ := State.foldl_ssMove v.ssRaw go hgo x
  rw [← hmoves] at hev hge
  have hend := (SafeEv.refl y).ssEvents go
  refine ⟨hv.trans (hx.ssEv.trans (hev.trans hend.ssEv)), fun n b hn hb => ?_⟩
  rw [hend.ssOf n]
  have htiles := s.tiles_le
  obtain ⟨h1, h2⟩ := hvss n
  refine hge n b (by omega) (by rw [h2]; exact hb) ?_
  rw [hx.ssOf n, h1]
  by_cases hle : b ≤ s.ssOf n
  · exact .inl hle
  · refine .inr ⟨(n, v.ssOf n, v.ssRaw n), List.mem_filter.2 ⟨List.mem_map.2 ⟨n, List.mem_range.2 (by rw [hvtiles]; exact hn), rfl⟩, ?_⟩, rfl⟩
    show (decide (v.ssRaw n ≠ v.ssOf n) && !(decide (v.ssRaw n < 2) && decide (2 ≤ v.ssOf n))) = true
    rw [h1, h2]
    simp only [Bool.and_eq_true, decide_eq_true_eq, Bool.not_eq_true', Bool.and_eq_false_iff, decide_eq_false_iff_not]
    exact ⟨by omega, by omega⟩

/-! ### Faults and the safe state that they demand -/

theorem State.testBit_setF (s : State) (off : Nat) {b k v : Nat} (hb : b < 32) :
    ((s.setF ⟨off, b, 1⟩ v).regN off).testBit k = if k = b then decide (v % 2 = 1) else (s.regN off).testBit k := by
  have hbit : ∀ (t : State) (j : Nat), (t.regN off).testBit j = decide (t.getF ⟨off, j, 1⟩ = 1) := fun t j => by
    rw [Nat.testBit_eq_decide_div_mod_eq]
    rfl
  rw [hbit, hbit]
  split
  · next h => rw [h, State.getF_setF _ _ _ (by show b + 1 ≤ 32; omega)]; rfl
  · next h =>
    rw [State.getF_setF_other _ _ _ _ (by show b + 1 ≤ 32; omega) (.inr (by show k + 1 ≤ b ∨ b + 1 ≤ k; omega))]

theorem State.latchSc_effect (s : State) {b : Nat} (hb : b < 32) : OnlyRegs [rSAFETY_FAULT_SC] s (s.latchSc b)
    ∧ ∀ k, ((s.latchSc b).regN rSAFETY_FAULT_SC).testBit k = (decide (k = b) || (s.regN rSAFETY_FAULT_SC).testBit k) := by
  refine ⟨(OnlyRegs.refl _ s).setF (by simp), fun k => ?_⟩
  rw [State.latchSc, State.testBit_setF _ _ hb]
  split
  · next h => simp [h]
  · next h => simp [h]

theorem State.latchTt_effect (s : State) {b : Nat} (hb : b < 32) : OnlyRegs [rSAFETY_FAULT_TT] s (s.latchTt b)
    ∧ ∀ k, ((s.latchTt b).regN rSAFETY_FAULT_TT).testBit k = (decide (k = b) || (s.regN rSAFETY_FAULT_TT).testBit k) := by
  refine ⟨(OnlyRegs.refl _ s).setF (by simp), fun k => ?_⟩
  rw [State.latchTt, State.testBit_setF _ _ hb]
  split
  · next h => simp [h]
  · next h => simp [h]

theorem State.latchBoth_effect (s : State) {b : Nat} (hb : b < 32) : OnlyRegs [rSAFETY_FAULT_SC, rSAFETY_FAULT_TT] s (s.latchBoth b)
    ∧ ((s.latchBoth b).regN rSAFETY_FAULT_SC).testBit b = true ∧ ((s.latchBoth b).regN rSAFETY_FAULT_TT).testBit b = true := by
  have hall : OnlyRegs [rSAFETY_FAULT_SC, rSAFETY_FAULT_TT] s (s.latchBoth b) := ((OnlyRegs.refl _ s).setF (by simp)).setF (by simp)
  refine ⟨hall, ?_⟩
  obtain ⟨honly, hbit⟩ := s.latchSc_effect hb
  rw [State.latchBoth]
  generalize s.latchSc b = u at honly hbit
  obtain ⟨honly', hbit'⟩ := u.latchTt_effect hb
  refine ⟨?_, ?_⟩
  · rw [State.regN_congr (honly'.regs _ (by decide)), hbit, decide_eq_true rfl, Bool.true_or]
  · rw [hbit', decide_eq_true rfl, Bool.true_or]

theorem State.loader_latchBoth (s : State) (b : Nat) : (s.latchBoth b).loader = s.loader := rfl

theorem State.faults_testBit (s : State) (b : Nat) : s.faults.testBit b = ((s.regN rSAFETY_FAULT_SC).testBit b || (s.regN rSAFETY_FAULT_TT).testBit b) :=
  Nat.testBit_or _ _ _

theorem State.one_le_ssRaw {b : Nat} (hb : b ∈ [0, 1, 2, 11, 12, 13]) (h : s.faults.testBit b = true) (n : Nat) : 1 ≤ s.ssRaw n := by
  unfold State.ssRaw
  extract_lets f pol
  split
  · decide
  · split
    · decide
    · rw [if_pos]
      simp only [List.mem_cons, List.not_mem_nil, or_false] at hb
      obtain rfl | rfl | rfl | rfl | rfl | rfl := hb <;> simp [f, h]

theorem State.two_le_ssRaw {n : Nat} (h : s.faults.testBit (7 + n) = true ∨ s.faults.testBit (16 + n) = true) : 2 ≤ s.ssRaw n := by
  unfold State.ssRaw
  extract_lets f pol
  split
  · decide
  · rw [if_pos]
    exact h.imp id .inl

end

end Sys2Proof.Machine

/-! ## What a violation of the stream leaves alone, and the inputs' decision (R357 to R364, R369, R370) -/

namespace Sys2Proof.Machine

/-- Memory, the inputs' records, what the tiles' statistics records left, the faults but the three lowest and the flag of discrepancies stay. -/
structure ViolKept (s t : State) : Prop where
  mem : t.mem = s.mem
  sinSc : t.safe.sinSc = s.safe.sinSc
  sinTt : t.safe.sinTt = s.safe.sinTt
  stat : ∀ k, (t.safeT k).stat = (s.safeT k).stat
  sc : ∀ b, 3 ≤ b → (t.regN rSAFETY_FAULT_SC).testBit b = (s.regN rSAFETY_FAULT_SC).testBit b
  tt : ∀ b, 3 ≤ b → (t.regN rSAFETY_FAULT_TT).testBit b = (s.regN rSAFETY_FAULT_TT).testBit b
  flag : t.isF fSAFETY_FLAGS_DISCREPANCY = s.isF fSAFETY_FLAGS_DISCREPANCY

section
variable {s t u : State}

theorem ViolKept.refl (s : State) : ViolKept s s := ⟨rfl, rfl, rfl, fun _ => rfl, fun _ _ => rfl, fun _ _ => rfl, rfl⟩

theorem ViolKept.trans (h : ViolKept s u) (k : ViolKept u t) : ViolKept s t where
  mem := k.mem.trans h.mem
  sinSc := k.sinSc.trans h.sinSc
  sinTt := k.sinTt.trans h.sinTt
  stat j := (k.stat j).trans (h.stat j)
  sc b hb := (k.sc b hb).trans (h.sc b hb)
  tt b hb := (k.tt b hb).trans (h.tt b hb)
  flag := k.flag.trans h.flag

theorem ViolKept.ite {c : Prop} [Decidable c] {a b : State} (h : ViolKept s a) (k : ViolKept s b) : ViolKept s (if c then a else b) := by
  split
  · exact h
  · exact k

theorem ViolKept.ofSs (q : SsEv s t) : ViolKept s t where
  mem := q.mem
  sinSc := by rw [q.safe]
  sinTt := by rw [q.safe]
  stat := q.stat
  sc b _ := by rw [State.regN_congr (q.regs rSAFETY_FAULT_SC (by decide) (by decide))]
  tt b _ := by rw [State.regN_congr (q.regs rSAFETY_FAULT_TT (by decide) (by decide))]
  flag := by rw [State.isF, State.isF, State.getF_congr (q.regs rSAFETY_FLAGS (by decide) (by decide))]

theorem ViolKept.ofQuiet {l : List Nat} (q : Quiet l s t) (hl : rSAFETY_FAULT_SC ∉ l ∧ rSAFETY_FAULT_TT ∉ l ∧ rSAFETY_FLAGS ∉ l) : ViolKept s t where
  mem := q.mem_eq
  sinSc := by rw [q.safe]
  sinTt := by rw [q.safe]
  stat k := by rw [State.safeT, State.safeT, q.safeTile]
  sc b _ := by rw [State.regN_congr (q.regs _ hl.1 (by decide))]
  tt b _ := by rw [State.regN_congr (q.regs _ hl.2.1 (by decide))]
  flag := q.isF fSAFETY_FLAGS_DISCREPANCY hl.2.2 (by decide)

theorem ViolKept.setReg (h : ViolKept s u) {off : Nat} {v : Word} (ho : off ∉ [rSAFETY_FAULT_SC, rSAFETY_FAULT_TT, rSAFETY_FLAGS]) : ViolKept s (u.setReg off v) := by
  simp only [List.mem_cons, List.not_mem_nil, or_false, not_or] at ho
  exact h.trans (.ofQuiet (l := [off]) ((Quiet.refl _ u).setReg (by simp)) (by simpa only [List.mem_singleton] using ⟨Ne.symm ho.1, Ne.symm ho.2.1, Ne.symm ho.2.2⟩))

theorem ViolKept.setF (h : ViolKept s u) {f : Fld} {v : Nat} (ho : f.off ∉ [rSAFETY_FAULT_SC, rSAFETY_FAULT_TT, rSAFETY_FLAGS]) : ViolKept s (u.setF f v) :=
  h.setReg ho

theorem ViolKept.raise (h : ViolKept s u) {b c : Nat} (hb : b < 32) (h3 : b ≠ 3) (hc : c ∉ [rSAFETY_FAULT_SC, rSAFETY_FAULT_TT, rSAFETY_FLAGS]) :
    ViolKept s (u.raise ⟨rSAFETY_FLAGS, b, 1⟩ c) := by
  have hset : OnlyRegs [rSAFETY_FLAGS] u (u.setF ⟨rSAFETY_FLAGS, b, 1⟩ 1) := (OnlyRegs.refl _ u).setF (by simp)
  refine (h.trans ⟨hset.mem_eq, by rw [hset.rest], by rw [hset.rest], fun k => by rw [hset.rest]; rfl, fun b _ => ?_, fun b _ => ?_, ?_⟩).setReg hc
  · rw [State.regN_congr (hset.regs _ (by decide))]
  · rw [State.regN_congr (hset.regs _ (by decide))]
  · exact State.isF_setF_other u ⟨rSAFETY_FLAGS, b, 1⟩ fSAFETY_FLAGS_DISCREPANCY 1 (by show b + 1 ≤ 32; omega) (.inr (by show 3 + 1 ≤ b ∨ b + 1 ≤ 3; omega))

theorem ViolKept.latchSc (h : ViolKept s u) {b : Nat} (hb : b < 3) : ViolKept s (u.latchSc b) := by
  obtain ⟨honly, hbit⟩ := u.latchSc_effect (b := b) (by omega)
  refine h.trans ⟨honly.mem_eq, by rw [honly.rest], by rw [honly.rest], fun k => by rw [honly.rest]; rfl, fun k hk => ?_, fun k _ => ?_, honly.quiet.isF _ (by decide) (by decide)⟩
  · rw [hbit, decide_eq_false (by omega), Bool.false_or]
  · rw [State.regN_congr (honly.regs _ (by decide))]

theorem ViolKept.latchTt (h : ViolKept s u) {b : Nat} (hb : b < 3) : ViolKept s (u.latchTt b) := by
  obtain ⟨honly, hbit⟩ := u.latchTt_effect (b := b) (by omega)
  refine h.trans ⟨honly.mem_eq, by rw [honly.rest], by rw [honly.rest], fun k => by rw [honly.rest]; rfl, fun k _ => ?_, fun k hk => ?_, honly.quiet.isF _ (by decide) (by decide)⟩
  · rw [State.regN_congr (honly.regs _ (by decide))]
  · rw [hbit, decide_eq_false (by omega), Bool.false_or]

theorem ViolKept.sfEv (h : ViolKept s u) {k : EvKind} (hp : k.prio < 4) (who src data : Nat) : ViolKept s (u.sfEv k who src data) :=
  h.trans (.ofQuiet (l := []) (State.sfEv_quiet (.refl _ u) hp who src data) (by simp))

theorem ViolKept.updSafe (h : ViolKept s u) {F : Safe → Safe} (hF : (F u.safe).sinSc = u.safe.sinSc ∧ (F u.safe).sinTt = u.safe.sinTt) : ViolKept s (u.updSafe F) :=
  h.trans ⟨rfl, hF.1, hF.2, fun _ => rfl, fun _ _ => rfl, fun _ _ => rfl, rfl⟩

theorem ViolKept.updSafeT (h : ViolKept s u) (n : Nat) {F : SafeTile → SafeTile} (hF : ∀ t, (F t).stat = t.stat) : ViolKept s (u.updSafeT n F) :=
  h.trans (.ofSs ((SafeEv.refl u).updSafeT n hF).ssEv)

theorem ViolKept.updateSS (h : ViolKept s u) (code : Nat) : ViolKept s (u.updateSS code) := h.trans (.ofSs (u.updateSS_effect code).1)

theorem ViolKept.foldl {α : Type} {f : State → α → State} (hf : ∀ v x, ViolKept s v → ViolKept s (f v x)) (l : List α) : ∀ {u : State}, ViolKept s u →
    ViolKept s (l.foldl f u) := by
  induction l with
  | nil => exact fun h => h
  | cons x l ih => exact fun h => ih (hf _ x h)

/-! ### Violations -/

theorem ViolKept.streamViol (h : ViolKept s u) (static : Bool) (code : Nat) : ViolKept s (u.streamViol static code) := by
  unfold State.streamViol
  extract_lets v l w x y
  have hv : ViolKept s v := .ite (h.trans (.ofSs ((SafeEv.refl u).freezeAll 4).ssEv)) h
  clear_value v
  have hw : ViolKept s w := hv.updSafe ⟨rfl, rfl⟩
  have hx : ViolKept s x := .ite hv (.ite (.ite (hw.latchTt (by decide)) (hw.latchSc (by decide))) hw)
  clear_value x
  have hy : ViolKept s y := hx.updSafe ⟨rfl, rfl⟩
  exact hy.updateSS code

theorem ViolKept.rowViol (h : ViolKept s u) (n y j frame : Nat) : ViolKept s (u.rowViol n y j frame) := by
  unfold State.rowViol
  extract_lets v w x
  have hw : ViolKept s w := ViolKept.raise (h.setReg (by decide)) (by decide) (by decide) (by decide)
  have hx : ViolKept s x := hw.sfEv (by decide) _ _ _
  have hy : ViolKept s (x.updSafeT n (fun t => { t with ttBad := true })) := hx.updSafeT n fun _ => rfl
  exact hy.streamViol _ _

theorem ViolKept.ttCheckRow (h : ViolKept s u) (n y frame : Nat) (tab : List (Nat × Nat)) : ViolKept s (u.ttCheckRow n y frame tab) :=
  ViolKept.foldl (fun _ _ hv => .ite (hv.rowViol _ _ _ _) hv) _ h

theorem ViolKept.ttReselect (h : ViolKept s u) : ViolKept s u.ttReselect := by
  unfold State.ttReselect
  refine ViolKept.foldl (fun v n hv => ?_) _ h
  extract_lets fr w
  have hw : ViolKept s w := ViolKept.foldl (fun _ _ hx => hx.ttCheckRow _ _ _ _) _ hv
  exact ViolKept.foldl (fun _ _ hx => hx.ttCheckRow _ _ _ _) _ hw

theorem ViolKept.dynViol (h : ViolKept s u) (n frame : Nat) (q : Nat × Nat) : ViolKept s (u.dynViol n frame q) := by
  unfold State.dynViol
  extract_lets v w
  have hw : ViolKept s w := ViolKept.raise (h.setReg (by decide)) (by decide) (by decide) (by decide)
  exact (hw.sfEv (by decide) _ _ _).streamViol _ _

theorem ViolKept.pitchShift (h : ViolKept s u) : ViolKept s u.pitchShift := by
  unfold State.pitchShift
  extract_lets stale v w tgt eff fresh eff' x
  have hv : ViolKept s v := h.setF (by decide)
  have hw : ViolKept s w := .ite (hv.sfEv (by decide) _ _ _) hv
  clear_value w
  have hx : ViolKept s x := hw.updSafe ⟨rfl, rfl⟩
  exact ViolKept.setF (ViolKept.setF hx (by decide)) (by decide)

theorem ViolKept.maskCheck (h : ViolKept s u) (n : Nat) (r : StatRec) : ViolKept s (u.maskCheck n r).2 := by
  unfold State.maskCheck
  generalize nth (255, 0, true, false) r.layers u.loader.cfg.rt.maskLayer = q
  obtain ⟨age, st, never, fb⟩ := q
  dsimp -zeta only
  extract_lets lim v w agree x
  have hv : ViolKept s v := (h.setF (by decide)).setF (by decide)
  split
  · exact hv
  · have hw : ViolKept s w := hv.updSafeT n fun _ => rfl
    have hx : ViolKept s x := hw.raise (by decide) (by decide) (by decide)
    split
    · exact hw
    · exact (hx.sfEv (by decide) _ _ _).streamViol _ _

theorem ViolKept.roiCheck (h : ViolKept s u) (n : Nat) (r : StatRec) : ViolKept s (u.roiCheck n r).2 := by
  unfold State.roiCheck
  extract_lets last use fail next v w
  clear_value next
  have hv : ViolKept s (u.updSafeT n (fun t => { t with roiLast := next })) := h.updSafeT n fun _ => rfl
  have hw : ViolKept s w := hv.raise (by decide) (by decide) (by decide)
  split
  · exact hv
  · exact (hw.sfEv (by decide) _ _ _).streamViol _ _

theorem ViolKept.damageCheck (h : ViolKept s u) (n : Nat) : ViolKept s (u.damageCheck n) := by
  unfold State.damageCheck
  extract_lets t only fr v
  have hv : ViolKept s v := ViolKept.foldl (fun _ _ hx => hx.dynViol _ _ _) _ h
  exact hv.updSafeT n fun _ => rfl

end

/-! ### The inputs' values -/

/-- An input's channel record with its decided value. -/
def State.sinVals (s : State) (tt : Bool) (l : List SinCh) : List SinCh := l.zipIdx.map (fun q => { q.1 with normal := s.sinNormal tt q.2 })

/-- The state with the inputs' values decided anew and shown. -/
def State.sinNoted (s : State) : State :=
  let u := [0, 1, 2, 3].foldl (fun s i => s.sinShow i) (s.updSafe (fun x => { x with sinSc := s.sinVals false x.sinSc, sinTt := s.sinVals true x.sinTt }))
  (u.setB fSAFETY_STATUS_AUTHORITY (u.sinBoth 1)).setB fSAFETY_STATUS_INTERLOCK_OPEN (u.sinOpen 0)

theorem nth_sinVals (s : State) (tt : Bool) (l : List SinCh) (i : Nat) : ∃ b, nth {} (s.sinVals tt l) i = { nth {} l i with normal := b } := by
  rw [nth, nth, State.sinVals, List.getD_eq_getElem?_getD, List.getD_eq_getElem?_getD, List.getElem?_map, List.getElem?_zipIdx]
  cases l[i]? with
  | none => exact ⟨_, rfl⟩
  | some c => exact ⟨_, rfl⟩

theorem State.sinNoted_only (s : State) : OnlyRegs [rSAFETY_SIN_STATUS, rSAFETY_STATUS]
    (s.updSafe (fun x => { x with sinSc := s.sinVals false x.sinSc, sinTt := s.sinVals true x.sinTt })) s.sinNoted := by
  unfold State.sinNoted
  generalize s.updSafe _ = v
  have hshow : ∀ l : List Nat, ∀ u, OnlyRegs [rSAFETY_SIN_STATUS, rSAFETY_STATUS] v u → OnlyRegs [rSAFETY_SIN_STATUS, rSAFETY_STATUS] v (l.foldl (fun s i => s.sinShow i) u) := by
    intro l
    induction l with
    | nil => exact fun _ h => h
    | cons i l ih => exact fun u h => ih _ (OnlyRegs.setF h (f := ⟨rSAFETY_SIN_STATUS, 4 * i, 4⟩) (.head _))
  have hu := hshow [0, 1, 2, 3] v (.refl _ v)
  generalize List.foldl _ _ _ = u at hu
  exact OnlyRegs.setF (OnlyRegs.setF hu (by decide)) (by decide)

/-- The inputs are decided anew: their contacts and discrepancies, the faults but the three lowest and memory stay. -/
structure SinDecided (s t : State) : Prop where
  mem : t.mem = s.mem
  ch : ∀ tt i, ∃ b, t.sinCh tt i = { s.sinCh tt i with normal := b }
  sc : ∀ b, 3 ≤ b → (t.regN rSAFETY_FAULT_SC).testBit b = (s.regN rSAFETY_FAULT_SC).testBit b
  tt : ∀ b, 3 ≤ b → (t.regN rSAFETY_FAULT_TT).testBit b = (s.regN rSAFETY_FAULT_TT).testBit b
  flag : t.isF fSAFETY_FLAGS_DISCREPANCY = s.isF fSAFETY_FLAGS_DISCREPANCY

theorem State.sinDecide_eq (s : State) (code : Nat) : s.sinDecide code =
    let u := if (nth {} s.safe.sinTt 1).normal = true ∧ s.sinNoted.sinNormal true 1 = false then s.sinNoted.ttReselect else s.sinNoted
    if (!s.isF fSAFETY_STATUS_INTERLOCK_OPEN) = true ∧ u.sinOpen 0 = true then
      (u.sfEv evSAFETY_INTERLOCK_OPEN 0 srcSC 0).updateSS evSAFETY_INTERLOCK_OPEN.code
    else u.updateSS code := rfl

theorem State.sinNoted_decided (s : State) : SinDecided s s.sinNoted := by
  have h := s.sinNoted_only
  generalize s.sinNoted = t at h
  have hreg : ∀ off, off ∉ [rSAFETY_SIN_STATUS, rSAFETY_STATUS] → t.regN off = s.regN off := fun off ho => State.regN_congr (h.regs off ho)
  refine ⟨h.mem_eq, fun tt i => ?_, fun b _ => by rw [hreg _ (by decide)], fun b _ => by rw [hreg _ (by decide)], h.quiet.isF _ (by decide) (by decide)⟩
  rw [State.sinCh, State.sinCh, OnlyRegs.safe h]
  cases tt with
  | false => exact nth_sinVals s false _ i
  | true => exact nth_sinVals s true _ i

theorem SinDecided.viol {s u t : State} (h : SinDecided s u) (k : ViolKept u t) : SinDecided s t where
  mem := k.mem.trans h.mem
  ch tt i := by
    obtain ⟨b, hb⟩ := h.ch tt i
    refine ⟨b, ?_⟩
    rw [← hb, State.sinCh, State.sinCh, k.sinSc, k.sinTt]
  sc b hb := (k.sc b hb).trans (h.sc b hb)
  tt b hb := (k.tt b hb).trans (h.tt b hb)
  flag := k.flag.trans h.flag

theorem State.sinDecide_decided (s : State) (code : Nat) : SinDecided s (s.sinDecide code) := by
  rw [State.sinDecide_eq]
  have hu := s.sinNoted_decided
  generalize s.sinNoted = u at hu
  refine hu.viol ?_
  have hsel : ViolKept u (if (nth {} s.safe.sinTt 1).normal = true ∧ u.sinNormal true 1 = false then u.ttReselect else u) :=
    .ite (ViolKept.refl u).ttReselect (.refl u)
  generalize (if (nth {} s.safe.sinTt 1).normal = true ∧ u.sinNormal true 1 = false then u.ttReselect else u) = v at hsel
  exact .ite ((hsel.sfEv (by decide) _ _ _).updateSS _) (hsel.updateSS _)

/-- Where Tether's selection is LOW already, the decision leaves every fault and the acknowledgement as they are. -/
theorem State.sinDecide_low (s : State) (code : Nat) (hlow : (nth {} s.safe.sinTt 1).normal = false) : (s.sinDecide code).safe.ack = s.safe.ack
    ∧ (s.sinDecide code).regN rSAFETY_FAULT_SC = s.regN rSAFETY_FAULT_SC ∧ (s.sinDecide code).regN rSAFETY_FAULT_TT = s.regN rSAFETY_FAULT_TT := by
  rw [State.sinDecide_eq]
  extract_lets w
  have hw : w = s.sinNoted := if_neg (by rw [hlow]; rintro ⟨h, -⟩; exact absurd h (by decide))
  rw [hw]
  clear_value w
  have hu := s.sinNoted_only
  generalize s.sinNoted = u at hu
  have hack : u.safe.ack = s.safe.ack := by rw [OnlyRegs.safe hu]; rfl
  have hsc : u.regN rSAFETY_FAULT_SC = s.regN rSAFETY_FAULT_SC := State.regN_congr (hu.regs _ (by decide))
  have htt : u.regN rSAFETY_FAULT_TT = s.regN rSAFETY_FAULT_TT := State.regN_congr (hu.regs _ (by decide))
  have hend : ∀ c, SsEv u ((u.sfEv evSAFETY_INTERLOCK_OPEN 0 srcSC 0).updateSS c) := fun c =>
    ((SafeEv.refl u).quiet (l := []) (State.sfEv_quiet (.refl _ u) (by decide) _ _ _) (by simp)).ssEv.trans (State.updateSS_effect _ c).1
  clear hw
  have hev : ∀ v, SsEv u v → v.safe.ack = s.safe.ack ∧ v.regN rSAFETY_FAULT_SC = s.regN rSAFETY_FAULT_SC ∧ v.regN rSAFETY_FAULT_TT = s.regN rSAFETY_FAULT_TT :=
    fun v h => ⟨by rw [h.safe, hack], by rw [State.regN_congr (h.regs _ (by decide) (by decide)), hsc],
      by rw [State.regN_congr (h.regs _ (by decide) (by decide)), htt]⟩
  split
  · exact hev _ (hend _)
  · exact hev _ (State.updateSS_effect u code).1

end Sys2Proof.Machine

/-! ## Channels, acknowledgement and statistics records (R355, R356, R361 to R364) -/

namespace Sys2Proof.Machine

/-! ### A fault latched in both channels -/

/-- A fault has been latched in both channels: its bit, what stays, and the safe states that it demands. -/
structure FaultBoth (b : Nat) (s t : State) : Prop where
  mem : t.mem = s.mem
  loader : t.loader = s.loader
  safe : t.safe = { s.safe with code := t.safe.code }
  sc : (t.regN rSAFETY_FAULT_SC).testBit b = true
  tt : (t.regN rSAFETY_FAULT_TT).testBit b = true
  one : b ∈ [0, 1, 2, 11, 12, 13] → ∀ n, n < s.tiles → 1 ≤ t.ssOf n
  two : ∀ n, b = 7 + n ∨ b = 16 + n → n < s.tiles → 2 ≤ t.ssOf n
  regs : ∀ off, SafeOff off → off ∉ [rSAFETY_SS_STATE, rSAFETY_FAULT_SC, rSAFETY_FAULT_TT, rSAFETY_FLAGS, rSAFETY_SWITCH_FAIL_COUNT,
    rSAFETY_ACT_FAULT_COUNT] → t.reg off = s.reg off

theorem State.tiles_of_loader {s t : State} (h : t.loader = s.loader) : t.tiles = s.tiles := by rw [State.tiles, State.tiles, h]

/-- A quiet change after the latch, and the safe states follow. -/
theorem State.updateSS_faultBoth (s : State) {b : Nat} (hb : b < 32) {u : State}
    (q : Quiet [rSAFETY_FLAGS, rSAFETY_SWITCH_FAIL_COUNT, rSAFETY_ACT_FAULT_COUNT] (s.latchBoth b) u) (code : Nat) :
    FaultBoth b s (u.updateSS code) ∧ ∀ f : Fld, f.off = rSAFETY_FLAGS → (u.updateSS code).isF f = u.isF f := by
  obtain ⟨hlatch, hsc, htt⟩ := s.latchBoth_effect hb
  have hmem : u.mem = s.mem := q.mem_eq.trans hlatch.mem_eq
  have hloader : u.loader = s.loader := q.loader.trans (s.loader_latchBoth b)
  have hsafe : u.safe = s.safe := q.safe.trans hlatch.safe
  have hscu : (u.regN rSAFETY_FAULT_SC).testBit b = true := by rw [q.regN (by decide) (by decide), hsc]
  have httu : (u.regN rSAFETY_FAULT_TT).testBit b = true := by rw [q.regN (by decide) (by decide), htt]
  have hregs : ∀ off, off ∉ [rSAFETY_FLAGS, rSAFETY_SWITCH_FAIL_COUNT, rSAFETY_ACT_FAULT_COUNT] → off ∉ evRegs → off ∉ [rSAFETY_FAULT_SC, rSAFETY_FAULT_TT] →
      u.reg off = s.reg off := fun off h1 h2 h3 => (q.regs off h1 h2).trans (hlatch.regs off h3)
  have hfaults : u.faults.testBit b = true := by rw [State.faults_testBit, hscu, Bool.true_or]
  clear q hlatch hsc htt
  obtain ⟨hev, hge⟩ := u.updateSS_effect code
  generalize u.updateSS code = t at hev hge
  have htiles : u.tiles = s.tiles := State.tiles_of_loader hloader
  refine ⟨{ mem := hev.mem.trans hmem, loader := hev.loader.trans hloader, safe := ?_, sc := ?_, tt := ?_, one := fun h n hn => ?_, two := fun n h hn => ?_,
            regs := fun off h1 h3 => ?_ }, fun f hf => ?_⟩
  · rw [hev.safe, hsafe]
  · rw [State.regN_congr (hev.regs _ (by decide) (by decide)), hscu]
  · rw [State.regN_congr (hev.regs _ (by decide) (by decide)), httu]
  · exact hge n 1 (by rw [htiles]; exact hn) (State.one_le_ssRaw h hfaults n)
  · exact hge n 2 (by rw [htiles]; exact hn) (State.two_le_ssRaw (h.imp (fun h => by rw [← h]; exact hfaults) (fun h => by rw [← h]; exact hfaults)))
  · simp only [List.mem_cons, List.not_mem_nil, or_false, not_or] at h3
    obtain ⟨g1, g2, g3, g4, g5, g6⟩ := h3
    refine (hev.regs off h1 g1).trans (hregs off ?_ (fun hin => evRegs_notSafety off hin h1) ?_)
    · simp only [List.mem_cons, List.not_mem_nil, or_false, not_or]
      exact ⟨g4, g5, g6⟩
    · simp only [List.mem_cons, List.not_mem_nil, or_false, not_or]
      exact ⟨g2, g3⟩
  · have hflags : t.reg f.off = u.reg f.off := by
      rw [hf]
      exact hev.regs _ (by decide) (by decide)
    rw [State.isF, State.isF, State.getF_congr hflags]

section
variable {s : State}

theorem safetyAbsent (s : State) {off : Nat} (h : 0x200000 ≤ off) : s.absentUnit off = false := s.absentUnit_of_le h

/-! ### Reset, loss of a channel, the acknowledgement (R355, R356) -/

theorem does_safety_inReset (tt : Bool) (v : BitVec 8) (n : Fin 2) (k : Fin 4) (a b : Bool) (hp : s.boot.porst = false) :
    ∀ c ∈ [Instr.channelLost tt, .statsRecord k a, .encoderEdge n tt a b, .sinSample tt v, .switchReadbackTimeout k a b], Does c s (fun t => t = s) := by
  have hcore : ∀ (c : Instr) (act : State → State), exec c s = .next (s.inCore act) → Does c s (fun t => t = s) := fun c act hx => by
    rw [State.inCore, if_neg (by rw [hp]; decide)] at hx
    exact ⟨_, hx, rfl⟩
  intro c hc
  simp only [List.mem_cons, List.not_mem_nil, or_false] at hc
  obtain rfl | rfl | rfl | rfl | rfl := hc
  · exact hcore _ _ rfl
  · have hx : exec (.statsRecord k a) s = execStatsRecord k a s := rfl
    rw [execStatsRecord, if_pos hp] at hx
    exact ⟨_, hx, rfl⟩
  · exact hcore _ _ rfl
  · exact hcore _ _ rfl
  · have hx : exec (.switchReadbackTimeout k a b) s = execSwitchReadbackTimeout k a b s := rfl
    rw [execSwitchReadbackTimeout, if_pos (.inl hp)] at hx
    exact ⟨_, hx, rfl⟩

theorem does_channelLost (tt : Bool) (hp : s.boot.porst = true) : Does (.channelLost tt) s (fun t =>
    (t.regN (if tt then rSAFETY_FAULT_TT else rSAFETY_FAULT_SC)).testBit 13 = true ∧ (∀ n, n < s.tiles → 1 ≤ t.ssOf n) ∧ t.mem = s.mem) := by
  refine does_inCore rfl hp ?_
  unfold State.channelLost
  extract_lets u
  have hu : OnlyRegs [rSAFETY_FAULT_SC, rSAFETY_FAULT_TT, rSAFETY_STATUS] s u ∧ (u.regN (if tt then rSAFETY_FAULT_TT else rSAFETY_FAULT_SC)).testBit 13 = true := by
    cases tt with
    | true =>
      obtain ⟨honly, hbit⟩ := s.latchTt_effect (b := 13) (by decide)
      refine ⟨OnlyRegs.setF ((OnlyRegs.refl _ s).setF (by decide)) (by decide), ?_⟩
      show ((((s.latchTt 13).setF fSAFETY_STATUS_SC_LOST 1)).regN rSAFETY_FAULT_TT).testBit 13 = true
      rw [State.regN_setF_other _ _ (by decide), hbit, decide_eq_true rfl, Bool.true_or]
    | false =>
      obtain ⟨honly, hbit⟩ := s.latchSc_effect (b := 13) (by decide)
      refine ⟨OnlyRegs.setF ((OnlyRegs.refl _ s).setF (by decide)) (by decide), ?_⟩
      show ((((s.latchSc 13).setF fSAFETY_STATUS_TT_LOST 1)).regN rSAFETY_FAULT_SC).testBit 13 = true
      rw [State.regN_setF_other _ _ (by decide), hbit, decide_eq_true rfl, Bool.true_or]
  obtain ⟨honly, hbit⟩ := hu
  clear_value u
  have hev := State.sfEv_quiet (.refl [] u) (k := evSAFETY_CHANNEL_LOST) (by decide) tt.toNat (if tt then srcTT else srcSC) 0
  have hfault : (if tt then rSAFETY_FAULT_TT else rSAFETY_FAULT_SC) ∈ [rSAFETY_FAULT_SC, rSAFETY_FAULT_TT] := by
    cases tt <;> decide
  generalize (if tt then rSAFETY_FAULT_TT else rSAFETY_FAULT_SC) = off at hbit hfault
  generalize u.sfEv _ _ _ _ = v at hev
  have hv : (v.regN off).testBit 13 = true := by
    rw [hev.regN (by simp) (by rintro h; simp only [List.mem_cons, List.not_mem_nil, or_false] at hfault; obtain rfl | rfl := hfault <;> exact absurd h (by decide)), hbit]
  have hfaults : v.faults.testBit 13 = true := by
    rw [State.faults_testBit]
    simp only [List.mem_cons, List.not_mem_nil, or_false] at hfault
    obtain rfl | rfl := hfault
    · rw [hv, Bool.true_or]
    · rw [hv, Bool.or_true]
  have htiles : v.tiles = s.tiles := State.tiles_of_loader (hev.loader.trans (by rw [honly.rest]))
  obtain ⟨hss, hge⟩ := v.updateSS_effect evSAFETY_CHANNEL_LOST.code
  refine ⟨?_, fun n hn => hge n 1 (by rw [htiles]; exact hn) (State.one_le_ssRaw (by decide) hfaults n), hss.mem.trans (hev.mem_eq.trans honly.mem_eq)⟩
  rw [State.regN_congr (hss.regs off ?_ ?_), hv]
  all_goals
    simp only [List.mem_cons, List.not_mem_nil, or_false] at hfault
    obtain rfl | rfl := hfault <;> decide

theorem State.ackRefuse_effect (s : State) (mask : Nat) : (s.ackRefuse mask).safe = { s.safe with ack := none }
    ∧ (s.ackRefuse mask).isF fSAFETY_FLAGS_ACK_REFUSED = true
    ∧ Quiet [rSAFETY_FLAGS, rSAFETY_ACK_REFUSED_COUNT] { s with safe := (s.ackRefuse mask).safe } (s.ackRefuse mask) := by
  unfold State.ackRefuse
  extract_lets u
  have hflag := u.isF_raise_self (f := fSAFETY_FLAGS_ACK_REFUSED) (c := rSAFETY_ACK_REFUSED_COUNT) rfl (by decide) (by decide)
  have hq : Quiet [rSAFETY_FLAGS, rSAFETY_ACK_REFUSED_COUNT] u (u.raise fSAFETY_FLAGS_ACK_REFUSED rSAFETY_ACK_REFUSED_COUNT) :=
    (Quiet.refl _ u).raise (.inl (by decide)) (.inl (by decide))
  generalize u.raise _ _ = v at hflag hq
  have hev := State.sfEv_quiet (.refl [] v) (k := evSAFETY_ACK_REFUSED) (by decide) 0 srcTT mask
  generalize v.sfEv _ _ _ _ = w at hev
  have hsafe : w.safe = u.safe := hev.safe.trans hq.safe
  refine ⟨hsafe, (hev.isF _ (by simp) (by decide)).trans hflag, ?_⟩
  have hall : Quiet [rSAFETY_FLAGS, rSAFETY_ACK_REFUSED_COUNT] u w := hq.trans (hev.mono (by simp))
  rw [hsafe]
  exact hall

theorem BitVec.toNat_not_xor (m : BitVec 32) : (~~~m).toNat = 0xFFFFFFFF ^^^ m.toNat := by
  rw [BitVec.not_def, BitVec.toNat_xor, BitVec.toNat_allOnes]

theorem does_ackTt_refused {v mask : Word} {from_ : Nat} (ht : Takes s rSAFETY_ACK_TT)
    (h : s.safe.ack = none ∨ s.safe.ack = some (mask.toNat, from_) ∧ (v ≠ ~~~mask ∨ from_ + ticksMs 10 < s.time.now)) :
    Does (.ackTt v) s (fun t => t.safe.ack = none ∧ t.isF fSAFETY_FLAGS_ACK_REFUSED = true
      ∧ Quiet [rSAFETY_FLAGS, rSAFETY_ACK_REFUSED_COUNT] { s with safe := t.safe } t) := by
  refine does_viaReg_present (act := fun s => s.ackTtWrite v.toNat) (s.absentUnit_of_le (by decide)) ht rfl ?_
  have hrefuse : ∀ m, (s.ackRefuse m).safe.ack = none ∧ (s.ackRefuse m).isF fSAFETY_FLAGS_ACK_REFUSED = true
      ∧ Quiet [rSAFETY_FLAGS, rSAFETY_ACK_REFUSED_COUNT] { s with safe := (s.ackRefuse m).safe } (s.ackRefuse m) := fun m => by
    obtain ⟨hsafe, hflag, hq⟩ := s.ackRefuse_effect m
    exact ⟨by rw [hsafe], hflag, hq⟩
  obtain h | ⟨h, hbad⟩ := h
  · have heq : s.ackTtWrite v.toNat = s.ackRefuse v.toNat := by
      rw [State.ackTtWrite, h]
    rw [heq]
    exact hrefuse _
  · have heq : s.ackTtWrite v.toNat = s.ackRefuse mask.toNat := by
      rw [State.ackTtWrite, h]
      refine if_pos (hbad.imp (fun hne heq => hne (BitVec.eq_of_toNat_eq ?_)) id)
      rw [BitVec.toNat_not_xor]
      exact heq
    rw [heq]
    exact hrefuse _

/-- The channels' records of the inputs, with the discrepancies of the faults `held` dropped. -/
def dropLatched (held : Nat) (l : List SinCh) : List SinCh := l.zipIdx.map (fun q => { q.1 with latched := q.1.latched && !held.testBit (3 + q.2) })

theorem nth_dropLatched_normal (held : Nat) (l : List SinCh) (i : Nat) : (nth {} (dropLatched held l) i).normal = (nth {} l i).normal := by
  rw [nth, nth, dropLatched, List.getD_eq_getElem?_getD, List.getD_eq_getElem?_getD, List.getElem?_map, List.getElem?_zipIdx]
  cases l[i]? with
  | none => rfl
  | some c => rfl

theorem State.ackClear_effect (s : State) {held : Nat} (hlow : (nth {} s.safe.sinTt 1).normal = false) :
    (s.ackClear held).safe.ack = none ∧ (s.ackClear held).regN rSAFETY_FAULT_SC = s.regN rSAFETY_FAULT_SC &&& (0xFFFFFFFF ^^^ held)
    ∧ (s.ackClear held).regN rSAFETY_FAULT_TT = s.regN rSAFETY_FAULT_TT &&& (0xFFFFFFFF ^^^ held) ∧ (s.ackClear held).mem = s.mem := by
  have hfit : ∀ off k : Nat, (s.regN off &&& k) % 2 ^ 32 = s.regN off &&& k := fun off k =>
    Nat.mod_eq_of_lt (Nat.lt_of_le_of_lt Nat.and_le_left (s.reg off).isLt)
  unfold State.ackClear
  extract_lets u drop v w
  have hsc : u.regN rSAFETY_FAULT_SC = s.regN rSAFETY_FAULT_SC &&& (0xFFFFFFFF ^^^ held) := by
    show ((s.setRegN rSAFETY_FAULT_SC _).setRegN rSAFETY_FAULT_TT _).regN rSAFETY_FAULT_SC = _
    rw [State.regN_setRegN_other _ _ (by decide), State.regN_setRegN, if_pos rfl, hfit]
  have htt : u.regN rSAFETY_FAULT_TT = s.regN rSAFETY_FAULT_TT &&& (0xFFFFFFFF ^^^ held) := by
    show ((s.setRegN rSAFETY_FAULT_SC _).setRegN rSAFETY_FAULT_TT _).regN rSAFETY_FAULT_TT = _
    rw [State.regN_setRegN, if_pos rfl, hfit]
  have hu : OnlyRegs [rSAFETY_FAULT_SC, rSAFETY_FAULT_TT] s u := ((OnlyRegs.refl _ s).setRegN (by decide)).setRegN (by decide)
  have hvsafe : v.safe = { u.safe with ack := none, sinSc := dropLatched held u.safe.sinSc, sinTt := dropLatched held u.safe.sinTt } := rfl
  have hvregs : v.regs = u.regs := rfl
  have hvmem : v.mem = u.mem := rfl
  clear_value v u
  have hpermit : ∀ l : List Nat, (∀ k ∈ l, k < 2) → ∀ x, OnlyRegs [rSAFETY_ACT_STATUS 0, rSAFETY_ACT_STATUS 1] v x →
      OnlyRegs [rSAFETY_ACT_STATUS 0, rSAFETY_ACT_STATUS 1] v (l.foldl (fun s n =>
        if held.testBit (11 + n) then (s.setF (fSAFETY_ACT_STATUS_SC_PERMITS n) 1).setF (fSAFETY_ACT_STATUS_TT_PERMITS n) 1 else s) x) := by
    intro l
    induction l with
    | nil => exact fun _ _ h => h
    | cons k l ih =>
      intro hl x h
      obtain ⟨hk, hl⟩ := List.forall_mem_cons.1 hl
      have hin : rSAFETY_ACT_STATUS k ∈ [rSAFETY_ACT_STATUS 0, rSAFETY_ACT_STATUS 1] := by
        obtain rfl | rfl : k = 0 ∨ k = 1 := by omega
        all_goals decide
      rw [List.foldl_cons]
      refine ih hl _ ?_
      split
      · exact OnlyRegs.setF (OnlyRegs.setF h hin) hin
      · exact h
  have hw : OnlyRegs [rSAFETY_ACT_STATUS 0, rSAFETY_ACT_STATUS 1] v w := hpermit [0, 1] (by decide) v (.refl _ v)
  clear_value w
  have hev := State.sfEv_quiet (.refl [] w) (k := evSAFETY_FAULT_ACK) (by decide) 0 srcTT held
  generalize w.sfEv _ _ _ _ = x at hev
  have hxsafe : x.safe = v.safe := hev.safe.trans hw.safe
  have hreg : ∀ off, off ∈ [rSAFETY_FAULT_SC, rSAFETY_FAULT_TT] → x.regN off = u.regN off := fun off ho => by
    rw [hev.regN (by simp) ?_, State.regN_congr (hw.regs off ?_), State.regN_congr (State.reg_of_regs hvregs off)]
    all_goals
      simp only [List.mem_cons, List.not_mem_nil, or_false] at ho
      obtain rfl | rfl := ho <;> decide
  have hxlow : (nth {} x.safe.sinTt 1).normal = false := by
    rw [hxsafe, hvsafe, hu.safe]
    exact (nth_dropLatched_normal _ _ _).trans hlow
  obtain ⟨hack, h1, h2⟩ := x.sinDecide_low 0 hxlow
  refine ⟨by rw [hack, hxsafe, hvsafe], by rw [h1, hreg _ (by decide), hsc], by rw [h2, hreg _ (by decide), htt], ?_⟩
  rw [(x.sinDecide_decided 0).mem, hev.mem_eq, hw.mem_eq, hvmem, hu.mem_eq]

theorem does_ackTt_accepted {v mask : Word} {from_ : Nat} (ht : Takes s rSAFETY_ACK_TT) (hack : s.safe.ack = some (mask.toNat, from_)) (hv : v = ~~~mask)
    (hin : s.time.now ≤ from_ + ticksMs 10) (hlow : (nth {} s.safe.sinTt 1).normal = false)
    (hgone : ∀ b, b < 20 → (s.faults &&& mask.toNat &&& 0xFFFFF).testBit b = true → s.persists b = false) :
    Does (.ackTt v) s (fun t => t.safe.ack = none
      ∧ t.regN rSAFETY_FAULT_SC = s.regN rSAFETY_FAULT_SC &&& (0xFFFFFFFF ^^^ (s.faults &&& mask.toNat &&& 0xFFFFF))
      ∧ t.regN rSAFETY_FAULT_TT = s.regN rSAFETY_FAULT_TT &&& (0xFFFFFFFF ^^^ (s.faults &&& mask.toNat &&& 0xFFFFF)) ∧ t.mem = s.mem) := by
  refine does_viaReg_present (act := fun s => s.ackTtWrite v.toNat) (s.absentUnit_of_le (by decide)) ht rfl ?_
  have heq : s.ackTtWrite v.toNat = s.ackClear (s.faults &&& mask.toNat &&& 0xFFFFF) := by
    rw [State.ackTtWrite, hack]
    refine (if_neg ?_).trans (if_neg ?_)
    · rintro (hne | hlate)
      · exact hne (by rw [hv, BitVec.toNat_not_xor])
      · omega
    · rw [List.any_eq_true]
      rintro ⟨b, hb, hbad⟩
      rw [Bool.and_eq_true] at hbad
      exact absurd hbad.2 (by rw [hgone b (List.mem_range.1 hb) hbad.1]; decide)
  show (s.ackTtWrite v.toNat).safe.ack = none ∧ _
  rw [heq]
  exact s.ackClear_effect hlow

theorem does_ackWindowExpiry : (s.safe.ack = none → Does .ackWindowExpiry s (fun t => t = s))
    ∧ ∀ m from_, s.safe.ack = some (m, from_) →
      (from_ + ticksMs 10 < s.time.now → Does .ackWindowExpiry s (fun t => t.safe = { s.safe with ack := none }
        ∧ t.isF fSAFETY_FLAGS_ACK_REFUSED = true ∧ Quiet [rSAFETY_FLAGS, rSAFETY_ACK_REFUSED_COUNT] { s with safe := t.safe } t))
      ∧ (s.time.now ≤ from_ + ticksMs 10 → Does .ackWindowExpiry s (fun t => t = s)) := by
  have hx : exec .ackWindowExpiry s = execAckWindowExpiry s := rfl
  refine ⟨fun h => ?_, fun m from_ h => ⟨fun hlate => ?_, fun hin => ?_⟩⟩
  · rw [execAckWindowExpiry, h] at hx
    exact ⟨_, hx, rfl⟩
  · rw [execAckWindowExpiry, h] at hx
    refine ⟨s.ackRefuse m, hx.trans (congrArg _ (if_pos hlate)), s.ackRefuse_effect m⟩
  · rw [execAckWindowExpiry, h] at hx
    exact ⟨s, hx.trans (congrArg _ (if_neg (Nat.not_lt.2 hin))), rfl⟩

end

end Sys2Proof.Machine

/-! ## Statistics records, the hold, switches and test pulses (R361, R364, R371 to R373, R457) -/

namespace Sys2Proof.Machine

section
variable {s : State}

/-! ### Statistics records (R361 to R363) -/

theorem ViolKept.scOk {u t : State} (h : ViolKept u t) (n : Nat) (ok : Bool) : ViolKept u (t.updSafeT n (fun x => { x with scOk := ok })) := h.updSafeT n fun _ => rfl

theorem State.statsCheck_kept (s : State) (n : Nat) (r : StatRec) : (s.statsCheck n r).mem = s.mem ∧ ((s.statsCheck n r).safeT n).stat = (none, false, r.bands) := by
  unfold State.statsCheck
  extract_lets u v bad w
  have hu : (u.safeT n).stat = (none, false, r.bands) ∧ u.mem = s.mem := ⟨congrArg SafeTile.stat (s.safeT_updSafeT n _), rfl⟩
  have hv : ViolKept u v := (ViolKept.refl u).pitchShift
  clear_value u v
  have hw : ViolKept u w := ViolKept.foldl (fun _ _ hx => hx.dynViol _ _ _) _ hv
  clear_value w
  have hmask := hw.maskCheck n r
  generalize w.maskCheck n r = q at hmask
  obtain ⟨m, x⟩ := q
  dsimp only
  have hroi := ViolKept.roiCheck hmask n r
  change ViolKept u (x.roiCheck n r).2 at hroi
  generalize x.roiCheck n r = q at hroi
  obtain ⟨o, y⟩ := q
  dsimp only
  have hdam : ViolKept u (y.damageCheck n) := ViolKept.damageCheck hroi n
  generalize y.damageCheck n = z at hdam
  generalize (bad.isEmpty && m && o) = ok
  have hend : ViolKept u (z.updSafeT n (fun t => { t with scOk := ok })) := hdam.scOk n ok
  exact ⟨hend.mem.trans hu.2, (hend.stat n).trans hu.1⟩

theorem State.updSafeT_rest (s : State) (n : Nat) (F : SafeTile → SafeTile) : s.updSafeT n F = { s with safeTile := (s.updSafeT n F).safeTile } := rfl

/-- A quiet change, seen with other tiles of the safety plane. -/
theorem Quiet.withTile {l : List Nat} {s u : State} (q : Quiet l s u) (x : List (Nat × SafeTile)) : Quiet l { s with safeTile := x } { u with safeTile := x } :=
  ⟨by rw [q.rest], q.regs⟩

theorem Quiet.of_tile {l : List Nat} {s u v : State} {x : List (Nat × SafeTile)} (q : Quiet l s { u with safeTile := x }) (h : v = { u with safeTile := x }) : Quiet l s v := by
  rw [h]
  exact q

theorem State.statsMissing_effect (s : State) (n : Nat) (h : (s.safeT n).missed = false) :
    (s.statsMissing n).safeT n = { s.safeT n with missed := true, scOk := false, record := none } ∧ (s.statsMissing n).isF fSAFETY_FLAGS_STATS_MISSING = true
    ∧ Quiet [rSAFETY_FLAGS, rSAFETY_STATS_MISSING_COUNT] { s with safeTile := (s.statsMissing n).safeTile } (s.statsMissing n) := by
  unfold State.statsMissing
  extract_lets twice u v w
  have htwice : ¬twice = true := by
    rw [show twice = false from h]
    decide
  rw [if_neg htwice]
  have hflag : u.isF fSAFETY_FLAGS_STATS_MISSING = true := s.isF_raise_self rfl (by decide) (by decide)
  have hu : Quiet [rSAFETY_FLAGS, rSAFETY_STATS_MISSING_COUNT] s u := (Quiet.refl _ s).raise (.inl (by decide)) (.inl (by decide))
  clear_value u
  have hev : Quiet [] u v := State.sfEv_quiet (.refl [] u) (by decide) _ _ _
  clear_value v
  have hv : Quiet [rSAFETY_FLAGS, rSAFETY_STATS_MISSING_COUNT] s v := hu.trans (hev.mono (by simp))
  have hflagv : v.isF fSAFETY_FLAGS_STATS_MISSING = true := (hev.isF _ (by simp) (by decide)).trans hflag
  have hget : v.safeT n = s.safeT n := by rw [State.safeT, State.safeT, hv.safeTile]
  have hw : w = { v with safeTile := w.safeTile } := v.updSafeT_rest n _
  have hwget : w.safeT n = { v.safeT n with missed := true, scOk := false, record := none } := v.safeT_updSafeT n _
  clear_value w
  rw [hget] at hwget
  refine ⟨hwget, ?_, ?_⟩
  · rw [hw]
    exact hflagv
  · exact (hv.withTile w.safeTile).of_tile hw

theorem does_statsRecord (n : Fin 4) (hp : s.boot.porst = true) :
    (∀ ok : Bool, (s.safeT n).record = none → Does (.statsRecord n ok) s (fun t => t = s))
    ∧ ∀ r, (s.safeT n).record = some r →
      (∀ ok : Bool, s.tgState n = tgOFF → Does (.statsRecord n ok) s (fun t => t.safeT n = { s.safeT n with record := none }
        ∧ t = { s with safeTile := t.safeTile }))
      ∧ (s.tgState n ≠ tgOFF → Does (.statsRecord n true) s (fun t => (t.safeT n).record = none ∧ (t.safeT n).missed = false
        ∧ (t.safeT n).bandsNext = r.bands ∧ t.mem = s.mem))
      ∧ (s.tgState n ≠ tgOFF → (s.safeT n).missed = false → Does (.statsRecord n false) s (fun t =>
        t.safeT n = { s.safeT n with missed := true, scOk := false, record := none } ∧ t.isF fSAFETY_FLAGS_STATS_MISSING = true
        ∧ Quiet [rSAFETY_FLAGS, rSAFETY_STATS_MISSING_COUNT] { s with safeTile := t.safeTile } t)) := by
  have hp' : ¬s.boot.porst = false := by rw [hp]; decide
  have hx : ∀ ok, exec (.statsRecord n ok) s = execStatsRecord n ok s := fun _ => rfl
  refine ⟨fun ok h => ?_, fun r h => ⟨fun ok hoff => ?_, fun hoff => ?_, fun hoff hm => ?_⟩⟩
  · have hx := hx ok
    rw [execStatsRecord, if_neg hp', h] at hx
    exact ⟨_, hx, rfl⟩
  · have hx := hx ok
    rw [execStatsRecord, if_neg hp', h] at hx
    exact ⟨s.updSafeT n (fun t => { t with record := none }), hx.trans (congrArg _ (if_pos hoff)), s.safeT_updSafeT n _, rfl⟩
  · have hx := hx true
    rw [execStatsRecord, if_neg hp', h] at hx
    obtain ⟨hmem, hstat⟩ := s.statsCheck_kept n r
    refine ⟨s.statsCheck n r, hx.trans (congrArg _ (if_neg hoff)), ?_⟩
    generalize s.statsCheck n r = t at hmem hstat
    exact ⟨congrArg Prod.fst hstat, congrArg (fun q => q.2.1) hstat, congrArg (fun q => q.2.2) hstat, hmem⟩
  · have hx := hx false
    rw [execStatsRecord, if_neg hp', h] at hx
    exact ⟨s.statsMissing n, hx.trans (congrArg _ (if_neg hoff)), s.statsMissing_effect n hm⟩

theorem does_ss1HoldExpiry : (s.safe.stream = true → s.safe.streamT + s.holdTicks ≤ s.time.now → Does .ss1HoldExpiry s (fun t =>
      t.safe.stream = false ∧ t.mem = s.mem))
    ∧ (s.time.now < s.safe.streamT + s.holdTicks → Does .ss1HoldExpiry s (fun t => t = s)) := by
  have hx : exec .ss1HoldExpiry s = execSs1HoldExpiry s := rfl
  refine ⟨fun h1 h2 => ?_, fun h => ?_⟩
  · rw [execSs1HoldExpiry, if_pos ⟨h1, h2⟩] at hx
    refine ⟨_, hx, ?_⟩
    have hsafe : (s.updSafe (fun x => { x with stream := false })).safe.stream = false ∧ (s.updSafe (fun x => { x with stream := false })).mem = s.mem := ⟨rfl, rfl⟩
    generalize s.updSafe (fun x => { x with stream := false }) = u at hsafe
    obtain ⟨hss, -⟩ := u.updateSS_effect 0
    exact ⟨by rw [hss.safe]; exact hsafe.1, hss.mem.trans hsafe.2⟩
  · rw [execSs1HoldExpiry, if_neg (by rintro ⟨-, hle⟩; omega)] at hx
    exact ⟨_, hx, rfl⟩

/-! ### Switches (R371) -/

theorem State.switchFail_effect (s : State) {n : Nat} (hn : n < 16) (low closed : Bool) : FaultBoth (7 + n) s (s.switchFail n low closed)
    ∧ (s.switchFail n low closed).isF fSAFETY_FLAGS_SWITCH_FAIL = true := by
  unfold State.switchFail
  extract_lets u v
  have hflag : u.isF fSAFETY_FLAGS_SWITCH_FAIL = true := State.isF_raise_self _ rfl (by decide) (by decide)
  have hu : Quiet [rSAFETY_FLAGS, rSAFETY_SWITCH_FAIL_COUNT, rSAFETY_ACT_FAULT_COUNT] (s.latchBoth (7 + n)) u :=
    (Quiet.refl _ _).raise (.inl (by decide)) (.inl (by decide))
  clear_value u
  have hev : Quiet [] u v := State.sfEv_quiet (.refl [] u) (by decide) _ _ _
  clear_value v
  obtain ⟨hboth, hkeep⟩ := s.updateSS_faultBoth (b := 7 + n) (by omega) (hu.trans (hev.mono (by simp))) evSAFETY_SWITCH_FAIL.code
  exact ⟨hboth, (hkeep _ rfl).trans ((hev.isF _ (by simp) (by decide)).trans hflag)⟩

/-- A switch of tile `n` is found at fault: its bits, the flag, the tile dark. -/
def SwitchFailed (n : Nat) (m : List Host.Cell) (t : State) : Prop :=
  (t.regN rSAFETY_FAULT_SC).testBit (7 + n) = true ∧ (t.regN rSAFETY_FAULT_TT).testBit (7 + n) = true ∧ t.isF fSAFETY_FLAGS_SWITCH_FAIL = true ∧ 2 ≤ t.ssOf n ∧ t.mem = m

theorem State.switchFail_failed (s : State) {n : Nat} (hn : n < s.tiles) (low closed : Bool) : SwitchFailed n s.mem (s.switchFail n low closed)
    ∧ (s.switchFail n low closed).loader = s.loader := by
  obtain ⟨hboth, hflag⟩ := s.switchFail_effect (n := n) (by have := s.tiles_le; omega) low closed
  exact ⟨⟨hboth.sc, hboth.tt, hflag, hboth.two n (.inl rfl) hn, hboth.mem⟩, hboth.loader⟩

/-- One at least of two switch faults of a tile is found. -/
theorem State.switchFail_either (s : State) {n : Nat} (hn : n < s.tiles) {a b : Prop} [Decidable a] [Decidable b] (h : a ∨ b) (x y : Bool) :
    SwitchFailed n s.mem (if b then (if a then s.switchFail n false x else s).switchFail n true y else if a then s.switchFail n false x else s) := by
  obtain ⟨hfail, hloader⟩ := s.switchFail_failed hn false x
  by_cases ha : a
  · rw [if_pos ha]
    by_cases hb : b
    · rw [if_pos hb]
      generalize s.switchFail n false x = u at hfail hloader
      have hagain := (u.switchFail_failed (n := n) (by rw [State.tiles_of_loader hloader]; exact hn) true y).1
      rw [hfail.2.2.2.2] at hagain
      exact hagain
    · rw [if_neg hb]
      exact hfail
  · rw [if_neg ha, if_pos (h.resolve_left ha)]
    exact (s.switchFail_failed hn true y).1

/-- The read-backs of tile `n` as they are read. -/
def State.readBoth (s : State) (n : Nat) (hs ls : Bool) : State := s.updSafeT n (fun x => (x.readHs hs).readLs ls)

theorem State.readBoth_effect (s : State) (n : Nat) (hs ls : Bool) : (s.readBoth n hs ls).safeT n = { s.safeT n with hsFb := hs, hsFbT := hs, lsFb := ls, lsFbT := ls }
    ∧ s.readBoth n hs ls = { s with safeTile := (s.readBoth n hs ls).safeTile } := ⟨s.safeT_updSafeT n _, rfl⟩

/-- Both switches of an open tile read closed: the fault of all tiles (R371). -/
def State.allOpenFail (s : State) (t : SafeTile) (hs ls : Bool) : State :=
  if t.hs = false ∧ t.ls = false ∧ hs ∧ ls ∧ s.faults.testBit 15 = false then (s.latchBoth 15).updateSS evSAFETY_SWITCH_FAIL.code else s

theorem State.allOpenFail_kept (s : State) (t : SafeTile) (hs ls : Bool) : (s.allOpenFail t hs ls).mem = s.mem ∧ (s.allOpenFail t hs ls).loader = s.loader := by
  obtain ⟨hboth, -⟩ := s.updateSS_faultBoth (b := 15) (by decide) (.refl _ _) evSAFETY_SWITCH_FAIL.code
  unfold State.allOpenFail
  split
  · exact ⟨hboth.mem, hboth.loader⟩
  · exact ⟨rfl, rfl⟩

theorem exec_switchReadbackTimeout (n : Fin 4) (hs ls : Bool) (h : ¬(s.boot.porst = false ∨ (s.safeT n).test.isSome = true)) :
    exec (.switchReadbackTimeout n hs ls) s = .next
      (let u := (s.readBoth n hs ls).allOpenFail (s.safeT n) hs ls
       if ls ≠ (s.safeT n).ls then (if hs ≠ (s.safeT n).hs then u.switchFail n false hs else u).switchFail n true ls
       else if hs ≠ (s.safeT n).hs then u.switchFail n false hs else u) := congrArg _ (if_neg h)

theorem does_switchReadbackTimeout (n : Fin 4) (hs ls : Bool) (hp : s.boot.porst = true) (htest : (s.safeT n).test = none) :
    (hs = (s.safeT n).hs → ls = (s.safeT n).ls → Does (.switchReadbackTimeout n hs ls) s (fun t =>
      t.safeT n = { s.safeT n with hsFb := hs, hsFbT := hs, lsFb := ls, lsFbT := ls } ∧ t = { s with safeTile := t.safeTile }))
    ∧ (hs ≠ (s.safeT n).hs ∨ ls ≠ (s.safeT n).ls → n < s.tiles →
      Does (.switchReadbackTimeout n hs ls) s (fun t => (t.regN rSAFETY_FAULT_SC).testBit (7 + n.val) = true
        ∧ (t.regN rSAFETY_FAULT_TT).testBit (7 + n.val) = true ∧ t.isF fSAFETY_FLAGS_SWITCH_FAIL = true ∧ 2 ≤ t.ssOf n ∧ t.mem = s.mem)) := by
  have hx := exec_switchReadbackTimeout (s := s) n hs ls (by rw [hp, htest]; rintro (h | h) <;> exact absurd h (by decide))
  obtain ⟨hread, hrest⟩ := s.readBoth_effect n hs ls
  generalize s.readBoth n hs ls = u at hx hread hrest
  refine ⟨fun h1 h2 => ?_, fun hne hn => ?_⟩
  · have hagree : u.allOpenFail (s.safeT n) hs ls = u := by
      refine if_neg ?_
      rintro ⟨h3, -, h4, -⟩
      rw [h1, h3] at h4
      exact absurd h4 (by decide)
    rw [hagree, if_neg (not_not_intro h2), if_neg (not_not_intro h1)] at hx
    exact ⟨_, hx, hread, hrest⟩
  · have hkept := u.allOpenFail_kept (s.safeT n) hs ls
    refine ⟨_, hx, ?_⟩
    generalize u.allOpenFail (s.safeT n) hs ls = v at hkept
    have hmem : v.mem = s.mem := hkept.1.trans (by rw [hrest])
    have hloader : v.loader = s.loader := hkept.2.trans (by rw [hrest])
    have hfail := v.switchFail_either (n := n) (by rw [State.tiles_of_loader hloader]; exact hn) hne hs ls
    rw [hmem] at hfail
    exact hfail

theorem does_fallbackAckTimeout (n : Fin 4) : ((s.safeT n).fbTimer = false → Does (.fallbackAckTimeout n) s (fun t => t = s))
    ∧ ((s.safeT n).fbTimer = true → n < s.tiles → Does (.fallbackAckTimeout n) s (fun t =>
      (t.regN rSAFETY_FAULT_SC).testBit (16 + n.val) = true ∧ (t.regN rSAFETY_FAULT_TT).testBit (16 + n.val) = true ∧ 2 ≤ t.ssOf n
      ∧ t.mem = s.mem)) := by
  have hx : exec (.fallbackAckTimeout n) s = execFallbackAckTimeout n s := rfl
  refine ⟨fun h => ?_, fun h hn => ?_⟩
  · rw [execFallbackAckTimeout, if_neg (by rw [h]; decide)] at hx
    exact ⟨_, hx, rfl⟩
  · rw [execFallbackAckTimeout, if_pos h] at hx
    refine ⟨_, hx, ?_⟩
    have hu : (s.updSafeT n (fun t => { t with fbTimer := false })).mem = s.mem ∧ (s.updSafeT n (fun t => { t with fbTimer := false })).loader = s.loader := ⟨rfl, rfl⟩
    generalize s.updSafeT n (fun t => { t with fbTimer := false }) = u at hu
    obtain ⟨hboth, -⟩ := u.updateSS_faultBoth (b := 16 + n) (by omega) (.refl _ _) evZTL_FB_ACK_LATE.code
    exact ⟨hboth.sc, hboth.tt, hboth.two n (.inr rfl) (by rw [State.tiles_of_loader hu.2]; exact hn), hboth.mem.trans hu.1⟩

/-! ### Test pulses (R372, R373) -/

/-- A test that has fallen due at tile `n`. -/
def State.markDue (s : State) (n : Nat) (high : Bool) : State := s.updSafeT n (fun x => { x with due := some high })

theorem State.markDue_effect (s : State) (n : Nat) (high : Bool) : (s.markDue n high).safeT n = { s.safeT n with due := some high }
    ∧ s.markDue n high = { s with safeTile := (s.markDue n high).safeTile } := ⟨s.safeT_updSafeT n _, rfl⟩

/-- The enable of one side has fallen for its test. -/
def SafeTile.fallen (t : SafeTile) (high : Bool) : SafeTile :=
  if high then { t with hs := false, hsFb := follow t.hs t.hsFb false, hsFbT := follow t.hs t.hsFbT false, test := some high }
  else { t with ls := false, lsFb := follow t.ls t.lsFb false, lsFbT := follow t.ls t.lsFbT false, test := some high }

theorem State.pulseFall_falls (s : State) {n : Nat} {high : Bool} (hdue : (s.safeT n).due = some high) (hhs : (s.safeT n).hs = true) (hls : (s.safeT n).ls = true)
    (hss : s.ssOf n < 2) : (s.pulseFall n).safeT n = ({ s.safeT n with due := none } : SafeTile).fallen high
    ∧ s.pulseFall n = { s with safeTile := (s.pulseFall n).safeTile } := by
  have heq : s.pulseFall n = (if high then (s.updSafeT n (fun x => { x with due := none })).setHs n false
      else (s.updSafeT n (fun x => { x with due := none })).setLs n false).updSafeT n (fun x => { x with test := some high }) := by
    rw [State.pulseFall, hdue]
    refine if_neg ?_
    rw [hhs, hls]
    rintro (h | h | h)
    · exact absurd h (by decide)
    · exact absurd h (by decide)
    · exact absurd (show 2 ≤ s.ssOf n from h) (by omega)
  have hget : (s.updSafeT n (fun x => { x with due := none })).safeT n = { s.safeT n with due := none } := s.safeT_updSafeT n _
  have hrest : s.updSafeT n (fun x => { x with due := none }) = { s with safeTile := (s.updSafeT n (fun x => { x with due := none })).safeTile } := rfl
  rw [heq]
  generalize s.updSafeT n (fun x => { x with due := none }) = u at hget hrest
  cases high with
  | true =>
    refine ⟨(State.safeT_updSafeT _ _ _).trans ?_, by rw [hrest]; rfl⟩
    rw [if_pos rfl, State.setHs, State.safeT_updSafeT, hget]
    rfl
  | false =>
    refine ⟨(State.safeT_updSafeT _ _ _).trans ?_, by rw [hrest]; rfl⟩
    rw [if_neg (by decide), State.setLs, State.safeT_updSafeT, hget]
    rfl

theorem State.pulseFall_skips (s : State) {n : Nat} {high : Bool} (hdue : (s.safeT n).due = some high) (h : (s.safeT n).hs = false ∨ (s.safeT n).ls = false) :
    (s.pulseFall n).isF fSAFETY_FLAGS_TEST_SKIP = true ∧ ((s.pulseFall n).safeT n).due = none
    ∧ Quiet [rSAFETY_FLAGS, rSAFETY_TEST_SKIP_COUNT] { s with safeTile := (s.pulseFall n).safeTile } (s.pulseFall n) := by
  have heq : s.pulseFall n = ((s.updSafeT n (fun x => { x with due := none })).raise fSAFETY_FLAGS_TEST_SKIP rSAFETY_TEST_SKIP_COUNT).sfEv evSAFETY_TEST_SKIPPED
      (2 * n + (!high).toNat) (if high then srcSC else srcTT) (2 ^ 30 * n + (!high).toNat * 2) := by
    rw [State.pulseFall, hdue]
    exact if_pos (h.imp id .inl)
  have hget : (s.updSafeT n (fun x => { x with due := none })).safeT n = { s.safeT n with due := none } := s.safeT_updSafeT n _
  have hrest : s.updSafeT n (fun x => { x with due := none }) = { s with safeTile := (s.updSafeT n (fun x => { x with due := none })).safeTile } := rfl
  rw [heq]
  generalize s.updSafeT n (fun x => { x with due := none }) = u at hget hrest
  have hflag := u.isF_raise_self (f := fSAFETY_FLAGS_TEST_SKIP) (c := rSAFETY_TEST_SKIP_COUNT) rfl (by decide) (by decide)
  have hu : Quiet [rSAFETY_FLAGS, rSAFETY_TEST_SKIP_COUNT] u (u.raise fSAFETY_FLAGS_TEST_SKIP rSAFETY_TEST_SKIP_COUNT) :=
    (Quiet.refl _ u).raise (.inl (by decide)) (.inl (by decide))
  generalize u.raise fSAFETY_FLAGS_TEST_SKIP rSAFETY_TEST_SKIP_COUNT = v at hflag hu
  have hev := State.sfEv_quiet (.refl [] v) (k := evSAFETY_TEST_SKIPPED) (by decide) (2 * n + (!high).toNat) (if high then srcSC else srcTT) (2 ^ 30 * n + (!high).toNat * 2)
  generalize v.sfEv _ _ _ _ = w at hev
  have hall : Quiet [rSAFETY_FLAGS, rSAFETY_TEST_SKIP_COUNT] u w := hu.trans (hev.mono (by simp))
  have htile : w.safeTile = u.safeTile := hall.safeTile
  refine ⟨(hev.isF _ (by simp) (by decide)).trans hflag, ?_, ?_⟩
  · rw [State.safeT, htile, ← State.safeT, hget]
  · rw [htile, ← hrest]
    exact hall

theorem exec_testPulse (n : Fin 4) (low : Bool) (hen : s.isF fSAFETY_TEST_CFG_EN = true) (htest : (s.safeT n).test = none) (hdue : (s.safeT n).due = none) :
    exec (.testPulse n low) s = .next (if (s.safeT n).hs = false ∨ (s.safeT n).ls = false ∨ 2 ≤ s.ssOf n then (s.markDue n (!low)).pulseFall n
      else (s.markDue n (!low)).pulseMark n) :=
  congrArg _ (if_neg (by rw [hen, htest, hdue]; rintro (h | h | h) <;> exact absurd h (by decide)))

theorem does_testPulse_lit (n : Fin 4) (low : Bool) (hen : s.isF fSAFETY_TEST_CFG_EN = true) (htest : (s.safeT n).test = none)
    (hdue : (s.safeT n).due = none) (hhs : (s.safeT n).hs = true) (hls : (s.safeT n).ls = true) (hss : s.ssOf n < 2) :
    (s.tgState n = tgOFF → Does (.testPulse n low) s (fun t =>
      (t.safeT n).test = some (!low) ∧ (t.safeT n).hs = low ∧ (t.safeT n).ls = !low ∧ t = { s with safeTile := t.safeTile }))
    ∧ (s.tgState n ≠ tgOFF → Does (.testPulse n low) s (fun t => t.safeT n = { s.safeT n with due := some (!low) }
      ∧ t.tgOf n = (if s.lampRat < (s.tgOf n).e - (s.timing.guardT : Nat) then { s.tgOf n with pulse := true }
          else { s.tgOf n with pulseNext := true })
      ∧ t = { s with safeTile := t.safeTile, tg := t.tg })) := by
  have hx := exec_testPulse (s := s) n low hen htest hdue
  rw [if_neg (by rw [hhs, hls]; rintro (h | h | h); exacts [absurd h (by decide), absurd h (by decide), absurd h (by omega)])] at hx
  obtain ⟨hget, hrest⟩ := s.markDue_effect n (!low)
  generalize s.markDue n (!low) = u at hx hget hrest
  have hstate : u.tgState n = s.tgState n := by rw [hrest]; rfl
  have hssu : u.ssOf n = s.ssOf n := by rw [hrest]; rfl
  refine ⟨fun hoff => ⟨_, hx, ?_⟩, fun hoff => ⟨_, hx, ?_⟩⟩
  · rw [State.pulseMark, if_pos (hstate.trans hoff)]
    obtain ⟨hfall, hfrest⟩ := u.pulseFall_falls (n := n) (high := !low) (by rw [hget]) (by rw [hget]; exact hhs) (by rw [hget]; exact hls) (by omega)
    generalize u.pulseFall n = v at hfall hfrest
    rw [hfall, hget]
    have hend : v = { s with safeTile := v.safeTile } := by rw [hfrest, hrest]
    cases low with
    | true => exact ⟨rfl, hhs, rfl, hend⟩
    | false => exact ⟨rfl, rfl, hls, hend⟩
  · rw [State.pulseMark, if_neg (fun h => hoff (hstate.symm.trans h))]
    have htg : u.tgOf n = s.tgOf n := by rw [hrest]; rfl
    have hlamp : u.lampRat = s.lampRat := by rw [hrest]; rfl
    have htim : u.timing = s.timing := by rw [hrest]; rfl
    rw [← htg, ← hlamp, ← htim]
    have hset : ∀ F : Tg → Tg, (u.updTg n F).safeT n = { s.safeT n with due := some (!low) } ∧ (u.updTg n F).tgOf n = F (u.tgOf n)
        ∧ u.updTg n F = { s with safeTile := (u.updTg n F).safeTile, tg := (u.updTg n F).tg } := fun F =>
      ⟨hget, u.tgOf_updTg n F, by rw [hrest]; rfl⟩
    split
    · exact hset _
    · exact hset _

theorem does_testPulse_skipped (n : Fin 4) (low : Bool) (hen : s.isF fSAFETY_TEST_CFG_EN = true) (htest : (s.safeT n).test = none)
    (hdue : (s.safeT n).due = none) (h : (s.safeT n).hs = false ∨ (s.safeT n).ls = false) :
    Does (.testPulse n low) s (fun t => t.isF fSAFETY_FLAGS_TEST_SKIP = true
      ∧ (t.safeT n).due = none ∧ Quiet [rSAFETY_FLAGS, rSAFETY_TEST_SKIP_COUNT] { s with safeTile := t.safeTile } t) := by
  have hx := exec_testPulse (s := s) n low hen htest hdue
  rw [if_pos (h.imp id .inl)] at hx
  obtain ⟨hget, hrest⟩ := s.markDue_effect n (!low)
  generalize s.markDue n (!low) = u at hx hget hrest
  refine ⟨_, hx, ?_⟩
  obtain ⟨hflag, hnone, hq⟩ := u.pulseFall_skips (n := n) (high := !low) (by rw [hget]) (by rw [hget]; exact h)
  generalize u.pulseFall n = v at hflag hnone hq
  have hsame : ({ u with safeTile := v.safeTile } : State) = { s with safeTile := v.safeTile } := by rw [hrest]
  rw [hsame] at hq
  exact ⟨hflag, hnone, hq⟩

/-- The test of tile `n` is over. -/
def State.testOver (s : State) (n : Nat) : State := s.updSafeT n (fun x => { x with test := none })

/-- The enable that was tested rises, and reads `fin`. -/
def SafeTile.risen (t : SafeTile) (high fin : Bool) : SafeTile := if high then { t with hs := true }.readHs fin else { t with ls := true }.readLs fin

theorem exec_testPulseEnd (n : Fin 4) (mid fin : Bool) {high : Bool} (htest : (s.safeT n).test = some high) (hdue : (s.safeT n).due = none) (hss : s.ssOf n < 2) :
    exec (.testPulseEnd n mid fin) s = .next
      (let u := (s.testOver n).updSafeT n (fun x => x.risen high fin)
       if mid then u.switchFail n (!high) true else if fin = false then u.switchFail n (!high) false else u) := by
  have hfall : s.pulseFall n = s := by rw [State.pulseFall, hdue]
  have hx : exec (.testPulseEnd n mid fin) s = execTestPulseEnd n mid fin s := rfl
  rw [execTestPulseEnd, hfall, htest] at hx
  exact hx.trans (congrArg _ (if_neg (by show ¬2 ≤ s.ssOf n; omega)))

theorem does_testPulseEnd (n : Fin 4) (mid fin high : Bool) (htest : (s.safeT n).test = some high) (hdue : (s.safeT n).due = none) (hss : s.ssOf n < 2) :
    (mid = false → fin = true → Does (.testPulseEnd n mid fin) s (fun t => (t.safeT n).test = none
      ∧ (high = true → (t.safeT n).hs = true ∧ (t.safeT n).hsFb = true ∧ (t.safeT n).hsFbT = true)
      ∧ (high = false → (t.safeT n).ls = true ∧ (t.safeT n).lsFb = true ∧ (t.safeT n).lsFbT = true)
      ∧ t = { s with safeTile := t.safeTile }))
    ∧ (mid = true ∨ fin = false → n < s.tiles → Does (.testPulseEnd n mid fin) s (fun t =>
      (t.regN rSAFETY_FAULT_SC).testBit (7 + n.val) = true ∧ (t.regN rSAFETY_FAULT_TT).testBit (7 + n.val) = true ∧ 2 ≤ t.ssOf n
      ∧ t.mem = s.mem)) := by
  have hx := exec_testPulseEnd (s := s) n mid fin htest hdue hss
  have hget : ((s.testOver n).updSafeT n (fun x => x.risen high fin)).safeT n = ({ s.safeT n with test := none } : SafeTile).risen high fin := by
    rw [State.safeT_updSafeT, State.testOver, State.safeT_updSafeT]
  have hrest : (s.testOver n).updSafeT n (fun x => x.risen high fin) = { s with safeTile := ((s.testOver n).updSafeT n (fun x => x.risen high fin)).safeTile } := rfl
  generalize (s.testOver n).updSafeT n (fun x => x.risen high fin) = u at hx hget hrest
  refine ⟨fun hmid hfin => ?_, fun hbad hn => ?_⟩
  · rw [if_neg (by rw [hmid]; decide), if_neg (by rw [hfin]; decide)] at hx
    refine ⟨_, hx, ?_⟩
    dsimp only
    rw [hget, hfin]
    cases high with
    | true => exact ⟨rfl, fun _ => ⟨rfl, rfl, rfl⟩, fun h => absurd h (by decide), hrest⟩
    | false => exact ⟨rfl, fun h => absurd h (by decide), fun _ => ⟨rfl, rfl, rfl⟩, hrest⟩
  · have hfail : ∀ closed, SwitchFailed n s.mem (u.switchFail n (!high) closed) := fun closed => by
      have h := (u.switchFail_failed (n := n) (by rw [hrest]; exact hn) (!high) closed).1
      rw [show u.mem = s.mem by rw [hrest]] at h
      exact h
    have hdrop : ∀ t, SwitchFailed n s.mem t → (t.regN rSAFETY_FAULT_SC).testBit (7 + n.val) = true ∧ (t.regN rSAFETY_FAULT_TT).testBit (7 + n.val) = true
        ∧ 2 ≤ t.ssOf n ∧ t.mem = s.mem := fun t ⟨h1, h2, _, h4, h5⟩ => ⟨h1, h2, h4, h5⟩
    by_cases hmid : mid = true
    · rw [if_pos hmid] at hx
      exact ⟨_, hx, hdrop _ (hfail _)⟩
    · rw [if_neg hmid, if_pos (hbad.resolve_left hmid)] at hx
      exact ⟨_, hx, hdrop _ (hfail _)⟩

end

/-- Settles O56: each command by the causes that it latches, and the safe states by what `updateSS` makes of them. -/
theorem safetyChannels : Obligations.SafetyChannels := by
  unfold Obligations.SafetyChannels
  refine ⟨fun tt v n k a b s hp => does_safety_inReset tt v n k a b hp, fun tt s hp => does_channelLost tt hp, fun s => ⟨_, rfl, rfl⟩,
    fun mask s ht => does_viaReg_present (act := fun s => s.ackScWrite mask.toNat) (s.absentUnit_of_le (by decide)) ht rfl rfl,
    fun v mask from_ s ht => ⟨does_ackTt_refused ht, fun hack hv hin hlow => does_ackTt_accepted ht hack hv hin hlow⟩,
    fun s => does_ackWindowExpiry, fun n s hp => does_statsRecord n hp, fun s => does_ss1HoldExpiry,
    fun n hs ls s hp ht => does_switchReadbackTimeout n hs ls hp ht,
    fun n low s hen htest hdue => ⟨does_testPulse_lit n low hen htest hdue, does_testPulse_skipped n low hen htest hdue⟩,
    fun n mid fin high s htest hdue hss => does_testPulseEnd n mid fin high htest hdue hss, fun n s => does_fallbackAckTimeout n⟩

end Sys2Proof.Machine

/-! ## Actuators (R365 to R367) -/

namespace Sys2Proof.Machine

theorem State.actOf_setAct (s : State) {n : Nat} (hn : n < s.safe.act.length) (a : Act) : (s.setAct n a).actOf n = a := by
  show nth {} (s.safe.act.set n a) n = a
  rw [nth_set, if_pos ⟨rfl, hn⟩]

theorem State.setAct_rest (s : State) (n : Nat) (a : Act) : s.setAct n a = { s with safe := (s.setAct n a).safe } := rfl

theorem State.setAct_safe (s : State) (n : Nat) (a : Act) : (s.setAct n a).safe = { s.safe with act := s.safe.act.set n a } := rfl

theorem Quiet.of_safe {l : List Nat} {s u v : State} {x : Safe} (q : Quiet l s { u with safe := x }) (h : v = { u with safe := x }) : Quiet l s v := by
  rw [h]
  exact q

/-- Quiet, then actuator `n`'s record. -/
theorem Quiet.setAct {l : List Nat} {s u : State} (q : Quiet l s u) (n : Nat) (a : Act) : Quiet l { s with safe := (u.setAct n a).safe } (u.setAct n a) :=
  (q.withSafe _).of_safe (u.setAct_rest n a)

/-- An actuator fault (R366). -/
structure ActFaulted (n : Nat) (s t : State) : Prop where
  act : t.actOf n = { s.actOf n with moving := false, step := false, homing := 0 }
  sc : (t.regN rSAFETY_FAULT_SC).testBit (11 + n) = true
  tt : (t.regN rSAFETY_FAULT_TT).testBit (11 + n) = true
  scPermits : t.isF (fSAFETY_ACT_STATUS_SC_PERMITS n) = false
  ttPermits : t.isF (fSAFETY_ACT_STATUS_TT_PERMITS n) = false
  ss : ∀ k, k < s.tiles → 1 ≤ t.ssOf k
  mem : t.mem = s.mem

theorem State.actFault_effect (s : State) {n : Nat} (hn2 : n < 2) (hn : n < s.safe.act.length) {k : EvKind} (hp : k.prio < 4) (data : Nat) :
    ActFaulted n s (s.actFault n k data) := by
  unfold State.actFault
  extract_lets u a v w
  have hu : OnlyRegs [rSAFETY_ACT_STATUS n] s u := ((OnlyRegs.refl _ s).setF (by simp)).setF (by simp)
  have hsc : u.isF (fSAFETY_ACT_STATUS_SC_PERMITS n) = false := by
    rw [State.isF_setF_other _ _ _ _ (by simp) (by simp), State.isF_setF_bit _ _ (by decide)]
    rfl
  have htt : u.isF (fSAFETY_ACT_STATUS_TT_PERMITS n) = false := by
    rw [State.isF_setF_bit _ _ (by decide)]
    rfl
  clear_value u
  have hvact : v.actOf n = { u.actOf n with moving := false, step := false, homing := 0 } := u.actOf_setAct (by rw [hu.safe]; exact hn) _
  have hvregs : v.regs = u.regs := rfl
  have hvmem : v.mem = u.mem := rfl
  have hvload : v.loader = u.loader := rfl
  clear_value v
  have hw : Quiet [rSAFETY_FLAGS, rSAFETY_SWITCH_FAIL_COUNT, rSAFETY_ACT_FAULT_COUNT] (v.latchBoth (11 + n)) w :=
    (Quiet.refl _ _).raise (.inl (by decide)) (.inl (by decide))
  clear_value w
  have hev : Quiet [] w (w.sfEv k n srcSC data) := State.sfEv_quiet (.refl [] w) hp _ _ _
  generalize w.sfEv k n srcSC data = x at hev
  obtain ⟨hboth, -⟩ := v.updateSS_faultBoth (b := 11 + n) (by omega) (hw.trans (hev.mono (by simp))) k.code
  generalize x.updateSS k.code = t at hboth
  have hstatus : t.reg (rSAFETY_ACT_STATUS n) = u.reg (rSAFETY_ACT_STATUS n) := by
    rw [hboth.regs _ (.inl (by simp only [rSAFETY_ACT_STATUS]; omega)), State.reg_of_regs hvregs]
    obtain rfl | rfl : n = 0 ∨ n = 1 := by omega
    all_goals decide
  have htiles : v.tiles = s.tiles := State.tiles_of_loader (hvload.trans (by rw [hu.rest]))
  have hone : 11 + n ∈ [0, 1, 2, 11, 12, 13] := by
    obtain rfl | rfl : n = 0 ∨ n = 1 := by omega
    all_goals decide
  refine ⟨?_, hboth.sc, hboth.tt, ?_, ?_, fun j hj => hboth.one hone j (by rw [htiles]; exact hj), hboth.mem.trans (hvmem.trans hu.mem_eq)⟩
  · rw [State.actOf, hboth.safe, ← State.actOf, hvact, State.actOf, hu.safe, ← State.actOf]
  · rw [← hsc, State.isF, State.isF, State.getF_congr hstatus]
  · rw [← htt, State.isF, State.isF, State.getF_congr hstatus]

/-- R366's check of actuator `n` finds something. -/
def State.actBad (s : State) (n : Nat) : Prop := s.actOutside false n = true ∨ s.actOutside true n = true ∨ s.actLost n = true

theorem State.actCheck_good (s : State) {n : Nat} (h : ¬s.actBad n) : s.actCheck n = s := by
  unfold State.actCheck
  split
  · rfl
  · rw [if_neg (fun k => h (k.imp id .inl)), if_neg (fun k => h (.inr (.inr k)))]

theorem State.actCheck_bad (s : State) {n : Nat} (hn2 : n < 2) (hn : n < s.safe.act.length) (hhome : s.isF (fSAFETY_ACT_STATUS_HOMED n) = true) (h : s.actBad n) :
    ActFaulted n s (s.actCheck n) := by
  unfold State.actCheck
  rw [if_neg (by rw [hhome]; decide)]
  split
  · exact s.actFault_effect hn2 hn (by decide) _
  · next hin =>
    rw [if_pos (h.elim (fun k => absurd (.inl k) hin) (fun k => k.elim (fun k => absurd (.inr k) hin) id))]
    exact s.actFault_effect hn2 hn (by decide) _

/-- Actuator `n`'s record and its status have changed. -/
structure ActSet (n : Nat) (a : Act) (s u : State) : Prop where
  quiet : Quiet [rSAFETY_ACT_STATUS n] { s with safe := u.safe } u
  safe : u.safe = { s.safe with act := s.safe.act.set n a }

section
variable {s u : State} {n : Nat} {a : Act}

theorem State.setAct_set (s : State) (n v : Nat) (a : Act) : ActSet n a s ((s.setF (fSAFETY_ACT_STATUS_UP_REFUSED n) v).setAct n a) :=
  ⟨((Quiet.refl _ s).setF (.inl (by simp))).setAct n a, rfl⟩

theorem ActSet.actOf (h : ActSet n a s u) (hn : n < s.safe.act.length) : u.actOf n = a := by
  rw [State.actOf, h.safe]
  exact (nth_set ..).trans (if_pos ⟨rfl, hn⟩)

theorem ActSet.length (h : ActSet n a s u) : u.safe.act.length = s.safe.act.length := by
  rw [h.safe]
  exact List.length_set

theorem ActSet.actCfg (h : ActSet n a s u) (tt : Bool) : u.actCfg tt n = s.actCfg tt n := by
  rw [State.actCfg, State.actCfg, h.safe]

theorem ActSet.encPerStep (h : ActSet n a s u) (hn2 : n < 2) : u.encPerStep n = s.encPerStep n := by
  rw [State.encPerStep, h.quiet.getF]
  · rfl
  · obtain rfl | rfl : n = 0 ∨ n = 1 := by omega
    all_goals decide
  · obtain rfl | rfl : n = 0 ∨ n = 1 := by omega
    all_goals decide

theorem ActSet.mem (h : ActSet n a s u) : u.mem = s.mem := h.quiet.mem_eq

theorem ActSet.tiles (h : ActSet n a s u) : u.tiles = s.tiles := State.tiles_of_loader h.quiet.loader

theorem ActSet.actOutside (h : ActSet n a s u) (hn2 : n < 2) (hn : n < s.safe.act.length) (hsc : a.sc = (s.actOf n).sc) (htt : a.tt = (s.actOf n).tt) (tt : Bool) :
    u.actOutside tt n = s.actOutside tt n := by
  rw [State.actOutside, State.actOutside, h.encPerStep hn2, h.actCfg, h.actOf hn, hsc, htt]

end

/-! ### Steps -/

section
variable {s : State}

/-- The record of an actuator that has made a step. -/
def Act.stepped (a : Act) (next target : Int) (dir : Bool) (now : Nat) : Act :=
  { a with steps := next, moving := decide (next ≠ target), step := true, dir := dir, stepAt := some now }

theorem exec_actStep (n : Fin 2) : exec (.actStep n) s = .next
    (let a := s.actOf n
     let target := signOf 16 (s.regN (rSAFETY_ACT_TARGET n))
     let w := s.actCfg false n
     let down := decide (a.steps < target)
     let next := if down then a.steps + 1 else a.steps - 1
     if s.actMay n = false ∨ s.isF (fSAFETY_ACT_STATUS_HOMED n) = false ∨ target = a.steps ∨ next < w.posMin ∨ w.posMax < next
     then s.setAct n { a with moving := false, step := false }
     else if s.stepSpeed n = false then s.setAct n { a with step := false }
     else if n = 0 ∧ down = false ∧ s.upRefused then (s.setF (fSAFETY_ACT_STATUS_UP_REFUSED n) 1).setAct n { a with moving := false, step := false }
     else ((s.setF (fSAFETY_ACT_STATUS_UP_REFUSED n) 0).setAct n
        (a.stepped next target (if down then w.downDir else !w.downDir) s.time.now)).actCheck n) := rfl

theorem does_actStep (n : Fin 2) (hn : n < s.safe.act.length) :
    let a := s.actOf n
    let target := signOf 16 (s.regN (rSAFETY_ACT_TARGET n))
    let w := s.actCfg false n
    let down := decide (a.steps < target)
    let next := if down then a.steps + 1 else a.steps - 1
    let may := s.actMay n = true ∧ s.isF (fSAFETY_ACT_STATUS_HOMED n) = true ∧ target ≠ a.steps ∧ w.posMin ≤ next ∧ next ≤ w.posMax
    let refused := n = 0 ∧ down = false ∧ s.upRefused = true
    let lost := s.actOutside false n = true ∨ s.actOutside true n = true
      ∨ 4 * s.encPerStep n < (a.sc - next * (s.encPerStep n : Nat)).natAbs
    (¬ may → Does (.actStep n) s (fun t => t.actOf n = { a with moving := false, step := false } ∧ t = { s with safe := t.safe }))
    ∧ (may → s.stepSpeed n = false → Does (.actStep n) s (fun t => t.actOf n = { a with step := false } ∧ t = { s with safe := t.safe }))
    ∧ (may → s.stepSpeed n = true → refused → Does (.actStep n) s (fun t => t.actOf n = { a with moving := false, step := false }
      ∧ t.isF (fSAFETY_ACT_STATUS_UP_REFUSED n) = true ∧ Quiet [rSAFETY_ACT_STATUS n] { s with safe := t.safe } t))
    ∧ (may → s.stepSpeed n = true → ¬ refused →
      (¬ lost → Does (.actStep n) s (fun t =>
        t.actOf n = { a with steps := next, moving := decide (next ≠ target), step := true,
                             dir := if down then w.downDir else !w.downDir, stepAt := some s.time.now }
        ∧ t.isF (fSAFETY_ACT_STATUS_UP_REFUSED n) = false ∧ Quiet [rSAFETY_ACT_STATUS n] { s with safe := t.safe } t))
      ∧ (lost → Does (.actStep n) s (fun t => (t.actOf n).steps = next ∧ (t.actOf n).moving = false
        ∧ (t.regN rSAFETY_FAULT_SC).testBit (11 + n.val) = true ∧ (t.regN rSAFETY_FAULT_TT).testBit (11 + n.val) = true
        ∧ (∀ k, k < s.tiles → 1 ≤ t.ssOf k) ∧ t.mem = s.mem))) := by
  intro a target w down next may refused lost
  have hx : exec (.actStep n) s = .next (if s.actMay n = false ∨ s.isF (fSAFETY_ACT_STATUS_HOMED n) = false ∨ target = a.steps ∨ next < w.posMin ∨ w.posMax < next
     then s.setAct n { a with moving := false, step := false }
     else if s.stepSpeed n = false then s.setAct n { a with step := false }
     else if refused then (s.setF (fSAFETY_ACT_STATUS_UP_REFUSED n) 1).setAct n { a with moving := false, step := false }
     else ((s.setF (fSAFETY_ACT_STATUS_UP_REFUSED n) 0).setAct n
        (a.stepped next target (if down then w.downDir else !w.downDir) s.time.now)).actCheck n) := exec_actStep n
  have hcond : (s.actMay n = false ∨ s.isF (fSAFETY_ACT_STATUS_HOMED n) = false ∨ target = a.steps ∨ next < w.posMin ∨ w.posMax < next) ↔ ¬may := by
    simp only [may, not_and_or, Bool.not_eq_true, ne_eq, not_not, Int.not_le]
  refine ⟨fun hno => ?_, fun hmay hsp => ?_, fun hmay hsp hre => ?_, fun hmay hsp hre => ?_⟩
  · rw [if_pos (hcond.2 hno)] at hx
    exact ⟨_, hx, s.actOf_setAct hn _, s.setAct_rest n _⟩
  · rw [if_neg (fun k => hcond.1 k hmay), if_pos hsp] at hx
    exact ⟨_, hx, s.actOf_setAct hn _, s.setAct_rest n _⟩
  · rw [if_neg (fun k => hcond.1 k hmay), if_neg (by rw [hsp]; decide), if_pos hre] at hx
    have hset := s.setAct_set n 1 { a with moving := false, step := false }
    refine ⟨_, hx, hset.actOf hn, ?_, hset.quiet⟩
    show (s.setF (fSAFETY_ACT_STATUS_UP_REFUSED n) 1).isF (fSAFETY_ACT_STATUS_UP_REFUSED n) = true
    exact s.isF_setF_one rfl (by simp)
  · rw [if_neg (fun k => hcond.1 k hmay), if_neg (by rw [hsp]; decide), if_neg hre] at hx
    have hset := s.setAct_set n 0 (a.stepped next target (if down then w.downDir else !w.downDir) s.time.now)
    have hup : ∀ x, ((s.setF (fSAFETY_ACT_STATUS_UP_REFUSED n) 0).setAct n x).isF (fSAFETY_ACT_STATUS_UP_REFUSED n) = false := fun x => by
      show (s.setF (fSAFETY_ACT_STATUS_UP_REFUSED n) 0).isF (fSAFETY_ACT_STATUS_UP_REFUSED n) = false
      rw [State.isF_setF_bit _ _ (by decide)]
      rfl
    have hhome : ∀ x, ((s.setF (fSAFETY_ACT_STATUS_UP_REFUSED n) 0).setAct n x).isF (fSAFETY_ACT_STATUS_HOMED n) = true := fun x => by
      show (s.setF (fSAFETY_ACT_STATUS_UP_REFUSED n) 0).isF (fSAFETY_ACT_STATUS_HOMED n) = true
      rw [State.isF_setF_other _ _ _ _ (by simp) (by simp)]
      exact hmay.2.1
    replace hup := hup (a.stepped next target (if down then w.downDir else !w.downDir) s.time.now)
    replace hhome := hhome (a.stepped next target (if down then w.downDir else !w.downDir) s.time.now)
    generalize (s.setF (fSAFETY_ACT_STATUS_UP_REFUSED n) 0).setAct n (a.stepped next target (if down then w.downDir else !w.downDir) s.time.now) = u
      at hx hset hup hhome
    have hact := hset.actOf hn
    have hbad : u.actBad n ↔ lost := by
      rw [State.actBad, hset.actOutside n.isLt hn rfl rfl, hset.actOutside n.isLt hn rfl rfl, State.actLost, hset.encPerStep n.isLt, hact]
      exact or_congr_right (or_congr_right decide_eq_true_iff)
    refine ⟨fun hgood => ?_, fun hlost => ?_⟩
    · rw [State.actCheck_good _ (fun h => hgood (hbad.1 h))] at hx
      exact ⟨_, hx, hact, hup, hset.quiet⟩
    · have hf := u.actCheck_bad n.isLt (by rw [hset.length]; exact hn) hhome (hbad.2 hlost)
      refine ⟨_, hx, ?_, ?_, hf.sc, hf.tt, fun k hk => hf.ss k (by rw [hset.tiles]; exact hk), hf.mem.trans hset.mem⟩
      · rw [hf.act, hact]
        rfl
      · rw [hf.act]

/-! ### Encoder counts, speed, mismatch, homing -/

/-- Only the safety plane's state moves. -/
theorem Quiet.atSafe {l : List Nat} {x : Safe} {t : State} (h : t = { s with safe := x }) : Quiet l { s with safe := t.safe } t := by
  rw [h]
  exact .refl _ _

theorem actPos_quiet {n : Nat} (u : State) : Quiet [rSAFETY_ACT_POS_SC n, rSAFETY_ACT_POS_TT n] u (u.actShow n) :=
  ((Quiet.refl _ u).setRegN (.inl (by simp))).setRegN (.inl (by simp))

theorem does_encoderEdge (n : Fin 2) (sc tt up : Bool) (hp : s.boot.porst = true) (hn : n < s.safe.act.length) (hhome : s.isF (fSAFETY_ACT_STATUS_HOMED n) = false) :
    Does (.encoderEdge n sc tt up) s (fun t =>
      (t.actOf n).sc = (s.actOf n).sc + (if sc then (if up then 1 else -1) else 0)
      ∧ (t.actOf n).tt = (s.actOf n).tt + (if tt then (if up then 1 else -1) else 0) ∧ (t.actOf n).steps = (s.actOf n).steps
      ∧ Quiet [rSAFETY_ACT_POS_SC n, rSAFETY_ACT_POS_TT n] { s with safe := t.safe } t) := by
  refine does_inCore (act := fun s => s.encoderEdge n sc tt up) rfl hp ?_
  unfold State.encoderEdge
  extract_lets a d u since x v
  have hu : u.actOf n = { a with sc := if sc then a.sc + d else a.sc, tt := if tt then a.tt + d else a.tt } ∧ u.safe.act.length = s.safe.act.length
      ∧ u = { s with safe := u.safe } := ⟨s.actOf_setAct hn _, List.length_set, rfl⟩
  clear_value u since
  have hv : v.actOf n = { u.actOf n with differ := since } := u.actOf_setAct (by rw [hu.2.1]; exact hn) _
  have hvrest : v = { s with safe := v.safe } := by
    show { u with safe := v.safe } = _
    rw [hu.2.2]
  clear_value v
  rw [hu.1] at hv
  have hshow := actPos_quiet (n := n) v
  generalize v.actShow n = w at hshow
  have hstatus : w.isF (fSAFETY_ACT_STATUS_HOMED n) = false := by
    rw [hshow.isF _ (by simp) (not_mem_evRegs (by simp only [rSAFETY_ACT_STATUS]; omega)), hvrest]
    exact hhome
  have hcheck : w.actCheck n = w := if_pos hstatus
  rw [hcheck]
  have hact : w.actOf n = { a with sc := if sc then a.sc + d else a.sc, tt := if tt then a.tt + d else a.tt, differ := since } := by rw [State.actOf, hshow.safe, ← State.actOf, hv]
  have hq : Quiet [rSAFETY_ACT_POS_SC n, rSAFETY_ACT_POS_TT n] { s with safe := w.safe } w := by
    rw [hshow.safe, ← hvrest]
    exact hshow
  rw [hact]
  refine ⟨?_, ?_, rfl, hq⟩
  · show (if sc = true then a.sc + d else a.sc) = _
    split
    · rfl
    · exact (Int.add_zero _).symm
  · show (if tt = true then a.tt + d else a.tt) = _
    split
    · rfl
    · exact (Int.add_zero _).symm

/-- The counts of actuator `n` as they stand at the end of the window. -/
def Act.windowed (a : Act) : Act := { a with scWin := a.sc, ttWin := a.tt }

theorem exec_actSpeedWindow (n : Fin 2) : exec (.actSpeedWindow n) s = .next
    (if (decide (11 * (s.actCfg false n).vMax * s.encPerStep n < 1000 * ((s.actOf n).sc - (s.actOf n).scWin).natAbs)
        || decide (11 * (s.actCfg true n).vMax * s.encPerStep n < 1000 * ((s.actOf n).tt - (s.actOf n).ttWin).natAbs)) = true
        ∧ (s.setAct n (s.actOf n).windowed).isF (fSAFETY_ACT_CFG_EN n) = true
     then (s.setAct n (s.actOf n).windowed).actFault n evSAFETY_ACT_LIMIT (n + 2 * 2) else s.setAct n (s.actOf n).windowed) := rfl

/-- Actuator `n` has moved faster than 1.1 × V_MAX in a channel's window. -/
def State.actFast (s : State) (n : Nat) : Prop :=
  11 * (s.actCfg false n).vMax * s.encPerStep n < 1000 * ((s.actOf n).sc - (s.actOf n).scWin).natAbs
    ∨ 11 * (s.actCfg true n).vMax * s.encPerStep n < 1000 * ((s.actOf n).tt - (s.actOf n).ttWin).natAbs

theorem does_actSpeedWindow_slow (n : Fin 2) (hn : n < s.safe.act.length) (h : ¬s.actFast n ∨ s.isF (fSAFETY_ACT_CFG_EN n) = false) :
    Does (.actSpeedWindow n) s (fun t => t.actOf n = { s.actOf n with scWin := (s.actOf n).sc, ttWin := (s.actOf n).tt } ∧ t = { s with safe := t.safe }) := by
  have hx := exec_actSpeedWindow (s := s) n
  rw [if_neg] at hx
  · exact ⟨_, hx, s.actOf_setAct hn _, s.setAct_rest n _⟩
  · rintro ⟨hfast, hen⟩
    rw [Bool.or_eq_true, decide_eq_true_iff, decide_eq_true_iff] at hfast
    exact h.elim (fun k => k hfast) (fun k => absurd (show s.isF (fSAFETY_ACT_CFG_EN n) = true from hen) (by rw [k]; decide))

theorem actFaulted_says {n : Fin 2} {u t : State} (hf : ActFaulted n u t) (hmem : u.mem = s.mem) (htiles : u.tiles = s.tiles) :
    (t.regN rSAFETY_FAULT_SC).testBit (11 + n.val) = true ∧ (t.regN rSAFETY_FAULT_TT).testBit (11 + n.val) = true
      ∧ t.isF (fSAFETY_ACT_STATUS_SC_PERMITS n) = false ∧ t.isF (fSAFETY_ACT_STATUS_TT_PERMITS n) = false
      ∧ (t.actOf n).moving = false ∧ (∀ k, k < s.tiles → 1 ≤ t.ssOf k) ∧ t.mem = s.mem :=
  ⟨hf.sc, hf.tt, hf.scPermits, hf.ttPermits, by rw [hf.act], fun k hk => hf.ss k (by rw [htiles]; exact hk), hf.mem.trans hmem⟩

theorem does_actFault (n : Fin 2) (hn : n < s.safe.act.length) (hen : s.isF (fSAFETY_ACT_CFG_EN n) = true) {c : Instr}
    (h : (c = Instr.actMismatch n ∧ ∃ from_, (s.actOf n).differ = some from_ ∧ from_ + ticksMs 10 < s.time.now) ∨ (c = .actSpeedWindow n ∧ s.actFast n)) :
    Does c s (fun t => (t.regN rSAFETY_FAULT_SC).testBit (11 + n.val) = true ∧ (t.regN rSAFETY_FAULT_TT).testBit (11 + n.val) = true
      ∧ t.isF (fSAFETY_ACT_STATUS_SC_PERMITS n) = false ∧ t.isF (fSAFETY_ACT_STATUS_TT_PERMITS n) = false
      ∧ (t.actOf n).moving = false ∧ (∀ k, k < s.tiles → 1 ≤ t.ssOf k) ∧ t.mem = s.mem) := by
  obtain ⟨rfl, from_, hd, hlate⟩ | ⟨rfl, hfast⟩ := h
  · have hx : exec (.actMismatch n) s = execActMismatch n s := rfl
    have heq : execActMismatch n s = .next (s.actFault n evSAFETY_ACT_MISMATCH
        (65536 * min 0xFFFF (((s.actOf n).sc - (s.actOf n).tt).natAbs / s.encPerStep n) + n)) := by
      unfold execActMismatch
      extract_lets a long
      refine congrArg _ (if_pos ⟨?_, hen⟩)
      show long = true
      simp only [long, a, hd]
      exact decide_eq_true hlate
    rw [heq] at hx
    exact ⟨_, hx, actFaulted_says (s.actFault_effect n.isLt hn (by decide) _) rfl rfl⟩
  · have hx := exec_actSpeedWindow (s := s) n
    rw [if_pos ⟨by rw [Bool.or_eq_true, decide_eq_true_iff, decide_eq_true_iff]; exact hfast, hen⟩] at hx
    exact ⟨_, hx, actFaulted_says (State.actFault_effect (s.setAct n (s.actOf n).windowed) n.isLt (by show n < (s.safe.act.set _ _).length; rw [List.length_set]; exact hn) (by decide) _)
      rfl rfl⟩

theorem does_actMismatch_none (n : Fin 2) (h : ¬(∃ from_, (s.actOf n).differ = some from_ ∧ from_ + ticksMs 10 < s.time.now) ∨ s.isF (fSAFETY_ACT_CFG_EN n) = false) :
    Does (.actMismatch n) s (fun t => t = s) := by
  have hx : exec (.actMismatch n) s = execActMismatch n s := rfl
  have heq : execActMismatch n s = .next s := by
    unfold execActMismatch
    extract_lets a long
    refine congrArg _ (if_neg ?_)
    rintro ⟨hlong, hen⟩
    refine h.elim (fun hno => hno ?_) (fun k => absurd hen (by rw [k]; decide))
    revert hlong
    show (match (s.actOf n).differ with | some t => decide (t + ticksMs 10 < s.time.now) | none => false) = true → _
    cases hd : (s.actOf n).differ with
    | none => exact fun k => Bool.noConfusion k
    | some t => exact fun k => ⟨t, rfl, of_decide_eq_true k⟩
  rw [heq] at hx
  exact ⟨_, hx, rfl⟩

/-- The record of an actuator that is at its reference. -/
def Act.homed (a : Act) : Act :=
  { a with sc := 0, tt := 0, steps := 0, scWin := 0, ttWin := 0, differ := none, homing := 0, moving := false, step := false }

/-- The record of an actuator that has made a step towards its reference. -/
def Act.homingStep (a : Act) (dir : Bool) (now : Nat) : Act :=
  { a with homing := a.homing + 1, moving := true, step := true, dir := dir, stepAt := some now }

theorem exec_actHoming (n : Fin 2) : exec (.actHoming n) s = .next
    (if s.actMay n = false ∨ s.isF (fSAFETY_ACT_STATUS_HOMED n) then s
     else if s.sinNormal false 2 = false ∧ s.sinNormal true 2 = false then
       ((s.setAct n (s.actOf n).homed).setF (fSAFETY_ACT_STATUS_HOMED n) 1).actShow n
     else if (s.actCfg false n).homeSteps ≤ (s.actOf n).homing then s.actFault n evSAFETY_ACT_LIMIT (n + 2 * 4)
     else if s.stepSpeed n = false then s.setAct n { s.actOf n with step := false }
     else ({ s with draws := s.draws + 1 } : State).setAct n ((s.actOf n).homingStep ((Config.freeWord s.draws).getLsbD 0) s.time.now)) := rfl

theorem State.homed_effect (s : State) (n : Fin 2) (hn : n < s.safe.act.length) :
    let t := ((s.setAct n (s.actOf n).homed).setF (fSAFETY_ACT_STATUS_HOMED n) 1).actShow n
    t.isF (fSAFETY_ACT_STATUS_HOMED n) = true ∧ (t.actOf n).sc = 0 ∧ (t.actOf n).tt = 0 ∧ (t.actOf n).steps = 0
      ∧ t.regN (rSAFETY_ACT_POS_SC n) = 0 ∧ t.regN (rSAFETY_ACT_POS_TT n) = 0
      ∧ Quiet [rSAFETY_ACT_STATUS n, rSAFETY_ACT_POS_SC n, rSAFETY_ACT_POS_TT n] { s with safe := t.safe } t := by
  intro t
  have hflag : ((s.setAct n (s.actOf n).homed).setF (fSAFETY_ACT_STATUS_HOMED n) 1).isF (fSAFETY_ACT_STATUS_HOMED n) = true := State.isF_setF_one _ rfl (by simp)
  have hact : ((s.setAct n (s.actOf n).homed).setF (fSAFETY_ACT_STATUS_HOMED n) 1).actOf n = (s.actOf n).homed := s.actOf_setAct hn _
  have hq : Quiet [rSAFETY_ACT_STATUS n, rSAFETY_ACT_POS_SC n, rSAFETY_ACT_POS_TT n]
      { s with safe := ((s.setAct n (s.actOf n).homed).setF (fSAFETY_ACT_STATUS_HOMED n) 1).safe } ((s.setAct n (s.actOf n).homed).setF (fSAFETY_ACT_STATUS_HOMED n) 1) :=
    (Quiet.refl _ _).setF (.inl (by simp))
  have ht : t = ((s.setAct n (s.actOf n).homed).setF (fSAFETY_ACT_STATUS_HOMED n) 1).actShow n := rfl
  clear_value t
  generalize (s.setAct n (s.actOf n).homed).setF (fSAFETY_ACT_STATUS_HOMED n) 1 = u at hflag hact hq ht
  have hshow := actPos_quiet (n := n) u
  have hpos : (u.actShow n).regN (rSAFETY_ACT_POS_SC n) = 0 ∧ (u.actShow n).regN (rSAFETY_ACT_POS_TT n) = 0 := by
    unfold State.actShow
    extract_lets a e
    have ha : a.sc = 0 ∧ a.tt = 0 := by
      rw [show a = (s.actOf n).homed from hact]
      exact ⟨rfl, rfl⟩
    rw [ha.1, ha.2, Int.zero_ediv]
    refine ⟨?_, ?_⟩
    · rw [State.regN_setRegN_other _ _ (by simp), State.regN_setRegN, if_pos rfl]
      rfl
    · rw [State.regN_setRegN, if_pos rfl]
      rfl
  rw [← ht] at hshow hpos
  have hsafe : t.safe = u.safe := hshow.safe
  have hactt : t.actOf n = (s.actOf n).homed := by rw [State.actOf, hsafe, ← State.actOf, hact]
  refine ⟨?_, by rw [hactt]; rfl, by rw [hactt]; rfl, by rw [hactt]; rfl, hpos.1, hpos.2, ?_⟩
  · rw [hshow.isF _ (by simp) (not_mem_evRegs (by simp only [rSAFETY_ACT_STATUS]; omega)), hflag]
  · rw [hsafe]
    exact hq.trans (hshow.mono (by simp))

theorem does_actHoming (n : Fin 2) (hn : n < s.safe.act.length) :
    (s.actMay n = false ∨ s.isF (fSAFETY_ACT_STATUS_HOMED n) = true → Does (.actHoming n) s (fun t => t = s))
    ∧ (s.actMay n = true → s.isF (fSAFETY_ACT_STATUS_HOMED n) = false →
      (s.sinNormal false 2 = false → s.sinNormal true 2 = false → Does (.actHoming n) s (fun t =>
        t.isF (fSAFETY_ACT_STATUS_HOMED n) = true ∧ (t.actOf n).sc = 0 ∧ (t.actOf n).tt = 0 ∧ (t.actOf n).steps = 0
        ∧ t.regN (rSAFETY_ACT_POS_SC n) = 0 ∧ t.regN (rSAFETY_ACT_POS_TT n) = 0
        ∧ Quiet [rSAFETY_ACT_STATUS n, rSAFETY_ACT_POS_SC n, rSAFETY_ACT_POS_TT n] { s with safe := t.safe } t))
      ∧ (s.sinNormal false 2 = true ∨ s.sinNormal true 2 = true →
        ((s.actCfg false n).homeSteps ≤ (s.actOf n).homing → Does (.actHoming n) s (fun t => (t.actOf n).moving = false
          ∧ (t.regN rSAFETY_FAULT_SC).testBit (11 + n.val) = true ∧ (t.regN rSAFETY_FAULT_TT).testBit (11 + n.val) = true
          ∧ (∀ k, k < s.tiles → 1 ≤ t.ssOf k) ∧ t.mem = s.mem))
        ∧ ((s.actOf n).homing < (s.actCfg false n).homeSteps → s.stepSpeed n = false → Does (.actHoming n) s (fun t =>
          t.actOf n = { s.actOf n with step := false } ∧ t = { s with safe := t.safe }))
        ∧ ((s.actOf n).homing < (s.actCfg false n).homeSteps → s.stepSpeed n = true → Does (.actHoming n) s (fun t =>
          t.actOf n = { s.actOf n with homing := (s.actOf n).homing + 1, moving := true, step := true,
                                       dir := (Config.freeWord s.draws).getLsbD 0, stepAt := some s.time.now }
          ∧ t = { s with safe := t.safe, draws := s.draws + 1 })))) := by
  have hx := exec_actHoming (s := s) n
  refine ⟨fun h => ?_, fun hmay hhome => ?_⟩
  · rw [if_pos h] at hx
    exact ⟨_, hx, rfl⟩
  · rw [if_neg (by rw [hmay, hhome]; rintro (h | h) <;> exact absurd h (by decide))] at hx
    refine ⟨fun h1 h2 => ?_, fun hopen => ?_⟩
    · rw [if_pos ⟨h1, h2⟩] at hx
      exact ⟨_, hx, s.homed_effect n hn⟩
    · rw [if_neg (by rintro ⟨h1, h2⟩; rw [h1, h2] at hopen; exact absurd hopen (by decide))] at hx
      refine ⟨fun hmany => ?_, fun hfew hsp => ?_, fun hfew hsp => ?_⟩
      · rw [if_pos hmany] at hx
        obtain ⟨h1, h2, -, -, h5, h6, h7⟩ := actFaulted_says (s.actFault_effect n.isLt hn (k := evSAFETY_ACT_LIMIT) (by decide) (n + 2 * 4)) rfl rfl
        exact ⟨_, hx, h5, h1, h2, h6, h7⟩
      · rw [if_neg (Nat.not_le.2 hfew), if_pos hsp] at hx
        exact ⟨_, hx, s.actOf_setAct hn _, s.setAct_rest n _⟩
      · rw [if_neg (Nat.not_le.2 hfew), if_neg (by rw [hsp]; decide)] at hx
        exact ⟨_, hx, State.actOf_setAct { s with draws := s.draws + 1 } hn _, rfl⟩

end

end Sys2Proof.Machine

/-! ## Dual-channel inputs (R368 to R370) -/

namespace Sys2Proof.Machine

/-- Each channel records its four inputs. -/
abbrev SinFour (s : State) : Prop := s.safe.sinSc.length = 4 ∧ s.safe.sinTt.length = 4

section
variable {s : State}

theorem SinFour.setSin (h : SinFour s) (tt : Bool) (i : Nat) (c : SinCh) : SinFour (s.setSin tt i c) := by
  obtain ⟨hsc, htt⟩ := h
  cases tt with
  | true => exact ⟨hsc, (List.length_set ..).trans htt⟩
  | false => exact ⟨(List.length_set ..).trans hsc, htt⟩

theorem State.sinCh_setSin (h : SinFour s) {i : Nat} (hi : i < 4) (tt : Bool) (c : SinCh) (j : Nat) :
    (s.setSin tt i c).sinCh tt j = (if i = j then c else s.sinCh tt j) ∧ (s.setSin tt i c).sinCh (!tt) j = s.sinCh (!tt) j := by
  obtain ⟨hsc, htt⟩ := h
  cases tt with
  | true =>
    refine ⟨?_, rfl⟩
    show nth {} (s.safe.sinTt.set i c) j = _
    rw [nth_set, htt]
    exact if_congr (and_iff_left hi) rfl rfl
  | false =>
    refine ⟨?_, rfl⟩
    show nth {} (s.safe.sinSc.set i c) j = _
    rw [nth_set, hsc]
    exact if_congr (and_iff_left hi) rfl rfl

/-- A channel's record of input `i`, with its contacts' levels sampled. -/
def State.sampled (s : State) (tt : Bool) (v : BitVec 8) (i : Nat) : SinCh :=
  (s.sinCh tt i).sample (v.getLsbD (2 * i)) (v.getLsbD (2 * i + 1)) (s.regN (rSAFETY_SIN_CFG i))

theorem SinCh.sample_contacts (c : SinCh) (a b : Bool) (cfg : Nat) : (c.sample a b cfg).a = c.a.sample a (bitsOf cfg 16 5)
    ∧ (c.sample a b cfg).b = c.b.sample b (bitsOf cfg 16 5) := by
  unfold SinCh.sample
  extract_lets deb d
  split <;> exact ⟨rfl, rfl⟩

/-- The samples of the inputs of `l`. -/
theorem foldl_sampled (tt : Bool) (v : BitVec 8) (l : List Nat) (hl : ∀ i ∈ l, i < 4) (hnd : l.Nodup) : ∀ s : State, SinFour s →
    let t := l.foldl (fun s i => s.setSin tt i (s.sampled tt v i)) s
    t.mem = s.mem ∧ t.regs = s.regs ∧ ∀ j, t.sinCh tt j = (if j ∈ l then s.sampled tt v j else s.sinCh tt j) ∧ t.sinCh (!tt) j = s.sinCh (!tt) j := by
  induction l with
  | nil => exact fun s _ => ⟨rfl, rfl, fun j => ⟨rfl, rfl⟩⟩
  | cons i l ih =>
    intro s h
    obtain ⟨hi, hl⟩ := List.forall_mem_cons.1 hl
    obtain ⟨hnot, hnd⟩ := List.nodup_cons.1 hnd
    have hset := fun j => State.sinCh_setSin h hi tt (s.sampled tt v i) j
    have hfour := h.setSin tt i (s.sampled tt v i)
    have hregs : (s.setSin tt i (s.sampled tt v i)).regs = s.regs := rfl
    have hmem : (s.setSin tt i (s.sampled tt v i)).mem = s.mem := rfl
    rw [List.foldl_cons]
    generalize s.setSin tt i (s.sampled tt v i) = u at hset hfour hregs hmem
    obtain ⟨h1, h2, h3⟩ := ih hl hnd u hfour
    refine ⟨h1.trans hmem, h2.trans hregs, fun j => ⟨(h3 j).1.trans ?_, (h3 j).2.trans (hset j).2⟩⟩
    by_cases hj : i = j
    · rw [if_neg (by rw [← hj]; exact hnot), if_pos (by rw [hj]; exact List.mem_cons_self ..), (hset j).1, if_pos hj, hj]
    · have hsame : u.sinCh tt j = s.sinCh tt j := (hset j).1.trans (if_neg hj)
      have hcfg : u.regN (rSAFETY_SIN_CFG j) = s.regN (rSAFETY_SIN_CFG j) := State.regN_congr (State.reg_of_regs hregs _)
      rw [State.sampled, hsame, hcfg, ← State.sampled]
      by_cases hin : j ∈ l
      · rw [if_pos hin, if_pos (List.mem_cons_of_mem _ hin)]
      · rw [if_neg hin, if_neg (fun k => (List.mem_cons.1 k).elim (fun e => hj e.symm) hin)]

theorem State.hidWrite_kept (s : State) (r : Nat) : (s.hidWrite r).mem = s.mem ∧ (s.hidWrite r).safe = s.safe ∧ ∀ off, off ≠ rMEM_ECC_INJECT → (s.hidWrite r).reg off = s.reg off := by
  unfold State.hidWrite
  split
  · have h : OnlyRegs [rMEM_ECC_INJECT] { s with ecc := { s.ecc with hid := s.ecc.hid ++ [(r, s.injectSynd)] } }
        (({ s with ecc := { s.ecc with hid := s.ecc.hid ++ [(r, s.injectSynd)] } } : State).setF fMEM_ECC_INJECT_ARM 0) := (OnlyRegs.refl _ _).setF (by decide)
    exact ⟨h.mem_eq, h.safe, fun off ho => h.regs off (by simpa using ho)⟩
  · exact ⟨rfl, rfl, fun _ _ => rfl⟩

theorem does_sinSample (tt : Bool) (v : BitVec 8) (hp : s.boot.porst = true) (h : SinFour s) :
    Does (.sinSample tt v) s (fun t => (∀ i, i < 4 → (t.sinCh tt i).a = (s.sinCh tt i).a.sample (v.getLsbD (2 * i)) (bitsOf (s.regN (rSAFETY_SIN_CFG i)) 16 5)
      ∧ (t.sinCh tt i).b = (s.sinCh tt i).b.sample (v.getLsbD (2 * i + 1)) (bitsOf (s.regN (rSAFETY_SIN_CFG i)) 16 5)
      ∧ (t.sinCh (!tt) i).a = (s.sinCh (!tt) i).a ∧ (t.sinCh (!tt) i).b = (s.sinCh (!tt) i).b) ∧ t.mem = s.mem) := by
  refine does_inCore (act := fun s => (s.hidWrite (if tt then 9 else 8)).sinSample tt v) rfl hp ?_
  obtain ⟨hmem, hsafe, hregs⟩ := s.hidWrite_kept (if tt then 9 else 8)
  generalize s.hidWrite (if tt then 9 else 8) = u at hmem hsafe hregs
  have hfour : SinFour u := by
    rw [SinFour, hsafe]
    exact h
  have hch : ∀ tt i, u.sinCh tt i = s.sinCh tt i := fun tt i => by rw [State.sinCh, State.sinCh, hsafe]
  have hcfg : ∀ i, i < 4 → u.regN (rSAFETY_SIN_CFG i) = s.regN (rSAFETY_SIN_CFG i) := fun i hi =>
    State.regN_congr (hregs _ (by simp only [rSAFETY_SIN_CFG, rMEM_ECC_INJECT]; omega))
  obtain ⟨hfmem, -, hfch⟩ := foldl_sampled tt v [0, 1, 2, 3] (by decide) (by decide) u hfour
  have heq : u.sinSample tt v = ([0, 1, 2, 3].foldl (fun s i => s.setSin tt i (s.sampled tt v i)) u).sinDecide 0 := rfl
  rw [heq]
  generalize [0, 1, 2, 3].foldl (fun s i => s.setSin tt i (s.sampled tt v i)) u = w at hfmem hfch
  have hdec := w.sinDecide_decided 0
  generalize w.sinDecide 0 = t at hdec
  refine ⟨fun i hi => ?_, hdec.mem.trans (hfmem.trans hmem)⟩
  obtain ⟨b1, h1⟩ := hdec.ch tt i
  obtain ⟨b2, h2⟩ := hdec.ch (!tt) i
  have hin : i ∈ [0, 1, 2, 3] := by
    simp only [List.mem_cons, List.not_mem_nil, or_false]
    omega
  obtain ⟨hs, ho⟩ := hfch i
  rw [if_pos hin, State.sampled, hch, hcfg i hi] at hs
  obtain ⟨ha, hb⟩ := SinCh.sample_contacts (s.sinCh tt i) (v.getLsbD (2 * i)) (v.getLsbD (2 * i + 1)) (s.regN (rSAFETY_SIN_CFG i))
  rw [h1, h2, hs, ho, hch]
  exact ⟨ha, hb, rfl, rfl⟩

/-- One of the two contacts of an input. -/
def SinCh.contact (c : SinCh) (b : Bool) : Contact := if b then c.b else c.a

theorem does_contactAccepted_kept (tt b : Bool) (i : Fin 4)
    (h : ((s.sinCh tt i).contact b).raw = ((s.sinCh tt i).contact b).acc ∨ ((s.sinCh tt i).contact b).stable < bitsOf (s.regN (rSAFETY_SIN_CFG i)) 16 5) :
    Does (.contactAccepted tt i b) s (fun t => t = s) := by
  have hx : exec (.contactAccepted tt i b) s = execContactAccepted tt i b s := rfl
  have heq : execContactAccepted tt i b s = .next s := congrArg _ (if_pos h)
  exact ⟨s, hx.trans heq, rfl⟩

theorem does_contactAccepted (tt b : Bool) (i : Fin 4) (h4 : SinFour s)
    (h : bitsOf (s.regN (rSAFETY_SIN_CFG i)) 16 5 ≤ ((s.sinCh tt i).contact b).stable) (hd : s.sinOverdue tt i = false) :
    Does (.contactAccepted tt i b) s (fun t => ((t.sinCh tt i).contact b).acc = ((s.sinCh tt i).contact b).raw ∧ t.mem = s.mem) := by
  by_cases hsame : ((s.sinCh tt i).contact b).raw = ((s.sinCh tt i).contact b).acc
  · obtain ⟨t, hx, rfl⟩ := does_contactAccepted_kept (s := s) tt b i (.inl hsame)
    exact ⟨_, hx, hsame.symm, rfl⟩
  · have hx : exec (.contactAccepted tt i b) s = execContactAccepted tt i b s := rfl
    unfold execContactAccepted at hx
    extract_lets cfg k u c k' c' timer at hx
    have hk : k = (s.sinCh tt i).contact b := rfl
    have hu : u = s := if_neg (by rw [hd]; decide)
    rw [if_neg (by rw [hk]; rintro (e | e); exacts [hsame e, absurd h (Nat.not_le.2 e)])] at hx
    have hc' : (c'.contact b).acc = k.raw := by
      show ((if b = true then { c with b := k' } else { c with a := k' } : SinCh).contact b).acc = k.raw
      cases b with
      | true => rfl
      | false => rfl
    have htimer : ∀ x, ({ c' with timer := x } : SinCh).contact b = c'.contact b := fun x => by cases b <;> rfl
    clear_value c' timer
    rw [hu] at hx
    refine ⟨_, hx, ?_⟩
    have hset := (State.sinCh_setSin h4 i.isLt tt { c' with timer := timer } i).1
    rw [if_pos rfl] at hset
    have hmem : (s.setSin tt i { c' with timer := timer }).mem = s.mem := rfl
    generalize s.setSin tt i { c' with timer := timer } = w at hset hmem
    have hdec := w.sinDecide_decided 0
    generalize w.sinDecide 0 = t at hdec
    obtain ⟨x, hx⟩ := hdec.ch tt i
    refine ⟨?_, hdec.mem.trans hmem⟩
    have hnormal : ∀ y : SinCh, ({ y with normal := x } : SinCh).contact b = y.contact b := fun y => by cases b <;> rfl
    rw [hx, hnormal, hset, htimer, hc', hk]

theorem State.latch_effect (s : State) (tt : Bool) {b : Nat} (hb : b < 32) : OnlyRegs [if tt then rSAFETY_FAULT_TT else rSAFETY_FAULT_SC] s (if tt then s.latchTt b else s.latchSc b)
    ∧ ((if tt then s.latchTt b else s.latchSc b).regN (if tt then rSAFETY_FAULT_TT else rSAFETY_FAULT_SC)).testBit b = true := by
  cases tt with
  | true =>
    obtain ⟨honly, hbit⟩ := s.latchTt_effect hb
    exact ⟨honly, (hbit b).trans (by rw [decide_eq_true rfl, Bool.true_or])⟩
  | false =>
    obtain ⟨honly, hbit⟩ := s.latchSc_effect hb
    exact ⟨honly, (hbit b).trans (by rw [decide_eq_true rfl, Bool.true_or])⟩

theorem State.sinFault_effect (s : State) (tt : Bool) {i : Nat} (hi : i < 4) (h4 : SinFour s) : ((s.sinFault tt i).sinCh tt i).latched = true
    ∧ ((s.sinFault tt i).regN (if tt then rSAFETY_FAULT_TT else rSAFETY_FAULT_SC)).testBit (3 + i) = true
    ∧ (s.sinFault tt i).isF fSAFETY_FLAGS_DISCREPANCY = true ∧ (s.sinFault tt i).mem = s.mem := by
  have hoff : (if tt then rSAFETY_FAULT_TT else rSAFETY_FAULT_SC) ∈ [rSAFETY_FAULT_SC, rSAFETY_FAULT_TT] := by
    cases tt <;> decide
  unfold State.sinFault
  extract_lets x u v w
  obtain ⟨c, hc, hlatched⟩ : ∃ c, u = s.setSin tt i c ∧ c.latched = true := ⟨_, rfl, rfl⟩
  have hch : u.sinCh tt i = c := by
    rw [hc, (State.sinCh_setSin h4 hi tt c i).1, if_pos rfl]
  have hmem : u.mem = s.mem := rfl
  clear hc
  clear_value u
  obtain ⟨hvonly, hvbit⟩ : OnlyRegs [if tt then rSAFETY_FAULT_TT else rSAFETY_FAULT_SC] u v ∧ (v.regN (if tt then rSAFETY_FAULT_TT else rSAFETY_FAULT_SC)).testBit (3 + i) = true :=
    u.latch_effect tt (by omega)
  clear_value v
  have hflag : w.isF fSAFETY_FLAGS_DISCREPANCY = true := v.isF_raise_self rfl (by decide) (by decide)
  have hwonly : OnlyRegs [rSAFETY_FLAGS, rSAFETY_DISCREPANCY_COUNT] v w := (OnlyRegs.refl _ v).raise (by decide) (by decide)
  clear_value w
  have hev := State.sfEv_quiet (.refl [] w) (k := evSAFETY_SIN_DISCREPANCY) (by decide) i (if tt then srcTT else srcSC) i
  generalize w.sfEv _ _ _ _ = x at hev
  have hdec := x.sinDecide_decided evSAFETY_SIN_DISCREPANCY.code
  generalize x.sinDecide evSAFETY_SIN_DISCREPANCY.code = t at hdec
  have hxbit : (x.regN (if tt then rSAFETY_FAULT_TT else rSAFETY_FAULT_SC)).testBit (3 + i) = true := by
    generalize (if tt then rSAFETY_FAULT_TT else rSAFETY_FAULT_SC) = off at hvbit hoff
    rw [hev.regN (by simp) ?_, State.regN_congr (hwonly.regs off ?_), hvbit]
    all_goals
      simp only [List.mem_cons, List.not_mem_nil, or_false] at hoff
      obtain rfl | rfl := hoff <;> decide
  obtain ⟨y, hy⟩ := hdec.ch tt i
  refine ⟨?_, ?_, hdec.flag.trans ((hev.isF _ (by simp) (by decide)).trans hflag), hdec.mem.trans (hev.mem_eq.trans (hwonly.mem_eq.trans (hvonly.mem_eq.trans hmem)))⟩
  · rw [hy]
    show (x.sinCh tt i).latched = true
    rw [State.sinCh, hev.safe, hwonly.safe, hvonly.safe, ← State.sinCh, hch, hlatched]
  · cases tt with
    | true => exact (hdec.tt _ (by omega)).trans hxbit
    | false => exact (hdec.sc _ (by omega)).trans hxbit

theorem does_sinDiscrepancy (tt : Bool) (i : Fin 4) (h4 : SinFour s) :
    (s.sinOverdue tt i = false → Does (.sinDiscrepancy tt i) s (fun t => t = s))
    ∧ (s.sinOverdue tt i = true → Does (.sinDiscrepancy tt i) s (fun t => (t.sinCh tt i).latched = true
      ∧ (t.regN (if tt then rSAFETY_FAULT_TT else rSAFETY_FAULT_SC)).testBit (3 + i.val) = true
      ∧ t.isF fSAFETY_FLAGS_DISCREPANCY = true ∧ t.mem = s.mem)) := by
  have hx : exec (.sinDiscrepancy tt i) s = execSinDiscrepancy tt i s := rfl
  refine ⟨fun h => ?_, fun h => ?_⟩
  · rw [execSinDiscrepancy, if_neg (by rw [h]; decide)] at hx
    exact ⟨_, hx, rfl⟩
  · rw [execSinDiscrepancy, if_pos h] at hx
    exact ⟨_, hx, s.sinFault_effect tt i.isLt h4⟩

end

/-- Settles O57: the actuators by the limits and faults of R365 to R367, the inputs by what a sample, an acceptance and a discrepancy leave of a contact. -/
theorem safetyInputs : Obligations.SafetyInputs := by
  unfold Obligations.SafetyInputs
  refine ⟨fun n s hn => does_actStep n hn, fun n sc tt up s hp hn hhome => does_encoderEdge n sc tt up hp hn hhome, fun n s hn => ?_, fun n s hn => does_actHoming n hn,
    fun tt v s hp h1 h2 => does_sinSample tt v hp ⟨h1, h2⟩, fun tt b i s h1 h2 => ?_⟩
  · exact ⟨does_actSpeedWindow_slow n hn, fun hen c h => does_actFault n hn hen h, does_actMismatch_none n⟩
  · obtain ⟨hno, hyes⟩ := does_sinDiscrepancy (s := s) tt i ⟨h1, h2⟩
    exact ⟨does_contactAccepted_kept tt b i, does_contactAccepted tt b i ⟨h1, h2⟩, hno, hyes⟩

end Sys2Proof.Machine

/-! ## A port that leaves ACTIVE (R237 to R239) -/

namespace Sys2Proof.Machine

/-! ### Its ports stay while the health program drops its list -/

section
variable {s u : State}

theorem MemEv.port {t : State} (h : MemEv s t) : t.port = s.port := by rw [h.rest]

theorem State.setF_port (s : State) (f : Fld) (v : Nat) : (s.setF f v).port = s.port := rfl

theorem State.updHl_port (s : State) (n : Nat) (F : HealthT → HealthT) : (s.updHl n F).port = s.port := rfl

theorem State.synFound_port (s : State) (r syn : Nat) : (s.synFound r syn).2.port = s.port := by
  have hfresh : s.fresh.2.port = s.port := rfl
  rw [State.synFound]
  generalize s.fresh = q at hfresh
  obtain ⟨a, w⟩ := q
  dsimp only
  split
  · exact hfresh
  · exact ((MemEv.refl w).noteCe _ _ _).port.trans hfresh
  · exact ((MemEv.refl w).noteUe _ _ _).port.trans hfresh

theorem State.putSel_port (s : State) (n i v : Nat) : (s.putSel n i v).port = s.port := rfl

theorem State.injectFound_port (s : State) (r : Nat) : (s.injectFound r).2.port = s.port := by
  rw [State.injectFound, State.synFound_port, State.setF_port]

theorem State.setSel_port (s : State) (n i v : Nat) : (s.setSel n i v).port = s.port := by
  have hfound := s.injectFound_port 10
  unfold State.setSel
  split
  · generalize s.injectFound 10 = q at hfound
    obtain ⟨lost, w⟩ := q
    dsimp only
    split
    · exact hfound
    · exact (w.putSel_port n i v).trans hfound
  · exact s.putSel_port n i v

theorem State.hlClose_port (s : State) (n : Nat) : (s.hlClose n).port = s.port := by
  unfold State.hlClose
  split
  · rfl
  · rfl

theorem State.darnBusy_port (s : State) : s.darnBusy.port = s.port := rfl

theorem State.showPending_port (s : State) (n : Nat) : (s.showPending n).port = s.port := rfl

theorem State.darnPortDown_port (s : State) (n : Nat) : (s.darnPortDown n).port = s.port := by
  unfold State.darnPortDown
  extract_lets -merge v h subst next left w
  have hv : v.port = s.port := s.hlClose_port n
  clear_value v
  have hfold : ∀ l : List Nat, ∀ x : State, (l.foldl (fun s i => s.setSel n i 1) x).port = x.port := by
    intro l
    induction l with
    | nil => exact fun _ => rfl
    | cons i l ih => exact fun x => (ih _).trans (x.setSel_port n i 1)
  have hw : w.port = v.port := by
    unfold w
    split
    · rfl
    · rw [State.setF_port]
      exact hfold left v
  clear_value w
  have hx : (w.updHl n (fun h => { h with list := [], flying := h.flying ++ subst, flyFrame := none })).port = w.port := w.updHl_port _ _
  generalize w.updHl n (fun h => { h with list := [], flying := h.flying ++ subst, flyFrame := none }) = x at hx
  rw [State.darnBusy_port, hx, hw, hv]

/-! ### TILE_ABSENT -/

/-- TILE_ABSENT changes, and the safe states follow; or it was so already. -/
theorem State.setAbsent_effect (s : State) (n : Nat) (b : Bool) : s.setAbsent n b = s ∨ SsEv (s.setB (fZTL_STATUS_TILE_ABSENT n) b) (s.setAbsent n b) := by
  unfold State.setAbsent
  split
  · exact .inl rfl
  · refine .inr ?_
    extract_lets u pol v w
    have hv : SafeEv u v := .ite ((SafeEv.refl u).quiet (l := []) (State.sfEv_quiet (.refl _ u) (by decide) _ _ _) (by simp)) (.refl u)
    clear_value v
    have hw : SafeEv u w := .ite (hv.setFb n true) hv
    clear_value w
    exact hw.ssEv.trans (w.updateSS_effect _).1

end

/-! ### The port goes down -/

/-- A port that is down: its state, the flag of R238, and what its line has left. -/
structure PortDowned (n : Nat) (t : State) : Prop where
  state : t.zState n = zDOWN
  flag : t.isF (fZTL_STATUS_PORT_DOWN n) = true
  caps : (t.portOf n).caps = none
  ck : (t.portOf n).ck = none
  lanes : ∀ l ∈ (t.portOf n).lanes, l.out = none

section
variable {s t u : State} {n : Fin 4}

theorem PortDowned.of_line (h : PortDowned n u) (hs : t.zState n = u.zState n) (hf : t.isF (fZTL_STATUS_PORT_DOWN n) = u.isF (fZTL_STATUS_PORT_DOWN n))
    (hl : (t.portOf n).line = (u.portOf n).line) : PortDowned n t := by
  simp only [Port.line, Prod.mk.injEq] at hl
  obtain ⟨hcaps, -, hck, hlanes⟩ := hl
  exact ⟨hs.trans h.state, hf.trans h.flag, hcaps.trans h.caps, hck.trans h.ck, by rw [hlanes]; exact h.lanes⟩

theorem PortDowned.setAbsent (h : PortDowned n u) (htries : (u.portOf n).tries = 0) (b : Bool) : PortDowned n (u.setAbsent n b) ∧ ((u.setAbsent n b).portOf n).tries = 0 := by
  obtain heq | hev := u.setAbsent_effect n b
  · rw [heq]
    exact ⟨h, htries⟩
  · have hreg := hev.regs (rZTL_STATUS n) (.inr (by simp only [rZTL_STATUS]; omega)) (by simp only [rZTL_STATUS, rSAFETY_SS_STATE]; omega)
    have hline : ((u.setAbsent n b).portOf n).line = (u.portOf n).line := (hev.line n).trans rfl
    have hstate : (u.setAbsent n b).zState n = u.zState n := by
      rw [State.zState, State.getF_congr hreg, State.setB, State.getF_setF_other _ _ _ _ (by simp) (by simp)]
      rfl
    have hflag : (u.setAbsent n b).isF (fZTL_STATUS_PORT_DOWN n) = u.isF (fZTL_STATUS_PORT_DOWN n) := by
      rw [State.isF, State.getF_congr hreg, State.setB, ← State.isF, State.isF_setF_other _ _ _ _ (by simp) (by simp)]
    refine ⟨h.of_line hstate hflag hline, ?_⟩
    have := congrArg (fun q => q.2.1) hline
    exact this.trans htries

/-- At its end `portClear` drops the capabilities, stops the lanes and lets the health program close. -/
theorem State.portClear_ends (s : State) (n : Nat) : ∃ (i : State) (F : Port → Port) (G : HealthT → HealthT), (∀ p, (F p).caps = none)
    ∧ s.portClear n = ((((i.updPort n F).updHl n G).laneStop n).showPending n).darnPortDown n := ⟨_, _, _, fun _ => rfl, rfl⟩

theorem State.portClear_line (s : State) (n : Nat) : ((s.portClear n).portOf n).caps = none ∧ ((s.portClear n).portOf n).ck = none
    ∧ ∀ l ∈ ((s.portClear n).portOf n).lanes, l.out = none := by
  obtain ⟨i, F, G, hF, heq⟩ := s.portClear_ends n
  have hcaps : (((i.updPort n F).updHl n G).portOf n).caps = none := by
    rw [State.portOf, State.updHl_port, ← State.portOf, State.portOf_updPort_self]
    exact hF _
  rw [heq]
  generalize (i.updPort n F).updHl n G = k at hcaps
  have hstop := k.portOf_laneStop n
  generalize k.laneStop n = x at hstop
  have hend : (((x.showPending n).darnPortDown n).portOf n) = (k.portOf n).stopped := by
    rw [State.portOf, State.darnPortDown_port, State.showPending_port, ← State.portOf, hstop]
  rw [hend]
  generalize k.portOf n = q at hcaps
  exact ⟨hcaps, rfl, q.stopped_out⟩

/-- The flag and the event of a port that is down already. -/
theorem State.downEvent_effect (u : State) (n : Fin 4) (cause : Nat) (hu : u.zState n = zDOWN) (hcaps : (u.portOf n).caps = none) (hck : (u.portOf n).ck = none)
    (hlanes : ∀ l ∈ (u.portOf n).lanes, l.out = none) :
    PortDowned n ((u.raise (fZTL_STATUS_PORT_DOWN n) (rZTL_PORT_DOWN_COUNT n)).zEv evZTL_PORT_DOWN n cause) := by
  have hflag : (u.raise (fZTL_STATUS_PORT_DOWN n) (rZTL_PORT_DOWN_COUNT n)).isF (fZTL_STATUS_PORT_DOWN n) = true := State.isF_raise_self _ rfl (by simp) (by simp)
  have honly : OnlyRegs [rZTL_STATUS n, rZTL_PORT_DOWN_COUNT n] u (u.raise (fZTL_STATUS_PORT_DOWN n) (rZTL_PORT_DOWN_COUNT n)) :=
    (OnlyRegs.refl _ u).raise (by simp) (by simp)
  have hstate : (u.raise (fZTL_STATUS_PORT_DOWN n) (rZTL_PORT_DOWN_COUNT n)).zState n = zDOWN := by
    rw [State.zState, State.raise, State.getF_bump_other _ (by simp), State.getF_setF_other _ _ _ _ (by simp) (by simp)]
    exact hu
  generalize u.raise (fZTL_STATUS_PORT_DOWN n) (rZTL_PORT_DOWN_COUNT n) = w at hflag honly hstate
  have hw : PortDowned n w := by
    have hp := honly.portOf n
    exact ⟨hstate, hflag, by rw [hp]; exact hcaps, by rw [hp]; exact hck, by rw [hp]; exact hlanes⟩
  have hev : Quiet [] w (w.zEv evZTL_PORT_DOWN n cause) := (Quiet.refl _ w).post (by decide)
  generalize w.zEv evZTL_PORT_DOWN n cause = v at hev
  have hin : rZTL_STATUS n ∉ evRegs := ztl_not_evReg n.isLt (by simp only [rZTL_CMD, rZTL_STATUS]; omega) (by simp only [rZTL_CMD, rZTL_STATUS]; omega)
  exact hw.of_line (hev.getF _ (by simp) hin) (hev.isF _ (by simp) hin) (by rw [hev.portOf])

theorem PortDowned.newSeries (h : PortDowned n u) : PortDowned n (u.updPort n (fun p => { p with tries := 0, refused := false }))
    ∧ ((u.updPort n (fun p => { p with tries := 0, refused := false })).portOf n).tries = 0 := by
  have hport : (u.updPort n (fun p => { p with tries := 0, refused := false })).portOf n = { u.portOf n with tries := 0, refused := false } := u.portOf_updPort_self n _
  have honly : PortOnly n u (u.updPort n (fun p => { p with tries := 0, refused := false })) := (PortOnly.refl _ u).updPort _
  generalize u.updPort n (fun p => { p with tries := 0, refused := false }) = y at hport honly
  rw [hport]
  refine ⟨⟨(honly.zState n).trans h.state, (honly.isF _).trans h.flag, ?_, ?_, ?_⟩, rfl⟩
  · rw [hport]
    exact h.caps
  · rw [hport]
    exact h.ck
  · rw [hport]
    exact h.lanes

theorem State.portDown_eq (s : State) (n cause : Nat) : s.portDown n cause = (((((s.portClear n).setZState n zDOWN).raise (fZTL_STATUS_PORT_DOWN n) (rZTL_PORT_DOWN_COUNT n)).zEv
    evZTL_PORT_DOWN n cause).updPort n (fun p => { p with tries := 0, refused := false })).setAbsent n true := rfl

theorem State.portDown_effect (s : State) (n : Fin 4) (cause : Nat) : PortDowned n (s.portDown n cause) ∧ ((s.portDown n cause).portOf n).tries = 0 := by
  obtain ⟨hcaps, hck, hlanes⟩ := s.portClear_line n
  rw [State.portDown_eq]
  generalize s.portClear n = c at hcaps hck hlanes
  have hport := c.portOf_setZState n zDOWN n
  have hz := c.zState_setZState n (v := zDOWN) (by decide)
  generalize c.setZState n zDOWN = u at hport hz
  rw [← hport] at hcaps hck hlanes
  have hdown := u.downEvent_effect n cause hz hcaps hck hlanes
  generalize (u.raise (fZTL_STATUS_PORT_DOWN n) (rZTL_PORT_DOWN_COUNT n)).zEv evZTL_PORT_DOWN n cause = v at hdown
  obtain ⟨hnew, htries⟩ := hdown.newSeries
  exact hnew.setAbsent htries true

theorem State.zActive_of (h : s.zState n = zACTIVE) : s.zActive n = true := beq_iff_eq.2 h

theorem does_bkLossOfSignal (hz : s.zState n = zACTIVE) : Does (.bkLossOfSignal n) s (fun t => t.zState n = zDOWN
      ∧ t.isF (fZTL_STATUS_PORT_DOWN n) = true ∧ (t.portOf n).caps = none ∧ (t.portOf n).tries = 0
      ∧ (t.portOf n).ck = none ∧ ∀ l ∈ (t.portOf n).lanes, l.out = none) := by
  have hx : exec (.bkLossOfSignal n) s = execBkLossOfSignal n s := rfl
  rw [execBkLossOfSignal, if_pos (State.zActive_of hz)] at hx
  obtain ⟨hdown, htries⟩ := s.portDown_effect n 1
  exact ⟨_, hx, hdown.state, hdown.flag, hdown.caps, htries, hdown.ck, hdown.lanes⟩

end

end Sys2Proof.Machine

/-! ## An ACTIVE port (R232 to R238) -/

namespace Sys2Proof.Machine

section
variable {s : State} {n : Fin 4}

/-! ### Status reports -/

theorem does_linkStatus {b : BkBits} {p : BitVec 48} {r : State} {P : State → Prop} (h : BkSays n ctlLINK_STATUS b p r s) (hz : s.zState n = zACTIVE)
    (hP : P (s.linkReport n p)) : Does (.linkStatus n b) r P := by
  have hx : exec (.linkStatus n b) r = .next (r.backIn n ctlLINK_STATUS b (fun p s => s.statusIn n p)) := rfl
  rw [State.backIn_says _ h, State.statusIn, if_pos (State.zActive_of hz)] at hx
  exact ⟨_, hx, hP⟩

theorem State.linkReport_down {p : BitVec 48} (h : payF p 55 55 = 0) : PortDowned n (s.linkReport n p) := by
  unfold State.linkReport
  extract_lets u v
  rw [if_pos h]
  exact (v.portDown_effect n 2).1

theorem payF_lt (p : BitVec 48) (hi lo : Nat) : payF p hi lo < 2 ^ (hi + 1 - lo) := Nat.mod_lt _ (Nat.two_pow_pos _)

theorem devMask_zero (s : State) (n : Nat) : s.devMask n 0 = 0 := by
  simp [State.devMask]

theorem PortOnly.stripe {m : Nat} {t : State} (h : PortOnly m s t) (k st : Nat) : t.stripe k st = s.stripe k st := by
  rw [State.stripe, State.stripe, h.getF, h.getF]

theorem PortOnly.spareLane {m : Nat} {t : State} (h : PortOnly m s t) (k : Nat) : t.spareLane k = s.spareLane k := h.getF _

theorem PortOnly.devMask {m k : Nat} {t : State} (h : PortOnly m s t) (x : Nat) : t.devMask k x = s.devMask k x := by
  have htile : ∀ d, t.tileLane k d = s.tileLane k d := fun d => by
    rw [State.tileLane, State.tileLane, State.regN_congr (h.reg _)]
  rw [State.devMask, State.devMask]
  simp only [htile]

/-- With every stripe lane and the spare in lock a report of locks changes nothing. -/
theorem State.lockReport_kept {n : Nat} (hlanes : ∀ d ∈ [s.stripe n 0, s.stripe n 1], hasLane (s.portOf n).locked d = true)
    (hspare : s.spareLane n = 3 ∨ hasLane (s.portOf n).locked (s.spareLane n) = true) : s.lockReport n = s := by
  have hlost : s.lostLanes n = [] := by
    rw [State.lostLanes, List.filter_eq_nil_iff]
    intro d hd
    rw [hlanes d (List.mem_eraseDups.1 hd)]
    decide
  have hmove : s.moveStripes n = s := by
    unfold State.moveStripes
    rw [hlost]
  have hsp : ¬(s.spareLane n ≠ 3 ∧ hasLane (s.portOf n).locked (s.spareLane n) = false) := by
    rintro ⟨h1, h2⟩
    exact hspare.elim h1 fun h => absurd (h.symm.trans h2) (by decide)
  have hrec : (match (s.portOf n).recal with | some r => if r.moved ∧ s.lostLanes n ≠ [] then s.recalAbandon n else s | none => s) = s := by
    rw [hlost]
    cases (s.portOf n).recal with
    | none => rfl
    | some r => exact if_neg (fun h => h.2 rfl)
  unfold State.lockReport
  extract_lets lk lost u sp mine w v
  have hu : u = s := hrec
  have hv : v = s := by
    show (if u.spareLane n ≠ 3 ∧ hasLane (s.portOf n).locked (u.spareLane n) = false then _ else u) = s
    rw [hu, if_neg hsp]
  rw [hv, hmove]

/-- A report without new discards and without a loss of lock takes the lanes that show lock. -/
theorem State.linkReport_well {p : BitVec 48} (hup : payF p 55 55 = 1) (hdis : payF p 47 32 = (s.portOf n).discards) (hloss : payF p 51 49 = 0)
    (hlanes : ∀ d ∈ [s.stripe n 0, s.stripe n 1], hasLane (s.devMask n (payF p 54 52)) d = true)
    (hspare : s.spareLane n = 3 ∨ hasLane (s.devMask n (payF p 54 52)) (s.spareLane n) = true) :
    PortOnly n s (s.linkReport n p) ∧ ((s.linkReport n p).portOf n).locked = s.devMask n (payF p 54 52) := by
  have hfirst : PortOnly n s (s.damageReport n (payF p 47 32) (payF p 31 23)) := by
    have hnone : (payF p 47 32 + 65536 - (s.portOf n).discards % 65536) % 65536 = 0 := by
      have := payF_lt p 47 32
      rw [← hdis]
      omega
    rw [State.damageReport, if_pos hnone]
    exact (PortOnly.refl _ s).updPort _
  unfold State.linkReport
  extract_lets u v
  have hu : PortOnly n s u := hfirst
  have hv : v = u := by
    show u.lockLoss n (u.devMask n (payF p 51 49)) = u
    rw [hloss, devMask_zero]
    rfl
  rw [if_neg (by rw [hup]; decide), hv]
  clear_value u
  have hmask : u.devMask n (payF p 54 52) = s.devMask n (payF p 54 52) := hu.devMask _
  rw [hmask]
  have hw : PortOnly n u (u.updPort n (fun q => { q with locked := s.devMask n (payF p 54 52) })) := (PortOnly.refl _ u).updPort _
  have hlocked : ((u.updPort n (fun q => { q with locked := s.devMask n (payF p 54 52) })).portOf n).locked = s.devMask n (payF p 54 52) := by
    rw [State.portOf_updPort_self]
  generalize u.updPort n (fun q => { q with locked := s.devMask n (payF p 54 52) }) = w at hw hlocked
  have hall := hu.trans hw
  have hquiet : w.lockReport n = w := by
    refine State.lockReport_kept ?_ ?_
    · rw [hlocked, hall.stripe, hall.stripe]
      exact hlanes
    · rw [hlocked, hall.spareLane]
      exact hspare
  rw [hquiet]
  exact ⟨hall, hlocked⟩

theorem linkStatus_says (b : BkBits) (p : BitVec 48) (r : State) (h : BkSays n ctlLINK_STATUS b p r s) (hz : s.zState n = zACTIVE) :
    (payF p 55 55 = 0 → Does (.linkStatus n b) r (fun t => t.zState n = zDOWN ∧ t.isF (fZTL_STATUS_PORT_DOWN n) = true
      ∧ (t.portOf n).caps = none))
    ∧ (payF p 55 55 = 1 → payF p 47 32 = (s.portOf n).discards → payF p 51 49 = 0 →
      (∀ d ∈ [s.stripe n 0, s.stripe n 1], hasLane (s.devMask n (payF p 54 52)) d = true) →
      s.spareLane n = 3 ∨ hasLane (s.devMask n (payF p 54 52)) (s.spareLane n) = true →
      Does (.linkStatus n b) r (fun t => (t.portOf n).locked = s.devMask n (payF p 54 52) ∧ t.zState n = zACTIVE
        ∧ t = { s with port := t.port })) := by
  refine ⟨fun hdown => does_linkStatus h hz ?_, fun hup hdis hloss hlanes hspare => does_linkStatus h hz ?_⟩
  · have hd := State.linkReport_down (s := s) (n := n) hdown
    exact ⟨hd.state, hd.flag, hd.caps⟩
  · obtain ⟨honly, hlocked⟩ := State.linkReport_well hup hdis hloss hlanes hspare
    exact ⟨hlocked, (honly.zState n).trans hz, honly.rest⟩

/-! ### The spare's margin -/

theorem anyCal_eq_false {l : List Cal} {d : Nat} (h : ∀ x ∈ l, x.lane ≠ d) : l.any (fun c => decide (c.lane = d)) = false :=
  List.any_eq_false.2 fun x hx => by simpa using h x hx

theorem exec_spareMarginCheck (c o : Word) (hz : s.zState n = zACTIVE) (hsp : s.spareLane n ≠ 3) (hcal : ∀ x ∈ (s.portOf n).cals, x.lane ≠ s.spareLane n) :
    exec (.spareMarginCheck n c o) s = .next
      (let u := (s.setRegN (rZTL_SPARE_MARGIN n) (65536 * satAt 0xFFFF o.toNat + satAt 0xFFFF c.toNat)).updPort n
         (fun p => { p with spareErr := decide (0 < satAt 0xFFFF c.toNat), margin := none })
       if 0 < satAt 0xFFFF c.toNat ∧ (s.portOf n).spareErr = true then (u.spareFail n (s.spareLane n)).updPort n (fun p => { p with spareErr := false }) else u) := by
  have hx : exec (.spareMarginCheck n c o) s = execSpareMarginCheck n c o s := rfl
  rw [hx]
  refine congrArg _ (if_neg ?_)
  rintro (h | h | h)
  · rw [State.zActive_of hz] at h
    exact absurd h (by decide)
  · exact hsp h
  · rw [anyCal_eq_false hcal] at h
    exact absurd h (by decide)

theorem State.spareFail_effect (s : State) (n : Fin 4) {d : Nat} (hd : d < 3) : (s.spareFail n d).spareLane n = 3 ∧ (s.spareFail n d).isF (fZTL_STATUS_SPARE_FAIL n) = true
    ∧ (s.spareFail n d).zState n = s.zState n ∧ (s.spareFail n d).mem = s.mem := by
  have hin : ∀ off, rZTL_CMD n ≤ off → off < rZTL_CMD n + 0x10000 → off ∉ evRegs := fun off => ztl_not_evReg n.isLt
  have hstatus : rZTL_STATUS n ∉ evRegs := hin _ (by simp) (by simp only [rZTL_CMD, rZTL_STATUS]; omega)
  have hmap : rZTL_LANE_MAP n ∉ evRegs := hin _ (by simp) (by simp only [rZTL_CMD, rZTL_LANE_MAP]; omega)
  unfold State.spareFail
  extract_lets u
  rw [if_neg (by omega)]
  have hraise : (s.raise (fZTL_STATUS_SPARE_FAIL n) (rZTL_SPARE_FAIL_COUNT n)).isF (fZTL_STATUS_SPARE_FAIL n) = true := State.isF_raise_self _ rfl (by simp) (by simp)
  have hrz : (s.raise (fZTL_STATUS_SPARE_FAIL n) (rZTL_SPARE_FAIL_COUNT n)).zState n = s.zState n := by
    rw [State.zState, State.raise, State.getF_bump_other _ (by simp), State.getF_setF_other _ _ _ _ (by simp) (by simp)]
    rfl
  have hrm : (s.raise (fZTL_STATUS_SPARE_FAIL n) (rZTL_SPARE_FAIL_COUNT n)).mem = s.mem :=
    ((OnlyRegs.refl [rZTL_STATUS n, rZTL_SPARE_FAIL_COUNT n] s).raise (by simp) (by simp)).mem_eq
  have hev : Quiet [] (s.raise (fZTL_STATUS_SPARE_FAIL n) (rZTL_SPARE_FAIL_COUNT n)) u := (Quiet.refl _ _).post (by decide)
  clear_value u
  generalize s.raise (fZTL_STATUS_SPARE_FAIL n) (rZTL_SPARE_FAIL_COUNT n) = r at hraise hrz hrm hev
  have hw : OnlyRegs [rZTL_LANE_MAP n] u ((u.setFailed n d true).setF (fZTL_LANE_MAP_SPARE n) 3) := ((OnlyRegs.refl _ u).setF (by simp)).setF (by simp)
  have hspare : ((u.setFailed n d true).setF (fZTL_LANE_MAP_SPARE n) 3).spareLane n = 3 := State.getF_setF _ _ _ (by simp)
  generalize (u.setFailed n d true).setF (fZTL_LANE_MAP_SPARE n) 3 = w at hw hspare
  have hre : Quiet [rZTL_STATUS n, rZTL_RETRAIN_COUNT n] w (w.retrainEv n d false) :=
    ((Quiet.refl _ w).raise (.inl (by simp)) (.inl (by simp))).post (by decide)
  have hother : ∀ f : Fld, f.off = rZTL_STATUS n → (f.lo + f.w ≤ (fZTL_STATUS_RETRAIN n).lo ∨ (fZTL_STATUS_RETRAIN n).lo + 1 ≤ f.lo) → (w.retrainEv n d false).getF f = w.getF f := by
    intro f hf hlo
    have hp : Quiet [] (w.raise (fZTL_STATUS_RETRAIN n) (rZTL_RETRAIN_COUNT n)) (w.retrainEv n d false) := (Quiet.refl _ _).post (by decide)
    rw [hp.getF f (by simp) (by rw [hf]; exact hstatus), State.raise, State.getF_bump_other _ (by rw [hf]; simp), State.getF_setF_other _ _ _ _ (by simp) (.inr hlo)]
  refine ⟨?_, ?_, ?_, hre.mem_eq.trans (hw.mem_eq.trans (hev.mem_eq.trans hrm))⟩
  · rw [State.spareLane, hre.getF _ (by simp) hmap]
    exact hspare
  · rw [State.isF, hother _ rfl (by simp), State.getF_congr (hw.regs _ (by simp)), ← State.isF, hev.isF _ (by simp) hstatus, hraise]
  · rw [State.zState, hother _ rfl (by simp), State.getF_congr (hw.regs _ (by simp)), hev.getF _ (by simp) hstatus]
    exact hrz

theorem does_spareMarginCheck (c o : Word) (hz : s.zState n = zACTIVE) (hsp : s.spareLane n ≠ 3) (hcal : ∀ x ∈ (s.portOf n).cals, x.lane ≠ s.spareLane n) :
    (c = 0 ∨ (s.portOf n).spareErr = false → Does (.spareMarginCheck n c o) s (fun t =>
      t.regN (rZTL_SPARE_MARGIN n) = 65536 * min o.toNat 0xFFFF + min c.toNat 0xFFFF
      ∧ (t.portOf n).spareErr = decide (0 < c.toNat) ∧ t.spareLane n = s.spareLane n
      ∧ Quiet [rZTL_SPARE_MARGIN n] { s with port := t.port } t))
    ∧ (c ≠ 0 → (s.portOf n).spareErr = true → Does (.spareMarginCheck n c o) s (fun t => t.spareLane n = 3
      ∧ t.isF (fZTL_STATUS_SPARE_FAIL n) = true ∧ t.zState n = zACTIVE ∧ t.mem = s.mem)) := by
  have hx := exec_spareMarginCheck c o hz hsp hcal
  have hpos : 0 < satAt 0xFFFF c.toNat ↔ 0 < c.toNat := by
    rw [satAt]
    omega
  have hset : OnlyRegs [rZTL_SPARE_MARGIN n] s (s.setRegN (rZTL_SPARE_MARGIN n) (65536 * satAt 0xFFFF o.toNat + satAt 0xFFFF c.toNat)) := (OnlyRegs.refl _ s).setRegN (by simp)
  have hval : (s.setRegN (rZTL_SPARE_MARGIN n) (65536 * satAt 0xFFFF o.toNat + satAt 0xFFFF c.toNat)).regN (rZTL_SPARE_MARGIN n)
      = 65536 * min o.toNat 0xFFFF + min c.toNat 0xFFFF := by
    rw [State.regN_setRegN, if_pos rfl, satAt, satAt]
    omega
  generalize s.setRegN (rZTL_SPARE_MARGIN n) (65536 * satAt 0xFFFF o.toNat + satAt 0xFFFF c.toNat) = u at hx hset hval
  have honly : PortOnly n u (u.updPort n (fun p => { p with spareErr := decide (0 < satAt 0xFFFF c.toNat), margin := none })) := (PortOnly.refl _ u).updPort _
  have herr : ((u.updPort n (fun p => { p with spareErr := decide (0 < satAt 0xFFFF c.toNat), margin := none })).portOf n).spareErr = decide (0 < c.toNat) := by
    rw [State.portOf_updPort_self]
    exact decide_eq_decide.2 hpos
  generalize u.updPort n (fun p => { p with spareErr := decide (0 < satAt 0xFFFF c.toNat), margin := none }) = v at hx honly herr
  have hspare : v.spareLane n = s.spareLane n := (honly.spareLane n).trans (State.getF_congr (hset.regs _ (by simp)))
  have hzero : c = 0 ↔ c.toNat = 0 := ⟨fun h => by rw [h]; rfl, fun h => BitVec.eq_of_toNat_eq h⟩
  refine ⟨fun h => ?_, fun hc he => ?_⟩
  · rw [if_neg] at hx
    · refine ⟨_, hx, (State.regN_congr (honly.reg _)).trans hval, herr, hspare, ?_⟩
      exact ((PortQuiet.refl _ s).quiet hset.quiet).only honly
    · rintro ⟨h1, h2⟩
      rw [hpos] at h1
      obtain h | h := h
      · rw [hzero.1 h] at h1
        exact absurd h1 (by decide)
      · rw [h] at h2
        exact absurd h2 (by decide)
  · rw [if_pos ⟨hpos.2 (Nat.pos_of_ne_zero fun k => hc (hzero.2 k)), he⟩] at hx
    have hlt : s.spareLane n < 3 := by
      have h4 : s.spareLane n < 4 := State.getF_lt _ _
      omega
    obtain ⟨h1, h2, h3, h4⟩ := v.spareFail_effect n hlt
    generalize v.spareFail n (s.spareLane n) = w at hx h1 h2 h3 h4
    have hend : PortOnly n w (w.updPort n (fun p => { p with spareErr := false })) := (PortOnly.refl _ w).updPort _
    refine ⟨_, hx, (hend.spareLane n).trans h1, (hend.isF _).trans h2, (hend.zState n).trans (h3.trans ?_), hend.mem.trans (h4.trans (honly.mem.trans hset.mem_eq))⟩
    rw [honly.zState, State.zState, State.getF_congr (hset.regs _ (by simp))]
    exact hz

end

end Sys2Proof.Machine

/-! ## Recalibration, retraining and the back lane of an ACTIVE port (R233, R235, R237) -/

namespace Sys2Proof.Machine

section
variable {s : State} {n : Fin 4}

theorem PortQuiet.regs {l : List Nat} {t : State} (h : PortQuiet l s t) (off : Nat) (h1 : off ∉ l) (h2 : off ∉ evRegs) : t.reg off = s.reg off := Quiet.regs h off h1 h2

theorem PortQuiet.isF {l : List Nat} {t : State} (h : PortQuiet l s t) (f : Fld) (h1 : f.off ∉ l) (h2 : f.off ∉ evRegs) : t.isF f = s.isF f := by
  rw [State.isF, State.isF, State.getF_congr (h.regs _ h1 h2)]

/-! ### Recalibration steps -/

/-- The rotation goes on. -/
def State.rotated (s : State) (n : Nat) : State := s.updPort n (fun p => { p with rot := ((s.portOf n).rot + 1) % 4 })

theorem State.rotated_effect (s : State) (n : Nat) : PortOnly n s (s.rotated n) ∧ (s.rotated n).portOf n = { s.portOf n with rot := ((s.portOf n).rot + 1) % 4 } :=
  ⟨(PortOnly.refl n s).updPort _, s.portOf_updPort_self n _⟩

theorem State.spareReturn_kept {n : Nat} (hsp : s.spareLane n ≠ 3) : s.spareReturn n = s := if_pos (.inl hsp)

theorem State.recalNext_stale (hz : s.zState n = zACTIVE) (hrec : (s.portOf n).recal = none) (hsp : s.spareLane n ≠ 3) (hst : s.isF (fZTL_STATUS_BACK_STALE n) = true) :
    s.recalNext n = s.rotated n := by
  rw [State.recalNext, if_neg (by rw [State.zActive_of hz, hrec]; rintro (h | h) <;> exact absurd h (by decide)), State.spareReturn_kept hsp]
  exact if_pos hst

theorem State.recalNext_spare (hz : s.zState n = zACTIVE) (hrec : (s.portOf n).recal = none) (hsp : s.spareLane n ≠ 3) (hst : s.isF (fZTL_STATUS_BACK_STALE n) = false)
    (hrot : (s.portOf n).rot = 2) : s.recalNext n = (s.rotated n).recalBegin n 2 (s.spareLane n) false := by
  rw [State.recalNext, if_neg (by rw [State.zActive_of hz, hrec]; rintro (h | h) <;> exact absurd h (by decide)), State.spareReturn_kept hsp]
  have hstale : ¬(s.rotated n).isF (fZTL_STATUS_BACK_STALE n) = true := fun h => absurd (hst.symm.trans h) (by decide)
  refine (if_neg hstale).trans ((if_neg (by omega)).trans ((if_pos hrot).trans (if_neg hsp)))

theorem State.startCal_line (s : State) (n d : Nat) : ((s.startCal n d).portOf n).recal = (s.portOf n).recal ∧ ((s.startCal n d).portOf n).rot = (s.portOf n).rot := by
  unfold State.startCal
  extract_lets -merge adapt code c u
  have hport : u.portOf n = { s.portOf n with cals := (s.portOf n).cals.filter (fun x => decide (x.lane ≠ d)) ++ [c] } := s.portOf_updPort_self n _
  have hsent : SentOnly n u ((u.sendCtle n d code).sendCheck n c) := ((SentOnly.refl n u).send _ _).send _ _
  obtain ⟨tx, slots, hp⟩ := hsent.port
  rw [hp, hport]
  exact ⟨rfl, rfl⟩

theorem State.recalBegin_effect (s : State) (n : Fin 4) (role d : Nat) (moved : Bool) :
    ((s.recalBegin n role d moved).portOf n).recal = some { role := role, lane := d, moved := moved } ∧ ((s.recalBegin n role d moved).portOf n).rot = (s.portOf n).rot
    ∧ (s.recalBegin n role d moved).isF (fZTL_STATUS_RECAL_ACTIVE n) = true ∧ PortQuiet [rZTL_STATUS n] s (s.recalBegin n role d moved) := by
  unfold State.recalBegin
  extract_lets -merge u
  have hu : PortOnly n s u := (PortOnly.refl _ s).updPort _
  have hport : u.portOf n = { s.portOf n with recal := some { role := role, lane := d, moved := moved } } := s.portOf_updPort_self n _
  clear_value u
  have hflag : (u.setF (fZTL_STATUS_RECAL_ACTIVE n) 1).isF (fZTL_STATUS_RECAL_ACTIVE n) = true := State.isF_setF_one _ rfl (by simp)
  have hset : OnlyRegs [rZTL_STATUS n] u (u.setF (fZTL_STATUS_RECAL_ACTIVE n) 1) := (OnlyRegs.refl _ u).setF (by simp)
  generalize u.setF (fZTL_STATUS_RECAL_ACTIVE n) 1 = v at hflag hset
  obtain ⟨c, -, honly, -, -⟩ := v.startCal_effect n d
  obtain ⟨hrec, hrot⟩ := v.startCal_line n d
  refine ⟨?_, ?_, (honly.isF _).trans hflag, (((PortQuiet.refl _ s).only hu).quiet hset.quiet).only honly⟩
  · rw [hrec, hset.portOf, hport]
  · rw [hrot, hset.portOf, hport]

/-- The two commands that start a step of the rotation. -/
theorem does_recal {c : Instr} {P : State → Prop} (h : (c = Instr.ztlRecal n ∧ s.absentUnit (rZTL_CMD n) = false ∧ Takes s (rZTL_CMD n))
    ∨ (c = .recalStep n ∧ s.isF (fZTL_RECAL_CFG_EN n) = true)) (hP : P (s.recalNext n)) : Does c s P := by
  obtain ⟨rfl, habs, ht⟩ | ⟨rfl, hen⟩ := h
  · exact does_viaReg_present (act := fun s => s.recalNext n) habs ht rfl hP
  · have hx : exec (.recalStep n) s = execRecalStep n s := rfl
    rw [execRecalStep, if_pos hen] at hx
    exact ⟨_, hx, hP⟩

theorem does_recal_next (hz : s.zState n = zACTIVE) (hrec : (s.portOf n).recal = none) (hsp : s.spareLane n ≠ 3) (c : Instr)
    (h : (c = Instr.ztlRecal n ∧ s.absentUnit (rZTL_CMD n) = false ∧ Takes s (rZTL_CMD n)) ∨ (c = .recalStep n ∧ s.isF (fZTL_RECAL_CFG_EN n) = true)) :
    (s.isF (fZTL_STATUS_BACK_STALE n) = true → Does c s (fun t => (t.portOf n).recal = none
      ∧ (t.portOf n).rot = ((s.portOf n).rot + 1) % 4 ∧ t = { s with port := t.port }))
    ∧ (s.isF (fZTL_STATUS_BACK_STALE n) = false → (s.portOf n).rot = 2 → Does c s (fun t =>
      (t.portOf n).recal = some { role := 2, lane := s.spareLane n } ∧ (t.portOf n).rot = 3
      ∧ t.isF (fZTL_STATUS_RECAL_ACTIVE n) = true ∧ Quiet [rZTL_STATUS n] { s with port := t.port } t)) := by
  obtain ⟨honly, hport⟩ := s.rotated_effect n
  refine ⟨fun hst => does_recal h ?_, fun hst hrot => does_recal h ?_⟩
  · rw [State.recalNext_stale hz hrec hsp hst]
    exact ⟨by rw [hport]; exact hrec, by rw [hport], honly.rest⟩
  · rw [State.recalNext_spare hz hrec hsp hst hrot]
    generalize s.rotated n = u at honly hport
    obtain ⟨h1, h2, h3, h4⟩ := u.recalBegin_effect n 2 (s.spareLane n) false
    refine ⟨h1, h2.trans ?_, h3, ((PortQuiet.refl _ s).only honly).trans h4⟩
    rw [hport, hrot]

theorem does_recalStep_off (h : s.isF (fZTL_RECAL_CFG_EN n) = false) : Does (.recalStep n) s (fun t => t = s) := by
  have hx : exec (.recalStep n) s = execRecalStep n s := rfl
  rw [execRecalStep, if_neg (by rw [h]; decide)] at hx
  exact ⟨_, hx, rfl⟩

theorem does_laneRetrain (l : Fin 3) (hz : s.zState n = zACTIVE) (hfail : (s.regN (rZTL_LANE_MAP n)).testBit (8 + l) = true)
    (hready : (s.regN (rZTL_LANE_MAP n)).testBit (12 + l) = false) (hcal : ∀ c ∈ (s.portOf n).cals, c.lane ≠ l.val) :
    Does (.laneRetrain n l) s (fun t => (t.portOf n).cals.map Cal.lane = (s.portOf n).cals.map Cal.lane ++ [l.val] ∧ t = { s with port := t.port }) := by
  have hx : exec (.laneRetrain n l) s = execLaneRetrain n l s := rfl
  rw [execLaneRetrain, if_pos ⟨State.zActive_of hz, hfail, hready, List.all_eq_true.2 fun c hc => decide_eq_true (hcal c hc)⟩] at hx
  have hlanes := State.foldl_startCal (n : Nat) [l.val] (List.nodup_singleton _) s (fun c hc => by simpa using hcal c hc)
  obtain ⟨c, -, honly, -, -⟩ := s.startCal_effect n l
  exact ⟨_, hx, hlanes, honly.rest⟩

/-! ### The back lane -/

/-- What stays of port `n`, its status and all else when the back lane's loss is reported. -/
structure BackKept (n : Nat) (s t : State) : Prop where
  quiet : PortQuiet [rZTL_STATUS n, rZTL_BACK_FAIL_COUNT n, rZTL_RETRAIN_COUNT n] s t
  bk : (t.portOf n).bk = (s.portOf n).bk
  stale : t.isF (fZTL_STATUS_BACK_STALE n) = s.isF (fZTL_STATUS_BACK_STALE n)
  state : t.zState n = s.zState n

theorem status_not_evReg (n : Fin 4) : rZTL_STATUS n ∉ evRegs := ztl_not_evReg n.isLt (by simp only [rZTL_CMD, rZTL_STATUS]; omega) (by simp only [rZTL_CMD, rZTL_STATUS]; omega)

theorem BackKept.refl (n : Nat) (s : State) : BackKept n s s := ⟨.refl _ s, rfl, rfl, rfl⟩

theorem BackKept.trans {t u : State} {n : Nat} (h : BackKept n s u) (k : BackKept n u t) : BackKept n s t :=
  ⟨h.quiet.trans k.quiet, k.bk.trans h.bk, k.stale.trans h.stale, k.state.trans h.state⟩

theorem PortOnly.backKept {t : State} (h : PortOnly n s t) (hbk : (t.portOf n).bk = (s.portOf n).bk) : BackKept n s t :=
  ⟨(PortQuiet.refl _ s).only h, hbk, h.isF _, h.zState n⟩

theorem Quiet.backKept {t : State} (q : Quiet [] s t) : BackKept n s t :=
  ⟨(PortQuiet.refl _ s).quiet (q.mono (by simp)), by rw [q.portOf], q.isF _ (by simp) (status_not_evReg n), q.getF _ (by simp) (status_not_evReg n)⟩

/-- A flag of the status set, apart from the two that stay. -/
theorem State.setF_backKept (s : State) (n : Fin 4) {b v : Nat} (hb : b < 32) (h1 : (fZTL_STATUS_BACK_STALE n).lo ≠ b)
    (h2 : (fZTL_STATUS_STATE n).lo + (fZTL_STATUS_STATE n).w ≤ b ∨ b < (fZTL_STATUS_STATE n).lo) : BackKept n s (s.setF ⟨rZTL_STATUS n, b, 1⟩ v) := by
  have hset : OnlyRegs [rZTL_STATUS n] s (s.setF ⟨rZTL_STATUS n, b, 1⟩ v) := (OnlyRegs.refl _ s).setF (by simp)
  refine ⟨(PortQuiet.refl _ s).quiet (hset.quiet.mono (by simp)), by rw [hset.portOf], ?_, ?_⟩
  · exact State.isF_setF_other s ⟨rZTL_STATUS n, b, 1⟩ (fZTL_STATUS_BACK_STALE n) v (by show b + 1 ≤ 32; omega) (.inr (by simp only at h1 ⊢; omega))
  · exact State.getF_setF_other s ⟨rZTL_STATUS n, b, 1⟩ (fZTL_STATUS_STATE n) v (by show b + 1 ≤ 32; omega) (.inr (by simp only at h2 ⊢; omega))

theorem State.raise_backKept (s : State) (n : Fin 4) {b c : Nat} (hb : b < 32) (h1 : (fZTL_STATUS_BACK_STALE n).lo ≠ b)
    (h2 : (fZTL_STATUS_STATE n).lo + (fZTL_STATUS_STATE n).w ≤ b ∨ b < (fZTL_STATUS_STATE n).lo) (hc : c = rZTL_BACK_FAIL_COUNT n ∨ c = rZTL_RETRAIN_COUNT n) :
    BackKept n s (s.raise ⟨rZTL_STATUS n, b, 1⟩ c) := by
  refine (s.setF_backKept n (v := 1) hb h1 h2).trans ?_
  rw [State.raise]
  generalize s.setF ⟨rZTL_STATUS n, b, 1⟩ 1 = u
  have hbump : OnlyRegs [c] u (u.bump c) := (OnlyRegs.refl _ u).bump (by simp)
  have hno : rZTL_STATUS n ∉ [c] := by
    rw [List.mem_singleton]
    obtain rfl | rfl := hc
    · simp
    · simp
  refine ⟨(PortQuiet.refl _ u).quiet (hbump.quiet.mono ?_), by rw [hbump.portOf], ?_, State.getF_congr (hbump.regs _ hno)⟩
  · intro o ho
    rw [List.mem_singleton] at ho
    rw [ho]
    obtain rfl | rfl := hc
    · simp
    · simp
  · rw [State.isF, State.isF, State.getF_congr (hbump.regs _ hno)]

/-- A recalibration of the back lane itself is over. -/
def State.backRecalDrop (s : State) (n : Nat) : State :=
  match (s.portOf n).recal with
  | some r => if r.role = 3 then (s.updPort n (fun p => { p with recal := none, bkUntil := none })).setF (fZTL_STATUS_RECAL_ACTIVE n) 0 else s
  | none => s

theorem State.backRecalDrop_kept (s : State) (n : Fin 4) : BackKept n s (s.backRecalDrop n) := by
  unfold State.backRecalDrop
  split
  · split
    · have honly : PortOnly n s (s.updPort n (fun p => { p with recal := none, bkUntil := none })) := (PortOnly.refl _ s).updPort _
      have hbk : ((s.updPort n (fun p => { p with recal := none, bkUntil := none })).portOf n).bk = (s.portOf n).bk := by rw [State.portOf_updPort_self]
      exact (honly.backKept hbk).trans (State.setF_backKept _ n (b := 11) (by decide) (by simp) (by simp))
    · exact .refl _ s
  · exact .refl _ s

/-- The flags, the event, the retraining and the trials of a back lane that is lost. -/
def State.backFailed (s : State) (n : Nat) : State :=
  (((s.raise (fZTL_STATUS_BACK_FAIL n) (rZTL_BACK_FAIL_COUNT n)).zEv evZTL_BACK_FAIL n 0).retrainEv n 3 false).bkTrials n

theorem State.bkTrials_kept (s : State) (n : Fin 4) : BackKept n s (s.bkTrials n) := by
  unfold State.bkTrials
  split
  · have honly : PortOnly n s (s.updPort n (fun p => { p with bkTry := some (0, s.time.now), bkErrs := [], bkOld := s.getF (fldBkCode n) })) :=
      (PortOnly.refl _ s).updPort _
    have hbk : ((s.updPort n (fun p => { p with bkTry := some (0, s.time.now), bkErrs := [], bkOld := s.getF (fldBkCode n) })).portOf n).bk = (s.portOf n).bk := by
      rw [State.portOf_updPort_self]
    exact honly.backKept hbk
  · exact .refl _ s

theorem State.backFailed_effect (s : State) (n : Fin 4) : BackKept n s (s.backFailed n) ∧ (s.backFailed n).isF (fZTL_STATUS_BACK_FAIL n) = true := by
  have hflag : (s.raise (fZTL_STATUS_BACK_FAIL n) (rZTL_BACK_FAIL_COUNT n)).isF (fZTL_STATUS_BACK_FAIL n) = true := State.isF_raise_self _ rfl (by simp) (by simp)
  have hkept : BackKept n s (s.raise (fZTL_STATUS_BACK_FAIL n) (rZTL_BACK_FAIL_COUNT n)) :=
    s.raise_backKept n (b := 19) (by decide) (by simp) (by simp) (.inl rfl)
  rw [State.backFailed]
  generalize s.raise (fZTL_STATUS_BACK_FAIL n) (rZTL_BACK_FAIL_COUNT n) = u at hflag hkept
  have hev : Quiet [] u (u.zEv evZTL_BACK_FAIL n 0) := (Quiet.refl _ u).post (by decide)
  generalize u.zEv evZTL_BACK_FAIL n 0 = v at hev
  have hvflag : v.isF (fZTL_STATUS_BACK_FAIL n) = true := (hev.isF _ (by simp) (status_not_evReg n)).trans hflag
  have hraise : BackKept n v (v.raise (fZTL_STATUS_RETRAIN n) (rZTL_RETRAIN_COUNT n)) := v.raise_backKept n (b := 17) (by decide) (by simp) (by simp) (.inr rfl)
  have hrflag : (v.raise (fZTL_STATUS_RETRAIN n) (rZTL_RETRAIN_COUNT n)).isF (fZTL_STATUS_BACK_FAIL n) = true := by
    rw [State.isF_raise _ (by simp), State.isF_setF_other _ _ _ _ (by simp) (by simp), hvflag]
  rw [State.retrainEv]
  generalize v.raise (fZTL_STATUS_RETRAIN n) (rZTL_RETRAIN_COUNT n) = w at hraise hrflag
  have hpost : Quiet [] w (w.zEv evZTL_RETRAIN n (3 + if false then 16 else 0)) := (Quiet.refl _ w).post (by decide)
  generalize w.zEv evZTL_RETRAIN n (3 + if false then 16 else 0) = x at hpost
  have hxflag : x.isF (fZTL_STATUS_BACK_FAIL n) = true := (hpost.isF _ (by simp) (status_not_evReg n)).trans hrflag
  refine ⟨hkept.trans (hev.backKept.trans (hraise.trans (hpost.backKept.trans (x.bkTrials_kept n)))), ?_⟩
  exact ((x.bkTrials_effect n).1.isF _).trans hxflag

/-- A sensing that waits is left unmeasured. -/
def State.awaitStale (s : State) (n : Nat) : State :=
  match (s.hl n).await with
  | some x => (s.updHl n (fun h => { h with await := none })).hlStale n x
  | none => s

theorem State.backLost_eq (s : State) (n : Nat) : s.backLost n = if s.zActive n = false ∨ s.isF (fZTL_STATUS_BACK_STALE n) then s
    else (((s.setF (fZTL_STATUS_BACK_STALE n) 1).awaitStale n).backRecalDrop n).backFailed n := rfl

theorem exec_backFail (hz : s.zState n = zACTIVE) (hst : s.isF (fZTL_STATUS_BACK_STALE n) = false) : exec (.backFail n) s = .next
    (((((s.updPort n (fun p => { p with bk := {} })).setF (fZTL_STATUS_BACK_STALE n) 1).awaitStale n).backRecalDrop n).backFailed n) := by
  have hx : exec (.backFail n) s = execBackFail n s := rfl
  have honly : PortOnly n s (s.updPort n (fun p => { p with bk := {} })) := (PortOnly.refl _ s).updPort _
  rw [hx, execBackFail, State.backLost_eq]
  refine congrArg _ (if_neg ?_)
  rw [honly.isF, hst, State.zActive_of ((honly.zState n).trans hz)]
  rintro (h | h) <;> exact absurd h (by decide)

theorem does_backFail (hz : s.zState n = zACTIVE) (hst : s.isF (fZTL_STATUS_BACK_STALE n) = false) (haw : (s.hl n).await = none) :
    Does (.backFail n) s (fun t => t.isF (fZTL_STATUS_BACK_STALE n) = true ∧ t.isF (fZTL_STATUS_BACK_FAIL n) = true ∧ t.zState n = zACTIVE ∧ (t.portOf n).bk = {}
      ∧ Quiet [rZTL_STATUS n, rZTL_BACK_FAIL_COUNT n, rZTL_RETRAIN_COUNT n] { s with port := t.port } t) := by
  refine ⟨_, exec_backFail hz hst, ?_⟩
  have honly : PortOnly n s (s.updPort n (fun p => { p with bk := {} })) := (PortOnly.refl _ s).updPort _
  have hbk : ((s.updPort n (fun p => { p with bk := {} })).portOf n).bk = {} := by rw [State.portOf_updPort_self]
  have hhl : (s.updPort n (fun p => { p with bk := {} })).health = s.health := by rw [honly.rest]
  generalize s.updPort n (fun p => { p with bk := {} }) = u at honly hbk hhl
  have hset : OnlyRegs [rZTL_STATUS n] u (u.setF (fZTL_STATUS_BACK_STALE n) 1) := (OnlyRegs.refl _ u).setF (by simp)
  have hstale : (u.setF (fZTL_STATUS_BACK_STALE n) 1).isF (fZTL_STATUS_BACK_STALE n) = true := State.isF_setF_one _ rfl (by simp)
  have hstate : (u.setF (fZTL_STATUS_BACK_STALE n) 1).zState n = u.zState n := State.getF_setF_other u (fZTL_STATUS_BACK_STALE n) _ _ (by simp) (by simp)
  generalize u.setF (fZTL_STATUS_BACK_STALE n) 1 = v at hset hstale hstate
  have hvhl : (v.hl n).await = none := by
    rw [State.hl_congr (hset.health.trans hhl)]
    exact haw
  have hsame : v.awaitStale n = v := by rw [State.awaitStale, hvhl]
  rw [hsame]
  have hdrop := v.backRecalDrop_kept n
  generalize v.backRecalDrop n = w at hdrop
  obtain ⟨hfail, hflag⟩ := w.backFailed_effect n
  have hall := hdrop.trans hfail
  refine ⟨hall.stale.trans hstale, hflag, hall.state.trans (hstate.trans ((honly.zState n).trans hz)), hall.bk.trans (by rw [hset.portOf, hbk]), ?_⟩
  exact (((PortQuiet.refl _ s).only honly).quiet (hset.quiet.mono (by simp))).trans hall.quiet

theorem State.hlStale_effect (s : State) (n : Nat) (x : SenseIn) : (s.hlStale n x).isF fHEALTH_STATUS_SENSE_STALE = true
    ∧ (s.hlStale n x).hl n = { s.hl n with intake := (s.hl n).intake ++ [x] } ∧ (s.hlStale n x).mem = s.mem := by
  have hflag : (s.raise fHEALTH_STATUS_SENSE_STALE rHEALTH_SENSE_STALE_COUNT).isF fHEALTH_STATUS_SENSE_STALE = true := State.isF_raise_self _ rfl (by decide) (by decide)
  have hraise : OnlyRegs [rHEALTH_STATUS, rHEALTH_SENSE_STALE_COUNT] s (s.raise fHEALTH_STATUS_SENSE_STALE rHEALTH_SENSE_STALE_COUNT) :=
    (OnlyRegs.refl _ s).raise (by decide) (by decide)
  rw [State.hlStale]
  generalize s.raise fHEALTH_STATUS_SENSE_STALE rHEALTH_SENSE_STALE_COUNT = u at hflag hraise
  have hev : Quiet [] u (u.hlEvOnce evHEALTH_SENSE_STALE n x.chunk) := (Quiet.refl _ u).postOnce (by decide)
  generalize u.hlEvOnce evHEALTH_SENSE_STALE n x.chunk = v at hev
  have hhl : v.hl n = s.hl n := State.hl_congr (hev.health.trans hraise.health) n
  have hvflag : v.isF fHEALTH_STATUS_SENSE_STALE = true := (hev.isF _ (by simp) (by decide)).trans hflag
  have hmem : v.mem = s.mem := hev.mem_eq.trans hraise.mem_eq
  refine ⟨hvflag, ?_, hmem⟩
  rw [State.hlIntake, State.hl_updHl, if_pos rfl, hhl]

theorem does_backFail_awaited (x : SenseIn) (hz : s.zState n = zACTIVE) (hst : s.isF (fZTL_STATUS_BACK_STALE n) = false) (haw : (s.hl n).await = some x) :
    Does (.backFail n) s (fun t => t.isF fHEALTH_STATUS_SENSE_STALE = true ∧ (t.hl n).await = none ∧ (t.hl n).intake = (s.hl n).intake ++ [x] ∧ t.mem = s.mem) := by
  refine ⟨_, exec_backFail hz hst, ?_⟩
  have honly : PortOnly n s (s.updPort n (fun p => { p with bk := {} })) := (PortOnly.refl _ s).updPort _
  have hhl : (s.updPort n (fun p => { p with bk := {} })).health = s.health := by rw [honly.rest]
  generalize s.updPort n (fun p => { p with bk := {} }) = u at honly hhl
  have hset : OnlyRegs [rZTL_STATUS n] u (u.setF (fZTL_STATUS_BACK_STALE n) 1) := (OnlyRegs.refl _ u).setF (by simp)
  generalize u.setF (fZTL_STATUS_BACK_STALE n) 1 = v at hset
  have hmem : v.mem = s.mem := hset.mem_eq.trans honly.mem
  have hvhl : v.hl n = s.hl n := State.hl_congr (hset.health.trans hhl) n
  have haway : v.awaitStale n = (v.updHl n (fun h => { h with await := none })).hlStale n x := by rw [State.awaitStale, hvhl, haw]
  rw [haway]
  have hget : (v.updHl n (fun h => { h with await := none })).hl n = { s.hl n with await := none } := by rw [State.hl_updHl, if_pos rfl, hvhl]
  have hgmem : (v.updHl n (fun h => { h with await := none })).mem = v.mem := rfl
  generalize v.updHl n (fun h => { h with await := none }) = w at hget hgmem
  obtain ⟨h1, h2, h3⟩ := w.hlStale_effect n x
  generalize w.hlStale n x = y at h1 h2 h3
  have hdrop := y.backRecalDrop_kept n
  generalize y.backRecalDrop n = z at hdrop
  have hall := hdrop.trans (z.backFailed_effect n).1
  generalize z.backFailed n = t at hall
  have hend : t.hl n = y.hl n := State.hl_congr (by rw [Quiet.health hall.quiet]) n
  refine ⟨?_, ?_, ?_, (PortQuiet.mem hall.quiet).trans (h3.trans (hgmem.trans hmem))⟩
  · rw [PortQuiet.isF hall.quiet _ ?_ (by decide), h1]
    · simp only [List.mem_cons, List.not_mem_nil, or_false, rHEALTH_STATUS, rZTL_STATUS, rZTL_BACK_FAIL_COUNT, rZTL_RETRAIN_COUNT]
      omega
  · rw [hend, h2, hget]
  · rw [hend, h2, hget]

theorem does_backRestored_not (h : s.zState n ≠ zACTIVE ∨ s.isF (fZTL_STATUS_BACK_STALE n) = false ∨ (s.portOf n).bkTry ≠ none) :
    Does (.backRestored n) s (fun t => t = s) := by
  have hx : exec (.backRestored n) s = execBackRestored n s := rfl
  rw [execBackRestored, if_neg] at hx
  · exact ⟨_, hx, rfl⟩
  · rintro ⟨h1, h2, h3⟩
    obtain h | h | h := h
    · exact h (beq_iff_eq.1 h1)
    · exact absurd (h2.symm.trans h) (by decide)
    · exact h (Option.isNone_iff_eq_none.1 h3)

theorem does_backRestored (hz : s.zState n = zACTIVE) (hst : s.isF (fZTL_STATUS_BACK_STALE n) = true) (htry : (s.portOf n).bkTry = none) :
    Does (.backRestored n) s (fun t => t.isF (fZTL_STATUS_BACK_STALE n) = false ∧ t.zState n = zACTIVE
      ∧ (t.portOf n).bk.lock = true
      ∧ t.getF ⟨rZTL_EQ_STATUS n, 12, 3⟩ = (if s.isF (fZTL_LANE_CFG_EQ_MODE n) then s.getF ⟨rZTL_EQ_STATUS n, 12, 3⟩
          else bitsOf (s.regN (rZTL_EQ_CFG n)) 12 3)
      ∧ Quiet [rZTL_STATUS n, rZTL_EQ_STATUS n] { s with port := t.port } t) := by
  have hx : exec (.backRestored n) s = execBackRestored n s := rfl
  rw [execBackRestored, if_pos ⟨State.zActive_of hz, hst, by rw [htry]; rfl⟩] at hx
  refine ⟨_, hx, ?_⟩
  have honly : PortOnly n s (s.updPort n (fun p => { p with bk := { p.bk with lock := true, buf := [], bad := [] } })) := (PortOnly.refl _ s).updPort _
  have hlock : ((s.updPort n (fun p => { p with bk := { p.bk with lock := true, buf := [], bad := [] } })).portOf n).bk.lock = true := by rw [State.portOf_updPort_self]
  generalize s.updPort n (fun p => { p with bk := { p.bk with lock := true, buf := [], bad := [] } }) = u at honly hlock
  obtain ⟨hcode, hfix⟩ := u.bkFixed_effect n
  generalize u.bkFixed n = v at hcode hfix
  have hvz : v.zState n = zACTIVE := (State.getF_congr (hfix.regs _ (by simp))).trans ((honly.zState n).trans hz)
  have hvst : v.isF (fZTL_STATUS_BACK_STALE n) = true := by
    rw [State.isF, State.getF_congr (hfix.regs _ (by simp)), ← State.isF, honly.isF, hst]
  have hrelock : v.backRelock n = (v.setF (fZTL_STATUS_BACK_STALE n) 0).zEv evZTL_BACK_RESTORED n 0 := if_pos ⟨State.zActive_of hvz, hvst⟩
  rw [hrelock]
  have hset : OnlyRegs [rZTL_STATUS n] v (v.setF (fZTL_STATUS_BACK_STALE n) 0) := (OnlyRegs.refl _ v).setF (by simp)
  have hstale : (v.setF (fZTL_STATUS_BACK_STALE n) 0).isF (fZTL_STATUS_BACK_STALE n) = false := by
    rw [State.isF_setF_bit _ _ (by decide)]
    rfl
  have hstate : (v.setF (fZTL_STATUS_BACK_STALE n) 0).zState n = v.zState n := State.getF_setF_other v (fZTL_STATUS_BACK_STALE n) _ _ (by simp) (by simp)
  generalize v.setF (fZTL_STATUS_BACK_STALE n) 0 = w at hset hstale hstate
  have hev : Quiet [] w (w.zEv evZTL_BACK_RESTORED n 0) := (Quiet.refl _ w).post (by decide)
  generalize w.zEv evZTL_BACK_RESTORED n 0 = t at hev
  have heq : rZTL_EQ_STATUS n ∉ evRegs := ztl_not_evReg n.isLt (by simp only [rZTL_CMD, rZTL_EQ_STATUS]; omega) (by simp only [rZTL_CMD, rZTL_EQ_STATUS]; omega)
  refine ⟨(hev.isF _ (by simp) (status_not_evReg n)).trans hstale, (hev.getF _ (by simp) (status_not_evReg n)).trans (hstate.trans hvz), ?_, ?_, ?_⟩
  · rw [hev.portOf, hset.portOf, hfix.portOf, hlock]
  · rw [hev.getF _ (by simp) heq, State.getF_congr (hset.regs _ (by simp)), hcode, honly.isF, honly.getF, State.regN_congr (honly.reg _)]
  · exact ((((PortQuiet.refl _ s).only honly).quiet (hfix.quiet.mono (by simp))).quiet (hset.quiet.mono (by simp))).quiet (hev.mono (by simp))

end

end Sys2Proof.Machine

/-! ## One control word of the back lane (R214 to R217, R224) -/

namespace Sys2Proof.Machine

/-! ### The bits of a word -/

theorem ofBits_append (l : List Bool) (b : Bool) : ofBits (l ++ [b]) = ofBits l + 2 ^ l.length * b.toNat := by
  induction l with
  | nil => simp [ofBits]
  | cons a l ih =>
    rw [List.cons_append, ofBits, ih, ofBits, List.length_cons, Nat.pow_succ]
    ring

theorem ofBits_testBits (x k : Nat) : ofBits ((List.range k).map (fun i => x.testBit i)) = x % 2 ^ k := by
  induction k with
  | zero => rw [Nat.pow_zero, Nat.mod_one]; rfl
  | succ k ih => rw [List.range_succ, List.map_append, List.map_singleton, ofBits_append, ih, List.length_map, List.length_range, Nat.mod_pow_succ,
      Nat.toNat_testBit]

/-- What the receiver sees of a control word's line bits: the header 10 and the payload. -/
theorem lineBits_seen (p : BitVec 64) (inv : Bool) : (lineBits (lineWord true p inv)).map (· != inv) = true :: false :: (List.range 64).map (fun i => p.getLsbD i) := by
  have hbit : ∀ k, k < 66 → ((lineWord true p inv).getLsbD k != inv) = (if k = 0 then true else if k = 1 then false else p.getLsbD (k - 2)) := by
    intro k hk
    have hplain : ((p.setWidth 66).shiftLeft 2 ||| (if true then 1#66 else 2#66)).getLsbD k = (if k = 0 then true else if k = 1 then false else p.getLsbD (k - 2)) := by
      rw [if_pos rfl, BitVec.getLsbD_or, BitVec.shiftLeft_eq, BitVec.getLsbD_shiftLeft, BitVec.getLsbD_setWidth]
      obtain rfl | rfl | h2 : k = 0 ∨ k = 1 ∨ 2 ≤ k := by omega
      · rfl
      · rfl
      · have hone : (1#66).getLsbD k = false := by
          rw [BitVec.getLsbD_one]
          simp only [Bool.and_eq_false_iff, decide_eq_false_iff_not]
          exact .inr (by omega)
        rw [hone, if_neg (by omega), if_neg (by omega), decide_eq_true hk, decide_eq_false (by omega), decide_eq_true (by omega)]
        simp
    rw [lineWord]
    cases inv with
    | false => simpa using hplain
    | true =>
      rw [if_pos rfl, BitVec.getLsbD_not, decide_eq_true hk, hplain]
      simp
  rw [lineBits, List.map_map]
  have hcongr : (List.range 66).map ((· != inv) ∘ fun k => (lineWord true p inv).getLsbD k)
      = (List.range 66).map (fun k => if k = 0 then true else if k = 1 then false else p.getLsbD (k - 2)) :=
    List.map_congr_left fun k hk => hbit k (List.mem_range.1 hk)
  rw [hcongr]
  rfl

/-! ### The receiver -/

theorem BkRx.bit_part (r : BkRx) (b : Bool) (h : r.buf.length < 65) : r.bit b = ({ r with buf := r.buf ++ [b] }, .part) := by
  rw [BkRx.bit]
  exact if_pos (by rw [List.length_append, List.length_singleton]; omega)

/-- In lock the bit that completes the word `w`, scrambled in step with the receiver. -/
theorem BkRx.bit_word (r : BkRx) (w : BitVec 64) (b : Bool) (hlock : r.lock = true) (hbad : r.bad.count true < 15)
    (hbuf : r.buf ++ [b] = true :: false :: (List.range 64).map (fun i => (scramble r.hist w).1.getLsbD i)) :
    r.bit b = ({ r with hist := histWord (scramble r.hist w).1, buf := [], bad := ((!ctlGood w) :: r.bad).take 64 }, if ctlGood w = true then .word true w else .bad) := by
  have hraw : BitVec.ofNat 64 (ofBits ((r.buf ++ [b]).drop 2)) = (scramble r.hist w).1 := by
    rw [hbuf]
    refine BitVec.eq_of_toNat_eq ?_
    rw [BitVec.toNat_ofNat]
    show ofBits ((List.range 64).map (fun i => (scramble r.hist w).1.toNat.testBit i)) % 2 ^ 64 = _
    rw [ofBits_testBits, Nat.mod_mod, Nat.mod_eq_of_lt (scramble r.hist w).1.isLt]
  have hlen : ¬(r.buf ++ [b]).length < 66 := by
    rw [hbuf]
    simp
  have hcount : ¬16 ≤ (((!ctlGood w) :: r.bad).take 64).count true := by
    have hle : (((!ctlGood w) :: r.bad).take 64).count true ≤ ((!ctlGood w) :: r.bad).count true := (List.take_sublist _ _).count_le _
    have hcons : ((!ctlGood w) :: r.bad).count true ≤ r.bad.count true + 1 := by
      rw [List.count_cons]
      split <;> omega
    omega
  have h0 : (r.buf ++ [b]).getD 0 false = true := by rw [hbuf]; rfl
  have h1 : (r.buf ++ [b]).getD 1 false = false := by rw [hbuf]; rfl
  rw [BkRx.bit]
  dsimp only
  rw [if_neg hlen, hraw, descramble_scramble, h0, h1, if_pos hlock]
  have hvalid : ((true != false) && (!true || ctlGood w)) = ctlGood w := by cases ctlGood w <;> rfl
  rw [hvalid, BkRx.locked, if_neg hcount]

section
variable {s : State} {n : Nat}

/-- The checker of the back lane takes nothing of a part of a word, an invalid word or a control word of an ACTIVE port. -/
theorem State.bkCheck_kept (hz : s.zState n = zACTIVE) (old : BkRx) (b : Bool) {o : BkOut} (ho : ∀ x, o ≠ .word false x) : s.bkCheck n old b o = s := by
  have hmode : s.chkMode n = none ∨ s.chkMode n = some (3, false) := by
    unfold State.chkMode
    extract_lets c
    rw [if_neg (by rw [hz]; rintro ⟨h, -⟩; exact absurd h (by decide))]
    split
    · exact .inr rfl
    · exact .inl rfl
  unfold State.bkCheck
  obtain h | h := hmode
  · rw [h]
  · rw [h]
    split
    · next heq => exact absurd heq (by simp)
    · next x heq => exact absurd rfl (ho x)
    · rfl

/-- The receiver of port `n` is `r`. -/
def State.putBk (s : State) (n : Nat) (r : BkRx) : State := s.updPort n (fun p => { p with bk := r })

theorem State.putBk_effect (s : State) (n : Nat) (r : BkRx) : PortOnly n s (s.putBk n r) ∧ (s.putBk n r).portOf n = { s.portOf n with bk := r } :=
  ⟨(PortOnly.refl n s).updPort _, s.portOf_updPort_self n _⟩

/-- The control word that an answer of the receiver holds. -/
def BkOut.said : BkOut → Option (BitVec 64)
  | .word true w => some w
  | _ => none

/-- What a line bit does once the receiver has taken it. -/
def State.bkTaken (s : State) (n : Nat) (b : Bool) (q : BkRx × BkOut) : Option (BitVec 64) × State :=
  let u := (s.putBk n q.1).bkCheck n (s.portOf n).bk b q.2
  let v := if q.2 = .bad ∧ u.zActive n then u.setRegN (rZTL_BK_HDR_ERR n) (satAt 0xFFFFFFFF (u.regN (rZTL_BK_HDR_ERR n) + 1)) else u
  (q.2.said,
    if (s.portOf n).bk.lock ∧ q.1.lock = false then v.backLost n
    else if (s.portOf n).bk.lock = false ∧ q.1.lock ∧ (s.portOf n).bkTry.isNone then v.backRelock n
    else v)

theorem State.bkBit_eq (s : State) (n : Nat) (b : Bool) : s.bkBit n b = s.bkTaken n (b != s.isF (fZTL_LANE_CFG_BK_INV n)) ((s.portOf n).bk.bit (b != s.isF (fZTL_LANE_CFG_BK_INV n))) := rfl

/-- A bit of an ACTIVE port in lock: the receiver takes it, and an invalid word is counted. -/
theorem State.bkTaken_locked (hz : s.zState n = zACTIVE) (hlock : (s.portOf n).bk.lock = true) (b : Bool) {r : BkRx} {o : BkOut} (hr : r.lock = true)
    (ho : ∀ x, o ≠ .word false x) : s.bkTaken n b (r, o) = (o.said,
      if o = .bad then (s.putBk n r).setRegN (rZTL_BK_HDR_ERR n) (satAt 0xFFFFFFFF ((s.putBk n r).regN (rZTL_BK_HDR_ERR n) + 1)) else s.putBk n r) := by
  obtain ⟨honly, -⟩ := s.putBk_effect n r
  have hzu := (honly.zState n).trans hz
  have hact : (s.putBk n r).zActive n = true := beq_iff_eq.2 hzu
  have hcheck := State.bkCheck_kept hzu (s.portOf n).bk b ho
  rw [State.bkTaken]
  dsimp only
  rw [hcheck, hact, if_neg (by rw [hr]; rintro ⟨-, h⟩; exact absurd h (by decide)), if_neg (by rw [hlock]; rintro ⟨h, -⟩; exact absurd h (by decide))]
  simp only [and_true]

/-- The bits of a word that is not complete fill the receiver. -/
theorem State.bkTake_parts (l : List Bool) : ∀ s : State, s.zState n = zACTIVE → (s.portOf n).bk.lock = true → (s.portOf n).bk.buf.length + l.length < 66 →
    let x := l.foldl (fun (x : Option (BitVec 64) × State) b => x.2.bkBit n b) (none, s)
    x.1 = none ∧ PortOnly n s x.2
      ∧ (x.2.portOf n).bk = { (s.portOf n).bk with buf := (s.portOf n).bk.buf ++ l.map (· != s.isF (fZTL_LANE_CFG_BK_INV n)) } := by
  induction l with
  | nil => exact fun s _ _ _ => ⟨rfl, .refl n s, by rw [List.map_nil, List.append_nil]; rfl⟩
  | cons b l ih =>
    intro s hz hlock hlen
    rw [List.length_cons] at hlen
    have hpart := BkRx.bit_part (s.portOf n).bk (b != s.isF (fZTL_LANE_CFG_BK_INV n)) (by omega)
    have hstep : s.bkBit n b = (none, s.putBk n { (s.portOf n).bk with buf := (s.portOf n).bk.buf ++ [b != s.isF (fZTL_LANE_CFG_BK_INV n)] }) := by
      have htaken := State.bkTaken_locked hz hlock (b != s.isF (fZTL_LANE_CFG_BK_INV n))
        (r := { (s.portOf n).bk with buf := (s.portOf n).bk.buf ++ [b != s.isF (fZTL_LANE_CFG_BK_INV n)] }) (o := .part) hlock (fun x h => by cases h)
      rw [State.bkBit_eq, hpart]
      exact htaken
    obtain ⟨honly, hport⟩ := s.putBk_effect n { (s.portOf n).bk with buf := (s.portOf n).bk.buf ++ [b != s.isF (fZTL_LANE_CFG_BK_INV n)] }
    intro x
    have hx : x = l.foldl (fun (x : Option (BitVec 64) × State) b => x.2.bkBit n b)
        (none, s.putBk n { (s.portOf n).bk with buf := (s.portOf n).bk.buf ++ [b != s.isF (fZTL_LANE_CFG_BK_INV n)] }) := by
      unfold x
      rw [List.foldl_cons]
      dsimp only
      rw [hstep]
    clear_value x
    generalize s.putBk n { (s.portOf n).bk with buf := (s.portOf n).bk.buf ++ [b != s.isF (fZTL_LANE_CFG_BK_INV n)] } = u at honly hport hx
    obtain ⟨h1, h2, h3⟩ := ih u ((honly.zState n).trans hz) (by rw [hport]; exact hlock) (by rw [hport]; simp only [List.length_append, List.length_singleton]; omega)
    rw [← hx] at h1 h2 h3
    refine ⟨h1, honly.trans h2, h3.trans ?_⟩
    rw [hport, honly.isF]
    simp only [List.map_cons, List.append_assoc, List.singleton_append]

/-- A control word of an ACTIVE port in lock, taken from its line bits. -/
theorem State.bkTake_word (hz : s.zState n = zACTIVE) (hlock : (s.portOf n).bk.lock = true) (hbuf : (s.portOf n).bk.buf = []) (hbad : (s.portOf n).bk.bad.count true < 15)
    (w : BitVec 64) :
    let x := s.bkTake n (lineBits (lineWord true (scramble (s.portOf n).bk.hist w).1 (s.isF (fZTL_LANE_CFG_BK_INV n))))
    ∃ u, PortOnly n s u ∧ (u.portOf n).bk.lock = true ∧ (u.portOf n).bk.buf = []
      ∧ x = (if ctlGood w = true then some (bitsOf w.toNat 56 8, BitVec.ofNat 48 (bitsOf w.toNat 8 48)) else none,
        if ctlGood w = true then u else u.setRegN (rZTL_BK_HDR_ERR n) (satAt 0xFFFFFFFF (u.regN (rZTL_BK_HDR_ERR n) + 1))) := by
  intro x
  have hseen := lineBits_seen (scramble (s.portOf n).bk.hist w).1 (s.isF (fZTL_LANE_CFG_BK_INV n))
  have hx : x = s.bkTake n (lineBits (lineWord true (scramble (s.portOf n).bk.hist w).1 (s.isF (fZTL_LANE_CFG_BK_INV n)))) := rfl
  clear_value x
  have hsplit : lineBits (lineWord true (scramble (s.portOf n).bk.hist w).1 (s.isF (fZTL_LANE_CFG_BK_INV n)))
      = (List.range 65).map (fun k => (lineWord true (scramble (s.portOf n).bk.hist w).1 (s.isF (fZTL_LANE_CFG_BK_INV n))).getLsbD k)
        ++ [(lineWord true (scramble (s.portOf n).bk.hist w).1 (s.isF (fZTL_LANE_CFG_BK_INV n))).getLsbD 65] := by
    rw [lineBits, List.range_succ, List.map_append, List.map_singleton]
  have hlen : ((List.range 65).map (fun k => (lineWord true (scramble (s.portOf n).bk.hist w).1 (s.isF (fZTL_LANE_CFG_BK_INV n))).getLsbD k)).length = 65 := by
    rw [List.length_map, List.length_range]
  rw [hsplit] at hx hseen
  generalize (List.range 65).map (fun k => (lineWord true (scramble (s.portOf n).bk.hist w).1 (s.isF (fZTL_LANE_CFG_BK_INV n))).getLsbD k) = l at hx hseen hlen
  generalize (lineWord true (scramble (s.portOf n).bk.hist w).1 (s.isF (fZTL_LANE_CFG_BK_INV n))).getLsbD 65 = b at hx hseen
  obtain ⟨-, honly, hbk⟩ := State.bkTake_parts (n := n) l s hz hlock (by rw [hbuf, hlen]; decide)
  rw [State.bkTake, List.foldl_append] at hx
  generalize l.foldl (fun (x : Option (BitVec 64) × State) b => x.2.bkBit n b) (none, s) = q at hx honly hbk
  obtain ⟨q1, v⟩ := q
  rw [hbuf, List.nil_append] at hbk
  rw [List.map_append, List.map_singleton] at hseen
  have hinv : v.isF (fZTL_LANE_CFG_BK_INV n) = s.isF (fZTL_LANE_CFG_BK_INV n) := honly.isF _
  have hlockv : (v.portOf n).bk.lock = true := by rw [hbk]; exact hlock
  have hist : (v.portOf n).bk.hist = (s.portOf n).bk.hist := by rw [hbk]
  have hword := BkRx.bit_word (v.portOf n).bk w (b != s.isF (fZTL_LANE_CFG_BK_INV n)) hlockv (by rw [hbk]; exact hbad) (by rw [hist, hbk]; exact hseen)
  generalize hr : ({ (v.portOf n).bk with hist := _, buf := [], bad := _ } : BkRx) = r at hword
  have hrlock : r.lock = true := by rw [← hr]; exact hlockv
  have hrbuf : r.buf = [] := by rw [← hr]
  obtain ⟨hput, hport⟩ := v.putBk_effect n r
  have htaken := fun o ho => State.bkTaken_locked ((honly.zState n).trans hz) hlockv (b != s.isF (fZTL_LANE_CFG_BK_INV n)) (r := r) (o := o) hrlock ho
  refine ⟨v.putBk n r, honly.trans hput, by rw [hport]; exact hrlock, by rw [hport]; exact hrbuf, ?_⟩
  rw [hx, List.foldl_cons, List.foldl_nil]
  dsimp only
  rw [State.bkBit_eq, hinv, hword]
  cases hgood : ctlGood w with
  | true => rw [if_pos rfl, htaken _ (fun x h => by cases h), if_neg (fun h => by cases h)]; rfl
  | false => rw [if_neg (by decide), htaken _ (fun x h => by cases h), if_pos rfl]; rfl

/-- An invalid word on the line: nothing comes of it but the receiver's state and the count. -/
theorem does_backLane_bad {n : Fin 4} {line : List Bool} (hp : s.boot.porst = true) (hw : (s.bkTake n line).1 = none) {c : Instr}
    (hc : c ∈ [Instr.trainReport n ⟨line⟩, .linkStatus n ⟨line⟩, .ack n ⟨line⟩, .swapAck n ⟨line⟩, .tileStatus n ⟨line⟩, .regData n ⟨line⟩]) :
    exec c s = .next (s.bkTake n line).2 := by
  have hsilent : ∀ ty act, s.backIn n ty ⟨line⟩ act = (s.bkTake n line).2 := fun ty act => State.backIn_silent n ty ⟨line⟩ s act hp fun p hsome => by
    rw [hw] at hsome
    cases hsome
  simp only [List.mem_cons, List.not_mem_nil, or_false] at hc
  obtain rfl | rfl | rfl | rfl | rfl | rfl := hc
  · exact congrArg _ (hsilent _ _)
  · exact congrArg _ (hsilent _ _)
  · exact congrArg _ (hsilent _ _)
  · exact congrArg _ (hsilent _ _)
  · exact congrArg _ (hsilent _ _)
  · exact congrArg _ (hsilent _ _)

theorem bkTake_controlWord {n : Fin 4} (hz : s.zState n = zACTIVE) (hlock : (s.portOf n).bk.lock = true) (hbuf : (s.portOf n).bk.buf = [])
    (hbad : (s.portOf n).bk.bad.count true < 15) (w : BitVec 64) :
    let line := lineBits (lineWord true (scramble (s.portOf n).bk.hist w).1 (s.isF (fZTL_LANE_CFG_BK_INV n)))
    let u := (s.bkTake n line).2
    u = { s with port := u.port, regs := u.regs } ∧ (u.portOf n).bk.lock = true ∧ (u.portOf n).bk.buf = []
    ∧ (ctlGood w = true → (s.bkTake n line).1 = some (bitsOf w.toNat 56 8, BitVec.ofNat 48 (bitsOf w.toNat 8 48))
      ∧ ∀ off, u.reg off = s.reg off)
    ∧ (ctlGood w = false → s.boot.porst = true → ∀ c ∈ [Instr.trainReport n ⟨line⟩, .linkStatus n ⟨line⟩, .ack n ⟨line⟩, .swapAck n ⟨line⟩,
        .tileStatus n ⟨line⟩, .regData n ⟨line⟩], Does c s (fun t => t = u
      ∧ t.regN (rZTL_BK_HDR_ERR n) = min 0xFFFFFFFF (s.regN (rZTL_BK_HDR_ERR n) + 1)
      ∧ ∀ off, off ≠ rZTL_BK_HDR_ERR n → t.reg off = s.reg off)) := by
  intro line u
  obtain ⟨v, honly, hvlock, hvbuf, hx⟩ := State.bkTake_word hz hlock hbuf hbad w
  have hx1 : s.bkTake n line = _ := hx
  have hu : u = (s.bkTake n line).2 := rfl
  clear_value line u
  clear hx
  cases hgood : ctlGood w with
  | true =>
    rw [hgood, if_pos rfl, if_pos rfl] at hx1
    rw [hx1] at hu
    rw [hu, hx1]
    refine ⟨?_, hvlock, hvbuf, fun _ => ⟨rfl, honly.reg⟩, fun h => absurd h (by decide)⟩
    dsimp only
    rw [honly.rest]
  | false =>
    rw [hgood, if_neg (by decide), if_neg (by decide)] at hx1
    rw [hx1] at hu
    have hset : OnlyRegs [rZTL_BK_HDR_ERR n] v (v.setRegN (rZTL_BK_HDR_ERR n) (satAt 0xFFFFFFFF (v.regN (rZTL_BK_HDR_ERR n) + 1))) := (OnlyRegs.refl _ v).setRegN (by simp)
    have hval : (v.setRegN (rZTL_BK_HDR_ERR n) (satAt 0xFFFFFFFF (v.regN (rZTL_BK_HDR_ERR n) + 1))).regN (rZTL_BK_HDR_ERR n)
        = min 0xFFFFFFFF (s.regN (rZTL_BK_HDR_ERR n) + 1) := by
      rw [State.regN_setRegN, if_pos rfl, State.regN_congr (honly.reg _), satAt]
      omega
    generalize v.setRegN (rZTL_BK_HDR_ERR n) (satAt 0xFFFFFFFF (v.regN (rZTL_BK_HDR_ERR n) + 1)) = x at hset hval hx1 hu
    dsimp only at hu
    rw [hu]
    refine ⟨?_, ?_, ?_, fun h => absurd h (by decide), fun _ hp c hc => ⟨_, does_backLane_bad hp (by rw [hx1]) hc, ?_⟩⟩
    · rw [hset.rest, honly.rest]
    · rw [hset.portOf]
      exact hvlock
    · rw [hset.portOf]
      exact hvbuf
    · rw [hx1]
      exact ⟨rfl, hval, fun off hoff => (hset.regs off (by simpa using hoff)).trans (honly.reg off)⟩

end

/-- Settles O50: the words of the back lane, the margin, the recalibration and the losses of an ACTIVE port, each by its own lemma. -/
theorem linkActive : Obligations.LinkActive := by
  unfold Obligations.LinkActive
  exact ⟨fun n b p r s h hz => linkStatus_says b p r h hz, fun n c o s hz hsp hcal => does_spareMarginCheck c o hz hsp hcal,
    fun n s hz hrec hsp c h => does_recal_next hz hrec hsp c h, fun n s h => does_recalStep_off h,
    fun n l s hz hfail hready hcal => does_laneRetrain l hz hfail hready hcal, fun n s hz hst haw => does_backFail hz hst haw,
    fun n x s hz hst haw => does_backFail_awaited x hz hst haw, fun n s h => does_backRestored_not h, fun n s hz hst htry => does_backRestored hz hst htry,
    fun n w s hz hlock hbuf hbad => bkTake_controlWord hz hlock hbuf hbad w, fun n s hz => does_bkLossOfSignal hz⟩

end Sys2Proof.Machine

/-! ## The scrubber, the check of the on-chip memories, injection (R387 to R392) -/

namespace Sys2Proof.Machine

section
variable {s t u : State}

/-! ### A word whose bits are right, and one with a single error -/

theorem State.checkWord_of_clean (h : s.ecc.synd = []) (w : Nat) : s.checkWord w = (false, s) := by
  have hsyn : s.syndAt w = 0 := by
    rw [State.syndAt, h]
    rfl
  rw [State.checkWord, hsyn]
  cases eccRegion w with
  | none => rfl
  | some r => rfl

/-- The syndromes of memory's words and CE stand. -/
structure SyndKept (s t : State) : Prop where
  synd : t.ecc.synd = s.ecc.synd
  seen : t.getF fMEM_ECC_STATUS_CE = s.getF fMEM_ECC_STATUS_CE
  be : t.be = s.be

theorem SyndKept.refl (s : State) : SyndKept s s := ⟨rfl, rfl, rfl⟩

theorem SyndKept.trans (h : SyndKept s u) (k : SyndKept u t) : SyndKept s t := ⟨k.synd.trans h.synd, k.seen.trans h.seen, k.be.trans h.be⟩

theorem SyndKept.ite {c : Prop} [Decidable c] {a b : State} (h : SyndKept s a) (k : SyndKept s b) : SyndKept s (if c then a else b) := by
  split
  · exact h
  · exact k

theorem SyndKept.quiet {l : List Nat} (h : SyndKept s u) (q : Quiet l u t) (hl : rMEM_ECC_STATUS ∉ l) : SyndKept s t :=
  h.trans ⟨by rw [q.rest], q.getF _ hl (by decide), by rw [q.rest]⟩

theorem SyndKept.ecc (h : SyndKept s u) {x : Ecc} (hx : x.synd = u.ecc.synd) : SyndKept s { u with ecc := x } := h.trans ⟨hx, rfl, rfl⟩

theorem SyndKept.notePost (h : SyndKept s u) (k v : Nat) : SyndKept s (u.notePost k v) := h.trans ⟨rfl, rfl, rfl⟩

theorem SyndKept.eccRecent (h : SyndKept s u) (r w : Nat) : SyndKept s (u.eccRecent r w) := by
  have hraise : SyndKept u (u.raise fMEM_ECC_STATUS_CE_REPEAT rMEM_CE_REPEAT_COUNT) :=
    ⟨rfl, by rw [State.raise, State.getF_bump_other _ (by decide), State.getF_setF_other _ _ _ _ (by decide) (.inr (.inl (by decide)))], rfl⟩
  unfold State.eccRecent
  extract_lets -merge v1 v2 v3
  split
  · exact .ite ((h.trans hraise).quiet (l := []) ((Quiet.refl _ _).post (by decide)) (by simp)) (h.ecc rfl)
  · exact h.ecc rfl

/-- A corrected error is flagged, and nothing else of the syndromes or the engines changes. -/
theorem State.noteCe_effect (s : State) (r w syn : Nat) : (s.noteCe r w syn).ecc.synd = s.ecc.synd ∧ (s.noteCe r w syn).isF fMEM_ECC_STATUS_CE = true
    ∧ (s.noteCe r w syn).be = s.be := by
  have hcount : (s.beCount w).ecc = s.ecc ∧ (s.beCount w).be = s.be := by
    unfold State.beCount
    split
    · exact ⟨rfl, rfl⟩
    · exact ⟨rfl, rfl⟩
  unfold State.noteCe
  extract_lets -merge v1 v2 v3 v4 v5 v6 v7 v8 v9 v10 v11 v12
  have hce : v1.isF fMEM_ECC_STATUS_CE = true := State.isF_raise_self _ rfl (by decide) (by decide)
  have h1 : OnlyRegs [fMEM_ECC_STATUS_CE.off, rMEM_CE_COUNT] (s.beCount w) v1 := (OnlyRegs.refl _ _).raise (by simp) (by simp)
  have hsynd : v1.ecc.synd = s.ecc.synd := by rw [h1.rest]; exact congrArg _ hcount.1
  have hbe : v1.be = s.be := by rw [h1.rest]; exact hcount.2
  clear_value v1
  have h2 : SyndKept v1 v2 := (SyndKept.refl v1).quiet (l := [rMEM_ECC_REGION r]) ((OnlyRegs.refl _ v1).setF (by simp)).quiet (by simp only [List.mem_singleton, rMEM_ECC_REGION, rMEM_ECC_STATUS]; omega)
  have h3 : SyndKept v1 v3 := h2.quiet (l := [rMEM_LAST_CE_ADDR_LO, rMEM_LAST_CE_ADDR_HI]) ((OnlyRegs.refl _ v2).setPair (by simp) (by simp)).quiet (by decide)
  have h4 : SyndKept v1 v4 := h3.quiet (l := [rMEM_LAST_CE_INFO]) ((OnlyRegs.refl _ v3).setRegN (by simp)).quiet (by decide)
  have h7 : SyndKept v1 v7 := h4.ecc rfl
  have h10 : SyndKept v1 v10 := (h7.notePost _ _).quiet (l := []) ((Quiet.refl _ _).post (by decide)) (by simp)
  have h12 : SyndKept v1 v12 := .ite (h10.ecc rfl) h7
  have hend := h12.eccRecent r w
  refine ⟨hend.synd.trans hsynd, ?_, hend.be.trans hbe⟩
  rw [State.isF, hend.seen]
  exact hce

theorem eccClassify_column : ∀ k : Fin 32, eccClassify (eccColumn k) = .corrected (some k) := by decide +kernel

/-- A single error is put right. -/
theorem State.checkWord_column {w r : Nat} {k : Fin 32} (hsyn : s.syndAt w = eccColumn k) (hr : eccRegion w = some r) (h4 : r ≠ 4) :
    ∃ t, s.checkWord w = (false, t) ∧ t.syndAt w = 0 ∧ t.mem = (s.flipMem w k).mem ∧ t.isF fMEM_ECC_STATUS_CE = true ∧ t.be = s.be := by
  have hx : s.checkWord w = (false, ((s.flipMem w k).setSynd w 0).noteCe r w (eccColumn k)) := by
    rw [State.checkWord, hr, hsyn]
    dsimp only
    rw [eccClassify_column]
    dsimp only
    rw [if_neg h4]
  obtain ⟨h1, h2, h3⟩ := ((s.flipMem w k).setSynd w 0).noteCe_effect r w (eccColumn k)
  refine ⟨_, hx, ?_, State.mem_noteCe _ _ _ _, h2, h3⟩
  rw [State.syndAt, h1]
  exact (tabGet_tabSet (fun _ => 0) _ w w 0).trans (if_pos rfl)

/-! ### SCRUB_READ -/

theorem does_scrubRead_off (h : s.isF fMEM_SCRUB_CFG_EN = false ∨ s.wp = 0) : Does .scrubRead s (fun t => t = s) :=
  ⟨s, congrArg _ (if_pos h), rfl⟩

/-- The word that the scrubber reads next. -/
def State.scrubNext (s : State) : Nat := if s.wp < s.ecc.scrubAt + 4 then 0 else s.ecc.scrubAt

theorem exec_scrubRead (hen : s.isF fMEM_SCRUB_CFG_EN = true) (hwp : s.wp ≠ 0) (hc : Clean s) : exec .scrubRead s = .next
    (if s.scrubNext + 4 = s.wp then
      (({ s with ecc := { s.ecc with scrubAt := 0 } }.setF fMEM_SCRUB_STATUS_PASSES ((s.getF fMEM_SCRUB_STATUS_PASSES + 1) % 65536)).setF fMEM_SCRUB_STATUS_PROGRESS 0).post
        evMEM_SCRUB_DONE srcMEM ((s.getF fMEM_SCRUB_STATUS_PASSES + 1) % 65536)
     else { s with ecc := { s.ecc with scrubAt := s.scrubNext + 4 } }.setF fMEM_SCRUB_STATUS_PROGRESS (1000 * s.scrubNext / s.wp)) := by
  have hx : exec .scrubRead s = execScrubRead s := rfl
  rw [hx, execScrubRead]
  dsimp only
  rw [if_neg (by rintro (h | h); exacts [absurd (hen.symm.trans h) (by decide), hwp h]), ← State.scrubNext, State.checkWord_of_clean hc.1]

theorem does_scrubRead_word (hen : s.isF fMEM_SCRUB_CFG_EN = true) (hwp : s.wp ≠ 0) (hc : Clean s) (hw : s.scrubNext + 4 ≠ s.wp) :
    Does .scrubRead s (fun t => t.getF fMEM_SCRUB_STATUS_PROGRESS = 1000 * s.scrubNext / s.wp ∧ t.ecc = { s.ecc with scrubAt := s.scrubNext + 4 }
      ∧ Quiet [rMEM_SCRUB_STATUS] { s with ecc := t.ecc } t) := by
  have hx := exec_scrubRead hen hwp hc
  rw [if_neg hw] at hx
  have hlt : 1000 * s.scrubNext / s.wp < 1024 := by
    have hle : s.scrubNext ≤ s.wp := by
      rw [State.scrubNext]
      split <;> omega
    exact lt_of_le_of_lt (Nat.div_le_of_le_mul (by rw [Nat.mul_comm]; exact Nat.mul_le_mul_right _ hle)) (by decide : 1000 < 1024)
  generalize 1000 * s.scrubNext / s.wp = p at hx hlt
  refine ⟨_, hx, ?_, rfl, (Quiet.refl _ _).setF (by simp)⟩
  rw [State.getF_setF _ _ _ (by decide)]
  exact Nat.mod_eq_of_lt hlt

theorem does_scrubRead_pass (hen : s.isF fMEM_SCRUB_CFG_EN = true) (hwp : s.wp ≠ 0) (hc : Clean s) (hw : s.scrubNext + 4 = s.wp) :
    Does .scrubRead s (fun t => t.getF fMEM_SCRUB_STATUS_PROGRESS = 0 ∧ t.ecc = { s.ecc with scrubAt := 0 }
      ∧ t.getF fMEM_SCRUB_STATUS_PASSES = (s.getF fMEM_SCRUB_STATUS_PASSES + 1) % 65536
      ∧ Quiet [rMEM_SCRUB_STATUS] { s with ecc := t.ecc } t) := by
  have hx := exec_scrubRead hen hwp hc
  rw [if_pos hw] at hx
  generalize s.getF fMEM_SCRUB_STATUS_PASSES + 1 = n at hx ⊢
  refine ⟨_, hx, ?_⟩
  have hv : OnlyRegs [rMEM_SCRUB_STATUS] { s with ecc := { s.ecc with scrubAt := 0 } }
      (({ s with ecc := { s.ecc with scrubAt := 0 } }.setF fMEM_SCRUB_STATUS_PASSES (n % 65536)).setF fMEM_SCRUB_STATUS_PROGRESS 0) :=
    ((OnlyRegs.refl _ _).setF (by simp)).setF (by simp)
  have hprog := ({ s with ecc := { s.ecc with scrubAt := 0 } }.setF fMEM_SCRUB_STATUS_PASSES (n % 65536)).getF_setF fMEM_SCRUB_STATUS_PROGRESS 0 (by decide)
  have hpass : (({ s with ecc := { s.ecc with scrubAt := 0 } }.setF fMEM_SCRUB_STATUS_PASSES (n % 65536)).setF fMEM_SCRUB_STATUS_PROGRESS 0).getF fMEM_SCRUB_STATUS_PASSES = n % 65536 := by
    rw [State.getF_setF_other _ _ _ _ (by decide) (.inr (.inr (by decide))), State.getF_setF _ _ _ (by decide)]
    exact Nat.mod_mod n 65536
  generalize ({ s with ecc := { s.ecc with scrubAt := 0 } }.setF fMEM_SCRUB_STATUS_PASSES (n % 65536)).setF fMEM_SCRUB_STATUS_PROGRESS 0 = v at hv hprog hpass
  have hev : Quiet [] v (v.post evMEM_SCRUB_DONE srcMEM (n % 65536)) := (Quiet.refl _ v).post (by decide)
  generalize v.post evMEM_SCRUB_DONE srcMEM (n % 65536) = t at hev
  have hecc : t.ecc = { s.ecc with scrubAt := 0 } := by rw [hev.rest, hv.rest]
  refine ⟨(hev.getF _ (by simp) (by decide)).trans hprog, hecc, (hev.getF _ (by simp) (by decide)).trans hpass, ?_⟩
  rw [hecc]
  exact hv.quiet.trans (hev.mono (by simp))

/-! ### SRAM_CHECK -/

theorem State.sramWord_of_clean (h : s.ecc.synd = []) (w : Nat) : s.sramWord w = s := by
  rw [State.sramWord]
  split
  · rfl
  · split
    · rw [State.checkWord_of_clean h]
    · rw [State.beCheck_of_no_synd h]
      rfl

/-- A memory of the engines: R101 holds too, and a word that is put right stops no engine. -/
theorem State.sramWord_checked {w : Nat} {t : State} (hr : eccRegion w = some 1 ∨ eccRegion w = some 2 ∨ eccRegion w = some 3 ∨ eccRegion w = some 6 ∧ s.boot.aon = true)
    (hd : s.dirtyWords w 4 = [w]) (hx : s.checkWord w = (false, t)) : s.sramWord w = t := by
  have hcheck : s.beCheck w 4 = ((false, s.ceIn w 4), t) := by
    rw [State.beCheck, State.checkRange, hd, List.foldl_cons, List.foldl_nil]
    dsimp only
    rw [hx]
    rfl
  have hread : ¬(eccRegion w = none ∨ eccRegion w = some 0 ∨ eccRegion w = some 6 ∧ s.boot.aon = false) := by
    obtain h | h | h | ⟨h, ha⟩ := hr
    · simp [h]
    · simp [h]
    · simp [h]
    · simp [h, ha]
  rw [State.sramWord, if_neg hread]
  split
  · rw [hx]
  · rw [hcheck]
    rfl

theorem does_sramCheck_word (b : BitVec 40) (k : Fin 32) (s : State) : let w := b.toNat / 4 * 4
    (s.ecc.synd = [] → Does (.sramCheck (.word b)) s (fun t => t = s))
    ∧ (s.syndAt w = eccColumn k → s.dirtyWords w 4 = [w] → (eccRegion w = some 1 ∨ eccRegion w = some 2 ∨ eccRegion w = some 3
        ∨ eccRegion w = some 6 ∧ s.boot.aon = true) → Does (.sramCheck (.word b)) s (fun t =>
        t.syndAt w = 0 ∧ t.mem = (s.flipMem w k).mem ∧ t.isF fMEM_ECC_STATUS_CE = true ∧ t.be = s.be)) := by
  intro w
  have hx : exec (.sramCheck (.word b)) s = .next (s.sramWord w) := rfl
  refine ⟨fun h => ⟨_, hx, State.sramWord_of_clean h w⟩, fun hsyn hd hr => ?_⟩
  have hreg : ∃ r, eccRegion w = some r ∧ r ≠ 4 := by
    obtain h | h | h | ⟨h, -⟩ := hr
    · exact ⟨1, h, by decide⟩
    · exact ⟨2, h, by decide⟩
    · exact ⟨3, h, by decide⟩
    · exact ⟨6, h, by decide⟩
  obtain ⟨r, hr', h4⟩ := hreg
  obtain ⟨t, hword, heffect⟩ := State.checkWord_column hsyn hr' h4
  exact ⟨_, hx, by rw [State.sramWord_checked hr hd hword]; exact heffect⟩

theorem State.hidScan_of_clean (hh : s.ecc.hid = []) (he : s.hamper.hurt = []) (hb : s.hamper.boxHurt = []) (hs : s.spool.hurt = []) (r : Nat) : s.hidScan r = s := by
  have hheld : s.hamper.held.find? (fun c => s.hamper.hurt.any (fun q => q.1 == c.1)) = none := by
    rw [he]
    exact List.find?_eq_none.2 fun c _ => by simp
  have hbox : s.hamper.outbox.find? (fun c => s.hamper.boxHurt.any (fun q => q.1 == c.2)) = none := by
    rw [hb]
    exact List.find?_eq_none.2 fun c _ => by simp
  rw [State.hidScan]
  split
  · rw [hheld]
  · split
    · rw [State.boxScan, hbox, hs]
    · rw [hh]
      rfl

theorem does_sramCheck_hidden (r : Fin 11) (s : State) : (s.boot.porst = false → Does (.sramCheck (.hidden r)) s (fun t => t = s))
    ∧ (s.ecc.hid = [] → s.hamper.hurt = [] → s.hamper.boxHurt = [] → s.spool.hurt = [] → Does (.sramCheck (.hidden r)) s (fun t => t = s)) := by
  have hx : exec (.sramCheck (.hidden r)) s = .next (s.inCore (fun s => s.hidScan r)) := rfl
  rw [State.inCore] at hx
  refine ⟨fun hp => ⟨_, hx, if_neg (by rw [hp]; decide)⟩, fun hh he hb hs => ⟨_, hx, ?_⟩⟩
  split
  · exact State.hidScan_of_clean hh he hb hs r
  · rfl

/-! ### ECC_INJECT -/

theorem does_eccInject (v : Word) (hp : s.boot.porst = true) (hl : s.locked = false) (hlit : (List.range 4).any s.lit = false) :
    Does (.eccInject v) s (fun t => t.reg rMEM_ECC_INJECT = v &&& 0x8F3F3F01 ∧ Quiet [rMEM_ECC_INJECT] s t) := by
  have hx : exec (.eccInject v) s = .next (s.viaRegV rMEM_ECC_INJECT v (fun v s => s.eccWrite v)) := rfl
  rw [State.viaRegV_of_unlocked hp hl (s.absentUnit_of_le (by decide)) (by decide +kernel), State.eccWrite, if_neg (by rw [hlit]; rintro ⟨-, -, h⟩; exact absurd h (by decide))] at hx
  exact ⟨_, hx, (State.reg_setReg ..).trans (if_pos rfl), (Quiet.refl _ s).setReg (by simp)⟩

end

end Sys2Proof.Machine

/-! ## The check-value units: START, ABORT and the end of a job (R393 to R397) -/

namespace Sys2Proof.Machine

/-- The offsets of the check-value units hold none of the registers that events take. -/
theorem crc_not_evReg {off : Nat} (h : 0x2C0000 ≤ off) (h' : off < 0x300000) : off ∉ evRegs := by
  have hregs : ∀ o ∈ evRegs, ¬(0x2C0000 ≤ o ∧ o < 0x300000) := by decide
  exact fun hin => hregs _ hin ⟨h, h'⟩

section
variable {s t u : State} {n : Nat} {j : CrcJob}

/-! ### The end of a job -/

/-- The job of unit `n` is over, and memory is as it was in `s`. -/
structure CrcOver (n : Nat) (s t : State) : Prop where
  job : t.crcJob n = none
  busy : t.isF (fCRC_STATUS_BUSY n) = false
  done : t.isF (fCRC_STATUS_DONE n) = true
  mem : t.mem = s.mem

theorem State.crcEnd_over (s : State) (n : Nat) : CrcOver n s (s.crcEnd n) := ⟨s.crcJob_crcEnd n, s.crcEnd_busy n, s.crcEnd_done n, s.crcEnd_mem n⟩

theorem CrcOver.of_mem (h : CrcOver n u t) (hm : u.mem = s.mem) : CrcOver n s t := ⟨h.job, h.busy, h.done, h.mem.trans hm⟩

theorem State.crcStop_over (s : State) (n : Nat) (f : Fld) (j : CrcJob) : CrcOver n s (s.crcStop n f j) :=
  ((s.crcCause n f j).crcEnd_over n).of_mem (s.crcCause_mem n f j)

theorem State.reg_crcEnd (s : State) {n off : Nat} (hst : off ≠ rCRC_STATUS n) (hev : off ∉ evRegs) : (s.crcEnd n).reg off = s.reg off := by
  rw [(s.crcEnd_quiet n).regs off (by simp) hev, State.crcOver, State.reg_setF, if_neg hst, State.reg_setF, if_neg hst]
  rfl

theorem State.reg_crcStop (s : State) {n off : Nat} {f : Fld} (hf : f.off = rCRC_STATUS n) (j : CrcJob) (hst : off ≠ rCRC_STATUS n) (hres : off ≠ rCRC_RESULT n)
    (hev : off ∉ evRegs) : (s.crcStop n f j).reg off = s.reg off := by
  have hset : (s.fresh.2.setF f 1).reg off = s.reg off := by
    rw [State.reg_setF, if_neg (by rw [hf]; exact hst)]
    rfl
  rw [State.crcStop_eq, State.reg_crcEnd _ hst hev, State.crcCause]
  split
  · rw [State.reg_setReg, if_neg hres, hset]
  · exact hset

/-- The cause of a job's early end shows. -/
theorem State.crcStop_flag (s : State) {n lo : Nat} (hlo : lo < 14) (j : CrcJob) : (s.crcStop n ⟨rCRC_STATUS n, lo, 1⟩ j).isF ⟨rCRC_STATUS n, lo, 1⟩ = true := by
  have hset : (s.fresh.2.setF ⟨rCRC_STATUS n, lo, 1⟩ 1).isF ⟨rCRC_STATUS n, lo, 1⟩ = true := State.isF_setF_one _ rfl (by show lo + 1 ≤ 32; omega)
  rw [State.crcStop_eq, State.crcEnd_flag _ hlo, State.crcCause]
  split
  · rw [← hset]
    exact State.isF_congr (by rw [State.reg_setReg, if_neg (by simp)])
  · exact hset

theorem State.crcCompare_mem (s : State) (n : Nat) (j : CrcJob) (r : Nat) : (s.crcCompare n j r).mem = s.mem := by
  have hpost : ∀ (v : State) (f : Fld) (x off : Nat) (k : EvKind) (d : Nat), k.prio < 4 → (((v.setF f x).bump off).post k srcCRC d).mem = v.mem :=
    fun v f x off k d hk => ((Quiet.refl [] _).post hk).mem_eq.trans (((OnlyRegs.refl [f.off, off] v).setF (by simp)).bump (by simp)).mem_eq
  unfold State.crcCompare
  extract_lets m refA refB a b r mismatch corrupt
  split
  · split
    · rfl
    · exact hpost _ _ _ _ _ _ (by decide)
  · split
    · exact hpost _ _ _ _ _ _ (by decide)
    · split
      · exact hpost _ _ _ _ _ _ (by decide)
      · exact hpost _ _ _ _ _ _ (by decide)

theorem State.crcFinish_over (s : State) (n : Nat) (j : CrcJob) : CrcOver n s (s.crcFinish n j) := by
  rw [State.crcFinish]
  split
  · exact s.crcEnd_over n
  · dsimp only
    refine (State.crcEnd_over _ n).of_mem ?_
    split
    · exact State.crcCompare_mem _ _ _ _
    · rfl

/-! ### START -/

/-- The job that START takes from the registers of unit `n`. -/
def State.crcAsked (s : State) (n : Nat) : CrcJob := ⟨s.reg (rCRC_CTRL n), s.reg (rCRC_POLY n), s.reg (rCRC_INIT n),
  s.regN (rCRC_ADDR_LO n) + 2 ^ 32 * (s.regN (rCRC_ADDR_HI n) % 256), s.regN (rCRC_LEN n), 0,
  s.regN (rCRC_INIT n) % 2 ^ crcWidth (bitsOf (s.regN (rCRC_CTRL n)) 16 2)⟩

/-- START clears STATUS but for ERR_BUSY, and PROGRESS. -/
def State.crcCleared (s : State) (n : Nat) : State := (s.setReg (rCRC_STATUS n) (s.reg (rCRC_STATUS n) &&& 2)).setRegN (rCRC_PROGRESS n) 0

theorem State.crcStart_eq (hidle : s.isF (fCRC_STATUS_BUSY n) = false) : s.crcStart n =
    if (s.crcAsked n).bad = true then ((s.crcCleared n).setF (fCRC_STATUS_ERR_ARG n) 1).crcEnd n
    else ((s.crcCleared n).setCrcJob n (some (s.crcAsked n))).setF (fCRC_STATUS_BUSY n) 1 :=
  if_neg (by rw [hidle]; decide)

theorem State.crcCleared_effect (s : State) (n : Nat) : OnlyRegs [rCRC_STATUS n, rCRC_PROGRESS n] s (s.crcCleared n)
    ∧ (s.crcCleared n).isF (fCRC_STATUS_DONE n) = false ∧ (s.crcCleared n).reg (rCRC_PROGRESS n) = 0 := by
  refine ⟨((OnlyRegs.refl _ s).setReg (by simp)).setRegN (by simp), ?_, ?_⟩
  · rw [State.isF, State.getF, State.regN, State.crcCleared, State.reg_setRegN, if_neg (by simp), State.reg_setReg, if_pos rfl]
    have hle : (s.reg (rCRC_STATUS n) &&& 2).toNat ≤ 2 := by
      rw [BitVec.toNat_and]
      exact Nat.and_le_right
    generalize (s.reg (rCRC_STATUS n) &&& 2).toNat = v at hle
    rw [bitsOf, Nat.div_eq_of_lt (by show v < 16384; omega)]
    rfl
  · rw [State.crcCleared, State.reg_setRegN, if_pos rfl]
    rfl

theorem does_crcStart {q : Instr × Nat} {n : Fin 4} (ht : Takes s (rCRC_CMD n)) (hx : exec q.1 s = .next (s.viaReg (rCRC_CMD n) (fun s => s.crcStartIn n q.2))) :
    (s.getF (fCRC_CTRL_MODE n) ≠ q.2 → Does q.1 s (fun t => t = s))
      ∧ (s.getF (fCRC_CTRL_MODE n) = q.2 →
        (s.isF (fCRC_STATUS_BUSY n) = true → Does q.1 s (fun t => t.isF (fCRC_STATUS_ERR_BUSY n) = true ∧ t.crcJob n = s.crcJob n
          ∧ Quiet [rCRC_STATUS n, rCRC_ERR_BUSY_COUNT n] s t))
        ∧ (s.isF (fCRC_STATUS_BUSY n) = false → (s.crcAsked n).bad = false → Does q.1 s (fun t => t.crcJob n = some (s.crcAsked n)
          ∧ t.isF (fCRC_STATUS_BUSY n) = true ∧ t.isF (fCRC_STATUS_DONE n) = false ∧ t.reg (rCRC_PROGRESS n) = 0
          ∧ Quiet [rCRC_STATUS n, rCRC_PROGRESS n] { s with crc := t.crc } t))
        ∧ (s.isF (fCRC_STATUS_BUSY n) = false → (s.crcAsked n).bad = true → Does q.1 s (fun t => t.crcJob n = none
          ∧ t.isF (fCRC_STATUS_BUSY n) = false ∧ t.isF (fCRC_STATUS_DONE n) = true ∧ t.isF (fCRC_STATUS_ERR_ARG n) = true
          ∧ t.mem = s.mem))) := by
  have hdoes : ∀ P : State → Prop, P (s.crcStartIn n q.2) → Does q.1 s P := fun P hP => does_of_viaReg_crcCmd ht hx hP
  rw [State.crcStartIn] at hdoes
  obtain ⟨hclr, hdone, hprog⟩ := s.crcCleared_effect n
  refine ⟨fun hne => hdoes _ (if_neg hne), fun hmode => ⟨fun hbusy => hdoes _ ?_, fun hidle hgood => hdoes _ ?_, fun hidle hbad => hdoes _ ?_⟩⟩
  · rw [if_pos hmode, State.crcStart_of_busy hbusy]
    obtain ⟨herr, -, -, hcrc, hq⟩ := crcIgnored_crcBusyErr hbusy
    exact ⟨herr, by rw [State.crcJob, hcrc, State.crcJob], hq⟩
  · rw [if_pos hmode, State.crcStart_eq hidle, if_neg (by rw [hgood]; decide)]
    generalize s.crcCleared n = u at hclr hdone hprog
    have hset : OnlyRegs [rCRC_STATUS (n : Nat)] (u.setCrcJob n (some (s.crcAsked n))) ((u.setCrcJob n (some (s.crcAsked n))).setF (fCRC_STATUS_BUSY n) 1) := (OnlyRegs.refl _ _).setF (by simp)
    have hdone' : ((u.setCrcJob n (some (s.crcAsked n))).setF (fCRC_STATUS_BUSY n) 1).isF (fCRC_STATUS_DONE n) = u.isF (fCRC_STATUS_DONE n) := by
      rw [State.isF_setF_bit _ _ (by decide), if_neg (by decide)]
      rfl
    refine ⟨(tabGet_tabSet (fun _ => none) u.crc n n (some (s.crcAsked n))).trans (if_pos rfl), State.isF_setF_one _ rfl (by simp), hdone'.trans hdone, ?_, ?_⟩
    · exact (hset.regs _ (by simp)).trans hprog
    · have hput : OnlyRegs [rCRC_STATUS (n : Nat), rCRC_PROGRESS n] { s with crc := (u.setCrcJob n (some (s.crcAsked n))).crc } (u.setCrcJob n (some (s.crcAsked n))) :=
        ⟨by rw [State.setCrcJob]; dsimp only; rw [hclr.rest], hclr.regs⟩
      exact hput.quiet.trans (hset.quiet.mono (by simp))
  · rw [if_pos hmode, State.crcStart_eq hidle, if_pos hbad]
    have hover := ((s.crcCleared n).setF (fCRC_STATUS_ERR_ARG n) 1).crcEnd_over n
    refine ⟨hover.job, hover.busy, hover.done, ?_, hover.mem.trans hclr.mem_eq⟩
    rw [State.crcEnd_flag _ (by decide), State.isF_setF_one _ rfl (by simp)]

end

end Sys2Proof.Machine

/-! ## The words of a SCAN or READ, and ABORT (R395, R399, log 182) -/

namespace Sys2Proof.Machine

section
variable {s t u : State} {n : Nat} {j : CrcJob}

/-! ### One word -/

/-- The bytes of the next word that belong to the job. -/
def CrcJob.step (j : CrcJob) : Nat := min (j.len - j.done) (4 - (j.addr + j.done) % 4)

/-- The job with its next word done. -/
def CrcJob.next (j : CrcJob) (s : State) : CrcJob := j.take (s.bytes (j.addr + j.done) j.step)

/-- The state after a word, before the job goes on or ends. -/
def State.crcRead (s : State) (n : Nat) (j : CrcJob) : State :=
  (if j.mode = 1 then s.setRegWords (rCRC_DATA n (j.done / 4)) (leWords (s.bytes (j.addr + j.done) j.step)) else s).setRegN (rCRC_PROGRESS n) (j.next s).done

theorem State.crcWord_unlisted (h : inRegs (j.addr + j.done) = true ∨ s.mapOk (j.addr + j.done) = false) :
    s.crcWord n j = (s.busErr (j.addr + j.done)).crcStop n (fCRC_STATUS_ERR_BUS n) j := if_pos h

theorem State.crcWord_listed (hs : s.ecc.synd = []) (h : ¬(inRegs (j.addr + j.done) = true ∨ s.mapOk (j.addr + j.done) = false)) :
    s.crcWord n j = if j.len ≤ (j.next s).done then (s.crcRead n j).crcFinish n (j.next s) else (s.crcRead n j).setCrcJob n (some (j.next s)) := by
  rw [State.crcWord]
  dsimp only
  rw [if_neg h, State.readAll_of_clean hs]
  rfl

theorem CrcJob.next_done (j : CrcJob) (s : State) : (j.next s).done = j.done + j.step := by
  rw [CrcJob.next, CrcJob.take]
  dsimp only
  rw [State.length_bytes]

theorem CrcJob.next_same (j : CrcJob) (s : State) : (j.next s).ctrl = j.ctrl ∧ (j.next s).addr = j.addr ∧ (j.next s).len = j.len
    ∧ (j.next s).poly = j.poly ∧ (j.next s).init = j.init := ⟨rfl, rfl, rfl, rfl, rfl⟩

/-- What a word leaves as it was. -/
structure CrcRest (s t : State) : Prop where
  mem : t.mem = s.mem
  ecc : t.ecc = s.ecc
  loader : t.loader = s.loader

theorem CrcRest.trans (h : CrcRest s u) (k : CrcRest u t) : CrcRest s t := ⟨k.mem.trans h.mem, k.ecc.trans h.ecc, k.loader.trans h.loader⟩

theorem State.crcRead_rest (s : State) (n : Nat) (j : CrcJob) : CrcRest s (s.crcRead n j) := by
  rw [State.crcRead]
  split
  · generalize hv : s.setRegWords _ _ = v
    have hrest : v = { s with regs := v.regs } := by rw [← hv]; exact State.setRegWords_rest _ _ _
    have hset : ∀ x, CrcRest v (v.setRegN (rCRC_PROGRESS n) x) := fun x => ⟨rfl, rfl, rfl⟩
    have hall : CrcRest s v := ⟨by rw [hrest], by rw [hrest], by rw [hrest]⟩
    exact hall.trans (hset _)
  · exact ⟨rfl, rfl, rfl⟩

theorem State.crcJob_setCrcJob (s : State) (n : Nat) (x : Option CrcJob) : (s.setCrcJob n x).crcJob n = x :=
  (tabGet_tabSet (fun _ => none) s.crc n n x).trans (if_pos rfl)

/-- A word ends the job, or the job stands at the next word. -/
theorem State.crcWord_cases (hs : s.ecc.synd = []) (n : Nat) (j : CrcJob) : CrcOver n s (s.crcWord n j)
    ∨ (j.len - j.done ≠ j.step ∧ (s.crcWord n j).crcJob n = some (j.next s) ∧ CrcRest s (s.crcWord n j)) := by
  by_cases h : inRegs (j.addr + j.done) = true ∨ s.mapOk (j.addr + j.done) = false
  · rw [State.crcWord_unlisted h]
    exact .inl ((State.crcStop_over _ n _ j).of_mem (State.busErr_quiet s _).mem_eq)
  · rw [State.crcWord_listed hs h]
    have hread := s.crcRead_rest n j
    generalize s.crcRead n j = v at hread
    split
    · exact .inl ((v.crcFinish_over n _).of_mem hread.mem)
    · next hlen =>
      rw [CrcJob.next_done] at hlen
      have hput : CrcRest v (v.setCrcJob n (some (j.next s))) := ⟨rfl, rfl, rfl⟩
      exact .inr ⟨by omega, v.crcJob_setCrcJob n _, hread.trans hput⟩

/-! ### ABORT -/

theorem State.crcToLine_over (h : s.crcJob n = none) (k : Nat) : s.crcToLine n k = s := by
  cases k with
  | zero => rfl
  | succ k => rw [State.crcToLine, h]

/-- A job reaches the next 64-byte boundary in 16 words at most, and stops there. -/
theorem State.crcToLine_ends (k : Nat) : ∀ (s : State) (j : CrcJob), s.crcJob n = some j → s.ecc.synd = [] →
    ((j.mode = 2 ∨ j.done = 0 ∨ (j.addr + j.done) % 64 = 0) ∨ 64 - (j.addr + j.done) % 64 ≤ 4 * k) → CrcOver n s (s.crcToLine n (k + 1)) := by
  induction k with
  | zero =>
    intro s j hj _ hk
    rw [State.crcToLine, hj]
    dsimp only
    rw [if_pos (by omega)]
    exact s.crcStop_over n _ j
  | succ k ih =>
    intro s j hj hs hk
    rw [State.crcToLine, hj]
    dsimp only
    split
    · exact s.crcStop_over n _ j
    · next hline =>
      obtain hover | ⟨hstep, hnext, hrest⟩ := s.crcWord_cases hs n j
      · rw [State.crcToLine_over hover.job]
        exact hover
      · refine (ih _ _ hnext (by rw [hrest.ecc, hs]) ?_).of_mem hrest.mem
        have hadv : j.step = 4 - (j.addr + j.done) % 4 := by
          rw [CrcJob.step] at hstep ⊢
          omega
        rw [CrcJob.next_done, hadv, (j.next_same s).2.1]
        omega

theorem does_crcAbort {n : Fin 4} (ht : Takes s (rCRC_CMD n)) : (s.crcJob n = none → Does (.crcAbort n) s (fun t => t = s))
    ∧ ∀ i, s.crcJob n = some i →
      (i.mode = 2 ∨ i.done = 0 ∨ (i.addr + i.done) % 64 = 0 → Does (.crcAbort n) s (fun t => t.crcJob n = none
        ∧ t.isF (fCRC_STATUS_ABORTED n) = true ∧ t.isF (fCRC_STATUS_BUSY n) = false ∧ t.isF (fCRC_STATUS_DONE n) = true
        ∧ t.reg (rCRC_PROGRESS n) = s.reg (rCRC_PROGRESS n) ∧ t.mem = s.mem))
      ∧ (s.ecc.synd = [] → Does (.crcAbort n) s (fun t => t.crcJob n = none ∧ t.isF (fCRC_STATUS_BUSY n) = false
        ∧ t.isF (fCRC_STATUS_DONE n) = true ∧ t.mem = s.mem)) := by
  have hdoes : ∀ P : State → Prop, P (s.crcAbortOp n) → Does (.crcAbort n) s P := fun P hP => does_of_viaReg_crcCmd ht rfl hP
  refine ⟨fun hj => hdoes _ (State.crcToLine_over hj 17), fun i hi => ⟨fun hline => hdoes _ ?_, fun hs => hdoes _ ?_⟩⟩
  · rw [State.crcAbortOp_of_line hi hline]
    have hover := s.crcStop_over n (fCRC_STATUS_ABORTED n) i
    refine ⟨hover.job, s.crcStop_flag (by decide) i, hover.busy, hover.done, ?_, hover.mem⟩
    exact s.reg_crcStop rfl i (by simp) (by simp) (crc_not_evReg (by simp only [rCRC_PROGRESS]; omega) (by simp only [rCRC_PROGRESS]; omega))
  · have hover := State.crcToLine_ends (n := n) 16 s i hi hs (.inr (by omega))
    exact ⟨hover.job, hover.busy, hover.done, hover.mem⟩

/-! ### A job runs to its end -/

theorem State.crcWords_over (h : s.crcJob n = none) (k : Nat) : s.crcWords n k = s := by
  cases k with
  | zero => rfl
  | succ k => rw [State.crcWords, h]

theorem exec_crcDone {n : Fin 4} (hj : s.crcJob n = some j) : exec (.crcDone n) s = .next (if j.mode = 2 then s.crcPut n j else s.crcWords n (j.len - j.done)) := by
  have hx : exec (.crcDone n) s = execCrcDone n s := rfl
  rw [hx, execCrcDone, hj]
  rfl

theorem does_crcDone_none {n : Fin 4} (h : s.crcJob n = none) : Does (.crcDone n) s (fun t => t = s) := by
  have hx : exec (.crcDone n) s = execCrcDone n s := rfl
  rw [execCrcDone, h] at hx
  exact ⟨_, hx, rfl⟩

theorem does_crcDone_unlisted {n : Fin 4} (hj : s.crcJob n = some j) (hlt : j.done < j.len) (hmode : j.mode ≠ 2)
    (h : inRegs (j.addr + j.done) = true ∨ s.mapOk (j.addr + j.done) = false) : Does (.crcDone n) s (fun t =>
      t.isF (fCRC_STATUS_ERR_BUS n) = true ∧ t.crcJob n = none ∧ t.isF (fCRC_STATUS_DONE n) = true
      ∧ t.reg (rCRC_PROGRESS n) = s.reg (rCRC_PROGRESS n) ∧ t.mem = s.mem) := by
  have hx := exec_crcDone hj
  obtain ⟨k, hk⟩ := Nat.exists_eq_succ_of_ne_zero (by omega : j.len - j.done ≠ 0)
  rw [if_neg hmode, hk, State.crcWords, hj] at hx
  dsimp only at hx
  rw [State.crcWord_unlisted h] at hx
  have hbus := s.busErr_quiet (j.addr + j.done)
  generalize s.busErr (j.addr + j.done) = v at hbus hx
  have hover := v.crcStop_over n (fCRC_STATUS_ERR_BUS n) j
  rw [State.crcWords_over hover.job] at hx
  have hev : rCRC_PROGRESS (n : Nat) ∉ evRegs := crc_not_evReg (by simp only [rCRC_PROGRESS]; omega) (by simp only [rCRC_PROGRESS]; omega)
  refine ⟨_, hx, v.crcStop_flag (by decide) j, hover.job, hover.done, ?_, hover.mem.trans hbus.mem_eq⟩
  rw [v.reg_crcStop rfl j (by simp) (by simp) hev]
  exact hbus.regs _ (by simp only [List.mem_cons, List.not_mem_nil, or_false, rCRC_PROGRESS, rTOP_BUS_ERR_STATUS, rTOP_SYS_MAP_COUNT, rTOP_BUS_ERR_ADDR]; omega) hev

end

end Sys2Proof.Machine

/-! ## A SCAN, a READ and a WRITE whole (R393 to R395) -/

namespace Sys2Proof.Machine

theorem crcRun_append (w poly : Nat) (refin : Bool) (l m : List Byte) : ∀ c, crcRun w poly refin c (l ++ m) = crcRun w poly refin (crcRun w poly refin c l) m := by
  induction l with
  | nil => exact fun c => rfl
  | cons b l ih => exact fun c => ih _

section
variable {s t u : State} {n : Nat} {j : CrcJob}

theorem State.bytes_append (s : State) (a m k : Nat) : s.bytes a m ++ s.bytes (a + m) k = s.bytes a (m + k) := by
  rw [State.bytes_eq, State.bytes_eq, State.bytes_eq, ← List.map_append, List.range'_append_1]

/-- The word of memory at `x`. -/
def State.wordAt (s : State) (x : Nat) : Word := BitVec.ofNat 32 (ofLe (s.bytes x 4))

theorem State.leWords_bytes (s : State) (m : Nat) : ∀ a, leWords (s.bytes a (4 * m)) = (List.range m).map (fun k => s.wordAt (a + 4 * k)) := by
  induction m with
  | zero => exact fun a => by rw [State.bytes_eq]; rfl
  | succ m ih =>
    intro a
    have hfour : ∀ l, leWords (s.bytes a 4 ++ l) = s.wordAt a :: leWords l := by
      intro l
      rw [State.wordAt, State.bytes_eq]
      rfl
    rw [Nat.mul_succ, Nat.add_comm, ← State.bytes_append, hfour, ih, List.range_succ_eq_map, List.map_cons, List.map_map]
    refine congrArg₂ _ rfl (List.map_congr_left fun k _ => ?_)
    exact congrArg _ (by rw [Nat.mul_succ]; omega)

/-! ### The words of a job, one after the other -/

/-- The bytes of the job from `done` on may be read (R26, R456). -/
def State.crcListed (s : State) (j : CrcJob) : Prop := ∀ k, k < j.len → inRegs (j.addr + k) = false ∧ s.mapOk (j.addr + k) = true

theorem CrcRest.mapOk (h : CrcRest s t) (a : Nat) : t.mapOk a = s.mapOk a := by
  rw [State.mapOk, State.mapOk, State.dramOk, State.dramOk, State.wp, State.wp, State.wu, State.wu, h.loader]

theorem CrcRest.bytes (h : CrcRest s t) (a m : Nat) : t.bytes a m = s.bytes a m := by rw [State.bytes, State.bytes, h.mem]

/-- A job that has read its words: `u` is the state before its end. -/
structure CrcAll (n : Nat) (j : CrcJob) (s u : State) (e : CrcJob) : Prop where
  ctrl : e.ctrl = j.ctrl
  crc : j.mode = 0 → e.crc = crcRun (crcWidth (bitsOf j.ctrl.toNat 16 2)) (j.poly.toNat % 2 ^ crcWidth (bitsOf j.ctrl.toNat 16 2)) (j.ctrl.getLsbD 10) j.crc
    (s.bytes (j.addr + j.done) (j.len - j.done))
  progress : u.regN (rCRC_PROGRESS n) = j.len % 2 ^ 32
  mem : u.mem = s.mem
  data : j.mode = 1 → j.addr % 4 = 0 → j.done % 4 = 0 → j.len ≤ 64 → j.len % 4 = 0 →
    ∀ k, k < 16 → 4 * k < j.len → u.reg (rCRC_DATA n k) = if 4 * k < j.done then s.reg (rCRC_DATA n k) else s.wordAt (j.addr + 4 * k)

/-- A word of a READ goes to its register, and to no other. -/
theorem State.reg_crcRead (hmode : j.mode = 1) (hstep : j.step = 4) {k : Nat} (hk : k < 16) (hd : j.done % 4 = 0) :
    (s.crcRead n j).reg (rCRC_DATA n k) = if 4 * k = j.done then s.wordAt (j.addr + j.done) else s.reg (rCRC_DATA n k) := by
  have hword : leWords (s.bytes (j.addr + j.done) 4) = [s.wordAt (j.addr + j.done)] := s.leWords_bytes 1 _
  rw [State.crcRead, if_pos hmode, hstep, hword, State.reg_setRegN, if_neg (by simp only [rCRC_DATA, rCRC_PROGRESS]; omega)]
  show (s.setReg (rCRC_DATA n (j.done / 4)) (s.wordAt (j.addr + j.done))).reg (rCRC_DATA n k) = _
  rw [State.reg_setReg]
  exact if_congr (by simp only [rCRC_DATA]; omega) rfl rfl

theorem State.crcRead_progress (s : State) (n : Nat) (j : CrcJob) : (s.crcRead n j).regN (rCRC_PROGRESS n) = (j.done + j.step) % 2 ^ 32 := by
  rw [State.crcRead, State.regN_setRegN, if_pos rfl, CrcJob.next_done]

theorem State.crcWords_all (k : Nat) : ∀ (s : State) (j : CrcJob), s.crcJob n = some j → s.ecc.synd = [] → s.crcListed j → j.done < j.len → j.len - j.done ≤ k →
    ∃ u e, s.crcWords n k = u.crcFinish n e ∧ CrcAll n j s u e := by
  induction k with
  | zero => exact fun s j _ _ _ hlt hk => by omega
  | succ k ih =>
    intro s j hj hs hl hlt hk
    have hno : ¬(inRegs (j.addr + j.done) = true ∨ s.mapOk (j.addr + j.done) = false) := by
      obtain ⟨h1, h2⟩ := hl _ hlt
      rw [h1, h2]
      decide
    have hstep : 0 < j.step ∧ j.step ≤ j.len - j.done := by
      rw [CrcJob.step]
      omega
    have hread := s.crcRead_rest n j
    have hprog := s.crcRead_progress n j
    have hdata := fun h1 h2 k hk h4 => State.reg_crcRead (s := s) (n := n) (j := j) h1 h2 (k := k) hk h4
    rw [State.crcWords, hj]
    dsimp only
    rw [State.crcWord_listed hs hno, CrcJob.next_done]
    generalize s.crcRead n j = v at hread hprog hdata
    split
    · next hend =>
      have hover := v.crcFinish_over n (j.next s)
      rw [State.crcWords_over hover.job]
      have hall : j.len - j.done = j.step := by omega
      refine ⟨v, j.next s, rfl, rfl, fun hmode => ?_, ?_, hread.mem, fun hmode ha hd hle h4 i hi hi' => ?_⟩
      · rw [hall, CrcJob.next, CrcJob.take]
        exact if_pos hmode
      · rw [hprog, ← hall, Nat.add_sub_cancel' (Nat.le_of_lt hlt)]
      · have hfour : j.step = 4 := by
          rw [CrcJob.step] at hall ⊢
          omega
        rw [hdata hmode hfour i hi hd]
        split
        · next he => rw [if_neg (by omega), he]
        · next he => rw [if_pos (by omega)]
    · next hend =>
      have hput : CrcRest v (v.setCrcJob n (some (j.next s))) := ⟨rfl, rfl, rfl⟩
      have hrest := hread.trans hput
      have hregs : ∀ off, (v.setCrcJob n (some (j.next s))).reg off = v.reg off := fun _ => rfl
      have hnow := v.crcJob_setCrcJob n (some (j.next s))
      generalize v.setCrcJob n (some (j.next s)) = w at hrest hregs hnow
      have hdone := j.next_done s
      have hcrc : j.mode = 0 → (j.next s).crc = Machine.crcRun (crcWidth (bitsOf j.ctrl.toNat 16 2)) (j.poly.toNat % 2 ^ crcWidth (bitsOf j.ctrl.toNat 16 2)) (j.ctrl.getLsbD 10) j.crc
        (s.bytes (j.addr + j.done) j.step) := fun h => if_pos h
      obtain ⟨hctrl, haddr, hlen, hpoly, -⟩ := j.next_same s
      have hmodes : (j.next s).mode = j.mode := by rw [CrcJob.mode, hctrl, CrcJob.mode]
      generalize j.next s = i at hnow hdone hcrc hctrl haddr hlen hpoly hmodes
      obtain ⟨x, e, hx, hall⟩ := ih w i hnow (by rw [hrest.ecc, hs]) (fun m hm => by rw [haddr, hrest.mapOk]; exact hl m (by omega)) (by omega) (by omega)
      refine ⟨x, e, hx, hall.ctrl.trans hctrl, fun hmode => ?_, by rw [hall.progress, hlen], hall.mem.trans hrest.mem, fun hmode ha hd hle h4 m hm hm' => ?_⟩
      · have hbytes : s.bytes (j.addr + j.done) (j.len - j.done) = s.bytes (j.addr + j.done) j.step ++ w.bytes (i.addr + i.done) (i.len - i.done) := by
          rw [hrest.bytes, haddr, hlen, hdone, ← Nat.add_assoc, State.bytes_append]
          exact congrArg _ (by omega)
        rw [hall.crc (hmodes.trans hmode), hbytes, crcRun_append, ← hcrc hmode, hctrl, hpoly]
      · have hfour : j.step = 4 := by
          rw [CrcJob.step] at hend ⊢
          omega
        have hw : w.wordAt (j.addr + 4 * m) = s.wordAt (j.addr + 4 * m) := by rw [State.wordAt, hrest.bytes, State.wordAt]
        rw [hall.data (hmodes.trans hmode) (by rw [haddr]; exact ha) (by omega) (by omega) (by omega) m hm (by omega), haddr, hw, hregs, hdata hmode hfour m hm hd]
        split
        · next h1 =>
          split
          · next h2 => rw [if_neg (by omega), h2]
          · next h2 => rw [if_pos (by omega)]
        · next h1 => rw [if_neg (by omega)]

/-! ### CRC_DONE -/

theorem does_crcDone_scan {n : Fin 4} (hj : s.crcJob n = some j) (hlt : j.done < j.len) (hs : s.ecc.synd = []) (hl : s.crcListed j) (h0 : j.done = 0)
    (hcrc : j.crc = j.init.toNat % 2 ^ crcWidth (bitsOf j.ctrl.toNat 16 2)) (hmode : j.mode = 0) (hcmp : j.ctrl.getLsbD 4 = false) :
    Does (.crcDone n) s (fun t =>
        t.regN (rCRC_RESULT n) = j.value (s.bytes j.addr j.len) % 2 ^ 32 ∧ t.crcJob n = none ∧ t.isF (fCRC_STATUS_DONE n) = true
        ∧ t.regN (rCRC_PROGRESS n) = j.len % 2 ^ 32 ∧ t.mem = s.mem) := by
  have hx := exec_crcDone hj
  obtain ⟨u, e, hwords, hall⟩ := State.crcWords_all (n := n) (j.len - j.done) s j hj hs hl hlt le_rfl
  have hover := u.crcFinish_over n e
  have hne : ¬e.mode = 1 := by rw [CrcJob.mode, hall.ctrl, ← CrcJob.mode, hmode]; decide
  have hfin : u.crcFinish n e = (u.setRegN (rCRC_RESULT n) (crcOut (crcWidth (bitsOf j.ctrl.toNat 16 2)) (j.ctrl.getLsbD 9) (j.ctrl.getLsbD 8) e.crc)).crcEnd n := by
    rw [State.crcFinish, if_neg hne, hall.ctrl]
    dsimp only
    rw [if_neg (by rw [hcmp]; decide)]
  rw [if_neg (by rw [hmode]; decide), hwords] at hx
  have hev : ∀ x, x < 64 → 0x2C0000 + 0x100 * (n : Nat) + x ∉ evRegs := fun x hx => crc_not_evReg (by omega) (by omega)
  refine ⟨_, hx, ?_, hover.job, hover.done, ?_, hover.mem.trans hall.mem⟩
  · rw [hfin, State.regN, State.reg_crcEnd _ (by simp) (by simpa only [Nat.add_right_comm] using hev 0x28 (by decide)), ← State.regN, State.regN_setRegN, if_pos rfl, hall.crc hmode, h0, Nat.add_zero, Nat.sub_zero, hcrc]
    rfl
  · rw [hfin, State.regN, State.reg_crcEnd _ (by simp) (by simpa only [Nat.add_right_comm] using hev 0x2C (by decide)), ← State.regN, State.regN_setRegN, if_neg (by simp), hall.progress]

theorem does_crcDone_read {n : Fin 4} (hj : s.crcJob n = some j) (hlt : j.done < j.len) (hs : s.ecc.synd = []) (hl : s.crcListed j) (h0 : j.done = 0)
    (hmode : j.mode = 1) (h64 : j.len = 64) (ha : j.addr % 4 = 0) : Does (.crcDone n) s (fun t =>
        (∀ k, k < 16 → t.reg (rCRC_DATA n k) = nth 0#32 (leWords (s.bytes j.addr 64)) k) ∧ t.crcJob n = none
        ∧ t.isF (fCRC_STATUS_DONE n) = true ∧ t.regN (rCRC_PROGRESS n) = 64 ∧ t.mem = s.mem) := by
  have hx := exec_crcDone hj
  obtain ⟨u, e, hwords, hall⟩ := State.crcWords_all (n := n) (j.len - j.done) s j hj hs hl hlt le_rfl
  have hfin : u.crcFinish n e = u.crcEnd n := by
    rw [State.crcFinish, if_pos (by rw [CrcJob.mode, hall.ctrl, ← CrcJob.mode, hmode])]
  have hover := u.crcEnd_over n
  rw [if_neg (by rw [hmode]; decide), hwords, hfin] at hx
  have hev : ∀ off, 0x2C0000 ≤ off → off < 0x2D0000 → off ∉ evRegs := fun off h h' => crc_not_evReg h (by omega)
  refine ⟨_, hx, fun k hk => ?_, hover.job, hover.done, ?_, hover.mem.trans hall.mem⟩
  · have hword : nth 0#32 (leWords (s.bytes j.addr 64)) k = s.wordAt (j.addr + 4 * k) := by
      rw [s.leWords_bytes 16 j.addr, nth, List.getD_eq_getElem _ _ (by simpa using hk), List.getElem_map, List.getElem_range]
    rw [State.reg_crcEnd _ (by simp only [rCRC_DATA, rCRC_STATUS]; omega) (hev _ (by simp only [rCRC_DATA]; omega) (by simp only [rCRC_DATA]; omega)),
      hall.data hmode ha (by rw [h0]) (by rw [h64]) (by rw [h64]) k hk (by omega), if_neg (by omega), hword]
  · rw [State.regN, State.reg_crcEnd _ (by simp) (hev _ (by simp only [rCRC_PROGRESS]; omega) (by simp only [rCRC_PROGRESS]; omega)), ← State.regN, hall.progress, h64]
    rfl

/-- The bytes of 16 data registers. -/
theorem length_wordBytes : ∀ l : List Word, (wordBytes l).length = 4 * l.length
  | [] => rfl
  | w :: l => by rw [wordBytes, List.length_append, length_wordBytes l, length_leBytes, List.length_cons]; omega

theorem State.length_regWords (s : State) (m : Nat) : ∀ off, (s.regWords off m).length = m := by
  induction m with
  | zero => exact fun _ => rfl
  | succ m ih => exact fun off => congrArg (· + 1) (ih _)

theorem does_crcDone_write {n : Fin 4} (hj : s.crcJob n = some j) (hc : Clean s) (hmode : j.mode = 2) (hin : s.inDram j.addr j.len = true) (hlen : j.len ≤ 64) :
    Does (.crcDone n) s (fun t => t.bytes j.addr j.len = (wordBytes (s.regWords (rCRC_DATA n 0) 16)).take j.len
      ∧ (∀ x, x < j.addr ∨ j.addr + j.len ≤ x → t.byte x = s.byte x) ∧ t.crcJob n = none ∧ t.isF (fCRC_STATUS_DONE n) = true) := by
  have hx := exec_crcDone hj
  have hbytes : ((wordBytes (s.regWords (rCRC_DATA n 0) 16)).take j.len).length = j.len := by
    rw [List.length_take, length_wordBytes, State.length_regWords]
    omega
  rw [if_pos hmode, State.crcPut, if_neg (by rw [hin]; decide)] at hx
  dsimp only at hx
  generalize (wordBytes (s.regWords (rCRC_DATA n 0) 16)).take j.len = bs at hx hbytes
  rw [State.writeMem_of_clean hc] at hx
  have hover := ((s.setBytes j.addr bs).setRegN (rCRC_PROGRESS n) j.len).crcEnd_over n
  generalize ((s.setBytes j.addr bs).setRegN (rCRC_PROGRESS n) j.len).crcEnd n = t at hx hover
  have hmem : t.mem = (s.setBytes j.addr bs).mem := hover.mem
  refine ⟨t, hx, ?_, fun x hout => ?_, hover.job, hover.done⟩
  · rw [State.bytes_of_mem hmem, ← hbytes, State.bytes_setBytes_same]
  · rw [State.byte, hmem, ← State.byte, State.byte_setBytes_other _ (by rw [hbytes]; exact hout)]

end

end Sys2Proof.Machine

/-! ## Housekeeping rounds, the supply of the always-on domain, the debug port, the clocks (R415, R431, R444, R383) -/

namespace Sys2Proof.Machine

section
variable {s t u : State} {n : Nat}

/-! ### What a round stamps -/

/-- The stamps of the hold-last-value registers and their status stand. -/
structure HlvKept (s t : State) : Prop where
  hlv : t.hlv = s.hlv
  status : t.reg rHK_HLV_STATUS = s.reg rHK_HLV_STATUS

theorem HlvKept.refl (s : State) : HlvKept s s := ⟨rfl, rfl⟩

theorem HlvKept.trans (h : HlvKept s u) (k : HlvKept u t) : HlvKept s t := ⟨k.hlv.trans h.hlv, k.status.trans h.status⟩

theorem HlvKept.ite {c : Prop} [Decidable c] {a b : State} (h : HlvKept s a) (k : HlvKept s b) : HlvKept s (if c then a else b) := by
  split
  · exact h
  · exact k

theorem HlvKept.quiet {l : List Nat} (h : HlvKept s u) (q : Quiet l u t) (hl : rHK_HLV_STATUS ∉ l) : HlvKept s t :=
  h.trans ⟨by rw [q.rest], q.regs _ hl (by decide)⟩

theorem HlvKept.setReg (h : HlvKept s u) {off : Nat} {v : Word} (ho : rHK_HLV_STATUS < off) : HlvKept s (u.setReg off v) :=
  h.quiet (l := [off]) ((Quiet.refl _ u).setReg (by simp)) (by simpa using Nat.ne_of_lt ho)

theorem HlvKept.setF (h : HlvKept s u) {f : Fld} {x : Nat} (ho : rHK_HLV_STATUS < f.off) : HlvKept s (u.setF f x) := h.setReg ho

theorem HlvKept.port (h : HlvKept s u) (p : PortOnly n u t) : HlvKept s t := h.trans ⟨by rw [p.rest], p.reg _⟩

theorem HlvKept.updPort (h : HlvKept s u) (n : Nat) (F : Port → Port) : HlvKept s (u.updPort n F) := h.port ((PortOnly.refl n u).updPort F)

theorem ztl_above {b : Nat} (h : 0x180000 ≤ b) (k : Nat) : rHK_HLV_STATUS < b + k := by
  simp only [rHK_HLV_STATUS]
  omega

theorem HlvKept.nvDeferTime (h : HlvKept s u) (n : Nat) : HlvKept s (u.nvDeferTime n) := by
  unfold State.nvDeferTime
  split
  · exact h
  · exact .ite (h.setReg (ztl_above (by decide) _)) h

theorem HlvKept.nvDefer (h : HlvKept s u) (n : Nat) : HlvKept s (u.nvDefer n) := by
  unfold State.nvDefer
  extract_lets -merge v w hot
  have hv : HlvKept s v := (h.setF (ztl_above (by decide) _)).setF (ztl_above (by decide) _)
  have hw : HlvKept s w := (hv.setF (ztl_above (by decide) _)).updPort n _
  split
  · exact hw.nvDeferTime n
  · exact (hw.updPort n _).quiet (l := []) ((Quiet.refl _ _).postOnce (by decide)) (by simp)

theorem HlvKept.nvTry (h : HlvKept s u) (n : Nat) : HlvKept s (u.nvTry n) := by
  unfold State.nvTry
  refine .ite (h.setF (ztl_above (by decide) _)) (.ite (h.nvDefer n) ?_)
  extract_lets -merge v1 v2 v3 v4 v5 v6
  have h1 : HlvKept s v1 := (h.nvDeferTime n).updPort n _
  have h4 : HlvKept s v4 := h1.trans ⟨rfl, rfl⟩
  have h5 : HlvKept s v5 := h4.updPort n _
  have h6 : HlvKept s v6 := ((h5.setF (ztl_above (by decide) _)).setF (ztl_above (by decide) _)).setF (ztl_above (by decide) _)
  exact h6.port ((PortOnly.refl n v6).send _ _)

theorem HlvKept.nvAgain (h : HlvKept s u) (n : Nat) : HlvKept s (u.nvAgain n) := by
  unfold State.nvAgain
  exact .ite (h.nvTry n) h

/-- A round ends with its stamp and the writes that wait for temperature. -/
theorem State.hkRounded_stamped (s : State) (r : SensorIn) : ∃ (v : State) (l : List Nat), s.hkRounded r = l.foldl (fun s n => s.nvAgain n) v.hlvStamp := by
  unfold State.hkRounded
  extract_lets -merge first dt
  split
  extract_lets -merge v24 v25 v26 v27 v28 v29 v30
  exact ⟨_, _, rfl⟩

theorem State.foldl_nvAgain (l : List Nat) : ∀ u : State, HlvKept u (l.foldl (fun s n => s.nvAgain n) u) := by
  induction l with
  | nil => exact HlvKept.refl
  | cons n l ih => exact fun u => ((HlvKept.refl u).nvAgain n).trans (ih _)

theorem State.hkRounded_hlv (s : State) (r : SensorIn) : (s.hkRounded r).regN rHK_HLV_STATUS = 0 ∧ (s.hkRounded r).hlv.stamp = [s.time.frc, s.time.frc, s.time.frc] := by
  have hall := (beside_hkRounded (r := r) (.refl .time s)).time (by simp)
  obtain ⟨v, l, hx⟩ := s.hkRounded_stamped r
  have hkept := State.foldl_nvAgain l v.hlvStamp
  have htime : Beside .time v.hlvStamp (l.foldl (fun s n => s.nvAgain n) v.hlvStamp) := Beside.foldl (.refl _ _) fun _ _ h => beside_nvAgain h
  rw [← hx] at hkept htime
  have hfrc : v.time.frc = s.time.frc := by
    have h1 : (s.hkRounded r).time.frc = v.hlvStamp.time.frc := by rw [htime.time (by simp)]
    rw [hall] at h1
    exact h1.symm
  have hstamp : v.hlvStamp.regN rHK_HLV_STATUS = 0 ∧ v.hlvStamp.hlv.stamp = [v.time.frc, v.time.frc, v.time.frc] :=
    ⟨(State.regN_setRegN _ _ _ _).trans (if_pos rfl), rfl⟩
  refine ⟨?_, ?_⟩
  · rw [State.regN, hkept.status]
    exact hstamp.1
  · rw [hkept.hlv, hstamp.2, hfrc]

/-- A whole round. -/
theorem State.hkRoundOp_effect (hon : s.hkOn = true) (r : SensorIn) : (s.hkRoundOp r).regN rHK_ROUND_COUNT = (s.regN rHK_ROUND_COUNT + 1) % 2 ^ 32
    ∧ (s.hkRoundOp r).regN rHK_HLV_STATUS = 0 ∧ (s.hkRoundOp r).hlv.stamp = [s.time.frc, s.time.frc, s.time.frc] ∧ (s.hkRoundOp r).mem = s.mem
    ∧ (s.hkRoundOp r).isF fHK_HK_STATUS_ROUND_LATE = s.isF fHK_HK_STATUS_ROUND_LATE := by
  have hall := beside_hkRounded (r := r) (.refl .mem s)
  obtain ⟨hst, hstamp⟩ := s.hkRounded_hlv r
  rw [State.hkRoundOp_eq hon]
  have hcount : (s.hkRounded r).regN rHK_ROUND_COUNT = s.regN rHK_ROUND_COUNT := State.regN_congr (hall.regs (by simp) _ (by decide))
  have hmem := hall.mem rfl
  have hlate := hall.late (by simp)
  generalize s.hkRounded r = v at hst hstamp hcount hmem hlate
  have hset : OnlyRegs [rHK_ROUND_COUNT] v (v.setRegN rHK_ROUND_COUNT ((v.regN rHK_ROUND_COUNT + 1) % 2 ^ 32)) := (OnlyRegs.refl _ v).setRegN (by simp)
  refine ⟨?_, ?_, ?_, ?_, ?_⟩
  · rw [State.regN_setRegN, if_pos rfl, hcount, Nat.mod_mod]
  · rw [State.regN_congr (hset.regs _ (by decide)), hst]
  · rw [hset.rest]
    exact hstamp
  · rw [hset.mem_eq, hmem]
  · rw [State.isF, State.getF_congr (hset.regs _ (by decide)), ← State.isF, hlate]

theorem does_hkRounds (r : SensorIn) (s : State) : (s.isF fHK_ROUND_CFG_SCHED = true → Does (.hkRound r) s (fun t => t = s))
    ∧ (s.hkOn = false → ∀ c ∈ [Instr.hkRound r, .roundLate r], Does c s (fun t => t = s))
    ∧ (s.hkOn = true →
      (s.isF fHK_ROUND_CFG_SCHED = false → Does (.hkRound r) s (fun t =>
        t.regN rHK_ROUND_COUNT = (s.regN rHK_ROUND_COUNT + 1) % 2 ^ 32 ∧ t.regN rHK_HLV_STATUS = 0
        ∧ t.hlv.stamp = [s.time.frc, s.time.frc, s.time.frc] ∧ t.mem = s.mem))
      ∧ (s.roundDue = false → Does (.roundLate r) s (fun t => t = s))
      ∧ (s.roundDue = true → Does (.roundLate r) s (fun t => t.isF fHK_HK_STATUS_ROUND_LATE = true
        ∧ t.regN rHK_ROUND_COUNT = (s.regN rHK_ROUND_COUNT + 1) % 2 ^ 32 ∧ t.mem = s.mem))) := by
  have hround : exec (.hkRound r) s = execHkRound r s := rfl
  have hlate : exec (.roundLate r) s = execRoundLate r s := rfl
  rw [execHkRound] at hround
  rw [execRoundLate] at hlate
  refine ⟨fun hs => ⟨_, hround, if_pos hs⟩, fun hoff c hc => ?_, fun hon => ⟨fun hs => ⟨_, hround, ?_⟩, fun hdue => ⟨_, hlate, if_pos (.inr hdue)⟩, fun hdue => ⟨_, hlate, ?_⟩⟩⟩
  · simp only [List.mem_cons, List.not_mem_nil, or_false] at hc
    obtain rfl | rfl := hc
    · refine ⟨_, hround, ?_⟩
      split
      · rfl
      · exact if_pos hoff
    · exact ⟨_, hlate, if_pos (.inl hoff)⟩
  · rw [if_neg (by rw [hs]; decide)]
    obtain ⟨h1, h2, h3, h4, -⟩ := State.hkRoundOp_effect hon r
    exact ⟨h1, h2, h3, h4⟩
  · rw [if_neg (by rw [hon, hdue]; decide)]
    have hflag := s.isF_raise_self (f := fHK_HK_STATUS_ROUND_LATE) (c := rHK_ROUND_LATE_COUNT) rfl (by decide) (by decide)
    have hraise : OnlyRegs [rHK_HK_STATUS, rHK_ROUND_LATE_COUNT] s (s.raise fHK_HK_STATUS_ROUND_LATE rHK_ROUND_LATE_COUNT) := (OnlyRegs.refl _ s).raise (by simp) (by simp)
    generalize s.raise fHK_HK_STATUS_ROUND_LATE rHK_ROUND_LATE_COUNT = v at hflag hraise
    have hev : Quiet [] v (v.hkEv evTHERMAL_ROUND_LATE 4 0) := (Quiet.refl _ v).postOnce (by decide)
    generalize v.hkEv evTHERMAL_ROUND_LATE 4 0 = w at hev
    have hon' : w.hkOn = true := by
      have hboot : w.boot.fwStarted = s.boot.fwStarted := by
        rw [hev.rest, hraise.rest]
      rw [State.hkOn, hboot, hev.getF _ (by simp) (by decide), State.getF_congr (hraise.regs _ (by decide)), ← State.hkOn, hon]
    obtain ⟨h1, -, -, h4, h5⟩ := State.hkRoundOp_effect hon' r
    refine ⟨by rw [h5, hev.isF _ (by simp) (by decide), hflag], ?_, h4.trans (hev.mem_eq.trans hraise.mem_eq)⟩
    rw [h1, State.regN_congr (hev.regs _ (by simp) (by decide)), State.regN_congr (hraise.regs _ (by decide))]

end

end Sys2Proof.Machine

/-! ## The supply of the always-on domain, the debug port, the clocks (R383, R431, R444), and the claim -/

namespace Sys2Proof.Machine

section
variable {s : State}

theorem does_vaon (s : State) : (s.boot.aon = true → ∀ low : Bool, Does (.vaonRise low) s (fun t => t = s))
    ∧ (s.boot.aon = false → Does (.vaonRise false) s (fun t => t = { s with boot := { s.boot with aon := true } })
      ∧ Does (.vaonRise true) s (fun t => exec .wakeN { s with boot := { s.boot with aon := true } } = .next t))
    ∧ Does .vaonLoss s (fun t => t.mem = [] ∧ t.faultN = [] ∧ t.boot.aon = false ∧ t.regN rPWR_WAKE_FAIL_CAUSE = 0
      ∧ t.getF fPWR_PWR_STATUS_CURRENT = pwOFF) := by
  have hrise : ∀ low, exec (.vaonRise low) s = execVaonRise low s := fun _ => rfl
  have hloss : exec .vaonLoss s = execVaonLoss s := rfl
  refine ⟨fun hon low => ⟨_, hrise low, if_pos hon⟩, fun hoff => ⟨⟨_, hrise false, ?_⟩, ⟨_, hrise true, ?_⟩⟩, ⟨_, hloss, ?_⟩⟩
  · rw [if_neg (by rw [hoff]; decide)]
    rfl
  · rw [if_neg (by rw [hoff]; decide)]
    rfl
  · have hmem : (s.coreReset [] []).mem = [] := rfl
    generalize s.coreReset [] [] = z at hmem
    have hcause : ({ z.setRegN rPWR_WAKE_FAIL_CAUSE 0 with faultN := [] } : State).regN rPWR_WAKE_FAIL_CAUSE = 0 := by
      show (z.setRegN rPWR_WAKE_FAIL_CAUSE 0).regN rPWR_WAKE_FAIL_CAUSE = 0
      rw [State.regN_setRegN, if_pos rfl]
      rfl
    have hz : ({ z.setRegN rPWR_WAKE_FAIL_CAUSE 0 with faultN := [] } : State).mem = [] ∧ ({ z.setRegN rPWR_WAKE_FAIL_CAUSE 0 with faultN := [] } : State).faultN = [] := ⟨hmem, rfl⟩
    generalize ({ z.setRegN rPWR_WAKE_FAIL_CAUSE 0 with faultN := [] } : State) = y at hcause hz
    have hset : OnlyRegs [rPWR_PWR_STATUS] y (y.setF fPWR_PWR_STATUS_CURRENT pwOFF) := (OnlyRegs.refl _ y).setF (by simp)
    have hoff : (y.setF fPWR_PWR_STATUS_CURRENT pwOFF).getF fPWR_PWR_STATUS_CURRENT = pwOFF := State.getF_setF _ _ _ (by decide)
    generalize y.setF fPWR_PWR_STATUS_CURRENT pwOFF = x at hset hoff
    refine ⟨hset.mem_eq.trans hz.1, ?_, rfl, (State.regN_congr (hset.regs _ (by decide))).trans hcause, hoff⟩
    show x.faultN = []
    rw [hset.rest]
    exact hz.2

/-- The instruction register holds `k`. -/
def State.jtagHold (s : State) (k : Nat) : State := { s with debugPort := { s.debugPort with ir := k } }

/-- What an instruction leaves of the port. -/
def State.jtagTaken (s : State) : JtagI → State
  | .bypass => s.jtagHold 0
  | .idcode => s.jtagHold 1
  | .samplePreload => s.jtagHold 2
  | .other c => if s.debugPort.auth && s.allDark then s.jtagHold (256 + c.toNat) else s

theorem exec_jtagInstruction (i : JtagI) (hp : s.boot.porst = true) : exec (.jtagInstruction i) s = .next (s.jtagTaken i) := by
  have hx : exec (.jtagInstruction i) s = .next (if s.boot.porst = false then s else s.jtagTaken i) := by cases i <;> rfl
  rw [if_neg (by rw [hp]; decide)] at hx
  exact hx

theorem does_jtagInstruction (i : JtagI) (hp : s.boot.porst = true) : Does (.jtagInstruction i) s (fun t => t = { s with debugPort := t.debugPort }
      ∧ t.debugPort = { s.debugPort with ir := match i with
        | .bypass => 0
        | .idcode => 1
        | .samplePreload => 2
        | .other c => if s.debugPort.auth && s.allDark then 256 + c.toNat else s.debugPort.ir }) := by
  refine ⟨_, exec_jtagInstruction i hp, ?_⟩
  cases i with
  | bypass => exact ⟨rfl, rfl⟩
  | idcode => exact ⟨rfl, rfl⟩
  | samplePreload => exact ⟨rfl, rfl⟩
  | other c =>
    rw [State.jtagTaken]
    split
    · exact ⟨rfl, rfl⟩
    · exact ⟨rfl, rfl⟩

theorem does_debugPort_reset (i : JtagI) (sig : List Byte) (hp : s.boot.porst = false) : ∀ c ∈ [Instr.jtagInstruction i, .debugAuth sig], Does c s (fun t => t = s) := by
  have hjtag : exec (.jtagInstruction i) s = execJtagInstruction i s := rfl
  have hauth : exec (.debugAuth sig) s = .next (s.inCore (·.debugAuth sig)) := rfl
  intro c hc
  simp only [List.mem_cons, List.not_mem_nil, or_false] at hc
  obtain rfl | rfl := hc
  · exact ⟨_, hjtag, if_pos hp⟩
  · exact ⟨_, hauth, if_neg (by rw [hp]; decide)⟩

theorem does_debugAuth (sig c : List Byte) (hp : s.boot.porst = true) (hc : s.debugPort.chal = some c) : Does (.debugAuth sig) s (fun t => t = { s with debugPort := t.debugPort }
      ∧ t.debugPort.chal = none ∧ t.debugPort.ir = s.debugPort.ir ∧ (t.debugPort.auth = true ↔ s.debugPort.auth = true ∨ 1 ≤ s.loader.phase
        ∧ ecdsaVerify (fileBytes s.loader.img.bytes 0x60 64) (sha256 c) sig = true)) := by
  refine does_inCore (act := (·.debugAuth sig)) rfl hp ?_
  rw [State.debugAuth, State.debugChal, hc]
  refine ⟨rfl, rfl, rfl, ?_⟩
  dsimp only
  rw [Bool.or_eq_true, Bool.and_eq_true, decide_eq_true_eq]

theorem does_pllLoss (p : Fin 6) (s : State) : (s.boot.pll.getD p false = false → Does (.pllLoss p) s (fun t => t = s))
    ∧ (s.boot.pll.getD p false = true → Does (.pllLoss p) s (fun t => t.boot = { s.boot with pll := s.boot.pll.set p false }
      ∧ (p = 0 → t.isF fSAFETY_STATUS_SC_ON_FIO = true) ∧ Quiet [rSAFETY_STATUS] { s with boot := t.boot } t)) := by
  have hx : exec (.pllLoss p) s = execPllLoss p s := rfl
  refine ⟨fun h => ⟨_, hx, if_pos h⟩, fun h => ⟨_, hx, ?_⟩⟩
  rw [if_neg (by rw [h]; decide)]
  dsimp only
  split
  · exact ⟨rfl, fun _ => State.isF_setF_one _ rfl (by decide), (Quiet.refl _ _).setF (by simp)⟩
  · next hp => exact ⟨rfl, fun h => absurd h hp, Quiet.refl _ _⟩

end

/-- Settles O58: scrubbing, checks and injection word by word, the units' jobs by induction on the words to do, a round by what it leaves beside its own registers. -/
theorem integrity : Obligations.Integrity := by
  unfold Obligations.Integrity
  refine ⟨fun s => ⟨does_scrubRead_off, fun hen hwp hc => ⟨does_scrubRead_word hen hwp hc, does_scrubRead_pass hen hwp hc⟩⟩,
    fun b r k s => ⟨(does_sramCheck_word b k s).1, (does_sramCheck_word b k s).2, (does_sramCheck_hidden r s).1, (does_sramCheck_hidden r s).2⟩,
    fun v s => does_eccInject v, fun n s ht => ⟨fun q hq => ?_, does_crcAbort ht⟩, fun n s => does_crcDone_none,
    fun n j s hj hlt hs => ⟨does_crcDone_unlisted hj hlt, fun hl h0 hcrc => ⟨does_crcDone_scan hj hlt hs hl h0 hcrc, does_crcDone_read hj hlt hs hl h0⟩⟩,
    fun n j s hj hc hmode hin hlen => does_crcDone_write hj hc hmode hin hlen, does_hkRounds, does_vaon, fun i sig s hp => does_debugPort_reset i sig hp,
    fun i s hp => does_jtagInstruction i hp, fun sig c s hp hc => does_debugAuth sig c hp hc, does_pllLoss⟩
  simp only [List.mem_cons, List.not_mem_nil, or_false] at hq
  obtain rfl | rfl | rfl := hq
  · exact does_crcStart (q := (Instr.crcScan n, 0)) ht rfl
  · exact does_crcStart (q := (Instr.crcRead n, 1)) ht rfl
  · exact does_crcStart (q := (Instr.crcWrite n, 2)) ht rfl

end Sys2Proof.Machine

/-! ## The router's way to the firmware (R334 to R336) -/

namespace Sys2Proof.Machine

section
variable {s t u : State} {c : Fin 3} {r : RecIn} {op : Nat}

/-! ### A record that the router takes -/

/-- A command that stands for a record brings it to the router. -/
theorem exec_of_asRecord {i : Instr} (h : asRecord i = some (c, op, r)) (s : State) : exec i s = .next (s.recIn c op r) := by
  unfold asRecord at h
  split at h
  all_goals cases h
  all_goals rfl

theorem State.fwServes_congr (hb : t.boot = s.boot) (hr : ∀ off ∈ [rPWR_PWR_STATUS, rSAFETY_STATUS, rTOP_MC_LOAD], t.reg off = s.reg off) : t.fwServes = s.fwServes := by
  have h1 : t.getF fPWR_PWR_STATUS_CURRENT = s.getF fPWR_PWR_STATUS_CURRENT := State.getF_congr (hr _ (by simp))
  have h2 : t.isF fSAFETY_STATUS_MC_LOST = s.isF fSAFETY_STATUS_MC_LOST := State.isF_congr (hr _ (by simp))
  have h3 : t.getF fTOP_MC_LOAD_SHED_LEVEL = s.getF fTOP_MC_LOAD_SHED_LEVEL := State.getF_congr (hr _ (by simp))
  rw [State.fwServes, State.fwRuns, hb, h1, h2, h3, ← State.fwRuns, ← State.fwServes]

theorem recTaken_quiet (c : Fin 3) (r : RecIn) (s : State) : Quiet [rMSG_LAST_ACCEPTED_SEQ c] s (recTaken c r s) :=
  ((Quiet.refl _ s).wakeNote).setRegN (by simp)

theorem recTaken_host (c : Fin 3) (r : RecIn) (s : State) : (recTaken c r s).host = s.host := by rw [(recTaken_quiet c r s).rest]

theorem recTaken_boot (c : Fin 3) (r : RecIn) (s : State) : (recTaken c r s).boot = s.boot := by
  show (s.wakeNote _).boot = s.boot
  unfold State.wakeNote
  split <;> rfl

theorem recTaken_lastSeq (c : Fin 3) (r : RecIn) (s : State) : (recTaken c r s).lastSeq c = r.seq.toNat := by
  have hlt := r.seq.isLt
  rw [State.lastSeq, recTaken, State.regN_setRegN, if_pos rfl]
  omega

theorem lastAccepted_ne (c : Fin 3) : ∀ off ∈ [rPWR_PWR_STATUS, rSAFETY_STATUS, rTOP_MC_LOAD], off ≠ rMSG_LAST_ACCEPTED_SEQ c := by
  revert c
  decide

theorem lastAccepted_notEv (c : Fin 3) : rMSG_LAST_ACCEPTED_SEQ c ∉ evRegs := by
  revert c
  decide

theorem recTaken_fwServes (c : Fin 3) (r : RecIn) (s : State) : (recTaken c r s).fwServes = s.fwServes :=
  State.fwServes_congr (recTaken_boot c r s) fun off hoff => (recTaken_quiet c r s).regs off (by simpa using lastAccepted_ne c off hoff) (by revert off; decide)

/-- The router takes a record that is in order, and hands it on. -/
theorem State.recIn_inOrder (h : InOrder c r s) (op : Nat) : s.recIn c op r = (recTaken c r s).dispatchRec c op r := by
  obtain ⟨⟨hp, hup⟩, ⟨hroom, hlen⟩, hcrc, hsync, hseq, hhead⟩ := h
  have hc : ((c : Nat) = 2) ↔ c = 2 := ⟨fun h => Fin.ext h, fun h => by rw [h]; rfl⟩
  have hwake : Quiet [] s (s.wakeNote (if (c : Nat) = 2 then 6 else 5)) := (Quiet.refl _ s).wakeNote
  have htaken : (s.wakeNote (if (c : Nat) = 2 then 6 else 5)).setRegN (rMSG_LAST_ACCEPTED_SEQ c) r.seq.toNat = recTaken c r s := by
    rw [recTaken, if_congr hc rfl rfl]
  have hno : ¬(s.boot.porst = false ∨ (c : Nat) ≠ 2 ∧ s.ethUp c = false) := by
    rintro (h | ⟨h1, h2⟩)
    · exact absurd (hp.symm.trans h) (by decide)
    · exact absurd ((hup fun h => h1 (hc.2 h)).symm.trans h2) (by decide)
  rw [State.recIn, if_neg hno]
  dsimp only
  generalize s.wakeNote (if (c : Nat) = 2 then 6 else 5) = v at hwake htaken
  have hreg : ∀ off, off ∉ evRegs → v.reg off = s.reg off := fun off ho => hwake.regs off (by simp) ho
  have hroom' : v.recRoom c = s.recRoom c := by
    rw [State.recRoom, State.recRoom, hwake.loader]
    fin_cases c
    · exact congrArg _ (by rw [State.getF_congr (hreg _ (by decide))])
    · exact congrArg _ (by rw [State.getF_congr (hreg _ (by decide))])
    · rfl
  have hlast : v.lastSeq c = s.lastSeq c := by
    rw [State.lastSeq, State.lastSeq, State.regN_congr (hreg _ (lastAccepted_notEv c))]
  rw [hroom', if_neg (by omega), State.route, if_neg (by omega), if_neg (by rw [hcrc]; decide)]
  have hchk : v.seqCheck c op r = (true, recTaken c r s) := by
    have hzero : (r.seq - r.seq).toInt = 0 := by rw [BitVec.sub_self]; rfl
    unfold State.seqCheck
    extract_lets take want d
    rw [hsync, if_neg (by decide)]
    have hd : d = 0 := by
      unfold d want
      rw [hlast, ← hseq]
      exact hzero
    rw [if_pos hd]
    exact congrArg _ htaken
  rw [hchk, hhead]

/-! ### The firmware's queue -/

theorem State.dispatchRec_slow (h : fastOp op = false) (s : State) (c : Nat) (r : RecIn) : s.dispatchRec c op r = s.fwAccept c (recOut op r) := by
  rw [State.dispatchRec, h]
  rfl

theorem State.fwAccept_full {x : HRec} (h : 256 ≤ s.host.fwq.length) (c : Nat) : s.fwAccept c x = s.nakRec c x.seq x.opcode nakBUSY (s.lastSeq c) s.host.fwq.length :=
  if_pos h

/-- A record that waits for the firmware. -/
theorem State.fwAccept_held {x : HRec} (hserve : s.fwServes = false) (hroom : s.host.fwq.length < 256) (c : Nat) :
    s.fwAccept c x = s.updHost (fun h => { h with fwq := h.fwq ++ [(c, x)] }) := by
  have hserve' : (s.updHost (fun h => { h with fwq := h.fwq ++ [(c, x)] })).fwServes = false := hserve
  rw [State.fwAccept, if_neg (by omega)]
  split
  · next hnil =>
    have hq : (s.updHost (fun h => { h with fwq := h.fwq ++ [(c, x)] })).host.fwq = [(c, x)] := by
      show s.host.fwq ++ [(c, x)] = _
      rw [List.length_eq_zero_iff.1 hnil]
      rfl
    rw [State.fwServe, hq]
    exact if_neg (by rw [hserve']; decide)
  · rfl

/-- A firmware that serves an empty queue carries the record out at once. -/
theorem State.fwAccept_ready {x : HRec} (hq : s.host.fwq = []) (hserve : s.fwServes = true) (c : Nat) : s.fwAccept c x = s.fwRec c x := by
  have hserve' : (s.updHost (fun h => { h with fwq := h.fwq ++ [(c, x)] })).fwServes = true := hserve
  have hq' : (s.updHost (fun h => { h with fwq := h.fwq ++ [(c, x)] })).host.fwq = [(c, x)] := by
    show s.host.fwq ++ [(c, x)] = _
    rw [hq]
    rfl
  have hback : (s.updHost (fun h => { h with fwq := h.fwq ++ [(c, x)] })).updHost (fun h => { h with fwq := [] }) = s := by
    have hhost : ({ s.host with fwq := [] } : HostU) = s.host := by rw [← hq]
    show { s with host := { s.host with fwq := [] } } = s
    rw [hhost]
  rw [State.fwAccept, hq]
  dsimp only [List.length_nil]
  rw [if_neg (by decide), if_pos rfl, State.fwServe, hq']
  dsimp only
  rw [if_pos hserve', hback]

theorem does_slowRecord {i : Instr} {P : State → Prop} (hi : asRecord i = some (c, op, r)) (hslow : fastOp op = false) (h : InOrder c r s)
    (hP : P ((recTaken c r s).fwAccept c (recOut op r))) : Does i s P :=
  ⟨_, (exec_of_asRecord hi s).trans (congrArg _ ((State.recIn_inOrder h op).trans (State.dispatchRec_slow hslow _ _ _))), hP⟩

/-- A record of the firmware's, carried out at once. -/
theorem does_firmware {i : Instr} {P : State → Prop} (hi : asRecord i = some (c, op, r)) (hslow : fastOp op = false) (h : InOrder c r s) (hready : FwReady s)
    (hP : P ((recTaken c r s).fwRec c (recOut op r))) : Does i s P := by
  refine does_slowRecord hi hslow h ?_
  rw [State.fwAccept_ready (by rw [recTaken_host]; exact hready.1) ((recTaken_fwServes c r s).trans hready.2)]
  exact hP

end

end Sys2Proof.Machine

/-! ## The answers to a record (R336, R337) -/

namespace Sys2Proof.Machine

section
variable {s t u : State}

/-! ### Which ports get the event stream -/

theorem State.stream_noteLoss (s : State) (p : Nat) : (s.noteLoss p).hamper.stream = s.hamper.stream := by
  unfold State.noteLoss
  extract_lets -merge a x b add
  have ha : a.hamper = s.hamper := (State.setReg_hamper _ _ _).trans (State.setReg_hamper _ _ _)
  have hb : b.hamper.stream = a.hamper.stream := rfl
  rw [ha] at hb
  clear_value b
  split
  · exact hb
  · have hw : b.takeSeq.2.hamper.stream = s.hamper.stream := (congrArg Hamper.stream (State.setReg_hamper _ _ _)).trans hb
    generalize b.takeSeq = q at hw
    obtain ⟨n, w⟩ := q
    exact (congrArg Hamper.stream (State.spoolEv_only _ _ _ _).hamper).trans hw

theorem State.stream_boxPut (s : State) (e : Ev) : (s.boxPut e).hamper.stream = s.hamper.stream := by
  unfold State.boxPut
  extract_lets x v y
  have hv : v.hamper.stream = s.hamper.stream := rfl
  clear_value v
  split
  · exact (congrArg Hamper.stream (State.setReg_hamper _ _ _)).trans hv
  · exact hv

theorem State.stream_post (s : State) (k : EvKind) (src data : Nat) : (s.post k src data).hamper.stream = s.hamper.stream := by
  unfold State.post
  extract_lets e
  split
  · unfold State.offer
    extract_lets v
    have hv : v.hamper = s.hamper := by
      unfold v
      split
      · exact State.wakeNote_hamper _ _
      · rfl
    split
    · exact (v.stream_boxPut e).trans (by rw [hv])
    · exact (State.stream_noteLoss _ _).trans (by show v.hamper.stream = _; rw [hv])
  · rfl

/-! ### What an answer leaves -/

theorem Quiet.withHost {l : List Nat} (q : Quiet l s u) (x : HostU) : Quiet l { s with host := x } { u with host := x } := by
  refine ⟨?_, q.regs⟩
  conv_lhs => rw [q.rest]

/-- The host's side takes the answer on channel `c`; the firmware's queue and the ports that get the event stream stay. -/
structure Answered (l : List Nat) (s t : State) : Prop where
  quiet : Quiet l { s with host := t.host } t
  fwq : t.host.fwq = s.host.fwq
  stream : t.hamper.stream = s.hamper.stream

theorem Answered.refl (l : List Nat) (s : State) : Answered l s s := ⟨Quiet.refl _ s, rfl, rfl⟩

theorem Answered.setReg {l : List Nat} (h : Answered l s u) {off : Nat} {v : Word} (ho : off ∈ l) : Answered l s (u.setReg off v) :=
  ⟨h.quiet.setReg (.inl ho), h.fwq, h.stream⟩

theorem Answered.updHost {l : List Nat} (h : Answered l s u) {F : HostU → HostU} (hF : (F u.host).fwq = u.host.fwq) : Answered l s (u.updHost F) :=
  ⟨h.quiet.withHost (F u.host), hF.trans h.fwq, h.stream⟩

theorem Answered.hostEv {l : List Nat} (h : Answered l s u) {k : EvKind} (hk : k.prio < 4) (who src data : Nat) : Answered l s (u.hostEv k who src data) := by
  unfold State.hostEv State.postGap
  extract_lets key v
  split
  · have hq : Quiet l u ((u.notePost key (u.time.now + 1)).post k src data) := ((Quiet.refl l u).notePost).post hk
    have hstream : ((u.notePost key (u.time.now + 1)).post k src data).hamper.stream = u.hamper.stream := State.stream_post _ _ _ _
    generalize (u.notePost key (u.time.now + 1)).post k src data = t at hq hstream
    have hhost : t.host = u.host := by rw [hq.rest]
    refine ⟨?_, by rw [hhost, h.fwq], hstream.trans h.stream⟩
    rw [hhost]
    exact h.quiet.trans hq
  · exact h

theorem Answered.ethSend {l : List Nat} (h : Answered l s u) (p : Nat) (x : EthTx) (sec : Option SecA) : Answered l s (u.ethSend p x sec) := h.updHost rfl

theorem Answered.ethOut {l : List Nat} (h : Answered l s u) (p : Nat) (x : EthTx) : Answered l s (u.ethOut p x) := by
  unfold State.ethOut
  split
  · exact h.ethSend p x none
  · split
    · exact h
    · next a _ =>
      split
      · exact h
      · have hput : ∀ F : HostU → HostU, (F (u.ethSend p x (some a)).host).fwq = (u.ethSend p x (some a)).host.fwq → Answered l s ((u.ethSend p x (some a)).updHost F) :=
          fun F hF => (h.ethSend p x (some a)).updHost hF
        dsimp only
        split
        · exact (hput _ rfl).hostEv (by decide) _ _ _
        · exact hput _ rfl

theorem State.sendRec_answered (s : State) (c : Fin 3) (op : Nat) (payload : List Byte) (ref flags : Nat) : Answered (replyRegs c) s (s.sendRec c op payload ref flags) := by
  unfold State.sendRec
  extract_lets -merge n v r full w
  have hv : Answered (replyRegs c) s v := (Answered.refl _ s).setReg (by simp [replyRegs])
  have hw : Answered (replyRegs c) s w := hv.updHost rfl
  split
  · split
    · exact hw.setReg (by simp [replyRegs])
    · exact hw
  · exact hv.ethOut _ _

/-- A reply in the SPI mailbox, which has room. -/
theorem State.sendRec_spi (hroom : s.host.replies.length < 8) (op : Nat) (payload : List Byte) (ref flags : Nat) : s.sendRec 2 op payload ref flags =
    (s.setRegN (rMSG_TX_SEQ 2) ((s.regN (rMSG_TX_SEQ 2) % 65536 + 1) % 65536)).updHost
      (fun h => { h with replies := h.replies ++ [⟨s.regN (rMSG_TX_SEQ 2) % 65536, op, flags, ref, payload⟩] }) := by
  have hnot : decide (8 ≤ s.host.replies.length) = false := decide_eq_false (by omega)
  have hhost : ∀ x, (s.setRegN (rMSG_TX_SEQ 2) x).host = s.host := fun _ => rfl
  unfold State.sendRec
  dsimp only
  rw [if_pos rfl, hhost, hnot]
  rfl

/-! ### ACK and NAK -/

theorem State.ackRec_answered (s : State) (c : Fin 3) (seq op : Nat) (data : List Byte) : Answered (replyRegs c) s (s.ackRec c seq op data) := s.sendRec_answered c _ _ _ _

theorem nak_ne_reply (c : Fin 3) : rMSG_ROUTER_FLAGS ∉ replyRegs c ∧ rMSG_NAK_COUNT ∉ replyRegs c := by
  revert c
  decide

/-- A record refused: counted, flagged, and answered. -/
theorem State.nakRec_effect (s : State) (c : Fin 3) (seq op why expected detail : Nat) : Nacked s (s.nakRec c seq op why expected detail)
    ∧ (s.nakRec c seq op why expected detail).host.fwq = s.host.fwq ∧ (s.nakRec c seq op why expected detail).draws = s.draws := by
  rw [State.nakRec, State.replyWith]
  have hflag := s.isF_raise_self (f := fMSG_ROUTER_FLAGS_NAK) (c := rMSG_NAK_COUNT) rfl (by decide) (by decide)
  have hcount : (s.raise fMSG_ROUTER_FLAGS_NAK rMSG_NAK_COUNT).regN rMSG_NAK_COUNT = min (s.regN rMSG_NAK_COUNT + 1) 0xFFFF := s.regN_raise_counter (by decide) (by decide)
  have hraise : OnlyRegs [rMSG_ROUTER_FLAGS, rMSG_NAK_COUNT] s (s.raise fMSG_ROUTER_FLAGS_NAK rMSG_NAK_COUNT) := (OnlyRegs.refl _ s).raise (by simp) (by simp)
  generalize s.raise fMSG_ROUTER_FLAGS_NAK rMSG_NAK_COUNT = v at hflag hcount hraise
  have hsend := v.sendRec_answered c 0xE0 (leBytes 1 why ++ leBytes 1 op ++ leBytes 2 expected ++ leBytes 4 detail ++ []) seq hREPLY
  generalize v.sendRec c 0xE0 (leBytes 1 why ++ leBytes 1 op ++ leBytes 2 expected ++ leBytes 4 detail ++ []) seq hREPLY = t at hsend
  obtain ⟨h1, h2⟩ := nak_ne_reply c
  refine ⟨⟨?_, ?_, hsend.quiet.mem_eq.trans hraise.mem_eq⟩, ?_, ?_⟩
  · rw [hsend.quiet.isF _ h1 (by decide)]
    exact hflag
  · rw [hsend.quiet.regN h2 (by decide), Nat.min_comm]
    exact hcount
  · rw [hsend.fwq, hraise.rest]
  · rw [hsend.quiet.rest, hraise.rest]

end

section
variable {s t : State} {c : Fin 3} {r : RecIn} {op : Nat}

/-- The answer to a record of the SPI mailbox, and what goes with it. -/
theorem State.ackRec_spi (hroom : s.host.replies.length < 8) (seq op : Nat) (data : List Byte) : (s.ackRec 2 seq op data).host =
      { s.host with replies := s.host.replies ++ [⟨s.regN (rMSG_TX_SEQ 2) % 65536, 0xE0, 4, seq, leBytes 1 0 ++ leBytes 1 op ++ leBytes 2 (s.lastSeq 2) ++ leBytes 4 0 ++ data⟩] }
    ∧ (s.ackRec 2 seq op data).mem = s.mem ∧ (s.ackRec 2 seq op data).draws = s.draws := by
  rw [State.ackRec, State.replyWith, State.sendRec_spi hroom]
  exact ⟨rfl, rfl, rfl⟩

theorem recTaken_txSeq (r : RecIn) (s : State) : (recTaken 2 r s).regN (rMSG_TX_SEQ 2) = s.regN (rMSG_TX_SEQ 2) :=
  State.regN_congr ((recTaken_quiet 2 r s).regs _ (by decide) (by decide))

/-- A refusal of a record that has been taken. -/
theorem nacked_recTaken (h : Nacked (recTaken c r s) t) : Nacked s t := by
  have hcount : (recTaken c r s).regN rMSG_NAK_COUNT = s.regN rMSG_NAK_COUNT :=
    State.regN_congr ((recTaken_quiet c r s).regs _ (by fin_cases c <;> decide) (by decide))
  exact ⟨h.flag, h.count.trans (by rw [hcount]), h.mem.trans (recTaken_quiet c r s).mem_eq⟩

/-! ### Records that wait, and records that are refused -/

theorem State.fwOp_unknown (hop : op ∉ [0x40, 0x41, 0x42, 0x43, 0x44, 0x45, 0x46, 0x47, 0x48, 0x49, 0x50, 0x51]) (hdiag : op < 0xC0 ∨ 0xE0 ≤ op) (s : State) (p : List Byte) :
    s.fwOp op p = (.nak nakUNKNOWN 0, s) := by
  simp only [List.mem_cons, List.not_mem_nil, or_false, not_or] at hop
  have hno : ¬(0xC0 ≤ op ∧ op < 0xE0) := by omega
  unfold State.fwOp
  split
  case h_12 => rw [if_neg hno]
  all_goals omega

theorem does_slow (i : Instr) (c : Fin 3) (op : Nat) (r : RecIn) (s : State) (hi : asRecord i = some (c, op, r)) (hslow : fastOp op = false) (h : InOrder c r s) :
    (s.fwServes = false → s.host.fwq.length < 256 → Does i s (fun t => t.host.fwq = s.host.fwq ++ [(c.val, recOut op r)]
      ∧ Quiet [rMSG_LAST_ACCEPTED_SEQ c] { s with host := t.host } t))
    ∧ (256 ≤ s.host.fwq.length → Does i s (fun t => Nacked s t ∧ t.host.fwq = s.host.fwq))
    ∧ (FwReady s → op ∉ [0x40, 0x41, 0x42, 0x43, 0x44, 0x45, 0x46, 0x47, 0x48, 0x49, 0x50, 0x51] → op < 0xC0 ∨ 0xE0 ≤ op →
      Does i s (fun t => Nacked s t ∧ t.host.fwq = [])) := by
  have hhost := recTaken_host c r s
  refine ⟨fun hserve hroom => does_slowRecord hi hslow h ?_, fun hfull => does_slowRecord hi hslow h ?_, fun hready hop hdiag => does_firmware hi hslow h hready ?_⟩
  · rw [State.fwAccept_held ((recTaken_fwServes c r s).trans hserve) (by rw [hhost]; exact hroom)]
    refine ⟨?_, ?_⟩
    · show (recTaken c r s).host.fwq ++ _ = _
      rw [hhost]
    · exact (recTaken_quiet c r s).withHost _
  · rw [State.fwAccept_full (by rw [hhost]; exact hfull)]
    obtain ⟨h1, h2, -⟩ := (recTaken c r s).nakRec_effect c (recOut op r).seq (recOut op r).opcode nakBUSY ((recTaken c r s).lastSeq c) (recTaken c r s).host.fwq.length
    exact ⟨nacked_recTaken h1, by rw [h2, hhost]⟩
  · have hne : ¬(recOut op r).opcode = 0x41 := fun he => hop (by rw [show op = 0x41 from he]; decide)
    have hopc : (recOut op r).opcode = op := rfl
    rw [State.fwRec, if_neg hne, hopc, State.fwOp_unknown hop hdiag]
    obtain ⟨h1, h2, -⟩ := (recTaken c r s).nakRec_effect c (recOut op r).seq (recOut op r).opcode nakUNKNOWN ((recTaken c r s).lastSeq c) 0
    exact ⟨nacked_recTaken h1, by rw [← hready.1, ← hhost]; exact h2⟩

end

end Sys2Proof.Machine

/-! ## What reads of registers and of Spool leave of the replies (R26, R336) -/

namespace Sys2Proof.Machine

/-- The registers that number the records of the SPI mailbox. -/
abbrev SeqOff (off : Nat) : Prop := off = rMSG_TX_SEQ 2 ∨ off = rMSG_LAST_ACCEPTED_SEQ 2

/-- The host's side and the numbers of the SPI mailbox's records stay. -/
structure SeqKept (s t : State) : Prop where
  host : t.host = s.host
  regs : ∀ off, SeqOff off → t.reg off = s.reg off

section
variable {s t u : State}

theorem SeqKept.refl (s : State) : SeqKept s s := ⟨rfl, fun _ _ => rfl⟩

theorem SeqKept.trans (h : SeqKept s u) (k : SeqKept u t) : SeqKept s t := ⟨k.host.trans h.host, fun off ho => (k.regs off ho).trans (h.regs off ho)⟩

theorem SeqKept.ite {c : Prop} [Decidable c] {a b : State} (h : SeqKept s a) (k : SeqKept s b) : SeqKept s (if c then a else b) := by
  split
  · exact h
  · exact k

theorem evRegs_notSeq : ∀ off ∈ evRegs, ¬SeqOff off := by decide

theorem SeqKept.quiet {l : List Nat} (h : SeqKept s u) (q : Quiet l u t) (hl : ∀ off ∈ l, ¬SeqOff off) : SeqKept s t :=
  h.trans ⟨by rw [q.rest], fun off ho => q.regs off (fun hin => hl off hin ho) fun hin => evRegs_notSeq off hin ho⟩

theorem SeqKept.setReg (h : SeqKept s u) {off : Nat} {v : Word} (ho : ¬SeqOff off) : SeqKept s (u.setReg off v) :=
  h.quiet (l := [off]) ((Quiet.refl _ u).setReg (by simp)) (by simpa using ho)

theorem SeqKept.setF (h : SeqKept s u) {f : Fld} {n : Nat} (ho : ¬SeqOff f.off) : SeqKept s (u.setF f n) := h.setReg ho
theorem SeqKept.setRegN (h : SeqKept s u) {off n : Nat} (ho : ¬SeqOff off) : SeqKept s (u.setRegN off n) := h.setReg ho
theorem SeqKept.bump (h : SeqKept s u) {off : Nat} (ho : ¬SeqOff off) : SeqKept s (u.bump off) := h.setReg ho
theorem SeqKept.raise (h : SeqKept s u) {f : Fld} {c : Nat} (hf : ¬SeqOff f.off) (hc : ¬SeqOff c) : SeqKept s (u.raise f c) := (h.setReg hf).setReg hc
theorem SeqKept.setPair (h : SeqKept s u) {a b n : Nat} (ha : ¬SeqOff a) (hb : ¬SeqOff b) : SeqKept s (u.setPair a b n) := (h.setReg ha).setReg hb
theorem SeqKept.post (h : SeqKept s u) {k : EvKind} (hk : k.prio < 4) (src data : Nat) : SeqKept s (u.post k src data) := h.quiet (l := []) ((Quiet.refl [] u).post hk) (by simp)
theorem SeqKept.notePost (h : SeqKept s u) (k v : Nat) : SeqKept s (u.notePost k v) := h.trans ⟨rfl, fun _ _ => rfl⟩
theorem SeqKept.ecc (h : SeqKept s u) (x : Ecc) : SeqKept s { u with ecc := x } := h.trans ⟨rfl, fun _ _ => rfl⟩
theorem SeqKept.setSynd (h : SeqKept s u) (w v : Nat) : SeqKept s (u.setSynd w v) := h.ecc _
theorem SeqKept.hamper (h : SeqKept s u) (F : Hamper → Hamper) : SeqKept s (u.updHamper F) := h.trans ⟨rfl, fun _ _ => rfl⟩
theorem SeqKept.updTime (h : SeqKept s u) (F : TimeU → TimeU) : SeqKept s (u.updTime F) := h.trans ⟨rfl, fun _ _ => rfl⟩
theorem SeqKept.flipMem (h : SeqKept s u) (w k : Nat) : SeqKept s (u.flipMem w k) := h.trans ⟨rfl, fun _ _ => rfl⟩
theorem SeqKept.fresh (h : SeqKept s u) : SeqKept s u.fresh.2 := h.trans ⟨rfl, fun _ _ => rfl⟩

/-- Registers outside those of MSG. -/
theorem not_seqOff {off : Nat} (h : off < 0xC0000 ∨ 0xC0018 < off) : ¬SeqOff off := by
  simp only [SeqOff, rMSG_TX_SEQ, rMSG_LAST_ACCEPTED_SEQ]
  omega

/-! ### Words with an error -/

theorem SeqKept.beCount (h : SeqKept s u) (w : Nat) : SeqKept s (u.beCount w) := by
  unfold State.beCount
  split
  · exact h.bump (not_seqOff (by unfold rBE_ECC_CE_COUNT; omega))
  · exact h

theorem SeqKept.eccRecent (h : SeqKept s u) (r w : Nat) : SeqKept s (u.eccRecent r w) := by
  unfold State.eccRecent
  extract_lets -merge v1 v2 v3
  split
  · exact .ite ((h.raise (by decide) (by decide)).post (by decide) _ _) (h.ecc _)
  · exact h.ecc _

theorem SeqKept.noteCe (h : SeqKept s u) (r w syn : Nat) : SeqKept s (u.noteCe r w syn) := by
  unfold State.noteCe
  extract_lets -merge v1 v2 v3 v4 v5 v6 v7 v8 v9 v10 v11 v12
  have h1 : SeqKept s v1 := (h.beCount w).raise (by decide) (by decide)
  have h2 : SeqKept s v2 := h1.setF (not_seqOff (by show rMEM_ECC_REGION r < _ ∨ _ < rMEM_ECC_REGION r; unfold rMEM_ECC_REGION; omega))
  have h3 : SeqKept s v3 := h2.setPair (by decide) (by decide)
  have h4 : SeqKept s v4 := h3.setRegN (by decide)
  have h7 : SeqKept s v7 := h4.ecc _
  have h10 : SeqKept s v10 := (h7.notePost _ _).post (by decide) _ _
  have h12 : SeqKept s v12 := .ite (h10.ecc _) h7
  exact h12.eccRecent r w

theorem SeqKept.noteUe (h : SeqKept s u) (r w syn : Nat) : SeqKept s (u.noteUe r w syn) := by
  unfold State.noteUe
  extract_lets -merge v1 v2 v3 v4
  have h1 : SeqKept s v1 := h.raise (by decide) (by decide)
  have h2 : SeqKept s v2 := h1.setF (not_seqOff (by show rMEM_ECC_REGION r < _ ∨ _ < rMEM_ECC_REGION r; unfold rMEM_ECC_REGION; omega))
  have h3 : SeqKept s v3 := h2.setPair (by decide) (by decide)
  have h4 : SeqKept s v4 := h3.setRegN (by decide)
  exact h4.quiet (l := []) ((Quiet.refl [] v4).postOnce (by decide)) (by simp)

theorem SeqKept.checkWord (h : SeqKept s u) (w : Nat) : SeqKept s (u.checkWord w).2 := by
  unfold State.checkWord
  extract_lets -merge syn
  split
  · exact h
  · split
    · exact h
    · exact (h.setSynd _ _).noteCe _ _ _
    · exact ((SeqKept.ite h (h.flipMem _ _)).setSynd _ _).noteCe _ _ _
    · exact h.noteUe _ _ _

theorem SeqKept.checkRange (h : SeqKept s u) (a n : Nat) : SeqKept s (u.checkRange a n).2 := by
  have hfold : ∀ (l : List Nat) (q : Bool × State), SeqKept s q.2 →
      SeqKept s (l.foldl (fun (q : Bool × State) w => (q.1 || (q.2.checkWord w).1, (q.2.checkWord w).2)) q).2 := by
    intro l
    induction l with
    | nil => exact fun q hq => hq
    | cons w l ih => exact fun q hq => ih _ (hq.checkWord w)
  exact hfold _ (false, u) h

theorem SeqKept.readMem (h : SeqKept s u) (a n : Nat) : SeqKept s (u.readMem a n).2 := h.checkRange a n

theorem SeqKept.synFound (h : SeqKept s u) (r syn : Nat) : SeqKept s (u.synFound r syn).2 := by
  unfold State.synFound
  have hf := h.fresh
  generalize u.fresh = q at hf
  obtain ⟨a, v⟩ := q
  have hv : SeqKept s v := hf
  dsimp only
  split
  · exact hv
  · exact hv.noteCe _ _ _
  · exact hv.noteUe _ _ _

/-! ### Reads of Hamper's records -/

theorem SeqKept.evtHead (h : SeqKept s u) : SeqKept s u.evtHead.2 := by
  unfold State.evtHead
  extract_lets take out
  split
  · exact ⟨h.host, h.regs⟩
  · exact ⟨h.host, h.regs⟩
  · split
    · exact ⟨h.host, h.regs⟩
    · exact h

theorem SeqKept.noteLoss (h : SeqKept s u) (p : Nat) : SeqKept s (u.noteLoss p) := h.quiet (l := []) ((Quiet.refl [] u).noteLoss) (by simp)

theorem SeqKept.evtCheck (h : SeqKept s u) (c : Nat × Ev) : SeqKept s (u.evtCheck c).2 := by
  unfold State.evtCheck
  split
  · exact h
  · exact (h.hamper _).synFound _ _

theorem SeqKept.evtLose (h : SeqKept s u) (c : Nat × Ev) : SeqKept s (u.evtLose c) := by
  unfold State.evtLose
  have hf := h.fresh
  generalize u.fresh = q at hf
  obtain ⟨a, v⟩ := q
  have hv : SeqKept s v := hf
  dsimp only
  exact (hv.bump (not_seqOff (by simp only [rMSG_EVT_DROP]; omega))).noteLoss _

theorem SeqKept.evtTake (k : Nat) : ∀ {u : State}, SeqKept s u → SeqKept s (u.evtTake k).2 := by
  induction k with
  | zero => exact fun h => h
  | succ k ih =>
    intro u h
    have hhead := h.evtHead
    rw [State.evtTake]
    generalize u.evtHead = q at hhead
    obtain ⟨x, v⟩ := q
    have hv : SeqKept s v := hhead
    cases x with
    | none => exact hv
    | some c =>
      dsimp only
      have hchk := hv.evtCheck c
      generalize v.evtCheck c = q at hchk
      obtain ⟨lost, w⟩ := q
      have hw : SeqKept s w := hchk
      dsimp only
      split
      · exact ih (hw.evtLose c)
      · exact hw

theorem SeqKept.evtPop (h : SeqKept s u) (ms : Nat) : SeqKept s (u.evtPop ms).2 := by
  unfold State.evtPop
  split
  · exact h
  · split
    · exact ⟨h.host, h.regs⟩
    · have htake : SeqKept s u.evtNext.2 := SeqKept.evtTake _ h
      generalize u.evtNext = q at htake
      obtain ⟨x, v⟩ := q
      have hv : SeqKept s v := htake
      cases x with
      | none => exact hv
      | some c => exact ⟨hv.host, hv.regs⟩

/-! ### Reads of registers -/

theorem SeqKept.capRead (h : SeqKept s u) {p : Nat} (hp : p < 2) : SeqKept s (u.capRead p).2 := by
  unfold State.capRead
  split
  · exact h
  · exact ((h.updTime _).setRegN (not_seqOff (by simp only [rTIME_CAP_DEPTH]; omega))).setRegN (not_seqOff (by simp only [rTIME_CAP_TS_LO]; omega))

theorem SeqKept.beView (h : SeqKept s u) (n j off : Nat) : SeqKept s (u.beView n j off).2 := by
  unfold State.beView
  split
  · exact h
  · split
    · exact h
    · split
      · unfold State.dmaStatus
        extract_lets e d
        split
        · exact h
        · exact h.fresh
      · exact h

theorem SeqKept.prefetchRead (h : SeqKept s u) (n : Nat) : SeqKept s (u.prefetchRead n).2 := by
  unfold State.prefetchRead
  split
  · exact h
  · exact h.fresh

theorem SeqKept.regRead (h : SeqKept s u) (ms off : Nat) : SeqKept s (u.regRead ms off).2 := by
  unfold State.regRead
  split
  · exact h.evtPop ms
  · split
    · exact h.setRegN (by decide)
    · split
      · exact h.capRead (by decide)
      · split
        · exact h.capRead (by decide)
        · split
          · exact h.beView _ _ _
          · split
            · exact h.prefetchRead _
            · exact h

theorem SeqKept.busRead (h : SeqKept s u) (ms off : Nat) : SeqKept s (u.busRead ms off).2 := by
  unfold State.busRead
  split
  · exact h
  · split
    · exact h.quiet (u.busErr_quiet _) (by decide)
    · unfold State.busReadAt
      split
      · exact h
      · split
        · exact h.checkWord _
        · extract_lets a
          split
          · exact h.quiet (u.unmapped_quiet _) (by decide)
          · split
            · exact h
            · exact h.regRead ms a

theorem SeqKept.readWords (ms step k : Nat) : ∀ {u : State} (off : Nat), SeqKept s u → SeqKept s (u.readWords ms off step k).2 := by
  induction k with
  | zero => exact fun off h => h
  | succ k ih => exact fun off h => ih (off + step) (h.busRead ms off)

theorem SeqKept.spRead (h : SeqKept s u) (first n : Nat) : SeqKept s (u.spRead first n).2 := by
  have hfold : ∀ (base : State) (l : List (Nat × Nat)) (q : List Byte × State), SeqKept s q.2 →
      SeqKept s (l.foldl (fun (acc, s) q => (acc ++ (s.readMem (s.spBase + s.spOff q.2) 64).1.1, (s.readMem (s.spBase + s.spOff q.2) 64).2)) q).2 := by
    intro base l
    induction l with
    | nil => exact fun q hq => hq
    | cons w l ih => exact fun q hq => ih _ (hq.readMem _ _)
  exact hfold u _ ([], u) h

end

end Sys2Proof.Machine

/-! ## The firmware's commands (R336, log 41, log 42) -/

namespace Sys2Proof.Machine

/-! ### Numbers in a payload -/

theorem fileN_append_left {l m : List Byte} {n : Nat} (h : l.length = n) : fileN (l ++ m) 0 n = ofLe l := by
  rw [fileN, List.drop_zero, List.take_left' h]

theorem fileN_append_right {l m : List Byte} {n : Nat} (h : l.length = n) (k : Nat) : fileN (l ++ m) n k = ofLe (m.take k) := by
  rw [fileN, List.drop_left' h]

theorem fileN_two (a b : Nat) : fileN (leBytes 4 a ++ leBytes 4 b) 0 4 = a % 2 ^ 32 ∧ fileN (leBytes 4 a ++ leBytes 4 b) 4 4 = b % 2 ^ 32 := by
  refine ⟨?_, ?_⟩
  · rw [fileN_append_left (length_leBytes 4 a), ofLe_leBytes]
    rfl
  · rw [fileN_append_right (length_leBytes 4 a), List.take_of_length_le (by rw [length_leBytes]), ofLe_leBytes]
    rfl

theorem word_of_leBytes (v : Word) : BitVec.ofNat 32 (ofLe (leBytes 4 v.toNat)) = v := by
  rw [ofLe_leBytes]
  refine BitVec.eq_of_toNat_eq ?_
  rw [BitVec.toNat_ofNat]
  have hlt := v.isLt
  omega

section
variable {s t v : State} {c : Fin 3} {r : RecIn} {op : Nat}

/-! ### Acknowledged -/

theorem State.fwRec_ack {x : HRec} {data : List Byte} (hne : x.opcode ≠ 0x41) (hop : s.fwOp x.opcode x.payload = (.ack data, v)) (c : Nat) :
    s.fwRec c x = v.ackRec c x.seq x.opcode data := by
  rw [State.fwRec, if_neg hne, hop]
  rfl

theorem State.fwRec_nak {x : HRec} {why d : Nat} (hne : x.opcode ≠ 0x41) (hop : s.fwOp x.opcode x.payload = (.nak why d, v)) (c : Nat) :
    s.fwRec c x = v.nakRec c x.seq x.opcode why (v.lastSeq c) d := by
  rw [State.fwRec, if_neg hne, hop]
  rfl

theorem State.fwRec_state {x : HRec} (hop : x.opcode = 0x41) (hp : x.payload = []) (c : Nat) : s.fwRec c x = s.stateRec c 0 x.seq := by
  rw [State.fwRec, if_pos hop, hp]
  rfl

theorem does_acked {i : Instr} {data : List Byte} {P : State → Prop} (hi : asRecord i = some (c, op, r)) (hslow : fastOp op = false) (h : InOrder c r s) (hready : FwReady s)
    (hne : op ≠ 0x41) (hop : (recTaken c r s).fwOp op r.payload = (.ack data, v)) (hP : ∀ t, Answered (replyRegs c) v t → P t) : Does i s P := by
  refine does_firmware hi hslow h hready ?_
  rw [State.fwRec_ack (x := recOut op r) hne hop]
  exact hP _ (v.ackRec_answered c _ _ _)

/-- The answer in the SPI mailbox. -/
theorem does_spiAcked {i : Instr} {data : List Byte} {P : State → Prop} (hi : asRecord i = some (2, op, r)) (hslow : fastOp op = false) (h : InOrder 2 r s) (hready : FwReady s)
    (hroom : s.host.replies.length < 8) (hne : op ≠ 0x41) (hop : (recTaken 2 r s).fwOp op r.payload = (.ack data, v)) (hkept : SeqKept (recTaken 2 r s) v)
    (hP : ∀ t, t.host.replies = s.host.replies ++ [replyRec s r op 0 0 data] → t.mem = v.mem → t.draws = v.draws → P t) : Does i s P := by
  have hhost : v.host = s.host := hkept.host.trans (recTaken_host 2 r s)
  have hnum : v.regN (rMSG_TX_SEQ 2) = s.regN (rMSG_TX_SEQ 2) := (State.regN_congr (hkept.regs _ (.inl rfl))).trans (recTaken_txSeq r s)
  have hlast : v.lastSeq 2 = r.seq.toNat := by
    rw [State.lastSeq, State.regN_congr (hkept.regs _ (.inr rfl)), ← State.lastSeq]
    exact recTaken_lastSeq 2 r s
  obtain ⟨h1, h2, h3⟩ := v.ackRec_spi (by rw [hhost]; exact hroom) r.seq.toNat op data
  refine does_firmware hi hslow h hready ?_
  rw [State.fwRec_ack (x := recOut op r) hne hop]
  refine hP _ ?_ h2 h3
  show (v.ackRec 2 r.seq.toNat op data).host.replies = _
  rw [h1, hhost, hnum, hlast]
  rfl

/-! ### PING and STATE_REQ -/

/-- A record sent to the SPI mailbox, which has room: the reply and its number, and nothing else. -/
theorem does_spiSent {x : HRec} {k : Nat} {body : List Byte} (hroom : s.host.replies.length < 8)
    (hx : x = ⟨s.regN (rMSG_TX_SEQ 2) % 65536, k, hREPLY, r.seq.toNat, body⟩) :
    let t := (recTaken 2 r s).sendRec 2 k body r.seq.toNat hREPLY
    t.host.replies = s.host.replies ++ [x] ∧ Quiet [rMSG_LAST_ACCEPTED_SEQ 2, rMSG_TX_SEQ 2] { s with host := t.host } t := by
  have hq := recTaken_quiet 2 r s
  have hhost := recTaken_host 2 r s
  have hnum := recTaken_txSeq r s
  intro t
  have ht : t = (recTaken 2 r s).sendRec 2 k body r.seq.toNat hREPLY := rfl
  clear_value t
  generalize recTaken 2 r s = v at hq hhost hnum ht
  rw [State.sendRec_spi (by rw [hhost]; exact hroom)] at ht
  have hset : OnlyRegs [rMSG_TX_SEQ 2] v (v.setRegN (rMSG_TX_SEQ 2) ((v.regN (rMSG_TX_SEQ 2) % 65536 + 1) % 65536)) := (OnlyRegs.refl _ v).setRegN (by simp)
  have hwhost : (v.setRegN (rMSG_TX_SEQ 2) ((v.regN (rMSG_TX_SEQ 2) % 65536 + 1) % 65536)).host = s.host := hhost
  generalize v.setRegN (rMSG_TX_SEQ 2) ((v.regN (rMSG_TX_SEQ 2) % 65536 + 1) % 65536) = w at hset hwhost ht
  have hwq : Quiet [rMSG_LAST_ACCEPTED_SEQ 2, rMSG_TX_SEQ 2] s w := (hq.mono (by simp)).trans (hset.quiet.mono (by simp))
  rw [ht]
  refine ⟨?_, hwq.withHost _⟩
  show w.host.replies ++ _ = _
  rw [hwhost, hnum, hx]

theorem does_ping (h : InOrder 2 r s) (hready : FwReady s) (hroom : s.host.replies.length < 8) (hp : r.payload = []) :
    Does (.ping 2 r) s (fun t => t.host.replies = s.host.replies ++ [replyRec s r 0x40 0 0 []]
        ∧ Quiet [rMSG_LAST_ACCEPTED_SEQ 2, rMSG_TX_SEQ 2] { s with host := t.host } t) := by
  refine does_firmware (op := 0x40) rfl rfl h hready ?_
  have hop : (recTaken 2 r s).fwOp 0x40 r.payload = (.ack [], recTaken 2 r s) := by
    rw [hp]
    rfl
  rw [State.fwRec_ack (x := recOut 0x40 r) (by show (0x40 : Nat) ≠ 0x41; decide) hop]
  refine does_spiSent hroom ?_
  have hlast : (recTaken 2 r s).lastSeq (2 : Fin 3) = r.seq.toNat := recTaken_lastSeq 2 r s
  rw [replyRec, hlast]
  rfl

theorem State.stateRec_eq (s : State) (c ref : Nat) : ∃ b, s.stateRec c 0 ref = s.sendRec c 0xE2 b ref hREPLY ∧ b.take 2 = leBytes 2 (s.lastSeq c) ∧ b.length = 40 := by
  refine ⟨_, rfl, ?_, ?_⟩
  · simp only [List.append_assoc]
    exact List.take_left' (length_leBytes 2 _)
  · have hfour : ∀ f : Nat → Nat, ((List.range 4).flatMap (fun p => leBytes 2 (f p))).length = 8 := fun f => by
      rw [List.length_flatMap]
      simp
    simp only [List.length_append, length_leBytes, hfour]

theorem does_stateReq (h : InOrder 2 r s) (hready : FwReady s) (hroom : s.host.replies.length < 8) (hp : r.payload = []) :
    Does (.stateReq 2 r) s (fun t => (∃ x, t.host.replies = s.host.replies ++ [x] ∧ x.opcode = 0xE2 ∧ x.ref = r.seq.toNat
          ∧ x.payload.take 2 = leBytes 2 r.seq.toNat ∧ x.payload.length = 40)
        ∧ Quiet [rMSG_LAST_ACCEPTED_SEQ 2, rMSG_TX_SEQ 2] { s with host := t.host } t) := by
  refine does_firmware (op := 0x41) rfl rfl h hready ?_
  have hrec : (recTaken 2 r s).fwRec (2 : Fin 3) (recOut 0x41 r) = (recTaken 2 r s).stateRec 2 0 r.seq.toNat :=
    State.fwRec_state rfl hp _
  obtain ⟨b, hb, htake, hlen⟩ := (recTaken 2 r s).stateRec_eq 2 r.seq.toNat
  have hlast : (recTaken 2 r s).lastSeq 2 = r.seq.toNat := recTaken_lastSeq 2 r s
  obtain ⟨h1, h2⟩ := does_spiSent (k := 0xE2) (body := b) (r := r) hroom rfl
  rw [hrec, hb]
  exact ⟨⟨_, h1, rfl, rfl, by rw [← hlast]; exact htake, hlen⟩, h2⟩

/-! ### REG_READ, SPOOL_READ, the diagnostics -/

theorem does_regRead (h : InOrder 2 r s) (hready : FwReady s) (hroom : s.host.replies.length < 8) (off k : Nat) (hoff : off < 2 ^ 32) (hk : 0 < k) (hk' : k ≤ 64)
    (hp : r.payload = leBytes 4 off ++ leBytes 4 k) : Does (.regRead 2 r) s (fun t =>
      t.host.replies = s.host.replies ++ [replyRec s r 0x42 0 0 (wordBytes ((recTaken 2 r s).readWords msFW off 4 k).1)]) := by
  obtain ⟨h1, h2⟩ := fileN_two off k
  have hop : (recTaken 2 r s).fwOp 0x42 r.payload
      = (.ack (wordBytes ((recTaken 2 r s).readWords msFW off 4 k).1), ((recTaken 2 r s).readWords msFW off 4 k).2) := by
    show (recTaken 2 r s).fwRegRead r.payload = _
    rw [hp, State.fwRegRead, h1, h2, Nat.mod_eq_of_lt hoff, Nat.mod_eq_of_lt (by omega : k < 2 ^ 32)]
    dsimp only
    rw [if_neg (by simp), if_neg (by omega)]
  exact does_spiAcked (op := 0x42) rfl rfl h hready hroom (by decide) hop ((SeqKept.refl _).readWords msFW 4 k off) fun t ht _ _ => ht

theorem does_spoolRead (h : InOrder 2 r s) (hready : FwReady s) (hroom : s.host.replies.length < 8) (first k : Nat) (hfirst : first < 2 ^ 32) (hk : 0 < k) (hk' : k ≤ 16)
    (hp : r.payload = leBytes 4 first ++ leBytes 4 k) : Does (.spoolRead 2 r) s (fun t =>
      t.host.replies = s.host.replies ++ [replyRec s r 0x48 0 0 ((recTaken 2 r s).spRead first k).1]) := by
  obtain ⟨h1, h2⟩ := fileN_two first k
  have hop : (recTaken 2 r s).fwOp 0x48 r.payload = (.ack ((recTaken 2 r s).spRead first k).1, ((recTaken 2 r s).spRead first k).2) := by
    show (recTaken 2 r s).fwSpool r.payload = _
    rw [hp, State.fwSpool, h1, h2, Nat.mod_eq_of_lt hfirst, Nat.mod_eq_of_lt (by omega : k < 2 ^ 32)]
    dsimp only
    rw [if_neg (by simp), if_neg (by omega)]
  exact does_spiAcked (op := 0x48) rfl rfl h hready hroom (by decide) hop ((SeqKept.refl _).spRead first k) fun t ht _ _ => ht

theorem State.fwOp_diag (h : 0xC0 ≤ op ∧ op < 0xE0) (s : State) (p : List Byte) : s.fwOp op p = s.fwDiag := by
  unfold State.fwOp
  split
  case h_12 => rw [if_pos h]
  all_goals omega

theorem does_diagnostics (h : InOrder 2 r s) (hready : FwReady s) (hroom : s.host.replies.length < 8) (op : Fin 32) :
    (s.loader.cfg.ho.diagnostics = true → Does (.diagnostics 2 op r) s (fun t => t.draws = s.draws + 1
        ∧ t.host.replies = s.host.replies ++ [replyRec s r (0xC0 + op.val) 0 0 (wordBytes [Config.freeWord s.draws])]))
      ∧ (s.loader.cfg.ho.diagnostics = false → Does (.diagnostics 2 op r) s (fun t => Nacked s t ∧ t.draws = s.draws)) := by
  have hlt := op.isLt
  have hslow : fastOp (0xC0 + op.val) = false := by
    rw [fastOp, decide_eq_false (by omega : ¬0xC0 + op.val < 0x40), decide_eq_false (by omega : ¬0xC0 + op.val < 0xC0), Bool.and_false, Bool.or_false]
  have hq := recTaken_quiet 2 r s
  have hdraws : (recTaken 2 r s).draws = s.draws := by rw [hq.rest]
  have hne : 0xC0 + op.val ≠ 0x41 := by omega
  refine ⟨fun hon => ?_, fun hoff => ?_⟩
  · have hop : (recTaken 2 r s).fwOp (0xC0 + op.val) r.payload = (.ack (wordBytes [Config.freeWord s.draws]), (recTaken 2 r s).fresh.2) := by
      rw [State.fwOp_diag (by omega), State.fwDiag, hq.loader, hon, ← hdraws]
      rfl
    refine does_spiAcked rfl hslow h hready hroom hne hop (SeqKept.refl _).fresh fun t ht _ hd => ⟨hd.trans ?_, ht⟩
    show (recTaken 2 r s).draws + 1 = _
    rw [hdraws]
  · refine does_firmware rfl hslow h hready ?_
    have hop : (recTaken 2 r s).fwOp (0xC0 + op.val) r.payload = (.nak nakUNKNOWN 0, recTaken 2 r s) := by
      rw [State.fwOp_diag (by omega), State.fwDiag, hq.loader, hoff]
      rfl
    have hrec : (recTaken 2 r s).fwRec (2 : Fin 3) (recOut (0xC0 + op.val) r)
        = (recTaken 2 r s).nakRec (2 : Fin 3) r.seq.toNat (0xC0 + op.val) nakUNKNOWN ((recTaken 2 r s).lastSeq (2 : Fin 3)) 0 :=
      State.fwRec_nak (x := recOut (0xC0 + op.val) r) hne hop _
    rw [hrec]
    obtain ⟨h1, -, h3⟩ := (recTaken 2 r s).nakRec_effect 2 r.seq.toNat (0xC0 + op.val) nakUNKNOWN ((recTaken 2 r s).lastSeq (2 : Fin 3)) 0
    exact ⟨nacked_recTaken h1, h3.trans hdraws⟩

end

end Sys2Proof.Machine

/-! ## The firmware's commands that act on the device (R336), and the claim -/

namespace Sys2Proof.Machine

section
variable {s t v : State} {c : Fin 3} {r : RecIn} {op : Nat}

/-! ### Register writes -/

theorem Answered.mem {l : List Nat} (h : Answered l s t) : t.mem = s.mem := h.quiet.mem_eq

theorem Answered.reg {l : List Nat} (h : Answered l s t) {off : Nat} (h1 : off ∉ l) (h2 : off ∉ evRegs) : t.reg off = s.reg off := h.quiet.regs off h1 h2

/-- A record whose effect is a register write. -/
theorem does_written {i : Instr} {off : BitVec 24} {w : Word} (hi : asRecord i = some (c, op, r)) (hslow : fastOp op = false) (h : InOrder c r s) (hready : FwReady s)
    (hne : op ≠ 0x41) (hop : (recTaken c r s).fwOp op r.payload = (.ack [], (recTaken c r s).busWrite off.toNat w)) :
    ∃ u, exec (.registerWrite off w) (recTaken c r s) = .next u ∧ Does i s (fun t => t.mem = u.mem ∧ ∀ o, o ∉ replyRegs c → o ∉ evRegs → t.reg o = u.reg o) :=
  ⟨_, exec_registerWrite off w _, does_acked hi hslow h hready hne hop fun _ ht => ⟨ht.mem, fun _ h1 h2 => ht.reg h1 h2⟩⟩

theorem does_regWrite (h : InOrder c r s) (hready : FwReady s) (off : BitVec 24) (w : Word) (hp : r.payload = leBytes 4 off.toNat ++ leBytes 4 w.toNat) :
    ∃ u, exec (.registerWrite off w) (recTaken c r s) = .next u ∧ Does (.regWrite c r) s (fun t => t.mem = u.mem ∧ ∀ o, o ∉ replyRegs c → o ∉ evRegs → t.reg o = u.reg o) := by
  refine does_written (op := 0x43) rfl rfl h hready (by decide) ?_
  have hoff := off.isLt
  obtain ⟨h1, -⟩ := fileN_two off.toNat w.toNat
  have hwords : leWords (leBytes 4 w.toNat) = [w] := congrArg (fun x => [x]) (word_of_leBytes w)
  show (recTaken c r s).fwRegWrite r.payload = _
  rw [hp, State.fwRegWrite, if_neg (by simp), h1, Nat.mod_eq_of_lt (by omega), List.drop_left' (length_leBytes 4 _), hwords]
  rfl

theorem State.fwWord_eq (s : State) (off : BitVec 24) (w : Word) : s.fwWord off.toNat (leBytes 4 w.toNat) = (.ack [], s.busWrite off.toNat w) := by
  rw [State.fwWord, if_neg (by simp), word_of_leBytes]

theorem does_wordRecord {i : Instr} {off : BitVec 24} {w : Word} (h : InOrder c r s) (hready : FwReady s) (hi : asRecord i = some (c, op, r)) (hop : (op, off) ∈ wordRecords)
    (hp : r.payload = leBytes 4 w.toNat) : ∃ u, exec (.registerWrite off w) (recTaken c r s) = .next u ∧ Does i s (fun t => t.mem = u.mem
        ∧ ∀ o, o ∉ replyRegs c → o ∉ evRegs → t.reg o = u.reg o) := by
  have hword := (recTaken c r s).fwWord_eq off w
  rw [← hp] at hword
  simp only [wordRecords, List.mem_cons, List.not_mem_nil, or_false, Prod.mk.injEq] at hop
  obtain ⟨rfl, rfl⟩ | ⟨rfl, rfl⟩ | ⟨rfl, rfl⟩ | ⟨rfl, rfl⟩ := hop
  · exact does_written hi rfl h hready (by decide) hword
  · exact does_written hi rfl h hready (by decide) hword
  · exact does_written hi rfl h hready (by decide) hword
  · exact does_written hi rfl h hready (by decide) hword

/-! ### STAGE_DATA -/

theorem updStatus_ne (c : Fin 3) : rBSTREAM_UPDATE_STATUS ∉ replyRegs c ∧ rBSTREAM_STATUS ≠ rMSG_LAST_ACCEPTED_SEQ c := by
  revert c
  decide

theorem does_holvoStageData (h : InOrder c r s) (hready : FwReady s) (hlen : 4 ≤ r.payload.length) :
    (s.bsState ≠ bsRUNNING → Does (.holvoStageData c r) s (fun t =>
        t.getF fBSTREAM_UPDATE_STATUS_ERR_CODE = errNotPermitted ∧ t.loader = s.loader ∧ t.mem = s.mem))
      ∧ (s.bsState = bsRUNNING → Does (.holvoStageData c r) s (fun t =>
        let u := (recTaken c r s).stageBytes (fileN r.payload 0 4) (r.payload.drop 4)
        t.mem = u.mem ∧ t.loader = u.loader ∧ t.updState = u.updState)) := by
  have hq := recTaken_quiet c r s
  obtain ⟨hreply, hlast⟩ := updStatus_ne c
  have hstate : (recTaken c r s).bsState = s.bsState := State.getF_congr (hq.regs _ (by simpa using hlast) (by decide))
  have hop : (recTaken c r s).fwOp 0x44 r.payload = (recTaken c r s).fwStage r.payload := rfl
  rw [State.fwStage, if_neg (by omega), hstate] at hop
  refine ⟨fun hst => ?_, fun hst => ?_⟩
  · rw [if_pos hst] at hop
    have hset : OnlyRegs [rBSTREAM_UPDATE_STATUS] (recTaken c r s) ((recTaken c r s).setF fBSTREAM_UPDATE_STATUS_ERR_CODE errNotPermitted) := (OnlyRegs.refl _ _).setF (by simp)
    have hcode : ((recTaken c r s).setF fBSTREAM_UPDATE_STATUS_ERR_CODE errNotPermitted).getF fBSTREAM_UPDATE_STATUS_ERR_CODE = errNotPermitted :=
      State.getF_setF _ _ _ (by decide)
    rw [State.updNak] at hop
    generalize (recTaken c r s).setF fBSTREAM_UPDATE_STATUS_ERR_CODE errNotPermitted = v at hop hset hcode
    have hev : Quiet [] v (v.post evCONFIG_UPD_REFUSED srcBSTREAM errNotPermitted) := (Quiet.refl _ v).post (by decide)
    generalize v.post evCONFIG_UPD_REFUSED srcBSTREAM errNotPermitted = w at hop hev
    refine does_acked (op := 0x44) rfl rfl h hready (by decide) hop fun t ht => ⟨?_, ?_, ?_⟩
    · rw [State.getF_congr (ht.reg hreply (by decide)), hev.getF _ (by simp) (by decide), hcode]
    · rw [ht.quiet.loader]
      exact hev.loader.trans ((by rw [hset.rest] : v.loader = (recTaken c r s).loader).trans hq.loader)
    · rw [ht.mem, hev.mem_eq, hset.mem_eq, hq.mem_eq]
  · rw [if_neg (by rw [hst]; decide)] at hop
    refine does_acked (op := 0x44) rfl rfl h hready (by decide) hop fun t ht => ⟨ht.mem, ht.quiet.loader, ?_⟩
    exact State.getF_congr (ht.reg hreply (by decide))

/-! ### EVT_STREAM -/

/-- The bytes of a number that is below 256. -/
theorem leBytes_one (n : Nat) : leBytes 1 n = [BitVec.ofNat 8 n] := rfl

theorem does_evtStream (h : InOrder c r s) (hready : FwReady s) (on : Bool) (p : Fin 2) (hp : r.payload = leBytes 1 on.toNat ++ leBytes 1 p ++ leBytes 2 0) :
    Does (.evtStream c r) s (fun t => t.hamper.stream = s.hamper.stream.set p on ∧ t.mem = s.mem) := by
  have hop : (recTaken c r s).fwOp 0x46 r.payload = (.ack [], (recTaken c r s).updHamper (fun h => { h with stream := h.stream.set p on })) := by
    show (recTaken c r s).fwStream r.payload = _
    rw [hp]
    cases on with
    | false => fin_cases p <;> rfl
    | true => fin_cases p <;> rfl
  have hham : (recTaken c r s).hamper = s.hamper := by
    show ((s.wakeNote _).setRegN _ _).hamper = _
    exact (State.setReg_hamper _ _ _).trans (State.wakeNote_hamper _ _)
  refine does_acked (op := 0x46) rfl rfl h hready (by decide) hop fun t ht => ⟨?_, ht.mem.trans (recTaken_quiet c r s).mem_eq⟩
  rw [ht.stream, ← hham]
  rfl

/-! ### SAK_INSTALL -/

/-- The association that a payload of SAK_INSTALL names (log 41). -/
def sakOf (p a : Fin 2) (tx xpn : Bool) (ssci : Word) (salt key : List Byte) : SecA :=
  ⟨p, tx, a, key, xpn, if xpn then ssci.toNat else 0, if xpn then salt else [], 1⟩

/-- The payload of SAK_INSTALL (log 41). -/
def sakBytes (p a : Fin 2) (tx xpn : Bool) (ssci : Word) (salt key : List Byte) : List Byte :=
  leBytes 1 p ++ leBytes 1 tx.toNat ++ leBytes 1 a ++ leBytes 1 xpn.toNat ++ (if xpn then leBytes 4 ssci.toNat ++ salt else []) ++ key

theorem sakBytes_flags (p a : Fin 2) (tx xpn : Bool) (ssci : Word) (salt key : List Byte) : let f := fun o => fileN (sakBytes p a tx xpn ssci salt key) o 1
    f 0 = p.val ∧ f 1 = tx.toNat ∧ f 2 = a.val ∧ f 3 = xpn.toNat := by
  have hbyte : ∀ n : Nat, n < 2 → ofLe (leBytes 1 n) = n := fun n hn => by
    rw [ofLe_leBytes]
    omega
  exact ⟨hbyte p p.isLt, hbyte _ tx.toNat_lt, hbyte a a.isLt, hbyte _ xpn.toNat_lt⟩

/-- Where the key, the salt and the SSCI stand. -/
theorem sakBytes_parts (p a : Fin 2) (tx xpn : Bool) (ssci : Word) {salt key : List Byte} (hsalt : salt.length = 12) :
    let n := if xpn.toNat = 1 then 20 else 4
    (sakBytes p a tx xpn ssci salt key).length = n + key.length ∧ (sakBytes p a tx xpn ssci salt key).drop n = key
      ∧ ((sakBytes p a tx xpn ssci salt key).take n).drop 8 = (if xpn then salt else [])
      ∧ (if xpn.toNat = 1 then fileN (sakBytes p a tx xpn ssci salt key) 4 4 else 0) = if xpn then ssci.toNat else 0 := by
  cases xpn with
  | false => exact ⟨by simp [sakBytes]; omega, rfl, rfl, rfl⟩
  | true =>
    have hpre : sakBytes p a tx true ssci salt key = ((leBytes 1 p ++ leBytes 1 tx.toNat ++ leBytes 1 a ++ leBytes 1 1 ++ leBytes 4 ssci.toNat) ++ salt) ++ key := by
      simp [sakBytes]
    have hhead : (leBytes 1 p ++ leBytes 1 tx.toNat ++ leBytes 1 a ++ leBytes 1 1 ++ leBytes 4 ssci.toNat).length = 8 := by simp
    have hsci : fileN (((leBytes 1 p ++ leBytes 1 tx.toNat ++ leBytes 1 a ++ leBytes 1 1 ++ leBytes 4 ssci.toNat) ++ salt) ++ key) 4 4 = ofLe (leBytes 4 ssci.toNat) := rfl
    have hone : true.toNat = 1 := rfl
    rw [hpre]
    dsimp only
    rw [if_pos hone, if_pos hone, hsci, ofLe_leBytes, if_pos rfl, if_pos rfl]
    generalize leBytes 1 p ++ leBytes 1 tx.toNat ++ leBytes 1 a ++ leBytes 1 1 ++ leBytes 4 ssci.toNat = l at hhead
    have hfull : (l ++ salt).length = 20 := by rw [List.length_append, hhead, hsalt]
    have hlt := ssci.isLt
    refine ⟨by rw [List.length_append, hfull], List.drop_left' hfull, ?_, by omega⟩
    rw [List.take_left' hfull, List.drop_left' hhead]

theorem State.fwSak_eq (s : State) (p a : Fin 2) (tx xpn : Bool) (ssci : Word) {salt key : List Byte} (hkey : key.length = 16 ∨ key.length = 32) (hsalt : salt.length = 12) :
    s.fwSak (sakBytes p a tx xpn ssci salt key)
      = (.ack [], s.updHost (fun h => { h with secs := h.secs.filter (fun b => !sameSec (sakOf p a tx xpn ssci salt key) b) ++ [sakOf p a tx xpn ssci salt key] })) := by
  obtain ⟨h0, h1, h2, h3⟩ := sakBytes_flags p a tx xpn ssci salt key
  obtain ⟨hlen, hrest, hsal, hsci⟩ := sakBytes_parts p a tx xpn ssci (salt := salt) (key := key) hsalt
  have hnone : (List.range 4).find? (fun o => decide (2 ≤ fileN (sakBytes p a tx xpn ssci salt key) o 1)) = none := by
    have hp := p.isLt
    have ha := a.isLt
    have hb := fun b : Bool => b.toNat_lt
    have htx := hb tx
    have hxpn := hb xpn
    simp [List.range_succ, h0, h1, h2, h3]
    omega
  generalize sakBytes p a tx xpn ssci salt key = bs at h0 h1 h2 h3 hlen hrest hsal hsci hnone
  unfold State.fwSak
  extract_lets f n sec
  have hf3 : f 3 = xpn.toNat := h3
  have hn : n = if xpn.toNat = 1 then 20 else 4 := by
    unfold n
    rw [hf3]
  have hno : ¬(bs.length ≠ n + 16 ∧ bs.length ≠ n + 32) := by
    rw [hlen, hn]
    omega
  have hsak : sec
      = sakOf p a tx xpn ssci salt key := by
    have hbool : ∀ b : Bool, (b.toNat == 1) = b := by decide
    have hf0 : f 0 = p.val := h0
    have hf1 : f 1 = tx.toNat := h1
    have hf2 : f 2 = a.val := h2
    unfold sec
    rw [hf0, hf1, hf2, hf3, hn, hrest, hsal, hsci, hbool, hbool]
    rfl
  rw [if_neg hno, hnone]
  dsimp only
  rw [hsak]

theorem does_sakInstall (h : InOrder 2 r s) (hready : FwReady s) (p a : Fin 2) (tx xpn : Bool) (ssci : Word) (salt key : List Byte)
    (hkey : key.length = 16 ∨ key.length = 32) (hsalt : salt.length = 12) (hp : r.payload = sakBytes p a tx xpn ssci salt key) (hroom : s.host.replies.length < 8) :
    Does (.sakInstall 2 r) s (fun t => t.host.secs = s.host.secs.filter (fun b => !sameSec (sakOf p a tx xpn ssci salt key) b) ++ [sakOf p a tx xpn ssci salt key] ∧ t.mem = s.mem) := by
  have hop := (recTaken 2 r s).fwSak_eq p a tx xpn ssci hkey hsalt
  rw [← hp] at hop
  have hhost := recTaken_host 2 r s
  refine does_firmware (op := 0x49) rfl rfl h hready ?_
  rw [State.fwRec_ack (x := recOut 0x49 r) (by show (0x49 : Nat) ≠ 0x41; decide) hop]
  generalize hv : (recTaken 2 r s).updHost _ = v
  have hvhost : v.host.replies = s.host.replies ∧ v.host.secs
      = s.host.secs.filter (fun b => !sameSec (sakOf p a tx xpn ssci salt key) b) ++ [sakOf p a tx xpn ssci salt key] := by
    rw [← hv, ← hhost]
    exact ⟨rfl, rfl⟩
  have hmem : v.mem = s.mem := by
    rw [← hv]
    exact (recTaken_quiet 2 r s).mem_eq
  obtain ⟨h1, h2, -⟩ := v.ackRec_spi (by rw [hvhost.1]; exact hroom) (recOut 0x49 r).seq (recOut 0x49 r).opcode []
  refine ⟨?_, h2.trans hmem⟩
  show (v.ackRec 2 _ _ _).host.secs = _
  rw [h1]
  exact hvhost.2

end

/-- Settles O53: the router's way to the firmware once, what an answer leaves once, and each command by what the firmware does with its payload. -/
theorem holvoFirmware : Obligations.HolvoFirmware := by
  unfold Obligations.HolvoFirmware
  refine ⟨does_slow, fun r s h hready hroom => ⟨fun hp => ⟨does_ping h hready hroom hp, does_stateReq h hready hroom hp⟩,
      fun off k hoff hk hk' hp => does_regRead h hready hroom off k hoff hk hk' hp, fun first k hfirst hk hk' hp => does_spoolRead h hready hroom first k hfirst hk hk' hp,
      fun p a tx xpn ssci salt key hkey hsalt hp => does_sakInstall h hready p a tx xpn ssci salt key hkey hsalt hp hroom, does_diagnostics h hready hroom⟩,
    fun c r s h hready => ⟨fun off v hp => does_regWrite h hready off v hp, fun i op off v hi hop hp => does_wordRecord h hready hi hop hp, does_holvoStageData h hready,
      fun on p hp => does_evtStream h hready on p hp⟩⟩

end Sys2Proof.Machine

/-! ## Model time

Commands and the tick's own operations leave the count of ticks alone; only `tickTime` counts. `SameNow` says so of one state and a later one,
and has one law for each operation that a tick is made of, along that operation's own steps. Where `Beside` already covers an operation, its
law is cited. -/

namespace Sys2Proof.Machine

/-- Model time is the same. -/
structure SameNow (s t : State) : Prop where
  now : t.time.now = s.time.now

theorem SameNow.refl (s : State) : SameNow s s := ⟨rfl⟩

theorem SameNow.of {s u t : State} (h : SameNow s u) (e : t.time.now = u.time.now) : SameNow s t := ⟨e.trans h.now⟩

theorem SameNow.beside {p : Span} {s u t : State} (h : SameNow s u) (k : Beside p u t) : SameNow s t := h.of k.now

/-- An update of fields other than the time unit. -/
theorem SameNow.upd {s u : State} {x_draws x_mem x_regs x_otp x_boot x_faultN x_loader x_hamper x_spool x_posted x_hlv x_mc x_ecc x_be x_progs
    x_comp x_press x_tg x_port x_lampTiming x_record x_bank0 x_bank1 x_health x_store x_hcfg x_agingPaused x_sel x_safe x_safeTile x_hk x_pwr
    x_host x_crc x_debugPort x_wakeDue x_rdata}
    (h : SameNow s u) :
    SameNow s { u with
      draws := x_draws, mem := x_mem, regs := x_regs, otp := x_otp, boot := x_boot, faultN := x_faultN, loader := x_loader, hamper := x_hamper,
      spool := x_spool, posted := x_posted, hlv := x_hlv, mc := x_mc, ecc := x_ecc, be := x_be, progs := x_progs, comp := x_comp,
      press := x_press, tg := x_tg, port := x_port, lampTiming := x_lampTiming, record := x_record, bank0 := x_bank0, bank1 := x_bank1,
      health := x_health, store := x_store, hcfg := x_hcfg, agingPaused := x_agingPaused, sel := x_sel, safe := x_safe,
      safeTile := x_safeTile, hk := x_hk, pwr := x_pwr, host := x_host, crc := x_crc, debugPort := x_debugPort, wakeDue := x_wakeDue,
      rdata := x_rdata } :=
  h.of rfl

/-- An update of the time unit that keeps model time. -/
theorem SameNow.updTime {s u : State} {f : TimeU → TimeU} (h : SameNow s u) (e : ∀ x, (f x).now = x.now) : SameNow s (u.updTime f) :=
  h.of (e u.time)

/-! ### Combining -/

theorem SameNow.ite {s : State} {c : Prop} [Decidable c] {a b : State} (h : c → SameNow s a) (k : ¬c → SameNow s b) :
    SameNow s (if c then a else b) := by
  split
  · exact h ‹_›
  · exact k ‹_›

theorem SameNow.ite2 {s : State} {β : Type} {c : Prop} [Decidable c] {a b : β × State} (h : c → SameNow s a.2) (k : ¬c → SameNow s b.2) :
    SameNow s (if c then a else b).2 := by
  split
  · exact h ‹_›
  · exact k ‹_›

theorem SameNow.mk2 {s t : State} {β : Type} {b : β} (h : SameNow s t) : SameNow s (b, t).2 := h

/-- The state of a pair that has been taken apart. -/
theorem SameNow.pair {s : State} {β : Type} {q : β × State} {b : β} {t : State} (e : q = (b, t)) (h : SameNow s q.2) : SameNow s t := by
  rw [e] at h
  exact h

theorem SameNow.foldl {s : State} {α : Type} {F : State → α → State} {l : List α} {u : State} (h : SameNow s u)
    (k : ∀ v x, SameNow s v → SameNow s (F v x)) : SameNow s (l.foldl F u) := by
  induction l generalizing u with
  | nil => exact h
  | cons x l ih => exact ih (k u x h)

/-- The state of a pair that a fold carries. -/
theorem SameNow.foldl2 {s : State} {α β : Type} {F : β × State → α → β × State} {l : List α} {p : β × State} (h : SameNow s p.2)
    (k : ∀ v x, SameNow s v.2 → SameNow s (F v x).2) : SameNow s (l.foldl F p).2 := by
  induction l generalizing p with
  | nil => exact h
  | cons x l ih => exact ih (k p x h)

/-- An optional state at the same model time. -/
def SameNowO (s : State) (r : Option State) : Prop := ∀ t, r = some t → SameNow s t

theorem SameNowO.some {s t : State} (h : SameNow s t) : SameNowO s (some t) := fun _ e => by
  cases e
  exact h

theorem SameNowO.none {s : State} : SameNowO s none := fun _ e => by cases e

theorem SameNowO.ite {s : State} {c : Prop} [Decidable c] {a b : Option State} (h : c → SameNowO s a) (k : ¬c → SameNowO s b) :
    SameNowO s (if c then a else b) := by
  split
  · exact h ‹_›
  · exact k ‹_›

theorem SameNowO.getD {s t : State} {o : Option State} (h : SameNowO s o) (k : SameNow s t) : SameNow s (o.getD t) := by
  cases o with
  | none => exact k
  | some x => exact h x rfl

theorem SameNowO.map {s : State} {α : Type} {o : Option α} {F : α → State} (h : ∀ x, SameNow s (F x)) : SameNowO s (o.map F) := by
  intro t e
  obtain ⟨x, -, rfl⟩ := Option.map_eq_some_iff.mp e
  exact h x

/-! ### The state's own operations -/

section

variable {s u : State}

theorem sameNow_setReg {off v} (h : SameNow s u) : SameNow s (u.setReg off v) := h.of rfl

theorem sameNow_setByte {a b} (h : SameNow s u) : SameNow s (u.setByte a b) := h.of rfl

theorem sameNow_setBytes {a bs} (h : SameNow s u) : SameNow s (u.setBytes a bs) := h.of rfl

theorem sameNow_putStore {a bs} (h : SameNow s u) : SameNow s (u.putStore a bs) := h.of rfl

theorem sameNow_putSel {n i v} (h : SameNow s u) : SameNow s (u.putSel n i v) := h.of rfl

theorem sameNow_otp {o} (h : SameNow s u) : SameNow s { u with otp := o } := h.of rfl

theorem sameNow_fresh (h : SameNow s u) : SameNow s u.fresh.2 := h.of rfl

theorem sameNow_drawn {k} (h : SameNow s u) : SameNow s (u.drawn k) := h.of rfl

end

end Sys2Proof.Machine

/-! ## Model time in registers, memory, engines and links -/

namespace Sys2Proof.Machine

section

variable {s u : State}

/-! ### Registers and memory -/

theorem sameNow_setRegWords {off} {l : List Word} (h : SameNow s u) : SameNow s (u.setRegWords off l) := by
  induction l generalizing u off with
  | nil => exact h
  | cons v t ih => exact ih (sameNow_setReg h)

theorem sameNow_setRegN {x1 x2} (h : SameNow s u) : SameNow s (State.setRegN u x1 x2) := by
  unfold State.setRegN
  exact sameNow_setReg h

theorem sameNow_setF {x1 x2} (h : SameNow s u) : SameNow s (State.setF u x1 x2) := by
  unfold State.setF
  exact sameNow_setRegN h

theorem sameNow_setB {x1 x2} (h : SameNow s u) : SameNow s (State.setB u x1 x2) := by
  unfold State.setB
  exact sameNow_setF h

theorem sameNow_bumpBy {x1 x2} (h : SameNow s u) : SameNow s (State.bumpBy u x1 x2) := by
  unfold State.bumpBy
  exact sameNow_setRegN h

theorem sameNow_bump {x1} (h : SameNow s u) : SameNow s (State.bump u x1) := by
  unfold State.bump
  exact sameNow_bumpBy h

theorem sameNow_bumpF {x1 x2} (h : SameNow s u) : SameNow s (State.bumpF u x1 x2) := by
  unfold State.bumpF
  exact sameNow_setF h

theorem sameNow_raise {x1 x2} (h : SameNow s u) : SameNow s (State.raise u x1 x2) := by
  unfold State.raise
  exact sameNow_bump (sameNow_setF h)

theorem sameNow_setPair {x1 x2 x3} (h : SameNow s u) : SameNow s (State.setPair u x1 x2 x3) := by
  unfold State.setPair
  exact sameNow_setRegN (sameNow_setRegN h)

theorem sameNow_setDom {x1 x2} (h : SameNow s u) : SameNow s (State.setDom u x1 x2) := by
  unfold State.setDom
  exact SameNow.ite (fun _ => h.of rfl) (fun _ => h.of rfl)

theorem sameNow_wakeNote {x1} (h : SameNow s u) : SameNow s (State.wakeNote u x1) :=
  h.beside (beside_wakeNote (.refl .now u))

theorem sameNow_heard (h : SameNow s u) : SameNow s (State.heard u) := by
  unfold State.heard
  exact SameNow.upd h

theorem sameNow_releaseFault {x1} (h : SameNow s u) : SameNow s (State.releaseFault u x1) :=
  h.beside (beside_releaseFault (.refl .now u))

/-! ### Events -/

theorem sameNow_spoolPut {x1 x2 x3 x4} (h : SameNow s u) : SameNow s (State.spoolPut u x1 x2 x3 x4) :=
  h.beside (beside_spoolPut (.refl .now u))

theorem sameNow_noteLoss {x1} (h : SameNow s u) : SameNow s (State.noteLoss u x1) :=
  h.beside (beside_noteLoss (.refl .now u))

theorem sameNow_post {x1 x2 x3} (h : SameNow s u) : SameNow s (State.post u x1 x2 x3) :=
  h.beside (beside_post (.refl .now u))

theorem sameNow_postGap {x1 x2 x3 x4 x5} (h : SameNow s u) : SameNow s (State.postGap u x1 x2 x3 x4 x5) :=
  h.beside (beside_postGap (.refl .now u))

theorem sameNow_postOnce {x1 x2 x3 x4 x5} (h : SameNow s u) : SameNow s (State.postOnce u x1 x2 x3 x4 x5) :=
  h.beside (beside_postOnce (.refl .now u))

theorem sameNow_busErr {x1} (h : SameNow s u) : SameNow s (State.busErr u x1) :=
  h.beside (beside_busErr (.refl .now u))

theorem sameNow_unmapped {x1} (h : SameNow s u) : SameNow s (State.unmapped u x1) := by
  unfold State.unmapped
  exact sameNow_setRegN (sameNow_raise h)

theorem sameNow_lockViol {x1} (h : SameNow s u) : SameNow s (State.lockViol u x1) := by
  unfold State.lockViol
  exact sameNow_postGap (sameNow_raise h)

theorem sameNow_lockWrite {x1 x2 x3} {x4 : Sys2Proof.Word → State → State} (h : SameNow s u) (k4 : ∀ w v, SameNow s v → SameNow s
    (x4 w v)) : SameNow s (State.lockWrite u x1 x2 x3 x4) := by
  unfold State.lockWrite
  extract_lets -merge v9 v10 v11
  have h12 : SameNow s v11 := SameNow.ite (fun _ => sameNow_lockViol h) (fun _ => h)
  exact SameNow.ite (fun _ => sameNow_lockViol h) (fun _ => k4 _ _ h12)

theorem sameNow_updHost {x1} (h : SameNow s u) : SameNow s (State.updHost u x1) := by
  unfold State.updHost
  exact SameNow.upd h

theorem sameNow_hostEv {x1 x2 x3 x4} (h : SameNow s u) : SameNow s (State.hostEv u x1 x2 x3 x4) := by
  unfold State.hostEv
  exact sameNow_postGap h

theorem sameNow_ethSend {x1 x2 x3} (h : SameNow s u) : SameNow s (State.ethSend u x1 x2 x3) := by
  unfold State.ethSend
  exact sameNow_updHost h

theorem sameNow_ethOut {x1 x2} (h : SameNow s u) : SameNow s (State.ethOut u x1 x2) := by
  unfold State.ethOut
  refine SameNow.ite (fun _ => sameNow_ethSend h) (fun _ => ?_)
  split
  · exact h
  · refine SameNow.ite (fun _ => h) (fun _ => ?_)
    extract_lets -merge v6 v7
    have h8 : SameNow s v6 := sameNow_ethSend h
    have h9 : SameNow s v7 := sameNow_updHost h8
    exact SameNow.ite (fun _ => sameNow_hostEv h9) (fun _ => h9)

/-! ### Memory with its check bits -/

theorem sameNow_setSynd {x1 x2} (h : SameNow s u) : SameNow s (State.setSynd u x1 x2) :=
  h.beside (beside_setSynd (.refl .now u))

theorem sameNow_flipMem {x1 x2} (h : SameNow s u) : SameNow s (State.flipMem u x1 x2) := by
  unfold State.flipMem
  extract_lets -merge v6
  exact sameNow_setByte h

theorem sameNow_noteCe {x1 x2 x3} (h : SameNow s u) : SameNow s (State.noteCe u x1 x2 x3) :=
  h.beside (beside_noteCe (.refl .now u))

theorem sameNow_noteUe {x1 x2 x3} (h : SameNow s u) : SameNow s (State.noteUe u x1 x2 x3) :=
  h.beside (beside_noteUe (.refl .now u))

theorem sameNow_checkWord {x1} (h : SameNow s u) : SameNow s (State.checkWord u x1).2 := by
  unfold State.checkWord
  extract_lets -merge v8
  split
  · exact SameNow.mk2 h
  · split
    · exact SameNow.mk2 h
    · exact SameNow.mk2 (sameNow_noteCe (sameNow_setSynd h))
    · exact SameNow.mk2 (sameNow_noteCe (sameNow_setSynd (SameNow.ite (fun _ => h) (fun _ => sameNow_flipMem h))))
    · exact SameNow.mk2 (sameNow_noteUe h)

theorem sameNow_checkRange {x1 x2} (h : SameNow s u) : SameNow s (State.checkRange u x1 x2).2 := by
  unfold State.checkRange
  refine (SameNow.foldl2 (SameNow.mk2 h) (fun _ _ _ => ?_))
  rename_i h17
  split
  rename_i y31
  split
  rename_i y44 h45
  have h46 := SameNow.pair h45 (sameNow_checkWord h17)
  exact SameNow.mk2 h46

theorem sameNow_readMem {x1 x2} (h : SameNow s u) : SameNow s (State.readMem u x1 x2).2 := by
  unfold State.readMem
  split
  rename_i y32 h33
  have h34 := SameNow.pair h33 (sameNow_checkRange h)
  exact SameNow.mk2 h34

theorem sameNow_prepWord {x1 x2 x3} (h : SameNow s u) : SameNow s (State.prepWord u x1 x2 x3) := by
  unfold State.prepWord
  refine (SameNow.ite (fun _ => sameNow_setSynd h) (fun _ => ?_))
  split
  rename_i y25 h26
  have h27 := SameNow.pair h26 (sameNow_checkWord h)
  exact SameNow.ite (fun _ => sameNow_setSynd h27) (fun _ => sameNow_setSynd h27)

theorem sameNow_injectInto {x1 x2} (h : SameNow s u) : SameNow s (State.injectInto u x1 x2) := by
  unfold State.injectInto
  extract_lets -merge v6 v7 v8
  have h12 : SameNow s v7 := by
    unfold v7
    unfold v6
    extract_lets -merge v9
    have h11 : SameNow s v9 := SameNow.ite (fun _ => sameNow_flipMem h) (fun _ => h)
    exact sameNow_setSynd h11
  have h10 : SameNow s v8 := by
    refine (SameNow.ite (fun _ => ?_) (fun _ => h12))
    unfold v6
    extract_lets -merge v19
    have h22 : SameNow s v19 := SameNow.ite (fun _ => sameNow_flipMem h12) (fun _ => h12)
    exact sameNow_setSynd h22
  exact SameNow.ite (fun _ => sameNow_setF h10) (fun _ => h)

theorem sameNow_synFound {x1 x2} (h : SameNow s u) : SameNow s (State.synFound u x1 x2).2 := by
  unfold State.synFound
  split
  rename_i y14 h15
  have h17 := SameNow.pair h15 (sameNow_fresh h)
  split
  · exact SameNow.mk2 h17
  · exact SameNow.mk2 (sameNow_noteCe h17)
  · exact SameNow.mk2 (sameNow_noteUe h17)

theorem sameNow_injectFound {x1} (h : SameNow s u) : SameNow s (State.injectFound u x1).2 := by
  unfold State.injectFound
  exact sameNow_synFound (sameNow_setF h)

theorem sameNow_hidWrite {x1} (h : SameNow s u) : SameNow s (State.hidWrite u x1) := by
  unfold State.hidWrite
  exact SameNow.ite (fun _ => sameNow_setF (SameNow.upd h)) (fun _ => h)

theorem sameNow_writeMem {x1 x2} (h : SameNow s u) : SameNow s (State.writeMem u x1 x2) := by
  unfold State.writeMem
  extract_lets -merge v12 v13
  have h17 : SameNow s v12 := by
    refine (SameNow.foldl h (fun _ _ _ => ?_))
    rename_i y22 y23 h24
    exact sameNow_prepWord h24
  have h23 : SameNow s v13 := sameNow_setBytes h17
  split
  · exact sameNow_injectInto h23
  · exact h23

theorem sameNow_putDram {x1 x2} (h : SameNow s u) : SameNow s (State.putDram u x1 x2) := by
  unfold State.putDram
  exact SameNow.ite (fun _ => sameNow_writeMem h) (fun _ => sameNow_busErr h)

/-! ### Engines -/

theorem sameNow_setEng {x1 x2} (h : SameNow s u) : SameNow s (State.setEng u x1 x2) :=
  h.beside (beside_setEng (.refl .now u))

theorem sameNow_updEng {x1 x2} (h : SameNow s u) : SameNow s (State.updEng u x1 x2) :=
  h.beside (beside_updEng (.refl .now u))

theorem sameNow_beCheck {x1 x2} (h : SameNow s u) : SameNow s (State.beCheck u x1 x2).2 := by
  unfold State.beCheck
  extract_lets -merge v1
  split
  rename_i e5
  have h6 := SameNow.pair e5 (sameNow_checkRange h)
  exact h6

theorem sameNow_setBeState {x1 x2} (h : SameNow s u) : SameNow s (State.setBeState u x1 x2) :=
  h.beside (beside_setBeState (.refl .now u))

theorem sameNow_beSettle (h : SameNow s u) : SameNow s (State.beSettle u) :=
  h.beside (beside_beSettle (.refl .now u))

theorem sameNow_dmaStatus {x1} (h : SameNow s u) : SameNow s (State.dmaStatus u x1).2 := by
  unfold State.dmaStatus
  extract_lets -merge v6 v7
  refine (SameNow.ite2 (fun _ => SameNow.mk2 h) (fun _ => ?_))
  split
  rename_i y32 h33
  have h34 := SameNow.pair h33 (sameNow_fresh h)
  exact SameNow.mk2 h34

theorem sameNow_arrive {x1} (h : SameNow s u) : SameNow s (State.arrive u x1) := by
  unfold State.arrive
  extract_lets -merge v5
  split
  · extract_lets -merge v18 v19
    have h25 : SameNow s v18 := SameNow.ite (fun _ => sameNow_raise h) (fun _ => h)
    exact SameNow.upd h25
  · extract_lets -merge v13
    exact SameNow.upd h

theorem sameNow_settleCross (h : SameNow s u) : SameNow s (State.settleCross u) := by
  unfold State.settleCross
  extract_lets -merge v5 v6 v7
  have h11 : SameNow s v7 := SameNow.upd h
  refine (SameNow.foldl h11 (fun _ _ _ => ?_))
  rename_i y22 y23 h24
  exact sameNow_arrive h24

theorem sameNow_cross {x1} (h : SameNow s u) : SameNow s (State.cross u x1) := by
  unfold State.cross
  extract_lets -merge v5 v6
  have h7 : SameNow s v5 := sameNow_settleCross h
  exact SameNow.upd h7

theorem sameNow_signal {x1 x2} (h : SameNow s u) : SameNow s (State.signal u x1 x2) := by
  unfold State.signal
  exact sameNow_cross (sameNow_setReg h)

theorem sameNow_putImages {x1 x2 x3} (h : SameNow s u) : SameNow s (State.putImages u x1 x2 x3) := by
  unfold State.putImages
  exact sameNow_writeMem (sameNow_writeMem h)

theorem sameNow_putCopy {x1 x2 x3} (h : SameNow s u) : SameNow s (State.putCopy u x1 x2 x3) := by
  unfold State.putCopy
  exact sameNow_putDram (sameNow_putDram h)

theorem sameNow_loadImages {x1 x2} (h : SameNow s u) : SameNow s (State.loadImages u x1 x2) := by
  unfold State.loadImages
  exact sameNow_putImages (sameNow_putCopy h)

theorem sameNow_readCopy {x1 x2} (h : SameNow s u) : SameNow s (State.readCopy u x1 x2).2 := by
  unfold State.readCopy
  split
  rename_i e5
  have h6 := SameNow.pair e5 (sameNow_readMem h)
  split
  rename_i e11
  have h12 := SameNow.pair e11 (sameNow_readMem h6)
  exact h12

theorem sameNow_reloadFrom {x1 x2 x3} (h : SameNow s u) : SameNow s (State.reloadFrom u x1 x2 x3).2 := by
  unfold State.reloadFrom
  split
  · rename_i e3
    have h4 := SameNow.pair e3 (sameNow_readCopy h)
    exact h4
  · rename_i e9
    have h10 := SameNow.pair e9 (sameNow_readCopy h)
    exact SameNow.mk2 (sameNow_putImages (SameNow.ite (fun _ => h10) (fun _ => sameNow_putCopy h10)))

theorem sameNow_dropProg {x1} (h : SameNow s u) : SameNow s (State.dropProg u x1) :=
  h.beside (beside_dropProg (.refl .now u))

theorem sameNow_spareTake {x1 x2 x3} (h : SameNow s u) : SameNow s (State.spareTake u x1 x2 x3) :=
  h.beside (beside_spareTake (.refl .now u))

theorem sameNow_spareTakeover {x1} (h : SameNow s u) : SameNow s (State.spareTakeover u x1) := by
  unfold State.spareTakeover
  split
  · exact h
  · extract_lets -merge v6 v7
    split
    rename_i e11
    have h12 := SameNow.pair e11 (SameNow.ite2 (fun _ => sameNow_reloadFrom h) (fun _ => h))
    exact SameNow.ite (fun _ => sameNow_spareTake h12) (fun _ => sameNow_post h12)

theorem sameNow_enterFaulted {x1 x2} (h : SameNow s u) : SameNow s (State.enterFaulted u x1 x2) := by
  unfold State.enterFaulted
  extract_lets -merge v6 v7 v8 v9 v10 v11
  have h22 : SameNow s v8 := sameNow_updEng h
  have h25 : SameNow s v9 := sameNow_setF (sameNow_setF (sameNow_setF h22))
  have h28 : SameNow s v10 := sameNow_raise (sameNow_setBeState h25)
  have h15 : SameNow s v11 := sameNow_post h28
  exact SameNow.ite (fun _ => sameNow_spareTakeover h15) (fun _ => h15)

theorem sameNow_engineTrap {x1 x2} (h : SameNow s u) : SameNow s (State.engineTrap u x1 x2) := by
  unfold State.engineTrap
  extract_lets -merge v13 v14 v15
  have h20 : SameNow s v14 := sameNow_updEng h
  have h23 : SameNow s v15 := sameNow_updEng h20
  exact SameNow.ite (fun _ => h) (fun _ => SameNow.ite (fun _ => sameNow_enterFaulted h20)
      (fun _ => sameNow_setF (sameNow_setF (sameNow_setBeState h23))))

theorem sameNow_trapAll {x1} (h : SameNow s u) : SameNow s (State.trapAll u x1) := by
  unfold State.trapAll
  exact SameNow.foldl h (fun y1 y2 h3 => sameNow_engineTrap h3)

theorem sameNow_readAll {x1 x2} (h : SameNow s u) : SameNow s (State.readAll u x1 x2).2 := by
  unfold State.readAll
  extract_lets -merge v1
  split
  rename_i e5
  have h6 := SameNow.pair e5 (sameNow_readMem h)
  exact SameNow.mk2 (sameNow_trapAll h6)

theorem sameNow_writeAll {x1 x2} (h : SameNow s u) : SameNow s (State.writeAll u x1 x2) := by
  unfold State.writeAll
  extract_lets -merge v1
  exact sameNow_trapAll (sameNow_writeMem h)

theorem sameNow_jobArgOf {x1 x2} (h : SameNow s u) : SameNow s (State.jobArgOf u x1 x2).2 :=
  h.beside (beside_jobArgOf (.refl .now u))

theorem sameNow_takeUpdate {x1} (h : SameNow s u) : SameNow s (State.takeUpdate u x1) := by
  unfold State.takeUpdate
  extract_lets -merge v6
  split
  · exact h
  · extract_lets -merge v23 v24 v25 v26
    have h32 : SameNow s v24 := sameNow_setEng (sameNow_dropProg h)
    have h16 : SameNow s v25 := sameNow_setRegN (sameNow_loadImages h32)
    have h21 : SameNow s v26 := sameNow_setReg h16
    exact sameNow_post h21

theorem sameNow_jobTake {x1} (h : SameNow s u) : SameNow s (State.jobTake u x1).2 := by
  unfold State.jobTake
  split
  · exact h
  · rename_i p _
    split
    · exact h
    · extract_lets -merge m d r k
      split
      rename_i e
      refine SameNow.mk2 (sameNow_updEng (SameNow.pair e ?_))
      refine SameNow.foldl2 (p := (false, u)) h (fun a m k => ?_)
      exact sameNow_beCheck k

theorem sameNow_startJob {x1 x2 x3} (h : SameNow s u) : SameNow s (State.startJob u x1 x2 x3) := by
  unfold State.startJob
  extract_lets -merge v1
  have h2 : SameNow s v1 := sameNow_takeUpdate h
  split
  rename_i e6
  have h7 := SameNow.pair e6 (sameNow_jobArgOf h2)
  extract_lets -merge v8 v9
  have h10 : SameNow s v9 := sameNow_updEng h7
  split
  rename_i e14
  have h15 := SameNow.pair e14 (sameNow_jobTake h10)
  extract_lets -merge v16
  have h17 : SameNow s v16 := sameNow_setF (sameNow_setF (sameNow_setBeState h15))
  exact SameNow.ite (fun _ => sameNow_engineTrap h17) (fun _ => h17)

theorem sameNow_trigger {x1 x2} (h : SameNow s u) : SameNow s (State.trigger u x1 x2) := by
  unfold State.trigger
  extract_lets -merge v12 v13
  have h19 : SameNow s v13 := sameNow_setF (sameNow_updEng h)
  exact SameNow.ite (fun _ => sameNow_startJob h) (fun _ => SameNow.ite (fun _ => SameNow.ite (fun _ => sameNow_postGap (sameNow_raise h))
      (fun _ => SameNow.ite (fun _ => sameNow_wakeNote h19) (fun _ => h19))) (fun _ => h))

theorem sameNow_beUngate (h : SameNow s u) : SameNow s (State.beUngate u) := by
  unfold State.beUngate
  extract_lets -merge v1
  refine SameNow.foldl h (fun y2 y3 h4 => ?_)
  extract_lets -merge v5
  have h6 : SameNow s v5 := sameNow_updEng h4
  exact SameNow.ite (fun _ => sameNow_startJob h6) (fun _ => h6)

/-! ### Composition -/

theorem sameNow_refuseFlip {x1 x2} (h : SameNow s u) : SameNow s (State.refuseFlip u x1 x2) := by
  unfold State.refuseFlip
  extract_lets -merge v6
  have h8 : SameNow s v6 := sameNow_setF (sameNow_raise h)
  exact sameNow_postOnce h8

theorem sameNow_commitFlip {x1 x2 x3 x4 x5 x6 x7} (h : SameNow s u) : SameNow s (State.commitFlip u x1 x2 x3 x4 x5 x6 x7).2 := by
  unfold State.commitFlip
  extract_lets -merge v11 v12 v13
  have h17 : SameNow s v13 := sameNow_setF h
  exact SameNow.ite2 (fun _ => SameNow.mk2 (sameNow_refuseFlip h)) (fun _ => SameNow.mk2 (sameNow_cross h17))

theorem sameNow_flipCommit {x1 x2} (h : SameNow s u) : SameNow s (State.flipCommit u x1 x2) := by
  unfold State.flipCommit
  extract_lets -merge v10
  exact sameNow_commitFlip h

theorem sameNow_rebaseLayer {x1 x2 x3} (h : SameNow s u) : SameNow s (State.rebaseLayer u x1 x2 x3) := by
  unfold State.rebaseLayer
  dsimp only
  split
  · exact SameNow.upd (SameNow.upd h)
  · exact SameNow.upd h

theorem sameNow_rawAddr {x1 x2} (h : SameNow s u) : SameNow s (State.rawAddr u x1 x2) := by
  unfold State.rawAddr
  extract_lets -merge v1 v2 v3 v4 v5 v6 v7 v8 v9
  have h13 : SameNow s v6 := SameNow.ite (fun _ => h) (fun _ => SameNow.foldl h (fun y10 y11 h12 => sameNow_rebaseLayer h12))
  have h14 : SameNow s v8 := SameNow.upd h13
  have h15 : SameNow s v9 := SameNow.ite (fun _ => h14) (fun _ => sameNow_setRegWords h14)
  exact SameNow.ite (fun _ => sameNow_postOnce h) (fun _ => sameNow_postOnce h15)

/-! ### Press -/

theorem sameNow_setPr {x1 x2} (h : SameNow s u) : SameNow s (State.setPr u x1 x2) := by
  unfold State.setPr
  exact SameNow.upd h

theorem sameNow_updPr {x1 x2} (h : SameNow s u) : SameNow s (State.updPr u x1 x2) := by
  unfold State.updPr
  exact sameNow_setPr h

theorem sameNow_setSel {x1 x2 x3} (h : SameNow s u) : SameNow s (State.setSel u x1 x2 x3) := by
  unfold State.setSel
  refine SameNow.ite (fun _ => ?_) (fun _ => sameNow_putSel h)
  split
  rename_i e4
  have h5 := SameNow.pair e4 (sameNow_injectFound h)
  exact SameNow.ite (fun _ => h5) (fun _ => sameNow_putSel h5)

theorem sameNow_dropRanges {x1} (h : SameNow s u) : SameNow s (State.dropRanges u x1) := by
  unfold State.dropRanges
  exact sameNow_updPr h

theorem sameNow_setTg {x1 x2} (h : SameNow s u) : SameNow s (State.setTg u x1 x2) := by
  unfold State.setTg
  exact SameNow.upd h

theorem sameNow_updTg {x1 x2} (h : SameNow s u) : SameNow s (State.updTg u x1 x2) := by
  unfold State.updTg
  exact sameNow_setTg h

theorem sameNow_updPort {x1 x2} (h : SameNow s u) : SameNow s (State.updPort u x1 x2) :=
  h.beside (beside_updPort (.refl .now u))

theorem sameNow_updHl {x1 x2} (h : SameNow s u) : SameNow s (State.updHl u x1 x2) :=
  h.beside (beside_updHl (.refl .now u))

theorem sameNow_showPending {x1} (h : SameNow s u) : SameNow s (State.showPending u x1) := by
  unfold State.showPending
  exact sameNow_setRegN h

theorem sameNow_updError {x1 x2 x3} (h : SameNow s u) : SameNow s (State.updError u x1 x2 x3) := by
  unfold State.updError
  extract_lets -merge v8 v9
  have h12 : SameNow s v8 := sameNow_setF h
  have h14 : SameNow s v9 := SameNow.ite (fun _ => sameNow_setF h12) (fun _ => h12)
  exact sameNow_postOnce h14

theorem sameNow_snapFail {x1} (h : SameNow s u) : SameNow s (State.snapFail u x1) := by
  unfold State.snapFail
  exact sameNow_postOnce (sameNow_bump h)

theorem sameNow_snapDrop {x1} (h : SameNow s u) : SameNow s (State.snapDrop u x1) := by
  unfold State.snapDrop
  exact SameNow.ite (fun _ => sameNow_snapFail (sameNow_updPr h)) (fun _ => h)

theorem sameNow_recTrigger {x1} (h : SameNow s u) : SameNow s (State.recTrigger u x1) :=
  h.beside (beside_recTrigger (.refl .now u))

/-! ### Links -/

theorem sameNow_send {x1 x2 x3} (h : SameNow s u) : SameNow s (State.send u x1 x2 x3) :=
  h.beside (beside_send (.refl .now u))

theorem sameNow_setZState {x1 x2} (h : SameNow s u) : SameNow s (State.setZState u x1 x2) := by
  unfold State.setZState
  exact sameNow_setF h

theorem sameNow_zEv {x1 x2 x3} (h : SameNow s u) : SameNow s (State.zEv u x1 x2 x3) := by
  unfold State.zEv
  exact sameNow_post h

theorem sameNow_sendMove {x1 x2 x3 x4} (h : SameNow s u) : SameNow s (State.sendMove u x1 x2 x3 x4) := by
  unfold State.sendMove
  exact sameNow_send h

theorem sameNow_setReady {x1 x2 x3} (h : SameNow s u) : SameNow s (State.setReady u x1 x2 x3) := by
  unfold State.setReady
  exact sameNow_updPort (sameNow_setB h)

theorem sameNow_setFailed {x1 x2 x3} (h : SameNow s u) : SameNow s (State.setFailed u x1 x2 x3) := by
  unfold State.setFailed
  exact sameNow_setB h

theorem sameNow_sendCheck {x1 x2} (h : SameNow s u) : SameNow s (State.sendCheck u x1 x2) := by
  unfold State.sendCheck
  exact sameNow_send h

theorem sameNow_sendCtle {x1 x2 x3} (h : SameNow s u) : SameNow s (State.sendCtle u x1 x2 x3) := by
  unfold State.sendCtle
  exact sameNow_send h

theorem sameNow_startCal {x1 x2} (h : SameNow s u) : SameNow s (State.startCal u x1 x2) := by
  unfold State.startCal
  extract_lets -merge v6 v7 v8 v9
  have h14 : SameNow s v9 := sameNow_updPort h
  exact sameNow_sendCheck (sameNow_sendCtle h14)

theorem sameNow_sendBkPrbs {x1} (h : SameNow s u) : SameNow s (State.sendBkPrbs u x1) := by
  unfold State.sendBkPrbs
  exact sameNow_send h

theorem sameNow_bkAsk {x1} (h : SameNow s u) : SameNow s (State.bkAsk u x1) := by
  unfold State.bkAsk
  split
  · exact SameNow.ite (fun _ => sameNow_updPort (sameNow_sendBkPrbs h)) (fun _ => h)
  · exact h

theorem sameNow_hlEv {x1 x2 x3} (h : SameNow s u) : SameNow s (State.hlEv u x1 x2 x3) := by
  unfold State.hlEv
  exact sameNow_post h

theorem sameNow_hlIntake {x1 x2} (h : SameNow s u) : SameNow s (State.hlIntake u x1 x2) := by
  unfold State.hlIntake
  exact sameNow_updHl h

theorem sameNow_hlClose {x1} (h : SameNow s u) : SameNow s (State.hlClose u x1) := by
  unfold State.hlClose
  split
  · exact sameNow_hlIntake (sameNow_updHl h)
  · exact h

theorem sameNow_hlShow {x1} (h : SameNow s u) : SameNow s (State.hlShow u x1) := by
  unfold State.hlShow
  exact sameNow_setF (sameNow_setF (sameNow_setF h))

theorem sameNow_hlRewind {x1 x2} (h : SameNow s u) : SameNow s (State.hlRewind u x1 x2) := by
  unfold State.hlRewind
  extract_lets -merge v1
  have h2 : SameNow s v1 := SameNow.ite (fun _ => h) (fun _ => sameNow_updHl h)
  exact sameNow_hlShow (sameNow_setF h2)

theorem sameNow_hlRestart {x1 x2} (h : SameNow s u) : SameNow s (State.hlRestart u x1 x2) := by
  unfold State.hlRestart
  exact sameNow_hlRewind (sameNow_hlIntake h)

theorem sameNow_hlDiscard {x1 x2} (h : SameNow s u) : SameNow s (State.hlDiscard u x1 x2) := by
  unfold State.hlDiscard
  exact sameNow_updHl h

theorem sameNow_hlTorn {x1 x2 x3 x4} (h : SameNow s u) : SameNow s (State.hlTorn u x1 x2 x3 x4) := by
  unfold State.hlTorn
  refine SameNow.ite (fun _ => SameNow.ite (fun _ => sameNow_hlRestart h) (fun _ => h)) (fun _ => ?_)
  split
  · exact sameNow_hlShow (sameNow_setF h)
  · exact SameNow.ite (fun _ => sameNow_hlRestart (sameNow_updHl h)) (fun _ => sameNow_hlRewind (sameNow_hlDiscard h))

end

end Sys2Proof.Machine

/-! ## Model time in frame timing, safety and health -/

namespace Sys2Proof.Machine

section

variable {s u : State}

/-! ### Timing generators -/

theorem sameNow_setTgState {x1 x2} (h : SameNow s u) : SameNow s (State.setTgState u x1 x2) := by
  unfold State.setTgState
  exact sameNow_setF h

theorem sameNow_tgEv {x1 x2 x3} (h : SameNow s u) : SameNow s (State.tgEv u x1 x2 x3) :=
  h.beside (beside_tgEv (.refl .now u))

theorem sameNow_rephase (h : SameNow s u) : SameNow s (State.rephase u) := by
  unfold State.rephase
  extract_lets -merge v4 v5 v6
  have h12 : SameNow s v5 := by
    refine (SameNow.foldl h (fun _ _ _ => ?_))
    rename_i y18 y19 h20
    exact sameNow_updTg h20
  have h19 : SameNow s v6 := by
    refine (SameNow.foldl h12 (fun _ _ _ => ?_))
    rename_i y11 y12 h13
    exact sameNow_setF h13
  split
  · exact h12
  · extract_lets -merge v32
    exact SameNow.ite (fun _ => h12) (fun _ => sameNow_tgEv h19)

theorem sameNow_stagedLoose (h : SameNow s u) : SameNow s (State.stagedLoose u) := by
  unfold State.stagedLoose
  split
  · split
    · exact SameNow.ite (fun _ => h) (fun _ => SameNow.upd h)
    · exact h
  · exact h

theorem sameNow_tgOff {x1} (h : SameNow s u) : SameNow s (State.tgOff u x1) := by
  unfold State.tgOff
  refine SameNow.ite (fun _ => h) (fun _ => ?_)
  extract_lets -merge v1 v2
  have h3 : SameNow s v1 := sameNow_setF (sameNow_setTgState (sameNow_snapDrop h))
  have h4 : SameNow s v2 := sameNow_stagedLoose (sameNow_setTg h3)
  exact sameNow_tgEv h4

theorem sameNow_tearFrame {x1} (h : SameNow s u) : SameNow s (State.tearFrame u x1) := by
  unfold State.tearFrame
  extract_lets -merge v1 v2 v3
  have h4 : SameNow s v1 := sameNow_raise h
  have h5 : SameNow s v2 := sameNow_tgEv h4
  have h6 : SameNow s v3 := SameNow.ite (fun _ => h5) (fun _ => sameNow_hlTorn h5)
  exact sameNow_dropRanges (sameNow_updTg h6)

theorem sameNow_cutTransfer {x1} (h : SameNow s u) : SameNow s (State.cutTransfer u x1) := by
  unfold State.cutTransfer
  extract_lets -merge v1
  split
  · exact h
  · refine SameNow.ite (fun _ => h) (fun _ => ?_)
    split
    · exact h
    · exact sameNow_updTg h

theorem sameNow_retime {x1} (h : SameNow s u) : SameNow s (State.retime u x1) := by
  unfold State.retime
  extract_lets -merge v5 v6 v7 v8 v9 v10
  have h17 : SameNow s v7 := sameNow_send h
  have h12 : SameNow s v10 := sameNow_updTg h17
  exact SameNow.ite (fun _ => h12) (fun _ => sameNow_raise h12)

theorem sameNow_setSched {x1 x2} (h : SameNow s u) : SameNow s (State.setSched u x1 x2) := h.of rfl

theorem sameNow_schedStop {x1} (h : SameNow s u) : SameNow s (State.schedStop u x1) := by
  unfold State.schedStop
  exact sameNow_setF (sameNow_setF (sameNow_setSched h))

theorem sameNow_schedReject {x1 x2} (h : SameNow s u) : SameNow s (State.schedReject u x1 x2) := by
  unfold State.schedReject
  extract_lets -merge v6
  have h10 : SameNow s v6 := sameNow_setF (sameNow_schedStop h)
  exact sameNow_post (sameNow_raise h10)

theorem sameNow_framesRecheck (h : SameNow s u) : SameNow s (State.framesRecheck u) := by
  unfold State.framesRecheck
  refine (SameNow.foldl h (fun _ _ _ => ?_))
  rename_i y7 y8 h9
  split
  · exact SameNow.ite (fun _ => sameNow_schedReject h9) (fun _ => h9)
  · exact h9

theorem sameNow_frameZero {x1} (h : SameNow s u) : SameNow s (State.frameZero u x1) := by
  unfold State.frameZero
  exact SameNow.upd h

theorem sameNow_preAgain {x1 x2} (h : SameNow s u) : SameNow s (State.preAgain u x1 x2) := by
  unfold State.preAgain
  extract_lets -merge v1
  have h2 : SameNow s v1 := sameNow_snapDrop (SameNow.ite (fun _ => sameNow_frameZero h) (fun _ => h))
  split
  exact sameNow_updTg h2

theorem sameNow_gridMoved {x1} (h : SameNow s u) : SameNow s (State.gridMoved u x1) := by
  unfold State.gridMoved
  extract_lets -merge v1 v2 v3
  split
  extract_lets -merge v8
  exact sameNow_updTg h

theorem sameNow_gridWritten (h : SameNow s u) : SameNow s (State.gridWritten u) := by
  unfold State.gridWritten
  extract_lets -merge v1 v2
  have h6 : SameNow s v2 := SameNow.foldl h (fun y3 y4 h5 => sameNow_gridMoved h5)
  exact SameNow.foldl2 h6 (fun y7 y8 h9 => SameNow.mk2 (sameNow_preAgain h9))

theorem sameNow_setAnchor {x1} (h : SameNow s u) : SameNow s (State.setAnchor u x1) := by
  unfold State.setAnchor
  extract_lets -merge v1 v2
  have h3 : SameNow s v1 := sameNow_setPair h
  exact SameNow.upd h3

theorem sameNow_applyDirect {x1} (h : SameNow s u) : SameNow s (State.applyDirect u x1) := by
  unfold State.applyDirect
  extract_lets -merge v1 v2 v3 v4
  have h16 : SameNow s v2 := by
    unfold v2
    split
    · exact sameNow_setAnchor h
    · exact SameNow.upd h
    · exact h
  have h17 : SameNow s v3 := SameNow.ite (fun _ => sameNow_gridWritten h16) (fun _ => h16)
  have h21 : SameNow s v4 := SameNow.foldl h17 (fun y18 y19 h20 => sameNow_cutTransfer (sameNow_tearFrame (SameNow.ite
      (fun _ => sameNow_retime h20) (fun _ => h20))))
  exact SameNow.ite (fun _ => sameNow_framesRecheck h21) (fun _ => h21)

theorem sameNow_timingRefused {x1 x2} (h : SameNow s u) : SameNow s (State.timingRefused u x1 x2) :=
  h.beside (beside_timingRefused (.refl .now u))

theorem sameNow_directWrite {x1 x2} (h : SameNow s u) : SameNow s (State.directWrite u x1 x2) := by
  unfold State.directWrite
  extract_lets -merge v6 v7
  have h10 : SameNow s v6 := sameNow_setReg h
  split
  · exact h
  · exact SameNow.ite (fun _ => sameNow_timingRefused h) (fun _ => sameNow_applyDirect h10)

theorem sameNow_timingCommit {x1} (h : SameNow s u) : SameNow s (State.timingCommit u x1) :=
  h.beside (beside_timingCommit (.refl .now u))

theorem sameNow_joinPhase {x1 x2} (h : SameNow s u) : SameNow s (State.joinPhase u x1 x2) := by
  unfold State.joinPhase
  extract_lets -merge v1
  exact sameNow_setF (sameNow_updTg h)

theorem sameNow_preShow {x1} (h : SameNow s u) : SameNow s (State.preShow u x1) := by
  unfold State.preShow
  exact SameNow.ite (fun _ => sameNow_setRegN (sameNow_setTgState h)) (fun _ => h)

theorem sameNow_preEnter {x1} (h : SameNow s u) : SameNow s (State.preEnter u x1) := by
  unfold State.preEnter
  exact SameNow.ite (fun _ => sameNow_preShow h) (fun _ => h)

theorem sameNow_startCount {x1} (h : SameNow s u) : SameNow s (State.startCount u x1) := by
  unfold State.startCount
  exact SameNow.upd h

theorem sameNow_tgBegin {x1} (h : SameNow s u) : SameNow s (State.tgBegin u x1) := by
  unfold State.tgBegin
  extract_lets -merge v1 v2 v3
  have h4 : SameNow s v2 := sameNow_startCount h
  have h5 : SameNow s v3 := SameNow.ite (fun _ => sameNow_frameZero h4) (fun _ => h4)
  have h10 : ∀ y z, SameNow s (v3.setTg x1 { s := y - v3.timing.period, e := y, first := z, accepted := true }) := fun _ _ => sameNow_setTg h5
  refine sameNow_preEnter (sameNow_setF (sameNow_updPr (sameNow_dropRanges ?_)))
  cases v1 with
  | none => exact h10 _ _
  | some m => exact sameNow_joinPhase (h10 _ _)

theorem sameNow_tgStart {x1} (h : SameNow s u) : SameNow s (State.tgStart u x1) := by
  unfold State.tgStart
  extract_lets -merge v16
  exact SameNow.ite (fun _ => sameNow_tgEv (sameNow_raise h)) (fun _ => SameNow.ite (fun _ => sameNow_updTg h) (fun _ => sameNow_tgBegin h))

theorem sameNow_tgStop {x1} (h : SameNow s u) : SameNow s (State.tgStop u x1) := by
  unfold State.tgStop
  extract_lets -merge v6
  exact SameNow.ite (fun _ => h) (fun _ => SameNow.ite (fun _ => sameNow_tgOff h) (fun _ => sameNow_updTg h))

/-! ### Freezing -/

theorem sameNow_spoolTrigger {x1} (h : SameNow s u) : SameNow s (State.spoolTrigger u x1) :=
  h.beside (beside_spoolTrigger (.refl .now u))

theorem sameNow_freezeAll {x1} (h : SameNow s u) : SameNow s (State.freezeAll u x1) :=
  h.beside (beside_freezeAll (.refl .now u))

/-! ### Safety channels -/

theorem sameNow_updSafeT {x1 x2} (h : SameNow s u) : SameNow s (State.updSafeT u x1 x2) :=
  h.beside (beside_updSafeT (.refl .now u))

theorem sameNow_updSafe {x1} (h : SameNow s u) : SameNow s (State.updSafe u x1) :=
  h.beside (beside_updSafe (.refl .now u))

theorem sameNow_updBoot {x1} (h : SameNow s u) : SameNow s (State.updBoot u x1) :=
  h.beside (beside_updBoot (.refl .now u))

theorem sameNow_updHk {x1} (h : SameNow s u) : SameNow s (State.updHk u x1) :=
  h.beside (beside_updHk (.refl .now u))

theorem sameNow_updPwr {x1} (h : SameNow s u) : SameNow s (State.updPwr u x1) :=
  h.beside (beside_updPwr (.refl .now u))

theorem sameNow_sfEv {x1 x2 x3 x4} (h : SameNow s u) : SameNow s (State.sfEv u x1 x2 x3 x4) := by
  unfold State.sfEv
  exact sameNow_postOnce h

theorem sameNow_latchSc {x1} (h : SameNow s u) : SameNow s (State.latchSc u x1) := by
  unfold State.latchSc
  exact sameNow_setF h

theorem sameNow_latchTt {x1} (h : SameNow s u) : SameNow s (State.latchTt u x1) := by
  unfold State.latchTt
  exact sameNow_setF h

theorem sameNow_setHs {x1 x2} (h : SameNow s u) : SameNow s (State.setHs u x1 x2) :=
  h.beside (beside_setHs (.refl .now u))

theorem sameNow_setLs {x1 x2} (h : SameNow s u) : SameNow s (State.setLs u x1 x2) :=
  h.beside (beside_setLs (.refl .now u))

theorem sameNow_setTileBit {x1 x2 x3} (h : SameNow s u) : SameNow s (State.setTileBit u x1 x2 x3) := by
  unfold State.setTileBit
  exact sameNow_setB h

theorem sameNow_setFull {x1 x2} (h : SameNow s u) : SameNow s (State.setFull u x1 x2) :=
  h.beside (beside_setFull (.refl .now u))

theorem sameNow_setHandover {x1 x2} (h : SameNow s u) : SameNow s (State.setHandover u x1 x2) :=
  h.beside (beside_setHandover (.refl .now u))

theorem sameNow_updateSS {x1} (h : SameNow s u) : SameNow s (State.updateSS u x1) :=
  h.beside (beside_updateSS (.refl .now u))

theorem sameNow_pulseFall {x1} (h : SameNow s u) : SameNow s (State.pulseFall u x1) := by
  unfold State.pulseFall
  extract_lets -merge v1 v2
  have h3 : SameNow s v2 := sameNow_updSafeT h
  split
  · exact h
  · exact SameNow.ite (fun _ => sameNow_sfEv (sameNow_raise h3)) (fun _ => sameNow_updSafeT (SameNow.ite (fun _ => sameNow_setHs h3)
      (fun _ => sameNow_setLs h3)))

theorem sameNow_streamViol {x1 x2} (h : SameNow s u) : SameNow s (State.streamViol u x1 x2) := by
  unfold State.streamViol
  extract_lets -merge v6 v7 v8 v9 v10
  have h19 : SameNow s v6 := SameNow.ite (fun _ => sameNow_freezeAll h) (fun _ => h)
  have h12 : SameNow s v8 := sameNow_updSafe h19
  have h14 : SameNow s v9 := SameNow.ite (fun _ => h19) (fun _ => SameNow.ite (fun _ => SameNow.ite (fun _ => sameNow_latchTt h12)
      (fun _ => sameNow_latchSc h12)) (fun _ => h12))
  have h17 : SameNow s v10 := sameNow_updSafe h14
  exact sameNow_updateSS h17

theorem sameNow_rowViol {x1 x2 x3 x4} (h : SameNow s u) : SameNow s (State.rowViol u x1 x2 x3 x4) := by
  unfold State.rowViol
  extract_lets -merge v13 v14 v15
  have h20 : SameNow s v14 := sameNow_raise (sameNow_setRegN h)
  have h22 : SameNow s v15 := sameNow_sfEv h20
  exact sameNow_streamViol (sameNow_updSafeT h22)

theorem sameNow_ttCheckRow {x1 x2 x3 x4} (h : SameNow s u) : SameNow s (State.ttCheckRow u x1 x2 x3 x4) := by
  unfold State.ttCheckRow
  extract_lets -merge v8
  refine (SameNow.foldl h (fun _ _ _ => ?_))
  rename_i y16 y17 h18
  exact SameNow.ite (fun _ => sameNow_rowViol h18) (fun _ => h18)

theorem sameNow_ttReselect (h : SameNow s u) : SameNow s (State.ttReselect u) := by
  unfold State.ttReselect
  refine (SameNow.foldl h (fun _ _ _ => ?_))
  rename_i y7 y8 h9
  extract_lets -merge v7 v8
  have h11 : SameNow s v8 := by
    refine (SameNow.foldl h9 (fun _ _ _ => ?_))
    rename_i y14 y15 h16
    exact sameNow_ttCheckRow h16
  refine (SameNow.foldl h11 (fun _ _ _ => ?_))
  rename_i y26 y27 h28
  exact sameNow_ttCheckRow h28

theorem sameNow_sinShow {x1} (h : SameNow s u) : SameNow s (State.sinShow u x1) := by
  unfold State.sinShow
  extract_lets -merge v5 v6
  exact sameNow_setF h

theorem sameNow_sinDecide {x1} (h : SameNow s u) : SameNow s (State.sinDecide u x1) := by
  unfold State.sinDecide
  extract_lets -merge v10 v11 v12 v13 v14 v15 v16 v17
  have h29 : SameNow s v13 := h
  have h14 : SameNow s v14 := sameNow_updSafe h
  have h25 : SameNow s v15 := by
    refine (SameNow.foldl h14 (fun _ _ _ => ?_))
    rename_i y20 y21 h22
    exact sameNow_sinShow h22
  have h16 : SameNow s v16 := sameNow_setB (sameNow_setB h25)
  have h24 : SameNow s v17 := SameNow.ite (fun _ => sameNow_ttReselect h16) (fun _ => h16)
  exact SameNow.ite (fun _ => sameNow_updateSS (sameNow_sfEv h24)) (fun _ => sameNow_updateSS h24)

theorem sameNow_ackRefuse {x1} (h : SameNow s u) : SameNow s (State.ackRefuse u x1) := by
  unfold State.ackRefuse
  extract_lets -merge v5
  have h7 : SameNow s v5 := sameNow_updSafe h
  exact sameNow_sfEv (sameNow_raise h7)

theorem sameNow_ackScWrite {x1} (h : SameNow s u) : SameNow s (State.ackScWrite u x1) := by
  unfold State.ackScWrite
  exact sameNow_updSafe h

theorem sameNow_ackClear {x1} (h : SameNow s u) : SameNow s (State.ackClear u x1) := by
  unfold State.ackClear
  extract_lets -merge v7 v8 v9 v10
  have h9 : SameNow s v7 := sameNow_setRegN (sameNow_setRegN h)
  have h13 : SameNow s v9 := sameNow_updSafe h9
  have h15 : SameNow s v10 := by
    refine (SameNow.foldl h13 (fun _ _ _ => ?_))
    rename_i y14 y15 h16
    exact SameNow.ite (fun _ => sameNow_setF (sameNow_setF h16)) (fun _ => h16)
  exact sameNow_sinDecide (sameNow_sfEv h15)

theorem sameNow_ackTtWrite {x1} (h : SameNow s u) : SameNow s (State.ackTtWrite u x1) := by
  unfold State.ackTtWrite
  split
  · exact sameNow_ackRefuse h
  · extract_lets -merge v26
    exact SameNow.ite (fun _ => sameNow_ackRefuse h) (fun _ => SameNow.ite (fun _ => sameNow_ackRefuse h) (fun _ => sameNow_ackClear h))

/-! ### Health -/

theorem sameNow_count1 {x1 x2} (h : SameNow s u) : SameNow s (State.count1 u x1 x2) := by
  unfold State.count1
  split
  · exact h
  · exact sameNow_setRegN h

theorem sameNow_setEm {x1 x2 x3 x4} (h : SameNow s u) : SameNow s (State.setEm u x1 x2 x3 x4) := by
  unfold State.setEm
  extract_lets -merge v8 v9 v10
  have h11 : SameNow s v10 := sameNow_putDram h
  exact SameNow.ite (fun _ => h11) (fun _ => sameNow_count1 (sameNow_count1 h11))

theorem sameNow_baseActive (h : SameNow s u) : SameNow s (State.baseActive u) := by
  unfold State.baseActive
  exact sameNow_setB h

theorem sameNow_tabsLost {x1} (h : SameNow s u) : SameNow s (State.tabsLost u x1).2 := by
  unfold State.tabsLost
  refine SameNow.foldl2 h (fun y1 y2 h3 => ?_)
  split
  split
  rename_i e10
  have h11 := SameNow.pair e10 (sameNow_checkRange h3)
  exact h11

theorem sameNow_putRec {x1 x2 x3 x4} (h : SameNow s u) : SameNow s (State.putRec u x1 x2 x3 x4) := by
  unfold State.putRec
  exact sameNow_putDram h

theorem sameNow_markDead {x1 x2 x3 x4} (h : SameNow s u) : SameNow s (State.markDead u x1 x2 x3 x4) := by
  unfold State.markDead
  exact sameNow_putRec h

theorem sameNow_darnBusy (h : SameNow s u) : SameNow s (State.darnBusy u) := by
  unfold State.darnBusy
  exact sameNow_setB h

theorem sameNow_updCommitOp {x1} (h : SameNow s u) : SameNow s (State.updCommitOp u x1) := by
  unfold State.updCommitOp
  extract_lets -merge v5 v6 v7
  have h15 : SameNow s v7 := sameNow_updPr h
  exact SameNow.ite (fun _ => sameNow_updError h) (fun _ => sameNow_setF (sameNow_setRegN h15))

theorem sameNow_darnCommit {x1 x2} (h : SameNow s u) : SameNow s (State.darnCommit u x1 x2) := by
  unfold State.darnCommit
  extract_lets -merge v9 v10 v11 v12
  have h18 : SameNow s v9 := sameNow_putDram h
  have h11 : SameNow s v10 := sameNow_setRegN h18
  have h14 : SameNow s v11 := sameNow_setRegN h11
  have h17 : SameNow s v12 := sameNow_updCommitOp (sameNow_setRegN h14)
  exact SameNow.ite (fun _ => h) (fun _ => sameNow_darnBusy (sameNow_updHl h17))

theorem sameNow_darnLost {x1 x2 x3} (h : SameNow s u) : SameNow s (State.darnLost u x1 x2 x3) := by
  unfold State.darnLost
  extract_lets -merge v8
  have h11 : SameNow s v8 := sameNow_markDead h
  exact SameNow.ite (fun _ => sameNow_hlEv h11) (fun _ => h11)

theorem sameNow_darnDead {x1 x2 x3} (h : SameNow s u) : SameNow s (State.darnDead u x1 x2 x3) := by
  unfold State.darnDead
  extract_lets -merge v1
  have h1 : SameNow s v1 := sameNow_hlEv (sameNow_markDead h)
  exact sameNow_count1 (SameNow.ite (fun _ => sameNow_count1 h1) (fun _ => h1))

theorem sameNow_darnGroup {x1 x2 x3} (h : SameNow s u) : SameNow s (State.darnGroup u x1 x2 x3).2 := by
  unfold State.darnGroup
  split
  · exact sameNow_darnDead h
  · exact sameNow_markDead h

theorem sameNow_darnRun {x1} (h : SameNow s u) : SameNow s (State.darnRun u x1) := by
  unfold State.darnRun
  extract_lets -merge v1 v2 v3 v4 v5 v6 v7 v8 v9 v10
  have h14 : SameNow s v6 := SameNow.foldl h (fun y11 y12 h13 => sameNow_darnLost h13)
  have h15 : SameNow s v9 := sameNow_updHl h14
  have h21 : SameNow s v10.2 := by
    unfold v10
    refine SameNow.foldl2 h15 (fun y16 y17 h18 => ?_)
    extract_lets -merge v19
    have h20 : SameNow s v19.2 := sameNow_darnGroup h18
    exact h20
  exact SameNow.ite (fun _ => h) (fun _ => SameNow.ite (fun _ => sameNow_updHl h14) (fun _ => SameNow.ite
      (fun _ => sameNow_updError (sameNow_updHl h14)) (fun _ => sameNow_darnCommit h21)))

theorem sameNow_darnWindow {x1} (h : SameNow s u) : SameNow s (State.darnWindow u x1) := by
  unfold State.darnWindow
  extract_lets -merge v13 v14 v15 v16 v17
  have h31 : SameNow s v17 := SameNow.ite (fun _ => h) (fun _ => sameNow_darnBusy (sameNow_updHl h))
  exact SameNow.ite (fun _ => sameNow_darnRun h31) (fun _ => h31)

theorem sameNow_darnPortDown {x1} (h : SameNow s u) : SameNow s (State.darnPortDown u x1) := by
  unfold State.darnPortDown
  extract_lets -merge v1 v2 v3 v4 v5 v6
  have h7 : SameNow s v1 := sameNow_hlClose h
  have h11 : SameNow s v6 := SameNow.ite (fun _ => h7) (fun _ => sameNow_setF (SameNow.foldl h7 (fun y8 y9 h10 => sameNow_setSel h10)))
  exact sameNow_darnBusy (sameNow_updHl h11)

theorem sameNow_darnRelease (h : SameNow s u) : SameNow s (State.darnRelease u) := by
  unfold State.darnRelease
  refine (SameNow.foldl h (fun _ _ _ => ?_))
  rename_i y18 y19 h20
  extract_lets -merge v25
  have h27 : SameNow s v25 := sameNow_updHl h20
  exact sameNow_darnRun h27

theorem sameNow_deltaPut (h : SameNow s u) : SameNow s (State.deltaPut u) := by
  unfold State.deltaPut
  extract_lets -merge v1 v2 v3 v4
  have h5 : SameNow s v4 := sameNow_putStore h
  exact sameNow_updHk (SameNow.foldl h5 (fun y6 y7 h8 => sameNow_updHl h8))

theorem sameNow_deltaWrite (h : SameNow s u) : SameNow s (State.deltaWrite u) := by
  unfold State.deltaWrite
  split
  rename_i e4
  have h5 := SameNow.pair e4 (sameNow_tabsLost h)
  exact SameNow.ite (fun _ => h5) (fun _ => sameNow_deltaPut h5)

theorem sameNow_clearStateOp {x1 x2 x3} (h : SameNow s u) : SameNow s (State.clearStateOp u x1 x2 x3) := by
  unfold State.clearStateOp
  extract_lets -merge v1 v2 v3 v4 v5
  have h6 : SameNow s v2 := sameNow_setEm h
  have h7 : SameNow s v4 := SameNow.ite (fun _ => sameNow_updHl h6) (fun _ => h6)
  have h8 : SameNow s v5 := sameNow_updHl h7
  exact sameNow_darnRelease h8

theorem sameNow_baselineOp {x1} (h : SameNow s u) : SameNow s (State.baselineOp u x1) := by
  unfold State.baselineOp
  exact SameNow.ite (fun _ => h) (fun _ => sameNow_hlShow (sameNow_baseActive (sameNow_updHl h)))

theorem sameNow_checkpointOp (h : SameNow s u) : SameNow s (State.checkpointOp u) := by
  unfold State.checkpointOp
  exact SameNow.foldl h (fun y1 y2 h3 => SameNow.ite (fun _ => sameNow_updHl h3) (fun _ => h3))

theorem sameNow_darnCfg {x1} (h : SameNow s u) : SameNow s (State.darnCfg u x1) := by
  unfold State.darnCfg
  extract_lets -merge v1 v2
  have h3 : SameNow s v2 := sameNow_setReg h
  exact SameNow.ite (fun _ => sameNow_darnRelease h3) (fun _ => h3)

theorem sameNow_deltaStep (h : SameNow s u) : SameNow s (State.deltaStep u) := by
  unfold State.deltaStep
  exact SameNow.ite (fun _ => sameNow_deltaWrite h) (fun _ => h)

/-! ### Update lists -/

theorem sameNow_updFillOp {x1} (h : SameNow s u) : SameNow s (State.updFillOp u x1) := by
  unfold State.updFillOp
  exact SameNow.ite (fun _ => sameNow_updError h) (fun _ => SameNow.ite (fun _ => sameNow_updError h) (fun _ => sameNow_setF (sameNow_setF h)))

theorem sameNow_updCancelOp {x1} (h : SameNow s u) : SameNow s (State.updCancelOp u x1) := by
  unfold State.updCancelOp
  extract_lets -merge v7
  exact SameNow.ite (fun _ => sameNow_darnWindow (sameNow_setF h)) (fun _ => h)

theorem sameNow_recRearmOp (h : SameNow s u) : SameNow s (State.recRearmOp u) := by
  unfold State.recRearmOp
  refine SameNow.ite (fun _ => h) (fun _ => ?_)
  extract_lets -merge v1 v2 v3 v4
  have h5 : SameNow s v3 := SameNow.upd h
  have h6 : SameNow s v4 := sameNow_setRegN (sameNow_setRegN h5)
  exact sameNow_postOnce (sameNow_setF h6)

/-! ### Lanes -/

theorem sameNow_laneStop {x1} (h : SameNow s u) : SameNow s (State.laneStop u x1) := by
  unfold State.laneStop
  exact sameNow_updPort h

theorem sameNow_tregDone {x1 x2} (h : SameNow s u) : SameNow s (State.tregDone u x1 x2) := by
  unfold State.tregDone
  exact sameNow_updPort (sameNow_setRegN h)

theorem sameNow_portClear {x1} (h : SameNow s u) : SameNow s (State.portClear u x1) := by
  unfold State.portClear
  extract_lets -merge v1 v2 v3 v4 v5 v6 v7 v8 v9 v10 v11
  have h12 : SameNow s v1 := sameNow_updTg (sameNow_tgOff h)
  have h13 : SameNow s v2 := sameNow_setF (sameNow_setF h12)
  have h14 : SameNow s v3 := sameNow_setF (sameNow_setF h13)
  have h15 : SameNow s v4 := sameNow_setRegN (sameNow_setRegN (sameNow_setRegN h14))
  have h16 : SameNow s v5 := sameNow_setHandover (sameNow_setFull (sameNow_setTileBit h15))
  have h17 : SameNow s v6 := SameNow.ite (fun _ => sameNow_tregDone h16) (fun _ => h16)
  have h18 : SameNow s v7 := SameNow.ite (fun _ => sameNow_setF h17) (fun _ => h17)
  have h19 : SameNow s v8 := sameNow_setF h18
  have h20 : SameNow s v9 := SameNow.ite (fun _ => sameNow_setF h19) (fun _ => h19)
  have h21 : SameNow s v10 := sameNow_updPort h20
  have h22 : SameNow s v11 := sameNow_updHl h21
  exact sameNow_darnPortDown (sameNow_showPending (sameNow_laneStop h22))

theorem sameNow_portOff {x1} (h : SameNow s u) : SameNow s (State.portOff u x1) := by
  unfold State.portOff
  exact sameNow_setZState (sameNow_portClear h)

theorem sameNow_startAttempt {x1} (h : SameNow s u) : SameNow s (State.startAttempt u x1) := by
  unfold State.startAttempt
  exact sameNow_updPort (sameNow_setZState (sameNow_laneStop h))

theorem sameNow_enableOp {x1} (h : SameNow s u) : SameNow s (State.enableOp u x1) := by
  unfold State.enableOp
  exact SameNow.ite (fun _ => sameNow_startAttempt (sameNow_updPort h)) (fun _ => h)

theorem sameNow_bkScore {x1} (h : SameNow s u) : SameNow s (State.bkScore u x1) := by
  unfold State.bkScore
  exact sameNow_updPort h

theorem sameNow_bkPick {x1} (h : SameNow s u) : SameNow s (State.bkPick u x1) := by
  unfold State.bkPick
  extract_lets -merge v1 v2
  exact sameNow_setF (sameNow_updPort h)

theorem sameNow_bkTrial {x1 x2} (h : SameNow s u) : SameNow s (State.bkTrial u x1 x2) := by
  unfold State.bkTrial
  exact sameNow_updPort (sameNow_sendBkPrbs (sameNow_setF h))

theorem sameNow_recalFinish {x1} (h : SameNow s u) : SameNow s (State.recalFinish u x1) := by
  unfold State.recalFinish
  extract_lets -merge v21
  have h25 : SameNow s v21 := sameNow_setF (sameNow_updPort h)
  split
  · exact h
  · split
    · exact sameNow_zEv h25
    · exact h25

theorem sameNow_laneBack {x1 x2} (h : SameNow s u) : SameNow s (State.laneBack u x1 x2) := by
  unfold State.laneBack
  exact sameNow_zEv (sameNow_setFailed (sameNow_setReady h))

theorem sameNow_spareReturn {x1} (h : SameNow s u) : SameNow s (State.spareReturn u x1) := by
  unfold State.spareReturn
  refine (SameNow.ite (fun _ => h) (fun _ => ?_))
  split
  · exact h
  · extract_lets -merge v34
    have h36 : SameNow s v34 := sameNow_sendMove (sameNow_setF (sameNow_laneBack h))
    exact sameNow_updPort h36

theorem sameNow_recalBegin {x1 x2 x3 x4} (h : SameNow s u) : SameNow s (State.recalBegin u x1 x2 x3 x4) := by
  unfold State.recalBegin
  extract_lets -merge v8
  have h9 : SameNow s v8 := sameNow_updPort h
  exact sameNow_startCal (sameNow_setF h9)

theorem sameNow_recalBack {x1} (h : SameNow s u) : SameNow s (State.recalBack u x1) := by
  unfold State.recalBack
  extract_lets -merge v1
  have h2 : SameNow s v1 := sameNow_setF (sameNow_updPort h)
  exact SameNow.ite (fun _ => sameNow_bkAsk h2) (fun _ => h2)

theorem sameNow_recalNext {x1} (h : SameNow s u) : SameNow s (State.recalNext u x1) := by
  unfold State.recalNext
  refine SameNow.ite (fun _ => h) (fun _ => ?_)
  extract_lets -merge v1 v2 v3 v4 v5 v6
  have h7 : SameNow s v1 := sameNow_spareReturn h
  have h8 : SameNow s v3 := sameNow_updPort h7
  have h9 : SameNow s v6 := sameNow_setF (sameNow_setF (sameNow_sendMove h8))
  exact SameNow.ite (fun _ => h8) (fun _ => SameNow.ite (fun _ => SameNow.ite (fun _ => sameNow_recalBegin h8) (fun _ => SameNow.ite
      (fun _ => h8) (fun _ => SameNow.ite (fun _ => h8) (fun _ => sameNow_recalBegin h9)))) (fun _ => SameNow.ite (fun _ => SameNow.ite
      (fun _ => h8) (fun _ => sameNow_recalBegin h8)) (fun _ => sameNow_recalBack h8)))

theorem sameNow_bkDone {x1} (h : SameNow s u) : SameNow s (State.bkDone u x1) := by
  unfold State.bkDone
  split
  rename_i e4
  have h5 := SameNow.pair e4 (sameNow_fresh h)
  exact sameNow_recalFinish (sameNow_updPort h5)

theorem sameNow_backRelock {x1} (h : SameNow s u) : SameNow s (State.backRelock u x1) := by
  unfold State.backRelock
  exact SameNow.ite (fun _ => sameNow_zEv (sameNow_setF h)) (fun _ => h)

theorem sameNow_sendMargin {x1 x2} (h : SameNow s u) : SameNow s (State.sendMargin u x1 x2) := by
  unfold State.sendMargin
  exact sameNow_send h

theorem sameNow_marginStep {x1} (h : SameNow s u) : SameNow s (State.marginStep u x1) := by
  unfold State.marginStep
  extract_lets -merge v1 v2
  refine SameNow.ite (fun _ => SameNow.ite (fun _ => h) (fun _ => sameNow_updPort h)) (fun _ => ?_)
  split
  · exact sameNow_sendMargin (sameNow_updPort h)
  · extract_lets -merge v9
    exact SameNow.ite (fun _ => h) (fun _ => sameNow_sendMargin (sameNow_updPort h))

theorem sameNow_bkStep {x1} (h : SameNow s u) : SameNow s (State.bkStep u x1) := by
  unfold State.bkStep
  extract_lets -merge v1 v2
  have h13 : SameNow s v2 := by
    unfold v2
    split
    · refine SameNow.ite (fun _ => h) (fun _ => ?_)
      extract_lets -merge v7 v8
      have h9 : SameNow s v7 := SameNow.ite (fun _ => h) (fun _ => sameNow_bkScore h)
      have h10 : SameNow s v8 := sameNow_bkPick h9
      exact SameNow.ite (fun _ => sameNow_bkTrial h9) (fun _ => SameNow.ite (fun _ => sameNow_backRelock h10) (fun _ => h10))
    · exact h
  split
  · exact SameNow.ite (fun _ => h13) (fun _ => sameNow_bkDone h13)
  · exact h13

theorem sameNow_benchStep {x1} (h : SameNow s u) : SameNow s (State.benchStep u x1) := by
  unfold State.benchStep
  extract_lets -merge v1 v2 v3
  have h4 : SameNow s v2 := SameNow.ite (fun _ => h) (fun _ => sameNow_updPort h)
  exact SameNow.ite (fun _ => sameNow_updPort h4) (fun _ => SameNow.ite (fun _ => h4) (fun _ => sameNow_laneStop h4))

theorem sameNow_laneStep {x1} (h : SameNow s u) : SameNow s (State.laneStep u x1) := by
  unfold State.laneStep
  extract_lets -merge v1 v2 v3 v4
  have h5 : SameNow s v2 := sameNow_marginStep (sameNow_bkStep h)
  refine SameNow.ite (fun _ => sameNow_benchStep h) (fun _ => ?_)
  refine SameNow.ite (fun _ => h) (fun _ => ?_)
  split
  rename_i e9
  have h10 := SameNow.pair e9 (SameNow.ite2 (fun _ => sameNow_fresh h5) (fun _ => h5))
  exact sameNow_updPort h10

theorem sameNow_disableOp {x1} (h : SameNow s u) : SameNow s (State.disableOp u x1) := by
  unfold State.disableOp
  exact SameNow.ite (fun _ => sameNow_portOff h) (fun _ => h)

theorem sameNow_retryOp {x1} (h : SameNow s u) : SameNow s (State.retryOp u x1) := by
  unfold State.retryOp
  exact SameNow.ite (fun _ => sameNow_startAttempt h) (fun _ => h)

theorem sameNow_nvAgain {x1} (h : SameNow s u) : SameNow s (State.nvAgain u x1) :=
  h.beside (beside_nvAgain (.refl .now u))

theorem sameNow_tregOp {x1 x2} (h : SameNow s u) : SameNow s (State.tregOp u x1 x2) := by
  unfold State.tregOp
  extract_lets -merge v6 v7
  have h10 : SameNow s v7 := sameNow_updPort (sameNow_setRegN h)
  exact SameNow.ite (fun _ => h) (fun _ => SameNow.ite (fun _ => h10) (fun _ => SameNow.ite (fun _ => sameNow_send h10) (fun _ => sameNow_send h10)))

end

end Sys2Proof.Machine

/-! ## Model time in housekeeping, time, loading and power -/

namespace Sys2Proof.Machine

section

variable {s u : State}

/-! ### Housekeeping -/

theorem sameNow_hkEv {x1 x2 x3} (h : SameNow s u) : SameNow s (State.hkEv u x1 x2 x3) :=
  h.beside (beside_hkEv (.refl .now u))

theorem sameNow_convertDie {x1} (h : SameNow s u) : SameNow s (State.convertDie u x1).2 :=
  h.beside (beside_convertDie (.refl .now u))

theorem sameNow_convertSupply {x1} (h : SameNow s u) : SameNow s (State.convertSupply u x1) :=
  h.beside (beside_convertSupply (.refl .now u))

theorem sameNow_supplyRound {x1} (h : SameNow s u) : SameNow s (State.supplyRound u x1) :=
  h.beside (beside_supplyRound (.refl .now u))

theorem sameNow_tileTemps {x1} (h : SameNow s u) : SameNow s (State.tileTemps u x1).2 :=
  h.beside (beside_tileTemps (.refl .now u))

theorem sameNow_takePower (h : SameNow s u) : SameNow s (State.takePower u) :=
  h.beside (beside_takePower (.refl .now u))

theorem sameNow_modelTile {x1 x2 x3 x4 x5} (h : SameNow s u) : SameNow s (State.modelTile u x1 x2 x3 x4 x5) :=
  h.beside (beside_modelTile (.refl .now u))

theorem sameNow_anchor {x1 x2} (h : SameNow s u) : SameNow s (State.anchor u x1 x2).2 :=
  h.beside (beside_anchor (.refl .now u))

theorem sameNow_blockRound {x1 x2} (h : SameNow s u) : SameNow s (State.blockRound u x1 x2).2 := by
  unfold State.blockRound
  extract_lets -merge v6 v7 v8 v9 v10
  have h17 : SameNow s v10 := by
    refine (SameNow.foldl h (fun _ _ _ => ?_))
    rename_i y28 y29 h30
    extract_lets -merge v31 v32 v33 v34 v35
    have h45 : SameNow s v34 := sameNow_updHk h30
    have h47 : SameNow s v35 := sameNow_setRegN h45
    exact sameNow_setRegN h47
  exact SameNow.mk2 h17

theorem sameNow_tileCut {x1 x2} (h : SameNow s u) : SameNow s (State.tileCut u x1 x2) :=
  h.beside (beside_tileCut (.refl .now u))

theorem sameNow_tileRound {x1 x2} (h : SameNow s u) : SameNow s (State.tileRound u x1 x2) := by
  have hr := sameNow_blockRound (x1 := x1) (x2 := x2) h
  unfold State.tileRound
  generalize State.blockRound u x1 x2 = r at hr ⊢
  obtain ⟨test, v⟩ := r
  replace hr : SameNow s v := hr
  dsimp only
  generalize (blocksCrossed x1 u.hk.derate).isEmpty = was
  generalize blocksCrossed x1 v.hk.derate = now
  refine sameNow_updHl (sameNow_setRegN (sameNow_setRegN (sameNow_setRegN (sameNow_tileCut ?_))))
  cases was <;> cases now
  · exact sameNow_hkEv hr
  · exact hr
  · exact hr
  · exact sameNow_hkEv hr

theorem sameNow_dieRound {x1} (h : SameNow s u) : SameNow s (State.dieRound u x1) :=
  h.beside (beside_dieRound (.refl .now u))

theorem sameNow_hlvStamp (h : SameNow s u) : SameNow s (State.hlvStamp u) :=
  h.beside (beside_hlvStamp (.refl .now u))

theorem sameNow_hkRoundOp {x1} (h : SameNow s u) : SameNow s (State.hkRoundOp u x1) := by
  unfold State.hkRoundOp
  extract_lets -merge v5 v6
  refine (SameNow.ite (fun _ => h) (fun _ => ?_))
  split
  rename_i y19 h20
  have h21 := SameNow.pair h20 (sameNow_convertDie h)
  extract_lets -merge v24 v25 v26 v27 v28 v29 v30 v31
  have h23 : SameNow s v24 := sameNow_supplyRound (sameNow_convertSupply h21)
  have h27 : SameNow s v26 := sameNow_takePower h23
  have h29 : SameNow s v27.2 := by
    refine (SameNow.foldl2 (SameNow.mk2 h27) (fun _ _ _ => ?_))
    rename_i h45
    split
    rename_i y69 h70
    have h71 := SameNow.pair h70 (sameNow_tileTemps h45)
    split
    rename_i y88 h89
    have h90 := SameNow.pair h89 (sameNow_anchor (sameNow_modelTile h71))
    extract_lets -merge v92
    exact SameNow.mk2 (sameNow_tileRound h90)
  clear_value v27
  have h77 : SameNow s v28 := sameNow_dieRound (sameNow_setB h29)
  have h79 : SameNow s v29 := sameNow_setRegN h77
  have h81 : SameNow s v30 := sameNow_hlvStamp (sameNow_updHk h79)
  have h83 : SameNow s v31 := by
    refine (SameNow.foldl h81 (fun _ _ _ => ?_))
    rename_i y90 y91 h92
    exact sameNow_nvAgain h92
  exact sameNow_setRegN h83

theorem sameNow_hkConvert {x1 x2} (h : SameNow s u) : SameNow s (State.hkConvert u x1 x2) := by
  unfold State.hkConvert
  refine (SameNow.ite (fun _ => h) (fun _ => ?_))
  split
  · exact sameNow_convertDie h
  · exact sameNow_convertSupply h
  · exact sameNow_hkRoundOp h

theorem sameNow_freeReadings (h : SameNow s u) : SameNow s (State.freeReadings u).2 := by
  unfold State.freeReadings
  extract_lets -merge v5
  have h7 : SameNow s v5.2 := by
    refine (SameNow.foldl2 (SameNow.mk2 h) (fun _ _ _ => ?_))
    rename_i h15
    split
    rename_i y39 h40
    have h41 := SameNow.pair h40 (sameNow_fresh h15)
    exact SameNow.mk2 h41
  clear_value v5
  exact SameNow.mk2 h7

/-! ### The schedule -/

theorem sameNow_pulse {x1 x2} (h : SameNow s u) : SameNow s (State.pulse u x1 x2) := by
  unfold State.pulse
  exact h.updTime fun _ => rfl

theorem sameNow_sweepStart {x1} (h : SameNow s u) : SameNow s (State.sweepStart u x1) :=
  h.beside (beside_sweepStart (.refl .now u))

theorem sameNow_schedAct {x1 x2 x3} (h : SameNow s u) : SameNow s (State.schedAct u x1 x2 x3) := by
  unfold State.schedAct
  extract_lets -merge v7 v8
  split
  · exact sameNow_post h
  · exact sameNow_pulse h
  · exact SameNow.ite (fun _ => SameNow.upd h) (fun _ => h)
  · exact sameNow_sweepStart h
  · exact sameNow_hkConvert h
  · exact sameNow_timingCommit h
  · refine (SameNow.foldl h (fun _ _ _ => ?_))
    rename_i y24 y25 h26
    exact SameNow.ite (fun _ => sameNow_trigger h26) (fun _ => h26)
  · exact h

theorem sameNow_schedExec {x1 x2 x3 x4} (h : SameNow s u) : SameNow s (State.schedExec u x1 x2 x3 x4) := by
  unfold State.schedExec
  extract_lets -merge v8 v9
  have h12 : SameNow s v8 := sameNow_schedAct h
  have h14 : SameNow s v9 := sameNow_setF (sameNow_setF h12)
  exact sameNow_setRegN h14

theorem sameNow_schedLate {x1 x2} (h : SameNow s u) : SameNow s (State.schedLate u x1 x2) := by
  unfold State.schedLate
  extract_lets -merge v6 v7 v8 v9
  have h10 : SameNow s v8 := sameNow_raise (sameNow_setF h)
  have h12 : SameNow s v9 := by
    refine (SameNow.ite (fun _ => ?_) (fun _ => sameNow_post h10))
    split
    rename_i y25 h26
    have h27 := SameNow.pair h26 (SameNow.ite2 (fun _ => sameNow_freeReadings h) (fun _ => SameNow.mk2 h))
    extract_lets -merge v19
    have h21 : SameNow s v19 := sameNow_raise (sameNow_schedExec h27)
    exact sameNow_post h21
  exact SameNow.ite (fun _ => sameNow_setSched h12) (fun _ => sameNow_schedStop h12)

theorem sameNow_schedArm {x1} (h : SameNow s u) : SameNow s (State.schedArm u x1).2 := by
  unfold State.schedArm
  extract_lets -merge v7 v8 v9
  have h13 : SameNow s v8 := sameNow_setSched h
  have h9 : SameNow s v9 := sameNow_setF (sameNow_setSched h13)
  exact SameNow.ite2 (fun _ => SameNow.mk2 (sameNow_schedReject h13)) (fun _ => SameNow.ite2
      (fun _ => SameNow.mk2 (sameNow_setF (sameNow_setSched h13))) (fun _ => SameNow.ite2 (fun _ => SameNow.mk2 (sameNow_schedReject h13))
      (fun _ => SameNow.ite2 (fun _ => SameNow.mk2 h9) (fun _ => SameNow.mk2 (sameNow_schedLate h9)))))

theorem sameNow_schedAfter {x1 x2} (h : SameNow s u) : SameNow s (State.schedAfter u x1 x2) := by
  unfold State.schedAfter
  refine SameNow.ite (fun _ => sameNow_schedStop h) (fun _ => ?_)
  refine SameNow.ite (fun _ => ?_) (fun _ => sameNow_setSched h)
  extract_lets -merge v1 v2
  have h3 : SameNow s v2 := sameNow_setSched h
  exact SameNow.ite (fun _ => h3) (fun _ => sameNow_schedLate h3)

theorem sameNow_schedMatch {x1 x2 x3} (h : SameNow s u) : SameNow s (State.schedMatch u x1 x2 x3) := by
  unfold State.schedMatch
  split
  · exact h
  · exact SameNow.ite (fun _ => h) (fun _ => sameNow_schedAfter (sameNow_schedExec h))

theorem sameNow_schedOff {x1} (h : SameNow s u) : SameNow s (State.schedOff u x1) := by
  unfold State.schedOff
  refine sameNow_schedStop ?_
  split
  · refine SameNow.ite (fun _ => h) (fun _ => SameNow.ite (fun _ => ?_) (fun _ => sameNow_schedMatch h))
    split
    rename_i e
    exact sameNow_schedMatch (SameNow.pair e (sameNow_freeReadings h))
  · exact h

theorem sameNow_schedCfg {x1 x2} (h : SameNow s u) : SameNow s (State.schedCfg u x1 x2) := by
  unfold State.schedCfg
  extract_lets -merge v1
  have h2 : SameNow s v1 := sameNow_setRegN h
  exact SameNow.ite (fun _ => sameNow_schedArm h2) (fun _ => sameNow_schedOff h2)

theorem sameNow_schedTarget {x1 x2} (h : SameNow s u) : SameNow s (State.schedTarget u x1 x2) := by
  unfold State.schedTarget
  extract_lets -merge v6
  have h7 : SameNow s v6 := sameNow_setReg h
  exact SameNow.ite (fun _ => sameNow_schedArm h7) (fun _ => h7)

theorem sameNow_schedStep (h : SameNow s u) : SameNow s (State.schedStep u) := by
  unfold State.schedStep
  refine (SameNow.foldl h (fun _ _ _ => ?_))
  rename_i y9 y10 h11
  split
  · exact h11
  · exact SameNow.ite (fun _ => h11) (fun _ => SameNow.ite (fun _ => sameNow_schedLate h11) (fun _ => SameNow.ite
      (fun _ => sameNow_schedReject h11) (fun _ => h11)))

theorem sameNow_capRead {x1} (h : SameNow s u) : SameNow s (State.capRead u x1).2 := by
  unfold State.capRead
  split
  · exact SameNow.mk2 h
  · extract_lets -merge v24 v25
    have h28 : SameNow s v24 := h.updTime fun _ => rfl
    have h30 : SameNow s v25 := sameNow_setRegN (sameNow_setRegN h28)
    exact SameNow.mk2 h30

/-! ### The time unit -/

theorem sameNow_setResid {x1} (h : SameNow s u) : SameNow s (State.setResid u x1) := by
  unfold State.setResid
  exact sameNow_setB (h.updTime fun _ => rfl)

theorem sameNow_absorb {x1} (h : SameNow s u) : SameNow s (State.absorb u x1) := by
  unfold State.absorb
  exact sameNow_setResid h

theorem sameNow_timeStepOp (h : SameNow s u) : SameNow s (State.timeStepOp u) := by
  unfold State.timeStepOp
  extract_lets -merge v1 v2 v3 v4 v5 v6 v7
  have h8 : SameNow s v3 := sameNow_setResid h
  have h9 : SameNow s v4 := sameNow_post (sameNow_raise h8)
  have h13 : SameNow s v5 := SameNow.foldl h9 (fun y10 y11 h12 => sameNow_updTg h12)
  have h14 : SameNow s v7 := SameNow.upd h13
  exact SameNow.ite (fun _ => h) (fun _ => sameNow_rephase (sameNow_schedStep h14))

theorem sameNow_switchTo {x1 x2} (h : SameNow s u) : SameNow s (State.switchTo u x1 x2) := by
  unfold State.switchTo
  extract_lets -merge v6 v7
  have h10 : SameNow s v7 := sameNow_absorb (sameNow_setF h)
  exact sameNow_post h10

theorem sameNow_setHoldover {x1} (h : SameNow s u) : SameNow s (State.setHoldover u x1) := by
  unfold State.setHoldover
  exact SameNow.ite (fun _ => h) (fun _ => sameNow_post (sameNow_setB h))

theorem sameNow_freshCheck {x1} (h : SameNow s u) : SameNow s (State.freshCheck u x1) := by
  unfold State.freshCheck
  extract_lets -merge v5
  exact SameNow.ite (fun _ => sameNow_setHoldover h) (fun _ => SameNow.ite (fun _ => SameNow.ite
      (fun _ => sameNow_setHoldover (sameNow_switchTo h)) (fun _ => sameNow_setHoldover h)) (fun _ => h))

theorem sameNow_showDom {x1} (h : SameNow s u) : SameNow s (State.showDom u x1) := by
  unfold State.showDom
  extract_lets -merge v5 v6 v7
  have h15 : SameNow s v6 := sameNow_setPair (sameNow_setRegN h)
  have h18 : SameNow s v7 := sameNow_setRegN (sameNow_setRegN h15)
  exact sameNow_setPair h18

theorem sameNow_domUpdate {x1 x2} (h : SameNow s u) : SameNow s (State.domUpdate u x1 x2) := by
  unfold State.domUpdate
  extract_lets -merge v9 v10 v11 v12
  have h18 : SameNow s v11 := sameNow_showDom (sameNow_setDom h)
  have h21 : SameNow s v12 := SameNow.ite (fun _ => sameNow_absorb h18) (fun _ => h18)
  exact sameNow_freshCheck h21

theorem sameNow_setRate {x1 x2} (h : SameNow s u) : SameNow s (State.setRate u x1 x2) := by
  unfold State.setRate
  extract_lets -merge v6
  exact sameNow_domUpdate h

theorem sameNow_incrRefused {x1 x2} (h : SameNow s u) : SameNow s (State.incrRefused u x1 x2) := by
  unfold State.incrRefused
  extract_lets -merge v7
  have h7 : SameNow s v7 := sameNow_raise (sameNow_showDom h)
  exact sameNow_post h7

theorem sameNow_incrWrite {x1 x2} (h : SameNow s u) : SameNow s (State.incrWrite u x1 x2) := by
  unfold State.incrWrite
  extract_lets -merge v6
  exact SameNow.ite (fun _ => sameNow_incrRefused h) (fun _ => SameNow.ite (fun _ => sameNow_incrRefused h) (fun _ => sameNow_setRate h))

theorem sameNow_offsetWrite {x1 x2} (h : SameNow s u) : SameNow s (State.offsetWrite u x1 x2) := by
  unfold State.offsetWrite
  extract_lets -merge v7 v8
  exact sameNow_domUpdate h

theorem sameNow_adjust {x1 x2} (h : SameNow s u) : SameNow s (State.adjust u x1 x2) := by
  unfold State.adjust
  extract_lets -merge v6
  exact sameNow_domUpdate h

theorem sameNow_servo {x1 x2} (h : SameNow s u) : SameNow s (State.servo u x1 x2) := by
  unfold State.servo
  extract_lets -merge v6 v7 v8 v9 v10 v11 v12
  have h13 : SameNow s v11 := sameNow_setB (sameNow_setRegN h)
  have h21 : SameNow s v12 := SameNow.ite (fun _ => sameNow_post h13) (fun _ => h13)
  exact SameNow.ite (fun _ => h) (fun _ => SameNow.ite (fun _ => sameNow_adjust (sameNow_setRegN h)) (fun _ => sameNow_setRate h21))

theorem sameNow_snapCmd {x1} (h : SameNow s u) : SameNow s (State.snapCmd u x1) := by
  unfold State.snapCmd
  extract_lets -merge v6 v7 v8 v9 v10
  have h16 : SameNow s v7 := h
  have h11 : SameNow s v8 := sameNow_setRegN (sameNow_setPair h)
  have h13 : SameNow s v9 := sameNow_setPair h11
  have h18 : SameNow s v10 := sameNow_setPair h13
  exact SameNow.ite (fun _ => h) (fun _ => sameNow_setPair h18)

theorem sameNow_ltRead (h : SameNow s u) : SameNow s (State.ltRead u).2 := by
  unfold State.ltRead
  exact SameNow.mk2 (sameNow_setRegN h)

theorem sameNow_ctrlWrite {x1} (h : SameNow s u) : SameNow s (State.ctrlWrite u x1) := by
  unfold State.ctrlWrite
  extract_lets -merge v5 v6
  have h9 : SameNow s v6 := sameNow_setF h
  exact sameNow_freshCheck (SameNow.ite (fun _ => h9) (fun _ => sameNow_switchTo h9))

/-! ### Host links -/

theorem sameNow_sendRec {x1 x2 x3 x4 x5} (h : SameNow s u) : SameNow s (State.sendRec u x1 x2 x3 x4 x5) := by
  unfold State.sendRec
  extract_lets -merge v9 v10 v11 v12 v13
  have h14 : SameNow s v10 := sameNow_setRegN h
  have h15 : SameNow s v13 := sameNow_updHost h14
  exact SameNow.ite (fun _ => SameNow.ite (fun _ => sameNow_bump h15) (fun _ => h15)) (fun _ => sameNow_ethOut h14)

theorem sameNow_replyWith {x1 x2 x3 x4 x5 x6 x7} (h : SameNow s u) : SameNow s (State.replyWith u x1 x2 x3 x4 x5 x6 x7) := by
  unfold State.replyWith
  exact sameNow_sendRec h

theorem sameNow_ackRec {x1 x2 x3 x4} (h : SameNow s u) : SameNow s (State.ackRec u x1 x2 x3 x4) := by
  unfold State.ackRec
  exact sameNow_replyWith h

theorem sameNow_nakRec {x1 x2 x3 x4 x5 x6} (h : SameNow s u) : SameNow s (State.nakRec u x1 x2 x3 x4 x5 x6) := by
  unfold State.nakRec
  exact sameNow_replyWith (sameNow_raise h)

theorem sameNow_stateRec {x1 x2 x3} (h : SameNow s u) : SameNow s (State.stateRec u x1 x2 x3) := by
  unfold State.stateRec
  extract_lets -merge v8
  exact sameNow_sendRec h

/-! ### Loading and staging -/

theorem sameNow_setBs {x1} (h : SameNow s u) : SameNow s (State.setBs u x1) := by
  unfold State.setBs
  exact sameNow_setF h

theorem sameNow_updLoader {x1} (h : SameNow s u) : SameNow s (State.updLoader u x1) := by
  unfold State.updLoader
  exact SameNow.upd h

theorem sameNow_stageFile {x1 x2} (h : SameNow s u) : SameNow s (State.stageFile u x1 x2) := by
  unfold State.stageFile
  exact SameNow.ite (fun _ => h) (fun _ => sameNow_writeMem h)

theorem sameNow_setUpd {x1} (h : SameNow s u) : SameNow s (State.setUpd u x1) := by
  unfold State.setUpd
  exact sameNow_setB (sameNow_setF h)

theorem sameNow_updNak {x1} (h : SameNow s u) : SameNow s (State.updNak u x1) := by
  unfold State.updNak
  exact sameNow_post (sameNow_setF h)

theorem sameNow_stageBytes {x1 x2} (h : SameNow s u) : SameNow s (State.stageBytes u x1 x2) := by
  unfold State.stageBytes
  extract_lets -merge v6
  have h9 : SameNow s v6 := SameNow.ite (fun _ => h) (fun _ => sameNow_updLoader (sameNow_setUpd h))
  exact SameNow.ite (fun _ => sameNow_updNak h) (fun _ => SameNow.ite (fun _ => sameNow_putDram h9) (fun _ => h9))

theorem sameNow_pushBytes {x1 x2} (h : SameNow s u) : SameNow s (State.pushBytes u x1 x2) := by
  unfold State.pushBytes
  extract_lets -merge v1
  have h2 : SameNow s v1 := SameNow.ite (fun _ => h) (fun _ => sameNow_updLoader (sameNow_setBs h))
  exact sameNow_updLoader (sameNow_stageFile h2)

theorem sameNow_stageData {x1} (h : SameNow s u) : SameNow s (State.stageData u x1) := by
  unfold State.stageData
  extract_lets -merge v1 v2 v3 v4
  have h5 : SameNow s v4 := SameNow.ite (fun _ => sameNow_stageBytes h) (fun _ => SameNow.ite (fun _ => sameNow_pushBytes h)
      (fun _ => sameNow_updNak h))
  exact SameNow.ite (fun _ => h5) (fun _ => sameNow_setRegN h5)

theorem sameNow_updVerify (h : SameNow s u) : SameNow s (State.updVerify u) := by
  unfold State.updVerify
  exact SameNow.ite (fun _ => sameNow_updNak h) (fun _ => SameNow.ite (fun _ => sameNow_updNak h) (fun _ => sameNow_setUpd h))

theorem sameNow_updCommit (h : SameNow s u) : SameNow s (State.updCommit u) := by
  unfold State.updCommit
  exact SameNow.ite (fun _ => sameNow_updNak h) (fun _ => SameNow.ite (fun _ => sameNow_updNak h) (fun _ => sameNow_setUpd h))

theorem sameNow_updCancel {x1} (h : SameNow s u) : SameNow s (State.updCancel u x1) := by
  unfold State.updCancel
  extract_lets -merge v5
  exact SameNow.ite (fun _ => sameNow_post (sameNow_updLoader (sameNow_setUpd h))) (fun _ => SameNow.ite (fun _ => sameNow_updNak h) (fun _ => h))

theorem sameNow_updCmd {x1} (h : SameNow s u) : SameNow s (State.updCmd u x1) := by
  unfold State.updCmd
  exact SameNow.ite (fun _ => sameNow_updVerify h) (fun _ => SameNow.ite (fun _ => sameNow_updCommit h) (fun _ => SameNow.ite
      (fun _ => sameNow_updCancel h) (fun _ => h)))

theorem sameNow_otpShow (h : SameNow s u) : SameNow s (State.otpShow u) := by
  unfold State.otpShow
  extract_lets -merge v4 v5
  have h8 : SameNow s v5 := sameNow_setF (sameNow_setF h)
  exact sameNow_setB (sameNow_setF h8)

theorem sameNow_otpRefuse {x1 x2} (h : SameNow s u) : SameNow s (State.otpRefuse u x1 x2) := by
  unfold State.otpRefuse
  exact sameNow_post h

/-- A command of the fuses that its own act leaves at the same model time. -/
theorem sameNow_otpCmd {cmd cond fuse act} (h : SameNow s u) (k : ∀ v, SameNow s v → SameNow s (act v)) :
    SameNow s (State.otpCmd u cmd cond fuse act) :=
  .ite (fun _ => sameNow_otpRefuse h) fun _ => .ite (fun _ => sameNow_otpRefuse h) fun _ =>
    .ite (fun _ => sameNow_otpRefuse (sameNow_setF h)) fun _ => sameNow_otpShow (k _ (sameNow_setF (sameNow_setF h)))

theorem sameNow_keyProgram {x1} (h : SameNow s u) : SameNow s (State.keyProgram u x1) := sameNow_otpCmd h fun _ k => sameNow_otp k

theorem sameNow_revokeOp {x1} (h : SameNow s u) : SameNow s (State.revokeOp u x1) := sameNow_otpCmd h fun _ k => sameNow_otp k

theorem sameNow_advanceOp (h : SameNow s u) : SameNow s (State.advanceOp u) := sameNow_otpCmd h fun _ k => sameNow_otp k

theorem sameNow_wrapOp (h : SameNow s u) : SameNow s (State.wrapOp u) :=
  sameNow_otpCmd h fun _ k => sameNow_otp (sameNow_setRegWords (sameNow_setRegWords k))

theorem sameNow_wrapLockOp (h : SameNow s u) : SameNow s (State.wrapLockOp u) := sameNow_otpCmd h fun _ k => sameNow_otp k

theorem sameNow_otpWrite {x1} (h : SameNow s u) : SameNow s (State.otpWrite u x1) := by
  unfold State.otpWrite
  extract_lets -merge v5
  split
  · exact sameNow_keyProgram h
  · exact sameNow_revokeOp h
  · exact sameNow_advanceOp h
  · exact sameNow_wrapOp h
  · exact sameNow_wrapLockOp h
  · exact h

/-! ### Engine commands -/

theorem sameNow_beStartOp {x1} (h : SameNow s u) : SameNow s (State.beStartOp u x1) := by
  unfold State.beStartOp
  exact sameNow_trigger h

theorem sameNow_beStopOp {x1} (h : SameNow s u) : SameNow s (State.beStopOp u x1) := by
  unfold State.beStopOp
  refine SameNow.ite (fun _ => h) (fun _ => ?_)
  extract_lets -merge v1 v2
  have h3 : SameNow s v1 := sameNow_updEng h
  have h4 : SameNow s v2 := sameNow_updEng h3
  exact SameNow.ite (fun _ => sameNow_setF (sameNow_setF (sameNow_setBeState h4))) (fun _ => h3)

theorem sameNow_beResetOp {x1} (h : SameNow s u) : SameNow s (State.beResetOp u x1) := by
  unfold State.beResetOp
  extract_lets -merge v5 v6
  have h11 : SameNow s v6 := sameNow_updEng h
  exact SameNow.ite (fun _ => h) (fun _ => sameNow_setF (sameNow_setF (sameNow_setBeState h11)))

theorem sameNow_beCmd {x1 x2} (h : SameNow s u) : SameNow s (State.beCmd u x1 x2) := by
  unfold State.beCmd
  exact SameNow.ite (fun _ => sameNow_beStartOp h) (fun _ => SameNow.ite (fun _ => sameNow_beStopOp h) (fun _ => SameNow.ite
      (fun _ => sameNow_beResetOp h) (fun _ => h)))

/-! ### Hamper -/

theorem sameNow_updHamper {x1} (h : SameNow s u) : SameNow s (State.updHamper u x1) := by
  unfold State.updHamper
  exact SameNow.upd h

theorem sameNow_evtHead (h : SameNow s u) : SameNow s (State.evtHead u).2 := by
  unfold State.evtHead
  extract_lets -merge v4 v5
  split
  · exact SameNow.mk2 (sameNow_updHamper h)
  · exact SameNow.mk2 (sameNow_updHamper h)
  · split
    · exact SameNow.mk2 (sameNow_updHamper h)
    · exact SameNow.mk2 h

theorem sameNow_evtCheck {x1} (h : SameNow s u) : SameNow s (State.evtCheck u x1).2 := by
  unfold State.evtCheck
  split
  · exact SameNow.mk2 h
  · exact sameNow_synFound (sameNow_updHamper h)

theorem sameNow_evtLose {x1} (h : SameNow s u) : SameNow s (State.evtLose u x1) := by
  unfold State.evtLose
  split
  rename_i e4
  have h5 := SameNow.pair e4 (sameNow_fresh h)
  extract_lets -merge v6
  exact sameNow_noteLoss (sameNow_bump h5)

theorem sameNow_evtTake {x1} (h : SameNow s u) : SameNow s (State.evtTake u x1).2 := by
  induction x1 generalizing u with
  | zero => exact h
  | succ k ih =>
    have h1 := sameNow_evtHead h
    rw [State.evtTake]
    generalize State.evtHead u = r at h1 ⊢
    obtain ⟨c, v⟩ := r
    cases c with
    | none => exact h1
    | some c =>
      have h2 := sameNow_evtCheck (x1 := c) (u := v) h1
      dsimp only
      generalize State.evtCheck v c = r at h2 ⊢
      exact SameNow.ite2 (fun _ => ih (sameNow_evtLose h2)) (fun _ => h2)

theorem sameNow_evtNext (h : SameNow s u) : SameNow s (State.evtNext u).2 := by
  unfold State.evtNext
  exact sameNow_evtTake h

theorem sameNow_evtPop {x1} (h : SameNow s u) : SameNow s (State.evtPop u x1).2 := by
  unfold State.evtPop
  refine (SameNow.ite2 (fun _ => SameNow.mk2 h) (fun _ => ?_))
  split
  · exact SameNow.mk2 (sameNow_updHamper h)
  · split
    · rename_i y21 h22
      have h23 := SameNow.pair h22 (sameNow_evtNext h)
      exact SameNow.mk2 h23
    · rename_i y31 h32
      have h33 := SameNow.pair h32 (sameNow_evtNext h)
      extract_lets -merge v19
      have h21 : SameNow s v19 := sameNow_updHamper h33
      exact SameNow.mk2 h21

theorem sameNow_evtSkip (h : SameNow s u) : SameNow s (State.evtSkip u) := by
  unfold State.evtSkip
  exact sameNow_updHamper h

theorem sameNow_evtOwner {x1} (h : SameNow s u) : SameNow s (State.evtOwner u x1) := by
  unfold State.evtOwner
  extract_lets -merge v10 v11
  have h7 : SameNow s v11 := SameNow.ite (fun _ => h) (fun _ => sameNow_evtSkip h)
  exact sameNow_setF (sameNow_setF h7)

/-! ### Spool -/

theorem sameNow_traceStep (h : SameNow s u) : SameNow s (State.traceStep u) := by
  unfold State.traceStep
  refine SameNow.ite (fun _ => h) (fun _ => ?_)
  split
  rename_i e4
  have h5 := SameNow.pair e4 (sameNow_fresh h)
  refine SameNow.ite (fun _ => ?_) (fun _ => h5)
  extract_lets -merge v6
  exact sameNow_spoolPut (sameNow_drawn h5)

theorem sameNow_spLoad {x1} (h : SameNow s u) : SameNow s (State.spLoad u x1) := by
  unfold State.spLoad
  split
  rename_i y23 h24
  have h25 := SameNow.pair h24 (sameNow_readMem h)
  exact sameNow_setRegN (sameNow_setRegWords h25)

theorem sameNow_spOldest (h : SameNow s u) : SameNow s (State.spOldest u) := by
  unfold State.spOldest
  exact SameNow.ite (fun _ => h) (fun _ => sameNow_spLoad h)

theorem sameNow_spNext (h : SameNow s u) : SameNow s (State.spNext u) := by
  unfold State.spNext
  extract_lets -merge v4
  exact SameNow.ite (fun _ => h) (fun _ => sameNow_spLoad h)

theorem sameNow_spSetMark (h : SameNow s u) : SameNow s (State.spSetMark u) := by
  unfold State.spSetMark
  exact SameNow.ite (fun _ => h) (fun _ => sameNow_setF (sameNow_setRegN h))

theorem sameNow_spRewind (h : SameNow s u) : SameNow s (State.spRewind u) := by
  unfold State.spRewind
  exact SameNow.ite (fun _ => h) (fun _ => SameNow.ite (fun _ => sameNow_spLoad h) (fun _ => sameNow_spOldest (sameNow_raise h)))

theorem sameNow_spRearm (h : SameNow s u) : SameNow s (State.spRearm u) := by
  unfold State.spRearm
  exact SameNow.ite (fun _ => sameNow_hostEv (sameNow_setF h)) (fun _ => h)

theorem sameNow_spCmd {x1} (h : SameNow s u) : SameNow s (State.spCmd u x1) := by
  unfold State.spCmd
  split
  · exact sameNow_spNext h
  · exact sameNow_spOldest h
  · exact sameNow_spSetMark h
  · exact sameNow_spRewind h
  · exact sameNow_spoolTrigger h
  · exact sameNow_spRearm h
  · exact h

theorem sameNow_spRead {x1 x2} (h : SameNow s u) : SameNow s (State.spRead u x1 x2).2 := by
  unfold State.spRead
  refine (SameNow.foldl2 (SameNow.mk2 h) (fun _ _ _ => ?_))
  rename_i h11
  split
  rename_i y19
  split
  rename_i y33 h34
  have h35 := SameNow.pair h34 (sameNow_readMem h11)
  exact SameNow.mk2 h35

/-! ### Start-up -/

theorem sameNow_pmicBack (h : SameNow s u) : SameNow s (State.pmicBack u) := by
  unfold State.pmicBack
  exact sameNow_updBoot h

theorem sameNow_pmicStep (h : SameNow s u) : SameNow s (State.pmicStep u) := by
  unfold State.pmicStep
  split
  · exact SameNow.ite (fun _ => sameNow_pmicBack h) (fun _ => h)
  · exact h

theorem sameNow_bootEv {x1 x2} (h : SameNow s u) : SameNow s (State.bootEv u x1 x2) := by
  unfold State.bootEv
  exact sameNow_post h

theorem sameNow_startDone (h : SameNow s u) : SameNow s (State.startDone u) := by
  unfold State.startDone
  refine SameNow.ite (fun _ => h) (fun _ => ?_)
  extract_lets -merge v1 v2 v3
  have h4 : SameNow s v1 := sameNow_updBoot h
  have h8 : SameNow s v2 := SameNow.foldl h4 (fun y5 y6 h7 => sameNow_releaseFault h7)
  have h9 : SameNow s v3 := SameNow.ite (fun _ => sameNow_post h8) (fun _ => h8)
  exact sameNow_bootEv h9

/-! ### Check-value units -/

theorem sameNow_eccWrite {x1} (h : SameNow s u) : SameNow s (State.eccWrite u x1) := by
  unfold State.eccWrite
  extract_lets -merge v1
  exact SameNow.ite (fun _ => sameNow_setF h) (fun _ => sameNow_setReg h)

theorem sameNow_setCrcJob {x1 x2} (h : SameNow s u) : SameNow s (State.setCrcJob u x1 x2) := by
  unfold State.setCrcJob
  exact SameNow.upd h

theorem sameNow_crcBusyErr {x1} (h : SameNow s u) : SameNow s (State.crcBusyErr u x1) := by
  unfold State.crcBusyErr
  exact sameNow_raise h

theorem sameNow_crcEnd {x1} (h : SameNow s u) : SameNow s (State.crcEnd u x1) := by
  unfold State.crcEnd
  extract_lets -merge v1
  have h2 : SameNow s v1 := sameNow_setF (sameNow_setF (sameNow_setCrcJob h))
  exact SameNow.ite (fun _ => sameNow_post h2) (fun _ => h2)

theorem sameNow_crcStart {x1} (h : SameNow s u) : SameNow s (State.crcStart u x1) := by
  unfold State.crcStart
  refine SameNow.ite (fun _ => sameNow_crcBusyErr h) (fun _ => ?_)
  extract_lets -merge v1 v2
  have h3 : SameNow s v2 := sameNow_setRegN (sameNow_setReg h)
  exact SameNow.ite (fun _ => sameNow_crcEnd (sameNow_setF h3)) (fun _ => sameNow_setF (sameNow_setCrcJob h3))

theorem sameNow_crcStop {x1 x2 x3} (h : SameNow s u) : SameNow s (State.crcStop u x1 x2 x3) := by
  unfold State.crcStop
  split
  rename_i e4
  have h5 := SameNow.pair e4 (sameNow_fresh h)
  extract_lets -merge v6
  have h7 : SameNow s v6 := sameNow_setF h5
  exact sameNow_crcEnd (SameNow.ite (fun _ => sameNow_setReg h7) (fun _ => h7))

theorem sameNow_crcCompare {x1 x2 x3} (h : SameNow s u) : SameNow s (State.crcCompare u x1 x2 x3) := by
  unfold State.crcCompare
  extract_lets -merge v1 v2 v3 v4 v5 v6 v7 v8
  exact SameNow.ite (fun _ => SameNow.ite (fun _ => sameNow_setF h) (fun _ => sameNow_post (sameNow_bump (sameNow_setF h))))
      (fun _ => SameNow.ite (fun _ => sameNow_post (sameNow_bump (sameNow_setF (sameNow_setReg h)))) (fun _ => SameNow.ite
      (fun _ => sameNow_post (sameNow_bump (sameNow_setF (sameNow_setReg h))))
      (fun _ => sameNow_post (sameNow_bump (sameNow_setF (sameNow_setF h))))))

theorem sameNow_crcFinish {x1 x2} (h : SameNow s u) : SameNow s (State.crcFinish u x1 x2) := by
  unfold State.crcFinish
  refine SameNow.ite (fun _ => sameNow_crcEnd h) (fun _ => ?_)
  extract_lets -merge v1 v2
  have h3 : SameNow s v2 := sameNow_setRegN h
  exact sameNow_crcEnd (SameNow.ite (fun _ => sameNow_crcCompare h3) (fun _ => h3))

theorem sameNow_crcWord {x1 x2} (h : SameNow s u) : SameNow s (State.crcWord u x1 x2) := by
  unfold State.crcWord
  extract_lets -merge v1
  refine SameNow.ite (fun _ => sameNow_crcStop (sameNow_busErr h)) (fun _ => ?_)
  split
  rename_i e6
  have h7 := SameNow.pair e6 (sameNow_readAll h)
  refine SameNow.ite (fun _ => sameNow_crcStop h7) (fun _ => ?_)
  extract_lets -merge v8 v9 v10
  have h11 : SameNow s v8 := SameNow.ite (fun _ => sameNow_setRegWords h7) (fun _ => h7)
  have h12 : SameNow s v10 := sameNow_setRegN h11
  exact SameNow.ite (fun _ => sameNow_crcFinish h12) (fun _ => sameNow_setCrcJob h12)

theorem sameNow_crcToLine {x1 k} (h : SameNow s u) : SameNow s (State.crcToLine u x1 k) := by
  induction k generalizing u with
  | zero => exact h
  | succ k ih =>
    rw [State.crcToLine]
    cases u.crcJob x1 with
    | none => exact h
    | some j => exact SameNow.ite (fun _ => sameNow_crcStop h) (fun _ => ih (sameNow_crcWord h))

theorem sameNow_crcAbortOp {x1} (h : SameNow s u) : SameNow s (State.crcAbortOp u x1) := by
  unfold State.crcAbortOp
  exact sameNow_crcToLine h

theorem sameNow_crcStep {x1} (h : SameNow s u) : SameNow s (State.crcStep u x1) := by
  unfold State.crcStep
  split
  · exact h
  · refine SameNow.ite (fun _ => h) (fun _ => ?_)
    split
    rename_i e9
    have h10 := SameNow.pair e9 (sameNow_fresh h)
    exact SameNow.ite (fun _ => sameNow_crcWord h10) (fun _ => h10)

theorem sameNow_crcCmd {x1 x2} (h : SameNow s u) : SameNow s (State.crcCmd u x1 x2) := by
  unfold State.crcCmd
  exact SameNow.ite (fun _ => sameNow_crcStart h) (fun _ => SameNow.ite (fun _ => sameNow_crcAbortOp h) (fun _ => h))

/-! ### Power states -/

theorem sameNow_pwrResult {x1 x2} (h : SameNow s u) : SameNow s (State.pwrResult u x1 x2) := by
  unfold State.pwrResult
  exact sameNow_setF (sameNow_setF h)

theorem sameNow_beGate (h : SameNow s u) : SameNow s (State.beGate u) := by
  unfold State.beGate
  exact SameNow.ite (fun _ => h) (fun _ => sameNow_updPwr (sameNow_beSettle h))

theorem sameNow_pwrSettle {x1} (h : SameNow s u) : SameNow s (State.pwrSettle u x1) := by
  unfold State.pwrSettle
  extract_lets -merge v1
  have h2 : SameNow s v1 := SameNow.ite (fun _ => h) (fun _ => sameNow_beGate h)
  exact sameNow_setF (sameNow_setF (sameNow_setF h2))

theorem sameNow_idleExit (h : SameNow s u) : SameNow s (State.idleExit u) := by
  unfold State.idleExit
  extract_lets -merge v1
  have h2 : SameNow s v1 := SameNow.upd h
  exact sameNow_heard (sameNow_beUngate (sameNow_pwrSettle h2))

theorem sameNow_wakeEv {x1 x2} (h : SameNow s u) : SameNow s (State.wakeEv u x1 x2) := by
  unfold State.wakeEv
  exact sameNow_post (sameNow_setRegN h)

theorem sameNow_idleWake {x1} (h : SameNow s u) : SameNow s (State.idleWake u x1) := by
  unfold State.idleWake
  extract_lets -merge v5
  have h6 : SameNow s v5 := sameNow_wakeEv (sameNow_idleExit h)
  exact SameNow.ite (fun _ => sameNow_pwrResult h6) (fun _ => h6)

theorem sameNow_sleepWake {x1} (h : SameNow s u) : SameNow s (State.sleepWake u x1) := by
  unfold State.sleepWake
  extract_lets -merge v6
  have h8 : SameNow s v6 := sameNow_setRegN (sameNow_setF h)
  exact sameNow_updBoot h8

theorem sameNow_wakeEvent {x1} (h : SameNow s u) : SameNow s (State.wakeEvent u x1) := by
  unfold State.wakeEvent
  extract_lets -merge v6
  exact SameNow.ite (fun _ => SameNow.ite (fun _ => sameNow_updPwr h) (fun _ => h)) (fun _ => SameNow.ite (fun _ => h) (fun _ => SameNow.ite
      (fun _ => sameNow_idleWake h) (fun _ => SameNow.ite (fun _ => sameNow_sleepWake h) (fun _ => h))))

theorem sameNow_wakeStep (h : SameNow s u) : SameNow s (State.wakeStep u) := by
  unfold State.wakeStep
  exact SameNow.foldl (SameNow.upd h) (fun y1 y2 h3 => sameNow_wakeEvent h3)

theorem sameNow_openSwitches (h : SameNow s u) : SameNow s (State.openSwitches u) := by
  unfold State.openSwitches
  extract_lets -merge v1 v2
  have h3 : SameNow s v1 := sameNow_updPwr h
  have h4 : SameNow s v2 := sameNow_updBoot h3
  exact SameNow.foldl h4 (fun y5 y6 h7 => sameNow_updSafeT (sameNow_setLs (sameNow_setHs h7)))

theorem sameNow_pwrPorts (h : SameNow s u) : SameNow s (State.pwrPorts u) := by
  unfold State.pwrPorts
  extract_lets -merge v7 v8 v9
  have h13 : SameNow s v8 := sameNow_updPwr h
  have h15 : SameNow s v9 := by
    refine (sameNow_updCancel (SameNow.foldl h13 (fun _ _ _ => ?_)))
    rename_i y19 y20 h21
    exact sameNow_portOff h21
  refine (SameNow.foldl h15 (fun _ _ _ => ?_))
  rename_i y12 y13 h14
  exact sameNow_crcAbortOp h14

theorem sameNow_dramLost (h : SameNow s u) : SameNow s (State.dramLost u) := h.of rfl

theorem sameNow_pwrDram (h : SameNow s u) : SameNow s (State.pwrDram u) := by
  unfold State.pwrDram
  extract_lets -merge v4
  exact SameNow.ite (fun _ => sameNow_updBoot (sameNow_updPwr h)) (fun _ => SameNow.ite (fun _ => sameNow_updPwr h)
      (fun _ => sameNow_dramLost (sameNow_updPwr h)))

theorem sameNow_retSave (h : SameNow s u) : SameNow s (State.retSave u) := by
  unfold State.retSave
  extract_lets -merge v4 v5
  split
  rename_i y22 h23
  have h24 := SameNow.pair h23 (sameNow_fresh h)
  extract_lets -merge v34
  exact sameNow_setRegN (sameNow_writeMem h24)

theorem sameNow_wakeTimer (h : SameNow s u) : SameNow s (State.wakeTimer u).2 := by
  unfold State.wakeTimer
  extract_lets -merge v4
  split
  · exact SameNow.mk2 h
  · extract_lets -merge v16 v17
    split
    rename_i y36 h37
    have h38 := SameNow.pair h37 (SameNow.ite2 (fun _ => sameNow_fresh h) (fun _ => SameNow.mk2 h))
    exact SameNow.mk2 h38

theorem sameNow_pwrRetain (h : SameNow s u) : SameNow s (State.pwrRetain u) := by
  unfold State.pwrRetain
  split
  rename_i y16 h17
  have h19 := SameNow.pair h17 (sameNow_wakeTimer (sameNow_retSave h))
  exact sameNow_updPwr h19

theorem sameNow_pwrStep {x1} (h : SameNow s u) : SameNow s (State.pwrStep u x1) := by
  unfold State.pwrStep
  extract_lets -merge v5
  have h9 : SameNow s v5 := sameNow_setF h
  split
  · exact sameNow_openSwitches h9
  · exact sameNow_updSafe h9
  · exact sameNow_pwrPorts h9
  · exact sameNow_pwrDram h9
  · exact sameNow_pwrRetain h9
  · exact h9

theorem sameNow_pwrPend {x1 x2 x3} (h : SameNow s u) : SameNow s (State.pwrPend u x1 x2 x3) := by
  unfold State.pwrPend
  extract_lets -merge v8
  have h10 : SameNow s v8 := SameNow.ite (fun _ => h) (fun _ => sameNow_pwrResult h)
  exact sameNow_setF (sameNow_updPwr h10)

theorem sameNow_pwrEnter {x1 x2 x3} (h : SameNow s u) : SameNow s (State.pwrEnter u x1 x2 x3) := by
  unfold State.pwrEnter
  extract_lets -merge v1 v2 v3 v4 v5
  have h6 : SameNow s v2 := sameNow_raise (sameNow_pwrResult h)
  have h7 : SameNow s v3 := SameNow.upd h
  have h8 : SameNow s v4 := sameNow_setF (sameNow_updPwr h7)
  have h9 : SameNow s v5 := SameNow.ite (fun _ => sameNow_deltaWrite h8) (fun _ => h8)
  exact SameNow.ite (fun _ => sameNow_post h6) (fun _ => SameNow.ite (fun _ => h8) (fun _ => sameNow_pwrStep h9))

theorem sameNow_pwrAuto {x1} (h : SameNow s u) : SameNow s (State.pwrAuto u x1) := by
  unfold State.pwrAuto
  extract_lets -merge v5 v6 v7 v8 v9 v10
  have h18 : SameNow s v9 := sameNow_setRegN (sameNow_setRegN h)
  have h21 : SameNow s v10 := sameNow_post h18
  exact SameNow.ite (fun _ => sameNow_pwrResult h21) (fun _ => sameNow_pwrEnter h21)

theorem sameNow_pwrBegin {x1 x2 x3} (h : SameNow s u) : SameNow s (State.pwrBegin u x1 x2 x3) := by
  unfold State.pwrBegin
  extract_lets -merge v7
  have h9 : SameNow s v7 := SameNow.ite (fun _ => sameNow_idleExit h) (fun _ => h)
  exact SameNow.ite (fun _ => sameNow_pwrResult h) (fun _ => SameNow.ite (fun _ => sameNow_idleWake h) (fun _ => SameNow.ite
      (fun _ => sameNow_pwrAuto h9) (fun _ => sameNow_pwrEnter h9)))

theorem sameNow_pwrRequest {x1 x2 x3} (h : SameNow s u) : SameNow s (State.pwrRequest u x1 x2 x3) := by
  unfold State.pwrRequest
  exact SameNow.ite (fun _ => h) (fun _ => SameNow.ite (fun _ => sameNow_pwrPend h) (fun _ => SameNow.ite (fun _ => SameNow.ite
      (fun _ => sameNow_wakeEvent h) (fun _ => sameNow_pwrPend h)) (fun _ => SameNow.ite (fun _ => SameNow.ite (fun _ => sameNow_sleepWake h)
      (fun _ => SameNow.ite (fun _ => sameNow_pwrResult h) (fun _ => sameNow_pwrPend h))) (fun _ => sameNow_pwrBegin h))))

theorem sameNow_pwrTake (h : SameNow s u) : SameNow s (State.pwrTake u) := by
  unfold State.pwrTake
  extract_lets -merge v6
  exact SameNow.ite (fun _ => h) (fun _ => sameNow_pwrBegin (sameNow_setF h))

theorem sameNow_pwrWrite {x1} (h : SameNow s u) : SameNow s (State.pwrWrite u x1) := by
  unfold State.pwrWrite
  exact sameNow_pwrRequest h

end

end Sys2Proof.Machine

/-! ## Model time through the register bus, the router and the tick -/

namespace Sys2Proof.Machine

section

variable {s u : State}

/-! ### The register bus -/

theorem sameNow_beView {x1 x2 x3} (h : SameNow s u) : SameNow s (State.beView u x1 x2 x3).2 := by
  unfold State.beView
  exact SameNow.ite2 (fun _ => SameNow.mk2 h) (fun _ => SameNow.ite2 (fun _ => SameNow.mk2 h) (fun _ => SameNow.ite2
      (fun _ => sameNow_dmaStatus h) (fun _ => SameNow.mk2 h)))

theorem sameNow_prefetchRead {x1} (h : SameNow s u) : SameNow s (State.prefetchRead u x1).2 := by
  unfold State.prefetchRead
  refine (SameNow.ite2 (fun _ => SameNow.mk2 h) (fun _ => ?_))
  split
  rename_i y15 h16
  have h21 := SameNow.pair h16 (sameNow_fresh h)
  exact SameNow.mk2 h21

theorem sameNow_regRead {x1 x2} (h : SameNow s u) : SameNow s (State.regRead u x1 x2).2 := by
  unfold State.regRead
  refine SameNow.ite2 (fun _ => sameNow_evtPop h) (fun _ => ?_)
  refine SameNow.ite2 (fun _ => sameNow_ltRead h) (fun _ => ?_)
  refine SameNow.ite2 (fun _ => sameNow_capRead h) (fun _ => ?_)
  refine SameNow.ite2 (fun _ => sameNow_capRead h) (fun _ => ?_)
  refine SameNow.ite2 (fun _ => sameNow_beView h) (fun _ => ?_)
  split
  · exact sameNow_prefetchRead h
  · exact h

theorem sameNow_curveRead {x1 x2 x3} (h : SameNow s u) : SameNow s (State.curveRead u x1 x2 x3).2 := by
  unfold State.curveRead
  split
  rename_i y15 h16
  have h17 := SameNow.pair h16 (sameNow_checkWord h)
  exact SameNow.mk2 h17

theorem sameNow_busReadAt {x1 x2} (h : SameNow s u) : SameNow s (State.busReadAt u x1 x2).2 := by
  unfold State.busReadAt
  extract_lets -merge v6
  refine (SameNow.ite2 (fun _ => SameNow.mk2 h) (fun _ => ?_))
  split
  · exact sameNow_curveRead h
  · split
    · exact SameNow.mk2 (sameNow_unmapped h)
    · exact SameNow.ite2 (fun _ => SameNow.mk2 h) (fun _ => sameNow_regRead h)

theorem sameNow_busRead {x1 x2} (h : SameNow s u) : SameNow s (State.busRead u x1 x2).2 := by
  unfold State.busRead
  exact SameNow.ite2 (fun _ => h) (fun _ => SameNow.ite2 (fun _ => SameNow.mk2 (sameNow_busErr h)) (fun _ => sameNow_busReadAt h))

theorem sameNow_regPlain {x1 x2 x3} (h : SameNow s u) : SameNow s (State.regPlain u x1 x2 x3) := by
  unfold State.regPlain
  exact SameNow.ite (fun _ => h) (fun _ => sameNow_setReg h)

theorem sameNow_fenceWrite {x1} (h : SameNow s u) : SameNow s (State.fenceWrite u x1) := by
  unfold State.fenceWrite
  extract_lets -merge v5
  exact SameNow.ite (fun _ => h) (fun _ => sameNow_signal h)

theorem sameNow_domCfgWrite {x1 x2 x3} (h : SameNow s u) : SameNow s (State.domCfgWrite u x1 x2 x3) := by
  unfold State.domCfgWrite
  extract_lets -merge v10
  exact sameNow_freshCheck (sameNow_regPlain h)

theorem sameNow_actSys {x1 x2} (h : SameNow s u) : SameNowO s (State.actSys u x1 x2) := by
  unfold State.actSys
  refine SameNowO.ite (fun _ => ?_) (fun _ => ?_)
  · exact SameNowO.some (sameNow_stageData h)
  · refine SameNowO.ite (fun _ => ?_) (fun _ => ?_)
    · exact SameNowO.some (sameNow_updCmd h)
    · refine SameNowO.ite (fun _ => ?_) (fun _ => ?_)
      · exact SameNowO.some (sameNow_otpWrite h)
      · refine SameNowO.ite (fun _ => ?_) (fun _ => ?_)
        · exact SameNowO.some (sameNow_pwrWrite h)
        · refine SameNowO.ite (fun _ => ?_) (fun _ => ?_)
          · exact SameNowO.some (SameNow.ite (fun _ => sameNow_setRegN h) (fun _ => h))
          · exact SameNowO.none

theorem sameNow_actTime {x1 x2 x3} (h : SameNow s u) : SameNowO s (State.actTime u x1 x2 x3) := by
  unfold State.actTime
  refine SameNowO.ite (fun _ => .some (sameNow_ctrlWrite h)) (fun _ => .ite (fun _ => .some (sameNow_snapCmd h)) (fun _ => .ite (fun _ => ?_)
    (fun _ => ?_)))
  · exact .ite (fun _ => .some (sameNow_domCfgWrite h)) (fun _ => .ite (fun _ => .some (sameNow_incrWrite h)) (fun _ =>
      .ite (fun _ => .some (sameNow_offsetWrite h)) (fun _ => .ite (fun _ => .some (sameNow_adjust h)) (fun _ =>
      .ite (fun _ => .some (sameNow_servo h)) (fun _ => .none)))))
  · split
    · exact .some (sameNow_schedCfg h)
    · exact .map (fun _ => sameNow_schedTarget h)

theorem sameNow_actMsg {x1 x2} (h : SameNow s u) : SameNowO s (State.actMsg u x1 x2) := by
  unfold State.actMsg
  refine SameNowO.ite (fun _ => .some (sameNow_fenceWrite h)) (fun _ => .ite (fun _ => .some (sameNow_evtSkip h)) (fun _ =>
    .ite (fun _ => .some (sameNow_evtOwner h)) (fun _ => .ite (fun _ => .some (sameNow_spCmd h)) (fun _ => ?_))))
  split
  · exact .some (sameNow_flipCommit h)
  · split
    · exact .some (sameNow_setReg h)
    · exact .map (fun _ => sameNow_rawAddr h)

theorem sameNow_actTile {x1 x2 x3} (h : SameNow s u) : SameNowO s (State.actTile u x1 x2 x3) := by
  unfold State.actTile
  refine SameNowO.ite (fun _ => .some (.ite (fun _ => sameNow_recTrigger h) (fun _ => .ite (fun _ => sameNow_recRearmOp h) (fun _ => h))))
    (fun _ => .ite (fun _ => .some (sameNow_timingCommit h)) (fun _ => .ite (fun _ => .some (sameNow_darnCfg h)) (fun _ =>
    .ite (fun _ => .some (.ite (fun _ => sameNow_baselineOp h) (fun _ => .ite (fun _ => sameNow_checkpointOp h)
    (fun _ => .ite (fun _ => sameNow_clearStateOp h) (fun _ => h))))) (fun _ =>
    .ite (fun _ => .some (sameNow_directWrite h)) (fun _ => ?_)))))
  split
  · exact .some (.ite (fun _ => sameNow_updCommitOp h) (fun _ => .ite (fun _ => sameNow_updFillOp h) (fun _ =>
      .ite (fun _ => sameNow_updCancelOp h) (fun _ => h))))
  · split
    · exact .some (.ite (fun _ => sameNow_tgStart h) (fun _ => .ite (fun _ => sameNow_tgStop h) (fun _ => h)))
    · split
      · exact .some (.ite (fun _ => sameNow_enableOp h) (fun _ => .ite (fun _ => sameNow_disableOp h) (fun _ =>
          .ite (fun _ => sameNow_recalNext h) (fun _ => .ite (fun _ => sameNow_retryOp h) (fun _ => h)))))
      · exact .map (fun _ => .ite (fun _ => sameNow_tregOp h) (fun _ => .ite (fun _ => sameNow_tregOp h) (fun _ => h)))

theorem sameNow_actUnit {x1 x2} (h : SameNow s u) : SameNowO s (State.actUnit u x1 x2) := by
  unfold State.actUnit
  refine SameNowO.ite (fun _ => .some (sameNow_ackScWrite h)) (fun _ => .ite (fun _ => .some (sameNow_ackTtWrite h)) (fun _ =>
    .ite (fun _ => .some (sameNow_eccWrite h)) (fun _ => .ite (fun _ => ?_) (fun _ => .map (fun _ => sameNow_beCmd h)))))
  exact .ite (fun _ => .some (sameNow_crcCmd h)) (fun _ => .ite (fun _ => .some (sameNow_crcBusyErr h)) (fun _ => .none))

theorem sameNow_regAct {x1 x2 x3} (h : SameNow s u) : SameNow s (State.regAct u x1 x2 x3) := by
  unfold State.regAct
  exact SameNowO.getD (.ite (fun _ => sameNow_actSys h) (fun _ => .ite (fun _ => sameNow_actTime h) (fun _ => .ite (fun _ => sameNow_actMsg h)
    (fun _ => .ite (fun _ => sameNow_actTile h) (fun _ => sameNow_actUnit h))))) (sameNow_regPlain h)

theorem sameNow_regWrite {x1 x2 x3} (h : SameNow s u) : SameNow s (State.regWrite u x1 x2 x3) := by
  unfold State.regWrite
  refine (sameNow_lockWrite h (fun _ _ _ => ?_))
  rename_i y11 h12
  exact sameNow_regAct h12

theorem sameNow_busWriteAt {x1 x2} (h : SameNow s u) : SameNow s (State.busWriteAt u x1 x2) := by
  unfold State.busWriteAt
  refine SameNow.ite (fun _ => h) (fun _ => ?_)
  refine SameNow.ite (fun _ => sameNow_lockViol h) (fun _ => ?_)
  refine SameNow.ite (fun _ => h) (fun _ => ?_)
  split
  · exact sameNow_unmapped h
  · exact SameNow.ite (fun _ => h) (fun _ => sameNow_regWrite h)

theorem sameNow_busWrite {x1 x2} (h : SameNow s u) : SameNow s (State.busWrite u x1 x2) := by
  unfold State.busWrite
  exact SameNow.ite (fun _ => h) (fun _ => SameNow.ite (fun _ => sameNow_busErr h) (fun _ => sameNow_busWriteAt h))

/-! ### The router and the firmware -/

theorem sameNow_holvoFlip {x1} (h : SameNow s u) : SameNow s (State.holvoFlip u x1).2 := by
  unfold State.holvoFlip
  extract_lets -merge v5 v6 v7 v8
  refine (SameNow.ite2 (fun _ => SameNow.mk2 h) (fun _ => SameNow.ite2 (fun _ => SameNow.mk2 h) (fun _ => SameNow.ite2 (fun _ => SameNow.mk2 h)
      (fun _ => SameNow.ite2 (fun _ => SameNow.mk2 (sameNow_refuseFlip h)) (fun _ => ?_)))))
  split
  rename_i y25 h26
  have h27 := SameNow.pair h26 (sameNow_commitFlip h)
  exact SameNow.mk2 h27

theorem sameNow_holvoFence {x1} (h : SameNow s u) : SameNow s (State.holvoFence u x1).2 := by
  unfold State.holvoFence
  extract_lets -merge v5 v6
  exact SameNow.ite2 (fun _ => SameNow.mk2 h) (fun _ => SameNow.ite2 (fun _ => SameNow.mk2 h) (fun _ => SameNow.ite2 (fun _ => SameNow.mk2 h)
      (fun _ => SameNow.ite2 (fun _ => SameNow.mk2 h) (fun _ => SameNow.mk2 (sameNow_signal h)))))

theorem sameNow_schedPut {x1 x2 x3 x4 x5} (h : SameNow s u) : SameNow s (State.schedPut u x1 x2 x3 x4 x5).2 := by
  unfold State.schedPut
  extract_lets -merge v1 v2 v3
  have h4 : SameNow s v1 := sameNow_setReg (sameNow_setReg h)
  have h5 : SameNow s v2 := sameNow_setPair h4
  have h6 : SameNow s v3 := sameNow_setRegN h5
  exact SameNow.ite2 (fun _ => sameNow_schedArm h6) (fun _ => SameNow.mk2 (sameNow_schedOff h6))

theorem sameNow_holvoSched {x1} (h : SameNow s u) : SameNow s (State.holvoSched u x1).2 := by
  unfold State.holvoSched
  extract_lets -merge v1 v2
  refine SameNow.ite2 (fun _ => h) (fun _ => ?_)
  refine SameNow.ite2 (fun _ => h) (fun _ => ?_)
  refine SameNow.ite2 (fun _ => h) (fun _ => ?_)
  refine SameNow.ite2 (fun _ => h) (fun _ => ?_)
  refine SameNow.ite2 (fun _ => h) (fun _ => ?_)
  refine SameNow.ite2 (fun _ => SameNow.mk2 (sameNow_schedOff h)) (fun _ => ?_)
  split
  rename_i e6
  have h7 := SameNow.pair e6 (sameNow_schedPut h)
  exact h7

theorem sameNow_mboxNak {x1} (h : SameNow s u) : SameNow s (State.mboxNak u x1) := by
  unfold State.mboxNak
  refine (SameNow.foldl h (fun _ _ _ => ?_))
  rename_i y8 y9 h10
  exact sameNow_bumpF h10

theorem sameNow_mboxTrig {x1} (h : SameNow s u) : SameNow s (State.mboxTrig u x1) := by
  unfold State.mboxTrig
  exact SameNow.ite (fun _ => sameNow_trigger h) (fun _ => h)

theorem sameNow_mboxPut {x1 x2} (h : SameNow s u) : SameNow s (State.mboxPut u x1 x2) := by
  unfold State.mboxPut
  split
  · exact h
  · extract_lets -merge v6
    have h7 : SameNow s v6 := sameNow_writeAll h
    exact sameNow_updEng h7

theorem sameNow_deliver {x1 x2} (h : SameNow s u) : SameNow s (State.deliver u x1 x2).2 := by
  unfold State.deliver
  extract_lets -merge v1 v2 v3
  exact SameNow.ite2 (fun _ => SameNow.mk2 (sameNow_mboxNak h)) (fun _ => SameNow.ite2 (fun _ => h) (fun _ => SameNow.ite2
      (fun _ => SameNow.mk2 (sameNow_mboxNak h)) (fun _ => SameNow.ite2 (fun _ => SameNow.mk2 (sameNow_mboxNak h))
      (fun _ => SameNow.mk2 (SameNow.foldl (SameNow.foldl h (fun y7 y8 h9 => sameNow_mboxPut h9)) (fun y4 y5 h6 => sameNow_mboxTrig h6))))))

theorem sameNow_poseCopy {x1} (h : SameNow s u) : SameNow s (State.poseCopy u x1) := by
  unfold State.poseCopy
  refine SameNow.ite (fun _ => h) (fun _ => ?_)
  extract_lets -merge v1
  exact sameNow_hidWrite (sameNow_updSafe h)

theorem sameNow_fastRec {x1 x2} (h : SameNow s u) : SameNow s (State.fastRec u x1 x2).2 := by
  unfold State.fastRec
  exact SameNow.ite2 (fun _ => sameNow_holvoFlip h) (fun _ => SameNow.ite2 (fun _ => sameNow_holvoFence h) (fun _ => SameNow.ite2
      (fun _ => sameNow_holvoSched h) (fun _ => SameNow.ite2 (fun _ => sameNow_deliver (sameNow_poseCopy h)) (fun _ => SameNow.ite2
      (fun _ => sameNow_deliver h) (fun _ => SameNow.mk2 h)))))

theorem sameNow_readWords {x1 x2 x3 x4} (h : SameNow s u) : SameNow s (State.readWords u x1 x2 x3 x4).2 := by
  induction x4 generalizing u x2 with
  | zero => exact h
  | succ k ih =>
    rw [State.readWords]
    exact ih (sameNow_busRead h)

theorem sameNow_writeWords {x1 x2 x3} (h : SameNow s u) : SameNow s (State.writeWords u x1 x2 x3) := by
  induction x3 generalizing u x1 with
  | nil => exact h
  | cons v t ih =>
    rw [State.writeWords]
    exact ih (sameNow_busWrite h)

theorem sameNow_fwRegRead {x1} (h : SameNow s u) : SameNow s (State.fwRegRead u x1).2 := by
  unfold State.fwRegRead
  extract_lets -merge v5
  refine (SameNow.ite2 (fun _ => SameNow.mk2 h) (fun _ => SameNow.ite2 (fun _ => SameNow.mk2 h) (fun _ => ?_)))
  split
  rename_i y20 h21
  have h22 := SameNow.pair h21 (sameNow_readWords h)
  exact SameNow.mk2 h22

theorem sameNow_fwRegWrite {x1} (h : SameNow s u) : SameNow s (State.fwRegWrite u x1).2 := by
  unfold State.fwRegWrite
  exact SameNow.ite2 (fun _ => SameNow.mk2 h) (fun _ => SameNow.mk2 (sameNow_writeWords h))

theorem sameNow_fwStage {x1} (h : SameNow s u) : SameNow s (State.fwStage u x1).2 := by
  unfold State.fwStage
  exact SameNow.ite2 (fun _ => SameNow.mk2 h) (fun _ => SameNow.ite2 (fun _ => SameNow.mk2 (sameNow_updNak h))
      (fun _ => SameNow.mk2 (sameNow_stageBytes h)))

theorem sameNow_fwWord {x1 x2} (h : SameNow s u) : SameNow s (State.fwWord u x1 x2).2 := by
  unfold State.fwWord
  exact SameNow.ite2 (fun _ => SameNow.mk2 h) (fun _ => SameNow.mk2 (sameNow_busWrite h))

theorem sameNow_fwStream {x1} (h : SameNow s u) : SameNow s (State.fwStream u x1).2 := by
  unfold State.fwStream
  exact SameNow.ite2 (fun _ => SameNow.mk2 h) (fun _ => SameNow.ite2 (fun _ => SameNow.mk2 h) (fun _ => SameNow.ite2 (fun _ => SameNow.mk2 h)
      (fun _ => SameNow.ite2 (fun _ => SameNow.mk2 h) (fun _ => SameNow.mk2 (sameNow_updHamper h)))))

theorem sameNow_fwSpool {x1} (h : SameNow s u) : SameNow s (State.fwSpool u x1).2 := by
  unfold State.fwSpool
  extract_lets -merge v5
  refine (SameNow.ite2 (fun _ => SameNow.mk2 h) (fun _ => SameNow.ite2 (fun _ => SameNow.mk2 h) (fun _ => ?_)))
  split
  rename_i y20 h21
  have h22 := SameNow.pair h21 (sameNow_spRead h)
  exact SameNow.mk2 h22

theorem sameNow_fwSak {x1} (h : SameNow s u) : SameNow s (State.fwSak u x1).2 := by
  unfold State.fwSak
  extract_lets -merge v6 v7
  refine (SameNow.ite2 (fun _ => SameNow.mk2 h) (fun _ => ?_))
  split
  · exact SameNow.mk2 h
  · exact SameNow.mk2 (sameNow_updHost h)

theorem sameNow_fwDiag (h : SameNow s u) : SameNow s (State.fwDiag u).2 := by
  unfold State.fwDiag
  refine (SameNow.ite2 (fun _ => ?_) (fun _ => SameNow.mk2 h))
  split
  rename_i y14 h15
  have h16 := SameNow.pair h15 (sameNow_fresh h)
  exact SameNow.mk2 h16

theorem sameNow_fwOp {x1 x2} (h : SameNow s u) : SameNow s (State.fwOp u x1 x2).2 := by
  unfold State.fwOp
  split
  · exact SameNow.ite2 (fun _ => SameNow.mk2 h) (fun _ => SameNow.mk2 h)
  · exact sameNow_fwRegRead h
  · exact sameNow_fwRegWrite h
  · exact sameNow_fwStage h
  · exact sameNow_fwWord h
  · exact sameNow_fwStream h
  · exact sameNow_fwWord h
  · exact sameNow_fwSpool h
  · exact sameNow_fwSak h
  · exact sameNow_fwWord h
  · exact sameNow_fwWord h
  · exact SameNow.ite2 (fun _ => sameNow_fwDiag h) (fun _ => SameNow.mk2 h)

theorem sameNow_answer {x1 x2 x3 x4 x5} (h : SameNow s u) : SameNow s (State.answer u x1 x2 x3 x4 x5) := by
  unfold State.answer
  split
  · exact sameNow_nakRec h
  · exact SameNow.ite (fun _ => sameNow_ackRec h) (fun _ => h)

theorem sameNow_fwRec {x1 x2} (h : SameNow s u) : SameNow s (State.fwRec u x1 x2) := by
  unfold State.fwRec
  refine (SameNow.ite (fun _ => SameNow.ite (fun _ => sameNow_stateRec h) (fun _ => sameNow_answer h)) (fun _ => ?_))
  split
  rename_i y20 h21
  have h22 := SameNow.pair h21 (sameNow_fwOp h)
  exact sameNow_answer h22

theorem sameNow_fwServe (h : SameNow s u) : SameNow s (State.fwServe u) := by
  unfold State.fwServe
  split
  · exact h
  · exact SameNow.ite (fun _ => sameNow_fwRec (sameNow_updHost h)) (fun _ => h)

theorem sameNow_fwAccept {x1 x2} (h : SameNow s u) : SameNow s (State.fwAccept u x1 x2) := by
  unfold State.fwAccept
  extract_lets -merge v6 v7
  have h11 : SameNow s v7 := sameNow_updHost h
  exact SameNow.ite (fun _ => sameNow_answer h) (fun _ => SameNow.ite (fun _ => sameNow_fwServe h11) (fun _ => h11))

theorem sameNow_seqCheck {x1 x2 x3} (h : SameNow s u) : SameNow s (State.seqCheck u x1 x2 x3).2 := by
  unfold State.seqCheck
  extract_lets -merge v7 v8 v9 v10
  have h16 : SameNow s v10 := sameNow_hostEv (sameNow_raise h)
  exact SameNow.ite2 (fun _ => SameNow.mk2 (sameNow_hostEv (sameNow_setRegN h))) (fun _ => SameNow.ite2
      (fun _ => SameNow.mk2 (sameNow_setRegN h)) (fun _ => SameNow.ite2 (fun _ => SameNow.mk2 (sameNow_nakRec h16))
      (fun _ => SameNow.mk2 (sameNow_nakRec h))))

theorem sameNow_dispatchRec {x1 x2 x3} (h : SameNow s u) : SameNow s (State.dispatchRec u x1 x2 x3) := by
  unfold State.dispatchRec
  extract_lets -merge v11
  refine (SameNow.ite (fun _ => ?_) (fun _ => sameNow_fwAccept h))
  split
  rename_i y19 h20
  have h21 := SameNow.pair h20 (sameNow_fastRec h)
  exact sameNow_answer h21

theorem sameNow_route {x1 x2 x3} (h : SameNow s u) : SameNow s (State.route u x1 x2 x3) := by
  unfold State.route
  refine (SameNow.ite (fun _ => sameNow_raise h) (fun _ => SameNow.ite (fun _ => sameNow_raise h) (fun _ => ?_)))
  split
  · rename_i y17 h18
    have h19 := SameNow.pair h18 (sameNow_seqCheck h)
    exact h19
  · rename_i y23 h24
    have h25 := SameNow.pair h24 (sameNow_seqCheck h)
    split
    · exact sameNow_answer h25
    · exact sameNow_dispatchRec h25

theorem sameNow_routeBytes {x1 x2 x3} (h : SameNow s u) : SameNow s (State.routeBytes u x1 x2 x3) := by
  induction x3 generalizing u x2 with
  | zero => exact h
  | succ k ih =>
    rw [State.routeBytes]
    exact .ite (fun _ => h) (fun _ => .ite (fun _ => sameNow_raise h) (fun _ => ih (sameNow_route h)))

theorem sameNow_mboxRoute (h : SameNow s u) : SameNow s (State.mboxRoute u) := by
  unfold State.mboxRoute
  split
  · exact h
  · extract_lets -merge v29
    have h11 : SameNow s v29 := sameNow_updHost h
    exact SameNow.ite (fun _ => sameNow_raise h11) (fun _ => sameNow_routeBytes h11)

/-! ### The tick -/

/-- The tick's own count. -/
theorem now_tickTime (u : State) : u.tickTime.time.now = u.time.now + 1 := by
  have hnow : SameNow (u.updTime fun t => { t with now := t.now + 1 }) u.tickTime := by
    unfold State.tickTime
    extract_lets v r r2 w
    have hw : SameNow v w := SameNow.updTime (.refl v) fun _ => rfl
    exact .ite (fun _ => .refl v) fun _ => .ite (fun _ => hw) fun _ => sameNow_setResid hw
  exact hnow.now

theorem sameNow_tickStep (h : SameNow s u) : SameNow s (State.tickStep u) := by
  unfold State.tickStep
  exact SameNow.ite (fun _ => sameNow_timeStepOp h) (fun _ => h)

theorem sameNow_pulseStep {x1} (h : SameNow s u) : SameNow s (State.pulseStep u x1) := by
  unfold State.pulseStep
  extract_lets -merge v1
  exact SameNow.ite (fun _ => h) (fun _ => SameNow.ite (fun _ => sameNow_pulseFall h) (fun _ => h))

theorem sameNow_laneTick (h : SameNow s u) : SameNow s (State.laneTick u) := by
  unfold State.laneTick
  exact SameNow.ite (fun _ => SameNow.foldl h (fun y1 y2 h3 => sameNow_laneStep h3)) (fun _ => h)

theorem now_tick (u : State) : u.tick.time.now = u.time.now + 1 := by
  refine SameNow.now (s := u.tickTime) ?_ |>.trans (now_tickTime u)
  unfold State.tick
  extract_lets -merge v1 v2 v3 v4
  have h1 : SameNow u.tickTime v1 := sameNow_settleCross (sameNow_pmicStep (sameNow_laneTick (.refl _)))
  have h2 : SameNow u.tickTime v2 := sameNow_deltaStep h1
  have h3 : SameNow u.tickTime v3 := .foldl (.foldl (sameNow_tickStep (sameNow_wakeStep h2)) fun _ _ => sameNow_preEnter) fun _ _ => sameNow_pulseStep
  have h4 : SameNow u.tickTime v4 := .ite (fun _ => sameNow_fwServe (sameNow_mboxRoute h3)) fun _ => h3
  exact .foldl (sameNow_traceStep (sameNow_startDone (sameNow_pwrTake h4))) fun _ _ => sameNow_crcStep

end

/-- Settles O2: a step on an empty queue is a tick, whose count is its first operation's; nothing after it counts, and none touches the queue. -/
theorem idleTick : Obligations.IdleTick := by
  unfold Obligations.IdleTick
  intro s hp
  have hstep : step s = .next s.tick := by
    unfold step
    rw [hp]
  exact ⟨s.tick, hstep, (keeps_tick (.refl s)).fixed.pending.trans hp, now_tick s⟩

end Sys2Proof.Machine
